-- ==== Sys2Proof/Word.lean ====
section
/-! DEFINITION. Word.lean: the word, byte and index types of the hub, and their plainest arithmetic.
Registers are 32 bits (R269), BEAT_NUM is 48 bits (R22), addresses are 40 bits (R465). -/

namespace Sys2Proof

/-- A register word, R269. -/
abbrev Word := BitVec 32

/-- A byte of a payload or of an addressed memory. -/
abbrev Byte := BitVec 8

/-- A beat number, R22. -/
abbrev Beat := BitVec 48

/-- An endpoint identifier, R139. -/
abbrev EpId := BitVec 25

/-- A hub identity, R30. -/
abbrev HubId := BitVec 64

/-- A trunk port: 0 TA0, 1 TA1, 2 TB0, 3 TB1 (R141). -/
abbrev TrunkPort := Fin 4

/-- A local port LP0-LP15 (R16). -/
abbrev LocalPort := Fin 16

/-- A port that can run Torvisk Link, numbered as the egress ports 0-19 of R141. -/
abbrev LinkPort := Fin 20

/-- An egress port 0-20 (R141). -/
abbrev EgressPort := Fin 21

/-- A lane 0-31 (R51). -/
abbrev LaneIx := Fin 32

/-- A master ID 0x00-0x21 (Table ACP-1). -/
abbrev Master := Fin 34

/-- A traffic class (Table SCH-1). -/
abbrev Cls := Fin 8

/-- A Cavern queue 8 x port + TC (R168). -/
abbrev QueueIx := Fin 168

/-- An engine TE0-TE17 (R249). -/
abbrev EngineIx := Fin 18

/-- An engine role 0-15 (R250). -/
abbrev RoleIx := Fin 16

/-- A Column 0-3 (R259). -/
abbrev ColumnIx := Fin 4

/-- A physical chamber 0-16 (R163). -/
abbrev ChamberIx := Fin 17

/-- A monitor channel 0-54 (Table MON-1). -/
abbrev ChannelIx := Fin 55

end Sys2Proof
end

