-- ==== Sys2Proof/Syntax.lean ====
section
/-! DEFINITION. Syntax.lean: the commands of the hub, one constructor of Instr per row of
spec/opcode_table.json, and the operand types they carry. The rows carry no bits: the operands are
what the spec's rules say the event brings with it (a frame, a block, a written word, a level). -/

namespace Sys2Proof

/-- What a SECDED or ECC read finds (R184, R187). -/
inductive EccResult where
  | clean | corrected | uncorrectable
deriving DecidableEq, Repr

/-- An error met in reading the cells of a frame (R187): the physical chamber, whether it can be corrected, and whether the frame's first
block had left by then (R186). -/
structure CellError where
  chamber : ChamberIx
  fatal : Bool
  started : Bool
deriving DecidableEq, Repr

/-- A frame slot of a port (R201): the CCLK cycle of its beat at which it comes up, and the errors that the reads of its frame's cells
meet (R187). -/
structure FrameSlot where
  cclk : Nat
  found : List CellError
deriving DecidableEq, Repr

/-- A tunnel frame header, Table TUN-1, and its payload as it stands on the link. -/
structure Frame where
  destEp : EpId
  srcEp : EpId
  tc : BitVec 3
  cm : Bool
  de : Bool
  kind : BitVec 4
  pep : BitVec 4
  dl : Bool
  len : BitVec 14
  seq : BitVec 16
  beat : BitVec 16
  sa : BitVec 8
  hcs : BitVec 8
  tw : BitVec 2
  payload : List Byte
deriving DecidableEq, Repr

/-- A frame as received: its trailer and the number of bytes between SOF and EOF (R58, R129, R134). -/
structure RxFrame where
  frame : Frame
  fcs : Word
  tag : BitVec 128
  bytes : Nat
deriving DecidableEq, Repr

/-- The tag the hub puts on what an engine emits or writes: the engine, the role and the role's
epoch at the time of issue (R237). -/
structure EngineTag where
  engine : EngineIx
  role : RoleIx
  epoch : BitVec 8
deriving DecidableEq, Repr

/-- What a write puts on the fabric: its data and, for an engine's write, its tag (R237). -/
structure TaggedData where
  data : BitVec 64
  tag : Option EngineTag
deriving DecidableEq, Repr

/-- A CAP record, parts 0 to 2 of Table LAN-3, without its LANE field. -/
structure CapRecord where
  rate : BitVec 2
  rates : BitVec 3
  lanes : BitVec 3
  backbone : BitVec 1
  carEnd : BitVec 1
  seat : BitVec 2
  role : BitVec 2
  cl : BitVec 8
  keySlot : BitVec 8
  sat : Bool
  id : HubId
deriving DecidableEq, Repr

/-- One AMK block of a port: its lane, AMK_SEQ, WIDTH code and its lag in blocks behind the earliest
lane's (R73). -/
structure AmkMark where
  lane : Fin 4
  seq : BitVec 16
  width : BitVec 2
  lag : Nat
deriving DecidableEq, Repr

/-- A hub record of an ECHO frame, Table CPL-7. -/
structure HubRecord where
  id : HubId
  slot : BitVec 7
  prio : BitVec 3
  carRole : BitVec 2
  seat : BitVec 2
  sump : Bool
  cl : BitVec 8
  datelineOk : Bool
  nb : Vector (BitVec 7) 4
  pst : Vector (BitVec 2) 4
  prefSlot : BitVec 7
  recSeq : BitVec 32
  nbId : Vector HubId 4
deriving DecidableEq, Repr

/-- A merge record of an ECHO frame, Table CPL-6. -/
structure MergeRecord where
  s : Beat
  jn : Beat
  ofs : Beat
  delta : BitVec 32
  cancel : Bool
  stepMasterSide : Bool
  pepNew : BitVec 4
  masterId : HubId
  jointId : HubId
deriving DecidableEq, Repr

/-- A slot assignment of an ECHO frame, Table CPL-5. -/
structure SlotAssign where
  id : HubId
  slot : BitVec 7
deriving DecidableEq, Repr

/-- An ECHO frame payload, Table CPL-5. `n` is the N field as sent. -/
structure EchoPayload where
  ver : Byte
  change : Bool
  viewSeq : BitVec 16
  senderId : HubId
  senderSlot : BitVec 7
  pep : BitVec 4
  pepNext : BitVec 4
  epochBeat : Beat
  n : BitVec 16
  masterId : HubId
  moveBeat : Beat
  annSeq : BitVec 16
  nextMasterId : HubId
  merge : Option MergeRecord
  hubs : List HubRecord
  assigns : List SlotAssign
deriving DecidableEq, Repr

/-- A request in the payload layout of Table TUN-4 (MGMT agent, maintenance function). `len` is the
payload length in bytes. -/
structure MgmtRequest where
  ver : Byte
  op : Byte
  tag : BitVec 16
  count : Byte
  addr : BitVec 40
  len : Nat
  data : List Word
deriving DecidableEq, Repr

/-- The kind of an access (R307). -/
inductive AccessKind where
  | read | write | fetch
deriving DecidableEq, Repr

/-- An access to the address space (R309): issuer, kind, first byte, size in bytes and, for a write,
its bytes. An engine's access carries its tag; `ecc` is what a read of Sump finds (R182, R184). -/
structure Access where
  master : Master
  kind : AccessKind
  addr : BitVec 40
  size : Nat
  data : List Byte
  tag : Option EngineTag
  ecc : EccResult := .clean
deriving DecidableEq, Repr

/-- One rate set: CIR, CBS, PIR, PBS in the formats of R208. -/
structure RateSet where
  cir : Word
  cbs : BitVec 24
  pir : Word
  pbs : BitVec 24
deriving DecidableEq, Repr

/-- A shaper value of an allotment plan (R220). -/
structure PlanShaper where
  port : EgressPort
  cls : Cls
  rates : RateSet
  resetMode : Bool
deriving DecidableEq, Repr

/-- What Column 0 has computed for a new allotment plan (R220, R221): the profiles and class
defaults, and the shaper sets, that change. `afterRaise` is the announced epoch raise it follows and
`widthChange` says that a width change caused it. -/
structure Plan where
  profiles : List (BitVec 12 × RateSet)
  classDefaults : List (Cls × RateSet)
  shapers : List PlanShaper
  afterRaise : Option Beat
  widthChange : Bool
deriving DecidableEq, Repr

/-- What SFDP discovery finds (R350): log2 of the density, a quad read listed, 4-byte addressing. -/
structure SfdpInfo where
  log2 : BitVec 5
  quad : Bool
  addr4 : Bool
deriving DecidableEq, Repr

/-- What a GetDescriptor request asks for: a hub's descriptors, the link power capabilities, the function's interface (R402, R405, R406). -/
inductive UsbDescriptorKind where
  | hub20 | hubSs | capability | function
deriving DecidableEq, Repr

/-- What the host does with the hub and the function beside their own commands: the standard requests on endpoint 0 that the spec names
(R402, R405, R406, R411, R412), a vendor request that Table USB-4 does not list (R408), the link-power events of R405 (an entry into U1 or
U2 that the host starts, 100 µs without a pending transfer, a request that puts a downstream port into L1 and what its device answered),
and the requests of the hub class to a downstream port (R401). -/
inductive StdRequest where
  | setAddress (a : BitVec 7)
  | setConfiguration (c : Byte)
  | setRemoteWake (on : Bool)
  | setU1 (on : Bool)
  | setU2 (on : Bool)
  | getDescriptor (kind : UsbDescriptorKind)
  | vendor (bRequest : Byte)
  | linkEntry (u2 : Bool)
  | idle
  | portL1 (n : Fin 4) (accepted : Bool)
  | portSuspend (n : Fin 4) (on : Bool)
  | portReset (n : Fin 4)
  | portStatus (n : Fin 4)
deriving DecidableEq, Repr

/-- A fixed supply of a Source_Capabilities message (R420): current in 10 mA, voltage in 50 mV. -/
structure FixedPdo where
  cur : BitVec 10
  volt : BitVec 10
deriving DecidableEq, Repr

/-- A PD port: UP, DN1 or DN2 (Table USB-11). -/
abbrev PdPort := Fin 3

/-- A downstream port of the USB hub, 0-3 for DN1-DN4. -/
abbrev DnPort := Fin 4

/-- A Type-C source port, 0 for DN1 and 1 for DN2. -/
abbrev DnPd := Fin 2

/-- What the CC pins of UP show (R413): the pin with the pull-up, whether it has stood for tCCDebounce, and the fastest speed of the USB
host behind it, coded as UP_SPEED, 0 where the source is none. -/
structure UpPlug where
  cc2 : Bool
  settled : Bool
  host : BitVec 2
deriving DecidableEq, Repr

/-- How the other end loads a CC pin of a source (R414). -/
inductive CcPin where
  | free | rd | ra
deriving DecidableEq, Repr

/-- What the CC pins of DN1 or DN2 show, and whether it has stood for tCCDebounce (R414). -/
structure DnPlug where
  cc1 : CcPin
  cc2 : CcPin
  settled : Bool
deriving DecidableEq, Repr

/-- The object position of a PD Request, and whether its header names PD 3.x (R416, Table USB-12). -/
structure RequestHead where
  pos : BitVec 3
  pd3 : Bool
deriving DecidableEq, Repr

/-- A PD message without a command of its own: the port it reaches, and whether it is VCONN_Swap (Table USB-5, R423). -/
structure PdMessage where
  port : PdPort
  vconnSwap : Bool
deriving DecidableEq, Repr

/-- COUNT of a read of the car computer, and the bytes after which it ends the read early (R463). -/
structure CarCount where
  count : Byte
  taken : Option Nat
deriving DecidableEq, Repr

/-- ADDR as the car computer sends it, most significant byte first (R462). -/
abbrev CarAddr := Vector Byte 5

/-- The car computer's interface (R17): on I2C with the address it calls (R449). -/
inductive CarPort where
  | spi
  | i2c (addr : BitVec 7)
deriving DecidableEq, Repr

/-- A transaction of the car computer that neither reads nor writes: its interface and its opcode, 0x05 for write status, or one that the
hub ignores (R463). -/
structure CarTx where
  via : CarPort
  opcode : Byte
deriving DecidableEq, Repr

/-- What retires a task table: a role or a Column (R254). -/
inductive TaskOwner where
  | role (r : RoleIx)
  | column (c : ColumnIx)
deriving DecidableEq, Repr

/-- A command: one constructor per row of spec/opcode_table.json, in its order. -/
inductive Instr where
  -- the beat
  | beatHead
  | beatBlockReceived (port : LinkPort) (num : Word) (hops : BitVec 6) (hold : Bool) (ofs : BitVec 10) (pep : BitVec 4) (late : Int)
  | holdoverEntry
  | enterMaster
  | masterMove
  | mergeStep
  | beatCommit (m : Master) (group : BitVec 8)
  | beatCancel (m : Master) (group : BitVec 8)
  | epochRaise
  | pepPrevWindowEnd
  -- lanes and blocks
  | blockReceived (lane : LaneIx) (hdr : BitVec 2) (payload : BitVec 64) (reads : Nat)
  | trainBlockReceived (lane : LaneIx) (reqPre reqPost : BitVec 2) (reqPreset : BitVec 3) (ack : BitVec 2) (rxReady : Bool) (tseq ackSeq : BitVec 8) (settled : Bool)
  | capRecordReceived (port : LinkPort) (lane : Fin 4) (rec : CapRecord) (consecutive : Bool)
  | amkReceived (port : LinkPort) (marks : List AmkMark) (sincePrev : Nat)
  | amkSend (port : LinkPort)
  | credReceived (port : LinkPort) (tc : Cls) (esc : Bool) (count : BitVec 20)
  | credBlockSend (port : LinkPort) (tc : Cls) (esc : Bool)
  | creditResyncPeriodic (port : LinkPort)
  | creditResyncIgnoreEnd (port : LinkPort)
  | creditResyncSecondCred (port : LinkPort)
  | echoRequestSend (port : LinkPort)
  | echoRequestReceived (port : LinkPort) (lane : Fin 4) (eseq : BitVec 7) (turn : BitVec 24)
  | echoReplyReceived (port : LinkPort) (eseq : BitVec 7) (turn : BitVec 24) (roundTrip : Nat)
  | delayUpdate (port : TrunkPort)
  | fltReceived (port : LinkPort) (code : BitVec 4) (lanes : BitVec 4)
  | txLaneJoin (port : LinkPort) (lane : Fin 4)
  | fltSend (port : LinkPort)
  | lpbkRequestReceived (port : LinkPort) (lanes : BitVec 4)
  | lpbkAnswerReceived (port : LinkPort) (lanes : BitVec 4) (accepted : Bool)
  | lpbkReleaseReceived (port : LinkPort) (lanes : BitVec 4)
  | lpbkRequestSend (lane : LaneIx)
  | lpbkTimeout (lane : LaneIx)
  | laneLoopWrite (m : Master) (lane : LaneIx) (data : Word)
  | losAssert (lane : LaneIx)
  | losClear (lane : LaneIx)
  | lolAssert (lane : LaneIx)
  | lolClear (lane : LaneIx)
  | eyeMeasurement (lane : LaneIx) (height : BitVec 10) (width : BitVec 7)
  | trendUpdate
  | laneTrendClrWrite (m : Master) (data : Word)
  | locModeWrite (m : Master) (port : LocalPort) (data : Word)
  | locGroupWrite (m : Master) (data : Word)
  | ethFrameReceived (port : LocalPort) (bytes : List Byte) (fcs : Word)
  -- port bring-up and admission
  | trkCfgEnWrite (m : Master) (port : TrunkPort) (data : Word)
  | coupledRise (port : TrunkPort)
  | coupleSnsOpen (port : TrunkPort)
  | coupleSnsBounce (port : TrunkPort)
  | downExit (port : LinkPort)
  | detectionResult (port : LinkPort) (lanes : BitVec 4)
  | detectRetry (port : LinkPort)
  | trainComplete (port : LinkPort)
  | trainTimeout (port : LinkPort)
  | lockComplete (port : LinkPort)
  | lockTimeout (port : LinkPort)
  | capxTimeout (port : LinkPort)
  | portActive (port : LinkPort)
  | authTimeout (port : TrunkPort)
  | authRetry (port : TrunkPort)
  | keyHelloReceived (port : TrunkPort) (payload : List Byte)
  | keyFinishReceived (port : TrunkPort) (payload : List Byte)
  | keyResumeReceived (port : TrunkPort) (payload : List Byte)
  | keyFailReceived (port : TrunkPort) (payload : List Byte)
  | rekeyDue (port : TrunkPort)
  | syncSend (port : LinkPort)
  | syncReceived (port : LinkPort) (payload : List Byte)
  -- Echo
  | echoFrameReceived (port : TrunkPort) (echo : EchoPayload)
  | echoFramePeriodicSend (port : TrunkPort)
  | neighbourDeadEchoTimeout (port : TrunkPort)
  | neighbourDeadLinkLoss (port : TrunkPort)
  | holdWindowClose (port : TrunkPort)
  | mergeAnnounce
  | mergeCancel
  | formingEnd
  -- tunnels
  | frameReceived (port : EgressPort) (rx : RxFrame) (tag : Option EngineTag)
  | entryFetchComplete (ep : EpId) (ecc : EccResult)
  | missWaitTimeout (ep : EpId)
  | mgmtReadRequest (srcEp : EpId) (tc : BitVec 3) (req : MgmtRequest)
  | mgmtWriteRequest (srcEp : EpId) (tc : BitVec 3) (req : MgmtRequest)
  | schedulerDecision (port : EgressPort) (slot : FrameSlot)
  | epRead (m : Master)
  | epWrite (m : Master)
  | epWriteKeep (m : Master)
  | epPin (m : Master)
  | epUnpin (m : Master)
  | epRevoke (m : Master)
  | epInvalidate (m : Master)
  | tunMapAdd (m : Master)
  | tunMapDelete (m : Master)
  | tunMapLookup (m : Master)
  -- Cavern and Sump
  | spillWriteComplete (q : QueueIx)
  | spillReturn (q : QueueIx) (ecc : EccResult)
  | sumpReadyFall
  | sumpPatrolScrub (ecc : EccResult)
  | sumpTrain (m : Master) (data : Word)
  | sumpTrainingEnd (ok : Bool)
  | sumpUePop (m : Master) (data : Word)
  | cavernScrub (found : List (ChamberIx × EccResult))
  | chamberFail (chamber : ChamberIx)
  | cavernBistEnd (bad : BitVec 17)
  | cavernDiagWrite (m : Master) (addr : BitVec 40) (data : Word)
  | planCompute (plan : Plan)
  | planCommitRetry
  | tunnelAdd (m : Master) (tunnel : BitVec 16)
  | tunnelRemove (m : Master) (tunnel : BitVec 16)
  | twinEntryAgeOut (src : EpId)
  | drainWaitExceeded (port : LocalPort)
  -- engines and Columns
  | hangWatchdog (e : EngineIx)
  | engineEccUe (e : EngineIx)
  | spareAssign (r : RoleIx)
  | engineSelftestEnd (e : EngineIx) (pass : Bool)
  | engTakeover (m : Master) (target : BitVec 5)
  | engRetest (m : Master) (target : BitVec 5)
  | columnMismatch (c : ColumnIx)
  | columnImageCopyEnd (c : ColumnIx)
  -- registers and access protection
  | registerWrite (m : Master) (addr : BitVec 40) (size : Nat) (data : BitVec 64) (tag : Option EngineTag)
  | memoryAccess (a : Access)
  | cacheWriteback (c : ColumnIx) (addr : BitVec 40) (data : List Byte)
  | aliasWrite (m : Master) (addr : BitVec 40) (size : Nat) (item : TaggedData)
  | counterLoRead (m : Master) (addr : BitVec 40) (size : Nat)
  | glbUnlockWrite (m : Master) (data : Word)
  | unlockLapse (m : Master)
  | snapshotRequest (m : Master) (data : Word)
  | bankRelease (m : Master)
  | bankClearEnd
  | mpuSyncWrite (m : Master) (data : Word)
  | mpuBarrierDone (m : Master)
  | ruleChangeEffect
  | mpuFaultPop (m : Master) (data : Word)
  -- Geode
  | tamper (sources : BitVec 8)
  | derive (m : Master) (replace detach : Bool)
  | keyInvalidate (m : Master)
  | mac (m : Master)
  | sign (m : Master)
  | ecdhGen (m : Master) (replace : Bool)
  | ecdhAgree (m : Master) (replace : Bool)
  | wrap (m : Master)
  | unwrap (m : Master) (replace : Bool)
  | keyInfo (m : Master)
  | saInstall (m : Master) (transmit : Bool)
  | saRetire (m : Master) (transmit : Bool)
  | rootNew (m : Master)
  | zeroise (m : Master)
  | keyCommandEnd
  | debugUnlockResponse (answer : BitVec 128)
  | debugChallengeRenew
  | secFuseProgram (m : Master) (pos : BitVec 2)
  | secFuseRevoke (m : Master) (pos : BitVec 2)
  -- start-up and image
  | porstNAssert (ns : Nat)
  | porstNRelease (straps : BitVec 13) (vauxFromVbus : Bool)
  | sfdpRetry (found : Option SfdpInfo)
  | copyVerifyEnd (readOk : Bool)
  | applyEnd
  | clockSwitch
  | bootRun (m : Master)
  | runWaitExpiry
  | bootReset (m : Master)
  | bootRecover (m : Master)
  | bootStaged (m : Master)
  | bootSeed (m : Master)
  | seedEnd
  | bootTest (m : Master)
  | bootStgDataWrite (m : Master) (data : Word)
  | flEraseCopy (m : Master)
  | flProgram (m : Master)
  | flRead (m : Master)
  | flVerify (m : Master)
  | flashOpEnd (ok : Bool)
  -- power
  | pwrReqWrite (m : Master) (data : Word)
  | pwrAskWrite (m : Master) (target : Word) (beat : Beat)
  | pwrAskIssue
  | pwrRetry
  | blockAgree (block : Fin 7)
  | blockRefuse (block : Fin 7) (reason : BitVec 4)
  | rollbackRestartEnd
  | dormantEntryComplete
  | restTick
  | wakeEvent (source : Fin 7)
  | wakeLayoverReady
  | pgoodRise
  | restoreEnd
  | avsAckTimeout
  | wakeRetry
  | avsTargetWrite (m : Master) (data : Word)
  | avsStep (ack : Bool)
  | avsEvaluation
  | avsTargetRetry
  | pllLockRetry (locked : Bool)
  -- USB and PD
  | usbUpAttach (plug : UpPlug) (rp : BitVec 2)
  | usbUpDetach
  | usbDnAttach (port : DnPd) (plug : DnPlug)
  | usbDnDetach (port : DnPd)
  | usbOverCurrent (n : DnPort)
  | setPortPower (n : DnPort)
  | clearPortPower (n : DnPort)
  | openSession (wValue wIndex wLength : BitVec 16)
  | closeSession (wValue wIndex wLength : BitVec 16)
  | getSession (wValue wIndex wLength : BitVec 16)
  | bulkOutRequest (req : MgmtRequest)
  | ping
  | lpmToken
  | usbBusReset (duringControl : Bool)
  | remoteWake
  | hostResume
  | sourceCapabilities (port : PdPort) (pdos : List FixedPdo) (pd3 : Bool)
  | pdRequest (port : PdPort) (head : RequestHead) (cur : BitVec 10)
  | vbusSettled (port : DnPd)
  | srcSettleTimeout (port : DnPd)
  | getSourceCap (port : PdPort)
  | getSinkCap (port : PdPort)
  | prSwap (port : PdPort)
  | psRdyReceived
  | drSwap (port : PdPort)
  | softReset (port : PdPort)
  | hardReset (port : PdPort)
  | discoverIdentity (port : PdPort)
  | unsupportedPdMessage (msg : PdMessage)
  | dischargeEnd (port : PdPort)
  | dischargeTimeout (port : PdPort)
  | pdSrcPdoChange (port : DnPd)
  | serviceConnectTimeout
  -- car computer
  | carRead (via : CarPort) (count : CarCount) (addr : CarAddr)
  | carWrite (via : CarPort) (count : Byte) (addr : CarAddr) (data : List Byte)
  | carWriteStatus (tx : CarTx)
  -- monitors and log
  | monConversion (readings : List (ChannelIx × BitVec 12))
  | cutoffCoreOff
  | thermalRestart
  | logRecordWrite
  | logRdAddrWrite (m : Master) (data : Word)
  | logPutCmd (m : Master) (data : Word)
  -- balls and supplies
  | pgoodFall (ns : Nat)
  | pgoodRecover
  | refclkAbsent (input : Fin 6)
  | refclkPresent (input : Fin 6)
  | vauxRise (vbatHeld : Bool)
  | vauxFall (vbat : Bool)
  | fltRxExpiry (lane : LaneIx)
  | taskTableRetire (owner : TaskOwner)
  | cutThroughJoin (port : LocalPort) (frame : Frame)
  | mprTemperatureRead (hot : Bool)
  | pllLockTimeout
  | wakePgoodTimeout
  | secFuseOpEnd (ok : Bool)
  | xtalOkChange (ok : Bool)
  | usbSuspend
  | standardRequest (req : StdRequest)
  | bulkInTransfer
  | usbDeviceConnect (n : DnPort) (connected : Bool)
  | goodcrcTimeout (port : PdPort)
deriving DecidableEq, Repr

end Sys2Proof
end

