-- ==== Sys2Proof/Decode.lean ====
section
/-! DEFINITION. Decode.lean: the hub has no instruction decoder, and no row of spec/opcode_table.json
gives bits: every row names an event or an operation whose operands come with it. -/

namespace Sys2Proof

/-- The command that a word spells by the table's bits: the table gives no row any bits, so no word
spells one. -/
def decodeTableWord (_nbits _w : Nat) : Option Instr := none

end Sys2Proof
end

