-- ==== Sys2Proof/Machine/Bytes.lean ====
section
/-! DEFINITION. Machine/Bytes.lean: bit fields, byte orders and vectors, from which every layout of the spec is read and
written. -/

namespace Sys2Proof.Machine

/-! ## Words and bytes -/

/-- Bits [hi:lo] of a word as a number. -/
def bitsOf (w : Word) (hi lo : Nat) : Nat := w.toNat / 2 ^ lo % 2 ^ (hi - lo + 1)

/-- A word with bits [hi:lo] replaced. -/
def withBits (w : Word) (hi lo v : Nat) : Word :=
  BitVec.ofNat 32 (w.toNat - bitsOf w hi lo * 2 ^ lo + v % 2 ^ (hi - lo + 1) * 2 ^ lo)

/-- The number a Bool shows in a field. -/
def b2n (b : Bool) : Nat := if b then 1 else 0

/-- Little-endian bytes of a number. -/
def leBytes : Nat → Nat → List Byte
  | 0, _ => []
  | n + 1, v => BitVec.ofNat 8 (v % 256) :: leBytes n (v / 256)

/-- The number that little-endian bytes spell. -/
def leNat : List Byte → Nat
  | [] => 0
  | b :: bs => b.toNat + 256 * leNat bs

/-- Big-endian bytes of a number. -/
def beBytes (n v : Nat) : List Byte := (leBytes n v).reverse

/-- The number that big-endian bytes spell. -/
def beNat (bs : List Byte) : Nat := leNat bs.reverse

/-- Bits [hi:lo] of a number. -/
def nbits (v hi lo : Nat) : Nat := v / 2 ^ lo % 2 ^ (hi - lo + 1)

/-! ## Vectors -/

/-- A vector with one element replaced. -/
def vset {α : Type} {n : Nat} (v : Vector α n) (i : Fin n) (x : α) : Vector α n := v.set i.val x i.isLt

/-- A vector with one element changed by a function. -/
def vmod {α : Type} {n : Nat} (v : Vector α n) (i : Fin n) (f : α → α) : Vector α n := vset v i (f v[i])

/-- A vector with every element changed by a function. -/
def vall {α β : Type} {n : Nat} (v : Vector α n) (f : α → β) : Vector β n := Vector.ofFn fun i => f v[i]

/-- The class of a TC field. -/
def clsOf (tc : BitVec 3) : Cls := tc.toFin

end Sys2Proof.Machine
end

