-- ==== Sys2Proof/Machine/Operands.lean ====
section
/-! DEFINITION. Machine/Operands.lean: the frame as it stands on a link: header words, checks, sizes
and cells (chapter "Tunnels, frames and the endpoint table"), and the payload layouts the hub itself
reads or writes. -/

namespace Sys2Proof

open Machine

/-! ## Cyclic redundancy checks -/

/-- One bit into a CRC that shifts left, most significant bit first. -/
def crcBit {w : Nat} (poly c : BitVec w) (b : Bool) : BitVec w :=
  if c.msb != b then (c <<< 1) ^^^ poly else c <<< 1

/-- One byte into such a CRC. -/
def crcByte {w : Nat} (poly c : BitVec w) (x : Byte) : BitVec w :=
  [7, 6, 5, 4, 3, 2, 1, 0].foldl (fun c i => crcBit poly c (x.getLsbD i)) c

/-- HCS: x^8 + x^2 + x + 1, initial value 0 (R131). -/
def crc8 (bs : List Byte) : BitVec 8 := bs.foldl (crcByte 0x07) 0

/-- CRC-16: x^16 + x^12 + x^5 + 1, initial value 0xFFFF (R158, Table LAN-7). -/
def crc16 (bs : List Byte) : BitVec 16 := bs.foldl (crcByte 0x1021) 0xFFFF

/-- One bit into the reflected CRC-32 of IEEE 802.3. -/
def crc32Bit (c : Word) (b : Bool) : Word :=
  if c.getLsbD 0 != b then (c >>> 1) ^^^ 0xEDB88320#32 else c >>> 1

/-- One byte into that CRC, least significant bit first. -/
def crc32Byte (c : Word) (x : Byte) : Word :=
  [0, 1, 2, 3, 4, 5, 6, 7].foldl (fun c i => crc32Bit c (x.getLsbD i)) c

/-- FCS: the CRC-32 of IEEE 802.3; its least significant byte is sent first (R132). -/
def crc32 (bs : List Byte) : Word := ~~~(bs.foldl crc32Byte 0xFFFFFFFF)

/-! ## The frame header (Table TUN-1) -/

/-- Header word 0. -/
def Frame.word0 (f : Frame) : BitVec 64 :=
  f.destEp ++ f.srcEp ++ f.tc ++ BitVec.ofBool f.cm ++ BitVec.ofBool f.de ++ f.kind ++ f.pep ++ BitVec.ofBool f.dl

/-- Header word 1. -/
def Frame.word1 (f : Frame) : BitVec 64 := f.len ++ f.seq ++ f.beat ++ f.sa ++ f.hcs ++ f.tw

/-- Frame bytes 0-15: each word most significant byte first (R129). -/
def Frame.header (f : Frame) : List Byte := beBytes 8 f.word0.toNat ++ beBytes 8 f.word1.toNat

/-- The HCS a header should carry (R131). -/
def Frame.hcsOf (f : Frame) : BitVec 8 := crc8 ({ f with hcs := 0 } : Frame).header

/-- The frame with HCS recomputed, after a header field has changed (R131). -/
def Frame.sealed (f : Frame) : Frame := { f with hcs := f.hcsOf }

/-- The FCS over header and payload as they appear on the link (R132). -/
def Frame.fcsOf (f : Frame) : Word := crc32 (f.header ++ f.payload)

/-- The bytes N between SOF and EOF (R58). -/
def Frame.bytesN (f : Frame) : Nat := 16 + f.len.toNat + 4 + (if f.sa = 0 then 0 else 16)

/-- The cells a frame of LEN bytes takes: ceil((16 + LEN) / 256) (R165, R227). -/
def cellsOfLen (len : Nat) : Nat := (16 + len + 255) / 256

/-- The cells of a frame. -/
def Frame.cells (f : Frame) : Nat := cellsOfLen f.len.toNat

/-- The cells counted for a frame whose HCS fails, from the bytes received (R228). -/
def cellsOfBytes (b : Nat) : Nat := max 1 ((b - 20 + 255) / 256)

/-- The bytes of cell k of a frame as stored: header and payload (R165). -/
def Frame.cellBytes (f : Frame) (k : Nat) : List Byte := ((f.header ++ f.payload).drop (256 * k)).take 256

/-- LEN, or the bytes received, are wrong (R134). -/
def RxFrame.lenBad (rx : RxFrame) : Bool :=
  decide (9216 < rx.frame.len.toNat) || rx.bytes != rx.frame.bytesN || rx.frame.payload.length != rx.frame.len.toNat

/-- The cells whose credit a received frame holds: by LEN, or by the bytes received where HCS fails (R228). -/
def RxFrame.creditCells (rx : RxFrame) : Nat :=
  if rx.frame.hcs = rx.frame.hcsOf then rx.frame.cells else cellsOfBytes rx.bytes

/-- The class of a frame. -/
def Frame.cls (f : Frame) : Cls := clsOf f.tc

/-- KIND codes the hub terminates or maps, Table TUN-2. -/
abbrev kindEcho : BitVec 4 := 0
abbrev kindMgmt : BitVec 4 := 1
abbrev kindKey : BitVec 4 := 2
abbrev kindEth : BitVec 4 := 7

/-! ## Endpoints (R139, R140) -/

/-- The hub slot of an identifier. -/
def epSlot (e : EpId) : Nat := e.toNat / 2 ^ 18

/-- The local endpoint of an identifier. -/
def epLocal (e : EpId) : Nat := e.toNat % 2 ^ 18

/-- The identifier with its slot replaced. -/
def epWithSlot (e : EpId) (slot : Nat) : EpId := BitVec.ofNat 25 (slot % 128 * 2 ^ 18 + epLocal e)

/-- An identifier of the multicast space. -/
def epIsGroup (e : EpId) : Bool := epSlot e == 127

/-- The key over which the backbone hash runs: DEST_EP, SRC_EP and TC, most significant first, padded
on the right to 7 bytes (R158). -/
def flowKey (f : Frame) : List Byte := beBytes 7 ((f.destEp ++ f.srcEp ++ f.tc : BitVec 53).toNat * 8)

/-! ## Charge and transmission time (Table SCH-2) -/

/-- What a port sends: Torvisk Link, Ethernet, or internal moves. -/
inductive EgressType where
  | tvl | eth | internal
deriving DecidableEq, Repr

/-- The charge n of a frame at an egress, with the SA that it leaves with. -/
def chargeOf (t : EgressType) (f : Frame) (sa : BitVec 8) : Nat :=
  match t with
  | .tvl => ({ f with sa := sa } : Frame).bytesN
  | .eth => f.len.toNat + 24
  | .internal => 16 + f.len.toNat

/-- The slots s of a frame at an egress of width `w`. -/
def slotsOf (t : EgressType) (f : Frame) (sa : BitVec 8) (w : Nat) : Nat :=
  match t with
  | .tvl => (({ f with sa := sa } : Frame).bytesN / 8 + 2 + (max w 1 - 1)) / max w 1
  | .eth => (f.len.toNat + 24 + 7) / 8
  | .internal => (16 + f.len.toNat + 31) / 32

/-- The block period of a rate code in units of 10 ps (Table LAN-1); 0b11 is read as 0b00. -/
def blockPeriod (rate : Nat) : Nat := if rate = 1 then 640 else if rate = 2 then 1280 else 256

/-! ## Ethernet frames (R93, R159, R160) -/

/-- Byte i of a payload, 0 beyond its end. -/
def byteAt (bs : List Byte) (i : Nat) : Nat := (bs.getD i 0).toNat

/-- The 16-bit big-endian value at offset i. -/
def be16At (bs : List Byte) (i : Nat) : Nat := byteAt bs i * 256 + byteAt bs (i + 1)

/-- The MAC address at offset i. -/
def macAt (bs : List Byte) (i : Nat) : BitVec 48 := BitVec.ofNat 48 (beNat ((bs.drop i).take 6))

/-- The outer VLAN identifier: 0 for untagged and priority-tagged frames (R159). -/
def vidOf (bs : List Byte) : BitVec 12 :=
  if be16At bs 12 = 0x8100 ∨ be16At bs 12 = 0x88A8 then BitVec.ofNat 12 (be16At bs 14) else 0

/-- The offset of the EtherType after up to two VLAN tags (R160). -/
def etherOffset (bs : List Byte) : Nat :=
  let tag (o : Nat) : Bool := be16At bs o == 0x8100 || be16At bs o == 0x88A8
  if tag 12 then (if tag 16 then 20 else 16) else 12

/-- A list with byte i replaced. -/
def setAt (bs : List Byte) (i : Nat) (v : Nat) : List Byte := bs.set i (BitVec.ofNat 8 v)

/-- A 16-bit one's-complement sum folded to 16 bits. -/
def fold16 (n : Nat) : Nat := let a := n % 65536 + n / 65536; a % 65536 + a / 65536

/-- What ECN handling finds in a payload (R160). -/
inductive EcnResult where
  | other
  | notEct
  | marked (payload : List Byte)
deriving DecidableEq, Repr

/-- ECN marking of an ETH payload: CE where the field is 0b01 or 0b10, with the IPv4 header checksum
updated incrementally per RFC 1624 (R160). -/
def ecnMark (bs : List Byte) : EcnResult :=
  let o := etherOffset bs
  let et := be16At bs o
  if et = 0x0800 then
    let tos := byteAt bs (o + 3)
    if tos % 4 = 1 ∨ tos % 4 = 2 then
      let m := be16At bs (o + 2)
      let m' := m / 4 * 4 + 3
      let hc := 65535 - fold16 ((65535 - be16At bs (o + 12)) + (65535 - m) + m')
      .marked (setAt (setAt (setAt bs (o + 3) (m' % 256)) (o + 12) (hc / 256)) (o + 13) (hc % 256))
    else .notEct
  else if et = 0x86DD then
    let b := byteAt bs (o + 3)
    let ecn := b / 16 % 4
    if ecn = 1 ∨ ecn = 2 then .marked (setAt bs (o + 3) (b / 64 * 64 + 48 + b % 16)) else .notEct
  else .other

/-! ## The request layout (Table TUN-4) -/

/-- Whether a request is well formed (R137). A reply code in its OP makes it as malformed as a reserved one (DESIGN CHOICE, log 132). -/
def MgmtRequest.ok (r : MgmtRequest) : Bool :=
  r.ver == 1 && (r.op == 1 || r.op == 2) && decide (1 ≤ r.count.toNat) && decide (r.count.toNat ≤ 16) &&
  decide (r.addr.toNat % 4 = 0) && decide (r.len = if r.op = 2 then 16 + 4 * r.count.toNat else 16)

/-! ## ECHO payloads (Tables CPL-5 to CPL-7) -/

/-- PST byte and other bytes of a hub record (Table CPL-7). -/
def HubRecord.bytes (r : HubRecord) : List Byte :=
  leBytes 8 r.id.toNat ++ [BitVec.ofNat 8 r.slot.toNat,
    BitVec.ofNat 8 (r.prio.toNat + 8 * r.carRole.toNat + 32 * r.seat.toNat + 128 * b2n r.sump), r.cl,
    BitVec.ofNat 8 (b2n r.datelineOk)] ++
  (List.finRange 4).map (fun i => BitVec.ofNat 8 (r.nb[i]).toNat) ++
  [BitVec.ofNat 8 ((List.finRange 4).foldl (fun a i => a + (r.pst[i]).toNat * 4 ^ i.val) 0),
   BitVec.ofNat 8 r.prefSlot.toNat] ++ leBytes 4 r.recSeq.toNat ++ [0, 0] ++
  (List.finRange 4).flatMap (fun i => leBytes 8 (r.nbId[i]).toNat) ++ List.replicate 8 0

/-- The bytes of a merge record (Table CPL-6). -/
def MergeRecord.bytes (m : MergeRecord) : List Byte :=
  leBytes 6 m.s.toNat ++ leBytes 6 m.jn.toNat ++ leBytes 6 m.ofs.toNat ++ leBytes 4 m.delta.toNat ++
  [BitVec.ofNat 8 (b2n m.cancel + 2 * b2n m.stepMasterSide), BitVec.ofNat 8 m.pepNew.toNat] ++
  leBytes 8 m.masterId.toNat ++ leBytes 8 m.jointId.toNat ++ List.replicate 8 0

/-- The bytes of an ECHO payload (Table CPL-5). -/
def EchoPayload.bytes (e : EchoPayload) : List Byte :=
  [e.ver, BitVec.ofNat 8 (b2n e.change + 2 * b2n e.merge.isSome)] ++ leBytes 2 e.viewSeq.toNat ++
  leBytes 8 e.senderId.toNat ++ [BitVec.ofNat 8 e.senderSlot.toNat, BitVec.ofNat 8 (e.pep.toNat + 16 * e.pepNext.toNat)] ++
  leBytes 6 e.epochBeat.toNat ++ leBytes 2 e.n.toNat ++ [BitVec.ofNat 8 e.assigns.length, 0] ++
  leBytes 8 e.masterId.toNat ++ leBytes 6 e.moveBeat.toNat ++ leBytes 2 e.annSeq.toNat ++ leBytes 8 e.nextMasterId.toNat ++
  (match e.merge with | some m => MergeRecord.bytes m | none => []) ++ e.hubs.flatMap HubRecord.bytes ++
  e.assigns.flatMap (fun a => leBytes 8 a.id.toNat ++ [BitVec.ofNat 8 a.slot.toNat, 0, 0, 0])

/-- n bytes of a payload from an offset, as a little-endian number. -/
def leAt (bs : List Byte) (o n : Nat) : Nat := leNat ((bs.drop o).take n)

/-- The hub record that stands at an offset of a payload (Table CPL-7). -/
def HubRecord.read (bs : List Byte) (o : Nat) : HubRecord :=
  let role := byteAt bs (o + 9)
  { id := BitVec.ofNat 64 (leAt bs o 8), slot := BitVec.ofNat 7 (byteAt bs (o + 8))
    prio := BitVec.ofNat 3 role, carRole := BitVec.ofNat 2 (role / 8), seat := BitVec.ofNat 2 (role / 32), sump := decide (128 ≤ role)
    cl := BitVec.ofNat 8 (byteAt bs (o + 10)), datelineOk := byteAt bs (o + 11) % 2 == 1
    nb := Vector.ofFn fun i => BitVec.ofNat 7 (byteAt bs (o + 12 + i.val))
    pst := Vector.ofFn fun i => BitVec.ofNat 2 (byteAt bs (o + 16) / 4 ^ i.val)
    prefSlot := BitVec.ofNat 7 (byteAt bs (o + 17)), recSeq := BitVec.ofNat 32 (leAt bs (o + 18) 4)
    nbId := Vector.ofFn fun i => BitVec.ofNat 64 (leAt bs (o + 24 + 8 * i.val) 8) }

/-- The merge record that stands at an offset of a payload (Table CPL-6). -/
def MergeRecord.read (bs : List Byte) (o : Nat) : MergeRecord :=
  { s := BitVec.ofNat 48 (leAt bs o 6), jn := BitVec.ofNat 48 (leAt bs (o + 6) 6), ofs := BitVec.ofNat 48 (leAt bs (o + 12) 6)
    delta := BitVec.ofNat 32 (leAt bs (o + 18) 4), cancel := byteAt bs (o + 22) % 2 == 1
    stepMasterSide := byteAt bs (o + 22) / 2 % 2 == 1, pepNew := BitVec.ofNat 4 (byteAt bs (o + 23))
    masterId := BitVec.ofNat 64 (leAt bs (o + 24) 8), jointId := BitVec.ofNat 64 (leAt bs (o + 32) 8) }

/-- The ECHO payload that bytes spell, none where LEN is not what M, N and A give (R110, Table CPL-5). -/
def EchoPayload.read (bs : List Byte) : Option EchoPayload :=
  let m := byteAt bs 1 / 2 % 2
  let n := leAt bs 20 2
  let a := byteAt bs 22
  let hubs := 48 + 48 * m
  let slots := hubs + 64 * n
  if bs.length ≠ slots + 12 * a then none
  else
    some { ver := bs.getD 0 0, change := byteAt bs 1 % 2 == 1, viewSeq := BitVec.ofNat 16 (leAt bs 2 2)
           senderId := BitVec.ofNat 64 (leAt bs 4 8), senderSlot := BitVec.ofNat 7 (byteAt bs 12)
           pep := BitVec.ofNat 4 (byteAt bs 13), pepNext := BitVec.ofNat 4 (byteAt bs 13 / 16)
           epochBeat := BitVec.ofNat 48 (leAt bs 14 6), n := BitVec.ofNat 16 n
           masterId := BitVec.ofNat 64 (leAt bs 24 8), moveBeat := BitVec.ofNat 48 (leAt bs 32 6)
           annSeq := BitVec.ofNat 16 (leAt bs 38 2), nextMasterId := BitVec.ofNat 64 (leAt bs 40 8)
           merge := if m = 1 then some (MergeRecord.read bs 48) else none
           hubs := (List.range n).map fun k => HubRecord.read bs (hubs + 64 * k)
           assigns := (List.range a).map fun k =>
             { id := BitVec.ofNat 64 (leAt bs (slots + 12 * k) 8), slot := BitVec.ofNat 7 (byteAt bs (slots + 12 * k + 8)) } }

/-- The request that a MGMT payload spells (Table TUN-4). -/
def MgmtRequest.read (bs : List Byte) : MgmtRequest :=
  { ver := bs.getD 0 0, op := bs.getD 1 0, tag := BitVec.ofNat 16 (leAt bs 2 2), count := bs.getD 4 0
    addr := BitVec.ofNat 40 (leAt bs 8 5), len := bs.length
    data := (List.range ((bs.length - 16) / 4)).map fun k => BitVec.ofNat 32 (leAt bs (16 + 4 * k) 4) }

end Sys2Proof
end

