-- ==== Sys2Proof/Config.lean ====
section
/-! DEFINITION. Config.lean: what one implementation fixes, and the free values. Every constant here
is opaque: nothing in Lean can evaluate it or prove a value of it, so a claim about the hub holds
whatever it is. The cryptographic functions are the ones the spec names by their standards (R331,
R338, R344, R359); their values are not needed by any rule, only that they are functions. -/

namespace Sys2Proof.Config

/-- The n-th free value drawn, where the spec leaves a value open (notes/assumptions/7.md). -/
opaque freeNat : Nat → Nat

/-- Whether the part is stepping B0; else it is A1 (Table BOT-11). -/
opaque b0 : Bool

/-- The hub identity fuses, as an index into the identities that are neither 0 nor all-ones (R30). -/
opaque hubIndex : Nat

/-- This hub's identity: never 0 and never all-ones (Table CPL-12). -/
def hubId : HubId := BitVec.ofNat 64 (hubIndex % (2 ^ 64 - 2) + 1)

/-- The vendor and product ID fuses (Table USB-8). -/
opaque usbFuses : Nat

/-- The fused reset value of USB_VID_PID. -/
def usbVidPid : Nat := usbFuses % 2 ^ 32

/-- HMAC-SHA-384 of a message under a key. -/
opaque hmac : List Byte → List Byte → List Byte

/-- SHA-384 of a message. -/
opaque sha384 : List Byte → List Byte

/-- ECDSA P-384 signature of a message digest under a private value. -/
opaque ecdsaSign : List Byte → List Byte → List Byte

/-- Whether an ECDSA P-384 signature of a digest verifies under a public key: key, digest,
signature. -/
opaque ecdsaOk : List Byte → List Byte → List Byte → Bool

/-- The P-384 public point of a private value. -/
opaque ecPublic : List Byte → List Byte

/-- Whether bytes are a valid P-384 public point. -/
opaque ecValid : List Byte → Bool

/-- The P-384 ECDH shared value of a private value and a public point. -/
opaque ecdh : List Byte → List Byte → List Byte

/-- AES-256 key wrap of data under a key. -/
opaque kwWrap : List Byte → List Byte → List Byte

/-- AES-256 key unwrap under a key: none where the integrity check fails. -/
opaque kwUnwrap : List Byte → List Byte → Option (List Byte)

/-- AES-256-GCM tag: key of 32 bytes, IV of 12 bytes, authenticated header, ciphertext. -/
opaque gcmTag : List Byte → List Byte → List Byte → List Byte → BitVec 128

/-- AES-256-GCM encryption or decryption of a payload: key of 32 bytes, IV of 12 bytes, text. -/
opaque gcmCrypt : List Byte → List Byte → List Byte → List Byte

/-- Whether a mean of a trend record that is not exact is rounded up, by its two operands: the spec gives
the quotient and no rounding (R89, notes/assumptions/7.md). -/
opaque meanUp : Int → Nat → Bool

/-- The measured offset of a lane's partner (LANE_PPM), by lane and count of heads: a measurement, which no rule
computes (R70, notes/assumptions/7.md). -/
opaque lanePpm : Nat → Nat → BitVec 16

/-- Whether the partner of an Ethernet port signals remote fault, by port and count of heads: no command tells of it
(Table LAN-16, notes/assumptions/7.md). -/
opaque remoteFault : Nat → Nat → Bool

/-- The CTLE code of an adapting receiver, by lane and count of heads: the spec gives no adaptation rule (R79, R80, Table LAN-9,
notes/assumptions/7.md). -/
opaque ctleCode : Nat → Nat → Nat

/-- Whether a joining side is still forming, by the identity of its joint hub and the head at which the view last changed: no ECHO field
says it (R124, notes/assumptions/7.md). -/
opaque otherForming : Nat → Nat → Bool

/-- The set of the mapping table (of 2,048) that a key of Table TUN-10 falls in: port, MAC, VID. -/
opaque mapSet : Nat → Nat → Nat → Nat

end Sys2Proof.Config
end

