-- ==== Sys2Proof/Machine/State.lean ====
section
/-! DEFINITION. Machine/State.lean: the state of one hub as plain data, its reset, and the reasons a
step can stop. Every register of the register range (R269) is one cell of `regs`, at its address
(per master: at its address + 0x0100_0000 x (master + 1), R276); a register the table does not list
there reads its reset value (Machine/RegTable.lean). STA registers that only show another store are
computed from it when read (Machine/View.lean), so that each store has one home. -/

namespace Sys2Proof.Machine

/-- Reasons the machine stops with a fault: none. A bad access answers with a bus error or a refusal
of access protection (R270, R311), which are next states. -/
inductive Fault where
deriving DecidableEq, Repr

/-- Reasons a command has no meaning. -/
inductive Refusal where
  /-- Raised by Dispatch.lean for a row whose meaning is not written yet; safe (the run stops). -/
  | notModelled (mnemonic : String)
deriving DecidableEq, Repr

/-- Modes, Table BOT-1. -/
inductive Mode where
  | start | run | test | recovery | service
deriving DecidableEq, Repr

/-- Timing states, Table BEA-4. -/
inductive Timing where
  | free | track | holdover | master | stepPending
deriving DecidableEq, Repr

/-- Port stages, Table CPL-1. -/
inductive Stage where
  | down | detect | train | lock | capx | active | degraded
deriving DecidableEq, Repr

/-- Admission states, Table CPL-4. -/
inductive Admit where
  | closed | auth | admitted | bypassed
deriving DecidableEq, Repr

/-- Block lock states, Table LAN-4. -/
inductive LockState where
  | off | hunt | locked
deriving DecidableEq, Repr

/-- Engine states, Table ENC-5. -/
inductive EngineState where
  | active | spare | quarantine | failed
deriving DecidableEq, Repr

/-- Column states, Table ENC-7. -/
inductive ColumnState where
  | reset | restoring | running | failed
deriving DecidableEq, Repr

/-- Power states, Table PWR-10, with DORMANT and the hold after a thermal cutoff (R433), which no
register shows. -/
inductive PowerState where
  | active | entering | rollback | layover | waking | dormant | cutoff
deriving DecidableEq, Repr

/-- Type-C states, Table USB-12. -/
inductive TypeC where
  | unattached | attachWait | attached | errorRecovery | held
deriving DecidableEq, Repr

/-- What asserts FAULT_N (R188, R257, R261, R323, R372, R395, R399, R418, R431, R433, R457). -/
inductive FaultCause where
  | chamberFenced | roleVacant | columnFailed | tamper | recovery | wakeFailed | avsFailed
  | discharge (port : PdPort) | crit (ch : ChannelIx) | cutoff | pgood
deriving DecidableEq, Repr

/-- What the hub and the function report of themselves on request (R402, R403, R405, R406, Table USB-3). -/
inductive UsbDescriptor where
  | hub (superSpeed : Bool) (bcdUsb : BitVec 16) (vidPid : Word) (ports : Nat) (nonRemovable : Nat) (compound selfPowered ganged : Bool)
  | capability (lpm : Bool) (besl beslDeep : BitVec 4) (u1u2 : Bool) (u1Exit u2Exit : Nat)
  | function (cls sub proto : Byte) (control bulk maxBurst : Nat) (lpm : Bool) (besl beslDeep : BitVec 4)
deriving DecidableEq, Repr

/-- The function's answer to a data packet on bulk OUT (R407): at high and full speed ACK, NYET or NAK; at SuperSpeed ACK with the next
sequence number and the packets granted, NRDY, and ERDY once a buffer is free again. -/
inductive BulkAnswer where
  | ack | nyet | nak
  | ackSs (seq : BitVec 5) (granted : Nat)
  | nrdy | erdy
deriving DecidableEq, Repr

/-- What the hub sends, newest first in `State.sent`: blocks (Table LAN-2), frames, replies,
answers and levels. Nothing reads it back. -/
inductive Output where
  | fill (port : LinkPort) (lanes : BitVec 4)
  | cap (port : LinkPort) (lanes : BitVec 4) (rec : CapRecord)
  | beatBlock (port : LinkPort) (lane : Nat) (num : Word) (hops : BitVec 6) (hold : Bool) (ofs : BitVec 10) (pep : BitVec 4)
  | train (lane : LaneIx) (pre post : BitVec 2) (preset : BitVec 3) (ack : BitVec 2) (rxReady : Bool) (tseq ackSeq : BitVec 8)
  | amk (port : LinkPort) (lanes : BitVec 4) (width : Nat) (seq : BitVec 16) (scheduled : Bool)
  | cred (port : LinkPort) (tc : Cls) (esc : Bool) (count : BitVec 20)
  | echoRequest (port : LinkPort) (eseq : BitVec 7)
  | echoReply (port : LinkPort) (lane : Fin 4) (eseq : BitVec 7) (turn : BitVec 24)
  | flt (port : LinkPort) (code : BitVec 4) (lanes : BitVec 4)
  | detect (port : LinkPort)
  | lpbk (port : LinkPort) (op : BitVec 2) (lanes : BitVec 4)
  | tunnelFrame (port : EgressPort) (frame : Frame) (fcs : Word) (tag : Option (BitVec 128))
  | abortFrame (port : EgressPort)
  | ethernet (port : LocalPort) (bytes : List Byte) (fcs : Word)
  | remoteFault (port : LocalPort)
  | keyFrame (port : LinkPort) (frame : Frame)
  | mgmtReply (dest : EpId) (tc : BitVec 3) (op : Byte) (tag : BitVec 16) (count done status : Byte) (data : List Word)
  | usbReply (op : Byte) (tag : BitVec 16) (count done status : Byte) (data : List Word)
  | carReply (via : CarPort) (bytes : List Byte)
  | readData (m : Master) (data : List Byte)
  | accessError (m : Master) (refused : Bool)
  | delivered (m : Master) (cache : Bool) (order : BitVec 2)
  | usbStall
  | usbData (w : Word)
  | usbPing (ack : Bool)
  | usbBulk (a : BulkAnswer)
  | usbLpm (ack : Bool)
  | usbLinkEntry (u2 accept : Bool)
  | usbFunctionEntry (u2 : Bool)
  | usbPortL1 (n : DnPort) (accepted : Bool)
  | usbPortReset (n : DnPort)
  | usbPortStatus (n : DnPort) (connected suspended overCurrent power l1 : Bool)
  | usbRemoteWake
  | usbFunctionWake
  | usbPortChange (n : DnPort) (overCurrent : Bool)
  | ccRp (port : PdPort) (level : BitVec 2)
  | pdGoodCrc (port : PdPort)
  | pdSoftReset (port : PdPort)
  | pdAccept (port : PdPort)
  | pdReject (port : PdPort)
  | pdWait (port : PdPort)
  | pdNotSupported (port : PdPort)
  | pdPsRdy (port : PdPort)
  | pdHardReset (port : PdPort)
  | pdRequest (port : PdPort) (pos : BitVec 3) (cur : BitVec 10) (mismatch : Bool)
  | pdSourceCaps (port : PdPort) (pdos : List FixedPdo)
  | pdSinkCaps (port : PdPort) (cur : BitVec 10) (dualRole : Bool)
  | pdIdentity (port : PdPort) (dfp : Bool) (vid : BitVec 16)
  | usbDescriptor (d : UsbDescriptor)
  | avsVoltage (rail : BitVec 4) (mv : Nat)
  | avsStatusRead (rail : BitVec 4)
deriving DecidableEq, Repr

/-- A 66-bit block (R56): its sync header and its payload. -/
structure Block where
  hdr : BitVec 2
  payload : BitVec 64
deriving DecidableEq, Repr

/-- The line side of the lanes and the block streams of the ports (R57, R58, R67-R69, R71, R84): by lane the last 58 payload
bits sent and received, which are the states of the scrambler and the descrambler, the bits by which the block boundary has
slipped, the blocks since the last FILL, the state of the pattern generator, the blocks that wait for destriping, and the own
blocks a near-end loop returns; by port the block index since the last AMK of both directions, the bytes of the frame being
reassembled, how many of them have come, and those of the last whole frame; and the blocks the drivers have sent, newest first. -/
structure LineState where
  scr : Vector (BitVec 58) 32
  descr : Vector (BitVec 58) 32
  slip : Vector Nat 32
  sinceFill : Vector Nat 32
  gen : Vector (BitVec 31) 32
  rxQ : Vector (List (Bool × Block)) 32
  back : Vector (List Block) 32
  txK : Vector Nat 20
  rxK : Vector Nat 20
  asm : Vector (List Byte) 20
  asmN : Vector Nat 20
  whole : Vector (List Byte) 20
  out : List (LaneIx × Block)
deriving DecidableEq, Repr

/-- A pending commit (R40, R42). -/
structure Commit where
  group : BitVec 8
  target : Beat
  master : Master
deriving DecidableEq, Repr

/-- The last valid BEAT block of a trunk port (R33): its HOPS and HOLD, and the count of heads at
its arrival. -/
structure RxBeat where
  hops : BitVec 6
  hold : Bool
  head : Nat
deriving DecidableEq, Repr

/-- The beat (chapter "The beat"). BEAT_NUM itself stands in `regs`. `phase` is BEAT_PHASE, `err` the
phase error in units of 156.25 ps, `length` the length of the beat in progress in CCLK; `stepHead` is the head of this hub's last
renumbering (R244), `prevStep` the step beat recorded before the last one (R48), 0 where there is none. `shadowDirty` are the
gate groups written before any beat counted (R207), `firstRun` says that RUN has had its first head (R44), and `delayHead` is the
head of each trunk port's last delay update (R34). -/
structure BeatState where
  timing : Timing
  enteredFrom : Timing
  timingPort : Option TrunkPort
  rx : Vector (Option RxBeat) 4
  joint : Vector (Option (Word × Int × Nat)) 4
  hops : BitVec 6
  srcHold : Bool
  lastValid : Nat
  holdSince : Nat
  phase : Nat
  err : Int
  length : Nat
  delays : Vector (List Nat) 4
  delayHead : Vector Nat 4
  commits : List Commit
  shadowDirty : List (BitVec 8)
  firstRun : Bool
  stepHead : Option Nat
  prevStep : Nat
deriving DecidableEq, Repr

/-- A lane (chapter "Lanes and the Torvisk Link line code"). `trainEn` is the TRAIN_EN of its bring-up (R54, R79), `askSeq` the TSEQ of
its own requests and `ask` the last of them, `ackTx` and `ackSeq` the answer to the partner's last request, `lpbkSent` the head of the last LPBK
request, `gen` and `chk` the last agreeing LANE_TEST (R299), and `dropped` says that it has left its transmit set since its
port came out of DOWN (R104). -/
structure Lane where
  lock : LockState
  count : Nat
  errors : Nat
  window : Nat
  ebuf : Nat
  los : Bool
  lol : Bool
  detected : Bool
  trained : Bool
  skew : Option Nat
  fltAt : Option Nat
  tseq : Option (BitVec 8)
  rxReady : Bool
  txReady : Bool
  loop : BitVec 3
  remoteLoop : Bool
  lpbkHeads : Option Nat
  lpbkSent : Option Nat
  healthyAt : Option Nat
  returns : List Nat
  prbsGood : Nat
  prbsHist : BitVec 31
  eyeNow : Bool
  losSec : Nat
  lockSec : Nat
  trendClear : Bool
  trainEn : Bool
  askSeq : BitVec 8
  ask : BitVec 7
  ackTx : BitVec 2
  ackSeq : BitVec 8
  gen : BitVec 2
  chk : BitVec 2
  dropped : Bool
deriving DecidableEq, Repr

/-- The two credit counts of one class and set at one port (R227): the receiver's G and held cells,
and the sender's U, latest COUNT and limit A of a resynchronisation (R229). `owed` is credit held back while
the scheduler drains (R381). -/
structure Credit where
  g : BitVec 20
  held : Nat
  u : BitVec 20
  count : BitVec 20
  limit : Option Nat
  owed : Nat
deriving DecidableEq, Repr

/-- A port that can run Torvisk Link (`reqHead` and `fltHead` are the heads of its last ECHO request and FLT blocks, R61): trunk ports 0-3, local ports 4-19 (R95). `rate` is the rate of a local port's last consistent
pair of mode and rate (R91), `lossDead` says that the link loss in force has declared the neighbour dead (R113), `echoTx` is the head of the last periodic ECHO frame (R111), `txHead` the head at which the last frame left, of class `txTc` (R102, R194), and `ownTx` are the KEY and ECHO frames
that the hub's agents have sent on a trunk port and that have not joined its queue yet, oldest first (R173). -/
structure Port where
  stage : Stage
  stageHead : Nat
  adm : Admit
  txLanes : BitVec 4
  rxLanes : BitVec 4
  txWidth : Nat
  rxWidth : Nat
  fullWidth : Nat
  parked : BitVec 4
  leftLock : BitVec 4
  pst : BitVec 2
  refuse : BitVec 3
  coupled : Bool
  nbDead : Bool
  rate : BitVec 2
  reached : Bool
  lossHead : Option Nat
  fastTried : Bool
  fastFailed : Bool
  coupledKept : Bool
  caps : Vector (Option (CapRecord × Nat)) 4
  agreed : Bool
  partner : Option CapRecord
  admittedId : Option HubId
  authHead : Nat
  retryHead : Option Nat
  session : Bool
  echoHead : Nat
  holdHead : Option Nat
  holdWin : Nat
  flushed : Bool
  inFrame : Bool
  discarding : Bool
  amkTx : BitVec 16
  eseq : BitVec 7
  echoReq : Option (BitVec 7 × Nat)
  reqHead : Option Nat
  fltHead : Option Nat
  credits : Vector Credit 16
  ignoring : Bool
  norm : Nat
  esc : Nat
  resyncHead : Nat
  modeAct : BitVec 2
  localFault : Bool
  lossDead : Bool
  echoTx : Nat
  txHead : Option Nat
  txTc : Cls
  ownTx : List Frame
  syncHead : Nat
deriving DecidableEq, Repr

/-- The announcement a hub holds from its master (R469). `listDue` says that the assignment list of this ANN_SEQ has not come yet,
because a merge's list travelled in its place (R123). -/
structure Announcement where
  annSeq : BitVec 16
  moveBeat : Beat
  nextMaster : HubId
  pepNext : BitVec 4
  epochBeat : Beat
  assigns : List SlotAssign
  listDue : Bool := false
deriving DecidableEq, Repr

/-- A merge in progress (R123): the record as held, this hub's side, its assignments, and at the master the joining side's
master at the announcement (R125). -/
structure Merge where
  record : MergeRecord
  joining : Bool
  complete : Bool
  assigns : List SlotAssign
  otherMaster : HubId := 0
deriving DecidableEq, Repr

/-- Echo and the consist view. PEP, PEP_PREV, slot, FORMING and the rest of TOPO_STATUS stand in
`regs`. `members` are the hubs of the own consist, `lost` those of them that have left the view by link loss (R126), `away` those that left it otherwise, `more` the further
merges of a master side that absorbs several consists at one step (R122), `parted` the links whose neighbour was declared dead or
bypassed and has not rejoined (R114), `newLinks` the links that came up, with the head at which this hub saw it (R127). -/
structure EchoState where
  records : List HubRecord
  recSeq : BitVec 32
  master : HubId
  ann : Option Announcement
  merge : Option Merge
  viewSince : Nat
  raiseHead : Option Nat
  runHead : Option Nat
  members : List HubId
  lost : List HubId
  away : List HubId
  ringCut : BitVec 4
  more : List Merge
  parted : List (HubId × Fin 4 × HubId)
  newLinks : List (HubId × Fin 4 × Nat)
deriving DecidableEq, Repr

/-- An endpoint table entry, Table TUN-6. -/
structure EpEntry where
  valid : Bool
  revoked : Bool
  pin : Bool
  twin : Bool
  isLocal : Bool
  port : BitVec 5
  kinds : BitVec 9
  classes : BitVec 8
  gen : BitVec 8
  nextSeq : BitVec 16
  profile : BitVec 12
  ctok : Word
  ptok : Word
  stamp : Beat
  desc : Vector Word 6
  cmdBeat : Beat
  cmdMaster : BitVec 6
deriving DecidableEq, Repr

/-- A way of the endpoint cache (R147). -/
structure CacheLine where
  ep : EpId
  entry : EpEntry
  recent : Bool
deriving DecidableEq, Repr

/-- A frame in the miss queue (R148): it waits for the entry of its destination or of its source, and
`srcDefault` says that it was released without its source entry; `pool` are the shared cells that a frame of an Ethernet port has taken
(R173). -/
structure MissFrame where
  key : EpId
  dest : Bool
  ingress : EgressPort
  frame : Frame
  srcDefault : Bool
  pool : Nat := 0
deriving DecidableEq, Repr

/-- A mapping table entry (R159). -/
structure MapEntry where
  port : LocalPort
  mac : BitVec 48
  vid : BitVec 12
  ep : EpId
  tc : BitVec 3
deriving DecidableEq, Repr

/-- A route row (R156): the port toward a slot on backbone A and on backbone B. -/
structure Route where
  slot : BitVec 7
  a : Option TrunkPort
  b : Option TrunkPort
deriving DecidableEq, Repr

/-- Tunnels: table, cache, miss queue, mapping table, routes (chapter 05), and the heads at which entries
were last changed by a command (R154). -/
structure TunnelState where
  table : List (Nat × EpEntry)
  changed : List (EpId × Nat)
  poison : List EpId
  cache : List CacheLine
  fetching : List EpId
  missQ : List MissFrame
  map : List MapEntry
  routes : List Route
  routesDue : Bool
deriving DecidableEq, Repr

/-- A cell of a stored frame (R163, R165): its chamber, its row and the map epoch it was written
under. -/
structure Cell where
  chamber : Fin 16
  row : Nat
  epoch : BitVec 2
deriving DecidableEq, Repr

/-- A generation a frame matched (R153). -/
structure MatchedGen where
  ep : EpId
  gen : BitVec 8
deriving DecidableEq, Repr

/-- A frame held in Cavern (R165, R153), its references counted by the queues that hold it. -/
structure Stored where
  id : Nat
  frame : Frame
  ingress : EgressPort
  cells : List Cell
  matched : List MatchedGen
  resv : Nat
  pool : Nat
deriving DecidableEq, Repr

/-- A reference to a frame in a queue (R168, R174). `waiting` says that its last cell has not yet
been written to Sump (R177). -/
structure QRef where
  id : Nat
  cells : Nat
  marked : Bool
  spilled : Bool
  waiting : Bool
deriving DecidableEq, Repr

/-- A queue (R168) with its last consistent SPILL and DROP pair (R175) and the heads its head frame
began to wait for credit (R241). -/
structure Queue where
  refs : List QRef
  pageOfs : Nat
  spillAct : BitVec 24
  dropAct : BitVec 24
  creditWait : Option Nat
deriving DecidableEq, Repr

/-- A frame waiting in its credit reserve for a cell, with the ports whose queues it waits to join
(R171) and the credit that returns when it joins. The frame itself stands in `CavernState.frames`. -/
structure Waiting where
  port : LinkPort
  tc : Cls
  esc : Bool
  id : Nat
  credit : Nat
  single : Bool
  targets : List EgressPort
deriving DecidableEq, Repr

/-- A cut-through frame whose transmission has begun while its end has not yet arrived, with the header it left with (R185, R186, R344). -/
structure CutTx where
  id : Nat
  egress : EgressPort
  head : Frame
deriving DecidableEq, Repr

/-- An entry of the SUMP_UE FIFO (R184). -/
structure SumpUe where
  addr : BitVec 40
  region : BitVec 2
deriving DecidableEq, Repr

/-- Cavern and Sump (chapter 06). `damaged` are the cells, by physical chamber and row, `poisonSpill` the spilled
frames and `poisonCol` the 8-byte words of the Column region that hold an uncorrectable error (R184, R187);
`cutIn` are the cut-through frames still being received. -/
structure CavernState where
  frames : List Stored
  nextId : Nat
  queues : Vector Queue 168
  waiting : List Waiting
  cutIn : List (LocalPort × Nat)
  cutTx : List CutTx
  chamberOf : Vector ChamberIx 16
  mapEpoch : Vector (BitVec 2) 16
  lastChamber : Fin 16
  ueEvents : Vector (List Nat) 17
  chamberBad : BitVec 17
  scrubRow : Nat
  bistRun : Bool
  normTaken : Vector Nat 20
  escTaken : Vector Nat 4
  qminTaken : Vector Nat 168
  spillQ : Nat
  ueFifo : List SumpUe
  poisonSpill : List Nat
  poisonCol : List Nat
  damaged : List (ChamberIx × Nat)
  countersA : List (Nat × (BitVec 48 × Word))
  countersB : List (Nat × (BitVec 48 × Word))
  bothClearing : Bool
  powered : Bool
deriving DecidableEq, Repr

/-- A token bucket pair of the class-default policers (R216). -/
structure Bucket where
  ctok : Word
  ptok : Word
  stamp : Beat
deriving DecidableEq, Repr

/-- A tunnel of the allotment plan (R266, R267). -/
structure Tunnel where
  id : BitVec 16
  src : EpId
  dest : EpId
  tc : BitVec 3
  rate : Word
deriving DecidableEq, Repr

/-- A queued tunnel request (R267). -/
structure TunnelReq where
  master : Master
  add : Bool
  tunnel : Tunnel
deriving DecidableEq, Repr

/-- The TC5-TC7 envelope of a port (Table BOT-6). -/
structure Envelope where
  port : EgressPort
  tc5 : Word
  tc6 : Word
  tc7 : Word
deriving DecidableEq, Repr

/-- A plan that waits to be committed (R222): its target where it only waits for groups that hold a pending commit, none where it begins
again, and the requests it carries (R267). -/
structure PlanTry where
  plan : Plan
  target : Option Nat
  requests : List TunnelReq
deriving DecidableEq, Repr

/-- Schedulers, policers and plans (chapter 07), and whether this beat has seen a late delivery (R246).
Tokens and shaper sets stand in `regs`. -/
structure SchedState where
  drr : Vector Cls 21
  takeoverHead : Vector (Option Nat) 21
  profShadow : List (Nat × RateSet)
  profActive : List (Nat × RateSet)
  buckets : Vector Bucket 168
  tunnels : List Tunnel
  requests : List TunnelReq
  envelopes : List Envelope
  retry : Option PlanTry
  lateBeat : Bool
deriving DecidableEq, Repr

/-- A twin source table entry, Table DEP-1, and the head count at its last check (R25). -/
structure TwinEntry where
  src : EpId
  h : BitVec 16
  seenA : BitVec 64
  seenB : BitVec 64
  last : Beat
  lastHead : Nat
deriving DecidableEq, Repr

/-- A task entry, Table ENC-2. -/
structure TaskEntry where
  entry : BitVec 16
  budget : BitVec 16
  maxf : Byte
  flags : Byte
deriving DecidableEq, Repr

/-- A frame descriptor of an inbox (R256): the stored frame and its cells, which stay in Cavern until the
task that takes the descriptor releases them; `acted` says that the agent of its role has acted on it (log 96). -/
structure Descriptor where
  id : Nat
  cells : Nat
  acted : Bool := false
deriving DecidableEq, Repr

/-- An engine (R249): what its IMEM and DMEM were last loaded with, from address 0 up, zeros after (R250, R258). What its
tasks do to DMEM reaches the hub only as the engine's accesses and frames. -/
structure Engine where
  state : EngineState
  role : Option RoleIx
  imem : List Byte
  dmem : List Byte
deriving DecidableEq, Repr

/-- A role (R250): its engine, the epoch, OVR, the beat index of the table released and not retired, whether an
overrun has been counted against it (R254), the head of the declaration whose takeover awaits step 8, the
engine it was taken from, and whether it is vacant (R257). -/
structure Role where
  engine : Option EngineIx
  epoch : BitVec 8
  ovr : Nat
  outstanding : Option Nat
  late : Bool
  startHead : Option Nat
  former : EngineIx
  vacant : Bool
  inbox : List Descriptor
  table : List (List TaskEntry)
  seed : List Byte
deriving DecidableEq, Repr

/-- A line of 64 bytes that a Column's cache holds (R313): its number, its bytes, and whether they have been written since it was filled. -/
structure ColLine where
  line : Nat
  bytes : List Byte
  dirty : Bool
deriving DecidableEq, Repr

/-- A Column (R259-R261): whether it has firmware, READY and since which head, OVR, the table released and not retired,
whether the image copy has ended, the heads at which it halted for a restart, the head at which it last ran again, and the lines in its cache. -/
structure Column where
  loaded : Bool
  state : ColumnState
  ready : Bool
  ovr : Nat
  outstanding : Option Nat
  late : Bool
  copyDone : Bool
  restarts : List Nat
  resumed : Option Nat
  readyHead : Nat
  inbox : List Descriptor
  table : List (List TaskEntry)
  entry : Word
  lines : List ColLine
deriving DecidableEq, Repr

/-- Engines, roles and Columns (chapter 09): the engine code of the image, the anchor of every task table (R252), the roles that ENG_CMD takes over
at the next head, engines stopping for a power entry, and a supervisor that has halted (R262). COL_SUPER
stands in `regs`. -/
structure EngineWork where
  engines : Vector Engine 18
  roles : Vector Role 16
  columns : Vector Column 4
  code : List Byte
  anchor : Beat
  takeovers : List RoleIx
  halting : Bool
  superHalt : Bool
deriving DecidableEq, Repr

/-- A fault record of access protection (R314). -/
structure MpuFault where
  addr : BitVec 40
  kind : BitVec 2
  size : BitVec 6
  master : BitVec 6
  priv : Bool
  region : BitVec 7
  straddle : Bool
  cause : BitVec 3
  beat : BitVec 16
deriving DecidableEq, Repr

/-- Register access control (chapters 10, 11): unlock arming with the heads since (R289), the capture
of R280, the snapshot (R291-R293), the rules in force and the changes accepted but not yet in force
(R315), barriers (R317) and the fault FIFO (R314). -/
structure AccessState where
  unlock : Vector (Option Nat) 34
  capture : Vector (Option (Nat × BitVec 16)) 34
  snapPending : Bool
  snap : List (Nat × Word)
  rules : List (Nat × Word)
  changes : List (Nat × Word)
  barrier : Vector (Option Nat) 34
  faults : List MpuFault
deriving DecidableEq, Repr

/-- A bank of a key slot (R334). -/
structure KeyBank where
  valid : Bool
  attr : BitVec 18
  parent : BitVec 8
  pgen : BitVec 16
  gen : BitVec 16
  value : List Byte
  crc : Word
deriving DecidableEq, Repr

/-- A key slot (R326, R334): two banks and the commit word, the pending mark of R333 and the mark of a descendant that cascades at the
next head (R337). -/
structure KeySlot where
  bank0 : KeyBank
  bank1 : KeyBank
  commit : Word
  pending : Bool
  cascade : Bool
deriving DecidableEq, Repr

/-- A Geode command with the operands captured from its master's registers (R276, R331). `root` marks
a KEY_ROOT_CMD, `pend` that an operand was pending at acceptance, `marks` that its slot and descendants are pending for its sake (R333), and
`applied` that a head has applied its invalidation before its end (R27, R337). -/
structure KeyCommand where
  master : Master
  op : BitVec 4
  replace : Bool
  detach : Bool
  transmit : Bool
  root : Bool
  slot : BitVec 8
  arg : Word
  attr : BitVec 18
  len : Nat
  data : List Byte
  pend : Bool
  marks : Bool := false
  applied : Bool := false
deriving DecidableEq, Repr

/-- A link association (R343-R345): `ctr` is C of a transmit association and E of a receive one. -/
structure Assoc where
  port : LinkPort
  transmit : Bool
  sa : BitVec 8
  slot : BitVec 8
  gen : BitVec 16
  key : List Byte
  ctr : BitVec 64
  stopped : Bool
  inUse : Bool
deriving DecidableEq, Repr

/-- The KEY agent of a trunk port (R340-R342). -/
structure KeyAgent where
  rekey : Bool
  hello : List Byte
  peerHello : List Byte
  eph : Option (BitVec 8)
  rxSa : BitVec 8
  rk : Option (BitVec 8)
  oldRk : Option (BitVec 8)
  txKey : Option (BitVec 8)
  resume : List Byte
  admitHead : Nat
  running : Bool
deriving DecidableEq, Repr

/-- Geode, tamper, debug and fuses (chapter 12). -/
structure GeodeState where
  root : Option (List Byte)
  slots : Vector KeySlot 256
  running : Option KeyCommand
  queue : List KeyCommand
  cascade : Bool
  assocs : List Assoc
  agents : Vector KeyAgent 4
  challenge : Option (BitVec 64)
  tamperNow : BitVec 8
  freqArmed : Bool
  fuses : Vector (Option (List Byte)) 4
  revoked : BitVec 4
  revokedNext : BitVec 4
  fuseOp : Option (Bool × BitVec 2 × List Byte)
deriving DecidableEq, Repr

/-- A flash operation in progress (R374): its master, OP, copy and page address. -/
structure FlashOp where
  master : Master
  op : BitVec 3
  copyB : Bool
  page : Nat
deriving DecidableEq, Repr

/-- An EP_SEED record (R361). -/
structure SeedRecord where
  ep : EpId
  pin : Bool
  entry : EpEntry
deriving DecidableEq, Repr

/-- Start-up (chapter 13): flash and staging contents, the copies still to try (0 A, 1 B, 2 staged),
the seed records kept for SEED, the operations in progress, the mode and RECOVERY reason that take effect at the
next head, a core PLL that has locked and awaits the head of its switch (R397), and the REGINIT record at
which an unmet poll holds the application (R356). -/
structure BootState where
  held : Bool
  flash : List Host.Cell
  staging : List Host.Cell
  sfdpTries : Nat
  sfdp : Option SfdpInfo
  tries : List (Fin 3)
  chosen : Option (Fin 3)
  gen : Word
  applying : Bool
  seeds : List SeedRecord
  seedRun : Bool
  clockHead : Option Nat
  flashOp : Option FlashOp
  pendingMode : Option Mode
  pendingReason : Nat
  pllLocked : Bool
  applyAt : Option Nat
  fromDormant : Bool
  limitedWake : Bool
  vauxFromVbus : Bool
deriving DecidableEq, Repr

/-- A save (R389): the registers saved, GEN and copy of the image in use, and the CRC-32 over them. -/
structure Save where
  regs : List (Nat × Word)
  gen : Word
  copy : Fin 3
  crc : Word
deriving DecidableEq, Repr

/-- Power states and AVS (chapter 14). Lane group domains are the bits of `laneDom`. `wakeAck` says that the Voltage
write of a wake is acknowledged (R395), `coldStart` that the core comes up for a PORST_N released in DORMANT (R459),
`fromLayover` that an entry began in LAYOVER, where no beat heads run, `retryDue` that an ask waits for its repeat,
`askSent` that a request was made for the ask that stands, `reqAsk` and `entryAsk` that the pending request and the entry under way stem
from it (R378), `superMoved` that supervision has changed since acceptance (R380), `avsSet` that Column 0 has written AVS_TARGET for the
clock switch (R396). `avsHead` is the head of the last evaluation (R400). -/
structure PowerData where
  state : PowerState
  target : BitVec 2
  step : Nat
  ap : Nat
  asked : Option Nat
  askHead : Nat
  drainHead : Nat
  agreed : List Nat
  rollback : List Nat
  latch : BitVec 7
  reqBy : Option (Master × BitVec 2)
  askLeft : Nat
  askMaster : Option Master
  superMoved : Bool
  admitClosed : Bool
  save : Option Save
  saving : Bool
  wakeTries : Nat
  wakeWait : Nat
  wakeAck : Bool
  coldStart : Bool
  fromLayover : Bool
  retryDue : Bool
  laneDom : BitVec 8
  ddrOn : Bool
  usbOn : Bool
  coreEn : Bool
  coreHeld : Bool
  pgood : Bool
  vaux : Bool
  vbat : Bool
  avsFrom : Nat
  avsRetries : Nat
  lowCount : Nat
  avsHead : Nat
  askSent : Bool
  reqAsk : Bool
  entryAsk : Bool
  avsSet : Bool
deriving DecidableEq, Repr

/-- A reply waiting on bulk IN (R409). -/
structure UsbReply where
  op : Byte
  tag : BitVec 16
  count : Byte
  done : Byte
  status : Byte
  data : List Word
deriving DecidableEq, Repr

/-- The USB hub and the maintenance function (chapter 15). `cfg` and `vidPid` are USB_CFG and USB_VID_PID as the last attach on UP took
them (R402), `host` the fastest speed of the host that is attached, coded as UP_SPEED. `decided` says that the function has decided
to signal remote wake (R412), `nrdy` that bulk OUT has answered NRDY and owes ERDY, `seqOut` is the next sequence number of bulk OUT
(R407), `mfLink` the U state of the function's own link, `portL1` and `portSusp` the downstream ports in L1 and suspended (R405). -/
structure UsbState where
  replies : List UsbReply
  configured : Bool
  address : BitVec 7
  rwEnabled : Bool
  u1 : Bool
  u2 : Bool
  suspended : Bool
  signalled : Bool
  logSince : Bool
  portPower : BitVec 4
  conn : BitVec 4
  mfOn : Bool
  cfg : Word
  vidPid : Word
  host : BitVec 2
  decided : Bool
  nrdy : Bool
  seqOut : BitVec 5
  mfLink : BitVec 2
  portL1 : BitVec 4
  portSusp : BitVec 4
deriving DecidableEq, Repr

/-- A PD contract, Table USB-11. -/
structure Contract where
  pos : BitVec 3
  cur : BitVec 10
  volt : BitVec 10
  mismatch : Bool
deriving DecidableEq, Repr

/-- A Type-C and PD port (R413-R422). `rpOff` says that a DN port withholds Rp until the host powers it (R403, R419), `asked` is the contract
that UP has requested and that holds from PS_RDY on (R420), `msgId` the message ID counter (R416), `pdoDue` that new Source_Capabilities are
due (R417), `ccSeen` that an attach came while the USB domain was off, which runs again once it is on (R415). -/
structure PdState where
  tc : TypeC
  cc2 : Bool
  source : Bool
  dfp : Bool
  contract : Option Contract
  partner : Bool
  rpSeen : BitVec 2
  transition : Option Nat
  swap : Bool
  deadBatt : Bool
  disch : Bool
  dischFault : Bool
  oc : Bool
  rev : BitVec 2
  vsel : BitVec 2
  vbusEn : Bool
  rpOff : Bool
  lastCaps : List FixedPdo
  asked : Option Contract
  msgId : BitVec 3
  pdoDue : Bool
  ccSeen : Bool
deriving DecidableEq, Repr

/-- A monitor channel (R429-R431) and the consecutive conversions at or above 130 degrees (R433). -/
structure Channel where
  code : BitVec 12
  valid : Bool
  warn : Bool
  crit : Bool
  hot : Nat
deriving DecidableEq, Repr

/-- A log record of Table MON-3; its CRC is made as it is written. -/
structure EventRecord where
  stamp : Word
  beat : Beat
  src : Byte
  code : Byte
  seq : BitVec 16
  flags : Byte
  data : List Byte
  crc : BitVec 16
deriving DecidableEq, Repr

/-- A trend record of Table LAN-7; its CRC is made as it is written. -/
structure TrendRecord where
  stamp : Word
  runsec : Word
  samples : Word
  hMin : BitVec 16
  hMean : BitVec 16
  wMin : Byte
  wMean : Byte
  flags : Byte
  tag : Byte
  losEv : BitVec 16
  lockLoss : BitVec 16
  partner : Word
  seq : BitVec 16
  crc : BitVec 16
deriving DecidableEq, Repr

/-- The log vault (R434, R87): the event ring by index, the records waiting for the writer, and the
trend area by 16 x lane + record; `periodAt` and `epochAt` are, by lane, the record of the ring of closed periods and of the ring of
closed epochs that the next closing takes, which is the oldest (R89). `trendDue`: a trend update waits behind the pending records
(R435). -/
structure LogState where
  ring : List (Nat × EventRecord)
  pending : List EventRecord
  trend : List (Nat × TrendRecord)
  periodAt : Vector (Fin 6) 32
  epochAt : Vector (Fin 8) 32
  putBy : List Master
  trendDue : Bool
deriving DecidableEq, Repr

/-- The hub. -/
structure State where
  /-- the registers, canonical: keys rising, no entry equal to its reset value -/
  regs : List (Nat × Word)
  /-- byte memory: diagnostic window writes, Column TCMs, Column region of Sump (R190, R259, R183) -/
  mem : List Host.Cell
  /-- beat heads since PORST_N: every duration in beats counts them (R25) -/
  heads : Nat
  beat : BeatState
  lanes : Vector Lane 32
  line : LineState
  ports : Vector Port 20
  echo : EchoState
  tun : TunnelState
  cav : CavernState
  sched : SchedState
  twin : List TwinEntry
  eng : EngineWork
  acc : AccessState
  geode : GeodeState
  boot : BootState
  pwr : PowerData
  usb : UsbState
  pd : Vector PdState 3
  mon : Vector Channel 55
  log : LogState
  /-- the causes that hold FAULT_N asserted -/
  faultN : List FaultCause
  /-- DONE and STATUS of the car computer's last write (R462) -/
  carStatus : Byte × Byte
  /-- the MODEL's own: CCLK ticks of the idle step within the current RTC second -/
  ticks : Nat
  /-- the MODEL's own: how many free values have been drawn -/
  freeCtr : Nat
  /-- what the hub has sent, newest first -/
  sent : List Output
  /-- the commands that wait, first in, first out -/
  pending : List Instr
deriving DecidableEq, Repr

def BeatState.reset : BeatState :=
  { timing := .free, enteredFrom := .free, timingPort := none, rx := Vector.replicate 4 none, joint := Vector.replicate 4 none, hops := 63, srcHold := false, lastValid := 0,
    holdSince := 0, phase := 0, err := 0, length := 50000, delays := Vector.replicate 4 [], delayHead := Vector.replicate 4 0, commits := [],
    shadowDirty := [], firstRun := false, stepHead := none, prevStep := 0 }

def Lane.reset : Lane :=
  { lock := .off, count := 0, errors := 0, window := 0, ebuf := 0, los := false, lol := false,
    detected := false, trained := false, skew := none, fltAt := none,
    tseq := none, rxReady := false, txReady := false, loop := 0, remoteLoop := false,
    lpbkHeads := none, lpbkSent := none, healthyAt := none, returns := [], prbsGood := 0, prbsHist := 0, eyeNow := false, losSec := 0,
    lockSec := 0, trendClear := false, trainEn := true, askSeq := 0, ask := 0, ackTx := 0, ackSeq := 0, gen := 0, chk := 0, dropped := false }

def LineState.reset : LineState :=
  { scr := Vector.replicate 32 0, descr := Vector.replicate 32 0, slip := Vector.replicate 32 0, sinceFill := Vector.replicate 32 0,
    gen := Vector.replicate 32 1, rxQ := Vector.replicate 32 [], back := Vector.replicate 32 [], txK := Vector.replicate 20 0,
    rxK := Vector.replicate 20 0, asm := Vector.replicate 20 [], asmN := Vector.replicate 20 0, whole := Vector.replicate 20 [], out := [] }

def Credit.reset : Credit := { g := 0, held := 0, u := 0, count := 0, limit := none, owed := 0 }

/-- A port at reset, with the reset reserves of Table CAV-6. -/
def Port.reset (norm esc : Nat) : Port :=
  { stage := .down, stageHead := 0, adm := .closed, txLanes := 0, rxLanes := 0, txWidth := 0,
    rxWidth := 0, fullWidth := 0, parked := 0, leftLock := 0, pst := 0, refuse := 0, coupled := false, nbDead := false,
    rate := 1, reached := false, lossHead := none, fastTried := false, fastFailed := false,
    coupledKept := false, caps := Vector.replicate 4 none, agreed := false, partner := none,
    admittedId := none, authHead := 0, retryHead := none, session := false, echoHead := 0,
    holdHead := none, holdWin := 0, flushed := false, inFrame := false, discarding := false,
    amkTx := 0, eseq := 0, echoReq := none, reqHead := none, fltHead := none, credits := Vector.replicate 16 Credit.reset,
    ignoring := false, norm := norm, esc := esc, resyncHead := 0, modeAct := 0, localFault := false, lossDead := false,
    echoTx := 0, txHead := none, txTc := 0, ownTx := [], syncHead := 0 }

def EpEntry.zero : EpEntry :=
  { valid := false, revoked := false, pin := false, twin := false, isLocal := false, port := 0, kinds := 0,
    classes := 0, gen := 0, nextSeq := 0, profile := 0, ctok := 0, ptok := 0, stamp := 0,
    desc := Vector.replicate 6 0, cmdBeat := 0, cmdMaster := 0 }

/-- The reset pair of Table CAV-1 with SUMP_PRESENT = 0, by class. -/
def Queue.reset (tc : Nat) : Queue :=
  { refs := [], pageOfs := 0, spillAct := if tc ≤ 3 then 2048 else 0xFFFFFF,
    dropAct := if tc ≤ 3 then 4096 else if tc = 4 then 1024 else if tc = 5 then 4096 else 512,
    creditWait := none }

def Bucket.full : Bucket := { ctok := 0xFFFFFF00, ptok := 0xFFFFFF00, stamp := 0 }

/-- An empty bank; the CRC-32 over its nine zero bytes. -/
def KeyBank.empty : KeyBank :=
  { valid := false, attr := 0, parent := 0, pgen := 0, gen := 0, value := [], crc := 0xE60914AE }

/-- A slot that has held no key: bank 0 with GEN 0, whose commit word is 0 and so is its CRC-8. -/
def KeySlot.empty : KeySlot :=
  { bank0 := .empty, bank1 := .empty, commit := 0, pending := false, cascade := false }

def KeyAgent.reset : KeyAgent :=
  { rekey := false, hello := [], peerHello := [], eph := none, rxSa := 0, rk := none, oldRk := none,
    txKey := none, resume := [], admitHead := 0, running := false }

def Role.reset (e : EngineIx) : Role :=
  { engine := some e, epoch := 0, ovr := 0, outstanding := none, late := false, startHead := none,
    former := e, vacant := false, inbox := [], table := [[]], seed := [] }

def Column.reset : Column :=
  { loaded := false, state := .reset, ready := false, ovr := 0, outstanding := none, late := false, copyDone := false,
    restarts := [], resumed := none, readyHead := 0, inbox := [], table := [[]], entry := 0, lines := [] }

def PdState.reset (source : Bool) : PdState :=
  { tc := .unattached, cc2 := false, source := source, dfp := source, contract := none, partner := false,
    rpSeen := 0, transition := none, swap := false, deadBatt := false, disch := false,
    dischFault := false, oc := false, rev := 0, vsel := 0, vbusEn := false, rpOff := false, lastCaps := [],
    asked := none, msgId := 0, pdoDue := false, ccSeen := false }

def Channel.reset : Channel := { code := 0, valid := false, warn := false, crit := false, hot := 0 }

/-- The hub right after the release of PORST_N (R367 stage 0) with every strap sampled 0
(DESIGN CHOICE, log 5): mode START, beat 0 on IFO, every register at its reset value. The last chamber allocated reads 15, so that the
first allocation begins at chamber 0 (R166 gives none; DESIGN CHOICE, log 111). -/
def State.reset : State :=
  { regs := []
    mem := []
    heads := 0
    beat := .reset
    lanes := Vector.replicate 32 .reset
    line := .reset
    ports := Vector.ofFn fun p => if p.val < 4 then Port.reset 64 40 else Port.reset 37 0
    echo := { records := [], recSeq := 0, master := 0, ann := none, merge := none, viewSince := 0,
              raiseHead := none, runHead := none, members := [Config.hubId],
              lost := [], away := [], ringCut := 0, more := [], parted := [], newLinks := [] }
    tun := { table := [], changed := [], poison := [], cache := [], fetching := [], missQ := [], map := [], routes := [], routesDue := false }
    cav := { frames := [], nextId := 0, queues := Vector.ofFn fun q => Queue.reset (q.val % 8), waiting := [], cutIn := [], cutTx := [],
             chamberOf := Vector.ofFn fun c => ⟨c.val, by omega⟩, mapEpoch := Vector.replicate 16 0,
             lastChamber := 15, ueEvents := Vector.replicate 17 [],
             chamberBad := 0, scrubRow := 0, bistRun := true,
             normTaken := Vector.ofFn fun p => if p.val < 4 then 64 else 37, escTaken := Vector.replicate 4 40,
             qminTaken := Vector.replicate 168 16, spillQ := 0, ueFifo := [], poisonSpill := [], poisonCol := [], damaged := [],
             countersA := [], countersB := [], bothClearing := false, powered := true }
    sched := { drr := Vector.replicate 21 7, takeoverHead := Vector.replicate 21 none, profShadow := [],
               profActive := [], buckets := Vector.replicate 168 .full, tunnels := [], requests := [],
               envelopes := [], retry := none, lateBeat := false }
    twin := []
    eng := { engines := Vector.ofFn fun e =>
               if h : e.val < 16 then { state := .active, role := some ⟨e.val, h⟩, imem := [], dmem := [] }
               else { state := .spare, role := none, imem := [], dmem := [] }
             roles := Vector.ofFn fun r => Role.reset ⟨r.val, by omega⟩
             columns := Vector.replicate 4 .reset, code := [], anchor := 0, takeovers := [], halting := false, superHalt := false }
    acc := { unlock := Vector.replicate 34 none, capture := Vector.replicate 34 none, snapPending := false,
             snap := [], rules := [], changes := [], barrier := Vector.replicate 34 none, faults := [] }
    geode := { root := none, slots := Vector.replicate 256 .empty, running := none, queue := [], cascade := false,
               assocs := [], agents := Vector.replicate 4 .reset, challenge := none, tamperNow := 0,
               freqArmed := false, fuses := Vector.replicate 4 none, revoked := 0, revokedNext := 0, fuseOp := none }
    boot := { held := false, flash := [], staging := [], sfdpTries := 0, sfdp := none, tries := [], chosen := none,
              gen := 0, applying := false, seeds := [], seedRun := false, clockHead := none, flashOp := none,
              pendingMode := none, pendingReason := 0,
              pllLocked := false, applyAt := none, fromDormant := false, limitedWake := false, vauxFromVbus := false }
    pwr := { state := .active, target := 0, step := 0, ap := 0, asked := none, askHead := 0, drainHead := 0, agreed := [],
             rollback := [], latch := 0, reqBy := none, askLeft := 0, askMaster := none, superMoved := false,
             admitClosed := false, save := none, saving := false, wakeTries := 0, wakeWait := 1,
             wakeAck := false, coldStart := false, fromLayover := false, retryDue := false,
             laneDom := 0, ddrOn := false, usbOn := true, coreEn := true, coreHeld := false, pgood := true,
             vaux := true, vbat := true, avsFrom := 800, avsRetries := 0, lowCount := 0, avsHead := 0, askSent := false,
             reqAsk := false, entryAsk := false, avsSet := false }
    usb := { replies := [], configured := false, address := 0, rwEnabled := false, u1 := false,
             u2 := false, suspended := false, signalled := false, logSince := false,
             portPower := 0, conn := 0, mfOn := false, cfg := 0x94F, vidPid := BitVec.ofNat 32 Config.usbVidPid,
             host := 0, decided := false, nrdy := false, seqOut := 0, mfLink := 0, portL1 := 0, portSusp := 0 }
    pd := Vector.ofFn fun k => PdState.reset (k.val != 0)
    mon := Vector.replicate 55 .reset
    log := { ring := [], pending := [], trend := [], periodAt := Vector.replicate 32 0, epochAt := Vector.replicate 32 0, putBy := [], trendDue := false }
    faultN := []
    carStatus := (0, 0)
    ticks := 0
    freeCtr := 0
    sent := []
    pending := [] }

end Sys2Proof.Machine
end

