-- ==== Sys2Proof/Machine/LineCode.lean ====
section
/-! DEFINITION. Machine/LineCode.lean: the line code of Torvisk Link: control blocks and their layouts (Tables LAN-2, LAN-3 and
BEA-3, R61-R63), frames as blocks (R58), the scrambler (R57), the test patterns (R84) and what one lane sends (R68, R81). -/

namespace Sys2Proof.Machine

open Sys2Proof

/-! ## Control blocks (R61-R63) -/

/-- A control block: every layout of Tables LAN-3 and BEA-3. -/
inductive Control where
  | fill
  | train (pre post : BitVec 2) (preset : BitVec 3) (ack : BitVec 2) (lane : BitVec 2) (rxReady : Bool) (tseq ackSeq : BitVec 8)
  | cap0 (rate : BitVec 2) (rates lanes : BitVec 3) (backbone carEnd : BitVec 1) (seat role : BitVec 2) (cl keySlot : BitVec 8) (sat : Bool)
  | cap1 (id : BitVec 32)
  | cap2 (id : BitVec 32)
  | amk (lane width : BitVec 2) (seq : BitVec 16)
  | beat (num : BitVec 32) (hops : BitVec 6) (hold : Bool) (ofs : BitVec 10) (pep : BitVec 4)
  | cred (tc : BitVec 3) (esc : Bool) (count : BitVec 20)
  | sof
  | eof (n : BitVec 3) (data : BitVec 56)
  | echo (reply : Bool) (eseq : BitVec 7) (turn : BitVec 24)
  | flt (code lanes : BitVec 4)
  | lpbk (op : BitVec 2) (lanes : BitVec 4)
deriving DecidableEq, Repr

/-- A payload from its TYPE and the fields above it, each at its lowest bit; every other bit is 0. -/
def payloadOf (type : Nat) (fs : List (Nat × Nat)) : BitVec 64 := BitVec.ofNat 64 (fs.foldl (fun a f => a + f.2 * 2 ^ f.1) type)

/-- The payload of a control block (Tables LAN-3 and BEA-3). -/
def Control.payload : Control → BitVec 64
  | .fill => payloadOf 0x3C []
  | .train pre post preset ack lane ready tseq ackSeq =>
    payloadOf 0x5A [(8, pre.toNat), (10, post.toNat), (12, preset.toNat), (15, ack.toNat), (17, lane.toNat), (19, b2n ready),
      (20, tseq.toNat), (28, ackSeq.toNat)]
  | .cap0 rate rates lanes bb ce seat role cl key sat =>
    payloadOf 0x66 [(10, rate.toNat), (12, rates.toNat), (15, lanes.toNat), (18, bb.toNat), (19, ce.toNat), (20, seat.toNat),
      (22, role.toNat), (24, cl.toNat), (32, key.toNat), (40, b2n sat)]
  | .cap1 id => payloadOf 0x66 [(8, 1), (10, id.toNat)]
  | .cap2 id => payloadOf 0x66 [(8, 2), (10, id.toNat)]
  | .amk lane width seq => payloadOf 0x78 [(8, lane.toNat), (10, width.toNat), (12, seq.toNat)]
  | .beat num hops hold ofs pep =>
    payloadOf 0x87 [(8, num.toNat), (40, hops.toNat), (46, b2n hold), (47, ofs.toNat), (57, pep.toNat)]
  | .cred tc esc n => payloadOf 0x99 [(8, tc.toNat), (11, b2n esc), (12, n.toNat)]
  | .sof => payloadOf 0xA5 []
  | .eof n d => payloadOf (0xB0 + n.toNat) [(8, d.toNat % 2 ^ (8 * n.toNat))]
  | .echo reply q turn => payloadOf 0xC3 [(8, b2n reply), (9, q.toNat), (16, turn.toNat)]
  | .flt c m => payloadOf 0xD2 [(8, c.toNat), (12, m.toNat)]
  | .lpbk op m => payloadOf 0xE1 [(8, op.toNat), (10, m.toNat)]

/-- A control block with its sync header 0b10. -/
def Control.block (c : Control) : Block := { hdr := 2, payload := c.payload }

/-- The idle block. -/
def fillBlock : Block := Control.fill.block

/-- Bits [lo + w - 1 : lo] of a payload. -/
def fieldAt (p : BitVec 64) (lo w : Nat) : BitVec w := p.extractLsb' lo w

/-- The CAP parts; PART = 3, RATE = 0b11 and a LANES other than 1, 2 or 4 are invalid (R63). -/
def readCap (p : BitVec 64) : Option Control :=
  let lanes := fieldAt p 15 3
  match (fieldAt p 8 2).toNat with
  | 0 =>
    if fieldAt p 10 2 = 3 ∨ ¬(lanes = 1 ∨ lanes = 2 ∨ lanes = 4) then none
    else some (.cap0 (fieldAt p 10 2) (fieldAt p 12 3) lanes (fieldAt p 18 1) (fieldAt p 19 1) (fieldAt p 20 2) (fieldAt p 22 2)
      (fieldAt p 24 8) (fieldAt p 32 8) (p.getLsbD 40))
  | 1 => some (.cap1 (fieldAt p 10 32))
  | 2 => some (.cap2 (fieldAt p 10 32))
  | _ => none

/-- The control block a payload spells, none where R63 makes it invalid; reserved bits are ignored (R62). -/
def Control.read (p : BitVec 64) : Option Control :=
  match (fieldAt p 0 8).toNat with
  | 0x3C => some .fill
  | 0x5A =>
    if fieldAt p 15 2 = 3 then none
    else some (.train (fieldAt p 8 2) (fieldAt p 10 2) (fieldAt p 12 3) (fieldAt p 15 2) (fieldAt p 17 2) (p.getLsbD 19)
      (fieldAt p 20 8) (fieldAt p 28 8))
  | 0x66 => readCap p
  | 0x78 => if fieldAt p 10 2 = 3 then none else some (.amk (fieldAt p 8 2) (fieldAt p 10 2) (fieldAt p 12 16))
  | 0x87 => some (.beat (fieldAt p 8 32) (fieldAt p 40 6) (p.getLsbD 46) (fieldAt p 47 10) (fieldAt p 57 4))
  | 0x99 => some (.cred (fieldAt p 8 3) (p.getLsbD 11) (fieldAt p 12 20))
  | 0xA5 => some .sof
  | 0xC3 => some (.echo (p.getLsbD 8) (fieldAt p 9 7) (fieldAt p 16 24))
  | 0xD2 => some (.flt (fieldAt p 8 4) (fieldAt p 12 4))
  | 0xE1 => some (.lpbk (fieldAt p 8 2) (fieldAt p 10 4))
  | t =>
    if 0xB0 ≤ t ∧ t ≤ 0xB7 then
      some (.eof (BitVec.ofNat 3 (t - 0xB0)) (BitVec.ofNat 56 ((fieldAt p 8 56).toNat % 2 ^ (8 * (t - 0xB0)))))
    else none

/-- A control block that belongs to the striped stream of its port (Table LAN-2). -/
def Control.portLevel : Control → Bool
  | .cred .. => true
  | .sof => true
  | .eof .. => true
  | _ => false

/-- The three blocks of a CAP record, in order (R64). -/
def Control.capRecord (r : CapRecord) : List Control :=
  [.cap0 r.rate r.rates r.lanes r.backbone r.carEnd r.seat r.role r.cl r.keySlot r.sat,
   .cap1 (BitVec.ofNat 32 r.id.toNat), .cap2 (BitVec.ofNat 32 (r.id.toNat / 2 ^ 32))]

/-! ## Frames as blocks (R58, R129) -/

/-- The N bytes of a frame on the line: header, payload, FCS least significant byte first, tag (R129, R132). -/
def frameBytes (f : Frame) (fcs : Word) (tag : Option (BitVec 128)) : List Byte :=
  f.header ++ f.payload ++ leBytes 4 fcs.toNat ++ (match tag with | some t => leBytes 16 t.toNat | none => [])

/-- Eight bytes as a data block, the earliest in payload bits [7:0]. -/
def dataBlock (bs : List Byte) : Block := { hdr := 1, payload := BitVec.ofNat 64 (leNat bs) }

/-- N bytes between SOF and EOF: one SOF block, floor(N / 8) data blocks, one EOF block with the rest (R58). -/
def bytesBlocks (bs : List Byte) : List Block :=
  let n := bs.length / 8
  Control.sof.block :: ((List.range n).map fun i => dataBlock ((bs.drop (8 * i)).take 8)) ++
    [(Control.eof (BitVec.ofNat 3 (bs.length % 8)) (BitVec.ofNat 56 (leNat (bs.drop (8 * n))))).block]

/-- A frame as the blocks of its port's stream. -/
def frameBlocks (f : Frame) (fcs : Word) (tag : Option (BitVec 128)) : List Block := bytesBlocks (frameBytes f fcs tag)

/-! ## The scrambler (R57) -/

/-- A bit into the 58 bits last on the line. -/
def shiftBit {w : Nat} (st : BitVec w) (b : Bool) : BitVec w := (st <<< 1) ||| BitVec.ofNat w (b2n b)

/-- A bit through x^58 + x^39 + 1: the bit with the line bits 39 and 58 back. -/
def scrambleBit (st : BitVec 58) (b : Bool) : Bool := b != (st.getLsbD 38 != st.getLsbD 57)

/-- A payload scrambled, bit 0 first: the state after it and the line bits. -/
def scramble (st : BitVec 58) (p : BitVec 64) : BitVec 58 × BitVec 64 :=
  (List.range 64).foldl (fun x i =>
    let y := scrambleBit x.1 (p.getLsbD i)
    (shiftBit x.1 y, x.2 ||| BitVec.ofNat 64 (b2n y * 2 ^ i))) (st, 0)

/-- Line bits descrambled: the state after them and the payload. Whatever the state was, it is right from the 59th bit on. -/
def descramble (st : BitVec 58) (p : BitVec 64) : BitVec 58 × BitVec 64 :=
  (List.range 64).foldl (fun x i =>
    let y := p.getLsbD i
    (shiftBit x.1 y, x.2 ||| BitVec.ofNat 64 (b2n (scrambleBit x.1 y) * 2 ^ i))) (st, 0)

/-! ## Test patterns (R84) -/

/-- The next bit of PRBS9 (x^9 + x^5 + 1) or PRBS31 (x^31 + x^28 + 1) from the bits before it (PRESUMED, log 17). -/
def prbsNext (prbs31 : Bool) (h : BitVec 31) : Bool :=
  if prbs31 then h.getLsbD 30 != h.getLsbD 27 else h.getLsbD 8 != h.getLsbD 4

/-- 66 bits of a pattern, in the place of a block. -/
def prbsBlock (prbs31 : Bool) (h : BitVec 31) : BitVec 31 × Block :=
  let bit (x : BitVec 31 × Nat) : BitVec 31 × Nat := (shiftBit x.1 (prbsNext prbs31 x.1), x.2 * 2 + b2n (prbsNext prbs31 x.1))
  let hd := bit (bit (h, 0))
  let pl := (List.range 64).foldl (fun (x : BitVec 31 × BitVec 64) i =>
    (shiftBit x.1 (prbsNext prbs31 x.1), x.2 ||| BitVec.ofNat 64 (b2n (prbsNext prbs31 x.1) * 2 ^ i))) (hd.1, 0)
  (pl.1, { hdr := BitVec.ofNat 2 hd.2, payload := pl.2 })

/-! ## One block sent on a lane (R57, R68, R81, R84) -/

/-- The driver of a lane sends a block. -/
def LineState.drive (x : LineState) (l : LaneIx) (b : Block) : LineState := { x with out := (l, b) :: x.out }

/-- A block is kept for a near-end loop. -/
def LineState.keep (x : LineState) (on : Bool) (l : LaneIx) (b : Block) : LineState :=
  if on then { x with back := vmod x.back l (· ++ [b]) } else x

/-- A block leaves the own PCS on a lane: scrambled; kept for a near-end parallel loop, which is taken at the PCS; at the driver replaced
by a pattern, and not sent there under a far-end loop, whose driver sends the line data; kept as the driver sends it for a near-end
serial loop, which is taken at the pad (Table LAN-6, R84). -/
def LineState.put (x : LineState) (gen : BitVec 2) (far serial parallel : Bool) (l : LaneIx) (b : Block) : LineState :=
  let (sc, bits) := scramble x.scr[l] b.payload
  let line : Block := { hdr := b.hdr, payload := bits }
  let x1 := { x with scr := vset x.scr l sc, sinceFill := vmod x.sinceFill l fun n => if b = fillBlock then 0 else n + 1 }
  let x2 := x1.keep parallel l line
  if far then x2
  else if gen = 0 then (x2.keep serial l line).drive l line
  else
    let (g, pat) := prbsBlock (gen == 2) x2.gen[l]
    ({ x2 with gen := vset x2.gen l g }.keep serial l pat).drive l pat

/-- The block that a near-end loop feeds to the receive PCS: the oldest kept, the idle block put there where none waits. -/
def LineState.loopBack (x : LineState) (gen : BitVec 2) (far serial parallel : Bool) (l : LaneIx) : LineState × Block :=
  let y := if x.back[l].isEmpty then x.put gen far serial parallel l fillBlock else x
  ({ y with back := vmod y.back l (·.drop 1) }, y.back[l].headD fillBlock)

end Sys2Proof.Machine
end

