-- ==== Sys2Proof/Machine/RegTable.lean ====
section
/-! DEFINITION. Machine/RegTable.lean: the registers of the register range (R269, R467), their
addresses, field types (Table REG-2), field masks and reset values, taken from the summary tables of
the block chapters. Reset values that a strap sets (Table BAL-6) stand here for straps sampled 0; the
sampled straps are written at the release of PORST_N. -/

namespace Sys2Proof.Machine

/-- Field types, Table REG-2. -/
inductive FieldType where
  | ctl | go | fen | sta | cnt | shd | grd | cmd | pop
deriving DecidableEq, Repr

/-- One row of a register summary: the address of its first instance, the counts and strides of its
instances (outermost first), its fields by type with the bits they hold, its reset value, whether it
holds one copy per master (R276) and whether Bedrock keeps it. -/
structure RegRow where
  base : Nat
  dims : List (Nat × Nat)
  parts : List (FieldType × Nat)
  reset : Nat
  perMaster : Bool
  kept : Bool
deriving DecidableEq, Repr

/-- A row whose register is one copy outside Bedrock. -/
def row (base : Nat) (dims : List (Nat × Nat)) (parts : List (FieldType × Nat)) (reset : Nat) : RegRow :=
  { base := base, dims := dims, parts := parts, reset := reset, perMaster := false, kept := false }

/-- A row of a register with one copy per master. -/
def rowPm (base : Nat) (dims : List (Nat × Nat)) (parts : List (FieldType × Nat)) (reset : Nat) : RegRow :=
  { row base dims parts reset with perMaster := true }

/-- A row of a register that Bedrock keeps. -/
def rowKept (base : Nat) (dims : List (Nat × Nat)) (parts : List (FieldType × Nat)) (reset : Nat) : RegRow :=
  { row base dims parts reset with kept := true }

/-- Whether offset `d` from the first instance is an instance of the given dimensions. -/
def RegRow.hits : List (Nat × Nat) → Nat → Bool
  | [], d => d == 0
  | (n, st) :: rest, d => decide (d / st < n) && RegRow.hits rest (d % st)

/-- Whether the register stands at address `a`. -/
def RegRow.covers (r : RegRow) (a : Nat) : Bool := decide (r.base ≤ a) && RegRow.hits r.dims (a - r.base)

/-! Addresses of the GLB block. -/
abbrev Reg.GLB_UNLOCK : Nat := 0x000020
abbrev Reg.GLB_UNLOCK_FAIL : Nat := 0x000024
abbrev Reg.GLB_GRD_DENY : Nat := 0x000028
abbrev Reg.GLB_BUS_ERR : Nat := 0x00002C
abbrev Reg.GLB_BUS_ERR_LAST_LO : Nat := 0x000030
abbrev Reg.GLB_BUS_ERR_LAST_HI : Nat := 0x000034
abbrev Reg.GLB_ID : Nat := 0x000000
abbrev Reg.GLB_MODE : Nat := 0x000004
abbrev Reg.GLB_CL_SUPPORTED : Nat := 0x000008
abbrev Reg.GLB_CL_ACTIVE : Nat := 0x00000C
abbrev Reg.GLB_STRAPS : Nat := 0x000010
abbrev Reg.GLB_GPIO_OE : Nat := 0x000040
abbrev Reg.GLB_GPIO_OUT : Nat := 0x000044
abbrev Reg.GLB_GPIO_IN : Nat := 0x000048
abbrev Reg.GLB_REFCLK : Nat := 0x000050

/-! Addresses of the BEAT block. -/
abbrev Reg.BEAT_NUM : Nat := 0x010000
abbrev Reg.BEAT_NUM_HI : Nat := 0x010004
abbrev Reg.BEAT_PHASE : Nat := 0x010008
abbrev Reg.BEAT_STATUS : Nat := 0x01000C
abbrev Reg.BEAT_ROLE : Nat := 0x010010
abbrev Reg.BEAT_MASTER_ID_LO : Nat := 0x010014
abbrev Reg.BEAT_MASTER_ID_HI : Nat := 0x010018
def Reg.BEAT_DLY (i : Nat) : Nat := 0x010020 + i * 0x4
abbrev Reg.BEAT_STEP_LO : Nat := 0x010030
abbrev Reg.BEAT_STEP_HI : Nat := 0x010034
abbrev Reg.BEAT_STEP_OFS_LO : Nat := 0x010038
abbrev Reg.BEAT_STEP_OFS_HI : Nat := 0x01003C
abbrev Reg.BEAT_CMT_TGT_LO : Nat := 0x010040
abbrev Reg.BEAT_CMT_TGT_HI : Nat := 0x010044
abbrev Reg.BEAT_CMT_CMD : Nat := 0x010048
abbrev Reg.BEAT_CMT_RESULT : Nat := 0x01004C
abbrev Reg.BEAT_CMT_PENDING : Nat := 0x010050
abbrev Reg.BEAT_STEP_COUNT : Nat := 0x010060
abbrev Reg.BEAT_HOLD_COUNT : Nat := 0x010064
abbrev Reg.BEAT_BLK_BAD : Nat := 0x010068
abbrev Reg.BEAT_CMT_REFUSED : Nat := 0x01006C

/-! Addresses of the LANE block. -/
def Reg.LANE_CFG (i : Nat) : Nat := 0x020000 + i * 0x400
def Reg.LANE_CFG_ACT (i : Nat) : Nat := 0x020004 + i * 0x400
def Reg.LANE_STATUS (i : Nat) : Nat := 0x020008 + i * 0x400
def Reg.LANE_EQ (i : Nat) : Nat := 0x02000C + i * 0x400
def Reg.LANE_EYE (i : Nat) : Nat := 0x020010 + i * 0x400
def Reg.LANE_PPM (i : Nat) : Nat := 0x020014 + i * 0x400
def Reg.LANE_LOOP (i : Nat) : Nat := 0x020018 + i * 0x400
def Reg.LANE_TEST (i : Nat) : Nat := 0x02001C + i * 0x400
def Reg.LANE_LOS_COUNT (i : Nat) : Nat := 0x020040 + i * 0x400
def Reg.LANE_LOL_COUNT (i : Nat) : Nat := 0x020044 + i * 0x400
def Reg.LANE_LOCK_LOSS (i : Nat) : Nat := 0x020048 + i * 0x400
def Reg.LANE_HDR_ERR (i : Nat) : Nat := 0x02004C + i * 0x400
def Reg.LANE_BLK_INVALID (i : Nat) : Nat := 0x020050 + i * 0x400
def Reg.LANE_EBUF_ERR (i : Nat) : Nat := 0x020054 + i * 0x400
def Reg.LANE_AMK_ERR (i : Nat) : Nat := 0x020058 + i * 0x400
def Reg.LANE_PRBS_ERR (i : Nat) : Nat := 0x02005C + i * 0x400
def Reg.LANE_LPBK_FAIL (i : Nat) : Nat := 0x020060 + i * 0x400
abbrev Reg.LANE_TREND_CTL : Nat := 0x028000
abbrev Reg.LANE_TREND_CLR : Nat := 0x028004

/-! Addresses of the TRK block. -/
def Reg.TRK_CFG (i : Nat) : Nat := 0x040000 + i * 0x400
def Reg.TRK_STATUS (i : Nat) : Nat := 0x040004 + i * 0x400
def Reg.TRK_PARTNER_ID_LO (i : Nat) : Nat := 0x040008 + i * 0x400
def Reg.TRK_PARTNER_ID_HI (i : Nat) : Nat := 0x04000C + i * 0x400
def Reg.TRK_PARTNER_CAP (i : Nat) : Nat := 0x040010 + i * 0x400
def Reg.TRK_STAGE_TIME (i : Nat) : Nat := 0x040014 + i * 0x400
def Reg.TRK_DOWN_COUNT (i : Nat) : Nat := 0x040040 + i * 0x400
def Reg.TRK_TRAIN_TIMEOUT (i : Nat) : Nat := 0x040044 + i * 0x400
def Reg.TRK_LOCK_TIMEOUT (i : Nat) : Nat := 0x040048 + i * 0x400
def Reg.TRK_CAPX_TIMEOUT (i : Nat) : Nat := 0x04004C + i * 0x400
def Reg.TRK_CAPX_REFUSED (i : Nat) : Nat := 0x040050 + i * 0x400
def Reg.TRK_WIRING_ERR (i : Nat) : Nat := 0x040054 + i * 0x400
def Reg.TRK_AUTH_FAIL (i : Nat) : Nat := 0x040058 + i * 0x400
def Reg.TRK_DEGRADE_COUNT (i : Nat) : Nat := 0x04005C + i * 0x400
def Reg.TRK_DEGRADE_DISC (i : Nat) : Nat := 0x040060 + i * 0x400
def Reg.TRK_FRAMING_ERR (i : Nat) : Nat := 0x040064 + i * 0x400
def Reg.TRK_STALE_PEP (i : Nat) : Nat := 0x040068 + i * 0x400
def Reg.TRK_BYPASS_DROP (i : Nat) : Nat := 0x04006C + i * 0x400
def Reg.TRK_SNS_BOUNCE (i : Nat) : Nat := 0x040070 + i * 0x400
abbrev Reg.TRK_HOLD_WIN : Nat := 0x041000

/-! Addresses of the LOC block. -/
abbrev Reg.LOC_GROUP : Nat := 0x050000
def Reg.LOC_MODE (i : Nat) : Nat := 0x050100 + i * 0x100
def Reg.LOC_STATUS (i : Nat) : Nat := 0x050104 + i * 0x100
def Reg.LOC_RX_FRAMES_LO (i : Nat) : Nat := 0x050110 + i * 0x100
def Reg.LOC_RX_FRAMES_HI (i : Nat) : Nat := 0x050114 + i * 0x100
def Reg.LOC_RX_BYTES_LO (i : Nat) : Nat := 0x050118 + i * 0x100
def Reg.LOC_RX_BYTES_HI (i : Nat) : Nat := 0x05011C + i * 0x100
def Reg.LOC_TX_FRAMES_LO (i : Nat) : Nat := 0x050120 + i * 0x100
def Reg.LOC_TX_FRAMES_HI (i : Nat) : Nat := 0x050124 + i * 0x100
def Reg.LOC_TX_BYTES_LO (i : Nat) : Nat := 0x050128 + i * 0x100
def Reg.LOC_TX_BYTES_HI (i : Nat) : Nat := 0x05012C + i * 0x100
def Reg.LOC_FCS_ERR (i : Nat) : Nat := 0x050130 + i * 0x100
def Reg.LOC_LEN_ERR (i : Nat) : Nat := 0x050134 + i * 0x100
def Reg.LOC_PAUSE_DISC (i : Nat) : Nat := 0x050138 + i * 0x100
def Reg.LOC_FEC_CORR (i : Nat) : Nat := 0x05013C + i * 0x100
def Reg.LOC_FEC_UNCORR (i : Nat) : Nat := 0x050140 + i * 0x100
def Reg.LOC_FRAMING_ERR (i : Nat) : Nat := 0x050144 + i * 0x100

/-! Addresses of the TOPO block. -/
abbrev Reg.TOPO_CFG : Nat := 0x060000
abbrev Reg.TOPO_STATUS : Nat := 0x060004
abbrev Reg.TOPO_SELF_ID_LO : Nat := 0x060008
abbrev Reg.TOPO_SELF_ID_HI : Nat := 0x06000C
abbrev Reg.TOPO_EPOCH_BEAT_LO : Nat := 0x060010
abbrev Reg.TOPO_EPOCH_BEAT_HI : Nat := 0x060014
abbrev Reg.TOPO_MERGE_S_LO : Nat := 0x060018
abbrev Reg.TOPO_MERGE_S_HI : Nat := 0x06001C
abbrev Reg.TOPO_VIEW_SEQ : Nat := 0x060020
abbrev Reg.TOPO_HUB_SEL : Nat := 0x060030
abbrev Reg.TOPO_HUB_ID_LO : Nat := 0x060034
abbrev Reg.TOPO_HUB_ID_HI : Nat := 0x060038
abbrev Reg.TOPO_HUB_INFO : Nat := 0x06003C
abbrev Reg.TOPO_HUB_NB : Nat := 0x060040
abbrev Reg.TOPO_VIEW_CHANGES : Nat := 0x060080
abbrev Reg.TOPO_NB_DEAD : Nat := 0x060084
abbrev Reg.TOPO_EPOCH_RAISES : Nat := 0x060088
abbrev Reg.TOPO_MERGES : Nat := 0x06008C
abbrev Reg.TOPO_MERGE_CANCEL : Nat := 0x060090
abbrev Reg.TOPO_SPLITS : Nat := 0x060094
abbrev Reg.TOPO_SLOT_MOVES : Nat := 0x060098
abbrev Reg.TOPO_ECHO_BAD : Nat := 0x06009C

/-! Addresses of the TUN block. -/
abbrev Reg.TUN_CFG : Nat := 0x080000
abbrev Reg.TUN_STATUS : Nat := 0x080004
abbrev Reg.TUN_MAP_COUNT : Nat := 0x080008
def Reg.TUN_EPW (i : Nat) : Nat := 0x080010 + i * 0x4
abbrev Reg.TUN_EP_SEL : Nat := 0x080050
abbrev Reg.TUN_EP_CMD : Nat := 0x080054
abbrev Reg.TUN_EP_RESULT : Nat := 0x080058
abbrev Reg.TUN_MAP_KEY_LO : Nat := 0x080060
abbrev Reg.TUN_MAP_KEY_HI : Nat := 0x080064
abbrev Reg.TUN_MAP_VAL : Nat := 0x080068
abbrev Reg.TUN_MAP_CMD : Nat := 0x08006C
abbrev Reg.TUN_MAP_RESULT : Nat := 0x080070
abbrev Reg.TUN_ROUTE_SEL : Nat := 0x080080
abbrev Reg.TUN_ROUTE : Nat := 0x080084
abbrev Reg.TUN_FCS_ERR : Nat := 0x080100
abbrev Reg.TUN_HCS_ERR : Nat := 0x080104
abbrev Reg.TUN_LEN_ERR : Nat := 0x080108
abbrev Reg.TUN_KIND_ERR : Nat := 0x08010C
abbrev Reg.TUN_TW_ERR : Nat := 0x080110
abbrev Reg.TUN_EP_ERR : Nat := 0x080114
abbrev Reg.TUN_SRC_SPOOF : Nat := 0x080118
abbrev Reg.TUN_NO_SLOT : Nat := 0x08011C
abbrev Reg.TUN_SRC_INVALID : Nat := 0x080120
abbrev Reg.TUN_REVOKED_IN : Nat := 0x080124
abbrev Reg.TUN_REVOKED_OUT : Nat := 0x080128
abbrev Reg.TUN_CLASS_DENY : Nat := 0x08012C
abbrev Reg.TUN_DST_INVALID : Nat := 0x080130
abbrev Reg.TUN_NO_ROUTE : Nat := 0x080134
abbrev Reg.TUN_MISS : Nat := 0x080138
abbrev Reg.TUN_MISS_DEFAULT : Nat := 0x08013C
abbrev Reg.TUN_TRANSIT_UNPOL : Nat := 0x080140
abbrev Reg.TUN_TWIN_ONE : Nat := 0x080144
abbrev Reg.TUN_MAP_MISS_SRC : Nat := 0x080148
abbrev Reg.TUN_MAP_MISS_DST : Nat := 0x08014C
abbrev Reg.TUN_ECN_CE : Nat := 0x080150
abbrev Reg.TUN_ECN_NOTECT : Nat := 0x080154
def Reg.TUN_ETH_DEF_SRC (i : Nat) : Nat := 0x080400 + i * 0x8
def Reg.TUN_ETH_DEF_DST (i : Nat) : Nat := 0x080404 + i * 0x8

/-! Addresses of the CAV block. -/
abbrev Reg.CAV_CFG : Nat := 0x0A0000
abbrev Reg.CAV_STATUS : Nat := 0x0A0004
abbrev Reg.CAV_POOL : Nat := 0x0A0008
abbrev Reg.CAV_POOL_SIZE : Nat := 0x0A000C
abbrev Reg.CAV_CUT_EN : Nat := 0x0A0010
abbrev Reg.CAV_RETURN_AHEAD : Nat := 0x0A0014
def Reg.CAV_CRED_RES (i : Nat) : Nat := 0x0A0020 + i * 0x4
def Reg.CAV_CRED_RES_L (i : Nat) : Nat := 0x0A0040 + i * 0x4
def Reg.CAV_Q_MIN (i : Nat) : Nat := 0x0A1000 + i * 0x20
def Reg.CAV_Q_MARK (i : Nat) : Nat := 0x0A1004 + i * 0x20
def Reg.CAV_Q_SPILL (i : Nat) : Nat := 0x0A1008 + i * 0x20
def Reg.CAV_Q_DROP (i : Nat) : Nat := 0x0A100C + i * 0x20
def Reg.CAV_Q_OCC (i : Nat) : Nat := 0x0A1010 + i * 0x20
def Reg.CAV_Q_SUMP (i : Nat) : Nat := 0x0A1014 + i * 0x20
def Reg.CAV_Q_STATUS (i : Nat) : Nat := 0x0A1018 + i * 0x20
def Reg.CAV_Q_DROP_CNT (i : Nat) : Nat := 0x0A3000 + i * 0x20
def Reg.CAV_Q_DOWN_CNT (i : Nat) : Nat := 0x0A3004 + i * 0x20
def Reg.CAV_Q_MARK_CNT_LO (i : Nat) : Nat := 0x0A3008 + i * 0x20
def Reg.CAV_Q_MARK_CNT_HI (i : Nat) : Nat := 0x0A300C + i * 0x20
def Reg.CAV_Q_SPILL_CNT_LO (i : Nat) : Nat := 0x0A3010 + i * 0x20
def Reg.CAV_Q_SPILL_CNT_HI (i : Nat) : Nat := 0x0A3014 + i * 0x20
def Reg.CAV_GRP_MAP (i : Nat) : Nat := 0x0A6000 + i * 0x4
abbrev Reg.CAV_POOL_DROP : Nat := 0x0AA000
abbrev Reg.CAV_CUT_ABORT : Nat := 0x0AA004
abbrev Reg.CAV_FENCE_DISC : Nat := 0x0AA008
abbrev Reg.CAV_UE_DISC : Nat := 0x0AA00C
abbrev Reg.CAV_GRP_EMPTY : Nat := 0x0AA010
abbrev Reg.CAV_SCRUB_PASSES : Nat := 0x0AA014
abbrev Reg.CAV_CUT_LO : Nat := 0x0AA018
abbrev Reg.CAV_CUT_HI : Nat := 0x0AA01C
def Reg.CAV_CH_CE (i : Nat) : Nat := 0x0AA100 + i * 0x8
def Reg.CAV_CH_UE (i : Nat) : Nat := 0x0AA104 + i * 0x8

/-! Addresses of the SUMP block. -/
abbrev Reg.SUMP_CFG : Nat := 0x0B0000
abbrev Reg.SUMP_GEOM : Nat := 0x0B0004
abbrev Reg.SUMP_TRAIN : Nat := 0x0B0008
abbrev Reg.SUMP_STATUS : Nat := 0x0B000C
abbrev Reg.SUMP_SPILL_SIZE : Nat := 0x0B0010
abbrev Reg.SUMP_SPILL_USED : Nat := 0x0B0014
abbrev Reg.SUMP_PATROL_POS : Nat := 0x0B0018
abbrev Reg.SUMP_UE_ADDR_LO : Nat := 0x0B0020
abbrev Reg.SUMP_UE_ADDR_HI : Nat := 0x0B0024
abbrev Reg.SUMP_UE_POP : Nat := 0x0B0028
abbrev Reg.SUMP_CE : Nat := 0x0B0100
abbrev Reg.SUMP_UE : Nat := 0x0B0104
abbrev Reg.SUMP_UE_DISC : Nat := 0x0B0108
abbrev Reg.SUMP_UE_OVF : Nat := 0x0B010C
abbrev Reg.SUMP_SPILL_DEFER : Nat := 0x0B0110
abbrev Reg.SUMP_PATROL_PASSES : Nat := 0x0B0114
abbrev Reg.SUMP_SPILL_FR_LO : Nat := 0x0B0118
abbrev Reg.SUMP_SPILL_FR_HI : Nat := 0x0B011C
abbrev Reg.SUMP_RETURN_FR_LO : Nat := 0x0B0120
abbrev Reg.SUMP_RETURN_FR_HI : Nat := 0x0B0124

/-! Addresses of the SCHED block. -/
abbrev Reg.SCHED_CFG : Nat := 0x0C0000
abbrev Reg.SCHED_STATUS : Nat := 0x0C0004
abbrev Reg.SCHED_OVERSIZE : Nat := 0x0C0010
abbrev Reg.SCHED_PLANS : Nat := 0x0C0014
abbrev Reg.SCHED_PLAN_BEAT_LO : Nat := 0x0C0018
abbrev Reg.SCHED_PLAN_BEAT_HI : Nat := 0x0C001C
abbrev Reg.SCHED_PLAN_FAIL : Nat := 0x0C0020
abbrev Reg.SCHED_PLAN_REJECT : Nat := 0x0C0024
def Reg.SCHED_GL_CFG (i : Nat) : Nat := 0x0C0100 + i * 0x40
def Reg.SCHED_GL_CFG_ACT (i : Nat) : Nat := 0x0C0104 + i * 0x40
def Reg.SCHED_GL_ANCHOR_LO (i : Nat) : Nat := 0x0C0108 + i * 0x40
def Reg.SCHED_GL_ANCHOR_HI (i : Nat) : Nat := 0x0C010C + i * 0x40
def Reg.SCHED_GL_POS (i : Nat) : Nat := 0x0C0110 + i * 0x40
def Reg.SCHED_GATE_NOW (i : Nat) : Nat := 0x0C0114 + i * 0x40
def Reg.SCHED_PORT_CAP (i : Nat) : Nat := 0x0C0118 + i * 0x40
def Reg.SCHED_QUANTUM (i j : Nat) : Nat := 0x0C0120 + i * 0x40 + j * 0x4
def Reg.SCHED_CIR (i j : Nat) : Nat := 0x0C1000 + i * 0x100 + j * 0x20
def Reg.SCHED_CBS (i j : Nat) : Nat := 0x0C1004 + i * 0x100 + j * 0x20
def Reg.SCHED_PIR (i j : Nat) : Nat := 0x0C1008 + i * 0x100 + j * 0x20
def Reg.SCHED_PBS (i j : Nat) : Nat := 0x0C100C + i * 0x100 + j * 0x20
def Reg.SCHED_RESET_MODE (i j : Nat) : Nat := 0x0C1010 + i * 0x100 + j * 0x20
def Reg.SCHED_CTOK (i j : Nat) : Nat := 0x0C1014 + i * 0x100 + j * 0x20
def Reg.SCHED_PTOK (i j : Nat) : Nat := 0x0C1018 + i * 0x100 + j * 0x20
def Reg.SCHED_DEFICIT (i j : Nat) : Nat := 0x0C101C + i * 0x100 + j * 0x20
def Reg.SCHED_CIR_ACT (i j : Nat) : Nat := 0x0C3000 + i * 0x100 + j * 0x20
def Reg.SCHED_CBS_ACT (i j : Nat) : Nat := 0x0C3004 + i * 0x100 + j * 0x20
def Reg.SCHED_PIR_ACT (i j : Nat) : Nat := 0x0C3008 + i * 0x100 + j * 0x20
def Reg.SCHED_PBS_ACT (i j : Nat) : Nat := 0x0C300C + i * 0x100 + j * 0x20
def Reg.SCHED_RESET_MODE_ACT (i j : Nat) : Nat := 0x0C3010 + i * 0x100 + j * 0x20
def Reg.SCHED_GL_ENT (i j : Nat) : Nat := 0x0C6000 + i * 0x200 + j * 0x4
def Reg.SCHED_GL_ENT_ACT (i j : Nat) : Nat := 0x0C9000 + i * 0x200 + j * 0x4
def Reg.SCHED_TX_CMT_LO (i j : Nat) : Nat := 0x0CC000 + i * 0x80 + j * 0x10
def Reg.SCHED_TX_CMT_HI (i j : Nat) : Nat := 0x0CC004 + i * 0x80 + j * 0x10
def Reg.SCHED_TX_PK_LO (i j : Nat) : Nat := 0x0CC008 + i * 0x80 + j * 0x10
def Reg.SCHED_TX_PK_HI (i j : Nat) : Nat := 0x0CC00C + i * 0x80 + j * 0x10

/-! Addresses of the POL block. -/
abbrev Reg.POL_CFG : Nat := 0x0D0000
abbrev Reg.POL_PRF_SEL : Nat := 0x0D0010
abbrev Reg.POL_PRF_CIR : Nat := 0x0D0014
abbrev Reg.POL_PRF_CBS : Nat := 0x0D0018
abbrev Reg.POL_PRF_PIR : Nat := 0x0D001C
abbrev Reg.POL_PRF_PBS : Nat := 0x0D0020
abbrev Reg.POL_PRF_CIR_ACT : Nat := 0x0D0034
abbrev Reg.POL_PRF_CBS_ACT : Nat := 0x0D0038
abbrev Reg.POL_PRF_PIR_ACT : Nat := 0x0D003C
abbrev Reg.POL_PRF_PBS_ACT : Nat := 0x0D0040
def Reg.POL_CD_CIR (i : Nat) : Nat := 0x0D0100 + i * 0x20
def Reg.POL_CD_CBS (i : Nat) : Nat := 0x0D0104 + i * 0x20
def Reg.POL_CD_PIR (i : Nat) : Nat := 0x0D0108 + i * 0x20
def Reg.POL_CD_PBS (i : Nat) : Nat := 0x0D010C + i * 0x20
def Reg.POL_CD_CIR_ACT (i : Nat) : Nat := 0x0D0200 + i * 0x20
def Reg.POL_CD_CBS_ACT (i : Nat) : Nat := 0x0D0204 + i * 0x20
def Reg.POL_CD_PIR_ACT (i : Nat) : Nat := 0x0D0208 + i * 0x20
def Reg.POL_CD_PBS_ACT (i : Nat) : Nat := 0x0D020C + i * 0x20
def Reg.POL_YELLOW_LO (i : Nat) : Nat := 0x0D1000 + i * 0x10
def Reg.POL_YELLOW_HI (i : Nat) : Nat := 0x0D1004 + i * 0x10
def Reg.POL_RED_FIRST (i : Nat) : Nat := 0x0D1008 + i * 0x10
def Reg.POL_RED_TRANSIT (i : Nat) : Nat := 0x0D100C + i * 0x10

/-! Addresses of the DEP block. -/
abbrev Reg.DEP_CFG : Nat := 0x0E0000
abbrev Reg.DEP_STATUS : Nat := 0x0E0004
abbrev Reg.DEP_DRAIN : Nat := 0x0E0008
abbrev Reg.DEP_BOUND : Nat := 0x0E000C
abbrev Reg.DEP_ZOMBIE_LAST : Nat := 0x0E0010
abbrev Reg.DEP_TWIN_DUP_LO : Nat := 0x0E0100
abbrev Reg.DEP_TWIN_DUP_HI : Nat := 0x0E0104
abbrev Reg.DEP_TWIN_OLD : Nat := 0x0E0108
abbrev Reg.DEP_TWIN_REORDER : Nat := 0x0E010C
abbrev Reg.DEP_TWIN_SINGLE : Nat := 0x0E0110
abbrev Reg.DEP_TWIN_NOTRACK : Nat := 0x0E0114
abbrev Reg.DEP_DL_SET_LO : Nat := 0x0E0118
abbrev Reg.DEP_DL_SET_HI : Nat := 0x0E011C
abbrev Reg.DEP_DL_DROP : Nat := 0x0E0120
abbrev Reg.DEP_CRED_ERR : Nat := 0x0E0124
abbrev Reg.DEP_CRED_RESYNC : Nat := 0x0E0128
abbrev Reg.DEP_ZOMBIE_WR : Nat := 0x0E012C
abbrev Reg.DEP_KEY_STALE : Nat := 0x0E0130
abbrev Reg.DEP_DRAIN_EVENTS : Nat := 0x0E0134
def Reg.DEP_LATE (i : Nat) : Nat := 0x0E0140 + i * 0x4
abbrev Reg.DEP_BEATS_LO : Nat := 0x0E0150
abbrev Reg.DEP_BEATS_HI : Nat := 0x0E0154
abbrev Reg.DEP_MISS_BEATS : Nat := 0x0E0158

/-! Addresses of the ENG block. -/
abbrev Reg.ENG_CFG : Nat := 0x100000
abbrev Reg.ENG_AGENT_ROLE : Nat := 0x100010
abbrev Reg.ENG_CMD : Nat := 0x100020
abbrev Reg.ENG_CMD_RESULT : Nat := 0x100024
def Reg.ENG_ENGINE (i : Nat) : Nat := 0x100100 + i * 0x4
def Reg.ENG_ROLE (i : Nat) : Nat := 0x100200 + i * 0x8
def Reg.ENG_ROLE_BODY (i : Nat) : Nat := 0x100204 + i * 0x8
def Reg.ENG_OVERRUNS (i : Nat) : Nat := 0x100300 + i * 0x4
abbrev Reg.ENG_TAKEOVERS : Nat := 0x100380
abbrev Reg.ENG_HANG : Nat := 0x100384
abbrev Reg.ENG_INBOX_DROP : Nat := 0x100388
abbrev Reg.ENG_NO_TARGET : Nat := 0x10038C
abbrev Reg.ENG_ECC_UE : Nat := 0x100390
abbrev Reg.ENG_SELFTEST_FAIL : Nat := 0x100394
def Reg.ENG_EP_ROLE (i : Nat) : Nat := 0x100400 + i * 0x4

/-! Addresses of the COL block. -/
abbrev Reg.COL_CFG : Nat := 0x110000
abbrev Reg.COL_SUPER : Nat := 0x110004
def Reg.COL_STATUS (i : Nat) : Nat := 0x110010 + i * 0x4
def Reg.COL_MISMATCH (i : Nat) : Nat := 0x110100 + i * 0x4
def Reg.COL_OVERRUNS (i : Nat) : Nat := 0x110110 + i * 0x4
def Reg.COL_RESTARTS (i : Nat) : Nat := 0x110120 + i * 0x4
abbrev Reg.COL_PROMOTIONS : Nat := 0x110130
abbrev Reg.COL_HANDBACKS : Nat := 0x110134
abbrev Reg.COL_TREQ_W0 : Nat := 0x110200
abbrev Reg.COL_TREQ_W1 : Nat := 0x110204
abbrev Reg.COL_TREQ_W2 : Nat := 0x110208
abbrev Reg.COL_TREQ_CMD : Nat := 0x110210
abbrev Reg.COL_TREQ_RESULT : Nat := 0x110214

/-! Addresses of the MPU block. -/
abbrev Reg.MPU_CFG : Nat := 0x120000
abbrev Reg.MPU_STATUS : Nat := 0x120004
abbrev Reg.MPU_SYNC : Nat := 0x120008
abbrev Reg.MPU_FAULT_ADDR_LO : Nat := 0x120010
abbrev Reg.MPU_FAULT_INFO : Nat := 0x120014
abbrev Reg.MPU_FAULT_CAUSE : Nat := 0x120018
abbrev Reg.MPU_FAULT_POP : Nat := 0x12001C
abbrev Reg.MPU_FAULTS : Nat := 0x120020
abbrev Reg.MPU_FAULT_OVF : Nat := 0x120024
def Reg.MPU_RGN_START_LO (i : Nat) : Nat := 0x120100 + i * 0x20
def Reg.MPU_RGN_START_HI (i : Nat) : Nat := 0x120104 + i * 0x20
def Reg.MPU_RGN_END_LO (i : Nat) : Nat := 0x120108 + i * 0x20
def Reg.MPU_RGN_END_HI (i : Nat) : Nat := 0x12010C + i * 0x20
def Reg.MPU_RGN_ATTR (i : Nat) : Nat := 0x120110 + i * 0x20
def Reg.MPU_RGN_MASK (i : Nat) : Nat := 0x120114 + i * 0x20

/-! Addresses of the KEY block. -/
abbrev Reg.KEY_CFG : Nat := 0x130000
abbrev Reg.KEY_STATUS : Nat := 0x130004
abbrev Reg.KEY_TAMPER_CFG : Nat := 0x130008
abbrev Reg.KEY_TAMPER_LAST : Nat := 0x13000C
abbrev Reg.KEY_SLOT : Nat := 0x130010
abbrev Reg.KEY_ARG : Nat := 0x130014
abbrev Reg.KEY_ATTR_IN : Nat := 0x130018
abbrev Reg.KEY_LEN : Nat := 0x13001C
abbrev Reg.KEY_CMD : Nat := 0x130020
abbrev Reg.KEY_RESULT : Nat := 0x130024
abbrev Reg.KEY_INFO : Nat := 0x130028
abbrev Reg.KEY_ATTR_OUT : Nat := 0x13002C
abbrev Reg.KEY_ROOT_CMD : Nat := 0x130030
abbrev Reg.KEY_DBG_CHAL_LO : Nat := 0x130038
abbrev Reg.KEY_DBG_CHAL_HI : Nat := 0x13003C
def Reg.KEY_DATA (i : Nat) : Nat := 0x130100 + i * 0x4
abbrev Reg.KEY_REFUSED : Nat := 0x130200
abbrev Reg.KEY_CASCADES : Nat := 0x130204
abbrev Reg.KEY_CASCADE_SLOTS : Nat := 0x130208
abbrev Reg.KEY_TAMPER_COUNT : Nat := 0x13020C
abbrev Reg.KEY_RECOVER : Nat := 0x130210
abbrev Reg.KEY_DBG_FAIL : Nat := 0x130214

/-! Addresses of the SEC block. -/
abbrev Reg.SEC_REKEY : Nat := 0x140000
abbrev Reg.SEC_GCM_MAP : Nat := 0x140004
abbrev Reg.SEC_IMG : Nat := 0x140008
abbrev Reg.SEC_FUSE_CMD : Nat := 0x14000C
abbrev Reg.SEC_FUSE_RESULT : Nat := 0x140010
def Reg.SEC_FUSE_DATA (i : Nat) : Nat := 0x140040 + i * 0x4
def Reg.SEC_PORT_CFG (i : Nat) : Nat := 0x140100 + i * 0x40
def Reg.SEC_PORT_SA (i : Nat) : Nat := 0x140104 + i * 0x40
def Reg.SEC_PORT_STATUS (i : Nat) : Nat := 0x140108 + i * 0x40
def Reg.SEC_TX_CTR_LO (i : Nat) : Nat := 0x140110 + i * 0x40
def Reg.SEC_TX_CTR_HI (i : Nat) : Nat := 0x140114 + i * 0x40
def Reg.SEC_TAG_FAIL (i : Nat) : Nat := 0x140120 + i * 0x40
def Reg.SEC_SA_UNKNOWN (i : Nat) : Nat := 0x140124 + i * 0x40
def Reg.SEC_CLEAR_DROP (i : Nat) : Nat := 0x140128 + i * 0x40
def Reg.SEC_SYNC_BAD (i : Nat) : Nat := 0x14012C + i * 0x40
def Reg.SEC_REKEYS (i : Nat) : Nat := 0x140130 + i * 0x40
def Reg.SEC_KEY_BAD (i : Nat) : Nat := 0x140134 + i * 0x40

/-! Addresses of the BOOT block. -/
abbrev Reg.BOOT_STATUS : Nat := 0x150000
abbrev Reg.BOOT_REASON : Nat := 0x150004
def Reg.BOOT_GEN (i : Nat) : Nat := 0x150008 + i * 0x4
def Reg.BOOT_FAIL (i : Nat) : Nat := 0x150010 + i * 0x4
abbrev Reg.BOOT_TIME : Nat := 0x150018
abbrev Reg.BOOT_STRAPS_EFF : Nat := 0x15001C
abbrev Reg.BOOT_CFG : Nat := 0x150020
abbrev Reg.BOOT_CMD : Nat := 0x150024
abbrev Reg.BOOT_CMD_RESULT : Nat := 0x150028
abbrev Reg.BOOT_FL_ADDR : Nat := 0x150030
abbrev Reg.BOOT_FL_CMD : Nat := 0x150034
abbrev Reg.BOOT_FL_RESULT : Nat := 0x150038
abbrev Reg.BOOT_FL_INFO : Nat := 0x15003C
abbrev Reg.BOOT_STG_ADDR : Nat := 0x150050
abbrev Reg.BOOT_STG_DATA : Nat := 0x150054
def Reg.BOOT_ADM_DIGEST (i : Nat) : Nat := 0x150060 + i * 0x4
def Reg.BOOT_PAGE (i : Nat) : Nat := 0x150100 + i * 0x4
abbrev Reg.BOOT_RECOVERIES : Nat := 0x150200
abbrev Reg.BOOT_PRE_RUN_DROP : Nat := 0x150204
abbrev Reg.BOOT_SEED_SKIP : Nat := 0x150208
abbrev Reg.BOOT_FL_ERR : Nat := 0x15020C

/-! Addresses of the PWR block. -/
abbrev Reg.PWR_REQ : Nat := 0x160000
abbrev Reg.PWR_RESULT : Nat := 0x160004
abbrev Reg.PWR_STATE : Nat := 0x160008
abbrev Reg.PWR_CFG : Nat := 0x16000C
abbrev Reg.PWR_WAKE_EN : Nat := 0x160010
abbrev Reg.PWR_LATCH : Nat := 0x160014
abbrev Reg.PWR_WAKE_CAUSE : Nat := 0x160018
abbrev Reg.PWR_LAST_REFUSER : Nat := 0x16001C
abbrev Reg.PWR_LAST_ABANDON : Nat := 0x160020
abbrev Reg.PWR_ASK_BEAT_LO : Nat := 0x160024
abbrev Reg.PWR_ASK_BEAT_HI : Nat := 0x160028
abbrev Reg.PWR_ASK : Nat := 0x16002C
abbrev Reg.PWR_RTC_SEC : Nat := 0x160030
abbrev Reg.PWR_RTC_ALARM : Nat := 0x160034
abbrev Reg.PWR_STATUS : Nat := 0x160038
def Reg.PWR_REFUSE_COUNT (i : Nat) : Nat := 0x160100 + i * 0x4
abbrev Reg.PWR_ABANDON_COUNT : Nat := 0x160120
abbrev Reg.PWR_ROLLBACKS : Nat := 0x160124
abbrev Reg.PWR_ENTRY_DISC : Nat := 0x160128
abbrev Reg.PWR_ENTER_LAYOVER : Nat := 0x16012C
abbrev Reg.PWR_ENTER_DORMANT : Nat := 0x160130
abbrev Reg.PWR_WAKE_FAIL : Nat := 0x160134
abbrev Reg.PWR_PLL_FAIL : Nat := 0x160138
abbrev Reg.PWR_SAVE_DISCARD : Nat := 0x16013C
abbrev Reg.PWR_DRAIN_DROP : Nat := 0x160140

/-! Addresses of the AVS block. -/
abbrev Reg.AVS_CFG : Nat := 0x170000
abbrev Reg.AVS_CFG2 : Nat := 0x170004
abbrev Reg.AVS_STATUS : Nat := 0x170008
abbrev Reg.AVS_AGE : Nat := 0x17000C
abbrev Reg.AVS_MARGIN : Nat := 0x170010
abbrev Reg.AVS_PROC : Nat := 0x170014
abbrev Reg.AVS_TARGET : Nat := 0x170018
abbrev Reg.AVS_STEPS : Nat := 0x170100
abbrev Reg.AVS_NACK : Nat := 0x170104
abbrev Reg.AVS_RAISES : Nat := 0x170108

/-! Addresses of the USB block. -/
abbrev Reg.USB_CFG : Nat := 0x180000
abbrev Reg.USB_STATUS : Nat := 0x180004
abbrev Reg.USB_VID_PID : Nat := 0x180008
abbrev Reg.USB_MF_CFG : Nat := 0x18000C
abbrev Reg.USB_MF_SESSION : Nat := 0x180010
def Reg.USB_OC_EVENTS (i : Nat) : Nat := 0x180100 + i * 0x4
abbrev Reg.USB_CTL_RESET_ABORT : Nat := 0x180110
abbrev Reg.USB_RESUME_COLLIDE : Nat := 0x180114
abbrev Reg.USB_RWAKE : Nat := 0x180118
abbrev Reg.USB_SESSIONS : Nat := 0x18011C
abbrev Reg.USB_MF_REFUSED : Nat := 0x180120
abbrev Reg.USB_NYET : Nat := 0x180124
abbrev Reg.USB_MF_REQ_LO : Nat := 0x180128
abbrev Reg.USB_MF_REQ_HI : Nat := 0x18012C

/-! Addresses of the PD block. -/
abbrev Reg.PD_CFG : Nat := 0x190000
def Reg.PD_PORT_CFG (i : Nat) : Nat := 0x190100 + i * 0x80
def Reg.PD_PORT_STATUS (i : Nat) : Nat := 0x190104 + i * 0x80
def Reg.PD_VBUS (i : Nat) : Nat := 0x190108 + i * 0x80
def Reg.PD_CONTRACT (i : Nat) : Nat := 0x19010C + i * 0x80
def Reg.PD_SRC_PDO (i j : Nat) : Nat := 0x190110 + i * 0x80 + j * 0x4
def Reg.PD_HARD_RESET (i : Nat) : Nat := 0x190140 + i * 0x80
def Reg.PD_SOFT_RESET (i : Nat) : Nat := 0x190144 + i * 0x80
def Reg.PD_MSG_FAIL (i : Nat) : Nat := 0x190148 + i * 0x80
def Reg.PD_NOT_SUPP (i : Nat) : Nat := 0x19014C + i * 0x80
def Reg.PD_XITION_ABORT (i : Nat) : Nat := 0x190150 + i * 0x80
def Reg.PD_XITION_FAIL (i : Nat) : Nat := 0x190154 + i * 0x80
def Reg.PD_PRS (i : Nat) : Nat := 0x190158 + i * 0x80
def Reg.PD_PRS_REJECT (i : Nat) : Nat := 0x19015C + i * 0x80
def Reg.PD_PRS_ABORT (i : Nat) : Nat := 0x190160 + i * 0x80
def Reg.PD_OC (i : Nat) : Nat := 0x190164 + i * 0x80
def Reg.PD_DISCH_FAULT (i : Nat) : Nat := 0x190168 + i * 0x80

/-! Addresses of the MON block. -/
abbrev Reg.MON_CFG : Nat := 0x1A0000
abbrev Reg.MON_STATUS : Nat := 0x1A0004
def Reg.MON_READ (i : Nat) : Nat := 0x1A0100 + i * 0x4
def Reg.MON_TH (i : Nat) : Nat := 0x1A0400 + i * 0x4
abbrev Reg.MON_WARN_EVENTS : Nat := 0x1A0800
abbrev Reg.MON_CRIT_EVENTS : Nat := 0x1A0804
abbrev Reg.MON_CUTOFFS : Nat := 0x1A0808

/-! Addresses of the CNT block. -/
abbrev Reg.CNT_SNAP_CMD : Nat := 0x1B0000
abbrev Reg.CNT_SNAP_STATUS : Nat := 0x1B0004
abbrev Reg.CNT_SNAP_BEAT_LO : Nat := 0x1B0008
abbrev Reg.CNT_SNAP_BEAT_HI : Nat := 0x1B000C
abbrev Reg.CNT_SNAP_REFUSED : Nat := 0x1B0010

/-! Addresses of the LOG block. -/
abbrev Reg.LOG_STATUS : Nat := 0x1C0000
abbrev Reg.LOG_SEQ : Nat := 0x1C0004
abbrev Reg.LOG_RD_ADDR : Nat := 0x1C0008
def Reg.LOG_RD (i : Nat) : Nat := 0x1C0010 + i * 0x4
abbrev Reg.LOG_PUT0 : Nat := 0x1C0040
def Reg.LOG_PUT1 (i : Nat) : Nat := 0x1C0044 + i * 0x4
abbrev Reg.LOG_PUT_CMD : Nat := 0x1C0050
abbrev Reg.LOG_RECORDS : Nat := 0x1C0100
abbrev Reg.LOG_LOST : Nat := 0x1C0104

/-- The registers of block GLB. -/
def rowsGlb : List RegRow := [
  rowPm 0x000020 [] [(.cmd, 0xFFFFFFFF)] 0,
  row 0x000024 [] [(.cnt, 0xFFFFFFFF)] 0,
  row 0x000028 [] [(.cnt, 0xFFFFFFFF)] 0,
  row 0x00002C [] [(.cnt, 0xFFFFFFFF)] 0,
  row 0x000030 [] [(.sta, 0xFFFFFFFF)] 0,
  row 0x000034 [] [(.sta, 0xFFFFFFFF)] 0,
  row 0x000000 [] [(.sta, 0xFFFFFFFF)] (if Config.b0 then 0x01B00980 else 0x01A10980),
  row 0x000004 [] [(.sta, 0xFFFFFFFF)] 0,
  row 0x000008 [] [(.sta, 0xFFFFFFFF)] (if Config.b0 then 0x1110 else 0x10),
  row 0x00000C [] [(.sta, 0xFFFFFFFF)] 0,
  row 0x000010 [] [(.sta, 0xFFFFFFFF)] 0,
  row 0x000040 [] [(.ctl, 0x1FFF)] 0,
  row 0x000044 [] [(.ctl, 0x1FFF)] 0,
  row 0x000048 [] [(.sta, 0xFFFFFFFF)] 0,
  row 0x000050 [] [(.sta, 0xFFFFFFFF)] 0 ]

/-- The registers of block BEAT. -/
def rowsBeat : List RegRow := [
  row 0x010000 [] [(.sta, 0xFFFFFFFF)] 0,
  row 0x010004 [] [(.sta, 0xFFFFFFFF)] 0,
  row 0x010008 [] [(.sta, 0xFFFFFFFF)] 0,
  row 0x01000C [] [(.sta, 0xFFFFFFFF)] 0x38,
  row 0x010010 [] [(.ctl, 0x1), (.sta, 0x3F0)] 0x30,
  row 0x010014 [] [(.sta, 0xFFFFFFFF)] 0,
  row 0x010018 [] [(.sta, 0xFFFFFFFF)] 0,
  row 0x010020 [(4, 0x4)] [(.sta, 0xFFFFF)] 0,
  row 0x010030 [] [(.sta, 0xFFFFFFFF)] 0,
  row 0x010034 [] [(.sta, 0xFFFF)] 0,
  row 0x010038 [] [(.sta, 0xFFFFFFFF)] 0,
  row 0x01003C [] [(.sta, 0xFFFF)] 0,
  rowPm 0x010040 [] [(.ctl, 0xFFFFFFFF)] 0,
  rowPm 0x010044 [] [(.ctl, 0xFFFF)] 0,
  row 0x010048 [] [(.cmd, 0x800003FF)] 0,
  rowPm 0x01004C [] [(.sta, 0xFFFFFFFF)] 0,
  row 0x010050 [] [(.sta, 0xFFFFFFFF)] 0,
  row 0x010060 [] [(.cnt, 0xFFFFFFFF)] 0,
  row 0x010064 [] [(.cnt, 0xFFFFFFFF)] 0,
  row 0x010068 [] [(.cnt, 0xFFFFFFFF)] 0,
  row 0x01006C [] [(.cnt, 0xFFFFFFFF)] 0 ]

/-- The registers of block LANE. -/
def rowsLane : List RegRow := [
  row 0x020000 [(16, 0x400)] [(.shd, 0x7F)] 0x2C,
  row 0x024000 [(16, 0x400)] [(.shd, 0x7F)] 0x2D,
  row 0x020004 [(16, 0x400)] [(.sta, 0x7F)] 0x2C,
  row 0x024004 [(16, 0x400)] [(.sta, 0x7F)] 0x2D,
  row 0x020008 [(32, 0x400)] [(.sta, 0xFFFFFFFF)] 0x7FF800,
  row 0x02000C [(32, 0x400)] [(.sta, 0x3FFF)] 0,
  row 0x020010 [(32, 0x400)] [(.sta, 0x3FFFF)] 0,
  row 0x020014 [(32, 0x400)] [(.sta, 0xFFFF)] 0x8000,
  row 0x020018 [(32, 0x400)] [(.ctl, 0x1F), (.sta, 0x60)] 0,
  row 0x02001C [(32, 0x400)] [(.ctl, 0xF)] 0,
  row 0x020040 [(32, 0x400)] [(.cnt, 0xFFFFFFFF)] 0,
  row 0x020044 [(32, 0x400)] [(.cnt, 0xFFFFFFFF)] 0,
  row 0x020048 [(32, 0x400)] [(.cnt, 0xFFFFFFFF)] 0,
  row 0x02004C [(32, 0x400)] [(.cnt, 0xFFFFFFFF)] 0,
  row 0x020050 [(32, 0x400)] [(.cnt, 0xFFFFFFFF)] 0,
  row 0x020054 [(32, 0x400)] [(.cnt, 0xFFFFFFFF)] 0,
  row 0x020058 [(32, 0x400)] [(.cnt, 0xFFFFFFFF)] 0,
  row 0x02005C [(32, 0x400)] [(.cnt, 0xFFFFFFFF)] 0,
  row 0x020060 [(32, 0x400)] [(.cnt, 0xFFFFFFFF)] 0,
  row 0x028000 [] [(.ctl, 0x1)] 0x1,
  row 0x028004 [] [(.grd, 0xFFFFFFFF)] 0 ]

/-- The registers of block TRK. -/
def rowsTrk : List RegRow := [
  row 0x040000 [(4, 0x400)] [(.ctl, 0x7FF)] 0x23,
  row 0x040004 [(4, 0x400)] [(.sta, 0xFFFFFFFF)] 0,
  row 0x040008 [(4, 0x400)] [(.sta, 0xFFFFFFFF)] 0,
  row 0x04000C [(4, 0x400)] [(.sta, 0xFFFFFFFF)] 0,
  row 0x040010 [(4, 0x400)] [(.sta, 0xFFFFFFFF)] 0,
  row 0x040014 [(4, 0x400)] [(.sta, 0xFFFFFFFF)] 0,
  row 0x040040 [(4, 0x400)] [(.cnt, 0xFFFFFFFF)] 0,
  row 0x040044 [(4, 0x400)] [(.cnt, 0xFFFFFFFF)] 0,
  row 0x040048 [(4, 0x400)] [(.cnt, 0xFFFFFFFF)] 0,
  row 0x04004C [(4, 0x400)] [(.cnt, 0xFFFFFFFF)] 0,
  row 0x040050 [(4, 0x400)] [(.cnt, 0xFFFFFFFF)] 0,
  row 0x040054 [(4, 0x400)] [(.cnt, 0xFFFFFFFF)] 0,
  row 0x040058 [(4, 0x400)] [(.cnt, 0xFFFFFFFF)] 0,
  row 0x04005C [(4, 0x400)] [(.cnt, 0xFFFFFFFF)] 0,
  row 0x040060 [(4, 0x400)] [(.cnt, 0xFFFFFFFF)] 0,
  row 0x040064 [(4, 0x400)] [(.cnt, 0xFFFFFFFF)] 0,
  row 0x040068 [(4, 0x400)] [(.cnt, 0xFFFFFFFF)] 0,
  row 0x04006C [(4, 0x400)] [(.cnt, 0xFFFFFFFF)] 0,
  row 0x040070 [(4, 0x400)] [(.cnt, 0xFFFFFFFF)] 0,
  row 0x041000 [] [(.ctl, 0x1FFF)] 0x40 ]

/-- The registers of block LOC. -/
def rowsLoc : List RegRow := [
  row 0x050000 [] [(.ctl, 0xF), (.sta, 0x1F0)] 0,
  row 0x050100 [(16, 0x100)] [(.ctl, 0x3FFF7)] 0,
  row 0x050104 [(16, 0x100)] [(.sta, 0xFFFFFFFF)] 0,
  row 0x050110 [(16, 0x100)] [(.cnt, 0xFFFFFFFF)] 0,
  row 0x050114 [(16, 0x100)] [(.cnt, 0xFFFF)] 0,
  row 0x050118 [(16, 0x100)] [(.cnt, 0xFFFFFFFF)] 0,
  row 0x05011C [(16, 0x100)] [(.cnt, 0xFFFF)] 0,
  row 0x050120 [(16, 0x100)] [(.cnt, 0xFFFFFFFF)] 0,
  row 0x050124 [(16, 0x100)] [(.cnt, 0xFFFF)] 0,
  row 0x050128 [(16, 0x100)] [(.cnt, 0xFFFFFFFF)] 0,
  row 0x05012C [(16, 0x100)] [(.cnt, 0xFFFF)] 0,
  row 0x050130 [(16, 0x100)] [(.cnt, 0xFFFFFFFF)] 0,
  row 0x050134 [(16, 0x100)] [(.cnt, 0xFFFFFFFF)] 0,
  row 0x050138 [(16, 0x100)] [(.cnt, 0xFFFFFFFF)] 0,
  row 0x05013C [(16, 0x100)] [(.cnt, 0xFFFFFFFF)] 0,
  row 0x050140 [(16, 0x100)] [(.cnt, 0xFFFFFFFF)] 0,
  row 0x050144 [(16, 0x100)] [(.cnt, 0xFFFFFFFF)] 0 ]

/-- The registers of block TOPO. -/
def rowsTopo : List RegRow := [
  row 0x060000 [] [(.ctl, 0xFFFFFFF)] 0x7804000,
  row 0x060004 [] [(.sta, 0xFFFFFFFF)] 0x8008000,
  row 0x060008 [] [(.sta, 0xFFFFFFFF)] (Sys2Proof.Config.hubId.toNat % 2 ^ 32),
  row 0x06000C [] [(.sta, 0xFFFFFFFF)] (Sys2Proof.Config.hubId.toNat / 2 ^ 32),
  row 0x060010 [] [(.sta, 0xFFFFFFFF)] 0,
  row 0x060014 [] [(.sta, 0xFFFF)] 0,
  row 0x060018 [] [(.sta, 0xFFFFFFFF)] 0,
  row 0x06001C [] [(.sta, 0xFFFF)] 0,
  row 0x060020 [] [(.sta, 0xFFFFFFFF)] 0,
  row 0x060030 [] [(.ctl, 0x7F)] 0,
  row 0x060034 [] [(.sta, 0xFFFFFFFF)] 0,
  row 0x060038 [] [(.sta, 0xFFFFFFFF)] 0,
  row 0x06003C [] [(.sta, 0xFFFFFFFF)] 0,
  row 0x060040 [] [(.sta, 0xFFFFFFFF)] 0,
  row 0x060080 [] [(.cnt, 0xFFFFFFFF)] 0,
  row 0x060084 [] [(.cnt, 0xFFFFFFFF)] 0,
  row 0x060088 [] [(.cnt, 0xFFFFFFFF)] 0,
  row 0x06008C [] [(.cnt, 0xFFFFFFFF)] 0,
  row 0x060090 [] [(.cnt, 0xFFFFFFFF)] 0,
  row 0x060094 [] [(.cnt, 0xFFFFFFFF)] 0,
  row 0x060098 [] [(.cnt, 0xFFFFFFFF)] 0,
  row 0x06009C [] [(.cnt, 0xFFFFFFFF)] 0 ]

/-- The registers of block TUN. -/
def rowsTun : List RegRow := [
  row 0x080000 [] [(.ctl, 0x3F)] 0x28,
  row 0x080004 [] [(.sta, 0xFFFFFFFF)] 0,
  row 0x080008 [] [(.sta, 0xFFFFFFFF)] 0,
  rowPm 0x080010 [(16, 0x4)] [(.ctl, 0xFFFFFFFF)] 0,
  rowPm 0x080050 [] [(.ctl, 0x1FFFFFF)] 0,
  row 0x080054 [] [(.cmd, 0x8000000F)] 0,
  rowPm 0x080058 [] [(.sta, 0xFFFFFFFF)] 0,
  rowPm 0x080060 [] [(.ctl, 0xFFFFFFFF)] 0,
  rowPm 0x080064 [] [(.ctl, 0xFFFFFFFF)] 0,
  rowPm 0x080068 [] [(.ctl, 0xFFFFFFF)] 0,
  row 0x08006C [] [(.cmd, 0x80000003)] 0,
  rowPm 0x080070 [] [(.sta, 0xFFFFFFFF)] 0,
  row 0x080080 [] [(.ctl, 0x7F)] 0,
  row 0x080084 [] [(.sta, 0xFFFFFFFF)] 0,
  row 0x080100 [] [(.cnt, 0xFFFFFFFF)] 0,
  row 0x080104 [] [(.cnt, 0xFFFFFFFF)] 0,
  row 0x080108 [] [(.cnt, 0xFFFFFFFF)] 0,
  row 0x08010C [] [(.cnt, 0xFFFFFFFF)] 0,
  row 0x080110 [] [(.cnt, 0xFFFFFFFF)] 0,
  row 0x080114 [] [(.cnt, 0xFFFFFFFF)] 0,
  row 0x080118 [] [(.cnt, 0xFFFFFFFF)] 0,
  row 0x08011C [] [(.cnt, 0xFFFFFFFF)] 0,
  row 0x080120 [] [(.cnt, 0xFFFFFFFF)] 0,
  row 0x080124 [] [(.cnt, 0xFFFFFFFF)] 0,
  row 0x080128 [] [(.cnt, 0xFFFFFFFF)] 0,
  row 0x08012C [] [(.cnt, 0xFFFFFFFF)] 0,
  row 0x080130 [] [(.cnt, 0xFFFFFFFF)] 0,
  row 0x080134 [] [(.cnt, 0xFFFFFFFF)] 0,
  row 0x080138 [] [(.cnt, 0xFFFFFFFF)] 0,
  row 0x08013C [] [(.cnt, 0xFFFFFFFF)] 0,
  row 0x080140 [] [(.cnt, 0xFFFFFFFF)] 0,
  row 0x080144 [] [(.cnt, 0xFFFFFFFF)] 0,
  row 0x080148 [] [(.cnt, 0xFFFFFFFF)] 0,
  row 0x08014C [] [(.cnt, 0xFFFFFFFF)] 0,
  row 0x080150 [] [(.cnt, 0xFFFFFFFF)] 0,
  row 0x080154 [] [(.cnt, 0xFFFFFFFF)] 0,
  row 0x080400 [(16, 0x8)] [(.ctl, 0xFFFFFFF)] 0,
  row 0x080404 [(16, 0x8)] [(.ctl, 0x1FFFFFF)] 0 ]

/-- The registers of block CAV. -/
def rowsCav : List RegRow := [
  row 0x0A0000 [] [(.ctl, 0xFF1)] 0x41,
  row 0x0A0004 [] [(.sta, 0xFFFFFFFF)] 0,
  row 0x0A0008 [] [(.sta, 0xFFFFFFFF)] 0,
  row 0x0A000C [] [(.sta, 0xFFFFFFFF)] 0,
  row 0x0A0010 [] [(.ctl, 0xFFFF)] 0,
  row 0x0A0014 [] [(.ctl, 0xFFF)] 0x100,
  row 0x0A0020 [(4, 0x4)] [(.ctl, 0xFFFFF)] 0x28040,
  row 0x0A0040 [(16, 0x4)] [(.ctl, 0xFFF)] 0x25,
  row 0x0A1000 [(21, 0x100), (8, 0x20)] [(.ctl, 0xFFF)] 0x10,
  row 0x0A1004 [(21, 0x100), (4, 0x20)] [(.ctl, 0xFFFFFF)] 0x400,
  row 0x0A1084 [(21, 0x100), (1, 0x20)] [(.ctl, 0xFFFFFF)] 0x100,
  row 0x0A10A4 [(21, 0x100), (1, 0x20)] [(.ctl, 0xFFFFFF)] 0x800,
  row 0x0A10C4 [(21, 0x100), (2, 0x20)] [(.ctl, 0xFFFFFF)] 0x100,
  row 0x0A1008 [(21, 0x100), (4, 0x20)] [(.ctl, 0xFFFFFF)] 0x800,
  row 0x0A1088 [(21, 0x100), (4, 0x20)] [(.ctl, 0xFFFFFF)] 0xFFFFFF,
  row 0x0A100C [(21, 0x100), (4, 0x20)] [(.ctl, 0xFFFFFF)] 0x1000,
  row 0x0A108C [(21, 0x100), (1, 0x20)] [(.ctl, 0xFFFFFF)] 0x400,
  row 0x0A10AC [(21, 0x100), (1, 0x20)] [(.ctl, 0xFFFFFF)] 0x1000,
  row 0x0A10CC [(21, 0x100), (2, 0x20)] [(.ctl, 0xFFFFFF)] 0x200,
  row 0x0A1010 [(21, 0x100), (8, 0x20)] [(.sta, 0xFFFFFFFF)] 0,
  row 0x0A1014 [(21, 0x100), (8, 0x20)] [(.sta, 0xFFFFFFFF)] 0,
  row 0x0A1018 [(21, 0x100), (8, 0x20)] [(.sta, 0xFFFFFFFF)] 0,
  row 0x0A3000 [(21, 0x100), (8, 0x20)] [(.cnt, 0xFFFFFFFF)] 0,
  row 0x0A3004 [(21, 0x100), (8, 0x20)] [(.cnt, 0xFFFFFFFF)] 0,
  row 0x0A3008 [(21, 0x100), (8, 0x20)] [(.cnt, 0xFFFFFFFF)] 0,
  row 0x0A300C [(21, 0x100), (8, 0x20)] [(.cnt, 0xFFFF)] 0,
  row 0x0A3010 [(21, 0x100), (8, 0x20)] [(.cnt, 0xFFFFFFFF)] 0,
  row 0x0A3014 [(21, 0x100), (8, 0x20)] [(.cnt, 0xFFFF)] 0,
  row 0x0A6000 [(4096, 0x4)] [(.ctl, 0x1FFFFF)] 0,
  row 0x0AA000 [] [(.cnt, 0xFFFFFFFF)] 0,
  row 0x0AA004 [] [(.cnt, 0xFFFFFFFF)] 0,
  row 0x0AA008 [] [(.cnt, 0xFFFFFFFF)] 0,
  row 0x0AA00C [] [(.cnt, 0xFFFFFFFF)] 0,
  row 0x0AA010 [] [(.cnt, 0xFFFFFFFF)] 0,
  row 0x0AA014 [] [(.cnt, 0xFFFFFFFF)] 0,
  row 0x0AA018 [] [(.cnt, 0xFFFFFFFF)] 0,
  row 0x0AA01C [] [(.cnt, 0xFFFF)] 0,
  row 0x0AA100 [(17, 0x8)] [(.cnt, 0xFFFFFFFF)] 0,
  row 0x0AA104 [(17, 0x8)] [(.cnt, 0xFFFFFFFF)] 0 ]

/-- The registers of block SUMP. -/
def rowsSump : List RegRow := [
  row 0x0B0000 [] [(.ctl, 0x3)] 0x2,
  row 0x0B0004 [] [(.ctl, 0x1F)] 0,
  row 0x0B0008 [] [(.go, 0x1)] 0,
  row 0x0B000C [] [(.sta, 0xFFFFFFFF)] 0,
  row 0x0B0010 [] [(.sta, 0xFFFFFFFF)] 0,
  row 0x0B0014 [] [(.sta, 0xFFFFFFFF)] 0,
  row 0x0B0018 [] [(.sta, 0xFFFFFFFF)] 0,
  row 0x0B0020 [] [(.sta, 0xFFFFFFFF)] 0,
  row 0x0B0024 [] [(.sta, 0xFFFFFFFF)] 0,
  row 0x0B0028 [] [(.pop, 0xFFFFFFFF)] 0,
  row 0x0B0100 [] [(.cnt, 0xFFFFFFFF)] 0,
  row 0x0B0104 [] [(.cnt, 0xFFFFFFFF)] 0,
  row 0x0B0108 [] [(.cnt, 0xFFFFFFFF)] 0,
  row 0x0B010C [] [(.cnt, 0xFFFFFFFF)] 0,
  row 0x0B0110 [] [(.cnt, 0xFFFFFFFF)] 0,
  row 0x0B0114 [] [(.cnt, 0xFFFFFFFF)] 0,
  row 0x0B0118 [] [(.cnt, 0xFFFFFFFF)] 0,
  row 0x0B011C [] [(.cnt, 0xFFFF)] 0,
  row 0x0B0120 [] [(.cnt, 0xFFFFFFFF)] 0,
  row 0x0B0124 [] [(.cnt, 0xFFFF)] 0 ]

/-- The registers of block SCHED. -/
def rowsSched : List RegRow := [
  row 0x0C0000 [] [(.ctl, 0xFFFF)] 0x2010,
  row 0x0C0004 [] [(.sta, 0xFFFFFFFF)] 0,
  row 0x0C0010 [] [(.cnt, 0xFFFFFFFF)] 0,
  row 0x0C0014 [] [(.cnt, 0xFFFFFFFF)] 0,
  row 0x0C0018 [] [(.sta, 0xFFFFFFFF)] 0,
  row 0x0C001C [] [(.sta, 0xFFFF)] 0,
  row 0x0C0020 [] [(.cnt, 0xFFFFFFFF)] 0,
  row 0x0C0024 [] [(.cnt, 0xFFFFFFFF)] 0,
  row 0x0C0100 [(21, 0x40)] [(.shd, 0x7FFF)] 0x101,
  row 0x0C0104 [(21, 0x40)] [(.sta, 0x7FFF)] 0x101,
  row 0x0C0108 [(21, 0x40)] [(.sta, 0xFFFFFFFF)] 0,
  row 0x0C010C [(21, 0x40)] [(.sta, 0xFFFF)] 0,
  row 0x0C0110 [(21, 0x40)] [(.sta, 0xFFFFFFFF)] 0,
  row 0x0C0114 [(21, 0x40)] [(.sta, 0xFFFFFFFF)] 0xFF,
  row 0x0C0118 [(21, 0x40)] [(.sta, 0xFFFFFFFF)] 0,
  row 0x0C0120 [(21, 0x40), (8, 0x4)] [(.ctl, 0xFFFF)] 0x2424,
  row 0x0C1000 [(21, 0x100), (8, 0x20)] [(.shd, 0xFFFFFFFF)] 0xFFFFFFFF,
  row 0x0C1004 [(21, 0x100), (8, 0x20)] [(.shd, 0xFFFFFF)] 0xFFFFFF,
  row 0x0C1008 [(21, 0x100), (8, 0x20)] [(.shd, 0xFFFFFFFF)] 0xFFFFFFFF,
  row 0x0C100C [(21, 0x100), (8, 0x20)] [(.shd, 0xFFFFFF)] 0xFFFFFF,
  row 0x0C1010 [(21, 0x100), (8, 0x20)] [(.shd, 0x1)] 0,
  row 0x0C1014 [(21, 0x100), (8, 0x20)] [(.sta, 0xFFFFFFFF)] 0xFFFFFF00,
  row 0x0C1018 [(21, 0x100), (8, 0x20)] [(.sta, 0xFFFFFFFF)] 0xFFFFFF00,
  row 0x0C101C [(21, 0x100), (8, 0x20)] [(.sta, 0xFFFFFFFF)] 0,
  row 0x0C3000 [(21, 0x100), (8, 0x20)] [(.sta, 0xFFFFFFFF)] 0xFFFFFFFF,
  row 0x0C3004 [(21, 0x100), (8, 0x20)] [(.sta, 0xFFFFFFFF)] 0xFFFFFF,
  row 0x0C3008 [(21, 0x100), (8, 0x20)] [(.sta, 0xFFFFFFFF)] 0xFFFFFFFF,
  row 0x0C300C [(21, 0x100), (8, 0x20)] [(.sta, 0xFFFFFFFF)] 0xFFFFFF,
  row 0x0C3010 [(21, 0x100), (8, 0x20)] [(.sta, 0xFFFFFFFF)] 0,
  row 0x0C6000 [(21, 0x200)] [(.shd, 0xFFFFFF)] 0x186AFF,
  row 0x0C6004 [(21, 0x200), (127, 0x4)] [(.shd, 0xFFFFFF)] 0,
  row 0x0C9000 [(21, 0x200)] [(.sta, 0xFFFFFF)] 0x186AFF,
  row 0x0C9004 [(21, 0x200), (127, 0x4)] [(.sta, 0xFFFFFF)] 0,
  row 0x0CC000 [(21, 0x80), (8, 0x10)] [(.cnt, 0xFFFFFFFF)] 0,
  row 0x0CC004 [(21, 0x80), (8, 0x10)] [(.cnt, 0xFFFF)] 0,
  row 0x0CC008 [(21, 0x80), (8, 0x10)] [(.cnt, 0xFFFFFFFF)] 0,
  row 0x0CC00C [(21, 0x80), (8, 0x10)] [(.cnt, 0xFFFF)] 0 ]

/-- The registers of block POL. -/
def rowsPol : List RegRow := [
  row 0x0D0000 [] [(.ctl, 0x1)] 0x1,
  rowPm 0x0D0010 [] [(.ctl, 0xFFF)] 0,
  row 0x0D0014 [] [(.shd, 0xFFFFFFFF)] 0,
  row 0x0D0018 [] [(.shd, 0xFFFFFF)] 0,
  row 0x0D001C [] [(.shd, 0xFFFFFFFF)] 0,
  row 0x0D0020 [] [(.shd, 0xFFFFFF)] 0,
  row 0x0D0034 [] [(.sta, 0xFFFFFFFF)] 0,
  row 0x0D0038 [] [(.sta, 0xFFFFFFFF)] 0,
  row 0x0D003C [] [(.sta, 0xFFFFFFFF)] 0,
  row 0x0D0040 [] [(.sta, 0xFFFFFFFF)] 0,
  row 0x0D0100 [(8, 0x20)] [(.shd, 0xFFFFFFFF)] 0xFFFFFFFF,
  row 0x0D0104 [(8, 0x20)] [(.shd, 0xFFFFFF)] 0xFFFFFF,
  row 0x0D0108 [(8, 0x20)] [(.shd, 0xFFFFFFFF)] 0xFFFFFFFF,
  row 0x0D010C [(8, 0x20)] [(.shd, 0xFFFFFF)] 0xFFFFFF,
  row 0x0D0200 [(8, 0x20)] [(.sta, 0xFFFFFFFF)] 0xFFFFFFFF,
  row 0x0D0204 [(8, 0x20)] [(.sta, 0xFFFFFF)] 0xFFFFFF,
  row 0x0D0208 [(8, 0x20)] [(.sta, 0xFFFFFFFF)] 0xFFFFFFFF,
  row 0x0D020C [(8, 0x20)] [(.sta, 0xFFFFFF)] 0xFFFFFF,
  row 0x0D1000 [(8, 0x10)] [(.cnt, 0xFFFFFFFF)] 0,
  row 0x0D1004 [(8, 0x10)] [(.cnt, 0xFFFF)] 0,
  row 0x0D1008 [(8, 0x10)] [(.cnt, 0xFFFFFFFF)] 0,
  row 0x0D100C [(8, 0x10)] [(.cnt, 0xFFFFFFFF)] 0 ]

/-- The registers of block DEP. -/
def rowsDep : List RegRow := [
  row 0x0E0000 [] [(.ctl, 0xFFFFF1)] 0x401000,
  row 0x0E0004 [] [(.sta, 0xFFFFFFFF)] 0,
  row 0x0E0008 [] [(.sta, 0xFFFFFFFF)] 0,
  row 0x0E000C [] [(.ctl, 0xFF)] 0x4,
  row 0x0E0010 [] [(.sta, 0xFFFFFFFF)] 0,
  row 0x0E0100 [] [(.cnt, 0xFFFFFFFF)] 0,
  row 0x0E0104 [] [(.cnt, 0xFFFF)] 0,
  row 0x0E0108 [] [(.cnt, 0xFFFFFFFF)] 0,
  row 0x0E010C [] [(.cnt, 0xFFFFFFFF)] 0,
  row 0x0E0110 [] [(.cnt, 0xFFFFFFFF)] 0,
  row 0x0E0114 [] [(.cnt, 0xFFFFFFFF)] 0,
  row 0x0E0118 [] [(.cnt, 0xFFFFFFFF)] 0,
  row 0x0E011C [] [(.cnt, 0xFFFF)] 0,
  row 0x0E0120 [] [(.cnt, 0xFFFFFFFF)] 0,
  row 0x0E0124 [] [(.cnt, 0xFFFFFFFF)] 0,
  row 0x0E0128 [] [(.cnt, 0xFFFFFFFF)] 0,
  row 0x0E012C [] [(.cnt, 0xFFFFFFFF)] 0,
  row 0x0E0130 [] [(.cnt, 0xFFFFFFFF)] 0,
  row 0x0E0134 [] [(.cnt, 0xFFFFFFFF)] 0,
  row 0x0E0140 [(3, 0x4)] [(.cnt, 0xFFFFFFFF)] 0,
  row 0x0E0150 [] [(.cnt, 0xFFFFFFFF)] 0,
  row 0x0E0154 [] [(.cnt, 0xFFFF)] 0,
  row 0x0E0158 [] [(.cnt, 0xFFFFFFFF)] 0 ]

/-- The registers of block ENG. -/
def rowsEng : List RegRow := [
  row 0x100000 [] [(.ctl, 0x1FFFF)] 0x10C35,
  row 0x100010 [] [(.ctl, 0x1F1F1F)] 0x20100,
  row 0x100020 [] [(.grd, 0x31F), (.cmd, 0x80000000)] 0,
  rowPm 0x100024 [] [(.sta, 0xFFFFFFFF)] 0,
  row 0x100100 [(18, 0x4)] [(.sta, 0xFFFFFFFF)] 0,
  row 0x100200 [(16, 0x8)] [(.sta, 0xFFFFFFFF)] 0,
  row 0x100204 [(16, 0x8)] [(.sta, 0xFFFFFFFF)] 0,
  row 0x100300 [(16, 0x4)] [(.cnt, 0xFFFFFFFF)] 0,
  row 0x100380 [] [(.cnt, 0xFFFFFFFF)] 0,
  row 0x100384 [] [(.cnt, 0xFFFFFFFF)] 0,
  row 0x100388 [] [(.cnt, 0xFFFFFFFF)] 0,
  row 0x10038C [] [(.cnt, 0xFFFFFFFF)] 0,
  row 0x100390 [] [(.cnt, 0xFFFFFFFF)] 0,
  row 0x100394 [] [(.cnt, 0xFFFFFFFF)] 0,
  row 0x100404 [(255, 0x4)] [(.ctl, 0x1F)] 0x1F,
  row 0x100400 [] [(.sta, 0xFFFFFFFF)] 0 ]

/-- The registers of block COL. -/
def rowsCol : List RegRow := [
  row 0x110000 [] [(.ctl, 0x1FF)] 0x3,
  row 0x110004 [] [(.sta, 0xFFFFFFFF)] 0,
  row 0x110010 [(4, 0x4)] [(.sta, 0xFFFFFFFF)] 0,
  row 0x110100 [(4, 0x4)] [(.cnt, 0xFFFFFFFF)] 0,
  row 0x110110 [(4, 0x4)] [(.cnt, 0xFFFFFFFF)] 0,
  row 0x110120 [(4, 0x4)] [(.cnt, 0xFFFFFFFF)] 0,
  row 0x110130 [] [(.cnt, 0xFFFFFFFF)] 0,
  row 0x110134 [] [(.cnt, 0xFFFFFFFF)] 0,
  rowPm 0x110200 [] [(.ctl, 0x1FFFFFF)] 0,
  rowPm 0x110204 [] [(.ctl, 0xFFFFFFF)] 0,
  rowPm 0x110208 [] [(.ctl, 0xFFFFFFFF)] 0,
  row 0x110210 [] [(.cmd, 0x8003FFFF)] 0,
  rowPm 0x110214 [] [(.sta, 0xFFFFFFFF)] 0 ]

/-- The registers of block MPU. -/
def rowsMpu : List RegRow := [
  row 0x120000 [] [(.grd, 0x1)] 0,
  row 0x120004 [] [(.sta, 0xFFFFFFFF)] 0,
  rowPm 0x120008 [] [(.sta, 0x1), (.cmd, 0x80000000)] 0x1,
  row 0x120010 [] [(.sta, 0xFFFFFFFF)] 0,
  row 0x120014 [] [(.sta, 0xFFFFFFFF)] 0,
  row 0x120018 [] [(.sta, 0xFFFFFFFF)] 0,
  row 0x12001C [] [(.pop, 0xFFFFFFFF)] 0,
  row 0x120020 [] [(.cnt, 0xFFFFFFFF)] 0,
  row 0x120024 [] [(.cnt, 0xFFFFFFFF)] 0,
  row 0x120100 [(64, 0x20)] [(.ctl, 0xFFFFFFF0)] 0,
  row 0x120104 [(64, 0x20)] [(.ctl, 0xFF)] 0,
  row 0x120108 [(64, 0x20)] [(.ctl, 0xFFFFFFF0)] 0,
  row 0x12010C [(64, 0x20)] [(.ctl, 0xFF)] 0,
  row 0x120110 [(64, 0x20)] [(.ctl, 0xFF)] 0,
  row 0x120114 [(64, 0x20)] [(.ctl, 0xFFFFFFFF)] 0 ]

/-- The registers of block KEY. -/
def rowsKey : List RegRow := [
  row 0x130000 [] [(.grd, 0xFFFF)] 0,
  row 0x130004 [] [(.sta, 0xFFFFFFFF)] 0,
  rowKept 0x130008 [] [(.grd, 0xFF)] 0xE0,
  rowKept 0x13000C [] [(.sta, 0xFFFFFFFF)] 0,
  rowPm 0x130010 [] [(.ctl, 0xFF)] 0,
  rowPm 0x130014 [] [(.ctl, 0x1FFFFF)] 0,
  rowPm 0x130018 [] [(.ctl, 0x3FFFF)] 0,
  rowPm 0x13001C [] [(.ctl, 0x1FF)] 0,
  row 0x130020 [] [(.cmd, 0x8000007F)] 0,
  rowPm 0x130024 [] [(.sta, 0xFFFFFFFF)] 0,
  rowPm 0x130028 [] [(.sta, 0xFFFFFFFF)] 0,
  rowPm 0x13002C [] [(.sta, 0xFFFFFFFF)] 0,
  row 0x130030 [] [(.grd, 0x3), (.cmd, 0x80000000)] 0,
  row 0x130038 [] [(.sta, 0xFFFFFFFF)] 0,
  row 0x13003C [] [(.sta, 0xFFFFFFFF)] 0,
  rowPm 0x130100 [(64, 0x4)] [(.ctl, 0xFFFFFFFF)] 0,
  row 0x130200 [] [(.cnt, 0xFFFFFFFF)] 0,
  row 0x130204 [] [(.cnt, 0xFFFFFFFF)] 0,
  row 0x130208 [] [(.cnt, 0xFFFFFFFF)] 0,
  rowKept 0x13020C [] [(.cnt, 0xFFFFFFFF)] 0,
  row 0x130210 [] [(.cnt, 0xFFFFFFFF)] 0,
  row 0x130214 [] [(.cnt, 0xFFFFFFFF)] 0 ]

/-- The registers of block SEC. -/
def rowsSec : List RegRow := [
  row 0x140000 [] [(.ctl, 0xFFFFFFFF)] 0x5265C000,
  row 0x140004 [] [(.ctl, 0xFFF)] 0,
  row 0x140008 [] [(.sta, 0xFFFFFFFF)] 0,
  row 0x14000C [] [(.grd, 0xF), (.cmd, 0x80000000)] 0,
  row 0x140010 [] [(.sta, 0xFFFFFFFF)] 0,
  row 0x140040 [(12, 0x4)] [(.ctl, 0xFFFFFFFF)] 0,
  row 0x140100 [(4, 0x40)] [(.ctl, 0x1)] 0x1,
  row 0x140200 [(16, 0x40)] [(.ctl, 0x1)] 0,
  row 0x140104 [(20, 0x40)] [(.sta, 0xFFFFFFFF)] 0,
  row 0x140108 [(20, 0x40)] [(.sta, 0xFFFFFFFF)] 0,
  row 0x140110 [(20, 0x40)] [(.sta, 0xFFFFFFFF)] 0,
  row 0x140114 [(20, 0x40)] [(.sta, 0xFFFFFFFF)] 0,
  row 0x140120 [(20, 0x40)] [(.cnt, 0xFFFFFFFF)] 0,
  row 0x140124 [(20, 0x40)] [(.cnt, 0xFFFFFFFF)] 0,
  row 0x140128 [(20, 0x40)] [(.cnt, 0xFFFFFFFF)] 0,
  row 0x14012C [(20, 0x40)] [(.cnt, 0xFFFFFFFF)] 0,
  row 0x140130 [(20, 0x40)] [(.cnt, 0xFFFFFFFF)] 0,
  row 0x140134 [(20, 0x40)] [(.cnt, 0xFFFFFFFF)] 0 ]

/-- The registers of block BOOT. -/
def rowsBoot : List RegRow := [
  row 0x150000 [] [(.sta, 0xFFFFFFFF)] 0x300,
  row 0x150004 [] [(.sta, 0xFFFFFFFF)] 0,
  row 0x150008 [(2, 0x4)] [(.sta, 0xFFFFFFFF)] 0,
  row 0x150010 [(2, 0x4)] [(.sta, 0xFFFFFFFF)] 0xF,
  row 0x150018 [] [(.sta, 0xFFFFFFFF)] 0,
  row 0x15001C [] [(.sta, 0xFFFFFFFF)] 0,
  row 0x150020 [] [(.ctl, 0xFFFF)] 0xC80,
  row 0x150024 [] [(.grd, 0x7), (.cmd, 0x80000000)] 0,
  rowPm 0x150028 [] [(.sta, 0xFFFFFFFF)] 0,
  rowPm 0x150030 [] [(.ctl, 0x1FFFFF00)] 0,
  row 0x150034 [] [(.cmd, 0x80000007)] 0,
  rowPm 0x150038 [] [(.sta, 0xFFFFFFFF)] 0,
  row 0x15003C [] [(.sta, 0xFFFFFFFF)] 0,
  row 0x150050 [] [(.ctl, 0x7FFFFC)] 0,
  row 0x150054 [] [(.ctl, 0xFFFFFFFF)] 0,
  row 0x150060 [(12, 0x4)] [(.sta, 0xFFFFFFFF)] 0,
  rowPm 0x150100 [(64, 0x4)] [(.ctl, 0xFFFFFFFF)] 0,
  rowKept 0x150200 [] [(.cnt, 0xFFFFFFFF)] 0,
  row 0x150204 [] [(.cnt, 0xFFFFFFFF)] 0,
  row 0x150208 [] [(.cnt, 0xFFFFFFFF)] 0,
  row 0x15020C [] [(.cnt, 0xFFFFFFFF)] 0 ]

/-- The registers of block PWR. -/
def rowsPwr : List RegRow := [
  row 0x160000 [] [(.cmd, 0x80000003)] 0,
  rowPm 0x160004 [] [(.sta, 0xFFFFFFFF)] 0,
  row 0x160008 [] [(.sta, 0xFFFFFFFF)] 0,
  row 0x16000C [] [(.ctl, 0xFFFFF)] 0x83C20,
  rowKept 0x160010 [] [(.ctl, 0x7F)] 0x7F,
  row 0x160014 [] [(.sta, 0xFFFFFFFF)] 0,
  rowKept 0x160018 [] [(.sta, 0xFFFFFFFF)] 0,
  rowKept 0x16001C [] [(.sta, 0xFFFFFFFF)] 0,
  rowKept 0x160020 [] [(.sta, 0xFFFFFFFF)] 0,
  row 0x160024 [] [(.ctl, 0xFFFFFFFF)] 0,
  row 0x160028 [] [(.ctl, 0xFFFF)] 0,
  row 0x16002C [] [(.ctl, 0x3)] 0,
  rowKept 0x160030 [] [(.grd, 0xFFFFFFFF)] 0,
  rowKept 0x160034 [] [(.ctl, 0xFFFFFFFF)] 0,
  row 0x160038 [] [(.sta, 0xFFFFFFFF)] 0,
  rowKept 0x160100 [(7, 0x4)] [(.cnt, 0xFFFFFFFF)] 0,
  rowKept 0x160120 [] [(.cnt, 0xFFFFFFFF)] 0,
  rowKept 0x160124 [] [(.cnt, 0xFFFFFFFF)] 0,
  rowKept 0x160128 [] [(.cnt, 0xFFFFFFFF)] 0,
  rowKept 0x16012C [] [(.cnt, 0xFFFFFFFF)] 0,
  rowKept 0x160130 [] [(.cnt, 0xFFFFFFFF)] 0,
  rowKept 0x160134 [] [(.cnt, 0xFFFFFFFF)] 0,
  rowKept 0x160138 [] [(.cnt, 0xFFFFFFFF)] 0,
  rowKept 0x16013C [] [(.cnt, 0xFFFFFFFF)] 0,
  rowKept 0x160140 [] [(.cnt, 0xFFFFFFFF)] 0 ]

/-- The registers of block AVS. -/
def rowsAvs : List RegRow := [
  row 0x170000 [] [(.ctl, 0x3FF03FF)] 0x37002D0,
  row 0x170004 [] [(.ctl, 0x1FFF)] 0x128,
  row 0x170008 [] [(.sta, 0xFFFFFFFF)] 0,
  rowKept 0x17000C [] [(.grd, 0xFF)] 0,
  row 0x170010 [] [(.sta, 0xFFFFFFFF)] 0,
  row 0x170014 [] [(.sta, 0xFFFFFFFF)] 0,
  row 0x170018 [] [(.ctl, 0x3FF)] 0x320,
  rowKept 0x170100 [] [(.cnt, 0xFFFFFFFF)] 0,
  rowKept 0x170104 [] [(.cnt, 0xFFFFFFFF)] 0,
  rowKept 0x170108 [] [(.cnt, 0xFFFFFFFF)] 0 ]

/-- The registers of block USB. -/
def rowsUsb : List RegRow := [
  row 0x180000 [] [(.ctl, 0xFFF)] 0x94F,
  row 0x180004 [] [(.sta, 0xFFFFFFFF)] 0,
  row 0x180008 [] [(.ctl, 0xFFFFFFFF)] Config.usbVidPid,
  row 0x18000C [] [(.ctl, 0x7)] 0x3,
  row 0x180010 [] [(.sta, 0xFFFFFFFF)] 0,
  row 0x180100 [(4, 0x4)] [(.cnt, 0xFFFFFFFF)] 0,
  row 0x180110 [] [(.cnt, 0xFFFFFFFF)] 0,
  row 0x180114 [] [(.cnt, 0xFFFFFFFF)] 0,
  row 0x180118 [] [(.cnt, 0xFFFFFFFF)] 0,
  row 0x18011C [] [(.cnt, 0xFFFFFFFF)] 0,
  row 0x180120 [] [(.cnt, 0xFFFFFFFF)] 0,
  row 0x180124 [] [(.cnt, 0xFFFFFFFF)] 0,
  row 0x180128 [] [(.cnt, 0xFFFFFFFF)] 0,
  row 0x18012C [] [(.cnt, 0xFFFF)] 0 ]

/-- The registers of block PD. -/
def rowsPd : List RegRow := [
  row 0x190000 [] [(.ctl, 0x7FF)] 0x64,
  row 0x190100 [(3, 0x80)] [(.ctl, 0x7)] 0x5,
  row 0x190104 [(3, 0x80)] [(.sta, 0xFFFFFFFF)] 0,
  row 0x190108 [(3, 0x80)] [(.sta, 0xFFFFFFFF)] 0,
  row 0x19010C [(3, 0x80)] [(.sta, 0xFFFFFFFF)] 0,
  row 0x190110 [(4, 0x4)] [(.sta, 0xFFFFFFFF)] 0,
  row 0x190190 [(2, 0x80)] [(.ctl, 0x3FF)] 0x12C,
  row 0x190194 [(2, 0x80), (3, 0x4)] [(.ctl, 0x3FF)] 0,
  row 0x190140 [(3, 0x80)] [(.cnt, 0xFFFFFFFF)] 0,
  row 0x190144 [(3, 0x80)] [(.cnt, 0xFFFFFFFF)] 0,
  row 0x190148 [(3, 0x80)] [(.cnt, 0xFFFFFFFF)] 0,
  row 0x19014C [(3, 0x80)] [(.cnt, 0xFFFFFFFF)] 0,
  row 0x190150 [(3, 0x80)] [(.cnt, 0xFFFFFFFF)] 0,
  row 0x190154 [(3, 0x80)] [(.cnt, 0xFFFFFFFF)] 0,
  row 0x190158 [(3, 0x80)] [(.cnt, 0xFFFFFFFF)] 0,
  row 0x19015C [(3, 0x80)] [(.cnt, 0xFFFFFFFF)] 0,
  row 0x190160 [(3, 0x80)] [(.cnt, 0xFFFFFFFF)] 0,
  row 0x190164 [(3, 0x80)] [(.cnt, 0xFFFFFFFF)] 0,
  row 0x190168 [(3, 0x80)] [(.cnt, 0xFFFFFFFF)] 0 ]

/-- The registers of block MON. -/
def rowsMon : List RegRow := [
  row 0x1A0000 [] [(.ctl, 0xFF01)] 0x6401,
  row 0x1A0004 [] [(.sta, 0xFFFFFFFF)] 0,
  row 0x1A0100 [(55, 0x4)] [(.sta, 0xFFFFFFFF)] 0,
  row 0x1A0400 [(9, 0x4)] [(.ctl, 0xFFFFFFFF)] 0x50B80AE0,
  row 0x1A0424 [(3, 0x4)] [(.ctl, 0xFFFFFFFF)] 0x200A0060,
  row 0x1A0430 [(2, 0x4)] [(.ctl, 0xFFFFFFFF)] 0x240B406C,
  row 0x1A0438 [(3, 0x4)] [(.ctl, 0xFFFFFFFF)] 0x18078048,
  row 0x1A0444 [(1, 0x4)] [(.ctl, 0xFFFFFFFF)] 0x200A0060,
  row 0x1A0448 [(1, 0x4)] [(.ctl, 0xFFFFFFFF)] 0x240B406C,
  row 0x1A044C [(2, 0x4)] [(.ctl, 0xFFFFFFFF)] 0x210A5063,
  row 0x1A0454 [(1, 0x4)] [(.ctl, 0xFFFFFFFF)] 0x1E2581F4,
  row 0x1A0458 [(1, 0x4)] [(.ctl, 0xFFFFFFFF)] 0x240B406C,
  row 0x1A047C [(24, 0x4)] [(.ctl, 0xFFFFFFFF)] 0x5014028,
  row 0x1A045C [(8, 0x4)] [(.sta, 0xFFFFFFFF)] 0,
  row 0x1A0800 [] [(.cnt, 0xFFFFFFFF)] 0,
  row 0x1A0804 [] [(.cnt, 0xFFFFFFFF)] 0,
  rowKept 0x1A0808 [] [(.cnt, 0xFFFFFFFF)] 0 ]

/-- The registers of block CNT. -/
def rowsCnt : List RegRow := [
  row 0x1B0000 [] [(.cmd, 0x80000003)] 0,
  row 0x1B0004 [] [(.sta, 0xFFFFFFFF)] 0,
  row 0x1B0008 [] [(.sta, 0xFFFFFFFF)] 0,
  row 0x1B000C [] [(.sta, 0xFFFF)] 0,
  row 0x1B0010 [] [(.cnt, 0xFFFFFFFF)] 0 ]

/-- The registers of block LOG. -/
def rowsLog : List RegRow := [
  rowKept 0x1C0000 [] [(.sta, 0xFFFFFFFF)] 0,
  rowKept 0x1C0004 [] [(.sta, 0xFFFFFFFF)] 0,
  rowPm 0x1C0008 [] [(.ctl, 0xFFE0)] 0,
  rowPm 0x1C0010 [(8, 0x4)] [(.sta, 0xFFFFFFFF)] 0,
  rowPm 0x1C0040 [] [(.ctl, 0xFF)] 0,
  rowPm 0x1C0044 [(3, 0x4)] [(.ctl, 0xFFFFFFFF)] 0,
  row 0x1C0050 [] [(.cmd, 0x80000000)] 0,
  rowKept 0x1C0100 [] [(.cnt, 0xFFFFFFFF)] 0,
  rowKept 0x1C0104 [] [(.cnt, 0xFFFFFFFF)] 0 ]

/-- The registers of the 64 KiB block with number `b` (Table MAP-2). -/
def blockRows (b : Nat) : List RegRow :=
  match b with
  | 0x00 => rowsGlb
  | 0x01 => rowsBeat
  | 0x02 => rowsLane
  | 0x04 => rowsTrk
  | 0x05 => rowsLoc
  | 0x06 => rowsTopo
  | 0x08 => rowsTun
  | 0x0A => rowsCav
  | 0x0B => rowsSump
  | 0x0C => rowsSched
  | 0x0D => rowsPol
  | 0x0E => rowsDep
  | 0x10 => rowsEng
  | 0x11 => rowsCol
  | 0x12 => rowsMpu
  | 0x13 => rowsKey
  | 0x14 => rowsSec
  | 0x15 => rowsBoot
  | 0x16 => rowsPwr
  | 0x17 => rowsAvs
  | 0x18 => rowsUsb
  | 0x19 => rowsPd
  | 0x1A => rowsMon
  | 0x1B => rowsCnt
  | 0x1C => rowsLog
  | _ => []

/-- The register that stands at address `a`, if one does (R270). -/
def regRow (a : Nat) : Option RegRow := (blockRows (a / 0x10000)).find? (fun r => r.covers a)

/-- The value a register reads while nothing has changed it: the reset value of the register whose
address is the low 24 bits of the key. -/
def resetWord (k : Nat) : Word :=
  match regRow (k % 0x1000000) with
  | some r => BitVec.ofNat 32 r.reset
  | none => 0

/-- Whether a row holds fields of type `t`. -/
def RegRow.has (r : RegRow) (t : FieldType) : Bool := r.parts.any (fun p => p.1 == t)

/-- The bits of a row that hold fields of type `t`. -/
def RegRow.bits (r : RegRow) (t : FieldType) : Nat :=
  match r.parts.find? (fun p => p.1 == t) with
  | some p => p.2
  | none => 0

/-- The key of the copy that master `m` holds of a register marked per master (R276). -/
def pmKey (m : Master) (a : Nat) : Nat := a + 0x1000000 * (m.val + 1)

end Sys2Proof.Machine
end

