-- ==== Sys2Proof/Machine/Ops.lean ====
section
/-! DEFINITION. Machine/Ops.lean: the named operations over registers, counters, memory, the log and
the outputs that every meaning is built from. -/

namespace Sys2Proof.Machine

/-- What a command answers. -/
abbrev Out := Host.Outcome State Fault Refusal

/-! ## Sparse stores in canonical form -/

/-- The value a store holds at a key: the default where it lists none. -/
def Store.get {α : Type} (d : Nat → α) : List (Nat × α) → Nat → α
  | [], k => d k
  | (k', v) :: l, k => if k' = k then v else Store.get d l k

/-- A store with an entry placed before the first larger key. -/
def Store.insert {α : Type} (k : Nat) (v : α) : List (Nat × α) → List (Nat × α)
  | [] => [(k, v)]
  | (k', v') :: l => if k < k' then (k, v) :: (k', v') :: l else (k', v') :: Store.insert k v l

/-- A store without its entries at a key. -/
def Store.erase {α : Type} (k : Nat) : List (Nat × α) → List (Nat × α)
  | [] => []
  | (k', v) :: l => if k' = k then Store.erase k l else (k', v) :: Store.erase k l

/-- A write to a store: a default value removes the entry. -/
def Store.set {α : Type} [DecidableEq α] (d : Nat → α) (k : Nat) (v : α) (l : List (Nat × α)) : List (Nat × α) :=
  if v = d k then Store.erase k l else Store.insert k v (Store.erase k l)

/-- Canonical form: keys strictly rising from `lo`, no entry at its default. -/
def Store.wfFrom {α : Type} [DecidableEq α] (d : Nat → α) : Nat → List (Nat × α) → Bool
  | _, [] => true
  | lo, (k, v) :: l => decide (lo ≤ k) && decide (v ≠ d k) && Store.wfFrom d (k + 1) l

/-! ## Registers -/

/-- The stored word of a register at a key (its address, or a per-master key of `pmKey`). -/
def State.reg (s : State) (k : Nat) : Word := Store.get resetWord s.regs k

/-- A register written by hardware. -/
def State.setReg (s : State) (k : Nat) (w : Word) : State := { s with regs := Store.set resetWord k w s.regs }

/-- A register written by hardware with a number. -/
def State.setRegN (s : State) (k v : Nat) : State := s.setReg k (BitVec.ofNat 32 v)

/-- Bits [hi:lo] of a register. -/
def State.fld (s : State) (k hi lo : Nat) : Nat := bitsOf (s.reg k) hi lo

/-- Bit i of a register. -/
def State.bit (s : State) (k i : Nat) : Bool := (s.reg k).getLsbD i

/-- Bits [hi:lo] of a register written by hardware. -/
def State.setFld (s : State) (k hi lo v : Nat) : State := s.setReg k (withBits (s.reg k) hi lo v)

/-- Bit i of a register written by hardware. -/
def State.setBit (s : State) (k i : Nat) (b : Bool) : State := s.setFld k i i (b2n b)

/-- The registers are in canonical form. -/
def State.regsWf (s : State) : Bool := Store.wfFrom resetWord 0 s.regs

/-- An error counter counts `n` events: 32 bits, saturating (R278). -/
def State.countN (s : State) (k n : Nat) : State := s.setRegN k (min (2 ^ 32 - 1) ((s.reg k).toNat + n))

/-- An error counter counts one event (R278). -/
def State.count (s : State) (k : Nat) : State := s.countN k 1

/-- The 48-bit value held in a _LO word and the _HI word after it. -/
def State.reg48 (s : State) (lo : Nat) : Nat := (s.reg lo).toNat + 2 ^ 32 * s.fld (lo + 4) 15 0

/-- A 48-bit value written to a _LO word and the _HI word after it. -/
def State.setReg48 (s : State) (lo v : Nat) : State :=
  (s.setRegN lo (v % 2 ^ 32)).setRegN (lo + 4) (v / 2 ^ 32 % 2 ^ 16)

/-- A frame or byte counter counts `n`: 48 bits, wrapping (R278). -/
def State.count48 (s : State) (lo n : Nat) : State := s.setReg48 lo ((s.reg48 lo + n) % 2 ^ 48)

/-! ## Memory -/

/-- What a byte of addressed memory that nothing has written reads as: 0 (DESIGN CHOICE, log 3). -/
def Memory.blank (_ : Nat) : Byte := 0

/-- One byte of addressed memory. -/
def State.byte (s : State) (a : Nat) : Byte := Store.get Memory.blank s.mem a

/-- One byte of addressed memory written. -/
def State.setByte (s : State) (a : Nat) (b : Byte) : State := { s with mem := Store.set Memory.blank a b s.mem }

/-- `n` bytes of addressed memory from an address up. -/
def State.bytes (s : State) (a n : Nat) : List Byte := (List.range n).map fun i => s.byte (a + i)

/-- Bytes of addressed memory written from an address up. -/
def State.setBytes (s : State) (a : Nat) : List Byte → State
  | [] => s
  | b :: bs => (s.setByte a b).setBytes (a + 1) bs

/-- Addressed memory is in canonical form. -/
def Memory.wf (m : List Host.Cell) : Bool := Store.wfFrom Memory.blank 0 m

/-- What an erased flash or staging byte reads as (log 8). -/
def Flash.blank (_ : Nat) : Byte := 0xFF

/-! ## Time, mode and supplies -/

/-- BEAT_NUM (R22). -/
def State.beatNum (s : State) : Beat := BitVec.ofNat 48 (s.reg48 Reg.BEAT_NUM)

/-- BEAT_NUM set. -/
def State.setBeatNum (s : State) (b : Beat) : State := s.setReg48 Reg.BEAT_NUM b.toNat

/-- GLB_MODE.MODE (Table BOT-11); 5-7 are never shown. -/
def State.mode (s : State) : Mode :=
  match s.fld Reg.GLB_MODE 2 0 with
  | 1 => .run
  | 2 => .test
  | 3 => .recovery
  | 4 => .service
  | _ => .start

/-- The code of a mode in GLB_MODE.MODE. -/
def Mode.code : Mode → Nat
  | .start => 0
  | .run => 1
  | .test => 2
  | .recovery => 3
  | .service => 4

/-- The core runs: PORST_N is high, CORE_EN is asserted, PGOOD does not hold it (R394, R433, R457). -/
def State.coreOn (s : State) : Bool := !s.boot.held && s.pwr.coreEn && !s.pwr.coreHeld

/-- A Core-domain event acts only while the core runs. -/
def State.whenCore (s : State) (f : State → State) : State := if s.coreOn then f s else s

/-- An arming counts heads; at the second it has lapsed (R289). -/
def armLapse (u : Option Nat) : Option Nat := u.map fun n => min 2 (n + 1)

/-- A master's unlock is armed (R285, R289). -/
def State.unlocked (s : State) (m : Master) : Bool := (s.acc.unlock[m]).any (· < 2)

/-- Beat heads run: the core runs and the hub is neither in LAYOVER nor waking from it (R24, R393). -/
def State.beatRuns (s : State) : Bool :=
  s.coreOn && !(s.pwr.state == .layover) && !(s.pwr.state == .dormant) &&
    !(s.pwr.state == .waking && !s.boot.fromDormant) && !s.pwr.fromLayover

/-! ## Ports and lanes -/

/-- A trunk port as a link port. -/
def trunk (t : TrunkPort) : LinkPort := ⟨t.val, by omega⟩

/-- A local port as a link port (R141). -/
def loc (n : LocalPort) : LinkPort := ⟨n.val + 4, by omega⟩

/-- The trunk port a link port is, if it is one. -/
def asTrunk (p : LinkPort) : Option TrunkPort := if h : p.val < 4 then some ⟨p.val, h⟩ else none

/-- The local port a link port is, if it is one. -/
def asLocal (p : LinkPort) : Option LocalPort := if 4 ≤ p.val then some ⟨p.val - 4, by omega⟩ else none

/-- The first lane of a port: 4 x port on a trunk port, 16 + n on LPn (R16, Table CON-1). -/
def lane0 (p : LinkPort) : Nat := if p.val < 4 then 4 * p.val else 12 + p.val

/-- The link port as an egress port. -/
def toEgress (p : LinkPort) : EgressPort := ⟨p.val, by omega⟩

/-- An egress port as a link port; the internal port 20 is none. -/
def toLink (p : EgressPort) : Option LinkPort := if h : p.val < 20 then some ⟨p.val, h⟩ else none

/-- Lane i of a port. -/
def laneAt (p : LinkPort) (i : Nat) : LaneIx := ⟨(lane0 p + i) % 32, Nat.mod_lt _ (by decide)⟩

/-- The lanes named in a mask, ascending. -/
def laneList (m : BitVec 4) : List Nat := (List.range 4).filter m.getLsbD

/-! ## Ports and their lanes (R16, R94, R95, R141) -/

/-- Group LGm is in force (R94). -/
def State.bonded (s : State) (m : Nat) : Bool := s.bit Reg.LOC_GROUP (4 + m)

/-- A local port that is not the lowest of a group in force: its number is unused (R141). -/
def State.isMember (s : State) (p : Nat) : Bool :=
  decide (4 ≤ p ∧ p < 20 ∧ (p - 4) % 4 ≠ 0) && s.bonded ((p - 4) / 4)

/-- A port that carries a group in force. -/
def State.isGroup (s : State) (p : Nat) : Bool :=
  decide (4 ≤ p ∧ p < 20 ∧ (p - 4) % 4 = 0) && s.bonded ((p - 4) / 4)

/-- The port that stands for a local port: the lowest of its group while the group holds (R141). -/
def State.groupPort (s : State) (p : LinkPort) : LinkPort :=
  if s.isMember p.val then ⟨p.val - (p.val - 4) % 4, by omega⟩ else p

/-- The lanes a port has (R16, R94). -/
def State.laneCount (s : State) (p : LinkPort) : Nat := if p.val < 4 || s.isGroup p.val then 4 else 1

/-- The port a lane belongs to. -/
def State.portOfLane (s : State) (l : LaneIx) : LinkPort :=
  if h : l.val < 16 then ⟨l.val / 4, by omega⟩ else s.groupPort ⟨l.val - 12, by omega⟩

/-- A lane's index within its port. -/
def State.laneIndex (s : State) (l : LaneIx) : Nat := l.val - lane0 (s.portOfLane l)

/-- A port runs Torvisk Link: every trunk port, and a local port in TVL mode. -/
def State.isTvl (s : State) (p : LinkPort) : Bool := decide (p.val < 4) || s.ports[p].modeAct == 1

/-- A port runs Ethernet. -/
def State.isEth (s : State) (p : LinkPort) : Bool :=
  decide (4 ≤ p.val) && (s.ports[p].modeAct == 2 || s.ports[p].modeAct == 3)

/-- A port is ACTIVE or DEGRADED and shows no local fault (R197). -/
def State.portUp (s : State) (p : LinkPort) : Bool :=
  (s.ports[p].stage == .active || s.ports[p].stage == .degraded) && !s.ports[p].localFault

/-- A port is ACTIVE (R95). -/
def State.portActive (s : State) (p : LinkPort) : Bool := s.ports[p].stage == .active && !s.ports[p].localFault

/-- The power domain of a lane's group is on (R52). -/
def State.laneOn (s : State) (l : LaneIx) : Bool := s.pwr.laneDom.getLsbD (l.val / 4)

/-- A test pattern is generated or checked on a lane, by its last agreeing LANE_TEST (R84, R299). -/
def State.patternOn (s : State) (l : LaneIx) : Bool := s.lanes[l].gen != 0 || s.lanes[l].chk != 0

/-- Any loop or pattern is active on a lane (LOOP_ACTIVE, R85). -/
def State.loopActive (s : State) (l : LaneIx) : Bool :=
  s.lanes[l].loop != 0 || s.lanes[l].remoteLoop || s.patternOn l

/-- The rate in use of a lane. -/
def State.laneRate (s : State) (l : LaneIx) : Nat := s.fld (Reg.LANE_CFG_ACT l.val) 1 0

/-- A lane stays out of its port because its active rate differs from the lowest lane's (R55). -/
def State.rateMix (s : State) (l : LaneIx) : Bool :=
  s.laneRate l != s.laneRate (laneAt (s.portOfLane l) 0)

/-- A lane stands out of its port: its rate differs from the port's (R55), or a loop or pattern is active on it (R85). -/
def State.laneOut (s : State) (l : LaneIx) : Bool := s.rateMix l || s.loopActive l

/-- The lanes of a port that transmit: in TRAIN those in training, from LOCK on the trained ones, standby lanes among them, but for
parked ones (R61, R77, R101, R104). -/
def State.sendLanes (s : State) (p : LinkPort) : List LaneIx :=
  if s.ports[p].stage == .down || s.ports[p].stage == .detect then []
  else (((List.range (s.laneCount p)).filter fun i =>
    (s.lanes[laneAt p i].detected || s.lanes[laneAt p i].trained) && !s.ports[p].parked.getLsbD i).map (laneAt p)).filter
      fun l => s.laneOn l && !s.rateMix l

/-! ## Outputs, free values, faults, the log -/

/-- A far-end loop is in force on a lane: the driver sends the line data (Table LAN-6, R83). -/
def Lane.farEnd (x : Lane) : Bool := x.loop.getLsbD 2 || x.remoteLoop

/-- A block on a lane, as LANE_TEST and the loops in force let it reach the driver (R81, R84). -/
def State.onLane (s : State) (x : LineState) (l : LaneIx) (b : Block) : LineState :=
  let y := s.lanes[l]
  x.put y.gen y.farEnd (y.loop.getLsbD 0) (y.loop.getLsbD 1) l b

/-- A block on each of some lanes, in one block slot. -/
def State.onLanes (s : State) (x : LineState) (ls : List LaneIx) (b : Nat → Block) : LineState :=
  (ls.foldl (fun (a : LineState × Nat) l => (s.onLane a.1 l (b a.2), a.2 + 1)) (x, 0)).1

/-- FILL on every lane named before n more blocks, and one alignment marker, could leave 1,024 consecutive blocks without (R68). -/
def State.fillFor (s : State) (n : Nat) (x : LineState) (ls : List LaneIx) : LineState :=
  if ls.any fun l => decide (1022 < x.sinceFill[l] + n) then s.onLanes x ls fun _ => fillBlock else x

/-- FILL on every lane named where the next block makes it due (R68). -/
def State.fillDue (s : State) (x : LineState) (ls : List LaneIx) : LineState := s.fillFor 1 x ls

/-- The transmit lanes of a port, ascending. -/
def State.txLaneList (s : State) (p : LinkPort) : List LaneIx := (laneList s.ports[p].txLanes).map (laneAt p)

/-- Blocks of the port-level stream: block k after an AMK goes to the (k mod W)-th active lane (R71). -/
def State.striped (s : State) (p : LinkPort) (ls : List LaneIx) : List Block → LineState → LineState
  | [], x => x
  | b :: bs, x =>
    let k := x.txK[p]
    let x1 := if k % ls.length = 0 then s.fillDue x ls else x
    let x2 := match ls[k % ls.length]? with
      | some l => s.onLane x1 l b
      | none => x1
    s.striped p ls bs { x2 with txK := vset x2.txK p (k + 1) }

/-- What an output puts on the lines of a Torvisk Link port (Tables LAN-2, LAN-3, BEA-3; R58, R61, R68, R71, R72). A TRAIN block is one in
32, FILL otherwise (Table LAN-2); FLT goes on every lane that transmits (R77); LPBK goes on the lowest of them (DESIGN CHOICE, log 120). -/
def State.wire (s : State) (o : Output) : LineState :=
  let x := s.line
  let low (p : LinkPort) (ls : List LaneIx) (c : Control) : LineState :=
    s.onLanes (s.fillDue x (s.txLaneList p)) (ls.take 1) fun _ => c.block
  let frame (p : LinkPort) (f : Frame) (fcs : Word) (tag : Option (BitVec 128)) : LineState :=
    s.striped p (s.txLaneList p) (frameBlocks f fcs tag) x
  match o with
  | .fill p m => s.onLanes x ((laneList m).map (laneAt p)) fun _ => fillBlock
  | .cap p m r =>
    let ls := (laneList m).map (laneAt p)
    (Control.capRecord r).foldl (fun x c => s.onLanes x ls fun _ => c.block) (s.fillFor 3 x ls)
  | .beatBlock p i num hops hold ofs pep => s.onLanes (s.fillDue x (s.txLaneList p)) [laneAt p i] fun _ => (Control.beat num hops hold ofs pep).block
  | .train l pre post preset ack ready tseq ackSeq =>
    let y := s.onLane x l (Control.train pre post preset ack (BitVec.ofNat 2 (s.laneIndex l)) ready tseq ackSeq).block
    (List.range 31).foldl (fun y _ => s.onLane y l fillBlock) y
  | .amk p m w q _ =>
    let ls := (laneList m).map (laneAt p)
    let y := s.onLanes (s.fillDue x ls) ls fun i =>
      (Control.amk (BitVec.ofNat 2 ((laneList m).getD i 0)) (BitVec.ofNat 2 (w / 2)) q).block
    { y with txK := vset y.txK p 0 }
  | .cred p tc esc n => s.striped p (s.txLaneList p) [(Control.cred (BitVec.ofNat 3 tc.val) esc n).block] x
  | .echoRequest p q => low p (s.txLaneList p) (.echo false q 0)
  | .echoReply p i q turn => s.onLanes (s.fillDue x (s.txLaneList p)) [laneAt p i.val] fun _ => (Control.echo true q turn).block
  | .flt p c m => s.onLanes (s.fillDue x (s.sendLanes p)) (s.sendLanes p) fun _ => (Control.flt c m).block
  | .lpbk p op m => low p (s.sendLanes p) (.lpbk op m)
  | .tunnelFrame p f fcs tag => match toLink p with
    | some l => frame l f fcs tag
    | none => x
  | .keyFrame p f => frame p f f.fcsOf none
  | .abortFrame p => match toLink p with
    | some l => s.striped l (s.txLaneList l) [{ hdr := 2, payload := 0x1E }] x
    | none => x
  | _ => x

/-- Something sent, with what it puts on the lines. -/
def State.emit (s : State) (o : Output) : State := { s with sent := o :: s.sent, line := s.wire o }

/-- The next free value. -/
def State.free (s : State) : Nat := Config.freeNat s.freeCtr

/-- The free value has been drawn. -/
def State.drawn (s : State) : State := { s with freeCtr := s.freeCtr + 1 }

/-- A remote-wake cause of R412 that holds: FAULT_N, or a record that the log has gained since the suspend. -/
def State.wakeCauseNow (s : State) : Bool :=
  (s.bit Reg.USB_MF_CFG 1 && !s.faultN.isEmpty) || (s.bit Reg.USB_MF_CFG 2 && s.usb.logSince)

/-- The function decides to signal remote wake once a cause holds while the link is suspended and the host has enabled it, once per
suspend (R412). -/
def State.decideWake (s : State) : State :=
  if s.usb.suspended && s.usb.rwEnabled && s.usb.mfOn && !s.usb.signalled && s.wakeCauseNow then
    { s with usb := { s.usb with decided := true } }
  else s

/-- FAULT_N asserted for a cause. -/
def State.raiseFault (s : State) (c : FaultCause) : State :=
  if s.faultN.contains c then s else ({ s with faultN := c :: s.faultN } : State).decideWake

/-- FAULT_N released for a cause. -/
def State.dropFault (s : State) (c : FaultCause) : State := { s with faultN := s.faultN.filter (fun x => x != c) }

/-- FLAGS of an event record, Table MON-3. -/
def State.logFlags (s : State) : Nat :=
  s.mode.code + 8 * (if s.coreOn then (if s.pwr.state == .layover then 1 else 0) else 2)

/-- The record of an event as it stands when it is due (Table MON-3); SEQ is given when it is written. -/
def State.eventRecord (s : State) (src code : Nat) (data : List Byte) : EventRecord :=
  { stamp := s.reg Reg.PWR_RTC_SEC, beat := s.beatNum, src := BitVec.ofNat 8 src,
    code := BitVec.ofNat 8 code, seq := 0, flags := BitVec.ofNat 8 s.logFlags,
    data := (data ++ List.replicate 12 0).take 12, crc := 0 }

/-- A record handed to the log writer, which holds 16 pending records (R435). On VBAT alone only
tamper records are written. -/
def State.logBytes (s : State) (src code : Nat) (data : List Byte) : State :=
  if !s.pwr.vaux && (!s.pwr.vbat || src != 0x13) then s
  else if s.log.pending.length ≥ 16 then s.count Reg.LOG_LOST
  else { s with log := { s.log with pending := s.log.pending ++ [s.eventRecord src code data] } }

/-- A record of Table MON-4 with its DATA bytes as numbers. -/
def State.logEvent (s : State) (src code : Nat) (data : List Nat) : State :=
  s.logBytes src code (data.map fun d => BitVec.ofNat 8 d)

/-- A record put before the first whose SRC, then CODE, is higher (R435). -/
def insertDue (r : EventRecord) : List EventRecord → List EventRecord
  | [] => [r]
  | x :: xs =>
    if r.src.toNat * 256 + r.code.toNat < x.src.toNat * 256 + x.code.toNat then r :: x :: xs else x :: insertDue r xs

/-- What a command does in one cycle: the records due in it come behind those pending in ascending order of SRC, then CODE, and those past
16 are lost (R435). -/
def State.inOrder (s : State) (f : State → State) : State :=
  let t := f { s with log := { s.log with pending := [] } }
  let all := s.log.pending ++ t.log.pending.foldl (fun l r => insertDue r l) []
  ({ t with log := { t.log with pending := all.take 16 } } : State).countN Reg.LOG_LOST (all.length - 16)

/-! ## Parts of the state -/

/-- A lane changed. -/
def State.modLane (s : State) (l : LaneIx) (f : Lane → Lane) : State := { s with lanes := vmod s.lanes l f }

/-- A port changed. -/
def State.modPort (s : State) (p : LinkPort) (f : Port → Port) : State := { s with ports := vmod s.ports p f }

/-- A PD port changed. -/
def State.modPd (s : State) (p : PdPort) (f : PdState → PdState) : State := { s with pd := vmod s.pd p f }

/-- An operation over every element of a list. -/
def State.over {α : Type} (s : State) (l : List α) (f : State → α → State) : State := l.foldl f s

/-- The queue 8 x port + TC (R168). -/
def queueOf (p : EgressPort) (c : Cls) : QueueIx := ⟨8 * p.val + c.val, by omega⟩

end Sys2Proof.Machine
end

