-- ==== Sys2Proof/Machine/Cells.lean ====
section
/-! DEFINITION. Machine/Cells.lean: Cavern's store: cells and chambers (R163-R167), charges and the
pool (R170-R173), joining a queue (R174-R178), waiting in a credit reserve (R171), and discarding. -/

namespace Sys2Proof.Machine

/-! ## Ports as Cavern sees them -/

/-- What an egress port sends. -/
def State.egressType (s : State) (p : EgressPort) : EgressType :=
  match toLink p with
  | none => .internal
  | some l => if s.isEth l then .eth else .tvl

/-! ## Reservations and the pool (R170, R172) -/

/-- A written reserve: 0-36 act as 37 (Table CAV-6). -/
def effReserve (v : Nat) : Nat := max 37 v

/-- Logical chamber c is fenced without storage (R189). -/
def State.fenced (s : State) (c : Nat) : Bool := s.bit Reg.CAV_STATUS (9 + c)

/-- usable_cells of R170. -/
def State.usableCells (s : State) : Nat :=
  196608 - 12288 * ((List.range 16).countP fun c => s.fenced c)

/-- pool_size of R170 before it is limited to 0, from queue reservations and the reserves of every port. -/
def State.poolRaw (s : State) (qmin : QueueIx → Nat) (norm esc : LinkPort → Nat) : Int :=
  (s.usableCells : Int) - ((List.finRange 168).foldl (fun a q => a + qmin q) 0 : Nat)
    - ((List.finRange 20).foldl (fun a p =>
        a + (if p.val < 4 then 8 * (norm p + esc p) else if s.ports[p].modeAct = 1 then 8 * norm p else 0)) 0 : Nat)

/-- The NORM written for a port. -/
def State.normWritten (s : State) (p : LinkPort) : Nat :=
  effReserve (if p.val < 4 then s.fld (Reg.CAV_CRED_RES p.val) 11 0 else s.fld (Reg.CAV_CRED_RES_L (p.val - 4)) 11 0)

/-- The ESC written for a trunk port. -/
def State.escWritten (s : State) (p : LinkPort) : Nat :=
  if p.val < 4 then effReserve (s.fld (Reg.CAV_CRED_RES p.val) 19 12) else 0

/-- The check of R172 after a write of a reserve: agreeing values are taken, all together; else the
last consistent ones stay and CFG_MISMATCH shows. -/
def State.takeReserves (s : State) : State :=
  if s.poolRaw (fun q => s.fld (Reg.CAV_Q_MIN q.val) 11 0) s.normWritten s.escWritten < 0 then
    s.setBit Reg.CAV_STATUS 4 true
  else
    let s1 := { s with cav := { s.cav with
      normTaken := Vector.ofFn s.normWritten
      escTaken := Vector.ofFn fun t => s.escWritten (trunk t)
      qminTaken := Vector.ofFn fun q => s.fld (Reg.CAV_Q_MIN q.val) 11 0 } }
    s1.setBit Reg.CAV_STATUS 4 false

/-- The taken reserve of a port goes in force as it enters ACTIVE (R172). -/
def State.reserveInForce (s : State) (p : LinkPort) : State :=
  s.modPort p fun x =>
    { x with
      norm := s.cav.normTaken[p]
      esc := if h : p.val < 4 then s.cav.escTaken[p.val] else 0 }

/-- The same for every port of a bonded group: the group's port enters ACTIVE for all four (R141, R171, R172). -/
def State.reservesInForce (s : State) (p : LinkPort) : State :=
  if s.isGroup p.val then
    s.over ((List.finRange 20).filter fun q => decide (p.val ≤ q.val ∧ q.val < p.val + 4)) State.reserveInForce
  else s.reserveInForce p

/-- The reserve in force of a port, class and set; a bonded group holds the sum of its ports' (R171). -/
def State.reserveOf (s : State) (p : LinkPort) (esc : Bool) : Nat :=
  if esc then s.ports[p].esc
  else if s.isGroup p.val then
    (List.finRange 20).foldl (fun a q => if p.val ≤ q.val ∧ q.val < p.val + 4 then a + s.ports[q].norm else a) 0
  else s.ports[p].norm

/-- pool_size before the limit, with the values in force. -/
def State.poolNow (s : State) : Int :=
  s.poolRaw (fun q => s.cav.qminTaken[q]) (fun p => s.ports[p].norm) (fun p => s.ports[p].esc)

/-- pool_size (R170, CAV_POOL_SIZE). -/
def State.poolSize (s : State) : Nat := s.poolNow.toNat

/-- Shared cells in use, those of Ethernet frames that wait for an entry included (R170, R173). -/
def State.poolUsed (s : State) : Nat :=
  s.cav.frames.foldl (fun a f => a + f.pool) 0 + s.tun.missQ.foldl (fun a m => a + m.pool) 0

/-- Free shared cells (CAV_POOL). -/
def State.poolFree (s : State) : Nat := s.poolSize - s.poolUsed

/-! ## Frames and queues -/

/-- A stored frame by its identity. -/
def State.stored (s : State) (id : Nat) : Option Stored := s.cav.frames.find? (fun f => f.id == id)

/-- A stored frame changed. -/
def State.modStored (s : State) (id : Nat) (f : Stored → Stored) : State :=
  { s with cav := { s.cav with frames := s.cav.frames.map fun x => if x.id = id then f x else x } }

/-- A queue changed. -/
def State.modQueue (s : State) (q : QueueIx) (f : Queue → Queue) : State :=
  { s with cav := { s.cav with queues := vmod s.cav.queues q f } }

/-- Q of R170. -/
def Queue.occ (q : Queue) : Nat := q.refs.foldl (fun a r => a + r.cells) 0

/-- Q_CAV of R170. -/
def Queue.occCav (q : Queue) : Nat := (q.refs.filter fun r => !r.spilled).foldl (fun a r => a + r.cells) 0

/-- Q_SUMP of R170. -/
def Queue.occSump (q : Queue) : Nat := (q.refs.filter fun r => r.spilled).foldl (fun a r => a + r.cells) 0

/-- The unused part of a queue's minimum reservation. -/
def State.resvFree (s : State) (q : QueueIx) : Nat :=
  s.cav.qminTaken[q] - s.cav.queues[q].refs.foldl (fun a r => a + ((s.stored r.id).map (·.resv)).getD 0) 0

/-- The charge of n cells to a queue and the pool: none where they lack the cells (R170). -/
def State.chargeFor (s : State) (q : QueueIx) (n : Nat) : Option (Nat × Nat) :=
  let r := min n (s.resvFree q)
  if n - r ≤ s.poolFree then some (r, n - r) else none

/-! ## Cells (R163-R167) -/

/-- The address of a cell in the diagnostic window (R163, R190). -/
def cellAddr (chamber row : Nat) : Nat := 0x0200000000 + (row * 16 + chamber) * 256

/-- The rows of a logical chamber in use. -/
def State.rowsUsed (s : State) (c : Fin 16) : List Nat :=
  s.cav.frames.flatMap fun f => (f.cells.filter fun x => x.chamber = c).map (·.row)

/-- The first row from `r` on that is not in use. -/
def pickRow (used : List Nat) : Nat → Nat → Nat
  | 0, r => r
  | n + 1, r => if used.contains r then pickRow used n ((r + 1) % 12288) else r

/-- A chamber the allocator may use: not fenced, with a free row (R166). -/
def State.chamberFree (s : State) (c : Fin 16) : Bool :=
  !s.fenced c.val && decide ((s.rowsUsed c).length < 12288)

/-- The first usable chamber from `c` on (R166). -/
def State.nextChamber (s : State) (c : Nat) : Option (Fin 16) :=
  ((List.range 16).map fun k => (⟨(c + k) % 16, Nat.mod_lt _ (by decide)⟩ : Fin 16)).find? s.chamberFree

/-- One cell given to a stored frame. Which free row it gets is a free value: the spec orders no free
list. Writing a cell mends an error it held. -/
def State.allocCell (s : State) (id : Nat) (bytes : List Byte) (c : Nat) : State :=
  match s.nextChamber c with
  | none => s
  | some ch =>
    let used := s.rowsUsed ch
    let row := pickRow used used.length (s.free % 12288)
    let cell : Cell := { chamber := ch, row := row, epoch := s.cav.mapEpoch[ch] }
    let s1 := s.drawn.modStored id fun f => { f with cells := f.cells ++ [cell] }
    let phys := s1.cav.chamberOf[ch]
    ({ s1 with cav := { s1.cav with
      lastChamber := ch
      damaged := s1.cav.damaged.filter fun d => d != (phys, row) } } : State).setBytes (cellAddr ch.val row) bytes

/-- The n cells of a frame, from cell k on, in chambers from `c` on (R166). -/
def State.allocCells (s : State) (id : Nat) (f : Frame) : Nat → Nat → Nat → State
  | 0, _, _ => s
  | n + 1, k, c =>
    let s1 := s.allocCell id (f.cellBytes k) c
    State.allocCells s1 id f n (k + 1) (s1.cav.lastChamber.val + 1)

/-- A frame written to cells, not yet in a queue; `start` is where its cells begin (R165-R167). -/
def State.store (s : State) (f : Frame) (ingress : EgressPort) (matched : List MatchedGen)
    (start : Nat) : State :=
  let id := s.cav.nextId
  let new : Stored := { id := id, frame := f, ingress := ingress, cells := [], matched := matched, resv := 0,
                        pool := 0 }
  let s1 : State := { s with cav := { s.cav with nextId := id + 1, frames := s.cav.frames ++ [new] } }
  s1.allocCells id f f.cells 0 start

/-! ## Removing references and frames -/

/-- A frame is still referred to by a queue, a reserve, a transmission or an inbox (R192, R256). -/
def State.referred (s : State) (id : Nat) : Bool :=
  (List.finRange 168).any (fun q => s.cav.queues[q].refs.any fun r => r.id == id) ||
  s.cav.waiting.any (fun w => w.id == id) || s.cav.cutTx.any (fun c => c.id == id) ||
  (List.finRange 16).any (fun r => s.eng.roles[r].inbox.any fun d => d.id == id) ||
  (List.finRange 4).any (fun c => s.eng.columns[c].inbox.any fun d => d.id == id)

/-- A frame's cells are freed when nothing refers to it any more (R192). -/
def State.release (s : State) (id : Nat) : State :=
  if s.referred id then s
  else { s with cav := { s.cav with frames := s.cav.frames.filter fun f => f.id != id } }

/-- A class's deficit is 0 while its queue is empty (R201). -/
def State.emptyDeficit (s : State) (q : QueueIx) : State :=
  if s.cav.queues[q].refs.isEmpty then s.setRegN (Reg.SCHED_DEFICIT (q.val / 8) (q.val % 8)) 0 else s

/-- A reference leaves its queue. -/
def State.dropRef (s : State) (q : QueueIx) (id : Nat) : State :=
  let spillCells := ((s.cav.queues[q].refs.filter fun r => r.id == id && r.waiting).foldl (fun a r => a + r.cells) 0)
  let s1 := s.modQueue q fun x =>
    let refs := x.refs.filter fun r => r.id != id
    { x with refs := refs, creditWait := none, pageOfs := if refs.any (·.spilled) then x.pageOfs else 0 }
  let s2 := { s1 with cav := { s1.cav with spillQ := s1.cav.spillQ - spillCells } }
  (s2.release id).emptyDeficit q

/-- Every frame of a queue is discarded, each counted in CAV_Q_DOWN_CNT (R193-R197). -/
def State.flushQueue (s : State) (q : QueueIx) : State :=
  s.over s.cav.queues[q].refs fun s r => (s.dropRef q r.id).count (Reg.CAV_Q_DOWN_CNT q.val)

/-- The queues of a port, from class `lo` to class `hi`, are discarded. -/
def State.flushPort (s : State) (p : EgressPort) (lo hi : Nat) : State :=
  s.over ((List.finRange 8).filter fun c => decide (lo ≤ c.val ∧ c.val ≤ hi)) fun s c => s.flushQueue (queueOf p c)

/-! ## Spilling (R177, R178) -/

/-- The size of the spill area in cells (SUMP_SPILL_SIZE); 0 without READY. -/
def State.spillSize (s : State) : Nat :=
  if s.bit Reg.SUMP_STATUS 2 then
    match s.fld Reg.SUMP_STATUS 5 4 with
    | 1 => 16777216
    | 2 => 50331648
    | 3 => 117440512
    | _ => 0
  else 0

/-- The pages a queue holds. -/
def Queue.pages (q : Queue) : Nat := if q.occSump = 0 then 0 else (q.pageOfs + q.occSump + 15) / 16

/-- The pages in use by every queue. -/
def State.pagesUsed (s : State) : Nat := (List.finRange 168).foldl (fun a q => a + s.cav.queues[q].pages) 0

/-- Spilling is enabled and Sump is ready (SPILL_ACTIVE). -/
def State.spillActive (s : State) : Bool := s.bit Reg.SUMP_CFG 0 && s.bit Reg.SUMP_STATUS 2

/-- Spill of n cells of a queue is possible, the frame having a single reference (R177). -/
def State.canSpill (s : State) (q : QueueIx) (n : Nat) : Bool :=
  let x := s.cav.queues[q]
  let need := (x.pageOfs + x.occSump + n + 15) / 16 - x.pages
  s.spillActive && decide (s.pagesUsed + max 1 need ≤ s.spillSize / 16)

/-! ## Joining queues (R174) -/

/-- Whether a port admits a frame of class c at all: not a local port that is down (R197), nor a trunk
port whose window runs for TC6 and TC7 (R194), nor one that was flushed and not yet re-pinned (R196). -/
def State.portAdmits (s : State) (p : EgressPort) (c : Cls) : Bool :=
  match toLink p with
  | none => true
  | some l =>
    if 4 ≤ l.val then s.portUp l
    else !s.ports[l].flushed && !(s.ports[l].holdHead.isSome && decide (6 ≤ c.val))

/-- A threshold is met by an occupancy: 0 always, all-ones never (R175). -/
def meets (threshold occ : Nat) : Bool := threshold != 0xFFFFFF && decide (threshold ≤ occ)

/-- The ports of a list whose queue of class c takes n cells; the others count why not (R174, R194,
R196, R197). -/
def State.sift (s : State) (c : Cls) (n : Nat) : List EgressPort → State × List EgressPort
  | [] => (s, [])
  | p :: ps =>
    let q := queueOf p c
    if !s.portAdmits p c then State.sift (s.count (Reg.CAV_Q_DOWN_CNT q.val)) c n ps
    else if s.cav.queues[q].dropAct != 0xFFFFFF && decide (s.cav.queues[q].occ + n > s.cav.queues[q].dropAct.toNat) then
      State.sift (s.count (Reg.CAV_Q_DROP_CNT q.val)) c n ps
    else
      let (s1, ok) := s.sift c n ps
      (s1, p :: ok)

/-- A reference joins a queue as resident or spilled, marked by its threshold (R174, R177, R178). -/
def State.joinQueue (s : State) (q : QueueIx) (id n : Nat) (single : Bool) : State :=
  let x := s.cav.queues[q]
  let due := decide (q.val % 8 ≤ 3) && single && s.canSpill q n && meets x.spillAct.toNat x.occCav
  let full := decide (s.cav.spillQ + n > 1024)
  let marked := meets (s.fld (Reg.CAV_Q_MARK q.val) 23 0) x.occ
  let spilled := due && !full
  let s1 := s.modQueue q fun x =>
    let r : QRef := { id := id, cells := n, marked := marked, spilled := spilled, waiting := spilled }
    { x with refs := x.refs ++ [r] }
  let s2 := if spilled then
      ({ s1 with cav := { s1.cav with spillQ := s1.cav.spillQ + n } } : State)
        |>.count48 (Reg.CAV_Q_SPILL_CNT_LO q.val) 1 |>.count48 Reg.SUMP_SPILL_FR_LO 1
    else if due then s1.count Reg.SUMP_SPILL_DEFER else s1
  if marked then s2.count48 (Reg.CAV_Q_MARK_CNT_LO q.val) 1 else s2

/-- The index of the counts of a class and set: the escape set after the normal one (R227). -/
def creditIx (c : Cls) (esc : Bool) : Fin 16 := if esc then ⟨c.val + 8, by omega⟩ else ⟨c.val, by omega⟩

/-- The credit of n cells of a class and set is returned (R171, R228); a local port grants none while the
scheduler drains for a power entry, and its credit waits (R381). -/
def State.creditBack (s : State) (p : LinkPort) (c : Cls) (esc : Bool) (n : Nat) : State :=
  let give (k : Credit) : Credit :=
    if s.pwr.admitClosed && decide (4 ≤ p.val) then { k with owed := k.owed + n }
    else { k with g := k.g + BitVec.ofNat 20 n }
  s.modPort p fun x => { x with credits := vmod x.credits (creditIx c esc) give }

/-- Admission at first ingress reopens, and the credit held back is granted (R380). -/
def State.reopenAdmission (s : State) : State :=
  let grant (k : Credit) : Credit := { k with g := k.g + BitVec.ofNat 20 k.owed, owed := 0 }
  ({ s with pwr := { s.pwr with admitClosed := false } } : State).over (List.finRange 20) fun s p =>
    s.modPort p fun x => { x with credits := vall x.credits grant }

/-- The counts of a class and set. -/
def State.credit (s : State) (p : LinkPort) (c : Cls) (esc : Bool) : Credit := s.ports[p].credits[creditIx c esc]

/-- The counts of a class and set changed. -/
def State.modCredit (s : State) (p : LinkPort) (c : Cls) (esc : Bool) (f : Credit → Credit) : State :=
  s.modPort p fun x => { x with credits := vmod x.credits (creditIx c esc) f }

/-- A CRED block for a class and set goes out with COUNT = G (R228). -/
def State.sendCred (s : State) (p : LinkPort) (c : Cls) (esc : Bool) : State := s.emit (.cred p c esc (s.credit p c esc).g)

/-- The credit available to a sender for a class and set: G - U, or what is left of the limit A while a
resynchronisation holds it (R227, R229). -/
def Credit.available (k : Credit) : Nat :=
  match k.limit with
  | some a => a - k.u.toNat
  | none => (k.count - k.u).toNat

/-- Credit is used at the SOF of a frame of n cells (R227). -/
def State.spendCredit (s : State) (p : LinkPort) (c : Cls) (esc : Bool) (n : Nat) : State :=
  s.modCredit p c esc fun k => { k with u := k.u + BitVec.ofNat 20 n }

/-- Cells of a reserve are held by a frame that waits, or no longer. -/
def State.creditHeld (s : State) (p : LinkPort) (c : Cls) (esc : Bool) (f : Nat → Nat) : State :=
  s.modPort p fun x => { x with credits := vmod x.credits (creditIx c esc) fun k => { k with held := f k.held } }

/-- Cells of a reserve that frames in the miss queue still hold (R148, R171). -/
def State.missHeld (s : State) (p : LinkPort) (c : Cls) (esc : Bool) : Nat :=
  (s.tun.missQ.filter fun m => m.ingress == toEgress p && m.frame.cls == c && (decide (p.val < 4) && m.frame.dl) == esc).foldl
    (fun a m => a + m.frame.cells) 0

/-- Cells of a reserve that are neither free nor granted: held by frames that wait, or returned and held back (R171, R229, R381). -/
def State.reserveHeld (s : State) (p : LinkPort) (c : Cls) (esc : Bool) : Nat :=
  (s.credit p c esc).held + (s.credit p c esc).owed + s.missHeld p c esc

/-- What became of a stored frame that tried to join its queues. -/
inductive JoinResult where
  | joined
  | dropped
  | lacking (targets : List EgressPort)
deriving DecidableEq, Repr

/-- A stored frame joins the queues of its targets: thresholds first, then the charge (R170, R174,
R192). `single` says that its egress set had one port. -/
def State.joinAll (s : State) (id : Nat) (c : Cls) (n : Nat) (single : Bool) (targets : List EgressPort) :
    State × JoinResult :=
  let (s1, ok) := s.sift c n targets
  match ok with
  | [] => (s1.release id, .dropped)
  | p :: _ =>
    let charge := if single then s1.chargeFor (queueOf p c) n
      else if n ≤ s1.poolFree then some (0, n) else none
    match charge with
    | none => (s1, .lacking ok)
    | some (r, k) =>
      let s2 := s1.modStored id (fun f => { f with resv := r, pool := k })
      (s2.over ok fun s p => s.joinQueue (queueOf p c) id n single, .joined)

/-- A frame waits in its credit reserve, holding `credit` cells of it (R171). -/
def State.waitInReserve (s : State) (p : LinkPort) (c : Cls) (esc : Bool) (id credit : Nat) (single : Bool)
    (targets : List EgressPort) : State :=
  let s1 := s.creditHeld p c esc (· + credit)
  let w : Waiting := { port := p, tc := c, esc := esc, id := id, credit := credit, single := single, targets := targets }
  { s1 with cav := { s1.cav with waiting := s1.cav.waiting ++ [w] } }

/-- The credit of a received frame is returned, on a port that gives credit (R171, R173). -/
def State.returnCredit (s : State) (ingress : EgressPort) (c : Cls) (dl : Bool) (n : Nat) : State :=
  match toLink ingress with
  | none => s
  | some l => if s.isTvl l then s.creditBack l c (decide (l.val < 4) && dl) n else s

/-- The frame stored as `id` joins its queues, waits in its reserve, or is dropped for want of cells;
`credit` cells of credit go back when it moves or is dropped (R171, R173). -/
def State.place (s : State) (id : Nat) (f : Frame) (ingress : EgressPort) (targets : List EgressPort)
    (credit : Nat) : State :=
  let c := f.cls
  let n := f.cells
  let single := targets.length == 1
  let reserve : Option LinkPort := match toLink ingress with
    | some l => if s.isTvl l then some l else none
    | none => none
  match reserve with
  | none =>
    match s.joinAll id c n single targets with
    | (s1, .lacking _) => (s1.release id).count Reg.CAV_POOL_DROP
    | (s1, _) => s1
  | some l =>
    let esc := decide (l.val < 4) && f.dl
    if s.cav.waiting.any (fun w => w.port == l && w.tc == c && w.esc == esc) then
      s.waitInReserve l c esc id credit single targets
    else
      match s.joinAll id c n single targets with
      | (s1, .lacking ok) => s1.waitInReserve l c esc id credit single ok
      | (s1, _) => s1.creditBack l c esc credit

/-- A waiting frame tries again, unless an older one of its port, class and set still waits: the
`blocked` list holds those that do. -/
def State.retryOne (s : State) (w : Waiting) : State × Bool :=
  let s0 := { s with cav := { s.cav with waiting := s.cav.waiting.filter fun x => x.id != w.id } }
  match s.stored w.id with
  | none => (s0, true)
  | some f =>
    match s0.joinAll w.id w.tc f.frame.cells w.single w.targets with
    | (_, .lacking _) => (s, false)
    | (s1, _) => ((s1.creditHeld w.port w.tc w.esc (· - w.credit)).creditBack w.port w.tc w.esc w.credit, true)

/-- Every waiting frame tries again, oldest first (R171). -/
def State.retryWaiting (s : State) : List Waiting → List (LinkPort × Cls × Bool) → State
  | [], _ => s
  | w :: ws, blocked =>
    if blocked.contains (w.port, w.tc, w.esc) then s.retryWaiting ws blocked
    else
      match s.retryOne w with
      | (s1, true) => s1.retryWaiting ws blocked
      | (s1, false) => s1.retryWaiting ws ((w.port, w.tc, w.esc) :: blocked)

/-- Cells have been freed: waiting frames try again. -/
def State.settle (s : State) : State := s.retryWaiting s.cav.waiting []

/-! ## A port that goes down (R193-R197) -/

/-- The frame that a trunk port was sending at a link loss is discarded and counted (R193, R194). A frame of this beat may still have
been in progress: which, no command tells (log 79). -/
def State.loseSent (s : State) (p : LinkPort) : State :=
  if s.ports[p].txHead = some s.heads then
    let s1 := s.drawn.modPort p fun x => { x with txHead := none }
    if s.free % 2 = 1 then s1.count (Reg.CAV_Q_DOWN_CNT (queueOf (toEgress p) s.ports[p].txTc).val) else s1
  else s

/-- The queues of a trunk port at link loss (R193): TC6 and TC7 are discarded; the others too where
TRK_HOLD_WIN is 0; else they are held and the window runs from now, unless one already runs. -/
def State.lossQueues (s : State) (t : TrunkPort) : State :=
  let p := trunk t
  let win := min 4096 (s.fld Reg.TRK_HOLD_WIN 12 0)
  let s1 := (s.loseSent p).flushPort (toEgress p) 6 7
  if s1.ports[p].holdHead.isSome then s1
  else if win = 0 then
    (s1.flushPort (toEgress p) 0 5).modPort p fun x => { x with flushed := true }
  else s1.modPort p fun x => { x with holdHead := some s1.heads, holdWin := win }

/-- A cut-through transmission toward a port ends with its port (R186, R197). -/
def State.endCuts (s : State) (p : EgressPort) : State :=
  s.over (s.cav.cutTx.filter fun c => c.egress == p) fun s c =>
    let q := match s.stored c.id with
      | some f => queueOf p f.frame.cls
      | none => queueOf p 0
    let s1 := { s with cav := { s.cav with cutTx := s.cav.cutTx.filter fun x => x.id != c.id } }
    ((s1.release c.id).emit (.abortFrame p)).count (Reg.CAV_Q_DOWN_CNT q.val)

/-- All queued frames of a local port that leaves ACTIVE are discarded (R197). -/
def State.localDown (s : State) (p : LinkPort) : State :=
  ((s.endCuts (toEgress p)).flushPort (toEgress p) 0 7).settle

/-- All held frames of a trunk port are discarded in one step, and its queues stay closed until the
raise (R196). -/
def State.flushHeld (s : State) (t : TrunkPort) : State :=
  ((s.flushPort (toEgress (trunk t)) 0 7).modPort (trunk t) fun x =>
    { x with holdHead := none, flushed := true }).settle

/-! ## Doomed cells, chambers (R188, R189) -/

/-- A frame has a doomed cell, or a cell in a chamber fenced without storage. -/
def State.doomed (s : State) (f : Stored) : Bool :=
  f.cells.any fun c => c.epoch != s.cav.mapEpoch[c.chamber] || s.fenced c.chamber.val

end Sys2Proof.Machine
end

