-- ==== Sys2Proof/Machine/Keys.lean ====
section
/-! DEFINITION. Machine/Keys.lean: key slots and their two banks (R326-R334), the derivation function
(R332), link associations and the GCM engines (R343-R346), and the KEY agent's handshake (R339-R342). -/

namespace Sys2Proof.Machine

/-! ## Bytes of the cryptographic functions -/

/-- Exactly n bytes of a list, filled with zeros. -/
def fixLen (n : Nat) (bs : List Byte) : List Byte := (bs ++ List.replicate n 0).take n

/-- n random bytes: a free value (R331). -/
def State.random (s : State) (n : Nat) : List Byte := leBytes n s.free

/-- HMAC-SHA-384, 48 bytes. -/
def hmac384 (key msg : List Byte) : List Byte := fixLen 48 (Config.hmac key msg)

/-- The first bytes of the KDF label: ASCII "SEPTIT" and a zero byte (R332). -/
def kdfLabel : List Byte := [0x53, 0x45, 0x50, 0x54, 0x49, 0x54, 0x00]

/-- The KDF of R332: n bytes under a parent and a context. -/
def kdf (parent context : List Byte) (n : Nat) : List Byte :=
  let k (i : Nat) := hmac384 parent (beBytes 4 i ++ kdfLabel ++ context ++ beBytes 4 (8 * n))
  (k 1 ++ k 2).take n

/-- ASCII bytes of a context word. -/
def ascii (cs : List Nat) : List Byte := cs.map fun c => BitVec.ofNat 8 c

/-- The public value of a P-384 private key, 96 bytes. -/
def publicOf (priv : List Byte) : List Byte := fixLen 96 (Config.ecPublic priv)

/-- The substitute test root of a hub in debug: 0x00, 0x01, ..., 0x3F (R336). -/
def testRoot : List Byte := (List.range 64).map fun i => BitVec.ofNat 8 i

/-! ## Slots -/

/-- Bytes of a value by TYPE (Table GEO-2). -/
def typeLen (t : Nat) : Nat := if t = 0 then 32 else if t = 1 then 48 else if t = 2 then 48 else 36

/-- Bit i of an attribute word. -/
def attrBit (a : BitVec 18) (i : Nat) : Bool := a.getLsbD i

/-- TYPE of an attribute word. -/
def attrType (a : BitVec 18) : Nat := nbits a.toNat 17 16

/-- PORT of an attribute word. -/
def attrPort (a : BitVec 18) : Nat := nbits a.toNat 15 11

/-- An attribute word from the bits set, PORT and TYPE. -/
def mkAttr (bits : List Nat) (port type : Nat) : BitVec 18 :=
  BitVec.ofNat 18 (bits.foldl (fun a i => a + 2 ^ i) 0 + port * 2 ^ 11 + type * 2 ^ 16)

/-- A combination of attributes that a command refuses with BAD_ATTR (R327, Table GEO-2). -/
def badAttr (a : BitVec 18) : Bool :=
  ((attrBit a 1 || attrBit a 2) && !(attrType a == 3 && attrBit a 10)) ||
  (attrBit a 4 && attrType a != 2) || (attrBit a 3 && (attrType a == 2 || attrType a == 3)) ||
  (attrBit a 5 && attrType a == 3) || (attrBit a 6 && (attrType a == 1 || attrType a == 3)) ||
  !attrBit a 0 || decide (20 ≤ attrPort a)

/-- What the CRC-32 of a bank covers: the value, the attributes, PARENT, PGEN and GEN (R334, log 105). -/
def KeyBank.text (b : KeyBank) : List Byte :=
  b.value ++ leBytes 4 b.attr.toNat ++ leBytes 1 b.parent.toNat ++ leBytes 2 b.pgen.toNat ++ leBytes 2 b.gen.toNat

/-- A bank passes its CRC. -/
def KeyBank.crcOk (b : KeyBank) : Bool := b.crc == crc32 b.text

/-- A bank as an update writes it, with its CRC. -/
def KeyBank.sealed (b : KeyBank) : KeyBank := { b with crc := crc32 b.text }

/-- The commit word of a GEN and an active bank: bits [23:17] are 0, [31:24] the CRC-8 over bits [23:0], lowest byte first (R334,
log 105). -/
def commitWord (gen : BitVec 16) (active : Bool) : Word :=
  let low := gen.toNat + b2n active * 2 ^ 16
  BitVec.ofNat 32 (low + (crc8 (leBytes 3 low)).toNat * 2 ^ 24)

/-- GEN of a slot. -/
def KeySlot.gen (k : KeySlot) : BitVec 16 := k.commit.setWidth 16

/-- Bank 1 is the active one. -/
def KeySlot.active (k : KeySlot) : Bool := k.commit.getLsbD 16

/-- The commit word passes its CRC. -/
def KeySlot.commitOk (k : KeySlot) : Bool := bitsOf k.commit 31 24 == (crc8 (leBytes 3 (bitsOf k.commit 23 0))).toNat

/-- The commit word written, in one write. -/
def KeySlot.commits (k : KeySlot) (gen : BitVec 16) (active : Bool) : KeySlot := { k with commit := commitWord gen active }

/-- The active bank of a slot. -/
def KeySlot.live (k : KeySlot) : KeyBank := if k.active then k.bank1 else k.bank0

/-- A slot's reading after the check of its commit word (R334): the bank whose CRC passes, the one with
the older GEN where both pass, an invalid slot where neither does. -/
def KeySlot.recovered (k : KeySlot) : KeySlot :=
  if k.commitOk then k
  else
    let older := decide ((k.bank0.gen - k.bank1.gen).toNat < 32768)
    match k.bank0.crcOk, k.bank1.crcOk with
    | true, true => k.commits (if older then k.bank1.gen else k.bank0.gen) older
    | true, false => k.commits k.bank0.gen false
    | false, true => k.commits k.bank1.gen true
    | false, false => ({ k with bank0 := .empty, bank1 := .empty } : KeySlot).commits k.gen false

/-- A slot by number. -/
def State.slot (s : State) (k : BitVec 8) : KeySlot := s.geode.slots[k.toNat]'(by omega)

/-- A slot changed. -/
def State.modSlot (s : State) (k : BitVec 8) (f : KeySlot → KeySlot) : State :=
  { s with geode := { s.geode with slots := vmod s.geode.slots ⟨k.toNat, by omega⟩ f } }

/-- A slot read by the hub: a failed commit word is repaired and counted (R334). -/
def State.readSlot (s : State) (k : BitVec 8) : State :=
  if (s.slot k).commitOk then s else (s.modSlot k KeySlot.recovered).count Reg.KEY_RECOVER

/-- A slot holds a key. -/
def KeySlot.valid (k : KeySlot) : Bool := k.commitOk && k.live.valid

/-- The value of a parent: a slot, or for slot 0 the root, in debug the test root (R321, R336). -/
def State.parentValue (s : State) (k : BitVec 8) : List Byte :=
  if k = 0 then (if s.bit Reg.KEY_STATUS 1 then testRoot else s.geode.root.getD []) else (s.slot k).live.value

/-- An update of a slot: the whole inactive bank, then the commit word (R334); GEN rises by one (R328). -/
def KeySlot.update (k : KeySlot) (attr : BitVec 18) (parent : BitVec 8) (pgen : BitVec 16) (value : List Byte) : KeySlot :=
  let b := ({ valid := true, attr := attr, parent := parent, pgen := pgen, gen := k.gen + 1, value := value, crc := 0 } : KeyBank).sealed
  let x := if k.active then { k with bank0 := b } else { k with bank1 := b }
  ({ x with cascade := false } : KeySlot).commits (k.gen + 1) (!k.active)

/-- A slot zeroed: VALID := 0 and GEN raised by one (R328). -/
def KeySlot.zeroed (k : KeySlot) : KeySlot :=
  let b := ({ KeyBank.empty with gen := k.gen + 1 } : KeyBank).sealed
  ({ k with bank0 := b, bank1 := b, cascade := false } : KeySlot).commits (k.gen + 1) k.active

/-- GEN raised by one at a change of slot 0, whose value is the root (R328). -/
def KeySlot.raised (k : KeySlot) : KeySlot := k.commits (k.gen + 1) k.active

/-- A key is created in a slot under a parent; with no parent the slot names itself (R326). A child of a pending parent awaits what its
parent awaits (R333). -/
def State.createKey (s : State) (k : BitVec 8) (attr : BitVec 18) (parent : Option (BitVec 8)) (value : List Byte) : State :=
  match parent with
  | none => s.modSlot k fun x => x.update attr k 0 value
  | some p =>
    let q := s.slot p
    s.modSlot k fun x =>
      let y := x.update attr p q.gen value
      { y with pending := y.pending || q.pending, cascade := q.cascade }

/-- A chain of PARENT links with agreeing generations leads from slot k to slot p (R328); fuel bounds
the chain by the number of slots. -/
def descends (slots : Vector KeySlot 256) (p : BitVec 8) : Nat → BitVec 8 → Bool
  | 0, _ => false
  | n + 1, k =>
    let b := (slots[k.toNat]'(by omega)).live
    if !b.valid || b.parent == k then false
    else if b.pgen != (slots[b.parent.toNat]'(by omega)).gen then false
    else if b.parent == p then true
    else descends slots p n b.parent

/-- Slot k is a descendant of slot p (R328). -/
def State.isDescendant (s : State) (p k : BitVec 8) : Bool := descends s.geode.slots p 256 k

/-- Slot k is slot p or a descendant of it. -/
def State.under (s : State) (p k : BitVec 8) : Bool := k == p || s.isDescendant p k

/-- An invalidation or replacement of slot p is accepted: p and its descendants are pending (R333). -/
def State.markPending (s : State) (p : BitVec 8) : State :=
  { s with geode := { s.geode with
    slots := Vector.ofFn fun i =>
      let x := s.geode.slots[i]
      if s.under p (BitVec.ofNat 8 i.val) then { x with pending := true } else x } }

/-- An invalidation or replacement of slot p acts: from now on p is pending, and its descendants, which cascade at the next head (R333,
R337). -/
def State.markCascade (s : State) (p : BitVec 8) : State :=
  let s1 := s.markPending p
  { s1 with geode := { s1.geode with
    cascade := true
    slots := Vector.ofFn fun i =>
      let x := s1.geode.slots[i]
      if s.isDescendant p (BitVec.ofNat 8 i.val) then { x with cascade := true } else x } }

/-- A slot is zeroed by command: its descendants cascade at the next head (Table GEO-3). -/
def State.zeroKey (s : State) (k : BitVec 8) : State := (s.markCascade k).modSlot k KeySlot.zeroed

/-- The number of valid slots (KEY_STATUS); slot 0 counts by the root. -/
def State.validSlots (s : State) : Nat :=
  (List.finRange 256).countP fun i => if i.val = 0 then s.geode.root.isSome else s.geode.slots[i].valid

/-! ## GCM engines and associations (R343, R344) -/

/-- The group that GCM4 + k is mapped to. -/
def State.gcmGroup (s : State) (k : Nat) : Option Nat :=
  if s.bit Reg.SEC_GCM_MAP (3 * k) then some (s.fld Reg.SEC_GCM_MAP (3 * k + 2) (3 * k + 1)) else none

/-- The GCM engine that serves a port: GCM0-GCM3 the trunk ports, and the lowest-numbered engine mapped
to a local port's group, in TVL mode (R343). -/
def State.gcmEngine (s : State) (p : LinkPort) : Option Nat :=
  if p.val < 4 then some p.val
  else if s.isTvl p then
    ((List.range 4).find? fun k => s.gcmGroup k == some ((p.val - 4) / 4)).map (· + 4)
  else none

/-- The associations of a port and direction, oldest first. -/
def State.assocsOf (s : State) (p : LinkPort) (transmit : Bool) : List Assoc :=
  s.geode.assocs.filter fun a => a.port == p && a.transmit == transmit

/-- The transmit association in use of a port; a port that no engine serves uses none (R343). -/
def State.txAssoc (s : State) (p : LinkPort) : Option Assoc :=
  if (s.gcmEngine p).isSome then (s.assocsOf p true).find? (·.inUse) else none

/-- An association is taken away; where it was the transmit association in use, the other one of the
port comes into use (DEDUCED, log 24). -/
def State.retireAssoc (s : State) (p : LinkPort) (transmit : Bool) (sa : BitVec 8) : State :=
  let rest := s.geode.assocs.filter fun a => !(a.port == p && a.transmit == transmit && a.sa == sa)
  let used := rest.any fun a => a.port == p && a.transmit && a.inUse
  let rest' := if transmit && !used then
      rest.map fun a => if a.port == p && a.transmit then { a with inUse := true } else a
    else rest
  { s with geode := { s.geode with assocs := rest' } }

/-- The AES-256 key of an association: the first 256 bits of its TYPE 3 value (R344). -/
def Assoc.aesKey (a : Assoc) : List Byte := a.key.take 32

/-- The IV for a counter value: the salt, which is the last 32 bits of the TYPE 3 value, then C, big-endian (R344). -/
def Assoc.iv (a : Assoc) (c : BitVec 64) : List Byte := fixLen 4 (a.key.drop 32) ++ beBytes 8 c.toNat

/-- An association is loaded: C starts at 1, E at 1 (R344, R345). Stopped associations of the port and
direction give way, and so does the older of two that are left: a port holds up to two of each (R343). A transmit association is in use
at once where the port has no other. -/
def State.installAssoc (s : State) (p : LinkPort) (transmit : Bool) (sa k : BitVec 8) : State :=
  let live := s.geode.assocs.filter fun a => !(a.port == p && a.transmit == transmit && a.stopped)
  let same := live.filter fun a => a.port == p && a.transmit == transmit
  let keep := if 2 ≤ same.length then live.filter fun a => !(same.head? == some a) else live
  let first := !keep.any fun a => a.port == p && a.transmit && transmit
  let new : Assoc := { port := p, transmit := transmit, sa := sa, slot := k, gen := (s.slot k).gen,
                       key := (s.slot k).live.value, ctr := 1, stopped := false, inUse := transmit && first }
  { s with geode := { s.geode with assocs := keep ++ [new] } }

/-- The associations that meet a test stop (R238). -/
def State.stopAssocs (s : State) (f : Assoc → Bool) : State :=
  { s with geode := { s.geode with assocs := s.geode.assocs.map fun a => if f a then { a with stopped := true } else a } }

/-- The counter of an association moves to c; at 2^64 - 1 it stops (R344). -/
def State.setCtr (s : State) (p : LinkPort) (transmit : Bool) (sa : BitVec 8) (c : BitVec 64) : State :=
  { s with geode := { s.geode with assocs := s.geode.assocs.map fun a =>
      if a.port == p && a.transmit == transmit && a.sa == sa then
        { a with ctr := c, stopped := a.stopped || (transmit && c == BitVec.allOnes 64) }
      else a } }

/-- A frame sealed for a port's transmit association, with its tag: SA and HCS are final, the header is
the additional data, the payload is encrypted, C rises by one (R344). -/
def State.encrypt (s : State) (a : Assoc) (f : Frame) : State × Frame × BitVec 128 :=
  let h := ({ f with sa := a.sa } : Frame).sealed
  let ct := fixLen f.payload.length (Config.gcmCrypt a.aesKey (a.iv a.ctr) f.payload)
  (s.setCtr a.port true a.sa (a.ctr + 1), { h with payload := ct }, Config.gcmTag a.aesKey (a.iv a.ctr) h.header ct)

/-- The counter value, among E to E + 7, under which a received frame's tag verifies (R345). -/
def verifyTag (a : Assoc) (f : Frame) (tag : BitVec 128) : Option (BitVec 64) :=
  ((List.range 8).map fun i => a.ctr + BitVec.ofNat 64 i).find? fun c => Config.gcmTag a.aesKey (a.iv c) f.header f.payload == tag

/-- The first frame authenticated under a newer receive association retires the older one of its port,
and its slot is invalidated (R342). -/
def State.retireOlderRx (s : State) (p : LinkPort) (sa : BitVec 8) : State :=
  match s.assocsOf p false with
  | a :: b :: _ => if b.sa = sa && decide (p.val < 4) then (s.retireAssoc p false a.sa).zeroKey a.slot else s
  | _ => s

/-- What check 3 of Table TUN-7 answers: the frame in clear, or the counter of its drop (R345, R346). -/
def State.checkTag (s : State) (p : LinkPort) (f : Frame) (tag : BitVec 128) : State × Option Frame :=
  if f.sa = 0 then
    if f.kind ≠ kindKey ∧ s.bit (Reg.SEC_PORT_CFG p.val) 0 then (s.count (Reg.SEC_CLEAR_DROP p.val), none)
    else (s, some f)
  else
    match if (s.gcmEngine p).isSome then (s.assocsOf p false).find? (fun a => a.sa == f.sa) else none with
    | none => (s.count (Reg.SEC_SA_UNKNOWN p.val), none)
    | some a =>
      if a.stopped then (s.count Reg.DEP_KEY_STALE, none)
      else
        match verifyTag a f tag with
        | none => (s.count (Reg.SEC_TAG_FAIL p.val), none)
        | some c =>
          let s1 := (s.setCtr p false a.sa (c + 1)).retireOlderRx p a.sa
          (s1, some { f with payload := fixLen f.payload.length (Config.gcmCrypt a.aesKey (a.iv c) f.payload) })

/-! ## The form of a KEY frame (R339) -/

/-- A KEY payload has the version, message and length of Table GEO-5 (R339). -/
def keyFormOk (payload : List Byte) (msg len : Nat) : Bool :=
  byteAt payload 0 == 1 && byteAt payload 1 == msg && payload.length == len

/-- A malformed KEY frame is counted (R339). -/
def State.keyBad (s : State) (p : LinkPort) : State := s.count (Reg.SEC_KEY_BAD p.val)

/-! ## The hub's own frames on trunk ports (R110, R117, R227, R339) -/

/-- SLOT of TOPO_STATUS. -/
def State.mySlot (s : State) : Nat := s.fld Reg.TOPO_STATUS 6 0

/-- The current path epoch. -/
def State.pep (s : State) : BitVec 4 := BitVec.ofNat 4 (s.fld Reg.TOPO_STATUS 10 7)

/-- A frame this hub originates on a trunk link: TC7, link-local, single (R110, R339). -/
def State.linkFrame (s : State) (kind : BitVec 4) (payload : List Byte) : Frame :=
  Frame.sealed { destEp := 0, srcEp := BitVec.ofNat 25 (s.mySlot * 2 ^ 18), tc := 7, cm := false, de := false,
                 kind := kind, pep := s.pep, dl := false, len := BitVec.ofNat 14 payload.length, seq := 0,
                 beat := BitVec.ofNat 16 (s.beatNum.toNat % 65536), sa := 0, hcs := 0, tw := 0, payload := payload }

/-- An agent sends one of the hub's own frames on a trunk port: it joins the port's TC7 queue at the next frame slot (R173; DESIGN CHOICE,
log 129) and leaves as any other frame of it (R199-R207). -/
def State.sendOwn (s : State) (t : TrunkPort) (f : Frame) : State :=
  s.modPort (trunk t) fun x => { x with ownTx := x.ownTx ++ [f] }

/-- The agent sends a KEY frame with a payload on a trunk port (R339). -/
def State.sendKey (s : State) (t : TrunkPort) (payload : List Byte) : State := s.sendOwn t (s.linkFrame kindKey payload)

/-! ## The KEY agent (R339-R342) -/

/-- An agent changed. -/
def State.modAgent (s : State) (t : TrunkPort) (f : KeyAgent → KeyAgent) : State :=
  { s with geode := { s.geode with agents := vmod s.geode.agents t f } }

/-- FLEET_SLOT: 128-255 act as 0. -/
def State.fleetSlot (s : State) : Nat := let f := s.fld Reg.KEY_CFG 7 0; if 128 ≤ f then 0 else f

/-- DBG_SLOT: 128-255 act as 0. -/
def State.dbgSlot (s : State) : Nat := let f := s.fld Reg.KEY_CFG 15 8; if 128 ≤ f then 0 else f

/-- Debug is enabled (KEY_STATUS.DEBUG). -/
def State.inDebug (s : State) : Bool := s.bit Reg.KEY_STATUS 1

/-- The lowest pool slot that holds no key and is not pending (DESIGN CHOICE, log 25). -/
def State.freePool (s : State) : BitVec 8 :=
  BitVec.ofNat 8 (((List.range 128).find? fun i =>
    let x := s.slot (BitVec.ofNat 8 (128 + i))
    !x.valid && !x.pending).getD 127 + 128)

/-- The attribute word of a slot that the agent creates: VALID, the uses given, DEBUG_OK in debug (R340). -/
def State.agentAttr (s : State) (uses : List Nat) (port type : Nat) : BitVec 18 :=
  mkAttr ((if s.inDebug then [0, 8] else [0]) ++ uses) port type

/-- The identity a port's partner gave at CAPX. -/
def State.partnerId (s : State) (p : LinkPort) : HubId := (s.ports[p].partner.map (·.id)).getD 0

/-- SAME_PARTNER: the identity taken at CAPX equals the one stored at the last admission (R108). -/
def State.samePartner (s : State) (p : LinkPort) : Bool :=
  match s.ports[p].partner, s.ports[p].admittedId with
  | some c, some i => c.id == i
  | _, _ => false

/-- The lowest SA number that no receive association of the port has (DESIGN CHOICE, log 25). -/
def State.freeSa (s : State) (p : LinkPort) : BitVec 8 :=
  BitVec.ofNat 8 (((List.range 255).find? fun i =>
    !(s.assocsOf p false).any fun a => a.sa == BitVec.ofNat 8 (i + 1)).getD 254 + 1)

/-- The head of a KEY payload: VER, MSG and two zero bytes (R339). -/
def keyHead (msg : Nat) : List Byte := [0x01, BitVec.ofNat 8 msg, 0, 0]

/-- An identity as it stands in a KEY payload. -/
def idBytes (i : HubId) : List Byte := leBytes 8 i.toNat

/-- Bytes from a to a + n of a payload. -/
def slice (bs : List Byte) (a n : Nat) : List Byte := (bs.drop a).take n

/-- A handshake has failed: CLOSED, counted, tried again after 16,000 beats; a rekey leaves the port and
its old associations as they are (R107, R342). Keys derived and not yet confirmed go. -/
def State.authFailed (s : State) (t : TrunkPort) : State :=
  let a := s.geode.agents[t]
  let again := a.rekey
  let s0 := match a.txKey with
    | some k => (s.retireAssoc (trunk t) false a.rxSa).zeroKey k
    | none => s
  let s1 := s0.modAgent t fun x =>
    { x with running := false, hello := [], peerHello := [], resume := [], eph := none, txKey := none
             rk := if a.txKey.isSome then a.oldRk else a.rk }
  let s2 := s1.modPort (trunk t) fun p =>
    { p with adm := if again then p.adm else .closed, retryHead := some s.heads
             pst := if !again && p.adm == .admitted then 0 else p.pst }
  s2.count (Reg.TRK_AUTH_FAIL t.val)

/-- The agent sends FAIL with a reason, and the handshake fails (Table GEO-5). -/
def State.sendFail (s : State) (t : TrunkPort) (reason : Nat) : State :=
  (s.sendKey t (keyHead 5 ++ [BitVec.ofNat 8 reason, 0, 0, 0])).authFailed t

/-- A full handshake begins: an ephemeral key in a pool slot, 32 random bytes, HELLO (R340). A bypassed port
shows BYPASSED until the handshake ends (R113). -/
def State.sendHello (s : State) (t : TrunkPort) (rekey : Bool) : State :=
  let k := s.freePool
  let priv := s.random 48
  let s1 := s.drawn.createKey k (s.agentAttr [5] 0 2) none priv
  let n := s1.random 32
  let hello := keyHead 1 ++ idBytes Config.hubId ++ [BitVec.ofNat 8 s.fleetSlot, BitVec.ofNat 8 (b2n rekey), 0, 0]
    ++ n ++ publicOf priv
  let s2 := s1.drawn.modAgent t fun a =>
    { a with rekey := rekey, hello := hello, peerHello := [], eph := some k, resume := [], txKey := none, running := true }
  let s3 := s2.modPort (trunk t) fun p =>
    { p with adm := if rekey || p.adm == .bypassed then p.adm else .auth, authHead := s.heads, retryHead := none
             pst := if !rekey && p.adm == .admitted then 0 else p.pst }
  s3.sendKey t hello

/-- A resumption begins: RESUME with a fresh N under the RK of the port's session (R341). -/
def State.sendResume (s : State) (t : TrunkPort) (rk : BitVec 8) : State :=
  let n := s.random 32
  let sa := s.freeSa (trunk t)
  let mac := hmac384 (s.slot rk).live.value (n ++ idBytes Config.hubId ++ [sa])
  let msg := keyHead 3 ++ idBytes Config.hubId ++ [sa, 0, 0, 0] ++ n ++ mac
  let s1 := s.drawn.modAgent t fun a =>
    { a with rekey := false, hello := [], peerHello := [], eph := none, resume := msg, txKey := none, rxSa := sa, running := true }
  let s2 := s1.modPort (trunk t) fun p => { p with adm := .auth, authHead := s.heads, retryHead := none }
  s2.sendKey t msg

/-- The RK of a port's recorded session, while its slot still holds it. -/
def State.rkOf (s : State) (t : TrunkPort) : Option (BitVec 8) :=
  match s.geode.agents[t].rk with
  | some k => if (s.slot k).valid && !(s.slot k).pending then some k else none
  | none => none

/-- From CLOSED to AUTH: a resumption where the partner is the one of the recorded session, else a full
handshake (R107, R108). -/
def State.startAuth (s : State) (t : TrunkPort) : State :=
  match s.rkOf t with
  | some k => if s.samePartner (trunk t) && s.ports[trunk t].session then s.sendResume t k else s.sendHello t false
  | none => s.sendHello t false

/-- A port whose association stopped returns to AUTH and, where the core runs, starts a full handshake (R338). -/
def State.backToAuth (s : State) (t : TrunkPort) : State :=
  let s1 := s.modPort (trunk t) fun p =>
    { p with session := false, adm := .closed, pst := if p.adm == .admitted then 0 else p.pst }
  if s1.portUp (trunk t) && s1.coreOn then s1.sendHello t false else s1

/-- An association of a port runs in one state and is stopped in a later one. -/
def State.stoppedSince (s before : State) (p : LinkPort) : Bool :=
  s.geode.assocs.any fun a => a.port == p && a.stopped && before.geode.assocs.any fun b =>
    b.port == p && b.transmit == a.transmit && b.sa == a.sa && b.slot == a.slot && b.gen == a.gen && !b.stopped

/-- A trunk port whose transmit association has used its last counter value since a state returns to AUTH (R338, R344); a local port has
no admission. -/
def State.reauthSpent (s before : State) (p : LinkPort) : State :=
  match asTrunk p with
  | some t => if s.stoppedSince before p then s.backToAuth t else s
  | none => s

/-- Every trunk port of which an association has stopped since a state returns to AUTH (R338). -/
def State.reauthStopped (s before : State) : State :=
  s.over (List.finRange 4) fun s t => if s.stoppedSince before (trunk t) then s.backToAuth t else s

/-- Every trunk port that is up returns to AUTH (R323, R336). -/
def State.reauthAll (s : State) : State :=
  s.over (List.finRange 4) fun s t => s.backToAuth t

/-- The slots with PERSIST = 0 are zeroed and their associations stop (R329). -/
def State.zeroVolatile (s : State) : State :=
  let vol (k : BitVec 8) : Bool := (s.slot k).live.valid && !attrBit (s.slot k).live.attr 9
  let s1 := { s with geode := { s.geode with
    slots := vall s.geode.slots fun x => if x.live.valid && !attrBit x.live.attr 9 then x.zeroed else x } }
  s1.stopAssocs fun a => vol a.slot

/-- The keys of a handshake: SMK under `parent` and context, then the direction keys and a new RK
(R340, R341). The own key is installed later as transmit, the partner's now as receive. -/
def State.deriveLinkKeys (s : State) (t : TrunkPort) (parent : BitVec 8) (context : List Byte) (lo hi : HubId)
    (sa : BitVec 8) : State :=
  let p := trunk t
  let kSmk := s.freePool
  let smk := kdf (s.parentValue parent) context 48
  let s1 := s.createKey kSmk (s.agentAttr [5] 0 1) (some parent) smk
  let dir (i : HubId) := kdf smk (ascii [0x44, 0x49, 0x52] ++ idBytes i) 36
  let peer := if lo = Config.hubId then hi else lo
  let kTx := s1.freePool
  let s2 := s1.createKey kTx (s1.agentAttr [1, 10] p.val 3) none (dir Config.hubId)
  let kRx := s2.freePool
  let s3 := s2.createKey kRx (s2.agentAttr [2, 10] p.val 3) none (dir peer)
  let kRk := s3.freePool
  let s4 := s3.createKey kRk (s3.agentAttr [3, 5] 0 1) none (kdf smk (ascii [0x52, 0x45, 0x53] ++ idBytes lo ++ idBytes hi) 48)
  let s5 := s4.installAssoc p false sa kRx
  s5.modAgent t fun a => { a with oldRk := a.rk, rk := some kRk, txKey := some kTx, rxSa := sa }

/-- The fleet slot F of a handshake holds a usable key, which awaits no invalidation (R333, R340). -/
def State.fleetUsable (s : State) (f : BitVec 8) : Bool :=
  let x := s.slot f
  f != 0 && x.valid && !x.pending && attrType x.live.attr == 1 && attrBit x.live.attr 3 &&
    !(s.inDebug && !attrBit x.live.attr 8)

/-- The hello payloads of a handshake, the lower identity's first. -/
def KeyAgent.ordered (a : KeyAgent) (peer : HubId) : List Byte × List Byte :=
  if Config.hubId.toNat < peer.toNat then (a.hello, a.peerHello) else (a.peerHello, a.hello)

/-- The fleet slot named by the HELLO of the lower identity (R340). -/
def KeyAgent.fleet (a : KeyAgent) (peer : HubId) : BitVec 8 := ((a.ordered peer).1).getD 12 0

/-- The partner's HELLO (R340): checks, key agreement, derivations, the receive association and FINISH. -/
def State.onHello (s : State) (t : TrunkPort) (payload : List Byte) : State :=
  let p := trunk t
  let s0 := if s.geode.agents[t].hello.isEmpty then s.sendHello t (payload.getD 13 0 == 1 && s.ports[p].adm == .admitted) else s
  let s1 := s0.modAgent t fun a => { a with peerHello := payload }
  let a := s1.geode.agents[t]
  let peer : HubId := BitVec.ofNat 64 (leNat (slice payload 4 8))
  let f := a.fleet peer
  let eph := a.eph.getD 255
  let q := slice payload 48 96
  if peer ≠ s1.partnerId p then s1.sendFail t 2
  else
    let s2 := s1.readSlot f
    if !s2.fleetUsable f then s2.sendFail t 1
    else if !Config.ecValid q then s2.sendFail t 4
    else
      let kZ := s2.freePool
      let z := fixLen 48 (Config.ecdh (s2.slot eph).live.value q)
      let s3 := (s2.createKey kZ (s2.agentAttr [5] 0 1) none z).zeroKey eph
      let lh := a.ordered peer
      let lo := if Config.hubId.toNat < peer.toNat then Config.hubId else peer
      let hi := if Config.hubId.toNat < peer.toNat then peer else Config.hubId
      let ctx := ascii [0x4C, 0x49, 0x4E, 0x4B] ++ idBytes lo ++ idBytes hi ++ slice lh.1 16 32 ++ slice lh.2 16 32
      let sa := s3.freeSa p
      let s4 := (s3.deriveLinkKeys t kZ ctx lo hi sa).zeroKey kZ
      let mac := hmac384 (s4.slot f).live.value (lh.1 ++ lh.2 ++ idBytes Config.hubId ++ [sa])
      s4.sendKey t (keyHead 2 ++ idBytes Config.hubId ++ [sa, 0, 0, 0] ++ mac)

/-- The partner is verified: the own key is installed as transmit under the number it chose; in a rekey
transmission moves to it and the old one and its slot go (R340, R342). -/
def State.installTx (s : State) (t : TrunkPort) (sa : BitVec 8) : State :=
  let p := trunk t
  match s.geode.agents[t].txKey with
  | none => s
  | some k =>
    let old := (s.assocsOf p true).filter fun a => !a.stopped
    let s1 := (s.installAssoc p true sa k).modAgent t fun x => { x with txKey := none }
    s1.over old fun s a => (s.retireAssoc p true a.sa).zeroKey a.slot

end Sys2Proof.Machine
end

