-- ==== Sys2Proof/Machine/Link.lean ====
section
/-! DEFINITION. Machine/Link.lean: the operations over lanes and ports that the link meanings share:
lane sets and widths (R101, R102), credit resynchronisation (R229), going down and link loss (R96,
R103), bring-up (Table CPL-1) and capability checks (R100). -/

namespace Sys2Proof.Machine

/-! ## Lanes -/

/-- A lane's receiver is at fault: LOS, LOL or no block lock (R101). -/
def Lane.faulty (x : Lane) : Bool := x.los || x.lol || x.lock != .locked

/-- A lane's receiver adapts its CTLE: it has lock, which R79 and R80 ask for. -/
def State.adapting (s : State) (l : LaneIx) : Bool := s.lanes[l].lock == .locked

/-- The CTLE code of a lane stays as the adaptation leaves it (R79). -/
def State.holdCtle (s : State) (l : LaneIx) : State :=
  if s.adapting l then s.setFld (Reg.LANE_EQ l.val) 4 0 (Config.ctleCode l.val s.heads) else s

/-- The transmit cursors of a lane, pre and post; the main cursor takes the rest of 63 steps (R78). -/
def State.cursors (s : State) (l : LaneIx) : Nat × Nat × Nat :=
  let a := s.fld (Reg.LANE_EQ l.val) 8 5
  let b := s.fld (Reg.LANE_EQ l.val) 13 9
  (a, 63 - a - b, b)

/-- The least and the greatest ten-thousandth part of the main cursor that a level of Table LAN-5, in tenths of a dB, leaves within
its tolerance of 0.5 dB (R78; DEDUCED, log 78). -/
def levelBounds (tenths : Nat) : Nat × Nat :=
  match tenths with
  | 15 => (7943, 8913)
  | 20 => (7499, 8414)
  | 25 => (7079, 7943)
  | 30 => (6683, 7499)
  | 35 => (6310, 7079)
  | 40 => (5957, 6683)
  | 50 => (5309, 5957)
  | 60 => (4732, 5309)
  | 70 => (4217, 4732)
  | 90 => (3350, 3758)
  | _ => (10000, 10000)

/-- c steps beside a main cursor of m steps give a level within its tolerance. -/
def levelOk (tenths c m : Nat) : Bool :=
  let (lo, hi) := levelBounds tenths
  decide (c ≤ m ∧ lo * m ≤ 10000 * (m - c) ∧ 10000 * (m - c) ≤ hi * m)

/-- The levels of a preset in tenths of a dB: pre-cursor, post-cursor (Table LAN-5). -/
def presetLevels (preset : Nat) : Nat × Nat :=
  match preset with
  | 1 => (0, 20)
  | 2 => (0, 40)
  | 3 => (0, 60)
  | 4 => (15, 35)
  | 5 => (20, 50)
  | 6 => (25, 70)
  | 7 => (30, 90)
  | _ => (0, 0)

/-- The cursor steps that give a preset within its tolerance (R78). -/
def presetPairs (preset : Nat) : List (Nat × Nat) :=
  let (pre, post) := presetLevels preset
  (List.range 16).flatMap fun a => ((List.range 32).filter fun b =>
    levelOk pre a (63 - a - b) && levelOk post b (63 - a - b)).map fun b => (a, b)

/-- The cursors of a lane start from a preset; which of the steps within its tolerance they take is free (R78). -/
def State.usePreset (s : State) (l : LaneIx) (preset : Nat) : State :=
  let ps := presetPairs preset
  let ab := ps.getD (s.free % ps.length) (0, 0)
  (s.drawn.setFld (Reg.LANE_EQ l.val) 8 5 ab.1).setFld (Reg.LANE_EQ l.val) 13 9 ab.2

/-- The preset in use of a lane. -/
def State.lanePreset (s : State) (l : LaneIx) : Nat := s.fld (Reg.LANE_CFG_ACT l.val) 4 2

/-- A local port runs the rate of its last consistent pair of mode and rate (R91, R299). -/
def State.rateHeld (s : State) (p : LinkPort) : Bool := s.laneRate (laneAt p 0) == s.ports[p].rate.toNat

/-- A lane is healthy for transmission: trained, not parked, not named by FLT, in no loop (R85, R101). -/
def State.laneHealthy (s : State) (p : LinkPort) (i : Nat) : Bool :=
  let l := laneAt p i
  s.lanes[l].trained && !s.ports[p].parked.getLsbD i && s.lanes[l].fltAt.isNone && !s.loopActive l && !s.rateMix l

/-- A TRAIN block of a lane goes out, with its request, its answer and its readiness as they stand (Table LAN-3). -/
def State.sendTrain (s : State) (l : LaneIx) : State :=
  let x := s.lanes[l]
  s.emit (.train l (x.ask.extractLsb' 0 2) (x.ask.extractLsb' 2 2) (x.ask.extractLsb' 4 3) x.ackTx x.rxReady x.askSeq x.ackSeq)

/-- A lane is in TRAIN: found by detection, at its port's rate, and not yet ready on both sides (R79). -/
def State.inTrain (s : State) (l : LaneIx) : Bool :=
  let st := s.ports[s.portOfLane l].stage
  s.laneOn l && s.lanes[l].detected && !s.lanes[l].trained && !s.rateMix l && st != .down && st != .detect

/-- The lanes of a port that meet a test, as a mask. -/
def maskOf (n : Nat) (f : Nat → Bool) : BitVec 4 :=
  BitVec.ofNat 4 ((List.range n).foldl (fun a i => if f i then a + 2 ^ i else a) 0)

/-- Width from a number of healthy lanes (Table CPL-3). -/
def widthOf (n : Nat) : Nat := if 4 ≤ n then 4 else if 2 ≤ n then 2 else n

/-- The lowest-numbered lanes of a mask, as many as its width gives (R101). -/
def lowestLanes (m : BitVec 4) : BitVec 4 :=
  let ls := laneList m
  let keep := ls.take (widthOf ls.length)
  maskOf 4 keep.contains

/-- An alignment marker goes out on the transmit set, AMK_SEQ raised by one (R72, R102). -/
def State.sendAmk (s : State) (p : LinkPort) (scheduled : Bool) : State :=
  let s1 := s.modPort p fun x => { x with amkTx := x.amkTx + 1 }
  s1.emit (.amk p s1.ports[p].txLanes s1.ports[p].txWidth s1.ports[p].amkTx scheduled)

/-- The count of heads since which each lane of a port has stayed healthy (R102). -/
def State.noteHealth (s : State) (p : LinkPort) : State :=
  s.over (List.range (s.laneCount p)) fun s i =>
    let ok := s.laneHealthy p i
    s.modLane (laneAt p i) fun x =>
      { x with healthyAt := if ok then (match x.healthyAt with | some h => some h | none => some s.heads) else none }

/-! ## Credit (R227-R229) -/

/-- The credit sets of a port: trunk ports have the escape set too. -/
def creditSets (p : LinkPort) : List (Cls × Bool) :=
  (List.finRange 8).map (fun c => (c, false)) ++
    (if p.val < 4 then (List.finRange 8).map (fun c => (c, true)) else [])

/-- CRED blocks for every class and set of a port. -/
def State.sendAllCred (s : State) (p : LinkPort) : State :=
  s.over (creditSets p) fun s k => s.sendCred p k.1 k.2

/-- The counts at ACTIVE: U is 0 and nothing is granted yet; G is the reserve in force (R227, R228), less the cells that frames of an
earlier link still hold in it, for the credits granted never exceed the reserve (R171; DEDUCED, log 86). -/
def State.resetCredits (s : State) (p : LinkPort) : State :=
  s.over (creditSets p) fun s k => s.modCredit p k.1 k.2 fun x =>
    { x with g := BitVec.ofNat 20 (s.reserveOf p k.2 - s.reserveHeld p k.1 k.2), u := 0, count := 0, limit := none }

/-- The sender's side of a resynchronisation at an unscheduled AMK (R229). The CRED_RESYNC period runs anew from it, whatever its cause
(DESIGN CHOICE, log 87). -/
def State.resyncTx (s : State) (p : LinkPort) : State :=
  let s1 := s.over (creditSets p) fun s k => s.modCredit p k.1 k.2 fun x =>
    { x with limit := some x.available, u := 0 }
  (s1.modPort p fun x => { x with ignoring := true, resyncHead := s1.heads }).count Reg.DEP_CRED_RESYNC

/-- The receiver's side of a resynchronisation (R229). -/
def State.resyncRx (s : State) (p : LinkPort) : State :=
  let s1 := s.over (creditSets p) fun s k => s.modCredit p k.1 k.2 fun x =>
    { x with g := BitVec.ofNat 20 (s.reserveOf p k.2) - BitVec.ofNat 20 (s.reserveHeld p k.1 k.2) }
  (s1.sendAllCred p).count Reg.DEP_CRED_RESYNC

/-! ## Link loss and DOWN (R96, R103) -/

/-- A trunk counter of a port; local ports have none. -/
def State.countTrunk (s : State) (p : LinkPort) (r : Nat → Nat) : State :=
  if p.val < 4 then s.count (r p.val) else s

/-- The framing-error counter of a port (R60). -/
def State.countFraming (s : State) (p : LinkPort) : State :=
  if p.val < 4 then s.count (Reg.TRK_FRAMING_ERR p.val) else s.count (Reg.LOC_FRAMING_ERR (p.val - 4))

/-- A cut-through frame whose ingress ends it short: it is ended with an invalid block where it has begun,
and its cells are freed (R186). -/
def State.abortFrame (s : State) (id : Nat) : State :=
  let s1 := { s with cav := { s.cav with cutIn := s.cav.cutIn.filter fun y => y.2 != id } }
  match s1.cav.cutTx.find? (fun c => c.id == id) with
  | some c =>
    let s2 := { s1 with cav := { s1.cav with cutTx := s1.cav.cutTx.filter fun y => y.id != id } }
    ((s2.release id).emit (.abortFrame c.egress)).count Reg.CAV_CUT_ABORT
  | none => s1.over ((List.finRange 168).filter fun q => s1.cav.queues[q].refs.any fun r => r.id == id) fun s q => s.dropRef q id

/-- The cut-through frames that a local port is receiving end so. -/
def State.abortCut (s : State) (n : LocalPort) : State :=
  s.over (s.cav.cutIn.filter fun x => x.1 == n) fun s x => s.abortFrame x.2

/-- No byte of a frame is kept for a port. -/
def State.emptyFrame (s : State) (p : LinkPort) : State := { s with line := { s.line with asm := vset s.line.asm p [], asmN := vset s.line.asmN p 0 } }

/-- A partial frame of a port is discarded as a framing error (R60). -/
def State.dropPartial (s : State) (p : LinkPort) : State :=
  if s.ports[p].inFrame then
    let s1 := (s.modPort p fun x => { x with inFrame := false }).countFraming p
    let s2 := s1.emptyFrame p
    match asLocal p with
    | some n => s2.abortCut n
    | none => s2
  else s

/-- Lane i of a port is lost inside a frame, where the port's stream runs over it (R60). -/
def State.dropOn (s : State) (p : LinkPort) (i : Nat) : State :=
  if s.ports[p].rxLanes.getLsbD i then s.dropPartial p else s

/-- The destriping of a port starts again: block 0 is expected, and nothing waits (R71). -/
def State.restripe (s : State) (p : LinkPort) : State :=
  let q := (List.range 4).foldl (fun q i => if lane0 p + i < 32 ∧ i < s.laneCount p then vset q (laneAt p i) [] else q) s.line.rxQ
  { s with line := { s.line with rxK := vset s.line.rxK p 0, rxQ := q } }

/-- The frame in progress on a port is abandoned as a lane leaves its transmit set (R102). A frame of this beat may still be in
progress: which, no command tells (log 79). -/
def State.abandonTx (s : State) (p : LinkPort) : State :=
  let cuts := s.cav.cutTx.filter fun c => c.egress == toEgress p
  if !cuts.isEmpty then
    s.over cuts fun s c =>
      (({ s with cav := { s.cav with cutTx := s.cav.cutTx.filter fun x => x.id != c.id } } : State).release c.id).countTrunk p
        Reg.TRK_DEGRADE_DISC
  else if p.val < 4 ∧ s.ports[p].txHead = some s.heads then
    if s.free % 2 = 1 then s.drawn.countTrunk p Reg.TRK_DEGRADE_DISC else s.drawn
  else s

/-- The lanes of a port forget their training (Table CPL-1). -/
def State.clearTraining (s : State) (p : LinkPort) : State :=
  s.over (List.range (s.laneCount p)) fun s i => s.modLane (laneAt p i) fun x => { x with trained := false, detected := false }

/-- Link loss of a port that had reached ACTIVE: counted; the hold window and the neighbour-dead timing
start; a local port discards its queues (R103, R193, R197). -/
def State.linkLoss (s : State) (p : LinkPort) : State :=
  if !s.ports[p].reached then s
  else
    let s1 := s.modPort p fun x =>
      { x with reached := false, lossHead := some s.heads, lossDead := false, coupledKept := x.coupled, fastTried := false, fastFailed := false }
    match asTrunk p with
    | some t => ((s1.lossQueues t).count (Reg.TRK_DOWN_COUNT t.val)).settle
    | none => s1.localDown p

/-- A port enters DOWN: a frame cut short is discarded as by a lost lock (R60; DESIGN CHOICE, log 122), link loss where it had reached
ACTIVE, lanes idle, nothing parked, not admitted; an Ethernet port has local fault until its lane locks (Table LAN-8). A loop that the partner asked for stays on a lane that holds its
lock: only a lane that goes down ends it (R83; DEDUCED, log 120). -/
def State.portDown (s : State) (p : LinkPort) : State :=
  let s0 := s.dropPartial p
  let s1 := match asLocal p with
    | some n => s0.abortCut n
    | none => s0
  let s2 := s1.linkLoss p
  let s3 := s2.modPort p fun x =>
    { x with
      stage := .down
      stageHead := s2.heads
      adm := .closed
      txLanes := 0, rxLanes := 0, txWidth := 0, rxWidth := 0
      parked := 0, refuse := 0, agreed := false
      caps := Vector.replicate 4 none
      discarding := false, echoReq := none, ignoring := false
      localFault := x.localFault || s2.isEth p
      retryHead := none, ownTx := [] }
  let s4 := match asTrunk p with
    | some t => s3.modAgent t fun a => { a with running := false, hello := [], peerHello := [], resume := [] }
    | none => s3
  s4.over (List.range (s4.laneCount p)) fun s i => s.modLane (laneAt p i) fun x =>
    { x with skew := none, remoteLoop := x.remoteLoop && x.lock == .locked, rxReady := false, txReady := false, tseq := none, dropped := false }

/-- The port stands or may stand out of DOWN: enabled, its lowest lane's domain on, its reference
present, in a mode that uses Torvisk Link at the rate of its last consistent pair, and not a member of a group (R91, R95, R299,
R444). -/
def State.portEnabled (s : State) (p : LinkPort) : Bool :=
  s.laneOn (laneAt p 0) &&
    (if p.val < 4 then s.bit (Reg.TRK_CFG p.val) 0 && s.bit Reg.GLB_REFCLK p.val
     else s.bit Reg.GLB_REFCLK 4 && s.isTvl p && !s.isMember p.val && s.rateHeld p)

/-- A stage begins. -/
def State.toStage (s : State) (p : LinkPort) (st : Stage) : State :=
  s.modPort p fun x => { x with stage := st, stageHead := s.heads }

/-! ## Widths (R101) -/

/-- ACTIVE and DEGRADED follow the widths of both directions, and receive width 0 takes the port DOWN in the next cycle: the earlier
row of Table CPL-1 acts first (R96). -/
def State.evalWidth (s : State) (p : LinkPort) : State :=
  let x := s.ports[p]
  let low := decide (x.rxWidth < x.fullWidth) || decide (x.txWidth < x.fullWidth)
  let s1 := if x.stage == .active && low then (s.toStage p .degraded).countTrunk p Reg.TRK_DEGRADE_COUNT
    else if x.stage == .degraded && !low then (s.toStage p .active).reservesInForce p
    else s
  if (x.stage == .active || x.stage == .degraded) && x.rxWidth == 0 then s1.portDown p else s1

/-- The transmit set loses the lanes that are no longer healthy: the frame in progress is abandoned, in the next slot an
unscheduled AMK goes out on the new set, and an ACTIVE port's counts are resynchronised (R102, R229). -/
def State.txDrop (s : State) (p : LinkPort) : State :=
  let x := s.ports[p]
  let left := lowestLanes (maskOf 4 fun i => x.txLanes.getLsbD i && s.laneHealthy p i)
  if left = x.txLanes || x.stage == .down || x.stage == .detect || x.stage == .train then s
  else
    let gone := (laneList x.txLanes).filter fun i => !left.getLsbD i
    let s1 := (s.over gone fun s i => s.modLane (laneAt p i) fun y => { y with dropped := true }).abandonTx p
    let s2 := s1.modPort p fun x => { x with txLanes := left, txWidth := (laneList left).length }
    let s3 := if left = 0 then s2 else s2.sendAmk p false
    let s4 := if left = 0 || !s.portUp p then s3 else s3.resyncTx p
    s4.evalWidth p

/-- A receive fault of lane i: nothing of the port's stream is kept until the next AMK on a new set; where
every lane of the announced set fails, or stands out of the port, the receive width is 0 at once (R55, R85, R101, R102; DEDUCED for the
lanes that stand out, log 121). -/
def State.rxFault (s : State) (p : LinkPort) (i : Nat) : State :=
  let x := s.ports[p]
  if !(x.stage == .active || x.stage == .degraded) || !x.rxLanes.getLsbD i then s
  else if (laneList x.rxLanes).all fun j => (s.lanes[laneAt p j]).faulty || s.laneOut (laneAt p j) then
    (s.modPort p fun y => { y with rxWidth := 0 }).evalWidth p
  else s.modPort p fun y => { y with discarding := true }

/-- An Ethernet port has no good reception: it leaves ACTIVE with local fault, and sends remote fault while that holds (R197, Table
LAN-8). -/
def State.ethDown (s : State) (p : LinkPort) : State :=
  match asLocal p with
  | none => s
  | some n =>
    let s1 := if s.ports[p].localFault then s else s.emit (.remoteFault n)
    let s2 := s1.modPort p fun x => { x with localFault := true }
    if s.ports[p].stage == .active then
      ((s2.abortCut n).modPort p fun x => { x with stage := .down, stageHead := s2.heads, reached := false }).localDown p
    else s2

/-- A lane goes down for reception: its port answers, and a loop the partner asked for is removed (R60,
R83, R101). An Ethernet port shows a local fault and holds nothing (R197). -/
def State.laneLost (s : State) (l : LaneIx) : State :=
  let p := s.portOfLane l
  let s1 := s.modLane l fun x => { x with remoteLoop := false, skew := none, rxReady := false }
  if s1.isEth p then s1.ethDown p else (s1.dropOn p (s1.laneIndex l)).rxFault p (s1.laneIndex l)

/-! ## Bring-up (Table CPL-1, R100, R105) -/

/-- The record this hub sends in CAPX on a port (Table LAN-3): its rate, all three rates, its lanes, and what R1 to R17 say of the
hub. The key slot is the one KEY_CFG names (R107). -/
def State.ownCap (s : State) (p : LinkPort) : CapRecord :=
  { rate := BitVec.ofNat 2 (s.laneRate (laneAt p 0)), rates := 7
    lanes := BitVec.ofNat 3 (widthOf (laneList s.ports[p].leftLock).length)
    backbone := if p.val < 4 then BitVec.ofNat 1 (p.val / 2) else 0
    carEnd := if p.val < 4 then BitVec.ofNat 1 (p.val % 2) else 0
    seat := BitVec.ofNat 2 (s.fld Reg.BOOT_STRAPS_EFF 7 6), role := BitVec.ofNat 2 (s.fld Reg.BEAT_ROLE 9 8)
    cl := BitVec.ofNat 8 (s.fld Reg.GLB_CL_ACTIVE 7 0), keySlot := BitVec.ofNat 8 s.fleetSlot
    sat := false, id := Config.hubId }

/-- The own record goes out on every lane of a port in CAPX (R64). -/
def State.sendCap (s : State) (p : LinkPort) : State := s.emit (.cap p s.ports[p].leftLock (s.ownCap p))

/-- Fast return is allowed on leaving DOWN (R105). -/
def State.fastReturn (s : State) (p : LinkPort) : Bool :=
  let x := s.ports[p]
  decide (p.val < 4) && s.bit (Reg.TRK_CFG p.val) 10 && x.lossHead.isSome && x.coupledKept && !x.fastFailed &&
    x.leftLock != 0 && (laneList x.leftLock).all fun i => (s.lanes[laneAt p i]).trained

/-- LOCK begins: the transmit set is the lowest healthy lanes, and AMK goes out from here on (R72). -/
def State.enterLock (s : State) (p : LinkPort) : State :=
  let set := lowestLanes (maskOf (s.laneCount p) fun i => s.laneHealthy p i)
  (s.toStage p .lock).modPort p fun x => { x with txLanes := set, txWidth := (laneList set).length }

/-- CAPX begins with the deskewed lanes, from which full width follows (Table CPL-1). -/
def State.enterCapx (s : State) (p : LinkPort) (lanes : BitVec 4) : State :=
  ((s.toStage p .capx).modPort p fun x =>
    { x with
      leftLock := lanes
      fullWidth := widthOf (laneList lanes).length
      caps := Vector.replicate 4 none, agreed := false, refuse := 0 }).sendCap p

/-- A port faces another hub of its own car: by HUB_SEAT and the car end it faces (R100). -/
def intraCar (seat : Nat) (end1 : Bool) : Bool := (seat == 1 && end1) || (seat == 2 && !end1)

/-- HUB_SEAT in force. -/
def State.hubSeat (s : State) : Nat := s.fld Reg.BOOT_STRAPS_EFF 7 6

/-- The checks of Table CPL-2, in order: the reason of the first that fails, 0 where all pass. -/
def State.capCheck (s : State) (p : LinkPort) (r : CapRecord) : Nat :=
  let cl := r.cl.toNat
  if p.val < 4 then
    if r.backbone.toNat ≠ p.val / 2 then 1
    else if r.sat then 2
    else if r.id = Config.hubId then 3
    else if cl = 0 ∨ cl = 255 ∨ (cl ≠ s.fld Reg.GLB_CL_ACTIVE 7 0 ∧ s.bit (Reg.TRK_CFG p.val) 1) then 4
    else if intraCar s.hubSeat (p.val % 2 == 1) ≠ intraCar r.seat.toNat (r.carEnd == 1) then 5
    else 0
  else if !r.sat then 2
  else if r.id = Config.hubId then 3
  else if cl = 0 ∨ cl = 255 then 4
  else 0

end Sys2Proof.Machine
end

