-- ==== Sys2Proof/Machine/BeatOps.lean ====
section
/-! DEFINITION. Machine/BeatOps.lean: commit groups, their checks and their application (R39-R44, R203,
R207, R209, R211, R54), local port modes (R91, R94), and the choice of the timing port (R33, R36). -/

namespace Sys2Proof.Machine

/-! ## Commit groups (Table BEA-6) -/

/-- A listed group number. -/
def groupListed (g : Nat) : Bool :=
  decide (g ≤ 0x14) || decide (0x20 ≤ g ∧ g ≤ 0x34) || g == 0x40 || g == 0x41 || decide (0x50 ≤ g ∧ g ≤ 0x6F)

/-- Copies of words from one address range to another, n words of 4 bytes. -/
def State.copyRegs (s : State) (dst src : Nat → Nat) (n : Nat) : State :=
  s.over (List.range n) fun s i => s.setReg (dst i) (s.reg (src i))

/-- The checks of R209 on one rate set. -/
def rateSetOk (cir cbs pir pbs : Nat) : Bool :=
  !(cir != 0 && decide (cbs < 9252)) && !(pir != 0 && decide (pbs < 9252)) && decide (cir ≤ pir) && decide (cbs ≤ pbs)

/-- A class's shaper shadow passes R209. -/
def State.shaperOk (s : State) (p c : Nat) : Bool :=
  rateSetOk (s.reg (Reg.SCHED_CIR p c)).toNat (s.reg (Reg.SCHED_CBS p c)).toNat
    (s.reg (Reg.SCHED_PIR p c)).toNat (s.reg (Reg.SCHED_PBS p c)).toNat

/-- The durations of the entries of a gate list shadow below NENT. -/
def State.gateDurs (s : State) (p : Nat) : List Nat :=
  (List.range (s.fld (Reg.SCHED_GL_CFG p) 7 0)).map fun i => s.fld (Reg.SCHED_GL_ENT p i) 23 8

/-- A gate list shadow passes R203. -/
def State.gateOk (s : State) (p : Nat) : Bool :=
  let n := s.fld (Reg.SCHED_GL_CFG p) 7 0
  let cyc := s.fld (Reg.SCHED_GL_CFG p) 14 8
  decide (1 ≤ n ∧ n ≤ 128 ∧ 1 ≤ cyc ∧ cyc ≤ 64) &&
    (let ds := s.gateDurs p; ds.all (fun d => d != 0) && ds.sum == cyc * 6250)

/-- The class-default shadow of class c passes R209. -/
def State.classDefaultOk (s : State) (c : Nat) : Bool :=
  rateSetOk (s.reg (Reg.POL_CD_CIR c)).toNat (s.reg (Reg.POL_CD_CBS c)).toNat
    (s.reg (Reg.POL_CD_PIR c)).toNat (s.reg (Reg.POL_CD_PBS c)).toNat

/-- The owning block's check of a group's shadow (INVALID of Table BEA-7). -/
def State.groupOk (s : State) (g : Nat) : Bool :=
  if g ≤ 0x14 then s.gateOk g
  else if 0x20 ≤ g ∧ g ≤ 0x34 then (List.range 8).all fun c => s.shaperOk (g - 0x20) c
  else if g = 0x40 then s.sched.profShadow.all fun p =>
    rateSetOk p.2.cir.toNat p.2.cbs.toNat p.2.pir.toNat p.2.pbs.toNat
  else if g = 0x41 then (List.range 8).all s.classDefaultOk
  else s.fld (Reg.LANE_CFG (g - 0x50)) 1 0 != 3

/-- The shadow and active words of a group that shadowing keeps in registers. -/
def groupWords (g : Nat) : List (Nat × Nat) :=
  if g ≤ 0x14 then
    (Reg.SCHED_GL_CFG g, Reg.SCHED_GL_CFG_ACT g) ::
      (List.range 128).map fun i => (Reg.SCHED_GL_ENT g i, Reg.SCHED_GL_ENT_ACT g i)
  else if 0x20 ≤ g ∧ g ≤ 0x34 then
    (List.range 8).flatMap fun c => (List.range 5).map fun k =>
      (Reg.SCHED_CIR (g - 0x20) c + 4 * k, Reg.SCHED_CIR_ACT (g - 0x20) c + 4 * k)
  else if g = 0x41 then
    (List.range 8).flatMap fun c => (List.range 4).map fun k => (Reg.POL_CD_CIR c + 4 * k, Reg.POL_CD_CIR_ACT c + 4 * k)
  else if g = 0x40 then []
  else [(Reg.LANE_CFG (g - 0x50), Reg.LANE_CFG_ACT (g - 0x50))]

/-- A group's shadow differs from its active values (R44). -/
def State.groupDiffers (s : State) (g : Nat) : Bool :=
  (groupWords g).any (fun w => s.reg w.1 != s.reg w.2) || (g == 0x40 && s.sched.profShadow != s.sched.profActive)

/-- The active words of a group take the shadow's. -/
def State.copyGroup (s : State) (g : Nat) : State := s.over (groupWords g) fun s w => s.setReg w.2 (s.reg w.1)

/-- A gate list takes over: its anchor is the beat given, and no frame starts during the first 560 CCLK
of this head (R207). -/
def State.takeGates (s : State) (p : EgressPort) (anchor : Nat) : State :=
  let s1 := (s.copyGroup p.val).setReg48 (Reg.SCHED_GL_ANCHOR_LO p.val) anchor
  { s1 with sched := { s1.sched with takeoverHead := vset s1.sched.takeoverHead p (some s1.heads) } }

/-- A class of a shaper set whose rates change gets its tokens by its new RESET_MODE and a deficit of 0
(R211). -/
def State.resetClass (s : State) (p c : Nat) : State :=
  let same (k : Nat) : Bool := s.reg (Reg.SCHED_CIR p c + 4 * k) == s.reg (Reg.SCHED_CIR_ACT p c + 4 * k)
  if same 0 && same 1 && same 2 && same 3 then s
  else
    let zero := s.bit (Reg.SCHED_RESET_MODE p c) 0
    ((s.setRegN (Reg.SCHED_CTOK p c) (if zero then 0 else (s.reg (Reg.SCHED_CBS p c)).toNat * 256)).setRegN
      (Reg.SCHED_PTOK p c) (if zero then 0 else (s.reg (Reg.SCHED_PBS p c)).toNat * 256)).setRegN (Reg.SCHED_DEFICIT p c) 0

/-- A shaper set applies (R211). -/
def State.takeShapers (s : State) (p : Nat) : State :=
  (s.over (List.range 8) fun s c => s.resetClass p c).copyGroup (0x20 + p)

/-! ## Local port modes and groups (R91, R94) -/

/-- A mode agrees with a lane rate (R91). -/
def modeRateOk (mode rate : Nat) : Bool := if mode = 2 then rate == 0 else if mode = 3 then rate == 1 else true

/-- The LOC_MODE of all four ports of a group ask for TVL, with which every lane rate agrees (R91, R94, Table REG-5). -/
def State.allTvl (s : State) (m : Nat) : Bool := (List.range 4).all fun i => s.fld (Reg.LOC_MODE (4 * m + i)) 1 0 == 1

/-- A lane comes up from scratch: no training, no lock, no eye (R54, R91). -/
def State.laneScratch (s : State) (l : LaneIx) : State :=
  ((s.holdCtle l).modLane l fun x =>
    { x with trained := false, detected := false, skew := none, tseq := none, rxReady := false, txReady := false
             lock := if x.lock == .locked then .hunt else x.lock
             count := 0, errors := 0, window := 0, ebuf := 0, eyeNow := false }).setFld (Reg.LANE_EYE l.val) 17 17 0

/-- The mode a local port is to run: the one written, but TVL where its group holds, for the last consistent set of bonding and modes
stays in force while they disagree (R94, R299). -/
def State.modeDue (s : State) (n : LocalPort) : Nat := if s.bonded (n.val / 4) then 1 else s.fld (Reg.LOC_MODE n.val) 1 0

/-- A local port runs the mode it is to run where that agrees with the active rate of its lane; else it keeps the last consistent pair of
mode and rate (R91, R299). A mode change stops the port and brings it up from scratch. -/
def State.takeMode (s : State) (n : LocalPort) : State :=
  let p := loc n
  let l := laneAt p 0
  let mode := s.modeDue n
  let rate := s.laneRate l
  if !modeRateOk mode rate then s
  else
    let s1 := s.modPort p fun x => { x with rate := BitVec.ofNat 2 rate }
    if s1.ports[p].modeAct.toNat = mode then s1
    else
      let s2 := (s1.portDown p).modPort p fun x =>
        { x with modeAct := BitVec.ofNat 2 mode, localFault := decide (2 ≤ mode), reached := false }
      let s3 := s2.laneScratch l
      if 2 ≤ mode then s3.usePreset l (s3.lanePreset l) else s3

/-- Bonding follows BOND where all four ports of every requested group are in TVL mode; else the last consistent bonding stays (R94,
R299). Ports whose bonding changes pass through DOWN, and those that leave a group run the mode written for them. -/
def State.evalBond (s : State) : State :=
  let want := s.fld Reg.LOC_GROUP 3 0
  let cur := s.fld Reg.LOC_GROUP 7 4
  let ok := (List.range 4).all fun m => want / 2 ^ m % 2 == 0 || s.allTvl m
  let new := if ok then want else cur
  let moved (n : LocalPort) : Bool := new / 2 ^ (n.val / 4) % 2 != cur / 2 ^ (n.val / 4) % 2
  let s1 := s.over ((List.finRange 16).filter moved) fun s n => s.portDown (loc n)
  let s2 := (s1.setFld Reg.LOC_GROUP 7 4 new).setBit Reg.LOC_GROUP 8 (!ok)
  s2.over ((List.finRange 16).filter moved) State.takeMode

/-- A member of the sets of a local port has changed: its mode, then the bonding (R91, R94). -/
def State.evalMode (s : State) (n : LocalPort) : State := (s.takeMode n).evalBond

/-! ## Checked sets (R298, R299) -/

/-- The queue of an index. -/
def qIx (n : Nat) : QueueIx := ⟨n % 168, Nat.mod_lt _ (by decide)⟩

/-- CAV_Q_SPILL or CAV_Q_DROP written: an agreeing pair is taken; on TC4-TC7 SPILL is ignored (R175). -/
def State.pairWritten (s : State) (q : QueueIx) : State :=
  let spill := s.reg (Reg.CAV_Q_SPILL q.val)
  let drop := s.reg (Reg.CAV_Q_DROP q.val)
  if 4 ≤ q.val % 8 then s.modQueue q fun x => { x with dropAct := drop.setWidth 24 }
  else if bitsOf spill 23 0 ≤ bitsOf drop 23 0 then
    s.modQueue q fun x => { x with spillAct := spill.setWidth 24, dropAct := drop.setWidth 24 }
  else s

/-- An address is that of a reserve or a MIN, which R172 checks together. -/
def isReserve (a : Nat) : Bool :=
  (decide (Reg.CAV_CRED_RES 0 ≤ a) && decide (a < Reg.CAV_CRED_RES 4)) ||
  (decide (Reg.CAV_CRED_RES_L 0 ≤ a) && decide (a < Reg.CAV_CRED_RES_L 16)) ||
  a == Reg.CAV_Q_MIN (qIx ((a - 0xA1000) / 0x20)).val

/-- A block evaluates its checked set anew at a write to a member of it: the bonding, a local port's mode, the reserves, the thresholds of
a queue (Table REG-5). Those of the lanes have their own evaluation. -/
def State.evaluate (s : State) (a : Nat) : State :=
  let n : LocalPort := ⟨(a - 0x50100) / 0x100 % 16, Nat.mod_lt _ (by decide)⟩
  let q := qIx ((a - 0xA1000) / 0x20)
  if a = Reg.LOC_GROUP then s.evalBond
  else if a = Reg.LOC_MODE n.val then s.evalMode n
  else if isReserve a then s.takeReserves
  else if a = Reg.CAV_Q_SPILL q.val ∨ a = Reg.CAV_Q_DROP q.val then s.pairWritten q
  else s

/-! ## Lane groups (R54) -/

/-- A port in TRAIN none of whose lanes trains any more goes back to DETECT with them (R54; DEDUCED, log 123). -/
def State.redetect (s : State) (p : LinkPort) : State :=
  if s.ports[p].stage == .train && !(List.range (s.laneCount p)).any fun i => s.lanes[laneAt p i].trained || s.inTrain (laneAt p i) then
    (s.toStage p .detect).emit (.detect p)
  else s

/-- A lane is brought up again: it leaves its port and returns to DETECT (R54). An Ethernet lane detects and trains nothing: it starts
from its preset (R80, R92). -/
def State.restartLane (s : State) (l : LaneIx) : State :=
  let p := s.portOfLane l
  let s1 := s.laneScratch l
  if s1.isEth p then (s1.usePreset l (s1.lanePreset l)).ethDown p
  else (((s1.dropOn p (s1.laneIndex l)).txDrop p).rxFault p (s1.laneIndex l)).redetect p

/-- A lane group commit applies: a rate or preset other than the one in use restarts the lane (R54), and the set of a local port's mode
and rate is evaluated (R91, R298). -/
def State.takeLane (s : State) (l : LaneIx) : State :=
  let sh := s.reg (Reg.LANE_CFG l.val)
  let act := s.reg (Reg.LANE_CFG_ACT l.val)
  let s1 := s.setReg (Reg.LANE_CFG_ACT l.val) sh
  let s2 := if bitsOf sh 4 0 = bitsOf act 4 0 then s1 else s1.restartLane l
  if 16 ≤ l.val then s2.evalMode ⟨(l.val - 16) % 16, Nat.mod_lt _ (by decide)⟩ else s2

/-- A commit group applies at its step: gate lists with the anchor given, the others at step 2 (R43,
R207, R211, R216, R54). Applications of group 0x40 are counted with their beat (Table SCH-5). -/
def State.applyGroup (s : State) (g anchor : Nat) : State :=
  if h : g ≤ 0x14 then s.takeGates ⟨g, by omega⟩ anchor
  else if 0x20 ≤ g ∧ g ≤ 0x34 then s.takeShapers (g - 0x20)
  else if g = 0x40 then
    (({ s with sched := { s.sched with profActive := s.sched.profShadow } } : State).count Reg.SCHED_PLANS).setReg48
      Reg.SCHED_PLAN_BEAT_LO s.beatNum.toNat
  else if g = 0x41 then s.copyGroup 0x41
  else s.takeLane ⟨(g - 0x50) % 32, Nat.mod_lt _ (by decide)⟩

/-! ## Commits (R39-R42) -/

/-- The pending commit of a group. -/
def State.pendingCommit (s : State) (g : Nat) : Option Commit := s.beat.commits.find? fun c => c.group.toNat == g

/-- The outcome code of a commit request: the first failing check of R40. -/
def State.commitCode (s : State) (g target : Nat) : Nat :=
  let now := s.beatNum.toNat
  if !groupListed g then 7
  else if s.mode != .run then 10
  else if target < now + 2 then 2
  else if now + 2 ^ 32 < target then 3
  else if (s.pendingCommit g).isSome then 4
  else if 32 ≤ s.beat.commits.countP (fun c => c.target.toNat == target) then 5
  else if 256 ≤ s.beat.commits.length then 6
  else if !s.groupOk g then 8
  else 1

/-- The outcome code of a cancel. -/
def State.cancelCode (s : State) (g : Nat) : Nat :=
  if !groupListed g then 7
  else if s.mode != .run then 10
  else
    match s.pendingCommit g with
    | none => 9
    | some c => if c.target.toNat < s.beatNum.toNat + 2 then 2 else 1

/-- The target a master has written (R40). -/
def State.commitTarget (s : State) (m : Master) : Nat :=
  (s.reg (pmKey m Reg.BEAT_CMT_TGT_LO)).toNat + 2 ^ 32 * s.fld (pmKey m Reg.BEAT_CMT_TGT_HI) 15 0

/-- The outcome of a commit command stands in the master's BEAT_CMT_RESULT; refusals are counted (R41). -/
def State.commitResult (s : State) (m : Master) (g code : Nat) : State :=
  let s1 := s.setRegN (pmKey m Reg.BEAT_CMT_RESULT) (code + 16 * g)
  if code = 1 then s1 else s1.count Reg.BEAT_CMT_REFUSED

/-- A commit of group g at a target (R40). -/
def State.commitAt (s : State) (m : Master) (g target : Nat) : State :=
  let code := s.commitCode g target
  let c : Commit := { group := BitVec.ofNat 8 g, target := BitVec.ofNat 48 target, master := m }
  let s1 := if code = 1 then { s with beat := { s.beat with commits := s.beat.commits ++ [c] } } else s
  s1.commitResult m g code

/-- A cancel of group g (R40). -/
def State.cancelGroup (s : State) (m : Master) (g : Nat) : State :=
  let code := s.cancelCode g
  let s1 := if code = 1 then
      { s with beat := { s.beat with commits := s.beat.commits.filter fun c => c.group.toNat != g } } else s
  s1.commitResult m g code

/-- What a write of BEAT_CMT_CMD does (Table BEA-11). -/
def State.commitCommand (s : State) (m : Master) (w : Word) : State :=
  match bitsOf w 9 8 with
  | 1 => s.commitAt m (bitsOf w 7 0) (s.commitTarget m)
  | 2 => s.cancelGroup m (bitsOf w 7 0)
  | 3 => s.commitResult m (bitsOf w 7 0) 11
  | _ => s

/-- Every listed group, ascending. -/
def allGroups : List Nat := (List.range 0x70).filter groupListed

/-- The commits due at a beat leave the pending list; those of shapers, plans and lanes apply at step 2,
gate lists at step 3, each in ascending group order (R43, R207). -/
def State.applyDue (s : State) : State :=
  let due := s.beat.commits.filter fun c => c.target == s.beatNum
  let s1 := { s with beat := { s.beat with commits := s.beat.commits.filter fun c => c.target != s.beatNum } }
  let isDue (g : Nat) : Bool := due.any fun c => c.group.toNat == g
  let s2 := s1.over (allGroups.filter fun g => isDue g && decide (0x14 < g)) fun s g => s.applyGroup g 0
  s2.over (allGroups.filter fun g => isDue g && decide (g ≤ 0x14)) fun s g => s.applyGroup g s.beatNum.toNat

/-- A group whose shadow differs, at the first head of RUN. -/
def State.applyShadow (s : State) (g : Nat) : State :=
  if !s.groupDiffers g then s
  else if s.groupOk g then
    s.applyGroup g (if s.beat.shadowDirty.contains (BitVec.ofNat 8 g) then 0 else s.beatNum.toNat)
  else s.count Reg.BEAT_CMT_REFUSED

/-- The first head of RUN: every group whose shadow differs is checked as a commit and applied, or counted
in BEAT_CMT_REFUSED (R44). A gate list written before any beat counted has anchor 0 (R207). -/
def State.applyFirst (s : State) : State :=
  let s1 := s.over (allGroups.filter fun g => decide (0x14 < g)) State.applyShadow
  let s2 := s1.over (allGroups.filter fun g => decide (g ≤ 0x14)) State.applyShadow
  { s2 with beat := { s2.beat with firstRun := true, shadowDirty := [] } }

/-! ## Timing (R33, R36) -/

/-- An ACTIVE trunk port that carried a valid BEAT block for the boundary at hand. -/
def State.rxValid (s : State) (t : TrunkPort) : Bool :=
  match s.beat.rx[t] with
  | some r => decide (s.heads ≤ r.head + 1) && s.portActive (trunk t)
  | none => false

/-- The better of two trunk ports: lower HOPS, then the lower number. -/
def State.betterPort (s : State) (a b : Option TrunkPort) : Option TrunkPort :=
  match a, b with
  | none, x => x
  | x, none => x
  | some x, some y =>
    let h (t : TrunkPort) : Nat := ((s.beat.rx[t]).map (·.hops.toNat)).getD 64
    if h y < h x then some y else some x

/-- The timing port: the valid backbone A port with the lowest HOPS, else the backbone B port by the same
rule (R33). -/
def State.chooseTiming (s : State) : Option TrunkPort :=
  let v (t : TrunkPort) : Option TrunkPort := if s.rxValid t then some t else none
  match s.betterPort (v 0) (v 1) with
  | some t => some t
  | none => s.betterPort (v 2) (v 3)

/-- The hub keeps time from a timing port. -/
def State.tracking (s : State) : Bool :=
  s.beat.timing == .track ||
    (s.beat.timing == .stepPending && (s.beat.enteredFrom == .track || s.beat.enteredFrom == .holdover))

/-- How the own clock stands to the master's over one beat: -10 to +10 CCLK, a measurement that no rule computes (R28; a free value,
log 7). -/
def State.refStep (s : State) : Int := ((s.free % 21 : Nat) : Int) - 10

/-- The timing port for the beat that begins, HOPS and HOLD from it, and the slew of at most 8 CCLK toward the computed boundary (R33,
R36). A tracking hub's beat follows the master's clock too; outside tracking a beat lasts 50,000 CCLK (R28). -/
def State.retime (s : State) : State :=
  if s.tracking then
    let s1 := s.drawn
    match s.chooseTiming with
    | some t =>
      let r := (s.beat.rx[t]).getD { hops := 63, hold := false, head := 0 }
      let c : Int := max (-8) (min 8 (s.beat.err / 8))
      { s1 with beat := { s1.beat with
        timingPort := some t
        hops := if r.hops = 63 then 63 else r.hops + 1
        srcHold := r.hold
        err := s.beat.err - 8 * c
        length := (50000 + c + s.refStep).toNat } }
    | none => { s1 with beat := { s1.beat with length := (50000 + s.refStep).toNat } }
  else { s with beat := { s.beat with length := 50000 } }

end Sys2Proof.Machine
end

