-- ==== Sys2Proof/Machine/EchoOps.lean ====
section
/-! DEFINITION. Machine/EchoOps.lean: this hub's record, the consist view, the election, routes and the
dateline, what a hub sends in ECHO frames, and what follows from a change of the view (R110-R127, R156,
R469). -/

namespace Sys2Proof.Machine

/-! ## Records and the view -/

/-- PREF_SLOT of a word of TOPO_CFG: 127 acts as 0 (Table CPL-13). -/
def prefSlotOf (w : Word) : Nat := if bitsOf w 6 0 = 127 then 0 else bitsOf w 6 0

/-- PREF_SLOT. -/
def State.prefSlot (s : State) : Nat := prefSlotOf (s.reg Reg.TOPO_CFG)

/-- The hub's own slot for every rule that names it: the slot it holds, else PREF_SLOT (R142). -/
def State.ownSlot (s : State) : Nat := if s.mySlot = 0 then s.prefSlot else s.mySlot

/-- Role priority (Table BEA-2). -/
def State.rolePrio (s : State) : Nat := s.fld Reg.BEAT_ROLE 7 4

/-- The record of a hub that this hub keeps from others. -/
def State.recordOf (s : State) (i : HubId) : Option HubRecord := s.echo.records.find? fun r => r.id == i

/-- The slot of the neighbour on a trunk port: 0 until it holds one (R111). -/
def State.neighbourSlot (s : State) (t : TrunkPort) : BitVec 7 :=
  match s.ports[trunk t].partner with
  | some c => ((s.recordOf c.id).map (·.slot)).getD 0
  | none => 0

/-- This hub's record (Table CPL-7). -/
def State.ownRecord (s : State) : HubRecord :=
  { id := Config.hubId
    slot := BitVec.ofNat 7 s.mySlot
    prio := BitVec.ofNat 3 s.rolePrio
    carRole := BitVec.ofNat 2 (s.fld Reg.BOOT_STRAPS_EFF 1 0)
    seat := BitVec.ofNat 2 s.hubSeat
    sump := s.bit Reg.BOOT_STRAPS_EFF 5
    cl := BitVec.ofNat 8 (s.fld Reg.GLB_CL_ACTIVE 7 0)
    datelineOk := s.bit Reg.TOPO_CFG 7
    nb := Vector.ofFn s.neighbourSlot
    pst := Vector.ofFn fun t => s.ports[trunk t].pst
    prefSlot := BitVec.ofNat 7 s.prefSlot
    recSeq := s.echo.recSeq
    nbId := Vector.ofFn fun t => s.partnerId (trunk t) }

/-- The backbone a trunk port lies on. -/
def backboneB (t : TrunkPort) : Bool := decide (2 ≤ t.val)

/-- Port i of a hub and a port of another hub on the same backbone name each other, both with a PST that meets a test. -/
def linkBy (ok : BitVec 2 → Bool) (a b : HubRecord) (i : Fin 4) : Bool :=
  ok a.pst[i] && a.nbId[i] == b.id &&
    (List.finRange 4).any fun j => backboneB j == backboneB i && ok b.pst[j] && b.nbId[j] == a.id

/-- Two hubs are linked through port i of the first: both ends show ADMITTED and name each other (R111). -/
def linkAt (a b : HubRecord) (i : Fin 4) : Bool := linkBy (fun x => x == 2) a b i

/-- The same for a link over which flows stay pinned while a hold window runs: an end may show HOLD (R115). -/
def heldAt (a b : HubRecord) (i : Fin 4) : Bool := linkBy (fun x => x == 1 || x == 2) a b i

/-- Two hubs are linked. -/
def linked (a b : HubRecord) : Bool := (List.finRange 4).any fun i => linkAt a b i

/-- Two hubs are linked, or held. -/
def heldLink (a b : HubRecord) : Bool := (List.finRange 4).any fun i => heldAt a b i

/-- One more round of hubs reached through a link relation. -/
def reachStep (rel : HubRecord → HubRecord → Bool) (all reached : List HubRecord) : List HubRecord :=
  reached ++ all.filter fun r => !(reached.any fun x => x.id == r.id) && reached.any fun x => rel x r

/-- The hubs reached in n rounds. -/
def reachN (rel : HubRecord → HubRecord → Bool) (all : List HubRecord) : Nat → List HubRecord → List HubRecord
  | 0, r => r
  | n + 1, r => reachN rel all n (reachStep rel all r)

/-- The view: this hub and the hubs reachable through links (R111). -/
def State.view (s : State) : List HubRecord :=
  reachN linked s.echo.records s.echo.records.length [s.ownRecord]

/-- The hubs to which paths still lead: the view, and what hangs on it by a held link (R115). -/
def State.pinnedView (s : State) : List HubRecord :=
  reachN heldLink s.echo.records s.echo.records.length [s.ownRecord]

/-- The record of a hub in a view. -/
def seenIn (v : List HubRecord) (i : HubId) : Option HubRecord := v.find? fun r => r.id == i

/-- The lower pair (role priority, identity) (R30). -/
def lowerPair (a b : HubRecord) : Bool :=
  decide (a.prio.toNat < b.prio.toNat) || (a.prio == b.prio && decide (a.id.toNat < b.id.toNat))

/-- The hub of a view with the lowest pair (R30, R116). -/
def elect : List HubRecord → HubRecord → HubRecord
  | [], b => b
  | r :: rs, b => elect rs (if lowerPair r b then r else b)

/-- The identity that the election over the whole view gives. -/
def State.elected (s : State) : HubId := (elect s.view s.ownRecord).id

/-- The master this hub acts under: the one it has while that hub stays in its view, else the one the
election gives (R116). A hub of another consist in the view takes no role before the merge step (R123). -/
def State.actingMaster (s : State) : HubId :=
  let v := s.view
  if v.any (fun r => r.id == s.echo.master) then s.echo.master
  else
    let mine := v.filter fun r => s.echo.members.contains r.id
    (elect mine s.ownRecord).id

/-- A restart of Column 1 pauses the election, merge records and the derivation of routes: while it is halted, and for the
16 beats in which it rebuilds its view (R265). -/
def State.echoPaused (s : State) : Bool :=
  let c := s.eng.columns[(1 : ColumnIx)]
  c.loaded && (!(c.state == .running) || c.resumed.any fun h => decide (s.heads < h + 16))

/-! ## Rings (R127) -/

/-- Two hubs of a view are still connected when the links between them are taken away. -/
def otherPath (all : List HubRecord) (a b : HubRecord) : Bool :=
  let rel (x y : HubRecord) : Bool :=
    heldLink x y && !((x.id == a.id && y.id == b.id) || (x.id == b.id && y.id == a.id))
  (reachN rel all all.length [a]).any fun r => r.id == b.id

/-- Two hubs of a view are a joint of a ring. -/
def ringJoint (v : List HubRecord) (a b : HubRecord) : Bool := a.id != b.id && heldLink a b && otherPath v a b

/-- The hubs that lie on a ring; a held link keeps its ring until the window closes (R115). -/
def State.ringHubs (s : State) : List HubRecord :=
  let v := s.pinnedView
  v.filter fun a => v.any fun b => ringJoint v a b

/-- The dateline hub: the ring hub with DATELINE_OK and the lowest identity (R127). -/
def State.datelineHub (s : State) : Option HubId :=
  (s.ringHubs.filter (·.datelineOk)).foldl (fun a r => match a with
    | some i => if r.id.toNat < i.toNat then some r.id else some i
    | none => some r.id) none

/-- This hub is the dateline hub. -/
def State.isDateline (s : State) : Bool := s.datelineHub == some Config.hubId

/-- A joint of two hubs: the head at which its first link came up as this hub saw it, the ends in order of identity, and the lowest port
of the lower end that lies on it. -/
structure JointRank where
  head : Nat
  lower : HubId
  port : Nat
  other : HubId
deriving DecidableEq, Repr

/-- The rank of the joint of two hubs, the first having the lower identity. -/
def State.jointRank (s : State) (a b : HubRecord) : JointRank :=
  let ports := (List.finRange 4).filter fun i => heldAt a b i
  let heads := s.echo.newLinks.filterMap fun l =>
    if (l.1 == a.id && a.nbId[l.2.1] == b.id) || (l.1 == b.id && b.nbId[l.2.1] == a.id) then some l.2.2 else none
  { head := heads.foldl min (heads.headD 0), lower := a.id, port := (ports.headD 0).val, other := b.id }

/-- A joint closes its ring rather than another: it was admitted later; of two admitted in one beat its lower end has the lower
identity, or it lies on the lower port of that hub (R127). -/
def JointRank.closes (x y : JointRank) : Bool :=
  decide (y.head < x.head) || (x.head == y.head && (decide (x.lower.toNat < y.lower.toNat) ||
    (x.lower == y.lower && decide (x.port < y.port))))

/-- The closing joint of the ring of the view (R127). -/
def State.closingJoint (s : State) : Option JointRank :=
  let v := s.pinnedView
  let joints := v.flatMap fun a => (v.filter fun b => decide (a.id.toNat < b.id.toNat) && ringJoint v a b).map fun b => s.jointRank a b
  joints.foldl (fun m x => match m with
    | none => some x
    | some y => if x.closes y then some x else some y) none

/-- The joint that is cut: the closing joint of a ring that has no dateline hub (R127). -/
def State.cutJoint (s : State) : Option (HubId × HubId) :=
  if s.datelineHub.isSome then none else s.closingJoint.map fun x => (x.lower, x.other)

/-- The links between two hubs are cut. -/
def State.isCut (s : State) (a b : HubId) : Bool := s.cutJoint == some (a, b) || s.cutJoint == some (b, a)

/-- The ports of this hub on the closing joint of a ring without a dateline hub are cut (R127). -/
def State.cutRings (s : State) : State :=
  let own := s.ownRecord
  let cut := maskOf 4 fun i => (List.finRange 4).any fun t => t.val == i && s.isCut Config.hubId own.nbId[t] &&
    s.pinnedView.any fun r => heldAt own r t
  { s with echo := { s.echo with ringCut := cut } }

/-! ## Routes (R156) -/

/-- Two hubs are linked on one backbone, by a link that is not cut (R127); held links count (R115). -/
def State.linkedOn (s : State) (b : Bool) (x y : HubRecord) : Bool :=
  !s.isCut x.id y.id && (List.finRange 4).any fun i => backboneB i == b && heldAt x y i

/-- Rounds until a hub is reached from a set, none where it is not reached within n. -/
def distTo (rel : HubRecord → HubRecord → Bool) (all : List HubRecord) (target : HubId) : Nat → List HubRecord → Option Nat
  | 0, r => if r.any (fun x => x.id == target) then some 0 else none
  | n + 1, r =>
    if r.any (fun x => x.id == target) then some 0
    else (distTo rel all target n (reachStep rel all r)).map (· + 1)

/-- The distance to a hub through a trunk port, not through this hub again and not over a cut link. -/
def State.distVia (s : State) (t : TrunkPort) (target : HubId) : Option Nat :=
  let all := s.pinnedView.filter fun r => r.id != Config.hubId
  let own := s.ownRecord
  if s.echo.ringCut.getLsbD t.val then none
  else
    match all.find? (fun r => heldAt own r t) with
    | none => none
    | some n => distTo (s.linkedOn (backboneB t)) all target all.length [n]

/-- The port toward a hub on a backbone: the shorter way, ties to the lower port (DEDUCED, log 30). -/
def State.routeTo (s : State) (b : Bool) (target : HubId) : Option TrunkPort :=
  let p0 : TrunkPort := if b then 2 else 0
  let p1 : TrunkPort := if b then 3 else 1
  match s.distVia p0 target, s.distVia p1 target with
  | none, none => none
  | some _, none => some p0
  | none, some _ => some p1
  | some x, some y => if y < x then some p1 else some p0

/-- The route table derived afresh from the view, flows toward a held link staying pinned to it (R115, R156), or later where Column 1
restarts (R265). -/
def State.deriveRoutes (s : State) : State :=
  if s.echoPaused then { s with tun := { s.tun with routesDue := true } }
  else
  let rows := (s.pinnedView.filter fun r => r.id != Config.hubId && r.slot != 0).map fun r =>
    ({ slot := r.slot, a := s.routeTo false r.id, b := s.routeTo true r.id } : Route)
  { s with tun := { s.tun with routes := rows, routesDue := false } }

/-! ## ECHO frames (R110, R469) -/

/-- The announcement of a hub that holds none (R469). -/
def State.noAnn (s : State) : Announcement :=
  { annSeq := 0, moveBeat := 0, nextMaster := 0, pepNext := s.pep, epochBeat := 0, assigns := [] }

/-- The announcement this hub holds, an empty one where it holds none. -/
def State.annOr (s : State) : Announcement := s.echo.ann.getD s.noAnn

/-- The announced raise still lies ahead. -/
def State.raiseAhead (s : State) : Bool :=
  s.annOr.epochBeat != 0 && decide (s.beatNum.toNat < s.annOr.epochBeat.toNat)

/-- The merges held, the first one first. -/
def State.merges (s : State) : List Merge := s.echo.merge.toList ++ s.echo.more

/-- The merges held from now on. -/
def State.setMerges (s : State) (l : List Merge) : State := { s with echo := { s.echo with merge := l.head?, more := l.drop 1 } }

/-- What this hub says in an ECHO frame: the announcement of its master as it holds it, none while its list is still to come, the
records of its view, and a merge record with its assignments (R110, R123, R469). PEP[7:4] equals PEP[3:0] where no raise lies ahead. -/
def State.echoPayload (s : State) (change : Bool) (m : Option Merge) : EchoPayload :=
  let a := if s.annOr.listDue && m.isNone then s.noAnn else s.annOr
  let v := s.view.take 64
  { ver := 1, change := change
    viewSeq := BitVec.ofNat 16 (s.fld Reg.TOPO_VIEW_SEQ 15 0)
    senderId := Config.hubId
    senderSlot := BitVec.ofNat 7 s.mySlot
    pep := s.pep, pepNext := if s.raiseAhead then a.pepNext else s.pep, epochBeat := a.epochBeat
    n := BitVec.ofNat 16 v.length
    masterId := s.echo.master
    moveBeat := a.moveBeat, annSeq := a.annSeq, nextMasterId := a.nextMaster
    merge := m.map (·.record)
    hubs := v
    assigns := match m with | some m => m.assigns | none => a.assigns }

/-- An ECHO frame goes out on an admitted port, one for each merge held (R110, R123). -/
def State.sendEcho (s : State) (t : TrunkPort) (change : Bool) : State :=
  if s.ports[trunk t].adm != .admitted || !s.portUp (trunk t) then s
  else
    let ms : List (Option Merge) := if s.merges.isEmpty then [none] else s.merges.map some
    s.over ms fun s m =>
      let e := s.echoPayload change m
      s.sendOwn t (s.linkFrame kindEcho e.bytes)

/-- ECHO frames on every admitted port. -/
def State.sendEchoAll (s : State) (change : Bool) : State := s.over (List.finRange 4) fun s t => s.sendEcho t change

/-! ## What the master does (R116, R118, R120) -/

/-- The master changes its announcement: ANN_SEQ rises by one at each change (R469). -/
def State.announce (s : State) (f : Announcement → Announcement) : State :=
  let a := s.annOr
  let b := f a
  if b = a then s else { s with echo := { s.echo with ann := some { b with annSeq := a.annSeq + 1 } } }

/-- The master announces a raise 16 beats ahead; changes that fall due before it share it (R117, R118). -/
def State.announceRaise (s : State) : State :=
  if s.echo.master ≠ Config.hubId || s.raiseAhead then s
  else s.announce fun a => { a with pepNext := s.pep + 1, epochBeat := s.beatNum + 16 }

/-- The lowest slot from 1 that is in no list. -/
def lowestSlot (used : List Nat) : Nat := ((List.range 126).map (· + 1)).find? (fun k => !used.contains k) |>.getD 0

/-- The hub with the lowest pair of a list. -/
def firstOf : List HubRecord → Option HubRecord
  | [] => none
  | r :: rs => some (elect rs r)

/-- Slots for hubs without one: PREF_SLOT where it is free, else the lowest free slot, in ascending order
of (role priority, identity) (R120). -/
def assignSlots : Nat → List HubRecord → List Nat → List SlotAssign
  | 0, _, _ => []
  | n + 1, need, used =>
    match firstOf need with
    | none => []
    | some r =>
      let p := r.prefSlot.toNat
      let k := if p ≠ 0 ∧ p ≠ 127 ∧ !used.contains p then p else lowestSlot used
      { id := r.id, slot := BitVec.ofNat 7 k } :: assignSlots n (need.filter fun x => x.id != r.id) (k :: used)

/-- The slots in use among hubs. -/
def slotsUsed (v : List HubRecord) : List Nat := (v.map (·.slot.toNat)).filter (· != 0)

/-- A hub is forming (R124). -/
def State.forming (s : State) : Bool := s.bit Reg.TOPO_STATUS 27

/-- The slot of an assignment list for this hub. -/
def mySlotIn (l : List SlotAssign) : Option (BitVec 7) := (l.find? fun a => a.id == Config.hubId).map (·.slot)

/-- A slot is adopted. -/
def State.adoptSlot (s : State) (k : BitVec 7) : State := s.setFld Reg.TOPO_STATUS 6 0 k.toNat

/-- During formation the master assigns slots to hubs of its own consist without one, and takes its own at
once (R120). -/
def State.assignWhileForming (s : State) : State :=
  let mine := s.view.filter fun r => s.echo.members.contains r.id
  let need := mine.filter fun r => r.slot == 0 && !(s.annOr.assigns.any fun a => a.id == r.id)
  if s.echo.master ≠ Config.hubId || !s.forming || need.isEmpty then s
  else
    let l := assignSlots need.length need (slotsUsed mine ++ s.annOr.assigns.map (·.slot.toNat))
    let s1 := s.announce fun a => { a with assigns := a.assigns ++ l }
    match mySlotIn l with
    | some k => s1.adoptSlot k
    | none => s1

/-- A port of a record changed its path: a window closed without a return, or its neighbour is bypassed (R118). -/
def pathChanged (before : List HubRecord) (r : HubRecord) : Bool :=
  match seenIn before r.id with
  | none => false
  | some b => (List.finRange 4).any fun i =>
      let o := b.pst[i]
      let n := r.pst[i]
      (n == 0 && o == 1) || (n == 3 && o != 3)

/-- A port of a record has lost its link: its window runs now, or it closed (R113). -/
def linkGone (before : List HubRecord) (r : HubRecord) : Bool :=
  match seenIn before r.id with
  | none => false
  | some b => (List.finRange 4).any fun i =>
      (b.pst[i] == 2 && r.pst[i] == 1) || (b.pst[i] == 1 && r.pst[i] == 0)

/-- Port i of a hub has left ADMITTED with its neighbour dead or bypassed; a port put back to AUTH is neither (R113, R338). -/
def leftAdmitted (before now : HubRecord) (i : Fin 4) : Bool := before.pst[i] == 2 && (now.pst[i] == 1 || now.pst[i] == 3)

/-- The links whose end has left ADMITTED so: its neighbour is dead or bypassed, and its return will be a rejoin (R114). -/
def partings (before v : List HubRecord) : List (HubId × Fin 4 × HubId) :=
  v.flatMap fun r =>
    match seenIn before r.id with
    | some b => ((List.finRange 4).filter (leftAdmitted b r)).map fun i => (r.id, i, b.nbId[i])
    | none => []

/-- A parted link is back: both ends are linked by it again (R114). -/
def isBack (v : List HubRecord) (x : HubId × Fin 4 × HubId) : Bool :=
  match seenIn v x.1, seenIn v x.2.2 with
  | some a, some b => linkAt a b x.2.1
  | _, _ => false

/-- The links of a view that the view before did not have. -/
def freshLinks (before v : List HubRecord) : List (HubId × Fin 4) :=
  v.flatMap fun r => ((List.finRange 4).filter fun i =>
    v.any (fun b => linkAt r b i) &&
      !(match seenIn before r.id with
        | some o => before.any fun b => linkAt o b i && b.id == r.nbId[i]
        | none => false)).map fun i => (r.id, i)

/-- What the links of a new view leave noted: the links that came up, with this head (R127), and those that parted (R114). -/
def State.noteLinks (s : State) (before v : List HubRecord) : State :=
  let fresh := freshLinks before v
  let kept := s.echo.newLinks.filter fun l => !fresh.contains (l.1, l.2.1)
  let gone := partings before v
  let still := s.echo.parted.filter fun x => !isBack v x && !gone.contains x
  { s with echo := { s.echo with newLinks := kept ++ fresh.map (fun l => (l.1, l.2, s.heads)), parted := still ++ gone } }

/-- A parted link inside the consist, or to hubs that have left its view, is back: a rejoin (R114, R115). -/
def State.rejoined (s : State) (v : List HubRecord) : Bool :=
  let ours (i : HubId) : Bool := s.echo.members.contains i || s.echo.lost.contains i || s.echo.away.contains i
  s.echo.parted.any fun x => isBack v x && ours x.1 && ours x.2.2

/-- The master this hub names: BEAT_MASTER_ID (R116). -/
def State.setMaster (s : State) (i : HubId) : State :=
  let s1 : State := { s with echo := { s.echo with master := i } }
  (s1.setRegN Reg.BEAT_MASTER_ID_LO (i.toNat % 2 ^ 32)).setRegN Reg.BEAT_MASTER_ID_HI (i.toNat / 2 ^ 32)

/-- The master announces a move of its role where the election among its own consist names another hub: 16 beats ahead (DESIGN CHOICE,
log 31). Where the result changes again it first sends MOVE_BEAT = 0 (R31, R116). -/
def State.announceMove (s : State) : State :=
  if s.echo.master ≠ Config.hubId || s.echoPaused then s
  else
    let mine := s.view.filter fun r => s.echo.members.contains r.id
    let e := (elect mine s.ownRecord).id
    let cancelled (s : State) : State := s.announce fun a => { a with moveBeat := 0, nextMaster := 0 }
    if e = Config.hubId then cancelled s
    else if s.annOr.nextMaster = e then s
    else
      let s1 := if s.annOr.moveBeat = 0 then s else (cancelled s).sendEchoAll true
      s1.announce fun a => { a with moveBeat := s.beatNum + 16, nextMaster := e }

/-- A change of the own master: the announcement held is discarded. Where this hub takes the role it goes on announcing the raise and the
assignments it held, as its own and with ANN_SEQ raised, and no move (R116, R469; DEDUCED, log 92). -/
def State.newMaster (s : State) (i : HubId) : State :=
  let s1 := s.setMaster i
  let own := s.echo.ann.map fun a => { a with annSeq := a.annSeq + 1, moveBeat := 0, nextMaster := 0 }
  { s1 with echo := { s1.echo with ann := if i = Config.hubId then own else none } }

/-- The master that the view gives is taken as this hub's master (R116). -/
def State.electMaster (s : State) : State :=
  let m := s.actingMaster
  if s.echo.master = 0 || m = s.echo.master || s.echoPaused then s else s.newMaster m

/-- The view changed or not: this hub's record gets a new REC_SEQ where it changed; a changed view counts,
raises VIEW_SEQ, restarts the settle count, and goes out at once with CHANGE = 1; hubs that left it leave the
own consist, and the records of hubs to which no path leads any more are dropped; the master answers path changes with a raise and hubs
without a slot with assignments (R111, R115, R118, R120, R126, R127). `before` is the state the step began
in. -/
def State.refreshView (s before : State) : State :=
  let s1 := if s.ownRecord = before.ownRecord then s else { s with echo := { s.echo with recSeq := s.echo.recSeq + 1 } }
  let v := s1.view
  let v0 := before.view
  if v = v0 then s1
  else
    let here (i : HubId) : Bool := v.any fun y => y.id == i
    let left := (v0.filter fun x => !here x.id && s1.echo.members.contains x.id && !s1.echo.lost.contains x.id).map (·.id)
    let cut := v.any (linkGone v0)
    let paths := s1.pinnedView.map (·.id)
    let back := s1.rejoined v
    let s2 : State := { s1 with echo := { s1.echo with
      viewSince := s1.heads
      records := s1.echo.records.filter fun r => paths.contains r.id
      lost := if cut then s1.echo.lost ++ left else s1.echo.lost
      away := if cut then s1.echo.away else s1.echo.away ++ left.filter fun i => !s1.echo.away.contains i
      members := s1.echo.members.filter here } }
    let s3 := ((s2.noteLinks v0 v).setFld Reg.TOPO_VIEW_SEQ 15 0 (s2.fld Reg.TOPO_VIEW_SEQ 15 0 + 1)).count Reg.TOPO_VIEW_CHANGES
    let s4 := s3.electMaster.cutRings
    let path := back || v.any fun r => s1.echo.members.contains r.id && pathChanged v0 r
    let s5 := if path || s4.datelineHub != before.datelineHub || s4.cutJoint != before.cutJoint then s4.announceRaise else s4
    (s5.assignWhileForming.announceMove).sendEchoAll true

/-- A change of this hub's own record or of the records it holds, with what follows from it. -/
def State.viewing (s : State) (f : State → State) : State := (f s).refreshView s

/-- Sixteen heads after Column 1 runs again the election and the derivation that waited are made (R265). -/
def State.resumeEcho (s : State) : State :=
  let c := s.eng.columns[(1 : ColumnIx)]
  if c.state == .running && c.resumed.any fun h => s.heads == h + 16 then
    let s1 := s.electMaster.announceMove
    if s1.tun.routesDue then s1.deriveRoutes else s1
  else s

/-! ## Joints (R49, R122) -/

/-- The partner of a trunk port belongs to another consist: its time is not this consist's (R49). -/
def State.otherSide (s : State) (t : TrunkPort) : Bool := !s.echo.members.contains (s.partnerId (trunk t))

/-- A new joint: only control blocks and ECHO, KEY and MGMT frames cross it (R49). A hub that has left the view of the own consist and
returns is a rejoin, not a new joint (R114, R115, R126): flows resume (R195; DEDUCED, log 88). -/
def State.joint (s : State) (t : TrunkPort) : Bool :=
  s.otherSide t && !s.echo.lost.contains (s.partnerId (trunk t)) && !s.echo.away.contains (s.partnerId (trunk t))

/-- A whole frame arrives on a port that is up. One that falls in a stretch of the stream that is discarded is lost, and counted on a
trunk port (R102). -/
def State.arriving (s : State) (p : LinkPort) (f : State → State) : State :=
  if !s.portUp p then s
  else if s.ports[p].discarding then s.countTrunk p Reg.TRK_DEGRADE_DISC
  else f s

/-- A PEP passes at trunk ingress (R117). -/
def State.pepPasses (s : State) (pep : BitVec 4) : Bool :=
  pep == s.pep || (s.echo.raiseHead.isSome && pep.toNat == s.fld Reg.TOPO_STATUS 14 11)

end Sys2Proof.Machine
end

