-- ==== Sys2Proof/Machine/Police.lean ====
section
/-! DEFINITION. Machine/Police.lean: ingress policing (R213-R219) and the reading of stamps across merge
steps (R48). -/

namespace Sys2Proof.Machine

/-- The colour of a frame (R214). -/
inductive Colour where
  | green | yellow | red
deriving DecidableEq, Repr

/-- A stored stamp as it is read now: with the recorded offset added where it lies before the recorded step
beat, none (full refill) where it is older than an earlier step (R48). -/
def State.stampNow (s : State) (stamp : Beat) : Option Nat :=
  if stamp.toNat < s.beat.prevStep then none
  else if stamp.toNat < s.reg48 Reg.BEAT_STEP_LO then some (stamp.toNat + s.reg48 Reg.BEAT_STEP_OFS_LO)
  else some stamp.toNat

/-- Tokens after `d` refills at a rate, at most the bucket size (R210, R215). -/
def tokensAfter (tok rate size d : Nat) : Nat := min (tok + d * rate) (size * 256)

/-- The lazy refill of R215: the beats since the stamp at the rates given, clipped to the sizes. -/
def State.refill (s : State) (r : RateSet) (b : Bucket) : Bucket :=
  match s.stampNow b.stamp with
  | none => { ctok := BitVec.ofNat 32 (r.cbs.toNat * 256), ptok := BitVec.ofNat 32 (r.pbs.toNat * 256), stamp := s.beatNum }
  | some t =>
    let d := s.beatNum.toNat - t
    { ctok := BitVec.ofNat 32 (tokensAfter b.ctok.toNat r.cir.toNat r.cbs.toNat d)
      ptok := BitVec.ofNat 32 (tokensAfter b.ptok.toNat r.pir.toNat r.pbs.toNat d)
      stamp := s.beatNum }

/-- The colour of a frame charged n bytes, and the buckets after it (R214, RFC 2698). -/
def meter (aware de : Bool) (n : Nat) (b : Bucket) : Bucket × Colour :=
  let k := n * 256
  if b.ptok.toNat < k then (b, .red)
  else
    let b1 := { b with ptok := b.ptok - BitVec.ofNat 32 k }
    if (aware && de) || decide (b.ctok.toNat < k) then (b1, .yellow)
    else ({ b1 with ctok := b.ctok - BitVec.ofNat 32 k }, .green)

/-- The active rate set of a profile; one never set colours every frame red (R213). -/
def State.profile (s : State) (k : Nat) : RateSet :=
  Store.get (fun _ => { cir := 0, cbs := 0, pir := 0, pbs := 0 }) s.sched.profActive k

/-- The active class-default rate set of class c (R216). -/
def State.classDefault (s : State) (c : Nat) : RateSet :=
  { cir := s.reg (Reg.POL_CD_CIR_ACT c), cbs := (s.reg (Reg.POL_CD_CBS_ACT c)).setWidth 24
    pir := s.reg (Reg.POL_CD_PIR_ACT c), pbs := (s.reg (Reg.POL_CD_PBS_ACT c)).setWidth 24 }

/-- Sump is ready: trained and out of self-refresh (Table CAV-11). -/
def State.sumpReady (s : State) : Bool := s.bit Reg.SUMP_STATUS 2

/-- The counter pair of a bank that nothing has counted in. -/
def zeroPair (_ : Nat) : BitVec 48 × Word := (0, 0)

/-- Accepted or red of a counter pair, after one more frame (Table SCH-3). -/
def countedPair (red : Bool) (p : BitVec 48 × Word) : BitVec 48 × Word :=
  if red then (p.1, BitVec.ofNat 32 (min (2 ^ 32 - 1) (p.2.toNat + 1))) else (p.1 + 1, p.2)

/-- The policing of a frame through a source entry counts in the live bank (R219, R294, R295). -/
def State.countPair (s : State) (ep : EpId) (red : Bool) : State :=
  if !s.sumpReady || s.cav.bothClearing then s
  else
    let upd (l : List (Nat × (BitVec 48 × Word))) :=
      Store.set zeroPair ep.toNat (countedPair red (Store.get zeroPair l ep.toNat)) l
    if s.bit Reg.CNT_SNAP_STATUS 1 then { s with cav := { s.cav with countersB := upd s.cav.countersB } }
    else { s with cav := { s.cav with countersA := upd s.cav.countersA } }

/-- The counts of a colour (R214). -/
def State.countColour (s : State) (c : Cls) (first : Bool) (k : Colour) : State :=
  match k with
  | .green => s
  | .yellow => s.count48 (Reg.POL_YELLOW_LO c.val) 1
  | .red => s.count (if first then Reg.POL_RED_FIRST c.val else Reg.POL_RED_TRANSIT c.val)

/-- A frame is policed by the class-default policer of its ingress port and class (R216). -/
def State.policeDefault (s : State) (p : EgressPort) (f : Frame) (first : Bool) : State × Colour :=
  let q := queueOf p f.cls
  let aware := !first && s.bit Reg.POL_CFG 0
  let (b, k) := meter aware f.de (f.len.toNat + 36) (s.refill (s.classDefault f.cls.val) s.sched.buckets[q])
  let s1 : State := { s with sched := { s.sched with buckets := vset s.sched.buckets q b } }
  (s1.countColour f.cls first k, k)

/-- The colour of a frame under its source entry's profile, and the entry after it: a copy in transit is
charged half (R213, R217); CIR = PIR = 0 colours every frame red. -/
def State.policeEntry (s : State) (f : Frame) (first : Bool) (e : EpEntry) : EpEntry × Colour :=
  let r := s.profile e.profile.toNat
  let b0 := f.len.toNat + 36
  let n := if !first && f.tw != 0 then (b0 + 1) / 2 else b0
  let b := s.refill r { ctok := e.ctok, ptok := e.ptok, stamp := e.stamp }
  let (b1, k) := if r.cir = 0 ∧ r.pir = 0 then (b, Colour.red) else meter (!first && s.bit Reg.POL_CFG 0) f.de n b
  ({ e with ctok := b1.ctok, ptok := b1.ptok, stamp := b1.stamp }, k)

end Sys2Proof.Machine
end

