-- ==== Sys2Proof/Machine/TwinOps.lean ====
section
/-! DEFINITION. Machine/TwinOps.lean: the twin source table (R223-R226). -/

namespace Sys2Proof.Machine

/-- TWIN_AGE in heads: 0-15 act as 16 (Table DEP-8). -/
def State.twinAge (s : State) : Nat := max 16 (s.fld Reg.DEP_CFG 15 4)

/-- A twin entry is free: its last check lies TWIN_AGE or more heads in the past (R225). -/
def State.twinAged (s : State) (e : TwinEntry) : Bool := decide (e.lastHead + s.twinAge ≤ s.heads)

/-- The SEQs in a window that were seen on exactly one copy. -/
def singlesIn (e : TwinEntry) : Nat := (List.range 64).countP fun i => e.seenA.getLsbD i != e.seenB.getLsbD i

/-- An entry ages out: each SEQ with exactly one bit set counts (R225). -/
def State.ageOutTwin (s : State) (src : EpId) : State :=
  match s.twin.find? (fun e => e.src == src) with
  | none => s
  | some e => ({ s with twin := s.twin.filter fun x => x.src != src } : State).countN Reg.DEP_TWIN_SINGLE (singlesIn e)

/-- Every entry that is free goes. -/
def State.ageTwins (s : State) : State :=
  s.over (s.twin.filter s.twinAged) fun s e => s.ageOutTwin e.src

/-- The window moves up n places: what leaves it with one copy seen is counted (R224). -/
def shiftTwin : Nat → TwinEntry → Nat → TwinEntry × Nat
  | 0, e, k => (e, k)
  | n + 1, e, k =>
    let one := e.seenA.msb != e.seenB.msb
    shiftTwin n { e with seenA := e.seenA <<< 1, seenB := e.seenB <<< 1 } (if one then k + 1 else k)

/-- A copy's bit at place d. -/
def TwinEntry.mark (e : TwinEntry) (copyB : Bool) (d : Nat) : TwinEntry :=
  if copyB then { e with seenB := e.seenB ||| BitVec.ofNat 64 (2 ^ d) }
  else { e with seenA := e.seenA ||| BitVec.ofNat 64 (2 ^ d) }

/-- A twin entry written back. -/
def State.setTwin (s : State) (e : TwinEntry) : State :=
  { s with twin := s.twin.map fun x => if x.src = e.src then e else x }

/-- The check of a copy whose entry is e (R224). -/
def State.checkCopy (s : State) (e0 : TwinEntry) (seq : BitVec 16) (copyB : Bool) : State × Bool :=
  let e := { e0 with last := s.beatNum, lastHead := s.heads }
  let a := (seq - e.h).toNat
  if 1 ≤ a ∧ a ≤ 32767 then
    let (e1, k) := shiftTwin (min a 64) e 0
    ((s.countN Reg.DEP_TWIN_SINGLE k).setTwin (({ e1 with h := seq } : TwinEntry).mark copyB 0), true)
  else
    let d := (e.h - seq).toNat
    if 63 < d then ((s.setTwin e).count Reg.DEP_TWIN_OLD, false)
    else if e.seenA.getLsbD d || e.seenB.getLsbD d then
      ((s.setTwin (e.mark copyB d)).count48 Reg.DEP_TWIN_DUP_LO 1, false)
    else if 0 < d ∧ s.bit Reg.DEP_CFG 0 then ((s.setTwin e).count Reg.DEP_TWIN_OLD, false)
    else
      let s1 := if 0 < d then s.count Reg.DEP_TWIN_REORDER else s
      (s1.setTwin (e.mark copyB d), true)

/-- Whether a twin copy may make local references (R223, R224): at most 8,192 entries; above them a copy is
delivered without a check. -/
def State.twinCheck (s0 : State) (f : Frame) : State × Bool :=
  let s := s0.ageTwins
  match s.twin.find? (fun e => e.src == f.srcEp) with
  | some e => s.checkCopy e f.seq (f.tw == 2)
  | none =>
    if 8192 ≤ s.twin.length then (s.count Reg.DEP_TWIN_NOTRACK, true)
    else
      let e : TwinEntry := { src := f.srcEp, h := f.seq, seenA := 0, seenB := 0, last := s.beatNum, lastHead := s.heads }
      ({ s with twin := s.twin ++ [e] } : State).checkCopy e f.seq (f.tw == 2)

/-- A delivered copy whose local reference is discarded under R187 or R188 loses its mark (R225). -/
def State.unmarkTwin (s : State) (f : Frame) : State :=
  if f.tw ≠ 1 ∧ f.tw ≠ 2 then s
  else
    { s with twin := s.twin.map fun e =>
        let d := (e.h - f.seq).toNat
        if e.src ≠ f.srcEp ∨ 63 < d then e
        else
          let m : BitVec 64 := ~~~(BitVec.ofNat 64 (2 ^ d))
          if f.tw = 2 then { e with seenB := e.seenB &&& m } else { e with seenA := e.seenA &&& m } }

end Sys2Proof.Machine
end

