-- ==== Sys2Proof/Machine/TunnelOps.lean ====
section
/-! DEFINITION. Machine/TunnelOps.lean: the endpoint cache and the miss queue (R147-R149), the checks of Table
TUN-7 (R150-R152), the header at first ingress (R151), routes and egress sets (R156-R158, R191), and
what becomes of a frame that passes (R169, R223). -/

namespace Sys2Proof.Machine

/-! ## The endpoint cache (R147) -/

/-- The cache set of an identifier. -/
def cacheSet (e : EpId) : Nat :=
  (e.extractLsb' 0 12 ^^^ e.extractLsb' 12 12 ^^^ (if e.getLsbD 24 then 0x800 else 0) : BitVec 12).toNat

/-- The hot half of an entry over the cold half of another (R145). -/
def EpEntry.hotOver (hot cold : EpEntry) : EpEntry :=
  { hot with desc := cold.desc, cmdBeat := cold.cmdBeat, cmdMaster := cold.cmdMaster }

/-- The entry as Sump holds it; one that nothing has written is all zero (R146). -/
def State.tableEntry (s : State) (ep : EpId) : EpEntry := Store.get (fun _ => EpEntry.zero) s.tun.table ep.toNat

/-- The entry in Sump written. -/
def State.setTable (s : State) (ep : EpId) (e : EpEntry) : State :=
  { s with tun := { s.tun with table := Store.set (fun _ => EpEntry.zero) ep.toNat e s.tun.table } }

/-- The cache line of an identifier. -/
def State.cacheLine (s : State) (ep : EpId) : Option CacheLine := s.tun.cache.find? fun l => l.ep == ep

/-- A hit: the line becomes the most recently hit of its set. -/
def State.touch (s : State) (ep : EpId) : State :=
  let hit (l : CacheLine) : CacheLine :=
    if l.ep = ep then { l with recent := true }
    else if cacheSet l.ep = cacheSet ep then { l with recent := false } else l
  { s with tun := { s.tun with cache := s.tun.cache.map hit } }

/-- A line leaves the cache: a changed hot half goes back to Sump, a pinned one never (R147). -/
def State.evict (s : State) (l : CacheLine) : State :=
  let s1 : State := { s with tun := { s.tun with cache := s.tun.cache.filter fun x => x.ep != l.ep } }
  if s.sumpReady && !l.entry.pin then s1.setTable l.ep (l.entry.hotOver (s.tableEntry l.ep)) else s1

/-- The lines of a set that may give way: unpinned, and not the most recently hit or filled one while another
is (R147). -/
def State.victims (s : State) (ep : EpId) : List CacheLine :=
  let ways := s.tun.cache.filter fun l => cacheSet l.ep == cacheSet ep && !l.entry.pin
  if 1 < ways.length then ways.filter fun l => !l.recent else ways

/-- An entry enters the cache; where its 16 ways are full a line gives way, which one being open (R147). A line that a command has brought
in meanwhile stays as it is. -/
def State.fillCache (s : State) (ep : EpId) (e : EpEntry) : State :=
  if (s.cacheLine ep).isSome then s.touch ep
  else
  let n := s.tun.cache.countP fun l => cacheSet l.ep == cacheSet ep
  let vs := s.victims ep
  let s1 := if n < 16 then s
    else match vs[s.free % max 1 vs.length]? with
      | some l => s.drawn.evict l
      | none => s
  let line : CacheLine := { ep := ep, entry := e, recent := true }
  if n < 16 ∨ !vs.isEmpty then
    ({ s1 with tun := { s1.tun with cache := s1.tun.cache ++ [line] } } : State).touch ep
  else s1

/-- An entry changed by the hub where it is held: in the cache, else in Sump. -/
def State.setEntry (s : State) (ep : EpId) (e : EpEntry) : State :=
  match s.cacheLine ep with
  | some _ => { s with tun := { s.tun with cache := s.tun.cache.map fun l => if l.ep = ep then { l with entry := e } else l } }
  | none => s.setTable ep e

/-- The entry as the hub sees it now, none where it is neither cached nor reachable. -/
def State.peekEntry (s : State) (ep : EpId) : Option EpEntry :=
  match s.cacheLine ep with
  | some l => some (l.entry.hotOver (if s.sumpReady then s.tableEntry ep else l.entry))
  | none => if s.sumpReady then some (s.tableEntry ep) else none

/-- The identifier under which an endpoint is looked up: a slot of 0 stands for the own slot (R142). -/
def State.lookupKey (s : State) (ep : EpId) : EpId := if epSlot ep = 0 then epWithSlot ep s.ownSlot else ep

/-- A lookup: the entry, or none where the frame must wait for it. Without Sump a miss finds no entry (R149); `absent`
names a key whose fetch found an error (R184). Entries of slot 0 are never used (R144). -/
def State.lookup (s : State) (ep : EpId) (absent : Option EpId) : State × Option EpEntry :=
  if epSlot ep = 0 || absent == some ep then (s, some EpEntry.zero)
  else
    match s.cacheLine ep with
    | some l => (s.touch ep, some l.entry)
    | none =>
      let s1 := s.count Reg.TUN_MISS
      (s1, if s.sumpReady then none else some EpEntry.zero)

/-- An error in Sump is logged in the FIFO of 8 and counted (R184). -/
def State.sumpError (s : State) (addr : Nat) (region : Nat) : State :=
  let s1 := s.count Reg.SUMP_UE
  let u : SumpUe := { addr := BitVec.ofNat 40 addr, region := BitVec.ofNat 2 region }
  if s1.cav.ueFifo.length < 8 then { s1 with cav := { s1.cav with ueFifo := s1.cav.ueFifo ++ [u] } }
  else s1.count Reg.SUMP_UE_OVF

/-! ## Checks 8 to 11 (R150, R152) -/

/-- What a check answers: the frame drops, waits for the entry of its source or destination, or goes on. -/
inductive Gate (α : Type) where
  | drop
  | wait (key : EpId) (dest : Bool)
  | pass (a : α)
deriving DecidableEq, Repr

/-- A source entry's masks allow a frame (check 10), or a group entry's (R152). -/
def EpEntry.allows (e : EpEntry) (f : Frame) : Bool := e.kinds.getLsbD f.kind.toNat && e.classes.getLsbD f.tc.toNat

/-- Checks 8 to 10 on the source entry (R150): none where no valid entry polices the frame. -/
def State.sourceEntry (s : State) (p : EgressPort) (f : Frame) (srcDefault : Bool) (absent : Option EpId) :
    State × Gate (Option EpEntry) :=
  let first := decide (4 ≤ p.val)
  let key := s.lookupKey f.srcEp
  if srcDefault || (!first && decide (f.tc.toNat < 5)) then (s, .pass none)
  else
    match s.lookup key absent with
    | (s1, none) => (s1, .wait key false)
    | (s1, some e) =>
      if first then
        if !e.valid || !e.isLocal then (s1.count Reg.TUN_SRC_INVALID, .drop)
        else if e.port.toNat ≠ p.val then (s1.count Reg.TUN_SRC_SPOOF, .drop)
        else if e.revoked then (s1.count Reg.TUN_REVOKED_IN, .drop)
        else if !e.allows f then (s1.count Reg.TUN_CLASS_DENY, .drop)
        else (s1, .pass (some e))
      else if !e.valid then (s1, .pass none)
      else if e.revoked then (s1.count Reg.TUN_REVOKED_IN, .drop)
      else (s1, .pass (some e))

/-- Where a frame goes, after check 11. -/
inductive Dest where
  | agent
  | port (p : EgressPort) (e : EpEntry)
  | group (e : EpEntry)
  | slot (k : Nat)
deriving DecidableEq, Repr

/-- An egress port by number; 21 to 31 are never accepted into an entry (Table TUN-6). -/
def portOfEntry (e : EpEntry) : EgressPort := ⟨e.port.toNat % 21, Nat.mod_lt _ (by decide)⟩

/-- Check 11 (R140, R152): the destination entry of the own slot, the group entry, or another slot, for which a hub without a slot drops
the frame (R142). -/
def State.destination (s : State) (f : Frame) (absent : Option EpId) : State × Gate Dest :=
  let slot := epSlot f.destEp
  let key := s.lookupKey f.destEp
  if slot = 127 then
    match s.lookup key absent with
    | (s1, none) => (s1, .wait key true)
    | (s1, some e) =>
      if !e.valid || e.revoked then (s1.count Reg.TUN_DST_INVALID, .drop)
      else if !e.allows f then (s1.count Reg.TUN_CLASS_DENY, .drop)
      else (s1, .pass (.group e))
  else if slot ≠ 0 ∧ slot ≠ s.ownSlot then
    if s.mySlot = 0 then (s.count Reg.TUN_NO_SLOT, .drop) else (s, .pass (.slot slot))
  else if epLocal f.destEp = 0 then (s, .pass .agent)
  else if epLocal f.destEp = 0x3FFFF then (s.count Reg.TUN_DST_INVALID, .drop)
  else
    match s.lookup key absent with
    | (s1, none) => (s1, .wait key true)
    | (s1, some e) =>
      if !e.valid || !e.isLocal || e.revoked then (s1.count Reg.TUN_DST_INVALID, .drop)
      else (s1, .pass (.port (portOfEntry e) e))

/-! ## Routes and egress sets (R156-R158, R191) -/

/-- The backbone of a single flow (R158): true for B. -/
def State.flowOnB (s : State) (f : Frame) : Bool :=
  decide ((crc16 (flowKey f)).toNat % 16 < min 16 (s.fld Reg.TUN_CFG 4 0))

/-- The route toward a slot on a backbone. -/
def State.route (s : State) (slot : Nat) (b : Bool) : Option EgressPort :=
  match s.tun.routes.find? (fun r => r.slot.toNat == slot) with
  | none => none
  | some r => (if b then r.b else r.a).map fun t => toEgress (trunk t)

/-- The route of a single flow: its backbone, else the other one (R158). -/
def State.singleRoute (s : State) (f : Frame) (slot : Nat) : Option EgressPort :=
  let b := s.flowOnB f
  match s.route slot b with
  | some p => some p
  | none => s.route slot (!b)

/-- The egress set of a group on one backbone: its map less the ingress port, the unused numbers of a bonded
group, the trunk ports of the other backbone (R191), and a link cut under R127; a hub without a slot delivers locally only (R142). -/
def State.groupSet (s : State) (g : Nat) (ingress : EgressPort) (b : Bool) : List EgressPort :=
  let map := s.reg (Reg.CAV_GRP_MAP g)
  (List.finRange 21).filter fun p =>
    map.getLsbD p.val && p != ingress && !s.isMember p.val &&
      (decide (4 ≤ p.val) || (s.mySlot != 0 && decide (2 ≤ p.val) == b && !s.echo.ringCut.getLsbD p.val))

/-- A frame of a twin class: TC6, TC7, or TC5 from a source with TWIN = 1 (R157). -/
def isTwinClass (f : Frame) (src : Option EpEntry) : Bool :=
  decide (6 ≤ f.tc.toNat) || (f.tc == 5 && (src.map (·.twin)).getD false)

/-- The copies of a frame, each with its TW and its egress ports; none where no route exists (check 13). -/
def State.copies (s : State) (p : EgressPort) (f : Frame) (src : Option EpEntry) (d : Dest) :
    State × Option (List (BitVec 2 × List EgressPort)) :=
  let first := decide (4 ≤ p.val)
  let twin := first && isTwinClass f src
  let tw : BitVec 2 := if first then 0 else f.tw
  match d with
  | .agent => (s, some [(tw, [20])])
  | .port q _ => (s, some [(tw, [q])])
  | .group _ =>
    let g := epLocal f.destEp % 4096
    if twin then (s, some [(1, s.groupSet g p false), (2, s.groupSet g p true)])
    else
      let b := if !first && f.tw != 0 then f.tw == 2 else if p.val < 4 then decide (2 ≤ p.val) else s.flowOnB f
      (s, some [(tw, s.groupSet g p b)])
  | .slot k =>
    if twin then
      match s.route k false, s.route k true with
      | none, none => (s, none)
      | some a, none => (s.count Reg.TUN_TWIN_ONE, some [(1, [a])])
      | none, some b => (s.count Reg.TUN_TWIN_ONE, some [(2, [b])])
      | some a, some b => (s, some [(1, [a]), (2, [b])])
    else
      match (if f.tw = 0 ∨ first then s.singleRoute f k else s.route k (f.tw == 2)) with
      | some q => (s, some [(tw, [q])])
      | none => (s, none)

/-! ## A frame judged (checks 8 to 13, R151, R153) -/

/-- The generations a frame carries (R153). -/
def matchedGens (srcKey destKey : EpId) (src : Option EpEntry) (d : Dest) : List MatchedGen :=
  (match src with | some e => [({ ep := srcKey, gen := e.gen } : MatchedGen)] | none => []) ++
  (match d with
   | .port _ e => [({ ep := destKey, gen := e.gen } : MatchedGen)]
   | .group e => [({ ep := destKey, gen := e.gen } : MatchedGen)]
   | _ => [])

/-- A frame that has passed every check: its copies with their egress ports, and its generations. -/
structure Accepted where
  copies : List (Frame × List EgressPort)
  matched : List MatchedGen
deriving DecidableEq, Repr

/-- Check 12: the policing of a frame through its source entry, or by the class-default policer (R213-R217). -/
def State.police (s : State) (p : EgressPort) (f : Frame) (src : Option EpEntry) : State × Colour :=
  let first := decide (4 ≤ p.val)
  let key := s.lookupKey f.srcEp
  match src with
  | some e =>
    if e.profile = 0 then s.policeDefault p f first
    else
      let (e1, k) := s.policeEntry f first e
      (((s.setEntry key e1).countPair key (k == .red)).countColour f.cls first k, k)
  | none => s.policeDefault p f first

/-- The header of an accepted frame: R151 at first ingress, DE alone in transit. The SEQ of a frame released
without its entry is a free value. -/
def State.writeHeader (s : State) (p : EgressPort) (f : Frame) (src : Option EpEntry) (yellow : Bool) : State × Frame :=
  if p.val < 4 then (s, { f with de := f.de || yellow })
  else
    let key := s.lookupKey f.srcEp
    match src with
    | some e0 =>
      let e := ((s.cacheLine key).map (·.entry)).getD e0
      (s.setEntry key { e with nextSeq := e.nextSeq + 1 },
        { f with seq := e.nextSeq, beat := BitVec.ofNat 16 s.beatNum.toNat, cm := false, dl := false, de := yellow })
    | none =>
      (s.drawn,
        { f with seq := BitVec.ofNat 16 s.free, beat := BitVec.ofNat 16 s.beatNum.toNat, cm := false, dl := false, de := yellow })

/-- Checks 8 to 13 on a frame from a port (R150): dropped, made to wait, or accepted. -/
def State.judge (s : State) (p : EgressPort) (f : Frame) (srcDefault : Bool) (absent : Option EpId) :
    State × Gate Accepted :=
  match s.sourceEntry p f srcDefault absent with
  | (s1, .drop) => (s1, .drop)
  | (s1, .wait k d) => (s1, .wait k d)
  | (s1, .pass src) =>
    match s1.destination f absent with
    | (s2, .drop) => (s2, .drop)
    | (s2, .wait k d) => (s2, .wait k d)
    | (s2, .pass d) =>
      let s3 := if decide (p.val < 4) && decide (5 ≤ f.tc.toNat) && src.isNone && !srcDefault then
          s2.count Reg.TUN_TRANSIT_UNPOL else s2
      let (s4, k) := s3.police p f src
      if k = .red then (s4, .drop)
      else
        match s4.copies p f src d with
        | (s5, none) => (s5.count Reg.TUN_NO_ROUTE, .drop)
        | (s5, some cs) =>
          let (s6, g) := s5.writeHeader p f src (k == .yellow)
          let m := matchedGens (s.lookupKey f.srcEp) (s.lookupKey f.destEp) src d
          (s6, .pass { copies := cs.map fun c => (({ g with tw := c.1 } : Frame).sealed, c.2), matched := m })

/-! ## A frame accepted (R167, R169, R191, R223) -/

/-- Copies with the ports they join: a copy with local references is checked against the twin table, copy A
first, and loses those references where the check fails; an empty egress set is counted (R191, R223). -/
def State.siftCopies (s : State) : List (Frame × List EgressPort) → State × List (Frame × List EgressPort)
  | [] => (s, [])
  | (f, ps) :: rest =>
    if ps.isEmpty then (s.count Reg.CAV_GRP_EMPTY).siftCopies rest
    else
      let (s1, ok) := if f.tw != 0 && ps.any (fun p => decide (4 ≤ p.val)) then s.twinCheck f else (s, true)
      let ps1 := if ok then ps else ps.filter fun p => decide (p.val < 4)
      let (s2, r) := s1.siftCopies rest
      (s2, if ps1.isEmpty then r else (f, ps1) :: r)

/-- Copies stored and placed in turn, the second from the chamber 8 after the first's; the credit goes with
the last (R167, R171). -/
def State.placeCopies (s : State) (ingress : EgressPort) (matched : List MatchedGen) (credit start : Nat) :
    List (Frame × List EgressPort) → State
  | [] => s
  | (f, ps) :: rest =>
    let id := s.cav.nextId
    let s1 := (s.store f ingress matched start).place id f ingress ps (if rest.isEmpty then credit else 0)
    s1.placeCopies ingress matched credit (start + 8) rest

/-- A KEY payload for the agent has the version, message and length of Table GEO-5 (R339). -/
def keyPayloadOk (payload : List Byte) : Bool :=
  keyFormOk payload 1 144 || keyFormOk payload 2 64 || keyFormOk payload 3 96 || keyFormOk payload 5 8

/-- A frame is for this hub's agent (R140, R143). -/
def State.forAgent (s : State) (f : Frame) : Bool := epLocal f.destEp == 0 && (epSlot f.destEp == 0 || epSlot f.destEp == s.ownSlot)

/-- A KEY frame for the agent that R339 drops: the link port it is counted at. -/
def State.keyMalformed (s : State) (p : EgressPort) (f : Frame) : Option LinkPort :=
  if f.kind == kindKey && s.forAgent f && !keyPayloadOk f.payload then toLink p else none

/-- A frame accepted from a port, every check passed: `f` is the frame as received, whose credit returns (R169, R171). A malformed KEY
frame for the agent goes no further (R339). -/
def State.accept (s : State) (ingress : EgressPort) (f : Frame) (a : Accepted) : State :=
  let back (s : State) : State := s.returnCredit ingress f.cls f.dl f.cells
  match s.keyMalformed ingress f with
  | some l => back (s.keyBad l)
  | none =>
    let (s1, cs) := s.siftCopies a.copies
    if cs.isEmpty then back s1 else s1.placeCopies ingress a.matched f.cells (s1.cav.lastChamber.val + 1) cs

/-! ## The miss queue (R148) -/

/-- The fetch of an entry is under way (R148). -/
def State.startFetch (s : State) (key : EpId) : State :=
  if s.tun.fetching.contains key then s else { s with tun := { s.tun with fetching := s.tun.fetching ++ [key] } }

/-- A frame joins the miss queue, and the fetch of its entry is under way. -/
def State.enqueueMiss (s : State) (m : MissFrame) : State :=
  let s1 := s.startFetch m.key
  { s1 with tun := { s1.tun with missQ := s1.tun.missQ ++ [m] } }

/-- A dropped frame frees its cells and returns its credit (R169, R171). -/
def State.dropFrame (s : State) (ingress : EgressPort) (f : Frame) : State := s.returnCredit ingress f.cls f.dl f.cells

/-- The shared cells that a frame of an Ethernet port takes as it arrives (R173). -/
def State.ethCells (s : State) (p : EgressPort) (f : Frame) : Nat :=
  match toLink p with
  | some l => if s.isEth l then f.cells else 0
  | none => 0

/-- A frame that waits for the entry of a key. -/
def State.missFrame (s : State) (p : EgressPort) (f : Frame) (key : EpId) (dest srcDefault : Bool) : MissFrame :=
  { key := key, dest := dest, ingress := p, frame := f, srcDefault := srcDefault, pool := s.ethCells p f }

/-- A frame leaves without the entry of its destination, under the class-default policer, no check of R150 being made: a group's map gives
its egress set; for an own endpoint its egress port is a value that no rule gives (R148; a free value, log 94). -/
def State.leaveDest (s : State) (m : MissFrame) : State :=
  let f := m.frame
  let src := if m.srcDefault || decide (m.ingress.val < 4 ∧ f.tc.toNat < 5) then none
    else (s.cacheLine (s.lookupKey f.srcEp)).map (·.entry)
  let d : Dest := if epIsGroup f.destEp then .group EpEntry.zero else .port ⟨s.free % 21, Nat.mod_lt _ (by decide)⟩ EpEntry.zero
  let (s1, k) := s.drawn.policeDefault m.ingress f (decide (4 ≤ m.ingress.val))
  if k = .red then s1.dropFrame m.ingress f
  else
    match s1.copies m.ingress f src d with
    | (s2, none) => s2.dropFrame m.ingress f
    | (s2, some cs) =>
      let (s3, g) := s2.writeHeader m.ingress f src (k == .yellow)
      s3.accept m.ingress f { copies := cs.map fun c => (({ g with tw := c.1 } : Frame).sealed, c.2),
                              matched := matchedGens (s.lookupKey f.srcEp) 0 src .agent }

/-- A frame that waits leaves the queue, its cells with it. -/
def State.takeMiss (s : State) (m : MissFrame) : State := { s with tun := { s.tun with missQ := s.tun.missQ.erase m } }

/-- The frames that wait for a key leave the queue one after the other, in order, each as it goes on (R148, R173). -/
def State.eachWaiting (s : State) (key : EpId) (f : State → MissFrame → State) : State :=
  s.over (s.tun.missQ.filter fun m => m.key == key) fun s m => if s.tun.missQ.contains m then f (s.takeMiss m) m else s

/-- A frame leaves without the entry it waited for, counted once, under the class-default policer (R148). One that had waited for its
source's may wait for its destination's yet; where that miss finds the queue full, the frames that wait for the same entry leave ahead of
it. `n` bounds how often one release brings about another. -/
def State.leaveMiss : Nat → State → MissFrame → State
  | 0, s, m => s.leaveDest m
  | n + 1, s, m =>
    let s1 := if m.srcDefault then s else s.count Reg.TUN_MISS_DEFAULT
    if m.dest then s1.leaveDest m
    else
      match s1.judge m.ingress m.frame true none with
      | (s2, .drop) => s2.dropFrame m.ingress m.frame
      | (s2, .pass a) => s2.accept m.ingress m.frame a
      | (s2, .wait k _) =>
        let w := s2.missFrame m.ingress m.frame k true true
        if s2.tun.missQ.length < 4096 then s2.enqueueMiss w
        else ((s2.startFetch k).eachWaiting k (State.leaveMiss n)).leaveDest w

/-- A frame leaves without its entry, whatever that releases. -/
def State.release1 (s : State) (m : MissFrame) : State := State.leaveMiss (s.tun.missQ.length + 2) s m

/-- Every frame that waits for a key leaves without its entry, in order (R148). -/
def State.releaseKey (s : State) (key : EpId) : State := s.eachWaiting key State.release1

/-- A frame that has passed checks 1 to 7, or leaves the miss queue with its entry (R148, R150). -/
def State.handle (s : State) (p : EgressPort) (f : Frame) (srcDefault : Bool) (absent : Option EpId) : State :=
  match s.judge p f srcDefault absent with
  | (s1, .drop) => s1.dropFrame p f
  | (s1, .pass a) => s1.accept p f a
  | (s1, .wait k d) =>
    let m := s1.missFrame p f k d srcDefault
    if s1.tun.missQ.length < 4096 then s1.enqueueMiss m else ((s1.startFetch k).releaseKey k).release1 m

/-! ## Checks 1 to 7 (R131-R143, R369) -/

/-- A zombie item: its epoch is not its role's, or its engine does not hold that role (R237). -/
def State.isZombie (s : State) (t : EngineTag) : Bool :=
  s.eng.roles[t.role].engine != some t.engine || s.eng.roles[t.role].epoch != t.epoch

/-- A zombie item is dropped, counted and recorded (R237). -/
def State.zombie (s : State) (t : EngineTag) : State :=
  (s.count Reg.DEP_ZOMBIE_WR).setRegN Reg.DEP_ZOMBIE_LAST
    (0x10 + t.engine.val + t.role.val * 2 ^ 6 + t.epoch.toNat * 2 ^ 10 + 2 ^ 18)

/-- Check 2 at a trunk port: none where the frame passes, else the counter of its drop (R49, R106, R117). -/
def State.admissionDrop (s : State) (t : TrunkPort) (f : Frame) : Option Nat :=
  if f.kind = kindKey then none
  else
    let joint := s.joint t
    let control := f.kind == kindEcho || f.kind == kindMgmt
    let pepOk := s.pepPasses f.pep || (joint && control)
    if !pepOk then some (Reg.TRK_STALE_PEP t.val)
    else if s.ports[trunk t].adm != .admitted || (joint && !control) then some (Reg.TRK_BYPASS_DROP t.val)
    else none

/-- Check 6 and the drop of START: none where the frame passes, else the counter (R135, R369). -/
def State.kindDrop (s : State) (p : EgressPort) (f : Frame) : Option Nat :=
  if 8 < f.kind.toNat then some Reg.TUN_KIND_ERR
  else if f.tw = 3 then some Reg.TUN_TW_ERR
  else if s.mode == .start && ((decide (4 ≤ p.val) && decide (p.val < 20)) || decide (2 < f.kind.toNat)) then
    some Reg.BOOT_PRE_RUN_DROP
  else none

/-- Check 7: none where the identifiers pass, else the counter (R139, R142, R143). -/
def State.idDrop (s : State) (p : EgressPort) (f : Frame) : Option Nat :=
  let ds := epSlot f.destEp
  let ss := epSlot f.srcEp
  if (ds = 127 ∧ 4096 ≤ epLocal f.destEp) ∨ ss = 127 then some Reg.TUN_EP_ERR
  else if p.val < 4 ∧ ((ds = 0 ∧ f.destEp ≠ 0) ∨ (ss = 0 ∧ f.srcEp ≠ 0) ∨ (f.destEp = 0 ∧ f.kind ≠ kindEcho ∧ f.kind ≠ kindKey)) then
    some Reg.TUN_EP_ERR
  else if (if p.val < 4 then s.ownSlot ≠ 0 ∧ ss = s.ownSlot else ss ≠ 0 ∧ ss ≠ s.ownSlot) then some Reg.TUN_SRC_SPOOF
  else if s.mySlot = 0 ∧ ds ≠ 0 ∧ ds ≠ 127 ∧ ds ≠ s.ownSlot then some Reg.TUN_NO_SLOT
  else none

/-- The slot 0 of a first ingress becomes the slot the hub holds (R142). -/
def State.ownSlots (s : State) (f : Frame) : Frame :=
  let own (e : EpId) : EpId := if epSlot e = 0 then epWithSlot e s.mySlot else e
  if s.mySlot = 0 then f else { f with srcEp := own f.srcEp, destEp := own f.destEp }

/-- Checks 6 and 7; a frame that passes has its slots written at first ingress. -/
def State.checkIds (s : State) (p : EgressPort) (f : Frame) : State × Option Frame :=
  match s.kindDrop p f with
  | some r => (s.count r, none)
  | none =>
    match s.idDrop p f with
    | some r => (s.count r, none)
    | none => (s, some (if p.val < 4 then f else s.ownSlots f))

/-- Checks 1 to 7 (R150); the frame in clear where it passes. The internal port has no link, so no
association: SA is not looked at there. -/
def State.precheck (s : State) (p : EgressPort) (rx : RxFrame) : State × Option Frame :=
  if rx.fcs ≠ rx.frame.fcsOf then (s.count Reg.TUN_FCS_ERR, none)
  else
    let adm : Option Nat := match toLink p with
      | some l => (asTrunk l).bind fun t => s.admissionDrop t rx.frame
      | none => none
    match adm with
    | some r => (s.count r, none)
    | none =>
      let (s1, clear) := match toLink p with
        | some l => s.checkTag l rx.frame rx.tag
        | none => (s, some rx.frame)
      match clear with
      | none => (s1, none)
      | some f =>
        if rx.frame.hcs ≠ rx.frame.hcsOf then (s1.count Reg.TUN_HCS_ERR, none)
        else if rx.lenBad then (s1.count Reg.TUN_LEN_ERR, none)
        else s1.checkIds p f

/-! ## The mapping table (R159) -/

/-- The mapping entry of a key. -/
def State.mapEntry (s : State) (n : LocalPort) (mac : BitVec 48) (vid : BitVec 12) : Option MapEntry :=
  s.tun.map.find? fun m => m.port == n && m.mac == mac && m.vid == vid

/-- The tunnel frame of a received Ethernet frame, or nothing where a default names no endpoint (R159). -/
def State.mapFrame (s : State) (n : LocalPort) (bytes : List Byte) : State × Option Frame :=
  let vid := vidOf bytes
  let dsrc := s.reg (Reg.TUN_ETH_DEF_SRC n.val)
  let ddst := s.reg (Reg.TUN_ETH_DEF_DST n.val)
  let (s1, src, tc) := match s.mapEntry n (macAt bytes 6) vid with
    | some m => (s, m.ep, m.tc)
    | none => (s.count Reg.TUN_MAP_MISS_SRC, BitVec.ofNat 25 (bitsOf dsrc 24 0), BitVec.ofNat 3 (bitsOf dsrc 27 25))
  if src = 0 then (s1, none)
  else
    let (s2, dst) := match s1.mapEntry n (macAt bytes 0) vid with
      | some m => (s1, m.ep)
      | none => (s1.count Reg.TUN_MAP_MISS_DST, BitVec.ofNat 25 (bitsOf ddst 24 0))
    if dst = 0 then (s2, none)
    else
      (s2, some { destEp := dst, srcEp := src, tc := tc, cm := false, de := false, kind := kindEth, pep := 0, dl := false,
                  len := BitVec.ofNat 14 bytes.length, seq := 0, beat := 0, sa := 0, hcs := 0, tw := 0, payload := bytes })

/-- The largest Ethernet frame of a port (Table LAN-15). -/
def State.maxLen (s : State) (n : LocalPort) : Nat := min 9216 (max 1518 (s.fld (Reg.LOC_MODE n.val) 17 4))

/-- The counts of a received or sent frame at a local port (Table LAN-13). -/
def State.countLocal (s : State) (p : EgressPort) (frames : Nat → Nat) (bytes : Nat → Nat) (n : Nat) : State :=
  if 4 ≤ p.val ∧ p.val < 20 then (s.count48 (frames (p.val - 4)) 1).count48 (bytes (p.val - 4)) n else s

end Sys2Proof.Machine
end

