-- ==== Sys2Proof/Machine/SchedOps.lean ====
section
/-! DEFINITION. Machine/SchedOps.lean: the egress scheduler (R199-R207), what is checked and written as a frame's
first block leaves (R117, R153, R232-R233, R238, R244, R344-R346), and dispatch to inboxes (R256). -/

namespace Sys2Proof.Machine

/-! ## Charge and transmission time (R200) -/

/-- The width W of Table SCH-2. -/
def State.egressWidth (s : State) (p : EgressPort) : Nat :=
  if p.val < 4 then s.ports[(⟨p.val % 20, Nat.mod_lt _ (by decide)⟩ : LinkPort)].txWidth
  else if s.isGroup p.val then 4 else 1

/-- The slot period of a port in units of 10 ps. -/
def State.slotPeriod (s : State) (p : EgressPort) : Nat :=
  match toLink p with
  | some l => blockPeriod (s.laneRate (laneAt l 0))
  | none => 256

/-- The SA a frame leaves with (R133). -/
def State.egressSa (s : State) (p : EgressPort) (f : Frame) : BitVec 8 :=
  if f.kind = kindKey then 0
  else
    match toLink p with
    | some l => if s.isTvl l then ((s.txAssoc l).map (·.sa)).getD 0 else 0
    | none => 0

/-- The charge n of a frame at a port. -/
def State.charge (s : State) (p : EgressPort) (f : Frame) : Nat := chargeOf (s.egressType p) f (s.egressSa p f)

/-- The transmission time T of a frame at a port, in units of 10 ps. -/
def State.transmitTime (s : State) (p : EgressPort) (f : Frame) : Nat :=
  (slotsOf (s.egressType p) f (s.egressSa p f) (s.egressWidth p) + s.fld Reg.SCHED_CFG 7 0) * s.slotPeriod p

/-! ## Gate lists (R203-R206) -/

/-- The entries of the list in force: MASK and DUR. -/
def State.gateEntries (s : State) (p : Nat) : List (BitVec 8 × Nat) :=
  (List.range (s.fld (Reg.SCHED_GL_CFG_ACT p) 7 0)).map fun i =>
    (BitVec.ofNat 8 (s.fld (Reg.SCHED_GL_ENT_ACT p i) 7 0), s.fld (Reg.SCHED_GL_ENT_ACT p i) 23 8)

/-- The beat index k of a list (R206). -/
def State.gateBeat (s : State) (p : Nat) : Nat :=
  (s.beatNum.toNat - s.reg48 (Reg.SCHED_GL_ANCHOR_LO p)) % max 1 (s.fld (Reg.SCHED_GL_CFG_ACT p) 14 8)

/-- The unit u at a CCLK cycle of the beat. -/
def gateUnit (cclk : Nat) : Nat := min (cclk / 8) 6249

/-- The entry in force at a position, and the units left of it (R206). -/
def entryAt : List (BitVec 8 × Nat) → Nat → Nat → Nat × Nat
  | [], _, i => (i, 0)
  | (_, d) :: es, pos, i => if pos < d then (i, d - pos) else entryAt es (pos - d) (i + 1)

/-- The units of the entries that open a class, from the first on, until one closes it. -/
def runLength (c : Nat) (es : List (BitVec 8 × Nat)) : Nat :=
  ((es.takeWhile fun e => e.1.getLsbD c).map (·.2)).sum

/-- A list that starts at entry i and wraps. -/
def rotated (es : List (BitVec 8 × Nat)) (i : Nat) : List (BitVec 8 × Nat) := es.drop i ++ es.take i

/-- Every entry opens a class. -/
def alwaysOpen (c : Nat) (es : List (BitVec 8 × Nat)) : Bool := es.all fun e => e.1.getLsbD c

/-- The open window of a class from a slot on, in units of 10 ps: none where it never ends (R204). What has passed of the present 10 ns unit
is taken off it, but not in the stretched unit 6,249 (DESIGN CHOICE, log 112). -/
def State.openWindow (s : State) (p : Nat) (c cclk : Nat) : Option Nat :=
  let es := s.gateEntries p
  let u := gateUnit cclk
  let (i, left) := entryAt es (s.gateBeat p * 6250 + u) 0
  let here := (es.getD i (0, 0)).1.getLsbD c
  let part := if u < 6249 then cclk * 125 - u * 1000 else 0
  let run := left + runLength c ((rotated es (i + 1)).take (es.length - 1))
  let byCommit := (s.pendingCommit p).map fun t => (t.target.toNat - s.beatNum.toNat) * 6250 - u
  if !here then some 0
  else
    match alwaysOpen c es, byCommit with
    | true, none => none
    | true, some w => some (w * 1000 - part)
    | false, none => some (run * 1000 - part)
    | false, some w => some (min run w * 1000 - part)

/-- The longest open run of a class, wrapping included, in units: none without end (R205). -/
def State.longestRun (s : State) (p c : Nat) : Option Nat :=
  let es := s.gateEntries p
  if alwaysOpen c es then none
  else some (((List.range es.length).map fun i => runLength c (rotated es i)).foldl max 0)

/-- A frame of a class fits at a slot (R204). -/
def State.fits (s : State) (p : EgressPort) (f : Frame) (cclk : Nat) : Bool :=
  match s.openWindow p.val f.tc.toNat cclk with
  | none => true
  | some w => decide (0 < w) && decide (s.transmitTime p f ≤ w)

/-- A frame is longer than its class's longest open run, which is not 0 (R205). -/
def State.oversize (s : State) (p : EgressPort) (f : Frame) : Bool :=
  match s.longestRun p.val f.tc.toNat with
  | none => false
  | some w => decide (0 < w) && decide (w * 1000 < s.transmitTime p f)

/-- A gate list has taken over at this head and its first 560 CCLK run (R207). -/
def State.takeoverHold (s : State) (p : EgressPort) (cclk : Nat) : Bool :=
  s.sched.takeoverHead[p] == some s.heads && decide (cclk < 560)

/-! ## Head frames -/

/-- The queue of a class at a port is held: TC0-TC5 of a trunk port while its window runs (R193). -/
def State.held (s : State) (p : EgressPort) (c : Cls) : Bool :=
  match toLink p with
  | some l => decide (l.val < 4) && decide (c.val ≤ 5) && s.ports[l].holdHead.isSome
  | none => false

/-- A frame would cross the dateline here (R232). -/
def State.crosses (s : State) (p : EgressPort) (f : Stored) : Bool :=
  decide (p.val < 4) && decide (f.ingress.val < 4) && s.isDateline

/-- The credit set a frame needs: the escape set on a trunk link with DL = 1 (R232). -/
def State.needsEsc (s : State) (p : EgressPort) (f : Stored) : Bool :=
  decide (p.val < 4) && (f.frame.dl || s.crosses p f)

/-- The partner has granted credit for a frame (R199, R227). -/
def State.hasCredit (s : State) (p : EgressPort) (f : Stored) : Bool :=
  match toLink p with
  | none => true
  | some l => if s.isTvl l then decide (f.frame.cells ≤ (s.credit l f.frame.cls (s.needsEsc p f)).available) else true

/-- A trunk port's state does not send a frame's KIND (R49, R106). -/
def State.notSent (s : State) (p : EgressPort) (f : Frame) : Bool :=
  match (toLink p).bind asTrunk with
  | none => false
  | some t =>
    f.kind != kindKey && (s.ports[trunk t].adm != .admitted ||
      (s.joint t && !(f.kind == kindEcho || f.kind == kindMgmt)))

/-- The head of a queue that is in Cavern. -/
def State.headOf (s : State) (q : QueueIx) : Option (QRef × Stored) :=
  match s.cav.queues[q].refs with
  | [] => none
  | r :: _ => if r.spilled then none else (s.stored r.id).map fun f => (r, f)

/-- What discards a head frame as it reaches the head: the counter (R106, R188, R205). -/
def State.headDrop (s : State) (p : EgressPort) (f : Stored) : Option Nat :=
  if s.held p f.frame.cls then none
  else if s.notSent p f.frame then some (Reg.TRK_BYPASS_DROP p.val)
  else if s.doomed f then some Reg.CAV_FENCE_DISC
  else if s.oversize p f.frame then some Reg.SCHED_OVERSIZE
  else none

/-- The damaged cells of a stored frame among those given, by physical chamber (R187). -/
def State.damagedIn (s : State) (cells : List Cell) : List ChamberIx :=
  (cells.filter fun c => s.cav.damaged.contains (s.cav.chamberOf[c.chamber], c.row)).map fun c => s.cav.chamberOf[c.chamber]

/-- The chambers in which reading a frame meets an uncorrectable error before its first block leaves: in its first cell, or as this read
finds (R187; DESIGN CHOICE, log 95). -/
def State.badFirst (s : State) (f : Stored) (found : List CellError) : List ChamberIx :=
  s.damagedIn (f.cells.take 1) ++ (found.filter fun e => e.fatal && !e.started).map (·.chamber)

/-- Those in which it meets one after its first block has left (R186). -/
def State.badLater (s : State) (f : Stored) (found : List CellError) : List ChamberIx :=
  s.damagedIn (f.cells.drop 1) ++ (found.filter fun e => e.fatal && e.started).map (·.chamber)

/-- An uncorrectable error is met in a physical chamber: counted, and noted with its head (R187, R188). -/
def State.chamberUe (s : State) (c : ChamberIx) : State :=
  ({ s with cav := { s.cav with ueEvents := vmod s.cav.ueEvents c fun l => (l.filter fun h => s.heads < h + 16000) ++ [s.heads] } } : State).count
    (Reg.CAV_CH_UE c.val)

/-- What a read finds in chambers: correctable errors are counted (R187). -/
def State.countCe (s : State) (found : List CellError) : State :=
  s.over (found.filter fun e => !e.fatal) fun s e => s.count (Reg.CAV_CH_CE e.chamber.val)

/-- A discarded reference; a local one discarded under R187 or R188 loses its twin mark (R225). -/
def State.discardRef (s : State) (p : EgressPort) (c : Cls) (f : Stored) (counter : Nat) : State :=
  let s1 := (s.dropRef (queueOf p c) f.id).count counter
  if (counter = Reg.CAV_FENCE_DISC ∨ counter = Reg.CAV_UE_DISC) ∧ 4 ≤ p.val then s1.unmarkTwin f.frame else s1

/-- Head frames that R106, R188 or R205 discards leave, until one stands that does not. -/
def State.cleanHead (p : EgressPort) (c : Cls) : Nat → State → State
  | 0, s => s
  | n + 1, s =>
    match s.headOf (queueOf p c) with
    | none => s
    | some (_, f) =>
      match s.headDrop p f with
      | none => s
      | some k => State.cleanHead p c n (s.discardRef p c f k)

/-- A cut-through frame whose end has not come does not start on a port that has an association: what encrypts it needs its whole payload
(R185, R344; DEDUCED, log 130). -/
def State.cutWaits (s : State) (p : EgressPort) (f : Stored) : Bool := s.cav.cutIn.any (fun x => x.2 == f.id) && s.egressSa p f.frame != 0

/-- The candidate of a class: its head frame where R199 holds. -/
def State.candidate (s : State) (p : EgressPort) (cclk : Nat) (c : Cls) : Option (QRef × Stored) :=
  match s.headOf (queueOf p c) with
  | none => none
  | some (r, f) =>
    if s.held p c then none
    else if !s.hasCredit p f then none
    else if s.cutWaits p f then none
    else if !s.fits p f.frame cclk then none
    else if s.reg (Reg.SCHED_CIR_ACT p.val c.val) = 0 ∧ s.reg (Reg.SCHED_PIR_ACT p.val c.val) = 0 then none
    else some (r, f)

/-! ## The choice (R201) -/

/-- Tokens and deficit of a class. -/
def State.ctok (s : State) (p c : Nat) : Nat := (s.reg (Reg.SCHED_CTOK p c)).toNat
def State.ptok (s : State) (p c : Nat) : Nat := (s.reg (Reg.SCHED_PTOK p c)).toNat
def State.deficit (s : State) (p c : Nat) : Nat := s.fld (Reg.SCHED_DEFICIT p c) 16 0
def State.quantum (s : State) (p c : Nat) : Nat := s.fld (Reg.SCHED_QUANTUM p c) 15 0

/-- The classes from 7 down. -/
def classesDown : List Cls := [7, 6, 5, 4, 3, 2, 1, 0]

/-- The committed choice: the highest candidate whose committed tokens cover it. -/
def State.pickCommitted (s : State) (p : EgressPort) (cs : List (Cls × Nat)) : Option Cls :=
  classesDown.find? fun c => cs.any fun x => x.1 == c && decide (x.2 * 256 ≤ s.ctok p.val c.val)

/-- The visit of the round robin, counted from the pointer on, at which a class sends: its place in the round
after as many rounds as its deficit lacks quanta (R201). -/
def visitOf (ptr : Cls) (c : Cls) (deficit quantum n : Nat) : Nat :=
  8 * ((n - deficit + quantum - 1) / max 1 quantum) + (8 + ptr.val - c.val) % 8

/-- The visits a class has had before a visit. -/
def visitsBefore (idx : Nat) (ptr : Cls) (c : Cls) : Nat := (idx + 7 - (8 + ptr.val - c.val) % 8) / 8

/-- The round-robin choice among classes with peak tokens and a quantum, with its visit. -/
def State.pickRobin (s : State) (p : EgressPort) (cs : List (Cls × Nat)) : Option (Cls × Nat) :=
  let ptr := s.sched.drr[p]
  let e := cs.filter fun x => decide (x.2 * 256 ≤ s.ptok p.val x.1.val) && decide (0 < s.quantum p.val x.1.val)
  e.foldl (fun best x =>
    let v := visitOf ptr x.1 (s.deficit p.val x.1.val) (s.quantum p.val x.1.val) x.2
    match best with
    | none => some (x.1, v)
    | some b => if v < b.2 then some (x.1, v) else some b) none

/-- A committed send debits both buckets and is counted. -/
def State.debitCommitted (s : State) (p : EgressPort) (c : Cls) (n : Nat) : State :=
  ((s.setRegN (Reg.SCHED_CTOK p.val c.val) (s.ctok p.val c.val - n * 256)).setRegN
    (Reg.SCHED_PTOK p.val c.val) (s.ptok p.val c.val - n * 256)).count48 (Reg.SCHED_TX_CMT_LO p.val c.val) 1

/-- A send of the round robin: the quanta given on the way, the deficit, both buckets, the pointer and the
count. -/
def State.debitRobin (s : State) (p : EgressPort) (cs : List (Cls × Nat)) (c : Cls) (n idx : Nat) : State :=
  let ptr := s.sched.drr[p]
  let e := cs.filter fun x => decide (x.2 * 256 ≤ s.ptok p.val x.1.val) && decide (0 < s.quantum p.val x.1.val)
  let s1 := s.over e fun s x =>
    s.setRegN (Reg.SCHED_DEFICIT p.val x.1.val)
      (s.deficit p.val x.1.val + visitsBefore idx ptr x.1 * s.quantum p.val x.1.val)
  let s2 := s1.setRegN (Reg.SCHED_DEFICIT p.val c.val) (s1.deficit p.val c.val - n)
  let s3 := (s2.setRegN (Reg.SCHED_PTOK p.val c.val) (s2.ptok p.val c.val - n * 256)).setRegN
    (Reg.SCHED_CTOK p.val c.val) (s2.ctok p.val c.val - n * 256)
  ({ s3 with sched := { s3.sched with drr := vset s3.sched.drr p c } } : State).count48 (Reg.SCHED_TX_PK_LO p.val c.val) 1

/-! ## The hub's own frames (R110, R173, R339) -/

/-- One of the hub's own frames, which the internal port carries, joins the TC7 queue of a trunk port under R170 and R174: dropped where the
queue is at its threshold or the cells lack (R173). It is link-local, so neither a window nor a flush of the routed frames stops it (R194,
R196). -/
def State.joinOwn (s : State) (t : TrunkPort) (f : Frame) : State :=
  let q := queueOf (toEgress (trunk t)) f.cls
  let x := s.cav.queues[q]
  if x.dropAct != 0xFFFFFF && decide (x.dropAct.toNat < x.occ + f.cells) then s.count (Reg.CAV_Q_DROP_CNT q.val)
  else
    match s.chargeFor q f.cells with
    | none => s.count Reg.CAV_POOL_DROP
    | some (resv, pool) =>
      let id := s.cav.nextId
      let s1 := (s.store f 20 [] (s.cav.lastChamber.val + 1)).modStored id fun y => { y with resv := resv, pool := pool }
      s1.joinQueue q id f.cells true

/-- The own frames that wait at a trunk port join its queue in order, unless a power entry has closed admission (R381). -/
def State.takeOwn (s : State) (p : EgressPort) : State :=
  match (toLink p).bind asTrunk with
  | none => s
  | some t =>
    if s.pwr.admitClosed then s
    else (s.modPort (trunk t) fun x => { x with ownTx := [] }).over s.ports[trunk t].ownTx fun s f => s.joinOwn t f

/-! ## The first block leaves -/

/-- A generation a frame carries is revoked now under another generation (R153). -/
def State.revokedNow (s : State) (f : Stored) : Bool :=
  f.matched.any fun m =>
    match s.peekEntry m.ep with
    | some e => e.revoked && e.gen != m.gen
    | none => false

/-- What drops a frame as its first block is dequeued: the counter (R153, R155, R187, R233, R238, R346). -/
def State.egressDrop (s : State) (p : EgressPort) (f : Stored) (found : List CellError) : Option Nat :=
  if s.revokedNow f then some Reg.TUN_REVOKED_OUT
  else if !(s.badFirst f found).isEmpty then some Reg.CAV_UE_DISC
  else if s.crosses p f && f.frame.dl then some Reg.DEP_DL_DROP
  else
    match toLink p with
    | none => none
    | some l =>
      if s.isEth l then (if f.frame.kind = kindEth then none else some Reg.TUN_KIND_ERR)
      else if f.frame.kind = kindKey then none
      else
        match s.txAssoc l with
        | some a => if a.stopped then some Reg.DEP_KEY_STALE else none
        | none => if s.bit (Reg.SEC_PORT_CFG p.val) 0 then some (Reg.SEC_CLEAR_DROP p.val) else none

/-- A frame dropped as its first block is dequeued, with the errors that this read met (R187). -/
def State.dropFirst (s : State) (p : EgressPort) (c : Cls) (f : Stored) (found : List CellError) (counter : Nat) : State :=
  let s1 := if counter = Reg.CAV_UE_DISC then s.over (s.badFirst f found) State.chamberUe else s
  (s1.countCe found).discardRef p c f counter

/-- A delivery toward an endpoint later than its bound is counted, and once for the beat where it is TC6 or TC7
(R244, R246). Link-local frames carry no BEAT; for 8 heads after its own renumbering a hub counts none. -/
def State.countLate (s : State) (p : EgressPort) (f : Frame) : State :=
  let bound := if f.tc = 5 then s.fld Reg.DEP_BOUND 7 0 else 4
  let stepping := match s.beat.stepHead with | some h => decide (s.heads ≤ h + 8) | none => false
  let age := (BitVec.ofNat 16 s.beatNum.toNat - f.beat).toNat
  if p.val < 4 ∨ f.tc.toNat < 5 ∨ f.destEp = 0 ∨ bound = 0 ∨ stepping = true ∨ age ≤ bound then s
  else
    let s1 := s.count (Reg.DEP_LATE (f.tc.toNat - 5))
    if f.tc = 5 || s.sched.lateBeat then s1
    else ({ s1 with sched := { s1.sched with lateBeat := true } } : State).count Reg.DEP_MISS_BEATS

/-- The header as a frame leaves: CM where its queue marked it, DL at the dateline, the epoch on a trunk
port, SA and HCS (R117, R133, R174, R232). -/
def State.outHeader (s : State) (p : EgressPort) (f : Stored) (marked : Bool) : Frame :=
  Frame.sealed
    { f.frame with
      cm := f.frame.cm || marked
      dl := f.frame.dl || s.crosses p f
      pep := if p.val < 4 then s.pep else f.frame.pep
      sa := s.egressSa p f.frame }

/-- A frame leaves on a Torvisk Link port, encrypted where its header names an association (R133, R344). -/
def State.sendTvl (s : State) (p : EgressPort) (l : LinkPort) (g : Frame) : State :=
  match (if g.sa = 0 then none else s.txAssoc l) with
  | some a =>
    let (s1, h, tag) := s.encrypt a g
    ((s1.emit (.tunnelFrame p h h.fcsOf (some tag))).countLocal p Reg.LOC_TX_FRAMES_LO Reg.LOC_TX_BYTES_LO h.bytesN).reauthSpent s l
  | none => (s.emit (.tunnelFrame p g g.fcsOf none)).countLocal p Reg.LOC_TX_FRAMES_LO Reg.LOC_TX_BYTES_LO g.bytesN

/-- An ETH payload as it leaves: its ECN field set where CM = 1 (R160). -/
def State.ecnMarked (s : State) (g : Frame) : State × List Byte :=
  if g.cm && s.bit Reg.TUN_CFG 5 then
    match ecnMark g.payload with
    | .other => (s, g.payload)
    | .notEct => (s.count Reg.TUN_ECN_NOTECT, g.payload)
    | .marked b => (s.count Reg.TUN_ECN_CE, b)
  else (s, g.payload)

/-- A frame leaves on an Ethernet port with a new FCS (R155): a short one is padded with zeros to 64 bytes (PRESUMED, log 93), and one above
MAXLEN is discarded and counted (R93; DEDUCED, log 93). One that is itself a MAC control frame is sent as any other (DESIGN CHOICE, log 127). -/
def State.sendEth (s : State) (p : EgressPort) (n : LocalPort) (g : Frame) : State :=
  let (s1, marked) := s.ecnMarked g
  let bytes := marked ++ List.replicate (60 - marked.length) 0
  if s.maxLen n < bytes.length + 4 then s1.count (Reg.LOC_LEN_ERR n.val)
  else (s1.emit (.ethernet n bytes (crc32 bytes))).countLocal p Reg.LOC_TX_FRAMES_LO Reg.LOC_TX_BYTES_LO (bytes.length + 4)

/-- The target of a frame at the internal port: 0-15 a role, 16-19 a Column (R256). -/
def State.inboxTarget (s : State) (f : Frame) : Option Nat :=
  let le := epLocal f.destEp
  if le = 0 then
    let role (hi lo : Nat) : Option Nat := let v := s.fld Reg.ENG_AGENT_ROLE hi lo; some (if 16 ≤ v then 0 else v)
    if f.kind = kindEcho then role 4 0
    else if f.kind = kindKey then role 12 8
    else if f.kind = kindMgmt then role 20 16
    else none
  else if le ≤ 0xFF then
    let v := s.fld (Reg.ENG_EP_ROLE le) 4 0
    if v < 20 then some v else none
  else none

/-- The inbox of a target. -/
def State.inboxOf (s : State) (k : Nat) : List Descriptor :=
  if h : k < 16 then s.eng.roles[k].inbox else s.eng.columns[(⟨(k - 16) % 4, Nat.mod_lt _ (by decide)⟩ : ColumnIx)].inbox

/-- An inbox changed. -/
def State.modInbox (s : State) (k : Nat) (f : List Descriptor → List Descriptor) : State :=
  if h : k < 16 then
    { s with eng := { s.eng with roles := vmod s.eng.roles ⟨k, h⟩ fun r => { r with inbox := f r.inbox } } }
  else
    let cols := vmod s.eng.columns (⟨(k - 16) % 4, Nat.mod_lt _ (by decide)⟩ : ColumnIx) (fun c => { c with inbox := f c.inbox })
    { s with eng := { s.eng with columns := cols } }

/-- A frame moves into the inbox of its target; its cells stay until a task takes the descriptor (R256). -/
def State.dispatch (s : State) (f : Stored) : State :=
  match s.inboxTarget f.frame with
  | none => (s.release f.id).count Reg.ENG_NO_TARGET
  | some k =>
    if 64 ≤ (s.inboxOf k).length then (s.release f.id).count Reg.ENG_INBOX_DROP
    else
      let d : Descriptor := { id := f.id, cells := f.frame.cells }
      s.modInbox k fun l => l ++ [d]

/-- A frame's first block leaves: the dateline and the age of a delivery are counted, credit is used, and the port has this beat's
frame (R227, R232, R244). -/
def State.startFrame (s : State) (p : EgressPort) (f : Stored) (marked : Bool) : State :=
  let s1 := (if s.crosses p f then s.count48 Reg.DEP_DL_SET_LO 1 else s).countLate p (s.outHeader p f marked)
  match toLink p with
  | none => s1
  | some l =>
    let s2 := s1.modPort l fun x => { x with txHead := some s.heads, txTc := f.frame.cls }
    if s.isTvl l then s2.spendCredit l f.frame.cls (s.needsEsc p f) f.frame.cells else s2

/-- A frame leaves whole with its final header: on its link, or into an inbox. -/
def State.transmit (s : State) (p : EgressPort) (f : Stored) (g : Frame) : State :=
  match toLink p with
  | none => s.dispatch f
  | some l =>
    match asLocal l with
    | some n => if s.isEth l then s.sendEth p n g else s.sendTvl p l g
    | none => s.sendTvl p l g

/-- A frame that has begun is ended with an invalid block for an uncorrectable error, and discarded (R186, R187). -/
def State.endBad (s : State) (p : EgressPort) (f : Stored) (bad : List ChamberIx) : State :=
  let s1 := (s.over bad State.chamberUe).count Reg.CAV_UE_DISC
  let s2 := if 4 ≤ p.val then s1.unmarkTwin f.frame else s1
  if p.val < 20 then s2.emit (.abortFrame p) else s2

/-- The rest of a frame that has begun: whole, or ended where reading it meets an uncorrectable error (R186). -/
def State.finishFrame (s : State) (p : EgressPort) (f : Stored) (g : Frame) (found : List CellError) : State :=
  if (s.badLater f found).isEmpty then s.transmit p f g else s.endBad p f (s.badLater f found)

/-- A reference leaves its queue without its frame being freed. -/
def State.unqueue (s : State) (q : QueueIx) (id : Nat) : State :=
  (s.modQueue q fun x => { x with refs := x.refs.filter (fun r => r.id != id), creditWait := none }).emptyDeficit q

/-- A chosen frame leaves, its header final from here on (R344): a cut-through frame whose end has not arrived goes on until it does (R185),
unless reading it meets an uncorrectable error first (R186); any other is sent whole and its reference freed. -/
def State.launch (s : State) (p : EgressPort) (c : Cls) (r : QRef) (f : Stored) (found : List CellError) : State :=
  let g := s.outHeader p f r.marked
  let s1 := ((s.countCe found).startFrame p f r.marked).unqueue (queueOf p c) f.id
  if s1.cav.cutIn.any (fun x => x.2 == f.id) && (s1.badLater f found).isEmpty then
    let t : CutTx := { id := f.id, egress := p, head := g }
    { s1 with cav := { s1.cav with cutTx := s1.cav.cutTx ++ [t] } }
  else (s1.finishFrame p f g found).release f.id

/-- The partner of an Ethernet port signals remote fault (Table LAN-16). -/
def State.remoteFault (s : State) (p : LinkPort) : Bool := s.isEth p && Config.remoteFault (p.val - 4) s.heads

/-- A port can start a frame (R95, R106, R197); in START the local ports forward nothing (R369). The reconciliation sublayer of an Ethernet
port lets none through while the partner signals remote fault (R92; PRESUMED of IEEE 802.3, log 124). -/
def State.portSends (s : State) (p : EgressPort) : Bool :=
  match toLink p with
  | none => true
  | some l => s.portUp l && !(s.mode == .start && (asLocal l).isSome) && (if s.isEth l then !s.remoteFault l else decide (0 < s.ports[l].txWidth))

/-- A class's frame starts: dropped where a check of its first block fails, and then the slot is decided
again; `n` bounds the frames that can be dropped. -/
def State.decideSlot (p : EgressPort) (cclk : Nat) (found : List CellError) : Nat → State → State
  | 0, s => s
  | n + 1, s =>
    let s0 := s.over classesDown fun s c => State.cleanHead p c s.cav.queues[queueOf p c].refs.length s
    let heads := classesDown.filterMap fun c => (s0.candidate p cclk c).map fun x => (c, x)
    let cs := heads.map fun x => (x.1, s0.charge p x.2.2.frame)
    let headOf (c : Cls) : Option (QRef × Stored) := (heads.find? fun x => x.1 == c).map (·.2)
    let chargeOf (c : Cls) : Nat := ((cs.find? fun x => x.1 == c).map (·.2)).getD 0
    match s0.pickCommitted p cs with
    | some c =>
      match headOf c with
      | none => s0
      | some (r, f) =>
        match s0.egressDrop p f found with
        | some k => State.decideSlot p cclk [] n (s0.dropFirst p c f found k)
        | none => (s0.debitCommitted p c (chargeOf c)).launch p c r f found
    | none =>
      match s0.pickRobin p cs with
      | none => s0
      | some (c, idx) =>
        match headOf c with
        | none => s0
        | some (r, f) =>
          match s0.egressDrop p f found with
          | some k => State.decideSlot p cclk [] n (s0.dropFirst p c f found k)
          | none => (s0.debitRobin p cs c (chargeOf c) idx).launch p c r f found

/-- The frames queued at a port. -/
def State.queuedAt (s : State) (p : EgressPort) : Nat :=
  (List.finRange 8).foldl (fun a c => a + s.cav.queues[queueOf p c].refs.length) 0

/-- The lanes of a port that send FILL where there is nothing else: those that transmit Torvisk Link, and those whose generator a pattern
takes the place of whatever their PCS would send (R68, R84, R101). -/
def State.idleLanes (s : State) (p : LinkPort) : BitVec 4 :=
  maskOf (s.laneCount p) fun i =>
    (s.isTvl p && (s.sendLanes p).contains (laneAt p i)) || (s.laneOn (laneAt p i) && s.lanes[laneAt p i].gen != 0)

/-- Where a port has sent nothing else, its lanes send FILL (R68). -/
def State.idleFill (s : State) (p : EgressPort) (before : State) : State :=
  match toLink p with
  | none => s
  | some l => if s.sent != before.sent ∨ s.idleLanes l = 0 then s else s.emit (.fill l (s.idleLanes l))

/-- A frame slot of a port (R199-R207), which comes after the EOF of the frame before; `found` is what the first read of a frame meets in
Cavern. -/
def State.frameSlot (s : State) (p : EgressPort) (cclk : Nat) (found : List CellError) : State :=
  if !s.portSends p || s.takeoverHold p cclk || s.cav.cutTx.any (fun t => t.egress == p) then s
  else (State.decideSlot p cclk found (s.queuedAt p + 1) s).settle

/-- The end of a cut-through frame has arrived whole: what has begun is sent on, and it is a frame like any
other from now on (R185). -/
def State.finishCut (s : State) (id : Nat) : State :=
  let s1 : State := { s with cav := { s.cav with cutIn := s.cav.cutIn.filter fun x => x.2 != id } }
  match s1.cav.cutTx.find? (fun t => t.id == id), s1.stored id with
  | some t, some f =>
    let s2 : State := { s1 with cav := { s1.cav with cutTx := s1.cav.cutTx.filter fun x => x.id != id } }
    (s2.finishFrame t.egress f t.head []).release id
  | _, _ => s1

end Sys2Proof.Machine
end

