-- ==== Sys2Proof/Machine/Plans.lean ====
section
/-! DEFINITION. Machine/Plans.lean: port capacities (R212) and allotment plans: what Column 0 checks and commits
(R220-R222, R267), and the meanings of PLAN_COMPUTE and PLAN_COMMIT_RETRY. -/

namespace Sys2Proof.Machine

/-! ## Capacities (R212) -/

/-- Twice the payload bytes that a lane carries in a beat, by rate code. -/
def lanePayload2 (rate : Nat) : Nat := if rate = 1 then 156250 else if rate = 2 then 78125 else 390625

/-- The capacity of a port in bytes per beat at a width. -/
def State.capacity (s : State) (p : EgressPort) (width : Nat) : Nat :=
  match toLink p with
  | none => 765625
  | some l => lanePayload2 (s.laneRate (laneAt l 0)) * width * (if s.isEth l then 92 else 98) / 200

/-- A port carries frames; the internal one does once Cavern's self-test has made its memory usable (R187, log 98). -/
def State.carries (s : State) (p : EgressPort) : Bool :=
  match toLink p with
  | none => s.bit Reg.CAV_STATUS 0
  | some l => s.portUp l && (s.isTvl l || s.isEth l)

/-- The current width of a port in lanes. -/
def State.widthNow (s : State) (p : EgressPort) : Nat :=
  match toLink p with
  | none => 1
  | some l => if s.isEth l then 1 else s.ports[l].txWidth

/-- SCHED_PORT_CAP: 0 while the port carries no frames. -/
def State.portCap (s : State) (p : EgressPort) : Nat := if s.carries p then s.capacity p (s.widthNow p) else 0

/-- The committed rates of a port add up to more than its capacity (OVERSUB). -/
def State.oversub (s : State) (p : EgressPort) : Bool :=
  s.portCap p != 0 &&
    decide (s.portCap p * 256 < ((List.range 8).map fun c => (s.reg (Reg.SCHED_CIR_ACT p.val c)).toNat).sum)

/-! ## The supervisor -/

/-- The supervising Column (COL_SUPER), as the master it is. -/
def State.supervisor (s : State) : Option Master :=
  match s.fld Reg.COL_SUPER 1 0 with
  | 0 => some 0
  | 2 => some 2
  | _ => none

/-! ## Plans (R220-R222) -/

/-- The committed rate that a class of a port would have under a plan. -/
def State.planCir (s : State) (plan : Plan) (p : EgressPort) (c : Cls) : Nat :=
  match plan.shapers.find? (fun x => x.port == p && x.cls == c) with
  | some x => x.rates.cir.toNat
  | none => (s.reg (Reg.SCHED_CIR_ACT p.val c.val)).toNat

/-- The sum of committed rates of a port under a plan, from class `lo` up. -/
def State.planSum (s : State) (plan : Plan) (p : EgressPort) (lo : Nat) : Nat :=
  ((List.finRange 8).map fun c => if lo ≤ c.val then s.planCir plan p c else 0).sum

/-- What the image's ALLOT section admits for a class of a port; a port it does not list admits none. -/
def State.envelopeOf (s : State) (p : EgressPort) (c : Cls) : Nat :=
  match s.sched.envelopes.find? (fun e => e.port == p) with
  | none => 0
  | some e => (if c = 5 then e.tc5 else if c = 6 then e.tc6 else e.tc7).toNat

/-- The lanes of a port at full width. -/
def State.fullLanes (s : State) (p : EgressPort) : Nat :=
  match toLink p with
  | none => 1
  | some l => s.laneCount l

/-- The ports whose shaper sets a plan changes. -/
def planPorts (plan : Plan) : List EgressPort := (List.finRange 21).filter fun p => plan.shapers.any fun x => x.port == p

/-- The rules of R221 for a plan: in the ports it changes sums within the capacity at full width and TC5 to TC7 within the envelope, and
after a width change TC5 to TC7 within the reduced capacity, which it must see to at every port. -/
def State.planOk (s : State) (plan : Plan) : Bool :=
  ((planPorts plan).all fun p =>
    decide (s.planSum plan p 0 ≤ s.capacity p (s.fullLanes p) * 256) &&
    ([5, 6, 7].all fun (c : Cls) => decide (s.planCir plan p c ≤ s.envelopeOf p c))) &&
  (!plan.widthChange || (List.finRange 21).all fun p => s.portCap p == 0 || decide (s.planSum plan p 5 ≤ s.portCap p * 256))

/-! ## What a plan is computed from (R266) -/

/-- A frame of a tunnel, as far as its egress depends on it. -/
def Tunnel.frame (t : Tunnel) : Frame :=
  { destEp := t.dest, srcEp := t.src, tc := t.tc, cm := false, de := false, kind := 0, pep := 0, dl := false, len := 0, seq := 0, beat := 0,
    sa := 0, hcs := 0, tw := 0, payload := [] }

/-- The source of a tunnel is an endpoint of this hub. -/
def State.sourceHere (s : State) (t : Tunnel) : Bool := epSlot t.src == 0 || epSlot t.src == s.ownSlot

/-- The backbones a tunnel uses, B as true (R157, R158). -/
def State.tunnelBackbones (s : State) (t : Tunnel) : List Bool :=
  if isTwinClass t.frame (s.peekEntry (s.lookupKey t.src)) then [false, true] else [s.flowOnB t.frame]

/-- The port by which the frames of a tunnel come in, on a backbone. -/
def State.tunnelIngress (s : State) (t : Tunnel) (b : Bool) : Option EgressPort :=
  if s.sourceHere t then (s.peekEntry (s.lookupKey t.src)).map portOfEntry else s.route (epSlot t.src) b

/-- The egress ports of this hub that a tunnel loads: those of its group, of its destination here, or its routes where it starts here
or passes through. -/
def State.tunnelPorts (s : State) (t : Tunnel) : List EgressPort :=
  let slot := epSlot t.dest
  if slot = 127 then
    ((s.tunnelBackbones t).flatMap fun b => s.groupSet (epLocal t.dest % 4096) ((s.tunnelIngress t b).getD 20) b).eraseDups
  else if slot = 0 ∨ slot = s.ownSlot then
    if epLocal t.dest = 0 then [20]
    else ((s.peekEntry (s.lookupKey t.dest)).filter fun e => e.valid && e.isLocal).toList.map portOfEntry
  else if s.sourceHere t then
    match s.tunnelBackbones t with
    | [_] => (s.singleRoute t.frame slot).toList
    | bs => bs.filterMap fun b => s.route slot b
  else (s.tunnelBackbones t).filterMap fun b =>
    match s.route (epSlot t.src) b, s.route slot b with
    | some p, some q => if p = q then none else some q
    | _, _ => none

/-- The tunnel list once the queued requests are done (R267). -/
def State.tunnelsAsked (s : State) : List Tunnel :=
  s.sched.requests.foldl (fun l r =>
    let rest := l.filter fun t => t.id != r.tunnel.id
    if r.add then rest ++ [r.tunnel] else rest) s.sched.tunnels

/-- The committed rates of the tunnels that load a class of a port. -/
def loadOf (loads : List (Tunnel × List EgressPort)) (p : EgressPort) (c : Cls) : Nat :=
  (loads.map fun x => if x.1.tc.toNat = c.val ∧ x.2.contains p then x.1.rate.toNat else 0).sum

/-- A plan follows from the inputs of Table ENC-4 (log 97): a raise it follows is the one announced, and every class of every port has a
committed rate of at least what the tunnels, with the queued requests, load it with over the routes that will stand. -/
def State.planFollows (s : State) (plan : Plan) : Bool :=
  let raised := plan.afterRaise.isSome
  let s1 := if raised then s.deriveRoutes else s
  let loads := s.tunnelsAsked.map fun t => (t, s1.tunnelPorts t)
  (match plan.afterRaise with | none => true | some e => s.annOr.epochBeat == e) &&
    (List.finRange 21).all fun p => (List.finRange 8).all fun c => decide (loadOf loads p c ≤ s.planCir plan p c)

/-- The commit groups of a plan, ascending (R220). -/
def planGroups (plan : Plan) : List Nat :=
  (planPorts plan).map (fun p => 0x20 + p.val) ++ [0x40] ++ (if plan.classDefaults.isEmpty then [] else [0x41])

/-- The beat a plan is committed for (R222); PLAN_LEAD 0 and 1 act as 2. -/
def State.planTarget (s : State) (plan : Plan) : Nat :=
  match plan.afterRaise with
  | some e => if s.beatNum.toNat + 2 ≤ e.toNat then e.toNat else s.beatNum.toNat + max 2 (s.fld Reg.SCHED_CFG 15 8)
  | none => s.beatNum.toNat + max 2 (s.fld Reg.SCHED_CFG 15 8)

/-- The four words of a rate set written from an address up. -/
def State.writeRates (s : State) (a : Nat) (r : RateSet) : State :=
  (((s.setReg a r.cir).setReg (a + 4) (r.cbs.setWidth 32)).setReg (a + 8) r.pir).setReg (a + 12) (r.pbs.setWidth 32)

/-- The shadow of every group of a plan written. -/
def State.writePlan (s : State) (plan : Plan) : State :=
  let zero (_ : Nat) : RateSet := { cir := 0, cbs := 0, pir := 0, pbs := 0 }
  let sh := (plan.profiles.filter fun x => x.1 != 0).foldl (fun l x => Store.set zero x.1.toNat x.2 l) s.sched.profShadow
  let s1 : State := { s with sched := { s.sched with profShadow := sh } }
  let s2 := s1.over plan.classDefaults fun s x => s.writeRates (Reg.POL_CD_CIR x.1.val) x.2
  s2.over plan.shapers fun s x =>
    (s.writeRates (Reg.SCHED_CIR x.port.val x.cls.val) x.rates).setRegN (Reg.SCHED_RESET_MODE x.port.val x.cls.val) (b2n x.resetMode)

/-- The groups of a plan committed in turn; a refusal cancels those already made (R222). -/
def State.commitGroups (m : Master) (target : Nat) : List Nat → List Nat → State → State × Bool
  | [], _, s => (s, true)
  | g :: gs, made, s =>
    if s.commitCode g target = 1 then State.commitGroups m target gs (g :: made) (s.commitAt m g target)
    else ((s.commitAt m g target).over made.reverse (fun s g => s.cancelGroup m g), false)

/-- A request is answered (R267). -/
def State.answerRequest (s : State) (r : TunnelReq) (code : Nat) : State :=
  s.setRegN (pmKey r.master Reg.COL_TREQ_RESULT) code

/-- The tunnel list after a request. -/
def State.takeRequest (s : State) (r : TunnelReq) : State :=
  let rest := s.sched.tunnels.filter fun t => t.id != r.tunnel.id
  ({ s with sched := { s.sched with tunnels := if r.add then rest ++ [r.tunnel] else rest } } : State).answerRequest r 1

/-- The requests that a committed plan carries are done (R267). -/
def State.requestsDone (s : State) (rs : List TunnelReq) : State :=
  let s1 := s.over rs State.takeRequest
  { s1 with sched := { s1.sched with requests := s1.sched.requests.filter fun r => !rs.contains r } }

/-- A plan is refused under R221: the old plan stays; the oldest addition queued is refused with it, and a plan that waits with that
addition in it is given up, so that what was refused is never done. -/
def State.rejectPlan (s : State) : State :=
  let s1 := s.count Reg.SCHED_PLAN_REJECT
  match s1.sched.requests.find? (·.add) with
  | none => s1
  | some r => ({ s1 with sched := { s1.sched with
      requests := s1.sched.requests.erase r
      retry := s1.sched.retry.filter fun x => !x.requests.contains r } } : State).answerRequest r 3

/-- A plan is kept for another round of R222. -/
def State.keepPlan (s : State) (x : PlanTry) : State := { s with sched := { s.sched with retry := some x } }

/-- One round of R222: t is fixed as it begins, then a group of the plan that has a pending commit is waited for; else all is written and
committed, and where a commit is refused the next beat begins again with a new t. -/
def State.tryPlan (s : State) (m : Master) (x : PlanTry) : State :=
  let t := x.target.getD (s.planTarget x.plan)
  if (planGroups x.plan).any fun g => (s.pendingCommit g).isSome then s.keepPlan { x with target := some t }
  else
    match State.commitGroups m t (planGroups x.plan) [] (s.writePlan x.plan) with
    | (s1, true) => ({ s1 with sched := { s1.sched with retry := none } } : State).requestsDone x.requests
    | (s1, false) => (s1.keepPlan { x with target := none }).count Reg.SCHED_PLAN_FAIL

/-- PLAN_COMPUTE (R221, R222, R266): the supervisor has computed a plan, in RUN. A plan that does not follow from its inputs is none that
the supervisor computes, and nothing happens (log 97). -/
def execPlanCompute (plan : Plan) (s : State) : Out :=
  .next (s.whenCore fun s =>
    match s.supervisor with
    | none => s
    | some m =>
      if s.mode != .run || !s.planFollows plan then s
      else if s.planOk plan then s.tryPlan m { plan := plan, target := none, requests := s.sched.requests }
      else s.rejectPlan)

/-- PLAN_COMMIT_RETRY (R222): a plan that waits or was refused goes on at the next beat. -/
def execPlanCommitRetry (s : State) : Out :=
  .next (s.whenCore fun s =>
    match s.supervisor, s.sched.retry with
    | some m, some x => if s.mode != .run then s else s.tryPlan m x
    | _, _ => s)

end Sys2Proof.Machine
end

