-- ==== Sys2Proof/Machine/EngineOps.lean ====
section
/-! DEFINITION. Machine/EngineOps.lean: engines and roles, task tables, Columns and supervision (chapter "Tunnel
engines and Columns"), with what step 8 of the head does for them. -/

namespace Sys2Proof.Machine

/-- An engine changed. -/
def State.modEngine (s : State) (e : EngineIx) (f : Engine → Engine) : State :=
  { s with eng := { s.eng with engines := vmod s.eng.engines e f } }

/-- A role changed. -/
def State.modRole (s : State) (r : RoleIx) (f : Role → Role) : State :=
  { s with eng := { s.eng with roles := vmod s.eng.roles r f } }

/-- A Column changed. -/
def State.modColumn (s : State) (c : ColumnIx) (f : Column → Column) : State :=
  { s with eng := { s.eng with columns := vmod s.eng.columns c f } }

/-! ## Takeover (R257) -/

/-- An engine is declared failing: in this cycle it loses its role, halts and is quarantined, which
resets it (R237, R257, R258). -/
def State.declareFailing (s : State) (e : EngineIx) : State :=
  let s1 := s.modEngine e fun _ => { state := .quarantine, role := none, imem := [], dmem := [] }
  match s.eng.engines[e].role with
  | none => s1
  | some r => s1.modRole r fun x => { x with engine := none, startHead := some s.heads, former := e, outstanding := none, late := false }

/-- The lowest-numbered SPARE engine. -/
def State.lowestSpare (s : State) : Option EngineIx :=
  (List.finRange 18).find? fun e => s.eng.engines[e].state == .spare

/-- A role is given to an engine, whose DMEM takes the role's seed (R250): counted (ENG_TAKEOVERS). -/
def State.assignRole (s : State) (r : RoleIx) (e : EngineIx) : State :=
  ((s.modEngine e fun x => { x with state := .active, role := some r, dmem := s.eng.roles[r].seed }).modRole r fun x =>
    { x with engine := some e, vacant := false }).count Reg.ENG_TAKEOVERS

/-- FAULT_N follows whether any role is vacant (R257). -/
def State.noteVacancy (s : State) : State :=
  if (List.finRange 16).any fun r => s.eng.roles[r].vacant then s.raiseFault .roleVacant else s.dropFault .roleVacant

/-- A role without an engine gets the lowest spare where AUTO_SPARE = 1, else becomes vacant (R257). -/
def State.assignSpare (s : State) (r : RoleIx) : State :=
  match (if s.bit Reg.ENG_CFG 16 then s.lowestSpare else none) with
  | some e => s.assignRole r e
  | none =>
    ((s.modRole r fun x => { x with vacant := true }).logEvent 0x10 0x01 [r.val, (s.eng.roles[r].former).val]).noteVacancy

/-- A vacant role is filled at a head once an engine is SPARE, its epoch raised (R257). -/
def State.fillRole (s : State) (r : RoleIx) : State :=
  if !s.eng.roles[r].vacant || !s.bit Reg.ENG_CFG 16 then s
  else
    match s.lowestSpare with
    | none => s
    | some e => ((s.assignRole r e).modRole r fun x => { x with startHead := some (s.heads - 1) }).noteVacancy

/-- Every vacant role, ascending. -/
def State.fillVacant (s : State) : State := s.over (List.finRange 16) State.fillRole

/-! ## Task tables (R252-R254) -/

/-- The beat index of the present beat for a table. -/
def State.taskIndex (s : State) (table : List (List TaskEntry)) : Nat :=
  (s.beatNum.toNat - s.eng.anchor.toNat) % max 1 table.length

/-- The descriptors that the entries of a list take, one entry after the other (Table ENC-2). -/
def takenBy : List TaskEntry → Nat → Nat
  | [], _ => 0
  | t :: ts, n =>
    let k := if t.budget = 0 ∨ (t.flags.getLsbD 0 = true ∧ n = 0) then 0 else min t.maxf.toNat n
    k + takenBy ts (n - k)

/-- The first n descriptors of an inbox are taken, and their frames' cells released (R256). -/
def State.takeDescriptors (s : State) (k n : Nat) : State :=
  let ds := (s.inboxOf k).take n
  ((s.modInbox k fun l => l.drop n).over ds fun s d => s.release d.id).settle

/-- Step 8 for a role: a takeover due raises the epoch and releases on the new engine (R257); else an unretired table is
an overrun, the third of which declares its engine failing, and a retired one gives way to the next (R254). -/
def State.releaseRole (s : State) (r : RoleIx) : State :=
  let x := s.eng.roles[r]
  match x.engine with
  | none => s
  | some e =>
    let k := s.taskIndex x.table
    match x.startHead with
    | some h =>
      if s.heads ≤ h then s
      else s.modRole r fun y => { y with epoch := y.epoch + 1, ovr := 0, startHead := none, outstanding := some k, late := false }
    | none =>
      if x.outstanding.isSome then
        let s1 := (s.count (Reg.ENG_OVERRUNS r.val)).modRole r fun y => { y with ovr := y.ovr + 1, late := true }
        if x.ovr + 1 = 3 then s1.declareFailing e else s1
      else if s.eng.halting then s
      else s.modRole r fun y => { y with ovr := if y.late then y.ovr else 0, late := false, outstanding := some k }

/-! ## Columns (R259-R264) -/

/-- The working half of a Column's TCM takes the image copy (R259, R260). -/
def State.restoreTcm (s : State) (c : ColumnIx) : State :=
  let lo := 0x0300000000 + c.val * 0x100000
  let below := s.mem.filter fun x => decide (x.1 < lo)
  let copy := (s.mem.filter fun x => decide (lo + 0x20000 ≤ x.1) && decide (x.1 < lo + 0x40000)).map fun x => (x.1 - 0x20000, x.2)
  let above := s.mem.filter fun x => decide (lo + 0x20000 ≤ x.1)
  { s with mem := below ++ copy ++ above }

/-- A Column's halt: the supervisor's is noted for the next head (R262); the copy over its working half starts; too
many restarts hold it in reset as FAILED (R260, R261). The lines of its cache are lost (log 103). -/
def State.haltColumn (s : State) (c : ColumnIx) : State :=
  let recent := (s.eng.columns[c].restarts.filter fun h => decide (s.heads < h + 16000)) ++ [s.heads]
  let failed := decide (s.fld Reg.COL_CFG 7 0 < recent.length)
  let sup := s.supervisor == some (⟨c.val, by omega⟩ : Master)
  let s1 := s.modColumn c fun x =>
    { x with
      state := if failed then .failed else .restoring
      ready := false, ovr := 0, outstanding := none, late := false, copyDone := false
      restarts := recent, lines := [] }
  let s2 : State := { s1 with eng := { s1.eng with superHalt := s1.eng.superHalt || sup } }
  if failed then (s2.logEvent 0x11 0x02 [c.val]).raiseFault .columnFailed else s2

/-- A Column may run: it is not FAILED (R261), it has firmware, and Column 3 its enable (R268). -/
def State.mayRun (s : State) (c : ColumnIx) : Bool :=
  s.eng.columns[c].state != .failed && s.eng.columns[c].loaded && (c.val != 3 || s.bit Reg.COL_CFG 8)

/-- Step 8 for a Column: a restart whose copy has ended (R260), else the check and release of R254. -/
def State.releaseColumn (s : State) (c : ColumnIx) : State :=
  let x := s.eng.columns[c]
  let k := s.taskIndex x.table
  match x.state with
  | .restoring =>
    if x.copyDone then s.modColumn c fun y =>
      { y with state := .running, copyDone := false, outstanding := some k, late := false, ovr := 0, resumed := some s.heads }
    else s
  | .running =>
    if x.outstanding.isSome then
      let s1 := (s.count (Reg.COL_OVERRUNS c.val)).modColumn c fun y => { y with ovr := y.ovr + 1, late := true }
      if x.ovr + 1 = 3 then (s1.count (Reg.COL_RESTARTS c.val)).haltColumn c else s1
    else s.modColumn c fun y => { y with ovr := if y.late then y.ovr else 0, late := false, outstanding := some k }
  | _ => s

/-- A Column can supervise (R262): Column 0 while RUNNING and READY, Column 2 while RUNNING. -/
def State.columnUp (s : State) (c : ColumnIx) : Bool := s.eng.columns[c].state == .running && (c.val != 0 || s.eng.columns[c].ready)

/-- COL_SUPER takes the supervising Column, 3 for none; a change is noted for an entry under way (Table PWR-4). -/
def State.setSuper (s : State) (v : Nat) : State :=
  ({ s with pwr := { s.pwr with superMoved := s.pwr.superMoved || s.fld Reg.COL_SUPER 1 0 != v } } : State).setRegN Reg.COL_SUPER v

/-- Column 2 takes supervision: it cancels the pending commits of groups 0x20 to 0x41 that master 0x00 made (R263). -/
def State.promote (s : State) : State :=
  let gs := (s.beat.commits.filter fun c => c.master == 0 && decide (0x20 ≤ c.group.toNat) && decide (c.group.toNat ≤ 0x41)).map (·.group.toNat)
  let s1 := ((s.setSuper 2).count Reg.COL_PROMOTIONS).over gs fun s g => s.cancelGroup 2 g
  { s1 with sched := { s1.sched with retry := none } }

/-- Column 0 takes supervision again. -/
def State.handBack (s : State) : State := (s.setSuper 0).count Reg.COL_HANDBACKS

/-- As step 8 begins: supervision passes on from a Column that has halted since the head before, or is handed back (R262, R264). -/
def State.passSupervision (s : State) : State :=
  let s1 : State := { s with eng := { s.eng with superHalt := false } }
  match s.supervisor with
  | none => s1
  | some m =>
    if s.eng.superHalt then
      if m = 0 && s.columnUp 2 then s1.promote
      else if m ≠ 0 && s.columnUp 0 then s1.handBack
      else s1.setSuper 3
    else if m = 2 && s.columnUp 0 && decide (s.eng.columns[(0 : ColumnIx)].readyHead + 16 ≤ s.heads) &&
        !s.beat.commits.any (fun c => c.master == 2) then s1.handBack
    else s1

/-- As step 8 ends: where no Column supervises, one that can takes over (R262). -/
def State.takeSupervision (s : State) : State :=
  if s.supervisor.isSome then s
  else if s.columnUp 0 then s.handBack
  else if s.columnUp 2 then s.promote
  else s

/-- Step 8 of the head for engines and Columns: a Column that its third overrun halts here hands supervision on at the next head. -/
def State.engineHead (s : State) : State :=
  let s1 := s.passSupervision.fillVacant.over (List.finRange 16) State.releaseRole
  (s1.over (List.finRange 4) State.releaseColumn).takeSupervision

/-- The engine of a role is declared failing. -/
def State.declareRole (s : State) (r : RoleIx) : State :=
  match s.eng.roles[r].engine with
  | some e => s.declareFailing e
  | none => s

/-- The takeovers commanded take effect at a head (R257). -/
def State.commandedTakeovers (s : State) : State :=
  let rs := s.eng.takeovers
  let s1 : State := { s with eng := { s.eng with takeovers := [] } }
  s1.over rs State.declareRole

end Sys2Proof.Machine
end

