-- ==== Sys2Proof/Machine/EpOps.lean ====
section
/-! DEFINITION. Machine/EpOps.lean: the commands of TUN_EP_CMD and TUN_MAP_CMD (R154, R159, R161), of COL_TREQ_CMD
(R267) and of ENG_CMD (R257, R258). -/

namespace Sys2Proof.Machine

/-! ## The words of an entry (Table TUN-6) -/

/-- The command fields of an entry read from its words; the fields the hub writes are taken from `old`. -/
def entryFrom (w : Nat → Word) (old : EpEntry) : EpEntry :=
  { old with
    valid := (w 0).getLsbD 0
    revoked := (w 0).getLsbD 1
    twin := (w 0).getLsbD 3
    isLocal := (w 0).getLsbD 4
    port := BitVec.ofNat 5 (bitsOf (w 0) 9 5)
    kinds := BitVec.ofNat 9 (bitsOf (w 0) 18 10)
    classes := BitVec.ofNat 8 (bitsOf (w 0) 26 19)
    profile := BitVec.ofNat 12 (bitsOf (w 2) 11 0)
    desc := Vector.ofFn fun i => w (8 + i.val) }

/-- Word i of an entry. -/
def EpEntry.word (e : EpEntry) (i : Nat) : Word :=
  match i with
  | 0 => BitVec.ofNat 32 (b2n e.valid + 2 * b2n e.revoked + 4 * b2n e.pin + 8 * b2n e.twin + 16 * b2n e.isLocal +
      e.port.toNat * 2 ^ 5 + e.kinds.toNat * 2 ^ 10 + e.classes.toNat * 2 ^ 19)
  | 1 => BitVec.ofNat 32 (e.gen.toNat + e.nextSeq.toNat * 2 ^ 8)
  | 2 => BitVec.ofNat 32 e.profile.toNat
  | 3 => e.ctok
  | 4 => e.ptok
  | 5 => BitVec.ofNat 32 (e.stamp.toNat % 2 ^ 32)
  | 6 => BitVec.ofNat 32 (e.stamp.toNat / 2 ^ 32)
  | 8 => e.desc[0]
  | 9 => e.desc[1]
  | 10 => e.desc[2]
  | 11 => e.desc[3]
  | 12 => e.desc[4]
  | 13 => e.desc[5]
  | 14 => BitVec.ofNat 32 (e.cmdBeat.toNat % 2 ^ 32)
  | 15 => BitVec.ofNat 32 (e.cmdBeat.toNat / 2 ^ 32 + e.cmdMaster.toNat * 2 ^ 16)
  | _ => 0

/-- The 64 bytes of an entry (R145). -/
def EpEntry.bytes (e : EpEntry) : List Byte := (List.range 16).flatMap fun i => leBytes 4 (e.word i).toNat

/-- A reserved bit of Table TUN-6 is set in the words given. -/
def reservedSet (w : Nat → Word) : Bool :=
  decide (bitsOf (w 0) 31 27 ≠ 0) || decide (bitsOf (w 1) 31 24 ≠ 0) || decide (bitsOf (w 2) 31 12 ≠ 0) ||
    decide (bitsOf (w 6) 31 16 ≠ 0) || w 7 != 0 || decide (bitsOf (w 15) 31 22 ≠ 0)

/-! ## Endpoint commands (R161, Tables TUN-8 and TUN-13) -/

/-- TUN_EP_SEL of a master. -/
def State.epSel (s : State) (m : Master) : EpId := BitVec.ofNat 25 (s.fld (pmKey m Reg.TUN_EP_SEL) 24 0)

/-- TUN_EPW of a master. -/
def State.epw (s : State) (m : Master) (i : Nat) : Word := s.reg (pmKey m (Reg.TUN_EPW i))

/-- TUN_EP_SEL is refused with BADEP. -/
def State.badEp (s : State) (op : Nat) (ep : EpId) : Bool :=
  (epSlot ep == 0 && op != 1) || (epIsGroup ep && bitsOf (ep.setWidth 32) 17 12 != 0) ||
    (epSlot ep != 0 && !epIsGroup ep && epSlot ep == s.ownSlot && epLocal ep == 0x3FFFF)

/-- The entry given is refused with BADENTRY. -/
def State.badEntry (s : State) (m : Master) (ep : EpId) : Bool :=
  reservedSet (s.epw m) || decide (20 < bitsOf (s.epw m 0) 9 5) ||
    ((s.epw m 0).getLsbD 4 && (epIsGroup ep || s.ownSlot == 0 || epSlot ep != s.ownSlot))

/-- Tokens filled to the profile's bucket sizes, stamped now. -/
def State.filled (s : State) (r : RateSet) (e : EpEntry) : EpEntry :=
  { e with ctok := BitVec.ofNat 32 (r.cbs.toNat * 256), ptok := BitVec.ofNat 32 (r.pbs.toNat * 256), stamp := s.beatNum }

/-- The entry that a command would leave, before GEN, CMD_BEAT and CMD_MASTER. -/
def State.epChanged (s : State) (m : Master) (op : Nat) (e : EpEntry) : EpEntry :=
  match op with
  | 2 => let x := entryFrom (s.epw m) e; s.filled (s.profile x.profile.toNat) x
  | 3 => entryFrom (s.epw m) e
  | 4 => { e with pin := true }
  | 5 => { e with pin := false }
  | 6 => { e with revoked := true }
  | 7 => { e with valid := false, revoked := false }
  | _ => e

/-- The entry can be reached: pinned in the cache, or in Sump (NOSUMP). -/
def State.epReachable (s : State) (ep : EpId) : Bool := (s.cacheLine ep).any (·.entry.pin) || s.sumpReady

/-- The entry as a command finds it: the cached hot half over the cold half. -/
def State.epNow (s : State) (ep : EpId) : EpEntry := (s.peekEntry ep).getD EpEntry.zero

/-- Pinned entries of the cache set of an identifier. -/
def State.pinnedInSet (s : State) (ep : EpId) : Nat := s.tun.cache.countP fun l => l.entry.pin && cacheSet l.ep == cacheSet ep

/-- Pinned entries in all. -/
def State.pinned (s : State) : Nat := s.tun.cache.countP fun l => l.entry.pin

/-- The result code of an endpoint command: the first failing check of R161. -/
def State.epCode (s : State) (m : Master) (op : Nat) : Nat :=
  let ep := s.epSel m
  let e := s.epNow ep
  let changes := op != 1 && s.epChanged m op e != e
  if 8 ≤ op then 6
  else if s.badEp op ep then 5
  else if (op = 2 ∨ op = 3) ∧ s.badEntry m ep = true then 7
  else if changes && s.tun.changed.any (fun c => c.1 == ep && decide (s.heads < c.2 + 16)) then 8
  else if !s.epReachable ep then 2
  else if op = 4 ∧ ¬ e.pin = true ∧ 16384 ≤ s.pinned then 3
  else if op = 4 ∧ ¬ e.pin = true ∧ 12 ≤ s.pinnedInSet ep then 4
  else 1

/-- A changed entry is written where the hub holds it: the cached line, and the table for what is not cached, for a
pinned entry, and for the cold half (R145, R147). The error mark of a stored copy goes (R184). -/
def State.writeEntry (s : State) (ep : EpId) (e : EpEntry) : State :=
  let cached := (s.cacheLine ep).isSome
  let s1 := if s.sumpReady then
      (if cached && !e.pin then s.setTable ep ((s.tableEntry ep).hotOver e) else s.setTable ep e)
    else s
  let s2 : State := { s1 with tun := { s1.tun with poison := s1.tun.poison.filter fun x => x != ep } }
  if cached then s2.setEntry ep e else if e.pin then s2.fillCache ep e else s2

/-- An unpinned entry without Sump leaves the cache, which then holds pinned entries only (R147). -/
def State.dropUnpinned (s : State) (ep : EpId) : State :=
  if s.sumpReady then s
  else { s with tun := { s.tun with cache := s.tun.cache.filter fun l => l.ep != ep || l.entry.pin } }

/-- An endpoint command of a master (Table TUN-8): the result and the GEN after it stand in TUN_EP_RESULT. -/
def State.epCommand (s : State) (m : Master) (op : Nat) : State :=
  if op = 0 then s
  else
    let ep := s.epSel m
    let code := s.epCode m op
    let e := s.epNow ep
    let result (s : State) (g : BitVec 8) : State := s.setRegN (pmKey m Reg.TUN_EP_RESULT) (code + 16 * g.toNat)
    if code ≠ 1 then result s e.gen
    else if op = 1 then
      result (s.over (List.range 16) fun s i => s.setReg (pmKey m (Reg.TUN_EPW i)) (e.word i)) e.gen
    else
      let x := s.epChanged m op e
      if x = e then result s e.gen
      else
        let y : EpEntry := { x with gen := e.gen + 1, cmdBeat := s.beatNum, cmdMaster := BitVec.ofNat 6 m.val }
        let s1 := (s.writeEntry ep y).dropUnpinned ep
        let s2 : State := { s1 with tun := { s1.tun with
          changed := (s1.tun.changed.filter fun c => c.1 != ep && decide (s.heads < c.2 + 16)) ++ [(ep, s.heads)] } }
        result s2 y.gen

/-! ## The mapping table (R159, Table TUN-10) -/

/-- The key that a master has written: local port, MAC, VID. -/
def State.mapKey (s : State) (m : Master) : LocalPort × BitVec 48 × BitVec 12 :=
  let hi := s.reg (pmKey m Reg.TUN_MAP_KEY_HI)
  (⟨bitsOf hi 31 28 % 16, Nat.mod_lt _ (by decide)⟩,
   BitVec.ofNat 48 ((s.reg (pmKey m Reg.TUN_MAP_KEY_LO)).toNat + 2 ^ 32 * bitsOf hi 15 0), BitVec.ofNat 12 (bitsOf hi 27 16))

/-- A mapping entry has the key given. -/
def MapEntry.hasKey (e : MapEntry) (k : LocalPort × BitVec 48 × BitVec 12) : Bool :=
  e.port == k.1 && e.mac == k.2.1 && e.vid == k.2.2

/-- The set of 4 ways that a key falls in. -/
def keySet (p : LocalPort) (mac : BitVec 48) (vid : BitVec 12) : Nat := Config.mapSet p.val mac.toNat vid.toNat % 2048

/-- A mapping command of a master: 1 ADD, 2 DELETE, 3 LOOKUP. -/
def State.mapCommand (s : State) (m : Master) (op : Nat) : State :=
  if op = 0 then s
  else
    let k := s.mapKey m
    let v := s.reg (pmKey m Reg.TUN_MAP_VAL)
    let found := s.tun.map.find? fun e => e.hasKey k
    let inSet := s.tun.map.countP fun e => keySet e.port e.mac e.vid == keySet k.1 k.2.1 k.2.2
    let result (s : State) (c : Nat) : State := s.setRegN (pmKey m Reg.TUN_MAP_RESULT) c
    if k.2.2 = 0xFFF ∨ (op = 1 ∧ bitsOf v 24 0 = 0) then result s 4
    else if op = 1 then
      if found.isNone && decide (4 ≤ inSet) then result s 2
      else
        let e : MapEntry := { port := k.1, mac := k.2.1, vid := k.2.2, ep := BitVec.ofNat 25 (bitsOf v 24 0), tc := BitVec.ofNat 3 (bitsOf v 27 25) }
        result { s with tun := { s.tun with map := (s.tun.map.filter fun x => !x.hasKey k) ++ [e] } } 1
    else
      match found with
      | none => result s 3
      | some e =>
        if op = 2 then result { s with tun := { s.tun with map := s.tun.map.filter fun x => !x.hasKey k } } 1
        else result (s.setRegN (pmKey m Reg.TUN_MAP_VAL) (e.ep.toNat + e.tc.toNat * 2 ^ 25)) 1

/-! ## Tunnel requests (R267) -/

/-- A master's request waits for the supervisor (COL_TREQ_CMD.BUSY). -/
def State.treqBusy (s : State) (m : Master) : Bool := s.sched.requests.any fun r => r.master == m

/-- The tunnel that a master has written. -/
def State.treqTunnel (s : State) (m : Master) (id : Nat) : Tunnel :=
  let w1 := s.reg (pmKey m Reg.COL_TREQ_W1)
  { id := BitVec.ofNat 16 id
    src := BitVec.ofNat 25 (s.fld (pmKey m Reg.COL_TREQ_W0) 24 0)
    dest := BitVec.ofNat 25 (bitsOf w1 24 0)
    tc := BitVec.ofNat 3 (bitsOf w1 27 25)
    rate := s.reg (pmKey m Reg.COL_TREQ_W2) }

/-- A tunnel number is in the plan's inputs, or will be once the queued requests are done. -/
def State.tunnelKnown (s : State) (id : Nat) : Bool :=
  let base := s.sched.tunnels.any fun t => t.id.toNat == id
  s.sched.requests.foldl (fun b r => if r.tunnel.id.toNat = id then r.add else b) base

/-- The answer that a request gets at once, 0 where it is queued (Table ENC-7): NOSUPER answers any request made while COL_SUPER shows
none; the order of the other codes is the model's, the lowest that holds (DESIGN CHOICE, log 131). -/
def State.treqCode (s : State) (op id : Nat) : Nat :=
  if s.supervisor.isNone then 8
  else if 16 ≤ s.sched.requests.length then 2
  else if op = 3 then 4
  else if op = 2 ∧ id ≠ 0 ∧ s.tunnelKnown id = false then 5
  else if op = 1 ∧ id ≠ 0 ∧ s.tunnelKnown id = true then 6
  else if id = 0 then 7
  else 0

/-- A write of COL_TREQ_CMD. -/
def State.treqCommand (s : State) (m : Master) (w : Word) : State :=
  let op := bitsOf w 17 16
  let id := bitsOf w 15 0
  if op = 0 then s
  else
    let code := s.treqCode op id
    if code ≠ 0 then s.setRegN (pmKey m Reg.COL_TREQ_RESULT) code
    else
      let r : TunnelReq := { master := m, add := op == 1, tunnel := s.treqTunnel m id }
      { s with sched := { s.sched with requests := s.sched.requests ++ [r] } }

/-! ## Engine commands (Table ENC-6) -/

/-- The answer to an engine command (ENG_CMD_RESULT): MODE, BADOP, then the checks on its target (log 40). -/
def State.engCode (s : State) (op target : Nat) : Nat :=
  if s.mode != .run then 5
  else if op = 3 then 4
  else if op = 1 then
    if h : target < 16 then
      (if (s.eng.roles[(⟨target, h⟩ : RoleIx)]).engine.isNone || (s.eng.roles[(⟨target, h⟩ : RoleIx)]).startHead.isSome then 3
       else if s.lowestSpare.isNone then 2 else 1)
    else 3
  else if h : target < 18 then (if s.eng.engines[(⟨target, h⟩ : EngineIx)].state == .failed then 1 else 3)
  else 3

/-- A write of ENG_CMD. A takeover is declared at the next head; a retest quarantines the engine at once. -/
def State.engCommand (s : State) (m : Master) (w : Word) : State :=
  let op := bitsOf w 9 8
  let t := bitsOf w 4 0
  if op = 0 then s
  else
    let code := s.engCode op t
    let s1 := s.setRegN (pmKey m Reg.ENG_CMD_RESULT) code
    if code ≠ 1 then s1
    else if op = 1 then { s1 with eng := { s1.eng with takeovers := s1.eng.takeovers ++ [⟨t % 16, Nat.mod_lt _ (by decide)⟩] } }
    else s1.modEngine ⟨t % 18, Nat.mod_lt _ (by decide)⟩ fun x => { x with state := .quarantine, imem := [], dmem := [] }

end Sys2Proof.Machine
end

