-- ==== Sys2Proof/Machine/SaveOps.lean ====
section
/-! DEFINITION. Machine/SaveOps.lean: the save set of Table PWR-7, what is copied into save RAM and what the restore
engine writes back (R389-R392). -/

namespace Sys2Proof.Machine

/-- The registers of the save set in the order of Table PWR-7, but for the hub slot and the MPU registers. -/
def savedPlain : List Nat :=
  [Reg.BEAT_NUM, Reg.BEAT_NUM_HI, Reg.BEAT_ROLE, Reg.TOPO_CFG, Reg.TRK_HOLD_WIN, Reg.LANE_TREND_CTL, Reg.LOC_GROUP,
    Reg.TUN_CFG, Reg.CAV_CFG, Reg.CAV_CUT_EN, Reg.CAV_RETURN_AHEAD, Reg.SUMP_CFG, Reg.SUMP_GEOM, Reg.SCHED_CFG,
    Reg.POL_CFG, Reg.DEP_CFG, Reg.DEP_BOUND, Reg.ENG_CFG, Reg.ENG_AGENT_ROLE, Reg.COL_CFG, Reg.SEC_REKEY,
    Reg.SEC_GCM_MAP, Reg.BOOT_CFG, Reg.BOOT_STRAPS_EFF, Reg.PWR_CFG, Reg.AVS_CFG, Reg.AVS_CFG2, Reg.AVS_TARGET,
    Reg.USB_CFG, Reg.USB_VID_PID, Reg.USB_MF_CFG, Reg.PD_CFG] ++
  (List.range 4).flatMap (fun t => [Reg.TRK_CFG t, Reg.CAV_CRED_RES t]) ++ (List.range 20).map Reg.SEC_PORT_CFG ++
  (List.range 16).flatMap (fun n => [Reg.LOC_MODE n, Reg.TUN_ETH_DEF_SRC n, Reg.TUN_ETH_DEF_DST n, Reg.CAV_CRED_RES_L n]) ++
  (List.range 256).map Reg.ENG_EP_ROLE ++
  (List.range 168).flatMap (fun q => [Reg.CAV_Q_MIN q, Reg.CAV_Q_MARK q, Reg.CAV_Q_SPILL q, Reg.CAV_Q_DROP q]) ++
  (List.range 3).flatMap (fun k => Reg.PD_PORT_CFG k :: (List.range 4).map fun i => Reg.PD_SRC_PDO k i)

/-- The region registers of access protection, which are restored before MPU_CFG (R319, R390). -/
def savedMpu : List Nat := (List.range 64).flatMap fun i => (List.range 6).map fun w => Reg.MPU_RGN_START_LO i + 4 * w

/-- Whether a register belongs to the save set, so that a REGINIT record naming it is skipped in a wake (R394). -/
def isSaved (a : Nat) : Bool :=
  savedPlain.contains a || savedMpu.contains a || a == Reg.MPU_CFG ||
    (List.range 32).any (fun l => a == Reg.LANE_CFG l)

/-- The bits of a register that are saved: those of its CTL, GRD and SHD fields, and all of one that Table PWR-7 names and that has none
(R389). -/
def savedBits (a : Nat) : Word :=
  let m := (((regRow a).map (·.parts)).getD []).foldl (init := 0) fun m x =>
    match x.1 with
    | .ctl | .grd | .shd => m ||| x.2
    | _ => m
  if m = 0 then 0xFFFFFFFF else BitVec.ofNat 32 m

/-- The save, taken in the order in which it is restored: of LANE_CFG the active value, the slot held, the MPU regions
and last MPU_CFG (R389, R390). -/
def State.saveSet (s : State) : List (Nat × Word) :=
  savedPlain.map (fun a => (a, s.reg a &&& savedBits a)) ++
    (List.range 32).map (fun l => (Reg.LANE_CFG l, s.reg (Reg.LANE_CFG_ACT l))) ++
    [(Reg.TOPO_STATUS, BitVec.ofNat 32 (s.fld Reg.TOPO_STATUS 6 0))] ++
    savedMpu.map (fun a => (a, s.reg a)) ++ [(Reg.MPU_CFG, s.reg Reg.MPU_CFG)]

/-- The bytes of a record of the save RAM, in the order in which it is taken: the registers' words, GEN, copy; little-endian (PRESUMED,
log 116). -/
def Save.text (v : Save) : List Byte :=
  v.regs.flatMap (fun x => leBytes 4 x.2.toNat) ++ leBytes 4 v.gen.toNat ++ leBytes 4 v.copy.val

/-- The CRC-32 of a save holds (R392). -/
def Save.crcOk (v : Save) : Bool := v.crc == crc32 v.text

/-- The save with GEN and copy of the image in use, and its CRC-32 (R389). -/
def State.makeSave (s : State) : Save :=
  let v : Save := { regs := s.saveSet, gen := s.boot.gen, copy := (s.boot.chosen).getD 0, crc := 0 }
  { v with crc := crc32 v.text }

/-- The rules of access protection in force are those of the region registers (R315). -/
def State.rulesFromRegs (s : State) : State :=
  { s with acc := { s.acc with
      rules := s.regs.filter fun x => decide (Reg.MPU_RGN_START_LO 0 ≤ x.1) && decide (x.1 < Reg.MPU_RGN_START_LO 64)
      changes := [] } }

end Sys2Proof.Machine
end

