-- ==== Sys2Proof/Machine/CavernOps.lean ====
section
/-! DEFINITION. Machine/CavernOps.lean: chambers and the spare (R188, R189), the spill path (R177-R181) and Sump's
training and loss (R182-R184). -/

namespace Sys2Proof.Machine

/-! ## Chambers (R188, R189) -/

/-- The logical chamber that a physical chamber serves. -/
def State.servedBy (s : State) (ph : ChamberIx) : Option (Fin 16) :=
  (List.finRange 16).find? fun c => s.cav.chamberOf[c] == ph && !s.fenced c.val

/-- Logical chamber c moves to the spare: its map epoch rises and its older cells are doomed (R188). -/
def State.mapSpare (s : State) (ph : ChamberIx) (c : Fin 16) : State :=
  let s1 : State := { s with cav := { s.cav with
    chamberOf := vset s.cav.chamberOf c 16
    mapEpoch := vmod s.cav.mapEpoch c (· + 1) } }
  ((s1.setBit Reg.CAV_STATUS 1 true).setFld Reg.CAV_STATUS 8 5 c.val).logEvent 0x0A 0x01 [ph.val, c.val]

/-- Logical chamber c is fenced without storage (R189). -/
def State.fence (s : State) (c : Fin 16) : State :=
  (((s.setBit Reg.CAV_STATUS (9 + c.val) true).setBit Reg.CAV_STATUS 3 true).logEvent 0x0A 0x02 [c.val]).raiseFault .chamberFenced

/-- A physical chamber has failed: an unused spare becomes unavailable, a chamber that serves moves to the spare or is fenced, and one that
serves nothing any more changes nothing (R188, R189). -/
def State.failChamber (s : State) (ph : ChamberIx) : State :=
  let s1 : State := { s with cav := { s.cav with chamberBad := s.cav.chamberBad ||| BitVec.ofNat 17 (2 ^ ph.val) } }
  match s1.servedBy ph with
  | none => if ph.val = 16 ∧ s1.bit Reg.CAV_STATUS 1 = false then s1.setBit Reg.CAV_STATUS 2 true else s1
  | some c => if !s1.bit Reg.CAV_STATUS 1 && !s1.bit Reg.CAV_STATUS 2 then s1.mapSpare ph c else s1.fence c

/-- The uncorrectable events of a chamber within the last 16,000 heads exceed UE_LIMIT (R188). -/
def State.overUeLimit (s : State) (ph : ChamberIx) : Bool :=
  decide (s.fld Reg.CAV_CFG 11 4 < (s.cav.ueEvents[ph].filter fun h => decide (s.heads < h + 16000)).length)

/-! ## The spill path (R177-R181) -/

/-- A reference of a queue changed. -/
def State.modRef (s : State) (q : QueueIx) (id : Nat) (f : QRef → QRef) : State :=
  s.modQueue q fun x => { x with refs := x.refs.map fun r => if r.id = id then f r else r }

/-- The cells queued ahead of a reference. -/
def cellsBefore (id : Nat) : List QRef → Nat
  | [] => 0
  | r :: rs => if r.id = id then 0 else r.cells + cellsBefore id rs

/-- CAV_RETURN_AHEAD: 0-36 act as 37 (Table CAV-6). -/
def State.returnAhead (s : State) : Nat := max 37 (s.fld Reg.CAV_RETURN_AHEAD 11 0)

/-- The oldest spilled frame of a queue whose cells are all in Sump. -/
def State.returnNext (s : State) (q : QueueIx) : Option QRef :=
  match s.cav.queues[q].refs.find? (fun r => r.spilled) with
  | some r => if r.waiting then none else some r
  | none => none

/-- A page is freed when the last of its cells has returned: the cells of the first page already gone. -/
def State.pageReturned (s : State) (q : QueueIx) (n : Nat) : State :=
  s.modQueue q fun x => { x with pageOfs := if x.refs.any (·.spilled) then (x.pageOfs + n) % 16 else 0 }

/-- A spilled frame comes back to Cavern, charged as it was when it joined (R179). -/
def State.unspill (s : State) (q : QueueIx) (r : QRef) (f : Stored) (resv pool : Nat) : State :=
  let s1 := s.modStored f.id (fun x => { x with resv := resv, pool := pool, cells := [] })
  let s2 := s1.allocCells f.id f.frame f.frame.cells 0 (s1.cav.lastChamber.val + 1)
  let s3 := s2.modRef q r.id fun y => { y with spilled := false }
  (s3.pageReturned q r.cells).count48 Reg.SUMP_RETURN_FR_LO 1

/-- A spilled frame with an uncorrectable error is discarded as it returns; those behind it keep their order
(R180). -/
def State.discardSpilled (s : State) (q : QueueIx) (r : QRef) : State :=
  let a := 0x1100000000 + s.free % max 1 (s.spillSize * 256)
  let s1 := (s.drawn.sumpError a 3).dropRef q r.id
  let s2 : State := { s1 with cav := { s1.cav with poisonSpill := s1.cav.poisonSpill.filter fun i => i != r.id } }
  (s2.pageReturned q r.cells).count Reg.SUMP_UE_DISC

/-- Sump is no longer ready: spilling stops, every spilled frame is discarded and its pages are freed (R181); the endpoint cache holds
pinned entries only (R147). -/
def State.sumpLost (s : State) : State :=
  let s1 := s.setBit Reg.SUMP_STATUS 2 false
  let s2 := s1.over (List.finRange 168) fun s q =>
    s.over (s.cav.queues[q].refs.filter (·.spilled)) fun s r => (s.dropRef q r.id).count Reg.SUMP_UE_DISC
  ({ s2 with
      cav := { s2.cav with spillQ := 0, poisonSpill := [] }
      tun := { s2.tun with cache := s2.tun.cache.filter fun l => l.entry.pin } } : State).settle

/-! ## Training (R182, Tables CAV-3 and CAV-10) -/

/-- The size code of SUMP_GEOM, 0 for a combination that Table CAV-3 does not list. -/
def geomSize (g : Word) : Nat :=
  match g.getLsbD 0, g.getLsbD 1, g.getLsbD 2 with
  | false, false, true => 1
  | true, false, true => 2
  | false, true, true => 2
  | false, false, false => 2
  | true, true, true => 3
  | true, false, false => 3
  | false, true, false => 3
  | true, true, false => 0

/-- Memory of a size code in units of 256 bytes (Table CAV-11). -/
def sizeUnits (code : Nat) : Nat :=
  match code with
  | 1 => 2 ^ 25
  | 2 => 2 ^ 26
  | 3 => 2 ^ 27
  | _ => 0

/-- Trained memory in units of 256 bytes. -/
def State.sumpUnits (s : State) : Nat := sizeUnits (s.fld Reg.SUMP_STATUS 5 4)

/-- Fitted memory in units of 256 bytes: as trained, else as SUMP_GEOM gives it, the least size for a geometry that Table CAV-3 does not
list; none without Sump (R19, R182; DESIGN CHOICE, log 142). -/
def State.fittedUnits (s : State) : Nat :=
  if !s.bit Reg.SUMP_STATUS 0 then 0
  else if s.sumpUnits ≠ 0 then s.sumpUnits
  else sizeUnits (max 1 (geomSize (s.reg Reg.SUMP_GEOM)))

/-- TRAINED falls: so do READY and SIZE (Table CAV-11). -/
def State.untrain (s : State) : State :=
  (((if s.sumpReady then s.sumpLost else s).setBit Reg.SUMP_STATUS 1 false).setFld Reg.SUMP_STATUS 5 4 0).setBit Reg.SUMP_STATUS 6 false

/-- Training ends (R182, R295): on success both counter banks are cleared and bank 0 is live. -/
def State.trained (s : State) (ok : Bool) : State :=
  let g := s.reg Reg.SUMP_GEOM
  let s1 := s.setReg Reg.SUMP_TRAIN 0
  if ok && geomSize g != 0 then
    let s2 := ((((s1.setBit Reg.SUMP_STATUS 1 true).setBit Reg.SUMP_STATUS 2 true).setBit Reg.SUMP_STATUS 3 false).setFld
      Reg.SUMP_STATUS 5 4 (geomSize g)).setBit Reg.SUMP_STATUS 9 false
    let s3 := ((s2.setBit Reg.CNT_SNAP_STATUS 1 false).setBit Reg.CNT_SNAP_STATUS 2 false).setBit Reg.CNT_SNAP_STATUS 3 true
    { s3 with cav := { s3.cav with countersA := [], countersB := [], bothClearing := true } }
  else s1.setBit Reg.SUMP_STATUS 9 true

/-- SUMP_TRAIN.START written 1 (R182, Tables CAV-9, CAV-10): nothing without Sump; an unsupported geometry fails at
once; else both channels train. A running training goes on. -/
def State.startTraining (s : State) : State :=
  if !s.bit Reg.SUMP_STATUS 0 || s.bit Reg.SUMP_TRAIN 0 then s
  else if geomSize (s.reg Reg.SUMP_GEOM) = 0 then s.untrain.setBit Reg.SUMP_STATUS 9 true
  else s.untrain.setBit Reg.SUMP_TRAIN 0 true

/-! ## Uncorrectable errors in Sump (R184) -/

/-- The stored copy of a table entry is bad until a command rewrites it. -/
def State.spoilEntry (s : State) (ep : EpId) : State :=
  { s with tun := { s.tun with poison := if s.tun.poison.contains ep then s.tun.poison else ep :: s.tun.poison } }

/-- A per-endpoint counter pair restarts from 0; the pairs of both banks are numbered through. -/
def State.spoilPair (s : State) (i : Nat) : State :=
  if i < 2 ^ 25 then { s with cav := { s.cav with countersA := Store.set zeroPair i (0, 0) s.cav.countersA } }
  else { s with cav := { s.cav with countersB := Store.set zeroPair (i - 2 ^ 25) (0, 0) s.cav.countersB } }

/-- An 8-byte word of the Column region reads as a bus error until it is written whole. -/
def State.spoilWord (s : State) (w : Nat) : State :=
  { s with cav := { s.cav with poisonCol := if s.cav.poisonCol.contains w then s.cav.poisonCol else w :: s.cav.poisonCol } }

end Sys2Proof.Machine
end

