-- ==== Sys2Proof/Machine/GeodeOps.lean ====
section
/-! DEFINITION. Machine/GeodeOps.lean: Geode's commands (R331-R333), tamper (R322, R323), debug (R335, R336), the
cascade of step 6 (R337) and the fuses (R347, R348). -/

namespace Sys2Proof.Machine

/-! ## Acceptance of a command (R276, R331, R333) -/

/-- The command that a write of KEY_CMD, or of KEY_ROOT_CMD, by a master makes, with its operands. -/
def State.captureKey (s : State) (m : Master) (w : Word) (root : Bool) : KeyCommand :=
  { master := m
    op := BitVec.ofNat 4 (if root then bitsOf w 1 0 else bitsOf w 3 0)
    replace := !root && w.getLsbD 4
    detach := !root && w.getLsbD 5
    transmit := w.getLsbD 6
    root := root
    slot := BitVec.ofNat 8 (s.fld (pmKey m Reg.KEY_SLOT) 7 0)
    arg := s.reg (pmKey m Reg.KEY_ARG)
    attr := BitVec.ofNat 18 (s.fld (pmKey m Reg.KEY_ATTR_IN) 17 0)
    len := s.fld (pmKey m Reg.KEY_LEN) 8 0
    data := (List.range 64).flatMap fun i => leBytes 4 (s.reg (pmKey m (Reg.KEY_DATA i))).toNat
    pend := false }

/-- KEY_ARG.PARENT. -/
def KeyCommand.parent (c : KeyCommand) : BitVec 8 := BitVec.ofNat 8 (bitsOf c.arg 7 0)

/-- KEY_ARG.SA. -/
def KeyCommand.sa (c : KeyCommand) : BitVec 8 := BitVec.ofNat 8 (bitsOf c.arg 15 8)

/-- KEY_ARG.PORT. -/
def KeyCommand.port (c : KeyCommand) : Nat := bitsOf c.arg 20 16

/-- The slots whose key a command uses (Table GEO-3). -/
def KeyCommand.uses (c : KeyCommand) : List (BitVec 8) :=
  if c.root then []
  else
    match c.op.toNat with
    | 1 | 6 | 8 => [c.parent]
    | 2 | 3 | 4 | 9 | 10 => [c.slot]
    | 7 => [c.slot, c.parent]
    | _ => []

/-- A command that creates a key in KEY_SLOT. -/
def KeyCommand.creates (c : KeyCommand) : Bool :=
  !c.root && (c.op == 1 || c.op == 5 || c.op == 6 || c.op == 8)

/-- The engine role that KEY_CMD serves as the KEY agent writes this (ENG_AGENT_ROLE, R329). -/
def State.isKeyAgent (s : State) (m : Master) : Bool :=
  let r := s.fld Reg.ENG_AGENT_ROLE 12 8
  let role := if 16 ≤ r then 0 else r
  decide (0x10 ≤ m.val) && (List.finRange 18).any fun e => e.val + 0x10 == m.val && (s.eng.engines[e].role.map (·.val)) == some role

/-! ## The checks (Table GEO-4, lowest code first) -/

/-- A length outside the range that Table GEO-3 gives. -/
def KeyCommand.badLen (s : State) (c : KeyCommand) : Bool :=
  match c.op.toNat with
  | 1 => c.len == 0 || decide (192 < c.len)
  | 3 => c.len == 0 || decide (256 < c.len)
  | 4 => c.len != 48
  | 6 => c.len != 96
  | 8 => decide (256 < c.len) || decide (c.len ≤ if attrType (s.slot c.parent).live.attr = 2 then 96 else 0)
  | _ => false

/-- Slot 0 misused, a pool slot named by another master, or an SA of 0 (R321, R329). -/
def KeyCommand.badSlot (s : State) (c : KeyCommand) : Bool :=
  let poolTarget := decide (128 ≤ c.slot.toNat) && !s.isKeyAgent c.master
  match c.op.toNat with
  | 1 => c.slot == 0 || poolTarget
  | 6 | 8 => c.slot == 0 || c.parent == 0 || poolTarget
  | 7 => c.slot == 0 || c.parent == 0 || poolTarget
  | 10 => c.slot == 0 || c.sa == 0 || poolTarget
  | 11 => c.sa == 0
  | _ => c.slot == 0 || poolTarget

/-- An operand lacks the use bit, or names another port (Table GEO-4 USE). -/
def KeyCommand.badUse (s : State) (c : KeyCommand) : Bool :=
  let a := (s.slot c.slot).live.attr
  let p := (s.slot c.parent).live.attr
  match c.op.toNat with
  | 1 => c.parent != 0 && !attrBit p 5
  | 3 => !attrBit a 3
  | 4 => !attrBit a 4
  | 6 => !attrBit p 5 || attrType p != 2
  | 7 => !attrBit a 7 || !attrBit p 6 || attrType p != 0
  | 8 => !attrBit p 6
  | 10 =>
    !attrBit a (if c.transmit then 1 else 2) || attrType a != 3 || !attrBit a 10 || attrPort a != c.port || decide (20 ≤ c.port)
  | 11 => decide (20 ≤ c.port)
  | _ => false

/-- Attributes refused for a new slot (R327, Table GEO-3). -/
def KeyCommand.badAttr (c : KeyCommand) : Bool :=
  c.creates && (Sys2Proof.Machine.badAttr c.attr ||
    (c.op == 1 && attrType c.attr == 2) || (c.op == 5 && attrType c.attr != 2) || (c.op == 6 && attrType c.attr != 1))

/-- The link port of KEY_ARG.PORT. -/
def KeyCommand.link (c : KeyCommand) : LinkPort := ⟨c.port % 20, Nat.mod_lt _ (by decide)⟩

/-- The peer point of an agreement or of an unwrap. -/
def KeyCommand.point (c : KeyCommand) : List Byte := c.data.take 96

/-- The key-encryption key of an UNWRAP: the wrapping key, or for TYPE 2 the key derived from the ECDH secret. -/
def State.kekOf (s : State) (c : KeyCommand) : List Byte :=
  let b := (s.slot c.parent).live
  if attrType b.attr = 2 then kdf (fixLen 48 (Config.ecdh b.value c.point)) (ascii [0x57, 0x52, 0x41, 0x50]) 32 else b.value

/-- The wrapped blob of an UNWRAP. -/
def State.blobOf (s : State) (c : KeyCommand) : List Byte :=
  if attrType (s.slot c.parent).live.attr = 2 then (c.data.take c.len).drop 96 else c.data.take c.len

/-- The outcome of a command: the lowest code that applies, 1 where none does (Table GEO-4). -/
def State.keyCode (s : State) (c : KeyCommand) : Nat :=
  if c.root then
    if c.op = 1 then (if s.geode.root.isSome then 0x04 else 0x01) else if c.op = 2 then 0x01 else 0x11
  else if 12 ≤ c.op.toNat then 0x11
  else if c.badLen s then 0x02
  else if c.badSlot s then 0x03
  else if c.creates && (s.slot c.slot).valid && !c.replace then 0x04
  else if c.uses.any fun k => k != 0 && !(s.slot k).valid then 0x05
  else if c.badUse s then 0x06
  else if c.badAttr then 0x07
  else if c.pend then 0x08
  else if s.inDebug && c.uses.any (fun k => k != 0 && !attrBit (s.slot k).live.attr 8) then 0x09
  else if c.op = 1 && c.parent = 0 && s.geode.root.isNone then 0x0A
  else if (c.op = 6 || (c.op = 8 && attrType (s.slot c.parent).live.attr = 2)) && !Config.ecValid c.point then 0x0B
  else if c.op = 8 && (Config.kwUnwrap (s.kekOf c) (s.blobOf c)).isNone then 0x0C
  else if c.op = 10 && (decide (2 ≤ ((s.assocsOf c.link c.transmit).filter fun a => !a.stopped).length) ||
      (s.assocsOf c.link c.transmit).any fun a => !a.stopped && a.sa == c.sa) then 0x0E
  else if c.op = 11 && !(s.assocsOf c.link c.transmit).any (fun a => a.sa == c.sa) then 0x0F
  else if c.op = 10 && (s.gcmEngine c.link).isNone then 0x10
  else 0x01

/-- The commands accepted that have not ended, in order. -/
def State.keyWork (s : State) : List KeyCommand := s.geode.running.toList ++ s.geode.queue

/-- A slot holds a key, or a command accepted before creates one in it. -/
def State.holdsKey (s : State) (k : BitVec 8) : Bool := (s.slot k).valid || s.keyWork.any fun c => c.creates && c.slot == k

/-- A command that invalidates or replaces the key of its slot (R333). -/
def KeyCommand.endsKey (s : State) (c : KeyCommand) : Bool :=
  !c.root && (c.op == 2 || (c.creates && c.replace && s.holdsKey c.slot))

/-- A command will act, as far as its acceptance shows: nothing refuses it, or only that a slot lacks a key which a command before it
creates. -/
def State.keyActs (s : State) (c : KeyCommand) : Bool :=
  s.keyCode c == 1 || (s.keyCode c == 5 && !c.pend && c.uses.all fun k => k == 0 || s.holdsKey k)

/-- The slots that a command names; the hub reads them (R334). -/
def KeyCommand.named (c : KeyCommand) : List (BitVec 8) := if c.creates then c.slot :: c.uses else c.uses

/-- A command reaches Geode: its operands are captured; an INVALIDATE or a REPLACE that will act marks its slot and
descendants pending from now on (R333). Operation 0 has no effect. -/
def State.acceptKey (s : State) (m : Master) (w : Word) (root : Bool) : State :=
  let c0 := s.captureKey m w root
  if c0.op = 0 then s
  else
    let s1 := s.over c0.named State.readSlot
    let c1 := { c0 with pend := c0.named.any fun k => (s1.slot k).pending }
    let c := { c1 with marks := c1.endsKey s1 && s1.keyActs c1 }
    let s2 := if c.marks then s1.markPending c.slot else s1
    if s2.geode.running.isNone then { s2 with geode := { s2.geode with running := some c } }
    else { s2 with geode := { s2.geode with queue := s2.geode.queue ++ [c] } }

/-- A command of a master, through KEY_CMD or through KEY_ROOT_CMD, has not ended (BUSY). -/
def State.keyBusy (s : State) (m : Master) (root : Bool) : Bool :=
  s.keyWork.any fun c => c.master == m && c.root == root

/-! ## Tamper (R323) and debug (R336) -/

/-- Everything that a tamper zeroes, in the step of its detection; associations stop and ports return to AUTH (R323).
The key that a GCM engine holds goes with its association. -/
def State.tamperWipe (s : State) (sources : Nat) : State :=
  let s1 : State := { s with geode := { s.geode with
    root := none
    slots := vall s.geode.slots KeySlot.zeroed
    assocs := s.geode.assocs.map fun a => { a with stopped := true, key := [] } } }
  let s3 := (s1.setRegN Reg.KEY_TAMPER_LAST (256 + sources)).count Reg.KEY_TAMPER_COUNT
  let s4 := s3.logEvent 0x13 0x01 [sources]
  (if s4.pwr.vaux then s4.raiseFault .tamper else s4).reauthAll

/-- The running command ends with TAMPER, and the next one begins (R323). -/
def State.endTampered (s : State) : State :=
  match s.geode.running with
  | some c =>
    ((({ s with geode := { s.geode with running := s.geode.queue.head?, queue := s.geode.queue.tail } } : State).setRegN
      (pmKey c.master Reg.KEY_RESULT) 0x0D).count Reg.KEY_REFUSED)
  | none => s

/-- A tamper is detected: the command in progress ends, and all is zeroed (R323). -/
def State.tamperNow (s : State) (sources : Nat) : State := s.endTampered.tamperWipe sources

/-- The entry to debug, in one step (R336). -/
def State.enterDebug (s : State) : State :=
  ((s.zeroVolatile.stopAssocs fun _ => true).setBit Reg.KEY_STATUS 1 true).reauthAll

/-! ## The end of a command (R331, R334) -/

/-- Output bytes to a master's KEY_DATA. -/
def State.putKeyData (s : State) (m : Master) (bs : List Byte) : State :=
  s.over (List.range ((bs.length + 3) / 4)) fun s i =>
    if i < 64 then s.setRegN (pmKey m (Reg.KEY_DATA i)) (leNat ((bs.drop (4 * i)).take 4)) else s

/-- A key created by command; over a valid slot it is the update of a REPLACE, and the old key's descendants cascade (R331, R334). -/
def State.putKey (s : State) (c : KeyCommand) (parent : Option (BitVec 8)) (value : List Byte) : State :=
  (if (s.slot c.slot).valid then s.markCascade c.slot else s).createKey c.slot c.attr parent value

/-- The text that WRAP protects: attributes with TYPE, and the value. -/
def KeyBank.wrapText (b : KeyBank) : List Byte := leBytes 4 b.attr.toNat ++ b.value

/-- What a command does once its checks have passed (Table GEO-3). -/
def State.doKey (s : State) (c : KeyCommand) : State :=
  let m := c.master
  let k := s.slot c.slot
  match c.op.toNat with
  | 1 =>
    let v := kdf (s.parentValue c.parent) (c.data.take c.len) (typeLen (attrType c.attr))
    s.putKey c (if c.detach then none else some c.parent) v
  | 2 => s.zeroKey c.slot
  | 3 => s.putKeyData m (hmac384 k.live.value (c.data.take c.len))
  | 4 => s.drawn.putKeyData m (fixLen 96 (Config.ecdsaSign k.live.value (c.data.take 48 ++ s.random 48)))
  | 5 =>
    let v := s.random 48
    (s.drawn.putKey c none v).putKeyData m (publicOf v)
  | 6 => s.putKey c none (fixLen 48 (Config.ecdh (s.slot c.parent).live.value c.point))
  | 7 =>
    let blob := Config.kwWrap (s.slot c.parent).live.value k.live.wrapText
    (s.putKeyData m blob).setRegN (pmKey m Reg.KEY_LEN) (blob.length % 512)
  | 8 =>
    match Config.kwUnwrap (s.kekOf c) (s.blobOf c) with
    | some text => s.putKey c none (fixLen (typeLen (attrType c.attr)) (text.drop 4))
    | none => s
  | 9 =>
    (s.setRegN (pmKey m Reg.KEY_INFO) (k.gen.toNat + 2 ^ 16 * k.live.pgen.toNat)).setRegN
      (pmKey m Reg.KEY_ATTR_OUT) (k.live.attr.toNat + 2 ^ 18 * k.live.parent.toNat)
  | 10 => s.installAssoc c.link c.transmit c.sa c.slot
  | 11 => s.retireAssoc c.link c.transmit c.sa
  | _ => s

/-- What a command of KEY_ROOT_CMD does: ROOT_NEW fills slot 0 at random, whose GEN rises (R328); ZEROISE, itself the command in
progress, acts as a tamper with no source (R331). -/
def State.doRoot (s : State) (c : KeyCommand) : State :=
  if c.op = 1 then
    let v := s.random 64
    let s1 := s.drawn
    ({ s1 with geode := { s1.geode with root := some v } } : State).modSlot 0 KeySlot.raised
  else s.tamperWipe 0

/-- A command executes: its code stands in KEY_RESULT, and a refusal is counted. An INVALIDATE that a head has applied before its end has
had its effect (R27). -/
def State.runKey (s0 : State) (c : KeyCommand) : State :=
  let s := s0.over c.named State.readSlot
  let code := s.keyCode c
  if c.applied && c.op == 2 then s0.setRegN (pmKey c.master Reg.KEY_RESULT) 1
  else if code = 1 then (if c.root then s.doRoot c else s.doKey c).setRegN (pmKey c.master Reg.KEY_RESULT) 1
  else (s.setRegN (pmKey c.master Reg.KEY_RESULT) code).count Reg.KEY_REFUSED

/-- The running command ends, and the next one begins. -/
def State.endKey (s : State) : State :=
  match s.geode.running with
  | none => s
  | some c => ({ s with geode := { s.geode with running := s.geode.queue.head?, queue := s.geode.queue.tail } } : State).runKey c

/-! ## Step 6 of the head (R337) -/

/-- A command that is accepted and has not ended uses or creates the key of slot p or of a descendant. -/
def State.usesUnder (s : State) (p : BitVec 8) (c : KeyCommand) : Bool := c.named.any fun k => s.under p k

/-- Which of the accepted commands this head applies, in their order: an invalidation or a replacement acts at the first head after its
acceptance (R27, R337), but for one whose key a command accepted before it is still to use, which completes normally first (R333; log
106). `before` are the commands ahead that this head does not apply. -/
def State.dueAtHead (s : State) : List KeyCommand → List KeyCommand → List KeyCommand
  | [], _ => []
  | c :: cs, before =>
    if c.marks && !before.any (s.usesUnder c.slot) then { c with marks := false, applied := true } :: s.dueAtHead cs before
    else c :: s.dueAtHead cs (before ++ [c])

/-- An accepted invalidation or replacement acts at this head, before its command has ended: an INVALIDATE zeroes its slot, a REPLACE
leaves it its value until the command ends; descendants cascade, and the associations installed from the slot stop (R27, R337). -/
def State.applyEarly (s : State) (c : KeyCommand) : State :=
  if c.op == 2 then s.zeroKey c.slot else (s.markCascade c.slot).stopAssocs fun a => a.slot == c.slot

/-- The accepted commands after this head has applied those that are due. -/
def State.applyDueKeys (s : State) : State :=
  let all := s.dueAtHead s.keyWork []
  let due := ((s.keyWork.zip all).filter fun x => x.1.marks && !x.2.marks).map (·.2)
  let s1 : State := { s with geode := { s.geode with
    running := if s.geode.running.isSome then all.head? else none
    queue := if s.geode.running.isSome then all.tail else all } }
  s1.over due State.applyEarly

/-- Step 6 of the head: every pending invalidation and replacement applies: descendants are zeroed, and the associations installed from a
slot whose generation has moved on stop; their trunk ports return to AUTH (R337, R338). Of one that waits (log 106) slot and descendants
stay pending. -/
def State.cascadeHead (s0 : State) : State :=
  let s := s0.applyDueKeys
  let ending := (s.keyWork.filter (·.marks)).map (·.slot)
  let n := (List.finRange 256).countP fun i => s.geode.slots[i].cascade
  let s1 : State := { s with geode := { s.geode with
    cascade := false
    slots := Vector.ofFn fun i =>
      let x := s.geode.slots[i]
      { (if x.cascade then x.zeroed else x) with pending := x.pending && ending.any fun p => s.under p (BitVec.ofNat 8 i.val) } } }
  if !s.geode.cascade then s1
  else
    let s2 := (s1.count Reg.KEY_CASCADES).countN Reg.KEY_CASCADE_SLOTS n
    (s2.stopAssocs fun a => a.gen != (s2.slot a.slot).gen).reauthStopped s0

/-! ## Fuses (R347, R348) -/

/-- A fuse position is programmed and not revoked. -/
def State.fuseUsable (s : State) (p : BitVec 2) : Bool :=
  (s.geode.fuses[p.toNat]'(by omega)).isSome && !s.geode.revoked.getLsbD p.toNat

/-- What SEC_FUSE_CMD answers before it starts an operation: 0 where it starts (R348). -/
def State.fuseCode (s : State) (revoke : Bool) (p : BitVec 2) : Nat :=
  let blank := (s.geode.fuses[p.toNat]'(by omega)).isNone
  let last := !s.geode.revokedNext.getLsbD p.toNat &&
    (List.finRange 4).all fun q => q.val == p.toNat || s.geode.fuses[q].isNone || s.geode.revokedNext.getLsbD q.val
  if s.mode != .recovery then 2
  else if !revoke then (if blank then 0 else 3)
  else if blank then 5
  else if last then 4
  else 0

/-- A write of SEC_FUSE_CMD: operation 0 does nothing; 3 is refused with a code that the spec does not name (log 7). -/
def State.fuseCommand (s : State) (w : Word) : State :=
  let p := BitVec.ofNat 2 (bitsOf w 3 2)
  match bitsOf w 1 0 with
  | 0 => s
  | 3 => s.drawn.setRegN Reg.SEC_FUSE_RESULT (2 + s.free % 5)
  | op =>
    let revoke := op == 2
    let code := s.fuseCode revoke p
    if code ≠ 0 then s.setRegN Reg.SEC_FUSE_RESULT code
    else
      let hash := (List.range 12).flatMap fun i => leBytes 4 (s.reg (Reg.SEC_FUSE_DATA i)).toNat
      { s with geode := { s.geode with fuseOp := some (revoke, p, hash) } }

/-- A fuse operation ends (R348). Fuses that did not verify are left as they stand, which is open. -/
def State.endFuse (s : State) (ok : Bool) : State :=
  match s.geode.fuseOp with
  | none => s
  | some (revoke, p, hash) =>
    let s1 : State := { s with geode := { s.geode with fuseOp := none } }
    let i : Fin 4 := ⟨p.toNat, by omega⟩
    if revoke then
      let set := ok || s1.free % 2 == 1
      let s2 := if ok then s1 else s1.drawn
      (if set then { s2 with geode := { s2.geode with revokedNext := s2.geode.revokedNext ||| BitVec.ofNat 4 (2 ^ p.toNat) } }
       else s2 : State).setRegN Reg.SEC_FUSE_RESULT (if ok then 1 else 6)
    else
      let s2 := if ok then s1 else s1.drawn
      let v := if ok then hash else s1.random 48
      ({ s2 with geode := { s2.geode with fuses := vset s2.geode.fuses i (some v) } } : State).setRegN
        Reg.SEC_FUSE_RESULT (if ok then 1 else 6)

end Sys2Proof.Machine
end

