-- ==== Sys2Proof/Machine/WakeOps.lean ====
section
/-! DEFINITION. Machine/WakeOps.lean: what the power domains do when they stop and start again, and the wakes
(chapter "Power states, wake and voltage"). -/

namespace Sys2Proof.Machine

/-! ## Domains (R375, R380) -/

/-- Cavern goes off: every frame it holds is discarded and counted, and its contents are lost (Table PWR-3); a deficit is 0 as its queue
is emptied (R201). -/
def State.cavernOff (s : State) : State :=
  let n := s.cav.frames.length
  let empty (q : Queue) : Queue := { q with refs := [], pageOfs := 0, creditWait := none }
  let clear (x : Port) : Port := { x with credits := vall x.credits fun k => { k with held := 0 } }
  let s0 := s.over (List.finRange 168) fun s q => s.setRegN (Reg.SCHED_DEFICIT (q.val / 8) (q.val % 8)) 0
  let s1 : State := { s0 with
    ports := vall s.ports clear
    cav := { s.cav with
      frames := []
      queues := vall s.cav.queues empty
      waiting := [], cutIn := [], cutTx := [], spillQ := 0, poisonSpill := [], damaged := []
      powered := false }
    tun := { s.tun with missQ := [] }
    mem := s.mem.filter fun x => decide (x.1 < 0x0200000000) || decide (0x0300000000 ≤ x.1) }
  s1.countN Reg.PWR_ENTRY_DISC n

/-- Cavern is powered and its BIST starts (R393). -/
def State.cavernOn (s : State) : State :=
  ({ s with cav := { s.cav with powered := true, bistRun := true } } : State).setBit Reg.CAV_STATUS 0 false

/-- Sump leaves self-refresh and is trained, where it is fitted (R393). -/
def State.sumpOn (s : State) : State :=
  (({ s with pwr := { s.pwr with ddrOn := s.bit Reg.SUMP_STATUS 0 } } : State).setBit Reg.SUMP_STATUS 3 false).startTraining

/-- DDR goes into self-refresh: what the endpoint cache has changed is written back, and Sump is not ready until it is trained again
(R147, R181, Table CAV-11). -/
def State.sumpSleep (s : State) : State :=
  let s1 := s.over (s.tun.cache.filter fun l => !l.entry.pin) State.evict
  (if s1.sumpReady then s1.sumpLost else s1).setBit Reg.SUMP_STATUS 3 (s.bit Reg.SUMP_STATUS 0)

/-- Every lane group domain goes off: trunk ports suffer link loss and local ports leave ACTIVE; block lock, equaliser state, elastic
buffers and eye measurements are lost, the LANE registers stand (R52, R380). -/
def State.lanesOff (s : State) : State :=
  let s1 : State := { s with pwr := { s.pwr with laneDom := 0 } }
  let s2 := s1.over (List.finRange 20) fun s p => if s.ports[p].stage == .down then s else s.portDown p
  let idle (x : Lane) : Lane :=
    { x with lock := .off, count := 0, errors := 0, window := 0, ebuf := 0, los := false, lol := false
             detected := false, trained := false, skew := none, eyeNow := false }
  let s3 := s2.over (List.finRange 32) fun s l => (s.setReg (Reg.LANE_EQ l.val) 0).setReg (Reg.LANE_EYE l.val) 0
  { s3 with lanes := vall s3.lanes idle, line := { s3.line with rxQ := Vector.replicate 32 [], back := Vector.replicate 32 [] } }

/-- Every lane group domain is on; ports stand in DOWN and are brought up from there, an Ethernet port's lane from its preset (R80, R380,
R393). -/
def State.lanesOn (s : State) : State :=
  let s1 : State := { s with pwr := { s.pwr with laneDom := 0xFF } }
  let s2 := s1.over (List.finRange 20) fun s p => s.modPort p fun x => { x with stageHead := s.heads }
  s2.over ((List.finRange 20).filter s2.isEth) fun s p => s.usePreset (laneAt p 0) (s.lanePreset (laneAt p 0))

/-- The core clock comes from IFO. -/
def State.offPll (s : State) : State := s.setBit Reg.BOOT_STATUS 14 false

/-- Engines are released again. -/
def State.freeEngines (s : State) : State := { s with eng := { s.eng with halting := false } }

/-! ## Waking from LAYOVER (R393) -/

/-- PWR_WAKE_CAUSE takes the sources of a wake, and the latch is empty. -/
def State.wakeCause (s : State) (sources : BitVec 7) : State :=
  ({ s with pwr := { s.pwr with latch := 0 } } : State).setRegN Reg.PWR_WAKE_CAUSE (sources.toNat + 256)

/-- Step 2 of R393: Cavern and Sump together. -/
def State.wakeMemories (s : State) : State :=
  let s1 : State := { s with pwr := { s.pwr with state := .waking } }
  s1.cavernOn.sumpOn

/-- Limited RUN begins: the hub stays on IFO, with lanes and Sump off (R397). -/
def State.enterLimited (s : State) : State := s.offPll.setBit Reg.GLB_MODE 3 true

/-- Step 1 of R393: the Columns return to full rate on IFO. Column 0 then writes AVS_TARGET and moves the core to the PLL (R396). -/
def State.wakeLayover (s : State) (sources : BitVec 7) : State :=
  let s1 := s.wakeCause sources
  { s1 with pwr := { s1.pwr with
      state := .waking, target := 0, step := 0, ap := 0, asked := none, agreed := [], fromLayover := false, avsSet := false } }

/-- A wake from LAYOVER is at its step 1: the clock switch is still to come (R393, R396). -/
def State.layoverSwitch (s : State) : Bool :=
  s.pwr.state == .waking && !s.boot.fromDormant && s.coreOn && !s.bit Reg.BOOT_STATUS 14

/-! ## Waking from DORMANT (R394, R395) -/

/-- The voltage that Bedrock requests in a wake: the last acknowledged one, the boot voltage of 800 mV where there is
none, and 800 mV at a power-up from PORST_N (R394, R396, R459). -/
def State.wakeVoltage (s : State) : Nat :=
  let v := s.fld Reg.AVS_STATUS 9 0
  if s.pwr.coldStart ∨ v = 0 then 800 else v

/-- A Voltage write to the rail of AVS_CFG2 goes out, and the Status read that shows its VDone (R395, R398). No rule says when the hub
reads the voltage back (log 139). -/
def State.sendVoltage (s : State) (mv : Nat) : State :=
  let rail := BitVec.ofNat 4 (s.fld Reg.AVS_CFG2 12 9)
  (s.emit (.avsVoltage rail mv)).emit (.avsStatusRead rail)

/-- An attempt of a wake begins: CORE_EN is asserted and the Voltage write goes out. `wakeTries` counts 4 for each
attempt and 1 for each repeated write. -/
def State.wakeAttempt (s : State) : State :=
  let s1 : State := { s with pwr := { s.pwr with
    state := .waking, coreEn := true, coreHeld := true, pgood := false, wakeAck := false
    wakeTries := (s.pwr.wakeTries / 4 + 1) * 4 } }
  s1.sendVoltage s1.wakeVoltage

/-- A wake from DORMANT starts (R394). -/
def State.wakeDormant (s : State) (sources : BitVec 7) : State :=
  let s1 := s.wakeCause sources
  ({ s1 with
      boot := { s1.boot with fromDormant := true }
      pwr := { s1.pwr with wakeTries := 0, coldStart := false } } : State).wakeAttempt

/-- An attempt fails: back to DORMANT, logged and counted, FAULT_N asserted; the next attempt follows after a wait
that doubles up to 64 s (R395). -/
def State.wakeFailed (s : State) : State :=
  let s1 := s.logEvent 0x16 0x01 [s.pwr.wakeTries / 4, s.pwr.wakeWait]
  let s2 := (s1.count Reg.PWR_WAKE_FAIL).raiseFault .wakeFailed
  { s2 with pwr := { s2.pwr with coreEn := false, pgood := false, wakeAck := false } }

/-- A Voltage write of a wake is not acknowledged: it is repeated, up to three times (R395). -/
def State.wakeNoAck (s : State) : State :=
  if s.pwr.wakeTries % 4 < 3 then
    ({ s with pwr := { s.pwr with wakeTries := s.pwr.wakeTries + 1 } } : State).sendVoltage s.wakeVoltage
  else s.wakeFailed

/-- A wake or cold start from DORMANT is under way and CORE_EN is asserted. -/
def State.wakingCore (s : State) : Bool := s.pwr.state == .waking && s.pwr.coreEn && s.pwr.coreHeld

/-- A wake has failed and waits for its next attempt. -/
def State.wakeWaiting (s : State) : Bool := s.pwr.state == .waking && !s.pwr.coreEn

/-! ## Wake events (R384-R388) -/

/-- Latched sources. -/
def State.latchWake (s : State) (src : Nat) : State :=
  { s with pwr := { s.pwr with latch := s.pwr.latch ||| BitVec.ofNat 7 (2 ^ src) } }

/-- A wake source acts where PWR_WAKE_EN enables it: in LAYOVER or DORMANT it starts a wake at once; during an entry,
a rollback, the wait after a failed wake, or a thermal cutoff it is latched (R384-R386, R395, R433). -/
def State.wakeBy (s : State) (src : Nat) : State :=
  if !s.bit Reg.PWR_WAKE_EN src || !s.pwr.vaux || s.boot.held then s
  else
    match s.pwr.state with
    | .active => s
    | .entering => s.latchWake src
    | .rollback => s.latchWake src
    | .cutoff => s.latchWake src
    | .waking => if s.wakeWaiting then s.latchWake src else s
    | .layover => if s.pwr.target = 0 then s.wakeLayover (BitVec.ofNat 7 (2 ^ src)) else s.latchWake src
    | .dormant => s.wakeDormant (BitVec.ofNat 7 (2 ^ src))

/-- Events latched during an entry are replayed once it completes (R382, R386). -/
def State.replayLatch (s : State) : State :=
  if s.pwr.latch = 0 then s
  else
    match s.pwr.state with
    | .layover => s.wakeLayover s.pwr.latch
    | .dormant => s.wakeDormant s.pwr.latch
    | _ => s

end Sys2Proof.Machine
end

