-- ==== Sys2Proof/Machine/BootOps.lean ====
section
/-! DEFINITION. Machine/BootOps.lean: resets, straps, the stages up to the reading of a copy, modes and the commands of
BOOT_CMD (chapters "Configuration image and start-up" and "Package, balls and straps"). -/

namespace Sys2Proof.Machine

/-! ## Resets -/

/-- How a start begins: at PORST_N, under BOOT_CMD RESET, or by a wake from DORMANT. -/
inductive StartKind where
  | porst | reset | dormant
deriving DecidableEq, Repr

/-- The registers that a reset leaves: those that Bedrock keeps, whose counters start at 0 at PORST_N (R278, R391), and
otherwise the sampled straps, VOUT with the step of the AVS controller under way (Table PWR-1), CUT_START, debug and LOCK, which hold until PORST_N (R319, R335, R372, R394, R433). Where Column 0 stays FAILED, none supervises until Column 2
runs (R261, R262). -/
def State.keptRegs (s : State) (k : StartKind) : List (Nat × Word) :=
  let kept := s.regs.filter fun x =>
    match regRow (x.1 % 0x1000000) with
    | some r => r.kept && (k != .porst || !r.has .cnt)
    | none => false
  let base : State := { State.reset with regs := kept }
  if k = .porst then base.regs
  else
    ((((((if s.eng.columns[(0 : ColumnIx)].state = .failed then base.setRegN Reg.COL_SUPER 3 else base).setBit Reg.MON_STATUS 2 (s.bit Reg.MON_STATUS 2)).setReg Reg.GLB_STRAPS (s.reg Reg.GLB_STRAPS)).setFld Reg.AVS_STATUS 21 0 (if k = .reset then s.fld Reg.AVS_STATUS 21 0 else s.fld Reg.AVS_STATUS 9 0)).setBit
      Reg.KEY_STATUS 1 (s.bit Reg.KEY_STATUS 1)).setBit Reg.MPU_CFG 0 (s.bit Reg.MPU_CFG 0)).regs

/-- The causes of FAULT_N that a reset of the Core domain leaves: those of Bedrock, and a FAILED Column, which stays FAILED until PORST_N
(R261); a thermal cutoff goes on until its restart (R433, R459). -/
def keptFault (k : StartKind) : FaultCause → Bool
  | .tamper => true
  | .cutoff => true
  | .wakeFailed => true
  | .avsFailed => true
  | .columnFailed => k != .porst
  | _ => false

/-- Engines and Columns after a reset: what was FAILED stays FAILED but for PORST_N (R258, R261), and a role whose engine is FAILED starts
vacant (log 99), which is neither logged nor asserts FAULT_N (DESIGN CHOICE, log 134). -/
def EngineWork.restarted (old : EngineWork) (k : StartKind) : EngineWork :=
  let z := State.reset.eng
  if k = .porst then z
  else
    { z with
      engines := Vector.ofFn fun e => if old.engines[e].state = .failed then { z.engines[e] with state := .failed, role := none } else z.engines[e]
      roles := Vector.ofFn fun r =>
        if old.engines[r.val].state = .failed then { z.roles[r] with engine := none, vacant := true } else z.roles[r]
      columns := Vector.ofFn fun c => if old.columns[c].state = .failed then { z.columns[c] with state := .failed } else z.columns[c] }

/-- Geode after a reset: the agents and associations are gone, a revocation takes effect (R348), and volatile slots are
zeroed at PORST_N and DORMANT (R329). -/
def State.geodeReset (s : State) (k : StartKind) : GeodeState :=
  let s2 := if k = .reset then s else s.zeroVolatile
  { s2.geode with
    running := none, queue := [], assocs := [], challenge := none
    agents := Vector.replicate 4 .reset
    revoked := s2.geode.revokedNext }

/-- The bytes of a copy window: half the device (R351). -/
def State.flashHalf (s : State) : Nat := ((s.boot.sfdp.map fun f => 2 ^ f.log2.toNat).getD 0) / 2

/-- The flash address at which a copy starts (R351). -/
def State.copyBase (s : State) (copyB : Bool) : Nat := if copyB then s.flashHalf else 0

/-- One byte of the flash written. -/
def putFlash (l : List Host.Cell) (x : Nat × Byte) : List Host.Cell := Store.set Flash.blank x.1 x.2 l

/-- An erase or a program of the flash that did not end well: each byte it reached is open, but the copy is left without a
valid header, so its first byte is erased by an erase and stays by a program (R374). -/
def State.tornFlash (s : State) (o : FlashOp) : State :=
  let base := s.copyBase o.copyB
  let inCopy (x : Host.Cell) : Bool := decide (base < x.1) && decide (x.1 < base + s.flashHalf)
  let page := (List.range 256).map (base + o.page * 256 + ·)
  let hit := if o.op = 1 then (s.boot.flash.filter inCopy).map (·.1) else if o.op = 2 then page.filter (fun a => a != base) else []
  let first := if o.op = 1 then Store.erase base s.boot.flash else s.boot.flash
  let s1 := s.drawn
  { s1 with boot := { s1.boot with flash := (hit.zip (s.random hit.length)).foldl putFlash first } }

/-- What was under way in Geode, the fuses and the flash when the core stops: a Geode write completes (R458); fuses and
flash pages are left as they stand, which is open. -/
def State.cutOps (s : State) : State :=
  let s1 := if s.geode.running.isSome then s.endKey else s
  let s2 := s1.endFuse false
  match s2.boot.flashOp with
  | some o => s2.tornFlash o
  | none => s2

/-- A PD port as the Core domain is reset: Unattached, VBUS off and its discharge going on, which is Bedrock's (R418, R441); an attach seen in
DORMANT runs again from there (R415). -/
def PdState.restarted (k : PdPort) (p : PdState) : PdState :=
  { PdState.reset (k.val != 0) with
    disch := p.disch || p.vbusEn
    tc := if p.ccSeen then .attachWait else .unattached }

/-- The Core domain is reset; Bedrock, Geode and the log vault go on (R372, R391). What the SRAMs hold stays, but for
DORMANT, in which they were off. -/
def State.restarted (s0 : State) (k : StartKind) : State :=
  let s := s0.cutOps
  let z := State.reset
  { z with
    regs := s.keptRegs k
    mem := if k = .dormant then [] else s.mem
    geode := s.geodeReset k
    boot := { z.boot with
      flash := s.boot.flash
      fromDormant := decide (k = .dormant)
      vauxFromVbus := s.boot.vauxFromVbus }
    pwr := { z.pwr with save := s.pwr.save, vaux := s.pwr.vaux, vbat := s.pwr.vbat, avsFrom := s.pwr.avsFrom, avsRetries := s.pwr.avsRetries }
    log := { s.log with trendDue := false }
    pd := Vector.ofFn fun i => PdState.restarted i s.pd[i]
    eng := s.eng.restarted k
    faultN := s.faultN.filter (keptFault k)
    carStatus := s.carStatus
    ticks := s.ticks
    freeCtr := s.freeCtr
    sent := s.sent
    pending := s.pending }

/-! ## Straps (Tables BAL-5, BAL-6) -/

/-- The reset values that the strap levels in force set (Table BAL-6). -/
def State.strapDefaults (s : State) (eff : Nat) : State :=
  let role := nbits eff 1 0
  let rate := nbits eff 3 2
  let sump := nbits eff 5 5
  let prio := if role = 1 then 1 else if role = 2 then 2 else if role = 0 then 3 else 4
  let lane := 0x2C + (if rate = 3 then 0x40 else rate)
  let drop := if sump = 1 then 0x100000 else 0x1000
  let s1 := (s.setRegN Reg.BOOT_STRAPS_EFF (eff % 512)).setRegN Reg.BEAT_ROLE (prio * 16 + role * 256)
  let s2 := s1.over (List.range 16) fun s l => (s.setRegN (Reg.LANE_CFG l) lane).setRegN (Reg.LANE_CFG_ACT l) lane
  let s3 := ((s2.setFld Reg.USB_STATUS 7 7 (nbits eff 4 4)).setFld Reg.SUMP_STATUS 0 0 sump).setRegN Reg.SUMP_CFG (2 + sump)
  s3.over ((List.finRange 21).flatMap fun p => (List.finRange 4).map fun c => queueOf p ⟨c.val, by omega⟩) fun s q =>
    (s.setRegN (Reg.CAV_Q_DROP q.val) drop).modQueue q fun x => { x with dropAct := BitVec.ofNat 24 drop }

/-! ## The maintenance function by mode (R402, R410, Table USB-6) -/

/-- BOOT_SRC as sampled. -/
def State.bootSrc (s : State) : Nat := s.fld Reg.GLB_STRAPS 10 9

/-- The mode lets the maintenance function attach: MF_EN, and in RECOVERY not with BOOT_SRC 0b11 (R402, Table USB-6). -/
def State.mfAllowed (s : State) : Bool :=
  s.bit Reg.USB_CFG 3 && !(s.mode == .recovery && s.bootSrc == 3)

/-- ADMIT, treated as 1 in RECOVERY and SERVICE (Table USB-6). -/
def State.mfAdmits (s : State) : Bool := s.bit Reg.USB_MF_CFG 0 || s.mode == .recovery || s.mode == .service

/-- A maintenance session: 0 none, 1 open, 2 suspended. -/
def State.mfSession (s : State) : Nat := s.fld Reg.USB_MF_SESSION 1 0

/-- The session changes. -/
def State.setSession (s : State) (n : Nat) : State := s.setFld Reg.USB_MF_SESSION 1 0 n

/-- The session closes (R410). -/
def State.closeSession (s : State) : State := s.setSession 0

/-- ADMIT or MF_EN has been written: clearing MF_EN closes any session, ADMIT 0 suspends an open one, ADMIT 1 resumes it (R410). The
function leaves port 5, or comes to it, at the next attach on UP, as every write to USB_CFG takes effect (R402; DEDUCED, log 114). -/
def State.sessionConfig (s : State) : State :=
  let s1 := if s.bit Reg.USB_CFG 3 then s else s.closeSession
  let s2 := if s1.mfSession = 1 && !s1.mfAdmits then s1.setSession 2
    else if s1.mfSession = 2 && s1.mfAdmits then s1.setSession 1
    else s1
  s2.decideWake

/-- The function as the mode lets it: present on port 5 while the hub is connected on UP, its session with ADMIT as that mode takes it; where
it is absent no session stands (Table USB-6). -/
def State.mfMode (s : State) : State :=
  let on := s.fld Reg.USB_STATUS 1 0 != 0 && s.usb.cfg.getLsbD 3 && !(s.mode == .recovery && s.bootSrc == 3)
  let s1 : State := { s with usb := { s.usb with mfOn := on } }
  (if on then s1 else s1.closeSession).sessionConfig

/-! ## Modes (R349) -/

/-- The mode changes: every unlock arming lapses (R289), and the maintenance function follows (Table USB-6). In SERVICE Cavern stays off
(R425). -/
def State.changeMode (s : State) (m : Mode) : State :=
  let s1 := s.setFld Reg.GLB_MODE 2 0 m.code
  let s2 : State := { s1 with
    acc := { s1.acc with unlock := Vector.replicate 34 none }
    cav := if m = .service then { s1.cav with powered := false, bistRun := false } else s1.cav }
  s2.mfMode

/-- Entry to RECOVERY: recorded, logged, counted, FAULT_N asserted (R372). No image is in use (Tables BOT-12, BOT-13). -/
def State.enterRecovery (s : State) (reason : Nat) : State :=
  let s1 := ((s.changeMode .recovery).setRegN Reg.BOOT_REASON reason).setReg Reg.GLB_CL_ACTIVE 0
  let s2 := (((s1.setFld Reg.BOOT_STATUS 23 16 0).setFld Reg.BOOT_STATUS 9 8 3).setBit Reg.BOOT_STATUS 11 false).over (List.range 12) fun s i =>
    s.setReg (Reg.BOOT_ADM_DIGEST i) 0
  let s3 : State := { s2 with boot := { s2.boot with
    applying := false, applyAt := none, tries := [], chosen := none, pendingMode := none, seeds := [], fromDormant := false } }
  let s4 := s3.logEvent 0x15 0x01 [reason, s3.fld (Reg.BOOT_FAIL 0) 7 0, s3.fld (Reg.BOOT_FAIL 1) 7 0]
  (s4.raiseFault .recovery).count Reg.BOOT_RECOVERIES

/-- RECOVERY is due: it is entered at step 1 of the next head (R349). -/
def State.pendRecovery (s : State) (reason : Nat) : State :=
  { s with boot := { s.boot with
      pendingMode := some .recovery, pendingReason := reason, tries := [], applying := false, applyAt := none } }

/-- A mode is due at step 1 of the next head. -/
def State.pendMode (s : State) (m : Mode) : State := { s with boot := { s.boot with pendingMode := some m } }

/-! ## Stages (R367) -/

/-- BOOT_STATUS.STAGE. -/
def State.setStage (s : State) (n : Nat) : State := s.setFld Reg.BOOT_STATUS 2 0 n

/-- Start-up from stage 0 with the straps known: an invalid seat leads to RECOVERY, a pushed image waits there, and
otherwise SFDP discovery begins (R367). A hub that started on a cable's power stays in SERVICE with an invalid seat too, and shows no
strap fault (R12 and R425 leave it open; DESIGN CHOICE, log 107). -/
def State.startStage (s : State) : State :=
  if s.mode = .service then s.setStage 1
  else if s.fld Reg.BOOT_STRAPS_EFF 7 6 = 3 then s.enterRecovery 3
  else if 2 ≤ s.bootSrc then s.enterRecovery 5
  else s.setStage 1

/-- A start as under BOOT_CMD RESET: Bedrock, Geode, the log vault and the sampled straps are kept (R372). In SERVICE the
hub returns to SERVICE while VAUX_FROM_VBUS is high (R425): a level that no command tells of since the release of PORST_N, where it was
high, and so a free value (log 141). -/
def State.startReset (s : State) : State :=
  let asked := s.mode == .service && s.boot.vauxFromVbus
  let service := asked && s.free % 2 == 1
  let s1 := (if asked then s.drawn else s).restarted .reset
  let s2 := s1.strapDefaults (s1.fld Reg.GLB_STRAPS 8 0)
  (if service then s2.changeMode .service else s2).startStage

/-- BOOT_CMD RECOVER: a reset into RECOVERY with reason COMMAND (Table BOT-16). -/
def State.startRecover (s : State) : State :=
  let s1 := s.restarted .reset
  (s1.strapDefaults (s1.fld Reg.GLB_STRAPS 8 0)).enterRecovery 6

/-! ## The release of PORST_N (R367, R447, R459) -/

/-- The start at a release of PORST_N: the straps are sampled; debug and SERVICE follow from them; the hub takes CC over
from the dead-battery Rd (R335, R424, R425). -/
def State.startPorst (s : State) : State :=
  let raw := s.fld Reg.GLB_STRAPS 12 0
  let s1 := ((s.restarted .porst).setRegN Reg.GLB_STRAPS raw).strapDefaults raw
  let s2 := if nbits raw 12 12 = 1 then s1.enterDebug else s1
  (if nbits raw 11 11 = 1 && s2.boot.vauxFromVbus then s2.changeMode .service else s2).startStage

/-- PORST_N rises with the straps at the given levels (Table BAL-7 layout). With the core off in DORMANT, Bedrock raises
CORE_EN and writes 800 mV first, as in the wait after a failed wake; after a thermal cutoff the power-up waits for its restart (R459);
while PGOOD is low the core stays held (R455, R457). -/
def State.releasePorst (s : State) (straps : BitVec 13) (vfv : Bool) : State :=
  let s1 : State := { s with boot := { s.boot with held := false, vauxFromVbus := vfv } }
  let s2 := s1.setRegN Reg.GLB_STRAPS straps.toNat
  let cold : State := { s2 with pwr := { s2.pwr with coldStart := true } }
  if s2.pwr.state = .cutoff then cold
  else if s2.pwr.coreEn then
    (if s2.pwr.pgood && (!s2.pwr.coreHeld || s2.pwr.wakeAck) && !s2.faultN.contains .pgood then s2.startPorst else cold)
  else ({ cold with pwr := { cold.pwr with wakeTries := 0 } } : State).wakeAttempt

/-! ## BOOT_CMD (Table BOT-16) -/

/-- A core PLL that has locked late has taken RUN back to stage 6 (R397; DEDUCED, log 138). -/
def State.lateStage (s : State) : Bool := s.mode == .run && s.fld Reg.BOOT_STATUS 2 0 == 6

/-- What a boot command answers: BADOP first for an OP that is none, else the lowest of MODE, MASTER and NOTREADY that
holds (log 40). -/
def State.bootCode (s : State) (m : Master) (op : Nat) : Nat :=
  let col0 : Bool := m == 0
  if op = 7 then 5
  else if op = 1 then
    if s.mode ≠ .start then 2 else if !col0 then 3 else if !s.bit Reg.BOOT_STATUS 13 then 4 else 1
  else if op = 4 then (if s.mode ≠ .recovery then 2 else 1)
  else if op = 5 then (if s.mode ≠ .start && !s.lateStage then 2 else if !col0 then 3 else 1)
  else if op = 6 then
    if s.mode ≠ .recovery then 2 else if m ≠ 8 || !s.bit Reg.KEY_STATUS 1 then 3 else 1
  else 1

/-- SEED begins: the table region is zeroed and the records written, which ends with SEED_END (R370). -/
def State.startSeed (s : State) : State :=
  let s1 := (s.setBit Reg.BOOT_STATUS 13 false).setBit Reg.TUN_STATUS 0 false
  { s1 with boot := { s1.boot with seedRun := true } }

/-- A write of BOOT_CMD. RUN, TEST and the START of BOOT_STAGED take effect at step 1 of the next head, a reset at once
(R349, R371, R372). -/
def State.bootCommand (s : State) (m : Master) (op : Nat) : State :=
  if op = 0 then s
  else
    let code := s.bootCode m op
    let s1 := s.setRegN (pmKey m Reg.BOOT_CMD_RESULT) code
    if code ≠ 1 then s1
    else if op = 1 then s1.pendMode .run
    else if op = 2 then s1.startReset
    else if op = 3 then s1.startRecover
    else if op = 4 then s1.pendMode .start
    else if op = 5 then s1.startSeed
    else s1.pendMode .test

/-! ## The seeds (R361, R370) -/

/-- A seed record written: with Sump to the table, a pinned one as the cache holds it; without, an unpinned one is counted. -/
def State.writeSeed (ready : Bool) (s : State) (r : SeedRecord) : State :=
  if !ready then (if r.pin then s else s.count Reg.BOOT_SEED_SKIP)
  else s.setTable r.ep
    (if r.pin then ((s.cacheLine r.ep).map (·.entry)).getD r.entry else { r.entry with stamp := s.beatNum })

/-- SEED has ended: the table region is zero, every record is written, the pinned ones as the cache holds them; without
Sump the unpinned ones are counted and TABLE_OK stays 0 (R370). -/
def State.endSeed (s : State) : State :=
  let ready := s.sumpReady
  let s1 : State := { s with
    boot := { s.boot with seedRun := false }
    tun := { s.tun with
      table := if ready then [] else s.tun.table
      poison := if ready then [] else s.tun.poison
      cache := s.tun.cache.filter fun l => l.entry.pin } }
  let s2 := s1.over s1.boot.seeds (State.writeSeed ready)
  let s3 := if s.lateStage then s2.setStage 7 else s2
  (s3.setBit Reg.BOOT_STATUS 13 true).setBit Reg.TUN_STATUS 0 ready

/-! ## Power, PLL and stage 5 (R367, R396, R397) -/

/-- The voltage stands at AVS_TARGET, clamped as the controller clamps it. -/
def State.avsLow (s : State) : Nat := min 880 (max 720 (s.fld Reg.AVS_CFG 9 0))

/-- VMAX in force: with VMIN above VMAX, VMIN serves as both (Table PWR-12). -/
def State.avsHigh (s : State) : Nat := max s.avsLow (min 880 (max 720 (s.fld Reg.AVS_CFG 25 16)))

/-- The target in force for a written AVS_TARGET (Table PWR-12). -/
def State.avsClamp (s : State) (t : Nat) : Nat := min s.avsHigh (max s.avsLow t)

/-- Stage 5 is done: the core runs on the PLL and the lanes are enabled; stage 6 follows (Table BOT-9). -/
def State.onPll (s : State) : State :=
  let s1 := ((s.setBit Reg.BOOT_STATUS 14 true).setBit Reg.GLB_MODE 3 false).lanesOn
  let s2 : State := { s1 with boot := { s1.boot with clockHead := some s1.heads, pllLocked := false } }
  if s2.fld Reg.BOOT_STATUS 2 0 ≤ 5 then s2.setStage 6 else s2

end Sys2Proof.Machine
end

