-- ==== Sys2Proof/Machine/Lanes.lean ====
section
/-! DEFINITION. Machine/Lanes.lean: the meanings of the blocks, levels and measurements of the lanes
(chapter "Lanes and the Torvisk Link line code"), but for the register writes. -/

namespace Sys2Proof.Machine

/-! ## A block received (R56-R69, R84) -/

/-- A control block of Table LAN-2 whose fields R63 allows. -/
def controlOk (payload : BitVec 64) : Bool := (Control.read payload).isSome

/-- One bit into the pattern checker of a lane: the bit expected from the last 31, the count of good bits up
to synchronisation at 64, and the errors after it (R84). Once synchronised it runs free on its own pattern and never synchronises anew
while it is on (DESIGN CHOICE, log 126). -/
def prbsBit (prbs31 : Bool) (st : BitVec 31 × Nat × Nat) (b : Bool) : BitVec 31 × Nat × Nat :=
  let (hist, good, errs) := st
  let want := prbsNext prbs31 hist
  if 64 ≤ good then (shiftBit hist want, good, if b == want then errs else errs + 1)
  else if b == want then (shiftBit hist b, good + 1, errs)
  else (shiftBit hist b, 0, errs)

/-- The 66 bits of a block in line order: the header first (R56), its higher bit before its lower one (DESIGN CHOICE, log 80). -/
def lineBits (hdr : BitVec 2) (payload : BitVec 64) : List Bool :=
  hdr.getLsbD 1 :: hdr.getLsbD 0 :: (List.range 64).map payload.getLsbD

/-- The pattern checker of a lane sees the bits of its line (R84). -/
def State.checkPattern (s : State) (l : LaneIx) (b : Block) : State :=
  let x := s.lanes[l]
  if x.chk = 0 then s.modLane l fun x => { x with prbsGood := 0 }
  else
    let (h, g, e) := (lineBits b.hdr b.payload).foldl (prbsBit (x.chk == 2)) (x.prbsHist, x.prbsGood, 0)
    (s.modLane l fun x => { x with prbsHist := h, prbsGood := g }).countN (Reg.LANE_PRBS_ERR l.val) e

/-- n reads of the elastic buffer: below 4 blocks a FILL stands in for a read (R69). -/
def ebufRead : Nat → Nat → Nat
  | 0, e => e
  | n + 1, e => if e < 4 then e else ebufRead n (e - 1)

/-- A block at the elastic buffer (R69): a FILL above 12 blocks is not written, and a block that finds the
buffer full is lost, counted, and FLT with code 5 is sent. The flag says that the block was kept. -/
def State.buffer (s : State) (l : LaneIx) (fill : Bool) (reads : Nat) : State × Bool :=
  let e := ebufRead reads s.lanes[l].ebuf
  let keep (n : Nat) : State := s.modLane l fun x => { x with ebuf := n }
  if fill && decide (12 < e) then (keep e, false)
  else if 16 ≤ e then
    let p := s.portOfLane l
    (((keep e).count (Reg.LANE_EBUF_ERR l.val)).emit (.flt p 5 (BitVec.ofNat 4 (2 ^ s.laneIndex l))), false)
  else (keep (e + 1), true)

/-- A lane leaves LOCKED (Table LAN-4): counted, and its port answers. -/
def State.lockLost (s : State) (l : LaneIx) : State :=
  let s1 := (s.holdCtle l).modLane l fun x =>
    { x with lock := .hunt, count := 0, errors := 0, window := 0, ebuf := 0, lockSec := x.lockSec + 1 }
  ((s1.setFld (Reg.LANE_EYE l.val) 17 17 0).count (Reg.LANE_LOCK_LOSS l.val)).laneLost l

/-- The block boundary of a lane slips by one bit (Table LAN-4). -/
def State.slipBit (s : State) (l : LaneIx) : State :=
  { s with line := { s.line with slip := vmod s.line.slip l fun n => (n + 1) % 66 } }

/-- An error while LOCKED (Table LAN-4). -/
def State.lockError (s : State) (l : LaneIx) : State :=
  let s1 := s.count (Reg.LANE_HDR_ERR l.val)
  if 15 ≤ s1.lanes[l].errors then (s1.lockLost l).slipBit l
  else s1.modLane l fun x => { x with errors := x.errors + 1 }

/-- A window of 64 blocks counts, and opens again with no errors (Table LAN-4). -/
def State.lockWindow (s : State) (l : LaneIx) : State :=
  s.modLane l fun x =>
    if x.lock != .locked then x
    else if 63 ≤ x.window then { x with window := 0, errors := 0 } else { x with window := x.window + 1 }

/-- An Ethernet port comes up with the lock of its lane, where its rate is that of its last consistent pair and no loop or pattern is
active (R85, R91). -/
def State.ethUp (s : State) (p : LinkPort) : State :=
  let l := laneAt p 0
  if s.isEth p && s.lanes[l].lock == .locked && s.bit Reg.GLB_REFCLK 4 && s.rateHeld p && !s.loopActive l &&
    s.ports[p].stage != .active then
    (s.modPort p fun x => { x with localFault := false, reached := true, stage := .active, stageHead := s.heads }).settle
  else s

/-- A lane locks: an Ethernet port comes up with its lane (R91), a Torvisk Link lane waits for AMK. The level its elastic buffer
starts from is 8 blocks (DESIGN CHOICE, log 81). -/
def State.lockGained (s : State) (l : LaneIx) : State :=
  let s1 := s.modLane l fun x => { x with lock := .locked, count := 0, errors := 0, window := 0, ebuf := 8 }
  s1.ethUp (s1.portOfLane l)

/-- Bytes join the frame that a port is reassembling (R58); the receiver stops storing at byte 9,252 (R134). -/
def State.assemble (s : State) (p : LinkPort) (bs : List Byte) : State :=
  { s with line := { s.line with
    asm := vmod s.line.asm p fun a => a ++ bs.take (9252 - a.length)
    asmN := vmod s.line.asmN p (· + bs.length) } }

/-- The frame that a port has been reassembling is whole (R58); one of more than 9,252 bytes is dropped here, at its EOF (R134). -/
def State.frameWhole (s : State) (p : LinkPort) : State :=
  { s with line := { s.line with
    whole := if s.line.asmN[p] ≤ 9252 then vset s.line.whole p s.line.asm[p] else s.line.whole
    asm := vset s.line.asm p []
    asmN := vset s.line.asmN p 0 } }

/-- A block of a port's stream, in stream order (R58, R60). -/
def State.framing (s : State) (p : LinkPort) (valid : Bool) (b : Block) : State :=
  let inside := s.ports[p].inFrame
  if !valid then s.dropPartial p
  else if b.hdr = 1 then (if inside then s.assemble p (leBytes 8 b.payload.toNat) else s.countFraming p)
  else match Control.read b.payload with
    | some .sof => ((s.dropPartial p).emptyFrame p).modPort p fun y => { y with inFrame := true }
    | some (.eof n d) =>
      if inside then ((s.assemble p (leBytes n.toNat d.toNat)).frameWhole p).modPort p fun y => { y with inFrame := false }
      else s.countFraming p
    | _ => s

/-- A block belongs to the striped stream: a data block, a port-level control block (R61), or an invalid block in the place of one
(DESIGN CHOICE, log 82). -/
def Block.striped (b : Block) : Bool :=
  b.hdr != 2 || (match Control.read b.payload with
    | some c => c.portLevel
    | none => true)

/-- The streams of the receive lanes of a port are put together again: block k comes from the (k mod W)-th of them (R71). -/
def State.destripe (s : State) (p : LinkPort) : Nat → State
  | 0 => s
  | n + 1 =>
    let ls := laneList s.ports[p].rxLanes
    match ls[s.line.rxK[p] % ls.length]? with
    | none => s
    | some i =>
      let l := laneAt p i
      match s.line.rxQ[l] with
      | [] => s
      | (ok, b) :: rest =>
        let s1 : State := { s with line := { s.line with rxQ := vset s.line.rxQ l rest, rxK := vmod s.line.rxK p (· + 1) } }
        (s1.framing p ok b).destripe p n

/-- A block of the stream of a port arrives on lane l. -/
def State.streamBlock (s : State) (p : LinkPort) (l : LaneIx) (valid : Bool) (b : Block) : State :=
  let s1 : State := { s with line := { s.line with rxQ := vmod s.line.rxQ l (· ++ [(valid, b)]) } }
  s1.destripe p ((laneList s1.ports[p].rxLanes).foldl (fun a i => a + s1.line.rxQ[laneAt p i].length) 0)

/-- A FILL, whatever its reserved bits hold (R62). -/
def Block.isFill (b : Block) : Bool := b.hdr == 2 && Control.read b.payload == some .fill

/-- A 66-bit block, descrambled, on a lane that runs with its signal and clock good. -/
def State.takeBlock (s : State) (l : LaneIx) (b : Block) (reads : Nat) : State :=
  let p := s.portOfLane l
  let s0 := if s.lanes[l].lock == .off then s.modLane l fun x => { x with lock := .hunt, count := 0 } else s
  let control := b.hdr == 2
  let invalid := control && s0.isTvl p && !controlOk b.payload
  let good := (b.hdr == 1 || control) && !invalid
  if s0.lanes[l].lock == .hunt then
    if !good then (if s0.lanes[l].los || s0.lanes[l].lol then s0 else s0.slipBit l).modLane l fun x => { x with count := 0 }
    else if 63 ≤ s0.lanes[l].count then s0.lockGained l
    else s0.modLane l fun x => { x with count := x.count + 1 }
  else
    let s1 := if invalid then s0.count (Reg.LANE_BLK_INVALID l.val) else s0
    let x := s1.ports[p]
    let stream := s1.isTvl p && (x.stage == .active || x.stage == .degraded) && !x.discarding &&
      x.rxLanes.getLsbD (s1.laneIndex l) && !s1.laneOut l
    let (s2, kept) := s1.buffer l b.isFill reads
    let s3 := if stream && kept && b.striped then s2.streamBlock p l good b else s2
    (if good then s3 else s3.lockError l).lockWindow l

/-- The block a lane's receive PCS is fed with: from the line, or with a near-end loop from the own transmit side (Table LAN-6). What a
serial loop takes at the pad is the line data where the partner's far-end loop drives it (R83). -/
def State.rxSource (s : State) (l : LaneIx) (line : Block) : State × Block :=
  let x := s.lanes[l]
  if x.loop.getLsbD 1 || (x.loop.getLsbD 0 && !x.farEnd) then
    let (y, b) := s.line.loopBack x.gen x.farEnd (x.loop.getLsbD 0) (x.loop.getLsbD 1) l
    ({ s with line := y }, b)
  else (s, line)

/-- A far-end loop sends the line data (Table LAN-6). -/
def State.farLoop (s : State) (l : LaneIx) (line : Block) : State :=
  if s.lanes[l].farEnd then { s with line := s.line.drive l line } else s

/-- The payload of a block descrambled (R57). -/
def State.unscramble (s : State) (l : LaneIx) (b : Block) : State × Block :=
  let (d, p) := descramble s.line.descr[l] b.payload
  ({ s with line := { s.line with descr := vset s.line.descr l d } }, { b with payload := p })

/-- A near-end loop feeds the receive PCS of a lane, whatever its line does (Table LAN-6). -/
def Lane.nearEnd (x : Lane) : Bool := x.loop.getLsbD 0 || x.loop.getLsbD 1

/-- BLOCK_RECEIVED (R67): the block as it stands on the line, its payload scrambled. Under LOS or LOL the line gives none (R75, R76); a
near-end loop goes on. -/
def execBlockReceived (lane : LaneIx) (hdr : BitVec 2) (payload : BitVec 64) (reads : Nat) (s : State) : Out :=
  .next (s.whenCore fun s =>
    if !s.laneOn lane || ((s.lanes[lane].los || s.lanes[lane].lol) && !s.lanes[lane].nearEnd) then s
    else
      let line : Block := { hdr := hdr, payload := payload }
      let (s1, raw) := (s.farLoop lane line).rxSource lane line
      let (s2, b) := (s1.checkPattern lane raw).unscramble lane raw
      s2.takeBlock lane b reads)

/-! ## Training (R79) -/

/-- A request on a cursor: its new value and whether it stood at its limit. -/
def moveCursor (req limit v : Nat) : Nat × Bool :=
  if req = 1 then (if limit ≤ v then (v, true) else (v + 1, false))
  else if req = 2 then (if v = 0 then (v, true) else (v - 1, false))
  else (v, false)

/-- A TRAIN request that has not been seen is acted on (R79): the answer's ACK. With TRAIN_EN = 0 the lane keeps its preset, and the
answer says so as for a cursor at its limit (DESIGN CHOICE, log 83). -/
def State.trainRequest (s : State) (l : LaneIx) (pre post preset : Nat) (tseq : BitVec 8) : State × BitVec 2 :=
  let e := Reg.LANE_EQ l.val
  let seen (s : State) : State := s.modLane l fun x => { x with tseq := some tseq }
  if !s.lanes[l].trainEn then (seen s, if pre = 0 ∧ post = 0 then 1 else 2)
  else if pre = 3 ∨ post = 3 then (seen (s.usePreset l preset), 1)
  else
    let (a, la) := moveCursor pre 15 (s.fld e 8 5)
    let (b, lb) := moveCursor post 31 (s.fld e 13 9)
    (seen ((s.setFld e 8 5 a).setFld e 13 9 b), if la || lb then 2 else 1)

/-- The own request of a lane: held once adaptation has settled or where TRAIN_EN is 0, repeated until the partner has answered it, and
then a new one, which the adaptation chooses (R79; a free value, log 7). -/
def State.ownRequest (s : State) (l : LaneIx) (answered : Bool) : State :=
  let x := s.lanes[l]
  if !x.trainEn || x.rxReady then
    if x.ask = 0 then s else s.modLane l fun y => { y with ask := 0, askSeq := y.askSeq + 1 }
  else if answered then s.drawn.modLane l fun y => { y with ask := BitVec.ofNat 7 s.free, askSeq := y.askSeq + 1 }
  else s

/-- RX_READY is set only with LOS, LOL clear and block lock (R79). -/
def State.trainReady (s : State) (l : LaneIx) (settled partner : Bool) : State :=
  s.modLane l fun x => { x with rxReady := settled && !x.faulty, txReady := partner }

/-- TRAIN_BLOCK_RECEIVED (R79): the request is acted on once, every block is answered by one with the own request, answer and readiness as
they stand, and the lane leaves TRAIN once it both sends and receives RX_READY. -/
def execTrainBlockReceived (lane : LaneIx) (reqPre reqPost : BitVec 2) (reqPreset : BitVec 3) (ack : BitVec 2)
    (rxReady : Bool) (tseq ackSeq : BitVec 8) (settled : Bool) (s : State) : Out :=
  .next (s.whenCore fun s =>
    let p := s.portOfLane lane
    if !s.inTrain lane || ack == 3 then s
    else
      let s1 := s.trainReady lane settled rxReady
      let s2 := s1.ownRequest lane (ack != 0 && ackSeq == s1.lanes[lane].askSeq)
      let s3 := (if s2.lanes[lane].tseq = some tseq then s2
        else
          let (s3, answer) := s2.trainRequest lane reqPre.toNat reqPost.toNat reqPreset.toNat tseq
          s3.modLane lane fun x => { x with ackTx := answer, ackSeq := tseq }).sendTrain lane
      let x := s3.lanes[lane]
      if x.rxReady && x.txReady then (s3.modLane lane fun x => { x with trained := true }).noteHealth p else s3)

/-! ## Alignment (R71-R73, R101, R102) -/

/-- The marks that are valid blocks (R63). -/
def validMarks (marks : List AmkMark) : List AmkMark := marks.filter fun m => m.width != 3

/-- The mark of the lowest lane. -/
def lowestMark : List AmkMark → Option AmkMark
  | [] => none
  | m :: ms =>
    match lowestMark ms with
    | none => some m
    | some k => if k.lane.val < m.lane.val then some k else some m

/-- The lanes named by a list of marks. -/
def marksMask (ms : List AmkMark) : BitVec 4 := maskOf 4 fun i => ms.any fun m => m.lane.val == i

/-- A lane takes the lag of its mark, or loses its deskew. -/
def State.deskewLane (s : State) (l : LaneIx) (lag : Nat) (ok : Bool) : State :=
  if ok then s.modLane l fun x => { x with skew := some lag }
  else (s.modLane l fun x => { x with skew := none }).count (Reg.LANE_AMK_ERR l.val)

/-- AMK blocks of one set deskew the lanes that agree; the others are left out, counted and reported (R73). -/
def State.deskew (s : State) (p : LinkPort) (marks : List AmkMark) (low : AmkMark) : State :=
  let ok (m : AmkMark) : Bool := decide (m.lag ≤ 64) && m.seq == low.seq && m.width == low.width
  let s1 := s.over marks fun s m => s.deskewLane (laneAt p m.lane.val) m.lag (ok m)
  let bad := marks.filter fun m => !ok m
  if bad.isEmpty then s1 else s1.emit (.flt p 4 (marksMask bad))

/-- The AMK blocks announce a set other than the one in force: an unscheduled AMK, another WIDTH, or lanes outside it (R101). -/
def State.newSet (s : State) (p : LinkPort) (marks : List AmkMark) (width : Nat) (unscheduled : Bool) : Bool :=
  unscheduled || width != s.ports[p].rxWidth || (laneList (marksMask marks)).any fun i => !s.ports[p].rxLanes.getLsbD i

/-- The lanes of an announced set come into force for reception, but for parked lanes and those that stand out of the port (R55, R85,
R101, R104). A new set ends the discarding of R102,
and a frame cut by it is lost to the restripe; a lane of the old set that no longer aligns is a lane fault. -/
def State.rxAnnounce (s : State) (p : LinkPort) (marks : List AmkMark) (low : AmkMark) (unscheduled : Bool) : State :=
  let kept := marks.filter fun m => !s.ports[p].parked.getLsbD m.lane.val && !s.laneOut (laneAt p m.lane.val)
  let good := kept.filter fun m => (s.lanes[laneAt p m.lane.val]).skew.isSome
  let width := if low.width = 2 then 4 else if low.width = 1 then 2 else 1
  if s.newSet p kept width unscheduled then
    let s1 := if unscheduled && s.ports[p].inFrame then
        (s.modPort p fun x => { x with inFrame := false }).countTrunk p Reg.TRK_DEGRADE_DISC
      else s
    (s1.emptyFrame p).modPort p fun x =>
      { x with
        rxLanes := marksMask good
        rxWidth := if good.isEmpty then 0 else width
        discarding := decide (good.length < width) }
  else
    s.over (kept.filter fun m => (s.lanes[laneAt p m.lane.val]).skew.isNone) fun s m => (s.dropOn p m.lane.val).rxFault p m.lane.val

/-- AMK_RECEIVED (R73): `sincePrev` counts the blocks since the previous AMK on the lane; fewer than 16,384
make it an unscheduled AMK, at which the counts are resynchronised (R229). The stream begins again at block 0 (R71). -/
def execAmkReceived (port : LinkPort) (marks : List AmkMark) (sincePrev : Nat) (s : State) : Out :=
  .next (s.whenCore fun s =>
    let ms := validMarks marks
    let st := s.ports[port].stage
    match lowestMark ms with
    | none => s
    | some low =>
      if !s.isTvl port || !(st == .lock || st == .capx || st == .active || st == .degraded) then s
      else
        let s1 := (s.deskew port ms low).restripe port
        if st == .active || st == .degraded then
          let un := decide (sincePrev < 16384)
          let s2 := s1.rxAnnounce port ms low un
          (if un then s2.resyncRx port else s2).evalWidth port
        else s1)

/-- AMK_SEND (R72): the scheduled AMK on the transmit set. -/
def execAmkSend (port : LinkPort) (s : State) : Out :=
  .next (s.whenCore fun s =>
    let x := s.ports[port]
    if s.isTvl port && (x.stage == .lock || x.stage == .capx || x.stage == .active || x.stage == .degraded) &&
      x.txLanes != 0 then s.sendAmk port true else s)

/-! ## Credit blocks (R227-R231) -/

/-- The head frame of a queue of a local Torvisk Link port waits for credit from the partner (R227, R241). -/
def State.creditBlocked (s : State) (n : LocalPort) (c : Cls) : Bool :=
  match (s.cav.queues[queueOf (toEgress (loc n)) c]).refs.head? with
  | some r => decide ((s.credit (loc n) c false).available < r.cells)
  | none => false

/-- A TC5-TC7 head frame of a local port has waited more than 4 beat heads for credit (R241). -/
def State.drainLong (s : State) (n : LocalPort) : Bool :=
  ([5, 6, 7] : List Cls).any fun c => ((s.cav.queues[queueOf (toEgress (loc n)) c]).creditWait).any fun h => decide (h + 4 < s.heads)

/-- The waits of a local port as a head or a CRED finds them: each TC5-TC7 queue keeps the last head before its head frame began to wait for
credit, `since` where it begins now, and DEP_DRAIN falls once none has waited more than 4 heads (R241). -/
def State.refreshDrain (s : State) (n : LocalPort) (since : Nat) : State :=
  let s1 := s.over ([5, 6, 7] : List Cls) fun s c =>
    let wait := s.isTvl (loc n) && s.creditBlocked n c
    s.modQueue (queueOf (toEgress (loc n)) c) fun q =>
      { q with creditWait := if wait then some (q.creditWait.getD since) else none }
  if s1.drainLong n then s1 else s1.setBit Reg.DEP_DRAIN n.val false

/-- CRED_RECEIVED (R231): ignored for 4 us after a resynchronising AMK (R229), ignored and counted where it
runs more than 4,095 ahead of U; else it becomes the sender's G. -/
def execCredReceived (port : LinkPort) (tc : Cls) (esc : Bool) (count : BitVec 20) (s : State) : Out :=
  .next (s.whenCore fun s =>
    if !s.portUp port || !s.isTvl port || s.ports[port].ignoring || (esc && decide (4 ≤ port.val)) then s
    else if 4095 < (count - (s.credit port tc esc).u).toNat then s.count Reg.DEP_CRED_ERR
    else
      let s1 := s.modCredit port tc esc fun k => { k with count := count, limit := none }
      match asLocal port with
      | some n => s1.refreshDrain n s1.heads
      | none => s1)

/-- CRED_BLOCK_SEND (R228): COUNT = G. -/
def execCredBlockSend (port : LinkPort) (tc : Cls) (esc : Bool) (s : State) : Out :=
  .next (s.whenCore fun s =>
    if !s.portUp port || !s.isTvl port || (esc && decide (4 ≤ port.val)) then s else s.sendCred port tc esc)

/-- CREDIT_RESYNC_PERIODIC (R229): every CRED_RESYNC x 256 beats, with the width unchanged, after an EOF: not while a cut-through
frame is leaving. -/
def execCreditResyncPeriodic (port : LinkPort) (s : State) : Out :=
  .next (s.whenCore fun s =>
    let n := s.fld Reg.DEP_CFG 23 16
    if s.portUp port && s.isTvl port && s.ports[port].txLanes != 0 && n != 0 && !(s.cav.cutTx.any fun c => c.egress == toEgress port) &&
      decide (s.ports[port].resyncHead + n * 256 ≤ s.heads) then (s.sendAmk port false).resyncTx port else s)

/-- CREDIT_RESYNC_IGNORE_END (R229): 4 us after the AMK, CRED blocks are taken again. -/
def execCreditResyncIgnoreEnd (port : LinkPort) (s : State) : Out :=
  .next (s.whenCore fun s => s.modPort port fun x => { x with ignoring := false })

/-- CREDIT_RESYNC_SECOND_CRED (R229): 5 us after the AMK arrived, CRED for every class and set again. -/
def execCreditResyncSecondCred (port : LinkPort) (s : State) : Out :=
  .next (s.whenCore fun s => if s.portUp port && s.isTvl port then s.sendAllCred port else s)

/-! ## ECHO blocks (R34, R61, R65) -/

/-- So many heads have passed since the last block of a cadence in beats (R25). -/
def State.cadence (s : State) (last : Option Nat) (n : Nat) : Bool := last.all fun h => decide (h + n ≤ s.heads)

/-- ECHO_REQUEST_SEND (R61): every 2 beats on the lowest active lane. -/
def execEchoRequestSend (port : LinkPort) (s : State) : Out :=
  .next (s.whenCore fun s =>
    if s.portUp port && s.isTvl port && s.cadence s.ports[port].reqHead 2 then
      let n := s.ports[port].eseq + 1
      (s.modPort port fun x => { x with eseq := n, echoReq := some (n, s.heads), reqHead := some s.heads }).emit (.echoRequest port n)
    else s)

/-- ECHO_REQUEST_RECEIVED (R65): answered on the lane that carried it, with the turnaround in TURN. -/
def execEchoRequestReceived (port : LinkPort) (lane : Fin 4) (eseq : BitVec 7) (turn : BitVec 24) (s : State) : Out :=
  .next (s.whenCore fun s =>
    if s.portUp port && s.isTvl port then s.emit (.echoReply port lane eseq turn) else s)

/-- ECHO_REPLY_RECEIVED (R34, R65): a reply within 2 beats of the outstanding request gives one delay of the
trunk port; the last eight are kept. -/
def execEchoReplyReceived (port : LinkPort) (eseq : BitVec 7) (turn : BitVec 24) (roundTrip : Nat) (s : State) : Out :=
  .next (s.whenCore fun s =>
    match s.ports[port].echoReq with
    | none => s
    | some (n, h) =>
      if n ≠ eseq ∨ h + 2 < s.heads then s
      else
        let s1 := s.modPort port fun x => { x with echoReq := none }
        match asTrunk port with
        | none => s1
        | some t =>
          let ds := s1.beat.delays[t] ++ [(roundTrip - turn.toNat) / 2]
          { s1 with beat := { s1.beat with delays := vset s1.beat.delays t (ds.drop (ds.length - 8)) } })

/-- DELAY_UPDATE (R34): every 16 beats the average of the last eight measurements is shown, of those there are before
eight exist; the halved round trip and the average are rounded down (DESIGN CHOICE, log 85). -/
def execDelayUpdate (port : TrunkPort) (s : State) : Out :=
  .next (s.whenCore fun s =>
    let ds := s.beat.delays[port]
    if ds.isEmpty || decide (s.heads < s.beat.delayHead[port] + 16) then s
    else
      let s1 : State := { s with beat := { s.beat with delayHead := vset s.beat.delayHead port s.heads } }
      s1.setRegN (Reg.BEAT_DLY port.val) (min 0xFFFFF (ds.sum / ds.length)))

/-! ## Faults and lane sets (R77, R101, R102, R104) -/

/-- FLT_RECEIVED (R77): the lanes named are faulty for transmission, and the transmit set gives them up
(R102). -/
def execFltReceived (port : LinkPort) (_code lanes : BitVec 4) (s : State) : Out :=
  .next (s.whenCore fun s =>
    if !s.isTvl port || s.ports[port].stage == .down then s
    else
      let named := (List.range (s.laneCount port)).filter lanes.getLsbD
      let s1 := s.over named fun s i => s.modLane (laneAt port i) fun x => { x with fltAt := some s.heads, healthyAt := none }
      s1.txDrop port)

/-- FLT_RX_EXPIRY (R77): no FLT block named the lane for 2 beats; it counts as healthy again. -/
def execFltRxExpiry (lane : LaneIx) (s : State) : Out :=
  .next (s.whenCore fun s =>
    match s.lanes[lane].fltAt with
    | none => s
    | some h =>
      if s.heads ≤ h + 2 then s
      else (s.modLane lane fun x => { x with fltAt := none }).noteHealth (s.portOfLane lane))

/-- The transmit set that lane i would join: the lowest lanes of those in it and those healthy for 64 heads. -/
def State.joinSet (s : State) (p : LinkPort) : BitVec 4 :=
  lowestLanes (maskOf (s.laneCount p) fun i =>
    s.laneHealthy p i && (s.ports[p].txLanes.getLsbD i ||
      (match s.lanes[laneAt p i].healthyAt with
       | some h => decide (h + 64 ≤ s.heads)
       | none => false)))

/-- A lane returns to the transmit set: the returns of the last 16,000 beats; more than FLAP_MAX of them park a lane of a trunk port
(R104). -/
def State.laneReturns (s : State) (p : LinkPort) (i : Nat) : State :=
  let l := laneAt p i
  let recent := (s.lanes[l].returns.filter fun h => decide (s.heads < h + 16000)) ++ [s.heads]
  let s1 := s.modLane l fun x => { x with returns := recent, dropped := false }
  if p.val < 4 ∧ s.fld (Reg.TRK_CFG p.val) 9 2 < recent.length then
    (s1.modPort p fun x => { x with parked := x.parked ||| BitVec.ofNat 4 (2 ^ i) }).rxFault p i
  else s1

/-- TX_LANE_JOIN (R102, R104): at a scheduled AMK after an EOF the transmit set takes the lanes that may join; a lane that was in
the set before returns, and is parked where it has returned too often. -/
def execTxLaneJoin (port : LinkPort) (lane : Fin 4) (s : State) : Out :=
  .next (s.whenCore fun s =>
    let set := s.joinSet port
    if !(s.ports[port].stage == .active || s.ports[port].stage == .degraded) || !s.isTvl port ||
      s.ports[port].txLanes.getLsbD lane.val || !set.getLsbD lane.val then s
    else
      let back := (laneList set).filter fun i => !s.ports[port].txLanes.getLsbD i && s.lanes[laneAt port i].dropped
      let s1 := s.over back fun s i => s.laneReturns port i
      let set1 := s1.joinSet port
      if set1 = s1.ports[port].txLanes || !s1.portUp port then s1
      else
        ((s1.modPort port fun x => { x with txLanes := set1, txWidth := (laneList set1).length }).sendAmk port true).evalWidth port)

/-- The code with which a lane's receiver is faulty (Table LAN-3), 0 where it is not. A parked lane
stays out of both directions: the partner hears of it with a code of no named fault (R104; DESIGN CHOICE, log 84). Which of several faults
a lane's one code names, no rule says: this order is the model's (R77; DESIGN CHOICE, log 125). -/
def State.fltCode (s : State) (p : LinkPort) (i : Nat) : Nat :=
  let l := laneAt p i
  let x := s.lanes[l]
  if s.loopActive l then 7
  else if s.rateMix l then 6
  else if s.ports[p].parked.getLsbD i then 8
  else if x.los then 1
  else if x.lol then 2
  else if !x.trained then 0
  else if x.lock != .locked then 3
  else if x.skew.isNone && (s.ports[p].stage == .active || s.ports[p].stage == .degraded) then 4
  else 0

/-- FLT_SEND (R77): once per beat while a receive fault holds, on every transmitting lane; one block per code. -/
def execFltSend (port : LinkPort) (s : State) : Out :=
  .next (s.whenCore fun s =>
    if !s.isTvl port || (s.sendLanes port).isEmpty || !s.cadence s.ports[port].fltHead 1 then s
    else
      (s.over [1, 2, 3, 4, 6, 7, 8] fun s c =>
        let m := maskOf (s.laneCount port) fun i => s.fltCode port i == c
        if m = 0 then s else s.emit (.flt port (BitVec.ofNat 4 c) m)).modPort port fun x => { x with fltHead := some s.heads })

/-! ## Far-end loops (R83, R85) -/

/-- A lane has entered or left a loop or pattern: it leaves its port, or counts as healthy anew (R85). -/
def State.loopChanged (s : State) (l : LaneIx) : State :=
  let p := s.portOfLane l
  let s1 := s.noteHealth p
  if s1.isTvl p then
    if s1.loopActive l then (((s1.dropOn p (s1.laneIndex l)).txDrop p).rxFault p (s1.laneIndex l)) else s1
  else if s1.loopActive l then s1.ethDown p
  else s1.ethUp p

/-- LPBK_REQUEST_RECEIVED (R83): acknowledged and applied on lanes with REMOTE_OK, refused and counted on the
others. The answer leaves before the driver of its lane sends the line data (DESIGN CHOICE, log 120). -/
def execLpbkRequestReceived (port : LinkPort) (lanes : BitVec 4) (s : State) : Out :=
  .next (s.whenCore fun s =>
    if !s.isTvl port || s.ports[port].stage == .down then s
    else
      let ok (i : Nat) : Bool := s.bit (Reg.LANE_LOOP (laneAt port i).val) 3
      let named := (List.range (s.laneCount port)).filter lanes.getLsbD
      let yes := named.filter ok
      let no := named.filter fun i => !ok i
      let s1 := s.over no fun s i => s.count (Reg.LANE_LPBK_FAIL (laneAt port i).val)
      let s2 := if yes.isEmpty then s1 else s1.emit (.lpbk port 2 (maskOf 4 yes.contains))
      let s3 := if no.isEmpty then s2 else s2.emit (.lpbk port 3 (maskOf 4 no.contains))
      s3.over yes fun s i => (s.modLane (laneAt port i) fun x => { x with remoteLoop := true }).loopChanged (laneAt port i))

/-- LPBK_ANSWER_RECEIVED (R83): an answer ends the request; PARTNER_LOOPED shows an acknowledgement, a refusal
is counted (Table LAN-9). -/
def execLpbkAnswerReceived (port : LinkPort) (lanes : BitVec 4) (accepted : Bool) (s : State) : Out :=
  .next (s.whenCore fun s =>
    s.over ((List.range (s.laneCount port)).filter lanes.getLsbD) fun s i =>
      let l := laneAt port i
      if s.lanes[l].lpbkHeads.isNone then s
      else
        let s1 := s.modLane l fun x => { x with lpbkHeads := none }
        if accepted then s1.setBit (Reg.LANE_LOOP l.val) 5 true else s1.count (Reg.LANE_LPBK_FAIL l.val))

/-- LPBK_RELEASE_RECEIVED (R83): a partner-requested loop goes; a local one stays. -/
def execLpbkReleaseReceived (port : LinkPort) (lanes : BitVec 4) (s : State) : Out :=
  .next (s.whenCore fun s =>
    s.over ((List.range (s.laneCount port)).filter lanes.getLsbD) fun s i =>
      (s.modLane (laneAt port i) fun x => { x with remoteLoop := false }).loopChanged (laneAt port i))

/-- LPBK_REQUEST_SEND (R83): once per beat while the request runs. -/
def execLpbkRequestSend (lane : LaneIx) (s : State) : Out :=
  .next (s.whenCore fun s =>
    let p := s.portOfLane lane
    if s.lanes[lane].lpbkHeads.isSome && s.isTvl p && s.cadence s.lanes[lane].lpbkSent 1 then
      (s.modLane lane fun x => { x with lpbkSent := some s.heads }).emit (.lpbk p 1 (BitVec.ofNat 4 (2 ^ s.laneIndex lane)))
    else s)

/-- LPBK_TIMEOUT (R83): 16 beats without an answer. -/
def execLpbkTimeout (lane : LaneIx) (s : State) : Out :=
  .next (s.whenCore fun s =>
    match s.lanes[lane].lpbkHeads with
    | none => s
    | some h =>
      if s.heads < h + 16 then s
      else (s.modLane lane fun x => { x with lpbkHeads := none }).count (Reg.LANE_LPBK_FAIL lane.val))

/-! ## Signal and clock (R75-R77) -/

/-- LOS or LOL has asserted: a locked lane loses lock, one in HUNT waits (Table LAN-4). -/
def State.signalLost (s : State) (l : LaneIx) : State :=
  if s.lanes[l].lock == .locked then s.lockLost l
  else if s.lanes[l].lock == .hunt then s.modLane l fun x => { x with count := 0, rxReady := false } else s

/-- LOS and LOL are clear again: the hunt begins (Table LAN-4). -/
def State.signalBack (s : State) (l : LaneIx) : State :=
  s.modLane l fun x => if !x.los && !x.lol && x.lock == .off then { x with lock := .hunt, count := 0 } else x

/-- LOS_ASSERT (R75): counted once per assertion. -/
def execLosAssert (lane : LaneIx) (s : State) : Out :=
  .next (s.whenCore fun s =>
    if !s.laneOn lane || s.lanes[lane].los then s
    else
      let s1 := (s.modLane lane fun x => { x with los := true, losSec := x.losSec + 1 }).count (Reg.LANE_LOS_COUNT lane.val)
      s1.signalLost lane)

/-- LOS_CLEAR (R75). -/
def execLosClear (lane : LaneIx) (s : State) : Out :=
  .next (s.whenCore fun s =>
    if !s.laneOn lane then s else (s.modLane lane fun x => { x with los := false }).signalBack lane)

/-- LOL_ASSERT (R76). -/
def execLolAssert (lane : LaneIx) (s : State) : Out :=
  .next (s.whenCore fun s =>
    if !s.laneOn lane || s.lanes[lane].lol then s
    else ((s.modLane lane fun x => { x with lol := true }).count (Reg.LANE_LOL_COUNT lane.val)).signalLost lane)

/-- LOL_CLEAR (R76). -/
def execLolClear (lane : LaneIx) (s : State) : Out :=
  .next (s.whenCore fun s =>
    if !s.laneOn lane then s else (s.modLane lane fun x => { x with lol := false }).signalBack lane)

/-! ## Eye and trend (R86-R90) -/

/-- EYE_MEASUREMENT (R86): at the end of TRAIN and once per second while LOCKED; widths above 64 are never
shown (Table LAN-9). -/
def execEyeMeasurement (lane : LaneIx) (height : BitVec 10) (width : BitVec 7) (s : State) : Out :=
  .next (s.whenCore fun s =>
    if !s.laneOn lane || s.lanes[lane].lock != .locked then s
    else (s.modLane lane fun x => { x with eyeNow := true }).setRegN (Reg.LANE_EYE lane.val)
      (height.toNat + min 64 width.toNat * 1024 + 131072))

/-- An empty trend record, with the sequence number it goes on from. -/
def emptyTrend (seq : BitVec 16) : TrendRecord :=
  { stamp := 0, runsec := 0, samples := 0, hMin := 0, hMean := 0, wMin := 0, wMean := 0, flags := 0, tag := 0,
    losEv := 0, lockLoss := 0, partner := 0, seq := seq, crc := 0 }

/-- The first 30 bytes of a trend record as it stands in the vault, Table LAN-7. -/
def TrendRecord.body (r : TrendRecord) : List Byte :=
  leBytes 4 r.stamp.toNat ++ leBytes 4 r.runsec.toNat ++ leBytes 4 r.samples.toNat ++ leBytes 2 r.hMin.toNat ++
    leBytes 2 r.hMean.toNat ++ [r.wMin, r.wMean, r.flags, r.tag] ++ leBytes 2 r.losEv.toNat ++ leBytes 2 r.lockLoss.toNat ++
    leBytes 4 r.partner.toNat ++ leBytes 2 r.seq.toNat

/-- Record k of lane l as it stands in the vault (R87). -/
def State.storedTrend (s : State) (l k : Nat) : TrendRecord := Store.get (fun _ => emptyTrend 0) s.log.trend (16 * l + k)

/-- Record k of lane l; one with a bad CRC reads as empty (R89). -/
def State.trendRec (s : State) (l k : Nat) : TrendRecord :=
  let r := s.storedTrend l k
  if r.crc = crc16 r.body then r else emptyTrend 0

/-- Record k of lane l written, with its CRC. -/
def State.setTrend (s : State) (l k : Nat) (r : TrendRecord) : State :=
  { s with log := { s.log with trend := Store.set (fun _ => emptyTrend 0) (16 * l + k) { r with crc := crc16 r.body } s.log.trend } }

/-- The mean m moved by a difference d over n: exact where n divides, else rounded up or down as the
implementation has it (log 7). -/
def meanStep (m d : Int) (n : Nat) : Int :=
  m + d / n + (if d % n ≠ 0 ∧ Config.meanUp d n then 1 else 0)

/-- The mean of two records weighted by their samples. -/
def meanOf (a : Nat) (n : Nat) (b : Nat) (k : Nat) : Nat :=
  if n + k = 0 then 0 else (meanStep a (((b : Int) - a) * k) (n + k)).toNat

/-- One second of the live record of a lane (R89). -/
def State.trendLive (s : State) (l : LaneIx) : TrendRecord :=
  let r := s.trendRec l.val 0
  let x := s.lanes[l]
  let h := s.fld (Reg.LANE_EYE l.val) 9 0
  let w := s.fld (Reg.LANE_EYE l.val) 16 10
  let n := r.samples.toNat + 1
  let rate := s.laneRate l
  let base : TrendRecord := { r with
    stamp := s.reg Reg.PWR_RTC_SEC
    runsec := r.runsec + 1
    tag := 1
    losEv := BitVec.ofNat 16 (min 65535 (r.losEv.toNat + x.losSec))
    lockLoss := BitVec.ofNat 16 (min 65535 (r.lockLoss.toNat + x.lockSec))
    partner := BitVec.ofNat 32 ((s.ports[s.portOfLane l].partner.map (·.id.toNat)).getD 0)
    seq := r.seq + 1 }
  if x.eyeNow then
    { base with
      samples := BitVec.ofNat 32 n
      hMin := BitVec.ofNat 16 (if r.samples = 0 then h else min r.hMin.toNat h)
      hMean := BitVec.ofNat 16 (meanStep r.hMean.toNat ((h : Int) - r.hMean.toNat) n).toNat
      wMin := BitVec.ofNat 8 (if r.samples = 0 then w else min r.wMin.toNat w)
      wMean := BitVec.ofNat 8 (meanStep r.wMean.toNat ((w : Int) - r.wMean.toNat) n).toNat
      flags := BitVec.ofNat 8 (rate + 4 * b2n (r.flags.getLsbD 2 || (r.samples != 0 && r.flags.toNat % 4 != rate))) }
  else base

/-- The live period folded into the live epoch, weighted by samples (R89). -/
def foldTrend (e r : TrendRecord) : TrendRecord :=
  let n := e.samples.toNat
  let k := r.samples.toNat
  { stamp := r.stamp
    runsec := e.runsec + r.runsec
    samples := e.samples + r.samples
    hMin := if n = 0 then r.hMin else if k = 0 then e.hMin else BitVec.ofNat 16 (min e.hMin.toNat r.hMin.toNat)
    hMean := BitVec.ofNat 16 (meanOf e.hMean.toNat n r.hMean.toNat k)
    wMin := if n = 0 then r.wMin else if k = 0 then e.wMin else BitVec.ofNat 8 (min e.wMin.toNat r.wMin.toNat)
    wMean := BitVec.ofNat 8 (meanOf e.wMean.toNat n r.wMean.toNat k)
    flags := if k = 0 then e.flags else BitVec.ofNat 8 (r.flags.toNat % 4 +
      4 * b2n (e.flags.getLsbD 2 || r.flags.getLsbD 2 || (n != 0 && e.flags.toNat % 4 != r.flags.toNat % 4)))
    tag := 4
    losEv := BitVec.ofNat 16 (min 65535 (e.losEv.toNat + r.losEv.toNat))
    lockLoss := BitVec.ofNat 16 (min 65535 (e.lockLoss.toNat + r.lockLoss.toNat))
    partner := r.partner
    seq := e.seq + 1
    crc := e.crc }

/-- A closed period goes to the oldest of records 2 to 7, which is the one after the last that was written (R89). -/
def State.closePeriod (s : State) (l : LaneIx) (r : TrendRecord) : State :=
  let s1 := s.setTrend l.val (2 + s.log.periodAt[l].val) { r with tag := 2 }
  { s1 with log := { s1.log with periodAt := vmod s1.log.periodAt l (· + 1) } }

/-- A closed epoch goes to the oldest of records 8 to 15 (R89). -/
def State.closeEpoch (s : State) (l : LaneIx) (r : TrendRecord) : State :=
  let s1 := s.setTrend l.val (8 + s.log.epochAt[l].val) { r with tag := 3 }
  { s1 with log := { s1.log with epochAt := vmod s1.log.epochAt l (· + 1) } }

/-- A period closes after 65,536 seconds, an epoch after 64 periods (R89). -/
def State.trendClose (s : State) (l : LaneIx) : State :=
  let r := s.trendRec l.val 0
  if r.runsec.toNat < 65536 then s
  else
    let e := foldTrend (s.trendRec l.val 1) r
    let s1 := ((s.setTrend l.val 1 e).closePeriod l r).setTrend l.val 0 (emptyTrend r.seq)
    if e.runsec.toNat < 64 * 65536 then s1 else (s1.closeEpoch l e).setTrend l.val 1 (emptyTrend e.seq)

/-- The records of a lane are cleared at the second tick; SEQ goes on from where it was (R90; DESIGN CHOICE, log 19). -/
def State.trendWipe (s : State) (l : LaneIx) : State :=
  if s.lanes[l].trendClear then
    (s.over (List.range 16) fun s k => s.setTrend l.val k (emptyTrend (if k < 2 then (s.trendRec l.val k).seq else 0))).modLane l fun x => { x with trendClear := false }
  else s

/-- One lane at a second tick of RUN. -/
def State.trendLane (s : State) (l : LaneIx) : State :=
  let s1 := s.trendWipe l
  let s2 := if s1.bit Reg.LANE_TREND_CTL 0 && s1.laneOn l then
      (s1.setTrend l.val 0 (s1.trendLive l)).trendClose l else s1
  let s3 := if s2.lanes[l].eyeNow then s2 else s2.setFld (Reg.LANE_EYE l.val) 17 17 0
  s3.modLane l fun x => { x with eyeNow := false, losSec := 0, lockSec := 0 }

/-- The trend update of a second, for each lane whose domain is on (R89). -/
def State.trendSecond (s : State) : State :=
  ({ s with log := { s.log with trendDue := false } } : State).over (List.finRange 32) fun s l => s.trendLane l

/-- TREND_UPDATE (R89): once per second of RUN; it waits behind the pending records of the writer (R435). -/
def execTrendUpdate (s : State) : Out :=
  .next (s.whenCore fun s =>
    if !(s.mode == .run) then s
    else if s.log.pending.isEmpty then s.trendSecond
    else { s with log := { s.log with trendDue := true } })

end Sys2Proof.Machine
end

