-- ==== Sys2Proof/Machine/PowerOps.lean ====
section
/-! DEFINITION. Machine/PowerOps.lean: the entry into LAYOVER and DORMANT, its refusal and abandonment, and the
requests and asks that start it (chapter "Power states, wake and voltage"). Blocks are numbered 1 to 7 as in Table
PWR-2. -/

namespace Sys2Proof.Machine

/-! ## Refusal reasons (Table PWR-4) -/

/-- A key handshake runs on a trunk port. -/
def State.handshake (s : State) : Bool := (List.finRange 4).any fun t => s.geode.agents[t].running

/-- A host is attached on UP, a device on a downstream port, or a PD contract holds. -/
def State.usbAttached (s : State) : Bool :=
  s.fld Reg.USB_STATUS 1 0 != 0 || s.usb.conn != 0 || (List.finRange 3).any fun k => s.pd[k].contract.isSome

/-- The reason a block refuses for, as far as State shows it; 0 where it has none (Table PWR-4). A block that is
already stopped agrees (R380). -/
def State.refusal (s : State) (block : Nat) : Nat :=
  let layoverStop := s.pwr.fromLayover
  if block = 1 then (if s.pwr.target = 3 && s.usbAttached then 1 else 0)
  else if block = 2 then
    if layoverStop then 0
    else if s.handshake || s.geode.running.isSome then 2
    else if (List.finRange 16).any (fun r => s.eng.roles[r].vacant || s.eng.roles[r].startHead.isSome) || !s.eng.takeovers.isEmpty then 3
    else 0
  else if block = 4 then
    if layoverStop then 0
    else if s.echo.merge.isSome then 4
    else if (List.finRange 32).any s.loopActive then 5
    else 0
  else if block = 5 then (if !layoverStop && s.cav.bistRun then 6 else 0)
  else if block = 6 then (if s.bit Reg.SUMP_TRAIN 0 then 7 else 0)
  else if block = 7 then
    if s.pwr.superMoved then 9
    else if s.boot.flashOp.isSome then 10
    else 0
  else 0

/-- Whether a reason belongs to a block (Table PWR-4). SPARE and CORRECTION can also come from work that State does
not show (a chamber being mapped, a correction being written back). -/
def State.mayRefuse (s : State) (block reason : Nat) : Bool :=
  (reason != 0 && s.refusal block == reason) || (block == 5 && reason == 6 && !s.pwr.fromLayover) ||
    (block == 6 && reason == 8 && s.sumpReady)

/-! ## Restarts (Table PWR-3) -/

/-- A block restarts, as far as its restart begins at once. -/
def State.restartBlock (s : State) (block : Nat) : State :=
  if block = 1 then (if s.pwr.target = 3 then { s with usb := { s.usb with suspended := false, portSusp := 0 } } else s)
  else if block = 2 then s.freeEngines
  else if block = 3 then s.reopenAdmission
  else if block = 4 then s.lanesOn
  else if block = 5 then s.cavernOn
  else if block = 6 then s.sumpOn
  else s

/-- No entry is under way; whether it stemmed from the ask stays for `noteRetry`. -/
def State.entryOver (s : State) : State :=
  { s with pwr := { s.pwr with target := 0, step := 0, ap := 0, asked := none, agreed := [], rollback := [] } }

/-- A request of the ask (`stems`) has been refused, or its entry abandoned or refused: it is repeated RETRY seconds later, up to TRIES
requests in all (R378). -/
def State.noteRetry (s : State) (stems : Bool) : State :=
  let due := stems && s.pwr.askMaster.isSome && decide (0 < s.pwr.askLeft) && s.fld Reg.PWR_CFG 15 8 != 0
  { s with pwr := { s.pwr with retryDue := s.pwr.retryDue || due, entryAsk := false } }

/-- A refused request of the ask, which leaves the entry under way as it is. -/
def State.retryRefused (s : State) (stems : Bool) : State :=
  let s1 := s.noteRetry stems
  { s1 with pwr := { s1.pwr with entryAsk := s.pwr.entryAsk } }

/-- The rollback ends: PWR_STATE shows ACTIVE and the events latched are cleared (R383). -/
def State.rollbackEnd (s : State) : State :=
  let s1 := s.entryOver
  ({ s1 with pwr := { s1.pwr with state := .active, latch := 0, fromLayover := false } } : State).noteRetry s.pwr.entryAsk

/-- The restarts go on: the next agreed block restarts once the one before it has finished (R383). -/
def State.rollbackNext (s : State) : State :=
  match s.pwr.rollback with
  | [] => s.rollbackEnd
  | b :: _ => s.restartBlock b

/-- A block refuses: counted and recorded, and the blocks that have agreed restart in reverse order (R383). Since the rollback ends in
ACTIVE, where every domain is on (Table PWR-1), that of an entry from LAYOVER moves the core to the PLL and restarts every block that
LAYOVER had stopped, and block 1; without the PLL's reference the hub is left in limited RUN (R397; log 45). -/
def State.refuse (s : State) (block reason : Nat) : State :=
  let s1 := (s.count (Reg.PWR_REFUSE_COUNT (block - 1))).setRegN Reg.PWR_LAST_REFUSER (block + 16 * reason + 256)
  let s2 := s1.count Reg.PWR_ROLLBACKS
  let s3 := if block = 2 then s2.freeEngines else s2
  let back (x : State) (l : List Nat) : State :=
    ({ x with pwr := { x.pwr with state := .rollback, asked := none, rollback := l, agreed := [] } } : State).rollbackNext
  if !s3.pwr.fromLayover then back s3 s3.pwr.agreed
  else if s3.bit Reg.GLB_REFCLK 5 then back (s3.setBit Reg.BOOT_STATUS 14 true) [6, 5, 4, 3, 2, 1]
  else
    let s4 := (back s3 []).enterLimited
    { s4 with boot := { s4.boot with limitedWake := true } }

/-- The entry is abandoned at an abort point that finds a local event: the agreed blocks restart in reverse order
within that head (R385). In one that began in LAYOVER only block 1 has changed; it goes back there, and the event
wakes the hub. -/
def State.abandon (s : State) (ap : Nat) : State :=
  let s1 := (s.count Reg.PWR_ABANDON_COUNT).setRegN Reg.PWR_LAST_ABANDON (ap + 8 * s.pwr.latch.toNat + 1024)
  if s1.pwr.fromLayover then
    let s2 := (s1.over (s1.pwr.agreed.filter (· == 1)) State.restartBlock).entryOver
    (({ s2 with pwr := { s2.pwr with fromLayover := false, state := .layover } } : State).noteRetry s.pwr.entryAsk).replayLatch
  else
    let open' := if s1.pwr.asked = some 3 then s1.reopenAdmission else s1
    let s2 := (open'.over s1.pwr.agreed State.restartBlock).entryOver
    ({ s2 with pwr := { s2.pwr with state := .active, latch := 0 } } : State).noteRetry s.pwr.entryAsk

/-! ## Agreement (Table PWR-3) -/

/-- LAYOVER entry is complete: the beat stops and the timing state is FREE; the core runs on the slow clock; events
latched are replayed (R382). The twin source table is emptied (R225). -/
def State.layoverComplete (s : State) : State :=
  let s1 := s.entryOver.offPll
  let s2 : State := { s1 with
    pwr := { s1.pwr with state := .layover, entryAsk := false }
    boot := { s1.boot with limitedWake := false }
    beat := { s1.beat with timing := .free, timingPort := none }
    acc := { s1.acc with unlock := Vector.replicate 34 none }
    twin := [] }
  ((s2.count Reg.PWR_ENTER_LAYOVER).setBit Reg.GLB_MODE 3 false).replayLatch

/-- What a block does on agreeing (Table PWR-3). -/
def State.agreeBlock (s : State) (block : Nat) : State :=
  let dormant := s.pwr.target = 3
  if block = 1 then
    if dormant then
      ({ s with usb := { s.usb with suspended := true, portSusp := 0xF, replies := [] } } : State).setFld Reg.USB_MF_SESSION 1 0 0
    else s
  else if block = 2 then { s with eng := { s.eng with halting := true } }
  else if block = 4 then (if s.pwr.fromLayover then s else s.lanesOff)
  else if block = 5 then (if s.pwr.fromLayover then s else s.cavernOff)
  else if block = 6 then
    if dormant then ({ s with pwr := { s.pwr with ddrOn := false } } : State).untrain.setBit Reg.SUMP_STATUS 3 false
    else ({ s.sumpSleep with pwr := { s.sumpSleep.pwr with ddrOn := false } } : State)
  else if block = 7 then
    if dormant then
      let halt (c : Column) : Column := { c with
        state := if c.state = .failed then .failed else .reset
        ready := false, outstanding := none, late := false, lines := [] }
      { s with
        eng := { s.eng with columns := vall s.eng.columns halt }
        twin := []
        pwr := { s.pwr with saving := true } }
    else s.layoverComplete
  else s

/-- A block agrees. -/
def State.agree (s : State) (block : Nat) : State :=
  ({ s with pwr := { s.pwr with asked := none, agreed := block :: s.pwr.agreed } } : State).agreeBlock block

/-! ## The entry at step 7 of each head (R379, R381, R385) -/

/-- A block is asked. Asked engines stop being released at step 8 of this head, and an asked scheduler closes first
ingress (R380, R381). In an entry from LAYOVER the blocks already stopped agree at once. -/
def State.askBlock (s : State) (block : Nat) : State :=
  let s1 : State := { s with pwr := { s.pwr with asked := some block, askHead := s.heads, step := block } }
  if s1.pwr.fromLayover && decide (2 ≤ block) && decide (block ≤ 5) then s1.agree block
  else if block = 2 && s1.refusal 2 == 0 then { s1 with eng := { s1.eng with halting := true } }
  else if block = 3 then { s1 with pwr := { s1.pwr with admitClosed := true, drainHead := s1.heads } }
  else s1

/-- An abort point is checked before the block after it is asked: a latched local event abandons the entry. -/
def State.abortPoint (s : State) (ap : Nat) (next : State → State) : State :=
  let s1 : State := { s with pwr := { s.pwr with ap := ap } }
  if s1.pwr.latch &&& 0x0F = 0 then next s1 else s1.abandon ap

/-- Every queue of the hub holds no frame, resident or spilled. -/
def State.queuesEmpty (s : State) : Bool := (List.finRange 168).all fun q => s.cav.queues[q].refs.isEmpty

/-- The scheduler agrees: at a head after the one at which it was asked, with every queue empty or DRAIN heads past. -/
def State.drained (s : State) : Bool :=
  decide (s.pwr.drainHead < s.heads) && (s.queuesEmpty || decide (s.pwr.drainHead + s.fld Reg.PWR_CFG 7 0 ≤ s.heads))

/-- Step 7 for an entry under way; `s.heads` counts the heads, or in LAYOVER the rest ticks that stand in for them. -/
def State.entryHead (s : State) : State :=
  match s.pwr.asked with
  | some 3 =>
    if s.drained then (s.abortPoint 4 fun s => s.agree 3) else s.abortPoint 4 id
  | some b => if s.pwr.askHead < s.heads || s.pwr.fromLayover then s.refuse b 15 else s
  | none =>
    match s.pwr.agreed with
    | [] => s.abortPoint 1 fun s => s.askBlock 1
    | 1 :: _ => s.abortPoint 2 fun s => s.askBlock 2
    | 2 :: _ => s.abortPoint 3 fun s => s.askBlock 3
    | 3 :: _ => s.abortPoint 5 fun s => s.askBlock 4
    | b :: _ => if b < 7 then s.askBlock (b + 1) else s

/-! ## Requests (R377) -/

/-- PWR_RESULT of a master. -/
def State.pwrResult (s : State) (m : Master) (code : Nat) : State := s.setRegN (pmKey m Reg.PWR_RESULT) code

/-- The outcome of a request, Table PWR-9; the refusals are tried in the order of R377. -/
def State.requestCode (s : State) (m : Master) (target : Nat) : Nat :=
  let at' : Nat := if s.pwr.state == .layover then 2 else 1
  match s.supervisor with
  | none => 3
  | some sup =>
    if sup ≠ m then 4
    else if s.mode ≠ .run then 2
    else if !(s.pwr.state == .active || s.pwr.state == .layover) || s.pwr.target ≠ 0 then 6
    else if target = at' then 5
    else 1

/-- The request of PWR_REQ is evaluated: at step 7 of a head, or at a rest tick (R377). An accepted entry asks its
first block at once. -/
def State.evaluateRequest (s : State) : State :=
  match s.pwr.reqBy with
  | none => s
  | some (m, t) =>
    let code := s.requestCode m t.toNat
    let s1 := (({ s with pwr := { s.pwr with reqBy := none } } : State).setReg Reg.PWR_REQ 0).pwrResult m code
    if code ≠ 1 then ({ s1 with pwr := { s1.pwr with reqAsk := false } } : State).retryRefused s.pwr.reqAsk
    else if t = 1 then ({ s1 with pwr := { s1.pwr with reqAsk := false } } : State).wakeLayover 0
    else
      let lay := s1.pwr.state == .layover
      { s1 with pwr := { s1.pwr with
          state := if lay then .layover else .entering
          target := t
          fromLayover := lay
          superMoved := false
          reqAsk := false
          entryAsk := s.pwr.reqAsk
          agreed := [], asked := none, latch := 0, retryDue := false } }

/-- Step 7 of a head: the pending request, then the entry under way (R26, R379). -/
def State.powerHead (s : State) : State :=
  let s1 := s.evaluateRequest
  if s1.pwr.state == .entering || s1.pwr.fromLayover then
    (if s1.pwr.state == .rollback then s1 else s1.entryHead)
  else s1

/-- PWR_REQ written: TARGET 0 has no effect; any other stands until its evaluation (Table PWR-9). -/
def State.writeRequest (s : State) (m : Master) (target : Nat) : State :=
  if target % 4 = 0 then s
  else
    ({ s with pwr := { s.pwr with reqBy := some (m, BitVec.ofNat 2 target), reqAsk := false } } : State).setRegN Reg.PWR_REQ
      (2 ^ 31 + target % 4)

/-! ## Asks (R378) -/

/-- A write to PWR_ASK withdraws the earlier ask and restarts the count of requests. -/
def State.writeAsk (s : State) (m : Master) (target : Nat) : State :=
  let left := max 1 (s.fld Reg.PWR_CFG 19 16)
  { s with pwr := { s.pwr with
      askMaster := if target % 4 = 0 then none else some m
      askLeft := if target % 4 = 0 then 0 else left
      retryDue := false, askSent := false, reqAsk := false, entryAsk := false } }

/-- The supervisor writes the asked target to PWR_REQ. -/
def State.issueAsk (s : State) : State :=
  match s.supervisor with
  | none => s
  | some m =>
    let s1 := ({ s with pwr := { s.pwr with askLeft := s.pwr.askLeft - 1, retryDue := false, askSent := true } } : State).writeRequest m
      (s.fld Reg.PWR_ASK 1 0)
    { s1 with pwr := { s1.pwr with reqAsk := true } }

end Sys2Proof.Machine
end

