-- ==== Sys2Proof/Machine/AvsOps.lean ====
section
/-! DEFINITION. Machine/AvsOps.lean: the core voltage (R396-R400). -/

namespace Sys2Proof.Machine

/-- VOUT, the last acknowledged voltage, 0 before the first (Table PWR-12). -/
def State.vout (s : State) : Nat := s.fld Reg.AVS_STATUS 9 0

/-- The voltage of the next step: 800 mV while none is acknowledged, else 5 mV toward the target (R396, R399). -/
def State.nextVolt (s : State) : Nat :=
  let v := s.vout
  let t := s.fld Reg.AVS_STATUS 19 10
  if v = 0 then 800
  else if v < t then min t (v + 5)
  else max t (v - 5)

/-- The Voltage write of a step goes out. -/
def State.sendStep (s : State) : State :=
  let v := s.nextVolt
  ({ s with pwr := { s.pwr with avsFrom := v, avsRetries := 0 } } : State).sendVoltage v

/-- Stepping is under way: a Voltage write awaits its acknowledgement. -/
def State.stepping (s : State) : Bool := s.bit Reg.AVS_STATUS 20

/-- A write of AVS_TARGET starts stepping toward the clamped target; a step under way ends first (R399). -/
def State.startStepping (s : State) : State :=
  let t := s.avsClamp (s.fld Reg.AVS_TARGET 9 0)
  let s1 := s.setFld Reg.AVS_STATUS 19 10 t
  if s.stepping || s1.vout = t then s1 else (s1.setBit Reg.AVS_STATUS 20 true).sendStep

/-- Before the clock switch the core is still on IFO in START, with the Columns released (R396). -/
def State.beforeSwitch (s : State) : Bool :=
  s.mode == .start && !s.bit Reg.BOOT_STATUS 14 && decide (4 ≤ s.fld Reg.BOOT_STATUS 2 0) && s.boot.pendingMode.isNone

/-- Column 0 has written AVS_TARGET, for the clock switch where that is to come: in START stage 5 has begun (Table BOT-9, R396). -/
def State.writeTarget (s : State) : State :=
  let s1 : State := { s with pwr := { s.pwr with avsSet := true } }
  (if s.beforeSwitch then s1.setStage 5 else s1).startStepping

/-- Limited RUN is due, or follows at once in a wake from LAYOVER, whose memories are still off (R396, R397). -/
def State.goLimited (s : State) : State :=
  if s.beforeSwitch then (s.setStage 5).pendMode .run
  else if s.layoverSwitch then
    ({ s with
        pwr := { s.pwr with state := .active }
        boot := { s.boot with limitedWake := true } } : State).enterLimited
  else s

/-- A step fails: the controller stops at the last acknowledged value, logs, counts and asserts FAULT_N (R399). Before
the clock switch the hub stays on IFO in limited RUN (R396). -/
def State.stepFailed (s : State) : State :=
  let s1 := ((s.setBit Reg.AVS_STATUS 20 false).setBit Reg.AVS_STATUS 21 true).count Reg.AVS_NACK
  let s2 := s1.logBytes 0x17 0x01 (leBytes 2 s.vout ++ leBytes 2 (s.fld Reg.AVS_STATUS 19 10))
  (s2.raiseFault .avsFailed).goLimited

/-- A step is acknowledged: VOUT takes it, FAIL falls, and stepping goes on until the target (R399). -/
def State.stepDone (s : State) : State :=
  let s1 := (s.setFld Reg.AVS_STATUS 9 0 s.pwr.avsFrom).count Reg.AVS_STEPS
  let s2 := (s1.setBit Reg.AVS_STATUS 21 false).dropFault .avsFailed
  if s2.vout = s2.fld Reg.AVS_STATUS 19 10 then s2.setBit Reg.AVS_STATUS 20 false else s2.sendStep

/-- v_proc of R400, from PROC_CODE. -/
def State.vProc (s : State) : Nat := 720 + 5 * ((255 - s.fld Reg.AVS_PROC 7 0) / 8)

/-- HEADROOM, VMAX less the target in force (R400). -/
def State.headroom (s : State) : Nat := s.avsHigh - s.fld Reg.AVS_STATUS 19 10

/-- The evaluation of R400: a margin below MARGIN_LO in each of the last 16 evaluations raises AVS_AGE where VMAX allows
it; then the target is written. -/
def State.avsEvaluate (s : State) : State :=
  let low := decide (s.fld Reg.AVS_MARGIN 11 0 < s.fld Reg.AVS_CFG2 7 0)
  let n := if low then min 16 (s.pwr.lowCount + 1) else 0
  let s1 : State := { s with pwr := { s.pwr with lowCount := n, avsHead := s.heads } }
  let age := s1.fld Reg.AVS_AGE 7 0
  let s2 := if n = 16 ∧ s1.vProc + 5 * (age + 1) ≤ s1.avsHigh then
      ((s1.setFld Reg.AVS_AGE 7 0 (age + 1)).count Reg.AVS_RAISES).logBytes 0x17 0x02
        (leBytes 1 (age + 1) ++ leBytes 2 (s1.fld Reg.AVS_MARGIN 11 0))
    else s1
  let t := s2.avsClamp (s2.vProc + 5 * s2.fld Reg.AVS_AGE 7 0)
  (s2.setFld Reg.AVS_TARGET 9 0 t).writeTarget

/-! ## The restore (R389, R390) -/

/-- One word of the save set written back, its saved bits: a word of other fields keeps those (R389); the slot is a field of TOPO_STATUS,
which leaves FORMING as it is (R119, R124). Its checked set is evaluated as at every write (R298), and the write of AVS_TARGET starts
stepping (Table PWR-12). -/
def State.restoreWord (s : State) (x : Nat × Word) : State :=
  if x.1 = Reg.TOPO_STATUS then s.setFld Reg.TOPO_STATUS 6 0 x.2.toNat
  else
    let m := savedBits x.1
    let s1 := (s.setReg x.1 ((s.reg x.1 &&& ~~~m) ||| (x.2 &&& m))).evaluate x.1
    if x.1 = Reg.AVS_TARGET then s1.startStepping else s1

/-- The restore engine writes the save set back with whole words (R390). -/
def State.restoreSet (s : State) (v : Save) : State := (s.over v.regs State.restoreWord).rulesFromRegs

end Sys2Proof.Machine
end

