-- ==== Sys2Proof/Machine/LogOps.lean ====
section
/-! DEFINITION. Machine/LogOps.lean: the records of the log vault and how masters read and add them (R434-R436). -/

namespace Sys2Proof.Machine

/-- The first 30 bytes of an event record as it stands in the vault, Table MON-3. -/
def EventRecord.body (r : EventRecord) : List Byte :=
  leBytes 4 r.stamp.toNat ++ leBytes 6 r.beat.toNat ++ [r.src, r.code] ++ leBytes 2 r.seq.toNat ++ [r.flags, 5] ++ fixLen 12 r.data ++ [0, 0]

/-- An event record as it is written, with its CRC. -/
def EventRecord.written (r : EventRecord) : EventRecord := { r with crc := crc16 r.body }

/-- A record of the vault as it reads: its 30 bytes and its CRC, or empty where the CRC fails (R89, R434). -/
def recordBytes (body : List Byte) (crc : BitVec 16) : List Byte :=
  if crc = crc16 body then body ++ leBytes 2 crc.toNat else List.replicate 32 0

/-- The 32 bytes of the record at an offset of 32-byte records: the ring below 1,536, then the trend area. An index of the
ring that nothing has written is empty. -/
def State.vaultRecord (s : State) (i : Nat) : List Byte :=
  if i < 1536 then
    match s.log.ring.find? (fun x => x.1 == i) with
    | some x => recordBytes x.2.body x.2.crc
    | none => List.replicate 32 0
  else
    let r := s.storedTrend ((i - 1536) / 16) ((i - 1536) % 16)
    recordBytes r.body r.crc

/-- LOG_RD_ADDR has been written: the record is copied into the master's LOG_RD registers (R436). -/
def State.copyRecord (s : State) (m : Master) : State :=
  let bs := s.vaultRecord (s.fld (pmKey m Reg.LOG_RD_ADDR) 15 5)
  s.over (List.range 8) fun s i => s.setRegN (pmKey m (Reg.LOG_RD i)) (leNat ((bs.drop (4 * i)).take 4))

/-- LOG_PUT_CMD has been written: the master's record is queued with SRC 0xFF (R436). -/
def State.putRecord (s : State) (m : Master) : State :=
  let data := (List.range 3).flatMap fun i => leBytes 4 (s.reg (pmKey m (Reg.LOG_PUT1 i))).toNat
  let s1 := s.logBytes 0xFF (s.fld (pmKey m Reg.LOG_PUT0) 7 0) data
  if s.log.pending.length < s1.log.pending.length then { s1 with log := { s1.log with putBy := s1.log.putBy ++ [m] } }
  else s1

/-- The writer writes the oldest pending record at HEAD and advances it; the oldest record of a full ring is overwritten
(R434). -/
def State.writeRecord (s : State) : State :=
  match s.log.pending with
  | [] => s
  | r :: rest =>
    let head := s.fld Reg.LOG_STATUS 10 0
    let n := s.fld Reg.LOG_STATUS 21 11
    let full := decide (1536 ≤ n)
    let seq := s.fld Reg.LOG_SEQ 15 0
    let w := ({ r with seq := BitVec.ofNat 16 seq } : EventRecord).written
    let s1 : State := { s with
      log := { s.log with
        ring := (head, w) :: s.log.ring.filter (fun x => x.1 != head)
        pending := rest
        putBy := if r.src = 0xFF then s.log.putBy.tail else s.log.putBy }
      usb := { s.usb with logSince := true } }
    let s2 := ((s1.setFld Reg.LOG_STATUS 10 0 ((head + 1) % 1536)).setFld Reg.LOG_STATUS 21 11 (min 1536 (n + 1)))
    let s3 := if full then s2.setBit Reg.LOG_STATUS 22 true else s2
    ((s3.setRegN Reg.LOG_SEQ ((seq + 1) % 65536)).count Reg.LOG_RECORDS).decideWake

end Sys2Proof.Machine
end

