-- ==== Sys2Proof/Machine/Protect.lean ====
section
/-! DEFINITION. Machine/Protect.lean: the access-protection unit (chapter "Access protection"): which master may do what at
which 16-byte granule, the fault FIFO, and the changes of the rules. -/

namespace Sys2Proof.Machine

open Sys2Proof

/-! ## Masters -/

/-- Whether a master ID names a master (Table ACP-1). -/
def Master.exists (m : Master) : Bool := decide (m.val ≤ 9) || decide (16 ≤ m.val)

/-- The privilege of a master (R300). -/
def Master.privileged (m : Master) : Bool :=
  decide (m.val ≤ 2) || m.val == 4 || m.val == 8 || m.val == 9 || decide (16 ≤ m.val)

/-- The boot sequencer and the restore engine are not checked (R302). -/
def Master.checked (m : Master) : Bool := !(m.val == 4 || m.val == 9)

/-- The engine a master ID names. -/
def Master.engine (m : Master) : Option EngineIx := if h : 16 ≤ m.val then some ⟨m.val - 16, by omega⟩ else none

/-- The identity a master is checked under: an engine's is that of the role it holds (R301). -/
def State.checkId (s : State) (m : Master) : Nat :=
  match Master.engine m with
  | none => m.val
  | some e => match s.eng.engines[e].role with
    | some r => 16 + r.val
    | none => 0x3F

/-- An engine that holds no role makes no access that reaches the unit (R301). -/
def State.roleless (s : State) (m : Master) : Bool :=
  match Master.engine m with
  | none => false
  | some e => s.eng.engines[e].role.isNone

/-! ## Rules -/

/-- A region register word under the rules in force (R315). -/
def State.rule (s : State) (a : Nat) : Nat := (Store.get resetWord s.acc.rules a).toNat

/-- The number of a region's first granule. -/
def State.rgnStart (s : State) (n : Nat) : Nat :=
  (s.rule (Reg.MPU_RGN_START_LO n) + 2 ^ 32 * (s.rule (Reg.MPU_RGN_START_HI n) % 256)) / 16

/-- The number of a region's last granule. -/
def State.rgnEnd (s : State) (n : Nat) : Nat :=
  (s.rule (Reg.MPU_RGN_END_LO n) + 2 ^ 32 * (s.rule (Reg.MPU_RGN_END_HI n) % 256)) / 16

/-- Whether a region matches a granule for a checking identity (R305, R306). -/
def State.rgnMatches (s : State) (n id g : Nat) : Bool :=
  (s.rule (Reg.MPU_RGN_ATTR n)).testBit 0 && decide (s.rgnStart n ≤ g) && decide (g ≤ s.rgnEnd n) &&
    (s.rule (Reg.MPU_RGN_MASK n)).testBit id && decide (id < 32 ∧ ¬ (10 ≤ id ∧ id < 16))

/-- The lowest region that matches (R306). -/
def State.rgnFor (s : State) (id g : Nat) : Option Nat := (List.range 64).find? fun n => s.rgnMatches n id g

/-- What decides one granule: the deciding region (0x7F none), the cause of Table ACP-3 (0 permitted) and the delivered
attributes. -/
structure Granule where
  region : Nat
  cause : Nat
  cache : Bool
  order : Nat
deriving DecidableEq, Repr

/-- A row of a fixed map: first and last address, permissions, CACHE and ORDER. -/
structure MapRow where
  lo : Nat
  hi : Nat
  r : Bool
  w : Bool
  x : Bool
  cache : Bool
  order : Nat
deriving DecidableEq, Repr

/-- Table ACP-2. -/
def defaultMap : List MapRow :=
  [ { lo := 0, hi := 0xFFFFFF, r := true, w := true, x := false, cache := false, order := 2 },
    { lo := 0x1000000, hi := 0x3FFFFFF, r := true, w := true, x := false, cache := false, order := 2 },
    { lo := 0x100000000, hi := 0x11FFFFFFF, r := true, w := true, x := false, cache := false, order := 2 },
    { lo := 0x200000000, hi := 0x203FFFFFF, r := true, w := true, x := false, cache := false, order := 1 },
    { lo := 0x300000000, hi := 0x30003FFFF, r := true, w := true, x := true, cache := false, order := 1 },
    { lo := 0x300100000, hi := 0x30013FFFF, r := true, w := true, x := true, cache := false, order := 1 },
    { lo := 0x300200000, hi := 0x30023FFFF, r := true, w := true, x := true, cache := false, order := 1 },
    { lo := 0x300300000, hi := 0x30033FFFF, r := true, w := true, x := true, cache := false, order := 1 },
    { lo := 0x1000000000, hi := 0x10BFFFFFFF, r := true, w := false, x := false, cache := false, order := 0 },
    { lo := 0x10C0000000, hi := 0x10FFFFFFFF, r := true, w := true, x := true, cache := true, order := 0 },
    { lo := 0x1100000000, hi := 0x17FFFFFFFF, r := true, w := true, x := false, cache := false, order := 0 } ]

/-- Whether a row permits an access kind. -/
def MapRow.permits (r : MapRow) : AccessKind → Bool
  | .read => r.r
  | .write => r.w
  | .fetch => r.x

/-- The row of a map that lists a granule. -/
def mapFind (l : List MapRow) (g : Nat) : Option MapRow := l.find? fun r => decide (r.lo ≤ 16 * g) && decide (16 * g ≤ r.hi)

/-- A granule that no region matches (R308). -/
def unmatched (priv : Bool) (kind : AccessKind) (g : Nat) : Granule :=
  if !priv then { region := 0x7F, cause := 3, cache := false, order := 0 }
  else match mapFind defaultMap g with
    | none => { region := 0x7F, cause := 4, cache := false, order := 0 }
    | some r => { region := 0x7F, cause := if r.permits kind then 0 else 1, cache := r.cache, order := r.order }

/-- The bit of MPU_RGN_ATTR that permits a kind (Table ACP-8). -/
def kindBit : AccessKind → Nat
  | .read => 1
  | .write => 2
  | .fetch => 3

/-- A granule that a region decides (R307). -/
def State.byRegion (s : State) (n : Nat) (priv : Bool) (kind : AccessKind) : Granule :=
  let a := s.rule (Reg.MPU_RGN_ATTR n)
  { region := n
    cause := if a.testBit 4 && !priv then 2 else if a.testBit (kindBit kind) then 0 else 1
    cache := a.testBit 5
    order := min 2 (nbits a 7 6) }

/-- The decision for one granule of an access (R304-R308). -/
def State.granule (s : State) (m : Master) (kind : AccessKind) (g : Nat) : Granule :=
  match s.rgnFor (s.checkId m) g with
  | some n => s.byRegion n (Master.privileged m) kind
  | none => unmatched (Master.privileged m) kind g

/-! ## The service map (R320, Table ACP-4) -/

/-- What the service map grants at a register address: read, write. -/
def serviceGrant (a : Nat) : Option (Bool × Bool) :=
  if a < 0x10000 then some (true, decide (a / 4 = Reg.GLB_UNLOCK / 4))
  else if 0x140000 ≤ a ∧ a < 0x150000 then
    some (true, decide (a / 4 = Reg.SEC_FUSE_CMD / 4) || (decide (Reg.SEC_FUSE_DATA 0 ≤ a) && decide (a < Reg.SEC_FUSE_DATA 0 + 48)))
  else if 0x150000 ≤ a ∧ a < 0x160000 then some (true, true)
  else if 0x160000 ≤ a ∧ a < 0x170000 then some (true, false)
  else if 0x180000 ≤ a ∧ a < 0x1A0000 then some (true, false)
  else if 0x1A0000 ≤ a ∧ a < 0x1D0000 then some (true, true)
  else none

/-- The decision of the service map for one word of an access. -/
def serviceWord (kind : AccessKind) (a : Nat) : Granule :=
  let cause := match serviceGrant a, kind with
    | none, _ => 3
    | some (r, _), .read => if r then 0 else 1
    | some (_, w), .write => if w then 0 else 1
    | some _, .fetch => 1
  { region := 0x7F, cause := cause, cache := false, order := 2 }

/-! ## The check of an access -/

/-- What the unit finds for an access: permitted or not, and what a fault record of it shows (R309, R310, R314). -/
structure Check where
  ok : Bool
  region : Nat
  cause : Nat
  straddle : Bool
  cache : Bool
  order : Nat
deriving DecidableEq, Repr

/-- The decisions of the granules of an access, put together (R309, R310). -/
def joinGranules (gs : List Granule) : Check :=
  let bad := gs.find? fun g => g.cause != 0
  { ok := bad.isNone
    region := (bad.map (·.region)).getD 0x7F
    cause := (bad.map (·.cause)).getD 0
    straddle := gs.any fun g => some g.region != (gs.head?.map (·.region))
    cache := gs.all (·.cache)
    order := gs.foldl (fun a g => max a g.order) 0 }

/-- The granules of an access, from the one of its first byte to the one of its last (R309). -/
def granulesOf (addr size : Nat) : List Nat := (List.range ((addr + size - 1) / 16 - addr / 16 + 1)).map fun i => addr / 16 + i

/-- The word addresses of an access. -/
def wordsOf (addr size : Nat) : List Nat := (List.range ((addr + size - 1) / 4 - addr / 4 + 1)).map fun i => 4 * (addr / 4 + i)

/-- Whether an address lies in the MPU block or an alias of it (R303). -/
def inMpuBlock (a : Nat) : Bool :=
  (decide (0x120000 ≤ a) && decide (a < 0x130000)) || (decide (0x1120000 ≤ a) && decide (a < 0x1130000)) ||
  (decide (0x2120000 ≤ a) && decide (a < 0x2130000)) || (decide (0x3120000 ≤ a) && decide (a < 0x3130000)) ||
  (decide (0x102400000 ≤ a) && decide (a < 0x102600000))

/-- A refusal decided before any region is consulted (causes 5 and 6): every granule is decided by none, so it does not straddle (R310). -/
def refusedEarly (cause : Nat) : Check :=
  { ok := false, region := 0x7F, cause := cause, straddle := false, cache := false, order := 0 }

/-- Masters 0x05 and 0x06 are checked against the service map in RECOVERY and SERVICE (R320). -/
def State.serviceChecked (s : State) (m : Master) : Bool :=
  (m.val == 5 || m.val == 6) && (s.mode == .recovery || s.mode == .service)

/-- The check of an access by a checked master (R300-R310, R320). -/
def State.checkAccess (s : State) (m : Master) (kind : AccessKind) (addr size : Nat) : Check :=
  let gs := granulesOf addr size
  if !Master.checked m then { ok := true, region := 0x7F, cause := 0, straddle := false, cache := false, order := 2 }
  else if m.val == 8 && !s.inDebug then refusedEarly 5
  else if !Master.privileged m && gs.any (fun g => inMpuBlock (16 * g)) then refusedEarly 6
  else if s.serviceChecked m then joinGranules ((wordsOf addr size).map (serviceWord kind))
  else joinGranules (gs.map (s.granule m kind))

/-! ## Faults -/

/-- The code of a kind in a fault record (Table ACP-7). -/
def kindCode : AccessKind → BitVec 2
  | .read => 0
  | .write => 1
  | .fetch => 2

/-- The fault record of a refused access (R314). -/
def State.faultOf (s : State) (m : Master) (kind : AccessKind) (addr size : Nat) (c : Check) : MpuFault :=
  { addr := BitVec.ofNat 40 addr, kind := kindCode kind, size := BitVec.ofNat 6 (size - 1), master := BitVec.ofNat 6 m.val,
    priv := Master.privileged m, region := BitVec.ofNat 7 c.region, straddle := c.straddle, cause := BitVec.ofNat 3 c.cause,
    beat := s.beatNum.setWidth 16 }

/-- A record pushed into the fault FIFO of 4 (R279, R314). -/
def State.pushFault (s : State) (f : MpuFault) : State :=
  let s1 := s.count Reg.MPU_FAULTS
  if s1.acc.faults.length < 4 then { s1 with acc := { s1.acc with faults := s1.acc.faults ++ [f] } }
  else s1.count Reg.MPU_FAULT_OVF

/-- The oldest record popped; nothing where the FIFO is empty (R279). -/
def State.popFault (s : State) : State := { s with acc := { s.acc with faults := s.acc.faults.drop 1 } }

/-! ## Changes of the rules -/

/-- A write to a region register or MPU_CFG is one rule change, which waits to take effect (R315). -/
def State.changeRule (s : State) (a : Nat) (w : Word) : State :=
  { s with acc := { s.acc with changes := s.acc.changes ++ [(a, w)] } }

/-- The oldest change takes effect, and every barrier waits for one change less (R315, R317). -/
def State.ruleTakesEffect (s : State) : State :=
  match s.acc.changes with
  | [] => s
  | (a, w) :: rest =>
    { s with acc := { s.acc with
        rules := Store.set resetWord a w s.acc.rules
        changes := rest
        barrier := vall s.acc.barrier fun b => b.map (· - 1) } }

/-- The first changes take effect, up to a number. -/
def State.rulesTakeEffect : Nat → State → State
  | 0, s => s
  | n + 1, s => State.rulesTakeEffect n s.ruleTakesEffect

/-- A barrier of the writing master starts: it waits for every change accepted so far (R317). -/
def State.startBarrier (s : State) (m : Master) : State :=
  { s with acc := { s.acc with barrier := vset s.acc.barrier m (some s.acc.changes.length) } }

/-- A barrier ends: the changes it waits for are in force (R317). -/
def State.endBarrier (s : State) (m : Master) : State :=
  match s.acc.barrier[m] with
  | none => s
  | some n =>
    let s1 := State.rulesTakeEffect n s
    { s1 with acc := { s1.acc with barrier := vset s1.acc.barrier m none } }

/-- Whether an address is a region register or MPU_CFG, which LOCK and R315 speak of. -/
def isRegion (a : Nat) : Bool := decide (Reg.MPU_RGN_START_LO 0 ≤ a) && decide (a < Reg.MPU_RGN_START_LO 64)

/-- LOCK makes the rules ignore checked masters (R319). -/
def State.rulesLocked (s : State) (m : Master) (a : Nat) : Bool :=
  Master.checked m && s.bit Reg.MPU_CFG 0 && (isRegion a || a == Reg.MPU_CFG)

end Sys2Proof.Machine
end

