-- ==== Sys2Proof/Machine/UsbOps.lean ====
section
/-! DEFINITION. Machine/UsbOps.lean: the USB hub and maintenance function, and the Type-C and PD ports, as the rules of
chapter "USB hub, maintenance function and Power Delivery" share them. PD port 0 is UP, 1 and 2 are DN1 and DN2. -/

namespace Sys2Proof.Machine

/-! ## Modes (Table USB-6) -/

/-- The USB domain is on and the hub out of reset. -/
def State.usbUp (s : State) : Bool := s.coreOn && s.pwr.usbOn

/-- The hub may source VBUS on its downstream ports: from the first head of RUN on, never in RECOVERY or SERVICE (R404). -/
def State.dnPowered (s : State) : Bool := s.mode == .run || (s.mode == .test && s.beat.firstRun)

/-! ## The function's replies (R409) -/

/-- The speed of UP: 0 not connected, 1 full, 2 high, 3 SuperSpeed (Table USB-10). -/
def State.upSpeed (s : State) : Nat := s.fld Reg.USB_STATUS 1 0

/-- The hub connects on UP, at the fastest speed that the host and the hub share, SuperSpeed where it may; what was written to USB_CFG and
USB_VID_PID takes effect (R401, R402, R426). -/
def State.connectUp (s : State) (ss : Bool) : State :=
  let speed := min s.usb.host.toNat (if ss && s.bit Reg.USB_CFG 0 then 3 else 2)
  let s1 := (s.setFld Reg.USB_STATUS 1 0 speed).setFld Reg.USB_STATUS 3 2 0
  { s1 with usb := { s1.usb with mfOn := s1.mfAllowed && speed != 0, cfg := s1.reg Reg.USB_CFG, vidPid := s1.reg Reg.USB_VID_PID } }

/-- The function returns to the Default state (R411). -/
def State.usbDefault (s : State) : State :=
  { s with usb := { s.usb with
      configured := false, address := 0, rwEnabled := false, u1 := false, u2 := false, suspended := false
      signalled := false, replies := [], decided := false, nrdy := false, seqOut := 0, mfLink := 0 } }

/-- The host is gone from UP: the session closes and nothing is connected (R410). -/
def State.disconnectUp (s : State) : State :=
  let s1 := ((s.closeSession.usbDefault).setFld Reg.USB_STATUS 3 0 0).setBit Reg.USB_STATUS 20 false
  { s1 with usb := { s1.usb with mfOn := false, host := 0 } }

/-! ## VBUS and discharge (R417-R419) -/

/-- VBUS of a port measured at a nominal voltage in 10 mV; PD_VBUS shows it within 2 percent (Table USB-11). -/
def State.measureVbus (s : State) (k : PdPort) (v : Nat) : State :=
  let low := v - v / 50
  let w := low + s.free % (v / 50 * 2 + 1)
  if v = 0 then s.setReg (Reg.PD_VBUS k.val) 0 else s.drawn.setRegN (Reg.PD_VBUS k.val) (min 0xFFF w)

/-- The nominal voltage of a VSEL code, in 10 mV (R417). -/
def vselVolt (v : Nat) : Nat := if v = 1 then 900 else if v = 2 then 1500 else if v = 3 then 2000 else 500

/-- VBUS is removed and discharged (R418). -/
def State.removeVbus (s : State) (k : PdPort) : State :=
  s.modPd k fun p =>
    { p with
      vbusEn := false
      vsel := 0
      disch := p.vbusEn || p.disch
      transition := none }

/-- The contract of a port ends. -/
def State.endContract (s : State) (k : PdPort) : State := s.modPd k fun p => { p with contract := none, transition := none }

/-- The port leaves its partner. -/
def State.dropPartner (s : State) (k : PdPort) : State :=
  s.modPd k fun p =>
    { p with contract := none, asked := none, transition := none, partner := false, rev := 0, swap := false, cc2 := false, msgId := 0, pdoDue := false }

/-- What a port presents on its CC pins: Rd, Rp at a level coded as PD_PORT_CFG.RP, or nothing. -/
inductive CcPull where
  | rd
  | rp (level : BitVec 2)
  | off
deriving DecidableEq, Repr

/-- The CC pins of a port: UP presents Rd, and as source Rp at 1.5 A (R413, R421); DN1 and DN2 Rp at the level of PD_PORT_CFG.RP, 0b11 as
0b10, none in HELD or until the host powers the port again (R403, R414, R418, R419). While the core is off Bedrock presents Rd and Rp at
0.5 A (R415). -/
def State.ccPull (s : State) (k : PdPort) : CcPull :=
  let p := s.pd[k]
  if k.val = 0 then (if s.usbUp && p.source then .rp 1 else .rd)
  else if !s.usbUp then .rp 0
  else if p.rpOff || p.tc == .held then .off
  else .rp (BitVec.ofNat 2 (min 2 (s.fld (Reg.PD_PORT_CFG k.val) 2 1)))

/-- The level of Rp that the other end of an attached DN port sees. -/
def State.showRp (s : State) (k : PdPort) : State :=
  match s.ccPull k with
  | .rp l => s.emit (.ccRp k l)
  | _ => s

/-- The CC pins of UP or of a DN port show an attach while the USB domain is off: it runs again from Unattached once the domain is on
(R415). -/
def State.noteCc (s : State) (k : PdPort) (on : Bool) : State :=
  if s.usbUp || !s.pwr.vaux then s else s.modPd k fun p => { p with ccSeen := on }

/-- A detach of DN1 or DN2: a transition under way is abandoned, counted and logged; VBUS is removed and discharged;
the port is Unattached once it is (R414, R418). -/
def State.detachDn (s : State) (k : PdPort) : State :=
  let p := s.pd[k]
  let s1 := match p.transition with
    | some mv => (s.count (Reg.PD_XITION_ABORT k.val)).logBytes 0x19 0x01 (leBytes 1 k.val ++ leBytes 2 mv)
    | none => s
  let s2 := ((s1.removeVbus k).dropPartner k).modPd k fun p => { p with tc := .unattached }
  { s2 with usb := { s2.usb with conn := s2.usb.conn &&& ~~~ (BitVec.ofNat 4 (2 ^ (k.val - 1))) } }

/-- DN1 or DN2 applies vSafe5V after an attach (R414), where it may source (R404). -/
def State.applyVbus (s : State) (k : PdPort) : State :=
  (s.modPd k fun p => { p with vbusEn := true, vsel := 0, disch := false }).measureVbus k 500

/-- The PD port of a downstream port, where it is one. -/
def dnPort (n : DnPort) : Option PdPort := if h : n.val < 2 then some ⟨n.val + 1, by omega⟩ else none

/-- The PD port of DN1 or DN2. -/
def dnPd (n : DnPd) : PdPort := ⟨n.val + 1, by omega⟩

/-- The host powers a downstream port. -/
def State.hostPowers (s : State) (n : DnPort) : Bool := s.usb.portPower.getLsbD n.val

/-- OC_MODE in force: ganged (R403). -/
def State.ocGanged (s : State) : Bool := s.bit Reg.USB_STATUS 7

/-! ## PD messages (R416-R423) -/

/-- PD runs on the port: PD_EN, and the USB domain is on (R416). -/
def State.pdOn (s : State) (k : PdPort) : Bool := s.usbUp && s.bit (Reg.PD_PORT_CFG k.val) 0 && s.pd[k].tc == .attached

/-- A message from the partner is acknowledged with GoodCRC (R416, Table USB-12, PD_PARTNER and REV). -/
def State.heard (s : State) (k : PdPort) : State :=
  (s.modPd k fun p => { p with partner := true, rev := if p.rev = 0 then 2 else p.rev }).emit (.pdGoodCrc k)

/-- A PD message goes out, and the message ID counter advances (R416). -/
def State.sendPd (s : State) (k : PdPort) (o : Output) : State :=
  (s.modPd k fun p => { p with msgId := p.msgId + 1 }).emit o

/-- The message IDs and counters of a port restart, as Soft_Reset has it (R416). -/
def State.restartIds (s : State) (k : PdPort) : State := s.modPd k fun p => { p with msgId := 0 }

/-- BESL_DEEP in effect: a value below BESL_BASE acts as it (Table USB-9). -/
def UsbState.beslDeep (u : UsbState) : Nat := max (bitsOf u.cfg 7 4) (bitsOf u.cfg 11 8)

/-- What the hub and its maintenance function report of themselves (R402, R403, R405, R406, Tables USB-3, USB-9): five ports with port 5
non-removable in a compound device, and link power as USB_CFG stood at the attach. -/
def State.descriptor (s : State) (k : UsbDescriptorKind) : UsbDescriptor :=
  let u := s.usb
  let lpm := u.cfg.getLsbD 1
  let base : BitVec 4 := BitVec.ofNat 4 (bitsOf u.cfg 7 4)
  let deep : BitVec 4 := BitVec.ofNat 4 u.beslDeep
  let self := s.mode != .service
  match k with
  | .hub20 => .hub false 0x0210 u.vidPid 5 5 true self s.ocGanged
  | .hubSs => .hub true 0x0320 u.vidPid 5 5 true self s.ocGanged
  | .capability => .capability lpm (if lpm then base else 0) (if lpm then deep else 0) (u.cfg.getLsbD 2) 4 400
  | .function =>
    let ss := s.upSpeed == 3
    .function 0xFF 0 0 (if ss then 512 else 64) (if ss then 1024 else if s.upSpeed == 1 then 64 else 512) (if ss then 8 else 1)
      lpm (if lpm then base else 0) (if lpm then deep else 0)

/-- Column 2 holds its firmware and does not run: the hardware policy of Table USB-6 stands in for it, as in RECOVERY and SERVICE: PR_Swap
is rejected on UP, and DN1 and DN2 attach no partner and answer no request for power (R427; DEDUCED, log 115). -/
def State.hwPolicy (s : State) : Bool :=
  s.mode == .recovery || s.mode == .service ||
    (s.eng.columns[(2 : ColumnIx)].loaded && s.eng.columns[(2 : ColumnIx)].state != .running &&
      s.eng.columns[(2 : ColumnIx)].state != .restoring)

/-- Column 2 is restarting, or held: the hardware answers (R423). -/
def State.policyAway (s : State) : Bool :=
  !(s.mode == .recovery || s.mode == .service) && s.eng.columns[(2 : ColumnIx)].loaded &&
    s.eng.columns[(2 : ColumnIx)].state == .restoring

/-- A Not_Supported is sent and counted (R416). -/
def State.notSupported (s : State) (k : PdPort) : State :=
  (s.sendPd k (.pdNotSupported k)).count (Reg.PD_NOT_SUPP k.val)

/-- MAXCUR of a fixed supply of DN1 or DN2, with the limits of Table USB-11. -/
def State.maxCur (s : State) (k : PdPort) (i : Nat) : Nat :=
  let c := min 300 (s.fld (Reg.PD_SRC_PDO k.val i) 9 0)
  if i = 0 then max 50 c else c

/-- The fixed supplies that a DN port offers, in order (R417). -/
def State.dnOffer (s : State) (k : PdPort) : List FixedPdo :=
  ((List.range 4).filter fun i => i == 0 || s.maxCur k i != 0).map fun i =>
    { cur := BitVec.ofNat 10 (s.maxCur k i), volt := BitVec.ofNat 10 (vselVolt i / 5) }

/-- Source_Capabilities are sent. -/
def State.sendCaps (s : State) (k : PdPort) (pdos : List FixedPdo) : State :=
  (s.modPd k fun p => { p with lastCaps := pdos, pdoDue := false }).sendPd k (.pdSourceCaps k pdos)

/-- A PD_SRC_PDO register has changed: a port with a contract owes new Source_Capabilities (R417). -/
def State.notePdo (s : State) (k : PdPort) : State := s.modPd k fun p => { p with pdoDue := p.pdoDue || p.contract.isSome }

/-- The Source_Capabilities that DN1 and DN2 owe are sent by Column 2, or by none while it is away (R417, R423, R427). -/
def State.sendDueCaps (s : State) : State :=
  s.over ([1, 2] : List PdPort) fun s k =>
    if !s.pd[k].pdoDue || s.policyAway || s.hwPolicy then s
    else if s.pdOn k && s.pd[k].contract.isSome then s.sendCaps k (s.dnOffer k)
    else s.modPd k fun p => { p with pdoDue := false }

/-- 5 V at 1.5 A, what UP offers as a source (R421). -/
def upOffer : List FixedPdo := [{ cur := 150, volt := 100 }]

/-- PRS_ACCEPT. -/
def State.prsAccept (s : State) : Bool := s.bit Reg.PD_CFG 0

/-- The current UP asks for, in 10 mA: UP_SNK_CUR, or 1,500 mA in SERVICE (R420). -/
def State.upSnkCur (s : State) : Nat := if s.mode = .service then 150 else s.fld Reg.PD_CFG 10 1

/-- The supply at a position of a list of fixed supplies, counted from 1. -/
def pdoAt (l : List FixedPdo) (pos : BitVec 3) : Option FixedPdo := if pos = 0 then none else l[pos.toNat - 1]?

/-- A Hard Reset, sent or received: counted; any contract ends; a PR_Swap under way is aborted, with UP back to sink and
UFP (R422); a DN source removes and discharges VBUS and applies vSafe5V again. -/
def State.hardReset (s : State) (k : PdPort) : State :=
  let p := s.pd[k]
  let s1 := (((s.endContract k).restartIds k).modPd k fun p => { p with asked := none, pdoDue := false }).count (Reg.PD_HARD_RESET k.val)
  if k.val = 0 then
    let s2 := if p.swap then s1.count (Reg.PD_PRS_ABORT 0) else s1
    let s3 := if p.vbusEn then s2.removeVbus 0 else s2
    s3.modPd 0 fun p => { p with source := false, dfp := false, swap := false }
  else
    let s2 := s1.removeVbus k
    s2.modPd k fun p => { p with vsel := 0 }

end Sys2Proof.Machine
end

