-- ==== Sys2Proof/Machine/Usb.lean ====
section
/-! DEFINITION. Machine/Usb.lean: the meanings of the events of the USB hub, the maintenance function and the PD ports
(chapter "USB hub, maintenance function and Power Delivery"), but for the requests that access the address space. -/

namespace Sys2Proof.Machine

/-- An event of the USB domain acts while it is on. -/
def State.whenUsb (s : State) (f : State → State) : State := if s.usbUp then f s else s

/-! ## Type-C attach (R413-R415, R426) -/

/-- A port is free for an attach. -/
def PdState.detached (p : PdState) : Bool := p.tc == .unattached || p.tc == .attachWait

/-- An attach after its debounce is a wake event of both sources (Table PWR-6). -/
def State.attachWake (s : State) (settled : Bool) : State := if settled then (s.wakeBy 3).wakeBy 0 else s

/-- USB_UP_ATTACH (R413): Rp on UP is AttachWait.SNK, and after tCCDebounce Attached.SNK, with the orientation and the current that Rp
advertises; outside SERVICE the hub connects at once (R426). In LAYOVER and DORMANT it is a wake event, and in DORMANT it runs again after
the wake (R415). -/
def execUsbUpAttach (plug : UpPlug) (rp : BitVec 2) (s : State) : Out :=
  .next (
    if rp = 0 then s
    else
      ((s.whenUsb fun s =>
        if !s.pd[(0 : PdPort)].detached then s
        else if !plug.settled then s.modPd 0 fun p => { p with tc := .attachWait }
        else
          let s1 := s.modPd 0 fun p =>
            { p with tc := .attached, cc2 := plug.cc2, rpSeen := rp, source := false, dfp := false, deadBatt := false }
          let s2 := ({ s1 with usb := { s1.usb with host := plug.host } } : State).measureVbus 0 500
          if s.mode = .service then s2 else s2.connectUp true).noteCc 0 true).attachWake plug.settled)

/-- USB_UP_DETACH (R413): UP is Unattached.SNK; the session closes (R410), and VBUS that UP sourced is discharged. -/
def execUsbUpDetach (s : State) : Out :=
  .next ((s.whenUsb fun s =>
    if s.pd[(0 : PdPort)].tc == .unattached then s
    else
      let s1 := ((s.disconnectUp.removeVbus 0).dropPartner 0).modPd 0 fun p =>
        { p with tc := .unattached, source := false, dfp := false, rpSeen := 0 }
      if s.pd[(0 : PdPort)].vbusEn then s1 else s1.measureVbus 0 0).noteCc 0 false)

/-- Rd on exactly one CC pin, which is an attach (R414). -/
def dnAttaches (p : DnPlug) : Bool := (p.cc1 == .rd) != (p.cc2 == .rd)

/-- USB_DN_ATTACH (R414): Rd on one CC pin is AttachWait.SRC, and after tCCDebounce an attach: vSafe5V is applied, a connection is reported
where the host has powered the port, and PD starts. Other loads are no attach. Before RUN, in RECOVERY and in SERVICE the port sources
nothing (R404). -/
def execUsbDnAttach (port : DnPd) (plug : DnPlug) (s : State) : Out :=
  .next (
    let k := dnPd port
    if !dnAttaches plug || s.ccPull k == .off then s
    else
    ((s.whenUsb fun s =>
    let n : DnPort := ⟨port.val, by omega⟩
    if !s.pd[k].detached || s.pd[k].disch || !s.dnPowered || s.hwPolicy then s
    else if !plug.settled then s.modPd k fun p => { p with tc := .attachWait }
    else
      let s1 := ((s.modPd k fun p => { p with tc := .attached, cc2 := plug.cc2 == .rd }).applyVbus k).showRp k
      let s2 := if s1.hostPowers n then
          ({ s1 with usb := { s1.usb with conn := s1.usb.conn ||| BitVec.ofNat 4 (2 ^ n.val) } } : State).emit (.usbPortChange n false)
        else s1
      if s2.bit (Reg.PD_PORT_CFG k.val) 0 then s2.sendCaps k (s2.dnOffer k) else s2).noteCc k true).attachWake plug.settled)

/-- USB_DN_DETACH (R414, R418): VBUS is removed and discharged, and a transition under way is abandoned. -/
def execUsbDnDetach (port : DnPd) (s : State) : Out :=
  .next ((s.whenUsb fun s =>
    let k := dnPd port
    if s.pd[k].tc == .attached then s.detachDn k
    else if s.pd[k].tc == .attachWait then s.modPd k fun p => { p with tc := .unattached }
    else s).noteCc (dnPd port) false)

/-- The USB connection of SERVICE: with SuperSpeed where the contract gives 1,500 mA or Rp shows 1.5 A or more, else held at high speed
(R426). -/
def State.connectService (s : State) (cur : Nat) : State :=
  let ss := decide (150 ≤ cur) || decide (2 ≤ s.pd[(0 : PdPort)].rpSeen.toNat)
  (s.connectUp ss).setBit Reg.USB_STATUS 20 (!ss)

/-- SERVICE_CONNECT_TIMEOUT (R426): in SERVICE, without Source_Capabilities, the hub connects 1 s after VBUS. -/
def execServiceConnectTimeout (s : State) : Out :=
  .next (s.whenUsb fun s =>
    if s.mode = .service ∧ s.pd[(0 : PdPort)].tc = .attached ∧ s.pd[(0 : PdPort)].asked = none ∧ s.upSpeed = 0 then
      s.connectService 0
    else s)

/-! ## Port power (R403, R404, R419) -/

/-- An over-current at a downstream port: VBUS goes, the host hears of it; on DN1 and DN2 the contract ends and the
port passes through ErrorRecovery (R403, R419). -/
def State.overCurrent (s : State) (n : DnPort) : State :=
  let mask := BitVec.ofNat 4 (2 ^ n.val)
  let s1 : State := { s with usb := { s.usb with portPower := s.usb.portPower &&& ~~~mask, conn := s.usb.conn &&& ~~~mask } }
  let s2 := (s1.setBit Reg.USB_STATUS (8 + n.val) true).emit (.usbPortChange n true)
  match dnPort n with
  | none => s2
  | some k =>
    let was := s2.pd[k].tc == .attached
    let s3 := ((s2.removeVbus k).dropPartner k).count (Reg.PD_OC k.val)
    s3.modPd k fun p => { p with oc := true, rpOff := true, tc := if was then .errorRecovery else p.tc }

/-- USB_OVER_CURRENT (R403): OC_N low for 8 ms at one port, which with OC_MODE = 1 is an over-current of all four. -/
def execUsbOverCurrent (n : DnPort) (s : State) : Out :=
  .next (s.whenUsb fun s =>
    let s1 := s.count (Reg.USB_OC_EVENTS n.val)
    if s1.ocGanged then s1.over (List.finRange 4) State.overCurrent else s1.overCurrent n)

/-- The host powers a port: the over-current is over, Rp is presented, and an attached partner gets VBUS again. -/
def State.powerPort (s : State) (n : DnPort) : State :=
  let mask := BitVec.ofNat 4 (2 ^ n.val)
  let s1 := ({ s with usb := { s.usb with portPower := s.usb.portPower ||| mask } } : State).setBit Reg.USB_STATUS (8 + n.val) false
  match dnPort n with
  | none => s1
  | some k =>
    let s2 := s1.modPd k fun p => { p with oc := false, rpOff := false }
    if s2.pd[k].tc == .attached && s2.dnPowered then
      ({ s2 with usb := { s2.usb with conn := s2.usb.conn ||| mask } } : State).emit (.usbPortChange n false)
    else s2

/-- SET_PORT_POWER (R403): one port, or all four where power is ganged. -/
def execSetPortPower (n : DnPort) (s : State) : Out :=
  .next ((s.whenUsb fun s =>
    if s.ocGanged then s.over (List.finRange 4) State.powerPort else s.powerPort n).wakeBy 0)

/-- CLEAR_PORT_POWER (R403): VBUS goes, and on DN1 and DN2 Rp too, so that the partner sees a detach (R418). -/
def execClearPortPower (n : DnPort) (s : State) : Out :=
  .next ((s.whenUsb fun s =>
    let mask := BitVec.ofNat 4 (2 ^ n.val)
    let s1 : State := { s with usb := { s.usb with portPower := s.usb.portPower &&& ~~~mask, conn := s.usb.conn &&& ~~~mask } }
    match dnPort n with
    | none => s1
    | some k =>
      let s2 := if s1.pd[k].tc == .attached then s1.detachDn k else s1
      s2.modPd k fun p => { p with rpOff := true }).wakeBy 0)

/-- USB_DEVICE_CONNECT (R384): a device connects to or leaves a downstream port whose VBUS is on; the host hears of it,
and it is a wake source. -/
def execUsbDeviceConnect (n : DnPort) (connected : Bool) (s : State) : Out :=
  .next (
    if s.usbUp && s.dnPowered && s.hostPowers n then
      let mask := BitVec.ofNat 4 (2 ^ n.val)
      let c := if connected then s.usb.conn ||| mask else s.usb.conn &&& ~~~mask
      (({ s with usb := { s.usb with conn := c } } : State).emit (.usbPortChange n false)).wakeBy 0
    else s)

/-! ## The maintenance function (R405-R412) -/

/-- The function is presented on port 5 and the host can reach it. -/
def State.mfReached (s : State) : Bool := s.usbUp && s.usb.mfOn && s.upSpeed != 0

/-- A request of the host to the function; host traffic is a wake source (R384), and is served in LAYOVER (R388). -/
def State.whenMf (s : State) (f : State → State) : State := if s.mfReached then (f s).wakeBy 0 else s

/-- Bulk OUT can take a packet: fewer than 8 replies wait (R409) and Column 2 is not restarting (R423). A request taken is served at once,
so that its buffer is free again unless bulk OUT takes nothing more (log 48). -/
def State.bulkFree (s : State) : Bool := decide (s.usb.replies.length < 8) && !s.policyAway

/-- A data packet on bulk OUT has been taken: ACK while a further one can be, and else NYET, counted; at SuperSpeed ACK with the next sequence
number and the packets granted, at most 8 in a burst (R407). -/
def State.ackPacket (s : State) : State :=
  if s.upSpeed = 3 then
    let seq := s.usb.seqOut + 1
    ({ s with usb := { s.usb with seqOut := seq } } : State).emit (.usbBulk (.ackSs seq (min 8 (8 - s.usb.replies.length))))
  else if s.bulkFree then s.emit (.usbBulk .ack)
  else (s.emit (.usbBulk .nyet)).count Reg.USB_NYET

/-- A data packet on bulk OUT cannot be taken: NAK, or at SuperSpeed NRDY (R407, R423). -/
def State.refusePacket (s : State) : State :=
  if s.upSpeed = 3 then ({ s with usb := { s.usb with nrdy := true } } : State).emit (.usbBulk .nrdy) else s.emit (.usbBulk .nak)

/-- Bulk OUT that has answered NRDY sends ERDY once a buffer is free (R407). -/
def State.sendErdy (s : State) : State :=
  if s.usb.nrdy && s.bulkFree then ({ s with usb := { s.usb with nrdy := false } } : State).emit (.usbBulk .erdy) else s

/-- OPEN_SESSION (R408): opens a session while ADMIT = 1; otherwise, or with another wLength, a STALL. -/
def execOpenSession (wValue wIndex wLength : BitVec 16) (s : State) : Out :=
  .next (s.whenMf fun s =>
    if wValue ≠ 0 ∨ wIndex ≠ 0 ∨ wLength ≠ 0 ∨ s.mfAdmits = false then s.emit .usbStall
    else if s.mfSession = 1 then s
    else (s.setSession 1).count Reg.USB_SESSIONS)

/-- CLOSE_SESSION (R408). -/
def execCloseSession (wValue wIndex wLength : BitVec 16) (s : State) : Out :=
  .next (s.whenMf fun s => if wValue ≠ 0 ∨ wIndex ≠ 0 ∨ wLength ≠ 0 then s.emit .usbStall else s.closeSession)

/-- USB_MF_SESSION as it reads (Table USB-8). -/
def State.mfSessionWord (s : State) : Word :=
  BitVec.ofNat 32 (s.mfSession + (if s.usb.mfOn then s.upSpeed else 0) * 4 + s.usb.replies.length % 16 * 16)

/-- GET_SESSION (R408): returns USB_MF_SESSION. -/
def execGetSession (wValue wIndex wLength : BitVec 16) (s : State) : Out :=
  .next (s.whenMf fun s =>
    if wValue ≠ 0 ∨ wIndex ≠ 0 ∨ wLength ≠ 4 then s.emit .usbStall else s.emit (.usbData s.mfSessionWord))

/-- PING (R407): ACK once a receive buffer is free, NAK until then. A request taken is served at once, so that buffers are
free but for the times when bulk OUT takes nothing: 8 replies wait (R409), or Column 2 restarts (R423). -/
def execPing (s : State) : Out :=
  .next (s.whenMf fun s => s.emit (.usbPing s.bulkFree))

/-- LPM_TOKEN (R405): ACK and L1 with no IN data queued, NYET otherwise; without LPM_EN, as the attach took it, no capability is advertised. -/
def execLpmToken (s : State) : Out :=
  .next (s.whenMf fun s =>
    if !s.usb.cfg.getLsbD 1 || s.upSpeed == 3 then s
    else if s.usb.replies.isEmpty then (s.emit (.usbLpm true)).setFld Reg.USB_STATUS 3 2 1
    else s.emit (.usbLpm false))

/-- USB_BUS_RESET (R410, R411): a control transfer is discarded and counted, the function returns to the Default state, and
the session closes. -/
def execUsbBusReset (duringControl : Bool) (s : State) : Out :=
  .next (s.whenUsb fun s =>
    if s.upSpeed = 0 then s
    else
      let s1 := (s.closeSession.usbDefault).setFld Reg.USB_STATUS 3 2 0
      if duringControl then s1.count Reg.USB_CTL_RESET_ABORT else s1)

/-- USB_SUSPEND (R405, R412): L2 or U3; a new remote-wake window begins, in which a cause that holds already is decided on. -/
def execUsbSuspend (s : State) : Out :=
  .next (s.whenUsb fun s =>
    if s.upSpeed = 0 then s
    else
      let s1 : State := { s with usb := { s.usb with suspended := true, signalled := false, logSince := false, decided := false } }
      (s1.setFld Reg.USB_STATUS 3 2 (if s.upSpeed = 3 then 3 else 2)).decideWake)

/-- The function has decided to signal remote wake and has not signalled yet, whatever has become of its cause (R412). -/
def State.wantsWake (s : State) : Bool := s.usb.suspended && s.usb.decided && !s.usb.signalled

/-- REMOTE_WAKE (R412): signalled once per suspend, and counted. -/
def execRemoteWake (s : State) : Out :=
  .next (s.whenUsb fun s =>
    if s.wantsWake then
      (({ s with usb := { s.usb with signalled := true } } : State).count Reg.USB_RWAKE).emit .usbRemoteWake
    else s)

/-- HOST_RESUME (R412): the link resumes, from L1, U1 or U2 as well. Where the function had decided to signal, that is a collision, counted,
and its wake is no longer pending; on USB 3 a Function Wake notification follows U0 while the cause holds, or after a wake that was
signalled. -/
def execHostResume (s : State) : Out :=
  .next ((s.whenUsb fun s =>
    if !s.usb.suspended then
      ({ s with usb := { s.usb with mfLink := 0 } } : State).setFld Reg.USB_STATUS 3 2 0
    else
      let s1 := if s.wantsWake then s.count Reg.USB_RESUME_COLLIDE else s
      let notify := s.upSpeed == 3 && (s.usb.signalled || (s.wantsWake && s.wakeCauseNow))
      let s2 : State := { s1 with usb := { s1.usb with suspended := false, signalled := false, decided := false } }
      let s3 := s2.setFld Reg.USB_STATUS 3 2 0
      if notify then s3.emit .usbFunctionWake else s3).wakeBy 0)

/-- The hub class to a downstream port, as chapter 11 of USB 2.0 and chapter 10 of USB 3.2 have it (R401; PRESUMED, log 140): suspend, reset,
L1, and the port's status. A port that is not connected refuses with STALL. -/
def State.portRequest (s : State) (n : DnPort) (f : State → BitVec 4 → State) : State :=
  if s.usb.conn.getLsbD n.val then f s (BitVec.ofNat 4 (2 ^ n.val)) else s.emit .usbStall

/-- VBUS is on at a downstream port (Table USB-10): on DN1 and DN2 what PD drives, on DN3 and DN4 the switch, which no mode but RUN and TEST
closes (R404). -/
def State.vbusOn (s : State) (n : DnPort) : Bool :=
  match dnPort n with
  | some k => s.pd[k].vbusEn
  | none => s.hostPowers n && s.dnPowered && !s.bit Reg.USB_STATUS (8 + n.val)

/-- A bit of a mask of ports. -/
def putPort (w mask : BitVec 4) (on : Bool) : BitVec 4 := if on then w ||| mask else w &&& ~~~mask

/-- STANDARD_REQUEST (R401, R402, R405, R406, R408, R411, R412): the requests that change or report what this chapter describes. U1 and U2
are rejected without U1U2_EN, as the attach took it; the function starts one itself only where the host has enabled it, U2 before U1 (log
140); a vendor request that Table USB-4 does not list gets a STALL. -/
def execStandardRequest (req : StdRequest) (s : State) : Out :=
  .next ((s.whenUsb fun s =>
    if s.upSpeed = 0 then s
    else
      let lpm := s.usb.cfg.getLsbD 2 && s.upSpeed == 3
      match req with
      | .setAddress a => { s with usb := { s.usb with address := a } }
      | .setConfiguration c => { s with usb := { s.usb with configured := c != 0 } }
      | .setRemoteWake on => ({ s with usb := { s.usb with rwEnabled := on } } : State).decideWake
      | .setU1 on => if lpm then { s with usb := { s.usb with u1 := on } } else s.emit .usbStall
      | .setU2 on => if lpm then { s with usb := { s.usb with u2 := on } } else s.emit .usbStall
      | .getDescriptor k => s.emit (.usbDescriptor (s.descriptor k))
      | .vendor _ => s.emit .usbStall
      | .linkEntry u2 =>
        if s.upSpeed != 3 || s.usb.suspended then s
        else if !lpm then s.emit (.usbLinkEntry u2 false)
        else (s.emit (.usbLinkEntry u2 true)).setFld Reg.USB_STATUS 3 2 (if u2 then 2 else 1)
      | .idle =>
        if !lpm || !s.usb.mfOn || s.usb.suspended || !s.usb.replies.isEmpty || !(s.usb.u1 || s.usb.u2) then s
        else ({ s with usb := { s.usb with mfLink := if s.usb.u2 then 2 else 1 } } : State).emit (.usbFunctionEntry s.usb.u2)
      | .portL1 n accepted =>
        if !s.usb.cfg.getLsbD 1 then s.emit .usbStall
        else s.portRequest n fun s m =>
          ({ s with usb := { s.usb with portL1 := putPort s.usb.portL1 m accepted } } : State).emit (.usbPortL1 n accepted)
      | .portSuspend n on => s.portRequest n fun s m =>
          { s with usb := { s.usb with portSusp := putPort s.usb.portSusp m on, portL1 := putPort s.usb.portL1 m false } }
      | .portReset n => s.portRequest n fun s m =>
          ({ s with usb := { s.usb with portSusp := putPort s.usb.portSusp m false, portL1 := putPort s.usb.portL1 m false } } : State).emit
            (.usbPortReset n)
      | .portStatus n =>
        s.emit (.usbPortStatus n (s.usb.conn.getLsbD n.val) (s.usb.portSusp.getLsbD n.val) (s.bit Reg.USB_STATUS (8 + n.val)) (s.vbusOn n)
          (s.usb.portL1.getLsbD n.val))).wakeBy 0)

/-- BULK_IN_TRANSFER (R409): the host takes the oldest reply. -/
def execBulkInTransfer (s : State) : Out :=
  .next (s.whenMf fun s =>
    match s.usb.replies with
    | [] => s
    | r :: rest =>
      (({ s with usb := { s.usb with replies := rest } } : State).emit
        (.usbReply r.op r.tag r.count r.done r.status r.data)).sendErdy)

/-! ## Power Delivery (R416-R423) -/

/-- A PD message reaches a port where PD runs, and is acknowledged (R416). -/
def State.whenPd (s : State) (k : PdPort) (f : State → State) : State := if s.pdOn k then f (s.heard k) else s

/-- SOURCE_CAPABILITIES (R420): UP as sink requests the 5 V supply at its current, with Capability Mismatch where it wants
more; the contract holds from PS_RDY on (Table USB-7). A DN port ignores the message (Table USB-5). -/
def execSourceCapabilities (port : PdPort) (pdos : List FixedPdo) (pd3 : Bool) (s : State) : Out :=
  .next (s.whenPd port fun s0 =>
    let s := s0.modPd port fun p => { p with rev := if pd3 then 2 else 1 }
    if port ≠ 0 ∨ s.pd[port].source = true ∨ s.policyAway = true then s
    else
      match pdos.findIdx? (fun o => o.volt == 100), pdos.find? (fun o => o.volt == 100) with
      | some i, some o =>
        let want := s.upSnkCur
        let mismatch := decide (o.cur.toNat < want) || want == 0x3FF
        let cur := BitVec.ofNat 10 (min want o.cur.toNat)
        let pos := BitVec.ofNat 3 (i + 1)
        let c : Contract := { pos := pos, cur := cur, volt := 100, mismatch := mismatch }
        (s.sendPd 0 (.pdRequest 0 pos cur mismatch)).modPd 0 fun p => { p with asked := some c }
      | _, _ => s)

/-- PD_REQUEST (R416, R417): its header tells the partner's revision. A DN port accepts an offered supply within its current, and moves
its voltage to it; UP does so after a PR_Swap for its 5 V supply. While Column 2 restarts the hardware answers Wait (R423). While VBUS is not
driven VSEL does not move and the Request is rejected (R441; DEDUCED, log 109). -/
def execPdRequest (port : PdPort) (head : RequestHead) (cur : BitVec 10) (s : State) : Out :=
  .next (s.whenPd port fun s0 =>
    let s := s0.modPd port fun p => { p with rev := if head.pd3 then 2 else 1 }
    if s.policyAway then s.sendPd port (.pdWait port)
    else if port ≠ 0 ∧ s.hwPolicy = true then s
    else if port ≠ 0 ∧ s.pd[port].vbusEn = false then s.sendPd port (.pdReject port)
    else
      let offer := if port = 0 then (if s.pd[port].source then upOffer else []) else s.pd[port].lastCaps
      match pdoAt offer head.pos with
      | none => s.sendPd port (.pdReject port)
      | some o =>
        if o.cur < cur then s.sendPd port (.pdReject port)
        else
          let v := o.volt.toNat * 5
          let vsel : BitVec 2 := if v = 900 then 1 else if v = 1500 then 2 else if v = 2000 then 3 else 0
          let c : Contract := { pos := head.pos, cur := cur, volt := o.volt, mismatch := false }
          let s1 := (s.sendPd port (.pdAccept port)).modPd port fun p => { p with contract := some c }
          if port = 0 then s1.sendPd port (.pdPsRdy port)
          else s1.modPd port fun p => { p with vsel := vsel, transition := some (v * 10) })

/-- VBUS_SETTLED (R417): VBUS has stayed within 5 percent of the new voltage for 5 ms: PS_RDY. -/
def execVbusSettled (port : DnPd) (s : State) : Out :=
  .next (s.whenUsb fun s =>
    let k := dnPd port
    match s.pd[k].transition with
    | none => s
    | some mv => ((s.modPd k fun p => { p with transition := none }).sendPd k (.pdPsRdy k)).measureVbus k (mv / 10))

/-- SRC_SETTLE_TIMEOUT (R417): Hard Reset is sent, and PD_XITION_FAIL counts. -/
def execSrcSettleTimeout (port : DnPd) (s : State) : Out :=
  .next (s.whenUsb fun s =>
    let k := dnPd port
    if s.pd[k].transition.isNone then s
    else ((s.count (Reg.PD_XITION_FAIL k.val)).emit (.pdHardReset k)).hardReset k)

/-- GET_SOURCE_CAP (Table USB-5); while Column 2 restarts, from the last Source_Capabilities sent (R423). -/
def execGetSourceCap (port : PdPort) (s : State) : Out :=
  .next (s.whenPd port fun s =>
    if s.policyAway then s.sendPd port (.pdSourceCaps port s.pd[port].lastCaps)
    else if port ≠ 0 then (if s.hwPolicy then s else s.sendCaps port (s.dnOffer port))
    else if s.prsAccept ∨ s.pd[port].source = true then s.sendCaps port upOffer
    else s.notSupported port)

/-- GET_SINK_CAP (Table USB-5); left unanswered while Column 2 restarts. -/
def execGetSinkCap (port : PdPort) (s : State) : Out :=
  .next (s.whenPd port fun s =>
    if s.policyAway then s
    else if port ≠ 0 then s.notSupported port
    else s.sendPd port (.pdSinkCaps port (BitVec.ofNat 10 s.upSnkCur) s.prsAccept))

/-- PR_SWAP (R421): UP accepts to become source in START and RUN with PRS_ACCEPT, and always to return to sink; every
other PR_Swap is rejected and counted. -/
def execPrSwap (port : PdPort) (s : State) : Out :=
  .next (s.whenPd port fun s =>
    let reject (s : State) : State := (s.sendPd port (.pdReject port)).count (Reg.PD_PRS_REJECT port.val)
    if s.policyAway then s.sendPd port (.pdWait port)
    else if port ≠ 0 ∨ s.hwPolicy = true then reject s
    else if s.pd[port].source then
      let s1 := ((s.sendPd port (.pdAccept port)).removeVbus port).modPd port fun p => { p with swap := true, contract := none }
      s1.sendPd port (.pdPsRdy port)
    else if (s.mode = .start ∨ s.mode = .run) ∧ s.prsAccept = true then
      (s.sendPd port (.pdAccept port)).modPd port fun p => { p with swap := true, asked := none }
    else reject s)

/-- PS_RDY_RECEIVED (R420, R421): the partner's PS_RDY makes the contract that UP has requested hold, upon which the hub connects in SERVICE
(R426, Table USB-7). It ends an accepted swap: from sink, UP drives VBUS at 5 V, presents Rp and offers 5 V at 1.5 A; from source, it is
sink again. -/
def execPsRdyReceived (s : State) : Out :=
  .next (s.whenPd 0 fun s =>
    let p := s.pd[(0 : PdPort)]
    if !p.swap then
      match p.asked with
      | none => s
      | some c =>
        let s1 := s.modPd 0 fun q => { q with contract := some c }
        if s1.mode = .service ∧ s1.upSpeed = 0 then s1.connectService c.cur.toNat else s1
    else
      let s1 := s.count (Reg.PD_PRS 0)
      if p.source then s1.modPd 0 fun q => { q with swap := false, source := false, contract := none }
      else
        let s2 := s1.modPd 0 fun q => { q with swap := false, source := true, contract := none, vbusEn := true }
        ((s2.sendPd 0 (.pdPsRdy 0)).measureVbus 0 500).sendCaps 0 upOffer)

/-- DR_SWAP (R416): always rejected; Wait while Column 2 restarts (R423). -/
def execDrSwap (port : PdPort) (s : State) : Out :=
  .next (s.whenPd port fun s => if s.policyAway then s.sendPd port (.pdWait port) else s.sendPd port (.pdReject port))

/-- SOFT_RESET (R416): the message IDs restart, and it is accepted and counted. -/
def execSoftReset (port : PdPort) (s : State) : Out :=
  .next (s.whenPd port fun s => ((s.restartIds port).sendPd port (.pdAccept port)).count (Reg.PD_SOFT_RESET port.val))

/-- HARD_RESET (R422). -/
def execHardReset (port : PdPort) (s : State) : Out :=
  .next (s.whenUsb fun s =>
    if s.pd[port].tc == .attached && s.bit (Reg.PD_PORT_CFG port.val) 0 then s.hardReset port else s)

/-- DISCOVER_IDENTITY (R416): acknowledged as a PDUSB hub, UFP on UP and DFP on DN1 and DN2. -/
def execDiscoverIdentity (port : PdPort) (s : State) : Out :=
  .next (s.whenPd port fun s =>
    if s.policyAway then s
    else s.sendPd port (.pdIdentity port (decide (port.val ≠ 0)) (BitVec.ofNat 16 (s.fld Reg.USB_VID_PID 15 0))))

/-- UNSUPPORTED_PD_MESSAGE (R416): Not_Supported, counted. While Column 2 restarts, only VCONN_Swap of these has an answer,
Wait (R423). -/
def execUnsupportedPdMessage (msg : PdMessage) (s : State) : Out :=
  .next (s.whenPd msg.port fun s =>
    if !s.policyAway then s.notSupported msg.port
    else if msg.vconnSwap then s.sendPd msg.port (.pdWait msg.port)
    else s)

/-- DISCHARGE_END (R418): VBUS is below vSafe0V, which Bedrock sees while the USB domain is off too (R441). HELD and ErrorRecovery end in Unattached; a port still attached, after a
Hard Reset, applies vSafe5V again. -/
def execDischargeEnd (port : PdPort) (s : State) : Out :=
  .next (
    if !s.pd[port].disch || !s.pwr.vaux then s
    else
      let s1 := (s.measureVbus port 0).dropFault (.discharge port)
      let s2 := s1.modPd port fun p =>
        { p with disch := false, dischFault := false
                 tc := if p.tc = .attached ∨ p.tc = .attachWait then p.tc else .unattached }
      if s2.usbUp && s2.pd[port].tc == .attached && decide (port.val ≠ 0) && s2.dnPowered then
        (let s3 := s2.applyVbus port
         if s3.bit (Reg.PD_PORT_CFG port.val) 0 then s3.sendCaps port (s3.dnOffer port) else s3)
      else s2)

/-- DISCHARGE_TIMEOUT (R418): VBUS still above vSafe0V after 650 ms: HELD, counted, logged, FAULT_N. -/
def execDischargeTimeout (port : PdPort) (s : State) : Out :=
  .next (s.whenUsb fun s =>
    if !s.pd[port].disch || s.pd[port].tc == .held then s
    else
      let s1 := (s.dropPartner port).modPd port fun p => { p with tc := .held, dischFault := true }
      ((s1.count (Reg.PD_DISCH_FAULT port.val)).logEvent 0x19 0x02 [port.val]).raiseFault (.discharge port))

/-- PD_SRC_PDO_CHANGE (R417): a register has changed: with a contract, Column 2 owes new Source_Capabilities, which the next head or rest
tick sends. -/
def execPdSrcPdoChange (port : DnPd) (s : State) : Out := .next (s.whenUsb fun s => s.notePdo (dnPd port))

/-- GOODCRC_TIMEOUT (R416): counted; the port then sends Soft_Reset with its message IDs restarted, or Hard Reset in a swap, as PD has it
(log 51). -/
def execGoodcrcTimeout (port : PdPort) (s : State) : Out :=
  .next (s.whenUsb fun s =>
    if !s.pdOn port then s
    else
      let s1 := s.count (Reg.PD_MSG_FAIL port.val)
      if !s1.pd[port].partner then s1
      else if s1.pd[port].swap || s1.pd[port].transition.isSome then (s1.emit (.pdHardReset port)).hardReset port
      else ((s1.restartIds port).sendPd port (.pdSoftReset port)).count (Reg.PD_SOFT_RESET port.val))

end Sys2Proof.Machine
end

