-- ==== Sys2Proof/Machine/View.lean ====
section
/-! DEFINITION. Machine/View.lean: what the registers read that only show another store of the state: STA fields, BUSY bits
and windows, computed at the read (Table REG-2). Every other register reads its stored word. -/

namespace Sys2Proof

/-- Word i of a rate set: CIR, CBS, PIR, PBS. -/
def RateSet.word (r : RateSet) (i : Nat) : Word :=
  match i with
  | 0 => r.cir
  | 1 => r.cbs.setWidth 32
  | 2 => r.pir
  | _ => r.pbs.setWidth 32

/-- A rate set with word i replaced. -/
def RateSet.withWord (r : RateSet) (i : Nat) (w : Word) : RateSet :=
  match i with
  | 0 => { r with cir := w }
  | 1 => { r with cbs := w.setWidth 24 }
  | 2 => { r with pir := w }
  | _ => { r with pbs := w.setWidth 24 }

end Sys2Proof

namespace Sys2Proof.Machine

open Sys2Proof

/-- The index k of an address base + k x stride, k below n. -/
def idx (base stride n a : Nat) : Option Nat :=
  if base ≤ a ∧ (a - base) % stride = 0 ∧ (a - base) / stride < n then some ((a - base) / stride) else none

/-- A word from fields, each with its lowest bit. -/
def fields (l : List (Nat × Nat)) : Word := BitVec.ofNat 32 (l.foldl (fun a x => a + x.2 * 2 ^ x.1) 0)

/-- A BUSY bit in [31]. -/
def busyWord (b : Bool) : Word := fields [(31, b2n b)]

/-- A mask of the first n indices that meet a test. -/
def maskNat (n : Nat) (f : Nat → Bool) : Nat := (List.range n).foldl (fun a i => if f i then a + 2 ^ i else a) 0

/-! ## The beat -/

/-- The code of a timing state (Table BEA-9). -/
def Timing.code : Timing → Nat
  | .free => 0
  | .track => 1
  | .holdover => 2
  | .master => 3
  | .stepPending => 4

/-- ALIGN_OK: the phase error is within 20 ns, 128 units of 156.25 ps (R36); 0 in a hub that tracks nothing (DESIGN CHOICE, log 108). -/
def State.alignOk (s : State) : Bool := s.tracking && decide (s.beat.err ≤ 128) && decide (-128 ≤ s.beat.err)

/-- HOPS as sent: 0 as master or FREE. -/
def State.hopsSent (s : State) : Nat :=
  if s.beat.timing = .master ∨ s.beat.timing = .free then 0 else s.beat.hops.toNat

/-- BEAT_STATUS (Table BEA-9). -/
def State.beatStatus (s : State) : Word :=
  fields [(0, s.beat.timing.code), (3, (s.beat.timingPort.map (·.val)).getD 7), (6, s.hopsSent), (12, b2n s.beat.srcHold),
    (13, b2n s.alignOk), (16, if s.beat.timing = .holdover then min 0xFFFF (s.heads - s.beat.holdSince) else 0)]

/-- The BEAT block. -/
def State.viewBeat (s : State) (a : Nat) : Option Word :=
  if a = Reg.BEAT_PHASE then some (fields [(0, s.beat.phase)])
  else if a = Reg.BEAT_STATUS then some s.beatStatus
  else if a = Reg.BEAT_MASTER_ID_LO then
    if s.beat.timing = .free then some (Config.hubId.setWidth 32) else none
  else if a = Reg.BEAT_MASTER_ID_HI then
    if s.beat.timing = .free then some ((Config.hubId >>> 32).setWidth 32) else none
  else if a = Reg.BEAT_CMT_CMD then some 0
  else if a = Reg.BEAT_CMT_PENDING then some (fields [(0, s.beat.commits.length)])
  else none

/-! ## Lanes and ports -/

/-- A loop combination of Table LAN-6, as NS + 2 NP + 4 FE. -/
def loopOk (v : Nat) : Bool := v == 0 || v == 1 || v == 2 || v == 4 || v == 6

/-- CFG_MISMATCH of a lane (R82, LANE_TEST). -/
def State.laneMismatch (s : State) (l : LaneIx) : Bool :=
  !loopOk (s.fld (Reg.LANE_LOOP l.val) 2 0) || s.fld (Reg.LANE_TEST l.val) 1 0 == 3 || s.fld (Reg.LANE_TEST l.val) 3 2 == 3

/-- The lane carries its port's striped stream. -/
def State.inPort (s : State) (l : LaneIx) : Bool :=
  let p := s.portOfLane l
  let i := s.laneIndex l
  s.portUp p &&
    (if s.isTvl p then (s.ports[p].txLanes.getLsbD i || s.ports[p].rxLanes.getLsbD i) && !s.laneOut l else s.isEth p)

/-- LANE_STATUS (Table LAN-11). -/
def State.laneStatus (s : State) (l : LaneIx) : Word :=
  let x := s.lanes[l]
  fields [(0, b2n x.detected), (1, b2n x.los), (2, b2n x.lol), (3, b2n (x.lock == .locked)), (4, b2n x.trained),
    (5, b2n (s.inPort l)), (6, b2n (s.rateMix l)), (7, b2n (s.loopActive l)), (8, b2n x.fltAt.isSome),
    (9, b2n (s.laneMismatch l)), (10, b2n (s.laneOn l)), (11, (x.skew.map (min 64)).getD 0x7F),
    (18, if x.lock = .locked then min 16 x.ebuf else 0x1F)]

/-- The LANE block. -/
def State.viewLane (s : State) (a : Nat) : Option Word :=
  if a = Reg.LANE_TREND_CLR then some (fields [(0, maskNat 32 fun i => (s.lanes[i]?.map (·.trendClear)).getD false)])
  else
    let l : LaneIx := ⟨(a - 0x20000) / 0x400 % 32, Nat.mod_lt _ (by decide)⟩
    if a = Reg.LANE_STATUS l.val then some (s.laneStatus l)
    else if a = Reg.LANE_PPM l.val then
      some (if s.lanes[l].lock = .locked then (Config.lanePpm l.val s.heads).setWidth 32 else 0x8000)
    else if a = Reg.LANE_EQ l.val then some (if s.adapting l then withBits (s.reg a) 4 0 (Config.ctleCode l.val s.heads % 32) else s.reg a)
    else if a = Reg.LANE_LOOP l.val then
      some (withBits (s.reg a) 6 6 (b2n s.lanes[l].remoteLoop))
    else none

/-- The code of a stage (R95). -/
def Stage.code : Stage → Nat
  | .down => 0
  | .detect => 1
  | .train => 2
  | .lock => 3
  | .capx => 4
  | .active => 5
  | .degraded => 6

/-- The code of an admission state (Table CPL-4). -/
def Admit.code : Admit → Nat
  | .closed => 0
  | .auth => 1
  | .admitted => 2
  | .bypassed => 3

/-- TRK_STATUS (Table CPL-11). -/
def State.trkStatus (s : State) (t : TrunkPort) : Word :=
  let x := s.ports[trunk t]
  let up := x.stage == .active || x.stage == .degraded
  fields [(0, x.stage.code), (3, x.txWidth), (6, x.rxWidth), (9, x.txLanes.toNat), (13, x.rxLanes.toNat),
    (17, x.parked.toNat), (21, if up then x.adm.code else 0), (23, x.refuse.toNat), (26, b2n x.coupled),
    (27, b2n (s.samePartner (trunk t))), (28, b2n x.nbDead),
    (29, if x.stage = .down ∨ x.stage = .detect then 0 else s.laneRate (laneAt (trunk t) 0)), (31, b2n x.holdHead.isSome)]

/-- The TRK block. -/
def State.viewTrk (s : State) (a : Nat) : Option Word :=
  let t : TrunkPort := ⟨(a - 0x40000) / 0x400 % 4, Nat.mod_lt _ (by decide)⟩
  if a = Reg.TRK_STATUS t.val then some (s.trkStatus t)
  else if a = Reg.TRK_STAGE_TIME t.val then some (fields [(0, min 0xFFFFFFFF (s.heads - s.ports[trunk t].stageHead))])
  else none

/-- LOC_STATUS (Table LAN-16): the written mode agrees or not with the rate in use (R91, R299). FEC lock is block lock with FEC on (DEDUCED, log 52). -/
def State.locStatus (s : State) (n : LocalPort) : Word :=
  let p := loc n
  let x := s.ports[p]
  let eth := s.isEth p
  let mode := s.fld (Reg.LOC_MODE n.val) 1 0
  fields [(0, if eth then (if x.stage = .active then 5 else 0) else x.stage.code), (3, x.modeAct.toNat),
    (5, b2n (eth && x.localFault)), (6, b2n (eth && s.remoteFault (loc n))),
    (7, b2n (eth && s.bit (Reg.LOC_MODE n.val) 2 && s.lanes[laneAt p 0].lock == .locked)), (8, b2n (!modeRateOk mode (s.laneRate (laneAt p 0))))]

/-- The LOC block. -/
def State.viewLoc (s : State) (a : Nat) : Option Word :=
  let n : LocalPort := ⟨(a - 0x50100) / 0x100 % 16, Nat.mod_lt _ (by decide)⟩
  if a = Reg.LOC_STATUS n.val then some (s.locStatus n) else none

/-! ## Echo -/

/-- TOPO_STATUS.MERGE. -/
def State.mergeCode (s : State) : Nat :=
  match s.echo.merge with
  | none => 0
  | some m => if m.joining then 2 else 1

/-- The step beat of the pending merge in this hub's numbering. -/
def State.mergeBeat (s : State) : Beat :=
  match s.echo.merge with
  | none => 0
  | some m => if m.joining then m.record.jn else m.record.s

/-- CL_MIXED: an admitted trunk partner runs another conduct level (R100). -/
def State.clMixed (s : State) : Bool :=
  (List.finRange 4).any fun t =>
    s.ports[trunk t].adm == .admitted &&
      (s.ports[trunk t].partner.map fun c => c.cl.toNat != s.fld Reg.GLB_CL_ACTIVE 7 0).getD false

/-- TOPO_STATUS (Table CPL-14). -/
def State.topoStatus (s : State) : Word :=
  fields [(0, s.fld Reg.TOPO_STATUS 14 0), (15, min 64 s.view.length), (22, s.mergeCode), (24, b2n s.isDateline),
    (25, b2n (s.echo.ringCut != 0)), (26, b2n s.clMixed), (27, b2n s.forming)]

/-- The TOPO block. -/
def State.viewTopo (s : State) (a : Nat) : Option Word :=
  if a = Reg.TOPO_STATUS then some s.topoStatus
  else if a = Reg.TOPO_MERGE_S_LO then some (s.mergeBeat.setWidth 32)
  else if a = Reg.TOPO_MERGE_S_HI then some ((s.mergeBeat >>> 32).setWidth 32)
  else none

/-- The hub record that a slot of TOPO_HUB_SEL names: 0 this hub, 127 none. -/
def State.hubAt (s : State) (slot : Nat) : Option HubRecord :=
  if slot = 0 then some s.ownRecord
  else if slot = 127 then none
  else s.view.find? fun r => r.slot.toNat == slot

/-- The window of TOPO_HUB_SEL takes the record of the slot in one step (Table CPL-12). -/
def State.copyHub (s : State) : State :=
  match s.hubAt (s.fld Reg.TOPO_HUB_SEL 6 0) with
  | none => (((s.setReg Reg.TOPO_HUB_ID_LO 0).setReg Reg.TOPO_HUB_ID_HI 0).setReg Reg.TOPO_HUB_INFO 0).setReg Reg.TOPO_HUB_NB 0
  | some r =>
    let pst := (List.finRange 4).foldl (fun a i => a + r.pst[i].toNat * 4 ^ i.val) 0
    let nb := (List.finRange 4).foldl (fun a i => a + r.nb[i].toNat * 256 ^ i.val) 0
    let info := fields [(0, 1), (1, r.prio.toNat), (4, r.carRole.toNat), (6, r.seat.toNat), (8, b2n r.sump), (9, r.cl.toNat),
      (17, b2n r.datelineOk), (18, pst)]
    (((s.setReg Reg.TOPO_HUB_ID_LO (r.id.setWidth 32)).setReg Reg.TOPO_HUB_ID_HI ((r.id >>> 32).setWidth 32)).setReg
      Reg.TOPO_HUB_INFO info).setRegN Reg.TOPO_HUB_NB nb

/-! ## Tunnels -/

/-- TABLE_OK: Sump holds a usable table (Table TUN-12). -/
def State.tableOk (s : State) : Bool := s.bit Reg.TUN_STATUS 0 && s.sumpReady && !(s.pwr.state == .layover)

/-- TUN_ROUTE: the row of the slot in TUN_ROUTE_SEL. -/
def State.routeWord (s : State) : Word :=
  let slot := s.fld Reg.TUN_ROUTE_SEL 6 0
  if slot = 0 ∨ slot = 127 then 0
  else
    let own := slot == s.ownSlot
    match s.tun.routes.find? fun r => r.slot.toNat == slot with
    | none => fields [(4, b2n own)]
    | some r =>
      fields [(0, (r.a.map (fun t => t.val + 1)).getD 0), (2, (r.b.map (fun t => t.val - 1)).getD 0), (4, b2n own)]

/-- The TUN block. -/
def State.viewTun (s : State) (a : Nat) : Option Word :=
  if a = Reg.TUN_STATUS then some (fields [(0, b2n s.tableOk), (1, s.tun.missQ.length), (14, s.pinned)])
  else if a = Reg.TUN_MAP_COUNT then some (fields [(0, s.tun.map.length)])
  else if a = Reg.TUN_EP_CMD ∨ a = Reg.TUN_MAP_CMD then some 0
  else if a = Reg.TUN_ROUTE then some s.routeWord
  else none

/-! ## Cavern and Sump -/

/-- The port of a queue. -/
def portOfQueue (q : QueueIx) : EgressPort := ⟨q.val / 8, by omega⟩

/-- The class of a queue. -/
def clsOfQueue (q : QueueIx) : Cls := ⟨q.val % 8, Nat.mod_lt _ (by decide)⟩

/-- A queue stalls: its head frame is still in Sump (R179). -/
def Queue.stalled (q : Queue) : Bool :=
  match q.refs with
  | [] => false
  | r :: _ => r.spilled

/-- CAV_Q_STATUS (Table CAV-8). -/
def State.queueStatus (s : State) (q : QueueIx) : Word :=
  let x := s.cav.queues[q]
  fields [(0, b2n (meets (s.fld (Reg.CAV_Q_MARK q.val) 23 0) x.occ)), (1, b2n (decide (0 < x.occSump))),
    (2, b2n (s.held (portOfQueue q) (clsOfQueue q))),
    (3, b2n (decide (q.val % 8 ≤ 3) && decide (s.fld (Reg.CAV_Q_DROP q.val) 23 0 < s.fld (Reg.CAV_Q_SPILL q.val) 23 0))),
    (4, b2n x.stalled)]

/-- The CAV block. The pool reads 0 until the self-test has ended (Table CAV-6). -/
def State.viewCav (s : State) (a : Nat) : Option Word :=
  if a = Reg.CAV_STATUS then some (withBits (s.reg a) 3 3 (b2n (s.bit a 3 || decide (s.poolNow < 0))))
  else if a = Reg.CAV_POOL then some (fields [(0, if s.bit Reg.CAV_STATUS 0 then s.poolFree else 0)])
  else if a = Reg.CAV_POOL_SIZE then some (fields [(0, if s.bit Reg.CAV_STATUS 0 then s.poolSize else 0)])
  else
    let q := qIx ((a - 0xA1000) / 0x20)
    if a = Reg.CAV_Q_OCC q.val then some (fields [(0, s.cav.queues[q].occCav)])
    else if a = Reg.CAV_Q_SUMP q.val then some (fields [(0, s.cav.queues[q].occSump)])
    else if a = Reg.CAV_Q_STATUS q.val then some (s.queueStatus q)
    else none

/-- SUMP_STATUS with the bits that show other state (Table CAV-11). -/
def State.sumpStatus (s : State) : Word :=
  let geomBad := geomSize (s.reg Reg.SUMP_GEOM) == 0
  withBits (withBits (withBits (s.reg Reg.SUMP_STATUS) 7 7 (b2n s.spillActive)) 8 8 (b2n geomBad)) 13 10 s.cav.ueFifo.length

/-- The SUMP block. -/
def State.viewSump (s : State) (a : Nat) : Option Word :=
  if a = Reg.SUMP_STATUS then some s.sumpStatus
  else if a = Reg.SUMP_SPILL_SIZE then some (fields [(0, if s.sumpReady then s.spillSize else 0)])
  else if a = Reg.SUMP_SPILL_USED then some (fields [(0, 16 * s.pagesUsed)])
  else if a = Reg.SUMP_UE_ADDR_LO then some ((s.cav.ueFifo.head?.map fun u => u.addr.setWidth 32).getD 0)
  else if a = Reg.SUMP_UE_ADDR_HI then
    some ((s.cav.ueFifo.head?.map fun u => fields [(0, u.addr.toNat / 2 ^ 32), (8, 1), (9, u.region.toNat)]).getD 0)
  else if a = Reg.SUMP_UE_POP then some 0
  else none

/-! ## Schedulers, policers, dependability -/

/-- SCHED_GL_POS and the mask in force (R206). -/
def State.gatePos (s : State) (p : Nat) : Word × Word :=
  let es := s.gateEntries p
  let k := s.gateBeat p
  let u := gateUnit s.beat.phase
  let i := (entryAt es (k * 6250 + u) 0).1
  (fields [(0, i), (7, k), (13, u)], fields [(0, ((es.getD i (0, 0)).1).toNat)])

/-- The SCHED block. -/
def State.viewSched (s : State) (a : Nat) : Option Word :=
  if a = Reg.SCHED_STATUS then some (fields [(0, maskNat 21 fun i => s.oversub ⟨i % 21, Nat.mod_lt _ (by decide)⟩)])
  else
    let p : EgressPort := ⟨(a - 0xC0100) / 0x40 % 21, Nat.mod_lt _ (by decide)⟩
    if a = Reg.SCHED_GL_POS p.val then some (s.gatePos p.val).1
    else if a = Reg.SCHED_GATE_NOW p.val then some (s.gatePos p.val).2
    else if a = Reg.SCHED_PORT_CAP p.val then some (fields [(0, s.portCap p)])
    else none

/-- The profile that a master's POL_PRF_SEL names. -/
def State.profileSel (s : State) (m : Master) : Nat := s.fld (pmKey m Reg.POL_PRF_SEL) 11 0

/-- A rate set of a profile store. -/
def rateAt (l : List (Nat × RateSet)) (k : Nat) : RateSet := Store.get (fun _ => { cir := 0, cbs := 0, pir := 0, pbs := 0 }) l k

/-- The POL block: the profile window of the reading master. -/
def State.viewPol (s : State) (m : Master) (a : Nat) : Option Word :=
  match idx Reg.POL_PRF_CIR 4 4 a, idx Reg.POL_PRF_CIR_ACT 4 4 a with
  | some i, _ => some ((rateAt s.sched.profShadow (s.profileSel m)).word i)
  | _, some i => some ((rateAt s.sched.profActive (s.profileSel m)).word i)
  | none, none => none

/-- HUBS_OK: Echo sees no hub that a view of 64 cannot hold. -/
def State.hubsOk (s : State) : Bool := decide (s.view.length ≤ 64)

/-- SUMP_OK (Table DEP-9). -/
def State.sumpOk (s : State) : Bool := s.sumpReady || !s.bit Reg.SUMP_CFG 0

/-- The DEP_DRAIN bits: the ports that still wait (R241). -/
def State.drainWord (s : State) : Nat :=
  maskNat 16 fun n => s.bit Reg.DEP_DRAIN n

/-- The twin entries in use: those that are not free (R225). -/
def State.twinUsed (s : State) : Nat := s.twin.countP fun e => !s.twinAged e

/-- DEP_STATUS (Table DEP-9). -/
def State.depStatus (s : State) : Word :=
  let image := s.bit Reg.BOOT_STATUS 11
  let drain := s.drainWord == 0
  let cl := !s.clMixed
  fields [(0, b2n (s.mode == .run && s.hubsOk && image && drain && s.sumpOk && cl)), (1, b2n s.hubsOk), (2, b2n image),
    (3, b2n drain), (4, b2n s.sumpOk), (5, b2n cl), (7, b2n (decide (8192 ≤ s.twinUsed))), (8, s.twinUsed)]

/-- The DEP block. -/
def State.viewDep (s : State) (a : Nat) : Option Word :=
  if a = Reg.DEP_STATUS then some s.depStatus else none

/-! ## Engines and Columns -/

/-- The code of an engine state (Table ENC-5). -/
def EngineState.code : EngineState → Nat
  | .active => 0
  | .spare => 1
  | .quarantine => 2
  | .failed => 3

/-- The ENG block. OVR shows 3 from a third overrun to the takeover, as Table ENC-3 has it (DEDUCED, log 133). -/
def State.viewEng (s : State) (a : Nat) : Option Word :=
  if a = Reg.ENG_CMD then some (withBits (s.reg a) 31 31 (b2n (!s.eng.takeovers.isEmpty)))
  else
    let e : EngineIx := ⟨(a - 0x100100) / 4 % 18, Nat.mod_lt _ (by decide)⟩
    let r : RoleIx := ⟨(a - 0x100200) / 8 % 16, Nat.mod_lt _ (by decide)⟩
    if a = Reg.ENG_ENGINE e.val then
      some (fields [(0, s.eng.engines[e].state.code), (2, (s.eng.engines[e].role.map (·.val)).getD 31)])
    else if a = Reg.ENG_ROLE r.val then
      let x := s.eng.roles[r]
      some (fields [(0, (x.engine.map (·.val)).getD 31), (5, x.epoch.toNat), (13, x.ovr), (15, b2n x.vacant)])
    else none

/-- The code of a Column state (Table ENC-7). -/
def ColumnState.code : ColumnState → Nat
  | .reset => 0
  | .restoring => 1
  | .running => 2
  | .failed => 3

/-- REDUCED: Column 2 supervises with reduced functions (R262). -/
def State.reduced (s : State) (c : ColumnIx) : Bool := c.val == 2 && s.fld Reg.COL_SUPER 1 0 == 2

/-- The COL block. -/
def State.viewCol (s : State) (m : Master) (a : Nat) : Option Word :=
  if a = Reg.COL_TREQ_CMD then some (busyWord (s.treqBusy m))
  else
    let c : ColumnIx := ⟨(a - 0x110010) / 4 % 4, Nat.mod_lt _ (by decide)⟩
    if a = Reg.COL_STATUS c.val then
      let x := s.eng.columns[c]
      some (fields [(0, x.state.code), (2, b2n x.ready), (3, b2n (s.fld Reg.COL_SUPER 1 0 == c.val && c.val != 1)),
        (4, b2n (s.reduced c)), (5, x.ovr)])
    else none

/-! ## Access control -/

/-- The bit of GLB_STRAPS whose strap GPIO[i] carries (Tables BAL-5, BAL-7). -/
def strapOf (i : Nat) : Nat := [9, 10, 0, 1, 2, 3, 4, 11, 12, 5, 6, 7, 8].getD i 0

/-- The GLB block. -/
def State.viewGlb (s : State) (m : Master) (a : Nat) : Option Word :=
  if a = Reg.GLB_UNLOCK then some (fields [(0, b2n (s.unlocked m))])
  else if a = Reg.GLB_GPIO_IN then
    let oe := s.fld Reg.GLB_GPIO_OE 12 0
    some (fields [(0, maskNat 13 fun i => if oe.testBit i then s.bit Reg.GLB_GPIO_OUT i else s.bit Reg.GLB_STRAPS (strapOf i))])
  else none

/-- The MPU block. -/
def State.viewMpu (s : State) (m : Master) (a : Nat) : Option Word :=
  let f := s.acc.faults.head?
  if a = Reg.MPU_STATUS then some (fields [(0, s.acc.faults.length), (3, b2n (s.bit Reg.MPU_CFG 0))])
  else if a = Reg.MPU_SYNC then some (fields [(0, b2n (s.acc.barrier[m]).isNone), (31, b2n (s.acc.barrier[m]).isSome)])
  else if a = Reg.MPU_FAULT_ADDR_LO then some ((f.map fun x => x.addr.setWidth 32).getD 0)
  else if a = Reg.MPU_FAULT_INFO then
    some ((f.map fun x => fields [(0, x.addr.toNat / 2 ^ 32), (8, x.kind.toNat), (10, x.size.toNat), (16, x.master.toNat),
      (22, b2n x.priv), (23, x.region.toNat), (30, b2n x.straddle), (31, 1)]).getD 0)
  else if a = Reg.MPU_FAULT_CAUSE then some ((f.map fun x => fields [(0, x.cause.toNat), (16, x.beat.toNat)]).getD 0)
  else if a = Reg.MPU_FAULT_POP then some 0
  else none

/-- The CNT block. -/
def State.viewCnt (s : State) (a : Nat) : Option Word :=
  if a = Reg.CNT_SNAP_CMD then some (busyWord s.acc.snapPending)
  else if a = Reg.CNT_SNAP_STATUS then some (withBits (s.reg a) 31 16 ((s.reg Reg.CNT_SNAP_BEAT_LO).toNat % 65536))
  else none

/-! ## Geode -/

/-- The KEY block. -/
def State.viewKey (s : State) (m : Master) (a : Nat) : Option Word :=
  if a = Reg.KEY_STATUS then
    some (fields [(0, b2n s.geode.root.isSome), (1, b2n s.inDebug), (2, b2n s.geode.running.isSome),
      (3, s.geode.tamperNow.toNat), (11, s.validSlots)])
  else if a = Reg.KEY_CMD then some (busyWord (s.keyBusy m false))
  else if a = Reg.KEY_ROOT_CMD then some (withBits (s.reg a) 31 31 (b2n (s.keyBusy m true)))
  else if a = Reg.KEY_DBG_CHAL_LO then
    some (if s.inDebug || s.dbgSlot == 0 then 0 else (s.geode.challenge.map fun (c : BitVec 64) => BitVec.ofNat 32 c.toNat).getD 0)
  else if a = Reg.KEY_DBG_CHAL_HI then
    some (if s.inDebug || s.dbgSlot == 0 then 0 else (s.geode.challenge.map fun (c : BitVec 64) => BitVec.ofNat 32 (c.toNat / 2 ^ 32)).getD 0)
  else none

/-- SEC_PORT_SA: the transmit association in use, the installed one, and two receive associations (Table GEO-8). -/
def State.portSa (s : State) (p : LinkPort) : Word :=
  let tx := s.assocsOf p true
  let rx := (s.assocsOf p false).map (·.sa.toNat)
  fields [(0, ((tx.find? (·.inUse)).map (·.sa.toNat)).getD 0), (8, ((tx.find? fun x => !x.inUse).map (·.sa.toNat)).getD 0),
    (16, rx.getD 0 0), (24, rx.getD 1 0)]

/-- SEC_IMG: programmed, revoked, and the stored position in use with VALID (Table GEO-8). -/
def State.secImg (s : State) : Word :=
  fields [(0, maskNat 4 fun i => (s.geode.fuses[i]?.map Option.isSome).getD false), (4, s.geode.revokedNext.toNat),
    (8, s.fld Reg.SEC_IMG 10 8)]

/-- The SEC block. -/
def State.viewSec (s : State) (a : Nat) : Option Word :=
  if a = Reg.SEC_IMG then some s.secImg
  else if a = Reg.SEC_FUSE_CMD then some (withBits (s.reg a) 31 31 (b2n s.geode.fuseOp.isSome))
  else
    let p : LinkPort := ⟨(a - 0x140100) / 0x40 % 20, Nat.mod_lt _ (by decide)⟩
    let ctr := ((s.txAssoc p).map fun x => x.ctr).getD 0
    if a = Reg.SEC_PORT_SA p.val then some (s.portSa p)
    else if a = Reg.SEC_PORT_STATUS p.val then
      some (fields [(0, b2n (s.gcmEngine p).isSome), (1, (s.gcmEngine p).getD 0),
        (4, b2n (s.geode.assocs.any fun x => x.port == p && x.stopped))])
    else if a = Reg.SEC_TX_CTR_LO p.val then some (ctr.setWidth 32)
    else if a = Reg.SEC_TX_CTR_HI p.val then some ((ctr >>> 32).setWidth 32)
    else none

/-! ## Start-up, power -/

/-- The BOOT block. -/
def State.viewBoot (s : State) (a : Nat) : Option Word :=
  if a = Reg.BOOT_FL_CMD then some (busyWord s.boot.flashOp.isSome)
  else if a = Reg.BOOT_FL_INFO then
    some ((s.boot.sfdp.map fun f => fields [(0, f.log2.toNat), (5, b2n (f.quad && s.bootSrc == 0)), (6, b2n (decide (24 < f.log2.toNat)))]).getD 0)
  else none

/-- The code of a power state in PWR_STATE; a request on its way from LAYOVER shows ENTERING (Table PWR-10). -/
def State.pwrCode (s : State) : Nat :=
  match s.pwr.state with
  | .active => 0
  | .entering => 1
  | .rollback => 2
  | .layover => if s.pwr.target = 0 then 3 else 1
  | .waking => 4
  | .dormant => 0
  | .cutoff => 0

/-- The PWR block. -/
def State.viewPwr (s : State) (a : Nat) : Option Word :=
  if a = Reg.PWR_STATE then
    some (fields [(0, s.pwrCode), (3, s.pwr.target.toNat), (5, s.pwr.step), (8, s.pwr.ap)])
  else if a = Reg.PWR_LATCH then some (fields [(0, s.pwr.latch.toNat)])
  else if a = Reg.PWR_STATUS then some (withBits (s.reg a) 1 1 (b2n s.pwr.save.isSome))
  else none

/-- The AVS block. -/
def State.viewAvs (s : State) (a : Nat) : Option Word :=
  if a = Reg.AVS_STATUS then
    some (withBits (withBits (s.reg a) 22 22 (b2n (s.headroom == 0 && decide (s.fld Reg.AVS_MARGIN 11 0 < s.fld Reg.AVS_CFG2 7 0)))) 23 23
      (b2n s.pwr.pgood))
  else if a = Reg.AVS_MARGIN then some (withBits (s.reg a) 26 17 s.headroom)
  else none

/-! ## USB, PD, monitors, log -/

/-- USB_STATUS with the bits that show other state (Table USB-10). -/
def State.usbStatus (s : State) : Word :=
  let w := s.reg Reg.USB_STATUS
  fields [(0, bitsOf w 3 0), (4, b2n s.usb.configured), (5, b2n (!(s.mode == .service))), (6, b2n s.usb.mfOn),
    (7, bitsOf w 11 7), (12, maskNat 4 fun i => s.vbusOn (Fin.ofNat 4 i)), (16, s.usb.conn.toNat), (20, bitsOf w 20 20)]

/-- The USB block. -/
def State.viewUsb (s : State) (a : Nat) : Option Word :=
  if a = Reg.USB_STATUS then some s.usbStatus
  else if a = Reg.USB_MF_SESSION then some s.mfSessionWord
  else none

/-- The code of a Type-C state (Table USB-12). -/
def TypeC.code : TypeC → Nat
  | .unattached => 0
  | .attachWait => 1
  | .attached => 2
  | .errorRecovery => 3
  | .held => 4

/-- PD_PORT_STATUS (Table USB-12). -/
def State.pdStatus (s : State) (k : PdPort) : Word :=
  let x := s.pd[k]
  fields [(0, x.tc.code), (3, b2n (x.cc2 && x.tc == .attached)), (4, b2n x.source), (5, b2n x.dfp),
    (6, b2n x.contract.isSome), (7, b2n x.partner), (8, if k.val = 0 ∧ x.source = false then x.rpSeen.toNat else 0),
    (10, b2n x.transition.isSome), (11, b2n x.swap), (12, b2n (k.val == 0 && x.deadBatt)), (13, b2n x.disch),
    (14, b2n x.dischFault), (15, b2n (k.val != 0 && x.oc)), (16, x.rev.toNat)]

/-- PD_CONTRACT (Table USB-11). -/
def State.pdContract (s : State) (k : PdPort) : Word :=
  match s.pd[k].contract with
  | none => 0
  | some c => fields [(0, c.pos.toNat), (3, c.cur.toNat), (13, c.volt.toNat), (23, b2n c.mismatch)]

/-- The PD block. -/
def State.viewPd (s : State) (a : Nat) : Option Word :=
  let k : PdPort := ⟨(a - 0x190100) / 0x80 % 3, Nat.mod_lt _ (by decide)⟩
  if a = Reg.PD_PORT_STATUS k.val then some (s.pdStatus k)
  else if a = Reg.PD_CONTRACT k.val then some (s.pdContract k)
  else if a = Reg.PD_SRC_PDO 0 0 ∨ a = Reg.PD_SRC_PDO 0 1 ∨ a = Reg.PD_SRC_PDO 0 2 ∨ a = Reg.PD_SRC_PDO 0 3 then some 0
  else none

/-- The hottest valid channel of T0-T8, the lowest-numbered of equals (Table MON-5). -/
def hottest (mon : Vector Channel 55) : List ChannelIx → Option ChannelIx → Option ChannelIx
  | [], b => b
  | c :: rest, none => hottest mon rest (if mon[c].valid then some c else none)
  | c :: rest, some b => hottest mon rest (if mon[c].valid && decide (mon[b].code.toNat < mon[c].code.toNat) then some c else some b)

/-- MON_STATUS (Table MON-5). -/
def State.monStatus (s : State) : Word :=
  let h := hottest s.mon ((List.finRange 55).filter fun c => decide (c.val ≤ 8)) none
  fields [(0, b2n ((List.finRange 55).any fun c => s.mon[c].warn)), (1, b2n ((List.finRange 55).any fun c => s.mon[c].crit)),
    (2, s.fld Reg.MON_STATUS 2 2), (3, (h.map fun c => s.mon[c].code.toNat).getD 0), (15, (h.map (·.val)).getD 0)]

/-- The MON block. -/
def State.viewMon (s : State) (a : Nat) : Option Word :=
  if a = Reg.MON_STATUS then some s.monStatus
  else
    let c : ChannelIx := ⟨(a - 0x1A0100) / 4 % 55, Nat.mod_lt _ (by decide)⟩
    if a = Reg.MON_READ c.val then
      let x := s.mon[c]
      some (if x.valid then fields [(0, x.code.toNat), (12, b2n x.warn), (13, b2n x.crit), (14, 1)] else 0)
    else none

/-- The LOG block. -/
def State.viewLog (s : State) (a : Nat) : Option Word :=
  if a = Reg.LOG_PUT_CMD then some (busyWord (!s.log.putBy.isEmpty)) else none

/-! ## Reads -/

/-- What a register shows of other state, by the master that reads it. -/
def State.view? (s : State) (m : Master) (a : Nat) : Option Word :=
  match a / 0x10000 with
  | 0x00 => s.viewGlb m a
  | 0x01 => s.viewBeat a
  | 0x02 => s.viewLane a
  | 0x04 => s.viewTrk a
  | 0x05 => s.viewLoc a
  | 0x06 => s.viewTopo a
  | 0x08 => s.viewTun a
  | 0x0A => s.viewCav a
  | 0x0B => s.viewSump a
  | 0x0C => s.viewSched a
  | 0x0D => s.viewPol m a
  | 0x0E => s.viewDep a
  | 0x10 => s.viewEng a
  | 0x11 => s.viewCol m a
  | 0x12 => s.viewMpu m a
  | 0x13 => s.viewKey m a
  | 0x14 => s.viewSec a
  | 0x15 => s.viewBoot a
  | 0x16 => s.viewPwr a
  | 0x17 => s.viewAvs a
  | 0x18 => s.viewUsb a
  | 0x19 => s.viewPd a
  | 0x1A => s.viewMon a
  | 0x1B => s.viewCnt a
  | 0x1C => s.viewLog a
  | _ => none

/-- The key of the copy of a register that a master reaches (R276). -/
def regKey (r : RegRow) (m : Master) (a : Nat) : Nat := if r.perMaster then pmKey m a else a

/-- The word a master reads at the address of a register (Table REG-2). -/
def State.readReg (s : State) (m : Master) (a : Nat) : Word :=
  match s.view? m a with
  | some w => w
  | none =>
    match regRow a with
    | some r => s.reg (regKey r m a)
    | none => 0

end Sys2Proof.Machine
end

