-- ==== Sys2Proof/Machine/Writes.lean ====
section
/-! DEFINITION. Machine/Writes.lean: what a register write does beyond storing its fields (chapters 02 to 16): commands, fields
whose change acts at once, fields that only go one way. `State.wrote` finds the action by the address. -/

namespace Sys2Proof.Machine

open Sys2Proof

/-! ## Unlocking (R285-R289) -/

/-- The unlock key. -/
def unlockKey : Word := 0x7A5C1E09

/-- The unlock state of a master set, but for masters 0x04 and 0x09, whose writes change no master's (R290). -/
def State.setUnlock (s : State) (m : Master) (u : Option Nat) : State :=
  if m.val = 4 ∨ m.val = 9 then s else { s with acc := { s.acc with unlock := vset s.acc.unlock m u } }

/-- A write of GLB_UNLOCK arms or disarms its master (R285). -/
def State.writeUnlock (s : State) (m : Master) (w : Word) : State :=
  if w = unlockKey then s.setUnlock m (some 0) else (s.setUnlock m none).count Reg.GLB_UNLOCK_FAIL

/-- The boot sequencer and the restore engine need no arming (R290). -/
def State.armed (s : State) (m : Master) : Bool := m.val == 4 || m.val == 9 || s.unlocked m

/-- A write spends its master's arming, but for masters 0x04 and 0x09 (R287, R290). -/
def State.spend (s : State) (m : Master) : State := s.setUnlock m none

/-! ## Lanes and ports -/

/-- LANE_LOOP written: an allowed combination acts, any other leaves the last one; REQ_PARTNER starts or releases the partner's
loop (R81-R83). -/
def State.loopWritten (s : State) (l : LaneIx) (old new : Word) : State :=
  let v := bitsOf new 2 0
  let p := s.portOfLane l
  let s1 := if loopOk v then s.modLane l fun x => { x with loop := BitVec.ofNat 3 v } else s
  let ask := new.getLsbD 4 && !old.getLsbD 4
  let free := old.getLsbD 4 && !new.getLsbD 4
  let s2 :=
    if ask && s1.isTvl p then s1.modLane l fun x => { x with lpbkHeads := some s1.heads }
    else if free && s1.isTvl p then
      ((s1.modLane l fun x => { x with lpbkHeads := none }).setBit (Reg.LANE_LOOP l.val) 5 false).emit
        (.lpbk p 0 (BitVec.ofNat 4 (2 ^ s1.laneIndex l)))
    else s1
  if s.loopActive l == s2.loopActive l then s2 else s2.loopChanged l

/-- LANE_TEST written: a consistent pair of GEN and CHK acts, with 0b11 in either the last one stays (R298, R299). A checker that changes
synchronises anew, and the lane leaves or may rejoin its port (R84, R85). -/
def State.testWritten (s : State) (l : LaneIx) (new : Word) : State :=
  let g := bitsOf new 1 0
  let c := bitsOf new 3 2
  if g = 3 ∨ c = 3 then s
  else
    let s1 := s.modLane l fun x =>
      { x with
        gen := BitVec.ofNat 2 g
        chk := BitVec.ofNat 2 c
        prbsGood := if x.chk.toNat = c then x.prbsGood else 0
        prbsHist := if x.chk.toNat = c then x.prbsHist else 0 }
    if s.patternOn l == s1.patternOn l then s1 else s1.loopChanged l

/-- TRK_CFG written: EN = 0 takes the port to DOWN with link loss (Table CPL-1, R103). -/
def State.trkCfgWritten (s : State) (t : TrunkPort) (new : Word) : State :=
  if new.getLsbD 0 then s
  else if s.ports[trunk t].stage = .down then s.linkLoss (trunk t)
  else s.portDown (trunk t)

/-- LANE_TREND_CLR written: the named lanes clear at the next second tick (R90). -/
def State.trendClrWritten (s : State) (w : Word) : State :=
  s.over (List.finRange 32) fun s l => if w.getLsbD l.val then s.modLane l fun x => { x with trendClear := true } else s

/-! ## Beat -/

/-- BEAT_ROLE written: PRIO follows ACTIVE_CAB by Table BEA-2, and the election is evaluated anew (R30, R31). -/
def State.roleWritten (s : State) : State :=
  let role := s.fld Reg.BEAT_ROLE 9 8
  let cab := s.bit Reg.BEAT_ROLE 0
  let prio := if role = 1 then (if cab then 0 else 1) else if role = 2 then (if cab then 0 else 2) else if role = 0 then 3 else 4
  s.viewing fun s => s.setFld Reg.BEAT_ROLE 7 4 prio

/-! ## Snapshots (R291-R296) -/

/-- A release hands the frozen bank to the hub, which begins to clear it (R295). -/
def State.releaseBank (s : State) : State :=
  if s.bit Reg.CNT_SNAP_STATUS 2 && !s.bit Reg.CNT_SNAP_STATUS 3 then
    (s.setBit Reg.CNT_SNAP_STATUS 2 false).setBit Reg.CNT_SNAP_STATUS 3 true
  else s

/-- A snapshot request: it joins a pending one, is refused while the other bank is frozen or being cleared, or stands until the
next head (R291, R292, R296). -/
def State.requestSnap (s : State) : State :=
  if s.acc.snapPending then s.setBit Reg.CNT_SNAP_STATUS 4 false
  else if s.sumpReady && (s.bit Reg.CNT_SNAP_STATUS 2 || s.bit Reg.CNT_SNAP_STATUS 3) then
    (s.setBit Reg.CNT_SNAP_STATUS 4 true).count Reg.CNT_SNAP_REFUSED
  else
    ((({ s with acc := { s.acc with snapPending := true } } : State).setBit Reg.CNT_SNAP_STATUS 0 false).setBit
      Reg.CNT_SNAP_STATUS 4 false)

/-- CNT_SNAP_CMD written: RELEASE acts first (R296). -/
def State.snapWritten (s : State) (w : Word) : State :=
  let s1 := if w.getLsbD 1 then s.releaseBank else s
  if w.getLsbD 0 then s1.requestSnap else s1

/-! ## Columns, Geode -/

/-- COL_CFG written: C3_EN = 0 holds Column 3 in reset; set again, a loaded Column 3 runs from the next head (R268, Table
ENC-7). -/
def State.colCfgWritten (s : State) : State :=
  let c : ColumnIx := 3
  let x := s.eng.columns[c]
  if !s.bit Reg.COL_CFG 8 then
    (if x.state = .failed then s
     else s.modColumn c fun y => { y with state := .reset, ready := false, ovr := 0, outstanding := none, late := false, copyDone := false })
  else if x.loaded && x.state == .reset && decide (4 ≤ s.fld Reg.BOOT_STATUS 2 0) then
    s.modColumn c fun y => { y with state := .running }
  else s

/-- A register whose bits can only be set keeps those that stood (R324). -/
def State.keepSet (s : State) (a : Nat) (old : Word) : State := s.setReg a (s.reg a ||| old)

/-- A register whose value can only rise keeps the higher one (Table PWR-12). -/
def State.keepHigher (s : State) (a : Nat) (old : Word) : State := if s.reg a < old then s.setReg a old else s

/-! ## Start-up -/

/-- BOOT_STG_DATA written: the word goes to the staging buffer and BOOT_STG_ADDR advances, wrapping (Table BOT-12). Of an alias
write the word is that of the bits it changes, zeros elsewhere (DESIGN CHOICE, log 137). -/
def State.stageWord (s : State) (w : Word) : State :=
  let a := s.fld Reg.BOOT_STG_ADDR 22 2 * 4
  let put (l : List Host.Cell) (x : Nat × Byte) : List Host.Cell := Store.set Flash.blank x.1 x.2 l
  let bs := (List.range 4).zip (leBytes 4 w.toNat)
  ({ s with boot := { s.boot with staging := bs.foldl (fun l x => put l (a + x.1, x.2)) s.boot.staging } } : State).setRegN
    Reg.BOOT_STG_ADDR ((a + 4) % 0x800000)

/-- The page number in its copy, and the copy, of a master's BOOT_FL_ADDR. -/
def State.flPage (s : State) (m : Master) : Nat × Bool :=
  (s.fld (pmKey m Reg.BOOT_FL_ADDR) 27 8, s.bit (pmKey m Reg.BOOT_FL_ADDR) 28)

/-- The pages of a copy: half the device (R351). -/
def State.copyPages (s : State) : Nat := s.flashHalf / 256

/-- The active copy: in RUN the copy in use (R374); in SERVICE the first candidate (Table BOT-12, log 53). -/
def State.activeCopy (s : State) : Option Bool :=
  match s.boot.chosen with
  | some 0 => some false
  | some 1 => some true
  | _ => none

/-- What BOOT_FL_CMD answers before it starts an operation, 0 where it starts (Table BOT-12, R374): the lowest code. -/
def State.flashCode (s : State) (m : Master) (op : Nat) : Nat :=
  let (page, copyB) := s.flPage m
  if ((s.mode == .run || s.mode == .service) && s.activeCopy == some copyB && decide (op < 5)) then 2
  else if op ≠ 1 ∧ op ≠ 4 ∧ op < 5 ∧ s.copyPages ≤ page then 3
  else if s.boot.flashOp.any (fun o => o.master != m) then 4
  else if s.boot.sfdp.isNone then 5
  else if 5 ≤ op then 7
  else 0

/-- BOOT_FL_CMD written: one operation at a time for the whole hub (R374). A flash command on the copy not in use ends
INACT_OK (Table BOT-13). -/
def State.flashCommand (s : State) (m : Master) (op : Nat) : State :=
  if op = 0 then s
  else
    let code := s.flashCode m op
    if code ≠ 0 then
      (let s1 := s.setRegN (pmKey m Reg.BOOT_FL_RESULT) code
       if code = 5 then s1.count Reg.BOOT_FL_ERR else s1)
    else
      let (page, copyB) := s.flPage m
      let s1 := if s.activeCopy == some copyB then s else s.setBit Reg.BOOT_STATUS 10 false
      { s1 with boot := { s1.boot with flashOp := some { master := m, op := BitVec.ofNat 3 op, copyB := copyB, page := page } } }

/-! ## The action of a write, by block -/

/-- BEAT and TOPO: a change of the own record by TOPO_CFG is a change of the view (R110, R111). -/
def State.wroteBeat (s : State) (m : Master) (a : Nat) (old data : Word) : State :=
  if a = Reg.BEAT_ROLE then s.roleWritten
  else if a = Reg.BEAT_CMT_CMD then s.commitCommand m data
  else if a = Reg.TOPO_CFG then (s.setReg Reg.TOPO_CFG old).viewing fun x => x.setReg Reg.TOPO_CFG (s.reg Reg.TOPO_CFG)
  else if a = Reg.TOPO_HUB_SEL then s.copyHub
  else s

/-- LANE. -/
def State.wroteLane (s : State) (a : Nat) (old new data : Word) : State :=
  if a = Reg.LANE_TREND_CLR then s.trendClrWritten data
  else
    let l : LaneIx := ⟨(a - 0x20000) / 0x400 % 32, Nat.mod_lt _ (by decide)⟩
    if a = Reg.LANE_LOOP l.val then s.loopWritten l old new
    else if a = Reg.LANE_TEST l.val then s.testWritten l new
    else s

/-- TRK and LOC. -/
def State.wrotePort (s : State) (a : Nat) (new : Word) : State :=
  let t : TrunkPort := ⟨(a - 0x40000) / 0x400 % 4, Nat.mod_lt _ (by decide)⟩
  if a = Reg.TRK_CFG t.val then s.trkCfgWritten t new else s.evaluate a

/-- TUN. -/
def State.wroteTun (s : State) (m : Master) (a : Nat) (data : Word) : State :=
  if a = Reg.TUN_EP_CMD then s.epCommand m (bitsOf data 3 0)
  else if a = Reg.TUN_MAP_CMD then s.mapCommand m (bitsOf data 1 0)
  else s

/-- SUMP: training does not start in the limited RUN (R397). -/
def State.wroteSump (s : State) (a : Nat) (data : Word) : State :=
  if a = Reg.SUMP_TRAIN then (if data.getLsbD 0 && !s.bit Reg.GLB_MODE 3 then s.startTraining else s)
  else if a = Reg.SUMP_UE_POP then { s with cav := { s.cav with ueFifo := s.cav.ueFifo.drop 1 } }
  else s

/-- A gate list written before any beat counts will have anchor 0 (R207). -/
def State.wroteGate (s : State) (p : Nat) : State :=
  let g := BitVec.ofNat 8 p
  let rest := s.beat.shadowDirty.filter fun x => x != g
  { s with beat := { s.beat with shadowDirty := if s.beatNum = 0 then g :: rest else rest } }

/-- The port whose gate-list shadow an address holds. -/
def gateOfAddr (a : Nat) : Option Nat :=
  if 0xC0100 ≤ a ∧ a < 0xC0100 + 21 * 0x40 ∧ (a - 0xC0100) % 0x40 = 0 then some ((a - 0xC0100) / 0x40)
  else if 0xC6000 ≤ a ∧ a < 0xC6000 + 21 * 0x200 then some ((a - 0xC6000) / 0x200)
  else none

/-- SCHED. -/
def State.wroteSched (s : State) (a : Nat) : State :=
  match gateOfAddr a with
  | some p => s.wroteGate p
  | none => s

/-- POL: the profile window of the writing master. -/
def State.wrotePol (s : State) (m : Master) (a : Nat) (new : Word) : State :=
  match idx Reg.POL_PRF_CIR 4 4 a with
  | none => s
  | some i =>
    let k := s.profileSel m
    let zero : RateSet := { cir := 0, cbs := 0, pir := 0, pbs := 0 }
    { s with sched := { s.sched with
        profShadow := Store.set (fun _ => zero) k ((rateAt s.sched.profShadow k).withWord i new) s.sched.profShadow } }

/-- ENG and COL. -/
def State.wroteEng (s : State) (m : Master) (a : Nat) (data : Word) : State :=
  if a = Reg.ENG_CMD then s.engCommand m data
  else if a = Reg.COL_TREQ_CMD then s.treqCommand m data
  else if a = Reg.COL_CFG then s.colCfgWritten
  else s

/-- GLB, CNT and MPU. -/
def State.wroteAcc (s : State) (m : Master) (a : Nat) (old new data : Word) : State :=
  if a = Reg.GLB_UNLOCK then s.writeUnlock m data
  else if a = Reg.CNT_SNAP_CMD then s.snapWritten data
  else if a = Reg.MPU_SYNC then s.startBarrier m
  else if a = Reg.MPU_FAULT_POP then s.popFault
  else if a = Reg.MPU_CFG then s.keepSet a old
  else if isRegion a then s.changeRule a new
  else s

/-- KEY and SEC. -/
def State.wroteGeo (s : State) (m : Master) (a : Nat) (old data : Word) : State :=
  if a = Reg.KEY_CMD then s.acceptKey m data false
  else if a = Reg.KEY_ROOT_CMD then s.acceptKey m data true
  else if a = Reg.KEY_TAMPER_CFG then s.keepSet a old
  else if a = Reg.SEC_FUSE_CMD then s.fuseCommand data
  else s

/-- BOOT. -/
def State.wroteBoot (s : State) (m : Master) (a : Nat) (data : Word) : State :=
  if a = Reg.BOOT_CMD then s.bootCommand m (bitsOf data 2 0)
  else if a = Reg.BOOT_FL_CMD then s.flashCommand m (bitsOf data 2 0)
  else if a = Reg.BOOT_STG_DATA then s.stageWord data
  else s

/-- PWR and AVS. -/
def State.wrotePwr (s : State) (m : Master) (a : Nat) (old new data : Word) : State :=
  if a = Reg.PWR_REQ then s.writeRequest m (bitsOf data 1 0)
  else if a = Reg.PWR_ASK then s.writeAsk m (bitsOf new 1 0)
  else if a = Reg.AVS_TARGET then (if m = 0 then s.writeTarget else s.startStepping)
  else if a = Reg.AVS_AGE then s.keepHigher a old
  else s

/-- USB, PD and LOG. PD_SRC_PDO of UP reads 0 and ignores writes (Table USB-11); a change of one of DN1 or DN2 is offered at the next head
(R417), and a level of Rp is presented at once (R414). -/
def State.wroteUsb (s : State) (m : Master) (a : Nat) (old : Word) : State :=
  if a = Reg.USB_CFG ∨ a = Reg.USB_MF_CFG then s.sessionConfig
  else if a = Reg.LOG_RD_ADDR then s.copyRecord m
  else if a = Reg.LOG_PUT_CMD then s.putRecord m
  else if (idx (Reg.PD_SRC_PDO 0 0) 4 4 a).isSome then s.setReg a old
  else if (idx (Reg.PD_SRC_PDO 1 0) 4 4 a).isSome then (if s.reg a = old then s else s.notePdo 1)
  else if (idx (Reg.PD_SRC_PDO 2 0) 4 4 a).isSome then (if s.reg a = old then s else s.notePdo 2)
  else if a = Reg.PD_PORT_CFG 1 ∧ s.pd[(1 : PdPort)].tc = .attached then s.showRp 1
  else if a = Reg.PD_PORT_CFG 2 ∧ s.pd[(2 : PdPort)].tc = .attached then s.showRp 2
  else s

/-- What a write does beyond storing its fields: `old` and `new` are the stored words before and after it, `data` the written
word. -/
def State.wrote (s : State) (m : Master) (a : Nat) (old new data : Word) : State :=
  match a / 0x10000 with
  | 0x00 => s.wroteAcc m a old new data
  | 0x01 => s.wroteBeat m a old data
  | 0x02 => s.wroteLane a old new data
  | 0x04 => s.wrotePort a new
  | 0x05 => s.wrotePort a new
  | 0x06 => s.wroteBeat m a old data
  | 0x08 => s.wroteTun m a data
  | 0x0A => s.evaluate a
  | 0x0B => s.wroteSump a data
  | 0x0C => s.wroteSched a
  | 0x0D => s.wrotePol m a new
  | 0x10 => s.wroteEng m a data
  | 0x11 => s.wroteEng m a data
  | 0x12 => s.wroteAcc m a old new data
  | 0x13 => s.wroteGeo m a old data
  | 0x14 => s.wroteGeo m a old data
  | 0x15 => s.wroteBoot m a data
  | 0x16 => s.wrotePwr m a old new data
  | 0x17 => s.wrotePwr m a old new data
  | 0x18 => s.wroteUsb m a old
  | 0x19 => s.wroteUsb m a old
  | 0x1B => s.wroteAcc m a old new data
  | 0x1C => s.wroteUsb m a old
  | _ => s

end Sys2Proof.Machine
end

