-- ==== Sys2Proof/Machine/Access.lean ====
section
/-! DEFINITION. Machine/Access.lean: an access to the address space, from the check of access protection to its target (R137,
R237, R269-R288, R300-R316, R465-R468). -/

namespace Sys2Proof.Machine

open Sys2Proof

/-- What a master gets back: `half` are the data of a split 64-bit read of which one half answered with a bus error and zero data (R270,
R272). -/
inductive Answer where
  | data (bytes : List Byte)
  | half (bytes : List Byte)
  | done
  | busError
  | refused
deriving DecidableEq, Repr

/-- A bus error counted and recorded with its cause (R270, Table REG-8). -/
def State.busError (s : State) (m : Master) (addr : Nat) (write : Bool) (cause : Nat) : State :=
  ((s.count Reg.GLB_BUS_ERR).setRegN Reg.GLB_BUS_ERR_LAST_LO (addr % 2 ^ 32)).setReg Reg.GLB_BUS_ERR_LAST_HI
    (fields [(0, addr / 2 ^ 32 % 256), (8, m.val), (14, b2n write), (15, cause), (19, 1)])

/-! ## Counters and holding registers (R278, R280, R293) -/

/-- A counter stands at a register address. -/
def isCounter (a : Nat) : Bool := (regRow a).any fun r => r.has .cnt

/-- The _HI word of a 48-bit counter. -/
def isHi48 (a : Nat) : Bool := (regRow a).any fun r => r.bits .cnt == 0xFFFF

/-- The _LO word of a 48-bit counter. -/
def isLo48 (a : Nat) : Bool := (regRow a).any (fun r => r.bits .cnt == 0xFFFFFFFF) && isHi48 (a + 4)

/-- The address of the counter whose holding register covers an address of the window, if one does (R293, R467). -/
def heldCounter (a : Nat) : Option Nat :=
  if 0x800000 ≤ a ∧ a < 0x1000000 then
    let c := (a - 0x800000) / 8 * 4
    if isCounter c then some c else none
  else none

/-- A counter's word in the snapshot. -/
def State.snapWord (s : State) (c : Nat) : Word := Store.get (fun _ => 0) s.acc.snap c

/-- A word of the holding window. -/
def State.holdWord (s : State) (a c : Nat) : Word :=
  if a / 4 % 2 = 0 then (if isHi48 c then 0 else s.snapWord c)
  else if isLo48 c then s.snapWord (c + 4) else 0

/-- Any register access ends a master's capture; the matching _HI read that does so returns it first (R280, R281). -/
def State.endCapture (s : State) (m : Master) : State := { s with acc := { s.acc with capture := vset s.acc.capture m none } }

/-! ## Reads -/

/-- A block's own rule refuses an access to its register (cause 8): the KEY block for user masters, the profile window without
a profile, locked rules, staging outside RECOVERY, LOG_PUT_CMD for user masters (R319, R330, R436, Tables SCH-7, BOT-12). -/
def State.ownRule (s : State) (m : Master) (a : Nat) (write : Bool) : Bool :=
  (!Master.privileged m && a / 0x10000 == 0x13) ||
  (((idx Reg.POL_PRF_CIR 4 4 a).isSome || (idx Reg.POL_PRF_CIR_ACT 4 4 a).isSome) && s.profileSel m == 0) ||
  (write && (s.rulesLocked m a || (a == Reg.BOOT_STG_DATA && s.mode != .recovery) ||
    (a == Reg.LOG_PUT_CMD && !Master.privileged m)))

/-- The bytes of a word that an access reads, in their lanes (Table REG-1). -/
def laneBytes (w : Word) (addr size : Nat) : List Byte :=
  if 4 ≤ size then leBytes 4 w.toNat
  else leBytes 4 (nbits w.toNat (8 * (addr % 4 + size) - 1) (8 * (addr % 4)) * 2 ^ (8 * (addr % 4)))

/-- A direct read of up to 32 bits. -/
def State.readDirect (s : State) (m : Master) (addr size : Nat) : State × Answer :=
  let a := addr / 4 * 4
  let cap := s.acc.capture[m]
  let held := match cap with
    | some (h, v) => if h = a then some v else none
    | none => none
  let s1 := s.endCapture m
  match regRow a with
  | some _ =>
    if s1.ownRule m a false then (s1.busError m addr false 8, .busError)
    else
      let w := match held with
        | some v => v.setWidth 32
        | none => s1.readReg m a
      let s2 := if isLo48 a then
          { s1 with acc := { s1.acc with capture := vset s1.acc.capture m (some (a + 4, BitVec.ofNat 16 (s1.fld (a + 4) 15 0))) } }
        else s1
      (s2, .data (laneBytes w addr size))
  | none =>
    match heldCounter a with
    | some c => (s1, .data (laneBytes (s1.holdWord a c) addr size))
    | none => (s1.busError m addr false 0, .busError)

/-! ## Writes (R274, R283, R285-R288) -/

/-- The commit group whose shadow an address holds (Table BEA-6). -/
def shadowGroup (a : Nat) : Option Nat :=
  match gateOfAddr a with
  | some p => some p
  | none =>
    if 0x20000 ≤ a ∧ a < 0x28000 ∧ a % 0x400 = 0 then some (0x50 + (a - 0x20000) / 0x400)
    else if 0xC1000 ≤ a ∧ a < 0xC1000 + 21 * 0x100 then some (0x20 + (a - 0xC1000) / 0x100)
    else if (idx Reg.POL_PRF_CIR 4 4 a).isSome then some 0x40
    else if 0xD0100 ≤ a ∧ a < 0xD0200 then some 0x41
    else none

/-- The register reads BUSY = 1 to a command of this master; a write to CNT_SNAP_CMD is never refused, and a flash command of a
second master is answered OTHER (Table REG-10, R374). -/
def State.cmdBusy (s : State) (m : Master) (a : Nat) : Bool :=
  if a = Reg.CNT_SNAP_CMD ∨ a = Reg.GLB_UNLOCK then false
  else if a = Reg.BOOT_FL_CMD then s.boot.flashOp.any fun o => o.master == m
  else if a = Reg.PWR_REQ then s.bit Reg.PWR_REQ 31
  else (s.readReg m a).getLsbD 31

/-- The cause of the first of the target's own rules that a write breaks, in the order of R468. `bits` are the bits written. -/
def State.writeCause (s : State) (m : Master) (r : RegRow) (a bits : Nat) (armed : Bool) : Option Nat :=
  if r.bits .grd &&& bits ≠ 0 ∧ armed = false then some 5
  else if r.bits .shd &&& bits ≠ 0 ∧ ((shadowGroup a).any fun g => (s.pendingCommit g).isSome) = true then some 6
  else if r.has .cmd && s.cmdBusy m a then some 7
  else if s.ownRule m a true then some 8
  else none

/-- The bits of a register that a write stores: CTL, SHD, GRD, FEN, and in TEST its counters (Table REG-2). -/
def State.storedBits (s : State) (r : RegRow) : Nat :=
  r.bits .ctl ||| r.bits .shd ||| r.bits .grd ||| r.bits .fen ||| (if s.mode = .test then r.bits .cnt else 0)

/-- The profile window has no store of its own. -/
def inWindow (a : Nat) : Bool := (idx Reg.POL_PRF_CIR 4 4 a).isSome

/-- A write that its target accepts: the fields of `bits` take their values from `data`, and what the write does beyond
that (R274). -/
def State.writeFields (s : State) (m : Master) (r : RegRow) (a bits : Nat) (data : Word) : State :=
  let k := regKey r m a
  let old := if inWindow a then s.readReg m a else s.reg k
  let mask := BitVec.ofNat 32 (s.storedBits r &&& bits)
  let new := (old &&& ~~~mask) ||| (data &&& mask)
  let s1 := if inWindow a then s else s.setReg k new
  s1.wrote m a old new (data &&& BitVec.ofNat 32 bits)

/-- A write refused by its target's own rules, or made. -/
def State.tryWrite (s : State) (m : Master) (r : RegRow) (addr a bits : Nat) (data : Word) (armed : Bool) : State × Answer :=
  match s.writeCause m r a bits armed with
  | some c =>
    let s1 := if c = 5 then s.count Reg.GLB_GRD_DENY else s
    (s1.busError m addr true c, .busError)
  | none => (s.writeFields m r a bits data, .done)

/-- A direct 32-bit write. A write to GLB_UNLOCK never spends an arming; every other one does (R285, R287). A holding
register ignores writes (R293). -/
def State.writeDirect (s : State) (m : Master) (addr : Nat) (data : Word) : State × Answer :=
  let armed := s.armed m
  let s1 := s.endCapture m
  let s2 := if addr = Reg.GLB_UNLOCK then s1 else s1.spend m
  match regRow addr with
  | some r => s2.tryWrite m r addr addr 0xFFFFFFFF data armed
  | none => if (heldCounter addr).isSome then (s2, .done) else (s2.busError m addr true 0, .busError)

/-! ## Aliases (R282-R284) -/

/-- The alias windows. -/
inductive Alias where
  | bit (b : Nat)
  | set
  | clear
  | toggle
deriving DecidableEq, Repr

/-- The alias and register address of an alias address (Table REG-3). -/
def aliasOf (addr : Nat) : Alias × Nat :=
  if 0x100000000 ≤ addr then (.bit ((addr - 0x100000000) / 4 % 32), (addr - 0x100000000) / 128 * 4)
  else if addr < 0x2000000 then (.set, addr - 0x1000000)
  else if addr < 0x3000000 then (.clear, addr - 0x2000000)
  else (.toggle, addr - 0x3000000)

/-- The modes of an alias window (Table REG-3). -/
def State.aliasMode (s : State) : Alias → Bool
  | .bit _ => s.mode == .run
  | _ => s.mode != .run

/-- The bits that an alias write changes and their values (R283). -/
def Alias.change (k : Alias) (cur data : Word) : Nat × Word :=
  match k with
  | .bit b => (2 ^ b, if data.getLsbD 0 then BitVec.ofNat 32 (2 ^ b) else 0)
  | .set => (data.toNat, data)
  | .clear => (data.toNat, 0)
  | .toggle => (data.toNat, ~~~cur &&& data)

/-- A read through an alias of up to 32 bits: it captures nothing (R280, R282). -/
def State.readAlias (s : State) (m : Master) (addr size : Nat) : State × Answer :=
  let s1 := s.endCapture m
  let (k, a) := aliasOf (addr / 4 * 4)
  if (regRow a).isNone then (s1.busError m addr false 4, .busError)
  else if !s1.aliasMode k then (s1.busError m addr false 3, .busError)
  else if s1.ownRule m a false then (s1.busError m addr false 8, .busError)
  else
    let w := s1.readReg m a
    let v : Word := match k with
      | .bit b => if w.getLsbD b then 1 else 0
      | _ => w
    (s1, .data (laneBytes v addr size))

/-- A 32-bit write through an alias (R283). One that changes no bit is still refused under a block's own rule (R468). Every one spends the
arming, that of GLB_UNLOCK's alias too (R287 before R285; DESIGN CHOICE, log 136). -/
def State.writeAlias (s : State) (m : Master) (addr : Nat) (data : Word) : State × Answer :=
  let armed := s.armed m
  let s1 := (s.endCapture m).spend m
  let (k, a) := aliasOf addr
  match regRow a with
  | none => (s1.busError m addr true 4, .busError)
  | some r =>
    if !s1.aliasMode k then (s1.busError m addr true 3, .busError)
    else if r.has .cmd || r.has .pop then (s1.busError m addr true 4, .busError)
    else
      let (bits, v) := k.change (s1.readReg m a) data
      if bits = 0 ∧ s1.writeCause m r a 0 armed = none then (s1, .done) else s1.tryWrite m r addr a bits v armed

/-! ## The register space (R270-R272, R468) -/

/-- One access of up to 32 bits to a register or an alias. -/
def State.regOne (s : State) (m : Master) (write : Bool) (addr size : Nat) (data : Word) : State × Answer :=
  match decide (addr < 0x1000000), write with
  | true, false => s.readDirect m addr size
  | true, true => s.writeDirect m addr data
  | false, false => s.readAlias m addr size
  | false, true => s.writeAlias m addr data

/-- The two answers of a split access, whose halves are independent: the good half's data stand beside the zero data of a half that
answers with a bus error (R270, R272). -/
def joinAnswers : Answer → Answer → Answer
  | .data x, .data y => .data (x ++ y)
  | .data x, .busError => .half (x ++ List.replicate 4 0)
  | .busError, .data y => .half (List.replicate 4 0 ++ y)
  | .done, .done => .done
  | _, _ => .busError

/-- An access that the size and alignment rules refuse still spends the arming of a write and the capture (R281, R287). -/
def State.malformed (s : State) (m : Master) (write : Bool) (addr cause : Nat) : State × Answer :=
  let s1 := s.endCapture m
  let s2 := if write && addr / 4 * 4 != Reg.GLB_UNLOCK then s1.spend m else s1
  (s2.busError m addr write cause, .busError)

/-- An access to the register range or an alias window (Table REG-1, R468). -/
def State.regSpace (s : State) (m : Master) (write : Bool) (addr size data : Nat) : State × Answer :=
  if size ≠ 1 ∧ size ≠ 2 ∧ size ≠ 4 ∧ size ≠ 8 then s.malformed m write addr 1
  else if addr % size ≠ 0 then s.malformed m write addr 2
  else if write && decide (size < 4) then s.malformed m write addr 1
  else if size = 8 then
    let (s1, x) := s.regOne m write addr 4 (BitVec.ofNat 32 data)
    let (s2, y) := s1.regOne m write (addr + 4) 4 (BitVec.ofNat 32 (data / 2 ^ 32))
    (s2, joinAnswers x y)
  else s.regOne m write addr size (BitVec.ofNat 32 data)

/-! ## Memory targets (R144, R183, R190, R259, R465) -/

/-- What stands at an address outside the register space (Table MAP-1). -/
inductive Target where
  | diag
  | tcm (copy : Bool)
  | table
  | counters
  | columns
  | spill
  | nothing
deriving DecidableEq, Repr

/-- The end of fitted Sump, its base where none is fitted (R183, R465). -/
def State.sumpEnd (s : State) : Nat := 0x1000000000 + s.fittedUnits * 256

/-- The target of one byte. -/
def State.targetOf (s : State) (a : Nat) : Target :=
  if 0x200000000 ≤ a ∧ a < 0x204000000 then .diag
  else if 0x300000000 ≤ a ∧ a < 0x300400000 ∧ (a - 0x300000000) % 0x100000 < 0x40000 then
    .tcm (decide (0x20000 ≤ (a - 0x300000000) % 0x100000))
  else if 0x1000000000 ≤ a ∧ a < s.sumpEnd then
    (if a < 0x1080000000 then .table
     else if a < 0x10C0000000 then .counters
     else if a < 0x1100000000 then .columns
     else .spill)
  else .nothing

/-- The bytes of a counter pair (Table SCH-3). -/
def pairBytes (p : BitVec 48 × Word) : List Byte := leBytes 6 p.1.toNat ++ [0, 0] ++ leBytes 4 p.2.toNat ++ [0, 0, 0, 0]

/-- One byte of the counter banks. -/
def State.bankByte (s : State) (a : Nat) : Byte :=
  let o := a - 0x1080000000
  let bank := if o < 0x20000000 then s.cav.countersA else s.cav.countersB
  (pairBytes (Store.get zeroPair bank (o % 0x20000000 / 16))).getD (o % 16) 0

/-- An address of fitted Sump that is not READY, untrained or in self-refresh: the rules state no result of an access there, so a read
returns free values and a write leaves them behind (DESIGN CHOICE, log 142). -/
def State.sumpAsleep (s : State) (a : Nat) : Bool := decide (0x1000000000 ≤ a) && decide (a < s.sumpEnd) && !s.sumpReady

/-- One byte as a read returns it. -/
def State.readByte (s : State) (a : Nat) : Byte :=
  if s.sumpAsleep a then (s.random 64).getD (a % 64) 0
  else
  match s.targetOf a with
  | .table => ((s.tableEntry (BitVec.ofNat 25 ((a - 0x1000000000) / 64))).bytes).getD (a % 64) 0
  | .counters => s.bankByte a
  | _ => s.byte a

/-- The first byte of a read that meets an uncorrectable error: an 8-byte word of the Column region, or a table entry (R184). -/
def State.poisonAt (s : State) (addr size : Nat) : Option Nat :=
  (List.range size).map (addr + ·) |>.find? fun a =>
    match s.targetOf a with
    | .columns => s.cav.poisonCol.contains (a / 8)
    | .table => s.tun.poison.contains (BitVec.ofNat 25 ((a - 0x1000000000) / 64))
    | _ => false

/-- Words of the Column region written whole lose their error. -/
def State.healed (s : State) (addr size : Nat) : State :=
  { s with cav := { s.cav with poisonCol := s.cav.poisonCol.filter fun w => !(decide (addr ≤ 8 * w) && decide (8 * w + 8 ≤ addr + size)) } }

/-- An address of the access at which nothing stands, if there is one (R465). -/
def State.nothingAt (s : State) (addr size : Nat) : Bool :=
  (List.range size).any fun i => s.targetOf (addr + i) == .nothing

/-- A target accepts an access: every byte of a write lies where writes are made, every byte of a read where reads are. -/
def State.targetOk (s : State) (write : Bool) (addr size : Nat) : Bool :=
  (List.range size).all fun i =>
    match s.targetOf (addr + i), write with
    | .diag, w => !w || s.mode == .test
    | .tcm copy, w => !(w && copy)
    | .table, w => !w
    | .counters, w => !w
    | .columns, _ => true
    | .spill, _ => false
    | .nothing, _ => false

/-- An access outside the register space. Only an address at which nothing stands is counted as a bus error (R270, R465). -/
def State.memSpace (s : State) (m : Master) (write : Bool) (addr size : Nat) (data : List Byte) : State × Answer :=
  if s.nothingAt addr size then (s.busError m addr write 0, .busError)
  else if !s.targetOk write addr size then (s, .busError)
  else if s.sumpAsleep addr then
    (if write then (s.drawn.setBytes addr (s.random size), .done) else (s.drawn, .data ((List.range size).map fun i => s.readByte (addr + i))))
  else if write then ((s.setBytes addr (data.take size)).healed addr size, .done)
  else
    match s.poisonAt addr size with
    | some a => (s.sumpError (a / 8 * 8) (if a < 0x1080000000 then 0 else 2), .busError)
    | none => (s, .data ((List.range size).map fun i => s.readByte (addr + i)))

/-! ## Whole accesses -/

/-- The register range and the alias windows. -/
def inRegSpace (a : Nat) : Bool := decide (a < 0x4000000) || (decide (0x100000000 ≤ a) && decide (a < 0x120000000))

/-- An access that access protection lets through. -/
def State.perform (s : State) (m : Master) (write : Bool) (addr size : Nat) (data : List Byte) : State × Answer :=
  if inRegSpace addr then s.regSpace m write addr size (leNat data) else s.memSpace m write addr size data

/-! ## The caches of the Columns (R313) -/

/-- The Column that a master ID names. -/
def Master.column (m : Master) : Option ColumnIx := if h : m.val < 4 then some ⟨m.val, h⟩ else none

/-- The line of a Column's cache that holds an address. -/
def State.colLine (s : State) (c : ColumnIx) (a : Nat) : Option ColLine := s.eng.columns[c].lines.find? fun l => l.line == a / 64

/-- A line put in the place of what a cache holds of it. -/
def State.setColLine (s : State) (c : ColumnIx) (l : ColLine) : State :=
  s.modColumn c fun x => { x with lines := l :: x.lines.filter fun y => y.line != l.line }

/-- A line leaves a cache. -/
def State.dropColLine (s : State) (c : ColumnIx) (n : Nat) : State :=
  s.modColumn c fun x => { x with lines := x.lines.filter fun y => y.line != n }

/-- A line can be filled: it can be read, and its read meets no error. -/
def State.fillable (s : State) (n : Nat) : Bool := s.targetOk false (64 * n) 64 && (s.poisonAt (64 * n) 64).isNone

/-- The line as memory holds it. -/
def State.lineOf (s : State) (n : Nat) : ColLine :=
  { line := n, bytes := (List.range 64).map fun i => s.readByte (64 * n + i), dirty := false }

/-- An access within a line that the cache holds: a write changes the line alone. -/
def State.hitLine (s : State) (c : ColumnIx) (l : ColLine) (write : Bool) (addr : Nat) (size : Nat) (data : List Byte) : State × Answer :=
  let o := addr % 64
  if write then (s.setColLine c { l with bytes := l.bytes.take o ++ data.take size ++ l.bytes.drop (o + size), dirty := true }, .done)
  else (s, .data ((l.bytes.drop o).take size))

/-- An access with CACHE = 1 of a Column within one line. A dirty line is held until it is written back; whether any other line is held,
or is filled now, is a free value (log 102). -/
def State.colAccess (s : State) (m : Master) (c : ColumnIx) (write : Bool) (addr size : Nat) (data : List Byte) : State × Answer :=
  let keep := s.free % 2 == 1
  let s1 := s.drawn
  match s1.colLine c addr with
  | some l => if l.dirty || keep then (if write && !s1.targetOk true addr size then (s1, .busError) else s1.hitLine c l write addr size data)
    else (s1.dropColLine c l.line).memSpace m write addr size data
  | none =>
    if keep && s1.fillable (addr / 64) && s1.targetOk write addr size then
      (s1.drawn.setColLine c (s1.lineOf (addr / 64))).hitLine c (s1.lineOf (addr / 64)) write addr size data
    else s1.memSpace m write addr size data

/-- An access with CACHE = 1 of a Column, line by line. -/
def State.cached (s : State) (m : Master) (c : ColumnIx) (write : Bool) (addr size : Nat) (data : List Byte) : State × Answer :=
  let n := 64 - addr % 64
  if size ≤ n then s.colAccess m c write addr size data
  else
    let (s1, x) := s.colAccess m c write addr n (data.take n)
    let (s2, y) := s1.colAccess m c write (addr + n) (size - n) (data.drop n)
    (s2, match x, y with
      | .data a, .data b => .data (a ++ b)
      | .done, .done => .done
      | _, _ => .busError)

/-- The check of access protection, and the access where it permits it; a refusal is no bus error (R309, R311, R314). A Column's access
with CACHE = 1 goes through its cache, hit or miss checked alike (R313). -/
def State.checked (s : State) (m : Master) (kind : AccessKind) (addr size : Nat) (data : List Byte) : State × Answer :=
  let c := s.checkAccess m kind addr size
  if !c.ok then (s.pushFault (s.faultOf m kind addr size c), .refused)
  else if inRegSpace addr || !c.cache then s.perform m (kind == .write) addr size data
  else
    match Master.column m with
    | some k => s.cached m k (kind == .write) addr size data
    | none => s.perform m (kind == .write) addr size data

/-! ## The engine fence (R236, R237, R301) -/

/-- The tag that the hub puts on what an engine issues now; of an engine without a role, role and epoch are free values (log 101). -/
def State.ownTag (s : State) (e : EngineIx) : EngineTag :=
  match s.eng.engines[e].role with
  | some r => { engine := e, role := r, epoch := s.eng.roles[r].epoch }
  | none => { engine := e, role := ⟨s.free % 16, Nat.mod_lt _ (by decide)⟩, epoch := BitVec.ofNat 8 (s.free / 16) }

/-- The tag of an access: an engine's as it was issued, else as the hub tags it now; other masters have none. -/
def State.tagOf (s : State) (m : Master) (tag : Option EngineTag) : Option EngineTag :=
  (Master.engine m).map fun e =>
    match tag with
    | some t => { t with engine := e }
    | none => s.ownTag e

/-- A write that the register fabric drops as a zombie (R237). -/
def State.zombieWrite (s : State) (m : Master) (kind : AccessKind) (tag : Option EngineTag) : Option EngineTag :=
  (s.tagOf m tag).filter fun t => kind == .write && (s.roleless m || s.isZombie t)

/-- A zombie write is dropped, acknowledged, counted and recorded; a read by an engine without a role answers with a bus error, recorded
as its block's own refusal where it is made in the register space (R237, R301, log 54). -/
def State.roleAccess (s : State) (m : Master) (kind : AccessKind) (addr size : Nat) (data : List Byte) (tag : Option EngineTag) :
    State × Answer :=
  match s.zombieWrite m kind tag with
  | some t => ((if tag.isNone && s.roleless m then s.drawn else s).zombie t, .done)
  | none =>
    if s.roleless m then (if inRegSpace addr then (s.busError m addr false 8, .busError) else (s, .busError))
    else s.checked m kind addr size data

/-- The restore of a wake from DORMANT runs, in which no checked master does (R319, R390). -/
def State.restoring (s : State) : Bool := s.pwr.state == .waking && s.boot.fromDormant

/-- A master runs: a Column makes accesses only while it is RUNNING, not in reset, halted or restoring (R259, R260, R268). -/
def State.masterRuns (s : State) (m : Master) : Bool := (Master.column m).all fun c => s.eng.columns[c].state == .running

/-- An access that is made at all: by a master that runs, of 1 to 64 bytes (R309), and not while the restore engine runs. -/
def State.made (s : State) (m : Master) (size : Nat) : Bool :=
  Master.exists m && s.masterRuns m && size != 0 && decide (size ≤ 64) && !(s.restoring && Master.checked m)

/-- An access of a master. -/
def State.access (s : State) (m : Master) (kind : AccessKind) (addr size : Nat) (data : List Byte) (tag : Option EngineTag) :
    State × Answer :=
  if !s.made m size then (s, .done) else s.roleAccess m kind addr size data tag

/-- A read and its answer. -/
def State.readAccess (s : State) (m : Master) (addr size : Nat) : State × Answer := s.access m .read addr size [] none

/-- A write of a 32-bit word and its answer. -/
def State.writeAccess (s : State) (m : Master) (addr : Nat) (data : Word) : State × Answer :=
  s.access m .write addr 4 (leBytes 4 data.toNat) none

/-- What the master sees of an answer. -/
def State.answered (x : State × Answer) (m : Master) : State :=
  match x.2 with
  | .data bs => x.1.emit (.readData m bs)
  | .half bs => (x.1.emit (.readData m bs)).emit (.accessError m false)
  | .done => x.1
  | .busError => x.1.emit (.accessError m false)
  | .refused => x.1.emit (.accessError m true)

/-- A command that is a write of a word to a register (R274). -/
def State.command (s : State) (m : Master) (addr : Nat) (data : Word) : State := State.answered (s.writeAccess m addr data) m

/-- A command that is a write of a number to a register. -/
def State.commandN (s : State) (m : Master) (addr data : Nat) : State := s.command m addr (BitVec.ofNat 32 data)

end Sys2Proof.Machine
end

