-- ==== Sys2Proof/Machine/Accesses.lean ====
section
/-! DEFINITION. Machine/Accesses.lean: accesses as commands, and what access control does with time: the lapse of an unlock, the
clearing of a counter bank, the changes of the rules (chapters "Register behaviour", "Access protection"). -/

namespace Sys2Proof.Machine

open Sys2Proof

/-- REGISTER_WRITE (R237, R274, R309): a write of 1 to 8 bytes, with the tag of the engine that issued it. -/
def execRegisterWrite (m : Master) (addr : BitVec 40) (size : Nat) (data : BitVec 64) (tag : Option EngineTag) (s : State) : Out :=
  .next (s.whenCore fun s => State.answered (s.access m .write addr.toNat size (leBytes size data.toNat) tag) m)

/-- An access reaches its target: it is made, no zombie, of no engine without a role (R237, R301), and permitted. -/
def State.reaches (s : State) (a : Access) : Bool :=
  s.made a.master a.size && (s.zombieWrite a.master a.kind a.tag).isNone && !s.roleless a.master &&
    (s.checkAccess a.master a.kind a.addr.toNat a.size).ok

/-- What the unit delivers with a permitted access (R310, R312). -/
def State.deliver (s : State) (a : Access) : State :=
  let c := s.checkAccess a.master a.kind a.addr.toNat a.size
  if s.reaches a then s.emit (.delivered a.master c.cache (BitVec.ofNat 2 (if inRegSpace a.addr.toNat then 2 else c.order))) else s

/-- A read of Sump meets an uncorrectable error, in a word of it that is a free value: an entry or a word of the Column region then
answers with a bus error, a counter pair restarts from 0 (R184, log 104). -/
def State.demandError (s : State) (addr size : Nat) : State :=
  let w := addr / 8 + s.free % ((addr + size - 1) / 8 - addr / 8 + 1)
  let s1 := s.drawn
  match s.targetOf (8 * w) with
  | .table => s1.spoilEntry (BitVec.ofNat 25 ((8 * w - 0x1000000000) / 64))
  | .columns => s1.spoilWord w
  | .counters => (s1.sumpError (8 * w) 1).spoilPair ((8 * w - 0x1080000000) / 16)
  | _ => s1

/-- What ECC finds in an access's read of Sump, which checks every read; a hit in a Column's cache reads nothing (Table CAV-3, R184). -/
def State.readEcc (s : State) (a : Access) : State :=
  let addr := a.addr.toNat
  let fromLine := (Master.column a.master).any fun c => (s.colLine c addr).isSome
  if a.kind == .write || !s.reaches a || fromLine || !s.targetOk false addr a.size || decide (addr < 0x1000000000) then s
  else
    match a.ecc with
    | .clean => s
    | .corrected => s.count Reg.SUMP_CE
    | .uncorrectable => s.demandError addr a.size

/-- MEMORY_ACCESS (R309): an access of up to 64 bytes to any address. -/
def execMemoryAccess (a : Access) (s : State) : Out :=
  .next (s.whenCore fun s =>
    State.answered (((s.deliver a).readEcc a).access a.master a.kind a.addr.toNat a.size a.data a.tag) a.master)

/-- A dirty line is written back: an access of its own, checked when it is issued; refused, its data are lost and the refusal is
recorded (R313). -/
def State.writeBack (s : State) (c : ColumnIx) (addr : Nat) (data : List Byte) : State × Answer :=
  let m : Master := ⟨c.val, by omega⟩
  let k := s.checkAccess m .write addr data.length
  if !k.ok then (s.pushFault (s.faultOf m .write addr data.length k), .refused)
  else s.perform m true addr data.length data

/-- CACHE_WRITEBACK (R313): the dirty line of a Column's cache that holds the address leaves with what it holds; where none does, the
command's bytes leave (log 102). -/
def execCacheWriteback (c : ColumnIx) (addr : BitVec 40) (data : List Byte) (s : State) : Out :=
  .next (s.whenCore fun s =>
    let m : Master := ⟨c.val, by omega⟩
    match (s.colLine c addr.toNat).filter (·.dirty) with
    | some l => if s.made m 64 then State.answered ((s.dropColLine c l.line).writeBack c (64 * l.line) l.bytes) m else s
    | none => if s.made m data.length then State.answered (s.writeBack c addr.toNat data) m else s)

/-- ALIAS_WRITE (R237, R282-R284): with the tag of the engine that issued it. -/
def execAliasWrite (m : Master) (addr : BitVec 40) (size : Nat) (item : TaggedData) (s : State) : Out :=
  .next (s.whenCore fun s => State.answered (s.access m .write addr.toNat size (leBytes size item.data.toNat) item.tag) m)

/-- COUNTER_LO_READ (R280, R281): a direct read, which captures where it reads a _LO word. -/
def execCounterLoRead (m : Master) (addr : BitVec 40) (size : Nat) (s : State) : Out :=
  .next (s.whenCore fun s => State.answered (s.readAccess m addr.toNat size) m)

/-- CAVERN_DIAG_WRITE (R190): a word written to the diagnostic window. -/
def execCavernDiagWrite (m : Master) (addr : BitVec 40) (data : Word) (s : State) : Out :=
  .next (s.whenCore fun s => if s.targetOf addr.toNat = .diag then s.command m addr.toNat data else s)

/-- UNLOCK_LAPSE (R289): an arming that has seen its second head, from which on it arms nothing, is gone. -/
def execUnlockLapse (m : Master) (s : State) : Out :=
  .next (s.whenCore fun s =>
    if (s.acc.unlock[m]).any (2 ≤ ·) then { s with acc := { s.acc with unlock := vset s.acc.unlock m none } } else s)

/-- BANK_CLEAR_END (R295): the bank that is not live is clear, after a training both. -/
def execBankClearEnd (s : State) : Out :=
  .next (s.whenCore fun s =>
    if !s.bit Reg.CNT_SNAP_STATUS 3 then s
    else
      let live1 := s.bit Reg.CNT_SNAP_STATUS 1
      let both := s.cav.bothClearing
      let s1 : State := { s with cav := { s.cav with
        countersA := if both || live1 then [] else s.cav.countersA
        countersB := if both || !live1 then [] else s.cav.countersB
        bothClearing := false } }
      s1.setBit Reg.CNT_SNAP_STATUS 3 false)

/-- MPU_BARRIER_DONE (R317): the changes that a barrier waits for are in force. -/
def execMpuBarrierDone (m : Master) (s : State) : Out := .next (s.whenCore fun s => s.endBarrier m)

/-- RULE_CHANGE_EFFECT (R315): the oldest change takes effect. -/
def execRuleChangeEffect (s : State) : Out := .next (s.whenCore fun s => s.ruleTakesEffect)

end Sys2Proof.Machine
end

