-- ==== Sys2Proof/Machine/Agent.lean ====
section
/-! DEFINITION. Machine/Agent.lean: the meanings of authentication: KEY messages, admission, rekeying and SYNC
(R106-R109, R339-R346). -/

namespace Sys2Proof.Machine

/-! ## Admission (R106, R109, R195, R196) -/

/-- The RK of the earlier session goes at the port's next admission (R341). -/
def State.dropOldRk (s : State) (t : TrunkPort) : State :=
  match s.geode.agents[t].oldRk with
  | some k => (s.zeroKey k).modAgent t fun a => { a with oldRk := none }
  | none => s

/-- A port reaches ADMITTED: the session and the partner's identity are recorded; a hold window ends, its
queues resuming with the same partner (R195) and flushed with another (R196). -/
def State.admitPort (s : State) (t : TrunkPort) : State :=
  let p := trunk t
  let same := s.samePartner p
  let s1 := s.modPort p fun x =>
    { x with
      adm := .admitted, pst := 2, nbDead := false
      admittedId := x.partner.map (·.id)
      session := true, echoHead := s.heads, echoTx := s.heads, retryHead := none }
  let s2 := (s1.dropOldRk t).modAgent t fun a =>
    { a with running := false, hello := [], peerHello := [], resume := [], eph := none, admitHead := s.heads }
  if s2.ports[p].holdHead.isNone then s2
  else if same then s2.modPort p fun x => { x with holdHead := none }
  else s2.flushHeld t

/-- Admission, with the ECHO frame that goes out on it (R111). -/
def State.admitted (s : State) (t : TrunkPort) : State := ((s.admitPort t).sendEcho t true)

/-! ## The messages (Table GEO-5) -/

/-- The identity in a KEY payload. -/
def keyId (payload : List Byte) : HubId := BitVec.ofNat 64 (leNat (slice payload 4 8))

/-- What the agent does with a HELLO (R340). -/
def State.helloArrives (s : State) (t : TrunkPort) (payload : List Byte) : State :=
  if !keyFormOk payload 1 144 then s.keyBad (trunk t) else s.viewing fun s => s.onHello t payload

/-- A KEY frame has arrived whole on a trunk port, and the credit it held returns as the agent takes it (R171, R339). -/
def State.keyArrives (s : State) (t : TrunkPort) (payload : List Byte) (f : State → State) : State :=
  s.arriving (trunk t) fun s => f (s.creditBack (trunk t) 7 false (cellsOfLen payload.length))

/-- KEY_HELLO_RECEIVED (R340). -/
def execKeyHelloReceived (port : TrunkPort) (payload : List Byte) (s : State) : Out :=
  .next (s.whenCore fun s => s.keyArrives port payload fun s => s.helloArrives port payload)

/-- The MAC that the partner's FINISH should carry (R340). -/
def State.finishMac (s : State) (t : TrunkPort) (sa : BitVec 8) : List Byte :=
  let a := s.geode.agents[t]
  let peer := s.partnerId (trunk t)
  let h := a.ordered peer
  hmac384 (s.slot (a.fleet peer)).live.value (h.1 ++ h.2 ++ idBytes peer ++ [sa])

/-- The partner's FINISH is verified: transmit association, and admission or the end of a rekey (R340,
R342). -/
def State.onFinish (s : State) (t : TrunkPort) (payload : List Byte) : State :=
  let sa := payload.getD 12 0
  if slice payload 16 48 ≠ s.finishMac t sa then s.sendFail t 3
  else
    let s1 := s.installTx t sa
    if s.geode.agents[t].rekey then
      ((s1.dropOldRk t).modAgent t fun a =>
        { a with running := false, hello := [], peerHello := [], eph := none, admitHead := s.heads }).count (Reg.SEC_REKEYS t.val)
    else s1.admitted t

/-- What the agent does with a FINISH (R340): outside a handshake that has sent its own it has no effect. -/
def State.finishArrives (s : State) (t : TrunkPort) (payload : List Byte) : State :=
  if !keyFormOk payload 2 64 then s.keyBad (trunk t)
  else if !s.geode.agents[t].running || s.geode.agents[t].txKey.isNone then s
  else s.viewing fun s => s.onFinish t payload

/-- KEY_FINISH_RECEIVED (R340). -/
def execKeyFinishReceived (port : TrunkPort) (payload : List Byte) (s : State) : Out :=
  .next (s.whenCore fun s => s.keyArrives port payload fun s => s.finishArrives port payload)

/-- The partner's RESUME under the RK of the session (R341). -/
def State.onResume (s : State) (t : TrunkPort) (rk : BitVec 8) (payload : List Byte) : State :=
  let p := trunk t
  let peer := s.partnerId p
  let sa := payload.getD 12 0
  let n := slice payload 16 32
  if slice payload 48 48 ≠ hmac384 (s.slot rk).live.value (n ++ idBytes peer ++ [sa]) then s.sendFail t 3
  else
    let s1 := if s.geode.agents[t].resume.isEmpty then s.sendResume t rk else s
    let own := slice s1.geode.agents[t].resume 16 32
    let low := decide (Config.hubId.toNat < peer.toNat)
    let lo := if low then Config.hubId else peer
    let hi := if low then peer else Config.hubId
    let ctx := ascii [0x52, 0x45, 0x53, 0x55, 0x4D, 0x45] ++ idBytes lo ++ idBytes hi ++
      (if low then own ++ n else n ++ own)
    let s2 := s1.deriveLinkKeys t rk ctx lo hi s1.geode.agents[t].rxSa
    ((s2.installTx t sa).admitted t)

/-- What the agent does with a RESUME of good form on a port that is not admitted: with the rekey secret at hand it answers it, else a
full handshake starts. -/
def State.takeResume (s : State) (t : TrunkPort) (payload : List Byte) : State :=
  match s.rkOf t with
  | some k => s.onResume t k payload
  | none => s.sendHello t false

/-- What the agent does with a RESUME (R341): a side that holds no RK answers with HELLO. -/
def State.resumeArrives (s : State) (t : TrunkPort) (payload : List Byte) : State :=
  if !keyFormOk payload 3 96 then s.keyBad (trunk t)
  else if s.ports[trunk t].adm == .admitted then s
  else
    s.viewing fun s => s.takeResume t payload

/-- KEY_RESUME_RECEIVED (R341). -/
def execKeyResumeReceived (port : TrunkPort) (payload : List Byte) (s : State) : Out :=
  .next (s.whenCore fun s => s.keyArrives port payload fun s => s.resumeArrives port payload)

/-- What the agent does with a FAIL (R339): the handshake ends without success (R107). -/
def State.failArrives (s : State) (t : TrunkPort) (payload : List Byte) : State :=
  if !keyFormOk payload 5 8 then s.keyBad (trunk t)
  else if s.geode.agents[t].running then s.viewing fun s => s.authFailed t else s

/-- KEY_FAIL_RECEIVED (R339). -/
def execKeyFailReceived (port : TrunkPort) (payload : List Byte) (s : State) : Out :=
  .next (s.whenCore fun s => s.keyArrives port payload fun s => s.failArrives port payload)

/-- A KEY frame that reaches the agent, by its MSG; another VER or MSG is counted (R339). A SYNC never does (R345). -/
def State.onKey (s : State) (t : TrunkPort) (payload : List Byte) : State :=
  match byteAt payload 1 with
  | 1 => s.helloArrives t payload
  | 2 => s.finishArrives t payload
  | 3 => s.resumeArrives t payload
  | 5 => s.failArrives t payload
  | _ => s.keyBad (trunk t)

/-- AUTH_TIMEOUT (R107): 640 beats without success. -/
def execAuthTimeout (port : TrunkPort) (s : State) : Out :=
  .next (s.whenCore fun s =>
    if s.geode.agents[port].running && decide (s.ports[trunk port].authHead + 640 ≤ s.heads) then
      s.viewing fun s => s.authFailed port
    else s)

/-- AUTH_RETRY (R107, R342): 16,000 beats after a failure, while the port stays ACTIVE or DEGRADED; a failed
rekey is tried again as a rekey. -/
def execAuthRetry (port : TrunkPort) (s : State) : Out :=
  .next (s.whenCore fun s =>
    match s.ports[trunk port].retryHead with
    | none => s
    | some h =>
      if s.heads < h + 16000 || !s.portUp (trunk port) then s
      else s.viewing fun s =>
        if s.ports[trunk port].adm == .admitted then s.sendHello port true else s.startAuth port)

/-- REKEY_DUE (R342): the lower identity starts after SEC_REKEY beats, 0 never by time, or past 2^48
frames; after a failed rekey the retry comes first. -/
def execRekeyDue (port : TrunkPort) (s : State) : Out :=
  .next (s.whenCore fun s =>
    let a := s.geode.agents[port]
    let n := (s.reg Reg.SEC_REKEY).toNat
    let old := match s.txAssoc (trunk port) with
      | some x => decide (2 ^ 48 < x.ctr.toNat)
      | none => false
    if s.ports[trunk port].adm == .admitted && !a.running && s.ports[trunk port].retryHead.isNone &&
        decide (Config.hubId.toNat < (s.partnerId (trunk port)).toNat) &&
        ((n != 0 && decide (a.admitHead + n ≤ s.heads)) || old) then s.sendHello port true
    else s)

/-! ## SYNC (R345) -/

/-- The payload of a SYNC up to its GMAC. -/
def syncHead (sa : BitVec 8) (c : BitVec 64) : List Byte := keyHead 4 ++ [sa, 0, 0, 0] ++ leBytes 8 c.toNat

/-- The GMAC of a SYNC: payload bytes 4-15 as additional data, no plaintext. -/
def syncMac (a : Assoc) (sa : BitVec 8) (c : BitVec 64) : List Byte :=
  leBytes 16 (Config.gcmTag a.aesKey (a.iv c) ((syncHead sa c).drop 4) []).toNat

/-- A SYNC for a transmit association, ahead of every queue and without credit; it takes one counter value (R345). -/
def State.sendSync (s : State) (p : LinkPort) (a : Assoc) : State :=
  (s.emit (.keyFrame p (s.linkFrame kindKey (syncHead a.sa a.ctr ++ syncMac a a.sa a.ctr)))).setCtr p true a.sa (a.ctr + 1)

/-- SYNC_SEND (R345): once after each head, one SYNC for each running transmit association of a port that an engine serves. -/
def execSyncSend (port : LinkPort) (s : State) : Out :=
  .next (s.whenCore fun s =>
    if !s.portUp port || (s.gcmEngine port).isNone || decide (s.heads ≤ s.ports[port].syncHead) then s
    else
      let s1 := s.over ((s.assocsOf port true).filter fun a => !a.stopped) fun s a => s.sendSync port a
      (s1.modPort port fun x => { x with syncHead := s.heads }).reauthSpent s port)

/-- What the receiving engine does with a SYNC (R345): a verified C at or above E moves E on; else the SYNC is dropped and counted. -/
def State.onSync (s : State) (p : LinkPort) (payload : List Byte) : State :=
  if !keyFormOk payload 4 32 then s.keyBad p
  else
    let sa := payload.getD 4 0
    let c := BitVec.ofNat 64 (leNat (slice payload 8 8))
    match (if (s.gcmEngine p).isSome then (s.assocsOf p false).find? (fun a => a.sa == sa && !a.stopped) else none) with
    | none => s.count (Reg.SEC_SYNC_BAD p.val)
    | some a =>
      if slice payload 16 16 = syncMac a sa c ∧ a.ctr.toNat ≤ c.toNat then s.setCtr p false sa (c + 1)
      else s.count (Reg.SEC_SYNC_BAD p.val)

/-- SYNC_RECEIVED (R345). -/
def execSyncReceived (port : LinkPort) (payload : List Byte) (s : State) : Out :=
  .next (s.whenCore fun s => s.arriving port fun s => s.onSync port payload)

end Sys2Proof.Machine
end

