-- ==== Sys2Proof/Machine/Echo.lean ====
section
/-! DEFINITION. Machine/Echo.lean: the meanings of Echo: ECHO frames, neighbour-dead, hold windows and merge
records (R110-R127, R469). -/

namespace Sys2Proof.Machine

/-! ## An ECHO frame received (R110, R111, R469) -/

/-- A sequence number is newer than another, modulo 2^w. -/
def newer {w : Nat} (a b : BitVec w) : Bool := a != b && decide ((a - b).toNat < 2 ^ (w - 1))

/-- A received hub record is kept where it is newer than the one held, or where the one held has left the view; a hub's own record is
its own (R111). -/
def State.takeRecord (s : State) (r : HubRecord) : State :=
  if r.id = Config.hubId || r.id = 0 then s
  else
    match s.recordOf r.id with
    | none => { s with echo := { s.echo with records := s.echo.records ++ [r] } }
    | some o =>
      if newer r.recSeq o.recSeq || !(s.view.any fun x => x.id == r.id) then
        { s with echo := { s.echo with records := s.echo.records.map fun x => if x.id = r.id then r else x } }
      else s

/-- An announcement of the own master is held from now on: its slot is taken at once while forming, and it is sent on (R120, R469). -/
def State.holdAnn (s : State) (a : Announcement) : State :=
  let s1 := { s with echo := { s.echo with ann := some a } }
  let s2 := match mySlotIn a.assigns with
    | some k => if s1.forming && !a.listDue then s1.adoptSlot k else s1
    | none => s1
  s2.sendEchoAll false

/-- The announcement of the own master is taken where it is newer, or where none is held (R469). While a merge record travels with it
the A list is the merge's, and the master's own list comes with a later frame of the same ANN_SEQ (R123). -/
def State.takeAnnouncement (s : State) (e : EchoPayload) : State :=
  if s.echo.master = Config.hubId || s.echo.master = 0 || e.masterId ≠ s.echo.master then s
  else
    let travels := e.merge.isSome
    let a : Announcement :=
      { annSeq := e.annSeq, moveBeat := e.moveBeat, nextMaster := e.nextMasterId, pepNext := e.pepNext,
        epochBeat := e.epochBeat, assigns := if travels then s.annOr.assigns else e.assigns, listDue := travels }
    match s.echo.ann with
    | none => s.holdAnn a
    | some b =>
      if newer e.annSeq b.annSeq then s.holdAnn a
      else if e.annSeq = b.annSeq ∧ b.listDue = true ∧ travels = false then s.holdAnn { b with assigns := e.assigns, listDue := false }
      else s

/-! ## Merge records (R45, R122, R123, R125) -/

/-- Into STEP_PENDING, keeping the duties of the state before (R32, Table BEA-4). -/
def State.stepPend (s : State) : State :=
  if s.beat.timing = .stepPending then s
  else { s with beat := { s.beat with timing := .stepPending, enteredFrom := s.beat.timing } }

/-- What the joining joint hub measured of the master side on a port: its own beat number at the master side's
latest head, that head's number (low 32 bits), and the CCLK by which it came after the own head (R45). -/
def State.measured (s : State) (t : TrunkPort) : Option (Nat × Word × Nat) :=
  match s.beat.joint[t] with
  | none => none
  | some (num, late, h) =>
    let b : Int := (s.beatNum.toNat : Int) - ((s.heads : Int) - h)
    let own : Int := b + late / 400000
    some (own.toNat, num, ((late % 400000) / 8).toNat)

/-- JN, OFS, DELTA and STEP_MASTER_SIDE filled from a measurement (R45, R46): the joining side numbers the head
that falls on S by the beats in between, and stretches by its phase. -/
def fillMerge (r : MergeRecord) (own : Nat) (num : Word) (phase : Nat) : MergeRecord :=
  let jn := own + (BitVec.ofNat 32 r.s.toNat - num).toNat
  let m := max r.s.toNat jn
  { r with
    jn := BitVec.ofNat 48 jn
    ofs := BitVec.ofNat 48 (if r.s.toNat < jn then m - r.s.toNat else m - jn)
    delta := BitVec.ofNat 32 (min 49999 phase)
    stepMasterSide := decide (r.s.toNat < jn) }

/-- The port of a joint that carries its merge: of the ports to one partner the one admitted first, of two admitted in one beat the lower
(R122). -/
def State.carrier (s : State) (t : TrunkPort) : TrunkPort :=
  let head (i : TrunkPort) : Nat := ((s.echo.newLinks.find? fun l => l.1 == Config.hubId && l.2.1 == i).map (·.2.2)).getD 0
  ((List.finRange 4).filter fun i => s.ports[trunk i].pst == 2 && s.partnerId (trunk i) == s.partnerId (trunk t)).foldl
    (fun a i => if head i < head a ∨ (head i = head a ∧ i.val < a.val) then i else a) t

/-- A merge held is replaced by another. -/
def State.replaceMerge (s : State) (m x : Merge) : State := s.setMerges (s.merges.map fun y => if y = m then x else y)

/-- The joint hub of the joining side fills the record from the port that carries the merge, where it has measured the joint (R122,
R123). -/
def State.tryFill (s : State) (t : TrunkPort) (m : Merge) : State :=
  if m.joining && !m.complete && m.record.jointId == Config.hubId then
    match s.measured (s.carrier t) with
    | some (own, num, phase) => (s.replaceMerge m { m with record := fillMerge m.record own num phase, complete := true }).sendEchoAll true
    | none => s
  else s

/-- This hub is on the joining side of a merge, or on a master side that steps (Table BEA-4). -/
def Merge.steps (m : Merge) : Bool := m.joining || (m.complete && m.record.stepMasterSide)

/-- A record puts the joining side, and a completed one the stepping side, into STEP_PENDING (Table BEA-4). -/
def State.stepSide (s : State) : State :=
  if s.merges.any fun m => m.steps then s.stepPend else s

/-- Two records are of one merge: the step beat, the merged master and the joint are the same. -/
def sameMerge (a b : MergeRecord) : Bool := a.s == b.s && a.masterId == b.masterId && a.jointId == b.jointId

/-- A cancel received before S discards the record, is counted and flooded (R125). -/
def State.takeCancel (s : State) (r : MergeRecord) : State :=
  match s.merges.find? fun m => sameMerge m.record r with
  | some m =>
    let c : Merge := { m with record := { m.record with cancel := true } }
    let s1 := (s.replaceMerge m c).sendEchoAll true
    (s1.setMerges (s1.merges.filter fun x => !(sameMerge x.record r))).count Reg.TOPO_MERGE_CANCEL
  | none => s

/-- A merge record received on a port (R123): a new one is held and flooded, a completed one replaces it. Beside the merges of one step
beat and one merged master no other is held (R122). -/
def State.takeMerge (s : State) (t : TrunkPort) (r : MergeRecord) (assigns : List SlotAssign) : State :=
  let complete := r.jn != 0
  match s.merges.find? fun m => sameMerge m.record r with
  | none =>
    if r.masterId = Config.hubId || s.merges.any fun m => m.record.s != r.s || m.record.masterId != r.masterId then s
    else
      let joining := r.masterId != s.echo.master && s.echo.members.contains r.jointId
      let m : Merge := { record := r, joining := joining, complete := complete, assigns := assigns }
      ((s.setMerges (s.merges ++ [m])).stepSide.sendEchoAll true).tryFill t m
  | some m =>
    if complete && !m.complete then (s.replaceMerge m { m with record := r, complete := true }).stepSide.sendEchoAll true
    else s.tryFill t m

/-- The merge record of an ECHO frame; it waits for the next frame while Column 1 restarts (R265). -/
def State.onMerge (s : State) (t : TrunkPort) (e : EchoPayload) : State :=
  match e.merge with
  | none => s
  | some r => if s.echoPaused then s else if r.cancel then s.takeCancel r else s.takeMerge t r e.assigns

/-- An ECHO frame that passes on an admitted port. -/
def State.takeEcho (s : State) (t : TrunkPort) (e : EchoPayload) : State :=
  if e.ver ≠ 1 || e.n = 0 || decide (64 < e.n.toNat) || e.hubs.length ≠ e.n.toNat || decide (64 < e.assigns.length) then
    s.count Reg.TOPO_ECHO_BAD
  else
    let s1 := s.modPort (trunk t) fun x => { x with echoHead := s.heads }
    let s2 := s1.over e.hubs State.takeRecord
    (s2.takeAnnouncement e).onMerge t e

/-- A received ECHO frame that reaches the agent, by its bytes (R110, R111). -/
def State.onEcho (s : State) (t : TrunkPort) (payload : List Byte) : State :=
  match EchoPayload.read payload with
  | some e => s.viewing fun s => s.takeEcho t e
  | none => s.count Reg.TOPO_ECHO_BAD

/-- ECHO_FRAME_RECEIVED (R111): kept on an admitted port, with a PEP that passes where the partner is of the own
consist (R49, R106, R117). Its credit returns (R171). -/
def execEchoFrameReceived (port : TrunkPort) (echo : EchoPayload) (s : State) : Out :=
  .next (s.whenCore fun s => s.arriving (trunk port) fun s0 =>
    let s := s0.creditBack (trunk port) 7 false (cellsOfLen echo.bytes.length)
    let pass := s.pepPasses echo.pep || s.joint port
    if s.ports[trunk port].adm == .admitted && pass then s.viewing fun s => s.takeEcho port echo
    else if pass then s.count (Reg.TRK_BYPASS_DROP port.val)
    else s.count (Reg.TRK_STALE_PEP port.val))

/-- ECHO_FRAME_PERIODIC_SEND (R111): every 16 beats on each admitted port. -/
def execEchoFramePeriodicSend (port : TrunkPort) (s : State) : Out :=
  .next (s.whenCore fun s =>
    if s.heads < s.ports[trunk port].echoTx + 16 then s
    else (s.modPort (trunk port) fun x => { x with echoTx := s.heads }).sendEcho port false)

/-! ## Neighbour dead and hold windows (R113-R115, R193, R196) -/

/-- NEIGHBOUR_DEAD_ECHO_TIMEOUT (R113): 48 heads without a valid ECHO frame: BYPASSED, and a full handshake. -/
def execNeighbourDeadEchoTimeout (port : TrunkPort) (s : State) : Out :=
  .next (s.whenCore fun s =>
    let x := s.ports[trunk port]
    if x.adm != .admitted || !s.portUp (trunk port) || s.heads < x.echoHead + 48 then s
    else s.viewing fun s =>
      let s1 := s.modPort (trunk port) fun x => { x with adm := .bypassed, pst := 3, nbDead := true, session := false }
      (s1.count Reg.TOPO_NB_DEAD).sendHello port false)

/-- A hold window has closed without a return: PST is DOWN. Where it did not yet show HOLD, with a window that ends before the neighbour is
dead or with none, it passes through HOLD, so that every hub sees the window close (R113, R115, R118; DESIGN CHOICE, log 128). -/
def State.closeWindow (s : State) (t : TrunkPort) : State :=
  let shows (v : BitVec 2) (s : State) : State := s.modPort (trunk t) fun x => { x with pst := if x.adm == .admitted then x.pst else v }
  (if s.ports[trunk t].pst = 2 then s.viewing (shows 1) else s).viewing (shows 0)

/-- NEIGHBOUR_DEAD_LINK_LOSS (R113): 2 heads of link loss: PST HOLD while the window runs, DOWN after it. -/
def execNeighbourDeadLinkLoss (port : TrunkPort) (s : State) : Out :=
  .next (s.whenCore fun s =>
    let x := s.ports[trunk port]
    match x.lossHead with
    | none => s
    | some h =>
      if s.heads < h + 2 || x.lossDead then s
      else
        let s1 := s.viewing fun s =>
          (s.modPort (trunk port) fun x => { x with nbDead := true, lossDead := true, pst := if x.holdHead.isSome then 1 else x.pst }).count
            Reg.TOPO_NB_DEAD
        if s1.ports[trunk port].holdHead.isSome then s1 else s1.closeWindow port)

/-- HOLD_WINDOW_CLOSE (R193, R196): the window's last head; the held frames are flushed in one step, and the
path change is made (R115). -/
def execHoldWindowClose (port : TrunkPort) (s : State) : Out :=
  .next (s.whenCore fun s =>
    let x := s.ports[trunk port]
    match x.holdHead with
    | none => s
    | some h =>
      if s.heads < h + x.holdWin then s else (s.flushHeld port).closeWindow port)

/-! ## Merges and formation (R122-R125) -/

/-- The hubs of the view that are of other consists. -/
def State.others (s : State) : List HubRecord := s.view.filter fun r => !s.echo.members.contains r.id

/-- The hubs of a list that are linked with one of them, over hubs of the list only. -/
def componentOf (all : List HubRecord) (r : HubRecord) : List HubRecord :=
  reachN linked (all.filter fun x => x.id != r.id) all.length [r]

/-- A joining side as the master sees it: the joint hub, and its consist. -/
structure Side where
  joint : HubRecord
  hubs : List HubRecord
deriving DecidableEq, Repr

/-- The joint hubs among the hubs of other consists: those that a hub of the own consist is linked to. -/
def State.jointHubs (s : State) : List HubRecord :=
  let mine := s.view.filter fun r => s.echo.members.contains r.id
  s.others.filter fun r => mine.any fun m => linked m r

/-- The joining sides, each with one joint hub: the first of its consist (R122). -/
def sidesOf (all : List HubRecord) : List HubRecord → List Side
  | [] => []
  | j :: rest =>
    let c := componentOf all j
    { joint := j, hubs := c } :: (sidesOf all rest).filter fun x => !(c.any fun r => r.id == x.joint.id)

/-- Every consist that a joint links to this one. -/
def State.joiningSides (s : State) : List Side := sidesOf s.others s.jointHubs

/-- The master that the election among the hubs of a side names. -/
def Side.master (x : Side) : HubId := (elect x.hubs x.joint).id

/-- Both sides of every merge at hand are forming (R124); whether a joining side is, no ECHO field says (log 7). -/
def State.bothForming (s : State) : Bool :=
  s.forming && s.joiningSides.all fun x => Config.otherForming x.joint.id.toNat s.echo.viewSince

/-- SETTLE in force: 8 while both sides are forming (R124); 0 acts as 1. -/
def State.settleHeads (s : State) : Nat := if s.bothForming then 8 else max 1 (s.fld Reg.TOPO_CFG 15 8)

/-- The merge lead: 32 beats while both sides are forming (R124); 0-31 act as 32. -/
def State.mergeLead (s : State) : Nat := if s.bothForming then 32 else max 32 (s.fld Reg.TOPO_CFG 27 16)

/-- Slots for the joining side of a merge: hubs without a slot, or with one that the master side holds (R120,
R121). -/
def mergeAssigns (used : List Nat) (theirs : List HubRecord) : List SlotAssign :=
  let need := theirs.filter fun r => r.slot == 0 || used.contains r.slot.toNat
  let keep := theirs.filter fun r => !(r.slot == 0 || used.contains r.slot.toNat)
  assignSlots need.length need (used ++ slotsUsed keep)

/-- The slots that the hubs of a side hold after its merge. -/
def slotsAfter (theirs : List HubRecord) (l : List SlotAssign) : List Nat :=
  slotsUsed (theirs.filter fun r => !(l.any fun a => a.id == r.id)) ++ l.map (·.slot.toNat)

/-- The merges that this hub announces as master, for several sides at one step beat (R122, R123); `used` are the slots taken. -/
def State.announced (s : State) (lead : Nat) : List Side → List Nat → List Merge
  | [], _ => []
  | x :: rest, used =>
    let l := mergeAssigns used x.hubs
    let r : MergeRecord :=
      { s := s.beatNum + BitVec.ofNat 48 lead, jn := 0, ofs := 0, delta := 0, cancel := false,
        stepMasterSide := false, pepNew := s.pep + 1, masterId := Config.hubId, jointId := x.joint.id }
    { record := r, joining := false, complete := false, assigns := l, otherMaster := x.master } ::
      s.announced lead rest (used ++ slotsAfter x.hubs l)

/-- MERGE_ANNOUNCE (R123): the master whose election covers the joining sides, its view unchanged for SETTLE heads,
sends the records with S and PEP_NEW and the assignments. -/
def execMergeAnnounce (s : State) : Out :=
  .next (s.whenCore fun s =>
    if s.joiningSides.isEmpty || s.beat.timing != .master || s.echo.master ≠ Config.hubId || s.elected ≠ Config.hubId ||
      !s.merges.isEmpty || s.echoPaused || decide (s.heads < s.echo.viewSince + s.settleHeads) then s
    else
      let mine := s.view.filter fun r => s.echo.members.contains r.id
      (s.setMerges (s.announced s.mergeLead s.joiningSides (slotsUsed mine))).sendEchoAll true)

/-- A merge of this master no longer holds: the joint has left ADMITTED or the sides are separated, a master changed, or the record is
incomplete at S - 17 (R125). -/
def State.mergeBroken (s : State) (m : Merge) : Bool :=
  s.elected != Config.hubId || (decide (s.beatNum.toNat + 17 = m.record.s.toNat) && !m.complete) ||
    !(s.joiningSides.any fun x => x.hubs.any (fun r => r.id == m.record.jointId) && x.master == m.otherMaster &&
        s.jointHubs.any fun r => r.id == m.record.jointId)

/-- MERGE_CANCEL (R125): before S - 16, each merge of this master that no longer holds. The master counts it too (DESIGN CHOICE,
log 32). -/
def execMergeCancel (s : State) : Out :=
  .next (s.whenCore fun s =>
    s.over (s.merges.filter fun m => m.record.masterId == Config.hubId && s.mergeBroken m &&
        decide (s.beatNum.toNat + 16 < m.record.s.toNat) && !s.echoPaused) fun s m => s.takeCancel m.record)

/-- FORMING_END (R124): 16,000 beats after entry to RUN. -/
def execFormingEnd (s : State) : Out :=
  .next (s.whenCore fun s =>
    match s.echo.runHead with
    | none => s
    | some h => if s.heads < h + 16000 then s else s.setBit Reg.TOPO_STATUS 27 false)

end Sys2Proof.Machine
end

