-- ==== Sys2Proof/Machine/Beat.lean ====
section
/-! DEFINITION. Machine/Beat.lean: the meanings of the beat but for the head itself: BEAT blocks, holdover, the
master's role, the merge step, commits and the path epoch (R22-R50, R117). -/

namespace Sys2Proof.Machine

/-! ## BEAT blocks (R33, R34, R49) -/

/-- The core runs on its PLL (BOOT_STATUS.PLL, R397). -/
def State.pllOn (s : State) : Bool := s.bit Reg.BOOT_STATUS 14

/-- NUM names the beat that begins: the beat in progress where the block came after its head, else the next. -/
def State.numExpected (s : State) (late : Int) : Word :=
  BitVec.ofNat 32 (s.beatNum.toNat + if late < 0 then 1 else 0)

/-- The boundary by a block, against the own: its arrival less OFS less the delay of the port (R34). -/
def State.boundaryError (s : State) (t : TrunkPort) (ofs : BitVec 10) (late : Int) : Int :=
  late - ofs.toNat - s.fld (Reg.BEAT_DLY t.val) 19 0

/-- A valid BEAT block: kept for its port; where the port is ACTIVE, time is taken from it: the phase error where it is the timing port,
and HOLDOVER ends (R33, R36, Table BEA-4). -/
def State.takeBeat (s : State) (t : TrunkPort) (hops : BitVec 6) (hold : Bool) (ofs : BitVec 10) (late : Int) : State :=
  let head := s.heads + if late < 0 then 1 else 0
  let r : RxBeat := { hops := hops, hold := hold, head := head }
  let s0 : State := { s with beat := { s.beat with rx := vset s.beat.rx t (some r) } }
  if !s0.portActive (trunk t) then s0
  else
  let s1 : State := { s0 with beat := { s0.beat with lastValid := head } }
  let s2 : State := if s1.beat.timing = .holdover then { s1 with beat := { s1.beat with timing := .track } } else s1
  if s2.tracking && (s2.beat.timingPort == some t || s2.beat.timingPort.isNone) then
    { s2 with beat := { s2.beat with timingPort := some t, err := s2.boundaryError t ofs late, srcHold := hold } }
  else s2

/-- The master side's boundary measured across a joint: NUM, the place of its head against the own, and the own head (R45). -/
def State.measureBeat (s : State) (t : TrunkPort) (num : Word) (ofs : BitVec 10) (late : Int) : State :=
  let at' := s.boundaryError t ofs late + (if late < 0 then 400000 else 0)
  { s with beat := { s.beat with joint := vset s.beat.joint t (some (num, at', s.heads)) } }

/-- A block is valid for timing (R33): from a partner of the own consist (R49), with the NUM, the PEP and the place expected. -/
def State.beatValid (s : State) (t : TrunkPort) (num : Word) (pep : BitVec 4) (late : Int) : Bool :=
  s.portUp (trunk t) && !s.otherSide t && num == s.numExpected late && pep == s.pep && decide (-12800 ≤ late ∧ late ≤ 12800)

/-- BEAT_BLOCK_RECEIVED (R33): `late` is the arrival against the expected boundary in units of 156.25 ps. A block
on a local port, or one that is not valid, is ignored for timing and counted, as is every block from the other side of a joint until
the step (R49); that one is measured all the same (R45). On IFO no block is evaluated (R50). -/
def execBeatBlockReceived (port : LinkPort) (num : Word) (hops : BitVec 6) (hold : Bool) (ofs : BitVec 10)
    (pep : BitVec 4) (late : Int) (s : State) : Out :=
  .next (s.whenCore fun s =>
    if !s.pllOn then s
    else
      match asTrunk port with
      | none => s.count Reg.BEAT_BLK_BAD
      | some t =>
        if s.beatValid t num pep late then s.takeBeat t hops hold ofs late
        else (s.measureBeat t num ofs late).count Reg.BEAT_BLK_BAD)

/-- HOLDOVER_ENTRY (R37): two beats without a valid block on any port. -/
def execHoldoverEntry (s : State) : Out :=
  .next (s.whenCore fun s =>
    if s.beat.timing = .track && decide (s.beat.lastValid + 2 ≤ s.heads) then
      ({ s with beat := { s.beat with timing := .holdover, holdSince := s.heads, timingPort := none, srcHold := false, err := 0 } } :
        State).count Reg.BEAT_HOLD_COUNT
    else s)

/-! ## The master's role (R30, R31, R116) -/

/-- This hub takes the role: own numbering and phase go on, HOPS = 0. -/
def State.becomeMaster (s : State) : State :=
  let s1 : State := { s with beat := { s.beat with timing := .master, timingPort := none, hops := 0, srcHold := false, err := 0 } }
  (if s.echo.master = Config.hubId then s1 else s1.newMaster Config.hubId).assignWhileForming

/-- This hub gives the role up and follows. -/
def State.becomeFollower (s : State) : State :=
  { s with beat := { s.beat with timing := .track, lastValid := s.heads, timingPort := none } }

/-- ENTER_MASTER (R116): from FREE, TRACK or HOLDOVER, on the PLL (R50), where the election among the own
consist names this hub, no move is under way and Column 1 does not restart (R265). -/
def execEnterMaster (s : State) : Out :=
  .next (s.whenCore fun s =>
    let t := s.beat.timing
    let moving := s.annOr.moveBeat != 0 && decide (s.beatNum.toNat < s.annOr.moveBeat.toNat)
    if (t = .free || t = .track || t = .holdover) && s.pllOn && s.actingMaster = Config.hubId && !moving && !s.echoPaused then
      s.viewing State.becomeMaster
    else s)

/-- The role comes to this hub at MOVE_BEAT: the elected of a FREE, TRACK or HOLDOVER hub on the PLL takes it; one on IFO stays FREE, and
one in STEP_PENDING keeps its duties until the step (R32, R50, Table BEA-4). -/
def State.takeRole (s : State) : State :=
  if s.pllOn && s.beat.timing != .stepPending then s.becomeMaster else s.newMaster Config.hubId

/-- MASTER_MOVE (R116): at the head of MOVE_BEAT; the new master says so at once. -/
def execMasterMove (s : State) : Out :=
  .next (s.whenCore fun s =>
    let a := s.annOr
    if a.moveBeat = 0 || s.beatNum ≠ a.moveBeat || a.nextMaster = 0 then s
    else s.viewing fun s =>
      if a.nextMaster = Config.hubId then s.takeRole.sendEchoAll false
      else (if s.beat.timing = .master then s.becomeFollower else s).newMaster a.nextMaster)

/-! ## The path epoch (R117) -/

/-- An epoch comes into force: PEP_PREV, PEP, the beat of the raise, the count, the route table afresh and the
queues of flushed ports open again (R117, R156, R196). -/
def State.raiseTo (s : State) (pep : BitVec 4) (beat : Beat) : State :=
  let s1 := ((s.setFld Reg.TOPO_STATUS 14 11 s.pep.toNat).setFld Reg.TOPO_STATUS 10 7 pep.toNat).setReg48
    Reg.TOPO_EPOCH_BEAT_LO beat.toNat
  let s2 : State := { s1 with echo := { s1.echo with raiseHead := some s1.heads } }
  let s3 := s2.over (List.finRange 4) fun s t => s.modPort (trunk t) fun x => { x with flushed := false }
  (s3.count Reg.TOPO_EPOCH_RAISES).deriveRoutes

/-- The hubs lost from the own consist by link loss that have not come back. -/
def State.stillLost (s : State) : List HubId := s.echo.lost.filter fun i => !(s.view.any fun r => r.id == i)

/-- A port of a record holds for one of the hubs given. -/
def holdsFor (lost : List HubId) (r : HubRecord) : Bool := (List.finRange 4).any fun i => r.pst[i] == 1 && lost.contains r.nbId[i]

/-- A hub of a split half counts the split at the raise that closes its hold windows: hubs of the own consist
are gone and no port of the view holds for them any more; a joint that came back is no split (R126). -/
def State.countSplit (s : State) : State :=
  if s.stillLost.isEmpty || s.view.any (holdsFor s.stillLost) then s
  else ({ s with echo := { s.echo with lost := [] } } : State).count Reg.TOPO_SPLITS

/-- EPOCH_RAISE (R117): at step 2 of the head of EPOCH_BEAT. -/
def execEpochRaise (s : State) : Out :=
  .next (s.whenCore fun s =>
    let a := s.annOr
    if a.epochBeat = 0 || s.beatNum ≠ a.epochBeat || a.pepNext = s.pep then s
    else (s.raiseTo a.pepNext a.epochBeat).countSplit)

/-- PEP_PREV_WINDOW_END (R117): two beats after a raise. -/
def execPepPrevWindowEnd (s : State) : Out :=
  .next (s.whenCore fun s =>
    match s.echo.raiseHead with
    | none => s
    | some h => if s.heads < h + 2 then s else { s with echo := { s.echo with raiseHead := none } })

/-! ## The merge step (R45-R47, R121) -/

/-- The stepping side adds its offset to BEAT_NUM, to the target of each pending commit and to the anchor of
each gate list and task table (R47). -/
def State.renumber (s : State) (ofs : Nat) : State :=
  if ofs = 0 then s
  else
    let s1 := s.setBeatNum (s.beatNum + BitVec.ofNat 48 ofs)
    let s2 : State := { s1 with
      beat := { s1.beat with commits := s1.beat.commits.map fun c => { c with target := c.target + BitVec.ofNat 48 ofs } }
      eng := { s1.eng with anchor := s1.eng.anchor + BitVec.ofNat 48 ofs } }
    s2.over (List.range 21) fun s p =>
      s.setReg48 (Reg.SCHED_GL_ANCHOR_LO p) ((s.reg48 (Reg.SCHED_GL_ANCHOR_LO p) + ofs) % 2 ^ 48)

/-- The record of a step: the step beat in the merged numbering and the own offset (R47). -/
def State.recordStep (s : State) (merged ofs : Nat) : State :=
  let s1 := ((s.setReg48 Reg.BEAT_STEP_LO merged).setReg48 Reg.BEAT_STEP_OFS_LO ofs).count Reg.BEAT_STEP_COUNT
  { s1 with beat := { s1.beat with
    stepHead := if ofs = 0 then s.beat.stepHead else some s.heads
    prevStep := s.reg48 Reg.BEAT_STEP_LO } }

/-- A slot assignment of a merge is taken; a hub that held another slot counts the move (R120, R121). -/
def State.takeSlot (s : State) (l : List SlotAssign) : State :=
  match mySlotIn l with
  | none => s
  | some k =>
    if s.mySlot = k.toNat then s
    else if s.mySlot = 0 then s.adoptSlot k
    else (s.adoptSlot k).count Reg.TOPO_SLOT_MOVES

/-- One entry of a moved slot goes to the new slot with all its fields but GEN, which rises by one on both entries; the old one becomes
invalid. A pinned entry stays pinned where the new set has room (R121, R145, R153, R161; DESIGN CHOICE, log 89). -/
def State.moveEntry (s : State) (k : Nat) (ep : EpId) : State :=
  let e := s.epNow ep
  if !e.valid then s
  else
    let stamp (x : EpEntry) (g : BitVec 8) : EpEntry := { x with gen := g + 1, cmdBeat := s.beatNum, cmdMaster := 1 }
    let note (s : State) (i : EpId) : State := { s with tun := { s.tun with
      changed := (s.tun.changed.filter fun c => c.1 != i && decide (s.heads < c.2 + 16)) ++ [(i, s.heads)] } }
    let new := epWithSlot ep k
    let s1 := s.writeEntry ep (stamp { e with valid := false, revoked := false, pin := false } e.gen)
    let x := { e with pin := e.pin && decide (s1.pinnedInSet new < 12) }
    note (note (s1.writeEntry new (stamp x (s1.epNow new).gen)) ep) new

/-- The identifiers of a slot that the table or the cache holds. -/
def State.slotEntries (s : State) (k : Nat) : List EpId :=
  ((s.tun.table.map fun x => BitVec.ofNat 25 x.1) ++ ((s.tun.cache.map (·.ep)).filter fun i => (s.tun.table.all fun x => x.1 != i.toNat))).filter
    fun i => epSlot i == k

/-- Column 1 of a hub of the joining side moves the entries of the slots that its consist loses to the merge (R121): on the master side
those slots are still their holders'. -/
def State.moveSlots (s : State) (l : List SlotAssign) : State :=
  s.over l fun s a =>
    let old := if a.id = Config.hubId then s.mySlot else ((s.recordOf a.id).map (·.slot.toNat)).getD 0
    if old = 0 ∨ old = a.slot.toNat then s else s.over (s.slotEntries old) fun s i => s.moveEntry a.slot.toNat i

/-- The announcement of the master side after the step: a raise that still lay ahead follows the merge's with the next epoch, on the
beat as renumbered, and a move is announced anew (R47, R116, R118; DESIGN CHOICE, log 90). -/
def Announcement.afterMerge (a : Announcement) (pep : BitVec 4) (ahead : Bool) (ofs : Nat) : Announcement :=
  { a with
    pepNext := if ahead then pep + 1 else pep
    epochBeat := if ahead then a.epochBeat + BitVec.ofNat 48 ofs else 0
    moveBeat := 0, nextMaster := 0 }

/-- The merge by which a hub of the joining side knows the hub that leads to the other side: the merged master; on the master side, the
joint hub (R122). -/
def Merge.beyond (m : Merge) : HubId := if m.joining then m.record.masterId else m.record.jointId

/-- The hubs that join the own consist by a merge. -/
def State.newcomers (s : State) (m : Merge) : List HubId :=
  match seenIn s.view m.beyond with
  | some r => (componentOf s.others r).map (·.id)
  | none => [m.beyond]

/-- The consist after merges. -/
def State.mergedMembers (s : State) (ms : List Merge) : List HubId :=
  ms.foldl (fun l m => l ++ (s.newcomers m).filter fun i => !l.contains i) s.echo.members

/-- The slots that a merge's list gives, with the entries of those moved on the joining side (R121). -/
def State.takeMergeSlots (s : State) (m : Merge) : State :=
  (if m.joining then s.moveSlots m.assigns else s).takeSlot m.assigns

/-- Out of STEP_PENDING at the step: the merged master leads and the others follow (Table BEA-4). -/
def State.leaveStep (s : State) : State :=
  if s.beat.timing = .stepPending then (if s.echo.master = Config.hubId then s.becomeMaster else s.becomeFollower) else s

/-- What every hub of both sides takes at the step: PEP_NEW, slots, the merged master and consist (R123). The first merge speaks for
those of one step beat. -/
def State.merged (s : State) (m : Merge) (ms : List Merge) (beat ofs : Nat) : State :=
  let ahead := s.raiseAhead
  let all := s.mergedMembers ms
  let s1 := (s.over ms State.takeMergeSlots).raiseTo m.record.pepNew (BitVec.ofNat 48 beat)
  let s2 := (s1.over ms fun s _ => s.count Reg.TOPO_MERGES).setMaster m.record.masterId
  let s3 : State := { s2.setMerges [] with echo := { (s2.setMerges []).echo with members := all, lost := [], away := [] } }
  let s4 : State := if m.joining then { s3 with echo := { s3.echo with ann := none } }
    else if s3.echo.master = Config.hubId then s3.announce fun a => a.afterMerge m.record.pepNew ahead ofs
    else s3
  (s4.leaveStep.assignWhileForming.announceMove).sendEchoAll true

/-- The number by which the own side knows the step of a merge (R45). -/
def Merge.target (m : Merge) : Nat := if m.joining then m.record.jn.toNat else m.record.s.toNat

/-- The merges that the coming head is the step of: those of the own joining, or else those of a master side (R122). -/
def State.dueMerges (s : State) : List Merge :=
  let mine := if s.merges.any (·.joining) then s.merges.filter (·.joining) else s.merges
  mine.filter fun m => s.beatNum.toNat + 1 == m.target

/-- The merged number of the merges of one step beat, the highest of S and every JN: each side lands on the same beat (R45; DEDUCED,
log 91). -/
def mergedNumber (ms : List Merge) : Nat := (ms.filter (·.complete)).foldl (fun n m => max n (max m.record.s.toNat m.record.jn.toNat)) 0

/-- The step itself (R46, R47): the joining side stretches the beat in progress, a side with an offset renumbers, and the joining and
the stepping side record it. -/
def State.stepMerged (s : State) (m : Merge) (big : Nat) : State :=
  let ofs := big - m.target
  let s1 : State := if m.joining then { s with beat := { s.beat with length := s.beat.length + m.record.delta.toNat } } else s
  let s2 := s1.renumber ofs
  if m.joining || ofs != 0 then s2.recordStep big ofs else s2

/-- MERGE_STEP (R47): before step 1 of the head that this hub numbers as the step. A record still incomplete then is discarded, and no
step is taken for it (R125). -/
def execMergeStep (s : State) : Out :=
  .next (s.whenCore fun s =>
    let due := s.dueMerges
    let late (m : Merge) : Bool := !m.complete && (m.joining || due.contains m)
    match due.filter (·.complete) with
    | [] => s.setMerges (s.merges.filter fun m => !late m)
    | m :: ms =>
      let big := mergedNumber s.merges
      s.viewing fun s => (s.stepMerged m big).merged m (m :: ms) big (big - m.target))

end Sys2Proof.Machine
end

