-- ==== Sys2Proof/Machine/Image.lean ====
section
/-! DEFINITION. Machine/Image.lean: the configuration image: its header, section table and signature block, the records of its
sections, and the checks made before one is used (R351-R366, Tables BOT-2 to BOT-8). An image is read byte by byte: `img i` is
byte i of the copy. -/

namespace Sys2Proof.Machine

open Sys2Proof

/-! ## Reading -/

/-- Bytes of an image. -/
def imgBytes (img : Nat → Byte) (lo n : Nat) : List Byte := (List.range n).map fun i => img (lo + i)

/-- A little-endian number of an image. -/
def imgNum (img : Nat → Byte) (lo n : Nat) : Nat := leNat (imgBytes img lo n)

/-- A byte of a copy: 0 and 1 are the flash copies A and B, 2 the staging buffer (R351, R372). -/
def State.copyByte (s : State) (c : Fin 3) (i : Nat) : Byte :=
  if c = 2 then Store.get Flash.blank s.boot.staging (i % 0x800000)
  else Store.get Flash.blank s.boot.flash (s.copyBase (c == 1) + i)

/-- The window a copy may fill (R351, R372). -/
def State.copyWindow (s : State) (c : Fin 3) : Nat := if c = 2 then 0x800000 else s.flashHalf

/-! ## The header (R352, Table BOT-2) -/

/-- LEN. -/
def imgLen (img : Nat → Byte) : Nat := imgNum img 12 4

/-- GEN. -/
def imgGen (img : Nat → Byte) : Nat := imgNum img 8 4

/-- CL. -/
def imgCl (img : Nat → Byte) : Nat := (img 6).toNat

/-- NSEC. -/
def imgSections (img : Nat → Byte) : Nat := (img 7).toNat

/-- The failure of a header, 0 for none (Tables BOT-2, BOT-15). -/
def headerFail (img : Nat → Byte) (window : Nat) : Nat :=
  if imgBytes img 0 4 ≠ [0x53, 0x50, 0x54, 0x54] then 1
  else if imgNum img 4 2 ≠ 1 ∨ (imgBytes img 17 3 ++ imgBytes img 24 40).any (fun b => b != 0) = true then 2
  else if imgCl img = 0 ∨ imgCl img = 0xFF then 3
  else if imgGen img = 0 ∨ imgGen img = 0xFFFFFFFF then 4
  else if imgLen img % 256 ≠ 0 ∨ imgLen img < 512 ∨ window < imgLen img + 256 then 5
  else if imgSections img = 0 ∨ 16 < imgSections img then 6
  else if 3 < (img 16).toNat then 8
  else 0

/-! ## The section table (R353, Tables BOT-3, BOT-4) -/

/-- An entry of the section table: its number in the table, TYPE, INDEX, its reserved bytes, OFFSET, SIZE and CRC. -/
structure Section where
  entry : Nat
  kind : Nat
  index : Nat
  rsvd : Nat
  offset : Nat
  size : Nat
  crc : Nat
deriving DecidableEq, Repr

/-- Entry i of the section table. -/
def sectionAt (img : Nat → Byte) (i : Nat) : Section :=
  let o := 64 + 16 * i
  { entry := i, kind := (img o).toNat, index := (img (o + 1)).toNat, rsvd := imgNum img (o + 2) 2, offset := imgNum img (o + 4) 4,
    size := imgNum img (o + 8) 4, crc := imgNum img (o + 12) 4 }

/-- The entries in use. -/
def sectionsOf (img : Nat → Byte) : List Section := (List.range (imgSections img)).map (sectionAt img)

/-- An entry that stands alone rightly. -/
def Section.ok (x : Section) (len : Nat) : Bool :=
  decide (1 ≤ x.kind ∧ x.kind ≤ 10) && decide (if x.kind = 4 then x.index ≤ 2 else x.index = 0) && x.rsvd == 0 &&
    x.offset % 16 == 0 && decide (1 ≤ x.size) && decide (320 ≤ x.offset) && decide (x.offset + x.size ≤ len)

/-- Two sections overlap. -/
def Section.overlaps (x y : Section) : Bool := decide (x.offset < y.offset + y.size) && decide (y.offset < x.offset + x.size)

/-- Two entries that one image may not both hold: one type and index twice, or an overlap. -/
def Section.clashes (x y : Section) : Bool := x.overlaps y || (x.kind == y.kind && x.index == y.index)

/-- The first entry that clashes with an earlier one. -/
def firstClash : List Section → List Section → Option Section
  | _, [] => none
  | seen, x :: rest => if seen.any x.clashes then some x else firstClash (x :: seen) rest

/-- The section of a type and index. -/
def findSection (l : List Section) (kind index : Nat) : Option Section := l.find? fun x => x.kind == kind && x.index == index

/-- The entry at which the section table fails, none where it passes: 0 where no entry applies (Table BOT-12). -/
def tableFail (img : Nat → Byte) : Option Nat :=
  let l := sectionsOf img
  match l.find? (fun x => !x.ok (imgLen img)), firstClash [] l with
  | some x, _ => some x.entry
  | none, some x => some x.entry
  | none, none =>
    let tail := imgBytes img (64 + 16 * imgSections img) (16 * (16 - imgSections img))
    let all := (findSection l 3 0).isSome && [0, 1, 2].all fun i => (findSection l 4 i).isSome
    if tail.all (fun b => b == 0) && all then none else some 0

/-- A failure as BOOT_FAIL shows it. -/
def failWord (code entry : Nat) : Nat := code + 16 * entry

/-- What makes a copy a candidate: header and section table; 0 where both pass (R364). -/
def candidateFail (img : Nat → Byte) (window : Nat) : Nat :=
  let h := headerFail img window
  if h ≠ 0 then failWord h 0
  else match tableFail img with
    | some e => failWord 6 e
    | none => 0

/-- The bytes of a section. -/
def sectionBytes (img : Nat → Byte) (x : Section) : List Byte := imgBytes img x.offset x.size

/-- The first of the sections, in the order in which they end, whose CRC fails (R364). -/
def crcFail (img : Nat → Byte) : Option Section :=
  let bad := (sectionsOf img).filter fun x => (crc32 (sectionBytes img x)).toNat != x.crc
  let sooner (a : Option Section) (x : Section) : Option Section :=
    match a with
    | none => some x
    | some y => if x.offset + x.size < y.offset + y.size then some x else some y
  bad.foldl sooner none

/-! ## The signature (R347, R354) -/

/-- The failure of the signature block: 8 position, 9 hash, 10 signature; 0 none. -/
def State.signFail (s : State) (img : Nat → Byte) : Nat :=
  let len := imgLen img
  let key := imgBytes img len 97
  let p : BitVec 2 := BitVec.ofNat 2 (img 16).toNat
  if !s.fuseUsable p then 8
  else if s.geode.fuses[p.toNat]'(by omega) ≠ some (Config.sha384 key) then 9
  else if key.head? ≠ some 4 ∨ (imgBytes img (len + 193) 63).any (fun b => b != 0) = true then 10
  else if Config.ecdsaOk key (Config.sha384 (imgBytes img 0 len)) (imgBytes img (len + 97) 96) then 0
  else 10

/-! ## Sections -/

/-- The records of a fixed size of a section, where its SIZE is a multiple of it. -/
def recordsOf (size : Nat) : Nat → List Byte → List (List Byte)
  | 0, _ => []
  | n + 1, bs => bs.take size :: recordsOf size n (bs.drop size)

/-- A little-endian number at an offset of a record. -/
def field (r : List Byte) (lo n : Nat) : Nat := leNat ((r.drop lo).take n)

/-- The bytes of the section of a type, none where the image has none. -/
def sectionOf (img : Nat → Byte) (kind index : Nat) : Option (List Byte) :=
  (findSection (sectionsOf img) kind index).map (sectionBytes img)

/-- A section as records; without the section, none. -/
def sectionRecords (img : Nat → Byte) (kind size : Nat) : List (List Byte) :=
  match sectionOf img kind 0 with
  | none => []
  | some bs => recordsOf size (bs.length / size) bs

/-- A section, where present, is a whole number of records that all pass. -/
def recordsPass (img : Nat → Byte) (kind size : Nat) (ok : List Byte → Bool) : Bool :=
  match sectionOf img kind 0 with
  | none => true
  | some bs => bs.length % size == 0 && (recordsOf size (bs.length / size) bs).all ok

/-! ### STRAP_OVR and REGINIT (R355, R356) -/

/-- A REGINIT record: ADDR, KIND, SET, CLEAR, VALUE. -/
structure InitRecord where
  addr : Nat
  kind : Nat
  set : Word
  clear : Word
  value : Word
deriving DecidableEq, Repr

/-- The record that 16 bytes spell. -/
def initRecord (r : List Byte) : InitRecord :=
  { addr := field r 0 3, kind := field r 3 1, set := BitVec.ofNat 32 (field r 4 4), clear := BitVec.ofNat 32 (field r 8 4),
    value := BitVec.ofNat 32 (field r 12 4) }

/-- The REGINIT records of an image. -/
def initRecords (img : Nat → Byte) : List InitRecord := (sectionRecords img 2 16).map initRecord

/-- The load check of a REGINIT record. -/
def InitRecord.ok (r : InitRecord) : Bool :=
  decide (r.addr ≤ 0x7FFFFC) &&
    (match r.kind with
     | 0 => r.value == 0
     | 1 => r.set == 0 && r.clear == 0
     | 2 => true
     | _ => false)

/-- A register after the REGINIT writes that name it, from the value it has before them (R356). -/
def initValue (a : Nat) : List InitRecord → Word → Word
  | [], w => w
  | r :: rest, w =>
    let w' := if r.addr ≠ a then w
      else if r.kind = 0 then (w &&& ~~~r.clear) ||| r.set
      else if r.kind = 1 then r.value
      else w
    initValue a rest w'

/-- STRAP_OVR, where present, is 8 bytes. -/
def strapOvrOk (img : Nat → Byte) : Bool :=
  match sectionOf img 1 0 with
  | none => true
  | some bs => bs.length == 8

/-! ### Task tables (R253, R357) -/

/-- The task entry that 8 bytes spell (Table ENC-2). -/
def taskEntry (r : List Byte) : TaskEntry :=
  { entry := BitVec.ofNat 16 (field r 0 2), budget := BitVec.ofNat 16 (field r 2 2), maxf := BitVec.ofNat 8 (field r 4 1),
    flags := BitVec.ofNat 8 (field r 5 1) }

/-- A task table of a number of beat indexes at the head of a list of bytes, and the bytes it takes. -/
def readTable : Nat → List Byte → Option (List (List TaskEntry) × Nat)
  | 0, _ => some ([], 0)
  | n + 1, bs =>
    let count := field bs 0 1
    if bs.length < 4 + 8 * count ∨ 32 < count then none
    else
      match readTable n (bs.drop (4 + 8 * count)) with
      | none => none
      | some (rest, used) => some ((recordsOf 8 count (bs.drop 4)).map taskEntry :: rest, used + 4 + 8 * count)

/-- The load check of a task table against its code (R253). A word that ENTRY counts is one of 64 bits, over which IMEM
has its SECDED (R249; DEDUCED, log 113). -/
def taskTableOk (table : List (List TaskEntry)) (codeLen : Nat) : Bool :=
  table.all fun l => decide ((l.map fun t => t.budget.toNat).sum ≤ 48380) && l.all fun t => decide (t.entry.toNat * 8 < codeLen)

/-- A role of ENGINE_CODE: its table and seed, and the offset at which they end. -/
structure RoleImage where
  table : List (List TaskEntry)
  seed : List Byte
  last : Nat
deriving DecidableEq, Repr

/-- The role that descriptor r describes, where it passes its checks. -/
def roleImage (bs : List Byte) (r : Nat) : Option RoleImage :=
  let d := (bs.drop (8 + 16 * r)).take 16
  let cycle := field d 0 1
  let seedLen := field d 2 2
  let tableOfs := field d 4 4
  let seedOfs := field d 8 4
  if cycle = 0 ∨ 64 < cycle ∨ 16384 < seedLen ∨ tableOfs < 264 ∨ (seedLen ≠ 0 ∧ (seedOfs < 264 ∨ bs.length < seedOfs + seedLen)) then none
  else
    match readTable cycle (bs.drop tableOfs) with
    | none => none
    | some (t, used) =>
      if taskTableOk t (field bs 0 4) then
        some { table := t, seed := (bs.drop seedOfs).take seedLen, last := max (tableOfs + used) (if seedLen = 0 then 0 else seedOfs + seedLen) }
      else none

/-- ENGINE_CODE passes: the code of 1 to 65,536 bytes, every role, and SIZE is where the last of them ends (R249, R357). -/
def engineCodeOk (bs : List Byte) : Bool :=
  let n := field bs 0 4
  let roles := (List.range 16).map (roleImage bs)
  decide (264 ≤ bs.length) && decide (1 ≤ n ∧ n ≤ 65536) && roles.all (·.isSome) &&
    bs.length == roles.foldl (fun a r => max a ((r.map (·.last)).getD 0)) (264 + n)

/-- A Column's firmware: its start, its table and its contents. -/
structure Firmware where
  entry : Word
  table : List (List TaskEntry)
  code : List Byte
deriving DecidableEq, Repr

/-- The firmware that a section holds, where it passes its checks (R259, R358). -/
def firmware (bs : List Byte) : Option Firmware :=
  let n := field bs 0 4
  let start := field bs 4 4
  let cycle := field bs 12 1
  let code := bs.drop 16
  if bs.length ≠ 16 + n ∨ n = 0 ∨ 131072 < n ∨ n ≤ start ∨ cycle = 0 ∨ 64 < cycle then none
  else
    match readTable cycle (code.drop (field bs 8 4)) with
    | none => none
    | some (t, _) => if taskTableOk t n then some { entry := BitVec.ofNat 32 start, table := t, code := code } else none

/-- The firmware of Column 0 to 3 (R358). -/
def firmwareOf (img : Nat → Byte) (c : Nat) : Option Firmware := (if c = 3 then sectionOf img 5 0 else sectionOf img 4 c).bind firmware

/-! ### GATES and ALLOT (R203, R209, R359, R360) -/

/-- A gate list of the image: port, cycle and the entry words. -/
structure GateImage where
  port : Nat
  cycle : Nat
  entries : List Word
deriving DecidableEq, Repr

/-- The gate lists of a section, where each passes R203; the number bounds the records. -/
def readGates : Nat → List Byte → Option (List GateImage)
  | 0, bs => if bs.isEmpty then some [] else none
  | n + 1, bs =>
    if bs.isEmpty then some []
    else
      let nent := field bs 1 1
      let g : GateImage := { port := field bs 0 1, cycle := field bs 2 1, entries := (recordsOf 4 nent (bs.drop 4)).map fun r => BitVec.ofNat 32 (leNat r) }
      let durs := g.entries.map fun w => bitsOf w 23 8
      if bs.length < 4 + 4 * nent ∨ 20 < g.port ∨ nent = 0 ∨ 128 < nent ∨ g.cycle = 0 ∨ 64 < g.cycle ∨ durs.contains 0 = true ∨
          durs.sum ≠ g.cycle * 6250 then none
      else
        match readGates n (bs.drop (4 + 4 * nent)) with
        | none => none
        | some rest => if rest.any fun x => x.port == g.port then none else some (g :: rest)

/-- The gate lists of an image, none where they fail the load check. -/
def gatesOf (img : Nat → Byte) : Option (List GateImage) :=
  match sectionOf img 6 0 with
  | none => some []
  | some bs => readGates 22 bs

/-- The rate set at an offset of a record. -/
def rateSetAt (r : List Byte) (lo : Nat) : RateSet :=
  { cir := BitVec.ofNat 32 (field r lo 4), cbs := BitVec.ofNat 24 (field r (lo + 4) 4), pir := BitVec.ofNat 32 (field r (lo + 8) 4),
    pbs := BitVec.ofNat 24 (field r (lo + 12) 4) }

/-- A rate set passes R209, its bucket sizes within 24 bits. -/
def rateSetAtOk (r : List Byte) (lo : Nat) : Bool :=
  rateSetOk (field r lo 4) (field r (lo + 4) 4) (field r (lo + 8) 4) (field r (lo + 12) 4) && field r (lo + 7) 1 == 0 && field r (lo + 15) 1 == 0

/-- Bytes of a record are 0. -/
def zeros (r : List Byte) (lo hi : Nat) : Bool := ((r.drop lo).take (hi - lo + 1)).all fun b => b == 0

/-- The load check of an ALLOT record (Table BOT-6). -/
def allotOk (r : List Byte) : Bool :=
  match field r 0 1 with
  | 1 => decide (field r 1 1 ≤ 20) && decide (field r 2 1 ≤ 7) && decide (field r 3 1 ≤ 1) && zeros r 4 7 && rateSetAtOk r 8
  | 2 => decide (1 ≤ field r 1 2 ∧ field r 1 2 ≤ 4095) && zeros r 3 7 && rateSetAtOk r 8
  | 3 => decide (field r 1 1 ≤ 7) && zeros r 2 7 && rateSetAtOk r 8
  | 4 => decide (1 ≤ field r 1 2) && decide (field r 3 1 ≤ 7) && zeros r 4 7 && zeros r 20 23
  | 5 => decide (field r 1 1 ≤ 20) && zeros r 2 11
  | _ => false

/-! ### EP_SEED (R361) -/

/-- The endpoint that a seed record names. -/
def seedEp (r : List Byte) : EpId := BitVec.ofNat 25 (field r 0 4)

/-- A seed record's PIN. -/
def seedPin (r : List Byte) : Bool := (BitVec.ofNat 32 (field r 0 4) : Word).getLsbD 25

/-- The endpoint under which a seed record is written: slot 0 stands for the preferred slot (R361). -/
def seedPlace (pref : Nat) (r : List Byte) : EpId :=
  if epSlot (seedEp r) = 0 then BitVec.ofNat 25 (pref * 2 ^ 18 + epLocal (seedEp r)) else seedEp r

/-- The load check of the seed records under a preferred slot (R361, R147). -/
def seedsOk (rs : List (List Byte)) (pref : Nat) : Bool :=
  let pins := rs.filter seedPin
  let place := seedPlace pref
  let epOk (r : List Byte) : Bool :=
    decide (field r 0 4 < 2 ^ 26) && !(epIsGroup (seedEp r) && bitsOf ((seedEp r).setWidth 32) 17 12 != 0) && !(epSlot (seedEp r) == 0 && pref == 0)
  rs.all epOk && decide ((rs.map place).Nodup) && decide (pins.length ≤ 16384) &&
    pins.all fun r => decide ((pins.countP fun q => cacheSet (place q) == cacheSet (place r)) ≤ 12)

/-! ### KEY_POLICY (R362) -/

/-- A KEY_POLICY record. -/
structure PolicyRecord where
  op : Nat
  slot : Nat
  context : List Byte
  attr : Nat
deriving DecidableEq, Repr

/-- The records of a KEY_POLICY section; the number bounds them. -/
def readPolicy : Nat → List Byte → Option (List PolicyRecord)
  | 0, bs => if bs.isEmpty then some [] else none
  | n + 1, bs =>
    if bs.isEmpty then some []
    else
      let len := field bs 2 1
      let all := 8 + (len + 3) / 4 * 4
      if bs.length < all then none
      else
        match readPolicy n (bs.drop all) with
        | none => none
        | some rest => some ({ op := field bs 0 1, slot := field bs 1 1, context := (bs.drop 8).take len, attr := field bs 4 4 } :: rest)

/-- The load check of a KEY_POLICY record (Table BOT-7). -/
def PolicyRecord.ok (r : PolicyRecord) : Bool :=
  decide (r.context.length ≤ 192) &&
    (match r.op with
     | 1 => decide (1 ≤ r.slot ∧ r.slot ≤ 127) && decide (1 ≤ r.context.length)
     | 2 => decide (1 ≤ r.slot ∧ r.slot ≤ 127)
     | 3 => decide (1 ≤ r.slot ∧ r.slot ≤ 127)
     | 4 => r.slot == 0 && r.context.isEmpty && decide (r.attr < 2 ^ 24)
     | _ => false)

/-- The KEY_POLICY of an image, none where it fails the load check. -/
def policyOf (img : Nat → Byte) : Option (List PolicyRecord) :=
  match sectionOf img 9 0 with
  | none => some []
  | some bs => (readPolicy (bs.length / 8) bs).bind fun l => if l.all PolicyRecord.ok then some l else none

/-! ### ADMISSION (R363) -/

/-- The bytes that COVER digests: REGINIT, ENGINE_CODE, CUSTOMER_FW, GATES and ALLOT in table order. -/
def covered (img : Nat → Byte) : List Byte :=
  ((sectionsOf img).filter fun x => x.kind == 2 || x.kind == 3 || x.kind == 5 || x.kind == 6 || x.kind == 7).flatMap (sectionBytes img)

/-- ADMISSION, where present, agrees. -/
def admissionOk (img : Nat → Byte) : Bool :=
  match sectionOf img 10 0 with
  | none => true
  | some bs => (bs.drop 48).take 48 == Config.sha384 (covered img) && field bs 100 1 == imgCl img

/-! ## The load checks and the whole check (R364, Table BOT-8) -/

/-- The preferred slot under which slot-0 seeds are written: TOPO_CFG as REGINIT leaves it, or in a wake as it was restored
(R361, R394). -/
def State.imagePref (s : State) (img : Nat → Byte) : Nat :=
  let w := if s.mode = .start ∧ s.boot.fromDormant = true then s.reg Reg.TOPO_CFG
    else initValue Reg.TOPO_CFG (initRecords img) (resetWord Reg.TOPO_CFG)
  prefSlotOf w

/-- Every load check of Table BOT-8 but for ADMISSION's agreement. -/
def State.loadOk (s : State) (img : Nat → Byte) : Bool :=
  strapOvrOk img && recordsPass img 2 16 (fun r => (initRecord r).ok) && (sectionOf img 3 0).any engineCodeOk &&
    [0, 1, 2].all (fun c => (firmwareOf img c).isSome) && ((sectionOf img 5 0).isNone || (firmwareOf img 3).isSome) &&
    (gatesOf img).isSome && recordsPass img 7 24 allotOk && recordsPass img 8 72 (fun _ => true) &&
    seedsOk (sectionRecords img 8 72) (s.imagePref img) && (policyOf img).isSome &&
    ((sectionOf img 10 0).map (·.length)).getD 112 == 112

/-- The checks of a copy in the order in which they are made: read, CRC, signature, load, ADMISSION; 0 where all pass (R364). -/
def State.copyFail (s : State) (img : Nat → Byte) (window : Nat) (readOk : Bool) : Nat :=
  let c := candidateFail img window
  if c ≠ 0 then c
  else if !readOk then failWord 13 0
  else match crcFail img with
    | some x => failWord 7 x.entry
    | none =>
      let g := s.signFail img
      if g ≠ 0 then failWord g 0
      else if !s.loadOk img then failWord 11 0
      else if !admissionOk img then failWord 12 0
      else 0

/-! ## The order of the copies (R364, R365) -/

/-- A generation is newer than another in serial order (R365). -/
def genNewer (g1 g2 : Nat) : Bool :=
  let d := (g1 + 2 ^ 32 - g2) % 2 ^ 32
  decide (1 ≤ d) && decide (d < 2 ^ 31)

/-- The candidates in the order in which they are tried (R364). -/
def State.candidates (s : State) : List (Fin 3) :=
  let ok (c : Fin 3) : Bool := candidateFail (s.copyByte c) (s.copyWindow c) == 0
  match ok 0, ok 1 with
  | true, true => if genNewer (imgGen (s.copyByte 1)) (imgGen (s.copyByte 0)) then [1, 0] else [0, 1]
  | true, false => [0]
  | false, true => [1]
  | false, false => []

end Sys2Proof.Machine
end

