-- ==== Sys2Proof/Machine/BootApply.lean ====
section
/-! DEFINITION. Machine/BootApply.lean: how the chosen image is applied (R355-R363, R368). -/

namespace Sys2Proof.Machine

open Sys2Proof

/-! ## STRAP_OVR and REGINIT (R355, R356) -/

/-- The strap levels in force after STRAP_OVR: those it masks, in place of the sampled ones. -/
def State.overridden (s : State) (img : Nat → Byte) : Nat :=
  let eff := s.fld Reg.GLB_STRAPS 8 0
  match sectionOf img 1 0 with
  | none => eff
  | some bs =>
    let mask : Word := BitVec.ofNat 32 (field bs 0 4 % 512)
    let value : Word := BitVec.ofNat 32 (field bs 4 4)
    ((BitVec.ofNat 32 eff &&& ~~~mask) ||| (value &&& mask)).toNat

/-- What a REGINIT record comes to. -/
inductive InitResult where
  | done
  | unmet
  | fault
deriving DecidableEq, Repr

/-- A write of the boot sequencer. -/
def State.bootWrite (s : State) (addr : Nat) (w : Word) : State × InitResult :=
  let x := s.writeAccess 4 addr w
  (x.1, if x.2 = .busError then .fault else .done)

/-- A REGINIT record: KIND 0 through the clear and set aliases, KIND 1 a whole word, KIND 2 a poll (R356). -/
def State.initOne (s : State) (r : InitRecord) : State × InitResult :=
  if r.kind = 1 then s.bootWrite r.addr r.value
  else if r.kind = 2 then
    let x := s.readAccess 4 r.addr 4
    match x.2 with
    | .data bs => (x.1, if (BitVec.ofNat 32 (leNat bs) : Word) &&& r.set = r.value then .done else .unmet)
    | _ => (x.1, .fault)
  else
    let a := if r.clear = 0 then (s, InitResult.done) else s.bootWrite (0x2000000 + r.addr) r.clear
    if a.2 = .fault ∨ r.set = 0 then a else a.1.bootWrite (0x1000000 + r.addr) r.set

/-- How the records ran: the state, whether a record failed, and the record at which an unmet poll waits. -/
structure InitRun where
  state : State
  fault : Bool
  waits : Option Nat

/-- REGINIT from record `i` on. An unmet poll waits where it has a time limit and is no retry; a record of the save set is
skipped in a wake from DORMANT; a record that starts the hub anew ends the application (R356, R394). -/
def State.initFrom (s : State) (i : Nat) (retry : Bool) : List InitRecord → InitRun
  | [] => { state := s, fault := false, waits := none }
  | r :: rest =>
    if s.boot.fromDormant && isSaved r.addr then s.initFrom (i + 1) false rest
    else
      let x := s.initOne r
      match x.2 with
      | .fault => { state := x.1, fault := true, waits := none }
      | .unmet =>
        if retry || r.clear == 0 then { state := x.1, fault := true, waits := none } else { state := x.1, fault := false, waits := some i }
      | .done => if x.1.boot.applying then x.1.initFrom (i + 1) false rest else { state := x.1, fault := false, waits := none }

/-! ## GATES and ALLOT (R359, R360) -/

/-- A gate list goes to its shadow (R207). -/
def State.applyGate (s : State) (g : GateImage) : State :=
  let s1 := s.setRegN (Reg.SCHED_GL_CFG g.port) (g.entries.length + 256 * g.cycle)
  (s1.over ((List.range g.entries.length).zip g.entries) fun s x =>
    s.setRegN (Reg.SCHED_GL_ENT g.port x.1) (bitsOf x.2 23 0)).wroteGate g.port

/-- The four words of a rate set from a register up. -/
def State.putRates (s : State) (a : Nat) (r : RateSet) : State :=
  (((s.setReg a (r.word 0)).setReg (a + 4) (r.word 1)).setReg (a + 8) (r.word 2)).setReg (a + 12) (r.word 3)

/-- An ALLOT record goes to its shadow, or to Column 0 as a plan input (Table BOT-6). -/
def State.applyAllot (s : State) (r : List Byte) : State :=
  let rates := rateSetAt r 8
  let zero : RateSet := { cir := 0, cbs := 0, pir := 0, pbs := 0 }
  let word (lo : Nat) : Word := BitVec.ofNat 32 (field r lo 4)
  match field r 0 1 with
  | 1 => (s.putRates (Reg.SCHED_CIR (field r 1 1) (field r 2 1)) rates).setRegN (Reg.SCHED_RESET_MODE (field r 1 1) (field r 2 1)) (field r 3 1)
  | 2 => { s with sched := { s.sched with profShadow := Store.set (fun _ => zero) (field r 1 2) rates s.sched.profShadow } }
  | 3 => s.putRates (Reg.POL_CD_CIR (field r 1 1)) rates
  | 4 =>
    let t : Tunnel := { id := BitVec.ofNat 16 (field r 1 2), src := BitVec.ofNat 25 (field r 8 4), dest := BitVec.ofNat 25 (field r 12 4),
                        tc := BitVec.ofNat 3 (field r 3 1), rate := word 16 }
    { s with sched := { s.sched with tunnels := s.sched.tunnels.filter (fun x => x.id != t.id) ++ [t] } }
  | 5 =>
    let p : EgressPort := ⟨field r 1 1 % 21, Nat.mod_lt _ (by decide)⟩
    let e : Envelope := { port := p, tc5 := word 12, tc6 := word 16, tc7 := word 20 }
    { s with sched := { s.sched with envelopes := s.sched.envelopes.filter (fun x => x.port != p) ++ [e] } }
  | _ => s

/-! ## KEY_POLICY (R362) -/

/-- A key that the policy asks for is missing. -/
def State.keyMissing (s : State) : State := s.setBit Reg.BOOT_STATUS 12 true

/-- DERIVE_ROOT as a Geode command of the boot sequencer; over a valid slot with another ATTR it replaces (R362). -/
def PolicyRecord.command (r : PolicyRecord) : KeyCommand :=
  { master := 4, op := 1, replace := true, detach := false, transmit := false, root := false, slot := BitVec.ofNat 8 r.slot,
    arg := 0, attr := BitVec.ofNat 18 r.attr, len := r.context.length, data := r.context, pend := false }

/-- A KEY_POLICY record acts (Table BOT-7). -/
def State.applyPolicy (s0 : State) (r : PolicyRecord) : State :=
  let k := BitVec.ofNat 8 r.slot
  let s := if r.op = 4 then s0 else s0.readSlot k
  let same := (s.slot k).valid && (s.slot k).live.attr.toNat == r.attr
  match r.op with
  | 1 =>
    if same then s
    else
      let c := { r.command with pend := (s.slot k).pending }
      let s1 := s.runKey c
      if s.keyCode c = 0x0A then s1.keyMissing else s1
  | 2 => if same then s else s.keyMissing.logEvent 0x15 0x02 [r.slot]
  | 3 => if (s.slot k).valid then s.runKey { r.command with op := 2, replace := false, pend := (s.slot k).pending } else s
  | 4 =>
    let s1 := s.setFld Reg.KEY_CFG 15 0 (r.attr % 0x10000)
    s1.setReg Reg.KEY_TAMPER_CFG (s1.reg Reg.KEY_TAMPER_CFG ||| BitVec.ofNat 32 (nbits r.attr 23 16))
  | _ => s

/-! ## ENGINE_CODE, firmware and seeds (R250, R357, R358, R361) -/

/-- ENGINE_CODE goes into every engine and the role store; the engines of the roles take their seeds (R249, R250). -/
def State.applyEngines (s : State) (bs : List Byte) : State :=
  let code := (bs.drop 264).take (field bs 0 4)
  let role (r : RoleIx) (x : Role) : Role :=
    match roleImage bs r.val with
    | some y => { x with table := y.table, seed := y.seed }
    | none => x
  let roles := Vector.ofFn fun r => role r s.eng.roles[r]
  let engine (e : Engine) : Engine :=
    { e with
      imem := code
      dmem := (e.role.map fun r => roles[r].seed).getD [] }
  { s with eng := { s.eng with code := code, roles := roles, engines := vall s.eng.engines engine } }

/-- The base of a Column's TCM (R259). -/
def tcmBase (c : ColumnIx) : Nat := 0x300000000 + c.val * 0x100000

/-- Firmware goes into a Column's TCM, working half and image copy (R259, R358). The task table in force is the one loaded: a write to the
working half where it lies changes nothing that is released (DESIGN CHOICE, log 135). -/
def State.applyFirmware (s : State) (c : ColumnIx) (f : Firmware) : State :=
  let s1 := (s.setBytes (tcmBase c) f.code).setBytes (tcmBase c + 0x20000) f.code
  s1.modColumn c fun x => { x with loaded := true, table := f.table, entry := f.entry }

/-- The seed record that 72 bytes spell: GEN and NEXT_SEQ 0, tokens filled to the profile of the image, slot 0 taken as the
preferred slot (R361). -/
def State.seedRecord (s : State) (pref : Nat) (r : List Byte) : SeedRecord :=
  let w (i : Nat) : Word := BitVec.ofNat 32 (field r (8 + 4 * i) 4)
  let e := entryFrom w EpEntry.zero
  let set := rateAt s.sched.profShadow e.profile.toNat
  { ep := seedPlace pref r
    pin := seedPin r
    entry := { s.filled set e with pin := seedPin r } }

/-- The seeds are kept for SEED, and the pinned ones go into the cache (R361, R368). -/
def State.applySeeds (s : State) (img : Nat → Byte) : State :=
  let rs := (sectionRecords img 8 72).map (s.seedRecord s.prefSlot)
  ({ s with boot := { s.boot with seeds := rs } } : State).over (rs.filter (·.pin)) fun s r => s.fillCache r.ep r.entry

/-! ## The whole application (R368) -/

/-- A Column's firmware, where the image holds one. -/
def State.loadColumn (img : Nat → Byte) (s : State) (c : ColumnIx) : State :=
  match firmwareOf img c.val with
  | some f => s.applyFirmware c f
  | none => s

/-- Items 3 to 8 of R368. -/
def State.applyRest (s : State) (img : Nat → Byte) : State :=
  let s1 := s.over ((gatesOf img).getD []) State.applyGate
  let s2 := s1.over (sectionRecords img 7 24) State.applyAllot
  let s3 := s2.over ((policyOf img).getD []) State.applyPolicy
  let s4 := s3.applyEngines ((sectionOf img 3 0).getD [])
  (s4.over (List.finRange 4) (State.loadColumn img)).applySeeds img

/-- REGINIT from a record on, then the rest; a failing record is an apply fault (R356, R364). -/
def State.applyFrom (s : State) (img : Nat → Byte) (i : Nat) (retry : Bool) : State :=
  let x := s.initFrom i retry ((initRecords img).drop i)
  if x.fault then x.state.pendRecovery 4
  else
    match x.waits with
    | some j => { x.state with boot := { x.state.boot with applyAt := some j } }
    | none =>
      if !x.state.boot.applying then x.state
      else
        let s1 := x.state.applyRest img
        { s1 with boot := { s1.boot with applyAt := none } }

/-- The application of an image begins: STRAP_OVR, which a wake from DORMANT skips and whose invalid seat leads to RECOVERY, then
the other items (R355, R368, R394). -/
def State.applyImage (s : State) (img : Nat → Byte) : State :=
  let eff := s.overridden img
  let s1 := if s.boot.fromDormant || s.fld Reg.BOOT_STRAPS_EFF 8 0 == eff then s else s.strapDefaults eff
  if !s.boot.fromDormant && nbits eff 7 6 == 3 then s1.pendRecovery 3
  else (({ s1 with boot := { s1.boot with applying := true } } : State).setStage 3).applyFrom img 0 false

end Sys2Proof.Machine
end

