-- ==== Sys2Proof/Machine/Boot.lean ====
section
/-! DEFINITION. Machine/Boot.lean: the meanings of the events of start-up and of the flash (chapter "Configuration image and
start-up"). -/

namespace Sys2Proof.Machine

open Sys2Proof

/-! ## Headers and candidates (R350, R364, R373) -/

/-- The reason of a start without a valid copy (Table BOT-14). -/
def State.noImage (s : State) : Nat := if (List.finRange 4).all fun p => s.geode.fuses[p].isNone then 8 else 1

/-- The headers of both copies have been read: BOOT_GEN and BOOT_FAIL show them. -/
def State.showHeaders (s : State) : State :=
  s.over ([0, 1] : List (Fin 3)) fun s c =>
    let img := s.copyByte c
    let f := candidateFail img (s.copyWindow c)
    (s.setRegN (Reg.BOOT_GEN c.val) (if headerFail img (s.copyWindow c) = 0 then imgGen img else 0)).setRegN (Reg.BOOT_FAIL c.val)
      (if f = 0 then 15 else f)

/-- SFDP_RETRY (R350): an attempt to read the SFDP signature. The third one without it leads to RECOVERY; with it the headers are
read and the copies to try ordered. In SERVICE the first of them is the active copy, and nothing is loaded (R373). -/
def execSfdpRetry (found : Option SfdpInfo) (s : State) : Out :=
  .next (s.whenCore fun s =>
    if s.fld Reg.BOOT_STATUS 2 0 ≠ 1 ∨ s.boot.sfdp.isSome = true ∨ s.boot.pendingMode.isSome = true ∨ 3 ≤ s.boot.sfdpTries then s
    else
      match found with
      | none =>
        let s1 : State := { s with boot := { s.boot with sfdpTries := s.boot.sfdpTries + 1 } }
        if 3 ≤ s1.boot.sfdpTries ∧ s.mode ≠ .service then s1.pendRecovery 7 else s1
      | some i =>
        let s1 := ({ s with boot := { s.boot with sfdp := some i } } : State).showHeaders
        let cs := s1.candidates
        if s1.mode = .service then { s1 with boot := { s1.boot with chosen := cs.head? } }
        else if cs.isEmpty then s1.pendRecovery s1.noImage
        else ({ s1 with boot := { s1.boot with tries := cs } } : State).setStage 2)

/-! ## The check of a copy and its use (R364, R366) -/

/-- Levels that this part supports: the bytes of GLB_CL_SUPPORTED up to the first 0 (R2, R366). -/
def State.clSupported (s : State) (cl : Nat) : Bool :=
  ((leBytes 4 (s.reg Reg.GLB_CL_SUPPORTED).toNat).takeWhile fun b => b != 0).any fun b => b.toNat == cl

/-- A copy that has passed is chosen: BOOT_STATUS and the digest of its ADMISSION show it (R363, Tables BOT-12, BOT-13). -/
def State.choose (s : State) (c : Fin 3) : State :=
  let img := s.copyByte c
  let proof := ((sectionOf img 10 0).map (·.take 48)).getD []
  let s1 : State := { s with boot := { s.boot with tries := [], chosen := some c, gen := BitVec.ofNat 32 (imgGen img) } }
  let s2 := ((s1.setFld Reg.BOOT_STATUS 9 8 c.val).setFld Reg.BOOT_STATUS 23 16 (imgCl img)).setBit Reg.BOOT_STATUS 11 (sectionOf img 10 0).isSome
  s2.over (List.range 12) fun s i => s.setRegN (Reg.BOOT_ADM_DIGEST i) (field proof (4 * i) 4)

/-- A save of another image is discarded, and the wake goes on as BOOT_CMD RESET does (R392). -/
def State.discardSave (s : State) : State :=
  let s1 := ({ s with pwr := { s.pwr with save := none } } : State).startReset
  (s1.setBit Reg.PWR_WAKE_CAUSE 7 false).count Reg.PWR_SAVE_DISCARD

/-- A wake whose save belongs to another copy or generation than the chosen one. -/
def State.otherImage (s : State) : Bool :=
  s.boot.fromDormant && !(s.pwr.save.any fun v => some v.copy == s.boot.chosen && v.gen == s.boot.gen)

/-- A copy that has passed its checks is used: an unsupported level leads to RECOVERY, not to the other copy (R364, R366); of a staged
image it is a failure of its check (R372). -/
def State.useCopy (s : State) (c : Fin 3) : State :=
  let s1 := s.choose c
  let img := s.copyByte c
  if !s1.clSupported (imgCl img) then s1.pendRecovery (if c = 2 then 9 else 2)
  else if s1.otherImage then s1.discardSave
  else s1.applyImage img

/-- The copy under trial fails: recorded, and the next one is tried; after the last RECOVERY follows (R364, R372). -/
def State.rejectCopy (s : State) (c : Fin 3) (f : Nat) : State :=
  let s1 := if c = 2 then s else s.setRegN (Reg.BOOT_FAIL c.val) f
  let rest := s1.boot.tries.tail
  if rest.isEmpty then s1.pendRecovery (if c = 2 then 9 else s1.noImage)
  else { s1 with boot := { s1.boot with tries := rest } }

/-- COPY_VERIFY_END (R364): the copy under trial has been read through or has failed to read, and its checks are made. -/
def execCopyVerifyEnd (readOk : Bool) (s : State) : Out :=
  .next (s.whenCore fun s =>
    match s.boot.tries with
    | [] => s
    | c :: _ =>
      if s.mode ≠ .start ∨ s.boot.pendingMode.isSome = true then s
      else
        let f := s.copyFail (s.copyByte c) (s.copyWindow c) (readOk || c == 2)
        if f ≠ 0 then s.rejectCopy c f
        else (if c = 2 then s else s.setRegN (Reg.BOOT_FAIL c.val) 0).useCopy c)

/-! ## The end of the application (R367, R368) -/

/-- The image is applied: GLB_CL_ACTIVE takes its level, and the loaded Columns are
released, Column 3 with its enable (Table BOT-9). A wake from DORMANT differs no more from a start (R394). -/
def State.applied (s : State) : State :=
  let s1 := s.setRegN Reg.GLB_CL_ACTIVE (s.fld Reg.BOOT_STATUS 23 16)
  let s2 : State := { s1 with boot := { s1.boot with applying := false, applyAt := none, fromDormant := false } }
  (s2.over (List.finRange 4) fun s c => if s.mayRun c then s.modColumn c fun x => { x with state := .running } else s).setStage 4

/-- APPLY_END (R368): the application ends; where an unmet poll of REGINIT held it, the poll is read again: met, the rest follows,
else its time is out (R356). -/
def execApplyEnd (s : State) : Out :=
  .next (s.whenCore fun s =>
    if !s.boot.applying then s
    else
      match s.boot.applyAt with
      | none => s.applied
      | some i =>
        let s1 := s.applyFrom (s.copyByte (s.boot.chosen.getD 0)) i true
        if s1.boot.applying && s1.boot.applyAt.isNone then s1.applied else s1)

/-! ## SEED and RUN (R370, R371) -/

/-- SEED_END (R370). -/
def execSeedEnd (s : State) : Out := .next (s.whenCore fun s => if s.boot.seedRun then s.endSeed else s)

/-- RUN_WAIT_EXPIRY (R371): RUN_WAIT heads after the clock switch Column 0 writes BOOT_CMD RUN, once the seeds are done. -/
def execRunWaitExpiry (s : State) : Out :=
  .next (s.whenCore fun s =>
    let due := s.boot.clockHead.any fun h => decide (h + s.fld Reg.BOOT_CFG 15 0 ≤ s.heads)
    if s.mode = .start ∧ s.bit Reg.BOOT_STATUS 13 = true ∧ due = true then s.bootCommand 0 1 else s)

/-! ## Flash operations (R374) -/

/-- The bytes of a master's page buffer. -/
def State.pageBytes (s : State) (m : Master) : List Byte :=
  (List.range 64).flatMap fun i => leBytes 4 (s.reg (pmKey m (Reg.BOOT_PAGE i))).toNat

/-- An erase: every byte of the copy reads erased. -/
def State.eraseCopy (s : State) (copyB : Bool) : State :=
  let lo := s.copyBase copyB
  { s with boot := { s.boot with flash := s.boot.flash.filter fun x => !(decide (lo ≤ x.1) && decide (x.1 < lo + s.flashHalf)) } }

/-- A page program: bits go from 1 to 0 only, as NOR flash cells do (PRESUMED, log 55). -/
def State.programPage (s : State) (lo : Nat) (bs : List Byte) : State :=
  let put (l : List Host.Cell) (x : Nat × Byte) : List Host.Cell := putFlash l (x.1, Store.get Flash.blank l x.1 &&& x.2)
  { s with boot := { s.boot with flash := (((List.range bs.length).map (lo + ·)).zip bs).foldl put s.boot.flash } }

/-- A page read into a master's page buffer. -/
def State.readPage (s : State) (m : Master) (lo : Nat) : State :=
  s.over (List.range 64) fun s i =>
    s.setRegN (pmKey m (Reg.BOOT_PAGE i)) (leNat ((List.range 4).map fun k => Store.get Flash.blank s.boot.flash (lo + 4 * i + k)))

/-- VERIFY: the checks of R364 and R366, shown in BOOT_FAIL of the copy and in INACT_OK; OK or INVALID. -/
def State.verifyCopy (s : State) (m : Master) (copyB : Bool) : State :=
  let c : Fin 3 := if copyB then 1 else 0
  let img := s.copyByte c
  let f := s.copyFail img (s.copyWindow c) true
  let pass := f == 0 && s.clSupported (imgCl img)
  let s1 := (s.setRegN (Reg.BOOT_FAIL c.val) f).setRegN (pmKey m Reg.BOOT_FL_RESULT) (if pass then 1 else 6)
  if pass && s.activeCopy != some copyB then s1.setBit Reg.BOOT_STATUS 10 true else s1

/-- FLASH_OP_END (R374): the operation ends with its effect and OK, or with FLASH, counted. -/
def execFlashOpEnd (ok : Bool) (s : State) : Out :=
  .next (s.whenCore fun s =>
    match s.boot.flashOp with
    | none => s
    | some o =>
      let s1 : State := { s with boot := { s.boot with flashOp := none } }
      let lo := s1.copyBase o.copyB + 256 * o.page
      let done (x : State) : State := x.setRegN (pmKey o.master Reg.BOOT_FL_RESULT) 1
      if !ok then ((s1.tornFlash o).setRegN (pmKey o.master Reg.BOOT_FL_RESULT) 5).count Reg.BOOT_FL_ERR
      else
        match o.op.toNat with
        | 1 => done (s1.eraseCopy o.copyB)
        | 2 => done (s1.programPage lo (s1.pageBytes o.master))
        | 3 => done (s1.readPage o.master lo)
        | _ => s1.verifyCopy o.master o.copyB)

end Sys2Proof.Machine
end

