-- ==== Sys2Proof/Machine/Cavern.lean ====
section
/-! DEFINITION. Machine/Cavern.lean: the meanings of Cavern and Sump events (chapter "Cavern and Sump"), but for
the register writes. -/

namespace Sys2Proof.Machine

/-! ## Spill and return (R177-R181) -/

/-- SPILL_WRITE_COMPLETE (R177): the last cell of the oldest frame on its way is in Sump; its resident cells are
freed. A frame in whose cells this reading meets an uncorrectable error is discarded (R187). -/
def execSpillWriteComplete (q : QueueIx) (s : State) : Out :=
  .next (s.whenCore fun s =>
    match s.cav.queues[q].refs.find? (fun r => r.waiting) with
    | none => s
    | some r =>
      match (s.stored r.id).map fun f => s.damagedIn f.cells with
      | some (c :: cs) => ((s.over (c :: cs) State.chamberUe).dropRef q r.id |>.count Reg.CAV_UE_DISC).settle
      | _ =>
        let s1 := (s.modRef q r.id fun y => { y with waiting := false }).modStored r.id fun f => { f with cells := [], resv := 0, pool := 0 }
        ({ s1 with cav := { s1.cav with spillQ := s1.cav.spillQ - r.cells } } : State).settle)

/-- SPILL_RETURN (R179): the oldest spilled frame of a queue returns where it lies within CAV_RETURN_AHEAD cells of the
head and cells are free; one with an uncorrectable error is discarded (R180). -/
def execSpillReturn (q : QueueIx) (ecc : EccResult) (s : State) : Out :=
  .next (s.whenCore fun s =>
    match s.returnNext q with
    | none => s
    | some r =>
      if !s.sumpReady || s.returnAhead ≤ cellsBefore r.id s.cav.queues[q].refs then s
      else if ecc == .uncorrectable || s.cav.poisonSpill.contains r.id then (s.discardSpilled q r).settle
      else
        match s.stored r.id with
        | none => s
        | some f =>
          match s.chargeFor q r.cells with
          | none => s
          | some (resv, pool) => (if ecc == .corrected then s.count Reg.SUMP_CE else s).unspill q r f resv pool)

/-- SUMP_READY_FALL (R181): Sump is lost until it is trained again. -/
def execSumpReadyFall (s : State) : Out :=
  .next (s.whenCore fun s => if s.sumpReady then s.untrain else s)

/-! ## Patrol, training, refresh (R182, R184) -/

/-- What an uncorrectable error found by the patrol in a 256-byte unit does: which word of the unit holds it is a free
value. A table entry's stored copy is bad until a command rewrites it; a counter pair restarts from 0; a
Column word reads as a bus error; a spilled frame is discarded on its return (R184). -/
def State.patrolError (s : State) (unit : Nat) : State :=
  let a := 0x1000000000 + unit * 256
  let k := s.free
  let s0 := s.drawn
  if unit < 2 ^ 23 then
    let ep : EpId := BitVec.ofNat 25 (unit * 4 + k % 4)
    (s0.sumpError (a + k % 4 * 64) 0).spoilEntry ep
  else if unit < 2 ^ 23 + 2 ^ 22 then
    (s0.sumpError (a + k % 16 * 16) 1).spoilPair ((unit - 2 ^ 23) * 16 + k % 16)
  else if unit < 2 ^ 24 then
    let w := a / 8 + k % 32
    (s0.sumpError (w * 8) 2).spoilWord w
  else
    let ids := (List.finRange 168).flatMap fun q => (s.cav.queues[q].refs.filter (·.spilled)).map (·.id)
    let s1 := s0.sumpError (a + k % 32 * 8) 3
    match ids[k % (ids.length + 1)]? with
    | some i => { s1 with cav := { s1.cav with poisonSpill := i :: s1.cav.poisonSpill } }
    | none => s1

/-- SUMP_PATROL_SCRUB (R184): the patrol reads the next unit. -/
def execSumpPatrolScrub (ecc : EccResult) (s : State) : Out :=
  .next (s.whenCore fun s =>
    if !s.bit Reg.SUMP_CFG 1 || !s.sumpReady then s
    else
      let pos := s.fld Reg.SUMP_PATROL_POS 26 0
      let s1 := match ecc with
        | .clean => s
        | .corrected => s.count Reg.SUMP_CE
        | .uncorrectable => s.patrolError pos
      if pos + 1 < s.sumpUnits then s1.setRegN Reg.SUMP_PATROL_POS (pos + 1)
      else (s1.setReg Reg.SUMP_PATROL_POS 0).count Reg.SUMP_PATROL_PASSES)

/-- SUMP_TRAINING_END (R182). -/
def execSumpTrainingEnd (ok : Bool) (s : State) : Out :=
  .next (s.whenCore fun s => if s.bit Reg.SUMP_TRAIN 0 then s.trained ok else s)

/-- MPR_TEMPERATURE_READ (R182): refresh runs at 3.9 µs while any device reports above 85 degrees. -/
def execMprTemperatureRead (hot : Bool) (s : State) : Out :=
  .next (s.whenCore fun s => if s.sumpReady then s.setBit Reg.SUMP_STATUS 6 hot else s)

/-! ## Scrub, BIST, chambers (R187-R189) -/

/-- What the scrubber finds in its row of a chamber (R187). -/
def State.scrubbed (s : State) (row : Nat) (x : ChamberIx × EccResult) : State :=
  match x.2 with
  | .clean => s
  | .corrected => s.count (Reg.CAV_CH_CE x.1.val)
  | .uncorrectable =>
    let s1 := s.chamberUe x.1
    if s1.cav.damaged.contains (x.1, row / 8) then s1
    else { s1 with cav := { s1.cav with damaged := (x.1, row / 8) :: s1.cav.damaged } }

/-- CAVERN_SCRUB (R187): one row of every physical chamber is read; a sweep of 98,304 rows is counted. -/
def execCavernScrub (found : List (ChamberIx × EccResult)) (s : State) : Out :=
  .next (s.whenCore fun s =>
    if !s.bit Reg.CAV_CFG 0 then s
    else
      let s1 := s.over found fun s x => s.scrubbed s.cav.scrubRow x
      if s1.cav.scrubRow + 1 < 98304 then { s1 with cav := { s1.cav with scrubRow := s1.cav.scrubRow + 1 } }
      else ({ s1 with cav := { s1.cav with scrubRow := 0 } } : State).count Reg.CAV_SCRUB_PASSES)

/-- CHAMBER_FAIL (R188): more than UE_LIMIT events within 16,000 beats. -/
def execChamberFail (chamber : ChamberIx) (s : State) : Out :=
  .next (s.whenCore fun s =>
    if s.cav.chamberBad.getLsbD chamber.val || !s.overUeLimit chamber then s else (s.failChamber chamber).settle)

/-- CAVERN_BIST_END (R188): BIST of the 17 chambers ends; each that fails is handled, the spare first. -/
def execCavernBistEnd (bad : BitVec 17) (s : State) : Out :=
  .next (s.whenCore fun s =>
    if !s.cav.bistRun then s
    else
      let s1 : State := ({ s with cav := { s.cav with bistRun := false } } : State).setBit Reg.CAV_STATUS 0 true
      let order : List ChamberIx := 16 :: (List.finRange 17).filter fun c => c.val != 16
      s1.inOrder fun s => s.over (order.filter fun c => bad.getLsbD c.val) State.failChamber)

end Sys2Proof.Machine
end

