-- ==== Sys2Proof/Machine/Commands.lean ====
section
/-! DEFINITION. Machine/Commands.lean: the commands that are a write of one register by a master. Each is the whole access: access
protection, the register's rules, its action (Machine/Access.lean, Machine/Writes.lean). -/

namespace Sys2Proof.Machine

open Sys2Proof

/-! ## The beat -/

/-- BEAT_COMMIT (R39-R41): BEAT_CMT_CMD with OP 1 for the target that the master has written. -/
def execBeatCommit (m : Master) (group : BitVec 8) (s : State) : Out :=
  .next (s.whenCore fun s => s.commandN m Reg.BEAT_CMT_CMD (group.toNat + 0x100))

/-- BEAT_CANCEL (R40, R42): BEAT_CMT_CMD with OP 2. -/
def execBeatCancel (m : Master) (group : BitVec 8) (s : State) : Out :=
  .next (s.whenCore fun s => s.commandN m Reg.BEAT_CMT_CMD (group.toNat + 0x200))

/-! ## Lanes and ports -/

/-- LANE_LOOP_WRITE (R81-R83). -/
def execLaneLoopWrite (m : Master) (lane : LaneIx) (data : Word) (s : State) : Out :=
  .next (s.whenCore fun s => s.command m (Reg.LANE_LOOP lane.val) data)

/-- LANE_TREND_CLR_WRITE (R90): guarded. -/
def execLaneTrendClrWrite (m : Master) (data : Word) (s : State) : Out :=
  .next (s.whenCore fun s => s.command m Reg.LANE_TREND_CLR data)

/-- LOC_MODE_WRITE (R91). -/
def execLocModeWrite (m : Master) (port : LocalPort) (data : Word) (s : State) : Out :=
  .next (s.whenCore fun s => s.command m (Reg.LOC_MODE port.val) data)

/-- LOC_GROUP_WRITE (R94). -/
def execLocGroupWrite (m : Master) (data : Word) (s : State) : Out :=
  .next (s.whenCore fun s => s.command m Reg.LOC_GROUP data)

/-- TRK_CFG_EN_WRITE (Table CPL-1, R103). -/
def execTrkCfgEnWrite (m : Master) (port : TrunkPort) (data : Word) (s : State) : Out :=
  .next (s.whenCore fun s => s.command m (Reg.TRK_CFG port.val) data)

/-! ## Tunnels -/

/-- EP_READ (R161, Table TUN-8). -/
def execEpRead (m : Master) (s : State) : Out :=
  .next (s.whenCore fun s => s.commandN m Reg.TUN_EP_CMD 1)

/-- EP_WRITE (R161, Table TUN-8). -/
def execEpWrite (m : Master) (s : State) : Out :=
  .next (s.whenCore fun s => s.commandN m Reg.TUN_EP_CMD 2)

/-- EP_WRITE_KEEP (R161, Table TUN-8). -/
def execEpWriteKeep (m : Master) (s : State) : Out :=
  .next (s.whenCore fun s => s.commandN m Reg.TUN_EP_CMD 3)

/-- EP_PIN (R161, Table TUN-8). -/
def execEpPin (m : Master) (s : State) : Out :=
  .next (s.whenCore fun s => s.commandN m Reg.TUN_EP_CMD 4)

/-- EP_UNPIN (R161, Table TUN-8). -/
def execEpUnpin (m : Master) (s : State) : Out :=
  .next (s.whenCore fun s => s.commandN m Reg.TUN_EP_CMD 5)

/-- EP_REVOKE (R161, Table TUN-8). -/
def execEpRevoke (m : Master) (s : State) : Out :=
  .next (s.whenCore fun s => s.commandN m Reg.TUN_EP_CMD 6)

/-- EP_INVALIDATE (R161, Table TUN-8). -/
def execEpInvalidate (m : Master) (s : State) : Out :=
  .next (s.whenCore fun s => s.commandN m Reg.TUN_EP_CMD 7)

/-- TUN_MAP_ADD (R159, Table TUN-10). -/
def execTunMapAdd (m : Master) (s : State) : Out :=
  .next (s.whenCore fun s => s.commandN m Reg.TUN_MAP_CMD 1)

/-- TUN_MAP_DELETE (R159, Table TUN-10). -/
def execTunMapDelete (m : Master) (s : State) : Out :=
  .next (s.whenCore fun s => s.commandN m Reg.TUN_MAP_CMD 2)

/-- TUN_MAP_LOOKUP (R159, Table TUN-10). -/
def execTunMapLookup (m : Master) (s : State) : Out :=
  .next (s.whenCore fun s => s.commandN m Reg.TUN_MAP_CMD 3)

/-! ## Cavern, Sump and plans -/

/-- SUMP_TRAIN (R182, Table CAV-9). -/
def execSumpTrain (m : Master) (data : Word) (s : State) : Out :=
  .next (s.whenCore fun s => s.command m Reg.SUMP_TRAIN data)

/-- SUMP_UE_POP (R184, R279). -/
def execSumpUePop (m : Master) (data : Word) (s : State) : Out :=
  .next (s.whenCore fun s => s.command m Reg.SUMP_UE_POP data)

/-- TUNNEL_ADD (R267): COL_TREQ_CMD with OP 1. -/
def execTunnelAdd (m : Master) (tunnel : BitVec 16) (s : State) : Out :=
  .next (s.whenCore fun s => s.commandN m Reg.COL_TREQ_CMD (tunnel.toNat + 0x10000))

/-- TUNNEL_REMOVE (R267): COL_TREQ_CMD with OP 2. -/
def execTunnelRemove (m : Master) (tunnel : BitVec 16) (s : State) : Out :=
  .next (s.whenCore fun s => s.commandN m Reg.COL_TREQ_CMD (tunnel.toNat + 0x20000))

/-! ## Engines -/

/-- ENG_TAKEOVER (R257, Table ENC-6): guarded. -/
def execEngTakeover (m : Master) (target : BitVec 5) (s : State) : Out :=
  .next (s.whenCore fun s => s.commandN m Reg.ENG_CMD (target.toNat + 0x100))

/-- ENG_RETEST (R258, Table ENC-6): guarded. -/
def execEngRetest (m : Master) (target : BitVec 5) (s : State) : Out :=
  .next (s.whenCore fun s => s.commandN m Reg.ENG_CMD (target.toNat + 0x200))

/-! ## Access control -/

/-- GLB_UNLOCK_WRITE (R285, R286). -/
def execGlbUnlockWrite (m : Master) (data : Word) (s : State) : Out :=
  .next (s.whenCore fun s => s.command m Reg.GLB_UNLOCK data)

/-- SNAPSHOT_REQUEST (R291, R292, R296): a write of CNT_SNAP_CMD. -/
def execSnapshotRequest (m : Master) (data : Word) (s : State) : Out :=
  .next (s.whenCore fun s => s.command m Reg.CNT_SNAP_CMD data)

/-- BANK_RELEASE (R295). -/
def execBankRelease (m : Master) (s : State) : Out :=
  .next (s.whenCore fun s => s.commandN m Reg.CNT_SNAP_CMD 2)

/-- MPU_SYNC_WRITE (R317). -/
def execMpuSyncWrite (m : Master) (data : Word) (s : State) : Out :=
  .next (s.whenCore fun s => s.command m Reg.MPU_SYNC data)

/-- MPU_FAULT_POP (R279, R314). -/
def execMpuFaultPop (m : Master) (data : Word) (s : State) : Out :=
  .next (s.whenCore fun s => s.command m Reg.MPU_FAULT_POP data)

/-! ## Geode (Table GEO-3) -/

/-- DERIVE (R332). -/
def execDerive (m : Master) (replace detach : Bool) (s : State) : Out :=
  .next (s.whenCore fun s => s.commandN m Reg.KEY_CMD (1 + 16 * b2n replace + 32 * b2n detach))

/-- KEY_INVALIDATE (R333, R337). -/
def execKeyInvalidate (m : Master) (s : State) : Out :=
  .next (s.whenCore fun s => s.commandN m Reg.KEY_CMD 2)

/-- MAC (R331). -/
def execMac (m : Master) (s : State) : Out :=
  .next (s.whenCore fun s => s.commandN m Reg.KEY_CMD 3)

/-- SIGN (R331). -/
def execSign (m : Master) (s : State) : Out :=
  .next (s.whenCore fun s => s.commandN m Reg.KEY_CMD 4)

/-- ECDH_GEN (R331). -/
def execEcdhGen (m : Master) (replace : Bool) (s : State) : Out :=
  .next (s.whenCore fun s => s.commandN m Reg.KEY_CMD (5 + 16 * b2n replace))

/-- ECDH_AGREE (R331). -/
def execEcdhAgree (m : Master) (replace : Bool) (s : State) : Out :=
  .next (s.whenCore fun s => s.commandN m Reg.KEY_CMD (6 + 16 * b2n replace))

/-- WRAP (R331). -/
def execWrap (m : Master) (s : State) : Out :=
  .next (s.whenCore fun s => s.commandN m Reg.KEY_CMD 7)

/-- UNWRAP (R331). -/
def execUnwrap (m : Master) (replace : Bool) (s : State) : Out :=
  .next (s.whenCore fun s => s.commandN m Reg.KEY_CMD (8 + 16 * b2n replace))

/-- KEY_INFO (R331). -/
def execKeyInfo (m : Master) (s : State) : Out :=
  .next (s.whenCore fun s => s.commandN m Reg.KEY_CMD 9)

/-- SA_INSTALL (R343). -/
def execSaInstall (m : Master) (transmit : Bool) (s : State) : Out :=
  .next (s.whenCore fun s => s.commandN m Reg.KEY_CMD (10 + 64 * b2n transmit))

/-- SA_RETIRE (R343). -/
def execSaRetire (m : Master) (transmit : Bool) (s : State) : Out :=
  .next (s.whenCore fun s => s.commandN m Reg.KEY_CMD (11 + 64 * b2n transmit))

/-- ROOT_NEW (R328): guarded. -/
def execRootNew (m : Master) (s : State) : Out :=
  .next (s.whenCore fun s => s.commandN m Reg.KEY_ROOT_CMD 1)

/-- ZEROISE (R323): guarded. -/
def execZeroise (m : Master) (s : State) : Out :=
  .next (s.whenCore fun s => s.commandN m Reg.KEY_ROOT_CMD 2)

/-- SEC_FUSE_PROGRAM (R348): guarded. -/
def execSecFuseProgram (m : Master) (pos : BitVec 2) (s : State) : Out :=
  .next (s.whenCore fun s => s.commandN m Reg.SEC_FUSE_CMD (1 + 4 * pos.toNat))

/-- SEC_FUSE_REVOKE (R348): guarded. -/
def execSecFuseRevoke (m : Master) (pos : BitVec 2) (s : State) : Out :=
  .next (s.whenCore fun s => s.commandN m Reg.SEC_FUSE_CMD (2 + 4 * pos.toNat))

/-! ## Start-up -/

/-- BOOT_RUN (Table BOT-16): guarded. -/
def execBootRun (m : Master) (s : State) : Out :=
  .next (s.whenCore fun s => s.commandN m Reg.BOOT_CMD 1)

/-- BOOT_RESET (Table BOT-16): guarded. -/
def execBootReset (m : Master) (s : State) : Out :=
  .next (s.whenCore fun s => s.commandN m Reg.BOOT_CMD 2)

/-- BOOT_RECOVER (Table BOT-16): guarded. -/
def execBootRecover (m : Master) (s : State) : Out :=
  .next (s.whenCore fun s => s.commandN m Reg.BOOT_CMD 3)

/-- BOOT_STAGED (Table BOT-16): guarded. -/
def execBootStaged (m : Master) (s : State) : Out :=
  .next (s.whenCore fun s => s.commandN m Reg.BOOT_CMD 4)

/-- BOOT_SEED (R370, Table BOT-16): guarded. -/
def execBootSeed (m : Master) (s : State) : Out :=
  .next (s.whenCore fun s => s.commandN m Reg.BOOT_CMD 5)

/-- BOOT_TEST (Table BOT-16): guarded. -/
def execBootTest (m : Master) (s : State) : Out :=
  .next (s.whenCore fun s => s.commandN m Reg.BOOT_CMD 6)

/-- BOOT_STG_DATA_WRITE (R372, Table BOT-12). -/
def execBootStgDataWrite (m : Master) (data : Word) (s : State) : Out :=
  .next (s.whenCore fun s => s.command m Reg.BOOT_STG_DATA data)

/-- FL_ERASE_COPY (R374). -/
def execFlEraseCopy (m : Master) (s : State) : Out :=
  .next (s.whenCore fun s => s.commandN m Reg.BOOT_FL_CMD 1)

/-- FL_PROGRAM (R374). -/
def execFlProgram (m : Master) (s : State) : Out :=
  .next (s.whenCore fun s => s.commandN m Reg.BOOT_FL_CMD 2)

/-- FL_READ (R374). -/
def execFlRead (m : Master) (s : State) : Out :=
  .next (s.whenCore fun s => s.commandN m Reg.BOOT_FL_CMD 3)

/-- FL_VERIFY (R374). -/
def execFlVerify (m : Master) (s : State) : Out :=
  .next (s.whenCore fun s => s.commandN m Reg.BOOT_FL_CMD 4)

/-! ## Power and the log -/

/-- PWR_REQ_WRITE (R377). -/
def execPwrReqWrite (m : Master) (data : Word) (s : State) : Out :=
  .next (s.whenCore fun s => s.command m Reg.PWR_REQ data)

/-- PWR_ASK_WRITE (R378): the start beat, then the target. -/
def execPwrAskWrite (m : Master) (target : Word) (beat : Beat) (s : State) : Out :=
  .next (s.whenCore fun s => ((s.commandN m Reg.PWR_ASK_BEAT_LO (beat.toNat % 2 ^ 32)).commandN m Reg.PWR_ASK_BEAT_HI (beat.toNat / 2 ^ 32)).command
      m Reg.PWR_ASK target)

/-- AVS_TARGET_WRITE (R399). -/
def execAvsTargetWrite (m : Master) (data : Word) (s : State) : Out :=
  .next (s.whenCore fun s => s.command m Reg.AVS_TARGET data)

/-- LOG_RD_ADDR_WRITE (R436). -/
def execLogRdAddrWrite (m : Master) (data : Word) (s : State) : Out :=
  .next (s.whenCore fun s => s.command m Reg.LOG_RD_ADDR data)

/-- LOG_PUT_CMD (R436). -/
def execLogPutCmd (m : Master) (data : Word) (s : State) : Out :=
  .next (s.whenCore fun s => s.command m Reg.LOG_PUT_CMD data)

end Sys2Proof.Machine
end

