-- ==== Sys2Proof/Machine/Requests.lean ====
section
/-! DEFINITION. Machine/Requests.lean: the masters that serve requests of COUNT words: the MGMT agent, the maintenance function and
the car computer's interfaces (R17, R137, R388, R409, R462, R463). -/

namespace Sys2Proof.Machine

open Sys2Proof

/-! ## The accesses of a request (R137) -/

/-- What the accesses of a request came to: the state, the words read, how many completed, and STATUS (Table TUN-4). -/
structure Served where
  state : State
  words : List Word
  done : Nat
  status : Nat

/-- The STATUS of an answer. -/
def Answer.status : Answer → Nat
  | .data _ => 0
  | .half _ => 1
  | .done => 0
  | .busError => 1
  | .refused => 2

/-- The word that a read answers. -/
def Answer.word : Answer → Word
  | .data bs => BitVec.ofNat 32 (leNat bs)
  | _ => 0

/-- COUNT reads at ascending addresses, up to the first that fails. -/
def State.serveReads (s : State) (m : Master) : Nat → Nat → Served
  | _, 0 => { state := s, words := [], done := 0, status := 0 }
  | addr, n + 1 =>
    let x := s.readAccess m (addr % 2 ^ 40) 4
    if x.2.status ≠ 0 then { state := x.1, words := [], done := 0, status := x.2.status }
    else
      let r := x.1.serveReads m (addr + 4) n
      { r with words := x.2.word :: r.words, done := r.done + 1 }

/-- Writes of words at ascending addresses, up to the first that fails. -/
def State.serveWrites (s : State) (m : Master) : Nat → List Word → Served
  | _, [] => { state := s, words := [], done := 0, status := 0 }
  | addr, w :: rest =>
    let x := s.writeAccess m (addr % 2 ^ 40) w
    if x.2.status ≠ 0 then { state := x.1, words := [], done := 0, status := x.2.status }
    else
      let r := x.1.serveWrites m (addr + 4) rest
      { r with done := r.done + 1 }

/-- A request served; a malformed one makes no access and gives STATUS 3 (R137). -/
def State.serve (s : State) (m : Master) (r : MgmtRequest) : Served :=
  if !r.ok then { state := s, words := [], done := 0, status := 3 }
  else if r.op = 1 then s.serveReads m r.addr.toNat r.count.toNat
  else s.serveWrites m r.addr.toNat (r.data.take r.count.toNat)

/-- OP of the reply: that of the request with bit 7 set for a read, else a write reply (Table TUN-4), which answers a request of a
reserved OP as well (DESIGN CHOICE, log 110). -/
def replyOp (op : Byte) : Byte := if op = 1 then 0x81 else 0x82

/-- DATA of the reply: COUNT words in a read reply, those not read 0; none in a write reply or for a malformed request. -/
def replyData (r : MgmtRequest) (x : Served) : List Word :=
  if r.op = 1 ∧ x.status ≠ 3 then x.words ++ List.replicate (r.count.toNat - x.words.length) 0 else []

/-! ## The MGMT agent (R137) -/

/-- The agent serves a request and replies to its source with the same TC. -/
def State.mgmtServe (s : State) (srcEp : EpId) (tc : BitVec 3) (r : MgmtRequest) : State :=
  let x := s.serve 7 r
  (x.state.emit (.mgmtReply srcEp tc (replyOp r.op) r.tag r.count (BitVec.ofNat 8 x.done) (BitVec.ofNat 8 x.status) (replyData r x))).wakeBy 2

/-- MGMT_READ_REQUEST. -/
def execMgmtReadRequest (srcEp : EpId) (tc : BitVec 3) (req : MgmtRequest) (s : State) : Out :=
  .next (s.whenCore fun s => s.mgmtServe srcEp tc req)

/-- MGMT_WRITE_REQUEST. -/
def execMgmtWriteRequest (srcEp : EpId) (tc : BitVec 3) (req : MgmtRequest) (s : State) : Out :=
  .next (s.whenCore fun s => s.mgmtServe srcEp tc req)

/-! ## The maintenance function (R409, R423) -/

/-- A reply of the function is queued for bulk IN; a STATUS other than 0 is counted. -/
def State.queueReply (s : State) (r : MgmtRequest) (x : Served) : State :=
  let reply : UsbReply := { op := replyOp r.op, tag := r.tag, count := r.count, done := BitVec.ofNat 8 x.done,
                            status := BitVec.ofNat 8 x.status, data := replyData r x }
  let s1 : State := { s with usb := { s.usb with replies := s.usb.replies ++ [reply] } }
  if x.status = 0 then s1 else s1.count Reg.USB_MF_REFUSED

/-- BULK_OUT_REQUEST (R407, R409): one data packet holds a request. None is taken while 8 replies wait or Column 2 restarts; without an open
session the answer is STATUS 2 with no access, and is not counted as served. The packet is answered as R407 has it. -/
def execBulkOutRequest (req : MgmtRequest) (s : State) : Out :=
  .next (s.whenMf fun s =>
    if s.bulkFree = false then s.refusePacket
    else if s.mfSession ≠ 1 then (s.queueReply req { state := s, words := [], done := 0, status := 2 }).ackPacket
    else
      let x := s.serve 6 req
      ((x.state.queueReply req x).count48 Reg.USB_MF_REQ_LO 1).ackPacket)

/-! ## The car computer (R17, R388, R462, R463) -/

/-- COUNT and ADDR follow the rules of R137. -/
def carOk (count : Byte) (addr : BitVec 40) : Bool := decide (1 ≤ count.toNat) && decide (count.toNat ≤ 16) && decide (addr.toNat % 4 = 0)

/-- The I2C target answers to 0x2C + HUB_SEAT, of the straps in force, and to no other address (R449). -/
def State.carHears (s : State) : CarPort → Bool
  | .spi => true
  | .i2c a => a.toNat == 0x2C + s.hubSeat

/-- An access of the car computer wakes the hub; in DORMANT it is not served (R388). -/
def State.whenCar (s : State) (via : CarPort) (f : State → State) : State := if s.carHears via then (s.whenCore f).wakeBy 1 else s

/-- The address that five bytes spell, most significant first (R462). -/
def carAddr (a : CarAddr) : BitVec 40 := BitVec.ofNat 40 (a.toList.foldl (fun n b => n * 256 + b.toNat) 0)

/-- The words that bytes spell, little-endian (R462). -/
def carWords : Nat → List Byte → List Word
  | 0, _ => []
  | n + 1, bs => BitVec.ofNat 32 (leNat (bs.take 4)) :: carWords n (bs.drop 4)

/-- The bytes of a reply (Table ELE-11): on SPI 0xFF until the accesses have ended, which takes `fill` bytes, then 0x5A; the words,
little-endian, DONE and STATUS. -/
def carBytes (via : CarPort) (fill : Nat) (words : List Word) (done status : Nat) : List Byte :=
  (match via with
   | .spi => List.replicate fill 0xFF ++ [0x5A]
   | .i2c _ => []) ++ words.flatMap (fun w => leBytes 4 w.toNat) ++ [BitVec.ofNat 8 done, BitVec.ofNat 8 status]

/-- The bytes that go by on SPI while accesses run: a time, and so a free value; I2C stretches its clock instead (Table ELE-10). -/
def State.carFill (s : State) (via : CarPort) : Nat :=
  match via with
  | .spi => s.free
  | .i2c _ => 0

/-- What the accesses of a read of COUNT words come to, of which `n` are made. -/
def State.carServe (s : State) (count : Byte) (addr : BitVec 40) (n : Nat) : Served :=
  if carOk count addr then s.serveReads 5 addr.toNat n else { state := s, words := [], done := 0, status := 3 }

/-- CAR_READ (R462, R463): COUNT words, DONE and STATUS; words not read are 0. A read that the car computer ends early sends no more; where it
ends before the accesses have, how many of them were made is a free value. -/
def execCarRead (via : CarPort) (count : CarCount) (addr : CarAddr) (s : State) : Out :=
  .next (s.whenCar via fun s =>
    let fill := s.carFill via
    let n := count.count.toNat
    let cut : Bool := count.taken.any fun k => decide (k ≤ fill) && via == .spi
    let s1 := s.drawn
    let x := (if cut then s1.drawn else s1).carServe count.count (carAddr addr) (if cut then s1.free % (n + 1) else n)
    let bytes := carBytes via fill (x.words ++ List.replicate (n - x.words.length) 0) x.done x.status
    x.state.emit (.carReply via (bytes.take (count.taken.getD bytes.length))))

/-- CAR_WRITE (R462, R463): it acts where all COUNT words have arrived; DONE and STATUS are kept. -/
def execCarWrite (via : CarPort) (count : Byte) (addr : CarAddr) (data : List Byte) (s : State) : Out :=
  .next (s.whenCar via fun s =>
    let whole : Bool := carOk count (carAddr addr) && decide (4 * count.toNat ≤ data.length)
    let x : Served :=
      if whole then s.serveWrites 5 (carAddr addr).toNat (carWords count.toNat data) else { state := s, words := [], done := 0, status := 3 }
    { x.state with carStatus := (BitVec.ofNat 8 x.done, BitVec.ofNat 8 x.status) })

/-- CAR_WRITE_STATUS (R462, R463): DONE and STATUS of the last write, in the manner of a read; any opcode but those of Table ELE-11 is
ignored until the transaction ends. -/
def execCarWriteStatus (tx : CarTx) (s : State) : Out :=
  .next (s.whenCar tx.via fun s =>
    if tx.opcode ≠ 0x05 then s
    else s.drawn.emit (.carReply tx.via (carBytes tx.via (s.carFill tx.via) [] s.carStatus.1.toNat s.carStatus.2.toNat)))

end Sys2Proof.Machine
end

