-- ==== Sys2Proof/Machine/Tunnels.lean ====
section
/-! DEFINITION. Machine/Tunnels.lean: the meanings of frames received and sent (chapters "Tunnels, frames and
the endpoint table" and "Classes, gates, shapers and policers"), but for the register commands. -/

namespace Sys2Proof.Machine

/-! ## Frames received (R150, R185, R186) -/

/-- The cut-through frame that a local port is receiving. -/
def State.cutOf (s : State) (n : LocalPort) : Option Nat := (s.cav.cutIn.find? fun x => x.1 == n).map (·.2)

/-- A link-local frame goes to the agent (R143). -/
def State.toAgent (s : State) (p : EgressPort) (f : Frame) : State :=
  s.accept p f { copies := [(f, [20])], matched := [] }

/-- A frame received with its FCS good is a SYNC: its link's engine takes it, and it came without credit (R345). -/
def isSync (p : EgressPort) (rx : RxFrame) : Bool :=
  decide (p.val < 20) && rx.frame.kind == kindKey && rx.frame.destEp == 0 && byteAt rx.frame.payload 1 == 4 && rx.fcs == rx.frame.fcsOf

/-- A frame that has passed checks 1 to 7: to the agent where it is link-local (R143), else checks 8 to 13. While the scheduler drains,
first ingress admits no frame (R381). -/
def State.takeIn (s : State) (p : EgressPort) (f : Frame) (back : State → State) : State :=
  if s.pwr.admitClosed ∧ 4 ≤ p.val then back s
  else if p.val < 4 ∧ f.destEp = 0 then s.toAgent p f
  else s.handle p f false none

/-- A SYNC that has passed checks 1 to 7 goes to the receiving engine of its link, and never enters Cavern (R345). -/
def State.takeSync (s : State) (p : EgressPort) (payload : List Byte) : State :=
  match toLink p with
  | some l => s.onSync l payload
  | none => s

/-- A whole frame has arrived at a port: checks 1 to 7, then what becomes of it (R150). A dropped frame's credit
returns (R171, R228). -/
def State.receive (s : State) (p : EgressPort) (rx : RxFrame) : State :=
  let back (s : State) : State := if isSync p rx then s else s.returnCredit p rx.frame.cls rx.frame.dl rx.creditCells
  match s.precheck p rx with
  | (s1, none) => back s1
  | (s1, some f) => if isSync p rx then s1.takeSync p f.payload else s1.takeIn p f back

/-- The end of a cut-through frame arrives: check 1 and the length decide (R185, R186). Its credit has returned as it joined (R171). -/
def State.endCut (s : State) (n : LocalPort) (id : Nat) (rx : RxFrame) : State :=
  if rx.fcs ≠ rx.frame.fcsOf then (s.abortCut n).count Reg.TUN_FCS_ERR
  else if rx.lenBad then (s.abortCut n).count Reg.TUN_LEN_ERR
  else s.finishCut id

/-- FRAME_RECEIVED (R150): a whole tunnel frame at a Torvisk Link port, or one emitted at the internal port,
where an engine's is checked for a zombie first (R237). A port that is not up hears nothing (R95), and one whose stream waits for an
AMK loses it (R102). -/
def execFrameReceived (port : EgressPort) (rx : RxFrame) (tag : Option EngineTag) (s : State) : Out :=
  .next (s.whenCore fun s =>
    match toLink port with
    | none =>
      match tag with
      | some t => if s.isZombie t then s.zombie t else (s.receive port rx).settle
      | none => (s.receive port rx).settle
    | some l =>
      if !s.isTvl l then s
      else s.arriving l fun s =>
        let s1 := s.countLocal port Reg.LOC_RX_FRAMES_LO Reg.LOC_RX_BYTES_LO rx.bytes
        match asLocal l with
        | none => (s1.receive port rx).settle
        | some n =>
          match s1.cutOf n with
          | some id => (s1.endCut n id rx).settle
          | none => (s1.receive port rx).settle)

/-- A frame of an Ethernet port, mapped and handled from check 8 on (R159); local ports forward nothing in
START (R369), and take nothing in while the scheduler drains (R381). A frame that finds the pool short of its cells is dropped as it arrives (R173). -/
def State.receiveEth (s : State) (n : LocalPort) (bytes : List Byte) : State :=
  let p := toEgress (loc n)
  if s.poolFree < cellsOfLen bytes.length then s.count Reg.CAV_POOL_DROP
  else if s.mode == .start then s.count Reg.BOOT_PRE_RUN_DROP
  else if s.pwr.admitClosed then s.count Reg.PWR_DRAIN_DROP
  else
    match s.mapFrame n bytes with
    | (s1, none) => s1
    | (s1, some f) => s1.handle p (s1.ownSlots f) false none

/-- What a received Ethernet frame is discarded for: the counter of its length, its FCS or a MAC control frame (R93). -/
def State.ethBad (s : State) (n : LocalPort) (bytes : List Byte) (fcs : Word) : Option Nat :=
  if bytes.length + 4 < 64 ∨ s.maxLen n < bytes.length + 4 then some (Reg.LOC_LEN_ERR n.val)
  else if fcs ≠ crc32 bytes then some (Reg.LOC_FCS_ERR n.val)
  else if be16At bytes 12 = 0x8808 then some (Reg.LOC_PAUSE_DISC n.val)
  else none

/-- ETH_FRAME_RECEIVED (R93, R159): length, FCS and MAC control frames first, each counted; then the mapping. -/
def execEthFrameReceived (port : LocalPort) (bytes : List Byte) (fcs : Word) (s : State) : Out :=
  .next (s.whenCore fun s =>
    let l := loc port
    if !s.isEth l || !s.portUp l then s
    else
      let len := bytes.length + 4
      let s1 := s.countLocal (toEgress l) Reg.LOC_RX_FRAMES_LO Reg.LOC_RX_BYTES_LO len
      match s1.cutOf port, s.ethBad port bytes fcs with
      | some _, some r => ((s1.abortCut port).count r).settle
      | some id, none => (s1.finishCut id).settle
      | none, some r => s1.count r
      | none, none => (s1.receiveEth port bytes).settle)

/-! ## Cut-through (R185) -/

/-- The payload rate of an egress port is at least that of an ingress port. -/
def State.rateCovers (s : State) (egress ingress : EgressPort) : Bool :=
  decide (s.egressWidth ingress * s.slotPeriod egress ≤ s.egressWidth egress * s.slotPeriod ingress)

/-- The conditions of R185 on a frame whose checks are complete: one local egress port that allows it, not
replicated, not twin, its queue empty, its link clear, its rate sufficient. -/
def State.mayCut (s : State) (n : LocalPort) (a : Accepted) : Option (Frame × EgressPort) :=
  match a.copies with
  | [(f, [q])] =>
    let ok := decide (4 ≤ q.val) && decide (q.val < 20) && s.bit Reg.CAV_CUT_EN (q.val - 4) && f.tw == 0 &&
      !epIsGroup f.destEp && s.cav.queues[queueOf q f.cls].refs.isEmpty && s.egressSa q f == 0 &&
      s.rateCovers q (toEgress (loc n))
    if ok then some (f, q) else none
  | _ => none

/-- The frame that arrives whole enough for checks 2 to 7 at a local port: on a Torvisk Link port the frame itself, in clear; on an Ethernet
port its bytes, mapped (R93, R159, R369). -/
def State.cutFrame (s : State) (n : LocalPort) (frame : Frame) : State × Option Frame :=
  if s.isEth (loc n) then
    if be16At frame.payload 12 = 0x8808 ∨ s.mode = .start ∨ s.poolFree < cellsOfLen frame.payload.length then (s, none)
    else
      match s.mapFrame n frame.payload with
      | (s1, some f) => (s1, some (s1.ownSlots f))
      | (s1, none) => (s1, none)
  else if frame.sa != 0 || frame.hcs != frame.hcsOf || decide (9216 < frame.len.toNat) || frame.payload.length != frame.len.toNat then (s, none)
  else
    match s.checkTag (loc n) frame 0 with
    | (s1, some f) => s1.checkIds (toEgress (loc n)) f
    | (s1, none) => (s1, none)

/-- CUT_THROUGH_JOIN (R185): the frame joins its queue before its end, where checks 2 to 13 are complete and
every condition holds, and its credit returns (R171); otherwise it is stored and forwarded and nothing happens yet. Check 1 is made at its
end. On an Ethernet port the operand's payload is the frame. -/
def execCutThroughJoin (port : LocalPort) (frame : Frame) (s : State) : Out :=
  .next (s.whenCore fun s =>
    let p := toEgress (loc port)
    if !(s.isTvl (loc port) || s.isEth (loc port)) || !s.portUp (loc port) || s.ports[loc port].discarding || s.pwr.admitClosed ||
        (s.cutOf port).isSome then s
    else
      match s.cutFrame port frame with
      | (_, none) => s
      | (s1, some f) =>
        match s1.judge p f false none with
        | (s2, .pass a) =>
          match s2.mayCut port a with
          | none => s
          | some (g, q) =>
            let id := s2.cav.nextId
            let s3 := s2.store g p a.matched (s2.cav.lastChamber.val + 1)
            match s3.joinAll id g.cls g.cells true [q] with
            | (s4, .joined) =>
              let s5 : State := { s4 with cav := { s4.cav with cutIn := s4.cav.cutIn ++ [(port, id)] } }
              (s5.returnCredit p f.cls f.dl f.cells).count48 Reg.CAV_CUT_LO 1
            | _ => s
        | _ => s)

/-! ## The miss queue (R148, R184) -/

/-- ENTRY_FETCH_COMPLETE (R148): the entry is cached and the frames of its key leave in order under it; an entry read
with an error is absent and not cached (R184). -/
def execEntryFetchComplete (ep : EpId) (ecc : EccResult) (s : State) : Out :=
  .next (s.whenCore fun s =>
    if !s.tun.fetching.contains ep || !s.sumpReady then s
    else
      let s1 : State := { s with tun := { s.tun with fetching := s.tun.fetching.filter fun x => x != ep } }
      let ue := ecc == .uncorrectable || s.tun.poison.contains ep
      let s2 := if ue then
          (s1.sumpError (0x1000000000 + ep.toNat * 64) 0).spoilEntry ep
        else (if ecc == .corrected then s1.count Reg.SUMP_CE else s1).fillCache ep (s1.tableEntry ep)
      (s2.eachWaiting ep fun s m => s.handle m.ingress m.frame m.srcDefault (if ue then some ep else none)).settle)

/-- MISS_WAIT_TIMEOUT (R148): the frames of a key leave under the class-default policer. -/
def execMissWaitTimeout (ep : EpId) (s : State) : Out :=
  .next (s.whenCore fun s => (s.releaseKey ep).settle)

/-! ## Egress (R199-R207) and twins (R225) -/

/-- What the agent of a role that an engine holds does with a frame that has come into its inbox: ECHO, KEY and MGMT frames act on the
hub as they arrive (R110, R137, R140, R256, R339; DESIGN CHOICE, log 96). -/
def State.agentServes (s : State) (f : Frame) (ingress : EgressPort) : State :=
  match (toLink ingress).bind asTrunk, f.kind with
  | some t, 0 => s.onEcho t f.payload
  | some t, 2 => s.onKey t f.payload
  | _, 1 => s.mgmtServe f.srcEp f.tc (MgmtRequest.read f.payload)
  | _, _ => s

/-- The agents act on the frames that have come into the inboxes of the roles that engines hold; a vacant role's wait (R256). -/
def State.agentTakes (s : State) : State :=
  s.over (List.finRange 16) fun s r =>
    if s.eng.roles[r].engine.isNone then s
    else
      let new := s.eng.roles[r].inbox.filter fun d => !d.acted
      let done (x : Role) : Role := { x with inbox := x.inbox.map fun d => { d with acted := true } }
      (s.modRole r done).over (new.filterMap fun d => s.stored d.id) fun s f =>
        if epLocal f.frame.destEp = 0 then s.agentServes f.frame f.ingress else s

/-- SCHEDULER_DECISION (R201): at a frame slot of a port, at a CCLK cycle of its beat; the hub's own frames for it have joined its queue. -/
def execSchedulerDecision (port : EgressPort) (slot : FrameSlot) (s : State) : Out :=
  .next (s.whenCore fun s =>
    let s1 := (s.takeOwn port).frameSlot port slot.cclk slot.found
    if port.val = 20 then s1.agentTakes else s1.idleFill port s)

/-- TWIN_ENTRY_AGE_OUT (R225): an entry idle for TWIN_AGE heads becomes free. -/
def execTwinEntryAgeOut (src : EpId) (s : State) : Out :=
  .next (s.whenCore fun s =>
    match s.twin.find? (fun e => e.src == src) with
    | some e => if s.twinAged e then s.ageOutTwin src else s
    | none => s)

/-- DRAIN_WAIT_EXCEEDED (R241): a TC5-TC7 head frame of a Torvisk Link local port has waited more than 4 heads for
credit: the port's bit rises and is counted. -/
def execDrainWaitExceeded (port : LocalPort) (s : State) : Out :=
  .next (s.whenCore fun s =>
    if s.drainLong port && s.isTvl (loc port) && !s.bit Reg.DEP_DRAIN port.val then
      (s.setBit Reg.DEP_DRAIN port.val true).count Reg.DEP_DRAIN_EVENTS
    else s)

end Sys2Proof.Machine
end

