-- ==== Sys2Proof/Machine/Engines.lean ====
section
/-! DEFINITION. Machine/Engines.lean: the meanings of engine and Column events, but for the register commands. -/

namespace Sys2Proof.Machine

/-- HANG_WATCHDOG (R255): an engine whose table runs has retired no instruction for HANG x 16 CCLK; in LAYOVER the
watchdog does not run (R376). -/
def execHangWatchdog (e : EngineIx) (s : State) : Out :=
  .next (s.whenCore fun s =>
    match s.eng.engines[e].role with
    | none => s
    | some r =>
      if s.fld Reg.ENG_CFG 15 0 = 0 ∨ s.eng.roles[r].outstanding = none ∨ s.pwr.state = .layover then s
      else (s.count Reg.ENG_HANG).declareFailing e)

/-- ENGINE_ECC_UE (R251): an uncorrectable error in IMEM or DMEM. -/
def execEngineEccUe (e : EngineIx) (s : State) : Out :=
  .next (s.whenCore fun s =>
    let s1 := s.count Reg.ENG_ECC_UE
    if s.eng.engines[e].state == .active || s.eng.engines[e].state == .spare then s1.declareFailing e else s1)

/-- SPARE_ASSIGN (R257): within 12,000 CCLK of the declaration. -/
def execSpareAssign (r : RoleIx) (s : State) : Out :=
  .next (s.whenCore fun s =>
    if s.eng.roles[r].engine = none ∧ s.eng.roles[r].vacant = false then s.assignSpare r else s)

/-- ENGINE_SELFTEST_END (R258): a quarantined engine becomes SPARE, its IMEM reloaded, or FAILED. -/
def execEngineSelftestEnd (e : EngineIx) (pass : Bool) (s : State) : Out :=
  .next (s.whenCore fun s =>
    if s.eng.engines[e].state != .quarantine then s
    else if pass then s.modEngine e fun x => { x with state := .spare, imem := s.eng.code }
    else (s.modEngine e fun x => { x with state := .failed }).count Reg.ENG_SELFTEST_FAIL)

/-- COLUMN_MISMATCH (R260): a running Column halts, counts and logs; the image copy starts. -/
def execColumnMismatch (c : ColumnIx) (s : State) : Out :=
  .next (s.whenCore fun s =>
    if s.eng.columns[c].state != .running then s
    else ((s.count (Reg.COL_MISMATCH c.val)).logEvent 0x11 0x01 [c.val]).haltColumn c)

/-- COLUMN_IMAGE_COPY_END (R260): the working half holds the image copy; the Column restarts at the next head. -/
def execColumnImageCopyEnd (c : ColumnIx) (s : State) : Out :=
  .next (s.whenCore fun s =>
    if s.eng.columns[c].state != .restoring then s
    else (s.restoreTcm c).modColumn c fun x => { x with copyDone := true })

/-- A role's table retires: its tasks have taken their descriptors, after the agents have acted on what they hold. The CCLK it used, which ENG_ROLE_BODY shows the
longest of, is a free value. -/
def State.retireRole (s : State) (r : RoleIx) : State :=
  let x := s.eng.roles[r]
  match x.outstanding with
  | none => s
  | some k =>
    let n := takenBy (x.table.getD k []) x.inbox.length
    let s1 := (s.drawn.setRegN (Reg.ENG_ROLE_BODY r.val) (s.free % 2 ^ 17)).agentTakes.takeDescriptors r.val n
    s1.modRole r fun y => { y with outstanding := none }

/-- A Column's table retires: the first after a restart that retires in time raises READY (R260). -/
def State.retireColumn (s : State) (c : ColumnIx) : State :=
  let x := s.eng.columns[c]
  match x.outstanding with
  | none => s
  | some k =>
    let n := takenBy (x.table.getD k []) x.inbox.length
    (s.takeDescriptors (16 + c.val) n).modColumn c fun y =>
      { y with
        outstanding := none
        ready := y.ready || !y.late
        readyHead := if y.ready || y.late then y.readyHead else s.heads }

/-- TASK_TABLE_RETIRE (R254). -/
def execTaskTableRetire (owner : TaskOwner) (s : State) : Out :=
  .next (s.whenCore fun s =>
    match owner with
    | .role r => s.retireRole r
    | .column c => s.retireColumn c)

end Sys2Proof.Machine
end

