-- ==== Sys2Proof/Machine/Head.lean ====
section
/-! DEFINITION. Machine/Head.lean: the beat head, its eight steps in the order of Table BEA-1 (R22-R29), and what the hub does at
its boundary: the beat's length, its BEAT and CRED blocks (R28, R32, R228). -/

namespace Sys2Proof.Machine

open Sys2Proof

/-! ## Step 1: the number, the mode, the arming (R23, R289, R349) -/

/-- RUN begins: in the limited RUN where the core is still on IFO; the anchor of the task tables is its first beat (R252, R371,
R397). BOOT_TIME, a measured time, is open. -/
def State.enterRun (s : State) : State :=
  let s1 := (s.changeMode .run).setStage 7
  let s2 := if s1.bit Reg.BOOT_STATUS 14 then s1 else s1.enterLimited
  let s3 := s2.drawn.setRegN Reg.BOOT_TIME (1 + s.free % (2 ^ 32 - 1))
  { s3 with
    eng := { s3.eng with anchor := s3.beatNum }
    echo := { s3.echo with runHead := some s3.heads } }

/-- A staged boot begins: START with the staged image as the one copy to check (R372). -/
def State.enterStaged (s : State) : State :=
  let s1 := ((s.changeMode .start).dropFault .recovery).setStage 2
  { s1 with boot := { s1.boot with tries := [2] } }

/-- A mode change that is due takes effect (R349). -/
def State.modeHead (s : State) : State :=
  let s1 : State := { s with boot := { s.boot with pendingMode := none } }
  match s.boot.pendingMode with
  | none => s
  | some .run => if s.mode = .start then s1.enterRun else s1
  | some .start => s1.enterStaged
  | some .recovery => s1.enterRecovery s.boot.pendingReason
  | some .test => s1.changeMode .test
  | some .service => s1

/-- A core PLL that has locked in the limited RUN takes over. After a LAYOVER wake the hub goes on from step 2 of R393, else from stage 6,
in which Column 0 trains Sump and commands SEED (R370, R397; log 138). -/
def State.pllHead (s : State) : State :=
  if !s.boot.pllLocked then s
  else if s.boot.limitedWake then
    let s1 := (s.setBit Reg.BOOT_STATUS 14 true).setBit Reg.GLB_MODE 3 false
    ({ s1 with boot := { s1.boot with limitedWake := false, pllLocked := false } } : State).wakeMemories
  else s.onPll.setStage 6

/-- A hub whose merge was cancelled or discarded leaves STEP_PENDING (Table BEA-4). -/
def State.settleStep (s : State) : State :=
  if s.beat.timing = .stepPending ∧ s.merges.any (·.steps) = false then
    s.viewing fun s => if s.actingMaster = Config.hubId then s.becomeMaster else s.becomeFollower
  else s

/-- Step 1: BEAT_NUM rises by one and a new beat begins. -/
def State.head1 (s : State) : State :=
  let s1 := s.setBeatNum (s.beatNum + 1)
  let s2 : State := { s1 with
    heads := s1.heads + 1
    beat := { s1.beat with phase := 0 }
    sched := { s1.sched with lateBeat := false }
    acc := { s1.acc with unlock := vall s1.acc.unlock armLapse } }
  ((s2.modeHead).pllHead).settleStep

/-! ## Steps 2 to 4: commits, gate lists, refill (R43, R44, R207, R210) -/

/-- Steps 2 and 3: at the first head of RUN every shadow, later the commits due. -/
def State.head23 (s : State) : State :=
  if s.mode ≠ .run then s else if s.beat.firstRun then s.applyDue else s.applyFirst

/-- One bucket refilled at a rate, at most its size. -/
def State.refillOne (s : State) (tok rate size : Nat) : State :=
  s.setRegN tok (min ((s.reg tok).toNat + (s.reg rate).toNat) ((s.reg size).toNat * 256))

/-- A class of a port refilled (R210). -/
def State.refillClass (s : State) (p c : Nat) : State :=
  (s.refillOne (Reg.SCHED_CTOK p c) (Reg.SCHED_CIR_ACT p c) (Reg.SCHED_CIR_ACT p c + 4)).refillOne (Reg.SCHED_PTOK p c)
    (Reg.SCHED_CIR_ACT p c + 8) (Reg.SCHED_CIR_ACT p c + 12)

/-- Step 4: every class of every egress port. -/
def State.head4 (s : State) : State := s.over (List.range 21) fun s p => s.over (List.range 8) fun s c => s.refillClass p c

/-! ## Step 5: the snapshot (R291, R292, R294) -/

/-- The bank switch at a copy with Sump READY: the live bank freezes and the other becomes live (R294). -/
def State.switchBank (s : State) : State :=
  if !s.sumpReady then s
  else (s.setBit Reg.CNT_SNAP_STATUS 1 (!s.bit Reg.CNT_SNAP_STATUS 1)).setBit Reg.CNT_SNAP_STATUS 2 true

/-- Step 5: a requested snapshot copies every counter and latches BEAT_NUM. -/
def State.head5 (s : State) : State :=
  if !s.acc.snapPending then s
  else
    let s1 : State := { s with acc := { s.acc with snapPending := false, snap := s.regs.filter fun x => isCounter x.1 } }
    ((s1.setReg48 Reg.CNT_SNAP_BEAT_LO s1.beatNum.toNat).setBit Reg.CNT_SNAP_STATUS 0 true).switchBank

/-! ## Step 8: engines and Columns (R254, R257, R260, R262-R264, R410) -/

/-- A Column that is ready to restart does so before RUN, where no task tables are released. -/
def State.restartColumn (s : State) (c : ColumnIx) : State :=
  if s.eng.columns[c].state = .restoring ∧ s.eng.columns[c].copyDone = true then
    s.modColumn c fun y => { y with state := .running, copyDone := false, ovr := 0, resumed := some s.heads }
  else s

/-- Supervision that has passed to Column 2 clears USB_MF_CFG.ADMIT, and its return sets it (R410). -/
def State.admitFollows (s : State) (before : Nat) : State :=
  let now := s.fld Reg.COL_SUPER 1 0
  if now = before then s
  else if now = 2 then (s.setBit Reg.USB_MF_CFG 0 false).sessionConfig
  else if now = 0 then (s.setBit Reg.USB_MF_CFG 0 true).sessionConfig
  else s

/-- Step 8: in RUN tables are checked and released; in START only Columns restart. Echo goes on where Column 1 has rebuilt
its view (R265), Column 2 sends the Source_Capabilities that are due (R417), and bulk OUT its ERDY (R407). -/
def State.head8 (s : State) : State :=
  let before := s.fld Reg.COL_SUPER 1 0
  let s1 :=
    if s.mode = .run then s.engineHead
    else if s.mode = .start ∧ 4 ≤ s.fld Reg.BOOT_STATUS 2 0 then (s.passSupervision.over (List.finRange 4) State.restartColumn).takeSupervision
    else s
  (s1.admitFollows before).resumeEcho.sendDueCaps.sendErdy

/-! ## The boundary (R28, R32, R36, R228, R241, R246) -/

/-- The hub sends BEAT blocks: on the PLL, as master, tracking or in HOLDOVER, or with the duties it had before STEP_PENDING
(R32, R50). -/
def State.sendsBeat (s : State) : Bool :=
  s.pllOn && !(s.beat.timing == .free) && !(s.beat.timing == .stepPending && s.beat.enteredFrom == .free)

/-- The hub sends as the master, with HOPS = 0. -/
def State.sendsAsMaster (s : State) : Bool :=
  s.beat.timing == .master || (s.beat.timing == .stepPending && s.beat.enteredFrom == .master)

/-- The HOLD bit of its blocks. -/
def State.holdBit (s : State) : Bool :=
  s.beat.timing == .holdover || (s.beat.timing == .stepPending && s.beat.enteredFrom == .holdover) || s.beat.srcHold

/-- Blocks begin anew on a lane of a rate every so many units of 156.25 ps, rounded up (Table BEA-3): 66 bits at 25.78125, 10.3125 and
5.15625 Gb/s. -/
def ofsRange (rate : Nat) : Nat := if rate = 1 then 41 else if rate = 2 then 82 else 17

/-- The BEAT block of a port, on its lowest active lane. OFS, the wait for the block in progress to end, is a free value below one
block (log 100). -/
def State.sendBeat (s : State) (p : LinkPort) : State :=
  match s.txLaneList p with
  | [] => s
  | l :: _ =>
    let ofs := s.free % ofsRange (s.laneRate l)
    s.drawn.emit (.beatBlock p (s.laneIndex l) (BitVec.ofNat 32 s.beatNum.toNat) (if s.sendsAsMaster then 0 else s.beat.hops) s.holdBit
      (BitVec.ofNat 10 ofs) s.pep)

/-- What a port sends at the boundary: its lanes in TRAIN a TRAIN block, a Torvisk Link port in service CRED for every class and set and,
where it is ACTIVE, a BEAT block, one in CAPX its record again, an Ethernet port with local fault remote fault again (R32, R64, R79,
R228, Tables LAN-2, LAN-8). -/
def State.portBoundary (s : State) (p : LinkPort) : State :=
  if s.isTvl p then
    let s1 := s.over (((List.range (s.laneCount p)).map (laneAt p)).filter s.inTrain) State.sendTrain
    if s1.portUp p then (if s1.sendsBeat && s1.portActive p then s1.sendBeat p else s1).sendAllCred p
    else if s1.ports[p].stage = .capx then s1.sendCap p
    else s1
  else
    match asLocal p with
    | some n => if s.isEth p && s.ports[p].localFault && s.laneOn (laneAt p 0) then s.emit (.remoteFault n) else s
    | none => s

/-- What the boundary brings for the ports and the waits. -/
def State.boundary (s : State) : State :=
  let s1 := s.retime.over (List.finRange 20) fun s p => (s.portBoundary p).noteHealth p
  let s2 := s1.over (List.finRange 16) fun s n => s.refreshDrain n (s.heads - 1)
  if s2.mode = .run then s2.count48 Reg.DEP_BEATS_LO 1 else s2

/-- BEAT_HEAD (R26): the eight steps in order. A takeover commanded is made at the head's start, so that step 8 of the next head
releases the role (R257). -/
def State.beatHead (s : State) : State :=
  let s1 := s.head1.boundary.commandedTakeovers
  (s1.head23.head4.head5.cascadeHead.powerHead).head8

/-- BEAT_HEAD. -/
def execBeatHead (s : State) : Out := .next (if s.beatRuns then s.inOrder State.beatHead else s)

end Sys2Proof.Machine
end

