-- ==== Sys2Proof/Machine/Power.lean ====
section
/-! DEFINITION. Machine/Power.lean: the meanings of the events of power states, wake and voltage (chapter "Power states,
wake and voltage"), but for the register writes. -/

namespace Sys2Proof.Machine

/-! ## Entry, refusal, completion (R378-R383) -/

/-- PWR_ASK_ISSUE (R378): during beat T - 1 the supervisor writes PWR_REQ for the ask. -/
def execPwrAskIssue (s : State) : Out :=
  .next (s.whenCore fun s =>
    let t := (s.reg Reg.PWR_ASK_BEAT_LO).toNat + 2 ^ 32 * s.fld Reg.PWR_ASK_BEAT_HI 15 0
    if s.pwr.askMaster.isSome && s.fld Reg.PWR_ASK 1 0 != 0 && t != 0 && s.beatNum.toNat + 1 == t &&
        decide (0 < s.pwr.askLeft) && !s.pwr.askSent then s.issueAsk
    else s)

/-- PWR_RETRY (R378): RETRY seconds after an abandonment or a refusal the supervisor repeats the request. -/
def execPwrRetry (s : State) : Out :=
  .next (s.whenCore fun s => if s.pwr.retryDue && decide (0 < s.pwr.askLeft) then s.issueAsk else s)

/-- BLOCK_AGREE (R380): the block that is asked agrees, where no reason to refuse holds; the scheduler agrees at a head
(R381). -/
def execBlockAgree (block : Fin 7) (s : State) : Out :=
  .next (s.whenCore fun s =>
    let b := block.val + 1
    if s.pwr.asked = some b ∧ b ≠ 3 ∧ s.refusal b = 0 then s.agree b else s)

/-- BLOCK_REFUSE (R383): the block that is asked refuses for a reason of Table PWR-4; the scheduler never does. -/
def execBlockRefuse (block : Fin 7) (reason : BitVec 4) (s : State) : Out :=
  .next (s.whenCore fun s =>
    let b := block.val + 1
    if s.pwr.asked = some b ∧ b ≠ 3 ∧ s.mayRefuse b reason.toNat = true then s.refuse b reason.toNat else s)

/-- ROLLBACK_RESTART_END (R383): the restarting block has finished; the next restart begins, or the rollback ends. BIST
and training end under their own events first. -/
def execRollbackRestartEnd (s : State) : Out :=
  .next (s.whenCore fun s =>
    match s.pwr.rollback with
    | [] => s
    | b :: rest =>
      if !(s.pwr.state == .rollback) || (b == 5 && s.cav.bistRun) || (b == 6 && s.bit Reg.SUMP_TRAIN 0) then s
      else ({ s with pwr := { s.pwr with rollback := rest } } : State).rollbackNext)

/-- What is lost as the Core and USB domains go off: PD drives no VBUS and what it drove is discharged (R415, R418), only T8 is converted (R429), every master is
disarmed (R289). -/
def State.coreOff (s : State) : State :=
  let port (k : PdPort) (p : PdState) : PdState := { PdState.reset (k.val != 0) with disch := p.disch || p.vbusEn, ccSeen := p.ccSeen }
  let channel (c : Channel) : Channel := { c with valid := false }
  { s with
    pd := Vector.ofFn fun i => port i s.pd[i]
    mon := Vector.ofFn fun i => if i.val = 8 then s.mon[i] else channel s.mon[i]
    usb := State.reset.usb
    acc := { s.acc with unlock := Vector.replicate 34 none }
    pwr := { s.pwr with coreEn := false, coreHeld := true, pgood := false, usbOn := false, laneDom := 0, ddrOn := false } }

/-- DORMANT_ENTRY_COMPLETE (R382, R389): the save ends and CORE_EN is deasserted; volatile slots are zeroed (R329); events
latched are replayed. -/
def execDormantEntryComplete (s : State) : Out :=
  .next (s.whenCore fun s =>
    if !s.pwr.saving then s
    else
      let s1 := s.zeroVolatile.coreOff.entryOver
      let s2 : State := { s1 with pwr := { s1.pwr with
        state := .dormant, saving := false, fromLayover := false, save := some s.makeSave } }
      (s2.count Reg.PWR_ENTER_DORMANT).replayLatch)

/-- REST_TICK (R376): in LAYOVER it stands in for a head in the evaluation of PWR_REQ and the lapse of unlock arming, and
an entry that began in LAYOVER goes on with it (log 45). Column 2 sends the Source_Capabilities that are due (R417). -/
def execRestTick (s : State) : Out :=
  .next (s.whenCore fun s =>
    if !(s.pwr.state == .layover) then s
    else
      let s1 : State := { s with acc := { s.acc with unlock := vall s.acc.unlock armLapse } }
      s1.powerHead.sendDueCaps)

/-! ## Wakes (R384-R397) -/

/-- WAKE_EVENT (R384): a source of Table PWR-6. In DORMANT no access that triggers a wake is served (R388). -/
def execWakeEvent (source : Fin 7) (s : State) : Out := .next (s.wakeBy source.val)

/-- WAKE_LAYOVER_READY (R393): BIST and Sump training have both ended: the beat resumes in FREE from the held BEAT_NUM at
the next head, admission reopens, engines are released, the lane groups are powered. -/
def execWakeLayoverReady (s : State) : Out :=
  .next (s.whenCore fun s =>
    if !(s.pwr.state == .waking) || s.boot.fromDormant || s.layoverSwitch || s.cav.bistRun || s.bit Reg.SUMP_TRAIN 0 then s
    else
      let s1 : State := { s with pwr := { s.pwr with state := .active } }
      s1.reopenAdmission.freeEngines.lanesOn)

/-- The save of a wake from DORMANT can be used: save RAM holds one and its CRC passes (R392). -/
def State.saveUsable (s : State) : Bool := s.pwr.save.any Save.crcOk

/-- The core is released on IFO: a cold start samples nothing more and begins at stage 0; a wake begins to restore, or
discards a bad save and goes on as under BOOT_CMD RESET (R392, R394, R459). -/
def State.releaseCore (s : State) : State :=
  let v := s.wakeVoltage
  let s1 := (s.setFld Reg.AVS_STATUS 9 0 v).dropFault .wakeFailed
  let s2 : State := { s1 with pwr := { s1.pwr with coreHeld := false, wakeWait := 1, wakeTries := 0, latch := 0 } }
  if s.pwr.coldStart then s2.startPorst.setFld Reg.AVS_STATUS 9 0 v
  else if s.saveUsable then
    let s3 := s2.restarted .dormant
    { s3 with pwr := { s3.pwr with state := .waking } }
  else
    let s3 := (s2.restarted .dormant).count Reg.PWR_SAVE_DISCARD
    let s4 : State := { s3 with
      boot := { s3.boot with fromDormant := false }
      pwr := { s3.pwr with save := none } }
    (s4.strapDefaults (s4.fld Reg.GLB_STRAPS 8 0)).startStage

/-- PGOOD_RISE (R394, R395): with the Voltage write acknowledged the core is released at once; at the first power-up
PORST_N holds it (R455), and a released PORST_N then starts. -/
def execPgoodRise (s : State) : Out :=
  .next (
    if !s.pwr.vaux || !s.pwr.coreEn then s
    else
      let s1 : State := { s with pwr := { s.pwr with pgood := true } }
      if s1.boot.held then s1
      else if s1.wakingCore then (if s1.pwr.wakeAck then s1.releaseCore else s1)
      else if s1.pwr.coldStart && !s1.faultN.contains .pgood then s1.startPorst
      else s1)

/-- RESTORE_END (R390, R391): the save set stands in its registers, whole words and the MPU regions before MPU_CFG; the
start goes on from stage 1 with the straps of the save. -/
def execRestoreEnd (s : State) : Out :=
  .next (s.whenCore fun s =>
    match s.pwr.save with
    | none => s
    | some v =>
      if !(s.pwr.state == .waking && s.boot.fromDormant) then s
      else
        let eff := (v.regs.find? fun x => x.1 == Reg.BOOT_STRAPS_EFF).map (·.2.toNat)
        let s1 := (s.strapDefaults (eff.getD 0)).restoreSet v
        let s2 := s1.setBit Reg.PWR_WAKE_CAUSE 7 true
        ({ s2 with pwr := { s2.pwr with state := .active } } : State).startStage)

/-- AVS_ACK_TIMEOUT (R395): a Voltage write is repeated, up to three times; then the wake or the step fails. -/
def execAvsAckTimeout (s : State) : Out :=
  .next (
    if s.wakingCore && !s.pwr.wakeAck then s.wakeNoAck
    else
      s.whenCore fun s =>
        if !s.stepping then s
        else if s.pwr.avsRetries < 3 then
          ({ s with pwr := { s.pwr with avsRetries := s.pwr.avsRetries + 1 } } : State).sendVoltage s.pwr.avsFrom
        else s.stepFailed)

/-- WAKE_PGOOD_TIMEOUT (R395): PGOOD has not risen within 1 ms of the acknowledgement, and the attempt fails. -/
def execWakePgoodTimeout (s : State) : Out :=
  .next (if s.wakingCore && s.pwr.wakeAck && !s.pwr.pgood then s.wakeFailed else s)

/-- WAKE_RETRY (R395): the next attempt of a failed wake, with the next wait doubled up to 64 s. -/
def execWakeRetry (s : State) : Out :=
  .next (
    if s.wakeWaiting && s.pwr.vaux && !s.boot.held then
      ({ s with pwr := { s.pwr with wakeWait := min 64 (2 * s.pwr.wakeWait) } } : State).wakeAttempt
    else s)

/-! ## Core voltage (R396-R400) -/

/-- AVS_STEP (R399): the Voltage write of a step is acknowledged, or has failed after its retries. In a wake it is the
acknowledgement of R395. -/
def execAvsStep (ack : Bool) (s : State) : Out :=
  .next (
    if s.wakingCore && !s.pwr.wakeAck then
      if !ack then s.wakeFailed
      else
        let s1 : State := { s with pwr := { s.pwr with wakeAck := true } }
        if s1.pwr.pgood && !s1.boot.held then s1.releaseCore else s1
    else s.whenCore fun s => if !s.stepping then s else if ack then s.stepDone else s.stepFailed)

/-- The clock switch of a start or of a wake from LAYOVER is still to come (R396). -/
def State.switchToCome (s : State) : Bool := s.beforeSwitch || s.layoverSwitch

/-- AVS_EVALUATION (R400, R396): with EN = 1 the supervisor evaluates once every 16,000 beats in ACTIVE, and Column 0 before the clock
switch; with EN = 0 Column 0 writes back the value that AVS_TARGET holds. -/
def execAvsEvaluation (s : State) : Out :=
  .next (s.whenCore fun s =>
    if s.bit Reg.AVS_CFG2 8 then
      (if s.switchToCome || (s.supervisor.isSome && s.mode == .run && s.pwr.state == .active && decide (s.pwr.avsHead + 16000 ≤ s.heads)) then
        s.avsEvaluate
      else s)
    else if s.switchToCome then s.writeTarget
    else s)

/-- Limited RUN (R397). -/
def State.limited (s : State) : Bool := s.mode == .run && s.bit Reg.GLB_MODE 3

/-- AVS_TARGET_RETRY (R396): in limited RUN after a failed step Column 0 writes AVS_TARGET again; with no supervisor AVS
holds the voltage (R262). -/
def execAvsTargetRetry (s : State) : Out :=
  .next (s.whenCore fun s => if s.limited && s.bit Reg.AVS_STATUS 21 && s.supervisor.isSome then s.writeTarget else s)

/-- Column 0 has written AVS_TARGET and the voltage has reached it (R396). -/
def State.atTarget (s : State) : Bool :=
  s.pwr.avsSet && s.vout != 0 && s.vout == s.avsClamp (s.fld Reg.AVS_TARGET 9 0) && !s.stepping

/-- CLOCK_SWITCH (R396): once VOUT equals AVS_TARGET, Column 0 moves the core to the PLL; a start then enables the lanes, and a wake from
LAYOVER goes on with its memories (R393). Without its reference the hub goes to limited RUN, in which the switch waits for a head (R397). -/
def execClockSwitch (s : State) : Out :=
  .next (s.whenCore fun s =>
    if !s.atTarget then s
    else if s.switchToCome then
      if !s.bit Reg.GLB_REFCLK 5 then s.goLimited
      else if s.beforeSwitch then s.onPll
      else (s.setBit Reg.BOOT_STATUS 14 true).wakeMemories
    else if s.limited && s.bit Reg.GLB_REFCLK 5 then { s with boot := { s.boot with pllLocked := true } }
    else s)

/-- PLL_LOCK_TIMEOUT (R397): the core PLL has not locked: counted, and the hub stays on IFO in limited RUN. -/
def execPllLockTimeout (s : State) : Out :=
  .next (s.whenCore fun s =>
    if s.switchToCome && s.atTarget then (s.count Reg.PWR_PLL_FAIL).goLimited else s)

/-- PLL_LOCK_RETRY (R397): in limited RUN Column 0 tries the lock again; a failed lock is counted, and a lock switches the
clock at the next head once the voltage has reached its target (R396). -/
def execPllLockRetry (locked : Bool) (s : State) : Out :=
  .next (s.whenCore fun s =>
    if !s.limited then s
    else if !(locked && s.bit Reg.GLB_REFCLK 5) then s.count Reg.PWR_PLL_FAIL
    else if s.atTarget then { s with boot := { s.boot with pllLocked := true } }
    else s)

end Sys2Proof.Machine
end

