-- ==== Sys2Proof/Machine/Monitors.lean ====
section
/-! DEFINITION. Machine/Monitors.lean: the meanings of the events of the converter, the thermal cutoff and the log writer
(chapter "Monitors and the log vault"). -/

namespace Sys2Proof.Machine

/-! ## Thresholds (R430, R431) -/

/-- What a channel measures (Table MON-1). -/
inductive Sensor where
  | temperature | voltage (nominal : Nat) | process | margin
deriving DecidableEq, Repr

/-- The sensor of a channel; the nominal voltage in its codes. The core supply is AVS_STATUS.VOUT, and 800 mV while none
is acknowledged, where the controller takes the regulator to stand (R396, R430). -/
def State.sensor (s : State) (ch : ChannelIx) : Sensor :=
  let c := ch.val
  let core := if s.vout = 0 then 800 else s.vout
  if c ≤ 8 then .temperature
  else if c ≤ 11 then .voltage (core * 4)
  else if c ≤ 13 then .voltage 3600
  else if c ≤ 16 then .voltage 2400
  else if c = 17 then .voltage 3200
  else if c = 18 then .voltage 3600
  else if c = 19 then .voltage 3300
  else if c = 20 then .voltage 3300
  else if c = 21 then .voltage 3000
  else if c = 22 then .voltage 3600
  else if c ≤ 30 then .process
  else .margin

/-- A threshold condition after a conversion: it asserts where the reading meets it and clears where the reading misses it
by HYST codes; 0 disables it, and 0xFFF too but on a margin (R430, R431). -/
def condition (k : Sensor) (th hyst code : Nat) (now : Bool) : Bool :=
  if th = 0 then false
  else
    match k with
    | .process => false
    | .margin =>
      if code ≤ th ∧ code < 0xFFF then true
      else if th + hyst ≤ code ∨ th = 0xFFF then false
      else now
    | .temperature =>
      if th = 0xFFF then false
      else if th ≤ code then true
      else if code + hyst ≤ th then false
      else now
    | .voltage n =>
      let d := if code < n then n - code else code - n
      if th = 0xFFF then false
      else if th ≤ d then true
      else if d + hyst ≤ th then false
      else now

/-- A condition of a channel rises or falls: counted, and for CRIT logged and shown on FAULT_N (R431). -/
def State.critChange (s : State) (ch : ChannelIx) (code : BitVec 12) (was is : Bool) : State :=
  if !was && is then
    let s1 := (s.count Reg.MON_CRIT_EVENTS).logBytes 0x1A 0x01 (leBytes 1 ch.val ++ leBytes 2 code.toNat)
    if s1.bit Reg.MON_CFG 0 then s1.raiseFault (.crit ch) else s1
  else if was && !is then s.dropFault (.crit ch)
  else s

/-! ## The thermal cutoff (R433) -/

/-- 130 degrees as a code. -/
def cutoffCode : Nat := (130 + 64) * 16

/-- A cutoff is under way or holds the hub off. -/
def State.inCutoff (s : State) : Bool := s.faultN.contains .cutoff

/-- The cutoff starts: logged, FAULT_N, counted; every lane group domain goes off (R433). -/
def State.startCutoff (s : State) (ch : ChannelIx) (code : BitVec 12) : State :=
  let s1 := (s.logBytes 0x1A 0x02 (leBytes 1 ch.val ++ leBytes 2 code.toNat)).raiseFault .cutoff
  (s1.count Reg.MON_CUTOFFS).lanesOff

/-! ## Conversions (R429) -/

/-- A conversion of a channel ends. -/
def State.convert (s : State) (x : ChannelIx × BitVec 12) : State :=
  let ch := x.1
  let code := x.2
  let c := s.mon[ch]
  let k := s.sensor ch
  let th := s.reg (Reg.MON_TH ch.val)
  let warn := condition k (bitsOf th 11 0) (bitsOf th 31 24) code.toNat c.warn
  let crit := condition k (bitsOf th 23 12) (bitsOf th 31 24) code.toNat c.crit
  let hot := if ch.val < 8 ∧ cutoffCode ≤ code.toNat then c.hot + 1 else 0
  let c' : Channel := { code := code, valid := true, warn := warn, crit := crit, hot := min 2 hot }
  let s1 : State := { s with mon := vset s.mon ch c' }
  let s2 := if !c.warn && warn then s1.count Reg.MON_WARN_EVENTS else s1
  let s3 := s2.critChange ch code c.crit crit
  if 2 ≤ hot ∧ s3.inCutoff = false then s3.startCutoff ch code else s3

/-- A list sorted by insertion. -/
def insertSorted (x : Nat) : List Nat → List Nat
  | [] => [x]
  | y :: ys => if x ≤ y then x :: y :: ys else y :: insertSorted x ys

/-- PROC_CODE from P0-P7: their median, shifted right by 4. Of an even number of codes the median lies between the two in
the middle; which value it takes there is open (R400, R429). -/
def State.noteProcess (s : State) : State :=
  let l := ((List.finRange 55).filter fun c => decide (23 ≤ c.val) && decide (c.val ≤ 30) && s.mon[c].valid).map fun c => s.mon[c].code.toNat
  let sorted := l.foldl (fun a x => insertSorted x a) []
  if sorted.length < 8 then s
  else
    let lo := sorted.getD 3 0
    let hi := sorted.getD 4 0
    let p := (lo + s.free % (hi - lo + 1)) / 16
    let s1 := s.drawn
    s1.setRegN Reg.AVS_PROC (p + 256 * (720 + 5 * ((255 - p) / 8)))

/-- The first of the channels with the lowest code. -/
def lowestCode (mon : Vector Channel 55) : List ChannelIx → ChannelIx → ChannelIx
  | [], best => best
  | c :: rest, best => lowestCode mon rest (if decide (mon[c].code.toNat < mon[best].code.toNat) then c else best)

/-- The lowest margin of S0-S23 and its sensor (R400, Table PWR-12). -/
def State.noteMargin (s : State) : State :=
  match (List.finRange 55).filter fun c => decide (31 ≤ c.val) && s.mon[c].valid with
  | [] => s
  | c0 :: rest =>
    let best := lowestCode s.mon rest c0
    s.setRegN Reg.AVS_MARGIN (s.mon[best].code.toNat + 4096 * (best.val - 31))

/-- MON_CONVERSION (R429): the channels convert in the order given; with the core off only T8 does. -/
def execMonConversion (readings : List (ChannelIx × BitVec 12)) (s : State) : Out :=
  .next (
    if !s.pwr.vaux then s
    else if s.coreOn then s.inOrder fun s => ((s.over readings State.convert).noteProcess).noteMargin
    else s.inOrder fun s => s.over (readings.filter fun x => x.1.val == 8) State.convert)

/-- CUTOFF_CORE_OFF (R433): Bedrock deasserts CORE_EN, with no block asked and no save taken. -/
def execCutoffCoreOff (s : State) : Out :=
  .next (
    if s.inCutoff && !(s.pwr.state == .cutoff) then
      let s1 := s.coreOff.entryOver
      { s1 with pwr := { s1.pwr with state := .cutoff, saving := false, fromLayover := false, latch := s.pwr.latch } }
    else s)

/-- MON_CFG.RESTART as a code (Table MON-5). -/
def State.restartCode (s : State) : Nat := (min 120 (max 60 (s.fld Reg.MON_CFG 15 8)) + 64) * 16

/-- THERMAL_RESTART (R433): T8 has read at or below RESTART for 1 s: a start as under BOOT_CMD RESET, with CUT_START; a
PORST_N released meanwhile powers up now (R459). -/
def execThermalRestart (s : State) : Out :=
  .next (
    if s.pwr.state == .cutoff && s.mon[(8 : ChannelIx)].valid && decide (s.mon[(8 : ChannelIx)].code.toNat ≤ s.restartCode) &&
        !s.boot.held then
      let s1 := s.dropFault .cutoff
      if s1.pwr.coldStart then ({ s1 with pwr := { s1.pwr with wakeTries := 0 } } : State).wakeAttempt
      else s1.startReset.setBit Reg.MON_STATUS 2 true
    else s)

/-- The writer can write its oldest record: with VAUX any, on VBAT alone a tamper record (R435). -/
def State.writerRuns (s : State) : Bool := s.pwr.vaux || (s.pwr.vbat && s.log.pending.head?.any fun r => r.src == 0x13)

/-- LOG_RECORD_WRITE (R434): the oldest pending record is written; a trend update that waits follows the last of them (R435). -/
def execLogRecordWrite (s : State) : Out :=
  .next (
    if !s.writerRuns then s
    else
      let s1 := s.writeRecord
      if s1.log.trendDue && s1.log.pending.isEmpty && s1.mode == .run then s1.trendSecond else s1)

end Sys2Proof.Machine
end

