-- ==== Sys2Proof/Machine/Ports.lean ====
section
/-! DEFINITION. Machine/Ports.lean: the meanings of port bring-up, coupling and capability exchange (chapter
"Port bring-up, coupling and Echo", R95-R106), but for the register writes. -/

namespace Sys2Proof.Machine

/-! ## Coupling and DOWN (R97, R103, R105) -/

/-- The stored partner record of a port goes (Table CPL-1). -/
def State.clearPartner (s : State) (t : TrunkPort) : State :=
  (((s.modPort (trunk t) fun x => { x with partner := none }).setReg (Reg.TRK_PARTNER_ID_LO t.val) 0).setReg
    (Reg.TRK_PARTNER_ID_HI t.val) 0).setReg (Reg.TRK_PARTNER_CAP t.val) 0

/-- A detection starts on a port: DETECT, nothing found yet (Table CPL-1). -/
def State.startDetect (s : State) (p : LinkPort) : State :=
  ((s.toStage p .detect).clearTraining p).emit (.detect p)

/-- What a rise of COUPLED does to its port. -/
def State.coupledUp (s : State) (port : TrunkPort) : State :=
  s.viewing fun s =>
    let s1 := ((s.portDown (trunk port)).clearTraining (trunk port)).clearPartner port
    let s2 := s1.modPort (trunk port) fun x => { x with coupled := true, coupledKept := false }
    if s2.portEnabled (trunk port) then s2.startDetect (trunk port) else s2

/-- COUPLED_RISE (R97): COUPLED rises at once; the port passes through DOWN to a fresh detection, its stored
training and partner record cleared. The change of level is a wake source (R384). -/
def execCoupledRise (port : TrunkPort) (s : State) : Out :=
  .next (if s.ports[trunk port].coupled then s else (s.whenCore fun s => s.coupledUp port).wakeBy 5)

/-- What a fall of COUPLED does to its port. -/
def State.coupledFall (s : State) (port : TrunkPort) : State :=
  let p := trunk port
  let s1 := s.modPort p fun x => { x with coupled := false }
  let s2 := if s1.ports[p].stage == .down then s1.linkLoss p else s1.portDown p
  (s2.modPort p fun x => { x with coupledKept := false }).clearTraining p

/-- COUPLE_SNS_OPEN (R97): low for 8 ms: COUPLED falls, link loss, DOWN, stored training cleared. The change of level
is a wake source (R384). -/
def execCoupleSnsOpen (port : TrunkPort) (s : State) : Out :=
  .next (if !s.ports[trunk port].coupled then s else (s.whenCore fun s => s.coupledFall port).wakeBy 5)

/-- COUPLE_SNS_BOUNCE (R97): a high level during the debounce is counted and changes nothing else. -/
def execCoupleSnsBounce (port : TrunkPort) (s : State) : Out :=
  .next (s.whenCore fun s => if s.ports[trunk port].coupled then s.count (Reg.TRK_SNS_BOUNCE port.val) else s)

/-- DOWN_EXIT (R105): the first head after entry, to LOCK by fast return, else to DETECT. -/
def execDownExit (port : LinkPort) (s : State) : Out :=
  .next (s.whenCore fun s =>
    let x := s.ports[port]
    if x.stage != .down || !s.portEnabled port || s.heads ≤ x.stageHead then s
    else if s.fastReturn port then (s.modPort port fun y => { y with fastTried := true }).enterLock port
    else s.startDetect port)

/-! ## Detection and TRAIN (R15, R55, R78, R98) -/

/-- A lane on which termination was found begins TRAIN at its preset, with the TRAIN_EN in use, and sends its first request: one that its
adaptation chooses, or a hold where TRAIN_EN is 0 (R54, R78, R79; a free value, log 7). -/
def State.beginTrain (s : State) (l : LaneIx) : State :=
  let s1 := s.usePreset l (s.lanePreset l)
  let en := s1.bit (Reg.LANE_CFG_ACT l.val) 5
  let s2 := s1.drawn.modLane l fun x =>
    { x with detected := true, trained := false, tseq := none, rxReady := false, txReady := false, trainEn := en
             ask := if en then BitVec.ofNat 7 s1.free else 0, askSeq := x.askSeq + 1, ackTx := 0, ackSeq := 0 }
  s2.sendTrain l

/-- A port may go on from DETECT: a trunk port only while COUPLED is 1 (R97). -/
def State.mayTrain (s : State) (p : LinkPort) : Bool := decide (4 ≤ p.val) || s.ports[p].coupled

/-- DETECTION_RESULT (R96): the lanes with termination train, the lowest lane's rate deciding which lanes take
part (R55); with none, or on a trunk port with an open coupler (R97), the port stays in DETECT. From TRAIN on it is the retry of the lanes
left out, those among them that a commit has brought back to DETECT (R54). -/
def execDetectionResult (port : LinkPort) (lanes : BitVec 4) (s : State) : Out :=
  .next (s.whenCore fun s =>
    let st := s.ports[port].stage
    if !s.portEnabled port || st == .down then s
    else
      let open' := (List.range (s.laneCount port)).filter fun i =>
        !s.lanes[laneAt port i].trained && !(st == .train && s.inTrain (laneAt port i))
      let s1 := s.over open' fun s i =>
        if s.mayTrain port && lanes.getLsbD i && !s.rateMix (laneAt port i) then s.beginTrain (laneAt port i)
        else s.modLane (laneAt port i) fun x => { x with detected := lanes.getLsbD i }
      let found := s.mayTrain port && open'.any fun i => lanes.getLsbD i && !s.rateMix (laneAt port i)
      if st == .detect && found then s1.toStage port .train else s1)

/-- A lane of a port in TRAIN or past it has been left out (R54, Table CPL-1). -/
def State.leftOut (s : State) (p : LinkPort) : Bool :=
  s.isTvl p && s.mayTrain p &&
    (s.ports[p].stage == .train || s.ports[p].stage == .lock || s.ports[p].stage == .capx || s.portUp p) &&
    (List.range (s.laneCount p)).any fun i => !s.lanes[laneAt p i].trained && !s.inTrain (laneAt p i)

/-- DETECT_RETRY (R15): 12 ms after a failed detection the port detects again, and from TRAIN on its lanes that were left out do. -/
def execDetectRetry (port : LinkPort) (s : State) : Out :=
  .next (s.whenCore fun s => if s.ports[port].stage == .detect || s.leftOut port then s.emit (.detect port) else s)

/-- Lane i takes part in the training of its port. -/
def State.inTraining (s : State) (p : LinkPort) (i : Nat) : Bool :=
  s.lanes[laneAt p i].detected && !s.rateMix (laneAt p i)

/-- TRAIN_COMPLETE (R96): every detected lane has left TRAIN. -/
def execTrainComplete (port : LinkPort) (s : State) : Out :=
  .next (s.whenCore fun s =>
    let ls := (List.range (s.laneCount port)).filter (s.inTraining port)
    if s.ports[port].stage == .train && !ls.isEmpty && ls.all (fun i => s.lanes[laneAt port i].trained) then
      s.enterLock port
    else s)

/-- The next rate of the cycle S25, S10, S5 (R98). -/
def nextRate (r : Nat) : Nat := (r + 1) % 3

/-- All lanes of a port move to the next rate where its lowest lane negotiates (R98). -/
def State.negotiate (s : State) (t : TrunkPort) : State :=
  let l := laneAt (trunk t) 0
  if s.bit (Reg.LANE_CFG_ACT l.val) 6 then
    let r := nextRate (s.laneRate l)
    s.over (List.range 4) fun s i => s.setFld (Reg.LANE_CFG_ACT (laneAt (trunk t) i).val) 1 0 r
  else s

/-- TRAIN_TIMEOUT (R96): on with the trained lanes; with none, DOWN, counted, and the next rate of R98. -/
def execTrainTimeout (port : LinkPort) (s : State) : Out :=
  .next (s.whenCore fun s =>
    if s.ports[port].stage != .train then s
    else if (List.range (s.laneCount port)).any fun i => s.lanes[laneAt port i].trained then s.enterLock port
    else
      let s1 := (s.portDown port).countTrunk port Reg.TRK_TRAIN_TIMEOUT
      match asTrunk port with
      | some t => s1.negotiate t
      | none => s1)

/-! ## LOCK (R96) -/

/-- A trained lane of a port is locked and deskewed. -/
def State.laneReady (s : State) (p : LinkPort) (i : Nat) : Bool :=
  let x := s.lanes[laneAt p i]
  x.trained && x.lock == .locked && x.skew.isSome && !s.loopActive (laneAt p i)

/-- LOCK_COMPLETE (R96): every trained lane in block lock and deskewed. -/
def execLockComplete (port : LinkPort) (s : State) : Out :=
  .next (s.whenCore fun s =>
    let ls := (List.range (s.laneCount port)).filter fun i => s.lanes[laneAt port i].trained
    if s.ports[port].stage == .lock && !ls.isEmpty && ls.all (s.laneReady port) then
      s.enterCapx port (maskOf 4 ls.contains)
    else s)

/-- LOCK_TIMEOUT (R96, R105): on with the deskewed lanes; with none, DOWN and counted, and a fast return is
not tried again. -/
def execLockTimeout (port : LinkPort) (s : State) : Out :=
  .next (s.whenCore fun s =>
    if s.ports[port].stage != .lock then s
    else
      let set := maskOf (s.laneCount port) (s.laneReady port)
      if set ≠ 0 then s.enterCapx port set
      else
        ((s.portDown port).modPort port fun x => { x with fastFailed := x.fastFailed || x.fastTried }).countTrunk port
          Reg.TRK_LOCK_TIMEOUT)

/-! ## CAPX (R64, R99, R100) -/

/-- A CAP record that R63 allows. -/
def capValid (r : CapRecord) : Bool := r.rate != 3 && (r.lanes == 1 || r.lanes == 2 || r.lanes == 4)

/-- The record on which every lane of the port agrees, each having received it three times in a row (R99). -/
def State.capAgreed (s : State) (p : LinkPort) : Option CapRecord :=
  let x := s.ports[p]
  match (List.finRange 4).find? (fun i => x.leftLock.getLsbD i.val) with
  | none => none
  | some i0 =>
    match x.caps[i0] with
    | none => none
    | some (r, _) =>
      if (List.finRange 4).all fun i => !x.leftLock.getLsbD i.val ||
          (match x.caps[i] with | some (q, n) => q == r && decide (3 ≤ n) | none => false)
      then some r else none

/-- The checks of R100 on an agreed record: ACTIVE at the next head, or a refusal, counted when its reason or
its record is new. `fresh` says that the record differs from the one checked before. -/
def State.capDecide (s : State) (p : LinkPort) (r : CapRecord) (fresh : Bool) : State :=
  let c := s.capCheck p r
  if c = 0 then s.modPort p fun x => { x with agreed := true, refuse := 0 }
  else
    let s1 := s.modPort p fun x => { x with agreed := false, refuse := BitVec.ofNat 3 c }
    if !fresh && s.ports[p].refuse.toNat = c then s1
    else
      let s2 := s1.countTrunk p Reg.TRK_CAPX_REFUSED
      if c = 1 then s2.countTrunk p Reg.TRK_WIRING_ERR else s2

/-- CAP_RECORD_RECEIVED (R99): a record whose blocks are not consecutive is ignored. -/
def execCapRecordReceived (port : LinkPort) (lane : Fin 4) (rec : CapRecord) (consecutive : Bool) (s : State) : Out :=
  .next (s.whenCore fun s =>
    if s.ports[port].stage != .capx || !consecutive || !capValid rec then s
    else
      let before := s.capAgreed port
      let n := match s.ports[port].caps[lane] with
        | some (r, n) => if r = rec then min 3 (n + 1) else 1
        | none => 1
      let s1 := s.modPort port fun x => { x with caps := vset x.caps lane (some (rec, n)) }
      match s1.capAgreed port with
      | some r => s1.capDecide port r (before != some r)
      | none => s1)

/-- CAPX_TIMEOUT (R96): without agreement; a refusal has stopped the timer. -/
def execCapxTimeout (port : LinkPort) (s : State) : Out :=
  .next (s.whenCore fun s =>
    let x := s.ports[port]
    if x.stage != .capx || x.agreed || x.refuse != 0 then s
    else (s.portDown port).countTrunk port Reg.TRK_CAPX_TIMEOUT)

/-! ## ACTIVE (R96, R107, R172, R227, R228) -/

/-- TRK_PARTNER_CAP for a record (Table CPL-9). -/
def capWord (r : CapRecord) : Nat :=
  r.rate.toNat + 4 * r.rates.toNat + 32 * r.lanes.toNat + 256 * r.backbone.toNat + 512 * r.carEnd.toNat +
  1024 * r.seat.toNat + 4096 * r.role.toNat + 16384 * r.cl.toNat + 2 ^ 22 * r.keySlot.toNat + 2 ^ 30 * b2n r.sat + 2 ^ 31

/-- The partner record is stored (Table CPL-1, Table CPL-9). -/
def State.storePartner (s : State) (p : LinkPort) (r : CapRecord) : State :=
  let s1 := s.modPort p fun x => { x with partner := some r }
  match asTrunk p with
  | none => s1
  | some t => ((s1.setRegN (Reg.TRK_PARTNER_ID_LO t.val) (r.id.toNat % 2 ^ 32)).setRegN
      (Reg.TRK_PARTNER_ID_HI t.val) (r.id.toNat / 2 ^ 32)).setRegN (Reg.TRK_PARTNER_CAP t.val) (capWord r)

/-- A port enters ACTIVE: its reserve goes in force, the counts start, both directions run on the lanes it
left LOCK with, ADMIT is CLOSED. -/
def State.goActive (s : State) (p : LinkPort) (r : CapRecord) : State :=
  let s1 := ((s.storePartner p r).reservesInForce p).emptyFrame p
  let s2 := (s1.toStage p .active).modPort p fun x =>
    { x with
      reached := true, lossHead := none, fastTried := false, fastFailed := false
      adm := .closed
      rxLanes := lowestLanes x.leftLock
      rxWidth := (laneList (lowestLanes x.leftLock)).length
      discarding := false, ignoring := false
      resyncHead := s1.heads }
  (((s2.resetCredits p).sendAllCred p).evalWidth p).settle

/-- PORT_ACTIVE (R96): at the head after agreement. A trunk port goes on to AUTH and starts the handshake
(R107). -/
def execPortActive (port : LinkPort) (s : State) : Out :=
  .next (s.whenCore fun s =>
    if s.ports[port].stage != .capx || !s.ports[port].agreed then s
    else
      match s.capAgreed port with
      | none => s
      | some r =>
        s.viewing fun s =>
          let s1 := s.goActive port r
          match asTrunk port with
          | some t => s1.startAuth t
          | none => s1)

end Sys2Proof.Machine
end

