-- ==== Sys2Proof/Machine/Supplies.lean ====
section
/-! DEFINITION. Machine/Supplies.lean: the meanings of the events of supplies, resets, reference clocks, the crystal, tamper and
debug, and the ends of Geode and fuse operations (chapters "Geode: keys and link security", "Package, balls and straps",
"Electrical and timing characteristics"). -/

namespace Sys2Proof.Machine

/-! ## PORST_N (R442, R458, R459) -/

/-- A save that is cut short is no save: its commit word is missing (R392, R459). -/
def State.cutSave (s : State) : State :=
  if s.pwr.saving then { s with pwr := { s.pwr with saving := false, save := none } } else s

/-- PORST_N holds the core in reset; a save under way is discarded (R459). -/
def State.holdPorst (s : State) : State :=
  let s1 := (if s.pwr.saving then s.count Reg.PWR_SAVE_DISCARD else s).cutSave
  { s1 with boot := { s1.boot with held := true } }

/-- PORST_N_ASSERT (R442): a low of `ns` nanoseconds; below 800 it is ignored, from 10,000 it resets, and between them it may
do either. -/
def execPorstNAssert (ns : Nat) (s : State) : Out :=
  .next (
    if ns < 800 then s
    else if 10000 ≤ ns then s.holdPorst
    else if s.free % 2 = 0 then s.drawn
    else s.drawn.holdPorst)

/-- PORST_N_RELEASE (R367, R447): the straps are sampled and the hub starts. -/
def execPorstNRelease (straps : BitVec 13) (vauxFromVbus : Bool) (s : State) : Out :=
  .next (if s.boot.held && s.pwr.vaux then s.releasePorst straps vauxFromVbus else s)

/-! ## PGOOD (R457) -/

/-- PGOOD falls in a wake, in which the core is held and its SRAMs were off: the wake ends without its restore, and VOUT takes what has
been acknowledged (R396, R457). -/
def State.wakeCut (s : State) : State :=
  let s1 := if s.pwr.wakeAck then s.setFld Reg.AVS_STATUS 9 0 s.wakeVoltage else s
  { s1 with mem := [], pwr := { s1.pwr with state := .active, wakeAck := false } }

/-- PGOOD has fallen long enough: the core is held in reset and FAULT_N asserted (R457). -/
def State.pgoodLost (s : State) : State :=
  let s1 := if s.wakingCore then s.wakeCut else s.cutSave
  ({ s1 with pwr := { s1.pwr with pgood := false, coreHeld := true } } : State).raiseFault .pgood

/-- PGOOD_FALL (R457): a fall of `ns` nanoseconds while CORE_EN is high; below 8,000 it is ignored, from 12,000 it acts, and
between them it may do either. -/
def execPgoodFall (ns : Nat) (s : State) : Out :=
  .next (
    if !s.pwr.vaux || !s.pwr.coreEn || !s.pwr.pgood || decide (ns < 8000) then s
    else if 12000 ≤ ns then s.pgoodLost
    else if s.free % 2 = 0 then s.drawn
    else s.drawn.pgoodLost)

/-- PGOOD_RECOVER (R457): 1 ms after PGOOD has risen again the core starts as under BOOT_CMD RESET; a PORST_N meanwhile held it
or makes it a start from PORST_N. -/
def execPgoodRecover (s : State) : Out :=
  .next (
    if !s.faultN.contains .pgood || !s.pwr.coreEn then s
    else
      let s1 := (s.dropFault .pgood).dropFault .wakeFailed
      let s2 : State := { s1 with pwr := { s1.pwr with pgood := true, coreHeld := false } }
      if s2.boot.held then s2 else if s2.pwr.coldStart then s2.startPorst else s2.startReset)

/-! ## Reference clocks (R397, R444) -/

/-- The core PLL has lost its reference: the core runs on IFO and the beat is FREE (R50), and in RUN the hub is in limited RUN, with lanes
and Sump off (R397, R444). -/
def State.corePllLost (s : State) : State :=
  if !s.bit Reg.BOOT_STATUS 14 then s
  else if s.mode = .run then
    let s1 := s.enterLimited.lanesOff.untrain
    { s1 with
      beat := { s1.beat with timing := .free, timingPort := none }
      pwr := { s1.pwr with ddrOn := false } }
  else
    let s1 := s.offPll.lanesOff
    { s1 with beat := { s1.beat with timing := .free, timingPort := none } }

/-- REFCLK_ABSENT (R444): a trunk port or every local port goes to DOWN, the core to IFO. -/
def execRefclkAbsent (input : Fin 6) (s : State) : Out :=
  .next (s.whenCore fun s =>
    let s1 := s.setBit Reg.GLB_REFCLK input.val false
    if h : input.val < 4 then
      let p := trunk ⟨input.val, h⟩
      if s1.ports[p].stage = .down then s1 else s1.portDown p
    else if input.val = 4 then
      s1.over (List.finRange 16) fun s n => if s.ports[loc n].stage = .down then s else s.portDown (loc n)
    else s1.corePllLost)

/-- REFCLK_PRESENT (R444). -/
def execRefclkPresent (input : Fin 6) (s : State) : Out :=
  .next (s.whenCore fun s => s.setBit Reg.GLB_REFCLK input.val true)

/-! ## VAUX, VBAT and the crystal (R325, R424, R453, R455, R456) -/

/-- A slot whose cells have lost their contents: its commit word and both its banks fail their checks (R325, R334). -/
def lostSlot : KeySlot :=
  let b : KeyBank := { KeyBank.empty with crc := 0 }
  { KeySlot.empty with bank0 := b, bank1 := b, commit := 0xFF000000 }

/-- Geode without any supply: the root is absent and every slot fails its check (R325). -/
def State.loseGeode (s : State) : State :=
  let fresh := State.reset.geode
  { s with geode := { fresh with
      slots := Vector.replicate 256 lostSlot
      fuses := s.geode.fuses, revoked := s.geode.revoked, revokedNext := s.geode.revokedNext
      tamperNow := s.geode.tamperNow } }

/-- The registers that VBAT keeps: the RTC count, AVS_AGE and those of Geode and the log vault (R321, R400, R434, R453). -/
def onVbat (a : Nat) : Bool :=
  a == Reg.PWR_RTC_SEC || a == Reg.AVS_AGE ||
    (((a / 0x10000 == 0x13) || (a / 0x10000 == 0x1C)) && (regRow a).any fun r => r.kept)

/-- The log writer as VAUX falls: the record it is writing completes (R458), and of those behind it only tamper records are written on
VBAT alone (R435). -/
def State.logOnVbat (s : State) : State :=
  let s1 := s.writeRecord
  { s1 with log := { s1.log with pending := s1.log.pending.filter fun r => r.src == 0x13, putBy := [], trendDue := false } }

/-- Every other Bedrock function stops: its power control, monitors, PD ports and USB, and FAULT_N is driven no more (R453). -/
def State.bedrockOff (s : State) : State :=
  let z := State.reset
  { s with
    faultN := [], mon := z.mon, usb := z.usb, pd := z.pd
    pwr := { z.pwr with vaux := false, coreEn := false, coreHeld := true, pgood := false, usbOn := false, laneDom := 0, ddrOn := false } }

/-- VAUX_FALL (R453): Bedrock resets: a Geode write completes, Geode, the log vault, the RTC and tamper run on from VBAT, CORE_EN falls,
save RAM is lost (R392), and all else stops. -/
def execVauxFall (vbat : Bool) (s : State) : Out :=
  .next (
    if !s.pwr.vaux then s
    else
      let s1 := s.cutOps.logOnVbat.bedrockOff
      let s2 : State := { s1 with
        geode := { s1.geode with running := none, queue := [] }
        pwr := { s1.pwr with vbat := vbat } }
      if vbat then s2 else s2.loseGeode)

/-- VAUX_RISE (R453, R455): Bedrock leaves reset and raises CORE_EN; PORST_N is held low by the integrator. Where VBAT was
absent meanwhile, Geode and the log vault are lost too. The dead-battery Rd stands on UP (R424). -/
def execVauxRise (vbatHeld : Bool) (s : State) : Out :=
  .next (
    if s.pwr.vaux then s
    else
      let kept := vbatHeld && s.pwr.vbat
      let s1 := if kept then s else s.loseGeode
      let z := State.reset
      let log := if kept then s1.log else z.log
      let up : PdState := { z.pd[(0 : PdPort)] with deadBatt := true }
      { z with
        regs := if kept then s1.regs.filter fun x => onVbat x.1 else []
        geode := { s1.geode with freqArmed := false }
        log := { log with putBy := [] }
        boot := { z.boot with held := true, flash := s1.boot.flash }
        pwr := { z.pwr with pgood := false, vbat := vbatHeld }
        pd := vset z.pd 0 up
        ticks := s1.ticks
        freeCtr := s1.freeCtr
        sent := s1.sent
        pending := s1.pending })

/-- XTAL_OK_CHANGE (R456): the crystal starts or fails; its first start arms the frequency-fault source. -/
def execXtalOkChange (ok : Bool) (s : State) : Out :=
  .next (
    if !s.pwr.vaux then s
    else
      let s1 := s.setBit Reg.PWR_STATUS 0 ok
      if ok then { s1 with geode := { s1.geode with freqArmed := true } } else s1)

/-! ## Tamper (R322, R323, R387) -/

/-- The sources in a tamper condition that act: those enabled, the frequency fault once it is armed (R322, R456). -/
def State.tamperActs (s : State) (sources : BitVec 8) : BitVec 8 :=
  let armed : BitVec 8 := if s.geode.freqArmed then 0xFF else 0x7F
  sources &&& armed &&& BitVec.ofNat 8 (s.fld Reg.KEY_TAMPER_CFG 7 0)

/-- TAMPER (R322, R323): the inputs now in a tamper condition. It acts in every power state and on VBAT alone. -/
def execTamper (sources : BitVec 8) (s : State) : Out :=
  .next (
    if !s.pwr.vaux && !s.pwr.vbat then s
    else
      let s1 : State := { s with geode := { s.geode with tamperNow := sources } }
      let act := s1.tamperActs sources
      if act = 0 then s1 else s1.tamperNow act.toNat)

/-! ## Geode, debug and fuses (R331, R335, R348) -/

/-- KEY_COMMAND_END (R331): the running command ends with its effect and its code. -/
def execKeyCommandEnd (s : State) : Out := .next (s.whenCore fun s => s.endKey)

/-- The slot whose key answers the debug challenge, if it is set and valid (R335). -/
def State.debugKey (s : State) : Option (List Byte) :=
  let k := s.slot (BitVec.ofNat 8 s.dbgSlot)
  if s.dbgSlot != 0 && k.valid then some k.live.value else none

/-- The right answer to a challenge: the first 128 bits of HMAC-SHA-384 over the challenge and the hub identity, both
little-endian, taken as a little-endian number (R335). -/
def debugAnswer (key : List Byte) (challenge : BitVec 64) : BitVec 128 :=
  BitVec.ofNat 128 (leNat ((hmac384 key (leBytes 8 challenge.toNat ++ leBytes 8 Config.hubId.toNat)).take 16))

/-- DEBUG_UNLOCK_RESPONSE (R335): the right answer enters debug; a wrong one is counted and ends the challenge. -/
def execDebugUnlockResponse (answer : BitVec 128) (s : State) : Out :=
  .next (s.whenCore fun s =>
    let s0 := s.readSlot (BitVec.ofNat 8 s.dbgSlot)
    let s1 : State := { s0 with geode := { s0.geode with challenge := none } }
    match s.geode.challenge, s0.debugKey with
    | some c, some key => if s.inDebug then s else if answer = debugAnswer key c then s1.enterDebug else s1.count Reg.KEY_DBG_FAIL
    | _, _ => s)

/-- DEBUG_CHALLENGE_RENEW (R335): a random challenge is presented where none stands. -/
def execDebugChallengeRenew (s : State) : Out :=
  .next (s.whenCore fun s =>
    if s.inDebug || s.geode.challenge.isSome then s
    else
      let c := BitVec.ofNat 64 s.free
      let s1 := s.drawn
      { s1 with geode := { s1.geode with challenge := some c } })

/-- SEC_FUSE_OP_END (R348): the fuses are programmed and verified, or did not verify. -/
def execSecFuseOpEnd (ok : Bool) (s : State) : Out := .next (s.whenCore fun s => s.endFuse ok)

end Sys2Proof.Machine
end

