-- ==== Sys2Proof/Machine/Dispatch.lean ====
section
/-! DEFINITION. Machine/Dispatch.lean: one arm per command, each a direct call of its meaning. -/

namespace Sys2Proof.Machine

open Sys2Proof

/-- What a command does to everything but the queue. -/
def exec (i : Instr) (s : State) : Host.Outcome State Fault Refusal :=
  match i with
  | .beatHead => Sys2Proof.Machine.execBeatHead s
  | .beatBlockReceived port num hops hold ofs pep late => Sys2Proof.Machine.execBeatBlockReceived port num hops hold ofs pep late s
  | .holdoverEntry => Sys2Proof.Machine.execHoldoverEntry s
  | .enterMaster => Sys2Proof.Machine.execEnterMaster s
  | .masterMove => Sys2Proof.Machine.execMasterMove s
  | .mergeStep => Sys2Proof.Machine.execMergeStep s
  | .beatCommit m group => Sys2Proof.Machine.execBeatCommit m group s
  | .beatCancel m group => Sys2Proof.Machine.execBeatCancel m group s
  | .epochRaise => Sys2Proof.Machine.execEpochRaise s
  | .pepPrevWindowEnd => Sys2Proof.Machine.execPepPrevWindowEnd s
  | .blockReceived lane hdr payload reads => Sys2Proof.Machine.execBlockReceived lane hdr payload reads s
  | .trainBlockReceived lane reqPre reqPost reqPreset ack rxReady tseq ackSeq settled => Sys2Proof.Machine.execTrainBlockReceived lane reqPre reqPost reqPreset ack rxReady tseq ackSeq settled s
  | .capRecordReceived port lane rec consecutive => Sys2Proof.Machine.execCapRecordReceived port lane rec consecutive s
  | .amkReceived port marks sincePrev => Sys2Proof.Machine.execAmkReceived port marks sincePrev s
  | .amkSend port => Sys2Proof.Machine.execAmkSend port s
  | .credReceived port tc esc count => Sys2Proof.Machine.execCredReceived port tc esc count s
  | .credBlockSend port tc esc => Sys2Proof.Machine.execCredBlockSend port tc esc s
  | .creditResyncPeriodic port => Sys2Proof.Machine.execCreditResyncPeriodic port s
  | .creditResyncIgnoreEnd port => Sys2Proof.Machine.execCreditResyncIgnoreEnd port s
  | .creditResyncSecondCred port => Sys2Proof.Machine.execCreditResyncSecondCred port s
  | .echoRequestSend port => Sys2Proof.Machine.execEchoRequestSend port s
  | .echoRequestReceived port lane eseq turn => Sys2Proof.Machine.execEchoRequestReceived port lane eseq turn s
  | .echoReplyReceived port eseq turn roundTrip => Sys2Proof.Machine.execEchoReplyReceived port eseq turn roundTrip s
  | .delayUpdate port => Sys2Proof.Machine.execDelayUpdate port s
  | .fltReceived port code lanes => Sys2Proof.Machine.execFltReceived port code lanes s
  | .txLaneJoin port lane => Sys2Proof.Machine.execTxLaneJoin port lane s
  | .fltSend port => Sys2Proof.Machine.execFltSend port s
  | .lpbkRequestReceived port lanes => Sys2Proof.Machine.execLpbkRequestReceived port lanes s
  | .lpbkAnswerReceived port lanes accepted => Sys2Proof.Machine.execLpbkAnswerReceived port lanes accepted s
  | .lpbkReleaseReceived port lanes => Sys2Proof.Machine.execLpbkReleaseReceived port lanes s
  | .lpbkRequestSend lane => Sys2Proof.Machine.execLpbkRequestSend lane s
  | .lpbkTimeout lane => Sys2Proof.Machine.execLpbkTimeout lane s
  | .laneLoopWrite m lane data => Sys2Proof.Machine.execLaneLoopWrite m lane data s
  | .losAssert lane => Sys2Proof.Machine.execLosAssert lane s
  | .losClear lane => Sys2Proof.Machine.execLosClear lane s
  | .lolAssert lane => Sys2Proof.Machine.execLolAssert lane s
  | .lolClear lane => Sys2Proof.Machine.execLolClear lane s
  | .eyeMeasurement lane height width => Sys2Proof.Machine.execEyeMeasurement lane height width s
  | .trendUpdate => Sys2Proof.Machine.execTrendUpdate s
  | .laneTrendClrWrite m data => Sys2Proof.Machine.execLaneTrendClrWrite m data s
  | .locModeWrite m port data => Sys2Proof.Machine.execLocModeWrite m port data s
  | .locGroupWrite m data => Sys2Proof.Machine.execLocGroupWrite m data s
  | .ethFrameReceived port bytes fcs => Sys2Proof.Machine.execEthFrameReceived port bytes fcs s
  | .trkCfgEnWrite m port data => Sys2Proof.Machine.execTrkCfgEnWrite m port data s
  | .coupledRise port => Sys2Proof.Machine.execCoupledRise port s
  | .coupleSnsOpen port => Sys2Proof.Machine.execCoupleSnsOpen port s
  | .coupleSnsBounce port => Sys2Proof.Machine.execCoupleSnsBounce port s
  | .downExit port => Sys2Proof.Machine.execDownExit port s
  | .detectionResult port lanes => Sys2Proof.Machine.execDetectionResult port lanes s
  | .detectRetry port => Sys2Proof.Machine.execDetectRetry port s
  | .trainComplete port => Sys2Proof.Machine.execTrainComplete port s
  | .trainTimeout port => Sys2Proof.Machine.execTrainTimeout port s
  | .lockComplete port => Sys2Proof.Machine.execLockComplete port s
  | .lockTimeout port => Sys2Proof.Machine.execLockTimeout port s
  | .capxTimeout port => Sys2Proof.Machine.execCapxTimeout port s
  | .portActive port => Sys2Proof.Machine.execPortActive port s
  | .authTimeout port => Sys2Proof.Machine.execAuthTimeout port s
  | .authRetry port => Sys2Proof.Machine.execAuthRetry port s
  | .keyHelloReceived port payload => Sys2Proof.Machine.execKeyHelloReceived port payload s
  | .keyFinishReceived port payload => Sys2Proof.Machine.execKeyFinishReceived port payload s
  | .keyResumeReceived port payload => Sys2Proof.Machine.execKeyResumeReceived port payload s
  | .keyFailReceived port payload => Sys2Proof.Machine.execKeyFailReceived port payload s
  | .rekeyDue port => Sys2Proof.Machine.execRekeyDue port s
  | .syncSend port => Sys2Proof.Machine.execSyncSend port s
  | .syncReceived port payload => Sys2Proof.Machine.execSyncReceived port payload s
  | .echoFrameReceived port echo => Sys2Proof.Machine.execEchoFrameReceived port echo s
  | .echoFramePeriodicSend port => Sys2Proof.Machine.execEchoFramePeriodicSend port s
  | .neighbourDeadEchoTimeout port => Sys2Proof.Machine.execNeighbourDeadEchoTimeout port s
  | .neighbourDeadLinkLoss port => Sys2Proof.Machine.execNeighbourDeadLinkLoss port s
  | .holdWindowClose port => Sys2Proof.Machine.execHoldWindowClose port s
  | .mergeAnnounce => Sys2Proof.Machine.execMergeAnnounce s
  | .mergeCancel => Sys2Proof.Machine.execMergeCancel s
  | .formingEnd => Sys2Proof.Machine.execFormingEnd s
  | .frameReceived port rx tag => Sys2Proof.Machine.execFrameReceived port rx tag s
  | .entryFetchComplete ep ecc => Sys2Proof.Machine.execEntryFetchComplete ep ecc s
  | .missWaitTimeout ep => Sys2Proof.Machine.execMissWaitTimeout ep s
  | .mgmtReadRequest srcEp tc req => Sys2Proof.Machine.execMgmtReadRequest srcEp tc req s
  | .mgmtWriteRequest srcEp tc req => Sys2Proof.Machine.execMgmtWriteRequest srcEp tc req s
  | .schedulerDecision port slot => Sys2Proof.Machine.execSchedulerDecision port slot s
  | .epRead m => Sys2Proof.Machine.execEpRead m s
  | .epWrite m => Sys2Proof.Machine.execEpWrite m s
  | .epWriteKeep m => Sys2Proof.Machine.execEpWriteKeep m s
  | .epPin m => Sys2Proof.Machine.execEpPin m s
  | .epUnpin m => Sys2Proof.Machine.execEpUnpin m s
  | .epRevoke m => Sys2Proof.Machine.execEpRevoke m s
  | .epInvalidate m => Sys2Proof.Machine.execEpInvalidate m s
  | .tunMapAdd m => Sys2Proof.Machine.execTunMapAdd m s
  | .tunMapDelete m => Sys2Proof.Machine.execTunMapDelete m s
  | .tunMapLookup m => Sys2Proof.Machine.execTunMapLookup m s
  | .spillWriteComplete q => Sys2Proof.Machine.execSpillWriteComplete q s
  | .spillReturn q ecc => Sys2Proof.Machine.execSpillReturn q ecc s
  | .sumpReadyFall => Sys2Proof.Machine.execSumpReadyFall s
  | .sumpPatrolScrub ecc => Sys2Proof.Machine.execSumpPatrolScrub ecc s
  | .sumpTrain m data => Sys2Proof.Machine.execSumpTrain m data s
  | .sumpTrainingEnd ok => Sys2Proof.Machine.execSumpTrainingEnd ok s
  | .sumpUePop m data => Sys2Proof.Machine.execSumpUePop m data s
  | .cavernScrub found => Sys2Proof.Machine.execCavernScrub found s
  | .chamberFail chamber => Sys2Proof.Machine.execChamberFail chamber s
  | .cavernBistEnd bad => Sys2Proof.Machine.execCavernBistEnd bad s
  | .cavernDiagWrite m addr data => Sys2Proof.Machine.execCavernDiagWrite m addr data s
  | .planCompute plan => Sys2Proof.Machine.execPlanCompute plan s
  | .planCommitRetry => Sys2Proof.Machine.execPlanCommitRetry s
  | .tunnelAdd m tunnel => Sys2Proof.Machine.execTunnelAdd m tunnel s
  | .tunnelRemove m tunnel => Sys2Proof.Machine.execTunnelRemove m tunnel s
  | .twinEntryAgeOut src => Sys2Proof.Machine.execTwinEntryAgeOut src s
  | .drainWaitExceeded port => Sys2Proof.Machine.execDrainWaitExceeded port s
  | .hangWatchdog e => Sys2Proof.Machine.execHangWatchdog e s
  | .engineEccUe e => Sys2Proof.Machine.execEngineEccUe e s
  | .spareAssign r => Sys2Proof.Machine.execSpareAssign r s
  | .engineSelftestEnd e pass => Sys2Proof.Machine.execEngineSelftestEnd e pass s
  | .engTakeover m target => Sys2Proof.Machine.execEngTakeover m target s
  | .engRetest m target => Sys2Proof.Machine.execEngRetest m target s
  | .columnMismatch c => Sys2Proof.Machine.execColumnMismatch c s
  | .columnImageCopyEnd c => Sys2Proof.Machine.execColumnImageCopyEnd c s
  | .registerWrite m addr size data tag => Sys2Proof.Machine.execRegisterWrite m addr size data tag s
  | .memoryAccess a => Sys2Proof.Machine.execMemoryAccess a s
  | .cacheWriteback c addr data => Sys2Proof.Machine.execCacheWriteback c addr data s
  | .aliasWrite m addr size item => Sys2Proof.Machine.execAliasWrite m addr size item s
  | .counterLoRead m addr size => Sys2Proof.Machine.execCounterLoRead m addr size s
  | .glbUnlockWrite m data => Sys2Proof.Machine.execGlbUnlockWrite m data s
  | .unlockLapse m => Sys2Proof.Machine.execUnlockLapse m s
  | .snapshotRequest m data => Sys2Proof.Machine.execSnapshotRequest m data s
  | .bankRelease m => Sys2Proof.Machine.execBankRelease m s
  | .bankClearEnd => Sys2Proof.Machine.execBankClearEnd s
  | .mpuSyncWrite m data => Sys2Proof.Machine.execMpuSyncWrite m data s
  | .mpuBarrierDone m => Sys2Proof.Machine.execMpuBarrierDone m s
  | .ruleChangeEffect => Sys2Proof.Machine.execRuleChangeEffect s
  | .mpuFaultPop m data => Sys2Proof.Machine.execMpuFaultPop m data s
  | .tamper sources => Sys2Proof.Machine.execTamper sources s
  | .derive m replace detach => Sys2Proof.Machine.execDerive m replace detach s
  | .keyInvalidate m => Sys2Proof.Machine.execKeyInvalidate m s
  | .mac m => Sys2Proof.Machine.execMac m s
  | .sign m => Sys2Proof.Machine.execSign m s
  | .ecdhGen m replace => Sys2Proof.Machine.execEcdhGen m replace s
  | .ecdhAgree m replace => Sys2Proof.Machine.execEcdhAgree m replace s
  | .wrap m => Sys2Proof.Machine.execWrap m s
  | .unwrap m replace => Sys2Proof.Machine.execUnwrap m replace s
  | .keyInfo m => Sys2Proof.Machine.execKeyInfo m s
  | .saInstall m transmit => Sys2Proof.Machine.execSaInstall m transmit s
  | .saRetire m transmit => Sys2Proof.Machine.execSaRetire m transmit s
  | .rootNew m => Sys2Proof.Machine.execRootNew m s
  | .zeroise m => Sys2Proof.Machine.execZeroise m s
  | .keyCommandEnd => Sys2Proof.Machine.execKeyCommandEnd s
  | .debugUnlockResponse answer => Sys2Proof.Machine.execDebugUnlockResponse answer s
  | .debugChallengeRenew => Sys2Proof.Machine.execDebugChallengeRenew s
  | .secFuseProgram m pos => Sys2Proof.Machine.execSecFuseProgram m pos s
  | .secFuseRevoke m pos => Sys2Proof.Machine.execSecFuseRevoke m pos s
  | .porstNAssert ns => Sys2Proof.Machine.execPorstNAssert ns s
  | .porstNRelease straps vauxFromVbus => Sys2Proof.Machine.execPorstNRelease straps vauxFromVbus s
  | .sfdpRetry found => Sys2Proof.Machine.execSfdpRetry found s
  | .copyVerifyEnd readOk => Sys2Proof.Machine.execCopyVerifyEnd readOk s
  | .applyEnd => Sys2Proof.Machine.execApplyEnd s
  | .clockSwitch => Sys2Proof.Machine.execClockSwitch s
  | .bootRun m => Sys2Proof.Machine.execBootRun m s
  | .runWaitExpiry => Sys2Proof.Machine.execRunWaitExpiry s
  | .bootReset m => Sys2Proof.Machine.execBootReset m s
  | .bootRecover m => Sys2Proof.Machine.execBootRecover m s
  | .bootStaged m => Sys2Proof.Machine.execBootStaged m s
  | .bootSeed m => Sys2Proof.Machine.execBootSeed m s
  | .seedEnd => Sys2Proof.Machine.execSeedEnd s
  | .bootTest m => Sys2Proof.Machine.execBootTest m s
  | .bootStgDataWrite m data => Sys2Proof.Machine.execBootStgDataWrite m data s
  | .flEraseCopy m => Sys2Proof.Machine.execFlEraseCopy m s
  | .flProgram m => Sys2Proof.Machine.execFlProgram m s
  | .flRead m => Sys2Proof.Machine.execFlRead m s
  | .flVerify m => Sys2Proof.Machine.execFlVerify m s
  | .flashOpEnd ok => Sys2Proof.Machine.execFlashOpEnd ok s
  | .pwrReqWrite m data => Sys2Proof.Machine.execPwrReqWrite m data s
  | .pwrAskWrite m target beat => Sys2Proof.Machine.execPwrAskWrite m target beat s
  | .pwrAskIssue => Sys2Proof.Machine.execPwrAskIssue s
  | .pwrRetry => Sys2Proof.Machine.execPwrRetry s
  | .blockAgree block => Sys2Proof.Machine.execBlockAgree block s
  | .blockRefuse block reason => Sys2Proof.Machine.execBlockRefuse block reason s
  | .rollbackRestartEnd => Sys2Proof.Machine.execRollbackRestartEnd s
  | .dormantEntryComplete => Sys2Proof.Machine.execDormantEntryComplete s
  | .restTick => Sys2Proof.Machine.execRestTick s
  | .wakeEvent source => Sys2Proof.Machine.execWakeEvent source s
  | .wakeLayoverReady => Sys2Proof.Machine.execWakeLayoverReady s
  | .pgoodRise => Sys2Proof.Machine.execPgoodRise s
  | .restoreEnd => Sys2Proof.Machine.execRestoreEnd s
  | .avsAckTimeout => Sys2Proof.Machine.execAvsAckTimeout s
  | .wakeRetry => Sys2Proof.Machine.execWakeRetry s
  | .avsTargetWrite m data => Sys2Proof.Machine.execAvsTargetWrite m data s
  | .avsStep ack => Sys2Proof.Machine.execAvsStep ack s
  | .avsEvaluation => Sys2Proof.Machine.execAvsEvaluation s
  | .avsTargetRetry => Sys2Proof.Machine.execAvsTargetRetry s
  | .pllLockRetry locked => Sys2Proof.Machine.execPllLockRetry locked s
  | .usbUpAttach cc2 rp => Sys2Proof.Machine.execUsbUpAttach cc2 rp s
  | .usbUpDetach => Sys2Proof.Machine.execUsbUpDetach s
  | .usbDnAttach port cc2 => Sys2Proof.Machine.execUsbDnAttach port cc2 s
  | .usbDnDetach port => Sys2Proof.Machine.execUsbDnDetach port s
  | .usbOverCurrent n => Sys2Proof.Machine.execUsbOverCurrent n s
  | .setPortPower n => Sys2Proof.Machine.execSetPortPower n s
  | .clearPortPower n => Sys2Proof.Machine.execClearPortPower n s
  | .openSession wValue wIndex wLength => Sys2Proof.Machine.execOpenSession wValue wIndex wLength s
  | .closeSession wValue wIndex wLength => Sys2Proof.Machine.execCloseSession wValue wIndex wLength s
  | .getSession wValue wIndex wLength => Sys2Proof.Machine.execGetSession wValue wIndex wLength s
  | .bulkOutRequest req => Sys2Proof.Machine.execBulkOutRequest req s
  | .ping => Sys2Proof.Machine.execPing s
  | .lpmToken => Sys2Proof.Machine.execLpmToken s
  | .usbBusReset duringControl => Sys2Proof.Machine.execUsbBusReset duringControl s
  | .remoteWake => Sys2Proof.Machine.execRemoteWake s
  | .hostResume => Sys2Proof.Machine.execHostResume s
  | .sourceCapabilities port pdos pd3 => Sys2Proof.Machine.execSourceCapabilities port pdos pd3 s
  | .pdRequest port pos cur => Sys2Proof.Machine.execPdRequest port pos cur s
  | .vbusSettled port => Sys2Proof.Machine.execVbusSettled port s
  | .srcSettleTimeout port => Sys2Proof.Machine.execSrcSettleTimeout port s
  | .getSourceCap port => Sys2Proof.Machine.execGetSourceCap port s
  | .getSinkCap port => Sys2Proof.Machine.execGetSinkCap port s
  | .prSwap port => Sys2Proof.Machine.execPrSwap port s
  | .psRdyReceived => Sys2Proof.Machine.execPsRdyReceived s
  | .drSwap port => Sys2Proof.Machine.execDrSwap port s
  | .softReset port => Sys2Proof.Machine.execSoftReset port s
  | .hardReset port => Sys2Proof.Machine.execHardReset port s
  | .discoverIdentity port => Sys2Proof.Machine.execDiscoverIdentity port s
  | .unsupportedPdMessage port => Sys2Proof.Machine.execUnsupportedPdMessage port s
  | .dischargeEnd port => Sys2Proof.Machine.execDischargeEnd port s
  | .dischargeTimeout port => Sys2Proof.Machine.execDischargeTimeout port s
  | .pdSrcPdoChange port => Sys2Proof.Machine.execPdSrcPdoChange port s
  | .serviceConnectTimeout => Sys2Proof.Machine.execServiceConnectTimeout s
  | .carRead via count addr => Sys2Proof.Machine.execCarRead via count addr s
  | .carWrite via count addr data => Sys2Proof.Machine.execCarWrite via count addr data s
  | .carWriteStatus via => Sys2Proof.Machine.execCarWriteStatus via s
  | .monConversion readings => Sys2Proof.Machine.execMonConversion readings s
  | .cutoffCoreOff => Sys2Proof.Machine.execCutoffCoreOff s
  | .thermalRestart => Sys2Proof.Machine.execThermalRestart s
  | .logRecordWrite => Sys2Proof.Machine.execLogRecordWrite s
  | .logRdAddrWrite m data => Sys2Proof.Machine.execLogRdAddrWrite m data s
  | .logPutCmd m data => Sys2Proof.Machine.execLogPutCmd m data s
  | .pgoodFall ns => Sys2Proof.Machine.execPgoodFall ns s
  | .pgoodRecover => Sys2Proof.Machine.execPgoodRecover s
  | .refclkAbsent input => Sys2Proof.Machine.execRefclkAbsent input s
  | .refclkPresent input => Sys2Proof.Machine.execRefclkPresent input s
  | .vauxRise vbatHeld => Sys2Proof.Machine.execVauxRise vbatHeld s
  | .vauxFall vbat => Sys2Proof.Machine.execVauxFall vbat s
  | .fltRxExpiry lane => Sys2Proof.Machine.execFltRxExpiry lane s
  | .taskTableRetire owner => Sys2Proof.Machine.execTaskTableRetire owner s
  | .cutThroughJoin port frame => Sys2Proof.Machine.execCutThroughJoin port frame s
  | .mprTemperatureRead hot => Sys2Proof.Machine.execMprTemperatureRead hot s
  | .pllLockTimeout => Sys2Proof.Machine.execPllLockTimeout s
  | .wakePgoodTimeout => Sys2Proof.Machine.execWakePgoodTimeout s
  | .secFuseOpEnd ok => Sys2Proof.Machine.execSecFuseOpEnd ok s
  | .xtalOkChange ok => Sys2Proof.Machine.execXtalOkChange ok s
  | .usbSuspend => Sys2Proof.Machine.execUsbSuspend s
  | .standardRequest req => Sys2Proof.Machine.execStandardRequest req s
  | .bulkInTransfer => Sys2Proof.Machine.execBulkInTransfer s
  | .usbDeviceConnect n connected => Sys2Proof.Machine.execUsbDeviceConnect n connected s
  | .goodcrcTimeout port => Sys2Proof.Machine.execGoodcrcTimeout port s

end Sys2Proof.Machine
end

