-- ==== Sys2Proof/Machine/Tick.lean ====
section
/-! DEFINITION. Machine/Tick.lean: what one CCLK cycle does while no command waits. -/

namespace Sys2Proof.Machine

/-- A second of the RTC, which runs on VAUX or VBAT; it wakes the hub where it reaches the alarm (Table PWR-6). -/
def State.rtcSecond (s : State) : State :=
  if !s.pwr.vaux && !s.pwr.vbat then s
  else
    let t := s.reg Reg.PWR_RTC_SEC + 1
    let s1 := s.setReg Reg.PWR_RTC_SEC t
    if s.reg Reg.PWR_RTC_ALARM ≠ 0 ∧ t = s.reg Reg.PWR_RTC_ALARM then s1.wakeBy 6 else s1

/-- One CCLK cycle with no command waiting: BEAT_PHASE counts while beats run, up to its greatest value
(Table BEA-8), and every 800,000,000 cycles are a second of the RTC (log 2). -/
def idleTick (s : State) : State :=
  let s1 := if s.beatRuns then { s with beat := { s.beat with phase := min 100017 (s.beat.phase + 1) } } else s
  if s1.ticks + 1 < 800000000 then { s1 with ticks := s1.ticks + 1 }
  else ({ s1 with ticks := 0 } : State).rtcSecond

end Sys2Proof.Machine
end

