-- ==== Sys2Proof/Safety.lean ====
section
/-! DEFINITION. Safety.lean: what counts as a safe run, and the terms the statements use: what a state keeps of another, and when a
master's write reaches its register. -/

namespace Sys2Proof.Machine

open Sys2Proof

/-- The well-formedness of a state that every step keeps: addressed memory and the registers are in canonical form. -/
def State.Inv (s : State) : Prop := Memory.wf s.mem = true ∧ s.regsWf = true

/-- A run is safe while no step of it faults or is refused. -/
def SafeRun (n : Nat) (s : State) : Prop := ∃ t, Sys2Proof.core.run n s = .next t

/-- Every byte of addressed memory reads as before. -/
def SameMemory (s t : State) : Prop := ∀ a, t.byte a = s.byte a

/-- Every stored register word but those listed reads as before. -/
def SameRegsBut (ks : List Nat) (s t : State) : Prop := ∀ k, k ∉ ks → t.reg k = s.reg k

/-- An error counter has counted one event, up to its greatest value (R278). -/
def Counted (k : Nat) (s t : State) : Prop := (t.reg k).toNat = min (2 ^ 32 - 1) ((s.reg k).toNat + 1)

/-- Every lane but one stands as before. -/
def SameLanesBut (l : LaneIx) (s t : State) : Prop := ∀ j, j ≠ l → t.lanes[j] = s.lanes[j]

/-- Every port but one stands as before. -/
def SamePortsBut (p : LinkPort) (s t : State) : Prop := ∀ j, j ≠ p → t.ports[j] = s.ports[j]

/-- Every port keeps its stage, its lane sets and its mode. Frames of the hub's own may have been sent on it. -/
def SameStages (s t : State) : Prop := ∀ j : LinkPort, t.ports[j].stage = s.ports[j].stage ∧ t.ports[j].txLanes = s.ports[j].txLanes ∧
  t.ports[j].rxLanes = s.ports[j].rxLanes ∧ t.ports[j].modeAct = s.ports[j].modeAct

/-- A Voltage write to the rail of AVS_CFG2 has gone out (R398). -/
def State.VoltageSent (s : State) (mv : Nat) : Prop := .avsVoltage (BitVec.ofNat 4 (s.fld Reg.AVS_CFG2 12 9)) mv ∈ s.sent

/-- Every PD port but one stands as before. -/
def SamePdBut (p : PdPort) (s t : State) : Prop := ∀ j, j ≠ p → t.pd[j] = s.pd[j]

/-- The state in which a register write of a master acts: its capture ended and its arming spent (R281, R287). -/
def State.writing (s : State) (m : Master) : State := (s.endCapture m).spend m

/-- An access of a master reaches its target: the core runs, the master exists, runs and may access now (R260, R309, R319), what it writes is
no zombie's and it is no engine without a role (R237, R301), and access protection permits the access (R309). -/
def State.Admits (s : State) (m : Master) (kind : AccessKind) (addr size : Nat) : Prop :=
  s.coreOn = true ∧ s.made m size = true ∧ s.zombieWrite m kind none = none ∧ s.roleless m = false ∧
    (s.checkAccess m kind addr size).ok = true

/-- An access does not go through a Column's cache (R313). -/
def State.Uncached (s : State) (m : Master) (kind : AccessKind) (addr size : Nat) : Prop :=
  (s.checkAccess m kind addr size).cache = false ∨ Master.column m = none

/-- A 32-bit write of a master to a register of the direct window takes effect: it reaches its target, and none of the
register's own rules refuses it (R468). -/
def State.Takes (s : State) (m : Master) (a : Nat) : Prop :=
  s.Admits m .write a 4 ∧ ∃ r, regRow a = some r ∧ (s.writing m).writeCause m r a 0xFFFFFFFF (s.armed m) = none

end Sys2Proof.Machine
end

