-- ==== Sys2Proof/Certificates/Slice0/Obligations.lean ====
section
/-! DEFINITION. Certificates/Slice0/Obligations.lean: the statements for the provers. -/

open Sys2Proof Sys2Proof.Machine

/-- One step of a state whose queue is c followed by rest answers what exec answers for c on the state with the queue rest. -/
def Obligations.StepRunsFront : Prop :=
  ∀ (c : Instr) (s : State) (rest : List Instr), s.pending = c :: rest → step s = exec c { s with pending := rest }

/-- With no command waiting a step answers a next state. Before the 800,000,000th tick of a second it adds one tick, leaves
every register, every addressed byte and the queue as they are, and BEAT_PHASE counts up to 100,017 where beats run. At
that tick, with VAUX or VBAT present and no alarm reached, the ticks start again and PWR_RTC_SEC counts one, every other
register as it was. What a step on an empty queue does is the choice of log 2. -/
def Obligations.IdleStepTicks : Prop :=
  ∀ s : State, s.pending = [] →
    (s.ticks + 1 < 800000000 → ∃ t, step s = .next t ∧ t.ticks = s.ticks + 1 ∧ t.pending = [] ∧ SameRegsBut [] s t ∧ SameMemory s t ∧
      (s.beatRuns = true → t.beat.phase = min 100017 (s.beat.phase + 1)) ∧ (s.beatRuns = false → t.beat = s.beat)) ∧
    (800000000 ≤ s.ticks + 1 → (s.pwr.vaux || s.pwr.vbat) = true →
      (s.reg Reg.PWR_RTC_ALARM = 0 ∨ s.reg Reg.PWR_RTC_SEC + 1 ≠ s.reg Reg.PWR_RTC_ALARM) →
      ∃ t, step s = .next t ∧ t.ticks = 0 ∧ t.reg Reg.PWR_RTC_SEC = s.reg Reg.PWR_RTC_SEC + 1 ∧
        SameRegsBut [Reg.PWR_RTC_SEC] s t ∧ SameMemory s t)

/-- State.reset holds the invariant of the model: its addressed memory and its registers are in canonical form, nothing
listed, and its queue is empty. -/
def Obligations.ResetCanonical : Prop :=
  State.reset.Inv ∧ State.reset.regs = [] ∧ State.reset.mem = [] ∧ State.reset.pending = []

/-- From every state whose addressed memory and registers are in canonical form (keys strictly rising, no entry at its
default), a step that answers a next state answers one in which both are again. -/
def Obligations.CanonicalKept : Prop :=
  ∀ s t : State, s.Inv → step s = .next t → t.Inv

/-- Whatever the command and the state, a next state of exec holds the queue it was given. -/
def Obligations.QueueUntouched : Prop :=
  ∀ (c : Instr) (s t : State), exec c s = .next t → t.pending = s.pending

/-- No command ends in a fault or a refusal: a bad access, a command that its conditions do not allow and a command that the
powered-off core does not see are next states (R270, R311, R459). -/
def Obligations.EveryCommandAnswers : Prop :=
  ∀ (c : Instr) (s : State), ∃ t, exec c s = .next t

/-- While beat heads run, BEAT_HEAD answers a next state in which BEAT_NUM is one higher (48 bits, wrapping) and one more
head has been counted. Completion: under the conditions given on state and operands alone, exec answers a next state for
BEAT_HEAD. -/
def Obligations.BeatHeadCounts : Prop :=
  ∀ s : State, s.beatRuns = true → ∃ t, exec .beatHead s = .next t ∧ t.beatNum = s.beatNum + 1 ∧ t.heads = s.heads + 1

/-- On the PLL, a block on a trunk port in service whose partner is of the own consist, that names the beat about to begin,
carries the path epoch and arrives within 2 us is kept for its port with its HOPS and HOLD and counts nothing; one on a
local port is counted in BEAT_BLK_BAD and leaves the timing as it is; one with another PEP, or from the other side of a
joint, is counted too, leaves every kept block and the timing as they are, and is measured for its port. HOLDOVER_ENTRY
after two beats without a valid block takes a tracking hub to HOLDOVER and counts it. Memory stays. Completion: under
the conditions given on state and operands alone, exec answers a next state for BEAT_BLOCK_RECEIVED, HOLDOVER_ENTRY. -/
def Obligations.BeatBlockRules : Prop :=
  ∀ s : State, s.coreOn = true →
    (s.pllOn = true → ∀ (p : TrunkPort) (num : Word) (hops : BitVec 6) (hold : Bool) (ofs : BitVec 10) (late : Int),
      s.portUp (trunk p) = true → s.otherSide p = false → num = s.numExpected late → -12800 ≤ late → late ≤ 12800 →
      ∃ t, exec (.beatBlockReceived (trunk p) num hops hold ofs s.pep late) s = .next t ∧
        t.beat.rx[p] = some { hops := hops, hold := hold, head := s.heads + if late < 0 then 1 else 0 } ∧
        SameRegsBut [] s t ∧ SameMemory s t) ∧
    (s.pllOn = true → ∀ (n : LocalPort) (num : Word) (hops : BitVec 6) (hold : Bool) (ofs : BitVec 10) (pep : BitVec 4) (late : Int),
      ∃ t, exec (.beatBlockReceived (loc n) num hops hold ofs pep late) s = .next t ∧ Counted Reg.BEAT_BLK_BAD s t ∧
        t.beat = s.beat ∧ SameRegsBut [Reg.BEAT_BLK_BAD] s t ∧ SameMemory s t) ∧
    (s.pllOn = true → ∀ (p : TrunkPort) (num : Word) (hops : BitVec 6) (hold : Bool) (ofs : BitVec 10) (pep : BitVec 4) (late : Int),
      pep ≠ s.pep ∨ s.otherSide p = true → ∃ t, exec (.beatBlockReceived (trunk p) num hops hold ofs pep late) s = .next t ∧
        Counted Reg.BEAT_BLK_BAD s t ∧ t.beat.rx = s.beat.rx ∧ t.beat.timing = s.beat.timing ∧
        (∃ place, t.beat.joint[p] = some (num, place, s.heads)) ∧
        SameRegsBut [Reg.BEAT_BLK_BAD] s t ∧ SameMemory s t) ∧
    (s.beat.timing = .track → s.beat.lastValid + 2 ≤ s.heads →
      ∃ t, exec .holdoverEntry s = .next t ∧ t.beat.timing = .holdover ∧ t.beat.holdSince = s.heads ∧
        Counted Reg.BEAT_HOLD_COUNT s t ∧ SameRegsBut [Reg.BEAT_HOLD_COUNT] s t ∧ SameMemory s t)

/-- A hub on its PLL that its election names, with no move under way and no pause of Column 1, enters MASTER with HOPS 0.
Within such a pause it does not, and a new path epoch leaves the routes for the end of the pause. At the head of
MOVE_BEAT the hub named next enters MASTER where it is on its PLL and waits for no step (else its state stays), and the
old master of another hub's move enters TRACK. At the head of EPOCH_BEAT a new path epoch comes into force, with the old
one in PEP_PREV and the beat recorded in TOPO_EPOCH_BEAT, and two heads later the window of the old epoch ends. A merge
step with its record complete adds this hub's offset, the greater of S and JN less its own number of the step, to
BEAT_NUM, to every pending commit's target and to the anchor of the task tables; where the hub joins or has an offset,
BEAT_STEP shows the step in the merged numbering, BEAT_STEP_OFS the offset, and the step is counted. Completion: under
the conditions given on state and operands alone, exec answers a next state for ENTER_MASTER, MASTER_MOVE, EPOCH_RAISE,
PEP_PREV_WINDOW_END, MERGE_STEP. -/
def Obligations.MasterRoleMoves : Prop :=
  ∀ s : State, s.coreOn = true →
    (s.pllOn = true → s.echoPaused = false → (s.beat.timing = .free ∨ s.beat.timing = .track ∨ s.beat.timing = .holdover) → s.actingMaster = Config.hubId →
      (s.annOr.moveBeat = 0 ∨ s.annOr.moveBeat.toNat ≤ s.beatNum.toNat) →
      ∃ t, exec .enterMaster s = .next t ∧ t.beat.timing = .master ∧ t.beat.hops = 0) ∧
    (s.annOr.moveBeat ≠ 0 → s.beatNum = s.annOr.moveBeat → s.annOr.nextMaster ≠ 0 →
      ∃ t, exec .masterMove s = .next t ∧ (s.annOr.nextMaster = Config.hubId →
          (s.pllOn = true → s.beat.timing ≠ .stepPending → t.beat.timing = .master ∧ t.beat.hops = 0) ∧
          (s.pllOn = false ∨ s.beat.timing = .stepPending → t.beat.timing = s.beat.timing)) ∧
        (s.annOr.nextMaster ≠ Config.hubId → s.beat.timing = .master → t.beat.timing = .track)) ∧
    (s.annOr.epochBeat ≠ 0 → s.beatNum = s.annOr.epochBeat → s.annOr.pepNext ≠ s.pep →
      ∃ t, exec .epochRaise s = .next t ∧ t.pep = s.annOr.pepNext ∧ t.fld Reg.TOPO_STATUS 14 11 = s.pep.toNat ∧
        t.reg48 Reg.TOPO_EPOCH_BEAT_LO = s.annOr.epochBeat.toNat ∧
        t.echo.raiseHead = some s.heads ∧ (s.echoPaused = true → t.tun.routes = s.tun.routes ∧ t.tun.routesDue = true) ∧ SameMemory s t) ∧
    (s.echoPaused = true → exec .enterMaster s = .next s) ∧
    (∀ h, s.echo.raiseHead = some h → h + 2 ≤ s.heads →
      ∃ t, exec .pepPrevWindowEnd s = .next t ∧ t.echo = { s.echo with raiseHead := none } ∧ SameRegsBut [] s t ∧ SameMemory s t) ∧
    (∀ m, s.echo.merge = some m → s.echo.more = [] → m.complete = true →
      s.beatNum.toNat + 1 = (if m.joining then m.record.jn.toNat else m.record.s.toNat) →
      ∃ t, exec .mergeStep s = .next t ∧
        (let ofs := max m.record.s.toNat m.record.jn.toNat - (if m.joining then m.record.jn.toNat else m.record.s.toNat)
         t.beatNum = s.beatNum + BitVec.ofNat 48 ofs ∧ t.eng.anchor = s.eng.anchor + BitVec.ofNat 48 ofs ∧
         (m.joining = true ∨ ofs ≠ 0 → t.reg48 Reg.BEAT_STEP_LO = max m.record.s.toNat m.record.jn.toNat ∧
           t.reg48 Reg.BEAT_STEP_OFS_LO = ofs ∧ Counted Reg.BEAT_STEP_COUNT s t) ∧
         t.beat.commits = s.beat.commits.map fun c => { c with target := c.target + BitVec.ofNat 48 ofs }))

/-- A commit that its master's write carries through is added to the pending commits exactly where every check of R40
passes; its outcome code and group stand in the master's BEAT_CMT_RESULT; any other code changes no commit and is
counted in BEAT_CMT_REFUSED. A cancel with outcome OK removes the group's commit, and answers in the same way.
Completion: under the conditions given on state and operands alone, exec answers a next state for BEAT_COMMIT,
BEAT_CANCEL. -/
def Obligations.CommitCommands : Prop :=
  ∀ (s : State) (m : Master) (g : BitVec 8), s.Inv → s.Takes m Reg.BEAT_CMT_CMD →
    (∃ t, exec (.beatCommit m g) s = .next t ∧
      (let code := s.commitCode g.toNat (s.commitTarget m)
       t.reg (pmKey m Reg.BEAT_CMT_RESULT) = BitVec.ofNat 32 (code + 16 * g.toNat) ∧
       t.beat.commits = (if code = 1 then
         s.beat.commits ++ [{ group := g, target := BitVec.ofNat 48 (s.commitTarget m), master := m }] else s.beat.commits) ∧
       (code ≠ 1 → Counted Reg.BEAT_CMT_REFUSED s t) ∧
       SameRegsBut [pmKey m Reg.BEAT_CMT_RESULT, Reg.BEAT_CMT_REFUSED] s t ∧ SameMemory s t)) ∧
    (∃ t, exec (.beatCancel m g) s = .next t ∧
      (let code := s.cancelCode g.toNat
       t.reg (pmKey m Reg.BEAT_CMT_RESULT) = BitVec.ofNat 32 (code + 16 * g.toNat) ∧
       t.beat.commits = (if code = 1 then s.beat.commits.filter fun c => c.group.toNat != g.toNat else s.beat.commits) ∧
       (code ≠ 1 → Counted Reg.BEAT_CMT_REFUSED s t) ∧
       SameRegsBut [pmKey m Reg.BEAT_CMT_RESULT, Reg.BEAT_CMT_REFUSED] s t ∧ SameMemory s t))

/-- A commit that any check of R40 refuses leaves the pending commits, the schedulers, the lanes and ports, every addressed
byte and every register as they are, the active settings and the shadows among them, but for its master's
BEAT_CMT_RESULT and BEAT_CMT_REFUSED, which counts it. Completion: under the conditions given on state and operands
alone, exec answers a next state for BEAT_COMMIT. -/
def Obligations.RefusedCommitChangesNothing : Prop :=
  ∀ (s : State) (m : Master) (g : BitVec 8), s.Inv → s.Takes m Reg.BEAT_CMT_CMD → s.commitCode g.toNat (s.commitTarget m) ≠ 1 →
    ∃ t, exec (.beatCommit m g) s = .next t ∧ Counted Reg.BEAT_CMT_REFUSED s t ∧
      SameRegsBut [pmKey m Reg.BEAT_CMT_RESULT, Reg.BEAT_CMT_REFUSED] s t ∧ SameMemory s t ∧ t.beat = s.beat ∧ t.sched = s.sched ∧
      t.lanes = s.lanes ∧ t.ports = s.ports

/-- On a lane whose domain is on, with LOS and LOL clear and no near-end loop: in HUNT a data block is one more good header
and the 64th locks the lane, a header of 0b00 or 0b11 starts the count again; in LOCKED such a header is an error,
counted in LANE_HDR_ERR, which leaves the lane LOCKED while fewer than 15 came before it in the window and takes it to
HUNT as the sixteenth, counted too. Addressed memory stays. Completion: under the conditions given on state and operands
alone, exec answers a next state for BLOCK_RECEIVED. -/
def Obligations.BlockLockRules : Prop :=
  ∀ (s : State) (lane : LaneIx) (payload : BitVec 64) (reads : Nat), s.coreOn = true → s.laneOn lane = true →
    s.lanes[lane].los = false → s.lanes[lane].lol = false → s.lanes[lane].loop.getLsbD 0 = false → s.lanes[lane].loop.getLsbD 1 = false →
    (s.lanes[lane].lock = .hunt → ∃ t, exec (.blockReceived lane 1 payload reads) s = .next t ∧ SameMemory s t ∧
      (63 ≤ s.lanes[lane].count → t.lanes[lane].lock = .locked ∧ t.lanes[lane].errors = 0) ∧
      (s.lanes[lane].count < 63 → t.lanes[lane].lock = .hunt ∧ t.lanes[lane].count = s.lanes[lane].count + 1)) ∧
    (∀ hdr : BitVec 2, hdr = 0 ∨ hdr = 3 →
      (s.lanes[lane].lock = .hunt → ∃ t, exec (.blockReceived lane hdr payload reads) s = .next t ∧
        t.lanes[lane].lock = .hunt ∧ t.lanes[lane].count = 0 ∧ SameLanesBut lane s t ∧ SameMemory s t) ∧
      (s.lanes[lane].lock = .locked → s.lanes[lane].errors < 15 → ∃ t, exec (.blockReceived lane hdr payload reads) s = .next t ∧
        t.lanes[lane].lock = .locked ∧ SameMemory s t ∧ Counted (Reg.LANE_HDR_ERR lane.val) s t ∧
        (s.lanes[lane].window < 63 → t.lanes[lane].errors = s.lanes[lane].errors + 1)) ∧
      (s.lanes[lane].lock = .locked → 15 ≤ s.lanes[lane].errors → ∃ t, exec (.blockReceived lane hdr payload reads) s = .next t ∧
        t.lanes[lane].lock = .hunt ∧ t.lanes[lane].errors = 0 ∧ Counted (Reg.LANE_HDR_ERR lane.val) s t ∧ SameMemory s t))

/-- A rise of LOS or LOL on a lane whose domain is on sets its level and is counted; a locked lane goes to HUNT. A fall
clears the level, and a lane without lock that then has both clear is in HUNT. A level that stands already is not
counted again. Completion: under the conditions given on state and operands alone, exec answers a next state for
LOS_ASSERT, LOL_ASSERT, LOS_CLEAR, LOL_CLEAR. -/
def Obligations.SignalLevels : Prop :=
  ∀ (s : State) (lane : LaneIx), s.coreOn = true → s.laneOn lane = true →
    (s.lanes[lane].los = false → s.lanes[lane].lock ≠ .locked → ∃ t, exec (.losAssert lane) s = .next t ∧ t.lanes[lane].los = true ∧
      Counted (Reg.LANE_LOS_COUNT lane.val) s t ∧ SameRegsBut [Reg.LANE_LOS_COUNT lane.val] s t ∧ SameLanesBut lane s t ∧
      SameMemory s t) ∧
    (s.lanes[lane].los = false → s.lanes[lane].lock = .locked → ∃ t, exec (.losAssert lane) s = .next t ∧ t.lanes[lane].los = true ∧
      t.lanes[lane].lock = .hunt ∧ Counted (Reg.LANE_LOS_COUNT lane.val) s t ∧ SameMemory s t) ∧
    (s.lanes[lane].lol = false → s.lanes[lane].lock ≠ .locked → ∃ t, exec (.lolAssert lane) s = .next t ∧ t.lanes[lane].lol = true ∧
      Counted (Reg.LANE_LOL_COUNT lane.val) s t ∧ SameRegsBut [Reg.LANE_LOL_COUNT lane.val] s t ∧ SameLanesBut lane s t ∧
      SameMemory s t) ∧
    (s.lanes[lane].lol = false → s.lanes[lane].lock = .locked → ∃ t, exec (.lolAssert lane) s = .next t ∧ t.lanes[lane].lol = true ∧
      t.lanes[lane].lock = .hunt ∧ Counted (Reg.LANE_LOL_COUNT lane.val) s t ∧ SameMemory s t) ∧
    (s.lanes[lane].los = true → exec (.losAssert lane) s = .next s) ∧ (s.lanes[lane].lol = true → exec (.lolAssert lane) s = .next s) ∧
    (∃ t, exec (.losClear lane) s = .next t ∧ t.lanes[lane].los = false ∧ SameRegsBut [] s t ∧ SameLanesBut lane s t ∧
      (s.lanes[lane].lol = false → s.lanes[lane].lock = .off → t.lanes[lane].lock = .hunt)) ∧
    (∃ t, exec (.lolClear lane) s = .next t ∧ t.lanes[lane].lol = false ∧ SameRegsBut [] s t ∧ SameLanesBut lane s t ∧
      (s.lanes[lane].los = false → s.lanes[lane].lock = .off → t.lanes[lane].lock = .hunt))

/-- A TRAIN block with RX_READY on a lane that trains (detected, not yet trained, its rate that of its port, and the port
past DETECT), its receiver settled with lock and a good signal and its request seen before, leaves the lane trained,
every register as it was. With TRAIN_EN in use a new request that moves both cursors up moves each by one up to 15 and
31, is remembered by its sequence number and is answered on the lane as done where both could move, the other lanes as
they were. An eye measurement of a locked lane stands in LANE_EYE with its width at most 64, and every other register
stays. At a second tick of RUN with no record pending and trend collection on, a lane whose domain is on and whose
records are not to be cleared adds one second and one to the sequence number of its live record, unless the period
closes at that second; no register but the eyes' VALID changes; behind pending records the update waits (R435). A write
of LANE_TREND_CLR that takes effect marks exactly the lanes it names (and those marked before) for the next second.
Completion: under the conditions given on state and operands alone, exec answers a next state for TRAIN_BLOCK_RECEIVED,
EYE_MEASUREMENT, TREND_UPDATE, LANE_TREND_CLR_WRITE. -/
def Obligations.LaneMeasurements : Prop :=
  (
    ∀ (s : State) (lane : LaneIx), s.coreOn = true → s.laneOn lane = true →
      (∀ (pre post : BitVec 2) (preset : BitVec 3) (tseq ackSeq : BitVec 8), s.inTrain lane = true →
        (s.lanes[lane].faulty = false → s.lanes[lane].tseq = some tseq →
          ∃ t, exec (.trainBlockReceived lane pre post preset 0 true tseq ackSeq true) s = .next t ∧ t.lanes[lane].trained = true ∧
            SameRegsBut [] s t ∧ SameMemory s t) ∧
        (s.lanes[lane].trainEn = true → s.lanes[lane].tseq ≠ some tseq →
          ∃ t, exec (.trainBlockReceived lane 1 1 preset 0 false tseq ackSeq true) s = .next t ∧ t.lanes[lane].tseq = some tseq ∧
            t.fld (Reg.LANE_EQ lane.val) 8 5 = min 15 (s.fld (Reg.LANE_EQ lane.val) 8 5 + 1) ∧
            t.fld (Reg.LANE_EQ lane.val) 13 9 = min 31 (s.fld (Reg.LANE_EQ lane.val) 13 9 + 1) ∧
            (s.fld (Reg.LANE_EQ lane.val) 8 5 < 15 → s.fld (Reg.LANE_EQ lane.val) 13 9 < 31 →
              ∃ a b c r n, .train lane a b c 1 r n tseq ∈ t.sent) ∧
            SameLanesBut lane s t ∧ SameRegsBut [Reg.LANE_EQ lane.val] s t ∧ SameMemory s t)) ∧
      (∀ (height : BitVec 10) (width : BitVec 7), s.lanes[lane].lock = .locked →
        ∃ t, exec (.eyeMeasurement lane height width) s = .next t ∧ t.fld (Reg.LANE_EYE lane.val) 9 0 = height.toNat ∧
          t.fld (Reg.LANE_EYE lane.val) 16 10 = min 64 width.toNat ∧ t.bit (Reg.LANE_EYE lane.val) 17 = true ∧
          SameRegsBut [Reg.LANE_EYE lane.val] s t ∧ SameMemory s t)) ∧
  (
    ∀ s : State, s.coreOn = true →
      (s.mode = .run → s.log.pending ≠ [] → exec .trendUpdate s = .next { s with log := { s.log with trendDue := true } }) ∧
      (s.mode = .run → s.log.pending = [] → ∃ t, exec .trendUpdate s = .next t ∧ SameRegsBut ((List.range 32).map Reg.LANE_EYE) s t ∧ SameMemory s t ∧
        ∀ l : LaneIx, s.bit Reg.LANE_TREND_CTL 0 = true → s.laneOn l = true → s.lanes[l].trendClear = false →
          (s.trendRec l.val 0).runsec.toNat < 65535 →
          (t.trendRec l.val 0).runsec = (s.trendRec l.val 0).runsec + 1 ∧ (t.trendRec l.val 0).seq = (s.trendRec l.val 0).seq + 1) ∧
      (∀ (m : Master) (data : Word), s.Takes m Reg.LANE_TREND_CLR → ∃ t, exec (.laneTrendClrWrite m data) s = .next t ∧
        (∀ l : LaneIx, t.lanes[l].trendClear = (s.lanes[l].trendClear || data.getLsbD l.val)) ∧
        (∀ l : LaneIx, t.lanes[l].lock = s.lanes[l].lock) ∧ SameMemory s t))

/-- While a Torvisk Link port is in LOCK or CAPX, an AMK set of one mark no more than 64 blocks behind deskews its lane and
counts nothing. AMK_SEND on a port in LOCK, CAPX, ACTIVE or DEGRADED with a transmit set sends a scheduled marker on
that set with AMK_SEQ raised by one, every other port and register as before. On a Torvisk Link port in service an ECHO
request goes out, 2 heads or more after the last, with the next sequence number, which is remembered with its head, and
a request received is answered on its lane with its number and turnaround. A reply to the outstanding request within 2
heads ends it, and on a trunk port adds half the round trip less the turnaround to the last eight measurements. 16 heads
after the last one DELAY_UPDATE shows their average, rounded down (a choice of the model, log 85), in BEAT_DLY. Nothing
else of registers and memory changes. Completion: under the conditions given on state and operands alone, exec answers a
next state for AMK_RECEIVED, AMK_SEND, ECHO_REQUEST_SEND, ECHO_REQUEST_RECEIVED, ECHO_REPLY_RECEIVED, DELAY_UPDATE. -/
def Obligations.MarkersAndDelay : Prop :=
  (
    ∀ (s : State) (port : LinkPort), s.coreOn = true → s.isTvl port = true →
      (∀ (mk : AmkMark) (since : Nat), (s.ports[port].stage = .lock ∨ s.ports[port].stage = .capx) → mk.width ≠ 3 → mk.lag ≤ 64 →
        ∃ t, exec (.amkReceived port [mk] since) s = .next t ∧ t.lanes[laneAt port mk.lane.val].skew = some mk.lag ∧
          SameLanesBut (laneAt port mk.lane.val) s t ∧ SameRegsBut [] s t ∧ t.ports = s.ports ∧ SameMemory s t) ∧
      ((s.ports[port].stage = .lock ∨ s.ports[port].stage = .capx ∨ s.ports[port].stage = .active ∨ s.ports[port].stage = .degraded) →
        s.ports[port].txLanes ≠ 0 → ∃ t, exec (.amkSend port) s = .next t ∧ t.ports[port].amkTx = s.ports[port].amkTx + 1 ∧
          t.sent = .amk port s.ports[port].txLanes s.ports[port].txWidth (s.ports[port].amkTx + 1) true :: s.sent ∧
          SamePortsBut port s t ∧ t.lanes = s.lanes ∧ SameRegsBut [] s t ∧ SameMemory s t)) ∧
  (
    ∀ s : State, s.coreOn = true →
      (∀ port : LinkPort, s.portUp port = true → s.isTvl port = true →
        (s.cadence s.ports[port].reqHead 2 = true → ∃ t, exec (.echoRequestSend port) s = .next t ∧ t.ports[port].eseq = s.ports[port].eseq + 1 ∧
          t.ports[port].echoReq = some (s.ports[port].eseq + 1, s.heads) ∧ t.sent = .echoRequest port (s.ports[port].eseq + 1) :: s.sent ∧
          SamePortsBut port s t ∧ SameRegsBut [] s t ∧ SameMemory s t) ∧
        (∀ (lane : Fin 4) (eseq : BitVec 7) (turn : BitVec 24),
          exec (.echoRequestReceived port lane eseq turn) s = .next (s.emit (.echoReply port lane eseq turn)))) ∧
      (∀ (p : TrunkPort) (eseq : BitVec 7) (turn : BitVec 24) (rt h : Nat), s.ports[trunk p].echoReq = some (eseq, h) → s.heads ≤ h + 2 →
        ∃ t, exec (.echoReplyReceived (trunk p) eseq turn rt) s = .next t ∧ t.ports[trunk p].echoReq = none ∧
          (s.beat.delays[p].length < 8 → t.beat.delays[p] = s.beat.delays[p] ++ [(rt - turn.toNat) / 2]) ∧
          (s.beat.delays[p].length = 8 → t.beat.delays[p] = s.beat.delays[p].drop 1 ++ [(rt - turn.toNat) / 2]) ∧
          SamePortsBut (trunk p) s t ∧ SameRegsBut [] s t ∧ SameMemory s t) ∧
      (∀ p : TrunkPort, s.beat.delays[p] ≠ [] → s.beat.delayHead[p] + 16 ≤ s.heads →
        ∃ t, exec (.delayUpdate p) s = .next t ∧
          (t.reg (Reg.BEAT_DLY p.val)).toNat = min 0xFFFFF (s.beat.delays[p].sum / s.beat.delays[p].length) ∧
          t.beat.delays = s.beat.delays ∧ t.beat.delayHead[p] = s.heads ∧ SameRegsBut [Reg.BEAT_DLY p.val] s t ∧ SameMemory s t))

/-- On a Torvisk Link port in service: a CRED block of an existing set no more than 4,095 ahead of U becomes its count, U
and every register but DEP_DRAIN staying, one farther ahead is counted in DEP_CRED_ERR and changes no count; a CRED
block goes out with COUNT = G. When the period of CRED_RESYNC has run out and no cut-through frame is leaving, the
periodic resynchronisation sends an unscheduled marker, ignores CRED from then on and is counted; the end of that window
takes CRED again; the second CRED of a resynchronised partner goes out for every class and set, no register, lane or
port changing. Completion: under the conditions given on state and operands alone, exec answers a next state for
CRED_RECEIVED, CRED_BLOCK_SEND, CREDIT_RESYNC_PERIODIC, CREDIT_RESYNC_IGNORE_END, CREDIT_RESYNC_SECOND_CRED. -/
def Obligations.CreditBlocks : Prop :=
  ∀ (s : State) (port : LinkPort) (tc : Cls) (esc : Bool), s.coreOn = true → s.portUp port = true → s.isTvl port = true →
    ((esc = false ∨ port.val < 4) →
      (∀ count : BitVec 20, s.ports[port].ignoring = false →
        ((count - (s.credit port tc esc).u).toNat ≤ 4095 → ∃ t, exec (.credReceived port tc esc count) s = .next t ∧
          (t.credit port tc esc).count = count ∧ (t.credit port tc esc).limit = none ∧ (t.credit port tc esc).u = (s.credit port tc esc).u ∧
          SamePortsBut port s t ∧ SameRegsBut [Reg.DEP_DRAIN] s t ∧ SameMemory s t) ∧
        (4095 < (count - (s.credit port tc esc).u).toNat → ∃ t, exec (.credReceived port tc esc count) s = .next t ∧
          Counted Reg.DEP_CRED_ERR s t ∧ t.ports = s.ports ∧ SameRegsBut [Reg.DEP_CRED_ERR] s t ∧ SameMemory s t)) ∧
      exec (.credBlockSend port tc esc) s = .next (s.emit (.cred port tc esc (s.credit port tc esc).g))) ∧
    (s.ports[port].txLanes ≠ 0 → s.fld Reg.DEP_CFG 23 16 ≠ 0 → (∀ c ∈ s.cav.cutTx, c.egress ≠ toEgress port) → s.ports[port].resyncHead + s.fld Reg.DEP_CFG 23 16 * 256 ≤ s.heads →
      ∃ t, exec (.creditResyncPeriodic port) s = .next t ∧ t.ports[port].ignoring = true ∧ t.ports[port].resyncHead = s.heads ∧
        t.ports[port].amkTx = s.ports[port].amkTx + 1 ∧
        t.sent = .amk port s.ports[port].txLanes s.ports[port].txWidth (s.ports[port].amkTx + 1) false :: s.sent ∧
        Counted Reg.DEP_CRED_RESYNC s t ∧ SameRegsBut [Reg.DEP_CRED_RESYNC] s t ∧
        SamePortsBut port s t ∧ SameMemory s t) ∧
    (∃ t, exec (.creditResyncIgnoreEnd port) s = .next t ∧ t.ports[port] = { s.ports[port] with ignoring := false } ∧
      SamePortsBut port s t ∧ t.lanes = s.lanes ∧ SameRegsBut [] s t ∧ SameMemory s t) ∧
    (∃ t, exec (.creditResyncSecondCred port) s = .next t ∧ (∀ k ∈ creditSets port, .cred port k.1 k.2 (s.credit port k.1 k.2).g ∈ t.sent) ∧
      t.ports = s.ports ∧ t.lanes = s.lanes ∧ SameRegsBut [] s t ∧ SameMemory s t)

/-- A FLT block on a Torvisk Link port out of DOWN marks the lanes it names as faulty for transmission at this head; a lane
that no FLT block has named for more than 2 heads is unmarked. FLT_SEND, once per head, sends a block naming a lane
whose LOS stands on a port with a lane that transmits, and changes no register and no lane. On a DEGRADED port that is
up a lane that is ready to join joins with the others that are, at a scheduled marker that carries the new set, where
none of them is a trunk lane that has now returned too often; a trunk lane that has returned too often is parked instead
and stays out of the transmit set. Completion: under the conditions given on state and operands alone, exec answers a
next state for FLT_RECEIVED, FLT_RX_EXPIRY, FLT_SEND, TX_LANE_JOIN. -/
def Obligations.FaultBlocks : Prop :=
  ∀ s : State, s.coreOn = true →
    (∀ (port : LinkPort) (code lanes : BitVec 4) (i : Nat), s.isTvl port = true → s.ports[port].stage ≠ .down → i < s.laneCount port →
      lanes.getLsbD i = true → ∃ t, exec (.fltReceived port code lanes) s = .next t ∧ t.lanes[laneAt port i].fltAt = some s.heads ∧
        t.lanes[laneAt port i].healthyAt = none ∧ SameMemory s t) ∧
    (∀ (lane : LaneIx) (h : Nat), s.lanes[lane].fltAt = some h → h + 2 < s.heads →
      ∃ t, exec (.fltRxExpiry lane) s = .next t ∧ t.lanes[lane].fltAt = none ∧ SameRegsBut [] s t ∧ t.ports = s.ports ∧ SameMemory s t) ∧
    (∀ (port : LinkPort) (i : Nat), s.isTvl port = true → s.sendLanes port ≠ [] → s.cadence s.ports[port].fltHead 1 = true → i < s.laneCount port →
      s.fltCode port i = 1 →
      ∃ t, exec (.fltSend port) s = .next t ∧ (∃ m : BitVec 4, m.getLsbD i = true ∧ .flt port 1 m ∈ t.sent) ∧ t.lanes = s.lanes ∧
        t.ports[port] = { s.ports[port] with fltHead := some s.heads } ∧ SamePortsBut port s t ∧ SameRegsBut [] s t ∧ SameMemory s t) ∧
    (∀ (port : LinkPort) (lane : Fin 4), s.isTvl port = true → s.ports[port].stage = .degraded → s.ports[port].rxWidth ≠ 0 →
      s.ports[port].txLanes.getLsbD lane.val = false → (s.joinSet port).getLsbD lane.val = true →
      s.ports[port].localFault = false →
      (∀ i : Fin 4, (s.joinSet port).getLsbD i.val = true → s.ports[port].txLanes.getLsbD i.val = false →
        s.lanes[laneAt port i.val].dropped = false ∨ 4 ≤ port.val ∨
        (s.lanes[laneAt port i.val].returns.filter fun h => decide (s.heads < h + 16000)).length + 1 ≤ s.fld (Reg.TRK_CFG port.val) 9 2) →
      ∃ t, exec (.txLaneJoin port lane) s = .next t ∧ t.ports[port].txLanes = s.joinSet port ∧
        t.ports[port].amkTx = s.ports[port].amkTx + 1 ∧
        .amk port (s.joinSet port) (laneList (s.joinSet port)).length (s.ports[port].amkTx + 1) true ∈ t.sent ∧
        (s.isGroup port.val = false → SamePortsBut port s t) ∧ SameMemory s t) ∧
    (∀ (port : TrunkPort) (lane : Fin 4), (s.ports[trunk port].stage = .active ∨ s.ports[trunk port].stage = .degraded) →
      s.ports[trunk port].txLanes.getLsbD lane.val = false → (s.joinSet (trunk port)).getLsbD lane.val = true →
      (∀ i : Fin 4, (s.joinSet (trunk port)).getLsbD i.val = true → s.ports[trunk port].txLanes.getLsbD i.val = false →
        s.ports[trunk port].rxLanes.getLsbD i.val = false) → s.ports[trunk port].rxWidth ≠ 0 →
      s.lanes[laneAt (trunk port) lane.val].dropped = true →
      s.fld (Reg.TRK_CFG port.val) 9 2 < (s.lanes[laneAt (trunk port) lane.val].returns.filter fun h => decide (s.heads < h + 16000)).length + 1 →
      ∃ t, exec (.txLaneJoin (trunk port) lane) s = .next t ∧ t.ports[trunk port].parked.getLsbD lane.val = true ∧
        t.ports[trunk port].txLanes.getLsbD lane.val = false ∧ SameMemory s t)

/-- A request for a lane with REMOTE_OK on a Torvisk Link port out of DOWN is acknowledged and, where its receiver is sound,
loops it; one for a lane without it is refused, counted there in LANE_LPBK_FAIL and loops nothing. An acknowledgement
ends the own request and sets PARTNER_LOOPED; a refusal, and 16 heads without an answer, end it and are counted. A
release takes the loop away. While the own request runs, LPBK_REQUEST_SEND sends it once per head and changes nothing
else. A write of LANE_LOOP that takes effect sets the local loop to an allowed combination and leaves it at any other.
Completion: under the conditions given on state and operands alone, exec answers a next state for LPBK_REQUEST_RECEIVED,
LPBK_ANSWER_RECEIVED, LPBK_RELEASE_RECEIVED, LPBK_REQUEST_SEND, LPBK_TIMEOUT, LANE_LOOP_WRITE. -/
def Obligations.LoopRequests : Prop :=
  ∀ s : State, s.coreOn = true →
    (∀ (port : LinkPort) (i : Fin 4), s.isTvl port = true → s.ports[port].stage ≠ .down → i.val < s.laneCount port →
      (s.bit (Reg.LANE_LOOP (laneAt port i.val).val) 3 = true →
        ∃ t, exec (.lpbkRequestReceived port (BitVec.ofNat 4 (2 ^ i.val))) s = .next t ∧
          .lpbk port 2 (BitVec.ofNat 4 (2 ^ i.val)) ∈ t.sent ∧ SameMemory s t ∧
          (s.lanes[laneAt port i.val].faulty = false → t.lanes[laneAt port i.val].remoteLoop = true)) ∧
      (s.bit (Reg.LANE_LOOP (laneAt port i.val).val) 3 = false →
        ∃ t, exec (.lpbkRequestReceived port (BitVec.ofNat 4 (2 ^ i.val))) s = .next t ∧
          Counted (Reg.LANE_LPBK_FAIL (laneAt port i.val).val) s t ∧ t.lanes = s.lanes ∧
          .lpbk port 3 (BitVec.ofNat 4 (2 ^ i.val)) ∈ t.sent ∧
          SameRegsBut [Reg.LANE_LPBK_FAIL (laneAt port i.val).val] s t ∧ SameMemory s t)) ∧
    (∀ (port : LinkPort) (i : Fin 4), i.val < s.laneCount port → s.lanes[laneAt port i.val].lpbkHeads.isSome = true →
      (∃ t, exec (.lpbkAnswerReceived port (BitVec.ofNat 4 (2 ^ i.val)) true) s = .next t ∧
        t.lanes[laneAt port i.val].lpbkHeads = none ∧ t.bit (Reg.LANE_LOOP (laneAt port i.val).val) 5 = true ∧
        SameLanesBut (laneAt port i.val) s t ∧ SameRegsBut [Reg.LANE_LOOP (laneAt port i.val).val] s t ∧ SameMemory s t) ∧
      (∃ t, exec (.lpbkAnswerReceived port (BitVec.ofNat 4 (2 ^ i.val)) false) s = .next t ∧
        t.lanes[laneAt port i.val].lpbkHeads = none ∧ Counted (Reg.LANE_LPBK_FAIL (laneAt port i.val).val) s t ∧
        SameLanesBut (laneAt port i.val) s t ∧ SameRegsBut [Reg.LANE_LPBK_FAIL (laneAt port i.val).val] s t ∧ SameMemory s t)) ∧
    (∀ (port : LinkPort) (i : Fin 4), i.val < s.laneCount port → ∃ t, exec (.lpbkReleaseReceived port (BitVec.ofNat 4 (2 ^ i.val))) s = .next t ∧
      t.lanes[laneAt port i.val].remoteLoop = false ∧ SameMemory s t) ∧
    (∀ lane : LaneIx, s.lanes[lane].lpbkHeads.isSome = true → s.isTvl (s.portOfLane lane) = true → s.cadence s.lanes[lane].lpbkSent 1 = true →
      ∃ t, exec (.lpbkRequestSend lane) s = .next t ∧ t.sent = .lpbk (s.portOfLane lane) 1 (BitVec.ofNat 4 (2 ^ s.laneIndex lane)) :: s.sent ∧
        t.lanes[lane] = { s.lanes[lane] with lpbkSent := some s.heads } ∧ SameLanesBut lane s t ∧ t.ports = s.ports ∧
        SameRegsBut [] s t ∧ SameMemory s t) ∧
    (∀ (lane : LaneIx) (h : Nat), s.lanes[lane].lpbkHeads = some h → h + 16 ≤ s.heads →
      ∃ t, exec (.lpbkTimeout lane) s = .next t ∧ t.lanes[lane].lpbkHeads = none ∧ Counted (Reg.LANE_LPBK_FAIL lane.val) s t ∧
        SameLanesBut lane s t ∧ SameRegsBut [Reg.LANE_LPBK_FAIL lane.val] s t ∧ SameMemory s t) ∧
    (∀ (m : Master) (lane : LaneIx) (data : Word), s.Takes m (Reg.LANE_LOOP lane.val) →
      ∃ t, exec (.laneLoopWrite m lane data) s = .next t ∧ SameMemory s t ∧
        t.lanes[lane].loop = if loopOk (bitsOf data 2 0) then BitVec.ofNat 3 (bitsOf data 2 0) else s.lanes[lane].loop)

/-- In the active state a rise of COUPLED on a trunk port sets it, forgets the stored partner and begins a fresh detection
where the port is enabled (else the port stays DOWN); a fall clears it and leaves the port DOWN, a port that had been up
taking link loss at this head. A bounce while COUPLED stands is counted in TRK_SNS_BOUNCE and changes nothing else;
while it does not stand it changes nothing. Completion: under the conditions given on state and operands alone, exec
answers a next state for COUPLED_RISE, COUPLE_SNS_OPEN, COUPLE_SNS_BOUNCE. -/
def Obligations.CouplingLevels : Prop :=
  ∀ (s : State) (p : TrunkPort), s.coreOn = true → s.pwr.state = .active →
    (s.ports[trunk p].coupled = false → ∃ t, exec (.coupledRise p) s = .next t ∧ t.ports[trunk p].coupled = true ∧
      t.ports[trunk p].partner = none ∧ t.ports[trunk p].adm = .closed ∧
      t.ports[trunk p].stage = (if s.portEnabled (trunk p) then .detect else .down) ∧ SameMemory s t) ∧
    (s.ports[trunk p].coupled = true → ∃ t, exec (.coupleSnsOpen p) s = .next t ∧ t.ports[trunk p].coupled = false ∧
      t.ports[trunk p].stage = .down ∧ t.ports[trunk p].reached = false ∧
      (s.ports[trunk p].reached = true → t.ports[trunk p].lossHead = some s.heads) ∧ SameMemory s t) ∧
    (s.ports[trunk p].coupled = true → ∃ t, exec (.coupleSnsBounce p) s = .next t ∧ Counted (Reg.TRK_SNS_BOUNCE p.val) s t ∧
      t.ports = s.ports ∧ SameRegsBut [Reg.TRK_SNS_BOUNCE p.val] s t ∧ SameMemory s t) ∧
    (s.ports[trunk p].coupled = false → exec (.coupleSnsBounce p) s = .next s)

/-- A write of TRK_CFG with EN = 0 that takes effect takes the port to DOWN with link loss; one with EN = 1 leaves every
port. A write of LOC_MODE on a port outside the groups in force with a mode that goes with the active rate of its lane
takes a port of another mode to DOWN in the new mode, with one that does not every port stays as it is (the bonding
being as asked for); on a port of a group in force another mode than Torvisk Link sets BADGRP and the port runs on as
before. A write of LOC_GROUP sets GRP_ACT to GRP where LOC_MODE of every port of those groups asks for Torvisk Link, and
else sets BADGRP. Completion: under the conditions given on state and operands alone, exec answers a next state for
TRK_CFG_EN_WRITE, LOC_MODE_WRITE, LOC_GROUP_WRITE. -/
def Obligations.PortSettings : Prop :=
  ∀ (s : State) (m : Master) (data : Word), s.coreOn = true →
    (∀ p : TrunkPort, s.Takes m (Reg.TRK_CFG p.val) → ∃ t, exec (.trkCfgEnWrite m p data) s = .next t ∧ SameMemory s t ∧
      (data.getLsbD 0 = false → t.ports[trunk p].stage = .down ∧ t.ports[trunk p].reached = false) ∧
      (data.getLsbD 0 = true → t.ports = s.ports ∧ t.lanes = s.lanes)) ∧
    (∀ n : LocalPort, s.Takes m (Reg.LOC_MODE n.val) → ∃ t, exec (.locModeWrite m n data) s = .next t ∧ SameMemory s t ∧
      (s.bonded (n.val / 4) = false →
        (modeRateOk (bitsOf data 1 0) (s.laneRate (laneAt (loc n) 0)) = true → t.ports[loc n].modeAct.toNat = bitsOf data 1 0 ∧
          (s.ports[loc n].modeAct.toNat ≠ bitsOf data 1 0 → t.ports[loc n].stage = .down)) ∧
        (modeRateOk (bitsOf data 1 0) (s.laneRate (laneAt (loc n) 0)) = false → s.fld Reg.LOC_GROUP 3 0 = s.fld Reg.LOC_GROUP 7 4 →
          t.ports = s.ports ∧ t.lanes = s.lanes)) ∧
      (s.bonded (n.val / 4) = true → s.fld Reg.LOC_GROUP 3 0 = s.fld Reg.LOC_GROUP 7 4 → s.ports[loc n].modeAct = 1 → bitsOf data 1 0 ≠ 1 →
        t.bit Reg.LOC_GROUP 8 = true ∧ t.ports[loc n].modeAct = 1 ∧ t.ports[loc n].stage = s.ports[loc n].stage)) ∧
    (s.Takes m Reg.LOC_GROUP → ∃ t, exec (.locGroupWrite m data) s = .next t ∧ SameMemory s t ∧
      ((∀ g, g < 4 → data.getLsbD g = true → s.allTvl g = true) → t.fld Reg.LOC_GROUP 7 4 = bitsOf data 3 0 ∧
        t.bit Reg.LOC_GROUP 8 = false) ∧
      ((∃ g, g < 4 ∧ data.getLsbD g = true ∧ s.allTvl g = false) → t.bit Reg.LOC_GROUP 8 = true))

/-- The first head after its entry an enabled port leaves DOWN: to LOCK where fast return is allowed, else to DETECT with a
detection sent. A detection that finds a lane at the port's rate takes it to TRAIN with that lane detected; one that
finds none leaves it in DETECT, as any does on a trunk port with an open coupler, from which a retry sends the next
detection. When every detected lane is trained the port is in LOCK from this head on. Completion: under the conditions
given on state and operands alone, exec answers a next state for DOWN_EXIT, DETECTION_RESULT, DETECT_RETRY,
TRAIN_COMPLETE. -/
def Obligations.BringUpFromDown : Prop :=
  ∀ (s : State) (p : LinkPort), s.coreOn = true →
    (s.ports[p].stage = .down → s.portEnabled p = true → s.ports[p].stageHead < s.heads →
      (s.fastReturn p = true → ∃ t, exec (.downExit p) s = .next t ∧ t.ports[p].stage = .lock ∧ t.ports[p].fastTried = true ∧
        t.lanes = s.lanes ∧ SamePortsBut p s t ∧ SameRegsBut [] s t ∧ SameMemory s t) ∧
      (s.fastReturn p = false → ∃ t, exec (.downExit p) s = .next t ∧ t.ports[p].stage = .detect ∧ t.sent = .detect p :: s.sent ∧
        SamePortsBut p s t ∧ SameRegsBut [] s t ∧ SameMemory s t)) ∧
    (s.ports[p].stage = .detect → s.portEnabled p = true →
      (p.val < 4 → s.ports[p].coupled = false → ∀ lanes : BitVec 4, ∃ t, exec (.detectionResult p lanes) s = .next t ∧
        t.ports = s.ports ∧ SameRegsBut [] s t ∧ SameMemory s t) ∧
      (∀ (lanes : BitVec 4) (i : Nat), (p.val < 4 → s.ports[p].coupled = true) → i < s.laneCount p → lanes.getLsbD i = true →
        s.lanes[laneAt p i].trained = false → s.rateMix (laneAt p i) = false → ∃ t, exec (.detectionResult p lanes) s = .next t ∧ t.ports[p].stage = .train ∧
          t.ports[p].stageHead = s.heads ∧ t.lanes[laneAt p i].detected = true ∧ SamePortsBut p s t ∧ SameMemory s t) ∧
      (∃ t, exec (.detectionResult p 0) s = .next t ∧ t.ports = s.ports ∧ SameRegsBut [] s t ∧ SameMemory s t)) ∧
    (s.ports[p].stage = .detect → exec (.detectRetry p) s = .next (s.emit (.detect p))) ∧
    (s.ports[p].stage = .train → (∃ i, i < s.laneCount p ∧ s.inTraining p i = true) →
      (∀ i, i < s.laneCount p → s.inTraining p i = true → s.lanes[laneAt p i].trained = true) →
      ∃ t, exec (.trainComplete p) s = .next t ∧ t.ports[p].stage = .lock ∧ t.ports[p].stageHead = s.heads ∧ t.lanes = s.lanes ∧
        SamePortsBut p s t ∧ SameRegsBut [] s t ∧ SameMemory s t)

/-- When every trained lane is in block lock and deskewed the port enters CAPX with those lanes as LANES_LOCK, from which
full width follows. TRAIN that runs out of time goes on with the trained lanes to LOCK, with none to DOWN; LOCK goes on
with the deskewed lanes to CAPX, with none to DOWN; CAPX without agreement or refusal goes to DOWN. On a trunk port that
has not been up since its last link loss each of these falls is counted. Completion: under the conditions given on state
and operands alone, exec answers a next state for LOCK_COMPLETE, TRAIN_TIMEOUT, LOCK_TIMEOUT, CAPX_TIMEOUT. -/
def Obligations.BringUpTimeouts : Prop :=
  ∀ (s : State) (p : LinkPort), s.coreOn = true →
    (s.ports[p].stage = .lock → (∃ i, i < s.laneCount p ∧ s.lanes[laneAt p i].trained = true) →
      (∀ i, i < s.laneCount p → s.lanes[laneAt p i].trained = true → s.laneReady p i = true) →
      ∃ t, exec (.lockComplete p) s = .next t ∧ t.ports[p].stage = .capx ∧ t.ports[p].agreed = false ∧
        t.ports[p].fullWidth = widthOf (laneList t.ports[p].leftLock).length ∧
        (∀ i, i < s.laneCount p → t.ports[p].leftLock.getLsbD i = s.lanes[laneAt p i].trained) ∧
        t.lanes = s.lanes ∧ SamePortsBut p s t ∧ SameRegsBut [] s t ∧ SameMemory s t) ∧
    (s.ports[p].stage = .train →
      ((∃ i, i < s.laneCount p ∧ s.lanes[laneAt p i].trained = true) → ∃ t, exec (.trainTimeout p) s = .next t ∧
        t.ports[p].stage = .lock ∧ t.lanes = s.lanes ∧ SamePortsBut p s t ∧ SameRegsBut [] s t ∧ SameMemory s t) ∧
      ((∀ i, i < s.laneCount p → s.lanes[laneAt p i].trained = false) → ∃ t, exec (.trainTimeout p) s = .next t ∧
        t.ports[p].stage = .down ∧ SameMemory s t ∧
        (p.val < 4 → s.ports[p].reached = false → Counted (Reg.TRK_TRAIN_TIMEOUT p.val) s t))) ∧
    (s.ports[p].stage = .lock →
      (maskOf (s.laneCount p) (s.laneReady p) ≠ 0 → ∃ t, exec (.lockTimeout p) s = .next t ∧ t.ports[p].stage = .capx ∧
        t.ports[p].leftLock = maskOf (s.laneCount p) (s.laneReady p) ∧ SamePortsBut p s t ∧ SameRegsBut [] s t ∧ SameMemory s t) ∧
      (maskOf (s.laneCount p) (s.laneReady p) = 0 → ∃ t, exec (.lockTimeout p) s = .next t ∧ t.ports[p].stage = .down ∧ SameMemory s t ∧
        (p.val < 4 → s.ports[p].reached = false → Counted (Reg.TRK_LOCK_TIMEOUT p.val) s t))) ∧
    (s.ports[p].stage = .capx → s.ports[p].agreed = false → s.ports[p].refuse = 0 → ∃ t, exec (.capxTimeout p) s = .next t ∧
      t.ports[p].stage = .down ∧ SameMemory s t ∧
      (p.val < 4 → s.ports[p].reached = false → Counted (Reg.TRK_CAPX_TIMEOUT p.val) s t))

/-- On a port that left LOCK with one lane, the third equal CAP record in a row of that lane is agreed where every check of
R100 passes, and else refused with the first failing check's reason, which a trunk port counts; memory, the lanes and
the other ports stay. At the head after agreement the port is up (ACTIVE, or DEGRADED below full width), with the
partner stored, nothing of a loss kept, and a trunk port in AUTH with its handshake running. Completion: under the
conditions given on state and operands alone, exec answers a next state for CAP_RECORD_RECEIVED, PORT_ACTIVE. -/
def Obligations.CapabilityExchange : Prop :=
  ∀ (s : State) (p : LinkPort), s.coreOn = true → s.ports[p].stage = .capx →
    (∀ (lane : Fin 4) (cap : CapRecord), s.ports[p].leftLock = BitVec.ofNat 4 (2 ^ lane.val) → capValid cap = true →
      s.ports[p].caps[lane] = some (cap, 2) →
      (s.capCheck p cap = 0 → ∃ t, exec (.capRecordReceived p lane cap true) s = .next t ∧ t.ports[p].agreed = true ∧
        t.ports[p].refuse = 0 ∧ t.lanes = s.lanes ∧ SamePortsBut p s t ∧ SameRegsBut [] s t ∧ SameMemory s t) ∧
      (s.capCheck p cap ≠ 0 → ∃ t, exec (.capRecordReceived p lane cap true) s = .next t ∧ t.ports[p].agreed = false ∧
        t.ports[p].refuse.toNat = s.capCheck p cap ∧ (p.val < 4 → Counted (Reg.TRK_CAPX_REFUSED p.val) s t) ∧ t.lanes = s.lanes ∧
        SamePortsBut p s t ∧ SameRegsBut [Reg.TRK_CAPX_REFUSED p.val, Reg.TRK_WIRING_ERR p.val] s t ∧ SameMemory s t)) ∧
    (∀ cap : CapRecord, s.ports[p].agreed = true → s.capAgreed p = some cap → ∃ t, exec (.portActive p) s = .next t ∧
      (t.ports[p].stage = .active ∨ t.ports[p].stage = .degraded) ∧ t.ports[p].partner = some cap ∧ t.ports[p].reached = true ∧
      t.ports[p].lossHead = none ∧ SameMemory s t ∧
      (∀ k : TrunkPort, p = trunk k → t.ports[p].adm = .auth ∧ t.geode.agents[k].running = true))

/-- On a port in service that keeps what it receives: a KEY message that does not have its version, code and length is
counted in SEC_KEY_BAD and changes no other port, no stage and no key. A HELLO from the stored partner under a usable
fleet key, after the own HELLO, is kept and leaves the derived transmit key waiting where its point is valid; where it
is not the handshake fails as below. A FINISH with the right MAC then admits the port; with a wrong one the handshake
fails: it ends, the retry runs from this head and the failure is counted. FAIL ends a running handshake in the same way.
RESUME where no session key is held is answered with HELLO. Completion: under the conditions given on state and operands
alone, exec answers a next state for KEY_HELLO_RECEIVED, KEY_FINISH_RECEIVED, KEY_RESUME_RECEIVED, KEY_FAIL_RECEIVED. -/
def Obligations.AdmissionMessages : Prop :=
  ∀ (s : State) (p : TrunkPort) (payload : List Byte), s.coreOn = true → s.portUp (trunk p) = true → s.ports[trunk p].discarding = false →
    (∀ c, (c = .keyHelloReceived p payload ∧ keyFormOk payload 1 144 = false) ∨ (c = .keyFinishReceived p payload ∧ keyFormOk payload 2 64 = false) ∨
      (c = .keyResumeReceived p payload ∧ keyFormOk payload 3 96 = false) ∨ (c = .keyFailReceived p payload ∧ keyFormOk payload 5 8 = false) →
      ∃ t, exec c s = .next t ∧ Counted (Reg.SEC_KEY_BAD p.val) s t ∧ SamePortsBut (trunk p) s t ∧ SameStages s t ∧
        t.ports[trunk p].adm = s.ports[trunk p].adm ∧ t.geode = s.geode ∧
        SameRegsBut [Reg.SEC_KEY_BAD p.val] s t ∧ SameMemory s t) ∧
    (∀ f : BitVec 8, keyFormOk payload 1 144 = true → s.geode.agents[p].hello ≠ [] →
      BitVec.ofNat 64 (leNat (slice payload 4 8)) = s.partnerId (trunk p) →
      f = ({ s.geode.agents[p] with peerHello := payload } : KeyAgent).fleet (s.partnerId (trunk p)) →
      s.fleetUsable f = true →
      ∃ t, exec (.keyHelloReceived p payload) s = .next t ∧ SameMemory s t ∧
        (Config.ecValid (slice payload 48 96) = true → t.geode.agents[p].peerHello = payload ∧
          t.geode.agents[p].txKey.isSome = true ∧ t.ports[trunk p].adm = s.ports[trunk p].adm ∧ SameStages s t) ∧
        (Config.ecValid (slice payload 48 96) = false → t.geode.agents[p].running = false ∧
          t.ports[trunk p].retryHead = some s.heads ∧ Counted (Reg.TRK_AUTH_FAIL p.val) s t)) ∧
    (keyFormOk payload 2 64 = true → s.geode.agents[p].running = true → s.geode.agents[p].txKey.isSome = true →
      (slice payload 16 48 = s.finishMac p (payload.getD 12 0) → s.geode.agents[p].rekey = false →
        ∃ t, exec (.keyFinishReceived p payload) s = .next t ∧ t.ports[trunk p].adm = .admitted ∧ t.ports[trunk p].session = true ∧
          t.geode.agents[p].running = false ∧ SameMemory s t) ∧
      (slice payload 16 48 ≠ s.finishMac p (payload.getD 12 0) →
        ∃ t, exec (.keyFinishReceived p payload) s = .next t ∧ t.geode.agents[p].running = false ∧
          t.ports[trunk p].retryHead = some s.heads ∧ Counted (Reg.TRK_AUTH_FAIL p.val) s t ∧ SameMemory s t)) ∧
    (keyFormOk payload 3 96 = true → s.ports[trunk p].adm = .closed → s.rkOf p = none →
      ∃ t, exec (.keyResumeReceived p payload) s = .next t ∧ t.ports[trunk p].adm = .auth ∧ t.geode.agents[p].running = true ∧
        t.geode.agents[p].hello ≠ [] ∧ SameMemory s t) ∧
    (keyFormOk payload 5 8 = true → s.geode.agents[p].running = true →
      ∃ t, exec (.keyFailReceived p payload) s = .next t ∧ t.geode.agents[p].running = false ∧
        t.ports[trunk p].retryHead = some s.heads ∧ Counted (Reg.TRK_AUTH_FAIL p.val) s t ∧ SameMemory s t)

/-- A handshake running for 640 heads fails: it ends, is counted and waits for its retry. 16,000 heads after a failure a
port in service that is not ADMITTED begins again. When SEC_REKEY beats have passed, the lower identity of an ADMITTED
port with no handshake running and none to be tried again begins a rekey and the port stays ADMITTED. Once per head
SYNC_SEND sends a SYNC with the counter of the running transmit association of a port that a GCM engine serves, which
spends that value; a SYNC received there that verifies moves the expected counter to C + 1, one that does not is counted
in SEC_SYNC_BAD and moves none. Completion: under the conditions given on state and operands alone, exec answers a next
state for AUTH_TIMEOUT, AUTH_RETRY, REKEY_DUE, SYNC_SEND, SYNC_RECEIVED. -/
def Obligations.AdmissionTimes : Prop :=
  ∀ s : State, s.coreOn = true →
    (∀ p : TrunkPort, s.geode.agents[p].running = true → s.ports[trunk p].authHead + 640 ≤ s.heads →
      ∃ t, exec (.authTimeout p) s = .next t ∧ t.geode.agents[p].running = false ∧ t.ports[trunk p].retryHead = some s.heads ∧
        Counted (Reg.TRK_AUTH_FAIL p.val) s t ∧ SameMemory s t) ∧
    (∀ (p : TrunkPort) (h : Nat), s.ports[trunk p].retryHead = some h → h + 16000 ≤ s.heads → s.portUp (trunk p) = true →
      s.ports[trunk p].adm = .closed → ∃ t, exec (.authRetry p) s = .next t ∧ t.ports[trunk p].adm = .auth ∧
        t.ports[trunk p].retryHead = none ∧ t.geode.agents[p].running = true ∧ SameMemory s t) ∧
    (∀ p : TrunkPort, s.ports[trunk p].adm = .admitted → s.geode.agents[p].running = false → s.ports[trunk p].retryHead = none →
      Config.hubId.toNat < (s.partnerId (trunk p)).toNat → s.reg Reg.SEC_REKEY ≠ 0 →
      s.geode.agents[p].admitHead + (s.reg Reg.SEC_REKEY).toNat ≤ s.heads →
      ∃ t, exec (.rekeyDue p) s = .next t ∧ t.geode.agents[p].running = true ∧ t.geode.agents[p].rekey = true ∧
        t.ports[trunk p].adm = .admitted ∧ SameRegsBut [] s t ∧ SameMemory s t) ∧
    (∀ (p : LinkPort) (a : Assoc), s.portUp p = true → (s.gcmEngine p).isSome = true → s.geode.assocs = [a] → a.port = p →
      a.stopped = false →
      (a.transmit = true → a.ctr.toNat + 2 < 2 ^ 64 → s.ports[p].syncHead < s.heads → ∃ t, exec (.syncSend p) s = .next t ∧ t.geode.assocs = [{ a with ctr := a.ctr + 1 }] ∧
        (∃ g : Frame, t.sent = .keyFrame p g :: s.sent ∧ g.payload = syncHead a.sa a.ctr ++ syncMac a a.sa a.ctr) ∧
        t.ports[p].syncHead = s.heads ∧ SamePortsBut p s t ∧ SameRegsBut [] s t ∧ SameMemory s t) ∧
      (a.transmit = false → s.ports[p].discarding = false → ∀ payload : List Byte, keyFormOk payload 4 32 = true → payload.getD 4 0 = a.sa →
        (slice payload 16 16 = syncMac a a.sa (BitVec.ofNat 64 (leNat (slice payload 8 8))) ∧
            a.ctr.toNat ≤ (BitVec.ofNat 64 (leNat (slice payload 8 8))).toNat →
          ∃ t, exec (.syncReceived p payload) s = .next t ∧
            t.geode.assocs = [{ a with ctr := BitVec.ofNat 64 (leNat (slice payload 8 8)) + 1 }] ∧ t.ports = s.ports ∧
            SameRegsBut [] s t ∧ SameMemory s t) ∧
        (slice payload 16 16 ≠ syncMac a a.sa (BitVec.ofNat 64 (leNat (slice payload 8 8))) →
          ∃ t, exec (.syncReceived p payload) s = .next t ∧ Counted (Reg.SEC_SYNC_BAD p.val) s t ∧ t.geode = s.geode ∧
            SameRegsBut [Reg.SEC_SYNC_BAD p.val] s t ∧ SameMemory s t)))

/-- On a trunk port in service that discards no frame, every ECHO frame returns its credit. One that does not pass for its
PEP is counted in TRK_STALE_PEP, one that passes on a port that is not ADMITTED in TRK_BYPASS_DROP, and neither changes
a record, a stage or an admission. On an ADMITTED port a malformed one is counted in TOPO_ECHO_BAD and changes no
record, and a well-formed one without news of the own master, with one record of a linked hub not known before, keeps
that record and notes its head. 16 heads after the last one the agent sends an ECHO frame with this hub's payload on an
ADMITTED port in service where no merge is held: it waits as the last of the port's own frames, which join its TC7 queue
at the next frame slot (a choice of the model, log 129). Before 16 heads nothing happens. Completion: under the
conditions given on state and operands alone, exec answers a next state for ECHO_FRAME_RECEIVED,
ECHO_FRAME_PERIODIC_SEND. -/
def Obligations.EchoFrames : Prop :=
  ∀ (s : State) (p : TrunkPort) (e : EchoPayload), s.coreOn = true → s.portUp (trunk p) = true →
    (s.ports[trunk p].discarding = false →
      ((s.pepPasses e.pep || s.joint p) = false → ∃ t, exec (.echoFrameReceived p e) s = .next t ∧ Counted (Reg.TRK_STALE_PEP p.val) s t ∧
        t.echo = s.echo ∧ (t.credit (trunk p) 7 false).g = (s.credit (trunk p) 7 false).g + BitVec.ofNat 20 (cellsOfLen e.bytes.length) ∧
        t.ports[trunk p].adm = s.ports[trunk p].adm ∧ SameStages s t ∧ SamePortsBut (trunk p) s t ∧
        SameRegsBut [Reg.TRK_STALE_PEP p.val] s t ∧ SameMemory s t) ∧
      ((s.pepPasses e.pep || s.joint p) = true → s.ports[trunk p].adm ≠ .admitted → ∃ t, exec (.echoFrameReceived p e) s = .next t ∧
        Counted (Reg.TRK_BYPASS_DROP p.val) s t ∧ t.echo = s.echo ∧
        (t.credit (trunk p) 7 false).g = (s.credit (trunk p) 7 false).g + BitVec.ofNat 20 (cellsOfLen e.bytes.length) ∧
        t.ports[trunk p].adm = s.ports[trunk p].adm ∧ SameStages s t ∧ SamePortsBut (trunk p) s t ∧
        SameRegsBut [Reg.TRK_BYPASS_DROP p.val] s t ∧ SameMemory s t) ∧
      ((s.pepPasses e.pep || s.joint p) = true → s.ports[trunk p].adm = .admitted →
        ((e.ver ≠ 1 ∨ e.n = 0 ∨ 64 < e.n.toNat) → ∃ t, exec (.echoFrameReceived p e) s = .next t ∧ Counted Reg.TOPO_ECHO_BAD s t ∧
          t.echo = s.echo ∧ t.ports[trunk p].echoHead = s.ports[trunk p].echoHead ∧ SameStages s t ∧ SamePortsBut (trunk p) s t ∧
          SameRegsBut [Reg.TOPO_ECHO_BAD] s t ∧ SameMemory s t) ∧
        (∀ r : HubRecord, e.ver = 1 → e.n = 1 → e.hubs = [r] → e.assigns.length ≤ 64 → e.merge = none → r.id ≠ Config.hubId → r.id ≠ 0 →
          s.recordOf r.id = none → heldLink s.ownRecord r = true → (s.echo.master = Config.hubId ∨ e.masterId ≠ s.echo.master) →
          ∃ t, exec (.echoFrameReceived p e) s = .next t ∧ r ∈ t.echo.records ∧
            t.ports[trunk p].echoHead = s.heads ∧ SameStages s t ∧ SameMemory s t))) ∧
    (s.heads < s.ports[trunk p].echoTx + 16 → exec (.echoFramePeriodicSend p) s = .next s) ∧
    (s.ports[trunk p].adm = .admitted → s.ports[trunk p].echoTx + 16 ≤ s.heads → s.merges = [] →
      ∃ t, exec (.echoFramePeriodicSend p) s = .next t ∧ t.sent = s.sent ∧ t.ports[trunk p].echoTx = s.heads ∧
        t.ports[trunk p].ownTx = s.ports[trunk p].ownTx ++ [s.linkFrame kindEcho (s.echoPayload false none).bytes] ∧
        SameStages s t ∧ SamePortsBut (trunk p) s t ∧ SameRegsBut [] s t ∧ SameMemory s t)

/-- An ADMITTED port in service without an ECHO frame for 48 heads is BYPASSED with PST 3, its session ends, a handshake
runs, and it is counted in TOPO_NB_DEAD. Two heads after a link loss that has not declared it yet, a neighbour is dead:
PST shows HOLD while a hold window runs and, unless the port is ADMITTED again, DOWN after it, and it is counted. At the
end of its hold window a port holds nothing any more, its queues are flushed, and PST shows DOWN unless it is ADMITTED.
Completion: under the conditions given on state and operands alone, exec answers a next state for
NEIGHBOUR_DEAD_ECHO_TIMEOUT, NEIGHBOUR_DEAD_LINK_LOSS, HOLD_WINDOW_CLOSE. -/
def Obligations.NeighbourAndWindow : Prop :=
  ∀ (s : State) (p : TrunkPort), s.coreOn = true →
    (s.ports[trunk p].adm = .admitted → s.portUp (trunk p) = true → s.ports[trunk p].echoHead + 48 ≤ s.heads →
      ∃ t, exec (.neighbourDeadEchoTimeout p) s = .next t ∧ t.ports[trunk p].adm = .bypassed ∧ t.ports[trunk p].pst = 3 ∧
        t.ports[trunk p].nbDead = true ∧ t.ports[trunk p].session = false ∧ t.geode.agents[p].running = true ∧
        Counted Reg.TOPO_NB_DEAD s t ∧ SameStages s t ∧ SameMemory s t) ∧
    (∀ h, s.ports[trunk p].lossHead = some h → h + 2 ≤ s.heads → s.ports[trunk p].lossDead = false →
      ∃ t, exec (.neighbourDeadLinkLoss p) s = .next t ∧ t.ports[trunk p].nbDead = true ∧
        t.ports[trunk p].pst = (if s.ports[trunk p].holdHead.isSome then 1
          else if s.ports[trunk p].adm = .admitted then s.ports[trunk p].pst else 0) ∧ Counted Reg.TOPO_NB_DEAD s t ∧
        SameStages s t ∧ SameMemory s t) ∧
    (∀ h, s.ports[trunk p].holdHead = some h → h + s.ports[trunk p].holdWin ≤ s.heads →
      ∃ t, exec (.holdWindowClose p) s = .next t ∧ t.ports[trunk p].holdHead = none ∧ t.ports[trunk p].flushed = true ∧
        t.ports[trunk p].pst = (if s.ports[trunk p].adm = .admitted then s.ports[trunk p].pst else 0) ∧ SameMemory s t)

/-- The elected master whose view has settled, which holds no merge and sees joints to other consists announces a merge for
each of them: the first with S the lead ahead, PEP_NEW one higher and the hub of the first joint. The master of the one
merge held cancels it more than 16 beats before S where it no longer holds (the joint has gone, a master changed, the
record is incomplete 17 beats before S), and counts it. Within a pause of Column 1 neither does anything. 16,000 heads
after entry to RUN FORMING falls, every other register as it was. Completion: under the conditions given on state and
operands alone, exec answers a next state for MERGE_ANNOUNCE, MERGE_CANCEL, FORMING_END. -/
def Obligations.MergesAndFormation : Prop :=
  ∀ s : State, s.coreOn = true →
    (∀ (x : Side) (xs : List Side), s.echoPaused = false → s.joiningSides = x :: xs → s.beat.timing = .master → s.echo.master = Config.hubId →
      s.elected = Config.hubId → s.merges = [] → s.echo.viewSince + s.settleHeads ≤ s.heads →
      ∃ t m, exec .mergeAnnounce s = .next t ∧ t.echo.merge = some m ∧ t.merges.length = s.joiningSides.length ∧
        m.joining = false ∧ m.complete = false ∧
        m.record.s = s.beatNum + BitVec.ofNat 48 s.mergeLead ∧ m.record.pepNew = s.pep + 1 ∧ m.record.masterId = Config.hubId ∧
        m.record.jointId = x.joint.id ∧ SameStages s t ∧ SameMemory s t) ∧
    (∀ m : Merge, s.echoPaused = false → s.merges = [m] → m.record.masterId = Config.hubId → s.beatNum.toNat + 16 < m.record.s.toNat →
      s.mergeBroken m = true →
      ∃ t, exec .mergeCancel s = .next t ∧ t.merges = [] ∧ Counted Reg.TOPO_MERGE_CANCEL s t ∧ SameStages s t ∧ SameMemory s t) ∧
    (s.echoPaused = true → exec .mergeAnnounce s = .next s ∧ exec .mergeCancel s = .next s) ∧
    (∀ h, s.echo.runHead = some h → h + 16000 ≤ s.heads →
      ∃ t, exec .formingEnd s = .next t ∧ t.forming = false ∧ t.fld Reg.TOPO_STATUS 26 0 = s.fld Reg.TOPO_STATUS 26 0 ∧
        SameRegsBut [Reg.TOPO_STATUS] s t ∧ SameMemory s t)

/-- On a trunk port in service, a frame whose FCS is wrong is counted in TUN_FCS_ERR and stores nothing. A tunnel frame for
an endpoint that passes checks 1 to 7 waits in the miss queue where check 8 to 11 must wait for an entry and the queue
has room, and takes a place in Cavern where every check passes, as one new frame for a single copy. A SYNC and a
malformed KEY message go the ways of R345 and R339 instead. Completion: under the conditions given on state and operands
alone, exec answers a next state for FRAME_RECEIVED. -/
def Obligations.FramesReceived : Prop :=
  ∀ (s : State) (p : TrunkPort) (rx : RxFrame) (tag : Option EngineTag), s.coreOn = true → s.portUp (trunk p) = true →
    s.ports[trunk p].discarding = false →
    (rx.fcs ≠ rx.frame.fcsOf → s.cav.waiting = [] → ∃ t, exec (.frameReceived (toEgress (trunk p)) rx tag) s = .next t ∧
      Counted Reg.TUN_FCS_ERR s t ∧ t.cav.queues = s.cav.queues ∧ t.cav.nextId = s.cav.nextId ∧ t.tun = s.tun ∧
      SameRegsBut [Reg.TUN_FCS_ERR] s t ∧ SameMemory s t) ∧
    (∀ (f : Frame) (s1 s2 : State), s.precheck (toEgress (trunk p)) rx = (s1, some f) → f.destEp ≠ 0 → isSync (toEgress (trunk p)) rx = false →
      (∀ k d, s1.judge (toEgress (trunk p)) f false none = (s2, .wait k d) → s2.tun.missQ.length < 4096 →
        ∃ t, exec (.frameReceived (toEgress (trunk p)) rx tag) s = .next t ∧
          t.tun.missQ = s2.tun.missQ ++ [{ key := k, dest := d, ingress := toEgress (trunk p), frame := f, srcDefault := false }] ∧
          k ∈ t.tun.fetching) ∧
      (∀ (a : Accepted) (g : Frame) (ps : List EgressPort), s1.judge (toEgress (trunk p)) f false none = (s2, .pass a) →
        s2.keyMalformed (toEgress (trunk p)) f = none → a.copies = [(g, ps)] → ps ≠ [] → g.tw = 0 →
        ∃ t, exec (.frameReceived (toEgress (trunk p)) rx tag) s = .next t ∧ t.cav.nextId = s2.cav.nextId + 1 ∧ t.tun = s2.tun))

/-- On an Ethernet port in service that receives no cut-through frame: a frame of a bad length is counted in LOC_LEN_ERR,
one of a good length with a wrong FCS in LOC_FCS_ERR, a MAC control frame in LOC_PAUSE_DISC, and none of them is stored.
Any other frame that the mapping gives endpoints and that passes every check with one copy is stored as one new frame,
in RUN with room in the pool while the scheduler does not drain. Completion: under the conditions given on state and
operands alone, exec answers a next state for ETH_FRAME_RECEIVED. -/
def Obligations.EthernetFrames : Prop :=
  ∀ (s : State) (n : LocalPort) (bytes : List Byte) (fcs : Word), s.coreOn = true → s.isEth (loc n) = true → s.portUp (loc n) = true →
    s.cutOf n = none →
    ((bytes.length + 4 < 64 ∨ s.maxLen n < bytes.length + 4) → ∃ t, exec (.ethFrameReceived n bytes fcs) s = .next t ∧
      Counted (Reg.LOC_LEN_ERR n.val) s t ∧ t.cav = s.cav ∧ t.tun = s.tun ∧ SameMemory s t) ∧
    (64 ≤ bytes.length + 4 → bytes.length + 4 ≤ s.maxLen n →
      (fcs ≠ crc32 bytes → ∃ t, exec (.ethFrameReceived n bytes fcs) s = .next t ∧ Counted (Reg.LOC_FCS_ERR n.val) s t ∧
        t.cav = s.cav ∧ t.tun = s.tun ∧ SameMemory s t) ∧
      (fcs = crc32 bytes → be16At bytes 12 = 0x8808 → ∃ t, exec (.ethFrameReceived n bytes fcs) s = .next t ∧
        Counted (Reg.LOC_PAUSE_DISC n.val) s t ∧ t.cav = s.cav ∧ t.tun = s.tun ∧ SameMemory s t) ∧
      (∀ (s1 s2 s3 : State) (f g : Frame) (a : Accepted) (ps : List EgressPort), fcs = crc32 bytes → be16At bytes 12 ≠ 0x8808 →
        s1 = s.countLocal (toEgress (loc n)) Reg.LOC_RX_FRAMES_LO Reg.LOC_RX_BYTES_LO (bytes.length + 4) →
        cellsOfLen bytes.length ≤ s1.poolFree → s.mode = .run → s.pwr.admitClosed = false → s1.mapFrame n bytes = (s2, some f) →
        s2.judge (toEgress (loc n)) (s2.ownSlots f) false none = (s3, .pass a) → a.copies = [(g, ps)] → ps ≠ [] → g.tw = 0 →
        ∃ t, exec (.ethFrameReceived n bytes fcs) s = .next t ∧ t.cav.nextId = s3.cav.nextId + 1 ∧ t.tun = s3.tun))

/-- A frame that passes checks 2 to 13 at a local port in service, on Torvisk Link or mapped from Ethernet, that receives no
other cut-through frame, and that R185 allows to cut through, joins its queue before its end where a charge is found:
the port then receives it as a cut-through frame, and the join is counted. At a frame slot of a port that can send,
whose own frames have joined their queue and which sends no cut-through frame, a single queued frame that is a candidate
of its class with committed tokens for its charge, and that no check drops, leaves its queue (at the internal port, a
frame that is for no agent, while none in an inbox waits for its agent). At a link port that cannot send, in the first
560 CCLK of a takeover, and while a cut-through frame has not ended, no frame starts: at most a FILL goes out.
Completion: under the conditions given on state and operands alone, exec answers a next state for CUT_THROUGH_JOIN,
SCHEDULER_DECISION. -/
def Obligations.CutThrough : Prop :=
  ∀ (s : State), s.coreOn = true →
    (∀ (n : LocalPort) (frame f g : Frame) (q : EgressPort) (a : Accepted) (s1 s2 s4 : State), (s.isTvl (loc n) = true ∨ s.isEth (loc n) = true) →
      s.portUp (loc n) = true → s.ports[loc n].discarding = false → s.pwr.admitClosed = false → s.cutOf n = none →
      s.cutFrame n frame = (s1, some f) → s1.judge (toEgress (loc n)) f false none = (s2, .pass a) → s2.mayCut n a = some (g, q) →
      (s2.store g (toEgress (loc n)) a.matched (s2.cav.lastChamber.val + 1)).joinAll s2.cav.nextId g.cls g.cells true [q] = (s4, .joined) →
      ∃ t, exec (.cutThroughJoin n frame) s = .next t ∧ t.cav.cutIn = s4.cav.cutIn ++ [(n, s2.cav.nextId)] ∧
        t.cav.queues = s4.cav.queues ∧ t.reg48 Reg.CAV_CUT_LO = (s4.reg48 Reg.CAV_CUT_LO + 1) % 2 ^ 48) ∧
    (∀ (p : EgressPort) (cclk : Nat) (found : List CellError), p.val < 20 → (∀ k : TrunkPort, p = toEgress (trunk k) → s.ports[trunk k].ownTx = []) →
      s.portSends p = false ∨ s.takeoverHold p cclk = true ∨ (∃ x ∈ s.cav.cutTx, x.egress = p) →
      ∃ t, exec (.schedulerDecision p ⟨cclk, found⟩) s = .next t ∧ t.cav = s.cav ∧ t.ports = s.ports ∧ t.tun = s.tun ∧
        (t.sent = s.sent ∨ ∃ l m, t.sent = .fill l m :: s.sent) ∧ SameRegsBut [] s t ∧ SameMemory s t) ∧
    (∀ (p : EgressPort) (cclk : Nat) (found : List CellError) (c : Cls) (r : QRef) (f : Stored), s.portSends p = true →
      s.takeoverHold p cclk = false → s.cav.waiting = [] → (∀ k : TrunkPort, p = toEgress (trunk k) → s.ports[trunk k].ownTx = []) →
      (∀ x ∈ s.cav.cutTx, x.egress ≠ p) →
      (∀ k : Cls, k ≠ c → s.cav.queues[queueOf p k].refs = []) → s.cav.queues[queueOf p c].refs = [r] → f.id = r.id →
      s.candidate p cclk c = some (r, f) → s.headDrop p f = none → s.egressDrop p f found = none →
      s.charge p f.frame * 256 ≤ s.ctok p.val c.val → (p.val < 20 ∨ (epLocal f.frame.destEp ≠ 0 ∧ ∀ r : RoleIx, s.eng.roles[r].engine.isSome = true → ∀ d ∈ s.eng.roles[r].inbox, d.acted = true)) →
      ∃ t, exec (.schedulerDecision p ⟨cclk, found⟩) s = .next t ∧ t.cav.queues[queueOf p c].refs = [] ∧ SameMemory s t)

/-- A fetched entry read without an uncorrectable error that no line holds yet is cached where its set has room, and its key
is no longer being fetched; one read with an uncorrectable error is not cached, is marked, counted in SUMP_UE and
recorded with its address in the error FIFO where that has room. A frame that has waited too long for its destination's
entry leaves the miss queue, counted in TUN_MISS_DEFAULT and not in TUN_DST_INVALID, and is charged to the class-default
policer of its ingress port and class; one that it colours red is not stored. A twin entry that has aged out leaves the
table and no other does. A local port whose TC5-TC7 head frame has waited more than 4 beats for credit, its fifth head
since, shows it in DEP_DRAIN, counted once. Completion: under the conditions given on state and operands alone, exec
answers a next state for ENTRY_FETCH_COMPLETE, MISS_WAIT_TIMEOUT, TWIN_ENTRY_AGE_OUT, DRAIN_WAIT_EXCEEDED. -/
def Obligations.EntriesAndTwins : Prop :=
  ∀ s : State, s.coreOn = true →
    (∀ ep : EpId, s.tun.fetching.contains ep = true → s.sumpReady = true → (∀ m ∈ s.tun.missQ, m.key ≠ ep) →
      (s.tun.poison.contains ep = false → s.cacheLine ep = none → (s.tun.cache.countP fun l => cacheSet l.ep == cacheSet ep) < 16 →
        ∃ t, exec (.entryFetchComplete ep .clean) s = .next t ∧ (∃ l ∈ t.tun.cache, l.ep = ep ∧ l.entry = s.tableEntry ep) ∧
          t.tun.fetching.contains ep = false ∧ t.tun.missQ = s.tun.missQ ∧ SameMemory s t) ∧
      (∃ t, exec (.entryFetchComplete ep .uncorrectable) s = .next t ∧ t.tun.cache = s.tun.cache ∧ t.tun.poison.contains ep = true ∧
        t.tun.fetching.contains ep = false ∧ Counted Reg.SUMP_UE s t ∧
        (s.cav.ueFifo.length < 8 → t.cav.ueFifo = s.cav.ueFifo ++ [{ addr := BitVec.ofNat 40 (0x1000000000 + ep.toNat * 64), region := 0 }]) ∧
        SameMemory s t)) ∧
    (∀ m : MissFrame, s.tun.missQ = [m] → m.dest = true → m.srcDefault = false → ∃ t, exec (.missWaitTimeout m.key) s = .next t ∧
      t.tun.missQ = [] ∧ Counted Reg.TUN_MISS_DEFAULT s t ∧ t.reg Reg.TUN_DST_INVALID = s.reg Reg.TUN_DST_INVALID ∧
      t.sched.buckets = (s.policeDefault m.ingress m.frame (decide (4 ≤ m.ingress.val))).1.sched.buckets ∧
      ((s.policeDefault m.ingress m.frame (decide (4 ≤ m.ingress.val))).2 = .red → t.cav.nextId = s.cav.nextId)) ∧
    (∀ (src : EpId) (e : TwinEntry), s.twin.find? (fun e => e.src == src) = some e → s.twinAged e = true →
      ∃ t, exec (.twinEntryAgeOut src) s = .next t ∧ t.twin = (s.twin.filter fun x => x.src != src) ∧ SameMemory s t) ∧
    (∀ (n : LocalPort) (c : Cls) (h : Nat), (c = 5 ∨ c = 6 ∨ c = 7) → s.isTvl (loc n) = true →
      s.cav.queues[queueOf (toEgress (loc n)) c].creditWait = some h → h + 4 < s.heads → s.bit Reg.DEP_DRAIN n.val = false →
      ∃ t, exec (.drainWaitExceeded n) s = .next t ∧ t.bit Reg.DEP_DRAIN n.val = true ∧ Counted Reg.DEP_DRAIN_EVENTS s t ∧
        SameRegsBut [Reg.DEP_DRAIN, Reg.DEP_DRAIN_EVENTS] s t ∧ SameMemory s t)

/-- A command of TUN_EP_CMD that takes effect stands in its master's TUN_EP_RESULT by the first failing check of R161, with
the GEN after it. READ with code OK copies the 16 words of the entry and changes no entry. With Sump ready, a command
with code OK that changes the entry leaves it with its change, GEN raised by one, and the beat and the master of the
command: WRITE and WRITE_KEEP the fields of the master's words (WRITE with filled buckets), PIN and UNPIN the PIN bit,
REVOKE the REVOKED bit, INVALIDATE VALID and REVOKED 0. A command with another code changes no entry. Completion: under
the conditions given on state and operands alone, exec answers a next state for EP_READ, EP_WRITE, EP_WRITE_KEEP,
EP_PIN, EP_UNPIN, EP_REVOKE, EP_INVALIDATE. -/
def Obligations.EndpointCommands : Prop :=
  ∀ (s : State) (m : Master), s.Inv → s.Takes m Reg.TUN_EP_CMD →
    (∃ t, exec (.epRead m) s = .next t ∧ t.tun = s.tun ∧
      t.reg (pmKey m Reg.TUN_EP_RESULT) = BitVec.ofNat 32 (s.epCode m 1 + 16 * (s.epNow (s.epSel m)).gen.toNat) ∧
      (s.epCode m 1 = 1 → ∀ i, i < 16 → t.epw m i = (s.epNow (s.epSel m)).word i) ∧ SameMemory s t) ∧
    (∀ c op, (c = .epWrite m ∧ op = 2) ∨ (c = .epWriteKeep m ∧ op = 3) ∨ (c = .epPin m ∧ op = 4) ∨ (c = .epUnpin m ∧ op = 5) ∨
        (c = .epRevoke m ∧ op = 6) ∨ (c = .epInvalidate m ∧ op = 7) →
      (s.epCode m op ≠ 1 → ∃ t, exec c s = .next t ∧ t.tun = s.tun ∧
        t.reg (pmKey m Reg.TUN_EP_RESULT) = BitVec.ofNat 32 (s.epCode m op + 16 * (s.epNow (s.epSel m)).gen.toNat) ∧
        SameRegsBut [pmKey m Reg.TUN_EP_RESULT] s t ∧ SameMemory s t) ∧
      (s.epCode m op = 1 → s.sumpReady = true → s.epChanged m op (s.epNow (s.epSel m)) ≠ s.epNow (s.epSel m) →
        ∃ t, exec c s = .next t ∧ t.epNow (s.epSel m) = { s.epChanged m op (s.epNow (s.epSel m)) with
            gen := (s.epNow (s.epSel m)).gen + 1, cmdBeat := s.beatNum, cmdMaster := BitVec.ofNat 6 m.val } ∧
          (op = 4 → (t.epNow (s.epSel m)).pin = true) ∧ (op = 5 → (t.epNow (s.epSel m)).pin = false) ∧
          (op = 6 → (t.epNow (s.epSel m)).revoked = true) ∧
          (op = 7 → (t.epNow (s.epSel m)).valid = false ∧ (t.epNow (s.epSel m)).revoked = false) ∧
          t.reg (pmKey m Reg.TUN_EP_RESULT) = BitVec.ofNat 32 (1 + 16 * ((s.epNow (s.epSel m)).gen + 1).toNat) ∧
          SameRegsBut [pmKey m Reg.TUN_EP_RESULT] s t ∧ SameMemory s t))

/-- ADD that takes effect, for a VID below 0xFFF and an endpoint other than 0, puts the entry in place of one with its key,
with result OK; where the key is new and its set holds four entries it answers FULL and adds nothing. DELETE takes the
entry of the key away, and LOOKUP copies its endpoint and class to TUN_MAP_VAL; without such an entry both answer
NOTFOUND and change no entry. Completion: under the conditions given on state and operands alone, exec answers a next
state for TUN_MAP_ADD, TUN_MAP_DELETE, TUN_MAP_LOOKUP. -/
def Obligations.MappingCommands : Prop :=
  ∀ (s : State) (m : Master), s.Inv → s.Takes m Reg.TUN_MAP_CMD → (s.mapKey m).2.2 ≠ 0xFFF →
    (bitsOf (s.reg (pmKey m Reg.TUN_MAP_VAL)) 24 0 ≠ 0 → ∃ t, exec (.tunMapAdd m) s = .next t ∧
      SameRegsBut [pmKey m Reg.TUN_MAP_RESULT] s t ∧ SameMemory s t ∧
      ((s.tun.map.find? fun e => e.hasKey (s.mapKey m)).isSome = true ∨
          (s.tun.map.countP fun e => keySet e.port e.mac e.vid == keySet (s.mapKey m).1 (s.mapKey m).2.1 (s.mapKey m).2.2) < 4 →
        t.reg (pmKey m Reg.TUN_MAP_RESULT) = 1 ∧
        t.tun.map = (s.tun.map.filter fun x => !x.hasKey (s.mapKey m)) ++
          [{ port := (s.mapKey m).1, mac := (s.mapKey m).2.1, vid := (s.mapKey m).2.2,
             ep := BitVec.ofNat 25 (bitsOf (s.reg (pmKey m Reg.TUN_MAP_VAL)) 24 0),
             tc := BitVec.ofNat 3 (bitsOf (s.reg (pmKey m Reg.TUN_MAP_VAL)) 27 25) }]) ∧
      ((s.tun.map.find? fun e => e.hasKey (s.mapKey m)) = none →
        4 ≤ (s.tun.map.countP fun e => keySet e.port e.mac e.vid == keySet (s.mapKey m).1 (s.mapKey m).2.1 (s.mapKey m).2.2) →
        t.reg (pmKey m Reg.TUN_MAP_RESULT) = 2 ∧ t.tun = s.tun)) ∧
    (∀ e : MapEntry, (s.tun.map.find? fun e => e.hasKey (s.mapKey m)) = some e →
      (∃ t, exec (.tunMapDelete m) s = .next t ∧ t.reg (pmKey m Reg.TUN_MAP_RESULT) = 1 ∧
        t.tun.map = (s.tun.map.filter fun x => !x.hasKey (s.mapKey m)) ∧ SameRegsBut [pmKey m Reg.TUN_MAP_RESULT] s t ∧ SameMemory s t) ∧
      (∃ t, exec (.tunMapLookup m) s = .next t ∧ t.reg (pmKey m Reg.TUN_MAP_RESULT) = 1 ∧
        t.reg (pmKey m Reg.TUN_MAP_VAL) = BitVec.ofNat 32 (e.ep.toNat + e.tc.toNat * 2 ^ 25) ∧ t.tun = s.tun ∧
        SameRegsBut [pmKey m Reg.TUN_MAP_RESULT, pmKey m Reg.TUN_MAP_VAL] s t ∧ SameMemory s t)) ∧
    ((s.tun.map.find? fun e => e.hasKey (s.mapKey m)) = none → ∀ c, c = .tunMapDelete m ∨ c = .tunMapLookup m →
      ∃ t, exec c s = .next t ∧ t.reg (pmKey m Reg.TUN_MAP_RESULT) = 3 ∧ t.tun = s.tun ∧
        SameRegsBut [pmKey m Reg.TUN_MAP_RESULT] s t ∧ SameMemory s t)

/-- The oldest frame on its way to Sump, when its last cell is there, is no longer waiting and its cells leave the spill
path; one in whose cells this reading meets an uncorrectable error is discarded and counted in CAV_UE_DISC. A frame
whose cells are all in Sump, alone in its queue, returns there as a resident frame and is counted where cells are free;
one read with an uncorrectable error is discarded and counted in SUMP_UE_DISC. When READY falls the hub has Sump neither
trained nor ready. Memory stays, but for the cells that a returning frame takes. Completion: under the conditions given
on state and operands alone, exec answers a next state for SPILL_WRITE_COMPLETE, SPILL_RETURN, SUMP_READY_FALL. -/
def Obligations.SpillAndReturn : Prop :=
  ∀ (s : State) (q : QueueIx), s.coreOn = true → s.cav.waiting = [] →
    (∀ (r : QRef) (f : Stored), s.cav.queues[q].refs = [r] → r.waiting = true → s.stored r.id = some f →
      (s.damagedIn f.cells = [] → ∃ t, exec (.spillWriteComplete q) s = .next t ∧
        t.cav.queues[q].refs = [{ r with waiting := false }] ∧ t.cav.spillQ = s.cav.spillQ - r.cells ∧ SameRegsBut [] s t ∧ SameMemory s t) ∧
      (s.damagedIn f.cells ≠ [] → ∃ t, exec (.spillWriteComplete q) s = .next t ∧ t.cav.queues[q].refs = [] ∧ Counted Reg.CAV_UE_DISC s t ∧
        SameMemory s t)) ∧
    (∀ r : QRef, s.cav.queues[q].refs = [r] → r.spilled = true → r.waiting = false → s.sumpReady = true →
      (∃ t, exec (.spillReturn q .uncorrectable) s = .next t ∧ t.cav.queues[q].refs = [] ∧ Counted Reg.SUMP_UE_DISC s t ∧ SameMemory s t) ∧
      (∀ (f : Stored) (x : Nat × Nat), s.cav.poisonSpill.contains r.id = false → s.stored r.id = some f → s.chargeFor q r.cells = some x →
        ∃ t, exec (.spillReturn q .clean) s = .next t ∧ t.cav.queues[q].refs = [{ r with spilled := false }] ∧
          t.reg48 Reg.SUMP_RETURN_FR_LO = (s.reg48 Reg.SUMP_RETURN_FR_LO + 1) % 2 ^ 48 ∧
          (∀ g : Stored, t.stored r.id = some g → ∀ a, (∀ c ∈ g.cells, a < cellAddr c.chamber.val c.row ∨ cellAddr c.chamber.val c.row + 256 ≤ a) →
            t.byte a = s.byte a))) ∧
    (s.sumpReady = true → ∃ t, exec .sumpReadyFall s = .next t ∧ t.sumpReady = false ∧ t.bit Reg.SUMP_STATUS 1 = false ∧
      t.fld Reg.SUMP_STATUS 5 4 = 0 ∧ SameMemory s t)

/-- A write of SUMP_TRAIN.START that takes effect where Sump is fitted, trains no training and is not in the limited RUN
starts training with a listed geometry, which leaves Sump not ready until it ends, and fails at once with one that is
not listed. The end of a training leaves Sump trained and ready with both counter banks cleared, or shows the failure.
Patrol moves on by one unit, and after the last begins again and counts a pass; a corrected read is counted. A pop drops
the oldest record of the FIFO. The refresh follows the temperature read while Sump is ready. Completion: under the
conditions given on state and operands alone, exec answers a next state for SUMP_TRAIN, SUMP_TRAINING_END,
SUMP_PATROL_SCRUB, SUMP_UE_POP, MPR_TEMPERATURE_READ. -/
def Obligations.SumpTraining : Prop :=
  ∀ s : State, s.coreOn = true →
    (∀ (m : Master) (data : Word), s.Takes m Reg.SUMP_TRAIN → data.getLsbD 0 = true → s.bit Reg.GLB_MODE 3 = false →
      s.bit Reg.SUMP_STATUS 0 = true → s.bit Reg.SUMP_TRAIN 0 = false → s.sumpReady = false →
      (geomSize (s.reg Reg.SUMP_GEOM) ≠ 0 → ∃ t, exec (.sumpTrain m data) s = .next t ∧ t.bit Reg.SUMP_TRAIN 0 = true ∧
        t.sumpReady = false ∧ t.cav = s.cav ∧ SameRegsBut [Reg.SUMP_TRAIN, Reg.SUMP_STATUS] s t ∧ SameMemory s t) ∧
      (geomSize (s.reg Reg.SUMP_GEOM) = 0 → ∃ t, exec (.sumpTrain m data) s = .next t ∧ t.bit Reg.SUMP_TRAIN 0 = false ∧
        t.bit Reg.SUMP_STATUS 9 = true ∧ t.cav = s.cav ∧ SameRegsBut [Reg.SUMP_TRAIN, Reg.SUMP_STATUS] s t ∧ SameMemory s t)) ∧
    (s.bit Reg.SUMP_TRAIN 0 = true →
      (geomSize (s.reg Reg.SUMP_GEOM) ≠ 0 → ∃ t, exec (.sumpTrainingEnd true) s = .next t ∧ t.bit Reg.SUMP_STATUS 1 = true ∧
        t.sumpReady = true ∧ t.fld Reg.SUMP_STATUS 5 4 = geomSize (s.reg Reg.SUMP_GEOM) ∧ t.bit Reg.SUMP_TRAIN 0 = false ∧
        t.cav.countersA = [] ∧ t.cav.countersB = [] ∧ SameRegsBut [Reg.SUMP_TRAIN, Reg.SUMP_STATUS, Reg.CNT_SNAP_STATUS] s t ∧
        SameMemory s t) ∧
      (∃ t, exec (.sumpTrainingEnd false) s = .next t ∧ t.bit Reg.SUMP_STATUS 9 = true ∧ t.bit Reg.SUMP_TRAIN 0 = false ∧
        t.cav = s.cav ∧ SameRegsBut [Reg.SUMP_TRAIN, Reg.SUMP_STATUS] s t ∧ SameMemory s t)) ∧
    (s.bit Reg.SUMP_CFG 1 = true → s.sumpReady = true →
      (s.fld Reg.SUMP_PATROL_POS 26 0 + 1 < s.sumpUnits → ∃ t, exec (.sumpPatrolScrub .corrected) s = .next t ∧ Counted Reg.SUMP_CE s t ∧
        (t.reg Reg.SUMP_PATROL_POS).toNat = s.fld Reg.SUMP_PATROL_POS 26 0 + 1 ∧
        SameRegsBut [Reg.SUMP_CE, Reg.SUMP_PATROL_POS] s t ∧ SameMemory s t) ∧
      (s.sumpUnits ≤ s.fld Reg.SUMP_PATROL_POS 26 0 + 1 → ∃ t, exec (.sumpPatrolScrub .clean) s = .next t ∧
        t.reg Reg.SUMP_PATROL_POS = 0 ∧ Counted Reg.SUMP_PATROL_PASSES s t ∧
        SameRegsBut [Reg.SUMP_PATROL_PASSES, Reg.SUMP_PATROL_POS] s t ∧ SameMemory s t)) ∧
    (∀ (m : Master) (data : Word), s.Takes m Reg.SUMP_UE_POP → ∃ t, exec (.sumpUePop m data) s = .next t ∧
      t.cav.ueFifo = s.cav.ueFifo.drop 1 ∧ t.cav.queues = s.cav.queues ∧ SameMemory s t) ∧
    (∀ hot : Bool, s.sumpReady = true → ∃ t, exec (.mprTemperatureRead hot) s = .next t ∧ t.bit Reg.SUMP_STATUS 6 = hot ∧
      SameRegsBut [Reg.SUMP_STATUS] s t ∧ t.cav = s.cav ∧ SameMemory s t)

/-- With the scrubber on a scrub reads the next row, and after the last of 98,304 begins again and counts a sweep; a
corrected word is counted for its chamber. BIST that finds no bad chamber shows BIST_DONE. A chamber over its limit of
uncorrectable errors that serves logical chamber c is marked bad: with the spare unused c moves to it and its map epoch
rises; with the spare in use c is fenced, which asserts FAULT_N. Completion: under the conditions given on state and
operands alone, exec answers a next state for CAVERN_SCRUB, CAVERN_BIST_END, CHAMBER_FAIL. -/
def Obligations.ChambersOfCavern : Prop :=
  ∀ s : State, s.coreOn = true →
    (s.bit Reg.CAV_CFG 0 = true →
      (s.cav.scrubRow + 1 < 98304 → ∀ c : ChamberIx, ∃ t, exec (.cavernScrub [(c, .corrected)]) s = .next t ∧
        t.cav.scrubRow = s.cav.scrubRow + 1 ∧ Counted (Reg.CAV_CH_CE c.val) s t ∧ SameRegsBut [Reg.CAV_CH_CE c.val] s t ∧ SameMemory s t) ∧
      (98304 ≤ s.cav.scrubRow + 1 → ∃ t, exec (.cavernScrub []) s = .next t ∧ t.cav.scrubRow = 0 ∧ Counted Reg.CAV_SCRUB_PASSES s t ∧
        SameRegsBut [Reg.CAV_SCRUB_PASSES] s t ∧ SameMemory s t)) ∧
    (s.cav.bistRun = true → ∃ t, exec (.cavernBistEnd 0) s = .next t ∧ t.cav.bistRun = false ∧ t.bit Reg.CAV_STATUS 0 = true ∧
      SameRegsBut [Reg.CAV_STATUS] s t ∧ SameMemory s t) ∧
    (∀ (ph : ChamberIx) (c : Fin 16), s.cav.chamberBad.getLsbD ph.val = false → s.overUeLimit ph = true → s.servedBy ph = some c →
      s.cav.waiting = [] →
      (s.bit Reg.CAV_STATUS 1 = false → s.bit Reg.CAV_STATUS 2 = false → ∃ t, exec (.chamberFail ph) s = .next t ∧
        t.cav.chamberBad.getLsbD ph.val = true ∧ t.cav.chamberOf[c] = 16 ∧ t.cav.mapEpoch[c] = s.cav.mapEpoch[c] + 1 ∧
        t.bit Reg.CAV_STATUS 1 = true ∧ SameMemory s t) ∧
      (s.bit Reg.CAV_STATUS 1 = true → ∃ t, exec (.chamberFail ph) s = .next t ∧ t.cav.chamberBad.getLsbD ph.val = true ∧
        t.bit Reg.CAV_STATUS (9 + c.val) = true ∧ .chamberFenced ∈ t.faultN ∧ t.cav.chamberOf = s.cav.chamberOf ∧ SameMemory s t))

/-- In RUN with a supervisor: a plan that does not follow from its inputs (the choice of log 97) does nothing, and one that
follows and breaks R221 is counted in SCHED_PLAN_REJECT and commits nothing; the oldest addition queued is refused with
it. A plan that keeps it, and a plan kept to be retried, waits with its target for the next beat while a group of it has
a pending commit; where every commit of its groups is accepted it is committed, nothing is left to retry and the
requests that it carries are done; where one is refused it is counted in SCHED_PLAN_FAIL and kept to begin again. A
request to add or remove a tunnel that no check refuses is queued; any other is answered with its code and queues
nothing. Completion: under the conditions given on state and operands alone, exec answers a next state for PLAN_COMPUTE,
PLAN_COMMIT_RETRY, TUNNEL_ADD, TUNNEL_REMOVE. -/
def Obligations.AllotmentPlans : Prop :=
  ∀ s : State, s.coreOn = true →
    (∀ (sup : Master) (plan : Plan), s.supervisor = some sup → s.mode = .run →
      (s.planFollows plan = false → exec (.planCompute plan) s = .next s) ∧
      (s.planFollows plan = true → s.planOk plan = false → ∃ t, exec (.planCompute plan) s = .next t ∧
        Counted Reg.SCHED_PLAN_REJECT s t ∧ t.beat = s.beat ∧ t.sched.tunnels = s.sched.tunnels ∧ SameMemory s t ∧
        (s.sched.requests.find? (·.add) = none → t.sched = s.sched ∧ SameRegsBut [Reg.SCHED_PLAN_REJECT] s t) ∧
        (∀ r, s.sched.requests.find? (·.add) = some r → t.sched.requests = s.sched.requests.erase r ∧
          (s.Inv → t.reg (pmKey r.master Reg.COL_TREQ_RESULT) = 3) ∧
          SameRegsBut [Reg.SCHED_PLAN_REJECT, pmKey r.master Reg.COL_TREQ_RESULT] s t)) ∧
      (∀ (c : Instr) (x : PlanTry), (c = .planCompute plan ∧ s.planFollows plan = true ∧ s.planOk plan = true ∧
            x = { plan := plan, target := none, requests := s.sched.requests }) ∨
          (c = .planCommitRetry ∧ s.sched.retry = some x) →
        ((∃ g ∈ planGroups x.plan, (s.pendingCommit g).isSome = true) → ∃ t, exec c s = .next t ∧
          t.sched.retry = some { x with target := some (x.target.getD (s.planTarget x.plan)) } ∧
          t.beat = s.beat ∧ SameRegsBut [] s t ∧ SameMemory s t) ∧
        (∀ s1 : State, (∀ g ∈ planGroups x.plan, s.pendingCommit g = none) →
          State.commitGroups sup (x.target.getD (s.planTarget x.plan)) (planGroups x.plan) [] (s.writePlan x.plan) = (s1, true) →
          ∃ t, exec c s = .next t ∧ t.sched.retry = none ∧ t.sched.requests = (s.sched.requests.filter fun r => !x.requests.contains r) ∧
            t.beat = s1.beat ∧ SameMemory s t) ∧
        (∀ s1 : State, (∀ g ∈ planGroups x.plan, s.pendingCommit g = none) →
          State.commitGroups sup (x.target.getD (s.planTarget x.plan)) (planGroups x.plan) [] (s.writePlan x.plan) = (s1, false) →
          ∃ t, exec c s = .next t ∧ t.sched.retry = some { x with target := none } ∧ t.sched.requests = s.sched.requests ∧
            Counted Reg.SCHED_PLAN_FAIL s t ∧ SameMemory s t))) ∧
    (∀ (m : Master) (id : BitVec 16), s.Inv → s.Takes m Reg.COL_TREQ_CMD → ∀ c op, (c = .tunnelAdd m id ∧ op = 1) ∨ (c = .tunnelRemove m id ∧ op = 2) →
      (s.treqCode op id.toNat = 0 → ∃ t, exec c s = .next t ∧
        t.sched.requests = s.sched.requests ++ [{ master := m, add := op == 1, tunnel := s.treqTunnel m id.toNat }] ∧
        t.sched.tunnels = s.sched.tunnels ∧ SameRegsBut [] s t ∧ SameMemory s t) ∧
      (s.treqCode op id.toNat ≠ 0 → ∃ t, exec c s = .next t ∧ t.sched = s.sched ∧
        (t.reg (pmKey m Reg.COL_TREQ_RESULT)).toNat = s.treqCode op id.toNat ∧ SameRegsBut [pmKey m Reg.COL_TREQ_RESULT] s t ∧
        SameMemory s t))

/-- An engine whose table runs and that hangs, and an active or spare engine with an uncorrectable error, is counted and
quarantined without its role, which stands without an engine from this head. A role without an engine takes the lowest
spare where AUTO_SPARE is set, which is counted in ENG_TAKEOVERS; without one it becomes vacant and FAULT_N is asserted.
A quarantined engine that passes its self-test is SPARE; one that fails it is FAILED and counted. A command of ENG_CMD
that takes effect stands in ENG_CMD_RESULT by its code. A takeover with code OK waits for the next head, and a retest
with code OK quarantines its engine at once; with another code neither changes an engine or a role. Completion: under
the conditions given on state and operands alone, exec answers a next state for HANG_WATCHDOG, ENGINE_ECC_UE,
SPARE_ASSIGN, ENGINE_SELFTEST_END, ENG_TAKEOVER, ENG_RETEST. -/
def Obligations.EnginesFailAndReturn : Prop :=
  (
    ∀ s : State, s.coreOn = true →
      (∀ (e : EngineIx) (r : RoleIx), s.eng.engines[e].role = some r →
        (s.fld Reg.ENG_CFG 15 0 ≠ 0 → s.eng.roles[r].outstanding ≠ none → s.pwr.state ≠ .layover → ∃ t, exec (.hangWatchdog e) s = .next t ∧ Counted Reg.ENG_HANG s t ∧
          t.eng.engines[e].state = .quarantine ∧ t.eng.engines[e].role = none ∧ t.eng.roles[r].engine = none ∧
          t.eng.roles[r].startHead = some s.heads ∧ SameRegsBut [Reg.ENG_HANG] s t ∧ SameMemory s t) ∧
        (s.eng.engines[e].state = .active → ∃ t, exec (.engineEccUe e) s = .next t ∧ Counted Reg.ENG_ECC_UE s t ∧
          t.eng.engines[e].state = .quarantine ∧ t.eng.roles[r].engine = none ∧ SameRegsBut [Reg.ENG_ECC_UE] s t ∧ SameMemory s t)) ∧
      (∀ r : RoleIx, s.eng.roles[r].engine = none → s.eng.roles[r].vacant = false →
        (∀ e : EngineIx, s.bit Reg.ENG_CFG 16 = true → s.lowestSpare = some e → ∃ t, exec (.spareAssign r) s = .next t ∧
          t.eng.roles[r].engine = some e ∧ t.eng.engines[e].state = .active ∧ t.eng.engines[e].role = some r ∧
          Counted Reg.ENG_TAKEOVERS s t ∧ SameRegsBut [Reg.ENG_TAKEOVERS] s t ∧ SameMemory s t) ∧
        ((s.bit Reg.ENG_CFG 16 = false ∨ s.lowestSpare = none) → ∃ t, exec (.spareAssign r) s = .next t ∧ t.eng.roles[r].vacant = true ∧
          .roleVacant ∈ t.faultN ∧ t.eng.engines = s.eng.engines ∧ SameMemory s t)) ∧
      (∀ e : EngineIx, s.eng.engines[e].state = .quarantine →
        (∃ t, exec (.engineSelftestEnd e true) s = .next t ∧ t.eng.engines[e].state = .spare ∧ t.eng.engines[e].imem = s.eng.code ∧
          t.eng.roles = s.eng.roles ∧ SameRegsBut [] s t ∧ SameMemory s t) ∧
        (∃ t, exec (.engineSelftestEnd e false) s = .next t ∧ t.eng.engines[e].state = .failed ∧ Counted Reg.ENG_SELFTEST_FAIL s t ∧
          t.eng.roles = s.eng.roles ∧ SameRegsBut [Reg.ENG_SELFTEST_FAIL] s t ∧ SameMemory s t))) ∧
  (
    ∀ (s : State) (m : Master) (target : BitVec 5), s.Inv → s.Takes m Reg.ENG_CMD →
      (∃ t, exec (.engTakeover m target) s = .next t ∧ (t.reg (pmKey m Reg.ENG_CMD_RESULT)).toNat = s.engCode 1 target.toNat ∧
        SameRegsBut [Reg.ENG_CMD, pmKey m Reg.ENG_CMD_RESULT] s t ∧ SameMemory s t ∧ t.eng.engines = s.eng.engines ∧ t.eng.roles = s.eng.roles ∧
        (s.engCode 1 target.toNat = 1 → t.eng.takeovers = s.eng.takeovers ++ [⟨target.toNat % 16, Nat.mod_lt _ (by decide)⟩]) ∧
        (s.engCode 1 target.toNat ≠ 1 → t.eng = s.eng)) ∧
      (∃ t, exec (.engRetest m target) s = .next t ∧ (t.reg (pmKey m Reg.ENG_CMD_RESULT)).toNat = s.engCode 2 target.toNat ∧
        SameRegsBut [Reg.ENG_CMD, pmKey m Reg.ENG_CMD_RESULT] s t ∧ SameMemory s t ∧ t.eng.roles = s.eng.roles ∧
        (s.engCode 2 target.toNat = 1 → ∀ e : EngineIx, e.val = target.toNat → t.eng.engines[e].state = .quarantine) ∧
        (s.engCode 2 target.toNat ≠ 1 → t.eng = s.eng)))

/-- A running Column whose pair differs halts, counted in COL_MISMATCH: it restores its image while it has not halted more
often in 16,000 heads than COL_CFG allows, and is else FAILED with FAULT_N asserted. At the end of the copy every byte
of the working half reads as the image half did, and every byte outside the working half as before. The table of a role
or a Column that retires is no longer outstanding, and the descriptors that its tasks took leave the inbox (of a role,
where the agents have acted on what the inboxes hold). Completion: under the conditions given on state and operands
alone, exec answers a next state for COLUMN_MISMATCH, COLUMN_IMAGE_COPY_END, TASK_TABLE_RETIRE. -/
def Obligations.ColumnRestarts : Prop :=
  ∀ s : State, s.Inv → s.coreOn = true →
    (∀ c : ColumnIx, s.eng.columns[c].state = .running →
      ((s.eng.columns[c].restarts.filter fun h => decide (s.heads < h + 16000)).length + 1 ≤ s.fld Reg.COL_CFG 7 0 →
        ∃ t, exec (.columnMismatch c) s = .next t ∧ t.eng.columns[c].state = .restoring ∧ t.eng.columns[c].ready = false ∧
          Counted (Reg.COL_MISMATCH c.val) s t ∧ SameRegsBut [Reg.COL_MISMATCH c.val, Reg.LOG_LOST] s t ∧ SameMemory s t) ∧
      (s.fld Reg.COL_CFG 7 0 < (s.eng.columns[c].restarts.filter fun h => decide (s.heads < h + 16000)).length + 1 →
        ∃ t, exec (.columnMismatch c) s = .next t ∧ t.eng.columns[c].state = .failed ∧ .columnFailed ∈ t.faultN ∧
          Counted (Reg.COL_MISMATCH c.val) s t ∧ SameRegsBut [Reg.COL_MISMATCH c.val, Reg.LOG_LOST] s t ∧ SameMemory s t)) ∧
    (∀ c : ColumnIx, s.eng.columns[c].state = .restoring → ∃ t, exec (.columnImageCopyEnd c) s = .next t ∧
      t.eng.columns[c].copyDone = true ∧ SameRegsBut [] s t ∧
      (∀ i, i < 0x20000 → t.byte (0x300000000 + c.val * 0x100000 + i) = s.byte (0x300000000 + c.val * 0x100000 + 0x20000 + i)) ∧
      (∀ a, a < 0x300000000 + c.val * 0x100000 ∨ 0x300000000 + c.val * 0x100000 + 0x20000 ≤ a → t.byte a = s.byte a)) ∧
    (∀ (r : RoleIx) (k : Nat), s.eng.roles[r].outstanding = some k → ∃ t, exec (.taskTableRetire (.role r)) s = .next t ∧
      t.eng.roles[r].outstanding = none ∧
      ((∀ x : RoleIx, s.eng.roles[x].engine.isSome = true → ∀ d ∈ s.eng.roles[x].inbox, d.acted = true) →
        t.eng.roles[r].inbox = s.eng.roles[r].inbox.drop (takenBy (s.eng.roles[r].table.getD k []) s.eng.roles[r].inbox.length) ∧
        SameMemory s t)) ∧
    (∀ (c : ColumnIx) (k : Nat), s.eng.columns[c].outstanding = some k → ∃ t, exec (.taskTableRetire (.column c)) s = .next t ∧
      t.eng.columns[c].outstanding = none ∧ t.eng.columns[c].inbox = s.eng.columns[c].inbox.drop
        (takenBy (s.eng.columns[c].table.getD k []) s.eng.columns[c].inbox.length) ∧ SameMemory s t)

/-- A 32-bit write by a master that takes effect on TUN_CFG changes that register alone, to the fields written. A write that
breaks the GRD rule answers with a bus error, counted with the denial, and changes no other register and no byte. In RUN
a bit alias of TUN_CFG changes that one bit; outside RUN it is a bus error. A write of an engine that is a zombie item,
or of an engine without a role, is dropped and counted in DEP_ZOMBIE_WR. A read of a counter's _LO word captures its _HI
word for that master. A write of any other value to GLB_UNLOCK that takes effect disarms its master and counts in
GLB_UNLOCK_FAIL, the other masters as they were, but for masters 0x04 and 0x09, which hold no arming that it changes.
UNLOCK_LAPSE disarms the master it names where its arming has seen its second head, no other, and changes nothing else.
Completion: under the conditions given on state and operands alone, exec answers a next state for REGISTER_WRITE,
ALIAS_WRITE, COUNTER_LO_READ, GLB_UNLOCK_WRITE, UNLOCK_LAPSE. -/
def Obligations.AccessesAndArming : Prop :=
  (
    ∀ (s : State) (m : Master), s.coreOn = true →
      (∀ data : Word, s.Takes m Reg.TUN_CFG → ∃ t, exec (.registerWrite m (BitVec.ofNat 40 Reg.TUN_CFG) 4 (data.setWidth 64) none) s = .next t ∧
        t.fld Reg.TUN_CFG 4 0 = bitsOf data 4 0 ∧ t.bit Reg.TUN_CFG 5 = data.getLsbD 5 ∧ SameRegsBut [Reg.TUN_CFG] s t ∧ SameMemory s t) ∧
      (∀ (a : Nat) (r : RegRow) (data : Word), a < 0x1000000 → a % 4 = 0 → regRow a = some r → s.Admits m .write a 4 → r.bits .grd &&& 0xFFFFFFFF ≠ 0 → s.armed m = false →
        ∃ t, exec (.registerWrite m (BitVec.ofNat 40 a) 4 (data.setWidth 64) none) s = .next t ∧ Counted Reg.GLB_GRD_DENY s t ∧
          Counted Reg.GLB_BUS_ERR s t ∧ t.sent = .accessError m false :: s.sent ∧
          SameRegsBut [Reg.GLB_GRD_DENY, Reg.GLB_BUS_ERR, Reg.GLB_BUS_ERR_LAST_LO, Reg.GLB_BUS_ERR_LAST_HI] s t ∧ SameMemory s t) ∧
      (∀ data : BitVec 64, s.Admits m .write (0x100000000 + Reg.TUN_CFG * 32 + 20) 4 →
        (s.mode = .run → ∃ t, exec (.aliasWrite m (BitVec.ofNat 40 (0x100000000 + Reg.TUN_CFG * 32 + 20)) 4 ⟨data, none⟩) s = .next t ∧
          t.bit Reg.TUN_CFG 5 = data.getLsbD 0 ∧ t.fld Reg.TUN_CFG 4 0 = s.fld Reg.TUN_CFG 4 0 ∧ SameRegsBut [Reg.TUN_CFG] s t ∧
          SameMemory s t) ∧
        (s.mode ≠ .run → ∃ t, exec (.aliasWrite m (BitVec.ofNat 40 (0x100000000 + Reg.TUN_CFG * 32 + 20)) 4 ⟨data, none⟩) s = .next t ∧
          Counted Reg.GLB_BUS_ERR s t ∧ SameRegsBut [Reg.GLB_BUS_ERR, Reg.GLB_BUS_ERR_LAST_LO, Reg.GLB_BUS_ERR_LAST_HI] s t ∧
          SameMemory s t)) ∧
      (∀ (e : EngineIx) (addr : BitVec 40) (size : Nat) (data : BitVec 64) (tag : Option EngineTag), Master.engine m = some e → s.made m size = true →
        (∀ g, tag = some g → g.engine = e ∧ s.isZombie g = true) → (tag = none → s.roleless m = true) →
        ∀ c, c = .registerWrite m addr size data tag ∨ c = .aliasWrite m addr size ⟨data, tag⟩ →
        ∃ t, exec c s = .next t ∧ Counted Reg.DEP_ZOMBIE_WR s t ∧
          SameRegsBut [Reg.DEP_ZOMBIE_WR, Reg.DEP_ZOMBIE_LAST] s t ∧ SameMemory s t ∧ t.acc = s.acc) ∧
      (∀ a : Nat, a < 0x1000000 → a % 4 = 0 → isLo48 a = true → s.Admits m .read a 4 →
        s.ownRule m a false = false → s.acc.capture[m] = none →
        ∃ t, exec (.counterLoRead m (BitVec.ofNat 40 a) 4) s = .next t ∧
          t.acc.capture[m] = some (a + 4, BitVec.ofNat 16 (s.fld (a + 4) 15 0)) ∧ SameRegsBut [] s t ∧ SameMemory s t)) ∧
  (
    ∀ (s : State) (m : Master), s.coreOn = true →
      (∀ data : Word, data ≠ 0x7A5C1E09 → s.Takes m Reg.GLB_UNLOCK → ∃ t, exec (.glbUnlockWrite m data) s = .next t ∧
        (m.val ≠ 4 → m.val ≠ 9 → t.acc.unlock[m] = none) ∧ (m.val = 4 ∨ m.val = 9 → t.acc.unlock[m] = s.acc.unlock[m]) ∧
        (∀ j : Master, j ≠ m → t.acc.unlock[j] = s.acc.unlock[j]) ∧ Counted Reg.GLB_UNLOCK_FAIL s t ∧
        SameRegsBut [Reg.GLB_UNLOCK_FAIL] s t ∧ SameMemory s t) ∧
      (∀ n, s.acc.unlock[m] = some n → 2 ≤ n → ∃ t, exec (.unlockLapse m) s = .next t ∧ t.acc.unlock[m] = none ∧
        (∀ j : Master, j ≠ m → t.acc.unlock[j] = s.acc.unlock[j]) ∧ t.regs = s.regs ∧ t.mem = s.mem) ∧
      (∀ n, s.acc.unlock[m] = some n → n < 2 → exec (.unlockLapse m) s = .next s))

/-- An access that the check refuses is no bus error: it leaves GLB_BUS_ERR, every byte and every unlock as they are, and
its master is told of the refusal. A MGMT request whose first access is refused is answered with STATUS 2 and DONE 0,
and makes no further access. A write-back of a Column that runs is refused in the same way, the refusal reaches it, and
a dirty line leaves its cache, its data lost. Completion: under the conditions given on state and operands alone, exec
answers a next state for MEMORY_ACCESS, CACHE_WRITEBACK, MGMT_READ_REQUEST, MGMT_WRITE_REQUEST. -/
def Obligations.RefusedAccess : Prop :=
  ∀ s : State, s.coreOn = true →
    (∀ a : Access, s.made a.master a.size = true → s.zombieWrite a.master a.kind a.tag = none → s.roleless a.master = false →
      (s.checkAccess a.master a.kind a.addr.toNat a.size).ok = false →
      ∃ t, exec (.memoryAccess a) s = .next t ∧ t.reg Reg.GLB_BUS_ERR = s.reg Reg.GLB_BUS_ERR ∧ t.acc.unlock = s.acc.unlock ∧
        t.sent = .accessError a.master true :: s.sent ∧ SameRegsBut [Reg.MPU_FAULTS, Reg.MPU_FAULT_OVF] s t ∧ SameMemory s t) ∧
    (∀ (c : ColumnIx) (addr : BitVec 40) (data : List Byte), (s.colLine c addr.toNat).filter (·.dirty) = none →
      s.made ⟨c.val, by omega⟩ data.length = true → (s.checkAccess ⟨c.val, by omega⟩ .write addr.toNat data.length).ok = false →
      ∃ t, exec (.cacheWriteback c addr data) s = .next t ∧ t.reg Reg.GLB_BUS_ERR = s.reg Reg.GLB_BUS_ERR ∧ t.acc.unlock = s.acc.unlock ∧
        t.sent = .accessError ⟨c.val, by omega⟩ true :: s.sent ∧ SameRegsBut [Reg.MPU_FAULTS, Reg.MPU_FAULT_OVF] s t ∧ SameMemory s t) ∧
    (∀ (c : ColumnIx) (addr : BitVec 40) (data : List Byte) (l : ColLine), s.colLine c addr.toNat = some l → l.dirty = true →
      s.made ⟨c.val, by omega⟩ 64 = true → (s.checkAccess ⟨c.val, by omega⟩ .write (64 * l.line) l.bytes.length).ok = false →
      ∃ t, exec (.cacheWriteback c addr data) s = .next t ∧ t.colLine c addr.toNat = none ∧ t.reg Reg.GLB_BUS_ERR = s.reg Reg.GLB_BUS_ERR ∧
        t.acc.unlock = s.acc.unlock ∧ t.sent = .accessError ⟨c.val, by omega⟩ true :: s.sent ∧
        SameRegsBut [Reg.MPU_FAULTS, Reg.MPU_FAULT_OVF] s t ∧ SameMemory s t) ∧
    (∀ (srcEp : EpId) (tc : BitVec 3) (req : MgmtRequest), req.ok = true → s.pwr.state = .active →
      (s.checkAccess 7 (if req.op = 1 then .read else .write) req.addr.toNat 4).ok = false → (req.op = 2 → req.data ≠ []) →
      ∀ c, c = .mgmtReadRequest srcEp tc req ∨ c = .mgmtWriteRequest srcEp tc req →
      ∃ t, exec c s = .next t ∧ t.reg Reg.GLB_BUS_ERR = s.reg Reg.GLB_BUS_ERR ∧ t.acc.unlock = s.acc.unlock ∧
        SameRegsBut [Reg.MPU_FAULTS, Reg.MPU_FAULT_OVF] s t ∧ SameMemory s t ∧
        ∃ data, t.sent = .mgmtReply srcEp tc (replyOp req.op) req.tag req.count 0 2 data :: s.sent)

/-- A permitted write of a whole access to the working half of a Column's TCM, by MEMORY_ACCESS and not through a Column's
cache, stores its bytes from its address on and changes no other byte; so does a permitted write-back of a Column that
runs to a ready Sump's Column region, of the dirty line that its cache holds or else of the bytes given, and in TEST a
word written to the Cavern diagnostic window, least significant byte first. Outside TEST a write to that window is a bus
error that stores nothing. No register changes. Completion: under the conditions given on state and operands alone, exec
answers a next state for MEMORY_ACCESS, CACHE_WRITEBACK, CAVERN_DIAG_WRITE. -/
def Obligations.StoredBytes : Prop :=
  ∀ s : State, s.Inv → s.coreOn = true →
    (∀ a : Access, a.kind = .write → s.made a.master a.size = true → s.zombieWrite a.master .write a.tag = none → s.roleless a.master = false →
      a.data.length = a.size → (s.checkAccess a.master .write a.addr.toNat a.size).ok = true → s.Uncached a.master .write a.addr.toNat a.size →
      (∀ i, i < a.size → s.targetOf (a.addr.toNat + i) = .tcm false) →
      ∃ t, exec (.memoryAccess a) s = .next t ∧ SameRegsBut [] s t ∧
        (∀ i, i < a.size → t.byte (a.addr.toNat + i) = a.data.getD i 0) ∧
        (∀ b, b < a.addr.toNat ∨ a.addr.toNat + a.size ≤ b → t.byte b = s.byte b)) ∧
    (∀ (c : ColumnIx) (addr : BitVec 40) (data : List Byte), (s.colLine c addr.toNat).filter (·.dirty) = none → s.sumpReady = true →
      s.made ⟨c.val, by omega⟩ data.length = true → (s.checkAccess ⟨c.val, by omega⟩ .write addr.toNat data.length).ok = true →
      (∀ i, i < data.length → s.targetOf (addr.toNat + i) = .columns) →
      ∃ t, exec (.cacheWriteback c addr data) s = .next t ∧ SameRegsBut [] s t ∧
        (∀ i, i < data.length → t.byte (addr.toNat + i) = data.getD i 0) ∧
        (∀ b, b < addr.toNat ∨ addr.toNat + data.length ≤ b → t.byte b = s.byte b)) ∧
    (∀ (c : ColumnIx) (addr : BitVec 40) (data : List Byte) (l : ColLine), s.colLine c addr.toNat = some l → l.dirty = true →
      l.bytes.length = 64 → s.sumpReady = true → s.made ⟨c.val, by omega⟩ 64 = true → (s.checkAccess ⟨c.val, by omega⟩ .write (64 * l.line) 64).ok = true →
      (∀ i, i < 64 → s.targetOf (64 * l.line + i) = .columns) →
      ∃ t, exec (.cacheWriteback c addr data) s = .next t ∧ t.colLine c addr.toNat = none ∧ SameRegsBut [] s t ∧
        (∀ i, i < 64 → t.byte (64 * l.line + i) = l.bytes.getD i 0) ∧
        (∀ b, b < 64 * l.line ∨ 64 * l.line + 64 ≤ b → t.byte b = s.byte b)) ∧
    (∀ (m : Master) (addr : BitVec 40) (data : Word), s.Admits m .write addr.toNat 4 → s.Uncached m .write addr.toNat 4 →
      (∀ i, i < 4 → s.targetOf (addr.toNat + i) = .diag) →
      (s.mode = .test → ∃ t, exec (.cavernDiagWrite m addr data) s = .next t ∧ SameRegsBut [] s t ∧
        (∀ i, i < 4 → t.byte (addr.toNat + i) = data.extractLsb' (8 * i) 8) ∧
        (∀ b, b < addr.toNat ∨ addr.toNat + 4 ≤ b → t.byte b = s.byte b)) ∧
      (s.mode ≠ .test → exec (.cavernDiagWrite m addr data) s = .next (s.emit (.accessError m false))))

/-- A write of the unlock key to GLB_UNLOCK that takes effect arms its master, unless it is one of the masters 0x04 and
0x09, which need no arming, and no other, and changes nothing else but the capture that any register access ends.
Whichever of SPI and I2C the car computer uses, its write does the same; so a write by one of them (to MON_CFG, in
ACTIVE) consumes an arming made over the other. Completion: under the conditions given on state and operands alone, exec
answers a next state for GLB_UNLOCK_WRITE, CAR_WRITE. -/
def Obligations.UnlockArming : Prop :=
  ∀ s : State, s.coreOn = true →
    (∀ m : Master, s.Takes m Reg.GLB_UNLOCK → ∃ t, exec (.glbUnlockWrite m 0x7A5C1E09) s = .next t ∧
      (m.val ≠ 4 → m.val ≠ 9 → t.acc.unlock[m] = some 0) ∧
      (∀ j : Master, j ≠ m → t.acc.unlock[j] = s.acc.unlock[j]) ∧ SameRegsBut [] s t ∧ SameMemory s t ∧ t.sent = s.sent) ∧
    (∀ (a : BitVec 7) (count : Byte) (addr : CarAddr) (data : List Byte), a.toNat = 0x2C + s.hubSeat →
      exec (.carWrite .spi count addr data) s = exec (.carWrite (.i2c a) count addr data) s) ∧
    (∀ (via : CarPort) (addr : CarAddr) (data : List Byte), s.carHears via = true → s.pwr.state = .active → s.Takes 5 Reg.MON_CFG →
      carAddr addr = BitVec.ofNat 40 Reg.MON_CFG → 4 ≤ data.length → ∃ t, exec (.carWrite via 1 addr data) s = .next t ∧ t.acc.unlock[(5 : Master)] = none)

/-- A write of CNT_SNAP_CMD with SNAP alone that takes effect makes a request pending and shows no SNAP_READY, unless Sump
is ready and the other bank is frozen or being cleared: then it is refused and counted in CNT_SNAP_REFUSED. A release of
a frozen bank begins its clearing; at the end of the clearing the bank that is not live holds zero pairs, after a
training both. Completion: under the conditions given on state and operands alone, exec answers a next state for
SNAPSHOT_REQUEST, BANK_RELEASE, BANK_CLEAR_END. -/
def Obligations.SnapshotsAndBanks : Prop :=
  ∀ s : State, s.Inv → s.coreOn = true →
    (∀ (m : Master) (data : Word), s.Takes m Reg.CNT_SNAP_CMD → data.getLsbD 0 = true → data.getLsbD 1 = false → s.acc.snapPending = false →
      ((s.sumpReady = false ∨ (s.bit Reg.CNT_SNAP_STATUS 2 = false ∧ s.bit Reg.CNT_SNAP_STATUS 3 = false)) →
        ∃ t, exec (.snapshotRequest m data) s = .next t ∧ t.acc.snapPending = true ∧ t.bit Reg.CNT_SNAP_STATUS 0 = false ∧
          t.bit Reg.CNT_SNAP_STATUS 4 = false ∧ SameRegsBut [Reg.CNT_SNAP_STATUS] s t ∧ SameMemory s t) ∧
      (s.sumpReady = true → (s.bit Reg.CNT_SNAP_STATUS 2 = true ∨ s.bit Reg.CNT_SNAP_STATUS 3 = true) →
        ∃ t, exec (.snapshotRequest m data) s = .next t ∧ t.acc.snapPending = false ∧ t.bit Reg.CNT_SNAP_STATUS 4 = true ∧
          Counted Reg.CNT_SNAP_REFUSED s t ∧ SameRegsBut [Reg.CNT_SNAP_STATUS, Reg.CNT_SNAP_REFUSED] s t ∧ SameMemory s t)) ∧
    (∀ m : Master, s.Takes m Reg.CNT_SNAP_CMD → s.bit Reg.CNT_SNAP_STATUS 2 = true → s.bit Reg.CNT_SNAP_STATUS 3 = false →
      ∃ t, exec (.bankRelease m) s = .next t ∧ t.bit Reg.CNT_SNAP_STATUS 2 = false ∧ t.bit Reg.CNT_SNAP_STATUS 3 = true ∧
        SameRegsBut [Reg.CNT_SNAP_STATUS] s t ∧ SameMemory s t) ∧
    (s.bit Reg.CNT_SNAP_STATUS 3 = true → ∃ t, exec .bankClearEnd s = .next t ∧ t.bit Reg.CNT_SNAP_STATUS 3 = false ∧
      (s.bit Reg.CNT_SNAP_STATUS 1 = true ∨ s.cav.bothClearing = true → t.cav.countersA = []) ∧
      (s.bit Reg.CNT_SNAP_STATUS 1 = false ∨ s.cav.bothClearing = true → t.cav.countersB = []) ∧
      SameRegsBut [Reg.CNT_SNAP_STATUS] s t ∧ SameMemory s t)

/-- A write of MPU_SYNC that takes effect starts its master's barrier, waiting for every change accepted so far. The oldest
change takes effect: its register holds its word under the rules in force, and every barrier waits for one less. The end
of a barrier puts the changes it waits for in force, in their order. A pop drops the oldest fault record and no other.
Completion: under the conditions given on state and operands alone, exec answers a next state for MPU_SYNC_WRITE,
MPU_BARRIER_DONE, RULE_CHANGE_EFFECT, MPU_FAULT_POP. -/
def Obligations.RuleChanges : Prop :=
  ∀ (s : State), s.Inv → s.coreOn = true →
    (∀ (m : Master) (data : Word), s.Takes m Reg.MPU_SYNC → ∃ t, exec (.mpuSyncWrite m data) s = .next t ∧
      t.acc.barrier[m] = some s.acc.changes.length ∧ t.acc.changes = s.acc.changes ∧ SameRegsBut [] s t ∧ SameMemory s t) ∧
    (∀ (m : Master) (n : Nat), s.acc.barrier[m] = some n → ∃ t, exec (.mpuBarrierDone m) s = .next t ∧ t.acc.barrier[m] = none ∧
      (∀ a, t.rule a = (((s.acc.changes.take n).filter fun x => x.1 == a).getLast?.map fun x => x.2.toNat).getD (s.rule a)) ∧
      t.acc.changes = s.acc.changes.drop n ∧ t.regs = s.regs ∧ t.mem = s.mem) ∧
    (∀ (a : Nat) (w : Word) (rest : List (Nat × Word)), s.acc.changes = (a, w) :: rest → ∃ t, exec .ruleChangeEffect s = .next t ∧
      t.acc.changes = rest ∧ t.rule a = w.toNat ∧ (∀ b, b ≠ a → t.rule b = s.rule b) ∧
      (∀ m : Master, t.acc.barrier[m] = s.acc.barrier[m].map (· - 1)) ∧ t.regs = s.regs ∧ t.mem = s.mem) ∧
    (∀ (m : Master) (data : Word), s.Takes m Reg.MPU_FAULT_POP → ∃ t, exec (.mpuFaultPop m data) s = .next t ∧
      t.acc.faults = s.acc.faults.drop 1 ∧ t.acc.changes = s.acc.changes ∧ SameRegsBut [] s t ∧ SameMemory s t)

/-- A MGMT request is answered to its source with its TC, TAG and COUNT, DONE and STATUS of its accesses and, for a read,
the words read, where it is no wake source. A request to the maintenance function queues its reply: STATUS 2 and DONE 0
without an access while no session is open, and while one is open DONE and STATUS of its accesses, counted as served; a
STATUS other than 0 is counted in USB_MF_REFUSED, and the packet is answered. One that bulk OUT cannot take is answered
and changes no reply. On SPI, and on I2C at the hub's own address and no other, a car read is answered with COUNT words,
DONE and STATUS, up to where the car computer ends it; one that it ends on SPI before the accesses have is answered with
0xFF alone, some of its accesses made. A car write that is not whole, or breaks R137, makes no access and leaves DONE 0
and STATUS 3, a whole one leaves those of its accesses; the status read answers what stands, and any other opcode does
nothing. How many bytes of 0xFF go before an answer on SPI is a free value. Completion: under the conditions given on
state and operands alone, exec answers a next state for MGMT_READ_REQUEST, MGMT_WRITE_REQUEST, BULK_OUT_REQUEST,
CAR_READ, CAR_WRITE, CAR_WRITE_STATUS. -/
def Obligations.RequestsServed : Prop :=
  ∀ s : State, s.coreOn = true →
    (∀ (srcEp : EpId) (tc : BitVec 3) (req : MgmtRequest), (s.serve 7 req).state.bit Reg.PWR_WAKE_EN 2 = false →
      ∀ c, c = .mgmtReadRequest srcEp tc req ∨ c = .mgmtWriteRequest srcEp tc req → exec c s =
        .next ((s.serve 7 req).state.emit (.mgmtReply srcEp tc (replyOp req.op) req.tag req.count (BitVec.ofNat 8 (s.serve 7 req).done)
          (BitVec.ofNat 8 (s.serve 7 req).status) (replyData req (s.serve 7 req))))) ∧
    (∀ req : MgmtRequest, s.mfReached = true → s.bit Reg.PWR_WAKE_EN 0 = false →
      (s.bulkFree = false → ∃ t, exec (.bulkOutRequest req) s = .next t ∧ (∃ r, t.sent = .usbBulk r :: s.sent) ∧
        t.usb.replies = s.usb.replies ∧ SameRegsBut [] s t ∧ SameMemory s t) ∧
      (s.bulkFree = true → s.mfSession ≠ 1 → ∃ t, exec (.bulkOutRequest req) s = .next t ∧ Counted Reg.USB_MF_REFUSED s t ∧
        t.usb.replies = s.usb.replies ++ [⟨replyOp req.op, req.tag, req.count, 0, 2, replyData req ⟨s, [], 0, 2⟩⟩] ∧
        (∃ r, t.sent = .usbBulk r :: s.sent) ∧ SameRegsBut [Reg.USB_MF_REFUSED, Reg.USB_NYET] s t ∧ SameMemory s t) ∧
      (s.bulkFree = true → s.mfSession = 1 → ∀ x : Served, x = s.serve 6 req → x.state.bit Reg.PWR_WAKE_EN 0 = false →
        ∃ t, exec (.bulkOutRequest req) s = .next t ∧
          t.usb.replies = x.state.usb.replies ++ [⟨replyOp req.op, req.tag, req.count, BitVec.ofNat 8 x.done,
            BitVec.ofNat 8 x.status, replyData req x⟩] ∧
          t.reg48 Reg.USB_MF_REQ_LO = (x.state.reg48 Reg.USB_MF_REQ_LO + 1) % 2 ^ 48 ∧
          (x.status ≠ 0 → Counted Reg.USB_MF_REFUSED x.state t) ∧ (∃ r, t.sent = .usbBulk r :: x.state.sent) ∧
          SameRegsBut [Reg.USB_MF_REFUSED, Reg.USB_MF_REQ_LO, Reg.USB_MF_REQ_LO + 4, Reg.USB_NYET] x.state t ∧
          SameMemory x.state t)) ∧
    (∀ (via : CarPort) (count : CarCount) (addr : CarAddr) (data : List Byte) (op : Byte), s.carHears via = false →
      ∀ c, c = .carRead via count addr ∨ c = .carWrite via count.count addr data ∨ c = .carWriteStatus ⟨via, op⟩ → exec c s = .next s) ∧
    (s.bit Reg.PWR_WAKE_EN 1 = false → ∀ (via : CarPort) (count : Byte) (addr : CarAddr), s.carHears via = true →
      (∀ (taken : Option Nat) (x : Served), (∀ k, taken = some k → via ≠ .spi ∨ s.carFill via < k) →
        x = s.drawn.carServe count (carAddr addr) count.toNat → x.state.bit Reg.PWR_WAKE_EN 1 = false →
        ∃ bs, bs = carBytes via (s.carFill via) (x.words ++ List.replicate (count.toNat - x.words.length) 0) x.done x.status ∧
          exec (.carRead via ⟨count, taken⟩ addr) s = .next (x.state.emit (.carReply via (bs.take (taken.getD bs.length))))) ∧
      (∀ k, via = .spi → k ≤ s.carFill via → ∃ (n : Nat) (x : Served), n ≤ count.toNat ∧
        x = s.drawn.drawn.carServe count (carAddr addr) n ∧ (x.state.bit Reg.PWR_WAKE_EN 1 = false →
          exec (.carRead via ⟨count, some k⟩ addr) s = .next (x.state.emit (.carReply via (List.replicate k 0xFF))))) ∧
      (∀ data : List Byte, carOk count (carAddr addr) = false ∨ data.length < 4 * count.toNat →
        exec (.carWrite via count addr data) s = .next { s with carStatus := (0, 3) }) ∧
      (∀ (data : List Byte) (x : Served), x = s.serveWrites 5 (carAddr addr).toNat (carWords count.toNat data) →
        carOk count (carAddr addr) = true → 4 * count.toNat ≤ data.length → x.state.bit Reg.PWR_WAKE_EN 1 = false →
        exec (.carWrite via count addr data) s = .next { x.state with carStatus := (BitVec.ofNat 8 x.done, BitVec.ofNat 8 x.status) }) ∧
      exec (.carWriteStatus ⟨via, 0x05⟩) s = .next (s.drawn.emit (.carReply via
        (carBytes via (s.carFill via) [] s.carStatus.1.toNat s.carStatus.2.toNat))) ∧
      (∀ op : Byte, op ≠ 0x05 → exec (.carWriteStatus ⟨via, op⟩) s = .next s))

/-- A write of KEY_CMD or KEY_ROOT_CMD that takes effect captures the command with its master, its operation and flags, and
the operands as the master's window holds them: it runs at once where Geode is idle and else waits behind those that
wait. Memory and the fuses stay. Completion: under the conditions given on state and operands alone, exec answers a next
state for DERIVE, KEY_INVALIDATE, MAC, SIGN, ECDH_GEN, ECDH_AGREE, WRAP, UNWRAP, KEY_INFO, SA_INSTALL, SA_RETIRE,
ROOT_NEW, ZEROISE. -/
def Obligations.KeyCommandsAccepted : Prop :=
  ∀ (s : State) (m : Master) (c : Instr) (w : Nat), s.Inv →
    (∀ a root, (root = false ∧ a = Reg.KEY_CMD ∧
          ((∃ r d, c = .derive m r d ∧ w = 1 + 16 * b2n r + 32 * b2n d) ∨ (c = .keyInvalidate m ∧ w = 2) ∨ (c = .mac m ∧ w = 3) ∨
            (c = .sign m ∧ w = 4) ∨ (∃ r, c = .ecdhGen m r ∧ w = 5 + 16 * b2n r) ∨ (∃ r, c = .ecdhAgree m r ∧ w = 6 + 16 * b2n r) ∨
            (c = .wrap m ∧ w = 7) ∨ (∃ r, c = .unwrap m r ∧ w = 8 + 16 * b2n r) ∨ (c = .keyInfo m ∧ w = 9) ∨
            (∃ x, c = .saInstall m x ∧ w = 10 + 64 * b2n x) ∨ (∃ x, c = .saRetire m x ∧ w = 11 + 64 * b2n x))) ∨
        (root = true ∧ a = Reg.KEY_ROOT_CMD ∧ ((c = .rootNew m ∧ w = 1) ∨ (c = .zeroise m ∧ w = 2))) → s.Takes m a →
      ∃ t p q, exec c s = .next t ∧ t.geode.fuses = s.geode.fuses ∧ t.geode.root = s.geode.root ∧ t.geode.assocs = s.geode.assocs ∧
        SameMemory s t ∧
        (s.geode.running = none → t.geode.running = some { s.captureKey m (BitVec.ofNat 32 w) root with pend := p, marks := q } ∧
          t.geode.queue = s.geode.queue) ∧
        (s.geode.running ≠ none → t.geode.running = s.geode.running ∧
          t.geode.queue = s.geode.queue ++ [{ s.captureKey m (BitVec.ofNat 32 w) root with pend := p, marks := q }]))

/-- The running command gives way to the next. Where a check of Table GEO-4 fails it leaves the slots and associations, its
code stands in its master's KEY_RESULT and it is counted. An INVALIDATE that a head has applied already ends with OK and
changes no slot. Where none fails KEY_RESULT shows OK and: DERIVE fills its slot with the derived key under its
attributes; ECDH_AGREE fills it with the secret; INVALIDATE leaves an invalid slot; SA_INSTALL adds a running
association with counter 1 and the key of its slot; SA_RETIRE takes the association away; ROOT_NEW provides a root and
raises the generation of slot 0, the other slots as they were; MAC leaves the slots and associations. Memory stays.
Completion: under the conditions given on state and operands alone, exec answers a next state for KEY_COMMAND_END. -/
def Obligations.KeyCommandsEnd : Prop :=
  ∀ (s : State) (k : KeyCommand), s.coreOn = true → s.geode.running = some k →
    (∀ j ∈ (if k.creates then k.slot :: k.uses else k.uses), (s.slot j).commitOk = true) →
    (k.applied = true → k.op = 2 → ∃ t, exec .keyCommandEnd s = .next t ∧ t.geode = { s.geode with running := s.geode.queue.head?, queue := s.geode.queue.tail } ∧
      t.reg (pmKey k.master Reg.KEY_RESULT) = 1 ∧ SameRegsBut [pmKey k.master Reg.KEY_RESULT] s t ∧ SameMemory s t) ∧
    ((k.applied = true → k.op ≠ 2) → s.keyCode k ≠ 1 → ∃ t, exec .keyCommandEnd s = .next t ∧ t.geode.running = s.geode.queue.head? ∧ t.geode.queue = s.geode.queue.tail ∧
      (t.reg (pmKey k.master Reg.KEY_RESULT)).toNat = s.keyCode k ∧ Counted Reg.KEY_REFUSED s t ∧ t.geode.slots = s.geode.slots ∧
      t.geode.assocs = s.geode.assocs ∧ SameRegsBut [pmKey k.master Reg.KEY_RESULT, Reg.KEY_REFUSED] s t ∧ SameMemory s t) ∧
    ((k.applied = true → k.op ≠ 2) → s.keyCode k = 1 → k.op.toNat ≤ 11 → (k.root = true → k.op = 1) →
      ∃ t, exec .keyCommandEnd s = .next t ∧ t.geode.running = s.geode.queue.head? ∧ t.geode.queue = s.geode.queue.tail ∧
      t.reg (pmKey k.master Reg.KEY_RESULT) = 1 ∧ SameMemory s t ∧
      (k.root = false → k.op = 1 → (t.slot k.slot).valid = true ∧ (t.slot k.slot).live.attr = k.attr ∧
        (t.slot k.slot).live.value = kdf (s.parentValue k.parent) (k.data.take k.len) (typeLen (attrType k.attr)) ∧
        (t.slot k.slot).gen = (s.slot k.slot).gen + 1) ∧
      (k.root = false → k.op = 2 → (t.slot k.slot).valid = false ∧ (t.slot k.slot).gen = (s.slot k.slot).gen + 1) ∧
      (k.root = false → k.op = 3 → t.geode.slots = s.geode.slots ∧ t.geode.assocs = s.geode.assocs) ∧
      (k.root = false → k.op = 6 → (t.slot k.slot).valid = true ∧
        (t.slot k.slot).live.value = fixLen 48 (Config.ecdh (s.slot k.parent).live.value k.point)) ∧
      (k.root = false → k.op = 10 → ∃ x ∈ t.geode.assocs, x.port = k.link ∧ x.transmit = k.transmit ∧ x.sa = k.sa ∧ x.slot = k.slot ∧
        x.ctr = 1 ∧ x.stopped = false ∧ x.key = (s.slot k.slot).live.value) ∧
      (k.root = false → k.op = 11 → ∀ x ∈ t.geode.assocs, ¬ (x.port = k.link ∧ x.transmit = k.transmit ∧ x.sa = k.sa)) ∧
      (k.root = true → t.geode.root.isSome = true ∧ (t.slot 0).gen = (s.slot 0).gen + 1 ∧ ∀ j, j ≠ 0 → t.slot j = s.slot j))

/-- A tamper that acts, on VAUX, zeroes the root and every slot below the session pool, stops every association, records its
sources, is counted and asserts FAULT_N; sources that do not act change nothing but the levels. A challenge is presented
where none stands out of debug; the right answer enters debug, a wrong one is counted and ends the challenge. A fuse
command that no check refuses starts its operation, any other is answered with its code. A program that verifies stores
its hash at its position, a revocation that verifies is recorded for the next start; no other position changes.
Completion: under the conditions given on state and operands alone, exec answers a next state for TAMPER,
DEBUG_CHALLENGE_RENEW, DEBUG_UNLOCK_RESPONSE, SEC_FUSE_PROGRAM, SEC_FUSE_REVOKE, SEC_FUSE_OP_END. -/
def Obligations.TamperDebugFuses : Prop :=
  ∀ s : State,
    (∀ sources : BitVec 8, s.pwr.vaux = true → ∃ t, exec (.tamper sources) s = .next t ∧ t.geode.tamperNow = sources ∧ SameMemory s t ∧
      (s.tamperActs sources = 0 → t.geode = { s.geode with tamperNow := sources } ∧ SameRegsBut [] s t ∧ t.faultN = s.faultN) ∧
      (s.tamperActs sources ≠ 0 → t.geode.root = none ∧ (∀ k : BitVec 8, k.toNat < 128 → (t.slot k).valid = false) ∧
        (∀ a ∈ t.geode.assocs, a.stopped = true) ∧ .tamper ∈ t.faultN ∧ Counted Reg.KEY_TAMPER_COUNT s t ∧
        (t.reg Reg.KEY_TAMPER_LAST).toNat = 256 + (s.tamperActs sources).toNat ∧ t.geode.fuses = s.geode.fuses)) ∧
    (s.coreOn = true → s.inDebug = false →
      (s.geode.challenge = none → ∃ t x, exec .debugChallengeRenew s = .next t ∧ t.geode = { s.geode with challenge := some x } ∧
        SameRegsBut [] s t ∧ SameMemory s t) ∧
      (∀ (x : BitVec 64) (key : List Byte) (answer : BitVec 128), s.geode.challenge = some x → (s.slot (BitVec.ofNat 8 s.dbgSlot)).commitOk = true →
        s.debugKey = some key →
        (answer = debugAnswer key x → ∃ t, exec (.debugUnlockResponse answer) s = .next t ∧ t.inDebug = true ∧ SameMemory s t) ∧
        (answer ≠ debugAnswer key x → ∃ t, exec (.debugUnlockResponse answer) s = .next t ∧ t.inDebug = false ∧ t.geode.challenge = none ∧
          Counted Reg.KEY_DBG_FAIL s t ∧ SameRegsBut [Reg.KEY_DBG_FAIL] s t ∧ SameMemory s t))) ∧
    (∀ (m : Master) (pos : BitVec 2) (c : Instr) (rev : Bool), (c = .secFuseProgram m pos ∧ rev = false) ∨ (c = .secFuseRevoke m pos ∧ rev = true) →
      s.Inv → s.Takes m Reg.SEC_FUSE_CMD →
      (s.fuseCode rev pos = 0 → ∃ t, exec c s = .next t ∧ t.geode.fuses = s.geode.fuses ∧ SameRegsBut [Reg.SEC_FUSE_CMD] s t ∧ SameMemory s t ∧
        t.geode.fuseOp = some (rev, pos, (List.range 12).flatMap fun i => leBytes 4 (s.reg (Reg.SEC_FUSE_DATA i)).toNat)) ∧
      (s.fuseCode rev pos ≠ 0 → ∃ t, exec c s = .next t ∧ (t.reg Reg.SEC_FUSE_RESULT).toNat = s.fuseCode rev pos ∧ t.geode = s.geode ∧
        SameRegsBut [Reg.SEC_FUSE_CMD, Reg.SEC_FUSE_RESULT] s t ∧ SameMemory s t)) ∧
    (∀ (pos : Fin 4) (hash : List Byte), s.coreOn = true →
      (s.geode.fuseOp = some (false, BitVec.ofNat 2 pos.val, hash) → ∃ t, exec (.secFuseOpEnd true) s = .next t ∧
        t.geode.fuses[pos] = some hash ∧ (∀ j : Fin 4, j ≠ pos → t.geode.fuses[j] = s.geode.fuses[j]) ∧ t.geode.fuseOp = none ∧
        t.reg Reg.SEC_FUSE_RESULT = 1 ∧ SameRegsBut [Reg.SEC_FUSE_RESULT] s t ∧ SameMemory s t) ∧
      (s.geode.fuseOp = some (true, BitVec.ofNat 2 pos.val, hash) → ∃ t, exec (.secFuseOpEnd true) s = .next t ∧
        t.geode.revokedNext = s.geode.revokedNext ||| BitVec.ofNat 4 (2 ^ pos.val) ∧ t.geode.fuses = s.geode.fuses ∧
        t.geode.fuseOp = none ∧ t.reg Reg.SEC_FUSE_RESULT = 1 ∧ SameRegsBut [Reg.SEC_FUSE_RESULT] s t ∧ SameMemory s t))

/-- RUN, STAGED, SEED and TEST answer their master with their code, and one that is refused changes nothing else. RUN, the
start of STAGED and TEST fall due for the next head; SEED runs, with SEED_DONE and TABLE_OK 0. RESET starts the hub
again: out of SERVICE, with a valid seat and an image in flash, in START at stage 1 with ports, lanes and beat as at
reset, the engines and Columns too but for what was FAILED, which stays so (log 99), and addressed memory as it is.
RECOVER ends in RECOVERY with reason COMMAND and FAULT_N. A word of BOOT_STG_DATA goes into the staging buffer at
BOOT_STG_ADDR, which advances by 4, and no other byte of it changes. Completion: under the conditions given on state and
operands alone, exec answers a next state for BOOT_RUN, BOOT_STAGED, BOOT_SEED, BOOT_TEST, BOOT_RESET, BOOT_RECOVER,
BOOT_STG_DATA_WRITE. -/
def Obligations.BootCommands : Prop :=
  ∀ (s : State) (m : Master), s.Inv →
    (s.Takes m Reg.BOOT_CMD →
      (∀ (c : Instr) (op : Nat), (c = .bootRun m ∧ op = 1) ∨ (c = .bootStaged m ∧ op = 4) ∨ (c = .bootSeed m ∧ op = 5) ∨
          (c = .bootTest m ∧ op = 6) →
        ∃ t, exec c s = .next t ∧ (t.reg (pmKey m Reg.BOOT_CMD_RESULT)).toNat = s.bootCode m op ∧ t.geode = s.geode ∧ SameMemory s t ∧
          (s.bootCode m op ≠ 1 → t.boot = s.boot) ∧
          (op ≠ 5 ∨ s.bootCode m op ≠ 1 → SameRegsBut [Reg.BOOT_CMD, pmKey m Reg.BOOT_CMD_RESULT] s t) ∧
          (s.bootCode m op = 1 →
            (op = 1 → t.boot = { s.boot with pendingMode := some .run }) ∧
            (op = 4 → t.boot = { s.boot with pendingMode := some .start }) ∧
            (op = 6 → t.boot = { s.boot with pendingMode := some .test }) ∧
            (op = 5 → t.boot = { s.boot with seedRun := true } ∧ t.bit Reg.BOOT_STATUS 13 = false ∧ t.bit Reg.TUN_STATUS 0 = false ∧
              SameRegsBut [Reg.BOOT_CMD, Reg.BOOT_STATUS, Reg.TUN_STATUS, pmKey m Reg.BOOT_CMD_RESULT] s t))) ∧
      (s.mode ≠ .service → s.bootSrc < 2 → s.fld Reg.GLB_STRAPS 7 6 ≠ 3 → ∃ t, exec (.bootReset m) s = .next t ∧ t.mode = .start ∧
        t.fld Reg.BOOT_STATUS 2 0 = 1 ∧ t.eng = s.eng.restarted .reset ∧ t.ports = State.reset.ports ∧ t.lanes = State.reset.lanes ∧
        t.beat = State.reset.beat ∧ t.reg Reg.GLB_STRAPS = s.reg Reg.GLB_STRAPS ∧ SameMemory s t) ∧
      (∃ t, exec (.bootRecover m) s = .next t ∧ t.mode = .recovery ∧ t.reg Reg.BOOT_REASON = 6 ∧ t.reg Reg.GLB_CL_ACTIVE = 0 ∧
        .recovery ∈ t.faultN ∧ t.eng = s.eng.restarted .reset ∧ SameMemory s t)) ∧
    (∀ data : Word, s.Takes m Reg.BOOT_STG_DATA → ∃ t, exec (.bootStgDataWrite m data) s = .next t ∧
      (let base := s.fld Reg.BOOT_STG_ADDR 22 2 * 4
       (∀ i, i < 4 → Store.get Flash.blank t.boot.staging (base + i) = (leBytes 4 data.toNat).getD i 0) ∧
       (∀ a, a < base ∨ base + 4 ≤ a → Store.get Flash.blank t.boot.staging a = Store.get Flash.blank s.boot.staging a) ∧
       (t.reg Reg.BOOT_STG_ADDR).toNat = (base + 4) % 0x800000 ∧ SameRegsBut [Reg.BOOT_STG_ADDR, Reg.BOOT_STG_DATA] s t ∧ SameMemory s t))

/-- A low of PORST_N below 800 ns does nothing; from 10 us it holds the core. Its release with power good, no debug or
SERVICE strap, a valid seat and an image in flash starts the hub in START at stage 1 with the straps sampled. The third
attempt without an SFDP signature makes RECOVERY due; with one the copies to try are ordered, or RECOVERY is due where
there is none. A copy that fails is passed over, or makes RECOVERY due as the last; one that passes is chosen, and its
image applied where its level is supported, else RECOVERY is due. At the end of the application GLB_CL_ACTIVE takes the
level of the image, stage 4 stands and the loaded Columns run. At the target voltage the clock switch enables the lanes
at stage 6, or without its reference stays at stage 5 and makes limited RUN due. The seeds end with SEED_DONE, and RUN
is due RUN_WAIT heads after the switch. Completion: under the conditions given on state and operands alone, exec answers
a next state for PORST_N_ASSERT, PORST_N_RELEASE, SFDP_RETRY, COPY_VERIFY_END, APPLY_END, CLOCK_SWITCH, SEED_END,
RUN_WAIT_EXPIRY. -/
def Obligations.ResetAndStages : Prop :=
  ∀ s : State,
    (∀ ns : Nat, (ns < 800 → exec (.porstNAssert ns) s = .next s) ∧
      (10000 ≤ ns → ∃ t, exec (.porstNAssert ns) s = .next t ∧ t.coreOn = false ∧ t.boot = { s.boot with held := true } ∧
        SameRegsBut [Reg.PWR_SAVE_DISCARD] s t ∧ SameMemory s t)) ∧
    (∀ (straps : BitVec 13) (vbus : Bool), s.boot.held = true → s.pwr.vaux = true → s.pwr.coreEn = true → s.pwr.coreHeld = false →
      s.pwr.pgood = true → .pgood ∉ s.faultN → s.pwr.state ≠ .cutoff → straps.getLsbD 12 = false → straps.getLsbD 11 = false →
      straps.getLsbD 10 = false → nbits straps.toNat 7 6 ≠ 3 →
      ∃ t, exec (.porstNRelease straps vbus) s = .next t ∧ t.coreOn = true ∧ t.mode = .start ∧ (t.reg Reg.GLB_STRAPS).toNat = straps.toNat ∧
        t.fld Reg.BOOT_STATUS 2 0 = 1 ∧ t.eng = State.reset.eng ∧ t.ports = State.reset.ports ∧ t.lanes = State.reset.lanes ∧ SameMemory s t) ∧
    (s.coreOn = true → s.mode = .start → s.boot.pendingMode = none →
      (s.fld Reg.BOOT_STATUS 2 0 = 1 → s.boot.sfdp = none → s.boot.sfdpTries < 3 →
        (∃ t, exec (.sfdpRetry none) s = .next t ∧ t.boot.sfdpTries = s.boot.sfdpTries + 1 ∧ SameRegsBut [] s t ∧ SameMemory s t ∧
          (s.boot.sfdpTries < 2 → t.boot.pendingMode = none) ∧
          (s.boot.sfdpTries = 2 → t.boot.pendingMode = some .recovery ∧ t.boot.pendingReason = 7)) ∧
        (∀ i : SfdpInfo, ∃ t, exec (.sfdpRetry (some i)) s = .next t ∧ t.boot.sfdp = some i ∧ SameMemory s t ∧
          (let cs := ({ s with boot := { s.boot with sfdp := some i } } : State).candidates
           (cs ≠ [] → t.boot.tries = cs ∧ t.fld Reg.BOOT_STATUS 2 0 = 2 ∧ t.boot.pendingMode = none) ∧
           (cs = [] → t.boot.pendingMode = some .recovery ∧ t.boot.pendingReason = s.noImage)))) ∧
      (∀ (readOk : Bool) (c : Fin 3) (rest : List (Fin 3)), s.boot.tries = c :: rest →
        (let img := s.copyByte c
         let f := s.copyFail img (s.copyWindow c) (readOk || c == 2)
         let u := (if c = 2 then s else s.setRegN (Reg.BOOT_FAIL c.val) 0).choose c
         ∃ t, exec (.copyVerifyEnd readOk) s = .next t ∧
           (f ≠ 0 → SameRegsBut [Reg.BOOT_FAIL c.val] s t ∧ SameMemory s t ∧
             (c ≠ 2 → t.reg (Reg.BOOT_FAIL c.val) = BitVec.ofNat 32 f) ∧ (rest ≠ [] → t.boot = { s.boot with tries := rest }) ∧
             (rest = [] → t.boot.pendingMode = some .recovery ∧ t.boot.pendingReason = if c = 2 then 9 else s.noImage)) ∧
           (f = 0 → u.boot.chosen = some c ∧ u.fld Reg.BOOT_STATUS 9 8 = c.val ∧ u.boot.gen = BitVec.ofNat 32 (imgGen img) ∧
             (s.clSupported (imgCl img) = false → t.boot.pendingMode = some .recovery ∧ t.boot.pendingReason = (if c = 2 then 9 else 2) ∧
               t.boot.chosen = some c ∧ SameMemory s t) ∧
             (s.clSupported (imgCl img) = true → s.boot.fromDormant = false → t = u.applyImage img))))) ∧
    (s.coreOn = true → s.boot.applying = true → s.boot.applyAt = none → ∃ t, exec .applyEnd s = .next t ∧
      t.boot = { s.boot with applying := false, applyAt := none, fromDormant := false } ∧ (t.reg Reg.GLB_CL_ACTIVE).toNat = s.fld Reg.BOOT_STATUS 23 16 ∧
      t.fld Reg.BOOT_STATUS 2 0 = 4 ∧ SameRegsBut [Reg.GLB_CL_ACTIVE, Reg.BOOT_STATUS] s t ∧ SameMemory s t ∧
      ∀ c : ColumnIx, t.eng.columns[c] = if s.mayRun c then { s.eng.columns[c] with state := .running } else s.eng.columns[c]) ∧
    (s.coreOn = true → s.atTarget = true → s.beforeSwitch = true →
      (s.bit Reg.GLB_REFCLK 5 = true → ∃ t, exec .clockSwitch s = .next t ∧ t.bit Reg.BOOT_STATUS 14 = true ∧ t.bit Reg.GLB_MODE 3 = false ∧
        t.pwr.laneDom = 0xFF ∧ t.boot.clockHead = some s.heads ∧ (s.fld Reg.BOOT_STATUS 2 0 ≤ 5 → t.fld Reg.BOOT_STATUS 2 0 = 6) ∧
        SameRegsBut (Reg.BOOT_STATUS :: Reg.GLB_MODE :: (List.range 32).map Reg.LANE_EQ) s t ∧ SameMemory s t) ∧
      (s.bit Reg.GLB_REFCLK 5 = false → ∃ t, exec .clockSwitch s = .next t ∧ t.boot = { s.boot with pendingMode := some .run } ∧
        t.fld Reg.BOOT_STATUS 2 0 = 5 ∧ SameRegsBut [Reg.BOOT_STATUS] s t ∧ SameMemory s t)) ∧
    (s.coreOn = true → s.boot.seedRun = true → ∃ t, exec .seedEnd s = .next t ∧ t.boot.seedRun = false ∧ t.bit Reg.BOOT_STATUS 13 = true ∧
      t.bit Reg.TUN_STATUS 0 = s.sumpReady ∧ (s.sumpReady = true → s.boot.seeds = [] → t.tun.table = [] ∧ t.tun.poison = []) ∧
      (∀ r, s.sumpReady = false → s.boot.seeds = [r] → r.pin = false → Counted Reg.BOOT_SEED_SKIP s t ∧ t.tun.table = s.tun.table) ∧
      SameMemory s t) ∧
    (s.coreOn = true → s.mode = .start → s.bit Reg.BOOT_STATUS 13 = true → ∀ h, s.boot.clockHead = some h →
      h + s.fld Reg.BOOT_CFG 15 0 ≤ s.heads → ∃ t, exec .runWaitExpiry s = .next t ∧ t.boot = { s.boot with pendingMode := some .run } ∧
        t.reg (pmKey 0 Reg.BOOT_CMD_RESULT) = 1 ∧ SameRegsBut [pmKey 0 Reg.BOOT_CMD_RESULT] s t ∧ SameMemory s t)

/-- A flash command that no check refuses starts its operation for its master, and one on a copy not in use ends INACT_OK
(the copy in use takes none in RUN or SERVICE); any other is answered with its code and starts nothing. An operation
that ends well leaves: an erase every byte of its copy erased and every other byte; a program each byte of its page with
the bits of the page buffer cleared (the choice of log 55) and every other byte; a read its page in the page buffer; a
verification the result of its checks in BOOT_FAIL. Each answers OK, a verification that does not pass INVALID. One that
fails answers FLASH and is counted. Completion: under the conditions given on state and operands alone, exec answers a
next state for FL_ERASE_COPY, FL_PROGRAM, FL_READ, FL_VERIFY, FLASH_OP_END. -/
def Obligations.FlashOperations : Prop :=
  ∀ s : State, s.Inv →
    (∀ (m : Master) (c : Instr) (op : BitVec 3), (c = .flEraseCopy m ∧ op = 1) ∨ (c = .flProgram m ∧ op = 2) ∨ (c = .flRead m ∧ op = 3) ∨
        (c = .flVerify m ∧ op = 4) → s.Takes m Reg.BOOT_FL_CMD →
      (s.flashCode m op.toNat = 0 → ∃ t, exec c s = .next t ∧
        t.boot = { s.boot with flashOp := some { master := m, op := op, copyB := (s.flPage m).2, page := (s.flPage m).1 } } ∧
        (s.activeCopy ≠ some (s.flPage m).2 → t.bit Reg.BOOT_STATUS 10 = false) ∧
        (s.activeCopy = some (s.flPage m).2 → t.reg Reg.BOOT_STATUS = s.reg Reg.BOOT_STATUS ∧ s.mode ≠ .run ∧ s.mode ≠ .service) ∧
        SameRegsBut [Reg.BOOT_STATUS] s t ∧ SameMemory s t) ∧
      (s.flashCode m op.toNat ≠ 0 → ∃ t, exec c s = .next t ∧ (t.reg (pmKey m Reg.BOOT_FL_RESULT)).toNat = s.flashCode m op.toNat ∧
        t.boot = s.boot ∧ (s.flashCode m op.toNat = 5 → Counted Reg.BOOT_FL_ERR s t) ∧
        (s.flashCode m op.toNat ≠ 5 → t.reg Reg.BOOT_FL_ERR = s.reg Reg.BOOT_FL_ERR) ∧
        SameRegsBut [pmKey m Reg.BOOT_FL_RESULT, Reg.BOOT_FL_ERR] s t ∧ SameMemory s t)) ∧
    (∀ o : FlashOp, s.coreOn = true → s.boot.flashOp = some o →
      (let lo := s.copyBase o.copyB
       let page := lo + 256 * o.page
       (∃ t, exec (.flashOpEnd false) s = .next t ∧ t.boot.flashOp = none ∧ t.reg (pmKey o.master Reg.BOOT_FL_RESULT) = 5 ∧
         Counted Reg.BOOT_FL_ERR s t ∧ SameRegsBut [pmKey o.master Reg.BOOT_FL_RESULT, Reg.BOOT_FL_ERR] s t ∧ SameMemory s t) ∧
       (o.op = 1 → ∃ t, exec (.flashOpEnd true) s = .next t ∧ t.boot.flashOp = none ∧ t.reg (pmKey o.master Reg.BOOT_FL_RESULT) = 1 ∧
         (∀ a, Store.get Flash.blank t.boot.flash a =
           if lo ≤ a ∧ a < lo + s.flashHalf then Flash.blank a else Store.get Flash.blank s.boot.flash a) ∧
         SameRegsBut [pmKey o.master Reg.BOOT_FL_RESULT] s t ∧ SameMemory s t) ∧
       (o.op = 2 → ∃ t, exec (.flashOpEnd true) s = .next t ∧ t.boot.flashOp = none ∧ t.reg (pmKey o.master Reg.BOOT_FL_RESULT) = 1 ∧
         (∀ i, i < 256 → Store.get Flash.blank t.boot.flash (page + i) =
           Store.get Flash.blank s.boot.flash (page + i) &&& (s.pageBytes o.master).getD i 0) ∧
         (∀ a, a < page ∨ page + 256 ≤ a → Store.get Flash.blank t.boot.flash a = Store.get Flash.blank s.boot.flash a) ∧
         SameRegsBut [pmKey o.master Reg.BOOT_FL_RESULT] s t ∧ SameMemory s t) ∧
       (o.op = 3 → ∃ t, exec (.flashOpEnd true) s = .next t ∧ t.boot = { s.boot with flashOp := none } ∧
         t.reg (pmKey o.master Reg.BOOT_FL_RESULT) = 1 ∧
         (∀ i, i < 64 → (t.reg (pmKey o.master (Reg.BOOT_PAGE i))).toNat =
           leNat ((List.range 4).map fun k => Store.get Flash.blank s.boot.flash (page + 4 * i + k))) ∧
         SameRegsBut (pmKey o.master Reg.BOOT_FL_RESULT :: (List.range 64).map fun i => pmKey o.master (Reg.BOOT_PAGE i)) s t ∧
         SameMemory s t) ∧
       (o.op = 4 → ∃ t, exec (.flashOpEnd true) s = .next t ∧ t.boot = { s.boot with flashOp := none } ∧
         (let c : Fin 3 := if o.copyB then 1 else 0
          let f := s.copyFail (s.copyByte c) (s.copyWindow c) true
          t.reg (Reg.BOOT_FAIL c.val) = BitVec.ofNat 32 f ∧
          t.reg (pmKey o.master Reg.BOOT_FL_RESULT) = (if f = 0 ∧ s.clSupported (imgCl (s.copyByte c)) = true then 1 else 6) ∧
          SameRegsBut [Reg.BOOT_FAIL c.val, pmKey o.master Reg.BOOT_FL_RESULT, Reg.BOOT_STATUS] s t) ∧ SameMemory s t)))

/-- A write of PWR_REQ with a target stands as the master's request, and one with target 0 changes no state of power; an ask
holds its target, its beat and the requests it may make. In the beat before its start beat, and RETRY seconds after a
failure, the supervisor requests the asked target. A block that is asked agrees: the scheduler apart, it is added to
those that agreed, the engines stop being released, the lane groups and Cavern go off (every deficit then 0), and the
last block completes an entry to LAYOVER or starts the save of DORMANT. A block that refuses is counted and recorded,
and what agreed restarts in turn until the rollback ends in ACTIVE; in an entry from LAYOVER every block restarts on the
PLL, or without its reference limited RUN follows (log 45). The end of the save takes the hub to DORMANT with CORE_EN
low and volatile slots zeroed. A rest tick in LAYOVER without a request counts the arming and sends the
Source_Capabilities that are due, and one with a refused request answers it. Completion: under the conditions given on
state and operands alone, exec answers a next state for PWR_REQ_WRITE, PWR_ASK_WRITE, PWR_ASK_ISSUE, PWR_RETRY,
BLOCK_AGREE, BLOCK_REFUSE, ROLLBACK_RESTART_END, DORMANT_ENTRY_COMPLETE, REST_TICK. -/
def Obligations.PowerRequests : Prop :=
  ∀ s : State, s.Inv →
    (∀ (m : Master) (data : Word), s.Takes m Reg.PWR_REQ →
      (bitsOf data 1 0 = 0 → ∃ t, exec (.pwrReqWrite m data) s = .next t ∧ t.pwr = s.pwr ∧ SameRegsBut [] s t ∧ SameMemory s t) ∧
      (bitsOf data 1 0 ≠ 0 → ∃ t, exec (.pwrReqWrite m data) s = .next t ∧
        t.pwr = { s.pwr with reqBy := some (m, BitVec.ofNat 2 (bitsOf data 1 0)), reqAsk := false } ∧
        (t.reg Reg.PWR_REQ).toNat = 2 ^ 31 + bitsOf data 1 0 ∧ SameRegsBut [Reg.PWR_REQ] s t ∧ SameMemory s t)) ∧
    (∀ (m : Master) (target : Word) (beat : Beat), s.Takes m Reg.PWR_ASK_BEAT_LO → s.Takes m Reg.PWR_ASK_BEAT_HI → s.Takes m Reg.PWR_ASK →
      ∃ t, exec (.pwrAskWrite m target beat) s = .next t ∧ (t.reg Reg.PWR_ASK_BEAT_LO).toNat = beat.toNat % 2 ^ 32 ∧
        t.fld Reg.PWR_ASK_BEAT_HI 15 0 = beat.toNat / 2 ^ 32 ∧ t.fld Reg.PWR_ASK 1 0 = bitsOf target 1 0 ∧
        t.pwr = { s.pwr with
          askMaster := if bitsOf target 1 0 = 0 then none else some m
          askLeft := if bitsOf target 1 0 = 0 then 0 else max 1 (s.fld Reg.PWR_CFG 19 16)
          retryDue := false, askSent := false, reqAsk := false, entryAsk := false } ∧
        SameRegsBut [Reg.PWR_ASK_BEAT_LO, Reg.PWR_ASK_BEAT_HI, Reg.PWR_ASK] s t ∧ SameMemory s t) ∧
    (s.coreOn = true → ∀ (c : Instr) (sup : Master), s.supervisor = some sup → s.pwr.askMaster.isSome = true →
      s.fld Reg.PWR_ASK 1 0 ≠ 0 → 0 < s.pwr.askLeft →
      ((c = .pwrAskIssue ∧ s.pwr.askSent = false ∧
          s.beatNum.toNat + 1 = (s.reg Reg.PWR_ASK_BEAT_LO).toNat + 2 ^ 32 * s.fld Reg.PWR_ASK_BEAT_HI 15 0) ∨
        (c = .pwrRetry ∧ s.pwr.retryDue = true)) →
      ∃ t, exec c s = .next t ∧ t.pwr = { s.pwr with
          askLeft := s.pwr.askLeft - 1
          retryDue := false
          askSent := true
          reqBy := some (sup, BitVec.ofNat 2 (s.fld Reg.PWR_ASK 1 0))
          reqAsk := true } ∧
        (t.reg Reg.PWR_REQ).toNat = 2 ^ 31 + s.fld Reg.PWR_ASK 1 0 ∧ SameRegsBut [Reg.PWR_REQ] s t ∧ SameMemory s t) ∧
    (s.coreOn = true → ∀ block : Fin 7, s.pwr.asked = some (block.val + 1) → s.refusal (block.val + 1) = 0 →
      (block.val = 0 → s.pwr.target ≠ 3 → ∃ t, exec (.blockAgree block) s = .next t ∧
        t = { s with pwr := { s.pwr with asked := none, agreed := 1 :: s.pwr.agreed } }) ∧
      (block.val = 1 → ∃ t, exec (.blockAgree block) s = .next t ∧
        t = { s with pwr := { s.pwr with asked := none, agreed := 2 :: s.pwr.agreed }, eng := { s.eng with halting := true } }) ∧
      (block.val = 3 → s.pwr.fromLayover = false → ∃ t, exec (.blockAgree block) s = .next t ∧ t.pwr.asked = none ∧ t.pwr.laneDom = 0 ∧
        (∀ p : LinkPort, t.ports[p].stage = .down) ∧ SameMemory s t) ∧
      (block.val = 4 → s.pwr.fromLayover = false → ∃ t, exec (.blockAgree block) s = .next t ∧ t.cav.frames = [] ∧ t.cav.powered = false ∧
        t.pwr = { s.pwr with asked := none, agreed := 5 :: s.pwr.agreed } ∧
        SameRegsBut (Reg.PWR_ENTRY_DISC :: (List.range 168).map fun q => Reg.SCHED_DEFICIT (q / 8) (q % 8)) s t ∧
        (∀ q, q < 168 → t.reg (Reg.SCHED_DEFICIT (q / 8) (q % 8)) = 0)) ∧
      (block.val = 5 → ∃ t, exec (.blockAgree block) s = .next t ∧ t.pwr.ddrOn = false ∧ t.pwr.agreed = 6 :: s.pwr.agreed ∧ SameMemory s t) ∧
      (block.val = 6 → s.pwr.target ≠ 3 → s.pwr.latch = 0 → ∃ t, exec (.blockAgree block) s = .next t ∧ t.pwr.state = .layover ∧
        t.beat.timing = .free ∧ t.twin = [] ∧ t.bit Reg.BOOT_STATUS 14 = false ∧ Counted Reg.PWR_ENTER_LAYOVER s t ∧
        SameRegsBut [Reg.PWR_ENTER_LAYOVER, Reg.BOOT_STATUS, Reg.GLB_MODE] s t ∧ SameMemory s t) ∧
      (block.val = 6 → s.pwr.target = 3 → ∃ t, exec (.blockAgree block) s = .next t ∧ t.pwr.saving = true ∧
        (∀ c : ColumnIx, t.eng.columns[c].state = if s.eng.columns[c].state = .failed then .failed else .reset) ∧ t.twin = [] ∧ SameRegsBut [] s t ∧ SameMemory s t)) ∧
    (s.coreOn = true → ∀ (block : Fin 7) (reason : BitVec 4), block.val ≠ 2 → s.pwr.asked = some (block.val + 1) →
      s.mayRefuse (block.val + 1) reason.toNat = true → ∃ t, exec (.blockRefuse block reason) s = .next t ∧
        Counted (Reg.PWR_REFUSE_COUNT block.val) s t ∧ Counted Reg.PWR_ROLLBACKS s t ∧
        (t.reg Reg.PWR_LAST_REFUSER).toNat = block.val + 1 + 16 * reason.toNat + 256 ∧ t.pwr.asked = none ∧
        (s.pwr.fromLayover = false → (s.pwr.agreed = [] → t.pwr.state = .active ∧ t.pwr.rollback = []) ∧
          (s.pwr.agreed ≠ [] → t.pwr.state = .rollback ∧ t.pwr.rollback = s.pwr.agreed)) ∧
        (s.pwr.fromLayover = true →
          (s.bit Reg.GLB_REFCLK 5 = true → t.pwr.state = .rollback ∧ t.pwr.rollback = [6, 5, 4, 3, 2, 1] ∧ t.bit Reg.BOOT_STATUS 14 = true) ∧
          (s.bit Reg.GLB_REFCLK 5 = false → t.pwr.state = .active ∧ t.pwr.rollback = [] ∧ t.bit Reg.BOOT_STATUS 14 = false ∧
            t.bit Reg.GLB_MODE 3 = true ∧ t.boot.limitedWake = true))) ∧
    (s.coreOn = true → s.pwr.state = .rollback → ∀ (b : Nat) (rest : List Nat), s.pwr.rollback = b :: rest →
      (b = 5 → s.cav.bistRun = false) → (b = 6 → s.bit Reg.SUMP_TRAIN 0 = false) → ∃ t, exec .rollbackRestartEnd s = .next t ∧
        (rest ≠ [] → t.pwr.state = .rollback ∧ t.pwr.rollback = rest) ∧
        (rest = [] → t.pwr.state = .active ∧ t.pwr.rollback = [] ∧ t.pwr.latch = 0 ∧ SameRegsBut [] s t ∧ SameMemory s t)) ∧
    (s.coreOn = true → s.pwr.saving = true → s.pwr.latch = 0 → ∃ t, exec .dormantEntryComplete s = .next t ∧ t.pwr.state = .dormant ∧
      t.coreOn = false ∧ t.pwr.saving = false ∧ t.pwr.save.isSome = true ∧ Counted Reg.PWR_ENTER_DORMANT s t ∧ SameMemory s t ∧
      ∀ k : BitVec 8, (s.slot k).live.valid = true → attrBit (s.slot k).live.attr 9 = false → (t.slot k).valid = false) ∧
    (s.coreOn = true → s.pwr.state = .layover → s.pwr.fromLayover = false →
      (s.pwr.reqBy = none → ∃ t, exec .restTick s = .next t ∧ t.pwr = s.pwr ∧ SameRegsBut [] s t ∧ SameMemory s t ∧
        (∀ (m : Master) (n : Nat), s.acc.unlock[m] = some n → t.acc.unlock[m] = armLapse (some n)) ∧
        ∀ port : DnPd, s.pd[dnPd port].pdoDue = true → s.pd[dnPd port].contract.isSome = true → s.pdOn (dnPd port) = true →
          s.policyAway = false → s.hwPolicy = false →
          t.pd[dnPd port].pdoDue = false ∧ .pdSourceCaps (dnPd port) (s.dnOffer (dnPd port)) ∈ t.sent) ∧
      (∀ (m : Master) (target : BitVec 2), s.pwr.reqBy = some (m, target) → s.requestCode m target.toNat ≠ 1 →
        ∃ t, exec .restTick s = .next t ∧ t.pwr.reqBy = none ∧ t.reg Reg.PWR_REQ = 0 ∧ t.pwr.state = .layover ∧
          (t.reg (pmKey m Reg.PWR_RESULT)).toNat = s.requestCode m target.toNat ∧
          SameRegsBut [Reg.PWR_REQ, pmKey m Reg.PWR_RESULT] s t ∧ SameMemory s t))

/-- A wake source that PWR_WAKE_EN does not enable, and any in ACTIVE, changes nothing; during an entry, a rollback or a
cutoff an enabled one is latched; from LAYOVER it starts the wake on IFO, whose clock switch powers the memories, or
without the core reference enters limited RUN; from DORMANT it raises CORE_EN with the Voltage write. Power good with
the acknowledged voltage releases the core, which restores a save that can be used and shows the wake voltage. An
attempt without acknowledgement or power good ends in FAULT_N and is counted; the next follows with the wait doubled. A
fall of PGOOD below 8 us does nothing, from 12 us it holds the core with FAULT_N and ends a wake under way, and 1 ms
after its recovery the hub starts as under RESET. The loss of a reference takes its port, or every local port, to DOWN.
VAUX falling drops CORE_EN, FAULT_N and the save, resets the PD ports, leaves only tamper records to write, and without
VBAT loses every slot; VAUX rising leaves the core held by PORST_N and keeps the RTC and AVS_AGE with VBAT. The
crystal's level shows in PWR_STATUS. Completion: under the conditions given on state and operands alone, exec answers a
next state for WAKE_EVENT, CLOCK_SWITCH, WAKE_LAYOVER_READY, PGOOD_RISE, RESTORE_END, AVS_ACK_TIMEOUT, AVS_STEP,
WAKE_PGOOD_TIMEOUT, WAKE_RETRY, PGOOD_FALL, PGOOD_RECOVER, REFCLK_PRESENT, REFCLK_ABSENT, VAUX_FALL, VAUX_RISE,
XTAL_OK_CHANGE. -/
def Obligations.WakesAndSupplies : Prop :=
  ∀ s : State, s.Inv →
    (∀ source : Fin 7,
      (s.bit Reg.PWR_WAKE_EN source.val = false ∨ s.pwr.state = .active → exec (.wakeEvent source) s = .next s) ∧
      (s.bit Reg.PWR_WAKE_EN source.val = true → s.pwr.vaux = true → s.boot.held = false →
        (s.pwr.state = .entering ∨ s.pwr.state = .rollback ∨ s.pwr.state = .cutoff → exec (.wakeEvent source) s =
          .next { s with pwr := { s.pwr with latch := s.pwr.latch ||| BitVec.ofNat 7 (2 ^ source.val) } }) ∧
        (s.pwr.state = .layover → s.pwr.target = 0 → ∃ t, exec (.wakeEvent source) s = .next t ∧
          (t.reg Reg.PWR_WAKE_CAUSE).toNat = 2 ^ source.val + 256 ∧ t.pwr.state = .waking ∧ t.pwr.avsSet = false ∧ t.cav = s.cav ∧
          SameRegsBut [Reg.PWR_WAKE_CAUSE] s t ∧ SameMemory s t) ∧
        (s.pwr.state = .dormant → ∃ t, exec (.wakeEvent source) s = .next t ∧ t.pwr.state = .waking ∧ t.pwr.coreEn = true ∧
          t.pwr.coreHeld = true ∧ (t.reg Reg.PWR_WAKE_CAUSE).toNat = 2 ^ source.val + 256 ∧ t.VoltageSent t.wakeVoltage ∧
          SameRegsBut [Reg.PWR_WAKE_CAUSE] s t ∧ SameMemory s t))) ∧
    (s.layoverSwitch = true → s.beforeSwitch = false → s.atTarget = true →
      (s.bit Reg.GLB_REFCLK 5 = true → ∃ t, exec .clockSwitch s = .next t ∧ t.pwr.state = .waking ∧ t.cav.powered = true ∧
        t.cav.bistRun = true ∧ t.bit Reg.BOOT_STATUS 14 = true ∧ SameMemory s t) ∧
      (s.bit Reg.GLB_REFCLK 5 = false → ∃ t, exec .clockSwitch s = .next t ∧ t.pwr.state = .active ∧ t.bit Reg.GLB_MODE 3 = true ∧
        t.bit Reg.BOOT_STATUS 14 = false ∧ t.boot.limitedWake = true ∧ SameRegsBut [Reg.GLB_MODE, Reg.BOOT_STATUS] s t ∧ SameMemory s t)) ∧
    (s.coreOn = true → s.pwr.state = .waking → s.boot.fromDormant = false → s.bit Reg.BOOT_STATUS 14 = true → s.cav.bistRun = false →
      s.bit Reg.SUMP_TRAIN 0 = false →
      ∃ t, exec .wakeLayoverReady s = .next t ∧ t.pwr.state = .active ∧ t.pwr.laneDom = 0xFF ∧ t.pwr.admitClosed = false ∧
        t.eng = { s.eng with halting := false } ∧ SameRegsBut ((List.range 32).map Reg.LANE_EQ) s t ∧ SameMemory s t) ∧
    (s.pwr.vaux = true → s.pwr.coreEn = true →
      (s.boot.held = true → exec .pgoodRise s = .next { s with pwr := { s.pwr with pgood := true } }) ∧
      (s.boot.held = false → s.wakingCore = true → s.pwr.wakeAck = true → s.pwr.coldStart = false → s.saveUsable = true →
        ∃ t, exec .pgoodRise s = .next t ∧ t.coreOn = true ∧ t.pwr.state = .waking ∧ t.vout = s.wakeVoltage ∧ t.mem = [] ∧
          t.pwr.save = s.pwr.save ∧ .wakeFailed ∉ t.faultN)) ∧
    (s.coreOn = true → s.pwr.state = .waking → s.boot.fromDormant = true → ∀ v, s.pwr.save = some v →
      ∃ t, exec .restoreEnd s = .next t ∧ t.pwr.state = .active ∧ t.bit Reg.PWR_WAKE_CAUSE 7 = true ∧ SameMemory s t) ∧
    (s.wakingCore = true → s.pwr.wakeAck = false →
      (s.pwr.wakeTries % 4 < 3 → ∃ t, exec .avsAckTimeout s = .next t ∧
        t.pwr = { s.pwr with wakeTries := s.pwr.wakeTries + 1 } ∧ t.VoltageSent s.wakeVoltage ∧ SameRegsBut [] s t ∧ SameMemory s t) ∧
      (∀ c : Instr, (c = .avsAckTimeout ∧ s.pwr.wakeTries % 4 = 3) ∨ c = .avsStep false → ∃ t, exec c s = .next t ∧
        t.pwr = { s.pwr with coreEn := false, pgood := false } ∧ .wakeFailed ∈ t.faultN ∧ Counted Reg.PWR_WAKE_FAIL s t ∧ SameMemory s t) ∧
      (s.pwr.pgood = false → exec (.avsStep true) s = .next { s with pwr := { s.pwr with wakeAck := true } })) ∧
    (s.wakingCore = true → s.pwr.wakeAck = true → s.pwr.pgood = false → ∃ t, exec .wakePgoodTimeout s = .next t ∧
      t.pwr = { s.pwr with coreEn := false, wakeAck := false } ∧ .wakeFailed ∈ t.faultN ∧ Counted Reg.PWR_WAKE_FAIL s t ∧ SameMemory s t) ∧
    (s.wakeWaiting = true → s.pwr.vaux = true → s.boot.held = false → ∃ t, exec .wakeRetry s = .next t ∧ t.wakingCore = true ∧
      t.pwr.wakeWait = min 64 (2 * s.pwr.wakeWait) ∧ t.VoltageSent s.wakeVoltage ∧ SameRegsBut [] s t ∧ SameMemory s t) ∧
    (∀ ns : Nat, (ns < 8000 → exec (.pgoodFall ns) s = .next s) ∧
      (12000 ≤ ns → s.pwr.vaux = true → s.pwr.coreEn = true → s.pwr.pgood = true → ∃ t, exec (.pgoodFall ns) s = .next t ∧
        t.pwr.pgood = false ∧ t.coreOn = false ∧ .pgood ∈ t.faultN ∧ (s.wakingCore = false → SameRegsBut [] s t ∧ SameMemory s t) ∧
        (s.wakingCore = true → t.pwr.state = .active ∧ t.mem = [] ∧ (s.pwr.wakeAck = true → t.vout = s.wakeVoltage) ∧
          SameRegsBut [Reg.AVS_STATUS] s t))) ∧
    (.pgood ∈ s.faultN → s.pwr.coreEn = true → s.boot.held = false → s.pwr.coldStart = false → s.mode ≠ .service → s.bootSrc < 2 →
      s.fld Reg.GLB_STRAPS 7 6 ≠ 3 → ∃ t, exec .pgoodRecover s = .next t ∧ t.coreOn = true ∧ t.mode = .start ∧
        t.fld Reg.BOOT_STATUS 2 0 = 1 ∧ .pgood ∉ t.faultN ∧ t.eng = s.eng.restarted .reset ∧ SameMemory s t) ∧
    (s.coreOn = true → ∀ input : Fin 6,
      (∃ t, exec (.refclkPresent input) s = .next t ∧ t.bit Reg.GLB_REFCLK input.val = true ∧ SameRegsBut [Reg.GLB_REFCLK] s t ∧
        SameMemory s t) ∧
      (∃ t, exec (.refclkAbsent input) s = .next t ∧ t.bit Reg.GLB_REFCLK input.val = false ∧
        (∀ p : TrunkPort, p.val = input.val → t.ports[trunk p].stage = .down) ∧
        (input.val = 4 → ∀ n : LocalPort, t.ports[loc n].stage = .down) ∧
        (input.val = 5 → s.bit Reg.BOOT_STATUS 14 = false → SameRegsBut [Reg.GLB_REFCLK] s t ∧ t.ports = s.ports) ∧
        (input.val = 5 → s.bit Reg.BOOT_STATUS 14 = true → t.bit Reg.BOOT_STATUS 14 = false ∧ t.pwr.laneDom = 0 ∧
          t.beat.timing = .free))) ∧
    (∀ vbat : Bool, s.pwr.vaux = true → ∃ t, exec (.vauxFall vbat) s = .next t ∧ t.pwr.vaux = false ∧ t.pwr.vbat = vbat ∧
      t.pwr.coreEn = false ∧ t.coreOn = false ∧ t.pwr.save = none ∧ t.faultN = [] ∧ t.pd = State.reset.pd ∧
      (∀ r ∈ t.log.pending, r.src = 0x13) ∧ SameMemory s t ∧
      (vbat = false → t.geode.root = none ∧ ∀ k : BitVec 8, (t.slot k).commitOk = false)) ∧
    (∀ held : Bool, s.pwr.vaux = false → ∃ t, exec (.vauxRise held) s = .next t ∧ t.pwr.vaux = true ∧ t.boot.held = true ∧ t.coreOn = false ∧
      t.mem = [] ∧ t.boot.flash = s.boot.flash ∧ t.eng = State.reset.eng ∧ t.ports = State.reset.ports ∧
      (held = true → s.pwr.vbat = true → t.reg Reg.PWR_RTC_SEC = s.reg Reg.PWR_RTC_SEC ∧
        t.reg Reg.AVS_AGE = s.reg Reg.AVS_AGE ∧ t.geode.slots = s.geode.slots ∧
        t.log.ring = s.log.ring) ∧
      (held = false ∨ s.pwr.vbat = false → t.regs = [] ∧ t.geode.root = none ∧ t.log.ring = [])) ∧
    (∀ ok : Bool, s.pwr.vaux = true → ∃ t, exec (.xtalOkChange ok) s = .next t ∧ t.bit Reg.PWR_STATUS 0 = ok ∧
      (ok = true → t.geode.freqArmed = true) ∧ SameRegsBut [Reg.PWR_STATUS] s t ∧ SameMemory s t)

/-- A write of AVS_TARGET steps toward the target that VMIN and VMAX allow, once a step under way has ended, and is done
where VOUT stands there; that of Column 0 before the clock switch shows stage 5. An acknowledged step moves VOUT, is
counted, clears FAIL and FAULT_N, and stepping goes on until the target; one that fails stops at VOUT with FAIL, FAULT_N
and AVS_NACK, before the clock switch with limited RUN due. A step without acknowledgement is written again up to three
times. Every 16,000 heads an evaluation writes the voltage of the process code plus the age; the sixteenth low margin in
a row raises AVS_AGE by one where VMAX allows it. In limited RUN after a failed step the supervisor writes the target
again, and a failed lock of the core PLL is counted, a lock at the target switches at the next head. At the target
before the clock switch a PLL that does not lock is counted and makes limited RUN due, or brings it in a wake from
LAYOVER. Completion: under the conditions given on state and operands alone, exec answers a next state for
AVS_TARGET_WRITE, AVS_STEP, AVS_ACK_TIMEOUT, AVS_EVALUATION, AVS_TARGET_RETRY, PLL_LOCK_RETRY, PLL_LOCK_TIMEOUT. -/
def Obligations.CoreVoltage : Prop :=
  ∀ s : State, s.coreOn = true →
    (∀ (m : Master) (data : Word), s.Inv → s.Takes m Reg.AVS_TARGET → ∃ t, exec (.avsTargetWrite m data) s = .next t ∧
      t.fld Reg.AVS_TARGET 9 0 = bitsOf data 9 0 ∧ t.fld Reg.AVS_STATUS 19 10 = s.avsClamp (bitsOf data 9 0) ∧ t.vout = s.vout ∧
      (s.stepping = false → (s.vout = s.avsClamp (bitsOf data 9 0) → t.stepping = false) ∧
        (s.vout ≠ s.avsClamp (bitsOf data 9 0) → t.stepping = true ∧ t.VoltageSent t.pwr.avsFrom ∧ t.pwr.avsFrom = t.nextVolt)) ∧
      (s.stepping = true → t.stepping = true ∧ t.pwr.avsFrom = s.pwr.avsFrom ∧ t.sent = s.sent) ∧ (m = 0 → t.pwr.avsSet = true) ∧
      (m = 0 ∧ s.beforeSwitch = true → t.fld Reg.BOOT_STATUS 2 0 = 5) ∧
      (m ≠ 0 ∨ s.beforeSwitch = false → t.reg Reg.BOOT_STATUS = s.reg Reg.BOOT_STATUS) ∧
      SameRegsBut [Reg.AVS_TARGET, Reg.AVS_STATUS, Reg.BOOT_STATUS] s t ∧ SameMemory s t) ∧
    (s.stepping = true →
      (s.pwr.avsFrom < 1024 → ∃ t, exec (.avsStep true) s = .next t ∧ t.vout = s.pwr.avsFrom ∧ t.bit Reg.AVS_STATUS 21 = false ∧
        Counted Reg.AVS_STEPS s t ∧ .avsFailed ∉ t.faultN ∧ t.fld Reg.AVS_STATUS 19 10 = s.fld Reg.AVS_STATUS 19 10 ∧
        (s.pwr.avsFrom = s.fld Reg.AVS_STATUS 19 10 → t.stepping = false) ∧
        (s.pwr.avsFrom ≠ s.fld Reg.AVS_STATUS 19 10 → t.stepping = true ∧ t.pwr.avsFrom = t.nextVolt) ∧
        SameRegsBut [Reg.AVS_STATUS, Reg.AVS_STEPS] s t ∧ SameMemory s t) ∧
      (∀ c : Instr, c = .avsStep false ∨ (c = .avsAckTimeout ∧ 3 ≤ s.pwr.avsRetries) → ∃ t, exec c s = .next t ∧
        t.stepping = false ∧ t.bit Reg.AVS_STATUS 21 = true ∧ t.vout = s.vout ∧ Counted Reg.AVS_NACK s t ∧ .avsFailed ∈ t.faultN ∧
        (s.beforeSwitch = true → t.boot.pendingMode = some .run ∧ t.fld Reg.BOOT_STATUS 2 0 = 5) ∧ SameMemory s t) ∧
      (s.pwr.avsRetries < 3 → ∃ t, exec .avsAckTimeout s = .next t ∧ t.pwr = { s.pwr with avsRetries := s.pwr.avsRetries + 1 } ∧
        t.VoltageSent s.pwr.avsFrom ∧ SameRegsBut [] s t ∧ SameMemory s t)) ∧
    (s.bit Reg.AVS_CFG2 8 = true → s.mode = .run → s.pwr.state = .active → s.supervisor.isSome = true → s.pwr.avsHead + 16000 ≤ s.heads →
      (s.fld Reg.AVS_CFG2 7 0 ≤ s.fld Reg.AVS_MARGIN 11 0 → ∃ t, exec .avsEvaluation s = .next t ∧ t.pwr.lowCount = 0 ∧
        t.fld Reg.AVS_TARGET 9 0 = s.avsClamp (s.vProc + 5 * s.fld Reg.AVS_AGE 7 0) ∧
        t.fld Reg.AVS_STATUS 19 10 = s.avsClamp (s.vProc + 5 * s.fld Reg.AVS_AGE 7 0) ∧
        SameRegsBut [Reg.AVS_TARGET, Reg.AVS_STATUS] s t ∧ SameMemory s t) ∧
      (s.fld Reg.AVS_MARGIN 11 0 < s.fld Reg.AVS_CFG2 7 0 → 15 ≤ s.pwr.lowCount →
        s.vProc + 5 * (s.fld Reg.AVS_AGE 7 0 + 1) ≤ s.avsHigh → ∃ t, exec .avsEvaluation s = .next t ∧
        t.fld Reg.AVS_AGE 7 0 = s.fld Reg.AVS_AGE 7 0 + 1 ∧ Counted Reg.AVS_RAISES s t ∧
        t.fld Reg.AVS_TARGET 9 0 = s.avsClamp (s.vProc + 5 * (s.fld Reg.AVS_AGE 7 0 + 1)) ∧ SameMemory s t)) ∧
    (s.limited = true →
      (s.bit Reg.AVS_STATUS 21 = true → s.supervisor.isSome = true → ∃ t, exec .avsTargetRetry s = .next t ∧
        t.fld Reg.AVS_STATUS 19 10 = s.avsClamp (s.fld Reg.AVS_TARGET 9 0) ∧
        t.stepping = (s.stepping || decide (s.vout ≠ s.avsClamp (s.fld Reg.AVS_TARGET 9 0))) ∧ SameRegsBut [Reg.AVS_STATUS] s t ∧ SameMemory s t) ∧
      (s.bit Reg.AVS_STATUS 21 = false ∨ s.supervisor = none → exec .avsTargetRetry s = .next s) ∧
      (∀ locked : Bool, locked = false ∨ s.bit Reg.GLB_REFCLK 5 = false → ∃ t, exec (.pllLockRetry locked) s = .next t ∧
        Counted Reg.PWR_PLL_FAIL s t ∧ t.boot = s.boot ∧ SameRegsBut [Reg.PWR_PLL_FAIL] s t ∧ SameMemory s t) ∧
      (s.bit Reg.GLB_REFCLK 5 = true → s.atTarget = true → exec (.pllLockRetry true) s =
        .next { s with boot := { s.boot with pllLocked := true } })) ∧
    (s.atTarget = true →
      (s.beforeSwitch = true → ∃ t, exec .pllLockTimeout s = .next t ∧ Counted Reg.PWR_PLL_FAIL s t ∧
        t.boot = { s.boot with pendingMode := some .run } ∧ t.fld Reg.BOOT_STATUS 2 0 = 5 ∧
        SameRegsBut [Reg.PWR_PLL_FAIL, Reg.BOOT_STATUS] s t ∧ SameMemory s t) ∧
      (s.beforeSwitch = false → s.layoverSwitch = true → ∃ t, exec .pllLockTimeout s = .next t ∧ Counted Reg.PWR_PLL_FAIL s t ∧
        t.pwr.state = .active ∧ t.bit Reg.GLB_MODE 3 = true ∧ t.boot.limitedWake = true ∧
        SameRegsBut [Reg.PWR_PLL_FAIL, Reg.GLB_MODE, Reg.BOOT_STATUS] s t ∧ SameMemory s t)) ∧
    (s.atTarget = false ∨ s.switchToCome = false → exec .pllLockTimeout s = .next s)

/-- A conversion shows its code as valid; on a temperature channel a condition stands from its threshold on and clears HYST
codes below it; a rise of CRIT is counted and with its enable on FAULT_N, and the second reading in a row at or above
130 degrees starts the cutoff with the lane groups off. With the core off only the Bedrock channel converts. The core
then goes off without a save, and once that channel reads at or below RESTART the hub starts as under RESET with
CUT_START. The log writer writes the oldest record with its CRC at HEAD and advances it, on VBAT alone only a tamper
record; a trend update that waits follows the last. A write of LOG_RD_ADDR copies a record into its master's registers,
and LOG_PUT_CMD queues a record of its master, or counts it lost where 16 wait. Other channels stay as they are.
Completion: under the conditions given on state and operands alone, exec answers a next state for MON_CONVERSION,
CUTOFF_CORE_OFF, THERMAL_RESTART, LOG_RECORD_WRITE, LOG_RD_ADDR_WRITE, LOG_PUT_CMD. -/
def Obligations.MonitorsAndLog : Prop :=
  ∀ s : State,
    (∀ (ch : ChannelIx) (code : BitVec 12), s.pwr.vaux = true →
      (s.coreOn = true ∨ ch.val = 8 → ∃ t, exec (.monConversion [(ch, code)]) s = .next t ∧ t.mon[ch].code = code ∧ t.mon[ch].valid = true ∧
        (∀ j : ChannelIx, j ≠ ch → t.mon[j] = s.mon[j]) ∧
        (ch.val ≤ 8 →
          (let th := s.fld (Reg.MON_TH ch.val) 11 0
           let crit := s.fld (Reg.MON_TH ch.val) 23 12
           let hyst := s.fld (Reg.MON_TH ch.val) 31 24
           (0 < th → th < 0xFFF → (th ≤ code.toNat → t.mon[ch].warn = true) ∧ (code.toNat < th → code.toNat + hyst ≤ th → t.mon[ch].warn = false)) ∧
           (th = 0 ∨ th = 0xFFF → t.mon[ch].warn = false) ∧
           (0 < crit → crit < 0xFFF → (crit ≤ code.toNat → t.mon[ch].crit = true ∧
             (s.mon[ch].crit = false → Counted Reg.MON_CRIT_EVENTS s t ∧ (s.bit Reg.MON_CFG 0 = true → .crit ch ∈ t.faultN))) ∧
             (code.toNat < crit → code.toNat + hyst ≤ crit → t.mon[ch].crit = false)))) ∧
        (ch.val < 8 → 3104 ≤ code.toNat → 1 ≤ s.mon[ch].hot → .cutoff ∉ s.faultN → .cutoff ∈ t.faultN ∧ t.pwr.laneDom = 0 ∧
          Counted Reg.MON_CUTOFFS s t)) ∧
      (s.coreOn = false → ch.val ≠ 8 → ∃ t, exec (.monConversion [(ch, code)]) s = .next t ∧ t.mon = s.mon ∧ t.faultN = s.faultN ∧
        (s.log.pending.length ≤ 16 → t.log = s.log ∧ SameRegsBut [] s t) ∧ SameMemory s t)) ∧
    (.cutoff ∈ s.faultN → s.pwr.state ≠ .cutoff → ∃ t, exec .cutoffCoreOff s = .next t ∧ t.pwr.state = .cutoff ∧ t.coreOn = false ∧
      t.pwr.coreEn = false ∧ t.pwr.save = s.pwr.save ∧ SameRegsBut [] s t ∧ SameMemory s t) ∧
    (s.pwr.state = .cutoff → s.mon[(8 : ChannelIx)].valid = true → s.mon[(8 : ChannelIx)].code.toNat ≤ s.restartCode →
      s.boot.held = false → s.pwr.coldStart = false → s.mode ≠ .service → s.bootSrc < 2 → s.fld Reg.GLB_STRAPS 7 6 ≠ 3 →
      ∃ t, exec .thermalRestart s = .next t ∧ t.coreOn = true ∧ t.mode = .start ∧ t.fld Reg.BOOT_STATUS 2 0 = 1 ∧
        t.bit Reg.MON_STATUS 2 = true ∧ .cutoff ∉ t.faultN ∧ SameMemory s t) ∧
    (∀ (r : EventRecord) (rest : List EventRecord), s.log.pending = r :: rest → s.pwr.vaux = true ∨ (s.pwr.vbat = true ∧ r.src = 0x13) →
      s.fld Reg.LOG_STATUS 10 0 < 1536 → s.fld Reg.LOG_STATUS 21 11 ≤ 1536 → ∃ t, exec .logRecordWrite s = .next t ∧
        (let w : EventRecord := { r with seq := BitVec.ofNat 16 (s.fld Reg.LOG_SEQ 15 0) }
         t.vaultRecord (s.fld Reg.LOG_STATUS 10 0) = w.body ++ leBytes 2 (crc16 w.body).toNat) ∧
        (∀ i, i < 1536 → i ≠ s.fld Reg.LOG_STATUS 10 0 → t.vaultRecord i = s.vaultRecord i) ∧ t.log.pending = rest ∧
        t.fld Reg.LOG_STATUS 10 0 = (s.fld Reg.LOG_STATUS 10 0 + 1) % 1536 ∧
        t.fld Reg.LOG_STATUS 21 11 = min 1536 (s.fld Reg.LOG_STATUS 21 11 + 1) ∧
        (s.fld Reg.LOG_STATUS 21 11 = 1536 → t.bit Reg.LOG_STATUS 22 = true) ∧
        (t.reg Reg.LOG_SEQ).toNat = (s.fld Reg.LOG_SEQ 15 0 + 1) % 65536 ∧ Counted Reg.LOG_RECORDS s t ∧
        (s.log.trendDue = false ∨ rest ≠ [] → SameRegsBut [Reg.LOG_STATUS, Reg.LOG_SEQ, Reg.LOG_RECORDS] s t) ∧
        (s.log.trendDue = true → rest = [] → s.mode = .run → t.log.trendDue = false) ∧ SameMemory s t) ∧
    (∀ (r : EventRecord) (rest : List EventRecord), s.log.pending = r :: rest → s.pwr.vaux = false → s.pwr.vbat = false ∨ r.src ≠ 0x13 →
      exec .logRecordWrite s = .next s) ∧
    (∀ (m : Master) (data : Word), s.Inv →
      (s.Takes m Reg.LOG_RD_ADDR → ∃ t, exec (.logRdAddrWrite m data) s = .next t ∧ t.log = s.log ∧
        (∀ i, i < 8 → (t.reg (pmKey m (Reg.LOG_RD i))).toNat = leNat (((s.vaultRecord (bitsOf data 15 5)).drop (4 * i)).take 4)) ∧
        SameRegsBut (pmKey m Reg.LOG_RD_ADDR :: (List.range 8).map fun i => pmKey m (Reg.LOG_RD i)) s t ∧ SameMemory s t) ∧
      (s.Takes m Reg.LOG_PUT_CMD → s.pwr.vaux = true →
        (s.log.pending.length < 16 → ∃ t r, exec (.logPutCmd m data) s = .next t ∧ t.log.pending = s.log.pending ++ [r] ∧ r.src = 0xFF ∧
          r.code.toNat = s.fld (pmKey m Reg.LOG_PUT0) 7 0 ∧ r.stamp = s.reg Reg.PWR_RTC_SEC ∧ r.beat = s.beatNum ∧
          r.data = ((List.range 3).flatMap fun i => leBytes 4 (s.reg (pmKey m (Reg.LOG_PUT1 i))).toNat) ∧ t.log.ring = s.log.ring ∧
          SameRegsBut [] s t ∧ SameMemory s t) ∧
        (16 ≤ s.log.pending.length → ∃ t, exec (.logPutCmd m data) s = .next t ∧ Counted Reg.LOG_LOST s t ∧ t.log = s.log ∧
          SameRegsBut [Reg.LOG_LOST] s t ∧ SameMemory s t)))

/-- In ACTIVE: Rp on UP is AttachWait, and once settled an attach that reports its orientation and Rp, upon which outside
SERVICE the hub connects at the fastest speed of the host and the hub, with SuperSpeed where it is enabled; a detach
closes the session and ends the connection. Rd on one CC pin of DN1 or DN2 is AttachWait, and once settled an attach
that shows Rp, applies 5 V within 2 percent from RUN on and sends Source_Capabilities; before RUN, or while Column 2
holds its firmware and does not run (log 115), or with another load, nothing happens. A detach removes VBUS, and one in
a transition is counted. An over-current takes the port's power, or that of all four where power is ganged, is counted,
and on DN1 and DN2 ends VBUS and the contract with ErrorRecovery. The host powers a port and takes its power; a device
of a powered port is reported. Discharge ends with the port Unattached unless attached, where VBUS is applied again from
RUN on, or after 650 ms in HELD with FAULT_N. Without Source_Capabilities the hub connects in SERVICE. A settled voltage
sends PS_RDY, one that does not settle a Hard Reset; a changed register makes a port with a contract owe
Source_Capabilities. Completion: under the conditions given on state and operands alone, exec answers a next state for
USB_UP_ATTACH, USB_UP_DETACH, USB_DN_ATTACH, USB_DN_DETACH, USB_OVER_CURRENT, SET_PORT_POWER, CLEAR_PORT_POWER,
USB_DEVICE_CONNECT, DISCHARGE_END, DISCHARGE_TIMEOUT, SERVICE_CONNECT_TIMEOUT, VBUS_SETTLED, SRC_SETTLE_TIMEOUT,
PD_SRC_PDO_CHANGE. -/
def Obligations.TypeCAndVbus : Prop :=
  ∀ s : State, s.usbUp = true → s.pwr.state = .active →
    (s.pd[(0 : PdPort)].detached = true → ∀ (plug : UpPlug) (rp : BitVec 2), (rp = 0 → exec (.usbUpAttach plug rp) s = .next s) ∧
      (rp ≠ 0 → plug.settled = false → ∃ t, exec (.usbUpAttach plug rp) s = .next t ∧
        t.pd[(0 : PdPort)] = { s.pd[(0 : PdPort)] with tc := .attachWait } ∧ t.usb = s.usb ∧ SamePdBut 0 s t ∧ SameRegsBut [] s t ∧
        SameMemory s t) ∧
      (rp ≠ 0 → plug.settled = true → ∃ t, exec (.usbUpAttach plug rp) s = .next t ∧
        t.pd[(0 : PdPort)].tc = .attached ∧ t.pd[(0 : PdPort)].cc2 = plug.cc2 ∧ t.pd[(0 : PdPort)].rpSeen = rp ∧
        t.pd[(0 : PdPort)].source = false ∧ t.usb.host = plug.host ∧
        490 ≤ (t.reg (Reg.PD_VBUS 0)).toNat ∧ (t.reg (Reg.PD_VBUS 0)).toNat ≤ 510 ∧
        (s.mode ≠ .service → t.upSpeed = min plug.host.toNat (if s.bit Reg.USB_CFG 0 then 3 else 2) ∧
          t.usb.mfOn = (s.mfAllowed && t.upSpeed != 0) ∧ t.usb.cfg = s.reg Reg.USB_CFG) ∧
        (s.mode = .service → t.upSpeed = s.upSpeed) ∧ SamePdBut 0 s t ∧ SameRegsBut [Reg.PD_VBUS 0, Reg.USB_STATUS] s t ∧ SameMemory s t)) ∧
    (s.pd[(0 : PdPort)].tc ≠ .unattached → ∃ t, exec .usbUpDetach s = .next t ∧ t.pd[(0 : PdPort)].tc = .unattached ∧
      t.pd[(0 : PdPort)].contract = none ∧ t.mfSession = 0 ∧ t.upSpeed = 0 ∧ t.usb.mfOn = false ∧ t.usb.replies = [] ∧ SamePdBut 0 s t ∧
      SameRegsBut [Reg.PD_VBUS 0, Reg.USB_STATUS, Reg.USB_MF_SESSION] s t ∧ SameMemory s t) ∧
    (∀ (port : DnPd) (plug : DnPlug), s.pd[dnPd port].detached = true → s.pd[dnPd port].rpOff = false → s.pd[dnPd port].disch = false →
      (s.dnPowered = false ∨ s.hwPolicy = true ∨ dnAttaches plug = false → exec (.usbDnAttach port plug) s = .next s) ∧
      (s.dnPowered = true → s.hwPolicy = false → dnAttaches plug = true →
        (plug.settled = false → ∃ t, exec (.usbDnAttach port plug) s = .next t ∧
          t.pd[dnPd port] = { s.pd[dnPd port] with tc := .attachWait } ∧ t.usb = s.usb ∧ SamePdBut (dnPd port) s t ∧ SameRegsBut [] s t ∧
          SameMemory s t) ∧
        (plug.settled = true → ∃ t, exec (.usbDnAttach port plug) s = .next t ∧ t.pd[dnPd port].tc = .attached ∧
          t.pd[dnPd port].cc2 = (plug.cc2 == .rd) ∧ t.pd[dnPd port].vbusEn = true ∧ t.pd[dnPd port].vsel = 0 ∧
          490 ≤ (t.reg (Reg.PD_VBUS (dnPd port).val)).toNat ∧ (t.reg (Reg.PD_VBUS (dnPd port).val)).toNat ≤ 510 ∧
          .ccRp (dnPd port) (BitVec.ofNat 2 (min 2 (s.fld (Reg.PD_PORT_CFG (dnPd port).val) 2 1))) ∈ t.sent ∧
          (s.usb.portPower.getLsbD port.val = true → t.usb.conn.getLsbD port.val = true) ∧
          (s.bit (Reg.PD_PORT_CFG (dnPd port).val) 0 = true → .pdSourceCaps (dnPd port) (s.dnOffer (dnPd port)) ∈ t.sent) ∧
          SamePdBut (dnPd port) s t ∧ SameRegsBut [Reg.PD_VBUS (dnPd port).val] s t ∧ SameMemory s t))) ∧
    (∀ port : DnPd, s.pd[dnPd port].tc = .attached → ∃ t, exec (.usbDnDetach port) s = .next t ∧ t.pd[dnPd port].tc = .unattached ∧
      t.pd[dnPd port].vbusEn = false ∧ t.pd[dnPd port].contract = none ∧ t.pd[dnPd port].transition = none ∧
      t.usb.conn.getLsbD port.val = false ∧ (s.pd[dnPd port].vbusEn = true → t.pd[dnPd port].disch = true) ∧
      (s.pd[dnPd port].transition.isSome = true → Counted (Reg.PD_XITION_ABORT (dnPd port).val) s t) ∧
      (s.pd[dnPd port].transition = none → SameRegsBut [] s t) ∧ SamePdBut (dnPd port) s t ∧ SameMemory s t) ∧
    (s.ocGanged = true → ∀ n : DnPort,
      (∃ t, exec (.usbOverCurrent n) s = .next t ∧ Counted (Reg.USB_OC_EVENTS n.val) s t ∧
        ∀ j : DnPort, t.usb.portPower.getLsbD j.val = false ∧ t.bit Reg.USB_STATUS (8 + j.val) = true) ∧
      (∃ t, exec (.setPortPower n) s = .next t ∧
        ∀ j : DnPort, t.usb.portPower.getLsbD j.val = true ∧ t.bit Reg.USB_STATUS (8 + j.val) = false)) ∧
    (∀ n : DnPort, s.ocGanged = false →
      (∃ t, exec (.usbOverCurrent n) s = .next t ∧ Counted (Reg.USB_OC_EVENTS n.val) s t ∧ t.usb.portPower.getLsbD n.val = false ∧
        t.bit Reg.USB_STATUS (8 + n.val) = true ∧ .usbPortChange n true ∈ t.sent ∧ SameMemory s t ∧
        (∀ port : DnPd, port.val = n.val → t.pd[dnPd port].oc = true ∧ t.pd[dnPd port].vbusEn = false ∧ t.pd[dnPd port].contract = none ∧
          (s.pd[dnPd port].tc = .attached → t.pd[dnPd port].tc = .errorRecovery) ∧ Counted (Reg.PD_OC (dnPd port).val) s t)) ∧
      (∃ t, exec (.setPortPower n) s = .next t ∧ t.usb.portPower.getLsbD n.val = true ∧ t.bit Reg.USB_STATUS (8 + n.val) = false ∧
        (∀ port : DnPd, port.val = n.val → t.pd[dnPd port].rpOff = false ∧ t.pd[dnPd port].oc = false) ∧
        SameRegsBut [Reg.USB_STATUS] s t ∧ SameMemory s t)) ∧
    (∀ n : DnPort, (∃ t, exec (.clearPortPower n) s = .next t ∧ t.usb.portPower.getLsbD n.val = false ∧ t.usb.conn.getLsbD n.val = false ∧
      (∀ port : DnPd, port.val = n.val → t.pd[dnPd port].rpOff = true ∧
        (s.pd[dnPd port].tc = .attached → t.pd[dnPd port].tc = .unattached ∧ t.pd[dnPd port].vbusEn = false)) ∧ SameMemory s t) ∧
      (∀ connected : Bool, s.dnPowered = true → s.usb.portPower.getLsbD n.val = true → ∃ t, exec (.usbDeviceConnect n connected) s = .next t ∧
        t.usb.conn.getLsbD n.val = connected ∧ .usbPortChange n false ∈ t.sent ∧ t.pd = s.pd ∧ SameRegsBut [] s t ∧ SameMemory s t)) ∧
    (∀ port : PdPort, s.pwr.vaux = true → s.pd[port].disch = true →
      (∃ t, exec (.dischargeEnd port) s = .next t ∧ t.pd[port].disch = false ∧ t.pd[port].dischFault = false ∧ .discharge port ∉ t.faultN ∧
        (s.pd[port].tc ≠ .attached → t.reg (Reg.PD_VBUS port.val) = 0 ∧ (s.pd[port].tc ≠ .attachWait → t.pd[port].tc = .unattached)) ∧
        (s.pd[port].tc = .attached → port ≠ 0 → s.dnPowered = true → t.pd[port].tc = .attached ∧ t.pd[port].vbusEn = true) ∧
        SameRegsBut [Reg.PD_VBUS port.val] s t ∧ SameMemory s t) ∧
      (s.pd[port].tc ≠ .held → ∃ t, exec (.dischargeTimeout port) s = .next t ∧ t.pd[port].tc = .held ∧ t.pd[port].dischFault = true ∧
        Counted (Reg.PD_DISCH_FAULT port.val) s t ∧ .discharge port ∈ t.faultN ∧ SamePdBut port s t ∧ SameMemory s t)) ∧
    (s.mode = .service → s.pd[(0 : PdPort)].tc = .attached → s.pd[(0 : PdPort)].asked = none → s.upSpeed = 0 →
      ∃ t, exec .serviceConnectTimeout s = .next t ∧
      t.upSpeed = min s.usb.host.toNat (if 2 ≤ s.pd[(0 : PdPort)].rpSeen.toNat ∧ s.bit Reg.USB_CFG 0 = true then 3 else 2) ∧
      t.bit Reg.USB_STATUS 20 = decide (s.pd[(0 : PdPort)].rpSeen.toNat < 2) ∧ SameRegsBut [Reg.USB_STATUS] s t ∧ SameMemory s t) ∧
    (∀ (port : DnPd) (mv : Nat), s.pd[dnPd port].transition = some mv →
      (∃ t, exec (.vbusSettled port) s = .next t ∧ t.pd[dnPd port] = { s.pd[dnPd port] with transition := none, msgId := s.pd[dnPd port].msgId + 1 } ∧
        .pdPsRdy (dnPd port) ∈ t.sent ∧ SameRegsBut [Reg.PD_VBUS (dnPd port).val] s t ∧ SameMemory s t) ∧
      (∃ t, exec (.srcSettleTimeout port) s = .next t ∧ t.pd[dnPd port].contract = none ∧ t.pd[dnPd port].vbusEn = false ∧
        t.pd[dnPd port].transition = none ∧ .pdHardReset (dnPd port) ∈ t.sent ∧ Counted (Reg.PD_XITION_FAIL (dnPd port).val) s t ∧
        Counted (Reg.PD_HARD_RESET (dnPd port).val) s t ∧ SamePdBut (dnPd port) s t ∧
        SameRegsBut [Reg.PD_XITION_FAIL (dnPd port).val, Reg.PD_HARD_RESET (dnPd port).val] s t ∧ SameMemory s t)) ∧
    (∀ port : DnPd, ∃ t, exec (.pdSrcPdoChange port) s = .next t ∧
      t.pd[dnPd port] = { s.pd[dnPd port] with pdoDue := s.pd[dnPd port].pdoDue || s.pd[dnPd port].contract.isSome } ∧
      SamePdBut (dnPd port) s t ∧ t.sent = s.sent ∧ SameRegsBut [] s t ∧ SameMemory s t)

/-- While the host reaches the function in ACTIVE: OPEN_SESSION opens a session and counts it where the function admits one,
changes nothing while one is open, and stalls otherwise; CLOSE_SESSION closes it; GET_SESSION returns USB_MF_SESSION;
each stalls with other fields. PING answers whether a buffer is free. With LPM_EN at the attach an LPM token is answered
with L1 while no reply waits. Bulk IN takes the oldest reply. A bus reset closes the session and returns the function to
Default, counted when it cuts a control transfer. Suspend and resume show in LINK, remote wake is signalled once and
counted after its decision, and a resume that collides with it is counted; a Function Wake follows at SuperSpeed after a
signal or while the cause holds. A reply taken makes bulk OUT that answered NRDY ready again. The standard requests set
what they name and report the descriptors; U1 and U2 stall, and their entry is rejected, without their enable at the
attach; a vendor request that is none of Table USB-4 stalls. The suspend of a downstream port, as hub class has it (log
140), stalls where nothing is connected. Completion: under the conditions given on state and operands alone, exec
answers a next state for OPEN_SESSION, CLOSE_SESSION, GET_SESSION, PING, LPM_TOKEN, BULK_IN_TRANSFER, USB_BUS_RESET,
USB_SUSPEND, REMOTE_WAKE, HOST_RESUME, STANDARD_REQUEST. -/
def Obligations.MaintenanceFunction : Prop :=
  ∀ s : State, s.usbUp = true → s.pwr.state = .active → s.upSpeed ≠ 0 →
    (s.usb.mfOn = true →
      (∀ v i l : BitVec 16,
        (v = 0 → i = 0 → l = 0 → s.mfAdmits = true →
          (s.mfSession ≠ 1 → ∃ t, exec (.openSession v i l) s = .next t ∧ t.mfSession = 1 ∧ Counted Reg.USB_SESSIONS s t ∧ t.usb = s.usb ∧
            SameRegsBut [Reg.USB_MF_SESSION, Reg.USB_SESSIONS] s t ∧ SameMemory s t) ∧
          (s.mfSession = 1 → exec (.openSession v i l) s = .next s)) ∧
        (v ≠ 0 ∨ i ≠ 0 ∨ l ≠ 0 ∨ s.mfAdmits = false → exec (.openSession v i l) s = .next (s.emit .usbStall)) ∧
        (v = 0 → i = 0 → l = 0 → ∃ t, exec (.closeSession v i l) s = .next t ∧ t.mfSession = 0 ∧ t.usb = s.usb ∧
          SameRegsBut [Reg.USB_MF_SESSION] s t ∧ SameMemory s t) ∧
        (v ≠ 0 ∨ i ≠ 0 ∨ l ≠ 0 → exec (.closeSession v i l) s = .next (s.emit .usbStall)) ∧
        (v = 0 → i = 0 → l = 4 → exec (.getSession v i l) s = .next (s.emit (.usbData s.mfSessionWord))) ∧
        (v ≠ 0 ∨ i ≠ 0 ∨ l ≠ 4 → exec (.getSession v i l) s = .next (s.emit .usbStall))) ∧
      exec .ping s = .next (s.emit (.usbPing (decide (s.usb.replies.length < 8) && !s.policyAway))) ∧
      (s.usb.cfg.getLsbD 1 = true → s.upSpeed ≠ 3 →
        (s.usb.replies = [] → ∃ t, exec .lpmToken s = .next t ∧ .usbLpm true ∈ t.sent ∧ t.fld Reg.USB_STATUS 3 2 = 1 ∧
          t.upSpeed = s.upSpeed ∧ SameRegsBut [Reg.USB_STATUS] s t ∧ SameMemory s t) ∧
        (s.usb.replies ≠ [] → exec .lpmToken s = .next (s.emit (.usbLpm false)))) ∧
      (s.usb.replies = [] → exec .bulkInTransfer s = .next s) ∧
      (∀ r rest, s.usb.replies = r :: rest → ∃ t, exec .bulkInTransfer s = .next t ∧
        (let ready := s.usb.nrdy && decide (rest.length < 8) && !s.policyAway
         let reply : Output := .usbReply r.op r.tag r.count r.done r.status r.data
         (ready = false → t.usb = { s.usb with replies := rest } ∧ t.sent = reply :: s.sent) ∧
         (ready = true → t.usb = { s.usb with replies := rest, nrdy := false } ∧ t.sent = .usbBulk .erdy :: reply :: s.sent)) ∧
        SameRegsBut [] s t ∧ SameMemory s t)) ∧
    (∀ control : Bool, ∃ t, exec (.usbBusReset control) s = .next t ∧ t.mfSession = 0 ∧ t.usb.configured = false ∧ t.usb.address = 0 ∧
      t.usb.rwEnabled = false ∧ t.usb.suspended = false ∧ t.usb.replies = [] ∧ t.upSpeed = s.upSpeed ∧
      (control = true → Counted Reg.USB_CTL_RESET_ABORT s t) ∧ (control = false → t.reg Reg.USB_CTL_RESET_ABORT = s.reg Reg.USB_CTL_RESET_ABORT) ∧
      SameRegsBut [Reg.USB_MF_SESSION, Reg.USB_STATUS, Reg.USB_CTL_RESET_ABORT] s t ∧ SameMemory s t) ∧
    (∃ t, exec .usbSuspend s = .next t ∧ t.usb = { s.usb with
        suspended := true, signalled := false, logSince := false
        decided := s.usb.rwEnabled && s.usb.mfOn && s.bit Reg.USB_MF_CFG 1 && !s.faultN.isEmpty } ∧
      t.fld Reg.USB_STATUS 3 2 = (if s.upSpeed = 3 then 3 else 2) ∧ t.upSpeed = s.upSpeed ∧ SameRegsBut [Reg.USB_STATUS] s t ∧ SameMemory s t) ∧
    (s.wantsWake = true → ∃ t, exec .remoteWake s = .next t ∧ t.usb = { s.usb with signalled := true } ∧ Counted Reg.USB_RWAKE s t ∧
      .usbRemoteWake ∈ t.sent ∧ SameRegsBut [Reg.USB_RWAKE] s t ∧ SameMemory s t) ∧
    (s.wantsWake = false → exec .remoteWake s = .next s) ∧
    (s.usb.suspended = true → ∃ t, exec .hostResume s = .next t ∧ t.usb = { s.usb with suspended := false, signalled := false, decided := false } ∧
      t.fld Reg.USB_STATUS 3 2 = 0 ∧ t.upSpeed = s.upSpeed ∧ (s.wantsWake = true → Counted Reg.USB_RESUME_COLLIDE s t) ∧
      (s.wantsWake = false → t.reg Reg.USB_RESUME_COLLIDE = s.reg Reg.USB_RESUME_COLLIDE) ∧
      (s.upSpeed = 3 → s.usb.signalled = true ∨ (s.wantsWake = true ∧ s.wakeCauseNow = true) → t.sent = .usbFunctionWake :: s.sent) ∧
      (s.upSpeed ≠ 3 ∨ (s.usb.signalled = false ∧ (s.wantsWake = false ∨ s.wakeCauseNow = false)) → t.sent = s.sent) ∧
      SameRegsBut [Reg.USB_STATUS, Reg.USB_RESUME_COLLIDE] s t ∧ SameMemory s t) ∧
    (s.usb.suspended = false → ∃ t, exec .hostResume s = .next t ∧ t.usb = { s.usb with mfLink := 0 } ∧ t.fld Reg.USB_STATUS 3 2 = 0 ∧
      t.upSpeed = s.upSpeed ∧ SameRegsBut [Reg.USB_STATUS] s t ∧ SameMemory s t) ∧
    (∀ a : BitVec 7, exec (.standardRequest (.setAddress a)) s = .next { s with usb := { s.usb with address := a } }) ∧
    (∀ c : Byte, exec (.standardRequest (.setConfiguration c)) s = .next { s with usb := { s.usb with configured := c != 0 } }) ∧
    (∀ on : Bool, exec (.standardRequest (.setRemoteWake on)) s = .next { s with usb := { s.usb with
          rwEnabled := on
          decided := s.usb.decided || (s.usb.suspended && on && s.usb.mfOn && !s.usb.signalled && s.wakeCauseNow) } } ∧
      (s.usb.cfg.getLsbD 2 = true → s.upSpeed = 3 →
        exec (.standardRequest (.setU1 on)) s = .next { s with usb := { s.usb with u1 := on } } ∧
        exec (.standardRequest (.setU2 on)) s = .next { s with usb := { s.usb with u2 := on } }) ∧
      (s.usb.cfg.getLsbD 2 = false ∨ s.upSpeed ≠ 3 → exec (.standardRequest (.setU1 on)) s = .next (s.emit .usbStall) ∧
        exec (.standardRequest (.setU2 on)) s = .next (s.emit .usbStall))) ∧
    (∀ k : UsbDescriptorKind, exec (.standardRequest (.getDescriptor k)) s = .next (s.emit (.usbDescriptor (s.descriptor k)))) ∧
    (∀ b : Byte, exec (.standardRequest (.vendor b)) s = .next (s.emit .usbStall)) ∧
    (s.upSpeed = 3 → s.usb.suspended = false → ∀ u2 : Bool,
      (s.usb.cfg.getLsbD 2 = false → exec (.standardRequest (.linkEntry u2)) s = .next (s.emit (.usbLinkEntry u2 false))) ∧
      (s.usb.cfg.getLsbD 2 = true → ∃ t, exec (.standardRequest (.linkEntry u2)) s = .next t ∧ t.sent = .usbLinkEntry u2 true :: s.sent ∧
        t.fld Reg.USB_STATUS 3 2 = (if u2 then 2 else 1) ∧ t.usb = s.usb ∧ SameRegsBut [Reg.USB_STATUS] s t ∧ SameMemory s t)) ∧
    (∀ (n : DnPort) (on : Bool),
      (s.usb.conn.getLsbD n.val = false → exec (.standardRequest (.portSuspend n on)) s = .next (s.emit .usbStall)) ∧
      (s.usb.conn.getLsbD n.val = true → ∃ t, exec (.standardRequest (.portSuspend n on)) s = .next t ∧ t.usb.portSusp.getLsbD n.val = on ∧
        t.usb.portL1.getLsbD n.val = false ∧ (∀ j : DnPort, j ≠ n → t.usb.portSusp.getLsbD j.val = s.usb.portSusp.getLsbD j.val) ∧
        t.sent = s.sent ∧ SameRegsBut [] s t ∧ SameMemory s t))

/-- Where PD runs on a port each message is acknowledged with GoodCRC. While Column 2 is not away: Source_Capabilities with
a 5 V supply make UP as sink request it at the smaller of its want and the offer, with the mismatch shown, and the
partner's PS_RDY makes that contract hold, upon which the hub connects in SERVICE. A Request for a supply last offered
within its current is accepted and holds, a DN port that drives VBUS moving its voltage; any other is rejected, and on
DN1 and DN2 none is answered while Column 2 holds its firmware and does not run (log 115). Capabilities are answered,
and what a port has no answer for is Not_Supported and counted. PR_Swap is accepted by UP as R421 says, ends with the
partner's PS_RDY, and is else rejected and counted; DR_Swap is rejected. A Soft Reset is accepted and counted with the
message IDs restarted; a Hard Reset ends the contract, aborts a swap and takes a source's VBUS away. A message without
GoodCRC is counted, and a Soft Reset or Hard Reset sent upon it is the choice of log 51. While Column 2 is away a
Request, PR_Swap, DR_Swap and VCONN_Swap are answered Wait, and Get_Source_Cap from the last capabilities sent.
Completion: under the conditions given on state and operands alone, exec answers a next state for SOURCE_CAPABILITIES,
PD_REQUEST, GET_SOURCE_CAP, GET_SINK_CAP, PR_SWAP, DR_SWAP, DISCOVER_IDENTITY, UNSUPPORTED_PD_MESSAGE, PS_RDY_RECEIVED,
SOFT_RESET, HARD_RESET, GOODCRC_TIMEOUT. -/
def Obligations.PdMessages : Prop :=
  ∀ (s : State) (port : PdPort), s.pdOn port = true →
    (s.policyAway = false →
      (∀ (pdos : List FixedPdo) (pd3 : Bool),
        (port = 0 → s.pd[port].source = false → ∀ i o, pdos.findIdx? (fun x => x.volt == 100) = some i →
          pdos.find? (fun x => x.volt == 100) = some o → ∃ t, exec (.sourceCapabilities port pdos pd3) s = .next t ∧
          (let c : Contract := { pos := BitVec.ofNat 3 (i + 1), cur := BitVec.ofNat 10 (min s.upSnkCur o.cur.toNat), volt := 100,
                                 mismatch := decide (o.cur.toNat < s.upSnkCur) || s.upSnkCur == 0x3FF }
           t.pd[port].asked = some c ∧ t.pd[port].contract = s.pd[port].contract ∧
           t.sent = .pdRequest 0 c.pos c.cur c.mismatch :: .pdGoodCrc port :: s.sent) ∧
          t.pd[port].partner = true ∧ t.pd[port].rev = (if pd3 then 2 else 1) ∧ SamePdBut port s t ∧ SameRegsBut [] s t ∧ SameMemory s t) ∧
        (port ≠ 0 ∨ s.pd[port].source = true ∨ pdos.find? (fun x => x.volt == 100) = none →
          ∃ t, exec (.sourceCapabilities port pdos pd3) s = .next t ∧
          t.pd[port] = { s.pd[port] with partner := true, rev := if pd3 then 2 else 1 } ∧ t.sent = .pdGoodCrc port :: s.sent ∧
          SamePdBut port s t ∧ SameRegsBut [] s t ∧ SameMemory s t)) ∧
      (∀ (head : RequestHead) (cur : BitVec 10),
        (port ≠ 0 → s.hwPolicy = true → ∃ t, exec (.pdRequest port head cur) s = .next t ∧ t.sent = .pdGoodCrc port :: s.sent ∧
          t.pd[port].contract = s.pd[port].contract ∧ SamePdBut port s t ∧ SameRegsBut [] s t ∧ SameMemory s t) ∧
        (port = 0 ∨ s.hwPolicy = false →
          (let found := pdoAt (if port = 0 then (if s.pd[port].source then upOffer else []) else s.pd[port].lastCaps) head.pos
           (∀ o, found = some o → cur ≤ o.cur → port = 0 ∨ s.pd[port].vbusEn = true → ∃ t, exec (.pdRequest port head cur) s = .next t ∧
             .pdAccept port ∈ t.sent ∧ .pdGoodCrc port ∈ t.sent ∧
             t.pd[port].contract = some { pos := head.pos, cur := cur, volt := o.volt, mismatch := false } ∧
             (port ≠ 0 → t.pd[port].transition = some (o.volt.toNat * 50)) ∧ (port = 0 → .pdPsRdy port ∈ t.sent) ∧
             t.pd[port].rev = (if head.pd3 then 2 else 1) ∧ SamePdBut port s t ∧ SameRegsBut [] s t ∧ SameMemory s t) ∧
           (found = none ∨ (∃ o, found = some o ∧ o.cur < cur) ∨ (port ≠ 0 ∧ s.pd[port].vbusEn = false) →
             ∃ t, exec (.pdRequest port head cur) s = .next t ∧ t.sent = .pdReject port :: .pdGoodCrc port :: s.sent ∧
             t.pd[port].contract = s.pd[port].contract ∧ t.pd[port].vsel = s.pd[port].vsel ∧ SamePdBut port s t ∧ SameRegsBut [] s t ∧
             SameMemory s t)))) ∧
      (port ≠ 0 → (s.hwPolicy = false → ∃ t, exec (.getSourceCap port) s = .next t ∧ t.pd[port].lastCaps = s.dnOffer port ∧
          t.sent = .pdSourceCaps port (s.dnOffer port) :: .pdGoodCrc port :: s.sent ∧ SameRegsBut [] s t ∧ SameMemory s t) ∧
        (∃ t, exec (.getSinkCap port) s = .next t ∧ Counted (Reg.PD_NOT_SUPP port.val) s t ∧
          t.sent = .pdNotSupported port :: .pdGoodCrc port :: s.sent ∧ SameRegsBut [Reg.PD_NOT_SUPP port.val] s t ∧ SameMemory s t) ∧
        (∃ t, exec (.prSwap port) s = .next t ∧ Counted (Reg.PD_PRS_REJECT port.val) s t ∧
          t.sent = .pdReject port :: .pdGoodCrc port :: s.sent ∧ t.pd[port].source = s.pd[port].source ∧
          SameRegsBut [Reg.PD_PRS_REJECT port.val] s t ∧ SameMemory s t)) ∧
      (port = 0 →
        (s.prsAccept = true ∨ s.pd[port].source = true → ∃ t, exec (.getSourceCap port) s = .next t ∧
          t.sent = .pdSourceCaps port upOffer :: .pdGoodCrc port :: s.sent ∧ SameRegsBut [] s t ∧ SameMemory s t) ∧
        (s.prsAccept = false → s.pd[port].source = false → ∃ t, exec (.getSourceCap port) s = .next t ∧
          t.sent = .pdNotSupported port :: .pdGoodCrc port :: s.sent ∧ Counted (Reg.PD_NOT_SUPP port.val) s t ∧
          SameRegsBut [Reg.PD_NOT_SUPP port.val] s t ∧ SameMemory s t) ∧
        (∃ t, exec (.getSinkCap port) s = .next t ∧
          t.sent = .pdSinkCaps port (BitVec.ofNat 10 s.upSnkCur) s.prsAccept :: .pdGoodCrc port :: s.sent ∧
          SameRegsBut [] s t ∧ SameMemory s t) ∧
        (s.hwPolicy = false → s.pd[port].source = false → s.mode = .start ∨ s.mode = .run → s.prsAccept = true → ∃ t,
          exec (.prSwap port) s = .next t ∧ t.pd[port].swap = true ∧ t.sent = .pdAccept port :: .pdGoodCrc port :: s.sent ∧
          SameRegsBut [] s t ∧ SameMemory s t) ∧
        (s.hwPolicy = false → s.pd[port].source = true → ∃ t, exec (.prSwap port) s = .next t ∧ t.pd[port].swap = true ∧
          t.pd[port].vbusEn = false ∧ t.pd[port].contract = none ∧
          t.sent = .pdPsRdy port :: .pdAccept port :: .pdGoodCrc port :: s.sent ∧ SameRegsBut [] s t ∧ SameMemory s t) ∧
        (s.hwPolicy = true ∨ (s.pd[port].source = false ∧ (s.prsAccept = false ∨ (s.mode ≠ .start ∧ s.mode ≠ .run))) → ∃ t,
          exec (.prSwap port) s = .next t ∧ Counted (Reg.PD_PRS_REJECT 0) s t ∧ t.sent = .pdReject port :: .pdGoodCrc port :: s.sent ∧
          t.pd[port].swap = s.pd[port].swap ∧ SameRegsBut [Reg.PD_PRS_REJECT 0] s t ∧ SameMemory s t)) ∧
      (∃ t, exec (.drSwap port) s = .next t ∧ t.sent = .pdReject port :: .pdGoodCrc port :: s.sent ∧ t.pd[port].dfp = s.pd[port].dfp ∧
        SamePdBut port s t ∧ SameRegsBut [] s t ∧ SameMemory s t) ∧
      (∃ t, exec (.discoverIdentity port) s = .next t ∧
        t.sent = .pdIdentity port (decide (port.val ≠ 0)) (BitVec.ofNat 16 (s.fld Reg.USB_VID_PID 15 0)) :: .pdGoodCrc port :: s.sent ∧
        SameRegsBut [] s t ∧ SameMemory s t) ∧
      (∀ vconn : Bool, ∃ t, exec (.unsupportedPdMessage { port := port, vconnSwap := vconn }) s = .next t ∧
        Counted (Reg.PD_NOT_SUPP port.val) s t ∧ t.sent = .pdNotSupported port :: .pdGoodCrc port :: s.sent ∧
        SameRegsBut [Reg.PD_NOT_SUPP port.val] s t ∧ SameMemory s t)) ∧
    (s.policyAway = true → (∀ (head : RequestHead) (cur : BitVec 10) (c : Instr), c = .pdRequest port head cur ∨ c = .prSwap port ∨
        c = .drSwap port ∨ c = .unsupportedPdMessage { port := port, vconnSwap := true } →
        ∃ t, exec c s = .next t ∧ t.sent = .pdWait port :: .pdGoodCrc port :: s.sent ∧ t.pd[port].contract = s.pd[port].contract ∧
          t.pd[port].swap = s.pd[port].swap ∧ SamePdBut port s t ∧ SameRegsBut [] s t ∧ SameMemory s t) ∧
      (∃ t, exec (.getSourceCap port) s = .next t ∧ t.sent = .pdSourceCaps port s.pd[port].lastCaps :: .pdGoodCrc port :: s.sent ∧
        SamePdBut port s t ∧ SameRegsBut [] s t ∧ SameMemory s t)) ∧
    (port = 0 → s.pd[port].swap = true → ∃ t, exec .psRdyReceived s = .next t ∧ t.pd[port].swap = false ∧ t.pd[port].contract = none ∧
      t.pd[port].source = (!s.pd[port].source) ∧ Counted (Reg.PD_PRS 0) s t ∧ (s.pd[port].source = false → t.pd[port].vbusEn = true) ∧
      SamePdBut port s t ∧ SameRegsBut [Reg.PD_PRS 0, Reg.PD_VBUS 0] s t ∧ SameMemory s t) ∧
    (port = 0 → s.pd[port].swap = false → ∀ c, s.pd[port].asked = some c → ∃ t, exec .psRdyReceived s = .next t ∧
      t.pd[port].contract = some c ∧ (s.mode ≠ .service ∨ s.upSpeed ≠ 0 → SameRegsBut [] s t ∧ t.usb = s.usb) ∧
      (s.mode = .service → s.upSpeed = 0 →
        (let fast := decide (150 ≤ c.cur.toNat) || decide (2 ≤ s.pd[port].rpSeen.toNat)
         t.upSpeed = min s.usb.host.toNat (if (fast && s.bit Reg.USB_CFG 0) = true then 3 else 2) ∧
         t.bit Reg.USB_STATUS 20 = (!fast)) ∧ SameRegsBut [Reg.USB_STATUS] s t) ∧ SamePdBut port s t ∧ SameMemory s t) ∧
    (∃ t, exec (.softReset port) s = .next t ∧ Counted (Reg.PD_SOFT_RESET port.val) s t ∧
      t.sent = .pdAccept port :: .pdGoodCrc port :: s.sent ∧ t.pd[port].msgId = 1 ∧
      t.pd[port].contract = s.pd[port].contract ∧ SamePdBut port s t ∧ SameRegsBut [Reg.PD_SOFT_RESET port.val] s t ∧ SameMemory s t) ∧
    (∃ t, exec (.hardReset port) s = .next t ∧ Counted (Reg.PD_HARD_RESET port.val) s t ∧ t.pd[port].contract = none ∧
      (port ≠ 0 → t.pd[port].vbusEn = false ∧ (s.pd[port].vbusEn = true → t.pd[port].disch = true)) ∧
      (port = 0 → t.pd[port].source = false ∧ t.pd[port].swap = false ∧ (s.pd[port].swap = true → Counted (Reg.PD_PRS_ABORT 0) s t)) ∧
      SamePdBut port s t ∧ SameRegsBut [Reg.PD_HARD_RESET port.val, Reg.PD_PRS_ABORT 0] s t ∧ SameMemory s t) ∧
    (∃ t, exec (.goodcrcTimeout port) s = .next t ∧ Counted (Reg.PD_MSG_FAIL port.val) s t ∧ SamePdBut port s t ∧ SameMemory s t ∧
      (s.pd[port].partner = false → t.pd = s.pd ∧ t.sent = s.sent ∧ SameRegsBut [Reg.PD_MSG_FAIL port.val] s t) ∧
      (s.pd[port].partner = true → s.pd[port].swap = false → s.pd[port].transition = none →
        t.pd[port] = { s.pd[port] with msgId := 1 } ∧ t.sent = .pdSoftReset port :: s.sent ∧ Counted (Reg.PD_SOFT_RESET port.val) s t) ∧
      (s.pd[port].partner = true → s.pd[port].swap = true ∨ s.pd[port].transition.isSome = true → t.pd[port].contract = none ∧
        t.sent = .pdHardReset port :: s.sent ∧ Counted (Reg.PD_HARD_RESET port.val) s t))
end

