-- ==== Sys2Proof/Laws/Store.lean ====
section
/-! SUPPORT. Laws/Store.lean: the laws of the sparse stores in canonical form: reads after writes, and the canonical form
kept by every operation; equal reads of canonical stores mean equal data. -/

namespace Sys2Proof.Machine

open Sys2Proof

variable {α : Type} {d : Nat → α}

/-! ## Reads after writes -/

theorem Store.get_erase_same (k : Nat) (l : List (Nat × α)) : Store.get d (Store.erase k l) k = d k := by
  induction l with
  | nil => rfl
  | cons x l ih => by_cases h : x.1 = k <;> simp [Store.erase, Store.get, h, ih]

theorem Store.get_erase_other {j k : Nat} (h : j ≠ k) (l : List (Nat × α)) :
    Store.get d (Store.erase k l) j = Store.get d l j := by
  induction l with
  | nil => rfl
  | cons x l ih =>
    by_cases hk : x.1 = k
    · simp [Store.erase, Store.get, hk, ih, Ne.symm h]
    · simp [Store.erase, Store.get, hk, ih]

theorem Store.get_insert_same (k : Nat) (v : α) (l : List (Nat × α)) (h : ∀ x ∈ l, x.1 ≠ k) :
    Store.get d (Store.insert k v l) k = v := by
  induction l with
  | nil => simp [Store.insert, Store.get]
  | cons x l ih =>
    have hx := h x (by simp)
    have := ih fun y hy => h y (by simp [hy])
    by_cases hk : k < x.1 <;> simp [Store.insert, Store.get, hk, hx, this]

theorem Store.get_insert_other {j k : Nat} (h : j ≠ k) (v : α) (l : List (Nat × α)) :
    Store.get d (Store.insert k v l) j = Store.get d l j := by
  induction l with
  | nil => simp [Store.insert, Store.get, Ne.symm h]
  | cons x l ih => by_cases hk : k < x.1 <;> simp [Store.insert, Store.get, hk, Ne.symm h, ih]

theorem Store.key_of_erase {k : Nat} {l : List (Nat × α)} : ∀ x ∈ Store.erase k l, x.1 ≠ k ∧ x ∈ l := by
  induction l with
  | nil => simp [Store.erase]
  | cons y l ih =>
    intro x hx
    by_cases h : y.1 = k
    · simp only [Store.erase, h, if_true] at hx
      exact ⟨(ih x hx).1, List.mem_cons_of_mem _ (ih x hx).2⟩
    · simp only [Store.erase, h, if_false, List.mem_cons] at hx
      rcases hx with rfl | hx
      · exact ⟨h, by simp⟩
      · exact ⟨(ih x hx).1, List.mem_cons_of_mem _ (ih x hx).2⟩

variable [DecidableEq α]

/-- A read after a write to the same key gives the value written. -/
@[simp] theorem Store.get_set_same (k : Nat) (v : α) (l : List (Nat × α)) :
    Store.get d (Store.set d k v l) k = v := by
  unfold Store.set
  split
  · rename_i h; rw [Store.get_erase_same, h]
  · exact Store.get_insert_same k v _ fun x hx => (Store.key_of_erase x hx).1

/-- A write leaves every other key alone. -/
theorem Store.get_set_other {j k : Nat} (h : j ≠ k) (v : α) (l : List (Nat × α)) :
    Store.get d (Store.set d k v l) j = Store.get d l j := by
  unfold Store.set
  split
  · exact Store.get_erase_other h l
  · rw [Store.get_insert_other h, Store.get_erase_other h]

theorem Store.get_set (j k : Nat) (v : α) (l : List (Nat × α)) :
    Store.get d (Store.set d k v l) j = if j = k then v else Store.get d l j := by
  split
  · rename_i h; subst h; simp
  · rename_i h; exact Store.get_set_other h v l

/-! ## The canonical form -/

theorem Store.wfFrom_mono {lo lo' : Nat} (h : lo ≤ lo') {l : List (Nat × α)} (hl : Store.wfFrom d lo' l = true) :
    Store.wfFrom d lo l = true := by
  cases l with
  | nil => rfl
  | cons x l =>
    simp only [Store.wfFrom, Bool.and_eq_true, decide_eq_true_eq] at hl ⊢
    exact ⟨⟨le_trans h hl.1.1, hl.1.2⟩, hl.2⟩

theorem Store.wfFrom_key {lo : Nat} {l : List (Nat × α)} (hl : Store.wfFrom d lo l = true) : ∀ x ∈ l, lo ≤ x.1 := by
  induction l generalizing lo with
  | nil => simp
  | cons y l ih =>
    simp only [Store.wfFrom, Bool.and_eq_true, decide_eq_true_eq] at hl
    intro x hx
    rcases List.mem_cons.1 hx with rfl | hx
    · exact hl.1.1
    · exact le_trans hl.1.1 (le_trans (Nat.le_succ _) (ih hl.2 x hx))

theorem Store.wfFrom_erase {lo : Nat} {l : List (Nat × α)} (k : Nat) (hl : Store.wfFrom d lo l = true) :
    Store.wfFrom d lo (Store.erase k l) = true := by
  induction l generalizing lo with
  | nil => rfl
  | cons y l ih =>
    simp only [Store.wfFrom, Bool.and_eq_true, decide_eq_true_eq] at hl
    by_cases h : y.1 = k
    · simp only [Store.erase, h, if_true]
      exact Store.wfFrom_mono (le_trans hl.1.1 (Nat.le_succ _)) (ih hl.2)
    · simp only [Store.erase, h, if_false, Store.wfFrom, Bool.and_eq_true, decide_eq_true_eq]
      exact ⟨hl.1, ih hl.2⟩

theorem Store.wfFrom_insert {lo k : Nat} {v : α} {l : List (Nat × α)} (hlo : lo ≤ k) (hv : v ≠ d k)
    (hk : ∀ x ∈ l, x.1 ≠ k) (hl : Store.wfFrom d lo l = true) : Store.wfFrom d lo (Store.insert k v l) = true := by
  induction l generalizing lo with
  | nil => simp [Store.insert, Store.wfFrom, hlo, hv]
  | cons y l ih =>
    simp only [Store.wfFrom, Bool.and_eq_true, decide_eq_true_eq] at hl
    have hy := hk y (by simp)
    by_cases h : k < y.1
    · simp only [Store.insert, h, if_true, Store.wfFrom, Bool.and_eq_true, decide_eq_true_eq]
      exact ⟨⟨hlo, hv⟩, ⟨h, hl.1.2⟩, hl.2⟩
    · simp only [Store.insert, h, if_false, Store.wfFrom, Bool.and_eq_true, decide_eq_true_eq]
      exact ⟨hl.1, ih (by omega) (fun x hx => hk x (by simp [hx])) hl.2⟩

/-- A write keeps the canonical form. -/
theorem Store.wfFrom_set {lo k : Nat} {v : α} {l : List (Nat × α)} (hlo : lo ≤ k) (hl : Store.wfFrom d lo l = true) :
    Store.wfFrom d lo (Store.set d k v l) = true := by
  unfold Store.set
  split
  · exact Store.wfFrom_erase k hl
  · rename_i h
    exact Store.wfFrom_insert hlo h (fun x hx => (Store.key_of_erase x hx).1) (Store.wfFrom_erase k hl)

theorem Store.wfFrom_filter {lo : Nat} {l : List (Nat × α)} (p : Nat × α → Bool) (hl : Store.wfFrom d lo l = true) :
    Store.wfFrom d lo (l.filter p) = true := by
  induction l generalizing lo with
  | nil => rfl
  | cons y l ih =>
    simp only [Store.wfFrom, Bool.and_eq_true, decide_eq_true_eq] at hl
    by_cases h : p y = true
    · simp only [List.filter_cons, h, if_true, Store.wfFrom, Bool.and_eq_true, decide_eq_true_eq]
      exact ⟨hl.1, ih hl.2⟩
    · simp only [List.filter_cons, h]
      exact Store.wfFrom_mono (le_trans hl.1.1 (Nat.le_succ _)) (ih hl.2)

theorem Store.wfFrom_append {lo mid : Nat} {l r : List (Nat × α)} (hl : Store.wfFrom d lo l = true)
    (hm : ∀ x ∈ l, x.1 < mid) (hlo : lo ≤ mid) (hr : Store.wfFrom d mid r = true) :
    Store.wfFrom d lo (l ++ r) = true := by
  induction l generalizing lo with
  | nil => exact Store.wfFrom_mono hlo hr
  | cons y l ih =>
    simp only [Store.wfFrom, Bool.and_eq_true, decide_eq_true_eq] at hl
    simp only [List.cons_append, Store.wfFrom, Bool.and_eq_true, decide_eq_true_eq]
    exact ⟨hl.1, ih hl.2 (fun x hx => hm x (by simp [hx])) (hm y (by simp))⟩

/-- Entries moved down by an offset stay in canonical form where every key has the same default. -/
theorem Store.wfFrom_shift {c : α} (o : Nat) {k : Nat} {l : List (Nat × α)} (hk : o ≤ k)
    (hl : Store.wfFrom (fun _ => c) k l = true) :
    Store.wfFrom (fun _ => c) (k - o) (l.map fun x => (x.1 - o, x.2)) = true := by
  induction l generalizing k with
  | nil => rfl
  | cons y l ih =>
    simp only [Store.wfFrom, Bool.and_eq_true, decide_eq_true_eq] at hl
    simp only [List.map_cons, Store.wfFrom, Bool.and_eq_true, decide_eq_true_eq]
    refine ⟨⟨by omega, hl.1.2⟩, ?_⟩
    have := ih (k := y.1 + 1) (by omega) hl.2
    rwa [show y.1 + 1 - o = y.1 - o + 1 by omega] at this

theorem Store.wfFrom_raise {lo k : Nat} {l : List (Nat × α)} (hl : Store.wfFrom d lo l = true) (hk : ∀ x ∈ l, k ≤ x.1) :
    Store.wfFrom d k l = true := by
  cases l with
  | nil => rfl
  | cons y l =>
    simp only [Store.wfFrom, Bool.and_eq_true, decide_eq_true_eq] at hl ⊢
    exact ⟨⟨hk y (by simp), hl.1.2⟩, hl.2⟩

/-- The range [lo, lo + a) replaced by a copy of [lo + a, lo + b) moved down, with b at most 2a. -/
theorem Store.wfFrom_copyDown {c : α} (lo a b : Nat) (hb : b ≤ 2 * a) {l : List (Nat × α)}
    (h : Store.wfFrom (fun _ => c) 0 l = true) :
    Store.wfFrom (fun _ => c) 0 ((l.filter fun x => decide (x.1 < lo)) ++
      ((l.filter fun x => decide (lo + a ≤ x.1) && decide (x.1 < lo + b)).map fun x => (x.1 - a, x.2)) ++
      (l.filter fun x => decide (lo + a ≤ x.1))) = true := by
  rw [List.append_assoc]
  refine Store.wfFrom_append (mid := lo) (Store.wfFrom_filter _ h) (by simp) (Nat.zero_le _) ?_
  refine Store.wfFrom_append (mid := lo + a) ?_ ?_ (Nat.le_add_right _ _) ?_
  · have := Store.wfFrom_shift a (k := lo + a) (Nat.le_add_left _ _)
      (Store.wfFrom_raise (k := lo + a) (Store.wfFrom_filter (fun x => decide (lo + a ≤ x.1) && decide (x.1 < lo + b)) h)
        (by simp +contextual))
    rwa [Nat.add_sub_cancel] at this
  · intro x hx
    simp only [List.mem_map, List.mem_filter, Bool.and_eq_true, decide_eq_true_eq] at hx
    obtain ⟨y, hy, rfl⟩ := hx
    simp only
    omega
  · exact Store.wfFrom_raise (Store.wfFrom_filter _ h) (by simp)

theorem Store.get_of_lt {lo k : Nat} (h : k < lo) {l : List (Nat × α)} (hl : Store.wfFrom d lo l = true) :
    Store.get d l k = d k := by
  induction l generalizing lo with
  | nil => rfl
  | cons y l ih =>
    simp only [Store.wfFrom, Bool.and_eq_true, decide_eq_true_eq] at hl
    have : y.1 ≠ k := by omega
    simp [Store.get, this, ih (lo := y.1 + 1) (by omega) hl.2]

/-- Canonical stores that read alike are the same data. -/
theorem Store.ext_of_wf {lo : Nat} {l r : List (Nat × α)} (hl : Store.wfFrom d lo l = true)
    (hr : Store.wfFrom d lo r = true) (h : ∀ k, Store.get d l k = Store.get d r k) : l = r := by
  induction l generalizing lo r with
  | nil =>
    cases r with
    | nil => rfl
    | cons y r =>
      simp only [Store.wfFrom, Bool.and_eq_true, decide_eq_true_eq] at hr
      exact absurd (by simpa [Store.get] using (h y.1).symm) hr.1.2
  | cons x l ih =>
    cases r with
    | nil =>
      simp only [Store.wfFrom, Bool.and_eq_true, decide_eq_true_eq] at hl
      exact absurd (by simpa [Store.get] using h x.1) hl.1.2
    | cons y r =>
      simp only [Store.wfFrom, Bool.and_eq_true, decide_eq_true_eq] at hl hr
      have hxy : x.1 = y.1 := by
        rcases lt_trichotomy x.1 y.1 with hlt | heq | hgt
        · have := h x.1
          have hn : y.1 ≠ x.1 := by omega
          simp only [Store.get, if_true, hn, if_false] at this
          exact absurd (this.trans (Store.get_of_lt (by omega) hr.2)) hl.1.2
        · exact heq
        · have := h y.1
          have hn : x.1 ≠ y.1 := by omega
          simp only [Store.get, if_true, hn, if_false] at this
          exact absurd (this.symm.trans (Store.get_of_lt (by omega) hl.2)) hr.1.2
      have hv : x.2 = y.2 := by simpa [Store.get, hxy] using h x.1
      have hrest : l = r := ih hl.2 (by rw [hxy]; exact hr.2) fun k => by
        by_cases hk : k = x.1
        · subst hk
          rw [Store.get_of_lt (Nat.lt_succ_self _) hl.2, hxy, Store.get_of_lt (Nat.lt_succ_self _) hr.2]
        · have := h k
          simpa [Store.get, Ne.symm hk, hxy ▸ Ne.symm hk] using this
      rw [hrest, Prod.ext hxy hv]

end Sys2Proof.Machine
end

