-- ==== Sys2Proof/Laws/State.lean ====
section
/-! SUPPORT. Laws/State.lean: the named updates: what each leaves as it is (the clusters KeepsOuter, KeepsInner, KeepsCore and single
parts), what each changes, and the laws of registers, fields, memory and vectors. -/

set_option linter.all false

namespace Sys2Proof.Machine

open Sys2Proof

/-- The parts of the state that stay: heads, monitors, car answer, ticks, queue and PD ports. -/
abbrev State.KeepsOuter (s t : State) : Prop :=
  t.heads = s.heads ∧ t.mon = s.mon ∧ t.carStatus = s.carStatus ∧ t.ticks = s.ticks ∧ t.pending = s.pending ∧ t.pd = s.pd

/-- The parts of the state that stay: USB, FAULT_N, twin table, log, echo and access control. -/
abbrev State.KeepsInner (s t : State) : Prop :=
  t.usb = s.usb ∧ t.faultN = s.faultN ∧ t.twin = s.twin ∧ t.log = s.log ∧ t.echo = s.echo ∧ t.acc = s.acc

/-- The parts of the state that stay: beat, boot, power, tunnels, schedulers, lanes and engines. -/
abbrev State.KeepsCore (s t : State) : Prop :=
  t.beat = s.beat ∧ t.boot = s.boot ∧ t.pwr = s.pwr ∧ t.tun = s.tun ∧ t.sched = s.sched ∧ t.lanes = s.lanes ∧ t.eng = s.eng

/-- A part of a choice of states is the choice of the parts. -/
theorem State.ite_fields (c : Prop) [Decidable c] (a b : State) :
    (if c then a else b).regs = (if c then a.regs else b.regs) ∧
    (if c then a else b).mem = (if c then a.mem else b.mem) ∧
    (if c then a else b).heads = (if c then a.heads else b.heads) ∧
    (if c then a else b).beat = (if c then a.beat else b.beat) ∧
    (if c then a else b).lanes = (if c then a.lanes else b.lanes) ∧
    (if c then a else b).line = (if c then a.line else b.line) ∧
    (if c then a else b).ports = (if c then a.ports else b.ports) ∧
    (if c then a else b).echo = (if c then a.echo else b.echo) ∧
    (if c then a else b).tun = (if c then a.tun else b.tun) ∧
    (if c then a else b).cav = (if c then a.cav else b.cav) ∧
    (if c then a else b).sched = (if c then a.sched else b.sched) ∧
    (if c then a else b).twin = (if c then a.twin else b.twin) ∧
    (if c then a else b).eng = (if c then a.eng else b.eng) ∧
    (if c then a else b).acc = (if c then a.acc else b.acc) ∧
    (if c then a else b).geode = (if c then a.geode else b.geode) ∧
    (if c then a else b).boot = (if c then a.boot else b.boot) ∧
    (if c then a else b).pwr = (if c then a.pwr else b.pwr) ∧
    (if c then a else b).usb = (if c then a.usb else b.usb) ∧
    (if c then a else b).pd = (if c then a.pd else b.pd) ∧
    (if c then a else b).mon = (if c then a.mon else b.mon) ∧
    (if c then a else b).log = (if c then a.log else b.log) ∧
    (if c then a else b).faultN = (if c then a.faultN else b.faultN) ∧
    (if c then a else b).carStatus = (if c then a.carStatus else b.carStatus) ∧
    (if c then a else b).ticks = (if c then a.ticks else b.ticks) ∧
    (if c then a else b).freeCtr = (if c then a.freeCtr else b.freeCtr) ∧
    (if c then a else b).sent = (if c then a.sent else b.sent) ∧
    (if c then a else b).pending = (if c then a.pending else b.pending) := by
  split <;> simp

@[simp] theorem State.setReg_keeps (s : State) (k : Nat) (w : Word) :
    s.KeepsOuter (State.setReg s k w) ∧ s.KeepsInner (State.setReg s k w) ∧ s.KeepsCore (State.setReg s k w) ∧
    (State.setReg s k w).mem = s.mem ∧ (State.setReg s k w).ports = s.ports ∧ (State.setReg s k w).cav = s.cav ∧
    (State.setReg s k w).geode = s.geode ∧ (State.setReg s k w).freeCtr = s.freeCtr ∧ (State.setReg s k w).sent = s.sent ∧
    (State.setReg s k w).line = s.line := by
  unfold State.setReg
  (try dsimp only)
  (repeat' split) <;> simp [State.KeepsOuter, State.KeepsInner, State.KeepsCore]

@[simp] theorem State.setRegN_keeps (s : State) (k : Nat) (v : Nat) :
    s.KeepsOuter (State.setRegN s k v) ∧ s.KeepsInner (State.setRegN s k v) ∧ s.KeepsCore (State.setRegN s k v) ∧
    (State.setRegN s k v).mem = s.mem ∧ (State.setRegN s k v).ports = s.ports ∧ (State.setRegN s k v).cav = s.cav ∧
    (State.setRegN s k v).geode = s.geode ∧ (State.setRegN s k v).freeCtr = s.freeCtr ∧ (State.setRegN s k v).sent = s.sent ∧
    (State.setRegN s k v).line = s.line := by
  unfold State.setRegN
  (try dsimp only)
  (repeat' split) <;> simp [State.KeepsOuter, State.KeepsInner, State.KeepsCore]

@[simp] theorem State.countN_keeps (s : State) (k : Nat) (n : Nat) :
    s.KeepsOuter (State.countN s k n) ∧ s.KeepsInner (State.countN s k n) ∧ s.KeepsCore (State.countN s k n) ∧
    (State.countN s k n).mem = s.mem ∧ (State.countN s k n).ports = s.ports ∧ (State.countN s k n).cav = s.cav ∧
    (State.countN s k n).geode = s.geode ∧ (State.countN s k n).freeCtr = s.freeCtr ∧ (State.countN s k n).sent = s.sent ∧
    (State.countN s k n).line = s.line := by
  unfold State.countN
  (try dsimp only)
  (repeat' split) <;> simp [State.KeepsOuter, State.KeepsInner, State.KeepsCore]

@[simp] theorem State.count_keeps (s : State) (k : Nat) :
    s.KeepsOuter (State.count s k) ∧ s.KeepsInner (State.count s k) ∧ s.KeepsCore (State.count s k) ∧ (State.count s k).mem = s.mem ∧
    (State.count s k).ports = s.ports ∧ (State.count s k).cav = s.cav ∧ (State.count s k).geode = s.geode ∧
    (State.count s k).freeCtr = s.freeCtr ∧ (State.count s k).sent = s.sent ∧
    (State.count s k).line = s.line := by
  unfold State.count
  (try dsimp only)
  (repeat' split) <;> simp [State.KeepsOuter, State.KeepsInner, State.KeepsCore]

@[simp] theorem State.setReg48_keeps (s : State) (lo : Nat) (v : Nat) :
    s.KeepsOuter (State.setReg48 s lo v) ∧ s.KeepsInner (State.setReg48 s lo v) ∧ s.KeepsCore (State.setReg48 s lo v) ∧
    (State.setReg48 s lo v).mem = s.mem ∧ (State.setReg48 s lo v).ports = s.ports ∧ (State.setReg48 s lo v).cav = s.cav ∧
    (State.setReg48 s lo v).geode = s.geode ∧ (State.setReg48 s lo v).freeCtr = s.freeCtr ∧ (State.setReg48 s lo v).sent = s.sent ∧
    (State.setReg48 s lo v).line = s.line := by
  unfold State.setReg48
  (try dsimp only)
  (repeat' split) <;> simp [State.KeepsOuter, State.KeepsInner, State.KeepsCore]

@[simp] theorem State.count48_keeps (s : State) (lo : Nat) (n : Nat) :
    s.KeepsOuter (State.count48 s lo n) ∧ s.KeepsInner (State.count48 s lo n) ∧ s.KeepsCore (State.count48 s lo n) ∧
    (State.count48 s lo n).mem = s.mem ∧ (State.count48 s lo n).ports = s.ports ∧ (State.count48 s lo n).cav = s.cav ∧
    (State.count48 s lo n).geode = s.geode ∧ (State.count48 s lo n).freeCtr = s.freeCtr ∧ (State.count48 s lo n).sent = s.sent ∧
    (State.count48 s lo n).line = s.line := by
  unfold State.count48
  (try dsimp only)
  (repeat' split) <;> simp [State.KeepsOuter, State.KeepsInner, State.KeepsCore]

@[simp] theorem State.drawn_keeps (s : State) :
    s.KeepsOuter (State.drawn s) ∧ s.KeepsInner (State.drawn s) ∧ s.KeepsCore (State.drawn s) ∧ (State.drawn s).regs = s.regs ∧
    (State.drawn s).mem = s.mem ∧ (State.drawn s).ports = s.ports ∧ (State.drawn s).cav = s.cav ∧ (State.drawn s).geode = s.geode ∧
    (State.drawn s).sent = s.sent ∧
    (State.drawn s).line = s.line := by
  unfold State.drawn
  (try dsimp only)
  (repeat' split) <;> simp [State.KeepsOuter, State.KeepsInner, State.KeepsCore]

@[simp] theorem State.dropFault_keeps (s : State) (c : FaultCause) :
    s.KeepsOuter (State.dropFault s c) ∧ s.KeepsCore (State.dropFault s c) ∧ (State.dropFault s c).regs = s.regs ∧
    (State.dropFault s c).mem = s.mem ∧ (State.dropFault s c).ports = s.ports ∧ (State.dropFault s c).echo = s.echo ∧
    (State.dropFault s c).cav = s.cav ∧ (State.dropFault s c).twin = s.twin ∧ (State.dropFault s c).acc = s.acc ∧
    (State.dropFault s c).geode = s.geode ∧ (State.dropFault s c).usb = s.usb ∧ (State.dropFault s c).log = s.log ∧
    (State.dropFault s c).freeCtr = s.freeCtr ∧ (State.dropFault s c).sent = s.sent ∧
    (State.dropFault s c).line = s.line := by
  unfold State.dropFault
  (try dsimp only)
  (repeat' split) <;> simp [State.KeepsOuter, State.KeepsInner, State.KeepsCore]

@[simp] theorem State.emit_keeps (s : State) (o : Output) :
    s.KeepsOuter (State.emit s o) ∧ s.KeepsInner (State.emit s o) ∧ s.KeepsCore (State.emit s o) ∧ (State.emit s o).regs = s.regs ∧
    (State.emit s o).mem = s.mem ∧ (State.emit s o).ports = s.ports ∧ (State.emit s o).cav = s.cav ∧ (State.emit s o).geode = s.geode ∧
    (State.emit s o).freeCtr = s.freeCtr := by
  unfold State.emit
  (try dsimp only)
  (repeat' split) <;> simp [State.KeepsOuter, State.KeepsInner, State.KeepsCore]

@[simp] theorem State.logBytes_keeps (s : State) (src : Nat) (code : Nat) (data : List Byte) :
    s.KeepsOuter (State.logBytes s src code data) ∧ s.KeepsCore (State.logBytes s src code data) ∧
    (State.logBytes s src code data).mem = s.mem ∧ (State.logBytes s src code data).ports = s.ports ∧
    (State.logBytes s src code data).echo = s.echo ∧ (State.logBytes s src code data).cav = s.cav ∧
    (State.logBytes s src code data).twin = s.twin ∧ (State.logBytes s src code data).acc = s.acc ∧
    (State.logBytes s src code data).geode = s.geode ∧ (State.logBytes s src code data).usb = s.usb ∧
    (State.logBytes s src code data).faultN = s.faultN ∧ (State.logBytes s src code data).freeCtr = s.freeCtr ∧
    (State.logBytes s src code data).sent = s.sent ∧
    (State.logBytes s src code data).line = s.line := by
  unfold State.logBytes
  (try dsimp only)
  (repeat' split) <;> simp [State.KeepsOuter, State.KeepsInner, State.KeepsCore]

@[simp] theorem State.logEvent_keeps (s : State) (src : Nat) (code : Nat) (data : List Nat) :
    s.KeepsOuter (State.logEvent s src code data) ∧ s.KeepsCore (State.logEvent s src code data) ∧
    (State.logEvent s src code data).mem = s.mem ∧ (State.logEvent s src code data).ports = s.ports ∧
    (State.logEvent s src code data).echo = s.echo ∧ (State.logEvent s src code data).cav = s.cav ∧
    (State.logEvent s src code data).twin = s.twin ∧ (State.logEvent s src code data).acc = s.acc ∧
    (State.logEvent s src code data).geode = s.geode ∧ (State.logEvent s src code data).usb = s.usb ∧
    (State.logEvent s src code data).faultN = s.faultN ∧ (State.logEvent s src code data).freeCtr = s.freeCtr ∧
    (State.logEvent s src code data).sent = s.sent ∧
    (State.logEvent s src code data).line = s.line := by
  unfold State.logEvent
  (try dsimp only)
  (repeat' split) <;> simp [State.KeepsOuter, State.KeepsInner, State.KeepsCore]

@[simp] theorem State.modLane_keeps (s : State) (l : LaneIx) (f : Lane → Lane) :
    s.KeepsOuter (State.modLane s l f) ∧ s.KeepsInner (State.modLane s l f) ∧ (State.modLane s l f).regs = s.regs ∧
    (State.modLane s l f).mem = s.mem ∧ (State.modLane s l f).beat = s.beat ∧ (State.modLane s l f).ports = s.ports ∧
    (State.modLane s l f).tun = s.tun ∧ (State.modLane s l f).cav = s.cav ∧ (State.modLane s l f).sched = s.sched ∧
    (State.modLane s l f).eng = s.eng ∧ (State.modLane s l f).geode = s.geode ∧ (State.modLane s l f).boot = s.boot ∧
    (State.modLane s l f).pwr = s.pwr ∧ (State.modLane s l f).freeCtr = s.freeCtr ∧ (State.modLane s l f).sent = s.sent ∧
    (State.modLane s l f).line = s.line := by
  unfold State.modLane
  (try dsimp only)
  (repeat' split) <;> simp [State.KeepsOuter, State.KeepsInner, State.KeepsCore]

@[simp] theorem State.modPd_keeps (s : State) (p : PdPort) (f : PdState → PdState) :
    s.KeepsInner (State.modPd s p f) ∧ s.KeepsCore (State.modPd s p f) ∧ (State.modPd s p f).regs = s.regs ∧
    (State.modPd s p f).mem = s.mem ∧ (State.modPd s p f).heads = s.heads ∧ (State.modPd s p f).ports = s.ports ∧
    (State.modPd s p f).cav = s.cav ∧ (State.modPd s p f).geode = s.geode ∧ (State.modPd s p f).mon = s.mon ∧
    (State.modPd s p f).carStatus = s.carStatus ∧ (State.modPd s p f).ticks = s.ticks ∧ (State.modPd s p f).freeCtr = s.freeCtr ∧
    (State.modPd s p f).sent = s.sent ∧ (State.modPd s p f).pending = s.pending ∧ (State.modPd s p f).line = s.line := by
  unfold State.modPd
  (try dsimp only)
  (repeat' split) <;> simp [State.KeepsOuter, State.KeepsInner, State.KeepsCore]

@[simp] theorem State.modPort_keeps (s : State) (p : LinkPort) (f : Port → Port) :
    s.KeepsOuter (State.modPort s p f) ∧ s.KeepsInner (State.modPort s p f) ∧ s.KeepsCore (State.modPort s p f) ∧
    (State.modPort s p f).regs = s.regs ∧ (State.modPort s p f).mem = s.mem ∧ (State.modPort s p f).cav = s.cav ∧
    (State.modPort s p f).geode = s.geode ∧ (State.modPort s p f).freeCtr = s.freeCtr ∧ (State.modPort s p f).sent = s.sent ∧
    (State.modPort s p f).line = s.line := by
  unfold State.modPort
  (try dsimp only)
  (repeat' split) <;> simp [State.KeepsOuter, State.KeepsInner, State.KeepsCore]

@[simp] theorem State.over_regs {α : Type} {f : State → α → State} (h : ∀ t a, (f t a).regs = t.regs) (s : State) (l : List α) :
    (s.over l f).regs = s.regs := by
  induction l generalizing s with
  | nil => rfl
  | cons a l ih => simpa [State.over, h] using ih (f s a)

@[simp] theorem State.over_mem {α : Type} {f : State → α → State} (h : ∀ t a, (f t a).mem = t.mem) (s : State) (l : List α) :
    (s.over l f).mem = s.mem := by
  induction l generalizing s with
  | nil => rfl
  | cons a l ih => simpa [State.over, h] using ih (f s a)

@[simp] theorem State.over_heads {α : Type} {f : State → α → State} (h : ∀ t a, (f t a).heads = t.heads) (s : State) (l : List α) :
    (s.over l f).heads = s.heads := by
  induction l generalizing s with
  | nil => rfl
  | cons a l ih => simpa [State.over, h] using ih (f s a)

@[simp] theorem State.over_beat {α : Type} {f : State → α → State} (h : ∀ t a, (f t a).beat = t.beat) (s : State) (l : List α) :
    (s.over l f).beat = s.beat := by
  induction l generalizing s with
  | nil => rfl
  | cons a l ih => simpa [State.over, h] using ih (f s a)

@[simp] theorem State.over_lanes {α : Type} {f : State → α → State} (h : ∀ t a, (f t a).lanes = t.lanes) (s : State) (l : List α) :
    (s.over l f).lanes = s.lanes := by
  induction l generalizing s with
  | nil => rfl
  | cons a l ih => simpa [State.over, h] using ih (f s a)

@[simp] theorem State.over_line {α : Type} {f : State → α → State} (h : ∀ t a, (f t a).line = t.line) (s : State) (l : List α) :
    (s.over l f).line = s.line := by
  induction l generalizing s with
  | nil => rfl
  | cons a l ih => simpa [State.over, h] using ih (f s a)

@[simp] theorem State.over_ports {α : Type} {f : State → α → State} (h : ∀ t a, (f t a).ports = t.ports) (s : State) (l : List α) :
    (s.over l f).ports = s.ports := by
  induction l generalizing s with
  | nil => rfl
  | cons a l ih => simpa [State.over, h] using ih (f s a)

@[simp] theorem State.over_echo {α : Type} {f : State → α → State} (h : ∀ t a, (f t a).echo = t.echo) (s : State) (l : List α) :
    (s.over l f).echo = s.echo := by
  induction l generalizing s with
  | nil => rfl
  | cons a l ih => simpa [State.over, h] using ih (f s a)

@[simp] theorem State.over_tun {α : Type} {f : State → α → State} (h : ∀ t a, (f t a).tun = t.tun) (s : State) (l : List α) :
    (s.over l f).tun = s.tun := by
  induction l generalizing s with
  | nil => rfl
  | cons a l ih => simpa [State.over, h] using ih (f s a)

@[simp] theorem State.over_cav {α : Type} {f : State → α → State} (h : ∀ t a, (f t a).cav = t.cav) (s : State) (l : List α) :
    (s.over l f).cav = s.cav := by
  induction l generalizing s with
  | nil => rfl
  | cons a l ih => simpa [State.over, h] using ih (f s a)

@[simp] theorem State.over_sched {α : Type} {f : State → α → State} (h : ∀ t a, (f t a).sched = t.sched) (s : State) (l : List α) :
    (s.over l f).sched = s.sched := by
  induction l generalizing s with
  | nil => rfl
  | cons a l ih => simpa [State.over, h] using ih (f s a)

@[simp] theorem State.over_twin {α : Type} {f : State → α → State} (h : ∀ t a, (f t a).twin = t.twin) (s : State) (l : List α) :
    (s.over l f).twin = s.twin := by
  induction l generalizing s with
  | nil => rfl
  | cons a l ih => simpa [State.over, h] using ih (f s a)

@[simp] theorem State.over_eng {α : Type} {f : State → α → State} (h : ∀ t a, (f t a).eng = t.eng) (s : State) (l : List α) :
    (s.over l f).eng = s.eng := by
  induction l generalizing s with
  | nil => rfl
  | cons a l ih => simpa [State.over, h] using ih (f s a)

@[simp] theorem State.over_acc {α : Type} {f : State → α → State} (h : ∀ t a, (f t a).acc = t.acc) (s : State) (l : List α) :
    (s.over l f).acc = s.acc := by
  induction l generalizing s with
  | nil => rfl
  | cons a l ih => simpa [State.over, h] using ih (f s a)

@[simp] theorem State.over_geode {α : Type} {f : State → α → State} (h : ∀ t a, (f t a).geode = t.geode) (s : State) (l : List α) :
    (s.over l f).geode = s.geode := by
  induction l generalizing s with
  | nil => rfl
  | cons a l ih => simpa [State.over, h] using ih (f s a)

@[simp] theorem State.over_boot {α : Type} {f : State → α → State} (h : ∀ t a, (f t a).boot = t.boot) (s : State) (l : List α) :
    (s.over l f).boot = s.boot := by
  induction l generalizing s with
  | nil => rfl
  | cons a l ih => simpa [State.over, h] using ih (f s a)

@[simp] theorem State.over_pwr {α : Type} {f : State → α → State} (h : ∀ t a, (f t a).pwr = t.pwr) (s : State) (l : List α) :
    (s.over l f).pwr = s.pwr := by
  induction l generalizing s with
  | nil => rfl
  | cons a l ih => simpa [State.over, h] using ih (f s a)

@[simp] theorem State.over_usb {α : Type} {f : State → α → State} (h : ∀ t a, (f t a).usb = t.usb) (s : State) (l : List α) :
    (s.over l f).usb = s.usb := by
  induction l generalizing s with
  | nil => rfl
  | cons a l ih => simpa [State.over, h] using ih (f s a)

@[simp] theorem State.over_pd {α : Type} {f : State → α → State} (h : ∀ t a, (f t a).pd = t.pd) (s : State) (l : List α) :
    (s.over l f).pd = s.pd := by
  induction l generalizing s with
  | nil => rfl
  | cons a l ih => simpa [State.over, h] using ih (f s a)

@[simp] theorem State.over_mon {α : Type} {f : State → α → State} (h : ∀ t a, (f t a).mon = t.mon) (s : State) (l : List α) :
    (s.over l f).mon = s.mon := by
  induction l generalizing s with
  | nil => rfl
  | cons a l ih => simpa [State.over, h] using ih (f s a)

@[simp] theorem State.over_log {α : Type} {f : State → α → State} (h : ∀ t a, (f t a).log = t.log) (s : State) (l : List α) :
    (s.over l f).log = s.log := by
  induction l generalizing s with
  | nil => rfl
  | cons a l ih => simpa [State.over, h] using ih (f s a)

@[simp] theorem State.over_faultN {α : Type} {f : State → α → State} (h : ∀ t a, (f t a).faultN = t.faultN) (s : State) (l : List α) :
    (s.over l f).faultN = s.faultN := by
  induction l generalizing s with
  | nil => rfl
  | cons a l ih => simpa [State.over, h] using ih (f s a)

@[simp] theorem State.over_carStatus {α : Type} {f : State → α → State} (h : ∀ t a, (f t a).carStatus = t.carStatus) (s : State) (l : List α) :
    (s.over l f).carStatus = s.carStatus := by
  induction l generalizing s with
  | nil => rfl
  | cons a l ih => simpa [State.over, h] using ih (f s a)

@[simp] theorem State.over_ticks {α : Type} {f : State → α → State} (h : ∀ t a, (f t a).ticks = t.ticks) (s : State) (l : List α) :
    (s.over l f).ticks = s.ticks := by
  induction l generalizing s with
  | nil => rfl
  | cons a l ih => simpa [State.over, h] using ih (f s a)

@[simp] theorem State.over_freeCtr {α : Type} {f : State → α → State} (h : ∀ t a, (f t a).freeCtr = t.freeCtr) (s : State) (l : List α) :
    (s.over l f).freeCtr = s.freeCtr := by
  induction l generalizing s with
  | nil => rfl
  | cons a l ih => simpa [State.over, h] using ih (f s a)

@[simp] theorem State.over_sent {α : Type} {f : State → α → State} (h : ∀ t a, (f t a).sent = t.sent) (s : State) (l : List α) :
    (s.over l f).sent = s.sent := by
  induction l generalizing s with
  | nil => rfl
  | cons a l ih => simpa [State.over, h] using ih (f s a)

@[simp] theorem State.over_pending {α : Type} {f : State → α → State} (h : ∀ t a, (f t a).pending = t.pending) (s : State) (l : List α) :
    (s.over l f).pending = s.pending := by
  induction l generalizing s with
  | nil => rfl
  | cons a l ih => simpa [State.over, h] using ih (f s a)

@[simp] theorem State.decideWake_keeps (s : State) :
    s.KeepsOuter (State.decideWake s) ∧ s.KeepsCore (State.decideWake s) ∧ (State.decideWake s).regs = s.regs ∧
    (State.decideWake s).mem = s.mem ∧ (State.decideWake s).ports = s.ports ∧ (State.decideWake s).echo = s.echo ∧
    (State.decideWake s).cav = s.cav ∧ (State.decideWake s).twin = s.twin ∧ (State.decideWake s).acc = s.acc ∧
    (State.decideWake s).geode = s.geode ∧ (State.decideWake s).faultN = s.faultN ∧ (State.decideWake s).log = s.log ∧
    (State.decideWake s).freeCtr = s.freeCtr ∧ (State.decideWake s).sent = s.sent ∧ (State.decideWake s).line = s.line := by
  unfold State.decideWake
  split <;> simp [State.KeepsOuter, State.KeepsCore]

/-- A fault changes FAULT_N, and with it at most whether the function wakes the host (R412). -/
@[simp] theorem State.raiseFault_keeps (s : State) (c : FaultCause) :
    s.KeepsOuter (State.raiseFault s c) ∧ s.KeepsCore (State.raiseFault s c) ∧ (State.raiseFault s c).regs = s.regs ∧
    (State.raiseFault s c).mem = s.mem ∧ (State.raiseFault s c).ports = s.ports ∧ (State.raiseFault s c).echo = s.echo ∧
    (State.raiseFault s c).cav = s.cav ∧ (State.raiseFault s c).twin = s.twin ∧ (State.raiseFault s c).acc = s.acc ∧
    (State.raiseFault s c).geode = s.geode ∧ (State.raiseFault s c).log = s.log ∧
    (State.raiseFault s c).freeCtr = s.freeCtr ∧ (State.raiseFault s c).sent = s.sent ∧
    (State.raiseFault s c).line = s.line := by
  unfold State.raiseFault
  split <;> simp [State.KeepsOuter, State.KeepsCore]

@[simp] theorem State.setBeatNum_keeps (s : State) (b : Beat) :
    s.KeepsOuter (State.setBeatNum s b) ∧ s.KeepsInner (State.setBeatNum s b) ∧ s.KeepsCore (State.setBeatNum s b) ∧
    (State.setBeatNum s b).mem = s.mem ∧ (State.setBeatNum s b).ports = s.ports ∧ (State.setBeatNum s b).cav = s.cav ∧
    (State.setBeatNum s b).geode = s.geode ∧ (State.setBeatNum s b).freeCtr = s.freeCtr ∧ (State.setBeatNum s b).sent = s.sent ∧
    (State.setBeatNum s b).line = s.line := by
  unfold State.setBeatNum
  (try dsimp only)
  (repeat' split) <;> simp [State.KeepsOuter, State.KeepsInner, State.KeepsCore]

@[simp] theorem State.setFld_keeps (s : State) (k : Nat) (hi : Nat) (lo : Nat) (v : Nat) :
    s.KeepsOuter (State.setFld s k hi lo v) ∧ s.KeepsInner (State.setFld s k hi lo v) ∧ s.KeepsCore (State.setFld s k hi lo v) ∧
    (State.setFld s k hi lo v).mem = s.mem ∧ (State.setFld s k hi lo v).ports = s.ports ∧ (State.setFld s k hi lo v).cav = s.cav ∧
    (State.setFld s k hi lo v).geode = s.geode ∧ (State.setFld s k hi lo v).freeCtr = s.freeCtr ∧
    (State.setFld s k hi lo v).sent = s.sent ∧
    (State.setFld s k hi lo v).line = s.line := by
  unfold State.setFld
  (try dsimp only)
  (repeat' split) <;> simp [State.KeepsOuter, State.KeepsInner, State.KeepsCore]

@[simp] theorem State.setBit_keeps (s : State) (k : Nat) (i : Nat) (b : Bool) :
    s.KeepsOuter (State.setBit s k i b) ∧ s.KeepsInner (State.setBit s k i b) ∧ s.KeepsCore (State.setBit s k i b) ∧
    (State.setBit s k i b).mem = s.mem ∧ (State.setBit s k i b).ports = s.ports ∧ (State.setBit s k i b).cav = s.cav ∧
    (State.setBit s k i b).geode = s.geode ∧ (State.setBit s k i b).freeCtr = s.freeCtr ∧ (State.setBit s k i b).sent = s.sent ∧
    (State.setBit s k i b).line = s.line := by
  unfold State.setBit
  (try dsimp only)
  (repeat' split) <;> simp [State.KeepsOuter, State.KeepsInner, State.KeepsCore]

@[simp] theorem State.setByte_keeps (s : State) (a : Nat) (b : Byte) :
    s.KeepsOuter (State.setByte s a b) ∧ s.KeepsInner (State.setByte s a b) ∧ s.KeepsCore (State.setByte s a b) ∧
    (State.setByte s a b).regs = s.regs ∧ (State.setByte s a b).ports = s.ports ∧ (State.setByte s a b).cav = s.cav ∧
    (State.setByte s a b).geode = s.geode ∧ (State.setByte s a b).freeCtr = s.freeCtr ∧ (State.setByte s a b).sent = s.sent ∧
    (State.setByte s a b).line = s.line := by
  unfold State.setByte
  (try dsimp only)
  (repeat' split) <;> simp [State.KeepsOuter, State.KeepsInner, State.KeepsCore]

@[simp] theorem State.setBytes_keeps (s : State) (a : Nat) (y1 : List Byte) :
    s.KeepsOuter (State.setBytes s a y1) ∧ s.KeepsInner (State.setBytes s a y1) ∧ s.KeepsCore (State.setBytes s a y1) ∧
    (State.setBytes s a y1).regs = s.regs ∧ (State.setBytes s a y1).ports = s.ports ∧ (State.setBytes s a y1).cav = s.cav ∧
    (State.setBytes s a y1).geode = s.geode ∧ (State.setBytes s a y1).freeCtr = s.freeCtr ∧ (State.setBytes s a y1).sent = s.sent ∧
    (State.setBytes s a y1).line = s.line := by
  fun_induction State.setBytes s a y1 <;> (try simp only [Prod.ext_iff] at *) <;> (try casesm* _ ∧ _) <;> subst_vars <;> simp_all +zetaDelta [State.KeepsOuter, State.KeepsInner, State.KeepsCore]

@[simp] theorem State.whenCore_regs (s : State) {f : State → State} (h : ∀ t, (f t).regs = t.regs) :
    (s.whenCore f).regs = s.regs := by
  unfold State.whenCore; (try dsimp only); (try split) <;> simp [h]

@[simp] theorem State.whenCore_mem (s : State) {f : State → State} (h : ∀ t, (f t).mem = t.mem) :
    (s.whenCore f).mem = s.mem := by
  unfold State.whenCore; (try dsimp only); (try split) <;> simp [h]

@[simp] theorem State.whenCore_heads (s : State) {f : State → State} (h : ∀ t, (f t).heads = t.heads) :
    (s.whenCore f).heads = s.heads := by
  unfold State.whenCore; (try dsimp only); (try split) <;> simp [h]

@[simp] theorem State.whenCore_beat (s : State) {f : State → State} (h : ∀ t, (f t).beat = t.beat) :
    (s.whenCore f).beat = s.beat := by
  unfold State.whenCore; (try dsimp only); (try split) <;> simp [h]

@[simp] theorem State.whenCore_lanes (s : State) {f : State → State} (h : ∀ t, (f t).lanes = t.lanes) :
    (s.whenCore f).lanes = s.lanes := by
  unfold State.whenCore; (try dsimp only); (try split) <;> simp [h]

@[simp] theorem State.whenCore_line (s : State) {f : State → State} (h : ∀ t, (f t).line = t.line) :
    (s.whenCore f).line = s.line := by
  unfold State.whenCore; (try dsimp only); (try split) <;> simp [h]

@[simp] theorem State.whenCore_ports (s : State) {f : State → State} (h : ∀ t, (f t).ports = t.ports) :
    (s.whenCore f).ports = s.ports := by
  unfold State.whenCore; (try dsimp only); (try split) <;> simp [h]

@[simp] theorem State.whenCore_echo (s : State) {f : State → State} (h : ∀ t, (f t).echo = t.echo) :
    (s.whenCore f).echo = s.echo := by
  unfold State.whenCore; (try dsimp only); (try split) <;> simp [h]

@[simp] theorem State.whenCore_tun (s : State) {f : State → State} (h : ∀ t, (f t).tun = t.tun) :
    (s.whenCore f).tun = s.tun := by
  unfold State.whenCore; (try dsimp only); (try split) <;> simp [h]

@[simp] theorem State.whenCore_cav (s : State) {f : State → State} (h : ∀ t, (f t).cav = t.cav) :
    (s.whenCore f).cav = s.cav := by
  unfold State.whenCore; (try dsimp only); (try split) <;> simp [h]

@[simp] theorem State.whenCore_sched (s : State) {f : State → State} (h : ∀ t, (f t).sched = t.sched) :
    (s.whenCore f).sched = s.sched := by
  unfold State.whenCore; (try dsimp only); (try split) <;> simp [h]

@[simp] theorem State.whenCore_twin (s : State) {f : State → State} (h : ∀ t, (f t).twin = t.twin) :
    (s.whenCore f).twin = s.twin := by
  unfold State.whenCore; (try dsimp only); (try split) <;> simp [h]

@[simp] theorem State.whenCore_eng (s : State) {f : State → State} (h : ∀ t, (f t).eng = t.eng) :
    (s.whenCore f).eng = s.eng := by
  unfold State.whenCore; (try dsimp only); (try split) <;> simp [h]

@[simp] theorem State.whenCore_acc (s : State) {f : State → State} (h : ∀ t, (f t).acc = t.acc) :
    (s.whenCore f).acc = s.acc := by
  unfold State.whenCore; (try dsimp only); (try split) <;> simp [h]

@[simp] theorem State.whenCore_geode (s : State) {f : State → State} (h : ∀ t, (f t).geode = t.geode) :
    (s.whenCore f).geode = s.geode := by
  unfold State.whenCore; (try dsimp only); (try split) <;> simp [h]

@[simp] theorem State.whenCore_boot (s : State) {f : State → State} (h : ∀ t, (f t).boot = t.boot) :
    (s.whenCore f).boot = s.boot := by
  unfold State.whenCore; (try dsimp only); (try split) <;> simp [h]

@[simp] theorem State.whenCore_pwr (s : State) {f : State → State} (h : ∀ t, (f t).pwr = t.pwr) :
    (s.whenCore f).pwr = s.pwr := by
  unfold State.whenCore; (try dsimp only); (try split) <;> simp [h]

@[simp] theorem State.whenCore_usb (s : State) {f : State → State} (h : ∀ t, (f t).usb = t.usb) :
    (s.whenCore f).usb = s.usb := by
  unfold State.whenCore; (try dsimp only); (try split) <;> simp [h]

@[simp] theorem State.whenCore_pd (s : State) {f : State → State} (h : ∀ t, (f t).pd = t.pd) :
    (s.whenCore f).pd = s.pd := by
  unfold State.whenCore; (try dsimp only); (try split) <;> simp [h]

@[simp] theorem State.whenCore_mon (s : State) {f : State → State} (h : ∀ t, (f t).mon = t.mon) :
    (s.whenCore f).mon = s.mon := by
  unfold State.whenCore; (try dsimp only); (try split) <;> simp [h]

@[simp] theorem State.whenCore_log (s : State) {f : State → State} (h : ∀ t, (f t).log = t.log) :
    (s.whenCore f).log = s.log := by
  unfold State.whenCore; (try dsimp only); (try split) <;> simp [h]

@[simp] theorem State.whenCore_faultN (s : State) {f : State → State} (h : ∀ t, (f t).faultN = t.faultN) :
    (s.whenCore f).faultN = s.faultN := by
  unfold State.whenCore; (try dsimp only); (try split) <;> simp [h]

@[simp] theorem State.whenCore_carStatus (s : State) {f : State → State} (h : ∀ t, (f t).carStatus = t.carStatus) :
    (s.whenCore f).carStatus = s.carStatus := by
  unfold State.whenCore; (try dsimp only); (try split) <;> simp [h]

@[simp] theorem State.whenCore_ticks (s : State) {f : State → State} (h : ∀ t, (f t).ticks = t.ticks) :
    (s.whenCore f).ticks = s.ticks := by
  unfold State.whenCore; (try dsimp only); (try split) <;> simp [h]

@[simp] theorem State.whenCore_freeCtr (s : State) {f : State → State} (h : ∀ t, (f t).freeCtr = t.freeCtr) :
    (s.whenCore f).freeCtr = s.freeCtr := by
  unfold State.whenCore; (try dsimp only); (try split) <;> simp [h]

@[simp] theorem State.whenCore_sent (s : State) {f : State → State} (h : ∀ t, (f t).sent = t.sent) :
    (s.whenCore f).sent = s.sent := by
  unfold State.whenCore; (try dsimp only); (try split) <;> simp [h]

@[simp] theorem State.whenCore_pending (s : State) {f : State → State} (h : ∀ t, (f t).pending = t.pending) :
    (s.whenCore f).pending = s.pending := by
  unfold State.whenCore; (try dsimp only); (try split) <;> simp [h]

/-! ## What a named update changes -/

@[simp] theorem State.setReg_regs (s : State) (k : Nat) (w : Word) : (s.setReg k w).regs = Store.set resetWord k w s.regs := rfl
@[simp] theorem State.setByte_mem (s : State) (a : Nat) (b : Byte) : (s.setByte a b).mem = Store.set Memory.blank a b s.mem := rfl
@[simp] theorem State.emit_sent (s : State) (o : Output) : (s.emit o).sent = o :: s.sent := rfl
@[simp] theorem State.drawn_freeCtr (s : State) : s.drawn.freeCtr = s.freeCtr + 1 := rfl
@[simp] theorem State.modLane_lanes (s : State) (l : LaneIx) (f : Lane → Lane) : (s.modLane l f).lanes = vmod s.lanes l f := rfl
@[simp] theorem State.modPort_ports (s : State) (p : LinkPort) (f : Port → Port) : (s.modPort p f).ports = vmod s.ports p f := rfl
@[simp] theorem State.modPd_pd (s : State) (p : PdPort) (f : PdState → PdState) : (s.modPd p f).pd = vmod s.pd p f := rfl

/-! ## Vectors -/

@[simp] theorem vset_val_same {α : Type} {n : Nat} (v : Vector α n) (i : Fin n) (x : α) : (vset v i x)[i.val] = x := by
  simp [vset]

theorem vset_same {α : Type} {n : Nat} (v : Vector α n) (i : Fin n) (x : α) : (vset v i x)[i] = x := vset_val_same v i x

theorem vset_other {α : Type} {n : Nat} {i j : Fin n} (h : i ≠ j) (v : Vector α n) (x : α) : (vset v i x)[j] = v[j] := by
  have : i.val ≠ j.val := fun e => h (Fin.ext e)
  simp [vset, Vector.getElem_set, this]

@[simp] theorem vmod_val_same {α : Type} {n : Nat} (v : Vector α n) (i : Fin n) (f : α → α) : (vmod v i f)[i.val] = f v[i] :=
  vset_val_same v i _

theorem vmod_same {α : Type} {n : Nat} (v : Vector α n) (i : Fin n) (f : α → α) : (vmod v i f)[i] = f v[i] := vmod_val_same v i f

theorem vmod_other {α : Type} {n : Nat} {i j : Fin n} (h : i ≠ j) (v : Vector α n) (f : α → α) : (vmod v i f)[j] = v[j] :=
  vset_other h v _

theorem vall_same {α β : Type} {n : Nat} (v : Vector α n) (f : α → β) (i : Fin n) : (vall v f)[i] = f v[i] := by
  simp [vall]

/-! ## Registers after writes -/

@[simp] theorem State.reg_setReg_same (s : State) (k : Nat) (w : Word) : (s.setReg k w).reg k = w := by
  simp [State.reg]

theorem State.reg_setReg_other {j k : Nat} (h : j ≠ k) (s : State) (w : Word) : (s.setReg k w).reg j = s.reg j := by
  simp [State.reg, Store.get_set_other h]

theorem State.reg_setReg (s : State) (j k : Nat) (w : Word) : (s.setReg k w).reg j = if j = k then w else s.reg j := by
  simp [State.reg, Store.get_set]

theorem State.reg_setRegN (s : State) (j k n : Nat) :
    (s.setRegN k n).reg j = if j = k then BitVec.ofNat 32 n else s.reg j := State.reg_setReg s j k _

theorem State.reg_setFld_other {j k : Nat} (h : j ≠ k) (s : State) (hi lo v : Nat) : (s.setFld k hi lo v).reg j = s.reg j :=
  State.reg_setReg_other h s _

theorem State.reg_setBit_other {j k : Nat} (h : j ≠ k) (s : State) (i : Nat) (b : Bool) : (s.setBit k i b).reg j = s.reg j :=
  State.reg_setReg_other h s _

theorem State.reg_count_other {j k : Nat} (h : j ≠ k) (s : State) : (s.count k).reg j = s.reg j :=
  State.reg_setReg_other h s _

theorem State.fld_setReg_other {j k : Nat} (h : j ≠ k) (s : State) (w : Word) (hi lo : Nat) :
    (s.setReg k w).fld j hi lo = s.fld j hi lo := by
  simp [State.fld, State.reg_setReg_other h]

theorem State.fld_setFld_other {j k : Nat} (h : j ≠ k) (s : State) (hi lo v hi' lo' : Nat) :
    (s.setFld k hi lo v).fld j hi' lo' = s.fld j hi' lo' := by
  simp [State.fld, State.reg_setFld_other h]

theorem State.bit_setFld_other {j k : Nat} (h : j ≠ k) (s : State) (hi lo v i : Nat) :
    (s.setFld k hi lo v).bit j i = s.bit j i := by
  simp [State.bit, State.reg_setFld_other h]

/-! ## Fields of words -/

theorem bitsOf_lt (w : Word) (hi lo : Nat) : bitsOf w hi lo < 2 ^ (hi - lo + 1) := Nat.mod_lt _ (by positivity)

/-- The number that a word with a replaced field spells. -/
theorem withBits_toNat (w : Word) {hi lo : Nat} (h : hi < 32) (hl : lo ≤ hi) (v : Nat) :
    (withBits w hi lo v).toNat = w.toNat - bitsOf w hi lo * 2 ^ lo + v % 2 ^ (hi - lo + 1) * 2 ^ lo := by
  unfold withBits
  rw [BitVec.toNat_ofNat]
  apply Nat.mod_eq_of_lt
  have hw : w.toNat < 2 ^ 32 := w.isLt
  have h1 : v % 2 ^ (hi - lo + 1) + 1 ≤ 2 ^ (hi - lo + 1) := Nat.mod_lt _ (by positivity)
  have hsplit : w.toNat = (w.toNat / 2 ^ lo / 2 ^ (hi - lo + 1)) * 2 ^ (hi + 1) + bitsOf w hi lo * 2 ^ lo + w.toNat % 2 ^ lo := by
    have e1 := Nat.div_add_mod w.toNat (2 ^ lo)
    have e2 := Nat.div_add_mod (w.toNat / 2 ^ lo) (2 ^ (hi - lo + 1))
    have e3 : 2 ^ (hi + 1) = 2 ^ (hi - lo + 1) * 2 ^ lo := by rw [← pow_add]; congr 1; omega
    unfold bitsOf
    rw [e3]
    calc w.toNat = 2 ^ lo * (w.toNat / 2 ^ lo) + w.toNat % 2 ^ lo := e1.symm
      _ = 2 ^ lo * (2 ^ (hi - lo + 1) * (w.toNat / 2 ^ lo / 2 ^ (hi - lo + 1)) + w.toNat / 2 ^ lo % 2 ^ (hi - lo + 1)) + w.toNat % 2 ^ lo := by rw [e2]
      _ = _ := by ring
  have hlow : w.toNat % 2 ^ lo + 1 ≤ 2 ^ lo := Nat.mod_lt _ (by positivity)
  have hq : w.toNat / 2 ^ lo / 2 ^ (hi - lo + 1) + 1 ≤ 2 ^ (31 - hi) := by
    rw [Nat.div_div_eq_div_mul, ← pow_add]
    apply Nat.div_lt_of_lt_mul
    rw [← pow_add]
    exact lt_of_lt_of_eq hw (by congr 1; omega)
  have e3 : 2 ^ (hi + 1) = 2 ^ (hi - lo + 1) * 2 ^ lo := by rw [← pow_add]; congr 1; omega
  have e4 : 2 ^ 32 = 2 ^ (31 - hi) * 2 ^ (hi + 1) := by rw [← pow_add]; congr 1; omega
  have b1 : (v % 2 ^ (hi - lo + 1)) * 2 ^ lo + 2 ^ lo ≤ 2 ^ (hi + 1) := by
    rw [e3]; calc _ = (v % 2 ^ (hi - lo + 1) + 1) * 2 ^ lo := by ring
      _ ≤ _ := Nat.mul_le_mul_right _ h1
  have b2 : (w.toNat / 2 ^ lo / 2 ^ (hi - lo + 1)) * 2 ^ (hi + 1) + 2 ^ (hi + 1) ≤ 2 ^ 32 := by
    rw [e4]; calc _ = (w.toNat / 2 ^ lo / 2 ^ (hi - lo + 1) + 1) * 2 ^ (hi + 1) := by ring
      _ ≤ _ := Nat.mul_le_mul_right _ hq
  omega

/-- A replaced field reads as the value's low bits. -/
theorem bitsOf_withBits_same (w : Word) {hi lo : Nat} (h : hi < 32) (hl : lo ≤ hi) (v : Nat) :
    bitsOf (withBits w hi lo v) hi lo = v % 2 ^ (hi - lo + 1) := by
  have e := withBits_toNat w h hl v
  have hb : bitsOf w hi lo * 2 ^ lo ≤ w.toNat := by
    unfold bitsOf
    calc w.toNat / 2 ^ lo % 2 ^ (hi - lo + 1) * 2 ^ lo ≤ w.toNat / 2 ^ lo * 2 ^ lo := Nat.mul_le_mul_right _ (Nat.mod_le _ _)
      _ ≤ _ := Nat.div_mul_le_self _ _
  have e1 := Nat.div_add_mod w.toNat (2 ^ lo)
  have e2 := Nat.div_add_mod (w.toNat / 2 ^ lo) (2 ^ (hi - lo + 1))
  have hval : (withBits w hi lo v).toNat =
      2 ^ lo * (2 ^ (hi - lo + 1) * (w.toNat / 2 ^ lo / 2 ^ (hi - lo + 1)) + v % 2 ^ (hi - lo + 1)) + w.toNat % 2 ^ lo := by
    rw [e]
    have hs : w.toNat = 2 ^ lo * (2 ^ (hi - lo + 1) * (w.toNat / 2 ^ lo / 2 ^ (hi - lo + 1))) + bitsOf w hi lo * 2 ^ lo + w.toNat % 2 ^ lo := by
      unfold bitsOf
      calc w.toNat = 2 ^ lo * (w.toNat / 2 ^ lo) + w.toNat % 2 ^ lo := e1.symm
        _ = 2 ^ lo * (2 ^ (hi - lo + 1) * (w.toNat / 2 ^ lo / 2 ^ (hi - lo + 1)) + w.toNat / 2 ^ lo % 2 ^ (hi - lo + 1)) + w.toNat % 2 ^ lo := by rw [e2]
        _ = _ := by ring
    have : w.toNat - bitsOf w hi lo * 2 ^ lo =
        2 ^ lo * (2 ^ (hi - lo + 1) * (w.toNat / 2 ^ lo / 2 ^ (hi - lo + 1))) + w.toNat % 2 ^ lo := by omega
    rw [this]; ring
  have hpos : 0 < 2 ^ lo := by positivity
  unfold bitsOf
  rw [hval, Nat.mul_add_div hpos, Nat.div_eq_of_lt (Nat.mod_lt _ hpos), Nat.add_zero, Nat.mul_add_mod, Nat.mod_mod]

theorem State.fld_setFld_same (s : State) (k : Nat) {hi lo : Nat} (h : hi < 32) (hl : lo ≤ hi) (v : Nat) :
    (s.setFld k hi lo v).fld k hi lo = v % 2 ^ (hi - lo + 1) := by
  simp [State.fld, State.setFld, bitsOf_withBits_same _ h hl]

theorem bit_eq_bitsOf (w : Word) (i : Nat) : w.getLsbD i = decide (bitsOf w i i = 1) := by
  simp [bitsOf, BitVec.getLsbD, Nat.testBit_eq_decide_div_mod_eq]

/-- A bit written reads as written. -/
@[simp] theorem State.bit_setBit_same (s : State) (k : Nat) {i : Nat} (h : i < 32) (b : Bool) : (s.setBit k i b).bit k i = b := by
  have := State.fld_setFld_same s k h (le_refl i) (b2n b)
  unfold State.bit State.setBit
  rw [bit_eq_bitsOf]
  unfold State.fld at this
  rw [this]
  cases b <;> simp [b2n]

/-- A register write keeps the registers in canonical form. -/
@[simp] theorem Regs.wf_set {l : List (Nat × Word)} (k : Nat) (w : Word) (h : Store.wfFrom resetWord 0 l = true) :
    Store.wfFrom resetWord 0 (Store.set resetWord k w l) = true := Store.wfFrom_set (Nat.zero_le _) h

/-- Writing a register with what it holds changes nothing, where the registers are in canonical form. -/
theorem State.setReg_self (s : State) (k : Nat) (h : s.regsWf = true) : s.setReg k (s.reg k) = s := by
  have : Store.set resetWord k (s.reg k) s.regs = s.regs := by
    refine Store.ext_of_wf (lo := 0) (Store.wfFrom_set (Nat.zero_le _) h) h fun j => ?_
    rw [Store.get_set]
    split
    · rename_i e; rw [e]; rfl
    · rfl
  simp [State.setReg, this]

/-! ## Memory -/

@[simp] theorem State.byte_setByte_same (s : State) (a : Nat) (b : Byte) : (s.setByte a b).byte a = b := by
  simp [State.byte]

theorem State.byte_setByte_other {a a' : Nat} (h : a' ≠ a) (s : State) (b : Byte) : (s.setByte a b).byte a' = s.byte a' := by
  simp [State.byte, Store.get_set_other h]

/-- Bytes outside those written read as before. -/
theorem State.byte_setBytes_out {a a' : Nat} {bs : List Byte} (h : a' < a ∨ a + bs.length ≤ a') (s : State) :
    (s.setBytes a bs).byte a' = s.byte a' := by
  induction bs generalizing a s with
  | nil => rfl
  | cons b bs ih =>
    simp only [List.length_cons] at h
    rw [State.setBytes, ih (by omega), State.byte_setByte_other (by omega)]

/-- A byte written reads as written. -/
theorem State.byte_setBytes_in {a i : Nat} {bs : List Byte} (h : i < bs.length) (s : State) :
    (s.setBytes a bs).byte (a + i) = bs[i] := by
  induction bs generalizing a i s with
  | nil => simp at h
  | cons b bs ih =>
    rw [State.setBytes]
    cases i with
    | zero => rw [State.byte_setBytes_out (by omega)]; simp
    | succ i =>
      have := ih (a := a + 1) (i := i) (by simpa using h) (s.setByte a b)
      simpa [Nat.add_assoc, Nat.add_comm 1 i] using this

@[simp] theorem Memory.wf_set {m : List Host.Cell} (a : Nat) (b : Byte) (h : Memory.wf m = true) :
    Memory.wf (Store.set Memory.blank a b m) = true := Store.wfFrom_set (Nat.zero_le _) h

@[simp] theorem Memory.wf_filter {m : List Host.Cell} (p : Host.Cell → Bool) (h : Memory.wf m = true) :
    Memory.wf (m.filter p) = true := Store.wfFrom_filter p h

/-- Canonical memories that read alike are the same memory. -/
theorem Memory.ext {s t : State} (hs : Memory.wf s.mem = true) (ht : Memory.wf t.mem = true)
    (h : ∀ a, s.byte a = t.byte a) : s.mem = t.mem := Store.ext_of_wf hs ht h

end Sys2Proof.Machine
end

