-- ==== Sys2Proof/Laws/KeepsCells.lean ====
section
/-! SUPPORT. Laws/KeepsCells.lean: what the operations of Machine/Ops, LineCode, Cells, Keys and Link leave as it is. They are no simp lemmas: a proof
takes those it needs as hypotheses, `have hk := @State.foo_keeps; simp [hk]`, which makes no auxiliary theorem. -/

set_option linter.all false

namespace Sys2Proof.Machine

open Sys2Proof

@[simp] theorem State.inOrder_mem (s : State) {f : State → State} (h : ∀ t, (f t).mem = t.mem) :
    (State.inOrder s f).mem = s.mem := by
  unfold State.inOrder; (try dsimp only); (repeat' split) <;> (have hi := @State.ite_fields; simp [h, hi])

@[simp] theorem State.inOrder_heads (s : State) {f : State → State} (h : ∀ t, (f t).heads = t.heads) :
    (State.inOrder s f).heads = s.heads := by
  unfold State.inOrder; (try dsimp only); (repeat' split) <;> (have hi := @State.ite_fields; simp [h, hi])

@[simp] theorem State.inOrder_beat (s : State) {f : State → State} (h : ∀ t, (f t).beat = t.beat) :
    (State.inOrder s f).beat = s.beat := by
  unfold State.inOrder; (try dsimp only); (repeat' split) <;> (have hi := @State.ite_fields; simp [h, hi])

@[simp] theorem State.inOrder_lanes (s : State) {f : State → State} (h : ∀ t, (f t).lanes = t.lanes) :
    (State.inOrder s f).lanes = s.lanes := by
  unfold State.inOrder; (try dsimp only); (repeat' split) <;> (have hi := @State.ite_fields; simp [h, hi])

@[simp] theorem State.inOrder_line (s : State) {f : State → State} (h : ∀ t, (f t).line = t.line) :
    (State.inOrder s f).line = s.line := by
  unfold State.inOrder; (try dsimp only); (repeat' split) <;> (have hi := @State.ite_fields; simp [h, hi])

@[simp] theorem State.inOrder_ports (s : State) {f : State → State} (h : ∀ t, (f t).ports = t.ports) :
    (State.inOrder s f).ports = s.ports := by
  unfold State.inOrder; (try dsimp only); (repeat' split) <;> (have hi := @State.ite_fields; simp [h, hi])

@[simp] theorem State.inOrder_echo (s : State) {f : State → State} (h : ∀ t, (f t).echo = t.echo) :
    (State.inOrder s f).echo = s.echo := by
  unfold State.inOrder; (try dsimp only); (repeat' split) <;> (have hi := @State.ite_fields; simp [h, hi])

@[simp] theorem State.inOrder_tun (s : State) {f : State → State} (h : ∀ t, (f t).tun = t.tun) :
    (State.inOrder s f).tun = s.tun := by
  unfold State.inOrder; (try dsimp only); (repeat' split) <;> (have hi := @State.ite_fields; simp [h, hi])

@[simp] theorem State.inOrder_cav (s : State) {f : State → State} (h : ∀ t, (f t).cav = t.cav) :
    (State.inOrder s f).cav = s.cav := by
  unfold State.inOrder; (try dsimp only); (repeat' split) <;> (have hi := @State.ite_fields; simp [h, hi])

@[simp] theorem State.inOrder_sched (s : State) {f : State → State} (h : ∀ t, (f t).sched = t.sched) :
    (State.inOrder s f).sched = s.sched := by
  unfold State.inOrder; (try dsimp only); (repeat' split) <;> (have hi := @State.ite_fields; simp [h, hi])

@[simp] theorem State.inOrder_twin (s : State) {f : State → State} (h : ∀ t, (f t).twin = t.twin) :
    (State.inOrder s f).twin = s.twin := by
  unfold State.inOrder; (try dsimp only); (repeat' split) <;> (have hi := @State.ite_fields; simp [h, hi])

@[simp] theorem State.inOrder_eng (s : State) {f : State → State} (h : ∀ t, (f t).eng = t.eng) :
    (State.inOrder s f).eng = s.eng := by
  unfold State.inOrder; (try dsimp only); (repeat' split) <;> (have hi := @State.ite_fields; simp [h, hi])

@[simp] theorem State.inOrder_acc (s : State) {f : State → State} (h : ∀ t, (f t).acc = t.acc) :
    (State.inOrder s f).acc = s.acc := by
  unfold State.inOrder; (try dsimp only); (repeat' split) <;> (have hi := @State.ite_fields; simp [h, hi])

@[simp] theorem State.inOrder_geode (s : State) {f : State → State} (h : ∀ t, (f t).geode = t.geode) :
    (State.inOrder s f).geode = s.geode := by
  unfold State.inOrder; (try dsimp only); (repeat' split) <;> (have hi := @State.ite_fields; simp [h, hi])

@[simp] theorem State.inOrder_boot (s : State) {f : State → State} (h : ∀ t, (f t).boot = t.boot) :
    (State.inOrder s f).boot = s.boot := by
  unfold State.inOrder; (try dsimp only); (repeat' split) <;> (have hi := @State.ite_fields; simp [h, hi])

@[simp] theorem State.inOrder_pwr (s : State) {f : State → State} (h : ∀ t, (f t).pwr = t.pwr) :
    (State.inOrder s f).pwr = s.pwr := by
  unfold State.inOrder; (try dsimp only); (repeat' split) <;> (have hi := @State.ite_fields; simp [h, hi])

@[simp] theorem State.inOrder_usb (s : State) {f : State → State} (h : ∀ t, (f t).usb = t.usb) :
    (State.inOrder s f).usb = s.usb := by
  unfold State.inOrder; (try dsimp only); (repeat' split) <;> (have hi := @State.ite_fields; simp [h, hi])

@[simp] theorem State.inOrder_pd (s : State) {f : State → State} (h : ∀ t, (f t).pd = t.pd) :
    (State.inOrder s f).pd = s.pd := by
  unfold State.inOrder; (try dsimp only); (repeat' split) <;> (have hi := @State.ite_fields; simp [h, hi])

@[simp] theorem State.inOrder_mon (s : State) {f : State → State} (h : ∀ t, (f t).mon = t.mon) :
    (State.inOrder s f).mon = s.mon := by
  unfold State.inOrder; (try dsimp only); (repeat' split) <;> (have hi := @State.ite_fields; simp [h, hi])

@[simp] theorem State.inOrder_faultN (s : State) {f : State → State} (h : ∀ t, (f t).faultN = t.faultN) :
    (State.inOrder s f).faultN = s.faultN := by
  unfold State.inOrder; (try dsimp only); (repeat' split) <;> (have hi := @State.ite_fields; simp [h, hi])

@[simp] theorem State.inOrder_carStatus (s : State) {f : State → State} (h : ∀ t, (f t).carStatus = t.carStatus) :
    (State.inOrder s f).carStatus = s.carStatus := by
  unfold State.inOrder; (try dsimp only); (repeat' split) <;> (have hi := @State.ite_fields; simp [h, hi])

@[simp] theorem State.inOrder_ticks (s : State) {f : State → State} (h : ∀ t, (f t).ticks = t.ticks) :
    (State.inOrder s f).ticks = s.ticks := by
  unfold State.inOrder; (try dsimp only); (repeat' split) <;> (have hi := @State.ite_fields; simp [h, hi])

@[simp] theorem State.inOrder_freeCtr (s : State) {f : State → State} (h : ∀ t, (f t).freeCtr = t.freeCtr) :
    (State.inOrder s f).freeCtr = s.freeCtr := by
  unfold State.inOrder; (try dsimp only); (repeat' split) <;> (have hi := @State.ite_fields; simp [h, hi])

@[simp] theorem State.inOrder_sent (s : State) {f : State → State} (h : ∀ t, (f t).sent = t.sent) :
    (State.inOrder s f).sent = s.sent := by
  unfold State.inOrder; (try dsimp only); (repeat' split) <;> (have hi := @State.ite_fields; simp [h, hi])

theorem State.takeReserves_keeps (s : State) :
    s.KeepsOuter (State.takeReserves s) ∧ s.KeepsInner (State.takeReserves s) ∧ s.KeepsCore (State.takeReserves s) ∧
    (State.takeReserves s).mem = s.mem ∧ (State.takeReserves s).line = s.line ∧ (State.takeReserves s).ports = s.ports ∧
    (State.takeReserves s).geode = s.geode ∧ (State.takeReserves s).freeCtr = s.freeCtr ∧ (State.takeReserves s).sent = s.sent := by
  unfold State.takeReserves
  (try dsimp only)
  (repeat' split) <;> simp [State.KeepsOuter, State.KeepsInner, State.KeepsCore]

theorem State.reserveInForce_keeps (s : State) (p : LinkPort) :
    s.KeepsOuter (State.reserveInForce s p) ∧ s.KeepsInner (State.reserveInForce s p) ∧ s.KeepsCore (State.reserveInForce s p) ∧
    (State.reserveInForce s p).regs = s.regs ∧ (State.reserveInForce s p).mem = s.mem ∧ (State.reserveInForce s p).line = s.line ∧
    (State.reserveInForce s p).cav = s.cav ∧ (State.reserveInForce s p).geode = s.geode ∧ (State.reserveInForce s p).freeCtr = s.freeCtr ∧
    (State.reserveInForce s p).sent = s.sent := by
  unfold State.reserveInForce
  (try dsimp only)
  (repeat' split) <;> simp [State.KeepsOuter, State.KeepsInner, State.KeepsCore]

theorem State.reservesInForce_keeps (s : State) (p : LinkPort) :
    s.KeepsOuter (State.reservesInForce s p) ∧ s.KeepsInner (State.reservesInForce s p) ∧ s.KeepsCore (State.reservesInForce s p) ∧
    (State.reservesInForce s p).regs = s.regs ∧ (State.reservesInForce s p).mem = s.mem ∧ (State.reservesInForce s p).line = s.line ∧
    (State.reservesInForce s p).cav = s.cav ∧ (State.reservesInForce s p).geode = s.geode ∧
    (State.reservesInForce s p).freeCtr = s.freeCtr ∧ (State.reservesInForce s p).sent = s.sent := by
  unfold State.reservesInForce
  (try dsimp only)
  (repeat' split) <;> (have hk1 := @State.reserveInForce_keeps; simp [hk1, State.KeepsOuter, State.KeepsInner, State.KeepsCore])

theorem State.modStored_keeps (s : State) (id : Nat) (f : Stored → Stored) :
    s.KeepsOuter (State.modStored s id f) ∧ s.KeepsInner (State.modStored s id f) ∧ s.KeepsCore (State.modStored s id f) ∧
    (State.modStored s id f).regs = s.regs ∧ (State.modStored s id f).mem = s.mem ∧ (State.modStored s id f).line = s.line ∧
    (State.modStored s id f).ports = s.ports ∧ (State.modStored s id f).geode = s.geode ∧ (State.modStored s id f).freeCtr = s.freeCtr ∧
    (State.modStored s id f).sent = s.sent := by
  unfold State.modStored
  (try dsimp only)
  (repeat' split) <;> simp [State.KeepsOuter, State.KeepsInner, State.KeepsCore]

theorem State.modQueue_keeps (s : State) (q : QueueIx) (f : Queue → Queue) :
    s.KeepsOuter (State.modQueue s q f) ∧ s.KeepsInner (State.modQueue s q f) ∧ s.KeepsCore (State.modQueue s q f) ∧
    (State.modQueue s q f).regs = s.regs ∧ (State.modQueue s q f).mem = s.mem ∧ (State.modQueue s q f).line = s.line ∧
    (State.modQueue s q f).ports = s.ports ∧ (State.modQueue s q f).geode = s.geode ∧ (State.modQueue s q f).freeCtr = s.freeCtr ∧
    (State.modQueue s q f).sent = s.sent := by
  unfold State.modQueue
  (try dsimp only)
  (repeat' split) <;> simp [State.KeepsOuter, State.KeepsInner, State.KeepsCore]

theorem State.allocCell_keeps (s : State) (id : Nat) (bytes : List Byte) (c : Nat) :
    s.KeepsOuter (State.allocCell s id bytes c) ∧ s.KeepsInner (State.allocCell s id bytes c) ∧
    s.KeepsCore (State.allocCell s id bytes c) ∧ (State.allocCell s id bytes c).regs = s.regs ∧
    (State.allocCell s id bytes c).line = s.line ∧ (State.allocCell s id bytes c).ports = s.ports ∧
    (State.allocCell s id bytes c).geode = s.geode ∧ (State.allocCell s id bytes c).sent = s.sent := by
  unfold State.allocCell
  (try dsimp only)
  (repeat' split) <;> (have hk1 := @State.modStored_keeps; simp [hk1, State.KeepsOuter, State.KeepsInner, State.KeepsCore])

theorem State.allocCells_keeps (s : State) (id : Nat) (f : Frame) (y1 : Nat) (y2 : Nat) (y3 : Nat) :
    s.KeepsOuter (State.allocCells s id f y1 y2 y3) ∧ s.KeepsInner (State.allocCells s id f y1 y2 y3) ∧
    s.KeepsCore (State.allocCells s id f y1 y2 y3) ∧ (State.allocCells s id f y1 y2 y3).regs = s.regs ∧
    (State.allocCells s id f y1 y2 y3).line = s.line ∧ (State.allocCells s id f y1 y2 y3).ports = s.ports ∧
    (State.allocCells s id f y1 y2 y3).geode = s.geode ∧ (State.allocCells s id f y1 y2 y3).sent = s.sent := by
  fun_induction State.allocCells s id f y1 y2 y3 <;> (try simp only [Prod.ext_iff] at *) <;> (try casesm* _ ∧ _) <;> subst_vars <;>
    (have hk1 := @State.allocCell_keeps; simp_all +zetaDelta [hk1, State.KeepsOuter, State.KeepsInner, State.KeepsCore])

theorem State.store_keeps (s : State) (f : Frame) (ingress : EgressPort) (matched : List MatchedGen) (start : Nat) :
    s.KeepsOuter (State.store s f ingress matched start) ∧ s.KeepsInner (State.store s f ingress matched start) ∧
    s.KeepsCore (State.store s f ingress matched start) ∧ (State.store s f ingress matched start).regs = s.regs ∧
    (State.store s f ingress matched start).line = s.line ∧ (State.store s f ingress matched start).ports = s.ports ∧
    (State.store s f ingress matched start).geode = s.geode ∧ (State.store s f ingress matched start).sent = s.sent := by
  unfold State.store
  (try dsimp only)
  (repeat' split) <;> (have hk1 := @State.allocCells_keeps; simp [hk1, State.KeepsOuter, State.KeepsInner, State.KeepsCore])

theorem State.release_keeps (s : State) (id : Nat) :
    s.KeepsOuter (State.release s id) ∧ s.KeepsInner (State.release s id) ∧ s.KeepsCore (State.release s id) ∧
    (State.release s id).regs = s.regs ∧ (State.release s id).mem = s.mem ∧ (State.release s id).line = s.line ∧
    (State.release s id).ports = s.ports ∧ (State.release s id).geode = s.geode ∧ (State.release s id).freeCtr = s.freeCtr ∧
    (State.release s id).sent = s.sent := by
  unfold State.release
  (try dsimp only)
  (repeat' split) <;> simp [State.KeepsOuter, State.KeepsInner, State.KeepsCore]

theorem State.emptyDeficit_keeps (s : State) (q : QueueIx) :
    s.KeepsOuter (State.emptyDeficit s q) ∧ s.KeepsInner (State.emptyDeficit s q) ∧ s.KeepsCore (State.emptyDeficit s q) ∧
    (State.emptyDeficit s q).mem = s.mem ∧ (State.emptyDeficit s q).line = s.line ∧ (State.emptyDeficit s q).ports = s.ports ∧
    (State.emptyDeficit s q).cav = s.cav ∧ (State.emptyDeficit s q).geode = s.geode ∧ (State.emptyDeficit s q).freeCtr = s.freeCtr ∧
    (State.emptyDeficit s q).sent = s.sent := by
  unfold State.emptyDeficit
  (try dsimp only)
  (repeat' split) <;> simp [State.KeepsOuter, State.KeepsInner, State.KeepsCore]

theorem State.dropRef_keeps (s : State) (q : QueueIx) (id : Nat) :
    s.KeepsOuter (State.dropRef s q id) ∧ s.KeepsInner (State.dropRef s q id) ∧ s.KeepsCore (State.dropRef s q id) ∧
    (State.dropRef s q id).mem = s.mem ∧ (State.dropRef s q id).line = s.line ∧ (State.dropRef s q id).ports = s.ports ∧
    (State.dropRef s q id).geode = s.geode ∧ (State.dropRef s q id).freeCtr = s.freeCtr ∧ (State.dropRef s q id).sent = s.sent := by
  unfold State.dropRef
  (try dsimp only)
  (repeat' split) <;> (have hk1 := @State.emptyDeficit_keeps; have hk2 := @State.modQueue_keeps; have hk3 := @State.release_keeps; simp [hk1, hk2, hk3, State.KeepsOuter, State.KeepsInner, State.KeepsCore])

theorem State.flushQueue_keeps (s : State) (q : QueueIx) :
    s.KeepsOuter (State.flushQueue s q) ∧ s.KeepsInner (State.flushQueue s q) ∧ s.KeepsCore (State.flushQueue s q) ∧
    (State.flushQueue s q).mem = s.mem ∧ (State.flushQueue s q).line = s.line ∧ (State.flushQueue s q).ports = s.ports ∧
    (State.flushQueue s q).geode = s.geode ∧ (State.flushQueue s q).freeCtr = s.freeCtr ∧ (State.flushQueue s q).sent = s.sent := by
  unfold State.flushQueue
  (try dsimp only)
  (repeat' split) <;> (have hk1 := @State.dropRef_keeps; simp [hk1, State.KeepsOuter, State.KeepsInner, State.KeepsCore])

theorem State.flushPort_keeps (s : State) (p : EgressPort) (lo : Nat) (hi : Nat) :
    s.KeepsOuter (State.flushPort s p lo hi) ∧ s.KeepsInner (State.flushPort s p lo hi) ∧ s.KeepsCore (State.flushPort s p lo hi) ∧
    (State.flushPort s p lo hi).mem = s.mem ∧ (State.flushPort s p lo hi).line = s.line ∧ (State.flushPort s p lo hi).ports = s.ports ∧
    (State.flushPort s p lo hi).geode = s.geode ∧ (State.flushPort s p lo hi).freeCtr = s.freeCtr ∧
    (State.flushPort s p lo hi).sent = s.sent := by
  unfold State.flushPort
  (try dsimp only)
  (repeat' split) <;> (have hk1 := @State.flushQueue_keeps; simp [hk1, State.KeepsOuter, State.KeepsInner, State.KeepsCore])

theorem State.sift_keeps (s : State) (c : Cls) (n : Nat) (y1 : List EgressPort) :
    s.KeepsOuter (State.sift s c n y1).1 ∧ s.KeepsInner (State.sift s c n y1).1 ∧ s.KeepsCore (State.sift s c n y1).1 ∧
    (State.sift s c n y1).1.mem = s.mem ∧ (State.sift s c n y1).1.line = s.line ∧ (State.sift s c n y1).1.ports = s.ports ∧
    (State.sift s c n y1).1.cav = s.cav ∧ (State.sift s c n y1).1.geode = s.geode ∧ (State.sift s c n y1).1.freeCtr = s.freeCtr ∧
    (State.sift s c n y1).1.sent = s.sent := by
  fun_induction State.sift s c n y1 <;> (try simp only [Prod.ext_iff] at *) <;> (try casesm* _ ∧ _) <;> subst_vars <;>
    simp_all +zetaDelta [State.KeepsOuter, State.KeepsInner, State.KeepsCore]

theorem State.joinQueue_keeps (s : State) (q : QueueIx) (id : Nat) (n : Nat) (single : Bool) :
    s.KeepsOuter (State.joinQueue s q id n single) ∧ s.KeepsInner (State.joinQueue s q id n single) ∧
    s.KeepsCore (State.joinQueue s q id n single) ∧ (State.joinQueue s q id n single).mem = s.mem ∧
    (State.joinQueue s q id n single).line = s.line ∧ (State.joinQueue s q id n single).ports = s.ports ∧
    (State.joinQueue s q id n single).geode = s.geode ∧ (State.joinQueue s q id n single).freeCtr = s.freeCtr ∧
    (State.joinQueue s q id n single).sent = s.sent := by
  unfold State.joinQueue
  (try dsimp only)
  (repeat' split) <;> (have hk1 := @State.modQueue_keeps; simp [hk1, State.KeepsOuter, State.KeepsInner, State.KeepsCore])

theorem State.creditBack_keeps (s : State) (p : LinkPort) (c : Cls) (esc : Bool) (n : Nat) :
    s.KeepsOuter (State.creditBack s p c esc n) ∧ s.KeepsInner (State.creditBack s p c esc n) ∧
    s.KeepsCore (State.creditBack s p c esc n) ∧ (State.creditBack s p c esc n).regs = s.regs ∧
    (State.creditBack s p c esc n).mem = s.mem ∧ (State.creditBack s p c esc n).line = s.line ∧
    (State.creditBack s p c esc n).cav = s.cav ∧ (State.creditBack s p c esc n).geode = s.geode ∧
    (State.creditBack s p c esc n).freeCtr = s.freeCtr ∧ (State.creditBack s p c esc n).sent = s.sent := by
  unfold State.creditBack
  (try dsimp only)
  (repeat' split) <;> simp [State.KeepsOuter, State.KeepsInner, State.KeepsCore]

theorem State.reopenAdmission_keeps (s : State) :
    s.KeepsOuter (State.reopenAdmission s) ∧ s.KeepsInner (State.reopenAdmission s) ∧ (State.reopenAdmission s).regs = s.regs ∧
    (State.reopenAdmission s).mem = s.mem ∧ (State.reopenAdmission s).beat = s.beat ∧ (State.reopenAdmission s).lanes = s.lanes ∧
    (State.reopenAdmission s).line = s.line ∧ (State.reopenAdmission s).tun = s.tun ∧ (State.reopenAdmission s).cav = s.cav ∧
    (State.reopenAdmission s).sched = s.sched ∧ (State.reopenAdmission s).eng = s.eng ∧ (State.reopenAdmission s).geode = s.geode ∧
    (State.reopenAdmission s).boot = s.boot ∧ (State.reopenAdmission s).freeCtr = s.freeCtr ∧ (State.reopenAdmission s).sent = s.sent := by
  unfold State.reopenAdmission
  (try dsimp only)
  (repeat' split) <;> simp [State.KeepsOuter, State.KeepsInner, State.KeepsCore]

theorem State.modCredit_keeps (s : State) (p : LinkPort) (c : Cls) (esc : Bool) (f : Credit → Credit) :
    s.KeepsOuter (State.modCredit s p c esc f) ∧ s.KeepsInner (State.modCredit s p c esc f) ∧ s.KeepsCore (State.modCredit s p c esc f) ∧
    (State.modCredit s p c esc f).regs = s.regs ∧ (State.modCredit s p c esc f).mem = s.mem ∧ (State.modCredit s p c esc f).line = s.line ∧
    (State.modCredit s p c esc f).cav = s.cav ∧ (State.modCredit s p c esc f).geode = s.geode ∧
    (State.modCredit s p c esc f).freeCtr = s.freeCtr ∧ (State.modCredit s p c esc f).sent = s.sent := by
  unfold State.modCredit
  (try dsimp only)
  (repeat' split) <;> simp [State.KeepsOuter, State.KeepsInner, State.KeepsCore]

theorem State.sendCred_keeps (s : State) (p : LinkPort) (c : Cls) (esc : Bool) :
    s.KeepsOuter (State.sendCred s p c esc) ∧ s.KeepsInner (State.sendCred s p c esc) ∧ s.KeepsCore (State.sendCred s p c esc) ∧
    (State.sendCred s p c esc).regs = s.regs ∧ (State.sendCred s p c esc).mem = s.mem ∧ (State.sendCred s p c esc).ports = s.ports ∧
    (State.sendCred s p c esc).cav = s.cav ∧ (State.sendCred s p c esc).geode = s.geode ∧ (State.sendCred s p c esc).freeCtr = s.freeCtr := by
  unfold State.sendCred
  (try dsimp only)
  (repeat' split) <;> simp [State.KeepsOuter, State.KeepsInner, State.KeepsCore]

theorem State.spendCredit_keeps (s : State) (p : LinkPort) (c : Cls) (esc : Bool) (n : Nat) :
    s.KeepsOuter (State.spendCredit s p c esc n) ∧ s.KeepsInner (State.spendCredit s p c esc n) ∧
    s.KeepsCore (State.spendCredit s p c esc n) ∧ (State.spendCredit s p c esc n).regs = s.regs ∧
    (State.spendCredit s p c esc n).mem = s.mem ∧ (State.spendCredit s p c esc n).line = s.line ∧
    (State.spendCredit s p c esc n).cav = s.cav ∧ (State.spendCredit s p c esc n).geode = s.geode ∧
    (State.spendCredit s p c esc n).freeCtr = s.freeCtr ∧ (State.spendCredit s p c esc n).sent = s.sent := by
  unfold State.spendCredit
  (try dsimp only)
  (repeat' split) <;> (have hk1 := @State.modCredit_keeps; simp [hk1, State.KeepsOuter, State.KeepsInner, State.KeepsCore])

theorem State.creditHeld_keeps (s : State) (p : LinkPort) (c : Cls) (esc : Bool) (f : Nat → Nat) :
    s.KeepsOuter (State.creditHeld s p c esc f) ∧ s.KeepsInner (State.creditHeld s p c esc f) ∧
    s.KeepsCore (State.creditHeld s p c esc f) ∧ (State.creditHeld s p c esc f).regs = s.regs ∧
    (State.creditHeld s p c esc f).mem = s.mem ∧ (State.creditHeld s p c esc f).line = s.line ∧
    (State.creditHeld s p c esc f).cav = s.cav ∧ (State.creditHeld s p c esc f).geode = s.geode ∧
    (State.creditHeld s p c esc f).freeCtr = s.freeCtr ∧ (State.creditHeld s p c esc f).sent = s.sent := by
  unfold State.creditHeld
  (try dsimp only)
  (repeat' split) <;> simp [State.KeepsOuter, State.KeepsInner, State.KeepsCore]

theorem State.joinAll_keeps (s : State) (id : Nat) (c : Cls) (n : Nat) (single : Bool) (targets : List EgressPort) :
    s.KeepsOuter (State.joinAll s id c n single targets).1 ∧ s.KeepsInner (State.joinAll s id c n single targets).1 ∧
    s.KeepsCore (State.joinAll s id c n single targets).1 ∧ (State.joinAll s id c n single targets).1.mem = s.mem ∧
    (State.joinAll s id c n single targets).1.line = s.line ∧ (State.joinAll s id c n single targets).1.ports = s.ports ∧
    (State.joinAll s id c n single targets).1.geode = s.geode ∧ (State.joinAll s id c n single targets).1.freeCtr = s.freeCtr ∧
    (State.joinAll s id c n single targets).1.sent = s.sent := by
  unfold State.joinAll
  (try dsimp only)
  (repeat' split) <;> (have hk1 := @State.joinQueue_keeps; have hk2 := @State.modStored_keeps; have hk3 := @State.release_keeps; have hk4 := @State.sift_keeps; simp [hk1, hk2, hk3, hk4, State.KeepsOuter, State.KeepsInner, State.KeepsCore])

theorem State.waitInReserve_keeps (s : State) (p : LinkPort) (c : Cls) (esc : Bool) (id : Nat) (credit : Nat) (single : Bool) (targets : List EgressPort) :
    s.KeepsOuter (State.waitInReserve s p c esc id credit single targets) ∧
    s.KeepsInner (State.waitInReserve s p c esc id credit single targets) ∧
    s.KeepsCore (State.waitInReserve s p c esc id credit single targets) ∧
    (State.waitInReserve s p c esc id credit single targets).regs = s.regs ∧
    (State.waitInReserve s p c esc id credit single targets).mem = s.mem ∧
    (State.waitInReserve s p c esc id credit single targets).line = s.line ∧
    (State.waitInReserve s p c esc id credit single targets).geode = s.geode ∧
    (State.waitInReserve s p c esc id credit single targets).freeCtr = s.freeCtr ∧
    (State.waitInReserve s p c esc id credit single targets).sent = s.sent := by
  unfold State.waitInReserve
  (try dsimp only)
  (repeat' split) <;> (have hk1 := @State.creditHeld_keeps; simp [hk1, State.KeepsOuter, State.KeepsInner, State.KeepsCore])

theorem State.returnCredit_keeps (s : State) (ingress : EgressPort) (c : Cls) (dl : Bool) (n : Nat) :
    s.KeepsOuter (State.returnCredit s ingress c dl n) ∧ s.KeepsInner (State.returnCredit s ingress c dl n) ∧
    s.KeepsCore (State.returnCredit s ingress c dl n) ∧ (State.returnCredit s ingress c dl n).regs = s.regs ∧
    (State.returnCredit s ingress c dl n).mem = s.mem ∧ (State.returnCredit s ingress c dl n).line = s.line ∧
    (State.returnCredit s ingress c dl n).cav = s.cav ∧ (State.returnCredit s ingress c dl n).geode = s.geode ∧
    (State.returnCredit s ingress c dl n).freeCtr = s.freeCtr ∧ (State.returnCredit s ingress c dl n).sent = s.sent := by
  unfold State.returnCredit
  (try dsimp only)
  (repeat' split) <;> (have hk1 := @State.creditBack_keeps; simp [hk1, State.KeepsOuter, State.KeepsInner, State.KeepsCore])

theorem State.place_keeps (s : State) (id : Nat) (f : Frame) (ingress : EgressPort) (targets : List EgressPort) (credit : Nat) :
    s.KeepsOuter (State.place s id f ingress targets credit) ∧ s.KeepsInner (State.place s id f ingress targets credit) ∧
    s.KeepsCore (State.place s id f ingress targets credit) ∧ (State.place s id f ingress targets credit).mem = s.mem ∧
    (State.place s id f ingress targets credit).line = s.line ∧ (State.place s id f ingress targets credit).geode = s.geode ∧
    (State.place s id f ingress targets credit).freeCtr = s.freeCtr ∧ (State.place s id f ingress targets credit).sent = s.sent := by
  unfold State.place
  (try dsimp only)
  (repeat' split) <;> (try simp only [Prod.ext_iff] at *) <;> (try casesm* _ ∧ _) <;> subst_vars <;>
    (have hk1 := @State.creditBack_keeps; have hk2 := @State.joinAll_keeps; have hk3 := @State.release_keeps; have hk4 := @State.waitInReserve_keeps; simp [hk1, hk2, hk3, hk4, State.KeepsOuter, State.KeepsInner, State.KeepsCore])

theorem State.retryOne_keeps (s : State) (w : Waiting) :
    s.KeepsOuter (State.retryOne s w).1 ∧ s.KeepsInner (State.retryOne s w).1 ∧ s.KeepsCore (State.retryOne s w).1 ∧
    (State.retryOne s w).1.mem = s.mem ∧ (State.retryOne s w).1.line = s.line ∧ (State.retryOne s w).1.geode = s.geode ∧
    (State.retryOne s w).1.freeCtr = s.freeCtr ∧ (State.retryOne s w).1.sent = s.sent := by
  unfold State.retryOne
  (try dsimp only)
  (repeat' split) <;> (try simp only [Prod.ext_iff] at *) <;> (try casesm* _ ∧ _) <;> subst_vars <;>
    (have hk1 := @State.creditBack_keeps; have hk2 := @State.creditHeld_keeps; have hk3 := @State.joinAll_keeps; simp [hk1, hk2, hk3, State.KeepsOuter, State.KeepsInner, State.KeepsCore])

theorem State.retryWaiting_keeps (s : State) (y1 : List Waiting) (y2 : List (LinkPort × Cls × Bool)) :
    s.KeepsOuter (State.retryWaiting s y1 y2) ∧ s.KeepsInner (State.retryWaiting s y1 y2) ∧ s.KeepsCore (State.retryWaiting s y1 y2) ∧
    (State.retryWaiting s y1 y2).mem = s.mem ∧ (State.retryWaiting s y1 y2).line = s.line ∧ (State.retryWaiting s y1 y2).geode = s.geode ∧
    (State.retryWaiting s y1 y2).freeCtr = s.freeCtr ∧ (State.retryWaiting s y1 y2).sent = s.sent := by
  fun_induction State.retryWaiting s y1 y2 <;> (try simp only [Prod.ext_iff] at *) <;> (try casesm* _ ∧ _) <;> subst_vars <;>
    (have hk1 := @State.retryOne_keeps; simp_all +zetaDelta [hk1, State.KeepsOuter, State.KeepsInner, State.KeepsCore])

theorem State.settle_keeps (s : State) :
    s.KeepsOuter (State.settle s) ∧ s.KeepsInner (State.settle s) ∧ s.KeepsCore (State.settle s) ∧ (State.settle s).mem = s.mem ∧
    (State.settle s).line = s.line ∧ (State.settle s).geode = s.geode ∧ (State.settle s).freeCtr = s.freeCtr ∧
    (State.settle s).sent = s.sent := by
  unfold State.settle
  (try dsimp only)
  (repeat' split) <;> (have hk1 := @State.retryWaiting_keeps; simp [hk1, State.KeepsOuter, State.KeepsInner, State.KeepsCore])

theorem State.loseSent_keeps (s : State) (p : LinkPort) :
    s.KeepsOuter (State.loseSent s p) ∧ s.KeepsInner (State.loseSent s p) ∧ s.KeepsCore (State.loseSent s p) ∧
    (State.loseSent s p).mem = s.mem ∧ (State.loseSent s p).line = s.line ∧ (State.loseSent s p).cav = s.cav ∧
    (State.loseSent s p).geode = s.geode ∧ (State.loseSent s p).sent = s.sent := by
  unfold State.loseSent
  (try dsimp only)
  (repeat' split) <;> simp [State.KeepsOuter, State.KeepsInner, State.KeepsCore]

theorem State.lossQueues_keeps (s : State) (t : TrunkPort) :
    s.KeepsOuter (State.lossQueues s t) ∧ s.KeepsInner (State.lossQueues s t) ∧ s.KeepsCore (State.lossQueues s t) ∧
    (State.lossQueues s t).mem = s.mem ∧ (State.lossQueues s t).line = s.line ∧ (State.lossQueues s t).geode = s.geode ∧
    (State.lossQueues s t).sent = s.sent := by
  unfold State.lossQueues
  (try dsimp only)
  (repeat' split) <;> (have hk1 := @State.flushPort_keeps; have hk2 := @State.loseSent_keeps; simp [hk1, hk2, State.KeepsOuter, State.KeepsInner, State.KeepsCore])

theorem State.endCuts_keeps (s : State) (p : EgressPort) :
    s.KeepsOuter (State.endCuts s p) ∧ s.KeepsInner (State.endCuts s p) ∧ s.KeepsCore (State.endCuts s p) ∧
    (State.endCuts s p).mem = s.mem ∧ (State.endCuts s p).ports = s.ports ∧ (State.endCuts s p).geode = s.geode ∧
    (State.endCuts s p).freeCtr = s.freeCtr := by
  unfold State.endCuts
  (try dsimp only)
  (repeat' split) <;> (have hk1 := @State.release_keeps; simp [hk1, State.KeepsOuter, State.KeepsInner, State.KeepsCore])

theorem State.localDown_keeps (s : State) (p : LinkPort) :
    s.KeepsOuter (State.localDown s p) ∧ s.KeepsInner (State.localDown s p) ∧ s.KeepsCore (State.localDown s p) ∧
    (State.localDown s p).mem = s.mem ∧ (State.localDown s p).geode = s.geode ∧ (State.localDown s p).freeCtr = s.freeCtr := by
  unfold State.localDown
  (try dsimp only)
  (repeat' split) <;> (have hk1 := @State.endCuts_keeps; have hk2 := @State.flushPort_keeps; have hk3 := @State.settle_keeps; simp [hk1, hk2, hk3, State.KeepsOuter, State.KeepsInner, State.KeepsCore])

theorem State.flushHeld_keeps (s : State) (t : TrunkPort) :
    s.KeepsOuter (State.flushHeld s t) ∧ s.KeepsInner (State.flushHeld s t) ∧ s.KeepsCore (State.flushHeld s t) ∧
    (State.flushHeld s t).mem = s.mem ∧ (State.flushHeld s t).line = s.line ∧ (State.flushHeld s t).geode = s.geode ∧
    (State.flushHeld s t).freeCtr = s.freeCtr ∧ (State.flushHeld s t).sent = s.sent := by
  unfold State.flushHeld
  (try dsimp only)
  (repeat' split) <;> (have hk1 := @State.flushPort_keeps; have hk2 := @State.settle_keeps; simp [hk1, hk2, State.KeepsOuter, State.KeepsInner, State.KeepsCore])

theorem State.modSlot_keeps (s : State) (k : BitVec 8) (f : KeySlot → KeySlot) :
    s.KeepsOuter (State.modSlot s k f) ∧ s.KeepsInner (State.modSlot s k f) ∧ s.KeepsCore (State.modSlot s k f) ∧
    (State.modSlot s k f).regs = s.regs ∧ (State.modSlot s k f).mem = s.mem ∧ (State.modSlot s k f).line = s.line ∧
    (State.modSlot s k f).ports = s.ports ∧ (State.modSlot s k f).cav = s.cav ∧ (State.modSlot s k f).freeCtr = s.freeCtr ∧
    (State.modSlot s k f).sent = s.sent := by
  unfold State.modSlot
  (try dsimp only)
  (repeat' split) <;> simp [State.KeepsOuter, State.KeepsInner, State.KeepsCore]

theorem State.readSlot_keeps (s : State) (k : BitVec 8) :
    s.KeepsOuter (State.readSlot s k) ∧ s.KeepsInner (State.readSlot s k) ∧ s.KeepsCore (State.readSlot s k) ∧
    (State.readSlot s k).mem = s.mem ∧ (State.readSlot s k).line = s.line ∧ (State.readSlot s k).ports = s.ports ∧
    (State.readSlot s k).cav = s.cav ∧ (State.readSlot s k).freeCtr = s.freeCtr ∧ (State.readSlot s k).sent = s.sent := by
  unfold State.readSlot
  (try dsimp only)
  (repeat' split) <;> (have hk1 := @State.modSlot_keeps; simp [hk1, State.KeepsOuter, State.KeepsInner, State.KeepsCore])

theorem State.createKey_keeps (s : State) (k : BitVec 8) (attr : BitVec 18) (parent : Option (BitVec 8)) (value : List Byte) :
    s.KeepsOuter (State.createKey s k attr parent value) ∧ s.KeepsInner (State.createKey s k attr parent value) ∧
    s.KeepsCore (State.createKey s k attr parent value) ∧ (State.createKey s k attr parent value).regs = s.regs ∧
    (State.createKey s k attr parent value).mem = s.mem ∧ (State.createKey s k attr parent value).line = s.line ∧
    (State.createKey s k attr parent value).ports = s.ports ∧ (State.createKey s k attr parent value).cav = s.cav ∧
    (State.createKey s k attr parent value).freeCtr = s.freeCtr ∧ (State.createKey s k attr parent value).sent = s.sent := by
  unfold State.createKey
  (try dsimp only)
  (repeat' split) <;> (have hk1 := @State.modSlot_keeps; simp [hk1, State.KeepsOuter, State.KeepsInner, State.KeepsCore])

theorem State.markPending_keeps (s : State) (p : BitVec 8) :
    s.KeepsOuter (State.markPending s p) ∧ s.KeepsInner (State.markPending s p) ∧ s.KeepsCore (State.markPending s p) ∧
    (State.markPending s p).regs = s.regs ∧ (State.markPending s p).mem = s.mem ∧ (State.markPending s p).line = s.line ∧
    (State.markPending s p).ports = s.ports ∧ (State.markPending s p).cav = s.cav ∧ (State.markPending s p).freeCtr = s.freeCtr ∧
    (State.markPending s p).sent = s.sent := by
  unfold State.markPending
  (try dsimp only)
  (repeat' split) <;> simp [State.KeepsOuter, State.KeepsInner, State.KeepsCore]

theorem State.markCascade_keeps (s : State) (p : BitVec 8) :
    s.KeepsOuter (State.markCascade s p) ∧ s.KeepsInner (State.markCascade s p) ∧ s.KeepsCore (State.markCascade s p) ∧
    (State.markCascade s p).regs = s.regs ∧ (State.markCascade s p).mem = s.mem ∧ (State.markCascade s p).line = s.line ∧
    (State.markCascade s p).ports = s.ports ∧ (State.markCascade s p).cav = s.cav ∧ (State.markCascade s p).freeCtr = s.freeCtr ∧
    (State.markCascade s p).sent = s.sent := by
  unfold State.markCascade
  (try dsimp only)
  (repeat' split) <;> (have hk1 := @State.markPending_keeps; simp [hk1, State.KeepsOuter, State.KeepsInner, State.KeepsCore])

theorem State.zeroKey_keeps (s : State) (k : BitVec 8) :
    s.KeepsOuter (State.zeroKey s k) ∧ s.KeepsInner (State.zeroKey s k) ∧ s.KeepsCore (State.zeroKey s k) ∧
    (State.zeroKey s k).regs = s.regs ∧ (State.zeroKey s k).mem = s.mem ∧ (State.zeroKey s k).line = s.line ∧
    (State.zeroKey s k).ports = s.ports ∧ (State.zeroKey s k).cav = s.cav ∧ (State.zeroKey s k).freeCtr = s.freeCtr ∧
    (State.zeroKey s k).sent = s.sent := by
  unfold State.zeroKey
  (try dsimp only)
  (repeat' split) <;> (have hk1 := @State.markCascade_keeps; have hk2 := @State.modSlot_keeps; simp [hk1, hk2, State.KeepsOuter, State.KeepsInner, State.KeepsCore])

theorem State.retireAssoc_keeps (s : State) (p : LinkPort) (transmit : Bool) (sa : BitVec 8) :
    s.KeepsOuter (State.retireAssoc s p transmit sa) ∧ s.KeepsInner (State.retireAssoc s p transmit sa) ∧
    s.KeepsCore (State.retireAssoc s p transmit sa) ∧ (State.retireAssoc s p transmit sa).regs = s.regs ∧
    (State.retireAssoc s p transmit sa).mem = s.mem ∧ (State.retireAssoc s p transmit sa).line = s.line ∧
    (State.retireAssoc s p transmit sa).ports = s.ports ∧ (State.retireAssoc s p transmit sa).cav = s.cav ∧
    (State.retireAssoc s p transmit sa).freeCtr = s.freeCtr ∧ (State.retireAssoc s p transmit sa).sent = s.sent := by
  unfold State.retireAssoc
  (try dsimp only)
  (repeat' split) <;> simp [State.KeepsOuter, State.KeepsInner, State.KeepsCore]

theorem State.installAssoc_keeps (s : State) (p : LinkPort) (transmit : Bool) (sa : BitVec 8) (k : BitVec 8) :
    s.KeepsOuter (State.installAssoc s p transmit sa k) ∧ s.KeepsInner (State.installAssoc s p transmit sa k) ∧
    s.KeepsCore (State.installAssoc s p transmit sa k) ∧ (State.installAssoc s p transmit sa k).regs = s.regs ∧
    (State.installAssoc s p transmit sa k).mem = s.mem ∧ (State.installAssoc s p transmit sa k).line = s.line ∧
    (State.installAssoc s p transmit sa k).ports = s.ports ∧ (State.installAssoc s p transmit sa k).cav = s.cav ∧
    (State.installAssoc s p transmit sa k).freeCtr = s.freeCtr ∧ (State.installAssoc s p transmit sa k).sent = s.sent := by
  unfold State.installAssoc
  (try dsimp only)
  (repeat' split) <;> simp [State.KeepsOuter, State.KeepsInner, State.KeepsCore]

theorem State.stopAssocs_keeps (s : State) (f : Assoc → Bool) :
    s.KeepsOuter (State.stopAssocs s f) ∧ s.KeepsInner (State.stopAssocs s f) ∧ s.KeepsCore (State.stopAssocs s f) ∧
    (State.stopAssocs s f).regs = s.regs ∧ (State.stopAssocs s f).mem = s.mem ∧ (State.stopAssocs s f).line = s.line ∧
    (State.stopAssocs s f).ports = s.ports ∧ (State.stopAssocs s f).cav = s.cav ∧ (State.stopAssocs s f).freeCtr = s.freeCtr ∧
    (State.stopAssocs s f).sent = s.sent := by
  unfold State.stopAssocs
  (try dsimp only)
  (repeat' split) <;> simp [State.KeepsOuter, State.KeepsInner, State.KeepsCore]

theorem State.setCtr_keeps (s : State) (p : LinkPort) (transmit : Bool) (sa : BitVec 8) (c : BitVec 64) :
    s.KeepsOuter (State.setCtr s p transmit sa c) ∧ s.KeepsInner (State.setCtr s p transmit sa c) ∧
    s.KeepsCore (State.setCtr s p transmit sa c) ∧ (State.setCtr s p transmit sa c).regs = s.regs ∧
    (State.setCtr s p transmit sa c).mem = s.mem ∧ (State.setCtr s p transmit sa c).line = s.line ∧
    (State.setCtr s p transmit sa c).ports = s.ports ∧ (State.setCtr s p transmit sa c).cav = s.cav ∧
    (State.setCtr s p transmit sa c).freeCtr = s.freeCtr ∧ (State.setCtr s p transmit sa c).sent = s.sent := by
  unfold State.setCtr
  (try dsimp only)
  (repeat' split) <;> simp [State.KeepsOuter, State.KeepsInner, State.KeepsCore]

theorem State.encrypt_keeps (s : State) (a : Assoc) (f : Frame) :
    s.KeepsOuter (State.encrypt s a f).1 ∧ s.KeepsInner (State.encrypt s a f).1 ∧ s.KeepsCore (State.encrypt s a f).1 ∧
    (State.encrypt s a f).1.regs = s.regs ∧ (State.encrypt s a f).1.mem = s.mem ∧ (State.encrypt s a f).1.line = s.line ∧
    (State.encrypt s a f).1.ports = s.ports ∧ (State.encrypt s a f).1.cav = s.cav ∧ (State.encrypt s a f).1.freeCtr = s.freeCtr ∧
    (State.encrypt s a f).1.sent = s.sent := by
  unfold State.encrypt
  (try dsimp only)
  (repeat' split) <;> (have hk1 := @State.setCtr_keeps; simp [hk1, State.KeepsOuter, State.KeepsInner, State.KeepsCore])

theorem State.retireOlderRx_keeps (s : State) (p : LinkPort) (sa : BitVec 8) :
    s.KeepsOuter (State.retireOlderRx s p sa) ∧ s.KeepsInner (State.retireOlderRx s p sa) ∧ s.KeepsCore (State.retireOlderRx s p sa) ∧
    (State.retireOlderRx s p sa).regs = s.regs ∧ (State.retireOlderRx s p sa).mem = s.mem ∧ (State.retireOlderRx s p sa).line = s.line ∧
    (State.retireOlderRx s p sa).ports = s.ports ∧ (State.retireOlderRx s p sa).cav = s.cav ∧
    (State.retireOlderRx s p sa).freeCtr = s.freeCtr ∧ (State.retireOlderRx s p sa).sent = s.sent := by
  unfold State.retireOlderRx
  (try dsimp only)
  (repeat' split) <;> (have hk1 := @State.retireAssoc_keeps; have hk2 := @State.zeroKey_keeps; simp [hk1, hk2, State.KeepsOuter, State.KeepsInner, State.KeepsCore])

theorem State.checkTag_keeps (s : State) (p : LinkPort) (f : Frame) (tag : BitVec 128) :
    s.KeepsOuter (State.checkTag s p f tag).1 ∧ s.KeepsInner (State.checkTag s p f tag).1 ∧ s.KeepsCore (State.checkTag s p f tag).1 ∧
    (State.checkTag s p f tag).1.mem = s.mem ∧ (State.checkTag s p f tag).1.line = s.line ∧ (State.checkTag s p f tag).1.ports = s.ports ∧
    (State.checkTag s p f tag).1.cav = s.cav ∧ (State.checkTag s p f tag).1.freeCtr = s.freeCtr ∧
    (State.checkTag s p f tag).1.sent = s.sent := by
  unfold State.checkTag
  (try dsimp only)
  (repeat' split) <;> (have hk1 := @State.retireOlderRx_keeps; have hk2 := @State.setCtr_keeps; simp [hk1, hk2, State.KeepsOuter, State.KeepsInner, State.KeepsCore])

theorem State.keyBad_keeps (s : State) (p : LinkPort) :
    s.KeepsOuter (State.keyBad s p) ∧ s.KeepsInner (State.keyBad s p) ∧ s.KeepsCore (State.keyBad s p) ∧ (State.keyBad s p).mem = s.mem ∧
    (State.keyBad s p).line = s.line ∧ (State.keyBad s p).ports = s.ports ∧ (State.keyBad s p).cav = s.cav ∧
    (State.keyBad s p).geode = s.geode ∧ (State.keyBad s p).freeCtr = s.freeCtr ∧ (State.keyBad s p).sent = s.sent := by
  unfold State.keyBad
  (try dsimp only)
  (repeat' split) <;> simp [State.KeepsOuter, State.KeepsInner, State.KeepsCore]

theorem State.sendOwn_keeps (s : State) (t : TrunkPort) (f : Frame) :
    s.KeepsOuter (State.sendOwn s t f) ∧ s.KeepsInner (State.sendOwn s t f) ∧ s.KeepsCore (State.sendOwn s t f) ∧
    (State.sendOwn s t f).regs = s.regs ∧ (State.sendOwn s t f).mem = s.mem ∧ (State.sendOwn s t f).line = s.line ∧
    (State.sendOwn s t f).cav = s.cav ∧ (State.sendOwn s t f).geode = s.geode ∧ (State.sendOwn s t f).freeCtr = s.freeCtr ∧
    (State.sendOwn s t f).sent = s.sent := by
  unfold State.sendOwn
  (try dsimp only)
  (repeat' split) <;> simp [State.KeepsOuter, State.KeepsInner, State.KeepsCore]

theorem State.sendKey_keeps (s : State) (t : TrunkPort) (payload : List Byte) :
    s.KeepsOuter (State.sendKey s t payload) ∧ s.KeepsInner (State.sendKey s t payload) ∧ s.KeepsCore (State.sendKey s t payload) ∧
    (State.sendKey s t payload).regs = s.regs ∧ (State.sendKey s t payload).mem = s.mem ∧ (State.sendKey s t payload).line = s.line ∧
    (State.sendKey s t payload).cav = s.cav ∧ (State.sendKey s t payload).geode = s.geode ∧
    (State.sendKey s t payload).freeCtr = s.freeCtr ∧ (State.sendKey s t payload).sent = s.sent := by
  unfold State.sendKey
  (try dsimp only)
  (repeat' split) <;> (have hk1 := @State.sendOwn_keeps; simp [hk1, State.KeepsOuter, State.KeepsInner, State.KeepsCore])

theorem State.modAgent_keeps (s : State) (t : TrunkPort) (f : KeyAgent → KeyAgent) :
    s.KeepsOuter (State.modAgent s t f) ∧ s.KeepsInner (State.modAgent s t f) ∧ s.KeepsCore (State.modAgent s t f) ∧
    (State.modAgent s t f).regs = s.regs ∧ (State.modAgent s t f).mem = s.mem ∧ (State.modAgent s t f).line = s.line ∧
    (State.modAgent s t f).ports = s.ports ∧ (State.modAgent s t f).cav = s.cav ∧ (State.modAgent s t f).freeCtr = s.freeCtr ∧
    (State.modAgent s t f).sent = s.sent := by
  unfold State.modAgent
  (try dsimp only)
  (repeat' split) <;> simp [State.KeepsOuter, State.KeepsInner, State.KeepsCore]

theorem State.authFailed_keeps (s : State) (t : TrunkPort) :
    s.KeepsOuter (State.authFailed s t) ∧ s.KeepsInner (State.authFailed s t) ∧ s.KeepsCore (State.authFailed s t) ∧
    (State.authFailed s t).mem = s.mem ∧ (State.authFailed s t).line = s.line ∧ (State.authFailed s t).cav = s.cav ∧
    (State.authFailed s t).freeCtr = s.freeCtr ∧ (State.authFailed s t).sent = s.sent := by
  unfold State.authFailed
  (try dsimp only)
  (repeat' split) <;> (have hk1 := @State.modAgent_keeps; have hk2 := @State.retireAssoc_keeps; have hk3 := @State.zeroKey_keeps; simp [hk1, hk2, hk3, State.KeepsOuter, State.KeepsInner, State.KeepsCore])

theorem State.sendFail_keeps (s : State) (t : TrunkPort) (reason : Nat) :
    s.KeepsOuter (State.sendFail s t reason) ∧ s.KeepsInner (State.sendFail s t reason) ∧ s.KeepsCore (State.sendFail s t reason) ∧
    (State.sendFail s t reason).mem = s.mem ∧ (State.sendFail s t reason).line = s.line ∧ (State.sendFail s t reason).cav = s.cav ∧
    (State.sendFail s t reason).freeCtr = s.freeCtr ∧ (State.sendFail s t reason).sent = s.sent := by
  unfold State.sendFail
  (try dsimp only)
  (repeat' split) <;> (have hk1 := @State.authFailed_keeps; have hk2 := @State.sendKey_keeps; simp [hk1, hk2, State.KeepsOuter, State.KeepsInner, State.KeepsCore])

theorem State.sendHello_keeps (s : State) (t : TrunkPort) (rekey : Bool) :
    s.KeepsOuter (State.sendHello s t rekey) ∧ s.KeepsInner (State.sendHello s t rekey) ∧ s.KeepsCore (State.sendHello s t rekey) ∧
    (State.sendHello s t rekey).regs = s.regs ∧ (State.sendHello s t rekey).mem = s.mem ∧ (State.sendHello s t rekey).line = s.line ∧
    (State.sendHello s t rekey).cav = s.cav ∧ (State.sendHello s t rekey).sent = s.sent := by
  unfold State.sendHello
  (try dsimp only)
  (repeat' split) <;> (have hk1 := @State.createKey_keeps; have hk2 := @State.modAgent_keeps; have hk3 := @State.sendKey_keeps; simp [hk1, hk2, hk3, State.KeepsOuter, State.KeepsInner, State.KeepsCore])

theorem State.sendResume_keeps (s : State) (t : TrunkPort) (rk : BitVec 8) :
    s.KeepsOuter (State.sendResume s t rk) ∧ s.KeepsInner (State.sendResume s t rk) ∧ s.KeepsCore (State.sendResume s t rk) ∧
    (State.sendResume s t rk).regs = s.regs ∧ (State.sendResume s t rk).mem = s.mem ∧ (State.sendResume s t rk).line = s.line ∧
    (State.sendResume s t rk).cav = s.cav ∧ (State.sendResume s t rk).sent = s.sent := by
  unfold State.sendResume
  (try dsimp only)
  (repeat' split) <;> (have hk1 := @State.modAgent_keeps; have hk2 := @State.sendKey_keeps; simp [hk1, hk2, State.KeepsOuter, State.KeepsInner, State.KeepsCore])

theorem State.startAuth_keeps (s : State) (t : TrunkPort) :
    s.KeepsOuter (State.startAuth s t) ∧ s.KeepsInner (State.startAuth s t) ∧ s.KeepsCore (State.startAuth s t) ∧
    (State.startAuth s t).regs = s.regs ∧ (State.startAuth s t).mem = s.mem ∧ (State.startAuth s t).line = s.line ∧
    (State.startAuth s t).cav = s.cav ∧ (State.startAuth s t).sent = s.sent := by
  unfold State.startAuth
  (try dsimp only)
  (repeat' split) <;> (have hk1 := @State.sendHello_keeps; have hk2 := @State.sendResume_keeps; simp [hk1, hk2, State.KeepsOuter, State.KeepsInner, State.KeepsCore])

theorem State.backToAuth_keeps (s : State) (t : TrunkPort) :
    s.KeepsOuter (State.backToAuth s t) ∧ s.KeepsInner (State.backToAuth s t) ∧ s.KeepsCore (State.backToAuth s t) ∧
    (State.backToAuth s t).regs = s.regs ∧ (State.backToAuth s t).mem = s.mem ∧ (State.backToAuth s t).line = s.line ∧
    (State.backToAuth s t).cav = s.cav ∧ (State.backToAuth s t).sent = s.sent := by
  unfold State.backToAuth
  (try dsimp only)
  (repeat' split) <;> (have hk1 := @State.sendHello_keeps; simp [hk1, State.KeepsOuter, State.KeepsInner, State.KeepsCore])

theorem State.reauthSpent_keeps (s : State) (before : State) (p : LinkPort) :
    s.KeepsOuter (State.reauthSpent s before p) ∧ s.KeepsInner (State.reauthSpent s before p) ∧
    s.KeepsCore (State.reauthSpent s before p) ∧ (State.reauthSpent s before p).regs = s.regs ∧
    (State.reauthSpent s before p).mem = s.mem ∧ (State.reauthSpent s before p).line = s.line ∧
    (State.reauthSpent s before p).cav = s.cav ∧ (State.reauthSpent s before p).sent = s.sent := by
  unfold State.reauthSpent
  (try dsimp only)
  (repeat' split) <;> (have hk1 := @State.backToAuth_keeps; simp [hk1, State.KeepsOuter, State.KeepsInner, State.KeepsCore])

theorem State.reauthStopped_keeps (s : State) (before : State) :
    s.KeepsOuter (State.reauthStopped s before) ∧ s.KeepsInner (State.reauthStopped s before) ∧
    s.KeepsCore (State.reauthStopped s before) ∧ (State.reauthStopped s before).regs = s.regs ∧
    (State.reauthStopped s before).mem = s.mem ∧ (State.reauthStopped s before).line = s.line ∧
    (State.reauthStopped s before).cav = s.cav ∧ (State.reauthStopped s before).sent = s.sent := by
  (have hk1 := @State.backToAuth_keeps; have hi := @State.ite_fields; simp [hk1, State.reauthStopped, hi, State.KeepsOuter, State.KeepsInner, State.KeepsCore])

theorem State.reauthAll_keeps (s : State) :
    s.KeepsOuter (State.reauthAll s) ∧ s.KeepsInner (State.reauthAll s) ∧ s.KeepsCore (State.reauthAll s) ∧
    (State.reauthAll s).regs = s.regs ∧ (State.reauthAll s).mem = s.mem ∧ (State.reauthAll s).line = s.line ∧
    (State.reauthAll s).cav = s.cav ∧ (State.reauthAll s).sent = s.sent := by
  unfold State.reauthAll
  (try dsimp only)
  (repeat' split) <;> (have hk1 := @State.backToAuth_keeps; simp [hk1, State.KeepsOuter, State.KeepsInner, State.KeepsCore])

theorem State.zeroVolatile_keeps (s : State) :
    s.KeepsOuter (State.zeroVolatile s) ∧ s.KeepsInner (State.zeroVolatile s) ∧ s.KeepsCore (State.zeroVolatile s) ∧
    (State.zeroVolatile s).regs = s.regs ∧ (State.zeroVolatile s).mem = s.mem ∧ (State.zeroVolatile s).line = s.line ∧
    (State.zeroVolatile s).ports = s.ports ∧ (State.zeroVolatile s).cav = s.cav ∧ (State.zeroVolatile s).freeCtr = s.freeCtr ∧
    (State.zeroVolatile s).sent = s.sent := by
  unfold State.zeroVolatile
  (try dsimp only)
  (repeat' split) <;> (have hk1 := @State.stopAssocs_keeps; simp [hk1, State.KeepsOuter, State.KeepsInner, State.KeepsCore])

theorem State.deriveLinkKeys_keeps (s : State) (t : TrunkPort) (parent : BitVec 8) (context : List Byte) (lo : HubId) (hi : HubId) (sa : BitVec 8) :
    s.KeepsOuter (State.deriveLinkKeys s t parent context lo hi sa) ∧ s.KeepsInner (State.deriveLinkKeys s t parent context lo hi sa) ∧
    s.KeepsCore (State.deriveLinkKeys s t parent context lo hi sa) ∧ (State.deriveLinkKeys s t parent context lo hi sa).regs = s.regs ∧
    (State.deriveLinkKeys s t parent context lo hi sa).mem = s.mem ∧ (State.deriveLinkKeys s t parent context lo hi sa).line = s.line ∧
    (State.deriveLinkKeys s t parent context lo hi sa).ports = s.ports ∧ (State.deriveLinkKeys s t parent context lo hi sa).cav = s.cav ∧
    (State.deriveLinkKeys s t parent context lo hi sa).freeCtr = s.freeCtr ∧
    (State.deriveLinkKeys s t parent context lo hi sa).sent = s.sent := by
  unfold State.deriveLinkKeys
  (try dsimp only)
  (repeat' split) <;> (have hk1 := @State.createKey_keeps; have hk2 := @State.installAssoc_keeps; have hk3 := @State.modAgent_keeps; simp [hk1, hk2, hk3, State.KeepsOuter, State.KeepsInner, State.KeepsCore])

theorem State.onHello_keeps (s : State) (t : TrunkPort) (payload : List Byte) :
    s.KeepsOuter (State.onHello s t payload) ∧ s.KeepsInner (State.onHello s t payload) ∧ s.KeepsCore (State.onHello s t payload) ∧
    (State.onHello s t payload).mem = s.mem ∧ (State.onHello s t payload).line = s.line ∧ (State.onHello s t payload).cav = s.cav ∧
    (State.onHello s t payload).sent = s.sent := by
  unfold State.onHello
  (try dsimp only)
  (repeat' split) <;> (have hk1 := @State.createKey_keeps; have hk2 := @State.deriveLinkKeys_keeps; have hk3 := @State.modAgent_keeps; have hk4 := @State.readSlot_keeps; have hk5 := @State.sendFail_keeps; have hk6 := @State.sendHello_keeps; have hk7 := @State.sendKey_keeps; have hk8 := @State.zeroKey_keeps; simp [hk1, hk2, hk3, hk4, hk5, hk6, hk7, hk8, State.KeepsOuter, State.KeepsInner, State.KeepsCore])

theorem State.installTx_keeps (s : State) (t : TrunkPort) (sa : BitVec 8) :
    s.KeepsOuter (State.installTx s t sa) ∧ s.KeepsInner (State.installTx s t sa) ∧ s.KeepsCore (State.installTx s t sa) ∧
    (State.installTx s t sa).regs = s.regs ∧ (State.installTx s t sa).mem = s.mem ∧ (State.installTx s t sa).line = s.line ∧
    (State.installTx s t sa).ports = s.ports ∧ (State.installTx s t sa).cav = s.cav ∧ (State.installTx s t sa).freeCtr = s.freeCtr ∧
    (State.installTx s t sa).sent = s.sent := by
  unfold State.installTx
  (try dsimp only)
  (repeat' split) <;> (have hk1 := @State.installAssoc_keeps; have hk2 := @State.modAgent_keeps; have hk3 := @State.retireAssoc_keeps; have hk4 := @State.zeroKey_keeps; simp [hk1, hk2, hk3, hk4, State.KeepsOuter, State.KeepsInner, State.KeepsCore])

theorem State.holdCtle_keeps (s : State) (l : LaneIx) :
    s.KeepsOuter (State.holdCtle s l) ∧ s.KeepsInner (State.holdCtle s l) ∧ s.KeepsCore (State.holdCtle s l) ∧
    (State.holdCtle s l).mem = s.mem ∧ (State.holdCtle s l).line = s.line ∧ (State.holdCtle s l).ports = s.ports ∧
    (State.holdCtle s l).cav = s.cav ∧ (State.holdCtle s l).geode = s.geode ∧ (State.holdCtle s l).freeCtr = s.freeCtr ∧
    (State.holdCtle s l).sent = s.sent := by
  unfold State.holdCtle
  (try dsimp only)
  (repeat' split) <;> simp [State.KeepsOuter, State.KeepsInner, State.KeepsCore]

theorem State.usePreset_keeps (s : State) (l : LaneIx) (preset : Nat) :
    s.KeepsOuter (State.usePreset s l preset) ∧ s.KeepsInner (State.usePreset s l preset) ∧ s.KeepsCore (State.usePreset s l preset) ∧
    (State.usePreset s l preset).mem = s.mem ∧ (State.usePreset s l preset).line = s.line ∧ (State.usePreset s l preset).ports = s.ports ∧
    (State.usePreset s l preset).cav = s.cav ∧ (State.usePreset s l preset).geode = s.geode ∧ (State.usePreset s l preset).sent = s.sent := by
  unfold State.usePreset
  (try dsimp only)
  (repeat' split) <;> simp [State.KeepsOuter, State.KeepsInner, State.KeepsCore]

theorem State.sendTrain_keeps (s : State) (l : LaneIx) :
    s.KeepsOuter (State.sendTrain s l) ∧ s.KeepsInner (State.sendTrain s l) ∧ s.KeepsCore (State.sendTrain s l) ∧
    (State.sendTrain s l).regs = s.regs ∧ (State.sendTrain s l).mem = s.mem ∧ (State.sendTrain s l).ports = s.ports ∧
    (State.sendTrain s l).cav = s.cav ∧ (State.sendTrain s l).geode = s.geode ∧ (State.sendTrain s l).freeCtr = s.freeCtr := by
  unfold State.sendTrain
  (try dsimp only)
  (repeat' split) <;> simp [State.KeepsOuter, State.KeepsInner, State.KeepsCore]

theorem State.sendAmk_keeps (s : State) (p : LinkPort) (scheduled : Bool) :
    s.KeepsOuter (State.sendAmk s p scheduled) ∧ s.KeepsInner (State.sendAmk s p scheduled) ∧ s.KeepsCore (State.sendAmk s p scheduled) ∧
    (State.sendAmk s p scheduled).regs = s.regs ∧ (State.sendAmk s p scheduled).mem = s.mem ∧ (State.sendAmk s p scheduled).cav = s.cav ∧
    (State.sendAmk s p scheduled).geode = s.geode ∧ (State.sendAmk s p scheduled).freeCtr = s.freeCtr := by
  unfold State.sendAmk
  (try dsimp only)
  (repeat' split) <;> simp [State.KeepsOuter, State.KeepsInner, State.KeepsCore]

theorem State.noteHealth_keeps (s : State) (p : LinkPort) :
    s.KeepsOuter (State.noteHealth s p) ∧ s.KeepsInner (State.noteHealth s p) ∧ (State.noteHealth s p).regs = s.regs ∧
    (State.noteHealth s p).mem = s.mem ∧ (State.noteHealth s p).beat = s.beat ∧ (State.noteHealth s p).line = s.line ∧
    (State.noteHealth s p).ports = s.ports ∧ (State.noteHealth s p).tun = s.tun ∧ (State.noteHealth s p).cav = s.cav ∧
    (State.noteHealth s p).sched = s.sched ∧ (State.noteHealth s p).eng = s.eng ∧ (State.noteHealth s p).geode = s.geode ∧
    (State.noteHealth s p).boot = s.boot ∧ (State.noteHealth s p).pwr = s.pwr ∧ (State.noteHealth s p).freeCtr = s.freeCtr ∧
    (State.noteHealth s p).sent = s.sent := by
  unfold State.noteHealth
  (try dsimp only)
  (repeat' split) <;> simp [State.KeepsOuter, State.KeepsInner, State.KeepsCore]

theorem State.sendAllCred_keeps (s : State) (p : LinkPort) :
    s.KeepsOuter (State.sendAllCred s p) ∧ s.KeepsInner (State.sendAllCred s p) ∧ s.KeepsCore (State.sendAllCred s p) ∧
    (State.sendAllCred s p).regs = s.regs ∧ (State.sendAllCred s p).mem = s.mem ∧ (State.sendAllCred s p).ports = s.ports ∧
    (State.sendAllCred s p).cav = s.cav ∧ (State.sendAllCred s p).geode = s.geode ∧ (State.sendAllCred s p).freeCtr = s.freeCtr := by
  unfold State.sendAllCred
  (try dsimp only)
  (repeat' split) <;> (have hk1 := @State.sendCred_keeps; simp [hk1, State.KeepsOuter, State.KeepsInner, State.KeepsCore])

theorem State.resetCredits_keeps (s : State) (p : LinkPort) :
    s.KeepsOuter (State.resetCredits s p) ∧ s.KeepsInner (State.resetCredits s p) ∧ s.KeepsCore (State.resetCredits s p) ∧
    (State.resetCredits s p).mem = s.mem ∧ (State.resetCredits s p).line = s.line ∧ (State.resetCredits s p).cav = s.cav ∧
    (State.resetCredits s p).geode = s.geode ∧ (State.resetCredits s p).freeCtr = s.freeCtr ∧ (State.resetCredits s p).sent = s.sent := by
  unfold State.resetCredits
  (try dsimp only)
  (repeat' split) <;> (have hk1 := @State.modCredit_keeps; simp [hk1, State.KeepsOuter, State.KeepsInner, State.KeepsCore])

theorem State.resyncTx_keeps (s : State) (p : LinkPort) :
    s.KeepsOuter (State.resyncTx s p) ∧ s.KeepsInner (State.resyncTx s p) ∧ s.KeepsCore (State.resyncTx s p) ∧
    (State.resyncTx s p).mem = s.mem ∧ (State.resyncTx s p).line = s.line ∧ (State.resyncTx s p).cav = s.cav ∧
    (State.resyncTx s p).geode = s.geode ∧ (State.resyncTx s p).freeCtr = s.freeCtr ∧ (State.resyncTx s p).sent = s.sent := by
  unfold State.resyncTx
  (try dsimp only)
  (repeat' split) <;> (have hk1 := @State.modCredit_keeps; simp [hk1, State.KeepsOuter, State.KeepsInner, State.KeepsCore])

theorem State.resyncRx_keeps (s : State) (p : LinkPort) :
    s.KeepsOuter (State.resyncRx s p) ∧ s.KeepsInner (State.resyncRx s p) ∧ s.KeepsCore (State.resyncRx s p) ∧
    (State.resyncRx s p).mem = s.mem ∧ (State.resyncRx s p).cav = s.cav ∧ (State.resyncRx s p).geode = s.geode ∧
    (State.resyncRx s p).freeCtr = s.freeCtr := by
  unfold State.resyncRx
  (try dsimp only)
  (repeat' split) <;> (have hk1 := @State.modCredit_keeps; have hk2 := @State.sendAllCred_keeps; simp [hk1, hk2, State.KeepsOuter, State.KeepsInner, State.KeepsCore])

theorem State.countTrunk_keeps (s : State) (p : LinkPort) (r : Nat → Nat) :
    s.KeepsOuter (State.countTrunk s p r) ∧ s.KeepsInner (State.countTrunk s p r) ∧ s.KeepsCore (State.countTrunk s p r) ∧
    (State.countTrunk s p r).mem = s.mem ∧ (State.countTrunk s p r).line = s.line ∧ (State.countTrunk s p r).ports = s.ports ∧
    (State.countTrunk s p r).cav = s.cav ∧ (State.countTrunk s p r).geode = s.geode ∧ (State.countTrunk s p r).freeCtr = s.freeCtr ∧
    (State.countTrunk s p r).sent = s.sent := by
  unfold State.countTrunk
  (try dsimp only)
  (repeat' split) <;> simp [State.KeepsOuter, State.KeepsInner, State.KeepsCore]

theorem State.countFraming_keeps (s : State) (p : LinkPort) :
    s.KeepsOuter (State.countFraming s p) ∧ s.KeepsInner (State.countFraming s p) ∧ s.KeepsCore (State.countFraming s p) ∧
    (State.countFraming s p).mem = s.mem ∧ (State.countFraming s p).line = s.line ∧ (State.countFraming s p).ports = s.ports ∧
    (State.countFraming s p).cav = s.cav ∧ (State.countFraming s p).geode = s.geode ∧ (State.countFraming s p).freeCtr = s.freeCtr ∧
    (State.countFraming s p).sent = s.sent := by
  unfold State.countFraming
  (try dsimp only)
  (repeat' split) <;> simp [State.KeepsOuter, State.KeepsInner, State.KeepsCore]

theorem State.abortFrame_keeps (s : State) (id : Nat) :
    s.KeepsOuter (State.abortFrame s id) ∧ s.KeepsInner (State.abortFrame s id) ∧ s.KeepsCore (State.abortFrame s id) ∧
    (State.abortFrame s id).mem = s.mem ∧ (State.abortFrame s id).ports = s.ports ∧ (State.abortFrame s id).geode = s.geode ∧
    (State.abortFrame s id).freeCtr = s.freeCtr := by
  unfold State.abortFrame
  (try dsimp only)
  (repeat' split) <;> (have hk1 := @State.dropRef_keeps; have hk2 := @State.release_keeps; simp [hk1, hk2, State.KeepsOuter, State.KeepsInner, State.KeepsCore])

theorem State.abortCut_keeps (s : State) (n : LocalPort) :
    s.KeepsOuter (State.abortCut s n) ∧ s.KeepsInner (State.abortCut s n) ∧ s.KeepsCore (State.abortCut s n) ∧
    (State.abortCut s n).mem = s.mem ∧ (State.abortCut s n).ports = s.ports ∧ (State.abortCut s n).geode = s.geode ∧
    (State.abortCut s n).freeCtr = s.freeCtr := by
  unfold State.abortCut
  (try dsimp only)
  (repeat' split) <;> (have hk1 := @State.abortFrame_keeps; simp [hk1, State.KeepsOuter, State.KeepsInner, State.KeepsCore])

theorem State.emptyFrame_keeps (s : State) (p : LinkPort) :
    s.KeepsOuter (State.emptyFrame s p) ∧ s.KeepsInner (State.emptyFrame s p) ∧ s.KeepsCore (State.emptyFrame s p) ∧
    (State.emptyFrame s p).regs = s.regs ∧ (State.emptyFrame s p).mem = s.mem ∧ (State.emptyFrame s p).ports = s.ports ∧
    (State.emptyFrame s p).cav = s.cav ∧ (State.emptyFrame s p).geode = s.geode ∧ (State.emptyFrame s p).freeCtr = s.freeCtr ∧
    (State.emptyFrame s p).sent = s.sent := by
  unfold State.emptyFrame
  (try dsimp only)
  (repeat' split) <;> simp [State.KeepsOuter, State.KeepsInner, State.KeepsCore]

theorem State.dropPartial_keeps (s : State) (p : LinkPort) :
    s.KeepsOuter (State.dropPartial s p) ∧ s.KeepsInner (State.dropPartial s p) ∧ s.KeepsCore (State.dropPartial s p) ∧
    (State.dropPartial s p).mem = s.mem ∧ (State.dropPartial s p).geode = s.geode ∧ (State.dropPartial s p).freeCtr = s.freeCtr := by
  unfold State.dropPartial
  (try dsimp only)
  (repeat' split) <;> (have hk1 := @State.abortCut_keeps; have hk2 := @State.countFraming_keeps; have hk3 := @State.emptyFrame_keeps; simp [hk1, hk2, hk3, State.KeepsOuter, State.KeepsInner, State.KeepsCore])

theorem State.dropOn_keeps (s : State) (p : LinkPort) (i : Nat) :
    s.KeepsOuter (State.dropOn s p i) ∧ s.KeepsInner (State.dropOn s p i) ∧ s.KeepsCore (State.dropOn s p i) ∧
    (State.dropOn s p i).mem = s.mem ∧ (State.dropOn s p i).geode = s.geode ∧ (State.dropOn s p i).freeCtr = s.freeCtr := by
  unfold State.dropOn
  (try dsimp only)
  (repeat' split) <;> (have hk1 := @State.dropPartial_keeps; simp [hk1, State.KeepsOuter, State.KeepsInner, State.KeepsCore])

theorem State.restripe_keeps (s : State) (p : LinkPort) :
    s.KeepsOuter (State.restripe s p) ∧ s.KeepsInner (State.restripe s p) ∧ s.KeepsCore (State.restripe s p) ∧
    (State.restripe s p).regs = s.regs ∧ (State.restripe s p).mem = s.mem ∧ (State.restripe s p).ports = s.ports ∧
    (State.restripe s p).cav = s.cav ∧ (State.restripe s p).geode = s.geode ∧ (State.restripe s p).freeCtr = s.freeCtr ∧
    (State.restripe s p).sent = s.sent := by
  unfold State.restripe
  (try dsimp only)
  (repeat' split) <;> simp [State.KeepsOuter, State.KeepsInner, State.KeepsCore]

theorem State.abandonTx_keeps (s : State) (p : LinkPort) :
    s.KeepsOuter (State.abandonTx s p) ∧ s.KeepsInner (State.abandonTx s p) ∧ s.KeepsCore (State.abandonTx s p) ∧
    (State.abandonTx s p).mem = s.mem ∧ (State.abandonTx s p).line = s.line ∧ (State.abandonTx s p).ports = s.ports ∧
    (State.abandonTx s p).geode = s.geode ∧ (State.abandonTx s p).sent = s.sent := by
  unfold State.abandonTx
  (try dsimp only)
  (repeat' split) <;> (have hk1 := @State.countTrunk_keeps; have hk2 := @State.release_keeps; simp [hk1, hk2, State.KeepsOuter, State.KeepsInner, State.KeepsCore])

theorem State.clearTraining_keeps (s : State) (p : LinkPort) :
    s.KeepsOuter (State.clearTraining s p) ∧ s.KeepsInner (State.clearTraining s p) ∧ (State.clearTraining s p).regs = s.regs ∧
    (State.clearTraining s p).mem = s.mem ∧ (State.clearTraining s p).beat = s.beat ∧ (State.clearTraining s p).line = s.line ∧
    (State.clearTraining s p).ports = s.ports ∧ (State.clearTraining s p).tun = s.tun ∧ (State.clearTraining s p).cav = s.cav ∧
    (State.clearTraining s p).sched = s.sched ∧ (State.clearTraining s p).eng = s.eng ∧ (State.clearTraining s p).geode = s.geode ∧
    (State.clearTraining s p).boot = s.boot ∧ (State.clearTraining s p).pwr = s.pwr ∧ (State.clearTraining s p).freeCtr = s.freeCtr ∧
    (State.clearTraining s p).sent = s.sent := by
  unfold State.clearTraining
  (try dsimp only)
  (repeat' split) <;> simp [State.KeepsOuter, State.KeepsInner, State.KeepsCore]

theorem State.linkLoss_keeps (s : State) (p : LinkPort) :
    s.KeepsOuter (State.linkLoss s p) ∧ s.KeepsInner (State.linkLoss s p) ∧ s.KeepsCore (State.linkLoss s p) ∧
    (State.linkLoss s p).mem = s.mem ∧ (State.linkLoss s p).geode = s.geode := by
  unfold State.linkLoss
  (try dsimp only)
  (repeat' split) <;> (have hk1 := @State.localDown_keeps; have hk2 := @State.lossQueues_keeps; have hk3 := @State.settle_keeps; simp [hk1, hk2, hk3, State.KeepsOuter, State.KeepsInner, State.KeepsCore])

theorem State.portDown_keeps (s : State) (p : LinkPort) :
    s.KeepsOuter (State.portDown s p) ∧ s.KeepsInner (State.portDown s p) ∧ (State.portDown s p).mem = s.mem ∧
    (State.portDown s p).beat = s.beat ∧ (State.portDown s p).tun = s.tun ∧ (State.portDown s p).sched = s.sched ∧
    (State.portDown s p).eng = s.eng ∧ (State.portDown s p).boot = s.boot ∧ (State.portDown s p).pwr = s.pwr := by
  unfold State.portDown
  (try dsimp only)
  (repeat' split) <;> (have hk1 := @State.abortCut_keeps; have hk2 := @State.dropPartial_keeps; have hk3 := @State.linkLoss_keeps; have hk4 := @State.modAgent_keeps; simp [hk1, hk2, hk3, hk4, State.KeepsOuter, State.KeepsInner, State.KeepsCore])

theorem State.toStage_keeps (s : State) (p : LinkPort) (st : Stage) :
    s.KeepsOuter (State.toStage s p st) ∧ s.KeepsInner (State.toStage s p st) ∧ s.KeepsCore (State.toStage s p st) ∧
    (State.toStage s p st).regs = s.regs ∧ (State.toStage s p st).mem = s.mem ∧ (State.toStage s p st).line = s.line ∧
    (State.toStage s p st).cav = s.cav ∧ (State.toStage s p st).geode = s.geode ∧ (State.toStage s p st).freeCtr = s.freeCtr ∧
    (State.toStage s p st).sent = s.sent := by
  unfold State.toStage
  (try dsimp only)
  (repeat' split) <;> simp [State.KeepsOuter, State.KeepsInner, State.KeepsCore]

theorem State.evalWidth_keeps (s : State) (p : LinkPort) :
    s.KeepsOuter (State.evalWidth s p) ∧ s.KeepsInner (State.evalWidth s p) ∧ (State.evalWidth s p).mem = s.mem ∧
    (State.evalWidth s p).beat = s.beat ∧ (State.evalWidth s p).tun = s.tun ∧ (State.evalWidth s p).sched = s.sched ∧
    (State.evalWidth s p).eng = s.eng ∧ (State.evalWidth s p).boot = s.boot ∧ (State.evalWidth s p).pwr = s.pwr := by
  unfold State.evalWidth
  (try dsimp only)
  (repeat' split) <;> (have hk1 := @State.countTrunk_keeps; have hk2 := @State.portDown_keeps; have hk3 := @State.reservesInForce_keeps; have hk4 := @State.toStage_keeps; simp [hk1, hk2, hk3, hk4, State.KeepsOuter, State.KeepsInner, State.KeepsCore])

theorem State.txDrop_keeps (s : State) (p : LinkPort) :
    s.KeepsOuter (State.txDrop s p) ∧ s.KeepsInner (State.txDrop s p) ∧ (State.txDrop s p).mem = s.mem ∧ (State.txDrop s p).beat = s.beat ∧
    (State.txDrop s p).tun = s.tun ∧ (State.txDrop s p).sched = s.sched ∧ (State.txDrop s p).eng = s.eng ∧
    (State.txDrop s p).boot = s.boot ∧ (State.txDrop s p).pwr = s.pwr := by
  unfold State.txDrop
  (try dsimp only)
  (repeat' split) <;> (have hk1 := @State.abandonTx_keeps; have hk2 := @State.evalWidth_keeps; have hk3 := @State.resyncTx_keeps; have hk4 := @State.sendAmk_keeps; simp [hk1, hk2, hk3, hk4, State.KeepsOuter, State.KeepsInner, State.KeepsCore])

theorem State.rxFault_keeps (s : State) (p : LinkPort) (i : Nat) :
    s.KeepsOuter (State.rxFault s p i) ∧ s.KeepsInner (State.rxFault s p i) ∧ (State.rxFault s p i).mem = s.mem ∧
    (State.rxFault s p i).beat = s.beat ∧ (State.rxFault s p i).tun = s.tun ∧ (State.rxFault s p i).sched = s.sched ∧
    (State.rxFault s p i).eng = s.eng ∧ (State.rxFault s p i).boot = s.boot ∧ (State.rxFault s p i).pwr = s.pwr := by
  unfold State.rxFault
  (try dsimp only)
  (repeat' split) <;> (have hk1 := @State.evalWidth_keeps; simp [hk1, State.KeepsOuter, State.KeepsInner, State.KeepsCore])

theorem State.ethDown_keeps (s : State) (p : LinkPort) :
    s.KeepsOuter (State.ethDown s p) ∧ s.KeepsInner (State.ethDown s p) ∧ s.KeepsCore (State.ethDown s p) ∧
    (State.ethDown s p).mem = s.mem ∧ (State.ethDown s p).geode = s.geode ∧ (State.ethDown s p).freeCtr = s.freeCtr := by
  unfold State.ethDown
  (try dsimp only)
  (repeat' split) <;> (have hk1 := @State.abortCut_keeps; have hk2 := @State.localDown_keeps; simp [hk1, hk2, State.KeepsOuter, State.KeepsInner, State.KeepsCore])

theorem State.laneLost_keeps (s : State) (l : LaneIx) :
    s.KeepsOuter (State.laneLost s l) ∧ s.KeepsInner (State.laneLost s l) ∧ (State.laneLost s l).mem = s.mem ∧
    (State.laneLost s l).beat = s.beat ∧ (State.laneLost s l).tun = s.tun ∧ (State.laneLost s l).sched = s.sched ∧
    (State.laneLost s l).eng = s.eng ∧ (State.laneLost s l).boot = s.boot ∧ (State.laneLost s l).pwr = s.pwr := by
  unfold State.laneLost
  (try dsimp only)
  (repeat' split) <;> (have hk1 := @State.dropOn_keeps; have hk2 := @State.ethDown_keeps; have hk3 := @State.rxFault_keeps; simp [hk1, hk2, hk3, State.KeepsOuter, State.KeepsInner, State.KeepsCore])

theorem State.sendCap_keeps (s : State) (p : LinkPort) :
    s.KeepsOuter (State.sendCap s p) ∧ s.KeepsInner (State.sendCap s p) ∧ s.KeepsCore (State.sendCap s p) ∧
    (State.sendCap s p).regs = s.regs ∧ (State.sendCap s p).mem = s.mem ∧ (State.sendCap s p).ports = s.ports ∧
    (State.sendCap s p).cav = s.cav ∧ (State.sendCap s p).geode = s.geode ∧ (State.sendCap s p).freeCtr = s.freeCtr := by
  unfold State.sendCap
  (try dsimp only)
  (repeat' split) <;> simp [State.KeepsOuter, State.KeepsInner, State.KeepsCore]

theorem State.enterLock_keeps (s : State) (p : LinkPort) :
    s.KeepsOuter (State.enterLock s p) ∧ s.KeepsInner (State.enterLock s p) ∧ s.KeepsCore (State.enterLock s p) ∧
    (State.enterLock s p).regs = s.regs ∧ (State.enterLock s p).mem = s.mem ∧ (State.enterLock s p).line = s.line ∧
    (State.enterLock s p).cav = s.cav ∧ (State.enterLock s p).geode = s.geode ∧ (State.enterLock s p).freeCtr = s.freeCtr ∧
    (State.enterLock s p).sent = s.sent := by
  unfold State.enterLock
  (try dsimp only)
  (repeat' split) <;> (have hk1 := @State.toStage_keeps; simp [hk1, State.KeepsOuter, State.KeepsInner, State.KeepsCore])

theorem State.enterCapx_keeps (s : State) (p : LinkPort) (lanes : BitVec 4) :
    s.KeepsOuter (State.enterCapx s p lanes) ∧ s.KeepsInner (State.enterCapx s p lanes) ∧ s.KeepsCore (State.enterCapx s p lanes) ∧
    (State.enterCapx s p lanes).regs = s.regs ∧ (State.enterCapx s p lanes).mem = s.mem ∧ (State.enterCapx s p lanes).cav = s.cav ∧
    (State.enterCapx s p lanes).geode = s.geode ∧ (State.enterCapx s p lanes).freeCtr = s.freeCtr := by
  unfold State.enterCapx
  (try dsimp only)
  (repeat' split) <;> (have hk1 := @State.sendCap_keeps; have hk2 := @State.toStage_keeps; simp [hk1, hk2, State.KeepsOuter, State.KeepsInner, State.KeepsCore])

end Sys2Proof.Machine
end

