-- ==== Sys2Proof/Laws/KeepsBeat.lean ====
section
/-! SUPPORT. Laws/KeepsBeat.lean: what the operations of Machine/BeatOps, EchoOps, Police and TwinOps leave as it is. They are no simp lemmas: a proof
takes those it needs as hypotheses, `have hk := @State.foo_keeps; simp [hk]`, which makes no auxiliary theorem. -/

set_option linter.all false

namespace Sys2Proof.Machine

open Sys2Proof

theorem State.copyRegs_keeps (s : State) (dst : Nat → Nat) (src : Nat → Nat) (n : Nat) :
    s.KeepsOuter (State.copyRegs s dst src n) ∧ s.KeepsInner (State.copyRegs s dst src n) ∧ s.KeepsCore (State.copyRegs s dst src n) ∧
    (State.copyRegs s dst src n).mem = s.mem ∧ (State.copyRegs s dst src n).line = s.line ∧ (State.copyRegs s dst src n).ports = s.ports ∧
    (State.copyRegs s dst src n).cav = s.cav ∧ (State.copyRegs s dst src n).geode = s.geode ∧
    (State.copyRegs s dst src n).freeCtr = s.freeCtr ∧ (State.copyRegs s dst src n).sent = s.sent := by
  unfold State.copyRegs
  (try dsimp only)
  (repeat' split) <;> simp [State.KeepsOuter, State.KeepsInner, State.KeepsCore]

theorem State.copyGroup_keeps (s : State) (g : Nat) :
    s.KeepsOuter (State.copyGroup s g) ∧ s.KeepsInner (State.copyGroup s g) ∧ s.KeepsCore (State.copyGroup s g) ∧
    (State.copyGroup s g).mem = s.mem ∧ (State.copyGroup s g).line = s.line ∧ (State.copyGroup s g).ports = s.ports ∧
    (State.copyGroup s g).cav = s.cav ∧ (State.copyGroup s g).geode = s.geode ∧ (State.copyGroup s g).freeCtr = s.freeCtr ∧
    (State.copyGroup s g).sent = s.sent := by
  unfold State.copyGroup
  (try dsimp only)
  (repeat' split) <;> simp [State.KeepsOuter, State.KeepsInner, State.KeepsCore]

theorem State.takeGates_keeps (s : State) (p : EgressPort) (anchor : Nat) :
    s.KeepsOuter (State.takeGates s p anchor) ∧ s.KeepsInner (State.takeGates s p anchor) ∧ (State.takeGates s p anchor).mem = s.mem ∧
    (State.takeGates s p anchor).beat = s.beat ∧ (State.takeGates s p anchor).lanes = s.lanes ∧
    (State.takeGates s p anchor).line = s.line ∧ (State.takeGates s p anchor).ports = s.ports ∧ (State.takeGates s p anchor).tun = s.tun ∧
    (State.takeGates s p anchor).cav = s.cav ∧ (State.takeGates s p anchor).eng = s.eng ∧ (State.takeGates s p anchor).geode = s.geode ∧
    (State.takeGates s p anchor).boot = s.boot ∧ (State.takeGates s p anchor).pwr = s.pwr ∧
    (State.takeGates s p anchor).freeCtr = s.freeCtr ∧ (State.takeGates s p anchor).sent = s.sent := by
  unfold State.takeGates
  (try dsimp only)
  (repeat' split) <;> (have hk1 := @State.copyGroup_keeps; simp [hk1, State.KeepsOuter, State.KeepsInner, State.KeepsCore])

theorem State.resetClass_keeps (s : State) (p : Nat) (c : Nat) :
    s.KeepsOuter (State.resetClass s p c) ∧ s.KeepsInner (State.resetClass s p c) ∧ s.KeepsCore (State.resetClass s p c) ∧
    (State.resetClass s p c).mem = s.mem ∧ (State.resetClass s p c).line = s.line ∧ (State.resetClass s p c).ports = s.ports ∧
    (State.resetClass s p c).cav = s.cav ∧ (State.resetClass s p c).geode = s.geode ∧ (State.resetClass s p c).freeCtr = s.freeCtr ∧
    (State.resetClass s p c).sent = s.sent := by
  unfold State.resetClass
  (try dsimp only)
  (repeat' split) <;> simp [State.KeepsOuter, State.KeepsInner, State.KeepsCore]

theorem State.takeShapers_keeps (s : State) (p : Nat) :
    s.KeepsOuter (State.takeShapers s p) ∧ s.KeepsInner (State.takeShapers s p) ∧ s.KeepsCore (State.takeShapers s p) ∧
    (State.takeShapers s p).mem = s.mem ∧ (State.takeShapers s p).line = s.line ∧ (State.takeShapers s p).ports = s.ports ∧
    (State.takeShapers s p).cav = s.cav ∧ (State.takeShapers s p).geode = s.geode ∧ (State.takeShapers s p).freeCtr = s.freeCtr ∧
    (State.takeShapers s p).sent = s.sent := by
  unfold State.takeShapers
  (try dsimp only)
  (repeat' split) <;> (have hk1 := @State.copyGroup_keeps; have hk2 := @State.resetClass_keeps; simp [hk1, hk2, State.KeepsOuter, State.KeepsInner, State.KeepsCore])

theorem State.laneScratch_keeps (s : State) (l : LaneIx) :
    s.KeepsOuter (State.laneScratch s l) ∧ s.KeepsInner (State.laneScratch s l) ∧ (State.laneScratch s l).mem = s.mem ∧
    (State.laneScratch s l).beat = s.beat ∧ (State.laneScratch s l).line = s.line ∧ (State.laneScratch s l).ports = s.ports ∧
    (State.laneScratch s l).tun = s.tun ∧ (State.laneScratch s l).cav = s.cav ∧ (State.laneScratch s l).sched = s.sched ∧
    (State.laneScratch s l).eng = s.eng ∧ (State.laneScratch s l).geode = s.geode ∧ (State.laneScratch s l).boot = s.boot ∧
    (State.laneScratch s l).pwr = s.pwr ∧ (State.laneScratch s l).freeCtr = s.freeCtr ∧ (State.laneScratch s l).sent = s.sent := by
  unfold State.laneScratch
  (try dsimp only)
  (repeat' split) <;> (have hk1 := @State.holdCtle_keeps; simp [hk1, State.KeepsOuter, State.KeepsInner, State.KeepsCore])

theorem State.takeMode_keeps (s : State) (n : LocalPort) :
    s.KeepsOuter (State.takeMode s n) ∧ s.KeepsInner (State.takeMode s n) ∧ (State.takeMode s n).mem = s.mem ∧
    (State.takeMode s n).beat = s.beat ∧ (State.takeMode s n).tun = s.tun ∧ (State.takeMode s n).sched = s.sched ∧
    (State.takeMode s n).eng = s.eng ∧ (State.takeMode s n).boot = s.boot ∧ (State.takeMode s n).pwr = s.pwr := by
  unfold State.takeMode
  (try dsimp only)
  (repeat' split) <;> (have hk1 := @State.laneScratch_keeps; have hk2 := @State.portDown_keeps; have hk3 := @State.usePreset_keeps; simp [hk1, hk2, hk3, State.KeepsOuter, State.KeepsInner, State.KeepsCore])

theorem State.evalBond_keeps (s : State) :
    s.KeepsOuter (State.evalBond s) ∧ s.KeepsInner (State.evalBond s) ∧ (State.evalBond s).mem = s.mem ∧ (State.evalBond s).beat = s.beat ∧
    (State.evalBond s).tun = s.tun ∧ (State.evalBond s).sched = s.sched ∧ (State.evalBond s).eng = s.eng ∧
    (State.evalBond s).boot = s.boot ∧ (State.evalBond s).pwr = s.pwr := by
  unfold State.evalBond
  (try dsimp only)
  (repeat' split) <;> (have hk1 := @State.portDown_keeps; have hk2 := @State.takeMode_keeps; simp [hk1, hk2, State.KeepsOuter, State.KeepsInner, State.KeepsCore])

theorem State.evalMode_keeps (s : State) (n : LocalPort) :
    s.KeepsOuter (State.evalMode s n) ∧ s.KeepsInner (State.evalMode s n) ∧ (State.evalMode s n).mem = s.mem ∧
    (State.evalMode s n).beat = s.beat ∧ (State.evalMode s n).tun = s.tun ∧ (State.evalMode s n).sched = s.sched ∧
    (State.evalMode s n).eng = s.eng ∧ (State.evalMode s n).boot = s.boot ∧ (State.evalMode s n).pwr = s.pwr := by
  unfold State.evalMode
  (try dsimp only)
  (repeat' split) <;> (have hk1 := @State.evalBond_keeps; have hk2 := @State.takeMode_keeps; simp [hk1, hk2, State.KeepsOuter, State.KeepsInner, State.KeepsCore])

theorem State.pairWritten_keeps (s : State) (q : QueueIx) :
    s.KeepsOuter (State.pairWritten s q) ∧ s.KeepsInner (State.pairWritten s q) ∧ s.KeepsCore (State.pairWritten s q) ∧
    (State.pairWritten s q).regs = s.regs ∧ (State.pairWritten s q).mem = s.mem ∧ (State.pairWritten s q).line = s.line ∧
    (State.pairWritten s q).ports = s.ports ∧ (State.pairWritten s q).geode = s.geode ∧ (State.pairWritten s q).freeCtr = s.freeCtr ∧
    (State.pairWritten s q).sent = s.sent := by
  unfold State.pairWritten
  (try dsimp only)
  (repeat' split) <;> (have hk1 := @State.modQueue_keeps; simp [hk1, State.KeepsOuter, State.KeepsInner, State.KeepsCore])

theorem State.evaluate_keeps (s : State) (a : Nat) :
    s.KeepsOuter (State.evaluate s a) ∧ s.KeepsInner (State.evaluate s a) ∧ (State.evaluate s a).mem = s.mem ∧
    (State.evaluate s a).beat = s.beat ∧ (State.evaluate s a).tun = s.tun ∧ (State.evaluate s a).sched = s.sched ∧
    (State.evaluate s a).eng = s.eng ∧ (State.evaluate s a).boot = s.boot ∧ (State.evaluate s a).pwr = s.pwr := by
  unfold State.evaluate
  (try dsimp only)
  (repeat' split) <;> (have hk1 := @State.evalBond_keeps; have hk2 := @State.evalMode_keeps; have hk3 := @State.pairWritten_keeps; have hk4 := @State.takeReserves_keeps; simp [hk1, hk2, hk3, hk4, State.KeepsOuter, State.KeepsInner, State.KeepsCore])

theorem State.redetect_keeps (s : State) (p : LinkPort) :
    s.KeepsOuter (State.redetect s p) ∧ s.KeepsInner (State.redetect s p) ∧ s.KeepsCore (State.redetect s p) ∧
    (State.redetect s p).regs = s.regs ∧ (State.redetect s p).mem = s.mem ∧ (State.redetect s p).cav = s.cav ∧
    (State.redetect s p).geode = s.geode ∧ (State.redetect s p).freeCtr = s.freeCtr := by
  unfold State.redetect
  (try dsimp only)
  (repeat' split) <;> (have hk1 := @State.toStage_keeps; simp [hk1, State.KeepsOuter, State.KeepsInner, State.KeepsCore])

theorem State.restartLane_keeps (s : State) (l : LaneIx) :
    s.KeepsOuter (State.restartLane s l) ∧ s.KeepsInner (State.restartLane s l) ∧ (State.restartLane s l).mem = s.mem ∧
    (State.restartLane s l).beat = s.beat ∧ (State.restartLane s l).tun = s.tun ∧ (State.restartLane s l).sched = s.sched ∧
    (State.restartLane s l).eng = s.eng ∧ (State.restartLane s l).boot = s.boot ∧ (State.restartLane s l).pwr = s.pwr := by
  unfold State.restartLane
  (try dsimp only)
  (repeat' split) <;> (have hk1 := @State.dropOn_keeps; have hk2 := @State.ethDown_keeps; have hk3 := @State.laneScratch_keeps; have hk4 := @State.redetect_keeps; have hk5 := @State.rxFault_keeps; have hk6 := @State.txDrop_keeps; have hk7 := @State.usePreset_keeps; simp [hk1, hk2, hk3, hk4, hk5, hk6, hk7, State.KeepsOuter, State.KeepsInner, State.KeepsCore])

theorem State.takeLane_keeps (s : State) (l : LaneIx) :
    s.KeepsOuter (State.takeLane s l) ∧ s.KeepsInner (State.takeLane s l) ∧ (State.takeLane s l).mem = s.mem ∧
    (State.takeLane s l).beat = s.beat ∧ (State.takeLane s l).tun = s.tun ∧ (State.takeLane s l).sched = s.sched ∧
    (State.takeLane s l).eng = s.eng ∧ (State.takeLane s l).boot = s.boot ∧ (State.takeLane s l).pwr = s.pwr := by
  unfold State.takeLane
  (try dsimp only)
  (repeat' split) <;> (have hk1 := @State.evalMode_keeps; have hk2 := @State.restartLane_keeps; simp [hk1, hk2, State.KeepsOuter, State.KeepsInner, State.KeepsCore])

theorem State.applyGroup_keeps (s : State) (g : Nat) (anchor : Nat) :
    s.KeepsOuter (State.applyGroup s g anchor) ∧ s.KeepsInner (State.applyGroup s g anchor) ∧ (State.applyGroup s g anchor).mem = s.mem ∧
    (State.applyGroup s g anchor).beat = s.beat ∧ (State.applyGroup s g anchor).tun = s.tun ∧ (State.applyGroup s g anchor).eng = s.eng ∧
    (State.applyGroup s g anchor).boot = s.boot ∧ (State.applyGroup s g anchor).pwr = s.pwr := by
  unfold State.applyGroup
  (try dsimp only)
  (repeat' split) <;> (have hk1 := @State.copyGroup_keeps; have hk2 := @State.takeGates_keeps; have hk3 := @State.takeLane_keeps; have hk4 := @State.takeShapers_keeps; simp [hk1, hk2, hk3, hk4, State.KeepsOuter, State.KeepsInner, State.KeepsCore])

theorem State.commitResult_keeps (s : State) (m : Master) (g : Nat) (code : Nat) :
    s.KeepsOuter (State.commitResult s m g code) ∧ s.KeepsInner (State.commitResult s m g code) ∧
    s.KeepsCore (State.commitResult s m g code) ∧ (State.commitResult s m g code).mem = s.mem ∧
    (State.commitResult s m g code).line = s.line ∧ (State.commitResult s m g code).ports = s.ports ∧
    (State.commitResult s m g code).cav = s.cav ∧ (State.commitResult s m g code).geode = s.geode ∧
    (State.commitResult s m g code).freeCtr = s.freeCtr ∧ (State.commitResult s m g code).sent = s.sent := by
  unfold State.commitResult
  (try dsimp only)
  (repeat' split) <;> simp [State.KeepsOuter, State.KeepsInner, State.KeepsCore]

theorem State.commitAt_keeps (s : State) (m : Master) (g : Nat) (target : Nat) :
    s.KeepsOuter (State.commitAt s m g target) ∧ s.KeepsInner (State.commitAt s m g target) ∧ (State.commitAt s m g target).mem = s.mem ∧
    (State.commitAt s m g target).lanes = s.lanes ∧ (State.commitAt s m g target).line = s.line ∧
    (State.commitAt s m g target).ports = s.ports ∧ (State.commitAt s m g target).tun = s.tun ∧ (State.commitAt s m g target).cav = s.cav ∧
    (State.commitAt s m g target).sched = s.sched ∧ (State.commitAt s m g target).eng = s.eng ∧
    (State.commitAt s m g target).geode = s.geode ∧ (State.commitAt s m g target).boot = s.boot ∧
    (State.commitAt s m g target).pwr = s.pwr ∧ (State.commitAt s m g target).freeCtr = s.freeCtr ∧
    (State.commitAt s m g target).sent = s.sent := by
  unfold State.commitAt
  (try dsimp only)
  (repeat' split) <;> (have hk1 := @State.commitResult_keeps; simp [hk1, State.KeepsOuter, State.KeepsInner, State.KeepsCore])

theorem State.cancelGroup_keeps (s : State) (m : Master) (g : Nat) :
    s.KeepsOuter (State.cancelGroup s m g) ∧ s.KeepsInner (State.cancelGroup s m g) ∧ (State.cancelGroup s m g).mem = s.mem ∧
    (State.cancelGroup s m g).lanes = s.lanes ∧ (State.cancelGroup s m g).line = s.line ∧ (State.cancelGroup s m g).ports = s.ports ∧
    (State.cancelGroup s m g).tun = s.tun ∧ (State.cancelGroup s m g).cav = s.cav ∧ (State.cancelGroup s m g).sched = s.sched ∧
    (State.cancelGroup s m g).eng = s.eng ∧ (State.cancelGroup s m g).geode = s.geode ∧ (State.cancelGroup s m g).boot = s.boot ∧
    (State.cancelGroup s m g).pwr = s.pwr ∧ (State.cancelGroup s m g).freeCtr = s.freeCtr ∧ (State.cancelGroup s m g).sent = s.sent := by
  unfold State.cancelGroup
  (try dsimp only)
  (repeat' split) <;> (have hk1 := @State.commitResult_keeps; simp [hk1, State.KeepsOuter, State.KeepsInner, State.KeepsCore])

theorem State.commitCommand_keeps (s : State) (m : Master) (w : Word) :
    s.KeepsOuter (State.commitCommand s m w) ∧ s.KeepsInner (State.commitCommand s m w) ∧ (State.commitCommand s m w).mem = s.mem ∧
    (State.commitCommand s m w).lanes = s.lanes ∧ (State.commitCommand s m w).line = s.line ∧ (State.commitCommand s m w).ports = s.ports ∧
    (State.commitCommand s m w).tun = s.tun ∧ (State.commitCommand s m w).cav = s.cav ∧ (State.commitCommand s m w).sched = s.sched ∧
    (State.commitCommand s m w).eng = s.eng ∧ (State.commitCommand s m w).geode = s.geode ∧ (State.commitCommand s m w).boot = s.boot ∧
    (State.commitCommand s m w).pwr = s.pwr ∧ (State.commitCommand s m w).freeCtr = s.freeCtr ∧ (State.commitCommand s m w).sent = s.sent := by
  unfold State.commitCommand
  (try dsimp only)
  (repeat' split) <;> (have hk1 := @State.cancelGroup_keeps; have hk2 := @State.commitAt_keeps; have hk3 := @State.commitResult_keeps; simp [hk1, hk2, hk3, State.KeepsOuter, State.KeepsInner, State.KeepsCore])

theorem State.applyDue_keeps (s : State) :
    s.KeepsOuter (State.applyDue s) ∧ s.KeepsInner (State.applyDue s) ∧ (State.applyDue s).mem = s.mem ∧ (State.applyDue s).tun = s.tun ∧
    (State.applyDue s).eng = s.eng ∧ (State.applyDue s).boot = s.boot ∧ (State.applyDue s).pwr = s.pwr := by
  unfold State.applyDue
  (try dsimp only)
  (repeat' split) <;> (have hk1 := @State.applyGroup_keeps; simp [hk1, State.KeepsOuter, State.KeepsInner, State.KeepsCore])

theorem State.applyShadow_keeps (s : State) (g : Nat) :
    s.KeepsOuter (State.applyShadow s g) ∧ s.KeepsInner (State.applyShadow s g) ∧ (State.applyShadow s g).mem = s.mem ∧
    (State.applyShadow s g).beat = s.beat ∧ (State.applyShadow s g).tun = s.tun ∧ (State.applyShadow s g).eng = s.eng ∧
    (State.applyShadow s g).boot = s.boot ∧ (State.applyShadow s g).pwr = s.pwr := by
  unfold State.applyShadow
  (try dsimp only)
  (repeat' split) <;> (have hk1 := @State.applyGroup_keeps; simp [hk1, State.KeepsOuter, State.KeepsInner, State.KeepsCore])

theorem State.applyFirst_keeps (s : State) :
    s.KeepsOuter (State.applyFirst s) ∧ s.KeepsInner (State.applyFirst s) ∧ (State.applyFirst s).mem = s.mem ∧
    (State.applyFirst s).tun = s.tun ∧ (State.applyFirst s).eng = s.eng ∧ (State.applyFirst s).boot = s.boot ∧
    (State.applyFirst s).pwr = s.pwr := by
  unfold State.applyFirst
  (try dsimp only)
  (repeat' split) <;> (have hk1 := @State.applyShadow_keeps; simp [hk1, State.KeepsOuter, State.KeepsInner, State.KeepsCore])

theorem State.retime_keeps (s : State) :
    s.KeepsOuter (State.retime s) ∧ s.KeepsInner (State.retime s) ∧ (State.retime s).regs = s.regs ∧ (State.retime s).mem = s.mem ∧
    (State.retime s).lanes = s.lanes ∧ (State.retime s).line = s.line ∧ (State.retime s).ports = s.ports ∧ (State.retime s).tun = s.tun ∧
    (State.retime s).cav = s.cav ∧ (State.retime s).sched = s.sched ∧ (State.retime s).eng = s.eng ∧ (State.retime s).geode = s.geode ∧
    (State.retime s).boot = s.boot ∧ (State.retime s).pwr = s.pwr ∧ (State.retime s).sent = s.sent := by
  unfold State.retime
  (try dsimp only)
  (repeat' split) <;> simp [State.KeepsOuter, State.KeepsInner, State.KeepsCore]

theorem State.cutRings_keeps (s : State) :
    s.KeepsOuter (State.cutRings s) ∧ s.KeepsCore (State.cutRings s) ∧ (State.cutRings s).regs = s.regs ∧ (State.cutRings s).mem = s.mem ∧
    (State.cutRings s).line = s.line ∧ (State.cutRings s).ports = s.ports ∧ (State.cutRings s).cav = s.cav ∧
    (State.cutRings s).twin = s.twin ∧ (State.cutRings s).acc = s.acc ∧ (State.cutRings s).geode = s.geode ∧
    (State.cutRings s).usb = s.usb ∧ (State.cutRings s).log = s.log ∧ (State.cutRings s).faultN = s.faultN ∧
    (State.cutRings s).freeCtr = s.freeCtr ∧ (State.cutRings s).sent = s.sent := by
  unfold State.cutRings
  (try dsimp only)
  (repeat' split) <;> simp [State.KeepsOuter, State.KeepsInner, State.KeepsCore]

theorem State.deriveRoutes_keeps (s : State) :
    s.KeepsOuter (State.deriveRoutes s) ∧ s.KeepsInner (State.deriveRoutes s) ∧ (State.deriveRoutes s).regs = s.regs ∧
    (State.deriveRoutes s).mem = s.mem ∧ (State.deriveRoutes s).beat = s.beat ∧ (State.deriveRoutes s).lanes = s.lanes ∧
    (State.deriveRoutes s).line = s.line ∧ (State.deriveRoutes s).ports = s.ports ∧ (State.deriveRoutes s).cav = s.cav ∧
    (State.deriveRoutes s).sched = s.sched ∧ (State.deriveRoutes s).eng = s.eng ∧ (State.deriveRoutes s).geode = s.geode ∧
    (State.deriveRoutes s).boot = s.boot ∧ (State.deriveRoutes s).pwr = s.pwr ∧ (State.deriveRoutes s).freeCtr = s.freeCtr ∧
    (State.deriveRoutes s).sent = s.sent := by
  unfold State.deriveRoutes
  (try dsimp only)
  (repeat' split) <;> simp [State.KeepsOuter, State.KeepsInner, State.KeepsCore]

theorem State.setMerges_keeps (s : State) (l : List Merge) :
    s.KeepsOuter (State.setMerges s l) ∧ s.KeepsCore (State.setMerges s l) ∧ (State.setMerges s l).regs = s.regs ∧
    (State.setMerges s l).mem = s.mem ∧ (State.setMerges s l).line = s.line ∧ (State.setMerges s l).ports = s.ports ∧
    (State.setMerges s l).cav = s.cav ∧ (State.setMerges s l).twin = s.twin ∧ (State.setMerges s l).acc = s.acc ∧
    (State.setMerges s l).geode = s.geode ∧ (State.setMerges s l).usb = s.usb ∧ (State.setMerges s l).log = s.log ∧
    (State.setMerges s l).faultN = s.faultN ∧ (State.setMerges s l).freeCtr = s.freeCtr ∧ (State.setMerges s l).sent = s.sent := by
  unfold State.setMerges
  (try dsimp only)
  (repeat' split) <;> simp [State.KeepsOuter, State.KeepsInner, State.KeepsCore]

theorem State.sendEcho_keeps (s : State) (t : TrunkPort) (change : Bool) :
    s.KeepsOuter (State.sendEcho s t change) ∧ s.KeepsInner (State.sendEcho s t change) ∧ s.KeepsCore (State.sendEcho s t change) ∧
    (State.sendEcho s t change).regs = s.regs ∧ (State.sendEcho s t change).mem = s.mem ∧ (State.sendEcho s t change).line = s.line ∧
    (State.sendEcho s t change).cav = s.cav ∧ (State.sendEcho s t change).geode = s.geode ∧
    (State.sendEcho s t change).freeCtr = s.freeCtr ∧ (State.sendEcho s t change).sent = s.sent := by
  unfold State.sendEcho
  (try dsimp only)
  (repeat' split) <;> (have hk1 := @State.sendOwn_keeps; simp [hk1, State.KeepsOuter, State.KeepsInner, State.KeepsCore])

theorem State.sendEchoAll_keeps (s : State) (change : Bool) :
    s.KeepsOuter (State.sendEchoAll s change) ∧ s.KeepsInner (State.sendEchoAll s change) ∧ s.KeepsCore (State.sendEchoAll s change) ∧
    (State.sendEchoAll s change).regs = s.regs ∧ (State.sendEchoAll s change).mem = s.mem ∧ (State.sendEchoAll s change).line = s.line ∧
    (State.sendEchoAll s change).cav = s.cav ∧ (State.sendEchoAll s change).geode = s.geode ∧
    (State.sendEchoAll s change).freeCtr = s.freeCtr ∧ (State.sendEchoAll s change).sent = s.sent := by
  unfold State.sendEchoAll
  (try dsimp only)
  (repeat' split) <;> (have hk1 := @State.sendEcho_keeps; simp [hk1, State.KeepsOuter, State.KeepsInner, State.KeepsCore])

theorem State.announce_keeps (s : State) (f : Announcement → Announcement) :
    s.KeepsOuter (State.announce s f) ∧ s.KeepsCore (State.announce s f) ∧ (State.announce s f).regs = s.regs ∧
    (State.announce s f).mem = s.mem ∧ (State.announce s f).line = s.line ∧ (State.announce s f).ports = s.ports ∧
    (State.announce s f).cav = s.cav ∧ (State.announce s f).twin = s.twin ∧ (State.announce s f).acc = s.acc ∧
    (State.announce s f).geode = s.geode ∧ (State.announce s f).usb = s.usb ∧ (State.announce s f).log = s.log ∧
    (State.announce s f).faultN = s.faultN ∧ (State.announce s f).freeCtr = s.freeCtr ∧ (State.announce s f).sent = s.sent := by
  unfold State.announce
  (try dsimp only)
  (repeat' split) <;> simp [State.KeepsOuter, State.KeepsInner, State.KeepsCore]

theorem State.announceRaise_keeps (s : State) :
    s.KeepsOuter (State.announceRaise s) ∧ s.KeepsCore (State.announceRaise s) ∧ (State.announceRaise s).regs = s.regs ∧
    (State.announceRaise s).mem = s.mem ∧ (State.announceRaise s).line = s.line ∧ (State.announceRaise s).ports = s.ports ∧
    (State.announceRaise s).cav = s.cav ∧ (State.announceRaise s).twin = s.twin ∧ (State.announceRaise s).acc = s.acc ∧
    (State.announceRaise s).geode = s.geode ∧ (State.announceRaise s).usb = s.usb ∧ (State.announceRaise s).log = s.log ∧
    (State.announceRaise s).faultN = s.faultN ∧ (State.announceRaise s).freeCtr = s.freeCtr ∧ (State.announceRaise s).sent = s.sent := by
  unfold State.announceRaise
  (try dsimp only)
  (repeat' split) <;> (have hk1 := @State.announce_keeps; simp [hk1, State.KeepsOuter, State.KeepsInner, State.KeepsCore])

theorem State.adoptSlot_keeps (s : State) (k : BitVec 7) :
    s.KeepsOuter (State.adoptSlot s k) ∧ s.KeepsInner (State.adoptSlot s k) ∧ s.KeepsCore (State.adoptSlot s k) ∧
    (State.adoptSlot s k).mem = s.mem ∧ (State.adoptSlot s k).line = s.line ∧ (State.adoptSlot s k).ports = s.ports ∧
    (State.adoptSlot s k).cav = s.cav ∧ (State.adoptSlot s k).geode = s.geode ∧ (State.adoptSlot s k).freeCtr = s.freeCtr ∧
    (State.adoptSlot s k).sent = s.sent := by
  unfold State.adoptSlot
  (try dsimp only)
  (repeat' split) <;> simp [State.KeepsOuter, State.KeepsInner, State.KeepsCore]

theorem State.assignWhileForming_keeps (s : State) :
    s.KeepsOuter (State.assignWhileForming s) ∧ s.KeepsCore (State.assignWhileForming s) ∧ (State.assignWhileForming s).mem = s.mem ∧
    (State.assignWhileForming s).line = s.line ∧ (State.assignWhileForming s).ports = s.ports ∧ (State.assignWhileForming s).cav = s.cav ∧
    (State.assignWhileForming s).twin = s.twin ∧ (State.assignWhileForming s).acc = s.acc ∧ (State.assignWhileForming s).geode = s.geode ∧
    (State.assignWhileForming s).usb = s.usb ∧ (State.assignWhileForming s).log = s.log ∧ (State.assignWhileForming s).faultN = s.faultN ∧
    (State.assignWhileForming s).freeCtr = s.freeCtr ∧ (State.assignWhileForming s).sent = s.sent := by
  unfold State.assignWhileForming
  (try dsimp only)
  (repeat' split) <;> (have hk1 := @State.adoptSlot_keeps; have hk2 := @State.announce_keeps; simp [hk1, hk2, State.KeepsOuter, State.KeepsInner, State.KeepsCore])

theorem State.noteLinks_keeps (s : State) (before : List HubRecord) (v : List HubRecord) :
    s.KeepsOuter (State.noteLinks s before v) ∧ s.KeepsCore (State.noteLinks s before v) ∧ (State.noteLinks s before v).regs = s.regs ∧
    (State.noteLinks s before v).mem = s.mem ∧ (State.noteLinks s before v).line = s.line ∧ (State.noteLinks s before v).ports = s.ports ∧
    (State.noteLinks s before v).cav = s.cav ∧ (State.noteLinks s before v).twin = s.twin ∧ (State.noteLinks s before v).acc = s.acc ∧
    (State.noteLinks s before v).geode = s.geode ∧ (State.noteLinks s before v).usb = s.usb ∧ (State.noteLinks s before v).log = s.log ∧
    (State.noteLinks s before v).faultN = s.faultN ∧ (State.noteLinks s before v).freeCtr = s.freeCtr ∧
    (State.noteLinks s before v).sent = s.sent := by
  unfold State.noteLinks
  (try dsimp only)
  (repeat' split) <;> simp [State.KeepsOuter, State.KeepsInner, State.KeepsCore]

theorem State.setMaster_keeps (s : State) (i : HubId) :
    s.KeepsOuter (State.setMaster s i) ∧ s.KeepsCore (State.setMaster s i) ∧ (State.setMaster s i).mem = s.mem ∧
    (State.setMaster s i).line = s.line ∧ (State.setMaster s i).ports = s.ports ∧ (State.setMaster s i).cav = s.cav ∧
    (State.setMaster s i).twin = s.twin ∧ (State.setMaster s i).acc = s.acc ∧ (State.setMaster s i).geode = s.geode ∧
    (State.setMaster s i).usb = s.usb ∧ (State.setMaster s i).log = s.log ∧ (State.setMaster s i).faultN = s.faultN ∧
    (State.setMaster s i).freeCtr = s.freeCtr ∧ (State.setMaster s i).sent = s.sent := by
  unfold State.setMaster
  (try dsimp only)
  (repeat' split) <;> simp [State.KeepsOuter, State.KeepsInner, State.KeepsCore]

theorem State.announceMove_keeps (s : State) :
    s.KeepsOuter (State.announceMove s) ∧ s.KeepsCore (State.announceMove s) ∧ (State.announceMove s).regs = s.regs ∧
    (State.announceMove s).mem = s.mem ∧ (State.announceMove s).line = s.line ∧ (State.announceMove s).cav = s.cav ∧
    (State.announceMove s).twin = s.twin ∧ (State.announceMove s).acc = s.acc ∧ (State.announceMove s).geode = s.geode ∧
    (State.announceMove s).usb = s.usb ∧ (State.announceMove s).log = s.log ∧ (State.announceMove s).faultN = s.faultN ∧
    (State.announceMove s).freeCtr = s.freeCtr ∧ (State.announceMove s).sent = s.sent := by
  unfold State.announceMove
  (try dsimp only)
  (repeat' split) <;> (have hk1 := @State.announce_keeps; have hk2 := @State.sendEchoAll_keeps; simp [hk1, hk2, State.KeepsOuter, State.KeepsInner, State.KeepsCore])

theorem State.newMaster_keeps (s : State) (i : HubId) :
    s.KeepsOuter (State.newMaster s i) ∧ s.KeepsCore (State.newMaster s i) ∧ (State.newMaster s i).mem = s.mem ∧
    (State.newMaster s i).line = s.line ∧ (State.newMaster s i).ports = s.ports ∧ (State.newMaster s i).cav = s.cav ∧
    (State.newMaster s i).twin = s.twin ∧ (State.newMaster s i).acc = s.acc ∧ (State.newMaster s i).geode = s.geode ∧
    (State.newMaster s i).usb = s.usb ∧ (State.newMaster s i).log = s.log ∧ (State.newMaster s i).faultN = s.faultN ∧
    (State.newMaster s i).freeCtr = s.freeCtr ∧ (State.newMaster s i).sent = s.sent := by
  unfold State.newMaster
  (try dsimp only)
  (repeat' split) <;> (have hk1 := @State.setMaster_keeps; simp [hk1, State.KeepsOuter, State.KeepsInner, State.KeepsCore])

theorem State.electMaster_keeps (s : State) :
    s.KeepsOuter (State.electMaster s) ∧ s.KeepsCore (State.electMaster s) ∧ (State.electMaster s).mem = s.mem ∧
    (State.electMaster s).line = s.line ∧ (State.electMaster s).ports = s.ports ∧ (State.electMaster s).cav = s.cav ∧
    (State.electMaster s).twin = s.twin ∧ (State.electMaster s).acc = s.acc ∧ (State.electMaster s).geode = s.geode ∧
    (State.electMaster s).usb = s.usb ∧ (State.electMaster s).log = s.log ∧ (State.electMaster s).faultN = s.faultN ∧
    (State.electMaster s).freeCtr = s.freeCtr ∧ (State.electMaster s).sent = s.sent := by
  unfold State.electMaster
  (try dsimp only)
  (repeat' split) <;> (have hk1 := @State.newMaster_keeps; simp [hk1, State.KeepsOuter, State.KeepsInner, State.KeepsCore])

theorem State.refreshView_keeps (s : State) (before : State) :
    s.KeepsOuter (State.refreshView s before) ∧ s.KeepsCore (State.refreshView s before) ∧ (State.refreshView s before).mem = s.mem ∧
    (State.refreshView s before).line = s.line ∧ (State.refreshView s before).cav = s.cav ∧ (State.refreshView s before).twin = s.twin ∧
    (State.refreshView s before).acc = s.acc ∧ (State.refreshView s before).geode = s.geode ∧ (State.refreshView s before).usb = s.usb ∧
    (State.refreshView s before).log = s.log ∧ (State.refreshView s before).faultN = s.faultN ∧
    (State.refreshView s before).freeCtr = s.freeCtr ∧ (State.refreshView s before).sent = s.sent := by
  unfold State.refreshView
  (try dsimp only)
  (repeat' split) <;> (have hk1 := @State.announceMove_keeps; have hk2 := @State.announceRaise_keeps; have hk3 := @State.assignWhileForming_keeps; have hk4 := @State.cutRings_keeps; have hk5 := @State.electMaster_keeps; have hk6 := @State.noteLinks_keeps; have hk7 := @State.sendEchoAll_keeps; simp [hk1, hk2, hk3, hk4, hk5, hk6, hk7, State.KeepsOuter, State.KeepsInner, State.KeepsCore])

@[simp] theorem State.viewing_mem (s : State) {f : State → State} (h : ∀ t, (f t).mem = t.mem) :
    (State.viewing s f).mem = s.mem := by
  unfold State.viewing; (try dsimp only); (repeat' split) <;> (have hk1 := @State.refreshView_keeps; have hi := @State.ite_fields; simp [hk1, h, hi])

@[simp] theorem State.viewing_heads (s : State) {f : State → State} (h : ∀ t, (f t).heads = t.heads) :
    (State.viewing s f).heads = s.heads := by
  unfold State.viewing; (try dsimp only); (repeat' split) <;> (have hk1 := @State.refreshView_keeps; have hi := @State.ite_fields; simp [hk1, h, hi])

@[simp] theorem State.viewing_beat (s : State) {f : State → State} (h : ∀ t, (f t).beat = t.beat) :
    (State.viewing s f).beat = s.beat := by
  unfold State.viewing; (try dsimp only); (repeat' split) <;> (have hk1 := @State.refreshView_keeps; have hi := @State.ite_fields; simp [hk1, h, hi])

@[simp] theorem State.viewing_lanes (s : State) {f : State → State} (h : ∀ t, (f t).lanes = t.lanes) :
    (State.viewing s f).lanes = s.lanes := by
  unfold State.viewing; (try dsimp only); (repeat' split) <;> (have hk1 := @State.refreshView_keeps; have hi := @State.ite_fields; simp [hk1, h, hi])

@[simp] theorem State.viewing_line (s : State) {f : State → State} (h : ∀ t, (f t).line = t.line) :
    (State.viewing s f).line = s.line := by
  unfold State.viewing; (try dsimp only); (repeat' split) <;> (have hk1 := @State.refreshView_keeps; have hi := @State.ite_fields; simp [hk1, h, hi])

@[simp] theorem State.viewing_tun (s : State) {f : State → State} (h : ∀ t, (f t).tun = t.tun) :
    (State.viewing s f).tun = s.tun := by
  unfold State.viewing; (try dsimp only); (repeat' split) <;> (have hk1 := @State.refreshView_keeps; have hi := @State.ite_fields; simp [hk1, h, hi])

@[simp] theorem State.viewing_cav (s : State) {f : State → State} (h : ∀ t, (f t).cav = t.cav) :
    (State.viewing s f).cav = s.cav := by
  unfold State.viewing; (try dsimp only); (repeat' split) <;> (have hk1 := @State.refreshView_keeps; have hi := @State.ite_fields; simp [hk1, h, hi])

@[simp] theorem State.viewing_sched (s : State) {f : State → State} (h : ∀ t, (f t).sched = t.sched) :
    (State.viewing s f).sched = s.sched := by
  unfold State.viewing; (try dsimp only); (repeat' split) <;> (have hk1 := @State.refreshView_keeps; have hi := @State.ite_fields; simp [hk1, h, hi])

@[simp] theorem State.viewing_twin (s : State) {f : State → State} (h : ∀ t, (f t).twin = t.twin) :
    (State.viewing s f).twin = s.twin := by
  unfold State.viewing; (try dsimp only); (repeat' split) <;> (have hk1 := @State.refreshView_keeps; have hi := @State.ite_fields; simp [hk1, h, hi])

@[simp] theorem State.viewing_eng (s : State) {f : State → State} (h : ∀ t, (f t).eng = t.eng) :
    (State.viewing s f).eng = s.eng := by
  unfold State.viewing; (try dsimp only); (repeat' split) <;> (have hk1 := @State.refreshView_keeps; have hi := @State.ite_fields; simp [hk1, h, hi])

@[simp] theorem State.viewing_acc (s : State) {f : State → State} (h : ∀ t, (f t).acc = t.acc) :
    (State.viewing s f).acc = s.acc := by
  unfold State.viewing; (try dsimp only); (repeat' split) <;> (have hk1 := @State.refreshView_keeps; have hi := @State.ite_fields; simp [hk1, h, hi])

@[simp] theorem State.viewing_geode (s : State) {f : State → State} (h : ∀ t, (f t).geode = t.geode) :
    (State.viewing s f).geode = s.geode := by
  unfold State.viewing; (try dsimp only); (repeat' split) <;> (have hk1 := @State.refreshView_keeps; have hi := @State.ite_fields; simp [hk1, h, hi])

@[simp] theorem State.viewing_boot (s : State) {f : State → State} (h : ∀ t, (f t).boot = t.boot) :
    (State.viewing s f).boot = s.boot := by
  unfold State.viewing; (try dsimp only); (repeat' split) <;> (have hk1 := @State.refreshView_keeps; have hi := @State.ite_fields; simp [hk1, h, hi])

@[simp] theorem State.viewing_pwr (s : State) {f : State → State} (h : ∀ t, (f t).pwr = t.pwr) :
    (State.viewing s f).pwr = s.pwr := by
  unfold State.viewing; (try dsimp only); (repeat' split) <;> (have hk1 := @State.refreshView_keeps; have hi := @State.ite_fields; simp [hk1, h, hi])

@[simp] theorem State.viewing_usb (s : State) {f : State → State} (h : ∀ t, (f t).usb = t.usb) :
    (State.viewing s f).usb = s.usb := by
  unfold State.viewing; (try dsimp only); (repeat' split) <;> (have hk1 := @State.refreshView_keeps; have hi := @State.ite_fields; simp [hk1, h, hi])

@[simp] theorem State.viewing_pd (s : State) {f : State → State} (h : ∀ t, (f t).pd = t.pd) :
    (State.viewing s f).pd = s.pd := by
  unfold State.viewing; (try dsimp only); (repeat' split) <;> (have hk1 := @State.refreshView_keeps; have hi := @State.ite_fields; simp [hk1, h, hi])

@[simp] theorem State.viewing_mon (s : State) {f : State → State} (h : ∀ t, (f t).mon = t.mon) :
    (State.viewing s f).mon = s.mon := by
  unfold State.viewing; (try dsimp only); (repeat' split) <;> (have hk1 := @State.refreshView_keeps; have hi := @State.ite_fields; simp [hk1, h, hi])

@[simp] theorem State.viewing_log (s : State) {f : State → State} (h : ∀ t, (f t).log = t.log) :
    (State.viewing s f).log = s.log := by
  unfold State.viewing; (try dsimp only); (repeat' split) <;> (have hk1 := @State.refreshView_keeps; have hi := @State.ite_fields; simp [hk1, h, hi])

@[simp] theorem State.viewing_faultN (s : State) {f : State → State} (h : ∀ t, (f t).faultN = t.faultN) :
    (State.viewing s f).faultN = s.faultN := by
  unfold State.viewing; (try dsimp only); (repeat' split) <;> (have hk1 := @State.refreshView_keeps; have hi := @State.ite_fields; simp [hk1, h, hi])

@[simp] theorem State.viewing_carStatus (s : State) {f : State → State} (h : ∀ t, (f t).carStatus = t.carStatus) :
    (State.viewing s f).carStatus = s.carStatus := by
  unfold State.viewing; (try dsimp only); (repeat' split) <;> (have hk1 := @State.refreshView_keeps; have hi := @State.ite_fields; simp [hk1, h, hi])

@[simp] theorem State.viewing_ticks (s : State) {f : State → State} (h : ∀ t, (f t).ticks = t.ticks) :
    (State.viewing s f).ticks = s.ticks := by
  unfold State.viewing; (try dsimp only); (repeat' split) <;> (have hk1 := @State.refreshView_keeps; have hi := @State.ite_fields; simp [hk1, h, hi])

@[simp] theorem State.viewing_freeCtr (s : State) {f : State → State} (h : ∀ t, (f t).freeCtr = t.freeCtr) :
    (State.viewing s f).freeCtr = s.freeCtr := by
  unfold State.viewing; (try dsimp only); (repeat' split) <;> (have hk1 := @State.refreshView_keeps; have hi := @State.ite_fields; simp [hk1, h, hi])

@[simp] theorem State.viewing_sent (s : State) {f : State → State} (h : ∀ t, (f t).sent = t.sent) :
    (State.viewing s f).sent = s.sent := by
  unfold State.viewing; (try dsimp only); (repeat' split) <;> (have hk1 := @State.refreshView_keeps; have hi := @State.ite_fields; simp [hk1, h, hi])

@[simp] theorem State.viewing_pending (s : State) {f : State → State} (h : ∀ t, (f t).pending = t.pending) :
    (State.viewing s f).pending = s.pending := by
  unfold State.viewing; (try dsimp only); (repeat' split) <;> (have hk1 := @State.refreshView_keeps; have hi := @State.ite_fields; simp [hk1, h, hi])

theorem State.resumeEcho_keeps (s : State) :
    s.KeepsOuter (State.resumeEcho s) ∧ (State.resumeEcho s).mem = s.mem ∧ (State.resumeEcho s).beat = s.beat ∧
    (State.resumeEcho s).lanes = s.lanes ∧ (State.resumeEcho s).line = s.line ∧ (State.resumeEcho s).cav = s.cav ∧
    (State.resumeEcho s).sched = s.sched ∧ (State.resumeEcho s).twin = s.twin ∧ (State.resumeEcho s).eng = s.eng ∧
    (State.resumeEcho s).acc = s.acc ∧ (State.resumeEcho s).geode = s.geode ∧ (State.resumeEcho s).boot = s.boot ∧
    (State.resumeEcho s).pwr = s.pwr ∧ (State.resumeEcho s).usb = s.usb ∧ (State.resumeEcho s).log = s.log ∧
    (State.resumeEcho s).faultN = s.faultN ∧ (State.resumeEcho s).freeCtr = s.freeCtr ∧ (State.resumeEcho s).sent = s.sent := by
  unfold State.resumeEcho
  (try dsimp only)
  (repeat' split) <;> (have hk1 := @State.announceMove_keeps; have hk2 := @State.deriveRoutes_keeps; have hk3 := @State.electMaster_keeps; simp [hk1, hk2, hk3, State.KeepsOuter, State.KeepsInner, State.KeepsCore])

@[simp] theorem State.arriving_mem (s : State) (p : LinkPort) {f : State → State} (h : ∀ t, (f t).mem = t.mem) :
    (State.arriving s p f).mem = s.mem := by
  unfold State.arriving; (try dsimp only); (repeat' split) <;> (have hk1 := @State.countTrunk_keeps; have hi := @State.ite_fields; simp [hk1, h, hi])

@[simp] theorem State.arriving_heads (s : State) (p : LinkPort) {f : State → State} (h : ∀ t, (f t).heads = t.heads) :
    (State.arriving s p f).heads = s.heads := by
  unfold State.arriving; (try dsimp only); (repeat' split) <;> (have hk1 := @State.countTrunk_keeps; have hi := @State.ite_fields; simp [hk1, h, hi])

@[simp] theorem State.arriving_beat (s : State) (p : LinkPort) {f : State → State} (h : ∀ t, (f t).beat = t.beat) :
    (State.arriving s p f).beat = s.beat := by
  unfold State.arriving; (try dsimp only); (repeat' split) <;> (have hk1 := @State.countTrunk_keeps; have hi := @State.ite_fields; simp [hk1, h, hi])

@[simp] theorem State.arriving_lanes (s : State) (p : LinkPort) {f : State → State} (h : ∀ t, (f t).lanes = t.lanes) :
    (State.arriving s p f).lanes = s.lanes := by
  unfold State.arriving; (try dsimp only); (repeat' split) <;> (have hk1 := @State.countTrunk_keeps; have hi := @State.ite_fields; simp [hk1, h, hi])

@[simp] theorem State.arriving_line (s : State) (p : LinkPort) {f : State → State} (h : ∀ t, (f t).line = t.line) :
    (State.arriving s p f).line = s.line := by
  unfold State.arriving; (try dsimp only); (repeat' split) <;> (have hk1 := @State.countTrunk_keeps; have hi := @State.ite_fields; simp [hk1, h, hi])

@[simp] theorem State.arriving_ports (s : State) (p : LinkPort) {f : State → State} (h : ∀ t, (f t).ports = t.ports) :
    (State.arriving s p f).ports = s.ports := by
  unfold State.arriving; (try dsimp only); (repeat' split) <;> (have hk1 := @State.countTrunk_keeps; have hi := @State.ite_fields; simp [hk1, h, hi])

@[simp] theorem State.arriving_echo (s : State) (p : LinkPort) {f : State → State} (h : ∀ t, (f t).echo = t.echo) :
    (State.arriving s p f).echo = s.echo := by
  unfold State.arriving; (try dsimp only); (repeat' split) <;> (have hk1 := @State.countTrunk_keeps; have hi := @State.ite_fields; simp [hk1, h, hi])

@[simp] theorem State.arriving_tun (s : State) (p : LinkPort) {f : State → State} (h : ∀ t, (f t).tun = t.tun) :
    (State.arriving s p f).tun = s.tun := by
  unfold State.arriving; (try dsimp only); (repeat' split) <;> (have hk1 := @State.countTrunk_keeps; have hi := @State.ite_fields; simp [hk1, h, hi])

@[simp] theorem State.arriving_cav (s : State) (p : LinkPort) {f : State → State} (h : ∀ t, (f t).cav = t.cav) :
    (State.arriving s p f).cav = s.cav := by
  unfold State.arriving; (try dsimp only); (repeat' split) <;> (have hk1 := @State.countTrunk_keeps; have hi := @State.ite_fields; simp [hk1, h, hi])

@[simp] theorem State.arriving_sched (s : State) (p : LinkPort) {f : State → State} (h : ∀ t, (f t).sched = t.sched) :
    (State.arriving s p f).sched = s.sched := by
  unfold State.arriving; (try dsimp only); (repeat' split) <;> (have hk1 := @State.countTrunk_keeps; have hi := @State.ite_fields; simp [hk1, h, hi])

@[simp] theorem State.arriving_twin (s : State) (p : LinkPort) {f : State → State} (h : ∀ t, (f t).twin = t.twin) :
    (State.arriving s p f).twin = s.twin := by
  unfold State.arriving; (try dsimp only); (repeat' split) <;> (have hk1 := @State.countTrunk_keeps; have hi := @State.ite_fields; simp [hk1, h, hi])

@[simp] theorem State.arriving_eng (s : State) (p : LinkPort) {f : State → State} (h : ∀ t, (f t).eng = t.eng) :
    (State.arriving s p f).eng = s.eng := by
  unfold State.arriving; (try dsimp only); (repeat' split) <;> (have hk1 := @State.countTrunk_keeps; have hi := @State.ite_fields; simp [hk1, h, hi])

@[simp] theorem State.arriving_acc (s : State) (p : LinkPort) {f : State → State} (h : ∀ t, (f t).acc = t.acc) :
    (State.arriving s p f).acc = s.acc := by
  unfold State.arriving; (try dsimp only); (repeat' split) <;> (have hk1 := @State.countTrunk_keeps; have hi := @State.ite_fields; simp [hk1, h, hi])

@[simp] theorem State.arriving_geode (s : State) (p : LinkPort) {f : State → State} (h : ∀ t, (f t).geode = t.geode) :
    (State.arriving s p f).geode = s.geode := by
  unfold State.arriving; (try dsimp only); (repeat' split) <;> (have hk1 := @State.countTrunk_keeps; have hi := @State.ite_fields; simp [hk1, h, hi])

@[simp] theorem State.arriving_boot (s : State) (p : LinkPort) {f : State → State} (h : ∀ t, (f t).boot = t.boot) :
    (State.arriving s p f).boot = s.boot := by
  unfold State.arriving; (try dsimp only); (repeat' split) <;> (have hk1 := @State.countTrunk_keeps; have hi := @State.ite_fields; simp [hk1, h, hi])

@[simp] theorem State.arriving_pwr (s : State) (p : LinkPort) {f : State → State} (h : ∀ t, (f t).pwr = t.pwr) :
    (State.arriving s p f).pwr = s.pwr := by
  unfold State.arriving; (try dsimp only); (repeat' split) <;> (have hk1 := @State.countTrunk_keeps; have hi := @State.ite_fields; simp [hk1, h, hi])

@[simp] theorem State.arriving_usb (s : State) (p : LinkPort) {f : State → State} (h : ∀ t, (f t).usb = t.usb) :
    (State.arriving s p f).usb = s.usb := by
  unfold State.arriving; (try dsimp only); (repeat' split) <;> (have hk1 := @State.countTrunk_keeps; have hi := @State.ite_fields; simp [hk1, h, hi])

@[simp] theorem State.arriving_pd (s : State) (p : LinkPort) {f : State → State} (h : ∀ t, (f t).pd = t.pd) :
    (State.arriving s p f).pd = s.pd := by
  unfold State.arriving; (try dsimp only); (repeat' split) <;> (have hk1 := @State.countTrunk_keeps; have hi := @State.ite_fields; simp [hk1, h, hi])

@[simp] theorem State.arriving_mon (s : State) (p : LinkPort) {f : State → State} (h : ∀ t, (f t).mon = t.mon) :
    (State.arriving s p f).mon = s.mon := by
  unfold State.arriving; (try dsimp only); (repeat' split) <;> (have hk1 := @State.countTrunk_keeps; have hi := @State.ite_fields; simp [hk1, h, hi])

@[simp] theorem State.arriving_log (s : State) (p : LinkPort) {f : State → State} (h : ∀ t, (f t).log = t.log) :
    (State.arriving s p f).log = s.log := by
  unfold State.arriving; (try dsimp only); (repeat' split) <;> (have hk1 := @State.countTrunk_keeps; have hi := @State.ite_fields; simp [hk1, h, hi])

@[simp] theorem State.arriving_faultN (s : State) (p : LinkPort) {f : State → State} (h : ∀ t, (f t).faultN = t.faultN) :
    (State.arriving s p f).faultN = s.faultN := by
  unfold State.arriving; (try dsimp only); (repeat' split) <;> (have hk1 := @State.countTrunk_keeps; have hi := @State.ite_fields; simp [hk1, h, hi])

@[simp] theorem State.arriving_carStatus (s : State) (p : LinkPort) {f : State → State} (h : ∀ t, (f t).carStatus = t.carStatus) :
    (State.arriving s p f).carStatus = s.carStatus := by
  unfold State.arriving; (try dsimp only); (repeat' split) <;> (have hk1 := @State.countTrunk_keeps; have hi := @State.ite_fields; simp [hk1, h, hi])

@[simp] theorem State.arriving_ticks (s : State) (p : LinkPort) {f : State → State} (h : ∀ t, (f t).ticks = t.ticks) :
    (State.arriving s p f).ticks = s.ticks := by
  unfold State.arriving; (try dsimp only); (repeat' split) <;> (have hk1 := @State.countTrunk_keeps; have hi := @State.ite_fields; simp [hk1, h, hi])

@[simp] theorem State.arriving_freeCtr (s : State) (p : LinkPort) {f : State → State} (h : ∀ t, (f t).freeCtr = t.freeCtr) :
    (State.arriving s p f).freeCtr = s.freeCtr := by
  unfold State.arriving; (try dsimp only); (repeat' split) <;> (have hk1 := @State.countTrunk_keeps; have hi := @State.ite_fields; simp [hk1, h, hi])

@[simp] theorem State.arriving_sent (s : State) (p : LinkPort) {f : State → State} (h : ∀ t, (f t).sent = t.sent) :
    (State.arriving s p f).sent = s.sent := by
  unfold State.arriving; (try dsimp only); (repeat' split) <;> (have hk1 := @State.countTrunk_keeps; have hi := @State.ite_fields; simp [hk1, h, hi])

@[simp] theorem State.arriving_pending (s : State) (p : LinkPort) {f : State → State} (h : ∀ t, (f t).pending = t.pending) :
    (State.arriving s p f).pending = s.pending := by
  unfold State.arriving; (try dsimp only); (repeat' split) <;> (have hk1 := @State.countTrunk_keeps; have hi := @State.ite_fields; simp [hk1, h, hi])

theorem State.countPair_keeps (s : State) (ep : EpId) (red : Bool) :
    s.KeepsOuter (State.countPair s ep red) ∧ s.KeepsInner (State.countPair s ep red) ∧ s.KeepsCore (State.countPair s ep red) ∧
    (State.countPair s ep red).regs = s.regs ∧ (State.countPair s ep red).mem = s.mem ∧ (State.countPair s ep red).line = s.line ∧
    (State.countPair s ep red).ports = s.ports ∧ (State.countPair s ep red).geode = s.geode ∧
    (State.countPair s ep red).freeCtr = s.freeCtr ∧ (State.countPair s ep red).sent = s.sent := by
  unfold State.countPair
  (try dsimp only)
  (repeat' split) <;> simp [State.KeepsOuter, State.KeepsInner, State.KeepsCore]

theorem State.countColour_keeps (s : State) (c : Cls) (first : Bool) (k : Colour) :
    s.KeepsOuter (State.countColour s c first k) ∧ s.KeepsInner (State.countColour s c first k) ∧
    s.KeepsCore (State.countColour s c first k) ∧ (State.countColour s c first k).mem = s.mem ∧
    (State.countColour s c first k).line = s.line ∧ (State.countColour s c first k).ports = s.ports ∧
    (State.countColour s c first k).cav = s.cav ∧ (State.countColour s c first k).geode = s.geode ∧
    (State.countColour s c first k).freeCtr = s.freeCtr ∧ (State.countColour s c first k).sent = s.sent := by
  unfold State.countColour
  (try dsimp only)
  (repeat' split) <;> simp [State.KeepsOuter, State.KeepsInner, State.KeepsCore]

theorem State.policeDefault_keeps (s : State) (p : EgressPort) (f : Frame) (first : Bool) :
    s.KeepsOuter (State.policeDefault s p f first).1 ∧ s.KeepsInner (State.policeDefault s p f first).1 ∧
    (State.policeDefault s p f first).1.mem = s.mem ∧ (State.policeDefault s p f first).1.beat = s.beat ∧
    (State.policeDefault s p f first).1.lanes = s.lanes ∧ (State.policeDefault s p f first).1.line = s.line ∧
    (State.policeDefault s p f first).1.ports = s.ports ∧ (State.policeDefault s p f first).1.tun = s.tun ∧
    (State.policeDefault s p f first).1.cav = s.cav ∧ (State.policeDefault s p f first).1.eng = s.eng ∧
    (State.policeDefault s p f first).1.geode = s.geode ∧ (State.policeDefault s p f first).1.boot = s.boot ∧
    (State.policeDefault s p f first).1.pwr = s.pwr ∧ (State.policeDefault s p f first).1.freeCtr = s.freeCtr ∧
    (State.policeDefault s p f first).1.sent = s.sent := by
  unfold State.policeDefault
  (try dsimp only)
  (repeat' split) <;> (have hk1 := @State.countColour_keeps; simp [hk1, State.KeepsOuter, State.KeepsInner, State.KeepsCore])

theorem State.ageOutTwin_keeps (s : State) (src : EpId) :
    s.KeepsOuter (State.ageOutTwin s src) ∧ s.KeepsCore (State.ageOutTwin s src) ∧ (State.ageOutTwin s src).mem = s.mem ∧
    (State.ageOutTwin s src).line = s.line ∧ (State.ageOutTwin s src).ports = s.ports ∧ (State.ageOutTwin s src).echo = s.echo ∧
    (State.ageOutTwin s src).cav = s.cav ∧ (State.ageOutTwin s src).acc = s.acc ∧ (State.ageOutTwin s src).geode = s.geode ∧
    (State.ageOutTwin s src).usb = s.usb ∧ (State.ageOutTwin s src).log = s.log ∧ (State.ageOutTwin s src).faultN = s.faultN ∧
    (State.ageOutTwin s src).freeCtr = s.freeCtr ∧ (State.ageOutTwin s src).sent = s.sent := by
  unfold State.ageOutTwin
  (try dsimp only)
  (repeat' split) <;> simp [State.KeepsOuter, State.KeepsInner, State.KeepsCore]

theorem State.ageTwins_keeps (s : State) :
    s.KeepsOuter (State.ageTwins s) ∧ s.KeepsCore (State.ageTwins s) ∧ (State.ageTwins s).mem = s.mem ∧ (State.ageTwins s).line = s.line ∧
    (State.ageTwins s).ports = s.ports ∧ (State.ageTwins s).echo = s.echo ∧ (State.ageTwins s).cav = s.cav ∧
    (State.ageTwins s).acc = s.acc ∧ (State.ageTwins s).geode = s.geode ∧ (State.ageTwins s).usb = s.usb ∧ (State.ageTwins s).log = s.log ∧
    (State.ageTwins s).faultN = s.faultN ∧ (State.ageTwins s).freeCtr = s.freeCtr ∧ (State.ageTwins s).sent = s.sent := by
  unfold State.ageTwins
  (try dsimp only)
  (repeat' split) <;> (have hk1 := @State.ageOutTwin_keeps; simp [hk1, State.KeepsOuter, State.KeepsInner, State.KeepsCore])

theorem State.setTwin_keeps (s : State) (e : TwinEntry) :
    s.KeepsOuter (State.setTwin s e) ∧ s.KeepsCore (State.setTwin s e) ∧ (State.setTwin s e).regs = s.regs ∧
    (State.setTwin s e).mem = s.mem ∧ (State.setTwin s e).line = s.line ∧ (State.setTwin s e).ports = s.ports ∧
    (State.setTwin s e).echo = s.echo ∧ (State.setTwin s e).cav = s.cav ∧ (State.setTwin s e).acc = s.acc ∧
    (State.setTwin s e).geode = s.geode ∧ (State.setTwin s e).usb = s.usb ∧ (State.setTwin s e).log = s.log ∧
    (State.setTwin s e).faultN = s.faultN ∧ (State.setTwin s e).freeCtr = s.freeCtr ∧ (State.setTwin s e).sent = s.sent := by
  unfold State.setTwin
  (try dsimp only)
  (repeat' split) <;> simp [State.KeepsOuter, State.KeepsInner, State.KeepsCore]

theorem State.checkCopy_keeps (s : State) (e0 : TwinEntry) (seq : BitVec 16) (copyB : Bool) :
    s.KeepsOuter (State.checkCopy s e0 seq copyB).1 ∧ s.KeepsCore (State.checkCopy s e0 seq copyB).1 ∧
    (State.checkCopy s e0 seq copyB).1.mem = s.mem ∧ (State.checkCopy s e0 seq copyB).1.line = s.line ∧
    (State.checkCopy s e0 seq copyB).1.ports = s.ports ∧ (State.checkCopy s e0 seq copyB).1.echo = s.echo ∧
    (State.checkCopy s e0 seq copyB).1.cav = s.cav ∧ (State.checkCopy s e0 seq copyB).1.acc = s.acc ∧
    (State.checkCopy s e0 seq copyB).1.geode = s.geode ∧ (State.checkCopy s e0 seq copyB).1.usb = s.usb ∧
    (State.checkCopy s e0 seq copyB).1.log = s.log ∧ (State.checkCopy s e0 seq copyB).1.faultN = s.faultN ∧
    (State.checkCopy s e0 seq copyB).1.freeCtr = s.freeCtr ∧ (State.checkCopy s e0 seq copyB).1.sent = s.sent := by
  unfold State.checkCopy
  (try dsimp only)
  (repeat' split) <;> (have hk1 := @State.setTwin_keeps; simp [hk1, State.KeepsOuter, State.KeepsInner, State.KeepsCore])

theorem State.twinCheck_keeps (s0 : State) (f : Frame) :
    s0.KeepsOuter (State.twinCheck s0 f).1 ∧ s0.KeepsCore (State.twinCheck s0 f).1 ∧ (State.twinCheck s0 f).1.mem = s0.mem ∧
    (State.twinCheck s0 f).1.line = s0.line ∧ (State.twinCheck s0 f).1.ports = s0.ports ∧ (State.twinCheck s0 f).1.echo = s0.echo ∧
    (State.twinCheck s0 f).1.cav = s0.cav ∧ (State.twinCheck s0 f).1.acc = s0.acc ∧ (State.twinCheck s0 f).1.geode = s0.geode ∧
    (State.twinCheck s0 f).1.usb = s0.usb ∧ (State.twinCheck s0 f).1.log = s0.log ∧ (State.twinCheck s0 f).1.faultN = s0.faultN ∧
    (State.twinCheck s0 f).1.freeCtr = s0.freeCtr ∧ (State.twinCheck s0 f).1.sent = s0.sent := by
  unfold State.twinCheck
  (try dsimp only)
  (repeat' split) <;> (have hk1 := @State.ageTwins_keeps; have hk2 := @State.checkCopy_keeps; simp [hk1, hk2, State.KeepsOuter, State.KeepsInner, State.KeepsCore])

theorem State.unmarkTwin_keeps (s : State) (f : Frame) :
    s.KeepsOuter (State.unmarkTwin s f) ∧ s.KeepsCore (State.unmarkTwin s f) ∧ (State.unmarkTwin s f).regs = s.regs ∧
    (State.unmarkTwin s f).mem = s.mem ∧ (State.unmarkTwin s f).line = s.line ∧ (State.unmarkTwin s f).ports = s.ports ∧
    (State.unmarkTwin s f).echo = s.echo ∧ (State.unmarkTwin s f).cav = s.cav ∧ (State.unmarkTwin s f).acc = s.acc ∧
    (State.unmarkTwin s f).geode = s.geode ∧ (State.unmarkTwin s f).usb = s.usb ∧ (State.unmarkTwin s f).log = s.log ∧
    (State.unmarkTwin s f).faultN = s.faultN ∧ (State.unmarkTwin s f).freeCtr = s.freeCtr ∧ (State.unmarkTwin s f).sent = s.sent := by
  unfold State.unmarkTwin
  (try dsimp only)
  (repeat' split) <;> simp [State.KeepsOuter, State.KeepsInner, State.KeepsCore]

end Sys2Proof.Machine
end

