-- ==== Sys2Proof/Laws/KeepsTunnels.lean ====
section
/-! SUPPORT. Laws/KeepsTunnels.lean: what the operations of Machine/TunnelOps, SchedOps and Plans leave as it is. They are no simp lemmas: a proof
takes those it needs as hypotheses, `have hk := @State.foo_keeps; simp [hk]`, which makes no auxiliary theorem. -/

set_option linter.all false

namespace Sys2Proof.Machine

open Sys2Proof

theorem State.setTable_keeps (s : State) (ep : EpId) (e : EpEntry) :
    s.KeepsOuter (State.setTable s ep e) ∧ s.KeepsInner (State.setTable s ep e) ∧ (State.setTable s ep e).regs = s.regs ∧
    (State.setTable s ep e).mem = s.mem ∧ (State.setTable s ep e).beat = s.beat ∧ (State.setTable s ep e).lanes = s.lanes ∧
    (State.setTable s ep e).line = s.line ∧ (State.setTable s ep e).ports = s.ports ∧ (State.setTable s ep e).cav = s.cav ∧
    (State.setTable s ep e).sched = s.sched ∧ (State.setTable s ep e).eng = s.eng ∧ (State.setTable s ep e).geode = s.geode ∧
    (State.setTable s ep e).boot = s.boot ∧ (State.setTable s ep e).pwr = s.pwr ∧ (State.setTable s ep e).freeCtr = s.freeCtr ∧
    (State.setTable s ep e).sent = s.sent := by
  unfold State.setTable
  (try dsimp only)
  (repeat' split) <;> simp [State.KeepsOuter, State.KeepsInner, State.KeepsCore]

theorem State.touch_keeps (s : State) (ep : EpId) :
    s.KeepsOuter (State.touch s ep) ∧ s.KeepsInner (State.touch s ep) ∧ (State.touch s ep).regs = s.regs ∧ (State.touch s ep).mem = s.mem ∧
    (State.touch s ep).beat = s.beat ∧ (State.touch s ep).lanes = s.lanes ∧ (State.touch s ep).line = s.line ∧
    (State.touch s ep).ports = s.ports ∧ (State.touch s ep).cav = s.cav ∧ (State.touch s ep).sched = s.sched ∧
    (State.touch s ep).eng = s.eng ∧ (State.touch s ep).geode = s.geode ∧ (State.touch s ep).boot = s.boot ∧
    (State.touch s ep).pwr = s.pwr ∧ (State.touch s ep).freeCtr = s.freeCtr ∧ (State.touch s ep).sent = s.sent := by
  unfold State.touch
  (try dsimp only)
  (repeat' split) <;> simp [State.KeepsOuter, State.KeepsInner, State.KeepsCore]

theorem State.evict_keeps (s : State) (l : CacheLine) :
    s.KeepsOuter (State.evict s l) ∧ s.KeepsInner (State.evict s l) ∧ (State.evict s l).regs = s.regs ∧ (State.evict s l).mem = s.mem ∧
    (State.evict s l).beat = s.beat ∧ (State.evict s l).lanes = s.lanes ∧ (State.evict s l).line = s.line ∧
    (State.evict s l).ports = s.ports ∧ (State.evict s l).cav = s.cav ∧ (State.evict s l).sched = s.sched ∧ (State.evict s l).eng = s.eng ∧
    (State.evict s l).geode = s.geode ∧ (State.evict s l).boot = s.boot ∧ (State.evict s l).pwr = s.pwr ∧
    (State.evict s l).freeCtr = s.freeCtr ∧ (State.evict s l).sent = s.sent := by
  unfold State.evict
  (try dsimp only)
  (repeat' split) <;> (have hk1 := @State.setTable_keeps; simp [hk1, State.KeepsOuter, State.KeepsInner, State.KeepsCore])

theorem State.fillCache_keeps (s : State) (ep : EpId) (e : EpEntry) :
    s.KeepsOuter (State.fillCache s ep e) ∧ s.KeepsInner (State.fillCache s ep e) ∧ (State.fillCache s ep e).regs = s.regs ∧
    (State.fillCache s ep e).mem = s.mem ∧ (State.fillCache s ep e).beat = s.beat ∧ (State.fillCache s ep e).lanes = s.lanes ∧
    (State.fillCache s ep e).line = s.line ∧ (State.fillCache s ep e).ports = s.ports ∧ (State.fillCache s ep e).cav = s.cav ∧
    (State.fillCache s ep e).sched = s.sched ∧ (State.fillCache s ep e).eng = s.eng ∧ (State.fillCache s ep e).geode = s.geode ∧
    (State.fillCache s ep e).boot = s.boot ∧ (State.fillCache s ep e).pwr = s.pwr ∧ (State.fillCache s ep e).sent = s.sent := by
  unfold State.fillCache
  (try dsimp only)
  (repeat' split) <;> (have hk1 := @State.evict_keeps; have hk2 := @State.touch_keeps; simp [hk1, hk2, State.KeepsOuter, State.KeepsInner, State.KeepsCore])

theorem State.setEntry_keeps (s : State) (ep : EpId) (e : EpEntry) :
    s.KeepsOuter (State.setEntry s ep e) ∧ s.KeepsInner (State.setEntry s ep e) ∧ (State.setEntry s ep e).regs = s.regs ∧
    (State.setEntry s ep e).mem = s.mem ∧ (State.setEntry s ep e).beat = s.beat ∧ (State.setEntry s ep e).lanes = s.lanes ∧
    (State.setEntry s ep e).line = s.line ∧ (State.setEntry s ep e).ports = s.ports ∧ (State.setEntry s ep e).cav = s.cav ∧
    (State.setEntry s ep e).sched = s.sched ∧ (State.setEntry s ep e).eng = s.eng ∧ (State.setEntry s ep e).geode = s.geode ∧
    (State.setEntry s ep e).boot = s.boot ∧ (State.setEntry s ep e).pwr = s.pwr ∧ (State.setEntry s ep e).freeCtr = s.freeCtr ∧
    (State.setEntry s ep e).sent = s.sent := by
  unfold State.setEntry
  (try dsimp only)
  (repeat' split) <;> (have hk1 := @State.setTable_keeps; simp [hk1, State.KeepsOuter, State.KeepsInner, State.KeepsCore])

theorem State.lookup_keeps (s : State) (ep : EpId) (absent : Option EpId) :
    s.KeepsOuter (State.lookup s ep absent).1 ∧ s.KeepsInner (State.lookup s ep absent).1 ∧ (State.lookup s ep absent).1.mem = s.mem ∧
    (State.lookup s ep absent).1.beat = s.beat ∧ (State.lookup s ep absent).1.lanes = s.lanes ∧
    (State.lookup s ep absent).1.line = s.line ∧ (State.lookup s ep absent).1.ports = s.ports ∧ (State.lookup s ep absent).1.cav = s.cav ∧
    (State.lookup s ep absent).1.sched = s.sched ∧ (State.lookup s ep absent).1.eng = s.eng ∧
    (State.lookup s ep absent).1.geode = s.geode ∧ (State.lookup s ep absent).1.boot = s.boot ∧ (State.lookup s ep absent).1.pwr = s.pwr ∧
    (State.lookup s ep absent).1.freeCtr = s.freeCtr ∧ (State.lookup s ep absent).1.sent = s.sent := by
  unfold State.lookup
  (try dsimp only)
  (repeat' split) <;> (have hk1 := @State.touch_keeps; simp [hk1, State.KeepsOuter, State.KeepsInner, State.KeepsCore])

theorem State.sumpError_keeps (s : State) (addr : Nat) (region : Nat) :
    s.KeepsOuter (State.sumpError s addr region) ∧ s.KeepsInner (State.sumpError s addr region) ∧
    s.KeepsCore (State.sumpError s addr region) ∧ (State.sumpError s addr region).mem = s.mem ∧
    (State.sumpError s addr region).line = s.line ∧ (State.sumpError s addr region).ports = s.ports ∧
    (State.sumpError s addr region).geode = s.geode ∧ (State.sumpError s addr region).freeCtr = s.freeCtr ∧
    (State.sumpError s addr region).sent = s.sent := by
  unfold State.sumpError
  (try dsimp only)
  (repeat' split) <;> simp [State.KeepsOuter, State.KeepsInner, State.KeepsCore]

theorem State.sourceEntry_keeps (s : State) (p : EgressPort) (f : Frame) (srcDefault : Bool) (absent : Option EpId) :
    s.KeepsOuter (State.sourceEntry s p f srcDefault absent).1 ∧ s.KeepsInner (State.sourceEntry s p f srcDefault absent).1 ∧
    (State.sourceEntry s p f srcDefault absent).1.mem = s.mem ∧ (State.sourceEntry s p f srcDefault absent).1.beat = s.beat ∧
    (State.sourceEntry s p f srcDefault absent).1.lanes = s.lanes ∧ (State.sourceEntry s p f srcDefault absent).1.line = s.line ∧
    (State.sourceEntry s p f srcDefault absent).1.ports = s.ports ∧ (State.sourceEntry s p f srcDefault absent).1.cav = s.cav ∧
    (State.sourceEntry s p f srcDefault absent).1.sched = s.sched ∧ (State.sourceEntry s p f srcDefault absent).1.eng = s.eng ∧
    (State.sourceEntry s p f srcDefault absent).1.geode = s.geode ∧ (State.sourceEntry s p f srcDefault absent).1.boot = s.boot ∧
    (State.sourceEntry s p f srcDefault absent).1.pwr = s.pwr ∧ (State.sourceEntry s p f srcDefault absent).1.freeCtr = s.freeCtr ∧
    (State.sourceEntry s p f srcDefault absent).1.sent = s.sent := by
  unfold State.sourceEntry
  (try dsimp only)
  (repeat' split) <;> (try simp only [Prod.ext_iff] at *) <;> (try casesm* _ ∧ _) <;> subst_vars <;>
    (have hk1 := @State.lookup_keeps; simp [hk1, State.KeepsOuter, State.KeepsInner, State.KeepsCore])

theorem State.destination_keeps (s : State) (f : Frame) (absent : Option EpId) :
    s.KeepsOuter (State.destination s f absent).1 ∧ s.KeepsInner (State.destination s f absent).1 ∧
    (State.destination s f absent).1.mem = s.mem ∧ (State.destination s f absent).1.beat = s.beat ∧
    (State.destination s f absent).1.lanes = s.lanes ∧ (State.destination s f absent).1.line = s.line ∧
    (State.destination s f absent).1.ports = s.ports ∧ (State.destination s f absent).1.cav = s.cav ∧
    (State.destination s f absent).1.sched = s.sched ∧ (State.destination s f absent).1.eng = s.eng ∧
    (State.destination s f absent).1.geode = s.geode ∧ (State.destination s f absent).1.boot = s.boot ∧
    (State.destination s f absent).1.pwr = s.pwr ∧ (State.destination s f absent).1.freeCtr = s.freeCtr ∧
    (State.destination s f absent).1.sent = s.sent := by
  unfold State.destination
  (try dsimp only)
  (repeat' split) <;> (try simp only [Prod.ext_iff] at *) <;> (try casesm* _ ∧ _) <;> subst_vars <;>
    (have hk1 := @State.lookup_keeps; simp [hk1, State.KeepsOuter, State.KeepsInner, State.KeepsCore])

theorem State.copies_keeps (s : State) (p : EgressPort) (f : Frame) (src : Option EpEntry) (d : Dest) :
    s.KeepsOuter (State.copies s p f src d).1 ∧ s.KeepsInner (State.copies s p f src d).1 ∧ s.KeepsCore (State.copies s p f src d).1 ∧
    (State.copies s p f src d).1.mem = s.mem ∧ (State.copies s p f src d).1.line = s.line ∧ (State.copies s p f src d).1.ports = s.ports ∧
    (State.copies s p f src d).1.cav = s.cav ∧ (State.copies s p f src d).1.geode = s.geode ∧
    (State.copies s p f src d).1.freeCtr = s.freeCtr ∧ (State.copies s p f src d).1.sent = s.sent := by
  unfold State.copies
  (try dsimp only)
  (repeat' split) <;> simp [State.KeepsOuter, State.KeepsInner, State.KeepsCore]

theorem State.police_keeps (s : State) (p : EgressPort) (f : Frame) (src : Option EpEntry) :
    s.KeepsOuter (State.police s p f src).1 ∧ s.KeepsInner (State.police s p f src).1 ∧ (State.police s p f src).1.mem = s.mem ∧
    (State.police s p f src).1.beat = s.beat ∧ (State.police s p f src).1.lanes = s.lanes ∧ (State.police s p f src).1.line = s.line ∧
    (State.police s p f src).1.ports = s.ports ∧ (State.police s p f src).1.eng = s.eng ∧ (State.police s p f src).1.geode = s.geode ∧
    (State.police s p f src).1.boot = s.boot ∧ (State.police s p f src).1.pwr = s.pwr ∧ (State.police s p f src).1.freeCtr = s.freeCtr ∧
    (State.police s p f src).1.sent = s.sent := by
  unfold State.police
  (try dsimp only)
  (repeat' split) <;> (have hk1 := @State.countColour_keeps; have hk2 := @State.countPair_keeps; have hk3 := @State.policeDefault_keeps; have hk4 := @State.setEntry_keeps; simp [hk1, hk2, hk3, hk4, State.KeepsOuter, State.KeepsInner, State.KeepsCore])

theorem State.writeHeader_keeps (s : State) (p : EgressPort) (f : Frame) (src : Option EpEntry) (yellow : Bool) :
    s.KeepsOuter (State.writeHeader s p f src yellow).1 ∧ s.KeepsInner (State.writeHeader s p f src yellow).1 ∧
    (State.writeHeader s p f src yellow).1.regs = s.regs ∧ (State.writeHeader s p f src yellow).1.mem = s.mem ∧
    (State.writeHeader s p f src yellow).1.beat = s.beat ∧ (State.writeHeader s p f src yellow).1.lanes = s.lanes ∧
    (State.writeHeader s p f src yellow).1.line = s.line ∧ (State.writeHeader s p f src yellow).1.ports = s.ports ∧
    (State.writeHeader s p f src yellow).1.cav = s.cav ∧ (State.writeHeader s p f src yellow).1.sched = s.sched ∧
    (State.writeHeader s p f src yellow).1.eng = s.eng ∧ (State.writeHeader s p f src yellow).1.geode = s.geode ∧
    (State.writeHeader s p f src yellow).1.boot = s.boot ∧ (State.writeHeader s p f src yellow).1.pwr = s.pwr ∧
    (State.writeHeader s p f src yellow).1.sent = s.sent := by
  unfold State.writeHeader
  (try dsimp only)
  (repeat' split) <;> (have hk1 := @State.setEntry_keeps; simp [hk1, State.KeepsOuter, State.KeepsInner, State.KeepsCore])

theorem State.judge_keeps (s : State) (p : EgressPort) (f : Frame) (srcDefault : Bool) (absent : Option EpId) :
    s.KeepsOuter (State.judge s p f srcDefault absent).1 ∧ s.KeepsInner (State.judge s p f srcDefault absent).1 ∧
    (State.judge s p f srcDefault absent).1.mem = s.mem ∧ (State.judge s p f srcDefault absent).1.beat = s.beat ∧
    (State.judge s p f srcDefault absent).1.lanes = s.lanes ∧ (State.judge s p f srcDefault absent).1.line = s.line ∧
    (State.judge s p f srcDefault absent).1.ports = s.ports ∧ (State.judge s p f srcDefault absent).1.eng = s.eng ∧
    (State.judge s p f srcDefault absent).1.geode = s.geode ∧ (State.judge s p f srcDefault absent).1.boot = s.boot ∧
    (State.judge s p f srcDefault absent).1.pwr = s.pwr ∧ (State.judge s p f srcDefault absent).1.sent = s.sent := by
  unfold State.judge
  (try dsimp only)
  (repeat' split) <;> (try simp only [Prod.ext_iff] at *) <;> (try casesm* _ ∧ _) <;> subst_vars <;>
    (have hk1 := @State.copies_keeps; have hk2 := @State.destination_keeps; have hk3 := @State.police_keeps; have hk4 := @State.sourceEntry_keeps; have hk5 := @State.writeHeader_keeps; simp [hk1, hk2, hk3, hk4, hk5, State.KeepsOuter, State.KeepsInner, State.KeepsCore])

theorem State.siftCopies_keeps (s : State) (y1 : List (Frame × List EgressPort)) :
    s.KeepsOuter (State.siftCopies s y1).1 ∧ s.KeepsCore (State.siftCopies s y1).1 ∧ (State.siftCopies s y1).1.mem = s.mem ∧
    (State.siftCopies s y1).1.line = s.line ∧ (State.siftCopies s y1).1.ports = s.ports ∧ (State.siftCopies s y1).1.echo = s.echo ∧
    (State.siftCopies s y1).1.cav = s.cav ∧ (State.siftCopies s y1).1.acc = s.acc ∧ (State.siftCopies s y1).1.geode = s.geode ∧
    (State.siftCopies s y1).1.usb = s.usb ∧ (State.siftCopies s y1).1.log = s.log ∧ (State.siftCopies s y1).1.faultN = s.faultN ∧
    (State.siftCopies s y1).1.freeCtr = s.freeCtr ∧ (State.siftCopies s y1).1.sent = s.sent := by
  fun_induction State.siftCopies s y1 <;> (try simp only [Prod.ext_iff] at *) <;> (try casesm* _ ∧ _) <;> subst_vars <;>
    (have hk1 := @State.twinCheck_keeps; simp_all +zetaDelta [hk1, apply_ite Prod.fst, State.ite_fields, State.KeepsOuter, State.KeepsInner, State.KeepsCore])

theorem State.placeCopies_keeps (s : State) (ingress : EgressPort) (matched : List MatchedGen) (credit : Nat) (start : Nat) (y1 : List (Frame × List EgressPort)) :
    s.KeepsOuter (State.placeCopies s ingress matched credit start y1) ∧
    s.KeepsInner (State.placeCopies s ingress matched credit start y1) ∧
    s.KeepsCore (State.placeCopies s ingress matched credit start y1) ∧
    (State.placeCopies s ingress matched credit start y1).line = s.line ∧
    (State.placeCopies s ingress matched credit start y1).geode = s.geode ∧
    (State.placeCopies s ingress matched credit start y1).sent = s.sent := by
  fun_induction State.placeCopies s ingress matched credit start y1 <;> (try simp only [Prod.ext_iff] at *) <;> (try casesm* _ ∧ _) <;> subst_vars <;>
    (have hk1 := @State.place_keeps; have hk2 := @State.store_keeps; simp_all +zetaDelta [hk1, hk2, State.KeepsOuter, State.KeepsInner, State.KeepsCore])

theorem State.accept_keeps (s : State) (ingress : EgressPort) (f : Frame) (a : Accepted) :
    s.KeepsOuter (State.accept s ingress f a) ∧ s.KeepsCore (State.accept s ingress f a) ∧ (State.accept s ingress f a).line = s.line ∧
    (State.accept s ingress f a).echo = s.echo ∧ (State.accept s ingress f a).acc = s.acc ∧ (State.accept s ingress f a).geode = s.geode ∧
    (State.accept s ingress f a).usb = s.usb ∧ (State.accept s ingress f a).log = s.log ∧ (State.accept s ingress f a).faultN = s.faultN ∧
    (State.accept s ingress f a).sent = s.sent := by
  unfold State.accept
  (try dsimp only)
  (repeat' split) <;> (have hk1 := @State.copies_keeps; have hk2 := @State.keyBad_keeps; have hk3 := @State.placeCopies_keeps; have hk4 := @State.returnCredit_keeps; have hk5 := @State.siftCopies_keeps; simp [hk1, hk2, hk3, hk4, hk5, State.KeepsOuter, State.KeepsInner, State.KeepsCore])

theorem State.startFetch_keeps (s : State) (key : EpId) :
    s.KeepsOuter (State.startFetch s key) ∧ s.KeepsInner (State.startFetch s key) ∧ (State.startFetch s key).regs = s.regs ∧
    (State.startFetch s key).mem = s.mem ∧ (State.startFetch s key).beat = s.beat ∧ (State.startFetch s key).lanes = s.lanes ∧
    (State.startFetch s key).line = s.line ∧ (State.startFetch s key).ports = s.ports ∧ (State.startFetch s key).cav = s.cav ∧
    (State.startFetch s key).sched = s.sched ∧ (State.startFetch s key).eng = s.eng ∧ (State.startFetch s key).geode = s.geode ∧
    (State.startFetch s key).boot = s.boot ∧ (State.startFetch s key).pwr = s.pwr ∧ (State.startFetch s key).freeCtr = s.freeCtr ∧
    (State.startFetch s key).sent = s.sent := by
  unfold State.startFetch
  (try dsimp only)
  (repeat' split) <;> simp [State.KeepsOuter, State.KeepsInner, State.KeepsCore]

theorem State.enqueueMiss_keeps (s : State) (m : MissFrame) :
    s.KeepsOuter (State.enqueueMiss s m) ∧ s.KeepsInner (State.enqueueMiss s m) ∧ (State.enqueueMiss s m).regs = s.regs ∧
    (State.enqueueMiss s m).mem = s.mem ∧ (State.enqueueMiss s m).beat = s.beat ∧ (State.enqueueMiss s m).lanes = s.lanes ∧
    (State.enqueueMiss s m).line = s.line ∧ (State.enqueueMiss s m).ports = s.ports ∧ (State.enqueueMiss s m).cav = s.cav ∧
    (State.enqueueMiss s m).sched = s.sched ∧ (State.enqueueMiss s m).eng = s.eng ∧ (State.enqueueMiss s m).geode = s.geode ∧
    (State.enqueueMiss s m).boot = s.boot ∧ (State.enqueueMiss s m).pwr = s.pwr ∧ (State.enqueueMiss s m).freeCtr = s.freeCtr ∧
    (State.enqueueMiss s m).sent = s.sent := by
  unfold State.enqueueMiss
  (try dsimp only)
  (repeat' split) <;> (have hk1 := @State.startFetch_keeps; simp [hk1, State.KeepsOuter, State.KeepsInner, State.KeepsCore])

theorem State.dropFrame_keeps (s : State) (ingress : EgressPort) (f : Frame) :
    s.KeepsOuter (State.dropFrame s ingress f) ∧ s.KeepsInner (State.dropFrame s ingress f) ∧ s.KeepsCore (State.dropFrame s ingress f) ∧
    (State.dropFrame s ingress f).regs = s.regs ∧ (State.dropFrame s ingress f).mem = s.mem ∧ (State.dropFrame s ingress f).line = s.line ∧
    (State.dropFrame s ingress f).cav = s.cav ∧ (State.dropFrame s ingress f).geode = s.geode ∧
    (State.dropFrame s ingress f).freeCtr = s.freeCtr ∧ (State.dropFrame s ingress f).sent = s.sent := by
  unfold State.dropFrame
  (try dsimp only)
  (repeat' split) <;> (have hk1 := @State.returnCredit_keeps; simp [hk1, State.KeepsOuter, State.KeepsInner, State.KeepsCore])

theorem State.leaveDest_keeps (s : State) (m : MissFrame) :
    s.KeepsOuter (State.leaveDest s m) ∧ (State.leaveDest s m).beat = s.beat ∧ (State.leaveDest s m).lanes = s.lanes ∧
    (State.leaveDest s m).line = s.line ∧ (State.leaveDest s m).echo = s.echo ∧ (State.leaveDest s m).eng = s.eng ∧
    (State.leaveDest s m).acc = s.acc ∧ (State.leaveDest s m).geode = s.geode ∧ (State.leaveDest s m).boot = s.boot ∧
    (State.leaveDest s m).pwr = s.pwr ∧ (State.leaveDest s m).usb = s.usb ∧ (State.leaveDest s m).log = s.log ∧
    (State.leaveDest s m).faultN = s.faultN ∧ (State.leaveDest s m).sent = s.sent := by
  unfold State.leaveDest
  (try dsimp only)
  (repeat' split) <;> (try simp only [Prod.ext_iff] at *) <;> (try casesm* _ ∧ _) <;> subst_vars <;>
    (have hk1 := @State.accept_keeps; have hk2 := @State.copies_keeps; have hk3 := @State.dropFrame_keeps; have hk4 := @State.policeDefault_keeps; have hk5 := @State.writeHeader_keeps; simp [hk1, hk2, hk3, hk4, hk5, State.KeepsOuter, State.KeepsInner, State.KeepsCore])

theorem State.takeMiss_keeps (s : State) (m : MissFrame) :
    s.KeepsOuter (State.takeMiss s m) ∧ s.KeepsInner (State.takeMiss s m) ∧ (State.takeMiss s m).regs = s.regs ∧
    (State.takeMiss s m).mem = s.mem ∧ (State.takeMiss s m).beat = s.beat ∧ (State.takeMiss s m).lanes = s.lanes ∧
    (State.takeMiss s m).line = s.line ∧ (State.takeMiss s m).ports = s.ports ∧ (State.takeMiss s m).cav = s.cav ∧
    (State.takeMiss s m).sched = s.sched ∧ (State.takeMiss s m).eng = s.eng ∧ (State.takeMiss s m).geode = s.geode ∧
    (State.takeMiss s m).boot = s.boot ∧ (State.takeMiss s m).pwr = s.pwr ∧ (State.takeMiss s m).freeCtr = s.freeCtr ∧
    (State.takeMiss s m).sent = s.sent := by
  unfold State.takeMiss
  (try dsimp only)
  (repeat' split) <;> simp [State.KeepsOuter, State.KeepsInner, State.KeepsCore]

@[simp] theorem State.eachWaiting_regs (s : State) (key : EpId) {f : State → MissFrame → State} (h : ∀ t a1, (f t a1).regs = t.regs) :
    (State.eachWaiting s key f).regs = s.regs := by
  unfold State.eachWaiting; (try dsimp only); (repeat' split) <;> (have hk1 := @State.takeMiss_keeps; have hi := @State.ite_fields; simp [hk1, h, hi])

@[simp] theorem State.eachWaiting_mem (s : State) (key : EpId) {f : State → MissFrame → State} (h : ∀ t a1, (f t a1).mem = t.mem) :
    (State.eachWaiting s key f).mem = s.mem := by
  unfold State.eachWaiting; (try dsimp only); (repeat' split) <;> (have hk1 := @State.takeMiss_keeps; have hi := @State.ite_fields; simp [hk1, h, hi])

@[simp] theorem State.eachWaiting_heads (s : State) (key : EpId) {f : State → MissFrame → State} (h : ∀ t a1, (f t a1).heads = t.heads) :
    (State.eachWaiting s key f).heads = s.heads := by
  unfold State.eachWaiting; (try dsimp only); (repeat' split) <;> (have hk1 := @State.takeMiss_keeps; have hi := @State.ite_fields; simp [hk1, h, hi])

@[simp] theorem State.eachWaiting_beat (s : State) (key : EpId) {f : State → MissFrame → State} (h : ∀ t a1, (f t a1).beat = t.beat) :
    (State.eachWaiting s key f).beat = s.beat := by
  unfold State.eachWaiting; (try dsimp only); (repeat' split) <;> (have hk1 := @State.takeMiss_keeps; have hi := @State.ite_fields; simp [hk1, h, hi])

@[simp] theorem State.eachWaiting_lanes (s : State) (key : EpId) {f : State → MissFrame → State} (h : ∀ t a1, (f t a1).lanes = t.lanes) :
    (State.eachWaiting s key f).lanes = s.lanes := by
  unfold State.eachWaiting; (try dsimp only); (repeat' split) <;> (have hk1 := @State.takeMiss_keeps; have hi := @State.ite_fields; simp [hk1, h, hi])

@[simp] theorem State.eachWaiting_line (s : State) (key : EpId) {f : State → MissFrame → State} (h : ∀ t a1, (f t a1).line = t.line) :
    (State.eachWaiting s key f).line = s.line := by
  unfold State.eachWaiting; (try dsimp only); (repeat' split) <;> (have hk1 := @State.takeMiss_keeps; have hi := @State.ite_fields; simp [hk1, h, hi])

@[simp] theorem State.eachWaiting_ports (s : State) (key : EpId) {f : State → MissFrame → State} (h : ∀ t a1, (f t a1).ports = t.ports) :
    (State.eachWaiting s key f).ports = s.ports := by
  unfold State.eachWaiting; (try dsimp only); (repeat' split) <;> (have hk1 := @State.takeMiss_keeps; have hi := @State.ite_fields; simp [hk1, h, hi])

@[simp] theorem State.eachWaiting_echo (s : State) (key : EpId) {f : State → MissFrame → State} (h : ∀ t a1, (f t a1).echo = t.echo) :
    (State.eachWaiting s key f).echo = s.echo := by
  unfold State.eachWaiting; (try dsimp only); (repeat' split) <;> (have hk1 := @State.takeMiss_keeps; have hi := @State.ite_fields; simp [hk1, h, hi])

@[simp] theorem State.eachWaiting_cav (s : State) (key : EpId) {f : State → MissFrame → State} (h : ∀ t a1, (f t a1).cav = t.cav) :
    (State.eachWaiting s key f).cav = s.cav := by
  unfold State.eachWaiting; (try dsimp only); (repeat' split) <;> (have hk1 := @State.takeMiss_keeps; have hi := @State.ite_fields; simp [hk1, h, hi])

@[simp] theorem State.eachWaiting_sched (s : State) (key : EpId) {f : State → MissFrame → State} (h : ∀ t a1, (f t a1).sched = t.sched) :
    (State.eachWaiting s key f).sched = s.sched := by
  unfold State.eachWaiting; (try dsimp only); (repeat' split) <;> (have hk1 := @State.takeMiss_keeps; have hi := @State.ite_fields; simp [hk1, h, hi])

@[simp] theorem State.eachWaiting_twin (s : State) (key : EpId) {f : State → MissFrame → State} (h : ∀ t a1, (f t a1).twin = t.twin) :
    (State.eachWaiting s key f).twin = s.twin := by
  unfold State.eachWaiting; (try dsimp only); (repeat' split) <;> (have hk1 := @State.takeMiss_keeps; have hi := @State.ite_fields; simp [hk1, h, hi])

@[simp] theorem State.eachWaiting_eng (s : State) (key : EpId) {f : State → MissFrame → State} (h : ∀ t a1, (f t a1).eng = t.eng) :
    (State.eachWaiting s key f).eng = s.eng := by
  unfold State.eachWaiting; (try dsimp only); (repeat' split) <;> (have hk1 := @State.takeMiss_keeps; have hi := @State.ite_fields; simp [hk1, h, hi])

@[simp] theorem State.eachWaiting_acc (s : State) (key : EpId) {f : State → MissFrame → State} (h : ∀ t a1, (f t a1).acc = t.acc) :
    (State.eachWaiting s key f).acc = s.acc := by
  unfold State.eachWaiting; (try dsimp only); (repeat' split) <;> (have hk1 := @State.takeMiss_keeps; have hi := @State.ite_fields; simp [hk1, h, hi])

@[simp] theorem State.eachWaiting_geode (s : State) (key : EpId) {f : State → MissFrame → State} (h : ∀ t a1, (f t a1).geode = t.geode) :
    (State.eachWaiting s key f).geode = s.geode := by
  unfold State.eachWaiting; (try dsimp only); (repeat' split) <;> (have hk1 := @State.takeMiss_keeps; have hi := @State.ite_fields; simp [hk1, h, hi])

@[simp] theorem State.eachWaiting_boot (s : State) (key : EpId) {f : State → MissFrame → State} (h : ∀ t a1, (f t a1).boot = t.boot) :
    (State.eachWaiting s key f).boot = s.boot := by
  unfold State.eachWaiting; (try dsimp only); (repeat' split) <;> (have hk1 := @State.takeMiss_keeps; have hi := @State.ite_fields; simp [hk1, h, hi])

@[simp] theorem State.eachWaiting_pwr (s : State) (key : EpId) {f : State → MissFrame → State} (h : ∀ t a1, (f t a1).pwr = t.pwr) :
    (State.eachWaiting s key f).pwr = s.pwr := by
  unfold State.eachWaiting; (try dsimp only); (repeat' split) <;> (have hk1 := @State.takeMiss_keeps; have hi := @State.ite_fields; simp [hk1, h, hi])

@[simp] theorem State.eachWaiting_usb (s : State) (key : EpId) {f : State → MissFrame → State} (h : ∀ t a1, (f t a1).usb = t.usb) :
    (State.eachWaiting s key f).usb = s.usb := by
  unfold State.eachWaiting; (try dsimp only); (repeat' split) <;> (have hk1 := @State.takeMiss_keeps; have hi := @State.ite_fields; simp [hk1, h, hi])

@[simp] theorem State.eachWaiting_pd (s : State) (key : EpId) {f : State → MissFrame → State} (h : ∀ t a1, (f t a1).pd = t.pd) :
    (State.eachWaiting s key f).pd = s.pd := by
  unfold State.eachWaiting; (try dsimp only); (repeat' split) <;> (have hk1 := @State.takeMiss_keeps; have hi := @State.ite_fields; simp [hk1, h, hi])

@[simp] theorem State.eachWaiting_mon (s : State) (key : EpId) {f : State → MissFrame → State} (h : ∀ t a1, (f t a1).mon = t.mon) :
    (State.eachWaiting s key f).mon = s.mon := by
  unfold State.eachWaiting; (try dsimp only); (repeat' split) <;> (have hk1 := @State.takeMiss_keeps; have hi := @State.ite_fields; simp [hk1, h, hi])

@[simp] theorem State.eachWaiting_log (s : State) (key : EpId) {f : State → MissFrame → State} (h : ∀ t a1, (f t a1).log = t.log) :
    (State.eachWaiting s key f).log = s.log := by
  unfold State.eachWaiting; (try dsimp only); (repeat' split) <;> (have hk1 := @State.takeMiss_keeps; have hi := @State.ite_fields; simp [hk1, h, hi])

@[simp] theorem State.eachWaiting_faultN (s : State) (key : EpId) {f : State → MissFrame → State} (h : ∀ t a1, (f t a1).faultN = t.faultN) :
    (State.eachWaiting s key f).faultN = s.faultN := by
  unfold State.eachWaiting; (try dsimp only); (repeat' split) <;> (have hk1 := @State.takeMiss_keeps; have hi := @State.ite_fields; simp [hk1, h, hi])

@[simp] theorem State.eachWaiting_carStatus (s : State) (key : EpId) {f : State → MissFrame → State} (h : ∀ t a1, (f t a1).carStatus = t.carStatus) :
    (State.eachWaiting s key f).carStatus = s.carStatus := by
  unfold State.eachWaiting; (try dsimp only); (repeat' split) <;> (have hk1 := @State.takeMiss_keeps; have hi := @State.ite_fields; simp [hk1, h, hi])

@[simp] theorem State.eachWaiting_ticks (s : State) (key : EpId) {f : State → MissFrame → State} (h : ∀ t a1, (f t a1).ticks = t.ticks) :
    (State.eachWaiting s key f).ticks = s.ticks := by
  unfold State.eachWaiting; (try dsimp only); (repeat' split) <;> (have hk1 := @State.takeMiss_keeps; have hi := @State.ite_fields; simp [hk1, h, hi])

@[simp] theorem State.eachWaiting_freeCtr (s : State) (key : EpId) {f : State → MissFrame → State} (h : ∀ t a1, (f t a1).freeCtr = t.freeCtr) :
    (State.eachWaiting s key f).freeCtr = s.freeCtr := by
  unfold State.eachWaiting; (try dsimp only); (repeat' split) <;> (have hk1 := @State.takeMiss_keeps; have hi := @State.ite_fields; simp [hk1, h, hi])

@[simp] theorem State.eachWaiting_sent (s : State) (key : EpId) {f : State → MissFrame → State} (h : ∀ t a1, (f t a1).sent = t.sent) :
    (State.eachWaiting s key f).sent = s.sent := by
  unfold State.eachWaiting; (try dsimp only); (repeat' split) <;> (have hk1 := @State.takeMiss_keeps; have hi := @State.ite_fields; simp [hk1, h, hi])

@[simp] theorem State.eachWaiting_pending (s : State) (key : EpId) {f : State → MissFrame → State} (h : ∀ t a1, (f t a1).pending = t.pending) :
    (State.eachWaiting s key f).pending = s.pending := by
  unfold State.eachWaiting; (try dsimp only); (repeat' split) <;> (have hk1 := @State.takeMiss_keeps; have hi := @State.ite_fields; simp [hk1, h, hi])

theorem State.leaveMiss_keeps (y1 : Nat) (y2 : State) (y3 : MissFrame) :
    y2.KeepsOuter (State.leaveMiss y1 y2 y3) ∧ (State.leaveMiss y1 y2 y3).beat = y2.beat ∧ (State.leaveMiss y1 y2 y3).lanes = y2.lanes ∧
    (State.leaveMiss y1 y2 y3).line = y2.line ∧ (State.leaveMiss y1 y2 y3).echo = y2.echo ∧ (State.leaveMiss y1 y2 y3).eng = y2.eng ∧
    (State.leaveMiss y1 y2 y3).acc = y2.acc ∧ (State.leaveMiss y1 y2 y3).geode = y2.geode ∧ (State.leaveMiss y1 y2 y3).boot = y2.boot ∧
    (State.leaveMiss y1 y2 y3).pwr = y2.pwr ∧ (State.leaveMiss y1 y2 y3).usb = y2.usb ∧ (State.leaveMiss y1 y2 y3).log = y2.log ∧
    (State.leaveMiss y1 y2 y3).faultN = y2.faultN ∧ (State.leaveMiss y1 y2 y3).sent = y2.sent := by
  induction y1 generalizing y2 y3 with
  | zero => (have hk1 := @State.accept_keeps; have hk2 := @State.dropFrame_keeps; have hk3 := @State.enqueueMiss_keeps; have hk4 := @State.judge_keeps; have hk5 := @State.leaveDest_keeps; have hk6 := @State.startFetch_keeps; simp [hk1, hk2, hk3, hk4, hk5, hk6, State.leaveMiss, State.KeepsOuter, State.KeepsInner, State.KeepsCore])
  | succ n ih =>
    unfold State.leaveMiss
    dsimp only
    (repeat' split) <;> (try simp only [Prod.ext_iff] at *) <;> (try casesm* _ ∧ _) <;> subst_vars <;>
      (have hk1 := @State.accept_keeps; have hk2 := @State.dropFrame_keeps; have hk3 := @State.enqueueMiss_keeps; have hk4 := @State.judge_keeps; have hk5 := @State.leaveDest_keeps; have hk6 := @State.startFetch_keeps; simp_all [hk1, hk2, hk3, hk4, hk5, hk6, State.ite_fields, State.KeepsOuter, State.KeepsInner, State.KeepsCore])

theorem State.release1_keeps (s : State) (m : MissFrame) :
    s.KeepsOuter (State.release1 s m) ∧ (State.release1 s m).beat = s.beat ∧ (State.release1 s m).lanes = s.lanes ∧
    (State.release1 s m).line = s.line ∧ (State.release1 s m).echo = s.echo ∧ (State.release1 s m).eng = s.eng ∧
    (State.release1 s m).acc = s.acc ∧ (State.release1 s m).geode = s.geode ∧ (State.release1 s m).boot = s.boot ∧
    (State.release1 s m).pwr = s.pwr ∧ (State.release1 s m).usb = s.usb ∧ (State.release1 s m).log = s.log ∧
    (State.release1 s m).faultN = s.faultN ∧ (State.release1 s m).sent = s.sent := by
  unfold State.release1
  (try dsimp only)
  (repeat' split) <;> (have hk1 := @State.leaveMiss_keeps; simp [hk1, State.KeepsOuter, State.KeepsInner, State.KeepsCore])

theorem State.releaseKey_keeps (s : State) (key : EpId) :
    s.KeepsOuter (State.releaseKey s key) ∧ (State.releaseKey s key).beat = s.beat ∧ (State.releaseKey s key).lanes = s.lanes ∧
    (State.releaseKey s key).line = s.line ∧ (State.releaseKey s key).echo = s.echo ∧ (State.releaseKey s key).eng = s.eng ∧
    (State.releaseKey s key).acc = s.acc ∧ (State.releaseKey s key).geode = s.geode ∧ (State.releaseKey s key).boot = s.boot ∧
    (State.releaseKey s key).pwr = s.pwr ∧ (State.releaseKey s key).usb = s.usb ∧ (State.releaseKey s key).log = s.log ∧
    (State.releaseKey s key).faultN = s.faultN ∧ (State.releaseKey s key).sent = s.sent := by
  unfold State.releaseKey
  (try dsimp only)
  (repeat' split) <;> (have hk1 := @State.release1_keeps; simp [hk1, State.KeepsOuter, State.KeepsInner, State.KeepsCore])

theorem State.handle_keeps (s : State) (p : EgressPort) (f : Frame) (srcDefault : Bool) (absent : Option EpId) :
    s.KeepsOuter (State.handle s p f srcDefault absent) ∧ (State.handle s p f srcDefault absent).beat = s.beat ∧
    (State.handle s p f srcDefault absent).lanes = s.lanes ∧ (State.handle s p f srcDefault absent).line = s.line ∧
    (State.handle s p f srcDefault absent).echo = s.echo ∧ (State.handle s p f srcDefault absent).eng = s.eng ∧
    (State.handle s p f srcDefault absent).acc = s.acc ∧ (State.handle s p f srcDefault absent).geode = s.geode ∧
    (State.handle s p f srcDefault absent).boot = s.boot ∧ (State.handle s p f srcDefault absent).pwr = s.pwr ∧
    (State.handle s p f srcDefault absent).usb = s.usb ∧ (State.handle s p f srcDefault absent).log = s.log ∧
    (State.handle s p f srcDefault absent).faultN = s.faultN ∧ (State.handle s p f srcDefault absent).sent = s.sent := by
  unfold State.handle
  (try dsimp only)
  (repeat' split) <;> (try simp only [Prod.ext_iff] at *) <;> (try casesm* _ ∧ _) <;> subst_vars <;>
    (have hk1 := @State.accept_keeps; have hk2 := @State.dropFrame_keeps; have hk3 := @State.enqueueMiss_keeps; have hk4 := @State.judge_keeps; have hk5 := @State.release1_keeps; have hk6 := @State.releaseKey_keeps; have hk7 := @State.startFetch_keeps; simp [hk1, hk2, hk3, hk4, hk5, hk6, hk7, State.KeepsOuter, State.KeepsInner, State.KeepsCore])

theorem State.zombie_keeps (s : State) (t : EngineTag) :
    s.KeepsOuter (State.zombie s t) ∧ s.KeepsInner (State.zombie s t) ∧ s.KeepsCore (State.zombie s t) ∧ (State.zombie s t).mem = s.mem ∧
    (State.zombie s t).line = s.line ∧ (State.zombie s t).ports = s.ports ∧ (State.zombie s t).cav = s.cav ∧
    (State.zombie s t).geode = s.geode ∧ (State.zombie s t).freeCtr = s.freeCtr ∧ (State.zombie s t).sent = s.sent := by
  unfold State.zombie
  (try dsimp only)
  (repeat' split) <;> simp [State.KeepsOuter, State.KeepsInner, State.KeepsCore]

theorem State.checkIds_keeps (s : State) (p : EgressPort) (f : Frame) :
    s.KeepsOuter (State.checkIds s p f).1 ∧ s.KeepsInner (State.checkIds s p f).1 ∧ s.KeepsCore (State.checkIds s p f).1 ∧
    (State.checkIds s p f).1.mem = s.mem ∧ (State.checkIds s p f).1.line = s.line ∧ (State.checkIds s p f).1.ports = s.ports ∧
    (State.checkIds s p f).1.cav = s.cav ∧ (State.checkIds s p f).1.geode = s.geode ∧ (State.checkIds s p f).1.freeCtr = s.freeCtr ∧
    (State.checkIds s p f).1.sent = s.sent := by
  unfold State.checkIds
  (try dsimp only)
  (repeat' split) <;> simp [State.KeepsOuter, State.KeepsInner, State.KeepsCore]

theorem State.precheck_keeps (s : State) (p : EgressPort) (rx : RxFrame) :
    s.KeepsOuter (State.precheck s p rx).1 ∧ s.KeepsInner (State.precheck s p rx).1 ∧ s.KeepsCore (State.precheck s p rx).1 ∧
    (State.precheck s p rx).1.mem = s.mem ∧ (State.precheck s p rx).1.line = s.line ∧ (State.precheck s p rx).1.ports = s.ports ∧
    (State.precheck s p rx).1.cav = s.cav ∧ (State.precheck s p rx).1.freeCtr = s.freeCtr ∧ (State.precheck s p rx).1.sent = s.sent := by
  unfold State.precheck
  (try dsimp only)
  (repeat' split) <;> (have hk1 := @State.checkIds_keeps; have hk2 := @State.checkTag_keeps; simp [hk1, hk2, State.KeepsOuter, State.KeepsInner, State.KeepsCore])

theorem State.mapFrame_keeps (s : State) (n : LocalPort) (bytes : List Byte) :
    s.KeepsOuter (State.mapFrame s n bytes).1 ∧ s.KeepsInner (State.mapFrame s n bytes).1 ∧ s.KeepsCore (State.mapFrame s n bytes).1 ∧
    (State.mapFrame s n bytes).1.mem = s.mem ∧ (State.mapFrame s n bytes).1.line = s.line ∧ (State.mapFrame s n bytes).1.ports = s.ports ∧
    (State.mapFrame s n bytes).1.cav = s.cav ∧ (State.mapFrame s n bytes).1.geode = s.geode ∧
    (State.mapFrame s n bytes).1.freeCtr = s.freeCtr ∧ (State.mapFrame s n bytes).1.sent = s.sent := by
  unfold State.mapFrame
  (try dsimp only)
  (repeat' split) <;> simp [State.KeepsOuter, State.KeepsInner, State.KeepsCore]

theorem State.countLocal_keeps (s : State) (p : EgressPort) (frames : Nat → Nat) (bytes : Nat → Nat) (n : Nat) :
    s.KeepsOuter (State.countLocal s p frames bytes n) ∧ s.KeepsInner (State.countLocal s p frames bytes n) ∧
    s.KeepsCore (State.countLocal s p frames bytes n) ∧ (State.countLocal s p frames bytes n).mem = s.mem ∧
    (State.countLocal s p frames bytes n).line = s.line ∧ (State.countLocal s p frames bytes n).ports = s.ports ∧
    (State.countLocal s p frames bytes n).cav = s.cav ∧ (State.countLocal s p frames bytes n).geode = s.geode ∧
    (State.countLocal s p frames bytes n).freeCtr = s.freeCtr ∧ (State.countLocal s p frames bytes n).sent = s.sent := by
  unfold State.countLocal
  (try dsimp only)
  (repeat' split) <;> simp [State.KeepsOuter, State.KeepsInner, State.KeepsCore]

theorem State.chamberUe_keeps (s : State) (c : ChamberIx) :
    s.KeepsOuter (State.chamberUe s c) ∧ s.KeepsInner (State.chamberUe s c) ∧ s.KeepsCore (State.chamberUe s c) ∧
    (State.chamberUe s c).mem = s.mem ∧ (State.chamberUe s c).line = s.line ∧ (State.chamberUe s c).ports = s.ports ∧
    (State.chamberUe s c).geode = s.geode ∧ (State.chamberUe s c).freeCtr = s.freeCtr ∧ (State.chamberUe s c).sent = s.sent := by
  unfold State.chamberUe
  (try dsimp only)
  (repeat' split) <;> simp [State.KeepsOuter, State.KeepsInner, State.KeepsCore]

theorem State.countCe_keeps (s : State) (found : List CellError) :
    s.KeepsOuter (State.countCe s found) ∧ s.KeepsInner (State.countCe s found) ∧ s.KeepsCore (State.countCe s found) ∧
    (State.countCe s found).mem = s.mem ∧ (State.countCe s found).line = s.line ∧ (State.countCe s found).ports = s.ports ∧
    (State.countCe s found).cav = s.cav ∧ (State.countCe s found).geode = s.geode ∧ (State.countCe s found).freeCtr = s.freeCtr ∧
    (State.countCe s found).sent = s.sent := by
  unfold State.countCe
  (try dsimp only)
  (repeat' split) <;> simp [State.KeepsOuter, State.KeepsInner, State.KeepsCore]

theorem State.discardRef_keeps (s : State) (p : EgressPort) (c : Cls) (f : Stored) (counter : Nat) :
    s.KeepsOuter (State.discardRef s p c f counter) ∧ s.KeepsCore (State.discardRef s p c f counter) ∧
    (State.discardRef s p c f counter).mem = s.mem ∧ (State.discardRef s p c f counter).line = s.line ∧
    (State.discardRef s p c f counter).ports = s.ports ∧ (State.discardRef s p c f counter).echo = s.echo ∧
    (State.discardRef s p c f counter).acc = s.acc ∧ (State.discardRef s p c f counter).geode = s.geode ∧
    (State.discardRef s p c f counter).usb = s.usb ∧ (State.discardRef s p c f counter).log = s.log ∧
    (State.discardRef s p c f counter).faultN = s.faultN ∧ (State.discardRef s p c f counter).freeCtr = s.freeCtr ∧
    (State.discardRef s p c f counter).sent = s.sent := by
  unfold State.discardRef
  (try dsimp only)
  (repeat' split) <;> (have hk1 := @State.dropRef_keeps; have hk2 := @State.unmarkTwin_keeps; simp [hk1, hk2, State.KeepsOuter, State.KeepsInner, State.KeepsCore])

theorem State.cleanHead_keeps (p : EgressPort) (c : Cls) (y1 : Nat) (y2 : State) :
    y2.KeepsOuter (State.cleanHead p c y1 y2) ∧ y2.KeepsCore (State.cleanHead p c y1 y2) ∧ (State.cleanHead p c y1 y2).mem = y2.mem ∧
    (State.cleanHead p c y1 y2).line = y2.line ∧ (State.cleanHead p c y1 y2).ports = y2.ports ∧
    (State.cleanHead p c y1 y2).echo = y2.echo ∧ (State.cleanHead p c y1 y2).acc = y2.acc ∧ (State.cleanHead p c y1 y2).geode = y2.geode ∧
    (State.cleanHead p c y1 y2).usb = y2.usb ∧ (State.cleanHead p c y1 y2).log = y2.log ∧ (State.cleanHead p c y1 y2).faultN = y2.faultN ∧
    (State.cleanHead p c y1 y2).freeCtr = y2.freeCtr ∧ (State.cleanHead p c y1 y2).sent = y2.sent := by
  fun_induction State.cleanHead p c y1 y2 <;> (try simp only [Prod.ext_iff] at *) <;> (try casesm* _ ∧ _) <;> subst_vars <;>
    (have hk1 := @State.discardRef_keeps; simp_all +zetaDelta [hk1, State.KeepsOuter, State.KeepsInner, State.KeepsCore])

theorem State.debitCommitted_keeps (s : State) (p : EgressPort) (c : Cls) (n : Nat) :
    s.KeepsOuter (State.debitCommitted s p c n) ∧ s.KeepsInner (State.debitCommitted s p c n) ∧
    s.KeepsCore (State.debitCommitted s p c n) ∧ (State.debitCommitted s p c n).mem = s.mem ∧
    (State.debitCommitted s p c n).line = s.line ∧ (State.debitCommitted s p c n).ports = s.ports ∧
    (State.debitCommitted s p c n).cav = s.cav ∧ (State.debitCommitted s p c n).geode = s.geode ∧
    (State.debitCommitted s p c n).freeCtr = s.freeCtr ∧ (State.debitCommitted s p c n).sent = s.sent := by
  unfold State.debitCommitted
  (try dsimp only)
  (repeat' split) <;> simp [State.KeepsOuter, State.KeepsInner, State.KeepsCore]

theorem State.debitRobin_keeps (s : State) (p : EgressPort) (cs : List (Cls × Nat)) (c : Cls) (n : Nat) (idx : Nat) :
    s.KeepsOuter (State.debitRobin s p cs c n idx) ∧ s.KeepsInner (State.debitRobin s p cs c n idx) ∧
    (State.debitRobin s p cs c n idx).mem = s.mem ∧ (State.debitRobin s p cs c n idx).beat = s.beat ∧
    (State.debitRobin s p cs c n idx).lanes = s.lanes ∧ (State.debitRobin s p cs c n idx).line = s.line ∧
    (State.debitRobin s p cs c n idx).ports = s.ports ∧ (State.debitRobin s p cs c n idx).tun = s.tun ∧
    (State.debitRobin s p cs c n idx).cav = s.cav ∧ (State.debitRobin s p cs c n idx).eng = s.eng ∧
    (State.debitRobin s p cs c n idx).geode = s.geode ∧ (State.debitRobin s p cs c n idx).boot = s.boot ∧
    (State.debitRobin s p cs c n idx).pwr = s.pwr ∧ (State.debitRobin s p cs c n idx).freeCtr = s.freeCtr ∧
    (State.debitRobin s p cs c n idx).sent = s.sent := by
  unfold State.debitRobin
  (try dsimp only)
  (repeat' split) <;> simp [State.KeepsOuter, State.KeepsInner, State.KeepsCore]

theorem State.joinOwn_keeps (s : State) (t : TrunkPort) (f : Frame) :
    s.KeepsOuter (State.joinOwn s t f) ∧ s.KeepsInner (State.joinOwn s t f) ∧ s.KeepsCore (State.joinOwn s t f) ∧
    (State.joinOwn s t f).line = s.line ∧ (State.joinOwn s t f).ports = s.ports ∧ (State.joinOwn s t f).geode = s.geode ∧
    (State.joinOwn s t f).sent = s.sent := by
  unfold State.joinOwn
  (try dsimp only)
  (repeat' split) <;> (have hk1 := @State.joinQueue_keeps; have hk2 := @State.modStored_keeps; have hk3 := @State.store_keeps; simp [hk1, hk2, hk3, State.KeepsOuter, State.KeepsInner, State.KeepsCore])

theorem State.takeOwn_keeps (s : State) (p : EgressPort) :
    s.KeepsOuter (State.takeOwn s p) ∧ s.KeepsInner (State.takeOwn s p) ∧ s.KeepsCore (State.takeOwn s p) ∧
    (State.takeOwn s p).line = s.line ∧ (State.takeOwn s p).geode = s.geode ∧ (State.takeOwn s p).sent = s.sent := by
  unfold State.takeOwn
  (try dsimp only)
  (repeat' split) <;> (have hk1 := @State.joinOwn_keeps; simp [hk1, State.KeepsOuter, State.KeepsInner, State.KeepsCore])

theorem State.dropFirst_keeps (s : State) (p : EgressPort) (c : Cls) (f : Stored) (found : List CellError) (counter : Nat) :
    s.KeepsOuter (State.dropFirst s p c f found counter) ∧ s.KeepsCore (State.dropFirst s p c f found counter) ∧
    (State.dropFirst s p c f found counter).mem = s.mem ∧ (State.dropFirst s p c f found counter).line = s.line ∧
    (State.dropFirst s p c f found counter).ports = s.ports ∧ (State.dropFirst s p c f found counter).echo = s.echo ∧
    (State.dropFirst s p c f found counter).acc = s.acc ∧ (State.dropFirst s p c f found counter).geode = s.geode ∧
    (State.dropFirst s p c f found counter).usb = s.usb ∧ (State.dropFirst s p c f found counter).log = s.log ∧
    (State.dropFirst s p c f found counter).faultN = s.faultN ∧ (State.dropFirst s p c f found counter).freeCtr = s.freeCtr ∧
    (State.dropFirst s p c f found counter).sent = s.sent := by
  unfold State.dropFirst
  (try dsimp only)
  (repeat' split) <;> (have hk1 := @State.chamberUe_keeps; have hk2 := @State.countCe_keeps; have hk3 := @State.discardRef_keeps; simp [hk1, hk2, hk3, State.KeepsOuter, State.KeepsInner, State.KeepsCore])

theorem State.countLate_keeps (s : State) (p : EgressPort) (f : Frame) :
    s.KeepsOuter (State.countLate s p f) ∧ s.KeepsInner (State.countLate s p f) ∧ (State.countLate s p f).mem = s.mem ∧
    (State.countLate s p f).beat = s.beat ∧ (State.countLate s p f).lanes = s.lanes ∧ (State.countLate s p f).line = s.line ∧
    (State.countLate s p f).ports = s.ports ∧ (State.countLate s p f).tun = s.tun ∧ (State.countLate s p f).cav = s.cav ∧
    (State.countLate s p f).eng = s.eng ∧ (State.countLate s p f).geode = s.geode ∧ (State.countLate s p f).boot = s.boot ∧
    (State.countLate s p f).pwr = s.pwr ∧ (State.countLate s p f).freeCtr = s.freeCtr ∧ (State.countLate s p f).sent = s.sent := by
  unfold State.countLate
  (try dsimp only)
  (repeat' split) <;> simp [State.KeepsOuter, State.KeepsInner, State.KeepsCore]

theorem State.sendTvl_keeps (s : State) (p : EgressPort) (l : LinkPort) (g : Frame) :
    s.KeepsOuter (State.sendTvl s p l g) ∧ s.KeepsInner (State.sendTvl s p l g) ∧ s.KeepsCore (State.sendTvl s p l g) ∧
    (State.sendTvl s p l g).mem = s.mem ∧ (State.sendTvl s p l g).cav = s.cav := by
  unfold State.sendTvl
  (try dsimp only)
  (repeat' split) <;> (have hk1 := @State.countLocal_keeps; have hk2 := @State.encrypt_keeps; have hk3 := @State.reauthSpent_keeps; simp [hk1, hk2, hk3, State.KeepsOuter, State.KeepsInner, State.KeepsCore])

theorem State.ecnMarked_keeps (s : State) (g : Frame) :
    s.KeepsOuter (State.ecnMarked s g).1 ∧ s.KeepsInner (State.ecnMarked s g).1 ∧ s.KeepsCore (State.ecnMarked s g).1 ∧
    (State.ecnMarked s g).1.mem = s.mem ∧ (State.ecnMarked s g).1.line = s.line ∧ (State.ecnMarked s g).1.ports = s.ports ∧
    (State.ecnMarked s g).1.cav = s.cav ∧ (State.ecnMarked s g).1.geode = s.geode ∧ (State.ecnMarked s g).1.freeCtr = s.freeCtr ∧
    (State.ecnMarked s g).1.sent = s.sent := by
  unfold State.ecnMarked
  (try dsimp only)
  (repeat' split) <;> simp [State.KeepsOuter, State.KeepsInner, State.KeepsCore]

theorem State.sendEth_keeps (s : State) (p : EgressPort) (n : LocalPort) (g : Frame) :
    s.KeepsOuter (State.sendEth s p n g) ∧ s.KeepsInner (State.sendEth s p n g) ∧ s.KeepsCore (State.sendEth s p n g) ∧
    (State.sendEth s p n g).mem = s.mem ∧ (State.sendEth s p n g).ports = s.ports ∧ (State.sendEth s p n g).cav = s.cav ∧
    (State.sendEth s p n g).geode = s.geode ∧ (State.sendEth s p n g).freeCtr = s.freeCtr := by
  unfold State.sendEth
  (try dsimp only)
  (repeat' split) <;> (have hk1 := @State.countLocal_keeps; have hk2 := @State.ecnMarked_keeps; simp [hk1, hk2, State.KeepsOuter, State.KeepsInner, State.KeepsCore])

theorem State.modInbox_keeps (s : State) (k : Nat) (f : List Descriptor → List Descriptor) :
    s.KeepsOuter (State.modInbox s k f) ∧ s.KeepsInner (State.modInbox s k f) ∧ (State.modInbox s k f).regs = s.regs ∧
    (State.modInbox s k f).mem = s.mem ∧ (State.modInbox s k f).beat = s.beat ∧ (State.modInbox s k f).lanes = s.lanes ∧
    (State.modInbox s k f).line = s.line ∧ (State.modInbox s k f).ports = s.ports ∧ (State.modInbox s k f).tun = s.tun ∧
    (State.modInbox s k f).cav = s.cav ∧ (State.modInbox s k f).sched = s.sched ∧ (State.modInbox s k f).geode = s.geode ∧
    (State.modInbox s k f).boot = s.boot ∧ (State.modInbox s k f).pwr = s.pwr ∧ (State.modInbox s k f).freeCtr = s.freeCtr ∧
    (State.modInbox s k f).sent = s.sent := by
  unfold State.modInbox
  (try dsimp only)
  (repeat' split) <;> simp [State.KeepsOuter, State.KeepsInner, State.KeepsCore]

theorem State.dispatch_keeps (s : State) (f : Stored) :
    s.KeepsOuter (State.dispatch s f) ∧ s.KeepsInner (State.dispatch s f) ∧ (State.dispatch s f).mem = s.mem ∧
    (State.dispatch s f).beat = s.beat ∧ (State.dispatch s f).lanes = s.lanes ∧ (State.dispatch s f).line = s.line ∧
    (State.dispatch s f).ports = s.ports ∧ (State.dispatch s f).tun = s.tun ∧ (State.dispatch s f).sched = s.sched ∧
    (State.dispatch s f).geode = s.geode ∧ (State.dispatch s f).boot = s.boot ∧ (State.dispatch s f).pwr = s.pwr ∧
    (State.dispatch s f).freeCtr = s.freeCtr ∧ (State.dispatch s f).sent = s.sent := by
  unfold State.dispatch
  (try dsimp only)
  (repeat' split) <;> (have hk1 := @State.modInbox_keeps; have hk2 := @State.release_keeps; simp [hk1, hk2, State.KeepsOuter, State.KeepsInner, State.KeepsCore])

theorem State.startFrame_keeps (s : State) (p : EgressPort) (f : Stored) (marked : Bool) :
    s.KeepsOuter (State.startFrame s p f marked) ∧ s.KeepsInner (State.startFrame s p f marked) ∧
    (State.startFrame s p f marked).mem = s.mem ∧ (State.startFrame s p f marked).beat = s.beat ∧
    (State.startFrame s p f marked).lanes = s.lanes ∧ (State.startFrame s p f marked).line = s.line ∧
    (State.startFrame s p f marked).tun = s.tun ∧ (State.startFrame s p f marked).cav = s.cav ∧
    (State.startFrame s p f marked).eng = s.eng ∧ (State.startFrame s p f marked).geode = s.geode ∧
    (State.startFrame s p f marked).boot = s.boot ∧ (State.startFrame s p f marked).pwr = s.pwr ∧
    (State.startFrame s p f marked).freeCtr = s.freeCtr ∧ (State.startFrame s p f marked).sent = s.sent := by
  unfold State.startFrame
  (try dsimp only)
  (repeat' split) <;> (have hk1 := @State.countLate_keeps; have hk2 := @State.spendCredit_keeps; simp [hk1, hk2, State.KeepsOuter, State.KeepsInner, State.KeepsCore])

theorem State.transmit_keeps (s : State) (p : EgressPort) (f : Stored) (g : Frame) :
    s.KeepsOuter (State.transmit s p f g) ∧ s.KeepsInner (State.transmit s p f g) ∧ (State.transmit s p f g).mem = s.mem ∧
    (State.transmit s p f g).beat = s.beat ∧ (State.transmit s p f g).lanes = s.lanes ∧ (State.transmit s p f g).tun = s.tun ∧
    (State.transmit s p f g).sched = s.sched ∧ (State.transmit s p f g).boot = s.boot ∧ (State.transmit s p f g).pwr = s.pwr := by
  unfold State.transmit
  (try dsimp only)
  (repeat' split) <;> (have hk1 := @State.dispatch_keeps; have hk2 := @State.sendEth_keeps; have hk3 := @State.sendTvl_keeps; simp [hk1, hk2, hk3, State.KeepsOuter, State.KeepsInner, State.KeepsCore])

theorem State.endBad_keeps (s : State) (p : EgressPort) (f : Stored) (bad : List ChamberIx) :
    s.KeepsOuter (State.endBad s p f bad) ∧ s.KeepsCore (State.endBad s p f bad) ∧ (State.endBad s p f bad).mem = s.mem ∧
    (State.endBad s p f bad).ports = s.ports ∧ (State.endBad s p f bad).echo = s.echo ∧ (State.endBad s p f bad).acc = s.acc ∧
    (State.endBad s p f bad).geode = s.geode ∧ (State.endBad s p f bad).usb = s.usb ∧ (State.endBad s p f bad).log = s.log ∧
    (State.endBad s p f bad).faultN = s.faultN ∧ (State.endBad s p f bad).freeCtr = s.freeCtr := by
  unfold State.endBad
  (try dsimp only)
  (repeat' split) <;> (have hk1 := @State.abortFrame_keeps; have hk2 := @State.chamberUe_keeps; have hk3 := @State.unmarkTwin_keeps; simp [hk1, hk2, hk3, State.KeepsOuter, State.KeepsInner, State.KeepsCore])

theorem State.finishFrame_keeps (s : State) (p : EgressPort) (f : Stored) (g : Frame) (found : List CellError) :
    s.KeepsOuter (State.finishFrame s p f g found) ∧ (State.finishFrame s p f g found).mem = s.mem ∧
    (State.finishFrame s p f g found).beat = s.beat ∧ (State.finishFrame s p f g found).lanes = s.lanes ∧
    (State.finishFrame s p f g found).echo = s.echo ∧ (State.finishFrame s p f g found).tun = s.tun ∧
    (State.finishFrame s p f g found).sched = s.sched ∧ (State.finishFrame s p f g found).acc = s.acc ∧
    (State.finishFrame s p f g found).boot = s.boot ∧ (State.finishFrame s p f g found).pwr = s.pwr ∧
    (State.finishFrame s p f g found).usb = s.usb ∧ (State.finishFrame s p f g found).log = s.log ∧
    (State.finishFrame s p f g found).faultN = s.faultN := by
  unfold State.finishFrame
  (try dsimp only)
  (repeat' split) <;> (have hk1 := @State.endBad_keeps; have hk2 := @State.transmit_keeps; simp [hk1, hk2, State.KeepsOuter, State.KeepsInner, State.KeepsCore])

theorem State.unqueue_keeps (s : State) (q : QueueIx) (id : Nat) :
    s.KeepsOuter (State.unqueue s q id) ∧ s.KeepsInner (State.unqueue s q id) ∧ s.KeepsCore (State.unqueue s q id) ∧
    (State.unqueue s q id).mem = s.mem ∧ (State.unqueue s q id).line = s.line ∧ (State.unqueue s q id).ports = s.ports ∧
    (State.unqueue s q id).geode = s.geode ∧ (State.unqueue s q id).freeCtr = s.freeCtr ∧ (State.unqueue s q id).sent = s.sent := by
  unfold State.unqueue
  (try dsimp only)
  (repeat' split) <;> (have hk1 := @State.emptyDeficit_keeps; have hk2 := @State.modQueue_keeps; simp [hk1, hk2, State.KeepsOuter, State.KeepsInner, State.KeepsCore])

theorem State.launch_keeps (s : State) (p : EgressPort) (c : Cls) (r : QRef) (f : Stored) (found : List CellError) :
    s.KeepsOuter (State.launch s p c r f found) ∧ (State.launch s p c r f found).mem = s.mem ∧
    (State.launch s p c r f found).beat = s.beat ∧ (State.launch s p c r f found).lanes = s.lanes ∧
    (State.launch s p c r f found).echo = s.echo ∧ (State.launch s p c r f found).tun = s.tun ∧
    (State.launch s p c r f found).acc = s.acc ∧ (State.launch s p c r f found).boot = s.boot ∧
    (State.launch s p c r f found).pwr = s.pwr ∧ (State.launch s p c r f found).usb = s.usb ∧ (State.launch s p c r f found).log = s.log ∧
    (State.launch s p c r f found).faultN = s.faultN := by
  unfold State.launch
  (try dsimp only)
  (repeat' split) <;> (have hk1 := @State.countCe_keeps; have hk2 := @State.finishFrame_keeps; have hk3 := @State.release_keeps; have hk4 := @State.startFrame_keeps; have hk5 := @State.unqueue_keeps; simp [hk1, hk2, hk3, hk4, hk5, State.KeepsOuter, State.KeepsInner, State.KeepsCore])

theorem State.decideSlot_keeps (p : EgressPort) (cclk : Nat) (found : List CellError) (y1 : Nat) (y2 : State) :
    y2.KeepsOuter (State.decideSlot p cclk found y1 y2) ∧ (State.decideSlot p cclk found y1 y2).mem = y2.mem ∧
    (State.decideSlot p cclk found y1 y2).beat = y2.beat ∧ (State.decideSlot p cclk found y1 y2).lanes = y2.lanes ∧
    (State.decideSlot p cclk found y1 y2).echo = y2.echo ∧ (State.decideSlot p cclk found y1 y2).tun = y2.tun ∧
    (State.decideSlot p cclk found y1 y2).acc = y2.acc ∧ (State.decideSlot p cclk found y1 y2).boot = y2.boot ∧
    (State.decideSlot p cclk found y1 y2).pwr = y2.pwr ∧ (State.decideSlot p cclk found y1 y2).usb = y2.usb ∧
    (State.decideSlot p cclk found y1 y2).log = y2.log ∧ (State.decideSlot p cclk found y1 y2).faultN = y2.faultN := by
  induction y1 generalizing y2 found with
  | zero => (have hk1 := @State.cleanHead_keeps; have hk2 := @State.debitCommitted_keeps; have hk3 := @State.debitRobin_keeps; have hk4 := @State.dropFirst_keeps; have hk5 := @State.launch_keeps; simp [hk1, hk2, hk3, hk4, hk5, State.decideSlot, State.KeepsOuter, State.KeepsInner, State.KeepsCore])
  | succ n ih =>
    unfold State.decideSlot
    dsimp only
    (repeat' split) <;> (have hk1 := @State.cleanHead_keeps; have hk2 := @State.debitCommitted_keeps; have hk3 := @State.debitRobin_keeps; have hk4 := @State.dropFirst_keeps; have hk5 := @State.launch_keeps; simp [hk1, hk2, hk3, hk4, hk5, ih, State.KeepsOuter, State.KeepsInner, State.KeepsCore])

theorem State.idleFill_keeps (s : State) (p : EgressPort) (before : State) :
    s.KeepsOuter (State.idleFill s p before) ∧ s.KeepsInner (State.idleFill s p before) ∧ s.KeepsCore (State.idleFill s p before) ∧
    (State.idleFill s p before).regs = s.regs ∧ (State.idleFill s p before).mem = s.mem ∧ (State.idleFill s p before).ports = s.ports ∧
    (State.idleFill s p before).cav = s.cav ∧ (State.idleFill s p before).geode = s.geode ∧ (State.idleFill s p before).freeCtr = s.freeCtr := by
  unfold State.idleFill
  (try dsimp only)
  (repeat' split) <;> simp [State.KeepsOuter, State.KeepsInner, State.KeepsCore]

theorem State.frameSlot_keeps (s : State) (p : EgressPort) (cclk : Nat) (found : List CellError) :
    s.KeepsOuter (State.frameSlot s p cclk found) ∧ (State.frameSlot s p cclk found).mem = s.mem ∧
    (State.frameSlot s p cclk found).beat = s.beat ∧ (State.frameSlot s p cclk found).lanes = s.lanes ∧
    (State.frameSlot s p cclk found).echo = s.echo ∧ (State.frameSlot s p cclk found).tun = s.tun ∧
    (State.frameSlot s p cclk found).acc = s.acc ∧ (State.frameSlot s p cclk found).boot = s.boot ∧
    (State.frameSlot s p cclk found).pwr = s.pwr ∧ (State.frameSlot s p cclk found).usb = s.usb ∧
    (State.frameSlot s p cclk found).log = s.log ∧ (State.frameSlot s p cclk found).faultN = s.faultN := by
  unfold State.frameSlot
  (try dsimp only)
  (repeat' split) <;> (have hk1 := @State.decideSlot_keeps; have hk2 := @State.settle_keeps; simp [hk1, hk2, State.KeepsOuter, State.KeepsInner, State.KeepsCore])

theorem State.finishCut_keeps (s : State) (id : Nat) :
    s.KeepsOuter (State.finishCut s id) ∧ (State.finishCut s id).mem = s.mem ∧ (State.finishCut s id).beat = s.beat ∧
    (State.finishCut s id).lanes = s.lanes ∧ (State.finishCut s id).echo = s.echo ∧ (State.finishCut s id).tun = s.tun ∧
    (State.finishCut s id).sched = s.sched ∧ (State.finishCut s id).acc = s.acc ∧ (State.finishCut s id).boot = s.boot ∧
    (State.finishCut s id).pwr = s.pwr ∧ (State.finishCut s id).usb = s.usb ∧ (State.finishCut s id).log = s.log ∧
    (State.finishCut s id).faultN = s.faultN := by
  unfold State.finishCut
  (try dsimp only)
  (repeat' split) <;> (have hk1 := @State.finishFrame_keeps; have hk2 := @State.release_keeps; simp [hk1, hk2, State.KeepsOuter, State.KeepsInner, State.KeepsCore])

theorem State.writeRates_keeps (s : State) (a : Nat) (r : RateSet) :
    s.KeepsOuter (State.writeRates s a r) ∧ s.KeepsInner (State.writeRates s a r) ∧ s.KeepsCore (State.writeRates s a r) ∧
    (State.writeRates s a r).mem = s.mem ∧ (State.writeRates s a r).line = s.line ∧ (State.writeRates s a r).ports = s.ports ∧
    (State.writeRates s a r).cav = s.cav ∧ (State.writeRates s a r).geode = s.geode ∧ (State.writeRates s a r).freeCtr = s.freeCtr ∧
    (State.writeRates s a r).sent = s.sent := by
  unfold State.writeRates
  (try dsimp only)
  (repeat' split) <;> simp [State.KeepsOuter, State.KeepsInner, State.KeepsCore]

theorem State.writePlan_keeps (s : State) (plan : Plan) :
    s.KeepsOuter (State.writePlan s plan) ∧ s.KeepsInner (State.writePlan s plan) ∧ (State.writePlan s plan).mem = s.mem ∧
    (State.writePlan s plan).beat = s.beat ∧ (State.writePlan s plan).lanes = s.lanes ∧ (State.writePlan s plan).line = s.line ∧
    (State.writePlan s plan).ports = s.ports ∧ (State.writePlan s plan).tun = s.tun ∧ (State.writePlan s plan).cav = s.cav ∧
    (State.writePlan s plan).eng = s.eng ∧ (State.writePlan s plan).geode = s.geode ∧ (State.writePlan s plan).boot = s.boot ∧
    (State.writePlan s plan).pwr = s.pwr ∧ (State.writePlan s plan).freeCtr = s.freeCtr ∧ (State.writePlan s plan).sent = s.sent := by
  unfold State.writePlan
  (try dsimp only)
  (repeat' split) <;> (have hk1 := @State.writeRates_keeps; simp [hk1, State.KeepsOuter, State.KeepsInner, State.KeepsCore])

theorem State.commitGroups_keeps (m : Master) (target : Nat) (y1 : List Nat) (y2 : List Nat) (y3 : State) :
    y3.KeepsOuter (State.commitGroups m target y1 y2 y3).1 ∧ y3.KeepsInner (State.commitGroups m target y1 y2 y3).1 ∧
    (State.commitGroups m target y1 y2 y3).1.mem = y3.mem ∧ (State.commitGroups m target y1 y2 y3).1.lanes = y3.lanes ∧
    (State.commitGroups m target y1 y2 y3).1.line = y3.line ∧ (State.commitGroups m target y1 y2 y3).1.ports = y3.ports ∧
    (State.commitGroups m target y1 y2 y3).1.tun = y3.tun ∧ (State.commitGroups m target y1 y2 y3).1.cav = y3.cav ∧
    (State.commitGroups m target y1 y2 y3).1.sched = y3.sched ∧ (State.commitGroups m target y1 y2 y3).1.eng = y3.eng ∧
    (State.commitGroups m target y1 y2 y3).1.geode = y3.geode ∧ (State.commitGroups m target y1 y2 y3).1.boot = y3.boot ∧
    (State.commitGroups m target y1 y2 y3).1.pwr = y3.pwr ∧ (State.commitGroups m target y1 y2 y3).1.freeCtr = y3.freeCtr ∧
    (State.commitGroups m target y1 y2 y3).1.sent = y3.sent := by
  fun_induction State.commitGroups m target y1 y2 y3 <;> (try simp only [Prod.ext_iff] at *) <;> (try casesm* _ ∧ _) <;> subst_vars <;>
    (have hk1 := @State.cancelGroup_keeps; have hk2 := @State.commitAt_keeps; simp_all +zetaDelta [hk1, hk2, State.KeepsOuter, State.KeepsInner, State.KeepsCore])

theorem State.answerRequest_keeps (s : State) (r : TunnelReq) (code : Nat) :
    s.KeepsOuter (State.answerRequest s r code) ∧ s.KeepsInner (State.answerRequest s r code) ∧
    s.KeepsCore (State.answerRequest s r code) ∧ (State.answerRequest s r code).mem = s.mem ∧
    (State.answerRequest s r code).line = s.line ∧ (State.answerRequest s r code).ports = s.ports ∧
    (State.answerRequest s r code).cav = s.cav ∧ (State.answerRequest s r code).geode = s.geode ∧
    (State.answerRequest s r code).freeCtr = s.freeCtr ∧ (State.answerRequest s r code).sent = s.sent := by
  unfold State.answerRequest
  (try dsimp only)
  (repeat' split) <;> simp [State.KeepsOuter, State.KeepsInner, State.KeepsCore]

theorem State.takeRequest_keeps (s : State) (r : TunnelReq) :
    s.KeepsOuter (State.takeRequest s r) ∧ s.KeepsInner (State.takeRequest s r) ∧ (State.takeRequest s r).mem = s.mem ∧
    (State.takeRequest s r).beat = s.beat ∧ (State.takeRequest s r).lanes = s.lanes ∧ (State.takeRequest s r).line = s.line ∧
    (State.takeRequest s r).ports = s.ports ∧ (State.takeRequest s r).tun = s.tun ∧ (State.takeRequest s r).cav = s.cav ∧
    (State.takeRequest s r).eng = s.eng ∧ (State.takeRequest s r).geode = s.geode ∧ (State.takeRequest s r).boot = s.boot ∧
    (State.takeRequest s r).pwr = s.pwr ∧ (State.takeRequest s r).freeCtr = s.freeCtr ∧ (State.takeRequest s r).sent = s.sent := by
  unfold State.takeRequest
  (try dsimp only)
  (repeat' split) <;> (have hk1 := @State.answerRequest_keeps; simp [hk1, State.KeepsOuter, State.KeepsInner, State.KeepsCore])

theorem State.requestsDone_keeps (s : State) (rs : List TunnelReq) :
    s.KeepsOuter (State.requestsDone s rs) ∧ s.KeepsInner (State.requestsDone s rs) ∧ (State.requestsDone s rs).mem = s.mem ∧
    (State.requestsDone s rs).beat = s.beat ∧ (State.requestsDone s rs).lanes = s.lanes ∧ (State.requestsDone s rs).line = s.line ∧
    (State.requestsDone s rs).ports = s.ports ∧ (State.requestsDone s rs).tun = s.tun ∧ (State.requestsDone s rs).cav = s.cav ∧
    (State.requestsDone s rs).eng = s.eng ∧ (State.requestsDone s rs).geode = s.geode ∧ (State.requestsDone s rs).boot = s.boot ∧
    (State.requestsDone s rs).pwr = s.pwr ∧ (State.requestsDone s rs).freeCtr = s.freeCtr ∧ (State.requestsDone s rs).sent = s.sent := by
  unfold State.requestsDone
  (try dsimp only)
  (repeat' split) <;> (have hk1 := @State.takeRequest_keeps; simp [hk1, State.KeepsOuter, State.KeepsInner, State.KeepsCore])

theorem State.rejectPlan_keeps (s : State) :
    s.KeepsOuter (State.rejectPlan s) ∧ s.KeepsInner (State.rejectPlan s) ∧ (State.rejectPlan s).mem = s.mem ∧
    (State.rejectPlan s).beat = s.beat ∧ (State.rejectPlan s).lanes = s.lanes ∧ (State.rejectPlan s).line = s.line ∧
    (State.rejectPlan s).ports = s.ports ∧ (State.rejectPlan s).tun = s.tun ∧ (State.rejectPlan s).cav = s.cav ∧
    (State.rejectPlan s).eng = s.eng ∧ (State.rejectPlan s).geode = s.geode ∧ (State.rejectPlan s).boot = s.boot ∧
    (State.rejectPlan s).pwr = s.pwr ∧ (State.rejectPlan s).freeCtr = s.freeCtr ∧ (State.rejectPlan s).sent = s.sent := by
  unfold State.rejectPlan
  (try dsimp only)
  (repeat' split) <;> (have hk1 := @State.answerRequest_keeps; simp [hk1, State.KeepsOuter, State.KeepsInner, State.KeepsCore])

theorem State.keepPlan_keeps (s : State) (x : PlanTry) :
    s.KeepsOuter (State.keepPlan s x) ∧ s.KeepsInner (State.keepPlan s x) ∧ (State.keepPlan s x).regs = s.regs ∧
    (State.keepPlan s x).mem = s.mem ∧ (State.keepPlan s x).beat = s.beat ∧ (State.keepPlan s x).lanes = s.lanes ∧
    (State.keepPlan s x).line = s.line ∧ (State.keepPlan s x).ports = s.ports ∧ (State.keepPlan s x).tun = s.tun ∧
    (State.keepPlan s x).cav = s.cav ∧ (State.keepPlan s x).eng = s.eng ∧ (State.keepPlan s x).geode = s.geode ∧
    (State.keepPlan s x).boot = s.boot ∧ (State.keepPlan s x).pwr = s.pwr ∧ (State.keepPlan s x).freeCtr = s.freeCtr ∧
    (State.keepPlan s x).sent = s.sent := by
  unfold State.keepPlan
  (try dsimp only)
  (repeat' split) <;> simp [State.KeepsOuter, State.KeepsInner, State.KeepsCore]

theorem State.tryPlan_keeps (s : State) (m : Master) (x : PlanTry) :
    s.KeepsOuter (State.tryPlan s m x) ∧ s.KeepsInner (State.tryPlan s m x) ∧ (State.tryPlan s m x).mem = s.mem ∧
    (State.tryPlan s m x).lanes = s.lanes ∧ (State.tryPlan s m x).line = s.line ∧ (State.tryPlan s m x).ports = s.ports ∧
    (State.tryPlan s m x).tun = s.tun ∧ (State.tryPlan s m x).cav = s.cav ∧ (State.tryPlan s m x).eng = s.eng ∧
    (State.tryPlan s m x).geode = s.geode ∧ (State.tryPlan s m x).boot = s.boot ∧ (State.tryPlan s m x).pwr = s.pwr ∧
    (State.tryPlan s m x).freeCtr = s.freeCtr ∧ (State.tryPlan s m x).sent = s.sent := by
  unfold State.tryPlan
  (try dsimp only)
  (repeat' split) <;> (try simp only [Prod.ext_iff] at *) <;> (try casesm* _ ∧ _) <;> subst_vars <;>
    (have hk1 := @State.commitGroups_keeps; have hk2 := @State.keepPlan_keeps; have hk3 := @State.requestsDone_keeps; have hk4 := @State.writePlan_keeps; simp [hk1, hk2, hk3, hk4, State.KeepsOuter, State.KeepsInner, State.KeepsCore])

end Sys2Proof.Machine
end

