-- ==== Sys2Proof/Laws/KeepsBlocks.lean ====
section
/-! SUPPORT. Laws/KeepsBlocks.lean: what the operations of Machine/EngineOps, EpOps, SaveOps, CavernOps, GeodeOps, WakeOps and
BootOps leave as it is. They are no simp lemmas: a proof
takes those it needs as hypotheses, `have hk := @State.foo_keeps; simp [hk]`, which makes no auxiliary theorem. -/

set_option linter.all false

namespace Sys2Proof.Machine

open Sys2Proof

theorem State.modEngine_keeps (s : State) (e : EngineIx) (f : Engine → Engine) :
    s.KeepsOuter (State.modEngine s e f) ∧ s.KeepsInner (State.modEngine s e f) ∧ (State.modEngine s e f).regs = s.regs ∧
    (State.modEngine s e f).mem = s.mem ∧ (State.modEngine s e f).beat = s.beat ∧ (State.modEngine s e f).lanes = s.lanes ∧
    (State.modEngine s e f).line = s.line ∧ (State.modEngine s e f).ports = s.ports ∧ (State.modEngine s e f).tun = s.tun ∧
    (State.modEngine s e f).cav = s.cav ∧ (State.modEngine s e f).sched = s.sched ∧ (State.modEngine s e f).geode = s.geode ∧
    (State.modEngine s e f).boot = s.boot ∧ (State.modEngine s e f).pwr = s.pwr ∧ (State.modEngine s e f).freeCtr = s.freeCtr ∧
    (State.modEngine s e f).sent = s.sent := by
  unfold State.modEngine
  (try dsimp only)
  (repeat' split) <;> simp [State.KeepsOuter, State.KeepsInner, State.KeepsCore]

theorem State.modRole_keeps (s : State) (r : RoleIx) (f : Role → Role) :
    s.KeepsOuter (State.modRole s r f) ∧ s.KeepsInner (State.modRole s r f) ∧ (State.modRole s r f).regs = s.regs ∧
    (State.modRole s r f).mem = s.mem ∧ (State.modRole s r f).beat = s.beat ∧ (State.modRole s r f).lanes = s.lanes ∧
    (State.modRole s r f).line = s.line ∧ (State.modRole s r f).ports = s.ports ∧ (State.modRole s r f).tun = s.tun ∧
    (State.modRole s r f).cav = s.cav ∧ (State.modRole s r f).sched = s.sched ∧ (State.modRole s r f).geode = s.geode ∧
    (State.modRole s r f).boot = s.boot ∧ (State.modRole s r f).pwr = s.pwr ∧ (State.modRole s r f).freeCtr = s.freeCtr ∧
    (State.modRole s r f).sent = s.sent := by
  unfold State.modRole
  (try dsimp only)
  (repeat' split) <;> simp [State.KeepsOuter, State.KeepsInner, State.KeepsCore]

theorem State.modColumn_keeps (s : State) (c : ColumnIx) (f : Column → Column) :
    s.KeepsOuter (State.modColumn s c f) ∧ s.KeepsInner (State.modColumn s c f) ∧ (State.modColumn s c f).regs = s.regs ∧
    (State.modColumn s c f).mem = s.mem ∧ (State.modColumn s c f).beat = s.beat ∧ (State.modColumn s c f).lanes = s.lanes ∧
    (State.modColumn s c f).line = s.line ∧ (State.modColumn s c f).ports = s.ports ∧ (State.modColumn s c f).tun = s.tun ∧
    (State.modColumn s c f).cav = s.cav ∧ (State.modColumn s c f).sched = s.sched ∧ (State.modColumn s c f).geode = s.geode ∧
    (State.modColumn s c f).boot = s.boot ∧ (State.modColumn s c f).pwr = s.pwr ∧ (State.modColumn s c f).freeCtr = s.freeCtr ∧
    (State.modColumn s c f).sent = s.sent := by
  unfold State.modColumn
  (try dsimp only)
  (repeat' split) <;> simp [State.KeepsOuter, State.KeepsInner, State.KeepsCore]

theorem State.declareFailing_keeps (s : State) (e : EngineIx) :
    s.KeepsOuter (State.declareFailing s e) ∧ s.KeepsInner (State.declareFailing s e) ∧ (State.declareFailing s e).regs = s.regs ∧
    (State.declareFailing s e).mem = s.mem ∧ (State.declareFailing s e).beat = s.beat ∧ (State.declareFailing s e).lanes = s.lanes ∧
    (State.declareFailing s e).line = s.line ∧ (State.declareFailing s e).ports = s.ports ∧ (State.declareFailing s e).tun = s.tun ∧
    (State.declareFailing s e).cav = s.cav ∧ (State.declareFailing s e).sched = s.sched ∧ (State.declareFailing s e).geode = s.geode ∧
    (State.declareFailing s e).boot = s.boot ∧ (State.declareFailing s e).pwr = s.pwr ∧ (State.declareFailing s e).freeCtr = s.freeCtr ∧
    (State.declareFailing s e).sent = s.sent := by
  unfold State.declareFailing
  (try dsimp only)
  (repeat' split) <;> (have hk1 := @State.modEngine_keeps; have hk2 := @State.modRole_keeps; simp [hk1, hk2, State.KeepsOuter, State.KeepsInner, State.KeepsCore])

theorem State.assignRole_keeps (s : State) (r : RoleIx) (e : EngineIx) :
    s.KeepsOuter (State.assignRole s r e) ∧ s.KeepsInner (State.assignRole s r e) ∧ (State.assignRole s r e).mem = s.mem ∧
    (State.assignRole s r e).beat = s.beat ∧ (State.assignRole s r e).lanes = s.lanes ∧ (State.assignRole s r e).line = s.line ∧
    (State.assignRole s r e).ports = s.ports ∧ (State.assignRole s r e).tun = s.tun ∧ (State.assignRole s r e).cav = s.cav ∧
    (State.assignRole s r e).sched = s.sched ∧ (State.assignRole s r e).geode = s.geode ∧ (State.assignRole s r e).boot = s.boot ∧
    (State.assignRole s r e).pwr = s.pwr ∧ (State.assignRole s r e).freeCtr = s.freeCtr ∧ (State.assignRole s r e).sent = s.sent := by
  unfold State.assignRole
  (try dsimp only)
  (repeat' split) <;> (have hk1 := @State.modEngine_keeps; have hk2 := @State.modRole_keeps; simp [hk1, hk2, State.KeepsOuter, State.KeepsInner, State.KeepsCore])

theorem State.noteVacancy_keeps (s : State) :
    s.KeepsOuter (State.noteVacancy s) ∧ s.KeepsCore (State.noteVacancy s) ∧ (State.noteVacancy s).regs = s.regs ∧
    (State.noteVacancy s).mem = s.mem ∧ (State.noteVacancy s).line = s.line ∧ (State.noteVacancy s).ports = s.ports ∧
    (State.noteVacancy s).echo = s.echo ∧ (State.noteVacancy s).cav = s.cav ∧ (State.noteVacancy s).twin = s.twin ∧
    (State.noteVacancy s).acc = s.acc ∧ (State.noteVacancy s).geode = s.geode ∧ (State.noteVacancy s).log = s.log ∧
    (State.noteVacancy s).freeCtr = s.freeCtr ∧ (State.noteVacancy s).sent = s.sent := by
  unfold State.noteVacancy
  (try dsimp only)
  (repeat' split) <;> simp [State.KeepsOuter, State.KeepsInner, State.KeepsCore]

theorem State.assignSpare_keeps (s : State) (r : RoleIx) :
    s.KeepsOuter (State.assignSpare s r) ∧ (State.assignSpare s r).mem = s.mem ∧ (State.assignSpare s r).beat = s.beat ∧
    (State.assignSpare s r).lanes = s.lanes ∧ (State.assignSpare s r).line = s.line ∧ (State.assignSpare s r).ports = s.ports ∧
    (State.assignSpare s r).echo = s.echo ∧ (State.assignSpare s r).tun = s.tun ∧ (State.assignSpare s r).cav = s.cav ∧
    (State.assignSpare s r).sched = s.sched ∧ (State.assignSpare s r).twin = s.twin ∧ (State.assignSpare s r).acc = s.acc ∧
    (State.assignSpare s r).geode = s.geode ∧ (State.assignSpare s r).boot = s.boot ∧ (State.assignSpare s r).pwr = s.pwr ∧
    (State.assignSpare s r).freeCtr = s.freeCtr ∧ (State.assignSpare s r).sent = s.sent := by
  unfold State.assignSpare
  (try dsimp only)
  (repeat' split) <;> (have hk1 := @State.assignRole_keeps; have hk2 := @State.modRole_keeps; have hk3 := @State.noteVacancy_keeps; simp [hk1, hk2, hk3, State.KeepsOuter, State.KeepsInner, State.KeepsCore])

theorem State.fillRole_keeps (s : State) (r : RoleIx) :
    s.KeepsOuter (State.fillRole s r) ∧ (State.fillRole s r).mem = s.mem ∧ (State.fillRole s r).beat = s.beat ∧
    (State.fillRole s r).lanes = s.lanes ∧ (State.fillRole s r).line = s.line ∧ (State.fillRole s r).ports = s.ports ∧
    (State.fillRole s r).echo = s.echo ∧ (State.fillRole s r).tun = s.tun ∧ (State.fillRole s r).cav = s.cav ∧
    (State.fillRole s r).sched = s.sched ∧ (State.fillRole s r).twin = s.twin ∧ (State.fillRole s r).acc = s.acc ∧
    (State.fillRole s r).geode = s.geode ∧ (State.fillRole s r).boot = s.boot ∧ (State.fillRole s r).pwr = s.pwr ∧
    (State.fillRole s r).log = s.log ∧ (State.fillRole s r).freeCtr = s.freeCtr ∧ (State.fillRole s r).sent = s.sent := by
  unfold State.fillRole
  (try dsimp only)
  (repeat' split) <;> (have hk1 := @State.assignRole_keeps; have hk2 := @State.modRole_keeps; have hk3 := @State.noteVacancy_keeps; simp [hk1, hk2, hk3, State.KeepsOuter, State.KeepsInner, State.KeepsCore])

theorem State.fillVacant_keeps (s : State) :
    s.KeepsOuter (State.fillVacant s) ∧ (State.fillVacant s).mem = s.mem ∧ (State.fillVacant s).beat = s.beat ∧
    (State.fillVacant s).lanes = s.lanes ∧ (State.fillVacant s).line = s.line ∧ (State.fillVacant s).ports = s.ports ∧
    (State.fillVacant s).echo = s.echo ∧ (State.fillVacant s).tun = s.tun ∧ (State.fillVacant s).cav = s.cav ∧
    (State.fillVacant s).sched = s.sched ∧ (State.fillVacant s).twin = s.twin ∧ (State.fillVacant s).acc = s.acc ∧
    (State.fillVacant s).geode = s.geode ∧ (State.fillVacant s).boot = s.boot ∧ (State.fillVacant s).pwr = s.pwr ∧
    (State.fillVacant s).log = s.log ∧ (State.fillVacant s).freeCtr = s.freeCtr ∧ (State.fillVacant s).sent = s.sent := by
  unfold State.fillVacant
  (try dsimp only)
  (repeat' split) <;> (have hk1 := @State.fillRole_keeps; simp [hk1, State.KeepsOuter, State.KeepsInner, State.KeepsCore])

theorem State.takeDescriptors_keeps (s : State) (k : Nat) (n : Nat) :
    s.KeepsOuter (State.takeDescriptors s k n) ∧ s.KeepsInner (State.takeDescriptors s k n) ∧ (State.takeDescriptors s k n).mem = s.mem ∧
    (State.takeDescriptors s k n).beat = s.beat ∧ (State.takeDescriptors s k n).lanes = s.lanes ∧
    (State.takeDescriptors s k n).line = s.line ∧ (State.takeDescriptors s k n).tun = s.tun ∧
    (State.takeDescriptors s k n).sched = s.sched ∧ (State.takeDescriptors s k n).geode = s.geode ∧
    (State.takeDescriptors s k n).boot = s.boot ∧ (State.takeDescriptors s k n).pwr = s.pwr ∧
    (State.takeDescriptors s k n).freeCtr = s.freeCtr ∧ (State.takeDescriptors s k n).sent = s.sent := by
  unfold State.takeDescriptors
  (try dsimp only)
  (repeat' split) <;> (have hk1 := @State.modInbox_keeps; have hk2 := @State.release_keeps; have hk3 := @State.settle_keeps; simp [hk1, hk2, hk3, State.KeepsOuter, State.KeepsInner, State.KeepsCore])

theorem State.releaseRole_keeps (s : State) (r : RoleIx) :
    s.KeepsOuter (State.releaseRole s r) ∧ s.KeepsInner (State.releaseRole s r) ∧ (State.releaseRole s r).mem = s.mem ∧
    (State.releaseRole s r).beat = s.beat ∧ (State.releaseRole s r).lanes = s.lanes ∧ (State.releaseRole s r).line = s.line ∧
    (State.releaseRole s r).ports = s.ports ∧ (State.releaseRole s r).tun = s.tun ∧ (State.releaseRole s r).cav = s.cav ∧
    (State.releaseRole s r).sched = s.sched ∧ (State.releaseRole s r).geode = s.geode ∧ (State.releaseRole s r).boot = s.boot ∧
    (State.releaseRole s r).pwr = s.pwr ∧ (State.releaseRole s r).freeCtr = s.freeCtr ∧ (State.releaseRole s r).sent = s.sent := by
  unfold State.releaseRole
  (try dsimp only)
  (repeat' split) <;> (have hk1 := @State.declareFailing_keeps; have hk2 := @State.modRole_keeps; simp [hk1, hk2, State.KeepsOuter, State.KeepsInner, State.KeepsCore])

theorem State.restoreTcm_keeps (s : State) (c : ColumnIx) :
    s.KeepsOuter (State.restoreTcm s c) ∧ s.KeepsInner (State.restoreTcm s c) ∧ s.KeepsCore (State.restoreTcm s c) ∧
    (State.restoreTcm s c).regs = s.regs ∧ (State.restoreTcm s c).line = s.line ∧ (State.restoreTcm s c).ports = s.ports ∧
    (State.restoreTcm s c).cav = s.cav ∧ (State.restoreTcm s c).geode = s.geode ∧ (State.restoreTcm s c).freeCtr = s.freeCtr ∧
    (State.restoreTcm s c).sent = s.sent := by
  unfold State.restoreTcm
  (try dsimp only)
  (repeat' split) <;> simp [State.KeepsOuter, State.KeepsInner, State.KeepsCore]

theorem State.haltColumn_keeps (s : State) (c : ColumnIx) :
    s.KeepsOuter (State.haltColumn s c) ∧ (State.haltColumn s c).mem = s.mem ∧ (State.haltColumn s c).beat = s.beat ∧
    (State.haltColumn s c).lanes = s.lanes ∧ (State.haltColumn s c).line = s.line ∧ (State.haltColumn s c).ports = s.ports ∧
    (State.haltColumn s c).echo = s.echo ∧ (State.haltColumn s c).tun = s.tun ∧ (State.haltColumn s c).cav = s.cav ∧
    (State.haltColumn s c).sched = s.sched ∧ (State.haltColumn s c).twin = s.twin ∧ (State.haltColumn s c).acc = s.acc ∧
    (State.haltColumn s c).geode = s.geode ∧ (State.haltColumn s c).boot = s.boot ∧ (State.haltColumn s c).pwr = s.pwr ∧
    (State.haltColumn s c).freeCtr = s.freeCtr ∧ (State.haltColumn s c).sent = s.sent := by
  unfold State.haltColumn
  (try dsimp only)
  (repeat' split) <;> (have hk1 := @State.modColumn_keeps; simp [hk1, State.KeepsOuter, State.KeepsInner, State.KeepsCore])

theorem State.releaseColumn_keeps (s : State) (c : ColumnIx) :
    s.KeepsOuter (State.releaseColumn s c) ∧ (State.releaseColumn s c).mem = s.mem ∧ (State.releaseColumn s c).beat = s.beat ∧
    (State.releaseColumn s c).lanes = s.lanes ∧ (State.releaseColumn s c).line = s.line ∧ (State.releaseColumn s c).ports = s.ports ∧
    (State.releaseColumn s c).echo = s.echo ∧ (State.releaseColumn s c).tun = s.tun ∧ (State.releaseColumn s c).cav = s.cav ∧
    (State.releaseColumn s c).sched = s.sched ∧ (State.releaseColumn s c).twin = s.twin ∧ (State.releaseColumn s c).acc = s.acc ∧
    (State.releaseColumn s c).geode = s.geode ∧ (State.releaseColumn s c).boot = s.boot ∧ (State.releaseColumn s c).pwr = s.pwr ∧
    (State.releaseColumn s c).freeCtr = s.freeCtr ∧ (State.releaseColumn s c).sent = s.sent := by
  unfold State.releaseColumn
  (try dsimp only)
  (repeat' split) <;> (have hk1 := @State.haltColumn_keeps; have hk2 := @State.modColumn_keeps; simp [hk1, hk2, State.KeepsOuter, State.KeepsInner, State.KeepsCore])

theorem State.setSuper_keeps (s : State) (v : Nat) :
    s.KeepsOuter (State.setSuper s v) ∧ s.KeepsInner (State.setSuper s v) ∧ (State.setSuper s v).mem = s.mem ∧
    (State.setSuper s v).beat = s.beat ∧ (State.setSuper s v).lanes = s.lanes ∧ (State.setSuper s v).line = s.line ∧
    (State.setSuper s v).ports = s.ports ∧ (State.setSuper s v).tun = s.tun ∧ (State.setSuper s v).cav = s.cav ∧
    (State.setSuper s v).sched = s.sched ∧ (State.setSuper s v).eng = s.eng ∧ (State.setSuper s v).geode = s.geode ∧
    (State.setSuper s v).boot = s.boot ∧ (State.setSuper s v).freeCtr = s.freeCtr ∧ (State.setSuper s v).sent = s.sent := by
  unfold State.setSuper
  (try dsimp only)
  (repeat' split) <;> simp [State.KeepsOuter, State.KeepsInner, State.KeepsCore]

theorem State.promote_keeps (s : State) :
    s.KeepsOuter (State.promote s) ∧ s.KeepsInner (State.promote s) ∧ (State.promote s).mem = s.mem ∧ (State.promote s).lanes = s.lanes ∧
    (State.promote s).line = s.line ∧ (State.promote s).ports = s.ports ∧ (State.promote s).tun = s.tun ∧ (State.promote s).cav = s.cav ∧
    (State.promote s).eng = s.eng ∧ (State.promote s).geode = s.geode ∧ (State.promote s).boot = s.boot ∧
    (State.promote s).freeCtr = s.freeCtr ∧ (State.promote s).sent = s.sent := by
  unfold State.promote
  (try dsimp only)
  (repeat' split) <;> (have hk1 := @State.cancelGroup_keeps; have hk2 := @State.setSuper_keeps; simp [hk1, hk2, State.KeepsOuter, State.KeepsInner, State.KeepsCore])

theorem State.handBack_keeps (s : State) :
    s.KeepsOuter (State.handBack s) ∧ s.KeepsInner (State.handBack s) ∧ (State.handBack s).mem = s.mem ∧ (State.handBack s).beat = s.beat ∧
    (State.handBack s).lanes = s.lanes ∧ (State.handBack s).line = s.line ∧ (State.handBack s).ports = s.ports ∧
    (State.handBack s).tun = s.tun ∧ (State.handBack s).cav = s.cav ∧ (State.handBack s).sched = s.sched ∧ (State.handBack s).eng = s.eng ∧
    (State.handBack s).geode = s.geode ∧ (State.handBack s).boot = s.boot ∧ (State.handBack s).freeCtr = s.freeCtr ∧
    (State.handBack s).sent = s.sent := by
  unfold State.handBack
  (try dsimp only)
  (repeat' split) <;> (have hk1 := @State.setSuper_keeps; simp [hk1, State.KeepsOuter, State.KeepsInner, State.KeepsCore])

theorem State.passSupervision_keeps (s : State) :
    s.KeepsOuter (State.passSupervision s) ∧ s.KeepsInner (State.passSupervision s) ∧ (State.passSupervision s).mem = s.mem ∧
    (State.passSupervision s).lanes = s.lanes ∧ (State.passSupervision s).line = s.line ∧ (State.passSupervision s).ports = s.ports ∧
    (State.passSupervision s).tun = s.tun ∧ (State.passSupervision s).cav = s.cav ∧ (State.passSupervision s).geode = s.geode ∧
    (State.passSupervision s).boot = s.boot ∧ (State.passSupervision s).freeCtr = s.freeCtr ∧ (State.passSupervision s).sent = s.sent := by
  unfold State.passSupervision
  (try dsimp only)
  (repeat' split) <;> (have hk1 := @State.handBack_keeps; have hk2 := @State.promote_keeps; have hk3 := @State.setSuper_keeps; simp [hk1, hk2, hk3, State.KeepsOuter, State.KeepsInner, State.KeepsCore])

theorem State.takeSupervision_keeps (s : State) :
    s.KeepsOuter (State.takeSupervision s) ∧ s.KeepsInner (State.takeSupervision s) ∧ (State.takeSupervision s).mem = s.mem ∧
    (State.takeSupervision s).lanes = s.lanes ∧ (State.takeSupervision s).line = s.line ∧ (State.takeSupervision s).ports = s.ports ∧
    (State.takeSupervision s).tun = s.tun ∧ (State.takeSupervision s).cav = s.cav ∧ (State.takeSupervision s).eng = s.eng ∧
    (State.takeSupervision s).geode = s.geode ∧ (State.takeSupervision s).boot = s.boot ∧ (State.takeSupervision s).freeCtr = s.freeCtr ∧
    (State.takeSupervision s).sent = s.sent := by
  unfold State.takeSupervision
  (try dsimp only)
  (repeat' split) <;> (have hk1 := @State.handBack_keeps; have hk2 := @State.promote_keeps; simp [hk1, hk2, State.KeepsOuter, State.KeepsInner, State.KeepsCore])

theorem State.engineHead_keeps (s : State) :
    s.KeepsOuter (State.engineHead s) ∧ (State.engineHead s).mem = s.mem ∧ (State.engineHead s).lanes = s.lanes ∧
    (State.engineHead s).line = s.line ∧ (State.engineHead s).ports = s.ports ∧ (State.engineHead s).echo = s.echo ∧
    (State.engineHead s).tun = s.tun ∧ (State.engineHead s).cav = s.cav ∧ (State.engineHead s).twin = s.twin ∧
    (State.engineHead s).acc = s.acc ∧ (State.engineHead s).geode = s.geode ∧ (State.engineHead s).boot = s.boot ∧
    (State.engineHead s).freeCtr = s.freeCtr ∧ (State.engineHead s).sent = s.sent := by
  unfold State.engineHead
  (try dsimp only)
  (repeat' split) <;> (have hk1 := @State.fillVacant_keeps; have hk2 := @State.passSupervision_keeps; have hk3 := @State.releaseColumn_keeps; have hk4 := @State.releaseRole_keeps; have hk5 := @State.takeSupervision_keeps; simp [hk1, hk2, hk3, hk4, hk5, State.KeepsOuter, State.KeepsInner, State.KeepsCore])

theorem State.declareRole_keeps (s : State) (r : RoleIx) :
    s.KeepsOuter (State.declareRole s r) ∧ s.KeepsInner (State.declareRole s r) ∧ (State.declareRole s r).regs = s.regs ∧
    (State.declareRole s r).mem = s.mem ∧ (State.declareRole s r).beat = s.beat ∧ (State.declareRole s r).lanes = s.lanes ∧
    (State.declareRole s r).line = s.line ∧ (State.declareRole s r).ports = s.ports ∧ (State.declareRole s r).tun = s.tun ∧
    (State.declareRole s r).cav = s.cav ∧ (State.declareRole s r).sched = s.sched ∧ (State.declareRole s r).geode = s.geode ∧
    (State.declareRole s r).boot = s.boot ∧ (State.declareRole s r).pwr = s.pwr ∧ (State.declareRole s r).freeCtr = s.freeCtr ∧
    (State.declareRole s r).sent = s.sent := by
  unfold State.declareRole
  (try dsimp only)
  (repeat' split) <;> (have hk1 := @State.declareFailing_keeps; simp [hk1, State.KeepsOuter, State.KeepsInner, State.KeepsCore])

theorem State.commandedTakeovers_keeps (s : State) :
    s.KeepsOuter (State.commandedTakeovers s) ∧ s.KeepsInner (State.commandedTakeovers s) ∧ (State.commandedTakeovers s).regs = s.regs ∧
    (State.commandedTakeovers s).mem = s.mem ∧ (State.commandedTakeovers s).beat = s.beat ∧ (State.commandedTakeovers s).lanes = s.lanes ∧
    (State.commandedTakeovers s).line = s.line ∧ (State.commandedTakeovers s).ports = s.ports ∧ (State.commandedTakeovers s).tun = s.tun ∧
    (State.commandedTakeovers s).cav = s.cav ∧ (State.commandedTakeovers s).sched = s.sched ∧
    (State.commandedTakeovers s).geode = s.geode ∧ (State.commandedTakeovers s).boot = s.boot ∧ (State.commandedTakeovers s).pwr = s.pwr ∧
    (State.commandedTakeovers s).freeCtr = s.freeCtr ∧ (State.commandedTakeovers s).sent = s.sent := by
  unfold State.commandedTakeovers
  (try dsimp only)
  (repeat' split) <;> (have hk1 := @State.declareRole_keeps; simp [hk1, State.KeepsOuter, State.KeepsInner, State.KeepsCore])

theorem State.writeEntry_keeps (s : State) (ep : EpId) (e : EpEntry) :
    s.KeepsOuter (State.writeEntry s ep e) ∧ s.KeepsInner (State.writeEntry s ep e) ∧ (State.writeEntry s ep e).regs = s.regs ∧
    (State.writeEntry s ep e).mem = s.mem ∧ (State.writeEntry s ep e).beat = s.beat ∧ (State.writeEntry s ep e).lanes = s.lanes ∧
    (State.writeEntry s ep e).line = s.line ∧ (State.writeEntry s ep e).ports = s.ports ∧ (State.writeEntry s ep e).cav = s.cav ∧
    (State.writeEntry s ep e).sched = s.sched ∧ (State.writeEntry s ep e).eng = s.eng ∧ (State.writeEntry s ep e).geode = s.geode ∧
    (State.writeEntry s ep e).boot = s.boot ∧ (State.writeEntry s ep e).pwr = s.pwr ∧ (State.writeEntry s ep e).sent = s.sent := by
  unfold State.writeEntry
  (try dsimp only)
  (repeat' split) <;> (have hk1 := @State.fillCache_keeps; have hk2 := @State.setEntry_keeps; have hk3 := @State.setTable_keeps; simp [hk1, hk2, hk3, State.KeepsOuter, State.KeepsInner, State.KeepsCore])

theorem State.dropUnpinned_keeps (s : State) (ep : EpId) :
    s.KeepsOuter (State.dropUnpinned s ep) ∧ s.KeepsInner (State.dropUnpinned s ep) ∧ (State.dropUnpinned s ep).regs = s.regs ∧
    (State.dropUnpinned s ep).mem = s.mem ∧ (State.dropUnpinned s ep).beat = s.beat ∧ (State.dropUnpinned s ep).lanes = s.lanes ∧
    (State.dropUnpinned s ep).line = s.line ∧ (State.dropUnpinned s ep).ports = s.ports ∧ (State.dropUnpinned s ep).cav = s.cav ∧
    (State.dropUnpinned s ep).sched = s.sched ∧ (State.dropUnpinned s ep).eng = s.eng ∧ (State.dropUnpinned s ep).geode = s.geode ∧
    (State.dropUnpinned s ep).boot = s.boot ∧ (State.dropUnpinned s ep).pwr = s.pwr ∧ (State.dropUnpinned s ep).freeCtr = s.freeCtr ∧
    (State.dropUnpinned s ep).sent = s.sent := by
  unfold State.dropUnpinned
  (try dsimp only)
  (repeat' split) <;> simp [State.KeepsOuter, State.KeepsInner, State.KeepsCore]

theorem State.epCommand_keeps (s : State) (m : Master) (op : Nat) :
    s.KeepsOuter (State.epCommand s m op) ∧ s.KeepsInner (State.epCommand s m op) ∧ (State.epCommand s m op).mem = s.mem ∧
    (State.epCommand s m op).beat = s.beat ∧ (State.epCommand s m op).lanes = s.lanes ∧ (State.epCommand s m op).line = s.line ∧
    (State.epCommand s m op).ports = s.ports ∧ (State.epCommand s m op).cav = s.cav ∧ (State.epCommand s m op).sched = s.sched ∧
    (State.epCommand s m op).eng = s.eng ∧ (State.epCommand s m op).geode = s.geode ∧ (State.epCommand s m op).boot = s.boot ∧
    (State.epCommand s m op).pwr = s.pwr ∧ (State.epCommand s m op).sent = s.sent := by
  unfold State.epCommand
  (try dsimp only)
  (repeat' split) <;> (have hk1 := @State.dropUnpinned_keeps; have hk2 := @State.writeEntry_keeps; simp [hk1, hk2, State.KeepsOuter, State.KeepsInner, State.KeepsCore])

theorem State.mapCommand_keeps (s : State) (m : Master) (op : Nat) :
    s.KeepsOuter (State.mapCommand s m op) ∧ s.KeepsInner (State.mapCommand s m op) ∧ (State.mapCommand s m op).mem = s.mem ∧
    (State.mapCommand s m op).beat = s.beat ∧ (State.mapCommand s m op).lanes = s.lanes ∧ (State.mapCommand s m op).line = s.line ∧
    (State.mapCommand s m op).ports = s.ports ∧ (State.mapCommand s m op).cav = s.cav ∧ (State.mapCommand s m op).sched = s.sched ∧
    (State.mapCommand s m op).eng = s.eng ∧ (State.mapCommand s m op).geode = s.geode ∧ (State.mapCommand s m op).boot = s.boot ∧
    (State.mapCommand s m op).pwr = s.pwr ∧ (State.mapCommand s m op).freeCtr = s.freeCtr ∧ (State.mapCommand s m op).sent = s.sent := by
  unfold State.mapCommand
  (try dsimp only)
  (repeat' split) <;> simp [State.KeepsOuter, State.KeepsInner, State.KeepsCore]

theorem State.treqCommand_keeps (s : State) (m : Master) (w : Word) :
    s.KeepsOuter (State.treqCommand s m w) ∧ s.KeepsInner (State.treqCommand s m w) ∧ (State.treqCommand s m w).mem = s.mem ∧
    (State.treqCommand s m w).beat = s.beat ∧ (State.treqCommand s m w).lanes = s.lanes ∧ (State.treqCommand s m w).line = s.line ∧
    (State.treqCommand s m w).ports = s.ports ∧ (State.treqCommand s m w).tun = s.tun ∧ (State.treqCommand s m w).cav = s.cav ∧
    (State.treqCommand s m w).eng = s.eng ∧ (State.treqCommand s m w).geode = s.geode ∧ (State.treqCommand s m w).boot = s.boot ∧
    (State.treqCommand s m w).pwr = s.pwr ∧ (State.treqCommand s m w).freeCtr = s.freeCtr ∧ (State.treqCommand s m w).sent = s.sent := by
  unfold State.treqCommand
  (try dsimp only)
  (repeat' split) <;> simp [State.KeepsOuter, State.KeepsInner, State.KeepsCore]

theorem State.engCommand_keeps (s : State) (m : Master) (w : Word) :
    s.KeepsOuter (State.engCommand s m w) ∧ s.KeepsInner (State.engCommand s m w) ∧ (State.engCommand s m w).mem = s.mem ∧
    (State.engCommand s m w).beat = s.beat ∧ (State.engCommand s m w).lanes = s.lanes ∧ (State.engCommand s m w).line = s.line ∧
    (State.engCommand s m w).ports = s.ports ∧ (State.engCommand s m w).tun = s.tun ∧ (State.engCommand s m w).cav = s.cav ∧
    (State.engCommand s m w).sched = s.sched ∧ (State.engCommand s m w).geode = s.geode ∧ (State.engCommand s m w).boot = s.boot ∧
    (State.engCommand s m w).pwr = s.pwr ∧ (State.engCommand s m w).freeCtr = s.freeCtr ∧ (State.engCommand s m w).sent = s.sent := by
  unfold State.engCommand
  (try dsimp only)
  (repeat' split) <;> (have hk1 := @State.modEngine_keeps; simp [hk1, State.KeepsOuter, State.KeepsInner, State.KeepsCore])

theorem State.rulesFromRegs_keeps (s : State) :
    s.KeepsOuter (State.rulesFromRegs s) ∧ s.KeepsCore (State.rulesFromRegs s) ∧ (State.rulesFromRegs s).regs = s.regs ∧
    (State.rulesFromRegs s).mem = s.mem ∧ (State.rulesFromRegs s).line = s.line ∧ (State.rulesFromRegs s).ports = s.ports ∧
    (State.rulesFromRegs s).echo = s.echo ∧ (State.rulesFromRegs s).cav = s.cav ∧ (State.rulesFromRegs s).twin = s.twin ∧
    (State.rulesFromRegs s).geode = s.geode ∧ (State.rulesFromRegs s).usb = s.usb ∧ (State.rulesFromRegs s).log = s.log ∧
    (State.rulesFromRegs s).faultN = s.faultN ∧ (State.rulesFromRegs s).freeCtr = s.freeCtr ∧ (State.rulesFromRegs s).sent = s.sent := by
  unfold State.rulesFromRegs
  (try dsimp only)
  (repeat' split) <;> simp [State.KeepsOuter, State.KeepsInner, State.KeepsCore]

theorem State.mapSpare_keeps (s : State) (ph : ChamberIx) (c : Fin 16) :
    s.KeepsOuter (State.mapSpare s ph c) ∧ s.KeepsCore (State.mapSpare s ph c) ∧ (State.mapSpare s ph c).mem = s.mem ∧
    (State.mapSpare s ph c).line = s.line ∧ (State.mapSpare s ph c).ports = s.ports ∧ (State.mapSpare s ph c).echo = s.echo ∧
    (State.mapSpare s ph c).twin = s.twin ∧ (State.mapSpare s ph c).acc = s.acc ∧ (State.mapSpare s ph c).geode = s.geode ∧
    (State.mapSpare s ph c).usb = s.usb ∧ (State.mapSpare s ph c).faultN = s.faultN ∧ (State.mapSpare s ph c).freeCtr = s.freeCtr ∧
    (State.mapSpare s ph c).sent = s.sent := by
  unfold State.mapSpare
  (try dsimp only)
  (repeat' split) <;> simp [State.KeepsOuter, State.KeepsInner, State.KeepsCore]

theorem State.fence_keeps (s : State) (c : Fin 16) :
    s.KeepsOuter (State.fence s c) ∧ s.KeepsCore (State.fence s c) ∧ (State.fence s c).mem = s.mem ∧ (State.fence s c).line = s.line ∧
    (State.fence s c).ports = s.ports ∧ (State.fence s c).echo = s.echo ∧ (State.fence s c).cav = s.cav ∧ (State.fence s c).twin = s.twin ∧
    (State.fence s c).acc = s.acc ∧ (State.fence s c).geode = s.geode ∧ (State.fence s c).freeCtr = s.freeCtr ∧
    (State.fence s c).sent = s.sent := by
  unfold State.fence
  (try dsimp only)
  (repeat' split) <;> simp [State.KeepsOuter, State.KeepsInner, State.KeepsCore]

theorem State.failChamber_keeps (s : State) (ph : ChamberIx) :
    s.KeepsOuter (State.failChamber s ph) ∧ s.KeepsCore (State.failChamber s ph) ∧ (State.failChamber s ph).mem = s.mem ∧
    (State.failChamber s ph).line = s.line ∧ (State.failChamber s ph).ports = s.ports ∧ (State.failChamber s ph).echo = s.echo ∧
    (State.failChamber s ph).twin = s.twin ∧ (State.failChamber s ph).acc = s.acc ∧ (State.failChamber s ph).geode = s.geode ∧
    (State.failChamber s ph).freeCtr = s.freeCtr ∧ (State.failChamber s ph).sent = s.sent := by
  unfold State.failChamber
  (try dsimp only)
  (repeat' split) <;> (have hk1 := @State.fence_keeps; have hk2 := @State.mapSpare_keeps; simp [hk1, hk2, State.KeepsOuter, State.KeepsInner, State.KeepsCore])

theorem State.modRef_keeps (s : State) (q : QueueIx) (id : Nat) (f : QRef → QRef) :
    s.KeepsOuter (State.modRef s q id f) ∧ s.KeepsInner (State.modRef s q id f) ∧ s.KeepsCore (State.modRef s q id f) ∧
    (State.modRef s q id f).regs = s.regs ∧ (State.modRef s q id f).mem = s.mem ∧ (State.modRef s q id f).line = s.line ∧
    (State.modRef s q id f).ports = s.ports ∧ (State.modRef s q id f).geode = s.geode ∧ (State.modRef s q id f).freeCtr = s.freeCtr ∧
    (State.modRef s q id f).sent = s.sent := by
  unfold State.modRef
  (try dsimp only)
  (repeat' split) <;> (have hk1 := @State.modQueue_keeps; simp [hk1, State.KeepsOuter, State.KeepsInner, State.KeepsCore])

theorem State.pageReturned_keeps (s : State) (q : QueueIx) (n : Nat) :
    s.KeepsOuter (State.pageReturned s q n) ∧ s.KeepsInner (State.pageReturned s q n) ∧ s.KeepsCore (State.pageReturned s q n) ∧
    (State.pageReturned s q n).regs = s.regs ∧ (State.pageReturned s q n).mem = s.mem ∧ (State.pageReturned s q n).line = s.line ∧
    (State.pageReturned s q n).ports = s.ports ∧ (State.pageReturned s q n).geode = s.geode ∧
    (State.pageReturned s q n).freeCtr = s.freeCtr ∧ (State.pageReturned s q n).sent = s.sent := by
  unfold State.pageReturned
  (try dsimp only)
  (repeat' split) <;> (have hk1 := @State.modQueue_keeps; simp [hk1, State.KeepsOuter, State.KeepsInner, State.KeepsCore])

theorem State.unspill_keeps (s : State) (q : QueueIx) (r : QRef) (f : Stored) (resv : Nat) (pool : Nat) :
    s.KeepsOuter (State.unspill s q r f resv pool) ∧ s.KeepsInner (State.unspill s q r f resv pool) ∧
    s.KeepsCore (State.unspill s q r f resv pool) ∧ (State.unspill s q r f resv pool).line = s.line ∧
    (State.unspill s q r f resv pool).ports = s.ports ∧ (State.unspill s q r f resv pool).geode = s.geode ∧
    (State.unspill s q r f resv pool).sent = s.sent := by
  unfold State.unspill
  (try dsimp only)
  (repeat' split) <;> (have hk1 := @State.allocCells_keeps; have hk2 := @State.modRef_keeps; have hk3 := @State.modStored_keeps; have hk4 := @State.pageReturned_keeps; simp [hk1, hk2, hk3, hk4, State.KeepsOuter, State.KeepsInner, State.KeepsCore])

theorem State.discardSpilled_keeps (s : State) (q : QueueIx) (r : QRef) :
    s.KeepsOuter (State.discardSpilled s q r) ∧ s.KeepsInner (State.discardSpilled s q r) ∧ s.KeepsCore (State.discardSpilled s q r) ∧
    (State.discardSpilled s q r).mem = s.mem ∧ (State.discardSpilled s q r).line = s.line ∧ (State.discardSpilled s q r).ports = s.ports ∧
    (State.discardSpilled s q r).geode = s.geode ∧ (State.discardSpilled s q r).sent = s.sent := by
  unfold State.discardSpilled
  (try dsimp only)
  (repeat' split) <;> (have hk1 := @State.dropRef_keeps; have hk2 := @State.pageReturned_keeps; have hk3 := @State.sumpError_keeps; simp [hk1, hk2, hk3, State.KeepsOuter, State.KeepsInner, State.KeepsCore])

theorem State.sumpLost_keeps (s : State) :
    s.KeepsOuter (State.sumpLost s) ∧ s.KeepsInner (State.sumpLost s) ∧ (State.sumpLost s).mem = s.mem ∧ (State.sumpLost s).beat = s.beat ∧
    (State.sumpLost s).lanes = s.lanes ∧ (State.sumpLost s).line = s.line ∧ (State.sumpLost s).sched = s.sched ∧
    (State.sumpLost s).eng = s.eng ∧ (State.sumpLost s).geode = s.geode ∧ (State.sumpLost s).boot = s.boot ∧
    (State.sumpLost s).pwr = s.pwr ∧ (State.sumpLost s).freeCtr = s.freeCtr ∧ (State.sumpLost s).sent = s.sent := by
  unfold State.sumpLost
  (try dsimp only)
  (repeat' split) <;> (have hk1 := @State.dropRef_keeps; have hk2 := @State.settle_keeps; simp [hk1, hk2, State.KeepsOuter, State.KeepsInner, State.KeepsCore])

theorem State.untrain_keeps (s : State) :
    s.KeepsOuter (State.untrain s) ∧ s.KeepsInner (State.untrain s) ∧ (State.untrain s).mem = s.mem ∧ (State.untrain s).beat = s.beat ∧
    (State.untrain s).lanes = s.lanes ∧ (State.untrain s).line = s.line ∧ (State.untrain s).sched = s.sched ∧
    (State.untrain s).eng = s.eng ∧ (State.untrain s).geode = s.geode ∧ (State.untrain s).boot = s.boot ∧ (State.untrain s).pwr = s.pwr ∧
    (State.untrain s).freeCtr = s.freeCtr ∧ (State.untrain s).sent = s.sent := by
  unfold State.untrain
  (try dsimp only)
  (repeat' split) <;> (have hk1 := @State.sumpLost_keeps; simp [hk1, State.KeepsOuter, State.KeepsInner, State.KeepsCore])

theorem State.trained_keeps (s : State) (ok : Bool) :
    s.KeepsOuter (State.trained s ok) ∧ s.KeepsInner (State.trained s ok) ∧ s.KeepsCore (State.trained s ok) ∧
    (State.trained s ok).mem = s.mem ∧ (State.trained s ok).line = s.line ∧ (State.trained s ok).ports = s.ports ∧
    (State.trained s ok).geode = s.geode ∧ (State.trained s ok).freeCtr = s.freeCtr ∧ (State.trained s ok).sent = s.sent := by
  unfold State.trained
  (try dsimp only)
  (repeat' split) <;> simp [State.KeepsOuter, State.KeepsInner, State.KeepsCore]

theorem State.startTraining_keeps (s : State) :
    s.KeepsOuter (State.startTraining s) ∧ s.KeepsInner (State.startTraining s) ∧ (State.startTraining s).mem = s.mem ∧
    (State.startTraining s).beat = s.beat ∧ (State.startTraining s).lanes = s.lanes ∧ (State.startTraining s).line = s.line ∧
    (State.startTraining s).sched = s.sched ∧ (State.startTraining s).eng = s.eng ∧ (State.startTraining s).geode = s.geode ∧
    (State.startTraining s).boot = s.boot ∧ (State.startTraining s).pwr = s.pwr ∧ (State.startTraining s).freeCtr = s.freeCtr ∧
    (State.startTraining s).sent = s.sent := by
  unfold State.startTraining
  (try dsimp only)
  (repeat' split) <;> (have hk1 := @State.untrain_keeps; simp [hk1, State.KeepsOuter, State.KeepsInner, State.KeepsCore])

theorem State.spoilEntry_keeps (s : State) (ep : EpId) :
    s.KeepsOuter (State.spoilEntry s ep) ∧ s.KeepsInner (State.spoilEntry s ep) ∧ (State.spoilEntry s ep).regs = s.regs ∧
    (State.spoilEntry s ep).mem = s.mem ∧ (State.spoilEntry s ep).beat = s.beat ∧ (State.spoilEntry s ep).lanes = s.lanes ∧
    (State.spoilEntry s ep).line = s.line ∧ (State.spoilEntry s ep).ports = s.ports ∧ (State.spoilEntry s ep).cav = s.cav ∧
    (State.spoilEntry s ep).sched = s.sched ∧ (State.spoilEntry s ep).eng = s.eng ∧ (State.spoilEntry s ep).geode = s.geode ∧
    (State.spoilEntry s ep).boot = s.boot ∧ (State.spoilEntry s ep).pwr = s.pwr ∧ (State.spoilEntry s ep).freeCtr = s.freeCtr ∧
    (State.spoilEntry s ep).sent = s.sent := by
  unfold State.spoilEntry
  (try dsimp only)
  (repeat' split) <;> simp [State.KeepsOuter, State.KeepsInner, State.KeepsCore]

theorem State.spoilPair_keeps (s : State) (i : Nat) :
    s.KeepsOuter (State.spoilPair s i) ∧ s.KeepsInner (State.spoilPair s i) ∧ s.KeepsCore (State.spoilPair s i) ∧
    (State.spoilPair s i).regs = s.regs ∧ (State.spoilPair s i).mem = s.mem ∧ (State.spoilPair s i).line = s.line ∧
    (State.spoilPair s i).ports = s.ports ∧ (State.spoilPair s i).geode = s.geode ∧ (State.spoilPair s i).freeCtr = s.freeCtr ∧
    (State.spoilPair s i).sent = s.sent := by
  unfold State.spoilPair
  (try dsimp only)
  (repeat' split) <;> simp [State.KeepsOuter, State.KeepsInner, State.KeepsCore]

theorem State.spoilWord_keeps (s : State) (w : Nat) :
    s.KeepsOuter (State.spoilWord s w) ∧ s.KeepsInner (State.spoilWord s w) ∧ s.KeepsCore (State.spoilWord s w) ∧
    (State.spoilWord s w).regs = s.regs ∧ (State.spoilWord s w).mem = s.mem ∧ (State.spoilWord s w).line = s.line ∧
    (State.spoilWord s w).ports = s.ports ∧ (State.spoilWord s w).geode = s.geode ∧ (State.spoilWord s w).freeCtr = s.freeCtr ∧
    (State.spoilWord s w).sent = s.sent := by
  unfold State.spoilWord
  (try dsimp only)
  (repeat' split) <;> simp [State.KeepsOuter, State.KeepsInner, State.KeepsCore]

theorem State.acceptKey_keeps (s : State) (m : Master) (w : Word) (root : Bool) :
    s.KeepsOuter (State.acceptKey s m w root) ∧ s.KeepsInner (State.acceptKey s m w root) ∧ s.KeepsCore (State.acceptKey s m w root) ∧
    (State.acceptKey s m w root).mem = s.mem ∧ (State.acceptKey s m w root).line = s.line ∧ (State.acceptKey s m w root).ports = s.ports ∧
    (State.acceptKey s m w root).cav = s.cav ∧ (State.acceptKey s m w root).freeCtr = s.freeCtr ∧
    (State.acceptKey s m w root).sent = s.sent := by
  unfold State.acceptKey
  (try dsimp only)
  (repeat' split) <;> (have hk1 := @State.markPending_keeps; have hk2 := @State.readSlot_keeps; simp [hk1, hk2, State.KeepsOuter, State.KeepsInner, State.KeepsCore])

theorem State.tamperWipe_keeps (s : State) (sources : Nat) :
    s.KeepsOuter (State.tamperWipe s sources) ∧ s.KeepsCore (State.tamperWipe s sources) ∧ (State.tamperWipe s sources).mem = s.mem ∧
    (State.tamperWipe s sources).line = s.line ∧ (State.tamperWipe s sources).echo = s.echo ∧ (State.tamperWipe s sources).cav = s.cav ∧
    (State.tamperWipe s sources).twin = s.twin ∧ (State.tamperWipe s sources).acc = s.acc ∧ (State.tamperWipe s sources).sent = s.sent := by
  unfold State.tamperWipe
  (try dsimp only)
  (repeat' split) <;> (have hk1 := @State.reauthAll_keeps; simp [hk1, State.KeepsOuter, State.KeepsInner, State.KeepsCore])

theorem State.endTampered_keeps (s : State) :
    s.KeepsOuter (State.endTampered s) ∧ s.KeepsInner (State.endTampered s) ∧ s.KeepsCore (State.endTampered s) ∧
    (State.endTampered s).mem = s.mem ∧ (State.endTampered s).line = s.line ∧ (State.endTampered s).ports = s.ports ∧
    (State.endTampered s).cav = s.cav ∧ (State.endTampered s).freeCtr = s.freeCtr ∧ (State.endTampered s).sent = s.sent := by
  unfold State.endTampered
  (try dsimp only)
  (repeat' split) <;> simp [State.KeepsOuter, State.KeepsInner, State.KeepsCore]

theorem State.tamperNow_keeps (s : State) (sources : Nat) :
    s.KeepsOuter (State.tamperNow s sources) ∧ s.KeepsCore (State.tamperNow s sources) ∧ (State.tamperNow s sources).mem = s.mem ∧
    (State.tamperNow s sources).line = s.line ∧ (State.tamperNow s sources).echo = s.echo ∧ (State.tamperNow s sources).cav = s.cav ∧
    (State.tamperNow s sources).twin = s.twin ∧ (State.tamperNow s sources).acc = s.acc ∧ (State.tamperNow s sources).sent = s.sent := by
  unfold State.tamperNow
  (try dsimp only)
  (repeat' split) <;> (have hk1 := @State.endTampered_keeps; have hk2 := @State.tamperWipe_keeps; simp [hk1, hk2, State.KeepsOuter, State.KeepsInner, State.KeepsCore])

theorem State.enterDebug_keeps (s : State) :
    s.KeepsOuter (State.enterDebug s) ∧ s.KeepsInner (State.enterDebug s) ∧ s.KeepsCore (State.enterDebug s) ∧
    (State.enterDebug s).mem = s.mem ∧ (State.enterDebug s).line = s.line ∧ (State.enterDebug s).cav = s.cav ∧
    (State.enterDebug s).sent = s.sent := by
  unfold State.enterDebug
  (try dsimp only)
  (repeat' split) <;> (have hk1 := @State.reauthAll_keeps; have hk2 := @State.stopAssocs_keeps; have hk3 := @State.zeroVolatile_keeps; simp [hk1, hk2, hk3, State.KeepsOuter, State.KeepsInner, State.KeepsCore])

theorem State.putKeyData_keeps (s : State) (m : Master) (bs : List Byte) :
    s.KeepsOuter (State.putKeyData s m bs) ∧ s.KeepsInner (State.putKeyData s m bs) ∧ s.KeepsCore (State.putKeyData s m bs) ∧
    (State.putKeyData s m bs).mem = s.mem ∧ (State.putKeyData s m bs).line = s.line ∧ (State.putKeyData s m bs).ports = s.ports ∧
    (State.putKeyData s m bs).cav = s.cav ∧ (State.putKeyData s m bs).geode = s.geode ∧ (State.putKeyData s m bs).freeCtr = s.freeCtr ∧
    (State.putKeyData s m bs).sent = s.sent := by
  (have hi := @State.ite_fields; simp [State.putKeyData, hi, State.KeepsOuter, State.KeepsInner, State.KeepsCore])

theorem State.putKey_keeps (s : State) (c : KeyCommand) (parent : Option (BitVec 8)) (value : List Byte) :
    s.KeepsOuter (State.putKey s c parent value) ∧ s.KeepsInner (State.putKey s c parent value) ∧
    s.KeepsCore (State.putKey s c parent value) ∧ (State.putKey s c parent value).regs = s.regs ∧
    (State.putKey s c parent value).mem = s.mem ∧ (State.putKey s c parent value).line = s.line ∧
    (State.putKey s c parent value).ports = s.ports ∧ (State.putKey s c parent value).cav = s.cav ∧
    (State.putKey s c parent value).freeCtr = s.freeCtr ∧ (State.putKey s c parent value).sent = s.sent := by
  unfold State.putKey
  (try dsimp only)
  (repeat' split) <;> (have hk1 := @State.createKey_keeps; have hk2 := @State.markCascade_keeps; simp [hk1, hk2, State.KeepsOuter, State.KeepsInner, State.KeepsCore])

theorem State.doKey_keeps (s : State) (c : KeyCommand) :
    s.KeepsOuter (State.doKey s c) ∧ s.KeepsInner (State.doKey s c) ∧ (State.doKey s c).mem = s.mem ∧ (State.doKey s c).beat = s.beat ∧
    (State.doKey s c).lanes = s.lanes ∧ (State.doKey s c).tun = s.tun ∧ (State.doKey s c).sched = s.sched ∧
    (State.doKey s c).boot = s.boot ∧ (State.doKey s c).pwr = s.pwr := by
  unfold State.doKey
  (try dsimp only)
  (repeat' split) <;> (have hk1 := @State.installAssoc_keeps; have hk2 := @State.putKey_keeps; have hk3 := @State.putKeyData_keeps; have hk4 := @State.retireAssoc_keeps; have hk5 := @State.transmit_keeps; have hk6 := @State.zeroKey_keeps; simp [hk1, hk2, hk3, hk4, hk5, hk6, State.KeepsOuter, State.KeepsInner, State.KeepsCore])

theorem State.doRoot_keeps (s : State) (c : KeyCommand) :
    s.KeepsOuter (State.doRoot s c) ∧ s.KeepsCore (State.doRoot s c) ∧ (State.doRoot s c).mem = s.mem ∧ (State.doRoot s c).line = s.line ∧
    (State.doRoot s c).echo = s.echo ∧ (State.doRoot s c).cav = s.cav ∧ (State.doRoot s c).twin = s.twin ∧ (State.doRoot s c).acc = s.acc ∧
    (State.doRoot s c).sent = s.sent := by
  unfold State.doRoot
  (try dsimp only)
  (repeat' split) <;> (have hk1 := @State.modSlot_keeps; have hk2 := @State.tamperWipe_keeps; simp [hk1, hk2, State.KeepsOuter, State.KeepsInner, State.KeepsCore])

theorem State.runKey_keeps (s0 : State) (c : KeyCommand) :
    s0.KeepsOuter (State.runKey s0 c) ∧ (State.runKey s0 c).mem = s0.mem ∧ (State.runKey s0 c).beat = s0.beat ∧
    (State.runKey s0 c).lanes = s0.lanes ∧ (State.runKey s0 c).echo = s0.echo ∧ (State.runKey s0 c).tun = s0.tun ∧
    (State.runKey s0 c).sched = s0.sched ∧ (State.runKey s0 c).twin = s0.twin ∧ (State.runKey s0 c).acc = s0.acc ∧
    (State.runKey s0 c).boot = s0.boot ∧ (State.runKey s0 c).pwr = s0.pwr := by
  unfold State.runKey
  (try dsimp only)
  (repeat' split) <;> (have hk1 := @State.doKey_keeps; have hk2 := @State.doRoot_keeps; have hk3 := @State.readSlot_keeps; simp [hk1, hk2, hk3, State.KeepsOuter, State.KeepsInner, State.KeepsCore])

theorem State.endKey_keeps (s : State) :
    s.KeepsOuter (State.endKey s) ∧ (State.endKey s).mem = s.mem ∧ (State.endKey s).beat = s.beat ∧ (State.endKey s).lanes = s.lanes ∧
    (State.endKey s).echo = s.echo ∧ (State.endKey s).tun = s.tun ∧ (State.endKey s).sched = s.sched ∧ (State.endKey s).twin = s.twin ∧
    (State.endKey s).acc = s.acc ∧ (State.endKey s).boot = s.boot ∧ (State.endKey s).pwr = s.pwr := by
  unfold State.endKey
  (try dsimp only)
  (repeat' split) <;> (have hk1 := @State.runKey_keeps; simp [hk1, State.KeepsOuter, State.KeepsInner, State.KeepsCore])

theorem State.applyEarly_keeps (s : State) (c : KeyCommand) :
    s.KeepsOuter (State.applyEarly s c) ∧ s.KeepsInner (State.applyEarly s c) ∧ s.KeepsCore (State.applyEarly s c) ∧
    (State.applyEarly s c).regs = s.regs ∧ (State.applyEarly s c).mem = s.mem ∧ (State.applyEarly s c).line = s.line ∧
    (State.applyEarly s c).ports = s.ports ∧ (State.applyEarly s c).cav = s.cav ∧ (State.applyEarly s c).freeCtr = s.freeCtr ∧
    (State.applyEarly s c).sent = s.sent := by
  unfold State.applyEarly
  (try dsimp only)
  (repeat' split) <;> (have hk1 := @State.markCascade_keeps; have hk2 := @State.stopAssocs_keeps; have hk3 := @State.zeroKey_keeps; simp [hk1, hk2, hk3, State.KeepsOuter, State.KeepsInner, State.KeepsCore])

theorem State.applyDueKeys_keeps (s : State) :
    s.KeepsOuter (State.applyDueKeys s) ∧ s.KeepsInner (State.applyDueKeys s) ∧ s.KeepsCore (State.applyDueKeys s) ∧
    (State.applyDueKeys s).regs = s.regs ∧ (State.applyDueKeys s).mem = s.mem ∧ (State.applyDueKeys s).line = s.line ∧
    (State.applyDueKeys s).ports = s.ports ∧ (State.applyDueKeys s).cav = s.cav ∧ (State.applyDueKeys s).freeCtr = s.freeCtr ∧
    (State.applyDueKeys s).sent = s.sent := by
  unfold State.applyDueKeys
  (try dsimp only)
  (repeat' split) <;> (have hk1 := @State.applyEarly_keeps; simp [hk1, State.KeepsOuter, State.KeepsInner, State.KeepsCore])

theorem State.cascadeHead_keeps (s0 : State) :
    s0.KeepsOuter (State.cascadeHead s0) ∧ s0.KeepsInner (State.cascadeHead s0) ∧ s0.KeepsCore (State.cascadeHead s0) ∧
    (State.cascadeHead s0).mem = s0.mem ∧ (State.cascadeHead s0).line = s0.line ∧ (State.cascadeHead s0).cav = s0.cav ∧
    (State.cascadeHead s0).sent = s0.sent := by
  unfold State.cascadeHead
  (try dsimp only)
  (repeat' split) <;> (have hk1 := @State.applyDueKeys_keeps; have hk2 := @State.reauthStopped_keeps; have hk3 := @State.stopAssocs_keeps; simp [hk1, hk2, hk3, State.KeepsOuter, State.KeepsInner, State.KeepsCore])

theorem State.fuseCommand_keeps (s : State) (w : Word) :
    s.KeepsOuter (State.fuseCommand s w) ∧ s.KeepsInner (State.fuseCommand s w) ∧ s.KeepsCore (State.fuseCommand s w) ∧
    (State.fuseCommand s w).mem = s.mem ∧ (State.fuseCommand s w).line = s.line ∧ (State.fuseCommand s w).ports = s.ports ∧
    (State.fuseCommand s w).cav = s.cav ∧ (State.fuseCommand s w).sent = s.sent := by
  unfold State.fuseCommand
  (try dsimp only)
  (repeat' split) <;> simp [State.KeepsOuter, State.KeepsInner, State.KeepsCore]

theorem State.endFuse_keeps (s : State) (ok : Bool) :
    s.KeepsOuter (State.endFuse s ok) ∧ s.KeepsInner (State.endFuse s ok) ∧ s.KeepsCore (State.endFuse s ok) ∧
    (State.endFuse s ok).mem = s.mem ∧ (State.endFuse s ok).line = s.line ∧ (State.endFuse s ok).ports = s.ports ∧
    (State.endFuse s ok).cav = s.cav ∧ (State.endFuse s ok).sent = s.sent := by
  unfold State.endFuse
  (try dsimp only)
  (repeat' split) <;> simp [State.KeepsOuter, State.KeepsInner, State.KeepsCore]

theorem State.cavernOff_keeps (s : State) :
    s.KeepsOuter (State.cavernOff s) ∧ s.KeepsInner (State.cavernOff s) ∧ (State.cavernOff s).beat = s.beat ∧
    (State.cavernOff s).lanes = s.lanes ∧ (State.cavernOff s).line = s.line ∧ (State.cavernOff s).sched = s.sched ∧
    (State.cavernOff s).eng = s.eng ∧ (State.cavernOff s).geode = s.geode ∧ (State.cavernOff s).boot = s.boot ∧
    (State.cavernOff s).pwr = s.pwr ∧ (State.cavernOff s).freeCtr = s.freeCtr ∧ (State.cavernOff s).sent = s.sent := by
  unfold State.cavernOff
  (try dsimp only)
  (repeat' split) <;> simp [State.KeepsOuter, State.KeepsInner, State.KeepsCore]

theorem State.cavernOn_keeps (s : State) :
    s.KeepsOuter (State.cavernOn s) ∧ s.KeepsInner (State.cavernOn s) ∧ s.KeepsCore (State.cavernOn s) ∧ (State.cavernOn s).mem = s.mem ∧
    (State.cavernOn s).line = s.line ∧ (State.cavernOn s).ports = s.ports ∧ (State.cavernOn s).geode = s.geode ∧
    (State.cavernOn s).freeCtr = s.freeCtr ∧ (State.cavernOn s).sent = s.sent := by
  unfold State.cavernOn
  (try dsimp only)
  (repeat' split) <;> simp [State.KeepsOuter, State.KeepsInner, State.KeepsCore]

theorem State.sumpOn_keeps (s : State) :
    s.KeepsOuter (State.sumpOn s) ∧ s.KeepsInner (State.sumpOn s) ∧ (State.sumpOn s).mem = s.mem ∧ (State.sumpOn s).beat = s.beat ∧
    (State.sumpOn s).lanes = s.lanes ∧ (State.sumpOn s).line = s.line ∧ (State.sumpOn s).sched = s.sched ∧ (State.sumpOn s).eng = s.eng ∧
    (State.sumpOn s).geode = s.geode ∧ (State.sumpOn s).boot = s.boot ∧ (State.sumpOn s).freeCtr = s.freeCtr ∧
    (State.sumpOn s).sent = s.sent := by
  unfold State.sumpOn
  (try dsimp only)
  (repeat' split) <;> (have hk1 := @State.startTraining_keeps; simp [hk1, State.KeepsOuter, State.KeepsInner, State.KeepsCore])

theorem State.sumpSleep_keeps (s : State) :
    s.KeepsOuter (State.sumpSleep s) ∧ s.KeepsInner (State.sumpSleep s) ∧ (State.sumpSleep s).mem = s.mem ∧
    (State.sumpSleep s).beat = s.beat ∧ (State.sumpSleep s).lanes = s.lanes ∧ (State.sumpSleep s).line = s.line ∧
    (State.sumpSleep s).sched = s.sched ∧ (State.sumpSleep s).eng = s.eng ∧ (State.sumpSleep s).geode = s.geode ∧
    (State.sumpSleep s).boot = s.boot ∧ (State.sumpSleep s).pwr = s.pwr ∧ (State.sumpSleep s).freeCtr = s.freeCtr ∧
    (State.sumpSleep s).sent = s.sent := by
  unfold State.sumpSleep
  (try dsimp only)
  (repeat' split) <;> (have hk1 := @State.evict_keeps; have hk2 := @State.sumpLost_keeps; simp [hk1, hk2, State.KeepsOuter, State.KeepsInner, State.KeepsCore])

theorem State.lanesOff_keeps (s : State) :
    s.KeepsOuter (State.lanesOff s) ∧ s.KeepsInner (State.lanesOff s) ∧ (State.lanesOff s).mem = s.mem ∧ (State.lanesOff s).beat = s.beat ∧
    (State.lanesOff s).tun = s.tun ∧ (State.lanesOff s).sched = s.sched ∧ (State.lanesOff s).eng = s.eng ∧ (State.lanesOff s).boot = s.boot := by
  (have hk1 := @State.portDown_keeps; have hk2 := @State.trained_keeps; have hi := @State.ite_fields; simp [hk1, hk2, State.lanesOff, hi, State.KeepsOuter, State.KeepsInner, State.KeepsCore])

theorem State.lanesOn_keeps (s : State) :
    s.KeepsOuter (State.lanesOn s) ∧ s.KeepsInner (State.lanesOn s) ∧ (State.lanesOn s).mem = s.mem ∧ (State.lanesOn s).beat = s.beat ∧
    (State.lanesOn s).lanes = s.lanes ∧ (State.lanesOn s).line = s.line ∧ (State.lanesOn s).tun = s.tun ∧ (State.lanesOn s).cav = s.cav ∧
    (State.lanesOn s).sched = s.sched ∧ (State.lanesOn s).eng = s.eng ∧ (State.lanesOn s).geode = s.geode ∧
    (State.lanesOn s).boot = s.boot ∧ (State.lanesOn s).sent = s.sent := by
  unfold State.lanesOn
  (try dsimp only)
  (repeat' split) <;> (have hk1 := @State.usePreset_keeps; simp [hk1, State.KeepsOuter, State.KeepsInner, State.KeepsCore])

theorem State.offPll_keeps (s : State) :
    s.KeepsOuter (State.offPll s) ∧ s.KeepsInner (State.offPll s) ∧ s.KeepsCore (State.offPll s) ∧ (State.offPll s).mem = s.mem ∧
    (State.offPll s).line = s.line ∧ (State.offPll s).ports = s.ports ∧ (State.offPll s).cav = s.cav ∧ (State.offPll s).geode = s.geode ∧
    (State.offPll s).freeCtr = s.freeCtr ∧ (State.offPll s).sent = s.sent := by
  unfold State.offPll
  (try dsimp only)
  (repeat' split) <;> simp [State.KeepsOuter, State.KeepsInner, State.KeepsCore]

theorem State.freeEngines_keeps (s : State) :
    s.KeepsOuter (State.freeEngines s) ∧ s.KeepsInner (State.freeEngines s) ∧ (State.freeEngines s).regs = s.regs ∧
    (State.freeEngines s).mem = s.mem ∧ (State.freeEngines s).beat = s.beat ∧ (State.freeEngines s).lanes = s.lanes ∧
    (State.freeEngines s).line = s.line ∧ (State.freeEngines s).ports = s.ports ∧ (State.freeEngines s).tun = s.tun ∧
    (State.freeEngines s).cav = s.cav ∧ (State.freeEngines s).sched = s.sched ∧ (State.freeEngines s).geode = s.geode ∧
    (State.freeEngines s).boot = s.boot ∧ (State.freeEngines s).pwr = s.pwr ∧ (State.freeEngines s).freeCtr = s.freeCtr ∧
    (State.freeEngines s).sent = s.sent := by
  unfold State.freeEngines
  (try dsimp only)
  (repeat' split) <;> simp [State.KeepsOuter, State.KeepsInner, State.KeepsCore]

theorem State.wakeCause_keeps (s : State) (sources : BitVec 7) :
    s.KeepsOuter (State.wakeCause s sources) ∧ s.KeepsInner (State.wakeCause s sources) ∧ (State.wakeCause s sources).mem = s.mem ∧
    (State.wakeCause s sources).beat = s.beat ∧ (State.wakeCause s sources).lanes = s.lanes ∧ (State.wakeCause s sources).line = s.line ∧
    (State.wakeCause s sources).ports = s.ports ∧ (State.wakeCause s sources).tun = s.tun ∧ (State.wakeCause s sources).cav = s.cav ∧
    (State.wakeCause s sources).sched = s.sched ∧ (State.wakeCause s sources).eng = s.eng ∧ (State.wakeCause s sources).geode = s.geode ∧
    (State.wakeCause s sources).boot = s.boot ∧ (State.wakeCause s sources).freeCtr = s.freeCtr ∧ (State.wakeCause s sources).sent = s.sent := by
  unfold State.wakeCause
  (try dsimp only)
  (repeat' split) <;> simp [State.KeepsOuter, State.KeepsInner, State.KeepsCore]

theorem State.wakeMemories_keeps (s : State) :
    s.KeepsOuter (State.wakeMemories s) ∧ s.KeepsInner (State.wakeMemories s) ∧ (State.wakeMemories s).mem = s.mem ∧
    (State.wakeMemories s).beat = s.beat ∧ (State.wakeMemories s).lanes = s.lanes ∧ (State.wakeMemories s).line = s.line ∧
    (State.wakeMemories s).sched = s.sched ∧ (State.wakeMemories s).eng = s.eng ∧ (State.wakeMemories s).geode = s.geode ∧
    (State.wakeMemories s).boot = s.boot ∧ (State.wakeMemories s).freeCtr = s.freeCtr ∧ (State.wakeMemories s).sent = s.sent := by
  unfold State.wakeMemories
  (try dsimp only)
  (repeat' split) <;> (have hk1 := @State.cavernOn_keeps; have hk2 := @State.sumpOn_keeps; simp [hk1, hk2, State.KeepsOuter, State.KeepsInner, State.KeepsCore])

theorem State.enterLimited_keeps (s : State) :
    s.KeepsOuter (State.enterLimited s) ∧ s.KeepsInner (State.enterLimited s) ∧ s.KeepsCore (State.enterLimited s) ∧
    (State.enterLimited s).mem = s.mem ∧ (State.enterLimited s).line = s.line ∧ (State.enterLimited s).ports = s.ports ∧
    (State.enterLimited s).cav = s.cav ∧ (State.enterLimited s).geode = s.geode ∧ (State.enterLimited s).freeCtr = s.freeCtr ∧
    (State.enterLimited s).sent = s.sent := by
  unfold State.enterLimited
  (try dsimp only)
  (repeat' split) <;> (have hk1 := @State.offPll_keeps; simp [hk1, State.KeepsOuter, State.KeepsInner, State.KeepsCore])

theorem State.wakeLayover_keeps (s : State) (sources : BitVec 7) :
    s.KeepsOuter (State.wakeLayover s sources) ∧ s.KeepsInner (State.wakeLayover s sources) ∧ (State.wakeLayover s sources).mem = s.mem ∧
    (State.wakeLayover s sources).beat = s.beat ∧ (State.wakeLayover s sources).lanes = s.lanes ∧
    (State.wakeLayover s sources).line = s.line ∧ (State.wakeLayover s sources).ports = s.ports ∧
    (State.wakeLayover s sources).tun = s.tun ∧ (State.wakeLayover s sources).cav = s.cav ∧ (State.wakeLayover s sources).sched = s.sched ∧
    (State.wakeLayover s sources).eng = s.eng ∧ (State.wakeLayover s sources).geode = s.geode ∧
    (State.wakeLayover s sources).boot = s.boot ∧ (State.wakeLayover s sources).freeCtr = s.freeCtr ∧
    (State.wakeLayover s sources).sent = s.sent := by
  unfold State.wakeLayover
  (try dsimp only)
  (repeat' split) <;> (have hk1 := @State.wakeCause_keeps; simp [hk1, State.KeepsOuter, State.KeepsInner, State.KeepsCore])

theorem State.sendVoltage_keeps (s : State) (mv : Nat) :
    s.KeepsOuter (State.sendVoltage s mv) ∧ s.KeepsInner (State.sendVoltage s mv) ∧ s.KeepsCore (State.sendVoltage s mv) ∧
    (State.sendVoltage s mv).regs = s.regs ∧ (State.sendVoltage s mv).mem = s.mem ∧ (State.sendVoltage s mv).ports = s.ports ∧
    (State.sendVoltage s mv).cav = s.cav ∧ (State.sendVoltage s mv).geode = s.geode ∧ (State.sendVoltage s mv).freeCtr = s.freeCtr := by
  unfold State.sendVoltage
  (try dsimp only)
  (repeat' split) <;> simp [State.KeepsOuter, State.KeepsInner, State.KeepsCore]

theorem State.wakeAttempt_keeps (s : State) :
    s.KeepsOuter (State.wakeAttempt s) ∧ s.KeepsInner (State.wakeAttempt s) ∧ (State.wakeAttempt s).regs = s.regs ∧
    (State.wakeAttempt s).mem = s.mem ∧ (State.wakeAttempt s).beat = s.beat ∧ (State.wakeAttempt s).lanes = s.lanes ∧
    (State.wakeAttempt s).ports = s.ports ∧ (State.wakeAttempt s).tun = s.tun ∧ (State.wakeAttempt s).cav = s.cav ∧
    (State.wakeAttempt s).sched = s.sched ∧ (State.wakeAttempt s).eng = s.eng ∧ (State.wakeAttempt s).geode = s.geode ∧
    (State.wakeAttempt s).boot = s.boot ∧ (State.wakeAttempt s).freeCtr = s.freeCtr := by
  unfold State.wakeAttempt
  (try dsimp only)
  (repeat' split) <;> (have hk1 := @State.sendVoltage_keeps; simp [hk1, State.KeepsOuter, State.KeepsInner, State.KeepsCore])

theorem State.wakeDormant_keeps (s : State) (sources : BitVec 7) :
    s.KeepsOuter (State.wakeDormant s sources) ∧ s.KeepsInner (State.wakeDormant s sources) ∧ (State.wakeDormant s sources).mem = s.mem ∧
    (State.wakeDormant s sources).beat = s.beat ∧ (State.wakeDormant s sources).lanes = s.lanes ∧
    (State.wakeDormant s sources).ports = s.ports ∧ (State.wakeDormant s sources).tun = s.tun ∧ (State.wakeDormant s sources).cav = s.cav ∧
    (State.wakeDormant s sources).sched = s.sched ∧ (State.wakeDormant s sources).eng = s.eng ∧
    (State.wakeDormant s sources).geode = s.geode ∧ (State.wakeDormant s sources).freeCtr = s.freeCtr := by
  unfold State.wakeDormant
  (try dsimp only)
  (repeat' split) <;> (have hk1 := @State.wakeAttempt_keeps; have hk2 := @State.wakeCause_keeps; simp [hk1, hk2, State.KeepsOuter, State.KeepsInner, State.KeepsCore])

theorem State.wakeFailed_keeps (s : State) :
    s.KeepsOuter (State.wakeFailed s) ∧ (State.wakeFailed s).mem = s.mem ∧ (State.wakeFailed s).beat = s.beat ∧
    (State.wakeFailed s).lanes = s.lanes ∧ (State.wakeFailed s).line = s.line ∧ (State.wakeFailed s).ports = s.ports ∧
    (State.wakeFailed s).echo = s.echo ∧ (State.wakeFailed s).tun = s.tun ∧ (State.wakeFailed s).cav = s.cav ∧
    (State.wakeFailed s).sched = s.sched ∧ (State.wakeFailed s).twin = s.twin ∧ (State.wakeFailed s).eng = s.eng ∧
    (State.wakeFailed s).acc = s.acc ∧ (State.wakeFailed s).geode = s.geode ∧ (State.wakeFailed s).boot = s.boot ∧
    (State.wakeFailed s).freeCtr = s.freeCtr ∧ (State.wakeFailed s).sent = s.sent := by
  unfold State.wakeFailed
  (try dsimp only)
  (repeat' split) <;> simp [State.KeepsOuter, State.KeepsInner, State.KeepsCore]

theorem State.wakeNoAck_keeps (s : State) :
    s.KeepsOuter (State.wakeNoAck s) ∧ (State.wakeNoAck s).mem = s.mem ∧ (State.wakeNoAck s).beat = s.beat ∧
    (State.wakeNoAck s).lanes = s.lanes ∧ (State.wakeNoAck s).ports = s.ports ∧ (State.wakeNoAck s).echo = s.echo ∧
    (State.wakeNoAck s).tun = s.tun ∧ (State.wakeNoAck s).cav = s.cav ∧ (State.wakeNoAck s).sched = s.sched ∧
    (State.wakeNoAck s).twin = s.twin ∧ (State.wakeNoAck s).eng = s.eng ∧ (State.wakeNoAck s).acc = s.acc ∧
    (State.wakeNoAck s).geode = s.geode ∧ (State.wakeNoAck s).boot = s.boot ∧ (State.wakeNoAck s).freeCtr = s.freeCtr := by
  unfold State.wakeNoAck
  (try dsimp only)
  (repeat' split) <;> (have hk1 := @State.sendVoltage_keeps; have hk2 := @State.wakeFailed_keeps; simp [hk1, hk2, State.KeepsOuter, State.KeepsInner, State.KeepsCore])

theorem State.latchWake_keeps (s : State) (src : Nat) :
    s.KeepsOuter (State.latchWake s src) ∧ s.KeepsInner (State.latchWake s src) ∧ (State.latchWake s src).regs = s.regs ∧
    (State.latchWake s src).mem = s.mem ∧ (State.latchWake s src).beat = s.beat ∧ (State.latchWake s src).lanes = s.lanes ∧
    (State.latchWake s src).line = s.line ∧ (State.latchWake s src).ports = s.ports ∧ (State.latchWake s src).tun = s.tun ∧
    (State.latchWake s src).cav = s.cav ∧ (State.latchWake s src).sched = s.sched ∧ (State.latchWake s src).eng = s.eng ∧
    (State.latchWake s src).geode = s.geode ∧ (State.latchWake s src).boot = s.boot ∧ (State.latchWake s src).freeCtr = s.freeCtr ∧
    (State.latchWake s src).sent = s.sent := by
  unfold State.latchWake
  (try dsimp only)
  (repeat' split) <;> simp [State.KeepsOuter, State.KeepsInner, State.KeepsCore]

theorem State.wakeBy_keeps (s : State) (src : Nat) :
    s.KeepsOuter (State.wakeBy s src) ∧ s.KeepsInner (State.wakeBy s src) ∧ (State.wakeBy s src).mem = s.mem ∧
    (State.wakeBy s src).beat = s.beat ∧ (State.wakeBy s src).lanes = s.lanes ∧ (State.wakeBy s src).ports = s.ports ∧
    (State.wakeBy s src).tun = s.tun ∧ (State.wakeBy s src).cav = s.cav ∧ (State.wakeBy s src).sched = s.sched ∧
    (State.wakeBy s src).eng = s.eng ∧ (State.wakeBy s src).geode = s.geode ∧ (State.wakeBy s src).freeCtr = s.freeCtr := by
  unfold State.wakeBy
  (try dsimp only)
  (repeat' split) <;> (have hk1 := @State.latchWake_keeps; have hk2 := @State.wakeDormant_keeps; have hk3 := @State.wakeLayover_keeps; simp [hk1, hk2, hk3, State.KeepsOuter, State.KeepsInner, State.KeepsCore])

theorem State.replayLatch_keeps (s : State) :
    s.KeepsOuter (State.replayLatch s) ∧ s.KeepsInner (State.replayLatch s) ∧ (State.replayLatch s).mem = s.mem ∧
    (State.replayLatch s).beat = s.beat ∧ (State.replayLatch s).lanes = s.lanes ∧ (State.replayLatch s).ports = s.ports ∧
    (State.replayLatch s).tun = s.tun ∧ (State.replayLatch s).cav = s.cav ∧ (State.replayLatch s).sched = s.sched ∧
    (State.replayLatch s).eng = s.eng ∧ (State.replayLatch s).geode = s.geode ∧ (State.replayLatch s).freeCtr = s.freeCtr := by
  unfold State.replayLatch
  (try dsimp only)
  (repeat' split) <;> (have hk1 := @State.wakeDormant_keeps; have hk2 := @State.wakeLayover_keeps; simp [hk1, hk2, State.KeepsOuter, State.KeepsInner, State.KeepsCore])

theorem State.tornFlash_keeps (s : State) (o : FlashOp) :
    s.KeepsOuter (State.tornFlash s o) ∧ s.KeepsInner (State.tornFlash s o) ∧ (State.tornFlash s o).regs = s.regs ∧
    (State.tornFlash s o).mem = s.mem ∧ (State.tornFlash s o).beat = s.beat ∧ (State.tornFlash s o).lanes = s.lanes ∧
    (State.tornFlash s o).line = s.line ∧ (State.tornFlash s o).ports = s.ports ∧ (State.tornFlash s o).tun = s.tun ∧
    (State.tornFlash s o).cav = s.cav ∧ (State.tornFlash s o).sched = s.sched ∧ (State.tornFlash s o).eng = s.eng ∧
    (State.tornFlash s o).geode = s.geode ∧ (State.tornFlash s o).pwr = s.pwr ∧ (State.tornFlash s o).sent = s.sent := by
  unfold State.tornFlash
  (try dsimp only)
  (repeat' split) <;> simp [State.KeepsOuter, State.KeepsInner, State.KeepsCore]

theorem State.cutOps_keeps (s : State) :
    s.KeepsOuter (State.cutOps s) ∧ (State.cutOps s).mem = s.mem ∧ (State.cutOps s).beat = s.beat ∧ (State.cutOps s).lanes = s.lanes ∧
    (State.cutOps s).echo = s.echo ∧ (State.cutOps s).tun = s.tun ∧ (State.cutOps s).sched = s.sched ∧ (State.cutOps s).twin = s.twin ∧
    (State.cutOps s).acc = s.acc ∧ (State.cutOps s).pwr = s.pwr := by
  unfold State.cutOps
  (try dsimp only)
  (repeat' split) <;> (have hk1 := @State.endFuse_keeps; have hk2 := @State.endKey_keeps; have hk3 := @State.tornFlash_keeps; simp [hk1, hk2, hk3, State.KeepsOuter, State.KeepsInner, State.KeepsCore])

theorem State.restarted_keeps (s0 : State) (k : StartKind) :
    (State.restarted s0 k).carStatus = s0.carStatus ∧ (State.restarted s0 k).ticks = s0.ticks ∧ (State.restarted s0 k).pending = s0.pending := by
  unfold State.restarted
  (try dsimp only)
  (repeat' split) <;> (have hk1 := @State.cutOps_keeps; simp [hk1, State.KeepsOuter, State.KeepsInner, State.KeepsCore])

theorem State.strapDefaults_keeps (s : State) (eff : Nat) :
    s.KeepsOuter (State.strapDefaults s eff) ∧ s.KeepsInner (State.strapDefaults s eff) ∧ s.KeepsCore (State.strapDefaults s eff) ∧
    (State.strapDefaults s eff).mem = s.mem ∧ (State.strapDefaults s eff).line = s.line ∧ (State.strapDefaults s eff).ports = s.ports ∧
    (State.strapDefaults s eff).geode = s.geode ∧ (State.strapDefaults s eff).freeCtr = s.freeCtr ∧
    (State.strapDefaults s eff).sent = s.sent := by
  unfold State.strapDefaults
  (try dsimp only)
  (repeat' split) <;> (have hk1 := @State.modQueue_keeps; simp [hk1, State.KeepsOuter, State.KeepsInner, State.KeepsCore])

theorem State.setSession_keeps (s : State) (n : Nat) :
    s.KeepsOuter (State.setSession s n) ∧ s.KeepsInner (State.setSession s n) ∧ s.KeepsCore (State.setSession s n) ∧
    (State.setSession s n).mem = s.mem ∧ (State.setSession s n).line = s.line ∧ (State.setSession s n).ports = s.ports ∧
    (State.setSession s n).cav = s.cav ∧ (State.setSession s n).geode = s.geode ∧ (State.setSession s n).freeCtr = s.freeCtr ∧
    (State.setSession s n).sent = s.sent := by
  unfold State.setSession
  (try dsimp only)
  (repeat' split) <;> simp [State.KeepsOuter, State.KeepsInner, State.KeepsCore]

theorem State.closeSession_keeps (s : State) :
    s.KeepsOuter (State.closeSession s) ∧ s.KeepsInner (State.closeSession s) ∧ s.KeepsCore (State.closeSession s) ∧
    (State.closeSession s).mem = s.mem ∧ (State.closeSession s).line = s.line ∧ (State.closeSession s).ports = s.ports ∧
    (State.closeSession s).cav = s.cav ∧ (State.closeSession s).geode = s.geode ∧ (State.closeSession s).freeCtr = s.freeCtr ∧
    (State.closeSession s).sent = s.sent := by
  unfold State.closeSession
  (try dsimp only)
  (repeat' split) <;> (have hk1 := @State.setSession_keeps; simp [hk1, State.KeepsOuter, State.KeepsInner, State.KeepsCore])

theorem State.sessionConfig_keeps (s : State) :
    s.KeepsOuter (State.sessionConfig s) ∧ s.KeepsCore (State.sessionConfig s) ∧ (State.sessionConfig s).mem = s.mem ∧
    (State.sessionConfig s).line = s.line ∧ (State.sessionConfig s).ports = s.ports ∧ (State.sessionConfig s).echo = s.echo ∧
    (State.sessionConfig s).cav = s.cav ∧ (State.sessionConfig s).twin = s.twin ∧ (State.sessionConfig s).acc = s.acc ∧
    (State.sessionConfig s).geode = s.geode ∧ (State.sessionConfig s).log = s.log ∧ (State.sessionConfig s).faultN = s.faultN ∧
    (State.sessionConfig s).freeCtr = s.freeCtr ∧ (State.sessionConfig s).sent = s.sent := by
  unfold State.sessionConfig
  (try dsimp only)
  (repeat' split) <;> (have hk1 := @State.closeSession_keeps; have hk2 := @State.setSession_keeps; simp [hk1, hk2, State.KeepsOuter, State.KeepsInner, State.KeepsCore])

theorem State.mfMode_keeps (s : State) :
    s.KeepsOuter (State.mfMode s) ∧ s.KeepsCore (State.mfMode s) ∧ (State.mfMode s).mem = s.mem ∧ (State.mfMode s).line = s.line ∧
    (State.mfMode s).ports = s.ports ∧ (State.mfMode s).echo = s.echo ∧ (State.mfMode s).cav = s.cav ∧ (State.mfMode s).twin = s.twin ∧
    (State.mfMode s).acc = s.acc ∧ (State.mfMode s).geode = s.geode ∧ (State.mfMode s).log = s.log ∧ (State.mfMode s).faultN = s.faultN ∧
    (State.mfMode s).freeCtr = s.freeCtr ∧ (State.mfMode s).sent = s.sent := by
  unfold State.mfMode
  (try dsimp only)
  (repeat' split) <;> (have hk1 := @State.closeSession_keeps; have hk2 := @State.sessionConfig_keeps; simp [hk1, hk2, State.KeepsOuter, State.KeepsInner, State.KeepsCore])

theorem State.changeMode_keeps (s : State) (m : Mode) :
    s.KeepsOuter (State.changeMode s m) ∧ s.KeepsCore (State.changeMode s m) ∧ (State.changeMode s m).mem = s.mem ∧
    (State.changeMode s m).line = s.line ∧ (State.changeMode s m).ports = s.ports ∧ (State.changeMode s m).echo = s.echo ∧
    (State.changeMode s m).twin = s.twin ∧ (State.changeMode s m).geode = s.geode ∧ (State.changeMode s m).log = s.log ∧
    (State.changeMode s m).faultN = s.faultN ∧ (State.changeMode s m).freeCtr = s.freeCtr ∧ (State.changeMode s m).sent = s.sent := by
  unfold State.changeMode
  (try dsimp only)
  (repeat' split) <;> (have hk1 := @State.mfMode_keeps; simp [hk1, State.KeepsOuter, State.KeepsInner, State.KeepsCore])

theorem State.enterRecovery_keeps (s : State) (reason : Nat) :
    s.KeepsOuter (State.enterRecovery s reason) ∧ (State.enterRecovery s reason).mem = s.mem ∧
    (State.enterRecovery s reason).beat = s.beat ∧ (State.enterRecovery s reason).lanes = s.lanes ∧
    (State.enterRecovery s reason).line = s.line ∧ (State.enterRecovery s reason).ports = s.ports ∧
    (State.enterRecovery s reason).echo = s.echo ∧ (State.enterRecovery s reason).tun = s.tun ∧
    (State.enterRecovery s reason).sched = s.sched ∧ (State.enterRecovery s reason).twin = s.twin ∧
    (State.enterRecovery s reason).eng = s.eng ∧ (State.enterRecovery s reason).geode = s.geode ∧
    (State.enterRecovery s reason).pwr = s.pwr ∧ (State.enterRecovery s reason).freeCtr = s.freeCtr ∧
    (State.enterRecovery s reason).sent = s.sent := by
  unfold State.enterRecovery
  (try dsimp only)
  (repeat' split) <;> (have hk1 := @State.changeMode_keeps; simp [hk1, State.KeepsOuter, State.KeepsInner, State.KeepsCore])

theorem State.pendRecovery_keeps (s : State) (reason : Nat) :
    s.KeepsOuter (State.pendRecovery s reason) ∧ s.KeepsInner (State.pendRecovery s reason) ∧ (State.pendRecovery s reason).regs = s.regs ∧
    (State.pendRecovery s reason).mem = s.mem ∧ (State.pendRecovery s reason).beat = s.beat ∧
    (State.pendRecovery s reason).lanes = s.lanes ∧ (State.pendRecovery s reason).line = s.line ∧
    (State.pendRecovery s reason).ports = s.ports ∧ (State.pendRecovery s reason).tun = s.tun ∧ (State.pendRecovery s reason).cav = s.cav ∧
    (State.pendRecovery s reason).sched = s.sched ∧ (State.pendRecovery s reason).eng = s.eng ∧
    (State.pendRecovery s reason).geode = s.geode ∧ (State.pendRecovery s reason).pwr = s.pwr ∧
    (State.pendRecovery s reason).freeCtr = s.freeCtr ∧ (State.pendRecovery s reason).sent = s.sent := by
  unfold State.pendRecovery
  (try dsimp only)
  (repeat' split) <;> simp [State.KeepsOuter, State.KeepsInner, State.KeepsCore]

theorem State.pendMode_keeps (s : State) (m : Mode) :
    s.KeepsOuter (State.pendMode s m) ∧ s.KeepsInner (State.pendMode s m) ∧ (State.pendMode s m).regs = s.regs ∧
    (State.pendMode s m).mem = s.mem ∧ (State.pendMode s m).beat = s.beat ∧ (State.pendMode s m).lanes = s.lanes ∧
    (State.pendMode s m).line = s.line ∧ (State.pendMode s m).ports = s.ports ∧ (State.pendMode s m).tun = s.tun ∧
    (State.pendMode s m).cav = s.cav ∧ (State.pendMode s m).sched = s.sched ∧ (State.pendMode s m).eng = s.eng ∧
    (State.pendMode s m).geode = s.geode ∧ (State.pendMode s m).pwr = s.pwr ∧ (State.pendMode s m).freeCtr = s.freeCtr ∧
    (State.pendMode s m).sent = s.sent := by
  unfold State.pendMode
  (try dsimp only)
  (repeat' split) <;> simp [State.KeepsOuter, State.KeepsInner, State.KeepsCore]

theorem State.setStage_keeps (s : State) (n : Nat) :
    s.KeepsOuter (State.setStage s n) ∧ s.KeepsInner (State.setStage s n) ∧ s.KeepsCore (State.setStage s n) ∧
    (State.setStage s n).mem = s.mem ∧ (State.setStage s n).line = s.line ∧ (State.setStage s n).ports = s.ports ∧
    (State.setStage s n).cav = s.cav ∧ (State.setStage s n).geode = s.geode ∧ (State.setStage s n).freeCtr = s.freeCtr ∧
    (State.setStage s n).sent = s.sent := by
  unfold State.setStage
  (try dsimp only)
  (repeat' split) <;> simp [State.KeepsOuter, State.KeepsInner, State.KeepsCore]

theorem State.startStage_keeps (s : State) :
    s.KeepsOuter (State.startStage s) ∧ (State.startStage s).mem = s.mem ∧ (State.startStage s).beat = s.beat ∧
    (State.startStage s).lanes = s.lanes ∧ (State.startStage s).line = s.line ∧ (State.startStage s).ports = s.ports ∧
    (State.startStage s).echo = s.echo ∧ (State.startStage s).tun = s.tun ∧ (State.startStage s).sched = s.sched ∧
    (State.startStage s).twin = s.twin ∧ (State.startStage s).eng = s.eng ∧ (State.startStage s).geode = s.geode ∧
    (State.startStage s).pwr = s.pwr ∧ (State.startStage s).freeCtr = s.freeCtr ∧ (State.startStage s).sent = s.sent := by
  unfold State.startStage
  (try dsimp only)
  (repeat' split) <;> (have hk1 := @State.enterRecovery_keeps; have hk2 := @State.setStage_keeps; simp [hk1, hk2, State.KeepsOuter, State.KeepsInner, State.KeepsCore])

theorem State.startReset_keeps (s : State) :
    (State.startReset s).carStatus = s.carStatus ∧ (State.startReset s).ticks = s.ticks ∧ (State.startReset s).pending = s.pending := by
  unfold State.startReset
  (try dsimp only)
  (repeat' split) <;> (have hk1 := @State.changeMode_keeps; have hk2 := @State.restarted_keeps; have hk3 := @State.startStage_keeps; have hk4 := @State.strapDefaults_keeps; simp [hk1, hk2, hk3, hk4, State.KeepsOuter, State.KeepsInner, State.KeepsCore])

theorem State.startRecover_keeps (s : State) :
    (State.startRecover s).carStatus = s.carStatus ∧ (State.startRecover s).ticks = s.ticks ∧ (State.startRecover s).pending = s.pending := by
  unfold State.startRecover
  (try dsimp only)
  (repeat' split) <;> (have hk1 := @State.enterRecovery_keeps; have hk2 := @State.restarted_keeps; have hk3 := @State.strapDefaults_keeps; simp [hk1, hk2, hk3, State.KeepsOuter, State.KeepsInner, State.KeepsCore])

theorem State.startPorst_keeps (s : State) :
    (State.startPorst s).carStatus = s.carStatus ∧ (State.startPorst s).ticks = s.ticks ∧ (State.startPorst s).pending = s.pending := by
  unfold State.startPorst
  (try dsimp only)
  (repeat' split) <;> (have hk1 := @State.changeMode_keeps; have hk2 := @State.enterDebug_keeps; have hk3 := @State.restarted_keeps; have hk4 := @State.startStage_keeps; have hk5 := @State.strapDefaults_keeps; simp [hk1, hk2, hk3, hk4, hk5, State.KeepsOuter, State.KeepsInner, State.KeepsCore])

theorem State.releasePorst_keeps (s : State) (straps : BitVec 13) (vfv : Bool) :
    (State.releasePorst s straps vfv).carStatus = s.carStatus ∧ (State.releasePorst s straps vfv).ticks = s.ticks ∧
    (State.releasePorst s straps vfv).pending = s.pending := by
  unfold State.releasePorst
  (try dsimp only)
  (repeat' split) <;> (have hk1 := @State.startPorst_keeps; have hk2 := @State.wakeAttempt_keeps; simp [hk1, hk2, State.KeepsOuter, State.KeepsInner, State.KeepsCore])

theorem State.startSeed_keeps (s : State) :
    s.KeepsOuter (State.startSeed s) ∧ s.KeepsInner (State.startSeed s) ∧ (State.startSeed s).mem = s.mem ∧
    (State.startSeed s).beat = s.beat ∧ (State.startSeed s).lanes = s.lanes ∧ (State.startSeed s).line = s.line ∧
    (State.startSeed s).ports = s.ports ∧ (State.startSeed s).tun = s.tun ∧ (State.startSeed s).cav = s.cav ∧
    (State.startSeed s).sched = s.sched ∧ (State.startSeed s).eng = s.eng ∧ (State.startSeed s).geode = s.geode ∧
    (State.startSeed s).pwr = s.pwr ∧ (State.startSeed s).freeCtr = s.freeCtr ∧ (State.startSeed s).sent = s.sent := by
  unfold State.startSeed
  (try dsimp only)
  (repeat' split) <;> simp [State.KeepsOuter, State.KeepsInner, State.KeepsCore]

theorem State.bootCommand_keeps (s : State) (m : Master) (op : Nat) :
    (State.bootCommand s m op).carStatus = s.carStatus ∧ (State.bootCommand s m op).ticks = s.ticks ∧
    (State.bootCommand s m op).pending = s.pending := by
  unfold State.bootCommand
  (try dsimp only)
  (repeat' split) <;> (have hk1 := @State.pendMode_keeps; have hk2 := @State.startRecover_keeps; have hk3 := @State.startReset_keeps; have hk4 := @State.startSeed_keeps; simp [hk1, hk2, hk3, hk4, State.KeepsOuter, State.KeepsInner, State.KeepsCore])

theorem State.writeSeed_keeps (ready : Bool) (s : State) (r : SeedRecord) :
    s.KeepsOuter (State.writeSeed ready s r) ∧ s.KeepsInner (State.writeSeed ready s r) ∧ (State.writeSeed ready s r).mem = s.mem ∧
    (State.writeSeed ready s r).beat = s.beat ∧ (State.writeSeed ready s r).lanes = s.lanes ∧ (State.writeSeed ready s r).line = s.line ∧
    (State.writeSeed ready s r).ports = s.ports ∧ (State.writeSeed ready s r).cav = s.cav ∧ (State.writeSeed ready s r).sched = s.sched ∧
    (State.writeSeed ready s r).eng = s.eng ∧ (State.writeSeed ready s r).geode = s.geode ∧ (State.writeSeed ready s r).boot = s.boot ∧
    (State.writeSeed ready s r).pwr = s.pwr ∧ (State.writeSeed ready s r).freeCtr = s.freeCtr ∧ (State.writeSeed ready s r).sent = s.sent := by
  unfold State.writeSeed
  (try dsimp only)
  (repeat' split) <;> (have hk1 := @State.setTable_keeps; simp [hk1, State.KeepsOuter, State.KeepsInner, State.KeepsCore])

theorem State.endSeed_keeps (s : State) :
    s.KeepsOuter (State.endSeed s) ∧ s.KeepsInner (State.endSeed s) ∧ (State.endSeed s).mem = s.mem ∧ (State.endSeed s).beat = s.beat ∧
    (State.endSeed s).lanes = s.lanes ∧ (State.endSeed s).line = s.line ∧ (State.endSeed s).ports = s.ports ∧
    (State.endSeed s).cav = s.cav ∧ (State.endSeed s).sched = s.sched ∧ (State.endSeed s).eng = s.eng ∧ (State.endSeed s).geode = s.geode ∧
    (State.endSeed s).pwr = s.pwr ∧ (State.endSeed s).freeCtr = s.freeCtr ∧ (State.endSeed s).sent = s.sent := by
  unfold State.endSeed
  (try dsimp only)
  (repeat' split) <;> (have hk1 := @State.setStage_keeps; have hk2 := @State.writeSeed_keeps; simp [hk1, hk2, State.KeepsOuter, State.KeepsInner, State.KeepsCore])

theorem State.onPll_keeps (s : State) :
    s.KeepsOuter (State.onPll s) ∧ s.KeepsInner (State.onPll s) ∧ (State.onPll s).mem = s.mem ∧ (State.onPll s).beat = s.beat ∧
    (State.onPll s).lanes = s.lanes ∧ (State.onPll s).line = s.line ∧ (State.onPll s).tun = s.tun ∧ (State.onPll s).cav = s.cav ∧
    (State.onPll s).sched = s.sched ∧ (State.onPll s).eng = s.eng ∧ (State.onPll s).geode = s.geode ∧ (State.onPll s).sent = s.sent := by
  unfold State.onPll
  (try dsimp only)
  (repeat' split) <;> (have hk1 := @State.lanesOn_keeps; have hk2 := @State.setStage_keeps; simp [hk1, hk2, State.KeepsOuter, State.KeepsInner, State.KeepsCore])

end Sys2Proof.Machine
end

