-- ==== Sys2Proof/Laws/KeepsPower.lean ====
section
/-! SUPPORT. Laws/KeepsPower.lean: what the operations of Machine/Lanes, PowerOps, AvsOps, LogOps, Protect, UsbOps, Usb, View
and Writes leave as it is. They are no simp lemmas: a proof
takes those it needs as hypotheses, `have hk := @State.foo_keeps; simp [hk]`, which makes no auxiliary theorem. -/

set_option linter.all false

namespace Sys2Proof.Machine

open Sys2Proof

theorem State.checkPattern_keeps (s : State) (l : LaneIx) (b : Block) :
    s.KeepsOuter (State.checkPattern s l b) ∧ s.KeepsInner (State.checkPattern s l b) ∧ (State.checkPattern s l b).mem = s.mem ∧
    (State.checkPattern s l b).beat = s.beat ∧ (State.checkPattern s l b).line = s.line ∧ (State.checkPattern s l b).ports = s.ports ∧
    (State.checkPattern s l b).tun = s.tun ∧ (State.checkPattern s l b).cav = s.cav ∧ (State.checkPattern s l b).sched = s.sched ∧
    (State.checkPattern s l b).eng = s.eng ∧ (State.checkPattern s l b).geode = s.geode ∧ (State.checkPattern s l b).boot = s.boot ∧
    (State.checkPattern s l b).pwr = s.pwr ∧ (State.checkPattern s l b).freeCtr = s.freeCtr ∧ (State.checkPattern s l b).sent = s.sent := by
  unfold State.checkPattern
  (try dsimp only)
  (repeat' split) <;> simp [State.KeepsOuter, State.KeepsInner, State.KeepsCore]

theorem State.buffer_keeps (s : State) (l : LaneIx) (fill : Bool) (reads : Nat) :
    s.KeepsOuter (State.buffer s l fill reads).1 ∧ s.KeepsInner (State.buffer s l fill reads).1 ∧
    (State.buffer s l fill reads).1.mem = s.mem ∧ (State.buffer s l fill reads).1.beat = s.beat ∧
    (State.buffer s l fill reads).1.ports = s.ports ∧ (State.buffer s l fill reads).1.tun = s.tun ∧
    (State.buffer s l fill reads).1.cav = s.cav ∧ (State.buffer s l fill reads).1.sched = s.sched ∧
    (State.buffer s l fill reads).1.eng = s.eng ∧ (State.buffer s l fill reads).1.geode = s.geode ∧
    (State.buffer s l fill reads).1.boot = s.boot ∧ (State.buffer s l fill reads).1.pwr = s.pwr ∧
    (State.buffer s l fill reads).1.freeCtr = s.freeCtr := by
  unfold State.buffer
  (try dsimp only)
  (repeat' split) <;> simp [State.KeepsOuter, State.KeepsInner, State.KeepsCore]

theorem State.lockLost_keeps (s : State) (l : LaneIx) :
    s.KeepsOuter (State.lockLost s l) ∧ s.KeepsInner (State.lockLost s l) ∧ (State.lockLost s l).mem = s.mem ∧
    (State.lockLost s l).beat = s.beat ∧ (State.lockLost s l).tun = s.tun ∧ (State.lockLost s l).sched = s.sched ∧
    (State.lockLost s l).eng = s.eng ∧ (State.lockLost s l).boot = s.boot ∧ (State.lockLost s l).pwr = s.pwr := by
  unfold State.lockLost
  (try dsimp only)
  (repeat' split) <;> (have hk1 := @State.holdCtle_keeps; have hk2 := @State.laneLost_keeps; simp [hk1, hk2, State.KeepsOuter, State.KeepsInner, State.KeepsCore])

theorem State.slipBit_keeps (s : State) (l : LaneIx) :
    s.KeepsOuter (State.slipBit s l) ∧ s.KeepsInner (State.slipBit s l) ∧ s.KeepsCore (State.slipBit s l) ∧
    (State.slipBit s l).regs = s.regs ∧ (State.slipBit s l).mem = s.mem ∧ (State.slipBit s l).ports = s.ports ∧
    (State.slipBit s l).cav = s.cav ∧ (State.slipBit s l).geode = s.geode ∧ (State.slipBit s l).freeCtr = s.freeCtr ∧
    (State.slipBit s l).sent = s.sent := by
  unfold State.slipBit
  (try dsimp only)
  (repeat' split) <;> simp [State.KeepsOuter, State.KeepsInner, State.KeepsCore]

theorem State.lockError_keeps (s : State) (l : LaneIx) :
    s.KeepsOuter (State.lockError s l) ∧ s.KeepsInner (State.lockError s l) ∧ (State.lockError s l).mem = s.mem ∧
    (State.lockError s l).beat = s.beat ∧ (State.lockError s l).tun = s.tun ∧ (State.lockError s l).sched = s.sched ∧
    (State.lockError s l).eng = s.eng ∧ (State.lockError s l).boot = s.boot ∧ (State.lockError s l).pwr = s.pwr := by
  unfold State.lockError
  (try dsimp only)
  (repeat' split) <;> (have hk1 := @State.lockLost_keeps; have hk2 := @State.slipBit_keeps; simp [hk1, hk2, State.KeepsOuter, State.KeepsInner, State.KeepsCore])

theorem State.lockWindow_keeps (s : State) (l : LaneIx) :
    s.KeepsOuter (State.lockWindow s l) ∧ s.KeepsInner (State.lockWindow s l) ∧ (State.lockWindow s l).regs = s.regs ∧
    (State.lockWindow s l).mem = s.mem ∧ (State.lockWindow s l).beat = s.beat ∧ (State.lockWindow s l).line = s.line ∧
    (State.lockWindow s l).ports = s.ports ∧ (State.lockWindow s l).tun = s.tun ∧ (State.lockWindow s l).cav = s.cav ∧
    (State.lockWindow s l).sched = s.sched ∧ (State.lockWindow s l).eng = s.eng ∧ (State.lockWindow s l).geode = s.geode ∧
    (State.lockWindow s l).boot = s.boot ∧ (State.lockWindow s l).pwr = s.pwr ∧ (State.lockWindow s l).freeCtr = s.freeCtr ∧
    (State.lockWindow s l).sent = s.sent := by
  unfold State.lockWindow
  (try dsimp only)
  (repeat' split) <;> simp [State.KeepsOuter, State.KeepsInner, State.KeepsCore]

theorem State.ethUp_keeps (s : State) (p : LinkPort) :
    s.KeepsOuter (State.ethUp s p) ∧ s.KeepsInner (State.ethUp s p) ∧ s.KeepsCore (State.ethUp s p) ∧ (State.ethUp s p).mem = s.mem ∧
    (State.ethUp s p).line = s.line ∧ (State.ethUp s p).geode = s.geode ∧ (State.ethUp s p).freeCtr = s.freeCtr ∧
    (State.ethUp s p).sent = s.sent := by
  unfold State.ethUp
  (try dsimp only)
  (repeat' split) <;> (have hk1 := @State.settle_keeps; simp [hk1, State.KeepsOuter, State.KeepsInner, State.KeepsCore])

theorem State.lockGained_keeps (s : State) (l : LaneIx) :
    s.KeepsOuter (State.lockGained s l) ∧ s.KeepsInner (State.lockGained s l) ∧ (State.lockGained s l).mem = s.mem ∧
    (State.lockGained s l).beat = s.beat ∧ (State.lockGained s l).line = s.line ∧ (State.lockGained s l).tun = s.tun ∧
    (State.lockGained s l).sched = s.sched ∧ (State.lockGained s l).eng = s.eng ∧ (State.lockGained s l).geode = s.geode ∧
    (State.lockGained s l).boot = s.boot ∧ (State.lockGained s l).pwr = s.pwr ∧ (State.lockGained s l).freeCtr = s.freeCtr ∧
    (State.lockGained s l).sent = s.sent := by
  unfold State.lockGained
  (try dsimp only)
  (repeat' split) <;> (have hk1 := @State.ethUp_keeps; simp [hk1, State.KeepsOuter, State.KeepsInner, State.KeepsCore])

theorem State.assemble_keeps (s : State) (p : LinkPort) (bs : List Byte) :
    s.KeepsOuter (State.assemble s p bs) ∧ s.KeepsInner (State.assemble s p bs) ∧ s.KeepsCore (State.assemble s p bs) ∧
    (State.assemble s p bs).regs = s.regs ∧ (State.assemble s p bs).mem = s.mem ∧ (State.assemble s p bs).ports = s.ports ∧
    (State.assemble s p bs).cav = s.cav ∧ (State.assemble s p bs).geode = s.geode ∧ (State.assemble s p bs).freeCtr = s.freeCtr ∧
    (State.assemble s p bs).sent = s.sent := by
  unfold State.assemble
  (try dsimp only)
  (repeat' split) <;> simp [State.KeepsOuter, State.KeepsInner, State.KeepsCore]

theorem State.frameWhole_keeps (s : State) (p : LinkPort) :
    s.KeepsOuter (State.frameWhole s p) ∧ s.KeepsInner (State.frameWhole s p) ∧ s.KeepsCore (State.frameWhole s p) ∧
    (State.frameWhole s p).regs = s.regs ∧ (State.frameWhole s p).mem = s.mem ∧ (State.frameWhole s p).ports = s.ports ∧
    (State.frameWhole s p).cav = s.cav ∧ (State.frameWhole s p).geode = s.geode ∧ (State.frameWhole s p).freeCtr = s.freeCtr ∧
    (State.frameWhole s p).sent = s.sent := by
  unfold State.frameWhole
  (try dsimp only)
  (repeat' split) <;> simp [State.KeepsOuter, State.KeepsInner, State.KeepsCore]

theorem State.framing_keeps (s : State) (p : LinkPort) (valid : Bool) (b : Block) :
    s.KeepsOuter (State.framing s p valid b) ∧ s.KeepsInner (State.framing s p valid b) ∧ s.KeepsCore (State.framing s p valid b) ∧
    (State.framing s p valid b).mem = s.mem ∧ (State.framing s p valid b).geode = s.geode ∧ (State.framing s p valid b).freeCtr = s.freeCtr := by
  unfold State.framing
  (try dsimp only)
  (repeat' split) <;> (have hk1 := @State.assemble_keeps; have hk2 := @State.countFraming_keeps; have hk3 := @State.dropPartial_keeps; have hk4 := @State.emptyFrame_keeps; have hk5 := @State.frameWhole_keeps; simp [hk1, hk2, hk3, hk4, hk5, State.KeepsOuter, State.KeepsInner, State.KeepsCore])

theorem State.destripe_keeps (s : State) (p : LinkPort) (y1 : Nat) :
    s.KeepsOuter (State.destripe s p y1) ∧ s.KeepsInner (State.destripe s p y1) ∧ s.KeepsCore (State.destripe s p y1) ∧
    (State.destripe s p y1).mem = s.mem ∧ (State.destripe s p y1).geode = s.geode ∧ (State.destripe s p y1).freeCtr = s.freeCtr := by
  fun_induction State.destripe s p y1 <;> (try simp only [Prod.ext_iff] at *) <;> (try casesm* _ ∧ _) <;> subst_vars <;>
    (have hk1 := @State.framing_keeps; simp_all +zetaDelta [hk1, State.KeepsOuter, State.KeepsInner, State.KeepsCore])

theorem State.streamBlock_keeps (s : State) (p : LinkPort) (l : LaneIx) (valid : Bool) (b : Block) :
    s.KeepsOuter (State.streamBlock s p l valid b) ∧ s.KeepsInner (State.streamBlock s p l valid b) ∧
    s.KeepsCore (State.streamBlock s p l valid b) ∧ (State.streamBlock s p l valid b).mem = s.mem ∧
    (State.streamBlock s p l valid b).geode = s.geode ∧ (State.streamBlock s p l valid b).freeCtr = s.freeCtr := by
  unfold State.streamBlock
  (try dsimp only)
  (repeat' split) <;> (have hk1 := @State.destripe_keeps; simp [hk1, State.KeepsOuter, State.KeepsInner, State.KeepsCore])

theorem State.takeBlock_keeps (s : State) (l : LaneIx) (b : Block) (reads : Nat) :
    s.KeepsOuter (State.takeBlock s l b reads) ∧ s.KeepsInner (State.takeBlock s l b reads) ∧ (State.takeBlock s l b reads).mem = s.mem ∧
    (State.takeBlock s l b reads).beat = s.beat ∧ (State.takeBlock s l b reads).tun = s.tun ∧
    (State.takeBlock s l b reads).sched = s.sched ∧ (State.takeBlock s l b reads).eng = s.eng ∧
    (State.takeBlock s l b reads).boot = s.boot ∧ (State.takeBlock s l b reads).pwr = s.pwr := by
  unfold State.takeBlock
  (try dsimp only)
  (repeat' split) <;> (have hk1 := @State.buffer_keeps; have hk2 := @State.lockError_keeps; have hk3 := @State.lockGained_keeps; have hk4 := @State.lockWindow_keeps; have hk5 := @State.slipBit_keeps; have hk6 := @State.streamBlock_keeps; simp [hk1, hk2, hk3, hk4, hk5, hk6, State.KeepsOuter, State.KeepsInner, State.KeepsCore])

theorem State.rxSource_keeps (s : State) (l : LaneIx) (line : Block) :
    s.KeepsOuter (State.rxSource s l line).1 ∧ s.KeepsInner (State.rxSource s l line).1 ∧ s.KeepsCore (State.rxSource s l line).1 ∧
    (State.rxSource s l line).1.regs = s.regs ∧ (State.rxSource s l line).1.mem = s.mem ∧ (State.rxSource s l line).1.ports = s.ports ∧
    (State.rxSource s l line).1.cav = s.cav ∧ (State.rxSource s l line).1.geode = s.geode ∧
    (State.rxSource s l line).1.freeCtr = s.freeCtr ∧ (State.rxSource s l line).1.sent = s.sent := by
  unfold State.rxSource
  (try dsimp only)
  (repeat' split) <;> simp [State.KeepsOuter, State.KeepsInner, State.KeepsCore]

theorem State.farLoop_keeps (s : State) (l : LaneIx) (line : Block) :
    s.KeepsOuter (State.farLoop s l line) ∧ s.KeepsInner (State.farLoop s l line) ∧ s.KeepsCore (State.farLoop s l line) ∧
    (State.farLoop s l line).regs = s.regs ∧ (State.farLoop s l line).mem = s.mem ∧ (State.farLoop s l line).ports = s.ports ∧
    (State.farLoop s l line).cav = s.cav ∧ (State.farLoop s l line).geode = s.geode ∧ (State.farLoop s l line).freeCtr = s.freeCtr ∧
    (State.farLoop s l line).sent = s.sent := by
  unfold State.farLoop
  (try dsimp only)
  (repeat' split) <;> simp [State.KeepsOuter, State.KeepsInner, State.KeepsCore]

theorem State.unscramble_keeps (s : State) (l : LaneIx) (b : Block) :
    s.KeepsOuter (State.unscramble s l b).1 ∧ s.KeepsInner (State.unscramble s l b).1 ∧ s.KeepsCore (State.unscramble s l b).1 ∧
    (State.unscramble s l b).1.regs = s.regs ∧ (State.unscramble s l b).1.mem = s.mem ∧ (State.unscramble s l b).1.ports = s.ports ∧
    (State.unscramble s l b).1.cav = s.cav ∧ (State.unscramble s l b).1.geode = s.geode ∧ (State.unscramble s l b).1.freeCtr = s.freeCtr ∧
    (State.unscramble s l b).1.sent = s.sent := by
  unfold State.unscramble
  (try dsimp only)
  (repeat' split) <;> simp [State.KeepsOuter, State.KeepsInner, State.KeepsCore]

theorem State.trainRequest_keeps (s : State) (l : LaneIx) (pre : Nat) (post : Nat) (preset : Nat) (tseq : BitVec 8) :
    s.KeepsOuter (State.trainRequest s l pre post preset tseq).1 ∧ s.KeepsInner (State.trainRequest s l pre post preset tseq).1 ∧
    (State.trainRequest s l pre post preset tseq).1.mem = s.mem ∧ (State.trainRequest s l pre post preset tseq).1.beat = s.beat ∧
    (State.trainRequest s l pre post preset tseq).1.line = s.line ∧ (State.trainRequest s l pre post preset tseq).1.ports = s.ports ∧
    (State.trainRequest s l pre post preset tseq).1.tun = s.tun ∧ (State.trainRequest s l pre post preset tseq).1.cav = s.cav ∧
    (State.trainRequest s l pre post preset tseq).1.sched = s.sched ∧ (State.trainRequest s l pre post preset tseq).1.eng = s.eng ∧
    (State.trainRequest s l pre post preset tseq).1.geode = s.geode ∧ (State.trainRequest s l pre post preset tseq).1.boot = s.boot ∧
    (State.trainRequest s l pre post preset tseq).1.pwr = s.pwr ∧ (State.trainRequest s l pre post preset tseq).1.sent = s.sent := by
  unfold State.trainRequest
  (try dsimp only)
  (repeat' split) <;> (have hk1 := @State.usePreset_keeps; simp [hk1, State.KeepsOuter, State.KeepsInner, State.KeepsCore])

theorem State.ownRequest_keeps (s : State) (l : LaneIx) (answered : Bool) :
    s.KeepsOuter (State.ownRequest s l answered) ∧ s.KeepsInner (State.ownRequest s l answered) ∧
    (State.ownRequest s l answered).regs = s.regs ∧ (State.ownRequest s l answered).mem = s.mem ∧
    (State.ownRequest s l answered).beat = s.beat ∧ (State.ownRequest s l answered).line = s.line ∧
    (State.ownRequest s l answered).ports = s.ports ∧ (State.ownRequest s l answered).tun = s.tun ∧
    (State.ownRequest s l answered).cav = s.cav ∧ (State.ownRequest s l answered).sched = s.sched ∧
    (State.ownRequest s l answered).eng = s.eng ∧ (State.ownRequest s l answered).geode = s.geode ∧
    (State.ownRequest s l answered).boot = s.boot ∧ (State.ownRequest s l answered).pwr = s.pwr ∧
    (State.ownRequest s l answered).sent = s.sent := by
  unfold State.ownRequest
  (try dsimp only)
  (repeat' split) <;> simp [State.KeepsOuter, State.KeepsInner, State.KeepsCore]

theorem State.trainReady_keeps (s : State) (l : LaneIx) (settled : Bool) (partner : Bool) :
    s.KeepsOuter (State.trainReady s l settled partner) ∧ s.KeepsInner (State.trainReady s l settled partner) ∧
    (State.trainReady s l settled partner).regs = s.regs ∧ (State.trainReady s l settled partner).mem = s.mem ∧
    (State.trainReady s l settled partner).beat = s.beat ∧ (State.trainReady s l settled partner).line = s.line ∧
    (State.trainReady s l settled partner).ports = s.ports ∧ (State.trainReady s l settled partner).tun = s.tun ∧
    (State.trainReady s l settled partner).cav = s.cav ∧ (State.trainReady s l settled partner).sched = s.sched ∧
    (State.trainReady s l settled partner).eng = s.eng ∧ (State.trainReady s l settled partner).geode = s.geode ∧
    (State.trainReady s l settled partner).boot = s.boot ∧ (State.trainReady s l settled partner).pwr = s.pwr ∧
    (State.trainReady s l settled partner).freeCtr = s.freeCtr ∧ (State.trainReady s l settled partner).sent = s.sent := by
  unfold State.trainReady
  (try dsimp only)
  (repeat' split) <;> simp [State.KeepsOuter, State.KeepsInner, State.KeepsCore]

theorem State.deskewLane_keeps (s : State) (l : LaneIx) (lag : Nat) (ok : Bool) :
    s.KeepsOuter (State.deskewLane s l lag ok) ∧ s.KeepsInner (State.deskewLane s l lag ok) ∧ (State.deskewLane s l lag ok).mem = s.mem ∧
    (State.deskewLane s l lag ok).beat = s.beat ∧ (State.deskewLane s l lag ok).line = s.line ∧
    (State.deskewLane s l lag ok).ports = s.ports ∧ (State.deskewLane s l lag ok).tun = s.tun ∧ (State.deskewLane s l lag ok).cav = s.cav ∧
    (State.deskewLane s l lag ok).sched = s.sched ∧ (State.deskewLane s l lag ok).eng = s.eng ∧
    (State.deskewLane s l lag ok).geode = s.geode ∧ (State.deskewLane s l lag ok).boot = s.boot ∧
    (State.deskewLane s l lag ok).pwr = s.pwr ∧ (State.deskewLane s l lag ok).freeCtr = s.freeCtr ∧
    (State.deskewLane s l lag ok).sent = s.sent := by
  unfold State.deskewLane
  (try dsimp only)
  (repeat' split) <;> simp [State.KeepsOuter, State.KeepsInner, State.KeepsCore]

theorem State.deskew_keeps (s : State) (p : LinkPort) (marks : List AmkMark) (low : AmkMark) :
    s.KeepsOuter (State.deskew s p marks low) ∧ s.KeepsInner (State.deskew s p marks low) ∧ (State.deskew s p marks low).mem = s.mem ∧
    (State.deskew s p marks low).beat = s.beat ∧ (State.deskew s p marks low).ports = s.ports ∧ (State.deskew s p marks low).tun = s.tun ∧
    (State.deskew s p marks low).cav = s.cav ∧ (State.deskew s p marks low).sched = s.sched ∧ (State.deskew s p marks low).eng = s.eng ∧
    (State.deskew s p marks low).geode = s.geode ∧ (State.deskew s p marks low).boot = s.boot ∧ (State.deskew s p marks low).pwr = s.pwr ∧
    (State.deskew s p marks low).freeCtr = s.freeCtr := by
  unfold State.deskew
  (try dsimp only)
  (repeat' split) <;> (have hk1 := @State.deskewLane_keeps; simp [hk1, State.KeepsOuter, State.KeepsInner, State.KeepsCore])

theorem State.rxAnnounce_keeps (s : State) (p : LinkPort) (marks : List AmkMark) (low : AmkMark) (unscheduled : Bool) :
    s.KeepsOuter (State.rxAnnounce s p marks low unscheduled) ∧ s.KeepsInner (State.rxAnnounce s p marks low unscheduled) ∧
    (State.rxAnnounce s p marks low unscheduled).mem = s.mem ∧ (State.rxAnnounce s p marks low unscheduled).beat = s.beat ∧
    (State.rxAnnounce s p marks low unscheduled).tun = s.tun ∧ (State.rxAnnounce s p marks low unscheduled).sched = s.sched ∧
    (State.rxAnnounce s p marks low unscheduled).eng = s.eng ∧ (State.rxAnnounce s p marks low unscheduled).boot = s.boot ∧
    (State.rxAnnounce s p marks low unscheduled).pwr = s.pwr := by
  unfold State.rxAnnounce
  (try dsimp only)
  (repeat' split) <;> (have hk1 := @State.countTrunk_keeps; have hk2 := @State.dropOn_keeps; have hk3 := @State.emptyFrame_keeps; have hk4 := @State.rxFault_keeps; simp [hk1, hk2, hk3, hk4, State.KeepsOuter, State.KeepsInner, State.KeepsCore])

theorem State.refreshDrain_keeps (s : State) (n : LocalPort) (since : Nat) :
    s.KeepsOuter (State.refreshDrain s n since) ∧ s.KeepsInner (State.refreshDrain s n since) ∧
    s.KeepsCore (State.refreshDrain s n since) ∧ (State.refreshDrain s n since).mem = s.mem ∧
    (State.refreshDrain s n since).line = s.line ∧ (State.refreshDrain s n since).ports = s.ports ∧
    (State.refreshDrain s n since).geode = s.geode ∧ (State.refreshDrain s n since).freeCtr = s.freeCtr ∧
    (State.refreshDrain s n since).sent = s.sent := by
  unfold State.refreshDrain
  (try dsimp only)
  (repeat' split) <;> (have hk1 := @State.modQueue_keeps; simp [hk1, State.KeepsOuter, State.KeepsInner, State.KeepsCore])

theorem State.laneReturns_keeps (s : State) (p : LinkPort) (i : Nat) :
    s.KeepsOuter (State.laneReturns s p i) ∧ s.KeepsInner (State.laneReturns s p i) ∧ (State.laneReturns s p i).mem = s.mem ∧
    (State.laneReturns s p i).beat = s.beat ∧ (State.laneReturns s p i).tun = s.tun ∧ (State.laneReturns s p i).sched = s.sched ∧
    (State.laneReturns s p i).eng = s.eng ∧ (State.laneReturns s p i).boot = s.boot ∧ (State.laneReturns s p i).pwr = s.pwr := by
  unfold State.laneReturns
  (try dsimp only)
  (repeat' split) <;> (have hk1 := @State.rxFault_keeps; simp [hk1, State.KeepsOuter, State.KeepsInner, State.KeepsCore])

theorem State.loopChanged_keeps (s : State) (l : LaneIx) :
    s.KeepsOuter (State.loopChanged s l) ∧ s.KeepsInner (State.loopChanged s l) ∧ (State.loopChanged s l).mem = s.mem ∧
    (State.loopChanged s l).beat = s.beat ∧ (State.loopChanged s l).tun = s.tun ∧ (State.loopChanged s l).sched = s.sched ∧
    (State.loopChanged s l).eng = s.eng ∧ (State.loopChanged s l).boot = s.boot ∧ (State.loopChanged s l).pwr = s.pwr := by
  unfold State.loopChanged
  (try dsimp only)
  (repeat' split) <;> (have hk1 := @State.dropOn_keeps; have hk2 := @State.ethDown_keeps; have hk3 := @State.ethUp_keeps; have hk4 := @State.noteHealth_keeps; have hk5 := @State.rxFault_keeps; have hk6 := @State.txDrop_keeps; simp [hk1, hk2, hk3, hk4, hk5, hk6, State.KeepsOuter, State.KeepsInner, State.KeepsCore])

theorem State.signalLost_keeps (s : State) (l : LaneIx) :
    s.KeepsOuter (State.signalLost s l) ∧ s.KeepsInner (State.signalLost s l) ∧ (State.signalLost s l).mem = s.mem ∧
    (State.signalLost s l).beat = s.beat ∧ (State.signalLost s l).tun = s.tun ∧ (State.signalLost s l).sched = s.sched ∧
    (State.signalLost s l).eng = s.eng ∧ (State.signalLost s l).boot = s.boot ∧ (State.signalLost s l).pwr = s.pwr := by
  unfold State.signalLost
  (try dsimp only)
  (repeat' split) <;> (have hk1 := @State.lockLost_keeps; simp [hk1, State.KeepsOuter, State.KeepsInner, State.KeepsCore])

theorem State.signalBack_keeps (s : State) (l : LaneIx) :
    s.KeepsOuter (State.signalBack s l) ∧ s.KeepsInner (State.signalBack s l) ∧ (State.signalBack s l).mem = s.mem ∧
    (State.signalBack s l).beat = s.beat ∧ (State.signalBack s l).line = s.line ∧ (State.signalBack s l).ports = s.ports ∧
    (State.signalBack s l).tun = s.tun ∧ (State.signalBack s l).cav = s.cav ∧ (State.signalBack s l).sched = s.sched ∧
    (State.signalBack s l).eng = s.eng ∧ (State.signalBack s l).geode = s.geode ∧ (State.signalBack s l).boot = s.boot ∧
    (State.signalBack s l).pwr = s.pwr ∧ (State.signalBack s l).freeCtr = s.freeCtr ∧ (State.signalBack s l).sent = s.sent := by
  unfold State.signalBack
  (try dsimp only)
  (repeat' split) <;> simp [State.KeepsOuter, State.KeepsInner, State.KeepsCore]

theorem State.setTrend_keeps (s : State) (l : Nat) (k : Nat) (r : TrendRecord) :
    s.KeepsOuter (State.setTrend s l k r) ∧ s.KeepsCore (State.setTrend s l k r) ∧ (State.setTrend s l k r).regs = s.regs ∧
    (State.setTrend s l k r).mem = s.mem ∧ (State.setTrend s l k r).line = s.line ∧ (State.setTrend s l k r).ports = s.ports ∧
    (State.setTrend s l k r).echo = s.echo ∧ (State.setTrend s l k r).cav = s.cav ∧ (State.setTrend s l k r).twin = s.twin ∧
    (State.setTrend s l k r).acc = s.acc ∧ (State.setTrend s l k r).geode = s.geode ∧ (State.setTrend s l k r).usb = s.usb ∧
    (State.setTrend s l k r).faultN = s.faultN ∧ (State.setTrend s l k r).freeCtr = s.freeCtr ∧ (State.setTrend s l k r).sent = s.sent := by
  unfold State.setTrend
  (try dsimp only)
  (repeat' split) <;> simp [State.KeepsOuter, State.KeepsInner, State.KeepsCore]

theorem State.closePeriod_keeps (s : State) (l : LaneIx) (r : TrendRecord) :
    s.KeepsOuter (State.closePeriod s l r) ∧ s.KeepsCore (State.closePeriod s l r) ∧ (State.closePeriod s l r).regs = s.regs ∧
    (State.closePeriod s l r).mem = s.mem ∧ (State.closePeriod s l r).line = s.line ∧ (State.closePeriod s l r).ports = s.ports ∧
    (State.closePeriod s l r).echo = s.echo ∧ (State.closePeriod s l r).cav = s.cav ∧ (State.closePeriod s l r).twin = s.twin ∧
    (State.closePeriod s l r).acc = s.acc ∧ (State.closePeriod s l r).geode = s.geode ∧ (State.closePeriod s l r).usb = s.usb ∧
    (State.closePeriod s l r).faultN = s.faultN ∧ (State.closePeriod s l r).freeCtr = s.freeCtr ∧ (State.closePeriod s l r).sent = s.sent := by
  unfold State.closePeriod
  (try dsimp only)
  (repeat' split) <;> (have hk1 := @State.setTrend_keeps; simp [hk1, State.KeepsOuter, State.KeepsInner, State.KeepsCore])

theorem State.closeEpoch_keeps (s : State) (l : LaneIx) (r : TrendRecord) :
    s.KeepsOuter (State.closeEpoch s l r) ∧ s.KeepsCore (State.closeEpoch s l r) ∧ (State.closeEpoch s l r).regs = s.regs ∧
    (State.closeEpoch s l r).mem = s.mem ∧ (State.closeEpoch s l r).line = s.line ∧ (State.closeEpoch s l r).ports = s.ports ∧
    (State.closeEpoch s l r).echo = s.echo ∧ (State.closeEpoch s l r).cav = s.cav ∧ (State.closeEpoch s l r).twin = s.twin ∧
    (State.closeEpoch s l r).acc = s.acc ∧ (State.closeEpoch s l r).geode = s.geode ∧ (State.closeEpoch s l r).usb = s.usb ∧
    (State.closeEpoch s l r).faultN = s.faultN ∧ (State.closeEpoch s l r).freeCtr = s.freeCtr ∧ (State.closeEpoch s l r).sent = s.sent := by
  unfold State.closeEpoch
  (try dsimp only)
  (repeat' split) <;> (have hk1 := @State.setTrend_keeps; simp [hk1, State.KeepsOuter, State.KeepsInner, State.KeepsCore])

theorem State.trendClose_keeps (s : State) (l : LaneIx) :
    s.KeepsOuter (State.trendClose s l) ∧ s.KeepsCore (State.trendClose s l) ∧ (State.trendClose s l).regs = s.regs ∧
    (State.trendClose s l).mem = s.mem ∧ (State.trendClose s l).line = s.line ∧ (State.trendClose s l).ports = s.ports ∧
    (State.trendClose s l).echo = s.echo ∧ (State.trendClose s l).cav = s.cav ∧ (State.trendClose s l).twin = s.twin ∧
    (State.trendClose s l).acc = s.acc ∧ (State.trendClose s l).geode = s.geode ∧ (State.trendClose s l).usb = s.usb ∧
    (State.trendClose s l).faultN = s.faultN ∧ (State.trendClose s l).freeCtr = s.freeCtr ∧ (State.trendClose s l).sent = s.sent := by
  unfold State.trendClose
  (try dsimp only)
  (repeat' split) <;> (have hk1 := @State.closeEpoch_keeps; have hk2 := @State.closePeriod_keeps; have hk3 := @State.setTrend_keeps; simp [hk1, hk2, hk3, State.KeepsOuter, State.KeepsInner, State.KeepsCore])

theorem State.trendWipe_keeps (s : State) (l : LaneIx) :
    s.KeepsOuter (State.trendWipe s l) ∧ (State.trendWipe s l).regs = s.regs ∧ (State.trendWipe s l).mem = s.mem ∧
    (State.trendWipe s l).beat = s.beat ∧ (State.trendWipe s l).line = s.line ∧ (State.trendWipe s l).ports = s.ports ∧
    (State.trendWipe s l).echo = s.echo ∧ (State.trendWipe s l).tun = s.tun ∧ (State.trendWipe s l).cav = s.cav ∧
    (State.trendWipe s l).sched = s.sched ∧ (State.trendWipe s l).twin = s.twin ∧ (State.trendWipe s l).eng = s.eng ∧
    (State.trendWipe s l).acc = s.acc ∧ (State.trendWipe s l).geode = s.geode ∧ (State.trendWipe s l).boot = s.boot ∧
    (State.trendWipe s l).pwr = s.pwr ∧ (State.trendWipe s l).usb = s.usb ∧ (State.trendWipe s l).faultN = s.faultN ∧
    (State.trendWipe s l).freeCtr = s.freeCtr ∧ (State.trendWipe s l).sent = s.sent := by
  unfold State.trendWipe
  (try dsimp only)
  (repeat' split) <;> (have hk1 := @State.setTrend_keeps; simp [hk1, State.KeepsOuter, State.KeepsInner, State.KeepsCore])

theorem State.trendLane_keeps (s : State) (l : LaneIx) :
    s.KeepsOuter (State.trendLane s l) ∧ (State.trendLane s l).mem = s.mem ∧ (State.trendLane s l).beat = s.beat ∧
    (State.trendLane s l).line = s.line ∧ (State.trendLane s l).ports = s.ports ∧ (State.trendLane s l).echo = s.echo ∧
    (State.trendLane s l).tun = s.tun ∧ (State.trendLane s l).cav = s.cav ∧ (State.trendLane s l).sched = s.sched ∧
    (State.trendLane s l).twin = s.twin ∧ (State.trendLane s l).eng = s.eng ∧ (State.trendLane s l).acc = s.acc ∧
    (State.trendLane s l).geode = s.geode ∧ (State.trendLane s l).boot = s.boot ∧ (State.trendLane s l).pwr = s.pwr ∧
    (State.trendLane s l).usb = s.usb ∧ (State.trendLane s l).faultN = s.faultN ∧ (State.trendLane s l).freeCtr = s.freeCtr ∧
    (State.trendLane s l).sent = s.sent := by
  unfold State.trendLane
  (try dsimp only)
  (repeat' split) <;> (have hk1 := @State.setTrend_keeps; have hk2 := @State.trendClose_keeps; have hk3 := @State.trendWipe_keeps; simp [hk1, hk2, hk3, State.KeepsOuter, State.KeepsInner, State.KeepsCore])

theorem State.trendSecond_keeps (s : State) :
    s.KeepsOuter (State.trendSecond s) ∧ (State.trendSecond s).mem = s.mem ∧ (State.trendSecond s).beat = s.beat ∧
    (State.trendSecond s).line = s.line ∧ (State.trendSecond s).ports = s.ports ∧ (State.trendSecond s).echo = s.echo ∧
    (State.trendSecond s).tun = s.tun ∧ (State.trendSecond s).cav = s.cav ∧ (State.trendSecond s).sched = s.sched ∧
    (State.trendSecond s).twin = s.twin ∧ (State.trendSecond s).eng = s.eng ∧ (State.trendSecond s).acc = s.acc ∧
    (State.trendSecond s).geode = s.geode ∧ (State.trendSecond s).boot = s.boot ∧ (State.trendSecond s).pwr = s.pwr ∧
    (State.trendSecond s).usb = s.usb ∧ (State.trendSecond s).faultN = s.faultN ∧ (State.trendSecond s).freeCtr = s.freeCtr ∧
    (State.trendSecond s).sent = s.sent := by
  unfold State.trendSecond
  (try dsimp only)
  (repeat' split) <;> (have hk1 := @State.trendLane_keeps; simp [hk1, State.KeepsOuter, State.KeepsInner, State.KeepsCore])

theorem State.restartBlock_keeps (s : State) (block : Nat) :
    s.KeepsOuter (State.restartBlock s block) ∧ (State.restartBlock s block).mem = s.mem ∧ (State.restartBlock s block).beat = s.beat ∧
    (State.restartBlock s block).lanes = s.lanes ∧ (State.restartBlock s block).line = s.line ∧
    (State.restartBlock s block).echo = s.echo ∧ (State.restartBlock s block).sched = s.sched ∧
    (State.restartBlock s block).twin = s.twin ∧ (State.restartBlock s block).acc = s.acc ∧ (State.restartBlock s block).geode = s.geode ∧
    (State.restartBlock s block).boot = s.boot ∧ (State.restartBlock s block).log = s.log ∧
    (State.restartBlock s block).faultN = s.faultN ∧ (State.restartBlock s block).sent = s.sent := by
  unfold State.restartBlock
  (try dsimp only)
  (repeat' split) <;> (have hk1 := @State.cavernOn_keeps; have hk2 := @State.freeEngines_keeps; have hk3 := @State.lanesOn_keeps; have hk4 := @State.reopenAdmission_keeps; have hk5 := @State.sumpOn_keeps; simp [hk1, hk2, hk3, hk4, hk5, State.KeepsOuter, State.KeepsInner, State.KeepsCore])

theorem State.entryOver_keeps (s : State) :
    s.KeepsOuter (State.entryOver s) ∧ s.KeepsInner (State.entryOver s) ∧ (State.entryOver s).regs = s.regs ∧
    (State.entryOver s).mem = s.mem ∧ (State.entryOver s).beat = s.beat ∧ (State.entryOver s).lanes = s.lanes ∧
    (State.entryOver s).line = s.line ∧ (State.entryOver s).ports = s.ports ∧ (State.entryOver s).tun = s.tun ∧
    (State.entryOver s).cav = s.cav ∧ (State.entryOver s).sched = s.sched ∧ (State.entryOver s).eng = s.eng ∧
    (State.entryOver s).geode = s.geode ∧ (State.entryOver s).boot = s.boot ∧ (State.entryOver s).freeCtr = s.freeCtr ∧
    (State.entryOver s).sent = s.sent := by
  unfold State.entryOver
  (try dsimp only)
  (repeat' split) <;> simp [State.KeepsOuter, State.KeepsInner, State.KeepsCore]

theorem State.noteRetry_keeps (s : State) (stems : Bool) :
    s.KeepsOuter (State.noteRetry s stems) ∧ s.KeepsInner (State.noteRetry s stems) ∧ (State.noteRetry s stems).regs = s.regs ∧
    (State.noteRetry s stems).mem = s.mem ∧ (State.noteRetry s stems).beat = s.beat ∧ (State.noteRetry s stems).lanes = s.lanes ∧
    (State.noteRetry s stems).line = s.line ∧ (State.noteRetry s stems).ports = s.ports ∧ (State.noteRetry s stems).tun = s.tun ∧
    (State.noteRetry s stems).cav = s.cav ∧ (State.noteRetry s stems).sched = s.sched ∧ (State.noteRetry s stems).eng = s.eng ∧
    (State.noteRetry s stems).geode = s.geode ∧ (State.noteRetry s stems).boot = s.boot ∧ (State.noteRetry s stems).freeCtr = s.freeCtr ∧
    (State.noteRetry s stems).sent = s.sent := by
  unfold State.noteRetry
  (try dsimp only)
  (repeat' split) <;> simp [State.KeepsOuter, State.KeepsInner, State.KeepsCore]

theorem State.retryRefused_keeps (s : State) (stems : Bool) :
    s.KeepsOuter (State.retryRefused s stems) ∧ s.KeepsInner (State.retryRefused s stems) ∧ (State.retryRefused s stems).regs = s.regs ∧
    (State.retryRefused s stems).mem = s.mem ∧ (State.retryRefused s stems).beat = s.beat ∧ (State.retryRefused s stems).lanes = s.lanes ∧
    (State.retryRefused s stems).line = s.line ∧ (State.retryRefused s stems).ports = s.ports ∧ (State.retryRefused s stems).tun = s.tun ∧
    (State.retryRefused s stems).cav = s.cav ∧ (State.retryRefused s stems).sched = s.sched ∧ (State.retryRefused s stems).eng = s.eng ∧
    (State.retryRefused s stems).geode = s.geode ∧ (State.retryRefused s stems).boot = s.boot ∧
    (State.retryRefused s stems).freeCtr = s.freeCtr ∧ (State.retryRefused s stems).sent = s.sent := by
  unfold State.retryRefused
  (try dsimp only)
  (repeat' split) <;> (have hk1 := @State.noteRetry_keeps; simp [hk1, State.KeepsOuter, State.KeepsInner, State.KeepsCore])

theorem State.rollbackEnd_keeps (s : State) :
    s.KeepsOuter (State.rollbackEnd s) ∧ s.KeepsInner (State.rollbackEnd s) ∧ (State.rollbackEnd s).regs = s.regs ∧
    (State.rollbackEnd s).mem = s.mem ∧ (State.rollbackEnd s).beat = s.beat ∧ (State.rollbackEnd s).lanes = s.lanes ∧
    (State.rollbackEnd s).line = s.line ∧ (State.rollbackEnd s).ports = s.ports ∧ (State.rollbackEnd s).tun = s.tun ∧
    (State.rollbackEnd s).cav = s.cav ∧ (State.rollbackEnd s).sched = s.sched ∧ (State.rollbackEnd s).eng = s.eng ∧
    (State.rollbackEnd s).geode = s.geode ∧ (State.rollbackEnd s).boot = s.boot ∧ (State.rollbackEnd s).freeCtr = s.freeCtr ∧
    (State.rollbackEnd s).sent = s.sent := by
  unfold State.rollbackEnd
  (try dsimp only)
  (repeat' split) <;> (have hk1 := @State.entryOver_keeps; have hk2 := @State.noteRetry_keeps; simp [hk1, hk2, State.KeepsOuter, State.KeepsInner, State.KeepsCore])

theorem State.rollbackNext_keeps (s : State) :
    s.KeepsOuter (State.rollbackNext s) ∧ (State.rollbackNext s).mem = s.mem ∧ (State.rollbackNext s).beat = s.beat ∧
    (State.rollbackNext s).lanes = s.lanes ∧ (State.rollbackNext s).line = s.line ∧ (State.rollbackNext s).echo = s.echo ∧
    (State.rollbackNext s).sched = s.sched ∧ (State.rollbackNext s).twin = s.twin ∧ (State.rollbackNext s).acc = s.acc ∧
    (State.rollbackNext s).geode = s.geode ∧ (State.rollbackNext s).boot = s.boot ∧ (State.rollbackNext s).log = s.log ∧
    (State.rollbackNext s).faultN = s.faultN ∧ (State.rollbackNext s).sent = s.sent := by
  unfold State.rollbackNext
  (try dsimp only)
  (repeat' split) <;> (have hk1 := @State.restartBlock_keeps; have hk2 := @State.rollbackEnd_keeps; simp [hk1, hk2, State.KeepsOuter, State.KeepsInner, State.KeepsCore])

theorem State.refuse_keeps (s : State) (block : Nat) (reason : Nat) :
    s.KeepsOuter (State.refuse s block reason) ∧ (State.refuse s block reason).mem = s.mem ∧ (State.refuse s block reason).beat = s.beat ∧
    (State.refuse s block reason).lanes = s.lanes ∧ (State.refuse s block reason).line = s.line ∧
    (State.refuse s block reason).echo = s.echo ∧ (State.refuse s block reason).sched = s.sched ∧
    (State.refuse s block reason).twin = s.twin ∧ (State.refuse s block reason).acc = s.acc ∧
    (State.refuse s block reason).geode = s.geode ∧ (State.refuse s block reason).log = s.log ∧
    (State.refuse s block reason).faultN = s.faultN ∧ (State.refuse s block reason).sent = s.sent := by
  unfold State.refuse
  (try dsimp only)
  (repeat' split) <;> (have hk1 := @State.enterLimited_keeps; have hk2 := @State.freeEngines_keeps; have hk3 := @State.rollbackNext_keeps; simp [hk1, hk2, hk3, State.KeepsOuter, State.KeepsInner, State.KeepsCore])

theorem State.abandon_keeps (s : State) (ap : Nat) :
    s.KeepsOuter (State.abandon s ap) ∧ (State.abandon s ap).mem = s.mem ∧ (State.abandon s ap).beat = s.beat ∧
    (State.abandon s ap).lanes = s.lanes ∧ (State.abandon s ap).echo = s.echo ∧ (State.abandon s ap).sched = s.sched ∧
    (State.abandon s ap).twin = s.twin ∧ (State.abandon s ap).acc = s.acc ∧ (State.abandon s ap).geode = s.geode ∧
    (State.abandon s ap).log = s.log ∧ (State.abandon s ap).faultN = s.faultN := by
  unfold State.abandon
  (try dsimp only)
  (repeat' split) <;> (have hk1 := @State.entryOver_keeps; have hk2 := @State.noteRetry_keeps; have hk3 := @State.reopenAdmission_keeps; have hk4 := @State.replayLatch_keeps; have hk5 := @State.restartBlock_keeps; simp [hk1, hk2, hk3, hk4, hk5, State.KeepsOuter, State.KeepsInner, State.KeepsCore])

theorem State.layoverComplete_keeps (s : State) :
    s.KeepsOuter (State.layoverComplete s) ∧ (State.layoverComplete s).mem = s.mem ∧ (State.layoverComplete s).lanes = s.lanes ∧
    (State.layoverComplete s).ports = s.ports ∧ (State.layoverComplete s).echo = s.echo ∧ (State.layoverComplete s).tun = s.tun ∧
    (State.layoverComplete s).cav = s.cav ∧ (State.layoverComplete s).sched = s.sched ∧ (State.layoverComplete s).eng = s.eng ∧
    (State.layoverComplete s).geode = s.geode ∧ (State.layoverComplete s).usb = s.usb ∧ (State.layoverComplete s).log = s.log ∧
    (State.layoverComplete s).faultN = s.faultN ∧ (State.layoverComplete s).freeCtr = s.freeCtr := by
  unfold State.layoverComplete
  (try dsimp only)
  (repeat' split) <;> (have hk1 := @State.entryOver_keeps; have hk2 := @State.offPll_keeps; have hk3 := @State.replayLatch_keeps; simp [hk1, hk2, hk3, State.KeepsOuter, State.KeepsInner, State.KeepsCore])

theorem State.agreeBlock_keeps (s : State) (block : Nat) :
    s.KeepsOuter (State.agreeBlock s block) ∧ (State.agreeBlock s block).echo = s.echo ∧ (State.agreeBlock s block).sched = s.sched ∧
    (State.agreeBlock s block).log = s.log ∧ (State.agreeBlock s block).faultN = s.faultN := by
  unfold State.agreeBlock
  (try dsimp only)
  (repeat' split) <;> (have hk1 := @State.cavernOff_keeps; have hk2 := @State.lanesOff_keeps; have hk3 := @State.layoverComplete_keeps; have hk4 := @State.sumpSleep_keeps; have hk5 := @State.untrain_keeps; simp [hk1, hk2, hk3, hk4, hk5, State.KeepsOuter, State.KeepsInner, State.KeepsCore])

theorem State.agree_keeps (s : State) (block : Nat) :
    s.KeepsOuter (State.agree s block) ∧ (State.agree s block).echo = s.echo ∧ (State.agree s block).sched = s.sched ∧
    (State.agree s block).log = s.log ∧ (State.agree s block).faultN = s.faultN := by
  unfold State.agree
  (try dsimp only)
  (repeat' split) <;> (have hk1 := @State.agreeBlock_keeps; simp [hk1, State.KeepsOuter, State.KeepsInner, State.KeepsCore])

theorem State.askBlock_keeps (s : State) (block : Nat) :
    s.KeepsOuter (State.askBlock s block) ∧ (State.askBlock s block).echo = s.echo ∧ (State.askBlock s block).sched = s.sched ∧
    (State.askBlock s block).log = s.log ∧ (State.askBlock s block).faultN = s.faultN := by
  unfold State.askBlock
  (try dsimp only)
  (repeat' split) <;> (have hk1 := @State.agree_keeps; simp [hk1, State.KeepsOuter, State.KeepsInner, State.KeepsCore])

@[simp] theorem State.abortPoint_mem (s : State) (ap : Nat) {next : State → State} (h : ∀ t, (next t).mem = t.mem) :
    (State.abortPoint s ap next).mem = s.mem := by
  unfold State.abortPoint; (try dsimp only); (repeat' split) <;> (have hk1 := @State.abandon_keeps; have hi := @State.ite_fields; simp [hk1, h, hi])

@[simp] theorem State.abortPoint_heads (s : State) (ap : Nat) {next : State → State} (h : ∀ t, (next t).heads = t.heads) :
    (State.abortPoint s ap next).heads = s.heads := by
  unfold State.abortPoint; (try dsimp only); (repeat' split) <;> (have hk1 := @State.abandon_keeps; have hi := @State.ite_fields; simp [hk1, h, hi])

@[simp] theorem State.abortPoint_beat (s : State) (ap : Nat) {next : State → State} (h : ∀ t, (next t).beat = t.beat) :
    (State.abortPoint s ap next).beat = s.beat := by
  unfold State.abortPoint; (try dsimp only); (repeat' split) <;> (have hk1 := @State.abandon_keeps; have hi := @State.ite_fields; simp [hk1, h, hi])

@[simp] theorem State.abortPoint_lanes (s : State) (ap : Nat) {next : State → State} (h : ∀ t, (next t).lanes = t.lanes) :
    (State.abortPoint s ap next).lanes = s.lanes := by
  unfold State.abortPoint; (try dsimp only); (repeat' split) <;> (have hk1 := @State.abandon_keeps; have hi := @State.ite_fields; simp [hk1, h, hi])

@[simp] theorem State.abortPoint_echo (s : State) (ap : Nat) {next : State → State} (h : ∀ t, (next t).echo = t.echo) :
    (State.abortPoint s ap next).echo = s.echo := by
  unfold State.abortPoint; (try dsimp only); (repeat' split) <;> (have hk1 := @State.abandon_keeps; have hi := @State.ite_fields; simp [hk1, h, hi])

@[simp] theorem State.abortPoint_sched (s : State) (ap : Nat) {next : State → State} (h : ∀ t, (next t).sched = t.sched) :
    (State.abortPoint s ap next).sched = s.sched := by
  unfold State.abortPoint; (try dsimp only); (repeat' split) <;> (have hk1 := @State.abandon_keeps; have hi := @State.ite_fields; simp [hk1, h, hi])

@[simp] theorem State.abortPoint_twin (s : State) (ap : Nat) {next : State → State} (h : ∀ t, (next t).twin = t.twin) :
    (State.abortPoint s ap next).twin = s.twin := by
  unfold State.abortPoint; (try dsimp only); (repeat' split) <;> (have hk1 := @State.abandon_keeps; have hi := @State.ite_fields; simp [hk1, h, hi])

@[simp] theorem State.abortPoint_acc (s : State) (ap : Nat) {next : State → State} (h : ∀ t, (next t).acc = t.acc) :
    (State.abortPoint s ap next).acc = s.acc := by
  unfold State.abortPoint; (try dsimp only); (repeat' split) <;> (have hk1 := @State.abandon_keeps; have hi := @State.ite_fields; simp [hk1, h, hi])

@[simp] theorem State.abortPoint_geode (s : State) (ap : Nat) {next : State → State} (h : ∀ t, (next t).geode = t.geode) :
    (State.abortPoint s ap next).geode = s.geode := by
  unfold State.abortPoint; (try dsimp only); (repeat' split) <;> (have hk1 := @State.abandon_keeps; have hi := @State.ite_fields; simp [hk1, h, hi])

@[simp] theorem State.abortPoint_pd (s : State) (ap : Nat) {next : State → State} (h : ∀ t, (next t).pd = t.pd) :
    (State.abortPoint s ap next).pd = s.pd := by
  unfold State.abortPoint; (try dsimp only); (repeat' split) <;> (have hk1 := @State.abandon_keeps; have hi := @State.ite_fields; simp [hk1, h, hi])

@[simp] theorem State.abortPoint_mon (s : State) (ap : Nat) {next : State → State} (h : ∀ t, (next t).mon = t.mon) :
    (State.abortPoint s ap next).mon = s.mon := by
  unfold State.abortPoint; (try dsimp only); (repeat' split) <;> (have hk1 := @State.abandon_keeps; have hi := @State.ite_fields; simp [hk1, h, hi])

@[simp] theorem State.abortPoint_log (s : State) (ap : Nat) {next : State → State} (h : ∀ t, (next t).log = t.log) :
    (State.abortPoint s ap next).log = s.log := by
  unfold State.abortPoint; (try dsimp only); (repeat' split) <;> (have hk1 := @State.abandon_keeps; have hi := @State.ite_fields; simp [hk1, h, hi])

@[simp] theorem State.abortPoint_faultN (s : State) (ap : Nat) {next : State → State} (h : ∀ t, (next t).faultN = t.faultN) :
    (State.abortPoint s ap next).faultN = s.faultN := by
  unfold State.abortPoint; (try dsimp only); (repeat' split) <;> (have hk1 := @State.abandon_keeps; have hi := @State.ite_fields; simp [hk1, h, hi])

@[simp] theorem State.abortPoint_carStatus (s : State) (ap : Nat) {next : State → State} (h : ∀ t, (next t).carStatus = t.carStatus) :
    (State.abortPoint s ap next).carStatus = s.carStatus := by
  unfold State.abortPoint; (try dsimp only); (repeat' split) <;> (have hk1 := @State.abandon_keeps; have hi := @State.ite_fields; simp [hk1, h, hi])

@[simp] theorem State.abortPoint_ticks (s : State) (ap : Nat) {next : State → State} (h : ∀ t, (next t).ticks = t.ticks) :
    (State.abortPoint s ap next).ticks = s.ticks := by
  unfold State.abortPoint; (try dsimp only); (repeat' split) <;> (have hk1 := @State.abandon_keeps; have hi := @State.ite_fields; simp [hk1, h, hi])

@[simp] theorem State.abortPoint_pending (s : State) (ap : Nat) {next : State → State} (h : ∀ t, (next t).pending = t.pending) :
    (State.abortPoint s ap next).pending = s.pending := by
  unfold State.abortPoint; (try dsimp only); (repeat' split) <;> (have hk1 := @State.abandon_keeps; have hi := @State.ite_fields; simp [hk1, h, hi])

theorem State.entryHead_keeps (s : State) :
    s.KeepsOuter (State.entryHead s) ∧ (State.entryHead s).echo = s.echo ∧ (State.entryHead s).sched = s.sched ∧
    (State.entryHead s).log = s.log ∧ (State.entryHead s).faultN = s.faultN := by
  unfold State.entryHead
  (try dsimp only)
  (repeat' split) <;> (have hk1 := @State.agree_keeps; have hk2 := @State.askBlock_keeps; have hk3 := @State.refuse_keeps; simp [hk1, hk2, hk3, State.KeepsOuter, State.KeepsInner, State.KeepsCore])

theorem State.pwrResult_keeps (s : State) (m : Master) (code : Nat) :
    s.KeepsOuter (State.pwrResult s m code) ∧ s.KeepsInner (State.pwrResult s m code) ∧ s.KeepsCore (State.pwrResult s m code) ∧
    (State.pwrResult s m code).mem = s.mem ∧ (State.pwrResult s m code).line = s.line ∧ (State.pwrResult s m code).ports = s.ports ∧
    (State.pwrResult s m code).cav = s.cav ∧ (State.pwrResult s m code).geode = s.geode ∧ (State.pwrResult s m code).freeCtr = s.freeCtr ∧
    (State.pwrResult s m code).sent = s.sent := by
  unfold State.pwrResult
  (try dsimp only)
  (repeat' split) <;> simp [State.KeepsOuter, State.KeepsInner, State.KeepsCore]

theorem State.evaluateRequest_keeps (s : State) :
    s.KeepsOuter (State.evaluateRequest s) ∧ s.KeepsInner (State.evaluateRequest s) ∧ (State.evaluateRequest s).mem = s.mem ∧
    (State.evaluateRequest s).beat = s.beat ∧ (State.evaluateRequest s).lanes = s.lanes ∧ (State.evaluateRequest s).line = s.line ∧
    (State.evaluateRequest s).ports = s.ports ∧ (State.evaluateRequest s).tun = s.tun ∧ (State.evaluateRequest s).cav = s.cav ∧
    (State.evaluateRequest s).sched = s.sched ∧ (State.evaluateRequest s).eng = s.eng ∧ (State.evaluateRequest s).geode = s.geode ∧
    (State.evaluateRequest s).boot = s.boot ∧ (State.evaluateRequest s).freeCtr = s.freeCtr ∧ (State.evaluateRequest s).sent = s.sent := by
  unfold State.evaluateRequest
  (try dsimp only)
  (repeat' split) <;> (have hk1 := @State.pwrResult_keeps; have hk2 := @State.retryRefused_keeps; have hk3 := @State.wakeLayover_keeps; simp [hk1, hk2, hk3, State.KeepsOuter, State.KeepsInner, State.KeepsCore])

theorem State.powerHead_keeps (s : State) :
    s.KeepsOuter (State.powerHead s) ∧ (State.powerHead s).echo = s.echo ∧ (State.powerHead s).sched = s.sched ∧
    (State.powerHead s).log = s.log ∧ (State.powerHead s).faultN = s.faultN := by
  unfold State.powerHead
  (try dsimp only)
  (repeat' split) <;> (have hk1 := @State.entryHead_keeps; have hk2 := @State.evaluateRequest_keeps; simp [hk1, hk2, State.KeepsOuter, State.KeepsInner, State.KeepsCore])

theorem State.writeRequest_keeps (s : State) (m : Master) (target : Nat) :
    s.KeepsOuter (State.writeRequest s m target) ∧ s.KeepsInner (State.writeRequest s m target) ∧
    (State.writeRequest s m target).mem = s.mem ∧ (State.writeRequest s m target).beat = s.beat ∧
    (State.writeRequest s m target).lanes = s.lanes ∧ (State.writeRequest s m target).line = s.line ∧
    (State.writeRequest s m target).ports = s.ports ∧ (State.writeRequest s m target).tun = s.tun ∧
    (State.writeRequest s m target).cav = s.cav ∧ (State.writeRequest s m target).sched = s.sched ∧
    (State.writeRequest s m target).eng = s.eng ∧ (State.writeRequest s m target).geode = s.geode ∧
    (State.writeRequest s m target).boot = s.boot ∧ (State.writeRequest s m target).freeCtr = s.freeCtr ∧
    (State.writeRequest s m target).sent = s.sent := by
  unfold State.writeRequest
  (try dsimp only)
  (repeat' split) <;> simp [State.KeepsOuter, State.KeepsInner, State.KeepsCore]

theorem State.writeAsk_keeps (s : State) (m : Master) (target : Nat) :
    s.KeepsOuter (State.writeAsk s m target) ∧ s.KeepsInner (State.writeAsk s m target) ∧ (State.writeAsk s m target).regs = s.regs ∧
    (State.writeAsk s m target).mem = s.mem ∧ (State.writeAsk s m target).beat = s.beat ∧ (State.writeAsk s m target).lanes = s.lanes ∧
    (State.writeAsk s m target).line = s.line ∧ (State.writeAsk s m target).ports = s.ports ∧ (State.writeAsk s m target).tun = s.tun ∧
    (State.writeAsk s m target).cav = s.cav ∧ (State.writeAsk s m target).sched = s.sched ∧ (State.writeAsk s m target).eng = s.eng ∧
    (State.writeAsk s m target).geode = s.geode ∧ (State.writeAsk s m target).boot = s.boot ∧
    (State.writeAsk s m target).freeCtr = s.freeCtr ∧ (State.writeAsk s m target).sent = s.sent := by
  unfold State.writeAsk
  (try dsimp only)
  (repeat' split) <;> simp [State.KeepsOuter, State.KeepsInner, State.KeepsCore]

theorem State.issueAsk_keeps (s : State) :
    s.KeepsOuter (State.issueAsk s) ∧ s.KeepsInner (State.issueAsk s) ∧ (State.issueAsk s).mem = s.mem ∧ (State.issueAsk s).beat = s.beat ∧
    (State.issueAsk s).lanes = s.lanes ∧ (State.issueAsk s).line = s.line ∧ (State.issueAsk s).ports = s.ports ∧
    (State.issueAsk s).tun = s.tun ∧ (State.issueAsk s).cav = s.cav ∧ (State.issueAsk s).sched = s.sched ∧ (State.issueAsk s).eng = s.eng ∧
    (State.issueAsk s).geode = s.geode ∧ (State.issueAsk s).boot = s.boot ∧ (State.issueAsk s).freeCtr = s.freeCtr ∧
    (State.issueAsk s).sent = s.sent := by
  unfold State.issueAsk
  (try dsimp only)
  (repeat' split) <;> (have hk1 := @State.writeRequest_keeps; simp [hk1, State.KeepsOuter, State.KeepsInner, State.KeepsCore])

theorem State.sendStep_keeps (s : State) :
    s.KeepsOuter (State.sendStep s) ∧ s.KeepsInner (State.sendStep s) ∧ (State.sendStep s).regs = s.regs ∧ (State.sendStep s).mem = s.mem ∧
    (State.sendStep s).beat = s.beat ∧ (State.sendStep s).lanes = s.lanes ∧ (State.sendStep s).ports = s.ports ∧
    (State.sendStep s).tun = s.tun ∧ (State.sendStep s).cav = s.cav ∧ (State.sendStep s).sched = s.sched ∧ (State.sendStep s).eng = s.eng ∧
    (State.sendStep s).geode = s.geode ∧ (State.sendStep s).boot = s.boot ∧ (State.sendStep s).freeCtr = s.freeCtr := by
  unfold State.sendStep
  (try dsimp only)
  (repeat' split) <;> (have hk1 := @State.sendVoltage_keeps; simp [hk1, State.KeepsOuter, State.KeepsInner, State.KeepsCore])

theorem State.startStepping_keeps (s : State) :
    s.KeepsOuter (State.startStepping s) ∧ s.KeepsInner (State.startStepping s) ∧ (State.startStepping s).mem = s.mem ∧
    (State.startStepping s).beat = s.beat ∧ (State.startStepping s).lanes = s.lanes ∧ (State.startStepping s).ports = s.ports ∧
    (State.startStepping s).tun = s.tun ∧ (State.startStepping s).cav = s.cav ∧ (State.startStepping s).sched = s.sched ∧
    (State.startStepping s).eng = s.eng ∧ (State.startStepping s).geode = s.geode ∧ (State.startStepping s).boot = s.boot ∧
    (State.startStepping s).freeCtr = s.freeCtr := by
  unfold State.startStepping
  (try dsimp only)
  (repeat' split) <;> (have hk1 := @State.sendStep_keeps; simp [hk1, State.KeepsOuter, State.KeepsInner, State.KeepsCore])

theorem State.writeTarget_keeps (s : State) :
    s.KeepsOuter (State.writeTarget s) ∧ s.KeepsInner (State.writeTarget s) ∧ (State.writeTarget s).mem = s.mem ∧
    (State.writeTarget s).beat = s.beat ∧ (State.writeTarget s).lanes = s.lanes ∧ (State.writeTarget s).ports = s.ports ∧
    (State.writeTarget s).tun = s.tun ∧ (State.writeTarget s).cav = s.cav ∧ (State.writeTarget s).sched = s.sched ∧
    (State.writeTarget s).eng = s.eng ∧ (State.writeTarget s).geode = s.geode ∧ (State.writeTarget s).boot = s.boot ∧
    (State.writeTarget s).freeCtr = s.freeCtr := by
  unfold State.writeTarget
  (try dsimp only)
  (repeat' split) <;> (have hk1 := @State.setStage_keeps; have hk2 := @State.startStepping_keeps; simp [hk1, hk2, State.KeepsOuter, State.KeepsInner, State.KeepsCore])

theorem State.goLimited_keeps (s : State) :
    s.KeepsOuter (State.goLimited s) ∧ s.KeepsInner (State.goLimited s) ∧ (State.goLimited s).mem = s.mem ∧
    (State.goLimited s).beat = s.beat ∧ (State.goLimited s).lanes = s.lanes ∧ (State.goLimited s).line = s.line ∧
    (State.goLimited s).ports = s.ports ∧ (State.goLimited s).tun = s.tun ∧ (State.goLimited s).cav = s.cav ∧
    (State.goLimited s).sched = s.sched ∧ (State.goLimited s).eng = s.eng ∧ (State.goLimited s).geode = s.geode ∧
    (State.goLimited s).freeCtr = s.freeCtr ∧ (State.goLimited s).sent = s.sent := by
  unfold State.goLimited
  (try dsimp only)
  (repeat' split) <;> (have hk1 := @State.enterLimited_keeps; have hk2 := @State.pendMode_keeps; have hk3 := @State.setStage_keeps; simp [hk1, hk2, hk3, State.KeepsOuter, State.KeepsInner, State.KeepsCore])

theorem State.stepFailed_keeps (s : State) :
    s.KeepsOuter (State.stepFailed s) ∧ (State.stepFailed s).mem = s.mem ∧ (State.stepFailed s).beat = s.beat ∧
    (State.stepFailed s).lanes = s.lanes ∧ (State.stepFailed s).line = s.line ∧ (State.stepFailed s).ports = s.ports ∧
    (State.stepFailed s).echo = s.echo ∧ (State.stepFailed s).tun = s.tun ∧ (State.stepFailed s).cav = s.cav ∧
    (State.stepFailed s).sched = s.sched ∧ (State.stepFailed s).twin = s.twin ∧ (State.stepFailed s).eng = s.eng ∧
    (State.stepFailed s).acc = s.acc ∧ (State.stepFailed s).geode = s.geode ∧ (State.stepFailed s).freeCtr = s.freeCtr ∧
    (State.stepFailed s).sent = s.sent := by
  unfold State.stepFailed
  (try dsimp only)
  (repeat' split) <;> (have hk1 := @State.goLimited_keeps; simp [hk1, State.KeepsOuter, State.KeepsInner, State.KeepsCore])

theorem State.stepDone_keeps (s : State) :
    s.KeepsOuter (State.stepDone s) ∧ (State.stepDone s).mem = s.mem ∧ (State.stepDone s).beat = s.beat ∧
    (State.stepDone s).lanes = s.lanes ∧ (State.stepDone s).ports = s.ports ∧ (State.stepDone s).echo = s.echo ∧
    (State.stepDone s).tun = s.tun ∧ (State.stepDone s).cav = s.cav ∧ (State.stepDone s).sched = s.sched ∧
    (State.stepDone s).twin = s.twin ∧ (State.stepDone s).eng = s.eng ∧ (State.stepDone s).acc = s.acc ∧
    (State.stepDone s).geode = s.geode ∧ (State.stepDone s).boot = s.boot ∧ (State.stepDone s).usb = s.usb ∧
    (State.stepDone s).log = s.log ∧ (State.stepDone s).freeCtr = s.freeCtr := by
  (have hk1 := @State.sendStep_keeps; have hi := @State.ite_fields; simp [hk1, State.stepDone, hi, State.KeepsOuter, State.KeepsInner, State.KeepsCore])

theorem State.avsEvaluate_keeps (s : State) :
    s.KeepsOuter (State.avsEvaluate s) ∧ (State.avsEvaluate s).mem = s.mem ∧ (State.avsEvaluate s).beat = s.beat ∧
    (State.avsEvaluate s).lanes = s.lanes ∧ (State.avsEvaluate s).ports = s.ports ∧ (State.avsEvaluate s).echo = s.echo ∧
    (State.avsEvaluate s).tun = s.tun ∧ (State.avsEvaluate s).cav = s.cav ∧ (State.avsEvaluate s).sched = s.sched ∧
    (State.avsEvaluate s).twin = s.twin ∧ (State.avsEvaluate s).eng = s.eng ∧ (State.avsEvaluate s).acc = s.acc ∧
    (State.avsEvaluate s).geode = s.geode ∧ (State.avsEvaluate s).boot = s.boot ∧ (State.avsEvaluate s).usb = s.usb ∧
    (State.avsEvaluate s).faultN = s.faultN ∧ (State.avsEvaluate s).freeCtr = s.freeCtr := by
  unfold State.avsEvaluate
  (try dsimp only)
  (repeat' split) <;> (have hk1 := @State.writeTarget_keeps; simp [hk1, State.KeepsOuter, State.KeepsInner, State.KeepsCore])

theorem State.restoreWord_keeps (s : State) (x : Nat × Word) :
    s.KeepsOuter (State.restoreWord s x) ∧ s.KeepsInner (State.restoreWord s x) ∧ (State.restoreWord s x).mem = s.mem ∧
    (State.restoreWord s x).beat = s.beat ∧ (State.restoreWord s x).tun = s.tun ∧ (State.restoreWord s x).sched = s.sched ∧
    (State.restoreWord s x).eng = s.eng ∧ (State.restoreWord s x).boot = s.boot := by
  unfold State.restoreWord
  (try dsimp only)
  (repeat' split) <;> (have hk1 := @State.evaluate_keeps; have hk2 := @State.startStepping_keeps; simp [hk1, hk2, State.KeepsOuter, State.KeepsInner, State.KeepsCore])

theorem State.restoreSet_keeps (s : State) (v : Save) :
    s.KeepsOuter (State.restoreSet s v) ∧ (State.restoreSet s v).mem = s.mem ∧ (State.restoreSet s v).beat = s.beat ∧
    (State.restoreSet s v).echo = s.echo ∧ (State.restoreSet s v).tun = s.tun ∧ (State.restoreSet s v).sched = s.sched ∧
    (State.restoreSet s v).twin = s.twin ∧ (State.restoreSet s v).eng = s.eng ∧ (State.restoreSet s v).boot = s.boot ∧
    (State.restoreSet s v).usb = s.usb ∧ (State.restoreSet s v).log = s.log ∧ (State.restoreSet s v).faultN = s.faultN := by
  unfold State.restoreSet
  (try dsimp only)
  (repeat' split) <;> (have hk1 := @State.restoreWord_keeps; have hk2 := @State.rulesFromRegs_keeps; simp [hk1, hk2, State.KeepsOuter, State.KeepsInner, State.KeepsCore])

theorem State.copyRecord_keeps (s : State) (m : Master) :
    s.KeepsOuter (State.copyRecord s m) ∧ s.KeepsInner (State.copyRecord s m) ∧ s.KeepsCore (State.copyRecord s m) ∧
    (State.copyRecord s m).mem = s.mem ∧ (State.copyRecord s m).line = s.line ∧ (State.copyRecord s m).ports = s.ports ∧
    (State.copyRecord s m).cav = s.cav ∧ (State.copyRecord s m).geode = s.geode ∧ (State.copyRecord s m).freeCtr = s.freeCtr ∧
    (State.copyRecord s m).sent = s.sent := by
  unfold State.copyRecord
  (try dsimp only)
  (repeat' split) <;> simp [State.KeepsOuter, State.KeepsInner, State.KeepsCore]

theorem State.putRecord_keeps (s : State) (m : Master) :
    s.KeepsOuter (State.putRecord s m) ∧ s.KeepsCore (State.putRecord s m) ∧ (State.putRecord s m).mem = s.mem ∧
    (State.putRecord s m).line = s.line ∧ (State.putRecord s m).ports = s.ports ∧ (State.putRecord s m).echo = s.echo ∧
    (State.putRecord s m).cav = s.cav ∧ (State.putRecord s m).twin = s.twin ∧ (State.putRecord s m).acc = s.acc ∧
    (State.putRecord s m).geode = s.geode ∧ (State.putRecord s m).usb = s.usb ∧ (State.putRecord s m).faultN = s.faultN ∧
    (State.putRecord s m).freeCtr = s.freeCtr ∧ (State.putRecord s m).sent = s.sent := by
  unfold State.putRecord
  (try dsimp only)
  (repeat' split) <;> simp [State.KeepsOuter, State.KeepsInner, State.KeepsCore]

theorem State.writeRecord_keeps (s : State) :
    s.KeepsOuter (State.writeRecord s) ∧ s.KeepsCore (State.writeRecord s) ∧ (State.writeRecord s).mem = s.mem ∧
    (State.writeRecord s).line = s.line ∧ (State.writeRecord s).ports = s.ports ∧ (State.writeRecord s).echo = s.echo ∧
    (State.writeRecord s).cav = s.cav ∧ (State.writeRecord s).twin = s.twin ∧ (State.writeRecord s).acc = s.acc ∧
    (State.writeRecord s).geode = s.geode ∧ (State.writeRecord s).faultN = s.faultN ∧ (State.writeRecord s).freeCtr = s.freeCtr ∧
    (State.writeRecord s).sent = s.sent := by
  unfold State.writeRecord
  (try dsimp only)
  (repeat' split) <;> simp [State.KeepsOuter, State.KeepsInner, State.KeepsCore]

theorem State.pushFault_keeps (s : State) (f : MpuFault) :
    s.KeepsOuter (State.pushFault s f) ∧ s.KeepsCore (State.pushFault s f) ∧ (State.pushFault s f).mem = s.mem ∧
    (State.pushFault s f).line = s.line ∧ (State.pushFault s f).ports = s.ports ∧ (State.pushFault s f).echo = s.echo ∧
    (State.pushFault s f).cav = s.cav ∧ (State.pushFault s f).twin = s.twin ∧ (State.pushFault s f).geode = s.geode ∧
    (State.pushFault s f).usb = s.usb ∧ (State.pushFault s f).log = s.log ∧ (State.pushFault s f).faultN = s.faultN ∧
    (State.pushFault s f).freeCtr = s.freeCtr ∧ (State.pushFault s f).sent = s.sent := by
  unfold State.pushFault
  (try dsimp only)
  (repeat' split) <;> simp [State.KeepsOuter, State.KeepsInner, State.KeepsCore]

theorem State.popFault_keeps (s : State) :
    s.KeepsOuter (State.popFault s) ∧ s.KeepsCore (State.popFault s) ∧ (State.popFault s).regs = s.regs ∧ (State.popFault s).mem = s.mem ∧
    (State.popFault s).line = s.line ∧ (State.popFault s).ports = s.ports ∧ (State.popFault s).echo = s.echo ∧
    (State.popFault s).cav = s.cav ∧ (State.popFault s).twin = s.twin ∧ (State.popFault s).geode = s.geode ∧
    (State.popFault s).usb = s.usb ∧ (State.popFault s).log = s.log ∧ (State.popFault s).faultN = s.faultN ∧
    (State.popFault s).freeCtr = s.freeCtr ∧ (State.popFault s).sent = s.sent := by
  unfold State.popFault
  (try dsimp only)
  (repeat' split) <;> simp [State.KeepsOuter, State.KeepsInner, State.KeepsCore]

theorem State.changeRule_keeps (s : State) (a : Nat) (w : Word) :
    s.KeepsOuter (State.changeRule s a w) ∧ s.KeepsCore (State.changeRule s a w) ∧ (State.changeRule s a w).regs = s.regs ∧
    (State.changeRule s a w).mem = s.mem ∧ (State.changeRule s a w).line = s.line ∧ (State.changeRule s a w).ports = s.ports ∧
    (State.changeRule s a w).echo = s.echo ∧ (State.changeRule s a w).cav = s.cav ∧ (State.changeRule s a w).twin = s.twin ∧
    (State.changeRule s a w).geode = s.geode ∧ (State.changeRule s a w).usb = s.usb ∧ (State.changeRule s a w).log = s.log ∧
    (State.changeRule s a w).faultN = s.faultN ∧ (State.changeRule s a w).freeCtr = s.freeCtr ∧ (State.changeRule s a w).sent = s.sent := by
  unfold State.changeRule
  (try dsimp only)
  (repeat' split) <;> simp [State.KeepsOuter, State.KeepsInner, State.KeepsCore]

theorem State.ruleTakesEffect_keeps (s : State) :
    s.KeepsOuter (State.ruleTakesEffect s) ∧ s.KeepsCore (State.ruleTakesEffect s) ∧ (State.ruleTakesEffect s).regs = s.regs ∧
    (State.ruleTakesEffect s).mem = s.mem ∧ (State.ruleTakesEffect s).line = s.line ∧ (State.ruleTakesEffect s).ports = s.ports ∧
    (State.ruleTakesEffect s).echo = s.echo ∧ (State.ruleTakesEffect s).cav = s.cav ∧ (State.ruleTakesEffect s).twin = s.twin ∧
    (State.ruleTakesEffect s).geode = s.geode ∧ (State.ruleTakesEffect s).usb = s.usb ∧ (State.ruleTakesEffect s).log = s.log ∧
    (State.ruleTakesEffect s).faultN = s.faultN ∧ (State.ruleTakesEffect s).freeCtr = s.freeCtr ∧ (State.ruleTakesEffect s).sent = s.sent := by
  unfold State.ruleTakesEffect
  (try dsimp only)
  (repeat' split) <;> simp [State.KeepsOuter, State.KeepsInner, State.KeepsCore]

theorem State.rulesTakeEffect_keeps (y1 : Nat) (y2 : State) :
    y2.KeepsOuter (State.rulesTakeEffect y1 y2) ∧ y2.KeepsCore (State.rulesTakeEffect y1 y2) ∧
    (State.rulesTakeEffect y1 y2).regs = y2.regs ∧ (State.rulesTakeEffect y1 y2).mem = y2.mem ∧
    (State.rulesTakeEffect y1 y2).line = y2.line ∧ (State.rulesTakeEffect y1 y2).ports = y2.ports ∧
    (State.rulesTakeEffect y1 y2).echo = y2.echo ∧ (State.rulesTakeEffect y1 y2).cav = y2.cav ∧
    (State.rulesTakeEffect y1 y2).twin = y2.twin ∧ (State.rulesTakeEffect y1 y2).geode = y2.geode ∧
    (State.rulesTakeEffect y1 y2).usb = y2.usb ∧ (State.rulesTakeEffect y1 y2).log = y2.log ∧
    (State.rulesTakeEffect y1 y2).faultN = y2.faultN ∧ (State.rulesTakeEffect y1 y2).freeCtr = y2.freeCtr ∧
    (State.rulesTakeEffect y1 y2).sent = y2.sent := by
  fun_induction State.rulesTakeEffect y1 y2 <;> (try simp only [Prod.ext_iff] at *) <;> (try casesm* _ ∧ _) <;> subst_vars <;>
    (have hk1 := @State.ruleTakesEffect_keeps; simp_all +zetaDelta [hk1, State.KeepsOuter, State.KeepsInner, State.KeepsCore])

theorem State.startBarrier_keeps (s : State) (m : Master) :
    s.KeepsOuter (State.startBarrier s m) ∧ s.KeepsCore (State.startBarrier s m) ∧ (State.startBarrier s m).regs = s.regs ∧
    (State.startBarrier s m).mem = s.mem ∧ (State.startBarrier s m).line = s.line ∧ (State.startBarrier s m).ports = s.ports ∧
    (State.startBarrier s m).echo = s.echo ∧ (State.startBarrier s m).cav = s.cav ∧ (State.startBarrier s m).twin = s.twin ∧
    (State.startBarrier s m).geode = s.geode ∧ (State.startBarrier s m).usb = s.usb ∧ (State.startBarrier s m).log = s.log ∧
    (State.startBarrier s m).faultN = s.faultN ∧ (State.startBarrier s m).freeCtr = s.freeCtr ∧ (State.startBarrier s m).sent = s.sent := by
  unfold State.startBarrier
  (try dsimp only)
  (repeat' split) <;> simp [State.KeepsOuter, State.KeepsInner, State.KeepsCore]

theorem State.endBarrier_keeps (s : State) (m : Master) :
    s.KeepsOuter (State.endBarrier s m) ∧ s.KeepsCore (State.endBarrier s m) ∧ (State.endBarrier s m).regs = s.regs ∧
    (State.endBarrier s m).mem = s.mem ∧ (State.endBarrier s m).line = s.line ∧ (State.endBarrier s m).ports = s.ports ∧
    (State.endBarrier s m).echo = s.echo ∧ (State.endBarrier s m).cav = s.cav ∧ (State.endBarrier s m).twin = s.twin ∧
    (State.endBarrier s m).geode = s.geode ∧ (State.endBarrier s m).usb = s.usb ∧ (State.endBarrier s m).log = s.log ∧
    (State.endBarrier s m).faultN = s.faultN ∧ (State.endBarrier s m).freeCtr = s.freeCtr ∧ (State.endBarrier s m).sent = s.sent := by
  unfold State.endBarrier
  (try dsimp only)
  (repeat' split) <;> (have hk1 := @State.rulesTakeEffect_keeps; simp [hk1, State.KeepsOuter, State.KeepsInner, State.KeepsCore])

theorem State.connectUp_keeps (s : State) (ss : Bool) :
    s.KeepsOuter (State.connectUp s ss) ∧ s.KeepsCore (State.connectUp s ss) ∧ (State.connectUp s ss).mem = s.mem ∧
    (State.connectUp s ss).line = s.line ∧ (State.connectUp s ss).ports = s.ports ∧ (State.connectUp s ss).echo = s.echo ∧
    (State.connectUp s ss).cav = s.cav ∧ (State.connectUp s ss).twin = s.twin ∧ (State.connectUp s ss).acc = s.acc ∧
    (State.connectUp s ss).geode = s.geode ∧ (State.connectUp s ss).log = s.log ∧ (State.connectUp s ss).faultN = s.faultN ∧
    (State.connectUp s ss).freeCtr = s.freeCtr ∧ (State.connectUp s ss).sent = s.sent := by
  unfold State.connectUp
  (try dsimp only)
  (repeat' split) <;> simp [State.KeepsOuter, State.KeepsInner, State.KeepsCore]

theorem State.usbDefault_keeps (s : State) :
    s.KeepsOuter (State.usbDefault s) ∧ s.KeepsCore (State.usbDefault s) ∧ (State.usbDefault s).regs = s.regs ∧
    (State.usbDefault s).mem = s.mem ∧ (State.usbDefault s).line = s.line ∧ (State.usbDefault s).ports = s.ports ∧
    (State.usbDefault s).echo = s.echo ∧ (State.usbDefault s).cav = s.cav ∧ (State.usbDefault s).twin = s.twin ∧
    (State.usbDefault s).acc = s.acc ∧ (State.usbDefault s).geode = s.geode ∧ (State.usbDefault s).log = s.log ∧
    (State.usbDefault s).faultN = s.faultN ∧ (State.usbDefault s).freeCtr = s.freeCtr ∧ (State.usbDefault s).sent = s.sent := by
  unfold State.usbDefault
  (try dsimp only)
  (repeat' split) <;> simp [State.KeepsOuter, State.KeepsInner, State.KeepsCore]

theorem State.disconnectUp_keeps (s : State) :
    s.KeepsOuter (State.disconnectUp s) ∧ s.KeepsCore (State.disconnectUp s) ∧ (State.disconnectUp s).mem = s.mem ∧
    (State.disconnectUp s).line = s.line ∧ (State.disconnectUp s).ports = s.ports ∧ (State.disconnectUp s).echo = s.echo ∧
    (State.disconnectUp s).cav = s.cav ∧ (State.disconnectUp s).twin = s.twin ∧ (State.disconnectUp s).acc = s.acc ∧
    (State.disconnectUp s).geode = s.geode ∧ (State.disconnectUp s).log = s.log ∧ (State.disconnectUp s).faultN = s.faultN ∧
    (State.disconnectUp s).freeCtr = s.freeCtr ∧ (State.disconnectUp s).sent = s.sent := by
  unfold State.disconnectUp
  (try dsimp only)
  (repeat' split) <;> (have hk1 := @State.closeSession_keeps; have hk2 := @State.usbDefault_keeps; simp [hk1, hk2, State.KeepsOuter, State.KeepsInner, State.KeepsCore])

theorem State.measureVbus_keeps (s : State) (k : PdPort) (v : Nat) :
    s.KeepsOuter (State.measureVbus s k v) ∧ s.KeepsInner (State.measureVbus s k v) ∧ s.KeepsCore (State.measureVbus s k v) ∧
    (State.measureVbus s k v).mem = s.mem ∧ (State.measureVbus s k v).line = s.line ∧ (State.measureVbus s k v).ports = s.ports ∧
    (State.measureVbus s k v).cav = s.cav ∧ (State.measureVbus s k v).geode = s.geode ∧ (State.measureVbus s k v).sent = s.sent := by
  unfold State.measureVbus
  (try dsimp only)
  (repeat' split) <;> simp [State.KeepsOuter, State.KeepsInner, State.KeepsCore]

theorem State.removeVbus_keeps (s : State) (k : PdPort) :
    s.KeepsInner (State.removeVbus s k) ∧ s.KeepsCore (State.removeVbus s k) ∧ (State.removeVbus s k).regs = s.regs ∧
    (State.removeVbus s k).mem = s.mem ∧ (State.removeVbus s k).heads = s.heads ∧ (State.removeVbus s k).line = s.line ∧
    (State.removeVbus s k).ports = s.ports ∧ (State.removeVbus s k).cav = s.cav ∧ (State.removeVbus s k).geode = s.geode ∧
    (State.removeVbus s k).mon = s.mon ∧ (State.removeVbus s k).carStatus = s.carStatus ∧ (State.removeVbus s k).ticks = s.ticks ∧
    (State.removeVbus s k).freeCtr = s.freeCtr ∧ (State.removeVbus s k).sent = s.sent ∧ (State.removeVbus s k).pending = s.pending := by
  unfold State.removeVbus
  (try dsimp only)
  (repeat' split) <;> simp [State.KeepsOuter, State.KeepsInner, State.KeepsCore]

theorem State.endContract_keeps (s : State) (k : PdPort) :
    s.KeepsInner (State.endContract s k) ∧ s.KeepsCore (State.endContract s k) ∧ (State.endContract s k).regs = s.regs ∧
    (State.endContract s k).mem = s.mem ∧ (State.endContract s k).heads = s.heads ∧ (State.endContract s k).line = s.line ∧
    (State.endContract s k).ports = s.ports ∧ (State.endContract s k).cav = s.cav ∧ (State.endContract s k).geode = s.geode ∧
    (State.endContract s k).mon = s.mon ∧ (State.endContract s k).carStatus = s.carStatus ∧ (State.endContract s k).ticks = s.ticks ∧
    (State.endContract s k).freeCtr = s.freeCtr ∧ (State.endContract s k).sent = s.sent ∧ (State.endContract s k).pending = s.pending := by
  unfold State.endContract
  (try dsimp only)
  (repeat' split) <;> simp [State.KeepsOuter, State.KeepsInner, State.KeepsCore]

theorem State.dropPartner_keeps (s : State) (k : PdPort) :
    s.KeepsInner (State.dropPartner s k) ∧ s.KeepsCore (State.dropPartner s k) ∧ (State.dropPartner s k).regs = s.regs ∧
    (State.dropPartner s k).mem = s.mem ∧ (State.dropPartner s k).heads = s.heads ∧ (State.dropPartner s k).line = s.line ∧
    (State.dropPartner s k).ports = s.ports ∧ (State.dropPartner s k).cav = s.cav ∧ (State.dropPartner s k).geode = s.geode ∧
    (State.dropPartner s k).mon = s.mon ∧ (State.dropPartner s k).carStatus = s.carStatus ∧ (State.dropPartner s k).ticks = s.ticks ∧
    (State.dropPartner s k).freeCtr = s.freeCtr ∧ (State.dropPartner s k).sent = s.sent ∧ (State.dropPartner s k).pending = s.pending := by
  unfold State.dropPartner
  (try dsimp only)
  (repeat' split) <;> simp [State.KeepsOuter, State.KeepsInner, State.KeepsCore]

theorem State.showRp_keeps (s : State) (k : PdPort) :
    s.KeepsOuter (State.showRp s k) ∧ s.KeepsInner (State.showRp s k) ∧ s.KeepsCore (State.showRp s k) ∧ (State.showRp s k).regs = s.regs ∧
    (State.showRp s k).mem = s.mem ∧ (State.showRp s k).ports = s.ports ∧ (State.showRp s k).cav = s.cav ∧
    (State.showRp s k).geode = s.geode ∧ (State.showRp s k).freeCtr = s.freeCtr := by
  unfold State.showRp
  (try dsimp only)
  (repeat' split) <;> simp [State.KeepsOuter, State.KeepsInner, State.KeepsCore]

theorem State.noteCc_keeps (s : State) (k : PdPort) (on : Bool) :
    s.KeepsInner (State.noteCc s k on) ∧ s.KeepsCore (State.noteCc s k on) ∧ (State.noteCc s k on).regs = s.regs ∧
    (State.noteCc s k on).mem = s.mem ∧ (State.noteCc s k on).heads = s.heads ∧ (State.noteCc s k on).line = s.line ∧
    (State.noteCc s k on).ports = s.ports ∧ (State.noteCc s k on).cav = s.cav ∧ (State.noteCc s k on).geode = s.geode ∧
    (State.noteCc s k on).mon = s.mon ∧ (State.noteCc s k on).carStatus = s.carStatus ∧ (State.noteCc s k on).ticks = s.ticks ∧
    (State.noteCc s k on).freeCtr = s.freeCtr ∧ (State.noteCc s k on).sent = s.sent ∧ (State.noteCc s k on).pending = s.pending := by
  unfold State.noteCc
  (try dsimp only)
  (repeat' split) <;> simp [State.KeepsOuter, State.KeepsInner, State.KeepsCore]

theorem State.detachDn_keeps (s : State) (k : PdPort) :
    s.KeepsCore (State.detachDn s k) ∧ (State.detachDn s k).mem = s.mem ∧ (State.detachDn s k).heads = s.heads ∧
    (State.detachDn s k).line = s.line ∧ (State.detachDn s k).ports = s.ports ∧ (State.detachDn s k).echo = s.echo ∧
    (State.detachDn s k).cav = s.cav ∧ (State.detachDn s k).twin = s.twin ∧ (State.detachDn s k).acc = s.acc ∧
    (State.detachDn s k).geode = s.geode ∧ (State.detachDn s k).mon = s.mon ∧ (State.detachDn s k).faultN = s.faultN ∧
    (State.detachDn s k).carStatus = s.carStatus ∧ (State.detachDn s k).ticks = s.ticks ∧ (State.detachDn s k).freeCtr = s.freeCtr ∧
    (State.detachDn s k).sent = s.sent ∧ (State.detachDn s k).pending = s.pending := by
  unfold State.detachDn
  (try dsimp only)
  (repeat' split) <;> (have hk1 := @State.dropPartner_keeps; have hk2 := @State.removeVbus_keeps; simp [hk1, hk2, State.KeepsOuter, State.KeepsInner, State.KeepsCore])

theorem State.applyVbus_keeps (s : State) (k : PdPort) :
    s.KeepsInner (State.applyVbus s k) ∧ s.KeepsCore (State.applyVbus s k) ∧ (State.applyVbus s k).mem = s.mem ∧
    (State.applyVbus s k).heads = s.heads ∧ (State.applyVbus s k).line = s.line ∧ (State.applyVbus s k).ports = s.ports ∧
    (State.applyVbus s k).cav = s.cav ∧ (State.applyVbus s k).geode = s.geode ∧ (State.applyVbus s k).mon = s.mon ∧
    (State.applyVbus s k).carStatus = s.carStatus ∧ (State.applyVbus s k).ticks = s.ticks ∧ (State.applyVbus s k).sent = s.sent ∧
    (State.applyVbus s k).pending = s.pending := by
  unfold State.applyVbus
  (try dsimp only)
  (repeat' split) <;> (have hk1 := @State.measureVbus_keeps; simp [hk1, State.KeepsOuter, State.KeepsInner, State.KeepsCore])

theorem State.heard_keeps (s : State) (k : PdPort) :
    s.KeepsInner (State.heard s k) ∧ s.KeepsCore (State.heard s k) ∧ (State.heard s k).regs = s.regs ∧ (State.heard s k).mem = s.mem ∧
    (State.heard s k).heads = s.heads ∧ (State.heard s k).ports = s.ports ∧ (State.heard s k).cav = s.cav ∧
    (State.heard s k).geode = s.geode ∧ (State.heard s k).mon = s.mon ∧ (State.heard s k).carStatus = s.carStatus ∧
    (State.heard s k).ticks = s.ticks ∧ (State.heard s k).freeCtr = s.freeCtr ∧ (State.heard s k).pending = s.pending := by
  unfold State.heard
  (try dsimp only)
  (repeat' split) <;> simp [State.KeepsOuter, State.KeepsInner, State.KeepsCore]

theorem State.sendPd_keeps (s : State) (k : PdPort) (o : Output) :
    s.KeepsInner (State.sendPd s k o) ∧ s.KeepsCore (State.sendPd s k o) ∧ (State.sendPd s k o).regs = s.regs ∧
    (State.sendPd s k o).mem = s.mem ∧ (State.sendPd s k o).heads = s.heads ∧ (State.sendPd s k o).ports = s.ports ∧
    (State.sendPd s k o).cav = s.cav ∧ (State.sendPd s k o).geode = s.geode ∧ (State.sendPd s k o).mon = s.mon ∧
    (State.sendPd s k o).carStatus = s.carStatus ∧ (State.sendPd s k o).ticks = s.ticks ∧ (State.sendPd s k o).freeCtr = s.freeCtr ∧
    (State.sendPd s k o).pending = s.pending := by
  unfold State.sendPd
  (try dsimp only)
  (repeat' split) <;> simp [State.KeepsOuter, State.KeepsInner, State.KeepsCore]

theorem State.restartIds_keeps (s : State) (k : PdPort) :
    s.KeepsInner (State.restartIds s k) ∧ s.KeepsCore (State.restartIds s k) ∧ (State.restartIds s k).regs = s.regs ∧
    (State.restartIds s k).mem = s.mem ∧ (State.restartIds s k).heads = s.heads ∧ (State.restartIds s k).line = s.line ∧
    (State.restartIds s k).ports = s.ports ∧ (State.restartIds s k).cav = s.cav ∧ (State.restartIds s k).geode = s.geode ∧
    (State.restartIds s k).mon = s.mon ∧ (State.restartIds s k).carStatus = s.carStatus ∧ (State.restartIds s k).ticks = s.ticks ∧
    (State.restartIds s k).freeCtr = s.freeCtr ∧ (State.restartIds s k).sent = s.sent ∧ (State.restartIds s k).pending = s.pending := by
  unfold State.restartIds
  (try dsimp only)
  (repeat' split) <;> simp [State.KeepsOuter, State.KeepsInner, State.KeepsCore]

theorem State.notSupported_keeps (s : State) (k : PdPort) :
    s.KeepsInner (State.notSupported s k) ∧ s.KeepsCore (State.notSupported s k) ∧ (State.notSupported s k).mem = s.mem ∧
    (State.notSupported s k).heads = s.heads ∧ (State.notSupported s k).ports = s.ports ∧ (State.notSupported s k).cav = s.cav ∧
    (State.notSupported s k).geode = s.geode ∧ (State.notSupported s k).mon = s.mon ∧ (State.notSupported s k).carStatus = s.carStatus ∧
    (State.notSupported s k).ticks = s.ticks ∧ (State.notSupported s k).freeCtr = s.freeCtr ∧ (State.notSupported s k).pending = s.pending := by
  unfold State.notSupported
  (try dsimp only)
  (repeat' split) <;> (have hk1 := @State.sendPd_keeps; simp [hk1, State.KeepsOuter, State.KeepsInner, State.KeepsCore])

theorem State.sendCaps_keeps (s : State) (k : PdPort) (pdos : List FixedPdo) :
    s.KeepsInner (State.sendCaps s k pdos) ∧ s.KeepsCore (State.sendCaps s k pdos) ∧ (State.sendCaps s k pdos).regs = s.regs ∧
    (State.sendCaps s k pdos).mem = s.mem ∧ (State.sendCaps s k pdos).heads = s.heads ∧ (State.sendCaps s k pdos).ports = s.ports ∧
    (State.sendCaps s k pdos).cav = s.cav ∧ (State.sendCaps s k pdos).geode = s.geode ∧ (State.sendCaps s k pdos).mon = s.mon ∧
    (State.sendCaps s k pdos).carStatus = s.carStatus ∧ (State.sendCaps s k pdos).ticks = s.ticks ∧
    (State.sendCaps s k pdos).freeCtr = s.freeCtr ∧ (State.sendCaps s k pdos).pending = s.pending := by
  unfold State.sendCaps
  (try dsimp only)
  (repeat' split) <;> (have hk1 := @State.sendPd_keeps; simp [hk1, State.KeepsOuter, State.KeepsInner, State.KeepsCore])

theorem State.notePdo_keeps (s : State) (k : PdPort) :
    s.KeepsInner (State.notePdo s k) ∧ s.KeepsCore (State.notePdo s k) ∧ (State.notePdo s k).regs = s.regs ∧
    (State.notePdo s k).mem = s.mem ∧ (State.notePdo s k).heads = s.heads ∧ (State.notePdo s k).line = s.line ∧
    (State.notePdo s k).ports = s.ports ∧ (State.notePdo s k).cav = s.cav ∧ (State.notePdo s k).geode = s.geode ∧
    (State.notePdo s k).mon = s.mon ∧ (State.notePdo s k).carStatus = s.carStatus ∧ (State.notePdo s k).ticks = s.ticks ∧
    (State.notePdo s k).freeCtr = s.freeCtr ∧ (State.notePdo s k).sent = s.sent ∧ (State.notePdo s k).pending = s.pending := by
  unfold State.notePdo
  (try dsimp only)
  (repeat' split) <;> simp [State.KeepsOuter, State.KeepsInner, State.KeepsCore]

theorem State.sendDueCaps_keeps (s : State) :
    s.KeepsInner (State.sendDueCaps s) ∧ s.KeepsCore (State.sendDueCaps s) ∧ (State.sendDueCaps s).regs = s.regs ∧
    (State.sendDueCaps s).mem = s.mem ∧ (State.sendDueCaps s).heads = s.heads ∧ (State.sendDueCaps s).ports = s.ports ∧
    (State.sendDueCaps s).cav = s.cav ∧ (State.sendDueCaps s).geode = s.geode ∧ (State.sendDueCaps s).mon = s.mon ∧
    (State.sendDueCaps s).carStatus = s.carStatus ∧ (State.sendDueCaps s).ticks = s.ticks ∧ (State.sendDueCaps s).freeCtr = s.freeCtr ∧
    (State.sendDueCaps s).pending = s.pending := by
  (have hk1 := @State.sendCaps_keeps; have hi := @State.ite_fields; simp [hk1, State.sendDueCaps, hi, State.KeepsOuter, State.KeepsInner, State.KeepsCore])

theorem State.hardReset_keeps (s : State) (k : PdPort) :
    s.KeepsInner (State.hardReset s k) ∧ s.KeepsCore (State.hardReset s k) ∧ (State.hardReset s k).mem = s.mem ∧
    (State.hardReset s k).heads = s.heads ∧ (State.hardReset s k).line = s.line ∧ (State.hardReset s k).ports = s.ports ∧
    (State.hardReset s k).cav = s.cav ∧ (State.hardReset s k).geode = s.geode ∧ (State.hardReset s k).mon = s.mon ∧
    (State.hardReset s k).carStatus = s.carStatus ∧ (State.hardReset s k).ticks = s.ticks ∧ (State.hardReset s k).freeCtr = s.freeCtr ∧
    (State.hardReset s k).sent = s.sent ∧ (State.hardReset s k).pending = s.pending := by
  unfold State.hardReset
  (try dsimp only)
  (repeat' split) <;> (have hk1 := @State.endContract_keeps; have hk2 := @State.removeVbus_keeps; have hk3 := @State.restartIds_keeps; simp [hk1, hk2, hk3, State.KeepsOuter, State.KeepsInner, State.KeepsCore])

@[simp] theorem State.whenUsb_regs (s : State) {f : State → State} (h : ∀ t, (f t).regs = t.regs) :
    (State.whenUsb s f).regs = s.regs := by
  unfold State.whenUsb; (try dsimp only); (repeat' split) <;> (have hi := @State.ite_fields; simp [h, hi])

@[simp] theorem State.whenUsb_mem (s : State) {f : State → State} (h : ∀ t, (f t).mem = t.mem) :
    (State.whenUsb s f).mem = s.mem := by
  unfold State.whenUsb; (try dsimp only); (repeat' split) <;> (have hi := @State.ite_fields; simp [h, hi])

@[simp] theorem State.whenUsb_heads (s : State) {f : State → State} (h : ∀ t, (f t).heads = t.heads) :
    (State.whenUsb s f).heads = s.heads := by
  unfold State.whenUsb; (try dsimp only); (repeat' split) <;> (have hi := @State.ite_fields; simp [h, hi])

@[simp] theorem State.whenUsb_beat (s : State) {f : State → State} (h : ∀ t, (f t).beat = t.beat) :
    (State.whenUsb s f).beat = s.beat := by
  unfold State.whenUsb; (try dsimp only); (repeat' split) <;> (have hi := @State.ite_fields; simp [h, hi])

@[simp] theorem State.whenUsb_lanes (s : State) {f : State → State} (h : ∀ t, (f t).lanes = t.lanes) :
    (State.whenUsb s f).lanes = s.lanes := by
  unfold State.whenUsb; (try dsimp only); (repeat' split) <;> (have hi := @State.ite_fields; simp [h, hi])

@[simp] theorem State.whenUsb_line (s : State) {f : State → State} (h : ∀ t, (f t).line = t.line) :
    (State.whenUsb s f).line = s.line := by
  unfold State.whenUsb; (try dsimp only); (repeat' split) <;> (have hi := @State.ite_fields; simp [h, hi])

@[simp] theorem State.whenUsb_ports (s : State) {f : State → State} (h : ∀ t, (f t).ports = t.ports) :
    (State.whenUsb s f).ports = s.ports := by
  unfold State.whenUsb; (try dsimp only); (repeat' split) <;> (have hi := @State.ite_fields; simp [h, hi])

@[simp] theorem State.whenUsb_echo (s : State) {f : State → State} (h : ∀ t, (f t).echo = t.echo) :
    (State.whenUsb s f).echo = s.echo := by
  unfold State.whenUsb; (try dsimp only); (repeat' split) <;> (have hi := @State.ite_fields; simp [h, hi])

@[simp] theorem State.whenUsb_tun (s : State) {f : State → State} (h : ∀ t, (f t).tun = t.tun) :
    (State.whenUsb s f).tun = s.tun := by
  unfold State.whenUsb; (try dsimp only); (repeat' split) <;> (have hi := @State.ite_fields; simp [h, hi])

@[simp] theorem State.whenUsb_cav (s : State) {f : State → State} (h : ∀ t, (f t).cav = t.cav) :
    (State.whenUsb s f).cav = s.cav := by
  unfold State.whenUsb; (try dsimp only); (repeat' split) <;> (have hi := @State.ite_fields; simp [h, hi])

@[simp] theorem State.whenUsb_sched (s : State) {f : State → State} (h : ∀ t, (f t).sched = t.sched) :
    (State.whenUsb s f).sched = s.sched := by
  unfold State.whenUsb; (try dsimp only); (repeat' split) <;> (have hi := @State.ite_fields; simp [h, hi])

@[simp] theorem State.whenUsb_twin (s : State) {f : State → State} (h : ∀ t, (f t).twin = t.twin) :
    (State.whenUsb s f).twin = s.twin := by
  unfold State.whenUsb; (try dsimp only); (repeat' split) <;> (have hi := @State.ite_fields; simp [h, hi])

@[simp] theorem State.whenUsb_eng (s : State) {f : State → State} (h : ∀ t, (f t).eng = t.eng) :
    (State.whenUsb s f).eng = s.eng := by
  unfold State.whenUsb; (try dsimp only); (repeat' split) <;> (have hi := @State.ite_fields; simp [h, hi])

@[simp] theorem State.whenUsb_acc (s : State) {f : State → State} (h : ∀ t, (f t).acc = t.acc) :
    (State.whenUsb s f).acc = s.acc := by
  unfold State.whenUsb; (try dsimp only); (repeat' split) <;> (have hi := @State.ite_fields; simp [h, hi])

@[simp] theorem State.whenUsb_geode (s : State) {f : State → State} (h : ∀ t, (f t).geode = t.geode) :
    (State.whenUsb s f).geode = s.geode := by
  unfold State.whenUsb; (try dsimp only); (repeat' split) <;> (have hi := @State.ite_fields; simp [h, hi])

@[simp] theorem State.whenUsb_boot (s : State) {f : State → State} (h : ∀ t, (f t).boot = t.boot) :
    (State.whenUsb s f).boot = s.boot := by
  unfold State.whenUsb; (try dsimp only); (repeat' split) <;> (have hi := @State.ite_fields; simp [h, hi])

@[simp] theorem State.whenUsb_pwr (s : State) {f : State → State} (h : ∀ t, (f t).pwr = t.pwr) :
    (State.whenUsb s f).pwr = s.pwr := by
  unfold State.whenUsb; (try dsimp only); (repeat' split) <;> (have hi := @State.ite_fields; simp [h, hi])

@[simp] theorem State.whenUsb_usb (s : State) {f : State → State} (h : ∀ t, (f t).usb = t.usb) :
    (State.whenUsb s f).usb = s.usb := by
  unfold State.whenUsb; (try dsimp only); (repeat' split) <;> (have hi := @State.ite_fields; simp [h, hi])

@[simp] theorem State.whenUsb_pd (s : State) {f : State → State} (h : ∀ t, (f t).pd = t.pd) :
    (State.whenUsb s f).pd = s.pd := by
  unfold State.whenUsb; (try dsimp only); (repeat' split) <;> (have hi := @State.ite_fields; simp [h, hi])

@[simp] theorem State.whenUsb_mon (s : State) {f : State → State} (h : ∀ t, (f t).mon = t.mon) :
    (State.whenUsb s f).mon = s.mon := by
  unfold State.whenUsb; (try dsimp only); (repeat' split) <;> (have hi := @State.ite_fields; simp [h, hi])

@[simp] theorem State.whenUsb_log (s : State) {f : State → State} (h : ∀ t, (f t).log = t.log) :
    (State.whenUsb s f).log = s.log := by
  unfold State.whenUsb; (try dsimp only); (repeat' split) <;> (have hi := @State.ite_fields; simp [h, hi])

@[simp] theorem State.whenUsb_faultN (s : State) {f : State → State} (h : ∀ t, (f t).faultN = t.faultN) :
    (State.whenUsb s f).faultN = s.faultN := by
  unfold State.whenUsb; (try dsimp only); (repeat' split) <;> (have hi := @State.ite_fields; simp [h, hi])

@[simp] theorem State.whenUsb_carStatus (s : State) {f : State → State} (h : ∀ t, (f t).carStatus = t.carStatus) :
    (State.whenUsb s f).carStatus = s.carStatus := by
  unfold State.whenUsb; (try dsimp only); (repeat' split) <;> (have hi := @State.ite_fields; simp [h, hi])

@[simp] theorem State.whenUsb_ticks (s : State) {f : State → State} (h : ∀ t, (f t).ticks = t.ticks) :
    (State.whenUsb s f).ticks = s.ticks := by
  unfold State.whenUsb; (try dsimp only); (repeat' split) <;> (have hi := @State.ite_fields; simp [h, hi])

@[simp] theorem State.whenUsb_freeCtr (s : State) {f : State → State} (h : ∀ t, (f t).freeCtr = t.freeCtr) :
    (State.whenUsb s f).freeCtr = s.freeCtr := by
  unfold State.whenUsb; (try dsimp only); (repeat' split) <;> (have hi := @State.ite_fields; simp [h, hi])

@[simp] theorem State.whenUsb_sent (s : State) {f : State → State} (h : ∀ t, (f t).sent = t.sent) :
    (State.whenUsb s f).sent = s.sent := by
  unfold State.whenUsb; (try dsimp only); (repeat' split) <;> (have hi := @State.ite_fields; simp [h, hi])

@[simp] theorem State.whenUsb_pending (s : State) {f : State → State} (h : ∀ t, (f t).pending = t.pending) :
    (State.whenUsb s f).pending = s.pending := by
  unfold State.whenUsb; (try dsimp only); (repeat' split) <;> (have hi := @State.ite_fields; simp [h, hi])

theorem State.attachWake_keeps (s : State) (settled : Bool) :
    s.KeepsOuter (State.attachWake s settled) ∧ s.KeepsInner (State.attachWake s settled) ∧ (State.attachWake s settled).mem = s.mem ∧
    (State.attachWake s settled).beat = s.beat ∧ (State.attachWake s settled).lanes = s.lanes ∧
    (State.attachWake s settled).ports = s.ports ∧ (State.attachWake s settled).tun = s.tun ∧ (State.attachWake s settled).cav = s.cav ∧
    (State.attachWake s settled).sched = s.sched ∧ (State.attachWake s settled).eng = s.eng ∧
    (State.attachWake s settled).geode = s.geode ∧ (State.attachWake s settled).freeCtr = s.freeCtr := by
  unfold State.attachWake
  (try dsimp only)
  (repeat' split) <;> (have hk1 := @State.wakeBy_keeps; simp [hk1, State.KeepsOuter, State.KeepsInner, State.KeepsCore])

theorem State.connectService_keeps (s : State) (cur : Nat) :
    s.KeepsOuter (State.connectService s cur) ∧ s.KeepsCore (State.connectService s cur) ∧ (State.connectService s cur).mem = s.mem ∧
    (State.connectService s cur).line = s.line ∧ (State.connectService s cur).ports = s.ports ∧
    (State.connectService s cur).echo = s.echo ∧ (State.connectService s cur).cav = s.cav ∧ (State.connectService s cur).twin = s.twin ∧
    (State.connectService s cur).acc = s.acc ∧ (State.connectService s cur).geode = s.geode ∧ (State.connectService s cur).log = s.log ∧
    (State.connectService s cur).faultN = s.faultN ∧ (State.connectService s cur).freeCtr = s.freeCtr ∧
    (State.connectService s cur).sent = s.sent := by
  unfold State.connectService
  (try dsimp only)
  (repeat' split) <;> (have hk1 := @State.connectUp_keeps; simp [hk1, State.KeepsOuter, State.KeepsInner, State.KeepsCore])

theorem State.overCurrent_keeps (s : State) (n : DnPort) :
    s.KeepsCore (State.overCurrent s n) ∧ (State.overCurrent s n).mem = s.mem ∧ (State.overCurrent s n).heads = s.heads ∧
    (State.overCurrent s n).ports = s.ports ∧ (State.overCurrent s n).echo = s.echo ∧ (State.overCurrent s n).cav = s.cav ∧
    (State.overCurrent s n).twin = s.twin ∧ (State.overCurrent s n).acc = s.acc ∧ (State.overCurrent s n).geode = s.geode ∧
    (State.overCurrent s n).mon = s.mon ∧ (State.overCurrent s n).log = s.log ∧ (State.overCurrent s n).faultN = s.faultN ∧
    (State.overCurrent s n).carStatus = s.carStatus ∧ (State.overCurrent s n).ticks = s.ticks ∧
    (State.overCurrent s n).freeCtr = s.freeCtr ∧ (State.overCurrent s n).pending = s.pending := by
  unfold State.overCurrent
  (try dsimp only)
  (repeat' split) <;> (have hk1 := @State.dropPartner_keeps; have hk2 := @State.removeVbus_keeps; simp [hk1, hk2, State.KeepsOuter, State.KeepsInner, State.KeepsCore])

theorem State.powerPort_keeps (s : State) (n : DnPort) :
    s.KeepsCore (State.powerPort s n) ∧ (State.powerPort s n).mem = s.mem ∧ (State.powerPort s n).heads = s.heads ∧
    (State.powerPort s n).ports = s.ports ∧ (State.powerPort s n).echo = s.echo ∧ (State.powerPort s n).cav = s.cav ∧
    (State.powerPort s n).twin = s.twin ∧ (State.powerPort s n).acc = s.acc ∧ (State.powerPort s n).geode = s.geode ∧
    (State.powerPort s n).mon = s.mon ∧ (State.powerPort s n).log = s.log ∧ (State.powerPort s n).faultN = s.faultN ∧
    (State.powerPort s n).carStatus = s.carStatus ∧ (State.powerPort s n).ticks = s.ticks ∧ (State.powerPort s n).freeCtr = s.freeCtr ∧
    (State.powerPort s n).pending = s.pending := by
  unfold State.powerPort
  (try dsimp only)
  (repeat' split) <;> simp [State.KeepsOuter, State.KeepsInner, State.KeepsCore]

@[simp] theorem State.whenMf_mem (s : State) {f : State → State} (h : ∀ t, (f t).mem = t.mem) :
    (State.whenMf s f).mem = s.mem := by
  unfold State.whenMf; (try dsimp only); (repeat' split) <;> (have hk1 := @State.wakeBy_keeps; have hi := @State.ite_fields; simp [hk1, h, hi])

@[simp] theorem State.whenMf_heads (s : State) {f : State → State} (h : ∀ t, (f t).heads = t.heads) :
    (State.whenMf s f).heads = s.heads := by
  unfold State.whenMf; (try dsimp only); (repeat' split) <;> (have hk1 := @State.wakeBy_keeps; have hi := @State.ite_fields; simp [hk1, h, hi])

@[simp] theorem State.whenMf_beat (s : State) {f : State → State} (h : ∀ t, (f t).beat = t.beat) :
    (State.whenMf s f).beat = s.beat := by
  unfold State.whenMf; (try dsimp only); (repeat' split) <;> (have hk1 := @State.wakeBy_keeps; have hi := @State.ite_fields; simp [hk1, h, hi])

@[simp] theorem State.whenMf_lanes (s : State) {f : State → State} (h : ∀ t, (f t).lanes = t.lanes) :
    (State.whenMf s f).lanes = s.lanes := by
  unfold State.whenMf; (try dsimp only); (repeat' split) <;> (have hk1 := @State.wakeBy_keeps; have hi := @State.ite_fields; simp [hk1, h, hi])

@[simp] theorem State.whenMf_ports (s : State) {f : State → State} (h : ∀ t, (f t).ports = t.ports) :
    (State.whenMf s f).ports = s.ports := by
  unfold State.whenMf; (try dsimp only); (repeat' split) <;> (have hk1 := @State.wakeBy_keeps; have hi := @State.ite_fields; simp [hk1, h, hi])

@[simp] theorem State.whenMf_echo (s : State) {f : State → State} (h : ∀ t, (f t).echo = t.echo) :
    (State.whenMf s f).echo = s.echo := by
  unfold State.whenMf; (try dsimp only); (repeat' split) <;> (have hk1 := @State.wakeBy_keeps; have hi := @State.ite_fields; simp [hk1, h, hi])

@[simp] theorem State.whenMf_tun (s : State) {f : State → State} (h : ∀ t, (f t).tun = t.tun) :
    (State.whenMf s f).tun = s.tun := by
  unfold State.whenMf; (try dsimp only); (repeat' split) <;> (have hk1 := @State.wakeBy_keeps; have hi := @State.ite_fields; simp [hk1, h, hi])

@[simp] theorem State.whenMf_cav (s : State) {f : State → State} (h : ∀ t, (f t).cav = t.cav) :
    (State.whenMf s f).cav = s.cav := by
  unfold State.whenMf; (try dsimp only); (repeat' split) <;> (have hk1 := @State.wakeBy_keeps; have hi := @State.ite_fields; simp [hk1, h, hi])

@[simp] theorem State.whenMf_sched (s : State) {f : State → State} (h : ∀ t, (f t).sched = t.sched) :
    (State.whenMf s f).sched = s.sched := by
  unfold State.whenMf; (try dsimp only); (repeat' split) <;> (have hk1 := @State.wakeBy_keeps; have hi := @State.ite_fields; simp [hk1, h, hi])

@[simp] theorem State.whenMf_twin (s : State) {f : State → State} (h : ∀ t, (f t).twin = t.twin) :
    (State.whenMf s f).twin = s.twin := by
  unfold State.whenMf; (try dsimp only); (repeat' split) <;> (have hk1 := @State.wakeBy_keeps; have hi := @State.ite_fields; simp [hk1, h, hi])

@[simp] theorem State.whenMf_eng (s : State) {f : State → State} (h : ∀ t, (f t).eng = t.eng) :
    (State.whenMf s f).eng = s.eng := by
  unfold State.whenMf; (try dsimp only); (repeat' split) <;> (have hk1 := @State.wakeBy_keeps; have hi := @State.ite_fields; simp [hk1, h, hi])

@[simp] theorem State.whenMf_acc (s : State) {f : State → State} (h : ∀ t, (f t).acc = t.acc) :
    (State.whenMf s f).acc = s.acc := by
  unfold State.whenMf; (try dsimp only); (repeat' split) <;> (have hk1 := @State.wakeBy_keeps; have hi := @State.ite_fields; simp [hk1, h, hi])

@[simp] theorem State.whenMf_geode (s : State) {f : State → State} (h : ∀ t, (f t).geode = t.geode) :
    (State.whenMf s f).geode = s.geode := by
  unfold State.whenMf; (try dsimp only); (repeat' split) <;> (have hk1 := @State.wakeBy_keeps; have hi := @State.ite_fields; simp [hk1, h, hi])

@[simp] theorem State.whenMf_usb (s : State) {f : State → State} (h : ∀ t, (f t).usb = t.usb) :
    (State.whenMf s f).usb = s.usb := by
  unfold State.whenMf; (try dsimp only); (repeat' split) <;> (have hk1 := @State.wakeBy_keeps; have hi := @State.ite_fields; simp [hk1, h, hi])

@[simp] theorem State.whenMf_pd (s : State) {f : State → State} (h : ∀ t, (f t).pd = t.pd) :
    (State.whenMf s f).pd = s.pd := by
  unfold State.whenMf; (try dsimp only); (repeat' split) <;> (have hk1 := @State.wakeBy_keeps; have hi := @State.ite_fields; simp [hk1, h, hi])

@[simp] theorem State.whenMf_mon (s : State) {f : State → State} (h : ∀ t, (f t).mon = t.mon) :
    (State.whenMf s f).mon = s.mon := by
  unfold State.whenMf; (try dsimp only); (repeat' split) <;> (have hk1 := @State.wakeBy_keeps; have hi := @State.ite_fields; simp [hk1, h, hi])

@[simp] theorem State.whenMf_log (s : State) {f : State → State} (h : ∀ t, (f t).log = t.log) :
    (State.whenMf s f).log = s.log := by
  unfold State.whenMf; (try dsimp only); (repeat' split) <;> (have hk1 := @State.wakeBy_keeps; have hi := @State.ite_fields; simp [hk1, h, hi])

@[simp] theorem State.whenMf_faultN (s : State) {f : State → State} (h : ∀ t, (f t).faultN = t.faultN) :
    (State.whenMf s f).faultN = s.faultN := by
  unfold State.whenMf; (try dsimp only); (repeat' split) <;> (have hk1 := @State.wakeBy_keeps; have hi := @State.ite_fields; simp [hk1, h, hi])

@[simp] theorem State.whenMf_carStatus (s : State) {f : State → State} (h : ∀ t, (f t).carStatus = t.carStatus) :
    (State.whenMf s f).carStatus = s.carStatus := by
  unfold State.whenMf; (try dsimp only); (repeat' split) <;> (have hk1 := @State.wakeBy_keeps; have hi := @State.ite_fields; simp [hk1, h, hi])

@[simp] theorem State.whenMf_ticks (s : State) {f : State → State} (h : ∀ t, (f t).ticks = t.ticks) :
    (State.whenMf s f).ticks = s.ticks := by
  unfold State.whenMf; (try dsimp only); (repeat' split) <;> (have hk1 := @State.wakeBy_keeps; have hi := @State.ite_fields; simp [hk1, h, hi])

@[simp] theorem State.whenMf_freeCtr (s : State) {f : State → State} (h : ∀ t, (f t).freeCtr = t.freeCtr) :
    (State.whenMf s f).freeCtr = s.freeCtr := by
  unfold State.whenMf; (try dsimp only); (repeat' split) <;> (have hk1 := @State.wakeBy_keeps; have hi := @State.ite_fields; simp [hk1, h, hi])

@[simp] theorem State.whenMf_pending (s : State) {f : State → State} (h : ∀ t, (f t).pending = t.pending) :
    (State.whenMf s f).pending = s.pending := by
  unfold State.whenMf; (try dsimp only); (repeat' split) <;> (have hk1 := @State.wakeBy_keeps; have hi := @State.ite_fields; simp [hk1, h, hi])

theorem State.ackPacket_keeps (s : State) :
    s.KeepsOuter (State.ackPacket s) ∧ s.KeepsCore (State.ackPacket s) ∧ (State.ackPacket s).mem = s.mem ∧
    (State.ackPacket s).ports = s.ports ∧ (State.ackPacket s).echo = s.echo ∧ (State.ackPacket s).cav = s.cav ∧
    (State.ackPacket s).twin = s.twin ∧ (State.ackPacket s).acc = s.acc ∧ (State.ackPacket s).geode = s.geode ∧
    (State.ackPacket s).log = s.log ∧ (State.ackPacket s).faultN = s.faultN ∧ (State.ackPacket s).freeCtr = s.freeCtr := by
  unfold State.ackPacket
  (try dsimp only)
  (repeat' split) <;> simp [State.KeepsOuter, State.KeepsInner, State.KeepsCore]

theorem State.refusePacket_keeps (s : State) :
    s.KeepsOuter (State.refusePacket s) ∧ s.KeepsCore (State.refusePacket s) ∧ (State.refusePacket s).regs = s.regs ∧
    (State.refusePacket s).mem = s.mem ∧ (State.refusePacket s).ports = s.ports ∧ (State.refusePacket s).echo = s.echo ∧
    (State.refusePacket s).cav = s.cav ∧ (State.refusePacket s).twin = s.twin ∧ (State.refusePacket s).acc = s.acc ∧
    (State.refusePacket s).geode = s.geode ∧ (State.refusePacket s).log = s.log ∧ (State.refusePacket s).faultN = s.faultN ∧
    (State.refusePacket s).freeCtr = s.freeCtr := by
  unfold State.refusePacket
  (try dsimp only)
  (repeat' split) <;> simp [State.KeepsOuter, State.KeepsInner, State.KeepsCore]

theorem State.sendErdy_keeps (s : State) :
    s.KeepsOuter (State.sendErdy s) ∧ s.KeepsCore (State.sendErdy s) ∧ (State.sendErdy s).regs = s.regs ∧ (State.sendErdy s).mem = s.mem ∧
    (State.sendErdy s).ports = s.ports ∧ (State.sendErdy s).echo = s.echo ∧ (State.sendErdy s).cav = s.cav ∧
    (State.sendErdy s).twin = s.twin ∧ (State.sendErdy s).acc = s.acc ∧ (State.sendErdy s).geode = s.geode ∧
    (State.sendErdy s).log = s.log ∧ (State.sendErdy s).faultN = s.faultN ∧ (State.sendErdy s).freeCtr = s.freeCtr := by
  unfold State.sendErdy
  (try dsimp only)
  (repeat' split) <;> simp [State.KeepsOuter, State.KeepsInner, State.KeepsCore]

@[simp] theorem State.portRequest_regs (s : State) (n : DnPort) {f : State → BitVec 4 → State} (h : ∀ t a1, (f t a1).regs = t.regs) :
    (State.portRequest s n f).regs = s.regs := by
  unfold State.portRequest; (try dsimp only); (repeat' split) <;> (have hi := @State.ite_fields; simp [h, hi])

@[simp] theorem State.portRequest_mem (s : State) (n : DnPort) {f : State → BitVec 4 → State} (h : ∀ t a1, (f t a1).mem = t.mem) :
    (State.portRequest s n f).mem = s.mem := by
  unfold State.portRequest; (try dsimp only); (repeat' split) <;> (have hi := @State.ite_fields; simp [h, hi])

@[simp] theorem State.portRequest_heads (s : State) (n : DnPort) {f : State → BitVec 4 → State} (h : ∀ t a1, (f t a1).heads = t.heads) :
    (State.portRequest s n f).heads = s.heads := by
  unfold State.portRequest; (try dsimp only); (repeat' split) <;> (have hi := @State.ite_fields; simp [h, hi])

@[simp] theorem State.portRequest_beat (s : State) (n : DnPort) {f : State → BitVec 4 → State} (h : ∀ t a1, (f t a1).beat = t.beat) :
    (State.portRequest s n f).beat = s.beat := by
  unfold State.portRequest; (try dsimp only); (repeat' split) <;> (have hi := @State.ite_fields; simp [h, hi])

@[simp] theorem State.portRequest_lanes (s : State) (n : DnPort) {f : State → BitVec 4 → State} (h : ∀ t a1, (f t a1).lanes = t.lanes) :
    (State.portRequest s n f).lanes = s.lanes := by
  unfold State.portRequest; (try dsimp only); (repeat' split) <;> (have hi := @State.ite_fields; simp [h, hi])

@[simp] theorem State.portRequest_ports (s : State) (n : DnPort) {f : State → BitVec 4 → State} (h : ∀ t a1, (f t a1).ports = t.ports) :
    (State.portRequest s n f).ports = s.ports := by
  unfold State.portRequest; (try dsimp only); (repeat' split) <;> (have hi := @State.ite_fields; simp [h, hi])

@[simp] theorem State.portRequest_echo (s : State) (n : DnPort) {f : State → BitVec 4 → State} (h : ∀ t a1, (f t a1).echo = t.echo) :
    (State.portRequest s n f).echo = s.echo := by
  unfold State.portRequest; (try dsimp only); (repeat' split) <;> (have hi := @State.ite_fields; simp [h, hi])

@[simp] theorem State.portRequest_tun (s : State) (n : DnPort) {f : State → BitVec 4 → State} (h : ∀ t a1, (f t a1).tun = t.tun) :
    (State.portRequest s n f).tun = s.tun := by
  unfold State.portRequest; (try dsimp only); (repeat' split) <;> (have hi := @State.ite_fields; simp [h, hi])

@[simp] theorem State.portRequest_cav (s : State) (n : DnPort) {f : State → BitVec 4 → State} (h : ∀ t a1, (f t a1).cav = t.cav) :
    (State.portRequest s n f).cav = s.cav := by
  unfold State.portRequest; (try dsimp only); (repeat' split) <;> (have hi := @State.ite_fields; simp [h, hi])

@[simp] theorem State.portRequest_sched (s : State) (n : DnPort) {f : State → BitVec 4 → State} (h : ∀ t a1, (f t a1).sched = t.sched) :
    (State.portRequest s n f).sched = s.sched := by
  unfold State.portRequest; (try dsimp only); (repeat' split) <;> (have hi := @State.ite_fields; simp [h, hi])

@[simp] theorem State.portRequest_twin (s : State) (n : DnPort) {f : State → BitVec 4 → State} (h : ∀ t a1, (f t a1).twin = t.twin) :
    (State.portRequest s n f).twin = s.twin := by
  unfold State.portRequest; (try dsimp only); (repeat' split) <;> (have hi := @State.ite_fields; simp [h, hi])

@[simp] theorem State.portRequest_eng (s : State) (n : DnPort) {f : State → BitVec 4 → State} (h : ∀ t a1, (f t a1).eng = t.eng) :
    (State.portRequest s n f).eng = s.eng := by
  unfold State.portRequest; (try dsimp only); (repeat' split) <;> (have hi := @State.ite_fields; simp [h, hi])

@[simp] theorem State.portRequest_acc (s : State) (n : DnPort) {f : State → BitVec 4 → State} (h : ∀ t a1, (f t a1).acc = t.acc) :
    (State.portRequest s n f).acc = s.acc := by
  unfold State.portRequest; (try dsimp only); (repeat' split) <;> (have hi := @State.ite_fields; simp [h, hi])

@[simp] theorem State.portRequest_geode (s : State) (n : DnPort) {f : State → BitVec 4 → State} (h : ∀ t a1, (f t a1).geode = t.geode) :
    (State.portRequest s n f).geode = s.geode := by
  unfold State.portRequest; (try dsimp only); (repeat' split) <;> (have hi := @State.ite_fields; simp [h, hi])

@[simp] theorem State.portRequest_boot (s : State) (n : DnPort) {f : State → BitVec 4 → State} (h : ∀ t a1, (f t a1).boot = t.boot) :
    (State.portRequest s n f).boot = s.boot := by
  unfold State.portRequest; (try dsimp only); (repeat' split) <;> (have hi := @State.ite_fields; simp [h, hi])

@[simp] theorem State.portRequest_pwr (s : State) (n : DnPort) {f : State → BitVec 4 → State} (h : ∀ t a1, (f t a1).pwr = t.pwr) :
    (State.portRequest s n f).pwr = s.pwr := by
  unfold State.portRequest; (try dsimp only); (repeat' split) <;> (have hi := @State.ite_fields; simp [h, hi])

@[simp] theorem State.portRequest_usb (s : State) (n : DnPort) {f : State → BitVec 4 → State} (h : ∀ t a1, (f t a1).usb = t.usb) :
    (State.portRequest s n f).usb = s.usb := by
  unfold State.portRequest; (try dsimp only); (repeat' split) <;> (have hi := @State.ite_fields; simp [h, hi])

@[simp] theorem State.portRequest_pd (s : State) (n : DnPort) {f : State → BitVec 4 → State} (h : ∀ t a1, (f t a1).pd = t.pd) :
    (State.portRequest s n f).pd = s.pd := by
  unfold State.portRequest; (try dsimp only); (repeat' split) <;> (have hi := @State.ite_fields; simp [h, hi])

@[simp] theorem State.portRequest_mon (s : State) (n : DnPort) {f : State → BitVec 4 → State} (h : ∀ t a1, (f t a1).mon = t.mon) :
    (State.portRequest s n f).mon = s.mon := by
  unfold State.portRequest; (try dsimp only); (repeat' split) <;> (have hi := @State.ite_fields; simp [h, hi])

@[simp] theorem State.portRequest_log (s : State) (n : DnPort) {f : State → BitVec 4 → State} (h : ∀ t a1, (f t a1).log = t.log) :
    (State.portRequest s n f).log = s.log := by
  unfold State.portRequest; (try dsimp only); (repeat' split) <;> (have hi := @State.ite_fields; simp [h, hi])

@[simp] theorem State.portRequest_faultN (s : State) (n : DnPort) {f : State → BitVec 4 → State} (h : ∀ t a1, (f t a1).faultN = t.faultN) :
    (State.portRequest s n f).faultN = s.faultN := by
  unfold State.portRequest; (try dsimp only); (repeat' split) <;> (have hi := @State.ite_fields; simp [h, hi])

@[simp] theorem State.portRequest_carStatus (s : State) (n : DnPort) {f : State → BitVec 4 → State} (h : ∀ t a1, (f t a1).carStatus = t.carStatus) :
    (State.portRequest s n f).carStatus = s.carStatus := by
  unfold State.portRequest; (try dsimp only); (repeat' split) <;> (have hi := @State.ite_fields; simp [h, hi])

@[simp] theorem State.portRequest_ticks (s : State) (n : DnPort) {f : State → BitVec 4 → State} (h : ∀ t a1, (f t a1).ticks = t.ticks) :
    (State.portRequest s n f).ticks = s.ticks := by
  unfold State.portRequest; (try dsimp only); (repeat' split) <;> (have hi := @State.ite_fields; simp [h, hi])

@[simp] theorem State.portRequest_freeCtr (s : State) (n : DnPort) {f : State → BitVec 4 → State} (h : ∀ t a1, (f t a1).freeCtr = t.freeCtr) :
    (State.portRequest s n f).freeCtr = s.freeCtr := by
  unfold State.portRequest; (try dsimp only); (repeat' split) <;> (have hi := @State.ite_fields; simp [h, hi])

@[simp] theorem State.portRequest_pending (s : State) (n : DnPort) {f : State → BitVec 4 → State} (h : ∀ t a1, (f t a1).pending = t.pending) :
    (State.portRequest s n f).pending = s.pending := by
  unfold State.portRequest; (try dsimp only); (repeat' split) <;> (have hi := @State.ite_fields; simp [h, hi])

@[simp] theorem State.whenPd_regs (s : State) (k : PdPort) {f : State → State} (h : ∀ t, (f t).regs = t.regs) :
    (State.whenPd s k f).regs = s.regs := by
  unfold State.whenPd; (try dsimp only); (repeat' split) <;> (have hk1 := @State.heard_keeps; have hi := @State.ite_fields; simp [hk1, h, hi])

@[simp] theorem State.whenPd_mem (s : State) (k : PdPort) {f : State → State} (h : ∀ t, (f t).mem = t.mem) :
    (State.whenPd s k f).mem = s.mem := by
  unfold State.whenPd; (try dsimp only); (repeat' split) <;> (have hk1 := @State.heard_keeps; have hi := @State.ite_fields; simp [hk1, h, hi])

@[simp] theorem State.whenPd_heads (s : State) (k : PdPort) {f : State → State} (h : ∀ t, (f t).heads = t.heads) :
    (State.whenPd s k f).heads = s.heads := by
  unfold State.whenPd; (try dsimp only); (repeat' split) <;> (have hk1 := @State.heard_keeps; have hi := @State.ite_fields; simp [hk1, h, hi])

@[simp] theorem State.whenPd_beat (s : State) (k : PdPort) {f : State → State} (h : ∀ t, (f t).beat = t.beat) :
    (State.whenPd s k f).beat = s.beat := by
  unfold State.whenPd; (try dsimp only); (repeat' split) <;> (have hk1 := @State.heard_keeps; have hi := @State.ite_fields; simp [hk1, h, hi])

@[simp] theorem State.whenPd_lanes (s : State) (k : PdPort) {f : State → State} (h : ∀ t, (f t).lanes = t.lanes) :
    (State.whenPd s k f).lanes = s.lanes := by
  unfold State.whenPd; (try dsimp only); (repeat' split) <;> (have hk1 := @State.heard_keeps; have hi := @State.ite_fields; simp [hk1, h, hi])

@[simp] theorem State.whenPd_ports (s : State) (k : PdPort) {f : State → State} (h : ∀ t, (f t).ports = t.ports) :
    (State.whenPd s k f).ports = s.ports := by
  unfold State.whenPd; (try dsimp only); (repeat' split) <;> (have hk1 := @State.heard_keeps; have hi := @State.ite_fields; simp [hk1, h, hi])

@[simp] theorem State.whenPd_echo (s : State) (k : PdPort) {f : State → State} (h : ∀ t, (f t).echo = t.echo) :
    (State.whenPd s k f).echo = s.echo := by
  unfold State.whenPd; (try dsimp only); (repeat' split) <;> (have hk1 := @State.heard_keeps; have hi := @State.ite_fields; simp [hk1, h, hi])

@[simp] theorem State.whenPd_tun (s : State) (k : PdPort) {f : State → State} (h : ∀ t, (f t).tun = t.tun) :
    (State.whenPd s k f).tun = s.tun := by
  unfold State.whenPd; (try dsimp only); (repeat' split) <;> (have hk1 := @State.heard_keeps; have hi := @State.ite_fields; simp [hk1, h, hi])

@[simp] theorem State.whenPd_cav (s : State) (k : PdPort) {f : State → State} (h : ∀ t, (f t).cav = t.cav) :
    (State.whenPd s k f).cav = s.cav := by
  unfold State.whenPd; (try dsimp only); (repeat' split) <;> (have hk1 := @State.heard_keeps; have hi := @State.ite_fields; simp [hk1, h, hi])

@[simp] theorem State.whenPd_sched (s : State) (k : PdPort) {f : State → State} (h : ∀ t, (f t).sched = t.sched) :
    (State.whenPd s k f).sched = s.sched := by
  unfold State.whenPd; (try dsimp only); (repeat' split) <;> (have hk1 := @State.heard_keeps; have hi := @State.ite_fields; simp [hk1, h, hi])

@[simp] theorem State.whenPd_twin (s : State) (k : PdPort) {f : State → State} (h : ∀ t, (f t).twin = t.twin) :
    (State.whenPd s k f).twin = s.twin := by
  unfold State.whenPd; (try dsimp only); (repeat' split) <;> (have hk1 := @State.heard_keeps; have hi := @State.ite_fields; simp [hk1, h, hi])

@[simp] theorem State.whenPd_eng (s : State) (k : PdPort) {f : State → State} (h : ∀ t, (f t).eng = t.eng) :
    (State.whenPd s k f).eng = s.eng := by
  unfold State.whenPd; (try dsimp only); (repeat' split) <;> (have hk1 := @State.heard_keeps; have hi := @State.ite_fields; simp [hk1, h, hi])

@[simp] theorem State.whenPd_acc (s : State) (k : PdPort) {f : State → State} (h : ∀ t, (f t).acc = t.acc) :
    (State.whenPd s k f).acc = s.acc := by
  unfold State.whenPd; (try dsimp only); (repeat' split) <;> (have hk1 := @State.heard_keeps; have hi := @State.ite_fields; simp [hk1, h, hi])

@[simp] theorem State.whenPd_geode (s : State) (k : PdPort) {f : State → State} (h : ∀ t, (f t).geode = t.geode) :
    (State.whenPd s k f).geode = s.geode := by
  unfold State.whenPd; (try dsimp only); (repeat' split) <;> (have hk1 := @State.heard_keeps; have hi := @State.ite_fields; simp [hk1, h, hi])

@[simp] theorem State.whenPd_boot (s : State) (k : PdPort) {f : State → State} (h : ∀ t, (f t).boot = t.boot) :
    (State.whenPd s k f).boot = s.boot := by
  unfold State.whenPd; (try dsimp only); (repeat' split) <;> (have hk1 := @State.heard_keeps; have hi := @State.ite_fields; simp [hk1, h, hi])

@[simp] theorem State.whenPd_pwr (s : State) (k : PdPort) {f : State → State} (h : ∀ t, (f t).pwr = t.pwr) :
    (State.whenPd s k f).pwr = s.pwr := by
  unfold State.whenPd; (try dsimp only); (repeat' split) <;> (have hk1 := @State.heard_keeps; have hi := @State.ite_fields; simp [hk1, h, hi])

@[simp] theorem State.whenPd_usb (s : State) (k : PdPort) {f : State → State} (h : ∀ t, (f t).usb = t.usb) :
    (State.whenPd s k f).usb = s.usb := by
  unfold State.whenPd; (try dsimp only); (repeat' split) <;> (have hk1 := @State.heard_keeps; have hi := @State.ite_fields; simp [hk1, h, hi])

@[simp] theorem State.whenPd_mon (s : State) (k : PdPort) {f : State → State} (h : ∀ t, (f t).mon = t.mon) :
    (State.whenPd s k f).mon = s.mon := by
  unfold State.whenPd; (try dsimp only); (repeat' split) <;> (have hk1 := @State.heard_keeps; have hi := @State.ite_fields; simp [hk1, h, hi])

@[simp] theorem State.whenPd_log (s : State) (k : PdPort) {f : State → State} (h : ∀ t, (f t).log = t.log) :
    (State.whenPd s k f).log = s.log := by
  unfold State.whenPd; (try dsimp only); (repeat' split) <;> (have hk1 := @State.heard_keeps; have hi := @State.ite_fields; simp [hk1, h, hi])

@[simp] theorem State.whenPd_faultN (s : State) (k : PdPort) {f : State → State} (h : ∀ t, (f t).faultN = t.faultN) :
    (State.whenPd s k f).faultN = s.faultN := by
  unfold State.whenPd; (try dsimp only); (repeat' split) <;> (have hk1 := @State.heard_keeps; have hi := @State.ite_fields; simp [hk1, h, hi])

@[simp] theorem State.whenPd_carStatus (s : State) (k : PdPort) {f : State → State} (h : ∀ t, (f t).carStatus = t.carStatus) :
    (State.whenPd s k f).carStatus = s.carStatus := by
  unfold State.whenPd; (try dsimp only); (repeat' split) <;> (have hk1 := @State.heard_keeps; have hi := @State.ite_fields; simp [hk1, h, hi])

@[simp] theorem State.whenPd_ticks (s : State) (k : PdPort) {f : State → State} (h : ∀ t, (f t).ticks = t.ticks) :
    (State.whenPd s k f).ticks = s.ticks := by
  unfold State.whenPd; (try dsimp only); (repeat' split) <;> (have hk1 := @State.heard_keeps; have hi := @State.ite_fields; simp [hk1, h, hi])

@[simp] theorem State.whenPd_freeCtr (s : State) (k : PdPort) {f : State → State} (h : ∀ t, (f t).freeCtr = t.freeCtr) :
    (State.whenPd s k f).freeCtr = s.freeCtr := by
  unfold State.whenPd; (try dsimp only); (repeat' split) <;> (have hk1 := @State.heard_keeps; have hi := @State.ite_fields; simp [hk1, h, hi])

@[simp] theorem State.whenPd_pending (s : State) (k : PdPort) {f : State → State} (h : ∀ t, (f t).pending = t.pending) :
    (State.whenPd s k f).pending = s.pending := by
  unfold State.whenPd; (try dsimp only); (repeat' split) <;> (have hk1 := @State.heard_keeps; have hi := @State.ite_fields; simp [hk1, h, hi])

theorem State.copyHub_keeps (s : State) :
    s.KeepsOuter (State.copyHub s) ∧ s.KeepsInner (State.copyHub s) ∧ s.KeepsCore (State.copyHub s) ∧ (State.copyHub s).mem = s.mem ∧
    (State.copyHub s).line = s.line ∧ (State.copyHub s).ports = s.ports ∧ (State.copyHub s).cav = s.cav ∧
    (State.copyHub s).geode = s.geode ∧ (State.copyHub s).freeCtr = s.freeCtr ∧ (State.copyHub s).sent = s.sent := by
  unfold State.copyHub
  (try dsimp only)
  (repeat' split) <;> simp [State.KeepsOuter, State.KeepsInner, State.KeepsCore]

theorem State.setUnlock_keeps (s : State) (m : Master) (u : Option Nat) :
    s.KeepsOuter (State.setUnlock s m u) ∧ s.KeepsCore (State.setUnlock s m u) ∧ (State.setUnlock s m u).regs = s.regs ∧
    (State.setUnlock s m u).mem = s.mem ∧ (State.setUnlock s m u).line = s.line ∧ (State.setUnlock s m u).ports = s.ports ∧
    (State.setUnlock s m u).echo = s.echo ∧ (State.setUnlock s m u).cav = s.cav ∧ (State.setUnlock s m u).twin = s.twin ∧
    (State.setUnlock s m u).geode = s.geode ∧ (State.setUnlock s m u).usb = s.usb ∧ (State.setUnlock s m u).log = s.log ∧
    (State.setUnlock s m u).faultN = s.faultN ∧ (State.setUnlock s m u).freeCtr = s.freeCtr ∧ (State.setUnlock s m u).sent = s.sent := by
  unfold State.setUnlock
  (try dsimp only)
  (repeat' split) <;> simp [State.KeepsOuter, State.KeepsInner, State.KeepsCore]

theorem State.writeUnlock_keeps (s : State) (m : Master) (w : Word) :
    s.KeepsOuter (State.writeUnlock s m w) ∧ s.KeepsCore (State.writeUnlock s m w) ∧ (State.writeUnlock s m w).mem = s.mem ∧
    (State.writeUnlock s m w).line = s.line ∧ (State.writeUnlock s m w).ports = s.ports ∧ (State.writeUnlock s m w).echo = s.echo ∧
    (State.writeUnlock s m w).cav = s.cav ∧ (State.writeUnlock s m w).twin = s.twin ∧ (State.writeUnlock s m w).geode = s.geode ∧
    (State.writeUnlock s m w).usb = s.usb ∧ (State.writeUnlock s m w).log = s.log ∧ (State.writeUnlock s m w).faultN = s.faultN ∧
    (State.writeUnlock s m w).freeCtr = s.freeCtr ∧ (State.writeUnlock s m w).sent = s.sent := by
  unfold State.writeUnlock
  (try dsimp only)
  (repeat' split) <;> (have hk1 := @State.setUnlock_keeps; simp [hk1, State.KeepsOuter, State.KeepsInner, State.KeepsCore])

theorem State.spend_keeps (s : State) (m : Master) :
    s.KeepsOuter (State.spend s m) ∧ s.KeepsCore (State.spend s m) ∧ (State.spend s m).regs = s.regs ∧ (State.spend s m).mem = s.mem ∧
    (State.spend s m).line = s.line ∧ (State.spend s m).ports = s.ports ∧ (State.spend s m).echo = s.echo ∧ (State.spend s m).cav = s.cav ∧
    (State.spend s m).twin = s.twin ∧ (State.spend s m).geode = s.geode ∧ (State.spend s m).usb = s.usb ∧ (State.spend s m).log = s.log ∧
    (State.spend s m).faultN = s.faultN ∧ (State.spend s m).freeCtr = s.freeCtr ∧ (State.spend s m).sent = s.sent := by
  unfold State.spend
  (try dsimp only)
  (repeat' split) <;> (have hk1 := @State.setUnlock_keeps; simp [hk1, State.KeepsOuter, State.KeepsInner, State.KeepsCore])

theorem State.loopWritten_keeps (s : State) (l : LaneIx) (old : Word) (new : Word) :
    s.KeepsOuter (State.loopWritten s l old new) ∧ s.KeepsInner (State.loopWritten s l old new) ∧
    (State.loopWritten s l old new).mem = s.mem ∧ (State.loopWritten s l old new).beat = s.beat ∧
    (State.loopWritten s l old new).tun = s.tun ∧ (State.loopWritten s l old new).sched = s.sched ∧
    (State.loopWritten s l old new).eng = s.eng ∧ (State.loopWritten s l old new).boot = s.boot ∧
    (State.loopWritten s l old new).pwr = s.pwr := by
  unfold State.loopWritten
  (try dsimp only)
  (repeat' split) <;> (have hk1 := @State.loopChanged_keeps; simp [hk1, State.KeepsOuter, State.KeepsInner, State.KeepsCore])

theorem State.testWritten_keeps (s : State) (l : LaneIx) (new : Word) :
    s.KeepsOuter (State.testWritten s l new) ∧ s.KeepsInner (State.testWritten s l new) ∧ (State.testWritten s l new).mem = s.mem ∧
    (State.testWritten s l new).beat = s.beat ∧ (State.testWritten s l new).tun = s.tun ∧ (State.testWritten s l new).sched = s.sched ∧
    (State.testWritten s l new).eng = s.eng ∧ (State.testWritten s l new).boot = s.boot ∧ (State.testWritten s l new).pwr = s.pwr := by
  unfold State.testWritten
  (try dsimp only)
  (repeat' split) <;> (have hk1 := @State.loopChanged_keeps; simp [hk1, State.KeepsOuter, State.KeepsInner, State.KeepsCore])

theorem State.trkCfgWritten_keeps (s : State) (t : TrunkPort) (new : Word) :
    s.KeepsOuter (State.trkCfgWritten s t new) ∧ s.KeepsInner (State.trkCfgWritten s t new) ∧ (State.trkCfgWritten s t new).mem = s.mem ∧
    (State.trkCfgWritten s t new).beat = s.beat ∧ (State.trkCfgWritten s t new).tun = s.tun ∧
    (State.trkCfgWritten s t new).sched = s.sched ∧ (State.trkCfgWritten s t new).eng = s.eng ∧
    (State.trkCfgWritten s t new).boot = s.boot ∧ (State.trkCfgWritten s t new).pwr = s.pwr := by
  unfold State.trkCfgWritten
  (try dsimp only)
  (repeat' split) <;> (have hk1 := @State.linkLoss_keeps; have hk2 := @State.portDown_keeps; simp [hk1, hk2, State.KeepsOuter, State.KeepsInner, State.KeepsCore])

theorem State.trendClrWritten_keeps (s : State) (w : Word) :
    s.KeepsOuter (State.trendClrWritten s w) ∧ s.KeepsInner (State.trendClrWritten s w) ∧ (State.trendClrWritten s w).regs = s.regs ∧
    (State.trendClrWritten s w).mem = s.mem ∧ (State.trendClrWritten s w).beat = s.beat ∧ (State.trendClrWritten s w).line = s.line ∧
    (State.trendClrWritten s w).ports = s.ports ∧ (State.trendClrWritten s w).tun = s.tun ∧ (State.trendClrWritten s w).cav = s.cav ∧
    (State.trendClrWritten s w).sched = s.sched ∧ (State.trendClrWritten s w).eng = s.eng ∧ (State.trendClrWritten s w).geode = s.geode ∧
    (State.trendClrWritten s w).boot = s.boot ∧ (State.trendClrWritten s w).pwr = s.pwr ∧ (State.trendClrWritten s w).freeCtr = s.freeCtr ∧
    (State.trendClrWritten s w).sent = s.sent := by
  (have hi := @State.ite_fields; simp [State.trendClrWritten, hi, State.KeepsOuter, State.KeepsInner, State.KeepsCore])

theorem State.roleWritten_keeps (s : State) :
    s.KeepsOuter (State.roleWritten s) ∧ s.KeepsCore (State.roleWritten s) ∧ (State.roleWritten s).mem = s.mem ∧
    (State.roleWritten s).line = s.line ∧ (State.roleWritten s).cav = s.cav ∧ (State.roleWritten s).twin = s.twin ∧
    (State.roleWritten s).acc = s.acc ∧ (State.roleWritten s).geode = s.geode ∧ (State.roleWritten s).usb = s.usb ∧
    (State.roleWritten s).log = s.log ∧ (State.roleWritten s).faultN = s.faultN ∧ (State.roleWritten s).freeCtr = s.freeCtr ∧
    (State.roleWritten s).sent = s.sent := by
  unfold State.roleWritten
  (try dsimp only)
  (repeat' split) <;> simp [State.KeepsOuter, State.KeepsInner, State.KeepsCore]

theorem State.releaseBank_keeps (s : State) :
    s.KeepsOuter (State.releaseBank s) ∧ s.KeepsInner (State.releaseBank s) ∧ s.KeepsCore (State.releaseBank s) ∧
    (State.releaseBank s).mem = s.mem ∧ (State.releaseBank s).line = s.line ∧ (State.releaseBank s).ports = s.ports ∧
    (State.releaseBank s).cav = s.cav ∧ (State.releaseBank s).geode = s.geode ∧ (State.releaseBank s).freeCtr = s.freeCtr ∧
    (State.releaseBank s).sent = s.sent := by
  unfold State.releaseBank
  (try dsimp only)
  (repeat' split) <;> simp [State.KeepsOuter, State.KeepsInner, State.KeepsCore]

theorem State.requestSnap_keeps (s : State) :
    s.KeepsOuter (State.requestSnap s) ∧ s.KeepsCore (State.requestSnap s) ∧ (State.requestSnap s).mem = s.mem ∧
    (State.requestSnap s).line = s.line ∧ (State.requestSnap s).ports = s.ports ∧ (State.requestSnap s).echo = s.echo ∧
    (State.requestSnap s).cav = s.cav ∧ (State.requestSnap s).twin = s.twin ∧ (State.requestSnap s).geode = s.geode ∧
    (State.requestSnap s).usb = s.usb ∧ (State.requestSnap s).log = s.log ∧ (State.requestSnap s).faultN = s.faultN ∧
    (State.requestSnap s).freeCtr = s.freeCtr ∧ (State.requestSnap s).sent = s.sent := by
  unfold State.requestSnap
  (try dsimp only)
  (repeat' split) <;> simp [State.KeepsOuter, State.KeepsInner, State.KeepsCore]

theorem State.snapWritten_keeps (s : State) (w : Word) :
    s.KeepsOuter (State.snapWritten s w) ∧ s.KeepsCore (State.snapWritten s w) ∧ (State.snapWritten s w).mem = s.mem ∧
    (State.snapWritten s w).line = s.line ∧ (State.snapWritten s w).ports = s.ports ∧ (State.snapWritten s w).echo = s.echo ∧
    (State.snapWritten s w).cav = s.cav ∧ (State.snapWritten s w).twin = s.twin ∧ (State.snapWritten s w).geode = s.geode ∧
    (State.snapWritten s w).usb = s.usb ∧ (State.snapWritten s w).log = s.log ∧ (State.snapWritten s w).faultN = s.faultN ∧
    (State.snapWritten s w).freeCtr = s.freeCtr ∧ (State.snapWritten s w).sent = s.sent := by
  unfold State.snapWritten
  (try dsimp only)
  (repeat' split) <;> (have hk1 := @State.releaseBank_keeps; have hk2 := @State.requestSnap_keeps; simp [hk1, hk2, State.KeepsOuter, State.KeepsInner, State.KeepsCore])

theorem State.colCfgWritten_keeps (s : State) :
    s.KeepsOuter (State.colCfgWritten s) ∧ s.KeepsInner (State.colCfgWritten s) ∧ (State.colCfgWritten s).regs = s.regs ∧
    (State.colCfgWritten s).mem = s.mem ∧ (State.colCfgWritten s).beat = s.beat ∧ (State.colCfgWritten s).lanes = s.lanes ∧
    (State.colCfgWritten s).line = s.line ∧ (State.colCfgWritten s).ports = s.ports ∧ (State.colCfgWritten s).tun = s.tun ∧
    (State.colCfgWritten s).cav = s.cav ∧ (State.colCfgWritten s).sched = s.sched ∧ (State.colCfgWritten s).geode = s.geode ∧
    (State.colCfgWritten s).boot = s.boot ∧ (State.colCfgWritten s).pwr = s.pwr ∧ (State.colCfgWritten s).freeCtr = s.freeCtr ∧
    (State.colCfgWritten s).sent = s.sent := by
  unfold State.colCfgWritten
  (try dsimp only)
  (repeat' split) <;> (have hk1 := @State.modColumn_keeps; simp [hk1, State.KeepsOuter, State.KeepsInner, State.KeepsCore])

theorem State.keepSet_keeps (s : State) (a : Nat) (old : Word) :
    s.KeepsOuter (State.keepSet s a old) ∧ s.KeepsInner (State.keepSet s a old) ∧ s.KeepsCore (State.keepSet s a old) ∧
    (State.keepSet s a old).mem = s.mem ∧ (State.keepSet s a old).line = s.line ∧ (State.keepSet s a old).ports = s.ports ∧
    (State.keepSet s a old).cav = s.cav ∧ (State.keepSet s a old).geode = s.geode ∧ (State.keepSet s a old).freeCtr = s.freeCtr ∧
    (State.keepSet s a old).sent = s.sent := by
  unfold State.keepSet
  (try dsimp only)
  (repeat' split) <;> simp [State.KeepsOuter, State.KeepsInner, State.KeepsCore]

theorem State.keepHigher_keeps (s : State) (a : Nat) (old : Word) :
    s.KeepsOuter (State.keepHigher s a old) ∧ s.KeepsInner (State.keepHigher s a old) ∧ s.KeepsCore (State.keepHigher s a old) ∧
    (State.keepHigher s a old).mem = s.mem ∧ (State.keepHigher s a old).line = s.line ∧ (State.keepHigher s a old).ports = s.ports ∧
    (State.keepHigher s a old).cav = s.cav ∧ (State.keepHigher s a old).geode = s.geode ∧ (State.keepHigher s a old).freeCtr = s.freeCtr ∧
    (State.keepHigher s a old).sent = s.sent := by
  unfold State.keepHigher
  (try dsimp only)
  (repeat' split) <;> simp [State.KeepsOuter, State.KeepsInner, State.KeepsCore]

theorem State.stageWord_keeps (s : State) (w : Word) :
    s.KeepsOuter (State.stageWord s w) ∧ s.KeepsInner (State.stageWord s w) ∧ (State.stageWord s w).mem = s.mem ∧
    (State.stageWord s w).beat = s.beat ∧ (State.stageWord s w).lanes = s.lanes ∧ (State.stageWord s w).line = s.line ∧
    (State.stageWord s w).ports = s.ports ∧ (State.stageWord s w).tun = s.tun ∧ (State.stageWord s w).cav = s.cav ∧
    (State.stageWord s w).sched = s.sched ∧ (State.stageWord s w).eng = s.eng ∧ (State.stageWord s w).geode = s.geode ∧
    (State.stageWord s w).pwr = s.pwr ∧ (State.stageWord s w).freeCtr = s.freeCtr ∧ (State.stageWord s w).sent = s.sent := by
  unfold State.stageWord
  (try dsimp only)
  (repeat' split) <;> simp [State.KeepsOuter, State.KeepsInner, State.KeepsCore]

theorem State.flashCommand_keeps (s : State) (m : Master) (op : Nat) :
    s.KeepsOuter (State.flashCommand s m op) ∧ s.KeepsInner (State.flashCommand s m op) ∧ (State.flashCommand s m op).mem = s.mem ∧
    (State.flashCommand s m op).beat = s.beat ∧ (State.flashCommand s m op).lanes = s.lanes ∧ (State.flashCommand s m op).line = s.line ∧
    (State.flashCommand s m op).ports = s.ports ∧ (State.flashCommand s m op).tun = s.tun ∧ (State.flashCommand s m op).cav = s.cav ∧
    (State.flashCommand s m op).sched = s.sched ∧ (State.flashCommand s m op).eng = s.eng ∧ (State.flashCommand s m op).geode = s.geode ∧
    (State.flashCommand s m op).pwr = s.pwr ∧ (State.flashCommand s m op).freeCtr = s.freeCtr ∧ (State.flashCommand s m op).sent = s.sent := by
  unfold State.flashCommand
  (try dsimp only)
  (repeat' split) <;> simp [State.KeepsOuter, State.KeepsInner, State.KeepsCore]

theorem State.wroteBeat_keeps (s : State) (m : Master) (a : Nat) (old : Word) (data : Word) :
    s.KeepsOuter (State.wroteBeat s m a old data) ∧ (State.wroteBeat s m a old data).mem = s.mem ∧
    (State.wroteBeat s m a old data).lanes = s.lanes ∧ (State.wroteBeat s m a old data).line = s.line ∧
    (State.wroteBeat s m a old data).tun = s.tun ∧ (State.wroteBeat s m a old data).cav = s.cav ∧
    (State.wroteBeat s m a old data).sched = s.sched ∧ (State.wroteBeat s m a old data).twin = s.twin ∧
    (State.wroteBeat s m a old data).eng = s.eng ∧ (State.wroteBeat s m a old data).acc = s.acc ∧
    (State.wroteBeat s m a old data).geode = s.geode ∧ (State.wroteBeat s m a old data).boot = s.boot ∧
    (State.wroteBeat s m a old data).pwr = s.pwr ∧ (State.wroteBeat s m a old data).usb = s.usb ∧
    (State.wroteBeat s m a old data).log = s.log ∧ (State.wroteBeat s m a old data).faultN = s.faultN ∧
    (State.wroteBeat s m a old data).freeCtr = s.freeCtr ∧ (State.wroteBeat s m a old data).sent = s.sent := by
  unfold State.wroteBeat
  (try dsimp only)
  (repeat' split) <;> (have hk1 := @State.commitCommand_keeps; have hk2 := @State.copyHub_keeps; have hk3 := @State.roleWritten_keeps; simp [hk1, hk2, hk3, State.KeepsOuter, State.KeepsInner, State.KeepsCore])

theorem State.wroteLane_keeps (s : State) (a : Nat) (old : Word) (new : Word) (data : Word) :
    s.KeepsOuter (State.wroteLane s a old new data) ∧ s.KeepsInner (State.wroteLane s a old new data) ∧
    (State.wroteLane s a old new data).mem = s.mem ∧ (State.wroteLane s a old new data).beat = s.beat ∧
    (State.wroteLane s a old new data).tun = s.tun ∧ (State.wroteLane s a old new data).sched = s.sched ∧
    (State.wroteLane s a old new data).eng = s.eng ∧ (State.wroteLane s a old new data).boot = s.boot ∧
    (State.wroteLane s a old new data).pwr = s.pwr := by
  unfold State.wroteLane
  (try dsimp only)
  (repeat' split) <;> (have hk1 := @State.loopWritten_keeps; have hk2 := @State.testWritten_keeps; have hk3 := @State.trendClrWritten_keeps; simp [hk1, hk2, hk3, State.KeepsOuter, State.KeepsInner, State.KeepsCore])

theorem State.wrotePort_keeps (s : State) (a : Nat) (new : Word) :
    s.KeepsOuter (State.wrotePort s a new) ∧ s.KeepsInner (State.wrotePort s a new) ∧ (State.wrotePort s a new).mem = s.mem ∧
    (State.wrotePort s a new).beat = s.beat ∧ (State.wrotePort s a new).tun = s.tun ∧ (State.wrotePort s a new).sched = s.sched ∧
    (State.wrotePort s a new).eng = s.eng ∧ (State.wrotePort s a new).boot = s.boot ∧ (State.wrotePort s a new).pwr = s.pwr := by
  unfold State.wrotePort
  (try dsimp only)
  (repeat' split) <;> (have hk1 := @State.evaluate_keeps; have hk2 := @State.trkCfgWritten_keeps; simp [hk1, hk2, State.KeepsOuter, State.KeepsInner, State.KeepsCore])

theorem State.wroteTun_keeps (s : State) (m : Master) (a : Nat) (data : Word) :
    s.KeepsOuter (State.wroteTun s m a data) ∧ s.KeepsInner (State.wroteTun s m a data) ∧ (State.wroteTun s m a data).mem = s.mem ∧
    (State.wroteTun s m a data).beat = s.beat ∧ (State.wroteTun s m a data).lanes = s.lanes ∧ (State.wroteTun s m a data).line = s.line ∧
    (State.wroteTun s m a data).ports = s.ports ∧ (State.wroteTun s m a data).cav = s.cav ∧ (State.wroteTun s m a data).sched = s.sched ∧
    (State.wroteTun s m a data).eng = s.eng ∧ (State.wroteTun s m a data).geode = s.geode ∧ (State.wroteTun s m a data).boot = s.boot ∧
    (State.wroteTun s m a data).pwr = s.pwr ∧ (State.wroteTun s m a data).sent = s.sent := by
  unfold State.wroteTun
  (try dsimp only)
  (repeat' split) <;> (have hk1 := @State.epCommand_keeps; have hk2 := @State.mapCommand_keeps; simp [hk1, hk2, State.KeepsOuter, State.KeepsInner, State.KeepsCore])

theorem State.wroteSump_keeps (s : State) (a : Nat) (data : Word) :
    s.KeepsOuter (State.wroteSump s a data) ∧ s.KeepsInner (State.wroteSump s a data) ∧ (State.wroteSump s a data).mem = s.mem ∧
    (State.wroteSump s a data).beat = s.beat ∧ (State.wroteSump s a data).lanes = s.lanes ∧ (State.wroteSump s a data).line = s.line ∧
    (State.wroteSump s a data).sched = s.sched ∧ (State.wroteSump s a data).eng = s.eng ∧ (State.wroteSump s a data).geode = s.geode ∧
    (State.wroteSump s a data).boot = s.boot ∧ (State.wroteSump s a data).pwr = s.pwr ∧ (State.wroteSump s a data).freeCtr = s.freeCtr ∧
    (State.wroteSump s a data).sent = s.sent := by
  unfold State.wroteSump
  (try dsimp only)
  (repeat' split) <;> (have hk1 := @State.startTraining_keeps; simp [hk1, State.KeepsOuter, State.KeepsInner, State.KeepsCore])

theorem State.wroteGate_keeps (s : State) (p : Nat) :
    s.KeepsOuter (State.wroteGate s p) ∧ s.KeepsInner (State.wroteGate s p) ∧ (State.wroteGate s p).regs = s.regs ∧
    (State.wroteGate s p).mem = s.mem ∧ (State.wroteGate s p).lanes = s.lanes ∧ (State.wroteGate s p).line = s.line ∧
    (State.wroteGate s p).ports = s.ports ∧ (State.wroteGate s p).tun = s.tun ∧ (State.wroteGate s p).cav = s.cav ∧
    (State.wroteGate s p).sched = s.sched ∧ (State.wroteGate s p).eng = s.eng ∧ (State.wroteGate s p).geode = s.geode ∧
    (State.wroteGate s p).boot = s.boot ∧ (State.wroteGate s p).pwr = s.pwr ∧ (State.wroteGate s p).freeCtr = s.freeCtr ∧
    (State.wroteGate s p).sent = s.sent := by
  unfold State.wroteGate
  (try dsimp only)
  (repeat' split) <;> simp [State.KeepsOuter, State.KeepsInner, State.KeepsCore]

theorem State.wroteSched_keeps (s : State) (a : Nat) :
    s.KeepsOuter (State.wroteSched s a) ∧ s.KeepsInner (State.wroteSched s a) ∧ (State.wroteSched s a).regs = s.regs ∧
    (State.wroteSched s a).mem = s.mem ∧ (State.wroteSched s a).lanes = s.lanes ∧ (State.wroteSched s a).line = s.line ∧
    (State.wroteSched s a).ports = s.ports ∧ (State.wroteSched s a).tun = s.tun ∧ (State.wroteSched s a).cav = s.cav ∧
    (State.wroteSched s a).sched = s.sched ∧ (State.wroteSched s a).eng = s.eng ∧ (State.wroteSched s a).geode = s.geode ∧
    (State.wroteSched s a).boot = s.boot ∧ (State.wroteSched s a).pwr = s.pwr ∧ (State.wroteSched s a).freeCtr = s.freeCtr ∧
    (State.wroteSched s a).sent = s.sent := by
  unfold State.wroteSched
  (try dsimp only)
  (repeat' split) <;> (have hk1 := @State.wroteGate_keeps; simp [hk1, State.KeepsOuter, State.KeepsInner, State.KeepsCore])

theorem State.wrotePol_keeps (s : State) (m : Master) (a : Nat) (new : Word) :
    s.KeepsOuter (State.wrotePol s m a new) ∧ s.KeepsInner (State.wrotePol s m a new) ∧ (State.wrotePol s m a new).regs = s.regs ∧
    (State.wrotePol s m a new).mem = s.mem ∧ (State.wrotePol s m a new).beat = s.beat ∧ (State.wrotePol s m a new).lanes = s.lanes ∧
    (State.wrotePol s m a new).line = s.line ∧ (State.wrotePol s m a new).ports = s.ports ∧ (State.wrotePol s m a new).tun = s.tun ∧
    (State.wrotePol s m a new).cav = s.cav ∧ (State.wrotePol s m a new).eng = s.eng ∧ (State.wrotePol s m a new).geode = s.geode ∧
    (State.wrotePol s m a new).boot = s.boot ∧ (State.wrotePol s m a new).pwr = s.pwr ∧ (State.wrotePol s m a new).freeCtr = s.freeCtr ∧
    (State.wrotePol s m a new).sent = s.sent := by
  unfold State.wrotePol
  (try dsimp only)
  (repeat' split) <;> simp [State.KeepsOuter, State.KeepsInner, State.KeepsCore]

theorem State.wroteEng_keeps (s : State) (m : Master) (a : Nat) (data : Word) :
    s.KeepsOuter (State.wroteEng s m a data) ∧ s.KeepsInner (State.wroteEng s m a data) ∧ (State.wroteEng s m a data).mem = s.mem ∧
    (State.wroteEng s m a data).beat = s.beat ∧ (State.wroteEng s m a data).lanes = s.lanes ∧ (State.wroteEng s m a data).line = s.line ∧
    (State.wroteEng s m a data).ports = s.ports ∧ (State.wroteEng s m a data).tun = s.tun ∧ (State.wroteEng s m a data).cav = s.cav ∧
    (State.wroteEng s m a data).geode = s.geode ∧ (State.wroteEng s m a data).boot = s.boot ∧ (State.wroteEng s m a data).pwr = s.pwr ∧
    (State.wroteEng s m a data).freeCtr = s.freeCtr ∧ (State.wroteEng s m a data).sent = s.sent := by
  unfold State.wroteEng
  (try dsimp only)
  (repeat' split) <;> (have hk1 := @State.colCfgWritten_keeps; have hk2 := @State.engCommand_keeps; have hk3 := @State.treqCommand_keeps; simp [hk1, hk2, hk3, State.KeepsOuter, State.KeepsInner, State.KeepsCore])

theorem State.wroteAcc_keeps (s : State) (m : Master) (a : Nat) (old : Word) (new : Word) (data : Word) :
    s.KeepsOuter (State.wroteAcc s m a old new data) ∧ s.KeepsCore (State.wroteAcc s m a old new data) ∧
    (State.wroteAcc s m a old new data).mem = s.mem ∧ (State.wroteAcc s m a old new data).line = s.line ∧
    (State.wroteAcc s m a old new data).ports = s.ports ∧ (State.wroteAcc s m a old new data).echo = s.echo ∧
    (State.wroteAcc s m a old new data).cav = s.cav ∧ (State.wroteAcc s m a old new data).twin = s.twin ∧
    (State.wroteAcc s m a old new data).geode = s.geode ∧ (State.wroteAcc s m a old new data).usb = s.usb ∧
    (State.wroteAcc s m a old new data).log = s.log ∧ (State.wroteAcc s m a old new data).faultN = s.faultN ∧
    (State.wroteAcc s m a old new data).freeCtr = s.freeCtr ∧ (State.wroteAcc s m a old new data).sent = s.sent := by
  unfold State.wroteAcc
  (try dsimp only)
  (repeat' split) <;> (have hk1 := @State.changeRule_keeps; have hk2 := @State.keepSet_keeps; have hk3 := @State.popFault_keeps; have hk4 := @State.snapWritten_keeps; have hk5 := @State.startBarrier_keeps; have hk6 := @State.writeUnlock_keeps; simp [hk1, hk2, hk3, hk4, hk5, hk6, State.KeepsOuter, State.KeepsInner, State.KeepsCore])

theorem State.wroteGeo_keeps (s : State) (m : Master) (a : Nat) (old : Word) (data : Word) :
    s.KeepsOuter (State.wroteGeo s m a old data) ∧ s.KeepsInner (State.wroteGeo s m a old data) ∧
    s.KeepsCore (State.wroteGeo s m a old data) ∧ (State.wroteGeo s m a old data).mem = s.mem ∧
    (State.wroteGeo s m a old data).line = s.line ∧ (State.wroteGeo s m a old data).ports = s.ports ∧
    (State.wroteGeo s m a old data).cav = s.cav ∧ (State.wroteGeo s m a old data).sent = s.sent := by
  unfold State.wroteGeo
  (try dsimp only)
  (repeat' split) <;> (have hk1 := @State.acceptKey_keeps; have hk2 := @State.fuseCommand_keeps; have hk3 := @State.keepSet_keeps; simp [hk1, hk2, hk3, State.KeepsOuter, State.KeepsInner, State.KeepsCore])

theorem State.wroteBoot_keeps (s : State) (m : Master) (a : Nat) (data : Word) :
    (State.wroteBoot s m a data).carStatus = s.carStatus ∧ (State.wroteBoot s m a data).ticks = s.ticks ∧
    (State.wroteBoot s m a data).pending = s.pending := by
  unfold State.wroteBoot
  (try dsimp only)
  (repeat' split) <;> (have hk1 := @State.bootCommand_keeps; have hk2 := @State.flashCommand_keeps; have hk3 := @State.stageWord_keeps; simp [hk1, hk2, hk3, State.KeepsOuter, State.KeepsInner, State.KeepsCore])

theorem State.wrotePwr_keeps (s : State) (m : Master) (a : Nat) (old : Word) (new : Word) (data : Word) :
    s.KeepsOuter (State.wrotePwr s m a old new data) ∧ s.KeepsInner (State.wrotePwr s m a old new data) ∧
    (State.wrotePwr s m a old new data).mem = s.mem ∧ (State.wrotePwr s m a old new data).beat = s.beat ∧
    (State.wrotePwr s m a old new data).lanes = s.lanes ∧ (State.wrotePwr s m a old new data).ports = s.ports ∧
    (State.wrotePwr s m a old new data).tun = s.tun ∧ (State.wrotePwr s m a old new data).cav = s.cav ∧
    (State.wrotePwr s m a old new data).sched = s.sched ∧ (State.wrotePwr s m a old new data).eng = s.eng ∧
    (State.wrotePwr s m a old new data).geode = s.geode ∧ (State.wrotePwr s m a old new data).boot = s.boot ∧
    (State.wrotePwr s m a old new data).freeCtr = s.freeCtr := by
  unfold State.wrotePwr
  (try dsimp only)
  (repeat' split) <;> (have hk1 := @State.keepHigher_keeps; have hk2 := @State.startStepping_keeps; have hk3 := @State.writeAsk_keeps; have hk4 := @State.writeRequest_keeps; have hk5 := @State.writeTarget_keeps; simp [hk1, hk2, hk3, hk4, hk5, State.KeepsOuter, State.KeepsInner, State.KeepsCore])

theorem State.wroteUsb_keeps (s : State) (m : Master) (a : Nat) (old : Word) :
    s.KeepsCore (State.wroteUsb s m a old) ∧ (State.wroteUsb s m a old).mem = s.mem ∧ (State.wroteUsb s m a old).heads = s.heads ∧
    (State.wroteUsb s m a old).ports = s.ports ∧ (State.wroteUsb s m a old).echo = s.echo ∧ (State.wroteUsb s m a old).cav = s.cav ∧
    (State.wroteUsb s m a old).twin = s.twin ∧ (State.wroteUsb s m a old).acc = s.acc ∧ (State.wroteUsb s m a old).geode = s.geode ∧
    (State.wroteUsb s m a old).mon = s.mon ∧ (State.wroteUsb s m a old).faultN = s.faultN ∧
    (State.wroteUsb s m a old).carStatus = s.carStatus ∧ (State.wroteUsb s m a old).ticks = s.ticks ∧
    (State.wroteUsb s m a old).freeCtr = s.freeCtr ∧ (State.wroteUsb s m a old).pending = s.pending := by
  unfold State.wroteUsb
  (try dsimp only)
  (repeat' split) <;> (have hk1 := @State.copyRecord_keeps; have hk2 := @State.notePdo_keeps; have hk3 := @State.putRecord_keeps; have hk4 := @State.sessionConfig_keeps; have hk5 := @State.showRp_keeps; simp [hk1, hk2, hk3, hk4, hk5, State.KeepsOuter, State.KeepsInner, State.KeepsCore])

theorem State.wrote_keeps (s : State) (m : Master) (a : Nat) (old : Word) (new : Word) (data : Word) :
    (State.wrote s m a old new data).carStatus = s.carStatus ∧ (State.wrote s m a old new data).ticks = s.ticks ∧
    (State.wrote s m a old new data).pending = s.pending := by
  unfold State.wrote
  (try dsimp only)
  (repeat' split) <;> (have hk1 := @State.evaluate_keeps; have hk2 := @State.wroteAcc_keeps; have hk3 := @State.wroteBeat_keeps; have hk4 := @State.wroteBoot_keeps; have hk5 := @State.wroteEng_keeps; have hk6 := @State.wroteGeo_keeps; have hk7 := @State.wroteLane_keeps; have hk8 := @State.wrotePol_keeps; have hk9 := @State.wrotePort_keeps; have hk10 := @State.wrotePwr_keeps; have hk11 := @State.wroteSched_keeps; have hk12 := @State.wroteSump_keeps; have hk13 := @State.wroteTun_keeps; have hk14 := @State.wroteUsb_keeps; simp [hk1, hk2, hk3, hk4, hk5, hk6, hk7, hk8, hk9, hk10, hk11, hk12, hk13, hk14, State.KeepsOuter, State.KeepsInner, State.KeepsCore])

end Sys2Proof.Machine
end

