-- ==== Sys2Proof/Laws/KeepsRows.lean ====
section
/-! SUPPORT. Laws/KeepsRows.lean: what the operations of Machine/Access, Agent, Echo, Beat, BootApply, Boot, Head and Requests
leave as it is. They are no simp lemmas: a proof
takes those it needs as hypotheses, `have hk := @State.foo_keeps; simp [hk]`, which makes no auxiliary theorem. -/

set_option linter.all false

namespace Sys2Proof.Machine

open Sys2Proof

theorem State.busError_keeps (s : State) (m : Master) (addr : Nat) (write : Bool) (cause : Nat) :
    s.KeepsOuter (State.busError s m addr write cause) ∧ s.KeepsInner (State.busError s m addr write cause) ∧
    s.KeepsCore (State.busError s m addr write cause) ∧ (State.busError s m addr write cause).mem = s.mem ∧
    (State.busError s m addr write cause).line = s.line ∧ (State.busError s m addr write cause).ports = s.ports ∧
    (State.busError s m addr write cause).cav = s.cav ∧ (State.busError s m addr write cause).geode = s.geode ∧
    (State.busError s m addr write cause).freeCtr = s.freeCtr ∧ (State.busError s m addr write cause).sent = s.sent := by
  unfold State.busError
  (try dsimp only)
  (repeat' split) <;> simp [State.KeepsOuter, State.KeepsInner, State.KeepsCore]

theorem State.endCapture_keeps (s : State) (m : Master) :
    s.KeepsOuter (State.endCapture s m) ∧ s.KeepsCore (State.endCapture s m) ∧ (State.endCapture s m).regs = s.regs ∧
    (State.endCapture s m).mem = s.mem ∧ (State.endCapture s m).line = s.line ∧ (State.endCapture s m).ports = s.ports ∧
    (State.endCapture s m).echo = s.echo ∧ (State.endCapture s m).cav = s.cav ∧ (State.endCapture s m).twin = s.twin ∧
    (State.endCapture s m).geode = s.geode ∧ (State.endCapture s m).usb = s.usb ∧ (State.endCapture s m).log = s.log ∧
    (State.endCapture s m).faultN = s.faultN ∧ (State.endCapture s m).freeCtr = s.freeCtr ∧ (State.endCapture s m).sent = s.sent := by
  unfold State.endCapture
  (try dsimp only)
  (repeat' split) <;> simp [State.KeepsOuter, State.KeepsInner, State.KeepsCore]

theorem State.readDirect_keeps (s : State) (m : Master) (addr : Nat) (size : Nat) :
    s.KeepsOuter (State.readDirect s m addr size).1 ∧ s.KeepsCore (State.readDirect s m addr size).1 ∧
    (State.readDirect s m addr size).1.mem = s.mem ∧ (State.readDirect s m addr size).1.line = s.line ∧
    (State.readDirect s m addr size).1.ports = s.ports ∧ (State.readDirect s m addr size).1.echo = s.echo ∧
    (State.readDirect s m addr size).1.cav = s.cav ∧ (State.readDirect s m addr size).1.twin = s.twin ∧
    (State.readDirect s m addr size).1.geode = s.geode ∧ (State.readDirect s m addr size).1.usb = s.usb ∧
    (State.readDirect s m addr size).1.log = s.log ∧ (State.readDirect s m addr size).1.faultN = s.faultN ∧
    (State.readDirect s m addr size).1.freeCtr = s.freeCtr ∧ (State.readDirect s m addr size).1.sent = s.sent := by
  unfold State.readDirect
  (try dsimp only)
  (repeat' split) <;> (have hk1 := @State.busError_keeps; have hk2 := @State.endCapture_keeps; simp [hk1, hk2, State.KeepsOuter, State.KeepsInner, State.KeepsCore])

theorem State.writeFields_keeps (s : State) (m : Master) (r : RegRow) (a : Nat) (bits : Nat) (data : Word) :
    (State.writeFields s m r a bits data).carStatus = s.carStatus ∧ (State.writeFields s m r a bits data).ticks = s.ticks ∧
    (State.writeFields s m r a bits data).pending = s.pending := by
  unfold State.writeFields
  (try dsimp only)
  (repeat' split) <;> (have hk1 := @State.wrote_keeps; simp [hk1, State.KeepsOuter, State.KeepsInner, State.KeepsCore])

theorem State.tryWrite_keeps (s : State) (m : Master) (r : RegRow) (addr : Nat) (a : Nat) (bits : Nat) (data : Word) (armed : Bool) :
    (State.tryWrite s m r addr a bits data armed).1.carStatus = s.carStatus ∧
    (State.tryWrite s m r addr a bits data armed).1.ticks = s.ticks ∧ (State.tryWrite s m r addr a bits data armed).1.pending = s.pending := by
  unfold State.tryWrite
  (try dsimp only)
  (repeat' split) <;> (have hk1 := @State.busError_keeps; have hk2 := @State.writeFields_keeps; simp [hk1, hk2, State.KeepsOuter, State.KeepsInner, State.KeepsCore])

theorem State.writeDirect_keeps (s : State) (m : Master) (addr : Nat) (data : Word) :
    (State.writeDirect s m addr data).1.carStatus = s.carStatus ∧ (State.writeDirect s m addr data).1.ticks = s.ticks ∧
    (State.writeDirect s m addr data).1.pending = s.pending := by
  unfold State.writeDirect
  (try dsimp only)
  (repeat' split) <;> (have hk1 := @State.busError_keeps; have hk2 := @State.endCapture_keeps; have hk3 := @State.spend_keeps; have hk4 := @State.tryWrite_keeps; simp [hk1, hk2, hk3, hk4, State.KeepsOuter, State.KeepsInner, State.KeepsCore])

theorem State.readAlias_keeps (s : State) (m : Master) (addr : Nat) (size : Nat) :
    s.KeepsOuter (State.readAlias s m addr size).1 ∧ s.KeepsCore (State.readAlias s m addr size).1 ∧
    (State.readAlias s m addr size).1.mem = s.mem ∧ (State.readAlias s m addr size).1.line = s.line ∧
    (State.readAlias s m addr size).1.ports = s.ports ∧ (State.readAlias s m addr size).1.echo = s.echo ∧
    (State.readAlias s m addr size).1.cav = s.cav ∧ (State.readAlias s m addr size).1.twin = s.twin ∧
    (State.readAlias s m addr size).1.geode = s.geode ∧ (State.readAlias s m addr size).1.usb = s.usb ∧
    (State.readAlias s m addr size).1.log = s.log ∧ (State.readAlias s m addr size).1.faultN = s.faultN ∧
    (State.readAlias s m addr size).1.freeCtr = s.freeCtr ∧ (State.readAlias s m addr size).1.sent = s.sent := by
  unfold State.readAlias
  (try dsimp only)
  (repeat' split) <;> (have hk1 := @State.busError_keeps; have hk2 := @State.endCapture_keeps; simp [hk1, hk2, State.KeepsOuter, State.KeepsInner, State.KeepsCore])

theorem State.writeAlias_keeps (s : State) (m : Master) (addr : Nat) (data : Word) :
    (State.writeAlias s m addr data).1.carStatus = s.carStatus ∧ (State.writeAlias s m addr data).1.ticks = s.ticks ∧
    (State.writeAlias s m addr data).1.pending = s.pending := by
  unfold State.writeAlias
  (try dsimp only)
  (repeat' split) <;> (have hk1 := @State.busError_keeps; have hk2 := @State.endCapture_keeps; have hk3 := @State.spend_keeps; have hk4 := @State.tryWrite_keeps; simp [hk1, hk2, hk3, hk4, State.KeepsOuter, State.KeepsInner, State.KeepsCore])

theorem State.regOne_keeps (s : State) (m : Master) (write : Bool) (addr : Nat) (size : Nat) (data : Word) :
    (State.regOne s m write addr size data).1.carStatus = s.carStatus ∧ (State.regOne s m write addr size data).1.ticks = s.ticks ∧
    (State.regOne s m write addr size data).1.pending = s.pending := by
  unfold State.regOne
  (try dsimp only)
  (repeat' split) <;> (have hk1 := @State.readAlias_keeps; have hk2 := @State.readDirect_keeps; have hk3 := @State.writeAlias_keeps; have hk4 := @State.writeDirect_keeps; simp [hk1, hk2, hk3, hk4, State.KeepsOuter, State.KeepsInner, State.KeepsCore])

theorem State.malformed_keeps (s : State) (m : Master) (write : Bool) (addr : Nat) (cause : Nat) :
    s.KeepsOuter (State.malformed s m write addr cause).1 ∧ s.KeepsCore (State.malformed s m write addr cause).1 ∧
    (State.malformed s m write addr cause).1.mem = s.mem ∧ (State.malformed s m write addr cause).1.line = s.line ∧
    (State.malformed s m write addr cause).1.ports = s.ports ∧ (State.malformed s m write addr cause).1.echo = s.echo ∧
    (State.malformed s m write addr cause).1.cav = s.cav ∧ (State.malformed s m write addr cause).1.twin = s.twin ∧
    (State.malformed s m write addr cause).1.geode = s.geode ∧ (State.malformed s m write addr cause).1.usb = s.usb ∧
    (State.malformed s m write addr cause).1.log = s.log ∧ (State.malformed s m write addr cause).1.faultN = s.faultN ∧
    (State.malformed s m write addr cause).1.freeCtr = s.freeCtr ∧ (State.malformed s m write addr cause).1.sent = s.sent := by
  unfold State.malformed
  (try dsimp only)
  (repeat' split) <;> (have hk1 := @State.busError_keeps; have hk2 := @State.endCapture_keeps; have hk3 := @State.spend_keeps; simp [hk1, hk2, hk3, State.KeepsOuter, State.KeepsInner, State.KeepsCore])

theorem State.regSpace_keeps (s : State) (m : Master) (write : Bool) (addr : Nat) (size : Nat) (data : Nat) :
    (State.regSpace s m write addr size data).1.carStatus = s.carStatus ∧ (State.regSpace s m write addr size data).1.ticks = s.ticks ∧
    (State.regSpace s m write addr size data).1.pending = s.pending := by
  unfold State.regSpace
  (try dsimp only)
  (repeat' split) <;> (have hk1 := @State.malformed_keeps; have hk2 := @State.regOne_keeps; simp [hk1, hk2, State.KeepsOuter, State.KeepsInner, State.KeepsCore])

theorem State.healed_keeps (s : State) (addr : Nat) (size : Nat) :
    s.KeepsOuter (State.healed s addr size) ∧ s.KeepsInner (State.healed s addr size) ∧ s.KeepsCore (State.healed s addr size) ∧
    (State.healed s addr size).regs = s.regs ∧ (State.healed s addr size).mem = s.mem ∧ (State.healed s addr size).line = s.line ∧
    (State.healed s addr size).ports = s.ports ∧ (State.healed s addr size).geode = s.geode ∧
    (State.healed s addr size).freeCtr = s.freeCtr ∧ (State.healed s addr size).sent = s.sent := by
  unfold State.healed
  (try dsimp only)
  (repeat' split) <;> simp [State.KeepsOuter, State.KeepsInner, State.KeepsCore]

theorem State.memSpace_keeps (s : State) (m : Master) (write : Bool) (addr : Nat) (size : Nat) (data : List Byte) :
    s.KeepsOuter (State.memSpace s m write addr size data).1 ∧ s.KeepsInner (State.memSpace s m write addr size data).1 ∧
    s.KeepsCore (State.memSpace s m write addr size data).1 ∧ (State.memSpace s m write addr size data).1.line = s.line ∧
    (State.memSpace s m write addr size data).1.ports = s.ports ∧ (State.memSpace s m write addr size data).1.geode = s.geode ∧
    (State.memSpace s m write addr size data).1.sent = s.sent := by
  unfold State.memSpace
  (try dsimp only)
  (repeat' split) <;> (have hk1 := @State.busError_keeps; have hk2 := @State.healed_keeps; have hk3 := @State.sumpError_keeps; simp [hk1, hk2, hk3, State.KeepsOuter, State.KeepsInner, State.KeepsCore])

theorem State.perform_keeps (s : State) (m : Master) (write : Bool) (addr : Nat) (size : Nat) (data : List Byte) :
    (State.perform s m write addr size data).1.carStatus = s.carStatus ∧ (State.perform s m write addr size data).1.ticks = s.ticks ∧
    (State.perform s m write addr size data).1.pending = s.pending := by
  unfold State.perform
  (try dsimp only)
  (repeat' split) <;> (have hk1 := @State.memSpace_keeps; have hk2 := @State.regSpace_keeps; simp [hk1, hk2, State.KeepsOuter, State.KeepsInner, State.KeepsCore])

theorem State.setColLine_keeps (s : State) (c : ColumnIx) (l : ColLine) :
    s.KeepsOuter (State.setColLine s c l) ∧ s.KeepsInner (State.setColLine s c l) ∧ (State.setColLine s c l).regs = s.regs ∧
    (State.setColLine s c l).mem = s.mem ∧ (State.setColLine s c l).beat = s.beat ∧ (State.setColLine s c l).lanes = s.lanes ∧
    (State.setColLine s c l).line = s.line ∧ (State.setColLine s c l).ports = s.ports ∧ (State.setColLine s c l).tun = s.tun ∧
    (State.setColLine s c l).cav = s.cav ∧ (State.setColLine s c l).sched = s.sched ∧ (State.setColLine s c l).geode = s.geode ∧
    (State.setColLine s c l).boot = s.boot ∧ (State.setColLine s c l).pwr = s.pwr ∧ (State.setColLine s c l).freeCtr = s.freeCtr ∧
    (State.setColLine s c l).sent = s.sent := by
  unfold State.setColLine
  (try dsimp only)
  (repeat' split) <;> (have hk1 := @State.modColumn_keeps; simp [hk1, State.KeepsOuter, State.KeepsInner, State.KeepsCore])

theorem State.dropColLine_keeps (s : State) (c : ColumnIx) (n : Nat) :
    s.KeepsOuter (State.dropColLine s c n) ∧ s.KeepsInner (State.dropColLine s c n) ∧ (State.dropColLine s c n).regs = s.regs ∧
    (State.dropColLine s c n).mem = s.mem ∧ (State.dropColLine s c n).beat = s.beat ∧ (State.dropColLine s c n).lanes = s.lanes ∧
    (State.dropColLine s c n).line = s.line ∧ (State.dropColLine s c n).ports = s.ports ∧ (State.dropColLine s c n).tun = s.tun ∧
    (State.dropColLine s c n).cav = s.cav ∧ (State.dropColLine s c n).sched = s.sched ∧ (State.dropColLine s c n).geode = s.geode ∧
    (State.dropColLine s c n).boot = s.boot ∧ (State.dropColLine s c n).pwr = s.pwr ∧ (State.dropColLine s c n).freeCtr = s.freeCtr ∧
    (State.dropColLine s c n).sent = s.sent := by
  unfold State.dropColLine
  (try dsimp only)
  (repeat' split) <;> (have hk1 := @State.modColumn_keeps; simp [hk1, State.KeepsOuter, State.KeepsInner, State.KeepsCore])

theorem State.hitLine_keeps (s : State) (c : ColumnIx) (l : ColLine) (write : Bool) (addr : Nat) (size : Nat) (data : List Byte) :
    s.KeepsOuter (State.hitLine s c l write addr size data).1 ∧ s.KeepsInner (State.hitLine s c l write addr size data).1 ∧
    (State.hitLine s c l write addr size data).1.regs = s.regs ∧ (State.hitLine s c l write addr size data).1.mem = s.mem ∧
    (State.hitLine s c l write addr size data).1.beat = s.beat ∧ (State.hitLine s c l write addr size data).1.lanes = s.lanes ∧
    (State.hitLine s c l write addr size data).1.line = s.line ∧ (State.hitLine s c l write addr size data).1.ports = s.ports ∧
    (State.hitLine s c l write addr size data).1.tun = s.tun ∧ (State.hitLine s c l write addr size data).1.cav = s.cav ∧
    (State.hitLine s c l write addr size data).1.sched = s.sched ∧ (State.hitLine s c l write addr size data).1.geode = s.geode ∧
    (State.hitLine s c l write addr size data).1.boot = s.boot ∧ (State.hitLine s c l write addr size data).1.pwr = s.pwr ∧
    (State.hitLine s c l write addr size data).1.freeCtr = s.freeCtr ∧ (State.hitLine s c l write addr size data).1.sent = s.sent := by
  unfold State.hitLine
  (try dsimp only)
  (repeat' split) <;> (have hk1 := @State.setColLine_keeps; simp [hk1, State.KeepsOuter, State.KeepsInner, State.KeepsCore])

theorem State.colAccess_keeps (s : State) (m : Master) (c : ColumnIx) (write : Bool) (addr : Nat) (size : Nat) (data : List Byte) :
    s.KeepsOuter (State.colAccess s m c write addr size data).1 ∧ s.KeepsInner (State.colAccess s m c write addr size data).1 ∧
    (State.colAccess s m c write addr size data).1.beat = s.beat ∧ (State.colAccess s m c write addr size data).1.lanes = s.lanes ∧
    (State.colAccess s m c write addr size data).1.line = s.line ∧ (State.colAccess s m c write addr size data).1.ports = s.ports ∧
    (State.colAccess s m c write addr size data).1.tun = s.tun ∧ (State.colAccess s m c write addr size data).1.sched = s.sched ∧
    (State.colAccess s m c write addr size data).1.geode = s.geode ∧ (State.colAccess s m c write addr size data).1.boot = s.boot ∧
    (State.colAccess s m c write addr size data).1.pwr = s.pwr ∧ (State.colAccess s m c write addr size data).1.sent = s.sent := by
  unfold State.colAccess
  (try dsimp only)
  (repeat' split) <;> (have hk1 := @State.busError_keeps; have hk2 := @State.dropColLine_keeps; have hk3 := @State.hitLine_keeps; have hk4 := @State.memSpace_keeps; have hk5 := @State.setColLine_keeps; simp [hk1, hk2, hk3, hk4, hk5, State.KeepsOuter, State.KeepsInner, State.KeepsCore])

theorem State.cached_keeps (s : State) (m : Master) (c : ColumnIx) (write : Bool) (addr : Nat) (size : Nat) (data : List Byte) :
    s.KeepsOuter (State.cached s m c write addr size data).1 ∧ s.KeepsInner (State.cached s m c write addr size data).1 ∧
    (State.cached s m c write addr size data).1.beat = s.beat ∧ (State.cached s m c write addr size data).1.lanes = s.lanes ∧
    (State.cached s m c write addr size data).1.line = s.line ∧ (State.cached s m c write addr size data).1.ports = s.ports ∧
    (State.cached s m c write addr size data).1.tun = s.tun ∧ (State.cached s m c write addr size data).1.sched = s.sched ∧
    (State.cached s m c write addr size data).1.geode = s.geode ∧ (State.cached s m c write addr size data).1.boot = s.boot ∧
    (State.cached s m c write addr size data).1.pwr = s.pwr ∧ (State.cached s m c write addr size data).1.sent = s.sent := by
  unfold State.cached
  (try dsimp only)
  (repeat' split) <;> (have hk1 := @State.busError_keeps; have hk2 := @State.colAccess_keeps; simp [hk1, hk2, State.KeepsOuter, State.KeepsInner, State.KeepsCore])

theorem State.checked_keeps (s : State) (m : Master) (kind : AccessKind) (addr : Nat) (size : Nat) (data : List Byte) :
    (State.checked s m kind addr size data).1.carStatus = s.carStatus ∧ (State.checked s m kind addr size data).1.ticks = s.ticks ∧
    (State.checked s m kind addr size data).1.pending = s.pending := by
  unfold State.checked
  (try dsimp only)
  (repeat' split) <;> (have hk1 := @State.cached_keeps; have hk2 := @State.perform_keeps; have hk3 := @State.pushFault_keeps; simp [hk1, hk2, hk3, State.KeepsOuter, State.KeepsInner, State.KeepsCore])

theorem State.roleAccess_keeps (s : State) (m : Master) (kind : AccessKind) (addr : Nat) (size : Nat) (data : List Byte) (tag : Option EngineTag) :
    (State.roleAccess s m kind addr size data tag).1.carStatus = s.carStatus ∧
    (State.roleAccess s m kind addr size data tag).1.ticks = s.ticks ∧ (State.roleAccess s m kind addr size data tag).1.pending = s.pending := by
  unfold State.roleAccess
  (try dsimp only)
  (repeat' split) <;> (have hk1 := @State.busError_keeps; have hk2 := @State.checked_keeps; have hk3 := @State.zombie_keeps; simp [hk1, hk2, hk3, State.KeepsOuter, State.KeepsInner, State.KeepsCore])

theorem State.access_keeps (s : State) (m : Master) (kind : AccessKind) (addr : Nat) (size : Nat) (data : List Byte) (tag : Option EngineTag) :
    (State.access s m kind addr size data tag).1.carStatus = s.carStatus ∧ (State.access s m kind addr size data tag).1.ticks = s.ticks ∧
    (State.access s m kind addr size data tag).1.pending = s.pending := by
  unfold State.access
  (try dsimp only)
  (repeat' split) <;> (have hk1 := @State.roleAccess_keeps; simp [hk1, State.KeepsOuter, State.KeepsInner, State.KeepsCore])

theorem State.readAccess_keeps (s : State) (m : Master) (addr : Nat) (size : Nat) :
    (State.readAccess s m addr size).1.carStatus = s.carStatus ∧ (State.readAccess s m addr size).1.ticks = s.ticks ∧
    (State.readAccess s m addr size).1.pending = s.pending := by
  unfold State.readAccess
  (try dsimp only)
  (repeat' split) <;> (have hk1 := @State.access_keeps; simp [hk1, State.KeepsOuter, State.KeepsInner, State.KeepsCore])

theorem State.writeAccess_keeps (s : State) (m : Master) (addr : Nat) (data : Word) :
    (State.writeAccess s m addr data).1.carStatus = s.carStatus ∧ (State.writeAccess s m addr data).1.ticks = s.ticks ∧
    (State.writeAccess s m addr data).1.pending = s.pending := by
  unfold State.writeAccess
  (try dsimp only)
  (repeat' split) <;> (have hk1 := @State.access_keeps; simp [hk1, State.KeepsOuter, State.KeepsInner, State.KeepsCore])

theorem State.answered_keeps (x : State × Answer) (m : Master) :
    x.1.KeepsOuter (State.answered x m) ∧ x.1.KeepsInner (State.answered x m) ∧ x.1.KeepsCore (State.answered x m) ∧
    (State.answered x m).mem = x.1.mem ∧ (State.answered x m).ports = x.1.ports ∧ (State.answered x m).cav = x.1.cav ∧
    (State.answered x m).geode = x.1.geode ∧ (State.answered x m).freeCtr = x.1.freeCtr := by
  unfold State.answered
  (try dsimp only)
  (repeat' split) <;> (have hk1 := @State.busError_keeps; simp [hk1, State.KeepsOuter, State.KeepsInner, State.KeepsCore])

theorem State.command_keeps (s : State) (m : Master) (addr : Nat) (data : Word) :
    (State.command s m addr data).carStatus = s.carStatus ∧ (State.command s m addr data).ticks = s.ticks ∧
    (State.command s m addr data).pending = s.pending := by
  unfold State.command
  (try dsimp only)
  (repeat' split) <;> (have hk1 := @State.answered_keeps; have hk2 := @State.writeAccess_keeps; simp [hk1, hk2, State.KeepsOuter, State.KeepsInner, State.KeepsCore])

theorem State.commandN_keeps (s : State) (m : Master) (addr : Nat) (data : Nat) :
    (State.commandN s m addr data).carStatus = s.carStatus ∧ (State.commandN s m addr data).ticks = s.ticks ∧
    (State.commandN s m addr data).pending = s.pending := by
  unfold State.commandN
  (try dsimp only)
  (repeat' split) <;> (have hk1 := @State.command_keeps; simp [hk1, State.KeepsOuter, State.KeepsInner, State.KeepsCore])

theorem State.dropOldRk_keeps (s : State) (t : TrunkPort) :
    s.KeepsOuter (State.dropOldRk s t) ∧ s.KeepsInner (State.dropOldRk s t) ∧ s.KeepsCore (State.dropOldRk s t) ∧
    (State.dropOldRk s t).regs = s.regs ∧ (State.dropOldRk s t).mem = s.mem ∧ (State.dropOldRk s t).line = s.line ∧
    (State.dropOldRk s t).ports = s.ports ∧ (State.dropOldRk s t).cav = s.cav ∧ (State.dropOldRk s t).freeCtr = s.freeCtr ∧
    (State.dropOldRk s t).sent = s.sent := by
  unfold State.dropOldRk
  (try dsimp only)
  (repeat' split) <;> (have hk1 := @State.modAgent_keeps; have hk2 := @State.zeroKey_keeps; simp [hk1, hk2, State.KeepsOuter, State.KeepsInner, State.KeepsCore])

theorem State.admitPort_keeps (s : State) (t : TrunkPort) :
    s.KeepsOuter (State.admitPort s t) ∧ s.KeepsInner (State.admitPort s t) ∧ s.KeepsCore (State.admitPort s t) ∧
    (State.admitPort s t).mem = s.mem ∧ (State.admitPort s t).line = s.line ∧ (State.admitPort s t).freeCtr = s.freeCtr ∧
    (State.admitPort s t).sent = s.sent := by
  unfold State.admitPort
  (try dsimp only)
  (repeat' split) <;> (have hk1 := @State.dropOldRk_keeps; have hk2 := @State.flushHeld_keeps; have hk3 := @State.modAgent_keeps; simp [hk1, hk2, hk3, State.KeepsOuter, State.KeepsInner, State.KeepsCore])

theorem State.admitted_keeps (s : State) (t : TrunkPort) :
    s.KeepsOuter (State.admitted s t) ∧ s.KeepsInner (State.admitted s t) ∧ s.KeepsCore (State.admitted s t) ∧
    (State.admitted s t).mem = s.mem ∧ (State.admitted s t).line = s.line ∧ (State.admitted s t).freeCtr = s.freeCtr ∧
    (State.admitted s t).sent = s.sent := by
  unfold State.admitted
  (try dsimp only)
  (repeat' split) <;> (have hk1 := @State.admitPort_keeps; have hk2 := @State.sendEcho_keeps; simp [hk1, hk2, State.KeepsOuter, State.KeepsInner, State.KeepsCore])

theorem State.helloArrives_keeps (s : State) (t : TrunkPort) (payload : List Byte) :
    s.KeepsOuter (State.helloArrives s t payload) ∧ s.KeepsCore (State.helloArrives s t payload) ∧
    (State.helloArrives s t payload).mem = s.mem ∧ (State.helloArrives s t payload).line = s.line ∧
    (State.helloArrives s t payload).cav = s.cav ∧ (State.helloArrives s t payload).twin = s.twin ∧
    (State.helloArrives s t payload).acc = s.acc ∧ (State.helloArrives s t payload).usb = s.usb ∧
    (State.helloArrives s t payload).log = s.log ∧ (State.helloArrives s t payload).faultN = s.faultN ∧
    (State.helloArrives s t payload).sent = s.sent := by
  unfold State.helloArrives
  (try dsimp only)
  (repeat' split) <;> (have hk1 := @State.keyBad_keeps; have hk2 := @State.onHello_keeps; simp [hk1, hk2, State.KeepsOuter, State.KeepsInner, State.KeepsCore])

@[simp] theorem State.keyArrives_mem (s : State) (t : TrunkPort) (payload : List Byte) {f : State → State} (h : ∀ t, (f t).mem = t.mem) :
    (State.keyArrives s t payload f).mem = s.mem := by
  unfold State.keyArrives; (try dsimp only); (repeat' split) <;> (have hk1 := @State.creditBack_keeps; have hi := @State.ite_fields; simp [hk1, h, hi])

@[simp] theorem State.keyArrives_heads (s : State) (t : TrunkPort) (payload : List Byte) {f : State → State} (h : ∀ t, (f t).heads = t.heads) :
    (State.keyArrives s t payload f).heads = s.heads := by
  unfold State.keyArrives; (try dsimp only); (repeat' split) <;> (have hk1 := @State.creditBack_keeps; have hi := @State.ite_fields; simp [hk1, h, hi])

@[simp] theorem State.keyArrives_beat (s : State) (t : TrunkPort) (payload : List Byte) {f : State → State} (h : ∀ t, (f t).beat = t.beat) :
    (State.keyArrives s t payload f).beat = s.beat := by
  unfold State.keyArrives; (try dsimp only); (repeat' split) <;> (have hk1 := @State.creditBack_keeps; have hi := @State.ite_fields; simp [hk1, h, hi])

@[simp] theorem State.keyArrives_lanes (s : State) (t : TrunkPort) (payload : List Byte) {f : State → State} (h : ∀ t, (f t).lanes = t.lanes) :
    (State.keyArrives s t payload f).lanes = s.lanes := by
  unfold State.keyArrives; (try dsimp only); (repeat' split) <;> (have hk1 := @State.creditBack_keeps; have hi := @State.ite_fields; simp [hk1, h, hi])

@[simp] theorem State.keyArrives_line (s : State) (t : TrunkPort) (payload : List Byte) {f : State → State} (h : ∀ t, (f t).line = t.line) :
    (State.keyArrives s t payload f).line = s.line := by
  unfold State.keyArrives; (try dsimp only); (repeat' split) <;> (have hk1 := @State.creditBack_keeps; have hi := @State.ite_fields; simp [hk1, h, hi])

@[simp] theorem State.keyArrives_echo (s : State) (t : TrunkPort) (payload : List Byte) {f : State → State} (h : ∀ t, (f t).echo = t.echo) :
    (State.keyArrives s t payload f).echo = s.echo := by
  unfold State.keyArrives; (try dsimp only); (repeat' split) <;> (have hk1 := @State.creditBack_keeps; have hi := @State.ite_fields; simp [hk1, h, hi])

@[simp] theorem State.keyArrives_tun (s : State) (t : TrunkPort) (payload : List Byte) {f : State → State} (h : ∀ t, (f t).tun = t.tun) :
    (State.keyArrives s t payload f).tun = s.tun := by
  unfold State.keyArrives; (try dsimp only); (repeat' split) <;> (have hk1 := @State.creditBack_keeps; have hi := @State.ite_fields; simp [hk1, h, hi])

@[simp] theorem State.keyArrives_cav (s : State) (t : TrunkPort) (payload : List Byte) {f : State → State} (h : ∀ t, (f t).cav = t.cav) :
    (State.keyArrives s t payload f).cav = s.cav := by
  unfold State.keyArrives; (try dsimp only); (repeat' split) <;> (have hk1 := @State.creditBack_keeps; have hi := @State.ite_fields; simp [hk1, h, hi])

@[simp] theorem State.keyArrives_sched (s : State) (t : TrunkPort) (payload : List Byte) {f : State → State} (h : ∀ t, (f t).sched = t.sched) :
    (State.keyArrives s t payload f).sched = s.sched := by
  unfold State.keyArrives; (try dsimp only); (repeat' split) <;> (have hk1 := @State.creditBack_keeps; have hi := @State.ite_fields; simp [hk1, h, hi])

@[simp] theorem State.keyArrives_twin (s : State) (t : TrunkPort) (payload : List Byte) {f : State → State} (h : ∀ t, (f t).twin = t.twin) :
    (State.keyArrives s t payload f).twin = s.twin := by
  unfold State.keyArrives; (try dsimp only); (repeat' split) <;> (have hk1 := @State.creditBack_keeps; have hi := @State.ite_fields; simp [hk1, h, hi])

@[simp] theorem State.keyArrives_eng (s : State) (t : TrunkPort) (payload : List Byte) {f : State → State} (h : ∀ t, (f t).eng = t.eng) :
    (State.keyArrives s t payload f).eng = s.eng := by
  unfold State.keyArrives; (try dsimp only); (repeat' split) <;> (have hk1 := @State.creditBack_keeps; have hi := @State.ite_fields; simp [hk1, h, hi])

@[simp] theorem State.keyArrives_acc (s : State) (t : TrunkPort) (payload : List Byte) {f : State → State} (h : ∀ t, (f t).acc = t.acc) :
    (State.keyArrives s t payload f).acc = s.acc := by
  unfold State.keyArrives; (try dsimp only); (repeat' split) <;> (have hk1 := @State.creditBack_keeps; have hi := @State.ite_fields; simp [hk1, h, hi])

@[simp] theorem State.keyArrives_geode (s : State) (t : TrunkPort) (payload : List Byte) {f : State → State} (h : ∀ t, (f t).geode = t.geode) :
    (State.keyArrives s t payload f).geode = s.geode := by
  unfold State.keyArrives; (try dsimp only); (repeat' split) <;> (have hk1 := @State.creditBack_keeps; have hi := @State.ite_fields; simp [hk1, h, hi])

@[simp] theorem State.keyArrives_boot (s : State) (t : TrunkPort) (payload : List Byte) {f : State → State} (h : ∀ t, (f t).boot = t.boot) :
    (State.keyArrives s t payload f).boot = s.boot := by
  unfold State.keyArrives; (try dsimp only); (repeat' split) <;> (have hk1 := @State.creditBack_keeps; have hi := @State.ite_fields; simp [hk1, h, hi])

@[simp] theorem State.keyArrives_pwr (s : State) (t : TrunkPort) (payload : List Byte) {f : State → State} (h : ∀ t, (f t).pwr = t.pwr) :
    (State.keyArrives s t payload f).pwr = s.pwr := by
  unfold State.keyArrives; (try dsimp only); (repeat' split) <;> (have hk1 := @State.creditBack_keeps; have hi := @State.ite_fields; simp [hk1, h, hi])

@[simp] theorem State.keyArrives_usb (s : State) (t : TrunkPort) (payload : List Byte) {f : State → State} (h : ∀ t, (f t).usb = t.usb) :
    (State.keyArrives s t payload f).usb = s.usb := by
  unfold State.keyArrives; (try dsimp only); (repeat' split) <;> (have hk1 := @State.creditBack_keeps; have hi := @State.ite_fields; simp [hk1, h, hi])

@[simp] theorem State.keyArrives_pd (s : State) (t : TrunkPort) (payload : List Byte) {f : State → State} (h : ∀ t, (f t).pd = t.pd) :
    (State.keyArrives s t payload f).pd = s.pd := by
  unfold State.keyArrives; (try dsimp only); (repeat' split) <;> (have hk1 := @State.creditBack_keeps; have hi := @State.ite_fields; simp [hk1, h, hi])

@[simp] theorem State.keyArrives_mon (s : State) (t : TrunkPort) (payload : List Byte) {f : State → State} (h : ∀ t, (f t).mon = t.mon) :
    (State.keyArrives s t payload f).mon = s.mon := by
  unfold State.keyArrives; (try dsimp only); (repeat' split) <;> (have hk1 := @State.creditBack_keeps; have hi := @State.ite_fields; simp [hk1, h, hi])

@[simp] theorem State.keyArrives_log (s : State) (t : TrunkPort) (payload : List Byte) {f : State → State} (h : ∀ t, (f t).log = t.log) :
    (State.keyArrives s t payload f).log = s.log := by
  unfold State.keyArrives; (try dsimp only); (repeat' split) <;> (have hk1 := @State.creditBack_keeps; have hi := @State.ite_fields; simp [hk1, h, hi])

@[simp] theorem State.keyArrives_faultN (s : State) (t : TrunkPort) (payload : List Byte) {f : State → State} (h : ∀ t, (f t).faultN = t.faultN) :
    (State.keyArrives s t payload f).faultN = s.faultN := by
  unfold State.keyArrives; (try dsimp only); (repeat' split) <;> (have hk1 := @State.creditBack_keeps; have hi := @State.ite_fields; simp [hk1, h, hi])

@[simp] theorem State.keyArrives_carStatus (s : State) (t : TrunkPort) (payload : List Byte) {f : State → State} (h : ∀ t, (f t).carStatus = t.carStatus) :
    (State.keyArrives s t payload f).carStatus = s.carStatus := by
  unfold State.keyArrives; (try dsimp only); (repeat' split) <;> (have hk1 := @State.creditBack_keeps; have hi := @State.ite_fields; simp [hk1, h, hi])

@[simp] theorem State.keyArrives_ticks (s : State) (t : TrunkPort) (payload : List Byte) {f : State → State} (h : ∀ t, (f t).ticks = t.ticks) :
    (State.keyArrives s t payload f).ticks = s.ticks := by
  unfold State.keyArrives; (try dsimp only); (repeat' split) <;> (have hk1 := @State.creditBack_keeps; have hi := @State.ite_fields; simp [hk1, h, hi])

@[simp] theorem State.keyArrives_freeCtr (s : State) (t : TrunkPort) (payload : List Byte) {f : State → State} (h : ∀ t, (f t).freeCtr = t.freeCtr) :
    (State.keyArrives s t payload f).freeCtr = s.freeCtr := by
  unfold State.keyArrives; (try dsimp only); (repeat' split) <;> (have hk1 := @State.creditBack_keeps; have hi := @State.ite_fields; simp [hk1, h, hi])

@[simp] theorem State.keyArrives_sent (s : State) (t : TrunkPort) (payload : List Byte) {f : State → State} (h : ∀ t, (f t).sent = t.sent) :
    (State.keyArrives s t payload f).sent = s.sent := by
  unfold State.keyArrives; (try dsimp only); (repeat' split) <;> (have hk1 := @State.creditBack_keeps; have hi := @State.ite_fields; simp [hk1, h, hi])

@[simp] theorem State.keyArrives_pending (s : State) (t : TrunkPort) (payload : List Byte) {f : State → State} (h : ∀ t, (f t).pending = t.pending) :
    (State.keyArrives s t payload f).pending = s.pending := by
  unfold State.keyArrives; (try dsimp only); (repeat' split) <;> (have hk1 := @State.creditBack_keeps; have hi := @State.ite_fields; simp [hk1, h, hi])

theorem State.onFinish_keeps (s : State) (t : TrunkPort) (payload : List Byte) :
    s.KeepsOuter (State.onFinish s t payload) ∧ s.KeepsInner (State.onFinish s t payload) ∧ s.KeepsCore (State.onFinish s t payload) ∧
    (State.onFinish s t payload).mem = s.mem ∧ (State.onFinish s t payload).line = s.line ∧
    (State.onFinish s t payload).freeCtr = s.freeCtr ∧ (State.onFinish s t payload).sent = s.sent := by
  unfold State.onFinish
  (try dsimp only)
  (repeat' split) <;> (have hk1 := @State.admitted_keeps; have hk2 := @State.dropOldRk_keeps; have hk3 := @State.installTx_keeps; have hk4 := @State.modAgent_keeps; have hk5 := @State.sendFail_keeps; simp [hk1, hk2, hk3, hk4, hk5, State.KeepsOuter, State.KeepsInner, State.KeepsCore])

theorem State.finishArrives_keeps (s : State) (t : TrunkPort) (payload : List Byte) :
    s.KeepsOuter (State.finishArrives s t payload) ∧ s.KeepsCore (State.finishArrives s t payload) ∧
    (State.finishArrives s t payload).mem = s.mem ∧ (State.finishArrives s t payload).line = s.line ∧
    (State.finishArrives s t payload).twin = s.twin ∧ (State.finishArrives s t payload).acc = s.acc ∧
    (State.finishArrives s t payload).usb = s.usb ∧ (State.finishArrives s t payload).log = s.log ∧
    (State.finishArrives s t payload).faultN = s.faultN ∧ (State.finishArrives s t payload).freeCtr = s.freeCtr ∧
    (State.finishArrives s t payload).sent = s.sent := by
  unfold State.finishArrives
  (try dsimp only)
  (repeat' split) <;> (have hk1 := @State.keyBad_keeps; have hk2 := @State.onFinish_keeps; simp [hk1, hk2, State.KeepsOuter, State.KeepsInner, State.KeepsCore])

theorem State.onResume_keeps (s : State) (t : TrunkPort) (rk : BitVec 8) (payload : List Byte) :
    s.KeepsOuter (State.onResume s t rk payload) ∧ s.KeepsInner (State.onResume s t rk payload) ∧
    s.KeepsCore (State.onResume s t rk payload) ∧ (State.onResume s t rk payload).mem = s.mem ∧
    (State.onResume s t rk payload).line = s.line ∧ (State.onResume s t rk payload).sent = s.sent := by
  unfold State.onResume
  (try dsimp only)
  (repeat' split) <;> (have hk1 := @State.admitted_keeps; have hk2 := @State.deriveLinkKeys_keeps; have hk3 := @State.installTx_keeps; have hk4 := @State.sendFail_keeps; have hk5 := @State.sendResume_keeps; simp [hk1, hk2, hk3, hk4, hk5, State.KeepsOuter, State.KeepsInner, State.KeepsCore])

theorem State.takeResume_keeps (s : State) (t : TrunkPort) (payload : List Byte) :
    s.KeepsOuter (State.takeResume s t payload) ∧ s.KeepsInner (State.takeResume s t payload) ∧
    s.KeepsCore (State.takeResume s t payload) ∧ (State.takeResume s t payload).mem = s.mem ∧
    (State.takeResume s t payload).line = s.line ∧ (State.takeResume s t payload).sent = s.sent := by
  unfold State.takeResume
  (try dsimp only)
  (repeat' split) <;> (have hk1 := @State.onResume_keeps; have hk2 := @State.sendHello_keeps; simp [hk1, hk2, State.KeepsOuter, State.KeepsInner, State.KeepsCore])

theorem State.resumeArrives_keeps (s : State) (t : TrunkPort) (payload : List Byte) :
    s.KeepsOuter (State.resumeArrives s t payload) ∧ s.KeepsCore (State.resumeArrives s t payload) ∧
    (State.resumeArrives s t payload).mem = s.mem ∧ (State.resumeArrives s t payload).line = s.line ∧
    (State.resumeArrives s t payload).twin = s.twin ∧ (State.resumeArrives s t payload).acc = s.acc ∧
    (State.resumeArrives s t payload).usb = s.usb ∧ (State.resumeArrives s t payload).log = s.log ∧
    (State.resumeArrives s t payload).faultN = s.faultN ∧ (State.resumeArrives s t payload).sent = s.sent := by
  unfold State.resumeArrives
  (try dsimp only)
  (repeat' split) <;> (have hk1 := @State.admitted_keeps; have hk2 := @State.keyBad_keeps; have hk3 := @State.takeResume_keeps; simp [hk1, hk2, hk3, State.KeepsOuter, State.KeepsInner, State.KeepsCore])

theorem State.failArrives_keeps (s : State) (t : TrunkPort) (payload : List Byte) :
    s.KeepsOuter (State.failArrives s t payload) ∧ s.KeepsCore (State.failArrives s t payload) ∧
    (State.failArrives s t payload).mem = s.mem ∧ (State.failArrives s t payload).line = s.line ∧
    (State.failArrives s t payload).cav = s.cav ∧ (State.failArrives s t payload).twin = s.twin ∧
    (State.failArrives s t payload).acc = s.acc ∧ (State.failArrives s t payload).usb = s.usb ∧
    (State.failArrives s t payload).log = s.log ∧ (State.failArrives s t payload).faultN = s.faultN ∧
    (State.failArrives s t payload).freeCtr = s.freeCtr ∧ (State.failArrives s t payload).sent = s.sent := by
  unfold State.failArrives
  (try dsimp only)
  (repeat' split) <;> (have hk1 := @State.authFailed_keeps; have hk2 := @State.keyBad_keeps; simp [hk1, hk2, State.KeepsOuter, State.KeepsInner, State.KeepsCore])

theorem State.onKey_keeps (s : State) (t : TrunkPort) (payload : List Byte) :
    s.KeepsOuter (State.onKey s t payload) ∧ s.KeepsCore (State.onKey s t payload) ∧ (State.onKey s t payload).mem = s.mem ∧
    (State.onKey s t payload).line = s.line ∧ (State.onKey s t payload).twin = s.twin ∧ (State.onKey s t payload).acc = s.acc ∧
    (State.onKey s t payload).usb = s.usb ∧ (State.onKey s t payload).log = s.log ∧ (State.onKey s t payload).faultN = s.faultN ∧
    (State.onKey s t payload).sent = s.sent := by
  unfold State.onKey
  (try dsimp only)
  (repeat' split) <;> (have hk1 := @State.failArrives_keeps; have hk2 := @State.finishArrives_keeps; have hk3 := @State.helloArrives_keeps; have hk4 := @State.keyBad_keeps; have hk5 := @State.resumeArrives_keeps; simp [hk1, hk2, hk3, hk4, hk5, State.KeepsOuter, State.KeepsInner, State.KeepsCore])

theorem State.sendSync_keeps (s : State) (p : LinkPort) (a : Assoc) :
    s.KeepsOuter (State.sendSync s p a) ∧ s.KeepsInner (State.sendSync s p a) ∧ s.KeepsCore (State.sendSync s p a) ∧
    (State.sendSync s p a).regs = s.regs ∧ (State.sendSync s p a).mem = s.mem ∧ (State.sendSync s p a).ports = s.ports ∧
    (State.sendSync s p a).cav = s.cav ∧ (State.sendSync s p a).freeCtr = s.freeCtr := by
  unfold State.sendSync
  (try dsimp only)
  (repeat' split) <;> (have hk1 := @State.setCtr_keeps; simp [hk1, State.KeepsOuter, State.KeepsInner, State.KeepsCore])

theorem State.onSync_keeps (s : State) (p : LinkPort) (payload : List Byte) :
    s.KeepsOuter (State.onSync s p payload) ∧ s.KeepsInner (State.onSync s p payload) ∧ s.KeepsCore (State.onSync s p payload) ∧
    (State.onSync s p payload).mem = s.mem ∧ (State.onSync s p payload).line = s.line ∧ (State.onSync s p payload).ports = s.ports ∧
    (State.onSync s p payload).cav = s.cav ∧ (State.onSync s p payload).freeCtr = s.freeCtr ∧ (State.onSync s p payload).sent = s.sent := by
  unfold State.onSync
  (try dsimp only)
  (repeat' split) <;> (have hk1 := @State.keyBad_keeps; have hk2 := @State.setCtr_keeps; simp [hk1, hk2, State.KeepsOuter, State.KeepsInner, State.KeepsCore])

theorem State.takeRecord_keeps (s : State) (r : HubRecord) :
    s.KeepsOuter (State.takeRecord s r) ∧ s.KeepsCore (State.takeRecord s r) ∧ (State.takeRecord s r).regs = s.regs ∧
    (State.takeRecord s r).mem = s.mem ∧ (State.takeRecord s r).line = s.line ∧ (State.takeRecord s r).ports = s.ports ∧
    (State.takeRecord s r).cav = s.cav ∧ (State.takeRecord s r).twin = s.twin ∧ (State.takeRecord s r).acc = s.acc ∧
    (State.takeRecord s r).geode = s.geode ∧ (State.takeRecord s r).usb = s.usb ∧ (State.takeRecord s r).log = s.log ∧
    (State.takeRecord s r).faultN = s.faultN ∧ (State.takeRecord s r).freeCtr = s.freeCtr ∧ (State.takeRecord s r).sent = s.sent := by
  unfold State.takeRecord
  (try dsimp only)
  (repeat' split) <;> simp [State.KeepsOuter, State.KeepsInner, State.KeepsCore]

theorem State.holdAnn_keeps (s : State) (a : Announcement) :
    s.KeepsOuter (State.holdAnn s a) ∧ s.KeepsCore (State.holdAnn s a) ∧ (State.holdAnn s a).mem = s.mem ∧
    (State.holdAnn s a).line = s.line ∧ (State.holdAnn s a).cav = s.cav ∧ (State.holdAnn s a).twin = s.twin ∧
    (State.holdAnn s a).acc = s.acc ∧ (State.holdAnn s a).geode = s.geode ∧ (State.holdAnn s a).usb = s.usb ∧
    (State.holdAnn s a).log = s.log ∧ (State.holdAnn s a).faultN = s.faultN ∧ (State.holdAnn s a).freeCtr = s.freeCtr ∧
    (State.holdAnn s a).sent = s.sent := by
  unfold State.holdAnn
  (try dsimp only)
  (repeat' split) <;> (have hk1 := @State.adoptSlot_keeps; have hk2 := @State.sendEchoAll_keeps; simp [hk1, hk2, State.KeepsOuter, State.KeepsInner, State.KeepsCore])

theorem State.takeAnnouncement_keeps (s : State) (e : EchoPayload) :
    s.KeepsOuter (State.takeAnnouncement s e) ∧ s.KeepsCore (State.takeAnnouncement s e) ∧ (State.takeAnnouncement s e).mem = s.mem ∧
    (State.takeAnnouncement s e).line = s.line ∧ (State.takeAnnouncement s e).cav = s.cav ∧ (State.takeAnnouncement s e).twin = s.twin ∧
    (State.takeAnnouncement s e).acc = s.acc ∧ (State.takeAnnouncement s e).geode = s.geode ∧ (State.takeAnnouncement s e).usb = s.usb ∧
    (State.takeAnnouncement s e).log = s.log ∧ (State.takeAnnouncement s e).faultN = s.faultN ∧
    (State.takeAnnouncement s e).freeCtr = s.freeCtr ∧ (State.takeAnnouncement s e).sent = s.sent := by
  unfold State.takeAnnouncement
  (try dsimp only)
  (repeat' split) <;> (have hk1 := @State.holdAnn_keeps; simp [hk1, State.KeepsOuter, State.KeepsInner, State.KeepsCore])

theorem State.stepPend_keeps (s : State) :
    s.KeepsOuter (State.stepPend s) ∧ s.KeepsInner (State.stepPend s) ∧ (State.stepPend s).regs = s.regs ∧ (State.stepPend s).mem = s.mem ∧
    (State.stepPend s).lanes = s.lanes ∧ (State.stepPend s).line = s.line ∧ (State.stepPend s).ports = s.ports ∧
    (State.stepPend s).tun = s.tun ∧ (State.stepPend s).cav = s.cav ∧ (State.stepPend s).sched = s.sched ∧ (State.stepPend s).eng = s.eng ∧
    (State.stepPend s).geode = s.geode ∧ (State.stepPend s).boot = s.boot ∧ (State.stepPend s).pwr = s.pwr ∧
    (State.stepPend s).freeCtr = s.freeCtr ∧ (State.stepPend s).sent = s.sent := by
  unfold State.stepPend
  (try dsimp only)
  (repeat' split) <;> simp [State.KeepsOuter, State.KeepsInner, State.KeepsCore]

theorem State.replaceMerge_keeps (s : State) (m : Merge) (x : Merge) :
    s.KeepsOuter (State.replaceMerge s m x) ∧ s.KeepsCore (State.replaceMerge s m x) ∧ (State.replaceMerge s m x).regs = s.regs ∧
    (State.replaceMerge s m x).mem = s.mem ∧ (State.replaceMerge s m x).line = s.line ∧ (State.replaceMerge s m x).ports = s.ports ∧
    (State.replaceMerge s m x).cav = s.cav ∧ (State.replaceMerge s m x).twin = s.twin ∧ (State.replaceMerge s m x).acc = s.acc ∧
    (State.replaceMerge s m x).geode = s.geode ∧ (State.replaceMerge s m x).usb = s.usb ∧ (State.replaceMerge s m x).log = s.log ∧
    (State.replaceMerge s m x).faultN = s.faultN ∧ (State.replaceMerge s m x).freeCtr = s.freeCtr ∧
    (State.replaceMerge s m x).sent = s.sent := by
  unfold State.replaceMerge
  (try dsimp only)
  (repeat' split) <;> (have hk1 := @State.setMerges_keeps; simp [hk1, State.KeepsOuter, State.KeepsInner, State.KeepsCore])

theorem State.tryFill_keeps (s : State) (t : TrunkPort) (m : Merge) :
    s.KeepsOuter (State.tryFill s t m) ∧ s.KeepsCore (State.tryFill s t m) ∧ (State.tryFill s t m).regs = s.regs ∧
    (State.tryFill s t m).mem = s.mem ∧ (State.tryFill s t m).line = s.line ∧ (State.tryFill s t m).cav = s.cav ∧
    (State.tryFill s t m).twin = s.twin ∧ (State.tryFill s t m).acc = s.acc ∧ (State.tryFill s t m).geode = s.geode ∧
    (State.tryFill s t m).usb = s.usb ∧ (State.tryFill s t m).log = s.log ∧ (State.tryFill s t m).faultN = s.faultN ∧
    (State.tryFill s t m).freeCtr = s.freeCtr ∧ (State.tryFill s t m).sent = s.sent := by
  unfold State.tryFill
  (try dsimp only)
  (repeat' split) <;> (have hk1 := @State.replaceMerge_keeps; have hk2 := @State.sendEchoAll_keeps; simp [hk1, hk2, State.KeepsOuter, State.KeepsInner, State.KeepsCore])

theorem State.stepSide_keeps (s : State) :
    s.KeepsOuter (State.stepSide s) ∧ s.KeepsInner (State.stepSide s) ∧ (State.stepSide s).regs = s.regs ∧ (State.stepSide s).mem = s.mem ∧
    (State.stepSide s).lanes = s.lanes ∧ (State.stepSide s).line = s.line ∧ (State.stepSide s).ports = s.ports ∧
    (State.stepSide s).tun = s.tun ∧ (State.stepSide s).cav = s.cav ∧ (State.stepSide s).sched = s.sched ∧ (State.stepSide s).eng = s.eng ∧
    (State.stepSide s).geode = s.geode ∧ (State.stepSide s).boot = s.boot ∧ (State.stepSide s).pwr = s.pwr ∧
    (State.stepSide s).freeCtr = s.freeCtr ∧ (State.stepSide s).sent = s.sent := by
  unfold State.stepSide
  (try dsimp only)
  (repeat' split) <;> (have hk1 := @State.stepPend_keeps; simp [hk1, State.KeepsOuter, State.KeepsInner, State.KeepsCore])

theorem State.takeCancel_keeps (s : State) (r : MergeRecord) :
    s.KeepsOuter (State.takeCancel s r) ∧ s.KeepsCore (State.takeCancel s r) ∧ (State.takeCancel s r).mem = s.mem ∧
    (State.takeCancel s r).line = s.line ∧ (State.takeCancel s r).cav = s.cav ∧ (State.takeCancel s r).twin = s.twin ∧
    (State.takeCancel s r).acc = s.acc ∧ (State.takeCancel s r).geode = s.geode ∧ (State.takeCancel s r).usb = s.usb ∧
    (State.takeCancel s r).log = s.log ∧ (State.takeCancel s r).faultN = s.faultN ∧ (State.takeCancel s r).freeCtr = s.freeCtr ∧
    (State.takeCancel s r).sent = s.sent := by
  unfold State.takeCancel
  (try dsimp only)
  (repeat' split) <;> (have hk1 := @State.replaceMerge_keeps; have hk2 := @State.sendEchoAll_keeps; have hk3 := @State.setMerges_keeps; simp [hk1, hk2, hk3, State.KeepsOuter, State.KeepsInner, State.KeepsCore])

theorem State.takeMerge_keeps (s : State) (t : TrunkPort) (r : MergeRecord) (assigns : List SlotAssign) :
    s.KeepsOuter (State.takeMerge s t r assigns) ∧ (State.takeMerge s t r assigns).regs = s.regs ∧
    (State.takeMerge s t r assigns).mem = s.mem ∧ (State.takeMerge s t r assigns).lanes = s.lanes ∧
    (State.takeMerge s t r assigns).line = s.line ∧ (State.takeMerge s t r assigns).tun = s.tun ∧
    (State.takeMerge s t r assigns).cav = s.cav ∧ (State.takeMerge s t r assigns).sched = s.sched ∧
    (State.takeMerge s t r assigns).twin = s.twin ∧ (State.takeMerge s t r assigns).eng = s.eng ∧
    (State.takeMerge s t r assigns).acc = s.acc ∧ (State.takeMerge s t r assigns).geode = s.geode ∧
    (State.takeMerge s t r assigns).boot = s.boot ∧ (State.takeMerge s t r assigns).pwr = s.pwr ∧
    (State.takeMerge s t r assigns).usb = s.usb ∧ (State.takeMerge s t r assigns).log = s.log ∧
    (State.takeMerge s t r assigns).faultN = s.faultN ∧ (State.takeMerge s t r assigns).freeCtr = s.freeCtr ∧
    (State.takeMerge s t r assigns).sent = s.sent := by
  unfold State.takeMerge
  (try dsimp only)
  (repeat' split) <;> (have hk1 := @State.replaceMerge_keeps; have hk2 := @State.sendEchoAll_keeps; have hk3 := @State.setMerges_keeps; have hk4 := @State.stepSide_keeps; have hk5 := @State.tryFill_keeps; simp [hk1, hk2, hk3, hk4, hk5, State.KeepsOuter, State.KeepsInner, State.KeepsCore])

theorem State.onMerge_keeps (s : State) (t : TrunkPort) (e : EchoPayload) :
    s.KeepsOuter (State.onMerge s t e) ∧ (State.onMerge s t e).mem = s.mem ∧ (State.onMerge s t e).lanes = s.lanes ∧
    (State.onMerge s t e).line = s.line ∧ (State.onMerge s t e).tun = s.tun ∧ (State.onMerge s t e).cav = s.cav ∧
    (State.onMerge s t e).sched = s.sched ∧ (State.onMerge s t e).twin = s.twin ∧ (State.onMerge s t e).eng = s.eng ∧
    (State.onMerge s t e).acc = s.acc ∧ (State.onMerge s t e).geode = s.geode ∧ (State.onMerge s t e).boot = s.boot ∧
    (State.onMerge s t e).pwr = s.pwr ∧ (State.onMerge s t e).usb = s.usb ∧ (State.onMerge s t e).log = s.log ∧
    (State.onMerge s t e).faultN = s.faultN ∧ (State.onMerge s t e).freeCtr = s.freeCtr ∧ (State.onMerge s t e).sent = s.sent := by
  unfold State.onMerge
  (try dsimp only)
  (repeat' split) <;> (have hk1 := @State.takeCancel_keeps; have hk2 := @State.takeMerge_keeps; simp [hk1, hk2, State.KeepsOuter, State.KeepsInner, State.KeepsCore])

theorem State.takeEcho_keeps (s : State) (t : TrunkPort) (e : EchoPayload) :
    s.KeepsOuter (State.takeEcho s t e) ∧ (State.takeEcho s t e).mem = s.mem ∧ (State.takeEcho s t e).lanes = s.lanes ∧
    (State.takeEcho s t e).line = s.line ∧ (State.takeEcho s t e).tun = s.tun ∧ (State.takeEcho s t e).cav = s.cav ∧
    (State.takeEcho s t e).sched = s.sched ∧ (State.takeEcho s t e).twin = s.twin ∧ (State.takeEcho s t e).eng = s.eng ∧
    (State.takeEcho s t e).acc = s.acc ∧ (State.takeEcho s t e).geode = s.geode ∧ (State.takeEcho s t e).boot = s.boot ∧
    (State.takeEcho s t e).pwr = s.pwr ∧ (State.takeEcho s t e).usb = s.usb ∧ (State.takeEcho s t e).log = s.log ∧
    (State.takeEcho s t e).faultN = s.faultN ∧ (State.takeEcho s t e).freeCtr = s.freeCtr ∧ (State.takeEcho s t e).sent = s.sent := by
  unfold State.takeEcho
  (try dsimp only)
  (repeat' split) <;> (have hk1 := @State.onMerge_keeps; have hk2 := @State.takeAnnouncement_keeps; have hk3 := @State.takeRecord_keeps; simp [hk1, hk2, hk3, State.KeepsOuter, State.KeepsInner, State.KeepsCore])

theorem State.onEcho_keeps (s : State) (t : TrunkPort) (payload : List Byte) :
    s.KeepsOuter (State.onEcho s t payload) ∧ (State.onEcho s t payload).mem = s.mem ∧ (State.onEcho s t payload).lanes = s.lanes ∧
    (State.onEcho s t payload).line = s.line ∧ (State.onEcho s t payload).tun = s.tun ∧ (State.onEcho s t payload).cav = s.cav ∧
    (State.onEcho s t payload).sched = s.sched ∧ (State.onEcho s t payload).twin = s.twin ∧ (State.onEcho s t payload).eng = s.eng ∧
    (State.onEcho s t payload).acc = s.acc ∧ (State.onEcho s t payload).geode = s.geode ∧ (State.onEcho s t payload).boot = s.boot ∧
    (State.onEcho s t payload).pwr = s.pwr ∧ (State.onEcho s t payload).usb = s.usb ∧ (State.onEcho s t payload).log = s.log ∧
    (State.onEcho s t payload).faultN = s.faultN ∧ (State.onEcho s t payload).freeCtr = s.freeCtr ∧
    (State.onEcho s t payload).sent = s.sent := by
  unfold State.onEcho
  (try dsimp only)
  (repeat' split) <;> (have hk1 := @State.takeEcho_keeps; simp [hk1, State.KeepsOuter, State.KeepsInner, State.KeepsCore])

theorem State.closeWindow_keeps (s : State) (t : TrunkPort) :
    s.KeepsOuter (State.closeWindow s t) ∧ s.KeepsCore (State.closeWindow s t) ∧ (State.closeWindow s t).mem = s.mem ∧
    (State.closeWindow s t).line = s.line ∧ (State.closeWindow s t).twin = s.twin ∧ (State.closeWindow s t).acc = s.acc ∧
    (State.closeWindow s t).usb = s.usb ∧ (State.closeWindow s t).log = s.log ∧ (State.closeWindow s t).faultN = s.faultN ∧
    (State.closeWindow s t).freeCtr = s.freeCtr ∧ (State.closeWindow s t).sent = s.sent := by
  unfold State.closeWindow
  (try dsimp only)
  (repeat' split) <;> (have hk1 := @State.admitted_keeps; simp [hk1, State.KeepsOuter, State.KeepsInner, State.KeepsCore])

theorem State.takeBeat_keeps (s : State) (t : TrunkPort) (hops : BitVec 6) (hold : Bool) (ofs : BitVec 10) (late : Int) :
    s.KeepsOuter (State.takeBeat s t hops hold ofs late) ∧ s.KeepsInner (State.takeBeat s t hops hold ofs late) ∧
    (State.takeBeat s t hops hold ofs late).regs = s.regs ∧ (State.takeBeat s t hops hold ofs late).mem = s.mem ∧
    (State.takeBeat s t hops hold ofs late).lanes = s.lanes ∧ (State.takeBeat s t hops hold ofs late).line = s.line ∧
    (State.takeBeat s t hops hold ofs late).ports = s.ports ∧ (State.takeBeat s t hops hold ofs late).tun = s.tun ∧
    (State.takeBeat s t hops hold ofs late).cav = s.cav ∧ (State.takeBeat s t hops hold ofs late).sched = s.sched ∧
    (State.takeBeat s t hops hold ofs late).eng = s.eng ∧ (State.takeBeat s t hops hold ofs late).geode = s.geode ∧
    (State.takeBeat s t hops hold ofs late).boot = s.boot ∧ (State.takeBeat s t hops hold ofs late).pwr = s.pwr ∧
    (State.takeBeat s t hops hold ofs late).freeCtr = s.freeCtr ∧ (State.takeBeat s t hops hold ofs late).sent = s.sent := by
  unfold State.takeBeat
  (try dsimp only)
  (repeat' split) <;> simp [State.KeepsOuter, State.KeepsInner, State.KeepsCore]

theorem State.measureBeat_keeps (s : State) (t : TrunkPort) (num : Word) (ofs : BitVec 10) (late : Int) :
    s.KeepsOuter (State.measureBeat s t num ofs late) ∧ s.KeepsInner (State.measureBeat s t num ofs late) ∧
    (State.measureBeat s t num ofs late).regs = s.regs ∧ (State.measureBeat s t num ofs late).mem = s.mem ∧
    (State.measureBeat s t num ofs late).lanes = s.lanes ∧ (State.measureBeat s t num ofs late).line = s.line ∧
    (State.measureBeat s t num ofs late).ports = s.ports ∧ (State.measureBeat s t num ofs late).tun = s.tun ∧
    (State.measureBeat s t num ofs late).cav = s.cav ∧ (State.measureBeat s t num ofs late).sched = s.sched ∧
    (State.measureBeat s t num ofs late).eng = s.eng ∧ (State.measureBeat s t num ofs late).geode = s.geode ∧
    (State.measureBeat s t num ofs late).boot = s.boot ∧ (State.measureBeat s t num ofs late).pwr = s.pwr ∧
    (State.measureBeat s t num ofs late).freeCtr = s.freeCtr ∧ (State.measureBeat s t num ofs late).sent = s.sent := by
  unfold State.measureBeat
  (try dsimp only)
  (repeat' split) <;> simp [State.KeepsOuter, State.KeepsInner, State.KeepsCore]

theorem State.becomeMaster_keeps (s : State) :
    s.KeepsOuter (State.becomeMaster s) ∧ (State.becomeMaster s).mem = s.mem ∧ (State.becomeMaster s).lanes = s.lanes ∧
    (State.becomeMaster s).line = s.line ∧ (State.becomeMaster s).ports = s.ports ∧ (State.becomeMaster s).tun = s.tun ∧
    (State.becomeMaster s).cav = s.cav ∧ (State.becomeMaster s).sched = s.sched ∧ (State.becomeMaster s).twin = s.twin ∧
    (State.becomeMaster s).eng = s.eng ∧ (State.becomeMaster s).acc = s.acc ∧ (State.becomeMaster s).geode = s.geode ∧
    (State.becomeMaster s).boot = s.boot ∧ (State.becomeMaster s).pwr = s.pwr ∧ (State.becomeMaster s).usb = s.usb ∧
    (State.becomeMaster s).log = s.log ∧ (State.becomeMaster s).faultN = s.faultN ∧ (State.becomeMaster s).freeCtr = s.freeCtr ∧
    (State.becomeMaster s).sent = s.sent := by
  unfold State.becomeMaster
  (try dsimp only)
  (repeat' split) <;> (have hk1 := @State.assignWhileForming_keeps; have hk2 := @State.newMaster_keeps; simp [hk1, hk2, State.KeepsOuter, State.KeepsInner, State.KeepsCore])

theorem State.becomeFollower_keeps (s : State) :
    s.KeepsOuter (State.becomeFollower s) ∧ s.KeepsInner (State.becomeFollower s) ∧ (State.becomeFollower s).regs = s.regs ∧
    (State.becomeFollower s).mem = s.mem ∧ (State.becomeFollower s).lanes = s.lanes ∧ (State.becomeFollower s).line = s.line ∧
    (State.becomeFollower s).ports = s.ports ∧ (State.becomeFollower s).tun = s.tun ∧ (State.becomeFollower s).cav = s.cav ∧
    (State.becomeFollower s).sched = s.sched ∧ (State.becomeFollower s).eng = s.eng ∧ (State.becomeFollower s).geode = s.geode ∧
    (State.becomeFollower s).boot = s.boot ∧ (State.becomeFollower s).pwr = s.pwr ∧ (State.becomeFollower s).freeCtr = s.freeCtr ∧
    (State.becomeFollower s).sent = s.sent := by
  unfold State.becomeFollower
  (try dsimp only)
  (repeat' split) <;> simp [State.KeepsOuter, State.KeepsInner, State.KeepsCore]

theorem State.takeRole_keeps (s : State) :
    s.KeepsOuter (State.takeRole s) ∧ (State.takeRole s).mem = s.mem ∧ (State.takeRole s).lanes = s.lanes ∧
    (State.takeRole s).line = s.line ∧ (State.takeRole s).ports = s.ports ∧ (State.takeRole s).tun = s.tun ∧
    (State.takeRole s).cav = s.cav ∧ (State.takeRole s).sched = s.sched ∧ (State.takeRole s).twin = s.twin ∧
    (State.takeRole s).eng = s.eng ∧ (State.takeRole s).acc = s.acc ∧ (State.takeRole s).geode = s.geode ∧
    (State.takeRole s).boot = s.boot ∧ (State.takeRole s).pwr = s.pwr ∧ (State.takeRole s).usb = s.usb ∧ (State.takeRole s).log = s.log ∧
    (State.takeRole s).faultN = s.faultN ∧ (State.takeRole s).freeCtr = s.freeCtr ∧ (State.takeRole s).sent = s.sent := by
  unfold State.takeRole
  (try dsimp only)
  (repeat' split) <;> (have hk1 := @State.becomeMaster_keeps; have hk2 := @State.newMaster_keeps; simp [hk1, hk2, State.KeepsOuter, State.KeepsInner, State.KeepsCore])

theorem State.raiseTo_keeps (s : State) (pep : BitVec 4) (beat : Beat) :
    s.KeepsOuter (State.raiseTo s pep beat) ∧ (State.raiseTo s pep beat).mem = s.mem ∧ (State.raiseTo s pep beat).beat = s.beat ∧
    (State.raiseTo s pep beat).lanes = s.lanes ∧ (State.raiseTo s pep beat).line = s.line ∧ (State.raiseTo s pep beat).cav = s.cav ∧
    (State.raiseTo s pep beat).sched = s.sched ∧ (State.raiseTo s pep beat).twin = s.twin ∧ (State.raiseTo s pep beat).eng = s.eng ∧
    (State.raiseTo s pep beat).acc = s.acc ∧ (State.raiseTo s pep beat).geode = s.geode ∧ (State.raiseTo s pep beat).boot = s.boot ∧
    (State.raiseTo s pep beat).pwr = s.pwr ∧ (State.raiseTo s pep beat).usb = s.usb ∧ (State.raiseTo s pep beat).log = s.log ∧
    (State.raiseTo s pep beat).faultN = s.faultN ∧ (State.raiseTo s pep beat).freeCtr = s.freeCtr ∧
    (State.raiseTo s pep beat).sent = s.sent := by
  unfold State.raiseTo
  (try dsimp only)
  (repeat' split) <;> (have hk1 := @State.deriveRoutes_keeps; simp [hk1, State.KeepsOuter, State.KeepsInner, State.KeepsCore])

theorem State.countSplit_keeps (s : State) :
    s.KeepsOuter (State.countSplit s) ∧ s.KeepsCore (State.countSplit s) ∧ (State.countSplit s).mem = s.mem ∧
    (State.countSplit s).line = s.line ∧ (State.countSplit s).ports = s.ports ∧ (State.countSplit s).cav = s.cav ∧
    (State.countSplit s).twin = s.twin ∧ (State.countSplit s).acc = s.acc ∧ (State.countSplit s).geode = s.geode ∧
    (State.countSplit s).usb = s.usb ∧ (State.countSplit s).log = s.log ∧ (State.countSplit s).faultN = s.faultN ∧
    (State.countSplit s).freeCtr = s.freeCtr ∧ (State.countSplit s).sent = s.sent := by
  unfold State.countSplit
  (try dsimp only)
  (repeat' split) <;> simp [State.KeepsOuter, State.KeepsInner, State.KeepsCore]

theorem State.renumber_keeps (s : State) (ofs : Nat) :
    s.KeepsOuter (State.renumber s ofs) ∧ s.KeepsInner (State.renumber s ofs) ∧ (State.renumber s ofs).mem = s.mem ∧
    (State.renumber s ofs).lanes = s.lanes ∧ (State.renumber s ofs).line = s.line ∧ (State.renumber s ofs).ports = s.ports ∧
    (State.renumber s ofs).tun = s.tun ∧ (State.renumber s ofs).cav = s.cav ∧ (State.renumber s ofs).sched = s.sched ∧
    (State.renumber s ofs).geode = s.geode ∧ (State.renumber s ofs).boot = s.boot ∧ (State.renumber s ofs).pwr = s.pwr ∧
    (State.renumber s ofs).freeCtr = s.freeCtr ∧ (State.renumber s ofs).sent = s.sent := by
  unfold State.renumber
  (try dsimp only)
  (repeat' split) <;> simp [State.KeepsOuter, State.KeepsInner, State.KeepsCore]

theorem State.recordStep_keeps (s : State) (merged : Nat) (ofs : Nat) :
    s.KeepsOuter (State.recordStep s merged ofs) ∧ s.KeepsInner (State.recordStep s merged ofs) ∧
    (State.recordStep s merged ofs).mem = s.mem ∧ (State.recordStep s merged ofs).lanes = s.lanes ∧
    (State.recordStep s merged ofs).line = s.line ∧ (State.recordStep s merged ofs).ports = s.ports ∧
    (State.recordStep s merged ofs).tun = s.tun ∧ (State.recordStep s merged ofs).cav = s.cav ∧
    (State.recordStep s merged ofs).sched = s.sched ∧ (State.recordStep s merged ofs).eng = s.eng ∧
    (State.recordStep s merged ofs).geode = s.geode ∧ (State.recordStep s merged ofs).boot = s.boot ∧
    (State.recordStep s merged ofs).pwr = s.pwr ∧ (State.recordStep s merged ofs).freeCtr = s.freeCtr ∧
    (State.recordStep s merged ofs).sent = s.sent := by
  unfold State.recordStep
  (try dsimp only)
  (repeat' split) <;> simp [State.KeepsOuter, State.KeepsInner, State.KeepsCore]

theorem State.takeSlot_keeps (s : State) (l : List SlotAssign) :
    s.KeepsOuter (State.takeSlot s l) ∧ s.KeepsInner (State.takeSlot s l) ∧ s.KeepsCore (State.takeSlot s l) ∧
    (State.takeSlot s l).mem = s.mem ∧ (State.takeSlot s l).line = s.line ∧ (State.takeSlot s l).ports = s.ports ∧
    (State.takeSlot s l).cav = s.cav ∧ (State.takeSlot s l).geode = s.geode ∧ (State.takeSlot s l).freeCtr = s.freeCtr ∧
    (State.takeSlot s l).sent = s.sent := by
  unfold State.takeSlot
  (try dsimp only)
  (repeat' split) <;> (have hk1 := @State.adoptSlot_keeps; simp [hk1, State.KeepsOuter, State.KeepsInner, State.KeepsCore])

theorem State.moveEntry_keeps (s : State) (k : Nat) (ep : EpId) :
    s.KeepsOuter (State.moveEntry s k ep) ∧ s.KeepsInner (State.moveEntry s k ep) ∧ (State.moveEntry s k ep).regs = s.regs ∧
    (State.moveEntry s k ep).mem = s.mem ∧ (State.moveEntry s k ep).beat = s.beat ∧ (State.moveEntry s k ep).lanes = s.lanes ∧
    (State.moveEntry s k ep).line = s.line ∧ (State.moveEntry s k ep).ports = s.ports ∧ (State.moveEntry s k ep).cav = s.cav ∧
    (State.moveEntry s k ep).sched = s.sched ∧ (State.moveEntry s k ep).eng = s.eng ∧ (State.moveEntry s k ep).geode = s.geode ∧
    (State.moveEntry s k ep).boot = s.boot ∧ (State.moveEntry s k ep).pwr = s.pwr ∧ (State.moveEntry s k ep).sent = s.sent := by
  unfold State.moveEntry
  (try dsimp only)
  (repeat' split) <;> (have hk1 := @State.writeEntry_keeps; simp [hk1, State.KeepsOuter, State.KeepsInner, State.KeepsCore])

theorem State.moveSlots_keeps (s : State) (l : List SlotAssign) :
    s.KeepsOuter (State.moveSlots s l) ∧ s.KeepsInner (State.moveSlots s l) ∧ (State.moveSlots s l).regs = s.regs ∧
    (State.moveSlots s l).mem = s.mem ∧ (State.moveSlots s l).beat = s.beat ∧ (State.moveSlots s l).lanes = s.lanes ∧
    (State.moveSlots s l).line = s.line ∧ (State.moveSlots s l).ports = s.ports ∧ (State.moveSlots s l).cav = s.cav ∧
    (State.moveSlots s l).sched = s.sched ∧ (State.moveSlots s l).eng = s.eng ∧ (State.moveSlots s l).geode = s.geode ∧
    (State.moveSlots s l).boot = s.boot ∧ (State.moveSlots s l).pwr = s.pwr ∧ (State.moveSlots s l).sent = s.sent := by
  (have hk1 := @State.moveEntry_keeps; have hi := @State.ite_fields; simp [hk1, State.moveSlots, hi, State.KeepsOuter, State.KeepsInner, State.KeepsCore])

theorem State.takeMergeSlots_keeps (s : State) (m : Merge) :
    s.KeepsOuter (State.takeMergeSlots s m) ∧ s.KeepsInner (State.takeMergeSlots s m) ∧ (State.takeMergeSlots s m).mem = s.mem ∧
    (State.takeMergeSlots s m).beat = s.beat ∧ (State.takeMergeSlots s m).lanes = s.lanes ∧ (State.takeMergeSlots s m).line = s.line ∧
    (State.takeMergeSlots s m).ports = s.ports ∧ (State.takeMergeSlots s m).cav = s.cav ∧ (State.takeMergeSlots s m).sched = s.sched ∧
    (State.takeMergeSlots s m).eng = s.eng ∧ (State.takeMergeSlots s m).geode = s.geode ∧ (State.takeMergeSlots s m).boot = s.boot ∧
    (State.takeMergeSlots s m).pwr = s.pwr ∧ (State.takeMergeSlots s m).sent = s.sent := by
  unfold State.takeMergeSlots
  (try dsimp only)
  (repeat' split) <;> (have hk1 := @State.moveSlots_keeps; have hk2 := @State.takeSlot_keeps; simp [hk1, hk2, State.KeepsOuter, State.KeepsInner, State.KeepsCore])

theorem State.leaveStep_keeps (s : State) :
    s.KeepsOuter (State.leaveStep s) ∧ (State.leaveStep s).mem = s.mem ∧ (State.leaveStep s).lanes = s.lanes ∧
    (State.leaveStep s).line = s.line ∧ (State.leaveStep s).ports = s.ports ∧ (State.leaveStep s).tun = s.tun ∧
    (State.leaveStep s).cav = s.cav ∧ (State.leaveStep s).sched = s.sched ∧ (State.leaveStep s).twin = s.twin ∧
    (State.leaveStep s).eng = s.eng ∧ (State.leaveStep s).acc = s.acc ∧ (State.leaveStep s).geode = s.geode ∧
    (State.leaveStep s).boot = s.boot ∧ (State.leaveStep s).pwr = s.pwr ∧ (State.leaveStep s).usb = s.usb ∧
    (State.leaveStep s).log = s.log ∧ (State.leaveStep s).faultN = s.faultN ∧ (State.leaveStep s).freeCtr = s.freeCtr ∧
    (State.leaveStep s).sent = s.sent := by
  unfold State.leaveStep
  (try dsimp only)
  (repeat' split) <;> (have hk1 := @State.becomeFollower_keeps; have hk2 := @State.becomeMaster_keeps; simp [hk1, hk2, State.KeepsOuter, State.KeepsInner, State.KeepsCore])

theorem State.merged_keeps (s : State) (m : Merge) (ms : List Merge) (beat : Nat) (ofs : Nat) :
    s.KeepsOuter (State.merged s m ms beat ofs) ∧ (State.merged s m ms beat ofs).mem = s.mem ∧
    (State.merged s m ms beat ofs).lanes = s.lanes ∧ (State.merged s m ms beat ofs).line = s.line ∧
    (State.merged s m ms beat ofs).cav = s.cav ∧ (State.merged s m ms beat ofs).sched = s.sched ∧
    (State.merged s m ms beat ofs).twin = s.twin ∧ (State.merged s m ms beat ofs).eng = s.eng ∧
    (State.merged s m ms beat ofs).acc = s.acc ∧ (State.merged s m ms beat ofs).geode = s.geode ∧
    (State.merged s m ms beat ofs).boot = s.boot ∧ (State.merged s m ms beat ofs).pwr = s.pwr ∧
    (State.merged s m ms beat ofs).usb = s.usb ∧ (State.merged s m ms beat ofs).log = s.log ∧
    (State.merged s m ms beat ofs).faultN = s.faultN ∧ (State.merged s m ms beat ofs).sent = s.sent := by
  unfold State.merged
  (try dsimp only)
  (repeat' split) <;> (have hk1 := @State.announce_keeps; have hk2 := @State.announceMove_keeps; have hk3 := @State.assignWhileForming_keeps; have hk4 := @State.leaveStep_keeps; have hk5 := @State.raiseTo_keeps; have hk6 := @State.sendEchoAll_keeps; have hk7 := @State.setMaster_keeps; have hk8 := @State.setMerges_keeps; have hk9 := @State.takeMergeSlots_keeps; simp [hk1, hk2, hk3, hk4, hk5, hk6, hk7, hk8, hk9, State.KeepsOuter, State.KeepsInner, State.KeepsCore])

theorem State.stepMerged_keeps (s : State) (m : Merge) (big : Nat) :
    s.KeepsOuter (State.stepMerged s m big) ∧ s.KeepsInner (State.stepMerged s m big) ∧ (State.stepMerged s m big).mem = s.mem ∧
    (State.stepMerged s m big).lanes = s.lanes ∧ (State.stepMerged s m big).line = s.line ∧ (State.stepMerged s m big).ports = s.ports ∧
    (State.stepMerged s m big).tun = s.tun ∧ (State.stepMerged s m big).cav = s.cav ∧ (State.stepMerged s m big).sched = s.sched ∧
    (State.stepMerged s m big).geode = s.geode ∧ (State.stepMerged s m big).boot = s.boot ∧ (State.stepMerged s m big).pwr = s.pwr ∧
    (State.stepMerged s m big).freeCtr = s.freeCtr ∧ (State.stepMerged s m big).sent = s.sent := by
  unfold State.stepMerged
  (try dsimp only)
  (repeat' split) <;> (have hk1 := @State.recordStep_keeps; have hk2 := @State.renumber_keeps; simp [hk1, hk2, State.KeepsOuter, State.KeepsInner, State.KeepsCore])

theorem State.bootWrite_keeps (s : State) (addr : Nat) (w : Word) :
    (State.bootWrite s addr w).1.carStatus = s.carStatus ∧ (State.bootWrite s addr w).1.ticks = s.ticks ∧
    (State.bootWrite s addr w).1.pending = s.pending := by
  unfold State.bootWrite
  (try dsimp only)
  (repeat' split) <;> (have hk1 := @State.busError_keeps; have hk2 := @State.writeAccess_keeps; simp [hk1, hk2, State.KeepsOuter, State.KeepsInner, State.KeepsCore])

theorem State.initOne_keeps (s : State) (r : InitRecord) :
    (State.initOne s r).1.carStatus = s.carStatus ∧ (State.initOne s r).1.ticks = s.ticks ∧ (State.initOne s r).1.pending = s.pending := by
  unfold State.initOne
  (try dsimp only)
  (repeat' split) <;> (have hk1 := @State.bootWrite_keeps; have hk2 := @State.readAccess_keeps; simp [hk1, hk2, State.KeepsOuter, State.KeepsInner, State.KeepsCore])

theorem State.initFrom_keeps (s : State) (i : Nat) (retry : Bool) (y1 : List InitRecord) :
    (State.initFrom s i retry y1).state.carStatus = s.carStatus ∧ (State.initFrom s i retry y1).state.ticks = s.ticks ∧
    (State.initFrom s i retry y1).state.pending = s.pending := by
  fun_induction State.initFrom s i retry y1 <;> (try simp only [Prod.ext_iff] at *) <;> (try casesm* _ ∧ _) <;> subst_vars <;>
    (have hk1 := @State.initOne_keeps; simp_all +zetaDelta [hk1, State.KeepsOuter, State.KeepsInner, State.KeepsCore])

theorem State.applyGate_keeps (s : State) (g : GateImage) :
    s.KeepsOuter (State.applyGate s g) ∧ s.KeepsInner (State.applyGate s g) ∧ (State.applyGate s g).mem = s.mem ∧
    (State.applyGate s g).lanes = s.lanes ∧ (State.applyGate s g).line = s.line ∧ (State.applyGate s g).ports = s.ports ∧
    (State.applyGate s g).tun = s.tun ∧ (State.applyGate s g).cav = s.cav ∧ (State.applyGate s g).sched = s.sched ∧
    (State.applyGate s g).eng = s.eng ∧ (State.applyGate s g).geode = s.geode ∧ (State.applyGate s g).boot = s.boot ∧
    (State.applyGate s g).pwr = s.pwr ∧ (State.applyGate s g).freeCtr = s.freeCtr ∧ (State.applyGate s g).sent = s.sent := by
  unfold State.applyGate
  (try dsimp only)
  (repeat' split) <;> (have hk1 := @State.wroteGate_keeps; simp [hk1, State.KeepsOuter, State.KeepsInner, State.KeepsCore])

theorem State.putRates_keeps (s : State) (a : Nat) (r : RateSet) :
    s.KeepsOuter (State.putRates s a r) ∧ s.KeepsInner (State.putRates s a r) ∧ s.KeepsCore (State.putRates s a r) ∧
    (State.putRates s a r).mem = s.mem ∧ (State.putRates s a r).line = s.line ∧ (State.putRates s a r).ports = s.ports ∧
    (State.putRates s a r).cav = s.cav ∧ (State.putRates s a r).geode = s.geode ∧ (State.putRates s a r).freeCtr = s.freeCtr ∧
    (State.putRates s a r).sent = s.sent := by
  unfold State.putRates
  (try dsimp only)
  (repeat' split) <;> simp [State.KeepsOuter, State.KeepsInner, State.KeepsCore]

theorem State.applyAllot_keeps (s : State) (r : List Byte) :
    s.KeepsOuter (State.applyAllot s r) ∧ s.KeepsInner (State.applyAllot s r) ∧ (State.applyAllot s r).mem = s.mem ∧
    (State.applyAllot s r).beat = s.beat ∧ (State.applyAllot s r).lanes = s.lanes ∧ (State.applyAllot s r).line = s.line ∧
    (State.applyAllot s r).ports = s.ports ∧ (State.applyAllot s r).tun = s.tun ∧ (State.applyAllot s r).cav = s.cav ∧
    (State.applyAllot s r).eng = s.eng ∧ (State.applyAllot s r).geode = s.geode ∧ (State.applyAllot s r).boot = s.boot ∧
    (State.applyAllot s r).pwr = s.pwr ∧ (State.applyAllot s r).freeCtr = s.freeCtr ∧ (State.applyAllot s r).sent = s.sent := by
  unfold State.applyAllot
  (try dsimp only)
  (repeat' split) <;> (have hk1 := @State.putRates_keeps; simp [hk1, State.KeepsOuter, State.KeepsInner, State.KeepsCore])

theorem State.keyMissing_keeps (s : State) :
    s.KeepsOuter (State.keyMissing s) ∧ s.KeepsInner (State.keyMissing s) ∧ s.KeepsCore (State.keyMissing s) ∧
    (State.keyMissing s).mem = s.mem ∧ (State.keyMissing s).line = s.line ∧ (State.keyMissing s).ports = s.ports ∧
    (State.keyMissing s).cav = s.cav ∧ (State.keyMissing s).geode = s.geode ∧ (State.keyMissing s).freeCtr = s.freeCtr ∧
    (State.keyMissing s).sent = s.sent := by
  unfold State.keyMissing
  (try dsimp only)
  (repeat' split) <;> simp [State.KeepsOuter, State.KeepsInner, State.KeepsCore]

theorem State.applyPolicy_keeps (s0 : State) (r : PolicyRecord) :
    (State.applyPolicy s0 r).carStatus = s0.carStatus ∧ (State.applyPolicy s0 r).ticks = s0.ticks ∧
    (State.applyPolicy s0 r).pending = s0.pending := by
  unfold State.applyPolicy
  (try dsimp only)
  (repeat' split) <;> (have hk1 := @State.command_keeps; have hk2 := @State.keyMissing_keeps; have hk3 := @State.readSlot_keeps; have hk4 := @State.runKey_keeps; simp [hk1, hk2, hk3, hk4, State.KeepsOuter, State.KeepsInner, State.KeepsCore])

theorem State.applyEngines_keeps (s : State) (bs : List Byte) :
    s.KeepsOuter (State.applyEngines s bs) ∧ s.KeepsInner (State.applyEngines s bs) ∧ (State.applyEngines s bs).regs = s.regs ∧
    (State.applyEngines s bs).mem = s.mem ∧ (State.applyEngines s bs).beat = s.beat ∧ (State.applyEngines s bs).lanes = s.lanes ∧
    (State.applyEngines s bs).line = s.line ∧ (State.applyEngines s bs).ports = s.ports ∧ (State.applyEngines s bs).tun = s.tun ∧
    (State.applyEngines s bs).cav = s.cav ∧ (State.applyEngines s bs).sched = s.sched ∧ (State.applyEngines s bs).geode = s.geode ∧
    (State.applyEngines s bs).boot = s.boot ∧ (State.applyEngines s bs).pwr = s.pwr ∧ (State.applyEngines s bs).freeCtr = s.freeCtr ∧
    (State.applyEngines s bs).sent = s.sent := by
  unfold State.applyEngines
  (try dsimp only)
  (repeat' split) <;> simp [State.KeepsOuter, State.KeepsInner, State.KeepsCore]

theorem State.applyFirmware_keeps (s : State) (c : ColumnIx) (f : Firmware) :
    s.KeepsOuter (State.applyFirmware s c f) ∧ s.KeepsInner (State.applyFirmware s c f) ∧ (State.applyFirmware s c f).regs = s.regs ∧
    (State.applyFirmware s c f).beat = s.beat ∧ (State.applyFirmware s c f).lanes = s.lanes ∧ (State.applyFirmware s c f).line = s.line ∧
    (State.applyFirmware s c f).ports = s.ports ∧ (State.applyFirmware s c f).tun = s.tun ∧ (State.applyFirmware s c f).cav = s.cav ∧
    (State.applyFirmware s c f).sched = s.sched ∧ (State.applyFirmware s c f).geode = s.geode ∧ (State.applyFirmware s c f).boot = s.boot ∧
    (State.applyFirmware s c f).pwr = s.pwr ∧ (State.applyFirmware s c f).freeCtr = s.freeCtr ∧ (State.applyFirmware s c f).sent = s.sent := by
  unfold State.applyFirmware
  (try dsimp only)
  (repeat' split) <;> (have hk1 := @State.modColumn_keeps; simp [hk1, State.KeepsOuter, State.KeepsInner, State.KeepsCore])

theorem State.applySeeds_keeps (s : State) (img : Nat → Byte) :
    s.KeepsOuter (State.applySeeds s img) ∧ s.KeepsInner (State.applySeeds s img) ∧ (State.applySeeds s img).regs = s.regs ∧
    (State.applySeeds s img).mem = s.mem ∧ (State.applySeeds s img).beat = s.beat ∧ (State.applySeeds s img).lanes = s.lanes ∧
    (State.applySeeds s img).line = s.line ∧ (State.applySeeds s img).ports = s.ports ∧ (State.applySeeds s img).cav = s.cav ∧
    (State.applySeeds s img).sched = s.sched ∧ (State.applySeeds s img).eng = s.eng ∧ (State.applySeeds s img).geode = s.geode ∧
    (State.applySeeds s img).pwr = s.pwr ∧ (State.applySeeds s img).sent = s.sent := by
  unfold State.applySeeds
  (try dsimp only)
  (repeat' split) <;> (have hk1 := @State.fillCache_keeps; simp [hk1, State.KeepsOuter, State.KeepsInner, State.KeepsCore])

theorem State.loadColumn_keeps (img : Nat → Byte) (s : State) (c : ColumnIx) :
    s.KeepsOuter (State.loadColumn img s c) ∧ s.KeepsInner (State.loadColumn img s c) ∧ (State.loadColumn img s c).regs = s.regs ∧
    (State.loadColumn img s c).beat = s.beat ∧ (State.loadColumn img s c).lanes = s.lanes ∧ (State.loadColumn img s c).line = s.line ∧
    (State.loadColumn img s c).ports = s.ports ∧ (State.loadColumn img s c).tun = s.tun ∧ (State.loadColumn img s c).cav = s.cav ∧
    (State.loadColumn img s c).sched = s.sched ∧ (State.loadColumn img s c).geode = s.geode ∧ (State.loadColumn img s c).boot = s.boot ∧
    (State.loadColumn img s c).pwr = s.pwr ∧ (State.loadColumn img s c).freeCtr = s.freeCtr ∧ (State.loadColumn img s c).sent = s.sent := by
  unfold State.loadColumn
  (try dsimp only)
  (repeat' split) <;> (have hk1 := @State.applyFirmware_keeps; simp [hk1, State.KeepsOuter, State.KeepsInner, State.KeepsCore])

theorem State.applyRest_keeps (s : State) (img : Nat → Byte) :
    (State.applyRest s img).carStatus = s.carStatus ∧ (State.applyRest s img).ticks = s.ticks ∧ (State.applyRest s img).pending = s.pending := by
  unfold State.applyRest
  (try dsimp only)
  (repeat' split) <;> (have hk1 := @State.applyAllot_keeps; have hk2 := @State.applyEngines_keeps; have hk3 := @State.applyGate_keeps; have hk4 := @State.applyPolicy_keeps; have hk5 := @State.applySeeds_keeps; have hk6 := @State.loadColumn_keeps; simp [hk1, hk2, hk3, hk4, hk5, hk6, State.KeepsOuter, State.KeepsInner, State.KeepsCore])

theorem State.applyFrom_keeps (s : State) (img : Nat → Byte) (i : Nat) (retry : Bool) :
    (State.applyFrom s img i retry).carStatus = s.carStatus ∧ (State.applyFrom s img i retry).ticks = s.ticks ∧
    (State.applyFrom s img i retry).pending = s.pending := by
  unfold State.applyFrom
  (try dsimp only)
  (repeat' split) <;> (have hk1 := @State.applyRest_keeps; have hk2 := @State.initFrom_keeps; have hk3 := @State.pendRecovery_keeps; simp [hk1, hk2, hk3, State.KeepsOuter, State.KeepsInner, State.KeepsCore])

theorem State.applyImage_keeps (s : State) (img : Nat → Byte) :
    (State.applyImage s img).carStatus = s.carStatus ∧ (State.applyImage s img).ticks = s.ticks ∧
    (State.applyImage s img).pending = s.pending := by
  unfold State.applyImage
  (try dsimp only)
  (repeat' split) <;> (have hk1 := @State.applyFrom_keeps; have hk2 := @State.pendRecovery_keeps; have hk3 := @State.setStage_keeps; have hk4 := @State.strapDefaults_keeps; simp [hk1, hk2, hk3, hk4, State.KeepsOuter, State.KeepsInner, State.KeepsCore])

theorem State.showHeaders_keeps (s : State) :
    s.KeepsOuter (State.showHeaders s) ∧ s.KeepsInner (State.showHeaders s) ∧ s.KeepsCore (State.showHeaders s) ∧
    (State.showHeaders s).mem = s.mem ∧ (State.showHeaders s).line = s.line ∧ (State.showHeaders s).ports = s.ports ∧
    (State.showHeaders s).cav = s.cav ∧ (State.showHeaders s).geode = s.geode ∧ (State.showHeaders s).freeCtr = s.freeCtr ∧
    (State.showHeaders s).sent = s.sent := by
  unfold State.showHeaders
  (try dsimp only)
  (repeat' split) <;> simp [State.KeepsOuter, State.KeepsInner, State.KeepsCore]

theorem State.choose_keeps (s : State) (c : Fin 3) :
    s.KeepsOuter (State.choose s c) ∧ s.KeepsInner (State.choose s c) ∧ (State.choose s c).mem = s.mem ∧ (State.choose s c).beat = s.beat ∧
    (State.choose s c).lanes = s.lanes ∧ (State.choose s c).line = s.line ∧ (State.choose s c).ports = s.ports ∧
    (State.choose s c).tun = s.tun ∧ (State.choose s c).cav = s.cav ∧ (State.choose s c).sched = s.sched ∧ (State.choose s c).eng = s.eng ∧
    (State.choose s c).geode = s.geode ∧ (State.choose s c).pwr = s.pwr ∧ (State.choose s c).freeCtr = s.freeCtr ∧
    (State.choose s c).sent = s.sent := by
  unfold State.choose
  (try dsimp only)
  (repeat' split) <;> simp [State.KeepsOuter, State.KeepsInner, State.KeepsCore]

theorem State.discardSave_keeps (s : State) :
    (State.discardSave s).carStatus = s.carStatus ∧ (State.discardSave s).ticks = s.ticks ∧ (State.discardSave s).pending = s.pending := by
  unfold State.discardSave
  (try dsimp only)
  (repeat' split) <;> (have hk1 := @State.startReset_keeps; simp [hk1, State.KeepsOuter, State.KeepsInner, State.KeepsCore])

theorem State.useCopy_keeps (s : State) (c : Fin 3) :
    (State.useCopy s c).carStatus = s.carStatus ∧ (State.useCopy s c).ticks = s.ticks ∧ (State.useCopy s c).pending = s.pending := by
  unfold State.useCopy
  (try dsimp only)
  (repeat' split) <;> (have hk1 := @State.applyImage_keeps; have hk2 := @State.choose_keeps; have hk3 := @State.discardSave_keeps; have hk4 := @State.pendRecovery_keeps; simp [hk1, hk2, hk3, hk4, State.KeepsOuter, State.KeepsInner, State.KeepsCore])

theorem State.rejectCopy_keeps (s : State) (c : Fin 3) (f : Nat) :
    s.KeepsOuter (State.rejectCopy s c f) ∧ s.KeepsInner (State.rejectCopy s c f) ∧ (State.rejectCopy s c f).mem = s.mem ∧
    (State.rejectCopy s c f).beat = s.beat ∧ (State.rejectCopy s c f).lanes = s.lanes ∧ (State.rejectCopy s c f).line = s.line ∧
    (State.rejectCopy s c f).ports = s.ports ∧ (State.rejectCopy s c f).tun = s.tun ∧ (State.rejectCopy s c f).cav = s.cav ∧
    (State.rejectCopy s c f).sched = s.sched ∧ (State.rejectCopy s c f).eng = s.eng ∧ (State.rejectCopy s c f).geode = s.geode ∧
    (State.rejectCopy s c f).pwr = s.pwr ∧ (State.rejectCopy s c f).freeCtr = s.freeCtr ∧ (State.rejectCopy s c f).sent = s.sent := by
  unfold State.rejectCopy
  (try dsimp only)
  (repeat' split) <;> (have hk1 := @State.pendRecovery_keeps; simp [hk1, State.KeepsOuter, State.KeepsInner, State.KeepsCore])

theorem State.applied_keeps (s : State) :
    s.KeepsOuter (State.applied s) ∧ s.KeepsInner (State.applied s) ∧ (State.applied s).mem = s.mem ∧ (State.applied s).beat = s.beat ∧
    (State.applied s).lanes = s.lanes ∧ (State.applied s).line = s.line ∧ (State.applied s).ports = s.ports ∧
    (State.applied s).tun = s.tun ∧ (State.applied s).cav = s.cav ∧ (State.applied s).sched = s.sched ∧ (State.applied s).geode = s.geode ∧
    (State.applied s).pwr = s.pwr ∧ (State.applied s).freeCtr = s.freeCtr ∧ (State.applied s).sent = s.sent := by
  (have hk1 := @State.modColumn_keeps; have hk2 := @State.setStage_keeps; have hi := @State.ite_fields; simp [hk1, hk2, State.applied, hi, State.KeepsOuter, State.KeepsInner, State.KeepsCore])

theorem State.eraseCopy_keeps (s : State) (copyB : Bool) :
    s.KeepsOuter (State.eraseCopy s copyB) ∧ s.KeepsInner (State.eraseCopy s copyB) ∧ (State.eraseCopy s copyB).regs = s.regs ∧
    (State.eraseCopy s copyB).mem = s.mem ∧ (State.eraseCopy s copyB).beat = s.beat ∧ (State.eraseCopy s copyB).lanes = s.lanes ∧
    (State.eraseCopy s copyB).line = s.line ∧ (State.eraseCopy s copyB).ports = s.ports ∧ (State.eraseCopy s copyB).tun = s.tun ∧
    (State.eraseCopy s copyB).cav = s.cav ∧ (State.eraseCopy s copyB).sched = s.sched ∧ (State.eraseCopy s copyB).eng = s.eng ∧
    (State.eraseCopy s copyB).geode = s.geode ∧ (State.eraseCopy s copyB).pwr = s.pwr ∧ (State.eraseCopy s copyB).freeCtr = s.freeCtr ∧
    (State.eraseCopy s copyB).sent = s.sent := by
  unfold State.eraseCopy
  (try dsimp only)
  (repeat' split) <;> simp [State.KeepsOuter, State.KeepsInner, State.KeepsCore]

theorem State.programPage_keeps (s : State) (lo : Nat) (bs : List Byte) :
    s.KeepsOuter (State.programPage s lo bs) ∧ s.KeepsInner (State.programPage s lo bs) ∧ (State.programPage s lo bs).regs = s.regs ∧
    (State.programPage s lo bs).mem = s.mem ∧ (State.programPage s lo bs).beat = s.beat ∧ (State.programPage s lo bs).lanes = s.lanes ∧
    (State.programPage s lo bs).line = s.line ∧ (State.programPage s lo bs).ports = s.ports ∧ (State.programPage s lo bs).tun = s.tun ∧
    (State.programPage s lo bs).cav = s.cav ∧ (State.programPage s lo bs).sched = s.sched ∧ (State.programPage s lo bs).eng = s.eng ∧
    (State.programPage s lo bs).geode = s.geode ∧ (State.programPage s lo bs).pwr = s.pwr ∧
    (State.programPage s lo bs).freeCtr = s.freeCtr ∧ (State.programPage s lo bs).sent = s.sent := by
  unfold State.programPage
  (try dsimp only)
  (repeat' split) <;> simp [State.KeepsOuter, State.KeepsInner, State.KeepsCore]

theorem State.readPage_keeps (s : State) (m : Master) (lo : Nat) :
    s.KeepsOuter (State.readPage s m lo) ∧ s.KeepsInner (State.readPage s m lo) ∧ s.KeepsCore (State.readPage s m lo) ∧
    (State.readPage s m lo).mem = s.mem ∧ (State.readPage s m lo).line = s.line ∧ (State.readPage s m lo).ports = s.ports ∧
    (State.readPage s m lo).cav = s.cav ∧ (State.readPage s m lo).geode = s.geode ∧ (State.readPage s m lo).freeCtr = s.freeCtr ∧
    (State.readPage s m lo).sent = s.sent := by
  unfold State.readPage
  (try dsimp only)
  (repeat' split) <;> simp [State.KeepsOuter, State.KeepsInner, State.KeepsCore]

theorem State.verifyCopy_keeps (s : State) (m : Master) (copyB : Bool) :
    s.KeepsOuter (State.verifyCopy s m copyB) ∧ s.KeepsInner (State.verifyCopy s m copyB) ∧ s.KeepsCore (State.verifyCopy s m copyB) ∧
    (State.verifyCopy s m copyB).mem = s.mem ∧ (State.verifyCopy s m copyB).line = s.line ∧ (State.verifyCopy s m copyB).ports = s.ports ∧
    (State.verifyCopy s m copyB).cav = s.cav ∧ (State.verifyCopy s m copyB).geode = s.geode ∧
    (State.verifyCopy s m copyB).freeCtr = s.freeCtr ∧ (State.verifyCopy s m copyB).sent = s.sent := by
  unfold State.verifyCopy
  (try dsimp only)
  (repeat' split) <;> simp [State.KeepsOuter, State.KeepsInner, State.KeepsCore]

theorem State.enterRun_keeps (s : State) :
    s.KeepsOuter (State.enterRun s) ∧ (State.enterRun s).mem = s.mem ∧ (State.enterRun s).beat = s.beat ∧
    (State.enterRun s).lanes = s.lanes ∧ (State.enterRun s).line = s.line ∧ (State.enterRun s).ports = s.ports ∧
    (State.enterRun s).tun = s.tun ∧ (State.enterRun s).sched = s.sched ∧ (State.enterRun s).twin = s.twin ∧
    (State.enterRun s).geode = s.geode ∧ (State.enterRun s).boot = s.boot ∧ (State.enterRun s).pwr = s.pwr ∧
    (State.enterRun s).log = s.log ∧ (State.enterRun s).faultN = s.faultN ∧ (State.enterRun s).sent = s.sent := by
  unfold State.enterRun
  (try dsimp only)
  (repeat' split) <;> (have hk1 := @State.changeMode_keeps; have hk2 := @State.enterLimited_keeps; have hk3 := @State.setStage_keeps; simp [hk1, hk2, hk3, State.KeepsOuter, State.KeepsInner, State.KeepsCore])

theorem State.enterStaged_keeps (s : State) :
    s.KeepsOuter (State.enterStaged s) ∧ (State.enterStaged s).mem = s.mem ∧ (State.enterStaged s).beat = s.beat ∧
    (State.enterStaged s).lanes = s.lanes ∧ (State.enterStaged s).line = s.line ∧ (State.enterStaged s).ports = s.ports ∧
    (State.enterStaged s).echo = s.echo ∧ (State.enterStaged s).tun = s.tun ∧ (State.enterStaged s).sched = s.sched ∧
    (State.enterStaged s).twin = s.twin ∧ (State.enterStaged s).eng = s.eng ∧ (State.enterStaged s).geode = s.geode ∧
    (State.enterStaged s).pwr = s.pwr ∧ (State.enterStaged s).log = s.log ∧ (State.enterStaged s).freeCtr = s.freeCtr ∧
    (State.enterStaged s).sent = s.sent := by
  unfold State.enterStaged
  (try dsimp only)
  (repeat' split) <;> (have hk1 := @State.changeMode_keeps; have hk2 := @State.setStage_keeps; simp [hk1, hk2, State.KeepsOuter, State.KeepsInner, State.KeepsCore])

theorem State.modeHead_keeps (s : State) :
    s.KeepsOuter (State.modeHead s) ∧ (State.modeHead s).mem = s.mem ∧ (State.modeHead s).beat = s.beat ∧
    (State.modeHead s).lanes = s.lanes ∧ (State.modeHead s).line = s.line ∧ (State.modeHead s).ports = s.ports ∧
    (State.modeHead s).tun = s.tun ∧ (State.modeHead s).sched = s.sched ∧ (State.modeHead s).twin = s.twin ∧
    (State.modeHead s).geode = s.geode ∧ (State.modeHead s).pwr = s.pwr ∧ (State.modeHead s).sent = s.sent := by
  unfold State.modeHead
  (try dsimp only)
  (repeat' split) <;> (have hk1 := @State.changeMode_keeps; have hk2 := @State.enterRecovery_keeps; have hk3 := @State.enterRun_keeps; have hk4 := @State.enterStaged_keeps; simp [hk1, hk2, hk3, hk4, State.KeepsOuter, State.KeepsInner, State.KeepsCore])

theorem State.pllHead_keeps (s : State) :
    s.KeepsOuter (State.pllHead s) ∧ s.KeepsInner (State.pllHead s) ∧ (State.pllHead s).mem = s.mem ∧ (State.pllHead s).beat = s.beat ∧
    (State.pllHead s).lanes = s.lanes ∧ (State.pllHead s).line = s.line ∧ (State.pllHead s).sched = s.sched ∧
    (State.pllHead s).eng = s.eng ∧ (State.pllHead s).geode = s.geode ∧ (State.pllHead s).sent = s.sent := by
  unfold State.pllHead
  (try dsimp only)
  (repeat' split) <;> (have hk1 := @State.onPll_keeps; have hk2 := @State.setStage_keeps; have hk3 := @State.wakeMemories_keeps; simp [hk1, hk2, hk3, State.KeepsOuter, State.KeepsInner, State.KeepsCore])

theorem State.settleStep_keeps (s : State) :
    s.KeepsOuter (State.settleStep s) ∧ (State.settleStep s).mem = s.mem ∧ (State.settleStep s).lanes = s.lanes ∧
    (State.settleStep s).line = s.line ∧ (State.settleStep s).tun = s.tun ∧ (State.settleStep s).cav = s.cav ∧
    (State.settleStep s).sched = s.sched ∧ (State.settleStep s).twin = s.twin ∧ (State.settleStep s).eng = s.eng ∧
    (State.settleStep s).acc = s.acc ∧ (State.settleStep s).geode = s.geode ∧ (State.settleStep s).boot = s.boot ∧
    (State.settleStep s).pwr = s.pwr ∧ (State.settleStep s).usb = s.usb ∧ (State.settleStep s).log = s.log ∧
    (State.settleStep s).faultN = s.faultN ∧ (State.settleStep s).freeCtr = s.freeCtr ∧ (State.settleStep s).sent = s.sent := by
  (have hk1 := @State.becomeFollower_keeps; have hk2 := @State.becomeMaster_keeps; have hi := @State.ite_fields; simp [hk1, hk2, State.settleStep, hi, State.KeepsOuter, State.KeepsInner, State.KeepsCore])

theorem State.head1_keeps (s : State) :
    (State.head1 s).mem = s.mem ∧ (State.head1 s).lanes = s.lanes ∧ (State.head1 s).line = s.line ∧ (State.head1 s).twin = s.twin ∧
    (State.head1 s).geode = s.geode ∧ (State.head1 s).pd = s.pd ∧ (State.head1 s).mon = s.mon ∧ (State.head1 s).carStatus = s.carStatus ∧
    (State.head1 s).ticks = s.ticks ∧ (State.head1 s).sent = s.sent ∧ (State.head1 s).pending = s.pending := by
  unfold State.head1
  (try dsimp only)
  (repeat' split) <;> (have hk1 := @State.modeHead_keeps; have hk2 := @State.pllHead_keeps; have hk3 := @State.settleStep_keeps; simp [hk1, hk2, hk3, State.KeepsOuter, State.KeepsInner, State.KeepsCore])

theorem State.head23_keeps (s : State) :
    s.KeepsOuter (State.head23 s) ∧ s.KeepsInner (State.head23 s) ∧ (State.head23 s).mem = s.mem ∧ (State.head23 s).tun = s.tun ∧
    (State.head23 s).eng = s.eng ∧ (State.head23 s).boot = s.boot ∧ (State.head23 s).pwr = s.pwr := by
  unfold State.head23
  (try dsimp only)
  (repeat' split) <;> (have hk1 := @State.applyDue_keeps; have hk2 := @State.applyFirst_keeps; simp [hk1, hk2, State.KeepsOuter, State.KeepsInner, State.KeepsCore])

theorem State.refillOne_keeps (s : State) (tok : Nat) (rate : Nat) (size : Nat) :
    s.KeepsOuter (State.refillOne s tok rate size) ∧ s.KeepsInner (State.refillOne s tok rate size) ∧
    s.KeepsCore (State.refillOne s tok rate size) ∧ (State.refillOne s tok rate size).mem = s.mem ∧
    (State.refillOne s tok rate size).line = s.line ∧ (State.refillOne s tok rate size).ports = s.ports ∧
    (State.refillOne s tok rate size).cav = s.cav ∧ (State.refillOne s tok rate size).geode = s.geode ∧
    (State.refillOne s tok rate size).freeCtr = s.freeCtr ∧ (State.refillOne s tok rate size).sent = s.sent := by
  unfold State.refillOne
  (try dsimp only)
  (repeat' split) <;> simp [State.KeepsOuter, State.KeepsInner, State.KeepsCore]

theorem State.refillClass_keeps (s : State) (p : Nat) (c : Nat) :
    s.KeepsOuter (State.refillClass s p c) ∧ s.KeepsInner (State.refillClass s p c) ∧ s.KeepsCore (State.refillClass s p c) ∧
    (State.refillClass s p c).mem = s.mem ∧ (State.refillClass s p c).line = s.line ∧ (State.refillClass s p c).ports = s.ports ∧
    (State.refillClass s p c).cav = s.cav ∧ (State.refillClass s p c).geode = s.geode ∧ (State.refillClass s p c).freeCtr = s.freeCtr ∧
    (State.refillClass s p c).sent = s.sent := by
  unfold State.refillClass
  (try dsimp only)
  (repeat' split) <;> (have hk1 := @State.refillOne_keeps; simp [hk1, State.KeepsOuter, State.KeepsInner, State.KeepsCore])

theorem State.head4_keeps (s : State) :
    s.KeepsOuter (State.head4 s) ∧ s.KeepsInner (State.head4 s) ∧ s.KeepsCore (State.head4 s) ∧ (State.head4 s).mem = s.mem ∧
    (State.head4 s).line = s.line ∧ (State.head4 s).ports = s.ports ∧ (State.head4 s).cav = s.cav ∧ (State.head4 s).geode = s.geode ∧
    (State.head4 s).freeCtr = s.freeCtr ∧ (State.head4 s).sent = s.sent := by
  unfold State.head4
  (try dsimp only)
  (repeat' split) <;> (have hk1 := @State.refillClass_keeps; simp [hk1, State.KeepsOuter, State.KeepsInner, State.KeepsCore])

theorem State.switchBank_keeps (s : State) :
    s.KeepsOuter (State.switchBank s) ∧ s.KeepsInner (State.switchBank s) ∧ s.KeepsCore (State.switchBank s) ∧
    (State.switchBank s).mem = s.mem ∧ (State.switchBank s).line = s.line ∧ (State.switchBank s).ports = s.ports ∧
    (State.switchBank s).cav = s.cav ∧ (State.switchBank s).geode = s.geode ∧ (State.switchBank s).freeCtr = s.freeCtr ∧
    (State.switchBank s).sent = s.sent := by
  unfold State.switchBank
  (try dsimp only)
  (repeat' split) <;> simp [State.KeepsOuter, State.KeepsInner, State.KeepsCore]

theorem State.head5_keeps (s : State) :
    s.KeepsOuter (State.head5 s) ∧ s.KeepsCore (State.head5 s) ∧ (State.head5 s).mem = s.mem ∧ (State.head5 s).line = s.line ∧
    (State.head5 s).ports = s.ports ∧ (State.head5 s).echo = s.echo ∧ (State.head5 s).cav = s.cav ∧ (State.head5 s).twin = s.twin ∧
    (State.head5 s).geode = s.geode ∧ (State.head5 s).usb = s.usb ∧ (State.head5 s).log = s.log ∧ (State.head5 s).faultN = s.faultN ∧
    (State.head5 s).freeCtr = s.freeCtr ∧ (State.head5 s).sent = s.sent := by
  unfold State.head5
  (try dsimp only)
  (repeat' split) <;> (have hk1 := @State.switchBank_keeps; simp [hk1, State.KeepsOuter, State.KeepsInner, State.KeepsCore])

theorem State.restartColumn_keeps (s : State) (c : ColumnIx) :
    s.KeepsOuter (State.restartColumn s c) ∧ s.KeepsInner (State.restartColumn s c) ∧ (State.restartColumn s c).regs = s.regs ∧
    (State.restartColumn s c).mem = s.mem ∧ (State.restartColumn s c).beat = s.beat ∧ (State.restartColumn s c).lanes = s.lanes ∧
    (State.restartColumn s c).line = s.line ∧ (State.restartColumn s c).ports = s.ports ∧ (State.restartColumn s c).tun = s.tun ∧
    (State.restartColumn s c).cav = s.cav ∧ (State.restartColumn s c).sched = s.sched ∧ (State.restartColumn s c).geode = s.geode ∧
    (State.restartColumn s c).boot = s.boot ∧ (State.restartColumn s c).pwr = s.pwr ∧ (State.restartColumn s c).freeCtr = s.freeCtr ∧
    (State.restartColumn s c).sent = s.sent := by
  unfold State.restartColumn
  (try dsimp only)
  (repeat' split) <;> (have hk1 := @State.modColumn_keeps; simp [hk1, State.KeepsOuter, State.KeepsInner, State.KeepsCore])

theorem State.admitFollows_keeps (s : State) (before : Nat) :
    s.KeepsOuter (State.admitFollows s before) ∧ s.KeepsCore (State.admitFollows s before) ∧ (State.admitFollows s before).mem = s.mem ∧
    (State.admitFollows s before).line = s.line ∧ (State.admitFollows s before).ports = s.ports ∧
    (State.admitFollows s before).echo = s.echo ∧ (State.admitFollows s before).cav = s.cav ∧ (State.admitFollows s before).twin = s.twin ∧
    (State.admitFollows s before).acc = s.acc ∧ (State.admitFollows s before).geode = s.geode ∧ (State.admitFollows s before).log = s.log ∧
    (State.admitFollows s before).faultN = s.faultN ∧ (State.admitFollows s before).freeCtr = s.freeCtr ∧
    (State.admitFollows s before).sent = s.sent := by
  unfold State.admitFollows
  (try dsimp only)
  (repeat' split) <;> (have hk1 := @State.sessionConfig_keeps; simp [hk1, State.KeepsOuter, State.KeepsInner, State.KeepsCore])

theorem State.head8_keeps (s : State) :
    (State.head8 s).mem = s.mem ∧ (State.head8 s).heads = s.heads ∧ (State.head8 s).lanes = s.lanes ∧ (State.head8 s).cav = s.cav ∧
    (State.head8 s).twin = s.twin ∧ (State.head8 s).acc = s.acc ∧ (State.head8 s).geode = s.geode ∧ (State.head8 s).boot = s.boot ∧
    (State.head8 s).mon = s.mon ∧ (State.head8 s).carStatus = s.carStatus ∧ (State.head8 s).ticks = s.ticks ∧
    (State.head8 s).freeCtr = s.freeCtr ∧ (State.head8 s).pending = s.pending := by
  unfold State.head8
  (try dsimp only)
  (repeat' split) <;> (have hk1 := @State.admitFollows_keeps; have hk2 := @State.engineHead_keeps; have hk3 := @State.passSupervision_keeps; have hk4 := @State.restartColumn_keeps; have hk5 := @State.resumeEcho_keeps; have hk6 := @State.sendDueCaps_keeps; have hk7 := @State.sendErdy_keeps; have hk8 := @State.takeSupervision_keeps; simp [hk1, hk2, hk3, hk4, hk5, hk6, hk7, hk8, State.KeepsOuter, State.KeepsInner, State.KeepsCore])

theorem State.sendBeat_keeps (s : State) (p : LinkPort) :
    s.KeepsOuter (State.sendBeat s p) ∧ s.KeepsInner (State.sendBeat s p) ∧ s.KeepsCore (State.sendBeat s p) ∧
    (State.sendBeat s p).regs = s.regs ∧ (State.sendBeat s p).mem = s.mem ∧ (State.sendBeat s p).ports = s.ports ∧
    (State.sendBeat s p).cav = s.cav ∧ (State.sendBeat s p).geode = s.geode := by
  unfold State.sendBeat
  (try dsimp only)
  (repeat' split) <;> simp [State.KeepsOuter, State.KeepsInner, State.KeepsCore]

theorem State.portBoundary_keeps (s : State) (p : LinkPort) :
    s.KeepsOuter (State.portBoundary s p) ∧ s.KeepsInner (State.portBoundary s p) ∧ s.KeepsCore (State.portBoundary s p) ∧
    (State.portBoundary s p).regs = s.regs ∧ (State.portBoundary s p).mem = s.mem ∧ (State.portBoundary s p).ports = s.ports ∧
    (State.portBoundary s p).cav = s.cav ∧ (State.portBoundary s p).geode = s.geode := by
  unfold State.portBoundary
  (try dsimp only)
  (repeat' split) <;> (have hk1 := @State.sendAllCred_keeps; have hk2 := @State.sendBeat_keeps; have hk3 := @State.sendCap_keeps; have hk4 := @State.sendTrain_keeps; simp [hk1, hk2, hk3, hk4, State.KeepsOuter, State.KeepsInner, State.KeepsCore])

theorem State.boundary_keeps (s : State) :
    s.KeepsOuter (State.boundary s) ∧ s.KeepsInner (State.boundary s) ∧ (State.boundary s).mem = s.mem ∧
    (State.boundary s).ports = s.ports ∧ (State.boundary s).tun = s.tun ∧ (State.boundary s).sched = s.sched ∧
    (State.boundary s).eng = s.eng ∧ (State.boundary s).geode = s.geode ∧ (State.boundary s).boot = s.boot ∧ (State.boundary s).pwr = s.pwr := by
  unfold State.boundary
  (try dsimp only)
  (repeat' split) <;> (have hk1 := @State.noteHealth_keeps; have hk2 := @State.portBoundary_keeps; have hk3 := @State.refreshDrain_keeps; have hk4 := @State.retime_keeps; simp [hk1, hk2, hk3, hk4, State.KeepsOuter, State.KeepsInner, State.KeepsCore])

theorem State.beatHead_keeps (s : State) :
    (State.beatHead s).mon = s.mon ∧ (State.beatHead s).carStatus = s.carStatus ∧ (State.beatHead s).ticks = s.ticks ∧
    (State.beatHead s).pending = s.pending := by
  unfold State.beatHead
  (try dsimp only)
  (repeat' split) <;> (have hk1 := @State.boundary_keeps; have hk2 := @State.cascadeHead_keeps; have hk3 := @State.commandedTakeovers_keeps; have hk4 := @State.head1_keeps; have hk5 := @State.head23_keeps; have hk6 := @State.head4_keeps; have hk7 := @State.head5_keeps; have hk8 := @State.head8_keeps; have hk9 := @State.powerHead_keeps; simp [hk1, hk2, hk3, hk4, hk5, hk6, hk7, hk8, hk9, State.KeepsOuter, State.KeepsInner, State.KeepsCore])

theorem State.serveReads_keeps (s : State) (m : Master) (y1 : Nat) (y2 : Nat) :
    (State.serveReads s m y1 y2).state.carStatus = s.carStatus ∧ (State.serveReads s m y1 y2).state.ticks = s.ticks ∧
    (State.serveReads s m y1 y2).state.pending = s.pending := by
  fun_induction State.serveReads s m y1 y2 <;> (try simp only [Prod.ext_iff] at *) <;> (try casesm* _ ∧ _) <;> subst_vars <;>
    (have hk1 := @State.readAccess_keeps; simp_all +zetaDelta [hk1, State.KeepsOuter, State.KeepsInner, State.KeepsCore])

theorem State.serveWrites_keeps (s : State) (m : Master) (y1 : Nat) (y2 : List Word) :
    (State.serveWrites s m y1 y2).state.carStatus = s.carStatus ∧ (State.serveWrites s m y1 y2).state.ticks = s.ticks ∧
    (State.serveWrites s m y1 y2).state.pending = s.pending := by
  fun_induction State.serveWrites s m y1 y2 <;> (try simp only [Prod.ext_iff] at *) <;> (try casesm* _ ∧ _) <;> subst_vars <;>
    (have hk1 := @State.writeAccess_keeps; simp_all +zetaDelta [hk1, State.KeepsOuter, State.KeepsInner, State.KeepsCore])

theorem State.serve_keeps (s : State) (m : Master) (r : MgmtRequest) :
    (State.serve s m r).state.carStatus = s.carStatus ∧ (State.serve s m r).state.ticks = s.ticks ∧
    (State.serve s m r).state.pending = s.pending := by
  unfold State.serve
  (try dsimp only)
  (repeat' split) <;> (have hk1 := @State.serveReads_keeps; have hk2 := @State.serveWrites_keeps; simp [hk1, hk2, State.KeepsOuter, State.KeepsInner, State.KeepsCore])

theorem State.mgmtServe_keeps (s : State) (srcEp : EpId) (tc : BitVec 3) (r : MgmtRequest) :
    (State.mgmtServe s srcEp tc r).carStatus = s.carStatus ∧ (State.mgmtServe s srcEp tc r).ticks = s.ticks ∧
    (State.mgmtServe s srcEp tc r).pending = s.pending := by
  unfold State.mgmtServe
  (try dsimp only)
  (repeat' split) <;> (have hk1 := @State.serve_keeps; have hk2 := @State.wakeBy_keeps; simp [hk1, hk2, State.KeepsOuter, State.KeepsInner, State.KeepsCore])

theorem State.queueReply_keeps (s : State) (r : MgmtRequest) (x : Served) :
    s.KeepsOuter (State.queueReply s r x) ∧ s.KeepsCore (State.queueReply s r x) ∧ (State.queueReply s r x).mem = s.mem ∧
    (State.queueReply s r x).line = s.line ∧ (State.queueReply s r x).ports = s.ports ∧ (State.queueReply s r x).echo = s.echo ∧
    (State.queueReply s r x).cav = s.cav ∧ (State.queueReply s r x).twin = s.twin ∧ (State.queueReply s r x).acc = s.acc ∧
    (State.queueReply s r x).geode = s.geode ∧ (State.queueReply s r x).log = s.log ∧ (State.queueReply s r x).faultN = s.faultN ∧
    (State.queueReply s r x).freeCtr = s.freeCtr ∧ (State.queueReply s r x).sent = s.sent := by
  unfold State.queueReply
  (try dsimp only)
  (repeat' split) <;> simp [State.KeepsOuter, State.KeepsInner, State.KeepsCore]

@[simp] theorem State.whenCar_mem (s : State) (via : CarPort) {f : State → State} (h : ∀ t, (f t).mem = t.mem) :
    (State.whenCar s via f).mem = s.mem := by
  unfold State.whenCar; (try dsimp only); (repeat' split) <;> (have hk1 := @State.wakeBy_keeps; have hi := @State.ite_fields; simp [hk1, h, hi])

@[simp] theorem State.whenCar_heads (s : State) (via : CarPort) {f : State → State} (h : ∀ t, (f t).heads = t.heads) :
    (State.whenCar s via f).heads = s.heads := by
  unfold State.whenCar; (try dsimp only); (repeat' split) <;> (have hk1 := @State.wakeBy_keeps; have hi := @State.ite_fields; simp [hk1, h, hi])

@[simp] theorem State.whenCar_beat (s : State) (via : CarPort) {f : State → State} (h : ∀ t, (f t).beat = t.beat) :
    (State.whenCar s via f).beat = s.beat := by
  unfold State.whenCar; (try dsimp only); (repeat' split) <;> (have hk1 := @State.wakeBy_keeps; have hi := @State.ite_fields; simp [hk1, h, hi])

@[simp] theorem State.whenCar_lanes (s : State) (via : CarPort) {f : State → State} (h : ∀ t, (f t).lanes = t.lanes) :
    (State.whenCar s via f).lanes = s.lanes := by
  unfold State.whenCar; (try dsimp only); (repeat' split) <;> (have hk1 := @State.wakeBy_keeps; have hi := @State.ite_fields; simp [hk1, h, hi])

@[simp] theorem State.whenCar_ports (s : State) (via : CarPort) {f : State → State} (h : ∀ t, (f t).ports = t.ports) :
    (State.whenCar s via f).ports = s.ports := by
  unfold State.whenCar; (try dsimp only); (repeat' split) <;> (have hk1 := @State.wakeBy_keeps; have hi := @State.ite_fields; simp [hk1, h, hi])

@[simp] theorem State.whenCar_echo (s : State) (via : CarPort) {f : State → State} (h : ∀ t, (f t).echo = t.echo) :
    (State.whenCar s via f).echo = s.echo := by
  unfold State.whenCar; (try dsimp only); (repeat' split) <;> (have hk1 := @State.wakeBy_keeps; have hi := @State.ite_fields; simp [hk1, h, hi])

@[simp] theorem State.whenCar_tun (s : State) (via : CarPort) {f : State → State} (h : ∀ t, (f t).tun = t.tun) :
    (State.whenCar s via f).tun = s.tun := by
  unfold State.whenCar; (try dsimp only); (repeat' split) <;> (have hk1 := @State.wakeBy_keeps; have hi := @State.ite_fields; simp [hk1, h, hi])

@[simp] theorem State.whenCar_cav (s : State) (via : CarPort) {f : State → State} (h : ∀ t, (f t).cav = t.cav) :
    (State.whenCar s via f).cav = s.cav := by
  unfold State.whenCar; (try dsimp only); (repeat' split) <;> (have hk1 := @State.wakeBy_keeps; have hi := @State.ite_fields; simp [hk1, h, hi])

@[simp] theorem State.whenCar_sched (s : State) (via : CarPort) {f : State → State} (h : ∀ t, (f t).sched = t.sched) :
    (State.whenCar s via f).sched = s.sched := by
  unfold State.whenCar; (try dsimp only); (repeat' split) <;> (have hk1 := @State.wakeBy_keeps; have hi := @State.ite_fields; simp [hk1, h, hi])

@[simp] theorem State.whenCar_twin (s : State) (via : CarPort) {f : State → State} (h : ∀ t, (f t).twin = t.twin) :
    (State.whenCar s via f).twin = s.twin := by
  unfold State.whenCar; (try dsimp only); (repeat' split) <;> (have hk1 := @State.wakeBy_keeps; have hi := @State.ite_fields; simp [hk1, h, hi])

@[simp] theorem State.whenCar_eng (s : State) (via : CarPort) {f : State → State} (h : ∀ t, (f t).eng = t.eng) :
    (State.whenCar s via f).eng = s.eng := by
  unfold State.whenCar; (try dsimp only); (repeat' split) <;> (have hk1 := @State.wakeBy_keeps; have hi := @State.ite_fields; simp [hk1, h, hi])

@[simp] theorem State.whenCar_acc (s : State) (via : CarPort) {f : State → State} (h : ∀ t, (f t).acc = t.acc) :
    (State.whenCar s via f).acc = s.acc := by
  unfold State.whenCar; (try dsimp only); (repeat' split) <;> (have hk1 := @State.wakeBy_keeps; have hi := @State.ite_fields; simp [hk1, h, hi])

@[simp] theorem State.whenCar_geode (s : State) (via : CarPort) {f : State → State} (h : ∀ t, (f t).geode = t.geode) :
    (State.whenCar s via f).geode = s.geode := by
  unfold State.whenCar; (try dsimp only); (repeat' split) <;> (have hk1 := @State.wakeBy_keeps; have hi := @State.ite_fields; simp [hk1, h, hi])

@[simp] theorem State.whenCar_usb (s : State) (via : CarPort) {f : State → State} (h : ∀ t, (f t).usb = t.usb) :
    (State.whenCar s via f).usb = s.usb := by
  unfold State.whenCar; (try dsimp only); (repeat' split) <;> (have hk1 := @State.wakeBy_keeps; have hi := @State.ite_fields; simp [hk1, h, hi])

@[simp] theorem State.whenCar_pd (s : State) (via : CarPort) {f : State → State} (h : ∀ t, (f t).pd = t.pd) :
    (State.whenCar s via f).pd = s.pd := by
  unfold State.whenCar; (try dsimp only); (repeat' split) <;> (have hk1 := @State.wakeBy_keeps; have hi := @State.ite_fields; simp [hk1, h, hi])

@[simp] theorem State.whenCar_mon (s : State) (via : CarPort) {f : State → State} (h : ∀ t, (f t).mon = t.mon) :
    (State.whenCar s via f).mon = s.mon := by
  unfold State.whenCar; (try dsimp only); (repeat' split) <;> (have hk1 := @State.wakeBy_keeps; have hi := @State.ite_fields; simp [hk1, h, hi])

@[simp] theorem State.whenCar_log (s : State) (via : CarPort) {f : State → State} (h : ∀ t, (f t).log = t.log) :
    (State.whenCar s via f).log = s.log := by
  unfold State.whenCar; (try dsimp only); (repeat' split) <;> (have hk1 := @State.wakeBy_keeps; have hi := @State.ite_fields; simp [hk1, h, hi])

@[simp] theorem State.whenCar_faultN (s : State) (via : CarPort) {f : State → State} (h : ∀ t, (f t).faultN = t.faultN) :
    (State.whenCar s via f).faultN = s.faultN := by
  unfold State.whenCar; (try dsimp only); (repeat' split) <;> (have hk1 := @State.wakeBy_keeps; have hi := @State.ite_fields; simp [hk1, h, hi])

@[simp] theorem State.whenCar_carStatus (s : State) (via : CarPort) {f : State → State} (h : ∀ t, (f t).carStatus = t.carStatus) :
    (State.whenCar s via f).carStatus = s.carStatus := by
  unfold State.whenCar; (try dsimp only); (repeat' split) <;> (have hk1 := @State.wakeBy_keeps; have hi := @State.ite_fields; simp [hk1, h, hi])

@[simp] theorem State.whenCar_ticks (s : State) (via : CarPort) {f : State → State} (h : ∀ t, (f t).ticks = t.ticks) :
    (State.whenCar s via f).ticks = s.ticks := by
  unfold State.whenCar; (try dsimp only); (repeat' split) <;> (have hk1 := @State.wakeBy_keeps; have hi := @State.ite_fields; simp [hk1, h, hi])

@[simp] theorem State.whenCar_freeCtr (s : State) (via : CarPort) {f : State → State} (h : ∀ t, (f t).freeCtr = t.freeCtr) :
    (State.whenCar s via f).freeCtr = s.freeCtr := by
  unfold State.whenCar; (try dsimp only); (repeat' split) <;> (have hk1 := @State.wakeBy_keeps; have hi := @State.ite_fields; simp [hk1, h, hi])

@[simp] theorem State.whenCar_pending (s : State) (via : CarPort) {f : State → State} (h : ∀ t, (f t).pending = t.pending) :
    (State.whenCar s via f).pending = s.pending := by
  unfold State.whenCar; (try dsimp only); (repeat' split) <;> (have hk1 := @State.wakeBy_keeps; have hi := @State.ite_fields; simp [hk1, h, hi])

theorem State.carServe_keeps (s : State) (count : Byte) (addr : BitVec 40) (n : Nat) :
    (State.carServe s count addr n).state.carStatus = s.carStatus ∧ (State.carServe s count addr n).state.ticks = s.ticks ∧
    (State.carServe s count addr n).state.pending = s.pending := by
  unfold State.carServe
  (try dsimp only)
  (repeat' split) <;> (have hk1 := @State.serveReads_keeps; simp [hk1, State.KeepsOuter, State.KeepsInner, State.KeepsCore])

end Sys2Proof.Machine
end

