-- ==== Sys2Proof/Laws/Canonical.lean ====
section
/-! SUPPORT. Laws/Canonical.lean: every operation over memory keeps it in canonical form; State.reset has it. -/

set_option linter.all false

namespace Sys2Proof.Machine

open Sys2Proof

/-- An operation that keeps the canonical form at each element keeps it over a list. -/
@[simp] theorem State.over_wf {α : Type} {f : State → α → State} (h : ∀ t a, Memory.wf t.mem = true → Memory.wf (f t a).mem = true)
    (s : State) (l : List α) (hs : Memory.wf s.mem = true) : Memory.wf (s.over l f).mem = true := by
  induction l generalizing s with
  | nil => exact hs
  | cons a l ih => exact ih (f s a) (h s a hs)

@[simp] theorem State.whenCore_wf {f : State → State} (h : ∀ t, Memory.wf t.mem = true → Memory.wf (f t).mem = true)
    (s : State) (hs : Memory.wf s.mem = true) : Memory.wf (s.whenCore f).mem = true := by
  unfold State.whenCore
  split
  · exact h s hs
  · exact hs

@[simp] theorem State.whenCar_wf {f : State → State} (h : ∀ t, Memory.wf t.mem = true → Memory.wf (f t).mem = true)
    (s : State) (via : CarPort) (hs : Memory.wf s.mem = true) : Memory.wf (s.whenCar via f).mem = true := by
  unfold State.whenCar
  split
  · (have hk1 := @State.wakeBy_keeps; simp [hk1, State.whenCore_wf h s hs])
  · exact hs

@[simp] theorem State.whenMf_wf {f : State → State} (h : ∀ t, Memory.wf t.mem = true → Memory.wf (f t).mem = true)
    (s : State) (hs : Memory.wf s.mem = true) : Memory.wf (s.whenMf f).mem = true := by
  unfold State.whenMf
  split
  · have hk1 := @State.wakeBy_keeps; simpa [hk1] using h s hs
  · exact hs

@[simp] theorem State.abortPoint_wf {f : State → State} (h : ∀ t, Memory.wf t.mem = true → Memory.wf (f t).mem = true)
    (s : State) (ap : Nat) (hs : Memory.wf s.mem = true) : Memory.wf (s.abortPoint ap f).mem = true := by
  unfold State.abortPoint
  dsimp only
  split
  · exact h _ hs
  · have hk1 := @State.abandon_keeps; simpa [hk1] using hs

@[simp] theorem State.answered_wf (x : State × Answer) (m : Master) (h : Memory.wf x.1.mem = true) :
    Memory.wf (State.answered x m).mem = true := by
  unfold State.answered
  split <;> simp [h]

@[simp] theorem State.setByte_wf (s : State) (a : Nat) (b : Byte) (h : Memory.wf s.mem = true) :
    Memory.wf (State.setByte s a b).mem = true := by
  unfold State.setByte
  (try dsimp only)
  (repeat' split) <;> (try simp only [Prod.ext_iff] at *) <;> (try casesm* _ ∧ _) <;> subst_vars <;> first | (simp +contextual [h]; done) | rfl

@[simp] theorem State.setBytes_wf (s : State) (a : Nat) (y1 : List Byte) (h : Memory.wf s.mem = true) :
    Memory.wf (State.setBytes s a y1).mem = true := by
  induction y1 generalizing s a with
  | nil => exact h
  | cons b bs ih => exact ih (s.setByte a b) (a + 1) (State.setByte_wf s a b h)

@[simp] theorem State.inOrder_wf {f : State → State} (h : ∀ t : State, Memory.wf t.mem = true → Memory.wf (f t).mem = true)
    (s : State) (hs : Memory.wf s.mem = true) : Memory.wf (State.inOrder s f).mem = true := by
  unfold State.inOrder
  have e : ∀ (t : State) (k n : Nat), (t.countN k n).mem = t.mem := by simp
  dsimp only
  rw [e]
  exact h _ hs

@[simp] theorem State.allocCell_wf (s : State) (id : Nat) (bytes : List Byte) (c : Nat) (h : Memory.wf s.mem = true) :
    Memory.wf (State.allocCell s id bytes c).mem = true := by
  unfold State.allocCell
  (try dsimp only)
  (repeat' split) <;> (try (have hk1 := @State.modStored_keeps; simp [hk1, h]))
  repeat' (first | with_reducible assumption | (intro) | with_reducible apply State.over_wf |
    with_reducible apply State.setBytes_wf | split | dsimp only | (have hk1 := @State.modStored_keeps; simp [hk1]))

@[simp] theorem State.allocCells_wf (s : State) (id : Nat) (f : Frame) (y1 : Nat) (y2 : Nat) (y3 : Nat) (h : Memory.wf s.mem = true) :
    Memory.wf (State.allocCells s id f y1 y2 y3).mem = true := by
  fun_induction State.allocCells s id f y1 y2 y3 <;> (try simp only [Prod.ext_iff] at *) <;> (try casesm* _ ∧ _) <;> subst_vars <;> simp_all +zetaDelta

@[simp] theorem State.store_wf (s : State) (f : Frame) (ingress : EgressPort) (matched : List MatchedGen) (start : Nat) (h : Memory.wf s.mem = true) :
    Memory.wf (State.store s f ingress matched start).mem = true := by
  unfold State.store
  (try dsimp only)
  (repeat' split) <;> (try simp [h])
  repeat' (first | with_reducible assumption | (intro) | with_reducible apply State.over_wf |
    with_reducible apply State.allocCells_wf | split | dsimp only | simp)

@[simp] theorem State.placeCopies_wf (s : State) (ingress : EgressPort) (matched : List MatchedGen) (credit : Nat) (start : Nat) (y1 : List (Frame × List EgressPort)) (h : Memory.wf s.mem = true) :
    Memory.wf (State.placeCopies s ingress matched credit start y1).mem = true := by
  fun_induction State.placeCopies s ingress matched credit start y1 <;> (try simp only [Prod.ext_iff] at *) <;> (try casesm* _ ∧ _) <;> subst_vars <;> (have hk1 := @State.place_keeps; simp_all +zetaDelta [hk1])

@[simp] theorem State.accept_wf (s : State) (ingress : EgressPort) (f : Frame) (a : Accepted) (h : Memory.wf s.mem = true) :
    Memory.wf (State.accept s ingress f a).mem = true := by
  unfold State.accept
  (try dsimp only)
  (repeat' split) <;> (try (have hk1 := @State.copies_keeps; have hk2 := @State.keyBad_keeps; have hk3 := @State.returnCredit_keeps; have hk4 := @State.siftCopies_keeps; simp [hk1, hk2, hk3, hk4, h]))
  repeat' (first | with_reducible assumption | (intro) | with_reducible apply State.over_wf |
    with_reducible apply State.placeCopies_wf | split | dsimp only |
    (have hk1 := @State.copies_keeps; have hk2 := @State.keyBad_keeps; have hk3 := @State.returnCredit_keeps; have hk4 := @State.siftCopies_keeps; simp [hk1, hk2, hk3, hk4]))

@[simp] theorem State.leaveDest_wf (s : State) (m : MissFrame) (h : Memory.wf s.mem = true) :
    Memory.wf (State.leaveDest s m).mem = true := by
  unfold State.leaveDest
  (try dsimp only)
  (repeat' split) <;> (try simp only [Prod.ext_iff] at *) <;> (try casesm* _ ∧ _) <;> subst_vars <;> (try (have hk1 := @State.copies_keeps; have hk2 := @State.dropFrame_keeps; have hk3 := @State.policeDefault_keeps; have hk4 := @State.writeHeader_keeps; simp [hk1, hk2, hk3, hk4, h]))
  repeat' (first | with_reducible assumption | (intro) | with_reducible apply State.over_wf |
    with_reducible apply State.accept_wf | split | dsimp only |
    (have hk1 := @State.copies_keeps; have hk2 := @State.dropFrame_keeps; have hk3 := @State.policeDefault_keeps; have hk4 := @State.writeHeader_keeps; simp [hk1, hk2, hk3, hk4]))

@[simp] theorem State.eachWaiting_wf {f : State → MissFrame → State}
    (h : ∀ (t : State) (m : MissFrame), Memory.wf t.mem = true → Memory.wf (f t m).mem = true)
    (s : State) (key : EpId) (hs : Memory.wf s.mem = true) : Memory.wf (State.eachWaiting s key f).mem = true := by
  unfold State.eachWaiting
  have hk := @State.takeMiss_keeps
  refine State.over_wf (fun t m ht => ?_) _ _ hs
  split
  · exact h _ _ (by simp [hk, ht])
  · exact ht

@[simp] theorem State.leaveMiss_wf (y1 : Nat) (y2 : State) (y3 : MissFrame) (h : Memory.wf y2.mem = true) :
    Memory.wf (State.leaveMiss y1 y2 y3).mem = true := by
  induction y1 generalizing y2 y3 with
  | zero => exact State.leaveDest_wf _ _ h
  | succ n ih =>
    unfold State.leaveMiss
    dsimp only
    (repeat' split) <;> (try simp only [Prod.ext_iff] at *) <;> (try casesm* _ ∧ _) <;> subst_vars
    all_goals have hk1 := @State.enqueueMiss_keeps; have hk2 := @State.startFetch_keeps; have hk3 := @State.dropFrame_keeps; have hk4 := @State.judge_keeps
    all_goals repeat' (first | with_reducible assumption | (intro) | with_reducible apply ih | with_reducible apply State.leaveDest_wf |
        with_reducible apply State.accept_wf | with_reducible apply State.eachWaiting_wf | split | simp [hk1, hk2, hk3, hk4])

@[simp] theorem State.release1_wf (s : State) (m : MissFrame) (h : Memory.wf s.mem = true) :
    Memory.wf (State.release1 s m).mem = true := by
  unfold State.release1
  (try dsimp only)
  (repeat' split) <;> (try simp [h])
  repeat' (first | with_reducible assumption | (intro) | with_reducible apply State.over_wf |
    with_reducible apply State.leaveMiss_wf | split | dsimp only | simp)

@[simp] theorem State.releaseKey_wf (s : State) (key : EpId) (h : Memory.wf s.mem = true) :
    Memory.wf (State.releaseKey s key).mem = true := by
  unfold State.releaseKey
  (try dsimp only)
  (repeat' split) <;> (try simp [h])
  repeat' (first | with_reducible assumption | (intro) | with_reducible apply State.over_wf |
    with_reducible apply State.release1_wf | with_reducible apply State.eachWaiting_wf | split | dsimp only | simp)

@[simp] theorem State.handle_wf (s : State) (p : EgressPort) (f : Frame) (srcDefault : Bool) (absent : Option EpId) (h : Memory.wf s.mem = true) :
    Memory.wf (State.handle s p f srcDefault absent).mem = true := by
  unfold State.handle
  (try dsimp only)
  (repeat' split) <;> (try simp only [Prod.ext_iff] at *) <;> (try casesm* _ ∧ _) <;> subst_vars <;> (try (have hk1 := @State.dropFrame_keeps; have hk2 := @State.enqueueMiss_keeps; have hk3 := @State.judge_keeps; have hk4 := @State.startFetch_keeps; simp [hk1, hk2, hk3, hk4, h]))
  repeat' (first | with_reducible assumption | (intro) | with_reducible apply State.over_wf |
    with_reducible apply State.releaseKey_wf | with_reducible apply State.release1_wf |
    with_reducible apply State.accept_wf | split | dsimp only |
    (have hk1 := @State.dropFrame_keeps; have hk2 := @State.enqueueMiss_keeps; have hk3 := @State.judge_keeps; have hk4 := @State.startFetch_keeps; simp [hk1, hk2, hk3, hk4]))

@[simp] theorem State.joinOwn_wf (s : State) (t : TrunkPort) (f : Frame) (h : Memory.wf s.mem = true) :
    Memory.wf (State.joinOwn s t f).mem = true := by
  unfold State.joinOwn
  (try dsimp only)
  (repeat' split) <;> (try (have hk1 := @State.joinQueue_keeps; have hk2 := @State.modStored_keeps; simp [hk1, hk2, h]))
  repeat' (first | with_reducible assumption | (intro) | with_reducible apply State.over_wf |
    with_reducible apply State.store_wf | split | dsimp only |
    (have hk1 := @State.joinQueue_keeps; have hk2 := @State.modStored_keeps; simp [hk1, hk2]))

@[simp] theorem State.takeOwn_wf (s : State) (p : EgressPort) (h : Memory.wf s.mem = true) :
    Memory.wf (State.takeOwn s p).mem = true := by
  unfold State.takeOwn
  (try dsimp only)
  (repeat' split) <;> (try simp [h])
  repeat' (first | with_reducible assumption | (intro) | with_reducible apply State.over_wf |
    with_reducible apply State.joinOwn_wf | split | dsimp only | simp)

@[simp] theorem State.restoreTcm_wf (s : State) (c : ColumnIx) (h : Memory.wf s.mem = true) :
    Memory.wf (State.restoreTcm s c).mem = true := by
  exact Store.wfFrom_copyDown (0x0300000000 + c.val * 0x100000) 0x20000 0x40000 (by norm_num) h

@[simp] theorem State.unspill_wf (s : State) (q : QueueIx) (r : QRef) (f : Stored) (resv : Nat) (pool : Nat) (h : Memory.wf s.mem = true) :
    Memory.wf (State.unspill s q r f resv pool).mem = true := by
  unfold State.unspill
  (try dsimp only)
  (repeat' split) <;> (try (have hk1 := @State.modRef_keeps; have hk2 := @State.modStored_keeps; have hk3 := @State.pageReturned_keeps; simp [hk1, hk2, hk3, h]))
  repeat' (first | with_reducible assumption | (intro) | with_reducible apply State.over_wf |
    with_reducible apply State.allocCells_wf | split | dsimp only |
    (have hk1 := @State.modRef_keeps; have hk2 := @State.modStored_keeps; have hk3 := @State.pageReturned_keeps; simp [hk1, hk2, hk3]))

@[simp] theorem State.cavernOff_wf (s : State) (h : Memory.wf s.mem = true) :
    Memory.wf (State.cavernOff s).mem = true := by
  unfold State.cavernOff
  (try dsimp only)
  (repeat' split) <;> (try simp [h])
  repeat' (first | with_reducible assumption | (intro) | with_reducible apply State.over_wf | split | dsimp only | simp)

@[simp] theorem State.restarted_wf (s0 : State) (k : StartKind) (h : Memory.wf s0.mem = true) :
    Memory.wf (State.restarted s0 k).mem = true := by
  show Memory.wf (if k = .dormant then [] else s0.cutOps.mem) = true
  split
  · rfl
  · (have hk1 := @State.cutOps_keeps; simp [hk1, h])

@[simp] theorem State.startReset_wf (s : State) (h : Memory.wf s.mem = true) :
    Memory.wf (State.startReset s).mem = true := by
  unfold State.startReset
  (try dsimp only)
  (repeat' split) <;> (try (have hk1 := @State.changeMode_keeps; have hk2 := @State.startStage_keeps; have hk3 := @State.strapDefaults_keeps; simp [hk1, hk2, hk3, h]))
  repeat' (first | with_reducible assumption | (intro) | with_reducible apply State.over_wf |
    with_reducible apply State.restarted_wf | split | dsimp only |
    (have hk1 := @State.changeMode_keeps; have hk2 := @State.startStage_keeps; have hk3 := @State.strapDefaults_keeps; simp [hk1, hk2, hk3]))

@[simp] theorem State.startRecover_wf (s : State) (h : Memory.wf s.mem = true) :
    Memory.wf (State.startRecover s).mem = true := by
  unfold State.startRecover
  (try dsimp only)
  (repeat' split) <;> (try (have hk1 := @State.enterRecovery_keeps; have hk2 := @State.strapDefaults_keeps; simp [hk1, hk2, h]))
  repeat' (first | with_reducible assumption | (intro) | with_reducible apply State.over_wf |
    with_reducible apply State.restarted_wf | split | dsimp only |
    (have hk1 := @State.enterRecovery_keeps; have hk2 := @State.strapDefaults_keeps; simp [hk1, hk2]))

@[simp] theorem State.startPorst_wf (s : State) (h : Memory.wf s.mem = true) :
    Memory.wf (State.startPorst s).mem = true := by
  unfold State.startPorst
  (try dsimp only)
  (repeat' split) <;> (try (have hk1 := @State.changeMode_keeps; have hk2 := @State.enterDebug_keeps; have hk3 := @State.startStage_keeps; have hk4 := @State.strapDefaults_keeps; simp [hk1, hk2, hk3, hk4, h]))
  repeat' (first | with_reducible assumption | (intro) | with_reducible apply State.over_wf |
    with_reducible apply State.restarted_wf | split | dsimp only |
    (have hk1 := @State.changeMode_keeps; have hk2 := @State.enterDebug_keeps; have hk3 := @State.startStage_keeps; have hk4 := @State.strapDefaults_keeps; simp [hk1, hk2, hk3, hk4]))

@[simp] theorem State.releasePorst_wf (s : State) (straps : BitVec 13) (vfv : Bool) (h : Memory.wf s.mem = true) :
    Memory.wf (State.releasePorst s straps vfv).mem = true := by
  unfold State.releasePorst
  (try dsimp only)
  (repeat' split) <;> (try (have hk1 := @State.wakeAttempt_keeps; simp [hk1, h]))
  repeat' (first | with_reducible assumption | (intro) | with_reducible apply State.over_wf |
    with_reducible apply State.startPorst_wf | split | dsimp only | (have hk1 := @State.wakeAttempt_keeps; simp [hk1]))

@[simp] theorem State.bootCommand_wf (s : State) (m : Master) (op : Nat) (h : Memory.wf s.mem = true) :
    Memory.wf (State.bootCommand s m op).mem = true := by
  unfold State.bootCommand
  (try dsimp only)
  (repeat' split) <;> (try (have hk1 := @State.pendMode_keeps; have hk2 := @State.startSeed_keeps; simp [hk1, hk2, h]))
  repeat' (first | with_reducible assumption | (intro) | with_reducible apply State.over_wf |
    with_reducible apply State.startRecover_wf | with_reducible apply State.startReset_wf | split | dsimp only |
    (have hk1 := @State.pendMode_keeps; have hk2 := @State.startSeed_keeps; simp [hk1, hk2]))

@[simp] theorem State.agreeBlock_wf (s : State) (block : Nat) (h : Memory.wf s.mem = true) :
    Memory.wf (State.agreeBlock s block).mem = true := by
  unfold State.agreeBlock
  (try dsimp only)
  (repeat' split) <;> (try (have hk1 := @State.lanesOff_keeps; have hk2 := @State.layoverComplete_keeps; have hk3 := @State.sumpSleep_keeps; have hk4 := @State.untrain_keeps; simp [hk1, hk2, hk3, hk4, h]))
  repeat' (first | with_reducible assumption | (intro) | with_reducible apply State.over_wf |
    with_reducible apply State.cavernOff_wf | split | dsimp only |
    (have hk1 := @State.lanesOff_keeps; have hk2 := @State.layoverComplete_keeps; have hk3 := @State.sumpSleep_keeps; have hk4 := @State.untrain_keeps; simp [hk1, hk2, hk3, hk4]))

@[simp] theorem State.agree_wf (s : State) (block : Nat) (h : Memory.wf s.mem = true) :
    Memory.wf (State.agree s block).mem = true := by
  unfold State.agree
  (try dsimp only)
  (repeat' split) <;> (try simp [h])
  repeat' (first | with_reducible assumption | (intro) | with_reducible apply State.over_wf |
    with_reducible apply State.agreeBlock_wf | split | dsimp only | simp)

@[simp] theorem State.askBlock_wf (s : State) (block : Nat) (h : Memory.wf s.mem = true) :
    Memory.wf (State.askBlock s block).mem = true := by
  unfold State.askBlock
  (try dsimp only)
  (repeat' split) <;> (try simp [h])
  repeat' (first | with_reducible assumption | (intro) | with_reducible apply State.over_wf |
    with_reducible apply State.agree_wf | split | dsimp only | simp)

@[simp] theorem State.entryHead_wf (s : State) (h : Memory.wf s.mem = true) :
    Memory.wf (State.entryHead s).mem = true := by
  unfold State.entryHead
  (try dsimp only)
  (repeat' split) <;> (try (have hk1 := @State.refuse_keeps; simp [hk1, h]))
  repeat' (first | with_reducible assumption | (intro) | with_reducible apply State.over_wf |
    with_reducible apply State.agree_wf | with_reducible apply State.askBlock_wf |
    with_reducible apply State.abortPoint_wf | split | dsimp only | (have hk1 := @State.refuse_keeps; simp [hk1]))

@[simp] theorem State.powerHead_wf (s : State) (h : Memory.wf s.mem = true) :
    Memory.wf (State.powerHead s).mem = true := by
  unfold State.powerHead
  (try dsimp only)
  (repeat' split) <;> (try (have hk1 := @State.evaluateRequest_keeps; simp [hk1, h]))
  repeat' (first | with_reducible assumption | (intro) | with_reducible apply State.over_wf |
    with_reducible apply State.entryHead_wf | split | dsimp only |
    (have hk1 := @State.evaluateRequest_keeps; simp [hk1]))

@[simp] theorem State.wroteBoot_wf (s : State) (m : Master) (a : Nat) (data : Word) (h : Memory.wf s.mem = true) :
    Memory.wf (State.wroteBoot s m a data).mem = true := by
  unfold State.wroteBoot
  (try dsimp only)
  (repeat' split) <;> (try (have hk1 := @State.flashCommand_keeps; have hk2 := @State.stageWord_keeps; simp [hk1, hk2, h]))
  repeat' (first | with_reducible assumption | (intro) | with_reducible apply State.over_wf |
    with_reducible apply State.bootCommand_wf | split | dsimp only |
    (have hk1 := @State.flashCommand_keeps; have hk2 := @State.stageWord_keeps; simp [hk1, hk2]))

@[simp] theorem State.wrote_wf (s : State) (m : Master) (a : Nat) (old : Word) (new : Word) (data : Word) (h : Memory.wf s.mem = true) :
    Memory.wf (State.wrote s m a old new data).mem = true := by
  unfold State.wrote
  (try dsimp only)
  (repeat' split) <;> (try (have hk1 := @State.evaluate_keeps; have hk2 := @State.wroteAcc_keeps; have hk3 := @State.wroteBeat_keeps; have hk4 := @State.wroteEng_keeps; have hk5 := @State.wroteGeo_keeps; have hk6 := @State.wroteLane_keeps; have hk7 := @State.wrotePol_keeps; have hk8 := @State.wrotePort_keeps; have hk9 := @State.wrotePwr_keeps; have hk10 := @State.wroteSched_keeps; have hk11 := @State.wroteSump_keeps; have hk12 := @State.wroteTun_keeps; have hk13 := @State.wroteUsb_keeps; simp [hk1, hk2, hk3, hk4, hk5, hk6, hk7, hk8, hk9, hk10, hk11, hk12, hk13, h]))
  repeat' (first | with_reducible assumption | (intro) | with_reducible apply State.over_wf |
    with_reducible apply State.wroteBoot_wf | split | dsimp only |
    (have hk1 := @State.evaluate_keeps; have hk2 := @State.wroteAcc_keeps; have hk3 := @State.wroteBeat_keeps; have hk4 := @State.wroteEng_keeps; have hk5 := @State.wroteGeo_keeps; have hk6 := @State.wroteLane_keeps; have hk7 := @State.wrotePol_keeps; have hk8 := @State.wrotePort_keeps; have hk9 := @State.wrotePwr_keeps; have hk10 := @State.wroteSched_keeps; have hk11 := @State.wroteSump_keeps; have hk12 := @State.wroteTun_keeps; have hk13 := @State.wroteUsb_keeps; simp [hk1, hk2, hk3, hk4, hk5, hk6, hk7, hk8, hk9, hk10, hk11, hk12, hk13]))

@[simp] theorem State.writeFields_wf (s : State) (m : Master) (r : RegRow) (a : Nat) (bits : Nat) (data : Word) (h : Memory.wf s.mem = true) :
    Memory.wf (State.writeFields s m r a bits data).mem = true := by
  unfold State.writeFields
  (try dsimp only)
  (repeat' split) <;> (try simp [h])
  repeat' (first | with_reducible assumption | (intro) | with_reducible apply State.over_wf |
    with_reducible apply State.wrote_wf | split | dsimp only | simp)

@[simp] theorem State.tryWrite_wf (s : State) (m : Master) (r : RegRow) (addr : Nat) (a : Nat) (bits : Nat) (data : Word) (armed : Bool) (h : Memory.wf s.mem = true) :
    Memory.wf (State.tryWrite s m r addr a bits data armed).1.mem = true := by
  unfold State.tryWrite
  (try dsimp only)
  (repeat' split) <;> (try (have hk1 := @State.busError_keeps; simp [hk1, h]))
  repeat' (first | with_reducible assumption | (intro) | with_reducible apply State.over_wf |
    with_reducible apply State.writeFields_wf | split | dsimp only | (have hk1 := @State.busError_keeps; simp [hk1]))

@[simp] theorem State.writeDirect_wf (s : State) (m : Master) (addr : Nat) (data : Word) (h : Memory.wf s.mem = true) :
    Memory.wf (State.writeDirect s m addr data).1.mem = true := by
  unfold State.writeDirect
  (try dsimp only)
  (repeat' split) <;> (try (have hk1 := @State.busError_keeps; have hk2 := @State.endCapture_keeps; have hk3 := @State.spend_keeps; simp [hk1, hk2, hk3, h]))
  repeat' (first | with_reducible assumption | (intro) | with_reducible apply State.over_wf |
    with_reducible apply State.tryWrite_wf | split | dsimp only |
    (have hk1 := @State.busError_keeps; have hk2 := @State.endCapture_keeps; have hk3 := @State.spend_keeps; simp [hk1, hk2, hk3]))

@[simp] theorem State.writeAlias_wf (s : State) (m : Master) (addr : Nat) (data : Word) (h : Memory.wf s.mem = true) :
    Memory.wf (State.writeAlias s m addr data).1.mem = true := by
  unfold State.writeAlias
  (try dsimp only)
  (repeat' split) <;> (try (have hk1 := @State.busError_keeps; have hk2 := @State.endCapture_keeps; have hk3 := @State.spend_keeps; simp [hk1, hk2, hk3, h]))
  repeat' (first | with_reducible assumption | (intro) | with_reducible apply State.over_wf |
    with_reducible apply State.tryWrite_wf | split | dsimp only |
    (have hk1 := @State.busError_keeps; have hk2 := @State.endCapture_keeps; have hk3 := @State.spend_keeps; simp [hk1, hk2, hk3]))

@[simp] theorem State.regOne_wf (s : State) (m : Master) (write : Bool) (addr : Nat) (size : Nat) (data : Word) (h : Memory.wf s.mem = true) :
    Memory.wf (State.regOne s m write addr size data).1.mem = true := by
  unfold State.regOne
  (try dsimp only)
  (repeat' split) <;> (try (have hk1 := @State.readAlias_keeps; have hk2 := @State.readDirect_keeps; simp [hk1, hk2, h]))
  repeat' (first | with_reducible assumption | (intro) | with_reducible apply State.over_wf |
    with_reducible apply State.writeDirect_wf | with_reducible apply State.writeAlias_wf | split | dsimp only |
    (have hk1 := @State.readAlias_keeps; have hk2 := @State.readDirect_keeps; simp [hk1, hk2]))

@[simp] theorem State.regSpace_wf (s : State) (m : Master) (write : Bool) (addr : Nat) (size : Nat) (data : Nat) (h : Memory.wf s.mem = true) :
    Memory.wf (State.regSpace s m write addr size data).1.mem = true := by
  unfold State.regSpace
  (try dsimp only)
  (repeat' split) <;> (try (have hk1 := @State.malformed_keeps; simp [hk1, h]))
  repeat' (first | with_reducible assumption | (intro) | with_reducible apply State.over_wf |
    with_reducible apply State.regOne_wf | split | dsimp only | (have hk1 := @State.malformed_keeps; simp [hk1]))

@[simp] theorem State.memSpace_wf (s : State) (m : Master) (write : Bool) (addr : Nat) (size : Nat) (data : List Byte) (h : Memory.wf s.mem = true) :
    Memory.wf (State.memSpace s m write addr size data).1.mem = true := by
  unfold State.memSpace
  (try dsimp only)
  (repeat' split) <;> (try (have hk1 := @State.busError_keeps; have hk2 := @State.healed_keeps; have hk3 := @State.sumpError_keeps; simp [hk1, hk2, hk3, h]))
  repeat' (first | with_reducible assumption | (intro) | with_reducible apply State.over_wf |
    with_reducible apply State.setBytes_wf | split | dsimp only |
    (have hk1 := @State.busError_keeps; have hk2 := @State.healed_keeps; have hk3 := @State.sumpError_keeps; simp [hk1, hk2, hk3]))

@[simp] theorem State.perform_wf (s : State) (m : Master) (write : Bool) (addr : Nat) (size : Nat) (data : List Byte) (h : Memory.wf s.mem = true) :
    Memory.wf (State.perform s m write addr size data).1.mem = true := by
  unfold State.perform
  (try dsimp only)
  (repeat' split) <;> (try simp [h])
  repeat' (first | with_reducible assumption | (intro) | with_reducible apply State.over_wf |
    with_reducible apply State.regSpace_wf | with_reducible apply State.memSpace_wf | split | dsimp only | simp)

@[simp] theorem State.colAccess_wf (s : State) (m : Master) (c : ColumnIx) (write : Bool) (addr : Nat) (size : Nat) (data : List Byte) (h : Memory.wf s.mem = true) :
    Memory.wf (State.colAccess s m c write addr size data).1.mem = true := by
  unfold State.colAccess
  (try dsimp only)
  (repeat' split) <;> (try (have hk1 := @State.busError_keeps; have hk2 := @State.dropColLine_keeps; have hk3 := @State.hitLine_keeps; have hk4 := @State.setColLine_keeps; simp [hk1, hk2, hk3, hk4, h]))
  repeat' (first | with_reducible assumption | (intro) | with_reducible apply State.over_wf |
    with_reducible apply State.memSpace_wf | split | dsimp only |
    (have hk1 := @State.busError_keeps; have hk2 := @State.dropColLine_keeps; have hk3 := @State.hitLine_keeps; have hk4 := @State.setColLine_keeps; simp [hk1, hk2, hk3, hk4]))

@[simp] theorem State.cached_wf (s : State) (m : Master) (c : ColumnIx) (write : Bool) (addr : Nat) (size : Nat) (data : List Byte) (h : Memory.wf s.mem = true) :
    Memory.wf (State.cached s m c write addr size data).1.mem = true := by
  unfold State.cached
  (try dsimp only)
  (repeat' split) <;> (try (have hk1 := @State.busError_keeps; simp [hk1, h]))
  repeat' (first | with_reducible assumption | (intro) | with_reducible apply State.over_wf |
    with_reducible apply State.colAccess_wf | split | dsimp only | (have hk1 := @State.busError_keeps; simp [hk1]))

@[simp] theorem State.checked_wf (s : State) (m : Master) (kind : AccessKind) (addr : Nat) (size : Nat) (data : List Byte) (h : Memory.wf s.mem = true) :
    Memory.wf (State.checked s m kind addr size data).1.mem = true := by
  unfold State.checked
  (try dsimp only)
  (repeat' split) <;> (try (have hk1 := @State.pushFault_keeps; simp [hk1, h]))
  repeat' (first | with_reducible assumption | (intro) | with_reducible apply State.over_wf |
    with_reducible apply State.cached_wf | with_reducible apply State.perform_wf | split | dsimp only |
    (have hk1 := @State.pushFault_keeps; simp [hk1]))

@[simp] theorem State.roleAccess_wf (s : State) (m : Master) (kind : AccessKind) (addr : Nat) (size : Nat) (data : List Byte) (tag : Option EngineTag) (h : Memory.wf s.mem = true) :
    Memory.wf (State.roleAccess s m kind addr size data tag).1.mem = true := by
  unfold State.roleAccess
  (try dsimp only)
  (repeat' split) <;> (try (have hk1 := @State.busError_keeps; have hk2 := @State.zombie_keeps; simp [hk1, hk2, h]))
  repeat' (first | with_reducible assumption | (intro) | with_reducible apply State.over_wf |
    with_reducible apply State.checked_wf | split | dsimp only |
    (have hk1 := @State.busError_keeps; have hk2 := @State.zombie_keeps; simp [hk1, hk2]))

@[simp] theorem State.access_wf (s : State) (m : Master) (kind : AccessKind) (addr : Nat) (size : Nat) (data : List Byte) (tag : Option EngineTag) (h : Memory.wf s.mem = true) :
    Memory.wf (State.access s m kind addr size data tag).1.mem = true := by
  unfold State.access
  (try dsimp only)
  (repeat' split) <;> (try simp [h])
  repeat' (first | with_reducible assumption | (intro) | with_reducible apply State.over_wf |
    with_reducible apply State.roleAccess_wf | split | dsimp only | simp)

@[simp] theorem State.readAccess_wf (s : State) (m : Master) (addr : Nat) (size : Nat) (h : Memory.wf s.mem = true) :
    Memory.wf (State.readAccess s m addr size).1.mem = true := by
  unfold State.readAccess
  (try dsimp only)
  (repeat' split) <;> (try simp [h])
  repeat' (first | with_reducible assumption | (intro) | with_reducible apply State.over_wf |
    with_reducible apply State.access_wf | split | dsimp only | simp)

@[simp] theorem State.writeAccess_wf (s : State) (m : Master) (addr : Nat) (data : Word) (h : Memory.wf s.mem = true) :
    Memory.wf (State.writeAccess s m addr data).1.mem = true := by
  unfold State.writeAccess
  (try dsimp only)
  (repeat' split) <;> (try simp [h])
  repeat' (first | with_reducible assumption | (intro) | with_reducible apply State.over_wf |
    with_reducible apply State.access_wf | split | dsimp only | simp)

@[simp] theorem State.command_wf (s : State) (m : Master) (addr : Nat) (data : Word) (h : Memory.wf s.mem = true) :
    Memory.wf (State.command s m addr data).mem = true := by
  unfold State.command
  (try dsimp only)
  (repeat' split) <;> (try simp [h])
  repeat' (first | with_reducible assumption | (intro) | with_reducible apply State.over_wf |
    with_reducible apply State.answered_wf | with_reducible apply State.writeAccess_wf | split | dsimp only | simp)

@[simp] theorem State.commandN_wf (s : State) (m : Master) (addr : Nat) (data : Nat) (h : Memory.wf s.mem = true) :
    Memory.wf (State.commandN s m addr data).mem = true := by
  unfold State.commandN
  (try dsimp only)
  (repeat' split) <;> (try simp [h])
  repeat' (first | with_reducible assumption | (intro) | with_reducible apply State.over_wf |
    with_reducible apply State.command_wf | split | dsimp only | simp)

@[simp] theorem State.bootWrite_wf (s : State) (addr : Nat) (w : Word) (h : Memory.wf s.mem = true) :
    Memory.wf (State.bootWrite s addr w).1.mem = true := by
  unfold State.bootWrite
  (try dsimp only)
  (repeat' split) <;> (try (have hk1 := @State.busError_keeps; simp [hk1, h]))
  repeat' (first | with_reducible assumption | (intro) | with_reducible apply State.over_wf |
    with_reducible apply State.writeAccess_wf | split | dsimp only | (have hk1 := @State.busError_keeps; simp [hk1]))

@[simp] theorem State.initOne_wf (s : State) (r : InitRecord) (h : Memory.wf s.mem = true) :
    Memory.wf (State.initOne s r).1.mem = true := by
  unfold State.initOne
  (try dsimp only)
  (repeat' split) <;> (try simp [h])
  repeat' (first | with_reducible assumption | (intro) | with_reducible apply State.over_wf |
    with_reducible apply State.bootWrite_wf | with_reducible apply State.readAccess_wf | split | dsimp only | simp)

@[simp] theorem State.initFrom_wf (s : State) (i : Nat) (retry : Bool) (y1 : List InitRecord) (h : Memory.wf s.mem = true) :
    Memory.wf (State.initFrom s i retry y1).state.mem = true := by
  fun_induction State.initFrom s i retry y1 <;> (try simp only [Prod.ext_iff] at *) <;> (try casesm* _ ∧ _) <;> subst_vars <;> simp_all +zetaDelta

@[simp] theorem State.applyPolicy_wf (s0 : State) (r : PolicyRecord) (h : Memory.wf s0.mem = true) :
    Memory.wf (State.applyPolicy s0 r).mem = true := by
  unfold State.applyPolicy
  (try dsimp only)
  (repeat' split) <;> (try (have hk1 := @State.keyMissing_keeps; have hk2 := @State.readSlot_keeps; have hk3 := @State.runKey_keeps; simp [hk1, hk2, hk3, h]))
  repeat' (first | with_reducible assumption | (intro) | with_reducible apply State.over_wf |
    with_reducible apply State.command_wf | split | dsimp only |
    (have hk1 := @State.keyMissing_keeps; have hk2 := @State.readSlot_keeps; have hk3 := @State.runKey_keeps; simp [hk1, hk2, hk3]))

@[simp] theorem State.applyFirmware_wf (s : State) (c : ColumnIx) (f : Firmware) (h : Memory.wf s.mem = true) :
    Memory.wf (State.applyFirmware s c f).mem = true := by
  unfold State.applyFirmware
  (try dsimp only)
  (repeat' split) <;> (try (have hk1 := @State.modColumn_keeps; simp [hk1, h]))
  repeat' (first | with_reducible assumption | (intro) | with_reducible apply State.over_wf |
    with_reducible apply State.setBytes_wf | split | dsimp only | (have hk1 := @State.modColumn_keeps; simp [hk1]))

@[simp] theorem State.loadColumn_wf (img : Nat → Byte) (s : State) (c : ColumnIx) (h : Memory.wf s.mem = true) :
    Memory.wf (State.loadColumn img s c).mem = true := by
  unfold State.loadColumn
  (try dsimp only)
  (repeat' split) <;> (try simp [h])
  repeat' (first | with_reducible assumption | (intro) | with_reducible apply State.over_wf |
    with_reducible apply State.applyFirmware_wf | split | dsimp only | simp)

@[simp] theorem State.applyRest_wf (s : State) (img : Nat → Byte) (h : Memory.wf s.mem = true) :
    Memory.wf (State.applyRest s img).mem = true := by
  unfold State.applyRest
  (try dsimp only)
  (repeat' split) <;> (try (have hk1 := @State.applyAllot_keeps; have hk2 := @State.applyEngines_keeps; have hk3 := @State.applyGate_keeps; have hk4 := @State.applySeeds_keeps; simp [hk1, hk2, hk3, hk4, h]))
  repeat' (first | with_reducible assumption | (intro) | with_reducible apply State.over_wf |
    with_reducible apply State.applyPolicy_wf | with_reducible apply State.loadColumn_wf | split | dsimp only |
    (have hk1 := @State.applyAllot_keeps; have hk2 := @State.applyEngines_keeps; have hk3 := @State.applyGate_keeps; have hk4 := @State.applySeeds_keeps; simp [hk1, hk2, hk3, hk4]))

@[simp] theorem State.applyFrom_wf (s : State) (img : Nat → Byte) (i : Nat) (retry : Bool) (h : Memory.wf s.mem = true) :
    Memory.wf (State.applyFrom s img i retry).mem = true := by
  unfold State.applyFrom
  (try dsimp only)
  (repeat' split) <;> (try (have hk1 := @State.pendRecovery_keeps; simp [hk1, h]))
  repeat' (first | with_reducible assumption | (intro) | with_reducible apply State.over_wf |
    with_reducible apply State.initFrom_wf | with_reducible apply State.applyRest_wf | split | dsimp only |
    (have hk1 := @State.pendRecovery_keeps; simp [hk1]))

@[simp] theorem State.applyImage_wf (s : State) (img : Nat → Byte) (h : Memory.wf s.mem = true) :
    Memory.wf (State.applyImage s img).mem = true := by
  unfold State.applyImage
  (try dsimp only)
  (repeat' split) <;> (try (have hk1 := @State.pendRecovery_keeps; have hk2 := @State.setStage_keeps; have hk3 := @State.strapDefaults_keeps; simp [hk1, hk2, hk3, h]))
  repeat' (first | with_reducible assumption | (intro) | with_reducible apply State.over_wf |
    with_reducible apply State.applyFrom_wf | split | dsimp only |
    (have hk1 := @State.pendRecovery_keeps; have hk2 := @State.setStage_keeps; have hk3 := @State.strapDefaults_keeps; simp [hk1, hk2, hk3]))

@[simp] theorem State.discardSave_wf (s : State) (h : Memory.wf s.mem = true) :
    Memory.wf (State.discardSave s).mem = true := by
  unfold State.discardSave
  (try dsimp only)
  (repeat' split) <;> (try simp [h])
  repeat' (first | with_reducible assumption | (intro) | with_reducible apply State.over_wf |
    with_reducible apply State.startReset_wf | split | dsimp only | simp)

@[simp] theorem State.useCopy_wf (s : State) (c : Fin 3) (h : Memory.wf s.mem = true) :
    Memory.wf (State.useCopy s c).mem = true := by
  unfold State.useCopy
  (try dsimp only)
  (repeat' split) <;> (try (have hk1 := @State.choose_keeps; have hk2 := @State.pendRecovery_keeps; simp [hk1, hk2, h]))
  repeat' (first | with_reducible assumption | (intro) | with_reducible apply State.over_wf |
    with_reducible apply State.discardSave_wf | with_reducible apply State.applyImage_wf | split | dsimp only |
    (have hk1 := @State.choose_keeps; have hk2 := @State.pendRecovery_keeps; simp [hk1, hk2]))

@[simp] theorem State.beatHead_wf (s : State) (h : Memory.wf s.mem = true) :
    Memory.wf (State.beatHead s).mem = true := by
  unfold State.beatHead
  (try dsimp only)
  (repeat' split) <;> (try (have hk1 := @State.boundary_keeps; have hk2 := @State.cascadeHead_keeps; have hk3 := @State.commandedTakeovers_keeps; have hk4 := @State.head1_keeps; have hk5 := @State.head23_keeps; have hk6 := @State.head4_keeps; have hk7 := @State.head5_keeps; have hk8 := @State.head8_keeps; simp [hk1, hk2, hk3, hk4, hk5, hk6, hk7, hk8, h]))
  repeat' (first | with_reducible assumption | (intro) | with_reducible apply State.over_wf |
    with_reducible apply State.powerHead_wf | split | dsimp only |
    (have hk1 := @State.boundary_keeps; have hk2 := @State.cascadeHead_keeps; have hk3 := @State.commandedTakeovers_keeps; have hk4 := @State.head1_keeps; have hk5 := @State.head23_keeps; have hk6 := @State.head4_keeps; have hk7 := @State.head5_keeps; have hk8 := @State.head8_keeps; simp [hk1, hk2, hk3, hk4, hk5, hk6, hk7, hk8]))

@[simp] theorem State.serveReads_wf (s : State) (m : Master) (y1 : Nat) (y2 : Nat) (h : Memory.wf s.mem = true) :
    Memory.wf (State.serveReads s m y1 y2).state.mem = true := by
  fun_induction State.serveReads s m y1 y2 <;> (try simp only [Prod.ext_iff] at *) <;> (try casesm* _ ∧ _) <;> subst_vars <;> simp_all +zetaDelta

@[simp] theorem State.serveWrites_wf (s : State) (m : Master) (y1 : Nat) (y2 : List Word) (h : Memory.wf s.mem = true) :
    Memory.wf (State.serveWrites s m y1 y2).state.mem = true := by
  fun_induction State.serveWrites s m y1 y2 <;> (try simp only [Prod.ext_iff] at *) <;> (try casesm* _ ∧ _) <;> subst_vars <;> simp_all +zetaDelta

@[simp] theorem State.serve_wf (s : State) (m : Master) (r : MgmtRequest) (h : Memory.wf s.mem = true) :
    Memory.wf (State.serve s m r).state.mem = true := by
  unfold State.serve
  (try dsimp only)
  (repeat' split) <;> (try simp [h])
  repeat' (first | with_reducible assumption | (intro) | with_reducible apply State.over_wf |
    with_reducible apply State.serveWrites_wf | with_reducible apply State.serveReads_wf | split | dsimp only | simp)

@[simp] theorem State.mgmtServe_wf (s : State) (srcEp : EpId) (tc : BitVec 3) (r : MgmtRequest) (h : Memory.wf s.mem = true) :
    Memory.wf (State.mgmtServe s srcEp tc r).mem = true := by
  unfold State.mgmtServe
  (try dsimp only)
  (repeat' split) <;> (try (have hk1 := @State.wakeBy_keeps; simp [hk1, h]))
  repeat' (first | with_reducible assumption | (intro) | with_reducible apply State.over_wf |
    with_reducible apply State.serve_wf | split | dsimp only | (have hk1 := @State.wakeBy_keeps; simp [hk1]))

@[simp] theorem State.carServe_wf (s : State) (count : Byte) (addr : BitVec 40) (n : Nat) (h : Memory.wf s.mem = true) :
    Memory.wf (State.carServe s count addr n).state.mem = true := by
  unfold State.carServe
  (try dsimp only)
  (repeat' split) <;> (try simp [h])
  repeat' (first | with_reducible assumption | (intro) | with_reducible apply State.over_wf |
    with_reducible apply State.serveReads_wf | split | dsimp only | simp)

theorem State.reset_wf : Memory.wf State.reset.mem = true := rfl

end Sys2Proof.Machine
end

