-- ==== Sys2Proof/Laws/CanonicalRegs.lean ====
section
/-! SUPPORT. Laws/CanonicalRegs.lean: every operation that writes registers keeps them in canonical form. -/

set_option linter.all false

namespace Sys2Proof.Machine

open Sys2Proof

/-- An operation that keeps the canonical form at each element keeps it over a list. -/
@[simp] theorem State.over_regsWf {α : Type} {f : State → α → State} (h : ∀ t a, Store.wfFrom resetWord 0 t.regs = true → Store.wfFrom resetWord 0 (f t a).regs = true)
    (s : State) (l : List α) (hs : Store.wfFrom resetWord 0 s.regs = true) : Store.wfFrom resetWord 0 (s.over l f).regs = true := by
  induction l generalizing s with
  | nil => exact hs
  | cons a l ih => exact ih (f s a) (h s a hs)

@[simp] theorem State.whenCore_regsWf {f : State → State} (h : ∀ t, Store.wfFrom resetWord 0 t.regs = true → Store.wfFrom resetWord 0 (f t).regs = true)
    (s : State) (hs : Store.wfFrom resetWord 0 s.regs = true) : Store.wfFrom resetWord 0 (s.whenCore f).regs = true := by
  unfold State.whenCore
  split
  · exact h s hs
  · exact hs

@[simp] theorem State.abortPoint_regsWf {f : State → State} (h : ∀ t : State, Store.wfFrom resetWord 0 t.regs = true → Store.wfFrom resetWord 0 (f t).regs = true)
    (s : State) (ap : Nat) (hs : Store.wfFrom resetWord 0 s.regs = true) (ha : ∀ t : State, Store.wfFrom resetWord 0 t.regs = true → Store.wfFrom resetWord 0 (t.abandon ap).regs = true) :
    Store.wfFrom resetWord 0 (s.abortPoint ap f).regs = true := by
  unfold State.abortPoint
  dsimp only
  split
  · exact h _ hs
  · exact ha _ hs

@[simp] theorem State.setReg_regsWf (s : State) (k : Nat) (w : Word) (h : Store.wfFrom resetWord 0 s.regs = true) :
    Store.wfFrom resetWord 0 (State.setReg s k w).regs = true := by
  unfold State.setReg
  (try dsimp only)
  (repeat' split) <;> (try simp [h])
  repeat' (first | with_reducible assumption | (intro) | with_reducible apply State.over_regsWf | split | dsimp only |
                    simp)

@[simp] theorem State.setRegN_regsWf (s : State) (k : Nat) (v : Nat) (h : Store.wfFrom resetWord 0 s.regs = true) :
    Store.wfFrom resetWord 0 (State.setRegN s k v).regs = true := by
  unfold State.setRegN
  (try dsimp only)
  (repeat' split) <;> (try simp [h])
  repeat' (first | with_reducible assumption | (intro) | with_reducible apply State.over_regsWf |
    with_reducible apply State.setReg_regsWf | split | dsimp only | simp)

@[simp] theorem State.setFld_regsWf (s : State) (k : Nat) (hi : Nat) (lo : Nat) (v : Nat) (h : Store.wfFrom resetWord 0 s.regs = true) :
    Store.wfFrom resetWord 0 (State.setFld s k hi lo v).regs = true := by
  unfold State.setFld
  (try dsimp only)
  (repeat' split) <;> (try simp [h])
  repeat' (first | with_reducible assumption | (intro) | with_reducible apply State.over_regsWf |
    with_reducible apply State.setReg_regsWf | split | dsimp only | simp)

@[simp] theorem State.setBit_regsWf (s : State) (k : Nat) (i : Nat) (b : Bool) (h : Store.wfFrom resetWord 0 s.regs = true) :
    Store.wfFrom resetWord 0 (State.setBit s k i b).regs = true := by
  unfold State.setBit
  (try dsimp only)
  (repeat' split) <;> (try simp [h])
  repeat' (first | with_reducible assumption | (intro) | with_reducible apply State.over_regsWf |
    with_reducible apply State.setFld_regsWf | split | dsimp only | simp)

@[simp] theorem State.countN_regsWf (s : State) (k : Nat) (n : Nat) (h : Store.wfFrom resetWord 0 s.regs = true) :
    Store.wfFrom resetWord 0 (State.countN s k n).regs = true := by
  unfold State.countN
  (try dsimp only)
  (repeat' split) <;> (try simp [h])
  repeat' (first | with_reducible assumption | (intro) | with_reducible apply State.over_regsWf |
    with_reducible apply State.setRegN_regsWf | split | dsimp only | simp)

@[simp] theorem State.count_regsWf (s : State) (k : Nat) (h : Store.wfFrom resetWord 0 s.regs = true) :
    Store.wfFrom resetWord 0 (State.count s k).regs = true := by
  unfold State.count
  (try dsimp only)
  (repeat' split) <;> (try simp [h])
  repeat' (first | with_reducible assumption | (intro) | with_reducible apply State.over_regsWf |
    with_reducible apply State.countN_regsWf | split | dsimp only | simp)

@[simp] theorem State.setReg48_regsWf (s : State) (lo : Nat) (v : Nat) (h : Store.wfFrom resetWord 0 s.regs = true) :
    Store.wfFrom resetWord 0 (State.setReg48 s lo v).regs = true := by
  unfold State.setReg48
  (try dsimp only)
  (repeat' split) <;> (try simp [h])
  repeat' (first | with_reducible assumption | (intro) | with_reducible apply State.over_regsWf |
    with_reducible apply State.setRegN_regsWf | split | dsimp only | simp)

@[simp] theorem State.count48_regsWf (s : State) (lo : Nat) (n : Nat) (h : Store.wfFrom resetWord 0 s.regs = true) :
    Store.wfFrom resetWord 0 (State.count48 s lo n).regs = true := by
  unfold State.count48
  (try dsimp only)
  (repeat' split) <;> (try simp [h])
  repeat' (first | with_reducible assumption | (intro) | with_reducible apply State.over_regsWf |
    with_reducible apply State.setReg48_regsWf | split | dsimp only | simp)

@[simp] theorem State.setBeatNum_regsWf (s : State) (b : Beat) (h : Store.wfFrom resetWord 0 s.regs = true) :
    Store.wfFrom resetWord 0 (State.setBeatNum s b).regs = true := by
  unfold State.setBeatNum
  (try dsimp only)
  (repeat' split) <;> (try simp [h])
  repeat' (first | with_reducible assumption | (intro) | with_reducible apply State.over_regsWf |
    with_reducible apply State.setReg48_regsWf | split | dsimp only | simp)

@[simp] theorem State.logBytes_regsWf (s : State) (src : Nat) (code : Nat) (data : List Byte) (h : Store.wfFrom resetWord 0 s.regs = true) :
    Store.wfFrom resetWord 0 (State.logBytes s src code data).regs = true := by
  unfold State.logBytes
  (try dsimp only)
  (repeat' split) <;> (try simp [h])
  repeat' (first | with_reducible assumption | (intro) | with_reducible apply State.over_regsWf |
    with_reducible apply State.count_regsWf | split | dsimp only | simp)

@[simp] theorem State.logEvent_regsWf (s : State) (src : Nat) (code : Nat) (data : List Nat) (h : Store.wfFrom resetWord 0 s.regs = true) :
    Store.wfFrom resetWord 0 (State.logEvent s src code data).regs = true := by
  unfold State.logEvent
  (try dsimp only)
  (repeat' split) <;> (try simp [h])
  repeat' (first | with_reducible assumption | (intro) | with_reducible apply State.over_regsWf |
    with_reducible apply State.logBytes_regsWf | split | dsimp only | simp)

@[simp] theorem State.inOrder_regsWf {f : State → State} (h : ∀ t : State, Store.wfFrom resetWord 0 t.regs = true → Store.wfFrom resetWord 0 (f t).regs = true)
    (s : State) (hs : Store.wfFrom resetWord 0 s.regs = true) : Store.wfFrom resetWord 0 (State.inOrder s f).regs = true := by
  unfold State.inOrder
  exact State.countN_regsWf _ _ _ (h _ hs)

@[simp] theorem State.takeReserves_regsWf (s : State) (h : Store.wfFrom resetWord 0 s.regs = true) :
    Store.wfFrom resetWord 0 (State.takeReserves s).regs = true := by
  unfold State.takeReserves
  (try dsimp only)
  (repeat' split) <;> (try simp [h])
  repeat' (first | with_reducible assumption | (intro) | with_reducible apply State.over_regsWf |
    with_reducible apply State.setBit_regsWf | split | dsimp only | simp)

@[simp] theorem State.emptyDeficit_regsWf (s : State) (q : QueueIx) (h : Store.wfFrom resetWord 0 s.regs = true) :
    Store.wfFrom resetWord 0 (State.emptyDeficit s q).regs = true := by
  unfold State.emptyDeficit
  (try dsimp only)
  (repeat' split) <;> (try simp [h])
  repeat' (first | with_reducible assumption | (intro) | with_reducible apply State.over_regsWf |
    with_reducible apply State.setRegN_regsWf | split | dsimp only | simp)

@[simp] theorem State.dropRef_regsWf (s : State) (q : QueueIx) (id : Nat) (h : Store.wfFrom resetWord 0 s.regs = true) :
    Store.wfFrom resetWord 0 (State.dropRef s q id).regs = true := by
  unfold State.dropRef
  (try dsimp only)
  (repeat' split) <;> (try (have hk1 := @State.modQueue_keeps; have hk2 := @State.release_keeps; simp [hk1, hk2, h]))
  repeat' (first | with_reducible assumption | (intro) | with_reducible apply State.over_regsWf |
    with_reducible apply State.emptyDeficit_regsWf | split | dsimp only |
                    (have hk1 := @State.modQueue_keeps; have hk2 := @State.release_keeps; simp [hk1, hk2]))

@[simp] theorem State.flushQueue_regsWf (s : State) (q : QueueIx) (h : Store.wfFrom resetWord 0 s.regs = true) :
    Store.wfFrom resetWord 0 (State.flushQueue s q).regs = true := by
  unfold State.flushQueue
  (try dsimp only)
  (repeat' split) <;> (try simp [h])
  repeat' (first | with_reducible assumption | (intro) | with_reducible apply State.over_regsWf |
    with_reducible apply State.dropRef_regsWf | with_reducible apply State.count_regsWf | split | dsimp only | simp)

@[simp] theorem State.flushPort_regsWf (s : State) (p : EgressPort) (lo : Nat) (hi : Nat) (h : Store.wfFrom resetWord 0 s.regs = true) :
    Store.wfFrom resetWord 0 (State.flushPort s p lo hi).regs = true := by
  unfold State.flushPort
  (try dsimp only)
  (repeat' split) <;> (try simp [h])
  repeat' (first | with_reducible assumption | (intro) | with_reducible apply State.over_regsWf |
    with_reducible apply State.flushQueue_regsWf | split | dsimp only | simp)

@[simp] theorem State.sift_regsWf (s : State) (c : Cls) (n : Nat) (y1 : List EgressPort) (h : Store.wfFrom resetWord 0 s.regs = true) :
    Store.wfFrom resetWord 0 (State.sift s c n y1).1.regs = true := by
  fun_induction State.sift s c n y1 <;> (try simp only [Prod.ext_iff] at *) <;> (try casesm* _ ∧ _) <;> subst_vars <;> simp_all +zetaDelta

@[simp] theorem State.joinQueue_regsWf (s : State) (q : QueueIx) (id : Nat) (n : Nat) (single : Bool) (h : Store.wfFrom resetWord 0 s.regs = true) :
    Store.wfFrom resetWord 0 (State.joinQueue s q id n single).regs = true := by
  unfold State.joinQueue
  (try dsimp only)
  (repeat' split) <;> (try (have hk1 := @State.modQueue_keeps; simp [hk1, h]))
  repeat' (first | with_reducible assumption | (intro) | with_reducible apply State.over_regsWf |
    with_reducible apply State.count48_regsWf | with_reducible apply State.count_regsWf | split | dsimp only |
                    (have hk1 := @State.modQueue_keeps; simp [hk1]))

@[simp] theorem State.joinAll_regsWf (s : State) (id : Nat) (c : Cls) (n : Nat) (single : Bool) (targets : List EgressPort) (h : Store.wfFrom resetWord 0 s.regs = true) :
    Store.wfFrom resetWord 0 (State.joinAll s id c n single targets).1.regs = true := by
  unfold State.joinAll
  (try dsimp only)
  (repeat' split) <;> (try (have hk1 := @State.modStored_keeps; have hk2 := @State.release_keeps; simp [hk1, hk2, h]))
  repeat' (first | with_reducible assumption | (intro) | with_reducible apply State.over_regsWf |
    with_reducible apply State.joinQueue_regsWf | with_reducible apply State.sift_regsWf | split | dsimp only |
                    (have hk1 := @State.modStored_keeps; have hk2 := @State.release_keeps; simp [hk1, hk2]))

@[simp] theorem State.place_regsWf (s : State) (id : Nat) (f : Frame) (ingress : EgressPort) (targets : List EgressPort) (credit : Nat) (h : Store.wfFrom resetWord 0 s.regs = true) :
    Store.wfFrom resetWord 0 (State.place s id f ingress targets credit).regs = true := by
  unfold State.place
  (try dsimp only)
  (repeat' split) <;> (try simp only [Prod.ext_iff] at *) <;> (try casesm* _ ∧ _) <;> subst_vars <;> (try (have hk1 := @State.creditBack_keeps; have hk2 := @State.release_keeps; have hk3 := @State.waitInReserve_keeps; simp [hk1, hk2, hk3, h]))
  repeat' (first | with_reducible assumption | (intro) | with_reducible apply State.over_regsWf |
    with_reducible apply State.joinAll_regsWf | with_reducible apply State.count_regsWf | split | dsimp only |
                    (have hk1 := @State.creditBack_keeps; have hk2 := @State.release_keeps; have hk3 := @State.waitInReserve_keeps; simp [hk1, hk2, hk3]))

@[simp] theorem State.retryOne_regsWf (s : State) (w : Waiting) (h : Store.wfFrom resetWord 0 s.regs = true) :
    Store.wfFrom resetWord 0 (State.retryOne s w).1.regs = true := by
  unfold State.retryOne
  (try dsimp only)
  (repeat' split) <;> (try simp only [Prod.ext_iff] at *) <;> (try casesm* _ ∧ _) <;> subst_vars <;> (try (have hk1 := @State.creditBack_keeps; have hk2 := @State.creditHeld_keeps; simp [hk1, hk2, h]))
  repeat' (first | with_reducible assumption | (intro) | with_reducible apply State.over_regsWf |
    with_reducible apply State.joinAll_regsWf | split | dsimp only |
                    (have hk1 := @State.creditBack_keeps; have hk2 := @State.creditHeld_keeps; simp [hk1, hk2]))

@[simp] theorem State.retryWaiting_regsWf (s : State) (y1 : List Waiting) (y2 : List (LinkPort × Cls × Bool)) (h : Store.wfFrom resetWord 0 s.regs = true) :
    Store.wfFrom resetWord 0 (State.retryWaiting s y1 y2).regs = true := by
  fun_induction State.retryWaiting s y1 y2 <;> (try simp only [Prod.ext_iff] at *) <;> (try casesm* _ ∧ _) <;> subst_vars <;> simp_all +zetaDelta

@[simp] theorem State.settle_regsWf (s : State) (h : Store.wfFrom resetWord 0 s.regs = true) :
    Store.wfFrom resetWord 0 (State.settle s).regs = true := by
  unfold State.settle
  (try dsimp only)
  (repeat' split) <;> (try simp [h])
  repeat' (first | with_reducible assumption | (intro) | with_reducible apply State.over_regsWf |
    with_reducible apply State.retryWaiting_regsWf | split | dsimp only | simp)

@[simp] theorem State.loseSent_regsWf (s : State) (p : LinkPort) (h : Store.wfFrom resetWord 0 s.regs = true) :
    Store.wfFrom resetWord 0 (State.loseSent s p).regs = true := by
  unfold State.loseSent
  (try dsimp only)
  (repeat' split) <;> (try simp [h])
  repeat' (first | with_reducible assumption | (intro) | with_reducible apply State.over_regsWf |
    with_reducible apply State.count_regsWf | split | dsimp only | simp)

@[simp] theorem State.lossQueues_regsWf (s : State) (t : TrunkPort) (h : Store.wfFrom resetWord 0 s.regs = true) :
    Store.wfFrom resetWord 0 (State.lossQueues s t).regs = true := by
  unfold State.lossQueues
  (try dsimp only)
  (repeat' split) <;> (try simp [h])
  repeat' (first | with_reducible assumption | (intro) | with_reducible apply State.over_regsWf |
    with_reducible apply State.loseSent_regsWf | with_reducible apply State.flushPort_regsWf | split | dsimp only | simp)

@[simp] theorem State.endCuts_regsWf (s : State) (p : EgressPort) (h : Store.wfFrom resetWord 0 s.regs = true) :
    Store.wfFrom resetWord 0 (State.endCuts s p).regs = true := by
  unfold State.endCuts
  (try dsimp only)
  (repeat' split) <;> (try (have hk1 := @State.release_keeps; simp [hk1, h]))
  repeat' (first | with_reducible assumption | (intro) | with_reducible apply State.over_regsWf |
    with_reducible apply State.count_regsWf | split | dsimp only | (have hk1 := @State.release_keeps; simp [hk1]))

@[simp] theorem State.localDown_regsWf (s : State) (p : LinkPort) (h : Store.wfFrom resetWord 0 s.regs = true) :
    Store.wfFrom resetWord 0 (State.localDown s p).regs = true := by
  unfold State.localDown
  (try dsimp only)
  (repeat' split) <;> (try simp [h])
  repeat' (first | with_reducible assumption | (intro) | with_reducible apply State.over_regsWf |
    with_reducible apply State.settle_regsWf | with_reducible apply State.flushPort_regsWf |
    with_reducible apply State.endCuts_regsWf | split | dsimp only | simp)

@[simp] theorem State.flushHeld_regsWf (s : State) (t : TrunkPort) (h : Store.wfFrom resetWord 0 s.regs = true) :
    Store.wfFrom resetWord 0 (State.flushHeld s t).regs = true := by
  unfold State.flushHeld
  (try dsimp only)
  (repeat' split) <;> (try simp [h])
  repeat' (first | with_reducible assumption | (intro) | with_reducible apply State.over_regsWf |
    with_reducible apply State.flushPort_regsWf | with_reducible apply State.settle_regsWf | split | dsimp only | simp)

@[simp] theorem State.readSlot_regsWf (s : State) (k : BitVec 8) (h : Store.wfFrom resetWord 0 s.regs = true) :
    Store.wfFrom resetWord 0 (State.readSlot s k).regs = true := by
  unfold State.readSlot
  (try dsimp only)
  (repeat' split) <;> (try (have hk1 := @State.modSlot_keeps; simp [hk1, h]))
  repeat' (first | with_reducible assumption | (intro) | with_reducible apply State.over_regsWf |
    with_reducible apply State.count_regsWf | split | dsimp only | (have hk1 := @State.modSlot_keeps; simp [hk1]))

@[simp] theorem State.checkTag_regsWf (s : State) (p : LinkPort) (f : Frame) (tag : BitVec 128) (h : Store.wfFrom resetWord 0 s.regs = true) :
    Store.wfFrom resetWord 0 (State.checkTag s p f tag).1.regs = true := by
  unfold State.checkTag
  (try dsimp only)
  (repeat' split) <;> (try (have hk1 := @State.retireOlderRx_keeps; have hk2 := @State.setCtr_keeps; simp [hk1, hk2, h]))
  repeat' (first | with_reducible assumption | (intro) | with_reducible apply State.over_regsWf |
    with_reducible apply State.count_regsWf | split | dsimp only |
                    (have hk1 := @State.retireOlderRx_keeps; have hk2 := @State.setCtr_keeps; simp [hk1, hk2]))

@[simp] theorem State.keyBad_regsWf (s : State) (p : LinkPort) (h : Store.wfFrom resetWord 0 s.regs = true) :
    Store.wfFrom resetWord 0 (State.keyBad s p).regs = true := by
  unfold State.keyBad
  (try dsimp only)
  (repeat' split) <;> (try simp [h])
  repeat' (first | with_reducible assumption | (intro) | with_reducible apply State.over_regsWf |
    with_reducible apply State.count_regsWf | split | dsimp only | simp)

@[simp] theorem State.authFailed_regsWf (s : State) (t : TrunkPort) (h : Store.wfFrom resetWord 0 s.regs = true) :
    Store.wfFrom resetWord 0 (State.authFailed s t).regs = true := by
  unfold State.authFailed
  (try dsimp only)
  (repeat' split) <;> (try (have hk1 := @State.modAgent_keeps; have hk2 := @State.retireAssoc_keeps; have hk3 := @State.zeroKey_keeps; simp [hk1, hk2, hk3, h]))
  repeat' (first | with_reducible assumption | (intro) | with_reducible apply State.over_regsWf |
    with_reducible apply State.count_regsWf | split | dsimp only |
                    (have hk1 := @State.modAgent_keeps; have hk2 := @State.retireAssoc_keeps; have hk3 := @State.zeroKey_keeps; simp [hk1, hk2, hk3]))

@[simp] theorem State.sendFail_regsWf (s : State) (t : TrunkPort) (reason : Nat) (h : Store.wfFrom resetWord 0 s.regs = true) :
    Store.wfFrom resetWord 0 (State.sendFail s t reason).regs = true := by
  unfold State.sendFail
  (try dsimp only)
  (repeat' split) <;> (try (have hk1 := @State.sendKey_keeps; simp [hk1, h]))
  repeat' (first | with_reducible assumption | (intro) | with_reducible apply State.over_regsWf |
    with_reducible apply State.authFailed_regsWf | split | dsimp only | (have hk1 := @State.sendKey_keeps; simp [hk1]))

@[simp] theorem State.onHello_regsWf (s : State) (t : TrunkPort) (payload : List Byte) (h : Store.wfFrom resetWord 0 s.regs = true) :
    Store.wfFrom resetWord 0 (State.onHello s t payload).regs = true := by
  unfold State.onHello
  (try dsimp only)
  (repeat' split) <;> (try (have hk1 := @State.createKey_keeps; have hk2 := @State.deriveLinkKeys_keeps; have hk3 := @State.modAgent_keeps; have hk4 := @State.sendHello_keeps; have hk5 := @State.sendKey_keeps; have hk6 := @State.zeroKey_keeps; simp [hk1, hk2, hk3, hk4, hk5, hk6, h]))
  repeat' (first | with_reducible assumption | (intro) | with_reducible apply State.over_regsWf |
    with_reducible apply State.sendFail_regsWf | with_reducible apply State.readSlot_regsWf | split | dsimp only |
                    (have hk1 := @State.createKey_keeps; have hk2 := @State.deriveLinkKeys_keeps; have hk3 := @State.modAgent_keeps; have hk4 := @State.sendHello_keeps; have hk5 := @State.sendKey_keeps; have hk6 := @State.zeroKey_keeps; simp [hk1, hk2, hk3, hk4, hk5, hk6]))

@[simp] theorem State.holdCtle_regsWf (s : State) (l : LaneIx) (h : Store.wfFrom resetWord 0 s.regs = true) :
    Store.wfFrom resetWord 0 (State.holdCtle s l).regs = true := by
  unfold State.holdCtle
  (try dsimp only)
  (repeat' split) <;> (try simp [h])
  repeat' (first | with_reducible assumption | (intro) | with_reducible apply State.over_regsWf |
    with_reducible apply State.setFld_regsWf | split | dsimp only | simp)

@[simp] theorem State.usePreset_regsWf (s : State) (l : LaneIx) (preset : Nat) (h : Store.wfFrom resetWord 0 s.regs = true) :
    Store.wfFrom resetWord 0 (State.usePreset s l preset).regs = true := by
  unfold State.usePreset
  (try dsimp only)
  (repeat' split) <;> (try simp [h])
  repeat' (first | with_reducible assumption | (intro) | with_reducible apply State.over_regsWf |
    with_reducible apply State.setFld_regsWf | split | dsimp only | simp)

@[simp] theorem State.resetCredits_regsWf (s : State) (p : LinkPort) (h : Store.wfFrom resetWord 0 s.regs = true) :
    Store.wfFrom resetWord 0 (State.resetCredits s p).regs = true := by
  unfold State.resetCredits
  (try dsimp only)
  (repeat' split) <;> (try (have hk1 := @State.modCredit_keeps; simp [hk1, h]))
  repeat' (first | with_reducible assumption | (intro) | with_reducible apply State.over_regsWf |
    with_reducible apply State.count_regsWf | split | dsimp only | (have hk1 := @State.modCredit_keeps; simp [hk1]))

@[simp] theorem State.resyncTx_regsWf (s : State) (p : LinkPort) (h : Store.wfFrom resetWord 0 s.regs = true) :
    Store.wfFrom resetWord 0 (State.resyncTx s p).regs = true := by
  unfold State.resyncTx
  (try dsimp only)
  (repeat' split) <;> (try (have hk1 := @State.modCredit_keeps; simp [hk1, h]))
  repeat' (first | with_reducible assumption | (intro) | with_reducible apply State.over_regsWf |
    with_reducible apply State.count_regsWf | split | dsimp only | (have hk1 := @State.modCredit_keeps; simp [hk1]))

@[simp] theorem State.resyncRx_regsWf (s : State) (p : LinkPort) (h : Store.wfFrom resetWord 0 s.regs = true) :
    Store.wfFrom resetWord 0 (State.resyncRx s p).regs = true := by
  unfold State.resyncRx
  (try dsimp only)
  (repeat' split) <;> (try (have hk1 := @State.modCredit_keeps; have hk2 := @State.sendAllCred_keeps; simp [hk1, hk2, h]))
  repeat' (first | with_reducible assumption | (intro) | with_reducible apply State.over_regsWf |
    with_reducible apply State.count_regsWf | split | dsimp only |
                    (have hk1 := @State.modCredit_keeps; have hk2 := @State.sendAllCred_keeps; simp [hk1, hk2]))

@[simp] theorem State.countTrunk_regsWf (s : State) (p : LinkPort) (r : Nat → Nat) (h : Store.wfFrom resetWord 0 s.regs = true) :
    Store.wfFrom resetWord 0 (State.countTrunk s p r).regs = true := by
  unfold State.countTrunk
  (try dsimp only)
  (repeat' split) <;> (try simp [h])
  repeat' (first | with_reducible assumption | (intro) | with_reducible apply State.over_regsWf |
    with_reducible apply State.count_regsWf | split | dsimp only | simp)

@[simp] theorem State.countFraming_regsWf (s : State) (p : LinkPort) (h : Store.wfFrom resetWord 0 s.regs = true) :
    Store.wfFrom resetWord 0 (State.countFraming s p).regs = true := by
  unfold State.countFraming
  (try dsimp only)
  (repeat' split) <;> (try simp [h])
  repeat' (first | with_reducible assumption | (intro) | with_reducible apply State.over_regsWf |
    with_reducible apply State.count_regsWf | split | dsimp only | simp)

@[simp] theorem State.abortFrame_regsWf (s : State) (id : Nat) (h : Store.wfFrom resetWord 0 s.regs = true) :
    Store.wfFrom resetWord 0 (State.abortFrame s id).regs = true := by
  unfold State.abortFrame
  (try dsimp only)
  (repeat' split) <;> (try (have hk1 := @State.release_keeps; simp [hk1, h]))
  repeat' (first | with_reducible assumption | (intro) | with_reducible apply State.over_regsWf |
    with_reducible apply State.dropRef_regsWf | with_reducible apply State.count_regsWf | split | dsimp only |
                    (have hk1 := @State.release_keeps; simp [hk1]))

@[simp] theorem State.abortCut_regsWf (s : State) (n : LocalPort) (h : Store.wfFrom resetWord 0 s.regs = true) :
    Store.wfFrom resetWord 0 (State.abortCut s n).regs = true := by
  unfold State.abortCut
  (try dsimp only)
  (repeat' split) <;> (try simp [h])
  repeat' (first | with_reducible assumption | (intro) | with_reducible apply State.over_regsWf |
    with_reducible apply State.abortFrame_regsWf | split | dsimp only | simp)

@[simp] theorem State.dropPartial_regsWf (s : State) (p : LinkPort) (h : Store.wfFrom resetWord 0 s.regs = true) :
    Store.wfFrom resetWord 0 (State.dropPartial s p).regs = true := by
  unfold State.dropPartial
  (try dsimp only)
  (repeat' split) <;> (try (have hk1 := @State.emptyFrame_keeps; simp [hk1, h]))
  repeat' (first | with_reducible assumption | (intro) | with_reducible apply State.over_regsWf |
    with_reducible apply State.abortCut_regsWf | with_reducible apply State.countFraming_regsWf | split | dsimp only |
                    (have hk1 := @State.emptyFrame_keeps; simp [hk1]))

@[simp] theorem State.dropOn_regsWf (s : State) (p : LinkPort) (i : Nat) (h : Store.wfFrom resetWord 0 s.regs = true) :
    Store.wfFrom resetWord 0 (State.dropOn s p i).regs = true := by
  unfold State.dropOn
  (try dsimp only)
  (repeat' split) <;> (try simp [h])
  repeat' (first | with_reducible assumption | (intro) | with_reducible apply State.over_regsWf |
    with_reducible apply State.dropPartial_regsWf | split | dsimp only | simp)

@[simp] theorem State.abandonTx_regsWf (s : State) (p : LinkPort) (h : Store.wfFrom resetWord 0 s.regs = true) :
    Store.wfFrom resetWord 0 (State.abandonTx s p).regs = true := by
  unfold State.abandonTx
  (try dsimp only)
  (repeat' split) <;> (try (have hk1 := @State.release_keeps; simp [hk1, h]))
  repeat' (first | with_reducible assumption | (intro) | with_reducible apply State.over_regsWf |
    with_reducible apply State.countTrunk_regsWf | split | dsimp only | (have hk1 := @State.release_keeps; simp [hk1]))

@[simp] theorem State.linkLoss_regsWf (s : State) (p : LinkPort) (h : Store.wfFrom resetWord 0 s.regs = true) :
    Store.wfFrom resetWord 0 (State.linkLoss s p).regs = true := by
  unfold State.linkLoss
  (try dsimp only)
  (repeat' split) <;> (try simp [h])
  repeat' (first | with_reducible assumption | (intro) | with_reducible apply State.over_regsWf |
    with_reducible apply State.lossQueues_regsWf | with_reducible apply State.settle_regsWf |
    with_reducible apply State.count_regsWf | with_reducible apply State.localDown_regsWf | split | dsimp only | simp)

@[simp] theorem State.portDown_regsWf (s : State) (p : LinkPort) (h : Store.wfFrom resetWord 0 s.regs = true) :
    Store.wfFrom resetWord 0 (State.portDown s p).regs = true := by
  unfold State.portDown
  (try dsimp only)
  (repeat' split) <;> (try (have hk1 := @State.modAgent_keeps; simp [hk1, h]))
  repeat' (first | with_reducible assumption | (intro) | with_reducible apply State.over_regsWf |
    with_reducible apply State.linkLoss_regsWf | with_reducible apply State.dropPartial_regsWf |
    with_reducible apply State.abortCut_regsWf | split | dsimp only | (have hk1 := @State.modAgent_keeps; simp [hk1]))

@[simp] theorem State.evalWidth_regsWf (s : State) (p : LinkPort) (h : Store.wfFrom resetWord 0 s.regs = true) :
    Store.wfFrom resetWord 0 (State.evalWidth s p).regs = true := by
  unfold State.evalWidth
  (try dsimp only)
  (repeat' split) <;> (try (have hk1 := @State.reservesInForce_keeps; have hk2 := @State.toStage_keeps; simp [hk1, hk2, h]))
  repeat' (first | with_reducible assumption | (intro) | with_reducible apply State.over_regsWf |
    with_reducible apply State.portDown_regsWf | with_reducible apply State.countTrunk_regsWf | split | dsimp only |
                    (have hk1 := @State.reservesInForce_keeps; have hk2 := @State.toStage_keeps; simp [hk1, hk2]))

@[simp] theorem State.txDrop_regsWf (s : State) (p : LinkPort) (h : Store.wfFrom resetWord 0 s.regs = true) :
    Store.wfFrom resetWord 0 (State.txDrop s p).regs = true := by
  unfold State.txDrop
  (try dsimp only)
  (repeat' split) <;> (try (have hk1 := @State.sendAmk_keeps; simp [hk1, h]))
  repeat' (first | with_reducible assumption | (intro) | with_reducible apply State.over_regsWf |
    with_reducible apply State.evalWidth_regsWf | with_reducible apply State.abandonTx_regsWf |
    with_reducible apply State.resyncTx_regsWf | split | dsimp only | (have hk1 := @State.sendAmk_keeps; simp [hk1]))

@[simp] theorem State.rxFault_regsWf (s : State) (p : LinkPort) (i : Nat) (h : Store.wfFrom resetWord 0 s.regs = true) :
    Store.wfFrom resetWord 0 (State.rxFault s p i).regs = true := by
  unfold State.rxFault
  (try dsimp only)
  (repeat' split) <;> (try simp [h])
  repeat' (first | with_reducible assumption | (intro) | with_reducible apply State.over_regsWf |
    with_reducible apply State.evalWidth_regsWf | split | dsimp only | simp)

@[simp] theorem State.ethDown_regsWf (s : State) (p : LinkPort) (h : Store.wfFrom resetWord 0 s.regs = true) :
    Store.wfFrom resetWord 0 (State.ethDown s p).regs = true := by
  unfold State.ethDown
  (try dsimp only)
  (repeat' split) <;> (try simp [h])
  repeat' (first | with_reducible assumption | (intro) | with_reducible apply State.over_regsWf |
    with_reducible apply State.abortCut_regsWf | with_reducible apply State.localDown_regsWf | split | dsimp only | simp)

@[simp] theorem State.laneLost_regsWf (s : State) (l : LaneIx) (h : Store.wfFrom resetWord 0 s.regs = true) :
    Store.wfFrom resetWord 0 (State.laneLost s l).regs = true := by
  unfold State.laneLost
  (try dsimp only)
  (repeat' split) <;> (try simp [h])
  repeat' (first | with_reducible assumption | (intro) | with_reducible apply State.over_regsWf |
    with_reducible apply State.dropOn_regsWf | with_reducible apply State.rxFault_regsWf |
    with_reducible apply State.ethDown_regsWf | split | dsimp only | simp)

@[simp] theorem State.copyRegs_regsWf (s : State) (dst : Nat → Nat) (src : Nat → Nat) (n : Nat) (h : Store.wfFrom resetWord 0 s.regs = true) :
    Store.wfFrom resetWord 0 (State.copyRegs s dst src n).regs = true := by
  unfold State.copyRegs
  (try dsimp only)
  (repeat' split) <;> (try simp [h])
  repeat' (first | with_reducible assumption | (intro) | with_reducible apply State.over_regsWf |
    with_reducible apply State.setReg_regsWf | split | dsimp only | simp)

@[simp] theorem State.copyGroup_regsWf (s : State) (g : Nat) (h : Store.wfFrom resetWord 0 s.regs = true) :
    Store.wfFrom resetWord 0 (State.copyGroup s g).regs = true := by
  unfold State.copyGroup
  (try dsimp only)
  (repeat' split) <;> (try simp [h])
  repeat' (first | with_reducible assumption | (intro) | with_reducible apply State.over_regsWf |
    with_reducible apply State.setReg_regsWf | split | dsimp only | simp)

@[simp] theorem State.takeGates_regsWf (s : State) (p : EgressPort) (anchor : Nat) (h : Store.wfFrom resetWord 0 s.regs = true) :
    Store.wfFrom resetWord 0 (State.takeGates s p anchor).regs = true := by
  unfold State.takeGates
  (try dsimp only)
  (repeat' split) <;> (try simp [h])
  repeat' (first | with_reducible assumption | (intro) | with_reducible apply State.over_regsWf |
    with_reducible apply State.copyGroup_regsWf | with_reducible apply State.setReg48_regsWf | split | dsimp only | simp)

@[simp] theorem State.resetClass_regsWf (s : State) (p : Nat) (c : Nat) (h : Store.wfFrom resetWord 0 s.regs = true) :
    Store.wfFrom resetWord 0 (State.resetClass s p c).regs = true := by
  unfold State.resetClass
  (try dsimp only)
  (repeat' split) <;> (try simp [h])
  repeat' (first | with_reducible assumption | (intro) | with_reducible apply State.over_regsWf |
    with_reducible apply State.setRegN_regsWf | split | dsimp only | simp)

@[simp] theorem State.takeShapers_regsWf (s : State) (p : Nat) (h : Store.wfFrom resetWord 0 s.regs = true) :
    Store.wfFrom resetWord 0 (State.takeShapers s p).regs = true := by
  unfold State.takeShapers
  (try dsimp only)
  (repeat' split) <;> (try simp [h])
  repeat' (first | with_reducible assumption | (intro) | with_reducible apply State.over_regsWf |
    with_reducible apply State.copyGroup_regsWf | with_reducible apply State.resetClass_regsWf | split | dsimp only |
                    simp)

@[simp] theorem State.laneScratch_regsWf (s : State) (l : LaneIx) (h : Store.wfFrom resetWord 0 s.regs = true) :
    Store.wfFrom resetWord 0 (State.laneScratch s l).regs = true := by
  unfold State.laneScratch
  (try dsimp only)
  (repeat' split) <;> (try simp [h])
  repeat' (first | with_reducible assumption | (intro) | with_reducible apply State.over_regsWf |
    with_reducible apply State.setFld_regsWf | with_reducible apply State.count_regsWf |
    with_reducible apply State.holdCtle_regsWf | split | dsimp only | simp)

@[simp] theorem State.takeMode_regsWf (s : State) (n : LocalPort) (h : Store.wfFrom resetWord 0 s.regs = true) :
    Store.wfFrom resetWord 0 (State.takeMode s n).regs = true := by
  unfold State.takeMode
  (try dsimp only)
  (repeat' split) <;> (try simp [h])
  repeat' (first | with_reducible assumption | (intro) | with_reducible apply State.over_regsWf |
    with_reducible apply State.usePreset_regsWf | with_reducible apply State.laneScratch_regsWf |
    with_reducible apply State.portDown_regsWf | split | dsimp only | simp)

@[simp] theorem State.evalBond_regsWf (s : State) (h : Store.wfFrom resetWord 0 s.regs = true) :
    Store.wfFrom resetWord 0 (State.evalBond s).regs = true := by
  unfold State.evalBond
  (try dsimp only)
  (repeat' split) <;> (try simp [h])
  repeat' (first | with_reducible assumption | (intro) | with_reducible apply State.over_regsWf |
    with_reducible apply State.setBit_regsWf | with_reducible apply State.setFld_regsWf |
    with_reducible apply State.portDown_regsWf | with_reducible apply State.takeMode_regsWf | split | dsimp only | simp)

@[simp] theorem State.evalMode_regsWf (s : State) (n : LocalPort) (h : Store.wfFrom resetWord 0 s.regs = true) :
    Store.wfFrom resetWord 0 (State.evalMode s n).regs = true := by
  unfold State.evalMode
  (try dsimp only)
  (repeat' split) <;> (try simp [h])
  repeat' (first | with_reducible assumption | (intro) | with_reducible apply State.over_regsWf |
    with_reducible apply State.evalBond_regsWf | with_reducible apply State.takeMode_regsWf | split | dsimp only | simp)

@[simp] theorem State.evaluate_regsWf (s : State) (a : Nat) (h : Store.wfFrom resetWord 0 s.regs = true) :
    Store.wfFrom resetWord 0 (State.evaluate s a).regs = true := by
  unfold State.evaluate
  (try dsimp only)
  (repeat' split) <;> (try (have hk1 := @State.pairWritten_keeps; simp [hk1, h]))
  repeat' (first | with_reducible assumption | (intro) | with_reducible apply State.over_regsWf |
    with_reducible apply State.evalMode_regsWf | with_reducible apply State.evalBond_regsWf |
    with_reducible apply State.takeReserves_regsWf | split | dsimp only |
                    (have hk1 := @State.pairWritten_keeps; simp [hk1]))

@[simp] theorem State.restartLane_regsWf (s : State) (l : LaneIx) (h : Store.wfFrom resetWord 0 s.regs = true) :
    Store.wfFrom resetWord 0 (State.restartLane s l).regs = true := by
  unfold State.restartLane
  (try dsimp only)
  (repeat' split) <;> (try (have hk1 := @State.redetect_keeps; simp [hk1, h]))
  repeat' (first | with_reducible assumption | (intro) | with_reducible apply State.over_regsWf |
    with_reducible apply State.usePreset_regsWf | with_reducible apply State.txDrop_regsWf |
    with_reducible apply State.dropOn_regsWf | with_reducible apply State.laneScratch_regsWf |
    with_reducible apply State.rxFault_regsWf | with_reducible apply State.ethDown_regsWf | split | dsimp only |
                    (have hk1 := @State.redetect_keeps; simp [hk1]))

@[simp] theorem State.takeLane_regsWf (s : State) (l : LaneIx) (h : Store.wfFrom resetWord 0 s.regs = true) :
    Store.wfFrom resetWord 0 (State.takeLane s l).regs = true := by
  unfold State.takeLane
  (try dsimp only)
  (repeat' split) <;> (try simp [h])
  repeat' (first | with_reducible assumption | (intro) | with_reducible apply State.over_regsWf |
    with_reducible apply State.setReg_regsWf | with_reducible apply State.restartLane_regsWf |
    with_reducible apply State.evalMode_regsWf | split | dsimp only | simp)

@[simp] theorem State.applyGroup_regsWf (s : State) (g : Nat) (anchor : Nat) (h : Store.wfFrom resetWord 0 s.regs = true) :
    Store.wfFrom resetWord 0 (State.applyGroup s g anchor).regs = true := by
  unfold State.applyGroup
  (try dsimp only)
  (repeat' split) <;> (try simp [h])
  repeat' (first | with_reducible assumption | (intro) | with_reducible apply State.over_regsWf |
    with_reducible apply State.takeGates_regsWf | with_reducible apply State.setReg48_regsWf |
    with_reducible apply State.count_regsWf | with_reducible apply State.takeLane_regsWf |
    with_reducible apply State.takeShapers_regsWf | with_reducible apply State.copyGroup_regsWf | split | dsimp only |
                    simp)

@[simp] theorem State.commitResult_regsWf (s : State) (m : Master) (g : Nat) (code : Nat) (h : Store.wfFrom resetWord 0 s.regs = true) :
    Store.wfFrom resetWord 0 (State.commitResult s m g code).regs = true := by
  unfold State.commitResult
  (try dsimp only)
  (repeat' split) <;> (try simp [h])
  repeat' (first | with_reducible assumption | (intro) | with_reducible apply State.over_regsWf |
    with_reducible apply State.count_regsWf | with_reducible apply State.setRegN_regsWf | split | dsimp only | simp)

@[simp] theorem State.commitAt_regsWf (s : State) (m : Master) (g : Nat) (target : Nat) (h : Store.wfFrom resetWord 0 s.regs = true) :
    Store.wfFrom resetWord 0 (State.commitAt s m g target).regs = true := by
  unfold State.commitAt
  (try dsimp only)
  (repeat' split) <;> (try simp [h])
  repeat' (first | with_reducible assumption | (intro) | with_reducible apply State.over_regsWf |
    with_reducible apply State.commitResult_regsWf | split | dsimp only | simp)

@[simp] theorem State.cancelGroup_regsWf (s : State) (m : Master) (g : Nat) (h : Store.wfFrom resetWord 0 s.regs = true) :
    Store.wfFrom resetWord 0 (State.cancelGroup s m g).regs = true := by
  unfold State.cancelGroup
  (try dsimp only)
  (repeat' split) <;> (try simp [h])
  repeat' (first | with_reducible assumption | (intro) | with_reducible apply State.over_regsWf |
    with_reducible apply State.commitResult_regsWf | split | dsimp only | simp)

@[simp] theorem State.commitCommand_regsWf (s : State) (m : Master) (w : Word) (h : Store.wfFrom resetWord 0 s.regs = true) :
    Store.wfFrom resetWord 0 (State.commitCommand s m w).regs = true := by
  unfold State.commitCommand
  (try dsimp only)
  (repeat' split) <;> (try simp [h])
  repeat' (first | with_reducible assumption | (intro) | with_reducible apply State.over_regsWf |
    with_reducible apply State.commitAt_regsWf | with_reducible apply State.cancelGroup_regsWf |
    with_reducible apply State.commitResult_regsWf | split | dsimp only | simp)

@[simp] theorem State.applyDue_regsWf (s : State) (h : Store.wfFrom resetWord 0 s.regs = true) :
    Store.wfFrom resetWord 0 (State.applyDue s).regs = true := by
  unfold State.applyDue
  (try dsimp only)
  (repeat' split) <;> (try simp [h])
  repeat' (first | with_reducible assumption | (intro) | with_reducible apply State.over_regsWf |
    with_reducible apply State.applyGroup_regsWf | split | dsimp only | simp)

@[simp] theorem State.applyShadow_regsWf (s : State) (g : Nat) (h : Store.wfFrom resetWord 0 s.regs = true) :
    Store.wfFrom resetWord 0 (State.applyShadow s g).regs = true := by
  unfold State.applyShadow
  (try dsimp only)
  (repeat' split) <;> (try simp [h])
  repeat' (first | with_reducible assumption | (intro) | with_reducible apply State.over_regsWf |
    with_reducible apply State.applyGroup_regsWf | with_reducible apply State.count_regsWf | split | dsimp only | simp)

@[simp] theorem State.applyFirst_regsWf (s : State) (h : Store.wfFrom resetWord 0 s.regs = true) :
    Store.wfFrom resetWord 0 (State.applyFirst s).regs = true := by
  unfold State.applyFirst
  (try dsimp only)
  (repeat' split) <;> (try simp [h])
  repeat' (first | with_reducible assumption | (intro) | with_reducible apply State.over_regsWf |
    with_reducible apply State.applyShadow_regsWf | split | dsimp only | simp)

@[simp] theorem State.adoptSlot_regsWf (s : State) (k : BitVec 7) (h : Store.wfFrom resetWord 0 s.regs = true) :
    Store.wfFrom resetWord 0 (State.adoptSlot s k).regs = true := by
  unfold State.adoptSlot
  (try dsimp only)
  (repeat' split) <;> (try simp [h])
  repeat' (first | with_reducible assumption | (intro) | with_reducible apply State.over_regsWf |
    with_reducible apply State.setFld_regsWf | split | dsimp only | simp)

@[simp] theorem State.assignWhileForming_regsWf (s : State) (h : Store.wfFrom resetWord 0 s.regs = true) :
    Store.wfFrom resetWord 0 (State.assignWhileForming s).regs = true := by
  unfold State.assignWhileForming
  (try dsimp only)
  (repeat' split) <;> (try (have hk1 := @State.announce_keeps; simp [hk1, h]))
  repeat' (first | with_reducible assumption | (intro) | with_reducible apply State.over_regsWf |
    with_reducible apply State.adoptSlot_regsWf | split | dsimp only | (have hk1 := @State.announce_keeps; simp [hk1]))

@[simp] theorem State.setMaster_regsWf (s : State) (i : HubId) (h : Store.wfFrom resetWord 0 s.regs = true) :
    Store.wfFrom resetWord 0 (State.setMaster s i).regs = true := by
  unfold State.setMaster
  (try dsimp only)
  (repeat' split) <;> (try simp [h])
  repeat' (first | with_reducible assumption | (intro) | with_reducible apply State.over_regsWf |
    with_reducible apply State.setRegN_regsWf | split | dsimp only | simp)

@[simp] theorem State.newMaster_regsWf (s : State) (i : HubId) (h : Store.wfFrom resetWord 0 s.regs = true) :
    Store.wfFrom resetWord 0 (State.newMaster s i).regs = true := by
  unfold State.newMaster
  (try dsimp only)
  (repeat' split) <;> (try simp [h])
  repeat' (first | with_reducible assumption | (intro) | with_reducible apply State.over_regsWf |
    with_reducible apply State.setMaster_regsWf | split | dsimp only | simp)

@[simp] theorem State.electMaster_regsWf (s : State) (h : Store.wfFrom resetWord 0 s.regs = true) :
    Store.wfFrom resetWord 0 (State.electMaster s).regs = true := by
  unfold State.electMaster
  (try dsimp only)
  (repeat' split) <;> (try simp [h])
  repeat' (first | with_reducible assumption | (intro) | with_reducible apply State.over_regsWf |
    with_reducible apply State.newMaster_regsWf | split | dsimp only | simp)

@[simp] theorem State.refreshView_regsWf (s : State) (before : State) (h : Store.wfFrom resetWord 0 s.regs = true) :
    Store.wfFrom resetWord 0 (State.refreshView s before).regs = true := by
  unfold State.refreshView
  (try dsimp only)
  (repeat' split) <;> (try (have hk1 := @State.announceMove_keeps; have hk2 := @State.announceRaise_keeps; have hk3 := @State.cutRings_keeps; have hk4 := @State.noteLinks_keeps; have hk5 := @State.sendEchoAll_keeps; simp [hk1, hk2, hk3, hk4, hk5, h]))
  repeat' (first | with_reducible assumption | (intro) | with_reducible apply State.over_regsWf |
    with_reducible apply State.assignWhileForming_regsWf | with_reducible apply State.setFld_regsWf |
    with_reducible apply State.count_regsWf | with_reducible apply State.electMaster_regsWf | split | dsimp only |
                    (have hk1 := @State.announceMove_keeps; have hk2 := @State.announceRaise_keeps; have hk3 := @State.cutRings_keeps; have hk4 := @State.noteLinks_keeps; have hk5 := @State.sendEchoAll_keeps; simp [hk1, hk2, hk3, hk4, hk5]))

@[simp] theorem State.viewing_regsWf {f : State → State} (h : ∀ t : State, Store.wfFrom resetWord 0 t.regs = true → Store.wfFrom resetWord 0 (f t).regs = true)
    (s : State) (hs : Store.wfFrom resetWord 0 s.regs = true) : Store.wfFrom resetWord 0 (State.viewing s f).regs = true := by
  unfold State.viewing
  (try dsimp only)
  (repeat' split) <;> simp_all

@[simp] theorem State.resumeEcho_regsWf (s : State) (h : Store.wfFrom resetWord 0 s.regs = true) :
    Store.wfFrom resetWord 0 (State.resumeEcho s).regs = true := by
  unfold State.resumeEcho
  (try dsimp only)
  (repeat' split) <;> (try (have hk1 := @State.announceMove_keeps; have hk2 := @State.deriveRoutes_keeps; simp [hk1, hk2, h]))
  repeat' (first | with_reducible assumption | (intro) | with_reducible apply State.over_regsWf |
    with_reducible apply State.electMaster_regsWf | split | dsimp only |
                    (have hk1 := @State.announceMove_keeps; have hk2 := @State.deriveRoutes_keeps; simp [hk1, hk2]))

@[simp] theorem State.arriving_regsWf {f : State → State} (h : ∀ t : State, Store.wfFrom resetWord 0 t.regs = true → Store.wfFrom resetWord 0 (f t).regs = true)
    (s : State) (p : LinkPort) (hs : Store.wfFrom resetWord 0 s.regs = true) : Store.wfFrom resetWord 0 (State.arriving s p f).regs = true := by
  unfold State.arriving
  (try dsimp only)
  (repeat' split) <;> simp_all

@[simp] theorem State.countColour_regsWf (s : State) (c : Cls) (first : Bool) (k : Colour) (h : Store.wfFrom resetWord 0 s.regs = true) :
    Store.wfFrom resetWord 0 (State.countColour s c first k).regs = true := by
  unfold State.countColour
  (try dsimp only)
  (repeat' split) <;> (try simp [h])
  repeat' (first | with_reducible assumption | (intro) | with_reducible apply State.over_regsWf |
    with_reducible apply State.count48_regsWf | with_reducible apply State.count_regsWf | split | dsimp only | simp)

@[simp] theorem State.policeDefault_regsWf (s : State) (p : EgressPort) (f : Frame) (first : Bool) (h : Store.wfFrom resetWord 0 s.regs = true) :
    Store.wfFrom resetWord 0 (State.policeDefault s p f first).1.regs = true := by
  unfold State.policeDefault
  (try dsimp only)
  (repeat' split) <;> (try simp [h])
  repeat' (first | with_reducible assumption | (intro) | with_reducible apply State.over_regsWf |
    with_reducible apply State.countColour_regsWf | split | dsimp only | simp)

@[simp] theorem State.ageOutTwin_regsWf (s : State) (src : EpId) (h : Store.wfFrom resetWord 0 s.regs = true) :
    Store.wfFrom resetWord 0 (State.ageOutTwin s src).regs = true := by
  unfold State.ageOutTwin
  (try dsimp only)
  (repeat' split) <;> (try simp [h])
  repeat' (first | with_reducible assumption | (intro) | with_reducible apply State.over_regsWf |
    with_reducible apply State.countN_regsWf | split | dsimp only | simp)

@[simp] theorem State.ageTwins_regsWf (s : State) (h : Store.wfFrom resetWord 0 s.regs = true) :
    Store.wfFrom resetWord 0 (State.ageTwins s).regs = true := by
  unfold State.ageTwins
  (try dsimp only)
  (repeat' split) <;> (try simp [h])
  repeat' (first | with_reducible assumption | (intro) | with_reducible apply State.over_regsWf |
    with_reducible apply State.ageOutTwin_regsWf | split | dsimp only | simp)

@[simp] theorem State.checkCopy_regsWf (s : State) (e0 : TwinEntry) (seq : BitVec 16) (copyB : Bool) (h : Store.wfFrom resetWord 0 s.regs = true) :
    Store.wfFrom resetWord 0 (State.checkCopy s e0 seq copyB).1.regs = true := by
  unfold State.checkCopy
  (try dsimp only)
  (repeat' split) <;> (try (have hk1 := @State.setTwin_keeps; simp [hk1, h]))
  repeat' (first | with_reducible assumption | (intro) | with_reducible apply State.over_regsWf |
    with_reducible apply State.count48_regsWf | with_reducible apply State.count_regsWf |
    with_reducible apply State.countN_regsWf | split | dsimp only | (have hk1 := @State.setTwin_keeps; simp [hk1]))

@[simp] theorem State.twinCheck_regsWf (s0 : State) (f : Frame) (h : Store.wfFrom resetWord 0 s0.regs = true) :
    Store.wfFrom resetWord 0 (State.twinCheck s0 f).1.regs = true := by
  unfold State.twinCheck
  (try dsimp only)
  (repeat' split) <;> (try simp [h])
  repeat' (first | with_reducible assumption | (intro) | with_reducible apply State.over_regsWf |
    with_reducible apply State.ageTwins_regsWf | with_reducible apply State.checkCopy_regsWf |
    with_reducible apply State.count_regsWf | split | dsimp only | simp)

@[simp] theorem State.lookup_regsWf (s : State) (ep : EpId) (absent : Option EpId) (h : Store.wfFrom resetWord 0 s.regs = true) :
    Store.wfFrom resetWord 0 (State.lookup s ep absent).1.regs = true := by
  unfold State.lookup
  (try dsimp only)
  (repeat' split) <;> (try (have hk1 := @State.touch_keeps; simp [hk1, h]))
  repeat' (first | with_reducible assumption | (intro) | with_reducible apply State.over_regsWf |
    with_reducible apply State.count_regsWf | split | dsimp only | (have hk1 := @State.touch_keeps; simp [hk1]))

@[simp] theorem State.sumpError_regsWf (s : State) (addr : Nat) (region : Nat) (h : Store.wfFrom resetWord 0 s.regs = true) :
    Store.wfFrom resetWord 0 (State.sumpError s addr region).regs = true := by
  unfold State.sumpError
  (try dsimp only)
  (repeat' split) <;> (try simp [h])
  repeat' (first | with_reducible assumption | (intro) | with_reducible apply State.over_regsWf |
    with_reducible apply State.count_regsWf | split | dsimp only | simp)

@[simp] theorem State.sourceEntry_regsWf (s : State) (p : EgressPort) (f : Frame) (srcDefault : Bool) (absent : Option EpId) (h : Store.wfFrom resetWord 0 s.regs = true) :
    Store.wfFrom resetWord 0 (State.sourceEntry s p f srcDefault absent).1.regs = true := by
  unfold State.sourceEntry
  (try dsimp only)
  (repeat' split) <;> (try simp only [Prod.ext_iff] at *) <;> (try casesm* _ ∧ _) <;> subst_vars <;> (try simp [h])
  repeat' (first | with_reducible assumption | (intro) | with_reducible apply State.over_regsWf |
    with_reducible apply State.count_regsWf | with_reducible apply State.lookup_regsWf | split | dsimp only | simp)

@[simp] theorem State.destination_regsWf (s : State) (f : Frame) (absent : Option EpId) (h : Store.wfFrom resetWord 0 s.regs = true) :
    Store.wfFrom resetWord 0 (State.destination s f absent).1.regs = true := by
  unfold State.destination
  (try dsimp only)
  (repeat' split) <;> (try simp only [Prod.ext_iff] at *) <;> (try casesm* _ ∧ _) <;> subst_vars <;> (try simp [h])
  repeat' (first | with_reducible assumption | (intro) | with_reducible apply State.over_regsWf |
    with_reducible apply State.count_regsWf | with_reducible apply State.lookup_regsWf | split | dsimp only | simp)

@[simp] theorem State.copies_regsWf (s : State) (p : EgressPort) (f : Frame) (src : Option EpEntry) (d : Dest) (h : Store.wfFrom resetWord 0 s.regs = true) :
    Store.wfFrom resetWord 0 (State.copies s p f src d).1.regs = true := by
  unfold State.copies
  (try dsimp only)
  (repeat' split) <;> (try simp [h])
  repeat' (first | with_reducible assumption | (intro) | with_reducible apply State.over_regsWf |
    with_reducible apply State.count_regsWf | split | dsimp only | simp)

@[simp] theorem State.police_regsWf (s : State) (p : EgressPort) (f : Frame) (src : Option EpEntry) (h : Store.wfFrom resetWord 0 s.regs = true) :
    Store.wfFrom resetWord 0 (State.police s p f src).1.regs = true := by
  unfold State.police
  (try dsimp only)
  (repeat' split) <;> (try (have hk1 := @State.countPair_keeps; have hk2 := @State.setEntry_keeps; simp [hk1, hk2, h]))
  repeat' (first | with_reducible assumption | (intro) | with_reducible apply State.over_regsWf |
    with_reducible apply State.countColour_regsWf | with_reducible apply State.policeDefault_regsWf | split | dsimp only |
                    (have hk1 := @State.countPair_keeps; have hk2 := @State.setEntry_keeps; simp [hk1, hk2]))

@[simp] theorem State.judge_regsWf (s : State) (p : EgressPort) (f : Frame) (srcDefault : Bool) (absent : Option EpId) (h : Store.wfFrom resetWord 0 s.regs = true) :
    Store.wfFrom resetWord 0 (State.judge s p f srcDefault absent).1.regs = true := by
  unfold State.judge
  (try dsimp only)
  (repeat' split) <;> (try simp only [Prod.ext_iff] at *) <;> (try casesm* _ ∧ _) <;> subst_vars <;> (try (have hk1 := @State.writeHeader_keeps; simp [hk1, h]))
  repeat' (first | with_reducible assumption | (intro) | with_reducible apply State.over_regsWf |
    with_reducible apply State.police_regsWf | with_reducible apply State.copies_regsWf |
    with_reducible apply State.sourceEntry_regsWf | with_reducible apply State.count_regsWf |
    with_reducible apply State.destination_regsWf | split | dsimp only |
                    (have hk1 := @State.writeHeader_keeps; simp [hk1]))

@[simp] theorem State.siftCopies_regsWf (s : State) (y1 : List (Frame × List EgressPort)) (h : Store.wfFrom resetWord 0 s.regs = true) :
    Store.wfFrom resetWord 0 (State.siftCopies s y1).1.regs = true := by
  fun_induction State.siftCopies s y1 <;> (try simp only [Prod.ext_iff] at *) <;> (try casesm* _ ∧ _) <;> subst_vars
  · simp_all
  · simp_all
  · refine (‹Store.wfFrom resetWord 0 _ = true → _›) ?_
    split
    · exact State.twinCheck_regsWf _ _ h
    · exact h

@[simp] theorem State.placeCopies_regsWf (s : State) (ingress : EgressPort) (matched : List MatchedGen) (credit : Nat) (start : Nat) (y1 : List (Frame × List EgressPort)) (h : Store.wfFrom resetWord 0 s.regs = true) :
    Store.wfFrom resetWord 0 (State.placeCopies s ingress matched credit start y1).regs = true := by
  fun_induction State.placeCopies s ingress matched credit start y1 <;> (try simp only [Prod.ext_iff] at *) <;> (try casesm* _ ∧ _) <;> subst_vars <;> (have hk1 := @State.store_keeps; simp_all +zetaDelta [hk1])

@[simp] theorem State.accept_regsWf (s : State) (ingress : EgressPort) (f : Frame) (a : Accepted) (h : Store.wfFrom resetWord 0 s.regs = true) :
    Store.wfFrom resetWord 0 (State.accept s ingress f a).regs = true := by
  unfold State.accept
  (try dsimp only)
  (repeat' split) <;> (try (have hk1 := @State.returnCredit_keeps; simp [hk1, h]))
  repeat' (first | with_reducible assumption | (intro) | with_reducible apply State.over_regsWf |
    with_reducible apply State.copies_regsWf | with_reducible apply State.keyBad_regsWf |
    with_reducible apply State.placeCopies_regsWf | with_reducible apply State.siftCopies_regsWf | split | dsimp only |
                    (have hk1 := @State.returnCredit_keeps; simp [hk1]))

@[simp] theorem State.leaveDest_regsWf (s : State) (m : MissFrame) (h : Store.wfFrom resetWord 0 s.regs = true) :
    Store.wfFrom resetWord 0 (State.leaveDest s m).regs = true := by
  unfold State.leaveDest
  (try dsimp only)
  (repeat' split) <;> (try simp only [Prod.ext_iff] at *) <;> (try casesm* _ ∧ _) <;> subst_vars <;> (try (have hk1 := @State.dropFrame_keeps; have hk2 := @State.writeHeader_keeps; simp [hk1, hk2, h]))
  repeat' (first | with_reducible assumption | (intro) | with_reducible apply State.over_regsWf |
    with_reducible apply State.accept_regsWf | with_reducible apply State.copies_regsWf |
    with_reducible apply State.policeDefault_regsWf | split | dsimp only |
                    (have hk1 := @State.dropFrame_keeps; have hk2 := @State.writeHeader_keeps; simp [hk1, hk2]))

@[simp] theorem State.eachWaiting_regsWf {f : State → MissFrame → State}
    (h : ∀ (t : State) (m : MissFrame), Store.wfFrom resetWord 0 t.regs = true → Store.wfFrom resetWord 0 (f t m).regs = true)
    (s : State) (key : EpId) (hs : Store.wfFrom resetWord 0 s.regs = true) : Store.wfFrom resetWord 0 (State.eachWaiting s key f).regs = true := by
  unfold State.eachWaiting
  have hk := @State.takeMiss_keeps
  refine State.over_regsWf (fun t m ht => ?_) _ _ hs
  split
  · exact h _ _ (by simp [hk, ht])
  · exact ht

@[simp] theorem State.leaveMiss_regsWf (y1 : Nat) (y2 : State) (y3 : MissFrame) (h : Store.wfFrom resetWord 0 y2.regs = true) :
    Store.wfFrom resetWord 0 (State.leaveMiss y1 y2 y3).regs = true := by
  induction y1 generalizing y2 y3 with
  | zero => exact State.leaveDest_regsWf _ _ h
  | succ n ih =>
    unfold State.leaveMiss
    dsimp only
    (repeat' split) <;> (try simp only [Prod.ext_iff] at *) <;> (try casesm* _ ∧ _) <;> subst_vars
    all_goals have hk1 := @State.enqueueMiss_keeps; have hk2 := @State.startFetch_keeps; have hk3 := @State.dropFrame_keeps; have hk4 := @State.judge_keeps
    all_goals repeat' (first | with_reducible assumption | (intro) | with_reducible apply ih | with_reducible apply State.leaveDest_regsWf |
        with_reducible apply State.accept_regsWf | with_reducible apply State.eachWaiting_regsWf | with_reducible apply State.judge_regsWf | with_reducible apply State.dropFrame_regsWf | with_reducible apply State.enqueueMiss_regsWf | with_reducible apply State.startFetch_regsWf |
        with_reducible apply State.count_regsWf | split | simp [hk1, hk2, hk3, hk4])

@[simp] theorem State.release1_regsWf (s : State) (m : MissFrame) (h : Store.wfFrom resetWord 0 s.regs = true) :
    Store.wfFrom resetWord 0 (State.release1 s m).regs = true := by
  unfold State.release1
  (try dsimp only)
  (repeat' split) <;> (try simp [h])
  repeat' (first | with_reducible assumption | (intro) | with_reducible apply State.over_regsWf |
    with_reducible apply State.leaveMiss_regsWf | split | dsimp only | simp)

@[simp] theorem State.releaseKey_regsWf (s : State) (key : EpId) (h : Store.wfFrom resetWord 0 s.regs = true) :
    Store.wfFrom resetWord 0 (State.releaseKey s key).regs = true := by
  unfold State.releaseKey
  (try dsimp only)
  (repeat' split) <;> (try simp [h])
  repeat' (first | with_reducible assumption | (intro) | with_reducible apply State.over_regsWf |
    with_reducible apply State.release1_regsWf | with_reducible apply State.eachWaiting_regsWf | split | dsimp only |
                    simp)

@[simp] theorem State.handle_regsWf (s : State) (p : EgressPort) (f : Frame) (srcDefault : Bool) (absent : Option EpId) (h : Store.wfFrom resetWord 0 s.regs = true) :
    Store.wfFrom resetWord 0 (State.handle s p f srcDefault absent).regs = true := by
  unfold State.handle
  (try dsimp only)
  (repeat' split) <;> (try simp only [Prod.ext_iff] at *) <;> (try casesm* _ ∧ _) <;> subst_vars <;> (try (have hk1 := @State.dropFrame_keeps; have hk2 := @State.enqueueMiss_keeps; have hk3 := @State.startFetch_keeps; simp [hk1, hk2, hk3, h]))
  repeat' (first | with_reducible assumption | (intro) | with_reducible apply State.over_regsWf |
    with_reducible apply State.judge_regsWf | with_reducible apply State.accept_regsWf |
    with_reducible apply State.release1_regsWf | with_reducible apply State.releaseKey_regsWf | split | dsimp only |
                    (have hk1 := @State.dropFrame_keeps; have hk2 := @State.enqueueMiss_keeps; have hk3 := @State.startFetch_keeps; simp [hk1, hk2, hk3]))

@[simp] theorem State.zombie_regsWf (s : State) (t : EngineTag) (h : Store.wfFrom resetWord 0 s.regs = true) :
    Store.wfFrom resetWord 0 (State.zombie s t).regs = true := by
  unfold State.zombie
  (try dsimp only)
  (repeat' split) <;> (try simp [h])
  repeat' (first | with_reducible assumption | (intro) | with_reducible apply State.over_regsWf |
    with_reducible apply State.count_regsWf | with_reducible apply State.setRegN_regsWf | split | dsimp only | simp)

@[simp] theorem State.checkIds_regsWf (s : State) (p : EgressPort) (f : Frame) (h : Store.wfFrom resetWord 0 s.regs = true) :
    Store.wfFrom resetWord 0 (State.checkIds s p f).1.regs = true := by
  unfold State.checkIds
  (try dsimp only)
  (repeat' split) <;> (try simp [h])
  repeat' (first | with_reducible assumption | (intro) | with_reducible apply State.over_regsWf |
    with_reducible apply State.count_regsWf | split | dsimp only | simp)

@[simp] theorem State.precheck_regsWf (s : State) (p : EgressPort) (rx : RxFrame) (h : Store.wfFrom resetWord 0 s.regs = true) :
    Store.wfFrom resetWord 0 (State.precheck s p rx).1.regs = true := by
  unfold State.precheck
  (try dsimp only)
  (repeat' split) <;> (try simp [h])
  repeat' (first | with_reducible assumption | (intro) | with_reducible apply State.over_regsWf |
    with_reducible apply State.count_regsWf | with_reducible apply State.checkTag_regsWf |
    with_reducible apply State.checkIds_regsWf | split | dsimp only | simp)

@[simp] theorem State.mapFrame_regsWf (s : State) (n : LocalPort) (bytes : List Byte) (h : Store.wfFrom resetWord 0 s.regs = true) :
    Store.wfFrom resetWord 0 (State.mapFrame s n bytes).1.regs = true := by
  unfold State.mapFrame
  (try dsimp only)
  (repeat' split) <;> (try simp [h])
  repeat' (first | with_reducible assumption | (intro) | with_reducible apply State.over_regsWf |
    with_reducible apply State.count_regsWf | split | dsimp only | simp)

@[simp] theorem State.countLocal_regsWf (s : State) (p : EgressPort) (frames : Nat → Nat) (bytes : Nat → Nat) (n : Nat) (h : Store.wfFrom resetWord 0 s.regs = true) :
    Store.wfFrom resetWord 0 (State.countLocal s p frames bytes n).regs = true := by
  unfold State.countLocal
  (try dsimp only)
  (repeat' split) <;> (try simp [h])
  repeat' (first | with_reducible assumption | (intro) | with_reducible apply State.over_regsWf |
    with_reducible apply State.count48_regsWf | split | dsimp only | simp)

@[simp] theorem State.chamberUe_regsWf (s : State) (c : ChamberIx) (h : Store.wfFrom resetWord 0 s.regs = true) :
    Store.wfFrom resetWord 0 (State.chamberUe s c).regs = true := by
  unfold State.chamberUe
  (try dsimp only)
  (repeat' split) <;> (try simp [h])
  repeat' (first | with_reducible assumption | (intro) | with_reducible apply State.over_regsWf |
    with_reducible apply State.count_regsWf | split | dsimp only | simp)

@[simp] theorem State.countCe_regsWf (s : State) (found : List CellError) (h : Store.wfFrom resetWord 0 s.regs = true) :
    Store.wfFrom resetWord 0 (State.countCe s found).regs = true := by
  unfold State.countCe
  (try dsimp only)
  (repeat' split) <;> (try simp [h])
  repeat' (first | with_reducible assumption | (intro) | with_reducible apply State.over_regsWf |
    with_reducible apply State.count_regsWf | split | dsimp only | simp)

@[simp] theorem State.discardRef_regsWf (s : State) (p : EgressPort) (c : Cls) (f : Stored) (counter : Nat) (h : Store.wfFrom resetWord 0 s.regs = true) :
    Store.wfFrom resetWord 0 (State.discardRef s p c f counter).regs = true := by
  unfold State.discardRef
  (try dsimp only)
  (repeat' split) <;> (try (have hk1 := @State.unmarkTwin_keeps; simp [hk1, h]))
  repeat' (first | with_reducible assumption | (intro) | with_reducible apply State.over_regsWf |
    with_reducible apply State.dropRef_regsWf | with_reducible apply State.count_regsWf | split | dsimp only |
                    (have hk1 := @State.unmarkTwin_keeps; simp [hk1]))

@[simp] theorem State.cleanHead_regsWf (p : EgressPort) (c : Cls) (y1 : Nat) (y2 : State) (h : Store.wfFrom resetWord 0 y2.regs = true) :
    Store.wfFrom resetWord 0 (State.cleanHead p c y1 y2).regs = true := by
  fun_induction State.cleanHead p c y1 y2 <;> (try simp only [Prod.ext_iff] at *) <;> (try casesm* _ ∧ _) <;> subst_vars <;> simp_all +zetaDelta

@[simp] theorem State.debitCommitted_regsWf (s : State) (p : EgressPort) (c : Cls) (n : Nat) (h : Store.wfFrom resetWord 0 s.regs = true) :
    Store.wfFrom resetWord 0 (State.debitCommitted s p c n).regs = true := by
  unfold State.debitCommitted
  (try dsimp only)
  (repeat' split) <;> (try simp [h])
  repeat' (first | with_reducible assumption | (intro) | with_reducible apply State.over_regsWf |
    with_reducible apply State.count48_regsWf | with_reducible apply State.setRegN_regsWf | split | dsimp only | simp)

@[simp] theorem State.debitRobin_regsWf (s : State) (p : EgressPort) (cs : List (Cls × Nat)) (c : Cls) (n : Nat) (idx : Nat) (h : Store.wfFrom resetWord 0 s.regs = true) :
    Store.wfFrom resetWord 0 (State.debitRobin s p cs c n idx).regs = true := by
  unfold State.debitRobin
  (try dsimp only)
  (repeat' split) <;> (try simp [h])
  repeat' (first | with_reducible assumption | (intro) | with_reducible apply State.over_regsWf |
    with_reducible apply State.count48_regsWf | with_reducible apply State.setRegN_regsWf | split | dsimp only | simp)

@[simp] theorem State.joinOwn_regsWf (s : State) (t : TrunkPort) (f : Frame) (h : Store.wfFrom resetWord 0 s.regs = true) :
    Store.wfFrom resetWord 0 (State.joinOwn s t f).regs = true := by
  unfold State.joinOwn
  (try dsimp only)
  (repeat' split) <;> (try (have hk1 := @State.modStored_keeps; have hk2 := @State.store_keeps; simp [hk1, hk2, h]))
  repeat' (first | with_reducible assumption | (intro) | with_reducible apply State.over_regsWf |
    with_reducible apply State.joinQueue_regsWf | with_reducible apply State.count_regsWf | split | dsimp only |
                    (have hk1 := @State.modStored_keeps; have hk2 := @State.store_keeps; simp [hk1, hk2]))

@[simp] theorem State.takeOwn_regsWf (s : State) (p : EgressPort) (h : Store.wfFrom resetWord 0 s.regs = true) :
    Store.wfFrom resetWord 0 (State.takeOwn s p).regs = true := by
  unfold State.takeOwn
  (try dsimp only)
  (repeat' split) <;> (try simp [h])
  repeat' (first | with_reducible assumption | (intro) | with_reducible apply State.over_regsWf |
    with_reducible apply State.joinOwn_regsWf | split | dsimp only | simp)

@[simp] theorem State.dropFirst_regsWf (s : State) (p : EgressPort) (c : Cls) (f : Stored) (found : List CellError) (counter : Nat) (h : Store.wfFrom resetWord 0 s.regs = true) :
    Store.wfFrom resetWord 0 (State.dropFirst s p c f found counter).regs = true := by
  unfold State.dropFirst
  (try dsimp only)
  (repeat' split) <;> (try simp [h])
  repeat' (first | with_reducible assumption | (intro) | with_reducible apply State.over_regsWf |
    with_reducible apply State.countCe_regsWf | with_reducible apply State.chamberUe_regsWf |
    with_reducible apply State.discardRef_regsWf | split | dsimp only | simp)

@[simp] theorem State.countLate_regsWf (s : State) (p : EgressPort) (f : Frame) (h : Store.wfFrom resetWord 0 s.regs = true) :
    Store.wfFrom resetWord 0 (State.countLate s p f).regs = true := by
  unfold State.countLate
  (try dsimp only)
  (repeat' split) <;> (try simp [h])
  repeat' (first | with_reducible assumption | (intro) | with_reducible apply State.over_regsWf |
    with_reducible apply State.count_regsWf | split | dsimp only | simp)

@[simp] theorem State.sendTvl_regsWf (s : State) (p : EgressPort) (l : LinkPort) (g : Frame) (h : Store.wfFrom resetWord 0 s.regs = true) :
    Store.wfFrom resetWord 0 (State.sendTvl s p l g).regs = true := by
  unfold State.sendTvl
  (try dsimp only)
  (repeat' split) <;> (try (have hk1 := @State.encrypt_keeps; have hk2 := @State.reauthSpent_keeps; simp [hk1, hk2, h]))
  repeat' (first | with_reducible assumption | (intro) | with_reducible apply State.over_regsWf |
    with_reducible apply State.countLocal_regsWf | split | dsimp only |
                    (have hk1 := @State.encrypt_keeps; have hk2 := @State.reauthSpent_keeps; simp [hk1, hk2]))

@[simp] theorem State.ecnMarked_regsWf (s : State) (g : Frame) (h : Store.wfFrom resetWord 0 s.regs = true) :
    Store.wfFrom resetWord 0 (State.ecnMarked s g).1.regs = true := by
  unfold State.ecnMarked
  (try dsimp only)
  (repeat' split) <;> (try simp [h])
  repeat' (first | with_reducible assumption | (intro) | with_reducible apply State.over_regsWf |
    with_reducible apply State.count_regsWf | split | dsimp only | simp)

@[simp] theorem State.sendEth_regsWf (s : State) (p : EgressPort) (n : LocalPort) (g : Frame) (h : Store.wfFrom resetWord 0 s.regs = true) :
    Store.wfFrom resetWord 0 (State.sendEth s p n g).regs = true := by
  unfold State.sendEth
  (try dsimp only)
  (repeat' split) <;> (try simp [h])
  repeat' (first | with_reducible assumption | (intro) | with_reducible apply State.over_regsWf |
    with_reducible apply State.countLocal_regsWf | with_reducible apply State.count_regsWf |
    with_reducible apply State.ecnMarked_regsWf | split | dsimp only | simp)

@[simp] theorem State.dispatch_regsWf (s : State) (f : Stored) (h : Store.wfFrom resetWord 0 s.regs = true) :
    Store.wfFrom resetWord 0 (State.dispatch s f).regs = true := by
  unfold State.dispatch
  (try dsimp only)
  (repeat' split) <;> (try (have hk1 := @State.modInbox_keeps; have hk2 := @State.release_keeps; simp [hk1, hk2, h]))
  repeat' (first | with_reducible assumption | (intro) | with_reducible apply State.over_regsWf |
    with_reducible apply State.count_regsWf | split | dsimp only |
                    (have hk1 := @State.modInbox_keeps; have hk2 := @State.release_keeps; simp [hk1, hk2]))

@[simp] theorem State.startFrame_regsWf (s : State) (p : EgressPort) (f : Stored) (marked : Bool) (h : Store.wfFrom resetWord 0 s.regs = true) :
    Store.wfFrom resetWord 0 (State.startFrame s p f marked).regs = true := by
  unfold State.startFrame
  (try dsimp only)
  (repeat' split) <;> (try (have hk1 := @State.spendCredit_keeps; simp [hk1, h]))
  repeat' (first | with_reducible assumption | (intro) | with_reducible apply State.over_regsWf |
    with_reducible apply State.count48_regsWf | with_reducible apply State.countLate_regsWf | split | dsimp only |
                    (have hk1 := @State.spendCredit_keeps; simp [hk1]))

@[simp] theorem State.transmit_regsWf (s : State) (p : EgressPort) (f : Stored) (g : Frame) (h : Store.wfFrom resetWord 0 s.regs = true) :
    Store.wfFrom resetWord 0 (State.transmit s p f g).regs = true := by
  unfold State.transmit
  (try dsimp only)
  (repeat' split) <;> (try simp [h])
  repeat' (first | with_reducible assumption | (intro) | with_reducible apply State.over_regsWf |
    with_reducible apply State.dispatch_regsWf | with_reducible apply State.sendEth_regsWf |
    with_reducible apply State.sendTvl_regsWf | split | dsimp only | simp)

@[simp] theorem State.endBad_regsWf (s : State) (p : EgressPort) (f : Stored) (bad : List ChamberIx) (h : Store.wfFrom resetWord 0 s.regs = true) :
    Store.wfFrom resetWord 0 (State.endBad s p f bad).regs = true := by
  unfold State.endBad
  (try dsimp only)
  (repeat' split) <;> (try (have hk1 := @State.unmarkTwin_keeps; simp [hk1, h]))
  repeat' (first | with_reducible assumption | (intro) | with_reducible apply State.over_regsWf |
    with_reducible apply State.abortFrame_regsWf | with_reducible apply State.count_regsWf |
    with_reducible apply State.chamberUe_regsWf | split | dsimp only | (have hk1 := @State.unmarkTwin_keeps; simp [hk1]))

@[simp] theorem State.finishFrame_regsWf (s : State) (p : EgressPort) (f : Stored) (g : Frame) (found : List CellError) (h : Store.wfFrom resetWord 0 s.regs = true) :
    Store.wfFrom resetWord 0 (State.finishFrame s p f g found).regs = true := by
  unfold State.finishFrame
  (try dsimp only)
  (repeat' split) <;> (try simp [h])
  repeat' (first | with_reducible assumption | (intro) | with_reducible apply State.over_regsWf |
    with_reducible apply State.endBad_regsWf | with_reducible apply State.transmit_regsWf | split | dsimp only | simp)

@[simp] theorem State.unqueue_regsWf (s : State) (q : QueueIx) (id : Nat) (h : Store.wfFrom resetWord 0 s.regs = true) :
    Store.wfFrom resetWord 0 (State.unqueue s q id).regs = true := by
  unfold State.unqueue
  (try dsimp only)
  (repeat' split) <;> (try (have hk1 := @State.modQueue_keeps; simp [hk1, h]))
  repeat' (first | with_reducible assumption | (intro) | with_reducible apply State.over_regsWf |
    with_reducible apply State.emptyDeficit_regsWf | split | dsimp only |
                    (have hk1 := @State.modQueue_keeps; simp [hk1]))

@[simp] theorem State.launch_regsWf (s : State) (p : EgressPort) (c : Cls) (r : QRef) (f : Stored) (found : List CellError) (h : Store.wfFrom resetWord 0 s.regs = true) :
    Store.wfFrom resetWord 0 (State.launch s p c r f found).regs = true := by
  unfold State.launch
  (try dsimp only)
  (repeat' split) <;> (try (have hk1 := @State.release_keeps; simp [hk1, h]))
  repeat' (first | with_reducible assumption | (intro) | with_reducible apply State.over_regsWf |
    with_reducible apply State.finishFrame_regsWf | with_reducible apply State.countCe_regsWf |
    with_reducible apply State.unqueue_regsWf | with_reducible apply State.startFrame_regsWf | split | dsimp only |
                    (have hk1 := @State.release_keeps; simp [hk1]))

@[simp] theorem State.decideSlot_regsWf (p : EgressPort) (cclk : Nat) (found : List CellError) (y1 : Nat) (y2 : State) (h : Store.wfFrom resetWord 0 y2.regs = true) :
    Store.wfFrom resetWord 0 (State.decideSlot p cclk found y1 y2).regs = true := by
  induction y1 generalizing y2 found with
  | zero => exact h
  | succ n ih =>
    unfold State.decideSlot
    dsimp only
    have h0 : Store.wfFrom resetWord 0 (y2.over classesDown fun s c =>
        State.cleanHead p c s.cav.queues[queueOf p c].refs.length s).regs = true :=
      State.over_regsWf (fun _ _ ht => State.cleanHead_regsWf _ _ _ _ ht) _ _ h
    repeat' (first | with_reducible assumption | with_reducible apply ih | with_reducible apply State.dropFirst_regsWf |
      with_reducible apply State.launch_regsWf | with_reducible apply State.debitCommitted_regsWf | with_reducible apply State.debitRobin_regsWf | split | simp)

@[simp] theorem State.frameSlot_regsWf (s : State) (p : EgressPort) (cclk : Nat) (found : List CellError) (h : Store.wfFrom resetWord 0 s.regs = true) :
    Store.wfFrom resetWord 0 (State.frameSlot s p cclk found).regs = true := by
  unfold State.frameSlot
  (try dsimp only)
  (repeat' split) <;> (try simp [h])
  repeat' (first | with_reducible assumption | (intro) | with_reducible apply State.over_regsWf |
    with_reducible apply State.settle_regsWf | with_reducible apply State.decideSlot_regsWf | split | dsimp only | simp)

@[simp] theorem State.finishCut_regsWf (s : State) (id : Nat) (h : Store.wfFrom resetWord 0 s.regs = true) :
    Store.wfFrom resetWord 0 (State.finishCut s id).regs = true := by
  unfold State.finishCut
  (try dsimp only)
  (repeat' split) <;> (try (have hk1 := @State.release_keeps; simp [hk1, h]))
  repeat' (first | with_reducible assumption | (intro) | with_reducible apply State.over_regsWf |
    with_reducible apply State.finishFrame_regsWf | split | dsimp only | (have hk1 := @State.release_keeps; simp [hk1]))

@[simp] theorem State.writeRates_regsWf (s : State) (a : Nat) (r : RateSet) (h : Store.wfFrom resetWord 0 s.regs = true) :
    Store.wfFrom resetWord 0 (State.writeRates s a r).regs = true := by
  unfold State.writeRates
  (repeat' split) <;> (try simp [h])
  repeat' (first | with_reducible assumption | with_reducible apply State.setReg_regsWf | with_reducible apply State.setRegN_regsWf | with_reducible apply State.count_regsWf  | with_reducible apply Store.wfFrom_set | exact Nat.zero_le _ | simp)

@[simp] theorem State.writePlan_regsWf (s : State) (plan : Plan) (h : Store.wfFrom resetWord 0 s.regs = true) :
    Store.wfFrom resetWord 0 (State.writePlan s plan).regs = true := by
  unfold State.writePlan
  (try dsimp only)
  (repeat' split) <;> (try simp [h])
  repeat' (first | with_reducible assumption | (intro) | with_reducible apply State.over_regsWf |
    with_reducible apply State.writeRates_regsWf | with_reducible apply State.setRegN_regsWf | split | dsimp only | simp)

@[simp] theorem State.commitGroups_regsWf (m : Master) (target : Nat) (y1 : List Nat) (y2 : List Nat) (y3 : State) (h : Store.wfFrom resetWord 0 y3.regs = true) :
    Store.wfFrom resetWord 0 (State.commitGroups m target y1 y2 y3).1.regs = true := by
  fun_induction State.commitGroups m target y1 y2 y3 <;> (try simp only [Prod.ext_iff] at *) <;> (try casesm* _ ∧ _) <;> subst_vars <;> simp_all +zetaDelta

@[simp] theorem State.answerRequest_regsWf (s : State) (r : TunnelReq) (code : Nat) (h : Store.wfFrom resetWord 0 s.regs = true) :
    Store.wfFrom resetWord 0 (State.answerRequest s r code).regs = true := by
  unfold State.answerRequest
  (try dsimp only)
  (repeat' split) <;> (try simp [h])
  repeat' (first | with_reducible assumption | (intro) | with_reducible apply State.over_regsWf |
    with_reducible apply State.setRegN_regsWf | split | dsimp only | simp)

@[simp] theorem State.takeRequest_regsWf (s : State) (r : TunnelReq) (h : Store.wfFrom resetWord 0 s.regs = true) :
    Store.wfFrom resetWord 0 (State.takeRequest s r).regs = true := by
  unfold State.takeRequest
  (try dsimp only)
  (repeat' split) <;> (try simp [h])
  repeat' (first | with_reducible assumption | (intro) | with_reducible apply State.over_regsWf |
    with_reducible apply State.answerRequest_regsWf | split | dsimp only | simp)

@[simp] theorem State.requestsDone_regsWf (s : State) (rs : List TunnelReq) (h : Store.wfFrom resetWord 0 s.regs = true) :
    Store.wfFrom resetWord 0 (State.requestsDone s rs).regs = true := by
  unfold State.requestsDone
  (try dsimp only)
  (repeat' split) <;> (try simp [h])
  repeat' (first | with_reducible assumption | (intro) | with_reducible apply State.over_regsWf |
    with_reducible apply State.takeRequest_regsWf | split | dsimp only | simp)

@[simp] theorem State.rejectPlan_regsWf (s : State) (h : Store.wfFrom resetWord 0 s.regs = true) :
    Store.wfFrom resetWord 0 (State.rejectPlan s).regs = true := by
  unfold State.rejectPlan
  (try dsimp only)
  (repeat' split) <;> (try simp [h])
  repeat' (first | with_reducible assumption | (intro) | with_reducible apply State.over_regsWf |
    with_reducible apply State.count_regsWf | with_reducible apply State.answerRequest_regsWf | split | dsimp only |
                    simp)

@[simp] theorem State.tryPlan_regsWf (s : State) (m : Master) (x : PlanTry) (h : Store.wfFrom resetWord 0 s.regs = true) :
    Store.wfFrom resetWord 0 (State.tryPlan s m x).regs = true := by
  unfold State.tryPlan
  (try dsimp only)
  (repeat' split) <;> (try simp only [Prod.ext_iff] at *) <;> (try casesm* _ ∧ _) <;> subst_vars <;> (try (have hk1 := @State.keepPlan_keeps; simp [hk1, h]))
  repeat' (first | with_reducible assumption | (intro) | with_reducible apply State.over_regsWf |
    with_reducible apply State.writePlan_regsWf | with_reducible apply State.requestsDone_regsWf |
    with_reducible apply State.commitGroups_regsWf | with_reducible apply State.count_regsWf | split | dsimp only |
                    (have hk1 := @State.keepPlan_keeps; simp [hk1]))

@[simp] theorem State.assignRole_regsWf (s : State) (r : RoleIx) (e : EngineIx) (h : Store.wfFrom resetWord 0 s.regs = true) :
    Store.wfFrom resetWord 0 (State.assignRole s r e).regs = true := by
  unfold State.assignRole
  (try dsimp only)
  (repeat' split) <;> (try (have hk1 := @State.modEngine_keeps; have hk2 := @State.modRole_keeps; simp [hk1, hk2, h]))
  repeat' (first | with_reducible assumption | (intro) | with_reducible apply State.over_regsWf |
    with_reducible apply State.count_regsWf | split | dsimp only |
                    (have hk1 := @State.modEngine_keeps; have hk2 := @State.modRole_keeps; simp [hk1, hk2]))

@[simp] theorem State.assignSpare_regsWf (s : State) (r : RoleIx) (h : Store.wfFrom resetWord 0 s.regs = true) :
    Store.wfFrom resetWord 0 (State.assignSpare s r).regs = true := by
  unfold State.assignSpare
  (try dsimp only)
  (repeat' split) <;> (try (have hk1 := @State.modRole_keeps; have hk2 := @State.noteVacancy_keeps; simp [hk1, hk2, h]))
  repeat' (first | with_reducible assumption | (intro) | with_reducible apply State.over_regsWf |
    with_reducible apply State.assignRole_regsWf | with_reducible apply State.logEvent_regsWf | split | dsimp only |
                    (have hk1 := @State.modRole_keeps; have hk2 := @State.noteVacancy_keeps; simp [hk1, hk2]))

@[simp] theorem State.fillRole_regsWf (s : State) (r : RoleIx) (h : Store.wfFrom resetWord 0 s.regs = true) :
    Store.wfFrom resetWord 0 (State.fillRole s r).regs = true := by
  unfold State.fillRole
  (try dsimp only)
  (repeat' split) <;> (try (have hk1 := @State.modRole_keeps; have hk2 := @State.noteVacancy_keeps; simp [hk1, hk2, h]))
  repeat' (first | with_reducible assumption | (intro) | with_reducible apply State.over_regsWf |
    with_reducible apply State.assignRole_regsWf | split | dsimp only |
                    (have hk1 := @State.modRole_keeps; have hk2 := @State.noteVacancy_keeps; simp [hk1, hk2]))

@[simp] theorem State.fillVacant_regsWf (s : State) (h : Store.wfFrom resetWord 0 s.regs = true) :
    Store.wfFrom resetWord 0 (State.fillVacant s).regs = true := by
  unfold State.fillVacant
  (try dsimp only)
  (repeat' split) <;> (try simp [h])
  repeat' (first | with_reducible assumption | (intro) | with_reducible apply State.over_regsWf |
    with_reducible apply State.fillRole_regsWf | split | dsimp only | simp)

@[simp] theorem State.takeDescriptors_regsWf (s : State) (k : Nat) (n : Nat) (h : Store.wfFrom resetWord 0 s.regs = true) :
    Store.wfFrom resetWord 0 (State.takeDescriptors s k n).regs = true := by
  unfold State.takeDescriptors
  (try dsimp only)
  (repeat' split) <;> (try (have hk1 := @State.modInbox_keeps; have hk2 := @State.release_keeps; simp [hk1, hk2, h]))
  repeat' (first | with_reducible assumption | (intro) | with_reducible apply State.over_regsWf |
    with_reducible apply State.settle_regsWf | split | dsimp only |
                    (have hk1 := @State.modInbox_keeps; have hk2 := @State.release_keeps; simp [hk1, hk2]))

@[simp] theorem State.releaseRole_regsWf (s : State) (r : RoleIx) (h : Store.wfFrom resetWord 0 s.regs = true) :
    Store.wfFrom resetWord 0 (State.releaseRole s r).regs = true := by
  unfold State.releaseRole
  (try dsimp only)
  (repeat' split) <;> (try (have hk1 := @State.declareFailing_keeps; have hk2 := @State.modRole_keeps; simp [hk1, hk2, h]))
  repeat' (first | with_reducible assumption | (intro) | with_reducible apply State.over_regsWf |
    with_reducible apply State.count_regsWf | split | dsimp only |
                    (have hk1 := @State.declareFailing_keeps; have hk2 := @State.modRole_keeps; simp [hk1, hk2]))

@[simp] theorem State.haltColumn_regsWf (s : State) (c : ColumnIx) (h : Store.wfFrom resetWord 0 s.regs = true) :
    Store.wfFrom resetWord 0 (State.haltColumn s c).regs = true := by
  unfold State.haltColumn
  (try dsimp only)
  (repeat' split) <;> (try (have hk1 := @State.modColumn_keeps; simp [hk1, h]))
  repeat' (first | with_reducible assumption | (intro) | with_reducible apply State.over_regsWf |
    with_reducible apply State.logEvent_regsWf | split | dsimp only | (have hk1 := @State.modColumn_keeps; simp [hk1]))

@[simp] theorem State.releaseColumn_regsWf (s : State) (c : ColumnIx) (h : Store.wfFrom resetWord 0 s.regs = true) :
    Store.wfFrom resetWord 0 (State.releaseColumn s c).regs = true := by
  unfold State.releaseColumn
  (try dsimp only)
  (repeat' split) <;> (try (have hk1 := @State.modColumn_keeps; simp [hk1, h]))
  repeat' (first | with_reducible assumption | (intro) | with_reducible apply State.over_regsWf |
    with_reducible apply State.count_regsWf | with_reducible apply State.haltColumn_regsWf | split | dsimp only |
                    (have hk1 := @State.modColumn_keeps; simp [hk1]))

@[simp] theorem State.setSuper_regsWf (s : State) (v : Nat) (h : Store.wfFrom resetWord 0 s.regs = true) :
    Store.wfFrom resetWord 0 (State.setSuper s v).regs = true := by
  unfold State.setSuper
  (try dsimp only)
  (repeat' split) <;> (try simp [h])
  repeat' (first | with_reducible assumption | (intro) | with_reducible apply State.over_regsWf |
    with_reducible apply State.setRegN_regsWf | split | dsimp only | simp)

@[simp] theorem State.promote_regsWf (s : State) (h : Store.wfFrom resetWord 0 s.regs = true) :
    Store.wfFrom resetWord 0 (State.promote s).regs = true := by
  unfold State.promote
  (try dsimp only)
  (repeat' split) <;> (try simp [h])
  repeat' (first | with_reducible assumption | (intro) | with_reducible apply State.over_regsWf |
    with_reducible apply State.cancelGroup_regsWf | with_reducible apply State.count_regsWf |
    with_reducible apply State.setSuper_regsWf | split | dsimp only | simp)

@[simp] theorem State.handBack_regsWf (s : State) (h : Store.wfFrom resetWord 0 s.regs = true) :
    Store.wfFrom resetWord 0 (State.handBack s).regs = true := by
  unfold State.handBack
  (try dsimp only)
  (repeat' split) <;> (try simp [h])
  repeat' (first | with_reducible assumption | (intro) | with_reducible apply State.over_regsWf |
    with_reducible apply State.count_regsWf | with_reducible apply State.setSuper_regsWf | split | dsimp only | simp)

@[simp] theorem State.passSupervision_regsWf (s : State) (h : Store.wfFrom resetWord 0 s.regs = true) :
    Store.wfFrom resetWord 0 (State.passSupervision s).regs = true := by
  unfold State.passSupervision
  (try dsimp only)
  (repeat' split) <;> (try simp [h])
  repeat' (first | with_reducible assumption | (intro) | with_reducible apply State.over_regsWf |
    with_reducible apply State.setSuper_regsWf | with_reducible apply State.promote_regsWf |
    with_reducible apply State.handBack_regsWf | split | dsimp only | simp)

@[simp] theorem State.takeSupervision_regsWf (s : State) (h : Store.wfFrom resetWord 0 s.regs = true) :
    Store.wfFrom resetWord 0 (State.takeSupervision s).regs = true := by
  unfold State.takeSupervision
  (try dsimp only)
  (repeat' split) <;> (try simp [h])
  repeat' (first | with_reducible assumption | (intro) | with_reducible apply State.over_regsWf |
    with_reducible apply State.promote_regsWf | with_reducible apply State.handBack_regsWf | split | dsimp only | simp)

@[simp] theorem State.engineHead_regsWf (s : State) (h : Store.wfFrom resetWord 0 s.regs = true) :
    Store.wfFrom resetWord 0 (State.engineHead s).regs = true := by
  unfold State.engineHead
  (try dsimp only)
  (repeat' split) <;> (try simp [h])
  repeat' (first | with_reducible assumption | (intro) | with_reducible apply State.over_regsWf |
    with_reducible apply State.releaseColumn_regsWf | with_reducible apply State.fillVacant_regsWf |
    with_reducible apply State.takeSupervision_regsWf | with_reducible apply State.releaseRole_regsWf |
    with_reducible apply State.passSupervision_regsWf | split | dsimp only | simp)

@[simp] theorem State.epCommand_regsWf (s : State) (m : Master) (op : Nat) (h : Store.wfFrom resetWord 0 s.regs = true) :
    Store.wfFrom resetWord 0 (State.epCommand s m op).regs = true := by
  unfold State.epCommand
  (try dsimp only)
  (repeat' split) <;> (try (have hk1 := @State.dropUnpinned_keeps; have hk2 := @State.writeEntry_keeps; simp [hk1, hk2, h]))
  repeat' (first | with_reducible assumption | (intro) | with_reducible apply State.over_regsWf |
    with_reducible apply State.setReg_regsWf | with_reducible apply State.setRegN_regsWf | split | dsimp only |
                    (have hk1 := @State.dropUnpinned_keeps; have hk2 := @State.writeEntry_keeps; simp [hk1, hk2]))

@[simp] theorem State.mapCommand_regsWf (s : State) (m : Master) (op : Nat) (h : Store.wfFrom resetWord 0 s.regs = true) :
    Store.wfFrom resetWord 0 (State.mapCommand s m op).regs = true := by
  unfold State.mapCommand
  (try dsimp only)
  (repeat' split) <;> (try simp [h])
  repeat' (first | with_reducible assumption | (intro) | with_reducible apply State.over_regsWf |
    with_reducible apply State.setRegN_regsWf | split | dsimp only | simp)

@[simp] theorem State.treqCommand_regsWf (s : State) (m : Master) (w : Word) (h : Store.wfFrom resetWord 0 s.regs = true) :
    Store.wfFrom resetWord 0 (State.treqCommand s m w).regs = true := by
  unfold State.treqCommand
  (try dsimp only)
  (repeat' split) <;> (try simp [h])
  repeat' (first | with_reducible assumption | (intro) | with_reducible apply State.over_regsWf |
    with_reducible apply State.setRegN_regsWf | split | dsimp only | simp)

@[simp] theorem State.engCommand_regsWf (s : State) (m : Master) (w : Word) (h : Store.wfFrom resetWord 0 s.regs = true) :
    Store.wfFrom resetWord 0 (State.engCommand s m w).regs = true := by
  unfold State.engCommand
  (try dsimp only)
  (repeat' split) <;> (try (have hk1 := @State.modEngine_keeps; simp [hk1, h]))
  repeat' (first | with_reducible assumption | (intro) | with_reducible apply State.over_regsWf |
    with_reducible apply State.setRegN_regsWf | split | dsimp only | (have hk1 := @State.modEngine_keeps; simp [hk1]))

@[simp] theorem State.mapSpare_regsWf (s : State) (ph : ChamberIx) (c : Fin 16) (h : Store.wfFrom resetWord 0 s.regs = true) :
    Store.wfFrom resetWord 0 (State.mapSpare s ph c).regs = true := by
  unfold State.mapSpare
  (try dsimp only)
  (repeat' split) <;> (try simp [h])
  repeat' (first | with_reducible assumption | (intro) | with_reducible apply State.over_regsWf |
    with_reducible apply State.setFld_regsWf | with_reducible apply State.logEvent_regsWf |
    with_reducible apply State.setBit_regsWf | split | dsimp only | simp)

@[simp] theorem State.fence_regsWf (s : State) (c : Fin 16) (h : Store.wfFrom resetWord 0 s.regs = true) :
    Store.wfFrom resetWord 0 (State.fence s c).regs = true := by
  unfold State.fence
  (try dsimp only)
  (repeat' split) <;> (try simp [h])
  repeat' (first | with_reducible assumption | (intro) | with_reducible apply State.over_regsWf |
    with_reducible apply State.logEvent_regsWf | with_reducible apply State.setBit_regsWf | split | dsimp only | simp)

@[simp] theorem State.failChamber_regsWf (s : State) (ph : ChamberIx) (h : Store.wfFrom resetWord 0 s.regs = true) :
    Store.wfFrom resetWord 0 (State.failChamber s ph).regs = true := by
  unfold State.failChamber
  (try dsimp only)
  (repeat' split) <;> (try simp [h])
  repeat' (first | with_reducible assumption | (intro) | with_reducible apply State.over_regsWf |
    with_reducible apply State.fence_regsWf | with_reducible apply State.mapSpare_regsWf |
    with_reducible apply State.setBit_regsWf | split | dsimp only | simp)

@[simp] theorem State.unspill_regsWf (s : State) (q : QueueIx) (r : QRef) (f : Stored) (resv : Nat) (pool : Nat) (h : Store.wfFrom resetWord 0 s.regs = true) :
    Store.wfFrom resetWord 0 (State.unspill s q r f resv pool).regs = true := by
  unfold State.unspill
  (try dsimp only)
  (repeat' split) <;> (try (have hk1 := @State.allocCells_keeps; have hk2 := @State.modRef_keeps; have hk3 := @State.modStored_keeps; have hk4 := @State.pageReturned_keeps; simp [hk1, hk2, hk3, hk4, h]))
  repeat' (first | with_reducible assumption | (intro) | with_reducible apply State.over_regsWf |
    with_reducible apply State.count48_regsWf | split | dsimp only |
                    (have hk1 := @State.allocCells_keeps; have hk2 := @State.modRef_keeps; have hk3 := @State.modStored_keeps; have hk4 := @State.pageReturned_keeps; simp [hk1, hk2, hk3, hk4]))

@[simp] theorem State.discardSpilled_regsWf (s : State) (q : QueueIx) (r : QRef) (h : Store.wfFrom resetWord 0 s.regs = true) :
    Store.wfFrom resetWord 0 (State.discardSpilled s q r).regs = true := by
  unfold State.discardSpilled
  (try dsimp only)
  (repeat' split) <;> (try (have hk1 := @State.pageReturned_keeps; simp [hk1, h]))
  repeat' (first | with_reducible assumption | (intro) | with_reducible apply State.over_regsWf |
    with_reducible apply State.dropRef_regsWf | with_reducible apply State.count_regsWf |
    with_reducible apply State.sumpError_regsWf | split | dsimp only |
                    (have hk1 := @State.pageReturned_keeps; simp [hk1]))

@[simp] theorem State.sumpLost_regsWf (s : State) (h : Store.wfFrom resetWord 0 s.regs = true) :
    Store.wfFrom resetWord 0 (State.sumpLost s).regs = true := by
  unfold State.sumpLost
  (try dsimp only)
  (repeat' split) <;> (try simp [h])
  repeat' (first | with_reducible assumption | (intro) | with_reducible apply State.over_regsWf |
    with_reducible apply State.dropRef_regsWf | with_reducible apply State.setBit_regsWf |
    with_reducible apply State.settle_regsWf | with_reducible apply State.count_regsWf | split | dsimp only | simp)

@[simp] theorem State.untrain_regsWf (s : State) (h : Store.wfFrom resetWord 0 s.regs = true) :
    Store.wfFrom resetWord 0 (State.untrain s).regs = true := by
  unfold State.untrain
  (try dsimp only)
  (repeat' split) <;> (try simp [h])
  repeat' (first | with_reducible assumption | (intro) | with_reducible apply State.over_regsWf |
    with_reducible apply State.setFld_regsWf | with_reducible apply State.sumpLost_regsWf |
    with_reducible apply State.setBit_regsWf | split | dsimp only | simp)

@[simp] theorem State.trained_regsWf (s : State) (ok : Bool) (h : Store.wfFrom resetWord 0 s.regs = true) :
    Store.wfFrom resetWord 0 (State.trained s ok).regs = true := by
  unfold State.trained
  (try dsimp only)
  (repeat' split) <;> (try simp [h])
  repeat' (first | with_reducible assumption | (intro) | with_reducible apply State.over_regsWf |
    with_reducible apply State.setReg_regsWf | with_reducible apply State.setFld_regsWf |
    with_reducible apply State.setBit_regsWf | split | dsimp only | simp)

@[simp] theorem State.startTraining_regsWf (s : State) (h : Store.wfFrom resetWord 0 s.regs = true) :
    Store.wfFrom resetWord 0 (State.startTraining s).regs = true := by
  unfold State.startTraining
  (try dsimp only)
  (repeat' split) <;> (try simp [h])
  repeat' (first | with_reducible assumption | (intro) | with_reducible apply State.over_regsWf |
    with_reducible apply State.untrain_regsWf | with_reducible apply State.setBit_regsWf | split | dsimp only | simp)

@[simp] theorem State.acceptKey_regsWf (s : State) (m : Master) (w : Word) (root : Bool) (h : Store.wfFrom resetWord 0 s.regs = true) :
    Store.wfFrom resetWord 0 (State.acceptKey s m w root).regs = true := by
  unfold State.acceptKey
  (try dsimp only)
  (repeat' split) <;> (try (have hk1 := @State.markPending_keeps; simp [hk1, h]))
  repeat' (first | with_reducible assumption | (intro) | with_reducible apply State.over_regsWf |
    with_reducible apply State.readSlot_regsWf | split | dsimp only | (have hk1 := @State.markPending_keeps; simp [hk1]))

@[simp] theorem State.tamperWipe_regsWf (s : State) (sources : Nat) (h : Store.wfFrom resetWord 0 s.regs = true) :
    Store.wfFrom resetWord 0 (State.tamperWipe s sources).regs = true := by
  unfold State.tamperWipe
  (try dsimp only)
  (repeat' split) <;> (try (have hk1 := @State.reauthAll_keeps; simp [hk1, h]))
  repeat' (first | with_reducible assumption | (intro) | with_reducible apply State.over_regsWf |
    with_reducible apply State.count_regsWf | with_reducible apply State.setRegN_regsWf |
    with_reducible apply State.logEvent_regsWf | split | dsimp only | (have hk1 := @State.reauthAll_keeps; simp [hk1]))

@[simp] theorem State.endTampered_regsWf (s : State) (h : Store.wfFrom resetWord 0 s.regs = true) :
    Store.wfFrom resetWord 0 (State.endTampered s).regs = true := by
  unfold State.endTampered
  (try dsimp only)
  (repeat' split) <;> (try simp [h])
  repeat' (first | with_reducible assumption | (intro) | with_reducible apply State.over_regsWf |
    with_reducible apply State.count_regsWf | with_reducible apply State.setRegN_regsWf | split | dsimp only | simp)

@[simp] theorem State.tamperNow_regsWf (s : State) (sources : Nat) (h : Store.wfFrom resetWord 0 s.regs = true) :
    Store.wfFrom resetWord 0 (State.tamperNow s sources).regs = true := by
  unfold State.tamperNow
  (try dsimp only)
  (repeat' split) <;> (try simp [h])
  repeat' (first | with_reducible assumption | (intro) | with_reducible apply State.over_regsWf |
    with_reducible apply State.endTampered_regsWf | with_reducible apply State.tamperWipe_regsWf | split | dsimp only |
                    simp)

@[simp] theorem State.enterDebug_regsWf (s : State) (h : Store.wfFrom resetWord 0 s.regs = true) :
    Store.wfFrom resetWord 0 (State.enterDebug s).regs = true := by
  unfold State.enterDebug
  (try dsimp only)
  (repeat' split) <;> (try (have hk1 := @State.reauthAll_keeps; have hk2 := @State.stopAssocs_keeps; have hk3 := @State.zeroVolatile_keeps; simp [hk1, hk2, hk3, h]))
  repeat' (first | with_reducible assumption | (intro) | with_reducible apply State.over_regsWf |
    with_reducible apply State.setBit_regsWf | split | dsimp only |
                    (have hk1 := @State.reauthAll_keeps; have hk2 := @State.stopAssocs_keeps; have hk3 := @State.zeroVolatile_keeps; simp [hk1, hk2, hk3]))

@[simp] theorem State.putKeyData_regsWf (s : State) (m : Master) (bs : List Byte) (h : Store.wfFrom resetWord 0 s.regs = true) :
    Store.wfFrom resetWord 0 (State.putKeyData s m bs).regs = true := by
  unfold State.putKeyData
  (try dsimp only)
  (repeat' split) <;> (try simp [h])
  repeat' (first | with_reducible assumption | (intro) | with_reducible apply State.over_regsWf |
    with_reducible apply State.setRegN_regsWf | split | dsimp only | simp)

@[simp] theorem State.doKey_regsWf (s : State) (c : KeyCommand) (h : Store.wfFrom resetWord 0 s.regs = true) :
    Store.wfFrom resetWord 0 (State.doKey s c).regs = true := by
  unfold State.doKey
  (try dsimp only)
  (repeat' split) <;> (try (have hk1 := @State.installAssoc_keeps; have hk2 := @State.putKey_keeps; have hk3 := @State.retireAssoc_keeps; have hk4 := @State.zeroKey_keeps; simp [hk1, hk2, hk3, hk4, h]))
  repeat' (first | with_reducible assumption | (intro) | with_reducible apply State.over_regsWf |
    with_reducible apply State.transmit_regsWf | with_reducible apply State.putKeyData_regsWf |
    with_reducible apply State.setRegN_regsWf | split | dsimp only |
                    (have hk1 := @State.installAssoc_keeps; have hk2 := @State.putKey_keeps; have hk3 := @State.retireAssoc_keeps; have hk4 := @State.zeroKey_keeps; simp [hk1, hk2, hk3, hk4]))

@[simp] theorem State.doRoot_regsWf (s : State) (c : KeyCommand) (h : Store.wfFrom resetWord 0 s.regs = true) :
    Store.wfFrom resetWord 0 (State.doRoot s c).regs = true := by
  unfold State.doRoot
  (try dsimp only)
  (repeat' split) <;> (try (have hk1 := @State.modSlot_keeps; simp [hk1, h]))
  repeat' (first | with_reducible assumption | (intro) | with_reducible apply State.over_regsWf |
    with_reducible apply State.tamperWipe_regsWf | split | dsimp only | (have hk1 := @State.modSlot_keeps; simp [hk1]))

@[simp] theorem State.runKey_regsWf (s0 : State) (c : KeyCommand) (h : Store.wfFrom resetWord 0 s0.regs = true) :
    Store.wfFrom resetWord 0 (State.runKey s0 c).regs = true := by
  unfold State.runKey
  (try dsimp only)
  (repeat' split) <;> (try simp [h])
  repeat' (first | with_reducible assumption | (intro) | with_reducible apply State.over_regsWf |
    with_reducible apply State.doKey_regsWf | with_reducible apply State.count_regsWf |
    with_reducible apply State.readSlot_regsWf | with_reducible apply State.setRegN_regsWf |
    with_reducible apply State.doRoot_regsWf | split | dsimp only | simp)

@[simp] theorem State.endKey_regsWf (s : State) (h : Store.wfFrom resetWord 0 s.regs = true) :
    Store.wfFrom resetWord 0 (State.endKey s).regs = true := by
  unfold State.endKey
  (try dsimp only)
  (repeat' split) <;> (try simp [h])
  repeat' (first | with_reducible assumption | (intro) | with_reducible apply State.over_regsWf |
    with_reducible apply State.runKey_regsWf | split | dsimp only | simp)

@[simp] theorem State.cascadeHead_regsWf (s0 : State) (h : Store.wfFrom resetWord 0 s0.regs = true) :
    Store.wfFrom resetWord 0 (State.cascadeHead s0).regs = true := by
  unfold State.cascadeHead
  (try dsimp only)
  (repeat' split) <;> (try (have hk1 := @State.applyDueKeys_keeps; have hk2 := @State.reauthStopped_keeps; have hk3 := @State.stopAssocs_keeps; simp [hk1, hk2, hk3, h]))
  repeat' (first | with_reducible assumption | (intro) | with_reducible apply State.over_regsWf |
    with_reducible apply State.count_regsWf | with_reducible apply State.countN_regsWf | split | dsimp only |
                    (have hk1 := @State.applyDueKeys_keeps; have hk2 := @State.reauthStopped_keeps; have hk3 := @State.stopAssocs_keeps; simp [hk1, hk2, hk3]))

@[simp] theorem State.fuseCommand_regsWf (s : State) (w : Word) (h : Store.wfFrom resetWord 0 s.regs = true) :
    Store.wfFrom resetWord 0 (State.fuseCommand s w).regs = true := by
  unfold State.fuseCommand
  (try dsimp only)
  (repeat' split) <;> (try simp [h])
  repeat' (first | with_reducible assumption | (intro) | with_reducible apply State.over_regsWf |
    with_reducible apply State.setRegN_regsWf | split | dsimp only | simp)

@[simp] theorem State.endFuse_regsWf (s : State) (ok : Bool) (h : Store.wfFrom resetWord 0 s.regs = true) :
    Store.wfFrom resetWord 0 (State.endFuse s ok).regs = true := by
  unfold State.endFuse
  (try dsimp only)
  (repeat' split) <;> (try simp [h])
  repeat' (first | with_reducible assumption | (intro) | with_reducible apply State.over_regsWf |
    with_reducible apply State.setRegN_regsWf | split | dsimp only | simp)

@[simp] theorem State.cavernOff_regsWf (s : State) (h : Store.wfFrom resetWord 0 s.regs = true) :
    Store.wfFrom resetWord 0 (State.cavernOff s).regs = true := by
  unfold State.cavernOff
  (try dsimp only)
  (repeat' split) <;> (try simp [h])
  repeat' (first | with_reducible assumption | (intro) | with_reducible apply State.over_regsWf |
    with_reducible apply State.countN_regsWf | with_reducible apply State.setRegN_regsWf | split | dsimp only | simp)

@[simp] theorem State.cavernOn_regsWf (s : State) (h : Store.wfFrom resetWord 0 s.regs = true) :
    Store.wfFrom resetWord 0 (State.cavernOn s).regs = true := by
  unfold State.cavernOn
  (try dsimp only)
  (repeat' split) <;> (try simp [h])
  repeat' (first | with_reducible assumption | (intro) | with_reducible apply State.over_regsWf |
    with_reducible apply State.setBit_regsWf | split | dsimp only | simp)

@[simp] theorem State.sumpOn_regsWf (s : State) (h : Store.wfFrom resetWord 0 s.regs = true) :
    Store.wfFrom resetWord 0 (State.sumpOn s).regs = true := by
  unfold State.sumpOn
  (try dsimp only)
  (repeat' split) <;> (try simp [h])
  repeat' (first | with_reducible assumption | (intro) | with_reducible apply State.over_regsWf |
    with_reducible apply State.startTraining_regsWf | with_reducible apply State.setBit_regsWf | split | dsimp only |
                    simp)

@[simp] theorem State.sumpSleep_regsWf (s : State) (h : Store.wfFrom resetWord 0 s.regs = true) :
    Store.wfFrom resetWord 0 (State.sumpSleep s).regs = true := by
  unfold State.sumpSleep
  (try dsimp only)
  (repeat' split) <;> (try (have hk1 := @State.evict_keeps; simp [hk1, h]))
  repeat' (first | with_reducible assumption | (intro) | with_reducible apply State.over_regsWf |
    with_reducible apply State.sumpLost_regsWf | with_reducible apply State.setBit_regsWf | split | dsimp only |
                    (have hk1 := @State.evict_keeps; simp [hk1]))

@[simp] theorem State.lanesOff_regsWf (s : State) (h : Store.wfFrom resetWord 0 s.regs = true) :
    Store.wfFrom resetWord 0 (State.lanesOff s).regs = true := by
  unfold State.lanesOff
  (try dsimp only)
  (repeat' split) <;> (try simp [h])
  repeat' (first | with_reducible assumption | (intro) | with_reducible apply State.over_regsWf |
    with_reducible apply State.setReg_regsWf | with_reducible apply State.portDown_regsWf |
    with_reducible apply State.count_regsWf | with_reducible apply State.trained_regsWf | split | dsimp only | simp)

@[simp] theorem State.lanesOn_regsWf (s : State) (h : Store.wfFrom resetWord 0 s.regs = true) :
    Store.wfFrom resetWord 0 (State.lanesOn s).regs = true := by
  unfold State.lanesOn
  (try dsimp only)
  (repeat' split) <;> (try simp [h])
  repeat' (first | with_reducible assumption | (intro) | with_reducible apply State.over_regsWf |
    with_reducible apply State.usePreset_regsWf | split | dsimp only | simp)

@[simp] theorem State.offPll_regsWf (s : State) (h : Store.wfFrom resetWord 0 s.regs = true) :
    Store.wfFrom resetWord 0 (State.offPll s).regs = true := by
  unfold State.offPll
  (try dsimp only)
  (repeat' split) <;> (try simp [h])
  repeat' (first | with_reducible assumption | (intro) | with_reducible apply State.over_regsWf |
    with_reducible apply State.setBit_regsWf | split | dsimp only | simp)

@[simp] theorem State.wakeCause_regsWf (s : State) (sources : BitVec 7) (h : Store.wfFrom resetWord 0 s.regs = true) :
    Store.wfFrom resetWord 0 (State.wakeCause s sources).regs = true := by
  unfold State.wakeCause
  (try dsimp only)
  (repeat' split) <;> (try simp [h])
  repeat' (first | with_reducible assumption | (intro) | with_reducible apply State.over_regsWf |
    with_reducible apply State.setRegN_regsWf | split | dsimp only | simp)

@[simp] theorem State.wakeMemories_regsWf (s : State) (h : Store.wfFrom resetWord 0 s.regs = true) :
    Store.wfFrom resetWord 0 (State.wakeMemories s).regs = true := by
  unfold State.wakeMemories
  (try dsimp only)
  (repeat' split) <;> (try simp [h])
  repeat' (first | with_reducible assumption | (intro) | with_reducible apply State.over_regsWf |
    with_reducible apply State.cavernOn_regsWf | with_reducible apply State.sumpOn_regsWf | split | dsimp only | simp)

@[simp] theorem State.enterLimited_regsWf (s : State) (h : Store.wfFrom resetWord 0 s.regs = true) :
    Store.wfFrom resetWord 0 (State.enterLimited s).regs = true := by
  unfold State.enterLimited
  (try dsimp only)
  (repeat' split) <;> (try simp [h])
  repeat' (first | with_reducible assumption | (intro) | with_reducible apply State.over_regsWf |
    with_reducible apply State.offPll_regsWf | with_reducible apply State.setBit_regsWf | split | dsimp only | simp)

@[simp] theorem State.wakeLayover_regsWf (s : State) (sources : BitVec 7) (h : Store.wfFrom resetWord 0 s.regs = true) :
    Store.wfFrom resetWord 0 (State.wakeLayover s sources).regs = true := by
  unfold State.wakeLayover
  (try dsimp only)
  (repeat' split) <;> (try simp [h])
  repeat' (first | with_reducible assumption | (intro) | with_reducible apply State.over_regsWf |
    with_reducible apply State.wakeCause_regsWf | split | dsimp only | simp)

@[simp] theorem State.wakeDormant_regsWf (s : State) (sources : BitVec 7) (h : Store.wfFrom resetWord 0 s.regs = true) :
    Store.wfFrom resetWord 0 (State.wakeDormant s sources).regs = true := by
  unfold State.wakeDormant
  (try dsimp only)
  (repeat' split) <;> (try (have hk1 := @State.wakeAttempt_keeps; simp [hk1, h]))
  repeat' (first | with_reducible assumption | (intro) | with_reducible apply State.over_regsWf |
    with_reducible apply State.wakeCause_regsWf | split | dsimp only |
                    (have hk1 := @State.wakeAttempt_keeps; simp [hk1]))

@[simp] theorem State.wakeFailed_regsWf (s : State) (h : Store.wfFrom resetWord 0 s.regs = true) :
    Store.wfFrom resetWord 0 (State.wakeFailed s).regs = true := by
  unfold State.wakeFailed
  (try dsimp only)
  (repeat' split) <;> (try simp [h])
  repeat' (first | with_reducible assumption | (intro) | with_reducible apply State.over_regsWf |
    with_reducible apply State.count_regsWf | with_reducible apply State.logEvent_regsWf | split | dsimp only | simp)

@[simp] theorem State.wakeNoAck_regsWf (s : State) (h : Store.wfFrom resetWord 0 s.regs = true) :
    Store.wfFrom resetWord 0 (State.wakeNoAck s).regs = true := by
  unfold State.wakeNoAck
  (try dsimp only)
  (repeat' split) <;> (try (have hk1 := @State.sendVoltage_keeps; simp [hk1, h]))
  repeat' (first | with_reducible assumption | (intro) | with_reducible apply State.over_regsWf |
    with_reducible apply State.wakeFailed_regsWf | split | dsimp only |
                    (have hk1 := @State.sendVoltage_keeps; simp [hk1]))

@[simp] theorem State.wakeBy_regsWf (s : State) (src : Nat) (h : Store.wfFrom resetWord 0 s.regs = true) :
    Store.wfFrom resetWord 0 (State.wakeBy s src).regs = true := by
  unfold State.wakeBy
  (try dsimp only)
  (repeat' split) <;> (try (have hk1 := @State.latchWake_keeps; simp [hk1, h]))
  repeat' (first | with_reducible assumption | (intro) | with_reducible apply State.over_regsWf |
    with_reducible apply State.wakeDormant_regsWf | with_reducible apply State.wakeLayover_regsWf | split | dsimp only |
                    (have hk1 := @State.latchWake_keeps; simp [hk1]))

@[simp] theorem State.replayLatch_regsWf (s : State) (h : Store.wfFrom resetWord 0 s.regs = true) :
    Store.wfFrom resetWord 0 (State.replayLatch s).regs = true := by
  unfold State.replayLatch
  (try dsimp only)
  (repeat' split) <;> (try simp [h])
  repeat' (first | with_reducible assumption | (intro) | with_reducible apply State.over_regsWf |
    with_reducible apply State.wakeDormant_regsWf | with_reducible apply State.wakeLayover_regsWf | split | dsimp only |
                    simp)

@[simp] theorem State.cutOps_regsWf (s : State) (h : Store.wfFrom resetWord 0 s.regs = true) :
    Store.wfFrom resetWord 0 (State.cutOps s).regs = true := by
  unfold State.cutOps
  (try dsimp only)
  (repeat' split) <;> (try (have hk1 := @State.tornFlash_keeps; simp [hk1, h]))
  repeat' (first | with_reducible assumption | (intro) | with_reducible apply State.over_regsWf |
    with_reducible apply State.endKey_regsWf | with_reducible apply State.endFuse_regsWf | split | dsimp only |
                    (have hk1 := @State.tornFlash_keeps; simp [hk1]))

theorem State.keptRegs_regsWf (s : State) (k : StartKind) (h : Store.wfFrom resetWord 0 s.regs = true) :
    Store.wfFrom resetWord 0 (s.keptRegs k) = true := by
  unfold State.keptRegs
  dsimp only
  split
  · exact Store.wfFrom_filter _ h
  · repeat' (first | with_reducible apply State.setBit_regsWf | with_reducible apply State.setFld_regsWf |
      with_reducible apply State.setReg_regsWf | with_reducible apply State.setRegN_regsWf | exact Store.wfFrom_filter _ h | split)

@[simp] theorem State.restarted_regsWf (s0 : State) (k : StartKind) (h : Store.wfFrom resetWord 0 s0.regs = true) :
    Store.wfFrom resetWord 0 (State.restarted s0 k).regs = true := by
  exact State.keptRegs_regsWf s0.cutOps k (State.cutOps_regsWf s0 h)

@[simp] theorem State.strapDefaults_regsWf (s : State) (eff : Nat) (h : Store.wfFrom resetWord 0 s.regs = true) :
    Store.wfFrom resetWord 0 (State.strapDefaults s eff).regs = true := by
  unfold State.strapDefaults
  (try dsimp only)
  (repeat' split) <;> (try (have hk1 := @State.modQueue_keeps; simp [hk1, h]))
  repeat' (first | with_reducible assumption | (intro) | with_reducible apply State.over_regsWf |
    with_reducible apply State.setFld_regsWf | with_reducible apply State.setRegN_regsWf | split | dsimp only |
                    (have hk1 := @State.modQueue_keeps; simp [hk1]))

@[simp] theorem State.setSession_regsWf (s : State) (n : Nat) (h : Store.wfFrom resetWord 0 s.regs = true) :
    Store.wfFrom resetWord 0 (State.setSession s n).regs = true := by
  unfold State.setSession
  (try dsimp only)
  (repeat' split) <;> (try simp [h])
  repeat' (first | with_reducible assumption | (intro) | with_reducible apply State.over_regsWf |
    with_reducible apply State.setFld_regsWf | split | dsimp only | simp)

@[simp] theorem State.closeSession_regsWf (s : State) (h : Store.wfFrom resetWord 0 s.regs = true) :
    Store.wfFrom resetWord 0 (State.closeSession s).regs = true := by
  unfold State.closeSession
  (try dsimp only)
  (repeat' split) <;> (try simp [h])
  repeat' (first | with_reducible assumption | (intro) | with_reducible apply State.over_regsWf |
    with_reducible apply State.setSession_regsWf | split | dsimp only | simp)

@[simp] theorem State.sessionConfig_regsWf (s : State) (h : Store.wfFrom resetWord 0 s.regs = true) :
    Store.wfFrom resetWord 0 (State.sessionConfig s).regs = true := by
  unfold State.sessionConfig
  (try dsimp only)
  (repeat' split) <;> (try simp [h])
  repeat' (first | with_reducible assumption | (intro) | with_reducible apply State.over_regsWf |
    with_reducible apply State.closeSession_regsWf | with_reducible apply State.setSession_regsWf | split | dsimp only |
                    simp)

@[simp] theorem State.mfMode_regsWf (s : State) (h : Store.wfFrom resetWord 0 s.regs = true) :
    Store.wfFrom resetWord 0 (State.mfMode s).regs = true := by
  unfold State.mfMode
  (try dsimp only)
  (repeat' split) <;> (try simp [h])
  repeat' (first | with_reducible assumption | (intro) | with_reducible apply State.over_regsWf |
    with_reducible apply State.closeSession_regsWf | with_reducible apply State.sessionConfig_regsWf |
                    split | dsimp only | simp)

@[simp] theorem State.changeMode_regsWf (s : State) (m : Mode) (h : Store.wfFrom resetWord 0 s.regs = true) :
    Store.wfFrom resetWord 0 (State.changeMode s m).regs = true := by
  unfold State.changeMode
  (try dsimp only)
  (repeat' split) <;> (try simp [h])
  repeat' (first | with_reducible assumption | (intro) | with_reducible apply State.over_regsWf |
    with_reducible apply State.setFld_regsWf | with_reducible apply State.mfMode_regsWf | split | dsimp only | simp)

@[simp] theorem State.enterRecovery_regsWf (s : State) (reason : Nat) (h : Store.wfFrom resetWord 0 s.regs = true) :
    Store.wfFrom resetWord 0 (State.enterRecovery s reason).regs = true := by
  unfold State.enterRecovery
  (try dsimp only)
  (repeat' split) <;> (try simp [h])
  repeat' (first | with_reducible assumption | (intro) | with_reducible apply State.over_regsWf |
    with_reducible apply State.setBit_regsWf | with_reducible apply State.setReg_regsWf |
    with_reducible apply State.setFld_regsWf | with_reducible apply State.count_regsWf |
    with_reducible apply State.changeMode_regsWf | with_reducible apply State.setRegN_regsWf |
    with_reducible apply State.logEvent_regsWf | split | dsimp only | simp)

@[simp] theorem State.setStage_regsWf (s : State) (n : Nat) (h : Store.wfFrom resetWord 0 s.regs = true) :
    Store.wfFrom resetWord 0 (State.setStage s n).regs = true := by
  unfold State.setStage
  (try dsimp only)
  (repeat' split) <;> (try simp [h])
  repeat' (first | with_reducible assumption | (intro) | with_reducible apply State.over_regsWf |
    with_reducible apply State.setFld_regsWf | split | dsimp only | simp)

@[simp] theorem State.startStage_regsWf (s : State) (h : Store.wfFrom resetWord 0 s.regs = true) :
    Store.wfFrom resetWord 0 (State.startStage s).regs = true := by
  unfold State.startStage
  (try dsimp only)
  (repeat' split) <;> (try simp [h])
  repeat' (first | with_reducible assumption | (intro) | with_reducible apply State.over_regsWf |
    with_reducible apply State.enterRecovery_regsWf | with_reducible apply State.setStage_regsWf | split | dsimp only |
                    simp)

@[simp] theorem State.startReset_regsWf (s : State) (h : Store.wfFrom resetWord 0 s.regs = true) :
    Store.wfFrom resetWord 0 (State.startReset s).regs = true := by
  unfold State.startReset
  (try dsimp only)
  (repeat' split) <;> (try simp [h])
  repeat' (first | with_reducible assumption | (intro) | with_reducible apply State.over_regsWf |
    with_reducible apply State.startStage_regsWf | with_reducible apply State.changeMode_regsWf |
    with_reducible apply State.restarted_regsWf | with_reducible apply State.strapDefaults_regsWf | split | dsimp only |
                    simp)

@[simp] theorem State.startRecover_regsWf (s : State) (h : Store.wfFrom resetWord 0 s.regs = true) :
    Store.wfFrom resetWord 0 (State.startRecover s).regs = true := by
  unfold State.startRecover
  (try dsimp only)
  (repeat' split) <;> (try simp [h])
  repeat' (first | with_reducible assumption | (intro) | with_reducible apply State.over_regsWf |
    with_reducible apply State.enterRecovery_regsWf | with_reducible apply State.restarted_regsWf |
    with_reducible apply State.strapDefaults_regsWf | split | dsimp only | simp)

@[simp] theorem State.startPorst_regsWf (s : State) (h : Store.wfFrom resetWord 0 s.regs = true) :
    Store.wfFrom resetWord 0 (State.startPorst s).regs = true := by
  unfold State.startPorst
  (try dsimp only)
  (repeat' split) <;> (try simp [h])
  repeat' (first | with_reducible assumption | (intro) | with_reducible apply State.over_regsWf |
    with_reducible apply State.startStage_regsWf | with_reducible apply State.enterDebug_regsWf |
    with_reducible apply State.changeMode_regsWf | with_reducible apply State.setRegN_regsWf |
    with_reducible apply State.restarted_regsWf | with_reducible apply State.strapDefaults_regsWf | split | dsimp only |
                    simp)

@[simp] theorem State.releasePorst_regsWf (s : State) (straps : BitVec 13) (vfv : Bool) (h : Store.wfFrom resetWord 0 s.regs = true) :
    Store.wfFrom resetWord 0 (State.releasePorst s straps vfv).regs = true := by
  unfold State.releasePorst
  (try dsimp only)
  (repeat' split) <;> (try (have hk1 := @State.wakeAttempt_keeps; simp [hk1, h]))
  repeat' (first | with_reducible assumption | (intro) | with_reducible apply State.over_regsWf |
    with_reducible apply State.startPorst_regsWf | with_reducible apply State.setRegN_regsWf | split | dsimp only |
                    (have hk1 := @State.wakeAttempt_keeps; simp [hk1]))

@[simp] theorem State.startSeed_regsWf (s : State) (h : Store.wfFrom resetWord 0 s.regs = true) :
    Store.wfFrom resetWord 0 (State.startSeed s).regs = true := by
  unfold State.startSeed
  (try dsimp only)
  (repeat' split) <;> (try simp [h])
  repeat' (first | with_reducible assumption | (intro) | with_reducible apply State.over_regsWf |
    with_reducible apply State.setBit_regsWf | split | dsimp only | simp)

@[simp] theorem State.bootCommand_regsWf (s : State) (m : Master) (op : Nat) (h : Store.wfFrom resetWord 0 s.regs = true) :
    Store.wfFrom resetWord 0 (State.bootCommand s m op).regs = true := by
  unfold State.bootCommand
  (try dsimp only)
  (repeat' split) <;> (try (have hk1 := @State.pendMode_keeps; simp [hk1, h]))
  repeat' (first | with_reducible assumption | (intro) | with_reducible apply State.over_regsWf |
    with_reducible apply State.startReset_regsWf | with_reducible apply State.startSeed_regsWf |
    with_reducible apply State.startRecover_regsWf | with_reducible apply State.setRegN_regsWf | split | dsimp only |
                    (have hk1 := @State.pendMode_keeps; simp [hk1]))

@[simp] theorem State.writeSeed_regsWf (ready : Bool) (s : State) (r : SeedRecord) (h : Store.wfFrom resetWord 0 s.regs = true) :
    Store.wfFrom resetWord 0 (State.writeSeed ready s r).regs = true := by
  unfold State.writeSeed
  (try dsimp only)
  (repeat' split) <;> (try (have hk1 := @State.setTable_keeps; simp [hk1, h]))
  repeat' (first | with_reducible assumption | (intro) | with_reducible apply State.over_regsWf |
    with_reducible apply State.count_regsWf | split | dsimp only | (have hk1 := @State.setTable_keeps; simp [hk1]))

@[simp] theorem State.endSeed_regsWf (s : State) (h : Store.wfFrom resetWord 0 s.regs = true) :
    Store.wfFrom resetWord 0 (State.endSeed s).regs = true := by
  unfold State.endSeed
  (try dsimp only)
  (repeat' split) <;> (try simp [h])
  repeat' (first | with_reducible assumption | (intro) | with_reducible apply State.over_regsWf |
    with_reducible apply State.setStage_regsWf | with_reducible apply State.writeSeed_regsWf |
    with_reducible apply State.setBit_regsWf | split | dsimp only | simp)

@[simp] theorem State.onPll_regsWf (s : State) (h : Store.wfFrom resetWord 0 s.regs = true) :
    Store.wfFrom resetWord 0 (State.onPll s).regs = true := by
  unfold State.onPll
  (try dsimp only)
  (repeat' split) <;> (try simp [h])
  repeat' (first | with_reducible assumption | (intro) | with_reducible apply State.over_regsWf |
    with_reducible apply State.lanesOn_regsWf | with_reducible apply State.setStage_regsWf |
    with_reducible apply State.setBit_regsWf | split | dsimp only | simp)

@[simp] theorem State.checkPattern_regsWf (s : State) (l : LaneIx) (b : Block) (h : Store.wfFrom resetWord 0 s.regs = true) :
    Store.wfFrom resetWord 0 (State.checkPattern s l b).regs = true := by
  unfold State.checkPattern
  (try dsimp only)
  (repeat' split) <;> (try simp [h])
  repeat' (first | with_reducible assumption | (intro) | with_reducible apply State.over_regsWf |
    with_reducible apply State.countN_regsWf | split | dsimp only | simp)

@[simp] theorem State.buffer_regsWf (s : State) (l : LaneIx) (fill : Bool) (reads : Nat) (h : Store.wfFrom resetWord 0 s.regs = true) :
    Store.wfFrom resetWord 0 (State.buffer s l fill reads).1.regs = true := by
  unfold State.buffer
  (try dsimp only)
  (repeat' split) <;> (try simp [h])
  repeat' (first | with_reducible assumption | (intro) | with_reducible apply State.over_regsWf |
    with_reducible apply State.count_regsWf | split | dsimp only | simp)

@[simp] theorem State.lockLost_regsWf (s : State) (l : LaneIx) (h : Store.wfFrom resetWord 0 s.regs = true) :
    Store.wfFrom resetWord 0 (State.lockLost s l).regs = true := by
  unfold State.lockLost
  (try dsimp only)
  (repeat' split) <;> (try simp [h])
  repeat' (first | with_reducible assumption | (intro) | with_reducible apply State.over_regsWf |
    with_reducible apply State.holdCtle_regsWf | with_reducible apply State.setFld_regsWf |
    with_reducible apply State.count_regsWf | with_reducible apply State.laneLost_regsWf | split | dsimp only | simp)

@[simp] theorem State.lockError_regsWf (s : State) (l : LaneIx) (h : Store.wfFrom resetWord 0 s.regs = true) :
    Store.wfFrom resetWord 0 (State.lockError s l).regs = true := by
  unfold State.lockError
  (try dsimp only)
  (repeat' split) <;> (try (have hk1 := @State.slipBit_keeps; simp [hk1, h]))
  repeat' (first | with_reducible assumption | (intro) | with_reducible apply State.over_regsWf |
    with_reducible apply State.lockLost_regsWf | with_reducible apply State.count_regsWf | split | dsimp only |
                    (have hk1 := @State.slipBit_keeps; simp [hk1]))

@[simp] theorem State.ethUp_regsWf (s : State) (p : LinkPort) (h : Store.wfFrom resetWord 0 s.regs = true) :
    Store.wfFrom resetWord 0 (State.ethUp s p).regs = true := by
  unfold State.ethUp
  (try dsimp only)
  (repeat' split) <;> (try simp [h])
  repeat' (first | with_reducible assumption | (intro) | with_reducible apply State.over_regsWf |
    with_reducible apply State.settle_regsWf | split | dsimp only | simp)

@[simp] theorem State.lockGained_regsWf (s : State) (l : LaneIx) (h : Store.wfFrom resetWord 0 s.regs = true) :
    Store.wfFrom resetWord 0 (State.lockGained s l).regs = true := by
  unfold State.lockGained
  (try dsimp only)
  (repeat' split) <;> (try simp [h])
  repeat' (first | with_reducible assumption | (intro) | with_reducible apply State.over_regsWf |
    with_reducible apply State.ethUp_regsWf | with_reducible apply State.count_regsWf | split | dsimp only | simp)

@[simp] theorem State.framing_regsWf (s : State) (p : LinkPort) (valid : Bool) (b : Block) (h : Store.wfFrom resetWord 0 s.regs = true) :
    Store.wfFrom resetWord 0 (State.framing s p valid b).regs = true := by
  unfold State.framing
  (try dsimp only)
  (repeat' split) <;> (try (have hk1 := @State.assemble_keeps; have hk2 := @State.emptyFrame_keeps; have hk3 := @State.frameWhole_keeps; simp [hk1, hk2, hk3, h]))
  repeat' (first | with_reducible assumption | (intro) | with_reducible apply State.over_regsWf |
    with_reducible apply State.dropPartial_regsWf | with_reducible apply State.countFraming_regsWf | split | dsimp only |
                    (have hk1 := @State.assemble_keeps; have hk2 := @State.emptyFrame_keeps; have hk3 := @State.frameWhole_keeps; simp [hk1, hk2, hk3]))

@[simp] theorem State.destripe_regsWf (s : State) (p : LinkPort) (y1 : Nat) (h : Store.wfFrom resetWord 0 s.regs = true) :
    Store.wfFrom resetWord 0 (State.destripe s p y1).regs = true := by
  fun_induction State.destripe s p y1 <;> (try simp only [Prod.ext_iff] at *) <;> (try casesm* _ ∧ _) <;> subst_vars <;> simp_all +zetaDelta

@[simp] theorem State.streamBlock_regsWf (s : State) (p : LinkPort) (l : LaneIx) (valid : Bool) (b : Block) (h : Store.wfFrom resetWord 0 s.regs = true) :
    Store.wfFrom resetWord 0 (State.streamBlock s p l valid b).regs = true := by
  unfold State.streamBlock
  (try dsimp only)
  (repeat' split) <;> (try simp [h])
  repeat' (first | with_reducible assumption | (intro) | with_reducible apply State.over_regsWf |
    with_reducible apply State.destripe_regsWf | split | dsimp only | simp)

@[simp] theorem State.takeBlock_regsWf (s : State) (l : LaneIx) (b : Block) (reads : Nat) (h : Store.wfFrom resetWord 0 s.regs = true) :
    Store.wfFrom resetWord 0 (State.takeBlock s l b reads).regs = true := by
  unfold State.takeBlock
  (try dsimp only)
  (repeat' split) <;> (try (have hk1 := @State.lockWindow_keeps; have hk2 := @State.slipBit_keeps; simp [hk1, hk2, h]))
  repeat' (first | with_reducible assumption | (intro) | with_reducible apply State.over_regsWf |
    with_reducible apply State.buffer_regsWf | with_reducible apply State.count_regsWf |
    with_reducible apply State.lockError_regsWf | with_reducible apply State.streamBlock_regsWf |
    with_reducible apply State.lockGained_regsWf | split | dsimp only |
                    (have hk1 := @State.lockWindow_keeps; have hk2 := @State.slipBit_keeps; simp [hk1, hk2]))

@[simp] theorem State.trainRequest_regsWf (s : State) (l : LaneIx) (pre : Nat) (post : Nat) (preset : Nat) (tseq : BitVec 8) (h : Store.wfFrom resetWord 0 s.regs = true) :
    Store.wfFrom resetWord 0 (State.trainRequest s l pre post preset tseq).1.regs = true := by
  unfold State.trainRequest
  (try dsimp only)
  (repeat' split) <;> (try simp [h])
  repeat' (first | with_reducible assumption | (intro) | with_reducible apply State.over_regsWf |
    with_reducible apply State.usePreset_regsWf | with_reducible apply State.setFld_regsWf | split | dsimp only | simp)

@[simp] theorem State.deskewLane_regsWf (s : State) (l : LaneIx) (lag : Nat) (ok : Bool) (h : Store.wfFrom resetWord 0 s.regs = true) :
    Store.wfFrom resetWord 0 (State.deskewLane s l lag ok).regs = true := by
  unfold State.deskewLane
  (try dsimp only)
  (repeat' split) <;> (try simp [h])
  repeat' (first | with_reducible assumption | (intro) | with_reducible apply State.over_regsWf |
    with_reducible apply State.count_regsWf | split | dsimp only | simp)

@[simp] theorem State.deskew_regsWf (s : State) (p : LinkPort) (marks : List AmkMark) (low : AmkMark) (h : Store.wfFrom resetWord 0 s.regs = true) :
    Store.wfFrom resetWord 0 (State.deskew s p marks low).regs = true := by
  unfold State.deskew
  (try dsimp only)
  (repeat' split) <;> (try simp [h])
  repeat' (first | with_reducible assumption | (intro) | with_reducible apply State.over_regsWf |
    with_reducible apply State.deskewLane_regsWf | split | dsimp only | simp)

@[simp] theorem State.rxAnnounce_regsWf (s : State) (p : LinkPort) (marks : List AmkMark) (low : AmkMark) (unscheduled : Bool) (h : Store.wfFrom resetWord 0 s.regs = true) :
    Store.wfFrom resetWord 0 (State.rxAnnounce s p marks low unscheduled).regs = true := by
  unfold State.rxAnnounce
  (try dsimp only)
  (repeat' split) <;> (try (have hk1 := @State.emptyFrame_keeps; simp [hk1, h]))
  repeat' (first | with_reducible assumption | (intro) | with_reducible apply State.over_regsWf |
    with_reducible apply State.dropOn_regsWf | with_reducible apply State.countTrunk_regsWf |
    with_reducible apply State.rxFault_regsWf | split | dsimp only | (have hk1 := @State.emptyFrame_keeps; simp [hk1]))

@[simp] theorem State.refreshDrain_regsWf (s : State) (n : LocalPort) (since : Nat) (h : Store.wfFrom resetWord 0 s.regs = true) :
    Store.wfFrom resetWord 0 (State.refreshDrain s n since).regs = true := by
  unfold State.refreshDrain
  (try dsimp only)
  (repeat' split) <;> (try (have hk1 := @State.modQueue_keeps; simp [hk1, h]))
  repeat' (first | with_reducible assumption | (intro) | with_reducible apply State.over_regsWf |
    with_reducible apply State.setBit_regsWf | split | dsimp only | (have hk1 := @State.modQueue_keeps; simp [hk1]))

@[simp] theorem State.laneReturns_regsWf (s : State) (p : LinkPort) (i : Nat) (h : Store.wfFrom resetWord 0 s.regs = true) :
    Store.wfFrom resetWord 0 (State.laneReturns s p i).regs = true := by
  unfold State.laneReturns
  (try dsimp only)
  (repeat' split) <;> (try simp [h])
  repeat' (first | with_reducible assumption | (intro) | with_reducible apply State.over_regsWf |
    with_reducible apply State.rxFault_regsWf | split | dsimp only | simp)

@[simp] theorem State.loopChanged_regsWf (s : State) (l : LaneIx) (h : Store.wfFrom resetWord 0 s.regs = true) :
    Store.wfFrom resetWord 0 (State.loopChanged s l).regs = true := by
  unfold State.loopChanged
  (try dsimp only)
  (repeat' split) <;> (try (have hk1 := @State.noteHealth_keeps; simp [hk1, h]))
  repeat' (first | with_reducible assumption | (intro) | with_reducible apply State.over_regsWf |
    with_reducible apply State.txDrop_regsWf | with_reducible apply State.dropOn_regsWf |
    with_reducible apply State.ethUp_regsWf | with_reducible apply State.rxFault_regsWf |
    with_reducible apply State.ethDown_regsWf | split | dsimp only | (have hk1 := @State.noteHealth_keeps; simp [hk1]))

@[simp] theorem State.signalLost_regsWf (s : State) (l : LaneIx) (h : Store.wfFrom resetWord 0 s.regs = true) :
    Store.wfFrom resetWord 0 (State.signalLost s l).regs = true := by
  unfold State.signalLost
  (try dsimp only)
  (repeat' split) <;> (try simp [h])
  repeat' (first | with_reducible assumption | (intro) | with_reducible apply State.over_regsWf |
    with_reducible apply State.lockLost_regsWf | with_reducible apply State.count_regsWf | split | dsimp only | simp)

@[simp] theorem State.signalBack_regsWf (s : State) (l : LaneIx) (h : Store.wfFrom resetWord 0 s.regs = true) :
    Store.wfFrom resetWord 0 (State.signalBack s l).regs = true := by
  unfold State.signalBack
  (try dsimp only)
  (repeat' split) <;> (try simp [h])
  repeat' (first | with_reducible assumption | (intro) | with_reducible apply State.over_regsWf |
    with_reducible apply State.count_regsWf | split | dsimp only | simp)

@[simp] theorem State.trendLane_regsWf (s : State) (l : LaneIx) (h : Store.wfFrom resetWord 0 s.regs = true) :
    Store.wfFrom resetWord 0 (State.trendLane s l).regs = true := by
  unfold State.trendLane
  (try dsimp only)
  (repeat' split) <;> (try (have hk1 := @State.setTrend_keeps; have hk2 := @State.trendClose_keeps; have hk3 := @State.trendWipe_keeps; simp [hk1, hk2, hk3, h]))
  repeat' (first | with_reducible assumption | (intro) | with_reducible apply State.over_regsWf |
    with_reducible apply State.setFld_regsWf | split | dsimp only |
                    (have hk1 := @State.setTrend_keeps; have hk2 := @State.trendClose_keeps; have hk3 := @State.trendWipe_keeps; simp [hk1, hk2, hk3]))

@[simp] theorem State.trendSecond_regsWf (s : State) (h : Store.wfFrom resetWord 0 s.regs = true) :
    Store.wfFrom resetWord 0 (State.trendSecond s).regs = true := by
  unfold State.trendSecond
  (try dsimp only)
  (repeat' split) <;> (try simp [h])
  repeat' (first | with_reducible assumption | (intro) | with_reducible apply State.over_regsWf |
    with_reducible apply State.trendLane_regsWf | split | dsimp only | simp)

@[simp] theorem State.restartBlock_regsWf (s : State) (block : Nat) (h : Store.wfFrom resetWord 0 s.regs = true) :
    Store.wfFrom resetWord 0 (State.restartBlock s block).regs = true := by
  unfold State.restartBlock
  (try dsimp only)
  (repeat' split) <;> (try (have hk1 := @State.freeEngines_keeps; have hk2 := @State.reopenAdmission_keeps; simp [hk1, hk2, h]))
  repeat' (first | with_reducible assumption | (intro) | with_reducible apply State.over_regsWf |
    with_reducible apply State.sumpOn_regsWf | with_reducible apply State.lanesOn_regsWf |
    with_reducible apply State.cavernOn_regsWf | split | dsimp only |
                    (have hk1 := @State.freeEngines_keeps; have hk2 := @State.reopenAdmission_keeps; simp [hk1, hk2]))

@[simp] theorem State.rollbackNext_regsWf (s : State) (h : Store.wfFrom resetWord 0 s.regs = true) :
    Store.wfFrom resetWord 0 (State.rollbackNext s).regs = true := by
  unfold State.rollbackNext
  (try dsimp only)
  (repeat' split) <;> (try (have hk1 := @State.rollbackEnd_keeps; simp [hk1, h]))
  repeat' (first | with_reducible assumption | (intro) | with_reducible apply State.over_regsWf |
    with_reducible apply State.restartBlock_regsWf | split | dsimp only |
                    (have hk1 := @State.rollbackEnd_keeps; simp [hk1]))

@[simp] theorem State.refuse_regsWf (s : State) (block : Nat) (reason : Nat) (h : Store.wfFrom resetWord 0 s.regs = true) :
    Store.wfFrom resetWord 0 (State.refuse s block reason).regs = true := by
  unfold State.refuse
  (try dsimp only)
  (repeat' split) <;> (try (have hk1 := @State.freeEngines_keeps; simp [hk1, h]))
  repeat' (first | with_reducible assumption | (intro) | with_reducible apply State.over_regsWf |
    with_reducible apply State.rollbackNext_regsWf | with_reducible apply State.enterLimited_regsWf |
    with_reducible apply State.setBit_regsWf | with_reducible apply State.count_regsWf |
    with_reducible apply State.setRegN_regsWf | split | dsimp only | (have hk1 := @State.freeEngines_keeps; simp [hk1]))

@[simp] theorem State.abandon_regsWf (s : State) (ap : Nat) (h : Store.wfFrom resetWord 0 s.regs = true) :
    Store.wfFrom resetWord 0 (State.abandon s ap).regs = true := by
  unfold State.abandon
  (try dsimp only)
  (repeat' split) <;> (try (have hk1 := @State.entryOver_keeps; have hk2 := @State.noteRetry_keeps; have hk3 := @State.reopenAdmission_keeps; simp [hk1, hk2, hk3, h]))
  repeat' (first | with_reducible assumption | (intro) | with_reducible apply State.over_regsWf |
    with_reducible apply State.restartBlock_regsWf | with_reducible apply State.count_regsWf |
    with_reducible apply State.setRegN_regsWf | with_reducible apply State.replayLatch_regsWf | split | dsimp only |
                    (have hk1 := @State.entryOver_keeps; have hk2 := @State.noteRetry_keeps; have hk3 := @State.reopenAdmission_keeps; simp [hk1, hk2, hk3]))

@[simp] theorem State.layoverComplete_regsWf (s : State) (h : Store.wfFrom resetWord 0 s.regs = true) :
    Store.wfFrom resetWord 0 (State.layoverComplete s).regs = true := by
  unfold State.layoverComplete
  (try dsimp only)
  (repeat' split) <;> (try (have hk1 := @State.entryOver_keeps; simp [hk1, h]))
  repeat' (first | with_reducible assumption | (intro) | with_reducible apply State.over_regsWf |
    with_reducible apply State.setBit_regsWf | with_reducible apply State.count_regsWf |
    with_reducible apply State.replayLatch_regsWf | with_reducible apply State.offPll_regsWf | split | dsimp only |
                    (have hk1 := @State.entryOver_keeps; simp [hk1]))

@[simp] theorem State.agreeBlock_regsWf (s : State) (block : Nat) (h : Store.wfFrom resetWord 0 s.regs = true) :
    Store.wfFrom resetWord 0 (State.agreeBlock s block).regs = true := by
  unfold State.agreeBlock
  (try dsimp only)
  (repeat' split) <;> (try simp [h])
  repeat' (first | with_reducible assumption | (intro) | with_reducible apply State.over_regsWf |
    with_reducible apply State.cavernOff_regsWf | with_reducible apply State.setBit_regsWf |
    with_reducible apply State.setFld_regsWf | with_reducible apply State.layoverComplete_regsWf |
    with_reducible apply State.lanesOff_regsWf | with_reducible apply State.untrain_regsWf |
    with_reducible apply State.sumpSleep_regsWf | split | dsimp only | simp)

@[simp] theorem State.agree_regsWf (s : State) (block : Nat) (h : Store.wfFrom resetWord 0 s.regs = true) :
    Store.wfFrom resetWord 0 (State.agree s block).regs = true := by
  unfold State.agree
  (try dsimp only)
  (repeat' split) <;> (try simp [h])
  repeat' (first | with_reducible assumption | (intro) | with_reducible apply State.over_regsWf |
    with_reducible apply State.agreeBlock_regsWf | split | dsimp only | simp)

@[simp] theorem State.askBlock_regsWf (s : State) (block : Nat) (h : Store.wfFrom resetWord 0 s.regs = true) :
    Store.wfFrom resetWord 0 (State.askBlock s block).regs = true := by
  unfold State.askBlock
  (try dsimp only)
  (repeat' split) <;> (try simp [h])
  repeat' (first | with_reducible assumption | (intro) | with_reducible apply State.over_regsWf |
    with_reducible apply State.agree_regsWf | split | dsimp only | simp)

@[simp] theorem State.entryHead_regsWf (s : State) (h : Store.wfFrom resetWord 0 s.regs = true) :
    Store.wfFrom resetWord 0 (State.entryHead s).regs = true := by
  unfold State.entryHead
  (try dsimp only)
  (repeat' split) <;> (try simp only [Prod.ext_iff] at *) <;> (try casesm* _ ∧ _) <;> subst_vars <;> (try simp +contextual [h])
  repeat' (first | with_reducible assumption | (intro) | with_reducible apply State.over_regsWf |
    with_reducible apply State.askBlock_regsWf | with_reducible apply State.agree_regsWf |
    with_reducible apply State.refuse_regsWf | with_reducible apply State.abortPoint_regsWf | split | dsimp only | simp)

@[simp] theorem State.pwrResult_regsWf (s : State) (m : Master) (code : Nat) (h : Store.wfFrom resetWord 0 s.regs = true) :
    Store.wfFrom resetWord 0 (State.pwrResult s m code).regs = true := by
  unfold State.pwrResult
  (try dsimp only)
  (repeat' split) <;> (try simp [h])
  repeat' (first | with_reducible assumption | (intro) | with_reducible apply State.over_regsWf |
    with_reducible apply State.setRegN_regsWf | split | dsimp only | simp)

@[simp] theorem State.evaluateRequest_regsWf (s : State) (h : Store.wfFrom resetWord 0 s.regs = true) :
    Store.wfFrom resetWord 0 (State.evaluateRequest s).regs = true := by
  unfold State.evaluateRequest
  (try dsimp only)
  (repeat' split) <;> (try (have hk1 := @State.retryRefused_keeps; simp [hk1, h]))
  repeat' (first | with_reducible assumption | (intro) | with_reducible apply State.over_regsWf |
    with_reducible apply State.setReg_regsWf | with_reducible apply State.pwrResult_regsWf |
    with_reducible apply State.wakeLayover_regsWf | split | dsimp only |
                    (have hk1 := @State.retryRefused_keeps; simp [hk1]))

@[simp] theorem State.powerHead_regsWf (s : State) (h : Store.wfFrom resetWord 0 s.regs = true) :
    Store.wfFrom resetWord 0 (State.powerHead s).regs = true := by
  unfold State.powerHead
  (try dsimp only)
  (repeat' split) <;> (try simp [h])
  repeat' (first | with_reducible assumption | (intro) | with_reducible apply State.over_regsWf |
    with_reducible apply State.evaluateRequest_regsWf | with_reducible apply State.entryHead_regsWf | split | dsimp only |
                    simp)

@[simp] theorem State.writeRequest_regsWf (s : State) (m : Master) (target : Nat) (h : Store.wfFrom resetWord 0 s.regs = true) :
    Store.wfFrom resetWord 0 (State.writeRequest s m target).regs = true := by
  unfold State.writeRequest
  (try dsimp only)
  (repeat' split) <;> (try simp [h])
  repeat' (first | with_reducible assumption | (intro) | with_reducible apply State.over_regsWf |
    with_reducible apply State.setRegN_regsWf | split | dsimp only | simp)

@[simp] theorem State.issueAsk_regsWf (s : State) (h : Store.wfFrom resetWord 0 s.regs = true) :
    Store.wfFrom resetWord 0 (State.issueAsk s).regs = true := by
  unfold State.issueAsk
  (try dsimp only)
  (repeat' split) <;> (try simp [h])
  repeat' (first | with_reducible assumption | (intro) | with_reducible apply State.over_regsWf |
    with_reducible apply State.writeRequest_regsWf | split | dsimp only | simp)

@[simp] theorem State.startStepping_regsWf (s : State) (h : Store.wfFrom resetWord 0 s.regs = true) :
    Store.wfFrom resetWord 0 (State.startStepping s).regs = true := by
  unfold State.startStepping
  (try dsimp only)
  (repeat' split) <;> (try (have hk1 := @State.sendStep_keeps; simp [hk1, h]))
  repeat' (first | with_reducible assumption | (intro) | with_reducible apply State.over_regsWf |
    with_reducible apply State.setFld_regsWf | with_reducible apply State.setBit_regsWf | split | dsimp only |
                    (have hk1 := @State.sendStep_keeps; simp [hk1]))

@[simp] theorem State.writeTarget_regsWf (s : State) (h : Store.wfFrom resetWord 0 s.regs = true) :
    Store.wfFrom resetWord 0 (State.writeTarget s).regs = true := by
  unfold State.writeTarget
  (try dsimp only)
  (repeat' split) <;> (try simp [h])
  repeat' (first | with_reducible assumption | (intro) | with_reducible apply State.over_regsWf |
    with_reducible apply State.setStage_regsWf | with_reducible apply State.startStepping_regsWf | split | dsimp only |
                    simp)

@[simp] theorem State.goLimited_regsWf (s : State) (h : Store.wfFrom resetWord 0 s.regs = true) :
    Store.wfFrom resetWord 0 (State.goLimited s).regs = true := by
  unfold State.goLimited
  (try dsimp only)
  (repeat' split) <;> (try (have hk1 := @State.pendMode_keeps; simp [hk1, h]))
  repeat' (first | with_reducible assumption | (intro) | with_reducible apply State.over_regsWf |
    with_reducible apply State.setStage_regsWf | with_reducible apply State.enterLimited_regsWf | split | dsimp only |
                    (have hk1 := @State.pendMode_keeps; simp [hk1]))

@[simp] theorem State.stepFailed_regsWf (s : State) (h : Store.wfFrom resetWord 0 s.regs = true) :
    Store.wfFrom resetWord 0 (State.stepFailed s).regs = true := by
  unfold State.stepFailed
  (try dsimp only)
  (repeat' split) <;> (try simp [h])
  repeat' (first | with_reducible assumption | (intro) | with_reducible apply State.over_regsWf |
    with_reducible apply State.logBytes_regsWf | with_reducible apply State.setBit_regsWf |
    with_reducible apply State.count_regsWf | with_reducible apply State.goLimited_regsWf | split | dsimp only | simp)

@[simp] theorem State.stepDone_regsWf (s : State) (h : Store.wfFrom resetWord 0 s.regs = true) :
    Store.wfFrom resetWord 0 (State.stepDone s).regs = true := by
  have h1 : ∀ t : State, Store.wfFrom resetWord 0 t.regs = true → Store.wfFrom resetWord 0
      (if t.vout = t.fld Reg.AVS_STATUS 19 10 then t.setBit Reg.AVS_STATUS 20 false else t.sendStep).regs = true := by
    intro t ht
    split
    · exact State.setBit_regsWf _ _ _ _ ht
    · (have hk1 := @State.sendStep_keeps; simp [hk1, ht])
  unfold State.stepDone
  refine h1 _ ?_
  simp only [State.dropFault_keeps]
  exact State.setBit_regsWf _ _ _ _ (State.count_regsWf _ _ (State.setFld_regsWf _ _ _ _ _ h))

@[simp] theorem State.avsEvaluate_regsWf (s : State) (h : Store.wfFrom resetWord 0 s.regs = true) :
    Store.wfFrom resetWord 0 (State.avsEvaluate s).regs = true := by
  unfold State.avsEvaluate
  (try dsimp only)
  (repeat' split) <;> (try simp [h])
  repeat' (first | with_reducible assumption | (intro) | with_reducible apply State.over_regsWf |
    with_reducible apply State.setFld_regsWf | with_reducible apply State.count_regsWf |
    with_reducible apply State.writeTarget_regsWf | with_reducible apply State.logBytes_regsWf | split | dsimp only |
                    simp)

@[simp] theorem State.restoreWord_regsWf (s : State) (x : Nat × Word) (h : Store.wfFrom resetWord 0 s.regs = true) :
    Store.wfFrom resetWord 0 (State.restoreWord s x).regs = true := by
  unfold State.restoreWord
  (try dsimp only)
  (repeat' split) <;> (try simp [h])
  repeat' (first | with_reducible assumption | (intro) | with_reducible apply State.over_regsWf |
    with_reducible apply State.setReg_regsWf | with_reducible apply State.setFld_regsWf |
    with_reducible apply State.evaluate_regsWf | with_reducible apply State.startStepping_regsWf | split | dsimp only |
                    simp)

@[simp] theorem State.restoreSet_regsWf (s : State) (v : Save) (h : Store.wfFrom resetWord 0 s.regs = true) :
    Store.wfFrom resetWord 0 (State.restoreSet s v).regs = true := by
  unfold State.restoreSet
  (try dsimp only)
  (repeat' split) <;> (try (have hk1 := @State.rulesFromRegs_keeps; simp [hk1, h]))
  repeat' (first | with_reducible assumption | (intro) | with_reducible apply State.over_regsWf |
    with_reducible apply State.restoreWord_regsWf | split | dsimp only |
                    (have hk1 := @State.rulesFromRegs_keeps; simp [hk1]))

@[simp] theorem State.copyRecord_regsWf (s : State) (m : Master) (h : Store.wfFrom resetWord 0 s.regs = true) :
    Store.wfFrom resetWord 0 (State.copyRecord s m).regs = true := by
  unfold State.copyRecord
  (try dsimp only)
  (repeat' split) <;> (try simp [h])
  repeat' (first | with_reducible assumption | (intro) | with_reducible apply State.over_regsWf |
    with_reducible apply State.setRegN_regsWf | split | dsimp only | simp)

@[simp] theorem State.putRecord_regsWf (s : State) (m : Master) (h : Store.wfFrom resetWord 0 s.regs = true) :
    Store.wfFrom resetWord 0 (State.putRecord s m).regs = true := by
  unfold State.putRecord
  (try dsimp only)
  (repeat' split) <;> (try simp [h])
  repeat' (first | with_reducible assumption | (intro) | with_reducible apply State.over_regsWf |
    with_reducible apply State.logBytes_regsWf | split | dsimp only | simp)

@[simp] theorem State.writeRecord_regsWf (s : State) (h : Store.wfFrom resetWord 0 s.regs = true) :
    Store.wfFrom resetWord 0 (State.writeRecord s).regs = true := by
  unfold State.writeRecord
  (try dsimp only)
  (repeat' split) <;> (try simp [h])
  repeat' (first | with_reducible assumption | (intro) | with_reducible apply State.over_regsWf |
    with_reducible apply State.setBit_regsWf | with_reducible apply State.setFld_regsWf |
    with_reducible apply State.count_regsWf | with_reducible apply State.setRegN_regsWf | split | dsimp only | simp)

@[simp] theorem State.pushFault_regsWf (s : State) (f : MpuFault) (h : Store.wfFrom resetWord 0 s.regs = true) :
    Store.wfFrom resetWord 0 (State.pushFault s f).regs = true := by
  unfold State.pushFault
  (try dsimp only)
  (repeat' split) <;> (try simp [h])
  repeat' (first | with_reducible assumption | (intro) | with_reducible apply State.over_regsWf |
    with_reducible apply State.count_regsWf | split | dsimp only | simp)

@[simp] theorem State.connectUp_regsWf (s : State) (ss : Bool) (h : Store.wfFrom resetWord 0 s.regs = true) :
    Store.wfFrom resetWord 0 (State.connectUp s ss).regs = true := by
  unfold State.connectUp
  (try dsimp only)
  (repeat' split) <;> (try simp [h])
  repeat' (first | with_reducible assumption | (intro) | with_reducible apply State.over_regsWf |
    with_reducible apply State.setFld_regsWf | split | dsimp only | simp)

@[simp] theorem State.disconnectUp_regsWf (s : State) (h : Store.wfFrom resetWord 0 s.regs = true) :
    Store.wfFrom resetWord 0 (State.disconnectUp s).regs = true := by
  unfold State.disconnectUp
  (try dsimp only)
  (repeat' split) <;> (try (have hk1 := @State.usbDefault_keeps; simp [hk1, h]))
  repeat' (first | with_reducible assumption | (intro) | with_reducible apply State.over_regsWf |
    with_reducible apply State.closeSession_regsWf | with_reducible apply State.setFld_regsWf |
    with_reducible apply State.setBit_regsWf | split | dsimp only | (have hk1 := @State.usbDefault_keeps; simp [hk1]))

@[simp] theorem State.measureVbus_regsWf (s : State) (k : PdPort) (v : Nat) (h : Store.wfFrom resetWord 0 s.regs = true) :
    Store.wfFrom resetWord 0 (State.measureVbus s k v).regs = true := by
  unfold State.measureVbus
  (try dsimp only)
  (repeat' split) <;> (try simp [h])
  repeat' (first | with_reducible assumption | (intro) | with_reducible apply State.over_regsWf |
    with_reducible apply State.setReg_regsWf | with_reducible apply State.setRegN_regsWf | split | dsimp only | simp)

@[simp] theorem State.detachDn_regsWf (s : State) (k : PdPort) (h : Store.wfFrom resetWord 0 s.regs = true) :
    Store.wfFrom resetWord 0 (State.detachDn s k).regs = true := by
  unfold State.detachDn
  (try dsimp only)
  (repeat' split) <;> (try (have hk1 := @State.dropPartner_keeps; have hk2 := @State.removeVbus_keeps; simp [hk1, hk2, h]))
  repeat' (first | with_reducible assumption | (intro) | with_reducible apply State.over_regsWf |
    with_reducible apply State.logBytes_regsWf | with_reducible apply State.count_regsWf | split | dsimp only |
                    (have hk1 := @State.dropPartner_keeps; have hk2 := @State.removeVbus_keeps; simp [hk1, hk2]))

@[simp] theorem State.applyVbus_regsWf (s : State) (k : PdPort) (h : Store.wfFrom resetWord 0 s.regs = true) :
    Store.wfFrom resetWord 0 (State.applyVbus s k).regs = true := by
  unfold State.applyVbus
  (try dsimp only)
  (repeat' split) <;> (try simp [h])
  repeat' (first | with_reducible assumption | (intro) | with_reducible apply State.over_regsWf |
    with_reducible apply State.measureVbus_regsWf | split | dsimp only | simp)

@[simp] theorem State.notSupported_regsWf (s : State) (k : PdPort) (h : Store.wfFrom resetWord 0 s.regs = true) :
    Store.wfFrom resetWord 0 (State.notSupported s k).regs = true := by
  unfold State.notSupported
  (try dsimp only)
  (repeat' split) <;> (try (have hk1 := @State.sendPd_keeps; simp [hk1, h]))
  repeat' (first | with_reducible assumption | (intro) | with_reducible apply State.over_regsWf |
    with_reducible apply State.count_regsWf | split | dsimp only | (have hk1 := @State.sendPd_keeps; simp [hk1]))

@[simp] theorem State.hardReset_regsWf (s : State) (k : PdPort) (h : Store.wfFrom resetWord 0 s.regs = true) :
    Store.wfFrom resetWord 0 (State.hardReset s k).regs = true := by
  unfold State.hardReset
  (try dsimp only)
  (repeat' split) <;> (try (have hk1 := @State.endContract_keeps; have hk2 := @State.removeVbus_keeps; have hk3 := @State.restartIds_keeps; simp [hk1, hk2, hk3, h]))
  repeat' (first | with_reducible assumption | (intro) | with_reducible apply State.over_regsWf |
    with_reducible apply State.count_regsWf | split | dsimp only |
                    (have hk1 := @State.endContract_keeps; have hk2 := @State.removeVbus_keeps; have hk3 := @State.restartIds_keeps; simp [hk1, hk2, hk3]))

@[simp] theorem State.whenUsb_regsWf {f : State → State} (h : ∀ t : State, Store.wfFrom resetWord 0 t.regs = true → Store.wfFrom resetWord 0 (f t).regs = true)
    (s : State) (hs : Store.wfFrom resetWord 0 s.regs = true) : Store.wfFrom resetWord 0 (State.whenUsb s f).regs = true := by
  unfold State.whenUsb
  (try dsimp only)
  (repeat' split) <;> simp_all

@[simp] theorem State.attachWake_regsWf (s : State) (settled : Bool) (h : Store.wfFrom resetWord 0 s.regs = true) :
    Store.wfFrom resetWord 0 (State.attachWake s settled).regs = true := by
  unfold State.attachWake
  (try dsimp only)
  (repeat' split) <;> (try simp [h])
  repeat' (first | with_reducible assumption | (intro) | with_reducible apply State.over_regsWf |
    with_reducible apply State.wakeBy_regsWf | split | dsimp only | simp)

@[simp] theorem State.connectService_regsWf (s : State) (cur : Nat) (h : Store.wfFrom resetWord 0 s.regs = true) :
    Store.wfFrom resetWord 0 (State.connectService s cur).regs = true := by
  unfold State.connectService
  (try dsimp only)
  (repeat' split) <;> (try simp [h])
  repeat' (first | with_reducible assumption | (intro) | with_reducible apply State.over_regsWf |
    with_reducible apply State.connectUp_regsWf | with_reducible apply State.setBit_regsWf | split | dsimp only | simp)

@[simp] theorem State.overCurrent_regsWf (s : State) (n : DnPort) (h : Store.wfFrom resetWord 0 s.regs = true) :
    Store.wfFrom resetWord 0 (State.overCurrent s n).regs = true := by
  unfold State.overCurrent
  (try dsimp only)
  (repeat' split) <;> (try (have hk1 := @State.dropPartner_keeps; have hk2 := @State.removeVbus_keeps; simp [hk1, hk2, h]))
  repeat' (first | with_reducible assumption | (intro) | with_reducible apply State.over_regsWf |
    with_reducible apply State.setBit_regsWf | with_reducible apply State.count_regsWf | split | dsimp only |
                    (have hk1 := @State.dropPartner_keeps; have hk2 := @State.removeVbus_keeps; simp [hk1, hk2]))

@[simp] theorem State.powerPort_regsWf (s : State) (n : DnPort) (h : Store.wfFrom resetWord 0 s.regs = true) :
    Store.wfFrom resetWord 0 (State.powerPort s n).regs = true := by
  unfold State.powerPort
  (try dsimp only)
  (repeat' split) <;> (try simp [h])
  repeat' (first | with_reducible assumption | (intro) | with_reducible apply State.over_regsWf |
    with_reducible apply State.setBit_regsWf | split | dsimp only | simp)

@[simp] theorem State.whenMf_regsWf {f : State → State} (h : ∀ t : State, Store.wfFrom resetWord 0 t.regs = true → Store.wfFrom resetWord 0 (f t).regs = true)
    (s : State) (hs : Store.wfFrom resetWord 0 s.regs = true) : Store.wfFrom resetWord 0 (State.whenMf s f).regs = true := by
  unfold State.whenMf
  (try dsimp only)
  (repeat' split) <;> simp_all

@[simp] theorem State.ackPacket_regsWf (s : State) (h : Store.wfFrom resetWord 0 s.regs = true) :
    Store.wfFrom resetWord 0 (State.ackPacket s).regs = true := by
  unfold State.ackPacket
  (try dsimp only)
  (repeat' split) <;> (try simp [h])
  repeat' (first | with_reducible assumption | (intro) | with_reducible apply State.over_regsWf |
    with_reducible apply State.count_regsWf | split | dsimp only | simp)

@[simp] theorem State.whenPd_regsWf {f : State → State} (h : ∀ t : State, Store.wfFrom resetWord 0 t.regs = true → Store.wfFrom resetWord 0 (f t).regs = true)
    (s : State) (k : PdPort) (hs : Store.wfFrom resetWord 0 s.regs = true) : Store.wfFrom resetWord 0 (State.whenPd s k f).regs = true := by
  unfold State.whenPd
  (try dsimp only)
  (repeat' split) <;> (have hk1 := @State.heard_keeps; simp_all [hk1])

@[simp] theorem State.copyHub_regsWf (s : State) (h : Store.wfFrom resetWord 0 s.regs = true) :
    Store.wfFrom resetWord 0 (State.copyHub s).regs = true := by
  unfold State.copyHub
  (repeat' split) <;> (try simp [h])
  repeat' (first | with_reducible assumption | with_reducible apply State.setReg_regsWf | with_reducible apply State.setRegN_regsWf | with_reducible apply State.count_regsWf  | with_reducible apply Store.wfFrom_set | exact Nat.zero_le _ | simp)

@[simp] theorem State.writeUnlock_regsWf (s : State) (m : Master) (w : Word) (h : Store.wfFrom resetWord 0 s.regs = true) :
    Store.wfFrom resetWord 0 (State.writeUnlock s m w).regs = true := by
  unfold State.writeUnlock
  (try dsimp only)
  (repeat' split) <;> (try (have hk1 := @State.setUnlock_keeps; simp [hk1, h]))
  repeat' (first | with_reducible assumption | (intro) | with_reducible apply State.over_regsWf |
    with_reducible apply State.count_regsWf | split | dsimp only | (have hk1 := @State.setUnlock_keeps; simp [hk1]))

@[simp] theorem State.loopWritten_regsWf (s : State) (l : LaneIx) (old : Word) (new : Word) (h : Store.wfFrom resetWord 0 s.regs = true) :
    Store.wfFrom resetWord 0 (State.loopWritten s l old new).regs = true := by
  unfold State.loopWritten
  (try dsimp only)
  (repeat' split) <;> (try simp [h])
  repeat' (first | with_reducible assumption | (intro) | with_reducible apply State.over_regsWf |
    with_reducible apply State.loopChanged_regsWf | with_reducible apply State.setBit_regsWf | split | dsimp only | simp)

@[simp] theorem State.testWritten_regsWf (s : State) (l : LaneIx) (new : Word) (h : Store.wfFrom resetWord 0 s.regs = true) :
    Store.wfFrom resetWord 0 (State.testWritten s l new).regs = true := by
  unfold State.testWritten
  (try dsimp only)
  (repeat' split) <;> (try simp [h])
  repeat' (first | with_reducible assumption | (intro) | with_reducible apply State.over_regsWf |
    with_reducible apply State.loopChanged_regsWf | split | dsimp only | simp)

@[simp] theorem State.trkCfgWritten_regsWf (s : State) (t : TrunkPort) (new : Word) (h : Store.wfFrom resetWord 0 s.regs = true) :
    Store.wfFrom resetWord 0 (State.trkCfgWritten s t new).regs = true := by
  unfold State.trkCfgWritten
  (try dsimp only)
  (repeat' split) <;> (try simp [h])
  repeat' (first | with_reducible assumption | (intro) | with_reducible apply State.over_regsWf |
    with_reducible apply State.portDown_regsWf | with_reducible apply State.linkLoss_regsWf | split | dsimp only | simp)

@[simp] theorem State.roleWritten_regsWf (s : State) (h : Store.wfFrom resetWord 0 s.regs = true) :
    Store.wfFrom resetWord 0 (State.roleWritten s).regs = true := by
  unfold State.roleWritten
  (try dsimp only)
  (repeat' split) <;> (try simp [h])
  repeat' (first | with_reducible assumption | (intro) | with_reducible apply State.over_regsWf |
    with_reducible apply State.setFld_regsWf | with_reducible apply State.viewing_regsWf | split | dsimp only | simp)

@[simp] theorem State.releaseBank_regsWf (s : State) (h : Store.wfFrom resetWord 0 s.regs = true) :
    Store.wfFrom resetWord 0 (State.releaseBank s).regs = true := by
  unfold State.releaseBank
  (try dsimp only)
  (repeat' split) <;> (try simp [h])
  repeat' (first | with_reducible assumption | (intro) | with_reducible apply State.over_regsWf |
    with_reducible apply State.setBit_regsWf | split | dsimp only | simp)

@[simp] theorem State.requestSnap_regsWf (s : State) (h : Store.wfFrom resetWord 0 s.regs = true) :
    Store.wfFrom resetWord 0 (State.requestSnap s).regs = true := by
  unfold State.requestSnap
  (try dsimp only)
  (repeat' split) <;> (try simp [h])
  repeat' (first | with_reducible assumption | (intro) | with_reducible apply State.over_regsWf |
    with_reducible apply State.count_regsWf | with_reducible apply State.setBit_regsWf | split | dsimp only | simp)

@[simp] theorem State.snapWritten_regsWf (s : State) (w : Word) (h : Store.wfFrom resetWord 0 s.regs = true) :
    Store.wfFrom resetWord 0 (State.snapWritten s w).regs = true := by
  unfold State.snapWritten
  (try dsimp only)
  (repeat' split) <;> (try simp [h])
  repeat' (first | with_reducible assumption | (intro) | with_reducible apply State.over_regsWf |
    with_reducible apply State.requestSnap_regsWf | with_reducible apply State.releaseBank_regsWf | split | dsimp only |
                    simp)

@[simp] theorem State.keepSet_regsWf (s : State) (a : Nat) (old : Word) (h : Store.wfFrom resetWord 0 s.regs = true) :
    Store.wfFrom resetWord 0 (State.keepSet s a old).regs = true := by
  unfold State.keepSet
  (try dsimp only)
  (repeat' split) <;> (try simp [h])
  repeat' (first | with_reducible assumption | (intro) | with_reducible apply State.over_regsWf |
    with_reducible apply State.setReg_regsWf | split | dsimp only | simp)

@[simp] theorem State.keepHigher_regsWf (s : State) (a : Nat) (old : Word) (h : Store.wfFrom resetWord 0 s.regs = true) :
    Store.wfFrom resetWord 0 (State.keepHigher s a old).regs = true := by
  unfold State.keepHigher
  (try dsimp only)
  (repeat' split) <;> (try simp [h])
  repeat' (first | with_reducible assumption | (intro) | with_reducible apply State.over_regsWf |
    with_reducible apply State.setReg_regsWf | split | dsimp only | simp)

@[simp] theorem State.stageWord_regsWf (s : State) (w : Word) (h : Store.wfFrom resetWord 0 s.regs = true) :
    Store.wfFrom resetWord 0 (State.stageWord s w).regs = true := by
  unfold State.stageWord
  (try dsimp only)
  (repeat' split) <;> (try simp [h])
  repeat' (first | with_reducible assumption | (intro) | with_reducible apply State.over_regsWf |
    with_reducible apply State.setRegN_regsWf | split | dsimp only | simp)

@[simp] theorem State.flashCommand_regsWf (s : State) (m : Master) (op : Nat) (h : Store.wfFrom resetWord 0 s.regs = true) :
    Store.wfFrom resetWord 0 (State.flashCommand s m op).regs = true := by
  unfold State.flashCommand
  (try dsimp only)
  (repeat' split) <;> (try simp [h])
  repeat' (first | with_reducible assumption | (intro) | with_reducible apply State.over_regsWf |
    with_reducible apply State.count_regsWf | with_reducible apply State.setBit_regsWf |
    with_reducible apply State.setRegN_regsWf | split | dsimp only | simp)

@[simp] theorem State.wroteBeat_regsWf (s : State) (m : Master) (a : Nat) (old : Word) (data : Word) (h : Store.wfFrom resetWord 0 s.regs = true) :
    Store.wfFrom resetWord 0 (State.wroteBeat s m a old data).regs = true := by
  unfold State.wroteBeat
  (try dsimp only)
  (repeat' split) <;> (try simp [h])
  repeat' (first | with_reducible assumption | (intro) | with_reducible apply State.over_regsWf |
    with_reducible apply State.setReg_regsWf | with_reducible apply State.roleWritten_regsWf |
    with_reducible apply State.commitCommand_regsWf | with_reducible apply State.copyHub_regsWf |
    with_reducible apply State.viewing_regsWf | split | dsimp only | simp)

@[simp] theorem State.wroteLane_regsWf (s : State) (a : Nat) (old : Word) (new : Word) (data : Word) (h : Store.wfFrom resetWord 0 s.regs = true) :
    Store.wfFrom resetWord 0 (State.wroteLane s a old new data).regs = true := by
  unfold State.wroteLane
  (try dsimp only)
  (repeat' split) <;> (try (have hk1 := @State.trendClrWritten_keeps; simp [hk1, h]))
  repeat' (first | with_reducible assumption | (intro) | with_reducible apply State.over_regsWf |
    with_reducible apply State.testWritten_regsWf | with_reducible apply State.loopWritten_regsWf | split | dsimp only |
                    (have hk1 := @State.trendClrWritten_keeps; simp [hk1]))

@[simp] theorem State.wrotePort_regsWf (s : State) (a : Nat) (new : Word) (h : Store.wfFrom resetWord 0 s.regs = true) :
    Store.wfFrom resetWord 0 (State.wrotePort s a new).regs = true := by
  unfold State.wrotePort
  (try dsimp only)
  (repeat' split) <;> (try simp [h])
  repeat' (first | with_reducible assumption | (intro) | with_reducible apply State.over_regsWf |
    with_reducible apply State.trkCfgWritten_regsWf | with_reducible apply State.evaluate_regsWf | split | dsimp only |
                    simp)

@[simp] theorem State.wroteTun_regsWf (s : State) (m : Master) (a : Nat) (data : Word) (h : Store.wfFrom resetWord 0 s.regs = true) :
    Store.wfFrom resetWord 0 (State.wroteTun s m a data).regs = true := by
  unfold State.wroteTun
  (try dsimp only)
  (repeat' split) <;> (try simp [h])
  repeat' (first | with_reducible assumption | (intro) | with_reducible apply State.over_regsWf |
    with_reducible apply State.epCommand_regsWf | with_reducible apply State.mapCommand_regsWf | split | dsimp only |
                    simp)

@[simp] theorem State.wroteSump_regsWf (s : State) (a : Nat) (data : Word) (h : Store.wfFrom resetWord 0 s.regs = true) :
    Store.wfFrom resetWord 0 (State.wroteSump s a data).regs = true := by
  unfold State.wroteSump
  (try dsimp only)
  (repeat' split) <;> (try simp [h])
  repeat' (first | with_reducible assumption | (intro) | with_reducible apply State.over_regsWf |
    with_reducible apply State.startTraining_regsWf | split | dsimp only | simp)

@[simp] theorem State.wroteEng_regsWf (s : State) (m : Master) (a : Nat) (data : Word) (h : Store.wfFrom resetWord 0 s.regs = true) :
    Store.wfFrom resetWord 0 (State.wroteEng s m a data).regs = true := by
  unfold State.wroteEng
  (try dsimp only)
  (repeat' split) <;> (try (have hk1 := @State.colCfgWritten_keeps; simp [hk1, h]))
  repeat' (first | with_reducible assumption | (intro) | with_reducible apply State.over_regsWf |
    with_reducible apply State.engCommand_regsWf | with_reducible apply State.treqCommand_regsWf | split | dsimp only |
                    (have hk1 := @State.colCfgWritten_keeps; simp [hk1]))

@[simp] theorem State.wroteAcc_regsWf (s : State) (m : Master) (a : Nat) (old : Word) (new : Word) (data : Word) (h : Store.wfFrom resetWord 0 s.regs = true) :
    Store.wfFrom resetWord 0 (State.wroteAcc s m a old new data).regs = true := by
  unfold State.wroteAcc
  (try dsimp only)
  (repeat' split) <;> (try (have hk1 := @State.changeRule_keeps; have hk2 := @State.popFault_keeps; have hk3 := @State.startBarrier_keeps; simp [hk1, hk2, hk3, h]))
  repeat' (first | with_reducible assumption | (intro) | with_reducible apply State.over_regsWf |
    with_reducible apply State.keepSet_regsWf | with_reducible apply State.writeUnlock_regsWf |
    with_reducible apply State.snapWritten_regsWf | split | dsimp only |
                    (have hk1 := @State.changeRule_keeps; have hk2 := @State.popFault_keeps; have hk3 := @State.startBarrier_keeps; simp [hk1, hk2, hk3]))

@[simp] theorem State.wroteGeo_regsWf (s : State) (m : Master) (a : Nat) (old : Word) (data : Word) (h : Store.wfFrom resetWord 0 s.regs = true) :
    Store.wfFrom resetWord 0 (State.wroteGeo s m a old data).regs = true := by
  unfold State.wroteGeo
  (try dsimp only)
  (repeat' split) <;> (try simp [h])
  repeat' (first | with_reducible assumption | (intro) | with_reducible apply State.over_regsWf |
    with_reducible apply State.acceptKey_regsWf | with_reducible apply State.keepSet_regsWf |
    with_reducible apply State.fuseCommand_regsWf | split | dsimp only | simp)

@[simp] theorem State.wroteBoot_regsWf (s : State) (m : Master) (a : Nat) (data : Word) (h : Store.wfFrom resetWord 0 s.regs = true) :
    Store.wfFrom resetWord 0 (State.wroteBoot s m a data).regs = true := by
  unfold State.wroteBoot
  (try dsimp only)
  (repeat' split) <;> (try simp [h])
  repeat' (first | with_reducible assumption | (intro) | with_reducible apply State.over_regsWf |
    with_reducible apply State.stageWord_regsWf | with_reducible apply State.bootCommand_regsWf |
    with_reducible apply State.flashCommand_regsWf | split | dsimp only | simp)

@[simp] theorem State.wrotePwr_regsWf (s : State) (m : Master) (a : Nat) (old : Word) (new : Word) (data : Word) (h : Store.wfFrom resetWord 0 s.regs = true) :
    Store.wfFrom resetWord 0 (State.wrotePwr s m a old new data).regs = true := by
  unfold State.wrotePwr
  (try dsimp only)
  (repeat' split) <;> (try (have hk1 := @State.writeAsk_keeps; simp [hk1, h]))
  repeat' (first | with_reducible assumption | (intro) | with_reducible apply State.over_regsWf |
    with_reducible apply State.writeRequest_regsWf | with_reducible apply State.keepHigher_regsWf |
    with_reducible apply State.writeTarget_regsWf | with_reducible apply State.startStepping_regsWf | split | dsimp only |
                    (have hk1 := @State.writeAsk_keeps; simp [hk1]))

@[simp] theorem State.wroteUsb_regsWf (s : State) (m : Master) (a : Nat) (old : Word) (h : Store.wfFrom resetWord 0 s.regs = true) :
    Store.wfFrom resetWord 0 (State.wroteUsb s m a old).regs = true := by
  unfold State.wroteUsb
  (try dsimp only)
  (repeat' split) <;> (try (have hk1 := @State.notePdo_keeps; have hk2 := @State.showRp_keeps; simp [hk1, hk2, h]))
  repeat' (first | with_reducible assumption | (intro) | with_reducible apply State.over_regsWf |
    with_reducible apply State.sessionConfig_regsWf | with_reducible apply State.setReg_regsWf |
    with_reducible apply State.copyRecord_regsWf | with_reducible apply State.putRecord_regsWf | split | dsimp only |
                    (have hk1 := @State.notePdo_keeps; have hk2 := @State.showRp_keeps; simp [hk1, hk2]))

@[simp] theorem State.wrote_regsWf (s : State) (m : Master) (a : Nat) (old : Word) (new : Word) (data : Word) (h : Store.wfFrom resetWord 0 s.regs = true) :
    Store.wfFrom resetWord 0 (State.wrote s m a old new data).regs = true := by
  unfold State.wrote
  (try dsimp only)
  (repeat' split) <;> (try (have hk1 := @State.wrotePol_keeps; have hk2 := @State.wroteSched_keeps; simp [hk1, hk2, h]))
  repeat' (first | with_reducible assumption | (intro) | with_reducible apply State.over_regsWf |
    with_reducible apply State.wroteUsb_regsWf | with_reducible apply State.wroteTun_regsWf |
    with_reducible apply State.wroteGeo_regsWf | with_reducible apply State.wroteBoot_regsWf |
    with_reducible apply State.wroteAcc_regsWf | with_reducible apply State.wroteBeat_regsWf |
    with_reducible apply State.wroteLane_regsWf | with_reducible apply State.wroteSump_regsWf |
    with_reducible apply State.wroteEng_regsWf | with_reducible apply State.evaluate_regsWf |
    with_reducible apply State.wrotePwr_regsWf | with_reducible apply State.wrotePort_regsWf | split | dsimp only |
                    (have hk1 := @State.wrotePol_keeps; have hk2 := @State.wroteSched_keeps; simp [hk1, hk2]))

@[simp] theorem State.busError_regsWf (s : State) (m : Master) (addr : Nat) (write : Bool) (cause : Nat) (h : Store.wfFrom resetWord 0 s.regs = true) :
    Store.wfFrom resetWord 0 (State.busError s m addr write cause).regs = true := by
  unfold State.busError
  (repeat' split) <;> (try simp [h])
  repeat' (first | with_reducible assumption | with_reducible apply State.setReg_regsWf | with_reducible apply State.setRegN_regsWf | with_reducible apply State.count_regsWf  | with_reducible apply Store.wfFrom_set | exact Nat.zero_le _ | simp)

@[simp] theorem State.readDirect_regsWf (s : State) (m : Master) (addr : Nat) (size : Nat) (h : Store.wfFrom resetWord 0 s.regs = true) :
    Store.wfFrom resetWord 0 (State.readDirect s m addr size).1.regs = true := by
  unfold State.readDirect
  (try dsimp only)
  (repeat' split) <;> (try (have hk1 := @State.endCapture_keeps; simp [hk1, h]))
  repeat' (first | with_reducible assumption | (intro) | with_reducible apply State.over_regsWf |
    with_reducible apply State.busError_regsWf | split | dsimp only | (have hk1 := @State.endCapture_keeps; simp [hk1]))

@[simp] theorem State.writeFields_regsWf (s : State) (m : Master) (r : RegRow) (a : Nat) (bits : Nat) (data : Word) (h : Store.wfFrom resetWord 0 s.regs = true) :
    Store.wfFrom resetWord 0 (State.writeFields s m r a bits data).regs = true := by
  unfold State.writeFields
  (try dsimp only)
  (repeat' split) <;> (try simp [h])
  repeat' (first | with_reducible assumption | (intro) | with_reducible apply State.over_regsWf |
    with_reducible apply State.setReg_regsWf | with_reducible apply State.wrote_regsWf | split | dsimp only | simp)

@[simp] theorem State.tryWrite_regsWf (s : State) (m : Master) (r : RegRow) (addr : Nat) (a : Nat) (bits : Nat) (data : Word) (armed : Bool) (h : Store.wfFrom resetWord 0 s.regs = true) :
    Store.wfFrom resetWord 0 (State.tryWrite s m r addr a bits data armed).1.regs = true := by
  unfold State.tryWrite
  (try dsimp only)
  (repeat' split) <;> (try simp [h])
  repeat' (first | with_reducible assumption | (intro) | with_reducible apply State.over_regsWf |
    with_reducible apply State.busError_regsWf | with_reducible apply State.count_regsWf |
    with_reducible apply State.writeFields_regsWf | split | dsimp only | simp)

@[simp] theorem State.writeDirect_regsWf (s : State) (m : Master) (addr : Nat) (data : Word) (h : Store.wfFrom resetWord 0 s.regs = true) :
    Store.wfFrom resetWord 0 (State.writeDirect s m addr data).1.regs = true := by
  unfold State.writeDirect
  (try dsimp only)
  (repeat' split) <;> (try (have hk1 := @State.endCapture_keeps; have hk2 := @State.spend_keeps; simp [hk1, hk2, h]))
  repeat' (first | with_reducible assumption | (intro) | with_reducible apply State.over_regsWf |
    with_reducible apply State.tryWrite_regsWf | with_reducible apply State.busError_regsWf | split | dsimp only |
                    (have hk1 := @State.endCapture_keeps; have hk2 := @State.spend_keeps; simp [hk1, hk2]))

@[simp] theorem State.readAlias_regsWf (s : State) (m : Master) (addr : Nat) (size : Nat) (h : Store.wfFrom resetWord 0 s.regs = true) :
    Store.wfFrom resetWord 0 (State.readAlias s m addr size).1.regs = true := by
  unfold State.readAlias
  (try dsimp only)
  (repeat' split) <;> (try (have hk1 := @State.endCapture_keeps; simp [hk1, h]))
  repeat' (first | with_reducible assumption | (intro) | with_reducible apply State.over_regsWf |
    with_reducible apply State.busError_regsWf | split | dsimp only | (have hk1 := @State.endCapture_keeps; simp [hk1]))

@[simp] theorem State.writeAlias_regsWf (s : State) (m : Master) (addr : Nat) (data : Word) (h : Store.wfFrom resetWord 0 s.regs = true) :
    Store.wfFrom resetWord 0 (State.writeAlias s m addr data).1.regs = true := by
  unfold State.writeAlias
  (try dsimp only)
  (repeat' split) <;> (try (have hk1 := @State.endCapture_keeps; have hk2 := @State.spend_keeps; simp [hk1, hk2, h]))
  repeat' (first | with_reducible assumption | (intro) | with_reducible apply State.over_regsWf |
    with_reducible apply State.tryWrite_regsWf | with_reducible apply State.busError_regsWf | split | dsimp only |
                    (have hk1 := @State.endCapture_keeps; have hk2 := @State.spend_keeps; simp [hk1, hk2]))

@[simp] theorem State.regOne_regsWf (s : State) (m : Master) (write : Bool) (addr : Nat) (size : Nat) (data : Word) (h : Store.wfFrom resetWord 0 s.regs = true) :
    Store.wfFrom resetWord 0 (State.regOne s m write addr size data).1.regs = true := by
  unfold State.regOne
  (try dsimp only)
  (repeat' split) <;> (try simp [h])
  repeat' (first | with_reducible assumption | (intro) | with_reducible apply State.over_regsWf |
    with_reducible apply State.readAlias_regsWf | with_reducible apply State.writeAlias_regsWf |
    with_reducible apply State.writeDirect_regsWf | with_reducible apply State.readDirect_regsWf | split | dsimp only |
                    simp)

@[simp] theorem State.malformed_regsWf (s : State) (m : Master) (write : Bool) (addr : Nat) (cause : Nat) (h : Store.wfFrom resetWord 0 s.regs = true) :
    Store.wfFrom resetWord 0 (State.malformed s m write addr cause).1.regs = true := by
  unfold State.malformed
  (try dsimp only)
  (repeat' split) <;> (try (have hk1 := @State.endCapture_keeps; have hk2 := @State.spend_keeps; simp [hk1, hk2, h]))
  repeat' (first | with_reducible assumption | (intro) | with_reducible apply State.over_regsWf |
    with_reducible apply State.busError_regsWf | split | dsimp only |
                    (have hk1 := @State.endCapture_keeps; have hk2 := @State.spend_keeps; simp [hk1, hk2]))

@[simp] theorem State.regSpace_regsWf (s : State) (m : Master) (write : Bool) (addr : Nat) (size : Nat) (data : Nat) (h : Store.wfFrom resetWord 0 s.regs = true) :
    Store.wfFrom resetWord 0 (State.regSpace s m write addr size data).1.regs = true := by
  unfold State.regSpace
  (try dsimp only)
  (repeat' split) <;> (try simp [h])
  repeat' (first | with_reducible assumption | (intro) | with_reducible apply State.over_regsWf |
    with_reducible apply State.regOne_regsWf | with_reducible apply State.malformed_regsWf | split | dsimp only | simp)

@[simp] theorem State.memSpace_regsWf (s : State) (m : Master) (write : Bool) (addr : Nat) (size : Nat) (data : List Byte) (h : Store.wfFrom resetWord 0 s.regs = true) :
    Store.wfFrom resetWord 0 (State.memSpace s m write addr size data).1.regs = true := by
  unfold State.memSpace
  (try dsimp only)
  (repeat' split) <;> (try (have hk1 := @State.healed_keeps; simp [hk1, h]))
  repeat' (first | with_reducible assumption | (intro) | with_reducible apply State.over_regsWf |
    with_reducible apply State.busError_regsWf | with_reducible apply State.sumpError_regsWf | split | dsimp only |
                    (have hk1 := @State.healed_keeps; simp [hk1]))

@[simp] theorem State.perform_regsWf (s : State) (m : Master) (write : Bool) (addr : Nat) (size : Nat) (data : List Byte) (h : Store.wfFrom resetWord 0 s.regs = true) :
    Store.wfFrom resetWord 0 (State.perform s m write addr size data).1.regs = true := by
  unfold State.perform
  (try dsimp only)
  (repeat' split) <;> (try simp [h])
  repeat' (first | with_reducible assumption | (intro) | with_reducible apply State.over_regsWf |
    with_reducible apply State.regSpace_regsWf | with_reducible apply State.memSpace_regsWf | split | dsimp only | simp)

@[simp] theorem State.colAccess_regsWf (s : State) (m : Master) (c : ColumnIx) (write : Bool) (addr : Nat) (size : Nat) (data : List Byte) (h : Store.wfFrom resetWord 0 s.regs = true) :
    Store.wfFrom resetWord 0 (State.colAccess s m c write addr size data).1.regs = true := by
  unfold State.colAccess
  (try dsimp only)
  (repeat' split) <;> (try (have hk1 := @State.dropColLine_keeps; have hk2 := @State.hitLine_keeps; have hk3 := @State.setColLine_keeps; simp [hk1, hk2, hk3, h]))
  repeat' (first | with_reducible assumption | (intro) | with_reducible apply State.over_regsWf |
    with_reducible apply State.memSpace_regsWf | with_reducible apply State.busError_regsWf | split | dsimp only |
                    (have hk1 := @State.dropColLine_keeps; have hk2 := @State.hitLine_keeps; have hk3 := @State.setColLine_keeps; simp [hk1, hk2, hk3]))

@[simp] theorem State.cached_regsWf (s : State) (m : Master) (c : ColumnIx) (write : Bool) (addr : Nat) (size : Nat) (data : List Byte) (h : Store.wfFrom resetWord 0 s.regs = true) :
    Store.wfFrom resetWord 0 (State.cached s m c write addr size data).1.regs = true := by
  unfold State.cached
  (try dsimp only)
  (repeat' split) <;> (try simp [h])
  repeat' (first | with_reducible assumption | (intro) | with_reducible apply State.over_regsWf |
    with_reducible apply State.busError_regsWf | with_reducible apply State.colAccess_regsWf | split | dsimp only | simp)

@[simp] theorem State.checked_regsWf (s : State) (m : Master) (kind : AccessKind) (addr : Nat) (size : Nat) (data : List Byte) (h : Store.wfFrom resetWord 0 s.regs = true) :
    Store.wfFrom resetWord 0 (State.checked s m kind addr size data).1.regs = true := by
  unfold State.checked
  (try dsimp only)
  (repeat' split) <;> (try simp [h])
  repeat' (first | with_reducible assumption | (intro) | with_reducible apply State.over_regsWf |
    with_reducible apply State.perform_regsWf | with_reducible apply State.pushFault_regsWf |
    with_reducible apply State.cached_regsWf | split | dsimp only | simp)

@[simp] theorem State.roleAccess_regsWf (s : State) (m : Master) (kind : AccessKind) (addr : Nat) (size : Nat) (data : List Byte) (tag : Option EngineTag) (h : Store.wfFrom resetWord 0 s.regs = true) :
    Store.wfFrom resetWord 0 (State.roleAccess s m kind addr size data tag).1.regs = true := by
  unfold State.roleAccess
  (try dsimp only)
  (repeat' split) <;> (try simp [h])
  repeat' (first | with_reducible assumption | (intro) | with_reducible apply State.over_regsWf |
    with_reducible apply State.busError_regsWf | with_reducible apply State.checked_regsWf |
    with_reducible apply State.zombie_regsWf | split | dsimp only | simp)

@[simp] theorem State.access_regsWf (s : State) (m : Master) (kind : AccessKind) (addr : Nat) (size : Nat) (data : List Byte) (tag : Option EngineTag) (h : Store.wfFrom resetWord 0 s.regs = true) :
    Store.wfFrom resetWord 0 (State.access s m kind addr size data tag).1.regs = true := by
  unfold State.access
  (try dsimp only)
  (repeat' split) <;> (try simp [h])
  repeat' (first | with_reducible assumption | (intro) | with_reducible apply State.over_regsWf |
    with_reducible apply State.roleAccess_regsWf | split | dsimp only | simp)

@[simp] theorem State.readAccess_regsWf (s : State) (m : Master) (addr : Nat) (size : Nat) (h : Store.wfFrom resetWord 0 s.regs = true) :
    Store.wfFrom resetWord 0 (State.readAccess s m addr size).1.regs = true := by
  unfold State.readAccess
  (try dsimp only)
  (repeat' split) <;> (try simp [h])
  repeat' (first | with_reducible assumption | (intro) | with_reducible apply State.over_regsWf |
    with_reducible apply State.access_regsWf | split | dsimp only | simp)

@[simp] theorem State.writeAccess_regsWf (s : State) (m : Master) (addr : Nat) (data : Word) (h : Store.wfFrom resetWord 0 s.regs = true) :
    Store.wfFrom resetWord 0 (State.writeAccess s m addr data).1.regs = true := by
  unfold State.writeAccess
  (try dsimp only)
  (repeat' split) <;> (try simp [h])
  repeat' (first | with_reducible assumption | (intro) | with_reducible apply State.over_regsWf |
    with_reducible apply State.access_regsWf | split | dsimp only | simp)

@[simp] theorem State.answered_regsWf (x : State × Answer) (m : Master) (h : Store.wfFrom resetWord 0 x.1.regs = true) :
    Store.wfFrom resetWord 0 (State.answered x m).regs = true := by
  unfold State.answered
  (try dsimp only)
  (repeat' split) <;> (try simp [h])
  repeat' (first | with_reducible assumption | (intro) | with_reducible apply State.over_regsWf |
    with_reducible apply State.busError_regsWf | split | dsimp only | simp)

@[simp] theorem State.command_regsWf (s : State) (m : Master) (addr : Nat) (data : Word) (h : Store.wfFrom resetWord 0 s.regs = true) :
    Store.wfFrom resetWord 0 (State.command s m addr data).regs = true := by
  unfold State.command
  (try dsimp only)
  (repeat' split) <;> (try simp [h])
  repeat' (first | with_reducible assumption | (intro) | with_reducible apply State.over_regsWf |
    with_reducible apply State.writeAccess_regsWf | with_reducible apply State.answered_regsWf | split | dsimp only |
                    simp)

@[simp] theorem State.commandN_regsWf (s : State) (m : Master) (addr : Nat) (data : Nat) (h : Store.wfFrom resetWord 0 s.regs = true) :
    Store.wfFrom resetWord 0 (State.commandN s m addr data).regs = true := by
  unfold State.commandN
  (try dsimp only)
  (repeat' split) <;> (try simp [h])
  repeat' (first | with_reducible assumption | (intro) | with_reducible apply State.over_regsWf |
    with_reducible apply State.command_regsWf | split | dsimp only | simp)

@[simp] theorem State.admitPort_regsWf (s : State) (t : TrunkPort) (h : Store.wfFrom resetWord 0 s.regs = true) :
    Store.wfFrom resetWord 0 (State.admitPort s t).regs = true := by
  unfold State.admitPort
  (try dsimp only)
  (repeat' split) <;> (try (have hk1 := @State.dropOldRk_keeps; have hk2 := @State.modAgent_keeps; simp [hk1, hk2, h]))
  repeat' (first | with_reducible assumption | (intro) | with_reducible apply State.over_regsWf |
    with_reducible apply State.flushHeld_regsWf | split | dsimp only |
                    (have hk1 := @State.dropOldRk_keeps; have hk2 := @State.modAgent_keeps; simp [hk1, hk2]))

@[simp] theorem State.admitted_regsWf (s : State) (t : TrunkPort) (h : Store.wfFrom resetWord 0 s.regs = true) :
    Store.wfFrom resetWord 0 (State.admitted s t).regs = true := by
  unfold State.admitted
  (try dsimp only)
  (repeat' split) <;> (try (have hk1 := @State.sendEcho_keeps; simp [hk1, h]))
  repeat' (first | with_reducible assumption | (intro) | with_reducible apply State.over_regsWf |
    with_reducible apply State.admitPort_regsWf | split | dsimp only | (have hk1 := @State.sendEcho_keeps; simp [hk1]))

@[simp] theorem State.helloArrives_regsWf (s : State) (t : TrunkPort) (payload : List Byte) (h : Store.wfFrom resetWord 0 s.regs = true) :
    Store.wfFrom resetWord 0 (State.helloArrives s t payload).regs = true := by
  unfold State.helloArrives
  (try dsimp only)
  (repeat' split) <;> (try simp [h])
  repeat' (first | with_reducible assumption | (intro) | with_reducible apply State.over_regsWf |
    with_reducible apply State.onHello_regsWf | with_reducible apply State.keyBad_regsWf |
    with_reducible apply State.viewing_regsWf | split | dsimp only | simp)

@[simp] theorem State.keyArrives_regsWf {f : State → State} (h : ∀ t : State, Store.wfFrom resetWord 0 t.regs = true → Store.wfFrom resetWord 0 (f t).regs = true)
    (s : State) (t : TrunkPort) (payload : List Byte) (hs : Store.wfFrom resetWord 0 s.regs = true) : Store.wfFrom resetWord 0 (State.keyArrives s t payload f).regs = true := by
  unfold State.keyArrives
  (try dsimp only)
  (repeat' split) <;> (have hk1 := @State.creditBack_keeps; simp_all [hk1])

@[simp] theorem State.onFinish_regsWf (s : State) (t : TrunkPort) (payload : List Byte) (h : Store.wfFrom resetWord 0 s.regs = true) :
    Store.wfFrom resetWord 0 (State.onFinish s t payload).regs = true := by
  unfold State.onFinish
  (try dsimp only)
  (repeat' split) <;> (try (have hk1 := @State.dropOldRk_keeps; have hk2 := @State.installTx_keeps; have hk3 := @State.modAgent_keeps; simp [hk1, hk2, hk3, h]))
  repeat' (first | with_reducible assumption | (intro) | with_reducible apply State.over_regsWf |
    with_reducible apply State.admitted_regsWf | with_reducible apply State.sendFail_regsWf |
    with_reducible apply State.count_regsWf | split | dsimp only |
                    (have hk1 := @State.dropOldRk_keeps; have hk2 := @State.installTx_keeps; have hk3 := @State.modAgent_keeps; simp [hk1, hk2, hk3]))

@[simp] theorem State.finishArrives_regsWf (s : State) (t : TrunkPort) (payload : List Byte) (h : Store.wfFrom resetWord 0 s.regs = true) :
    Store.wfFrom resetWord 0 (State.finishArrives s t payload).regs = true := by
  unfold State.finishArrives
  (try dsimp only)
  (repeat' split) <;> (try simp [h])
  repeat' (first | with_reducible assumption | (intro) | with_reducible apply State.over_regsWf |
    with_reducible apply State.onFinish_regsWf | with_reducible apply State.keyBad_regsWf |
    with_reducible apply State.viewing_regsWf | split | dsimp only | simp)

@[simp] theorem State.onResume_regsWf (s : State) (t : TrunkPort) (rk : BitVec 8) (payload : List Byte) (h : Store.wfFrom resetWord 0 s.regs = true) :
    Store.wfFrom resetWord 0 (State.onResume s t rk payload).regs = true := by
  unfold State.onResume
  (try dsimp only)
  (repeat' split) <;> (try (have hk1 := @State.deriveLinkKeys_keeps; have hk2 := @State.installTx_keeps; have hk3 := @State.sendResume_keeps; simp [hk1, hk2, hk3, h]))
  repeat' (first | with_reducible assumption | (intro) | with_reducible apply State.over_regsWf |
    with_reducible apply State.admitted_regsWf | with_reducible apply State.sendFail_regsWf | split | dsimp only |
                    (have hk1 := @State.deriveLinkKeys_keeps; have hk2 := @State.installTx_keeps; have hk3 := @State.sendResume_keeps; simp [hk1, hk2, hk3]))

@[simp] theorem State.takeResume_regsWf (s : State) (t : TrunkPort) (payload : List Byte) (h : Store.wfFrom resetWord 0 s.regs = true) :
    Store.wfFrom resetWord 0 (State.takeResume s t payload).regs = true := by
  unfold State.takeResume
  (try dsimp only)
  (repeat' split) <;> (try (have hk1 := @State.sendHello_keeps; simp [hk1, h]))
  repeat' (first | with_reducible assumption | (intro) | with_reducible apply State.over_regsWf |
    with_reducible apply State.onResume_regsWf | split | dsimp only | (have hk1 := @State.sendHello_keeps; simp [hk1]))

@[simp] theorem State.resumeArrives_regsWf (s : State) (t : TrunkPort) (payload : List Byte) (h : Store.wfFrom resetWord 0 s.regs = true) :
    Store.wfFrom resetWord 0 (State.resumeArrives s t payload).regs = true := by
  unfold State.resumeArrives
  (try dsimp only)
  (repeat' split) <;> (try simp [h])
  repeat' (first | with_reducible assumption | (intro) | with_reducible apply State.over_regsWf |
    with_reducible apply State.admitted_regsWf | with_reducible apply State.keyBad_regsWf |
    with_reducible apply State.takeResume_regsWf | with_reducible apply State.viewing_regsWf | split | dsimp only | simp)

@[simp] theorem State.failArrives_regsWf (s : State) (t : TrunkPort) (payload : List Byte) (h : Store.wfFrom resetWord 0 s.regs = true) :
    Store.wfFrom resetWord 0 (State.failArrives s t payload).regs = true := by
  unfold State.failArrives
  (try dsimp only)
  (repeat' split) <;> (try simp [h])
  repeat' (first | with_reducible assumption | (intro) | with_reducible apply State.over_regsWf |
    with_reducible apply State.authFailed_regsWf | with_reducible apply State.keyBad_regsWf |
    with_reducible apply State.viewing_regsWf | split | dsimp only | simp)

@[simp] theorem State.onKey_regsWf (s : State) (t : TrunkPort) (payload : List Byte) (h : Store.wfFrom resetWord 0 s.regs = true) :
    Store.wfFrom resetWord 0 (State.onKey s t payload).regs = true := by
  unfold State.onKey
  (try dsimp only)
  (repeat' split) <;> (try simp [h])
  repeat' (first | with_reducible assumption | (intro) | with_reducible apply State.over_regsWf |
    with_reducible apply State.failArrives_regsWf | with_reducible apply State.resumeArrives_regsWf |
    with_reducible apply State.keyBad_regsWf | with_reducible apply State.helloArrives_regsWf |
    with_reducible apply State.finishArrives_regsWf | split | dsimp only | simp)

@[simp] theorem State.onSync_regsWf (s : State) (p : LinkPort) (payload : List Byte) (h : Store.wfFrom resetWord 0 s.regs = true) :
    Store.wfFrom resetWord 0 (State.onSync s p payload).regs = true := by
  unfold State.onSync
  (try dsimp only)
  (repeat' split) <;> (try (have hk1 := @State.setCtr_keeps; simp [hk1, h]))
  repeat' (first | with_reducible assumption | (intro) | with_reducible apply State.over_regsWf |
    with_reducible apply State.count_regsWf | with_reducible apply State.keyBad_regsWf | split | dsimp only |
                    (have hk1 := @State.setCtr_keeps; simp [hk1]))

@[simp] theorem State.holdAnn_regsWf (s : State) (a : Announcement) (h : Store.wfFrom resetWord 0 s.regs = true) :
    Store.wfFrom resetWord 0 (State.holdAnn s a).regs = true := by
  unfold State.holdAnn
  (try dsimp only)
  (repeat' split) <;> (try (have hk1 := @State.sendEchoAll_keeps; simp [hk1, h]))
  repeat' (first | with_reducible assumption | (intro) | with_reducible apply State.over_regsWf |
    with_reducible apply State.adoptSlot_regsWf | split | dsimp only |
                    (have hk1 := @State.sendEchoAll_keeps; simp [hk1]))

@[simp] theorem State.takeAnnouncement_regsWf (s : State) (e : EchoPayload) (h : Store.wfFrom resetWord 0 s.regs = true) :
    Store.wfFrom resetWord 0 (State.takeAnnouncement s e).regs = true := by
  unfold State.takeAnnouncement
  (try dsimp only)
  (repeat' split) <;> (try simp [h])
  repeat' (first | with_reducible assumption | (intro) | with_reducible apply State.over_regsWf |
    with_reducible apply State.holdAnn_regsWf | split | dsimp only | simp)

@[simp] theorem State.takeCancel_regsWf (s : State) (r : MergeRecord) (h : Store.wfFrom resetWord 0 s.regs = true) :
    Store.wfFrom resetWord 0 (State.takeCancel s r).regs = true := by
  unfold State.takeCancel
  (try dsimp only)
  (repeat' split) <;> (try (have hk1 := @State.replaceMerge_keeps; have hk2 := @State.sendEchoAll_keeps; have hk3 := @State.setMerges_keeps; simp [hk1, hk2, hk3, h]))
  repeat' (first | with_reducible assumption | (intro) | with_reducible apply State.over_regsWf |
    with_reducible apply State.count_regsWf | split | dsimp only |
                    (have hk1 := @State.replaceMerge_keeps; have hk2 := @State.sendEchoAll_keeps; have hk3 := @State.setMerges_keeps; simp [hk1, hk2, hk3]))

@[simp] theorem State.onMerge_regsWf (s : State) (t : TrunkPort) (e : EchoPayload) (h : Store.wfFrom resetWord 0 s.regs = true) :
    Store.wfFrom resetWord 0 (State.onMerge s t e).regs = true := by
  unfold State.onMerge
  (try dsimp only)
  (repeat' split) <;> (try (have hk1 := @State.takeMerge_keeps; simp [hk1, h]))
  repeat' (first | with_reducible assumption | (intro) | with_reducible apply State.over_regsWf |
    with_reducible apply State.takeCancel_regsWf | split | dsimp only | (have hk1 := @State.takeMerge_keeps; simp [hk1]))

@[simp] theorem State.takeEcho_regsWf (s : State) (t : TrunkPort) (e : EchoPayload) (h : Store.wfFrom resetWord 0 s.regs = true) :
    Store.wfFrom resetWord 0 (State.takeEcho s t e).regs = true := by
  unfold State.takeEcho
  (try dsimp only)
  (repeat' split) <;> (try (have hk1 := @State.takeRecord_keeps; simp [hk1, h]))
  repeat' (first | with_reducible assumption | (intro) | with_reducible apply State.over_regsWf |
    with_reducible apply State.takeAnnouncement_regsWf | with_reducible apply State.onMerge_regsWf |
    with_reducible apply State.count_regsWf | split | dsimp only | (have hk1 := @State.takeRecord_keeps; simp [hk1]))

@[simp] theorem State.onEcho_regsWf (s : State) (t : TrunkPort) (payload : List Byte) (h : Store.wfFrom resetWord 0 s.regs = true) :
    Store.wfFrom resetWord 0 (State.onEcho s t payload).regs = true := by
  unfold State.onEcho
  (try dsimp only)
  (repeat' split) <;> (try simp [h])
  repeat' (first | with_reducible assumption | (intro) | with_reducible apply State.over_regsWf |
    with_reducible apply State.takeEcho_regsWf | with_reducible apply State.count_regsWf |
    with_reducible apply State.viewing_regsWf | split | dsimp only | simp)

@[simp] theorem State.closeWindow_regsWf (s : State) (t : TrunkPort) (h : Store.wfFrom resetWord 0 s.regs = true) :
    Store.wfFrom resetWord 0 (State.closeWindow s t).regs = true := by
  unfold State.closeWindow
  (try dsimp only)
  (repeat' split) <;> (try simp [h])
  repeat' (first | with_reducible assumption | (intro) | with_reducible apply State.over_regsWf |
    with_reducible apply State.admitted_regsWf | with_reducible apply State.viewing_regsWf | split | dsimp only | simp)

@[simp] theorem State.becomeMaster_regsWf (s : State) (h : Store.wfFrom resetWord 0 s.regs = true) :
    Store.wfFrom resetWord 0 (State.becomeMaster s).regs = true := by
  unfold State.becomeMaster
  (try dsimp only)
  (repeat' split) <;> (try simp [h])
  repeat' (first | with_reducible assumption | (intro) | with_reducible apply State.over_regsWf |
    with_reducible apply State.assignWhileForming_regsWf | with_reducible apply State.newMaster_regsWf |
                    split | dsimp only | simp)

@[simp] theorem State.takeRole_regsWf (s : State) (h : Store.wfFrom resetWord 0 s.regs = true) :
    Store.wfFrom resetWord 0 (State.takeRole s).regs = true := by
  unfold State.takeRole
  (try dsimp only)
  (repeat' split) <;> (try simp [h])
  repeat' (first | with_reducible assumption | (intro) | with_reducible apply State.over_regsWf |
    with_reducible apply State.newMaster_regsWf | with_reducible apply State.becomeMaster_regsWf | split | dsimp only |
                    simp)

@[simp] theorem State.raiseTo_regsWf (s : State) (pep : BitVec 4) (beat : Beat) (h : Store.wfFrom resetWord 0 s.regs = true) :
    Store.wfFrom resetWord 0 (State.raiseTo s pep beat).regs = true := by
  unfold State.raiseTo
  (try dsimp only)
  (repeat' split) <;> (try (have hk1 := @State.deriveRoutes_keeps; simp [hk1, h]))
  repeat' (first | with_reducible assumption | (intro) | with_reducible apply State.over_regsWf |
    with_reducible apply State.setFld_regsWf | with_reducible apply State.setReg48_regsWf |
    with_reducible apply State.count_regsWf | split | dsimp only | (have hk1 := @State.deriveRoutes_keeps; simp [hk1]))

@[simp] theorem State.countSplit_regsWf (s : State) (h : Store.wfFrom resetWord 0 s.regs = true) :
    Store.wfFrom resetWord 0 (State.countSplit s).regs = true := by
  unfold State.countSplit
  (try dsimp only)
  (repeat' split) <;> (try simp [h])
  repeat' (first | with_reducible assumption | (intro) | with_reducible apply State.over_regsWf |
    with_reducible apply State.count_regsWf | split | dsimp only | simp)

@[simp] theorem State.renumber_regsWf (s : State) (ofs : Nat) (h : Store.wfFrom resetWord 0 s.regs = true) :
    Store.wfFrom resetWord 0 (State.renumber s ofs).regs = true := by
  unfold State.renumber
  (try dsimp only)
  (repeat' split) <;> (try simp [h])
  repeat' (first | with_reducible assumption | (intro) | with_reducible apply State.over_regsWf |
    with_reducible apply State.setBeatNum_regsWf | with_reducible apply State.setReg48_regsWf | split | dsimp only |
                    simp)

@[simp] theorem State.recordStep_regsWf (s : State) (merged : Nat) (ofs : Nat) (h : Store.wfFrom resetWord 0 s.regs = true) :
    Store.wfFrom resetWord 0 (State.recordStep s merged ofs).regs = true := by
  unfold State.recordStep
  (try dsimp only)
  (repeat' split) <;> (try simp [h])
  repeat' (first | with_reducible assumption | (intro) | with_reducible apply State.over_regsWf |
    with_reducible apply State.count_regsWf | with_reducible apply State.setReg48_regsWf | split | dsimp only | simp)

@[simp] theorem State.takeSlot_regsWf (s : State) (l : List SlotAssign) (h : Store.wfFrom resetWord 0 s.regs = true) :
    Store.wfFrom resetWord 0 (State.takeSlot s l).regs = true := by
  unfold State.takeSlot
  (try dsimp only)
  (repeat' split) <;> (try simp [h])
  repeat' (first | with_reducible assumption | (intro) | with_reducible apply State.over_regsWf |
    with_reducible apply State.count_regsWf | with_reducible apply State.adoptSlot_regsWf | split | dsimp only | simp)

@[simp] theorem State.takeMergeSlots_regsWf (s : State) (m : Merge) (h : Store.wfFrom resetWord 0 s.regs = true) :
    Store.wfFrom resetWord 0 (State.takeMergeSlots s m).regs = true := by
  unfold State.takeMergeSlots
  (try dsimp only)
  (repeat' split) <;> (try (have hk1 := @State.moveSlots_keeps; simp [hk1, h]))
  repeat' (first | with_reducible assumption | (intro) | with_reducible apply State.over_regsWf |
    with_reducible apply State.takeSlot_regsWf | split | dsimp only | (have hk1 := @State.moveSlots_keeps; simp [hk1]))

@[simp] theorem State.leaveStep_regsWf (s : State) (h : Store.wfFrom resetWord 0 s.regs = true) :
    Store.wfFrom resetWord 0 (State.leaveStep s).regs = true := by
  unfold State.leaveStep
  (try dsimp only)
  (repeat' split) <;> (try (have hk1 := @State.becomeFollower_keeps; simp [hk1, h]))
  repeat' (first | with_reducible assumption | (intro) | with_reducible apply State.over_regsWf |
    with_reducible apply State.becomeMaster_regsWf | split | dsimp only |
                    (have hk1 := @State.becomeFollower_keeps; simp [hk1]))

@[simp] theorem State.merged_regsWf (s : State) (m : Merge) (ms : List Merge) (beat : Nat) (ofs : Nat) (h : Store.wfFrom resetWord 0 s.regs = true) :
    Store.wfFrom resetWord 0 (State.merged s m ms beat ofs).regs = true := by
  unfold State.merged
  (try dsimp only)
  (repeat' split) <;> (try (have hk1 := @State.announce_keeps; have hk2 := @State.announceMove_keeps; have hk3 := @State.sendEchoAll_keeps; have hk4 := @State.setMerges_keeps; simp [hk1, hk2, hk3, hk4, h]))
  repeat' (first | with_reducible assumption | (intro) | with_reducible apply State.over_regsWf |
    with_reducible apply State.setMaster_regsWf | with_reducible apply State.raiseTo_regsWf |
    with_reducible apply State.count_regsWf | with_reducible apply State.takeMergeSlots_regsWf |
    with_reducible apply State.assignWhileForming_regsWf | with_reducible apply State.leaveStep_regsWf |
                    split | dsimp only |
                    (have hk1 := @State.announce_keeps; have hk2 := @State.announceMove_keeps; have hk3 := @State.sendEchoAll_keeps; have hk4 := @State.setMerges_keeps; simp [hk1, hk2, hk3, hk4]))

@[simp] theorem State.stepMerged_regsWf (s : State) (m : Merge) (big : Nat) (h : Store.wfFrom resetWord 0 s.regs = true) :
    Store.wfFrom resetWord 0 (State.stepMerged s m big).regs = true := by
  unfold State.stepMerged
  (try dsimp only)
  (repeat' split) <;> (try simp [h])
  repeat' (first | with_reducible assumption | (intro) | with_reducible apply State.over_regsWf |
    with_reducible apply State.renumber_regsWf | with_reducible apply State.recordStep_regsWf | split | dsimp only |
                    simp)

@[simp] theorem State.bootWrite_regsWf (s : State) (addr : Nat) (w : Word) (h : Store.wfFrom resetWord 0 s.regs = true) :
    Store.wfFrom resetWord 0 (State.bootWrite s addr w).1.regs = true := by
  unfold State.bootWrite
  (try dsimp only)
  (repeat' split) <;> (try simp [h])
  repeat' (first | with_reducible assumption | (intro) | with_reducible apply State.over_regsWf |
    with_reducible apply State.busError_regsWf | with_reducible apply State.writeAccess_regsWf | split | dsimp only |
                    simp)

@[simp] theorem State.initOne_regsWf (s : State) (r : InitRecord) (h : Store.wfFrom resetWord 0 s.regs = true) :
    Store.wfFrom resetWord 0 (State.initOne s r).1.regs = true := by
  unfold State.initOne
  (try dsimp only)
  (repeat' split) <;> (try simp [h])
  repeat' (first | with_reducible assumption | (intro) | with_reducible apply State.over_regsWf |
    with_reducible apply State.readAccess_regsWf | with_reducible apply State.bootWrite_regsWf | split | dsimp only |
                    simp)

@[simp] theorem State.initFrom_regsWf (s : State) (i : Nat) (retry : Bool) (y1 : List InitRecord) (h : Store.wfFrom resetWord 0 s.regs = true) :
    Store.wfFrom resetWord 0 (State.initFrom s i retry y1).state.regs = true := by
  fun_induction State.initFrom s i retry y1 <;> (try simp only [Prod.ext_iff] at *) <;> (try casesm* _ ∧ _) <;> subst_vars <;> simp_all +zetaDelta

@[simp] theorem State.applyGate_regsWf (s : State) (g : GateImage) (h : Store.wfFrom resetWord 0 s.regs = true) :
    Store.wfFrom resetWord 0 (State.applyGate s g).regs = true := by
  unfold State.applyGate
  (try dsimp only)
  (repeat' split) <;> (try (have hk1 := @State.wroteGate_keeps; simp [hk1, h]))
  repeat' (first | with_reducible assumption | (intro) | with_reducible apply State.over_regsWf |
    with_reducible apply State.setRegN_regsWf | split | dsimp only | (have hk1 := @State.wroteGate_keeps; simp [hk1]))

@[simp] theorem State.putRates_regsWf (s : State) (a : Nat) (r : RateSet) (h : Store.wfFrom resetWord 0 s.regs = true) :
    Store.wfFrom resetWord 0 (State.putRates s a r).regs = true := by
  unfold State.putRates
  (repeat' split) <;> (try simp [h])
  repeat' (first | with_reducible assumption | with_reducible apply State.setReg_regsWf | with_reducible apply State.setRegN_regsWf | with_reducible apply State.count_regsWf  | with_reducible apply Store.wfFrom_set | exact Nat.zero_le _ | simp)

@[simp] theorem State.applyAllot_regsWf (s : State) (r : List Byte) (h : Store.wfFrom resetWord 0 s.regs = true) :
    Store.wfFrom resetWord 0 (State.applyAllot s r).regs = true := by
  unfold State.applyAllot
  (try dsimp only)
  (repeat' split) <;> (try simp [h])
  repeat' (first | with_reducible assumption | (intro) | with_reducible apply State.over_regsWf |
    with_reducible apply State.putRates_regsWf | with_reducible apply State.setRegN_regsWf | split | dsimp only | simp)

@[simp] theorem State.keyMissing_regsWf (s : State) (h : Store.wfFrom resetWord 0 s.regs = true) :
    Store.wfFrom resetWord 0 (State.keyMissing s).regs = true := by
  unfold State.keyMissing
  (try dsimp only)
  (repeat' split) <;> (try simp [h])
  repeat' (first | with_reducible assumption | (intro) | with_reducible apply State.over_regsWf |
    with_reducible apply State.setBit_regsWf | split | dsimp only | simp)

@[simp] theorem State.applyPolicy_regsWf (s0 : State) (r : PolicyRecord) (h : Store.wfFrom resetWord 0 s0.regs = true) :
    Store.wfFrom resetWord 0 (State.applyPolicy s0 r).regs = true := by
  unfold State.applyPolicy
  (try dsimp only)
  (repeat' split) <;> (try simp [h])
  repeat' (first | with_reducible assumption | (intro) | with_reducible apply State.over_regsWf |
    with_reducible apply State.keyMissing_regsWf | with_reducible apply State.setReg_regsWf |
    with_reducible apply State.setFld_regsWf | with_reducible apply State.command_regsWf |
    with_reducible apply State.readSlot_regsWf | with_reducible apply State.runKey_regsWf |
    with_reducible apply State.logEvent_regsWf | split | dsimp only | simp)

@[simp] theorem State.applyRest_regsWf (s : State) (img : Nat → Byte) (h : Store.wfFrom resetWord 0 s.regs = true) :
    Store.wfFrom resetWord 0 (State.applyRest s img).regs = true := by
  unfold State.applyRest
  (try dsimp only)
  (repeat' split) <;> (try (have hk1 := @State.applyEngines_keeps; have hk2 := @State.applySeeds_keeps; have hk3 := @State.loadColumn_keeps; simp [hk1, hk2, hk3, h]))
  repeat' (first | with_reducible assumption | (intro) | with_reducible apply State.over_regsWf |
    with_reducible apply State.applyAllot_regsWf | with_reducible apply State.applyPolicy_regsWf |
    with_reducible apply State.applyGate_regsWf | split | dsimp only |
                    (have hk1 := @State.applyEngines_keeps; have hk2 := @State.applySeeds_keeps; have hk3 := @State.loadColumn_keeps; simp [hk1, hk2, hk3]))

@[simp] theorem State.applyFrom_regsWf (s : State) (img : Nat → Byte) (i : Nat) (retry : Bool) (h : Store.wfFrom resetWord 0 s.regs = true) :
    Store.wfFrom resetWord 0 (State.applyFrom s img i retry).regs = true := by
  unfold State.applyFrom
  (try dsimp only)
  (repeat' split) <;> (try (have hk1 := @State.pendRecovery_keeps; simp [hk1, h]))
  repeat' (first | with_reducible assumption | (intro) | with_reducible apply State.over_regsWf |
    with_reducible apply State.applyRest_regsWf | with_reducible apply State.initFrom_regsWf | split | dsimp only |
                    (have hk1 := @State.pendRecovery_keeps; simp [hk1]))

@[simp] theorem State.applyImage_regsWf (s : State) (img : Nat → Byte) (h : Store.wfFrom resetWord 0 s.regs = true) :
    Store.wfFrom resetWord 0 (State.applyImage s img).regs = true := by
  unfold State.applyImage
  (try dsimp only)
  (repeat' split) <;> (try (have hk1 := @State.pendRecovery_keeps; simp [hk1, h]))
  repeat' (first | with_reducible assumption | (intro) | with_reducible apply State.over_regsWf |
    with_reducible apply State.setStage_regsWf | with_reducible apply State.applyFrom_regsWf |
    with_reducible apply State.strapDefaults_regsWf | split | dsimp only |
                    (have hk1 := @State.pendRecovery_keeps; simp [hk1]))

@[simp] theorem State.showHeaders_regsWf (s : State) (h : Store.wfFrom resetWord 0 s.regs = true) :
    Store.wfFrom resetWord 0 (State.showHeaders s).regs = true := by
  unfold State.showHeaders
  (try dsimp only)
  (repeat' split) <;> (try simp [h])
  repeat' (first | with_reducible assumption | (intro) | with_reducible apply State.over_regsWf |
    with_reducible apply State.setRegN_regsWf | split | dsimp only | simp)

@[simp] theorem State.choose_regsWf (s : State) (c : Fin 3) (h : Store.wfFrom resetWord 0 s.regs = true) :
    Store.wfFrom resetWord 0 (State.choose s c).regs = true := by
  unfold State.choose
  (try dsimp only)
  (repeat' split) <;> (try simp [h])
  repeat' (first | with_reducible assumption | (intro) | with_reducible apply State.over_regsWf |
    with_reducible apply State.setFld_regsWf | with_reducible apply State.setBit_regsWf |
    with_reducible apply State.setRegN_regsWf | split | dsimp only | simp)

@[simp] theorem State.discardSave_regsWf (s : State) (h : Store.wfFrom resetWord 0 s.regs = true) :
    Store.wfFrom resetWord 0 (State.discardSave s).regs = true := by
  unfold State.discardSave
  (try dsimp only)
  (repeat' split) <;> (try simp [h])
  repeat' (first | with_reducible assumption | (intro) | with_reducible apply State.over_regsWf |
    with_reducible apply State.startReset_regsWf | with_reducible apply State.count_regsWf |
    with_reducible apply State.setBit_regsWf | split | dsimp only | simp)

@[simp] theorem State.useCopy_regsWf (s : State) (c : Fin 3) (h : Store.wfFrom resetWord 0 s.regs = true) :
    Store.wfFrom resetWord 0 (State.useCopy s c).regs = true := by
  unfold State.useCopy
  (try dsimp only)
  (repeat' split) <;> (try (have hk1 := @State.pendRecovery_keeps; simp [hk1, h]))
  repeat' (first | with_reducible assumption | (intro) | with_reducible apply State.over_regsWf |
    with_reducible apply State.discardSave_regsWf | with_reducible apply State.choose_regsWf |
    with_reducible apply State.applyImage_regsWf | split | dsimp only |
                    (have hk1 := @State.pendRecovery_keeps; simp [hk1]))

@[simp] theorem State.rejectCopy_regsWf (s : State) (c : Fin 3) (f : Nat) (h : Store.wfFrom resetWord 0 s.regs = true) :
    Store.wfFrom resetWord 0 (State.rejectCopy s c f).regs = true := by
  unfold State.rejectCopy
  (try dsimp only)
  (repeat' split) <;> (try (have hk1 := @State.pendRecovery_keeps; simp [hk1, h]))
  repeat' (first | with_reducible assumption | (intro) | with_reducible apply State.over_regsWf |
    with_reducible apply State.setRegN_regsWf | split | dsimp only | (have hk1 := @State.pendRecovery_keeps; simp [hk1]))

@[simp] theorem State.applied_regsWf (s : State) (h : Store.wfFrom resetWord 0 s.regs = true) :
    Store.wfFrom resetWord 0 (State.applied s).regs = true := by
  unfold State.applied
  (try dsimp only)
  (repeat' split) <;> (try (have hk1 := @State.modColumn_keeps; simp [hk1, h]))
  repeat' (first | with_reducible assumption | (intro) | with_reducible apply State.over_regsWf |
    with_reducible apply State.setStage_regsWf | with_reducible apply State.setRegN_regsWf | split | dsimp only |
                    (have hk1 := @State.modColumn_keeps; simp [hk1]))

@[simp] theorem State.readPage_regsWf (s : State) (m : Master) (lo : Nat) (h : Store.wfFrom resetWord 0 s.regs = true) :
    Store.wfFrom resetWord 0 (State.readPage s m lo).regs = true := by
  unfold State.readPage
  (try dsimp only)
  (repeat' split) <;> (try simp [h])
  repeat' (first | with_reducible assumption | (intro) | with_reducible apply State.over_regsWf |
    with_reducible apply State.setRegN_regsWf | split | dsimp only | simp)

@[simp] theorem State.verifyCopy_regsWf (s : State) (m : Master) (copyB : Bool) (h : Store.wfFrom resetWord 0 s.regs = true) :
    Store.wfFrom resetWord 0 (State.verifyCopy s m copyB).regs = true := by
  unfold State.verifyCopy
  (try dsimp only)
  (repeat' split) <;> (try simp [h])
  repeat' (first | with_reducible assumption | (intro) | with_reducible apply State.over_regsWf |
    with_reducible apply State.setBit_regsWf | with_reducible apply State.setRegN_regsWf | split | dsimp only | simp)

@[simp] theorem State.enterRun_regsWf (s : State) (h : Store.wfFrom resetWord 0 s.regs = true) :
    Store.wfFrom resetWord 0 (State.enterRun s).regs = true := by
  unfold State.enterRun
  (try dsimp only)
  (repeat' split) <;> (try simp [h])
  repeat' (first | with_reducible assumption | (intro) | with_reducible apply State.over_regsWf |
    with_reducible apply State.enterLimited_regsWf | with_reducible apply State.changeMode_regsWf |
    with_reducible apply State.setRegN_regsWf | with_reducible apply State.setStage_regsWf | split | dsimp only | simp)

@[simp] theorem State.enterStaged_regsWf (s : State) (h : Store.wfFrom resetWord 0 s.regs = true) :
    Store.wfFrom resetWord 0 (State.enterStaged s).regs = true := by
  unfold State.enterStaged
  (try dsimp only)
  (repeat' split) <;> (try simp [h])
  repeat' (first | with_reducible assumption | (intro) | with_reducible apply State.over_regsWf |
    with_reducible apply State.setStage_regsWf | with_reducible apply State.changeMode_regsWf | split | dsimp only |
                    simp)

@[simp] theorem State.modeHead_regsWf (s : State) (h : Store.wfFrom resetWord 0 s.regs = true) :
    Store.wfFrom resetWord 0 (State.modeHead s).regs = true := by
  unfold State.modeHead
  (try dsimp only)
  (repeat' split) <;> (try simp [h])
  repeat' (first | with_reducible assumption | (intro) | with_reducible apply State.over_regsWf |
    with_reducible apply State.enterRecovery_regsWf | with_reducible apply State.enterStaged_regsWf |
    with_reducible apply State.enterRun_regsWf | with_reducible apply State.changeMode_regsWf | split | dsimp only |
                    simp)

@[simp] theorem State.pllHead_regsWf (s : State) (h : Store.wfFrom resetWord 0 s.regs = true) :
    Store.wfFrom resetWord 0 (State.pllHead s).regs = true := by
  unfold State.pllHead
  (try dsimp only)
  (repeat' split) <;> (try simp [h])
  repeat' (first | with_reducible assumption | (intro) | with_reducible apply State.over_regsWf |
    with_reducible apply State.onPll_regsWf | with_reducible apply State.setStage_regsWf |
    with_reducible apply State.wakeMemories_regsWf | with_reducible apply State.setBit_regsWf | split | dsimp only |
                    simp)

@[simp] theorem State.settleStep_regsWf (s : State) (h : Store.wfFrom resetWord 0 s.regs = true) :
    Store.wfFrom resetWord 0 (State.settleStep s).regs = true := by
  unfold State.settleStep
  (try dsimp only)
  (repeat' split) <;> (try (have hk1 := @State.becomeFollower_keeps; simp [hk1, h]))
  repeat' (first | with_reducible assumption | (intro) | with_reducible apply State.over_regsWf |
    with_reducible apply State.becomeMaster_regsWf | with_reducible apply State.viewing_regsWf | split | dsimp only |
                    (have hk1 := @State.becomeFollower_keeps; simp [hk1]))

@[simp] theorem State.head1_regsWf (s : State) (h : Store.wfFrom resetWord 0 s.regs = true) :
    Store.wfFrom resetWord 0 (State.head1 s).regs = true := by
  unfold State.head1
  (try dsimp only)
  (repeat' split) <;> (try simp [h])
  repeat' (first | with_reducible assumption | (intro) | with_reducible apply State.over_regsWf |
    with_reducible apply State.pllHead_regsWf | with_reducible apply State.settleStep_regsWf |
    with_reducible apply State.setBeatNum_regsWf | with_reducible apply State.modeHead_regsWf | split | dsimp only |
                    simp)

@[simp] theorem State.head23_regsWf (s : State) (h : Store.wfFrom resetWord 0 s.regs = true) :
    Store.wfFrom resetWord 0 (State.head23 s).regs = true := by
  unfold State.head23
  (try dsimp only)
  (repeat' split) <;> (try simp [h])
  repeat' (first | with_reducible assumption | (intro) | with_reducible apply State.over_regsWf |
    with_reducible apply State.applyFirst_regsWf | with_reducible apply State.applyDue_regsWf | split | dsimp only |
                    simp)

@[simp] theorem State.refillOne_regsWf (s : State) (tok : Nat) (rate : Nat) (size : Nat) (h : Store.wfFrom resetWord 0 s.regs = true) :
    Store.wfFrom resetWord 0 (State.refillOne s tok rate size).regs = true := by
  unfold State.refillOne
  (try dsimp only)
  (repeat' split) <;> (try simp [h])
  repeat' (first | with_reducible assumption | (intro) | with_reducible apply State.over_regsWf |
    with_reducible apply State.setRegN_regsWf | split | dsimp only | simp)

@[simp] theorem State.refillClass_regsWf (s : State) (p : Nat) (c : Nat) (h : Store.wfFrom resetWord 0 s.regs = true) :
    Store.wfFrom resetWord 0 (State.refillClass s p c).regs = true := by
  unfold State.refillClass
  (try dsimp only)
  (repeat' split) <;> (try simp [h])
  repeat' (first | with_reducible assumption | (intro) | with_reducible apply State.over_regsWf |
    with_reducible apply State.refillOne_regsWf | split | dsimp only | simp)

@[simp] theorem State.head4_regsWf (s : State) (h : Store.wfFrom resetWord 0 s.regs = true) :
    Store.wfFrom resetWord 0 (State.head4 s).regs = true := by
  unfold State.head4
  (try dsimp only)
  (repeat' split) <;> (try simp [h])
  repeat' (first | with_reducible assumption | (intro) | with_reducible apply State.over_regsWf |
    with_reducible apply State.refillClass_regsWf | split | dsimp only | simp)

@[simp] theorem State.switchBank_regsWf (s : State) (h : Store.wfFrom resetWord 0 s.regs = true) :
    Store.wfFrom resetWord 0 (State.switchBank s).regs = true := by
  unfold State.switchBank
  (try dsimp only)
  (repeat' split) <;> (try simp [h])
  repeat' (first | with_reducible assumption | (intro) | with_reducible apply State.over_regsWf |
    with_reducible apply State.setBit_regsWf | split | dsimp only | simp)

@[simp] theorem State.head5_regsWf (s : State) (h : Store.wfFrom resetWord 0 s.regs = true) :
    Store.wfFrom resetWord 0 (State.head5 s).regs = true := by
  unfold State.head5
  (try dsimp only)
  (repeat' split) <;> (try simp [h])
  repeat' (first | with_reducible assumption | (intro) | with_reducible apply State.over_regsWf |
    with_reducible apply State.setReg48_regsWf | with_reducible apply State.switchBank_regsWf |
    with_reducible apply State.setBit_regsWf | split | dsimp only | simp)

@[simp] theorem State.admitFollows_regsWf (s : State) (before : Nat) (h : Store.wfFrom resetWord 0 s.regs = true) :
    Store.wfFrom resetWord 0 (State.admitFollows s before).regs = true := by
  unfold State.admitFollows
  (try dsimp only)
  (repeat' split) <;> (try simp [h])
  repeat' (first | with_reducible assumption | (intro) | with_reducible apply State.over_regsWf |
    with_reducible apply State.sessionConfig_regsWf | with_reducible apply State.setBit_regsWf | split | dsimp only |
                    simp)

@[simp] theorem State.head8_regsWf (s : State) (h : Store.wfFrom resetWord 0 s.regs = true) :
    Store.wfFrom resetWord 0 (State.head8 s).regs = true := by
  unfold State.head8
  (try dsimp only)
  (repeat' split) <;> (try (have hk1 := @State.restartColumn_keeps; have hk2 := @State.sendDueCaps_keeps; have hk3 := @State.sendErdy_keeps; simp [hk1, hk2, hk3, h]))
  repeat' (first | with_reducible assumption | (intro) | with_reducible apply State.over_regsWf |
    with_reducible apply State.engineHead_regsWf | with_reducible apply State.takeSupervision_regsWf |
    with_reducible apply State.passSupervision_regsWf | with_reducible apply State.resumeEcho_regsWf |
    with_reducible apply State.admitFollows_regsWf | split | dsimp only |
                    (have hk1 := @State.restartColumn_keeps; have hk2 := @State.sendDueCaps_keeps; have hk3 := @State.sendErdy_keeps; simp [hk1, hk2, hk3]))

@[simp] theorem State.boundary_regsWf (s : State) (h : Store.wfFrom resetWord 0 s.regs = true) :
    Store.wfFrom resetWord 0 (State.boundary s).regs = true := by
  unfold State.boundary
  (try dsimp only)
  (repeat' split) <;> (try (have hk1 := @State.noteHealth_keeps; have hk2 := @State.portBoundary_keeps; have hk3 := @State.retime_keeps; simp [hk1, hk2, hk3, h]))
  repeat' (first | with_reducible assumption | (intro) | with_reducible apply State.over_regsWf |
    with_reducible apply State.count48_regsWf | with_reducible apply State.refreshDrain_regsWf | split | dsimp only |
                    (have hk1 := @State.noteHealth_keeps; have hk2 := @State.portBoundary_keeps; have hk3 := @State.retime_keeps; simp [hk1, hk2, hk3]))

@[simp] theorem State.beatHead_regsWf (s : State) (h : Store.wfFrom resetWord 0 s.regs = true) :
    Store.wfFrom resetWord 0 (State.beatHead s).regs = true := by
  unfold State.beatHead
  (try dsimp only)
  (repeat' split) <;> (try (have hk1 := @State.commandedTakeovers_keeps; simp [hk1, h]))
  repeat' (first | with_reducible assumption | (intro) | with_reducible apply State.over_regsWf |
    with_reducible apply State.boundary_regsWf | with_reducible apply State.powerHead_regsWf |
    with_reducible apply State.head4_regsWf | with_reducible apply State.cascadeHead_regsWf |
    with_reducible apply State.head1_regsWf | with_reducible apply State.head5_regsWf |
    with_reducible apply State.head23_regsWf | with_reducible apply State.head8_regsWf | split | dsimp only |
                    (have hk1 := @State.commandedTakeovers_keeps; simp [hk1]))

@[simp] theorem State.serveReads_regsWf (s : State) (m : Master) (y1 : Nat) (y2 : Nat) (h : Store.wfFrom resetWord 0 s.regs = true) :
    Store.wfFrom resetWord 0 (State.serveReads s m y1 y2).state.regs = true := by
  fun_induction State.serveReads s m y1 y2 <;> (try simp only [Prod.ext_iff] at *) <;> (try casesm* _ ∧ _) <;> subst_vars <;> simp_all +zetaDelta

@[simp] theorem State.serveWrites_regsWf (s : State) (m : Master) (y1 : Nat) (y2 : List Word) (h : Store.wfFrom resetWord 0 s.regs = true) :
    Store.wfFrom resetWord 0 (State.serveWrites s m y1 y2).state.regs = true := by
  fun_induction State.serveWrites s m y1 y2 <;> (try simp only [Prod.ext_iff] at *) <;> (try casesm* _ ∧ _) <;> subst_vars <;> simp_all +zetaDelta

@[simp] theorem State.serve_regsWf (s : State) (m : Master) (r : MgmtRequest) (h : Store.wfFrom resetWord 0 s.regs = true) :
    Store.wfFrom resetWord 0 (State.serve s m r).state.regs = true := by
  unfold State.serve
  (try dsimp only)
  (repeat' split) <;> (try simp [h])
  repeat' (first | with_reducible assumption | (intro) | with_reducible apply State.over_regsWf |
    with_reducible apply State.serveWrites_regsWf | with_reducible apply State.serveReads_regsWf |
    with_reducible apply State.count_regsWf | split | dsimp only | simp)

@[simp] theorem State.mgmtServe_regsWf (s : State) (srcEp : EpId) (tc : BitVec 3) (r : MgmtRequest) (h : Store.wfFrom resetWord 0 s.regs = true) :
    Store.wfFrom resetWord 0 (State.mgmtServe s srcEp tc r).regs = true := by
  unfold State.mgmtServe
  (try dsimp only)
  (repeat' split) <;> (try simp [h])
  repeat' (first | with_reducible assumption | (intro) | with_reducible apply State.over_regsWf |
    with_reducible apply State.wakeBy_regsWf | with_reducible apply State.serve_regsWf |
    with_reducible apply State.count_regsWf | split | dsimp only | simp)

@[simp] theorem State.queueReply_regsWf (s : State) (r : MgmtRequest) (x : Served) (h : Store.wfFrom resetWord 0 s.regs = true) :
    Store.wfFrom resetWord 0 (State.queueReply s r x).regs = true := by
  unfold State.queueReply
  (try dsimp only)
  (repeat' split) <;> (try simp [h])
  repeat' (first | with_reducible assumption | (intro) | with_reducible apply State.over_regsWf |
    with_reducible apply State.count_regsWf | split | dsimp only | simp)

@[simp] theorem State.whenCar_regsWf {f : State → State} (h : ∀ t : State, Store.wfFrom resetWord 0 t.regs = true → Store.wfFrom resetWord 0 (f t).regs = true)
    (s : State) (via : CarPort) (hs : Store.wfFrom resetWord 0 s.regs = true) : Store.wfFrom resetWord 0 (s.whenCar via f).regs = true := by
  unfold State.whenCar
  split
  · exact State.wakeBy_regsWf _ _ (State.whenCore_regsWf h s hs)
  · exact hs

@[simp] theorem State.carServe_regsWf (s : State) (count : Byte) (addr : BitVec 40) (n : Nat) (h : Store.wfFrom resetWord 0 s.regs = true) :
    Store.wfFrom resetWord 0 (State.carServe s count addr n).state.regs = true := by
  unfold State.carServe
  (try dsimp only)
  (repeat' split) <;> (try simp [h])
  repeat' (first | with_reducible assumption | (intro) | with_reducible apply State.over_regsWf |
    with_reducible apply State.serveReads_regsWf | with_reducible apply State.count_regsWf | split | dsimp only | simp)

theorem State.reset_regsWf : State.reset.regsWf = true := rfl

end Sys2Proof.Machine
end

