-- ==== Sys2Proof/WellFormed.lean ====
section
/-! DEFINITION. WellFormed.lean: what a command must satisfy to be one the outside world can send. An
ill-formed command names something the hub does not have (a master of Table ACP-1 that is none, more
bytes than its interface can carry). -/

namespace Sys2Proof

/-- Whether a master ID names a master: 0x0A-0x0F name none (Table ACP-1). -/
def masterExists (m : Master) : Bool := decide (m.val < 0x0A) || decide (0x10 ≤ m.val)

/-- AMK marks of one set name each lane of the port at most once (R73). -/
def amksOk (marks : List AmkMark) : Bool := decide (marks.length ≤ 4) && decide ((marks.map (·.lane)).Nodup)

/-- An Ethernet frame body has at most 16,383 bytes before its FCS (R93, Table TUN-1 LEN). -/
def frameBytesOk (bytes : List Byte) : Bool := decide (bytes.length < 16384)

/-- A payload on a link is at most as long as LEN can say (Table TUN-1). -/
def payloadOk (payload : List Byte) : Bool := decide (payload.length < 16384)

/-- A tunnel frame's payload is at most as long as LEN can say (Table TUN-1). -/
def frameOk (f : Frame) : Bool := payloadOk f.payload

/-- An ECHO frame carries at most one record per possible hub (Table CPL-5). -/
def echoOk (e : EchoPayload) : Bool := decide (e.hubs.length < 65536) && decide (e.assigns.length < 65536)

/-- A request carries as many whole words as its payload has room for after its header (Table TUN-4). -/
def requestOk (r : MgmtRequest) : Bool := decide (4 * r.data.length ≤ r.len)

/-- An access is 1 to 64 bytes long and a write carries its bytes (R309). -/
def accessOk (a : Access) : Bool :=
  masterExists a.master && decide (1 ≤ a.size) && decide (a.size ≤ 64) &&
    (match a.kind with
     | .write => decide (a.data.length = a.size)
     | _ => a.data.isEmpty)

/-- One conversion scan names each channel at most once (R429). -/
def readingsOk (r : List (ChannelIx × BitVec 12)) : Bool := decide ((r.map (·.1)).Nodup)

/-- One scrub row names each chamber at most once (R187). -/
def scrubOk (r : List (ChamberIx × EccResult)) : Bool := decide ((r.map (·.1)).Nodup)

/-- A plan gives each shaper at most one value (R220). -/
def planOk (p : Plan) : Bool := decide ((p.shapers.map fun x => (x.port, x.cls)).Nodup)

/-- The master that issues a command, for the commands that carry one. -/
def Instr.issuer : Instr → Option Master
  | .beatHead => none
  | .beatBlockReceived _ _ _ _ _ _ _ => none
  | .holdoverEntry => none
  | .enterMaster => none
  | .masterMove => none
  | .mergeStep => none
  | .beatCommit m _ => some m
  | .beatCancel m _ => some m
  | .epochRaise => none
  | .pepPrevWindowEnd => none
  | .blockReceived _ _ _ _ => none
  | .trainBlockReceived _ _ _ _ _ _ _ _ _ => none
  | .capRecordReceived _ _ _ _ => none
  | .amkReceived _ _ _ => none
  | .amkSend _ => none
  | .credReceived _ _ _ _ => none
  | .credBlockSend _ _ _ => none
  | .creditResyncPeriodic _ => none
  | .creditResyncIgnoreEnd _ => none
  | .creditResyncSecondCred _ => none
  | .echoRequestSend _ => none
  | .echoRequestReceived _ _ _ _ => none
  | .echoReplyReceived _ _ _ _ => none
  | .delayUpdate _ => none
  | .fltReceived _ _ _ => none
  | .txLaneJoin _ _ => none
  | .fltSend _ => none
  | .lpbkRequestReceived _ _ => none
  | .lpbkAnswerReceived _ _ _ => none
  | .lpbkReleaseReceived _ _ => none
  | .lpbkRequestSend _ => none
  | .lpbkTimeout _ => none
  | .laneLoopWrite m _ _ => some m
  | .losAssert _ => none
  | .losClear _ => none
  | .lolAssert _ => none
  | .lolClear _ => none
  | .eyeMeasurement _ _ _ => none
  | .trendUpdate => none
  | .laneTrendClrWrite m _ => some m
  | .locModeWrite m _ _ => some m
  | .locGroupWrite m _ => some m
  | .ethFrameReceived _ _ _ => none
  | .trkCfgEnWrite m _ _ => some m
  | .coupledRise _ => none
  | .coupleSnsOpen _ => none
  | .coupleSnsBounce _ => none
  | .downExit _ => none
  | .detectionResult _ _ => none
  | .detectRetry _ => none
  | .trainComplete _ => none
  | .trainTimeout _ => none
  | .lockComplete _ => none
  | .lockTimeout _ => none
  | .capxTimeout _ => none
  | .portActive _ => none
  | .authTimeout _ => none
  | .authRetry _ => none
  | .keyHelloReceived _ _ => none
  | .keyFinishReceived _ _ => none
  | .keyResumeReceived _ _ => none
  | .keyFailReceived _ _ => none
  | .rekeyDue _ => none
  | .syncSend _ => none
  | .syncReceived _ _ => none
  | .echoFrameReceived _ _ => none
  | .echoFramePeriodicSend _ => none
  | .neighbourDeadEchoTimeout _ => none
  | .neighbourDeadLinkLoss _ => none
  | .holdWindowClose _ => none
  | .mergeAnnounce => none
  | .mergeCancel => none
  | .formingEnd => none
  | .frameReceived _ _ _ => none
  | .entryFetchComplete _ _ => none
  | .missWaitTimeout _ => none
  | .mgmtReadRequest _ _ _ => none
  | .mgmtWriteRequest _ _ _ => none
  | .schedulerDecision _ _ => none
  | .epRead m => some m
  | .epWrite m => some m
  | .epWriteKeep m => some m
  | .epPin m => some m
  | .epUnpin m => some m
  | .epRevoke m => some m
  | .epInvalidate m => some m
  | .tunMapAdd m => some m
  | .tunMapDelete m => some m
  | .tunMapLookup m => some m
  | .spillWriteComplete _ => none
  | .spillReturn _ _ => none
  | .sumpReadyFall => none
  | .sumpPatrolScrub _ => none
  | .sumpTrain m _ => some m
  | .sumpTrainingEnd _ => none
  | .sumpUePop m _ => some m
  | .cavernScrub _ => none
  | .chamberFail _ => none
  | .cavernBistEnd _ => none
  | .cavernDiagWrite m _ _ => some m
  | .planCompute _ => none
  | .planCommitRetry => none
  | .tunnelAdd m _ => some m
  | .tunnelRemove m _ => some m
  | .twinEntryAgeOut _ => none
  | .drainWaitExceeded _ => none
  | .hangWatchdog _ => none
  | .engineEccUe _ => none
  | .spareAssign _ => none
  | .engineSelftestEnd _ _ => none
  | .engTakeover m _ => some m
  | .engRetest m _ => some m
  | .columnMismatch _ => none
  | .columnImageCopyEnd _ => none
  | .registerWrite m _ _ _ _ => some m
  | .memoryAccess a => some a.master
  | .cacheWriteback _ _ _ => none
  | .aliasWrite m _ _ _ => some m
  | .counterLoRead m _ _ => some m
  | .glbUnlockWrite m _ => some m
  | .unlockLapse m => some m
  | .snapshotRequest m _ => some m
  | .bankRelease m => some m
  | .bankClearEnd => none
  | .mpuSyncWrite m _ => some m
  | .mpuBarrierDone m => some m
  | .ruleChangeEffect => none
  | .mpuFaultPop m _ => some m
  | .tamper _ => none
  | .derive m _ _ => some m
  | .keyInvalidate m => some m
  | .mac m => some m
  | .sign m => some m
  | .ecdhGen m _ => some m
  | .ecdhAgree m _ => some m
  | .wrap m => some m
  | .unwrap m _ => some m
  | .keyInfo m => some m
  | .saInstall m _ => some m
  | .saRetire m _ => some m
  | .rootNew m => some m
  | .zeroise m => some m
  | .keyCommandEnd => none
  | .debugUnlockResponse _ => none
  | .debugChallengeRenew => none
  | .secFuseProgram m _ => some m
  | .secFuseRevoke m _ => some m
  | .porstNAssert _ => none
  | .porstNRelease _ _ => none
  | .sfdpRetry _ => none
  | .copyVerifyEnd _ => none
  | .applyEnd => none
  | .clockSwitch => none
  | .bootRun m => some m
  | .runWaitExpiry => none
  | .bootReset m => some m
  | .bootRecover m => some m
  | .bootStaged m => some m
  | .bootSeed m => some m
  | .seedEnd => none
  | .bootTest m => some m
  | .bootStgDataWrite m _ => some m
  | .flEraseCopy m => some m
  | .flProgram m => some m
  | .flRead m => some m
  | .flVerify m => some m
  | .flashOpEnd _ => none
  | .pwrReqWrite m _ => some m
  | .pwrAskWrite m _ _ => some m
  | .pwrAskIssue => none
  | .pwrRetry => none
  | .blockAgree _ => none
  | .blockRefuse _ _ => none
  | .rollbackRestartEnd => none
  | .dormantEntryComplete => none
  | .restTick => none
  | .wakeEvent _ => none
  | .wakeLayoverReady => none
  | .pgoodRise => none
  | .restoreEnd => none
  | .avsAckTimeout => none
  | .wakeRetry => none
  | .avsTargetWrite m _ => some m
  | .avsStep _ => none
  | .avsEvaluation => none
  | .avsTargetRetry => none
  | .pllLockRetry _ => none
  | .usbUpAttach _ _ => none
  | .usbUpDetach => none
  | .usbDnAttach _ _ => none
  | .usbDnDetach _ => none
  | .usbOverCurrent _ => none
  | .setPortPower _ => none
  | .clearPortPower _ => none
  | .openSession _ _ _ => none
  | .closeSession _ _ _ => none
  | .getSession _ _ _ => none
  | .bulkOutRequest _ => none
  | .ping => none
  | .lpmToken => none
  | .usbBusReset _ => none
  | .remoteWake => none
  | .hostResume => none
  | .sourceCapabilities _ _ _ => none
  | .pdRequest _ _ _ => none
  | .vbusSettled _ => none
  | .srcSettleTimeout _ => none
  | .getSourceCap _ => none
  | .getSinkCap _ => none
  | .prSwap _ => none
  | .psRdyReceived => none
  | .drSwap _ => none
  | .softReset _ => none
  | .hardReset _ => none
  | .discoverIdentity _ => none
  | .unsupportedPdMessage _ => none
  | .dischargeEnd _ => none
  | .dischargeTimeout _ => none
  | .pdSrcPdoChange _ => none
  | .serviceConnectTimeout => none
  | .carRead _ _ _ => none
  | .carWrite _ _ _ _ => none
  | .carWriteStatus _ => none
  | .monConversion _ => none
  | .cutoffCoreOff => none
  | .thermalRestart => none
  | .logRecordWrite => none
  | .logRdAddrWrite m _ => some m
  | .logPutCmd m _ => some m
  | .pgoodFall _ => none
  | .pgoodRecover => none
  | .refclkAbsent _ => none
  | .refclkPresent _ => none
  | .vauxRise _ => none
  | .vauxFall _ => none
  | .fltRxExpiry _ => none
  | .taskTableRetire _ => none
  | .cutThroughJoin _ _ => none
  | .mprTemperatureRead _ => none
  | .pllLockTimeout => none
  | .wakePgoodTimeout => none
  | .secFuseOpEnd _ => none
  | .xtalOkChange _ => none
  | .usbSuspend => none
  | .standardRequest _ => none
  | .bulkInTransfer => none
  | .usbDeviceConnect _ _ => none
  | .goodcrcTimeout _ => none

/-- Whether the command's own operands are in bounds. -/
def Instr.operandsOk : Instr → Bool
  | .beatHead => true
  | .beatBlockReceived _ _ _ _ _ _ _ => true
  | .holdoverEntry => true
  | .enterMaster => true
  | .masterMove => true
  | .mergeStep => true
  | .beatCommit _ _ => true
  | .beatCancel _ _ => true
  | .epochRaise => true
  | .pepPrevWindowEnd => true
  | .blockReceived _ _ _ _ => true
  | .trainBlockReceived _ _ _ _ _ _ _ _ _ => true
  | .capRecordReceived _ _ _ _ => true
  | .amkReceived _ marks _ => amksOk marks
  | .amkSend _ => true
  | .credReceived _ _ _ _ => true
  | .credBlockSend _ _ _ => true
  | .creditResyncPeriodic _ => true
  | .creditResyncIgnoreEnd _ => true
  | .creditResyncSecondCred _ => true
  | .echoRequestSend _ => true
  | .echoRequestReceived _ _ _ _ => true
  | .echoReplyReceived _ _ _ _ => true
  | .delayUpdate _ => true
  | .fltReceived _ _ _ => true
  | .txLaneJoin _ _ => true
  | .fltSend _ => true
  | .lpbkRequestReceived _ _ => true
  | .lpbkAnswerReceived _ _ _ => true
  | .lpbkReleaseReceived _ _ => true
  | .lpbkRequestSend _ => true
  | .lpbkTimeout _ => true
  | .laneLoopWrite _ _ _ => true
  | .losAssert _ => true
  | .losClear _ => true
  | .lolAssert _ => true
  | .lolClear _ => true
  | .eyeMeasurement _ _ _ => true
  | .trendUpdate => true
  | .laneTrendClrWrite _ _ => true
  | .locModeWrite _ _ _ => true
  | .locGroupWrite _ _ => true
  | .ethFrameReceived _ bytes _ => frameBytesOk bytes
  | .trkCfgEnWrite _ _ _ => true
  | .coupledRise _ => true
  | .coupleSnsOpen _ => true
  | .coupleSnsBounce _ => true
  | .downExit _ => true
  | .detectionResult _ _ => true
  | .detectRetry _ => true
  | .trainComplete _ => true
  | .trainTimeout _ => true
  | .lockComplete _ => true
  | .lockTimeout _ => true
  | .capxTimeout _ => true
  | .portActive _ => true
  | .authTimeout _ => true
  | .authRetry _ => true
  | .keyHelloReceived _ payload => payloadOk payload
  | .keyFinishReceived _ payload => payloadOk payload
  | .keyResumeReceived _ payload => payloadOk payload
  | .keyFailReceived _ payload => payloadOk payload
  | .rekeyDue _ => true
  | .syncSend _ => true
  | .syncReceived _ payload => payloadOk payload
  | .echoFrameReceived _ echo => echoOk echo
  | .echoFramePeriodicSend _ => true
  | .neighbourDeadEchoTimeout _ => true
  | .neighbourDeadLinkLoss _ => true
  | .holdWindowClose _ => true
  | .mergeAnnounce => true
  | .mergeCancel => true
  | .formingEnd => true
  | .frameReceived _ rx _ => frameOk rx.frame
  | .entryFetchComplete _ _ => true
  | .missWaitTimeout _ => true
  | .mgmtReadRequest _ _ req => requestOk req
  | .mgmtWriteRequest _ _ req => requestOk req
  | .schedulerDecision _ _ => true
  | .epRead _ => true
  | .epWrite _ => true
  | .epWriteKeep _ => true
  | .epPin _ => true
  | .epUnpin _ => true
  | .epRevoke _ => true
  | .epInvalidate _ => true
  | .tunMapAdd _ => true
  | .tunMapDelete _ => true
  | .tunMapLookup _ => true
  | .spillWriteComplete _ => true
  | .spillReturn _ _ => true
  | .sumpReadyFall => true
  | .sumpPatrolScrub _ => true
  | .sumpTrain _ _ => true
  | .sumpTrainingEnd _ => true
  | .sumpUePop _ _ => true
  | .cavernScrub found => scrubOk found
  | .chamberFail _ => true
  | .cavernBistEnd _ => true
  | .cavernDiagWrite _ _ _ => true
  | .planCompute plan => planOk plan
  | .planCommitRetry => true
  | .tunnelAdd _ _ => true
  | .tunnelRemove _ _ => true
  | .twinEntryAgeOut _ => true
  | .drainWaitExceeded _ => true
  | .hangWatchdog _ => true
  | .engineEccUe _ => true
  | .spareAssign _ => true
  | .engineSelftestEnd _ _ => true
  | .engTakeover _ _ => true
  | .engRetest _ _ => true
  | .columnMismatch _ => true
  | .columnImageCopyEnd _ => true
  | .registerWrite _ _ _ _ _ => true
  | .memoryAccess a => accessOk a
  | .cacheWriteback _ _ data => decide (data.length ≤ 64)
  | .aliasWrite _ _ _ _ => true
  | .counterLoRead _ _ _ => true
  | .glbUnlockWrite _ _ => true
  | .unlockLapse _ => true
  | .snapshotRequest _ _ => true
  | .bankRelease _ => true
  | .bankClearEnd => true
  | .mpuSyncWrite _ _ => true
  | .mpuBarrierDone _ => true
  | .ruleChangeEffect => true
  | .mpuFaultPop _ _ => true
  | .tamper _ => true
  | .derive _ _ _ => true
  | .keyInvalidate _ => true
  | .mac _ => true
  | .sign _ => true
  | .ecdhGen _ _ => true
  | .ecdhAgree _ _ => true
  | .wrap _ => true
  | .unwrap _ _ => true
  | .keyInfo _ => true
  | .saInstall _ _ => true
  | .saRetire _ _ => true
  | .rootNew _ => true
  | .zeroise _ => true
  | .keyCommandEnd => true
  | .debugUnlockResponse _ => true
  | .debugChallengeRenew => true
  | .secFuseProgram _ _ => true
  | .secFuseRevoke _ _ => true
  | .porstNAssert _ => true
  | .porstNRelease _ _ => true
  | .sfdpRetry _ => true
  | .copyVerifyEnd _ => true
  | .applyEnd => true
  | .clockSwitch => true
  | .bootRun _ => true
  | .runWaitExpiry => true
  | .bootReset _ => true
  | .bootRecover _ => true
  | .bootStaged _ => true
  | .bootSeed _ => true
  | .seedEnd => true
  | .bootTest _ => true
  | .bootStgDataWrite _ _ => true
  | .flEraseCopy _ => true
  | .flProgram _ => true
  | .flRead _ => true
  | .flVerify _ => true
  | .flashOpEnd _ => true
  | .pwrReqWrite _ _ => true
  | .pwrAskWrite _ _ _ => true
  | .pwrAskIssue => true
  | .pwrRetry => true
  | .blockAgree _ => true
  | .blockRefuse _ _ => true
  | .rollbackRestartEnd => true
  | .dormantEntryComplete => true
  | .restTick => true
  | .wakeEvent _ => true
  | .wakeLayoverReady => true
  | .pgoodRise => true
  | .restoreEnd => true
  | .avsAckTimeout => true
  | .wakeRetry => true
  | .avsTargetWrite _ _ => true
  | .avsStep _ => true
  | .avsEvaluation => true
  | .avsTargetRetry => true
  | .pllLockRetry _ => true
  | .usbUpAttach _ rp => rp != 0
  | .usbUpDetach => true
  | .usbDnAttach _ _ => true
  | .usbDnDetach _ => true
  | .usbOverCurrent _ => true
  | .setPortPower _ => true
  | .clearPortPower _ => true
  | .openSession _ _ _ => true
  | .closeSession _ _ _ => true
  | .getSession _ _ _ => true
  | .bulkOutRequest req => requestOk req
  | .ping => true
  | .lpmToken => true
  | .usbBusReset _ => true
  | .remoteWake => true
  | .hostResume => true
  | .sourceCapabilities _ pdos _ => decide (1 ≤ pdos.length) && decide (pdos.length ≤ 7)
  | .pdRequest _ _ _ => true
  | .vbusSettled _ => true
  | .srcSettleTimeout _ => true
  | .getSourceCap _ => true
  | .getSinkCap _ => true
  | .prSwap _ => true
  | .psRdyReceived => true
  | .drSwap _ => true
  | .softReset _ => true
  | .hardReset _ => true
  | .discoverIdentity _ => true
  | .unsupportedPdMessage _ => true
  | .dischargeEnd _ => true
  | .dischargeTimeout _ => true
  | .pdSrcPdoChange _ => true
  | .serviceConnectTimeout => true
  | .carRead _ _ _ => true
  | .carWrite _ _ _ _ => true
  | .carWriteStatus tx => tx.opcode != 0x0B && tx.opcode != 0x02
  | .monConversion readings => readingsOk readings
  | .cutoffCoreOff => true
  | .thermalRestart => true
  | .logRecordWrite => true
  | .logRdAddrWrite _ _ => true
  | .logPutCmd _ _ => true
  | .pgoodFall _ => true
  | .pgoodRecover => true
  | .refclkAbsent _ => true
  | .refclkPresent _ => true
  | .vauxRise _ => true
  | .vauxFall _ => true
  | .fltRxExpiry _ => true
  | .taskTableRetire _ => true
  | .cutThroughJoin _ frame => frameOk frame
  | .mprTemperatureRead _ => true
  | .pllLockTimeout => true
  | .wakePgoodTimeout => true
  | .secFuseOpEnd _ => true
  | .xtalOkChange _ => true
  | .usbSuspend => true
  | .standardRequest req =>
    match req with
    | .vendor b => b != 1 && b != 2 && b != 3
    | _ => true
  | .bulkInTransfer => true
  | .usbDeviceConnect _ _ => true
  | .goodcrcTimeout _ => true

/-- A command is well formed: its issuer exists and its operands are in bounds. -/
def Instr.wf (i : Instr) : Bool :=
  (match i.issuer with
   | some m => masterExists m
   | none => true) && i.operandsOk

end Sys2Proof
end

