-- ==== Sys2Proof/Laws/PerInstr.lean ====
section
/-! SUPPORT. Laws/PerInstr.lean: statements about every command, one lemma per constructor. Family Masters: a well-formed
command is issued by no ID that names no master (Table ACP-1). -/

namespace Sys2Proof.Laws.Masters

open Sys2Proof

/-- A well-formed command that carries a master carries one of Table ACP-1. -/
def Statement (i : Instr) : Prop := i.wf = true → ∀ m, i.issuer = some m → masterExists m = true

/-- A well-formed command's issuer, where it has one, exists. -/
theorem of_wf (i : Instr) : Statement i := by
  intro h m hm
  simp only [Instr.wf, hm, Bool.and_eq_true] at h
  simpa using h.1

theorem beatHead : Statement .beatHead := of_wf _
theorem beatBlockReceived : ∀ port num hops hold ofs pep late, Statement (.beatBlockReceived port num hops hold ofs pep late) := by intros; exact of_wf _
theorem holdoverEntry : Statement .holdoverEntry := of_wf _
theorem enterMaster : Statement .enterMaster := of_wf _
theorem masterMove : Statement .masterMove := of_wf _
theorem mergeStep : Statement .mergeStep := of_wf _
theorem beatCommit : ∀ m group, Statement (.beatCommit m group) := by intros; exact of_wf _
theorem beatCancel : ∀ m group, Statement (.beatCancel m group) := by intros; exact of_wf _
theorem epochRaise : Statement .epochRaise := of_wf _
theorem pepPrevWindowEnd : Statement .pepPrevWindowEnd := of_wf _
theorem blockReceived : ∀ lane hdr payload reads, Statement (.blockReceived lane hdr payload reads) := by intros; exact of_wf _
theorem trainBlockReceived : ∀ lane reqPre reqPost reqPreset ack rxReady tseq ackSeq settled, Statement (.trainBlockReceived lane reqPre reqPost reqPreset ack rxReady tseq ackSeq settled) := by intros; exact of_wf _
theorem capRecordReceived : ∀ port lane rec consecutive, Statement (.capRecordReceived port lane rec consecutive) := by intros; exact of_wf _
theorem amkReceived : ∀ port marks sincePrev, Statement (.amkReceived port marks sincePrev) := by intros; exact of_wf _
theorem amkSend : ∀ port, Statement (.amkSend port) := by intros; exact of_wf _
theorem credReceived : ∀ port tc esc count, Statement (.credReceived port tc esc count) := by intros; exact of_wf _
theorem credBlockSend : ∀ port tc esc, Statement (.credBlockSend port tc esc) := by intros; exact of_wf _
theorem creditResyncPeriodic : ∀ port, Statement (.creditResyncPeriodic port) := by intros; exact of_wf _
theorem creditResyncIgnoreEnd : ∀ port, Statement (.creditResyncIgnoreEnd port) := by intros; exact of_wf _
theorem creditResyncSecondCred : ∀ port, Statement (.creditResyncSecondCred port) := by intros; exact of_wf _
theorem echoRequestSend : ∀ port, Statement (.echoRequestSend port) := by intros; exact of_wf _
theorem echoRequestReceived : ∀ port lane eseq turn, Statement (.echoRequestReceived port lane eseq turn) := by intros; exact of_wf _
theorem echoReplyReceived : ∀ port eseq turn roundTrip, Statement (.echoReplyReceived port eseq turn roundTrip) := by intros; exact of_wf _
theorem delayUpdate : ∀ port, Statement (.delayUpdate port) := by intros; exact of_wf _
theorem fltReceived : ∀ port code lanes, Statement (.fltReceived port code lanes) := by intros; exact of_wf _
theorem txLaneJoin : ∀ port lane, Statement (.txLaneJoin port lane) := by intros; exact of_wf _
theorem fltSend : ∀ port, Statement (.fltSend port) := by intros; exact of_wf _
theorem lpbkRequestReceived : ∀ port lanes, Statement (.lpbkRequestReceived port lanes) := by intros; exact of_wf _
theorem lpbkAnswerReceived : ∀ port lanes accepted, Statement (.lpbkAnswerReceived port lanes accepted) := by intros; exact of_wf _
theorem lpbkReleaseReceived : ∀ port lanes, Statement (.lpbkReleaseReceived port lanes) := by intros; exact of_wf _
theorem lpbkRequestSend : ∀ lane, Statement (.lpbkRequestSend lane) := by intros; exact of_wf _
theorem lpbkTimeout : ∀ lane, Statement (.lpbkTimeout lane) := by intros; exact of_wf _
theorem laneLoopWrite : ∀ m lane data, Statement (.laneLoopWrite m lane data) := by intros; exact of_wf _
theorem losAssert : ∀ lane, Statement (.losAssert lane) := by intros; exact of_wf _
theorem losClear : ∀ lane, Statement (.losClear lane) := by intros; exact of_wf _
theorem lolAssert : ∀ lane, Statement (.lolAssert lane) := by intros; exact of_wf _
theorem lolClear : ∀ lane, Statement (.lolClear lane) := by intros; exact of_wf _
theorem eyeMeasurement : ∀ lane height width, Statement (.eyeMeasurement lane height width) := by intros; exact of_wf _
theorem trendUpdate : Statement .trendUpdate := of_wf _
theorem laneTrendClrWrite : ∀ m data, Statement (.laneTrendClrWrite m data) := by intros; exact of_wf _
theorem locModeWrite : ∀ m port data, Statement (.locModeWrite m port data) := by intros; exact of_wf _
theorem locGroupWrite : ∀ m data, Statement (.locGroupWrite m data) := by intros; exact of_wf _
theorem ethFrameReceived : ∀ port bytes fcs, Statement (.ethFrameReceived port bytes fcs) := by intros; exact of_wf _
theorem trkCfgEnWrite : ∀ m port data, Statement (.trkCfgEnWrite m port data) := by intros; exact of_wf _
theorem coupledRise : ∀ port, Statement (.coupledRise port) := by intros; exact of_wf _
theorem coupleSnsOpen : ∀ port, Statement (.coupleSnsOpen port) := by intros; exact of_wf _
theorem coupleSnsBounce : ∀ port, Statement (.coupleSnsBounce port) := by intros; exact of_wf _
theorem downExit : ∀ port, Statement (.downExit port) := by intros; exact of_wf _
theorem detectionResult : ∀ port lanes, Statement (.detectionResult port lanes) := by intros; exact of_wf _
theorem detectRetry : ∀ port, Statement (.detectRetry port) := by intros; exact of_wf _
theorem trainComplete : ∀ port, Statement (.trainComplete port) := by intros; exact of_wf _
theorem trainTimeout : ∀ port, Statement (.trainTimeout port) := by intros; exact of_wf _
theorem lockComplete : ∀ port, Statement (.lockComplete port) := by intros; exact of_wf _
theorem lockTimeout : ∀ port, Statement (.lockTimeout port) := by intros; exact of_wf _
theorem capxTimeout : ∀ port, Statement (.capxTimeout port) := by intros; exact of_wf _
theorem portActive : ∀ port, Statement (.portActive port) := by intros; exact of_wf _
theorem authTimeout : ∀ port, Statement (.authTimeout port) := by intros; exact of_wf _
theorem authRetry : ∀ port, Statement (.authRetry port) := by intros; exact of_wf _
theorem keyHelloReceived : ∀ port payload, Statement (.keyHelloReceived port payload) := by intros; exact of_wf _
theorem keyFinishReceived : ∀ port payload, Statement (.keyFinishReceived port payload) := by intros; exact of_wf _
theorem keyResumeReceived : ∀ port payload, Statement (.keyResumeReceived port payload) := by intros; exact of_wf _
theorem keyFailReceived : ∀ port payload, Statement (.keyFailReceived port payload) := by intros; exact of_wf _
theorem rekeyDue : ∀ port, Statement (.rekeyDue port) := by intros; exact of_wf _
theorem syncSend : ∀ port, Statement (.syncSend port) := by intros; exact of_wf _
theorem syncReceived : ∀ port payload, Statement (.syncReceived port payload) := by intros; exact of_wf _
theorem echoFrameReceived : ∀ port echo, Statement (.echoFrameReceived port echo) := by intros; exact of_wf _
theorem echoFramePeriodicSend : ∀ port, Statement (.echoFramePeriodicSend port) := by intros; exact of_wf _
theorem neighbourDeadEchoTimeout : ∀ port, Statement (.neighbourDeadEchoTimeout port) := by intros; exact of_wf _
theorem neighbourDeadLinkLoss : ∀ port, Statement (.neighbourDeadLinkLoss port) := by intros; exact of_wf _
theorem holdWindowClose : ∀ port, Statement (.holdWindowClose port) := by intros; exact of_wf _
theorem mergeAnnounce : Statement .mergeAnnounce := of_wf _
theorem mergeCancel : Statement .mergeCancel := of_wf _
theorem formingEnd : Statement .formingEnd := of_wf _
theorem frameReceived : ∀ port rx tag, Statement (.frameReceived port rx tag) := by intros; exact of_wf _
theorem entryFetchComplete : ∀ ep ecc, Statement (.entryFetchComplete ep ecc) := by intros; exact of_wf _
theorem missWaitTimeout : ∀ ep, Statement (.missWaitTimeout ep) := by intros; exact of_wf _
theorem mgmtReadRequest : ∀ srcEp tc req, Statement (.mgmtReadRequest srcEp tc req) := by intros; exact of_wf _
theorem mgmtWriteRequest : ∀ srcEp tc req, Statement (.mgmtWriteRequest srcEp tc req) := by intros; exact of_wf _
theorem schedulerDecision : ∀ port slot, Statement (.schedulerDecision port slot) := by intros; exact of_wf _
theorem epRead : ∀ m, Statement (.epRead m) := by intros; exact of_wf _
theorem epWrite : ∀ m, Statement (.epWrite m) := by intros; exact of_wf _
theorem epWriteKeep : ∀ m, Statement (.epWriteKeep m) := by intros; exact of_wf _
theorem epPin : ∀ m, Statement (.epPin m) := by intros; exact of_wf _
theorem epUnpin : ∀ m, Statement (.epUnpin m) := by intros; exact of_wf _
theorem epRevoke : ∀ m, Statement (.epRevoke m) := by intros; exact of_wf _
theorem epInvalidate : ∀ m, Statement (.epInvalidate m) := by intros; exact of_wf _
theorem tunMapAdd : ∀ m, Statement (.tunMapAdd m) := by intros; exact of_wf _
theorem tunMapDelete : ∀ m, Statement (.tunMapDelete m) := by intros; exact of_wf _
theorem tunMapLookup : ∀ m, Statement (.tunMapLookup m) := by intros; exact of_wf _
theorem spillWriteComplete : ∀ q, Statement (.spillWriteComplete q) := by intros; exact of_wf _
theorem spillReturn : ∀ q ecc, Statement (.spillReturn q ecc) := by intros; exact of_wf _
theorem sumpReadyFall : Statement .sumpReadyFall := of_wf _
theorem sumpPatrolScrub : ∀ ecc, Statement (.sumpPatrolScrub ecc) := by intros; exact of_wf _
theorem sumpTrain : ∀ m data, Statement (.sumpTrain m data) := by intros; exact of_wf _
theorem sumpTrainingEnd : ∀ ok, Statement (.sumpTrainingEnd ok) := by intros; exact of_wf _
theorem sumpUePop : ∀ m data, Statement (.sumpUePop m data) := by intros; exact of_wf _
theorem cavernScrub : ∀ found, Statement (.cavernScrub found) := by intros; exact of_wf _
theorem chamberFail : ∀ chamber, Statement (.chamberFail chamber) := by intros; exact of_wf _
theorem cavernBistEnd : ∀ bad, Statement (.cavernBistEnd bad) := by intros; exact of_wf _
theorem cavernDiagWrite : ∀ m addr data, Statement (.cavernDiagWrite m addr data) := by intros; exact of_wf _
theorem planCompute : ∀ plan, Statement (.planCompute plan) := by intros; exact of_wf _
theorem planCommitRetry : Statement .planCommitRetry := of_wf _
theorem tunnelAdd : ∀ m tunnel, Statement (.tunnelAdd m tunnel) := by intros; exact of_wf _
theorem tunnelRemove : ∀ m tunnel, Statement (.tunnelRemove m tunnel) := by intros; exact of_wf _
theorem twinEntryAgeOut : ∀ src, Statement (.twinEntryAgeOut src) := by intros; exact of_wf _
theorem drainWaitExceeded : ∀ port, Statement (.drainWaitExceeded port) := by intros; exact of_wf _
theorem hangWatchdog : ∀ e, Statement (.hangWatchdog e) := by intros; exact of_wf _
theorem engineEccUe : ∀ e, Statement (.engineEccUe e) := by intros; exact of_wf _
theorem spareAssign : ∀ r, Statement (.spareAssign r) := by intros; exact of_wf _
theorem engineSelftestEnd : ∀ e pass, Statement (.engineSelftestEnd e pass) := by intros; exact of_wf _
theorem engTakeover : ∀ m target, Statement (.engTakeover m target) := by intros; exact of_wf _
theorem engRetest : ∀ m target, Statement (.engRetest m target) := by intros; exact of_wf _
theorem columnMismatch : ∀ c, Statement (.columnMismatch c) := by intros; exact of_wf _
theorem columnImageCopyEnd : ∀ c, Statement (.columnImageCopyEnd c) := by intros; exact of_wf _
theorem registerWrite : ∀ m addr size data tag, Statement (.registerWrite m addr size data tag) := by intros; exact of_wf _
theorem memoryAccess : ∀ a, Statement (.memoryAccess a) := by intros; exact of_wf _
theorem cacheWriteback : ∀ c addr data, Statement (.cacheWriteback c addr data) := by intros; exact of_wf _
theorem aliasWrite : ∀ m addr size item, Statement (.aliasWrite m addr size item) := by intros; exact of_wf _
theorem counterLoRead : ∀ m addr size, Statement (.counterLoRead m addr size) := by intros; exact of_wf _
theorem glbUnlockWrite : ∀ m data, Statement (.glbUnlockWrite m data) := by intros; exact of_wf _
theorem unlockLapse : ∀ m, Statement (.unlockLapse m) := by intros; exact of_wf _
theorem snapshotRequest : ∀ m data, Statement (.snapshotRequest m data) := by intros; exact of_wf _
theorem bankRelease : ∀ m, Statement (.bankRelease m) := by intros; exact of_wf _
theorem bankClearEnd : Statement .bankClearEnd := of_wf _
theorem mpuSyncWrite : ∀ m data, Statement (.mpuSyncWrite m data) := by intros; exact of_wf _
theorem mpuBarrierDone : ∀ m, Statement (.mpuBarrierDone m) := by intros; exact of_wf _
theorem ruleChangeEffect : Statement .ruleChangeEffect := of_wf _
theorem mpuFaultPop : ∀ m data, Statement (.mpuFaultPop m data) := by intros; exact of_wf _
theorem tamper : ∀ sources, Statement (.tamper sources) := by intros; exact of_wf _
theorem derive : ∀ m replace detach, Statement (.derive m replace detach) := by intros; exact of_wf _
theorem keyInvalidate : ∀ m, Statement (.keyInvalidate m) := by intros; exact of_wf _
theorem mac : ∀ m, Statement (.mac m) := by intros; exact of_wf _
theorem sign : ∀ m, Statement (.sign m) := by intros; exact of_wf _
theorem ecdhGen : ∀ m replace, Statement (.ecdhGen m replace) := by intros; exact of_wf _
theorem ecdhAgree : ∀ m replace, Statement (.ecdhAgree m replace) := by intros; exact of_wf _
theorem wrap : ∀ m, Statement (.wrap m) := by intros; exact of_wf _
theorem unwrap : ∀ m replace, Statement (.unwrap m replace) := by intros; exact of_wf _
theorem keyInfo : ∀ m, Statement (.keyInfo m) := by intros; exact of_wf _
theorem saInstall : ∀ m transmit, Statement (.saInstall m transmit) := by intros; exact of_wf _
theorem saRetire : ∀ m transmit, Statement (.saRetire m transmit) := by intros; exact of_wf _
theorem rootNew : ∀ m, Statement (.rootNew m) := by intros; exact of_wf _
theorem zeroise : ∀ m, Statement (.zeroise m) := by intros; exact of_wf _
theorem keyCommandEnd : Statement .keyCommandEnd := of_wf _
theorem debugUnlockResponse : ∀ answer, Statement (.debugUnlockResponse answer) := by intros; exact of_wf _
theorem debugChallengeRenew : Statement .debugChallengeRenew := of_wf _
theorem secFuseProgram : ∀ m pos, Statement (.secFuseProgram m pos) := by intros; exact of_wf _
theorem secFuseRevoke : ∀ m pos, Statement (.secFuseRevoke m pos) := by intros; exact of_wf _
theorem porstNAssert : ∀ ns, Statement (.porstNAssert ns) := by intros; exact of_wf _
theorem porstNRelease : ∀ straps vauxFromVbus, Statement (.porstNRelease straps vauxFromVbus) := by intros; exact of_wf _
theorem sfdpRetry : ∀ found, Statement (.sfdpRetry found) := by intros; exact of_wf _
theorem copyVerifyEnd : ∀ readOk, Statement (.copyVerifyEnd readOk) := by intros; exact of_wf _
theorem applyEnd : Statement .applyEnd := of_wf _
theorem clockSwitch : Statement .clockSwitch := of_wf _
theorem bootRun : ∀ m, Statement (.bootRun m) := by intros; exact of_wf _
theorem runWaitExpiry : Statement .runWaitExpiry := of_wf _
theorem bootReset : ∀ m, Statement (.bootReset m) := by intros; exact of_wf _
theorem bootRecover : ∀ m, Statement (.bootRecover m) := by intros; exact of_wf _
theorem bootStaged : ∀ m, Statement (.bootStaged m) := by intros; exact of_wf _
theorem bootSeed : ∀ m, Statement (.bootSeed m) := by intros; exact of_wf _
theorem seedEnd : Statement .seedEnd := of_wf _
theorem bootTest : ∀ m, Statement (.bootTest m) := by intros; exact of_wf _
theorem bootStgDataWrite : ∀ m data, Statement (.bootStgDataWrite m data) := by intros; exact of_wf _
theorem flEraseCopy : ∀ m, Statement (.flEraseCopy m) := by intros; exact of_wf _
theorem flProgram : ∀ m, Statement (.flProgram m) := by intros; exact of_wf _
theorem flRead : ∀ m, Statement (.flRead m) := by intros; exact of_wf _
theorem flVerify : ∀ m, Statement (.flVerify m) := by intros; exact of_wf _
theorem flashOpEnd : ∀ ok, Statement (.flashOpEnd ok) := by intros; exact of_wf _
theorem pwrReqWrite : ∀ m data, Statement (.pwrReqWrite m data) := by intros; exact of_wf _
theorem pwrAskWrite : ∀ m target beat, Statement (.pwrAskWrite m target beat) := by intros; exact of_wf _
theorem pwrAskIssue : Statement .pwrAskIssue := of_wf _
theorem pwrRetry : Statement .pwrRetry := of_wf _
theorem blockAgree : ∀ block, Statement (.blockAgree block) := by intros; exact of_wf _
theorem blockRefuse : ∀ block reason, Statement (.blockRefuse block reason) := by intros; exact of_wf _
theorem rollbackRestartEnd : Statement .rollbackRestartEnd := of_wf _
theorem dormantEntryComplete : Statement .dormantEntryComplete := of_wf _
theorem restTick : Statement .restTick := of_wf _
theorem wakeEvent : ∀ source, Statement (.wakeEvent source) := by intros; exact of_wf _
theorem wakeLayoverReady : Statement .wakeLayoverReady := of_wf _
theorem pgoodRise : Statement .pgoodRise := of_wf _
theorem restoreEnd : Statement .restoreEnd := of_wf _
theorem avsAckTimeout : Statement .avsAckTimeout := of_wf _
theorem wakeRetry : Statement .wakeRetry := of_wf _
theorem avsTargetWrite : ∀ m data, Statement (.avsTargetWrite m data) := by intros; exact of_wf _
theorem avsStep : ∀ ack, Statement (.avsStep ack) := by intros; exact of_wf _
theorem avsEvaluation : Statement .avsEvaluation := of_wf _
theorem avsTargetRetry : Statement .avsTargetRetry := of_wf _
theorem pllLockRetry : ∀ locked, Statement (.pllLockRetry locked) := by intros; exact of_wf _
theorem usbUpAttach : ∀ cc2 rp, Statement (.usbUpAttach cc2 rp) := by intros; exact of_wf _
theorem usbUpDetach : Statement .usbUpDetach := of_wf _
theorem usbDnAttach : ∀ port cc2, Statement (.usbDnAttach port cc2) := by intros; exact of_wf _
theorem usbDnDetach : ∀ port, Statement (.usbDnDetach port) := by intros; exact of_wf _
theorem usbOverCurrent : ∀ n, Statement (.usbOverCurrent n) := by intros; exact of_wf _
theorem setPortPower : ∀ n, Statement (.setPortPower n) := by intros; exact of_wf _
theorem clearPortPower : ∀ n, Statement (.clearPortPower n) := by intros; exact of_wf _
theorem openSession : ∀ wValue wIndex wLength, Statement (.openSession wValue wIndex wLength) := by intros; exact of_wf _
theorem closeSession : ∀ wValue wIndex wLength, Statement (.closeSession wValue wIndex wLength) := by intros; exact of_wf _
theorem getSession : ∀ wValue wIndex wLength, Statement (.getSession wValue wIndex wLength) := by intros; exact of_wf _
theorem bulkOutRequest : ∀ req, Statement (.bulkOutRequest req) := by intros; exact of_wf _
theorem ping : Statement .ping := of_wf _
theorem lpmToken : Statement .lpmToken := of_wf _
theorem usbBusReset : ∀ duringControl, Statement (.usbBusReset duringControl) := by intros; exact of_wf _
theorem remoteWake : Statement .remoteWake := of_wf _
theorem hostResume : Statement .hostResume := of_wf _
theorem sourceCapabilities : ∀ port pdos pd3, Statement (.sourceCapabilities port pdos pd3) := by intros; exact of_wf _
theorem pdRequest : ∀ port pos cur, Statement (.pdRequest port pos cur) := by intros; exact of_wf _
theorem vbusSettled : ∀ port, Statement (.vbusSettled port) := by intros; exact of_wf _
theorem srcSettleTimeout : ∀ port, Statement (.srcSettleTimeout port) := by intros; exact of_wf _
theorem getSourceCap : ∀ port, Statement (.getSourceCap port) := by intros; exact of_wf _
theorem getSinkCap : ∀ port, Statement (.getSinkCap port) := by intros; exact of_wf _
theorem prSwap : ∀ port, Statement (.prSwap port) := by intros; exact of_wf _
theorem psRdyReceived : Statement .psRdyReceived := of_wf _
theorem drSwap : ∀ port, Statement (.drSwap port) := by intros; exact of_wf _
theorem softReset : ∀ port, Statement (.softReset port) := by intros; exact of_wf _
theorem hardReset : ∀ port, Statement (.hardReset port) := by intros; exact of_wf _
theorem discoverIdentity : ∀ port, Statement (.discoverIdentity port) := by intros; exact of_wf _
theorem unsupportedPdMessage : ∀ port, Statement (.unsupportedPdMessage port) := by intros; exact of_wf _
theorem dischargeEnd : ∀ port, Statement (.dischargeEnd port) := by intros; exact of_wf _
theorem dischargeTimeout : ∀ port, Statement (.dischargeTimeout port) := by intros; exact of_wf _
theorem pdSrcPdoChange : ∀ port, Statement (.pdSrcPdoChange port) := by intros; exact of_wf _
theorem serviceConnectTimeout : Statement .serviceConnectTimeout := of_wf _
theorem carRead : ∀ via count addr, Statement (.carRead via count addr) := by intros; exact of_wf _
theorem carWrite : ∀ via count addr data, Statement (.carWrite via count addr data) := by intros; exact of_wf _
theorem carWriteStatus : ∀ via, Statement (.carWriteStatus via) := by intros; exact of_wf _
theorem monConversion : ∀ readings, Statement (.monConversion readings) := by intros; exact of_wf _
theorem cutoffCoreOff : Statement .cutoffCoreOff := of_wf _
theorem thermalRestart : Statement .thermalRestart := of_wf _
theorem logRecordWrite : Statement .logRecordWrite := of_wf _
theorem logRdAddrWrite : ∀ m data, Statement (.logRdAddrWrite m data) := by intros; exact of_wf _
theorem logPutCmd : ∀ m data, Statement (.logPutCmd m data) := by intros; exact of_wf _
theorem pgoodFall : ∀ ns, Statement (.pgoodFall ns) := by intros; exact of_wf _
theorem pgoodRecover : Statement .pgoodRecover := of_wf _
theorem refclkAbsent : ∀ input, Statement (.refclkAbsent input) := by intros; exact of_wf _
theorem refclkPresent : ∀ input, Statement (.refclkPresent input) := by intros; exact of_wf _
theorem vauxRise : ∀ vbatHeld, Statement (.vauxRise vbatHeld) := by intros; exact of_wf _
theorem vauxFall : ∀ vbat, Statement (.vauxFall vbat) := by intros; exact of_wf _
theorem fltRxExpiry : ∀ lane, Statement (.fltRxExpiry lane) := by intros; exact of_wf _
theorem taskTableRetire : ∀ owner, Statement (.taskTableRetire owner) := by intros; exact of_wf _
theorem cutThroughJoin : ∀ port frame, Statement (.cutThroughJoin port frame) := by intros; exact of_wf _
theorem mprTemperatureRead : ∀ hot, Statement (.mprTemperatureRead hot) := by intros; exact of_wf _
theorem pllLockTimeout : Statement .pllLockTimeout := of_wf _
theorem wakePgoodTimeout : Statement .wakePgoodTimeout := of_wf _
theorem secFuseOpEnd : ∀ ok, Statement (.secFuseOpEnd ok) := by intros; exact of_wf _
theorem xtalOkChange : ∀ ok, Statement (.xtalOkChange ok) := by intros; exact of_wf _
theorem usbSuspend : Statement .usbSuspend := of_wf _
theorem standardRequest : ∀ req, Statement (.standardRequest req) := by intros; exact of_wf _
theorem bulkInTransfer : Statement .bulkInTransfer := of_wf _
theorem usbDeviceConnect : ∀ n connected, Statement (.usbDeviceConnect n connected) := by intros; exact of_wf _
theorem goodcrcTimeout : ∀ port, Statement (.goodcrcTimeout port) := by intros; exact of_wf _

end Sys2Proof.Laws.Masters
end

