-- ==== Sys2Proof/Tests/Slice0.lean ====
section
/-! SUPPORT. Tests/Slice0.lean: an ill-formed command for each check of WellFormed, the spec's worked examples as tests of single
operations, and for every statement with hypotheses concrete states and operands that meet them. -/

namespace Sys2Proof.Tests

open Sys2Proof Sys2Proof.Machine

-- One theorem after another: the kernel evaluates each, and side by side they would need more threads than memory allows.
set_option Elab.async false

/-! ## Changes of one part of a state -/

def onPwr (f : PowerData → PowerData) (s : State) : State := { s with pwr := f s.pwr }
def onBoot (f : BootState → BootState) (s : State) : State := { s with boot := f s.boot }
def onUsb (f : UsbState → UsbState) (s : State) : State := { s with usb := f s.usb }
def onBeat (f : BeatState → BeatState) (s : State) : State := { s with beat := f s.beat }
def onEcho (f : EchoState → EchoState) (s : State) : State := { s with echo := f s.echo }
def onTun (f : TunnelState → TunnelState) (s : State) : State := { s with tun := f s.tun }
def onCav (f : CavernState → CavernState) (s : State) : State := { s with cav := f s.cav }
def onSched (f : SchedState → SchedState) (s : State) : State := { s with sched := f s.sched }
def onEng (f : EngineWork → EngineWork) (s : State) : State := { s with eng := f s.eng }
def onAcc (f : AccessState → AccessState) (s : State) : State := { s with acc := f s.acc }
def onGeode (f : GeodeState → GeodeState) (s : State) : State := { s with geode := f s.geode }
def onLog (f : LogState → LogState) (s : State) : State := { s with log := f s.log }
def onMon (i : ChannelIx) (f : Channel → Channel) (s : State) : State := { s with mon := vmod s.mon i f }

/-- The state after reset with every Column running, as it is once an image is applied. -/
def colsUp : State :=
  { State.reset with eng := { State.reset.eng with columns := vall State.reset.eng.columns fun c => { c with state := .running } } }

/-- A master's unlock armed. -/
def arm (m : Master) (s : State) : State := { s with acc := { s.acc with unlock := vset s.acc.unlock m (some 0) } }

/-- Takes as a Boolean. -/
def takesB (s : State) (m : Master) (a : Nat) : Bool :=
  s.coreOn && s.made m 4 && (s.zombieWrite m .write none).isNone && !s.roleless m && (s.checkAccess m .write a 4).ok &&
    (match regRow a with | some r => ((s.writing m).writeCause m r a 0xFFFFFFFF (s.armed m)).isNone | none => false)

theorem takes_of_takesB {s : State} {m : Master} {a : Nat} (h : takesB s m a = true) : s.Takes m a := by
  unfold takesB at h
  simp only [Bool.and_eq_true, Bool.not_eq_true'] at h
  obtain ⟨⟨⟨⟨⟨h1, h2⟩, h3⟩, h4⟩, h5⟩, h6⟩ := h
  refine ⟨⟨h1, h2, by simpa using h3, h4, h5⟩, ?_⟩
  split at h6
  · rename_i r hr
    exact ⟨r, hr, by simpa using h6⟩
  · simp at h6

theorem admits_of {s : State} {m : Master} {kind : AccessKind} {a size : Nat}
    (h : (s.coreOn && s.made m size && (s.zombieWrite m kind none).isNone && !s.roleless m && (s.checkAccess m kind a size).ok) = true) :
    s.Admits m kind a size := by
  simp only [Bool.and_eq_true, Bool.not_eq_true'] at h
  obtain ⟨⟨⟨⟨h1, h2⟩, h3⟩, h4⟩, h5⟩ := h
  exact ⟨h1, h2, by simpa using h3, h4, h5⟩

theorem inv_of_bools {s : State} (h : (Memory.wf s.mem && s.regsWf) = true) : s.Inv := by
  simpa [State.Inv] using h

/-- Two bounds at once, for a hypothesis over four bytes. -/
theorem below_four {p : Nat → Prop} (h0 : p 0) (h1 : p 1) (h2 : p 2) (h3 : p 3) : ∀ i, i < 4 → p i
  | 0, _ => h0
  | 1, _ => h1
  | 2, _ => h2
  | 3, _ => h3
  | n + 4, h => absurd h (by omega)

/-! ## Small states -/

def onAll (f : State → State) (s : State) : State := f s
def inMode (n : Nat) (s : State) : State := s.setFld Reg.GLB_MODE 2 0 n
def inStart (s : State) : State := inMode 0 s
def inRun (s : State) : State := inMode 1 s
def inTest (s : State) : State := inMode 2 s
def inRecovery (s : State) : State := inMode 3 s
def inService (s : State) : State := inMode 4 s

/-- Trunk port 0 with its four lanes up. -/
def upZero (s : State) : State :=
  s.modPort 0 fun x => { x with stage := .active, coupled := true, txLanes := 15, rxLanes := 15, txWidth := 4, rxWidth := 4, reached := true }

def capOf (sat : Bool) (id : HubId) : CapRecord :=
  { rate := 1, rates := 7, lanes := 4, backbone := 0, carEnd := 0, seat := 2, role := 0, cl := 1, keySlot := 0, sat := sat, id := id }

def planOf (rate : Word) : Plan :=
  { profiles := [], classDefaults := [],
    shapers := (List.finRange 8).map fun c =>
      { port := 0, cls := c, rates := { cir := rate, cbs := 65536, pir := rate, pbs := 65536 }, resetMode := false },
    afterRaise := none, widthChange := false }

def oneCell (f : Frame) : Stored :=
  { id := 0, frame := f, ingress := 4, cells := [{ chamber := 0, row := 0, epoch := 0 }], matched := [], resv := 1, pool := 0 }

def wideEnvelope : Envelope := { port := 0, tc5 := 0xFFFFFFFF, tc6 := 0xFFFFFFFF, tc7 := 0xFFFFFFFF }

def flash16 : SfdpInfo := { log2 := 24, quad := true, addr4 := false }

def localTo (port : BitVec 5) : EpEntry :=
  { EpEntry.zero with valid := true, isLocal := true, port := port, kinds := 511, classes := 255, profile := 0 }

def assocOf (transmit : Bool) : Assoc :=
  { port := 0, transmit := transmit, sa := 1, slot := 130, gen := 0, key := [], ctr := 5, stopped := false, inUse := false }

def someFault : MpuFault :=
  { addr := 0, kind := 0, size := 0, master := 0, priv := true, region := 0, straddle := false, cause := 0, beat := 0 }

def spilledRef : QRef := { id := 0, cells := 1, marked := false, spilled := true, waiting := false }

def echoPlain : EchoPayload :=
  { ver := 1, change := false, viewSeq := 0, senderId := 7, senderSlot := 0, pep := 0, pepNext := 0, epochBeat := 0, n := 1,
    masterId := 7, moveBeat := 0, annSeq := 0, nextMasterId := 7, merge := none, hubs := [], assigns := [] }

/-- Column 1 holds firmware and does not run. -/
def pausedEcho : State := State.reset.modColumn (1 : ColumnIx) fun x => { x with loaded := true, state := .restoring }

/-- A save of one register, whose CRC-32 holds. -/
def savedCfg : Save :=
  { regs := [(Reg.TUN_CFG, 9)], gen := 1, copy := 0, crc := crc32 (Save.text { regs := [(Reg.TUN_CFG, 9)], gen := 1, copy := 0, crc := 0 }) }

/-- A dirty line of a Column's cache. -/
def lineOf (n : Nat) : ColLine := { line := n, bytes := List.replicate 64 7, dirty := true }

def hubPlain : HubRecord :=
  { id := 7, slot := 0, prio := 7, carRole := 0, seat := 0, sump := true, cl := 1, datelineOk := true, nb := #v[0, 0, 0, 0],
    pst := #v[0, 0, 0, 0], prefSlot := 0, recSeq := 1, nbId := #v[0, 0, 0, 0] }

def mergePlain : MergeRecord :=
  { s := 40, jn := 30, ofs := 10, delta := 0, cancel := false, stepMasterSide := false, pepNew := 1,
    masterId := Config.hubId, jointId := 7 }

def frame0 : Frame :=
  ({ destEp := epWithSlot 4 3, srcEp := epWithSlot 5 9, tc := 0, cm := false, de := false, kind := 8, pep := 0, dl := false, len := 8, seq := 0, beat := 0, sa := 0, hcs := 0, tw := 0, payload := [1, 2, 3, 4, 5, 6, 7, 8] } : Frame).sealed

def rx0 : RxFrame :=
  { frame := frame0, fcs := frame0.fcsOf, tag := 0, bytes := 28 }

def recState1 : State :=
  State.reset |> upZero |>.modPort 0 (fun x => { x with adm := .admitted }) |>.setBit (Reg.SEC_PORT_CFG 0) 0 false
    |> inRun |> onEcho (fun x => { x with members := [7, Config.hubId] })
    |>.modPort 0 (fun x => { x with partner := some ((capOf false 7)) }) |>.setFld Reg.TOPO_STATUS 6 0 3
    |>.setBit Reg.SUMP_STATUS 2 true

def recChecked1 : State × Option Frame :=
  recState1.precheck (toEgress (trunk 0)) rx0

def recJudged1 : State × Gate Accepted :=
  recChecked1.1.judge (toEgress (trunk 0)) frame0 false none

def recState2 : State :=
  State.reset |> upZero |>.modPort 0 (fun x => { x with adm := .admitted }) |>.setBit (Reg.SEC_PORT_CFG 0) 0 false
    |> inRun |> onEcho (fun x => { x with members := [7, Config.hubId] })
    |>.modPort 0 (fun x => { x with partner := some ((capOf false 7)) }) |>.setFld Reg.TOPO_STATUS 6 0 3
    |>.setBit Reg.SUMP_STATUS 2 true
    |> onTun (fun x => { x with cache := [{ ep := epWithSlot 4 3, entry := (localTo 4), recent := true }] })
    |>.modPort 4 (fun x => { x with stage := .active, modeAct := 1, txWidth := 1, rxWidth := 1 })

def recChecked2 : State × Option Frame :=
  recState2.precheck (toEgress (trunk 0)) rx0

def recJudged2 : State × Gate Accepted :=
  recChecked2.1.judge (toEgress (trunk 0)) frame0 false none

def ethBytes : List Byte :=
  [1, 1, 1, 1, 1, 1, 2, 2, 2, 2, 2, 2, 8, 0] ++ List.replicate 46 0

def ethState : State :=
  State.reset |>.modPort 4 (fun x => { x with stage := .active, modeAct := 2 }) |>.setReg (Reg.TUN_ETH_DEF_SRC 0) 5
    |>.setReg (Reg.TUN_ETH_DEF_DST 0) 6 |>.setFld Reg.TOPO_STATUS 6 0 3 |>.setBit Reg.SUMP_STATUS 2 true |> inRun
    |> onTun (fun x => { x with cache := [{ ep := epWithSlot 5 3, entry := (localTo 4), recent := true }, { ep := epWithSlot 6 3, entry := (localTo 5), recent := true }] })

def ethCounted : State :=
  ethState.countLocal (toEgress (loc 0)) Reg.LOC_RX_FRAMES_LO Reg.LOC_RX_BYTES_LO (ethBytes.length + 4)

def ethMapped : State × Option Frame :=
  ethCounted.mapFrame 0 ethBytes

def ethFrame : Frame :=
  ethMapped.2.getD frame0

def ethJudged : State × Gate Accepted :=
  ethMapped.1.judge (toEgress (loc 0)) (ethMapped.1.ownSlots ethFrame) false none

def ethAccepted : Accepted :=
  match ethJudged.2 with
  | .pass a => a
  | _ => { copies := [], matched := [] }

def ethOut : Frame :=
  (ethAccepted.copies.map fun x => x.1).headD frame0

def frame1 : Frame :=
  ({ destEp := epWithSlot 6 3, srcEp := epWithSlot 5 3, tc := 6, cm := false, de := false, kind := 8, pep := 0, dl := false, len := 8, seq := 0, beat := 0, sa := 0, hcs := 0, tw := 0, payload := [1, 2, 3, 4, 5, 6, 7, 8] } : Frame).sealed

def frame2 : Frame :=
  ({ destEp := epWithSlot 6 3, srcEp := epWithSlot 5 3, tc := 4, cm := false, de := false, kind := 8, pep := 0, dl := false, len := 8, seq := 0, beat := 0, sa := 0, hcs := 0, tw := 0, payload := [1, 2, 3, 4, 5, 6, 7, 8] } : Frame).sealed

def cutState : State :=
  State.reset |>.setBit Reg.CAV_CUT_EN 1 true |> inRun |>.setFld Reg.TOPO_STATUS 6 0 3
    |>.setBit Reg.SUMP_STATUS 2 true
    |> onTun (fun x => { x with cache := [{ ep := epWithSlot 5 3, entry := (localTo 4), recent := true }, { ep := epWithSlot 6 3, entry := (localTo 5), recent := true }] })
    |>.modPort 4 (fun x => { x with stage := .active, modeAct := 1, txWidth := 1, rxWidth := 1 })
    |>.modPort 5 (fun x => { x with stage := .active, modeAct := 1, txWidth := 1, rxWidth := 1 })

def cutGiven : State × Option Frame :=
  cutState.cutFrame 0 frame2

def cutJudged : State × Gate Accepted :=
  cutGiven.1.judge (toEgress (loc 0)) frame2 false none

def cutAccepted : Accepted :=
  match cutJudged.2 with
  | .pass a => a
  | _ => { copies := [], matched := [] }

def cutFrame : Frame :=
  (cutAccepted.copies.map fun x => x.1).headD frame2

def cutJoined : State × JoinResult :=
  (cutJudged.1.store cutFrame (toEgress (loc 0)) cutAccepted.matched (cutJudged.1.cav.lastChamber.val + 1)).joinAll
    cutJudged.1.cav.nextId cutFrame.cls cutFrame.cells true [5]

def frame3 : Frame :=
  ({ destEp := epWithSlot 6 3, srcEp := epWithSlot 5 3, tc := 4, cm := false, de := false, kind := 7, pep := 0, dl := false, len := 8, seq := 0, beat := 0, sa := 0, hcs := 0, tw := 0, payload := [1, 2, 3, 4, 5, 6, 7, 8] } : Frame).sealed

/-! ## Ill-formed commands, one for each check of WellFormed -/

theorem test_wf_no_such_master : (Instr.epRead ⟨0x0B, by omega⟩).wf = false := by decide

theorem test_wf_lane_marked_twice :
    (Instr.amkReceived 0 [{ lane := 2, seq := 1, width := 4, lag := 0 }, { lane := 2, seq := 1, width := 4, lag := 0 }] 0).wf =
      false := by decide

theorem test_wf_ethernet_too_long : frameBytesOk (List.replicate 16384 0) = false := by decide +kernel

theorem test_wf_key_payload_too_long : payloadOk (List.replicate 16384 0) = false := by decide +kernel

theorem test_wf_frame_payload_too_long : frameOk { frame0 with payload := List.replicate 16384 0 } = false := by decide +kernel

theorem test_wf_request_outruns_its_payload :
    (Instr.mgmtWriteRequest 5 0 { ver := 1, op := 2, tag := 0, count := 1, addr := 0, len := 3, data := [7] }).wf = false := by
  decide

theorem test_wf_access_of_no_byte :
    (Instr.memoryAccess { master := 0, kind := .read, addr := 0, size := 0, data := [], tag := none }).wf = false := by decide

theorem test_wf_write_without_its_bytes :
    (Instr.memoryAccess { master := 0, kind := .write, addr := 0, size := 4, data := [1, 2], tag := none }).wf = false := by decide

theorem test_wf_read_with_bytes :
    (Instr.memoryAccess { master := 0, kind := .read, addr := 0, size := 1, data := [1], tag := none }).wf = false := by decide

theorem test_wf_cache_line_too_long : (Instr.cacheWriteback 0 0 (List.replicate 65 0)).wf = false := by decide +kernel

theorem test_wf_channel_read_twice : (Instr.monConversion [(3, 1), (3, 2)]).wf = false := by decide

theorem test_wf_chamber_scrubbed_twice : (Instr.cavernScrub [(1, .clean), (1, .clean)]).wf = false := by decide

theorem test_wf_plan_shapes_a_class_twice :
    (Instr.planCompute { planOf 1 with shapers := (planOf 1).shapers ++ (planOf 1).shapers }).wf = false := by decide +kernel

theorem test_wf_no_supply_offered : (Instr.sourceCapabilities 1 [] false).wf = false := by decide

theorem test_wf_eight_supplies_offered :
    (Instr.sourceCapabilities 1 (List.replicate 8 { cur := 10, volt := 100 }) false).wf = false := by decide

theorem test_wf_attach_of_none : (Instr.usbUpAttach { cc2 := false, settled := true, host := 3 } 0).wf = false := by decide

theorem test_wf_car_opcode_of_its_own_command : (Instr.carWriteStatus { via := .spi, opcode := 0x0B }).wf = false := by decide

theorem test_wf_vendor_request_of_its_own_command : (Instr.standardRequest (.vendor 1)).wf = false := by decide

/-! ## The spec's worked examples -/

/-- The header of the example in 05_tunnels, "Example header". -/
def doorFrame : Frame :=
  { destEp := 0x40010, srcEp := 0x80041, tc := 6, cm := false, de := false, kind := 3, pep := 7, dl := false, len := 32,
    seq := 0x0A3F, beat := 0x60C0, sa := 5, hcs := 0, tw := 1, payload := List.replicate 32 0 }

theorem test_header_word0 : doorFrame.word0 = 0x020008020010706E := by decide

theorem test_header_word1_before_hcs : doorFrame.word1 = 0x008028FD83001401 := by decide

theorem test_header_bytes : doorFrame.header[0]? = some 0x02 ∧ doorFrame.header[8]? = some 0x00 := by decide

theorem test_header_n : doorFrame.bytesN = 68 := by decide

/-- 8 data blocks between SOF and EOF. -/
theorem test_header_blocks : slotsOf .tvl doorFrame 5 1 = 10 := by decide

/-- 03_lanes, the example after R57: a keepalive frame and the largest secured frame. -/
theorem test_keepalive_blocks : slotsOf .tvl { doorFrame with len := 0, sa := 0 } 0 1 = 4 := by decide

theorem test_largest_blocks :
    chargeOf .tvl { doorFrame with len := 9216 } 5 = 9252 ∧ slotsOf .tvl { doorFrame with len := 9216 } 5 1 = 1158 ∧
      slotsOf .tvl { doorFrame with len := 9216 } 5 4 = 290 := by decide

/-- 05_tunnels, the RGB line. -/
theorem test_rgb_line : { doorFrame with len := 7208 }.bytesN = 7244 := by decide

/-- 06_cavern_and_sump, the CCTV recordings: 32 cells a frame. -/
theorem test_cctv_cells : cellsOfLen 8176 = 32 := by decide

/-- Table CPL-8's merge, as 02_beat works it out. -/
theorem test_merge_joining_steps :
    (fillMerge { mergePlain with s := 9003000 } 5415200 9002900 0).ofs = 3587700 ∧
      (fillMerge { mergePlain with s := 9003000 } 5415200 9002900 0).stepMasterSide = false := by decide +kernel

/-- The second example of 02_beat: the master side steps, and the joining side stretches by 23,417 CCLK. -/
theorem test_merge_master_side_steps :
    let r := fillMerge { mergePlain with s := 1200000 } 7000350 1199900 23417
    r.jn = 7000450 ∧ r.ofs = 5800450 ∧ r.delta = 23417 ∧ r.stepMasterSide = true := by decide +kernel

/-- The gate list of the example in 07_scheduling, in force at trunk port 1 at S25. -/
def gated (width : Nat) : State :=
  State.reset |>.setReg (Reg.SCHED_GL_CFG_ACT 1) 0x102 |>.setReg (Reg.SCHED_GL_ENT_ACT 1 0) 0x000190C0
    |>.setReg (Reg.SCHED_GL_ENT_ACT 1 1) 0x0016DAFF
    |>.modPort 1 (fun x => { x with stage := .active, coupled := true, txLanes := 15, txWidth := width, adm := .admitted })
    |>.setFld Reg.SCHED_CFG 7 0 16

theorem test_gate_entries : (gated 4).gateEntries 1 = [(0xC0, 400), (0xFF, 5850)] := by decide +kernel

theorem test_gate_longest_run : (gated 4).longestRun 1 2 = some 5850 ∧ (gated 4).longestRun 1 7 = none := by decide +kernel

/-- 306 slots of 2.56 ns at width 4: the last start is at unit 6,171. -/
theorem test_gate_last_start_width4 :
    306 * 256 ≤ ((gated 4).openWindow 1 2 (6171 * 8)).getD 0 ∧ ((gated 4).openWindow 1 2 (6172 * 8)).getD 0 < 306 * 256 := by
  decide +kernel

/-- 1,174 slots at width 1: the last start is at unit 5,949. -/
theorem test_gate_last_start_width1 :
    1174 * 256 ≤ ((gated 1).openWindow 1 2 (5949 * 8)).getD 0 ∧ ((gated 1).openWindow 1 2 (5950 * 8)).getD 0 < 1174 * 256 := by
  decide +kernel

/-- Table SCH-4: one beat of 100 frames of 76 bytes against a bucket pair. -/
def babble (b : Bucket) : Bucket × List Colour :=
  (List.range 100).foldl (fun r _ => let x := meter true false 76 r.1; (x.1, r.2 ++ [x.2])) (b, [])

/-- The bucket pair a beat later. -/
def nextBeat (b : Bucket) : Bucket :=
  { b with ctok := BitVec.ofNat 32 (tokensAfter b.ctok.toNat (96 * 256) 9252 1),
           ptok := BitVec.ofNat 32 (tokensAfter b.ptok.toNat (192 * 256) 18504 1) }

def beatsOf : Nat → Bucket × List Colour
  | 0 => babble { ctok := 9252 * 256, ptok := 18504 * 256, stamp := 0 }
  | n + 1 => babble (nextBeat (beatsOf n).1)

/-- A row of the table: tokens after the beat, then green, yellow and red. -/
def babbleRow (n : Nat) : List Nat :=
  let r := beatsOf n
  [r.1.ctok.toNat / 256, r.1.ptok.toNat / 256, r.2.count .green, r.2.count .yellow, r.2.count .red]

theorem test_babble_first : babbleRow 0 = [1652, 10904, 100, 0, 0] := by decide +kernel

theorem test_babble_second : babbleRow 1 = [0, 3496, 23, 77, 0] := by decide +kernel

theorem test_babble_third : babbleRow 2 = [20, 40, 1, 47, 52] := by decide +kernel

theorem test_babble_fifth : babbleRow 4 = [60, 44, 1, 1, 98] := by decide +kernel

/-- 10_registers and 19_register_map: alias addresses. -/
theorem test_alias_addresses :
    aliasOf 0x100500000 = (.bit 0, 0x28000) ∧ aliasOf 0x2028000 = (.clear, 0x28000) ∧ aliasOf 0x1028000 = (.set, 0x28000) ∧
      aliasOf 0x3041000 = (.toggle, 0x41000) ∧ aliasOf 0x100820018 = (.bit 6, 0x41000) := by decide

/-- 10_registers and 19_register_map: the holding registers of counters; TRK_HOLD_WIN is none. -/
theorem test_holding_addresses :
    heldCounter 0x8808D0 = some 0x40468 ∧ heldCounter 0x9981C0 = some 0xCC0E0 ∧ heldCounter 0x882000 = none := by decide +kernel

/-- 16_monitors: MON_TH of T3. -/
theorem test_threshold_reset : State.reset.reg (Reg.MON_TH 3) = 0x50B80AE0 := by decide +kernel

/-- 17_balls_and_straps: the reset values that straps of 0x0921 give. -/
theorem test_straps :
    let s := State.reset.strapDefaults 0x921
    s.reg Reg.BEAT_ROLE = 0x110 ∧ s.reg (Reg.LANE_CFG 0) = 0x2C ∧ s.reg (Reg.LANE_CFG 16) = 0x2D ∧ s.reg Reg.SUMP_CFG = 3 ∧
      s.reg (Reg.CAV_Q_DROP (queueOf 0 0).val) = 1048576 := by decide +kernel

/-- 14_power_states: PROC_CODE 0xA0 gives 775 mV. -/
theorem test_process_voltage : (State.reset.setFld Reg.AVS_PROC 7 0 0xA0).vProc = 775 := by decide +kernel

/-- Table REG-4, its fourth row: a write to LANE_TREND_CLR without an arming. -/
theorem test_guarded_write_unarmed :
    (match exec (.laneTrendClrWrite 0 0x20) colsUp with
     | .next t => (t.reg Reg.GLB_GRD_DENY).toNat
     | _ => 0) = 1 := by decide +kernel

/-- Table REG-4, its first row: the arming. -/
theorem test_unlock_arms :
    (match exec (.glbUnlockWrite 0 0x7A5C1E09) colsUp with
     | .next t => t.armed 0
     | _ => false) = true := by decide +kernel

/-! The identity of the hub and the cryptography are values that no proof can see: what hypotheses say of them is shown here. -/

theorem compl_ne {n : Nat} (x : BitVec (n + 1)) : ~~~x ≠ x := by
  intro h
  have h0 := congrArg (fun y : BitVec (n + 1) => y.getLsbD 0) h
  simp at h0

theorem hubId_toNat : 1 ≤ Config.hubId.toNat ∧ Config.hubId.toNat < 2 ^ 64 - 1 := by
  unfold Config.hubId
  have h : Config.hubIndex % (2 ^ 64 - 2) < 2 ^ 64 - 2 := Nat.mod_lt _ (by decide)
  rw [BitVec.toNat_ofNat]
  omega

theorem hubId_ne_zero : Config.hubId ≠ 0 := by
  intro h
  have := hubId_toNat.1
  rw [h] at this
  simp at this

theorem compl_hubId_ne_zero : ~~~Config.hubId ≠ 0 := by
  intro h
  have h2 := hubId_toNat.2
  have h3 : Config.hubId = ~~~(0 : BitVec 64) := by rw [← h]; simp
  rw [h3] at h2
  simp at h2

theorem view_alone {s : State} (h : s.echo.records = []) : s.view = [s.ownRecord] := by
  simp [State.view, h, reachN]

theorem acting_alone {s : State} (h : s.echo.records = []) (hm : s.echo.master = Config.hubId) :
    s.actingMaster = Config.hubId := by
  simp [State.actingMaster, view_alone h, hm, State.ownRecord]

theorem inverted_ne {l : List Byte} (h : l ≠ []) : (l.map fun b => ~~~b) ≠ l := by
  cases l with
  | nil => exact absurd rfl h
  | cons a l =>
    intro e
    exact compl_ne a (by simpa using (List.cons.inj e).1)

theorem slice_tail (a b : List Byte) : slice (a ++ b) a.length b.length = b := by
  simp [slice]

theorem finishMac_length (s : State) (t : TrunkPort) (sa : BitVec 8) : (s.finishMac t sa).length = 48 := by
  simp [State.finishMac, hmac384, fixLen]

theorem syncMac_length (a : Assoc) (sa : BitVec 8) (c : BitVec 64) : (syncMac a sa c).length = 16 := by
  simp [syncMac, leBytes]

/-- The counter of a SYNC that carries 9, whatever its MAC. -/
theorem sync_counter {mac : List Byte} : BitVec.ofNat 64 (leNat (slice ([1, 4, 0, 0, 1, 0, 0, 0] ++ leBytes 8 9 ++ mac) 8 8)) = 9 := by
  simp [slice, leBytes]
  decide

/-- Bytes 16 on of a FINISH are its MAC. -/
theorem slice_tail_of {a b : List Byte} {m n : Nat} (ha : a.length = m) (hb : b.length = n) : slice (a ++ b) m n = b := by
  subst ha hb
  exact slice_tail a b

theorem slice_inverted_ne {a b : List Byte} {m n : Nat} (ha : a.length = m) (hb : b.length = n + 1) :
    slice (a ++ b.map fun x => ~~~x) m (n + 1) ≠ b := by
  rw [slice_tail_of ha (by simpa using hb)]
  exact inverted_ne (by intro h; rw [h] at hb; simp at hb)

theorem pair_of_snd {α β : Type} {p : α × β} {b : β} (h : p.2 = b) : p = (p.1, b) := by
  cases p
  cases h
  rfl

theorem linked_of {a b : HubRecord} (h1 : a.pst[(0 : Fin 4)] = 2) (h2 : b.pst[(0 : Fin 4)] = 2) (h3 : a.nbId[(0 : Fin 4)] = b.id)
    (h4 : b.nbId[(0 : Fin 4)] = a.id) : linked a b = true := by
  simp only [linked, linkAt, linkBy, List.any_eq_true]
  refine ⟨0, List.mem_finRange _, ?_⟩
  simp only [h1, h3, beq_self_eq_true, Bool.and_self, Bool.true_and, List.any_eq_true]
  exact ⟨0, List.mem_finRange _, by simp [h2, h4, backboneB]⟩

theorem held_of_linked {a b : HubRecord} (h : linked a b = true) : heldLink a b = true := by
  simp only [linked, linkAt, heldLink, heldAt, linkBy, List.any_eq_true, Bool.and_eq_true] at *
  obtain ⟨i, hi, ⟨h1, h2⟩, j, hj, ⟨h3, h4⟩, h5⟩ := h
  exact ⟨i, hi, ⟨by simp_all, h2⟩, j, hj, ⟨h3, by simp_all⟩, h5⟩

/-- A hub linked with this one, alone in its records, makes the view a pair. -/
theorem view_pair {s : State} {r : HubRecord} (h : s.echo.records = [r]) (hid : r.id ≠ Config.hubId)
    (hl : linked s.ownRecord r = true) : s.view = [s.ownRecord, r] := by
  have : (Config.hubId == r.id) = false := by simpa using fun e => hid e.symm
  simp [State.view, h, reachN, reachStep, hl, State.ownRecord, this] at *

/-- It is then the joint hub of the one joining side, where this hub is alone in its consist. -/
theorem side_pair {s : State} {r : HubRecord} (h : s.echo.records = [r]) (hid : r.id ≠ Config.hubId)
    (hl : linked s.ownRecord r = true) (hm : s.echo.members = [Config.hubId]) : s.joiningSides = [{ joint := r, hubs := [r] }] := by
  have h1 : s.ownRecord.id ∈ s.echo.members := by simp [hm, State.ownRecord]
  have h2 : r.id ∉ s.echo.members := by simpa [hm] using hid
  simp [State.joiningSides, State.jointHubs, State.others, sidesOf, componentOf, reachN, reachStep, view_pair h hid hl, h1, h2, hl]

theorem elected_pair {s : State} {r : HubRecord} (h : s.echo.records = [r]) (hid : r.id ≠ Config.hubId)
    (hl : linked s.ownRecord r = true) (hp : s.ownRecord.prio.toNat < r.prio.toNat) : s.elected = Config.hubId := by
  have h1 : lowerPair r s.ownRecord = false := by
    have : r.prio ≠ s.ownRecord.prio := by intro e; rw [e] at hp; omega
    simp [lowerPair, this]
    omega
  simp only [State.elected, view_pair h hid hl, elect, ite_self, h1, Bool.false_eq_true, if_false]
  rfl

/-! ## Witnesses -/

def stBeatBlockRules00 : State :=
  colsUp |>.setBit Reg.BOOT_STATUS 14 true |> upZero

def stBeatBlockRules20 : State :=
  colsUp |>.setBit Reg.BOOT_STATUS 14 true |> upZero

def stAdmissionMessages20 : State :=
  colsUp |> upZero
    |>.modAgent 0 (fun x => { x with hello := ([1, 1, 0, 0] ++ idBytes Config.hubId ++ [5, 0, 0, 0] ++ List.replicate 128 0), peerHello := ([1, 1, 0, 0] ++ idBytes 7 ++ [5, 0, 0, 0] ++ List.replicate 128 0), running := true, txKey := some 200 })
    |>.modPort 0 (fun x => { x with partner := some ((capOf false 7)) })
    |>.modSlot 5 (fun x => { x with bank0 := { x.bank0 with valid := true, attr := mkAttr [0, 3, 5] 0 1, value := List.replicate 48 9 } })
    |>.modSlot 200 (fun x => { x with bank0 := { x.bank0 with valid := true, attr := mkAttr [0, 1, 10] 0 3, value := List.replicate 32 9 } })

def stAdmissionMessages30 : State :=
  colsUp |> upZero
    |>.modAgent 0 (fun x => { x with hello := ([1, 1, 0, 0] ++ idBytes Config.hubId ++ [5, 0, 0, 0] ++ List.replicate 128 0), peerHello := ([1, 1, 0, 0] ++ idBytes 7 ++ [5, 0, 0, 0] ++ List.replicate 128 0), running := true, txKey := some 200 })
    |>.modPort 0 (fun x => { x with partner := some ((capOf false 7)) })
    |>.modSlot 5 (fun x => { x with bank0 := { x.bank0 with valid := true, attr := mkAttr [0, 3, 5] 0 1, value := List.replicate 48 9 } })
    |>.modSlot 200 (fun x => { x with bank0 := { x.bank0 with valid := true, attr := mkAttr [0, 1, 10] 0 3, value := List.replicate 32 9 } })

def stAllotmentPlans20 : State :=
  colsUp |> inRun |>.setReg Reg.COL_SUPER 0 |> onSched (fun x => { x with envelopes := [wideEnvelope] })
    |>.setReg Reg.BEAT_NUM 100

def stAllotmentPlans21 : State :=
  colsUp |> inRun |>.setReg Reg.COL_SUPER 0 |> onSched (fun x => { x with envelopes := [wideEnvelope] })
    |>.setReg Reg.BEAT_NUM 100 |> onSched (fun x => { x with retry := some { plan := planOf 1, target := none, requests := [] } })

/-- The host reaches the function, and no source of waking is enabled. -/
def stServed : State :=
  colsUp |>.setReg Reg.PWR_WAKE_EN 0 |> onPwr (fun x => { x with usbOn := true }) |> onUsb (fun x => { x with mfOn := true })
    |>.setFld Reg.USB_STATUS 1 0 2

/-- A session is open too. -/
def stServedOpen : State := stServed |>.setFld Reg.USB_MF_SESSION 1 0 1

/-- Block 7 is asked in an entry to DORMANT from LAYOVER, in which supervision has moved. -/
def stFromLayover : State :=
  colsUp |> inRun |> onPwr (fun x => { x with state := .layover, target := 3, fromLayover := true, asked := some 7, superMoved := true })

/-- Column 0 has written AVS_TARGET in a wake from LAYOVER, and the voltage stands there. -/
def stLayoverWake : State :=
  colsUp |> inRun |> onPwr (fun x => { x with state := .waking, avsSet := true }) |>.setFld Reg.AVS_STATUS 9 0 800
    |>.setFld Reg.AVS_TARGET 9 0 800

def recOf (src : Byte) : EventRecord := { stamp := 1, beat := 0, src := src, code := 4, seq := 5, flags := 0, data := [1, 2], crc := 0 }

def stPdMessages20 : State :=
  colsUp |> inRun |> onPwr (fun x => { x with usbOn := true }) |>.setBit (Reg.PD_PORT_CFG 1) 0 true
    |>.modPd 1 (fun x => { x with tc := .attached, source := true, vbusEn := true, lastCaps := [{ cur := 150, volt := 100 }] })

def stEchoFrames60 : State :=
  colsUp |> upZero |>.modPort 0 (fun x => { x with adm := .admitted }) |>.setBit (Reg.SEC_PORT_CFG 0) 0 false
    |> onAll (fun x => { x with heads := 16 }) |>.modCredit 0 7 false (fun x => { x with limit := some 64 })

/-- A neighbour's record that names this hub on its port 0. -/
def recEchoFrames : HubRecord :=
  { hubPlain with id := ~~~ Config.hubId, prio := 1, pst := #v[2, 0, 0, 0], nbId := #v[Config.hubId, 0, 0, 0] }

/-- The hypotheses of Obligations.StepRunsFront can be met. -/
theorem witness_StepRunsFront :
    (∃ (c : Instr) (s : State) (rest : List Instr), s.pending = c :: rest) :=
  ⟨.beatHead, colsUp |> onAll (fun x => { x with pending := [.beatHead] }), [], by decide +kernel⟩

/-- The hypotheses of Obligations.IdleStepTicks can be met. -/
theorem witness_IdleStepTicks :
    (∃ (s : State), s.pending = [] ∧ s.ticks + 1 < 800000000) ∧
    (∃ (s : State), s.pending = [] ∧ 800000000 ≤ s.ticks + 1 ∧ (s.pwr.vaux || s.pwr.vbat) = true ∧
      (s.reg Reg.PWR_RTC_ALARM = 0 ∨ s.reg Reg.PWR_RTC_SEC + 1 ≠ s.reg Reg.PWR_RTC_ALARM)) :=
  ⟨⟨colsUp, by decide +kernel⟩,
   ⟨colsUp |> onAll (fun x => { x with ticks := 799999999 }), by decide +kernel⟩⟩

/-- The hypotheses of Obligations.CanonicalKept can be met. -/
theorem witness_CanonicalKept :
    (∃ (s : State) (t : State), s.Inv ∧ step s = .next t) :=
  ⟨colsUp |> onAll (fun x => { x with pending := [.beatHead] }), _, inv_of_bools (by decide +kernel), rfl⟩

/-- The hypotheses of Obligations.QueueUntouched can be met. -/
theorem witness_QueueUntouched :
    (∃ (c : Instr) (s : State) (t : State), exec c s = .next t) :=
  ⟨.beatHead, colsUp, _, rfl⟩

/-- The hypotheses of Obligations.BeatHeadCounts can be met. -/
theorem witness_BeatHeadCounts :
    (∃ (s : State), s.beatRuns = true) :=
  ⟨colsUp, by decide +kernel⟩

/-- The hypotheses of Obligations.BeatBlockRules can be met. -/
theorem witness_BeatBlockRules :
    (∃ (s : State), s.coreOn = true ∧ s.pllOn = true ∧ ∃ (p : TrunkPort) (num : Word) (late : Int),
      s.portUp (trunk p) = true ∧ num = s.numExpected late ∧ -12800 ≤ late ∧ late ≤ 12800) ∧
    (∃ (s : State), s.coreOn = true ∧ s.pllOn = true) ∧
    (∃ (s : State), s.coreOn = true ∧ s.pllOn = true ∧ ∃ (pep : BitVec 4), pep ≠ s.pep) ∧
    (∃ (s : State), s.coreOn = true ∧ s.beat.timing = .track ∧ s.beat.lastValid + 2 ≤ s.heads) :=
  ⟨⟨stBeatBlockRules00, by decide +kernel, by decide +kernel, 0, stBeatBlockRules00.numExpected 12800, 12800,
     by decide +kernel⟩,
   ⟨colsUp |>.setBit Reg.BOOT_STATUS 14 true |> upZero, by decide +kernel⟩,
   ⟨stBeatBlockRules20, by decide +kernel, by decide +kernel, stBeatBlockRules20.pep + 1, by decide +kernel⟩,
   ⟨colsUp |> onBeat (fun x => { x with timing := .track, lastValid := 3 })
     |> onAll (fun x => { x with heads := 5 }), by decide +kernel⟩⟩

/-- The hypotheses of Obligations.MasterRoleMoves can be met. -/
theorem witness_MasterRoleMoves :
    (∃ (s : State), s.coreOn = true ∧ s.pllOn = true ∧ s.echoPaused = false ∧ (s.beat.timing = .free ∨
      s.beat.timing = .track ∨ s.beat.timing = .holdover) ∧ s.actingMaster = Config.hubId ∧ (s.annOr.moveBeat = 0 ∨
      s.annOr.moveBeat.toNat ≤ s.beatNum.toNat)) ∧
    (∃ (s : State), s.coreOn = true ∧ s.annOr.moveBeat ≠ 0 ∧ s.beatNum = s.annOr.moveBeat ∧ s.annOr.nextMaster ≠ 0 ∧
      s.annOr.nextMaster = Config.hubId ∧ s.pllOn = true ∧ s.beat.timing ≠ .stepPending) ∧
    (∃ (s : State), s.coreOn = true ∧ s.annOr.epochBeat ≠ 0 ∧ s.beatNum = s.annOr.epochBeat ∧
      s.annOr.pepNext ≠ s.pep ∧ s.echoPaused = true) ∧
    (∃ (s : State), s.coreOn = true ∧ ∃ (h : Nat), s.echo.raiseHead = some h ∧ h + 2 ≤ s.heads) ∧
    (∃ (s : State), s.coreOn = true ∧ ∃ m, s.echo.merge = some m ∧ m.complete = true ∧
      s.beatNum.toNat + 1 = (if m.joining then m.record.jn.toNat else m.record.s.toNat) ∧ m.joining = true) ∧
    (∃ (s : State), s.coreOn = true ∧ ∃ m, s.echo.merge = some m ∧ m.complete = true ∧
      s.beatNum.toNat + 1 = (if m.joining then m.record.jn.toNat else m.record.s.toNat) ∧ m.joining = false) :=
  ⟨⟨colsUp |>.setBit Reg.BOOT_STATUS 14 true |> onEcho (fun x => { x with master := Config.hubId }),
     by decide +kernel, by decide +kernel, by decide +kernel, by decide +kernel, acting_alone rfl rfl, by decide +kernel⟩,
   ⟨colsUp |>.setBit Reg.BOOT_STATUS 14 true |>.setReg Reg.BEAT_NUM 5
     |> onEcho (fun x => { x with ann := some { annSeq := 0, moveBeat := 5, nextMaster := Config.hubId, pepNext := 0, epochBeat := 0, assigns := [] } })
     |> onBeat (fun x => { x with timing := .track }), by decide +kernel, by decide +kernel, by decide +kernel,
     hubId_ne_zero, rfl, by decide +kernel, by decide +kernel⟩,
   ⟨pausedEcho |>.setReg Reg.BEAT_NUM 5
     |> onEcho (fun x => { x with ann := some { annSeq := 0, moveBeat := 0, nextMaster := 0, pepNext := 1, epochBeat := 5, assigns := [] } }),
     by decide +kernel⟩,
   ⟨colsUp |> onEcho (fun x => { x with raiseHead := some 3 }) |> onAll (fun x => { x with heads := 5 }),
     by decide +kernel, 3, by decide +kernel⟩,
   ⟨colsUp
     |> onEcho (fun x => { x with merge := some { record := mergePlain, joining := true, complete := true, assigns := [] } })
     |>.setReg Reg.BEAT_NUM 29, by decide +kernel,
     { record := mergePlain, joining := true, complete := true, assigns := [] }, rfl, by decide +kernel⟩,
   ⟨colsUp
     |> onEcho (fun x => { x with merge := some { record := mergePlain, joining := false, complete := true, assigns := [] } })
     |>.setReg Reg.BEAT_NUM 39 |> onEng (fun x => { x with anchor := 7 }), by decide +kernel,
     { record := mergePlain, joining := false, complete := true, assigns := [] }, rfl, by decide +kernel⟩⟩

/-- The hypotheses of Obligations.CommitCommands can be met. -/
theorem witness_CommitCommands :
    (∃ (s : State) (m : Master), s.Inv ∧ s.Takes m Reg.BEAT_CMT_CMD) :=
  ⟨colsUp, 0, inv_of_bools (by decide +kernel), takes_of_takesB (by decide +kernel)⟩

/-- The hypotheses of Obligations.RefusedCommitChangesNothing can be met. -/
theorem witness_RefusedCommitChangesNothing :
    (∃ (s : State) (m : Master) (g : BitVec 8), s.Inv ∧ s.Takes m Reg.BEAT_CMT_CMD ∧
      s.commitCode g.toNat (s.commitTarget m) ≠ 1) :=
  ⟨colsUp, 0, 0x10, inv_of_bools (by decide +kernel), takes_of_takesB (by decide +kernel), by decide +kernel⟩

/-- The hypotheses of Obligations.BlockLockRules can be met. -/
theorem witness_BlockLockRules :
    (∃ (s : State) (lane : LaneIx), s.coreOn = true ∧ s.laneOn lane = true ∧ s.lanes[lane].los = false ∧
      s.lanes[lane].lol = false ∧ s.lanes[lane].loop.getLsbD 0 = false ∧ s.lanes[lane].loop.getLsbD 1 = false ∧ s.lanes[lane].lock = .hunt) ∧
    (∃ (s : State) (lane : LaneIx), s.coreOn = true ∧ s.laneOn lane = true ∧ s.lanes[lane].los = false ∧
      s.lanes[lane].lol = false ∧ s.lanes[lane].loop.getLsbD 0 = false ∧ s.lanes[lane].loop.getLsbD 1 = false ∧ ∃ (hdr : BitVec 2), (hdr = 0 ∨ hdr = 3) ∧ s.lanes[lane].lock = .hunt) ∧
    (∃ (s : State) (lane : LaneIx), s.coreOn = true ∧ s.laneOn lane = true ∧ s.lanes[lane].los = false ∧
      s.lanes[lane].lol = false ∧ s.lanes[lane].loop.getLsbD 0 = false ∧ s.lanes[lane].loop.getLsbD 1 = false ∧ ∃ (hdr : BitVec 2), (hdr = 0 ∨ hdr = 3) ∧ s.lanes[lane].lock = .locked ∧
      s.lanes[lane].errors < 15) ∧
    (∃ (s : State) (lane : LaneIx), s.coreOn = true ∧ s.laneOn lane = true ∧ s.lanes[lane].los = false ∧
      s.lanes[lane].lol = false ∧ s.lanes[lane].loop.getLsbD 0 = false ∧ s.lanes[lane].loop.getLsbD 1 = false ∧ ∃ (hdr : BitVec 2), (hdr = 0 ∨ hdr = 3) ∧ s.lanes[lane].lock = .locked ∧
      15 ≤ s.lanes[lane].errors) :=
  ⟨⟨colsUp |> onPwr (fun x => { x with laneDom := 255 })
     |>.modLane 0 (fun x => { x with lock := .hunt, count := 63 }), 0, by decide +kernel⟩,
   ⟨colsUp |> onPwr (fun x => { x with laneDom := 255 })
     |>.modLane 0 (fun x => { x with lock := .hunt, count := 63 }), 0, by decide +kernel, by decide +kernel, by decide +kernel,
     by decide +kernel, by decide +kernel, by decide +kernel, 3, by decide +kernel⟩,
   ⟨colsUp |> onPwr (fun x => { x with laneDom := 255 })
     |>.modLane 0 (fun x => { x with lock := .locked, errors := 14 }), 0, by decide +kernel, by decide +kernel, by decide +kernel,
     by decide +kernel, by decide +kernel, by decide +kernel, 0, by decide +kernel⟩,
   ⟨colsUp |> onPwr (fun x => { x with laneDom := 255 })
     |>.modLane 0 (fun x => { x with lock := .locked, errors := 15 }), 0, by decide +kernel, by decide +kernel, by decide +kernel,
     by decide +kernel, by decide +kernel, by decide +kernel, 3, by decide +kernel⟩⟩

/-- The hypotheses of Obligations.SignalLevels can be met. -/
theorem witness_SignalLevels :
    (∃ (s : State) (lane : LaneIx), s.coreOn = true ∧ s.laneOn lane = true ∧ s.lanes[lane].los = false ∧
      s.lanes[lane].lock ≠ .locked) ∧
    (∃ (s : State) (lane : LaneIx), s.coreOn = true ∧ s.laneOn lane = true ∧ s.lanes[lane].los = false ∧
      s.lanes[lane].lock = .locked) ∧
    (∃ (s : State) (lane : LaneIx), s.coreOn = true ∧ s.laneOn lane = true ∧ s.lanes[lane].lol = false ∧
      s.lanes[lane].lock ≠ .locked) ∧
    (∃ (s : State) (lane : LaneIx), s.coreOn = true ∧ s.laneOn lane = true ∧ s.lanes[lane].lol = false ∧
      s.lanes[lane].lock = .locked) ∧
    (∃ (s : State) (lane : LaneIx), s.coreOn = true ∧ s.laneOn lane = true ∧ s.lanes[lane].los = true) ∧
    (∃ (s : State) (lane : LaneIx), s.coreOn = true ∧ s.laneOn lane = true ∧ s.lanes[lane].lol = true) ∧
    (∃ (s : State) (lane : LaneIx), s.coreOn = true ∧ s.laneOn lane = true ∧ lane = 31) ∧
    (∃ (s : State) (lane : LaneIx), s.coreOn = true ∧ s.laneOn lane = true ∧ lane = 0) :=
  ⟨⟨colsUp |> onPwr (fun x => { x with laneDom := 255 }), 31, by decide +kernel⟩,
   ⟨colsUp |> onPwr (fun x => { x with laneDom := 255 }) |> upZero
     |>.modLane 0 (fun x => { x with lock := .locked }), 0, by decide +kernel⟩,
   ⟨colsUp |> onPwr (fun x => { x with laneDom := 255 }), 31, by decide +kernel⟩,
   ⟨colsUp |> onPwr (fun x => { x with laneDom := 255 }) |> upZero
     |>.modLane 0 (fun x => { x with lock := .locked }), 0, by decide +kernel⟩,
   ⟨colsUp |> onPwr (fun x => { x with laneDom := 255 })
     |>.modLane 0 (fun x => { x with los := true, lol := true }), 0, by decide +kernel⟩,
   ⟨colsUp |> onPwr (fun x => { x with laneDom := 255 })
     |>.modLane 0 (fun x => { x with los := true, lol := true }), 0, by decide +kernel⟩,
   ⟨colsUp |> onPwr (fun x => { x with laneDom := 255 }), 31, by decide +kernel⟩,
   ⟨colsUp |> onPwr (fun x => { x with laneDom := 255 })
     |>.modLane 0 (fun x => { x with los := true, lol := true }), 0, by decide +kernel⟩⟩

/-- The hypotheses of Obligations.LaneMeasurements can be met. -/
theorem witness_LaneMeasurements :
    (∃ (s : State) (lane : LaneIx), s.coreOn = true ∧ s.laneOn lane = true ∧ ∃ (tseq : BitVec 8),
      s.inTrain lane = true ∧
      s.lanes[lane].faulty = false ∧ s.lanes[lane].tseq = some tseq) ∧
    (∃ (s : State) (lane : LaneIx), s.coreOn = true ∧ s.laneOn lane = true ∧ ∃ (tseq : BitVec 8),
      s.inTrain lane = true ∧
      s.lanes[lane].trainEn = true ∧
      s.lanes[lane].tseq ≠ some tseq) ∧
    (∃ (s : State) (lane : LaneIx), s.coreOn = true ∧ s.laneOn lane = true ∧ s.lanes[lane].lock = .locked) ∧
    (∃ (s : State), s.coreOn = true ∧ s.mode = .run ∧ s.log.pending ≠ []) ∧
    (∃ (s : State), s.coreOn = true ∧ s.mode = .run ∧ s.log.pending = [] ∧ ∃ l : LaneIx, s.bit Reg.LANE_TREND_CTL 0 = true ∧ s.laneOn l = true ∧
      s.lanes[l].trendClear = false ∧ (s.trendRec l.val 0).runsec.toNat < 65535) ∧
    (∃ (s : State), s.coreOn = true ∧ ∃ (m : Master), s.Takes m Reg.LANE_TREND_CLR) :=
  ⟨⟨colsUp |> onPwr (fun x => { x with laneDom := 255 }) |>.modPort 0 (fun x => { x with stage := .train })
     |>.modLane 0 (fun x => { x with detected := true, lock := .locked, tseq := some 5, rxReady := true, txReady := true }),
     0, by decide +kernel, by decide +kernel, 5, by decide +kernel⟩,
   ⟨colsUp |> onPwr (fun x => { x with laneDom := 255 }) |>.modPort 0 (fun x => { x with stage := .train })
     |>.modLane 0 (fun x => { x with detected := true, trainEn := true }), 0, by decide +kernel, by decide +kernel, 5,
     by decide +kernel⟩,
   ⟨colsUp |> onPwr (fun x => { x with laneDom := 255 }) |>.modLane 0 (fun x => { x with lock := .locked }), 0,
     by decide +kernel⟩,
   ⟨colsUp |> inRun |> State.logBytes (src := 0x13) (code := 1) (data := []), by decide +kernel⟩,
   ⟨colsUp |> inRun |> onPwr (fun x => { x with laneDom := 255 }) |>.setBit Reg.LANE_TREND_CTL 0 true, by decide +kernel,
     by decide +kernel, by decide +kernel, 31, by decide +kernel⟩,
   ⟨colsUp |> arm 0 |>.modLane 1 (fun x => { x with trendClear := true }), by decide +kernel, 0,
     takes_of_takesB (by decide +kernel)⟩⟩

/-- The hypotheses of Obligations.MarkersAndDelay can be met. -/
theorem witness_MarkersAndDelay :
    (∃ (s : State) (port : LinkPort), s.coreOn = true ∧ s.isTvl port = true ∧ ∃ (mk : AmkMark),
      (s.ports[port].stage = .lock ∨ s.ports[port].stage = .capx) ∧ mk.width ≠ 3 ∧ mk.lag ≤ 64 ∧ port = 0 ∧
      mk.lag = 64) ∧
    (∃ (s : State) (port : LinkPort), s.coreOn = true ∧ s.isTvl port = true ∧ ∃ (mk : AmkMark),
      (s.ports[port].stage = .lock ∨ s.ports[port].stage = .capx) ∧ mk.width ≠ 3 ∧ mk.lag ≤ 64 ∧ port = 3 ∧
      mk.lag = 0) ∧
    (∃ (s : State) (port : LinkPort), s.coreOn = true ∧ s.isTvl port = true ∧ (s.ports[port].stage = .lock ∨
      s.ports[port].stage = .capx ∨ s.ports[port].stage = .active ∨ s.ports[port].stage = .degraded) ∧
      s.ports[port].txLanes ≠ 0) ∧
    (∃ (s : State), s.coreOn = true ∧ ∃ (port : LinkPort), s.portUp port = true ∧ s.isTvl port = true ∧
      s.ports[port].reqHead = some 3 ∧ s.cadence s.ports[port].reqHead 2 = true) ∧
    (∃ (s : State), s.coreOn = true ∧ ∃ (port : LinkPort), s.portUp port = true ∧ s.isTvl port = true) ∧
    (∃ (s : State), s.coreOn = true ∧ ∃ (p : TrunkPort) (eseq : BitVec 7) (h : Nat),
      s.ports[trunk p].echoReq = some (eseq, h) ∧ s.heads ≤ h + 2) ∧
    (∃ (s : State), s.coreOn = true ∧ ∃ (p : TrunkPort), s.beat.delays[p] ≠ [] ∧
      s.beat.delayHead[p] + 16 ≤ s.heads) :=
  ⟨⟨colsUp |>.modPort 0 (fun x => { x with stage := .lock }), 0, by decide +kernel, by decide +kernel,
     { lane := 1, seq := 9, width := 1, lag := 64 }, by decide +kernel⟩,
   ⟨colsUp |>.modPort 3 (fun x => { x with stage := .capx }), 3, by decide +kernel, by decide +kernel,
     { lane := 1, seq := 9, width := 1, lag := 0 }, by decide +kernel⟩,
   ⟨colsUp |> upZero, 0, by decide +kernel⟩,
   ⟨colsUp |> upZero |>.modPort 0 (fun x => { x with reqHead := some 3 }) |> onAll (fun x => { x with heads := 5 }),
     by decide +kernel, 0, by decide +kernel⟩,
   ⟨colsUp |> upZero, by decide +kernel, 0, by decide +kernel⟩,
   ⟨colsUp |>.modPort 0 (fun x => { x with echoReq := some (5, 3) }) |> onAll (fun x => { x with heads := 5 }),
     by decide +kernel, 0, 5, 3, by decide +kernel⟩,
   ⟨colsUp |> onBeat (fun x => { x with delays := vset x.delays 0 [4, 5] }) |> onAll (fun x => { x with heads := 16 }), by decide +kernel, 0,
     by decide +kernel⟩⟩

/-- The hypotheses of Obligations.CreditBlocks can be met. -/
theorem witness_CreditBlocks :
    (∃ (s : State) (port : LinkPort) (tc : Cls) (esc : Bool), s.coreOn = true ∧ s.portUp port = true ∧
      s.isTvl port = true ∧ (esc = false ∨ port.val < 4) ∧ ∃ (count : BitVec 20), s.ports[port].ignoring = false ∧
      (count - (s.credit port tc esc).u).toNat ≤ 4095 ∧ s.ports[port].ownTx = []) ∧
    (∃ (s : State) (port : LinkPort) (tc : Cls) (esc : Bool), s.coreOn = true ∧ s.portUp port = true ∧
      s.isTvl port = true ∧ (esc = false ∨ port.val < 4) ∧ ∃ (count : BitVec 20), s.ports[port].ignoring = false ∧
      4095 < (count - (s.credit port tc esc).u).toNat) ∧
    (∃ (s : State) (port : LinkPort) (esc : Bool), s.coreOn = true ∧ s.portUp port = true ∧ s.isTvl port = true ∧
      (esc = false ∨ port.val < 4)) ∧
    (∃ (s : State) (port : LinkPort), s.coreOn = true ∧ s.portUp port = true ∧ s.isTvl port = true ∧
      s.ports[port].txLanes ≠ 0 ∧ s.fld Reg.DEP_CFG 23 16 ≠ 0 ∧ (∀ c ∈ s.cav.cutTx, c.egress ≠ toEgress port) ∧
      s.ports[port].resyncHead + s.fld Reg.DEP_CFG 23 16 * 256 ≤ s.heads) ∧
    (∃ (s : State) (port : LinkPort), s.coreOn = true ∧ s.portUp port = true ∧ s.isTvl port = true) :=
  ⟨⟨colsUp |> upZero, 0, 0, true, by decide +kernel, by decide +kernel, by decide +kernel, by decide +kernel,
     4095, by decide +kernel⟩,
   ⟨colsUp |> upZero, 0, 0, true, by decide +kernel, by decide +kernel, by decide +kernel, by decide +kernel,
     4096, by decide +kernel⟩,
   ⟨colsUp |> upZero, 0, true, by decide +kernel⟩,
   ⟨colsUp |> upZero |>.setFld Reg.DEP_CFG 23 16 1 |> onAll (fun x => { x with heads := 256 }), 0,
     by decide +kernel⟩,
   ⟨colsUp |> upZero, 0, by decide +kernel⟩⟩

/-- The hypotheses of Obligations.FaultBlocks can be met. -/
theorem witness_FaultBlocks :
    (∃ (s : State), s.coreOn = true ∧ ∃ (port : LinkPort) (lanes : BitVec 4) (i : Nat), s.isTvl port = true ∧
      s.ports[port].stage ≠ .down ∧ i < s.laneCount port ∧ lanes.getLsbD i = true) ∧
    (∃ (s : State), s.coreOn = true ∧ ∃ (lane : LaneIx) (h : Nat), s.lanes[lane].fltAt = some h ∧ h + 2 < s.heads) ∧
    (∃ (s : State), s.coreOn = true ∧ ∃ (port : LinkPort) (i : Nat), s.isTvl port = true ∧
      s.sendLanes port ≠ [] ∧ s.cadence s.ports[port].fltHead 1 = true ∧ i < s.laneCount port ∧ s.fltCode port i = 1) ∧
    (∃ (s : State), s.coreOn = true ∧ ∃ (port : LinkPort) (lane : Fin 4), s.isTvl port = true ∧
      s.ports[port].stage = .degraded ∧ s.ports[port].rxWidth ≠ 0 ∧ s.ports[port].txLanes.getLsbD lane.val = false ∧
      (s.joinSet port).getLsbD lane.val = true ∧ s.ports[port].localFault = false ∧
      (∀ i : Fin 4, (s.joinSet port).getLsbD i.val = true → s.ports[port].txLanes.getLsbD i.val = false →
        s.lanes[laneAt port i.val].dropped = false ∨ 4 ≤ port.val ∨
        (s.lanes[laneAt port i.val].returns.filter fun h => decide (s.heads < h + 16000)).length + 1 ≤ s.fld (Reg.TRK_CFG port.val) 9 2)) ∧
    (∃ (s : State), s.coreOn = true ∧ ∃ (port : TrunkPort) (lane : Fin 4), (s.ports[trunk port].stage = .active ∨
      s.ports[trunk port].stage = .degraded) ∧ s.ports[trunk port].txLanes.getLsbD lane.val = false ∧
      (s.joinSet (trunk port)).getLsbD lane.val = true ∧
      (∀ i : Fin 4, (s.joinSet (trunk port)).getLsbD i.val = true → s.ports[trunk port].txLanes.getLsbD i.val = false →
        s.ports[trunk port].rxLanes.getLsbD i.val = false) ∧ s.ports[trunk port].rxWidth ≠ 0 ∧
      s.lanes[laneAt (trunk port) lane.val].dropped = true ∧
      s.fld (Reg.TRK_CFG port.val) 9 2 < (s.lanes[laneAt (trunk port) lane.val].returns.filter fun h => decide (s.heads < h + 16000)).length + 1) :=
  ⟨⟨colsUp |>.modPort 0 (fun x => { x with stage := .lock }), by decide +kernel, 0, 8, 3, by decide +kernel⟩,
   ⟨colsUp |>.modLane 5 (fun x => { x with fltAt := some 1 }) |> onAll (fun x => { x with heads := 4 }),
     by decide +kernel, 5, 1, by decide +kernel⟩,
   ⟨colsUp |> onPwr (fun x => { x with laneDom := 255 }) |> upZero
     |>.modLane 2 (fun x => { x with trained := true, los := true }), by decide +kernel, 0, 2,
     by decide +kernel⟩,
   ⟨colsUp |>.modLane 0 (fun x => { x with trained := true, lock := .locked, skew := some 0 })
     |>.modLane 1 (fun x => { x with trained := true, lock := .locked, skew := some 0 })
     |>.modLane 2 (fun x => { x with trained := true, lock := .locked, skew := some 0 })
     |>.modLane 3 (fun x => { x with trained := true, lock := .locked, skew := some 0 })
     |>.modPort 0 (fun x => { x with stage := .degraded, rxWidth := 2, txLanes := 3, txWidth := 2, rxLanes := 3 })
     |>.modLane 2 (fun x => { x with healthyAt := some 0 }) |>.modLane 3 (fun x => { x with healthyAt := some 0 })
     |> onAll (fun x => { x with heads := 64 }), by decide +kernel, 0, 3, by decide +kernel⟩,
   ⟨colsUp |>.modLane 0 (fun x => { x with trained := true, lock := .locked, skew := some 0 })
     |>.modLane 1 (fun x => { x with trained := true, lock := .locked, skew := some 0 })
     |>.modLane 2 (fun x => { x with trained := true, lock := .locked, skew := some 0 })
     |>.modLane 3 (fun x => { x with trained := true, lock := .locked, skew := some 0 })
     |>.modPort 0 (fun x => { x with stage := .degraded, rxWidth := 2, txLanes := 3, txWidth := 2, rxLanes := 3 })
     |>.modLane 2 (fun x => { x with healthyAt := some 0 }) |>.modLane 3 (fun x => { x with healthyAt := some 0, dropped := true })
     |> onAll (fun x => { x with heads := 64 }) |>.setFld (Reg.TRK_CFG 0) 9 2 0, by decide +kernel, 0, 3,
     by decide +kernel⟩⟩

/-- The hypotheses of Obligations.LoopRequests can be met. -/
theorem witness_LoopRequests :
    (∃ (s : State), s.coreOn = true ∧ ∃ (port : LinkPort) (i : Fin 4), s.isTvl port = true ∧
      s.ports[port].stage ≠ .down ∧ i.val < s.laneCount port ∧
      s.bit (Reg.LANE_LOOP (laneAt port i.val).val) 3 = true ∧ s.lanes[laneAt port i.val].faulty = false) ∧
    (∃ (s : State), s.coreOn = true ∧ ∃ (port : LinkPort) (i : Fin 4), s.isTvl port = true ∧
      s.ports[port].stage ≠ .down ∧ i.val < s.laneCount port ∧
      s.bit (Reg.LANE_LOOP (laneAt port i.val).val) 3 = false) ∧
    (∃ (s : State), s.coreOn = true ∧ ∃ (port : LinkPort) (i : Fin 4), i.val < s.laneCount port ∧
      s.lanes[laneAt port i.val].lpbkHeads.isSome = true) ∧
    (∃ (s : State), s.coreOn = true ∧ ∃ (port : LinkPort) (i : Fin 4), i.val < s.laneCount port) ∧
    (∃ (s : State), s.coreOn = true ∧ ∃ (lane : LaneIx), s.lanes[lane].lpbkHeads.isSome = true ∧
      s.isTvl (s.portOfLane lane) = true ∧ s.cadence s.lanes[lane].lpbkSent 1 = true) ∧
    (∃ (s : State), s.coreOn = true ∧ ∃ (lane : LaneIx) (h : Nat), s.lanes[lane].lpbkHeads = some h ∧
      h + 16 ≤ s.heads) ∧
    (∃ (s : State), s.coreOn = true ∧ ∃ (m : Master) (lane : LaneIx) (data : Word),
      s.Takes m (Reg.LANE_LOOP lane.val) ∧ data = 1) ∧
    (∃ (s : State), s.coreOn = true ∧ ∃ (m : Master) (lane : LaneIx) (data : Word),
      s.Takes m (Reg.LANE_LOOP lane.val) ∧ data = 7) :=
  ⟨⟨colsUp |>.modPort 0 (fun x => { x with stage := .train }) |>.modLane 3 (fun x => { x with lock := .locked })
     |>.setBit (Reg.LANE_LOOP 3) 3 true,
     by decide +kernel, 0, 3, by decide +kernel⟩,
   ⟨colsUp |>.modPort 0 (fun x => { x with stage := .lock }), by decide +kernel, 0, 3, by decide +kernel⟩,
   ⟨colsUp |>.modLane 3 (fun x => { x with lpbkHeads := some 2 }), by decide +kernel, 0, 3, by decide +kernel⟩,
   ⟨colsUp |>.modLane 0 (fun x => { x with remoteLoop := true }), by decide +kernel, 0, 0, by decide +kernel⟩,
   ⟨colsUp |>.modLane 3 (fun x => { x with lpbkHeads := some 2 }), by decide +kernel, 3, by decide +kernel⟩,
   ⟨colsUp |>.modLane 3 (fun x => { x with lpbkHeads := some 2 }) |> onAll (fun x => { x with heads := 18 }),
     by decide +kernel, 3, 2, by decide +kernel⟩,
   ⟨colsUp, by decide +kernel, 0, 31, 1, takes_of_takesB (by decide +kernel), by decide +kernel⟩,
   ⟨colsUp, by decide +kernel, 0, 31, 7, takes_of_takesB (by decide +kernel), by decide +kernel⟩⟩

/-- The hypotheses of Obligations.CouplingLevels can be met. -/
theorem witness_CouplingLevels :
    (∃ (s : State) (p : TrunkPort), s.coreOn = true ∧ s.pwr.state = .active ∧ s.ports[trunk p].coupled = false ∧
      p = 3) ∧
    (∃ (s : State) (p : TrunkPort), s.coreOn = true ∧ s.pwr.state = .active ∧ s.ports[trunk p].coupled = false ∧
      p = 0) ∧
    (∃ (s : State) (p : TrunkPort), s.coreOn = true ∧ s.pwr.state = .active ∧ s.ports[trunk p].coupled = true) :=
  ⟨⟨colsUp |> onPwr (fun x => { x with laneDom := 255 }) |>.setBit (Reg.TRK_CFG 3) 0 true
     |>.setBit Reg.GLB_REFCLK 3 true, 3, by decide +kernel⟩,
   ⟨colsUp |> onAll (fun x => { x with heads := 1 }), 0, by decide +kernel⟩,
   ⟨colsUp |> onPwr (fun x => { x with laneDom := 255 }) |> upZero, 0, by decide +kernel⟩⟩

/-- The hypotheses of Obligations.PortSettings can be met. -/
theorem witness_PortSettings :
    (∃ (s : State) (m : Master) (data : Word), s.coreOn = true ∧ ∃ (p : TrunkPort), s.Takes m (Reg.TRK_CFG p.val) ∧
      data = 0 ∧ p = 0) ∧
    (∃ (s : State) (m : Master) (data : Word), s.coreOn = true ∧ ∃ (p : TrunkPort), s.Takes m (Reg.TRK_CFG p.val) ∧
      data = 0xFFFFFFFF ∧ p = 3) ∧
    (∃ (s : State) (m : Master) (data : Word), s.coreOn = true ∧ ∃ (n : LocalPort), s.Takes m (Reg.LOC_MODE n.val) ∧
      s.bonded (n.val / 4) = false ∧ data = 1 ∧ n = 15) ∧
    (∃ (s : State) (m : Master) (data : Word), s.coreOn = true ∧ ∃ (n : LocalPort), s.Takes m (Reg.LOC_MODE n.val) ∧
      s.bonded (n.val / 4) = false ∧ data = 2 ∧ n = 0) ∧
    (∃ (s : State) (m : Master) (data : Word), s.coreOn = true ∧ ∃ (n : LocalPort), s.Takes m (Reg.LOC_MODE n.val) ∧
      s.bonded (n.val / 4) = false ∧ s.fld Reg.LOC_GROUP 3 0 = s.fld Reg.LOC_GROUP 7 4 ∧ data = 3 ∧ n = 0) ∧
    (∃ (s : State) (m : Master) (data : Word), s.coreOn = true ∧ ∃ (n : LocalPort), s.Takes m (Reg.LOC_MODE n.val) ∧
      s.bonded (n.val / 4) = true ∧ s.fld Reg.LOC_GROUP 3 0 = s.fld Reg.LOC_GROUP 7 4 ∧ s.ports[loc n].modeAct = 1 ∧ bitsOf data 1 0 ≠ 1 ∧
      n = 3) ∧
    (∃ (s : State) (m : Master) (data : Word), s.coreOn = true ∧ s.Takes m Reg.LOC_GROUP ∧ data = 1) ∧
    (∃ (s : State) (m : Master) (data : Word), s.coreOn = true ∧ s.Takes m Reg.LOC_GROUP ∧ data = 9) :=
  ⟨⟨colsUp |> upZero |> onPwr (fun x => { x with laneDom := 255 }), 0, 0, by decide +kernel, 0,
     takes_of_takesB (by decide +kernel), by decide +kernel⟩,
   ⟨colsUp |> upZero |> onPwr (fun x => { x with laneDom := 255 }), 0, 0xFFFFFFFF, by decide +kernel, 3,
     takes_of_takesB (by decide +kernel), by decide +kernel⟩,
   ⟨colsUp |> onPwr (fun x => { x with laneDom := 255 }), 0, 1, by decide +kernel, 15,
     takes_of_takesB (by decide +kernel), by decide +kernel⟩,
   ⟨colsUp |> onPwr (fun x => { x with laneDom := 255 }), 0, 2, by decide +kernel, 0,
     takes_of_takesB (by decide +kernel), by decide +kernel⟩,
   ⟨colsUp |> onPwr (fun x => { x with laneDom := 255 }), 0, 3, by decide +kernel, 0,
     takes_of_takesB (by decide +kernel), by decide +kernel⟩,
   ⟨colsUp |> onPwr (fun x => { x with laneDom := 255 }) |>.setReg Reg.LOC_GROUP 0x11 |>.modPort 7 (fun x => { x with modeAct := 1 }),
     0, 2, by decide +kernel, 3, takes_of_takesB (by decide +kernel), by decide +kernel⟩,
   ⟨colsUp |> onPwr (fun x => { x with laneDom := 255 }), 0, 1, by decide +kernel,
     takes_of_takesB (by decide +kernel), by decide +kernel⟩,
   ⟨colsUp |> onPwr (fun x => { x with laneDom := 255 }) |>.modPort 4 (fun x => { x with modeAct := 1 })
     |>.modPort 5 (fun x => { x with modeAct := 1 }) |>.modPort 6 (fun x => { x with modeAct := 1 })
     |>.modPort 7 (fun x => { x with modeAct := 1 }) |>.modPort 8 (fun x => { x with modeAct := 1 })
     |>.modPort 9 (fun x => { x with modeAct := 1 }) |>.modPort 10 (fun x => { x with modeAct := 1 })
     |>.modPort 11 (fun x => { x with modeAct := 1 }) |>.modPort 12 (fun x => { x with modeAct := 1 })
     |>.modPort 13 (fun x => { x with modeAct := 1 }) |>.modPort 14 (fun x => { x with modeAct := 1 })
     |>.modPort 15 (fun x => { x with modeAct := 1 }) |>.modPort 16 (fun x => { x with modeAct := 1 })
     |>.modPort 17 (fun x => { x with modeAct := 1 }) |>.modPort 18 (fun x => { x with modeAct := 1 })
     |>.modPort 19 (fun x => { x with modeAct := 1 }), 0, 9, by decide +kernel, takes_of_takesB (by decide +kernel),
     by decide +kernel⟩⟩

/-- The hypotheses of Obligations.BringUpFromDown can be met. -/
theorem witness_BringUpFromDown :
    (∃ (s : State) (p : LinkPort), s.coreOn = true ∧ s.ports[p].stage = .down ∧ s.portEnabled p = true ∧
      s.ports[p].stageHead < s.heads ∧ s.fastReturn p = true) ∧
    (∃ (s : State) (p : LinkPort), s.coreOn = true ∧ s.ports[p].stage = .down ∧ s.portEnabled p = true ∧
      s.ports[p].stageHead < s.heads ∧ s.fastReturn p = false) ∧
    (∃ (s : State) (p : LinkPort), s.coreOn = true ∧ s.ports[p].stage = .detect ∧ s.portEnabled p = true ∧
      p.val < 4 ∧ s.ports[p].coupled = false) ∧
    (∃ (s : State) (p : LinkPort), s.coreOn = true ∧ s.ports[p].stage = .detect ∧ s.portEnabled p = true ∧
      ∃ (lanes : BitVec 4) (i : Nat), (p.val < 4 → s.ports[p].coupled = true) ∧ i < s.laneCount p ∧ lanes.getLsbD i = true ∧
      s.lanes[laneAt p i].trained = false ∧ s.rateMix (laneAt p i) = false) ∧
    (∃ (s : State) (p : LinkPort), s.coreOn = true ∧ s.ports[p].stage = .detect ∧ s.portEnabled p = true) ∧
    (∃ (s : State) (p : LinkPort), s.coreOn = true ∧ s.ports[p].stage = .detect) ∧
    (∃ (s : State) (p : LinkPort), s.coreOn = true ∧ s.ports[p].stage = .train ∧ (∃ i, i < s.laneCount p ∧
      s.inTraining p i = true) ∧ (∀ i,
      i < s.laneCount p → s.inTraining p i = true → s.lanes[laneAt p i].trained = true)) :=
  ⟨⟨colsUp |> onPwr (fun x => { x with laneDom := 255 }) |>.setBit (Reg.TRK_CFG 0) 0 true
     |>.setBit Reg.GLB_REFCLK 0 true |> onAll (fun x => { x with heads := 1 }) |>.setBit (Reg.TRK_CFG 0) 10 true
     |>.modPort 0 (fun x => { x with lossHead := some 0, coupledKept := true, leftLock := 1 })
     |>.modLane 0 (fun x => { x with trained := true }), 0, by decide +kernel⟩,
   ⟨colsUp |> onPwr (fun x => { x with laneDom := 255 }) |>.setBit (Reg.TRK_CFG 0) 0 true
     |>.setBit Reg.GLB_REFCLK 0 true |> onAll (fun x => { x with heads := 1 }), 0, by decide +kernel⟩,
   ⟨colsUp |> onPwr (fun x => { x with laneDom := 255 }) |>.setBit (Reg.TRK_CFG 0) 0 true
     |>.setBit Reg.GLB_REFCLK 0 true |> onAll (fun x => { x with heads := 1 })
     |>.modPort 0 (fun x => { x with stage := .detect }), 0, by decide +kernel⟩,
   ⟨colsUp |> onPwr (fun x => { x with laneDom := 255 }) |>.setBit (Reg.TRK_CFG 0) 0 true
     |>.setBit Reg.GLB_REFCLK 0 true |> onAll (fun x => { x with heads := 1 })
     |>.modPort 0 (fun x => { x with stage := .detect, coupled := true }), 0, by decide +kernel, by decide +kernel,
     by decide +kernel, 8, 3, by decide +kernel⟩,
   ⟨colsUp |> onPwr (fun x => { x with laneDom := 255 }) |>.setBit (Reg.TRK_CFG 0) 0 true
     |>.setBit Reg.GLB_REFCLK 0 true |> onAll (fun x => { x with heads := 1 })
     |>.modPort 0 (fun x => { x with stage := .detect }), 0, by decide +kernel⟩,
   ⟨colsUp |> onPwr (fun x => { x with laneDom := 255 }) |>.setBit (Reg.TRK_CFG 0) 0 true
     |>.setBit Reg.GLB_REFCLK 0 true |> onAll (fun x => { x with heads := 1 })
     |>.modPort 0 (fun x => { x with stage := .detect }), 0, by decide +kernel⟩,
   ⟨colsUp |>.modPort 0 (fun x => { x with stage := .train })
     |>.modLane 3 (fun x => { x with detected := true, trained := true }), 0, by decide +kernel⟩⟩

/-- The hypotheses of Obligations.BringUpTimeouts can be met. -/
theorem witness_BringUpTimeouts :
    (∃ (s : State) (p : LinkPort), s.coreOn = true ∧ s.ports[p].stage = .lock ∧ (∃ i, i < s.laneCount p ∧
      s.lanes[laneAt p i].trained = true) ∧ (∀ i,
      i < s.laneCount p → s.lanes[laneAt p i].trained = true → s.laneReady p i = true)) ∧
    (∃ (s : State) (p : LinkPort), s.coreOn = true ∧ s.ports[p].stage = .train ∧ (∃ i, i < s.laneCount p ∧
      s.lanes[laneAt p i].trained = true)) ∧
    (∃ (s : State) (p : LinkPort), s.coreOn = true ∧ s.ports[p].stage = .train ∧ (∀ i,
      i < s.laneCount p → s.lanes[laneAt p i].trained = false)) ∧
    (∃ (s : State) (p : LinkPort), s.coreOn = true ∧ s.ports[p].stage = .lock ∧
      maskOf (s.laneCount p) (s.laneReady p) ≠ 0) ∧
    (∃ (s : State) (p : LinkPort), s.coreOn = true ∧ s.ports[p].stage = .lock ∧
      maskOf (s.laneCount p) (s.laneReady p) = 0) ∧
    (∃ (s : State) (p : LinkPort), s.coreOn = true ∧ s.ports[p].stage = .capx ∧ s.ports[p].agreed = false ∧
      s.ports[p].refuse = 0 ∧ p = 0) ∧
    (∃ (s : State) (p : LinkPort), s.coreOn = true ∧ s.ports[p].stage = .capx ∧ s.ports[p].agreed = false ∧
      s.ports[p].refuse = 0 ∧ p = 19) :=
  ⟨⟨colsUp |>.modPort 0 (fun x => { x with stage := .lock })
     |>.modLane 3 (fun x => { x with trained := true, lock := .locked, skew := some 0 }), 0, by decide +kernel⟩,
   ⟨colsUp |>.modPort 0 (fun x => { x with stage := .train })
     |>.modLane 3 (fun x => { x with trained := true }), 0, by decide +kernel⟩,
   ⟨colsUp |>.modPort 0 (fun x => { x with stage := .train }), 0, by decide +kernel⟩,
   ⟨colsUp |>.modPort 0 (fun x => { x with stage := .lock })
     |>.modLane 3 (fun x => { x with trained := true, lock := .locked, skew := some 0 }), 0, by decide +kernel⟩,
   ⟨colsUp |>.modPort 0 (fun x => { x with stage := .lock }), 0, by decide +kernel⟩,
   ⟨colsUp |>.modPort 0 (fun x => { x with stage := .capx }), 0, by decide +kernel⟩,
   ⟨colsUp |>.modPort 19 (fun x => { x with stage := .capx }), 19, by decide +kernel⟩⟩

/-- The hypotheses of Obligations.CapabilityExchange can be met. -/
theorem witness_CapabilityExchange :
    (∃ (s : State) (p : LinkPort), s.coreOn = true ∧ s.ports[p].stage = .capx ∧ ∃ (lane : Fin 4) (cap : CapRecord),
      s.ports[p].leftLock = BitVec.ofNat 4 (2 ^ lane.val) ∧ capValid cap = true ∧ s.ports[p].caps[lane] = some (cap,
      2) ∧ s.capCheck p cap = 0) ∧
    (∃ (s : State) (p : LinkPort), s.coreOn = true ∧ s.ports[p].stage = .capx ∧ ∃ (lane : Fin 4) (cap : CapRecord),
      s.ports[p].leftLock = BitVec.ofNat 4 (2 ^ lane.val) ∧ capValid cap = true ∧ s.ports[p].caps[lane] = some (cap,
      2) ∧ s.capCheck p cap ≠ 0) ∧
    (∃ (s : State) (p : LinkPort), s.coreOn = true ∧ s.ports[p].stage = .capx ∧ ∃ (cap : CapRecord),
      s.ports[p].agreed = true ∧ s.capAgreed p = some cap) :=
  ⟨⟨colsUp
     |>.modPort 4 (fun x => { x with stage := .capx, leftLock := 8, caps := vset x.caps 3 (some ((capOf true (~~~ Config.hubId)), 2)) }),
     4, by decide +kernel, by decide +kernel, 3, (capOf true (~~~ Config.hubId)), by decide +kernel,
     by decide +kernel, rfl,
     by
      unfold State.capCheck capOf
      rw [if_neg (by decide), if_neg (by decide), if_neg (compl_ne _), if_neg (by decide)]⟩,
   ⟨colsUp
     |>.modPort 0 (fun x => { x with stage := .capx, leftLock := 8, caps := vset x.caps 3 (some ((capOf false Config.hubId), 2)) }),
     0, by decide +kernel, by decide +kernel, 3, (capOf false Config.hubId), by decide +kernel, by decide +kernel,
     rfl,
     by
      unfold State.capCheck capOf
      rw [if_pos (by decide), if_neg (by decide), if_neg (by decide), if_pos rfl]
      decide⟩,
   ⟨colsUp
     |>.modPort 0 (fun x => { x with stage := .capx, agreed := true, leftLock := 8, caps := vset x.caps 3 (some ((capOf false 5), 3)) })
     |>.modLane 0 (fun x => { x with trained := true, lock := .locked, skew := some 0 })
     |>.modLane 1 (fun x => { x with trained := true, lock := .locked, skew := some 0 })
     |>.modLane 2 (fun x => { x with trained := true, lock := .locked, skew := some 0 })
     |>.modLane 3 (fun x => { x with trained := true, lock := .locked, skew := some 0 })
     |> onPwr (fun x => { x with laneDom := 255 }), 0, by decide +kernel, by decide +kernel, (capOf false 5),
     by decide +kernel⟩⟩

/-- The hypotheses of Obligations.AdmissionMessages can be met. -/
theorem witness_AdmissionMessages :
    (∃ (s : State) (p : TrunkPort) (payload : List Byte), s.coreOn = true ∧ s.portUp (trunk p) = true ∧ s.ports[trunk p].discarding = false ∧
      ∃ (c : Instr), ((c = .keyHelloReceived p payload ∧ keyFormOk payload 1 144 = false) ∨
      (c = .keyFinishReceived p payload ∧ keyFormOk payload 2 64 = false) ∨ (c = .keyResumeReceived p payload ∧
      keyFormOk payload 3 96 = false) ∨ (c = .keyFailReceived p payload ∧ keyFormOk payload 5 8 = false)) ∧
      c = .keyHelloReceived 0 []) ∧
    (∃ (s : State) (p : TrunkPort) (payload : List Byte), s.coreOn = true ∧ s.portUp (trunk p) = true ∧ s.ports[trunk p].discarding = false ∧
      ∃ (c : Instr), ((c = .keyHelloReceived p payload ∧ keyFormOk payload 1 144 = false) ∨
      (c = .keyFinishReceived p payload ∧ keyFormOk payload 2 64 = false) ∨ (c = .keyResumeReceived p payload ∧
      keyFormOk payload 3 96 = false) ∨ (c = .keyFailReceived p payload ∧ keyFormOk payload 5 8 = false)) ∧
      c = .keyFinishReceived 0 []) ∧
    (∃ (s : State) (p : TrunkPort) (payload : List Byte), s.coreOn = true ∧ s.portUp (trunk p) = true ∧ s.ports[trunk p].discarding = false ∧
      ∃ (c : Instr), ((c = .keyHelloReceived p payload ∧ keyFormOk payload 1 144 = false) ∨
      (c = .keyFinishReceived p payload ∧ keyFormOk payload 2 64 = false) ∨ (c = .keyResumeReceived p payload ∧
      keyFormOk payload 3 96 = false) ∨ (c = .keyFailReceived p payload ∧ keyFormOk payload 5 8 = false)) ∧
      c = .keyResumeReceived 0 []) ∧
    (∃ (s : State) (p : TrunkPort) (payload : List Byte), s.coreOn = true ∧ s.portUp (trunk p) = true ∧ s.ports[trunk p].discarding = false ∧
      ∃ (c : Instr), ((c = .keyHelloReceived p payload ∧ keyFormOk payload 1 144 = false) ∨
      (c = .keyFinishReceived p payload ∧ keyFormOk payload 2 64 = false) ∨ (c = .keyResumeReceived p payload ∧
      keyFormOk payload 3 96 = false) ∨ (c = .keyFailReceived p payload ∧ keyFormOk payload 5 8 = false)) ∧
      c = .keyFailReceived 0 []) ∧
    (∃ (s : State) (p : TrunkPort) (payload : List Byte), s.coreOn = true ∧ s.portUp (trunk p) = true ∧ s.ports[trunk p].discarding = false ∧
      ∃ (f : BitVec 8), keyFormOk payload 1 144 = true ∧ s.geode.agents[p].hello ≠ [] ∧
      BitVec.ofNat 64 (leNat (slice payload 4 8)) = s.partnerId (trunk p) ∧
      f = ({ s.geode.agents[p] with peerHello := payload } : KeyAgent).fleet (s.partnerId (trunk p)) ∧
      s.fleetUsable f = true) ∧
    (∃ (s : State) (p : TrunkPort) (payload : List Byte), s.coreOn = true ∧ s.portUp (trunk p) = true ∧ s.ports[trunk p].discarding = false ∧
      keyFormOk payload 2 64 = true ∧ s.geode.agents[p].running = true ∧ s.geode.agents[p].txKey.isSome = true ∧
      slice payload 16 48 = s.finishMac p (payload.getD 12 0) ∧ s.geode.agents[p].rekey = false) ∧
    (∃ (s : State) (p : TrunkPort) (payload : List Byte), s.coreOn = true ∧ s.portUp (trunk p) = true ∧ s.ports[trunk p].discarding = false ∧
      keyFormOk payload 2 64 = true ∧ s.geode.agents[p].running = true ∧ s.geode.agents[p].txKey.isSome = true ∧
      slice payload 16 48 ≠ s.finishMac p (payload.getD 12 0)) ∧
    (∃ (s : State) (p : TrunkPort) (payload : List Byte), s.coreOn = true ∧ s.portUp (trunk p) = true ∧ s.ports[trunk p].discarding = false ∧
      keyFormOk payload 3 96 = true ∧ s.ports[trunk p].adm = .closed ∧ s.rkOf p = none) ∧
    (∃ (s : State) (p : TrunkPort) (payload : List Byte), s.coreOn = true ∧ s.portUp (trunk p) = true ∧ s.ports[trunk p].discarding = false ∧
      keyFormOk payload 5 8 = true ∧ s.geode.agents[p].running = true) :=
  ⟨⟨colsUp |> upZero, 0, [], by decide +kernel, by decide +kernel, by decide +kernel, .keyHelloReceived 0 [], by decide +kernel⟩,
   ⟨colsUp |> upZero, 0, [], by decide +kernel, by decide +kernel, by decide +kernel, .keyFinishReceived 0 [], by decide +kernel⟩,
   ⟨colsUp |> upZero, 0, [], by decide +kernel, by decide +kernel, by decide +kernel, .keyResumeReceived 0 [], by decide +kernel⟩,
   ⟨colsUp |> upZero, 0, [], by decide +kernel, by decide +kernel, by decide +kernel, .keyFailReceived 0 [], by decide +kernel⟩,
   ⟨colsUp |> upZero
     |>.modAgent 0 (fun x => { x with hello := ([1, 1, 0, 0] ++ idBytes Config.hubId ++ [5, 0, 0, 0] ++ List.replicate 128 0), running := true })
     |>.modPort 0 (fun x => { x with partner := some ((capOf false 7)) })
     |>.modSlot 5 (fun x => { x with bank0 := { x.bank0 with valid := true, attr := mkAttr [0, 3, 5] 0 1, value := List.replicate 48 9 } }),
     0, ([1, 1, 0, 0] ++ idBytes 7 ++ [5, 0, 0, 0] ++ List.replicate 128 0), by decide +kernel, by decide +kernel, by decide +kernel,
     5, by decide +kernel, by decide +kernel, by decide +kernel,
     by
      unfold KeyAgent.fleet KeyAgent.ordered
      split <;> rfl, by decide +kernel⟩,
   ⟨stAdmissionMessages20, 0, ([1, 2, 0, 0] ++ idBytes 7 ++ [1, 0, 0, 0] ++ stAdmissionMessages20.finishMac 0 1),
     by decide +kernel, by decide +kernel, by decide +kernel, by
      simp [keyFormOk, byteAt, finishMac_length, idBytes, leBytes],
     by decide +kernel, by decide +kernel, slice_tail_of rfl (finishMac_length _ _ _), by decide +kernel⟩,
   ⟨stAdmissionMessages30, 0,
     ([1, 2, 0, 0] ++ idBytes 7 ++ [1, 0, 0, 0] ++ (stAdmissionMessages30.finishMac 0 1).map fun b => ~~~b),
     by decide +kernel, by decide +kernel, by decide +kernel, by
      simp [keyFormOk, byteAt, finishMac_length, idBytes, leBytes],
     by decide +kernel, by decide +kernel, slice_inverted_ne rfl (finishMac_length _ _ _)⟩,
   ⟨colsUp |> upZero |>.modPort 0 (fun x => { x with partner := some ((capOf false 7)) }), 0,
     ([1, 3] ++ List.replicate 94 0), by decide +kernel⟩,
   ⟨colsUp |> upZero
     |>.modAgent 0 (fun x => { x with hello := ([1, 1, 0, 0] ++ idBytes Config.hubId ++ [5, 0, 0, 0] ++ List.replicate 128 0), peerHello := ([1, 1, 0, 0] ++ idBytes 7 ++ [5, 0, 0, 0] ++ List.replicate 128 0), running := true, txKey := some 200 })
     |>.modPort 0 (fun x => { x with partner := some ((capOf false 7)) })
     |>.modSlot 5 (fun x => { x with bank0 := { x.bank0 with valid := true, attr := mkAttr [0, 3, 5] 0 1, value := List.replicate 48 9 } })
     |>.modSlot 200 (fun x => { x with bank0 := { x.bank0 with valid := true, attr := mkAttr [0, 1, 10] 0 3, value := List.replicate 32 9 } }),
     0, [1, 5, 0, 0, 1, 0, 0, 0], by decide +kernel⟩⟩

/-- The hypotheses of Obligations.AdmissionTimes can be met. -/
theorem witness_AdmissionTimes :
    (∃ (s : State), s.coreOn = true ∧ ∃ (p : TrunkPort), s.geode.agents[p].running = true ∧
      s.ports[trunk p].authHead + 640 ≤ s.heads) ∧
    (∃ (s : State), s.coreOn = true ∧ ∃ (p : TrunkPort) (h : Nat), s.ports[trunk p].retryHead = some h ∧
      h + 16000 ≤ s.heads ∧ s.portUp (trunk p) = true ∧ s.ports[trunk p].adm = .closed) ∧
    (∃ (s : State), s.coreOn = true ∧ ∃ (p : TrunkPort), s.ports[trunk p].adm = .admitted ∧
      s.geode.agents[p].running = false ∧ s.ports[trunk p].retryHead = none ∧ Config.hubId.toNat < (s.partnerId (trunk p)).toNat ∧
      s.reg Reg.SEC_REKEY ≠ 0 ∧ s.geode.agents[p].admitHead + (s.reg Reg.SEC_REKEY).toNat ≤ s.heads) ∧
    (∃ (s : State), s.coreOn = true ∧ ∃ (p : LinkPort) (a : Assoc), s.portUp p = true ∧ (s.gcmEngine p).isSome = true ∧ s.geode.assocs = [a] ∧
      a.port = p ∧ a.stopped = false ∧ a.transmit = true ∧ a.ctr.toNat + 2 < 2 ^ 64 ∧ s.ports[p].syncHead < s.heads) ∧
    (∃ (s : State), s.coreOn = true ∧ ∃ (p : LinkPort) (a : Assoc), s.portUp p = true ∧ (s.gcmEngine p).isSome = true ∧ s.geode.assocs = [a] ∧
      a.port = p ∧ a.stopped = false ∧ a.transmit = false ∧ s.ports[p].discarding = false ∧ ∃ (payload : List Byte), keyFormOk payload 4 32 = true ∧
      payload.getD 4 0 = a.sa ∧
      slice payload 16 16 = syncMac a a.sa (BitVec.ofNat 64 (leNat (slice payload 8 8))) ∧
      a.ctr.toNat ≤ (BitVec.ofNat 64 (leNat (slice payload 8 8))).toNat) ∧
    (∃ (s : State), s.coreOn = true ∧ ∃ (p : LinkPort) (a : Assoc), s.portUp p = true ∧ (s.gcmEngine p).isSome = true ∧ s.geode.assocs = [a] ∧
      a.port = p ∧ a.stopped = false ∧ a.transmit = false ∧ s.ports[p].discarding = false ∧ ∃ (payload : List Byte), keyFormOk payload 4 32 = true ∧
      payload.getD 4 0 = a.sa ∧
      slice payload 16 16 ≠ syncMac a a.sa (BitVec.ofNat 64 (leNat (slice payload 8 8)))) :=
  ⟨⟨colsUp |> upZero
     |>.modAgent 0 (fun x => { x with hello := ([1, 1, 0, 0] ++ idBytes Config.hubId ++ [5, 0, 0, 0] ++ List.replicate 128 0), peerHello := ([1, 1, 0, 0] ++ idBytes 7 ++ [5, 0, 0, 0] ++ List.replicate 128 0), running := true, txKey := some 200 })
     |>.modPort 0 (fun x => { x with partner := some ((capOf false 7)) })
     |>.modSlot 5 (fun x => { x with bank0 := { x.bank0 with valid := true, attr := mkAttr [0, 3, 5] 0 1, value := List.replicate 48 9 } })
     |>.modSlot 200 (fun x => { x with bank0 := { x.bank0 with valid := true, attr := mkAttr [0, 1, 10] 0 3, value := List.replicate 32 9 } })
     |> onAll (fun x => { x with heads := 640 }), by decide +kernel, 0, by decide +kernel⟩,
   ⟨colsUp |> upZero |>.modPort 0 (fun x => { x with partner := some ((capOf false 7)) })
     |>.modPort 0 (fun x => { x with retryHead := some 0 }) |> onAll (fun x => { x with heads := 16000 }),
     by decide +kernel, 0, 0, by decide +kernel⟩,
   ⟨colsUp |> upZero |>.modPort 0 (fun x => { x with adm := .admitted })
     |>.modPort 0 (fun x => { x with partner := some ({ rate := 1, rates := 7, lanes := 4, backbone := 0, carEnd := 0, seat := 2, role := 0, cl := 1, keySlot := 0, sat := false, id := ~~~ (0 : BitVec 64) }) })
     |>.setReg Reg.SEC_REKEY 5 |> onAll (fun x => { x with heads := 5 }), by decide +kernel, 0, by decide +kernel,
     by decide +kernel, by decide +kernel, hubId_toNat.2, by decide +kernel⟩,
   ⟨colsUp |> upZero |> onGeode (fun x => { x with assocs := [(assocOf true)] }) |> onAll (fun x => { x with heads := 1 }), by decide +kernel, 0,
     (assocOf true), by decide +kernel⟩,
   ⟨colsUp |> upZero |> onGeode (fun x => { x with assocs := [(assocOf false)] }), by decide +kernel, 0,
     (assocOf false), by decide +kernel, by decide +kernel, by decide +kernel, by decide +kernel, by decide +kernel,
     by decide +kernel, by decide +kernel,
     ([1, 4, 0, 0, 1, 0, 0, 0] ++ leBytes 8 9 ++ syncMac (assocOf false) 1 9), by decide +kernel, by decide +kernel,
     ⟨by rw [sync_counter]; exact slice_tail_of (n := 16) (by simp [leBytes]) (syncMac_length _ _ _), by rw [sync_counter]; decide⟩⟩,
   ⟨colsUp |> upZero |> onGeode (fun x => { x with assocs := [(assocOf false)] }), by decide +kernel, 0,
     (assocOf false), by decide +kernel, by decide +kernel, by decide +kernel, by decide +kernel, by decide +kernel,
     by decide +kernel, by decide +kernel,
     ([1, 4, 0, 0, 1, 0, 0, 0] ++ leBytes 8 9 ++ (syncMac (assocOf false) 1 9).map fun b => ~~~b), by decide +kernel,
     by decide +kernel, by rw [sync_counter]; exact slice_inverted_ne (m := 16) (by simp [leBytes]) (syncMac_length _ _ _)⟩⟩

/-- The hypotheses of Obligations.EchoFrames can be met. -/
theorem witness_EchoFrames :
    (∃ (s : State) (p : TrunkPort) (e : EchoPayload), s.coreOn = true ∧ s.portUp (trunk p) = true ∧ s.ports[trunk p].discarding = false ∧
      (s.pepPasses e.pep || s.joint p) = false) ∧
    (∃ (s : State) (p : TrunkPort) (e : EchoPayload), s.coreOn = true ∧ s.portUp (trunk p) = true ∧ s.ports[trunk p].discarding = false ∧
      (s.pepPasses e.pep || s.joint p) = true ∧ s.ports[trunk p].adm ≠ .admitted) ∧
    (∃ (s : State) (p : TrunkPort) (e : EchoPayload), s.coreOn = true ∧ s.portUp (trunk p) = true ∧ s.ports[trunk p].discarding = false ∧
      (s.pepPasses e.pep || s.joint p) = true ∧ s.ports[trunk p].adm = .admitted ∧ (e.ver ≠ 1 ∨ e.n = 0 ∨
      64 < e.n.toNat) ∧ e.ver = 1) ∧
    (∃ (s : State) (p : TrunkPort) (e : EchoPayload), s.coreOn = true ∧ s.portUp (trunk p) = true ∧ s.ports[trunk p].discarding = false ∧
      (s.pepPasses e.pep || s.joint p) = true ∧ s.ports[trunk p].adm = .admitted ∧ (e.ver ≠ 1 ∨ e.n = 0 ∨
      64 < e.n.toNat) ∧ e.ver = 2) ∧
    (∃ (s : State) (p : TrunkPort) (e : EchoPayload), s.coreOn = true ∧ s.portUp (trunk p) = true ∧ s.ports[trunk p].discarding = false ∧
      (s.pepPasses e.pep || s.joint p) = true ∧ s.ports[trunk p].adm = .admitted ∧ ∃ (r : HubRecord), e.ver = 1 ∧
      e.n = 1 ∧ e.hubs = [r] ∧ e.assigns.length ≤ 64 ∧ e.merge = none ∧ r.id ≠ Config.hubId ∧ r.id ≠ 0 ∧
      s.recordOf r.id = none ∧ heldLink s.ownRecord r = true ∧ s.echo.master = Config.hubId) ∧
    (∃ (s : State) (p : TrunkPort), s.coreOn = true ∧ s.portUp (trunk p) = true ∧ s.heads < s.ports[trunk p].echoTx + 16) ∧
    (∃ (s : State) (p : TrunkPort), s.coreOn = true ∧ s.portUp (trunk p) = true ∧ s.ports[trunk p].adm = .admitted ∧
      s.ports[trunk p].echoTx + 16 ≤ s.heads ∧ s.merges = []) :=
  ⟨⟨colsUp |> upZero |> onEcho (fun x => { x with members := [7, Config.hubId] })
     |>.modPort 0 (fun x => { x with partner := some ((capOf false 7)) }), 0, { echoPlain with pep := 5 },
     by decide +kernel⟩,
   ⟨colsUp |> upZero |>.modPort 0 (fun x => { x with partner := some ((capOf false 7)) }), 0, echoPlain,
     by decide +kernel⟩,
   ⟨colsUp |> upZero |>.modPort 0 (fun x => { x with adm := .admitted })
     |> onEcho (fun x => { x with members := [7, Config.hubId] })
     |>.modPort 0 (fun x => { x with partner := some ((capOf false 7)) }), 0, { echoPlain with n := 65 },
     by decide +kernel⟩,
   ⟨colsUp |> upZero |>.modPort 0 (fun x => { x with adm := .admitted })
     |> onEcho (fun x => { x with members := [7, Config.hubId] })
     |>.modPort 0 (fun x => { x with partner := some ((capOf false 7)) }), 0, { echoPlain with ver := 2 },
     by decide +kernel⟩,
   ⟨colsUp |> upZero |>.modPort 0 (fun x => { x with adm := .admitted })
     |>.modPort 0 (fun x => { x with partner := some ((capOf false (~~~ Config.hubId))) })
     |>.modPort 0 (fun x => { x with pst := 2 })
     |> onEcho (fun x => { x with master := Config.hubId, members := [Config.hubId, ~~~ Config.hubId] }), 0,
     { echoPlain with masterId := ~~~ Config.hubId, nextMasterId := ~~~ Config.hubId, hubs := [recEchoFrames] },
     by decide +kernel, by decide +kernel, by decide +kernel, by decide +kernel, by decide +kernel,
     recEchoFrames, by decide +kernel, by decide +kernel, rfl,
     by decide +kernel, by decide +kernel, compl_ne _, compl_hubId_ne_zero, by decide +kernel,
     held_of_linked (linked_of (by decide +kernel) (by decide +kernel) rfl rfl), rfl⟩,
   ⟨colsUp |> upZero, 0, by decide +kernel⟩,
   ⟨stEchoFrames60, 0, by decide +kernel⟩⟩

/-- The hypotheses of Obligations.NeighbourAndWindow can be met. -/
theorem witness_NeighbourAndWindow :
    (∃ (s : State) (p : TrunkPort), s.coreOn = true ∧ s.ports[trunk p].adm = .admitted ∧ s.portUp (trunk p) = true ∧
      s.ports[trunk p].echoHead + 48 ≤ s.heads) ∧
    (∃ (s : State) (p : TrunkPort), s.coreOn = true ∧ ∃ (h : Nat), s.ports[trunk p].lossHead = some h ∧
      h + 2 ≤ s.heads ∧ s.ports[trunk p].lossDead = false) ∧
    (∃ (s : State) (p : TrunkPort), s.coreOn = true ∧ ∃ (h : Nat), s.ports[trunk p].holdHead = some h ∧
      h + s.ports[trunk p].holdWin ≤ s.heads) :=
  ⟨⟨colsUp |> upZero |>.modPort 0 (fun x => { x with adm := .admitted })
     |>.modPort 0 (fun x => { x with partner := some ((capOf false 7)) })
     |> onAll (fun x => { x with heads := 48 }), 0, by decide +kernel⟩,
   ⟨colsUp |>.modPort 0 (fun x => { x with lossHead := some 0 }) |> onAll (fun x => { x with heads := 2 }), 0,
     by decide +kernel, 0, by decide +kernel⟩,
   ⟨colsUp |>.modPort 0 (fun x => { x with holdHead := some 0, holdWin := 4 })
     |> onAll (fun x => { x with heads := 4 }), 0, by decide +kernel, 0, by decide +kernel⟩⟩

/-- The hypotheses of Obligations.MergesAndFormation can be met. -/
theorem witness_MergesAndFormation :
    (∃ (s : State), s.coreOn = true ∧ s.echoPaused = false ∧ ∃ (x : Side) (xs : List Side), s.joiningSides = x :: xs ∧
      s.beat.timing = .master ∧ s.echo.master = Config.hubId ∧ s.elected = Config.hubId ∧ s.merges = [] ∧
      s.echo.viewSince + s.settleHeads ≤ s.heads) ∧
    (∃ (s : State), s.coreOn = true ∧ s.echoPaused = false ∧ ∃ (m : Merge), s.merges = [m] ∧
      m.record.masterId = Config.hubId ∧ s.beatNum.toNat + 16 < m.record.s.toNat ∧ s.mergeBroken m = true) ∧
    (∃ (s : State), s.coreOn = true ∧ s.echoPaused = true) ∧
    (∃ (s : State), s.coreOn = true ∧ ∃ (h : Nat), s.echo.runHead = some h ∧ h + 16000 ≤ s.heads) :=
  ⟨⟨colsUp |> upZero |>.modPort 0 (fun x => { x with adm := .admitted })
     |>.modPort 0 (fun x => { x with pst := 2 })
     |>.modPort 0 (fun x => { x with partner := some ({ rate := 1, rates := 7, lanes := 4, backbone := 0, carEnd := 0, seat := 2, role := 0, cl := 1, keySlot := 0, sat := false, id := (~~~ Config.hubId) }) })
     |> onBeat (fun x => { x with timing := .master })
     |> onEcho (fun x => { x with master := Config.hubId, records := [{ hubPlain with id := (~~~ Config.hubId), pst := #v[2, 0, 0, 0], nbId := #v[Config.hubId, 0, 0, 0] }], members := [Config.hubId] })
     |>.setBit Reg.TOPO_STATUS 27 false |> onAll (fun x => { x with heads := 500 }), by decide +kernel, by decide +kernel, _, [],
     side_pair rfl (compl_ne _) (linked_of (by decide +kernel) (by decide +kernel) rfl rfl) rfl, by decide +kernel,
     rfl,
     elected_pair rfl (compl_ne _) (linked_of (by decide +kernel) (by decide +kernel) rfl rfl) (by decide +kernel),
     rfl, by decide +kernel⟩,
   ⟨colsUp |> onEcho (fun x => { x with merge := some { record := { mergePlain with s := 17, jointId := ~~~ Config.hubId }, joining := false, complete := false, assigns := [], otherMaster := 0 } }), by decide +kernel,
     by decide +kernel, { record := { mergePlain with s := 17, jointId := ~~~ Config.hubId }, joining := false, complete := false, assigns := [], otherMaster := 0 },
     rfl, rfl, by decide +kernel, by
      have h : ∀ s : State, ∀ m : Merge, (decide (s.beatNum.toNat + 17 = m.record.s.toNat) && !m.complete) = true → s.mergeBroken m = true := by
        intro s m h
        simp only [State.mergeBroken, h, Bool.or_true, Bool.true_or]
      exact h _ _ (by decide +kernel)⟩,
   ⟨pausedEcho, by decide +kernel⟩,
   ⟨colsUp |> onEcho (fun x => { x with runHead := some 0 }) |> onAll (fun x => { x with heads := 16000 }),
     by decide +kernel, 0, by decide +kernel⟩⟩

/-- The hypotheses of Obligations.FramesReceived can be met. -/
theorem witness_FramesReceived :
    (∃ (s : State) (p : TrunkPort) (rx : RxFrame), s.coreOn = true ∧ s.portUp (trunk p) = true ∧
      s.ports[trunk p].discarding = false ∧ rx.fcs ≠ rx.frame.fcsOf ∧ s.cav.waiting = []) ∧
    (∃ (s : State) (p : TrunkPort) (rx : RxFrame), s.coreOn = true ∧ s.portUp (trunk p) = true ∧
      s.ports[trunk p].discarding = false ∧ ∃ (f : Frame) (s1 : State) (s2 : State),
      s.precheck (toEgress (trunk p)) rx = (s1, some f) ∧ f.destEp ≠ 0 ∧ isSync (toEgress (trunk p)) rx = false ∧
      ∃ (k : EpId) (d : Bool),
      s1.judge (toEgress (trunk p)) f false none = (s2, .wait k d) ∧ s2.tun.missQ.length < 4096) ∧
    (∃ (s : State) (p : TrunkPort) (rx : RxFrame), s.coreOn = true ∧ s.portUp (trunk p) = true ∧
      s.ports[trunk p].discarding = false ∧ ∃ (f : Frame) (s1 : State) (s2 : State),
      s.precheck (toEgress (trunk p)) rx = (s1, some f) ∧ f.destEp ≠ 0 ∧ isSync (toEgress (trunk p)) rx = false ∧
      ∃ (a : Accepted) (g : Frame) (ps : List EgressPort), s1.judge (toEgress (trunk p)) f false none = (s2,
      .pass a) ∧ s2.keyMalformed (toEgress (trunk p)) f = none ∧ a.copies = [(g, ps)] ∧ ps ≠ [] ∧ g.tw = 0) :=
  ⟨⟨colsUp |> upZero |>.modPort 0 (fun x => { x with adm := .admitted }) |>.setFld Reg.TOPO_STATUS 6 0 3
     |>.setBit Reg.SUMP_STATUS 2 true, 0, { frame := frame0, fcs := ~~~ frame0.fcsOf, tag := 0, bytes := 28 },
     by decide +kernel⟩,
   ⟨recState1, 0, rx0, by decide +kernel, by decide +kernel, by decide +kernel, frame0, recChecked1.1, recJudged1.1,
     pair_of_snd (p := recChecked1) (by decide +kernel), by decide +kernel, by decide +kernel, epWithSlot 4 3, true,
     pair_of_snd (p := recJudged1) (by decide +kernel), by decide +kernel⟩,
   ⟨recState2, 0, rx0, by decide +kernel, by decide +kernel, by decide +kernel, frame0, recChecked2.1, recJudged2.1,
     pair_of_snd (p := recChecked2) (by decide +kernel), by decide +kernel, by decide +kernel,
     { copies := [(frame0, [4])], matched := [{ ep := epWithSlot 4 3, gen := 0 }] }, frame0, [4],
     pair_of_snd (p := recJudged2) (by decide +kernel), by decide +kernel⟩⟩

/-- The hypotheses of Obligations.EthernetFrames can be met. -/
theorem witness_EthernetFrames :
    (∃ (s : State) (n : LocalPort) (bytes : List Byte), s.coreOn = true ∧ s.isEth (loc n) = true ∧
      s.portUp (loc n) = true ∧ s.cutOf n = none ∧ (bytes.length + 4 < 64 ∨ s.maxLen n < bytes.length + 4) ∧
      bytes = List.replicate 59 0) ∧
    (∃ (s : State) (n : LocalPort) (bytes : List Byte), s.coreOn = true ∧ s.isEth (loc n) = true ∧
      s.portUp (loc n) = true ∧ s.cutOf n = none ∧ (bytes.length + 4 < 64 ∨ s.maxLen n < bytes.length + 4) ∧
      bytes = List.replicate 1515 0) ∧
    (∃ (s : State) (n : LocalPort) (bytes : List Byte) (fcs : Word), s.coreOn = true ∧ s.isEth (loc n) = true ∧
      s.portUp (loc n) = true ∧ s.cutOf n = none ∧ 64 ≤ bytes.length + 4 ∧ bytes.length + 4 ≤ s.maxLen n ∧
      fcs ≠ crc32 bytes) ∧
    (∃ (s : State) (n : LocalPort) (bytes : List Byte) (fcs : Word), s.coreOn = true ∧ s.isEth (loc n) = true ∧
      s.portUp (loc n) = true ∧ s.cutOf n = none ∧ 64 ≤ bytes.length + 4 ∧ bytes.length + 4 ≤ s.maxLen n ∧
      fcs = crc32 bytes ∧ be16At bytes 12 = 0x8808) ∧
    (∃ (s : State) (n : LocalPort) (bytes : List Byte) (fcs : Word), s.coreOn = true ∧ s.isEth (loc n) = true ∧
      s.portUp (loc n) = true ∧ s.cutOf n = none ∧ 64 ≤ bytes.length + 4 ∧ bytes.length + 4 ≤ s.maxLen n ∧
      ∃ (s1 : State) (s2 : State) (s3 : State) (f : Frame) (g : Frame) (a : Accepted) (ps : List EgressPort),
      fcs = crc32 bytes ∧ be16At bytes 12 ≠ 0x8808 ∧
      s1 = s.countLocal (toEgress (loc n)) Reg.LOC_RX_FRAMES_LO Reg.LOC_RX_BYTES_LO (bytes.length + 4) ∧
      cellsOfLen bytes.length ≤ s1.poolFree ∧ s.mode = .run ∧ s.pwr.admitClosed = false ∧ s1.mapFrame n bytes = (s2,
      some f) ∧ s2.judge (toEgress (loc n)) (s2.ownSlots f) false none = (s3, .pass a) ∧ a.copies = [(g, ps)] ∧
      ps ≠ [] ∧ g.tw = 0) :=
  ⟨⟨colsUp |>.modPort 4 (fun x => { x with stage := .active, modeAct := 2 })
     |>.setReg (Reg.TUN_ETH_DEF_SRC 0) 5 |>.setReg (Reg.TUN_ETH_DEF_DST 0) 6, 0, List.replicate 59 0,
     by decide +kernel⟩,
   ⟨colsUp |>.modPort 4 (fun x => { x with stage := .active, modeAct := 2 })
     |>.setReg (Reg.TUN_ETH_DEF_SRC 0) 5 |>.setReg (Reg.TUN_ETH_DEF_DST 0) 6, 0, List.replicate 1515 0,
     by decide +kernel⟩,
   ⟨colsUp |>.modPort 4 (fun x => { x with stage := .active, modeAct := 2 })
     |>.setReg (Reg.TUN_ETH_DEF_SRC 0) 5 |>.setReg (Reg.TUN_ETH_DEF_DST 0) 6, 0,
     ([1, 1, 1, 1, 1, 1, 2, 2, 2, 2, 2, 2, 8, 0] ++ List.replicate 46 0),
     ~~~ crc32 ([1, 1, 1, 1, 1, 1, 2, 2, 2, 2, 2, 2, 8, 0] ++ List.replicate 46 0), by decide +kernel,
     by decide +kernel, by decide +kernel, by decide +kernel, by decide +kernel, by decide +kernel, compl_ne _⟩,
   ⟨colsUp |>.modPort 4 (fun x => { x with stage := .active, modeAct := 2 })
     |>.setReg (Reg.TUN_ETH_DEF_SRC 0) 5 |>.setReg (Reg.TUN_ETH_DEF_DST 0) 6, 0,
     ([1, 1, 1, 1, 1, 1, 2, 2, 2, 2, 2, 2, 0x88, 8] ++ List.replicate 46 0),
     crc32 ([1, 1, 1, 1, 1, 1, 2, 2, 2, 2, 2, 2, 0x88, 8] ++ List.replicate 46 0), by decide +kernel,
     by decide +kernel, by decide +kernel, by decide +kernel, by decide +kernel, by decide +kernel, rfl,
     by decide +kernel⟩,
   ⟨ethState, 0, ethBytes, crc32 ethBytes, by decide +kernel, by decide +kernel, by decide +kernel,
     by decide +kernel, by decide +kernel, by decide +kernel, ethCounted, ethMapped.1, ethJudged.1, ethFrame,
     ethOut, ethAccepted, [5], rfl, by decide +kernel, rfl, by decide +kernel, by decide +kernel, by decide +kernel,
     pair_of_snd (p := ethMapped) (by decide +kernel), pair_of_snd (p := ethJudged) (by decide +kernel),
     by decide +kernel⟩⟩

/-- The hypotheses of Obligations.CutThrough can be met. -/
theorem witness_CutThrough :
    (∃ (s : State), s.coreOn = true ∧
      ∃ (n : LocalPort) (frame f g : Frame) (q : EgressPort) (a : Accepted) (s1 s2 s4 : State),
      (s.isTvl (loc n) = true ∨ s.isEth (loc n) = true) ∧ s.portUp (loc n) = true ∧ s.ports[loc n].discarding = false ∧
      s.pwr.admitClosed = false ∧ s.cutOf n = none ∧ s.cutFrame n frame = (s1, some f) ∧
      s1.judge (toEgress (loc n)) f false none = (s2, .pass a) ∧ s2.mayCut n a = some (g, q) ∧
      (s2.store g (toEgress (loc n)) a.matched (s2.cav.lastChamber.val + 1)).joinAll s2.cav.nextId g.cls g.cells true [q] = (s4,
      .joined)) ∧
    (∃ (s : State), s.coreOn = true ∧ ∃ (p : EgressPort) (cclk : Nat), p.val < 20 ∧
      (∀ k : TrunkPort, p = toEgress (trunk k) → s.ports[trunk k].ownTx = []) ∧ (s.portSends p = false ∨ s.takeoverHold p cclk = true ∨
      ∃ x ∈ s.cav.cutTx, x.egress = p) ∧ p = 0 ∧ cclk = 0) ∧
    (∃ (s : State), s.coreOn = true ∧ ∃ (p : EgressPort) (cclk : Nat), p.val < 20 ∧
      (∀ k : TrunkPort, p = toEgress (trunk k) → s.ports[trunk k].ownTx = []) ∧ (s.portSends p = false ∨ s.takeoverHold p cclk = true ∨
      ∃ x ∈ s.cav.cutTx, x.egress = p) ∧ p = 19 ∧ cclk = 559) ∧
    (∃ (s : State), s.coreOn = true ∧ ∃ (p : EgressPort) (cclk : Nat) (found : List CellError) (c : Cls) (r : QRef) (f : Stored),
      s.portSends p = true ∧ s.takeoverHold p cclk = false ∧ s.cav.waiting = [] ∧
      (∀ k : TrunkPort, p = toEgress (trunk k) → s.ports[trunk k].ownTx = []) ∧ (∀ x ∈ s.cav.cutTx, x.egress ≠ p) ∧ (∀ k : Cls,
      k ≠ c → s.cav.queues[queueOf p k].refs = []) ∧ s.cav.queues[queueOf p c].refs = [r] ∧ f.id = r.id ∧
      s.candidate p cclk c = some (r, f) ∧ s.headDrop p f = none ∧ s.egressDrop p f found = none ∧
      s.charge p f.frame * 256 ≤ s.ctok p.val c.val ∧ (p.val < 20 ∨ (epLocal f.frame.destEp ≠ 0 ∧
      ∀ r : RoleIx, s.eng.roles[r].engine.isSome = true → ∀ d ∈ s.eng.roles[r].inbox, d.acted = true))) :=
  ⟨⟨cutState, by decide +kernel, 0, frame2, frame2, cutFrame, 5, cutAccepted, cutGiven.1, cutJudged.1, cutJoined.1,
     by decide +kernel, by decide +kernel, by decide +kernel, by decide +kernel, by decide +kernel,
     pair_of_snd (p := cutGiven) (by decide +kernel), pair_of_snd (p := cutJudged) (by decide +kernel), by decide +kernel,
     pair_of_snd (p := cutJoined) (by decide +kernel)⟩,
   ⟨colsUp, by decide +kernel, 0, 0, by decide +kernel⟩,
   ⟨colsUp |> onSched (fun x => { x with takeoverHead := vset x.takeoverHead 19 (some 0) }), by decide +kernel,
     19, 559, by decide +kernel⟩,
   ⟨colsUp |>.setBit Reg.CAV_CUT_EN 1 true |> inRun |>.setFld Reg.TOPO_STATUS 6 0 3
     |>.setBit Reg.SUMP_STATUS 2 true
     |> onTun (fun x => { x with cache := [{ ep := epWithSlot 5 3, entry := (localTo 4), recent := true }, { ep := epWithSlot 6 3, entry := (localTo 5), recent := true }] })
     |>.modPort 4 (fun x => { x with stage := .active, modeAct := 1, txWidth := 1, rxWidth := 1 })
     |>.modPort 5 (fun x => { x with stage := .active, modeAct := 1, txWidth := 1, rxWidth := 1 })
     |> onCav (fun x => { x with frames := [(oneCell frame3)], nextId := 1 })
     |>.modQueue (queueOf 5 4) (fun x => { x with refs := [{ id := 0, cells := 1, marked := false, spilled := false, waiting := false }] })
     |>.setReg (Reg.SCHED_CTOK 5 4) 0xFFFF00 |>.setReg (Reg.SCHED_CIR_ACT 5 4) 1
     |>.setBit (Reg.SEC_PORT_CFG 5) 0 false |>.modCredit 5 4 false (fun x => { x with limit := some 64 }), by decide +kernel, 5, 0, [], 4,
     { id := 0, cells := 1, marked := false, spilled := false, waiting := false }, (oneCell frame3),
     by decide +kernel⟩⟩

/-- The hypotheses of Obligations.EntriesAndTwins can be met. -/
theorem witness_EntriesAndTwins :
    (∃ (s : State), s.coreOn = true ∧ ∃ (ep : EpId), s.tun.fetching.contains ep = true ∧ s.sumpReady = true ∧
      (∀ m ∈ s.tun.missQ, m.key ≠ ep) ∧ s.tun.poison.contains ep = false ∧ s.cacheLine ep = none ∧
      (s.tun.cache.countP fun l => cacheSet l.ep == cacheSet ep) < 16) ∧
    (∃ (s : State), s.coreOn = true ∧ ∃ (ep : EpId), s.tun.fetching.contains ep = true ∧ s.sumpReady = true ∧
      (∀ m ∈ s.tun.missQ, m.key ≠ ep) ∧ s.cav.ueFifo.length < 8) ∧
    (∃ (s : State), s.coreOn = true ∧ ∃ (m : MissFrame), s.tun.missQ = [m] ∧ m.dest = true ∧ m.srcDefault = false) ∧
    (∃ (s : State), s.coreOn = true ∧ ∃ (src : EpId) (e : TwinEntry),
      s.twin.find? (fun e => e.src == src) = some e ∧ s.twinAged e = true) ∧
    (∃ (s : State), s.coreOn = true ∧ ∃ (n : LocalPort) (c : Cls) (h : Nat), (c = 5 ∨ c = 6 ∨ c = 7) ∧
      s.isTvl (loc n) = true ∧ s.cav.queues[queueOf (toEgress (loc n)) c].creditWait = some h ∧ h + 4 < s.heads ∧
      s.bit Reg.DEP_DRAIN n.val = false ∧ n = 0 ∧ c = 6) ∧
    (∃ (s : State), s.coreOn = true ∧ ∃ (n : LocalPort) (c : Cls) (h : Nat), (c = 5 ∨ c = 6 ∨ c = 7) ∧
      s.isTvl (loc n) = true ∧ s.cav.queues[queueOf (toEgress (loc n)) c].creditWait = some h ∧ h + 4 < s.heads ∧
      s.bit Reg.DEP_DRAIN n.val = false ∧ n = 15 ∧ c = 5) :=
  ⟨⟨colsUp |>.setFld Reg.TOPO_STATUS 6 0 3 |>.setBit Reg.SUMP_STATUS 2 true
     |> onTun (fun x => { x with fetching := [epWithSlot 4 3] }), by decide +kernel, epWithSlot 4 3,
     by decide +kernel⟩,
   ⟨colsUp |>.setFld Reg.TOPO_STATUS 6 0 3 |>.setBit Reg.SUMP_STATUS 2 true
     |> onTun (fun x => { x with fetching := [epWithSlot 4 3] }), by decide +kernel, epWithSlot 4 3,
     by decide +kernel⟩,
   ⟨colsUp |> upZero |>.setFld Reg.TOPO_STATUS 6 0 3 |>.setBit Reg.SUMP_STATUS 2 true
     |> onTun (fun x => { x with missQ := [{ key := epWithSlot 4 3, dest := true, ingress := 0, frame := frame0, srcDefault := false }], fetching := [epWithSlot 4 3] }),
     by decide +kernel, { key := epWithSlot 4 3, dest := true, ingress := 0, frame := frame0, srcDefault := false },
     by decide +kernel⟩,
   ⟨colsUp
     |> onAll (fun x => { x with twin := [{ src := 5, h := 0, seenA := 0, seenB := 0, last := 0, lastHead := 0 }] })
     |> onAll (fun x => { x with heads := 100000 }), by decide +kernel, 5,
     { src := 5, h := 0, seenA := 0, seenB := 0, last := 0, lastHead := 0 }, by decide +kernel⟩,
   ⟨colsUp |>.modPort 4 (fun x => { x with modeAct := 1, stage := .active })
     |>.modQueue (queueOf 4 6) (fun x => { x with creditWait := some 0 }) |> onAll (fun x => { x with heads := 5 }),
     by decide +kernel, 0, 6, 0, by decide +kernel⟩,
   ⟨colsUp |>.modPort 19 (fun x => { x with modeAct := 1, stage := .active })
     |>.modQueue (queueOf 19 5) (fun x => { x with creditWait := some 0 })
     |> onAll (fun x => { x with heads := 5 }), by decide +kernel, 15, 5, 0, by decide +kernel⟩⟩

/-- The hypotheses of Obligations.EndpointCommands can be met. -/
theorem witness_EndpointCommands :
    (∃ (s : State) (m : Master), s.Inv ∧ s.Takes m Reg.TUN_EP_CMD) ∧
    (∃ (s : State) (m : Master), s.Inv ∧ s.Takes m Reg.TUN_EP_CMD ∧ ∃ (c : Instr) (op : Nat), ((c = .epWrite m ∧
      op = 2) ∨ (c = .epWriteKeep m ∧ op = 3) ∨ (c = .epPin m ∧ op = 4) ∨ (c = .epUnpin m ∧ op = 5) ∨
      (c = .epRevoke m ∧ op = 6) ∨ (c = .epInvalidate m ∧ op = 7)) ∧ s.epCode m op ≠ 1 ∧ c = .epWrite 0 ∧ op = 2) ∧
    (∃ (s : State) (m : Master), s.Inv ∧ s.Takes m Reg.TUN_EP_CMD ∧ ∃ (c : Instr) (op : Nat), ((c = .epWrite m ∧
      op = 2) ∨ (c = .epWriteKeep m ∧ op = 3) ∨ (c = .epPin m ∧ op = 4) ∨ (c = .epUnpin m ∧ op = 5) ∨
      (c = .epRevoke m ∧ op = 6) ∨ (c = .epInvalidate m ∧ op = 7)) ∧ s.epCode m op ≠ 1 ∧ c = .epInvalidate 0 ∧
      op = 7) ∧
    (∃ (s : State) (m : Master), s.Inv ∧ s.Takes m Reg.TUN_EP_CMD ∧ ∃ (c : Instr) (op : Nat), ((c = .epWrite m ∧
      op = 2) ∨ (c = .epWriteKeep m ∧ op = 3) ∨ (c = .epPin m ∧ op = 4) ∨ (c = .epUnpin m ∧ op = 5) ∨
      (c = .epRevoke m ∧ op = 6) ∨ (c = .epInvalidate m ∧ op = 7)) ∧ s.epCode m op = 1 ∧ s.sumpReady = true ∧
      s.epChanged m op (s.epNow (s.epSel m)) ≠ s.epNow (s.epSel m) ∧ c = .epInvalidate 0 ∧ op = 7) ∧
    (∃ (s : State) (m : Master), s.Inv ∧ s.Takes m Reg.TUN_EP_CMD ∧ ∃ (c : Instr) (op : Nat), ((c = .epWrite m ∧
      op = 2) ∨ (c = .epWriteKeep m ∧ op = 3) ∨ (c = .epPin m ∧ op = 4) ∨ (c = .epUnpin m ∧ op = 5) ∨
      (c = .epRevoke m ∧ op = 6) ∨ (c = .epInvalidate m ∧ op = 7)) ∧ s.epCode m op = 1 ∧ s.sumpReady = true ∧
      s.epChanged m op (s.epNow (s.epSel m)) ≠ s.epNow (s.epSel m) ∧ c = .epRevoke 0 ∧ op = 6) ∧
    (∃ (s : State) (m : Master), s.Inv ∧ s.Takes m Reg.TUN_EP_CMD ∧ ∃ (c : Instr) (op : Nat), ((c = .epWrite m ∧
      op = 2) ∨ (c = .epWriteKeep m ∧ op = 3) ∨ (c = .epPin m ∧ op = 4) ∨ (c = .epUnpin m ∧ op = 5) ∨
      (c = .epRevoke m ∧ op = 6) ∨ (c = .epInvalidate m ∧ op = 7)) ∧ s.epCode m op = 1 ∧ s.sumpReady = true ∧
      s.epChanged m op (s.epNow (s.epSel m)) ≠ s.epNow (s.epSel m) ∧ c = .epPin 0 ∧ op = 4) ∧
    (∃ (s : State) (m : Master), s.Inv ∧ s.Takes m Reg.TUN_EP_CMD ∧ ∃ (c : Instr) (op : Nat), ((c = .epWrite m ∧
      op = 2) ∨ (c = .epWriteKeep m ∧ op = 3) ∨ (c = .epPin m ∧ op = 4) ∨ (c = .epUnpin m ∧ op = 5) ∨
      (c = .epRevoke m ∧ op = 6) ∨ (c = .epInvalidate m ∧ op = 7)) ∧ s.epCode m op = 1 ∧ s.sumpReady = true ∧
      s.epChanged m op (s.epNow (s.epSel m)) ≠ s.epNow (s.epSel m) ∧ c = .epUnpin 0 ∧ op = 5) ∧
    (∃ (s : State) (m : Master), s.Inv ∧ s.Takes m Reg.TUN_EP_CMD ∧ ∃ (c : Instr) (op : Nat), ((c = .epWrite m ∧
      op = 2) ∨ (c = .epWriteKeep m ∧ op = 3) ∨ (c = .epPin m ∧ op = 4) ∨ (c = .epUnpin m ∧ op = 5) ∨
      (c = .epRevoke m ∧ op = 6) ∨ (c = .epInvalidate m ∧ op = 7)) ∧ s.epCode m op = 1 ∧ s.sumpReady = true ∧
      s.epChanged m op (s.epNow (s.epSel m)) ≠ s.epNow (s.epSel m) ∧ c = .epWrite 0 ∧ op = 2) ∧
    (∃ (s : State) (m : Master), s.Inv ∧ s.Takes m Reg.TUN_EP_CMD ∧ ∃ (c : Instr) (op : Nat), ((c = .epWrite m ∧
      op = 2) ∨ (c = .epWriteKeep m ∧ op = 3) ∨ (c = .epPin m ∧ op = 4) ∨ (c = .epUnpin m ∧ op = 5) ∨
      (c = .epRevoke m ∧ op = 6) ∨ (c = .epInvalidate m ∧ op = 7)) ∧ s.epCode m op = 1 ∧ s.sumpReady = true ∧
      s.epChanged m op (s.epNow (s.epSel m)) ≠ s.epNow (s.epSel m) ∧ c = .epWriteKeep 0 ∧ op = 3) :=
  ⟨⟨colsUp |>.setFld Reg.TOPO_STATUS 6 0 3 |>.setBit Reg.SUMP_STATUS 2 true |> arm 0, 0,
     inv_of_bools (by decide +kernel), takes_of_takesB (by decide +kernel)⟩,
   ⟨colsUp |> arm 0, 0, inv_of_bools (by decide +kernel), takes_of_takesB (by decide +kernel), .epWrite 0, 2,
     by decide +kernel⟩,
   ⟨colsUp |> arm 0, 0, inv_of_bools (by decide +kernel), takes_of_takesB (by decide +kernel), .epInvalidate 0,
     7, by decide +kernel⟩,
   ⟨colsUp |>.setFld Reg.TOPO_STATUS 6 0 3 |>.setBit Reg.SUMP_STATUS 2 true |> arm 0
     |>.setReg (pmKey 0 Reg.TUN_EP_SEL) 786437
     |> onTun (fun x => { x with table := [((epWithSlot 5 3).toNat, (localTo 4))] }), 0,
     inv_of_bools (by decide +kernel), takes_of_takesB (by decide +kernel), .epInvalidate 0, 7, by decide +kernel⟩,
   ⟨colsUp |>.setFld Reg.TOPO_STATUS 6 0 3 |>.setBit Reg.SUMP_STATUS 2 true |> arm 0
     |>.setReg (pmKey 0 Reg.TUN_EP_SEL) 786437
     |> onTun (fun x => { x with table := [((epWithSlot 5 3).toNat, (localTo 4))] }), 0,
     inv_of_bools (by decide +kernel), takes_of_takesB (by decide +kernel), .epRevoke 0, 6, by decide +kernel⟩,
   ⟨colsUp |>.setFld Reg.TOPO_STATUS 6 0 3 |>.setBit Reg.SUMP_STATUS 2 true |> arm 0
     |>.setReg (pmKey 0 Reg.TUN_EP_SEL) 786437
     |> onTun (fun x => { x with table := [((epWithSlot 5 3).toNat, (localTo 4))] }), 0,
     inv_of_bools (by decide +kernel), takes_of_takesB (by decide +kernel), .epPin 0, 4, by decide +kernel⟩,
   ⟨colsUp |>.setFld Reg.TOPO_STATUS 6 0 3 |>.setBit Reg.SUMP_STATUS 2 true |> arm 0
     |>.setReg (pmKey 0 Reg.TUN_EP_SEL) 786437
     |> onTun (fun x => { x with table := [((epWithSlot 5 3).toNat, { (localTo 4) with pin := true })] }), 0,
     inv_of_bools (by decide +kernel), takes_of_takesB (by decide +kernel), .epUnpin 0, 5, by decide +kernel⟩,
   ⟨colsUp |>.setFld Reg.TOPO_STATUS 6 0 3 |>.setBit Reg.SUMP_STATUS 2 true |> arm 0
     |>.setReg (pmKey 0 Reg.TUN_EP_SEL) 786437
     |> onTun (fun x => { x with table := [((epWithSlot 5 3).toNat, (localTo 4))] })
     |>.setReg (pmKey 0 (Reg.TUN_EPW 0)) 1, 0, inv_of_bools (by decide +kernel),
     takes_of_takesB (by decide +kernel), .epWrite 0, 2, by decide +kernel⟩,
   ⟨colsUp |>.setFld Reg.TOPO_STATUS 6 0 3 |>.setBit Reg.SUMP_STATUS 2 true |> arm 0
     |>.setReg (pmKey 0 Reg.TUN_EP_SEL) 786437
     |> onTun (fun x => { x with table := [((epWithSlot 5 3).toNat, (localTo 4))] })
     |>.setReg (pmKey 0 (Reg.TUN_EPW 0)) 1, 0, inv_of_bools (by decide +kernel),
     takes_of_takesB (by decide +kernel), .epWriteKeep 0, 3, by decide +kernel⟩⟩

/-- The hypotheses of Obligations.MappingCommands can be met. -/
theorem witness_MappingCommands :
    (∃ (s : State) (m : Master), s.Inv ∧ s.Takes m Reg.TUN_MAP_CMD ∧ (s.mapKey m).2.2 ≠ 0xFFF ∧
      bitsOf (s.reg (pmKey m Reg.TUN_MAP_VAL)) 24 0 ≠ 0) ∧
    (∃ (s : State) (m : Master), s.Inv ∧ s.Takes m Reg.TUN_MAP_CMD ∧ (s.mapKey m).2.2 ≠ 0xFFF ∧ ∃ (e : MapEntry),
      (s.tun.map.find? fun e => e.hasKey (s.mapKey m)) = some e) ∧
    (∃ (s : State) (m : Master), s.Inv ∧ s.Takes m Reg.TUN_MAP_CMD ∧ (s.mapKey m).2.2 ≠ 0xFFF ∧
      (s.tun.map.find? fun e => e.hasKey (s.mapKey m)) = none ∧ ∃ (c : Instr), (c = .tunMapDelete m ∨
      c = .tunMapLookup m) ∧ c = .tunMapDelete 0) ∧
    (∃ (s : State) (m : Master), s.Inv ∧ s.Takes m Reg.TUN_MAP_CMD ∧ (s.mapKey m).2.2 ≠ 0xFFF ∧
      (s.tun.map.find? fun e => e.hasKey (s.mapKey m)) = none ∧ ∃ (c : Instr), (c = .tunMapDelete m ∨
      c = .tunMapLookup m) ∧ c = .tunMapLookup 0) :=
  ⟨⟨colsUp |> arm 0 |>.setReg (pmKey 0 Reg.TUN_MAP_VAL) 9, 0, inv_of_bools (by decide +kernel),
     takes_of_takesB (by decide +kernel), by decide +kernel⟩,
   ⟨colsUp |> arm 0 |>.setReg (pmKey 0 Reg.TUN_MAP_VAL) 9
     |> onTun (fun x => { x with map := [{ port := 0, mac := 0, vid := 0, ep := 9, tc := 1 }] }), 0,
     inv_of_bools (by decide +kernel), takes_of_takesB (by decide +kernel), by decide +kernel,
     { port := 0, mac := 0, vid := 0, ep := 9, tc := 1 }, by decide +kernel⟩,
   ⟨colsUp |> arm 0 |>.setReg (pmKey 0 Reg.TUN_MAP_VAL) 9, 0, inv_of_bools (by decide +kernel),
     takes_of_takesB (by decide +kernel), by decide +kernel, by decide +kernel, .tunMapDelete 0, by decide +kernel⟩,
   ⟨colsUp |> arm 0 |>.setReg (pmKey 0 Reg.TUN_MAP_VAL) 9, 0, inv_of_bools (by decide +kernel),
     takes_of_takesB (by decide +kernel), by decide +kernel, by decide +kernel, .tunMapLookup 0, by decide +kernel⟩⟩

/-- The hypotheses of Obligations.SpillAndReturn can be met. -/
theorem witness_SpillAndReturn :
    (∃ (s : State) (q : QueueIx), s.coreOn = true ∧ s.cav.waiting = [] ∧ ∃ (r : QRef) (f : Stored), s.cav.queues[q].refs = [r] ∧
      r.waiting = true ∧ s.stored r.id = some f ∧ s.damagedIn f.cells = []) ∧
    (∃ (s : State) (q : QueueIx), s.coreOn = true ∧ s.cav.waiting = [] ∧ ∃ (r : QRef) (f : Stored), s.cav.queues[q].refs = [r] ∧
      r.waiting = true ∧ s.stored r.id = some f ∧ s.damagedIn f.cells ≠ []) ∧
    (∃ (s : State) (q : QueueIx), s.coreOn = true ∧ s.cav.waiting = [] ∧ ∃ (r : QRef), s.cav.queues[q].refs = [r] ∧
      r.spilled = true ∧ r.waiting = false ∧ s.sumpReady = true) ∧
    (∃ (s : State) (q : QueueIx), s.coreOn = true ∧ s.cav.waiting = [] ∧ ∃ (r : QRef), s.cav.queues[q].refs = [r] ∧
      r.spilled = true ∧ r.waiting = false ∧ s.sumpReady = true ∧ ∃ (f : Stored) (x : Nat × Nat),
      s.cav.poisonSpill.contains r.id = false ∧ s.stored r.id = some f ∧ s.chargeFor q r.cells = some x) ∧
    (∃ (s : State), s.coreOn = true ∧ s.cav.waiting = [] ∧ s.sumpReady = true) :=
  ⟨⟨colsUp |>.setFld Reg.TOPO_STATUS 6 0 3 |>.setBit Reg.SUMP_STATUS 2 true
     |> onCav (fun x => { x with frames := [(oneCell frame3)], nextId := 1 })
     |>.modQueue 100 (fun x => { x with refs := [{ id := 0, cells := 1, marked := false, spilled := true, waiting := true }] }),
     100, by decide +kernel, by decide +kernel,
     { id := 0, cells := 1, marked := false, spilled := true, waiting := true }, oneCell frame3, by decide +kernel⟩,
   ⟨colsUp |>.setFld Reg.TOPO_STATUS 6 0 3 |>.setBit Reg.SUMP_STATUS 2 true
     |> onCav (fun x => { x with frames := [(oneCell frame3)], nextId := 1, damaged := [(x.chamberOf[(0 : ChamberIx)], 0)] })
     |>.modQueue 100 (fun x => { x with refs := [{ id := 0, cells := 1, marked := false, spilled := true, waiting := true }] }),
     100, by decide +kernel, by decide +kernel,
     { id := 0, cells := 1, marked := false, spilled := true, waiting := true }, oneCell frame3, by decide +kernel⟩,
   ⟨colsUp |>.setFld Reg.TOPO_STATUS 6 0 3 |>.setBit Reg.SUMP_STATUS 2 true
     |> onCav (fun x => { x with frames := [(oneCell frame3)], nextId := 1 })
     |>.modQueue 100 (fun x => { x with refs := [spilledRef] }), 100, by decide +kernel, by decide +kernel,
     spilledRef, by decide +kernel⟩,
   ⟨colsUp |>.setFld Reg.TOPO_STATUS 6 0 3 |>.setBit Reg.SUMP_STATUS 2 true
     |> onCav (fun x => { x with frames := [(oneCell frame3)], nextId := 1 })
     |>.modQueue 100 (fun x => { x with refs := [spilledRef] }), 100, by decide +kernel, by decide +kernel,
     spilledRef, by decide +kernel, by decide +kernel, by decide +kernel, by decide +kernel, (oneCell frame3), (1,
     0), by decide +kernel⟩,
   ⟨colsUp |>.setFld Reg.TOPO_STATUS 6 0 3 |>.setBit Reg.SUMP_STATUS 2 true
     |> onCav (fun x => { x with frames := [(oneCell frame3)], nextId := 1 })
     |>.modQueue 100 (fun x => { x with refs := [spilledRef] }), by decide +kernel⟩⟩

/-- The hypotheses of Obligations.SumpTraining can be met. -/
theorem witness_SumpTraining :
    (∃ (s : State), s.coreOn = true ∧ ∃ (m : Master) (data : Word), s.Takes m Reg.SUMP_TRAIN ∧
      data.getLsbD 0 = true ∧ s.bit Reg.GLB_MODE 3 = false ∧ s.bit Reg.SUMP_STATUS 0 = true ∧
      s.bit Reg.SUMP_TRAIN 0 = false ∧ s.sumpReady = false ∧ geomSize (s.reg Reg.SUMP_GEOM) ≠ 0) ∧
    (∃ (s : State), s.coreOn = true ∧ ∃ (m : Master) (data : Word), s.Takes m Reg.SUMP_TRAIN ∧
      data.getLsbD 0 = true ∧ s.bit Reg.GLB_MODE 3 = false ∧ s.bit Reg.SUMP_STATUS 0 = true ∧
      s.bit Reg.SUMP_TRAIN 0 = false ∧ s.sumpReady = false ∧ geomSize (s.reg Reg.SUMP_GEOM) = 0) ∧
    (∃ (s : State), s.coreOn = true ∧ s.bit Reg.SUMP_TRAIN 0 = true ∧ geomSize (s.reg Reg.SUMP_GEOM) ≠ 0) ∧
    (∃ (s : State), s.coreOn = true ∧ s.bit Reg.SUMP_TRAIN 0 = true) ∧
    (∃ (s : State), s.coreOn = true ∧ s.bit Reg.SUMP_CFG 1 = true ∧ s.sumpReady = true ∧
      s.fld Reg.SUMP_PATROL_POS 26 0 + 1 < s.sumpUnits) ∧
    (∃ (s : State), s.coreOn = true ∧ s.bit Reg.SUMP_CFG 1 = true ∧ s.sumpReady = true ∧
      s.sumpUnits ≤ s.fld Reg.SUMP_PATROL_POS 26 0 + 1) ∧
    (∃ (s : State), s.coreOn = true ∧ ∃ (m : Master), s.Takes m Reg.SUMP_UE_POP) ∧
    (∃ (s : State), s.coreOn = true ∧ ∃ (hot : Bool), s.sumpReady = true ∧ hot = true) ∧
    (∃ (s : State), s.coreOn = true ∧ ∃ (hot : Bool), s.sumpReady = true ∧ hot = false) :=
  ⟨⟨colsUp |>.setBit Reg.SUMP_STATUS 0 true |> arm 0, by decide +kernel, 0, 1,
     takes_of_takesB (by decide +kernel), by decide +kernel⟩,
   ⟨colsUp |>.setBit Reg.SUMP_STATUS 0 true |> arm 0 |>.setReg Reg.SUMP_GEOM 3, by decide +kernel, 0, 1,
     takes_of_takesB (by decide +kernel), by decide +kernel⟩,
   ⟨colsUp |>.setBit Reg.SUMP_TRAIN 0 true, by decide +kernel⟩,
   ⟨colsUp |>.setBit Reg.SUMP_TRAIN 0 true, by decide +kernel⟩,
   ⟨colsUp |>.setBit Reg.SUMP_CFG 1 true |>.setBit Reg.SUMP_STATUS 2 true |>.setFld Reg.SUMP_STATUS 5 4 1,
     by decide +kernel⟩,
   ⟨colsUp |>.setBit Reg.SUMP_CFG 1 true |>.setBit Reg.SUMP_STATUS 2 true |>.setFld Reg.SUMP_STATUS 5 4 1
     |>.setFld Reg.SUMP_PATROL_POS 26 0 33554431, by decide +kernel⟩,
   ⟨colsUp |> onCav (fun x => { x with ueFifo := [{ addr := 1, region := 1 }] }) |> arm 0, by decide +kernel,
     0, takes_of_takesB (by decide +kernel)⟩,
   ⟨colsUp |>.setBit Reg.SUMP_STATUS 2 true, by decide +kernel, true, by decide +kernel⟩,
   ⟨colsUp |>.setBit Reg.SUMP_STATUS 2 true, by decide +kernel, false, by decide +kernel⟩⟩

/-- The hypotheses of Obligations.ChambersOfCavern can be met. -/
theorem witness_ChambersOfCavern :
    (∃ (s : State), s.coreOn = true ∧ s.bit Reg.CAV_CFG 0 = true ∧ s.cav.scrubRow + 1 < 98304) ∧
    (∃ (s : State), s.coreOn = true ∧ s.bit Reg.CAV_CFG 0 = true ∧ 98304 ≤ s.cav.scrubRow + 1) ∧
    (∃ (s : State), s.coreOn = true ∧ s.cav.bistRun = true) ∧
    (∃ (s : State), s.coreOn = true ∧ ∃ (ph : ChamberIx) (c : Fin 16), s.cav.chamberBad.getLsbD ph.val = false ∧
      s.overUeLimit ph = true ∧ s.servedBy ph = some c ∧ s.cav.waiting = [] ∧ s.bit Reg.CAV_STATUS 1 = false ∧
      s.bit Reg.CAV_STATUS 2 = false) ∧
    (∃ (s : State), s.coreOn = true ∧ ∃ (ph : ChamberIx) (c : Fin 16), s.cav.chamberBad.getLsbD ph.val = false ∧
      s.overUeLimit ph = true ∧ s.servedBy ph = some c ∧ s.cav.waiting = [] ∧ s.bit Reg.CAV_STATUS 1 = true) :=
  ⟨⟨colsUp |>.setBit Reg.CAV_CFG 0 true, by decide +kernel⟩,
   ⟨colsUp |>.setBit Reg.CAV_CFG 0 true |> onCav (fun x => { x with scrubRow := 98303 }), by decide +kernel⟩,
   ⟨colsUp |> onCav (fun x => { x with bistRun := true }), by decide +kernel⟩,
   ⟨colsUp |>.setFld Reg.CAV_CFG 11 4 1 |> onCav (fun x => { x with ueEvents := vset x.ueEvents 3 [0, 0] }),
     by decide +kernel, 3, 3, by decide +kernel⟩,
   ⟨colsUp |>.setFld Reg.CAV_CFG 11 4 1 |> onCav (fun x => { x with ueEvents := vset x.ueEvents 3 [0, 0] })
     |>.setBit Reg.CAV_STATUS 1 true, by decide +kernel, 3, 3, by decide +kernel⟩⟩

/-- The hypotheses of Obligations.AllotmentPlans can be met. -/
theorem witness_AllotmentPlans :
    (∃ (s : State), s.coreOn = true ∧ ∃ (sup : Master) (plan : Plan), s.supervisor = some sup ∧ s.mode = .run ∧
      s.planFollows plan = false) ∧
    (∃ (s : State), s.coreOn = true ∧ ∃ (sup : Master) (plan : Plan), s.supervisor = some sup ∧ s.mode = .run ∧
      s.planFollows plan = true ∧ s.planOk plan = false ∧ s.sched.requests.find? (·.add) = none) ∧
    (∃ (s : State), s.coreOn = true ∧ ∃ (sup : Master) (plan : Plan), s.supervisor = some sup ∧ s.mode = .run ∧
      s.planFollows plan = true ∧ s.planOk plan = false ∧ ∃ r, s.sched.requests.find? (·.add) = some r) ∧
    (∃ (s : State), s.coreOn = true ∧ ∃ (sup : Master) (plan : Plan), s.supervisor = some sup ∧ s.mode = .run ∧
      ∃ (c : Instr) (x : PlanTry), ((c = .planCompute plan ∧ s.planFollows plan = true ∧ s.planOk plan = true ∧
      x = { plan := plan, target := none, requests := s.sched.requests }) ∨ (c = .planCommitRetry ∧ s.sched.retry = some x)) ∧
      (∃ g ∈ planGroups x.plan, (s.pendingCommit g).isSome = true)) ∧
    (∃ (s : State), s.coreOn = true ∧ ∃ (sup : Master) (plan : Plan), s.supervisor = some sup ∧ s.mode = .run ∧
      ∃ (c : Instr) (x : PlanTry), ((c = .planCompute plan ∧ s.planFollows plan = true ∧ s.planOk plan = true ∧
      x = { plan := plan, target := none, requests := s.sched.requests }) ∨ (c = .planCommitRetry ∧ s.sched.retry = some x)) ∧
      (∀ g ∈ planGroups x.plan, s.pendingCommit g = none) ∧ ∃ (s1 : State),
      State.commitGroups sup (x.target.getD (s.planTarget x.plan)) (planGroups x.plan) [] (s.writePlan x.plan) = (s1, true)) ∧
    (∃ (s : State), s.coreOn = true ∧ ∃ (sup : Master) (plan : Plan), s.supervisor = some sup ∧ s.mode = .run ∧
      ∃ (c : Instr) (x : PlanTry), ((c = .planCompute plan ∧ s.planFollows plan = true ∧ s.planOk plan = true ∧
      x = { plan := plan, target := none, requests := s.sched.requests }) ∨ (c = .planCommitRetry ∧ s.sched.retry = some x)) ∧
      (∀ g ∈ planGroups x.plan, s.pendingCommit g = none) ∧ ∃ (s1 : State),
      State.commitGroups sup (x.target.getD (s.planTarget x.plan)) (planGroups x.plan) [] (s.writePlan x.plan) = (s1, true) ∧ c = .planCommitRetry) ∧
    (∃ (s : State), s.coreOn = true ∧ ∃ (sup : Master) (plan : Plan), s.supervisor = some sup ∧ s.mode = .run ∧
      ∃ (c : Instr) (x : PlanTry), ((c = .planCompute plan ∧ s.planFollows plan = true ∧ s.planOk plan = true ∧
      x = { plan := plan, target := none, requests := s.sched.requests }) ∨ (c = .planCommitRetry ∧ s.sched.retry = some x)) ∧
      (∀ g ∈ planGroups x.plan, s.pendingCommit g = none) ∧ ∃ (s1 : State),
      State.commitGroups sup (x.target.getD (s.planTarget x.plan)) (planGroups x.plan) [] (s.writePlan x.plan) = (s1, false)) ∧
    (∃ (s : State), s.coreOn = true ∧ ∃ (m : Master) (id : BitVec 16), s.Inv ∧ s.Takes m Reg.COL_TREQ_CMD ∧
      ∃ (c : Instr) (op : Nat), ((c = .tunnelAdd m id ∧ op = 1) ∨ (c = .tunnelRemove m id ∧ op = 2)) ∧
      s.treqCode op id.toNat = 0 ∧ c = .tunnelAdd 0 5 ∧ op = 1) ∧
    (∃ (s : State), s.coreOn = true ∧ ∃ (m : Master) (id : BitVec 16), s.Inv ∧ s.Takes m Reg.COL_TREQ_CMD ∧
      ∃ (c : Instr) (op : Nat), ((c = .tunnelAdd m id ∧ op = 1) ∨ (c = .tunnelRemove m id ∧ op = 2)) ∧
      s.treqCode op id.toNat = 0 ∧ c = .tunnelRemove 0 5 ∧ op = 2) ∧
    (∃ (s : State), s.coreOn = true ∧ ∃ (m : Master) (id : BitVec 16), s.Inv ∧ s.Takes m Reg.COL_TREQ_CMD ∧
      ∃ (c : Instr) (op : Nat), ((c = .tunnelAdd m id ∧ op = 1) ∨ (c = .tunnelRemove m id ∧ op = 2)) ∧
      s.treqCode op id.toNat ≠ 0 ∧ id = 0 ∧ c = .tunnelAdd 0 0 ∧ op = 1) ∧
    (∃ (s : State), s.coreOn = true ∧ ∃ (m : Master) (id : BitVec 16), s.Inv ∧ s.Takes m Reg.COL_TREQ_CMD ∧
      ∃ (c : Instr) (op : Nat), ((c = .tunnelAdd m id ∧ op = 1) ∨ (c = .tunnelRemove m id ∧ op = 2)) ∧
      s.treqCode op id.toNat ≠ 0 ∧ id = 5 ∧ c = .tunnelRemove 0 5 ∧ op = 2) :=
  ⟨⟨stAllotmentPlans20, by decide +kernel, 0, { planOf 1 with afterRaise := some 7 }, by decide +kernel⟩,
   ⟨stAllotmentPlans20, by decide +kernel, 0, planOf 0xFFFFFFFF, by decide +kernel⟩,
   ⟨stAllotmentPlans20 |> onSched (fun x => { x with requests := [{ master := 0, add := true, tunnel := { id := 5, src := 1, dest := 2, tc := 5, rate := 1 } }] }),
     by decide +kernel, 0, planOf 0xFFFFFFFF, by decide +kernel, by decide +kernel, by decide +kernel, by decide +kernel,
     { master := 0, add := true, tunnel := { id := 5, src := 1, dest := 2, tc := 5, rate := 1 } }, by decide +kernel⟩,
   ⟨stAllotmentPlans20 |> onBeat (fun x => { x with commits := [{ group := 0x40, target := 5, master := 0 }] }), by decide +kernel, 0,
     planOf 1, by decide +kernel, by decide +kernel, .planCompute (planOf 1), { plan := planOf 1, target := none, requests := [] },
     by decide +kernel⟩,
   ⟨stAllotmentPlans20, by decide +kernel, 0, planOf 1, by decide +kernel, by decide +kernel, .planCompute (planOf 1),
     { plan := planOf 1, target := none, requests := [] }, by decide +kernel, by decide +kernel,
     (State.commitGroups 0 (stAllotmentPlans20.planTarget (planOf 1)) (planGroups (planOf 1)) [] (stAllotmentPlans20.writePlan (planOf 1))).1,
     Prod.ext rfl (by decide +kernel)⟩,
   ⟨stAllotmentPlans21, by decide +kernel, 0, planOf 1, by decide +kernel, by decide +kernel, .planCommitRetry,
     { plan := planOf 1, target := none, requests := [] }, by decide +kernel, by decide +kernel,
     (State.commitGroups 0 (stAllotmentPlans21.planTarget (planOf 1)) (planGroups (planOf 1)) [] (stAllotmentPlans21.writePlan (planOf 1))).1,
     Prod.ext rfl (by decide +kernel), by decide +kernel⟩,
   ⟨stAllotmentPlans20 |> onSched (fun x => { x with retry := some { plan := planOf 1, target := some 1, requests := [] } }),
     by decide +kernel, 0, planOf 1, by decide +kernel, by decide +kernel, .planCommitRetry,
     { plan := planOf 1, target := some 1, requests := [] }, by decide +kernel, by decide +kernel,
     (State.commitGroups 0 1 (planGroups (planOf 1)) []
       ((stAllotmentPlans20 |> onSched (fun x => { x with retry := some { plan := planOf 1, target := some 1, requests := [] } })).writePlan (planOf 1))).1,
     Prod.ext rfl (by decide +kernel)⟩,
   ⟨colsUp |> inRun |>.setReg Reg.COL_SUPER 0 |> onSched (fun x => { x with envelopes := [wideEnvelope] })
     |>.setReg Reg.BEAT_NUM 100 |> arm 0, by decide +kernel, 0, 5, inv_of_bools (by decide +kernel),
     takes_of_takesB (by decide +kernel), .tunnelAdd 0 5, 1, by decide +kernel⟩,
   ⟨colsUp |> inRun |>.setReg Reg.COL_SUPER 0 |> onSched (fun x => { x with envelopes := [wideEnvelope] })
     |>.setReg Reg.BEAT_NUM 100 |> arm 0
     |> onSched (fun x => { x with tunnels := [{ id := 5, src := 1, dest := 2, tc := 5, rate := 1 }] }),
     by decide +kernel, 0, 5, inv_of_bools (by decide +kernel), takes_of_takesB (by decide +kernel),
     .tunnelRemove 0 5, 2, by decide +kernel⟩,
   ⟨colsUp |> inRun |>.setReg Reg.COL_SUPER 0 |> onSched (fun x => { x with envelopes := [wideEnvelope] })
     |>.setReg Reg.BEAT_NUM 100 |> arm 0, by decide +kernel, 0, 0, inv_of_bools (by decide +kernel),
     takes_of_takesB (by decide +kernel), .tunnelAdd 0 0, 1, by decide +kernel⟩,
   ⟨colsUp |> inRun |>.setReg Reg.COL_SUPER 0 |> onSched (fun x => { x with envelopes := [wideEnvelope] })
     |>.setReg Reg.BEAT_NUM 100 |> arm 0, by decide +kernel, 0, 5, inv_of_bools (by decide +kernel),
     takes_of_takesB (by decide +kernel), .tunnelRemove 0 5, 2, by decide +kernel⟩⟩

/-- The hypotheses of Obligations.EnginesFailAndReturn can be met. -/
theorem witness_EnginesFailAndReturn :
    (∃ (s : State), s.coreOn = true ∧ ∃ (e : EngineIx) (r : RoleIx), s.eng.engines[e].role = some r ∧
      s.fld Reg.ENG_CFG 15 0 ≠ 0 ∧ s.eng.roles[r].outstanding ≠ none ∧ s.pwr.state ≠ .layover) ∧
    (∃ (s : State), s.coreOn = true ∧ ∃ (e : EngineIx) (r : RoleIx), s.eng.engines[e].role = some r ∧
      s.eng.engines[e].state = .active) ∧
    (∃ (s : State), s.coreOn = true ∧ ∃ (r : RoleIx), s.eng.roles[r].engine = none ∧ s.eng.roles[r].vacant = false ∧
      ∃ (e : EngineIx), s.bit Reg.ENG_CFG 16 = true ∧ s.lowestSpare = some e) ∧
    (∃ (s : State), s.coreOn = true ∧ ∃ (r : RoleIx), s.eng.roles[r].engine = none ∧ s.eng.roles[r].vacant = false ∧
      (s.bit Reg.ENG_CFG 16 = false ∨ s.lowestSpare = none)) ∧
    (∃ (s : State), s.coreOn = true ∧ ∃ (e : EngineIx), s.eng.engines[e].state = .quarantine) ∧
    (∃ (s : State) (m : Master) (target : BitVec 5), s.Inv ∧ s.Takes m Reg.ENG_CMD ∧ target = 31) ∧
    (∃ (s : State) (m : Master) (target : BitVec 5), s.Inv ∧ s.Takes m Reg.ENG_CMD ∧ target = 0) ∧
    (∃ (s : State) (m : Master) (target : BitVec 5), s.Inv ∧ s.Takes m Reg.ENG_CMD ∧ target = 3) :=
  ⟨⟨colsUp |>.modEngine 0 (fun x => { x with state := .active, role := some 0 })
     |>.modRole 0 (fun x => { x with engine := some 0, outstanding := some 3 }) |>.setFld Reg.ENG_CFG 15 0 2,
     by decide +kernel, 0, 0, by decide +kernel⟩,
   ⟨colsUp |>.modEngine 0 (fun x => { x with state := .active, role := some 0 })
     |>.modRole 0 (fun x => { x with engine := some 0, outstanding := some 3 }) |>.setFld Reg.ENG_CFG 15 0 2,
     by decide +kernel, 0, 0, by decide +kernel⟩,
   ⟨colsUp |>.modRole 2 (fun x => { x with engine := none, vacant := false }) |>.setBit Reg.ENG_CFG 16 true
     |>.modEngine 17 (fun x => { x with state := .spare }) |>.modEngine 0 (fun x => { x with state := .active })
     |>.modEngine 1 (fun x => { x with state := .active }) |>.modEngine 2 (fun x => { x with state := .active })
     |>.modEngine 3 (fun x => { x with state := .active }) |>.modEngine 4 (fun x => { x with state := .active })
     |>.modEngine 5 (fun x => { x with state := .active }) |>.modEngine 6 (fun x => { x with state := .active })
     |>.modEngine 7 (fun x => { x with state := .active }) |>.modEngine 8 (fun x => { x with state := .active })
     |>.modEngine 9 (fun x => { x with state := .active }) |>.modEngine 10 (fun x => { x with state := .active })
     |>.modEngine 11 (fun x => { x with state := .active }) |>.modEngine 12 (fun x => { x with state := .active })
     |>.modEngine 13 (fun x => { x with state := .active }) |>.modEngine 14 (fun x => { x with state := .active })
     |>.modEngine 15 (fun x => { x with state := .active }) |>.modEngine 16 (fun x => { x with state := .active }),
     by decide +kernel, 2, by decide +kernel, by decide +kernel, 17, by decide +kernel⟩,
   ⟨colsUp |>.modRole 2 (fun x => { x with engine := none, vacant := false }) |>.setBit Reg.ENG_CFG 16 false,
     by decide +kernel, 2, by decide +kernel⟩,
   ⟨colsUp |>.modEngine 3 (fun x => { x with state := .quarantine }), by decide +kernel, 3, by decide +kernel⟩,
   ⟨colsUp |> arm 0, 0, 31, inv_of_bools (by decide +kernel), takes_of_takesB (by decide +kernel),
     by decide +kernel⟩,
   ⟨colsUp |> arm 0 |>.modEngine 0 (fun x => { x with state := .active, role := some 0 })
     |>.modRole 0 (fun x => { x with engine := some 0, outstanding := some 3 })
     |>.modEngine 17 (fun x => { x with state := .spare }), 0, 0, inv_of_bools (by decide +kernel),
     takes_of_takesB (by decide +kernel), by decide +kernel⟩,
   ⟨colsUp |> arm 0 |>.modEngine 3 (fun x => { x with state := .failed }), 0, 3,
     inv_of_bools (by decide +kernel), takes_of_takesB (by decide +kernel), by decide +kernel⟩⟩

/-- The hypotheses of Obligations.ColumnRestarts can be met. -/
theorem witness_ColumnRestarts :
    (∃ (s : State), s.Inv ∧ s.coreOn = true ∧ ∃ (c : ColumnIx), s.eng.columns[c].state = .running ∧
      (s.eng.columns[c].restarts.filter fun h => decide (s.heads < h + 16000)).length + 1 ≤ s.fld Reg.COL_CFG 7 0) ∧
    (∃ (s : State), s.Inv ∧ s.coreOn = true ∧ ∃ (c : ColumnIx), s.eng.columns[c].state = .running ∧
      s.fld Reg.COL_CFG 7 0 < (s.eng.columns[c].restarts.filter fun h => decide (s.heads < h + 16000)).length + 1) ∧
    (∃ (s : State), s.Inv ∧ s.coreOn = true ∧ ∃ (c : ColumnIx), s.eng.columns[c].state = .restoring) ∧
    (∃ (s : State), s.Inv ∧ s.coreOn = true ∧ ∃ (r : RoleIx) (k : Nat), s.eng.roles[r].outstanding = some k ∧
      ∀ x : RoleIx, s.eng.roles[x].engine.isSome = true → ∀ d ∈ s.eng.roles[x].inbox, d.acted = true) ∧
    (∃ (s : State), s.Inv ∧ s.coreOn = true ∧ ∃ (c : ColumnIx) (k : Nat), s.eng.columns[c].outstanding = some k) :=
  ⟨⟨colsUp |>.setFld Reg.COL_CFG 7 0 2 |> inRun
     |>.modColumn 1 (fun x => { x with state := .running, loaded := true }), inv_of_bools (by decide +kernel),
     by decide +kernel, 1, by decide +kernel⟩,
   ⟨colsUp |>.setFld Reg.COL_CFG 7 0 2 |> inRun
     |>.modColumn 1 (fun x => { x with state := .running, loaded := true })
     |>.modColumn 1 (fun x => { x with restarts := [0, 0] }), inv_of_bools (by decide +kernel), by decide +kernel,
     1, by decide +kernel⟩,
   ⟨colsUp |>.modColumn 1 (fun x => { x with state := .restoring }), inv_of_bools (by decide +kernel),
     by decide +kernel, 1, by decide +kernel⟩,
   ⟨colsUp |>.modEngine 0 (fun x => { x with state := .active, role := some 0 })
     |>.modRole 0 (fun x => { x with engine := some 0, outstanding := some 3 }), inv_of_bools (by decide +kernel),
     by decide +kernel, 0, 3, by decide +kernel⟩,
   ⟨colsUp |>.modColumn 3 (fun x => { x with outstanding := some 0 }), inv_of_bools (by decide +kernel),
     by decide +kernel, 3, 0, by decide +kernel⟩⟩

/-- The hypotheses of Obligations.AccessesAndArming can be met. -/
theorem witness_AccessesAndArming :
    (∃ (s : State) (m : Master), s.coreOn = true ∧ s.Takes m Reg.TUN_CFG) ∧
    (∃ (s : State) (m : Master), s.coreOn = true ∧ ∃ (a : Nat) (r : RegRow), a < 0x1000000 ∧ a % 4 = 0 ∧
      regRow a = some r ∧ s.Admits m .write a 4 ∧ r.bits .grd &&& 0xFFFFFFFF ≠ 0 ∧ s.armed m = false) ∧
    (∃ (s : State) (m : Master), s.coreOn = true ∧ s.Admits m .write (0x100000000 + Reg.TUN_CFG * 32 + 20) 4 ∧ s.mode = .run) ∧
    (∃ (s : State) (m : Master), s.coreOn = true ∧ s.Admits m .write (0x100000000 + Reg.TUN_CFG * 32 + 20) 4 ∧ s.mode ≠ .run) ∧
    (∃ (s : State) (m : Master), s.coreOn = true ∧ ∃ (e : EngineIx) (size : Nat) (tag : Option EngineTag), Master.engine m = some e ∧
      s.made m size = true ∧ (∀ g, tag = some g → g.engine = e ∧ s.isZombie g = true) ∧ (tag = none → s.roleless m = true) ∧ tag.isSome = true) ∧
    (∃ (s : State) (m : Master), s.coreOn = true ∧ ∃ (e : EngineIx) (size : Nat) (tag : Option EngineTag), Master.engine m = some e ∧
      s.made m size = true ∧ (∀ g, tag = some g → g.engine = e ∧ s.isZombie g = true) ∧ (tag = none → s.roleless m = true) ∧ tag = none) ∧
    (∃ (s : State) (m : Master), s.coreOn = true ∧ ∃ (a : Nat), a < 0x1000000 ∧ a % 4 = 0 ∧ isLo48 a = true ∧ s.Admits m .read a 4 ∧
      s.ownRule m a false = false ∧ s.acc.capture[m] = none) ∧
    (∃ (s : State) (m : Master), s.coreOn = true ∧ ∃ (data : Word), data ≠ 0x7A5C1E09 ∧ s.Takes m Reg.GLB_UNLOCK) ∧
    (∃ (s : State) (m : Master), s.coreOn = true ∧ ∃ n, s.acc.unlock[m] = some n ∧ 2 ≤ n) ∧
    (∃ (s : State) (m : Master), s.coreOn = true ∧ ∃ n, s.acc.unlock[m] = some n ∧ n < 2) :=
  ⟨⟨colsUp |> arm 0, 0, by decide +kernel, takes_of_takesB (by decide +kernel)⟩,
   ⟨colsUp, 0, by decide +kernel, Reg.ENG_CMD,
     ((regRow Reg.ENG_CMD).getD { base := 0, dims := [], parts := [], reset := 0, perMaster := false, kept := false }),
     by decide +kernel, by decide +kernel, by decide +kernel, admits_of (by decide +kernel), by decide +kernel⟩,
   ⟨colsUp |> inRun |> arm 0, 0, by decide +kernel, admits_of (by decide +kernel), by decide +kernel⟩,
   ⟨colsUp |> arm 0, 0, by decide +kernel, admits_of (by decide +kernel), by decide +kernel⟩,
   ⟨colsUp |>.modEngine 0 (fun x => { x with state := .active, role := some 0 })
     |>.modRole 0 (fun x => { x with engine := some 0, outstanding := some 3 }), 0x10, by decide +kernel, 0, 8,
     some { engine := 0, role := 0, epoch := 9 }, by decide +kernel, by decide +kernel,
     (by rintro g ⟨⟩; decide +kernel), nofun, rfl⟩,
   ⟨colsUp |>.modEngine 0 (fun x => { x with state := .spare, role := none }), 0x10, by decide +kernel, 0, 8, none, by decide +kernel,
     by decide +kernel, nofun, fun _ => by decide +kernel, rfl⟩,
   ⟨colsUp, 0, by decide +kernel, Reg.CAV_CUT_LO, by decide +kernel, by decide +kernel, by decide +kernel,
     admits_of (by decide +kernel), by decide +kernel⟩,
   ⟨colsUp |> arm 0, 0, by decide +kernel, 1, by decide +kernel, takes_of_takesB (by decide +kernel)⟩,
   ⟨colsUp |> onAcc (fun x => { x with unlock := vset x.unlock 3 (some 2) }), 3, by decide +kernel, 2, by decide +kernel⟩,
   ⟨colsUp |> onAcc (fun x => { x with unlock := vset x.unlock 3 (some 1) }), 3, by decide +kernel, 1, by decide +kernel⟩⟩

/-- The hypotheses of Obligations.RefusedAccess can be met. -/
theorem witness_RefusedAccess :
    (∃ (s : State), s.coreOn = true ∧ ∃ (a : Access), s.made a.master a.size = true ∧ s.zombieWrite a.master a.kind a.tag = none ∧
      s.roleless a.master = false ∧ (s.checkAccess a.master a.kind a.addr.toNat a.size).ok = false) ∧
    (∃ (s : State), s.coreOn = true ∧ ∃ (c : ColumnIx) (addr : BitVec 40) (data : List Byte),
      (s.colLine c addr.toNat).filter (·.dirty) = none ∧ s.made ⟨c.val, by omega⟩ data.length = true ∧
      (s.checkAccess ⟨c.val, by omega⟩ .write addr.toNat data.length).ok = false) ∧
    (∃ (s : State), s.coreOn = true ∧ ∃ (c : ColumnIx) (addr : BitVec 40) (l : ColLine), s.colLine c addr.toNat = some l ∧ l.dirty = true ∧
      s.made ⟨c.val, by omega⟩ 64 = true ∧ (s.checkAccess ⟨c.val, by omega⟩ .write (64 * l.line) l.bytes.length).ok = false) ∧
    (∃ (s : State), s.coreOn = true ∧ ∃ (srcEp : EpId) (tc : BitVec 3) (req : MgmtRequest), req.ok = true ∧
      s.pwr.state = .active ∧ (s.checkAccess 7 (if req.op = 1 then .read else .write) req.addr.toNat 4).ok = false ∧
      (req.op = 2 → req.data ≠ []) ∧ ∃ (c : Instr), (c = .mgmtReadRequest srcEp tc req ∨
      c = .mgmtWriteRequest srcEp tc req) ∧ req.op = 1) ∧
    (∃ (s : State), s.coreOn = true ∧ ∃ (srcEp : EpId) (tc : BitVec 3) (req : MgmtRequest), req.ok = true ∧
      s.pwr.state = .active ∧ (s.checkAccess 7 (if req.op = 1 then .read else .write) req.addr.toNat 4).ok = false ∧
      (req.op = 2 → req.data ≠ []) ∧ ∃ (c : Instr), (c = .mgmtReadRequest srcEp tc req ∨
      c = .mgmtWriteRequest srcEp tc req) ∧ req.op = 2) :=
  ⟨⟨colsUp, by decide +kernel,
     { master := 7, kind := .read, addr := 0x10000, size := 4, data := [], tag := none }, by decide +kernel⟩,
   ⟨colsUp, by decide +kernel, 3, 0x10000, [1, 2], by decide +kernel⟩,
   ⟨colsUp |>.modColumn 3 (fun x => { x with lines := [lineOf 0x400] }), by decide +kernel, 3, 0x10008, lineOf 0x400,
     by decide +kernel⟩,
   ⟨colsUp, by decide +kernel, 5, 0,
     { ver := 1, op := 1, tag := 0, count := 1, addr := 0x10000, len := 16, data := [] }, by decide +kernel,
     by decide +kernel, by decide +kernel, by decide +kernel,
     .mgmtReadRequest 5 0 { ver := 1, op := 1, tag := 0, count := 1, addr := 0x10000, len := 16, data := [] },
     by decide +kernel⟩,
   ⟨colsUp, by decide +kernel, 5, 0,
     { ver := 1, op := 2, tag := 0, count := 1, addr := 0x10000, len := 20, data := [9] }, by decide +kernel,
     by decide +kernel, by decide +kernel, by decide +kernel,
     .mgmtWriteRequest 5 0 { ver := 1, op := 2, tag := 0, count := 1, addr := 0x10000, len := 20, data := [9] },
     by decide +kernel⟩⟩

/-- The hypotheses of Obligations.StoredBytes can be met. -/
theorem witness_StoredBytes :
    (∃ (s : State), s.Inv ∧ s.coreOn = true ∧ ∃ (a : Access), a.kind = .write ∧ s.made a.master a.size = true ∧
      s.zombieWrite a.master .write a.tag = none ∧ s.roleless a.master = false ∧ a.data.length = a.size ∧
      (s.checkAccess a.master .write a.addr.toNat a.size).ok = true ∧ s.Uncached a.master .write a.addr.toNat a.size ∧
      (∀ i, i < a.size → s.targetOf (a.addr.toNat + i) = .tcm false) ∧ a.master = 0) ∧
    (∃ (s : State), s.Inv ∧ s.coreOn = true ∧ ∃ (a : Access), a.kind = .write ∧ s.made a.master a.size = true ∧
      s.zombieWrite a.master .write a.tag = none ∧ s.roleless a.master = false ∧ a.data.length = a.size ∧
      (s.checkAccess a.master .write a.addr.toNat a.size).ok = true ∧ s.Uncached a.master .write a.addr.toNat a.size ∧
      (∀ i, i < a.size → s.targetOf (a.addr.toNat + i) = .tcm false) ∧ a.master = 1) ∧
    (∃ (s : State), s.Inv ∧ s.coreOn = true ∧ ∃ (c : ColumnIx) (addr : BitVec 40) (data : List Byte),
      (s.colLine c addr.toNat).filter (·.dirty) = none ∧ s.sumpReady = true ∧ s.made ⟨c.val, by omega⟩ data.length = true ∧
      (s.checkAccess ⟨c.val, by omega⟩ .write addr.toNat data.length).ok = true ∧
      (∀ i, i < data.length → s.targetOf (addr.toNat + i) = .columns)) ∧
    (∃ (s : State), s.Inv ∧ s.coreOn = true ∧ ∃ (c : ColumnIx) (addr : BitVec 40) (l : ColLine), s.colLine c addr.toNat = some l ∧
      l.dirty = true ∧ l.bytes.length = 64 ∧ s.sumpReady = true ∧ s.made ⟨c.val, by omega⟩ 64 = true ∧ (s.checkAccess ⟨c.val, by omega⟩ .write (64 * l.line) 64).ok = true ∧
      (∀ i, i < 64 → s.targetOf (64 * l.line + i) = .columns)) ∧
    (∃ (s : State), s.Inv ∧ s.coreOn = true ∧ ∃ (m : Master) (addr : BitVec 40), s.Admits m .write addr.toNat 4 ∧
      s.Uncached m .write addr.toNat 4 ∧ (∀ i, i < 4 → s.targetOf (addr.toNat + i) = .diag) ∧ s.mode = .test) ∧
    (∃ (s : State), s.Inv ∧ s.coreOn = true ∧ ∃ (m : Master) (addr : BitVec 40), s.Admits m .write addr.toNat 4 ∧
      s.Uncached m .write addr.toNat 4 ∧ (∀ i, i < 4 → s.targetOf (addr.toNat + i) = .diag) ∧ s.mode ≠ .test) :=
  ⟨⟨colsUp, inv_of_bools (by decide +kernel), by decide +kernel,
     { master := 0, kind := .write, addr := 0x0300000000, size := 2, data := [1, 2], tag := none },
     by decide +kernel, by decide +kernel, by decide +kernel, by decide +kernel, by decide +kernel, by decide +kernel,
     .inl (by decide +kernel), by decide +kernel⟩,
   ⟨colsUp, inv_of_bools (by decide +kernel), by decide +kernel,
     { master := 1, kind := .write, addr := 0x030001FFF0, size := 4, data := [1, 2, 3, 4], tag := none },
     by decide +kernel, by decide +kernel, by decide +kernel, by decide +kernel, by decide +kernel, by decide +kernel,
     .inl (by decide +kernel), by decide +kernel⟩,
   ⟨colsUp |>.setBit Reg.SUMP_STATUS 0 true |>.setBit Reg.SUMP_STATUS 2 true |>.setFld Reg.SUMP_STATUS 5 4 1, inv_of_bools (by decide +kernel),
     by decide +kernel, 0, 0x10C0000000, [1, 2], by decide +kernel⟩,
   ⟨colsUp |>.setBit Reg.SUMP_STATUS 0 true |>.setBit Reg.SUMP_STATUS 2 true |>.setFld Reg.SUMP_STATUS 5 4 1
     |>.modColumn 0 (fun x => { x with lines := [lineOf (0x10C0000000 / 64)] }), inv_of_bools (by decide +kernel),
     by decide +kernel, 0, 0x10C0000004, lineOf (0x10C0000000 / 64), by decide +kernel⟩,
   ⟨colsUp |> inTest, inv_of_bools (by decide +kernel), by decide +kernel, 0, 0x0200000000, admits_of (by decide +kernel),
     .inl (by decide +kernel), by decide +kernel⟩,
   ⟨colsUp |> inRun, inv_of_bools (by decide +kernel), by decide +kernel, 0, 0x0203FFFFFC, admits_of (by decide +kernel),
     .inl (by decide +kernel), by decide +kernel⟩⟩

/-- The hypotheses of Obligations.UnlockArming can be met. -/
theorem witness_UnlockArming :
    (∃ (s : State), s.coreOn = true ∧ ∃ (m : Master), s.Takes m Reg.GLB_UNLOCK) ∧
    (∃ (s : State) (a : BitVec 7), s.coreOn = true ∧ a.toNat = 0x2C + s.hubSeat) ∧
    (∃ (s : State), s.coreOn = true ∧ s.carHears .spi = true ∧ s.pwr.state = .active ∧ s.Takes 5 Reg.MON_CFG ∧
      ∃ (addr : CarAddr) (data : List Byte), carAddr addr = BitVec.ofNat 40 Reg.MON_CFG ∧ 4 ≤ data.length) :=
  ⟨⟨colsUp, by decide +kernel, 0, takes_of_takesB (by decide +kernel)⟩,
   ⟨colsUp, 0x2C + BitVec.ofNat 7 colsUp.hubSeat, by decide +kernel⟩,
   ⟨colsUp |> inService |> arm 5, by decide +kernel, rfl, rfl, takes_of_takesB (by decide +kernel),
     #v[0, 0, 0x1A, 0, 0], [1, 2, 3, 4], by decide +kernel⟩⟩

/-- The hypotheses of Obligations.SnapshotsAndBanks can be met. -/
theorem witness_SnapshotsAndBanks :
    (∃ (s : State), s.Inv ∧ s.coreOn = true ∧ ∃ (m : Master) (data : Word), s.Takes m Reg.CNT_SNAP_CMD ∧
      data.getLsbD 0 = true ∧ data.getLsbD 1 = false ∧ s.acc.snapPending = false ∧ (s.sumpReady = false ∨
      (s.bit Reg.CNT_SNAP_STATUS 2 = false ∧ s.bit Reg.CNT_SNAP_STATUS 3 = false))) ∧
    (∃ (s : State), s.Inv ∧ s.coreOn = true ∧ ∃ (m : Master) (data : Word), s.Takes m Reg.CNT_SNAP_CMD ∧
      data.getLsbD 0 = true ∧ data.getLsbD 1 = false ∧ s.acc.snapPending = false ∧ s.sumpReady = true ∧
      (s.bit Reg.CNT_SNAP_STATUS 2 = true ∨ s.bit Reg.CNT_SNAP_STATUS 3 = true)) ∧
    (∃ (s : State), s.Inv ∧ s.coreOn = true ∧ ∃ (m : Master), s.Takes m Reg.CNT_SNAP_CMD ∧
      s.bit Reg.CNT_SNAP_STATUS 2 = true ∧ s.bit Reg.CNT_SNAP_STATUS 3 = false) ∧
    (∃ (s : State), s.Inv ∧ s.coreOn = true ∧ s.bit Reg.CNT_SNAP_STATUS 3 = true) :=
  ⟨⟨colsUp |> arm 0, inv_of_bools (by decide +kernel), by decide +kernel, 0, 1,
     takes_of_takesB (by decide +kernel), by decide +kernel⟩,
   ⟨colsUp |> arm 0 |>.setBit Reg.CNT_SNAP_STATUS 2 true |>.setBit Reg.SUMP_STATUS 2 true
     |>.setFld Reg.SUMP_STATUS 5 4 1, inv_of_bools (by decide +kernel), by decide +kernel, 0, 1,
     takes_of_takesB (by decide +kernel), by decide +kernel⟩,
   ⟨colsUp |> arm 0 |>.setBit Reg.CNT_SNAP_STATUS 2 true, inv_of_bools (by decide +kernel), by decide +kernel,
     0, takes_of_takesB (by decide +kernel), by decide +kernel⟩,
   ⟨colsUp |>.setBit Reg.CNT_SNAP_STATUS 3 true, inv_of_bools (by decide +kernel), by decide +kernel⟩⟩

/-- The hypotheses of Obligations.RuleChanges can be met. -/
theorem witness_RuleChanges :
    (∃ (s : State), s.Inv ∧ s.coreOn = true ∧ ∃ (m : Master), s.Takes m Reg.MPU_SYNC) ∧
    (∃ (s : State), s.Inv ∧ s.coreOn = true ∧ ∃ (m : Master) (n : Nat), s.acc.barrier[m] = some n) ∧
    (∃ (s : State), s.Inv ∧ s.coreOn = true ∧ ∃ (a : Nat) (w : Word) (rest : List (Nat × Word)), s.acc.changes = (a,
      w) :: rest) ∧
    (∃ (s : State), s.Inv ∧ s.coreOn = true ∧ ∃ (m : Master), s.Takes m Reg.MPU_FAULT_POP) :=
  ⟨⟨colsUp |> arm 0 |> onAcc (fun x => { x with changes := [(Reg.MPU_RGN_START_LO 0, 1)] }),
     inv_of_bools (by decide +kernel), by decide +kernel, 0, takes_of_takesB (by decide +kernel)⟩,
   ⟨colsUp
     |> onAcc (fun x => { x with barrier := vset x.barrier 0 (some 1), changes := [(Reg.MPU_RGN_START_LO 0, 1)] }),
     inv_of_bools (by decide +kernel), by decide +kernel, 0, 1, by decide +kernel⟩,
   ⟨colsUp |> onAcc (fun x => { x with changes := [(Reg.MPU_RGN_START_LO 0, 0x10)] }),
     inv_of_bools (by decide +kernel), by decide +kernel, Reg.MPU_RGN_START_LO 0, 0x10, [], by decide +kernel⟩,
   ⟨colsUp |> arm 0 |> onAcc (fun x => { x with faults := [someFault, someFault] }),
     inv_of_bools (by decide +kernel), by decide +kernel, 0, takes_of_takesB (by decide +kernel)⟩⟩

/-- The hypotheses of Obligations.RequestsServed can be met. -/
theorem witness_RequestsServed :
    (∃ (s : State), s.coreOn = true ∧ ∃ (srcEp : EpId) (tc : BitVec 3) (req : MgmtRequest),
      (s.serve 7 req).state.bit Reg.PWR_WAKE_EN 2 = false ∧ ∃ (c : Instr), (c = .mgmtReadRequest srcEp tc req ∨
      c = .mgmtWriteRequest srcEp tc req)) ∧
    (∃ (s : State), s.coreOn = true ∧ s.mfReached = true ∧ s.bit Reg.PWR_WAKE_EN 0 = false ∧ s.bulkFree = false) ∧
    (∃ (s : State), s.coreOn = true ∧ s.mfReached = true ∧ s.bit Reg.PWR_WAKE_EN 0 = false ∧ s.bulkFree = true ∧ s.mfSession ≠ 1) ∧
    (∃ (s : State), s.coreOn = true ∧ s.mfReached = true ∧ s.bit Reg.PWR_WAKE_EN 0 = false ∧ s.bulkFree = true ∧ s.mfSession = 1 ∧
      ∃ (req : MgmtRequest) (x : Served), x = s.serve 6 req ∧ x.state.bit Reg.PWR_WAKE_EN 0 = false ∧ req.ok = true) ∧
    (∃ (s : State) (via : CarPort), s.coreOn = true ∧ s.carHears via = false) ∧
    (∃ (s : State), s.coreOn = true ∧ s.bit Reg.PWR_WAKE_EN 1 = false ∧ ∃ (via : CarPort) (count : Byte) (addr : CarAddr) (x : Served),
      s.carHears via = true ∧ x = s.drawn.carServe count (carAddr addr) count.toNat ∧ x.state.bit Reg.PWR_WAKE_EN 1 = false ∧
      via = .spi ∧ carOk count (carAddr addr) = false) ∧
    (∃ (s : State), s.coreOn = true ∧ s.bit Reg.PWR_WAKE_EN 1 = false ∧ ∃ (via : CarPort) (count : Byte) (addr : CarAddr) (x : Served),
      s.carHears via = true ∧ x = s.drawn.carServe count (carAddr addr) count.toNat ∧ x.state.bit Reg.PWR_WAKE_EN 1 = false ∧
      via = .i2c 0x2C ∧ carOk count (carAddr addr) = true) ∧
    (∃ (s : State), s.coreOn = true ∧ s.bit Reg.PWR_WAKE_EN 1 = false ∧ s.carHears .spi = true ∧ ∃ k, k ≤ s.carFill .spi) ∧
    (∃ (s : State), s.coreOn = true ∧ s.bit Reg.PWR_WAKE_EN 1 = false ∧ ∃ (count : Byte) (addr : CarAddr) (data : List Byte),
      s.carHears .spi = true ∧ (carOk count (carAddr addr) = false ∨ data.length < 4 * count.toNat) ∧ carOk count (carAddr addr) = true) ∧
    (∃ (s : State), s.coreOn = true ∧ s.bit Reg.PWR_WAKE_EN 1 = false ∧ ∃ (count : Byte) (addr : CarAddr) (data : List Byte) (x : Served),
      s.carHears .spi = true ∧ x = s.serveWrites 5 (carAddr addr).toNat (carWords count.toNat data) ∧ carOk count (carAddr addr) = true ∧
      4 * count.toNat ≤ data.length ∧ x.state.bit Reg.PWR_WAKE_EN 1 = false) :=
  ⟨⟨stServed, by decide +kernel, 5, 0,
     { ver := 1, op := 1, tag := 0, count := 1, addr := 0x000000, len := 16, data := [] }, by decide +kernel,
     .mgmtReadRequest 5 0 { ver := 1, op := 1, tag := 0, count := 1, addr := 0x000000, len := 16, data := [] },
     by decide +kernel⟩,
   ⟨stServed |> onUsb (fun x => { x with replies := List.replicate 8 { op := 0x81, tag := 0, count := 0, done := 0, status := 3, data := [] } }),
     by decide +kernel⟩,
   ⟨stServed, by decide +kernel⟩,
   ⟨stServedOpen, by decide +kernel, by decide +kernel, by decide +kernel, by decide +kernel, by decide +kernel,
     { ver := 1, op := 1, tag := 0, count := 1, addr := 0x000000, len := 16, data := [] }, _, rfl, by decide +kernel⟩,
   ⟨colsUp, .i2c 0x2F, by decide +kernel⟩,
   ⟨stServed, by decide +kernel, by decide +kernel, .spi, 0, #v[0, 0, 0, 0, 0], _, by decide +kernel, rfl, by decide +kernel⟩,
   ⟨stServed, by decide +kernel, by decide +kernel, .i2c 0x2C, 1, #v[0, 0, 0, 0, 0], _, by decide +kernel, rfl, by decide +kernel⟩,
   ⟨stServed, by decide +kernel, by decide +kernel, by decide +kernel, 0, Nat.zero_le _⟩,
   ⟨stServed, by decide +kernel, by decide +kernel, 1, #v[0, 0, 0, 0, 0], [1, 2, 3], by decide +kernel⟩,
   ⟨stServed, by decide +kernel, by decide +kernel, 1, #v[0, 0, 0, 0, 0], [1, 2, 3, 4], _, by decide +kernel, rfl, by decide +kernel⟩⟩

/-- The hypotheses of Obligations.KeyCommandsAccepted can be met. -/
theorem witness_KeyCommandsAccepted :
    (∃ (s : State) (m : Master) (c : Instr) (w : Nat), s.Inv ∧ ∃ (a : Nat) (root : Bool), ((root = false ∧
      a = Reg.KEY_CMD ∧ ((∃ r d, c = .derive m r d ∧ w = 1 + 16 * b2n r + 32 * b2n d) ∨ (c = .keyInvalidate m ∧
      w = 2) ∨ (c = .mac m ∧ w = 3) ∨ (c = .sign m ∧ w = 4) ∨ (∃ r, c = .ecdhGen m r ∧ w = 5 + 16 * b2n r) ∨ (∃ r,
      c = .ecdhAgree m r ∧ w = 6 + 16 * b2n r) ∨ (c = .wrap m ∧ w = 7) ∨ (∃ r, c = .unwrap m r ∧
      w = 8 + 16 * b2n r) ∨ (c = .keyInfo m ∧ w = 9) ∨ (∃ x, c = .saInstall m x ∧ w = 10 + 64 * b2n x) ∨ (∃ x,
      c = .saRetire m x ∧ w = 11 + 64 * b2n x))) ∨ (root = true ∧ a = Reg.KEY_ROOT_CMD ∧ ((c = .rootNew m ∧ w = 1) ∨
      (c = .zeroise m ∧ w = 2)))) ∧ s.Takes m a ∧ c = .mac 0 ∧ w = 3 ∧ a = Reg.KEY_CMD ∧ root = false) ∧
    (∃ (s : State) (m : Master) (c : Instr) (w : Nat), s.Inv ∧ ∃ (a : Nat) (root : Bool), ((root = false ∧
      a = Reg.KEY_CMD ∧ ((∃ r d, c = .derive m r d ∧ w = 1 + 16 * b2n r + 32 * b2n d) ∨ (c = .keyInvalidate m ∧
      w = 2) ∨ (c = .mac m ∧ w = 3) ∨ (c = .sign m ∧ w = 4) ∨ (∃ r, c = .ecdhGen m r ∧ w = 5 + 16 * b2n r) ∨ (∃ r,
      c = .ecdhAgree m r ∧ w = 6 + 16 * b2n r) ∨ (c = .wrap m ∧ w = 7) ∨ (∃ r, c = .unwrap m r ∧
      w = 8 + 16 * b2n r) ∨ (c = .keyInfo m ∧ w = 9) ∨ (∃ x, c = .saInstall m x ∧ w = 10 + 64 * b2n x) ∨ (∃ x,
      c = .saRetire m x ∧ w = 11 + 64 * b2n x))) ∨ (root = true ∧ a = Reg.KEY_ROOT_CMD ∧ ((c = .rootNew m ∧ w = 1) ∨
      (c = .zeroise m ∧ w = 2)))) ∧ s.Takes m a ∧ c = .derive 0 true false ∧ w = 17 ∧ a = Reg.KEY_CMD ∧
      root = false) ∧
    (∃ (s : State) (m : Master) (c : Instr) (w : Nat), s.Inv ∧ ∃ (a : Nat) (root : Bool), ((root = false ∧
      a = Reg.KEY_CMD ∧ ((∃ r d, c = .derive m r d ∧ w = 1 + 16 * b2n r + 32 * b2n d) ∨ (c = .keyInvalidate m ∧
      w = 2) ∨ (c = .mac m ∧ w = 3) ∨ (c = .sign m ∧ w = 4) ∨ (∃ r, c = .ecdhGen m r ∧ w = 5 + 16 * b2n r) ∨ (∃ r,
      c = .ecdhAgree m r ∧ w = 6 + 16 * b2n r) ∨ (c = .wrap m ∧ w = 7) ∨ (∃ r, c = .unwrap m r ∧
      w = 8 + 16 * b2n r) ∨ (c = .keyInfo m ∧ w = 9) ∨ (∃ x, c = .saInstall m x ∧ w = 10 + 64 * b2n x) ∨ (∃ x,
      c = .saRetire m x ∧ w = 11 + 64 * b2n x))) ∨ (root = true ∧ a = Reg.KEY_ROOT_CMD ∧ ((c = .rootNew m ∧ w = 1) ∨
      (c = .zeroise m ∧ w = 2)))) ∧ s.Takes m a ∧ c = .zeroise 0 ∧ w = 2 ∧ a = Reg.KEY_ROOT_CMD ∧ root = true) :=
  ⟨⟨colsUp |> arm 0, 0, .mac 0, 3, inv_of_bools (by decide +kernel), Reg.KEY_CMD, false, by decide +kernel,
     takes_of_takesB (by decide +kernel), by decide +kernel⟩,
   ⟨colsUp |> arm 0, 0, .derive 0 true false, 17, inv_of_bools (by decide +kernel), Reg.KEY_CMD, false,
     by decide +kernel, takes_of_takesB (by decide +kernel), by decide +kernel⟩,
   ⟨colsUp |> arm 0, 0, .zeroise 0, 2, inv_of_bools (by decide +kernel), Reg.KEY_ROOT_CMD, true,
     by decide +kernel, takes_of_takesB (by decide +kernel), by decide +kernel⟩⟩

/-- The hypotheses of Obligations.KeyCommandsEnd can be met. -/
theorem witness_KeyCommandsEnd :
    (∃ (s : State) (k : KeyCommand), s.coreOn = true ∧ s.geode.running = some k ∧
      (∀ j ∈ (if k.creates then k.slot :: k.uses else k.uses), (s.slot j).commitOk = true) ∧ k.applied = true ∧ k.op = 2) ∧
    (∃ (s : State) (k : KeyCommand), s.coreOn = true ∧ s.geode.running = some k ∧
      (∀ j ∈ (if k.creates then k.slot :: k.uses else k.uses), (s.slot j).commitOk = true) ∧ (k.applied = true → k.op ≠ 2) ∧ s.keyCode k ≠ 1 ∧
      k.op = 3) ∧
    (∃ (s : State) (k : KeyCommand), s.coreOn = true ∧ s.geode.running = some k ∧
      (∀ j ∈ (if k.creates then k.slot :: k.uses else k.uses), (s.slot j).commitOk = true) ∧ (k.applied = true → k.op ≠ 2) ∧ s.keyCode k ≠ 1 ∧
      k.op = 15) ∧
    (∃ (s : State) (k : KeyCommand), s.coreOn = true ∧ s.geode.running = some k ∧
      (∀ j ∈ (if k.creates then k.slot :: k.uses else k.uses), (s.slot j).commitOk = true) ∧ (k.applied = true → k.op ≠ 2) ∧ s.keyCode k = 1 ∧
      k.op.toNat ≤ 11 ∧ (k.root = true → k.op = 1) ∧ k.op = 3) ∧
    (∃ (s : State) (k : KeyCommand), s.coreOn = true ∧ s.geode.running = some k ∧
      (∀ j ∈ (if k.creates then k.slot :: k.uses else k.uses), (s.slot j).commitOk = true) ∧ (k.applied = true → k.op ≠ 2) ∧ s.keyCode k = 1 ∧
      k.op.toNat ≤ 11 ∧ (k.root = true → k.op = 1) ∧ k.op = 1) ∧
    (∃ (s : State) (k : KeyCommand), s.coreOn = true ∧ s.geode.running = some k ∧
      (∀ j ∈ (if k.creates then k.slot :: k.uses else k.uses), (s.slot j).commitOk = true) ∧ (k.applied = true → k.op ≠ 2) ∧ s.keyCode k = 1 ∧
      k.op.toNat ≤ 11 ∧ (k.root = true → k.op = 1) ∧ k.op = 2) ∧
    (∃ (s : State) (k : KeyCommand), s.coreOn = true ∧ s.geode.running = some k ∧
      (∀ j ∈ (if k.creates then k.slot :: k.uses else k.uses), (s.slot j).commitOk = true) ∧ (k.applied = true → k.op ≠ 2) ∧ s.keyCode k = 1 ∧
      k.op.toNat ≤ 11 ∧ (k.root = true → k.op = 1) ∧ k.op = 10) ∧
    (∃ (s : State) (k : KeyCommand), s.coreOn = true ∧ s.geode.running = some k ∧
      (∀ j ∈ (if k.creates then k.slot :: k.uses else k.uses), (s.slot j).commitOk = true) ∧ (k.applied = true → k.op ≠ 2) ∧ s.keyCode k = 1 ∧
      k.op.toNat ≤ 11 ∧ (k.root = true → k.op = 1) ∧ k.op = 11) ∧
    (∃ (s : State) (k : KeyCommand), s.coreOn = true ∧ s.geode.running = some k ∧
      (∀ j ∈ (if k.creates then k.slot :: k.uses else k.uses), (s.slot j).commitOk = true) ∧ (k.applied = true → k.op ≠ 2) ∧ s.keyCode k = 1 ∧
      k.op.toNat ≤ 11 ∧ (k.root = true → k.op = 1) ∧ k.op = 9) ∧
    (∃ (s : State) (k : KeyCommand), s.coreOn = true ∧ s.geode.running = some k ∧
      (∀ j ∈ (if k.creates then k.slot :: k.uses else k.uses), (s.slot j).commitOk = true) ∧ (k.applied = true → k.op ≠ 2) ∧ s.keyCode k = 1 ∧
      k.op.toNat ≤ 11 ∧ (k.root = true → k.op = 1) ∧ k.op = 5) :=
  ⟨⟨colsUp |> onGeode (fun x => { x with running := some { master := 0, op := 2, replace := false, detach := false, transmit := false, root := false, slot := 5, arg := 0, attr := 0, len := 0, data := [], pend := false, applied := true } }),
     { master := 0, op := 2, replace := false, detach := false, transmit := false, root := false, slot := 5, arg := 0, attr := 0, len := 0, data := [], pend := false, applied := true },
     by decide +kernel⟩,
   ⟨colsUp
     |> onGeode (fun x => { x with running := some { master := 0, op := 3, replace := false, detach := false, transmit := false, root := false, slot := 5, arg := 0, attr := 0, len := 0, data := [], pend := false } }),
     { master := 0, op := 3, replace := false, detach := false, transmit := false, root := false, slot := 5, arg := 0, attr := 0, len := 0, data := [], pend := false },
     by decide +kernel⟩,
   ⟨colsUp
     |> onGeode (fun x => { x with running := some { master := 0, op := 15, replace := false, detach := false, transmit := false, root := false, slot := 5, arg := 0, attr := 0, len := 0, data := [], pend := false } }),
     { master := 0, op := 15, replace := false, detach := false, transmit := false, root := false, slot := 5, arg := 0, attr := 0, len := 0, data := [], pend := false },
     by decide +kernel⟩,
   ⟨colsUp
     |> onGeode (fun x => { x with running := some { master := 0, op := 3, replace := false, detach := false, transmit := false, root := false, slot := 5, arg := 0, attr := 0, len := 8, data := [1, 2, 3], pend := false } })
     |>.modSlot 5 (fun x => { x with bank0 := { x.bank0 with valid := true, attr := mkAttr [0, 3, 5] 0 1, value := List.replicate 48 9 } }),
     { master := 0, op := 3, replace := false, detach := false, transmit := false, root := false, slot := 5, arg := 0, attr := 0, len := 8, data := [1, 2, 3], pend := false },
     by decide +kernel⟩,
   ⟨colsUp
     |> onGeode (fun x => { x with running := some { master := 0, op := 1, replace := false, detach := false, transmit := false, root := false, slot := 5, arg := 0, attr := mkAttr [0, 3, 5] 0 1, len := 8, data := [1, 2, 3], pend := false } })
     |> onGeode (fun x => { x with root := some (List.replicate 48 3) }),
     { master := 0, op := 1, replace := false, detach := false, transmit := false, root := false, slot := 5, arg := 0, attr := mkAttr [0, 3, 5] 0 1, len := 8, data := [1, 2, 3], pend := false },
     by decide +kernel⟩,
   ⟨colsUp
     |> onGeode (fun x => { x with running := some { master := 0, op := 2, replace := false, detach := false, transmit := false, root := false, slot := 5, arg := 0, attr := 0, len := 0, data := [], pend := false } })
     |>.modSlot 5 (fun x => { x with bank0 := { x.bank0 with valid := true, attr := mkAttr [0, 3, 5] 0 1, value := List.replicate 48 9 } }),
     { master := 0, op := 2, replace := false, detach := false, transmit := false, root := false, slot := 5, arg := 0, attr := 0, len := 0, data := [], pend := false },
     by decide +kernel⟩,
   ⟨colsUp
     |> onGeode (fun x => { x with running := some { master := 0, op := 10, replace := false, detach := false, transmit := true, root := false, slot := 6, arg := 0x100, attr := 0, len := 0, data := [], pend := false } })
     |>.modSlot 6 (fun x => { x with bank0 := { x.bank0 with valid := true, attr := mkAttr [0, 1, 2, 10] 0 3, value := List.replicate 32 9 } }),
     { master := 0, op := 10, replace := false, detach := false, transmit := true, root := false, slot := 6, arg := 0x100, attr := 0, len := 0, data := [], pend := false },
     by decide +kernel⟩,
   ⟨colsUp
     |> onGeode (fun x => { x with running := some { master := 0, op := 11, replace := false, detach := false, transmit := true, root := false, slot := 5, arg := 0x100, attr := 0, len := 0, data := [], pend := false } })
     |>.modSlot 6 (fun x => { x with bank0 := { x.bank0 with valid := true, attr := mkAttr [0, 1, 2, 10] 0 3, value := List.replicate 32 9 } })
     |> onGeode (fun x => { x with assocs := [(assocOf true)] }),
     { master := 0, op := 11, replace := false, detach := false, transmit := true, root := false, slot := 5, arg := 0x100, attr := 0, len := 0, data := [], pend := false },
     by decide +kernel⟩,
   ⟨colsUp
     |> onGeode (fun x => { x with running := some { master := 0, op := 9, replace := false, detach := false, transmit := false, root := false, slot := 5, arg := 0, attr := 0, len := 0, data := [], pend := false } })
     |>.modSlot 5 (fun x => { x with bank0 := { x.bank0 with valid := true, attr := mkAttr [0, 3, 5] 0 1, value := List.replicate 48 9 } }),
     { master := 0, op := 9, replace := false, detach := false, transmit := false, root := false, slot := 5, arg := 0, attr := 0, len := 0, data := [], pend := false },
     by decide +kernel⟩,
   ⟨colsUp
     |> onGeode (fun x => { x with running := some { master := 0, op := 5, replace := false, detach := false, transmit := false, root := false, slot := 7, arg := 0, attr := mkAttr [0, 5] 0 2, len := 0, data := [], pend := false } }),
     { master := 0, op := 5, replace := false, detach := false, transmit := false, root := false, slot := 7, arg := 0, attr := mkAttr [0, 5] 0 2, len := 0, data := [], pend := false },
     by decide +kernel⟩⟩

/-- The hypotheses of Obligations.TamperDebugFuses can be met. -/
theorem witness_TamperDebugFuses :
    (∃ (s : State), ∃ (sources : BitVec 8), s.pwr.vaux = true ∧ sources = 3) ∧
    (∃ (s : State), ∃ (sources : BitVec 8), s.pwr.vaux = true ∧ sources = 0) ∧
    (∃ (s : State), s.coreOn = true ∧ s.inDebug = false ∧ s.geode.challenge = none) ∧
    (∃ (s : State), s.coreOn = true ∧ s.inDebug = false ∧ ∃ (x : BitVec 64) (key : List Byte) (answer : BitVec 128),
      s.geode.challenge = some x ∧ (s.slot (BitVec.ofNat 8 s.dbgSlot)).commitOk = true ∧ s.debugKey = some key ∧
      answer = debugAnswer key x) ∧
    (∃ (s : State), s.coreOn = true ∧ s.inDebug = false ∧ ∃ (x : BitVec 64) (key : List Byte) (answer : BitVec 128),
      s.geode.challenge = some x ∧ (s.slot (BitVec.ofNat 8 s.dbgSlot)).commitOk = true ∧ s.debugKey = some key ∧
      answer ≠ debugAnswer key x) ∧
    (∃ (s : State), ∃ (m : Master) (pos : BitVec 2) (c : Instr) (rev : Bool), ((c = .secFuseProgram m pos ∧
      rev = false) ∨ (c = .secFuseRevoke m pos ∧ rev = true)) ∧ s.Inv ∧ s.Takes m Reg.SEC_FUSE_CMD ∧
      s.fuseCode rev pos = 0 ∧ c = .secFuseProgram 0 1 ∧ rev = false) ∧
    (∃ (s : State), ∃ (m : Master) (pos : BitVec 2) (c : Instr) (rev : Bool), ((c = .secFuseProgram m pos ∧
      rev = false) ∨ (c = .secFuseRevoke m pos ∧ rev = true)) ∧ s.Inv ∧ s.Takes m Reg.SEC_FUSE_CMD ∧
      s.fuseCode rev pos = 0 ∧ c = .secFuseRevoke 0 1 ∧ rev = true) ∧
    (∃ (s : State), ∃ (m : Master) (pos : BitVec 2) (c : Instr) (rev : Bool), ((c = .secFuseProgram m pos ∧
      rev = false) ∨ (c = .secFuseRevoke m pos ∧ rev = true)) ∧ s.Inv ∧ s.Takes m Reg.SEC_FUSE_CMD ∧
      s.fuseCode rev pos ≠ 0 ∧ c = .secFuseProgram 0 1 ∧ rev = false) ∧
    (∃ (s : State), ∃ (m : Master) (pos : BitVec 2) (c : Instr) (rev : Bool), ((c = .secFuseProgram m pos ∧
      rev = false) ∨ (c = .secFuseRevoke m pos ∧ rev = true)) ∧ s.Inv ∧ s.Takes m Reg.SEC_FUSE_CMD ∧
      s.fuseCode rev pos ≠ 0 ∧ c = .secFuseRevoke 0 1 ∧ rev = true) ∧
    (∃ (s : State), ∃ (pos : Fin 4) (hash : List Byte), s.coreOn = true ∧ s.geode.fuseOp = some (false,
      BitVec.ofNat 2 pos.val, hash)) ∧
    (∃ (s : State), ∃ (pos : Fin 4) (hash : List Byte), s.coreOn = true ∧ s.geode.fuseOp = some (true,
      BitVec.ofNat 2 pos.val, hash)) :=
  ⟨⟨colsUp |>.setReg Reg.KEY_TAMPER_CFG 0xFF
     |> onGeode (fun x => { x with root := some [1], assocs := [(assocOf true)] })
     |>.modSlot 5 (fun x => { x with bank0 := { x.bank0 with valid := true, attr := mkAttr [0, 3, 5] 0 1, value := List.replicate 48 9 } }),
     3, by decide +kernel⟩,
   ⟨colsUp, 0, by decide +kernel⟩,
   ⟨colsUp
     |>.modSlot 5 (fun x => { x with bank0 := { x.bank0 with valid := true, attr := mkAttr [0, 3, 5] 0 1, value := List.replicate 48 9 } })
     |>.setFld Reg.KEY_CFG 15 8 5, by decide +kernel⟩,
   ⟨colsUp
     |>.modSlot 5 (fun x => { x with bank0 := { x.bank0 with valid := true, attr := mkAttr [0, 3, 5] 0 1, value := List.replicate 48 9 } })
     |>.setFld Reg.KEY_CFG 15 8 5 |> onGeode (fun x => { x with challenge := some 7 }), by decide +kernel,
     by decide +kernel, 7, List.replicate 48 9, debugAnswer (List.replicate 48 9) 7, by decide +kernel,
     by decide +kernel, by decide +kernel, rfl⟩,
   ⟨colsUp
     |>.modSlot 5 (fun x => { x with bank0 := { x.bank0 with valid := true, attr := mkAttr [0, 3, 5] 0 1, value := List.replicate 48 9 } })
     |>.setFld Reg.KEY_CFG 15 8 5 |> onGeode (fun x => { x with challenge := some 7 }), by decide +kernel,
     by decide +kernel, 7, List.replicate 48 9, ~~~ debugAnswer (List.replicate 48 9) 7, by decide +kernel,
     by decide +kernel, by decide +kernel, compl_ne _⟩,
   ⟨colsUp |> arm 0 |> inRecovery, 0, 1, .secFuseProgram 0 1, false, by decide +kernel,
     inv_of_bools (by decide +kernel), takes_of_takesB (by decide +kernel), by decide +kernel⟩,
   ⟨colsUp |> arm 0 |> inRecovery
     |> onGeode (fun x => { x with fuses := vset (vset x.fuses 1 (some [1])) 2 (some [2]) }), 0, 1,
     .secFuseRevoke 0 1, true, by decide +kernel, inv_of_bools (by decide +kernel),
     takes_of_takesB (by decide +kernel), by decide +kernel⟩,
   ⟨colsUp |> arm 0, 0, 1, .secFuseProgram 0 1, false, by decide +kernel, inv_of_bools (by decide +kernel),
     takes_of_takesB (by decide +kernel), by decide +kernel⟩,
   ⟨colsUp |> arm 0 |> inRecovery, 0, 1, .secFuseRevoke 0 1, true, by decide +kernel,
     inv_of_bools (by decide +kernel), takes_of_takesB (by decide +kernel), by decide +kernel⟩,
   ⟨colsUp |> onGeode (fun x => { x with fuseOp := some (false, 3, [1, 2]) }), 3, [1, 2], by decide +kernel⟩,
   ⟨colsUp |> onGeode (fun x => { x with fuseOp := some (true, 3, []) }), 3, [], by decide +kernel⟩⟩

/-- The hypotheses of Obligations.BootCommands can be met. -/
theorem witness_BootCommands :
    (∃ (s : State) (m : Master), s.Inv ∧ s.Takes m Reg.BOOT_CMD ∧ ∃ (c : Instr) (op : Nat), ((c = .bootRun m ∧
      op = 1) ∨ (c = .bootStaged m ∧ op = 4) ∨ (c = .bootSeed m ∧ op = 5) ∨ (c = .bootTest m ∧ op = 6)) ∧
      c = .bootRun 0 ∧ op = 1) ∧
    (∃ (s : State) (m : Master), s.Inv ∧ s.Takes m Reg.BOOT_CMD ∧ ∃ (c : Instr) (op : Nat), ((c = .bootRun m ∧
      op = 1) ∨ (c = .bootStaged m ∧ op = 4) ∨ (c = .bootSeed m ∧ op = 5) ∨ (c = .bootTest m ∧ op = 6)) ∧
      c = .bootStaged 0 ∧ op = 4) ∧
    (∃ (s : State) (m : Master), s.Inv ∧ s.Takes m Reg.BOOT_CMD ∧ ∃ (c : Instr) (op : Nat), ((c = .bootRun m ∧
      op = 1) ∨ (c = .bootStaged m ∧ op = 4) ∨ (c = .bootSeed m ∧ op = 5) ∨ (c = .bootTest m ∧ op = 6)) ∧
      c = .bootSeed 0 ∧ op = 5) ∧
    (∃ (s : State) (m : Master), s.Inv ∧ s.Takes m Reg.BOOT_CMD ∧ ∃ (c : Instr) (op : Nat), ((c = .bootRun m ∧
      op = 1) ∨ (c = .bootStaged m ∧ op = 4) ∨ (c = .bootSeed m ∧ op = 5) ∨ (c = .bootTest m ∧ op = 6)) ∧
      c = .bootTest 0 ∧ op = 6) ∧
    (∃ (s : State) (m : Master), s.Inv ∧ s.Takes m Reg.BOOT_CMD ∧ s.mode ≠ .service ∧ s.bootSrc < 2 ∧
      s.fld Reg.GLB_STRAPS 7 6 ≠ 3) ∧
    (∃ (s : State) (m : Master), s.Inv ∧ s.Takes m Reg.BOOT_CMD) ∧
    (∃ (s : State) (m : Master), s.Inv ∧ s.Takes m Reg.BOOT_STG_DATA) :=
  ⟨⟨colsUp |> arm 0, 0, inv_of_bools (by decide +kernel), takes_of_takesB (by decide +kernel), .bootRun 0, 1,
     by decide +kernel⟩,
   ⟨colsUp |> arm 0, 0, inv_of_bools (by decide +kernel), takes_of_takesB (by decide +kernel), .bootStaged 0,
     4, by decide +kernel⟩,
   ⟨colsUp |> arm 0, 0, inv_of_bools (by decide +kernel), takes_of_takesB (by decide +kernel), .bootSeed 0, 5,
     by decide +kernel⟩,
   ⟨colsUp |> arm 0, 0, inv_of_bools (by decide +kernel), takes_of_takesB (by decide +kernel), .bootTest 0, 6,
     by decide +kernel⟩,
   ⟨colsUp |> arm 0 |> inRun, 0, inv_of_bools (by decide +kernel), takes_of_takesB (by decide +kernel),
     by decide +kernel⟩,
   ⟨colsUp |> arm 0 |> inRun, 0, inv_of_bools (by decide +kernel), takes_of_takesB (by decide +kernel)⟩,
   ⟨colsUp |> arm 0 |> inRecovery, 0, inv_of_bools (by decide +kernel), takes_of_takesB (by decide +kernel)⟩⟩

/-- The hypotheses of Obligations.ResetAndStages can be met. -/
theorem witness_ResetAndStages :
    (∃ (ns : Nat), ns < 800) ∧
    (∃ (ns : Nat), 10000 ≤ ns) ∧
    (∃ (s : State), ∃ (straps : BitVec 13), s.boot.held = true ∧ s.pwr.vaux = true ∧ s.pwr.coreEn = true ∧
      s.pwr.coreHeld = false ∧ s.pwr.pgood = true ∧ .pgood ∉ s.faultN ∧ s.pwr.state ≠ .cutoff ∧
      straps.getLsbD 12 = false ∧ straps.getLsbD 11 = false ∧ straps.getLsbD 10 = false ∧
      nbits straps.toNat 7 6 ≠ 3) ∧
    (∃ (s : State), s.coreOn = true ∧ s.mode = .start ∧ s.boot.pendingMode = none ∧ s.fld Reg.BOOT_STATUS 2 0 = 1 ∧
      s.boot.sfdp = none ∧ s.boot.sfdpTries < 3) ∧
    (∃ (s : State), s.coreOn = true ∧ s.mode = .start ∧ s.boot.pendingMode = none ∧ s.fld Reg.BOOT_STATUS 2 0 = 1 ∧
      s.boot.sfdp = none ∧ s.boot.sfdpTries < 3) ∧
    (∃ (s : State), s.coreOn = true ∧ s.mode = .start ∧ s.boot.pendingMode = none ∧
      ∃ (c : Fin 3) (rest : List (Fin 3)), s.boot.tries = c :: rest ∧ c = 0 ∧ rest = [1]) ∧
    (∃ (s : State), s.coreOn = true ∧ s.mode = .start ∧ s.boot.pendingMode = none ∧
      ∃ (c : Fin 3) (rest : List (Fin 3)), s.boot.tries = c :: rest ∧ c = 2 ∧ rest = []) ∧
    (∃ (s : State), s.coreOn = true ∧ s.boot.applying = true ∧ s.boot.applyAt = none) ∧
    (∃ (s : State), s.coreOn = true ∧ s.atTarget = true ∧ s.beforeSwitch = true ∧ s.bit Reg.GLB_REFCLK 5 = true) ∧
    (∃ (s : State), s.coreOn = true ∧ s.atTarget = true ∧ s.beforeSwitch = true ∧ s.bit Reg.GLB_REFCLK 5 = false) ∧
    (∃ (s : State), s.coreOn = true ∧ s.boot.seedRun = true) ∧
    (∃ (s : State), s.coreOn = true ∧ s.mode = .start ∧ s.bit Reg.BOOT_STATUS 13 = true ∧ ∃ (h : Nat),
      s.boot.clockHead = some h ∧ h + s.fld Reg.BOOT_CFG 15 0 ≤ s.heads) :=
  ⟨⟨799, by decide +kernel⟩,
   ⟨10000, by decide +kernel⟩,
   ⟨colsUp |> onBoot (fun x => { x with held := true }) |> inRun, 0x001, by decide +kernel⟩,
   ⟨colsUp |>.setFld Reg.BOOT_STATUS 2 0 1, by decide +kernel⟩,
   ⟨colsUp |>.setFld Reg.BOOT_STATUS 2 0 1, by decide +kernel⟩,
   ⟨colsUp |> onBoot (fun x => { x with tries := [0, 1], sfdp := some flash16 }), by decide +kernel,
     by decide +kernel, by decide +kernel, 0, [1], by decide +kernel⟩,
   ⟨colsUp |> onBoot (fun x => { x with tries := [2] }), by decide +kernel, by decide +kernel,
     by decide +kernel, 2, [], by decide +kernel⟩,
   ⟨colsUp |> onBoot (fun x => { x with applying := true }) |>.setFld Reg.BOOT_STATUS 23 16 7,
     by decide +kernel⟩,
   ⟨colsUp |>.setFld Reg.BOOT_STATUS 2 0 5 |>.setFld Reg.AVS_STATUS 9 0 800 |>.setFld Reg.AVS_TARGET 9 0 800
     |>.setBit Reg.GLB_REFCLK 5 true |> onPwr (fun x => { x with avsSet := true }), by decide +kernel⟩,
   ⟨colsUp |>.setFld Reg.BOOT_STATUS 2 0 5 |>.setFld Reg.AVS_STATUS 9 0 800 |>.setFld Reg.AVS_TARGET 9 0 800
     |> onPwr (fun x => { x with avsSet := true }), by decide +kernel⟩,
   ⟨colsUp |> onBoot (fun x => { x with seedRun := true }) |>.setBit Reg.SUMP_STATUS 2 true, by decide +kernel⟩,
   ⟨colsUp |>.setBit Reg.BOOT_STATUS 13 true |> onBoot (fun x => { x with clockHead := some 0 })
     |> onAll (fun x => { x with heads := 100000 }), by decide +kernel, by decide +kernel, by decide +kernel, 0,
     by decide +kernel⟩⟩

/-- The hypotheses of Obligations.FlashOperations can be met. -/
theorem witness_FlashOperations :
    (∃ (s : State), s.Inv ∧ ∃ (m : Master) (c : Instr) (op : BitVec 3), ((c = .flEraseCopy m ∧ op = 1) ∨
      (c = .flProgram m ∧ op = 2) ∨ (c = .flRead m ∧ op = 3) ∨ (c = .flVerify m ∧ op = 4)) ∧
      s.Takes m Reg.BOOT_FL_CMD ∧ s.flashCode m op.toNat = 0 ∧ c = .flEraseCopy 0 ∧ op = 1) ∧
    (∃ (s : State), s.Inv ∧ ∃ (m : Master) (c : Instr) (op : BitVec 3), ((c = .flEraseCopy m ∧ op = 1) ∨
      (c = .flProgram m ∧ op = 2) ∨ (c = .flRead m ∧ op = 3) ∨ (c = .flVerify m ∧ op = 4)) ∧
      s.Takes m Reg.BOOT_FL_CMD ∧ s.flashCode m op.toNat = 0 ∧ c = .flProgram 0 ∧ op = 2) ∧
    (∃ (s : State), s.Inv ∧ ∃ (m : Master) (c : Instr) (op : BitVec 3), ((c = .flEraseCopy m ∧ op = 1) ∨
      (c = .flProgram m ∧ op = 2) ∨ (c = .flRead m ∧ op = 3) ∨ (c = .flVerify m ∧ op = 4)) ∧
      s.Takes m Reg.BOOT_FL_CMD ∧ s.flashCode m op.toNat = 0 ∧ c = .flRead 0 ∧ op = 3) ∧
    (∃ (s : State), s.Inv ∧ ∃ (m : Master) (c : Instr) (op : BitVec 3), ((c = .flEraseCopy m ∧ op = 1) ∨
      (c = .flProgram m ∧ op = 2) ∨ (c = .flRead m ∧ op = 3) ∨ (c = .flVerify m ∧ op = 4)) ∧
      s.Takes m Reg.BOOT_FL_CMD ∧ s.flashCode m op.toNat = 0 ∧ c = .flVerify 0 ∧ op = 4) ∧
    (∃ (s : State), s.Inv ∧ ∃ (m : Master) (c : Instr) (op : BitVec 3), ((c = .flEraseCopy m ∧ op = 1) ∨
      (c = .flProgram m ∧ op = 2) ∨ (c = .flRead m ∧ op = 3) ∨ (c = .flVerify m ∧ op = 4)) ∧
      s.Takes m Reg.BOOT_FL_CMD ∧ s.flashCode m op.toNat ≠ 0) ∧
    (∃ (s : State), s.Inv ∧ ∃ (o : FlashOp), s.coreOn = true ∧ s.boot.flashOp = some o ∧ o.op = 1) ∧
    (∃ (s : State), s.Inv ∧ ∃ (o : FlashOp), s.coreOn = true ∧ s.boot.flashOp = some o ∧ o.op = 2) ∧
    (∃ (s : State), s.Inv ∧ ∃ (o : FlashOp), s.coreOn = true ∧ s.boot.flashOp = some o ∧ o.op = 3) ∧
    (∃ (s : State), s.Inv ∧ ∃ (o : FlashOp), s.coreOn = true ∧ s.boot.flashOp = some o ∧ o.op = 1 ∧ o.copyB = false) ∧
    (∃ (s : State), s.Inv ∧ ∃ (o : FlashOp), s.coreOn = true ∧ s.boot.flashOp = some o ∧ o.op = 1 ∧ o.copyB = true) ∧
    (∃ (s : State), s.Inv ∧ ∃ (o : FlashOp), s.coreOn = true ∧ s.boot.flashOp = some o ∧ o.op = 2 ∧ o.copyB = false) ∧
    (∃ (s : State), s.Inv ∧ ∃ (o : FlashOp), s.coreOn = true ∧ s.boot.flashOp = some o ∧ o.op = 2 ∧ o.copyB = true) ∧
    (∃ (s : State), s.Inv ∧ ∃ (o : FlashOp), s.coreOn = true ∧ s.boot.flashOp = some o ∧ o.op = 3 ∧ o.page = 0) ∧
    (∃ (s : State), s.Inv ∧ ∃ (o : FlashOp), s.coreOn = true ∧ s.boot.flashOp = some o ∧ o.op = 3 ∧ o.page = 1) ∧
    (∃ (s : State), s.Inv ∧ ∃ (o : FlashOp), s.coreOn = true ∧ s.boot.flashOp = some o ∧ o.op = 4) :=
  ⟨⟨colsUp |> arm 0 |> onBoot (fun x => { x with sfdp := some flash16 }), inv_of_bools (by decide +kernel), 0,
     .flEraseCopy 0, 1, by decide +kernel, takes_of_takesB (by decide +kernel), by decide +kernel⟩,
   ⟨colsUp |> arm 0 |> onBoot (fun x => { x with sfdp := some flash16 }), inv_of_bools (by decide +kernel), 0,
     .flProgram 0, 2, by decide +kernel, takes_of_takesB (by decide +kernel), by decide +kernel⟩,
   ⟨colsUp |> arm 0 |> onBoot (fun x => { x with sfdp := some flash16 }), inv_of_bools (by decide +kernel), 0,
     .flRead 0, 3, by decide +kernel, takes_of_takesB (by decide +kernel), by decide +kernel⟩,
   ⟨colsUp |> arm 0 |> onBoot (fun x => { x with sfdp := some flash16 }), inv_of_bools (by decide +kernel), 0,
     .flVerify 0, 4, by decide +kernel, takes_of_takesB (by decide +kernel), by decide +kernel⟩,
   ⟨colsUp |> arm 0, inv_of_bools (by decide +kernel), 0, .flRead 0, 3, by decide +kernel,
     takes_of_takesB (by decide +kernel), by decide +kernel⟩,
   ⟨colsUp |> onBoot (fun x => { x with sfdp := some flash16 })
     |> onBoot (fun x => { x with flashOp := some { master := 0, op := 1, copyB := false, page := 0 }, flash := [(300, 7)] }),
     inv_of_bools (by decide +kernel), { master := 0, op := 1, copyB := false, page := 0 }, by decide +kernel⟩,
   ⟨colsUp |> onBoot (fun x => { x with sfdp := some flash16 })
     |> onBoot (fun x => { x with flashOp := some { master := 0, op := 2, copyB := false, page := 0 }, flash := [(300, 7)] }),
     inv_of_bools (by decide +kernel), { master := 0, op := 2, copyB := false, page := 0 }, by decide +kernel⟩,
   ⟨colsUp |> onBoot (fun x => { x with sfdp := some flash16 })
     |> onBoot (fun x => { x with flashOp := some { master := 0, op := 3, copyB := false, page := 0 }, flash := [(300, 7)] }),
     inv_of_bools (by decide +kernel), { master := 0, op := 3, copyB := false, page := 0 }, by decide +kernel⟩,
   ⟨colsUp |> onBoot (fun x => { x with sfdp := some flash16 })
     |> onBoot (fun x => { x with flashOp := some { master := 0, op := 1, copyB := false, page := 0 }, flash := [(300, 7)] }),
     inv_of_bools (by decide +kernel), { master := 0, op := 1, copyB := false, page := 0 }, by decide +kernel⟩,
   ⟨colsUp |> onBoot (fun x => { x with sfdp := some flash16 })
     |> onBoot (fun x => { x with flashOp := some { master := 0, op := 1, copyB := true, page := 0 }, flash := [(300, 7)] }),
     inv_of_bools (by decide +kernel), { master := 0, op := 1, copyB := true, page := 0 }, by decide +kernel⟩,
   ⟨colsUp |> onBoot (fun x => { x with sfdp := some flash16 })
     |> onBoot (fun x => { x with flashOp := some { master := 0, op := 2, copyB := false, page := 0 }, flash := [(300, 7)] }),
     inv_of_bools (by decide +kernel), { master := 0, op := 2, copyB := false, page := 0 }, by decide +kernel⟩,
   ⟨colsUp |> onBoot (fun x => { x with sfdp := some flash16 })
     |> onBoot (fun x => { x with flashOp := some { master := 0, op := 2, copyB := true, page := 32511 }, flash := [(300, 7)] }),
     inv_of_bools (by decide +kernel), { master := 0, op := 2, copyB := true, page := 32511 }, by decide +kernel⟩,
   ⟨colsUp |> onBoot (fun x => { x with sfdp := some flash16 })
     |> onBoot (fun x => { x with flashOp := some { master := 0, op := 3, copyB := false, page := 0 }, flash := [(300, 7)] }),
     inv_of_bools (by decide +kernel), { master := 0, op := 3, copyB := false, page := 0 }, by decide +kernel⟩,
   ⟨colsUp |> onBoot (fun x => { x with sfdp := some flash16 })
     |> onBoot (fun x => { x with flashOp := some { master := 0, op := 3, copyB := false, page := 1 }, flash := [(300, 7)] }),
     inv_of_bools (by decide +kernel), { master := 0, op := 3, copyB := false, page := 1 }, by decide +kernel⟩,
   ⟨colsUp |> onBoot (fun x => { x with sfdp := some flash16 })
     |> onBoot (fun x => { x with flashOp := some { master := 0, op := 4, copyB := false, page := 0 }, flash := [(300, 7)] }),
     inv_of_bools (by decide +kernel), { master := 0, op := 4, copyB := false, page := 0 }, by decide +kernel⟩⟩

/-- The hypotheses of Obligations.PowerRequests can be met. -/
theorem witness_PowerRequests :
    (∃ (s : State), s.Inv ∧ ∃ (m : Master) (data : Word), s.Takes m Reg.PWR_REQ ∧ bitsOf data 1 0 = 0) ∧
    (∃ (s : State), s.Inv ∧ ∃ (m : Master) (data : Word), s.Takes m Reg.PWR_REQ ∧ bitsOf data 1 0 ≠ 0) ∧
    (∃ (s : State), s.Inv ∧ ∃ (m : Master), s.Takes m Reg.PWR_ASK_BEAT_LO ∧ s.Takes m Reg.PWR_ASK_BEAT_HI ∧
      s.Takes m Reg.PWR_ASK) ∧
    (∃ (s : State), s.Inv ∧ s.coreOn = true ∧ ∃ (c : Instr) (sup : Master), s.supervisor = some sup ∧
      s.pwr.askMaster.isSome = true ∧ s.fld Reg.PWR_ASK 1 0 ≠ 0 ∧ 0 < s.pwr.askLeft ∧ ((c = .pwrAskIssue ∧
      s.pwr.askSent = false ∧
      s.beatNum.toNat + 1 = (s.reg Reg.PWR_ASK_BEAT_LO).toNat + 2 ^ 32 * s.fld Reg.PWR_ASK_BEAT_HI 15 0) ∨
      (c = .pwrRetry ∧ s.pwr.retryDue = true)) ∧ c = .pwrAskIssue) ∧
    (∃ (s : State), s.Inv ∧ s.coreOn = true ∧ ∃ (c : Instr) (sup : Master), s.supervisor = some sup ∧
      s.pwr.askMaster.isSome = true ∧ s.fld Reg.PWR_ASK 1 0 ≠ 0 ∧ 0 < s.pwr.askLeft ∧ ((c = .pwrAskIssue ∧
      s.pwr.askSent = false ∧
      s.beatNum.toNat + 1 = (s.reg Reg.PWR_ASK_BEAT_LO).toNat + 2 ^ 32 * s.fld Reg.PWR_ASK_BEAT_HI 15 0) ∨
      (c = .pwrRetry ∧ s.pwr.retryDue = true)) ∧ c = .pwrRetry) ∧
    (∃ (s : State), s.Inv ∧ s.coreOn = true ∧ ∃ (block : Fin 7), s.pwr.asked = some (block.val + 1) ∧
      s.refusal (block.val + 1) = 0 ∧ block.val = 0 ∧ s.pwr.target ≠ 3) ∧
    (∃ (s : State), s.Inv ∧ s.coreOn = true ∧ ∃ (block : Fin 7), s.pwr.asked = some (block.val + 1) ∧
      s.refusal (block.val + 1) = 0 ∧ block.val = 1) ∧
    (∃ (s : State), s.Inv ∧ s.coreOn = true ∧ ∃ (block : Fin 7), s.pwr.asked = some (block.val + 1) ∧
      s.refusal (block.val + 1) = 0 ∧ block.val = 3 ∧ s.pwr.fromLayover = false) ∧
    (∃ (s : State), s.Inv ∧ s.coreOn = true ∧ ∃ (block : Fin 7), s.pwr.asked = some (block.val + 1) ∧
      s.refusal (block.val + 1) = 0 ∧ block.val = 4 ∧ s.pwr.fromLayover = false) ∧
    (∃ (s : State), s.Inv ∧ s.coreOn = true ∧ ∃ (block : Fin 7), s.pwr.asked = some (block.val + 1) ∧
      s.refusal (block.val + 1) = 0 ∧ block.val = 5) ∧
    (∃ (s : State), s.Inv ∧ s.coreOn = true ∧ ∃ (block : Fin 7), s.pwr.asked = some (block.val + 1) ∧
      s.refusal (block.val + 1) = 0 ∧ block.val = 6 ∧ s.pwr.target ≠ 3 ∧ s.pwr.latch = 0) ∧
    (∃ (s : State), s.Inv ∧ s.coreOn = true ∧ ∃ (block : Fin 7), s.pwr.asked = some (block.val + 1) ∧
      s.refusal (block.val + 1) = 0 ∧ block.val = 6 ∧ s.pwr.target = 3) ∧
    (∃ (s : State), s.Inv ∧ s.coreOn = true ∧ ∃ (block : Fin 7) (reason : BitVec 4), block.val ≠ 2 ∧
      s.pwr.asked = some (block.val + 1) ∧ s.mayRefuse (block.val + 1) reason.toNat = true ∧ s.pwr.fromLayover = false ∧ s.pwr.agreed = [] ∧ block = 4 ∧ reason = 6) ∧
    (∃ (s : State), s.Inv ∧ s.coreOn = true ∧ ∃ (block : Fin 7) (reason : BitVec 4), block.val ≠ 2 ∧
      s.pwr.asked = some (block.val + 1) ∧ s.mayRefuse (block.val + 1) reason.toNat = true ∧ s.pwr.fromLayover = false ∧ s.pwr.agreed ≠ [] ∧ block = 5 ∧ reason = 8) ∧
    (∃ (s : State), s.Inv ∧ s.coreOn = true ∧ ∃ (block : Fin 7) (reason : BitVec 4), block.val ≠ 2 ∧
      s.pwr.asked = some (block.val + 1) ∧ s.mayRefuse (block.val + 1) reason.toNat = true ∧ s.pwr.fromLayover = true ∧
      s.bit Reg.GLB_REFCLK 5 = true ∧ block = 6 ∧ reason = 9) ∧
    (∃ (s : State), s.Inv ∧ s.coreOn = true ∧ ∃ (block : Fin 7) (reason : BitVec 4), block.val ≠ 2 ∧
      s.pwr.asked = some (block.val + 1) ∧ s.mayRefuse (block.val + 1) reason.toNat = true ∧ s.pwr.fromLayover = true ∧
      s.bit Reg.GLB_REFCLK 5 = false ∧ block = 6 ∧ reason = 9) ∧
    (∃ (s : State), s.Inv ∧ s.coreOn = true ∧ s.pwr.state = .rollback ∧ ∃ (b : Nat) (rest : List Nat),
      s.pwr.rollback = b :: rest ∧ (b = 5 → s.cav.bistRun = false) ∧ (b = 6 → s.bit Reg.SUMP_TRAIN 0 = false) ∧
      b = 1 ∧ rest = []) ∧
    (∃ (s : State), s.Inv ∧ s.coreOn = true ∧ s.pwr.state = .rollback ∧ ∃ (b : Nat) (rest : List Nat),
      s.pwr.rollback = b :: rest ∧ (b = 5 → s.cav.bistRun = false) ∧ (b = 6 → s.bit Reg.SUMP_TRAIN 0 = false) ∧
      b = 2 ∧ rest = []) ∧
    (∃ (s : State), s.Inv ∧ s.coreOn = true ∧ s.pwr.state = .rollback ∧ ∃ (b : Nat) (rest : List Nat),
      s.pwr.rollback = b :: rest ∧ (b = 5 → s.cav.bistRun = false) ∧ (b = 6 → s.bit Reg.SUMP_TRAIN 0 = false) ∧
      b = 4 ∧ rest = []) ∧
    (∃ (s : State), s.Inv ∧ s.coreOn = true ∧ s.pwr.state = .rollback ∧ ∃ (b : Nat) (rest : List Nat),
      s.pwr.rollback = b :: rest ∧ (b = 5 → s.cav.bistRun = false) ∧ (b = 6 → s.bit Reg.SUMP_TRAIN 0 = false) ∧
      b = 5 ∧ rest = []) ∧
    (∃ (s : State), s.Inv ∧ s.coreOn = true ∧ s.pwr.state = .rollback ∧ ∃ (b : Nat) (rest : List Nat),
      s.pwr.rollback = b :: rest ∧ (b = 5 → s.cav.bistRun = false) ∧ (b = 6 → s.bit Reg.SUMP_TRAIN 0 = false) ∧
      b = 6 ∧ rest = []) ∧
    (∃ (s : State), s.Inv ∧ s.coreOn = true ∧ s.pwr.state = .rollback ∧ ∃ (b : Nat) (rest : List Nat),
      s.pwr.rollback = b :: rest ∧ (b = 5 → s.cav.bistRun = false) ∧ (b = 6 → s.bit Reg.SUMP_TRAIN 0 = false) ∧
      b = 6 ∧ rest = [5]) ∧
    (∃ (s : State), s.Inv ∧ s.coreOn = true ∧ s.pwr.saving = true ∧ s.pwr.latch = 0) ∧
    (∃ (s : State), s.Inv ∧ s.coreOn = true ∧ s.pwr.state = .layover ∧ s.pwr.fromLayover = false ∧
      s.pwr.reqBy = none) ∧
    (∃ (s : State), s.Inv ∧ s.coreOn = true ∧ s.pwr.state = .layover ∧ s.pwr.fromLayover = false ∧
      s.pwr.reqBy = none ∧ ∃ port : DnPd, s.pd[dnPd port].pdoDue = true ∧ s.pd[dnPd port].contract.isSome = true ∧
      s.pdOn (dnPd port) = true ∧ s.policyAway = false ∧ s.hwPolicy = false) ∧
    (∃ (s : State), s.Inv ∧ s.coreOn = true ∧ s.pwr.state = .layover ∧ s.pwr.fromLayover = false ∧
      ∃ (m : Master) (target : BitVec 2), s.pwr.reqBy = some (m, target) ∧ s.requestCode m target.toNat ≠ 1) :=
  ⟨⟨colsUp |> arm 0, inv_of_bools (by decide +kernel), 0, 4, takes_of_takesB (by decide +kernel),
     by decide +kernel⟩,
   ⟨colsUp |> arm 0, inv_of_bools (by decide +kernel), 0, 2, takes_of_takesB (by decide +kernel),
     by decide +kernel⟩,
   ⟨colsUp |> arm 0, inv_of_bools (by decide +kernel), 0, takes_of_takesB (by decide +kernel),
     takes_of_takesB (by decide +kernel), takes_of_takesB (by decide +kernel)⟩,
   ⟨colsUp |> inRun |>.setReg Reg.COL_SUPER 0 |> onPwr (fun x => { x with askMaster := some 0, askLeft := 3 })
     |>.setFld Reg.PWR_ASK 1 0 2 |>.setReg Reg.PWR_ASK_BEAT_LO 1, inv_of_bools (by decide +kernel),
     by decide +kernel, .pwrAskIssue, 0, by decide +kernel⟩,
   ⟨colsUp |> inRun |>.setReg Reg.COL_SUPER 0 |> onPwr (fun x => { x with askMaster := some 0, askLeft := 3 })
     |>.setFld Reg.PWR_ASK 1 0 2 |> onPwr (fun x => { x with retryDue := true }), inv_of_bools (by decide +kernel),
     by decide +kernel, .pwrRetry, 0, by decide +kernel⟩,
   ⟨colsUp |> inRun |> onPwr (fun x => { x with state := .entering, target := 2, asked := some 1 }),
     inv_of_bools (by decide +kernel), by decide +kernel, 0, by decide +kernel⟩,
   ⟨colsUp |> inRun |> onPwr (fun x => { x with state := .entering, target := 2, asked := some 2 }),
     inv_of_bools (by decide +kernel), by decide +kernel, 1, by decide +kernel⟩,
   ⟨colsUp |> inRun |> onPwr (fun x => { x with state := .entering, target := 2, asked := some 4 }),
     inv_of_bools (by decide +kernel), by decide +kernel, 3, by decide +kernel⟩,
   ⟨colsUp |> inRun |> onPwr (fun x => { x with state := .entering, target := 2, asked := some 5 })
     |> onCav (fun x => { x with bistRun := false, frames := [(oneCell frame3)], nextId := 1 }),
     inv_of_bools (by decide +kernel), by decide +kernel, 4, by decide +kernel⟩,
   ⟨colsUp |> inRun |> onPwr (fun x => { x with state := .entering, target := 2, asked := some 6 }),
     inv_of_bools (by decide +kernel), by decide +kernel, 5, by decide +kernel⟩,
   ⟨colsUp |> inRun |> onPwr (fun x => { x with state := .entering, target := 2, asked := some 7 }),
     inv_of_bools (by decide +kernel), by decide +kernel, 6, by decide +kernel⟩,
   ⟨colsUp |> inRun |> onPwr (fun x => { x with state := .entering, target := 3, asked := some 7 }),
     inv_of_bools (by decide +kernel), by decide +kernel, 6, by decide +kernel⟩,
   ⟨colsUp |> inRun |> onPwr (fun x => { x with state := .entering, target := 2, asked := some 5 }),
     inv_of_bools (by decide +kernel), by decide +kernel, 4, 6, by decide +kernel⟩,
   ⟨colsUp |> inRun |> onPwr (fun x => { x with state := .entering, target := 2, asked := some 6, agreed := [5, 4, 3, 2, 1] })
     |>.setBit Reg.SUMP_STATUS 2 true, inv_of_bools (by decide +kernel), by decide +kernel, 5, 8, by decide +kernel⟩,
   ⟨stFromLayover |>.setBit Reg.GLB_REFCLK 5 true, inv_of_bools (by decide +kernel), by decide +kernel, 6, 9, by decide +kernel⟩,
   ⟨stFromLayover |>.setBit Reg.GLB_REFCLK 5 false, inv_of_bools (by decide +kernel), by decide +kernel, 6, 9, by decide +kernel⟩,
   ⟨colsUp |> inRun |> onPwr (fun x => { x with state := .rollback, target := 2, rollback := [1] })
     |> onCav (fun x => { x with bistRun := false }), inv_of_bools (by decide +kernel), by decide +kernel,
     by decide +kernel, 1, [], by decide +kernel⟩,
   ⟨colsUp |> inRun |> onPwr (fun x => { x with state := .rollback, target := 2, rollback := [2] })
     |> onCav (fun x => { x with bistRun := false }), inv_of_bools (by decide +kernel), by decide +kernel,
     by decide +kernel, 2, [], by decide +kernel⟩,
   ⟨colsUp |> inRun |> onPwr (fun x => { x with state := .rollback, target := 2, rollback := [4] })
     |> onCav (fun x => { x with bistRun := false }), inv_of_bools (by decide +kernel), by decide +kernel,
     by decide +kernel, 4, [], by decide +kernel⟩,
   ⟨colsUp |> inRun |> onPwr (fun x => { x with state := .rollback, target := 2, rollback := [5] })
     |> onCav (fun x => { x with bistRun := false }), inv_of_bools (by decide +kernel), by decide +kernel,
     by decide +kernel, 5, [], by decide +kernel⟩,
   ⟨colsUp |> inRun |> onPwr (fun x => { x with state := .rollback, target := 2, rollback := [6] })
     |> onCav (fun x => { x with bistRun := false }), inv_of_bools (by decide +kernel), by decide +kernel,
     by decide +kernel, 6, [], by decide +kernel⟩,
   ⟨colsUp |> inRun |> onPwr (fun x => { x with state := .rollback, target := 2, rollback := [6, 5] }),
     inv_of_bools (by decide +kernel), by decide +kernel, by decide +kernel, 6, [5], by decide +kernel⟩,
   ⟨colsUp |> inRun |> onPwr (fun x => { x with state := .entering, target := 3, saving := true }),
     inv_of_bools (by decide +kernel), by decide +kernel⟩,
   ⟨colsUp |> inRun |> onPwr (fun x => { x with state := .layover, target := 0 }),
     inv_of_bools (by decide +kernel), by decide +kernel⟩,
   ⟨colsUp |> inRun |> onPwr (fun x => { x with state := .layover, target := 0, usbOn := true }) |>.setBit (Reg.PD_PORT_CFG 2) 0 true
     |>.modPd 2 (fun x => { x with tc := .attached, pdoDue := true, contract := some { pos := 1, cur := 100, volt := 100, mismatch := false } }),
     inv_of_bools (by decide +kernel), by decide +kernel, by decide +kernel, by decide +kernel, by decide +kernel, 1, by decide +kernel⟩,
   ⟨colsUp |> inRun |> onPwr (fun x => { x with state := .layover, target := 0, reqBy := some (0, 2) }),
     inv_of_bools (by decide +kernel), by decide +kernel, by decide +kernel, by decide +kernel, 0, 2,
     by decide +kernel⟩⟩

/-- The hypotheses of Obligations.WakesAndSupplies can be met. -/
theorem witness_WakesAndSupplies :
    (∃ (s : State), s.Inv ∧ ∃ (source : Fin 7), (s.bit Reg.PWR_WAKE_EN source.val = false ∨ s.pwr.state = .active)) ∧
    (∃ (s : State), s.Inv ∧ ∃ (source : Fin 7), s.bit Reg.PWR_WAKE_EN source.val = true ∧ s.pwr.vaux = true ∧
      s.boot.held = false ∧ (s.pwr.state = .entering ∨ s.pwr.state = .rollback ∨ s.pwr.state = .cutoff)) ∧
    (∃ (s : State), s.Inv ∧ ∃ (source : Fin 7), s.bit Reg.PWR_WAKE_EN source.val = true ∧ s.pwr.vaux = true ∧
      s.boot.held = false ∧ s.pwr.state = .layover ∧ s.pwr.target = 0 ∧ source = 3) ∧
    (∃ (s : State), s.Inv ∧ ∃ (source : Fin 7), s.bit Reg.PWR_WAKE_EN source.val = true ∧ s.pwr.vaux = true ∧
      s.boot.held = false ∧ s.pwr.state = .layover ∧ s.pwr.target = 0 ∧ source = 0) ∧
    (∃ (s : State), s.Inv ∧ ∃ (source : Fin 7), s.bit Reg.PWR_WAKE_EN source.val = true ∧ s.pwr.vaux = true ∧
      s.boot.held = false ∧ s.pwr.state = .dormant) ∧
    (∃ (s : State), s.Inv ∧ s.layoverSwitch = true ∧ s.beforeSwitch = false ∧ s.atTarget = true ∧ s.bit Reg.GLB_REFCLK 5 = true) ∧
    (∃ (s : State), s.Inv ∧ s.layoverSwitch = true ∧ s.beforeSwitch = false ∧ s.atTarget = true ∧ s.bit Reg.GLB_REFCLK 5 = false) ∧
    (∃ (s : State), s.Inv ∧ s.coreOn = true ∧ s.pwr.state = .waking ∧ s.boot.fromDormant = false ∧ s.bit Reg.BOOT_STATUS 14 = true ∧
      s.cav.bistRun = false ∧ s.bit Reg.SUMP_TRAIN 0 = false) ∧
    (∃ (s : State), s.Inv ∧ s.pwr.vaux = true ∧ s.pwr.coreEn = true ∧ s.boot.held = true) ∧
    (∃ (s : State), s.Inv ∧ s.pwr.vaux = true ∧ s.pwr.coreEn = true ∧ s.boot.held = false ∧ s.wakingCore = true ∧
      s.pwr.wakeAck = true ∧ s.pwr.coldStart = false ∧ s.saveUsable = true) ∧
    (∃ (s : State), s.Inv ∧ s.coreOn = true ∧ s.pwr.state = .waking ∧ s.boot.fromDormant = true ∧ ∃ (v : Save),
      s.pwr.save = some v) ∧
    (∃ (s : State), s.Inv ∧ s.wakingCore = true ∧ s.pwr.wakeAck = false ∧ s.pwr.wakeTries % 4 < 3) ∧
    (∃ (s : State), s.Inv ∧ s.wakingCore = true ∧ s.pwr.wakeAck = false ∧ ∃ (c : Instr), ((c = .avsAckTimeout ∧
      s.pwr.wakeTries % 4 = 3) ∨ c = .avsStep false) ∧ c = .avsAckTimeout) ∧
    (∃ (s : State), s.Inv ∧ s.wakingCore = true ∧ s.pwr.wakeAck = false ∧ ∃ (c : Instr), ((c = .avsAckTimeout ∧
      s.pwr.wakeTries % 4 = 3) ∨ c = .avsStep false) ∧ c = .avsStep false) ∧
    (∃ (s : State), s.Inv ∧ s.wakingCore = true ∧ s.pwr.wakeAck = false ∧ s.pwr.pgood = false) ∧
    (∃ (s : State), s.Inv ∧ s.wakingCore = true ∧ s.pwr.wakeAck = true ∧ s.pwr.pgood = false) ∧
    (∃ (s : State), s.Inv ∧ s.wakeWaiting = true ∧ s.pwr.vaux = true ∧ s.boot.held = false) ∧
    (∃ (s : State), s.Inv ∧ ∃ (ns : Nat), ns < 8000) ∧
    (∃ (s : State), s.Inv ∧ ∃ (ns : Nat), 12000 ≤ ns ∧ s.pwr.vaux = true ∧ s.pwr.coreEn = true ∧ s.pwr.pgood = true ∧
      s.wakingCore = false) ∧
    (∃ (s : State), s.Inv ∧ ∃ (ns : Nat), 12000 ≤ ns ∧ s.pwr.vaux = true ∧ s.pwr.coreEn = true ∧ s.pwr.pgood = true ∧
      s.wakingCore = true ∧ s.pwr.wakeAck = true) ∧
    (∃ (s : State), s.Inv ∧ .pgood ∈ s.faultN ∧ s.pwr.coreEn = true ∧ s.boot.held = false ∧
      s.pwr.coldStart = false ∧ s.mode ≠ .service ∧ s.bootSrc < 2 ∧ s.fld Reg.GLB_STRAPS 7 6 ≠ 3) ∧
    (∃ (s : State), s.Inv ∧ s.coreOn = true) ∧
    (∃ (s : State), s.Inv ∧ ∃ (vbat : Bool), s.pwr.vaux = true ∧ vbat = true) ∧
    (∃ (s : State), s.Inv ∧ ∃ (vbat : Bool), s.pwr.vaux = true ∧ vbat = false) ∧
    (∃ (s : State), s.Inv ∧ ∃ (held : Bool), s.pwr.vaux = false ∧ held = true) ∧
    (∃ (s : State), s.Inv ∧ ∃ (held : Bool), s.pwr.vaux = false ∧ held = false) ∧
    (∃ (s : State), s.Inv ∧ ∃ (ok : Bool), s.pwr.vaux = true ∧ ok = true) ∧
    (∃ (s : State), s.Inv ∧ ∃ (ok : Bool), s.pwr.vaux = true ∧ ok = false) :=
  ⟨⟨colsUp |> inRun, inv_of_bools (by decide +kernel), 6, by decide +kernel⟩,
   ⟨colsUp |> inRun |>.setReg Reg.PWR_WAKE_EN 0x7F
     |> onPwr (fun x => { x with state := .entering, target := 2 }), inv_of_bools (by decide +kernel), 3,
     by decide +kernel⟩,
   ⟨colsUp |> inRun |>.setReg Reg.PWR_WAKE_EN 0x7F
     |> onPwr (fun x => { x with state := .layover, target := 0 }), inv_of_bools (by decide +kernel), 3,
     by decide +kernel⟩,
   ⟨colsUp |> inRun |>.setReg Reg.PWR_WAKE_EN 0x7F
     |> onPwr (fun x => { x with state := .layover, target := 0 }), inv_of_bools (by decide +kernel), 0,
     by decide +kernel⟩,
   ⟨colsUp |> inRun |>.setReg Reg.PWR_WAKE_EN 0x7F
     |> onPwr (fun x => { x with state := .dormant, coreEn := false, coreHeld := true }),
     inv_of_bools (by decide +kernel), 6, by decide +kernel⟩,
   ⟨stLayoverWake |>.setBit Reg.GLB_REFCLK 5 true, inv_of_bools (by decide +kernel), by decide +kernel⟩,
   ⟨stLayoverWake |>.setBit Reg.GLB_REFCLK 5 false, inv_of_bools (by decide +kernel), by decide +kernel⟩,
   ⟨colsUp |> inRun |> onPwr (fun x => { x with state := .waking }) |>.setBit Reg.BOOT_STATUS 14 true
     |> onCav (fun x => { x with bistRun := false }), inv_of_bools (by decide +kernel), by decide +kernel⟩,
   ⟨colsUp |> onBoot (fun x => { x with held := true }), inv_of_bools (by decide +kernel), by decide +kernel⟩,
   ⟨colsUp |> inRun
     |> onPwr (fun x => { x with state := .waking, coreEn := true, coreHeld := true, wakeAck := true, save := some savedCfg }),
     inv_of_bools (by decide +kernel), by decide +kernel⟩,
   ⟨colsUp |> inRun
     |> onPwr (fun x => { x with state := .waking, save := some savedCfg })
     |> onBoot (fun x => { x with fromDormant := true }), inv_of_bools (by decide +kernel), by decide +kernel,
     by decide +kernel, by decide +kernel, savedCfg,
     by decide +kernel⟩,
   ⟨colsUp |> inRun
     |> onPwr (fun x => { x with state := .waking, coreEn := true, coreHeld := true, wakeTries := 2 }),
     inv_of_bools (by decide +kernel), by decide +kernel⟩,
   ⟨colsUp |> inRun
     |> onPwr (fun x => { x with state := .waking, coreEn := true, coreHeld := true, wakeTries := 3 }),
     inv_of_bools (by decide +kernel), by decide +kernel, by decide +kernel, .avsAckTimeout, by decide +kernel⟩,
   ⟨colsUp |> inRun |> onPwr (fun x => { x with state := .waking, coreEn := true, coreHeld := true }),
     inv_of_bools (by decide +kernel), by decide +kernel, by decide +kernel, .avsStep false, by decide +kernel⟩,
   ⟨colsUp |> inRun
     |> onPwr (fun x => { x with state := .waking, coreEn := true, coreHeld := true, pgood := false }),
     inv_of_bools (by decide +kernel), by decide +kernel⟩,
   ⟨colsUp |> inRun
     |> onPwr (fun x => { x with state := .waking, coreEn := true, coreHeld := true, pgood := false, wakeAck := true }),
     inv_of_bools (by decide +kernel), by decide +kernel⟩,
   ⟨colsUp |> inRun |> onPwr (fun x => { x with state := .waking, coreEn := false, wakeTries := 4 }),
     inv_of_bools (by decide +kernel), by decide +kernel⟩,
   ⟨colsUp |> inRun, inv_of_bools (by decide +kernel), 7999, by decide +kernel⟩,
   ⟨colsUp |> inRun, inv_of_bools (by decide +kernel), 12000, by decide +kernel⟩,
   ⟨colsUp |> inRun |> onPwr (fun x => { x with state := .waking, coreEn := true, coreHeld := true, wakeAck := true }),
     inv_of_bools (by decide +kernel), 12000, by decide +kernel⟩,
   ⟨colsUp |> inRun |> onAll (fun x => { x with faultN := [.pgood] })
     |> onPwr (fun x => { x with pgood := false, coreHeld := true }), inv_of_bools (by decide +kernel),
     by decide +kernel⟩,
   ⟨colsUp |> inRun, inv_of_bools (by decide +kernel), by decide +kernel⟩,
   ⟨colsUp |> inRun, inv_of_bools (by decide +kernel), true, by decide +kernel⟩,
   ⟨colsUp |> inRun, inv_of_bools (by decide +kernel), false, by decide +kernel⟩,
   ⟨colsUp |> onPwr (fun x => { x with vaux := false, vbat := true }), inv_of_bools (by decide +kernel), true,
     by decide +kernel⟩,
   ⟨colsUp |> onPwr (fun x => { x with vaux := false, vbat := false }), inv_of_bools (by decide +kernel),
     false, by decide +kernel⟩,
   ⟨colsUp, inv_of_bools (by decide +kernel), true, by decide +kernel⟩,
   ⟨colsUp, inv_of_bools (by decide +kernel), false, by decide +kernel⟩⟩

/-- The hypotheses of Obligations.CoreVoltage can be met. -/
theorem witness_CoreVoltage :
    (∃ (s : State), s.coreOn = true ∧ ∃ (m : Master), s.Inv ∧ s.Takes m Reg.AVS_TARGET ∧
      s.stepping = false ∧ m = 0 ∧ s.beforeSwitch = true) ∧
    (∃ (s : State), s.coreOn = true ∧ ∃ (m : Master), s.Inv ∧ s.Takes m Reg.AVS_TARGET ∧
      s.stepping = true ∧ m ≠ 0) ∧
    (∃ (s : State), s.coreOn = true ∧ s.stepping = true ∧ s.pwr.avsFrom < 1024) ∧
    (∃ (s : State), s.coreOn = true ∧ s.stepping = true ∧ ∃ (c : Instr), (c = .avsStep false ∨ (c = .avsAckTimeout ∧
      3 ≤ s.pwr.avsRetries)) ∧ c = .avsStep false) ∧
    (∃ (s : State), s.coreOn = true ∧ s.stepping = true ∧ ∃ (c : Instr), (c = .avsStep false ∨ (c = .avsAckTimeout ∧
      3 ≤ s.pwr.avsRetries)) ∧ c = .avsAckTimeout) ∧
    (∃ (s : State), s.coreOn = true ∧ s.stepping = true ∧ s.pwr.avsRetries < 3) ∧
    (∃ (s : State), s.coreOn = true ∧ s.bit Reg.AVS_CFG2 8 = true ∧ s.mode = .run ∧ s.pwr.state = .active ∧
      s.supervisor.isSome = true ∧ s.pwr.avsHead + 16000 ≤ s.heads ∧ s.fld Reg.AVS_CFG2 7 0 ≤ s.fld Reg.AVS_MARGIN 11 0) ∧
    (∃ (s : State), s.coreOn = true ∧ s.bit Reg.AVS_CFG2 8 = true ∧ s.mode = .run ∧ s.pwr.state = .active ∧
      s.supervisor.isSome = true ∧ s.pwr.avsHead + 16000 ≤ s.heads ∧ s.fld Reg.AVS_MARGIN 11 0 < s.fld Reg.AVS_CFG2 7 0 ∧ 15 ≤ s.pwr.lowCount ∧
      s.vProc + 5 * (s.fld Reg.AVS_AGE 7 0 + 1) ≤ s.avsHigh) ∧
    (∃ (s : State), s.coreOn = true ∧ s.limited = true ∧ s.bit Reg.AVS_STATUS 21 = true ∧ s.supervisor.isSome = true) ∧
    (∃ (s : State), s.coreOn = true ∧ s.limited = true ∧ (s.bit Reg.AVS_STATUS 21 = false ∨ s.supervisor = none)) ∧
    (∃ (s : State), s.coreOn = true ∧ s.limited = true ∧ ∃ (locked : Bool), (locked = false ∨
      s.bit Reg.GLB_REFCLK 5 = false) ∧ locked = true) ∧
    (∃ (s : State), s.coreOn = true ∧ s.limited = true ∧ ∃ (locked : Bool), (locked = false ∨
      s.bit Reg.GLB_REFCLK 5 = false) ∧ locked = false) ∧
    (∃ (s : State), s.coreOn = true ∧ s.limited = true ∧ s.bit Reg.GLB_REFCLK 5 = true ∧ s.atTarget = true) ∧
    (∃ (s : State), s.coreOn = true ∧ s.atTarget = true ∧ s.beforeSwitch = true) ∧
    (∃ (s : State), s.coreOn = true ∧ s.atTarget = true ∧ s.beforeSwitch = false ∧ s.layoverSwitch = true) ∧
    (∃ (s : State), s.coreOn = true ∧ (s.atTarget = false ∨ s.switchToCome = false) ∧ s.beforeSwitch = true) :=
  ⟨⟨colsUp |> arm 0 |>.setFld Reg.BOOT_STATUS 2 0 4, by decide +kernel, 0, inv_of_bools (by decide +kernel),
     takes_of_takesB (by decide +kernel), by decide +kernel⟩,
   ⟨colsUp |> arm 2 |>.setBit Reg.AVS_STATUS 20 true, by decide +kernel, 2, inv_of_bools (by decide +kernel),
     takes_of_takesB (by decide +kernel), by decide +kernel⟩,
   ⟨colsUp |>.setBit Reg.AVS_STATUS 20 true |>.setFld Reg.AVS_STATUS 19 10 800
     |> onPwr (fun x => { x with avsFrom := 795 }), by decide +kernel⟩,
   ⟨colsUp |>.setBit Reg.AVS_STATUS 20 true, by decide +kernel, by decide +kernel, .avsStep false,
     by decide +kernel⟩,
   ⟨colsUp |>.setBit Reg.AVS_STATUS 20 true |> onPwr (fun x => { x with avsRetries := 3 }), by decide +kernel,
     by decide +kernel, .avsAckTimeout, by decide +kernel⟩,
   ⟨colsUp |>.setBit Reg.AVS_STATUS 20 true |> onPwr (fun x => { x with avsRetries := 2 }), by decide +kernel⟩,
   ⟨colsUp |> inRun |>.setBit Reg.AVS_CFG2 8 true |>.setReg Reg.COL_SUPER 0 |>.setFld Reg.AVS_MARGIN 11 0 100
     |>.setFld Reg.AVS_CFG2 7 0 50 |> onAll (fun x => { x with heads := 16000 }), by decide +kernel⟩,
   ⟨colsUp |> inRun |>.setBit Reg.AVS_CFG2 8 true |>.setReg Reg.COL_SUPER 0 |>.setFld Reg.AVS_MARGIN 11 0 10
     |>.setFld Reg.AVS_CFG2 7 0 50 |> onPwr (fun x => { x with lowCount := 15 }) |>.setFld Reg.AVS_PROC 7 0 255
     |>.setFld Reg.AVS_CFG 25 16 880 |> onAll (fun x => { x with heads := 16000 }), by decide +kernel⟩,
   ⟨colsUp |> inRun |>.setBit Reg.GLB_MODE 3 true |>.setBit Reg.AVS_STATUS 21 true, by decide +kernel⟩,
   ⟨colsUp |> inRun |>.setBit Reg.GLB_MODE 3 true, by decide +kernel⟩,
   ⟨colsUp |> inRun |>.setBit Reg.GLB_MODE 3 true, by decide +kernel, by decide +kernel, true,
     by decide +kernel⟩,
   ⟨colsUp |> inRun |>.setBit Reg.GLB_MODE 3 true, by decide +kernel, by decide +kernel, false,
     by decide +kernel⟩,
   ⟨colsUp |> inRun |>.setBit Reg.GLB_MODE 3 true |>.setBit Reg.GLB_REFCLK 5 true
     |>.setFld Reg.AVS_STATUS 9 0 800 |>.setFld Reg.AVS_TARGET 9 0 800 |> onPwr (fun x => { x with avsSet := true }), by decide +kernel⟩,
   ⟨colsUp |>.setFld Reg.BOOT_STATUS 2 0 5 |> onPwr (fun x => { x with avsSet := true }) |>.setFld Reg.AVS_STATUS 9 0 800
     |>.setFld Reg.AVS_TARGET 9 0 800, by decide +kernel⟩,
   ⟨stLayoverWake, by decide +kernel⟩,
   ⟨colsUp |>.setFld Reg.BOOT_STATUS 2 0 5, by decide +kernel⟩⟩

/-- The hypotheses of Obligations.MonitorsAndLog can be met. -/
theorem witness_MonitorsAndLog :
    (∃ (s : State), ∃ (ch : ChannelIx) (code : BitVec 12), s.pwr.vaux = true ∧ (s.coreOn = true ∨ ch.val = 8) ∧
      ch = 8 ∧ code = 0xFFF) ∧
    (∃ (s : State), ∃ (ch : ChannelIx) (code : BitVec 12), s.pwr.vaux = true ∧ (s.coreOn = true ∨ ch.val = 8) ∧
      ch = 0 ∧ code = 5) ∧
    (∃ (s : State), ∃ (ch : ChannelIx) (code : BitVec 12), s.pwr.vaux = true ∧ (s.coreOn = true ∨ ch.val = 8) ∧
      ch = 8 ∧ code = 0x900) ∧
    (∃ (s : State), ∃ (ch : ChannelIx) (code : BitVec 12), s.pwr.vaux = true ∧ s.coreOn = true ∧ ch.val < 8 ∧
      3104 ≤ code.toNat ∧ 1 ≤ s.mon[ch].hot ∧ .cutoff ∉ s.faultN) ∧
    (∃ (s : State), ∃ (ch : ChannelIx), s.pwr.vaux = true ∧ s.coreOn = false ∧ ch.val ≠ 8 ∧ s.log.pending.length ≤ 16) ∧
    (∃ (s : State), .cutoff ∈ s.faultN ∧ s.pwr.state ≠ .cutoff) ∧
    (∃ (s : State), s.pwr.state = .cutoff ∧ s.mon[(8 : ChannelIx)].valid = true ∧
      s.mon[(8 : ChannelIx)].code.toNat ≤ s.restartCode ∧ s.boot.held = false ∧ s.pwr.coldStart = false ∧
      s.mode ≠ .service ∧ s.bootSrc < 2 ∧ s.fld Reg.GLB_STRAPS 7 6 ≠ 3) ∧
    (∃ (s : State) (r : EventRecord) (rest : List EventRecord), s.log.pending = r :: rest ∧ s.pwr.vaux = true ∧
      s.fld Reg.LOG_STATUS 10 0 < 1536 ∧ s.fld Reg.LOG_STATUS 21 11 ≤ 1536 ∧ s.log.trendDue = false) ∧
    (∃ (s : State) (r : EventRecord) (rest : List EventRecord), s.log.pending = r :: rest ∧ s.pwr.vaux = false ∧
      s.pwr.vbat = true ∧ r.src = 0x13 ∧ s.fld Reg.LOG_STATUS 10 0 < 1536 ∧ s.fld Reg.LOG_STATUS 21 11 ≤ 1536) ∧
    (∃ (s : State) (r : EventRecord) (rest : List EventRecord), s.log.pending = r :: rest ∧ s.pwr.vaux = true ∧
      s.fld Reg.LOG_STATUS 10 0 < 1536 ∧ s.fld Reg.LOG_STATUS 21 11 ≤ 1536 ∧ s.log.trendDue = true ∧ rest = [] ∧ s.mode = .run) ∧
    (∃ (s : State) (r : EventRecord) (rest : List EventRecord), s.log.pending = r :: rest ∧ s.pwr.vaux = false ∧
      (s.pwr.vbat = false ∨ r.src ≠ 0x13)) ∧
    (∃ (s : State), ∃ (m : Master) (data : Word), s.Inv ∧ s.Takes m Reg.LOG_RD_ADDR ∧ data = 0) ∧
    (∃ (s : State), ∃ (m : Master) (data : Word), s.Inv ∧ s.Takes m Reg.LOG_RD_ADDR ∧ data = 0xFFFFFFFF) ∧
    (∃ (s : State), ∃ (m : Master), s.Inv ∧ s.Takes m Reg.LOG_PUT_CMD ∧ s.pwr.vaux = true ∧
      s.log.pending.length < 16) ∧
    (∃ (s : State), ∃ (m : Master), s.Inv ∧ s.Takes m Reg.LOG_PUT_CMD ∧ s.pwr.vaux = true ∧
      16 ≤ s.log.pending.length) :=
  ⟨⟨colsUp, 8, 0xFFF, by decide +kernel⟩,
   ⟨colsUp |> inRun, 0, 5, by decide +kernel⟩,
   ⟨colsUp |> onBoot (fun x => { x with held := true }), 8, 0x900, by decide +kernel⟩,
   ⟨colsUp |> inRun |> onMon 7 (fun x => { x with hot := 1 }), 7, 3104, by decide +kernel⟩,
   ⟨colsUp |> onBoot (fun x => { x with held := true }), 0, by decide +kernel⟩,
   ⟨colsUp |> onAll (fun x => { x with faultN := [.cutoff] }), by decide +kernel⟩,
   ⟨colsUp |> onPwr (fun x => { x with state := .cutoff })
     |> onMon 8 (fun x => { x with valid := true, code := 100 }) |> onAll (fun x => { x with faultN := [.cutoff] }),
     by decide +kernel⟩,
   ⟨colsUp |> onLog (fun x => { x with pending := [recOf 3] }), recOf 3, [], by decide +kernel⟩,
   ⟨colsUp |> onPwr (fun x => { x with vaux := false, vbat := true }) |> onLog (fun x => { x with pending := [recOf 0x13] }), recOf 0x13, [],
     by decide +kernel⟩,
   ⟨colsUp |> inRun |> onLog (fun x => { x with pending := [recOf 3], trendDue := true }), recOf 3, [], by decide +kernel⟩,
   ⟨colsUp |> onPwr (fun x => { x with vaux := false, vbat := true }) |> onLog (fun x => { x with pending := [recOf 3] }), recOf 3, [],
     by decide +kernel⟩,
   ⟨colsUp |> arm 0
     |> onLog (fun x => { x with ring := [(0, (recOf 3))] }),
     0, 0, inv_of_bools (by decide +kernel), takes_of_takesB (by decide +kernel), by decide +kernel⟩,
   ⟨colsUp |> arm 0, 0, 0xFFFFFFFF, inv_of_bools (by decide +kernel), takes_of_takesB (by decide +kernel),
     by decide +kernel⟩,
   ⟨colsUp |> arm 0, 0, inv_of_bools (by decide +kernel), takes_of_takesB (by decide +kernel),
     by decide +kernel⟩,
   ⟨colsUp |> arm 0
     |> onLog (fun x => { x with pending := List.replicate 16 (recOf 3) }),
     0, inv_of_bools (by decide +kernel), takes_of_takesB (by decide +kernel), by decide +kernel⟩⟩

/-- The hypotheses of Obligations.TypeCAndVbus can be met. -/
theorem witness_TypeCAndVbus :
    (∃ (s : State), s.usbUp = true ∧ s.pwr.state = .active ∧ s.pd[(0 : PdPort)].detached = true ∧
      ∃ (plug : UpPlug) (rp : BitVec 2), plug.settled = true ∧ rp = 0) ∧
    (∃ (s : State), s.usbUp = true ∧ s.pwr.state = .active ∧ s.pd[(0 : PdPort)].detached = true ∧
      ∃ (plug : UpPlug) (rp : BitVec 2), rp ≠ 0 ∧ plug.settled = false) ∧
    (∃ (s : State), s.usbUp = true ∧ s.pwr.state = .active ∧ s.pd[(0 : PdPort)].detached = true ∧
      ∃ (plug : UpPlug) (rp : BitVec 2), rp ≠ 0 ∧ plug.settled = true ∧ s.mode ≠ .service) ∧
    (∃ (s : State), s.usbUp = true ∧ s.pwr.state = .active ∧ s.pd[(0 : PdPort)].detached = true ∧
      ∃ (plug : UpPlug) (rp : BitVec 2), rp ≠ 0 ∧ plug.settled = true ∧ s.mode = .service) ∧
    (∃ (s : State), s.usbUp = true ∧ s.pwr.state = .active ∧ s.pd[(0 : PdPort)].tc ≠ .unattached) ∧
    (∃ (s : State), s.usbUp = true ∧ s.pwr.state = .active ∧ ∃ (port : DnPd) (plug : DnPlug), s.pd[dnPd port].detached = true ∧
      s.pd[dnPd port].rpOff = false ∧ s.pd[dnPd port].disch = false ∧ (s.dnPowered = false ∨ s.hwPolicy = true ∨ dnAttaches plug = false) ∧ s.dnPowered = false) ∧
    (∃ (s : State), s.usbUp = true ∧ s.pwr.state = .active ∧ ∃ (port : DnPd) (plug : DnPlug), s.pd[dnPd port].detached = true ∧
      s.pd[dnPd port].rpOff = false ∧ s.pd[dnPd port].disch = false ∧ (s.dnPowered = false ∨ s.hwPolicy = true ∨ dnAttaches plug = false) ∧
      s.dnPowered = true ∧ s.hwPolicy = true) ∧
    (∃ (s : State), s.usbUp = true ∧ s.pwr.state = .active ∧ ∃ (port : DnPd) (plug : DnPlug), s.pd[dnPd port].detached = true ∧
      s.pd[dnPd port].rpOff = false ∧ s.pd[dnPd port].disch = false ∧ (s.dnPowered = false ∨ s.hwPolicy = true ∨ dnAttaches plug = false) ∧
      s.dnPowered = true ∧ s.hwPolicy = false) ∧
    (∃ (s : State), s.usbUp = true ∧ s.pwr.state = .active ∧ ∃ (port : DnPd) (plug : DnPlug), s.pd[dnPd port].detached = true ∧
      s.pd[dnPd port].rpOff = false ∧ s.pd[dnPd port].disch = false ∧ s.dnPowered = true ∧ s.hwPolicy = false ∧
      dnAttaches plug = true ∧ plug.settled = false) ∧
    (∃ (s : State), s.usbUp = true ∧ s.pwr.state = .active ∧ ∃ (port : DnPd) (plug : DnPlug), s.pd[dnPd port].detached = true ∧
      s.pd[dnPd port].rpOff = false ∧ s.pd[dnPd port].disch = false ∧ s.dnPowered = true ∧ s.hwPolicy = false ∧
      dnAttaches plug = true ∧ plug.settled = true ∧ s.usb.portPower = 3) ∧
    (∃ (s : State), s.usbUp = true ∧ s.pwr.state = .active ∧ ∃ (port : DnPd), s.pd[dnPd port].tc = .attached ∧
      port = 0) ∧
    (∃ (s : State), s.usbUp = true ∧ s.pwr.state = .active ∧ ∃ (port : DnPd), s.pd[dnPd port].tc = .attached ∧
      port = 1) ∧
    (∃ (s : State), s.usbUp = true ∧ s.pwr.state = .active ∧ s.ocGanged = true ∧ ∃ (n : DnPort), n = 2) ∧
    (∃ (s : State), s.usbUp = true ∧ s.pwr.state = .active ∧ ∃ (n : DnPort), s.ocGanged = false ∧ n = 0) ∧
    (∃ (s : State), s.usbUp = true ∧ s.pwr.state = .active ∧ ∃ (n : DnPort), s.ocGanged = false ∧ n = 3) ∧
    (∃ (s : State), s.usbUp = true ∧ s.pwr.state = .active ∧ ∃ (n : DnPort), ∃ (connected : Bool),
      s.dnPowered = true ∧ s.usb.portPower.getLsbD n.val = true ∧ n = 3 ∧ connected = true) ∧
    (∃ (s : State), s.usbUp = true ∧ s.pwr.state = .active ∧ ∃ (n : DnPort), ∃ (connected : Bool),
      s.dnPowered = true ∧ s.usb.portPower.getLsbD n.val = true ∧ n = 2 ∧ connected = false) ∧
    (∃ (s : State), s.usbUp = true ∧ s.pwr.state = .active ∧ ∃ (port : PdPort), s.pwr.vaux = true ∧ s.pd[port].disch = true ∧
      s.pd[port].tc ≠ .attached ∧ s.pd[port].tc ≠ .attachWait ∧ s.pd[port].tc ≠ .held) ∧
    (∃ (s : State), s.usbUp = true ∧ s.pwr.state = .active ∧ ∃ (port : PdPort), s.pwr.vaux = true ∧ s.pd[port].disch = true ∧
      port = 0) ∧
    (∃ (s : State), s.usbUp = true ∧ s.pwr.state = .active ∧ ∃ (port : PdPort), s.pwr.vaux = true ∧ s.pd[port].disch = true ∧
      s.pd[port].tc = .attached ∧ port ≠ 0 ∧ s.dnPowered = true) ∧
    (∃ (s : State), s.usbUp = true ∧ s.pwr.state = .active ∧ s.mode = .service ∧ s.pd[(0 : PdPort)].tc = .attached ∧
      s.pd[(0 : PdPort)].asked = none ∧ s.upSpeed = 0) ∧
    (∃ (s : State), s.usbUp = true ∧ s.pwr.state = .active ∧ ∃ (port : DnPd) (mv : Nat),
      s.pd[dnPd port].transition = some mv) ∧
    (∃ (s : State), s.usbUp = true ∧ s.pwr.state = .active ∧ ∃ (port : DnPd), s.pd[dnPd port].contract ≠ none) :=
  ⟨⟨colsUp |> inRun |> onPwr (fun x => { x with usbOn := true }),
     by decide +kernel,
     by decide +kernel,
     by decide +kernel,
     { cc2 := true, settled := true, host := 2 },
     0,
     by decide +kernel⟩,
   ⟨colsUp |> inRun |> onPwr (fun x => { x with usbOn := true }),
     by decide +kernel,
     by decide +kernel,
     by decide +kernel,
     { cc2 := true, settled := false, host := 2 },
     1,
     by decide +kernel⟩,
   ⟨colsUp |> inRun |> onPwr (fun x => { x with usbOn := true })
     |>.modPd 0 (fun x => { x with tc := .attachWait }),
     by decide +kernel,
     by decide +kernel,
     by decide +kernel,
     { cc2 := true, settled := true, host := 2 },
     3,
     by decide +kernel⟩,
   ⟨colsUp |> inService |> onPwr (fun x => { x with usbOn := true }),
     by decide +kernel,
     by decide +kernel,
     by decide +kernel,
     { cc2 := true, settled := true, host := 2 },
     1,
     by decide +kernel⟩,
   ⟨colsUp |> inRun |> onPwr (fun x => { x with usbOn := true })
     |>.modPd 0 (fun x => { x with tc := .attached, partner := true }),
     by decide +kernel⟩,
   ⟨colsUp |> onPwr (fun x => { x with usbOn := true }),
     by decide +kernel,
     by decide +kernel,
     0,
     { cc1 := .rd, cc2 := .free, settled := true },
     by decide +kernel⟩,
   ⟨colsUp |> inRun |> onPwr (fun x => { x with usbOn := true })
     |>.modColumn 2 (fun x => { x with loaded := true, state := .failed }),
     by decide +kernel,
     by decide +kernel,
     0,
     { cc1 := .free, cc2 := .rd, settled := true },
     by decide +kernel⟩,
   ⟨colsUp |> inRun |> onPwr (fun x => { x with usbOn := true }),
     by decide +kernel,
     by decide +kernel,
     1,
     { cc1 := .rd, cc2 := .rd, settled := true },
     by decide +kernel⟩,
   ⟨colsUp |> inRun |> onPwr (fun x => { x with usbOn := true }),
     by decide +kernel,
     by decide +kernel,
     1,
     { cc1 := .rd, cc2 := .ra, settled := false },
     by decide +kernel⟩,
   ⟨colsUp |> inRun |> onPwr (fun x => { x with usbOn := true }) |> onUsb (fun x => { x with portPower := 3 })
     |>.modPd 2 (fun x => { x with tc := .attachWait }),
     by decide +kernel,
     by decide +kernel,
     1,
     { cc1 := .ra, cc2 := .rd, settled := true },
     by decide +kernel⟩,
   ⟨colsUp |> inRun |> onPwr (fun x => { x with usbOn := true })
     |>.modPd 1 (fun x => { x with tc := .attached, vbusEn := true }),
     by decide +kernel,
     by decide +kernel,
     0,
     by decide +kernel⟩,
   ⟨colsUp |> inRun |> onPwr (fun x => { x with usbOn := true })
     |>.modPd 2 (fun x => { x with tc := .attached, vbusEn := true }),
     by decide +kernel,
     by decide +kernel,
     1,
     by decide +kernel⟩,
   ⟨colsUp |> inRun |> onPwr (fun x => { x with usbOn := true })
     |>.setBit Reg.USB_STATUS 7 true |> onUsb (fun x => { x with portPower := 15 }),
     by decide +kernel,
     by decide +kernel,
     by decide +kernel,
     2,
     by decide +kernel⟩,
   ⟨colsUp |> inRun |> onPwr (fun x => { x with usbOn := true })
     |> onUsb (fun x => { x with portPower := 15 }),
     by decide +kernel,
     by decide +kernel,
     0,
     by decide +kernel⟩,
   ⟨colsUp |> inRun |> onPwr (fun x => { x with usbOn := true })
     |> onUsb (fun x => { x with portPower := 15 }),
     by decide +kernel,
     by decide +kernel,
     3,
     by decide +kernel⟩,
   ⟨colsUp |> inRun |> onPwr (fun x => { x with usbOn := true })
     |> onUsb (fun x => { x with portPower := 15, conn := 0 }),
     by decide +kernel,
     by decide +kernel,
     3,
     true,
     by decide +kernel⟩,
   ⟨colsUp |> inRun |> onPwr (fun x => { x with usbOn := true })
     |> onUsb (fun x => { x with portPower := 15, conn := 15 }),
     by decide +kernel,
     by decide +kernel,
     2,
     false,
     by decide +kernel⟩,
   ⟨colsUp |> inRun |> onPwr (fun x => { x with usbOn := true })
     |>.modPd 1 (fun x => { x with disch := true, tc := .errorRecovery }),
     by decide +kernel,
     by decide +kernel,
     1,
     by decide +kernel⟩,
   ⟨colsUp |> inRun |> onPwr (fun x => { x with usbOn := true })
     |>.modPd 0 (fun x => { x with disch := true }),
     by decide +kernel,
     by decide +kernel,
     0,
     by decide +kernel⟩,
   ⟨colsUp |> inRun |> onPwr (fun x => { x with usbOn := true })
     |>.modPd 2 (fun x => { x with disch := true, tc := .attached }),
     by decide +kernel,
     by decide +kernel,
     2,
     by decide +kernel⟩,
   ⟨colsUp |> inService |> onPwr (fun x => { x with usbOn := true })
     |>.modPd 0 (fun x => { x with tc := .attached, rpSeen := 2 }),
     by decide +kernel⟩,
   ⟨colsUp |> inRun |> onPwr (fun x => { x with usbOn := true })
     |>.modPd 1 (fun x => { x with tc := .attached, transition := some 9000, contract := some { pos := 2, cur := 100, volt := 180, mismatch := false } }),
     by decide +kernel,
     by decide +kernel,
     0,
     9000,
     by decide +kernel⟩,
   ⟨colsUp |> inRun |> onPwr (fun x => { x with usbOn := true })
     |>.modPd 2 (fun x => { x with tc := .attached, contract := some { pos := 1, cur := 100, volt := 100, mismatch := false } }),
     by decide +kernel,
     by decide +kernel,
     1,
     by decide +kernel⟩⟩

/-- The hypotheses of Obligations.MaintenanceFunction can be met. -/
theorem witness_MaintenanceFunction :
    (∃ (s : State), s.usbUp = true ∧ s.pwr.state = .active ∧ s.upSpeed ≠ 0 ∧ s.usb.mfOn = true ∧
      ∃ (v : BitVec 16) (i : BitVec 16) (l : BitVec 16), v = 0 ∧ i = 0 ∧ l = 0 ∧ s.mfAdmits = true ∧
      s.mfSession ≠ 1) ∧
    (∃ (s : State), s.usbUp = true ∧ s.pwr.state = .active ∧ s.upSpeed ≠ 0 ∧ s.usb.mfOn = true ∧
      ∃ (v : BitVec 16) (i : BitVec 16) (l : BitVec 16), v = 0 ∧ i = 0 ∧ l = 0 ∧ s.mfAdmits = true ∧
      s.mfSession = 1) ∧
    (∃ (s : State), s.usbUp = true ∧ s.pwr.state = .active ∧ s.upSpeed ≠ 0 ∧ s.usb.mfOn = true ∧
      ∃ (v : BitVec 16) (i : BitVec 16) (l : BitVec 16), (v ≠ 0 ∨ i ≠ 0 ∨ l ≠ 0 ∨ s.mfAdmits = false) ∧ v = 1) ∧
    (∃ (s : State), s.usbUp = true ∧ s.pwr.state = .active ∧ s.upSpeed ≠ 0 ∧ s.usb.mfOn = true ∧
      ∃ (v : BitVec 16) (i : BitVec 16) (l : BitVec 16), (v ≠ 0 ∨ i ≠ 0 ∨ l ≠ 0 ∨ s.mfAdmits = false) ∧ v = 0) ∧
    (∃ (s : State), s.usbUp = true ∧ s.pwr.state = .active ∧ s.upSpeed ≠ 0 ∧ s.usb.mfOn = true ∧
      ∃ (v : BitVec 16) (i : BitVec 16) (l : BitVec 16), v = 0 ∧ i = 0 ∧ l = 0) ∧
    (∃ (s : State), s.usbUp = true ∧ s.pwr.state = .active ∧ s.upSpeed ≠ 0 ∧ s.usb.mfOn = true ∧
      ∃ (v : BitVec 16) (i : BitVec 16) (l : BitVec 16), (v ≠ 0 ∨ i ≠ 0 ∨ l ≠ 0)) ∧
    (∃ (s : State), s.usbUp = true ∧ s.pwr.state = .active ∧ s.upSpeed ≠ 0 ∧ s.usb.mfOn = true ∧
      ∃ (v : BitVec 16) (i : BitVec 16) (l : BitVec 16), v = 0 ∧ i = 0 ∧ l = 4) ∧
    (∃ (s : State), s.usbUp = true ∧ s.pwr.state = .active ∧ s.upSpeed ≠ 0 ∧ s.usb.mfOn = true ∧
      ∃ (v : BitVec 16) (i : BitVec 16) (l : BitVec 16), (v ≠ 0 ∨ i ≠ 0 ∨ l ≠ 4)) ∧
    (∃ (s : State), s.usbUp = true ∧ s.pwr.state = .active ∧ s.upSpeed ≠ 0 ∧ s.usb.mfOn = true) ∧
    (∃ (s : State), s.usbUp = true ∧ s.pwr.state = .active ∧ s.upSpeed ≠ 0 ∧ s.usb.mfOn = true ∧
      s.usb.cfg.getLsbD 1 = true ∧ s.upSpeed ≠ 3 ∧ s.usb.replies = []) ∧
    (∃ (s : State), s.usbUp = true ∧ s.pwr.state = .active ∧ s.upSpeed ≠ 0 ∧ s.usb.mfOn = true ∧
      s.usb.cfg.getLsbD 1 = true ∧ s.upSpeed ≠ 3 ∧ s.usb.replies ≠ []) ∧
    (∃ (s : State), s.usbUp = true ∧ s.pwr.state = .active ∧ s.upSpeed ≠ 0 ∧ s.usb.mfOn = true ∧ s.usb.replies = []) ∧
    (∃ (s : State), s.usbUp = true ∧ s.pwr.state = .active ∧ s.upSpeed ≠ 0 ∧ s.usb.mfOn = true ∧
      ∃ (r : UsbReply) (rest : List UsbReply), s.usb.replies = r :: rest ∧
      (s.usb.nrdy && decide (rest.length < 8) && !s.policyAway) = false) ∧
    (∃ (s : State), s.usbUp = true ∧ s.pwr.state = .active ∧ s.upSpeed ≠ 0 ∧ s.usb.mfOn = true ∧
      ∃ (r : UsbReply) (rest : List UsbReply), s.usb.replies = r :: rest ∧
      (s.usb.nrdy && decide (rest.length < 8) && !s.policyAway) = true) ∧
    (∃ (s : State), s.usbUp = true ∧ s.pwr.state = .active ∧ s.upSpeed ≠ 0 ∧ ∃ control : Bool, control = true) ∧
    (∃ (s : State), s.usbUp = true ∧ s.pwr.state = .active ∧ s.upSpeed ≠ 0 ∧ ∃ control : Bool, control = false) ∧
    (∃ (s : State), s.usbUp = true ∧ s.pwr.state = .active ∧ s.upSpeed ≠ 0 ∧ s.wantsWake = true) ∧
    (∃ (s : State), s.usbUp = true ∧ s.pwr.state = .active ∧ s.upSpeed ≠ 0 ∧ s.wantsWake = false) ∧
    (∃ (s : State), s.usbUp = true ∧ s.pwr.state = .active ∧ s.upSpeed ≠ 0 ∧ s.usb.suspended = true ∧ s.wantsWake = true ∧ s.upSpeed = 3 ∧ s.wakeCauseNow = true) ∧
    (∃ (s : State), s.usbUp = true ∧ s.pwr.state = .active ∧ s.upSpeed ≠ 0 ∧ s.usb.suspended = true ∧ s.wantsWake = false ∧ s.upSpeed = 3 ∧ s.usb.signalled = true) ∧
    (∃ (s : State), s.usbUp = true ∧ s.pwr.state = .active ∧ s.upSpeed ≠ 0 ∧ s.usb.suspended = true ∧ s.wantsWake = true ∧ s.upSpeed ≠ 3) ∧
    (∃ (s : State), s.usbUp = true ∧ s.pwr.state = .active ∧ s.upSpeed ≠ 0 ∧ s.usb.suspended = false) ∧
    (∃ (s : State), s.usbUp = true ∧ s.pwr.state = .active ∧ s.upSpeed ≠ 0 ∧ s.usb.cfg.getLsbD 2 = true ∧
      s.upSpeed = 3) ∧
    (∃ (s : State), s.usbUp = true ∧ s.pwr.state = .active ∧ s.upSpeed ≠ 0 ∧ (s.usb.cfg.getLsbD 2 = false ∨
      s.upSpeed ≠ 3)) ∧
    (∃ (s : State), s.usbUp = true ∧ s.pwr.state = .active ∧ s.upSpeed ≠ 0 ∧ s.upSpeed = 3 ∧ s.usb.suspended = false ∧
      ∃ u2 : Bool, s.usb.cfg.getLsbD 2 = false ∧ u2 = true) ∧
    (∃ (s : State), s.usbUp = true ∧ s.pwr.state = .active ∧ s.upSpeed ≠ 0 ∧ ∃ (n : DnPort) (on : Bool),
      s.usb.conn.getLsbD n.val = false ∧ on = true) ∧
    (∃ (s : State), s.usbUp = true ∧ s.pwr.state = .active ∧ s.upSpeed ≠ 0 ∧ s.upSpeed = 3 ∧ s.usb.suspended = false ∧
      ∃ u2 : Bool, s.usb.cfg.getLsbD 2 = true ∧ u2 = true) ∧
    (∃ (s : State), s.usbUp = true ∧ s.pwr.state = .active ∧ s.upSpeed ≠ 0 ∧ ∃ (n : DnPort) (on : Bool),
      s.usb.conn.getLsbD n.val = true ∧ on = true) :=
  ⟨⟨colsUp |>.setReg Reg.PWR_WAKE_EN 0 |> inRun |> onPwr (fun x => { x with usbOn := true })
     |> onUsb (fun x => { x with mfOn := true }) |>.setFld Reg.USB_STATUS 1 0 2 |>.setBit Reg.USB_MF_CFG 0 true,
     by decide +kernel,
     by decide +kernel,
     by decide +kernel,
     by decide +kernel,
     0,
     0,
     0,
     by decide +kernel⟩,
   ⟨colsUp |>.setReg Reg.PWR_WAKE_EN 0 |> inRun |> onPwr (fun x => { x with usbOn := true })
     |> onUsb (fun x => { x with mfOn := true }) |>.setFld Reg.USB_STATUS 1 0 2 |>.setBit Reg.USB_MF_CFG 0 true
     |>.setFld Reg.USB_MF_SESSION 1 0 1,
     by decide +kernel,
     by decide +kernel,
     by decide +kernel,
     by decide +kernel,
     0,
     0,
     0,
     by decide +kernel⟩,
   ⟨colsUp |>.setReg Reg.PWR_WAKE_EN 0 |> inRun |> onPwr (fun x => { x with usbOn := true })
     |> onUsb (fun x => { x with mfOn := true }) |>.setFld Reg.USB_STATUS 1 0 2,
     by decide +kernel,
     by decide +kernel,
     by decide +kernel,
     by decide +kernel,
     1,
     0,
     0,
     by decide +kernel⟩,
   ⟨colsUp |>.setReg Reg.PWR_WAKE_EN 0 |> inRun |> onPwr (fun x => { x with usbOn := true })
     |> onUsb (fun x => { x with mfOn := true }) |>.setFld Reg.USB_STATUS 1 0 2 |>.setBit Reg.USB_MF_CFG 0 false,
     by decide +kernel,
     by decide +kernel,
     by decide +kernel,
     by decide +kernel,
     0,
     0,
     0,
     by decide +kernel⟩,
   ⟨colsUp |>.setReg Reg.PWR_WAKE_EN 0 |> inRun |> onPwr (fun x => { x with usbOn := true })
     |> onUsb (fun x => { x with mfOn := true }) |>.setFld Reg.USB_STATUS 1 0 2 |>.setFld Reg.USB_MF_SESSION 1 0 1,
     by decide +kernel,
     by decide +kernel,
     by decide +kernel,
     by decide +kernel,
     0,
     0,
     0,
     by decide +kernel⟩,
   ⟨colsUp |>.setReg Reg.PWR_WAKE_EN 0 |> inRun |> onPwr (fun x => { x with usbOn := true })
     |> onUsb (fun x => { x with mfOn := true }) |>.setFld Reg.USB_STATUS 1 0 2,
     by decide +kernel,
     by decide +kernel,
     by decide +kernel,
     by decide +kernel,
     0,
     0,
     1,
     by decide +kernel⟩,
   ⟨colsUp |>.setReg Reg.PWR_WAKE_EN 0 |> inRun |> onPwr (fun x => { x with usbOn := true })
     |> onUsb (fun x => { x with mfOn := true }) |>.setFld Reg.USB_STATUS 1 0 2 |>.setFld Reg.USB_MF_SESSION 1 0 1,
     by decide +kernel,
     by decide +kernel,
     by decide +kernel,
     by decide +kernel,
     0,
     0,
     4,
     by decide +kernel⟩,
   ⟨colsUp |>.setReg Reg.PWR_WAKE_EN 0 |> inRun |> onPwr (fun x => { x with usbOn := true })
     |> onUsb (fun x => { x with mfOn := true }) |>.setFld Reg.USB_STATUS 1 0 2,
     by decide +kernel,
     by decide +kernel,
     by decide +kernel,
     by decide +kernel,
     0,
     0,
     3,
     by decide +kernel⟩,
   ⟨colsUp |>.setReg Reg.PWR_WAKE_EN 0 |> inRun |> onPwr (fun x => { x with usbOn := true })
     |> onUsb (fun x => { x with mfOn := true }) |>.setFld Reg.USB_STATUS 1 0 2,
     by decide +kernel⟩,
   ⟨colsUp |>.setReg Reg.PWR_WAKE_EN 0 |> inRun |> onPwr (fun x => { x with usbOn := true })
     |> onUsb (fun x => { x with mfOn := true }) |>.setFld Reg.USB_STATUS 1 0 2 |> onUsb (fun x => { x with cfg := 2 }),
     by decide +kernel⟩,
   ⟨colsUp |>.setReg Reg.PWR_WAKE_EN 0 |> inRun |> onPwr (fun x => { x with usbOn := true })
     |> onUsb (fun x => { x with mfOn := true }) |>.setFld Reg.USB_STATUS 1 0 2
     |> onUsb (fun x => { x with cfg := 2, replies := [{ op := 1, tag := 2, count := 1, done := 1, status := 0, data := [3] }] }),
     by decide +kernel⟩,
   ⟨colsUp |>.setReg Reg.PWR_WAKE_EN 0 |> inRun |> onPwr (fun x => { x with usbOn := true })
     |> onUsb (fun x => { x with mfOn := true }) |>.setFld Reg.USB_STATUS 1 0 2,
     by decide +kernel⟩,
   ⟨colsUp |>.setReg Reg.PWR_WAKE_EN 0 |> inRun |> onPwr (fun x => { x with usbOn := true })
     |> onUsb (fun x => { x with mfOn := true }) |>.setFld Reg.USB_STATUS 1 0 2
     |> onUsb (fun x => { x with nrdy := false, replies := [{ op := 1, tag := 2, count := 1, done := 1, status := 0, data := [3] }] }),
     by decide +kernel,
     by decide +kernel,
     by decide +kernel,
     by decide +kernel,
     { op := 1, tag := 2, count := 1, done := 1, status := 0, data := [3] },
     [],
     by decide +kernel⟩,
   ⟨colsUp |>.setReg Reg.PWR_WAKE_EN 0 |> inRun |> onPwr (fun x => { x with usbOn := true })
     |> onUsb (fun x => { x with mfOn := true }) |>.setFld Reg.USB_STATUS 1 0 2
     |> onUsb (fun x => { x with nrdy := true, replies := [{ op := 1, tag := 2, count := 1, done := 1, status := 0, data := [3] }] }),
     by decide +kernel,
     by decide +kernel,
     by decide +kernel,
     by decide +kernel,
     { op := 1, tag := 2, count := 1, done := 1, status := 0, data := [3] },
     [],
     by decide +kernel⟩,
   ⟨colsUp |>.setReg Reg.PWR_WAKE_EN 0 |> inRun |> onPwr (fun x => { x with usbOn := true })
     |> onUsb (fun x => { x with mfOn := true }) |>.setFld Reg.USB_STATUS 1 0 2 |>.setFld Reg.USB_MF_SESSION 1 0 1,
     by decide +kernel,
     by decide +kernel,
     by decide +kernel,
     true,
     by decide +kernel⟩,
   ⟨colsUp |>.setReg Reg.PWR_WAKE_EN 0 |> inRun |> onPwr (fun x => { x with usbOn := true })
     |> onUsb (fun x => { x with mfOn := true }) |>.setFld Reg.USB_STATUS 1 0 2,
     by decide +kernel,
     by decide +kernel,
     by decide +kernel,
     false,
     by decide +kernel⟩,
   ⟨colsUp |>.setReg Reg.PWR_WAKE_EN 0 |> inRun |> onPwr (fun x => { x with usbOn := true })
     |> onUsb (fun x => { x with mfOn := true }) |>.setFld Reg.USB_STATUS 1 0 2
     |> onUsb (fun x => { x with suspended := true, decided := true }),
     by decide +kernel⟩,
   ⟨colsUp |>.setReg Reg.PWR_WAKE_EN 0 |> inRun |> onPwr (fun x => { x with usbOn := true })
     |> onUsb (fun x => { x with mfOn := true }) |>.setFld Reg.USB_STATUS 1 0 2,
     by decide +kernel⟩,
   ⟨colsUp |>.setReg Reg.PWR_WAKE_EN 0 |> inRun |> onPwr (fun x => { x with usbOn := true })
     |> onUsb (fun x => { x with mfOn := true }) |>.setFld Reg.USB_STATUS 1 0 2 |>.setFld Reg.USB_STATUS 1 0 3 |>.setBit Reg.USB_MF_CFG 1 true |> onAll (fun x => { x with faultN := [.roleVacant] })
     |> onUsb (fun x => { x with suspended := true, decided := true }),
     by decide +kernel⟩,
   ⟨colsUp |>.setReg Reg.PWR_WAKE_EN 0 |> inRun |> onPwr (fun x => { x with usbOn := true })
     |> onUsb (fun x => { x with mfOn := true }) |>.setFld Reg.USB_STATUS 1 0 2 |>.setFld Reg.USB_STATUS 1 0 3
     |> onUsb (fun x => { x with suspended := true, decided := true, signalled := true }),
     by decide +kernel⟩,
   ⟨colsUp |>.setReg Reg.PWR_WAKE_EN 0 |> inRun |> onPwr (fun x => { x with usbOn := true })
     |> onUsb (fun x => { x with mfOn := true }) |>.setFld Reg.USB_STATUS 1 0 2
     |> onUsb (fun x => { x with suspended := true, decided := true }),
     by decide +kernel⟩,
   ⟨colsUp |>.setReg Reg.PWR_WAKE_EN 0 |> inRun |> onPwr (fun x => { x with usbOn := true })
     |> onUsb (fun x => { x with mfOn := true }) |>.setFld Reg.USB_STATUS 1 0 2 |> onUsb (fun x => { x with mfLink := 1 }),
     by decide +kernel⟩,
   ⟨colsUp |>.setReg Reg.PWR_WAKE_EN 0 |> inRun |> onPwr (fun x => { x with usbOn := true })
     |> onUsb (fun x => { x with mfOn := true }) |>.setFld Reg.USB_STATUS 1 0 2 |>.setFld Reg.USB_STATUS 1 0 3
     |> onUsb (fun x => { x with cfg := 4 }),
     by decide +kernel⟩,
   ⟨colsUp |>.setReg Reg.PWR_WAKE_EN 0 |> inRun |> onPwr (fun x => { x with usbOn := true })
     |> onUsb (fun x => { x with mfOn := true }) |>.setFld Reg.USB_STATUS 1 0 2,
     by decide +kernel⟩,
   ⟨colsUp |>.setReg Reg.PWR_WAKE_EN 0 |> inRun |> onPwr (fun x => { x with usbOn := true })
     |> onUsb (fun x => { x with mfOn := true }) |>.setFld Reg.USB_STATUS 1 0 2 |>.setFld Reg.USB_STATUS 1 0 3
     |> onUsb (fun x => { x with cfg := 0 }),
     by decide +kernel,
     by decide +kernel,
     by decide +kernel,
     by decide +kernel,
     by decide +kernel,
     true,
     by decide +kernel⟩,
   ⟨colsUp |>.setReg Reg.PWR_WAKE_EN 0 |> inRun |> onPwr (fun x => { x with usbOn := true })
     |> onUsb (fun x => { x with mfOn := true }) |>.setFld Reg.USB_STATUS 1 0 2 |> onUsb (fun x => { x with conn := 0 }),
     by decide +kernel,
     by decide +kernel,
     by decide +kernel,
     2,
     true,
     by decide +kernel⟩,
   ⟨colsUp |>.setReg Reg.PWR_WAKE_EN 0 |> inRun |> onPwr (fun x => { x with usbOn := true })
     |> onUsb (fun x => { x with mfOn := true }) |>.setFld Reg.USB_STATUS 1 0 2 |>.setFld Reg.USB_STATUS 1 0 3
     |> onUsb (fun x => { x with cfg := 4 }),
     by decide +kernel,
     by decide +kernel,
     by decide +kernel,
     by decide +kernel,
     by decide +kernel,
     true,
     by decide +kernel⟩,
   ⟨colsUp |>.setReg Reg.PWR_WAKE_EN 0 |> inRun |> onPwr (fun x => { x with usbOn := true })
     |> onUsb (fun x => { x with mfOn := true }) |>.setFld Reg.USB_STATUS 1 0 2 |> onUsb (fun x => { x with conn := 4 }),
     by decide +kernel,
     by decide +kernel,
     by decide +kernel,
     2,
     true,
     by decide +kernel⟩⟩

/-- The hypotheses of Obligations.PdMessages can be met. -/
theorem witness_PdMessages :
    (∃ (s : State) (port : PdPort), s.pdOn port = true ∧ s.policyAway = false ∧ ∃ (pdos : List FixedPdo), port = 0 ∧
      s.pd[port].source = false ∧ ∃ (i : Nat) (o : FixedPdo), pdos.findIdx? (fun x => x.volt == 100) = some i ∧
      pdos.find? (fun x => x.volt == 100) = some o ∧ i = 1 ∧ o = { cur := 300, volt := 100 }) ∧
    (∃ (s : State) (port : PdPort), s.pdOn port = true ∧ s.policyAway = false ∧ ∃ (pdos : List FixedPdo), port = 0 ∧
      s.pd[port].source = false ∧ ∃ (i : Nat) (o : FixedPdo), pdos.findIdx? (fun x => x.volt == 100) = some i ∧
      pdos.find? (fun x => x.volt == 100) = some o ∧ pdos = [{ cur := 10, volt := 100 }] ∧ i = 0 ∧
      o = { cur := 10, volt := 100 }) ∧
    (∃ (s : State) (port : PdPort), s.pdOn port = true ∧ s.policyAway = false ∧ ∃ (pdos : List FixedPdo), (port ≠ 0 ∨
      s.pd[port].source = true ∨ pdos.find? (fun x => x.volt == 100) = none) ∧ port = 1) ∧
    (∃ (s : State) (port : PdPort), s.pdOn port = true ∧ s.policyAway = false ∧ ∃ (pdos : List FixedPdo), (port ≠ 0 ∨
      s.pd[port].source = true ∨ pdos.find? (fun x => x.volt == 100) = none) ∧ port = 0 ∧ s.pd[port].source = true) ∧
    (∃ (s : State) (port : PdPort), s.pdOn port = true ∧ s.policyAway = false ∧ ∃ (pdos : List FixedPdo), (port ≠ 0 ∨
      s.pd[port].source = true ∨ pdos.find? (fun x => x.volt == 100) = none) ∧ port = 0 ∧ s.pd[port].source = false) ∧
    (∃ (s : State) (port : PdPort), s.pdOn port = true ∧ s.policyAway = false ∧
      ∃ (head : RequestHead) (cur : BitVec 10), port ≠ 0 ∧ s.hwPolicy = true ∧ head.pos = 1 ∧ cur = 0) ∧
    (∃ (s : State) (port : PdPort), s.pdOn port = true ∧ s.policyAway = false ∧
      ∃ (head : RequestHead) (cur : BitVec 10), (port = 0 ∨ s.hwPolicy = false) ∧
      let found := pdoAt (if port = 0 then (if s.pd[port].source then upOffer else []) else s.pd[port].lastCaps) head.pos
      ∃ (o : FixedPdo), found = some o ∧ cur ≤ o.cur ∧ (port = 0 ∨ s.pd[port].vbusEn = true) ∧ port = 1 ∧ cur = 1) ∧
    (∃ (s : State) (port : PdPort), s.pdOn port = true ∧ s.policyAway = false ∧
      ∃ (head : RequestHead) (cur : BitVec 10), (port = 0 ∨ s.hwPolicy = false) ∧
      let found := pdoAt (if port = 0 then (if s.pd[port].source then upOffer else []) else s.pd[port].lastCaps) head.pos
      ∃ (o : FixedPdo), found = some o ∧ cur ≤ o.cur ∧ (port = 0 ∨ s.pd[port].vbusEn = true) ∧ port = 0 ∧ cur = 150 ∧
      o = { cur := 150, volt := 100 }) ∧
    (∃ (s : State) (port : PdPort), s.pdOn port = true ∧ s.policyAway = false ∧
      ∃ (head : RequestHead) (cur : BitVec 10), (port = 0 ∨ s.hwPolicy = false) ∧
      let found := pdoAt (if port = 0 then (if s.pd[port].source then upOffer else []) else s.pd[port].lastCaps) head.pos
      (found = none ∨ (∃ o, found = some o ∧ o.cur < cur) ∨ (port ≠ 0 ∧ s.pd[port].vbusEn = false)) ∧
      port = 1 ∧ head.pos = 0 ∧ cur = 0) ∧
    (∃ (s : State) (port : PdPort), s.pdOn port = true ∧ s.policyAway = false ∧
      ∃ (head : RequestHead) (cur : BitVec 10), (port = 0 ∨ s.hwPolicy = false) ∧
      let found := pdoAt (if port = 0 then (if s.pd[port].source then upOffer else []) else s.pd[port].lastCaps) head.pos
      (found = none ∨ (∃ o, found = some o ∧ o.cur < cur) ∨ (port ≠ 0 ∧ s.pd[port].vbusEn = false)) ∧
      port = 1 ∧ head.pos = 1 ∧ cur = 1023) ∧
    (∃ (s : State) (port : PdPort), s.pdOn port = true ∧ s.policyAway = false ∧
      ∃ (head : RequestHead) (cur : BitVec 10), (port = 0 ∨ s.hwPolicy = false) ∧
      let found := pdoAt (if port = 0 then (if s.pd[port].source then upOffer else []) else s.pd[port].lastCaps) head.pos
      (found = none ∨ (∃ o, found = some o ∧ o.cur < cur) ∨ (port ≠ 0 ∧ s.pd[port].vbusEn = false)) ∧
      port = 1 ∧ head.pos = 1 ∧ cur = 0 ∧ found.isSome = true) ∧
    (∃ (s : State) (port : PdPort), s.pdOn port = true ∧ s.policyAway = false ∧
      ∃ (head : RequestHead) (cur : BitVec 10), (port = 0 ∨ s.hwPolicy = false) ∧
      let found := pdoAt (if port = 0 then (if s.pd[port].source then upOffer else []) else s.pd[port].lastCaps) head.pos
      (found = none ∨ (∃ o, found = some o ∧ o.cur < cur) ∨ (port ≠ 0 ∧ s.pd[port].vbusEn = false)) ∧
      port = 0 ∧ head.pos = 7 ∧ cur = 0) ∧
    (∃ (s : State) (port : PdPort), s.pdOn port = true ∧ s.policyAway = false ∧ port ≠ 0 ∧ s.hwPolicy = false ∧ port = 2) ∧
    (∃ (s : State) (port : PdPort), s.pdOn port = true ∧ s.policyAway = false ∧ port ≠ 0 ∧ port = 1) ∧
    (∃ (s : State) (port : PdPort), s.pdOn port = true ∧ s.policyAway = false ∧ port = 0 ∧ (s.prsAccept = true ∨ s.pd[port].source = true)) ∧
    (∃ (s : State) (port : PdPort), s.pdOn port = true ∧ s.policyAway = false ∧ port = 0 ∧ s.prsAccept = false ∧ s.pd[port].source = false) ∧
    (∃ (s : State) (port : PdPort), s.pdOn port = true ∧ s.policyAway = false ∧ port = 0) ∧
    (∃ (s : State) (port : PdPort), s.pdOn port = true ∧ s.policyAway = false ∧ port = 0 ∧
      s.hwPolicy = false ∧ s.pd[port].source = false ∧ (s.mode = .start ∨ s.mode = .run) ∧ s.prsAccept = true) ∧
    (∃ (s : State) (port : PdPort), s.pdOn port = true ∧ s.policyAway = false ∧ port = 0 ∧
      s.hwPolicy = false ∧ s.pd[port].source = true) ∧
    (∃ (s : State) (port : PdPort), s.pdOn port = true ∧ s.policyAway = false ∧ port = 0 ∧
      (s.hwPolicy = true ∨ (s.pd[port].source = false ∧ (s.prsAccept = false ∨ (s.mode ≠ .start ∧ s.mode ≠ .run)))) ∧
      s.hwPolicy = false) ∧
    (∃ (s : State) (port : PdPort), s.pdOn port = true ∧ s.policyAway = false ∧ port = 0 ∧
      (s.hwPolicy = true ∨ (s.pd[port].source = false ∧ (s.prsAccept = false ∨ (s.mode ≠ .start ∧ s.mode ≠ .run)))) ∧
      s.hwPolicy = true) ∧
    (∃ (s : State) (port : PdPort), s.pdOn port = true ∧ s.policyAway = false ∧ port = 0) ∧
    (∃ (s : State) (port : PdPort), s.pdOn port = true ∧ s.policyAway = false ∧ port = 1) ∧
    (∃ (s : State) (port : PdPort), s.pdOn port = true ∧ s.policyAway = false ∧ port = 2) ∧
    (∃ (s : State) (port : PdPort), s.pdOn port = true ∧ s.policyAway = true ∧
      ∃ (head : RequestHead) (cur : BitVec 10) (c : Instr), (c = .pdRequest port head cur ∨ c = .prSwap port ∨
      c = .drSwap port ∨ c = .unsupportedPdMessage { port := port, vconnSwap := true }) ∧ port = 0 ∧ c = .prSwap 0) ∧
    (∃ (s : State) (port : PdPort), s.pdOn port = true ∧ s.policyAway = true ∧
      ∃ (head : RequestHead) (cur : BitVec 10) (c : Instr), (c = .pdRequest port head cur ∨ c = .prSwap port ∨
      c = .drSwap port ∨ c = .unsupportedPdMessage { port := port, vconnSwap := true }) ∧ port = 1 ∧ c = .drSwap 1) ∧
    (∃ (s : State) (port : PdPort), s.pdOn port = true ∧ s.policyAway = true ∧
      ∃ (head : RequestHead) (cur : BitVec 10) (c : Instr), (c = .pdRequest port head cur ∨ c = .prSwap port ∨
      c = .drSwap port ∨ c = .unsupportedPdMessage { port := port, vconnSwap := true }) ∧ port = 1 ∧
      c = .pdRequest 1 head 0) ∧
    (∃ (s : State) (port : PdPort), s.pdOn port = true ∧ s.policyAway = true ∧
      ∃ (head : RequestHead) (cur : BitVec 10) (c : Instr), (c = .pdRequest port head cur ∨ c = .prSwap port ∨
      c = .drSwap port ∨ c = .unsupportedPdMessage { port := port, vconnSwap := true }) ∧ port = 2 ∧
      c = .unsupportedPdMessage { port := 2, vconnSwap := true }) ∧
    (∃ (s : State) (port : PdPort), s.pdOn port = true ∧ port = 0 ∧ s.pd[port].swap = true) ∧
    (∃ (s : State) (port : PdPort), s.pdOn port = true ∧ port = 0 ∧ s.pd[port].swap = false ∧
      ∃ c, s.pd[port].asked = some c ∧ (s.mode ≠ .service ∨ s.upSpeed ≠ 0)) ∧
    (∃ (s : State) (port : PdPort), s.pdOn port = true ∧ port = 0 ∧ s.pd[port].swap = false ∧
      ∃ c, s.pd[port].asked = some c ∧ s.mode = .service ∧ s.upSpeed = 0) ∧
    (∃ (s : State) (port : PdPort), s.pdOn port = true ∧ port = 0) ∧
    (∃ (s : State) (port : PdPort), s.pdOn port = true ∧ port = 1) ∧
    (∃ (s : State) (port : PdPort), s.pdOn port = true ∧ port = 2) ∧
    (∃ (s : State) (port : PdPort), s.pdOn port = true ∧ s.pd[port].partner = true ∧ s.pd[port].swap = false ∧ s.pd[port].transition = none) ∧
    (∃ (s : State) (port : PdPort), s.pdOn port = true ∧ s.pd[port].partner = true ∧
      (s.pd[port].swap = true ∨ s.pd[port].transition.isSome = true)) :=
  ⟨⟨colsUp |> inRun |> onPwr (fun x => { x with usbOn := true }) |>.setBit (Reg.PD_PORT_CFG 0) 0 true
     |>.modPd 0 (fun x => { x with tc := .attached }),
     0,
     by decide +kernel,
     by decide +kernel,
     [{ cur := 150, volt := 90 }, { cur := 300, volt := 100 }],
     by decide +kernel,
     by decide +kernel,
     1,
     { cur := 300, volt := 100 },
     by decide +kernel⟩,
   ⟨colsUp |> inRun |> onPwr (fun x => { x with usbOn := true }) |>.setBit (Reg.PD_PORT_CFG 0) 0 true
     |>.modPd 0 (fun x => { x with tc := .attached }),
     0,
     by decide +kernel,
     by decide +kernel,
     [{ cur := 10, volt := 100 }],
     by decide +kernel,
     by decide +kernel,
     0,
     { cur := 10, volt := 100 },
     by decide +kernel⟩,
   ⟨colsUp |> inRun |> onPwr (fun x => { x with usbOn := true }) |>.setBit (Reg.PD_PORT_CFG 1) 0 true
     |>.modPd 1 (fun x => { x with tc := .attached }),
     1,
     by decide +kernel,
     by decide +kernel,
     [],
     by decide +kernel⟩,
   ⟨colsUp |> inRun |> onPwr (fun x => { x with usbOn := true }) |>.setBit (Reg.PD_PORT_CFG 0) 0 true
     |>.modPd 0 (fun x => { x with tc := .attached, source := true }),
     0,
     by decide +kernel,
     by decide +kernel,
     [{ cur := 300, volt := 100 }],
     by decide +kernel⟩,
   ⟨colsUp |> inRun |> onPwr (fun x => { x with usbOn := true }) |>.setBit (Reg.PD_PORT_CFG 0) 0 true
     |>.modPd 0 (fun x => { x with tc := .attached }),
     0,
     by decide +kernel,
     by decide +kernel,
     [{ cur := 150, volt := 90 }],
     by decide +kernel⟩,
   ⟨colsUp |> inRun |> onPwr (fun x => { x with usbOn := true }) |>.setBit (Reg.PD_PORT_CFG 1) 0 true
     |>.modPd 1 (fun x => { x with tc := .attached })
     |>.modColumn 2 (fun x => { x with loaded := true, state := .failed }),
     1,
     by decide +kernel,
     by decide +kernel,
     { pos := 1, pd3 := true },
     0,
     by decide +kernel⟩,
   ⟨stPdMessages20,
     1,
     by decide +kernel,
     by decide +kernel,
     { pos := 1, pd3 := true },
     1,
     by decide +kernel,
     ((stPdMessages20.pd[(1 : PdPort)].lastCaps).headD { cur := 0, volt := 0 }),
     by decide +kernel⟩,
   ⟨colsUp |> inRun |> onPwr (fun x => { x with usbOn := true }) |>.setBit (Reg.PD_PORT_CFG 0) 0 true
     |>.modPd 0 (fun x => { x with tc := .attached, source := true }),
     0,
     by decide +kernel,
     by decide +kernel,
     { pos := 1, pd3 := false },
     150,
     by decide +kernel,
     { cur := 150, volt := 100 },
     by decide +kernel⟩,
   ⟨colsUp |> inRun |> onPwr (fun x => { x with usbOn := true }) |>.setBit (Reg.PD_PORT_CFG 1) 0 true
     |>.modPd 1 (fun x => { x with tc := .attached, vbusEn := true }),
     1,
     by decide +kernel,
     by decide +kernel,
     { pos := 0, pd3 := true },
     0,
     by decide +kernel,
     Or.inl (by decide +kernel),
     by decide +kernel⟩,
   ⟨stPdMessages20,
     1,
     by decide +kernel,
     by decide +kernel,
     { pos := 1, pd3 := true },
     1023,
     by decide +kernel,
     Or.inr (Or.inl ⟨{ cur := 150, volt := 100 }, by decide +kernel⟩),
     by decide +kernel⟩,
   ⟨colsUp |> inRun |> onPwr (fun x => { x with usbOn := true }) |>.setBit (Reg.PD_PORT_CFG 1) 0 true
     |>.modPd 1 (fun x => { x with tc := .attached, lastCaps := [{ cur := 150, volt := 100 }] }),
     1,
     by decide +kernel,
     by decide +kernel,
     { pos := 1, pd3 := true },
     0,
     by decide +kernel,
     Or.inr (Or.inr (by decide +kernel)),
     by decide +kernel⟩,
   ⟨colsUp |> inRun |> onPwr (fun x => { x with usbOn := true }) |>.setBit (Reg.PD_PORT_CFG 0) 0 true
     |>.modPd 0 (fun x => { x with tc := .attached }),
     0,
     by decide +kernel,
     by decide +kernel,
     { pos := 7, pd3 := true },
     0,
     by decide +kernel,
     Or.inl (by decide +kernel),
     by decide +kernel⟩,
   ⟨colsUp |> inRun |> onPwr (fun x => { x with usbOn := true }) |>.setBit (Reg.PD_PORT_CFG 2) 0 true
     |>.modPd 2 (fun x => { x with tc := .attached }),
     2,
     by decide +kernel⟩,
   ⟨colsUp |> inRun |> onPwr (fun x => { x with usbOn := true }) |>.setBit (Reg.PD_PORT_CFG 1) 0 true
     |>.modPd 1 (fun x => { x with tc := .attached }),
     1,
     by decide +kernel⟩,
   ⟨colsUp |> inRun |> onPwr (fun x => { x with usbOn := true }) |>.setBit (Reg.PD_PORT_CFG 0) 0 true
     |>.modPd 0 (fun x => { x with tc := .attached, source := true }),
     0,
     by decide +kernel⟩,
   ⟨colsUp |> inRun |> onPwr (fun x => { x with usbOn := true }) |>.setBit (Reg.PD_PORT_CFG 0) 0 true
     |>.modPd 0 (fun x => { x with tc := .attached }) |>.setBit Reg.PD_CFG 0 false,
     0,
     by decide +kernel⟩,
   ⟨colsUp |> inRun |> onPwr (fun x => { x with usbOn := true }) |>.setBit (Reg.PD_PORT_CFG 0) 0 true
     |>.modPd 0 (fun x => { x with tc := .attached }),
     0,
     by decide +kernel⟩,
   ⟨colsUp |> inRun |> onPwr (fun x => { x with usbOn := true }) |>.setBit (Reg.PD_PORT_CFG 0) 0 true
     |>.modPd 0 (fun x => { x with tc := .attached }) |>.setBit Reg.PD_CFG 0 true,
     0,
     by decide +kernel⟩,
   ⟨colsUp |> inRun |> onPwr (fun x => { x with usbOn := true }) |>.setBit (Reg.PD_PORT_CFG 0) 0 true
     |>.modPd 0 (fun x => { x with tc := .attached, source := true, vbusEn := true }),
     0,
     by decide +kernel⟩,
   ⟨colsUp |> inRun |> onPwr (fun x => { x with usbOn := true }) |>.setBit (Reg.PD_PORT_CFG 0) 0 true
     |>.modPd 0 (fun x => { x with tc := .attached }) |>.setBit Reg.PD_CFG 0 false,
     0,
     by decide +kernel⟩,
   ⟨colsUp |> inRun |> onPwr (fun x => { x with usbOn := true }) |>.setBit (Reg.PD_PORT_CFG 0) 0 true
     |>.modPd 0 (fun x => { x with tc := .attached })
     |>.modColumn 2 (fun x => { x with loaded := true, state := .failed }),
     0,
     by decide +kernel⟩,
   ⟨colsUp |> inRun |> onPwr (fun x => { x with usbOn := true }) |>.setBit (Reg.PD_PORT_CFG 0) 0 true
     |>.modPd 0 (fun x => { x with tc := .attached }),
     0,
     by decide +kernel⟩,
   ⟨colsUp |> inRun |> onPwr (fun x => { x with usbOn := true }) |>.setBit (Reg.PD_PORT_CFG 1) 0 true
     |>.modPd 1 (fun x => { x with tc := .attached }),
     1,
     by decide +kernel⟩,
   ⟨colsUp |> inRun |> onPwr (fun x => { x with usbOn := true }) |>.setBit (Reg.PD_PORT_CFG 2) 0 true
     |>.modPd 2 (fun x => { x with tc := .attached }),
     2,
     by decide +kernel⟩,
   ⟨colsUp |> inRun |> onPwr (fun x => { x with usbOn := true }) |>.setBit (Reg.PD_PORT_CFG 0) 0 true
     |>.modPd 0 (fun x => { x with tc := .attached })
     |>.modColumn 2 (fun x => { x with loaded := true, state := .restoring }),
     0,
     by decide +kernel,
     by decide +kernel,
     { pos := 0, pd3 := true },
     0,
     .prSwap 0,
     Or.inr (Or.inl rfl),
     by decide +kernel⟩,
   ⟨colsUp |> inRun |> onPwr (fun x => { x with usbOn := true }) |>.setBit (Reg.PD_PORT_CFG 1) 0 true
     |>.modPd 1 (fun x => { x with tc := .attached })
     |>.modColumn 2 (fun x => { x with loaded := true, state := .restoring }),
     1,
     by decide +kernel,
     by decide +kernel,
     { pos := 0, pd3 := true },
     0,
     .drSwap 1,
     Or.inr (Or.inr (Or.inl rfl)),
     by decide +kernel⟩,
   ⟨colsUp |> inRun |> onPwr (fun x => { x with usbOn := true }) |>.setBit (Reg.PD_PORT_CFG 1) 0 true
     |>.modPd 1 (fun x => { x with tc := .attached })
     |>.modColumn 2 (fun x => { x with loaded := true, state := .restoring }),
     1,
     by decide +kernel,
     by decide +kernel,
     { pos := 0, pd3 := true },
     0,
     .pdRequest 1 { pos := 0, pd3 := true } 0,
     Or.inl rfl,
     by decide +kernel⟩,
   ⟨colsUp |> inRun |> onPwr (fun x => { x with usbOn := true }) |>.setBit (Reg.PD_PORT_CFG 2) 0 true
     |>.modPd 2 (fun x => { x with tc := .attached })
     |>.modColumn 2 (fun x => { x with loaded := true, state := .restoring }),
     2,
     by decide +kernel,
     by decide +kernel,
     { pos := 0, pd3 := true },
     0,
     .unsupportedPdMessage { port := 2, vconnSwap := true },
     Or.inr (Or.inr (Or.inr rfl)),
     by decide +kernel⟩,
   ⟨colsUp |> inRun |> onPwr (fun x => { x with usbOn := true }) |>.setBit (Reg.PD_PORT_CFG 0) 0 true
     |>.modPd 0 (fun x => { x with tc := .attached, swap := true }),
     0,
     by decide +kernel⟩,
   ⟨colsUp |> inRun |> onPwr (fun x => { x with usbOn := true }) |>.setBit (Reg.PD_PORT_CFG 0) 0 true
     |>.modPd 0 (fun x => { x with tc := .attached, asked := some { pos := 1, cur := 150, volt := 100, mismatch := false } }),
     0,
     by decide +kernel,
     by decide +kernel,
     by decide +kernel,
     { pos := 1, cur := 150, volt := 100, mismatch := false },
     by decide +kernel⟩,
   ⟨colsUp |> inService |> onPwr (fun x => { x with usbOn := true }) |>.setBit (Reg.PD_PORT_CFG 0) 0 true
     |>.modPd 0 (fun x => { x with tc := .attached, asked := some { pos := 1, cur := 150, volt := 100, mismatch := false } }),
     0,
     by decide +kernel,
     by decide +kernel,
     by decide +kernel,
     { pos := 1, cur := 150, volt := 100, mismatch := false },
     by decide +kernel⟩,
   ⟨colsUp |> inRun |> onPwr (fun x => { x with usbOn := true }) |>.setBit (Reg.PD_PORT_CFG 0) 0 true
     |>.modPd 0 (fun x => { x with tc := .attached }),
     0,
     by decide +kernel⟩,
   ⟨colsUp |> inRun |> onPwr (fun x => { x with usbOn := true }) |>.setBit (Reg.PD_PORT_CFG 1) 0 true
     |>.modPd 1 (fun x => { x with tc := .attached }),
     1,
     by decide +kernel⟩,
   ⟨colsUp |> inRun |> onPwr (fun x => { x with usbOn := true }) |>.setBit (Reg.PD_PORT_CFG 2) 0 true
     |>.modPd 2 (fun x => { x with tc := .attached }),
     2,
     by decide +kernel⟩,
   ⟨colsUp |> inRun |> onPwr (fun x => { x with usbOn := true }) |>.setBit (Reg.PD_PORT_CFG 1) 0 true
     |>.modPd 1 (fun x => { x with tc := .attached, partner := true }),
     1,
     by decide +kernel⟩,
   ⟨colsUp |> inRun |> onPwr (fun x => { x with usbOn := true }) |>.setBit (Reg.PD_PORT_CFG 1) 0 true
     |>.modPd 1 (fun x => { x with tc := .attached, partner := true, transition := some 9000 }),
     1,
     by decide +kernel⟩⟩

end Sys2Proof.Tests
end

section
/-! The beat head raises BEAT_NUM by one (R22, R26): which operations leave the two words of BEAT_NUM as they are, and from that
what the eight steps of the head do to it. -/

namespace Sys2Proof.Machine

open Sys2Proof

/-! ## The words of BEAT_NUM among the registers -/

/-- The two words of BEAT_NUM, as the registers hold them. -/
def numWords (l : List (Nat × Word)) : Word × Word :=
  (Store.get resetWord l Reg.BEAT_NUM, Store.get resetWord l Reg.BEAT_NUM_HI)

/-- A key names a word of BEAT_NUM. -/
def isNum (k : Nat) : Bool := k == 0x010000 || k == 0x010004

theorem isNum_of_above {k : Nat} (h : 0x010008 ≤ k) : isNum k = false := by
  simp only [isNum, Bool.or_eq_false_iff, beq_eq_false_iff_ne]
  omega

@[simp] theorem numWords_set {k : Nat} (h : isNum k = false) (w : Word) (l : List (Nat × Word)) :
    numWords (Store.set resetWord k w l) = numWords l := by
  simp only [isNum, Bool.or_eq_false_iff, beq_eq_false_iff_ne] at h
  simp only [numWords, Store.get_set_other (Ne.symm h.1), Store.get_set_other (Ne.symm h.2)]

/-! The registers of several copies lie above BEAT_NUM, and so does every copy of a per-master register. -/

@[simp] theorem isNum_pmKey (m : Master) (a : Nat) : isNum (pmKey m a) = false := isNum_of_above (by unfold pmKey; omega)
@[simp] theorem isNum_BOOT_ADM_DIGEST (i : Nat) : isNum (Reg.BOOT_ADM_DIGEST i) = false :=
  isNum_of_above (by unfold Reg.BOOT_ADM_DIGEST; omega)
@[simp] theorem isNum_CAV_Q_DOWN_CNT (i : Nat) : isNum (Reg.CAV_Q_DOWN_CNT i) = false :=
  isNum_of_above (by unfold Reg.CAV_Q_DOWN_CNT; omega)
@[simp] theorem isNum_CAV_Q_DROP_CNT (i : Nat) : isNum (Reg.CAV_Q_DROP_CNT i) = false :=
  isNum_of_above (by unfold Reg.CAV_Q_DROP_CNT; omega)
@[simp] theorem isNum_CAV_Q_MARK_CNT_LO (i : Nat) : isNum (Reg.CAV_Q_MARK_CNT_LO i) = false :=
  isNum_of_above (by unfold Reg.CAV_Q_MARK_CNT_LO; omega)
@[simp] theorem isNum_CAV_Q_MARK_CNT_LO_add (i : Nat) : isNum (Reg.CAV_Q_MARK_CNT_LO i + 4) = false :=
  isNum_of_above (by unfold Reg.CAV_Q_MARK_CNT_LO; omega)
@[simp] theorem isNum_CAV_Q_SPILL_CNT_LO (i : Nat) : isNum (Reg.CAV_Q_SPILL_CNT_LO i) = false :=
  isNum_of_above (by unfold Reg.CAV_Q_SPILL_CNT_LO; omega)
@[simp] theorem isNum_CAV_Q_SPILL_CNT_LO_add (i : Nat) : isNum (Reg.CAV_Q_SPILL_CNT_LO i + 4) = false :=
  isNum_of_above (by unfold Reg.CAV_Q_SPILL_CNT_LO; omega)
@[simp] theorem isNum_COL_OVERRUNS (i : Nat) : isNum (Reg.COL_OVERRUNS i) = false :=
  isNum_of_above (by unfold Reg.COL_OVERRUNS; omega)
@[simp] theorem isNum_COL_RESTARTS (i : Nat) : isNum (Reg.COL_RESTARTS i) = false :=
  isNum_of_above (by unfold Reg.COL_RESTARTS; omega)
@[simp] theorem isNum_ENG_OVERRUNS (i : Nat) : isNum (Reg.ENG_OVERRUNS i) = false :=
  isNum_of_above (by unfold Reg.ENG_OVERRUNS; omega)
@[simp] theorem isNum_LANE_CFG_ACT (i : Nat) : isNum (Reg.LANE_CFG_ACT i) = false :=
  isNum_of_above (by unfold Reg.LANE_CFG_ACT; omega)
@[simp] theorem isNum_LANE_EQ (i : Nat) : isNum (Reg.LANE_EQ i) = false :=
  isNum_of_above (by unfold Reg.LANE_EQ; omega)
@[simp] theorem isNum_LANE_EYE (i : Nat) : isNum (Reg.LANE_EYE i) = false :=
  isNum_of_above (by unfold Reg.LANE_EYE; omega)
@[simp] theorem isNum_LOC_FRAMING_ERR (i : Nat) : isNum (Reg.LOC_FRAMING_ERR i) = false :=
  isNum_of_above (by unfold Reg.LOC_FRAMING_ERR; omega)
@[simp] theorem isNum_PWR_REFUSE_COUNT (i : Nat) : isNum (Reg.PWR_REFUSE_COUNT i) = false :=
  isNum_of_above (by unfold Reg.PWR_REFUSE_COUNT; omega)
@[simp] theorem isNum_SCHED_GL_ANCHOR_LO (i : Nat) : isNum (Reg.SCHED_GL_ANCHOR_LO i) = false :=
  isNum_of_above (by unfold Reg.SCHED_GL_ANCHOR_LO; omega)
@[simp] theorem isNum_SCHED_GL_ANCHOR_LO_add (i : Nat) : isNum (Reg.SCHED_GL_ANCHOR_LO i + 4) = false :=
  isNum_of_above (by unfold Reg.SCHED_GL_ANCHOR_LO; omega)
@[simp] theorem isNum_TRK_DEGRADE_DISC (i : Nat) : isNum (Reg.TRK_DEGRADE_DISC i) = false :=
  isNum_of_above (by unfold Reg.TRK_DEGRADE_DISC; omega)
@[simp] theorem isNum_TRK_DEGRADE_COUNT (i : Nat) : isNum (Reg.TRK_DEGRADE_COUNT i) = false :=
  isNum_of_above (by unfold Reg.TRK_DEGRADE_COUNT; omega)
@[simp] theorem isNum_TRK_DOWN_COUNT (i : Nat) : isNum (Reg.TRK_DOWN_COUNT i) = false :=
  isNum_of_above (by unfold Reg.TRK_DOWN_COUNT; omega)
@[simp] theorem isNum_TRK_FRAMING_ERR (i : Nat) : isNum (Reg.TRK_FRAMING_ERR i) = false :=
  isNum_of_above (by unfold Reg.TRK_FRAMING_ERR; omega)
@[simp] theorem isNum_SCHED_CTOK (i j : Nat) : isNum (Reg.SCHED_CTOK i j) = false :=
  isNum_of_above (by unfold Reg.SCHED_CTOK; omega)
@[simp] theorem isNum_SCHED_PTOK (i j : Nat) : isNum (Reg.SCHED_PTOK i j) = false :=
  isNum_of_above (by unfold Reg.SCHED_PTOK; omega)
@[simp] theorem isNum_SCHED_DEFICIT (i j : Nat) : isNum (Reg.SCHED_DEFICIT i j) = false :=
  isNum_of_above (by unfold Reg.SCHED_DEFICIT; omega)

/-! ## The named updates -/

@[simp] theorem State.ite_num (c : Prop) [Decidable c] (a b : State) :
    numWords (if c then a else b).regs = if c then numWords a.regs else numWords b.regs := by
  split <;> rfl


@[simp] theorem State.setRegN_num {k : Nat} (h : isNum k = false) (s : State) (v : Nat) :
    numWords (s.setRegN k v).regs = numWords s.regs := numWords_set h _ _

@[simp] theorem State.setFld_num {k : Nat} (h : isNum k = false) (s : State) (hi lo v : Nat) :
    numWords (s.setFld k hi lo v).regs = numWords s.regs := numWords_set h _ _

@[simp] theorem State.setBit_num {k : Nat} (h : isNum k = false) (s : State) (i : Nat) (b : Bool) :
    numWords (s.setBit k i b).regs = numWords s.regs := numWords_set h _ _

@[simp] theorem State.countN_num {k : Nat} (h : isNum k = false) (s : State) (n : Nat) :
    numWords (s.countN k n).regs = numWords s.regs := numWords_set h _ _

@[simp] theorem State.count_num {k : Nat} (h : isNum k = false) (s : State) :
    numWords (s.count k).regs = numWords s.regs := numWords_set h _ _

@[simp] theorem State.setReg48_num {lo : Nat} (h : isNum lo = false) (h4 : isNum (lo + 4) = false) (s : State) (v : Nat) :
    numWords (s.setReg48 lo v).regs = numWords s.regs := by
  rw [State.setReg48, State.setRegN_num h4, State.setRegN_num h]

@[simp] theorem State.count48_num {lo : Nat} (h : isNum lo = false) (h4 : isNum (lo + 4) = false) (s : State) (n : Nat) :
    numWords (s.count48 lo n).regs = numWords s.regs := State.setReg48_num h h4 _ _

theorem State.over_num_of_mem {α : Type} {f : State → α → State} {l : List α}
    (h : ∀ a ∈ l, ∀ t, numWords (f t a).regs = numWords t.regs) (s : State) :
    numWords (s.over l f).regs = numWords s.regs := by
  induction l generalizing s with
  | nil => rfl
  | cons a l ih => exact (ih (fun b hb => h b (List.mem_cons_of_mem a hb)) (f s a)).trans (h a (by simp) s)

@[simp] theorem State.over_num {α : Type} {f : State → α → State} (h : ∀ t a, numWords (f t a).regs = numWords t.regs)
    (s : State) (l : List α) : numWords (s.over l f).regs = numWords s.regs :=
  State.over_num_of_mem (fun a _ t => h t a) s

@[simp] theorem State.refreshDrain_num (s : State) (n : LocalPort) (since : Nat) :
    numWords (State.refreshDrain s n since).regs = numWords s.regs := by
  unfold State.refreshDrain
  simp +decide [State.modQueue_keeps]

@[simp] theorem State.boundary_num (s : State) :
    numWords (State.boundary s).regs = numWords s.regs := by
  unfold State.boundary
  simp +decide [State.noteHealth_keeps, State.portBoundary_keeps, State.retime_keeps]

@[simp] theorem State.setMaster_num (s : State) (i : HubId) :
    numWords (State.setMaster s i).regs = numWords s.regs := by
  unfold State.setMaster
  simp +decide

@[simp] theorem State.newMaster_num (s : State) (i : HubId) :
    numWords (State.newMaster s i).regs = numWords s.regs := by
  unfold State.newMaster
  simp +decide

@[simp] theorem State.electMaster_num (s : State) :
    numWords (State.electMaster s).regs = numWords s.regs := by
  unfold State.electMaster
  simp +decide

@[simp] theorem State.adoptSlot_num (s : State) (k : BitVec 7) :
    numWords (State.adoptSlot s k).regs = numWords s.regs := by
  unfold State.adoptSlot
  simp +decide

@[simp] theorem State.assignWhileForming_num (s : State) :
    numWords (State.assignWhileForming s).regs = numWords s.regs := by
  unfold State.assignWhileForming
  dsimp only
  (repeat' split) <;> simp +decide [State.announce_keeps]

@[simp] theorem State.refreshView_num (s before : State) :
    numWords (State.refreshView s before).regs = numWords s.regs := by
  unfold State.refreshView
  simp +decide [State.announceMove_keeps, State.announceRaise_keeps, State.cutRings_keeps, State.noteLinks_keeps, State.sendEchoAll_keeps]

@[simp] theorem State.viewing_num {f : State → State} (h : ∀ t, numWords (f t).regs = numWords t.regs) (s : State) :
    numWords (s.viewing f).regs = numWords s.regs := by
  simp [State.viewing, h]

@[simp] theorem State.becomeMaster_num (s : State) :
    numWords (State.becomeMaster s).regs = numWords s.regs := by
  unfold State.becomeMaster
  simp +decide

@[simp] theorem State.settleStep_num (s : State) :
    numWords (State.settleStep s).regs = numWords s.regs := by
  unfold State.settleStep
  simp +decide [State.becomeFollower_keeps]

@[simp] theorem State.emptyDeficit_num (s : State) (q : QueueIx) :
    numWords (State.emptyDeficit s q).regs = numWords s.regs := by
  unfold State.emptyDeficit
  simp +decide

@[simp] theorem State.dropRef_num (s : State) (q : QueueIx) (id : Nat) :
    numWords (State.dropRef s q id).regs = numWords s.regs := by
  unfold State.dropRef
  simp +decide [State.modQueue_keeps, State.release_keeps]

@[simp] theorem State.sift_num (s : State) (c : Cls) (n : Nat) (ps : List EgressPort) :
    numWords (State.sift s c n ps).1.regs = numWords s.regs := by
  induction ps generalizing s with
  | nil => rfl
  | cons p ps ih =>
    unfold State.sift
    dsimp only
    (repeat' split) <;> simp [ih]

@[simp] theorem State.joinQueue_num (s : State) (q : QueueIx) (id n : Nat) (single : Bool) :
    numWords (State.joinQueue s q id n single).regs = numWords s.regs := by
  unfold State.joinQueue
  simp +decide [State.modQueue_keeps]

@[simp] theorem State.joinAll_num (s : State) (id : Nat) (c : Cls) (n : Nat) (single : Bool) (targets : List EgressPort) :
    numWords (State.joinAll s id c n single targets).1.regs = numWords s.regs := by
  unfold State.joinAll
  dsimp only
  (repeat' split) <;> simp [State.release_keeps, State.modStored_keeps]

@[simp] theorem State.retryOne_num (s : State) (w : Waiting) : numWords (State.retryOne s w).1.regs = numWords s.regs := by
  unfold State.retryOne
  dsimp only
  split
  · rfl
  · rename_i f _
    have hj := State.joinAll_num { s with cav := { s.cav with waiting := s.cav.waiting.filter fun x => x.id != w.id } }
      w.id w.tc f.frame.cells w.single w.targets
    split
    · rfl
    · rename_i e
      rw [e] at hj
      simpa [State.creditHeld_keeps, State.creditBack_keeps] using hj

@[simp] theorem State.retryWaiting_num (s : State) (ws : List Waiting) (blocked : List (LinkPort × Cls × Bool)) :
    numWords (State.retryWaiting s ws blocked).regs = numWords s.regs := by
  induction ws generalizing s blocked with
  | nil => rfl
  | cons w ws ih =>
    unfold State.retryWaiting
    have ho := State.retryOne_num s w
    split
    · exact ih s blocked
    · split <;> rename_i e <;> rw [e] at ho <;> rw [ih, ho]

@[simp] theorem State.settle_num (s : State) :
    numWords (State.settle s).regs = numWords s.regs := by
  unfold State.settle
  simp +decide

@[simp] theorem State.sumpLost_num (s : State) : numWords (State.sumpLost s).regs = numWords s.regs := by
  have drop (t : State) (q : QueueIx) (l : List QRef) :
      numWords (t.over l fun t r => (t.dropRef q r.id).count Reg.SUMP_UE_DISC).regs = numWords t.regs := by
    simp +decide
  simp +decide [State.sumpLost, drop]

@[simp] theorem State.untrain_num (s : State) :
    numWords (State.untrain s).regs = numWords s.regs := by
  unfold State.untrain
  simp +decide

@[simp] theorem State.startTraining_num (s : State) :
    numWords (State.startTraining s).regs = numWords s.regs := by
  unfold State.startTraining
  simp +decide

@[simp] theorem State.sumpOn_num (s : State) :
    numWords (State.sumpOn s).regs = numWords s.regs := by
  unfold State.sumpOn
  simp +decide

@[simp] theorem State.cavernOn_num (s : State) :
    numWords (State.cavernOn s).regs = numWords s.regs := by
  unfold State.cavernOn
  simp +decide

@[simp] theorem State.wakeMemories_num (s : State) :
    numWords (State.wakeMemories s).regs = numWords s.regs := by
  unfold State.wakeMemories
  simp +decide

@[simp] theorem State.setStage_num (s : State) (n : Nat) :
    numWords (State.setStage s n).regs = numWords s.regs := by
  unfold State.setStage
  simp +decide

@[simp] theorem State.usePreset_num (s : State) (l : LaneIx) (preset : Nat) :
    numWords (State.usePreset s l preset).regs = numWords s.regs := by
  unfold State.usePreset
  simp +decide

@[simp] theorem State.lanesOn_num (s : State) :
    numWords (State.lanesOn s).regs = numWords s.regs := by
  unfold State.lanesOn
  simp +decide

@[simp] theorem State.onPll_num (s : State) :
    numWords (State.onPll s).regs = numWords s.regs := by
  unfold State.onPll
  simp +decide

@[simp] theorem State.pllHead_num (s : State) :
    numWords (State.pllHead s).regs = numWords s.regs := by
  unfold State.pllHead
  simp +decide

@[simp] theorem State.setSession_num (s : State) (n : Nat) :
    numWords (State.setSession s n).regs = numWords s.regs := by
  unfold State.setSession
  simp +decide

@[simp] theorem State.closeSession_num (s : State) :
    numWords (State.closeSession s).regs = numWords s.regs := by
  unfold State.closeSession
  simp +decide

@[simp] theorem State.sessionConfig_num (s : State) :
    numWords (State.sessionConfig s).regs = numWords s.regs := by
  unfold State.sessionConfig
  simp +decide

@[simp] theorem State.mfMode_num (s : State) :
    numWords (State.mfMode s).regs = numWords s.regs := by
  unfold State.mfMode
  simp +decide

@[simp] theorem State.changeMode_num (s : State) (m : Mode) :
    numWords (State.changeMode s m).regs = numWords s.regs := by
  unfold State.changeMode
  simp +decide

@[simp] theorem State.offPll_num (s : State) :
    numWords (State.offPll s).regs = numWords s.regs := by
  unfold State.offPll
  simp +decide

@[simp] theorem State.enterLimited_num (s : State) :
    numWords (State.enterLimited s).regs = numWords s.regs := by
  unfold State.enterLimited
  simp +decide

@[simp] theorem State.enterRun_num (s : State) :
    numWords (State.enterRun s).regs = numWords s.regs := by
  unfold State.enterRun
  simp +decide

@[simp] theorem State.enterStaged_num (s : State) :
    numWords (State.enterStaged s).regs = numWords s.regs := by
  unfold State.enterStaged
  simp +decide

@[simp] theorem State.logBytes_num (s : State) (src code : Nat) (data : List Byte) :
    numWords (State.logBytes s src code data).regs = numWords s.regs := by
  unfold State.logBytes
  simp +decide

@[simp] theorem State.logEvent_num (s : State) (src code : Nat) (data : List Nat) :
    numWords (State.logEvent s src code data).regs = numWords s.regs := by
  unfold State.logEvent
  simp +decide

@[simp] theorem State.enterRecovery_num (s : State) (reason : Nat) :
    numWords (State.enterRecovery s reason).regs = numWords s.regs := by
  unfold State.enterRecovery
  simp +decide

@[simp] theorem State.modeHead_num (s : State) :
    numWords (State.modeHead s).regs = numWords s.regs := by
  unfold State.modeHead
  dsimp only
  (repeat' split) <;> simp +decide

@[simp] theorem State.assignRole_num (s : State) (r : RoleIx) (e : EngineIx) :
    numWords (State.assignRole s r e).regs = numWords s.regs := by
  unfold State.assignRole
  simp +decide [State.modEngine_keeps, State.modRole_keeps]

@[simp] theorem State.fillRole_num (s : State) (r : RoleIx) :
    numWords (State.fillRole s r).regs = numWords s.regs := by
  unfold State.fillRole
  (repeat' split) <;> simp +decide [State.modRole_keeps, State.noteVacancy_keeps]

@[simp] theorem State.fillVacant_num (s : State) :
    numWords (State.fillVacant s).regs = numWords s.regs := by
  unfold State.fillVacant
  simp +decide

@[simp] theorem State.setSuper_num (s : State) (v : Nat) :
    numWords (State.setSuper s v).regs = numWords s.regs := by
  unfold State.setSuper
  simp +decide

@[simp] theorem State.commitResult_num (s : State) (m : Master) (g code : Nat) :
    numWords (State.commitResult s m g code).regs = numWords s.regs := by
  unfold State.commitResult
  simp +decide

@[simp] theorem State.cancelGroup_num (s : State) (m : Master) (g : Nat) :
    numWords (State.cancelGroup s m g).regs = numWords s.regs := by
  unfold State.cancelGroup
  simp +decide

@[simp] theorem State.promote_num (s : State) :
    numWords (State.promote s).regs = numWords s.regs := by
  unfold State.promote
  simp +decide

@[simp] theorem State.handBack_num (s : State) :
    numWords (State.handBack s).regs = numWords s.regs := by
  unfold State.handBack
  simp +decide

@[simp] theorem State.passSupervision_num (s : State) :
    numWords (State.passSupervision s).regs = numWords s.regs := by
  unfold State.passSupervision
  dsimp only
  (repeat' split) <;> simp +decide

@[simp] theorem State.releaseRole_num (s : State) (r : RoleIx) :
    numWords (State.releaseRole s r).regs = numWords s.regs := by
  unfold State.releaseRole
  dsimp only
  (repeat' split) <;> simp +decide [State.declareFailing_keeps, State.modRole_keeps]

@[simp] theorem State.takeSupervision_num (s : State) :
    numWords (State.takeSupervision s).regs = numWords s.regs := by
  unfold State.takeSupervision
  simp +decide

@[simp] theorem State.haltColumn_num (s : State) (c : ColumnIx) :
    numWords (State.haltColumn s c).regs = numWords s.regs := by
  unfold State.haltColumn
  simp +decide [State.modColumn_keeps]

@[simp] theorem State.releaseColumn_num (s : State) (c : ColumnIx) :
    numWords (State.releaseColumn s c).regs = numWords s.regs := by
  unfold State.releaseColumn
  dsimp only
  (repeat' split) <;> simp +decide [State.modColumn_keeps]

@[simp] theorem State.engineHead_num (s : State) :
    numWords (State.engineHead s).regs = numWords s.regs := by
  unfold State.engineHead
  simp +decide

@[simp] theorem State.resumeEcho_num (s : State) :
    numWords (State.resumeEcho s).regs = numWords s.regs := by
  unfold State.resumeEcho
  simp +decide [State.announceMove_keeps, State.deriveRoutes_keeps]

@[simp] theorem State.admitFollows_num (s : State) (before : Nat) :
    numWords (State.admitFollows s before).regs = numWords s.regs := by
  unfold State.admitFollows
  simp +decide

@[simp] theorem State.head8_num (s : State) :
    numWords (State.head8 s).regs = numWords s.regs := by
  unfold State.head8
  simp +decide [State.restartColumn_keeps, State.sendDueCaps_keeps, State.sendErdy_keeps]

@[simp] theorem State.pwrResult_num (s : State) (m : Master) (code : Nat) :
    numWords (State.pwrResult s m code).regs = numWords s.regs := by
  unfold State.pwrResult
  simp +decide

@[simp] theorem State.wakeCause_num (s : State) (sources : BitVec 7) :
    numWords (State.wakeCause s sources).regs = numWords s.regs := by
  unfold State.wakeCause
  simp +decide

@[simp] theorem State.wakeLayover_num (s : State) (sources : BitVec 7) :
    numWords (State.wakeLayover s sources).regs = numWords s.regs := by
  unfold State.wakeLayover
  simp +decide

@[simp] theorem State.evaluateRequest_num (s : State) :
    numWords (State.evaluateRequest s).regs = numWords s.regs := by
  unfold State.evaluateRequest
  dsimp only
  (repeat' split) <;> simp +decide [State.retryRefused_keeps]

@[simp] theorem State.restartBlock_num (s : State) (block : Nat) :
    numWords (State.restartBlock s block).regs = numWords s.regs := by
  unfold State.restartBlock
  simp +decide [State.freeEngines_keeps, State.reopenAdmission_keeps]

@[simp] theorem State.wakeDormant_num (s : State) (sources : BitVec 7) :
    numWords (State.wakeDormant s sources).regs = numWords s.regs := by
  unfold State.wakeDormant
  simp +decide [State.wakeAttempt_keeps]

@[simp] theorem State.replayLatch_num (s : State) :
    numWords (State.replayLatch s).regs = numWords s.regs := by
  unfold State.replayLatch
  (repeat' split) <;> simp +decide

@[simp] theorem State.abandon_num (s : State) (ap : Nat) :
    numWords (State.abandon s ap).regs = numWords s.regs := by
  unfold State.abandon
  simp +decide [State.entryOver_keeps, State.noteRetry_keeps, State.reopenAdmission_keeps]

@[simp] theorem State.abortPoint_num {f : State → State} (h : ∀ t, numWords (f t).regs = numWords t.regs) (s : State)
    (ap : Nat) : numWords (State.abortPoint s ap f).regs = numWords s.regs := by
  simp [State.abortPoint, h]

@[simp] theorem State.countFraming_num (s : State) (p : LinkPort) :
    numWords (State.countFraming s p).regs = numWords s.regs := by
  unfold State.countFraming
  simp +decide

@[simp] theorem State.abortFrame_num (s : State) (id : Nat) :
    numWords (State.abortFrame s id).regs = numWords s.regs := by
  unfold State.abortFrame
  dsimp only
  (repeat' split) <;> simp +decide [State.release_keeps]

@[simp] theorem State.abortCut_num (s : State) (n : LocalPort) :
    numWords (State.abortCut s n).regs = numWords s.regs := by
  unfold State.abortCut
  simp +decide

@[simp] theorem State.dropPartial_num (s : State) (p : LinkPort) :
    numWords (State.dropPartial s p).regs = numWords s.regs := by
  unfold State.dropPartial
  dsimp only
  (repeat' split) <;> simp +decide [State.emptyFrame_keeps]

@[simp] theorem State.flushQueue_num (s : State) (q : QueueIx) :
    numWords (State.flushQueue s q).regs = numWords s.regs := by
  unfold State.flushQueue
  simp +decide

@[simp] theorem State.flushPort_num (s : State) (p : EgressPort) (lo hi : Nat) :
    numWords (State.flushPort s p lo hi).regs = numWords s.regs := by
  unfold State.flushPort
  simp +decide

@[simp] theorem State.loseSent_num (s : State) (p : LinkPort) :
    numWords (State.loseSent s p).regs = numWords s.regs := by
  unfold State.loseSent
  simp +decide

@[simp] theorem State.lossQueues_num (s : State) (t : TrunkPort) :
    numWords (State.lossQueues s t).regs = numWords s.regs := by
  unfold State.lossQueues
  simp +decide

@[simp] theorem State.endCuts_num (s : State) (p : EgressPort) :
    numWords (State.endCuts s p).regs = numWords s.regs := by
  unfold State.endCuts
  simp +decide [State.release_keeps]

@[simp] theorem State.localDown_num (s : State) (p : LinkPort) :
    numWords (State.localDown s p).regs = numWords s.regs := by
  unfold State.localDown
  simp +decide

@[simp] theorem State.linkLoss_num (s : State) (p : LinkPort) :
    numWords (State.linkLoss s p).regs = numWords s.regs := by
  unfold State.linkLoss
  dsimp only
  (repeat' split) <;> simp +decide

@[simp] theorem State.portDown_num (s : State) (p : LinkPort) :
    numWords (State.portDown s p).regs = numWords s.regs := by
  unfold State.portDown
  dsimp only
  (repeat' split) <;> simp +decide [State.modAgent_keeps]

@[simp] theorem State.lanesOff_num (s : State) :
    numWords (State.lanesOff s).regs = numWords s.regs := by
  unfold State.lanesOff
  simp +decide

@[simp] theorem State.cavernOff_num (s : State) :
    numWords (State.cavernOff s).regs = numWords s.regs := by
  unfold State.cavernOff
  simp +decide

@[simp] theorem State.sumpSleep_num (s : State) :
    numWords (State.sumpSleep s).regs = numWords s.regs := by
  unfold State.sumpSleep
  simp +decide [State.evict_keeps]

@[simp] theorem State.layoverComplete_num (s : State) :
    numWords (State.layoverComplete s).regs = numWords s.regs := by
  unfold State.layoverComplete
  simp +decide [State.entryOver_keeps]

@[simp] theorem State.agreeBlock_num (s : State) (block : Nat) :
    numWords (State.agreeBlock s block).regs = numWords s.regs := by
  unfold State.agreeBlock
  simp +decide

@[simp] theorem State.agree_num (s : State) (block : Nat) :
    numWords (State.agree s block).regs = numWords s.regs := by
  unfold State.agree
  simp +decide

@[simp] theorem State.rollbackNext_num (s : State) :
    numWords (State.rollbackNext s).regs = numWords s.regs := by
  unfold State.rollbackNext
  (repeat' split) <;> simp +decide [State.rollbackEnd_keeps]

@[simp] theorem State.refuse_num (s : State) (block reason : Nat) :
    numWords (State.refuse s block reason).regs = numWords s.regs := by
  unfold State.refuse
  simp +decide [State.freeEngines_keeps]

@[simp] theorem State.askBlock_num (s : State) (block : Nat) :
    numWords (State.askBlock s block).regs = numWords s.regs := by
  unfold State.askBlock
  simp +decide

@[simp] theorem State.entryHead_num (s : State) :
    numWords (State.entryHead s).regs = numWords s.regs := by
  unfold State.entryHead
  (repeat' split) <;> simp +decide

@[simp] theorem State.powerHead_num (s : State) :
    numWords (State.powerHead s).regs = numWords s.regs := by
  unfold State.powerHead
  simp +decide

@[simp] theorem State.cascadeHead_num (s0 : State) :
    numWords (State.cascadeHead s0).regs = numWords s0.regs := by
  unfold State.cascadeHead
  dsimp only
  (repeat' split) <;> simp +decide [State.applyDueKeys_keeps, State.reauthStopped_keeps, State.stopAssocs_keeps]

@[simp] theorem State.switchBank_num (s : State) :
    numWords (State.switchBank s).regs = numWords s.regs := by
  unfold State.switchBank
  simp +decide

@[simp] theorem State.head5_num (s : State) :
    numWords (State.head5 s).regs = numWords s.regs := by
  unfold State.head5
  simp +decide

@[simp] theorem State.refillOne_num {tok : Nat} (h : isNum tok = false) (s : State) (rate size : Nat) :
    numWords (State.refillOne s tok rate size).regs = numWords s.regs := State.setRegN_num h s _

@[simp] theorem State.refillClass_num (s : State) (p c : Nat) :
    numWords (State.refillClass s p c).regs = numWords s.regs := by
  unfold State.refillClass
  simp +decide

@[simp] theorem State.head4_num (s : State) :
    numWords (State.head4 s).regs = numWords s.regs := by
  unfold State.head4
  simp +decide

/-- No group has a word of BEAT_NUM among its active words. -/
theorem isNum_groupWords {g : Nat} : ∀ w ∈ groupWords g, isNum w.2 = false := by
  intro w hw
  apply isNum_of_above
  unfold groupWords at hw
  (repeat' split at hw) <;> simp at hw
  · rcases hw with rfl | ⟨i, -, rfl⟩ <;> simp [Reg.SCHED_GL_CFG_ACT, Reg.SCHED_GL_ENT_ACT] <;> omega
  · obtain ⟨c, -, k, -, rfl⟩ := hw
    simp [Reg.SCHED_CIR_ACT]
    omega
  · obtain ⟨c, -, k, -, rfl⟩ := hw
    simp [Reg.POL_CD_CIR_ACT]
    omega
  · subst hw
    simp [Reg.LANE_CFG_ACT]
    omega

@[simp] theorem State.copyGroup_num (s : State) (g : Nat) : numWords (State.copyGroup s g).regs = numWords s.regs :=
  State.over_num_of_mem (fun w hw t => numWords_set (isNum_groupWords w hw) _ t.regs) s

@[simp] theorem State.takeGates_num (s : State) (p : EgressPort) (anchor : Nat) :
    numWords (State.takeGates s p anchor).regs = numWords s.regs := by
  unfold State.takeGates
  simp +decide

@[simp] theorem State.resetClass_num (s : State) (p c : Nat) :
    numWords (State.resetClass s p c).regs = numWords s.regs := by
  unfold State.resetClass
  simp +decide

@[simp] theorem State.takeShapers_num (s : State) (p : Nat) :
    numWords (State.takeShapers s p).regs = numWords s.regs := by
  unfold State.takeShapers
  simp +decide

@[simp] theorem State.holdCtle_num (s : State) (l : LaneIx) :
    numWords (State.holdCtle s l).regs = numWords s.regs := by
  unfold State.holdCtle
  simp +decide

@[simp] theorem State.laneScratch_num (s : State) (l : LaneIx) :
    numWords (State.laneScratch s l).regs = numWords s.regs := by
  unfold State.laneScratch
  simp +decide

@[simp] theorem State.ethDown_num (s : State) (p : LinkPort) :
    numWords (State.ethDown s p).regs = numWords s.regs := by
  unfold State.ethDown
  dsimp only
  (repeat' split) <;> simp +decide

@[simp] theorem State.countTrunk_num {r : Nat → Nat} (h : ∀ i, isNum (r i) = false) (s : State) (p : LinkPort) :
    numWords (State.countTrunk s p r).regs = numWords s.regs := by
  simp [State.countTrunk, h]

@[simp] theorem State.evalWidth_num (s : State) (p : LinkPort) :
    numWords (State.evalWidth s p).regs = numWords s.regs := by
  unfold State.evalWidth
  simp +decide [State.reservesInForce_keeps, State.toStage_keeps]

@[simp] theorem State.rxFault_num (s : State) (p : LinkPort) (i : Nat) :
    numWords (State.rxFault s p i).regs = numWords s.regs := by
  unfold State.rxFault
  simp +decide

@[simp] theorem State.abandonTx_num (s : State) (p : LinkPort) :
    numWords (State.abandonTx s p).regs = numWords s.regs := by
  unfold State.abandonTx
  simp +decide [State.release_keeps]

@[simp] theorem State.resyncTx_num (s : State) (p : LinkPort) :
    numWords (State.resyncTx s p).regs = numWords s.regs := by
  unfold State.resyncTx
  simp +decide [State.modCredit_keeps]

@[simp] theorem State.txDrop_num (s : State) (p : LinkPort) :
    numWords (State.txDrop s p).regs = numWords s.regs := by
  unfold State.txDrop
  simp +decide [State.sendAmk_keeps]

@[simp] theorem State.dropOn_num (s : State) (p : LinkPort) (i : Nat) :
    numWords (State.dropOn s p i).regs = numWords s.regs := by
  unfold State.dropOn
  simp +decide

@[simp] theorem State.restartLane_num (s : State) (l : LaneIx) :
    numWords (State.restartLane s l).regs = numWords s.regs := by
  unfold State.restartLane
  simp +decide [State.redetect_keeps]

@[simp] theorem State.takeMode_num (s : State) (n : LocalPort) :
    numWords (State.takeMode s n).regs = numWords s.regs := by
  unfold State.takeMode
  simp +decide

@[simp] theorem State.evalBond_num (s : State) :
    numWords (State.evalBond s).regs = numWords s.regs := by
  unfold State.evalBond
  simp +decide

@[simp] theorem State.evalMode_num (s : State) (n : LocalPort) :
    numWords (State.evalMode s n).regs = numWords s.regs := by
  unfold State.evalMode
  simp +decide

@[simp] theorem State.takeLane_num (s : State) (l : LaneIx) :
    numWords (State.takeLane s l).regs = numWords s.regs := by
  unfold State.takeLane
  simp +decide

@[simp] theorem State.applyGroup_num (s : State) (g anchor : Nat) :
    numWords (State.applyGroup s g anchor).regs = numWords s.regs := by
  unfold State.applyGroup
  dsimp only
  (repeat' split) <;> simp +decide

@[simp] theorem State.applyDue_num (s : State) :
    numWords (State.applyDue s).regs = numWords s.regs := by
  unfold State.applyDue
  simp +decide

@[simp] theorem State.applyShadow_num (s : State) (g : Nat) :
    numWords (State.applyShadow s g).regs = numWords s.regs := by
  unfold State.applyShadow
  simp +decide

@[simp] theorem State.applyFirst_num (s : State) :
    numWords (State.applyFirst s).regs = numWords s.regs := by
  unfold State.applyFirst
  simp +decide

@[simp] theorem State.head23_num (s : State) :
    numWords (State.head23 s).regs = numWords s.regs := by
  unfold State.head23
  simp +decide

/-- After its first step the head leaves BEAT_NUM as it is. -/
theorem State.beatHead_num (s : State) : numWords s.beatHead.regs = numWords s.head1.regs := by
  simp [State.beatHead, State.commandedTakeovers_keeps]
/-! ## BEAT_NUM itself -/

theorem State.reg48_setReg48 (s : State) (lo v : Nat) : (s.setReg48 lo v).reg48 lo = v % 2 ^ 48 := by
  have h : lo ≠ lo + 4 := by omega
  simp only [State.reg48, State.setReg48, State.fld, State.reg_setRegN, h, if_true, if_false, bitsOf, BitVec.toNat_ofNat]
  omega

theorem State.beatNum_setBeatNum (s : State) (b : Beat) : (s.setBeatNum b).beatNum = b := by
  simp only [State.beatNum, State.setBeatNum, State.reg48_setReg48]
  apply BitVec.eq_of_toNat_eq
  rw [BitVec.toNat_ofNat]
  omega

/-- BEAT_NUM is what its two words spell. -/
theorem State.beatNum_congr {s t : State} (h : numWords t.regs = numWords s.regs) : t.beatNum = s.beatNum := by
  simp only [numWords, Prod.mk.injEq] at h
  obtain ⟨hlo, hhi⟩ := h
  simp only [State.beatNum, State.reg48, State.fld, State.reg, hlo]
  exact congrArg (fun w => BitVec.ofNat 48 (_ + 2 ^ 32 * bitsOf w 15 0)) hhi

/-! ## The beat head (R22, R26) -/

/-- Step 1 raises BEAT_NUM by one; what may follow in it, a change of mode or the end of STEP_PENDING, leaves it (R23). -/
theorem State.head1_beatNum (s : State) : s.head1.beatNum = s.beatNum + 1 := by
  have words : numWords s.head1.regs = numWords (s.setBeatNum (s.beatNum + 1)).regs := by simp [State.head1]
  rw [State.beatNum_congr words, State.beatNum_setBeatNum]

theorem State.head1_heads (s : State) : s.head1.heads = s.heads + 1 := by
  simp [State.head1, State.modeHead_keeps, State.pllHead_keeps, State.settleStep_keeps]

theorem State.beatHead_beatNum (s : State) : s.beatHead.beatNum = s.beatNum + 1 := by
  rw [State.beatNum_congr s.beatHead_num, State.head1_beatNum]

theorem State.beatHead_heads (s : State) : s.beatHead.heads = s.heads + 1 := by
  simp [State.beatHead, State.boundary_keeps, State.cascadeHead_keeps, State.commandedTakeovers_keeps, State.head23_keeps,
    State.head4_keeps, State.head5_keeps, State.head8_keeps, State.powerHead_keeps, State.head1_heads]

/-- A command that keeps its records in order (R435) leaves the words of BEAT_NUM to the operation itself. -/
theorem State.inOrder_num (s : State) (f : State → State) :
    numWords (s.inOrder f).regs = numWords (f { s with log := { s.log with pending := [] } }).regs := by
  simp +decide [State.inOrder]

theorem State.inOrder_heads_eq (s : State) (f : State → State) :
    (s.inOrder f).heads = (f { s with log := { s.log with pending := [] } }).heads := by
  simp [State.inOrder]

/-- Settles O7: step 1 counts the head and the beat, and no later step writes a word of BEAT_NUM. -/
theorem beatHeadCounts : Obligations.BeatHeadCounts := by
  intro s hruns
  refine ⟨s.inOrder State.beatHead, by simp [exec, execBeatHead, hruns], ?_, ?_⟩
  · rw [State.beatNum_congr (s.inOrder_num State.beatHead), State.beatHead_beatNum]
    rfl
  · rw [State.inOrder_heads_eq, State.beatHead_heads]

end Sys2Proof.Machine
end

section
/-! No command changes the queue (R26). Most operations have a law that says so; the first part adds the ones that have none,
the second says it of every command. -/

namespace Sys2Proof.Machine

open Sys2Proof

/-! ## The operations that have no law of their own yet -/

@[simp] theorem State.ite_pending (c : Prop) [Decidable c] (a b : State) :
    (if c then a else b).pending = if c then a.pending else b.pending := by
  split <;> rfl

@[simp] theorem State.inOrder_pending (s : State) {f : State → State} (h : ∀ t, (f t).pending = t.pending) :
    (State.inOrder s f).pending = s.pending := by
  simp [State.inOrder, h]

@[simp] theorem State.capDecide_pending (s : State) (p : LinkPort) (r : CapRecord) (fresh : Bool) :
    (State.capDecide s p r fresh).pending = s.pending := by
  simp [State.capDecide, State.countTrunk_keeps]

@[simp] theorem State.receiveEth_pending (s : State) (n : LocalPort) (bytes : List Byte) :
    (State.receiveEth s n bytes).pending = s.pending := by
  have mapped : (s.mapFrame n bytes).1.pending = s.pending := by simp [State.mapFrame_keeps]
  unfold State.receiveEth
  generalize s.mapFrame n bytes = x at mapped ⊢
  obtain ⟨s1, _ | f⟩ := x <;> (replace mapped : s1.pending = s.pending := mapped) <;>
    simp +contextual [State.handle_keeps, mapped]

@[simp] theorem State.clearPartner_pending (s : State) (t : TrunkPort) :
    (State.clearPartner s t).pending = s.pending := by
  simp [State.clearPartner]

@[simp] theorem State.startDetect_pending (s : State) (p : LinkPort) :
    (State.startDetect s p).pending = s.pending := by
  simp [State.startDetect, State.clearTraining_keeps, State.toStage_keeps]

@[simp] theorem State.coupledUp_pending (s : State) (port : TrunkPort) :
    (State.coupledUp s port).pending = s.pending := by
  simp [State.coupledUp, State.clearTraining_keeps, State.portDown_keeps]

@[simp] theorem State.coupledFall_pending (s : State) (port : TrunkPort) :
    (State.coupledFall s port).pending = s.pending := by
  simp [State.coupledFall, State.clearTraining_keeps, State.linkLoss_keeps, State.portDown_keeps]

@[simp] theorem State.beginTrain_pending (s : State) (l : LaneIx) :
    (State.beginTrain s l).pending = s.pending := by
  simp [State.beginTrain, State.sendTrain_keeps, State.usePreset_keeps]

@[simp] theorem State.negotiate_pending (s : State) (t : TrunkPort) :
    (State.negotiate s t).pending = s.pending := by
  simp [State.negotiate]

@[simp] theorem State.storePartner_pending (s : State) (p : LinkPort) (r : CapRecord) :
    (State.storePartner s p r).pending = s.pending := by
  unfold State.storePartner
  dsimp only
  (repeat' split) <;> simp

@[simp] theorem State.goActive_pending (s : State) (p : LinkPort) (r : CapRecord) :
    (State.goActive s p r).pending = s.pending := by
  simp [State.goActive, State.emptyFrame_keeps, State.evalWidth_keeps, State.reservesInForce_keeps, State.resetCredits_keeps,
    State.sendAllCred_keeps, State.settle_keeps, State.toStage_keeps]

@[simp] theorem State.takeSync_pending (s : State) (p : EgressPort) (payload : List Byte) :
    (State.takeSync s p payload).pending = s.pending := by
  unfold State.takeSync
  (repeat' split) <;> simp [State.onSync_keeps]

@[simp] theorem State.toAgent_pending (s : State) (p : EgressPort) (f : Frame) :
    (State.toAgent s p f).pending = s.pending := by
  simp [State.toAgent, State.accept_keeps]

/-- A frame taken in keeps the queue where returning its credit does. -/
theorem State.takeIn_pending (s : State) (p : EgressPort) (f : Frame) {back : State → State}
    (h : ∀ t, (back t).pending = t.pending) : (State.takeIn s p f back).pending = s.pending := by
  unfold State.takeIn
  (repeat' split) <;> simp [State.handle_keeps, h]

@[simp] theorem State.receive_pending (s : State) (p : EgressPort) (rx : RxFrame) :
    (State.receive s p rx).pending = s.pending := by
  have checked : (s.precheck p rx).1.pending = s.pending := by simp [State.precheck_keeps]
  unfold State.receive
  generalize s.precheck p rx = x at checked ⊢
  obtain ⟨s1, _ | f⟩ := x
  · simpa [State.returnCredit_keeps] using checked
  · have back (t : State) : (if isSync p rx then t
        else t.returnCredit p rx.frame.cls rx.frame.dl rx.creditCells).pending = t.pending := by simp [State.returnCredit_keeps]
    have taken := s1.takeIn_pending p f back
    simpa [taken] using checked

@[simp] theorem State.endCut_pending (s : State) (n : LocalPort) (id : Nat) (rx : RxFrame) :
    (State.endCut s n id rx).pending = s.pending := by
  simp [State.endCut, State.abortCut_keeps, State.finishCut_keeps]

@[simp] theorem State.agentServes_pending (s : State) (f : Frame) (ingress : EgressPort) :
    (State.agentServes s f ingress).pending = s.pending := by
  unfold State.agentServes
  (repeat' split) <;> simp [State.mgmtServe_keeps, State.onEcho_keeps, State.onKey_keeps]

@[simp] theorem State.agentTakes_pending (s : State) :
    (State.agentTakes s).pending = s.pending := by
  simp [State.agentTakes, State.modRole_keeps]

@[simp] theorem State.patrolError_pending (s : State) (unit : Nat) :
    (State.patrolError s unit).pending = s.pending := by
  unfold State.patrolError
  dsimp only
  (repeat' split) <;> simp [State.spoilEntry_keeps, State.spoilPair_keeps, State.spoilWord_keeps, State.sumpError_keeps]

@[simp] theorem State.scrubbed_pending (s : State) (row : Nat) (x : ChamberIx × EccResult) :
    (State.scrubbed s row x).pending = s.pending := by
  unfold State.scrubbed
  dsimp only
  (repeat' split) <;> simp [State.chamberUe_keeps]

@[simp] theorem State.demandError_pending (s : State) (addr size : Nat) :
    (State.demandError s addr size).pending = s.pending := by
  unfold State.demandError
  dsimp only
  (repeat' split) <;> simp [State.spoilEntry_keeps, State.spoilPair_keeps, State.spoilWord_keeps, State.sumpError_keeps]

@[simp] theorem State.readEcc_pending (s : State) (a : Access) :
    (State.readEcc s a).pending = s.pending := by
  unfold State.readEcc
  dsimp only
  (repeat' split) <;> simp

@[simp] theorem State.deliver_pending (s : State) (a : Access) :
    (State.deliver s a).pending = s.pending := by
  simp [State.deliver]

@[simp] theorem State.writeBack_pending (s : State) (c : ColumnIx) (addr : Nat) (data : List Byte) :
    (State.writeBack s c addr data).1.pending = s.pending := by
  unfold State.writeBack
  dsimp only
  (repeat' split) <;> simp [State.perform_keeps, State.pushFault_keeps]

@[simp] theorem State.cutSave_pending (s : State) :
    (State.cutSave s).pending = s.pending := by
  simp [State.cutSave]

@[simp] theorem State.holdPorst_pending (s : State) :
    (State.holdPorst s).pending = s.pending := by
  simp [State.holdPorst]

@[simp] theorem State.coreOff_pending (s : State) :
    (State.coreOff s).pending = s.pending := by
  simp [State.coreOff]

@[simp] theorem State.releaseCore_pending (s : State) :
    (State.releaseCore s).pending = s.pending := by
  simp [State.releaseCore, State.restarted_keeps, State.startPorst_keeps, State.startStage_keeps, State.strapDefaults_keeps]

@[simp] theorem State.noteMargin_pending (s : State) :
    (State.noteMargin s).pending = s.pending := by
  unfold State.noteMargin
  dsimp only
  (repeat' split) <;> simp

@[simp] theorem State.noteProcess_pending (s : State) :
    (State.noteProcess s).pending = s.pending := by
  simp [State.noteProcess]

@[simp] theorem State.critChange_pending (s : State) (ch : ChannelIx) (code : BitVec 12) (was is : Bool) :
    (State.critChange s ch code was is).pending = s.pending := by
  simp [State.critChange]

@[simp] theorem State.startCutoff_pending (s : State) (ch : ChannelIx) (code : BitVec 12) :
    (State.startCutoff s ch code).pending = s.pending := by
  simp [State.startCutoff, State.lanesOff_keeps]

@[simp] theorem State.convert_pending (s : State) (x : ChannelIx × BitVec 12) :
    (State.convert s x).pending = s.pending := by
  simp [State.convert]

@[simp] theorem State.wakeCut_pending (s : State) :
    (State.wakeCut s).pending = s.pending := by
  simp [State.wakeCut]

@[simp] theorem State.pgoodLost_pending (s : State) :
    (State.pgoodLost s).pending = s.pending := by
  simp [State.pgoodLost]

@[simp] theorem State.corePllLost_pending (s : State) :
    (State.corePllLost s).pending = s.pending := by
  simp [State.corePllLost, State.enterLimited_keeps, State.lanesOff_keeps, State.offPll_keeps, State.untrain_keeps]

@[simp] theorem State.loseGeode_pending (s : State) :
    (State.loseGeode s).pending = s.pending := by
  simp [State.loseGeode]

@[simp] theorem State.bedrockOff_pending (s : State) :
    (State.bedrockOff s).pending = s.pending := by
  simp [State.bedrockOff]

@[simp] theorem State.logOnVbat_pending (s : State) :
    (State.logOnVbat s).pending = s.pending := by
  simp [State.logOnVbat, State.writeRecord_keeps]

@[simp] theorem State.retireRole_pending (s : State) (r : RoleIx) :
    (State.retireRole s r).pending = s.pending := by
  unfold State.retireRole
  dsimp only
  (repeat' split) <;> simp [State.modRole_keeps, State.takeDescriptors_keeps]

@[simp] theorem State.retireColumn_pending (s : State) (c : ColumnIx) :
    (State.retireColumn s c).pending = s.pending := by
  unfold State.retireColumn
  dsimp only
  (repeat' split) <;> simp [State.modColumn_keeps, State.takeDescriptors_keeps]

@[simp] theorem State.cutFrame_pending (s : State) (n : LocalPort) (frame : Frame) :
    (State.cutFrame s n frame).1.pending = s.pending := by
  have mapped : (s.mapFrame n frame.payload).1.pending = s.pending := by simp [State.mapFrame_keeps]
  have tagged : (s.checkTag (loc n) frame 0).1.pending = s.pending := by simp [State.checkTag_keeps]
  unfold State.cutFrame
  generalize s.mapFrame n frame.payload = x at mapped ⊢
  generalize s.checkTag (loc n) frame 0 = y at tagged ⊢
  obtain ⟨s1, _ | f⟩ := x <;> obtain ⟨s2, _ | g⟩ := y <;> (repeat' split) <;>
    simp_all [State.checkIds_keeps]

/-! ## Every command -/

/-- A command answers a next state, whose queue is that of `s`. -/
def KeepsQueue (s : State) (o : Out) : Prop := ∃ t, o = .next t ∧ t.pending = s.pending

@[simp] theorem keepsQueue_next (s t : State) : KeepsQueue s (.next t) ↔ t.pending = s.pending := by
  simp [KeepsQueue]

@[simp] theorem execPlanCompute_keepsQueue (plan s) : KeepsQueue s (execPlanCompute plan s) := by
  simp only [execPlanCompute, keepsQueue_next]
  refine State.whenCore_pending s fun t => ?_
  (repeat' split) <;> simp [State.rejectPlan_keeps, State.tryPlan_keeps]

@[simp] theorem execPlanCommitRetry_keepsQueue (s) : KeepsQueue s (execPlanCommitRetry s) := by
  simp only [execPlanCommitRetry, keepsQueue_next]
  refine State.whenCore_pending s fun t => ?_
  (repeat' split) <;> simp [State.tryPlan_keeps]

@[simp] theorem execBlockReceived_keepsQueue (lane hdr payload reads s) :
    KeepsQueue s (execBlockReceived lane hdr payload reads s) := by
  simp [execBlockReceived, State.checkPattern_keeps, State.farLoop_keeps, State.rxSource_keeps, State.takeBlock_keeps,
    State.unscramble_keeps]

@[simp] theorem execTrainBlockReceived_keepsQueue (lane reqPre reqPost reqPreset ack rxReady tseq ackSeq settled s) :
    KeepsQueue s (execTrainBlockReceived lane reqPre reqPost reqPreset ack rxReady tseq ackSeq settled s) := by
  simp [execTrainBlockReceived, State.noteHealth_keeps, State.ownRequest_keeps, State.sendTrain_keeps, State.trainReady_keeps,
    State.trainRequest_keeps]

@[simp] theorem execAmkReceived_keepsQueue (port marks sincePrev s) : KeepsQueue s (execAmkReceived port marks sincePrev s) := by
  simp only [execAmkReceived, keepsQueue_next]
  refine State.whenCore_pending s fun t => ?_
  (repeat' split) <;> simp [State.deskew_keeps, State.evalWidth_keeps, State.restripe_keeps, State.resyncRx_keeps,
    State.rxAnnounce_keeps]

@[simp] theorem execAmkSend_keepsQueue (port s) : KeepsQueue s (execAmkSend port s) := by
  simp [execAmkSend, State.sendAmk_keeps]

@[simp] theorem execCredReceived_keepsQueue (port tc esc count s) : KeepsQueue s (execCredReceived port tc esc count s) := by
  simp only [execCredReceived, keepsQueue_next]
  refine State.whenCore_pending s fun t => ?_
  (repeat' split) <;> simp [State.modCredit_keeps, State.refreshDrain_keeps]

@[simp] theorem execCredBlockSend_keepsQueue (port tc esc s) : KeepsQueue s (execCredBlockSend port tc esc s) := by
  simp [execCredBlockSend, State.sendCred_keeps]

@[simp] theorem execCreditResyncPeriodic_keepsQueue (port s) : KeepsQueue s (execCreditResyncPeriodic port s) := by
  simp [execCreditResyncPeriodic, State.resyncTx_keeps, State.sendAmk_keeps]

@[simp] theorem execCreditResyncIgnoreEnd_keepsQueue (port s) : KeepsQueue s (execCreditResyncIgnoreEnd port s) := by
  simp [execCreditResyncIgnoreEnd]

@[simp] theorem execCreditResyncSecondCred_keepsQueue (port s) : KeepsQueue s (execCreditResyncSecondCred port s) := by
  simp [execCreditResyncSecondCred, State.sendAllCred_keeps]

@[simp] theorem execEchoRequestSend_keepsQueue (port s) : KeepsQueue s (execEchoRequestSend port s) := by
  simp [execEchoRequestSend]

@[simp] theorem execEchoRequestReceived_keepsQueue (port lane eseq turn s) :
    KeepsQueue s (execEchoRequestReceived port lane eseq turn s) := by
  simp [execEchoRequestReceived]

@[simp] theorem execEchoReplyReceived_keepsQueue (port eseq turn roundTrip s) :
    KeepsQueue s (execEchoReplyReceived port eseq turn roundTrip s) := by
  simp only [execEchoReplyReceived, keepsQueue_next]
  refine State.whenCore_pending s fun t => ?_
  (repeat' split) <;> simp

@[simp] theorem execDelayUpdate_keepsQueue (port s) : KeepsQueue s (execDelayUpdate port s) := by
  simp [execDelayUpdate]

@[simp] theorem execFltReceived_keepsQueue (port code lanes s) : KeepsQueue s (execFltReceived port code lanes s) := by
  simp [execFltReceived, State.txDrop_keeps]

@[simp] theorem execFltRxExpiry_keepsQueue (lane s) : KeepsQueue s (execFltRxExpiry lane s) := by
  simp only [execFltRxExpiry, keepsQueue_next]
  refine State.whenCore_pending s fun t => ?_
  (repeat' split) <;> simp [State.noteHealth_keeps]

@[simp] theorem execTxLaneJoin_keepsQueue (port lane s) : KeepsQueue s (execTxLaneJoin port lane s) := by
  simp [execTxLaneJoin, State.evalWidth_keeps, State.laneReturns_keeps, State.sendAmk_keeps]

@[simp] theorem execFltSend_keepsQueue (port s) : KeepsQueue s (execFltSend port s) := by
  simp [execFltSend]

@[simp] theorem execLpbkRequestReceived_keepsQueue (port lanes s) : KeepsQueue s (execLpbkRequestReceived port lanes s) := by
  simp [execLpbkRequestReceived, State.loopChanged_keeps]

@[simp] theorem execLpbkAnswerReceived_keepsQueue (port lanes accepted s) :
    KeepsQueue s (execLpbkAnswerReceived port lanes accepted s) := by
  simp [execLpbkAnswerReceived]

@[simp] theorem execLpbkReleaseReceived_keepsQueue (port lanes s) : KeepsQueue s (execLpbkReleaseReceived port lanes s) := by
  simp [execLpbkReleaseReceived, State.loopChanged_keeps]

@[simp] theorem execLpbkRequestSend_keepsQueue (lane s) : KeepsQueue s (execLpbkRequestSend lane s) := by
  simp [execLpbkRequestSend]

@[simp] theorem execLpbkTimeout_keepsQueue (lane s) : KeepsQueue s (execLpbkTimeout lane s) := by
  simp only [execLpbkTimeout, keepsQueue_next]
  refine State.whenCore_pending s fun t => ?_
  (repeat' split) <;> simp

@[simp] theorem execLosAssert_keepsQueue (lane s) : KeepsQueue s (execLosAssert lane s) := by
  simp [execLosAssert, State.signalLost_keeps]

@[simp] theorem execLosClear_keepsQueue (lane s) : KeepsQueue s (execLosClear lane s) := by
  simp [execLosClear, State.signalBack_keeps]

@[simp] theorem execLolAssert_keepsQueue (lane s) : KeepsQueue s (execLolAssert lane s) := by
  simp [execLolAssert, State.signalLost_keeps]

@[simp] theorem execLolClear_keepsQueue (lane s) : KeepsQueue s (execLolClear lane s) := by
  simp [execLolClear, State.signalBack_keeps]

@[simp] theorem execEyeMeasurement_keepsQueue (lane height width s) : KeepsQueue s (execEyeMeasurement lane height width s) := by
  simp [execEyeMeasurement]

@[simp] theorem execTrendUpdate_keepsQueue (s) : KeepsQueue s (execTrendUpdate s) := by
  simp [execTrendUpdate, State.trendSecond_keeps]

@[simp] theorem execUsbUpAttach_keepsQueue (plug rp s) : KeepsQueue s (execUsbUpAttach plug rp s) := by
  simp [execUsbUpAttach, State.attachWake_keeps, State.connectUp_keeps, State.measureVbus_keeps, State.noteCc_keeps]

@[simp] theorem execUsbUpDetach_keepsQueue (s) : KeepsQueue s (execUsbUpDetach s) := by
  simp [execUsbUpDetach, State.disconnectUp_keeps, State.dropPartner_keeps, State.measureVbus_keeps, State.noteCc_keeps,
    State.removeVbus_keeps]

@[simp] theorem execUsbDnAttach_keepsQueue (port plug s) : KeepsQueue s (execUsbDnAttach port plug s) := by
  simp [execUsbDnAttach, State.applyVbus_keeps, State.attachWake_keeps, State.noteCc_keeps, State.sendCaps_keeps,
    State.showRp_keeps]

@[simp] theorem execUsbDnDetach_keepsQueue (port s) : KeepsQueue s (execUsbDnDetach port s) := by
  simp [execUsbDnDetach, State.detachDn_keeps, State.noteCc_keeps]

@[simp] theorem execServiceConnectTimeout_keepsQueue (s) : KeepsQueue s (execServiceConnectTimeout s) := by
  simp [execServiceConnectTimeout, State.connectService_keeps]

@[simp] theorem execUsbOverCurrent_keepsQueue (n s) : KeepsQueue s (execUsbOverCurrent n s) := by
  simp [execUsbOverCurrent, State.overCurrent_keeps]

@[simp] theorem execSetPortPower_keepsQueue (n s) : KeepsQueue s (execSetPortPower n s) := by
  simp [execSetPortPower, State.powerPort_keeps, State.wakeBy_keeps]

@[simp] theorem execClearPortPower_keepsQueue (n s) : KeepsQueue s (execClearPortPower n s) := by
  simp only [execClearPortPower, keepsQueue_next, State.wakeBy_keeps]
  refine State.whenUsb_pending s fun t => ?_
  split <;> simp [State.detachDn_keeps]

@[simp] theorem execUsbDeviceConnect_keepsQueue (n connected s) : KeepsQueue s (execUsbDeviceConnect n connected s) := by
  simp [execUsbDeviceConnect, State.wakeBy_keeps]

@[simp] theorem execOpenSession_keepsQueue (wValue wIndex wLength s) :
    KeepsQueue s (execOpenSession wValue wIndex wLength s) := by
  simp [execOpenSession, State.setSession_keeps]

@[simp] theorem execCloseSession_keepsQueue (wValue wIndex wLength s) :
    KeepsQueue s (execCloseSession wValue wIndex wLength s) := by
  simp [execCloseSession, State.closeSession_keeps]

@[simp] theorem execGetSession_keepsQueue (wValue wIndex wLength s) : KeepsQueue s (execGetSession wValue wIndex wLength s) := by
  simp [execGetSession]

@[simp] theorem execPing_keepsQueue (s) : KeepsQueue s (execPing s) := by
  simp [execPing]

@[simp] theorem execLpmToken_keepsQueue (s) : KeepsQueue s (execLpmToken s) := by
  simp [execLpmToken]

@[simp] theorem execUsbBusReset_keepsQueue (duringControl s) : KeepsQueue s (execUsbBusReset duringControl s) := by
  simp [execUsbBusReset, State.closeSession_keeps, State.usbDefault_keeps]

@[simp] theorem execUsbSuspend_keepsQueue (s) : KeepsQueue s (execUsbSuspend s) := by
  simp [execUsbSuspend]

@[simp] theorem execRemoteWake_keepsQueue (s) : KeepsQueue s (execRemoteWake s) := by
  simp [execRemoteWake]

@[simp] theorem execHostResume_keepsQueue (s) : KeepsQueue s (execHostResume s) := by
  simp [execHostResume, State.wakeBy_keeps]

@[simp] theorem execStandardRequest_keepsQueue (req s) : KeepsQueue s (execStandardRequest req s) := by
  simp only [execStandardRequest, keepsQueue_next, State.wakeBy_keeps]
  refine State.whenUsb_pending s fun t => ?_
  cases req <;> simp

@[simp] theorem execBulkInTransfer_keepsQueue (s) : KeepsQueue s (execBulkInTransfer s) := by
  simp only [execBulkInTransfer, keepsQueue_next]
  refine State.whenMf_pending s fun t => ?_
  (repeat' split) <;> simp [State.sendErdy_keeps]

@[simp] theorem execSourceCapabilities_keepsQueue (port pdos pd3 s) :
    KeepsQueue s (execSourceCapabilities port pdos pd3 s) := by
  simp only [execSourceCapabilities, keepsQueue_next]
  refine State.whenPd_pending s port fun t => ?_
  (repeat' split) <;> simp [State.sendPd_keeps]

@[simp] theorem execPdRequest_keepsQueue (port head cur s) : KeepsQueue s (execPdRequest port head cur s) := by
  simp only [execPdRequest, keepsQueue_next]
  refine State.whenPd_pending s port fun t => ?_
  generalize pdoAt _ head.pos = offered
  cases offered <;> simp [State.sendPd_keeps]

@[simp] theorem execVbusSettled_keepsQueue (port s) : KeepsQueue s (execVbusSettled port s) := by
  simp only [execVbusSettled, keepsQueue_next]
  refine State.whenUsb_pending s fun t => ?_
  (repeat' split) <;> simp [State.measureVbus_keeps, State.sendPd_keeps]

@[simp] theorem execSrcSettleTimeout_keepsQueue (port s) : KeepsQueue s (execSrcSettleTimeout port s) := by
  simp [execSrcSettleTimeout, State.hardReset_keeps]

@[simp] theorem execGetSourceCap_keepsQueue (port s) : KeepsQueue s (execGetSourceCap port s) := by
  simp [execGetSourceCap, State.notSupported_keeps, State.sendCaps_keeps, State.sendPd_keeps]

@[simp] theorem execGetSinkCap_keepsQueue (port s) : KeepsQueue s (execGetSinkCap port s) := by
  simp [execGetSinkCap, State.notSupported_keeps, State.sendPd_keeps]

@[simp] theorem execPrSwap_keepsQueue (port s) : KeepsQueue s (execPrSwap port s) := by
  simp [execPrSwap, State.removeVbus_keeps, State.sendPd_keeps]

@[simp] theorem execPsRdyReceived_keepsQueue (s) : KeepsQueue s (execPsRdyReceived s) := by
  simp only [execPsRdyReceived, keepsQueue_next]
  refine State.whenPd_pending s 0 fun t => ?_
  (repeat' split) <;> simp [State.connectService_keeps, State.measureVbus_keeps, State.sendCaps_keeps, State.sendPd_keeps]

@[simp] theorem execDrSwap_keepsQueue (port s) : KeepsQueue s (execDrSwap port s) := by
  simp [execDrSwap, State.sendPd_keeps]

@[simp] theorem execSoftReset_keepsQueue (port s) : KeepsQueue s (execSoftReset port s) := by
  simp [execSoftReset, State.restartIds_keeps, State.sendPd_keeps]

@[simp] theorem execHardReset_keepsQueue (port s) : KeepsQueue s (execHardReset port s) := by
  simp [execHardReset, State.hardReset_keeps]

@[simp] theorem execDiscoverIdentity_keepsQueue (port s) : KeepsQueue s (execDiscoverIdentity port s) := by
  simp [execDiscoverIdentity, State.sendPd_keeps]

@[simp] theorem execUnsupportedPdMessage_keepsQueue (msg s) : KeepsQueue s (execUnsupportedPdMessage msg s) := by
  simp [execUnsupportedPdMessage, State.notSupported_keeps, State.sendPd_keeps]

@[simp] theorem execDischargeEnd_keepsQueue (port s) : KeepsQueue s (execDischargeEnd port s) := by
  simp [execDischargeEnd, State.applyVbus_keeps, State.measureVbus_keeps, State.sendCaps_keeps]

@[simp] theorem execDischargeTimeout_keepsQueue (port s) : KeepsQueue s (execDischargeTimeout port s) := by
  simp [execDischargeTimeout, State.dropPartner_keeps]

@[simp] theorem execPdSrcPdoChange_keepsQueue (port s) : KeepsQueue s (execPdSrcPdoChange port s) := by
  simp [execPdSrcPdoChange, State.notePdo_keeps]

@[simp] theorem execGoodcrcTimeout_keepsQueue (port s) : KeepsQueue s (execGoodcrcTimeout port s) := by
  simp [execGoodcrcTimeout, State.hardReset_keeps, State.restartIds_keeps, State.sendPd_keeps]

@[simp] theorem execRegisterWrite_keepsQueue (m addr size data tag s) :
    KeepsQueue s (execRegisterWrite m addr size data tag s) := by
  simp [execRegisterWrite, State.access_keeps, State.answered_keeps]

@[simp] theorem execMemoryAccess_keepsQueue (a s) : KeepsQueue s (execMemoryAccess a s) := by
  simp [execMemoryAccess, State.access_keeps, State.answered_keeps]

@[simp] theorem execCacheWriteback_keepsQueue (c addr data s) : KeepsQueue s (execCacheWriteback c addr data s) := by
  simp only [execCacheWriteback, keepsQueue_next]
  refine State.whenCore_pending s fun t => ?_
  (repeat' split) <;> simp [State.answered_keeps, State.dropColLine_keeps]

@[simp] theorem execAliasWrite_keepsQueue (m addr size item s) : KeepsQueue s (execAliasWrite m addr size item s) := by
  simp [execAliasWrite, State.access_keeps, State.answered_keeps]

@[simp] theorem execCounterLoRead_keepsQueue (m addr size s) : KeepsQueue s (execCounterLoRead m addr size s) := by
  simp [execCounterLoRead, State.answered_keeps, State.readAccess_keeps]

@[simp] theorem execCavernDiagWrite_keepsQueue (m addr data s) : KeepsQueue s (execCavernDiagWrite m addr data s) := by
  simp [execCavernDiagWrite, State.command_keeps]

@[simp] theorem execUnlockLapse_keepsQueue (m s) : KeepsQueue s (execUnlockLapse m s) := by
  simp [execUnlockLapse]

@[simp] theorem execBankClearEnd_keepsQueue (s) : KeepsQueue s (execBankClearEnd s) := by
  simp [execBankClearEnd]

@[simp] theorem execMpuBarrierDone_keepsQueue (m s) : KeepsQueue s (execMpuBarrierDone m s) := by
  simp [execMpuBarrierDone, State.endBarrier_keeps]

@[simp] theorem execRuleChangeEffect_keepsQueue (s) : KeepsQueue s (execRuleChangeEffect s) := by
  simp [execRuleChangeEffect, State.ruleTakesEffect_keeps]

@[simp] theorem execKeyHelloReceived_keepsQueue (port payload s) : KeepsQueue s (execKeyHelloReceived port payload s) := by
  simp [execKeyHelloReceived, State.helloArrives_keeps]

@[simp] theorem execKeyFinishReceived_keepsQueue (port payload s) : KeepsQueue s (execKeyFinishReceived port payload s) := by
  simp [execKeyFinishReceived, State.finishArrives_keeps]

@[simp] theorem execKeyResumeReceived_keepsQueue (port payload s) : KeepsQueue s (execKeyResumeReceived port payload s) := by
  simp [execKeyResumeReceived, State.resumeArrives_keeps]

@[simp] theorem execKeyFailReceived_keepsQueue (port payload s) : KeepsQueue s (execKeyFailReceived port payload s) := by
  simp [execKeyFailReceived, State.failArrives_keeps]

@[simp] theorem execAuthTimeout_keepsQueue (port s) : KeepsQueue s (execAuthTimeout port s) := by
  simp [execAuthTimeout, State.authFailed_keeps]

@[simp] theorem execAuthRetry_keepsQueue (port s) : KeepsQueue s (execAuthRetry port s) := by
  simp only [execAuthRetry, keepsQueue_next]
  refine State.whenCore_pending s fun t => ?_
  (repeat' split) <;> simp [State.sendHello_keeps, State.startAuth_keeps]

@[simp] theorem execRekeyDue_keepsQueue (port s) : KeepsQueue s (execRekeyDue port s) := by
  simp [execRekeyDue, State.sendHello_keeps]

@[simp] theorem execSyncSend_keepsQueue (port s) : KeepsQueue s (execSyncSend port s) := by
  simp [execSyncSend, State.reauthSpent_keeps, State.sendSync_keeps]

@[simp] theorem execSyncReceived_keepsQueue (port payload s) : KeepsQueue s (execSyncReceived port payload s) := by
  simp [execSyncReceived, State.onSync_keeps]

@[simp] theorem execEchoFrameReceived_keepsQueue (port echo s) : KeepsQueue s (execEchoFrameReceived port echo s) := by
  simp only [execEchoFrameReceived, keepsQueue_next]
  refine State.whenCore_pending s fun t => ?_
  simp [State.creditBack_keeps, State.takeEcho_keeps]

@[simp] theorem execEchoFramePeriodicSend_keepsQueue (port s) : KeepsQueue s (execEchoFramePeriodicSend port s) := by
  simp [execEchoFramePeriodicSend, State.sendEcho_keeps]

@[simp] theorem execNeighbourDeadEchoTimeout_keepsQueue (port s) : KeepsQueue s (execNeighbourDeadEchoTimeout port s) := by
  simp [execNeighbourDeadEchoTimeout, State.sendHello_keeps]

@[simp] theorem execNeighbourDeadLinkLoss_keepsQueue (port s) : KeepsQueue s (execNeighbourDeadLinkLoss port s) := by
  simp only [execNeighbourDeadLinkLoss, keepsQueue_next]
  refine State.whenCore_pending s fun t => ?_
  (repeat' split) <;> simp [State.closeWindow_keeps]

@[simp] theorem execHoldWindowClose_keepsQueue (port s) : KeepsQueue s (execHoldWindowClose port s) := by
  simp only [execHoldWindowClose, keepsQueue_next]
  refine State.whenCore_pending s fun t => ?_
  (repeat' split) <;> simp [State.closeWindow_keeps, State.flushHeld_keeps]

@[simp] theorem execMergeAnnounce_keepsQueue (s) : KeepsQueue s (execMergeAnnounce s) := by
  simp [execMergeAnnounce, State.sendEchoAll_keeps, State.setMerges_keeps]

@[simp] theorem execMergeCancel_keepsQueue (s) : KeepsQueue s (execMergeCancel s) := by
  simp [execMergeCancel, State.takeCancel_keeps]

@[simp] theorem execFormingEnd_keepsQueue (s) : KeepsQueue s (execFormingEnd s) := by
  simp only [execFormingEnd, keepsQueue_next]
  refine State.whenCore_pending s fun t => ?_
  (repeat' split) <;> simp

@[simp] theorem execBeatBlockReceived_keepsQueue (port num hops hold ofs pep late s) :
    KeepsQueue s (execBeatBlockReceived port num hops hold ofs pep late s) := by
  simp only [execBeatBlockReceived, keepsQueue_next]
  refine State.whenCore_pending s fun t => ?_
  (repeat' split) <;> simp [State.measureBeat_keeps, State.takeBeat_keeps]

@[simp] theorem execHoldoverEntry_keepsQueue (s) : KeepsQueue s (execHoldoverEntry s) := by
  simp [execHoldoverEntry]

@[simp] theorem execEnterMaster_keepsQueue (s) : KeepsQueue s (execEnterMaster s) := by
  simp [execEnterMaster, State.becomeMaster_keeps]

@[simp] theorem execMasterMove_keepsQueue (s) : KeepsQueue s (execMasterMove s) := by
  simp [execMasterMove, State.becomeFollower_keeps, State.newMaster_keeps, State.sendEchoAll_keeps, State.takeRole_keeps]

@[simp] theorem execEpochRaise_keepsQueue (s) : KeepsQueue s (execEpochRaise s) := by
  simp [execEpochRaise, State.countSplit_keeps, State.raiseTo_keeps]

@[simp] theorem execPepPrevWindowEnd_keepsQueue (s) : KeepsQueue s (execPepPrevWindowEnd s) := by
  simp only [execPepPrevWindowEnd, keepsQueue_next]
  refine State.whenCore_pending s fun t => ?_
  (repeat' split) <;> simp

@[simp] theorem execMergeStep_keepsQueue (s) : KeepsQueue s (execMergeStep s) := by
  simp only [execMergeStep, keepsQueue_next]
  refine State.whenCore_pending s fun t => ?_
  (repeat' split) <;> simp [State.merged_keeps, State.setMerges_keeps, State.stepMerged_keeps]

@[simp] theorem execSfdpRetry_keepsQueue (found s) : KeepsQueue s (execSfdpRetry found s) := by
  simp only [execSfdpRetry, keepsQueue_next]
  refine State.whenCore_pending s fun t => ?_
  (repeat' split) <;> simp [State.pendRecovery_keeps, State.setStage_keeps, State.showHeaders_keeps]

@[simp] theorem execCopyVerifyEnd_keepsQueue (readOk s) : KeepsQueue s (execCopyVerifyEnd readOk s) := by
  simp only [execCopyVerifyEnd, keepsQueue_next]
  refine State.whenCore_pending s fun t => ?_
  (repeat' split) <;> simp [State.rejectCopy_keeps, State.useCopy_keeps]

@[simp] theorem execApplyEnd_keepsQueue (s) : KeepsQueue s (execApplyEnd s) := by
  simp only [execApplyEnd, keepsQueue_next]
  refine State.whenCore_pending s fun t => ?_
  (repeat' split) <;> simp [State.applied_keeps, State.applyFrom_keeps]

@[simp] theorem execSeedEnd_keepsQueue (s) : KeepsQueue s (execSeedEnd s) := by
  simp [execSeedEnd, State.endSeed_keeps]

@[simp] theorem execRunWaitExpiry_keepsQueue (s) : KeepsQueue s (execRunWaitExpiry s) := by
  simp [execRunWaitExpiry, State.bootCommand_keeps]

@[simp] theorem execFlashOpEnd_keepsQueue (ok s) : KeepsQueue s (execFlashOpEnd ok s) := by
  simp only [execFlashOpEnd, keepsQueue_next]
  refine State.whenCore_pending s fun t => ?_
  (repeat' split) <;> simp [State.eraseCopy_keeps, State.programPage_keeps, State.readPage_keeps, State.tornFlash_keeps,
    State.verifyCopy_keeps]

@[simp] theorem execSpillWriteComplete_keepsQueue (q s) : KeepsQueue s (execSpillWriteComplete q s) := by
  simp only [execSpillWriteComplete, keepsQueue_next]
  refine State.whenCore_pending s fun t => ?_
  (repeat' split) <;> simp [State.chamberUe_keeps, State.dropRef_keeps, State.modRef_keeps, State.modStored_keeps,
    State.settle_keeps]

@[simp] theorem execSpillReturn_keepsQueue (q ecc s) : KeepsQueue s (execSpillReturn q ecc s) := by
  simp only [execSpillReturn, keepsQueue_next]
  refine State.whenCore_pending s fun t => ?_
  (repeat' split) <;> simp [State.discardSpilled_keeps, State.settle_keeps, State.unspill_keeps]

@[simp] theorem execSumpReadyFall_keepsQueue (s) : KeepsQueue s (execSumpReadyFall s) := by
  simp [execSumpReadyFall, State.untrain_keeps]

@[simp] theorem execSumpPatrolScrub_keepsQueue (ecc s) : KeepsQueue s (execSumpPatrolScrub ecc s) := by
  simp only [execSumpPatrolScrub, keepsQueue_next]
  refine State.whenCore_pending s fun t => ?_
  (repeat' split) <;> simp

@[simp] theorem execSumpTrainingEnd_keepsQueue (ok s) : KeepsQueue s (execSumpTrainingEnd ok s) := by
  simp [execSumpTrainingEnd, State.trained_keeps]

@[simp] theorem execMprTemperatureRead_keepsQueue (hot s) : KeepsQueue s (execMprTemperatureRead hot s) := by
  simp [execMprTemperatureRead]

@[simp] theorem execCavernScrub_keepsQueue (found s) : KeepsQueue s (execCavernScrub found s) := by
  simp [execCavernScrub]

@[simp] theorem execChamberFail_keepsQueue (chamber s) : KeepsQueue s (execChamberFail chamber s) := by
  simp [execChamberFail, State.failChamber_keeps, State.settle_keeps]

@[simp] theorem execCavernBistEnd_keepsQueue (bad s) : KeepsQueue s (execCavernBistEnd bad s) := by
  simp only [execCavernBistEnd, keepsQueue_next]
  refine State.whenCore_pending s fun t => ?_
  (repeat' split) <;> simp [State.failChamber_keeps]

@[simp] theorem execBeatCommit_keepsQueue (m group s) : KeepsQueue s (execBeatCommit m group s) := by
  simp [execBeatCommit, State.commandN_keeps]

@[simp] theorem execBeatCancel_keepsQueue (m group s) : KeepsQueue s (execBeatCancel m group s) := by
  simp [execBeatCancel, State.commandN_keeps]

@[simp] theorem execLaneLoopWrite_keepsQueue (m lane data s) : KeepsQueue s (execLaneLoopWrite m lane data s) := by
  simp [execLaneLoopWrite, State.command_keeps]

@[simp] theorem execLaneTrendClrWrite_keepsQueue (m data s) : KeepsQueue s (execLaneTrendClrWrite m data s) := by
  simp [execLaneTrendClrWrite, State.command_keeps]

@[simp] theorem execLocModeWrite_keepsQueue (m port data s) : KeepsQueue s (execLocModeWrite m port data s) := by
  simp [execLocModeWrite, State.command_keeps]

@[simp] theorem execLocGroupWrite_keepsQueue (m data s) : KeepsQueue s (execLocGroupWrite m data s) := by
  simp [execLocGroupWrite, State.command_keeps]

@[simp] theorem execTrkCfgEnWrite_keepsQueue (m port data s) : KeepsQueue s (execTrkCfgEnWrite m port data s) := by
  simp [execTrkCfgEnWrite, State.command_keeps]

@[simp] theorem execEpRead_keepsQueue (m s) : KeepsQueue s (execEpRead m s) := by
  simp [execEpRead, State.commandN_keeps]

@[simp] theorem execEpWrite_keepsQueue (m s) : KeepsQueue s (execEpWrite m s) := by
  simp [execEpWrite, State.commandN_keeps]

@[simp] theorem execEpWriteKeep_keepsQueue (m s) : KeepsQueue s (execEpWriteKeep m s) := by
  simp [execEpWriteKeep, State.commandN_keeps]

@[simp] theorem execEpPin_keepsQueue (m s) : KeepsQueue s (execEpPin m s) := by
  simp [execEpPin, State.commandN_keeps]

@[simp] theorem execEpUnpin_keepsQueue (m s) : KeepsQueue s (execEpUnpin m s) := by
  simp [execEpUnpin, State.commandN_keeps]

@[simp] theorem execEpRevoke_keepsQueue (m s) : KeepsQueue s (execEpRevoke m s) := by
  simp [execEpRevoke, State.commandN_keeps]

@[simp] theorem execEpInvalidate_keepsQueue (m s) : KeepsQueue s (execEpInvalidate m s) := by
  simp [execEpInvalidate, State.commandN_keeps]

@[simp] theorem execTunMapAdd_keepsQueue (m s) : KeepsQueue s (execTunMapAdd m s) := by
  simp [execTunMapAdd, State.commandN_keeps]

@[simp] theorem execTunMapDelete_keepsQueue (m s) : KeepsQueue s (execTunMapDelete m s) := by
  simp [execTunMapDelete, State.commandN_keeps]

@[simp] theorem execTunMapLookup_keepsQueue (m s) : KeepsQueue s (execTunMapLookup m s) := by
  simp [execTunMapLookup, State.commandN_keeps]

@[simp] theorem execSumpTrain_keepsQueue (m data s) : KeepsQueue s (execSumpTrain m data s) := by
  simp [execSumpTrain, State.command_keeps]

@[simp] theorem execSumpUePop_keepsQueue (m data s) : KeepsQueue s (execSumpUePop m data s) := by
  simp [execSumpUePop, State.command_keeps]

@[simp] theorem execTunnelAdd_keepsQueue (m tunnel s) : KeepsQueue s (execTunnelAdd m tunnel s) := by
  simp [execTunnelAdd, State.commandN_keeps]

@[simp] theorem execTunnelRemove_keepsQueue (m tunnel s) : KeepsQueue s (execTunnelRemove m tunnel s) := by
  simp [execTunnelRemove, State.commandN_keeps]

@[simp] theorem execEngTakeover_keepsQueue (m target s) : KeepsQueue s (execEngTakeover m target s) := by
  simp [execEngTakeover, State.commandN_keeps]

@[simp] theorem execEngRetest_keepsQueue (m target s) : KeepsQueue s (execEngRetest m target s) := by
  simp [execEngRetest, State.commandN_keeps]

@[simp] theorem execGlbUnlockWrite_keepsQueue (m data s) : KeepsQueue s (execGlbUnlockWrite m data s) := by
  simp [execGlbUnlockWrite, State.command_keeps]

@[simp] theorem execSnapshotRequest_keepsQueue (m data s) : KeepsQueue s (execSnapshotRequest m data s) := by
  simp [execSnapshotRequest, State.command_keeps]

@[simp] theorem execBankRelease_keepsQueue (m s) : KeepsQueue s (execBankRelease m s) := by
  simp [execBankRelease, State.commandN_keeps]

@[simp] theorem execMpuSyncWrite_keepsQueue (m data s) : KeepsQueue s (execMpuSyncWrite m data s) := by
  simp [execMpuSyncWrite, State.command_keeps]

@[simp] theorem execMpuFaultPop_keepsQueue (m data s) : KeepsQueue s (execMpuFaultPop m data s) := by
  simp [execMpuFaultPop, State.command_keeps]

@[simp] theorem execDerive_keepsQueue (m replace detach s) : KeepsQueue s (execDerive m replace detach s) := by
  simp [execDerive, State.commandN_keeps]

@[simp] theorem execKeyInvalidate_keepsQueue (m s) : KeepsQueue s (execKeyInvalidate m s) := by
  simp [execKeyInvalidate, State.commandN_keeps]

@[simp] theorem execMac_keepsQueue (m s) : KeepsQueue s (execMac m s) := by
  simp [execMac, State.commandN_keeps]

@[simp] theorem execSign_keepsQueue (m s) : KeepsQueue s (execSign m s) := by
  simp [execSign, State.commandN_keeps]

@[simp] theorem execEcdhGen_keepsQueue (m replace s) : KeepsQueue s (execEcdhGen m replace s) := by
  simp [execEcdhGen, State.commandN_keeps]

@[simp] theorem execEcdhAgree_keepsQueue (m replace s) : KeepsQueue s (execEcdhAgree m replace s) := by
  simp [execEcdhAgree, State.commandN_keeps]

@[simp] theorem execWrap_keepsQueue (m s) : KeepsQueue s (execWrap m s) := by
  simp [execWrap, State.commandN_keeps]

@[simp] theorem execUnwrap_keepsQueue (m replace s) : KeepsQueue s (execUnwrap m replace s) := by
  simp [execUnwrap, State.commandN_keeps]

@[simp] theorem execKeyInfo_keepsQueue (m s) : KeepsQueue s (execKeyInfo m s) := by
  simp [execKeyInfo, State.commandN_keeps]

@[simp] theorem execSaInstall_keepsQueue (m transmit s) : KeepsQueue s (execSaInstall m transmit s) := by
  simp [execSaInstall, State.commandN_keeps]

@[simp] theorem execSaRetire_keepsQueue (m transmit s) : KeepsQueue s (execSaRetire m transmit s) := by
  simp [execSaRetire, State.commandN_keeps]

@[simp] theorem execRootNew_keepsQueue (m s) : KeepsQueue s (execRootNew m s) := by
  simp [execRootNew, State.commandN_keeps]

@[simp] theorem execZeroise_keepsQueue (m s) : KeepsQueue s (execZeroise m s) := by
  simp [execZeroise, State.commandN_keeps]

@[simp] theorem execSecFuseProgram_keepsQueue (m pos s) : KeepsQueue s (execSecFuseProgram m pos s) := by
  simp [execSecFuseProgram, State.commandN_keeps]

@[simp] theorem execSecFuseRevoke_keepsQueue (m pos s) : KeepsQueue s (execSecFuseRevoke m pos s) := by
  simp [execSecFuseRevoke, State.commandN_keeps]

@[simp] theorem execBootRun_keepsQueue (m s) : KeepsQueue s (execBootRun m s) := by
  simp [execBootRun, State.commandN_keeps]

@[simp] theorem execBootReset_keepsQueue (m s) : KeepsQueue s (execBootReset m s) := by
  simp [execBootReset, State.commandN_keeps]

@[simp] theorem execBootRecover_keepsQueue (m s) : KeepsQueue s (execBootRecover m s) := by
  simp [execBootRecover, State.commandN_keeps]

@[simp] theorem execBootStaged_keepsQueue (m s) : KeepsQueue s (execBootStaged m s) := by
  simp [execBootStaged, State.commandN_keeps]

@[simp] theorem execBootSeed_keepsQueue (m s) : KeepsQueue s (execBootSeed m s) := by
  simp [execBootSeed, State.commandN_keeps]

@[simp] theorem execBootTest_keepsQueue (m s) : KeepsQueue s (execBootTest m s) := by
  simp [execBootTest, State.commandN_keeps]

@[simp] theorem execBootStgDataWrite_keepsQueue (m data s) : KeepsQueue s (execBootStgDataWrite m data s) := by
  simp [execBootStgDataWrite, State.command_keeps]

@[simp] theorem execFlEraseCopy_keepsQueue (m s) : KeepsQueue s (execFlEraseCopy m s) := by
  simp [execFlEraseCopy, State.commandN_keeps]

@[simp] theorem execFlProgram_keepsQueue (m s) : KeepsQueue s (execFlProgram m s) := by
  simp [execFlProgram, State.commandN_keeps]

@[simp] theorem execFlRead_keepsQueue (m s) : KeepsQueue s (execFlRead m s) := by
  simp [execFlRead, State.commandN_keeps]

@[simp] theorem execFlVerify_keepsQueue (m s) : KeepsQueue s (execFlVerify m s) := by
  simp [execFlVerify, State.commandN_keeps]

@[simp] theorem execPwrReqWrite_keepsQueue (m data s) : KeepsQueue s (execPwrReqWrite m data s) := by
  simp [execPwrReqWrite, State.command_keeps]

@[simp] theorem execPwrAskWrite_keepsQueue (m target beat s) : KeepsQueue s (execPwrAskWrite m target beat s) := by
  simp [execPwrAskWrite, State.commandN_keeps, State.command_keeps]

@[simp] theorem execAvsTargetWrite_keepsQueue (m data s) : KeepsQueue s (execAvsTargetWrite m data s) := by
  simp [execAvsTargetWrite, State.command_keeps]

@[simp] theorem execLogRdAddrWrite_keepsQueue (m data s) : KeepsQueue s (execLogRdAddrWrite m data s) := by
  simp [execLogRdAddrWrite, State.command_keeps]

@[simp] theorem execLogPutCmd_keepsQueue (m data s) : KeepsQueue s (execLogPutCmd m data s) := by
  simp [execLogPutCmd, State.command_keeps]

@[simp] theorem execMgmtReadRequest_keepsQueue (srcEp tc req s) : KeepsQueue s (execMgmtReadRequest srcEp tc req s) := by
  simp [execMgmtReadRequest, State.mgmtServe_keeps]

@[simp] theorem execMgmtWriteRequest_keepsQueue (srcEp tc req s) : KeepsQueue s (execMgmtWriteRequest srcEp tc req s) := by
  simp [execMgmtWriteRequest, State.mgmtServe_keeps]

@[simp] theorem execBulkOutRequest_keepsQueue (req s) : KeepsQueue s (execBulkOutRequest req s) := by
  simp only [execBulkOutRequest, keepsQueue_next]
  refine State.whenMf_pending s fun t => ?_
  have served := (t.serve_keeps 6 req).2.2
  (repeat' split) <;> simp [State.ackPacket_keeps, State.queueReply_keeps, State.refusePacket_keeps, served]

@[simp] theorem execCarRead_keepsQueue (via count addr s) : KeepsQueue s (execCarRead via count addr s) := by
  simp only [execCarRead, keepsQueue_next]
  refine State.whenCar_pending s via fun t => ?_
  simp [State.carServe_keeps]

@[simp] theorem execCarWrite_keepsQueue (via count addr data s) : KeepsQueue s (execCarWrite via count addr data s) := by
  simp only [execCarWrite, keepsQueue_next]
  refine State.whenCar_pending s via fun t => ?_
  dsimp only
  split <;> simp [State.serveWrites_keeps]

@[simp] theorem execCarWriteStatus_keepsQueue (tx s) : KeepsQueue s (execCarWriteStatus tx s) := by
  simp [execCarWriteStatus]

@[simp] theorem execFrameReceived_keepsQueue (port rx tag s) : KeepsQueue s (execFrameReceived port rx tag s) := by
  simp only [execFrameReceived, keepsQueue_next]
  refine State.whenCore_pending s fun t => ?_
  cases toLink port with
  | none =>
    dsimp only
    split
    · split <;> simp [State.settle_keeps, State.zombie_keeps]
    · simp [State.settle_keeps]
  | some l =>
    dsimp only
    split
    · rfl
    · refine State.arriving_pending t l fun u => ?_
      (repeat' split) <;> simp [State.countLocal_keeps, State.settle_keeps]

@[simp] theorem execEthFrameReceived_keepsQueue (port bytes fcs s) : KeepsQueue s (execEthFrameReceived port bytes fcs s) := by
  simp only [execEthFrameReceived, keepsQueue_next]
  refine State.whenCore_pending s fun t => ?_
  (repeat' split) <;> simp [State.abortCut_keeps, State.countLocal_keeps, State.finishCut_keeps, State.settle_keeps]

@[simp] theorem execCutThroughJoin_keepsQueue (port frame s) : KeepsQueue s (execCutThroughJoin port frame s) := by
  simp only [execCutThroughJoin, keepsQueue_next]
  refine State.whenCore_pending s fun t => ?_
  have cut := t.cutFrame_pending port frame
  generalize t.cutFrame port frame = x at cut ⊢
  split
  · rfl
  obtain ⟨s1, _ | f⟩ := x
  · rfl
  have judged : (s1.judge (toEgress (loc port)) f false none).1.pending = s1.pending := by simp [State.judge_keeps]
  dsimp only
  generalize s1.judge (toEgress (loc port)) f false none = y at judged ⊢
  obtain ⟨s2, v⟩ := y
  cases v with
  | pass a =>
    dsimp only
    split
    · rfl
    next g q _ =>
      have joined : ((s2.store g (toEgress (loc port)) a.matched (s2.cav.lastChamber.val + 1)).joinAll s2.cav.nextId g.cls g.cells
          true [q]).1.pending = s2.pending := by simp [State.joinAll_keeps, State.store_keeps]
      generalize (s2.store g (toEgress (loc port)) a.matched (s2.cav.lastChamber.val + 1)).joinAll s2.cav.nextId g.cls g.cells
        true [q] = z at joined ⊢
      obtain ⟨s4, r⟩ := z
      replace joined : s4.pending = t.pending := joined.trans (judged.trans cut)
      cases r <;> simp [State.returnCredit_keeps, joined]
  | _ => rfl

@[simp] theorem execEntryFetchComplete_keepsQueue (ep ecc s) : KeepsQueue s (execEntryFetchComplete ep ecc s) := by
  simp [execEntryFetchComplete, State.fillCache_keeps, State.handle_keeps, State.settle_keeps, State.spoilEntry_keeps,
    State.sumpError_keeps]

@[simp] theorem execMissWaitTimeout_keepsQueue (ep s) : KeepsQueue s (execMissWaitTimeout ep s) := by
  simp [execMissWaitTimeout, State.releaseKey_keeps, State.settle_keeps]

@[simp] theorem execSchedulerDecision_keepsQueue (port slot s) : KeepsQueue s (execSchedulerDecision port slot s) := by
  simp [execSchedulerDecision, State.frameSlot_keeps, State.idleFill_keeps, State.takeOwn_keeps]

@[simp] theorem execTwinEntryAgeOut_keepsQueue (src s) : KeepsQueue s (execTwinEntryAgeOut src s) := by
  simp only [execTwinEntryAgeOut, keepsQueue_next]
  refine State.whenCore_pending s fun t => ?_
  (repeat' split) <;> simp [State.ageOutTwin_keeps]

@[simp] theorem execDrainWaitExceeded_keepsQueue (port s) : KeepsQueue s (execDrainWaitExceeded port s) := by
  simp [execDrainWaitExceeded]

@[simp] theorem execHangWatchdog_keepsQueue (e s) : KeepsQueue s (execHangWatchdog e s) := by
  simp only [execHangWatchdog, keepsQueue_next]
  refine State.whenCore_pending s fun t => ?_
  (repeat' split) <;> simp [State.declareFailing_keeps]

@[simp] theorem execEngineEccUe_keepsQueue (e s) : KeepsQueue s (execEngineEccUe e s) := by
  simp [execEngineEccUe, State.declareFailing_keeps]

@[simp] theorem execSpareAssign_keepsQueue (r s) : KeepsQueue s (execSpareAssign r s) := by
  simp [execSpareAssign, State.assignSpare_keeps]

@[simp] theorem execEngineSelftestEnd_keepsQueue (e pass s) : KeepsQueue s (execEngineSelftestEnd e pass s) := by
  simp [execEngineSelftestEnd, State.modEngine_keeps]

@[simp] theorem execColumnMismatch_keepsQueue (c s) : KeepsQueue s (execColumnMismatch c s) := by
  simp [execColumnMismatch, State.haltColumn_keeps]

@[simp] theorem execColumnImageCopyEnd_keepsQueue (c s) : KeepsQueue s (execColumnImageCopyEnd c s) := by
  simp [execColumnImageCopyEnd, State.modColumn_keeps, State.restoreTcm_keeps]

@[simp] theorem execTaskTableRetire_keepsQueue (owner s) : KeepsQueue s (execTaskTableRetire owner s) := by
  simp only [execTaskTableRetire, keepsQueue_next]
  refine State.whenCore_pending s fun t => ?_
  (repeat' split) <;> simp

@[simp] theorem execBeatHead_keepsQueue (s) : KeepsQueue s (execBeatHead s) := by
  simp [execBeatHead, State.beatHead_keeps]

@[simp] theorem execPwrAskIssue_keepsQueue (s) : KeepsQueue s (execPwrAskIssue s) := by
  simp [execPwrAskIssue, State.issueAsk_keeps]

@[simp] theorem execPwrRetry_keepsQueue (s) : KeepsQueue s (execPwrRetry s) := by
  simp [execPwrRetry, State.issueAsk_keeps]

@[simp] theorem execBlockAgree_keepsQueue (block s) : KeepsQueue s (execBlockAgree block s) := by
  simp [execBlockAgree, State.agree_keeps]

@[simp] theorem execBlockRefuse_keepsQueue (block reason s) : KeepsQueue s (execBlockRefuse block reason s) := by
  simp [execBlockRefuse, State.refuse_keeps]

@[simp] theorem execRollbackRestartEnd_keepsQueue (s) : KeepsQueue s (execRollbackRestartEnd s) := by
  simp only [execRollbackRestartEnd, keepsQueue_next]
  refine State.whenCore_pending s fun t => ?_
  (repeat' split) <;> simp [State.rollbackNext_keeps]

@[simp] theorem execDormantEntryComplete_keepsQueue (s) : KeepsQueue s (execDormantEntryComplete s) := by
  simp [execDormantEntryComplete, State.entryOver_keeps, State.replayLatch_keeps, State.zeroVolatile_keeps]

@[simp] theorem execRestTick_keepsQueue (s) : KeepsQueue s (execRestTick s) := by
  simp [execRestTick, State.powerHead_keeps, State.sendDueCaps_keeps]

@[simp] theorem execWakeEvent_keepsQueue (source s) : KeepsQueue s (execWakeEvent source s) := by
  simp [execWakeEvent, State.wakeBy_keeps]

@[simp] theorem execWakeLayoverReady_keepsQueue (s) : KeepsQueue s (execWakeLayoverReady s) := by
  simp [execWakeLayoverReady, State.freeEngines_keeps, State.lanesOn_keeps, State.reopenAdmission_keeps]

@[simp] theorem execPgoodRise_keepsQueue (s) : KeepsQueue s (execPgoodRise s) := by
  simp [execPgoodRise, State.startPorst_keeps]

@[simp] theorem execRestoreEnd_keepsQueue (s) : KeepsQueue s (execRestoreEnd s) := by
  simp only [execRestoreEnd, keepsQueue_next]
  refine State.whenCore_pending s fun t => ?_
  (repeat' split) <;> simp [State.restoreSet_keeps, State.startStage_keeps, State.strapDefaults_keeps]

@[simp] theorem execAvsAckTimeout_keepsQueue (s) : KeepsQueue s (execAvsAckTimeout s) := by
  simp [execAvsAckTimeout, State.sendVoltage_keeps, State.stepFailed_keeps, State.wakeNoAck_keeps]

@[simp] theorem execWakePgoodTimeout_keepsQueue (s) : KeepsQueue s (execWakePgoodTimeout s) := by
  simp [execWakePgoodTimeout, State.wakeFailed_keeps]

@[simp] theorem execWakeRetry_keepsQueue (s) : KeepsQueue s (execWakeRetry s) := by
  simp [execWakeRetry, State.wakeAttempt_keeps]

@[simp] theorem execAvsStep_keepsQueue (ack s) : KeepsQueue s (execAvsStep ack s) := by
  simp [execAvsStep, State.stepDone_keeps, State.stepFailed_keeps, State.wakeFailed_keeps]

@[simp] theorem execAvsEvaluation_keepsQueue (s) : KeepsQueue s (execAvsEvaluation s) := by
  simp [execAvsEvaluation, State.avsEvaluate_keeps, State.writeTarget_keeps]

@[simp] theorem execAvsTargetRetry_keepsQueue (s) : KeepsQueue s (execAvsTargetRetry s) := by
  simp [execAvsTargetRetry, State.writeTarget_keeps]

@[simp] theorem execClockSwitch_keepsQueue (s) : KeepsQueue s (execClockSwitch s) := by
  simp [execClockSwitch, State.goLimited_keeps, State.onPll_keeps, State.wakeMemories_keeps]

@[simp] theorem execPllLockTimeout_keepsQueue (s) : KeepsQueue s (execPllLockTimeout s) := by
  simp [execPllLockTimeout, State.goLimited_keeps]

@[simp] theorem execPllLockRetry_keepsQueue (locked s) : KeepsQueue s (execPllLockRetry locked s) := by
  simp [execPllLockRetry]

@[simp] theorem execMonConversion_keepsQueue (readings s) : KeepsQueue s (execMonConversion readings s) := by
  simp [execMonConversion]

@[simp] theorem execCutoffCoreOff_keepsQueue (s) : KeepsQueue s (execCutoffCoreOff s) := by
  simp [execCutoffCoreOff, State.entryOver_keeps]

@[simp] theorem execThermalRestart_keepsQueue (s) : KeepsQueue s (execThermalRestart s) := by
  simp [execThermalRestart, State.startReset_keeps, State.wakeAttempt_keeps]

@[simp] theorem execLogRecordWrite_keepsQueue (s) : KeepsQueue s (execLogRecordWrite s) := by
  simp [execLogRecordWrite, State.trendSecond_keeps, State.writeRecord_keeps]

@[simp] theorem execCoupledRise_keepsQueue (port s) : KeepsQueue s (execCoupledRise port s) := by
  simp [execCoupledRise, State.wakeBy_keeps]

@[simp] theorem execCoupleSnsOpen_keepsQueue (port s) : KeepsQueue s (execCoupleSnsOpen port s) := by
  simp [execCoupleSnsOpen, State.wakeBy_keeps]

@[simp] theorem execCoupleSnsBounce_keepsQueue (port s) : KeepsQueue s (execCoupleSnsBounce port s) := by
  simp [execCoupleSnsBounce]

@[simp] theorem execDownExit_keepsQueue (port s) : KeepsQueue s (execDownExit port s) := by
  simp [execDownExit, State.enterLock_keeps]

@[simp] theorem execDetectionResult_keepsQueue (port lanes s) : KeepsQueue s (execDetectionResult port lanes s) := by
  simp [execDetectionResult, State.toStage_keeps]

@[simp] theorem execDetectRetry_keepsQueue (port s) : KeepsQueue s (execDetectRetry port s) := by
  simp [execDetectRetry]

@[simp] theorem execTrainComplete_keepsQueue (port s) : KeepsQueue s (execTrainComplete port s) := by
  simp [execTrainComplete, State.enterLock_keeps]

@[simp] theorem execTrainTimeout_keepsQueue (port s) : KeepsQueue s (execTrainTimeout port s) := by
  simp only [execTrainTimeout, keepsQueue_next]
  refine State.whenCore_pending s fun t => ?_
  (repeat' split) <;> simp [State.countTrunk_keeps, State.enterLock_keeps, State.portDown_keeps]

@[simp] theorem execLockComplete_keepsQueue (port s) : KeepsQueue s (execLockComplete port s) := by
  simp [execLockComplete, State.enterCapx_keeps]

@[simp] theorem execLockTimeout_keepsQueue (port s) : KeepsQueue s (execLockTimeout port s) := by
  simp [execLockTimeout, State.countTrunk_keeps, State.enterCapx_keeps, State.portDown_keeps]

@[simp] theorem execCapRecordReceived_keepsQueue (port lane rec consecutive s) :
    KeepsQueue s (execCapRecordReceived port lane rec consecutive s) := by
  simp only [execCapRecordReceived, keepsQueue_next]
  refine State.whenCore_pending s fun t => ?_
  (repeat' split) <;> simp

@[simp] theorem execCapxTimeout_keepsQueue (port s) : KeepsQueue s (execCapxTimeout port s) := by
  simp [execCapxTimeout, State.countTrunk_keeps, State.portDown_keeps]

@[simp] theorem execPortActive_keepsQueue (port s) : KeepsQueue s (execPortActive port s) := by
  simp only [execPortActive, keepsQueue_next]
  refine State.whenCore_pending s fun t => ?_
  (repeat' split) <;> simp [State.startAuth_keeps]

@[simp] theorem execPorstNAssert_keepsQueue (ns s) : KeepsQueue s (execPorstNAssert ns s) := by
  simp [execPorstNAssert]

@[simp] theorem execPorstNRelease_keepsQueue (straps vauxFromVbus s) :
    KeepsQueue s (execPorstNRelease straps vauxFromVbus s) := by
  simp [execPorstNRelease, State.releasePorst_keeps]

@[simp] theorem execPgoodFall_keepsQueue (ns s) : KeepsQueue s (execPgoodFall ns s) := by
  simp [execPgoodFall]

@[simp] theorem execPgoodRecover_keepsQueue (s) : KeepsQueue s (execPgoodRecover s) := by
  simp [execPgoodRecover, State.startPorst_keeps, State.startReset_keeps]

@[simp] theorem execRefclkAbsent_keepsQueue (input s) : KeepsQueue s (execRefclkAbsent input s) := by
  simp only [execRefclkAbsent, keepsQueue_next]
  refine State.whenCore_pending s fun t => ?_
  (repeat' split) <;> simp [State.portDown_keeps]

@[simp] theorem execRefclkPresent_keepsQueue (input s) : KeepsQueue s (execRefclkPresent input s) := by
  simp [execRefclkPresent]

@[simp] theorem execVauxFall_keepsQueue (vbat s) : KeepsQueue s (execVauxFall vbat s) := by
  simp [execVauxFall, State.cutOps_keeps]

@[simp] theorem execVauxRise_keepsQueue (vbatHeld s) : KeepsQueue s (execVauxRise vbatHeld s) := by
  simp [execVauxRise]

@[simp] theorem execXtalOkChange_keepsQueue (ok s) : KeepsQueue s (execXtalOkChange ok s) := by
  simp [execXtalOkChange]

@[simp] theorem execTamper_keepsQueue (sources s) : KeepsQueue s (execTamper sources s) := by
  simp [execTamper, State.tamperNow_keeps]

@[simp] theorem execKeyCommandEnd_keepsQueue (s) : KeepsQueue s (execKeyCommandEnd s) := by
  simp [execKeyCommandEnd, State.endKey_keeps]

@[simp] theorem execDebugUnlockResponse_keepsQueue (answer s) : KeepsQueue s (execDebugUnlockResponse answer s) := by
  simp only [execDebugUnlockResponse, keepsQueue_next]
  refine State.whenCore_pending s fun t => ?_
  (repeat' split) <;> simp [State.enterDebug_keeps, State.readSlot_keeps]

@[simp] theorem execDebugChallengeRenew_keepsQueue (s) : KeepsQueue s (execDebugChallengeRenew s) := by
  simp [execDebugChallengeRenew]

@[simp] theorem execSecFuseOpEnd_keepsQueue (ok s) : KeepsQueue s (execSecFuseOpEnd ok s) := by
  simp [execSecFuseOpEnd, State.endFuse_keeps]


/-- Every command keeps the queue that it is given. -/
theorem exec_keepsQueue (c : Instr) (s : State) : KeepsQueue s (exec c s) := by
  cases c <;> simp [exec]

/-- Settles O5: every command answers a next state with the queue it was given. -/
theorem queueUntouched : Obligations.QueueUntouched := by
  intro c s t h
  obtain ⟨u, hu, hq⟩ := exec_keepsQueue c s
  rw [hu] at h
  cases h
  exact hq

end Sys2Proof.Machine
end

section
/-! What the frame conditions of the statements say of the named updates, and the statements about a step, a tick and the reset
(R24, R26, R440). -/

namespace Sys2Proof.Machine

open Sys2Proof

/-! ## Frame conditions -/

theorem SameMemory.of_mem {s t : State} (h : t.mem = s.mem) : SameMemory s t := fun a => by simp only [State.byte, h]

theorem SameRegsBut.of_regs {s t : State} (h : t.regs = s.regs) (ks : List Nat) : SameRegsBut ks s t := fun k _ => by
  simp only [State.reg, h]

theorem SameRegsBut.trans {s t u : State} {ks : List Nat} (h : SameRegsBut ks s t) (h' : SameRegsBut ks t u) :
    SameRegsBut ks s u := fun k hk => (h' k hk).trans (h k hk)

theorem SameRegsBut.of_regs_right {s t u : State} {ks : List Nat} (h : SameRegsBut ks s t) (e : u.regs = t.regs) :
    SameRegsBut ks s u := h.trans (.of_regs e ks)

theorem SameRegsBut.setReg {ks : List Nat} {k : Nat} (hk : k ∈ ks) (s : State) (w : Word) : SameRegsBut ks s (s.setReg k w) :=
  fun _ hj => State.reg_setReg_other (ne_of_mem_of_not_mem hk hj).symm s w

theorem SameRegsBut.count {ks : List Nat} {k : Nat} (hk : k ∈ ks) (s : State) : SameRegsBut ks s (s.count k) := .setReg hk s _

theorem SamePortsBut.modPort (s : State) (p : LinkPort) (f : Port → Port) : SamePortsBut p s (s.modPort p f) :=
  fun _ hj => vmod_other (Ne.symm hj) s.ports f

theorem SameLanesBut.modLane (s : State) (l : LaneIx) (f : Lane → Lane) : SameLanesBut l s (s.modLane l f) :=
  fun _ hj => vmod_other (Ne.symm hj) s.lanes f

/-- `State.count` counts one event, up to the counter's greatest value. -/
theorem Counted.count (k : Nat) (s : State) : Counted k s (s.count k) := by
  simp only [Counted, State.count, State.countN, State.reg_setRegN, if_true, BitVec.toNat_ofNat]
  omega

/-- What a counter holds depends on the registers alone. -/
theorem Counted.of_regs {k : Nat} {s t u : State} (h : Counted k s t) (e : u.regs = t.regs) : Counted k s u := by
  simpa only [Counted, State.reg, e] using h

theorem State.whenCore_on {s : State} (h : s.coreOn = true) (f : State → State) : s.whenCore f = f s := by
  simp [State.whenCore, h]

/-! ## Steps, ticks and the reset -/

/-- Settles O1: this is the equation of `step` for a queue that is not empty. -/
theorem stepRunsFront : Obligations.StepRunsFront := by
  intro c s rest h
  simp only [step, h]

/-- Settles O3: nothing is listed after reset, and the empty lists are in canonical form. -/
theorem resetCanonical : Obligations.ResetCanonical :=
  ⟨⟨rfl, rfl⟩, rfl, rfl, rfl⟩

/-- The second of the clock of R440 that runs without reaching an alarm only counts PWR_RTC_SEC. -/
theorem State.rtcSecond_of_no_alarm {s : State} (supply : (s.pwr.vaux || s.pwr.vbat) = true)
    (quiet : s.reg Reg.PWR_RTC_ALARM = 0 ∨ s.reg Reg.PWR_RTC_SEC + 1 ≠ s.reg Reg.PWR_RTC_ALARM) :
    s.rtcSecond = s.setReg Reg.PWR_RTC_SEC (s.reg Reg.PWR_RTC_SEC + 1) := by
  have on : (!s.pwr.vaux && !s.pwr.vbat) = false := by rw [← Bool.not_or, supply]; rfl
  have off : ¬(s.reg Reg.PWR_RTC_ALARM ≠ 0 ∧ s.reg Reg.PWR_RTC_SEC + 1 = s.reg Reg.PWR_RTC_ALARM) :=
    fun ⟨hne, heq⟩ => quiet.elim hne fun h => h heq
  simp only [State.rtcSecond, on, off, Bool.false_eq_true, if_false]

/-- The phase of the beat after one more cycle of CCLK. -/
def State.phaseTick (s : State) : State :=
  if s.beatRuns then { s with beat := { s.beat with phase := min 100017 (s.beat.phase + 1) } } else s

theorem State.phaseTick_keeps (s : State) :
    s.phaseTick.regs = s.regs ∧ s.phaseTick.mem = s.mem ∧ s.phaseTick.ticks = s.ticks ∧ s.phaseTick.pending = s.pending ∧
      s.phaseTick.pwr = s.pwr := by
  unfold State.phaseTick
  split <;> simp

theorem idleTick_within_second {s : State} (h : s.ticks + 1 < 800000000) :
    idleTick s = { s.phaseTick with ticks := s.ticks + 1 } := by
  have e : s.phaseTick.ticks = s.ticks := s.phaseTick_keeps.2.2.1
  show (if s.phaseTick.ticks + 1 < 800000000 then { s.phaseTick with ticks := s.phaseTick.ticks + 1 } else _) = _
  rw [e, if_pos h]

theorem idleTick_at_second {s : State} (h : 800000000 ≤ s.ticks + 1) :
    idleTick s = ({ s.phaseTick with ticks := 0 } : State).rtcSecond := by
  have e : s.phaseTick.ticks = s.ticks := s.phaseTick_keeps.2.2.1
  show (if s.phaseTick.ticks + 1 < 800000000 then _ else ({ s.phaseTick with ticks := 0 } : State).rtcSecond) = _
  rw [e, if_neg (by omega)]

/-- Settles O2: within a second a tick counts only the ticks and the phase; at its end the clock of R440 counts too. -/
theorem idleStepTicks : Obligations.IdleStepTicks := by
  intro s hq
  have idle : step s = .next (idleTick s) := by simp only [step, hq]
  obtain ⟨hregs, hmem, -, hpend, hpwr⟩ := s.phaseTick_keeps
  refine ⟨fun h => ⟨_, idle, ?_⟩, fun h supply quiet => ⟨_, idle, ?_⟩⟩
  · rw [idleTick_within_second h]
    refine ⟨rfl, hpend.trans hq, .of_regs hregs _, .of_mem hmem, fun runs => ?_, fun stands => ?_⟩
    · simp [State.phaseTick, runs]
    · simp [State.phaseTick, stands]
  · have same (k : Nat) : ({ s.phaseTick with ticks := 0 } : State).reg k = s.reg k := by simp only [State.reg, hregs]
    rw [idleTick_at_second h, State.rtcSecond_of_no_alarm (by simpa only [hpwr] using supply) (by simpa only [same] using quiet),
      same]
    exact ⟨rfl, State.reg_setReg_same _ _ _, (SameRegsBut.of_regs hregs _).trans (.setReg (List.mem_singleton_self _) _ _),
      .of_mem hmem⟩

end Sys2Proof.Machine
end

section
/-! BEAT blocks and HOLDOVER (R33, R37, R45, R49): what a block leaves behind, where it is valid and where it is not. -/

namespace Sys2Proof.Machine

open Sys2Proof

@[simp] theorem asTrunk_trunk (p : TrunkPort) : asTrunk (trunk p) = some p := by simp [asTrunk, trunk]

@[simp] theorem asTrunk_loc (n : LocalPort) : asTrunk (loc n) = none := by simp [asTrunk, loc]

/-- A block with another PEP, or from the other side of a joint, is not valid (R37, R49). -/
theorem State.beatValid_of_parted {p : TrunkPort} {pep : BitVec 4} (s : State) (num : Word) (late : Int)
    (h : pep ≠ s.pep ∨ s.otherSide p = true) : s.beatValid p num pep late = false := by
  rcases h with h | h <;> simp [State.beatValid, h]

/-- A block taken is kept for its port, whatever it does to the timing. -/
theorem State.takeBeat_rx (s : State) (p : TrunkPort) (hops : BitVec 6) (hold : Bool) (ofs : BitVec 10) (late : Int) :
    (s.takeBeat p hops hold ofs late).beat.rx[p] = some { hops := hops, hold := hold, head := s.heads + if late < 0 then 1 else 0 } := by
  unfold State.takeBeat
  dsimp only
  (repeat' split) <;> exact vset_same _ _ _

/-- On the PLL a trunk port takes a valid block and measures and counts every other one. -/
theorem exec_beatBlockReceived_trunk {s : State} (core : s.coreOn = true) (pll : s.pllOn = true) (p : TrunkPort) (num : Word)
    (hops : BitVec 6) (hold : Bool) (ofs : BitVec 10) (pep : BitVec 4) (late : Int) :
    exec (.beatBlockReceived (trunk p) num hops hold ofs pep late) s = .next (if s.beatValid p num pep late then
      s.takeBeat p hops hold ofs late else (s.measureBeat p num ofs late).count Reg.BEAT_BLK_BAD) := by
  simp [exec, execBeatBlockReceived, State.whenCore_on core, pll]

/-- On the PLL a local port counts every block (R37). -/
theorem exec_beatBlockReceived_local {s : State} (core : s.coreOn = true) (pll : s.pllOn = true) (n : LocalPort) (num : Word)
    (hops : BitVec 6) (hold : Bool) (ofs : BitVec 10) (pep : BitVec 4) (late : Int) :
    exec (.beatBlockReceived (loc n) num hops hold ofs pep late) s = .next (s.count Reg.BEAT_BLK_BAD) := by
  simp [exec, execBeatBlockReceived, State.whenCore_on core, pll]

/-- Settles O8: a valid block is taken, one that is not is measured and counted, and HOLDOVER begins with its count. -/
theorem beatBlockRules : Obligations.BeatBlockRules := by
  intro s core
  refine ⟨fun pll p num hops hold ofs late up same number early late' => ?_, fun pll n num hops hold ofs pep late => ?_,
    fun pll p num hops hold ofs pep late parted => ?_, fun tracking old => ?_⟩
  · have valid : s.beatValid p num s.pep late = true := by simp [State.beatValid, up, same, number, early, late']
    refine ⟨s.takeBeat p hops hold ofs late, ?_, s.takeBeat_rx p hops hold ofs late, .of_regs ?_ _, .of_mem ?_⟩
    · rw [exec_beatBlockReceived_trunk core pll, if_pos valid]
    all_goals simp [State.takeBeat_keeps]
  · exact ⟨s.count Reg.BEAT_BLK_BAD, exec_beatBlockReceived_local core pll .., .count _ s, by simp, .count (by simp) s,
      .of_mem (by simp)⟩
  · have invalid := s.beatValid_of_parted num late parted
    refine ⟨(s.measureBeat p num ofs late).count Reg.BEAT_BLK_BAD, ?_, .count _ (s.measureBeat p num ofs late), rfl, rfl,
      ⟨_, vset_same _ _ _⟩, .count (by simp) (s.measureBeat p num ofs late), .of_mem rfl⟩
    rw [exec_beatBlockReceived_trunk core pll, if_neg (by simp [invalid])]
  · refine ⟨_, rfl, ?_⟩
    simp only [State.whenCore_on core, tracking, old, decide_true, Bool.and_true, if_true]
    exact ⟨rfl, rfl, .count _ _, .count (by simp) _, .of_mem rfl⟩

end Sys2Proof.Machine
end

section
/-! Alignment markers and ECHO blocks (R34, R61, R65, R71-R73): what each command does where it takes effect. -/

namespace Sys2Proof.Machine

open Sys2Proof

/-- A mark set of one valid mark within the lag that a deskew covers deskews its lane and counts nothing (R73). -/
theorem State.deskew_single {mk : AmkMark} (h : mk.lag ≤ 64) (s : State) (p : LinkPort) :
    s.deskew p [mk] mk = s.modLane (laneAt p mk.lane.val) fun x => { x with skew := some mk.lag } := by
  simp [State.deskew, State.over, State.deskewLane, h]

/-- In LOCK and CAPX marks only deskew: the sets in force are for a port in service (R101). -/
theorem exec_amkReceived_single {s : State} {port : LinkPort} {mk : AmkMark} (core : s.coreOn = true) (tvl : s.isTvl port = true)
    (stage : s.ports[port].stage = .lock ∨ s.ports[port].stage = .capx) (width : mk.width ≠ 3) (lag : mk.lag ≤ 64) (since : Nat) :
    exec (.amkReceived port [mk] since) s =
      .next ((s.modLane (laneAt port mk.lane.val) fun x => { x with skew := some mk.lag }).restripe port) := by
  have valid : validMarks [mk] = [mk] := by simpa [validMarks] using width
  rcases stage with stage | stage <;>
    simp [-Fin.getElem_fin, exec, execAmkReceived, State.whenCore_on core, valid, lowestMark, tvl, stage, State.deskew_single lag]

theorem exec_amkSend {s : State} {port : LinkPort} (core : s.coreOn = true) (tvl : s.isTvl port = true)
    (stage : s.ports[port].stage = .lock ∨ s.ports[port].stage = .capx ∨ s.ports[port].stage = .active ∨
      s.ports[port].stage = .degraded) (set : s.ports[port].txLanes ≠ 0) :
    exec (.amkSend port) s = .next (s.sendAmk port true) := by
  rcases stage with stage | stage | stage | stage <;> simp_all [exec, execAmkSend, State.whenCore_on core]

/-- An AMK carries the sets of its port and the next number (R72). -/
theorem State.sendAmk_ports (s : State) (p : LinkPort) (scheduled : Bool) :
    (s.sendAmk p scheduled).ports = (s.modPort p fun x => { x with amkTx := x.amkTx + 1 }).ports := rfl

theorem State.sendAmk_sent (s : State) (p : LinkPort) (scheduled : Bool) : (s.sendAmk p scheduled).sent =
    .amk p s.ports[p].txLanes s.ports[p].txWidth (s.ports[p].amkTx + 1) scheduled :: s.sent := by
  simp [State.sendAmk, State.emit, State.modPort]

theorem exec_echoRequestSend {s : State} {port : LinkPort} (core : s.coreOn = true) (up : s.portUp port = true)
    (tvl : s.isTvl port = true) (due : s.cadence s.ports[port].reqHead 2 = true) :
    exec (.echoRequestSend port) s = .next ((s.modPort port fun x =>
      { x with eseq := s.ports[port].eseq + 1, echoReq := some (s.ports[port].eseq + 1, s.heads), reqHead := some s.heads }).emit
        (.echoRequest port (s.ports[port].eseq + 1))) := by
  simp_all [exec, execEchoRequestSend, State.whenCore_on core]

theorem exec_echoRequestReceived {s : State} {port : LinkPort} (core : s.coreOn = true) (up : s.portUp port = true)
    (tvl : s.isTvl port = true) (lane : Fin 4) (eseq : BitVec 7) (turn : BitVec 24) :
    exec (.echoRequestReceived port lane eseq turn) s = .next (s.emit (.echoReply port lane eseq turn)) := by
  simp [exec, execEchoRequestReceived, State.whenCore_on core, up, tvl]

/-- The measurements of a trunk port, the last eight, after one more (R34). -/
def delaysAfter (ds : List Nat) (d : Nat) : List Nat := (ds ++ [d]).drop ((ds ++ [d]).length - 8)

theorem delaysAfter_of_few {ds : List Nat} (h : ds.length < 8) (d : Nat) : delaysAfter ds d = ds ++ [d] := by
  have none_over : (ds ++ [d]).length - 8 = 0 := by simp; omega
  rw [delaysAfter, none_over, List.drop_zero]

theorem delaysAfter_of_eight {ds : List Nat} (h : ds.length = 8) (d : Nat) : delaysAfter ds d = ds.drop 1 ++ [d] := by
  have one_over : (ds ++ [d]).length - 8 = 1 := by simp [h]
  rw [delaysAfter, one_over, List.drop_append_of_le_length (by omega)]

/-- The reply that ends the outstanding request gives its trunk port one delay (R65). -/
theorem exec_echoReplyReceived {s : State} {p : TrunkPort} {eseq : BitVec 7} {h : Nat} (core : s.coreOn = true)
    (outstanding : s.ports[trunk p].echoReq = some (eseq, h)) (soon : s.heads ≤ h + 2) (turn : BitVec 24) (rt : Nat) :
    exec (.echoReplyReceived (trunk p) eseq turn rt) s =
      .next { (s.modPort (trunk p) fun x => { x with echoReq := none }) with
        beat := { s.beat with delays := vset s.beat.delays p (delaysAfter s.beat.delays[p] ((rt - turn.toNat) / 2)) } } := by
  have timely : ¬h + 2 < s.heads := by omega
  simp [-Fin.getElem_fin, exec, execEchoReplyReceived, State.whenCore_on core, outstanding, timely, delaysAfter, State.modPort]

theorem exec_delayUpdate {s : State} {p : TrunkPort} (core : s.coreOn = true) (some_measured : s.beat.delays[p] ≠ [])
    (due : s.beat.delayHead[p] + 16 ≤ s.heads) :
    exec (.delayUpdate p) s = .next (({ s with beat := { s.beat with delayHead := vset s.beat.delayHead p s.heads } } : State).setRegN
      (Reg.BEAT_DLY p.val) (min 0xFFFFF (s.beat.delays[p].sum / s.beat.delays[p].length))) := by
  have not_early : ¬s.heads < s.beat.delayHead[p] + 16 := by omega
  simp [-Fin.getElem_fin, exec, execDelayUpdate, State.whenCore_on core, some_measured, not_early]

/-- Settles O15: each command's effect, read off its equation above. -/
theorem markersAndDelay : Obligations.MarkersAndDelay := by
  refine ⟨fun s port core tvl => ⟨fun mk since stage width lag => ?_, fun stage set => ?_⟩,
    fun s core => ⟨fun port up tvl => ⟨fun due => ?_, fun lane eseq turn => exec_echoRequestReceived core up tvl lane eseq turn⟩,
      fun p eseq turn rt h outstanding soon => ?_, fun p some_measured due => ?_⟩⟩
  · refine ⟨_, exec_amkReceived_single core tvl stage width lag since, ?_, .modLane s _ _, .of_regs rfl _, rfl, .of_mem rfl⟩
    exact congrArg Lane.skew (vmod_same s.lanes (laneAt port mk.lane.val) fun x => { x with skew := some mk.lag })
  · refine ⟨_, exec_amkSend core tvl stage set, ?_, s.sendAmk_sent port true, .modPort s port _, rfl, .of_regs rfl _, .of_mem rfl⟩
    rw [State.sendAmk_ports]
    exact congrArg Port.amkTx (vmod_same s.ports port fun x => { x with amkTx := x.amkTx + 1 })
  · exact ⟨_, exec_echoRequestSend core up tvl due, congrArg Port.eseq (vmod_same s.ports port _),
      congrArg Port.echoReq (vmod_same s.ports port _), rfl, .modPort s port _, .of_regs rfl _, .of_mem rfl⟩
  · refine ⟨_, exec_echoReplyReceived core outstanding soon turn rt, congrArg Port.echoReq (vmod_same s.ports (trunk p) _),
      fun few => ?_, fun eight => ?_, .modPort s (trunk p) _, .of_regs rfl _, .of_mem rfl⟩
    · exact (vset_same _ p _).trans (delaysAfter_of_few few _)
    · exact (vset_same _ p _).trans (delaysAfter_of_eight eight _)
  · refine ⟨_, exec_delayUpdate core some_measured due, ?_, rfl, vset_same s.beat.delayHead p s.heads, .setReg (by simp) _ _,
      .of_mem rfl⟩
    have fits : min 0xFFFFF (s.beat.delays[p].sum / s.beat.delays[p].length) < 2 ^ 32 := by omega
    rw [State.reg_setRegN, if_pos rfl, BitVec.toNat_ofNat, Nat.mod_eq_of_lt fits]

end Sys2Proof.Machine
end

section
/-! Commits and cancels (R39-R41): from a master's write of BEAT_CMT_CMD to its result. -/

namespace Sys2Proof.Machine

open Sys2Proof

/-! ## A register write that takes effect -/

theorem leNat_leBytes (n v : Nat) : leNat (leBytes n v) = v % 256 ^ n := by
  induction n generalizing v with
  | zero => simp [leBytes, leNat, Nat.mod_one]
  | succ n ih =>
    have byte : v % 256 % 2 ^ 8 = v % 256 := by omega
    rw [leBytes, leNat, ih, BitVec.toNat_ofNat, byte, pow_succ', Nat.mod_mul]

/-- Before a write acts only access control changes: the capture ends and the arming is spent. -/
theorem State.writing_eq (s : State) (m : Master) : ∃ a, s.writing m = { s with acc := a } := by
  unfold State.writing State.spend State.setUnlock
  split <;> exact ⟨_, rfl⟩

/-- A command of a master that its register takes is answered by nothing but the write of the register's fields. -/
theorem State.commandN_of_takes {s : State} {m : Master} {a : Nat} {r : RegRow} (takes : s.Takes m a) (row : regRow a = some r)
    (direct : a < 0x1000000) (aligned : a % 4 = 0) (other : a ≠ Reg.GLB_UNLOCK) (n : Nat) :
    s.commandN m a n = (s.writing m).writeFields m r a 0xFFFFFFFF (BitVec.ofNat 32 n) := by
  obtain ⟨⟨-, made, alive, role, ok⟩, r', row', free⟩ := takes
  obtain rfl : r' = r := Option.some.inj (row'.symm.trans row)
  have space : inRegSpace a = true := by simp [inRegSpace]; omega
  have word (w : Word) : BitVec.ofNat 32 (leNat (leBytes 4 w.toNat)) = w := by
    have short : w.toNat < 256 ^ 4 := w.isLt
    rw [leNat_leBytes, Nat.mod_eq_of_lt short, BitVec.ofNat_toNat, BitVec.setWidth_eq]
  have written : s.regOne m true a 4 (BitVec.ofNat 32 n) =
      ((s.writing m).writeFields m r' a 0xFFFFFFFF (BitVec.ofNat 32 n), .done) := by
    simp only [State.writing] at free
    simp [State.regOne, direct, State.writeDirect, other, row, State.tryWrite, free, State.writing]
  have performed : s.writeAccess m a (BitVec.ofNat 32 n) =
      ((s.writing m).writeFields m r' a 0xFFFFFFFF (BitVec.ofNat 32 n), .done) := by
    simp [-BitVec.toNat_ofNat, State.writeAccess, State.access, made, State.roleAccess, alive, role, State.checked, ok, space,
      State.perform, State.regSpace, aligned, word, written]
  rw [State.commandN, State.command, performed, State.answered]

/-! ## BEAT_CMT_CMD -/

/-- The row of BEAT_CMT_CMD: one register for all masters that stores nothing of what is written (Table BEA-11). -/
def cmtRow : RegRow := row 0x010048 [] [(.cmd, 2147484671)] 0

theorem regRow_cmtCmd : regRow Reg.BEAT_CMT_CMD = some cmtRow := by decide

/-- The write of a register that stores nothing leaves it as it was and only commands. -/
theorem State.writeFields_of_stores_nothing {s : State} {r : RegRow} {a : Nat} (h : s.regsWf = true) (nothing : s.storedBits r = 0)
    (out : inWindow a = false) (m : Master) (data : Word) :
    s.writeFields m r a 0xFFFFFFFF data = s.wrote m a (s.reg (regKey r m a)) (s.reg (regKey r m a)) data := by
  have all (w : Word) : w &&& BitVec.ofNat 32 0xFFFFFFFF = w := BitVec.and_allOnes
  have none_new (w v : Word) : (w &&& ~~~BitVec.ofNat 32 (0 &&& 0xFFFFFFFF)) ||| (v &&& BitVec.ofNat 32 (0 &&& 0xFFFFFFFF)) = w := by
    simp only [Nat.zero_and, BitVec.not_zero, BitVec.and_allOnes, BitVec.and_zero, BitVec.or_zero]
  simp only [State.writeFields, out, nothing, none_new, all, Bool.false_eq_true, if_false, State.setReg_self _ _ h]

/-- A write of BEAT_CMT_CMD that its register takes is the command that it names (R40, R42). -/
theorem State.commandN_cmtCmd {s : State} {m : Master} (inv : s.Inv) (takes : s.Takes m Reg.BEAT_CMT_CMD) (n : Nat) :
    s.commandN m Reg.BEAT_CMT_CMD n = (s.writing m).commitCommand m (BitVec.ofNat 32 n) := by
  obtain ⟨a, writing⟩ := s.writing_eq m
  have wf : (s.writing m).regsWf = true := by rw [writing]; exact inv.2
  have nothing : (s.writing m).storedBits cmtRow = 0 := by
    unfold State.storedBits
    split <;> rfl
  rw [State.commandN_of_takes takes regRow_cmtCmd (by decide) (by decide) (by decide),
    State.writeFields_of_stores_nothing wf nothing (by decide)]
  rfl

theorem State.exec_commit {s : State} {m : Master} (inv : s.Inv) (takes : s.Takes m Reg.BEAT_CMT_CMD) (g : BitVec 8) :
    exec (.beatCommit m g) s = .next ((s.writing m).commitAt m g.toNat ((s.writing m).commitTarget m)) := by
  have op : bitsOf (BitVec.ofNat 32 (g.toNat + 0x100)) 9 8 = 1 := by simp [bitsOf]; omega
  have group : bitsOf (BitVec.ofNat 32 (g.toNat + 0x100)) 7 0 = g.toNat := by simp [bitsOf]; omega
  simp only [exec, execBeatCommit, State.whenCore_on takes.1.1, State.commandN_cmtCmd inv takes, State.commitCommand, op, group]

theorem State.exec_cancel {s : State} {m : Master} (inv : s.Inv) (takes : s.Takes m Reg.BEAT_CMT_CMD) (g : BitVec 8) :
    exec (.beatCancel m g) s = .next ((s.writing m).cancelGroup m g.toNat) := by
  have op : bitsOf (BitVec.ofNat 32 (g.toNat + 0x200)) 9 8 = 2 := by simp [bitsOf]; omega
  have group : bitsOf (BitVec.ofNat 32 (g.toNat + 0x200)) 7 0 = g.toNat := by simp [bitsOf]; omega
  simp only [exec, execBeatCancel, State.whenCore_on takes.1.1, State.commandN_cmtCmd inv takes, State.commitCommand, op, group]

/-! ## The result of a commit or a cancel -/

theorem pmKey_ne_refused (m : Master) : pmKey m Reg.BEAT_CMT_RESULT ≠ Reg.BEAT_CMT_REFUSED := by
  simp only [pmKey, Reg.BEAT_CMT_RESULT, Reg.BEAT_CMT_REFUSED]; omega

theorem State.commitResult_frame (s : State) (m : Master) (g code : Nat) :
    (s.commitResult m g code).beat = s.beat ∧ (s.commitResult m g code).sched = s.sched ∧
      (s.commitResult m g code).lanes = s.lanes ∧ (s.commitResult m g code).ports = s.ports ∧
      (s.commitResult m g code).mem = s.mem := by
  simp [State.commitResult_keeps]

theorem State.commitResult_reg (s : State) (m : Master) (g code : Nat) :
    (s.commitResult m g code).reg (pmKey m Reg.BEAT_CMT_RESULT) = BitVec.ofNat 32 (code + 16 * g) := by
  unfold State.commitResult
  split
  · exact State.reg_setReg_same _ _ _
  · rw [State.reg_count_other (pmKey_ne_refused m)]
    exact State.reg_setReg_same _ _ _

theorem State.commitResult_counted {code : Nat} (refused : code ≠ 1) (s : State) (m : Master) (g : Nat) :
    Counted Reg.BEAT_CMT_REFUSED s (s.commitResult m g code) := by
  have before : (s.setRegN (pmKey m Reg.BEAT_CMT_RESULT) (code + 16 * g)).reg Reg.BEAT_CMT_REFUSED = s.reg Reg.BEAT_CMT_REFUSED :=
    State.reg_setReg_other (pmKey_ne_refused m).symm s _
  have counted := Counted.count Reg.BEAT_CMT_REFUSED (s.setRegN (pmKey m Reg.BEAT_CMT_RESULT) (code + 16 * g))
  simpa only [Counted, State.commitResult, refused, if_false, before] using counted

theorem State.commitResult_regsBut (s : State) (m : Master) (g code : Nat) :
    SameRegsBut [pmKey m Reg.BEAT_CMT_RESULT, Reg.BEAT_CMT_REFUSED] s (s.commitResult m g code) := by
  have shown : SameRegsBut [pmKey m Reg.BEAT_CMT_RESULT, Reg.BEAT_CMT_REFUSED] s
      (s.setRegN (pmKey m Reg.BEAT_CMT_RESULT) (code + 16 * g)) := .setReg (List.mem_cons_self ..) s _
  unfold State.commitResult
  split
  · exact shown
  · exact shown.trans (.count (by simp) _)

/-- The answer to a commit or a cancel in the registers: code and group in the master's result, and a refusal counted (R41). -/
structure CommitAnswered (s t : State) (m : Master) (g code : Nat) : Prop where
  result : t.reg (pmKey m Reg.BEAT_CMT_RESULT) = BitVec.ofNat 32 (code + 16 * g)
  counted : code ≠ 1 → Counted Reg.BEAT_CMT_REFUSED s t
  regs : SameRegsBut [pmKey m Reg.BEAT_CMT_RESULT, Reg.BEAT_CMT_REFUSED] s t
  mem : SameMemory s t

/-- What changed before the result was not of registers and memory: then the result is the whole answer in them. -/
theorem State.commitResult_answers {s u : State} (regs : u.regs = s.regs) (mem : u.mem = s.mem) (m : Master) (g code : Nat) :
    CommitAnswered s (u.commitResult m g code) m g code where
  result := u.commitResult_reg m g code
  counted refused := by simpa only [Counted, State.reg, regs] using u.commitResult_counted refused m g
  regs := (SameRegsBut.of_regs regs _).trans (u.commitResult_regsBut m g code)
  mem := .of_mem ((u.commitResult_frame m g code).2.2.2.2.trans mem)

/-- A commit is answered by its code, and added to the pending commits exactly where the code is 1. -/
theorem State.exec_commit_answered {s : State} {m : Master} (inv : s.Inv) (takes : s.Takes m Reg.BEAT_CMT_CMD) (g : BitVec 8) :
    ∃ u : State, exec (.beatCommit m g) s = .next (u.commitResult m g.toNat (s.commitCode g.toNat (s.commitTarget m))) ∧
      u.regs = s.regs ∧ u.mem = s.mem ∧ u.sched = s.sched ∧ u.lanes = s.lanes ∧ u.ports = s.ports ∧
      u.beat = (if s.commitCode g.toNat (s.commitTarget m) = 1 then { s.beat with commits := s.beat.commits ++
        [{ group := g, target := BitVec.ofNat 48 (s.commitTarget m), master := m }] } else s.beat) := by
  obtain ⟨a, writing⟩ := s.writing_eq m
  have run := State.exec_commit inv takes g
  rw [writing] at run
  refine ⟨_, run, ?_⟩
  have code : ({ s with acc := a } : State).commitCode g.toNat (({ s with acc := a } : State).commitTarget m) =
    s.commitCode g.toNat (s.commitTarget m) := rfl
  rw [code]
  have target : ({ s with acc := a } : State).commitTarget m = s.commitTarget m := rfl
  split <;> simp [target]

/-- A cancel is answered by its code, and takes the group's commit away exactly where the code is 1. -/
theorem State.exec_cancel_answered {s : State} {m : Master} (inv : s.Inv) (takes : s.Takes m Reg.BEAT_CMT_CMD) (g : BitVec 8) :
    ∃ u : State, exec (.beatCancel m g) s = .next (u.commitResult m g.toNat (s.cancelCode g.toNat)) ∧
      u.regs = s.regs ∧ u.mem = s.mem ∧ u.beat = (if s.cancelCode g.toNat = 1 then
        { s.beat with commits := s.beat.commits.filter fun c => c.group.toNat != g.toNat } else s.beat) := by
  obtain ⟨a, writing⟩ := s.writing_eq m
  have run := State.exec_cancel inv takes g
  rw [writing] at run
  refine ⟨_, run, ?_⟩
  have code : ({ s with acc := a } : State).cancelCode g.toNat = s.cancelCode g.toNat := rfl
  rw [code]
  split <;> simp

/-- Settles O10: the code of the first failing check, or 1, is the whole answer. -/
theorem commitCommands : Obligations.CommitCommands := by
  intro s m g inv takes
  constructor
  · obtain ⟨u, run, regs, mem, -, -, -, beat⟩ := State.exec_commit_answered inv takes g
    have answer := State.commitResult_answers regs mem m g.toNat (s.commitCode g.toNat (s.commitTarget m))
    refine ⟨_, run, answer.result, ?_, answer.counted, answer.regs, answer.mem⟩
    rw [(u.commitResult_frame m _ _).1, beat]
    split <;> rfl
  · obtain ⟨u, run, regs, mem, beat⟩ := State.exec_cancel_answered inv takes g
    have answer := State.commitResult_answers regs mem m g.toNat (s.cancelCode g.toNat)
    refine ⟨_, run, answer.result, ?_, answer.counted, answer.regs, answer.mem⟩
    rw [(u.commitResult_frame m _ _).1, beat]
    split <;> rfl

/-- Settles O11: without the code 1 nothing is added, and the result is the only change. -/
theorem refusedCommitChangesNothing : Obligations.RefusedCommitChangesNothing := by
  intro s m g inv takes refused
  obtain ⟨u, run, regs, mem, sched, lanes, ports, beat⟩ := State.exec_commit_answered inv takes g
  have answer := State.commitResult_answers regs mem m g.toNat (s.commitCode g.toNat (s.commitTarget m))
  obtain ⟨beat', sched', lanes', ports', -⟩ := u.commitResult_frame m g.toNat (s.commitCode g.toNat (s.commitTarget m))
  rw [if_neg refused] at beat
  exact ⟨_, run, answer.counted refused, answer.regs, answer.mem, beat'.trans beat, sched'.trans sched, lanes'.trans lanes,
    ports'.trans ports⟩

end Sys2Proof.Machine
end

section
/-! The end of a Geode command (R326-R334, R343, R344): the commit word, the slots and associations that a command leaves, and its
result. -/

namespace Sys2Proof.Machine

open Sys2Proof

/-! ## The commit word (R334) -/

/-- The commit word's low 17 bits are GEN and the active bank; its high byte is the CRC-8 over the rest. -/
theorem commitWord_toNat (gen : BitVec 16) (active : Bool) : (commitWord gen active).toNat =
    gen.toNat + b2n active * 2 ^ 16 + (crc8 (leBytes 3 (gen.toNat + b2n active * 2 ^ 16))).toNat * 2 ^ 24 := by
  have hgen := gen.isLt
  have hcrc := (crc8 (leBytes 3 (gen.toNat + b2n active * 2 ^ 16))).isLt
  have hact : b2n active ≤ 1 := by cases active <;> decide
  rw [commitWord, BitVec.toNat_ofNat]
  omega

theorem bitsOf_commitWord_low (gen : BitVec 16) (active : Bool) :
    bitsOf (commitWord gen active) 23 0 = gen.toNat + b2n active * 2 ^ 16 := by
  have hgen := gen.isLt
  have hact : b2n active ≤ 1 := by cases active <;> decide
  rw [bitsOf, commitWord_toNat]
  omega

theorem bitsOf_commitWord_crc (gen : BitVec 16) (active : Bool) :
    bitsOf (commitWord gen active) 31 24 = (crc8 (leBytes 3 (gen.toNat + b2n active * 2 ^ 16))).toNat := by
  have hgen := gen.isLt
  have hcrc := (crc8 (leBytes 3 (gen.toNat + b2n active * 2 ^ 16))).isLt
  have hact : b2n active ≤ 1 := by cases active <;> decide
  rw [bitsOf, commitWord_toNat]
  omega

@[simp] theorem KeySlot.commits_commitOk (k : KeySlot) (gen : BitVec 16) (active : Bool) :
    (k.commits gen active).commitOk = true := by
  simp [KeySlot.commitOk, KeySlot.commits, bitsOf_commitWord_low, bitsOf_commitWord_crc]

@[simp] theorem KeySlot.commits_gen (k : KeySlot) (gen : BitVec 16) (active : Bool) : (k.commits gen active).gen = gen := by
  apply BitVec.eq_of_toNat_eq
  have hgen := gen.isLt
  rw [KeySlot.gen, KeySlot.commits, BitVec.toNat_setWidth, commitWord_toNat]
  omega

@[simp] theorem KeySlot.commits_active (k : KeySlot) (gen : BitVec 16) (active : Bool) : (k.commits gen active).active = active := by
  have hgen := gen.isLt
  have bit : bitsOf (commitWord gen active) 16 16 = b2n active := by
    have hact : b2n active ≤ 1 := by cases active <;> decide
    rw [bitsOf, commitWord_toNat]
    omega
  rw [KeySlot.active, KeySlot.commits, bit_eq_bitsOf, bit]
  cases active <;> rfl

/-! ## A slot after an update, a zeroing and a raise -/

/-- An updated slot holds the new key under the next GEN (R328, R334). -/
theorem KeySlot.update_spec (k : KeySlot) (attr : BitVec 18) (parent : BitVec 8) (pgen : BitVec 16) (value : List Byte) :
    (k.update attr parent pgen value).valid = true ∧ (k.update attr parent pgen value).live.attr = attr ∧
      (k.update attr parent pgen value).live.value = value ∧ (k.update attr parent pgen value).gen = k.gen + 1 := by
  simp only [KeySlot.update, KeySlot.valid, KeySlot.live, KeySlot.commits_commitOk, KeySlot.commits_active, KeySlot.commits_gen]
  cases k.active <;> simp [KeySlot.commits, KeyBank.sealed]

/-- A zeroed slot holds no key; its GEN has risen (R328). -/
theorem KeySlot.zeroed_spec (k : KeySlot) : k.zeroed.valid = false ∧ k.zeroed.gen = k.gen + 1 := by
  simp only [KeySlot.zeroed, KeySlot.valid, KeySlot.live, KeySlot.commits_commitOk, KeySlot.commits_active, KeySlot.commits_gen]
  cases k.active <;> simp [KeySlot.commits, KeyBank.sealed, KeyBank.empty]

theorem KeySlot.raised_gen (k : KeySlot) : k.raised.gen = k.gen + 1 := k.commits_gen _ _

/-- Two slots that differ at most in their marks: the same banks under the same commit word. -/
def KeySlot.SameKey (k x : KeySlot) : Prop := x.bank0 = k.bank0 ∧ x.bank1 = k.bank1 ∧ x.commit = k.commit

theorem KeySlot.SameKey.spec {k x : KeySlot} (h : k.SameKey x) : x.valid = k.valid ∧ x.live = k.live ∧ x.gen = k.gen := by
  obtain ⟨h0, h1, hc⟩ := h
  simp [KeySlot.valid, KeySlot.commitOk, KeySlot.live, KeySlot.active, KeySlot.gen, h0, h1, hc]

/-! ## The slots of a state -/

theorem State.slot_modSlot_same (s : State) (k : BitVec 8) (f : KeySlot → KeySlot) : (s.modSlot k f).slot k = f (s.slot k) :=
  vmod_same s.geode.slots ⟨k.toNat, by omega⟩ f

theorem State.slot_modSlot_other {j k : BitVec 8} (h : j ≠ k) (s : State) (f : KeySlot → KeySlot) :
    (s.modSlot k f).slot j = s.slot j := by
  have apart : (⟨k.toNat, by omega⟩ : Fin 256) ≠ ⟨j.toNat, by omega⟩ := fun e =>
    h (BitVec.eq_of_toNat_eq (Fin.val_eq_of_eq e).symm)
  exact vmod_other apart s.geode.slots f

/-- The marks of a cascade change no key (R333). -/
theorem State.slot_markCascade (s : State) (p k : BitVec 8) : (s.slot k).SameKey ((s.markCascade p).slot k) := by
  simp only [KeySlot.SameKey, State.slot, State.markCascade, State.markPending, Vector.getElem_ofFn, Fin.getElem_fin]
  (repeat' split) <;> simp

/-- A created key fills its slot with its attributes and value under the next GEN. -/
theorem State.slot_createKey (s : State) (k : BitVec 8) (attr : BitVec 18) (parent : Option (BitVec 8)) (value : List Byte) :
    ((s.createKey k attr parent value).slot k).valid = true ∧ ((s.createKey k attr parent value).slot k).live.attr = attr ∧
      ((s.createKey k attr parent value).slot k).live.value = value ∧
      ((s.createKey k attr parent value).slot k).gen = (s.slot k).gen + 1 := by
  cases parent with
  | none =>
    rw [State.createKey, State.slot_modSlot_same]
    exact KeySlot.update_spec ..
  | some p =>
    rw [State.createKey, State.slot_modSlot_same]
    have marked (y : KeySlot) (a b : Bool) : y.SameKey { y with pending := a, cascade := b } := ⟨rfl, rfl, rfl⟩
    obtain ⟨valid, live, gen⟩ := (marked ((s.slot k).update attr p (s.slot p).gen value) _ _).spec
    rw [valid, live, gen]
    exact KeySlot.update_spec ..

theorem State.slot_putKey (s : State) (c : KeyCommand) (parent : Option (BitVec 8)) (value : List Byte) :
    ((s.putKey c parent value).slot c.slot).valid = true ∧ ((s.putKey c parent value).slot c.slot).live.attr = c.attr ∧
      ((s.putKey c parent value).slot c.slot).live.value = value ∧
      ((s.putKey c parent value).slot c.slot).gen = (s.slot c.slot).gen + 1 := by
  unfold State.putKey
  split
  · rw [← (s.slot_markCascade c.slot c.slot).spec.2.2]
    exact State.slot_createKey ..
  · exact State.slot_createKey ..

theorem State.slot_zeroKey (s : State) (k : BitVec 8) :
    ((s.zeroKey k).slot k).valid = false ∧ ((s.zeroKey k).slot k).gen = (s.slot k).gen + 1 := by
  rw [State.zeroKey, State.slot_modSlot_same, ← (s.slot_markCascade k k).spec.2.2]
  exact KeySlot.zeroed_spec _

/-! ## Reading operands (R334) -/

/-- A slot whose commit word is good is read as it is. -/
theorem State.readSlot_of_ok {s : State} {k : BitVec 8} (h : (s.slot k).commitOk = true) : s.readSlot k = s := by
  simp [State.readSlot, h]

theorem State.over_readSlot_of_ok {s : State} {l : List (BitVec 8)} (h : ∀ j ∈ l, (s.slot j).commitOk = true) :
    s.over l State.readSlot = s := by
  induction l with
  | nil => rfl
  | cons j l ih =>
    obtain ⟨hj, hl⟩ := List.forall_mem_cons.mp h
    simpa [State.over, State.readSlot_of_ok hj] using ih hl

/-! ## The work list -/

/-- The commands of Geode that have not ended stay as they are. -/
def State.SameWork (s t : State) : Prop := t.geode.running = s.geode.running ∧ t.geode.queue = s.geode.queue

theorem State.SameWork.of_geode {s t : State} (h : t.geode = s.geode) : s.SameWork t := by simp [State.SameWork, h]

theorem State.SameWork.trans {s t u : State} (h : s.SameWork t) (h' : t.SameWork u) : s.SameWork u :=
  ⟨h'.1.trans h.1, h'.2.trans h.2⟩

theorem State.modSlot_sameWork (s : State) (k : BitVec 8) (f : KeySlot → KeySlot) : s.SameWork (s.modSlot k f) := by
  simp [State.SameWork, State.modSlot]

theorem State.markCascade_sameWork (s : State) (p : BitVec 8) : s.SameWork (s.markCascade p) := by
  simp [State.SameWork, State.markCascade, State.markPending]

theorem State.createKey_sameWork (s : State) (k : BitVec 8) (attr : BitVec 18) (parent : Option (BitVec 8)) (value : List Byte) :
    s.SameWork (s.createKey k attr parent value) := by
  cases parent <;> exact s.modSlot_sameWork k _

theorem State.putKey_sameWork (s : State) (c : KeyCommand) (parent : Option (BitVec 8)) (value : List Byte) :
    s.SameWork (s.putKey c parent value) := by
  unfold State.putKey
  split
  · exact (s.markCascade_sameWork c.slot).trans (State.createKey_sameWork ..)
  · exact s.createKey_sameWork ..

theorem State.setRegN_sameWork (s : State) (k n : Nat) : s.SameWork (s.setRegN k n) := .of_geode (by simp)

theorem State.putKeyData_sameWork (s : State) (m : Master) (bs : List Byte) : s.SameWork (s.putKeyData m bs) :=
  .of_geode (by simp [State.putKeyData_keeps])

theorem State.retireAssoc_sameWork (s : State) (p : LinkPort) (transmit : Bool) (sa : BitVec 8) :
    s.SameWork (s.retireAssoc p transmit sa) := by
  simp [State.SameWork, State.retireAssoc]

theorem State.installAssoc_sameWork (s : State) (p : LinkPort) (transmit : Bool) (sa k : BitVec 8) :
    s.SameWork (s.installAssoc p transmit sa k) := by
  simp [State.SameWork, State.installAssoc]

/-- No command of KEY_CMD touches the commands that wait behind it. -/
theorem State.doKey_sameWork (s : State) (c : KeyCommand) : s.SameWork (s.doKey c) := by
  have drawn : s.SameWork s.drawn := .of_geode rfl
  unfold State.doKey
  dsimp only
  split
  case h_1 | h_6 => exact s.putKey_sameWork ..
  case h_2 => exact (s.markCascade_sameWork c.slot).trans (State.modSlot_sameWork ..)
  case h_3 => exact s.putKeyData_sameWork ..
  case h_4 => exact drawn.trans (State.putKeyData_sameWork ..)
  case h_5 => exact (drawn.trans (State.putKey_sameWork ..)).trans (State.putKeyData_sameWork ..)
  case h_7 => exact (s.putKeyData_sameWork ..).trans (State.setRegN_sameWork ..)
  case h_8 =>
    split
    · exact s.putKey_sameWork ..
    · exact .of_geode rfl
  case h_9 => exact (s.setRegN_sameWork ..).trans (State.setRegN_sameWork ..)
  case h_10 => exact s.installAssoc_sameWork ..
  case h_11 => exact s.retireAssoc_sameWork ..
  case h_12 => exact .of_geode rfl

theorem State.doRoot_new_sameWork {c : KeyCommand} (h : c.op = 1) (s : State) : s.SameWork (s.doRoot c) := by
  simp [State.doRoot, h, State.SameWork, State.modSlot]

/-! ## Associations (R343, R344) -/

/-- The new association runs from counter 1 with the key of its slot. -/
theorem State.installAssoc_mem (s : State) (p : LinkPort) (transmit : Bool) (sa k : BitVec 8) :
    ∃ x ∈ (s.installAssoc p transmit sa k).geode.assocs, x.port = p ∧ x.transmit = transmit ∧ x.sa = sa ∧ x.slot = k ∧
      x.ctr = 1 ∧ x.stopped = false ∧ x.key = (s.slot k).live.value :=
  ⟨_, List.mem_append_right _ (List.mem_singleton_self _), rfl, rfl, rfl, rfl, rfl, rfl, rfl⟩

/-- No association that is left is the one retired. -/
theorem State.retireAssoc_not_mem (s : State) (p : LinkPort) (transmit : Bool) (sa : BitVec 8) :
    ∀ x ∈ (s.retireAssoc p transmit sa).geode.assocs, ¬(x.port = p ∧ x.transmit = transmit ∧ x.sa = sa) := by
  have gone : ∀ x ∈ s.geode.assocs.filter (fun a => !(a.port == p && a.transmit == transmit && a.sa == sa)),
      ¬(x.port = p ∧ x.transmit = transmit ∧ x.sa = sa) := by
    intro x hx ⟨hp, ht, hs⟩
    simp [hp, ht, hs] at hx
  intro x hx
  unfold State.retireAssoc at hx
  dsimp only at hx
  split at hx
  · obtain ⟨y, hy, rfl⟩ := List.mem_map.mp hx
    have same := gone y hy
    split <;> exact same
  · exact gone x hx

/-! ## The end of the running command -/

/-- The state in which the running command acts: the next command has taken its place. -/
def State.workTaken (s : State) : State :=
  { s with geode := { s.geode with running := s.geode.queue.head?, queue := s.geode.queue.tail } }

/-- With its operands in good slots the running command acts on the state as it stands. -/
theorem exec_keyCommandEnd {s : State} {k : KeyCommand} (core : s.coreOn = true) (running : s.geode.running = some k)
    (good : ∀ j ∈ k.named, (s.slot j).commitOk = true) : exec .keyCommandEnd s = .next (
      if k.applied && k.op == 2 then s.workTaken.setRegN (pmKey k.master Reg.KEY_RESULT) 1
      else if s.keyCode k = 1 then
        (if k.root then s.workTaken.doRoot k else s.workTaken.doKey k).setRegN (pmKey k.master Reg.KEY_RESULT) 1
      else (s.workTaken.setRegN (pmKey k.master Reg.KEY_RESULT) (s.keyCode k)).count Reg.KEY_REFUSED) := by
  have read : s.workTaken.over k.named State.readSlot = s.workTaken := State.over_readSlot_of_ok good
  have code : s.workTaken.keyCode k = s.keyCode k := rfl
  have run : s.endKey = s.workTaken.runKey k := by simp [State.endKey, running, State.workTaken]
  rw [exec, execKeyCommandEnd, State.whenCore_on core, run, State.runKey, read, code]

theorem keyResult_ne_refused (m : Master) : pmKey m Reg.KEY_RESULT ≠ Reg.KEY_REFUSED := by
  simp only [pmKey, Reg.KEY_RESULT, Reg.KEY_REFUSED]; omega

theorem ite_lt_of_lt {p : Prop} [Decidable p] {a b n : Nat} (ha : a < n) (hb : b < n) : (if p then a else b) < n := by
  split
  · exact ha
  · exact hb

/-- Every outcome code of Table GEO-4 fits its register. -/
theorem State.keyCode_lt (s : State) (c : KeyCommand) : s.keyCode c < 2 ^ 32 := by
  unfold State.keyCode
  repeat' apply ite_lt_of_lt
  all_goals decide

/-- What a command of KEY_CMD that passes its checks leaves in the slots and associations (Table GEO-3). -/
structure KeyEffect (s t : State) (k : KeyCommand) : Prop where
  derive : k.op = 1 → (t.slot k.slot).valid = true ∧ (t.slot k.slot).live.attr = k.attr ∧
    (t.slot k.slot).live.value = kdf (s.parentValue k.parent) (k.data.take k.len) (typeLen (attrType k.attr)) ∧
    (t.slot k.slot).gen = (s.slot k.slot).gen + 1
  invalidate : k.op = 2 → (t.slot k.slot).valid = false ∧ (t.slot k.slot).gen = (s.slot k.slot).gen + 1
  mac : k.op = 3 → t.geode.slots = s.geode.slots ∧ t.geode.assocs = s.geode.assocs
  agree : k.op = 6 → (t.slot k.slot).valid = true ∧
    (t.slot k.slot).live.value = fixLen 48 (Config.ecdh (s.slot k.parent).live.value k.point)
  install : k.op = 10 → ∃ x ∈ t.geode.assocs, x.port = k.link ∧ x.transmit = k.transmit ∧ x.sa = k.sa ∧ x.slot = k.slot ∧
    x.ctr = 1 ∧ x.stopped = false ∧ x.key = (s.slot k.slot).live.value
  retire : k.op = 11 → ∀ x ∈ t.geode.assocs, ¬(x.port = k.link ∧ x.transmit = k.transmit ∧ x.sa = k.sa)

theorem State.doKey_effect (s : State) (k : KeyCommand) : KeyEffect s (s.doKey k) k where
  derive h := by
    have run : s.doKey k = s.putKey k (if k.detach then none else some k.parent)
      (kdf (s.parentValue k.parent) (k.data.take k.len) (typeLen (attrType k.attr))) := by simp [State.doKey, h]
    rw [run]
    exact s.slot_putKey ..
  invalidate h := by
    have run : s.doKey k = s.zeroKey k.slot := by simp [State.doKey, h]
    rw [run]
    exact s.slot_zeroKey k.slot
  mac h := by
    have run : s.doKey k = s.putKeyData k.master (hmac384 (s.slot k.slot).live.value (k.data.take k.len)) := by
      simp [State.doKey, h]
    simp [run, State.putKeyData_keeps]
  agree h := by
    have run : s.doKey k = s.putKey k none (fixLen 48 (Config.ecdh (s.slot k.parent).live.value k.point)) := by
      simp [State.doKey, h]
    rw [run]
    obtain ⟨valid, -, value, -⟩ := s.slot_putKey k none (fixLen 48 (Config.ecdh (s.slot k.parent).live.value k.point))
    exact ⟨valid, value⟩
  install h := by
    have run : s.doKey k = s.installAssoc k.link k.transmit k.sa k.slot := by simp [State.doKey, h]
    rw [run]
    exact s.installAssoc_mem ..
  retire h := by
    have run : s.doKey k = s.retireAssoc k.link k.transmit k.sa := by simp [State.doKey, h]
    rw [run]
    exact s.retireAssoc_not_mem k.link k.transmit k.sa

theorem State.slot_of_geode {t u : State} (e : u.geode = t.geode) : u.slot = t.slot := by
  funext j
  simp only [State.slot, e]

/-- The effect is one on Geode alone. -/
theorem KeyEffect.of_geode {s t u : State} {k : KeyCommand} (h : KeyEffect s t k) (e : u.geode = t.geode) : KeyEffect s u k where
  derive := by simpa only [State.slot_of_geode e] using h.derive
  invalidate := by simpa only [State.slot_of_geode e] using h.invalidate
  mac := by simpa only [e] using h.mac
  agree := by simpa only [State.slot_of_geode e] using h.agree
  install := by simpa only [e] using h.install
  retire := by simpa only [e] using h.retire

/-- ROOT_NEW provides a root and raises GEN of slot 0 alone (R328). -/
theorem State.doRoot_new {k : KeyCommand} (h : k.op = 1) (s : State) : (s.doRoot k).geode.root.isSome = true ∧
    ((s.doRoot k).slot 0).gen = (s.slot 0).gen + 1 ∧ ∀ j, j ≠ 0 → (s.doRoot k).slot j = s.slot j := by
  let u : State := { s.drawn with geode := { s.drawn.geode with root := some (s.random 64) } }
  have run : s.doRoot k = u.modSlot 0 KeySlot.raised := by simp [State.doRoot, h, u]
  rw [run]
  refine ⟨rfl, ?_, fun j hj => State.slot_modSlot_other hj u _⟩
  rw [State.slot_modSlot_same]
  exact KeySlot.raised_gen _

/-- Settles O49: the running command gives way, and its code decides what it leaves. -/
theorem keyCommandsEnd : Obligations.KeyCommandsEnd := by
  intro s k core running good
  have run := exec_keyCommandEnd core running good
  refine ⟨fun applied invalidate => ?_, fun early refused => ?_, fun early ok _ root => ?_⟩
  · rw [if_pos (by simp [applied, invalidate])] at run
    exact ⟨_, run, by simp [State.workTaken], State.reg_setReg_same .., .setReg (List.mem_singleton_self _) s.workTaken _,
      .of_mem (by simp [State.workTaken])⟩
  all_goals rw [if_neg (by simpa using early)] at run
  · rw [if_neg refused] at run
    have shown : SameRegsBut [pmKey k.master Reg.KEY_RESULT, Reg.KEY_REFUSED] s.workTaken
        (s.workTaken.setRegN (pmKey k.master Reg.KEY_RESULT) (s.keyCode k)) := .setReg (List.mem_cons_self ..) s.workTaken _
    have kept : ((s.workTaken.setRegN (pmKey k.master Reg.KEY_RESULT) (s.keyCode k)).count Reg.KEY_REFUSED).geode =
      s.workTaken.geode := by simp
    refine ⟨_, run, by rw [kept]; rfl, by rw [kept]; rfl, ?_, ?_, by rw [kept]; rfl, by rw [kept]; rfl,
      shown.trans (.count (by simp) _), .of_mem (by simp [State.workTaken])⟩
    · rw [State.reg_count_other (keyResult_ne_refused _), State.reg_setRegN, if_pos rfl, BitVec.toNat_ofNat,
        Nat.mod_eq_of_lt (s.keyCode_lt k)]
    · have counted := Counted.count Reg.KEY_REFUSED (s.workTaken.setRegN (pmKey k.master Reg.KEY_RESULT) (s.keyCode k))
      have before : (s.workTaken.setRegN (pmKey k.master Reg.KEY_RESULT) (s.keyCode k)).reg Reg.KEY_REFUSED = s.reg Reg.KEY_REFUSED :=
        State.reg_setReg_other (keyResult_ne_refused _).symm s.workTaken _
      simpa only [Counted, before] using counted
  · rw [if_pos ok] at run
    cases isRoot : k.root with
    | false =>
      rw [isRoot, if_neg (by simp)] at run
      have kept : ((s.workTaken.doKey k).setRegN (pmKey k.master Reg.KEY_RESULT) 1).geode = (s.workTaken.doKey k).geode := by simp
      obtain ⟨running', queue'⟩ := (s.workTaken.doKey_sameWork k).trans (.of_geode kept)
      have effect := (s.workTaken.doKey_effect k).of_geode kept
      exact ⟨_, run, running', queue', State.reg_setReg_same .., .of_mem (by simp [State.doKey_keeps, State.workTaken]),
        fun _ => effect.derive, fun _ => effect.invalidate, fun _ => effect.mac, fun _ => effect.agree, fun _ => effect.install,
        fun _ => effect.retire, fun h => absurd h (by simp)⟩
    | true =>
      rw [isRoot, if_pos rfl] at run
      have new := root isRoot
      have kept : ((s.workTaken.doRoot k).setRegN (pmKey k.master Reg.KEY_RESULT) 1).geode = (s.workTaken.doRoot k).geode := by simp
      obtain ⟨running', queue'⟩ := (State.doRoot_new_sameWork new s.workTaken).trans (.of_geode kept)
      have effect := State.doRoot_new new s.workTaken
      rw [← kept, ← State.slot_of_geode kept] at effect
      exact ⟨_, run, running', queue', State.reg_setReg_same .., .of_mem (by simp [State.doRoot_keeps, State.workTaken]),
        fun h => absurd h (by simp), fun h => absurd h (by simp), fun h => absurd h (by simp), fun h => absurd h (by simp),
        fun h => absurd h (by simp), fun h => absurd h (by simp), fun _ => effect⟩

end Sys2Proof.Machine
end

section
/-! ECHO frames received and sent (R106, R110, R111, R117, R171): what a frame leaves in its port, and what the view makes of a new
record. -/

namespace Sys2Proof.Machine

open Sys2Proof

/-! ## Ports -/

/-- A field of every port stays where the change of one port leaves it. -/
theorem State.modPort_field {β : Type} (s : State) (f : Port → Port) (π : Port → β) (h : ∀ x, π (f x) = π x) (p j : LinkPort) :
    π (s.modPort p f).ports[j] = π s.ports[j] := by
  by_cases e : p = j
  · subst e
    exact (congrArg π (vmod_same s.ports p f)).trans (h _)
  · exact congrArg π (vmod_other e s.ports f)

theorem SameStages.refl (s : State) : SameStages s s := fun _ => ⟨rfl, rfl, rfl, rfl⟩

theorem SameStages.trans {s t u : State} (h : SameStages s t) (h' : SameStages t u) : SameStages s u := fun j => by
  obtain ⟨a, b, c, d⟩ := h j
  obtain ⟨a', b', c', d'⟩ := h' j
  exact ⟨a'.trans a, b'.trans b, c'.trans c, d'.trans d⟩

theorem SameStages.modPort (f : Port → Port) (h : ∀ x, (f x).stage = x.stage ∧ (f x).txLanes = x.txLanes ∧
    (f x).rxLanes = x.rxLanes ∧ (f x).modeAct = x.modeAct) (s : State) (p : LinkPort) : SameStages s (s.modPort p f) := fun j =>
  ⟨s.modPort_field f Port.stage (fun x => (h x).1) p j, s.modPort_field f Port.txLanes (fun x => (h x).2.1) p j,
    s.modPort_field f Port.rxLanes (fun x => (h x).2.2.1) p j, s.modPort_field f Port.modeAct (fun x => (h x).2.2.2) p j⟩

/-! ## Own frames -/

/-- Nothing of ports and records changed but the hub's own frames that wait on the ports. -/
def SendsOnly (s t : State) : Prop :=
  (∀ j : LinkPort, ∃ l, t.ports[j] = { s.ports[j] with ownTx := l }) ∧ t.echo.records = s.echo.records

theorem SendsOnly.of_eq {s t : State} (ports : t.ports = s.ports) (records : t.echo.records = s.echo.records) : SendsOnly s t :=
  ⟨fun j => ⟨s.ports[j].ownTx, by rw [ports]⟩, records⟩

theorem SendsOnly.refl (s : State) : SendsOnly s s := .of_eq rfl rfl

theorem SendsOnly.trans {s t u : State} (h : SendsOnly s t) (h' : SendsOnly t u) : SendsOnly s u :=
  ⟨fun j => by
    obtain ⟨l, hl⟩ := h.1 j
    obtain ⟨l', hl'⟩ := h'.1 j
    exact ⟨l', by rw [hl', hl]⟩, h'.2.trans h.2⟩

theorem SendsOnly.sameStages {s t : State} (h : SendsOnly s t) : SameStages s t := fun j => by
  obtain ⟨l, hl⟩ := h.1 j
  simp [hl]

theorem SendsOnly.echoHead {s t : State} (h : SendsOnly s t) (j : LinkPort) : t.ports[j].echoHead = s.ports[j].echoHead := by
  obtain ⟨l, hl⟩ := h.1 j
  simp [hl]

theorem State.over_sendsOnly {α : Type} {f : State → α → State} (h : ∀ t a, SendsOnly t (f t a)) (s : State) (l : List α) :
    SendsOnly s (s.over l f) := by
  induction l generalizing s with
  | nil => exact .refl s
  | cons a l ih => exact (h s a).trans (ih (f s a))

theorem SendsOnly.ite (p : Prop) [Decidable p] {s t : State} (h : SendsOnly s t) : SendsOnly s (if p then t else s) := by
  split
  · exact h
  · exact .refl s

theorem State.sendOwn_sendsOnly (s : State) (t : TrunkPort) (f : Frame) : SendsOnly s (s.sendOwn t f) := by
  refine ⟨fun j => ?_, rfl⟩
  by_cases e : trunk t = j
  · subst e
    exact ⟨_, vmod_same s.ports (trunk t) _⟩
  · exact ⟨s.ports[j].ownTx, vmod_other e s.ports _⟩

theorem State.sendEcho_sendsOnly (s : State) (t : TrunkPort) (change : Bool) : SendsOnly s (s.sendEcho t change) := by
  unfold State.sendEcho
  split
  · exact .refl s
  · exact State.over_sendsOnly (fun u _ => u.sendOwn_sendsOnly t _) s _

theorem State.sendEchoAll_sendsOnly (s : State) (change : Bool) : SendsOnly s (s.sendEchoAll change) :=
  State.over_sendsOnly (fun u t => u.sendEcho_sendsOnly t change) s _

/-! ## What follows from a change of the view -/

theorem State.announce_sendsOnly (s : State) (f : Announcement → Announcement) : SendsOnly s (s.announce f) := by
  refine .of_eq (by simp [State.announce_keeps]) ?_
  unfold State.announce
  dsimp only
  split <;> rfl

theorem State.announceRaise_sendsOnly (s : State) : SendsOnly s s.announceRaise := by
  unfold State.announceRaise
  split
  · exact .refl s
  · exact s.announce_sendsOnly _

theorem State.adoptSlot_sendsOnly (s : State) (k : BitVec 7) : SendsOnly s (s.adoptSlot k) :=
  .of_eq (by simp [State.adoptSlot_keeps]) (by simp [State.adoptSlot_keeps])

theorem State.assignWhileForming_sendsOnly (s : State) : SendsOnly s s.assignWhileForming := by
  unfold State.assignWhileForming
  dsimp only
  split
  · exact .refl s
  · split
    · exact (s.announce_sendsOnly _).trans (State.adoptSlot_sendsOnly ..)
    · exact s.announce_sendsOnly _

theorem State.announceMove_sendsOnly (s : State) : SendsOnly s s.announceMove := by
  unfold State.announceMove
  dsimp only
  (repeat' split)
  · exact .refl s
  · exact s.announce_sendsOnly _
  · exact .refl s
  · exact s.announce_sendsOnly _
  · exact ((s.announce_sendsOnly _).trans (State.sendEchoAll_sendsOnly ..)).trans (State.announce_sendsOnly ..)

theorem State.electMaster_sendsOnly (s : State) : SendsOnly s s.electMaster := by
  refine .of_eq (by simp [State.electMaster_keeps]) ?_
  unfold State.electMaster
  dsimp only
  split
  · rfl
  · simp [State.newMaster, State.setMaster]

theorem State.cutRings_sendsOnly (s : State) : SendsOnly s s.cutRings := .of_eq rfl rfl

theorem State.noteLinks_sendsOnly (s : State) (before v : List HubRecord) : SendsOnly s (s.noteLinks before v) := .of_eq rfl rfl

/-! ## The view -/

theorem mem_reachStep {rel : HubRecord → HubRecord → Bool} {all reached : List HubRecord} {x : HubRecord} (h : x ∈ reached) :
    x ∈ reachStep rel all reached := List.mem_append_left _ h

theorem mem_reachN {rel : HubRecord → HubRecord → Bool} {all : List HubRecord} (n : Nat) {reached : List HubRecord} {x : HubRecord}
    (h : x ∈ reached) : x ∈ reachN rel all n reached := by
  induction n generalizing reached with
  | zero => exact h
  | succ n ih => exact ih (mem_reachStep h)

/-- One round reaches every hub related to one reached before. -/
theorem reachStep_of_rel {rel : HubRecord → HubRecord → Bool} {all reached : List HubRecord} {a r : HubRecord} (ha : a ∈ reached)
    (hr : r ∈ all) (h : rel a r = true) : ∃ x ∈ reachStep rel all reached, x.id = r.id := by
  by_cases known : reached.any (fun x => x.id == r.id) = true
  · obtain ⟨x, hx, hid⟩ := List.any_eq_true.mp known
    exact ⟨x, mem_reachStep hx, by simpa using hid⟩
  · refine ⟨r, List.mem_append_right _ (List.mem_filter.mpr ⟨hr, ?_⟩), rfl⟩
    have related : reached.any (fun x => rel x r) = true := List.any_eq_true.mpr ⟨a, ha, h⟩
    simp [known, related]

/-- A hub of which a record is held, and to which a held link leads from here, is among those to which paths lead. -/
theorem State.mem_pinnedView {s : State} {r : HubRecord} (held : r ∈ s.echo.records) (link : heldLink s.ownRecord r = true) :
    r.id ∈ s.pinnedView.map (·.id) := by
  obtain ⟨n, hn⟩ : ∃ n, s.echo.records.length = n + 1 := Nat.exists_eq_succ_of_ne_zero (List.length_pos_of_mem held).ne'
  obtain ⟨x, hx, hid⟩ := reachStep_of_rel (List.mem_singleton_self s.ownRecord) held link
  refine List.mem_map.mpr ⟨x, ?_, hid⟩
  rw [State.pinnedView, hn, reachN]
  exact mem_reachN n hx

/-- A held link is one of identities, PST and neighbours alone. -/
theorem heldLink_congr (a a' : HubRecord) (id : a'.id = a.id) (pst : a'.pst = a.pst) (nbId : a'.nbId = a.nbId) (b : HubRecord) :
    heldLink a' b = heldLink a b := by
  simp only [heldLink, heldAt, linkBy, id, pst, nbId]

/-- The registers that this hub's record is made of. -/
def recordRegs : List Nat := [Reg.TOPO_STATUS, Reg.BEAT_ROLE, Reg.BOOT_STRAPS_EFF, Reg.GLB_CL_ACTIVE, Reg.TOPO_CFG]

/-- The trunk ports show the same PST toward the same partners. -/
def SameNeighbours (s t : State) : Prop :=
  ∀ p : TrunkPort, t.ports[trunk p].pst = s.ports[trunk p].pst ∧ t.ports[trunk p].partner = s.ports[trunk p].partner

theorem SameNeighbours.modPort (f : Port → Port) (h : ∀ x, (f x).pst = x.pst ∧ (f x).partner = x.partner) (s : State) (p : LinkPort) :
    SameNeighbours s (s.modPort p f) := fun t =>
  ⟨s.modPort_field f Port.pst (fun x => (h x).1) p (trunk t), s.modPort_field f Port.partner (fun x => (h x).2) p (trunk t)⟩

theorem SameNeighbours.partnerId {s t : State} (h : SameNeighbours s t) (p : TrunkPort) :
    t.partnerId (trunk p) = s.partnerId (trunk p) := by
  simp only [State.partnerId, (h p).2]

theorem SameNeighbours.heldLink {s t : State} (h : SameNeighbours s t) (b : HubRecord) :
    heldLink t.ownRecord b = heldLink s.ownRecord b := by
  refine heldLink_congr s.ownRecord t.ownRecord rfl ?_ ?_ b
  · simp only [State.ownRecord, (h _).1]
  · simp only [State.ownRecord, h.partnerId]

theorem State.ownRecord_congr {s t : State} (echo : t.echo = s.echo) (regs : ∀ k ∈ recordRegs, t.reg k = s.reg k)
    (ports : SameNeighbours s t) : t.ownRecord = s.ownRecord := by
  simp only [recordRegs, List.forall_mem_cons] at regs
  obtain ⟨status, role, straps, clock, cfg, -⟩ := regs
  have neighbour : t.neighbourSlot = s.neighbourSlot := by
    funext p
    simp only [State.neighbourSlot, State.recordOf, (ports p).2, echo]
  simp only [State.ownRecord, State.mySlot, State.rolePrio, State.hubSeat, State.prefSlot, State.fld, State.bit, status, role, straps,
    clock, cfg, neighbour, echo, (ports _).1, ports.partnerId]

theorem State.view_congr {s t : State} (echo : t.echo = s.echo) (own : t.ownRecord = s.ownRecord) : t.view = s.view := by
  simp only [State.view, echo, own]

/-- Where neither this hub's record nor the view changed nothing follows. -/
theorem State.refreshView_of_same {s before : State} (own : s.ownRecord = before.ownRecord) (view : s.view = before.view) :
    s.refreshView before = s := by
  simp [State.refreshView, own, view]

/-- A state whose own record is renewed where it changed. -/
def State.renewed (s before : State) : State :=
  if s.ownRecord = before.ownRecord then s else { s with echo := { s.echo with recSeq := s.echo.recSeq + 1 } }

theorem State.renewed_keeps (s before : State) : (s.renewed before).ports = s.ports ∧
    (s.renewed before).echo.records = s.echo.records := by
  unfold State.renewed
  split <;> exact ⟨rfl, rfl⟩

/-- What a new view entails once its records are taken: the links noted, the election, the cut, the announcements and the sending. -/
def State.followView (s : State) (before now : List HubRecord) (raise : State → Bool) : State :=
  let noted := ((s.noteLinks before now).setFld Reg.TOPO_VIEW_SEQ 15 0 (s.fld Reg.TOPO_VIEW_SEQ 15 0 + 1)).count Reg.TOPO_VIEW_CHANGES
  let led := noted.electMaster.cutRings
  ((if raise led then led.announceRaise else led).assignWhileForming.announceMove).sendEchoAll true

/-- A new view keeps the records of the hubs to which paths lead, and its consequences follow. -/
theorem State.refreshView_of_new {s before : State} (new : (s.renewed before).view ≠ before.view) : ∃ (lost away : List HubId)
    (raise : State → Bool), s.refreshView before = State.followView { s.renewed before with echo := { (s.renewed before).echo with
      viewSince := (s.renewed before).heads
      records := (s.renewed before).echo.records.filter fun r => ((s.renewed before).pinnedView.map (·.id)).contains r.id
      lost := lost
      away := away
      members := (s.renewed before).echo.members.filter fun i => (s.renewed before).view.any fun y => y.id == i } }
        before.view (s.renewed before).view raise :=
  ⟨_, _, fun led => (s.renewed before).rejoined (s.renewed before).view || ((s.renewed before).view.any fun r =>
    (s.renewed before).echo.members.contains r.id && pathChanged before.view r) || led.datelineHub != before.datelineHub ||
      led.cutJoint != before.cutJoint, if_neg new⟩

/-- What follows a new view changes no record and sends only. -/
theorem State.followView_sendsOnly (s : State) (before now : List HubRecord) (raise : State → Bool) :
    SendsOnly s (s.followView before now raise) := by
  have noted : SendsOnly s (((s.noteLinks before now).setFld Reg.TOPO_VIEW_SEQ 15 0 (s.fld Reg.TOPO_VIEW_SEQ 15 0 + 1)).count
    Reg.TOPO_VIEW_CHANGES) := (s.noteLinks_sendsOnly before now).trans (.of_eq (by simp) (by simp))
  have led := noted.trans ((State.electMaster_sendsOnly _).trans (State.cutRings_sendsOnly _))
  exact (led.trans (.ite _ (State.announceRaise_sendsOnly _))).trans ((State.assignWhileForming_sendsOnly _).trans
    ((State.announceMove_sendsOnly _).trans (State.sendEchoAll_sendsOnly _ true)))

/-- A refreshed view keeps the record of a hub to which a held link leads, and changes the ports by sending only. -/
theorem State.refreshView_keeps_record {s : State} {r : HubRecord} (held : r ∈ s.echo.records)
    (link : heldLink s.ownRecord r = true) (before : State) : r ∈ (s.refreshView before).echo.records ∧
      ∃ u : State, u.ports = s.ports ∧ SendsOnly u (s.refreshView before) := by
  obtain ⟨ports, records⟩ := s.renewed_keeps before
  have held' : r ∈ (s.renewed before).echo.records := records ▸ held
  have link' : heldLink (s.renewed before).ownRecord r = true := by
    have same : SameNeighbours s (s.renewed before) := fun p => by rw [ports]; exact ⟨rfl, rfl⟩
    rw [same.heldLink, link]
  by_cases same : (s.renewed before).view = before.view
  · have stays : s.refreshView before = s.renewed before := if_pos same
    rw [stays]
    exact ⟨held', _, ports, .refl _⟩
  · obtain ⟨lost, away, raise, follows⟩ := State.refreshView_of_new same
    rw [follows]
    refine ⟨?_, _, ?_, State.followView_sendsOnly _ _ _ _⟩
    · rw [(State.followView_sendsOnly _ _ _ _).2]
      have reached : ((s.renewed before).pinnedView.map (·.id)).contains r.id = true :=
        List.contains_iff_mem.mpr (State.mem_pinnedView held' link')
      exact List.mem_filter_of_mem held' reached
    · exact ports

/-! ## The frame received (R110, R111, R171) -/

/-- A port with the credit of an ECHO frame returned (R171). -/
def Port.credited (e : EchoPayload) (x : Port) : Port :=
  { x with credits := vmod x.credits 7 fun k => { k with g := k.g + BitVec.ofNat 20 (cellsOfLen e.bytes.length) } }

/-- The credit of an ECHO frame returned to its port. -/
def State.credited (s : State) (p : TrunkPort) (e : EchoPayload) : State := s.modPort (trunk p) (Port.credited e)

theorem State.creditBack_echo (s : State) (p : TrunkPort) (e : EchoPayload) :
    s.creditBack (trunk p) 7 false (cellsOfLen e.bytes.length) = s.credited p e := by
  have no_local : ¬4 ≤ (trunk p).val := by simp [trunk]
  simp only [State.creditBack, no_local, decide_false, Bool.and_false, Bool.false_eq_true, if_false]
  rfl

theorem State.credited_credit (s : State) (p : TrunkPort) (e : EchoPayload) : ((s.credited p e).credit (trunk p) 7 false).g =
    (s.credit (trunk p) 7 false).g + BitVec.ofNat 20 (cellsOfLen e.bytes.length) := by
  have port := vmod_same s.ports (trunk p) (Port.credited e)
  have credit := vmod_same s.ports[trunk p].credits 7 fun k => { k with g := k.g + BitVec.ofNat 20 (cellsOfLen e.bytes.length) }
  exact congrArg Credit.g ((congrArg (fun x : Port => x.credits[(7 : Fin 16)]) port).trans credit)

theorem State.credited_adm (s : State) (p : TrunkPort) (e : EchoPayload) (j : LinkPort) :
    (s.credited p e).ports[j].adm = s.ports[j].adm := s.modPort_field (Port.credited e) Port.adm (fun _ => rfl) _ j

theorem State.credited_sameNeighbours (s : State) (p : TrunkPort) (e : EchoPayload) : SameNeighbours s (s.credited p e) :=
  .modPort (Port.credited e) (fun _ => ⟨rfl, rfl⟩) s _

theorem State.credited_sameStages (s : State) (p : TrunkPort) (e : EchoPayload) : SameStages s (s.credited p e) :=
  .modPort (Port.credited e) (fun _ => ⟨rfl, rfl, rfl, rfl⟩) s _

theorem State.credited_samePortsBut (s : State) (p : TrunkPort) (e : EchoPayload) : SamePortsBut (trunk p) s (s.credited p e) :=
  .modPort s _ _

/-- Whether a frame passes depends on the PEP and on the joint, not on credit (R117). -/
theorem State.credited_passes (s : State) (p : TrunkPort) (e : EchoPayload) :
    ((s.credited p e).pepPasses e.pep || (s.credited p e).joint p) = (s.pepPasses e.pep || s.joint p) := by
  have partner := (s.credited_sameNeighbours p e).partnerId p
  have pep : (s.credited p e).pepPasses e.pep = s.pepPasses e.pep := rfl
  have echo : (s.credited p e).echo = s.echo := rfl
  simp only [State.joint, State.otherSide, partner, pep, echo]

/-- What a frame does on a trunk port in service that discards none. -/
theorem exec_echoFrameReceived {s : State} {p : TrunkPort} (core : s.coreOn = true) (up : s.portUp (trunk p) = true)
    (whole : s.ports[trunk p].discarding = false) (e : EchoPayload) : exec (.echoFrameReceived p e) s = .next (
      if s.ports[trunk p].adm == .admitted && (s.pepPasses e.pep || s.joint p) then
        (s.credited p e).viewing fun u => u.takeEcho p e
      else if s.pepPasses e.pep || s.joint p then (s.credited p e).count (Reg.TRK_BYPASS_DROP p.val)
      else (s.credited p e).count (Reg.TRK_STALE_PEP p.val)) := by
  have arrives (f : State → State) : s.arriving (trunk p) f = f s := by
    simp only [State.arriving, up, whole, Bool.not_true, Bool.false_eq_true, if_false]
  simp only [exec, execEchoFrameReceived, State.whenCore_on core, arrives, State.creditBack_echo, State.credited_passes,
    State.credited_adm]

/-- A malformed frame is counted and nothing else (R110). -/
theorem State.takeEcho_of_bad {e : EchoPayload} (h : e.ver ≠ 1 ∨ e.n = 0 ∨ 64 < e.n.toNat) (s : State) (p : TrunkPort) :
    s.takeEcho p e = s.count Reg.TOPO_ECHO_BAD := by
  refine if_pos ?_
  simp only [Bool.or_eq_true, decide_eq_true_eq]
  tauto

/-- Counting a malformed frame is no change of the view. -/
theorem State.viewing_bad {e : EchoPayload} (h : e.ver ≠ 1 ∨ e.n = 0 ∨ 64 < e.n.toNat) (s : State) (p : TrunkPort) :
    (s.viewing fun u => u.takeEcho p e) = s.count Reg.TOPO_ECHO_BAD := by
  have own : (s.count Reg.TOPO_ECHO_BAD).ownRecord = s.ownRecord := by
    refine State.ownRecord_congr (by simp) (fun k hk => State.reg_count_other (fun e => ?_) s) fun _ => ⟨by simp, by simp⟩
    rw [e] at hk
    exact absurd hk (by decide)
  rw [State.viewing, State.takeEcho_of_bad h, State.refreshView_of_same own (State.view_congr (by simp) own)]

/-- A port with the head of a valid ECHO frame noted (R113). -/
def Port.heardEcho (head : Nat) (x : Port) : Port := { x with echoHead := head }

/-- A port with the head of the last ECHO frame sent noted (R111). -/
def Port.sentEcho (head : Nat) (x : Port) : Port := { x with echoTx := head }

/-- One record of a hub not known before, without news of the own master and without a merge, is added and its head noted (R111). -/
theorem State.takeEcho_new {s : State} {e : EchoPayload} {r : HubRecord} (ver : e.ver = 1) (one : e.n = 1) (hubs : e.hubs = [r])
    (few : e.assigns.length ≤ 64) (merge : e.merge = none) (other : r.id ≠ Config.hubId) (named : r.id ≠ 0)
    (unknown : s.recordOf r.id = none) (quiet : s.echo.master = Config.hubId ∨ e.masterId ≠ s.echo.master) (p : TrunkPort) :
    s.takeEcho p e = { s.modPort (trunk p) (Port.heardEcho s.heads) with
      echo := { s.echo with records := s.echo.records ++ [r] } } := by
  have form : ¬(e.ver ≠ 1 || e.n = 0 || decide (64 < e.n.toNat) || e.hubs.length ≠ e.n.toNat ||
      decide (64 < e.assigns.length)) = true := by
    have short : ¬64 < e.assigns.length := by omega
    simp [ver, one, hubs, short]
  have taken (u : State) (hu : u.echo = s.echo) : u.takeRecord r = { u with echo := { u.echo with records := u.echo.records ++ [r] } } := by
    have unknown' : u.recordOf r.id = none := by simpa only [State.recordOf, hu] using unknown
    simp only [State.takeRecord, other, named, decide_false, Bool.or_false, Bool.false_eq_true, if_false, unknown']
  have silent (u : State) (hu : u.echo.master = s.echo.master) : u.takeAnnouncement e = u := by
    refine if_pos ?_
    rcases quiet with quiet | quiet <;> simp [hu, quiet]
  have once (u : State) : u.over [r] State.takeRecord = u.takeRecord r := rfl
  have nothing (u : State) : u.onMerge p e = u := by simp only [State.onMerge, merge]
  have read : s.takeEcho p e =
      (((s.modPort (trunk p) (Port.heardEcho s.heads)).over e.hubs State.takeRecord).takeAnnouncement e).onMerge p e := if_neg form
  rw [read, nothing, hubs, once, taken (s.modPort (trunk p) (Port.heardEcho s.heads)) rfl]
  exact silent _ rfl

/-- A refused or a malformed frame: its credit returns and it is counted, nothing more. -/
structure EchoDropped (s t : State) (p : TrunkPort) (e : EchoPayload) (k : Nat) : Prop where
  counted : Counted k s t
  echo : t.echo = s.echo
  credit : (t.credit (trunk p) 7 false).g = (s.credit (trunk p) 7 false).g + BitVec.ofNat 20 (cellsOfLen e.bytes.length)
  adm : t.ports[trunk p].adm = s.ports[trunk p].adm
  echoHead : t.ports[trunk p].echoHead = s.ports[trunk p].echoHead
  stages : SameStages s t
  ports : SamePortsBut (trunk p) s t
  regs : SameRegsBut [k] s t
  mem : SameMemory s t

theorem State.credited_count (s : State) (p : TrunkPort) (e : EchoPayload) (k : Nat) :
    EchoDropped s ((s.credited p e).count k) p e k where
  counted := .count k (s.credited p e)
  echo := by simp [State.credited]
  credit := by
    have ports : ((s.credited p e).count k).ports = (s.credited p e).ports := by simp
    simpa only [State.credit, ports] using s.credited_credit p e
  adm := s.credited_adm p e (trunk p)
  echoHead := s.modPort_field (Port.credited e) Port.echoHead (fun _ => rfl) _ (trunk p)
  stages := s.credited_sameStages p e
  ports := s.credited_samePortsBut p e
  regs := .count (List.mem_singleton_self k) (s.credited p e)
  mem := .of_mem (by simp [State.credited])

/-- On an admitted port in service where no merge is held one ECHO frame with this hub's payload goes out (R110). -/
theorem State.sendEcho_of_no_merge {s : State} {p : TrunkPort} (adm : s.ports[trunk p].adm = .admitted) (up : s.portUp (trunk p) = true)
    (none_held : s.merges = []) : s.sendEcho p false = s.sendOwn p (s.linkFrame kindEcho (s.echoPayload false none).bytes) := by
  simp [-Fin.getElem_fin, State.sendEcho, adm, up, none_held, State.over]

/-- The head of the last ECHO frame is no part of what the next one says. -/
theorem State.echoPayload_modPort (f : Port → Port) (h : ∀ x, (f x).pst = x.pst ∧ (f x).partner = x.partner) (s : State)
    (p : LinkPort) (change : Bool) (m : Option Merge) : (s.modPort p f).echoPayload change m = s.echoPayload change m := by
  have echo : (s.modPort p f).echo = s.echo := rfl
  have view : (s.modPort p f).view = s.view := State.view_congr echo (State.ownRecord_congr echo (fun _ _ => rfl) (.modPort f h s p))
  simp only [State.echoPayload, view]
  rfl

/-- A new record of a linked hub is kept and the head of its frame noted; of the ports and of memory nothing else changes but the
credit and what is sent. -/
theorem State.viewing_new (s : State) (p : TrunkPort) {e : EchoPayload} {r : HubRecord} (ver : e.ver = 1) (one : e.n = 1)
    (hubs : e.hubs = [r]) (few : e.assigns.length ≤ 64) (merge : e.merge = none) (other : r.id ≠ Config.hubId) (named : r.id ≠ 0)
    (unknown : s.recordOf r.id = none) (link : heldLink s.ownRecord r = true)
    (quiet : s.echo.master = Config.hubId ∨ e.masterId ≠ s.echo.master) :
    r ∈ (s.viewing fun u => u.takeEcho p e).echo.records ∧
      (s.viewing fun u => u.takeEcho p e).ports[trunk p].echoHead = s.heads ∧
      SameStages s (s.viewing fun u => u.takeEcho p e) ∧ SameMemory s (s.viewing fun u => u.takeEcho p e) := by
  let u : State := { s.modPort (trunk p) (Port.heardEcho s.heads) with echo := { s.echo with records := s.echo.records ++ [r] } }
  have taken : (s.viewing fun u => u.takeEcho p e) = u.refreshView s := by
    rw [State.viewing, State.takeEcho_new ver one hubs few merge other named unknown quiet]
  have held : r ∈ u.echo.records := List.mem_append_right _ (List.mem_singleton_self r)
  have neighbours : SameNeighbours s u := .modPort (Port.heardEcho s.heads) (fun _ => ⟨rfl, rfl⟩) s (trunk p)
  have stages : SameStages s u := .modPort (Port.heardEcho s.heads) (fun _ => ⟨rfl, rfl, rfl, rfl⟩) s (trunk p)
  have head : u.ports[trunk p].echoHead = s.heads := congrArg Port.echoHead (vmod_same s.ports (trunk p) (Port.heardEcho s.heads))
  obtain ⟨kept, w, ports, sends⟩ := State.refreshView_keeps_record held ((neighbours.heldLink r).trans link) s
  have stages' : SameStages u w := fun j => by rw [ports]; exact ⟨rfl, rfl, rfl, rfl⟩
  rw [taken]
  refine ⟨kept, ?_, (stages.trans stages').trans sends.sameStages, .of_mem (by simp [State.refreshView_keeps, u])⟩
  rw [sends.echoHead, ports, head]

/-- What ECHO_FRAME_PERIODIC_SEND does on an admitted port in service, 16 heads after the last one, where no merge is held. -/
theorem exec_echoFramePeriodicSend {s : State} {p : TrunkPort} (core : s.coreOn = true) (up : s.portUp (trunk p) = true)
    (adm : s.ports[trunk p].adm = .admitted) (due : s.ports[trunk p].echoTx + 16 ≤ s.heads) (none_held : s.merges = []) :
    exec (.echoFramePeriodicSend p) s = .next ((s.modPort (trunk p) (Port.sentEcho s.heads)).sendOwn p
      (s.linkFrame kindEcho (s.echoPayload false none).bytes)) := by
  have not_early : ¬s.heads < s.ports[trunk p].echoTx + 16 := by omega
  have adm' : (s.modPort (trunk p) (Port.sentEcho s.heads)).ports[trunk p].adm = .admitted :=
    (s.modPort_field (Port.sentEcho s.heads) Port.adm (fun _ => rfl) _ _).trans adm
  have up' : (s.modPort (trunk p) (Port.sentEcho s.heads)).portUp (trunk p) = true := by
    have same := s.modPort_field (Port.sentEcho s.heads)
      (fun x => (x.stage == .active || x.stage == .degraded) && !x.localFault) (fun _ => rfl) (trunk p) (trunk p)
    exact same.trans up
  have payload := State.echoPayload_modPort (Port.sentEcho s.heads) (fun _ => ⟨rfl, rfl⟩) s (trunk p) false none
  have sent := State.sendEcho_of_no_merge adm' up' none_held
  rw [payload] at sent
  simp only [exec, execEchoFramePeriodicSend, State.whenCore_on core, not_early, if_false]
  exact congrArg Host.Outcome.next sent

/-- Settles O26: the frame that does not pass, the one that is malformed and the one with a new record, and the frame sent. -/
theorem echoFrames : Obligations.EchoFrames := by
  intro s p e core up
  refine ⟨fun whole => ?_, fun early => ?_, fun adm due none_held => ?_⟩
  · have run := exec_echoFrameReceived core up whole e
    refine ⟨fun stale => ?_, fun passes out => ?_, fun passes adm => ⟨fun bad => ?_,
      fun r ver one hubs few merge other named unknown link quiet => ?_⟩⟩
    · obtain ⟨counted, echo, credit, adm, -, stages, ports, regs, mem⟩ := s.credited_count p e (Reg.TRK_STALE_PEP p.val)
      refine ⟨_, run.trans (congrArg _ ?_), counted, echo, credit, adm, stages, ports, regs, mem⟩
      simp only [stale, Bool.and_false, Bool.false_eq_true, if_false]
    · obtain ⟨counted, echo, credit, adm, -, stages, ports, regs, mem⟩ := s.credited_count p e (Reg.TRK_BYPASS_DROP p.val)
      refine ⟨_, run.trans (congrArg _ ?_), counted, echo, credit, adm, stages, ports, regs, mem⟩
      simp only [passes, Bool.and_true, beq_iff_eq, out, if_false, if_true]
    all_goals simp only [passes, adm, beq_self_eq_true, Bool.and_true, if_true] at run
    · rw [State.viewing_bad bad] at run
      obtain ⟨counted, echo, -, -, head, stages, ports, regs, mem⟩ := s.credited_count p e Reg.TOPO_ECHO_BAD
      exact ⟨_, run, counted, echo, head, stages, ports, regs, mem⟩
    · have link' : heldLink (s.credited p e).ownRecord r = true := ((s.credited_sameNeighbours p e).heldLink r).trans link
      obtain ⟨kept, head, stages, mem⟩ := (s.credited p e).viewing_new p ver one hubs few merge other named unknown link' quiet
      exact ⟨_, run, kept, head, (s.credited_sameStages p e).trans stages, mem⟩
  · simp only [exec, execEchoFramePeriodicSend, State.whenCore_on core, early, if_true]
  · let u := s.modPort (trunk p) (Port.sentEcho s.heads)
    let f := s.linkFrame kindEcho (s.echoPayload false none).bytes
    have noted : u.ports[trunk p] = Port.sentEcho s.heads s.ports[trunk p] := vmod_same s.ports (trunk p) _
    have sent : (u.sendOwn p f).ports[trunk p] = { u.ports[trunk p] with ownTx := u.ports[trunk p].ownTx ++ [f] } :=
      vmod_same u.ports (trunk p) _
    have stages : SameStages s u := .modPort (Port.sentEcho s.heads) (fun _ => ⟨rfl, rfl, rfl, rfl⟩) s (trunk p)
    have ports : SamePortsBut (trunk p) s (u.sendOwn p f) := fun j hj =>
      (SamePortsBut.modPort u (trunk p) _ j hj).trans (SamePortsBut.modPort s (trunk p) _ j hj)
    refine ⟨u.sendOwn p f, exec_echoFramePeriodicSend core up adm due none_held, rfl, ?_, ?_,
      stages.trans (u.sendOwn_sendsOnly p f).sameStages, ports, .of_regs rfl _, .of_mem rfl⟩
    · rw [sent, noted]
      rfl
    · rw [sent, noted]
      rfl

end Sys2Proof.Machine
end

section
/-! What the work of a port leaves as it is (R58, R77, R85, R91, R101-R104, R195): the signal, lock and loops of the lanes, their registers
and the modes asked for, what has been sent, and a port that is down. -/

namespace Sys2Proof.Machine

open Sys2Proof

theorem State.modLane_lane (s : State) (l : LaneIx) (f : Lane → Lane) : (s.modLane l f).lanes[l] = f s.lanes[l] := vmod_same s.lanes l f

theorem State.modPort_port (s : State) (p : LinkPort) (f : Port → Port) : (s.modPort p f).ports[p] = f s.ports[p] := vmod_same s.ports p f

/-! ## Lanes, registers and ports that a port's work leaves -/

/-- A lane without its part in its port: training, deskew, the partner's loop and its place in a transmit set. -/
def Lane.signal (x : Lane) : Lane :=
  { x with skew := none, remoteLoop := false, rxReady := false, txReady := false, tseq := none, dropped := false }

/-- A lane keeps its signal, and the partner's loop while it is locked; a loop that goes is off. -/
def Lane.Kept (x y : Lane) : Prop :=
  y.signal = x.signal ∧ (y.remoteLoop = x.remoteLoop ∨ x.lock ≠ .locked ∧ y.remoteLoop = false)

/-- A port keeps its mode, and what is down or has not been up stays so. -/
def Port.Kept (x y : Port) : Prop :=
  y.modeAct = x.modeAct ∧ (x.stage = .down → y.stage = .down) ∧ (x.reached = false → y.reached = false)

/-- The registers of the lanes, LOC_GROUP and LOC_MODE. -/
def IsSetting (k : Nat) : Prop := (0x020000 ≤ k ∧ k < 0x028000) ∨ (0x050000 ≤ k ∧ k < 0x051100 ∧ k % 0x100 = 0)

/-- What every operation of a port leaves. -/
structure PortWork (s t : State) : Prop where
  lanes : ∀ l : LaneIx, s.lanes[l].Kept t.lanes[l]
  ports : ∀ p : LinkPort, s.ports[p].Kept t.ports[p]
  regs : ∀ k, IsSetting k → t.reg k = s.reg k
  sent : s.sent <:+ t.sent

theorem Lane.Kept.refl (x : Lane) : x.Kept x := ⟨rfl, .inl rfl⟩

/-- A part of a lane that its signal holds is kept. -/
theorem Lane.Kept.field {β : Type} {x y : Lane} (π : Lane → β) (hπ : ∀ z, π z.signal = π z) (h : x.Kept y) : π y = π x := by
  rw [← hπ y, h.1, hπ]

theorem Lane.Kept.trans {x y z : Lane} (h : x.Kept y) (h' : y.Kept z) : x.Kept z := by
  have lock := h.field Lane.lock fun _ => rfl
  obtain ⟨same, loop⟩ := h
  obtain ⟨same', loop'⟩ := h'
  refine ⟨same'.trans same, ?_⟩
  rw [lock] at loop'
  rcases loop' with kept | off
  · exact kept ▸ loop
  · exact .inr off

theorem Port.Kept.refl (x : Port) : x.Kept x := ⟨rfl, id, id⟩

theorem Port.Kept.trans {x y z : Port} (h : x.Kept y) (h' : y.Kept z) : x.Kept z :=
  ⟨h'.1.trans h.1, h'.2.1 ∘ h.2.1, h'.2.2 ∘ h.2.2⟩

namespace PortWork

/-! ## The relation and the named updates -/

theorem of_eq {s t : State} (lanes : t.lanes = s.lanes) (ports : t.ports = s.ports) (regs : t.regs = s.regs) (sent : t.sent = s.sent) :
    PortWork s t :=
  ⟨fun l => by rw [lanes]; exact .refl _, fun p => by rw [ports]; exact .refl _, fun k _ => by simp only [State.reg, regs],
    by rw [sent]⟩

theorem refl (s : State) : PortWork s s := .of_eq rfl rfl rfl rfl

theorem trans {s t u : State} (h : PortWork s t) (h' : PortWork t u) : PortWork s u :=
  ⟨fun l => (h.lanes l).trans (h'.lanes l), fun p => (h.ports p).trans (h'.ports p),
    fun k hk => (h'.regs k hk).trans (h.regs k hk), h.sent.trans h'.sent⟩

theorem ite {c : Prop} [Decidable c] {s t u : State} (h : PortWork s t) (h' : PortWork s u) : PortWork s (if c then t else u) := by
  split
  · exact h
  · exact h'

theorem each {α : Type} {f : State → α → State} (h : ∀ t a, PortWork t (f t a)) (s : State) (l : List α) :
    PortWork s (s.over l f) := by
  induction l generalizing s with
  | nil => exact .refl s
  | cons a l ih => exact (h s a).trans (ih (f s a))

theorem setReg {s t : State} {k : Nat} (w : Word) (hk : ¬IsSetting k) (h : PortWork s t) : PortWork s (t.setReg k w) :=
  h.trans ⟨fun _ => .refl _, fun _ => .refl _,
    fun _ hj => State.reg_setReg_other (ne_of_mem_of_not_mem (s := {j | IsSetting j}) hj hk) t w,
    List.suffix_rfl⟩

theorem count {s t : State} {k : Nat} (hk : ¬IsSetting k) (h : PortWork s t) : PortWork s (t.count k) := .setReg _ hk h

theorem count48 {s t : State} {k : Nat} (n : Nat) (hk : ¬IsSetting k) (h4 : ¬IsSetting (k + 4)) (h : PortWork s t) :
    PortWork s (t.count48 k n) := .setReg _ h4 (.setReg _ hk h)

theorem emit {s t : State} (o : Output) (h : PortWork s t) : PortWork s (t.emit o) :=
  h.trans ⟨fun _ => .refl _, fun _ => .refl _, fun _ _ => rfl, List.suffix_cons o t.sent⟩

theorem drawn (s : State) : PortWork s s.drawn := .of_eq rfl rfl rfl rfl

theorem withLine (s : State) (x : LineState) : PortWork s { s with line := x } := .of_eq rfl rfl rfl rfl

theorem withCav (s : State) (c : CavernState) : PortWork s { s with cav := c } := .of_eq rfl rfl rfl rfl

theorem modPortAt {s t : State} {p : LinkPort} {f : Port → Port} (h : PortWork s t) (hf : t.ports[p].Kept (f t.ports[p])) :
    PortWork s (t.modPort p f) := by
  refine h.trans ⟨fun _ => .refl _, fun j => ?_, fun _ _ => rfl, List.suffix_rfl⟩
  by_cases e : p = j
  · subst e
    exact (vmod_same t.ports p f).symm ▸ hf
  · exact (vmod_other e t.ports f).symm ▸ .refl _

theorem modPort {s t : State} {p : LinkPort} {f : Port → Port} (h : PortWork s t) (hf : ∀ x, Port.Kept x (f x)) :
    PortWork s (t.modPort p f) := h.modPortAt (hf _)

theorem modLane {s t : State} {l : LaneIx} {f : Lane → Lane} (h : PortWork s t) (hf : ∀ x, Lane.Kept x (f x)) :
    PortWork s (t.modLane l f) := by
  refine h.trans ⟨fun j => ?_, fun _ => .refl _, fun _ _ => rfl, List.suffix_rfl⟩
  by_cases e : l = j
  · subst e
    exact (vmod_same t.lanes l f).symm ▸ hf _
  · exact (vmod_other e t.lanes f).symm ▸ .refl _

end PortWork

/-! ## Queues and frames (R170-R197) -/

theorem not_setting_of_ge {k : Nat} (h : 0x060000 ≤ k) : ¬IsSetting k := by
  unfold IsSetting
  omega

theorem not_setting_of_trunk {k : Nat} (h : 0x040000 ≤ k ∧ k < 0x050000) : ¬IsSetting k := by
  unfold IsSetting
  omega

theorem State.release_work (s : State) (id : Nat) : PortWork s (s.release id) := .ite (.refl s) (.withCav s _)

theorem State.modQueue_work (s : State) (q : QueueIx) (f : Queue → Queue) : PortWork s (s.modQueue q f) := .withCav s _

theorem State.emptyDeficit_work (s : State) (q : QueueIx) : PortWork s (s.emptyDeficit q) :=
  .ite (.setReg _ (not_setting_of_ge (by unfold Reg.SCHED_DEFICIT; omega)) (.refl s)) (.refl s)

theorem State.dropRef_work (s : State) (q : QueueIx) (id : Nat) : PortWork s (s.dropRef q id) :=
  (((s.modQueue_work q _).trans (.withCav _ _)).trans (State.release_work _ id)).trans (State.emptyDeficit_work _ q)

theorem PortWork.countDown {s t : State} (q : QueueIx) (h : PortWork s t) : PortWork s (t.count (Reg.CAV_Q_DOWN_CNT q.val)) :=
  .count (not_setting_of_ge (by unfold Reg.CAV_Q_DOWN_CNT; omega)) h

theorem State.flushQueue_work (s : State) (q : QueueIx) : PortWork s (s.flushQueue q) := by
  unfold State.flushQueue
  refine .each (fun t r => ?_) s _
  exact (t.dropRef_work q r.id).countDown q

theorem State.flushPort_work (s : State) (p : EgressPort) (lo hi : Nat) : PortWork s (s.flushPort p lo hi) := by
  unfold State.flushPort
  exact .each (fun t c => t.flushQueue_work (queueOf p c)) s _

theorem State.abortFrame_work (s : State) (id : Nat) : PortWork s (s.abortFrame id) := by
  have gone := PortWork.withCav s { s.cav with cutIn := s.cav.cutIn.filter fun y => y.2 != id }
  unfold State.abortFrame
  dsimp only
  split
  · exact .count (not_setting_of_ge (by decide)) (.emit _ ((gone.trans (.withCav _ _)).trans (State.release_work _ id)))
  · exact gone.trans (.each (fun t q => t.dropRef_work q id) _ _)

theorem State.abortCut_work (s : State) (n : LocalPort) : PortWork s (s.abortCut n) := by
  unfold State.abortCut
  refine .each (fun t x => ?_) s _
  exact t.abortFrame_work x.2

theorem State.endCuts_work (s : State) (p : EgressPort) : PortWork s (s.endCuts p) := by
  unfold State.endCuts
  refine .each (fun t c => ?_) s _
  exact .countDown _ (.emit _ ((PortWork.withCav t _).trans (State.release_work _ c.id)))

theorem State.sift_work (s : State) (c : Cls) (n : Nat) (ps : List EgressPort) : PortWork s (s.sift c n ps).1 := by
  induction ps generalizing s with
  | nil => exact .refl s
  | cons p ps ih =>
    unfold State.sift
    dsimp only
    (repeat' split)
    · exact ((PortWork.refl s).countDown _).trans (ih _)
    · exact (PortWork.count (not_setting_of_ge (by unfold Reg.CAV_Q_DROP_CNT; omega)) (.refl s)).trans (ih _)
    · exact ih s

theorem PortWork.countSpill {s t : State} (q : QueueIx) (h : PortWork s t) :
    PortWork s ((t.count48 (Reg.CAV_Q_SPILL_CNT_LO q.val) 1).count48 Reg.SUMP_SPILL_FR_LO 1) :=
  .count48 1 (not_setting_of_ge (by decide)) (not_setting_of_ge (by decide)) (.count48 1
    (not_setting_of_ge (by unfold Reg.CAV_Q_SPILL_CNT_LO; omega)) (not_setting_of_ge (by unfold Reg.CAV_Q_SPILL_CNT_LO; omega)) h)

theorem State.joinQueue_work (s : State) (q : QueueIx) (id n : Nat) (single : Bool) : PortWork s (s.joinQueue q id n single) := by
  have mark := not_setting_of_ge (k := Reg.CAV_Q_MARK_CNT_LO q.val) (by unfold Reg.CAV_Q_MARK_CNT_LO; omega)
  have mark4 := not_setting_of_ge (k := Reg.CAV_Q_MARK_CNT_LO q.val + 4) (by unfold Reg.CAV_Q_MARK_CNT_LO; omega)
  unfold State.joinQueue
  extract_lets x due full marked spilled r s1 c s2
  have joined : PortWork s s1 := s.modQueue_work q _
  have spilt : PortWork s s2 :=
    .ite (.countSpill q (joined.trans (.withCav _ _)))
      (.ite (.count (k := Reg.SUMP_SPILL_DEFER) (not_setting_of_ge (by decide)) joined) joined)
  exact .ite (.count48 1 mark mark4 spilt) spilt

theorem State.joinAll_work (s : State) (id : Nat) (c : Cls) (n : Nat) (single : Bool) (ps : List EgressPort) :
    PortWork s (s.joinAll id c n single ps).1 := by
  have sifted := s.sift_work c n ps
  unfold State.joinAll
  dsimp only
  (repeat' split)
  · exact sifted.trans (State.release_work _ id)
  · exact sifted
  · exact (sifted.trans (.withCav _ _)).trans (.each (fun t p => t.joinQueue_work (queueOf p c) id n single) _ _)

theorem State.retryOne_work (s : State) (w : Waiting) : PortWork s (s.retryOne w).1 := by
  have away := PortWork.withCav s { s.cav with waiting := s.cav.waiting.filter fun x => x.id != w.id }
  unfold State.retryOne
  dsimp only
  split
  · exact away
  · rename_i f _
    have joined := away.trans (State.joinAll_work _ w.id w.tc f.frame.cells w.single w.targets)
    split
    · exact .refl s
    · rename_i e
      rw [e] at joined
      exact .modPort (.modPort joined fun _ => by exact ⟨rfl, id, id⟩) fun _ => by exact ⟨rfl, id, id⟩

theorem State.retryWaiting_work (s : State) (ws : List Waiting) (blocked : List (LinkPort × Cls × Bool)) :
    PortWork s (s.retryWaiting ws blocked) := by
  induction ws generalizing s blocked with
  | nil => exact .refl s
  | cons w ws ih =>
    have one := s.retryOne_work w
    unfold State.retryWaiting
    split
    · exact ih s blocked
    · split <;> rename_i e <;> rw [e] at one <;> exact one.trans (ih _ _)

theorem State.settle_work (s : State) : PortWork s s.settle := s.retryWaiting_work _ _

/-! ## Link loss and the fall to DOWN (R103, R193-R197) -/

theorem State.countFraming_work (s : State) (p : LinkPort) : PortWork s (s.countFraming p) := by
  refine .ite (.count (not_setting_of_trunk ?_) (.refl s)) (.count ?_ (.refl s))
  · unfold Reg.TRK_FRAMING_ERR; omega
  · unfold IsSetting Reg.LOC_FRAMING_ERR; omega

theorem State.emptyFrame_work (s : State) (p : LinkPort) : PortWork s (s.emptyFrame p) := .of_eq rfl rfl rfl rfl

theorem State.dropPartial_work (s : State) (p : LinkPort) : PortWork s (s.dropPartial p) := by
  have cut : PortWork s (((s.modPort p fun x => { x with inFrame := false }).countFraming p).emptyFrame p) :=
    (PortWork.modPort (.refl s) fun _ => by exact ⟨rfl, id, id⟩).trans ((State.countFraming_work _ p).trans (State.emptyFrame_work _ p))
  unfold State.dropPartial
  refine .ite ?_ (.refl s)
  dsimp only
  split
  · exact cut.trans (State.abortCut_work _ _)
  · exact cut

theorem State.dropOn_work (s : State) (p : LinkPort) (i : Nat) : PortWork s (s.dropOn p i) := .ite (s.dropPartial_work p) (.refl s)

theorem State.loseSent_work (s : State) (p : LinkPort) : PortWork s (s.loseSent p) := by
  have lost : PortWork s (s.drawn.modPort p fun x => { x with txHead := none }) := .modPort (.drawn s) fun _ => by exact ⟨rfl, id, id⟩
  unfold State.loseSent
  exact .ite (.ite (lost.countDown _) lost) (.refl s)

theorem State.lossQueues_work (s : State) (t : TrunkPort) : PortWork s (s.lossQueues t) := by
  unfold State.lossQueues
  extract_lets p win s1
  have flushed : PortWork s s1 := (s.loseSent_work p).trans (State.flushPort_work _ (toEgress p) 6 7)
  refine .ite flushed (.ite ?_ ?_)
  · exact .modPort (flushed.trans (State.flushPort_work _ _ 0 5)) fun _ => by exact ⟨rfl, id, id⟩
  · exact .modPort flushed fun _ => by exact ⟨rfl, id, id⟩

theorem State.localDown_work (s : State) (p : LinkPort) : PortWork s (s.localDown p) :=
  ((s.endCuts_work _).trans (State.flushPort_work _ _ 0 7)).trans (State.settle_work _)

/-- What a link loss leaves to the queues once its port is no longer up. -/
def State.afterLoss (s : State) (p : LinkPort) : State :=
  match asTrunk p with
  | some t => ((s.lossQueues t).count (Reg.TRK_DOWN_COUNT t.val)).settle
  | none => s.localDown p

theorem State.afterLoss_work (s : State) (p : LinkPort) : PortWork s (s.afterLoss p) := by
  unfold State.afterLoss
  split
  · refine (PortWork.count (not_setting_of_trunk ?_) (s.lossQueues_work _)).trans (State.settle_work _)
    unfold Reg.TRK_DOWN_COUNT
    omega
  · exact s.localDown_work p

/-- The port of a link loss: not up, with the head of the loss. -/
def Port.lost (head : Nat) (x : Port) : Port :=
  { x with reached := false, lossHead := some head, lossDead := false, coupledKept := x.coupled, fastTried := false, fastFailed := false }

theorem State.linkLoss_of_reached {s : State} {p : LinkPort} (h : s.ports[p].reached = true) :
    s.linkLoss p = (s.modPort p (Port.lost s.heads)).afterLoss p := by
  unfold State.linkLoss
  rw [h]
  rfl

theorem State.linkLoss_of_not_reached {s : State} {p : LinkPort} (h : s.ports[p].reached = false) : s.linkLoss p = s := by
  unfold State.linkLoss
  rw [h]
  rfl

theorem State.linkLoss_work (s : State) (p : LinkPort) : PortWork s (s.linkLoss p) := by
  cases h : s.ports[p].reached with
  | false => rw [State.linkLoss_of_not_reached h]; exact .refl s
  | true =>
    rw [State.linkLoss_of_reached h]
    exact (PortWork.modPort (.refl s) fun _ => by exact ⟨rfl, id, fun _ => rfl⟩).trans (State.afterLoss_work _ p)

/-- A port whose link is lost is no longer up. -/
theorem State.linkLoss_reached (s : State) (p : LinkPort) : (s.linkLoss p).ports[p].reached = false := by
  cases h : s.ports[p].reached with
  | false => rwa [State.linkLoss_of_not_reached h]
  | true =>
    rw [State.linkLoss_of_reached h]
    exact ((State.afterLoss_work _ p).ports p).2.2 (congrArg Port.reached (s.modPort_port p (Port.lost s.heads)))

theorem PortWork.countTrunk {s t : State} (p : LinkPort) {r : Nat → Nat} (hr : ∀ i < 4, 0x040000 ≤ r i ∧ r i < 0x050000)
    (h : PortWork s t) : PortWork s (t.countTrunk p r) := by
  unfold State.countTrunk
  split
  · exact .count (not_setting_of_trunk (hr _ ‹_›)) h
  · exact h

/-- A port that has gone to DOWN. -/
def Port.fallen (head : Nat) (eth : Bool) (x : Port) : Port :=
  { x with
    stage := .down, stageHead := head, adm := .closed, txLanes := 0, rxLanes := 0, txWidth := 0, rxWidth := 0, parked := 0, refuse := 0
    agreed := false, caps := Vector.replicate 4 none, discarding := false, echoReq := none, ignoring := false
    localFault := x.localFault || eth, retryHead := none, ownTx := [] }

/-- A lane whose port has gone to DOWN. -/
def Lane.fallen (x : Lane) : Lane :=
  { x with
    skew := none, remoteLoop := x.remoteLoop && x.lock == .locked, rxReady := false, txReady := false, tseq := none, dropped := false }

theorem Lane.fallen_kept (x : Lane) : x.Kept x.fallen := by
  refine ⟨rfl, ?_⟩
  by_cases locked : x.lock = .locked
  · exact .inl (by simp [Lane.fallen, locked])
  · exact .inr ⟨locked, by simp [Lane.fallen, locked]⟩

/-- The frame in reception of a port that falls is lost, and a local port's cut-through frame with it. -/
def State.receptionLost (s : State) (p : LinkPort) : State :=
  match asLocal p with
  | some n => (s.dropPartial p).abortCut n
  | none => s.dropPartial p

theorem State.receptionLost_work (s : State) (p : LinkPort) : PortWork s (s.receptionLost p) := by
  unfold State.receptionLost
  split
  · exact (s.dropPartial_work p).trans (State.abortCut_work _ _)
  · exact s.dropPartial_work p

/-- The agents of a trunk port that falls stop. -/
def State.agentStopped (s : State) (p : LinkPort) : State :=
  match asTrunk p with
  | some t => s.modAgent t fun a => { a with running := false, hello := [], peerHello := [], resume := [] }
  | none => s

theorem State.agentStopped_work (s : State) (p : LinkPort) : PortWork s (s.agentStopped p) := by
  unfold State.agentStopped
  split
  · exact .of_eq rfl rfl rfl rfl
  · exact .refl s

theorem State.agentStopped_ports (s : State) (p : LinkPort) : (s.agentStopped p).ports = s.ports := by
  unfold State.agentStopped
  split <;> rfl

/-- A port before its lanes fall with it. -/
def State.portFalls (s : State) (p : LinkPort) : State :=
  let lost := (s.receptionLost p).linkLoss p
  (lost.modPort p (Port.fallen lost.heads (lost.isEth p))).agentStopped p

theorem State.portDown_eq (s : State) (p : LinkPort) : s.portDown p =
    (s.portFalls p).over (List.range ((s.portFalls p).laneCount p)) fun t i => t.modLane (laneAt p i) Lane.fallen := by
  unfold State.portDown State.portFalls State.receptionLost State.agentStopped
  rfl

theorem State.portFalls_work (s : State) (p : LinkPort) : PortWork s (s.portFalls p) :=
  (PortWork.modPort ((s.receptionLost_work p).trans (State.linkLoss_work _ p)) fun _ => by exact ⟨rfl, fun _ => rfl, id⟩).trans
    (State.agentStopped_work _ p)

theorem State.portDown_work (s : State) (p : LinkPort) : PortWork s (s.portDown p) := by
  rw [State.portDown_eq]
  exact (s.portFalls_work p).trans (.each (fun t i => .modLane (.refl t) Lane.fallen_kept) _ _)

/-- After its fall a port is DOWN and no longer up. -/
theorem State.portDown_port (s : State) (p : LinkPort) :
    (s.portDown p).ports[p].stage = .down ∧ (s.portDown p).ports[p].reached = false := by
  have fell := ((s.receptionLost p).linkLoss p).modPort_port p
    (Port.fallen ((s.receptionLost p).linkLoss p).heads (((s.receptionLost p).linkLoss p).isEth p))
  have lanesOnly (l : List Nat) : ((s.portFalls p).over l fun t i => t.modLane (laneAt p i) Lane.fallen).ports = (s.portFalls p).ports :=
    State.over_ports (fun _ _ => by rfl) _ l
  rw [State.portDown_eq, lanesOnly, State.portFalls, State.agentStopped_ports, fell]
  exact ⟨rfl, State.linkLoss_reached _ p⟩

/-! ## Faults and the transmit set (R77, R101, R102) -/

theorem State.reservesInForce_work (s : State) (p : LinkPort) : PortWork s (s.reservesInForce p) := by
  have one (t : State) (q : LinkPort) : PortWork t (t.reserveInForce q) := .modPort (.refl t) fun _ => by exact ⟨rfl, id, id⟩
  unfold State.reservesInForce
  exact .ite (.each one s _) (one s p)

theorem State.toStage_work {s : State} {p : LinkPort} {st : Stage} (h : s.ports[p].stage ≠ .down) : PortWork s (s.toStage p st) :=
  .modPortAt (.refl s) ⟨rfl, fun down => absurd down h, id⟩

theorem State.evalWidth_work (s : State) (p : LinkPort) : PortWork s (s.evalWidth p) := by
  unfold State.evalWidth
  extract_lets x low s1
  have staged : PortWork s s1 := by
    show PortWork s (if _ then _ else if _ then _ else _)
    split
    · rename_i active
      exact .countTrunk p (fun i hi => by unfold Reg.TRK_DEGRADE_COUNT; omega) (s.toStage_work (by simp_all [x]))
    · split
      · rename_i degraded
        exact (s.toStage_work (by simp_all [x])).trans (State.reservesInForce_work _ p)
      · exact .refl s
  exact .ite (staged.trans (State.portDown_work _ p)) staged

theorem State.sendAmk_work (s : State) (p : LinkPort) (scheduled : Bool) : PortWork s (s.sendAmk p scheduled) :=
  .emit _ (.modPort (.refl s) fun _ => by exact ⟨rfl, id, id⟩)

theorem State.resyncTx_work (s : State) (p : LinkPort) : PortWork s (s.resyncTx p) := by
  unfold State.resyncTx
  extract_lets s1
  have frozen : PortWork s s1 := .each (fun t k => .modPort (.refl t) fun _ => by exact ⟨rfl, id, id⟩) s _
  exact .count (not_setting_of_ge (by decide)) (.modPort frozen fun _ => by exact ⟨rfl, id, id⟩)

theorem degradeDisc_trunk (i : Nat) (h : i < 4) : 0x040000 ≤ Reg.TRK_DEGRADE_DISC i ∧ Reg.TRK_DEGRADE_DISC i < 0x050000 := by
  unfold Reg.TRK_DEGRADE_DISC
  omega

theorem State.abandonTx_work (s : State) (p : LinkPort) : PortWork s (s.abandonTx p) := by
  unfold State.abandonTx
  extract_lets cuts
  refine .ite (.each (fun t c => ?_) s cuts) (.ite (.ite (.countTrunk p degradeDisc_trunk (.drawn s)) (.drawn s)) (.refl s))
  exact .countTrunk p degradeDisc_trunk ((PortWork.withCav t _).trans (State.release_work _ c.id))

theorem State.txDrop_work (s : State) (p : LinkPort) : PortWork s (s.txDrop p) := by
  unfold State.txDrop
  extract_lets x left gone s1 s2 s3 s4
  have abandoned : PortWork s s1 := (PortWork.each (fun t i => .modLane (.refl t) fun _ => by exact ⟨rfl, .inl rfl⟩) s gone).trans
    (State.abandonTx_work _ p)
  have narrowed : PortWork s s2 := .modPort abandoned fun _ => by exact ⟨rfl, id, id⟩
  have announced : PortWork s s3 := .ite narrowed (narrowed.trans (State.sendAmk_work _ p false))
  have resynced : PortWork s s4 := .ite announced (announced.trans (State.resyncTx_work _ p))
  exact .ite (.refl s) (resynced.trans (State.evalWidth_work _ p))

theorem State.rxFault_work (s : State) (p : LinkPort) (i : Nat) : PortWork s (s.rxFault p i) := by
  unfold State.rxFault
  extract_lets x
  refine .ite (.refl s) (.ite ?_ (.modPort (.refl s) fun _ => by exact ⟨rfl, id, id⟩))
  exact (PortWork.modPort (.refl s) fun _ => by exact ⟨rfl, id, id⟩).trans (State.evalWidth_work _ p)

theorem State.ethDown_work (s : State) (p : LinkPort) : PortWork s (s.ethDown p) := by
  unfold State.ethDown
  split
  · exact .refl s
  · rename_i n _
    extract_lets s1 s2
    have told : PortWork s s1 := .ite (.refl s) (.emit _ (.refl s))
    have faulty : PortWork s s2 := .modPort told fun _ => by exact ⟨rfl, id, id⟩
    refine .ite ?_ faulty
    exact (PortWork.modPort (faulty.trans (State.abortCut_work _ n)) fun _ => by exact ⟨rfl, fun _ => rfl, fun _ => rfl⟩).trans
      (State.localDown_work _ p)

end Sys2Proof.Machine
end

section
/-! Block lock and the signal levels (R67, R75, R76, Table LAN-4). -/

namespace Sys2Proof.Machine

open Sys2Proof

/-! ## The end of lock -/

/-- A lane that leaves LOCKED, as its port takes it. -/
def Lane.unlocked (x : Lane) : Lane :=
  { x with lock := .hunt, count := 0, errors := 0, window := 0, ebuf := 0, lockSec := x.lockSec + 1 }

/-- A lane that its port has lost. -/
def Lane.lost (x : Lane) : Lane := { x with remoteLoop := false, skew := none, rxReady := false }

theorem State.laneLost_work (s : State) (l : LaneIx) : PortWork (s.modLane l Lane.lost) (s.laneLost l) := by
  unfold State.laneLost
  extract_lets p s1
  exact .ite (State.ethDown_work s1 p) ((State.dropOn_work s1 p _).trans (State.rxFault_work _ p _))

/-- The registers that the end of lock writes: the held CTLE, the eye's VALID and the count of losses. -/
def lockLossRegs (l : LaneIx) : List Nat := [Reg.LANE_EQ l.val, Reg.LANE_EYE l.val, Reg.LANE_LOCK_LOSS l.val]

theorem State.holdCtle_regs (s : State) (l : LaneIx) : SameRegsBut (lockLossRegs l) s (s.holdCtle l) := by
  unfold State.holdCtle
  split
  · exact .setReg (by simp [lockLossRegs]) s _
  · exact .of_regs rfl _

/-- A lane before its port answers to its loss of lock. -/
def State.lockGone (s : State) (l : LaneIx) : State :=
  ((((s.holdCtle l).modLane l Lane.unlocked).setFld (Reg.LANE_EYE l.val) 17 17 0).count (Reg.LANE_LOCK_LOSS l.val)).modLane l Lane.lost

theorem State.lockLost_work (s : State) (l : LaneIx) : PortWork (s.lockGone l) (s.lockLost l) := State.laneLost_work _ l

theorem State.lockGone_lane (s : State) (l : LaneIx) : (s.lockGone l).lanes[l] = s.lanes[l].unlocked.lost := by
  have held : (s.holdCtle l).lanes = s.lanes := by simp [State.holdCtle_keeps]
  refine (State.modLane_lane _ l Lane.lost).trans (congrArg Lane.lost ?_)
  exact (State.modLane_lane _ l Lane.unlocked).trans (by rw [held])

theorem State.lockGone_regs (s : State) (l : LaneIx) : SameRegsBut (lockLossRegs l) s (s.lockGone l) :=
  (s.holdCtle_regs l).trans ((SameRegsBut.setReg (by simp [lockLossRegs]) _ _).trans (.count (by simp [lockLossRegs]) _))

/-- A lane whose lock is lost hunts, without errors, its signal levels as they were. -/
theorem State.lockLost_lane (s : State) (l : LaneIx) : (s.lockLost l).lanes[l].lock = .hunt ∧ (s.lockLost l).lanes[l].errors = 0 ∧
    (s.lockLost l).lanes[l].los = s.lanes[l].los ∧ (s.lockLost l).lanes[l].lol = s.lanes[l].lol := by
  have kept := (s.lockLost_work l).lanes l
  rw [s.lockGone_lane l] at kept
  exact ⟨kept.field Lane.lock fun _ => rfl, kept.field Lane.errors fun _ => rfl, (kept.field Lane.los fun _ => rfl).trans rfl,
    (kept.field Lane.lol fun _ => rfl).trans rfl⟩

/-- Of the lanes' registers a loss of lock writes only its own. -/
theorem State.lockLost_reg {k : Nat} {l : LaneIx} (setting : IsSetting k) (other : k ∉ lockLossRegs l) (s : State) :
    (s.lockLost l).reg k = s.reg k := ((s.lockLost_work l).regs k setting).trans (s.lockGone_regs l k other)

theorem isSetting_of_lane {k : Nat} (h : 0x020000 ≤ k ∧ k < 0x028000) : IsSetting k := .inl h

theorem isSetting_losCount (l : LaneIx) : IsSetting (Reg.LANE_LOS_COUNT l.val) :=
  isSetting_of_lane (by have := l.isLt; unfold Reg.LANE_LOS_COUNT; omega)

theorem isSetting_lolCount (l : LaneIx) : IsSetting (Reg.LANE_LOL_COUNT l.val) :=
  isSetting_of_lane (by have := l.isLt; unfold Reg.LANE_LOL_COUNT; omega)

theorem isSetting_hdrErr (l : LaneIx) : IsSetting (Reg.LANE_HDR_ERR l.val) :=
  isSetting_of_lane (by have := l.isLt; unfold Reg.LANE_HDR_ERR; omega)

theorem counts_not_lockLoss (l : LaneIx) : Reg.LANE_LOS_COUNT l.val ∉ lockLossRegs l ∧ Reg.LANE_LOL_COUNT l.val ∉ lockLossRegs l ∧
    Reg.LANE_HDR_ERR l.val ∉ lockLossRegs l := by
  simp only [lockLossRegs, List.mem_cons, List.not_mem_nil, or_false, Reg.LANE_LOS_COUNT, Reg.LANE_LOL_COUNT, Reg.LANE_HDR_ERR,
    Reg.LANE_EQ, Reg.LANE_EYE, Reg.LANE_LOCK_LOSS]
  omega

theorem Counted.congr {k : Nat} {s t u : State} (h : Counted k s t) (e : u.reg k = t.reg k) : Counted k s u := by
  simpa only [Counted, e] using h

/-! ## LOS and LOL -/

/-- Where the lane is not locked the loss of its signal touches the lane alone. -/
theorem State.signalLost_of_not_locked {s : State} {l : LaneIx} (h : s.lanes[l].lock ≠ .locked) :
    ∃ f : Lane → Lane, (∀ x, (f x).los = x.los ∧ (f x).lol = x.lol) ∧ s.signalLost l = s.modLane l f := by
  unfold State.signalLost
  rw [if_neg (by simpa using h)]
  split
  · exact ⟨fun x => { x with count := 0, rxReady := false }, fun _ => ⟨rfl, rfl⟩, rfl⟩
  · exact ⟨id, fun _ => ⟨rfl, rfl⟩, by simp [State.modLane, vmod, vset]⟩

theorem State.signalLost_of_locked {s : State} {l : LaneIx} (h : s.lanes[l].lock = .locked) : s.signalLost l = s.lockLost l := by
  unfold State.signalLost
  rw [if_pos (by simpa using h)]

/-- What a rise of a level leaves: the level, its count, and a lane that was locked in HUNT. -/
structure LevelRisen (s t : State) (l : LaneIx) (level : Lane → Bool) (k : Nat) : Prop where
  level : level t.lanes[l] = true
  counted : Counted k s t
  mem : SameMemory s t
  unlocked : s.lanes[l].lock = .locked → t.lanes[l].lock = .hunt
  alone : s.lanes[l].lock ≠ .locked → SameRegsBut [k] s t ∧ SameLanesBut l s t

/-- A level that rises by `f` and is counted in `k`, before the lane answers. -/
theorem State.signalLost_risen {l : LaneIx} {k : Nat} {f : Lane → Lane} {level : Lane → Bool} (hf : ∀ x, (f x).lock = x.lock)
    (up : ∀ x, level (f x) = true) (levels : ∀ x y : Lane, y.los = x.los → y.lol = x.lol → level y = level x)
    (setting : IsSetting k) (other : k ∉ lockLossRegs l) (s : State) :
    LevelRisen s (((s.modLane l f).count k).signalLost l) l level k := by
  have lane : ((s.modLane l f).count k).lanes[l] = f s.lanes[l] := s.modLane_lane l f
  have counted : Counted k s ((s.modLane l f).count k) := .count k (s.modLane l f)
  by_cases locked : s.lanes[l].lock = .locked
  · rw [State.signalLost_of_locked (by rw [lane, hf, locked])]
    obtain ⟨lock, -, los, lol⟩ := State.lockLost_lane ((s.modLane l f).count k) l
    refine ⟨?_, counted.congr (State.lockLost_reg setting other _), .of_mem (by simp [State.lockLost_keeps]), fun _ => lock,
      fun unlocked => absurd locked unlocked⟩
    rw [levels _ _ los lol, lane, up]
  · obtain ⟨g, same, lost⟩ := State.signalLost_of_not_locked (s := (s.modLane l f).count k) (l := l) (by rwa [lane, hf])
    rw [lost]
    refine ⟨?_, counted, .of_mem rfl, fun h => absurd h locked, fun _ => ⟨.count (by simp) (s.modLane l f), fun j hj => ?_⟩⟩
    · rw [show (((s.modLane l f).count k).modLane l g).lanes[l] = g (f s.lanes[l]) from lane ▸ State.modLane_lane _ l g]
      rw [levels (f s.lanes[l]) _ (same _).1 (same _).2, up]
    · exact (SameLanesBut.modLane _ l g j hj).trans (SameLanesBut.modLane s l f j hj)

/-- A lane whose LOS has risen. -/
def Lane.losRisen (x : Lane) : Lane := { x with los := true, losSec := x.losSec + 1 }

/-- A lane whose LOL has risen. -/
def Lane.lolRisen (x : Lane) : Lane := { x with lol := true }

theorem exec_losAssert {s : State} {l : LaneIx} (core : s.coreOn = true) (on : s.laneOn l = true) (clear : s.lanes[l].los = false) :
    exec (.losAssert l) s = .next (((s.modLane l Lane.losRisen).count (Reg.LANE_LOS_COUNT l.val)).signalLost l) := by
  simp only [exec, execLosAssert, State.whenCore_on core, on, clear, Bool.not_true, Bool.or_false, Bool.false_eq_true, if_false]
  rfl

theorem exec_lolAssert {s : State} {l : LaneIx} (core : s.coreOn = true) (on : s.laneOn l = true) (clear : s.lanes[l].lol = false) :
    exec (.lolAssert l) s = .next (((s.modLane l Lane.lolRisen).count (Reg.LANE_LOL_COUNT l.val)).signalLost l) := by
  simp only [exec, execLolAssert, State.whenCore_on core, on, clear, Bool.not_true, Bool.or_false, Bool.false_eq_true, if_false]
  rfl

theorem State.losAssert_risen {s : State} {l : LaneIx} (core : s.coreOn = true) (on : s.laneOn l = true)
    (clear : s.lanes[l].los = false) :
    ∃ t, exec (.losAssert l) s = .next t ∧ LevelRisen s t l Lane.los (Reg.LANE_LOS_COUNT l.val) :=
  ⟨_, exec_losAssert core on clear, State.signalLost_risen (f := Lane.losRisen) (level := Lane.los)
    (fun _ => rfl) (fun _ => rfl) (fun _ _ los _ => los) (isSetting_losCount l)
    (counts_not_lockLoss l).1 s⟩

theorem State.lolAssert_risen {s : State} {l : LaneIx} (core : s.coreOn = true) (on : s.laneOn l = true)
    (clear : s.lanes[l].lol = false) :
    ∃ t, exec (.lolAssert l) s = .next t ∧ LevelRisen s t l Lane.lol (Reg.LANE_LOL_COUNT l.val) :=
  ⟨_, exec_lolAssert core on clear, State.signalLost_risen (f := Lane.lolRisen) (level := Lane.lol)
    (fun _ => rfl) (fun _ => rfl) (fun _ _ _ lol => lol) (isSetting_lolCount l)
    (counts_not_lockLoss l).2.1 s⟩

/-- A lane that hunts again where both levels are clear and its lock was off. -/
def Lane.back (x : Lane) : Lane := if !x.los && !x.lol && x.lock == .off then { x with lock := .hunt, count := 0 } else x

theorem Lane.back_levels (x : Lane) : x.back.los = x.los ∧ x.back.lol = x.lol := by
  unfold Lane.back
  split <;> exact ⟨rfl, rfl⟩

theorem Lane.back_lock {x : Lane} (los : x.los = false) (lol : x.lol = false) (off : x.lock = .off) : x.back.lock = .hunt := by
  simp [Lane.back, los, lol, off]

/-- What the fall of a level, by `f`, leaves of the lane. -/
theorem State.signalBack_lane (s : State) (l : LaneIx) (f : Lane → Lane) :
    ((s.modLane l f).signalBack l).lanes[l] = (f s.lanes[l]).back ∧ SameLanesBut l s ((s.modLane l f).signalBack l) := by
  refine ⟨?_, fun j hj => ?_⟩
  · exact (State.modLane_lane _ l Lane.back).trans (congrArg Lane.back (s.modLane_lane l f))
  · exact (SameLanesBut.modLane _ l Lane.back j hj).trans (SameLanesBut.modLane s l f j hj)

theorem exec_losClear {s : State} {l : LaneIx} (core : s.coreOn = true) (on : s.laneOn l = true) :
    exec (.losClear l) s = .next ((s.modLane l fun x => { x with los := false }).signalBack l) := by
  simp [exec, execLosClear, State.whenCore_on core, on]

theorem exec_lolClear {s : State} {l : LaneIx} (core : s.coreOn = true) (on : s.laneOn l = true) :
    exec (.lolClear l) s = .next ((s.modLane l fun x => { x with lol := false }).signalBack l) := by
  simp [exec, execLolClear, State.whenCore_on core, on]

/-- Settles O13: each level's rise and fall, read off its equation. -/
theorem signalLevels : Obligations.SignalLevels := by
  intro s l core on
  have los := State.losAssert_risen (s := s) (l := l) core on
  have lol := State.lolAssert_risen (s := s) (l := l) core on
  refine ⟨fun clear free => ?_, fun clear locked => ?_, fun clear free => ?_, fun clear locked => ?_, fun stands => ?_,
    fun stands => ?_, ⟨_, exec_losClear core on, ?_⟩, ⟨_, exec_lolClear core on, ?_⟩⟩
  · obtain ⟨t, run, rise⟩ := los clear
    exact ⟨t, run, rise.level, rise.counted, (rise.alone free).1, (rise.alone free).2, rise.mem⟩
  · obtain ⟨t, run, rise⟩ := los clear
    exact ⟨t, run, rise.level, rise.unlocked locked, rise.counted, rise.mem⟩
  · obtain ⟨t, run, rise⟩ := lol clear
    exact ⟨t, run, rise.level, rise.counted, (rise.alone free).1, (rise.alone free).2, rise.mem⟩
  · obtain ⟨t, run, rise⟩ := lol clear
    exact ⟨t, run, rise.level, rise.unlocked locked, rise.counted, rise.mem⟩
  · simp [-Fin.getElem_fin, exec, execLosAssert, State.whenCore_on core, stands]
  · simp [-Fin.getElem_fin, exec, execLolAssert, State.whenCore_on core, stands]
  · obtain ⟨lane, others⟩ := s.signalBack_lane l fun x => { x with los := false }
    rw [lane]
    exact ⟨(Lane.back_levels _).1, .of_regs rfl _, others, fun clear off => Lane.back_lock rfl clear off⟩
  · obtain ⟨lane, others⟩ := s.signalBack_lane l fun x => { x with lol := false }
    rw [lane]
    exact ⟨(Lane.back_levels _).2, .of_regs rfl _, others, fun clear off => Lane.back_lock clear rfl off⟩

end Sys2Proof.Machine
end

section
/-! A block received (R56-R58, R67, R84, Table LAN-4): what block lock makes of its header. -/

namespace Sys2Proof.Machine

open Sys2Proof

/-! ## What happens to a block before block lock sees it -/

/-- The lock of lane `l` and the count of its header errors stay, and so does memory. -/
structure SameLock (l : LaneIx) (s t : State) : Prop where
  lock : t.lanes[l].lock = s.lanes[l].lock
  count : t.lanes[l].count = s.lanes[l].count
  errors : t.lanes[l].errors = s.lanes[l].errors
  window : t.lanes[l].window = s.lanes[l].window
  hdrErr : t.reg (Reg.LANE_HDR_ERR l.val) = s.reg (Reg.LANE_HDR_ERR l.val)
  mem : t.mem = s.mem

theorem SameLock.trans {l : LaneIx} {s t u : State} (h : SameLock l s t) (h' : SameLock l t u) : SameLock l s u :=
  ⟨h'.lock.trans h.lock, h'.count.trans h.count, h'.errors.trans h.errors, h'.window.trans h.window, h'.hdrErr.trans h.hdrErr,
    h'.mem.trans h.mem⟩

/-- The work of ports changes no lock. -/
theorem PortWork.sameLock {s t : State} (h : PortWork s t) (mem : t.mem = s.mem) (l : LaneIx) : SameLock l s t :=
  ⟨(h.lanes l).field Lane.lock fun _ => rfl, (h.lanes l).field Lane.count fun _ => rfl, (h.lanes l).field Lane.errors fun _ => rfl,
    (h.lanes l).field Lane.window fun _ => rfl, h.regs _ (isSetting_hdrErr l), mem⟩

/-- Neither does a change of the lane elsewhere, or of a register other than LANE_HDR_ERR. -/
theorem SameLock.modLane {l : LaneIx} {s t : State} {f : Lane → Lane} (h : SameLock l s t) (hf : ∀ x, (f x).lock = x.lock ∧
    (f x).count = x.count ∧ (f x).errors = x.errors ∧ (f x).window = x.window) : SameLock l s (t.modLane l f) := by
  have lane := t.modLane_lane l f
  obtain ⟨lock, count, errors, window⟩ := hf t.lanes[l]
  refine h.trans ⟨?_, ?_, ?_, ?_, rfl, rfl⟩ <;> rw [lane] <;> assumption

theorem SameLock.setReg {l : LaneIx} {s t : State} {k : Nat} (hk : Reg.LANE_HDR_ERR l.val ≠ k) (w : Word) (h : SameLock l s t) :
    SameLock l s (t.setReg k w) := h.trans ⟨rfl, rfl, rfl, rfl, State.reg_setReg_other hk t w, rfl⟩

theorem SameLock.countN {l : LaneIx} {s t : State} {k : Nat} (hk : Reg.LANE_HDR_ERR l.val ≠ k) (n : Nat) (h : SameLock l s t) :
    SameLock l s (t.countN k n) := h.setReg hk _

theorem SameLock.withLine {l : LaneIx} {s t : State} (x : LineState) (h : SameLock l s t) : SameLock l s { t with line := x } :=
  ⟨h.lock, h.count, h.errors, h.window, h.hdrErr, h.mem⟩

theorem SameLock.refl (l : LaneIx) (s : State) : SameLock l s s := ⟨rfl, rfl, rfl, rfl, rfl, rfl⟩

/-- The pattern checker counts in LANE_PRBS_ERR and keeps its place in the lane (R84). -/
theorem State.checkPattern_lane (s : State) (l : LaneIx) (b : Block) :
    SameLock l s (s.checkPattern l b) ∧ SameLanesBut l s (s.checkPattern l b) := by
  unfold State.checkPattern
  dsimp only
  split
  · exact ⟨(SameLock.refl l s).modLane fun _ => by exact ⟨rfl, rfl, rfl, rfl⟩, .modLane s l _⟩
  · generalize (lineBits b.hdr b.payload).foldl _ _ = checked
    obtain ⟨h, g, e⟩ := checked
    refine ⟨.countN ?_ _ ((SameLock.refl l s).modLane fun _ => by exact ⟨rfl, rfl, rfl, rfl⟩), .modLane s l _⟩
    unfold Reg.LANE_HDR_ERR Reg.LANE_PRBS_ERR
    omega

theorem State.unscramble_lane (s : State) (l : LaneIx) (b : Block) :
    SameLock l s (s.unscramble l b).1 ∧ (s.unscramble l b).1.lanes = s.lanes ∧ (s.unscramble l b).2.hdr = b.hdr :=
  ⟨.withLine _ (.refl l s), rfl, rfl⟩

/-- Without a near-end loop block lock sees the block of the line, descrambled. -/
theorem exec_blockReceived {s : State} {l : LaneIx} (core : s.coreOn = true) (on : s.laneOn l = true) (los : s.lanes[l].los = false)
    (lol : s.lanes[l].lol = false) (loop0 : s.lanes[l].loop.getLsbD 0 = false) (loop1 : s.lanes[l].loop.getLsbD 1 = false)
    (hdr : BitVec 2) (payload : BitVec 64) (reads : Nat) : ∃ (u : State) (p : BitVec 64), SameLock l s u ∧ SameLanesBut l s u ∧
      exec (.blockReceived l hdr payload reads) s = .next (u.takeBlock l { hdr := hdr, payload := p } reads) := by
  let line : Block := { hdr := hdr, payload := payload }
  have driven : (s.farLoop l line).lanes = s.lanes := by unfold State.farLoop; split <;> rfl
  have fed : (s.farLoop l line).rxSource l line = (s.farLoop l line, line) := by
    unfold State.rxSource
    rw [driven]
    simp only [loop0, loop1, Bool.false_and, Bool.or_false, Bool.false_eq_true, if_false]
  have heard : SameLock l s (s.farLoop l line) := by
    unfold State.farLoop
    split
    · exact .withLine _ (.refl l s)
    · exact .refl l s
  obtain ⟨checked, others⟩ := (s.farLoop l line).checkPattern_lane l line
  obtain ⟨plain, lanes, hdrKept⟩ := ((s.farLoop l line).checkPattern l line).unscramble_lane l line
  refine ⟨_, (((s.farLoop l line).checkPattern l line).unscramble l line).2.payload, (heard.trans checked).trans plain,
    fun j hj => ?_, ?_⟩
  · rw [lanes, others j hj, driven]
  · simp only [exec, execBlockReceived, State.whenCore_on core, on, los, lol, Bool.not_true, Bool.or_false, Bool.false_and,
      Bool.false_eq_true, if_false]
    rw [show State.rxSource _ l line = _ from fed, ← show _ = hdr from hdrKept]

/-! ## HUNT -/

theorem State.takeBlock_hunt_data {s : State} {l : LaneIx} (hunt : s.lanes[l].lock = .hunt) (p : BitVec 64) (reads : Nat) :
    s.takeBlock l { hdr := 1, payload := p } reads = if 63 ≤ s.lanes[l].count then s.lockGained l
      else s.modLane l fun x => { x with count := x.count + 1 } := by
  simp [-Fin.getElem_fin, State.takeBlock, hunt]

theorem State.takeBlock_hunt_bad {s : State} {l : LaneIx} {hdr : BitVec 2} (bad : hdr = 0 ∨ hdr = 3) (hunt : s.lanes[l].lock = .hunt)
    (p : BitVec 64) (reads : Nat) : s.takeBlock l { hdr := hdr, payload := p } reads =
      (if s.lanes[l].los || s.lanes[l].lol then s else s.slipBit l).modLane l fun x => { x with count := 0 } := by
  rcases bad with rfl | rfl <;> simp [-Fin.getElem_fin, State.takeBlock, hunt]

/-- A lane that locks counts errors anew. -/
theorem State.lockGained_lane (s : State) (l : LaneIx) :
    (s.lockGained l).lanes[l].lock = .locked ∧ (s.lockGained l).lanes[l].errors = 0 := by
  unfold State.lockGained
  extract_lets s1
  have lane : s1.lanes[l] = { s.lanes[l] with lock := .locked, count := 0, errors := 0, window := 0, ebuf := 8 } := s.modLane_lane l _
  have up : (s1.ethUp (s1.portOfLane l)).lanes = s1.lanes := by simp [State.ethUp_keeps]
  rw [up, lane]
  exact ⟨rfl, rfl⟩

/-! ## LOCKED: the stream of the port -/

theorem State.assemble_work (s : State) (p : LinkPort) (bs : List Byte) : PortWork s (s.assemble p bs) := .of_eq rfl rfl rfl rfl

theorem State.frameWhole_work (s : State) (p : LinkPort) : PortWork s (s.frameWhole p) := .of_eq rfl rfl rfl rfl

theorem State.framing_work (s : State) (p : LinkPort) (valid : Bool) (b : Block) : PortWork s (s.framing p valid b) := by
  unfold State.framing
  dsimp only
  (repeat' split)
  · exact s.dropPartial_work p
  · exact s.assemble_work p _
  · exact s.countFraming_work p
  · exact .modPort ((s.dropPartial_work p).trans (State.emptyFrame_work _ p)) fun _ => by exact ⟨rfl, id, id⟩
  · exact .modPort ((s.assemble_work p _).trans (State.frameWhole_work _ p)) fun _ => by exact ⟨rfl, id, id⟩
  · exact s.countFraming_work p
  · exact .refl s

theorem State.destripe_work (s : State) (p : LinkPort) (n : Nat) : PortWork s (s.destripe p n) := by
  induction n generalizing s with
  | zero => exact .refl s
  | succ n ih =>
    unfold State.destripe
    dsimp only
    split
    · exact .refl s
    · split
      · exact .refl s
      · exact (PortWork.withLine s _).trans ((State.framing_work _ p _ _).trans (ih _))

theorem State.streamBlock_work (s : State) (p : LinkPort) (l : LaneIx) (valid : Bool) (b : Block) :
    PortWork s (s.streamBlock p l valid b) := (PortWork.withLine s _).trans (State.destripe_work _ p _)

/-- The elastic buffer changes its level alone, and may count in LANE_EBUF_ERR (R69). -/
theorem State.buffer_sameLock (s : State) (l : LaneIx) (fill : Bool) (reads : Nat) : SameLock l s (s.buffer l fill reads).1 := by
  have kept (n : Nat) : SameLock l s (s.modLane l fun x => { x with ebuf := n }) :=
    (SameLock.refl l s).modLane fun _ => by exact ⟨rfl, rfl, rfl, rfl⟩
  unfold State.buffer
  dsimp only
  (repeat' split)
  · exact kept _
  · refine ((kept _).setReg (k := Reg.LANE_EBUF_ERR l.val) ?_ _).trans ⟨rfl, rfl, rfl, rfl, rfl, rfl⟩
    unfold Reg.LANE_HDR_ERR Reg.LANE_EBUF_ERR
    omega
  · exact kept _

/-- A bad header on a locked lane is an error, whatever its block does to the stream of the port. -/
theorem State.takeBlock_locked_bad {s : State} {l : LaneIx} {hdr : BitVec 2} (bad : hdr = 0 ∨ hdr = 3)
    (locked : s.lanes[l].lock = .locked) (p : BitVec 64) (reads : Nat) : ∃ v, SameLock l s v ∧
      s.takeBlock l { hdr := hdr, payload := p } reads = (v.lockError l).lockWindow l := by
  have kept := s.buffer_sameLock l false reads
  have streamed (b : Block) : SameLock l s ((s.buffer l false reads).1.streamBlock (s.portOfLane l) l false b) :=
    kept.trans ((State.streamBlock_work _ _ l false b).sameLock (by simp [State.streamBlock_keeps]) l)
  have fork : s.takeBlock l { hdr := hdr, payload := p } reads =
        (((s.buffer l false reads).1.streamBlock (s.portOfLane l) l false { hdr := hdr, payload := p }).lockError l).lockWindow l ∨
      s.takeBlock l { hdr := hdr, payload := p } reads = ((s.buffer l false reads).1.lockError l).lockWindow l := by
    rcases bad with rfl | rfl <;> (simp [-Fin.getElem_fin, State.takeBlock, locked, Block.isFill]; split <;> simp)
  rcases fork with e | e
  · exact ⟨_, streamed _, e⟩
  · exact ⟨_, kept, e⟩

/-! ## LOCKED: an error -/

/-- The window of a lane moves on, and at its end the errors are forgotten. -/
def Lane.windowed (x : Lane) : Lane :=
  if x.lock != .locked then x
  else if 63 ≤ x.window then { x with window := 0, errors := 0 } else { x with window := x.window + 1 }

theorem State.lockWindow_lane (s : State) (l : LaneIx) : (s.lockWindow l).lanes[l] = s.lanes[l].windowed :=
  s.modLane_lane l Lane.windowed

theorem Lane.windowed_lock (x : Lane) : x.windowed.lock = x.lock := by
  unfold Lane.windowed
  (repeat' split) <;> rfl

theorem Lane.windowed_of_hunt {x : Lane} (h : x.lock = .hunt) : x.windowed = x := by
  simp [Lane.windowed, h]

theorem Lane.windowed_errors {x : Lane} (h : x.window < 63) : x.windowed.errors = x.errors := by
  unfold Lane.windowed
  (repeat' split)
  · rfl
  · omega
  · rfl

/-- A lane with one more error. -/
def Lane.erred (x : Lane) : Lane := { x with errors := x.errors + 1 }

theorem State.lockError_of_few {s : State} {l : LaneIx} (h : s.lanes[l].errors < 15) : s.lockError l =
    (s.count (Reg.LANE_HDR_ERR l.val)).modLane l Lane.erred := by
  have few : ¬15 ≤ (s.count (Reg.LANE_HDR_ERR l.val)).lanes[l].errors := Nat.not_le.mpr h
  unfold State.lockError
  exact if_neg few

theorem State.lockError_of_fifteen {s : State} {l : LaneIx} (h : 15 ≤ s.lanes[l].errors) : s.lockError l =
    ((s.count (Reg.LANE_HDR_ERR l.val)).lockLost l).slipBit l := by
  have many : 15 ≤ (s.count (Reg.LANE_HDR_ERR l.val)).lanes[l].errors := h
  unfold State.lockError
  exact if_pos many

theorem SameLock.counted {l : LaneIx} {s v t : State} (h : SameLock l s v) (c : Counted (Reg.LANE_HDR_ERR l.val) v t) :
    Counted (Reg.LANE_HDR_ERR l.val) s t := by
  simpa only [Counted, h.hdrErr] using c

/-- Settles O12: HUNT counts good headers, LOCKED counts errors, and the sixteenth of a window ends the lock. -/
theorem blockLockRules : Obligations.BlockLockRules := by
  intro s l payload reads core on los lol loop0 loop1
  have received := exec_blockReceived core on los lol loop0 loop1
  refine ⟨fun hunt => ?_, fun hdr bad => ⟨fun hunt => ?_, fun locked few => ?_, fun locked many => ?_⟩⟩
  · obtain ⟨u, p, same, -, run⟩ := received 1 payload reads
    refine ⟨_, run, .of_mem ?_, fun full => ?_, fun short => ?_⟩
    · simpa [State.takeBlock_keeps] using same.mem
    · rw [State.takeBlock_hunt_data (same.lock.trans hunt), if_pos (by rwa [same.count])]
      exact u.lockGained_lane l
    · rw [State.takeBlock_hunt_data (same.lock.trans hunt), if_neg (by rw [same.count]; omega),
        show (u.modLane l fun x => { x with count := x.count + 1 }).lanes[l] = _ from u.modLane_lane l _]
      exact ⟨same.lock.trans hunt, congrArg (· + 1) same.count⟩
  · obtain ⟨u, p, same, others, run⟩ := received hdr payload reads
    rw [State.takeBlock_hunt_bad bad (same.lock.trans hunt)] at run
    have slipped : (if u.lanes[l].los || u.lanes[l].lol then u else u.slipBit l).lanes = u.lanes := by split <;> rfl
    have mem : (if u.lanes[l].los || u.lanes[l].lol then u else u.slipBit l).mem = u.mem := by split <;> rfl
    refine ⟨_, run, ?_, ?_, fun j hj => ?_, .of_mem (mem.trans same.mem)⟩
    · rw [State.modLane_lane, slipped]
      exact same.lock.trans hunt
    · rw [State.modLane_lane]
    · rw [SameLanesBut.modLane _ l _ j hj, slipped, others j hj]
  · obtain ⟨u, p, same, -, run⟩ := received hdr payload reads
    obtain ⟨v, same', taken⟩ := State.takeBlock_locked_bad bad (same.lock.trans locked) p reads
    have seen := same.trans same'
    rw [taken, State.lockError_of_few (seen.errors ▸ few)] at run
    have lane := State.lockWindow_lane ((v.count (Reg.LANE_HDR_ERR l.val)).modLane l Lane.erred) l
    rw [State.modLane_lane] at lane
    refine ⟨_, run, ?_, .of_mem seen.mem, seen.counted (.count _ v), fun inside => ?_⟩
    · rw [lane, Lane.windowed_lock]
      exact seen.lock.trans locked
    · rw [lane, Lane.windowed_errors (x := (v.count (Reg.LANE_HDR_ERR l.val)).lanes[l].erred) (lt_of_eq_of_lt seen.window inside)]
      exact congrArg (· + 1) seen.errors
  · obtain ⟨u, p, same, -, run⟩ := received hdr payload reads
    obtain ⟨v, same', taken⟩ := State.takeBlock_locked_bad bad (same.lock.trans locked) p reads
    have seen := same.trans same'
    rw [taken, State.lockError_of_fifteen (seen.errors ▸ many)] at run
    obtain ⟨hunt, errors, -, -⟩ := (v.count (Reg.LANE_HDR_ERR l.val)).lockLost_lane l
    have lane := State.lockWindow_lane (((v.count (Reg.LANE_HDR_ERR l.val)).lockLost l).slipBit l) l
    rw [Lane.windowed_of_hunt (by exact hunt)] at lane
    refine ⟨_, run, ?_, ?_, seen.counted (Counted.congr (.count _ v) ?_), .of_mem ?_⟩
    · rw [lane]
      exact hunt
    · rw [lane]
      exact errors
    · exact State.lockLost_reg (isSetting_hdrErr l) (counts_not_lockLoss l).2.2 _
    · simpa [State.lockWindow, State.slipBit, State.lockLost_keeps] using seen.mem

end Sys2Proof.Machine
end

section
/-! FLT blocks and the return of a lane (R77, R101, R102, R104). -/

namespace Sys2Proof.Machine

open Sys2Proof

/-! ## The lanes of a port -/

theorem State.laneCount_le (s : State) (p : LinkPort) : s.laneCount p ≤ 4 := by
  unfold State.laneCount
  split <;> omega

theorem laneAt_ne {p : LinkPort} {i j : Nat} (hi : i < 4) (hj : j < 4) (h : i ≠ j) : laneAt p i ≠ laneAt p j := by
  have hp := p.isLt
  intro e
  have e := congrArg Fin.val e
  simp only [laneAt] at e
  omega

theorem foldl_bits (f : Nat → Bool) (n : Nat) :
    (List.range n).foldl (fun a i => if f i then a + 2 ^ i else a) 0 < 2 ^ n ∧
      ∀ i, ((List.range n).foldl (fun a i => if f i then a + 2 ^ i else a) 0).testBit i = (decide (i < n) && f i) := by
  induction n with
  | zero => simp
  | succ n ih =>
    obtain ⟨small, bits⟩ := ih
    rw [List.range_succ, List.foldl_append]
    simp only [List.foldl_cons, List.foldl_nil]
    generalize (List.range n).foldl (fun a i => if f i then a + 2 ^ i else a) 0 = m at small bits
    cases hf : f n with
    | false =>
      simp only [Bool.false_eq_true, if_false]
      refine ⟨lt_trans small (Nat.pow_lt_pow_right (by omega) (by omega)), fun i => ?_⟩
      rw [bits]
      by_cases e : i = n
      · subst e; simp [hf]
      · have : i < n + 1 ↔ i < n := by omega
        simp [this]
    | true =>
      simp only [if_true]
      refine ⟨by rw [pow_succ]; omega, fun i => ?_⟩
      have plus : m + 2 ^ n = 2 ^ n * 1 + m := by ring
      rw [plus, Nat.testBit_two_pow_mul_add 1 small, bits]
      by_cases e : i < n
      · have : i < n + 1 := by omega
        simp [e, this]
      · by_cases e' : i = n
        · subst e'; simp [hf]
        · have out : ¬i < n + 1 := by omega
          have above : Nat.testBit 1 (i - n) = false := by
            rw [Bool.eq_false_iff, Ne, Nat.testBit_one_eq_true_iff_self_eq_zero]
            omega
          simp [e, out, above]

/-- Bit i of a mask is what its predicate says of lane i. -/
theorem getLsbD_maskOf {n : Nat} (h : n ≤ 4) (f : Nat → Bool) (i : Nat) : (maskOf n f).getLsbD i = (decide (i < n) && f i) := by
  obtain ⟨-, bits⟩ := foldl_bits f n
  rw [maskOf, BitVec.getLsbD_ofNat, bits]
  by_cases e : i < n
  · have : i < 4 := by omega
    simp [this]
  · simp [e]

/-- A mask without bit i is not one with it. -/
theorem ne_of_getLsbD {m m' : BitVec 4} {i : Nat} (h : m.getLsbD i = true) (h' : m'.getLsbD i = false) : m ≠ m' := by
  rintro rfl
  rw [h] at h'
  cases h'

theorem mem_laneList {m : BitVec 4} {i : Nat} : i ∈ laneList m ↔ i < 4 ∧ m.getLsbD i = true := by
  simp [laneList]

/-- The lowest lanes of a set are lanes of it. -/
theorem getLsbD_of_lowestLanes {m : BitVec 4} {i : Nat} (h : (lowestLanes m).getLsbD i = true) : m.getLsbD i = true := by
  unfold lowestLanes at h
  rw [getLsbD_maskOf (by omega), Bool.and_eq_true, List.contains_iff_mem] at h
  exact (mem_laneList.mp (List.mem_of_mem_take h.2)).2

/-! ## Folds over lanes -/

theorem State.over_cons {α : Type} (s : State) (a : α) (l : List α) (f : State → α → State) :
    s.over (a :: l) f = (f s a).over l f := rfl

theorem State.over_induction {α : Type} {f : State → α → State} {I : State → Prop} {l : List α} {s : State} (start : I s)
    (step : ∀ t, ∀ a ∈ l, I t → I (f t a)) : I (s.over l f) := by
  induction l generalizing s with
  | nil => exact start
  | cons a l ih => exact ih (step s a (by simp) start) fun t b hb => step t b (List.mem_cons_of_mem a hb)

/-- What one element brings about, and the others keep, holds after the fold. -/
theorem State.over_reaches {α : Type} {f : State → α → State} {I P : State → Prop} {l : List α} {a : α} (ha : a ∈ l) {s : State}
    (start : I s) (step : ∀ t, ∀ b ∈ l, I t → I (f t b)) (hit : ∀ t, I t → P (f t a)) (keep : ∀ t, ∀ b ∈ l, I t → P t → P (f t b)) :
    P (s.over l f) := by
  obtain ⟨before, after, rfl⟩ := List.append_of_mem ha
  have reached : I (s.over before f) := State.over_induction start fun t b hb => step t b (by simp [hb])
  rw [State.over, List.foldl_append]
  exact (State.over_induction (I := fun t => I t ∧ P t) (l := after) ⟨step _ a (by simp) reached, hit _ reached⟩
    fun t b hb h => ⟨step t b (by simp [hb]) h.1, keep t b (by simp [hb]) h.1 h.2⟩).2

/-- Nothing but the health of its lanes changes. -/
theorem State.noteHealth_lane (s : State) (p : LinkPort) (l : LaneIx) :
    ∃ h, (s.noteHealth p).lanes[l] = { s.lanes[l] with healthyAt := h } := by
  unfold State.noteHealth
  refine State.over_induction (I := fun t => ∃ h, t.lanes[l] = { s.lanes[l] with healthyAt := h }) ⟨_, rfl⟩ fun t i _ hl => ?_
  obtain ⟨h, hl⟩ := hl
  by_cases e : laneAt p i = l
  · rw [e, State.modLane_lane, hl]
    exact ⟨_, rfl⟩
  · exact ⟨h, (vmod_other e _ _).trans hl⟩

/-! ## FLT blocks -/

/-- A lane that a FLT block names. -/
def Lane.named (head : Nat) (x : Lane) : Lane := { x with fltAt := some head, healthyAt := none }

theorem exec_fltReceived {s : State} {p : LinkPort} (core : s.coreOn = true) (tvl : s.isTvl p = true) (up : s.ports[p].stage ≠ .down)
    (code lanes : BitVec 4) : exec (.fltReceived p code lanes) s =
      .next ((s.over ((List.range (s.laneCount p)).filter lanes.getLsbD) fun t i =>
        t.modLane (laneAt p i) (Lane.named t.heads)).txDrop p) := by
  have out : (s.ports[p].stage == .down) = false := by simpa using up
  simp only [exec, execFltReceived, State.whenCore_on core, tvl, out, Bool.not_true, Bool.or_false, Bool.false_eq_true, if_false]
  rfl

/-- A lane named by a FLT block is faulty for transmission from this head on. -/
theorem State.over_named_lane {s : State} {p : LinkPort} {l : List Nat} {i : Nat} (hi : i ∈ l) :
    let t := s.over l fun t i => t.modLane (laneAt p i) (Lane.named t.heads)
    t.lanes[laneAt p i].fltAt = some s.heads ∧ t.lanes[laneAt p i].healthyAt = none := by
  refine State.over_reaches (I := fun t => t.heads = s.heads)
    (P := fun t => t.lanes[laneAt p i].fltAt = some s.heads ∧ t.lanes[laneAt p i].healthyAt = none) hi rfl (fun _ _ _ h => h)
    (fun t same => ?_) (fun t j _ same h => ?_)
  · rw [State.modLane_lane, same]
    exact ⟨rfl, rfl⟩
  · by_cases e : laneAt p j = laneAt p i
    · rw [e, State.modLane_lane, same]
      exact ⟨rfl, rfl⟩
    · rw [show (t.modLane (laneAt p j) _).lanes[laneAt p i] = t.lanes[laneAt p i] from vmod_other e _ _]
      exact h

theorem exec_fltRxExpiry {s : State} {l : LaneIx} {h : Nat} (core : s.coreOn = true) (named : s.lanes[l].fltAt = some h)
    (old : h + 2 < s.heads) : exec (.fltRxExpiry l) s =
      .next ((s.modLane l fun x => { x with fltAt := none }).noteHealth (s.portOfLane l)) := by
  have late : ¬s.heads ≤ h + 2 := by omega
  simp only [exec, execFltRxExpiry, State.whenCore_on core, named, late, if_false]

/-- The FLT block of one code, where a lane of the port has it. -/
def State.sendFault (p : LinkPort) (s : State) (c : Nat) : State :=
  let m := maskOf (s.laneCount p) fun i => s.fltCode p i == c
  if m = 0 then s else s.emit (.flt p (BitVec.ofNat 4 c) m)

theorem exec_fltSend {s : State} {p : LinkPort} (core : s.coreOn = true) (tvl : s.isTvl p = true) (sends : s.sendLanes p ≠ [])
    (due : s.cadence s.ports[p].fltHead 1 = true) : exec (.fltSend p) s =
      .next ((s.over [1, 2, 3, 4, 6, 7, 8] (State.sendFault p)).modPort p fun x => { x with fltHead := some s.heads }) := by
  have some_lane : (s.sendLanes p).isEmpty = false := by simpa using sends
  simp only [exec, execFltSend, State.whenCore_on core, tvl, some_lane, due, Bool.not_true, Bool.or_false, Bool.false_eq_true,
    if_false]
  rfl

/-- Only what has been sent changes. -/
def State.OnlySends (s t : State) : Prop := ∃ (o : List Output) (x : LineState), t = { s with sent := o ++ s.sent, line := x }

theorem State.OnlySends.refl (s : State) : s.OnlySends s := ⟨[], s.line, rfl⟩

theorem State.OnlySends.trans {s t u : State} (h : s.OnlySends t) (h' : t.OnlySends u) : s.OnlySends u := by
  obtain ⟨o, x, rfl⟩ := h
  obtain ⟨o', x', rfl⟩ := h'
  exact ⟨o' ++ o, x', by simp⟩

theorem State.sendFault_onlySends (s : State) (p : LinkPort) (c : Nat) : s.OnlySends (s.sendFault p c) := by
  unfold State.sendFault
  dsimp only
  split
  · exact .refl s
  · exact ⟨[_], s.wire _, rfl⟩

theorem State.over_sendFault (s : State) (p : LinkPort) (l : List Nat) : s.OnlySends (s.over l (State.sendFault p)) :=
  State.over_induction (I := s.OnlySends) (.refl s) fun t c _ h => h.trans (t.sendFault_onlySends p c)

/-- The block of code c names a lane that has it. -/
theorem State.sendFault_names {s : State} {p : LinkPort} {i c : Nat} (hi : i < s.laneCount p) (code : s.fltCode p i = c) :
    ∃ m : BitVec 4, m.getLsbD i = true ∧ .flt p (BitVec.ofNat 4 c) m ∈ (s.sendFault p c).sent := by
  have named : (maskOf (s.laneCount p) fun i => s.fltCode p i == c).getLsbD i = true := by
    rw [getLsbD_maskOf (s.laneCount_le p)]
    simp [hi, code]
  have some_lane : (maskOf (s.laneCount p) fun i => s.fltCode p i == c) ≠ 0 := ne_of_getLsbD named BitVec.getLsbD_zero
  refine ⟨_, named, ?_⟩
  unfold State.sendFault
  dsimp only
  rw [if_neg some_lane]
  exact List.mem_cons_self ..

/-! ## A lane joins the transmit set -/

/-- The returns of a lane in the last 16,000 beats, with the one at this head. -/
def State.recentReturns (s : State) (l : LaneIx) : List Nat :=
  (s.lanes[l].returns.filter fun h => decide (s.heads < h + 16000)) ++ [s.heads]

/-- A lane that has returned to its transmit set. -/
def Lane.returned (recent : List Nat) (x : Lane) : Lane := { x with returns := recent, dropped := false }

/-- A lane has returned to its trunk port more often than FLAP_MAX (R104). -/
def State.flaps (s : State) (p : LinkPort) (i : Nat) : Prop :=
  p.val < 4 ∧ s.fld (Reg.TRK_CFG p.val) 9 2 < (s.recentReturns (laneAt p i)).length

/-- A port with lane i parked. -/
def Port.park (i : Nat) (x : Port) : Port := { x with parked := x.parked ||| BitVec.ofNat 4 (2 ^ i) }

theorem State.laneReturns_of_few {s : State} {p : LinkPort} {i : Nat} (h : ¬s.flaps p i) :
    s.laneReturns p i = s.modLane (laneAt p i) (Lane.returned (s.recentReturns (laneAt p i))) := by
  unfold State.laneReturns
  exact if_neg h

/-- A lane that has returned too often is parked, and is not one that the port receives on. -/
theorem State.laneReturns_of_many {s : State} {p : LinkPort} {i : Nat} (h : s.flaps p i) (out : s.ports[p].rxLanes.getLsbD i = false) :
    s.laneReturns p i = (s.modLane (laneAt p i) (Lane.returned (s.recentReturns (laneAt p i)))).modPort p (Port.park i) := by
  let t := (s.modLane (laneAt p i) (Lane.returned (s.recentReturns (laneAt p i)))).modPort p (Port.park i)
  have unheard : (!(t.ports[p].stage == .active || t.ports[p].stage == .degraded) || !t.ports[p].rxLanes.getLsbD i) = true := by
    have same : t.ports[p] = Port.park i s.ports[p] := State.modPort_port _ p (Port.park i)
    rw [same, show (Port.park i s.ports[p]).rxLanes = s.ports[p].rxLanes from rfl, out]
    simp
  have parked : s.laneReturns p i = t.rxFault p i := by
    unfold State.laneReturns
    exact if_pos h
  rw [parked, State.rxFault]
  exact if_pos unheard

/-- What joining depends on of a lane. -/
def Lane.joins (x : Lane) : Lane := { x with returns := [], dropped := false }

/-- The set to join depends neither on the returns of lanes nor on which of them have left. -/
theorem State.joinSet_congr {s : State} {lanes : Vector Lane 32} (h : ∀ l : LaneIx, lanes[l].joins = s.lanes[l].joins) (p : LinkPort) :
    ({ s with lanes := lanes } : State).joinSet p = s.joinSet p := by
  have field {β : Type} (π : Lane → β) (hπ : ∀ x, π x.joins = π x) (l : LaneIx) : π lanes[l] = π s.lanes[l] := by
    rw [← hπ lanes[l], h, hπ]
  have healthy (i : Nat) : ({ s with lanes := lanes } : State).laneHealthy p i = s.laneHealthy p i := by
    simp only [State.laneHealthy, State.loopActive, State.patternOn, field Lane.trained fun _ => rfl, field Lane.fltAt fun _ => rfl,
      field Lane.loop fun _ => rfl, field Lane.remoteLoop fun _ => rfl, field Lane.gen fun _ => rfl, field Lane.chk fun _ => rfl]
    rfl
  simp only [State.joinSet, healthy, field Lane.healthyAt fun _ => rfl]
  rfl

/-- Lanes that return without flapping change their own records alone. -/
theorem State.over_laneReturns {p : LinkPort} {l : List Nat} (nodup : l.Nodup) (small : ∀ i ∈ l, i < 4) {s : State}
    (few : ∀ i ∈ l, ¬s.flaps p i) : ∃ lanes : Vector Lane 32, s.over l (fun t i => t.laneReturns p i) = { s with lanes := lanes } ∧
      ∀ k : LaneIx, lanes[k].joins = s.lanes[k].joins := by
  induction l generalizing s with
  | nil => exact ⟨s.lanes, rfl, fun _ => rfl⟩
  | cons i l ih =>
    obtain ⟨fresh, nodup⟩ := List.nodup_cons.mp nodup
    let u := s.modLane (laneAt p i) (Lane.returned (s.recentReturns (laneAt p i)))
    have others (j : Nat) (hj : j ∈ l) : ¬u.flaps p j := by
      have apart : laneAt p i ≠ laneAt p j :=
        laneAt_ne (small i (by simp)) (small j (List.mem_cons_of_mem i hj)) (ne_of_mem_of_not_mem hj fresh).symm
      have same : u.lanes[laneAt p j] = s.lanes[laneAt p j] := vmod_other apart _ _
      have recent : u.recentReturns (laneAt p j) = s.recentReturns (laneAt p j) := by
        rw [State.recentReturns, same]
        rfl
      rw [State.flaps, recent]
      exact few j (List.mem_cons_of_mem i hj)
    obtain ⟨lanes, run, joins⟩ := ih nodup (fun j hj => small j (List.mem_cons_of_mem i hj)) others
    refine ⟨lanes, ?_, fun k => (joins k).trans ?_⟩
    · have first : s.over (i :: l) (fun t i => t.laneReturns p i) = u.over l (fun t i => t.laneReturns p i) :=
        congrArg (fun t : State => t.over l fun t i => t.laneReturns p i) (State.laneReturns_of_few (few i (by simp)))
      rw [first, run]
      rfl
    · by_cases e : laneAt p i = k
      · subst e
        rw [State.modLane_lane]
        rfl
      · rw [show u.lanes[k] = s.lanes[k] from vmod_other e _ _]

/-- The sets of a port and the number of its markers. -/
def Port.sets (x : Port) : BitVec 4 × BitVec 4 × BitVec 16 := (x.txLanes, x.parked, x.amkTx)

/-- A port that receives keeps its sets as its width is evaluated, and has nothing to send for it. -/
structure WidthEvaluated (p : LinkPort) (s t : State) : Prop where
  sets : ∀ j : LinkPort, t.ports[j].sets = s.ports[j].sets
  sent : t.sent = s.sent
  alone : s.isGroup p.val = false → SamePortsBut p s t

theorem State.reservesInForce_evaluated (s : State) (p : LinkPort) : WidthEvaluated p s (s.reservesInForce p) := by
  have one (t : State) (q j : LinkPort) : (t.reserveInForce q).ports[j].sets = t.ports[j].sets :=
    t.modPort_field _ Port.sets (fun _ => by rfl) q j
  unfold State.reservesInForce
  split
  · rename_i group
    refine ⟨fun j => ?_, by simp [State.reserveInForce], fun alone => absurd group (by simp [alone])⟩
    exact State.over_induction (I := fun t => t.ports[j].sets = s.ports[j].sets) rfl fun t q _ h => (one t q j).trans h
  · exact ⟨one s p, rfl, fun _ => .modPort s p _⟩

theorem State.evalWidth_evaluated {s : State} {p : LinkPort} (h : s.ports[p].rxWidth ≠ 0) : WidthEvaluated p s (s.evalWidth p) := by
  have staged (st : Stage) (j : LinkPort) : (s.toStage p st).ports[j].sets = s.ports[j].sets :=
    s.modPort_field _ Port.sets (fun _ => by rfl) p j
  have receives : (s.ports[p].rxWidth == 0) = false := by simpa using h
  unfold State.evalWidth
  extract_lets x low s1
  rw [if_neg (by simp [-Fin.getElem_fin, x, receives])]
  show WidthEvaluated p s (if _ then _ else if _ then _ else _)
  split
  · refine ⟨fun j => ?_, ?_, fun _ j hj => ?_⟩
    · rw [show ((s.toStage p .degraded).countTrunk p Reg.TRK_DEGRADE_COUNT).ports = (s.toStage p .degraded).ports by
        simp [State.countTrunk_keeps]]
      exact staged _ j
    · simp [State.countTrunk_keeps, State.toStage_keeps]
    · rw [show ((s.toStage p .degraded).countTrunk p Reg.TRK_DEGRADE_COUNT).ports = (s.toStage p .degraded).ports by
        simp [State.countTrunk_keeps]]
      exact SamePortsBut.modPort s p _ j hj
  · split
    · have reserves := (s.toStage p .active).reservesInForce_evaluated p
      exact ⟨fun j => (reserves.sets j).trans (staged _ j), reserves.sent,
        fun alone j hj => (reserves.alone alone j hj).trans (SamePortsBut.modPort s p _ j hj)⟩
    · exact ⟨fun _ => rfl, rfl, fun _ _ _ => rfl⟩

/-- The lanes that return as the set is joined. -/
def State.returning (s : State) (p : LinkPort) : List Nat :=
  (laneList (s.joinSet p)).filter fun i => !s.ports[p].txLanes.getLsbD i && s.lanes[laneAt p i].dropped

theorem State.mem_returning {s : State} {p : LinkPort} {i : Nat} : i ∈ s.returning p ↔
    i < 4 ∧ (s.joinSet p).getLsbD i = true ∧ s.ports[p].txLanes.getLsbD i = false ∧ s.lanes[laneAt p i].dropped = true := by
  simp only [State.returning, List.mem_filter, mem_laneList, Bool.and_eq_true, Bool.not_eq_true', and_assoc]

/-- A port that has joined a set of lanes, before its marker. -/
def Port.joined (set : BitVec 4) (x : Port) : Port := { x with txLanes := set, txWidth := (laneList set).length }

/-- The set that a port joins, at a marker. -/
def State.joins (s : State) (p : LinkPort) (set : BitVec 4) : State :=
  ((s.modPort p (Port.joined set)).sendAmk p true).evalWidth p

theorem exec_txLaneJoin {s : State} {p : LinkPort} {lane : Fin 4} (core : s.coreOn = true) (tvl : s.isTvl p = true)
    (stage : s.ports[p].stage = .active ∨ s.ports[p].stage = .degraded) (out : s.ports[p].txLanes.getLsbD lane.val = false)
    (ready : (s.joinSet p).getLsbD lane.val = true) : exec (.txLaneJoin p lane) s =
      .next (let t := s.over (s.returning p) fun t i => t.laneReturns p i
        if t.joinSet p = t.ports[p].txLanes || !t.portUp p then t else t.joins p (t.joinSet p)) := by
  have up : (s.ports[p].stage == .active || s.ports[p].stage == .degraded) = true := by
    rcases stage with h | h <;> simp [-Fin.getElem_fin, h]
  simp only [exec, execTxLaneJoin, State.whenCore_on core, tvl, up, out, ready, Bool.not_true, Bool.or_false, Bool.false_eq_true,
    if_false]
  rfl

/-- The marker carries the new set, and the port transmits on it. -/
theorem State.joins_spec {s : State} {p : LinkPort} (h : s.ports[p].rxWidth ≠ 0) (set : BitVec 4) :
    (s.joins p set).ports[p].txLanes = set ∧ (s.joins p set).ports[p].parked = s.ports[p].parked ∧
      (s.joins p set).ports[p].amkTx = s.ports[p].amkTx + 1 ∧
      .amk p set (laneList set).length (s.ports[p].amkTx + 1) true ∈ (s.joins p set).sent ∧
      (s.isGroup p.val = false → SamePortsBut p s (s.joins p set)) := by
  let t := (s.modPort p (Port.joined set)).sendAmk p true
  have port : t.ports[p] = { Port.joined set s.ports[p] with amkTx := s.ports[p].amkTx + 1 } := by
    rw [State.sendAmk_ports, State.modPort_port, State.modPort_port]
    rfl
  have evaluated : WidthEvaluated p t (t.evalWidth p) := State.evalWidth_evaluated (by rw [port]; exact h)
  have sets : (t.evalWidth p).ports[p].sets = (set, s.ports[p].parked, s.ports[p].amkTx + 1) := by
    rw [evaluated.sets, port]
    rfl
  obtain ⟨tx, rest⟩ := Prod.mk.inj sets
  obtain ⟨parked, amk⟩ := Prod.mk.inj rest
  refine ⟨tx, parked, amk, ?_, fun alone j hj => (evaluated.alone alone j hj).trans ?_⟩
  · rw [State.joins, evaluated.sent, State.sendAmk_sent, State.modPort_port]
    exact List.mem_cons_self ..
  · rw [State.sendAmk_ports]
    exact (SamePortsBut.modPort _ p _ j hj).trans (SamePortsBut.modPort s p _ j hj)

theorem State.joins_mem (s : State) (p : LinkPort) (set : BitVec 4) : (s.joins p set).mem = s.mem := by
  simp [State.joins, State.evalWidth_keeps, State.sendAmk_keeps]

/-- Lanes that do not flap join with the others that are ready. -/
theorem exec_txLaneJoin_few {s : State} {p : LinkPort} {lane : Fin 4} (core : s.coreOn = true) (tvl : s.isTvl p = true)
    (stage : s.ports[p].stage = .degraded) (good : s.ports[p].localFault = false) (out : s.ports[p].txLanes.getLsbD lane.val = false)
    (ready : (s.joinSet p).getLsbD lane.val = true) (few : ∀ i ∈ s.returning p, ¬s.flaps p i) :
    ∃ lanes : Vector Lane 32, exec (.txLaneJoin p lane) s = .next (({ s with lanes := lanes } : State).joins p (s.joinSet p)) := by
  have nodup : (s.returning p).Nodup := (List.nodup_range.filter _).filter _
  obtain ⟨lanes, run, joins⟩ := State.over_laneReturns nodup (fun i hi => (State.mem_returning.mp hi).1) few
  have set : ({ s with lanes := lanes } : State).joinSet p = s.joinSet p := State.joinSet_congr joins p
  have changed : s.joinSet p ≠ s.ports[p].txLanes := ne_of_getLsbD ready out
  have up : s.portUp p = true := by simp [-Fin.getElem_fin, State.portUp, stage, good]
  refine ⟨lanes, ?_⟩
  rw [exec_txLaneJoin core tvl (.inr stage) out ready, run]
  dsimp only
  rw [set, if_neg]
  simp only [changed, decide_false, Bool.false_or, Bool.not_eq_true', Bool.not_eq_false]
  exact up

/-! ## A lane that is parked instead -/

/-- Joining, the returns seen so far: lane `i` is parked, or has its returns still; the port transmits and receives as before. -/
structure Returning (p : LinkPort) (i : Nat) (s t : State) : Prop where
  regs : t.regs = s.regs
  heads : t.heads = s.heads
  mem : t.mem = s.mem
  tx : t.ports[p].txLanes = s.ports[p].txLanes
  rx : t.ports[p].rxLanes = s.ports[p].rxLanes
  width : t.ports[p].rxWidth = s.ports[p].rxWidth
  parked : t.ports[p].parked.getLsbD i = true ∨ t.lanes[laneAt p i].returns = s.lanes[laneAt p i].returns

theorem Returning.flaps {p : LinkPort} {i : Nat} {s t : State} (h : Returning p i s t) (flaps : s.flaps p i) :
    t.ports[p].parked.getLsbD i = true ∨ t.flaps p i := by
  refine h.parked.imp_right fun returns => ?_
  have recent : t.recentReturns (laneAt p i) = s.recentReturns (laneAt p i) := by
    rw [State.recentReturns, returns, h.heads]
    rfl
  rw [State.flaps, recent, State.fld, State.reg, h.regs]
  exact flaps

theorem getLsbD_park_same {i : Nat} (h : i < 4) (x : Port) : (Port.park i x).parked.getLsbD i = true := by
  simp only [Port.park, BitVec.getLsbD_or, BitVec.getLsbD_ofNat, Nat.testBit_two_pow_self, h, decide_true, Bool.and_self, Bool.or_true]

theorem getLsbD_park_of {i : Nat} {x : Port} (j : Nat) (h : x.parked.getLsbD i = true) : (Port.park j x).parked.getLsbD i = true := by
  simp only [Port.park, BitVec.getLsbD_or, h, Bool.true_or]

/-- One return of a lane that the port does not receive on: a flapping lane is parked by its own. -/
theorem Returning.step {p : LinkPort} {i j : Nat} {s t : State} (hi : i < 4) (hj : j < 4) (flaps : s.flaps p i)
    (out : s.ports[p].rxLanes.getLsbD j = false) (h : Returning p i s t) :
    Returning p i s (t.laneReturns p j) ∧
      (j = i ∨ t.ports[p].parked.getLsbD i = true → (t.laneReturns p j).ports[p].parked.getLsbD i = true) := by
  have unheard : t.ports[p].rxLanes.getLsbD j = false := by rw [h.rx, out]
  have returns : j ≠ i → (t.modLane (laneAt p j) (Lane.returned (t.recentReturns (laneAt p j)))).lanes[laneAt p i] =
      t.lanes[laneAt p i] := fun e => vmod_other (laneAt_ne hj hi e) _ _
  by_cases many : t.flaps p j
  · rw [State.laneReturns_of_many many unheard]
    have port : ((t.modLane (laneAt p j) (Lane.returned (t.recentReturns (laneAt p j)))).modPort p (Port.park j)).ports[p] =
      Port.park j t.ports[p] := State.modPort_port _ p _
    refine ⟨⟨h.regs, h.heads, h.mem, ?_, ?_, ?_, ?_⟩, ?_⟩
    · rw [port]; exact h.tx
    · rw [port]; exact h.rx
    · rw [port]; exact h.width
    · by_cases e : j = i
      · exact .inl (by rw [port, e]; exact getLsbD_park_same hi _)
      · refine h.parked.imp (fun parked => by rw [port]; exact getLsbD_park_of j parked) fun same => ?_
        exact (congrArg Lane.returns (returns e)).trans same
    · rw [port]
      rintro (rfl | parked)
      · exact getLsbD_park_same hi _
      · exact getLsbD_park_of j parked
  · rw [State.laneReturns_of_few many]
    have kept (e : j = i) : t.ports[p].parked.getLsbD i = true := (h.flaps flaps).resolve_right (e ▸ many)
    refine ⟨⟨h.regs, h.heads, h.mem, h.tx, h.rx, h.width, ?_⟩, fun now => now.elim kept id⟩
    by_cases e : j = i
    · exact .inl (kept e)
    · exact h.parked.imp_right (congrArg Lane.returns (returns e)).trans

/-- After all returns a flapping lane among them is parked. -/
theorem State.over_laneReturns_parked {p : LinkPort} {i : Nat} {l : List Nat} {s : State} (hi : i ∈ l) (small : ∀ j ∈ l, j < 4)
    (flaps : s.flaps p i) (out : ∀ j ∈ l, s.ports[p].rxLanes.getLsbD j = false) :
    Returning p i s (s.over l fun t j => t.laneReturns p j) ∧
      (s.over l fun t j => t.laneReturns p j).ports[p].parked.getLsbD i = true := by
  have start : Returning p i s s := ⟨rfl, rfl, rfl, rfl, rfl, rfl, .inr rfl⟩
  have one (t : State) (j : Nat) (hj : j ∈ l) := Returning.step (t := t) (small i hi) (small j hj) flaps (out j hj)
  exact ⟨State.over_induction (I := Returning p i s) start fun t j hj h => (one t j hj h).1,
    State.over_reaches (I := Returning p i s) (P := fun t => t.ports[p].parked.getLsbD i = true) hi start
      (fun t j hj h => (one t j hj h).1) (fun t h => (one t i hi h).2 (.inl rfl))
      fun t j hj h parked => (one t j hj h).2 (.inr parked)⟩

/-- A parked lane is not in the set to join. -/
theorem State.joinSet_of_parked {s : State} {p : LinkPort} {i : Nat} (h : s.ports[p].parked.getLsbD i = true) :
    (s.joinSet p).getLsbD i = false := by
  rw [Bool.eq_false_iff]
  intro joins
  have healthy := getLsbD_of_lowestLanes joins
  simp [-Fin.getElem_fin, getLsbD_maskOf (s.laneCount_le p), State.laneHealthy, h] at healthy

/-- Where a lane flaps and none of those that return is heard, its port parks it and keeps it out of its transmit set. -/
theorem exec_txLaneJoin_parked {s : State} {p : LinkPort} {lane : Fin 4} (core : s.coreOn = true) (tvl : s.isTvl p = true)
    (stage : s.ports[p].stage = .active ∨ s.ports[p].stage = .degraded) (out : s.ports[p].txLanes.getLsbD lane.val = false)
    (ready : (s.joinSet p).getLsbD lane.val = true) (dropped : s.lanes[laneAt p lane.val].dropped = true) (flaps : s.flaps p lane.val)
    (unheard : ∀ i ∈ s.returning p, s.ports[p].rxLanes.getLsbD i = false) (receives : s.ports[p].rxWidth ≠ 0) :
    ∃ t, exec (.txLaneJoin p lane) s = .next t ∧ t.ports[p].parked.getLsbD lane.val = true ∧
      t.ports[p].txLanes.getLsbD lane.val = false ∧ SameMemory s t := by
  have returns : lane.val ∈ s.returning p := State.mem_returning.mpr ⟨lane.isLt, ready, out, dropped⟩
  obtain ⟨after, parked⟩ := State.over_laneReturns_parked returns (fun i hi => (State.mem_returning.mp hi).1) flaps unheard
  refine ⟨_, exec_txLaneJoin core tvl stage out ready, ?_⟩
  generalize s.over (s.returning p) (fun t i => t.laneReturns p i) = t at after parked
  dsimp only
  split
  · exact ⟨parked, after.tx ▸ out, .of_mem after.mem⟩
  · obtain ⟨tx, park, -, -, -⟩ := State.joins_spec (s := t) (p := p) (by rwa [after.width]) (t.joinSet p)
    refine ⟨?_, ?_, .of_mem ((t.joins_mem p _).trans after.mem)⟩
    · rw [park]
      exact parked
    · rw [tx]
      exact State.joinSet_of_parked parked

/-- Settles O17: each command's effect, read off its equation above. -/
theorem faultBlocks : Obligations.FaultBlocks := by
  intro s core
  refine ⟨fun p code lanes i tvl up hi named => ?_, fun l h marked old => ?_, fun p i tvl sends due hi code => ?_,
    fun p lane tvl stage receives out ready good few => ?_, fun p lane stage out ready unheard receives dropped flaps => ?_⟩
  · have mem : i ∈ (List.range (s.laneCount p)).filter lanes.getLsbD := by simp [hi, named]
    obtain ⟨fltAt, healthyAt⟩ := State.over_named_lane (s := s) (p := p) mem
    refine ⟨_, exec_fltReceived core tvl up code lanes, ?_⟩
    generalize e : (s.over ((List.range (s.laneCount p)).filter lanes.getLsbD) fun t i =>
      t.modLane (laneAt p i) (Lane.named t.heads)) = t at fltAt healthyAt
    have kept := (t.txDrop_work p).lanes (laneAt p i)
    refine ⟨(kept.field Lane.fltAt fun _ => rfl).trans fltAt, (kept.field Lane.healthyAt fun _ => rfl).trans healthyAt, .of_mem ?_⟩
    rw [show (t.txDrop p).mem = t.mem by simp [State.txDrop_keeps], ← e]
    exact State.over_mem (fun _ _ => by rfl) s _
  · refine ⟨_, exec_fltRxExpiry core marked old, ?_, .of_regs ?_ _, ?_, .of_mem ?_⟩
    · obtain ⟨x, e⟩ := (s.modLane l fun x => { x with fltAt := none }).noteHealth_lane (s.portOfLane l) l
      rw [e, State.modLane_lane]
    all_goals simp [State.noteHealth_keeps]
  · obtain ⟨m, names, first⟩ := State.sendFault_names hi code
    obtain ⟨o, x, rest⟩ := (s.sendFault p 1).over_sendFault p [2, 3, 4, 6, 7, 8]
    obtain ⟨o', x', one⟩ := s.sendFault_onlySends p 1
    have all := s.over_cons 1 [2, 3, 4, 6, 7, 8] (State.sendFault p)
    refine ⟨_, exec_fltSend core tvl sends due, ⟨m, names, ?_⟩, ?_⟩
    · rw [all, rest]
      exact List.mem_append_right o first
    · rw [all, rest, one]
      exact ⟨rfl, State.modPort_port _ p _, .modPort s p _, .of_regs rfl _, .of_mem rfl⟩
  · have free : ∀ i ∈ s.returning p, ¬s.flaps p i := by
      rintro i hi ⟨trunk, many⟩
      obtain ⟨small, joins, gone, dropped⟩ := State.mem_returning.mp hi
      rw [State.recentReturns, List.length_append, List.length_singleton] at many
      rcases few ⟨i, small⟩ joins gone with kept | link | few
      · exact absurd (dropped.symm.trans kept) (by decide)
      · omega
      · exact absurd few (Nat.not_le.mpr many)
    obtain ⟨lanes, run⟩ := exec_txLaneJoin_few core tvl stage good out ready free
    obtain ⟨tx, -, amk, marker, alone⟩ := State.joins_spec (s := { s with lanes := lanes }) receives (s.joinSet p)
    exact ⟨_, run, tx, amk, marker, alone, .of_mem (State.joins_mem _ p _)⟩
  · have tvl : s.isTvl (trunk p) = true := by simp [State.isTvl, trunk]
    refine exec_txLaneJoin_parked core tvl stage out ready dropped ⟨p.isLt, ?_⟩ (fun i hi => ?_) receives
    · rw [State.recentReturns, List.length_append, List.length_singleton]
      exact flaps
    · obtain ⟨small, joins, gone, -⟩ := State.mem_returning.mp hi
      exact unheard ⟨i, small⟩ joins gone

end Sys2Proof.Machine
end

section
/-! A register write that takes effect (R270, R274): the word that it stores, and the action of its block. -/

namespace Sys2Proof.Machine

open Sys2Proof

/-! ## Fields of a stored word -/

theorem bitsOf_eq_extractLsb' (w : Word) (hi lo : Nat) : bitsOf w hi lo = (w.extractLsb' lo (hi - lo + 1)).toNat := by
  rw [bitsOf, BitVec.extractLsb'_toNat, Nat.shiftRight_eq_div_pow]

/-- Words with the same bits in a field agree in it. -/
theorem bitsOf_congr {w v : Word} {hi lo : Nat} (h : ∀ i, lo ≤ i → i ≤ hi → w.getLsbD i = v.getLsbD i) (order : lo ≤ hi) :
    bitsOf w hi lo = bitsOf v hi lo := by
  rw [bitsOf_eq_extractLsb', bitsOf_eq_extractLsb']
  refine congrArg BitVec.toNat (BitVec.eq_of_getLsbD_eq fun i hi => ?_)
  rw [BitVec.getLsbD_extractLsb', BitVec.getLsbD_extractLsb', h (lo + i) (by omega) (by omega)]

/-- A word with the bits of a mask taken from the data written. -/
def storedWord (mask old data : Word) : Word := (old &&& ~~~mask) ||| (data &&& mask)

theorem getLsbD_storedWord (mask old data : Word) (i : Nat) :
    (storedWord mask old data).getLsbD i = if mask.getLsbD i then data.getLsbD i else old.getLsbD i := by
  by_cases small : i < 32
  · cases h : mask.getLsbD i <;> simp [-BitVec.getLsbD_eq_getElem, storedWord, h, small]
  · simp [storedWord, BitVec.getLsbD_of_ge _ _ (Nat.not_lt.mp small)]

/-- A field that the register stores holds what was written. -/
theorem bitsOf_storedWord {mask : Word} {hi lo : Nat} (h : ∀ i, lo ≤ i → i ≤ hi → mask.getLsbD i = true) (order : lo ≤ hi)
    (old data : Word) : bitsOf (storedWord mask old data) hi lo = bitsOf data hi lo :=
  bitsOf_congr (fun i hlo hhi => by rw [getLsbD_storedWord, h i hlo hhi, if_pos rfl]) order

/-! ## The write -/

/-- A row of one register for all masters that stores the bits of `mask`, in TEST too. -/
structure RegRow.Stores (r : RegRow) (mask : Nat) : Prop where
  shared : r.perMaster = false
  bits : r.bits .ctl ||| r.bits .shd ||| r.bits .grd ||| r.bits .fen = mask
  counts : r.bits .cnt = 0

theorem RegRow.Stores.storedBits {r : RegRow} {mask : Nat} (h : r.Stores mask) (s : State) : s.storedBits r = mask := by
  rw [State.storedBits, h.bits, h.counts]
  split <;> simp

/-- The state in which a write that takes effect is evaluated. -/
def State.writes (s : State) (acc : AccessState) (a mask : Nat) (data : Word) : State :=
  ({ s with acc := acc } : State).setReg a (storedWord (BitVec.ofNat 32 (mask &&& 0xFFFFFFFF)) (s.reg a) data)

/-- A write that its register takes stores its fields and acts by its block; of the rest only access control has changed before. -/
theorem State.command_of_takes {s : State} {m : Master} {a : Nat} {r : RegRow} {mask : Nat} (takes : s.Takes m a)
    (row : regRow a = some r) (stores : r.Stores mask) (direct : a < 0x1000000) (aligned : a % 4 = 0) (other : a ≠ Reg.GLB_UNLOCK)
    (out : inWindow a = false) (data : Word) : ∃ acc, s.command m a data =
      (s.writes acc a mask data).wrote m a (s.reg a) (storedWord (BitVec.ofNat 32 (mask &&& 0xFFFFFFFF)) (s.reg a) data) data := by
  obtain ⟨acc, writing⟩ := s.writing_eq m
  have whole : data &&& BitVec.ofNat 32 0xFFFFFFFF = data := BitVec.and_allOnes
  have written := State.commandN_of_takes takes row direct aligned other data.toNat
  rw [State.commandN, BitVec.ofNat_toNat, BitVec.setWidth_eq, writing] at written
  refine ⟨acc, written.trans ?_⟩
  simp only [State.writeFields, out, regKey, stores.shared, stores.storedBits, whole, Bool.false_eq_true, if_false]
  rfl

end Sys2Proof.Machine
end

section
/-! Loops that the partner asks for and those asked of it (R81-R85, Table LAN-9). -/

namespace Sys2Proof.Machine

open Sys2Proof

/-! ## A block that names one lane -/

theorem named_single : ∀ n ≤ 4, ∀ i : Fin 4, i.val < n → (List.range n).filter (BitVec.ofNat 4 (2 ^ i.val)).getLsbD = [i.val] := by
  decide

theorem State.named_single (s : State) (p : LinkPort) {i : Fin 4} (hi : i.val < s.laneCount p) :
    (List.range (s.laneCount p)).filter (BitVec.ofNat 4 (2 ^ i.val)).getLsbD = [i.val] :=
  Machine.named_single _ (s.laneCount_le p) i hi

theorem maskOf_single : ∀ i : Fin 4, maskOf 4 [i.val].contains = BitVec.ofNat 4 (2 ^ i.val) := by decide

/-! ## A lane enters or leaves a loop -/

/-- A lane that answers to its loop keeps the parts of its signal that are not its health, and what was sent stays sent. -/
structure LoopAnswered (s t : State) : Prop where
  lanes : ∀ k : LaneIx, ∃ h, Lane.Kept { s.lanes[k] with healthyAt := h } t.lanes[k]
  sent : s.sent <:+ t.sent
  mem : t.mem = s.mem

theorem State.ethUp_kept (s : State) (p : LinkPort) (k : LaneIx) : s.lanes[k].Kept (s.ethUp p).lanes[k] := by
  rw [show (s.ethUp p).lanes = s.lanes by simp [State.ethUp_keeps]]
  exact .refl _

/-- What the port does about a lane that enters or leaves a loop, after the lane's health. -/
theorem State.loopChanged_work (s : State) (l : LaneIx) :
    (∀ k : LaneIx, (s.noteHealth (s.portOfLane l)).lanes[k].Kept (s.loopChanged l).lanes[k]) ∧ s.sent <:+ (s.loopChanged l).sent := by
  have sent : (s.noteHealth (s.portOfLane l)).sent = s.sent := by simp [State.noteHealth_keeps]
  have works {t : State} (h : PortWork (s.noteHealth (s.portOfLane l)) t) :
      (∀ k : LaneIx, (s.noteHealth (s.portOfLane l)).lanes[k].Kept t.lanes[k]) ∧ s.sent <:+ t.sent := ⟨h.lanes, sent ▸ h.sent⟩
  unfold State.loopChanged
  extract_lets p s1
  (repeat' split)
  · exact works (((State.dropOn_work s1 p _).trans (State.txDrop_work _ p)).trans (State.rxFault_work _ p _))
  · exact works (.refl s1)
  · exact works (State.ethDown_work s1 p)
  · exact ⟨s1.ethUp_kept p, by rw [show (s1.ethUp p).sent = s1.sent by simp [State.ethUp_keeps], sent]⟩

theorem State.loopChanged_answered (s : State) (l : LaneIx) : LoopAnswered s (s.loopChanged l) := by
  obtain ⟨lanes, sent⟩ := s.loopChanged_work l
  refine ⟨fun k => ?_, sent, by simp [State.loopChanged_keeps]⟩
  obtain ⟨h, e⟩ := s.noteHealth_lane (s.portOfLane l) k
  exact ⟨h, e ▸ lanes k⟩

/-- The local loop of a lane stays. -/
theorem LoopAnswered.loop {s t : State} (h : LoopAnswered s t) (k : LaneIx) : t.lanes[k].loop = s.lanes[k].loop := by
  obtain ⟨_, kept⟩ := h.lanes k
  exact (kept.field Lane.loop fun _ => rfl).trans rfl

/-- A partner's loop that is off stays off. -/
theorem LoopAnswered.off {s t : State} (h : LoopAnswered s t) {k : LaneIx} (off : s.lanes[k].remoteLoop = false) :
    t.lanes[k].remoteLoop = false := by
  obtain ⟨_, -, same | ⟨-, gone⟩⟩ := h.lanes k
  · exact same.trans off
  · exact gone

/-- A partner's loop on a locked lane stays. -/
theorem LoopAnswered.on {s t : State} (h : LoopAnswered s t) {k : LaneIx} (locked : s.lanes[k].lock = .locked)
    (on : s.lanes[k].remoteLoop = true) : t.lanes[k].remoteLoop = true := by
  obtain ⟨_, -, same | ⟨free, -⟩⟩ := h.lanes k
  · exact same.trans on
  · exact absurd locked free

/-! ## Requests, answers and releases -/

/-- A lane that its partner has looped, or not. -/
def Lane.remote (on : Bool) (x : Lane) : Lane := { x with remoteLoop := on }

theorem exec_lpbkRequestReceived_granted {s : State} {p : LinkPort} {i : Fin 4} (core : s.coreOn = true) (tvl : s.isTvl p = true)
    (up : s.ports[p].stage ≠ .down) (hi : i.val < s.laneCount p) (ok : s.bit (Reg.LANE_LOOP (laneAt p i.val).val) 3 = true) :
    exec (.lpbkRequestReceived p (BitVec.ofNat 4 (2 ^ i.val))) s = .next (((s.emit (.lpbk p 2 (BitVec.ofNat 4 (2 ^ i.val)))).modLane
      (laneAt p i.val) (Lane.remote true)).loopChanged (laneAt p i.val)) := by
  have out : (s.ports[p].stage == .down) = false := by simpa using up
  simp only [exec, execLpbkRequestReceived, State.whenCore_on core, tvl, out, s.named_single p hi, List.filter_cons, List.filter_nil,
    ok, Bool.not_true, Bool.or_false, Bool.false_eq_true, if_false, if_true, List.isEmpty_cons, List.isEmpty_nil, maskOf_single]
  rfl

theorem exec_lpbkRequestReceived_refused {s : State} {p : LinkPort} {i : Fin 4} (core : s.coreOn = true) (tvl : s.isTvl p = true)
    (up : s.ports[p].stage ≠ .down) (hi : i.val < s.laneCount p) (no : s.bit (Reg.LANE_LOOP (laneAt p i.val).val) 3 = false) :
    exec (.lpbkRequestReceived p (BitVec.ofNat 4 (2 ^ i.val))) s = .next ((s.count (Reg.LANE_LPBK_FAIL (laneAt p i.val).val)).emit
      (.lpbk p 3 (BitVec.ofNat 4 (2 ^ i.val)))) := by
  have out : (s.ports[p].stage == .down) = false := by simpa using up
  simp only [exec, execLpbkRequestReceived, State.whenCore_on core, tvl, out, s.named_single p hi, List.filter_cons, List.filter_nil,
    no, Bool.not_true, Bool.not_false, Bool.or_false, Bool.false_eq_true, if_false, if_true, List.isEmpty_cons, List.isEmpty_nil,
    maskOf_single]
  rfl

/-- A lane without a request of its own. -/
def Lane.unasked (x : Lane) : Lane := { x with lpbkHeads := none }

theorem exec_lpbkAnswerReceived {s : State} {p : LinkPort} {i : Fin 4} (core : s.coreOn = true) (hi : i.val < s.laneCount p)
    (asked : s.lanes[laneAt p i.val].lpbkHeads.isSome = true) (accepted : Bool) :
    exec (.lpbkAnswerReceived p (BitVec.ofNat 4 (2 ^ i.val)) accepted) s = .next (if accepted then
      (s.modLane (laneAt p i.val) Lane.unasked).setBit (Reg.LANE_LOOP (laneAt p i.val).val) 5 true
      else (s.modLane (laneAt p i.val) Lane.unasked).count (Reg.LANE_LPBK_FAIL (laneAt p i.val).val)) := by
  have runs : s.lanes[laneAt p i.val].lpbkHeads.isNone = false := by rw [← Option.not_isSome, asked]; rfl
  simp only [exec, execLpbkAnswerReceived, State.whenCore_on core, s.named_single p hi, State.over_cons, runs, Bool.false_eq_true,
    if_false]
  rfl

theorem exec_lpbkReleaseReceived {s : State} {p : LinkPort} {i : Fin 4} (core : s.coreOn = true) (hi : i.val < s.laneCount p) :
    exec (.lpbkReleaseReceived p (BitVec.ofNat 4 (2 ^ i.val))) s =
      .next ((s.modLane (laneAt p i.val) (Lane.remote false)).loopChanged (laneAt p i.val)) := by
  simp only [exec, execLpbkReleaseReceived, State.whenCore_on core, s.named_single p hi, State.over_cons]
  rfl

theorem exec_lpbkRequestSend {s : State} {l : LaneIx} (core : s.coreOn = true) (asked : s.lanes[l].lpbkHeads.isSome = true)
    (tvl : s.isTvl (s.portOfLane l) = true) (due : s.cadence s.lanes[l].lpbkSent 1 = true) :
    exec (.lpbkRequestSend l) s = .next ((s.modLane l fun x => { x with lpbkSent := some s.heads }).emit
      (.lpbk (s.portOfLane l) 1 (BitVec.ofNat 4 (2 ^ s.laneIndex l)))) := by
  simp only [exec, execLpbkRequestSend, State.whenCore_on core, asked, tvl, due, Bool.and_self, if_true]

theorem exec_lpbkTimeout {s : State} {l : LaneIx} {h : Nat} (core : s.coreOn = true) (asked : s.lanes[l].lpbkHeads = some h)
    (late : h + 16 ≤ s.heads) :
    exec (.lpbkTimeout l) s = .next ((s.modLane l Lane.unasked).count (Reg.LANE_LPBK_FAIL l.val)) := by
  have due : ¬s.heads < h + 16 := by omega
  simp only [exec, execLpbkTimeout, State.whenCore_on core, asked, due, if_false]
  rfl

/-! ## LANE_LOOP -/

def loopRow : RegRow := row 0x020018 [(32, 0x400)] [(.ctl, 0x1F), (.sta, 0x60)] 0

theorem regRow_laneLoop : ∀ l : LaneIx, regRow (Reg.LANE_LOOP l.val) = some loopRow ∧ inWindow (Reg.LANE_LOOP l.val) = false := by
  decide

theorem loopRow_stores : loopRow.Stores 0x1F := ⟨rfl, rfl, rfl⟩

/-- A write of LANE_LOOP acts on its lane. -/
theorem State.wrote_laneLoop (s : State) (m : Master) (l : LaneIx) (old new data : Word) :
    s.wrote m (Reg.LANE_LOOP l.val) old new data = s.loopWritten l old new := by
  have block : Reg.LANE_LOOP l.val / 0x10000 = 2 := by unfold Reg.LANE_LOOP; omega
  have ix : (Reg.LANE_LOOP l.val - 0x20000) / 0x400 % 32 = l.val := by unfold Reg.LANE_LOOP; omega
  have other : Reg.LANE_LOOP l.val ≠ Reg.LANE_TREND_CLR := by
    have := l.isLt
    simp only [Reg.LANE_LOOP, Reg.LANE_TREND_CLR, ne_eq]
    omega
  rw [State.wrote, block]
  simp only [State.wroteLane, other, ix, if_true, if_false]

/-- LANE_LOOP sets an allowed local loop and leaves the last one otherwise (R81). -/
theorem State.loopWritten_loop (s : State) (l : LaneIx) (old new : Word) : (s.loopWritten l old new).lanes[l].loop =
    if loopOk (bitsOf new 2 0) then BitVec.ofNat 3 (bitsOf new 2 0) else s.lanes[l].loop := by
  unfold State.loopWritten
  extract_lets v p s1 ask free s2
  have local_loop : s1.lanes[l].loop = if loopOk v then BitVec.ofNat 3 v else s.lanes[l].loop := by
    show (if loopOk v then s.modLane l fun x => { x with loop := BitVec.ofNat 3 v } else s).lanes[l].loop = _
    split
    · rw [State.modLane_lane]
    · rfl
  have asked : s2.lanes[l].loop = s1.lanes[l].loop := by
    show (if _ then _ else if _ then _ else _ : State).lanes[l].loop = _
    (repeat' split)
    · rw [State.modLane_lane]
    · show (s1.modLane l Lane.unasked).lanes[l].loop = _
      rw [State.modLane_lane]
      rfl
    · rfl
  rw [← local_loop, ← asked]
  split
  · rfl
  · exact (s2.loopChanged_answered l).loop l

theorem exec_laneLoopWrite {s : State} {m : Master} {l : LaneIx} (core : s.coreOn = true) (takes : s.Takes m (Reg.LANE_LOOP l.val))
    (data : Word) : ∃ t, exec (.laneLoopWrite m l data) s = .next t ∧ t.mem = s.mem ∧
      t.lanes[l].loop = if loopOk (bitsOf data 2 0) then BitVec.ofNat 3 (bitsOf data 2 0) else s.lanes[l].loop := by
  obtain ⟨row, out⟩ := regRow_laneLoop l
  have hl := l.isLt
  obtain ⟨acc, run⟩ := State.command_of_takes takes row loopRow_stores (by unfold Reg.LANE_LOOP; omega)
    (by unfold Reg.LANE_LOOP; omega) (by simp only [Reg.LANE_LOOP, Reg.GLB_UNLOCK, ne_eq]; omega) out data
  have field : bitsOf (storedWord (BitVec.ofNat 32 (0x1F &&& 0xFFFFFFFF)) (s.reg (Reg.LANE_LOOP l.val)) data) 2 0 = bitsOf data 2 0 :=
    bitsOf_storedWord (fun i _ hi => by interval_cases i <;> rfl) (by omega) _ _
  refine ⟨_, by simp only [exec, execLaneLoopWrite, State.whenCore_on core, run]; rfl, ?_, ?_⟩
  · rw [State.wrote_laneLoop]
    simp [State.loopWritten_keeps, State.writes]
  · rw [State.wrote_laneLoop, State.loopWritten_loop, field]
    rfl

/-- Settles O18: each command's effect, read off its equation above. -/
theorem loopRequests : Obligations.LoopRequests := by
  intro s core
  refine ⟨fun p i tvl up hi => ⟨fun ok => ?_, fun no => ?_⟩, fun p i hi asked => ⟨?_, ?_⟩, fun p i hi => ?_,
    fun l asked tvl due => ?_, fun l h asked late => ?_, fun m l data takes => ?_⟩
  · have answered := State.loopChanged_answered ((s.emit (.lpbk p 2 (BitVec.ofNat 4 (2 ^ i.val)))).modLane (laneAt p i.val)
      (Lane.remote true)) (laneAt p i.val)
    refine ⟨_, exec_lpbkRequestReceived_granted core tvl up hi ok, answered.sent.subset (List.mem_cons_self ..), .of_mem answered.mem,
      fun sound => answered.on ?_ ?_⟩
    · rw [State.modLane_lane]
      show s.lanes[laneAt p i.val].lock = .locked
      simpa [-Fin.getElem_fin, Lane.faulty, and_assoc] using (Bool.or_eq_false_iff.mp sound).2
    · rw [State.modLane_lane]
      rfl
  · exact ⟨_, exec_lpbkRequestReceived_refused core tvl up hi no, .count _ s, rfl, List.mem_cons_self .., .count (by simp) s,
      .of_mem rfl⟩
  · refine ⟨_, exec_lpbkAnswerReceived core hi asked true, ?_, State.bit_setBit_same _ _ (by omega) _, .modLane s _ _,
      .setReg (by simp) _ _, .of_mem rfl⟩
    exact congrArg Lane.lpbkHeads (s.modLane_lane _ Lane.unasked)
  · refine ⟨_, exec_lpbkAnswerReceived core hi asked false, ?_, .count _ (s.modLane _ _), .modLane s _ _,
      .count (by simp) (s.modLane _ _), .of_mem rfl⟩
    exact congrArg Lane.lpbkHeads (s.modLane_lane _ Lane.unasked)
  · have answered := State.loopChanged_answered (s.modLane (laneAt p i.val) (Lane.remote false)) (laneAt p i.val)
    exact ⟨_, exec_lpbkReleaseReceived core hi, answered.off (congrArg Lane.remoteLoop (s.modLane_lane _ (Lane.remote false))),
      .of_mem answered.mem⟩
  · exact ⟨_, exec_lpbkRequestSend core asked tvl due, rfl, s.modLane_lane l _, .modLane s l _, rfl, .of_regs rfl _, .of_mem rfl⟩
  · exact ⟨_, exec_lpbkTimeout core asked late, congrArg Lane.lpbkHeads (s.modLane_lane l Lane.unasked), .count _ (s.modLane l _),
      .modLane s l _, .count (by simp) (s.modLane l _), .of_mem rfl⟩
  · obtain ⟨t, run, mem, loop⟩ := exec_laneLoopWrite core takes data
    exact ⟨t, run, .of_mem mem, loop⟩

end Sys2Proof.Machine
end

section
/-! A field written into a word leaves the bits outside it. -/

namespace Sys2Proof.Machine

open Sys2Proof

/-- The number of a word below and above a field that is replaced. -/
theorem withBits_outside (w : Word) {hi lo : Nat} (h : hi < 32) (order : lo ≤ hi) (v : Nat) :
    (withBits w hi lo v).toNat % 2 ^ lo = w.toNat % 2 ^ lo ∧ (withBits w hi lo v).toNat / 2 ^ (hi + 1) = w.toNat / 2 ^ (hi + 1) := by
  have low := Nat.div_add_mod' w.toNat (2 ^ lo)
  have high := Nat.div_add_mod' (w.toNat / 2 ^ lo) (2 ^ (hi - lo + 1))
  have width : 2 ^ (hi + 1) = 2 ^ lo * 2 ^ (hi - lo + 1) := by rw [← pow_add]; congr 1; omega
  have pos : 0 < 2 ^ lo := by positivity
  have split : (withBits w hi lo v).toNat =
      w.toNat % 2 ^ lo + (w.toNat / 2 ^ lo / 2 ^ (hi - lo + 1) * 2 ^ (hi - lo + 1) + v % 2 ^ (hi - lo + 1)) * 2 ^ lo := by
    rw [withBits_toNat w h order v, bitsOf, Nat.add_mul]
    generalize w.toNat / 2 ^ lo / 2 ^ (hi - lo + 1) * 2 ^ (hi - lo + 1) = q at high ⊢
    rw [← high, Nat.add_mul] at low
    omega
  rw [split]
  constructor
  · rw [Nat.add_mul_mod_self_right, Nat.mod_mod]
  · rw [width, ← Nat.div_div_eq_div_mul, ← Nat.div_div_eq_div_mul, Nat.add_mul_div_right _ _ pos, Nat.div_eq_of_lt (Nat.mod_lt _ pos),
      Nat.zero_add, Nat.add_comm, Nat.add_mul_div_right _ _ (by positivity), Nat.div_eq_of_lt (Nat.mod_lt _ (by positivity)),
      Nat.zero_add]

theorem getLsbD_withBits_other (w : Word) {hi lo i : Nat} (h : hi < 32) (order : lo ≤ hi) (v : Nat) (out : i < lo ∨ hi < i) :
    (withBits w hi lo v).getLsbD i = w.getLsbD i := by
  obtain ⟨low, high⟩ := withBits_outside w h order v
  rw [← BitVec.testBit_toNat, ← BitVec.testBit_toNat]
  rcases out with below | above
  · have e := congrArg (Nat.testBit · i) low
    simpa [Nat.testBit_mod_two_pow, below] using e
  · have e := congrArg (Nat.testBit · (i - (hi + 1))) high
    simpa [Nat.testBit_div_two_pow, Nat.sub_add_cancel above] using e

/-- A field apart from the one that is replaced stays. -/
theorem State.fld_setFld_apart (s : State) (k : Nat) {hi lo hi' lo' : Nat} (h : hi < 32) (order : lo ≤ hi) (v : Nat)
    (apart : hi < lo' ∨ hi' < lo) (order' : lo' ≤ hi') : (s.setFld k hi lo v).fld k hi' lo' = s.fld k hi' lo' := by
  rw [State.fld, State.setFld, State.reg_setReg_same]
  exact bitsOf_congr (fun i hlo hhi => getLsbD_withBits_other _ h order v (by omega)) order'

end Sys2Proof.Machine
end

section
/-! The enable of a trunk port, the mode of a local port and the groups (R91, R94, R103). -/

namespace Sys2Proof.Machine

open Sys2Proof

/-! ## A port takes its mode -/

theorem modeSetting (n : LocalPort) : IsSetting (Reg.LOC_MODE n.val) := by
  unfold IsSetting Reg.LOC_MODE
  omega

theorem groupSetting : IsSetting Reg.LOC_GROUP := .inr (by decide)

theorem loc_ne {n j : LocalPort} (h : j ≠ n) : loc j ≠ loc n := fun e => h (Fin.ext (by simpa [loc] using e))

theorem mode_lt (s : State) (n : LocalPort) : s.modeDue n < 4 := by
  unfold State.modeDue
  split
  · omega
  · exact bitsOf_lt _ 1 0

/-- A port that runs in another mode from now on. -/
def Port.moded (mode : Nat) (x : Port) : Port :=
  { x with modeAct := BitVec.ofNat 2 mode, localFault := decide (2 ≤ mode), reached := false }

/-- A port with the rate of its lane. -/
def Port.rated (rate : Nat) (x : Port) : Port := { x with rate := BitVec.ofNat 2 rate }

/-- A lane that starts afresh, with its signal as preset for Ethernet. -/
def State.laneAfresh (s : State) (l : LaneIx) (mode : Nat) : State :=
  if 2 ≤ mode then (s.laneScratch l).usePreset l ((s.laneScratch l).lanePreset l) else s.laneScratch l

theorem State.takeMode_refused {s : State} {n : LocalPort} (h : modeRateOk (s.modeDue n) (s.laneRate (laneAt (loc n) 0)) = false) :
    s.takeMode n = s := by
  simp only [State.takeMode, h, Bool.not_false, if_true]

theorem State.takeMode_same {s : State} {n : LocalPort} (ok : modeRateOk (s.modeDue n) (s.laneRate (laneAt (loc n) 0)) = true)
    (same : s.ports[loc n].modeAct.toNat = s.modeDue n) :
    s.takeMode n = s.modPort (loc n) (Port.rated (s.laneRate (laneAt (loc n) 0))) := by
  have kept : (s.modPort (loc n) (Port.rated (s.laneRate (laneAt (loc n) 0)))).ports[loc n].modeAct.toNat = s.modeDue n := by
    rw [State.modPort_port]; exact same
  simp only [State.takeMode, ok, Bool.not_true, Bool.false_eq_true, if_false]
  exact if_pos kept

/-- A port that changes its mode, before its lane starts afresh. -/
def State.moding (s : State) (n : LocalPort) : State :=
  ((s.modPort (loc n) (Port.rated (s.laneRate (laneAt (loc n) 0)))).portDown (loc n)).modPort (loc n) (Port.moded (s.modeDue n))

theorem State.takeMode_changed {s : State} {n : LocalPort} (ok : modeRateOk (s.modeDue n) (s.laneRate (laneAt (loc n) 0)) = true)
    (other : s.ports[loc n].modeAct.toNat ≠ s.modeDue n) :
    s.takeMode n = (s.moding n).laneAfresh (laneAt (loc n) 0) (s.modeDue n) := by
  have kept : ¬(s.modPort (loc n) (Port.rated (s.laneRate (laneAt (loc n) 0)))).ports[loc n].modeAct.toNat = s.modeDue n := by
    rw [State.modPort_port]; exact other
  simp only [State.takeMode, ok, Bool.not_true, Bool.false_eq_true, if_false]
  exact if_neg kept

theorem State.laneScratch_ports (s : State) (l : LaneIx) : (s.laneScratch l).ports = s.ports := by simp [State.laneScratch_keeps]

theorem State.laneAfresh_ports (s : State) (l : LaneIx) (mode : Nat) : (s.laneAfresh l mode).ports = s.ports := by
  unfold State.laneAfresh
  split
  · rw [show (State.usePreset _ l _).ports = (s.laneScratch l).ports by simp [State.usePreset_keeps], State.laneScratch_ports]
  · exact s.laneScratch_ports l

/-- Neither LOC_GROUP nor LOC_MODE is a register of a lane. -/
theorem State.laneAfresh_reg (s : State) (l : LaneIx) (mode : Nat) {k : Nat} (h : 0x050000 ≤ k) :
    (s.laneAfresh l mode).reg k = s.reg k := by
  have eq : k ≠ Reg.LANE_EQ l.val := by unfold Reg.LANE_EQ; omega
  have eye : k ≠ Reg.LANE_EYE l.val := by unfold Reg.LANE_EYE; omega
  have held : (s.holdCtle l).reg k = s.reg k := by
    unfold State.holdCtle
    split
    · exact State.reg_setFld_other eq s _ _ _
    · rfl
  have scratch : (s.laneScratch l).reg k = s.reg k := (State.reg_setFld_other eye _ _ _ _).trans held
  unfold State.laneAfresh
  split
  · exact ((State.reg_setFld_other eq _ _ _ _).trans (State.reg_setFld_other eq _ _ _ _)).trans scratch
  · exact scratch

/-- The groups and modes asked for stay as a port takes its mode. -/
theorem State.takeMode_reg (s : State) (n : LocalPort) {k : Nat} (setting : IsSetting k) (h : 0x050000 ≤ k) :
    (s.takeMode n).reg k = s.reg k := by
  by_cases ok : modeRateOk (s.modeDue n) (s.laneRate (laneAt (loc n) 0)) = true
  · by_cases same : s.ports[loc n].modeAct.toNat = s.modeDue n
    · rw [State.takeMode_same ok same]
      rfl
    · rw [State.takeMode_changed ok same, State.laneAfresh_reg _ _ _ h]
      exact (State.portDown_work _ (loc n)).regs k setting
  · rw [State.takeMode_refused (by simpa using ok)]

/-- A port with an allowed mode takes it, at DOWN where it is a new one. -/
theorem State.takeMode_takes {s : State} {n : LocalPort} (ok : modeRateOk (s.modeDue n) (s.laneRate (laneAt (loc n) 0)) = true) :
    (s.takeMode n).ports[loc n].modeAct.toNat = s.modeDue n ∧
      (s.ports[loc n].modeAct.toNat ≠ s.modeDue n → (s.takeMode n).ports[loc n].stage = .down) := by
  by_cases same : s.ports[loc n].modeAct.toNat = s.modeDue n
  · rw [State.takeMode_same ok same, State.modPort_port]
    exact ⟨same, fun h => absurd same h⟩
  · have port : (s.takeMode n).ports[loc n] = Port.moded (s.modeDue n)
        ((s.modPort (loc n) (Port.rated (s.laneRate (laneAt (loc n) 0)))).portDown (loc n)).ports[loc n] := by
      simp only [State.takeMode_changed ok same, State.laneAfresh_ports]
      exact State.modPort_port _ _ _
    rw [port]
    exact ⟨Nat.mod_eq_of_lt (mode_lt s n), fun _ => (State.portDown_port _ (loc n)).1⟩

/-- A port keeps its mode while another takes its own, and where it runs in the mode that is due. -/
theorem State.takeMode_kept (s : State) {n j : LocalPort} (h : j = n → s.ports[loc n].modeAct.toNat = s.modeDue n) :
    s.ports[loc n].Kept (s.takeMode j).ports[loc n] := by
  have rates (t : State) (rate : Nat) : PortWork t (t.modPort (loc j) (Port.rated rate)) :=
    .modPort (.refl t) fun _ => by exact ⟨rfl, id, id⟩
  by_cases ok : modeRateOk (s.modeDue j) (s.laneRate (laneAt (loc j) 0)) = true
  · by_cases same : s.ports[loc j].modeAct.toNat = s.modeDue j
    · rw [State.takeMode_same ok same]
      exact (rates s _).ports (loc n)
    · have apart : j ≠ n := by rintro rfl; exact same (h rfl)
      have port : (s.takeMode j).ports[loc n] =
          ((s.modPort (loc j) (Port.rated (s.laneRate (laneAt (loc j) 0)))).portDown (loc j)).ports[loc n] := by
        simp only [State.takeMode_changed ok same, State.laneAfresh_ports]
        exact vmod_other (loc_ne apart) _ _
      rw [port]
      exact ((rates s _).trans (State.portDown_work _ (loc j))).ports (loc n)
  · rw [State.takeMode_refused (by simpa using ok)]
    exact .refl _

/-! ## The groups in force -/

/-- Every port of the groups asked for asks for Torvisk Link. -/
def State.groupsOk (s : State) : Bool := (List.range 4).all fun m => s.fld Reg.LOC_GROUP 3 0 / 2 ^ m % 2 == 0 || s.allTvl m

/-- The groups in force from now on. -/
def State.groupsNew (s : State) : Nat := if s.groupsOk then s.fld Reg.LOC_GROUP 3 0 else s.fld Reg.LOC_GROUP 7 4

/-- The ports that enter or leave a group. -/
def State.regrouped (s : State) : List LocalPort :=
  (List.finRange 16).filter fun n => s.groupsNew / 2 ^ (n.val / 4) % 2 != s.fld Reg.LOC_GROUP 7 4 / 2 ^ (n.val / 4) % 2

/-- The ports that change groups are down, and LOC_GROUP shows the groups in force. -/
def State.regrouping (s : State) : State :=
  ((s.over s.regrouped fun t n => t.portDown (loc n)).setFld Reg.LOC_GROUP 7 4 s.groupsNew).setBit Reg.LOC_GROUP 8 (!s.groupsOk)

theorem State.evalBond_eq (s : State) : s.evalBond = s.regrouping.over s.regrouped State.takeMode := rfl

/-- A bit of a field. -/
theorem bitsOf_bit (w : Word) {hi lo i : Nat} (h : lo + i ≤ hi) : bitsOf w hi lo / 2 ^ i % 2 = (w.getLsbD (lo + i)).toNat := by
  have inside : i < hi - lo + 1 := by omega
  rw [← Nat.toNat_testBit, bitsOf, Nat.testBit_mod_two_pow, Nat.testBit_div_two_pow, BitVec.testBit_toNat, Nat.add_comm i]
  simp [inside]

theorem State.groupsOk_iff (s : State) :
    s.groupsOk = true ↔ ∀ g < 4, (s.reg Reg.LOC_GROUP).getLsbD g = true → s.allTvl g = true := by
  simp only [State.groupsOk, List.all_eq_true, List.mem_range, Bool.or_eq_true, beq_iff_eq, State.fld]
  refine forall₂_congr fun g hg => ?_
  rw [bitsOf_bit _ (by omega), Nat.zero_add]
  cases (s.reg Reg.LOC_GROUP).getLsbD g <;> simp

/-- A port that enters a group asks for Torvisk Link. -/
theorem State.regrouped_joins {s : State} {n : LocalPort} (enters : n ∈ s.regrouped) (alone : s.bonded (n.val / 4) = false) :
    s.fld (Reg.LOC_MODE n.val) 1 0 = 1 := by
  have hg : n.val / 4 < 4 := by omega
  have moved : s.groupsNew / 2 ^ (n.val / 4) % 2 ≠ s.fld Reg.LOC_GROUP 7 4 / 2 ^ (n.val / 4) % 2 := by
    simpa [State.regrouped] using enters
  have cur : s.fld Reg.LOC_GROUP 7 4 / 2 ^ (n.val / 4) % 2 = 0 := by
    rw [State.fld, bitsOf_bit _ (by omega), ← State.bit, show s.bit Reg.LOC_GROUP (4 + n.val / 4) = false from alone]
    rfl
  have ok : s.groupsOk = true := by
    by_contra no
    rw [State.groupsNew, if_neg no] at moved
    exact moved rfl
  rw [State.groupsNew, if_pos ok, cur, State.fld, bitsOf_bit _ (by omega), Nat.zero_add] at moved
  have all := s.groupsOk_iff.mp ok _ hg (by simpa using moved)
  simp only [State.allTvl, List.all_eq_true, List.mem_range, beq_iff_eq] at all
  simpa [Nat.div_add_mod] using all (n.val % 4) (by omega)

theorem State.regrouped_nil {s : State} (h : s.groupsNew = s.fld Reg.LOC_GROUP 7 4) : s.regrouped = [] := by
  rw [State.regrouped, h]
  simp

/-- What the ports take with their modes leaves the groups and modes asked for. -/
theorem State.over_takeMode_reg (s : State) (l : List LocalPort) {k : Nat} (setting : IsSetting k) (h : 0x050000 ≤ k) :
    (s.over l State.takeMode).reg k = s.reg k :=
  State.over_induction (I := fun t => t.reg k = s.reg k) rfl fun t n _ e => (t.takeMode_reg n setting h).trans e

/-- LOC_GROUP as the groups are evaluated (R94). -/
theorem State.evalBond_group (s : State) : s.evalBond.fld Reg.LOC_GROUP 7 4 = s.groupsNew % 16 ∧
    s.evalBond.bit Reg.LOC_GROUP 8 = !s.groupsOk := by
  have reg : s.evalBond.reg Reg.LOC_GROUP = s.regrouping.reg Reg.LOC_GROUP := by
    rw [State.evalBond_eq]
    exact State.over_takeMode_reg _ _ groupSetting (by decide)
  rw [State.fld, State.bit, reg]
  refine ⟨?_, State.bit_setBit_same _ _ (by omega) _⟩
  exact (State.fld_setFld_apart _ _ (by omega) le_rfl _ (.inr (by omega)) (by omega)).trans
    (State.fld_setFld_same _ _ (by omega) (by omega) _)

theorem State.modeDue_congr {s t : State} {n : LocalPort} (group : t.reg Reg.LOC_GROUP = s.reg Reg.LOC_GROUP)
    (mode : t.reg (Reg.LOC_MODE n.val) = s.reg (Reg.LOC_MODE n.val)) : t.modeDue n = s.modeDue n := by
  rw [State.modeDue, State.bonded, State.bit, State.fld, group, mode]
  rfl

theorem State.regrouping_work (s : State) : PortWork s (s.over s.regrouped fun t n => t.portDown (loc n)) :=
  .each (fun t n => t.portDown_work (loc n)) s _

theorem State.regrouping_mode (s : State) (n : LocalPort) : s.regrouping.reg (Reg.LOC_MODE n.val) = s.reg (Reg.LOC_MODE n.val) := by
  have other : Reg.LOC_MODE n.val ≠ Reg.LOC_GROUP := by simp only [Reg.LOC_MODE, Reg.LOC_GROUP, ne_eq]; omega
  exact ((State.reg_setBit_other other _ _ _).trans (State.reg_setFld_other other _ _ _ _)).trans
    (s.regrouping_work.regs _ (modeSetting n))

/-- A port keeps its mode as the groups are evaluated, where it runs in the mode that is due to it if it changes groups. -/
theorem State.evalBond_kept (s : State) {n : LocalPort}
    (h : n ∈ s.regrouped → s.regrouping.modeDue n = s.ports[loc n].modeAct.toNat) : s.ports[loc n].Kept s.evalBond.ports[loc n] := by
  have start : s.ports[loc n].Kept s.regrouping.ports[loc n] := s.regrouping_work.ports (loc n)
  have after : s.ports[loc n].Kept s.evalBond.ports[loc n] ∧ s.evalBond.modeDue n = s.regrouping.modeDue n := by
    rw [State.evalBond_eq]
    refine State.over_induction (I := fun t => s.ports[loc n].Kept t.ports[loc n] ∧ t.modeDue n = s.regrouping.modeDue n) ⟨start, rfl⟩
      fun t j hj ⟨kept, due⟩ => ⟨kept.trans (t.takeMode_kept fun e => ?_), ?_⟩
    · rw [kept.1, due, h (e ▸ hj)]
    · refine (State.modeDue_congr ?_ ?_).trans due
      · exact t.takeMode_reg j groupSetting (by decide)
      · exact t.takeMode_reg j (modeSetting n) (by unfold Reg.LOC_MODE; omega)
  exact after.1

/-! ## A write of LOC_MODE -/

/-- A port outside the groups in force takes a mode that goes with the rate of its lane. -/
theorem State.evalMode_takes {s : State} {n : LocalPort} (alone : s.bonded (n.val / 4) = false)
    (ok : modeRateOk (s.fld (Reg.LOC_MODE n.val) 1 0) (s.laneRate (laneAt (loc n) 0)) = true) :
    (s.evalMode n).ports[loc n].modeAct.toNat = s.fld (Reg.LOC_MODE n.val) 1 0 ∧
      (s.ports[loc n].modeAct.toNat ≠ s.fld (Reg.LOC_MODE n.val) 1 0 → (s.evalMode n).ports[loc n].stage = .down) := by
  have due : s.modeDue n = s.fld (Reg.LOC_MODE n.val) 1 0 := by rw [State.modeDue, alone]; rfl
  obtain ⟨mode, down⟩ := State.takeMode_takes (s := s) (n := n) (by rwa [due])
  rw [due] at mode down
  have group := s.takeMode_reg n groupSetting (by decide)
  have asked : (s.takeMode n).fld (Reg.LOC_MODE n.val) 1 0 = s.fld (Reg.LOC_MODE n.val) 1 0 := by
    rw [State.fld, s.takeMode_reg n (modeSetting n) (by unfold Reg.LOC_MODE; omega)]
    rfl
  have kept : (s.takeMode n).ports[loc n].Kept (s.evalMode n).ports[loc n] := by
    refine (s.takeMode n).evalBond_kept fun enters => ?_
    have tvl := State.regrouped_joins enters (by rw [State.bonded, State.bit, group]; exact alone)
    have link : (s.takeMode n).regrouping.fld (Reg.LOC_MODE n.val) 1 0 = 1 := by
      rw [State.fld, State.regrouping_mode]
      exact tvl
    rw [mode, ← asked, tvl, State.modeDue, link]
    exact ite_self _
  exact ⟨by rw [kept.1, mode], fun other => kept.2.1 (down other)⟩

/-- Where the groups stay, only LOC_GROUP is written. -/
theorem State.evalBond_stays {s : State} (same : s.fld Reg.LOC_GROUP 3 0 = s.fld Reg.LOC_GROUP 7 4) :
    s.evalBond = (s.setFld Reg.LOC_GROUP 7 4 s.groupsNew).setBit Reg.LOC_GROUP 8 (!s.groupsOk) := by
  have none : s.regrouped = [] := State.regrouped_nil (by rw [State.groupsNew, same, ite_self])
  rw [State.evalBond_eq, State.regrouping, none]
  rfl

theorem State.evalMode_refused {s : State} {n : LocalPort} (alone : s.bonded (n.val / 4) = false)
    (no : modeRateOk (s.fld (Reg.LOC_MODE n.val) 1 0) (s.laneRate (laneAt (loc n) 0)) = false)
    (same : s.fld Reg.LOC_GROUP 3 0 = s.fld Reg.LOC_GROUP 7 4) :
    (s.evalMode n).ports = s.ports ∧ (s.evalMode n).lanes = s.lanes := by
  have due : s.modeDue n = s.fld (Reg.LOC_MODE n.val) 1 0 := by rw [State.modeDue, alone]; rfl
  rw [State.evalMode, State.takeMode_refused (by rwa [due]), State.evalBond_stays same]
  exact ⟨rfl, rfl⟩

/-- A port of a group in force runs on in Torvisk Link, and another mode asked for is shown (R94). -/
theorem State.evalMode_bonded {s : State} {n : LocalPort} (bonded : s.bonded (n.val / 4) = true)
    (same : s.fld Reg.LOC_GROUP 3 0 = s.fld Reg.LOC_GROUP 7 4) (link : s.ports[loc n].modeAct = 1)
    (other : s.fld (Reg.LOC_MODE n.val) 1 0 ≠ 1) :
    (s.evalMode n).bit Reg.LOC_GROUP 8 = true ∧ (s.evalMode n).ports[loc n].modeAct = 1 ∧
      (s.evalMode n).ports[loc n].stage = s.ports[loc n].stage := by
  have due : s.modeDue n = 1 := by rw [State.modeDue, bonded]; rfl
  have took := State.takeMode_same (s := s) (n := n) (by rw [due]; rfl) (by rw [due, link]; rfl)
  generalize s.laneRate (laneAt (loc n) 0) = rate at took
  have asked : s.groupsOk = false := by
    rw [Bool.eq_false_iff, ne_eq, s.groupsOk_iff]
    intro all
    have want : (s.reg Reg.LOC_GROUP).getLsbD (n.val / 4) = true := by
      have bits := congrArg (· / 2 ^ (n.val / 4) % 2) same
      simp only [State.fld] at bits
      rw [bitsOf_bit _ (by omega), bitsOf_bit _ (by omega), Nat.zero_add, ← State.bit, ← State.bit] at bits
      rw [show s.bit Reg.LOC_GROUP (4 + n.val / 4) = true from bonded] at bits
      simpa [State.bit] using bits
    have tvl := all _ (by omega) want
    simp only [State.allTvl, List.all_eq_true, List.mem_range, beq_iff_eq] at tvl
    exact other (by simpa [Nat.div_add_mod] using tvl (n.val % 4) (by omega))
  have port : (s.evalMode n).ports[loc n] = Port.rated rate s.ports[loc n] := by
    rw [State.evalMode, took, State.evalBond_stays (by exact same)]
    exact State.modPort_port s (loc n) _
  refine ⟨?_, by rw [port]; exact link, by rw [port]; rfl⟩
  rw [State.evalMode, took, (State.evalBond_group _).2, Bool.not_eq_true']
  exact asked

/-! ## The writes -/

def trkCfgRow : RegRow := row 0x040000 [(4, 0x400)] [(.ctl, 0x7FF)] 0x23

def locModeRow : RegRow := row 0x050100 [(16, 0x100)] [(.ctl, 0x3FFF7)] 0

def locGroupRow : RegRow := row 0x050000 [] [(.ctl, 0xF), (.sta, 0x1F0)] 0

theorem regRow_trkCfg : ∀ t : TrunkPort, regRow (Reg.TRK_CFG t.val) = some trkCfgRow ∧ inWindow (Reg.TRK_CFG t.val) = false := by decide

theorem regRow_locMode : ∀ n : LocalPort, regRow (Reg.LOC_MODE n.val) = some locModeRow ∧ inWindow (Reg.LOC_MODE n.val) = false := by
  decide

theorem regRow_locGroup : regRow Reg.LOC_GROUP = some locGroupRow ∧ inWindow Reg.LOC_GROUP = false := by decide

theorem State.wrote_trkCfg (s : State) (m : Master) (t : TrunkPort) (old new data : Word) :
    s.wrote m (Reg.TRK_CFG t.val) old new data = s.trkCfgWritten t new := by
  have block : Reg.TRK_CFG t.val / 0x10000 = 4 := by unfold Reg.TRK_CFG; omega
  have ix : (Reg.TRK_CFG t.val - 0x40000) / 0x400 % 4 = t.val := by unfold Reg.TRK_CFG; omega
  rw [State.wrote, block]
  simp only [State.wrotePort, ix, if_true]

theorem State.wrote_locMode (s : State) (m : Master) (n : LocalPort) (old new data : Word) :
    s.wrote m (Reg.LOC_MODE n.val) old new data = s.evalMode n := by
  have block : Reg.LOC_MODE n.val / 0x10000 = 5 := by unfold Reg.LOC_MODE; omega
  have ix : (Reg.LOC_MODE n.val - 0x50100) / 0x100 % 16 = n.val := by unfold Reg.LOC_MODE; omega
  have trunk (t : Nat) (ht : t < 4) : Reg.LOC_MODE n.val ≠ Reg.TRK_CFG t := by simp only [Reg.LOC_MODE, Reg.TRK_CFG, ne_eq]; omega
  have group : Reg.LOC_MODE n.val ≠ Reg.LOC_GROUP := by simp only [Reg.LOC_MODE, Reg.LOC_GROUP, ne_eq]; omega
  rw [State.wrote, block]
  simp only [State.wrotePort, trunk _ (Nat.mod_lt _ (by decide)), State.evaluate, group, ix, if_true, if_false]

theorem State.wrote_locGroup (s : State) (m : Master) (old new data : Word) :
    s.wrote m Reg.LOC_GROUP old new data = s.evalBond := rfl

theorem exec_trkCfgEnWrite {s : State} {m : Master} {p : TrunkPort} (core : s.coreOn = true) (takes : s.Takes m (Reg.TRK_CFG p.val))
    (data : Word) : ∃ acc, exec (.trkCfgEnWrite m p data) s = .next ((s.writes acc (Reg.TRK_CFG p.val) 0x7FF data).trkCfgWritten p
      (storedWord (BitVec.ofNat 32 (0x7FF &&& 0xFFFFFFFF)) (s.reg (Reg.TRK_CFG p.val)) data)) := by
  obtain ⟨row, out⟩ := regRow_trkCfg p
  obtain ⟨acc, run⟩ := State.command_of_takes takes row (mask := 0x7FF) ⟨rfl, rfl, rfl⟩ (by unfold Reg.TRK_CFG; omega)
    (by unfold Reg.TRK_CFG; omega) (by simp only [Reg.TRK_CFG, Reg.GLB_UNLOCK, ne_eq]; omega) out data
  exact ⟨acc, by simp only [exec, execTrkCfgEnWrite, State.whenCore_on core, run, State.wrote_trkCfg]⟩

theorem exec_locModeWrite {s : State} {m : Master} {n : LocalPort} (core : s.coreOn = true) (takes : s.Takes m (Reg.LOC_MODE n.val))
    (data : Word) : ∃ acc, exec (.locModeWrite m n data) s = .next ((s.writes acc (Reg.LOC_MODE n.val) 0x3FFF7 data).evalMode n) := by
  obtain ⟨row, out⟩ := regRow_locMode n
  obtain ⟨acc, run⟩ := State.command_of_takes takes row (mask := 0x3FFF7) ⟨rfl, rfl, rfl⟩ (by unfold Reg.LOC_MODE; omega)
    (by unfold Reg.LOC_MODE; omega) (by simp only [Reg.LOC_MODE, Reg.GLB_UNLOCK, ne_eq]; omega) out data
  exact ⟨acc, by simp only [exec, execLocModeWrite, State.whenCore_on core, run, State.wrote_locMode]⟩

theorem exec_locGroupWrite {s : State} {m : Master} (core : s.coreOn = true) (takes : s.Takes m Reg.LOC_GROUP) (data : Word) :
    ∃ acc, exec (.locGroupWrite m data) s = .next (s.writes acc Reg.LOC_GROUP 0xF data).evalBond := by
  obtain ⟨row, out⟩ := regRow_locGroup
  obtain ⟨acc, run⟩ := State.command_of_takes takes row (mask := 0xF) ⟨rfl, rfl, rfl⟩ (by decide) (by decide) (by decide) out data
  exact ⟨acc, by simp only [exec, execLocGroupWrite, State.whenCore_on core, run, State.wrote_locGroup]⟩

/-- TRK_CFG.EN = 0 takes the port to DOWN with link loss; EN = 1 changes no port (R103). -/
theorem State.trkCfgWritten_spec (s : State) (p : TrunkPort) (new : Word) : (s.trkCfgWritten p new).mem = s.mem ∧
    (new.getLsbD 0 = false → (s.trkCfgWritten p new).ports[trunk p].stage = .down ∧
      (s.trkCfgWritten p new).ports[trunk p].reached = false) ∧
    (new.getLsbD 0 = true → s.trkCfgWritten p new = s) := by
  refine ⟨by simp [State.trkCfgWritten_keeps], fun off => ?_, fun on => if_pos on⟩
  have down : s.trkCfgWritten p new = if s.ports[trunk p].stage = .down then s.linkLoss (trunk p) else s.portDown (trunk p) :=
    if_neg (by rw [off]; decide)
  rw [down]
  split
  · rename_i stage
    exact ⟨((s.linkLoss_work (trunk p)).ports (trunk p)).2.1 stage, s.linkLoss_reached (trunk p)⟩
  · exact s.portDown_port (trunk p)

/-- A write of LOC_MODE shows in its MODE field; the groups and the lanes' rates stand as before. -/
theorem State.writes_locMode (s : State) (acc : AccessState) (n : LocalPort) (data : Word) :
    (s.writes acc (Reg.LOC_MODE n.val) 0x3FFF7 data).fld (Reg.LOC_MODE n.val) 1 0 = bitsOf data 1 0 ∧
    (s.writes acc (Reg.LOC_MODE n.val) 0x3FFF7 data).reg Reg.LOC_GROUP = s.reg Reg.LOC_GROUP ∧
    ∀ l, (s.writes acc (Reg.LOC_MODE n.val) 0x3FFF7 data).laneRate l = s.laneRate l := by
  refine ⟨?_, State.reg_setReg_other ?_ _ _, fun l => State.fld_setReg_other ?_ _ _ _ _⟩
  · rw [State.fld, State.writes, State.reg_setReg_same]
    exact bitsOf_storedWord (fun i _ hi => by interval_cases i <;> rfl) (by omega) _ _
  · simp only [Reg.LOC_MODE, Reg.LOC_GROUP, ne_eq]
    omega
  · have := l.isLt
    simp only [Reg.LOC_MODE, Reg.LANE_CFG_ACT, ne_eq]
    omega

/-- A write of LOC_GROUP shows in GRP and leaves what is in force; the modes asked for stand as before. -/
theorem State.writes_locGroup (s : State) (acc : AccessState) (data : Word) :
    (s.writes acc Reg.LOC_GROUP 0xF data).fld Reg.LOC_GROUP 3 0 = bitsOf data 3 0 ∧
    (∀ g < 4, ((s.writes acc Reg.LOC_GROUP 0xF data).reg Reg.LOC_GROUP).getLsbD g = data.getLsbD g) ∧
    ∀ g < 4, (s.writes acc Reg.LOC_GROUP 0xF data).allTvl g = s.allTvl g := by
  have word : (s.writes acc Reg.LOC_GROUP 0xF data).reg Reg.LOC_GROUP =
      storedWord (BitVec.ofNat 32 (0xF &&& 0xFFFFFFFF)) (s.reg Reg.LOC_GROUP) data := State.reg_setReg_same _ _ _
  refine ⟨?_, fun g hg => ?_, fun g hg => ?_⟩
  · rw [State.fld, word]
    exact bitsOf_storedWord (fun i _ hi => by interval_cases i <;> rfl) (by omega) _ _
  · rw [word, getLsbD_storedWord]
    interval_cases g <;> rfl
  · refine congrArg (List.all _) (funext fun i => ?_)
    have other : Reg.LOC_MODE (4 * g + i) ≠ Reg.LOC_GROUP := by simp only [Reg.LOC_MODE, Reg.LOC_GROUP, ne_eq]; omega
    exact congrArg (· == 1) (State.fld_setReg_other other _ _ _ _)

/-- Settles O20: each write's effect, read off the lemmas above about its evaluation. -/
theorem portSettings : Obligations.PortSettings := by
  intro s m data core
  refine ⟨fun p takes => ?_, fun n takes => ?_, fun takes => ?_⟩
  · obtain ⟨acc, run⟩ := exec_trkCfgEnWrite core takes data
    have en : (storedWord (BitVec.ofNat 32 (0x7FF &&& 0xFFFFFFFF)) (s.reg (Reg.TRK_CFG p.val)) data).getLsbD 0 = data.getLsbD 0 :=
      getLsbD_storedWord _ _ _ 0
    obtain ⟨mem, off, on⟩ := (s.writes acc (Reg.TRK_CFG p.val) 0x7FF data).trkCfgWritten_spec p
      (storedWord (BitVec.ofNat 32 (0x7FF &&& 0xFFFFFFFF)) (s.reg (Reg.TRK_CFG p.val)) data)
    rw [en] at off on
    exact ⟨_, run, .of_mem mem, off, fun h => by rw [on h]; exact ⟨rfl, rfl⟩⟩
  · obtain ⟨acc, run⟩ := exec_locModeWrite core takes data
    obtain ⟨mode, group, rate⟩ := s.writes_locMode acc n data
    refine ⟨_, run, ?_⟩
    generalize e : s.writes acc (Reg.LOC_MODE n.val) 0x3FFF7 data = t at mode group rate
    have ports : t.ports = s.ports := e ▸ rfl
    have lanes : t.lanes = s.lanes := e ▸ rfl
    have mem : t.mem = s.mem := e ▸ rfl
    have alone : t.bonded (n.val / 4) = s.bonded (n.val / 4) := by rw [State.bonded, State.bit, group]; rfl
    have same : t.fld Reg.LOC_GROUP 3 0 = t.fld Reg.LOC_GROUP 7 4 ↔ s.fld Reg.LOC_GROUP 3 0 = s.fld Reg.LOC_GROUP 7 4 := by
      simp only [State.fld, group]
    rw [← alone, ← rate, ← same, ← mode, ← ports, ← lanes]
    refine ⟨.of_mem ?_, fun single => ⟨State.evalMode_takes single, State.evalMode_refused single⟩, State.evalMode_bonded⟩
    rw [← mem]
    simp [State.evalMode_keeps]
  · obtain ⟨acc, run⟩ := exec_locGroupWrite core takes data
    obtain ⟨want, bits, modes⟩ := s.writes_locGroup acc data
    refine ⟨_, run, ?_⟩
    generalize e : s.writes acc Reg.LOC_GROUP 0xF data = t at want bits modes
    have mem : t.evalBond.mem = s.mem := by rw [show s.mem = t.mem from e ▸ rfl]; simp [State.evalBond_keeps]
    obtain ⟨act, bad⟩ := t.evalBond_group
    rw [act, bad]
    refine ⟨.of_mem mem, fun all => ?_, fun ⟨g, hg, asked, no⟩ => ?_⟩
    · have ok : t.groupsOk = true := t.groupsOk_iff.mpr fun g hg asked => by
        rw [modes g hg]
        exact all g hg (bits g hg ▸ asked)
      rw [State.groupsNew, ok, if_pos rfl, want]
      exact ⟨Nat.mod_eq_of_lt (bitsOf_lt data 3 0), rfl⟩
    · rw [Bool.not_eq_true', Bool.eq_false_iff]
      intro ok
      have tvl := t.groupsOk_iff.mp ok g hg (by rw [bits g hg]; exact asked)
      rw [modes g hg, no] at tvl
      exact absurd tvl (by decide)

end Sys2Proof.Machine
end

section
/-! Training (R79, Table LAN-9), the eye (R86) and the trend of a lane (R89, R90, R435). -/

namespace Sys2Proof.Machine

open Sys2Proof

/-! ## A TRAIN block -/

/-- A lane whose receiver and partner are ready, or not, with the request that it sends. -/
def Lane.training (settled partner : Bool) (ask : BitVec 7) (seq : BitVec 8) (x : Lane) : Lane :=
  { x with rxReady := settled && !x.faulty, txReady := partner, ask := ask, askSeq := seq }

/-- Before a partner's request a block settles the lane's own readiness and request. -/
theorem State.trainBegun (s : State) (l : LaneIx) (settled partner : Bool) :
    ∃ v a n, (s.trainReady l settled partner).ownRequest l false = { s with lanes := v } ∧
      v[l] = Lane.training settled partner a n s.lanes[l] ∧ ∀ j : LaneIx, j ≠ l → v[j] = s.lanes[j] := by
  have ready : (s.trainReady l settled partner).lanes[l] = Lane.training settled partner s.lanes[l].ask s.lanes[l].askSeq s.lanes[l] :=
    s.modLane_lane l _
  have others : SameLanesBut l s (s.trainReady l settled partner) := .modLane s l _
  unfold State.ownRequest
  extract_lets x
  split
  · split
    · exact ⟨_, _, _, rfl, ready, others⟩
    · refine ⟨_, 0, s.lanes[l].askSeq + 1, rfl, ?_, fun j hj => ?_⟩
      · refine (vmod_same _ l _).trans ?_
        rw [ready]
        rfl
      · exact (vmod_other (Ne.symm hj) _ _).trans (others j hj)
  · exact ⟨_, _, _, rfl, ready, others⟩

/-- The answer to a block that asks for nothing new, or for something: the block that is sent back. -/
def State.trainAnswered (s : State) (l : LaneIx) (pre post preset : Nat) (tseq : BitVec 8) : State :=
  (if s.lanes[l].tseq = some tseq then s
    else (s.trainRequest l pre post preset tseq).1.modLane l fun x =>
      { x with ackTx := (s.trainRequest l pre post preset tseq).2, ackSeq := tseq }).sendTrain l

/-- A lane that has trained. -/
def Lane.asTrained (x : Lane) : Lane := { x with trained := true }

theorem exec_trainBlockReceived {s : State} {l : LaneIx} (core : s.coreOn = true) (trains : s.inTrain l = true) (pre post : BitVec 2)
    (preset : BitVec 3) (partner settled : Bool) (tseq ackSeq : BitVec 8) :
    exec (.trainBlockReceived l pre post preset 0 partner tseq ackSeq settled) s = .next
      (let t := ((s.trainReady l settled partner).ownRequest l false).trainAnswered l pre.toNat post.toNat preset.toNat tseq
       if t.lanes[l].rxReady && t.lanes[l].txReady then (t.modLane l Lane.asTrained).noteHealth (s.portOfLane l) else t) := by
  simp only [exec, execTrainBlockReceived, State.whenCore_on core, trains]
  rfl

/-- A settled lane whose partner is ready and asks for nothing new has trained. -/
theorem exec_trainBlockReceived_trained {s : State} {l : LaneIx} (core : s.coreOn = true) (trains : s.inTrain l = true)
    (sound : s.lanes[l].faulty = false) {tseq : BitVec 8} (seen : s.lanes[l].tseq = some tseq) (pre post : BitVec 2) (preset : BitVec 3)
    (ackSeq : BitVec 8) : ∃ t, exec (.trainBlockReceived l pre post preset 0 true tseq ackSeq true) s = .next t ∧
      t.lanes[l].trained = true ∧ t.regs = s.regs ∧ t.mem = s.mem := by
  obtain ⟨v, a, n, begun, lane, -⟩ := s.trainBegun l true true
  refine ⟨_, exec_trainBlockReceived core trains pre post preset true true tseq ackSeq, ?_⟩
  rw [begun]
  have known : ({ s with lanes := v } : State).lanes[l].tseq = some tseq := by
    show v[l].tseq = some tseq
    rw [lane]
    exact seen
  have both : (v[l].rxReady && v[l].txReady) = true := by rw [lane]; simp [-Fin.getElem_fin, Lane.training, sound]
  rw [State.trainAnswered, if_pos known]
  dsimp only
  rw [if_pos (by exact both)]
  obtain ⟨h, e⟩ := ((({ s with lanes := v } : State).sendTrain l).modLane l Lane.asTrained).noteHealth_lane (s.portOfLane l) l
  refine ⟨?_, by simp [State.noteHealth_keeps, State.sendTrain_keeps], by simp [State.noteHealth_keeps, State.sendTrain_keeps]⟩
  rw [e, State.modLane_lane]
  rfl

/-- A cursor asked up moves up to its limit. -/
theorem moveCursor_up (limit v : Nat) : moveCursor 1 limit v = if limit ≤ v then (v, true) else (v + 1, false) := rfl

theorem moveCursor_up_fst {limit v : Nat} (h : v ≤ limit) : (moveCursor 1 limit v).1 = min limit (v + 1) := by
  rw [moveCursor_up]
  split <;> dsimp only <;> omega

theorem moveCursor_up_snd {limit v : Nat} : (moveCursor 1 limit v).2 = decide (limit ≤ v) := by
  rw [moveCursor_up]
  split <;> simp_all

/-- LANE_EQ with both cursors moved up. -/
def State.cursorsUp (s : State) (l : LaneIx) : State :=
  (s.setFld (Reg.LANE_EQ l.val) 8 5 (moveCursor 1 15 (s.fld (Reg.LANE_EQ l.val) 8 5)).1).setFld (Reg.LANE_EQ l.val) 13 9
    (moveCursor 1 31 (s.fld (Reg.LANE_EQ l.val) 13 9)).1

theorem State.cursorsUp_fields (s : State) (l : LaneIx) :
    (s.cursorsUp l).fld (Reg.LANE_EQ l.val) 8 5 = min 15 (s.fld (Reg.LANE_EQ l.val) 8 5 + 1) ∧
    (s.cursorsUp l).fld (Reg.LANE_EQ l.val) 13 9 = min 31 (s.fld (Reg.LANE_EQ l.val) 13 9 + 1) := by
  have pre : s.fld (Reg.LANE_EQ l.val) 8 5 < 16 := bitsOf_lt _ 8 5
  have post : s.fld (Reg.LANE_EQ l.val) 13 9 < 32 := bitsOf_lt _ 13 9
  rw [State.cursorsUp, State.fld_setFld_apart _ _ (by omega) (by omega) _ (.inr (by omega)) (by omega),
    State.fld_setFld_same _ _ (by omega) (by omega), State.fld_setFld_same _ _ (by omega) (by omega),
    moveCursor_up_fst (by omega), moveCursor_up_fst (by omega)]
  omega

/-- The answer to a request that moves both cursors up: done, or at a limit. -/
def State.upAnswer (s : State) (l : LaneIx) : BitVec 2 :=
  if 15 ≤ s.fld (Reg.LANE_EQ l.val) 8 5 ∨ 31 ≤ s.fld (Reg.LANE_EQ l.val) 13 9 then 2 else 1

/-- A lane that has seen a request. -/
def Lane.saw (tseq : BitVec 8) (x : Lane) : Lane := { x with tseq := some tseq }

/-- A lane that answers a request. -/
def Lane.answers (tseq : BitVec 8) (answer : BitVec 2) (x : Lane) : Lane := { x with ackTx := answer, ackSeq := tseq }

theorem State.trainRequest_up {s : State} {l : LaneIx} (en : s.lanes[l].trainEn = true) (preset : Nat) (tseq : BitVec 8) :
    s.trainRequest l 1 1 preset tseq = ((s.cursorsUp l).modLane l (Lane.saw tseq), s.upAnswer l) := by
  simp only [State.trainRequest, en, Bool.not_true, Bool.false_eq_true, if_false, moveCursor_up_snd, Bool.or_eq_true, decide_eq_true_eq]
  rfl

/-- A new request that moves both cursors up (R79): they are moved, and the answer is sent. -/
theorem State.trainAnswered_up {s : State} {l : LaneIx} (en : s.lanes[l].trainEn = true) {tseq : BitVec 8}
    (new : s.lanes[l].tseq ≠ some tseq) (preset : Nat) : s.trainAnswered l 1 1 preset tseq =
      (((s.cursorsUp l).modLane l (Lane.saw tseq)).modLane l (Lane.answers tseq (s.upAnswer l))).sendTrain l := by
  rw [State.trainAnswered, if_neg new, State.trainRequest_up en]
  rfl

/-- Where the partner is not ready, a new request that moves both cursors up is answered and no more. -/
theorem exec_trainBlockReceived_up {s : State} {l : LaneIx} (core : s.coreOn = true) (trains : s.inTrain l = true)
    (en : s.lanes[l].trainEn = true) {tseq : BitVec 8} (new : s.lanes[l].tseq ≠ some tseq) (preset : BitVec 3) (ackSeq : BitVec 8) :
    ∃ t, exec (.trainBlockReceived l 1 1 preset 0 false tseq ackSeq true) s = .next t ∧ t.lanes[l].tseq = some tseq ∧
      t.fld (Reg.LANE_EQ l.val) 8 5 = min 15 (s.fld (Reg.LANE_EQ l.val) 8 5 + 1) ∧
      t.fld (Reg.LANE_EQ l.val) 13 9 = min 31 (s.fld (Reg.LANE_EQ l.val) 13 9 + 1) ∧
      (s.fld (Reg.LANE_EQ l.val) 8 5 < 15 → s.fld (Reg.LANE_EQ l.val) 13 9 < 31 → ∃ a b c r n, .train l a b c 1 r n tseq ∈ t.sent) ∧
      SameLanesBut l s t ∧ SameRegsBut [Reg.LANE_EQ l.val] s t ∧ t.mem = s.mem := by
  obtain ⟨v, a, n, begun, lane, others⟩ := s.trainBegun l true false
  obtain ⟨pre, post⟩ := State.cursorsUp_fields { s with lanes := v } l
  have answered := State.trainAnswered_up (s := { s with lanes := v }) (l := l) (tseq := tseq)
    (by show v[l].trainEn = true; rw [lane]; exact en) (by show v[l].tseq ≠ _; rw [lane]; exact new) preset.toNat
  let u := ((State.cursorsUp { s with lanes := v } l).modLane l (Lane.saw tseq)).modLane l
    (Lane.answers tseq (State.upAnswer { s with lanes := v } l))
  have all : u.lanes[l] = Lane.answers tseq (State.upAnswer { s with lanes := v } l)
      (Lane.saw tseq (Lane.training true false a n s.lanes[l])) := by
    rw [State.modLane_lane, State.modLane_lane]
    exact congrArg (fun x => Lane.answers tseq _ (Lane.saw tseq x)) lane
  have apart : SameLanesBut l s u := fun j hj => ((SameLanesBut.modLane _ l _ j hj).trans (SameLanesBut.modLane _ l _ j hj)).trans
    (others j hj)
  have run : exec (.trainBlockReceived l 1 1 preset 0 false tseq ackSeq true) s = .next (u.sendTrain l) := by
    rw [exec_trainBlockReceived core trains, begun, show (1 : BitVec 2).toNat = 1 from rfl, answered]
    refine congrArg Host.Outcome.next (if_neg ?_)
    show ¬(u.lanes[l].rxReady && u.lanes[l].txReady) = true
    rw [all]
    simp [Lane.answers, Lane.saw, Lane.training]
  refine ⟨_, run, congrArg Lane.tseq all, pre, post, fun hpre hpost => ?_, apart, ?_, rfl⟩
  · have sent : .train l (u.lanes[l].ask.extractLsb' 0 2) (u.lanes[l].ask.extractLsb' 2 2) (u.lanes[l].ask.extractLsb' 4 3)
        u.lanes[l].ackTx u.lanes[l].rxReady u.lanes[l].askSeq u.lanes[l].ackSeq ∈ (u.sendTrain l).sent := List.mem_cons_self ..
    have one : State.upAnswer { s with lanes := v } l = 1 := if_neg (not_or.mpr ⟨Nat.not_le.mpr hpre, Nat.not_le.mpr hpost⟩)
    rw [(congrArg Lane.ackTx all).trans one, congrArg Lane.ackSeq all] at sent
    exact ⟨_, _, _, _, _, sent⟩
  · exact (SameRegsBut.setReg (by simp) _ _).trans (.setReg (by simp) _ _)

/-! ## The eye -/

/-- LANE_EYE with a measurement, marked valid (R86). -/
theorem eyeWord_fields (height : BitVec 10) (width : BitVec 7) :
    bitsOf (BitVec.ofNat 32 (height.toNat + min 64 width.toNat * 1024 + 131072)) 9 0 = height.toNat ∧
    bitsOf (BitVec.ofNat 32 (height.toNat + min 64 width.toNat * 1024 + 131072)) 16 10 = min 64 width.toNat ∧
    (BitVec.ofNat 32 (height.toNat + min 64 width.toNat * 1024 + 131072)).getLsbD 17 = true := by
  have h := height.isLt
  rw [bit_eq_bitsOf]
  simp only [bitsOf, BitVec.toNat_ofNat, decide_eq_true_eq]
  omega

theorem exec_eyeMeasurement {s : State} {l : LaneIx} (core : s.coreOn = true) (powered : s.laneOn l = true)
    (locked : s.lanes[l].lock = .locked) (height : BitVec 10) (width : BitVec 7) :
    exec (.eyeMeasurement l height width) s = .next ((s.modLane l fun x => { x with eyeNow := true }).setRegN (Reg.LANE_EYE l.val)
      (height.toNat + min 64 width.toNat * 1024 + 131072)) := by
  simp [-Fin.getElem_fin, exec, execEyeMeasurement, State.whenCore_on core, powered, locked]

/-! ## Trend records -/

theorem State.trendRec_congr {s t : State} {l k : Nat} (h : t.storedTrend l k = s.storedTrend l k) : t.trendRec l k = s.trendRec l k := by
  rw [State.trendRec, h]
  rfl

/-- A record reads back as it was written, with its CRC. -/
theorem State.trendRec_setTrend (s : State) (l k : Nat) (r : TrendRecord) :
    (s.setTrend l k r).trendRec l k = { r with crc := crc16 r.body } := by
  have stored : (s.setTrend l k r).storedTrend l k = { r with crc := crc16 r.body } := Store.get_set_same _ _ _
  rw [State.trendRec, stored]
  exact if_pos rfl

theorem State.storedTrend_setTrend_other {l j k : Nat} (hk : k < 16) (h : j ≠ l) (s : State) (r : TrendRecord) :
    (s.setTrend l k r).storedTrend j 0 = s.storedTrend j 0 := Store.get_set_other (by omega) _ _

/-- A second of a lane's live record adds to its time and its sequence number. -/
theorem State.trendLive_counts (s : State) (l : LaneIx) : (s.trendLive l).runsec = (s.trendRec l.val 0).runsec + 1 ∧
    (s.trendLive l).seq = (s.trendRec l.val 0).seq + 1 := by
  unfold State.trendLive
  extract_lets
  split <;> exact ⟨rfl, rfl⟩

/-- What a second of lane `l` leaves: registers and power, the live records and the parts of the other lanes. -/
structure TrendWork (l : LaneIx) (s t : State) : Prop where
  regs : t.regs = s.regs
  power : t.pwr = s.pwr
  records : ∀ j : LaneIx, j ≠ l → t.storedTrend j.val 0 = s.storedTrend j.val 0
  lanes : SameLanesBut l s t

theorem TrendWork.refl (l : LaneIx) (s : State) : TrendWork l s s := ⟨rfl, rfl, fun _ _ => rfl, fun _ _ => rfl⟩

theorem TrendWork.trans {l : LaneIx} {s t u : State} (h : TrendWork l s t) (h' : TrendWork l t u) : TrendWork l s u :=
  ⟨h'.regs.trans h.regs, h'.power.trans h.power, fun j hj => (h'.records j hj).trans (h.records j hj),
    fun j hj => (h'.lanes j hj).trans (h.lanes j hj)⟩

theorem State.setTrend_work (s : State) (l : LaneIx) {k : Nat} (hk : k < 16) (r : TrendRecord) : TrendWork l s (s.setTrend l.val k r) :=
  ⟨rfl, rfl, fun _ hj => State.storedTrend_setTrend_other hk (fun e => hj (Fin.ext e)) s r, fun _ _ => rfl⟩

theorem State.trendWipe_work (s : State) (l : LaneIx) : TrendWork l s (s.trendWipe l) := by
  have cleared (t : State) : TrendWork l t (t.modLane l fun x => { x with trendClear := false }) :=
    ⟨rfl, rfl, fun _ _ => rfl, .modLane t l _⟩
  unfold State.trendWipe
  split
  · exact (State.over_induction (I := TrendWork l s) (.refl l s) fun t k hk h =>
      h.trans (t.setTrend_work l (List.mem_range.mp hk) _)).trans (cleared _)
  · exact .refl l s

theorem State.closePeriod_work (s : State) (l : LaneIx) (r : TrendRecord) : TrendWork l s (s.closePeriod l r) :=
  (s.setTrend_work l (k := 2 + s.log.periodAt[l].val) (by omega) _).trans ⟨rfl, rfl, fun _ _ => rfl, fun _ _ => rfl⟩

theorem State.closeEpoch_work (s : State) (l : LaneIx) (r : TrendRecord) : TrendWork l s (s.closeEpoch l r) :=
  (s.setTrend_work l (k := 8 + s.log.epochAt[l].val) (by omega) _).trans ⟨rfl, rfl, fun _ _ => rfl, fun _ _ => rfl⟩

theorem State.trendClose_work (s : State) (l : LaneIx) : TrendWork l s (s.trendClose l) := by
  unfold State.trendClose
  extract_lets r e s1
  have period : TrendWork l s s1 := ((s.setTrend_work l (by omega) e).trans (State.closePeriod_work _ l r)).trans
    (State.setTrend_work _ l (by omega) _)
  (repeat' split)
  · exact .refl l s
  · exact period
  · exact (period.trans (State.closeEpoch_work _ l e)).trans (State.setTrend_work _ l (by omega) _)

/-- The live record after a second, and the period that it may close. -/
def State.trendStep (s : State) (l : LaneIx) : State :=
  if s.bit Reg.LANE_TREND_CTL 0 && s.laneOn l then (s.setTrend l.val 0 (s.trendLive l)).trendClose l else s

theorem State.trendStep_work (s : State) (l : LaneIx) : TrendWork l s (s.trendStep l) := by
  unfold State.trendStep
  split
  · exact (s.setTrend_work l (by omega) _).trans (State.trendClose_work _ l)
  · exact .refl l s

/-- The eye of the second that ends is no longer valid, and its counts start again. -/
def State.eyeEnded (s : State) (l : LaneIx) : State :=
  (if s.lanes[l].eyeNow then s else s.setFld (Reg.LANE_EYE l.val) 17 17 0).modLane l fun x =>
    { x with eyeNow := false, losSec := 0, lockSec := 0 }

theorem State.trendLane_eq (s : State) (l : LaneIx) : s.trendLane l = ((s.trendWipe l).trendStep l).eyeEnded l := rfl

theorem State.eyeEnded_keeps (s : State) (l : LaneIx) : (s.eyeEnded l).log = s.log ∧ (s.eyeEnded l).pwr = s.pwr ∧
    SameRegsBut [Reg.LANE_EYE l.val] s (s.eyeEnded l) ∧ SameLanesBut l s (s.eyeEnded l) := by
  unfold State.eyeEnded
  split
  · exact ⟨rfl, rfl, .of_regs rfl _, .modLane s l _⟩
  · exact ⟨rfl, rfl, .setReg (by simp) s _, .modLane (s.setFld _ 17 17 0) l _⟩

theorem State.trendLane_regs (s : State) (l : LaneIx) : SameRegsBut [Reg.LANE_EYE l.val] s (s.trendLane l) := by
  obtain ⟨-, -, regs, -⟩ := ((s.trendWipe l).trendStep l).eyeEnded_keeps l
  exact (SameRegsBut.of_regs ((s.trendWipe_work l).trans (State.trendStep_work _ l)).regs _).trans regs

/-- What a lane's second looks at: trend collection, its power, its record and whether that is to be cleared. -/
structure SameTrend (l : LaneIx) (s t : State) : Prop where
  collects : t.bit Reg.LANE_TREND_CTL 0 = s.bit Reg.LANE_TREND_CTL 0
  power : t.pwr = s.pwr
  record : t.storedTrend l.val 0 = s.storedTrend l.val 0
  lane : t.lanes[l] = s.lanes[l]

theorem State.trendLane_other (s : State) {l j : LaneIx} (h : j ≠ l) : SameTrend j s (s.trendLane l) := by
  have work := (s.trendWipe_work l).trans (State.trendStep_work _ l)
  obtain ⟨log, power, -, lanes⟩ := ((s.trendWipe l).trendStep l).eyeEnded_keeps l
  have apart : Reg.LANE_TREND_CTL ∉ [Reg.LANE_EYE l.val] := by
    have := l.isLt
    simp only [Reg.LANE_TREND_CTL, Reg.LANE_EYE, List.mem_singleton]
    omega
  refine ⟨congrArg (·.getLsbD 0) (s.trendLane_regs l _ apart), power.trans work.power, ?_, (lanes j h).trans (work.lanes j h)⟩
  refine Eq.trans ?_ (work.records j h)
  rw [State.trendLane_eq, State.storedTrend, log]
  rfl

/-- A second of a lane's live record, where its period does not close. -/
theorem State.trendLane_counts {s : State} {l : LaneIx} (collects : s.bit Reg.LANE_TREND_CTL 0 = true) (powered : s.laneOn l = true)
    (keeps : s.lanes[l].trendClear = false) (early : (s.trendRec l.val 0).runsec.toNat < 65535) :
    ((s.trendLane l).trendRec l.val 0).runsec = (s.trendRec l.val 0).runsec + 1 ∧
      ((s.trendLane l).trendRec l.val 0).seq = (s.trendRec l.val 0).seq + 1 := by
  obtain ⟨seconds, seq⟩ := s.trendLive_counts l
  have whole : s.trendWipe l = s := if_neg (by rw [keeps]; decide)
  have written := s.trendRec_setTrend l.val 0 (s.trendLive l)
  have open_period : (s.setTrend l.val 0 (s.trendLive l)).trendClose l = s.setTrend l.val 0 (s.trendLive l) := by
    refine if_pos ?_
    rw [written, seconds, BitVec.toNat_add, show (1 : Word).toNat = 1 from rfl]
    omega
  have step : s.trendStep l = s.setTrend l.val 0 (s.trendLive l) := by
    rw [State.trendStep, collects, powered, open_period]
    rfl
  have read : (s.trendLane l).trendRec l.val 0 = { s.trendLive l with crc := crc16 (s.trendLive l).body } := by
    rw [← written]
    refine State.trendRec_congr ?_
    rw [State.trendLane_eq, whole, step, State.storedTrend, (State.eyeEnded_keeps _ l).1]
    rfl
  rw [read]
  exact ⟨seconds, seq⟩

/-- An element of a fold that comes once brings about what the others keep, from what they keep before it. -/
theorem State.over_once {α : Type} {f : State → α → State} {I P : State → Prop} {l : List α} {a : α} (nodup : l.Nodup) (ha : a ∈ l)
    {s : State} (start : I s) (before : ∀ t, ∀ b ≠ a, I t → I (f t b)) (hit : ∀ t, I t → P (f t a))
    (after : ∀ t, ∀ b ≠ a, P t → P (f t b)) : P (s.over l f) := by
  obtain ⟨l1, l2, rfl⟩ := List.append_of_mem ha
  obtain ⟨-, rest, apart⟩ := List.nodup_append.mp nodup
  have first : I (s.over l1 f) := State.over_induction start fun t b hb => before t b (apart b hb a (by simp))
  rw [State.over, List.foldl_append]
  exact State.over_induction (I := P) (l := l2) (hit _ first) fun t b hb =>
    after t b (by rintro rfl; exact (List.nodup_cons.mp rest).1 hb)

theorem SameTrend.trans {l : LaneIx} {s t u : State} (h : SameTrend l s t) (h' : SameTrend l t u) : SameTrend l s u :=
  ⟨h'.collects.trans h.collects, h'.power.trans h.power, h'.record.trans h.record, h'.lane.trans h.lane⟩

/-- Each lane's live record has one second more after the tick (R89). -/
theorem State.trendSecond_counts {s : State} {l : LaneIx} (collects : s.bit Reg.LANE_TREND_CTL 0 = true) (powered : s.laneOn l = true)
    (keeps : s.lanes[l].trendClear = false) (early : (s.trendRec l.val 0).runsec.toNat < 65535) :
    (s.trendSecond.trendRec l.val 0).runsec = (s.trendRec l.val 0).runsec + 1 ∧
      (s.trendSecond.trendRec l.val 0).seq = (s.trendRec l.val 0).seq + 1 := by
  refine State.over_once (I := SameTrend l s) (P := fun t => (t.trendRec l.val 0).runsec = (s.trendRec l.val 0).runsec + 1 ∧
      (t.trendRec l.val 0).seq = (s.trendRec l.val 0).seq + 1) (List.nodup_finRange 32) (List.mem_finRange l) ⟨rfl, rfl, rfl, rfl⟩
    (fun t b hb h => h.trans (t.trendLane_other hb.symm)) (fun t h => ?_) fun t b hb h => ?_
  · rw [← State.trendRec_congr h.record] at early ⊢
    exact State.trendLane_counts (h.collects.trans collects) (by rw [State.laneOn, h.power]; exact powered)
      (by rw [h.lane]; exact keeps) early
  · rwa [State.trendRec_congr (t.trendLane_other hb.symm).record]

theorem State.trendSecond_regs (s : State) : SameRegsBut ((List.range 32).map Reg.LANE_EYE) s s.trendSecond := by
  refine State.over_induction (I := SameRegsBut ((List.range 32).map Reg.LANE_EYE) s) (.of_regs rfl _) fun t l _ h => h.trans fun k hk =>
    t.trendLane_regs l k fun e => hk ?_
  rw [List.mem_singleton.mp e]
  exact List.mem_map_of_mem (List.mem_range.mpr l.isLt)

theorem exec_trendUpdate {s : State} (core : s.coreOn = true) (run : s.mode = .run) : exec .trendUpdate s =
    .next (if s.log.pending.isEmpty then s.trendSecond else { s with log := { s.log with trendDue := true } }) := by
  simp only [exec, execTrendUpdate, State.whenCore_on core, run]
  rfl

/-! ## LANE_TREND_CLR -/

def trendClrRow : RegRow := row 0x028004 [] [(.grd, 0xFFFFFFFF)] 0

theorem regRow_trendClr : regRow Reg.LANE_TREND_CLR = some trendClrRow ∧ inWindow Reg.LANE_TREND_CLR = false := by decide

/-- Each lane that is named is marked, and the others are left (R90). -/
theorem State.trendClrWritten_lane (s : State) (w : Word) (l : LaneIx) :
    (s.trendClrWritten w).lanes[l].trendClear = (s.lanes[l].trendClear || w.getLsbD l.val) ∧
      (s.trendClrWritten w).lanes[l].lock = s.lanes[l].lock := by
  have others (t : State) (j : LaneIx) (hj : j ≠ l) :
      (if w.getLsbD j.val then t.modLane j fun x => { x with trendClear := true } else t).lanes[l] = t.lanes[l] := by
    split
    · exact SameLanesBut.modLane t j _ l hj.symm
    · rfl
  refine State.over_once (I := fun t => t.lanes[l] = s.lanes[l])
    (P := fun t => t.lanes[l].trendClear = (s.lanes[l].trendClear || w.getLsbD l.val) ∧ t.lanes[l].lock = s.lanes[l].lock)
    (List.nodup_finRange 32) (List.mem_finRange l) rfl (fun t j hj h => (others t j hj).trans h) (fun t h => ?_)
    fun t j hj h => by rwa [others t j hj]
  split
  · rename_i named
    rw [State.modLane_lane, h, named, Bool.or_true]
    exact ⟨rfl, rfl⟩
  · rename_i unnamed
    rw [h, Bool.eq_false_iff.mpr unnamed, Bool.or_false]
    exact ⟨rfl, rfl⟩

theorem exec_laneTrendClrWrite {s : State} {m : Master} (core : s.coreOn = true) (takes : s.Takes m Reg.LANE_TREND_CLR) (data : Word) :
    ∃ acc, exec (.laneTrendClrWrite m data) s = .next ((s.writes acc Reg.LANE_TREND_CLR 0xFFFFFFFF data).trendClrWritten data) := by
  obtain ⟨row, out⟩ := regRow_trendClr
  obtain ⟨acc, run⟩ := State.command_of_takes takes row (mask := 0xFFFFFFFF) ⟨rfl, rfl, rfl⟩ (by decide) (by decide) (by decide) out data
  have clears (t : State) (old new : Word) : t.wrote m Reg.LANE_TREND_CLR old new data = t.trendClrWritten data := rfl
  exact ⟨acc, by simp only [exec, execLaneTrendClrWrite, State.whenCore_on core, run, clears]⟩

/-- Settles O14: each command's effect, read off its equation above. -/
theorem laneMeasurements : Obligations.LaneMeasurements := by
  refine ⟨fun s l core powered => ⟨fun pre post preset tseq ackSeq trains => ⟨fun sound seen => ?_, fun en new => ?_⟩,
    fun height width locked => ?_⟩, fun s core => ⟨fun run waits => ?_, fun run none => ?_, fun m data takes => ?_⟩⟩
  · obtain ⟨t, run, trained, regs, mem⟩ := exec_trainBlockReceived_trained core trains sound seen pre post preset ackSeq
    exact ⟨t, run, trained, .of_regs regs _, .of_mem mem⟩
  · obtain ⟨t, run, seen, up, up', done, lanes, regs, mem⟩ := exec_trainBlockReceived_up core trains en new preset ackSeq
    exact ⟨t, run, seen, up, up', done, lanes, regs, .of_mem mem⟩
  · obtain ⟨high, wide, valid⟩ := eyeWord_fields height width
    refine ⟨_, exec_eyeMeasurement core powered locked height width, ?_, ?_, ?_, .setReg (by simp) _ _, .of_mem (by simp [State.setRegN])⟩
    · rwa [State.fld, State.setRegN, State.reg_setReg_same]
    · rwa [State.fld, State.setRegN, State.reg_setReg_same]
    · rwa [State.bit, State.setRegN, State.reg_setReg_same]
  · rw [exec_trendUpdate core run, if_neg (by simpa using waits)]
  · refine ⟨s.trendSecond, ?_, s.trendSecond_regs, .of_mem (by simp [State.trendSecond_keeps]),
      fun l collects powered keeps early => State.trendSecond_counts collects powered keeps early⟩
    rw [exec_trendUpdate core run, none]
    rfl
  · obtain ⟨acc, run⟩ := exec_laneTrendClrWrite core takes data
    have lanes (l : LaneIx) := (s.writes acc Reg.LANE_TREND_CLR 0xFFFFFFFF data).trendClrWritten_lane data l
    refine ⟨_, run, fun l => (lanes l).1, fun l => (lanes l).2, .of_mem ?_⟩
    rw [show s.mem = (s.writes acc Reg.LANE_TREND_CLR 0xFFFFFFFF data).mem from rfl]
    simp [State.trendClrWritten_keeps]

end Sys2Proof.Machine
end

section
/-! Cut-through and the frame slot (R185, R199, R201, R207, R344). -/

namespace Sys2Proof.Machine

open Sys2Proof

/-! ## A cut-through frame joins before its end -/

/-- A frame that cuts through, in its queue: the port receives it still, and the join is counted (R185). -/
def State.cutJoined (s : State) (n : LocalPort) (id : Nat) : State :=
  { s with cav := { s.cav with cutIn := s.cav.cutIn ++ [(n, id)] } }

theorem exec_cutThroughJoin {s s1 s2 s4 : State} {n : LocalPort} {frame f g : Frame} {q : EgressPort} {a : Accepted}
    (core : s.coreOn = true) (service : s.isTvl (loc n) = true ∨ s.isEth (loc n) = true) (up : s.portUp (loc n) = true)
    (keeps : s.ports[loc n].discarding = false) (admits : s.pwr.admitClosed = false) (single : s.cutOf n = none)
    (framed : s.cutFrame n frame = (s1, some f)) (passes : s1.judge (toEgress (loc n)) f false none = (s2, .pass a))
    (cuts : s2.mayCut n a = some (g, q))
    (joins : (s2.store g (toEgress (loc n)) a.matched (s2.cav.lastChamber.val + 1)).joinAll s2.cav.nextId g.cls g.cells true [q] =
      (s4, .joined)) :
    exec (.cutThroughJoin n frame) s = .next (((s4.cutJoined n s2.cav.nextId).returnCredit (toEgress (loc n)) f.cls f.dl f.cells).count48
      Reg.CAV_CUT_LO 1) := by
  have serves : (s.isTvl (loc n) || s.isEth (loc n)) = true := Bool.or_eq_true_iff.mpr service
  simp only [exec, execCutThroughJoin, State.whenCore_on core, serves, up, keeps, admits, single, framed, passes, cuts, joins,
    Option.isSome_none, Bool.not_true, Bool.or_self, Bool.false_eq_true, if_false]
  rfl

/-! ## A slot in which no frame starts -/

theorem vmod_self {α : Type} {n : Nat} {v : Vector α n} {i : Fin n} {f : α → α} (h : f v[i] = v[i]) : vmod v i f = v := by
  refine Vector.ext fun j hj => ?_
  by_cases e : i = ⟨j, hj⟩
  · subst e
    exact (vmod_same v _ f).trans h
  · exact vmod_other e v f

/-- A port whose own frames have joined takes none (Table BEA-2). -/
theorem State.takeOwn_idle {s : State} {p : EgressPort} (h : ∀ k : TrunkPort, p = toEgress (trunk k) → s.ports[trunk k].ownTx = []) :
    s.takeOwn p = s := by
  unfold State.takeOwn
  split
  · rfl
  · rename_i t e
    have port : p = toEgress (trunk t) := by
      obtain ⟨l, hl, ht⟩ := Option.bind_eq_some_iff.mp e
      unfold toLink at hl
      unfold asTrunk at ht
      split at hl <;> simp only [Option.some.injEq, reduceCtorEq] at hl
      split at ht <;> simp only [Option.some.injEq, reduceCtorEq] at ht
      subst hl ht
      rfl
    have none := h t port
    split
    · rfl
    · rw [none]
      have same : vmod s.ports (trunk t) (fun x => { x with ownTx := [] }) = s.ports := vmod_self (by rw [← none])
      show ({ s with ports := vmod s.ports (trunk t) fun x => { x with ownTx := [] } } : State) = s
      rw [same]

/-- Where a port cannot send, a takeover holds it or a cut-through frame is on it, no frame starts (R207, R199). -/
theorem State.frameSlot_held {s : State} {p : EgressPort} {cclk : Nat}
    (h : s.portSends p = false ∨ s.takeoverHold p cclk = true ∨ ∃ x ∈ s.cav.cutTx, x.egress = p) (found : List CellError) :
    s.frameSlot p cclk found = s := by
  refine if_pos ?_
  rcases h with off | hold | ⟨x, hx, on⟩
  · rw [off]; rfl
  · rw [hold, Bool.or_true, Bool.true_or]
  · rw [Bool.or_eq_true_iff]
    exact .inr (List.any_eq_true.mpr ⟨x, hx, by simp [on]⟩)

/-- An idle slot sends a FILL at most. -/
theorem State.idleFill_idle (s : State) (p : EgressPort) : s.idleFill p s = s ∨ ∃ l m, s.idleFill p s = s.emit (.fill l m) := by
  unfold State.idleFill
  split
  · exact .inl rfl
  · split
    · exact .inl rfl
    · exact .inr ⟨_, _, rfl⟩

theorem exec_schedulerDecision {s : State} (core : s.coreOn = true) (p : EgressPort) (cclk : Nat) (found : List CellError) :
    exec (.schedulerDecision p ⟨cclk, found⟩) s = .next (if p.val = 20 then ((s.takeOwn p).frameSlot p cclk found).agentTakes
      else ((s.takeOwn p).frameSlot p cclk found).idleFill p s) := by
  simp only [exec, execSchedulerDecision, State.whenCore_on core]

/-! ## The choice of the one frame that is queued -/

theorem State.over_same {α : Type} {f : State → α → State} {s : State} {l : List α} (h : ∀ a ∈ l, f s a = s) : s.over l f = s :=
  State.over_induction (I := fun t => t = s) rfl fun t a ha e => by rw [e]; exact h a ha

/-- A queue whose first frame is not to be discarded keeps it. -/
theorem State.cleanHead_stays {s : State} {p : EgressPort} {c : Cls} (h : ∀ x, s.headOf (queueOf p c) = some x → s.headDrop p x.2 = none)
    (n : Nat) : State.cleanHead p c n s = s := by
  cases n with
  | zero => rfl
  | succ n =>
    unfold State.cleanHead
    split
    · rfl
    · rename_i r f e
      rw [h _ e]

theorem State.headOf_nil {s : State} {q : QueueIx} (h : s.cav.queues[q].refs = []) : s.headOf q = none := by
  unfold State.headOf
  rw [h]

theorem State.candidate_nil {s : State} {p : EgressPort} {c : Cls} (h : s.cav.queues[queueOf p c].refs = []) (cclk : Nat) :
    s.candidate p cclk c = none := by
  unfold State.candidate
  rw [State.headOf_nil h]

/-- A candidate is the first frame of its queue. -/
theorem State.headOf_of_candidate {s : State} {p : EgressPort} {cclk : Nat} {c : Cls} {x : QRef × Stored}
    (h : s.candidate p cclk c = some x) : s.headOf (queueOf p c) = some x := by
  unfold State.candidate at h
  split at h
  · exact absurd h (by simp)
  · rename_i e
    rw [e]
    (repeat' split at h) <;> simp_all

/-- The first frame of a queue is stored. -/
theorem State.stored_of_headOf {s : State} {q : QueueIx} {r : QRef} {f : Stored} (h : s.headOf q = some (r, f)) :
    s.stored r.id = some f := by
  unfold State.headOf at h
  split at h
  · exact absurd h (by simp)
  · split at h
    · exact absurd h (by simp)
    · obtain ⟨g, stored, e⟩ := Option.map_eq_some_iff.mp h
      obtain ⟨rfl, rfl⟩ := Prod.mk.inj e
      exact stored

theorem classesDown_filterMap {α : Type} (c : Cls) (v : α) : classesDown.filterMap (fun k => if k = c then some v else none) = [v] := by
  fin_cases c <;> rfl

theorem classesDown_find (c : Cls) : classesDown.find? (fun k => c == k) = some c := by
  revert c
  decide

/-- A class with committed tokens for the charge of its one candidate is chosen (R201). -/
theorem State.pickCommitted_one {s : State} {p : EgressPort} {c : Cls} {n : Nat} (tokens : n * 256 ≤ s.ctok p.val c.val) :
    s.pickCommitted p [(c, n)] = some c := by
  have pick : (fun k : Cls => [(c, n)].any fun x => x.1 == k && decide (x.2 * 256 ≤ s.ctok p.val k.val)) = fun k => c == k := by
    funext k
    by_cases e : c = k
    · subst e
      simp [tokens]
    · simp [e]
  rw [State.pickCommitted, pick, classesDown_find]

/-- The one frame that is queued, a candidate with committed tokens that no check drops, is launched. -/
theorem State.decideSlot_one {s : State} {p : EgressPort} {cclk : Nat} {found : List CellError} {c : Cls} {r : QRef} {f : Stored}
    (empty : ∀ k : Cls, k ≠ c → s.cav.queues[queueOf p k].refs = []) (cand : s.candidate p cclk c = some (r, f))
    (keeps : s.headDrop p f = none) (leaves : s.egressDrop p f found = none) (tokens : s.charge p f.frame * 256 ≤ s.ctok p.val c.val)
    (n : Nat) : State.decideSlot p cclk found (n + 1) s = (s.debitCommitted p c (s.charge p f.frame)).launch p c r f found := by
  have head := State.headOf_of_candidate cand
  have clean : (s.over classesDown fun s c => State.cleanHead p c s.cav.queues[queueOf p c].refs.length s) = s := by
    refine State.over_same fun k _ => State.cleanHead_stays (fun x hx => ?_) _
    by_cases e : k = c
    · subst e
      obtain rfl : (r, f) = x := Option.some.inj (head.symm.trans hx)
      exact keeps
    · rw [State.headOf_nil (empty k e)] at hx
      exact absurd hx (by simp)
  have heads : (classesDown.filterMap fun k => (s.candidate p cclk k).map fun x => (k, x)) = [(c, (r, f))] := by
    rw [← classesDown_filterMap c (c, (r, f))]
    refine List.filterMap_congr fun k _ => ?_
    split
    · rename_i e
      rw [e, cand]
      rfl
    · rename_i e
      rw [State.candidate_nil (empty k e)]
      rfl
  unfold State.decideSlot
  simp only [clean, heads, List.map_cons, List.map_nil, State.pickCommitted_one tokens, List.find?_cons, beq_self_eq_true,
    Option.map_some, leaves, Option.getD_some]

/-! ## What a frame that leaves does to queues and inboxes -/

/-- The queues and the waiting frames stand; no frame is stored anew, and no inbox has another descriptor than that of frame `id`. -/
structure FrameLeaves (id : Nat) (s t : State) : Prop where
  queues : t.cav.queues = s.cav.queues
  waiting : t.cav.waiting = s.cav.waiting
  frames : ∀ i x, t.stored i = some x → s.stored i = some x
  engines : ∀ r : RoleIx, t.eng.roles[r].engine = s.eng.roles[r].engine
  inboxes : ∀ r : RoleIx, ∀ d ∈ t.eng.roles[r].inbox, d ∈ s.eng.roles[r].inbox ∨ d.id = id

theorem FrameLeaves.trans {id : Nat} {s t u : State} (h : FrameLeaves id s t) (h' : FrameLeaves id t u) : FrameLeaves id s u :=
  ⟨h'.queues.trans h.queues, h'.waiting.trans h.waiting, fun i x e => h.frames i x (h'.frames i x e),
    fun r => (h'.engines r).trans (h.engines r), fun r d hd => (h'.inboxes r d hd).elim (h.inboxes r d) .inr⟩

/-- What leaves Cavern's queues and frames and the engines leaves all of it. -/
theorem FrameLeaves.of_eq {id : Nat} {s t : State} (queues : t.cav.queues = s.cav.queues) (waiting : t.cav.waiting = s.cav.waiting)
    (frames : t.cav.frames = s.cav.frames) (eng : t.eng = s.eng) : FrameLeaves id s t :=
  ⟨queues, waiting, fun i x e => by rwa [State.stored, ← frames], fun r => by rw [eng], fun r d hd => .inl (by rwa [← eng])⟩

theorem FrameLeaves.of_parts {id : Nat} {s t : State} (cav : t.cav = s.cav) (eng : t.eng = s.eng) : FrameLeaves id s t :=
  .of_eq (congrArg CavernState.queues cav) (congrArg CavernState.waiting cav) (congrArg CavernState.frames cav) eng

theorem State.release_leaves (s : State) (id i : Nat) : FrameLeaves id s (s.release i) := by
  unfold State.release
  split
  · exact .of_parts rfl rfl
  · refine ⟨rfl, rfl, fun j x e => ?_, fun _ => rfl, fun _ _ hd => .inl hd⟩
    have found : (s.cav.frames.filter fun f => f.id != i).find? (fun f => f.id == j) = some x := e
    rw [List.find?_filter] at found
    obtain ⟨away, rfl⟩ : x.id ≠ i ∧ x.id = j := by simpa using List.find?_some found
    refine Eq.trans (congrArg (fun p => s.cav.frames.find? p) (funext fun f => ?_)) found
    by_cases same : f.id = x.id
    · simp [same, away]
    · simp [same]

theorem State.modRole_role (s : State) (r : RoleIx) (f : Role → Role) : (s.modRole r f).eng.roles[r] = f s.eng.roles[r] :=
  vmod_same s.eng.roles r f

theorem State.modRole_other {r j : RoleIx} (h : r ≠ j) (s : State) (f : Role → Role) : (s.modRole r f).eng.roles[j] = s.eng.roles[j] :=
  vmod_other h s.eng.roles f

/-- A role with one more descriptor. -/
def Role.received (d : Descriptor) (x : Role) : Role := { x with inbox := x.inbox ++ [d] }

theorem State.received_leaves (s : State) (r : RoleIx) (d : Descriptor) : FrameLeaves d.id s (s.modRole r (Role.received d)) := by
  refine ⟨rfl, rfl, fun _ _ e => e, fun j => ?_, fun j x hx => ?_⟩
  all_goals by_cases same : r = j
  · rw [← same, State.modRole_role]
    rfl
  · rw [State.modRole_other same]
  · rw [← same, State.modRole_role] at hx
    rw [← same]
    exact (List.mem_append.mp hx).imp_right fun new => congrArg Descriptor.id (List.mem_singleton.mp new)
  · rw [State.modRole_other same] at hx
    exact .inl hx

theorem State.dispatch_leaves (s : State) (f : Stored) : FrameLeaves f.id s (s.dispatch f) := by
  have counted (t : State) (k : Nat) : FrameLeaves f.id t (t.count k) := .of_parts rfl rfl
  unfold State.dispatch
  split
  · exact (s.release_leaves f.id f.id).trans (counted _ _)
  · split
    · exact (s.release_leaves f.id f.id).trans (counted _ _)
    · unfold State.modInbox
      dsimp only
      split
      · rename_i small
        exact s.received_leaves ⟨_, small⟩ { id := f.id, cells := f.frame.cells }
      · exact ⟨rfl, rfl, fun _ _ e => e, fun _ => rfl, fun _ _ hd => .inl hd⟩

theorem State.transmit_leaves (s : State) (p : EgressPort) (f : Stored) (g : Frame) : FrameLeaves f.id s (s.transmit p f g) := by
  have tvl (l : LinkPort) : FrameLeaves f.id s (s.sendTvl p l g) := .of_parts (by simp [State.sendTvl_keeps]) (by simp [State.sendTvl_keeps])
  have eth (n : LocalPort) : FrameLeaves f.id s (s.sendEth p n g) := .of_parts (by simp [State.sendEth_keeps]) (by simp [State.sendEth_keeps])
  unfold State.transmit
  (repeat' split)
  · exact s.dispatch_leaves f
  · exact eth _
  · exact tvl _
  · exact tvl _

theorem State.endBad_leaves (s : State) (p : EgressPort) (f : Stored) (bad : List ChamberIx) : FrameLeaves f.id s (s.endBad p f bad) := by
  have failed : FrameLeaves f.id s (s.over bad State.chamberUe) :=
    State.over_induction (I := FrameLeaves f.id s) (.of_parts rfl rfl) fun t c _ h => h.trans (.of_eq rfl rfl rfl rfl)
  have counted (t : State) (k : Nat) : FrameLeaves f.id t (t.count k) := .of_parts rfl rfl
  have unmarked (t : State) : FrameLeaves f.id t (t.unmarkTwin f.frame) :=
    .of_parts (by simp [State.unmarkTwin_keeps]) (by simp [State.unmarkTwin_keeps])
  have emitted (t : State) (o : Output) : FrameLeaves f.id t (t.emit o) := .of_parts rfl rfl
  unfold State.endBad
  dsimp only
  (repeat' split)
  · exact ((failed.trans (counted _ _)).trans (unmarked _)).trans (emitted _ _)
  · exact (failed.trans (counted _ _)).trans (emitted _ _)
  · exact (failed.trans (counted _ _)).trans (unmarked _)
  · exact failed.trans (counted _ _)

theorem State.finishFrame_leaves (s : State) (p : EgressPort) (f : Stored) (g : Frame) (found : List CellError) :
    FrameLeaves f.id s (s.finishFrame p f g found) := by
  unfold State.finishFrame
  split
  · exact s.transmit_leaves p f g
  · exact s.endBad_leaves p f _

/-- The state in which a frame has begun and its reference has left its queue. -/
def State.begun (s : State) (p : EgressPort) (c : Cls) (f : Stored) (marked : Bool) (found : List CellError) : State :=
  ((s.countCe found).startFrame p f marked).unqueue (queueOf p c) f.id

/-- Of Cavern a frame that has begun changes its queue alone. -/
theorem State.begun_keeps (s : State) (p : EgressPort) (c : Cls) (f : Stored) (marked : Bool) (found : List CellError) :
    (s.begun p c f marked found).cav = (s.modQueue (queueOf p c) fun x =>
      { x with refs := x.refs.filter (fun r => r.id != f.id), creditWait := none }).cav ∧ (s.begun p c f marked found).eng = s.eng := by
  have cav : ((s.countCe found).startFrame p f marked).cav = s.cav := by simp [State.startFrame_keeps, State.countCe_keeps]
  constructor
  · rw [State.begun, State.unqueue, show (State.emptyDeficit _ _).cav = _ from (State.emptyDeficit_keeps _ _).2.2.2.2.2.2.1,
      State.modQueue, cav]
    rfl
  · simp [State.begun, State.unqueue_keeps, State.startFrame_keeps, State.countCe_keeps]

theorem State.begun_refs (s : State) (p : EgressPort) (c : Cls) (f : Stored) (marked : Bool) (found : List CellError) :
    (s.begun p c f marked found).cav.queues[queueOf p c].refs = s.cav.queues[queueOf p c].refs.filter fun r => r.id != f.id := by
  rw [(s.begun_keeps p c f marked found).1]
  exact congrArg Queue.refs (vmod_same s.cav.queues (queueOf p c) _)

/-- Once begun a frame goes on, or leaves whole (R185). -/
theorem State.launch_leaves (s : State) (p : EgressPort) (c : Cls) (r : QRef) (f : Stored) (found : List CellError) :
    FrameLeaves f.id (s.begun p c f r.marked found) (s.launch p c r f found) := by
  unfold State.launch
  dsimp only
  split
  · exact .of_eq rfl rfl rfl rfl
  · exact (State.finishFrame_leaves _ p f _ found).trans (State.release_leaves _ f.id f.id)

/-- Nothing waits for a place: none is given. -/
theorem State.settle_idle {s : State} (h : s.cav.waiting = []) : s.settle = s := by
  rw [State.settle, h]
  rfl

/-! ## The agents -/

/-- The descriptors of an inbox that its agent has not seen. -/
def State.unseen (s : State) (r : RoleIx) : List Descriptor := s.eng.roles[r].inbox.filter fun d => !d.acted

/-- A role whose agent has seen its inbox. -/
def Role.seen (x : Role) : Role := { x with inbox := x.inbox.map fun d => { d with acted := true } }

/-- No agent finds a frame for itself in an inbox. -/
def State.NoAgentWork (s : State) : Prop :=
  ∀ r : RoleIx, s.eng.roles[r].engine.isSome = true → ∀ d ∈ s.unseen r, ∀ f, s.stored d.id = some f → epLocal f.frame.destEp ≠ 0

/-- Where no agent finds a frame for itself, the agents change neither Cavern nor memory. -/
theorem State.agentTakes_idle {s : State} (h : s.NoAgentWork) : s.agentTakes.cav = s.cav ∧ s.agentTakes.mem = s.mem := by
  have all : s.agentTakes.cav = s.cav ∧ s.agentTakes.mem = s.mem ∧ s.agentTakes.NoAgentWork := by
    refine State.over_induction (I := fun t => t.cav = s.cav ∧ t.mem = s.mem ∧ t.NoAgentWork) ⟨rfl, rfl, h⟩
      fun t r _ ⟨cav, mem, idle⟩ => ?_
    split
    · exact ⟨cav, mem, idle⟩
    · rename_i engine
      have served : (t.modRole r Role.seen).over ((t.unseen r).filterMap fun d => t.stored d.id) (fun u f =>
          if epLocal f.frame.destEp = 0 then u.agentServes f.frame f.ingress else u) = t.modRole r Role.seen := by
        refine State.over_same fun f hf => if_neg ?_
        obtain ⟨d, hd, stored⟩ := List.mem_filterMap.mp hf
        exact idle r (by simpa [Option.isSome_iff_ne_none] using engine) d hd f stored
      suffices (t.modRole r Role.seen).cav = s.cav ∧ (t.modRole r Role.seen).mem = s.mem ∧ (t.modRole r Role.seen).NoAgentWork by
        rw [← served] at this
        exact this
      refine ⟨cav, mem, fun j on d hd f stored => ?_⟩
      by_cases same : r = j
      · subst same
        rw [State.unseen, State.modRole_role] at hd
        obtain ⟨mem, fresh⟩ := List.mem_filter.mp hd
        obtain ⟨_, -, rfl⟩ := List.mem_map.mp mem
        exact absurd fresh Bool.false_ne_true
      · rw [State.unseen, State.modRole_other same] at hd
        rw [State.modRole_other same] at on
        exact idle j on d hd f stored
  exact ⟨all.1, all.2.1⟩

/-- A frame for no agent that leaves into an inbox gives no agent work where none waits. -/
theorem State.launch_noAgentWork {s : State} {p : EgressPort} {c : Cls} {r : QRef} {f : Stored} (stored : s.stored f.id = some f)
    (other : epLocal f.frame.destEp ≠ 0)
    (idle : ∀ r : RoleIx, s.eng.roles[r].engine.isSome = true → ∀ d ∈ s.eng.roles[r].inbox, d.acted = true) (found : List CellError) :
    (s.launch p c r f found).NoAgentWork := by
  intro j on d hd g e
  have leaves := s.launch_leaves p c r f found
  obtain ⟨cav, eng⟩ := s.begun_keeps p c f r.marked found
  obtain ⟨mem, fresh⟩ := List.mem_filter.mp hd
  rw [leaves.engines, eng] at on
  rcases leaves.inboxes j d mem with old | new
  · rw [eng] at old
    rw [idle j on d old] at fresh
    exact absurd fresh (by decide)
  · have before : s.stored d.id = some g := by
      have begun := leaves.frames _ _ e
      rw [State.stored, cav] at begun
      exact begun
    rw [new, stored] at before
    rw [← Option.some.inj before]
    exact other

/-- A frame slot in which the one frame queued leaves: its queue is empty after it, and an agent has nothing to do for it. -/
theorem State.frameSlot_one {s : State} {p : EgressPort} {cclk : Nat} {found : List CellError} {c : Cls} {r : QRef} {f : Stored}
    (sends : s.portSends p = true) (free : s.takeoverHold p cclk = false) (whole : ∀ x ∈ s.cav.cutTx, x.egress ≠ p)
    (settled : s.cav.waiting = []) (empty : ∀ k : Cls, k ≠ c → s.cav.queues[queueOf p k].refs = [])
    (one : s.cav.queues[queueOf p c].refs = [r]) (id : f.id = r.id) (cand : s.candidate p cclk c = some (r, f))
    (keeps : s.headDrop p f = none) (leaves : s.egressDrop p f found = none)
    (tokens : s.charge p f.frame * 256 ≤ s.ctok p.val c.val) :
    s.frameSlot p cclk found = (s.debitCommitted p c (s.charge p f.frame)).launch p c r f found ∧
      (s.frameSlot p cclk found).cav.queues[queueOf p c].refs = [] ∧ (s.frameSlot p cclk found).mem = s.mem := by
  have slot : s.frameSlot p cclk found = ((s.debitCommitted p c (s.charge p f.frame)).launch p c r f found).settle := by
    have idle : s.cav.cutTx.any (fun t => t.egress == p) = false :=
      List.any_eq_false.mpr fun x hx => by simpa using whole x hx
    rw [State.frameSlot, sends, free, idle, State.decideSlot_one empty cand keeps leaves tokens]
    rfl
  have debited : (s.debitCommitted p c (s.charge p f.frame)).cav = s.cav := by simp [State.debitCommitted_keeps]
  have mem : ((s.debitCommitted p c (s.charge p f.frame)).launch p c r f found).mem = s.mem := by
    simp [State.launch_keeps, State.debitCommitted_keeps]
  generalize s.debitCommitted p c (s.charge p f.frame) = t at slot debited mem ⊢
  have after := t.launch_leaves p c r f found
  have waiting : (t.launch p c r f found).cav.waiting = [] := by
    rw [after.waiting, (t.begun_keeps p c f r.marked found).1, ← settled, ← debited]
    rfl
  rw [State.settle_idle waiting] at slot
  refine ⟨slot, ?_, by rw [slot, mem]⟩
  rw [slot, after.queues, State.begun_refs, debited, one]
  simp [id]

/-- A slot with the one frame queued: as it is taken, its queue is empty and memory stands. -/
theorem exec_schedulerDecision_one {s : State} (core : s.coreOn = true) {p : EgressPort} {cclk : Nat} {found : List CellError} {c : Cls}
    {r : QRef} {f : Stored} (sends : s.portSends p = true) (free : s.takeoverHold p cclk = false) (settled : s.cav.waiting = [])
    (own : ∀ k : TrunkPort, p = toEgress (trunk k) → s.ports[trunk k].ownTx = []) (whole : ∀ x ∈ s.cav.cutTx, x.egress ≠ p)
    (empty : ∀ k : Cls, k ≠ c → s.cav.queues[queueOf p k].refs = []) (one : s.cav.queues[queueOf p c].refs = [r]) (id : f.id = r.id)
    (cand : s.candidate p cclk c = some (r, f)) (keeps : s.headDrop p f = none) (leaves : s.egressDrop p f found = none)
    (tokens : s.charge p f.frame * 256 ≤ s.ctok p.val c.val)
    (agents : p.val < 20 ∨ (epLocal f.frame.destEp ≠ 0 ∧
      ∀ r : RoleIx, s.eng.roles[r].engine.isSome = true → ∀ d ∈ s.eng.roles[r].inbox, d.acted = true)) :
    ∃ t, exec (.schedulerDecision p ⟨cclk, found⟩) s = .next t ∧ t.cav.queues[queueOf p c].refs = [] ∧ t.mem = s.mem := by
  obtain ⟨slot, refs, mem⟩ := State.frameSlot_one sends free whole settled empty one id cand keeps leaves tokens
  refine ⟨_, exec_schedulerDecision core p cclk found, ?_⟩
  rw [State.takeOwn_idle own]
  generalize s.frameSlot p cclk found = u at slot refs mem ⊢
  have same {t : State} (cav : t.cav = u.cav) (kept : t.mem = u.mem) : t.cav.queues[queueOf p c].refs = [] ∧ t.mem = s.mem :=
    ⟨by rw [cav]; exact refs, kept.trans mem⟩
  split
  · rename_i internal
    obtain ⟨other, idle⟩ := agents.resolve_left (by omega)
    have stored : s.stored f.id = some f := by
      rw [id]
      exact State.stored_of_headOf (State.headOf_of_candidate cand)
    have quiet : u.NoAgentWork := by
      rw [slot]
      refine State.launch_noAgentWork ?_ other ?_ found
      · rw [State.stored, show (s.debitCommitted p c (s.charge p f.frame)).cav = s.cav by simp [State.debitCommitted_keeps]]
        exact stored
      · rw [show (s.debitCommitted p c (s.charge p f.frame)).eng = s.eng by simp [State.debitCommitted_keeps]]
        exact idle
    obtain ⟨cav, taken⟩ := State.agentTakes_idle quiet
    exact same cav taken
  · exact same (by simp [State.idleFill_keeps]) (by simp [State.idleFill_keeps])

/-- Settles O31: each command's effect, read off its equation above. -/
theorem cutThrough : Obligations.CutThrough := by
  intro s core
  refine ⟨fun n frame f g q a s1 s2 s4 service up keeps admits single framed passes cuts joins => ?_,
    fun p cclk found small own held => ?_,
    fun p cclk found c r f sends free settled own whole empty one id cand keeps leaves tokens agents => ?_⟩
  · have cav (t : State) : (t.returnCredit (toEgress (loc n)) f.cls f.dl f.cells).cav = t.cav := by simp [State.returnCredit_keeps]
    have regs (t : State) : (t.returnCredit (toEgress (loc n)) f.cls f.dl f.cells).regs = t.regs := by simp [State.returnCredit_keeps]
    refine ⟨_, exec_cutThroughJoin core service up keeps admits single framed passes cuts joins, ?_, ?_, ?_⟩
    · exact congrArg CavernState.cutIn (cav (s4.cutJoined n s2.cav.nextId))
    · exact (congrArg CavernState.queues (cav (s4.cutJoined n s2.cav.nextId))).trans rfl
    · rw [State.count48, State.reg48_setReg48, Nat.mod_mod]
      simp only [State.reg48, State.fld, State.reg, regs]
      rfl
  · refine ⟨_, exec_schedulerDecision core p cclk found, ?_⟩
    rw [if_neg (by omega), State.takeOwn_idle own, State.frameSlot_held held found]
    rcases s.idleFill_idle p with none | ⟨l, m, fill⟩
    · rw [none]
      exact ⟨rfl, rfl, rfl, .inl rfl, .of_regs rfl _, .of_mem rfl⟩
    · rw [fill]
      exact ⟨rfl, rfl, rfl, .inr ⟨l, m, rfl⟩, .of_regs rfl _, .of_mem rfl⟩
  · obtain ⟨t, run, refs, mem⟩ := exec_schedulerDecision_one core sends free settled own whole empty one id cand keeps leaves tokens agents
    exact ⟨t, run, refs, .of_mem mem⟩

end Sys2Proof.Machine
end

section
/-! A port leaves DOWN, detects, trains and locks (R15, R55, R96-R98, R105, Table CPL-1), and what runs out of time on the way. -/

namespace Sys2Proof.Machine

open Sys2Proof

/-! ## Frames of one port -/

theorem SamePortsBut.refl (p : LinkPort) (s : State) : SamePortsBut p s s := fun _ _ => rfl

theorem SamePortsBut.trans {p : LinkPort} {s t u : State} (h : SamePortsBut p s t) (h' : SamePortsBut p t u) : SamePortsBut p s u :=
  fun j hj => (h' j hj).trans (h j hj)

theorem SamePortsBut.of_ports {p : LinkPort} {s t : State} (h : t.ports = s.ports) : SamePortsBut p s t := fun j _ => by rw [h]

/-- A counter counted after a part that leaves it has counted once in all. -/
theorem Counted.after {k : Nat} {s t u : State} (h : Counted k t u) (e : t.reg k = s.reg k) : Counted k s u := by
  simpa only [Counted, e] using h

theorem State.countTrunk_of_trunk {p : LinkPort} (h : p.val < 4) (s : State) (r : Nat → Nat) : s.countTrunk p r = s.count (r p.val) :=
  if_pos h

theorem State.countTrunk_ports (s : State) (p : LinkPort) (r : Nat → Nat) : (s.countTrunk p r).ports = s.ports := by
  simp [State.countTrunk_keeps]

theorem State.toStage_port (s : State) (p : LinkPort) (st : Stage) :
    (s.toStage p st).ports[p] = { s.ports[p] with stage := st, stageHead := s.heads } := s.modPort_port p _

/-! ## Out of DOWN (R105) -/

/-- LOCK begins with its transmit set, and nothing but its port changes. -/
theorem State.enterLock_spec (s : State) (p : LinkPort) : (s.enterLock p).ports[p].stage = .lock ∧
    (s.enterLock p).ports[p].stageHead = s.heads ∧ (s.enterLock p).ports[p].fastTried = s.ports[p].fastTried ∧
    (s.enterLock p).lanes = s.lanes ∧ SamePortsBut p s (s.enterLock p) ∧ SameRegsBut [] s (s.enterLock p) ∧
    SameMemory s (s.enterLock p) := by
  rw [State.enterLock, State.modPort_port, State.toStage_port]
  exact ⟨rfl, rfl, rfl, rfl, (SamePortsBut.modPort s p _).trans (.modPort _ p _), .of_regs rfl _, .of_mem rfl⟩

/-- A detection begins: DETECT, with the training forgotten and the detection sent. -/
theorem State.startDetect_spec (s : State) (p : LinkPort) : (s.startDetect p).ports = (s.toStage p .detect).ports ∧
    (s.startDetect p).sent = .detect p :: s.sent ∧ (s.startDetect p).regs = s.regs ∧ (s.startDetect p).mem = s.mem := by
  simp [State.startDetect, State.clearTraining_keeps, State.toStage_keeps]

theorem exec_downExit {s : State} {p : LinkPort} (core : s.coreOn = true) (down : s.ports[p].stage = .down)
    (enabled : s.portEnabled p = true) (later : s.ports[p].stageHead < s.heads) : exec (.downExit p) s = .next (
      if s.fastReturn p then (s.modPort p fun y => { y with fastTried := true }).enterLock p else s.startDetect p) := by
  have due : ¬s.heads ≤ s.ports[p].stageHead := by omega
  simp [-Fin.getElem_fin, exec, execDownExit, State.whenCore_on core, down, enabled, due]

/-! ## Detection (R54, R55, R96, R97) -/

/-- Nothing that a detection asks for changes: the ports, the rates and groups of the lanes; and memory stays. -/
structure Detecting (s t : State) : Prop where
  ports : t.ports = s.ports
  heads : t.heads = s.heads
  rate : ∀ l, t.laneRate l = s.laneRate l
  group : t.reg Reg.LOC_GROUP = s.reg Reg.LOC_GROUP
  mem : t.mem = s.mem

theorem Detecting.refl (s : State) : Detecting s s := ⟨rfl, rfl, fun _ => rfl, rfl, rfl⟩

theorem Detecting.trans {s t u : State} (h : Detecting s t) (h' : Detecting t u) : Detecting s u :=
  ⟨h'.ports.trans h.ports, h'.heads.trans h.heads, fun l => (h'.rate l).trans (h.rate l), h'.group.trans h.group, h'.mem.trans h.mem⟩

theorem Detecting.rateMix {s t : State} (h : Detecting s t) (l : LaneIx) : t.rateMix l = s.rateMix l := by
  have member (j : Nat) : t.isMember j = s.isMember j := by simp only [State.isMember, State.bonded, State.bit, h.group]
  have port : t.portOfLane l = s.portOfLane l := by simp only [State.portOfLane, State.groupPort, member]
  simp only [State.rateMix, port, h.rate]

theorem Detecting.mayTrain {s t : State} (h : Detecting s t) (p : LinkPort) : t.mayTrain p = s.mayTrain p := by
  simp only [State.mayTrain, h.ports]

theorem Detecting.modLane (s : State) (l : LaneIx) (f : Lane → Lane) : Detecting s (s.modLane l f) :=
  ⟨rfl, rfl, fun _ => rfl, rfl, rfl⟩

theorem Detecting.drawn (s : State) : Detecting s s.drawn := ⟨rfl, rfl, fun _ => rfl, rfl, rfl⟩

theorem Detecting.emit (s : State) (o : Output) : Detecting s (s.emit o) := ⟨rfl, rfl, fun _ => rfl, rfl, rfl⟩

/-- LANE_EQ holds the cursors, neither a rate nor a group. -/
theorem Detecting.setCursor (s : State) (l : LaneIx) (hi lo v : Nat) : Detecting s (s.setFld (Reg.LANE_EQ l.val) hi lo v) where
  ports := by simp
  heads := by simp
  rate j := State.fld_setFld_other (by unfold Reg.LANE_CFG_ACT Reg.LANE_EQ; omega) s _ _ _ _ _
  group := State.reg_setFld_other (by have := l.isLt; simp only [Reg.LOC_GROUP, Reg.LANE_EQ, ne_eq]; omega) s _ _ _
  mem := by simp

theorem State.usePreset_detecting (s : State) (l : LaneIx) (preset : Nat) : Detecting s (s.usePreset l preset) :=
  ((Detecting.drawn s).trans (.setCursor s.drawn l _ _ _)).trans (.setCursor _ l _ _ _)

/-- A lane that begins TRAIN is detected. -/
theorem State.beginTrain_spec (s : State) (l : LaneIx) : Detecting s (s.beginTrain l) ∧
    (s.beginTrain l).lanes[l].detected = true ∧ SameLanesBut l s (s.beginTrain l) := by
  have lanes : (s.usePreset l (s.lanePreset l)).lanes = s.lanes := by simp [State.usePreset_keeps]
  have cursors := s.usePreset_detecting l (s.lanePreset l)
  unfold State.beginTrain
  extract_lets s1 en s2
  have sent : (s2.sendTrain l).lanes = s2.lanes := rfl
  rw [sent]
  refine ⟨((cursors.trans (.drawn s1)).trans (.modLane s1.drawn l _)).trans (.emit s2 _), ?_, fun j hj => ?_⟩
  · exact congrArg Lane.detected (s1.drawn.modLane_lane l _)
  · rw [sent, ← lanes]
    exact vmod_other (Ne.symm hj) _ _

/-- What a detection makes of one lane that is not trained. -/
def State.detectLane (p : LinkPort) (lanes : BitVec 4) (s : State) (i : Nat) : State :=
  if s.mayTrain p && lanes.getLsbD i && !s.rateMix (laneAt p i) then s.beginTrain (laneAt p i)
  else s.modLane (laneAt p i) fun x => { x with detected := lanes.getLsbD i }

theorem State.detectLane_detecting (s : State) (p : LinkPort) (lanes : BitVec 4) (i : Nat) :
    Detecting s (s.detectLane p lanes i) ∧ SameLanesBut (laneAt p i) s (s.detectLane p lanes i) := by
  unfold State.detectLane
  split
  · exact ⟨(s.beginTrain_spec _).1, (s.beginTrain_spec _).2.2⟩
  · exact ⟨.modLane s _ _, .modLane s _ _⟩

/-- On a port that does not go on, or for a lane without termination, a detection writes no register. -/
theorem State.detectLane_idle {s : State} {p : LinkPort} {lanes : BitVec 4} {i : Nat} (h : (s.mayTrain p && lanes.getLsbD i) = false) :
    s.detectLane p lanes i = s.modLane (laneAt p i) fun x => { x with detected := lanes.getLsbD i } := by
  rw [State.detectLane, h]
  rfl

/-- The lanes of a port in DETECT of which a detection tells. -/
def State.untrained (s : State) (p : LinkPort) : List Nat := (List.range (s.laneCount p)).filter fun i => !s.lanes[laneAt p i].trained

/-- The lanes of a port after a detection. -/
def State.detected (s : State) (p : LinkPort) (lanes : BitVec 4) : State := s.over (s.untrained p) (State.detectLane p lanes)

theorem State.detected_detecting (s : State) (p : LinkPort) (lanes : BitVec 4) : Detecting s (s.detected p lanes) :=
  State.over_induction (I := Detecting s) (.refl s) fun t i _ h => h.trans (t.detectLane_detecting p lanes i).1

theorem exec_detectionResult {s : State} {p : LinkPort} (core : s.coreOn = true) (detect : s.ports[p].stage = .detect)
    (enabled : s.portEnabled p = true) (lanes : BitVec 4) : exec (.detectionResult p lanes) s = .next (
      if s.mayTrain p && (s.untrained p).any fun i => lanes.getLsbD i && !s.rateMix (laneAt p i) then
        (s.detected p lanes).toStage p .train
      else s.detected p lanes) := by
  have asks (i : Nat) : (!s.lanes[laneAt p i].trained && !(Stage.detect == Stage.train && s.inTrain (laneAt p i))) =
      !s.lanes[laneAt p i].trained := Bool.and_true _
  simp only [exec, execDetectionResult, State.whenCore_on core, detect, enabled, asks]
  rfl

/-- A detection that takes no lane into TRAIN leaves the ports and every register. -/
theorem exec_detectionResult_none {s : State} {p : LinkPort} (core : s.coreOn = true) (detect : s.ports[p].stage = .detect)
    (enabled : s.portEnabled p = true) {lanes : BitVec 4} (idle : ∀ i, (s.mayTrain p && lanes.getLsbD i) = false) :
    ∃ t, exec (.detectionResult p lanes) s = .next t ∧ t.ports = s.ports ∧ SameRegsBut [] s t ∧ SameMemory s t := by
  have none_found : (s.mayTrain p && (s.untrained p).any fun i => lanes.getLsbD i && !s.rateMix (laneAt p i)) = false := by
    rw [Bool.eq_false_iff, ne_eq, Bool.and_eq_true, List.any_eq_true]
    rintro ⟨may, i, -, hi⟩
    have := idle i
    simp_all
  have kept := s.detected_detecting p lanes
  have regs : (s.detected p lanes).regs = s.regs := by
    refine (State.over_induction (I := fun t => Detecting s t ∧ t.regs = s.regs) ⟨.refl s, rfl⟩ fun t i _ ⟨h, e⟩ => ?_).2
    rw [State.detectLane_idle (by rw [h.mayTrain]; exact idle i)]
    exact ⟨h.trans (.modLane t _ _), e⟩
  rw [exec_detectionResult core detect enabled, none_found]
  exact ⟨_, rfl, kept.ports, .of_regs regs _, .of_mem kept.mem⟩

/-- A lane found at its port's rate is detected, whatever the detection says of the others. -/
theorem State.detected_lane {s : State} {p : LinkPort} {lanes : BitVec 4} {i : Nat} (may : s.mayTrain p = true)
    (hi : i ∈ s.untrained p) (found : lanes.getLsbD i = true) (rate : s.rateMix (laneAt p i) = false) :
    (s.detected p lanes).lanes[laneAt p i].detected = true := by
  have few (j : Nat) (hj : j ∈ s.untrained p) : j < 4 := by
    have := s.laneCount_le p
    have := List.mem_range.mp (List.mem_filter.mp hj).1
    omega
  refine State.over_reaches (I := Detecting s) (P := fun t => t.lanes[laneAt p i].detected = true) hi (.refl s)
    (fun t j _ h => h.trans (t.detectLane_detecting p lanes j).1) (fun t h => ?_) fun t j hj _ done => ?_
  · have taken : t.detectLane p lanes i = t.beginTrain (laneAt p i) := by
      rw [State.detectLane, h.mayTrain, h.rateMix, may, found, rate]
      rfl
    rw [taken]
    exact (t.beginTrain_spec _).2.1
  · by_cases e : j = i
    · subst e
      unfold State.detectLane
      split
      · exact (t.beginTrain_spec _).2.1
      · rw [State.modLane_lane]
        exact found
    · rw [(t.detectLane_detecting p lanes j).2 _ (laneAt_ne (few i hi) (few j hj) (Ne.symm e))]
      exact done

theorem exec_trainComplete {s : State} {p : LinkPort} (core : s.coreOn = true) (train : s.ports[p].stage = .train)
    (some_trains : ∃ i, i < s.laneCount p ∧ s.inTraining p i = true)
    (all : ∀ i, i < s.laneCount p → s.inTraining p i = true → s.lanes[laneAt p i].trained = true) :
    exec (.trainComplete p) s = .next (s.enterLock p) := by
  obtain ⟨i, hi, trains⟩ := some_trains
  have nonempty : (List.range (s.laneCount p)).filter (s.inTraining p) ≠ [] :=
    List.ne_nil_of_mem (List.mem_filter.mpr ⟨List.mem_range.mpr hi, trains⟩)
  have trained : ((List.range (s.laneCount p)).filter (s.inTraining p)).all (fun i => s.lanes[laneAt p i].trained) = true := by
    rw [List.all_eq_true]
    intro j hj
    obtain ⟨below, trains⟩ := List.mem_filter.mp hj
    exact all j (List.mem_range.mp below) trains
  simp only [exec, execTrainComplete, State.whenCore_on core, train, trained]
  simp [nonempty]

/-- Settles O21: out of DOWN, what a detection finds, and the end of TRAIN, each read off its equation above. -/
theorem bringUpFromDown : Obligations.BringUpFromDown := by
  intro s p core
  refine ⟨fun down enabled later => ⟨fun fast => ?_, fun slow => ?_⟩,
    fun detect enabled => ⟨fun isTrunk open' lanes => ?_, fun lanes i closed hi found fresh rate => ?_, ?_⟩, fun detect => ?_,
    fun train some_trains all => ?_⟩
  · obtain ⟨stage, -, tried, lanes, ports, regs, mem⟩ := (s.modPort p fun y => { y with fastTried := true }).enterLock_spec p
    rw [State.modPort_port] at tried
    exact ⟨_, by rw [exec_downExit core down enabled later, if_pos fast], stage, tried, lanes,
      (SamePortsBut.modPort s p _).trans ports, regs, mem⟩
  · obtain ⟨ports, sent, regs, mem⟩ := s.startDetect_spec p
    refine ⟨_, by rw [exec_downExit core down enabled later, if_neg (by simp [slow])], ?_, sent,
      (SamePortsBut.modPort s p _).trans (.of_ports ports), .of_regs regs _, .of_mem mem⟩
    rw [ports, State.toStage_port]
  · have stays : s.mayTrain p = false := by simp [State.mayTrain, isTrunk, open', -Fin.getElem_fin]
    exact exec_detectionResult_none core detect enabled fun i => by simp [stays]
  · have may : s.mayTrain p = true := by
      unfold State.mayTrain
      by_cases isTrunk : p.val < 4
      · simp [closed isTrunk, -Fin.getElem_fin]
      · simp [Nat.not_lt.mp isTrunk]
    have listed : i ∈ s.untrained p := List.mem_filter.mpr ⟨List.mem_range.mpr hi, by simp [fresh, -Fin.getElem_fin]⟩
    have goes : (s.mayTrain p && (s.untrained p).any fun i => lanes.getLsbD i && !s.rateMix (laneAt p i)) = true := by
      rw [Bool.and_eq_true, List.any_eq_true]
      exact ⟨may, i, listed, by rw [found, rate]; rfl⟩
    have kept := s.detected_detecting p lanes
    refine ⟨(s.detected p lanes).toStage p .train, ?_, ?_, ?_, s.detected_lane may listed found rate,
      (SamePortsBut.of_ports kept.ports).trans (.modPort _ p _), .of_mem kept.mem⟩
    · rw [exec_detectionResult core detect enabled, if_pos goes]
    · rw [State.toStage_port]
    · rw [State.toStage_port]
      exact kept.heads
  · exact exec_detectionResult_none core detect enabled fun i => by simp
  · simp [-Fin.getElem_fin, exec, execDetectRetry, State.whenCore_on core, detect]
  · obtain ⟨stage, head, -, lanes, ports, regs, mem⟩ := s.enterLock_spec p
    exact ⟨_, exec_trainComplete core train some_trains all, stage, head, lanes, ports, regs, mem⟩

end Sys2Proof.Machine
end

section
/-! LOCK completes, and the stages that run out of time (R96, R98, R105, Table CPL-1). -/

namespace Sys2Proof.Machine

open Sys2Proof

/-! ## A port that goes down without having been up -/

theorem State.receptionLost_of_trunk {p : LinkPort} (h : p.val < 4) (s : State) : s.receptionLost p = s.dropPartial p := by
  have none_local : asLocal p = none := if_neg (by omega)
  simp only [State.receptionLost, none_local]

/-- A trunk port loses the frame in reception, counted as a framing error, and writes nothing else for it (R60). -/
theorem State.dropPartial_regs {p : LinkPort} (h : p.val < 4) (s : State) :
    SameRegsBut [Reg.TRK_FRAMING_ERR p.val] s (s.dropPartial p) := by
  have none_local : asLocal p = none := if_neg (by omega)
  have counted (t : State) : t.countFraming p = t.count (Reg.TRK_FRAMING_ERR p.val) := if_pos h
  unfold State.dropPartial
  split
  · simp only [none_local, counted]
    exact .count (List.mem_singleton_self _) (s.modPort p _)
  · exact .of_regs rfl _

/-- The lanes fall with their port and the agent of a trunk port stops, in no register. -/
theorem State.portDown_regs_of_linkLoss (s : State) (p : LinkPort) : (s.portDown p).regs = ((s.receptionLost p).linkLoss p).regs := by
  have agent (t : State) : (t.agentStopped p).regs = t.regs := by
    unfold State.agentStopped
    split <;> rfl
  have lanes (t : State) (l : List Nat) : (t.over l fun t i => t.modLane (laneAt p i) Lane.fallen).regs = t.regs :=
    State.over_regs (fun _ _ => by rfl) t l
  rw [State.portDown_eq, lanes, State.portFalls, agent]
  rfl

/-- The fall of a trunk port that has not been up is no link loss (R103). -/
theorem State.portDown_regs_of_not_reached {s : State} {p : LinkPort} (h : p.val < 4) (new : s.ports[p].reached = false) :
    SameRegsBut [Reg.TRK_FRAMING_ERR p.val] s (s.portDown p) := by
  have still : (s.receptionLost p).ports[p].reached = false := ((s.receptionLost_work p).ports p).2.2 new
  refine SameRegsBut.of_regs_right (State.dropPartial_regs h s) ?_
  rw [State.portDown_regs_of_linkLoss, State.linkLoss_of_not_reached still, State.receptionLost_of_trunk h]

/-- A stage that runs out of time on a trunk port that has not been up is counted, whatever else its fall counts. -/
theorem State.portDown_counted {s : State} {p : LinkPort} (h : p.val < 4) (new : s.ports[p].reached = false) {r : Nat → Nat}
    (hr : r p.val ≠ Reg.TRK_FRAMING_ERR p.val) : Counted (r p.val) s ((s.portDown p).countTrunk p r) := by
  rw [State.countTrunk_of_trunk h]
  exact (Counted.count _ _).after (State.portDown_regs_of_not_reached h new _ (by simpa using hr))

/-- A fall to DOWN that a trunk port counts. -/
theorem State.portDown_countTrunk (s : State) (p : LinkPort) (r : Nat → Nat) :
    ((s.portDown p).countTrunk p r).ports[p].stage = .down ∧ ((s.portDown p).countTrunk p r).mem = s.mem := by
  refine ⟨?_, by simp [State.countTrunk_keeps, State.portDown_keeps]⟩
  rw [State.countTrunk_ports]
  exact (s.portDown_port p).1

/-- A negotiation writes the active rates of its lanes and nothing else (R98). -/
theorem State.negotiate_spec (s : State) (t : TrunkPort) : (s.negotiate t).ports = s.ports ∧ (s.negotiate t).mem = s.mem ∧
    ∀ k, 0x028000 ≤ k → (s.negotiate t).reg k = s.reg k := by
  unfold State.negotiate
  dsimp only
  split
  · refine ⟨State.over_ports (fun _ _ => by simp) _ _, State.over_mem (fun _ _ => by simp) _ _, fun k hk => ?_⟩
    refine State.over_induction (I := fun u => u.reg k = s.reg k) rfl fun u i _ e => (State.reg_setFld_other ?_ u _ _ _).trans e
    unfold Reg.LANE_CFG_ACT
    omega
  · exact ⟨rfl, rfl, fun _ _ => rfl⟩

/-- A port without a trained lane goes on to the next rate where it negotiates (R98). -/
def State.nextRates (s : State) (p : LinkPort) : State :=
  match asTrunk p with
  | some t => s.negotiate t
  | none => s

theorem State.nextRates_spec (s : State) (p : LinkPort) : (s.nextRates p).ports = s.ports ∧ (s.nextRates p).mem = s.mem ∧
    ∀ k, 0x028000 ≤ k → (s.nextRates p).reg k = s.reg k := by
  unfold State.nextRates
  split
  · exact s.negotiate_spec _
  · exact ⟨rfl, rfl, fun _ _ => rfl⟩

/-! ## LOCK -/

/-- CAPX begins with the lanes that left LOCK, no record agreed and none refused (Table CPL-1). -/
theorem State.enterCapx_spec (s : State) (p : LinkPort) (lanes : BitVec 4) : (s.enterCapx p lanes).ports[p] =
      { s.ports[p] with
        stage := .capx, stageHead := s.heads, leftLock := lanes, fullWidth := widthOf (laneList lanes).length
        caps := Vector.replicate 4 none, agreed := false, refuse := 0 } ∧
    (s.enterCapx p lanes).lanes = s.lanes ∧ SamePortsBut p s (s.enterCapx p lanes) ∧ SameRegsBut [] s (s.enterCapx p lanes) ∧
    SameMemory s (s.enterCapx p lanes) := by
  refine ⟨?_, rfl, (SamePortsBut.modPort s p _).trans (.modPort (s.toStage p .capx) p _), .of_regs rfl _, .of_mem rfl⟩
  refine ((s.toStage p .capx).modPort_port p _).trans ?_
  rw [State.toStage_port]

/-- The trained lanes of a port. -/
def State.trainedLanes (s : State) (p : LinkPort) : List Nat := (List.range (s.laneCount p)).filter fun i => s.lanes[laneAt p i].trained

theorem State.mem_trainedLanes {s : State} {p : LinkPort} {i : Nat} :
    i ∈ s.trainedLanes p ↔ i < s.laneCount p ∧ s.lanes[laneAt p i].trained = true := by
  rw [State.trainedLanes, List.mem_filter, List.mem_range]

theorem exec_lockComplete {s : State} {p : LinkPort} (core : s.coreOn = true) (lock : s.ports[p].stage = .lock)
    (some_trained : ∃ i, i < s.laneCount p ∧ s.lanes[laneAt p i].trained = true)
    (all : ∀ i, i < s.laneCount p → s.lanes[laneAt p i].trained = true → s.laneReady p i = true) :
    exec (.lockComplete p) s = .next (s.enterCapx p (maskOf 4 (s.trainedLanes p).contains)) := by
  obtain ⟨i, hi⟩ := some_trained
  have nonempty : (s.trainedLanes p).isEmpty = false := by
    rw [List.isEmpty_eq_false_iff_exists_mem]
    exact ⟨i, State.mem_trainedLanes.mpr hi⟩
  have ready : (s.trainedLanes p).all (s.laneReady p) = true := by
    rw [List.all_eq_true]
    intro j hj
    obtain ⟨below, trained⟩ := State.mem_trainedLanes.mp hj
    exact all j below trained
  have taken : (s.ports[p].stage == .lock && !(s.trainedLanes p).isEmpty && (s.trainedLanes p).all (s.laneReady p)) = true := by
    rw [lock, nonempty, ready]
    rfl
  simp only [exec, execLockComplete, State.whenCore_on core]
  exact congrArg Host.Outcome.next (if_pos taken)

theorem exec_trainTimeout_trained {s : State} {p : LinkPort} (core : s.coreOn = true) (train : s.ports[p].stage = .train)
    (some_trained : ∃ i, i < s.laneCount p ∧ s.lanes[laneAt p i].trained = true) :
    exec (.trainTimeout p) s = .next (s.enterLock p) := by
  have found : ((List.range (s.laneCount p)).any fun i => s.lanes[laneAt p i].trained) = true := by
    simpa only [List.any_eq_true, List.mem_range] using some_trained
  simp only [exec, execTrainTimeout, State.whenCore_on core, train, found]
  rfl

/-- With no lane trained the port falls, and a trunk port that negotiates takes the next rate (R98). -/
theorem exec_trainTimeout_none {s : State} {p : LinkPort} (core : s.coreOn = true) (train : s.ports[p].stage = .train)
    (none_trained : ∀ i, i < s.laneCount p → s.lanes[laneAt p i].trained = false) : exec (.trainTimeout p) s =
      .next (((s.portDown p).countTrunk p Reg.TRK_TRAIN_TIMEOUT).nextRates p) := by
  have found : ((List.range (s.laneCount p)).any fun i => s.lanes[laneAt p i].trained) = false := by
    rw [List.any_eq_false]
    intro i hi
    simp [-Fin.getElem_fin, none_trained i (List.mem_range.mp hi)]
  simp only [exec, execTrainTimeout, State.whenCore_on core, train, found]
  rfl

theorem exec_lockTimeout {s : State} {p : LinkPort} (core : s.coreOn = true) (lock : s.ports[p].stage = .lock) :
    exec (.lockTimeout p) s = .next (if maskOf (s.laneCount p) (s.laneReady p) ≠ 0 then
      s.enterCapx p (maskOf (s.laneCount p) (s.laneReady p))
    else ((s.portDown p).modPort p fun x => { x with fastFailed := x.fastFailed || x.fastTried }).countTrunk p
      Reg.TRK_LOCK_TIMEOUT) := by
  simp only [exec, execLockTimeout, State.whenCore_on core, lock]
  rfl

theorem exec_capxTimeout {s : State} {p : LinkPort} (core : s.coreOn = true) (capx : s.ports[p].stage = .capx)
    (open' : s.ports[p].agreed = false) (unrefused : s.ports[p].refuse = 0) :
    exec (.capxTimeout p) s = .next ((s.portDown p).countTrunk p Reg.TRK_CAPX_TIMEOUT) := by
  simp only [exec, execCapxTimeout, State.whenCore_on core, capx, open', unrefused]
  rfl

/-- Settles O22: LOCK completes with the trained lanes, and each stage that runs out of time goes on or falls. -/
theorem bringUpTimeouts : Obligations.BringUpTimeouts := by
  intro s p core
  refine ⟨fun lock some_trained all => ?_, fun train => ⟨fun some_trained => ?_, fun none_trained => ?_⟩,
    fun lock => ⟨fun some_ready => ?_, fun none_ready => ?_⟩, fun capx open' unrefused => ?_⟩
  · obtain ⟨port, lanes, ports, regs, mem⟩ := s.enterCapx_spec p (maskOf 4 (s.trainedLanes p).contains)
    refine ⟨_, exec_lockComplete core lock some_trained all, by rw [port], by rw [port], by rw [port], fun i hi => ?_, lanes, ports,
      regs, mem⟩
    have inside : i < 4 := lt_of_lt_of_le hi (s.laneCount_le p)
    rw [port, getLsbD_maskOf le_rfl, decide_eq_true inside, Bool.true_and, Bool.eq_iff_iff, List.contains_iff_mem,
      State.mem_trainedLanes]
    exact and_iff_right hi
  · obtain ⟨stage, -, -, lanes, ports, regs, mem⟩ := s.enterLock_spec p
    exact ⟨_, exec_trainTimeout_trained core train some_trained, stage, lanes, ports, regs, mem⟩
  · obtain ⟨down, mem⟩ := s.portDown_countTrunk p Reg.TRK_TRAIN_TIMEOUT
    obtain ⟨ports, mem', regs⟩ := ((s.portDown p).countTrunk p Reg.TRK_TRAIN_TIMEOUT).nextRates_spec p
    refine ⟨_, exec_trainTimeout_none core train none_trained, by rw [ports]; exact down, .of_mem (mem'.trans mem),
      fun isTrunk new => (State.portDown_counted isTrunk new ?_).congr (regs _ ?_)⟩
    · simp only [Reg.TRK_TRAIN_TIMEOUT, Reg.TRK_FRAMING_ERR, ne_eq]
      omega
    · unfold Reg.TRK_TRAIN_TIMEOUT
      omega
  · obtain ⟨port, -, ports, regs, mem⟩ := s.enterCapx_spec p (maskOf (s.laneCount p) (s.laneReady p))
    exact ⟨_, by rw [exec_lockTimeout core lock, if_pos some_ready], by rw [port], by rw [port], ports, regs, mem⟩
  · refine ⟨_, by rw [exec_lockTimeout core lock, if_neg (not_not.mpr none_ready)], ?_, .of_mem ?_, fun isTrunk new => ?_⟩
    · rw [State.countTrunk_ports, State.modPort_port]
      exact (s.portDown_port p).1
    · simp [State.countTrunk_keeps, State.portDown_keeps]
    · refine (State.portDown_counted (r := Reg.TRK_LOCK_TIMEOUT) isTrunk new ?_).of_regs ?_
      · simp only [Reg.TRK_LOCK_TIMEOUT, Reg.TRK_FRAMING_ERR, ne_eq]
        omega
      · rw [State.countTrunk_of_trunk isTrunk, State.countTrunk_of_trunk isTrunk]
        rfl
  · obtain ⟨down, mem⟩ := s.portDown_countTrunk p Reg.TRK_CAPX_TIMEOUT
    refine ⟨_, exec_capxTimeout core capx open' unrefused, down, .of_mem mem, fun isTrunk new => State.portDown_counted isTrunk new ?_⟩
    simp only [Reg.TRK_CAPX_TIMEOUT, Reg.TRK_FRAMING_ERR, ne_eq]
    omega

end Sys2Proof.Machine
end

section
/-! Parts of a port that other work leaves: the queues and their credit (R170-R197), the view and what it sends (R111-R127). -/

namespace Sys2Proof.Machine

open Sys2Proof

/-! ## A part of every port stands -/

/-- A part of every port stands as before. -/
def SamePart {β : Type} (π : Port → β) (s t : State) : Prop := ∀ j : LinkPort, π t.ports[j] = π s.ports[j]

namespace SamePart

variable {β : Type} {π : Port → β}

theorem of_ports {s t : State} (h : t.ports = s.ports) : SamePart π s t := fun j => by rw [h]

theorem refl (s : State) : SamePart π s s := fun _ => rfl

theorem trans {s t u : State} (h : SamePart π s t) (h' : SamePart π t u) : SamePart π s u := fun j => (h' j).trans (h j)

theorem modPort (s : State) (p : LinkPort) {f : Port → Port} (h : ∀ x, π (f x) = π x) : SamePart π s (s.modPort p f) :=
  s.modPort_field f π h p

theorem each {α : Type} {f : State → α → State} (h : ∀ t a, SamePart π t (f t a)) (s : State) (l : List α) :
    SamePart π s (s.over l f) :=
  State.over_induction (I := SamePart π s) (.refl s) fun t a _ e => e.trans (h t a)

end SamePart

/-- Stages, lane sets and modes are such a part. -/
theorem SamePart.sameStages {s t : State} (h : SamePart (fun x => (x.stage, x.txLanes, x.rxLanes, x.modeAct)) s t) : SameStages s t :=
  fun j => by simpa only [Prod.mk.injEq] using h j

theorem SameStages.of_ports {s t : State} (h : t.ports = s.ports) : SameStages s t := fun j => by
  rw [h]
  exact ⟨rfl, rfl, rfl, rfl⟩

/-! ## Registers below those of Cavern -/

/-- No register below those of Cavern and the schedulers is written. -/
def LowRegs (s t : State) : Prop := ∀ k < 0x0A0000, t.reg k = s.reg k

namespace LowRegs

theorem of_regs {s t : State} (h : t.regs = s.regs) : LowRegs s t := fun k _ => by simp only [State.reg, h]

theorem refl (s : State) : LowRegs s s := .of_regs rfl

theorem trans {s t u : State} (h : LowRegs s t) (h' : LowRegs t u) : LowRegs s u := fun k hk => (h' k hk).trans (h k hk)

theorem setReg {s t : State} {k : Nat} (hk : 0x0A0000 ≤ k) (w : Word) (h : LowRegs s t) : LowRegs s (t.setReg k w) :=
  h.trans fun _ hj => State.reg_setReg_other (by omega) t w

theorem count {s t : State} {k : Nat} (hk : 0x0A0000 ≤ k) (h : LowRegs s t) : LowRegs s (t.count k) := .setReg hk _ h

theorem count48 {s t : State} {k : Nat} (hk : 0x0A0000 ≤ k) (n : Nat) (h : LowRegs s t) : LowRegs s (t.count48 k n) :=
  .setReg (by omega) _ (.setReg hk _ h)

theorem each {α : Type} {f : State → α → State} (h : ∀ t a, LowRegs t (f t a)) (s : State) (l : List α) : LowRegs s (s.over l f) :=
  State.over_induction (I := LowRegs s) (.refl s) fun t a _ e => e.trans (h t a)

theorem ite {c : Prop} [Decidable c] {s t u : State} (h : LowRegs s t) (h' : LowRegs s u) : LowRegs s (if c then t else u) := by
  split
  · exact h
  · exact h'

end LowRegs

/-! ## Queues (R170-R197) -/

theorem State.release_regs (s : State) (id : Nat) : (s.release id).regs = s.regs := by
  unfold State.release
  split <;> rfl

theorem State.emptyDeficit_low (s : State) (q : QueueIx) : LowRegs s (s.emptyDeficit q) := by
  unfold State.emptyDeficit
  exact .ite (.setReg (by unfold Reg.SCHED_DEFICIT; omega) _ (.refl s)) (.refl s)

theorem State.dropRef_low (s : State) (q : QueueIx) (id : Nat) : LowRegs s (s.dropRef q id) := by
  refine .trans ?_ (State.emptyDeficit_low _ q)
  exact .of_regs (State.release_regs _ id)

theorem LowRegs.countDown {s t : State} (q : QueueIx) (h : LowRegs s t) : LowRegs s (t.count (Reg.CAV_Q_DOWN_CNT q.val)) :=
  .count (by unfold Reg.CAV_Q_DOWN_CNT; omega) h

theorem State.flushQueue_low (s : State) (q : QueueIx) : LowRegs s (s.flushQueue q) := by
  unfold State.flushQueue
  refine .each (fun t r => ?_) s _
  exact (t.dropRef_low q r.id).countDown q

theorem State.flushPort_low (s : State) (p : EgressPort) (lo hi : Nat) : LowRegs s (s.flushPort p lo hi) := by
  unfold State.flushPort
  exact .each (fun t c => t.flushQueue_low (queueOf p c)) s _

theorem State.sift_low (s : State) (c : Cls) (n : Nat) (ps : List EgressPort) : LowRegs s (s.sift c n ps).1 := by
  induction ps generalizing s with
  | nil => exact .refl s
  | cons p ps ih =>
    unfold State.sift
    dsimp only
    (repeat' split)
    · exact ((LowRegs.refl s).countDown _).trans (ih _)
    · exact (LowRegs.count (by unfold Reg.CAV_Q_DROP_CNT; omega) (.refl s)).trans (ih _)
    · exact ih s

theorem State.joinQueue_low (s : State) (q : QueueIx) (id n : Nat) (single : Bool) : LowRegs s (s.joinQueue q id n single) := by
  unfold State.joinQueue
  extract_lets x due full marked spilled r s1 c s2
  have joined : LowRegs s s1 := .of_regs rfl
  have counted : LowRegs s s2 :=
    .ite (.count48 (by decide) 1 (.count48 (by unfold Reg.CAV_Q_SPILL_CNT_LO; omega) 1 (.of_regs rfl)))
      (.ite (.count (by decide) joined) joined)
  exact .ite (.count48 (by unfold Reg.CAV_Q_MARK_CNT_LO; omega) 1 counted) counted

theorem State.joinAll_low (s : State) (id : Nat) (c : Cls) (n : Nat) (single : Bool) (ps : List EgressPort) :
    LowRegs s (s.joinAll id c n single ps).1 := by
  have sifted := s.sift_low c n ps
  unfold State.joinAll
  dsimp only
  (repeat' split)
  · exact sifted.trans (.of_regs (State.release_regs _ id))
  · exact sifted
  · exact (sifted.trans (.of_regs rfl)).trans (.each (fun t p => t.joinQueue_low (queueOf p c) id n single) _ _)

theorem State.retryOne_low (s : State) (w : Waiting) : LowRegs s (s.retryOne w).1 := by
  have away : LowRegs s { s with cav := { s.cav with waiting := s.cav.waiting.filter fun x => x.id != w.id } } := .of_regs rfl
  unfold State.retryOne
  dsimp only
  split
  · exact away
  · rename_i f _
    have joined := away.trans (State.joinAll_low _ w.id w.tc f.frame.cells w.single w.targets)
    split
    · exact .refl s
    · rename_i e
      rw [e] at joined
      exact joined.trans (.of_regs rfl)

theorem State.retryOne_part {β : Type} {π : Port → β} (hπ : ∀ x c, π { x with credits := c } = π x) (s : State) (w : Waiting) :
    SamePart π s (s.retryOne w).1 := by
  unfold State.retryOne
  dsimp only
  split
  · exact .of_ports rfl
  · rename_i f _
    have joined : SamePart π s (State.joinAll { s with cav := { s.cav with waiting := s.cav.waiting.filter fun x => x.id != w.id } }
        w.id w.tc f.frame.cells w.single w.targets).1 := .of_ports (by simp [State.joinAll_keeps])
    split
    · exact .refl s
    · rename_i e
      rw [e] at joined
      exact (joined.trans (.modPort _ _ fun x => hπ x _)).trans (.modPort _ _ fun x => hπ x _)

/-- Waiting frames that try again change credit alone of a port, and no register below those of Cavern (R171). -/
theorem State.retryWaiting_spec {β : Type} {π : Port → β} (hπ : ∀ x c, π { x with credits := c } = π x) (s : State) (ws : List Waiting)
    (blocked : List (LinkPort × Cls × Bool)) : SamePart π s (s.retryWaiting ws blocked) ∧ LowRegs s (s.retryWaiting ws blocked) := by
  induction ws generalizing s blocked with
  | nil => exact ⟨.refl s, .refl s⟩
  | cons w ws ih =>
    have part := State.retryOne_part hπ s w
    have low := s.retryOne_low w
    unfold State.retryWaiting
    split
    · exact ih s blocked
    · split <;> rename_i e <;> rw [e] at part low
      · exact ⟨part.trans (ih _ _).1, low.trans (ih _ _).2⟩
      · exact ⟨part.trans (ih _ _).1, low.trans (ih _ _).2⟩

theorem State.settle_part {β : Type} {π : Port → β} (hπ : ∀ x c, π { x with credits := c } = π x) (s : State) :
    SamePart π s s.settle := (State.retryWaiting_spec hπ s _ _).1

theorem State.settle_low (s : State) : LowRegs s s.settle :=
  (State.retryWaiting_spec (π := Port.stage) (fun _ _ => rfl) s _ _).2

theorem State.flushPort_part {β : Type} {π : Port → β} (s : State) (p : EgressPort) (lo hi : Nat) : SamePart π s (s.flushPort p lo hi) :=
  .of_ports (by simp [State.flushPort_keeps])

/-- The held frames of a port are flushed: its window ends, and its queues stay closed (R196). -/
theorem State.flushHeld_part {β : Type} {π : Port → β} (hπ : ∀ x c, π { x with credits := c } = π x) (s : State) (t : TrunkPort) :
    π (s.flushHeld t).ports[trunk t] = π { s.ports[trunk t] with holdHead := none, flushed := true } := by
  have ports : (s.flushPort (toEgress (trunk t)) 0 7).ports = s.ports := by simp [State.flushPort_keeps]
  have settled := State.settle_part hπ ((s.flushPort (toEgress (trunk t)) 0 7).modPort (trunk t) fun x =>
    { x with holdHead := none, flushed := true }) (trunk t)
  rw [State.modPort_port, ports] at settled
  exact settled

/-! ## The view (R111) -/

theorem SendsOnly.samePart {β : Type} {π : Port → β} (hπ : ∀ x l, π { x with ownTx := l } = π x) {s t : State} (h : SendsOnly s t) :
    SamePart π s t := fun j => by
  obtain ⟨l, hl⟩ := h.1 j
  rw [hl, hπ]

/-- A refreshed view changes a port by sending alone. -/
theorem State.refreshView_part {β : Type} {π : Port → β} (hπ : ∀ x l, π { x with ownTx := l } = π x) (s before : State) :
    SamePart π s (s.refreshView before) := by
  have ports := (s.renewed_keeps before).1
  by_cases same : (s.renewed before).view = before.view
  · rw [show s.refreshView before = s.renewed before from if_pos same]
    exact .of_ports ports
  · obtain ⟨lost, away, raise, follows⟩ := State.refreshView_of_new same
    rw [follows]
    refine SamePart.trans (.of_ports ?_) (SendsOnly.samePart hπ (State.followView_sendsOnly _ _ _ _))
    exact ports

theorem State.refreshView_sameStages (s before : State) : SameStages s (s.refreshView before) :=
  (State.refreshView_part (π := fun x => (x.stage, x.txLanes, x.rxLanes, x.modeAct)) (fun _ _ => rfl) s before).sameStages

/-- The registers of the view, the master named and the slot held. -/
def viewRegs : List Nat := [Reg.TOPO_STATUS, Reg.TOPO_VIEW_SEQ, Reg.TOPO_VIEW_CHANGES, Reg.BEAT_MASTER_ID_LO, Reg.BEAT_MASTER_ID_HI]

theorem SameRegsBut.refl (ks : List Nat) (s : State) : SameRegsBut ks s s := .of_regs rfl ks

theorem SameRegsBut.mono {ks ls : List Nat} {s t : State} (h : SameRegsBut ks s t) (sub : ks ⊆ ls) : SameRegsBut ls s t :=
  fun k hk => h k fun hj => hk (sub hj)

theorem State.setMaster_regs (s : State) (i : HubId) : SameRegsBut viewRegs s (s.setMaster i) :=
  (SameRegsBut.setReg (by decide) ({ s with echo := { s.echo with master := i } } : State) _).trans (.setReg (by decide) _ _)

theorem State.newMaster_regs (s : State) (i : HubId) : SameRegsBut viewRegs s (s.newMaster i) :=
  (s.setMaster_regs i).of_regs_right rfl

theorem State.electMaster_regs (s : State) : SameRegsBut viewRegs s s.electMaster := by
  unfold State.electMaster
  dsimp only
  split
  · exact .refl _ s
  · exact s.newMaster_regs _

theorem State.adoptSlot_regs (s : State) (k : BitVec 7) : SameRegsBut viewRegs s (s.adoptSlot k) := .setReg (by decide) s _

theorem State.announce_regs (s : State) (f : Announcement → Announcement) : (s.announce f).regs = s.regs := by
  simp [State.announce_keeps]

theorem State.assignWhileForming_regs (s : State) : SameRegsBut viewRegs s s.assignWhileForming := by
  unfold State.assignWhileForming
  dsimp only
  split
  · exact .refl _ s
  · split
    · exact (SameRegsBut.of_regs (s.announce_regs _) _).trans (State.adoptSlot_regs _ _)
    · exact .of_regs (s.announce_regs _) _

theorem State.sendEchoAll_regs (s : State) (change : Bool) : (s.sendEchoAll change).regs = s.regs := by
  simp [State.sendEchoAll_keeps]

/-- What follows a new view writes the registers of the view, and those that the master's assignments write. -/
theorem State.followView_regs (s : State) (before now : List HubRecord) (raise : State → Bool) :
    SameRegsBut viewRegs s (s.followView before now raise) := by
  unfold State.followView
  extract_lets noted led
  have noted_regs : SameRegsBut viewRegs s noted :=
    (SameRegsBut.setReg (s := s.noteLinks before now) (by decide) _).trans (.count (by decide) _)
  have led_regs : SameRegsBut viewRegs s led := (noted_regs.trans noted.electMaster_regs).of_regs_right rfl
  have raised : (if raise led then led.announceRaise else led).regs = led.regs := by
    split
    · unfold State.announceRaise
      split
      · rfl
      · exact led.announce_regs _
    · rfl
  refine ((led_regs.of_regs_right raised).trans (State.assignWhileForming_regs _)).of_regs_right ?_
  rw [State.sendEchoAll_regs]
  simp [State.announceMove_keeps]

/-- A refreshed view writes the registers of the view alone. -/
theorem State.refreshView_regs (s before : State) : SameRegsBut viewRegs s (s.refreshView before) := by
  have renewed : (s.renewed before).regs = s.regs := by
    unfold State.renewed
    split <;> rfl
  by_cases same : (s.renewed before).view = before.view
  · rw [show s.refreshView before = s.renewed before from if_pos same]
    exact .of_regs renewed _
  · obtain ⟨lost, away, raise, follows⟩ := State.refreshView_of_new same
    rw [follows]
    refine SameRegsBut.trans (.of_regs ?_ _) (State.followView_regs _ _ _ _)
    exact renewed

theorem State.refreshView_mem (s before : State) : (s.refreshView before).mem = s.mem := by simp [State.refreshView_keeps]

theorem State.refreshView_geode (s before : State) : (s.refreshView before).geode = s.geode := by simp [State.refreshView_keeps]

/-- What is counted before the view is refreshed stays so, but for the counters of the view. -/
theorem Counted.viewed {k : Nat} {s t : State} (h : Counted k s t) (hk : k ∉ viewRegs) (before : State) :
    Counted k s (t.refreshView before) := h.congr (t.refreshView_regs before k hk)

/-- Counters of the trunk ports are not among the registers of the view. -/
theorem not_viewRegs_of_trunk {k : Nat} (h : 0x040000 ≤ k ∧ k < 0x060000) : k ∉ viewRegs := by
  simp only [viewRegs, Reg.TOPO_STATUS, Reg.TOPO_VIEW_SEQ, Reg.TOPO_VIEW_CHANGES, Reg.BEAT_MASTER_ID_LO, Reg.BEAT_MASTER_ID_HI, List.mem_cons,
    List.not_mem_nil, or_false]
  omega

end Sys2Proof.Machine
end

section
/-! COUPLED and its port (R97, R103): what a link loss and a fall to DOWN leave of a trunk port, and the three commands of the sense. -/

namespace Sys2Proof.Machine

open Sys2Proof

/-! ## A link loss (R103, R193) -/

/-- A part of a port in which neither its queues nor its frames in progress show. -/
def QueueBlind {β : Type} (π : Port → β) : Prop := ∀ x credits hold win flushed tx inside,
  π { x with credits := credits, holdHead := hold, holdWin := win, flushed := flushed, txHead := tx, inFrame := inside } = π x

section
variable {β : Type} {π : Port → β} (hπ : QueueBlind π)
include hπ

theorem State.loseSent_part (s : State) (p : LinkPort) : SamePart π s (s.loseSent p) := by
  have lost : SamePart π s (s.drawn.modPort p fun x => { x with txHead := none }) :=
    .modPort s.drawn p fun x => hπ x x.credits x.holdHead x.holdWin x.flushed none x.inFrame
  unfold State.loseSent
  split
  · dsimp only
    split
    · exact lost
    · exact lost
  · exact .refl s

theorem State.lossQueues_part (s : State) (t : TrunkPort) : SamePart π s (s.lossQueues t) := by
  unfold State.lossQueues
  extract_lets p win s1
  have flushed : SamePart π s s1 := (State.loseSent_part hπ s p).trans (State.flushPort_part _ _ 6 7)
  split
  · exact flushed
  · split
    · exact (flushed.trans (State.flushPort_part s1 _ 0 5)).trans
        (.modPort _ p fun x => hπ x x.credits x.holdHead x.holdWin true x.txHead x.inFrame)
    · exact flushed.trans (.modPort s1 p fun x => hπ x x.credits (some s1.heads) win x.flushed x.txHead x.inFrame)

theorem State.afterLoss_part (s : State) (t : TrunkPort) : SamePart π s (s.afterLoss (trunk t)) := by
  unfold State.afterLoss
  rw [asTrunk_trunk]
  have counted : SamePart π s ((s.lossQueues t).count (Reg.TRK_DOWN_COUNT t.val)) :=
    (State.lossQueues_part hπ s t).trans (.of_ports (by simp))
  exact counted.trans (State.settle_part (fun x c => hπ x c x.holdHead x.holdWin x.flushed x.txHead x.inFrame) _)

/-- What a link loss makes of its port. -/
theorem State.linkLoss_part (s : State) (t : TrunkPort) : π (s.linkLoss (trunk t)).ports[trunk t] =
    π (if s.ports[trunk t].reached then Port.lost s.heads s.ports[trunk t] else s.ports[trunk t]) := by
  cases up : s.ports[trunk t].reached with
  | false => rw [State.linkLoss_of_not_reached up, if_neg Bool.false_ne_true]
  | true =>
    have after := State.afterLoss_part hπ (s.modPort (trunk t) (Port.lost s.heads)) t (trunk t)
    rwa [State.modPort_port, ← State.linkLoss_of_reached up] at after

theorem State.dropPartial_part (s : State) (p : LinkPort) : SamePart π s (s.dropPartial p) := by
  have cut : SamePart π s (((s.modPort p fun x => { x with inFrame := false }).countFraming p).emptyFrame p) :=
    (SamePart.modPort s p fun x => hπ x x.credits x.holdHead x.holdWin x.flushed x.txHead false).trans
      (.of_ports (by simp [State.countFraming_keeps, State.emptyFrame_keeps]))
  unfold State.dropPartial
  split
  · dsimp only
    split
    · exact cut.trans (.of_ports (by simp [State.abortCut_keeps]))
    · exact cut
  · exact .refl s

theorem State.receptionLost_part (s : State) (p : LinkPort) : SamePart π s (s.receptionLost p) := by
  unfold State.receptionLost
  split
  · exact (State.dropPartial_part hπ s p).trans (.of_ports (by simp [State.abortCut_keeps]))
  · exact State.dropPartial_part hπ s p

end

theorem LowRegs.modPort {s t : State} (p : LinkPort) (f : Port → Port) (h : LowRegs s t) : LowRegs s (t.modPort p f) := h

theorem State.loseSent_low (s : State) (p : LinkPort) : LowRegs s (s.loseSent p) := by
  have lost : LowRegs s (s.drawn.modPort p fun x => { x with txHead := none }) := .of_regs rfl
  unfold State.loseSent
  exact .ite (.ite (lost.countDown _) lost) (.refl s)

theorem State.lossQueues_low (s : State) (t : TrunkPort) : LowRegs s (s.lossQueues t) := by
  unfold State.lossQueues
  extract_lets p win s1
  have flushed : LowRegs s s1 := (s.loseSent_low p).trans (State.flushPort_low _ _ 6 7)
  exact .ite flushed (.ite (.modPort p _ (flushed.trans (s1.flushPort_low _ 0 5))) (.modPort p _ flushed))

/-- A link loss of a trunk port is counted, and writes no other register below those of Cavern (R103). -/
theorem State.linkLoss_reg {s : State} {t : TrunkPort} {k : Nat} (low : k < 0x0A0000) (hk : k ≠ Reg.TRK_DOWN_COUNT t.val) :
    (s.linkLoss (trunk t)).reg k = s.reg k := by
  cases up : s.ports[trunk t].reached with
  | false => rw [State.linkLoss_of_not_reached up]
  | true =>
    rw [State.linkLoss_of_reached up, State.afterLoss, asTrunk_trunk]
    have queues := State.lossQueues_low (s.modPort (trunk t) (Port.lost s.heads)) t k low
    have counted := State.reg_count_other hk ((s.modPort (trunk t) (Port.lost s.heads)).lossQueues t)
    exact (State.settle_low _ k low).trans (counted.trans queues)

theorem trunk_val_lt (t : TrunkPort) : (trunk t).val < 4 := t.isLt

/-- A trunk port's fall to DOWN writes its two counters, and no other register below those of Cavern. -/
theorem State.portDown_reg {s : State} {t : TrunkPort} {k : Nat} (low : k < 0x0A0000) (hk : k ≠ Reg.TRK_DOWN_COUNT t.val)
    (hk' : k ≠ Reg.TRK_FRAMING_ERR t.val) : (s.portDown (trunk t)).reg k = s.reg k := by
  have fell : (s.portDown (trunk t)).reg k = ((s.receptionLost (trunk t)).linkLoss (trunk t)).reg k :=
    congrFun (congrArg _ (s.portDown_regs_of_linkLoss (trunk t))) k
  rw [fell, State.linkLoss_reg low hk, State.receptionLost_of_trunk (trunk_val_lt t)]
  exact State.dropPartial_regs (trunk_val_lt t) s k (List.mem_singleton.not.mpr hk')

/-- After its fall a port is what its link loss left, fallen. -/
theorem State.portDown_fallen (s : State) (p : LinkPort) : ∃ head eth,
    (s.portDown p).ports[p] = Port.fallen head eth ((s.receptionLost p).linkLoss p).ports[p] := by
  have lanesOnly (l : List Nat) : ((s.portFalls p).over l fun t i => t.modLane (laneAt p i) Lane.fallen).ports = (s.portFalls p).ports :=
    State.over_ports (fun _ _ => by rfl) _ l
  rw [State.portDown_eq, lanesOnly, State.portFalls, State.agentStopped_ports]
  exact ⟨_, _, ((s.receptionLost p).linkLoss p).modPort_port p _⟩

/-- A part of a trunk port that shows neither its fall nor its queues is after the fall what the link loss makes it. -/
theorem State.portDown_part {β : Type} {π : Port → β} (hπ : QueueBlind π) (hπ' : ∀ head eth x, π (Port.fallen head eth x) = π x)
    (s : State) (t : TrunkPort) : ∃ x : Port, π x = π s.ports[trunk t] ∧ x.reached = s.ports[trunk t].reached ∧
      π (s.portDown (trunk t)).ports[trunk t] = π (if x.reached then Port.lost s.heads x else x) := by
  obtain ⟨head, eth, fell⟩ := s.portDown_fallen (trunk t)
  have heads : (s.receptionLost (trunk t)).heads = s.heads := by
    rw [State.receptionLost_of_trunk (trunk_val_lt t)]
    simp [State.dropPartial_keeps]
  refine ⟨(s.receptionLost (trunk t)).ports[trunk t], State.receptionLost_part hπ s _ _,
    State.receptionLost_part (π := Port.reached) (fun _ _ _ _ _ _ _ => rfl) s _ _, ?_⟩
  rw [fell, hπ', State.linkLoss_part hπ, heads]

/-! ## The sense (R97) -/

/-- A port that is fresh: its training and its partner are forgotten, and COUPLED stands. -/
def State.recoupled (s : State) (t : TrunkPort) : State :=
  (((s.portDown (trunk t)).clearTraining (trunk t)).clearPartner t).modPort (trunk t) fun x => { x with coupled := true, coupledKept := false }

theorem State.coupledUp_eq (s : State) (t : TrunkPort) : s.coupledUp t =
    (if (s.recoupled t).portEnabled (trunk t) then (s.recoupled t).startDetect (trunk t) else s.recoupled t).refreshView s := rfl

/-- TRK_CFG and the references are no partner register. -/
theorem State.clearPartner_reg {s : State} {t : TrunkPort} {k : Nat} (h : k ≠ Reg.TRK_PARTNER_ID_LO t.val)
    (h' : k ≠ Reg.TRK_PARTNER_ID_HI t.val) (h'' : k ≠ Reg.TRK_PARTNER_CAP t.val) : (s.clearPartner t).reg k = s.reg k := by
  unfold State.clearPartner
  rw [State.reg_setReg_other h'', State.reg_setReg_other h', State.reg_setReg_other h]
  rfl

theorem State.recoupled_reg {s : State} {t : TrunkPort} {k : Nat} (hk : k = Reg.TRK_CFG t.val ∨ k = Reg.GLB_REFCLK) :
    (s.recoupled t).reg k = s.reg k := by
  have trained : ((s.portDown (trunk t)).clearTraining (trunk t)).regs = (s.portDown (trunk t)).regs := by
    simp [State.clearTraining_keeps]
  have := t.isLt
  have apart : k < 0x0A0000 ∧ k ≠ Reg.TRK_DOWN_COUNT t.val ∧ k ≠ Reg.TRK_FRAMING_ERR t.val ∧ k ≠ Reg.TRK_PARTNER_ID_LO t.val ∧
      k ≠ Reg.TRK_PARTNER_ID_HI t.val ∧ k ≠ Reg.TRK_PARTNER_CAP t.val := by
    simp only [Reg.TRK_CFG, Reg.GLB_REFCLK] at hk
    simp only [Reg.TRK_DOWN_COUNT, Reg.TRK_FRAMING_ERR, Reg.TRK_PARTNER_ID_LO, Reg.TRK_PARTNER_ID_HI, Reg.TRK_PARTNER_CAP]
    omega
  obtain ⟨low, down, framing, lo, hi, cap⟩ := apart
  calc (s.recoupled t).reg k
    _ = ((s.portDown (trunk t)).clearTraining (trunk t)).reg k := State.clearPartner_reg lo hi cap
    _ = (s.portDown (trunk t)).reg k := by simp only [State.reg, trained]
    _ = s.reg k := State.portDown_reg low down framing

theorem State.recoupled_enabled (s : State) (t : TrunkPort) : (s.recoupled t).portEnabled (trunk t) = s.portEnabled (trunk t) := by
  have cfg : (s.recoupled t).reg (Reg.TRK_CFG (trunk t).val) = s.reg (Reg.TRK_CFG (trunk t).val) := State.recoupled_reg (.inl rfl)
  have ref : (s.recoupled t).reg Reg.GLB_REFCLK = s.reg Reg.GLB_REFCLK := State.recoupled_reg (.inr rfl)
  have pwr : (s.recoupled t).pwr = s.pwr := by
    simp [State.recoupled, State.clearPartner, State.clearTraining_keeps, State.portDown_keeps]
  simp only [State.portEnabled, if_pos (trunk_val_lt t), State.laneOn, State.bit, cfg, ref, pwr]

theorem State.recoupled_port (s : State) (t : TrunkPort) : ∃ x : Port, x.stage = .down ∧ x.adm = .closed ∧
    (s.recoupled t).ports[trunk t] = { x with partner := none, coupled := true, coupledKept := false } := by
  obtain ⟨head, eth, fell⟩ := s.portDown_fallen (trunk t)
  have trained : ((s.portDown (trunk t)).clearTraining (trunk t)).ports = (s.portDown (trunk t)).ports := by
    simp [State.clearTraining_keeps]
  refine ⟨(s.portDown (trunk t)).ports[trunk t], by rw [fell]; rfl, by rw [fell]; rfl, ?_⟩
  rw [State.recoupled, State.modPort_port, ← trained]
  exact congrArg (fun x : Port => { x with coupled := true, coupledKept := false }) (State.modPort_port _ _ _)

/-- What a rise of COUPLED leaves of its port (R97). -/
theorem State.coupledUp_spec (s : State) (t : TrunkPort) : (s.coupledUp t).ports[trunk t].coupled = true ∧
    (s.coupledUp t).ports[trunk t].partner = none ∧ (s.coupledUp t).ports[trunk t].adm = .closed ∧
    (s.coupledUp t).ports[trunk t].stage = (if s.portEnabled (trunk t) then .detect else .down) ∧ (s.coupledUp t).mem = s.mem := by
  obtain ⟨x, down, closed, port⟩ := s.recoupled_port t
  have mem : (s.recoupled t).mem = s.mem := by
    simp [State.recoupled, State.clearPartner, State.clearTraining_keeps, State.portDown_keeps]
  obtain ⟨detecting, -, -, detectMem⟩ := (s.recoupled t).startDetect_spec (trunk t)
  have seen (u : State) := State.refreshView_part (π := fun x => (x.coupled, x.partner, x.adm, x.stage)) (fun _ _ => rfl) u s (trunk t)
  simp only [Prod.mk.injEq] at seen
  rw [State.coupledUp_eq, State.recoupled_enabled]
  cases s.portEnabled (trunk t) with
  | true =>
    obtain ⟨coupled, partner, adm, stage⟩ := seen ((s.recoupled t).startDetect (trunk t))
    rw [detecting, State.toStage_port, port] at coupled partner adm stage
    exact ⟨coupled, partner, adm.trans closed, stage, (State.refreshView_mem _ s).trans (detectMem.trans mem)⟩
  | false =>
    obtain ⟨coupled, partner, adm, stage⟩ := seen (s.recoupled t)
    rw [port] at coupled partner adm stage
    exact ⟨coupled, partner, adm.trans closed, stage.trans down, (State.refreshView_mem _ s).trans mem⟩

/-- The link of a port that is no longer COUPLED is lost, and a port that was out of DOWN falls (R97). -/
def State.uncoupled (s : State) (t : TrunkPort) : State :=
  if s.ports[trunk t].stage == .down then s.linkLoss (trunk t) else s.portDown (trunk t)

theorem State.uncoupled_port (s : State) (t : TrunkPort) : (s.uncoupled t).ports[trunk t].coupled = s.ports[trunk t].coupled ∧
    (s.uncoupled t).ports[trunk t].stage = .down ∧ (s.uncoupled t).ports[trunk t].reached = false ∧
    (s.ports[trunk t].reached = true → (s.uncoupled t).ports[trunk t].lossHead = some s.heads) := by
  have blind : QueueBlind fun x : Port => (x.coupled, x.lossHead) := fun _ _ _ _ _ _ _ => rfl
  have lost (x : Port) : (if x.reached then Port.lost s.heads x else x).coupled = x.coupled ∧
      (x.reached = true → (if x.reached then Port.lost s.heads x else x).lossHead = some s.heads) := by
    cases up : x.reached with
    | true => exact ⟨rfl, fun _ => rfl⟩
    | false => exact ⟨rfl, fun h => absurd h Bool.false_ne_true⟩
  unfold State.uncoupled
  split
  · rename_i down
    have left := State.linkLoss_part blind s t
    simp only [Prod.mk.injEq] at left
    refine ⟨left.1.trans (lost _).1, ((s.linkLoss_work (trunk t)).ports _).2.1 (beq_iff_eq.mp down), s.linkLoss_reached _, fun up => ?_⟩
    exact left.2.trans ((lost _).2 up)
  · obtain ⟨x, same, up, left⟩ := State.portDown_part blind (fun _ _ _ => rfl) s t
    simp only [Prod.mk.injEq] at left same
    obtain ⟨down, fell⟩ := s.portDown_port (trunk t)
    exact ⟨left.1.trans ((lost x).1.trans same.1), down, fell, fun h => left.2.trans ((lost x).2 (up.trans h))⟩

theorem State.coupledFall_eq (s : State) (t : TrunkPort) : s.coupledFall t =
    ((((s.modPort (trunk t) fun x => { x with coupled := false }).uncoupled t).modPort (trunk t)
      fun x => { x with coupledKept := false }).clearTraining (trunk t)) := rfl

/-- What a fall of COUPLED leaves of its port (R97, R103). -/
theorem State.coupledFall_spec (s : State) (t : TrunkPort) : (s.coupledFall t).ports[trunk t].coupled = false ∧
    (s.coupledFall t).ports[trunk t].stage = .down ∧ (s.coupledFall t).ports[trunk t].reached = false ∧
    (s.ports[trunk t].reached = true → (s.coupledFall t).ports[trunk t].lossHead = some s.heads) ∧ (s.coupledFall t).mem = s.mem := by
  obtain ⟨coupled, stage, reached, loss⟩ := (s.modPort (trunk t) fun x => { x with coupled := false }).uncoupled_port t
  rw [State.modPort_port] at coupled loss
  have ports (u : State) : (u.clearTraining (trunk t)).ports = u.ports := by simp [State.clearTraining_keeps]
  have mem (u : State) : (u.uncoupled t).mem = u.mem := by
    unfold State.uncoupled
    split
    · simp [State.linkLoss_keeps]
    · simp [State.portDown_keeps]
  refine ⟨?_, ?_, ?_, fun up => ?_, ?_⟩
  · rw [State.coupledFall_eq, ports, State.modPort_port]
    exact coupled
  · rw [State.coupledFall_eq, ports, State.modPort_port]
    exact stage
  · rw [State.coupledFall_eq, ports, State.modPort_port]
    exact reached
  · rw [State.coupledFall_eq, ports, State.modPort_port]
    exact loss up
  · rw [State.coupledFall_eq]
    simp [State.clearTraining_keeps, mem]

theorem State.wakeBy_ports (s : State) (src : Nat) : (s.wakeBy src).ports = s.ports := by simp [State.wakeBy_keeps]

theorem State.wakeBy_mem (s : State) (src : Nat) : (s.wakeBy src).mem = s.mem := by simp [State.wakeBy_keeps]

theorem exec_coupledRise {s : State} {t : TrunkPort} (core : s.coreOn = true) (open' : s.ports[trunk t].coupled = false) :
    exec (.coupledRise t) s = .next ((s.coupledUp t).wakeBy 5) := by
  simp only [exec, execCoupledRise, State.whenCore_on core, open']
  rfl

theorem exec_coupleSnsOpen {s : State} {t : TrunkPort} (core : s.coreOn = true) (closed : s.ports[trunk t].coupled = true) :
    exec (.coupleSnsOpen t) s = .next ((s.coupledFall t).wakeBy 5) := by
  simp only [exec, execCoupleSnsOpen, State.whenCore_on core, closed]
  rfl

theorem exec_coupleSnsBounce {s : State} (core : s.coreOn = true) (t : TrunkPort) : exec (.coupleSnsBounce t) s =
    .next (if s.ports[trunk t].coupled then s.count (Reg.TRK_SNS_BOUNCE t.val) else s) := by
  simp only [exec, execCoupleSnsBounce, State.whenCore_on core]

/-- Settles O19: a rise of COUPLED begins afresh, a fall is a link loss of a port that had been up, a bounce is counted. -/
theorem couplingLevels : Obligations.CouplingLevels := by
  intro s t core _
  refine ⟨fun open' => ?_, fun closed => ?_, fun closed => ?_, fun open' => ?_⟩
  · obtain ⟨coupled, partner, adm, stage, mem⟩ := s.coupledUp_spec t
    refine ⟨_, exec_coupledRise core open', ?_⟩
    rw [State.wakeBy_ports]
    exact ⟨coupled, partner, adm, stage, .of_mem ((State.wakeBy_mem _ 5).trans mem)⟩
  · obtain ⟨coupled, stage, reached, loss, mem⟩ := s.coupledFall_spec t
    refine ⟨_, exec_coupleSnsOpen core closed, ?_⟩
    rw [State.wakeBy_ports]
    exact ⟨coupled, stage, reached, loss, .of_mem ((State.wakeBy_mem _ 5).trans mem)⟩
  · exact ⟨s.count (Reg.TRK_SNS_BOUNCE t.val), by rw [exec_coupleSnsBounce core, if_pos closed], .count _ s, rfl,
      .count (List.mem_singleton_self _) s, .of_mem rfl⟩
  · rw [exec_coupleSnsBounce core, if_neg (by simp [open', -Fin.getElem_fin])]

end Sys2Proof.Machine
end

section
/-! The KEY agent of a trunk port (R107, R113, R339-R342): what a handshake's start, its failure and an admission make of agent and port. -/

namespace Sys2Proof.Machine

open Sys2Proof

/-! ## Keys and associations alone -/

/-- The work changes keys and associations, and neither a port, a register, memory nor an agent. -/
structure KeyWork (s t : State) : Prop where
  ports : t.ports = s.ports
  regs : t.regs = s.regs
  mem : t.mem = s.mem
  heads : t.heads = s.heads
  agents : t.geode.agents = s.geode.agents

namespace KeyWork

theorem refl (s : State) : KeyWork s s := ⟨rfl, rfl, rfl, rfl, rfl⟩

theorem trans {s t u : State} (h : KeyWork s t) (h' : KeyWork t u) : KeyWork s u :=
  ⟨h'.ports.trans h.ports, h'.regs.trans h.regs, h'.mem.trans h.mem, h'.heads.trans h.heads, h'.agents.trans h.agents⟩

theorem createKey (s : State) (k : BitVec 8) (attr : BitVec 18) (parent : Option (BitVec 8)) (value : List Byte) :
    KeyWork s (s.createKey k attr parent value) := by
  cases parent with
  | none => exact ⟨rfl, rfl, rfl, rfl, rfl⟩
  | some p => exact ⟨rfl, rfl, rfl, rfl, rfl⟩

theorem zeroKey (s : State) (k : BitVec 8) : KeyWork s (s.zeroKey k) where
  ports := by simp [State.zeroKey_keeps]
  regs := by simp [State.zeroKey_keeps]
  mem := by simp [State.zeroKey_keeps]
  heads := by simp [State.zeroKey_keeps]
  agents := by simp [State.zeroKey, State.modSlot, State.markCascade, State.markPending]

theorem retireAssoc (s : State) (p : LinkPort) (transmit : Bool) (sa : BitVec 8) : KeyWork s (s.retireAssoc p transmit sa) :=
  ⟨rfl, rfl, rfl, rfl, rfl⟩

theorem installAssoc (s : State) (p : LinkPort) (transmit : Bool) (sa k : BitVec 8) : KeyWork s (s.installAssoc p transmit sa k) :=
  ⟨rfl, rfl, rfl, rfl, rfl⟩

end KeyWork

theorem State.modAgent_agent (s : State) (t : TrunkPort) (f : KeyAgent → KeyAgent) :
    (s.modAgent t f).geode.agents[t] = f s.geode.agents[t] := vmod_same s.geode.agents t f

/-! ## A handshake begins and ends (R107, R113) -/

/-- A part of a port in which its agent does not show. -/
def AgentBlind {β : Type} (π : Port → β) : Prop := ∀ x adm head retry pst own,
  π { x with adm := adm, authHead := head, retryHead := retry, pst := pst, ownTx := own } = π x

theorem State.sendKey_port (s : State) (t : TrunkPort) (payload : List Byte) : ∃ own,
    (s.sendKey t payload).ports[trunk t] = { s.ports[trunk t] with ownTx := own } := ⟨_, s.modPort_port (trunk t) _⟩

theorem State.sendKey_part {β : Type} {π : Port → β} (hπ : AgentBlind π) (s : State) (t : TrunkPort) (payload : List Byte) :
    SamePart π s (s.sendKey t payload) := .modPort s (trunk t) fun x => hπ x x.adm x.authHead x.retryHead x.pst _

/-- A full handshake runs from here, its HELLO kept. -/
theorem State.sendHello_agent (s : State) (t : TrunkPort) (rekey : Bool) : (s.sendHello t rekey).geode.agents[t].running = true ∧
    (s.sendHello t rekey).geode.agents[t].rekey = rekey ∧ (s.sendHello t rekey).geode.agents[t].hello ≠ [] := by
  unfold State.sendHello
  extract_lets k priv s1 n hello s2 s3
  have agent : (s3.sendKey t hello).geode.agents[t] =
      { s1.drawn.geode.agents[t] with
        rekey := rekey, hello := hello, peerHello := [], eph := some k, resume := [], txKey := none, running := true } :=
    s1.drawn.modAgent_agent t _
  rw [agent]
  exact ⟨rfl, rfl, List.cons_ne_nil _ _⟩

/-- The port of a full handshake: in AUTH but for a rekey and for a bypassed port (R113). -/
theorem State.sendHello_port (s : State) (t : TrunkPort) (rekey : Bool) : ∃ own, (s.sendHello t rekey).ports[trunk t] =
    { s.ports[trunk t] with
      adm := if rekey || s.ports[trunk t].adm == .bypassed then s.ports[trunk t].adm else .auth
      authHead := s.heads, retryHead := none
      pst := if !rekey && s.ports[trunk t].adm == .admitted then 0 else s.ports[trunk t].pst
      ownTx := own } := by
  unfold State.sendHello
  extract_lets k priv s1 n hello s2 s3
  obtain ⟨own, sent⟩ := s3.sendKey_port t hello
  refine ⟨own, sent.trans ?_⟩
  rw [show s3.ports[trunk t] = _ from s2.modPort_port (trunk t) _]
  rfl

theorem State.sendHello_part {β : Type} {π : Port → β} (hπ : AgentBlind π) (s : State) (t : TrunkPort) (rekey : Bool) :
    SamePart π s (s.sendHello t rekey) := by
  unfold State.sendHello
  extract_lets k priv s1 n hello s2 s3
  have begun : SamePart π s s3 := .modPort s2 (trunk t) fun x => hπ x _ _ _ _ x.ownTx
  exact begun.trans (State.sendKey_part hπ s3 t hello)

/-- A resumption runs from here, its port in AUTH (R341). -/
theorem State.sendResume_spec (s : State) (t : TrunkPort) (rk : BitVec 8) : (s.sendResume t rk).geode.agents[t].running = true ∧
    (s.sendResume t rk).ports[trunk t].adm = .auth ∧ (s.sendResume t rk).ports[trunk t].retryHead = none := by
  unfold State.sendResume
  extract_lets n sa mac msg s1 s2
  obtain ⟨own, sent⟩ := s2.sendKey_port t msg
  have port : s2.ports[trunk t] = { s.ports[trunk t] with adm := .auth, authHead := s.heads, retryHead := none } :=
    s1.modPort_port (trunk t) _
  rw [sent, port]
  exact ⟨congrArg KeyAgent.running (s.drawn.modAgent_agent t _), rfl, rfl⟩

theorem State.sendResume_part {β : Type} {π : Port → β} (hπ : AgentBlind π) (s : State) (t : TrunkPort) (rk : BitVec 8) :
    SamePart π s (s.sendResume t rk) := by
  unfold State.sendResume
  extract_lets n sa mac msg s1 s2
  have begun : SamePart π s s2 := .modPort s1 (trunk t) fun x => hπ x _ _ _ x.pst x.ownTx
  exact begun.trans (State.sendKey_part hπ s2 t msg)

/-- From CLOSED a handshake leads to AUTH, by resumption or in full (R107, R108). -/
theorem State.startAuth_spec {s : State} {t : TrunkPort} (closed : s.ports[trunk t].adm = .closed) :
    (s.startAuth t).geode.agents[t].running = true ∧ (s.startAuth t).ports[trunk t].adm = .auth ∧
    (s.startAuth t).ports[trunk t].retryHead = none := by
  have full : (s.sendHello t false).geode.agents[t].running = true ∧ (s.sendHello t false).ports[trunk t].adm = .auth ∧
      (s.sendHello t false).ports[trunk t].retryHead = none := by
    obtain ⟨own, port⟩ := s.sendHello_port t false
    rw [port]
    refine ⟨(s.sendHello_agent t false).1, ?_, rfl⟩
    rw [closed]
    rfl
  unfold State.startAuth
  split
  · split
    · exact s.sendResume_spec t _
    · exact full
  · exact full

theorem State.startAuth_part {β : Type} {π : Port → β} (hπ : AgentBlind π) (s : State) (t : TrunkPort) :
    SamePart π s (s.startAuth t) := by
  unfold State.startAuth
  split
  · split
    · exact State.sendResume_part hπ s t _
    · exact State.sendHello_part hπ s t false
  · exact State.sendHello_part hπ s t false

/-- The keys of a handshake that fails and were not confirmed go. -/
def State.dropUnconfirmed (s : State) (t : TrunkPort) : State :=
  match s.geode.agents[t].txKey with
  | some k => (s.retireAssoc (trunk t) false s.geode.agents[t].rxSa).zeroKey k
  | none => s

theorem State.dropUnconfirmed_key (s : State) (t : TrunkPort) : KeyWork s (s.dropUnconfirmed t) := by
  unfold State.dropUnconfirmed
  split
  · exact (KeyWork.retireAssoc s _ _ _).trans (.zeroKey _ _)
  · exact .refl s

/-- A handshake that fails ends, is counted and waits for its retry (R107). -/
theorem State.authFailed_spec (s : State) (t : TrunkPort) : (s.authFailed t).geode.agents[t].running = false ∧
    (s.authFailed t).ports[trunk t].retryHead = some s.heads ∧ Counted (Reg.TRK_AUTH_FAIL t.val) s (s.authFailed t) := by
  have key := s.dropUnconfirmed_key t
  unfold State.authFailed
  extract_lets a again s0 s1 s2
  have agent : (s2.count (Reg.TRK_AUTH_FAIL t.val)).geode.agents[t].running = false := by
    have same : (s2.count (Reg.TRK_AUTH_FAIL t.val)).geode = s1.geode := by simp [s2]
    rw [same]
    exact congrArg KeyAgent.running (s0.modAgent_agent t _)
  refine ⟨agent, congrArg Port.retryHead (s1.modPort_port (trunk t) _), (Counted.count _ s2).after ?_⟩
  simp only [State.reg, ← key.regs]
  rfl

/-! ## Admission (R106, R109, R195, R196) -/

theorem State.dropOldRk_ports (s : State) (t : TrunkPort) : (s.dropOldRk t).ports = s.ports := by simp [State.dropOldRk_keeps]

/-- A port that is admitted records its session, and no handshake runs. -/
theorem State.admitPort_spec (s : State) (t : TrunkPort) : (s.admitPort t).ports[trunk t].adm = .admitted ∧
    (s.admitPort t).ports[trunk t].session = true ∧ (s.admitPort t).geode.agents[t].running = false := by
  unfold State.admitPort
  extract_lets p same s1 s2
  have adm : s2.ports[p].adm = .admitted := by
    rw [show s2.ports = s1.ports from s1.dropOldRk_ports t]
    exact congrArg Port.adm (s.modPort_port p _)
  have session : s2.ports[p].session = true := by
    rw [show s2.ports = s1.ports from s1.dropOldRk_ports t]
    exact congrArg Port.session (s.modPort_port p _)
  have agent : s2.geode.agents[t].running = false := congrArg KeyAgent.running ((s1.dropOldRk t).modAgent_agent t _)
  split
  · exact ⟨adm, session, agent⟩
  · split
    · exact ⟨(congrArg Port.adm (s2.modPort_port p _)).trans adm, (congrArg Port.session (s2.modPort_port p _)).trans session, agent⟩
    · have flushed := State.flushHeld_part (π := fun x => (x.adm, x.session)) (fun _ _ => rfl) s2 t
      have geode : (s2.flushHeld t).geode = s2.geode := by simp [State.flushHeld_keeps]
      rw [Prod.mk.injEq] at flushed
      exact ⟨flushed.1.trans adm, flushed.2.trans session, (congrArg (fun g : GeodeState => g.agents[t].running) geode).trans agent⟩

/-- The ECHO frame of an admission changes neither. -/
theorem State.admitted_spec (s : State) (t : TrunkPort) : (s.admitted t).ports[trunk t].adm = .admitted ∧
    (s.admitted t).ports[trunk t].session = true ∧ (s.admitted t).geode.agents[t].running = false := by
  obtain ⟨adm, session, idle⟩ := s.admitPort_spec t
  have sent := ((s.admitPort t).sendEcho_sendsOnly t true).samePart (π := fun x => (x.adm, x.session)) (fun _ _ => rfl) (trunk t)
  have geode : (s.admitted t).geode = (s.admitPort t).geode := by simp [State.admitted, State.sendEcho_keeps]
  rw [Prod.mk.injEq] at sent
  exact ⟨sent.1.trans adm, sent.2.trans session, (congrArg (fun g : GeodeState => g.agents[t].running) geode).trans idle⟩

end Sys2Proof.Machine
end

section
/-! KEY messages carry a trunk port from AUTH to ADMITTED (R107, R339-R341). -/

namespace Sys2Proof.Machine

open Sys2Proof

/-! ## A handshake that fails -/

/-- The handshake of a port has failed: it has ended, its retry runs from this head, and the failure is counted (R107). -/
def HandshakeFails (p : TrunkPort) (s t : State) : Prop :=
  t.geode.agents[p].running = false ∧ t.ports[trunk p].retryHead = some s.heads ∧ Counted (Reg.TRK_AUTH_FAIL p.val) s t

theorem HandshakeFails.of_authFailed (s : State) (p : TrunkPort) : HandshakeFails p s (s.authFailed p) := s.authFailed_spec p

theorem HandshakeFails.after {p : TrunkPort} {s t u : State} (h : HandshakeFails p t u) (heads : t.heads = s.heads)
    (regs : t.regs = s.regs) : HandshakeFails p s u :=
  ⟨h.1, heads ▸ h.2.1, h.2.2.after (by simp only [State.reg, regs])⟩

theorem HandshakeFails.of_sendFail (s : State) (p : TrunkPort) (reason : Nat) : HandshakeFails p s (s.sendFail p reason) :=
  (HandshakeFails.of_authFailed (s.sendKey p _) p).after rfl rfl

theorem State.refreshView_agents (s before : State) : (s.refreshView before).geode.agents = s.geode.agents :=
  congrArg GeodeState.agents (s.refreshView_geode before)

theorem State.refreshView_field {β : Type} {π : Port → β} (hπ : ∀ x l, π { x with ownTx := l } = π x) (s before : State) (p : LinkPort) :
    π (s.refreshView before).ports[p] = π s.ports[p] := State.refreshView_part hπ s before p

theorem HandshakeFails.viewed {p : TrunkPort} {s t : State} (h : HandshakeFails p s t) (before : State) :
    HandshakeFails p s (t.refreshView before) := by
  obtain ⟨ended, retry, counted⟩ := h
  have low := p.isLt
  refine ⟨(congrArg (fun a => a[p].running) (State.refreshView_agents t before)).trans ended,
    (State.refreshView_field (π := Port.retryHead) (fun _ _ => rfl) t before _).trans retry, counted.viewed (not_viewRegs_of_trunk ?_) before⟩
  unfold Reg.TRK_AUTH_FAIL
  omega

/-! ## The frame of a message (R171, R339) -/

/-- The credit of a KEY frame returned to its port. -/
def State.keyCredited (s : State) (p : TrunkPort) (payload : List Byte) : State :=
  s.creditBack (trunk p) 7 false (cellsOfLen payload.length)

theorem State.keyCredited_part {β : Type} {π : Port → β} (hπ : ∀ x c, π { x with credits := c } = π x) (s : State) (p : TrunkPort)
    (payload : List Byte) : SamePart π s (s.keyCredited p payload) := .modPort s (trunk p) fun x => hπ x _

theorem State.keyCredited_adm (s : State) (p : TrunkPort) (payload : List Byte) (j : LinkPort) :
    (s.keyCredited p payload).ports[j].adm = s.ports[j].adm := State.keyCredited_part (π := Port.adm) (fun _ _ => rfl) s p payload j

theorem State.keyCredited_partnerId (s : State) (p : TrunkPort) (payload : List Byte) (j : LinkPort) :
    (s.keyCredited p payload).partnerId j = s.partnerId j := by
  simp only [State.partnerId, State.keyCredited_part (π := Port.partner) (fun _ _ => rfl) s p payload j]

theorem State.keyCredited_sameStages (s : State) (p : TrunkPort) (payload : List Byte) : SameStages s (s.keyCredited p payload) :=
  (State.keyCredited_part (π := fun x => (x.stage, x.txLanes, x.rxLanes, x.modeAct)) (fun _ _ => rfl) s p payload).sameStages

theorem State.keyCredited_finishMac (s : State) (p : TrunkPort) (payload : List Byte) (sa : BitVec 8) :
    (s.keyCredited p payload).finishMac p sa = s.finishMac p sa := by
  have geode : (s.keyCredited p payload).geode = s.geode := rfl
  simp only [State.finishMac, State.keyCredited_partnerId, State.slot, geode]

/-- On a port in service that keeps what it receives a KEY frame reaches the agent, its credit returned. -/
theorem State.keyArrives_of_up {s : State} {p : TrunkPort} (up : s.portUp (trunk p) = true) (whole : s.ports[trunk p].discarding = false)
    (payload : List Byte) (f : State → State) : s.keyArrives p payload f = f (s.keyCredited p payload) := by
  simp only [State.keyArrives, State.arriving, up, whole]
  rfl

section
variable {s : State} {p : TrunkPort} (core : s.coreOn = true) (up : s.portUp (trunk p) = true)
  (whole : s.ports[trunk p].discarding = false) (payload : List Byte)
include core up whole

theorem exec_keyHelloReceived :
    exec (.keyHelloReceived p payload) s = .next ((s.keyCredited p payload).helloArrives p payload) := by
  simp only [exec, execKeyHelloReceived, State.whenCore_on core, State.keyArrives_of_up up whole]

theorem exec_keyFinishReceived :
    exec (.keyFinishReceived p payload) s = .next ((s.keyCredited p payload).finishArrives p payload) := by
  simp only [exec, execKeyFinishReceived, State.whenCore_on core, State.keyArrives_of_up up whole]

theorem exec_keyResumeReceived :
    exec (.keyResumeReceived p payload) s = .next ((s.keyCredited p payload).resumeArrives p payload) := by
  simp only [exec, execKeyResumeReceived, State.whenCore_on core, State.keyArrives_of_up up whole]

theorem exec_keyFailReceived :
    exec (.keyFailReceived p payload) s = .next ((s.keyCredited p payload).failArrives p payload) := by
  simp only [exec, execKeyFailReceived, State.whenCore_on core, State.keyArrives_of_up up whole]

/-- A malformed message is counted, whichever it should have been (R339). -/
theorem exec_key_malformed {c : Instr}
    (h : (c = .keyHelloReceived p payload ∧ keyFormOk payload 1 144 = false) ∨
      (c = .keyFinishReceived p payload ∧ keyFormOk payload 2 64 = false) ∨
      (c = .keyResumeReceived p payload ∧ keyFormOk payload 3 96 = false) ∨
      (c = .keyFailReceived p payload ∧ keyFormOk payload 5 8 = false)) :
    exec c s = .next ((s.keyCredited p payload).count (Reg.SEC_KEY_BAD p.val)) := by
  have bad {form : Bool} (h : form = false) (good : State) :
      (if !form then (s.keyCredited p payload).keyBad (trunk p) else good) = (s.keyCredited p payload).count (Reg.SEC_KEY_BAD p.val) := by
    rw [h]
    rfl
  obtain ⟨rfl, form⟩ | ⟨rfl, form⟩ | ⟨rfl, form⟩ | ⟨rfl, form⟩ := h
  · rw [exec_keyHelloReceived core up whole, State.helloArrives, bad form]
  · rw [exec_keyFinishReceived core up whole, State.finishArrives, bad form]
  · rw [exec_keyResumeReceived core up whole, State.resumeArrives, bad form]
  · rw [exec_keyFailReceived core up whole, State.failArrives, bad form]

end

/-! ## HELLO (R340) -/

/-- The derived keys leave the own transmit key waiting, and the rest of the agent as it was. -/
theorem State.deriveLinkKeys_agent (s : State) (t : TrunkPort) (parent : BitVec 8) (context : List Byte) (lo hi : HubId) (sa : BitVec 8) :
    ∃ old rk key, (s.deriveLinkKeys t parent context lo hi sa).geode.agents[t] =
      { s.geode.agents[t] with oldRk := old, rk := some rk, txKey := some key, rxSa := sa } := by
  unfold State.deriveLinkKeys
  extract_lets p kSmk smk s1 dir peer kTx s2 kRx s3 kRk s4 s5
  have keys : KeyWork s s5 :=
    ((((KeyWork.createKey s _ _ _ _).trans (.createKey s1 _ _ _ _)).trans (.createKey s2 _ _ _ _)).trans (.createKey s3 _ _ _ _)).trans
      (.installAssoc s4 p false sa kRx)
  refine ⟨s.geode.agents[t].rk, kRk, kTx, (s5.modAgent_agent t _).trans ?_⟩
  rw [keys.agents]

/-- What a HELLO that is answered leaves: its payload is kept, the transmit key waits, and the port sends alone. -/
structure HelloKept (p : TrunkPort) (payload : List Byte) (s t : State) : Prop where
  payload : t.geode.agents[p].peerHello = payload
  waits : t.geode.agents[p].txKey.isSome = true
  sends : SendsOnly s t

/-- A HELLO from the stored partner under a usable fleet key after the own HELLO is answered, or fails where its point is not valid. -/
theorem State.onHello_spec {s : State} {t : TrunkPort} {payload : List Byte} (own : s.geode.agents[t].hello ≠ [])
    (peer : BitVec.ofNat 64 (leNat (slice payload 4 8)) = s.partnerId (trunk t))
    (usable : s.fleetUsable (({ s.geode.agents[t] with peerHello := payload } : KeyAgent).fleet (s.partnerId (trunk t))) = true) :
    (Config.ecValid (slice payload 48 96) = true → HelloKept t payload s (s.onHello t payload)) ∧
    (Config.ecValid (slice payload 48 96) = false → HandshakeFails t s (s.onHello t payload)) := by
  unfold State.onHello
  extract_lets p s0 s1 a peer' f eph q s2 kZ z s3 lh lo hi ctx sa s4 mac
  have begun : s0 = s := if_neg (by simpa using own)
  clear_value s0
  subst begun
  have agent : a = { s0.geode.agents[t] with peerHello := payload } := s0.modAgent_agent t _
  have fleet : f = ({ s0.geode.agents[t] with peerHello := payload } : KeyAgent).fleet (s0.partnerId (trunk t)) := by
    rw [← agent, ← peer]
  have ready : s1.fleetUsable f = true := fleet ▸ usable
  have good : (s1.slot f).commitOk = true := by
    simp only [State.fleetUsable, KeySlot.valid, Bool.and_eq_true] at ready
    tauto
  have read : s2 = s1 := State.readSlot_of_ok good
  have known : ¬peer' ≠ s1.partnerId p := not_not.mpr peer
  rw [if_neg known, if_neg (by rw [read, ready]; exact Bool.false_ne_true)]
  refine ⟨fun valid => ?_, fun invalid => ?_⟩
  · rw [if_neg (by rw [valid]; exact Bool.false_ne_true)]
    have keys : KeyWork s1 s3 := by
      rw [← read]
      exact (KeyWork.createKey s2 _ _ _ _).trans (.zeroKey _ eph)
    obtain ⟨old, rk, key, derived⟩ := s3.deriveLinkKeys_agent t kZ ctx lo hi sa
    have left : s4.geode.agents[t] = { a with oldRk := old, rk := some rk, txKey := some key, rxSa := sa } := by
      refine (congrArg (fun l : Vector KeyAgent 4 => l[t]) (KeyWork.zeroKey _ kZ).agents).trans (derived.trans ?_)
      rw [keys.agents]
    have ports : s4.ports = s0.ports := (KeyWork.zeroKey _ kZ).ports.trans
      (Eq.trans (by simp [State.deriveLinkKeys_keeps]) keys.ports)
    have echo : s4.echo = s0.echo := by
      have s3echo : s3.echo = s0.echo := by simp [s3, read, s1, State.zeroKey_keeps, State.createKey_keeps, State.modAgent_keeps]
      simp [s4, State.zeroKey_keeps, State.deriveLinkKeys_keeps, s3echo]
    refine ⟨?_, ?_, (SendsOnly.of_eq ports (congrArg EchoState.records echo)).trans (s4.sendOwn_sendsOnly t _)⟩
    · exact (congrArg KeyAgent.peerHello left).trans (congrArg KeyAgent.peerHello agent)
    · exact (congrArg (fun x : KeyAgent => x.txKey.isSome) left)
  · rw [if_pos (by rw [invalid]; rfl)]
    rw [read]
    exact (HandshakeFails.of_sendFail s1 t 4).after rfl rfl

/-! ## FINISH (R340, R342) -/

/-- A FINISH with the right MAC ends the handshake in admission. -/
theorem State.onFinish_right {s : State} {t : TrunkPort} {payload : List Byte}
    (mac : slice payload 16 48 = s.finishMac t (payload.getD 12 0)) (first : s.geode.agents[t].rekey = false) :
    s.onFinish t payload = (s.installTx t (payload.getD 12 0)).admitted t := by
  unfold State.onFinish
  dsimp only
  rw [if_neg (not_not.mpr mac), first]
  rfl

theorem State.onFinish_wrong {s : State} {t : TrunkPort} {payload : List Byte}
    (mac : slice payload 16 48 ≠ s.finishMac t (payload.getD 12 0)) : s.onFinish t payload = s.sendFail t 3 := if_pos mac

theorem State.finishArrives_of_waiting {s : State} {t : TrunkPort} {payload : List Byte} (form : keyFormOk payload 2 64 = true)
    (running : s.geode.agents[t].running = true) (waits : s.geode.agents[t].txKey.isSome = true) :
    s.finishArrives t payload = (s.onFinish t payload).refreshView s := by
  have due : (!s.geode.agents[t].running || s.geode.agents[t].txKey.isNone) = false := by
    rw [running, Option.isNone_eq_false_iff.mpr waits]
    rfl
  unfold State.finishArrives
  rw [form, due]
  rfl

/-! ## RESUME and FAIL (R339, R341) -/

/-- A side that holds no session key answers RESUME with HELLO (R341). -/
theorem State.resumeArrives_of_none {s : State} {t : TrunkPort} {payload : List Byte} (form : keyFormOk payload 3 96 = true)
    (closed : s.ports[trunk t].adm = .closed) (none' : s.rkOf t = none) :
    s.resumeArrives t payload = (s.sendHello t false).refreshView s := by
  unfold State.resumeArrives
  rw [form, closed, State.viewing, State.takeResume, none']
  rfl

theorem State.failArrives_of_running {s : State} {t : TrunkPort} {payload : List Byte} (form : keyFormOk payload 5 8 = true)
    (running : s.geode.agents[t].running = true) : s.failArrives t payload = (s.authFailed t).refreshView s := by
  unfold State.failArrives
  rw [form, running]
  rfl

/-- Settles O24: each message by the form of its frame, and a good one by what the agent makes of it. -/
theorem admissionMessages : Obligations.AdmissionMessages := by
  intro s p payload core up whole
  have credited := s.keyCredited_sameStages p payload
  refine ⟨fun c malformed => ?_, fun f form own peer fleet usable => ?_, fun form running waits => ⟨fun mac first => ?_, fun mac => ?_⟩,
    fun form closed none' => ?_, fun form running => ?_⟩
  · refine ⟨_, exec_key_malformed core up whole payload malformed, ?_, ?_, credited, s.keyCredited_adm p payload _, ?_, ?_, .of_mem rfl⟩
    · exact (Counted.count _ _).after rfl
    · exact .modPort s _ _
    · simp [State.keyCredited, State.creditBack_keeps]
    · exact .count (List.mem_singleton_self _) (s.keyCredited p payload)
  · subst fleet
    have answered : (s.keyCredited p payload).helloArrives p payload =
        ((s.keyCredited p payload).onHello p payload).refreshView (s.keyCredited p payload) := by
      unfold State.helloArrives
      rw [form]
      rfl
    obtain ⟨kept, fails⟩ := State.onHello_spec (s := s.keyCredited p payload) (payload := payload) own
      (by rw [State.keyCredited_partnerId]; exact peer) (by rw [State.keyCredited_partnerId]; exact usable)
    refine ⟨_, exec_keyHelloReceived core up whole payload, .of_mem ?_, fun valid => ?_, fun invalid => ?_⟩
    · simp [State.helloArrives_keeps, State.keyCredited, State.creditBack_keeps]
    · obtain ⟨holds, waits, sends⟩ := kept valid
      rw [answered, State.refreshView_agents]
      refine ⟨holds, waits, ?_, ?_⟩
      · rw [State.refreshView_field (π := Port.adm) (fun _ _ => rfl), sends.samePart (π := Port.adm) (fun _ _ => rfl), State.keyCredited_adm]
      · refine credited.trans (SameStages.trans ?_ (State.refreshView_sameStages _ _))
        exact (sends.samePart (π := fun x => (x.stage, x.txLanes, x.rxLanes, x.modeAct)) fun _ _ => rfl).sameStages
    · rw [answered]
      exact ((fails invalid).after rfl rfl).viewed _
  · rw [exec_keyFinishReceived core up whole, State.finishArrives_of_waiting (s := s.keyCredited p payload) form running waits,
      State.onFinish_right (s := s.keyCredited p payload) (by rw [State.keyCredited_finishMac]; exact mac) first]
    obtain ⟨adm, session, idle⟩ := ((s.keyCredited p payload).installTx p (payload.getD 12 0)).admitted_spec p
    refine ⟨_, rfl, ?_, ?_, ?_, .of_mem ?_⟩
    · rw [State.refreshView_field (π := Port.adm) fun _ _ => rfl]
      exact adm
    · rw [State.refreshView_field (π := Port.session) fun _ _ => rfl]
      exact session
    · rw [State.refreshView_agents]
      exact idle
    · simp [State.refreshView_keeps, State.admitted_keeps, State.installTx_keeps, State.keyCredited, State.creditBack_keeps]
  · rw [exec_keyFinishReceived core up whole, State.finishArrives_of_waiting (s := s.keyCredited p payload) form running waits,
      State.onFinish_wrong (s := s.keyCredited p payload) (by rw [State.keyCredited_finishMac]; exact mac)]
    obtain ⟨ended, retry, counted⟩ :=
      ((HandshakeFails.of_sendFail (s.keyCredited p payload) p 3).after rfl rfl : HandshakeFails p s _).viewed (s.keyCredited p payload)
    refine ⟨_, rfl, ended, retry, counted, .of_mem ?_⟩
    simp [State.refreshView_keeps, State.sendFail_keeps, State.keyCredited, State.creditBack_keeps]
  · have still : (s.keyCredited p payload).ports[trunk p].adm = .closed := (s.keyCredited_adm p payload _).trans closed
    rw [exec_keyResumeReceived core up whole, State.resumeArrives_of_none (s := s.keyCredited p payload) form still none']
    obtain ⟨running, -, hello⟩ := (s.keyCredited p payload).sendHello_agent p false
    obtain ⟨tx, port⟩ := (s.keyCredited p payload).sendHello_port p false
    refine ⟨_, rfl, ?_, ?_, ?_, .of_mem ?_⟩
    · rw [State.refreshView_field (π := Port.adm) fun _ _ => rfl, port, State.keyCredited_adm, closed]
      rfl
    · rw [State.refreshView_agents]
      exact running
    · rw [State.refreshView_agents]
      exact hello
    · simp [State.refreshView_keeps, State.sendHello_keeps, State.keyCredited, State.creditBack_keeps]
  · rw [exec_keyFailReceived core up whole, State.failArrives_of_running (s := s.keyCredited p payload) form running]
    obtain ⟨ended, retry, counted⟩ :=
      ((HandshakeFails.of_authFailed (s.keyCredited p payload) p).after rfl rfl : HandshakeFails p s _).viewed (s.keyCredited p payload)
    refine ⟨_, rfl, ended, retry, counted, .of_mem ?_⟩
    simp [State.refreshView_keeps, State.authFailed_keeps, State.keyCredited, State.creditBack_keeps]

end Sys2Proof.Machine
end

section
/-! The times of admission, and SYNC (R107, R342, R344, R345). -/

namespace Sys2Proof.Machine

open Sys2Proof

/-! ## Handshakes by time (R107, R342) -/

theorem exec_authTimeout {s : State} {p : TrunkPort} (core : s.coreOn = true) (running : s.geode.agents[p].running = true)
    (late : s.ports[trunk p].authHead + 640 ≤ s.heads) : exec (.authTimeout p) s = .next ((s.authFailed p).refreshView s) := by
  have due : (s.geode.agents[p].running && decide (s.ports[trunk p].authHead + 640 ≤ s.heads)) = true := by
    rw [running, decide_eq_true late]
    rfl
  simp only [exec, execAuthTimeout, State.whenCore_on core, due]
  rfl

theorem exec_authRetry {s : State} {p : TrunkPort} {h : Nat} (core : s.coreOn = true) (failed : s.ports[trunk p].retryHead = some h)
    (late : h + 16000 ≤ s.heads) (up : s.portUp (trunk p) = true) (closed : s.ports[trunk p].adm = .closed) :
    exec (.authRetry p) s = .next ((s.startAuth p).refreshView s) := by
  have due : (decide (s.heads < h + 16000) || !s.portUp (trunk p)) = false := by
    rw [up, decide_eq_false (Nat.not_lt.mpr late)]
    rfl
  simp only [exec, execAuthRetry, State.whenCore_on core, failed, due, State.viewing]
  rw [closed]
  rfl

theorem exec_rekeyDue {s : State} {p : TrunkPort} (core : s.coreOn = true) (admitted : s.ports[trunk p].adm = .admitted)
    (idle : s.geode.agents[p].running = false) (unfailed : s.ports[trunk p].retryHead = none)
    (lower : Config.hubId.toNat < (s.partnerId (trunk p)).toNat) (timed : s.reg Reg.SEC_REKEY ≠ 0)
    (late : s.geode.agents[p].admitHead + (s.reg Reg.SEC_REKEY).toNat ≤ s.heads) :
    exec (.rekeyDue p) s = .next (s.sendHello p true) := by
  have period : ((s.reg Reg.SEC_REKEY).toNat != 0) = true := by simpa [← BitVec.toNat_inj] using timed
  simp only [exec, execRekeyDue, State.whenCore_on core, admitted, idle, unfailed, decide_eq_true lower, period, decide_eq_true late]
  rfl

/-! ## SYNC (R345) -/

section
variable {s : State} {p : LinkPort} {a : Assoc} (only : s.geode.assocs = [a]) (port : a.port = p)
include only port

/-- The counter of the one association moves, and it stops where its last value is spent (R344). -/
theorem State.setCtr_only {transmit : Bool} (dir : a.transmit = transmit) (c : BitVec 64) :
    (s.setCtr p transmit a.sa c).geode.assocs = [{ a with ctr := c, stopped := a.stopped || (transmit && c == BitVec.allOnes 64) }] := by
  simp [State.setCtr, only, port, dir]

theorem State.assocsOf_only {transmit : Bool} (dir : a.transmit = transmit) : s.assocsOf p transmit = [a] := by
  simp [State.assocsOf, only, port, dir]

/-- While the last value is not reached a counter moves on and nothing stops. -/
theorem State.setCtr_only_running {transmit : Bool} (dir : a.transmit = transmit) (runs : a.stopped = false) {c : BitVec 64}
    (short : transmit = true → c ≠ BitVec.allOnes 64) : (s.setCtr p transmit a.sa c).geode.assocs = [{ a with ctr := c }] := by
  have stays : (a.stopped || (transmit && c == BitVec.allOnes 64)) = false := by
    cases transmit with
    | false => rw [runs]; rfl
    | true => rw [runs, beq_false_of_ne (short rfl)]; rfl
  rw [State.setCtr_only only port dir, stays, ← runs]

end

/-- The state after a SYNC has been sent for an association. -/
def State.synced (s : State) (p : LinkPort) (a : Assoc) : State :=
  (s.sendSync p a).modPort p fun x => { x with syncHead := s.heads }

/-- A port whose associations still run stays as it is (R338). -/
theorem State.reauthSpent_of_running {s before : State} {p : LinkPort} (h : ∀ a ∈ s.geode.assocs, a.stopped = false) :
    s.reauthSpent before p = s := by
  have none_stopped : s.stoppedSince before p = false := by
    rw [State.stoppedSince, List.any_eq_false]
    intro a ha
    simp [h a ha]
  unfold State.reauthSpent
  split
  · rw [none_stopped]
    rfl
  · rfl

theorem exec_syncSend {s : State} {p : LinkPort} {a : Assoc} (core : s.coreOn = true) (up : s.portUp p = true)
    (served : (s.gcmEngine p).isSome = true) (only : s.geode.assocs = [a]) (port : a.port = p) (dir : a.transmit = true)
    (runs : a.stopped = false) (fresh : s.ports[p].syncHead < s.heads) :
    exec (.syncSend p) s = .next ((s.synced p a).reauthSpent s p) := by
  have due : (!s.portUp p || (s.gcmEngine p).isNone || decide (s.heads ≤ s.ports[p].syncHead)) = false := by
    rw [up, Option.isNone_eq_false_iff.mpr served, decide_eq_false (Nat.not_le.mpr fresh)]
    rfl
  have one : (s.assocsOf p true).filter (fun a => !a.stopped) = [a] := by
    rw [State.assocsOf_only only port dir, List.filter_singleton, runs]
    rfl
  simp only [exec, execSyncSend, State.whenCore_on core, due, one]
  rfl

theorem exec_syncReceived {s : State} {p : LinkPort} (core : s.coreOn = true) (up : s.portUp p = true)
    (whole : s.ports[p].discarding = false) (payload : List Byte) : exec (.syncReceived p payload) s = .next (s.onSync p payload) := by
  simp only [exec, execSyncReceived, State.whenCore_on core, State.arriving, up, whole]
  rfl

/-- A SYNC of a running receive association moves its counter, or is counted where it does not verify (R345). -/
theorem State.onSync_only {s : State} {p : LinkPort} {a : Assoc} {payload : List Byte} (served : (s.gcmEngine p).isSome = true)
    (only : s.geode.assocs = [a]) (port : a.port = p) (dir : a.transmit = false) (runs : a.stopped = false)
    (form : keyFormOk payload 4 32 = true) (sa : payload.getD 4 0 = a.sa) : s.onSync p payload =
      if slice payload 16 16 = syncMac a a.sa (BitVec.ofNat 64 (leNat (slice payload 8 8))) ∧
          a.ctr.toNat ≤ (BitVec.ofNat 64 (leNat (slice payload 8 8))).toNat then
        s.setCtr p false a.sa (BitVec.ofNat 64 (leNat (slice payload 8 8)) + 1)
      else s.count (Reg.SEC_SYNC_BAD p.val) := by
  have found : (s.assocsOf p false).find? (fun x => x.sa == a.sa && !x.stopped) = some a := by
    rw [State.assocsOf_only only port dir]
    simp [runs]
  unfold State.onSync
  rw [form, sa]
  simp only [served, found, if_true, Bool.not_true, Bool.false_eq_true, if_false]

/-- Settles O25: the three times, SYNC_SEND for the one running transmit association, and SYNC_RECEIVED for the one received. -/
theorem admissionTimes : Obligations.AdmissionTimes := by
  intro s core
  refine ⟨fun p running late => ?_, fun p h failed late up closed => ?_, fun p admitted idle unfailed lower timed late => ?_,
    fun p a up served only port runs => ⟨fun dir short fresh => ?_, fun dir whole payload form sa => ⟨fun verifies => ?_, fun fails => ?_⟩⟩⟩
  · obtain ⟨ended, retry, counted⟩ := (HandshakeFails.of_authFailed s p).viewed s
    refine ⟨_, exec_authTimeout core running late, ended, retry, counted, .of_mem ?_⟩
    simp [State.refreshView_keeps, State.authFailed_keeps]
  · obtain ⟨running, auth, retry⟩ := State.startAuth_spec closed
    refine ⟨_, exec_authRetry core failed late up closed, ?_, ?_, ?_, .of_mem ?_⟩
    · rw [State.refreshView_field (π := Port.adm) fun _ _ => rfl]
      exact auth
    · rw [State.refreshView_field (π := Port.retryHead) fun _ _ => rfl]
      exact retry
    · rw [State.refreshView_agents]
      exact running
    · simp [State.refreshView_keeps, State.startAuth_keeps]
  · obtain ⟨running, rekey, -⟩ := s.sendHello_agent p true
    obtain ⟨own, port⟩ := s.sendHello_port p true
    refine ⟨_, exec_rekeyDue core admitted idle unfailed lower timed late, running, rekey, ?_, .of_regs ?_ _, .of_mem ?_⟩
    · rw [port]
      exact admitted
    · simp [State.sendHello_keeps]
    · simp [State.sendHello_keeps]
  · have left : a.ctr + 1 ≠ BitVec.allOnes 64 := by
      intro e
      have one : (1 : BitVec 64).toNat = 1 := rfl
      have := congrArg BitVec.toNat e
      rw [BitVec.toNat_add, one, BitVec.toNat_allOnes] at this
      omega
    have assocs : (s.synced p a).geode.assocs = [{ a with ctr := a.ctr + 1 }] :=
      State.setCtr_only_running (s := s.emit _) only port dir runs fun _ => left
    have stays : (s.synced p a).reauthSpent s p = s.synced p a := by
      refine State.reauthSpent_of_running fun x hx => ?_
      rw [assocs, List.mem_singleton] at hx
      rw [hx]
      exact runs
    refine ⟨s.synced p a, by rw [exec_syncSend core up served only port dir runs fresh, stays], assocs, ⟨_, rfl, rfl⟩, ?_,
      .modPort (s.sendSync p a) p _, .of_regs rfl _, .of_mem rfl⟩
    exact congrArg Port.syncHead ((s.sendSync p a).modPort_port p _)
  · refine ⟨_, exec_syncReceived core up whole payload, ?_⟩
    rw [State.onSync_only served only port dir runs form sa, if_pos verifies]
    exact ⟨State.setCtr_only_running only port dir runs fun h => absurd h Bool.false_ne_true, rfl, .of_regs rfl _, .of_mem rfl⟩
  · refine ⟨_, exec_syncReceived core up whole payload, ?_⟩
    rw [State.onSync_only served only port dir runs form sa, if_neg fun h => fails h.1]
    exact ⟨.count _ s, rfl, .count (List.mem_singleton_self _) s, .of_mem rfl⟩

end Sys2Proof.Machine
end

section
/-! Neighbour dead, and the end of a hold window (R113-R115, R193, R196). -/

namespace Sys2Proof.Machine

open Sys2Proof

/-! ## A window that closes (R113, R115) -/

/-- PST of a port that is not ADMITTED shows a value. -/
def State.showPst (s : State) (t : TrunkPort) (v : BitVec 2) : State :=
  s.modPort (trunk t) fun x => { x with pst := if x.adm == .admitted then x.pst else v }

theorem State.closeWindow_eq (s : State) (t : TrunkPort) : s.closeWindow t =
    (if s.ports[trunk t].pst = 2 then s.viewing fun u => u.showPst t 1 else s).viewing fun u => u.showPst t 0 := rfl

/-- A part of a port in which neither PST nor its own frames show. -/
def PstBlind {β : Type} (π : Port → β) : Prop := ∀ x pst own, π { x with pst := pst, ownTx := own } = π x

theorem State.showPst_viewing_part {β : Type} {π : Port → β} (hπ : PstBlind π) (s : State) (t : TrunkPort) (v : BitVec 2) :
    SamePart π s (s.viewing fun u => u.showPst t v) := by
  have shown : SamePart π s (s.showPst t v) := .modPort s (trunk t) fun x => hπ x _ x.ownTx
  exact shown.trans (State.refreshView_part (fun x l => hπ x x.pst l) _ s)

theorem State.showPst_viewing_pst (s : State) (t : TrunkPort) (v : BitVec 2) :
    (s.viewing fun u => u.showPst t v).ports[trunk t].pst = if s.ports[trunk t].adm = .admitted then s.ports[trunk t].pst else v := by
  refine (State.refreshView_field (π := Port.pst) (fun _ _ => rfl) (s.showPst t v) s (trunk t)).trans ?_
  refine (congrArg Port.pst (s.modPort_port (trunk t) _)).trans ?_
  simp only [beq_iff_eq]

theorem State.showPst_viewing_regs (s : State) (t : TrunkPort) (v : BitVec 2) :
    SameRegsBut viewRegs s (s.viewing fun u => u.showPst t v) :=
  SameRegsBut.trans (.of_regs rfl _) ((s.showPst t v).refreshView_regs s)

theorem State.closeWindow_part {β : Type} {π : Port → β} (hπ : PstBlind π) (s : State) (t : TrunkPort) :
    SamePart π s (s.closeWindow t) := by
  rw [State.closeWindow_eq]
  split
  · exact (State.showPst_viewing_part hπ s t 1).trans (State.showPst_viewing_part hπ _ t 0)
  · exact State.showPst_viewing_part hπ s t 0

theorem State.closeWindow_regs (s : State) (t : TrunkPort) : SameRegsBut viewRegs s (s.closeWindow t) := by
  rw [State.closeWindow_eq]
  split
  · exact (s.showPst_viewing_regs t 1).trans (State.showPst_viewing_regs _ t 0)
  · exact s.showPst_viewing_regs t 0

/-- A window that closes shows DOWN unless the port is ADMITTED. -/
theorem State.closeWindow_pst (s : State) (t : TrunkPort) : (s.closeWindow t).ports[trunk t].pst =
    if s.ports[trunk t].adm = .admitted then s.ports[trunk t].pst else 0 := by
  rw [State.closeWindow_eq, State.showPst_viewing_pst]
  split
  · have adm := State.showPst_viewing_part (π := Port.adm) (fun _ _ _ => rfl) s t 1 (trunk t)
    rw [adm, State.showPst_viewing_pst]
    by_cases admitted : s.ports[trunk t].adm = .admitted
    · simp only [if_pos admitted]
    · simp only [if_neg admitted]
  · rfl

theorem State.closeWindow_mem (s : State) (t : TrunkPort) : (s.closeWindow t).mem = s.mem := by
  have shown (u : State) (v : BitVec 2) : (u.viewing fun w => w.showPst t v).mem = u.mem := State.refreshView_mem _ _
  rw [State.closeWindow_eq, shown]
  split
  · exact shown s 1
  · rfl

theorem not_viewRegs_nbDead : Reg.TOPO_NB_DEAD ∉ viewRegs := by decide

/-! ## The neighbour is dead by its ECHO frames (R113) -/

/-- A port whose neighbour sends no ECHO frames is bypassed. -/
def Port.bypass (x : Port) : Port := { x with adm := .bypassed, pst := 3, nbDead := true, session := false }

/-- A port bypassed, the dead neighbour counted and a full handshake begun. -/
def State.echoLost (s : State) (p : TrunkPort) : State := ((s.modPort (trunk p) Port.bypass).count Reg.TOPO_NB_DEAD).sendHello p false

theorem exec_neighbourDeadEchoTimeout {s : State} {p : TrunkPort} (core : s.coreOn = true) (admitted : s.ports[trunk p].adm = .admitted)
    (up : s.portUp (trunk p) = true) (late : s.ports[trunk p].echoHead + 48 ≤ s.heads) :
    exec (.neighbourDeadEchoTimeout p) s = .next ((s.echoLost p).refreshView s) := by
  have due : (s.ports[trunk p].adm != .admitted || !s.portUp (trunk p) || decide (s.heads < s.ports[trunk p].echoHead + 48)) = false := by
    rw [admitted, up, decide_eq_false (Nat.not_lt.mpr late)]
    rfl
  simp only [exec, execNeighbourDeadEchoTimeout, State.whenCore_on core, due]
  rfl

theorem State.echoLost_port (s : State) (p : TrunkPort) : ∃ own, (s.echoLost p).ports[trunk p] =
    { s.ports[trunk p].bypass with authHead := s.heads, retryHead := none, ownTx := own } := by
  have before : ((s.modPort (trunk p) Port.bypass).count Reg.TOPO_NB_DEAD).ports[trunk p] = s.ports[trunk p].bypass :=
    s.modPort_port (trunk p) Port.bypass
  obtain ⟨own, port⟩ := ((s.modPort (trunk p) Port.bypass).count Reg.TOPO_NB_DEAD).sendHello_port p false
  refine ⟨own, port.trans ?_⟩
  rw [before]
  rfl

theorem State.echoLost_sameStages (s : State) (p : TrunkPort) : SameStages s (s.echoLost p) := by
  have bypassed : SamePart (fun x => (x.stage, x.txLanes, x.rxLanes, x.modeAct)) s (s.modPort (trunk p) Port.bypass) :=
    .modPort s _ fun _ => rfl
  have begun := State.sendHello_part (π := fun x => (x.stage, x.txLanes, x.rxLanes, x.modeAct)) (fun _ _ _ _ _ _ => rfl)
    ((s.modPort (trunk p) Port.bypass).count Reg.TOPO_NB_DEAD) p false
  exact (bypassed.trans begun).sameStages

/-! ## The neighbour is dead by its link (R113, R193) -/

/-- The neighbour of a link loss is declared dead; PST shows HOLD while a hold window runs. -/
def Port.declareDead (x : Port) : Port := { x with nbDead := true, lossDead := true, pst := if x.holdHead.isSome then 1 else x.pst }

/-- A port whose neighbour is declared dead, counted and told to the view. -/
def State.linkDead (s : State) (p : TrunkPort) : State :=
  s.viewing fun u => (u.modPort (trunk p) Port.declareDead).count Reg.TOPO_NB_DEAD

theorem exec_neighbourDeadLinkLoss {s : State} {p : TrunkPort} {h : Nat} (core : s.coreOn = true)
    (loss : s.ports[trunk p].lossHead = some h) (late : h + 2 ≤ s.heads) (undeclared : s.ports[trunk p].lossDead = false) :
    exec (.neighbourDeadLinkLoss p) s = .next (
      if (s.linkDead p).ports[trunk p].holdHead.isSome then s.linkDead p else (s.linkDead p).closeWindow p) := by
  have due : (decide (s.heads < h + 2) || s.ports[trunk p].lossDead) = false := by
    rw [undeclared, decide_eq_false (Nat.not_lt.mpr late)]
    rfl
  simp only [exec, execNeighbourDeadLinkLoss, State.whenCore_on core, loss, due]
  rfl

/-- What is seen of a port whose neighbour is declared dead by its link. -/
theorem State.linkDead_part {β : Type} {π : Port → β} (hπ : ∀ x l, π { x with ownTx := l } = π x) (s : State) (p : TrunkPort) :
    π (s.linkDead p).ports[trunk p] = π s.ports[trunk p].declareDead := by
  refine (State.refreshView_field hπ ((s.modPort (trunk p) Port.declareDead).count Reg.TOPO_NB_DEAD) s (trunk p)).trans ?_
  exact congrArg π (s.modPort_port (trunk p) Port.declareDead)

theorem State.linkDead_sameStages (s : State) (p : TrunkPort) : SameStages s (s.linkDead p) := by
  have declared : SamePart (fun x => (x.stage, x.txLanes, x.rxLanes, x.modeAct)) s (s.modPort (trunk p) Port.declareDead) :=
    .modPort s _ fun _ => rfl
  exact (declared.sameStages.trans (.of_ports rfl)).trans (State.refreshView_sameStages _ s)

theorem State.linkDead_counted (s : State) (p : TrunkPort) : Counted Reg.TOPO_NB_DEAD s (s.linkDead p) :=
  ((Counted.count _ (s.modPort (trunk p) Port.declareDead)).after rfl).viewed not_viewRegs_nbDead s

theorem State.linkDead_mem (s : State) (p : TrunkPort) : (s.linkDead p).mem = s.mem := State.refreshView_mem _ s

/-! ## The window's end (R193, R196) -/

theorem exec_holdWindowClose {s : State} {p : TrunkPort} {h : Nat} (core : s.coreOn = true)
    (held : s.ports[trunk p].holdHead = some h) (late : h + s.ports[trunk p].holdWin ≤ s.heads) :
    exec (.holdWindowClose p) s = .next ((s.flushHeld p).closeWindow p) := by
  simp only [exec, execHoldWindowClose, State.whenCore_on core, held, if_neg (Nat.not_lt.mpr late)]

/-- Settles O27: each of the three by its port, its counter and the view that follows. -/
theorem neighbourAndWindow : Obligations.NeighbourAndWindow := by
  intro s p core
  refine ⟨fun admitted up late => ?_, fun h loss late undeclared => ?_, fun h held late => ?_⟩
  · obtain ⟨own, port⟩ := s.echoLost_port p
    have seen := State.refreshView_field (π := fun x => (x.adm, x.pst, x.nbDead, x.session)) (fun _ _ => rfl) (s.echoLost p) s (trunk p)
    rw [port] at seen
    simp only [Prod.mk.injEq] at seen
    obtain ⟨adm, pst, dead, session⟩ := seen
    have counted : Counted Reg.TOPO_NB_DEAD s (s.echoLost p) :=
      (Counted.count _ (s.modPort (trunk p) Port.bypass)).of_regs (by simp [State.echoLost, State.sendHello_keeps])
    refine ⟨_, exec_neighbourDeadEchoTimeout core admitted up late, adm, pst, dead, session, ?_, counted.viewed not_viewRegs_nbDead s,
      (s.echoLost_sameStages p).trans (State.refreshView_sameStages _ s), .of_mem ?_⟩
    · rw [State.refreshView_agents]
      exact (State.sendHello_agent _ p false).1
    · simp [State.refreshView_keeps, State.echoLost, State.sendHello_keeps]
  · have seen := State.linkDead_part (π := fun x => (x.nbDead, x.adm, x.pst, x.holdHead)) (fun _ _ => rfl) s p
    simp only [Prod.mk.injEq] at seen
    obtain ⟨dead, adm, pst, hold⟩ := seen
    refine ⟨_, exec_neighbourDeadLinkLoss core loss late undeclared, ?_⟩
    rw [hold, show s.ports[trunk p].declareDead.holdHead = s.ports[trunk p].holdHead from rfl]
    cases runs : s.ports[trunk p].holdHead.isSome with
    | true =>
      refine ⟨dead, ?_, s.linkDead_counted p, s.linkDead_sameStages p, .of_mem (s.linkDead_mem p)⟩
      rw [if_pos rfl, pst]
      exact if_pos runs
    | false =>
      have unheld : ¬s.ports[trunk p].holdHead.isSome = true := by rw [runs]; exact Bool.false_ne_true
      refine ⟨?_, ?_, (s.linkDead_counted p).congr ((s.linkDead p).closeWindow_regs p _ not_viewRegs_nbDead),
        (s.linkDead_sameStages p).trans ?_, .of_mem ((State.closeWindow_mem _ p).trans (s.linkDead_mem p))⟩
      · exact (State.closeWindow_part (π := Port.nbDead) (fun _ _ _ => rfl) (s.linkDead p) p (trunk p)).trans dead
      · have shown : s.ports[trunk p].declareDead.pst = s.ports[trunk p].pst := if_neg unheld
        rw [if_neg Bool.false_ne_true, State.closeWindow_pst, adm, pst, shown]
        rfl
      · exact (State.closeWindow_part (π := fun x => (x.stage, x.txLanes, x.rxLanes, x.modeAct)) (fun _ _ _ => rfl)
          (s.linkDead p) p).sameStages
  · have flushed := State.flushHeld_part (π := fun x => (x.holdHead, x.flushed, x.adm, x.pst)) (fun _ _ => rfl) s p
    have closed := State.closeWindow_part (π := fun x => (x.holdHead, x.flushed)) (fun _ _ _ => rfl) (s.flushHeld p) p (trunk p)
    simp only [Prod.mk.injEq] at flushed closed
    obtain ⟨hold, flush, adm, pst⟩ := flushed
    refine ⟨_, exec_holdWindowClose core held late, closed.1.trans hold, closed.2.trans flush, ?_, .of_mem ?_⟩
    · rw [State.closeWindow_pst, adm, pst]
    · rw [State.closeWindow_mem]
      simp [State.flushHeld_keeps]

end Sys2Proof.Machine
end

section
/-! CAPX: three equal records, the checks, and ACTIVE (R96, R99, R100, R107). -/

namespace Sys2Proof.Machine

open Sys2Proof

/-! ## The record agreed (R99) -/

theorem getLsbD_oneLane : ∀ lane i : Fin 4, (BitVec.ofNat 4 (2 ^ lane.val)).getLsbD i.val = decide (i = lane) := by decide

theorem find_oneLane : ∀ lane : Fin 4, (List.finRange 4).find? (fun i => decide (i = lane)) = some lane := by decide

theorem all_oneLane (lane : Fin 4) (f : Fin 4 → Bool) : ((List.finRange 4).all fun i => !decide (i = lane) || f i) = f lane := by
  rw [Bool.eq_iff_iff, List.all_eq_true]
  refine ⟨fun h => by simpa using h lane (List.mem_finRange lane), fun h i _ => ?_⟩
  by_cases e : i = lane
  · rw [e, h, Bool.or_true]
  · rw [decide_eq_false e]
    rfl

/-- On a port that left LOCK with one lane the third equal record of that lane is agreed. -/
theorem State.capAgreed_oneLane {s : State} {p : LinkPort} {lane : Fin 4} {cap : CapRecord} {n : Nat}
    (one : s.ports[p].leftLock = BitVec.ofNat 4 (2 ^ lane.val)) (held : s.ports[p].caps[lane] = some (cap, n)) :
    s.capAgreed p = if 3 ≤ n then some cap else none := by
  unfold State.capAgreed
  simp only [one, getLsbD_oneLane, find_oneLane, held, all_oneLane, beq_self_eq_true, Bool.true_and, decide_eq_true_eq]

/-- A lane has its third equal record. -/
def State.capCounted (s : State) (p : LinkPort) (lane : Fin 4) (cap : CapRecord) : State :=
  s.modPort p fun x => { x with caps := vset x.caps lane (some (cap, 3)) }

/-- The third equal record in a row is checked, being a new one (R99, R100). -/
theorem exec_capRecordReceived {s : State} {p : LinkPort} {lane : Fin 4} {cap : CapRecord} (core : s.coreOn = true)
    (capx : s.ports[p].stage = .capx) (one : s.ports[p].leftLock = BitVec.ofNat 4 (2 ^ lane.val)) (valid : capValid cap = true)
    (twice : s.ports[p].caps[lane] = some (cap, 2)) :
    exec (.capRecordReceived p lane cap true) s = .next ((s.capCounted p lane cap).capDecide p cap true) := by
  have before : s.capAgreed p = none := (State.capAgreed_oneLane one twice).trans (if_neg (by decide))
  have port : (s.capCounted p lane cap).ports[p] = { s.ports[p] with caps := vset s.ports[p].caps lane (some (cap, 3)) } :=
    s.modPort_port p _
  have after : (s.capCounted p lane cap).capAgreed p = some cap := by
    refine (State.capAgreed_oneLane (n := 3) (by rw [port]; exact one) ?_).trans (if_pos le_rfl)
    rw [port]
    exact vset_same _ _ _
  have due : (s.ports[p].stage != .capx || !true || !capValid cap) = false := by
    rw [capx, valid]
    rfl
  have third : min 3 (2 + 1) = 3 := rfl
  simp only [exec, execCapRecordReceived, State.whenCore_on core, due, before, twice, if_true, third]
  rw [show (s.modPort p fun x => { x with caps := vset x.caps lane (some (cap, 3)) }) = s.capCounted p lane cap from rfl, after]
  rfl

/-! ## The checks (R100) -/

theorem State.capCheck_le (s : State) (p : LinkPort) (r : CapRecord) : s.capCheck p r ≤ 5 := by
  unfold State.capCheck
  dsimp only
  (repeat' split) <;> decide

theorem State.capDecide_agreed {s : State} {p : LinkPort} {r : CapRecord} (passes : s.capCheck p r = 0) (fresh : Bool) :
    s.capDecide p r fresh = s.modPort p fun x => { x with agreed := true, refuse := 0 } := if_pos passes

/-- A refused record: not agreed, with the reason. -/
def State.capRefused (s : State) (p : LinkPort) (reason : Nat) : State :=
  s.modPort p fun x => { x with agreed := false, refuse := BitVec.ofNat 3 reason }

theorem State.capDecide_refused {s : State} {p : LinkPort} {r : CapRecord} (fails : s.capCheck p r ≠ 0) :
    s.capDecide p r true = if s.capCheck p r = 1 then
      (((s.capRefused p (s.capCheck p r)).countTrunk p Reg.TRK_CAPX_REFUSED).countTrunk p Reg.TRK_WIRING_ERR)
    else (s.capRefused p (s.capCheck p r)).countTrunk p Reg.TRK_CAPX_REFUSED := if_neg fails

theorem SameRegsBut.countTrunk {ks : List Nat} {s t : State} {p : LinkPort} {r : Nat → Nat} (h : SameRegsBut ks s t) (hr : r p.val ∈ ks) :
    SameRegsBut ks s (t.countTrunk p r) := by
  unfold State.countTrunk
  split
  · exact h.trans (.count hr t)
  · exact h

/-- What the counters of a refusal leave. -/
theorem State.capDecide_refused_spec {s : State} {p : LinkPort} {r : CapRecord} (fails : s.capCheck p r ≠ 0) :
    (s.capDecide p r true).ports = (s.capRefused p (s.capCheck p r)).ports ∧ (s.capDecide p r true).lanes = s.lanes ∧
    (s.capDecide p r true).mem = s.mem ∧ (p.val < 4 → Counted (Reg.TRK_CAPX_REFUSED p.val) s (s.capDecide p r true)) ∧
    SameRegsBut [Reg.TRK_CAPX_REFUSED p.val, Reg.TRK_WIRING_ERR p.val] s (s.capDecide p r true) := by
  have counted (isTrunk : p.val < 4) (t : State) (e : t.reg (Reg.TRK_CAPX_REFUSED p.val) = s.reg (Reg.TRK_CAPX_REFUSED p.val)) :
      Counted (Reg.TRK_CAPX_REFUSED p.val) s (t.countTrunk p Reg.TRK_CAPX_REFUSED) := by
    rw [State.countTrunk_of_trunk isTrunk]
    exact (Counted.count _ t).after e
  have refused : SameRegsBut [Reg.TRK_CAPX_REFUSED p.val, Reg.TRK_WIRING_ERR p.val] s
      ((s.capRefused p (s.capCheck p r)).countTrunk p Reg.TRK_CAPX_REFUSED) := SameRegsBut.countTrunk (.of_regs rfl _) (by simp)
  rw [State.capDecide_refused fails]
  split
  · refine ⟨by simp [State.countTrunk_keeps], by simp [State.countTrunk_keeps, State.capRefused],
      by simp [State.countTrunk_keeps, State.capRefused],
      fun isTrunk => (counted isTrunk (s.capRefused p (s.capCheck p r)) rfl).congr ?_, refused.countTrunk (by simp)⟩
    rw [State.countTrunk_of_trunk (r := Reg.TRK_WIRING_ERR) isTrunk]
    refine State.reg_count_other ?_ _
    simp only [Reg.TRK_CAPX_REFUSED, Reg.TRK_WIRING_ERR, ne_eq]
    omega
  · exact ⟨by simp [State.countTrunk_keeps], by simp [State.countTrunk_keeps, State.capRefused],
      by simp [State.countTrunk_keeps, State.capRefused], fun isTrunk => counted isTrunk _ rfl, refused⟩

/-! ## ACTIVE (R96, R101, R172, R227, R228) -/

/-- A part of a port that its reserve and its credit leave. -/
theorem State.reservesInForce_part {β : Type} {π : Port → β} (hπ : ∀ x n e, π { x with norm := n, esc := e } = π x) (s : State)
    (p : LinkPort) : SamePart π s (s.reservesInForce p) := by
  have one (t : State) (q : LinkPort) : SamePart π t (t.reserveInForce q) := .modPort t q fun x => hπ x _ _
  unfold State.reservesInForce
  split
  · exact .each one s _
  · exact one s p

theorem State.resetCredits_part {β : Type} {π : Port → β} (hπ : ∀ x c, π { x with credits := c } = π x) (s : State) (p : LinkPort) :
    SamePart π s (s.resetCredits p) := by
  unfold State.resetCredits
  refine .each (fun t k => ?_) s _
  exact .modPort t p fun x => hπ x _

theorem State.storePartner_port (s : State) (p : LinkPort) (r : CapRecord) :
    (s.storePartner p r).ports[p] = { s.ports[p] with partner := some r } := by
  unfold State.storePartner
  dsimp only
  split
  · exact s.modPort_port p _
  · simp only [State.setRegN_keeps]
    exact s.modPort_port p _

/-- Whatever lanes a port left LOCK with, its width is not 0. -/
theorem width_of_leftLock : ∀ m : BitVec 4, m ≠ 0 → (laneList (lowestLanes m)).length ≠ 0 := by decide

/-- Lanes agreed on a record, so the port left LOCK with one at least. -/
theorem State.leftLock_of_capAgreed {s : State} {p : LinkPort} {cap : CapRecord} (agreed : s.capAgreed p = some cap) :
    s.ports[p].leftLock ≠ 0 := by
  intro e
  have none_left : (List.finRange 4).find? (fun i => (0 : BitVec 4).getLsbD i.val) = none := by decide
  simp only [State.capAgreed, e, none_left] at agreed
  cases agreed

/-- An ACTIVE port with a receive width stays ACTIVE at its full width, and is DEGRADED below it (R101). -/
theorem State.evalWidth_of_active {s : State} {p : LinkPort} (active : s.ports[p].stage = .active) (wide : s.ports[p].rxWidth ≠ 0) :
    s.evalWidth p = if decide (s.ports[p].rxWidth < s.ports[p].fullWidth) || decide (s.ports[p].txWidth < s.ports[p].fullWidth) then
      (s.toStage p .degraded).countTrunk p Reg.TRK_DEGRADE_COUNT else s := by
  have open' : (s.ports[p].rxWidth == 0) = false := beq_false_of_ne wide
  simp only [State.evalWidth, active, open', Bool.and_false, Bool.false_eq_true, if_false]
  rfl

theorem State.evalWidth_active {β : Type} {π : Port → β} (hπ : ∀ x st h, π { x with stage := st, stageHead := h } = π x) {s : State}
    {p : LinkPort} (active : s.ports[p].stage = .active) (wide : s.ports[p].rxWidth ≠ 0) :
    ((s.evalWidth p).ports[p].stage = .active ∨ (s.evalWidth p).ports[p].stage = .degraded) ∧ SamePart π s (s.evalWidth p) := by
  have degrades : ((s.toStage p .degraded).countTrunk p Reg.TRK_DEGRADE_COUNT).ports = (s.toStage p .degraded).ports :=
    State.countTrunk_ports _ _ _
  rw [State.evalWidth_of_active active wide]
  split
  · refine ⟨.inr ?_, SamePart.trans (.modPort s p fun x => hπ x .degraded s.heads) (.of_ports degrades)⟩
    rw [show ((s.toStage p .degraded).countTrunk p Reg.TRK_DEGRADE_COUNT).ports[p] = _ from
      congrArg (fun v : Vector Port 20 => v[p]) degrades, State.toStage_port]
  · exact ⟨.inl active, .refl s⟩

/-- A port enters ACTIVE with its partner stored, on the lanes it left LOCK with. -/
def Port.activate (head : Nat) (x : Port) : Port :=
  { x with
    reached := true, lossHead := none, fastTried := false, fastFailed := false
    adm := .closed
    rxLanes := lowestLanes x.leftLock
    rxWidth := (laneList (lowestLanes x.leftLock)).length
    discarding := false, ignoring := false
    resyncHead := head }

/-- The partner is stored and the reserve in force before the stage changes. -/
def State.prepared (s : State) (p : LinkPort) (r : CapRecord) : State := ((s.storePartner p r).reservesInForce p).emptyFrame p

/-- The port is ACTIVE; its counts are not yet reset. -/
def State.activated (s : State) (p : LinkPort) (r : CapRecord) : State :=
  ((s.prepared p r).toStage p .active).modPort p (Port.activate (s.prepared p r).heads)

theorem State.goActive_eq (s : State) (p : LinkPort) (r : CapRecord) : s.goActive p r =
    ((((s.activated p r).resetCredits p).sendAllCred p).evalWidth p).settle := rfl

theorem State.activated_port (s : State) (p : LinkPort) (r : CapRecord) : (s.activated p r).ports[p].stage = .active ∧
    (s.activated p r).ports[p].partner = some r ∧ (s.activated p r).ports[p].reached = true ∧
    (s.activated p r).ports[p].lossHead = none ∧ (s.activated p r).ports[p].adm = .closed ∧
    (s.activated p r).ports[p].rxWidth = (laneList (lowestLanes s.ports[p].leftLock)).length := by
  have port : (s.activated p r).ports[p] =
      Port.activate (s.prepared p r).heads { (s.prepared p r).ports[p] with stage := .active, stageHead := (s.prepared p r).heads } := by
    rw [State.activated, State.modPort_port, State.toStage_port]
  have reserved := State.reservesInForce_part (π := fun x => (x.partner, x.leftLock)) (fun _ _ _ => rfl) (s.storePartner p r) p p
  have kept : ((s.prepared p r).ports[p].partner, (s.prepared p r).ports[p].leftLock) = (some r, s.ports[p].leftLock) :=
    reserved.trans (by rw [State.storePartner_port])
  rw [Prod.mk.injEq] at kept
  obtain ⟨partner, leftLock⟩ := kept
  rw [port]
  exact ⟨rfl, partner, rfl, rfl, rfl, congrArg (fun m => (laneList (lowestLanes m)).length) leftLock⟩

/-- A port that goes ACTIVE is up with its partner stored and nothing of a loss kept. -/
theorem State.goActive_port {s : State} {p : LinkPort} (r : CapRecord) (lanes : s.ports[p].leftLock ≠ 0) :
    ((s.goActive p r).ports[p].stage = .active ∨ (s.goActive p r).ports[p].stage = .degraded) ∧
    (s.goActive p r).ports[p].partner = some r ∧ (s.goActive p r).ports[p].reached = true ∧
    (s.goActive p r).ports[p].lossHead = none ∧ (s.goActive p r).ports[p].adm = .closed := by
  obtain ⟨stage, partner, reached, loss, adm, width⟩ := s.activated_port p r
  have cred (t : State) : (t.sendAllCred p).ports = t.ports := by simp [State.sendAllCred_keeps]
  have reset := State.resetCredits_part (π := fun x => (x.stage, x.partner, x.reached, x.lossHead, x.adm, x.rxWidth)) (fun _ _ => rfl)
    (s.activated p r) p p
  simp only [Prod.mk.injEq] at reset
  obtain ⟨stage', partner', reached', loss', adm', width'⟩ := reset
  have wide : (((s.activated p r).resetCredits p).sendAllCred p).ports[p].rxWidth ≠ 0 := by
    rw [cred, width', width]
    exact width_of_leftLock _ lanes
  obtain ⟨up, evaluated⟩ := State.evalWidth_active (π := fun x => (x.partner, x.reached, x.lossHead, x.adm)) (fun _ _ _ => rfl)
    (s := ((s.activated p r).resetCredits p).sendAllCred p) (p := p) (by rw [cred]; exact stage'.trans stage) wide
  have evaluated := evaluated p
  have settled := State.settle_part (π := fun x => (x.stage, x.partner, x.reached, x.lossHead, x.adm)) (fun _ _ => rfl)
    ((((s.activated p r).resetCredits p).sendAllCred p).evalWidth p) p
  rw [cred] at evaluated
  rw [← State.goActive_eq] at settled
  simp only [Prod.mk.injEq] at evaluated settled
  obtain ⟨stage2, partner2, reached2, loss2, adm2⟩ := settled
  obtain ⟨partner3, reached3, loss3, adm3⟩ := evaluated
  refine ⟨stage2 ▸ up, ?_, ?_, ?_, ?_⟩
  · rw [partner2, partner3, partner', partner]
  · rw [reached2, reached3, reached', reached]
  · rw [loss2, loss3, loss', loss]
  · rw [adm2, adm3, adm', adm]

theorem State.storePartner_mem (s : State) (p : LinkPort) (r : CapRecord) : (s.storePartner p r).mem = s.mem := by
  unfold State.storePartner
  dsimp only
  split
  · rfl
  · simp

theorem State.goActive_mem (s : State) (p : LinkPort) (r : CapRecord) : (s.goActive p r).mem = s.mem := by
  simp [State.goActive, State.settle_keeps, State.evalWidth_keeps, State.sendAllCred_keeps, State.resetCredits_keeps,
    State.toStage_keeps, State.emptyFrame_keeps, State.reservesInForce_keeps, State.storePartner_mem]

/-- A trunk port goes on to AUTH (R107). -/
def State.goAuth (s : State) (p : LinkPort) : State :=
  match asTrunk p with
  | some t => s.startAuth t
  | none => s

theorem State.goAuth_part {β : Type} {π : Port → β} (hπ : AgentBlind π) (s : State) (p : LinkPort) : SamePart π s (s.goAuth p) := by
  unfold State.goAuth
  split
  · exact State.startAuth_part hπ s _
  · exact .refl s

theorem State.goAuth_mem (s : State) (p : LinkPort) : (s.goAuth p).mem = s.mem := by
  unfold State.goAuth
  split
  · simp [State.startAuth_keeps]
  · rfl

theorem exec_portActive {s : State} {p : LinkPort} {cap : CapRecord} (core : s.coreOn = true) (capx : s.ports[p].stage = .capx)
    (agreed : s.ports[p].agreed = true) (record : s.capAgreed p = some cap) :
    exec (.portActive p) s = .next (((s.goActive p cap).goAuth p).refreshView s) := by
  have due : (s.ports[p].stage != .capx || !s.ports[p].agreed) = false := by
    rw [capx, agreed]
    rfl
  simp only [exec, execPortActive, State.whenCore_on core, due, record]
  rfl

/-- Settles O23: the third equal record is agreed or refused, and the port agreed goes ACTIVE and on to AUTH. -/
theorem capabilityExchange : Obligations.CapabilityExchange := by
  intro s p core capx
  refine ⟨fun lane cap one valid twice => ?_, fun cap agreed record => ?_⟩
  · have exec_eq := exec_capRecordReceived core capx one valid twice
    have others : SamePortsBut p s (s.capCounted p lane cap) := .modPort s p _
    refine ⟨fun passes => ?_, fun fails => ?_⟩
    · rw [exec_eq, State.capDecide_agreed (s := s.capCounted p lane cap) passes]
      refine ⟨_, rfl, ?_, ?_, rfl, others.trans (.modPort _ p _), .of_regs rfl _, .of_mem rfl⟩
      · rw [State.modPort_port]
      · rw [State.modPort_port]
    · obtain ⟨ports, lanes, mem, counted, regs⟩ := State.capDecide_refused_spec (s := s.capCounted p lane cap) fails
      have port : ((s.capCounted p lane cap).capDecide p cap true).ports[p] =
          { (s.capCounted p lane cap).ports[p] with agreed := false, refuse := BitVec.ofNat 3 (s.capCheck p cap) } := by
        rw [ports]
        exact State.modPort_port _ p _
      refine ⟨_, exec_eq, by rw [port], ?_, counted, lanes, ?_, regs, .of_mem mem⟩
      · have := s.capCheck_le p cap
        rw [port, BitVec.toNat_ofNat]
        omega
      · exact others.trans ((SamePortsBut.modPort _ p _).trans (.of_ports ports))
  · obtain ⟨up, partner, reached, loss, closed⟩ := State.goActive_port cap (State.leftLock_of_capAgreed record)
    have authed := State.goAuth_part (π := fun x => (x.stage, x.partner, x.reached, x.lossHead)) (fun _ _ _ _ _ _ => rfl)
      (s.goActive p cap) p p
    have seen := State.refreshView_field (π := fun x => (x.stage, x.partner, x.reached, x.lossHead)) (fun _ _ => rfl)
      ((s.goActive p cap).goAuth p) s p
    have all := seen.trans authed
    simp only [Prod.mk.injEq] at all
    obtain ⟨stage', partner', reached', loss'⟩ := all
    refine ⟨_, exec_portActive core capx agreed record, stage'.symm ▸ up, partner'.trans partner, reached'.trans reached,
      loss'.trans loss, .of_mem ?_, ?_⟩
    · rw [State.refreshView_mem, State.goAuth_mem, State.goActive_mem]
    · rintro k rfl
      have begun : (s.goActive (trunk k) cap).goAuth (trunk k) = (s.goActive (trunk k) cap).startAuth k := by
        rw [State.goAuth, asTrunk_trunk]
      obtain ⟨running, auth, -⟩ := State.startAuth_spec closed
      rw [begun, State.refreshView_agents, State.refreshView_field (π := Port.adm) fun _ _ => rfl]
      exact ⟨auth, running⟩

end Sys2Proof.Machine
end

section
/-! The announcement and the cancel of a merge, and the end of formation (R122-R125, R265). -/

namespace Sys2Proof.Machine

open Sys2Proof

theorem State.sendEchoAll_echo (s : State) (change : Bool) : (s.sendEchoAll change).echo = s.echo := by simp [State.sendEchoAll_keeps]

theorem State.sendEchoAll_sameStages (s : State) (change : Bool) : SameStages s (s.sendEchoAll change) :=
  ((s.sendEchoAll_sendsOnly change).samePart (π := fun x => (x.stage, x.txLanes, x.rxLanes, x.modeAct)) fun _ _ => rfl).sameStages

/-- The merges held are those of the first place and the others. -/
theorem State.merges_of_echo {s t : State} (h : t.echo = s.echo) : t.merges = s.merges := by simp only [State.merges, h]

theorem State.merges_setMerges (s : State) (l : List Merge) : (s.setMerges l).merges = l := by
  cases l with
  | nil => rfl
  | cons m l => rfl

/-! ## MERGE_ANNOUNCE (R122, R123) -/

theorem State.length_announced (s : State) (lead : Nat) (l : List Side) (used : List Nat) : (s.announced lead l used).length = l.length := by
  induction l generalizing used with
  | nil => rfl
  | cons x l ih => exact congrArg (· + 1) (ih _)

/-- The first merge announced is that of the first side, with the step the lead ahead and the path epoch one higher. -/
theorem State.announced_first (s : State) (lead : Nat) (x : Side) (l : List Side) (used : List Nat) :
    ∃ m, (s.announced lead (x :: l) used).head? = some m ∧ m.joining = false ∧ m.complete = false ∧
      m.record.s = s.beatNum + BitVec.ofNat 48 lead ∧ m.record.pepNew = s.pep + 1 ∧ m.record.masterId = Config.hubId ∧
      m.record.jointId = x.joint.id := ⟨_, rfl, rfl, rfl, rfl, rfl, rfl, rfl⟩

/-- The merges that the master announces. -/
def State.mergesNow (s : State) : List Merge :=
  s.announced s.mergeLead s.joiningSides (slotsUsed (s.view.filter fun r => s.echo.members.contains r.id))

/-- The merges that the master announces are held and sent. -/
def State.mergesAnnounced (s : State) : State := (s.setMerges s.mergesNow).sendEchoAll true

theorem State.mergesAnnounced_echo (s : State) : s.mergesAnnounced.echo = (s.setMerges s.mergesNow).echo :=
  State.sendEchoAll_echo _ true

theorem State.mergesAnnounced_merges (s : State) : s.mergesAnnounced.merges = s.mergesNow :=
  (State.merges_of_echo s.mergesAnnounced_echo).trans (s.merges_setMerges _)

theorem State.mergesAnnounced_mem (s : State) : s.mergesAnnounced.mem = s.mem := by
  simp [State.mergesAnnounced, State.sendEchoAll_keeps, State.setMerges]

theorem exec_mergeAnnounce {s : State} {x : Side} {xs : List Side} (core : s.coreOn = true) (runs : s.echoPaused = false)
    (sides : s.joiningSides = x :: xs) (master : s.beat.timing = .master) (own : s.echo.master = Config.hubId)
    (elected : s.elected = Config.hubId) (none_held : s.merges = []) (settled : s.echo.viewSince + s.settleHeads ≤ s.heads) :
    exec .mergeAnnounce s = .next s.mergesAnnounced := by
  have due : (s.joiningSides.isEmpty || s.beat.timing != .master || decide (s.echo.master ≠ Config.hubId) ||
      decide (s.elected ≠ Config.hubId) || !s.merges.isEmpty || s.echoPaused || decide (s.heads < s.echo.viewSince + s.settleHeads)) =
      false := by
    rw [sides, master, none_held, runs, decide_eq_false (not_not.mpr own), decide_eq_false (not_not.mpr elected),
      decide_eq_false (Nat.not_lt.mpr settled)]
    rfl
  simp only [exec, execMergeAnnounce, State.whenCore_on core, due]
  rfl

/-- Within a pause of Column 1 no merge is announced or cancelled (R265). -/
theorem exec_mergeAnnounce_paused {s : State} (core : s.coreOn = true) (paused : s.echoPaused = true) :
    exec .mergeAnnounce s = .next s := by
  simp only [exec, execMergeAnnounce, State.whenCore_on core, paused, Bool.or_true, Bool.true_or, if_true]

/-! ## MERGE_CANCEL (R125) -/

theorem sameMerge_self (r : MergeRecord) : sameMerge r r = true := by simp [sameMerge]

/-- A merge with its record cancelled. -/
def Merge.cancelled (m : Merge) : Merge := { m with record := { m.record with cancel := true } }

/-- The cancel of a merge has been sent. -/
def State.cancelSent (s : State) (m : Merge) : State := (s.replaceMerge m m.cancelled).sendEchoAll true

theorem State.takeCancel_found {s : State} {m : Merge} (only : s.merges = [m]) : s.takeCancel m.record =
    ((s.cancelSent m).setMerges ((s.cancelSent m).merges.filter fun x => !sameMerge x.record m.record)).count
      Reg.TOPO_MERGE_CANCEL := by
  have found : s.merges.find? (fun x => sameMerge x.record m.record) = some m := by
    simp [only, sameMerge_self]
  unfold State.takeCancel
  rw [found]
  rfl

theorem State.cancelSent_merges {s : State} {m : Merge} (only : s.merges = [m]) : (s.cancelSent m).merges = [m.cancelled] := by
  rw [State.cancelSent, State.merges_of_echo (State.sendEchoAll_echo _ true), State.replaceMerge, State.merges_setMerges, only]
  simp

theorem State.count_merges (s : State) (k : Nat) : (s.count k).merges = s.merges := State.merges_of_echo (by simp)

theorem State.reg_of_regs {s t : State} (h : t.regs = s.regs) (k : Nat) : t.reg k = s.reg k := by simp only [State.reg, h]

theorem State.setMerges_regs (s : State) (l : List Merge) : (s.setMerges l).regs = s.regs := rfl

theorem State.setMerges_ports (s : State) (l : List Merge) : (s.setMerges l).ports = s.ports := rfl

theorem State.setMerges_sent_sameStages (s : State) (l : List Merge) : SameStages s ((s.setMerges l).sendEchoAll true) :=
  SameStages.trans (.of_ports (s.setMerges_ports l)) ((s.setMerges l).sendEchoAll_sameStages true)

/-- The one merge held is discarded by its cancel, which is counted. -/
theorem State.takeCancel_only {s : State} {m : Merge} (only : s.merges = [m]) : (s.takeCancel m.record).merges = [] ∧
    Counted Reg.TOPO_MERGE_CANCEL s (s.takeCancel m.record) ∧ SameStages s (s.takeCancel m.record) := by
  have away : sameMerge m.cancelled.record m.record = true := by simp [sameMerge, Merge.cancelled]
  have sent : (s.cancelSent m).regs = s.regs := State.sendEchoAll_regs _ true
  rw [State.takeCancel_found only, State.cancelSent_merges only]
  refine ⟨?_, (Counted.count _ _).after ?_, ?_⟩
  · rw [State.count_merges, State.merges_setMerges]
    simp [away]
  · exact State.reg_of_regs ((State.setMerges_regs _ _).trans sent) _
  · have stages : SameStages s (s.cancelSent m) := State.setMerges_sent_sameStages s _
    exact stages.trans (.of_ports (by simp [State.setMerges_ports]))

theorem exec_mergeCancel {s : State} {m : Merge} (core : s.coreOn = true) (runs : s.echoPaused = false) (only : s.merges = [m])
    (own : m.record.masterId = Config.hubId) (early : s.beatNum.toNat + 16 < m.record.s.toNat) (broken : s.mergeBroken m = true) :
    exec .mergeCancel s = .next (s.takeCancel m.record) := by
  have due : (m.record.masterId == Config.hubId && s.mergeBroken m && decide (s.beatNum.toNat + 16 < m.record.s.toNat) &&
      !s.echoPaused) = true := by
    rw [own, broken, decide_eq_true early, runs, beq_self_eq_true]
    rfl
  simp only [exec, execMergeCancel, State.whenCore_on core, only, List.filter_singleton, due]
  rfl

theorem exec_mergeCancel_paused {s : State} (core : s.coreOn = true) (paused : s.echoPaused = true) :
    exec .mergeCancel s = .next s := by
  simp only [exec, execMergeCancel, State.whenCore_on core, paused, Bool.not_true, Bool.and_false, List.filter_false]
  rfl

/-! ## FORMING_END (R124) -/

theorem exec_formingEnd {s : State} {h : Nat} (core : s.coreOn = true) (run : s.echo.runHead = some h) (late : h + 16000 ≤ s.heads) :
    exec .formingEnd s = .next (s.setBit Reg.TOPO_STATUS 27 false) := by
  simp only [exec, execFormingEnd, State.whenCore_on core, run, if_neg (Nat.not_lt.mpr late)]

/-- Settles O28: the announcement by the list it holds, the cancel of the one merge, and the fall of FORMING. -/
theorem mergesAndFormation : Obligations.MergesAndFormation := by
  intro s core
  refine ⟨fun x xs runs sides master own elected none_held settled => ?_, fun m runs only own early broken => ?_,
    fun paused => ⟨exec_mergeAnnounce_paused core paused, exec_mergeCancel_paused core paused⟩, fun h run late => ?_⟩
  · obtain ⟨m, head, rest⟩ := s.announced_first s.mergeLead x xs (slotsUsed (s.view.filter fun r => s.echo.members.contains r.id))
    have first : s.mergesAnnounced.echo.merge = some m := by
      rw [State.mergesAnnounced_echo, ← head, ← sides]
      rfl
    have all : s.mergesAnnounced.merges.length = s.joiningSides.length := by
      rw [State.mergesAnnounced_merges, State.mergesNow, State.length_announced]
    obtain ⟨joining, complete, step, epoch, by', joint⟩ := rest
    exact ⟨s.mergesAnnounced, m, exec_mergeAnnounce core runs sides master own elected none_held settled, first, all, joining, complete,
      step, epoch, by', joint, s.setMerges_sent_sameStages _, .of_mem s.mergesAnnounced_mem⟩
  · obtain ⟨none_left, counted, stages⟩ := State.takeCancel_only only
    refine ⟨_, exec_mergeCancel core runs only own early broken, none_left, counted, stages, .of_mem ?_⟩
    simp [State.takeCancel_keeps]
  · refine ⟨_, exec_formingEnd core run late, State.bit_setBit_same s _ (by decide) false,
      State.fld_setFld_apart s _ (by decide) (le_refl 27) _ (.inr (by decide)) (by decide),
      fun k hk => State.reg_setBit_other (by simpa using hk) s _ _, .of_mem (by simp)⟩

end Sys2Proof.Machine
end

section
/-! The master's role and the path epoch (R30-R32, R50, R116, R117, R265). -/

namespace Sys2Proof.Machine

open Sys2Proof

/-! ## The master's role (R116) -/

theorem State.refreshView_beat (s before : State) : (s.refreshView before).beat = s.beat := by simp [State.refreshView_keeps]

/-- A hub that takes the role says so by its beat alone: MASTER, with HOPS 0. -/
theorem State.becomeMaster_beat (s : State) : s.becomeMaster.beat =
    { s.beat with timing := .master, timingPort := none, hops := 0, srcHold := false, err := 0 } := by
  unfold State.becomeMaster
  dsimp only
  split <;> simp [State.assignWhileForming_keeps, State.newMaster_keeps]

/-- The registers of the view, among them those of a master that changes, are all that a new role writes. -/
theorem State.becomeMaster_regs (s : State) : SameRegsBut viewRegs s s.becomeMaster := by
  unfold State.becomeMaster
  dsimp only
  split
  · exact SameRegsBut.trans (.of_regs rfl _) (State.assignWhileForming_regs _)
  · exact SameRegsBut.trans (SameRegsBut.trans (.of_regs rfl _) (State.newMaster_regs _ _)) (State.assignWhileForming_regs _)

theorem exec_enterMaster {s : State} (core : s.coreOn = true) (pll : s.pllOn = true) (runs : s.echoPaused = false)
    (timing : s.beat.timing = .free ∨ s.beat.timing = .track ∨ s.beat.timing = .holdover) (elected : s.actingMaster = Config.hubId)
    (still : s.annOr.moveBeat = 0 ∨ s.annOr.moveBeat.toNat ≤ s.beatNum.toNat) :
    exec .enterMaster s = .next (s.becomeMaster.refreshView s) := by
  have unmoving : (s.annOr.moveBeat != 0 && decide (s.beatNum.toNat < s.annOr.moveBeat.toNat)) = false := by
    obtain none_due | past := still
    · rw [none_due]
      rfl
    · rw [decide_eq_false (Nat.not_lt.mpr past), Bool.and_false]
  have open' : (decide (s.beat.timing = .free) || decide (s.beat.timing = .track) || decide (s.beat.timing = .holdover)) = true := by
    obtain h | h | h := timing <;> rw [h] <;> rfl
  simp only [exec, execEnterMaster, State.whenCore_on core, unmoving, open', pll, runs, elected, decide_true]
  rfl

/-- Within a pause of Column 1 no hub takes the role (R265). -/
theorem exec_enterMaster_paused {s : State} (core : s.coreOn = true) (paused : s.echoPaused = true) : exec .enterMaster s = .next s := by
  simp only [exec, execEnterMaster, State.whenCore_on core, paused, Bool.not_true, Bool.and_false, Bool.false_eq_true, if_false]

/-- What a move of the role does at the head of MOVE_BEAT. -/
def State.moveTaken (s : State) : State :=
  if s.annOr.nextMaster = Config.hubId then s.takeRole.sendEchoAll false
  else (if s.beat.timing = .master then s.becomeFollower else s).newMaster s.annOr.nextMaster

theorem exec_masterMove {s : State} (core : s.coreOn = true) (due : s.annOr.moveBeat ≠ 0) (now : s.beatNum = s.annOr.moveBeat)
    (named : s.annOr.nextMaster ≠ 0) : exec .masterMove s = .next (s.moveTaken.refreshView s) := by
  have taken : (decide (s.annOr.moveBeat = 0) || decide (s.beatNum ≠ s.annOr.moveBeat) || decide (s.annOr.nextMaster = 0)) = false := by
    rw [decide_eq_false due, decide_eq_false named, decide_eq_false (not_not.mpr now)]
    rfl
  simp only [exec, execMasterMove, State.whenCore_on core, taken]
  rfl

theorem State.takeRole_beat (s : State) : s.takeRole.beat = if s.pllOn && s.beat.timing != .stepPending then s.becomeMaster.beat else s.beat := by
  unfold State.takeRole
  split
  · rfl
  · simp [State.newMaster_keeps]

theorem State.moveTaken_own {s : State} (own : s.annOr.nextMaster = Config.hubId) : s.moveTaken.beat =
    if s.pllOn && s.beat.timing != .stepPending then s.becomeMaster.beat else s.beat := by
  rw [State.moveTaken, if_pos own, ← State.takeRole_beat]
  simp [State.sendEchoAll_keeps]

/-- The old master of another hub's move follows. -/
theorem State.moveTaken_other {s : State} (other : s.annOr.nextMaster ≠ Config.hubId) (master : s.beat.timing = .master) :
    s.moveTaken.beat.timing = .track := by
  rw [State.moveTaken, if_neg other, if_pos master]
  simp [State.newMaster_keeps, State.becomeFollower]

/-! ## The path epoch (R117) -/

theorem State.reg48_congr {s t : State} {lo : Nat} (h : t.reg lo = s.reg lo) (h' : t.reg (lo + 4) = s.reg (lo + 4)) :
    t.reg48 lo = s.reg48 lo := by
  simp only [State.reg48, State.fld, h, h']

theorem State.setReg48_regs (s : State) (lo v : Nat) : SameRegsBut [lo, lo + 4] s (s.setReg48 lo v) :=
  (SameRegsBut.setReg (by simp) s _).trans (.setReg (by simp) _ _)

theorem State.pep_congr {s t : State} (h : t.reg Reg.TOPO_STATUS = s.reg Reg.TOPO_STATUS) : t.pep = s.pep := by
  simp only [State.pep, State.fld, h]

/-- PEP_PREV, PEP and the beat of a raise. -/
def State.epochWritten (s : State) (pep : BitVec 4) (beat : Beat) : State :=
  ((s.setFld Reg.TOPO_STATUS 14 11 s.pep.toNat).setFld Reg.TOPO_STATUS 10 7 pep.toNat).setReg48 Reg.TOPO_EPOCH_BEAT_LO beat.toNat

/-- The head of a raise noted, and the queues of flushed ports open again. -/
def State.queuesReopened (s : State) : State :=
  ({ s with echo := { s.echo with raiseHead := some s.heads } } : State).over (List.finRange 4) fun s t =>
    s.modPort (trunk t) fun x => { x with flushed := false }

theorem State.raiseTo_eq (s : State) (pep : BitVec 4) (beat : Beat) : s.raiseTo pep beat =
    ((s.epochWritten pep beat).queuesReopened.count Reg.TOPO_EPOCH_RAISES).deriveRoutes := rfl

theorem State.queuesReopened_regs (s : State) : s.queuesReopened.regs = s.regs := State.over_regs (fun _ _ => by rfl) _ _

/-- After the fields of the epoch a raise writes its counter alone. -/
theorem State.raiseTo_written (s : State) (pep : BitVec 4) (beat : Beat) :
    SameRegsBut [Reg.TOPO_EPOCH_RAISES] (s.epochWritten pep beat) (s.raiseTo pep beat) := by
  rw [State.raiseTo_eq]
  refine SameRegsBut.of_regs_right ?_ (t := (s.epochWritten pep beat).queuesReopened.count Reg.TOPO_EPOCH_RAISES)
    (by simp [State.deriveRoutes_keeps])
  exact SameRegsBut.trans (.of_regs (State.queuesReopened_regs _) _) (.count (List.mem_singleton_self _) _)

theorem State.epochWritten_fields (s : State) (pep : BitVec 4) (beat : Beat) :
    (s.epochWritten pep beat).fld Reg.TOPO_STATUS 10 7 = pep.toNat ∧ (s.epochWritten pep beat).fld Reg.TOPO_STATUS 14 11 = s.pep.toNat ∧
    (s.epochWritten pep beat).reg48 Reg.TOPO_EPOCH_BEAT_LO = beat.toNat := by
  have status : (s.epochWritten pep beat).reg Reg.TOPO_STATUS =
      ((s.setFld Reg.TOPO_STATUS 14 11 s.pep.toNat).setFld Reg.TOPO_STATUS 10 7 pep.toNat).reg Reg.TOPO_STATUS :=
    State.setReg48_regs _ _ _ _ (by decide)
  have fld (hi lo : Nat) : (s.epochWritten pep beat).fld Reg.TOPO_STATUS hi lo =
      ((s.setFld Reg.TOPO_STATUS 14 11 s.pep.toNat).setFld Reg.TOPO_STATUS 10 7 pep.toNat).fld Reg.TOPO_STATUS hi lo := by
    simp only [State.fld, status]
  refine ⟨?_, ?_, ?_⟩
  · rw [fld, State.fld_setFld_same _ _ (by decide) (by decide)]
    exact Nat.mod_eq_of_lt pep.isLt
  · rw [fld, State.fld_setFld_apart _ _ (by decide) (by decide) _ (.inl (by decide)) (by decide),
      State.fld_setFld_same _ _ (by decide) (by decide)]
    exact Nat.mod_eq_of_lt s.pep.isLt
  · rw [State.epochWritten, State.reg48_setReg48]
    exact Nat.mod_eq_of_lt beat.isLt

/-- A raise brings the new epoch into force, with the old one and its beat recorded (R117). -/
theorem State.raiseTo_fields (s : State) (pep : BitVec 4) (beat : Beat) : (s.raiseTo pep beat).pep = pep ∧
    (s.raiseTo pep beat).fld Reg.TOPO_STATUS 14 11 = s.pep.toNat ∧ (s.raiseTo pep beat).reg48 Reg.TOPO_EPOCH_BEAT_LO = beat.toNat := by
  obtain ⟨new, old, at'⟩ := s.epochWritten_fields pep beat
  have written := s.raiseTo_written pep beat
  have status := written Reg.TOPO_STATUS (by decide)
  refine ⟨(State.pep_congr status).trans ?_, ?_, (State.reg48_congr (written _ (by decide)) (written _ (by decide))).trans at'⟩
  · rw [State.pep, new, BitVec.ofNat_toNat, BitVec.setWidth_eq]
  · rw [← old]
    simp only [State.fld, status]

theorem State.raiseTo_echo (s : State) (pep : BitVec 4) (beat : Beat) :
    (s.raiseTo pep beat).echo = { s.echo with raiseHead := some s.heads } := by
  simp [State.raiseTo_eq, State.deriveRoutes_keeps, State.queuesReopened, State.epochWritten]

/-- Within a pause of Column 1 the routes stay and are due at its end (R265). -/
theorem State.raiseTo_tun_paused {s : State} (paused : s.echoPaused = true) (pep : BitVec 4) (beat : Beat) :
    (s.raiseTo pep beat).tun.routes = s.tun.routes ∧ (s.raiseTo pep beat).tun.routesDue = true := by
  have eng : ((s.epochWritten pep beat).queuesReopened.count Reg.TOPO_EPOCH_RAISES).eng = s.eng := by
    simp [State.queuesReopened, State.epochWritten]
  have heads : ((s.epochWritten pep beat).queuesReopened.count Reg.TOPO_EPOCH_RAISES).heads = s.heads := by
    simp [State.queuesReopened, State.epochWritten]
  have tun : ((s.epochWritten pep beat).queuesReopened.count Reg.TOPO_EPOCH_RAISES).tun = s.tun := by
    simp [State.queuesReopened, State.epochWritten]
  have still : ((s.epochWritten pep beat).queuesReopened.count Reg.TOPO_EPOCH_RAISES).echoPaused = true := by
    simpa only [State.echoPaused, eng, heads] using paused
  rw [State.raiseTo_eq, State.deriveRoutes, if_pos still, tun]
  exact ⟨rfl, rfl⟩

theorem State.countSplit_regs (s : State) : SameRegsBut [Reg.TOPO_SPLITS] s s.countSplit := by
  unfold State.countSplit
  split
  · exact .refl _ s
  · exact SameRegsBut.trans (t := { s with echo := { s.echo with lost := [] } }) (.of_regs rfl _) (.count (List.mem_singleton_self _) _)

theorem State.countSplit_raiseHead (s : State) : s.countSplit.echo.raiseHead = s.echo.raiseHead := by
  unfold State.countSplit
  split <;> simp

theorem exec_epochRaise {s : State} (core : s.coreOn = true) (due : s.annOr.epochBeat ≠ 0) (now : s.beatNum = s.annOr.epochBeat)
    (new : s.annOr.pepNext ≠ s.pep) : exec .epochRaise s = .next (s.raiseTo s.annOr.pepNext s.annOr.epochBeat).countSplit := by
  have taken : (decide (s.annOr.epochBeat = 0) || decide (s.beatNum ≠ s.annOr.epochBeat) || decide (s.annOr.pepNext = s.pep)) = false := by
    rw [decide_eq_false due, decide_eq_false new, decide_eq_false (not_not.mpr now)]
    rfl
  simp only [exec, execEpochRaise, State.whenCore_on core, taken]
  rfl

theorem exec_pepPrevWindowEnd {s : State} {h : Nat} (core : s.coreOn = true) (raised : s.echo.raiseHead = some h)
    (late : h + 2 ≤ s.heads) : exec .pepPrevWindowEnd s = .next { s with echo := { s.echo with raiseHead := none } } := by
  simp only [exec, execPepPrevWindowEnd, State.whenCore_on core, raised, if_neg (Nat.not_lt.mpr late)]

end Sys2Proof.Machine
end

section
/-! The merge step (R45-R47, R121, R123): what a step writes of the numbering, and what the merged consist leaves of it. -/

namespace Sys2Proof.Machine

open Sys2Proof

/-! ## The numbering moved (R47) -/

theorem LowRegs.setReg48 {s t : State} {lo : Nat} (hlo : 0x0A0000 ≤ lo) (v : Nat) (h : LowRegs s t) : LowRegs s (t.setReg48 lo v) :=
  .setReg (by omega) _ (.setReg hlo _ h)

/-- BEAT_NUM and the pending commits and the anchor of the task tables with an offset added. -/
def State.numberMoved (s : State) (ofs : Nat) : State :=
  { s.setBeatNum (s.beatNum + BitVec.ofNat 48 ofs) with
    beat := { s.beat with commits := s.beat.commits.map fun c => { c with target := c.target + BitVec.ofNat 48 ofs } }
    eng := { s.eng with anchor := s.eng.anchor + BitVec.ofNat 48 ofs } }

/-- The anchors of the gate lists with an offset added. -/
def State.gatesMoved (s : State) (ofs : Nat) : State :=
  s.over (List.range 21) fun s p =>
    s.setReg48 (Reg.SCHED_GL_ANCHOR_LO p) ((s.reg48 (Reg.SCHED_GL_ANCHOR_LO p) + ofs) % 2 ^ 48)

theorem State.renumber_eq (s : State) (ofs : Nat) : s.renumber ofs = if ofs = 0 then s else (s.numberMoved ofs).gatesMoved ofs := rfl

theorem State.gatesMoved_low (s : State) (ofs : Nat) : LowRegs s (s.gatesMoved ofs) := by
  unfold State.gatesMoved
  refine .each (fun t p => ?_) s _
  exact .setReg48 (by unfold Reg.SCHED_GL_ANCHOR_LO; omega) _ (.refl t)

theorem State.gatesMoved_beat (s : State) (ofs : Nat) : (s.gatesMoved ofs).beat = s.beat ∧ (s.gatesMoved ofs).eng = s.eng := by
  simp [State.gatesMoved]

/-- A renumbered hub counts from its own number and the offset, and writes no other register below those of Cavern. -/
theorem State.renumber_regs (s : State) (ofs : Nat) : (s.renumber ofs).beatNum = s.beatNum + BitVec.ofNat 48 ofs ∧
    ∀ k < 0x0A0000, k ∉ [Reg.BEAT_NUM, Reg.BEAT_NUM_HI] → (s.renumber ofs).reg k = s.reg k := by
  rw [State.renumber_eq]
  by_cases none_moved : ofs = 0
  · rw [if_pos none_moved, none_moved]
    exact ⟨(BitVec.add_zero _).symm, fun _ _ _ => rfl⟩
  · rw [if_neg none_moved]
    have gates := (s.numberMoved ofs).gatesMoved_low ofs
    refine ⟨?_, fun k low hk => (gates k low).trans ?_⟩
    · refine Eq.trans ?_ (s.beatNum_setBeatNum (s.beatNum + BitVec.ofNat 48 ofs))
      exact congrArg (BitVec.ofNat 48) (State.reg48_congr (gates _ (by decide)) (gates _ (by decide)))
    · exact State.setReg48_regs s Reg.BEAT_NUM _ k hk

/-- The targets of the pending commits and the anchor of the task tables move with it. -/
theorem State.renumber_beat (s : State) (ofs : Nat) :
    (s.renumber ofs).beat.commits = s.beat.commits.map (fun c => { c with target := c.target + BitVec.ofNat 48 ofs }) ∧
    (s.renumber ofs).eng.anchor = s.eng.anchor + BitVec.ofNat 48 ofs := by
  rw [State.renumber_eq]
  by_cases none_moved : ofs = 0
  · subst none_moved
    have same : (fun c : Commit => { c with target := c.target + BitVec.ofNat 48 0 }) = id :=
      funext fun c => by simp
    rw [if_pos rfl, same, List.map_id]
    exact ⟨rfl, (BitVec.add_zero _).symm⟩
  · obtain ⟨beat, eng⟩ := (s.numberMoved ofs).gatesMoved_beat ofs
    rw [if_neg none_moved, beat, eng]
    exact ⟨rfl, rfl⟩

/-! ## The record of a step (R47) -/

/-- The registers that a step's record writes. -/
def stepRegs : List Nat :=
  [Reg.BEAT_STEP_LO, Reg.BEAT_STEP_HI, Reg.BEAT_STEP_OFS_LO, Reg.BEAT_STEP_OFS_HI, Reg.BEAT_STEP_COUNT]

/-- The step beat and the offset of a step. -/
def State.stepWritten (s : State) (merged ofs : Nat) : State := (s.setReg48 Reg.BEAT_STEP_LO merged).setReg48 Reg.BEAT_STEP_OFS_LO ofs

theorem State.recordStep_regs_eq (s : State) (merged ofs : Nat) :
    (s.recordStep merged ofs).regs = ((s.stepWritten merged ofs).count Reg.BEAT_STEP_COUNT).regs := rfl

theorem State.recordStep_regs (s : State) (merged ofs : Nat) : SameRegsBut stepRegs s (s.recordStep merged ofs) := by
  refine SameRegsBut.of_regs_right ?_ (s.recordStep_regs_eq merged ofs)
  have beat := (s.setReg48_regs Reg.BEAT_STEP_LO merged).mono (show _ ⊆ stepRegs by decide)
  have offset := ((s.setReg48 Reg.BEAT_STEP_LO merged).setReg48_regs Reg.BEAT_STEP_OFS_LO ofs).mono (show _ ⊆ stepRegs by decide)
  exact (beat.trans offset).trans (.count (by decide) _)

/-- The record shows the step and the offset, and the step is counted. -/
theorem State.recordStep_spec (s : State) {merged ofs : Nat} (hm : merged < 2 ^ 48) (ho : ofs < 2 ^ 48) :
    (s.recordStep merged ofs).reg48 Reg.BEAT_STEP_LO = merged ∧ (s.recordStep merged ofs).reg48 Reg.BEAT_STEP_OFS_LO = ofs ∧
    Counted Reg.BEAT_STEP_COUNT s (s.recordStep merged ofs) := by
  have counted (k : Nat) (hk : k ≠ Reg.BEAT_STEP_COUNT) : (s.recordStep merged ofs).reg k = (s.stepWritten merged ofs).reg k :=
    State.reg_count_other hk _
  have apart := (s.setReg48 Reg.BEAT_STEP_LO merged).setReg48_regs Reg.BEAT_STEP_OFS_LO ofs
  refine ⟨?_, ?_, ?_⟩
  · calc (s.recordStep merged ofs).reg48 Reg.BEAT_STEP_LO
      _ = (s.stepWritten merged ofs).reg48 Reg.BEAT_STEP_LO := State.reg48_congr (counted _ (by decide)) (counted _ (by decide))
      _ = (s.setReg48 Reg.BEAT_STEP_LO merged).reg48 Reg.BEAT_STEP_LO :=
        State.reg48_congr (apart _ (by decide)) (apart _ (by decide))
      _ = merged := (State.reg48_setReg48 s _ _).trans (Nat.mod_eq_of_lt hm)
  · calc (s.recordStep merged ofs).reg48 Reg.BEAT_STEP_OFS_LO
      _ = (s.stepWritten merged ofs).reg48 Reg.BEAT_STEP_OFS_LO := State.reg48_congr (counted _ (by decide)) (counted _ (by decide))
      _ = ofs := (State.reg48_setReg48 _ _ _).trans (Nat.mod_eq_of_lt ho)
  · have before : (s.stepWritten merged ofs).reg Reg.BEAT_STEP_COUNT = s.reg Reg.BEAT_STEP_COUNT :=
      (apart _ (by decide)).trans (State.setReg48_regs s _ _ _ (by decide))
    exact ((Counted.count _ _).after before).of_regs (s.recordStep_regs_eq merged ofs)

/-! ## The step -/

/-- The joining side stretches the beat in progress (R46). -/
def State.stretched (s : State) (m : Merge) : State :=
  if m.joining then { s with beat := { s.beat with length := s.beat.length + m.record.delta.toNat } } else s

theorem State.stretched_kept (s : State) (m : Merge) : (s.stretched m).regs = s.regs ∧ (s.stretched m).eng = s.eng ∧
    (s.stretched m).beat.commits = s.beat.commits := by
  unfold State.stretched
  split
  · exact ⟨rfl, rfl, rfl⟩
  · exact ⟨rfl, rfl, rfl⟩

theorem State.stepMerged_eq (s : State) (m : Merge) (big : Nat) : s.stepMerged m big =
    if m.joining || big - m.target != 0 then ((s.stretched m).renumber (big - m.target)).recordStep big (big - m.target)
    else (s.stretched m).renumber (big - m.target) := rfl

/-- What a step makes of the numbering, of the commits and of the anchor (R47). -/
theorem State.stepMerged_spec (s : State) (m : Merge) (big : Nat) :
    (s.stepMerged m big).beatNum = s.beatNum + BitVec.ofNat 48 (big - m.target) ∧
    (s.stepMerged m big).eng.anchor = s.eng.anchor + BitVec.ofNat 48 (big - m.target) ∧
    (s.stepMerged m big).beat.commits =
      s.beat.commits.map fun c => { c with target := c.target + BitVec.ofNat 48 (big - m.target) } := by
  obtain ⟨regs, eng, commits⟩ := s.stretched_kept m
  obtain ⟨number, -⟩ := (s.stretched m).renumber_regs (big - m.target)
  obtain ⟨targets, anchor⟩ := (s.stretched m).renumber_beat (big - m.target)
  have own : (s.stretched m).beatNum = s.beatNum := State.beatNum_congr (congrArg numWords regs)
  rw [own] at number
  rw [commits] at targets
  rw [eng] at anchor
  rw [State.stepMerged_eq]
  split
  · have recorded := State.recordStep_regs ((s.stretched m).renumber (big - m.target)) big (big - m.target)
    refine ⟨Eq.trans ?_ number, anchor, targets⟩
    exact congrArg (BitVec.ofNat 48) (State.reg48_congr (recorded _ (by decide)) (recorded _ (by decide)))
  · exact ⟨number, anchor, targets⟩

/-- A joining or a stepping side records its step. -/
theorem State.stepMerged_recorded {s : State} {m : Merge} {big : Nat} (small : big < 2 ^ 48)
    (steps : m.joining = true ∨ big - m.target ≠ 0) :
    (s.stepMerged m big).reg48 Reg.BEAT_STEP_LO = big ∧ (s.stepMerged m big).reg48 Reg.BEAT_STEP_OFS_LO = big - m.target ∧
    Counted Reg.BEAT_STEP_COUNT s (s.stepMerged m big) := by
  have taken : (m.joining || big - m.target != 0) = true := by
    rw [Bool.or_eq_true, bne_iff_ne]
    exact steps
  obtain ⟨regs, -, -⟩ := s.stretched_kept m
  obtain ⟨-, others⟩ := (s.stretched m).renumber_regs (big - m.target)
  obtain ⟨beat, offset, counted⟩ := ((s.stretched m).renumber (big - m.target)).recordStep_spec small
    (lt_of_le_of_lt (Nat.sub_le big m.target) small)
  rw [State.stepMerged_eq, if_pos taken]
  exact ⟨beat, offset, counted.after ((others _ (by decide) (by decide)).trans (State.reg_of_regs regs _))⟩

/-! ## The merged consist (R121, R123) -/

/-- The registers that the merged consist writes: those of the view, the epoch, and the counters of slots, epochs and merges. -/
def mergeRegs : List Nat :=
  viewRegs ++ [Reg.TOPO_SLOT_MOVES, Reg.TOPO_EPOCH_BEAT_LO, Reg.TOPO_EPOCH_BEAT_HI, Reg.TOPO_EPOCH_RAISES, Reg.TOPO_MERGES]

theorem viewRegs_subset : viewRegs ⊆ mergeRegs := List.subset_append_left _ _

theorem SameRegsBut.each {ks : List Nat} {α : Type} {f : State → α → State} (h : ∀ t a, SameRegsBut ks t (f t a)) (s : State)
    (l : List α) : SameRegsBut ks s (s.over l f) :=
  State.over_induction (I := SameRegsBut ks s) (.refl ks s) fun t a _ e => e.trans (h t a)

theorem State.takeSlot_regs (s : State) (l : List SlotAssign) : SameRegsBut mergeRegs s (s.takeSlot l) := by
  have adopted (k : BitVec 7) : SameRegsBut mergeRegs s (s.adoptSlot k) := (s.adoptSlot_regs k).mono viewRegs_subset
  unfold State.takeSlot
  split
  · exact .refl _ s
  · split
    · exact .refl _ s
    · split
      · exact adopted _
      · exact (adopted _).trans (.count (by decide) _)

theorem State.takeMergeSlots_regs (s : State) (m : Merge) : SameRegsBut mergeRegs s (s.takeMergeSlots m) := by
  unfold State.takeMergeSlots
  split
  · exact SameRegsBut.trans (t := s.moveSlots m.assigns) (.of_regs (by simp [State.moveSlots_keeps]) _) (State.takeSlot_regs _ _)
  · exact s.takeSlot_regs _

theorem State.raiseTo_regs (s : State) (pep : BitVec 4) (beat : Beat) : SameRegsBut mergeRegs s (s.raiseTo pep beat) := by
  have old : SameRegsBut mergeRegs s (s.setFld Reg.TOPO_STATUS 14 11 s.pep.toNat) := .setReg (by decide) s _
  have new : SameRegsBut mergeRegs (s.setFld Reg.TOPO_STATUS 14 11 s.pep.toNat)
      ((s.setFld Reg.TOPO_STATUS 14 11 s.pep.toNat).setFld Reg.TOPO_STATUS 10 7 pep.toNat) := .setReg (by decide) _ _
  have written : SameRegsBut mergeRegs s (s.epochWritten pep beat) :=
    (old.trans new).trans ((State.setReg48_regs _ Reg.TOPO_EPOCH_BEAT_LO _).mono (by decide))
  exact written.trans ((s.raiseTo_written pep beat).mono (by decide))

theorem State.leaveStep_regs (s : State) : SameRegsBut viewRegs s s.leaveStep := by
  unfold State.leaveStep
  split
  · split
    · exact s.becomeMaster_regs
    · exact .of_regs rfl _
  · exact .refl _ s

theorem State.leaveStep_commits (s : State) : s.leaveStep.beat.commits = s.beat.commits := by
  unfold State.leaveStep
  split
  · split
    · rw [State.becomeMaster_beat]
    · rfl
  · rfl

/-- The slots, the epoch, the count and the master of a merge. -/
def State.mergeLed (s : State) (m : Merge) (ms : List Merge) (beat : Nat) : State :=
  (((s.over ms State.takeMergeSlots).raiseTo m.record.pepNew (BitVec.ofNat 48 beat)).over ms
    fun s _ => s.count Reg.TOPO_MERGES).setMaster m.record.masterId

/-- No merge is held any more, and the consist is the merged one. -/
def State.mergeJoined (s : State) (all : List HubId) : State :=
  { s.setMerges [] with echo := { (s.setMerges []).echo with members := all, lost := [], away := [] } }

/-- What becomes of the announcement at the step. -/
def State.mergeAnnounced (s : State) (m : Merge) (ahead : Bool) (ofs : Nat) : State :=
  if m.joining then { s with echo := { s.echo with ann := none } }
  else if s.echo.master = Config.hubId then s.announce fun a => a.afterMerge m.record.pepNew ahead ofs
  else s

theorem State.merged_eq (s : State) (m : Merge) (ms : List Merge) (beat ofs : Nat) : s.merged m ms beat ofs =
    ((((s.mergeLed m ms beat).mergeJoined (s.mergedMembers ms)).mergeAnnounced m s.raiseAhead
      ofs).leaveStep.assignWhileForming.announceMove).sendEchoAll true := rfl

theorem State.mergeLed_regs (s : State) (m : Merge) (ms : List Merge) (beat : Nat) : SameRegsBut mergeRegs s (s.mergeLed m ms beat) := by
  have slots : SameRegsBut mergeRegs s (s.over ms State.takeMergeSlots) := .each State.takeMergeSlots_regs s ms
  have raised := slots.trans (State.raiseTo_regs _ m.record.pepNew (BitVec.ofNat 48 beat))
  have counted := raised.trans (SameRegsBut.each (f := fun s (_ : Merge) => s.count Reg.TOPO_MERGES) (fun t _ => .count (by decide) t) _ ms)
  exact counted.trans ((State.setMaster_regs _ _).mono viewRegs_subset)

theorem State.mergeLed_beat (s : State) (m : Merge) (ms : List Merge) (beat : Nat) : (s.mergeLed m ms beat).beat = s.beat := by
  simp [State.mergeLed, State.setMaster_keeps, State.raiseTo_keeps, State.takeMergeSlots_keeps]

theorem State.mergeAnnounced_kept (s : State) (m : Merge) (ahead : Bool) (ofs : Nat) :
    (s.mergeAnnounced m ahead ofs).regs = s.regs ∧ (s.mergeAnnounced m ahead ofs).beat = s.beat := by
  unfold State.mergeAnnounced
  split
  · exact ⟨rfl, rfl⟩
  · split
    · simp [State.announce_keeps]
    · exact ⟨rfl, rfl⟩

theorem State.merged_regs (s : State) (m : Merge) (ms : List Merge) (beat ofs : Nat) : SameRegsBut mergeRegs s (s.merged m ms beat ofs) := by
  have announced := ((s.mergeLed_regs m ms beat).of_regs_right (u := (s.mergeLed m ms beat).mergeJoined (s.mergedMembers ms)) rfl).of_regs_right
    (State.mergeAnnounced_kept _ m s.raiseAhead ofs).1
  have left := announced.trans ((State.leaveStep_regs _).mono viewRegs_subset)
  have assigned := left.trans ((State.assignWhileForming_regs _).mono viewRegs_subset)
  rw [State.merged_eq]
  exact assigned.of_regs_right ((State.sendEchoAll_regs _ true).trans (by simp [State.announceMove_keeps]))

theorem State.merged_commits (s : State) (m : Merge) (ms : List Merge) (beat ofs : Nat) :
    (s.merged m ms beat ofs).beat.commits = s.beat.commits := by
  have last (t : State) : ((t.assignWhileForming.announceMove).sendEchoAll true).beat = t.beat := by
    simp [State.sendEchoAll_keeps, State.announceMove_keeps, State.assignWhileForming_keeps]
  have joined (t : State) (all : List HubId) : (t.mergeJoined all).beat = t.beat := rfl
  rw [State.merged_eq, last, State.leaveStep_commits, (State.mergeAnnounced_kept _ m _ ofs).2, joined, State.mergeLed_beat]

theorem State.merged_anchor (s : State) (m : Merge) (ms : List Merge) (beat ofs : Nat) :
    (s.merged m ms beat ofs).eng.anchor = s.eng.anchor := by
  simp [State.merged_keeps]

/-! ## MERGE_STEP -/

/-- The one merge held, complete and at its step, is taken. -/
theorem exec_mergeStep {s : State} {m : Merge} (core : s.coreOn = true) (held : s.echo.merge = some m) (only : s.echo.more = [])
    (complete : m.complete = true) (now : s.beatNum.toNat + 1 = m.target) :
    exec .mergeStep s = .next (((s.stepMerged m (max m.record.s.toNat m.record.jn.toNat)).merged m [m]
      (max m.record.s.toNat m.record.jn.toNat) (max m.record.s.toNat m.record.jn.toNat - m.target)).refreshView s) := by
  have merges : s.merges = [m] := by simp [State.merges, held, only]
  have due : s.dueMerges = [m] := by
    have mine : (if s.merges.any (·.joining) then s.merges.filter (·.joining) else s.merges) = [m] := by
      rw [merges]
      cases joining : m.joining <;> simp [joining]
    simp only [State.dueMerges, mine, List.filter_singleton, now, beq_self_eq_true]
    rfl
  have taken : [m].filter (·.complete) = [m] := by simp [complete]
  have number : mergedNumber [m] = max m.record.s.toNat m.record.jn.toNat := by
    simp [mergedNumber, complete]
  simp only [exec, execMergeStep, State.whenCore_on core, due, taken, merges, number]
  rfl

/-- Settles O9: the role by the beat that it leaves, the epoch by its fields, the step by what it writes and what the merged consist
leaves of that. -/
theorem masterRoleMoves : Obligations.MasterRoleMoves := by
  intro s core
  refine ⟨fun pll runs timing elected still => ?_, fun due now named => ?_, fun due now new => ?_, fun paused => ?_, fun h raised late => ?_,
    fun m held only complete now => ?_⟩
  · refine ⟨_, exec_enterMaster core pll runs timing elected still, ?_⟩
    rw [State.refreshView_beat, State.becomeMaster_beat]
    exact ⟨rfl, rfl⟩
  · refine ⟨_, exec_masterMove core due now named, fun own => ⟨fun pll ready => ?_, fun not_ready => ?_⟩, fun other master => ?_⟩
    · have takes : (s.pllOn && s.beat.timing != .stepPending) = true := by
        rw [pll, bne_iff_ne.mpr ready]
        rfl
      rw [State.refreshView_beat, State.moveTaken_own own, if_pos takes, State.becomeMaster_beat]
      exact ⟨rfl, rfl⟩
    · have stays : ¬(s.pllOn && s.beat.timing != .stepPending) = true := by
        obtain h | h := not_ready <;> simp [h]
      rw [State.refreshView_beat, State.moveTaken_own own, if_neg stays]
    · rw [State.refreshView_beat]
      exact State.moveTaken_other other master
  · obtain ⟨pep, old, beat⟩ := s.raiseTo_fields s.annOr.pepNext s.annOr.epochBeat
    have split := (s.raiseTo s.annOr.pepNext s.annOr.epochBeat).countSplit_regs
    refine ⟨_, exec_epochRaise core due now new, (State.pep_congr (split _ (by decide))).trans pep, ?_,
      (State.reg48_congr (split _ (by decide)) (split _ (by decide))).trans beat, ?_, fun paused => ?_, .of_mem ?_⟩
    · rw [← old]
      simp only [State.fld, split Reg.TOPO_STATUS (by decide)]
    · rw [State.countSplit_raiseHead, State.raiseTo_echo]
    · have tun (t : State) : t.countSplit.tun = t.tun := by simp [State.countSplit_keeps]
      rw [tun]
      exact State.raiseTo_tun_paused paused _ _
    · simp [State.countSplit_keeps, State.raiseTo_keeps]
  · exact exec_enterMaster_paused core paused
  · exact ⟨_, exec_pepPrevWindowEnd core raised late, rfl, .of_regs rfl _, .of_mem rfl⟩
  · refine ⟨_, exec_mergeStep core held only complete now, ?_⟩
    have target : (if m.joining then m.record.jn.toNat else m.record.s.toNat) = m.target := rfl
    rw [target]
    have small : max m.record.s.toNat m.record.jn.toNat < 2 ^ 48 := max_lt m.record.s.isLt m.record.jn.isLt
    have kept := ((s.stepMerged m (max m.record.s.toNat m.record.jn.toNat)).merged_regs m [m] (max m.record.s.toNat m.record.jn.toNat)
      (max m.record.s.toNat m.record.jn.toNat - m.target)).trans ((State.refreshView_regs _ s).mono viewRegs_subset)
    obtain ⟨number, anchor, targets⟩ := s.stepMerged_spec m (max m.record.s.toNat m.record.jn.toNat)
    have eng (t : State) : (t.refreshView s).eng = t.eng := by simp [State.refreshView_keeps]
    refine ⟨?_, ?_, fun steps => ?_, ?_⟩
    · refine Eq.trans ?_ number
      exact congrArg (BitVec.ofNat 48) (State.reg48_congr (kept _ (by decide)) (kept _ (by decide)))
    · rw [eng, State.merged_anchor, anchor]
    · obtain ⟨beat, offset, counted⟩ := State.stepMerged_recorded (s := s) small steps
      exact ⟨(State.reg48_congr (kept _ (by decide)) (kept _ (by decide))).trans beat,
        (State.reg48_congr (kept _ (by decide)) (kept _ (by decide))).trans offset, counted.congr (kept _ (by decide))⟩
    · rw [State.refreshView_beat, State.merged_commits, targets]

end Sys2Proof.Machine
end

section
/-! The mapping table of Ethernet ports: the commands of TUN_MAP_CMD (R159, Table TUN-10). -/

namespace Sys2Proof.Machine

open Sys2Proof

/-! ## Command registers of the tunnels -/

/-- A write of a command register, which stores nothing of it, only acts; of the state it acts on, access control alone has changed. -/
theorem State.commandN_of_stores_nothing {s : State} {m : Master} {a : Nat} {r : RegRow} (inv : s.Inv) (takes : s.Takes m a)
    (row : regRow a = some r) (stores : r.Stores 0) (direct : a < 0x1000000) (aligned : a % 4 = 0) (other : a ≠ Reg.GLB_UNLOCK)
    (out : inWindow a = false) (n : Nat) :
    ∃ acc, s.commandN m a n = ({ s with acc := acc } : State).wrote m a (s.reg a) (s.reg a) (BitVec.ofNat 32 n) := by
  obtain ⟨acc, written⟩ := State.command_of_takes takes row stores direct aligned other out (BitVec.ofNat 32 n)
  have kept (w v : Word) : storedWord (BitVec.ofNat 32 (0 &&& 0xFFFFFFFF)) w v = w := BitVec.eq_of_getLsbD_eq fun i _ => by
    simp [-BitVec.getLsbD_eq_getElem, getLsbD_storedWord]
  have self : s.writes acc a 0 (BitVec.ofNat 32 n) = { s with acc := acc } := by
    rw [State.writes, kept]
    exact State.setReg_self { s with acc := acc } a inv.2
  exact ⟨acc, by rw [State.commandN, written, self, kept]⟩

/-- The row of TUN_MAP_CMD: one register for all masters that stores nothing of what is written. -/
def mapRow : RegRow := row 0x08006C [] [(.cmd, 0x80000003)] 0

theorem regRow_mapCmd : regRow Reg.TUN_MAP_CMD = some mapRow := by decide

/-- A write of TUN_MAP_CMD that its register takes is the command of its OP. -/
theorem State.commandN_mapCmd {s : State} {m : Master} (inv : s.Inv) (takes : s.Takes m Reg.TUN_MAP_CMD) {op : Nat} (known : op < 4) :
    ∃ acc, s.commandN m Reg.TUN_MAP_CMD op = ({ s with acc := acc } : State).mapCommand m op := by
  obtain ⟨acc, written⟩ := State.commandN_of_stores_nothing inv takes regRow_mapCmd ⟨rfl, rfl, rfl⟩ (by decide) (by decide) (by decide)
    (by decide) op
  have named : ∀ op < 4, bitsOf (BitVec.ofNat 32 op) 1 0 = op := by decide
  exact ⟨acc, written.trans (congrArg (State.mapCommand { s with acc := acc } m) (named op known))⟩

/-- A command of TUN_MAP_CMD and its OP (Table TUN-10). -/
def IsMapCommand (m : Master) (c : Instr) (op : Nat) : Prop :=
  (c = .tunMapAdd m ∧ op = 1) ∨ (c = .tunMapDelete m ∧ op = 2) ∨ (c = .tunMapLookup m ∧ op = 3)

theorem State.exec_mapCommand {s : State} {m : Master} {c : Instr} {op : Nat} (inv : s.Inv) (takes : s.Takes m Reg.TUN_MAP_CMD)
    (h : IsMapCommand m c op) : ∃ acc, exec c s = .next (({ s with acc := acc } : State).mapCommand m op) := by
  have known : op < 4 := by unfold IsMapCommand at h; omega
  obtain ⟨acc, written⟩ := State.commandN_mapCmd inv takes known
  have run : exec c s = .next (s.whenCore fun s => s.commandN m Reg.TUN_MAP_CMD op) := by
    rcases h with ⟨rfl, rfl⟩ | ⟨rfl, rfl⟩ | ⟨rfl, rfl⟩ <;> rfl
  exact ⟨acc, by rw [run, State.whenCore_on takes.1.1, written]⟩

/-! ## The three commands -/

/-- The entry of a master's key. -/
def State.mapped (s : State) (m : Master) : Option MapEntry := s.tun.map.find? fun e => e.hasKey (s.mapKey m)

/-- How many entries share the set of a master's key. -/
def State.mapSetUse (s : State) (m : Master) : Nat :=
  s.tun.map.countP fun e => keySet e.port e.mac e.vid == keySet (s.mapKey m).1 (s.mapKey m).2.1 (s.mapKey m).2.2

/-- The result of a mapping command in its master's TUN_MAP_RESULT. -/
def State.mapResult (s : State) (m : Master) (code : Nat) : State := s.setRegN (pmKey m Reg.TUN_MAP_RESULT) code

/-- The table without the entry of a master's key. -/
def State.unmapped (s : State) (m : Master) : List MapEntry := s.tun.map.filter fun x => !x.hasKey (s.mapKey m)

/-- The entry that a master has written for ADD. -/
def State.mapWritten (s : State) (m : Master) : MapEntry :=
  { port := (s.mapKey m).1, mac := (s.mapKey m).2.1, vid := (s.mapKey m).2.2
    ep := BitVec.ofNat 25 (bitsOf (s.reg (pmKey m Reg.TUN_MAP_VAL)) 24 0)
    tc := BitVec.ofNat 3 (bitsOf (s.reg (pmKey m Reg.TUN_MAP_VAL)) 27 25) }

/-- The hub with another mapping table. -/
def State.withMap (s : State) (l : List MapEntry) : State := { s with tun := { s.tun with map := l } }

section

variable {s : State} {m : Master} (vid : (s.mapKey m).2.2 ≠ 0xFFF)

include vid

theorem State.mapCommand_one (ep : bitsOf (s.reg (pmKey m Reg.TUN_MAP_VAL)) 24 0 ≠ 0) :
    s.mapCommand m 1 = if (s.mapped m).isNone && decide (4 ≤ s.mapSetUse m) then s.mapResult m 2
      else (s.withMap (s.unmapped m ++ [s.mapWritten m])).mapResult m 1 := by
  simp only [State.mapCommand, vid, ep, one_ne_zero, and_false, or_false, if_false, if_true]
  rfl

theorem State.mapCommand_add (ep : bitsOf (s.reg (pmKey m Reg.TUN_MAP_VAL)) 24 0 ≠ 0)
    (room : (s.mapped m).isSome = true ∨ s.mapSetUse m < 4) :
    s.mapCommand m 1 = (s.withMap (s.unmapped m ++ [s.mapWritten m])).mapResult m 1 := by
  have takes : ((s.mapped m).isNone && decide (4 ≤ s.mapSetUse m)) = false := by
    rcases room with found | few
    · simp [Option.isNone_eq_false_iff.mpr found]
    · simp [Nat.not_le.mpr few]
  rw [State.mapCommand_one vid ep, takes, if_neg Bool.false_ne_true]

theorem State.mapCommand_full (ep : bitsOf (s.reg (pmKey m Reg.TUN_MAP_VAL)) 24 0 ≠ 0) (new : s.mapped m = none)
    (full : 4 ≤ s.mapSetUse m) : s.mapCommand m 1 = s.mapResult m 2 := by
  rw [State.mapCommand_one vid ep, new, decide_eq_true full]
  rfl

theorem State.mapCommand_delete {e : MapEntry} (found : s.mapped m = some e) :
    s.mapCommand m 2 = (s.withMap (s.unmapped m)).mapResult m 1 := by
  simp only [State.mapped] at found
  simp only [State.mapCommand, vid, found, two_ne_zero, OfNat.ofNat_ne_one, false_and, or_false, if_false, if_true]
  rfl

theorem State.mapCommand_lookup {e : MapEntry} (found : s.mapped m = some e) :
    s.mapCommand m 3 = (s.setRegN (pmKey m Reg.TUN_MAP_VAL) (e.ep.toNat + e.tc.toNat * 2 ^ 25)).mapResult m 1 := by
  simp only [State.mapped] at found
  simp only [State.mapCommand, vid, found, three_ne_zero, OfNat.ofNat_ne_one, false_and, or_false, if_false, Nat.reduceEqDiff]
  rfl

theorem State.mapCommand_notFound {op : Nat} (named : op = 2 ∨ op = 3) (missing : s.mapped m = none) :
    s.mapCommand m op = s.mapResult m 3 := by
  have other : op ≠ 0 ∧ op ≠ 1 := by omega
  simp only [State.mapped] at missing
  simp only [State.mapCommand, vid, other, missing, false_and, or_false, if_false]
  rfl

end

/-- A result is the whole answer in registers, tables and memory, where what changed before it was of none but the tables. -/
theorem State.mapResult_answers {s t : State} (regs : t.regs = s.regs) (mem : t.mem = s.mem) (m : Master) (code : Nat) :
    (t.mapResult m code).reg (pmKey m Reg.TUN_MAP_RESULT) = BitVec.ofNat 32 code ∧ (t.mapResult m code).tun = t.tun ∧
      SameRegsBut [pmKey m Reg.TUN_MAP_RESULT] s (t.mapResult m code) ∧ SameMemory s (t.mapResult m code) :=
  ⟨State.reg_setReg_same .., by simp [State.mapResult], (SameRegsBut.of_regs regs _).trans (.setReg (List.mem_singleton_self _) _ _),
    .of_mem (by simp [State.mapResult, mem])⟩

theorem pmKey_val_ne_result (m : Master) : pmKey m Reg.TUN_MAP_VAL ≠ pmKey m Reg.TUN_MAP_RESULT := by
  simp only [pmKey, Reg.TUN_MAP_VAL, Reg.TUN_MAP_RESULT]; omega

/-- Settles O34: each command is its branch of Table TUN-10, and its result the only register that it writes beside TUN_MAP_VAL. -/
theorem mappingCommands : Obligations.MappingCommands := by
  intro s m inv takes vid
  refine ⟨fun ep => ?_, fun e found => ⟨?_, ?_⟩, fun missing c named => ?_⟩
  · obtain ⟨acc, run⟩ := State.exec_mapCommand inv takes (.inl ⟨rfl, rfl⟩)
    by_cases room : (s.mapped m).isSome = true ∨ s.mapSetUse m < 4
    · rw [State.mapCommand_add (s := { s with acc := acc }) vid ep room] at run
      obtain ⟨result, tun, regs, mem⟩ := State.mapResult_answers (s := s)
        (t := ({ s with acc := acc } : State).withMap (s.unmapped m ++ [s.mapWritten m])) rfl rfl m 1
      refine ⟨_, run, regs, mem, fun _ => ⟨result, congrArg TunnelState.map tun⟩, fun new full => ?_⟩
      have absent : s.mapped m = none := new
      exact absurd room (by simp [absent, State.mapSetUse, full])
    · obtain ⟨new, full⟩ := not_or.mp room
      rw [State.mapCommand_full (s := { s with acc := acc }) vid ep (Option.not_isSome_iff_eq_none.mp new) (Nat.not_lt.mp full)] at run
      obtain ⟨result, tun, regs, mem⟩ := State.mapResult_answers (s := s) (t := { s with acc := acc }) rfl rfl m 2
      exact ⟨_, run, regs, mem, fun room' => absurd room' room, fun _ _ => ⟨result, tun⟩⟩
  · obtain ⟨acc, run⟩ := State.exec_mapCommand inv takes (.inr (.inl ⟨rfl, rfl⟩))
    rw [State.mapCommand_delete (s := { s with acc := acc }) vid found] at run
    obtain ⟨result, tun, regs, mem⟩ := State.mapResult_answers (s := s)
      (t := ({ s with acc := acc } : State).withMap (s.unmapped m)) rfl rfl m 1
    exact ⟨_, run, result, congrArg TunnelState.map tun, regs, mem⟩
  · obtain ⟨acc, run⟩ := State.exec_mapCommand inv takes (.inr (.inr ⟨rfl, rfl⟩))
    rw [State.mapCommand_lookup (s := { s with acc := acc }) vid found] at run
    refine ⟨_, run, State.reg_setReg_same .., ?_, by simp [State.mapResult], ?_, .of_mem (by simp [State.mapResult])⟩
    · rw [State.mapResult, State.setRegN, State.reg_setReg_other (pmKey_val_ne_result m)]
      exact State.reg_setReg_same ..
    · exact (SameRegsBut.setReg (by simp) s _).trans (.setReg (by simp) _ _)
  · have op : ∃ op, IsMapCommand m c op ∧ (op = 2 ∨ op = 3) := by
      rcases named with rfl | rfl
      · exact ⟨2, .inr (.inl ⟨rfl, rfl⟩), .inl rfl⟩
      · exact ⟨3, .inr (.inr ⟨rfl, rfl⟩), .inr rfl⟩
    obtain ⟨op, command, finds⟩ := op
    obtain ⟨acc, run⟩ := State.exec_mapCommand inv takes command
    rw [State.mapCommand_notFound (s := { s with acc := acc }) vid finds missing] at run
    obtain ⟨result, tun, regs, mem⟩ := State.mapResult_answers (s := s) (t := { s with acc := acc }) rfl rfl m 3
    exact ⟨_, run, result, tun, regs, mem⟩

end Sys2Proof.Machine
end

section
/-! An entry of the endpoint table as the cache and Sump hold it (R145, R147): what each operation makes of the entry that the hub sees. -/

namespace Sys2Proof.Machine

open Sys2Proof

/-! ## The two halves of an entry -/

@[simp] theorem EpEntry.hotOver_self (e : EpEntry) : e.hotOver e = e := rfl

@[simp] theorem EpEntry.hotOver_hotOver (e x : EpEntry) : e.hotOver (x.hotOver e) = e := rfl

/-! ## The entry that a line holds -/

/-- The entry of an identifier in the cache, if a line holds it. -/
def State.lineEntry (s : State) (ep : EpId) : Option EpEntry := (s.cacheLine ep).map (·.entry)

theorem State.lineEntry_isSome (s : State) (ep : EpId) : (s.lineEntry ep).isSome = (s.cacheLine ep).isSome := Option.isSome_map

theorem State.lineEntry_eq_none {s : State} {ep : EpId} : s.lineEntry ep = none ↔ s.cacheLine ep = none := Option.map_eq_none_iff

/-- With Sump ready the hub sees the hot half of the line, where one holds the entry, over the cold half in Sump. -/
theorem State.epNow_of_line {s : State} {ep : EpId} {e : EpEntry} (ready : s.sumpReady = true) (line : s.lineEntry ep = some e) :
    s.epNow ep = e.hotOver (s.tableEntry ep) := by
  obtain ⟨l, held, rfl⟩ := Option.map_eq_some_iff.mp line
  simp [State.epNow, State.peekEntry, held, ready]

theorem State.epNow_of_table {s : State} {ep : EpId} (ready : s.sumpReady = true) (line : s.lineEntry ep = none) :
    s.epNow ep = s.tableEntry ep := by
  simp [State.epNow, State.peekEntry, State.lineEntry_eq_none.mp line, ready]

/-- Lines that keep their identifiers under a change hold the entries that it gives them. -/
theorem find_line_map {f : CacheLine → CacheLine} (h : ∀ l, (f l).ep = l.ep) (ls : List CacheLine) (ep : EpId) :
    (ls.map f).find? (fun l => l.ep == ep) = (ls.find? fun l => l.ep == ep).map f := by
  simp only [List.find?_map, Function.comp_def, h]

theorem State.touch_lineEntry (s : State) (k ep : EpId) : (s.touch k).lineEntry ep = s.lineEntry ep := by
  unfold State.lineEntry State.cacheLine State.touch
  dsimp only
  rw [find_line_map fun l => by split_ifs <;> rfl, Option.map_map]
  congr 1
  funext l
  dsimp only [Function.comp_def]
  split_ifs <;> rfl

theorem State.setEntry_lineEntry {s : State} {ep : EpId} (cached : (s.cacheLine ep).isSome = true) (e : EpEntry) :
    (s.setEntry ep e).lineEntry ep = some e := by
  obtain ⟨l, held⟩ := Option.isSome_iff_exists.mp cached
  have named : l.ep = ep := by simpa using List.find?_some held
  simp only [State.setEntry, held, State.lineEntry]
  unfold State.cacheLine at held ⊢
  rw [find_line_map fun l => by split_ifs <;> rfl, held]
  simp [named]

theorem State.setEntry_tableEntry {s : State} {ep : EpId} (cached : (s.cacheLine ep).isSome = true) (e : EpEntry) (k : EpId) :
    (s.setEntry ep e).tableEntry k = s.tableEntry k := by
  obtain ⟨l, held⟩ := Option.isSome_iff_exists.mp cached
  simp only [State.setEntry, held]
  rfl

/-! ## The entry in Sump -/

theorem State.setTable_tableEntry_same (s : State) (ep : EpId) (e : EpEntry) : (s.setTable ep e).tableEntry ep = e :=
  Store.get_set_same ..

theorem State.setTable_tableEntry_other {ep k : EpId} (h : k ≠ ep) (s : State) (e : EpEntry) :
    (s.setTable ep e).tableEntry k = s.tableEntry k :=
  Store.get_set_other (mt BitVec.eq_of_toNat_eq h) ..

theorem State.setTable_lineEntry (s : State) (ep k : EpId) (e : EpEntry) : (s.setTable ep e).lineEntry k = s.lineEntry k := rfl

/-! ## A line that comes in (R147) -/

/-- The cache with one more line. -/
def State.withLine (s : State) (l : CacheLine) : State := { s with tun := { s.tun with cache := s.tun.cache ++ [l] } }

theorem State.withLine_lineEntry {s : State} {l : CacheLine} (new : s.cacheLine l.ep = none) :
    (s.withLine l).lineEntry l.ep = some l.entry := by
  unfold State.cacheLine at new
  simp [State.lineEntry, State.cacheLine, State.withLine, List.find?_append, new]

/-- A line that gives way touches neither the line nor the stored entry of another identifier. -/
theorem State.evict_other {s : State} {l : CacheLine} {ep : EpId} (h : l.ep ≠ ep) :
    (s.evict l).cacheLine ep = s.cacheLine ep ∧ (s.evict l).tableEntry ep = s.tableEntry ep := by
  have line : (s.tun.cache.filter fun x => x.ep != l.ep).find? (fun x => x.ep == ep) = s.tun.cache.find? fun x => x.ep == ep := by
    rw [List.find?_filter]
    congr 1
    funext x
    by_cases e : x.ep = ep
    · simp [e, h.symm]
    · simp [e]
  unfold State.evict
  dsimp only
  split
  · exact ⟨line, State.setTable_tableEntry_other h.symm _ _⟩
  · exact ⟨line, rfl⟩

/-- Where an entry that no line holds is to be cached, a victim is a line of another entry. -/
theorem State.victim_other {s : State} {ep : EpId} {l : CacheLine} (new : s.cacheLine ep = none) (h : l ∈ s.victims ep) : l.ep ≠ ep := by
  have cached : l ∈ s.tun.cache := by
    unfold State.victims at h
    dsimp only at h
    split at h
    · exact List.mem_of_mem_filter (List.mem_of_mem_filter h)
    · exact List.mem_of_mem_filter h
  simpa using List.find?_eq_none.mp new l cached

/-- The line that a filled entry stands in. -/
def State.filledLine (s : State) (ep : EpId) (e : EpEntry) : State := (s.withLine { ep := ep, entry := e, recent := true }).touch ep

theorem State.filledLine_spec {s : State} {ep : EpId} (new : s.cacheLine ep = none) (e : EpEntry) :
    (s.filledLine ep e).lineEntry ep = some e ∧ (s.filledLine ep e).tableEntry ep = s.tableEntry ep :=
  ⟨(State.touch_lineEntry ..).trans (State.withLine_lineEntry (l := ⟨ep, e, true⟩) new), rfl⟩

/-- A set with a free way takes the entry. -/
theorem State.fillCache_of_room {s : State} {ep : EpId} (new : s.cacheLine ep = none)
    (room : (s.tun.cache.countP fun l => cacheSet l.ep == cacheSet ep) < 16) (e : EpEntry) : s.fillCache ep e = s.filledLine ep e := by
  simp only [State.fillCache, new, room, Option.isSome_none, Bool.false_eq_true, if_false, if_true, true_or]
  rfl

/-- In a full set the entry comes in for a victim, or not at all. -/
theorem State.fillCache_of_full {s : State} {ep : EpId} (new : s.cacheLine ep = none)
    (full : ¬(s.tun.cache.countP fun l => cacheSet l.ep == cacheSet ep) < 16) (e : EpEntry) :
    ∃ t, (t = s ∨ ∃ l ∈ s.victims ep, t = s.drawn.evict l) ∧ (s.fillCache ep e = t.filledLine ep e ∨ s.fillCache ep e = t) := by
  simp only [State.fillCache, new, full, Option.isSome_none, Bool.false_eq_true, if_false, false_or]
  cases chosen : (s.victims ep)[s.free % max 1 (s.victims ep).length]? with
  | none => exact ⟨s, .inl rfl, by split_ifs <;> simp [State.filledLine, State.withLine]⟩
  | some l => exact ⟨_, .inr ⟨l, List.mem_of_getElem? chosen, rfl⟩, by split_ifs <;> simp [State.filledLine, State.withLine]⟩

/-- An entry that is to be cached stands in a line afterwards, or in none where no way gives way; Sump keeps its copy. -/
theorem State.fillCache_new {s : State} {ep : EpId} (new : s.cacheLine ep = none) (e : EpEntry) :
    ((s.fillCache ep e).lineEntry ep = none ∨ (s.fillCache ep e).lineEntry ep = some e) ∧
      (s.fillCache ep e).tableEntry ep = s.tableEntry ep := by
  by_cases room : (s.tun.cache.countP fun l => cacheSet l.ep == cacheSet ep) < 16
  · rw [State.fillCache_of_room new room]
    exact (State.filledLine_spec new e).imp_left .inr
  · obtain ⟨t, origin, filled⟩ := State.fillCache_of_full new room e
    have kept : t.cacheLine ep = none ∧ t.tableEntry ep = s.tableEntry ep := by
      rcases origin with rfl | ⟨l, victim, rfl⟩
      · exact ⟨new, rfl⟩
      · obtain ⟨line, table⟩ := State.evict_other (s := s.drawn) (State.victim_other new victim)
        exact ⟨line.trans new, table⟩
    obtain ⟨absent, table⟩ := kept
    rcases filled with filled | filled <;> rw [filled]
    · exact ⟨.inr (State.filledLine_spec absent e).1, (State.filledLine_spec absent e).2.trans table⟩
    · exact ⟨.inl (State.lineEntry_eq_none.mpr absent), table⟩

/-! ## An entry that a command changes (R145, R147) -/

theorem State.sumpReady_congr {s t : State} (h : t.regs = s.regs) : t.sumpReady = s.sumpReady := by
  simp only [State.sumpReady, State.bit, State.reg, h]

/-- The stored copy of an entry has no error any more (R184). -/
def State.mended (s : State) (ep : EpId) : State :=
  { s with tun := { s.tun with poison := s.tun.poison.filter fun x => x != ep } }

/-- With Sump ready, the hub sees a changed entry as it was written. -/
theorem State.epNow_writeEntry {s : State} (ready : s.sumpReady = true) (ep : EpId) (e : EpEntry) :
    (s.writeEntry ep e).epNow ep = e := by
  have ready' : (s.writeEntry ep e).sumpReady = true :=
    (State.sumpReady_congr (by simp [State.writeEntry_keeps])).trans ready
  cases cached : (s.cacheLine ep).isSome with
  | true =>
    have written (x : EpEntry) : (((s.setTable ep x).mended ep).setEntry ep e).lineEntry ep = some e ∧
        (((s.setTable ep x).mended ep).setEntry ep e).tableEntry ep = x :=
      ⟨State.setEntry_lineEntry (s := (s.setTable ep x).mended ep) cached e,
        (State.setEntry_tableEntry (s := (s.setTable ep x).mended ep) cached e ep).trans (s.setTable_tableEntry_same ep x)⟩
    have cold : ∃ x, s.writeEntry ep e = ((s.setTable ep x).mended ep).setEntry ep e ∧ e.hotOver x = e := by
      simp only [State.writeEntry, ready, cached, Bool.true_and, if_true]
      split
      · exact ⟨_, rfl, EpEntry.hotOver_hotOver ..⟩
      · exact ⟨_, rfl, EpEntry.hotOver_self _⟩
    obtain ⟨x, done, seen⟩ := cold
    obtain ⟨line, table⟩ := written x
    rw [State.epNow_of_line ready' (done ▸ line), done, table, seen]
  | false =>
    have new : ((s.setTable ep e).mended ep).cacheLine ep = none := Option.isSome_eq_false_iff.mp cached |> Option.isNone_iff_eq_none.mp
    have stored : ((s.setTable ep e).mended ep).tableEntry ep = e := State.setTable_tableEntry_same ..
    have done : s.writeEntry ep e = if e.pin then ((s.setTable ep e).mended ep).fillCache ep e else (s.setTable ep e).mended ep := by
      simp only [State.writeEntry, ready, cached, Bool.false_and, Bool.false_eq_true, if_true, if_false]
      rfl
    have seen : ((s.writeEntry ep e).lineEntry ep = none ∨ (s.writeEntry ep e).lineEntry ep = some e) ∧
        (s.writeEntry ep e).tableEntry ep = e := by
      rw [done]
      split
      · obtain ⟨line, table⟩ := State.fillCache_new new e
        exact ⟨line, table.trans stored⟩
      · exact ⟨.inl (State.lineEntry_eq_none.mpr new), stored⟩
    obtain ⟨line | line, table⟩ := seen
    · rw [State.epNow_of_table ready' line, table]
    · rw [State.epNow_of_line ready' line, table, EpEntry.hotOver_self]

end Sys2Proof.Machine
end

section
/-! The commands of TUN_EP_CMD (R145, R154, R161, Tables TUN-8 and TUN-13). -/

namespace Sys2Proof.Machine

open Sys2Proof

/-! ## From the write of TUN_EP_CMD to the command -/

/-- The row of TUN_EP_CMD: one register for all masters that stores nothing of what is written. -/
def epRow : RegRow := row 0x080054 [] [(.cmd, 0x8000000F)] 0

theorem regRow_epCmd : regRow Reg.TUN_EP_CMD = some epRow := by decide

/-- A write of TUN_EP_CMD that its register takes is the command of its OP. -/
theorem State.commandN_epCmd {s : State} {m : Master} (inv : s.Inv) (takes : s.Takes m Reg.TUN_EP_CMD) {op : Nat} (known : op < 8) :
    ∃ acc, s.commandN m Reg.TUN_EP_CMD op = ({ s with acc := acc } : State).epCommand m op := by
  obtain ⟨acc, written⟩ := State.commandN_of_stores_nothing inv takes regRow_epCmd ⟨rfl, rfl, rfl⟩ (by decide) (by decide) (by decide)
    (by decide) op
  have named : ∀ op < 8, bitsOf (BitVec.ofNat 32 op) 3 0 = op := by decide
  exact ⟨acc, written.trans (congrArg (State.epCommand { s with acc := acc } m) (named op known))⟩

/-- A command of TUN_EP_CMD and its OP (Table TUN-8). -/
def IsEpCommand (m : Master) (c : Instr) (op : Nat) : Prop :=
  (c = .epRead m ∧ op = 1) ∨ (c = .epWrite m ∧ op = 2) ∨ (c = .epWriteKeep m ∧ op = 3) ∨ (c = .epPin m ∧ op = 4) ∨
    (c = .epUnpin m ∧ op = 5) ∨ (c = .epRevoke m ∧ op = 6) ∨ (c = .epInvalidate m ∧ op = 7)

theorem IsEpCommand.op_lt {m : Master} {c : Instr} {op : Nat} (h : IsEpCommand m c op) : 0 < op ∧ op < 8 := by
  unfold IsEpCommand at h
  omega

theorem State.exec_epCommand {s : State} {m : Master} {c : Instr} {op : Nat} (inv : s.Inv) (takes : s.Takes m Reg.TUN_EP_CMD)
    (h : IsEpCommand m c op) : ∃ acc, exec c s = .next (({ s with acc := acc } : State).epCommand m op) := by
  obtain ⟨acc, written⟩ := State.commandN_epCmd inv takes h.op_lt.2
  have run : exec c s = .next (s.whenCore fun s => s.commandN m Reg.TUN_EP_CMD op) := by
    rcases h with ⟨rfl, rfl⟩ | ⟨rfl, rfl⟩ | ⟨rfl, rfl⟩ | ⟨rfl, rfl⟩ | ⟨rfl, rfl⟩ | ⟨rfl, rfl⟩ | ⟨rfl, rfl⟩ <;> rfl
  exact ⟨acc, by rw [run, State.whenCore_on takes.1.1, written]⟩

/-! ## What a command does by its code -/

/-- The result of a command, with the GEN after it, in its master's TUN_EP_RESULT. -/
def State.epResult (s : State) (m : Master) (code : Nat) (gen : BitVec 8) : State :=
  s.setRegN (pmKey m Reg.TUN_EP_RESULT) (code + 16 * gen.toNat)

/-- The first n words of an entry in a master's TUN_EPW. -/
def State.epCopied (s : State) (m : Master) (e : EpEntry) (n : Nat) : State :=
  s.over (List.range n) fun s i => s.setReg (pmKey m (Reg.TUN_EPW i)) (e.word i)

/-- The entry that a command leaves which changes it. -/
def State.epNext (s : State) (m : Master) (op : Nat) : EpEntry :=
  { s.epChanged m op (s.epNow (s.epSel m)) with
    gen := (s.epNow (s.epSel m)).gen + 1, cmdBeat := s.beatNum, cmdMaster := BitVec.ofNat 6 m.val }

/-- The entries changed of late, the one of a command the last of them. -/
def State.epNoted (s : State) (ep : EpId) (changed : List (EpId × Nat)) (heads : Nat) : State :=
  { s with tun := { s.tun with changed := (changed.filter fun c => c.1 != ep && decide (heads < c.2 + 16)) ++ [(ep, heads)] } }

/-- The table after a command that changes its entry. -/
def State.epApplied (s : State) (m : Master) (op : Nat) : State :=
  let t := (s.writeEntry (s.epSel m) (s.epNext m op)).dropUnpinned (s.epSel m)
  t.epNoted (s.epSel m) t.tun.changed s.heads

theorem State.epCommand_of_refused {s : State} {m : Master} {op : Nat} (acts : op ≠ 0) (refused : s.epCode m op ≠ 1) :
    s.epCommand m op = s.epResult m (s.epCode m op) (s.epNow (s.epSel m)).gen := by
  simp only [State.epCommand, acts, refused, if_false, ne_eq, not_false_eq_true, if_true]
  rfl

theorem State.epCommand_of_read {s : State} {m : Master} (ok : s.epCode m 1 = 1) :
    s.epCommand m 1 = (s.epCopied m (s.epNow (s.epSel m)) 16).epResult m 1 (s.epNow (s.epSel m)).gen := by
  simp only [State.epCommand, one_ne_zero, ok, ne_eq, not_true_eq_false, if_false, if_true]
  rfl

theorem State.epCommand_of_change {s : State} {m : Master} {op : Nat} (writes : 2 ≤ op) (ok : s.epCode m op = 1)
    (changes : s.epChanged m op (s.epNow (s.epSel m)) ≠ s.epNow (s.epSel m)) :
    s.epCommand m op = (s.epApplied m op).epResult m 1 ((s.epNow (s.epSel m)).gen + 1) := by
  have other : op ≠ 0 ∧ op ≠ 1 := by omega
  simp only [State.epCommand, other, ok, changes, ne_eq, not_true_eq_false, if_false]
  rfl

/-! ## The registers -/

theorem pmKey_epw_inj {m : Master} {i j : Nat} (h : pmKey m (Reg.TUN_EPW i) = pmKey m (Reg.TUN_EPW j)) : i = j := by
  simp only [pmKey, Reg.TUN_EPW] at h; omega

theorem pmKey_epw_ne_result (m : Master) {i : Nat} (h : i < 16) : pmKey m (Reg.TUN_EPW i) ≠ pmKey m Reg.TUN_EP_RESULT := by
  simp only [pmKey, Reg.TUN_EPW, Reg.TUN_EP_RESULT]; omega

theorem State.epCopied_keeps (s : State) (m : Master) (e : EpEntry) (n : Nat) :
    (s.epCopied m e n).tun = s.tun ∧ (s.epCopied m e n).mem = s.mem := by
  simp [State.epCopied]

/-- TUN_EPW holds the words copied. -/
theorem State.epw_epCopied (s : State) (m : Master) (e : EpEntry) {n i : Nat} (h : i < n) : (s.epCopied m e n).epw m i = e.word i := by
  induction n with
  | zero => omega
  | succ n ih =>
    have last : s.epCopied m e (n + 1) = (s.epCopied m e n).setReg (pmKey m (Reg.TUN_EPW n)) (e.word n) := by
      simp [State.epCopied, State.over, List.range_succ]
    rw [State.epw, last, State.reg_setReg]
    split
    · rename_i same
      rw [pmKey_epw_inj same]
    · rename_i other
      exact ih (by have : i ≠ n := fun e => other (e ▸ rfl); omega)

theorem State.epResult_keeps (s : State) (m : Master) (code : Nat) (gen : BitVec 8) :
    (s.epResult m code gen).tun = s.tun ∧ (s.epResult m code gen).mem = s.mem := by
  simp [State.epResult]

theorem State.epResult_reg (s : State) (m : Master) (code : Nat) (gen : BitVec 8) :
    (s.epResult m code gen).reg (pmKey m Reg.TUN_EP_RESULT) = BitVec.ofNat 32 (code + 16 * gen.toNat) := State.reg_setReg_same ..

theorem State.epResult_regsBut {s t : State} (h : t.regs = s.regs) (m : Master) (code : Nat) (gen : BitVec 8) :
    SameRegsBut [pmKey m Reg.TUN_EP_RESULT] s (t.epResult m code gen) :=
  (SameRegsBut.of_regs h _).trans (.setReg (List.mem_singleton_self _) _ _)

theorem State.epResult_epNow (s : State) (m : Master) (code : Nat) (gen : BitVec 8) (ep : EpId) :
    (s.epResult m code gen).epNow ep = s.epNow ep := by
  have status : Reg.SUMP_STATUS ≠ pmKey m Reg.TUN_EP_RESULT := by simp only [pmKey, Reg.SUMP_STATUS, Reg.TUN_EP_RESULT]; omega
  have ready : (s.epResult m code gen).sumpReady = s.sumpReady := by
    simp only [State.sumpReady, State.bit, State.epResult, State.setRegN, State.reg_setReg_other status]
  simp only [State.epNow, State.peekEntry, State.cacheLine, State.tableEntry, ready, (s.epResult_keeps m code gen).1]

/-! ## The table -/

theorem State.epApplied_keeps (s : State) (m : Master) (op : Nat) :
    (s.epApplied m op).regs = s.regs ∧ (s.epApplied m op).mem = s.mem := by
  simp [State.epApplied, State.epNoted, State.writeEntry_keeps, State.dropUnpinned_keeps]

/-- With Sump ready the hub sees the entry that the command leaves. -/
theorem State.epNow_epApplied {s : State} (ready : s.sumpReady = true) (m : Master) (op : Nat) :
    (s.epApplied m op).epNow (s.epSel m) = s.epNext m op := by
  have ready' : (s.writeEntry (s.epSel m) (s.epNext m op)).sumpReady = true :=
    (State.sumpReady_congr (by simp [State.writeEntry_keeps])).trans ready
  have stays : (s.writeEntry (s.epSel m) (s.epNext m op)).dropUnpinned (s.epSel m) = s.writeEntry (s.epSel m) (s.epNext m op) := by
    rw [State.dropUnpinned, if_pos ready']
  rw [← State.epNow_writeEntry ready (s.epSel m) (s.epNext m op), State.epApplied, stays]
  rfl

/-! ## The answers -/

/-- READ answers by its code, and copies the entry where that is OK. -/
theorem State.epCommand_read (s : State) (m : Master) :
    (s.epCommand m 1).tun = s.tun ∧
      (s.epCommand m 1).reg (pmKey m Reg.TUN_EP_RESULT) = BitVec.ofNat 32 (s.epCode m 1 + 16 * (s.epNow (s.epSel m)).gen.toNat) ∧
      (s.epCode m 1 = 1 → ∀ i, i < 16 → (s.epCommand m 1).epw m i = (s.epNow (s.epSel m)).word i) ∧
      SameMemory s (s.epCommand m 1) := by
  by_cases ok : s.epCode m 1 = 1
  · obtain ⟨tun, mem⟩ := s.epCopied_keeps m (s.epNow (s.epSel m)) 16
    rw [State.epCommand_of_read ok, ok]
    refine ⟨(State.epResult_keeps ..).1.trans tun, State.epResult_reg .., fun _ i small => ?_,
      .of_mem ((State.epResult_keeps ..).2.trans mem)⟩
    rw [State.epw, State.epResult, State.setRegN, State.reg_setReg_other (pmKey_epw_ne_result m small)]
    exact State.epw_epCopied _ m _ small
  · rw [State.epCommand_of_refused one_ne_zero ok]
    exact ⟨(State.epResult_keeps ..).1, State.epResult_reg .., fun ok' => absurd ok' ok, .of_mem (State.epResult_keeps ..).2⟩

/-- A command with another code than OK answers with it, and nothing else changes. -/
theorem State.epCommand_refused {s : State} {m : Master} {op : Nat} (acts : op ≠ 0) (refused : s.epCode m op ≠ 1) :
    (s.epCommand m op).tun = s.tun ∧
      (s.epCommand m op).reg (pmKey m Reg.TUN_EP_RESULT) = BitVec.ofNat 32 (s.epCode m op + 16 * (s.epNow (s.epSel m)).gen.toNat) ∧
      SameRegsBut [pmKey m Reg.TUN_EP_RESULT] s (s.epCommand m op) ∧ SameMemory s (s.epCommand m op) := by
  rw [State.epCommand_of_refused acts refused]
  exact ⟨(State.epResult_keeps ..).1, State.epResult_reg .., State.epResult_regsBut rfl _ _ _, .of_mem (State.epResult_keeps ..).2⟩

/-- A command that changes its entry leaves it so, with the GEN after it in the result. -/
theorem State.epCommand_changed {s : State} {m : Master} {op : Nat} (writes : 2 ≤ op) (ok : s.epCode m op = 1)
    (ready : s.sumpReady = true) (changes : s.epChanged m op (s.epNow (s.epSel m)) ≠ s.epNow (s.epSel m)) :
    (s.epCommand m op).epNow (s.epSel m) = s.epNext m op ∧
      (s.epCommand m op).reg (pmKey m Reg.TUN_EP_RESULT) = BitVec.ofNat 32 (1 + 16 * ((s.epNow (s.epSel m)).gen + 1).toNat) ∧
      SameRegsBut [pmKey m Reg.TUN_EP_RESULT] s (s.epCommand m op) ∧ SameMemory s (s.epCommand m op) := by
  obtain ⟨regs, mem⟩ := s.epApplied_keeps m op
  rw [State.epCommand_of_change writes ok changes]
  refine ⟨?_, State.epResult_reg .., State.epResult_regsBut regs _ _ _, .of_mem ((State.epResult_keeps ..).2.trans mem)⟩
  rw [State.epResult_epNow, State.epNow_epApplied ready]

/-- Settles O33: each command is its master's OP, and answers by its code: READ copies, the others write the entry or nothing. -/
theorem endpointCommands : Obligations.EndpointCommands := by
  intro s m inv takes
  refine ⟨?_, fun c op named => ?_⟩
  · obtain ⟨acc, run⟩ := State.exec_epCommand inv takes (.inl ⟨rfl, rfl⟩)
    exact ⟨_, run, State.epCommand_read { s with acc := acc } m⟩
  · have writes : 2 ≤ op := by omega
    obtain ⟨acc, run⟩ := State.exec_epCommand inv takes (.inr named)
    refine ⟨fun refused => ⟨_, run, State.epCommand_refused (s := { s with acc := acc }) (by omega) refused⟩,
      fun ok ready changes => ?_⟩
    obtain ⟨seen, answer⟩ := State.epCommand_changed (s := { s with acc := acc }) writes ok ready changes
    refine ⟨_, run, seen, ?_, ?_, ?_, ?_, answer⟩
    · rintro rfl
      exact congrArg EpEntry.pin seen
    · rintro rfl
      exact congrArg EpEntry.pin seen
    · rintro rfl
      exact congrArg EpEntry.revoked seen
    · rintro rfl
      exact ⟨congrArg EpEntry.valid seen, congrArg EpEntry.revoked seen⟩

end Sys2Proof.Machine
end

section
/-! What the way of a frame through Cavern leaves: the work of joining queues (R170-R178), and that of a frame that goes on from its policing
to its queues (R151, R169, R191, R223). -/

namespace Sys2Proof.Machine

open Sys2Proof

/-! ## Joining queues -/

/-- The counters of a queue, and those of spilling. -/
def CountsJoin (k : Nat) : Prop :=
  (0x0A3000 ≤ k ∧ k < 0x0A5000) ∨ k = Reg.SUMP_SPILL_DEFER ∨ k = Reg.SUMP_SPILL_FR_LO ∨ k = Reg.SUMP_SPILL_FR_HI

/-- What frames that join their queues leave: every register but those counters, the next frame's identity and the error FIFO. -/
structure JoinWork (s t : State) : Prop where
  regs : ∀ k, ¬CountsJoin k → t.reg k = s.reg k
  nextId : t.cav.nextId = s.cav.nextId
  ueFifo : t.cav.ueFifo = s.cav.ueFifo

namespace JoinWork

theorem of_regs {s t : State} (regs : t.regs = s.regs) (nextId : t.cav.nextId = s.cav.nextId) (ueFifo : t.cav.ueFifo = s.cav.ueFifo) :
    JoinWork s t := ⟨fun k _ => by simp only [State.reg, regs], nextId, ueFifo⟩

theorem refl (s : State) : JoinWork s s := .of_regs rfl rfl rfl

theorem trans {s t u : State} (h : JoinWork s t) (h' : JoinWork t u) : JoinWork s u :=
  ⟨fun k hk => (h'.regs k hk).trans (h.regs k hk), h'.nextId.trans h.nextId, h'.ueFifo.trans h.ueFifo⟩

theorem setReg {s t : State} {k : Nat} (hk : CountsJoin k) (w : Word) (h : JoinWork s t) : JoinWork s (t.setReg k w) :=
  h.trans ⟨fun j hj => State.reg_setReg_other (fun e : j = k => hj (e ▸ hk)) t w, rfl, rfl⟩

theorem count {s t : State} {k : Nat} (hk : CountsJoin k) (h : JoinWork s t) : JoinWork s (t.count k) := .setReg hk _ h

theorem count48 {s t : State} {k : Nat} (hk : CountsJoin k) (hk' : CountsJoin (k + 4)) (n : Nat) (h : JoinWork s t) :
    JoinWork s (t.count48 k n) := .setReg hk' _ (.setReg hk _ h)

theorem each {α : Type} {f : State → α → State} (h : ∀ t a, JoinWork t (f t a)) (s : State) (l : List α) : JoinWork s (s.over l f) :=
  State.over_induction (I := JoinWork s) (.refl s) fun t a _ e => e.trans (h t a)

theorem ite {c : Prop} [Decidable c] {s t u : State} (h : JoinWork s t) (h' : JoinWork s u) : JoinWork s (if c then t else u) := by
  split
  · exact h
  · exact h'

end JoinWork

theorem countsJoin_of_queue (q : QueueIx) {o : Nat} (h : o < 0x20) : CountsJoin (0x0A3000 + o + q.val * 0x20) :=
  .inl (by have := q.isLt; omega)

theorem countsJoin_hi_of_queue (q : QueueIx) {o : Nat} (h : o + 4 < 0x20) : CountsJoin (0x0A3000 + o + q.val * 0x20 + 4) :=
  .inl (by have := q.isLt; omega)

theorem State.release_join (s : State) (id : Nat) : JoinWork s (s.release id) := .ite (.refl s) (.of_regs rfl rfl rfl)

theorem State.modStored_join (s : State) (id : Nat) (f : Stored → Stored) : JoinWork s (s.modStored id f) := .of_regs rfl rfl rfl

theorem State.sift_join (s : State) (c : Cls) (n : Nat) (ps : List EgressPort) : JoinWork s (s.sift c n ps).1 := by
  induction ps generalizing s with
  | nil => exact .refl s
  | cons p ps ih =>
    unfold State.sift
    dsimp only
    (repeat' split)
    · exact (JoinWork.count (countsJoin_of_queue (queueOf p c) (o := 4) (by decide)) (.refl s)).trans (ih _)
    · exact (JoinWork.count (countsJoin_of_queue (queueOf p c) (o := 0) (by decide)) (.refl s)).trans (ih _)
    · exact ih s

theorem State.joinQueue_join (s : State) (q : QueueIx) (id n : Nat) (single : Bool) : JoinWork s (s.joinQueue q id n single) := by
  unfold State.joinQueue
  extract_lets x due full marked spilled r s1 c s2
  have joined : JoinWork s s1 := .of_regs rfl rfl rfl
  have spill : JoinWork s s2 :=
    .ite (.count48 (.inr (.inr (.inl rfl))) (.inr (.inr (.inr rfl))) 1
        (.count48 (countsJoin_of_queue q (o := 0x10) (by decide)) (countsJoin_hi_of_queue q (o := 0x10) (by decide)) 1
          (joined.trans (.of_regs rfl rfl rfl))))
      (.ite (.count (.inr (.inl rfl)) joined) joined)
  exact .ite (.count48 (countsJoin_of_queue q (o := 8) (by decide))
    (countsJoin_hi_of_queue q (o := 8) (by decide)) 1 spill) spill

theorem State.joinAll_join (s : State) (id : Nat) (c : Cls) (n : Nat) (single : Bool) (ps : List EgressPort) :
    JoinWork s (s.joinAll id c n single ps).1 := by
  have sifted := s.sift_join c n ps
  unfold State.joinAll
  dsimp only
  (repeat' split)
  · exact sifted.trans (State.release_join _ id)
  · exact sifted
  · exact (sifted.trans (State.modStored_join _ id _)).trans (.each (fun t p => t.joinQueue_join (queueOf p c) id n single) _ _)

theorem State.retryOne_join (s : State) (w : Waiting) : JoinWork s (s.retryOne w).1 := by
  have away : JoinWork s { s with cav := { s.cav with waiting := s.cav.waiting.filter fun x => x.id != w.id } } := .of_regs rfl rfl rfl
  unfold State.retryOne
  dsimp only
  split
  · exact away
  next f _ =>
    have joined := away.trans (State.joinAll_join _ w.id w.tc f.frame.cells w.single w.targets)
    split
    · exact .refl s
    next e =>
      rw [e] at joined
      exact joined.trans (.of_regs rfl rfl rfl)

theorem State.retryWaiting_join (s : State) (ws : List Waiting) (blocked : List (LinkPort × Cls × Bool)) :
    JoinWork s (s.retryWaiting ws blocked) := by
  induction ws generalizing s blocked with
  | nil => exact .refl s
  | cons w ws ih =>
    have one := s.retryOne_join w
    unfold State.retryWaiting
    split
    · exact ih s blocked
    · split <;> rename_i e <;> rw [e] at one <;> exact one.trans (ih _ _)

theorem State.settle_join (s : State) : JoinWork s s.settle := s.retryWaiting_join _ _

/-! ## Placing a frame (R167, R171) -/

theorem State.place_low (s : State) (id : Nat) (f : Frame) (ingress : EgressPort) (targets : List EgressPort) (credit : Nat) :
    LowRegs s (s.place id f ingress targets credit) := by
  have joined := s.joinAll_low id f.cls f.cells (targets.length == 1) targets
  unfold State.place
  dsimp only
  split
  · split <;> rename_i e <;> rw [e] at joined
    · exact .count (by decide) (joined.trans (.of_regs (State.release_regs _ id)))
    · exact joined
  · split
    · exact .of_regs rfl
    · split <;> rename_i e <;> rw [e] at joined
      · exact joined.trans (.of_regs rfl)
      · exact joined.trans (.of_regs rfl)

theorem State.placeCopies_low (s : State) (ingress : EgressPort) (matched : List MatchedGen) (credit start : Nat)
    (cs : List (Frame × List EgressPort)) : LowRegs s (s.placeCopies ingress matched credit start cs) := by
  induction cs generalizing s start with
  | nil => exact .refl s
  | cons c cs ih =>
    unfold State.placeCopies
    exact ((LowRegs.of_regs (by simp [State.store_keeps])).trans (State.place_low _ _ _ _ _ _)).trans (ih _ _)

/-! ## Twin copies (R223, R225) -/

theorem State.ageOutTwin_low (s : State) (src : EpId) : LowRegs s (s.ageOutTwin src) := by
  unfold State.ageOutTwin
  split
  · exact .refl s
  · exact .setReg (by decide) _ (.of_regs rfl)

theorem State.checkCopy_low (s : State) (e : TwinEntry) (seq : BitVec 16) (copyB : Bool) : LowRegs s (s.checkCopy e seq copyB).1 := by
  unfold State.checkCopy
  dsimp only
  (repeat' split)
  · exact (LowRegs.setReg (by decide) _ (.refl s)).trans (.of_regs rfl)
  · exact .count (by decide) (.of_regs rfl)
  · exact .count48 (by decide) 1 (.of_regs rfl)
  · exact .count (by decide) (.of_regs rfl)
  · exact (LowRegs.count (by decide) (.refl s)).trans (.of_regs rfl)
  · exact .of_regs rfl

theorem State.twinCheck_low (s : State) (f : Frame) : LowRegs s (s.twinCheck f).1 := by
  have aged : LowRegs s s.ageTwins := by
    unfold State.ageTwins
    exact .each (fun t (e : TwinEntry) => t.ageOutTwin_low e.src) s _
  unfold State.twinCheck
  dsimp only
  (repeat' split)
  · exact aged.trans (State.checkCopy_low _ _ _ _)
  · exact .count (by decide) aged
  · exact (aged.trans (.of_regs rfl)).trans (State.checkCopy_low _ _ _ _)

theorem State.siftCopies_low (s : State) (cs : List (Frame × List EgressPort)) : LowRegs s (s.siftCopies cs).1 := by
  induction cs generalizing s with
  | nil => exact .refl s
  | cons c cs ih =>
    unfold State.siftCopies
    dsimp only
    split
    · exact (LowRegs.count (by decide) (.refl s)).trans (ih _)
    · split
      · exact (s.twinCheck_low c.1).trans (ih _)
      · exact ih s

/-! ## A frame that goes on from its policing -/

theorem State.accept_low (s : State) (ingress : EgressPort) (f : Frame) (a : Accepted) : LowRegs s (s.accept ingress f a) := by
  have back (t : State) : LowRegs t (t.returnCredit ingress f.cls f.dl f.cells) := .of_regs (by simp [State.returnCredit_keeps])
  unfold State.accept
  dsimp only
  split
  next l _ => exact (LowRegs.count (by unfold Reg.SEC_KEY_BAD; omega) (.refl s)).trans (back _)
  · split
    · exact (s.siftCopies_low a.copies).trans (back _)
    · exact (s.siftCopies_low a.copies).trans (State.placeCopies_low _ _ _ _ _ _)

/-- What a frame that goes on from its policing leaves: the miss queue, the policers, and every register below those of Cavern but
TUN_TWIN_ONE. -/
structure FrameGoesOn (s t : State) : Prop where
  missQ : t.tun.missQ = s.tun.missQ
  buckets : t.sched.buckets = s.sched.buckets
  regs : ∀ k < 0x0A0000, k ≠ Reg.TUN_TWIN_ONE → t.reg k = s.reg k

namespace FrameGoesOn

theorem of_low {s t : State} (tun : t.tun.missQ = s.tun.missQ) (sched : t.sched = s.sched) (low : LowRegs s t) : FrameGoesOn s t :=
  ⟨tun, by rw [sched], fun k hk _ => low k hk⟩

theorem refl (s : State) : FrameGoesOn s s := .of_low rfl rfl (.refl s)

theorem trans {s t u : State} (h : FrameGoesOn s t) (h' : FrameGoesOn t u) : FrameGoesOn s u :=
  ⟨h'.missQ.trans h.missQ, h'.buckets.trans h.buckets, fun k hk other => (h'.regs k hk other).trans (h.regs k hk other)⟩

end FrameGoesOn

theorem State.copies_goesOn (s : State) (p : EgressPort) (f : Frame) (src : Option EpEntry) (d : Dest) :
    FrameGoesOn s (s.copies p f src d).1 := by
  have counted : FrameGoesOn s (s.count Reg.TUN_TWIN_ONE) := ⟨rfl, rfl, fun _ _ other => State.reg_count_other other s⟩
  cases d with
  | agent => exact .refl s
  | port q e => exact .refl s
  | group e =>
    unfold State.copies
    dsimp only
    split <;> exact .refl s
  | slot k =>
    unfold State.copies
    dsimp only
    split
    · split
      · exact .refl s
      · exact counted
      · exact counted
      · exact .refl s
    · split <;> exact .refl s

theorem State.copies_goesOn_of_eq {s t : State} {p : EgressPort} {f : Frame} {src : Option EpEntry} {d : Dest}
    {cs : Option (List (BitVec 2 × List EgressPort))} (h : s.copies p f src d = (t, cs)) : FrameGoesOn s t := by
  have copied := s.copies_goesOn p f src d
  rwa [h] at copied

theorem State.setEntry_missQ (s : State) (ep : EpId) (e : EpEntry) : (s.setEntry ep e).tun.missQ = s.tun.missQ := by
  unfold State.setEntry
  split <;> rfl

theorem State.writeHeader_goesOn (s : State) (p : EgressPort) (f : Frame) (src : Option EpEntry) (yellow : Bool) :
    FrameGoesOn s (s.writeHeader p f src yellow).1 := by
  refine .of_low ?_ (by simp [State.writeHeader_keeps]) (.of_regs (by simp [State.writeHeader_keeps]))
  unfold State.writeHeader
  dsimp only
  split
  · rfl
  · split
    · exact State.setEntry_missQ ..
    · rfl

theorem State.accept_goesOn (s : State) (p : EgressPort) (f : Frame) (a : Accepted) : FrameGoesOn s (s.accept p f a) :=
  .of_low (by simp [State.accept_keeps]) (by simp [State.accept_keeps]) (s.accept_low p f a)

theorem State.dropFrame_goesOn (s : State) (p : EgressPort) (f : Frame) : FrameGoesOn s (s.dropFrame p f) :=
  .of_low (by simp [State.dropFrame_keeps]) (by simp [State.dropFrame_keeps]) (.of_regs (by simp [State.dropFrame_keeps]))

theorem State.settle_goesOn (s : State) : FrameGoesOn s s.settle :=
  .of_low (by simp [State.settle_keeps]) (by simp [State.settle_keeps]) s.settle_low

end Sys2Proof.Machine
end

section
/-! Entries fetched (R148, R184), frames that have waited too long for one (R148, R216), twin entries that age (R225) and drains (R241). -/

namespace Sys2Proof.Machine

open Sys2Proof

/-! ## An entry is fetched -/

/-- The key is no longer being fetched. -/
def State.fetchEnded (s : State) (ep : EpId) : State :=
  { s with tun := { s.tun with fetching := s.tun.fetching.filter fun x => x != ep } }

theorem State.fetchEnded_fetching (s : State) (ep : EpId) : (s.fetchEnded ep).tun.fetching.contains ep = false := by
  simp [State.fetchEnded]

theorem State.eachWaiting_none {s : State} {key : EpId} (h : ∀ m ∈ s.tun.missQ, m.key ≠ key) (f : State → MissFrame → State) :
    s.eachWaiting key f = s := by
  have empty : s.tun.missQ.filter (fun m => m.key == key) = [] := List.filter_eq_nil_iff.mpr fun m hm => by simpa using h m hm
  rw [State.eachWaiting, empty]
  rfl

/-- An error found in Sump is counted, and recorded where the FIFO has room (R184). -/
theorem State.sumpError_spec (s : State) (addr region : Nat) :
    Counted Reg.SUMP_UE s (s.sumpError addr region) ∧
      (s.cav.ueFifo.length < 8 → (s.sumpError addr region).cav.ueFifo =
        s.cav.ueFifo ++ [{ addr := BitVec.ofNat 40 addr, region := BitVec.ofNat 2 region }]) := by
  have counted := Counted.count Reg.SUMP_UE s
  have fifo : (s.count Reg.SUMP_UE).cav.ueFifo = s.cav.ueFifo := rfl
  unfold State.sumpError
  dsimp only
  split
  · exact ⟨counted.of_regs rfl, fun _ => by rw [fifo]⟩
  next full =>
    exact ⟨counted.congr (State.reg_count_other (by decide) _), fun room => absurd (fifo ▸ room) full⟩

/-- The stored copy of an entry is found bad (R184): it is marked, counted and recorded. -/
def State.fetchFailed (s : State) (ep : EpId) : State :=
  ((s.fetchEnded ep).sumpError (0x1000000000 + ep.toNat * 64) 0).spoilEntry ep

theorem State.spoilEntry_poison (s : State) (ep : EpId) : (s.spoilEntry ep).tun.poison.contains ep = true := by
  unfold State.spoilEntry
  dsimp only
  split
  · assumption
  · simp

theorem State.fetchFailed_tun (s : State) (ep : EpId) :
    (s.fetchFailed ep).tun.cache = s.tun.cache ∧ (s.fetchFailed ep).tun.missQ = s.tun.missQ ∧
      (s.fetchFailed ep).tun.fetching.contains ep = false ∧ (s.fetchFailed ep).tun.poison.contains ep = true := by
  have tun : ((s.fetchEnded ep).sumpError (0x1000000000 + ep.toNat * 64) 0).tun = (s.fetchEnded ep).tun := by
    simp [State.sumpError_keeps]
  have cache := congrArg TunnelState.cache tun
  have missQ := congrArg TunnelState.missQ tun
  have fetching := congrArg TunnelState.fetching tun
  refine ⟨cache, missQ, ?_, State.spoilEntry_poison _ ep⟩
  exact (congrArg (List.contains · ep) fetching).trans (s.fetchEnded_fetching ep)

theorem State.fetchFailed_spec (s : State) (ep : EpId) :
    Counted Reg.SUMP_UE s (s.fetchFailed ep) ∧ (s.fetchFailed ep).mem = s.mem ∧
      (s.cav.ueFifo.length < 8 → (s.fetchFailed ep).cav.ueFifo =
        s.cav.ueFifo ++ [{ addr := BitVec.ofNat 40 (0x1000000000 + ep.toNat * 64), region := 0 }]) := by
  obtain ⟨counted, recorded⟩ := (s.fetchEnded ep).sumpError_spec (0x1000000000 + ep.toNat * 64) 0
  have mem : ((s.fetchEnded ep).sumpError (0x1000000000 + ep.toNat * 64) 0).mem = (s.fetchEnded ep).mem := by
    simp [State.sumpError_keeps]
  exact ⟨counted, mem, recorded⟩

theorem State.exec_fetchClean {s : State} {ep : EpId} (core : s.coreOn = true) (fetching : s.tun.fetching.contains ep = true)
    (ready : s.sumpReady = true) (sound : s.tun.poison.contains ep = false) :
    exec (.entryFetchComplete ep .clean) s = .next (((s.fetchEnded ep).fillCache ep (s.tableEntry ep)).eachWaiting ep
      fun s m => s.handle m.ingress m.frame m.srcDefault none).settle := by
  simp only [exec, execEntryFetchComplete, State.whenCore_on core, fetching, ready, sound, Bool.not_true, Bool.or_self, Bool.or_false,
    Bool.false_eq_true, if_false]
  rfl

theorem State.exec_fetchUncorrectable {s : State} {ep : EpId} (core : s.coreOn = true) (fetching : s.tun.fetching.contains ep = true)
    (ready : s.sumpReady = true) :
    exec (.entryFetchComplete ep .uncorrectable) s = .next ((s.fetchFailed ep).eachWaiting ep
      fun s m => s.handle m.ingress m.frame m.srcDefault (some ep)).settle := by
  simp only [exec, execEntryFetchComplete, State.whenCore_on core, fetching, ready, Bool.not_true, Bool.or_self, Bool.false_eq_true,
    if_false]
  rfl

/-- A line that holds an entry is one of the cache. -/
theorem State.mem_cache_of_lineEntry {s : State} {ep : EpId} {e : EpEntry} (h : s.lineEntry ep = some e) :
    ∃ l ∈ s.tun.cache, l.ep = ep ∧ l.entry = e := by
  obtain ⟨l, held, rfl⟩ := Option.map_eq_some_iff.mp h
  exact ⟨l, List.mem_of_find?_eq_some held, by simpa using List.find?_some held, rfl⟩

theorem State.settle_tun (s : State) : s.settle.tun = s.tun := by simp [State.settle_keeps]

theorem State.settle_mem (s : State) : s.settle.mem = s.mem := by simp [State.settle_keeps]

section

variable {s : State} {ep : EpId} (core : s.coreOn = true) (fetching : s.tun.fetching.contains ep = true) (ready : s.sumpReady = true)
  (idle : ∀ m ∈ s.tun.missQ, m.key ≠ ep)

include core fetching ready idle

theorem State.fetchClean_spec (sound : s.tun.poison.contains ep = false) (new : s.cacheLine ep = none)
    (room : (s.tun.cache.countP fun l => cacheSet l.ep == cacheSet ep) < 16) :
    ∃ t, exec (.entryFetchComplete ep .clean) s = .next t ∧ (∃ l ∈ t.tun.cache, l.ep = ep ∧ l.entry = s.tableEntry ep) ∧
      t.tun.fetching.contains ep = false ∧ t.tun.missQ = s.tun.missQ ∧ SameMemory s t := by
  have filled : (s.fetchEnded ep).fillCache ep (s.tableEntry ep) = (s.fetchEnded ep).filledLine ep (s.tableEntry ep) :=
    State.fillCache_of_room (s := s.fetchEnded ep) new room _
  have line := (State.filledLine_spec (s := s.fetchEnded ep) new (s.tableEntry ep)).1
  have run := State.exec_fetchClean core fetching ready sound
  rw [filled, State.eachWaiting_none (s := (s.fetchEnded ep).filledLine ep (s.tableEntry ep)) idle] at run
  refine ⟨_, run, ?_, ?_, ?_, .of_mem (State.settle_mem _)⟩
  · rw [State.settle_tun]
    exact State.mem_cache_of_lineEntry line
  · rw [State.settle_tun]
    exact s.fetchEnded_fetching ep
  · rw [State.settle_tun]
    rfl

theorem State.fetchUncorrectable_spec :
    ∃ t, exec (.entryFetchComplete ep .uncorrectable) s = .next t ∧ t.tun.cache = s.tun.cache ∧ t.tun.poison.contains ep = true ∧
      t.tun.fetching.contains ep = false ∧ Counted Reg.SUMP_UE s t ∧
      (s.cav.ueFifo.length < 8 →
        t.cav.ueFifo = s.cav.ueFifo ++ [{ addr := BitVec.ofNat 40 (0x1000000000 + ep.toNat * 64), region := 0 }]) ∧
      SameMemory s t := by
  obtain ⟨cache, missQ, ended, marked⟩ := s.fetchFailed_tun ep
  obtain ⟨counted, mem, recorded⟩ := s.fetchFailed_spec ep
  have joins := (s.fetchFailed ep).settle_join
  have run := State.exec_fetchUncorrectable core fetching ready
  rw [State.eachWaiting_none (by rw [missQ]; exact idle)] at run
  refine ⟨_, run, ?_, ?_, ?_, counted.congr (joins.regs _ (by unfold CountsJoin; decide)), fun room => joins.ueFifo.trans (recorded room),
    .of_mem ((State.settle_mem _).trans mem)⟩
  · rw [State.settle_tun, cache]
  · rw [State.settle_tun, marked]
  · rw [State.settle_tun, ended]

end

/-! ## A frame that has waited too long for its destination's entry (R148, R216) -/

/-- The bucket and the colour of a frame under its class-default policer. -/
def State.classMeter (s : State) (p : EgressPort) (f : Frame) (first : Bool) : Bucket × Colour :=
  meter (!first && s.bit Reg.POL_CFG 0) f.de (f.len.toNat + 36) (s.refill (s.classDefault f.cls.val) s.sched.buckets[queueOf p f.cls])

theorem State.policeDefault_spec (s : State) (p : EgressPort) (f : Frame) (first : Bool) :
    (s.policeDefault p f first).1.sched.buckets = vset s.sched.buckets (queueOf p f.cls) (s.classMeter p f first).1 ∧
      (s.policeDefault p f first).2 = (s.classMeter p f first).2 := by
  refine ⟨?_, rfl⟩
  simp only [State.policeDefault, State.countColour_keeps]
  rfl

/-- The count of the frame that leaves is no register that its policing reads. -/
theorem State.classMeter_congr {s t : State} (regs : SameRegsBut [Reg.TUN_MISS_DEFAULT] s t) (beat : t.beat = s.beat)
    (buckets : t.sched.buckets = s.sched.buckets) (p : EgressPort) (f : Frame) (first : Bool) :
    t.classMeter p f first = s.classMeter p f first := by
  have reg (j : Nat) (h : j ≠ Reg.TUN_MISS_DEFAULT) : t.reg j = s.reg j := regs j (by simpa using h)
  have reg48 (j : Nat) (h : j < 0x080000) : t.reg48 j = s.reg48 j := State.reg48_congr (reg j (by simp only [Reg.TUN_MISS_DEFAULT]; omega))
    (reg (j + 4) (by simp only [Reg.TUN_MISS_DEFAULT]; omega))
  have number : t.beatNum = s.beatNum := congrArg (BitVec.ofNat 48) (reg48 _ (by decide))
  have stamps (b : Beat) : t.stampNow b = s.stampNow b := by
    simp only [State.stampNow, beat, reg48 Reg.BEAT_STEP_LO (by decide), reg48 Reg.BEAT_STEP_OFS_LO (by decide)]
  have refill (r : RateSet) (b : Bucket) : t.refill r b = s.refill r b := by simp only [State.refill, stamps, number]
  have rates (c : Nat) : t.classDefault c = s.classDefault c := by
    have act {j : Nat} (h : 0x0D0000 ≤ j) : t.reg j = s.reg j := reg j (by simp only [Reg.TUN_MISS_DEFAULT]; omega)
    rw [State.classDefault, act (by unfold Reg.POL_CD_CIR_ACT; omega), act (by unfold Reg.POL_CD_CBS_ACT; omega),
      act (by unfold Reg.POL_CD_PIR_ACT; omega), act (by unfold Reg.POL_CD_PBS_ACT; omega)]
    rfl
  have aware : t.bit Reg.POL_CFG 0 = s.bit Reg.POL_CFG 0 := congrArg (·.getLsbD 0) (reg _ (by decide))
  rw [State.classMeter, aware, refill, rates, buckets]
  rfl

theorem State.policeDefault_low (s : State) (p : EgressPort) (f : Frame) (first : Bool) : LowRegs s (s.policeDefault p f first).1 := by
  have colour (t : State) (c : Cls) (k : Colour) : LowRegs t (t.countColour c first k) := by
    unfold State.countColour
    cases k with
    | green => exact .refl t
    | yellow => exact .count48 (by unfold Reg.POL_YELLOW_LO; omega) 1 (.refl t)
    | red => exact .count (by unfold Reg.POL_RED_FIRST Reg.POL_RED_TRANSIT; split <;> omega) (.refl t)
  exact (LowRegs.of_regs rfl).trans (colour _ _ _)

/-- The policing of a frame that leaves without its destination's entry. -/
def State.leavePolice (s : State) (m : MissFrame) : State × Colour := s.drawn.policeDefault m.ingress m.frame (decide (4 ≤ m.ingress.val))

/-- Behind its policing such a frame goes on like any other. -/
theorem State.leaveDest_goesOn (s : State) (m : MissFrame) : FrameGoesOn (s.leavePolice m).1 (s.leaveDest m) := by
  unfold State.leaveDest
  dsimp only
  change FrameGoesOn (s.leavePolice m).1 (if (s.leavePolice m).2 = .red then _ else _)
  split
  · exact State.dropFrame_goesOn _ _ _
  · split <;> rename_i e
    · exact (State.copies_goesOn_of_eq e).trans (State.dropFrame_goesOn _ _ _)
    · exact ((State.copies_goesOn_of_eq e).trans (State.writeHeader_goesOn _ _ _ _ _)).trans (State.accept_goesOn _ _ _ _)

/-- A frame coloured red goes no further. -/
theorem State.leaveDest_red {s : State} {m : MissFrame} (red : (s.leavePolice m).2 = .red) :
    s.leaveDest m = (s.leavePolice m).1.dropFrame m.ingress m.frame := by
  unfold State.leaveDest
  exact if_pos red

/-- The one frame that waits leaves the queue and is counted. -/
def State.missCounted (s : State) (m : MissFrame) : State := (s.takeMiss m).count Reg.TUN_MISS_DEFAULT

theorem State.releaseKey_single {s : State} {m : MissFrame} (single : s.tun.missQ = [m]) (dest : m.dest = true)
    (whole : m.srcDefault = false) : s.releaseKey m.key = (s.missCounted m).leaveDest m := by
  have each : s.releaseKey m.key = State.release1 (s.takeMiss m) m := by
    simp [State.releaseKey, State.eachWaiting, State.over, single]
  have length : (s.takeMiss m).tun.missQ.length + 2 = (s.takeMiss m).tun.missQ.length + 1 + 1 := rfl
  rw [each, State.release1, length, State.leaveMiss]
  simp [dest, whole, State.missCounted]

theorem State.missCounted_missQ {s : State} {m : MissFrame} (single : s.tun.missQ = [m]) : (s.missCounted m).tun.missQ = [] := by
  have erased : [m].erase m = [] := by simp
  rw [← erased, ← single]
  rfl

/-- The policing of the frame that leaves is that of its class default as it stood before. -/
theorem State.leavePolice_missCounted (s : State) (m : MissFrame) :
    ((s.missCounted m).leavePolice m).1.sched.buckets =
        (s.policeDefault m.ingress m.frame (decide (4 ≤ m.ingress.val))).1.sched.buckets ∧
      ((s.missCounted m).leavePolice m).2 = (s.policeDefault m.ingress m.frame (decide (4 ≤ m.ingress.val))).2 := by
  have regs : SameRegsBut [Reg.TUN_MISS_DEFAULT] s (s.missCounted m).drawn := .count (by simp) (s.takeMiss m)
  obtain ⟨buckets, colour⟩ := (s.missCounted m).drawn.policeDefault_spec m.ingress m.frame (decide (4 ≤ m.ingress.val))
  obtain ⟨buckets', colour'⟩ := s.policeDefault_spec m.ingress m.frame (decide (4 ≤ m.ingress.val))
  have metered := State.classMeter_congr (t := (s.missCounted m).drawn) regs rfl rfl m.ingress m.frame (decide (4 ≤ m.ingress.val))
  exact ⟨buckets.trans (metered ▸ buckets'.symm), colour.trans (metered ▸ colour'.symm)⟩

theorem State.exec_missWaitTimeout {s : State} {m : MissFrame} (core : s.coreOn = true) (single : s.tun.missQ = [m])
    (dest : m.dest = true) (whole : m.srcDefault = false) :
    exec (.missWaitTimeout m.key) s = .next ((s.missCounted m).leaveDest m).settle := by
  simp only [exec, execMissWaitTimeout, State.whenCore_on core, State.releaseKey_single single dest whole]

theorem State.missWait_spec {s : State} {m : MissFrame} (core : s.coreOn = true) (single : s.tun.missQ = [m]) (dest : m.dest = true)
    (whole : m.srcDefault = false) : ∃ t, exec (.missWaitTimeout m.key) s = .next t ∧
      t.tun.missQ = [] ∧ Counted Reg.TUN_MISS_DEFAULT s t ∧ t.reg Reg.TUN_DST_INVALID = s.reg Reg.TUN_DST_INVALID ∧
      t.sched.buckets = (s.policeDefault m.ingress m.frame (decide (4 ≤ m.ingress.val))).1.sched.buckets ∧
      ((s.policeDefault m.ingress m.frame (decide (4 ≤ m.ingress.val))).2 = .red → t.cav.nextId = s.cav.nextId) := by
  obtain ⟨buckets, colour⟩ := s.leavePolice_missCounted m
  have policed (k : Nat) (hk : k < 0x0A0000) : ((s.missCounted m).leavePolice m).1.reg k = (s.missCounted m).reg k :=
    (State.policeDefault_low (s.missCounted m).drawn _ _ _) k hk
  have leaves := ((s.missCounted m).leaveDest_goesOn m).trans (State.settle_goesOn _)
  have reg (k : Nat) (hk : k < 0x0A0000) (other : k ≠ Reg.TUN_TWIN_ONE) :
      ((s.missCounted m).leaveDest m).settle.reg k = (s.missCounted m).reg k := (leaves.regs k hk other).trans (policed k hk)
  have counted : Counted Reg.TUN_MISS_DEFAULT s (s.missCounted m) := .count _ (s.takeMiss m)
  have tun : ((s.missCounted m).leavePolice m).1.tun = (s.missCounted m).tun := by
    simp [State.leavePolice, State.policeDefault_keeps]
  refine ⟨_, State.exec_missWaitTimeout core single dest whole, ?_, counted.congr (reg _ (by decide) (by decide)), ?_,
    leaves.buckets.trans buckets, fun red => ?_⟩
  · rw [leaves.missQ, tun, State.missCounted_missQ single]
  · exact (reg _ (by decide) (by decide)).trans (State.reg_count_other (by decide) (s.takeMiss m))
  · have cav : (((s.missCounted m).leavePolice m).1.dropFrame m.ingress m.frame).cav = (s.missCounted m).cav := by
      simp [State.dropFrame_keeps, State.leavePolice, State.policeDefault_keeps]
    rw [(State.settle_join _).nextId, State.leaveDest_red (colour.trans red)]
    exact congrArg CavernState.nextId cav

/-! ## Twin entries (R225) -/

theorem State.twinAged_spec {s : State} {src : EpId} {e : TwinEntry} (core : s.coreOn = true)
    (held : s.twin.find? (fun e => e.src == src) = some e) (aged : s.twinAged e = true) :
    ∃ t, exec (.twinEntryAgeOut src) s = .next t ∧ t.twin = (s.twin.filter fun x => x.src != src) ∧ SameMemory s t := by
  refine ⟨s.ageOutTwin src, ?_, ?_, .of_mem (by simp [State.ageOutTwin_keeps])⟩
  · simp only [exec, execTwinEntryAgeOut, State.whenCore_on core, held, aged, if_true]
  · simp only [State.ageOutTwin, held, State.countN_keeps]

/-! ## Drains (R241) -/

theorem State.drainLong_of_wait {s : State} {n : LocalPort} {c : Cls} {h : Nat} (class57 : c = 5 ∨ c = 6 ∨ c = 7)
    (waits : s.cav.queues[queueOf (toEgress (loc n)) c].creditWait = some h) (long : h + 4 < s.heads) : s.drainLong n = true := by
  refine List.any_eq_true.mpr ⟨c, by simpa using class57, ?_⟩
  rw [waits]
  exact decide_eq_true long

theorem State.drainWait_spec {s : State} {n : LocalPort} (core : s.coreOn = true) (long : s.drainLong n = true)
    (tvl : s.isTvl (loc n) = true) (clear : s.bit Reg.DEP_DRAIN n.val = false) :
    ∃ t, exec (.drainWaitExceeded n) s = .next t ∧ t.bit Reg.DEP_DRAIN n.val = true ∧ Counted Reg.DEP_DRAIN_EVENTS s t ∧
      SameRegsBut [Reg.DEP_DRAIN, Reg.DEP_DRAIN_EVENTS] s t ∧ SameMemory s t := by
  have apart : Reg.DEP_DRAIN ≠ Reg.DEP_DRAIN_EVENTS := by decide
  have shown : (s.setBit Reg.DEP_DRAIN n.val true).bit Reg.DEP_DRAIN n.val = true := State.bit_setBit_same s _ (by omega) true
  have drains : SameRegsBut [Reg.DEP_DRAIN, Reg.DEP_DRAIN_EVENTS] s (s.setBit Reg.DEP_DRAIN n.val true) := .setReg (by simp) s _
  refine ⟨(s.setBit Reg.DEP_DRAIN n.val true).count Reg.DEP_DRAIN_EVENTS, ?_, ?_, ?_, drains.trans (.count (by simp) _),
    .of_mem (by simp)⟩
  · simp only [exec, execDrainWaitExceeded, State.whenCore_on core, long, tvl, clear, Bool.not_false, Bool.and_self, if_true]
  · rw [State.bit, State.reg_count_other apart]
    exact shown
  · exact (Counted.count _ _).after (State.reg_setBit_other apart.symm s _ _)

/-- Settles O32: the four commands, each by what it does where it takes effect. -/
theorem entriesAndTwins : Obligations.EntriesAndTwins := by
  intro s core
  refine ⟨fun ep fetching ready idle => ⟨fun sound new room => ?_, ?_⟩, fun m single dest whole => ?_, fun src e held aged => ?_,
    fun n c h class57 tvl waits long clear => ?_⟩
  · exact State.fetchClean_spec core fetching ready idle sound new room
  · exact State.fetchUncorrectable_spec core fetching ready idle
  · exact State.missWait_spec core single dest whole
  · exact State.twinAged_spec core held aged
  · exact State.drainWait_spec core (State.drainLong_of_wait class57 waits long) tvl clear

end Sys2Proof.Machine
end

section
/-! Requests of COUNT words served: those of the MGMT agent (R137), of the maintenance function (R407, R409) and of the car computer (R449,
R462, R463). -/

namespace Sys2Proof.Machine

open Sys2Proof

/-! ## A source that may not wake the hub (R384) -/

theorem State.wakeBy_off {s : State} {src : Nat} (off : s.bit Reg.PWR_WAKE_EN src = false) : s.wakeBy src = s := by
  simp [State.wakeBy, off]

theorem SameRegsBut.bit {ks : List Nat} {s t : State} (h : SameRegsBut ks s t) {k : Nat} (hk : k ∉ ks) (i : Nat) :
    t.bit k i = s.bit k i := by
  simp only [State.bit, h k hk]

/-! ## The MGMT agent (R137) -/

/-- The reply of the agent to the source of a request. -/
def State.mgmtReplied (s : State) (srcEp : EpId) (tc : BitVec 3) (req : MgmtRequest) (x : Served) : State :=
  s.emit (.mgmtReply srcEp tc (replyOp req.op) req.tag req.count (BitVec.ofNat 8 x.done) (BitVec.ofNat 8 x.status) (replyData req x))

theorem State.mgmtServe_quiet {s : State} {req : MgmtRequest} (quiet : (s.serve 7 req).state.bit Reg.PWR_WAKE_EN 2 = false)
    (srcEp : EpId) (tc : BitVec 3) : s.mgmtServe srcEp tc req = (s.serve 7 req).state.mgmtReplied srcEp tc req (s.serve 7 req) :=
  State.wakeBy_off (s := (s.serve 7 req).state.mgmtReplied srcEp tc req (s.serve 7 req)) quiet

/-! ## The maintenance function (R407, R409) -/

/-- A packet on bulk OUT is answered, and nothing else of the function's replies, of memory or of the registers changes but those named. -/
structure PacketAnswered (ks : List Nat) (s t : State) : Prop where
  sent : ∃ r, t.sent = .usbBulk r :: s.sent
  replies : t.usb.replies = s.usb.replies
  regs : SameRegsBut ks s t
  mem : SameMemory s t

theorem State.refusePacket_answers (s : State) : PacketAnswered [] s s.refusePacket := by
  unfold State.refusePacket
  split
  · exact ⟨⟨_, rfl⟩, rfl, .of_regs rfl _, .of_mem rfl⟩
  · exact ⟨⟨_, rfl⟩, rfl, .of_regs rfl _, .of_mem rfl⟩

theorem State.ackPacket_answers (s : State) : PacketAnswered [Reg.USB_NYET] s s.ackPacket := by
  unfold State.ackPacket
  dsimp only
  split
  · exact ⟨⟨_, rfl⟩, rfl, .of_regs rfl _, .of_mem rfl⟩
  · split
    · exact ⟨⟨_, rfl⟩, rfl, .of_regs rfl _, .of_mem rfl⟩
    · exact ⟨⟨.nyet, by simp⟩, by simp, .count (by simp) (s.emit (.usbBulk .nyet)), .of_mem (by simp)⟩

/-- The reply to a request (Table TUN-4). -/
def usbReply (req : MgmtRequest) (x : Served) : UsbReply :=
  ⟨replyOp req.op, req.tag, req.count, BitVec.ofNat 8 x.done, BitVec.ofNat 8 x.status, replyData req x⟩

/-- A reply is queued, and counted where it refuses. -/
theorem State.queueReply_spec (s : State) (req : MgmtRequest) (x : Served) :
    (s.queueReply req x).usb.replies = s.usb.replies ++ [usbReply req x] ∧
      (x.status ≠ 0 → Counted Reg.USB_MF_REFUSED s (s.queueReply req x)) ∧ SameRegsBut [Reg.USB_MF_REFUSED] s (s.queueReply req x) := by
  unfold State.queueReply
  dsimp only
  split
  next done => exact ⟨rfl, fun failed => absurd done failed, .of_regs rfl _⟩
  · exact ⟨by simp [usbReply], fun _ => Counted.count _ _, (SameRegsBut.of_regs rfl _).trans (.count (by simp) _)⟩

theorem State.exec_bulkOut {s t : State} {req : MgmtRequest} (reached : s.mfReached = true) (quiet : t.bit Reg.PWR_WAKE_EN 0 = false)
    (body : (if s.bulkFree = false then s.refusePacket
      else if s.mfSession ≠ 1 then (s.queueReply req { state := s, words := [], done := 0, status := 2 }).ackPacket
      else ((s.serve 6 req).state.queueReply req (s.serve 6 req) |>.count48 Reg.USB_MF_REQ_LO 1).ackPacket) = t) :
    exec (.bulkOutRequest req) s = .next t := by
  have run : exec (.bulkOutRequest req) s = .next (t.wakeBy 0) := by
    rw [← body]
    simp only [exec, execBulkOutRequest, State.whenMf, reached, if_true]
  rw [run, State.wakeBy_off quiet]

section

variable {s : State} {req : MgmtRequest} (reached : s.mfReached = true)

include reached

theorem State.bulkOut_refused (quiet : s.bit Reg.PWR_WAKE_EN 0 = false) (full : s.bulkFree = false) :
    ∃ t, exec (.bulkOutRequest req) s = .next t ∧ (∃ r, t.sent = .usbBulk r :: s.sent) ∧
      t.usb.replies = s.usb.replies ∧ SameRegsBut [] s t ∧ SameMemory s t := by
  have answered := s.refusePacket_answers
  refine ⟨_, State.exec_bulkOut reached ?_ (if_pos full), answered.sent, answered.replies, answered.regs, answered.mem⟩
  rw [answered.regs.bit (by decide), quiet]

theorem State.bulkOut_closed (quiet : s.bit Reg.PWR_WAKE_EN 0 = false) (free : s.bulkFree = true) (closed : s.mfSession ≠ 1) :
    ∃ t, exec (.bulkOutRequest req) s = .next t ∧ Counted Reg.USB_MF_REFUSED s t ∧
      t.usb.replies = s.usb.replies ++ [⟨replyOp req.op, req.tag, req.count, 0, 2, replyData req ⟨s, [], 0, 2⟩⟩] ∧
      (∃ r, t.sent = .usbBulk r :: s.sent) ∧ SameRegsBut [Reg.USB_MF_REFUSED, Reg.USB_NYET] s t ∧ SameMemory s t := by
  obtain ⟨replies, counted, regs⟩ := s.queueReply_spec req ⟨s, [], 0, 2⟩
  have answered := (s.queueReply req ⟨s, [], 0, 2⟩).ackPacket_answers
  have both : SameRegsBut [Reg.USB_MF_REFUSED, Reg.USB_NYET] s (s.queueReply req ⟨s, [], 0, 2⟩).ackPacket :=
    (regs.mono (by simp)).trans (answered.regs.mono (by simp))
  refine ⟨_, State.exec_bulkOut reached ?_ ?_, (counted (OfNat.ofNat_ne_zero 2)).congr (answered.regs _ (by decide)),
    answered.replies.trans replies, ?_, both, ?_⟩
  · rw [both.bit (by decide), quiet]
  · rw [if_neg (by simp [free]), if_pos closed]
  · simpa [State.queueReply_keeps] using answered.sent
  · exact fun a => (answered.mem a).trans (SameMemory.of_mem (by simp [State.queueReply_keeps]) a)

theorem State.bulkOut_served (free : s.bulkFree = true) (opened : s.mfSession = 1) {x : Served} (served : x = s.serve 6 req)
    (quiet : x.state.bit Reg.PWR_WAKE_EN 0 = false) :
    ∃ t, exec (.bulkOutRequest req) s = .next t ∧
      t.usb.replies = x.state.usb.replies ++ [⟨replyOp req.op, req.tag, req.count, BitVec.ofNat 8 x.done,
        BitVec.ofNat 8 x.status, replyData req x⟩] ∧
      t.reg48 Reg.USB_MF_REQ_LO = (x.state.reg48 Reg.USB_MF_REQ_LO + 1) % 2 ^ 48 ∧
      (x.status ≠ 0 → Counted Reg.USB_MF_REFUSED x.state t) ∧ (∃ r, t.sent = .usbBulk r :: x.state.sent) ∧
      SameRegsBut [Reg.USB_MF_REFUSED, Reg.USB_MF_REQ_LO, Reg.USB_MF_REQ_LO + 4, Reg.USB_NYET] x.state t ∧
      SameMemory x.state t := by
  obtain ⟨replies, counted, regs⟩ := x.state.queueReply_spec req x
  have requested : SameRegsBut [Reg.USB_MF_REQ_LO, Reg.USB_MF_REQ_LO + 4] (x.state.queueReply req x)
      ((x.state.queueReply req x).count48 Reg.USB_MF_REQ_LO 1) := State.setReg48_regs _ _ _
  have answered := ((x.state.queueReply req x).count48 Reg.USB_MF_REQ_LO 1).ackPacket_answers
  have all : SameRegsBut [Reg.USB_MF_REFUSED, Reg.USB_MF_REQ_LO, Reg.USB_MF_REQ_LO + 4, Reg.USB_NYET] x.state
      ((x.state.queueReply req x).count48 Reg.USB_MF_REQ_LO 1).ackPacket :=
    ((regs.mono (by simp)).trans (requested.mono (by simp))).trans (answered.regs.mono (by simp))
  refine ⟨_, State.exec_bulkOut reached ?_ ?_, ?_, ?_, fun failed => ?_, ?_, all, ?_⟩
  · rw [all.bit (by decide), quiet]
  · rw [if_neg (by simp [free]), if_neg (not_not.mpr opened), served]
  · exact answered.replies.trans ((congrArg UsbState.replies (by simp)).trans replies)
  · have before := State.reg48_congr (regs Reg.USB_MF_REQ_LO (by decide)) (regs (Reg.USB_MF_REQ_LO + 4) (by decide))
    rw [State.reg48_congr (answered.regs _ (by decide)) (answered.regs _ (by decide)), State.count48, State.reg48_setReg48, before,
      Nat.mod_mod]
  · exact (counted failed).congr ((answered.regs _ (by decide)).trans (requested _ (by decide)))
  · simpa [State.queueReply_keeps] using answered.sent
  · exact fun a => (answered.mem a).trans (SameMemory.of_mem (by simp [State.queueReply_keeps]) a)

end

/-! ## The car computer (R449, R462, R463) -/

theorem State.whenCar_deaf {s : State} {via : CarPort} (deaf : s.carHears via = false) (f : State → State) : s.whenCar via f = s := by
  simp [State.whenCar, deaf]

theorem State.whenCar_quiet {s : State} {via : CarPort} {f : State → State} (hears : s.carHears via = true) (core : s.coreOn = true)
    (quiet : (f s).bit Reg.PWR_WAKE_EN 1 = false) : s.whenCar via f = f s := by
  rw [State.whenCar, if_pos hears, State.whenCore_on core, State.wakeBy_off quiet]

/-- The car computer ends a read on SPI before its accesses have ended. -/
def State.carCut (s : State) (via : CarPort) (taken : Option Nat) : Bool :=
  taken.any fun k => decide (k ≤ s.carFill via) && via == .spi

/-- The accesses of a read that are made: COUNT, or some of them where the car computer cuts it. -/
def State.carReads (s : State) (via : CarPort) (count : CarCount) (addr : CarAddr) : Served :=
  (if s.carCut via count.taken then s.drawn.drawn else s.drawn).carServe count.count (carAddr addr)
    (if s.carCut via count.taken then s.drawn.free % (count.count.toNat + 1) else count.count.toNat)

/-- The bytes that answer a read of COUNT words. -/
def State.carAnswer (s : State) (via : CarPort) (count : Byte) (x : Served) : List Byte :=
  carBytes via (s.carFill via) (x.words ++ List.replicate (count.toNat - x.words.length) 0) x.done x.status

/-- The accesses of a write that are made: all of one that is whole and keeps to R137, else none. -/
def State.carWrites (s : State) (count : Byte) (addr : CarAddr) (data : List Byte) : Served :=
  if carOk count (carAddr addr) && decide (4 * count.toNat ≤ data.length) then
    s.serveWrites 5 (carAddr addr).toNat (carWords count.toNat data)
  else { state := s, words := [], done := 0, status := 3 }

section

variable {s : State} {via : CarPort} (core : s.coreOn = true) (hears : s.carHears via = true)

include core hears

theorem State.exec_carRead {count : CarCount} {addr : CarAddr} {x : Served} (served : s.carReads via count addr = x)
    (quiet : x.state.bit Reg.PWR_WAKE_EN 1 = false) : exec (.carRead via count addr) s = .next (x.state.emit (.carReply via
      ((s.carAnswer via count.count x).take (count.taken.getD (s.carAnswer via count.count x).length)))) := by
  subst served
  simp only [exec, execCarRead]
  rw [State.whenCar_quiet hears core]
  · rfl
  · exact quiet

theorem State.exec_carWrite {count : Byte} {addr : CarAddr} {data : List Byte} {x : Served} (served : s.carWrites count addr data = x)
    (quiet : x.state.bit Reg.PWR_WAKE_EN 1 = false) :
    exec (.carWrite via count addr data) s =
      .next { x.state with carStatus := (BitVec.ofNat 8 x.done, BitVec.ofNat 8 x.status) } := by
  subst served
  simp only [exec, execCarWrite]
  rw [State.whenCar_quiet hears core]
  · rfl
  · exact quiet

variable (quiet : s.bit Reg.PWR_WAKE_EN 1 = false)

include quiet

theorem State.exec_carStatus : exec (.carWriteStatus ⟨via, 0x05⟩) s = .next (s.drawn.emit (.carReply via
    (carBytes via (s.carFill via) [] s.carStatus.1.toNat s.carStatus.2.toNat))) := by
  simp only [exec, execCarWriteStatus]
  rw [State.whenCar_quiet hears core]
  · simp only [ne_eq, not_true_eq_false, if_false]
  · simp only [ne_eq, not_true_eq_false, if_false]
    exact quiet

theorem State.exec_carUnknown {op : Byte} (unknown : op ≠ 0x05) : exec (.carWriteStatus ⟨via, op⟩) s = .next s := by
  simp only [exec, execCarWriteStatus]
  rw [State.whenCar_quiet hears core]
  · rw [if_pos unknown]
  · rw [if_pos unknown, quiet]

end

theorem State.carReads_whole {s : State} {via : CarPort} {count : CarCount} (whole : s.carCut via count.taken = false) (addr : CarAddr) :
    s.carReads via count addr = s.drawn.carServe count.count (carAddr addr) count.count.toNat := by
  simp [State.carReads, whole]

theorem State.carReads_cut {s : State} {via : CarPort} {count : CarCount} (cut : s.carCut via count.taken = true) (addr : CarAddr) :
    s.carReads via count addr = s.drawn.drawn.carServe count.count (carAddr addr) (s.drawn.free % (count.count.toNat + 1)) := by
  simp [State.carReads, cut]

theorem State.carWrites_broken {count : Byte} {addr : CarAddr} {data : List Byte}
    (broken : carOk count (carAddr addr) = false ∨ data.length < 4 * count.toNat) (s : State) :
    s.carWrites count addr data = { state := s, words := [], done := 0, status := 3 } := by
  rcases broken with rules | short
  · simp [State.carWrites, rules]
  · simp [State.carWrites, Nat.not_le.mpr short]

theorem State.carWrites_whole {count : Byte} {addr : CarAddr} {data : List Byte} (rules : carOk count (carAddr addr) = true)
    (long : 4 * count.toNat ≤ data.length) (s : State) :
    s.carWrites count addr data = s.serveWrites 5 (carAddr addr).toNat (carWords count.toNat data) := by
  simp [State.carWrites, rules, long]

/-- What goes before an answer on SPI is 0xFF alone, up to where the accesses have ended. -/
theorem take_carBytes_spi {k fill : Nat} (early : k ≤ fill) (words : List Word) (done status : Nat) :
    (carBytes .spi fill words done status).take k = List.replicate k 0xFF := by
  simp only [carBytes, List.append_assoc]
  rw [List.take_append_of_le_length (by simpa using early), List.take_replicate, Nat.min_eq_left early]

/-- Settles O47: each master's requests by their own branches, none of them a wake source. -/
theorem requestsServed : Obligations.RequestsServed := by
  intro s core
  refine ⟨fun srcEp tc req quiet c named => ?_, fun req reached quiet => ⟨?_, ?_, ?_⟩, fun via count addr data op deaf c named => ?_,
    fun quiet via count addr hears => ⟨fun taken x early served quiet' => ?_, fun k spi early => ?_, fun data broken => ?_,
      fun data x served rules long quiet' => ?_, ?_, fun op unknown => ?_⟩⟩
  · rcases named with rfl | rfl
    · simp only [exec, execMgmtReadRequest, State.whenCore_on core, State.mgmtServe_quiet quiet]
      rfl
    · simp only [exec, execMgmtWriteRequest, State.whenCore_on core, State.mgmtServe_quiet quiet]
      rfl
  · exact State.bulkOut_refused reached quiet
  · exact State.bulkOut_closed reached quiet
  · exact fun free opened x served quiet' => State.bulkOut_served reached free opened served quiet'
  · rcases named with rfl | rfl | rfl
    · simp only [exec, execCarRead, State.whenCar_deaf deaf]
    · simp only [exec, execCarWrite, State.whenCar_deaf deaf]
    · simp only [exec, execCarWriteStatus, State.whenCar_deaf deaf]
  · have whole : s.carCut via taken = false := by
      cases taken with
      | none => rfl
      | some k => rcases early k rfl with other | late <;> simp [State.carCut, *]
    exact ⟨_, rfl, State.exec_carRead core hears ((State.carReads_whole (count := ⟨count, taken⟩) whole addr).trans served.symm) quiet'⟩
  · subst spi
    have cut : s.carCut .spi (some k) = true := by simp [State.carCut, early]
    refine ⟨s.drawn.free % (count.toNat + 1), _, Nat.lt_succ_iff.mp (Nat.mod_lt _ (Nat.succ_pos _)), rfl, fun quiet' => ?_⟩
    rw [State.exec_carRead core hears (State.carReads_cut (count := ⟨count, some k⟩) cut addr) quiet', Option.getD_some, State.carAnswer,
      take_carBytes_spi early]
  · exact State.exec_carWrite core hears (State.carWrites_broken broken s) quiet
  · exact State.exec_carWrite core hears ((State.carWrites_whole rules long s).trans served.symm) quiet'
  · exact State.exec_carStatus core hears quiet
  · exact State.exec_carUnknown core hears quiet unknown

end Sys2Proof.Machine
end

section
/-! The training of Sump, its patrol, its error FIFO and its refresh (R182, R184, R295). -/

namespace Sys2Proof.Machine

open Sys2Proof

/-! ## Bits after writes -/

/-- A bit of a register after another, or itself, has been written. -/
theorem State.bit_setBit (s : State) (j k i : Nat) {n : Nat} (h : n < 32) (b : Bool) :
    (s.setBit k n b).bit j i = if j = k ∧ i = n then b else s.bit j i := by
  split
  next same =>
    obtain ⟨rfl, rfl⟩ := same
    exact State.bit_setBit_same s j h b
  next apart =>
    by_cases same : j = k
    · subst same
      rw [State.bit, State.setBit, State.setFld, State.reg_setReg_same]
      exact getLsbD_withBits_other _ h le_rfl _ (by omega)
    · exact State.bit_setFld_other same s n n (b2n b) i

/-- A bit outside a field that has been written. -/
theorem State.bit_setFld_out (s : State) (j k i : Nat) {hi lo : Nat} (h : hi < 32) (order : lo ≤ hi) (v : Nat)
    (out : j ≠ k ∨ i < lo ∨ hi < i) : (s.setFld k hi lo v).bit j i = s.bit j i := by
  by_cases same : j = k
  · subst same
    rw [State.bit, State.setFld, State.reg_setReg_same]
    exact getLsbD_withBits_other _ h order v (by omega)
  · exact State.bit_setFld_other same s hi lo v i

/-- A field apart from a bit that has been written. -/
theorem State.fld_setBit_out (s : State) (j k : Nat) {hi lo n : Nat} (h : n < 32) (order : lo ≤ hi) (b : Bool)
    (out : j ≠ k ∨ n < lo ∨ hi < n) : (s.setBit k n b).fld j hi lo = s.fld j hi lo := by
  by_cases same : j = k
  · subst same
    exact State.fld_setFld_apart s j h le_rfl (b2n b) (by omega) order
  · exact State.fld_setFld_other same s n n (b2n b) hi lo

theorem SameRegsBut.setFld {ks : List Nat} {k : Nat} (hk : k ∈ ks) (s : State) (hi lo v : Nat) : SameRegsBut ks s (s.setFld k hi lo v) :=
  .setReg hk s _

theorem SameRegsBut.setBit {ks : List Nat} {k : Nat} (hk : k ∈ ks) (s : State) (i : Nat) (b : Bool) : SameRegsBut ks s (s.setBit k i b) :=
  .setReg hk s _

/-! ## A command register that stores nothing -/

/-- Registers, Cavern and memory are those of another state. -/
structure SameCavern (s t : State) : Prop where
  regs : SameRegsBut [] s t
  cav : t.cav = s.cav
  mem : t.mem = s.mem

/-- A write of a register that stores nothing of it only acts, on a state in which access control alone has changed. -/
theorem State.command_stores_nothing {s : State} {m : Master} {a : Nat} {r : RegRow} (takes : s.Takes m a) (row : regRow a = some r)
    (stores : r.Stores 0) (direct : a < 0x1000000) (aligned : a % 4 = 0) (other : a ≠ Reg.GLB_UNLOCK) (out : inWindow a = false)
    (data : Word) : ∃ u old new, s.command m a data = u.wrote m a old new data ∧ SameCavern s u := by
  obtain ⟨acc, written⟩ := State.command_of_takes takes row stores direct aligned other out data
  refine ⟨_, _, _, written, fun k _ => ?_, rfl, rfl⟩
  have kept : storedWord (BitVec.ofNat 32 (0 &&& 0xFFFFFFFF)) (s.reg a) data = s.reg a := BitVec.eq_of_getLsbD_eq fun i _ => by
    simp [-BitVec.getLsbD_eq_getElem, getLsbD_storedWord]
  rw [State.writes, kept, State.reg_setReg]
  split
  next same => rw [same]
  · rfl

/-! ## Training (R182) -/

/-- The row of SUMP_TRAIN (Table CAV-9), which stores nothing of what is written. -/
def trainRow : RegRow := row 0x0B0008 [] [(.go, 0x1)] 0

theorem regRow_sumpTrain : regRow Reg.SUMP_TRAIN = some trainRow := by decide

/-- START written outside the limited RUN starts training. -/
theorem State.exec_sumpTrain {s : State} {m : Master} {data : Word} (takes : s.Takes m Reg.SUMP_TRAIN) (start : data.getLsbD 0 = true)
    (full : s.bit Reg.GLB_MODE 3 = false) : ∃ u, exec (.sumpTrain m data) s = .next u.startTraining ∧ SameCavern s u := by
  obtain ⟨u, old, new, written, same⟩ := State.command_stores_nothing takes regRow_sumpTrain ⟨rfl, rfl, rfl⟩ (by decide) (by decide)
    (by decide) (by decide) data
  have full' : u.bit Reg.GLB_MODE 3 = false := (same.regs.bit (by simp) 3).trans full
  have acts : u.wrote m Reg.SUMP_TRAIN old new data = u.wroteSump Reg.SUMP_TRAIN data := rfl
  refine ⟨u, ?_, same⟩
  simp only [exec, execSumpTrain, State.whenCore_on takes.1.1, written, acts, State.wroteSump, start, full', Bool.not_false, Bool.and_self,
    if_true]

/-- Sump that is not ready is shown untrained. -/
def State.unready (s : State) : State :=
  ((s.setBit Reg.SUMP_STATUS 1 false).setFld Reg.SUMP_STATUS 5 4 0).setBit Reg.SUMP_STATUS 6 false

theorem State.untrain_of_unready {s : State} (h : s.sumpReady = false) : s.untrain = s.unready := by
  simp only [State.untrain, h, Bool.false_eq_true, if_false]
  rfl

theorem State.unready_regs (s : State) : SameRegsBut [Reg.SUMP_TRAIN, Reg.SUMP_STATUS] s s.unready :=
  ((SameRegsBut.setBit (by simp) s _ _).trans (.setFld (by simp) _ _ _ _)).trans (.setBit (by simp) _ _ _)

theorem State.unready_keeps (s : State) : s.unready.cav = s.cav ∧ s.unready.mem = s.mem := by
  simp [State.unready]

/-- Without TRAINED there is no size; READY is as it was. -/
theorem State.unready_shown (s : State) : s.unready.bit Reg.SUMP_STATUS 1 = false ∧ s.unready.fld Reg.SUMP_STATUS 5 4 = 0 ∧
    s.unready.sumpReady = s.sumpReady := by
  refine ⟨by simp [State.unready, State.bit_setBit, State.bit_setFld_out], ?_,
    by simp [State.sumpReady, State.unready, State.bit_setBit, State.bit_setFld_out]⟩
  rw [State.unready, State.fld_setBit_out _ _ _ (by decide) (by decide) _ (by decide),
    State.fld_setFld_same _ _ (by decide) (by decide), Nat.zero_mod]

/-- A listed geometry trains; one that is not listed fails at once. -/
theorem State.startTraining_spec {s : State} (fitted : s.bit Reg.SUMP_STATUS 0 = true) (idle : s.bit Reg.SUMP_TRAIN 0 = false)
    (unready : s.sumpReady = false) : s.startTraining =
      if geomSize (s.reg Reg.SUMP_GEOM) = 0 then s.unready.setBit Reg.SUMP_STATUS 9 true else s.unready.setBit Reg.SUMP_TRAIN 0 true := by
  simp only [State.startTraining, fitted, idle, State.untrain_of_unready unready, Bool.not_true, Bool.or_self, Bool.false_eq_true, if_false]

section

variable {s u : State} (same : SameCavern s u) (fitted : s.bit Reg.SUMP_STATUS 0 = true) (idle : s.bit Reg.SUMP_TRAIN 0 = false)
  (unready : s.sumpReady = false)

include same fitted idle unready

theorem State.startTraining_listed (listed : geomSize (s.reg Reg.SUMP_GEOM) ≠ 0) :
    u.startTraining.bit Reg.SUMP_TRAIN 0 = true ∧ u.startTraining.sumpReady = false ∧ u.startTraining.cav = s.cav ∧
      SameRegsBut [Reg.SUMP_TRAIN, Reg.SUMP_STATUS] s u.startTraining ∧ SameMemory s u.startTraining := by
  obtain ⟨regs, cav, mem⟩ := same
  obtain ⟨cav', mem'⟩ := u.unready_keeps
  have ready' : u.bit Reg.SUMP_STATUS 2 = false := (regs.bit (by simp) 2).trans unready
  have started : u.startTraining = u.unready.setBit Reg.SUMP_TRAIN 0 true := by
    rw [State.startTraining_spec ((regs.bit (by simp) 0).trans fitted) ((regs.bit (by simp) 0).trans idle) ready', regs _ (by simp),
      if_neg listed]
  rw [started]
  refine ⟨State.bit_setBit_same _ _ (by decide) _, ?_, by simp [cav', cav], ?_, .of_mem (by simp [mem', mem])⟩
  · simpa [State.sumpReady, State.unready, State.bit_setBit, State.bit_setFld_out] using ready'
  · exact ((regs.mono (by simp)).trans u.unready_regs).trans (.setBit (by simp) _ _ _)

theorem State.startTraining_unlisted (unlisted : geomSize (s.reg Reg.SUMP_GEOM) = 0) :
    u.startTraining.bit Reg.SUMP_TRAIN 0 = false ∧ u.startTraining.bit Reg.SUMP_STATUS 9 = true ∧ u.startTraining.cav = s.cav ∧
      SameRegsBut [Reg.SUMP_TRAIN, Reg.SUMP_STATUS] s u.startTraining ∧ SameMemory s u.startTraining := by
  obtain ⟨regs, cav, mem⟩ := same
  obtain ⟨cav', mem'⟩ := u.unready_keeps
  have idle' : u.bit Reg.SUMP_TRAIN 0 = false := (regs.bit (by simp) 0).trans idle
  have failed : u.startTraining = u.unready.setBit Reg.SUMP_STATUS 9 true := by
    rw [State.startTraining_spec ((regs.bit (by simp) 0).trans fitted) idle' ((regs.bit (by simp) 2).trans unready), regs _ (by simp),
      if_pos unlisted]
  rw [failed]
  refine ⟨?_, State.bit_setBit_same _ _ (by decide) _, by simp [cav', cav], ?_, .of_mem (by simp [mem', mem])⟩
  · simpa [State.unready, State.bit_setBit, State.bit_setFld_out] using idle'
  · exact ((regs.mono (by simp)).trans u.unready_regs).trans (.setBit (by simp) _ _ _)

end

/-- What the status shows when a training has ended well. -/
def State.trainedStatus (s : State) (size : Nat) : State :=
  ((((s.setBit Reg.SUMP_STATUS 1 true).setBit Reg.SUMP_STATUS 2 true).setBit Reg.SUMP_STATUS 3 false).setFld Reg.SUMP_STATUS 5 4
    size).setBit Reg.SUMP_STATUS 9 false

/-- Bank 0 is live, and both banks are being cleared (R295). -/
def State.banksReset (s : State) : State :=
  ((s.setBit Reg.CNT_SNAP_STATUS 1 false).setBit Reg.CNT_SNAP_STATUS 2 false).setBit Reg.CNT_SNAP_STATUS 3 true

/-- Both banks hold zero pairs. -/
def State.banksCleared (s : State) : State :=
  { s with cav := { s.cav with countersA := [], countersB := [], bothClearing := true } }

theorem State.trained_ok {s : State} (listed : geomSize (s.reg Reg.SUMP_GEOM) ≠ 0) : s.trained true =
    ((s.setReg Reg.SUMP_TRAIN 0).trainedStatus (geomSize (s.reg Reg.SUMP_GEOM))).banksReset.banksCleared := by
  simp only [State.trained, Bool.true_and, bne_iff_ne, ne_eq, listed, not_false_eq_true, if_true]
  rfl

theorem State.trained_failed (s : State) : s.trained false = (s.setReg Reg.SUMP_TRAIN 0).setBit Reg.SUMP_STATUS 9 true := rfl

theorem geomSize_lt (g : Word) : geomSize g < 4 := by
  unfold geomSize
  split <;> decide

theorem State.trainedStatus_regs (s : State) (size : Nat) : SameRegsBut [Reg.SUMP_STATUS] s (s.trainedStatus size) :=
  ((((SameRegsBut.setBit (by simp) s _ _).trans (.setBit (by simp) _ _ _)).trans (.setBit (by simp) _ _ _)).trans
    (.setFld (by simp) _ _ _ _)).trans (.setBit (by simp) _ _ _)

theorem State.banksReset_regs (s : State) : SameRegsBut [Reg.CNT_SNAP_STATUS] s s.banksReset :=
  ((SameRegsBut.setBit (by simp) s _ _).trans (.setBit (by simp) _ _ _)).trans (.setBit (by simp) _ _ _)

/-- The status of a training that has ended well: TRAINED, READY and the size. -/
theorem State.trainedStatus_shown (s : State) {size : Nat} (small : size < 4) :
    (s.trainedStatus size).bit Reg.SUMP_STATUS 1 = true ∧ (s.trainedStatus size).bit Reg.SUMP_STATUS 2 = true ∧
      (s.trainedStatus size).fld Reg.SUMP_STATUS 5 4 = size := by
  refine ⟨by simp [State.trainedStatus, State.bit_setBit, State.bit_setFld_out],
    by simp [State.trainedStatus, State.bit_setBit, State.bit_setFld_out], ?_⟩
  rw [State.trainedStatus, State.fld_setBit_out _ _ _ (by decide) (by decide) _ (by decide),
    State.fld_setFld_same _ _ (by decide) (by decide)]
  exact Nat.mod_eq_of_lt small

/-- A training that ends well leaves Sump trained and ready, with both banks cleared. -/
theorem State.trained_ok_spec {s : State} (listed : geomSize (s.reg Reg.SUMP_GEOM) ≠ 0) :
    (s.trained true).bit Reg.SUMP_STATUS 1 = true ∧ (s.trained true).sumpReady = true ∧
      (s.trained true).fld Reg.SUMP_STATUS 5 4 = geomSize (s.reg Reg.SUMP_GEOM) ∧ (s.trained true).bit Reg.SUMP_TRAIN 0 = false ∧
      (s.trained true).cav.countersA = [] ∧ (s.trained true).cav.countersB = [] ∧
      SameRegsBut [Reg.SUMP_TRAIN, Reg.SUMP_STATUS, Reg.CNT_SNAP_STATUS] s (s.trained true) ∧ SameMemory s (s.trained true) := by
  let u := s.setReg Reg.SUMP_TRAIN 0
  let v := u.trainedStatus (geomSize (s.reg Reg.SUMP_GEOM))
  obtain ⟨trained, ready, size⟩ := u.trainedStatus_shown (geomSize_lt (s.reg Reg.SUMP_GEOM))
  have banks : SameRegsBut [Reg.CNT_SNAP_STATUS] v v.banksReset.banksCleared := v.banksReset_regs.of_regs_right rfl
  have status : v.banksReset.banksCleared.reg Reg.SUMP_STATUS = v.reg Reg.SUMP_STATUS := banks _ (by decide)
  have train : v.banksReset.banksCleared.reg Reg.SUMP_TRAIN = 0 :=
    (banks _ (by decide)).trans ((u.trainedStatus_regs _ _ (by decide)).trans (State.reg_setReg_same s _ 0))
  rw [State.trained_ok listed]
  refine ⟨?_, ?_, ?_, ?_, rfl, rfl, ?_, .of_mem (by simp [State.banksCleared, State.banksReset, State.trainedStatus])⟩
  · exact (congrArg (BitVec.getLsbD · 1) status).trans trained
  · exact (congrArg (BitVec.getLsbD · 2) status).trans ready
  · exact (congrArg (bitsOf · 5 4) status).trans size
  · exact congrArg (BitVec.getLsbD · 0) train
  · exact ((SameRegsBut.setReg (by simp) s 0).trans ((u.trainedStatus_regs _).mono (by simp))).trans (banks.mono (by simp))

/-- A training that fails is shown. -/
theorem State.trained_failed_spec (s : State) :
    (s.trained false).bit Reg.SUMP_STATUS 9 = true ∧ (s.trained false).bit Reg.SUMP_TRAIN 0 = false ∧ (s.trained false).cav = s.cav ∧
      SameRegsBut [Reg.SUMP_TRAIN, Reg.SUMP_STATUS] s (s.trained false) ∧ SameMemory s (s.trained false) := by
  have train : ((s.setReg Reg.SUMP_TRAIN 0).setBit Reg.SUMP_STATUS 9 true).reg Reg.SUMP_TRAIN = 0 :=
    (State.reg_setBit_other (by decide) _ _ _).trans (State.reg_setReg_same s _ 0)
  rw [State.trained_failed]
  exact ⟨State.bit_setBit_same _ _ (by decide) _, congrArg (BitVec.getLsbD · 0) train, by simp,
    (SameRegsBut.setReg (by simp) s 0).trans (.setBit (by simp) _ _ _), .of_mem (by simp)⟩

theorem State.exec_sumpTrainingEnd {s : State} (core : s.coreOn = true) (training : s.bit Reg.SUMP_TRAIN 0 = true) (ok : Bool) :
    exec (.sumpTrainingEnd ok) s = .next (s.trained ok) := by
  simp only [exec, execSumpTrainingEnd, State.whenCore_on core, training, if_true]

/-! ## Patrol (R184) -/

section

variable {s : State} (core : s.coreOn = true) (on : s.bit Reg.SUMP_CFG 1 = true) (ready : s.sumpReady = true)

include core on ready

/-- A corrected read is counted, and the patrol moves on by one unit. -/
theorem State.patrolCorrected_spec (more : s.fld Reg.SUMP_PATROL_POS 26 0 + 1 < s.sumpUnits) :
    ∃ t, exec (.sumpPatrolScrub .corrected) s = .next t ∧ Counted Reg.SUMP_CE s t ∧
      (t.reg Reg.SUMP_PATROL_POS).toNat = s.fld Reg.SUMP_PATROL_POS 26 0 + 1 ∧
      SameRegsBut [Reg.SUMP_CE, Reg.SUMP_PATROL_POS] s t ∧ SameMemory s t := by
  have small : s.fld Reg.SUMP_PATROL_POS 26 0 < 2 ^ 27 := bitsOf_lt (s.reg Reg.SUMP_PATROL_POS) 26 0
  refine ⟨(s.count Reg.SUMP_CE).setRegN Reg.SUMP_PATROL_POS (s.fld Reg.SUMP_PATROL_POS 26 0 + 1), ?_,
    (Counted.count _ s).congr (State.reg_setReg_other (by decide) _ _), ?_, (SameRegsBut.count (by simp) s).trans (.setReg (by simp) _ _),
    .of_mem (by simp)⟩
  · simp only [exec, execSumpPatrolScrub, State.whenCore_on core, on, ready, Bool.not_true, Bool.or_self, Bool.false_eq_true, if_false,
      more, if_true]
  · rw [State.reg_setRegN, if_pos rfl, BitVec.toNat_ofNat]
    exact Nat.mod_eq_of_lt (by omega)

/-- After the last unit the patrol begins again, and a pass is counted. -/
theorem State.patrolLast_spec (last : s.sumpUnits ≤ s.fld Reg.SUMP_PATROL_POS 26 0 + 1) :
    ∃ t, exec (.sumpPatrolScrub .clean) s = .next t ∧ t.reg Reg.SUMP_PATROL_POS = 0 ∧ Counted Reg.SUMP_PATROL_PASSES s t ∧
      SameRegsBut [Reg.SUMP_PATROL_PASSES, Reg.SUMP_PATROL_POS] s t ∧ SameMemory s t := by
  refine ⟨(s.setReg Reg.SUMP_PATROL_POS 0).count Reg.SUMP_PATROL_PASSES, ?_,
    (State.reg_count_other (by decide) _).trans (State.reg_setReg_same s _ 0),
    (Counted.count _ _).after (State.reg_setReg_other (by decide) s 0), (SameRegsBut.setReg (by simp) s 0).trans (.count (by simp) _),
    .of_mem (by simp)⟩
  simp only [exec, execSumpPatrolScrub, State.whenCore_on core, on, ready, Bool.not_true, Bool.or_self, Bool.false_eq_true, if_false,
    Nat.not_lt.mpr last]

end

/-! ## The error FIFO (R184, R279) -/

/-- The row of SUMP_UE_POP, which stores nothing of what is written. -/
def uePopRow : RegRow := row 0x0B0028 [] [(.pop, 0xFFFFFFFF)] 0

theorem regRow_sumpUePop : regRow Reg.SUMP_UE_POP = some uePopRow := by decide

/-- The oldest record of the FIFO is gone. -/
def State.uePopped (s : State) : State := { s with cav := { s.cav with ueFifo := s.cav.ueFifo.drop 1 } }

theorem State.sumpUePop_spec {s : State} {m : Master} (takes : s.Takes m Reg.SUMP_UE_POP) (data : Word) :
    ∃ t, exec (.sumpUePop m data) s = .next t ∧ t.cav.ueFifo = s.cav.ueFifo.drop 1 ∧ t.cav.queues = s.cav.queues ∧ SameMemory s t := by
  obtain ⟨u, old, new, written, -, cav, mem⟩ := State.command_stores_nothing takes regRow_sumpUePop ⟨rfl, rfl, rfl⟩ (by decide) (by decide)
    (by decide) (by decide) data
  have popped : u.wrote m Reg.SUMP_UE_POP old new data = u.uePopped := rfl
  refine ⟨u.uePopped, ?_, by rw [State.uePopped, cav], by rw [State.uePopped, cav], .of_mem mem⟩
  simp only [exec, execSumpUePop, State.whenCore_on takes.1.1, written, popped]

/-- Settles O36: each command by the equation above for the branch that it takes. -/
theorem sumpTraining : Obligations.SumpTraining := by
  intro s core
  refine ⟨fun m data takes start full fitted idle unready => ⟨fun listed => ?_, fun unlisted => ?_⟩,
    fun training => ⟨fun listed => ?_, ?_⟩,
    fun on ready => ⟨State.patrolCorrected_spec core on ready, State.patrolLast_spec core on ready⟩,
    fun m data takes => State.sumpUePop_spec takes data, fun hot ready => ?_⟩
  · obtain ⟨u, run, same⟩ := State.exec_sumpTrain takes start full
    exact ⟨_, run, State.startTraining_listed same fitted idle unready listed⟩
  · obtain ⟨u, run, same⟩ := State.exec_sumpTrain takes start full
    exact ⟨_, run, State.startTraining_unlisted same fitted idle unready unlisted⟩
  · exact ⟨_, State.exec_sumpTrainingEnd core training true, State.trained_ok_spec listed⟩
  · exact ⟨_, State.exec_sumpTrainingEnd core training false, s.trained_failed_spec⟩
  · refine ⟨s.setBit Reg.SUMP_STATUS 6 hot, ?_, State.bit_setBit_same s _ (by decide) hot, .setBit (by simp) s _ _, by simp,
      .of_mem (by simp)⟩
    simp only [exec, execMprTemperatureRead, State.whenCore_on core, ready, if_true]

end Sys2Proof.Machine
end

section
/-! The spill path: frames on their way to Sump, their return, and the fall of READY (R177-R181, R187). -/

namespace Sys2Proof.Machine

open Sys2Proof

/-! ## Queues of one frame -/

theorem State.modRef_refs {s : State} {q : QueueIx} {r : QRef} (alone : s.cav.queues[q].refs = [r]) (f : QRef → QRef) :
    (s.modRef q r.id f).cav.queues[q].refs = [f r] := by
  simp only [State.modRef, State.modQueue, vmod_same, alone, List.map_cons, List.map_nil, if_true]

theorem State.pageReturned_refs (s : State) (q : QueueIx) (n : Nat) :
    (s.pageReturned q n).cav.queues[q].refs = s.cav.queues[q].refs := by
  simp only [State.pageReturned, State.modQueue, vmod_same]

theorem State.count_cav (s : State) (k : Nat) : (s.count k).cav = s.cav := by simp

theorem State.release_queues (s : State) (id : Nat) :
    (s.release id).cav.queues = s.cav.queues ∧ (s.release id).cav.waiting = s.cav.waiting := by
  unfold State.release
  split <;> exact ⟨rfl, rfl⟩

/-- A reference leaves its queue; frames that wait for a place go on waiting. -/
theorem State.dropRef_refs (s : State) (q : QueueIx) (id : Nat) :
    (s.dropRef q id).cav.queues[q].refs = s.cav.queues[q].refs.filter (fun r => r.id != id) ∧
      (s.dropRef q id).cav.waiting = s.cav.waiting := by
  simp only [State.dropRef, State.emptyDeficit_keeps, State.release_queues, State.modQueue, vmod_same, and_self]

/-- The one reference of a queue leaves it empty. -/
theorem State.dropRef_alone {s : State} {q : QueueIx} {r : QRef} (alone : s.cav.queues[q].refs = [r]) :
    (s.dropRef q r.id).cav.queues[q].refs = [] := by
  rw [(s.dropRef_refs q r.id).1, alone]
  simp

/-- Of the registers a reference that leaves writes deficits alone. -/
theorem State.reg_dropRef (s : State) (q : QueueIx) (id : Nat) {k : Nat} (h : k < 0x0C0000) : (s.dropRef q id).reg k = s.reg k := by
  have deficit (t : State) : (t.emptyDeficit q).reg k = t.reg k := by
    unfold State.emptyDeficit
    split
    · exact State.reg_setReg_other (by unfold Reg.SCHED_DEFICIT; omega) t _
    · rfl
  exact (deficit _).trans (State.reg_of_regs (State.release_regs _ id) k)

/-! ## A frame on its way to Sump (R177, R187) -/

/-- The last cell of a frame is in Sump: it waits no more, and its resident cells are free. -/
def State.spillWritten (s : State) (q : QueueIx) (r : QRef) : State :=
  let s1 := (s.modRef q r.id fun y => { y with waiting := false }).modStored r.id fun f => { f with cells := [], resv := 0, pool := 0 }
  { s1 with cav := { s1.cav with spillQ := s1.cav.spillQ - r.cells } }

/-- Errors met in the chambers of a frame's cells. -/
def State.cellsBad (s : State) (cs : List ChamberIx) : State := s.over cs State.chamberUe

/-- An error in a chamber is counted there; queues, memory and the count of frames discarded stay. -/
theorem State.cellsBad_spec (s : State) (cs : List ChamberIx) :
    (s.cellsBad cs).cav.queues = s.cav.queues ∧ (s.cellsBad cs).cav.waiting = s.cav.waiting ∧ (s.cellsBad cs).mem = s.mem ∧
      (s.cellsBad cs).reg Reg.CAV_UE_DISC = s.reg Reg.CAV_UE_DISC := by
  refine State.over_induction (I := fun t => t.cav.queues = s.cav.queues ∧ t.cav.waiting = s.cav.waiting ∧ t.mem = s.mem ∧
    t.reg Reg.CAV_UE_DISC = s.reg Reg.CAV_UE_DISC) ⟨rfl, rfl, rfl, rfl⟩ fun t c _ ⟨queues, waiting, mem, reg⟩ => ?_
  have apart : Reg.CAV_UE_DISC ≠ Reg.CAV_CH_UE c.val := by unfold Reg.CAV_UE_DISC Reg.CAV_CH_UE; omega
  exact ⟨queues, waiting, mem, (State.reg_count_other apart _).trans reg⟩

section

variable {s : State} {q : QueueIx} {r : QRef} {f : Stored} (core : s.coreOn = true) (idle : s.cav.waiting = [])
  (alone : s.cav.queues[q].refs = [r]) (waits : r.waiting = true) (stored : s.stored r.id = some f)

include core idle alone waits stored

theorem State.exec_spillWritten (sound : s.damagedIn f.cells = []) : exec (.spillWriteComplete q) s = .next (s.spillWritten q r) := by
  have quiet : (s.spillWritten q r).settle = s.spillWritten q r := State.settle_idle (s := s.spillWritten q r) idle
  rw [← quiet]
  simp only [exec, execSpillWriteComplete, State.whenCore_on core, alone, List.find?_cons, waits, stored, Option.map_some, sound]
  rfl

theorem State.exec_spillDamaged (bad : s.damagedIn f.cells ≠ []) : exec (.spillWriteComplete q) s =
    .next (((s.cellsBad (s.damagedIn f.cells)).dropRef q r.id).count Reg.CAV_UE_DISC) := by
  obtain ⟨-, waiting, -, -⟩ := s.cellsBad_spec (s.damagedIn f.cells)
  have idle' : (((s.cellsBad (s.damagedIn f.cells)).dropRef q r.id).count Reg.CAV_UE_DISC).cav.waiting = [] := by
    rw [State.count_cav, (State.dropRef_refs _ q r.id).2, waiting, idle]
  obtain ⟨c, cs, found⟩ := List.exists_cons_of_ne_nil bad
  rw [← State.settle_idle idle', found]
  simp only [exec, execSpillWriteComplete, State.whenCore_on core, alone, List.find?_cons, waits, stored, Option.map_some, found]
  rfl

/-- A frame whose last cell is in Sump waits no more. -/
theorem State.spillWritten_spec (sound : s.damagedIn f.cells = []) : ∃ t, exec (.spillWriteComplete q) s = .next t ∧
    t.cav.queues[q].refs = [{ r with waiting := false }] ∧ t.cav.spillQ = s.cav.spillQ - r.cells ∧ SameRegsBut [] s t ∧
      SameMemory s t :=
  ⟨_, State.exec_spillWritten core idle alone waits stored sound, State.modRef_refs alone fun y => { y with waiting := false }, rfl,
    .of_regs rfl _, .of_mem rfl⟩

/-- A frame with a damaged cell is discarded and counted. -/
theorem State.spillDamaged_spec (bad : s.damagedIn f.cells ≠ []) : ∃ t, exec (.spillWriteComplete q) s = .next t ∧
    t.cav.queues[q].refs = [] ∧ Counted Reg.CAV_UE_DISC s t ∧ SameMemory s t := by
  obtain ⟨queues, -, mem, reg⟩ := s.cellsBad_spec (s.damagedIn f.cells)
  have alone' : (s.cellsBad (s.damagedIn f.cells)).cav.queues[q].refs = [r] := by rw [queues, alone]
  refine ⟨_, State.exec_spillDamaged core idle alone waits stored bad, ?_, ?_, .of_mem ?_⟩
  · rw [State.count_cav, State.dropRef_alone alone']
  · exact (Counted.count _ _).after ((State.reg_dropRef _ q r.id (by decide)).trans reg)
  · simp [State.dropRef_keeps, mem]

end

/-! ## Cells given to a frame (R165-R167) -/

/-- A byte lies outside a cell. -/
def Cell.misses (c : Cell) (a : Nat) : Prop := a < cellAddr c.chamber.val c.row ∨ cellAddr c.chamber.val c.row + 256 ≤ a

/-- A stored frame has been given cells, and no byte outside its cells has changed. -/
structure CellsGiven (id : Nat) (s t : State) : Prop where
  grown : ∀ g, t.stored id = some g → ∃ f, s.stored id = some f ∧ f.cells ⊆ g.cells
  outside : ∀ g, t.stored id = some g → ∀ a, (∀ c ∈ g.cells, c.misses a) → t.byte a = s.byte a

theorem CellsGiven.refl (id : Nat) (s : State) : CellsGiven id s s := ⟨fun g h => ⟨g, h, List.Subset.refl _⟩, fun _ _ _ _ => rfl⟩

theorem CellsGiven.trans {id : Nat} {s t u : State} (h : CellsGiven id s t) (h' : CellsGiven id t u) : CellsGiven id s u where
  grown g hg := by
    obtain ⟨f, hf, sub⟩ := h'.grown g hg
    obtain ⟨e, he, sub'⟩ := h.grown f hf
    exact ⟨e, he, List.Subset.trans sub' sub⟩
  outside g hg a out := by
    obtain ⟨f, hf, sub⟩ := h'.grown g hg
    exact (h'.outside g hg a out).trans (h.outside f hf a fun c hc => out c (sub hc))

/-- A stored frame after a change that keeps identities. -/
theorem State.stored_modStored (s : State) (id : Nat) {f : Stored → Stored} (h : ∀ x, (f x).id = x.id) :
    (s.modStored id f).stored id = (s.stored id).map f := by
  have same : ((fun x : Stored => x.id == id) ∘ fun x => if x.id = id then f x else x) = fun x => x.id == id := by
    funext x
    by_cases e : x.id = id <;> simp [e, h]
  simp only [State.stored, State.modStored, List.find?_map, same]
  refine Option.map_congr fun x hx => if_pos ?_
  simpa using List.find?_some hx

theorem cellBytes_length_le (f : Frame) (k : Nat) : (f.cellBytes k).length ≤ 256 := by
  simp [Frame.cellBytes]

/-- Where a cell is given at all, it is added to those of its frame and its bytes are written in it. -/
theorem State.allocCell_cases (s : State) (id : Nat) (bytes : List Byte) (c : Nat) : s.allocCell id bytes c = s ∨
    ∃ (cell : Cell) (u : State), s.allocCell id bytes c = u.setBytes (cellAddr cell.chamber.val cell.row) bytes ∧ u.mem = s.mem ∧
      u.cav.queues = s.cav.queues ∧ u.stored id = (s.stored id).map fun f => { f with cells := f.cells ++ [cell] } := by
  unfold State.allocCell
  split
  · exact .inl rfl
  next ch _ =>
    exact .inr ⟨{ chamber := ch, row := _, epoch := _ }, _, rfl, rfl, rfl, State.stored_modStored s.drawn id fun _ => rfl⟩

theorem State.setBytes_cav (s : State) (a : Nat) (bs : List Byte) : (s.setBytes a bs).cav = s.cav := by simp

theorem State.allocCell_given (s : State) (id : Nat) {bytes : List Byte} (small : bytes.length ≤ 256) (c : Nat) :
    CellsGiven id s (s.allocCell id bytes c) := by
  rcases s.allocCell_cases id bytes c with same | ⟨cell, u, given, mem, -, stored⟩
  · rw [same]
    exact .refl id s
  · have held : (s.allocCell id bytes c).stored id = (s.stored id).map fun f => { f with cells := f.cells ++ [cell] } := by
      rw [given, State.stored, State.setBytes_cav]
      exact stored
    refine ⟨fun g hg => ?_, fun g hg a out => ?_⟩
    all_goals obtain ⟨f, hf, rfl⟩ := Option.map_eq_some_iff.mp (held.symm.trans hg)
    · exact ⟨f, hf, List.subset_append_left _ _⟩
    · have missed : cell.misses a := out cell (by simp)
      rw [given, State.byte_setBytes_out (by unfold Cell.misses at missed; omega), State.byte, mem]
      rfl

theorem State.allocCells_given (s : State) (id : Nat) (f : Frame) (n k c : Nat) : CellsGiven id s (s.allocCells id f n k c) := by
  induction n generalizing s k c with
  | zero => exact .refl id s
  | succ n ih => exact (s.allocCell_given id (cellBytes_length_le f k) c).trans (ih _ _ _)

theorem State.allocCell_queues (s : State) (id : Nat) (bytes : List Byte) (c : Nat) :
    (s.allocCell id bytes c).cav.queues = s.cav.queues := by
  rcases s.allocCell_cases id bytes c with same | ⟨cell, u, given, -, queues, -⟩
  · rw [same]
  · rw [given, State.setBytes_cav, queues]

theorem State.allocCells_queues (s : State) (id : Nat) (f : Frame) (n k c : Nat) :
    (s.allocCells id f n k c).cav.queues = s.cav.queues := by
  induction n generalizing s k c with
  | zero => rfl
  | succ n ih => exact (ih _ _ _).trans (s.allocCell_queues id _ c)

/-! ## A frame returns (R179, R180) -/

/-- An error found in Sump leaves queues, and counts no frame discarded. -/
theorem State.sumpError_leaves (s : State) (a region : Nat) : (s.sumpError a region).cav.queues = s.cav.queues ∧
    (s.sumpError a region).cav.waiting = s.cav.waiting ∧ (s.sumpError a region).reg Reg.SUMP_UE_DISC = s.reg Reg.SUMP_UE_DISC := by
  have first : (s.count Reg.SUMP_UE).reg Reg.SUMP_UE_DISC = s.reg Reg.SUMP_UE_DISC := State.reg_count_other (by decide) s
  unfold State.sumpError
  dsimp only
  split
  · exact ⟨rfl, rfl, first⟩
  · exact ⟨rfl, rfl, (State.reg_count_other (by decide) _).trans first⟩

/-- The error that a return meets is found somewhere in the spill area. -/
def State.returnError (s : State) : State := s.drawn.sumpError (0x1100000000 + s.free % max 1 (s.spillSize * 256)) 3

/-- A frame that is gone is no longer listed as bad. -/
def State.unpoisoned (s : State) (id : Nat) : State :=
  { s with cav := { s.cav with poisonSpill := s.cav.poisonSpill.filter fun i => i != id } }

theorem State.unpoisoned_leaves (s : State) (id : Nat) : (s.unpoisoned id).cav.queues = s.cav.queues ∧
    (s.unpoisoned id).cav.waiting = s.cav.waiting ∧ (s.unpoisoned id).regs = s.regs := ⟨rfl, rfl, rfl⟩

theorem State.pageReturned_leaves (s : State) (q : QueueIx) (n : Nat) :
    (s.pageReturned q n).cav.waiting = s.cav.waiting ∧ (s.pageReturned q n).regs = s.regs := ⟨rfl, rfl⟩

theorem State.discardSpilled_eq (s : State) (q : QueueIx) (r : QRef) : s.discardSpilled q r =
    (((s.returnError.dropRef q r.id).unpoisoned r.id).pageReturned q r.cells).count Reg.SUMP_UE_DISC := by
  simp only [State.discardSpilled, State.returnError, State.unpoisoned]

/-- A frame read with an uncorrectable error leaves its queue and is counted. -/
theorem State.discardSpilled_spec {s : State} {q : QueueIx} {r : QRef} (alone : s.cav.queues[q].refs = [r]) :
    (s.discardSpilled q r).cav.queues[q].refs = [] ∧ (s.discardSpilled q r).cav.waiting = s.cav.waiting ∧
      Counted Reg.SUMP_UE_DISC s (s.discardSpilled q r) := by
  obtain ⟨queues, waiting, reg⟩ : s.returnError.cav.queues = s.cav.queues ∧ s.returnError.cav.waiting = s.cav.waiting ∧
      s.returnError.reg Reg.SUMP_UE_DISC = s.reg Reg.SUMP_UE_DISC := State.sumpError_leaves s.drawn _ 3
  obtain ⟨queues', waiting', regs'⟩ := (s.returnError.dropRef q r.id).unpoisoned_leaves r.id
  rw [State.discardSpilled_eq]
  generalize (s.returnError.dropRef q r.id).unpoisoned r.id = u at queues' waiting' regs'
  obtain ⟨waiting'', regs''⟩ := u.pageReturned_leaves q r.cells
  have alone' : s.returnError.cav.queues[q].refs = [r] := by rw [queues, alone]
  refine ⟨?_, ?_, (Counted.count _ _).after ?_⟩
  · rw [State.count_cav, State.pageReturned_refs, queues', State.dropRef_alone alone']
  · rw [State.count_cav, waiting'', waiting', (State.dropRef_refs _ q r.id).2, waiting]
  · rw [State.reg_of_regs regs'', State.reg_of_regs regs', State.reg_dropRef _ q r.id (by decide), reg]

theorem State.returnNext_alone {s : State} {q : QueueIx} {r : QRef} (alone : s.cav.queues[q].refs = [r]) (spilled : r.spilled = true)
    (whole : r.waiting = false) : s.returnNext q = some r := by
  simp only [State.returnNext, alone, List.find?_cons, spilled, whole, Bool.false_eq_true, if_false]

/-- The one frame of a queue stands at its head. -/
theorem State.near_alone {s : State} {q : QueueIx} {r : QRef} (alone : s.cav.queues[q].refs = [r]) :
    ¬s.returnAhead ≤ cellsBefore r.id s.cav.queues[q].refs := by
  simp only [alone, cellsBefore, if_true, State.returnAhead]
  omega

section

variable {s : State} {q : QueueIx} {r : QRef} (core : s.coreOn = true) (alone : s.cav.queues[q].refs = [r]) (spilled : r.spilled = true)
  (whole : r.waiting = false) (ready : s.sumpReady = true)

include core alone spilled whole ready

/-- A frame read with an uncorrectable error is discarded and counted. -/
theorem State.returnBad_spec (idle : s.cav.waiting = []) : ∃ t, exec (.spillReturn q .uncorrectable) s = .next t ∧
    t.cav.queues[q].refs = [] ∧ Counted Reg.SUMP_UE_DISC s t ∧ SameMemory s t := by
  obtain ⟨gone, waiting, counted⟩ := State.discardSpilled_spec alone
  refine ⟨s.discardSpilled q r, ?_, gone, counted, .of_mem (by simp [State.discardSpilled_keeps])⟩
  simp only [exec, execSpillReturn, State.whenCore_on core, State.returnNext_alone alone spilled whole, ready, State.near_alone alone,
    decide_false, Bool.not_true, Bool.or_self, Bool.false_eq_true, if_false, beq_self_eq_true, Bool.true_or, if_true,
    State.settle_idle (waiting.trans idle)]

theorem State.exec_returnClean {f : Stored} {x : Nat × Nat} (sound : s.cav.poisonSpill.contains r.id = false)
    (stored : s.stored r.id = some f) (charge : s.chargeFor q r.cells = some x) :
    exec (.spillReturn q .clean) s = .next (s.unspill q r f x.1 x.2) := by
  have clean : (EccResult.clean == .uncorrectable) = false ∧ (EccResult.clean == .corrected) = false := by decide
  simp only [exec, execSpillReturn, State.whenCore_on core, State.returnNext_alone alone spilled whole, ready, State.near_alone alone,
    decide_false, Bool.not_true, Bool.or_self, Bool.false_eq_true, if_false, clean, sound, stored, charge]

end

/-- A reference whose frame has its cells again is resident, and its return is counted. -/
def State.returned (s : State) (q : QueueIx) (r : QRef) : State :=
  ((s.modRef q r.id fun y => { y with spilled := false }).pageReturned q r.cells).count48 Reg.SUMP_RETURN_FR_LO 1

theorem State.returned_refs {s : State} {q : QueueIx} {r : QRef} (alone : s.cav.queues[q].refs = [r]) :
    (s.returned q r).cav.queues[q].refs = [{ r with spilled := false }] := by
  have cav (t : State) : (t.count48 Reg.SUMP_RETURN_FR_LO 1).cav = t.cav := by simp
  rw [State.returned, cav, State.pageReturned_refs, State.modRef_refs alone]

theorem State.returned_count (s : State) (q : QueueIx) (r : QRef) :
    (s.returned q r).reg48 Reg.SUMP_RETURN_FR_LO = (s.reg48 Reg.SUMP_RETURN_FR_LO + 1) % 2 ^ 48 := by
  rw [State.returned, State.count48, State.reg48_setReg48, Nat.mod_mod]
  rfl

theorem State.returned_frames (s : State) (q : QueueIx) (r : QRef) :
    (s.returned q r).cav.frames = s.cav.frames ∧ (s.returned q r).mem = s.mem := ⟨rfl, rfl⟩

/-- The charge of a stored frame that has no cells yet. -/
def Stored.recharged (resv pool : Nat) (x : Stored) : Stored := { x with resv := resv, pool := pool, cells := [] }

/-- A stored frame has given up its charge and cells for those that it returns to. -/
def State.recharged (s : State) (id resv pool : Nat) : State := s.modStored id (Stored.recharged resv pool)

theorem State.unspill_eq (s : State) (q : QueueIx) (r : QRef) (f : Stored) (resv pool : Nat) : s.unspill q r f resv pool =
    ((s.recharged f.id resv pool).allocCells f.id f.frame f.frame.cells 0
      ((s.recharged f.id resv pool).cav.lastChamber.val + 1)).returned q r := rfl

/-- A returning frame is resident again and counted, and writes only the cells that it takes. -/
theorem State.unspill_spec {s : State} {q : QueueIx} {r : QRef} {f : Stored} (alone : s.cav.queues[q].refs = [r])
    (stored : s.stored r.id = some f) (resv pool : Nat) :
    (s.unspill q r f resv pool).cav.queues[q].refs = [{ r with spilled := false }] ∧
      (s.unspill q r f resv pool).reg48 Reg.SUMP_RETURN_FR_LO = (s.reg48 Reg.SUMP_RETURN_FR_LO + 1) % 2 ^ 48 ∧
      ∀ g, (s.unspill q r f resv pool).stored r.id = some g → ∀ a, (∀ c ∈ g.cells, c.misses a) →
        (s.unspill q r f resv pool).byte a = s.byte a := by
  have same : f.id = r.id := by simpa using List.find?_some stored
  rw [State.unspill_eq, same]
  generalize taken : (s.recharged r.id resv pool).allocCells r.id f.frame f.frame.cells 0 _ = t
  have given : CellsGiven r.id (s.recharged r.id resv pool) t := taken ▸ State.allocCells_given ..
  have queues : t.cav.queues = s.cav.queues := taken ▸ State.allocCells_queues ..
  have regs : t.regs = s.regs := by simp [← taken, State.allocCells_keeps, State.recharged, State.modStored]
  obtain ⟨frames, mem⟩ := t.returned_frames q r
  refine ⟨State.returned_refs (by rw [queues, alone]), ?_, fun g held a out => ?_⟩
  · rw [State.returned_count, State.reg48_congr (State.reg_of_regs regs _) (State.reg_of_regs regs _)]
  · rw [State.stored, frames] at held
    rw [State.byte, mem]
    exact given.outside g held a out

/-! ## READY falls (R181) -/

/-- Every spilled frame is discarded and counted. -/
def State.spilledLost (s : State) : State :=
  s.over (List.finRange 168) fun s q =>
    s.over (s.cav.queues[q].refs.filter (·.spilled)) fun s r => (s.dropRef q r.id).count Reg.SUMP_UE_DISC

/-- Nothing of Sump is held any more but pinned entries (R147, R181). -/
def State.sumpEmptied (s : State) : State :=
  { s with
    cav := { s.cav with spillQ := 0, poisonSpill := [] }
    tun := { s.tun with cache := s.tun.cache.filter fun l => l.entry.pin } }

theorem State.sumpEmptied_reg (s : State) (k : Nat) : s.sumpEmptied.reg k = s.reg k := State.reg_of_regs (by rfl) k

/-- Frames that are discarded leave the status of Sump. -/
theorem State.spilledLost_status (s : State) : s.spilledLost.reg Reg.SUMP_STATUS = s.reg Reg.SUMP_STATUS := by
  have each (t : State) (q : QueueIx) (r : QRef) :
      ((t.dropRef q r.id).count Reg.SUMP_UE_DISC).reg Reg.SUMP_STATUS = t.reg Reg.SUMP_STATUS :=
    (State.reg_count_other (by decide) _).trans (State.reg_dropRef t q r.id (by decide))
  exact State.over_induction (I := fun t => t.reg Reg.SUMP_STATUS = s.reg Reg.SUMP_STATUS) rfl fun t q _ kept =>
    State.over_induction (I := fun u => u.reg Reg.SUMP_STATUS = s.reg Reg.SUMP_STATUS) kept fun u r _ kept' => (each u q r).trans kept'

theorem State.sumpLost_eq (s : State) : s.sumpLost = (s.setBit Reg.SUMP_STATUS 2 false).spilledLost.sumpEmptied.settle := by
  simp only [State.sumpLost, State.spilledLost, State.sumpEmptied]

theorem State.sumpLost_notReady (s : State) : s.sumpLost.sumpReady = false := by
  have settled : s.sumpLost.reg Reg.SUMP_STATUS = (s.setBit Reg.SUMP_STATUS 2 false).spilledLost.sumpEmptied.reg Reg.SUMP_STATUS := by
    rw [State.sumpLost_eq]
    exact (State.settle_join (s.setBit Reg.SUMP_STATUS 2 false).spilledLost.sumpEmptied).regs _ (by unfold CountsJoin; decide)
  have status : s.sumpLost.reg Reg.SUMP_STATUS = (s.setBit Reg.SUMP_STATUS 2 false).reg Reg.SUMP_STATUS :=
    (settled.trans (State.sumpEmptied_reg _ _)).trans (State.spilledLost_status _)
  exact (congrArg (BitVec.getLsbD · 2) status).trans (State.bit_setBit_same s _ (by decide) false)

theorem State.exec_sumpReadyFall {s : State} (core : s.coreOn = true) (ready : s.sumpReady = true) :
    exec .sumpReadyFall s = .next s.sumpLost.unready := by
  simp only [exec, execSumpReadyFall, State.whenCore_on core, ready, if_true, State.untrain]
  rfl

/-- Settles O35: the frame that goes, the frame that comes back, and the fall of READY, each as above. -/
theorem spillAndReturn : Obligations.SpillAndReturn := by
  intro s q core idle
  refine ⟨fun r f alone waits stored => ⟨fun sound => ?_, fun bad => ?_⟩,
    fun r alone spilled whole ready => ⟨?_, fun f x sound stored charge => ?_⟩, fun ready => ?_⟩
  · exact State.spillWritten_spec core idle alone waits stored sound
  · exact State.spillDamaged_spec core idle alone waits stored bad
  · exact State.returnBad_spec core alone spilled whole ready idle
  · exact ⟨_, State.exec_returnClean core alone spilled whole ready sound stored charge, State.unspill_spec alone stored x.1 x.2⟩
  · obtain ⟨trained, size, same⟩ := s.sumpLost.unready_shown
    exact ⟨_, State.exec_sumpReadyFall core ready, same.trans s.sumpLost_notReady, trained, size,
      .of_mem (s.sumpLost.unready_keeps.2.trans (by simp [State.sumpLost_keeps]))⟩

end Sys2Proof.Machine
end

section
/-! A BIST that ends while more than 16 records wait for the log writer (R188, R435). -/

namespace Sys2Proof.Machine

open Sys2Proof

/-- The state in which a BIST has ended that shows BIST_DONE. -/
def State.bistDone (s : State) : State :=
  ({ s with cav := { s.cav with bistRun := false } } : State).setBit Reg.CAV_STATUS 0 true

theorem State.exec_bistEnd_clean {s : State} (core : s.coreOn = true) (run : s.cav.bistRun = true) :
    exec (.cavernBistEnd 0) s = .next (s.bistDone.inOrder id) := by
  have sound (l : List ChamberIx) : (l.filter fun c => (0 : BitVec 17).getLsbD c.val) = [] := by simp
  simp only [exec, execCavernBistEnd, State.whenCore_on core, run, Bool.not_true, Bool.false_eq_true, if_false, sound]
  rfl

/-- Of the records pending those past 16 are counted as lost, also where the command in between hands over none (R435). -/
theorem State.inOrder_id_lost (s : State) : ((s.inOrder id).reg Reg.LOG_LOST).toNat =
    min (2 ^ 32 - 1) ((s.reg Reg.LOG_LOST).toNat + (s.log.pending.length - 16)) := by
  simp only [State.inOrder, id, State.countN, State.reg_setRegN, if_true, List.foldl_nil, List.append_nil, BitVec.toNat_ofNat]
  exact Nat.mod_eq_of_lt (by omega)

/-- The state after reset with 17 records pending, one more than the log writer holds. -/
def overfullLog : State :=
  { State.reset with log := { State.reset.log with pending := List.replicate 17 (State.reset.eventRecord 0 0 []) } }

/-- Refutes O37: with 17 records pending, a BIST that finds no bad chamber counts one of them in LOG_LOST. -/
theorem not_chambersOfCavern : ¬ Obligations.ChambersOfCavern := by
  intro h
  obtain ⟨-, bist, -⟩ := h overfullLog rfl
  obtain ⟨t, run, -, -, regs, -⟩ := bist rfl
  obtain rfl := Host.Outcome.next.inj ((State.exec_bistEnd_clean rfl rfl).symm.trans run)
  have kept : (overfullLog.bistDone.inOrder id).reg Reg.LOG_LOST = overfullLog.reg Reg.LOG_LOST := regs _ (by decide)
  have lost := overfullLog.bistDone.inOrder_id_lost
  have zero : overfullLog.bistDone.reg Reg.LOG_LOST = 0 ∧ overfullLog.reg Reg.LOG_LOST = 0 := by decide
  have pending : overfullLog.bistDone.log.pending.length = 17 := rfl
  rw [kept, zero.1, zero.2, pending] at lost
  exact absurd lost (by decide)

end Sys2Proof.Machine
end

section
/-! Bytes stored by an access, and where (R183, R190, R259, R309, R313, R465). -/

namespace Sys2Proof.Machine

open Sys2Proof

/-! ## Bytes stored -/

/-- Bytes are stored from an address on; no other byte changes, and no register. -/
structure BytesStored (a : Nat) (bs : List Byte) (s t : State) : Prop where
  regs : SameRegsBut [] s t
  stored : ∀ i, i < bs.length → t.byte (a + i) = bs.getD i 0
  rest : ∀ b, b < a ∨ a + bs.length ≤ b → t.byte b = s.byte b

/-- The bytes that a write leaves, where the states before and after it agree with the write's own in registers and memory. -/
theorem BytesStored.setBytes {s u t : State} {a : Nat} {bs : List Byte} (regs : u.regs = s.regs) (mem : u.mem = s.mem)
    (regs' : t.regs = u.regs) (mem' : t.mem = (u.setBytes a bs).mem) : BytesStored a bs s t where
  regs := .of_regs (regs'.trans regs) _
  stored i h := by
    have written := State.byte_setBytes_in h u (a := a)
    rw [State.byte, mem', List.getD_eq_getElem _ _ h]
    exact written
  rest b out := by
    have kept := State.byte_setBytes_out out u
    rw [State.byte, mem']
    exact kept.trans (by rw [State.byte, State.byte, mem])

/-- Byte i of a little-endian number. -/
theorem getD_leBytes {n i : Nat} (h : i < n) (v : Nat) : (leBytes n v).getD i 0 = BitVec.ofNat 8 (v / 256 ^ i) := by
  induction n generalizing i v with
  | zero => omega
  | succ n ih =>
    cases i with
    | zero =>
      refine BitVec.eq_of_toNat_eq ?_
      simp [leBytes]
    | succ i =>
      rw [leBytes, List.getD_cons_succ, ih (Nat.lt_of_succ_lt_succ h), Nat.div_div_eq_div_mul, pow_succ']

theorem length_leBytes (n v : Nat) : (leBytes n v).length = n := by
  induction n generalizing v with
  | zero => rfl
  | succ n ih => rw [leBytes, List.length_cons, ih]

/-- The bytes of a word, least significant first. -/
theorem getD_leBytes_word {i : Nat} (h : i < 4) (w : Word) : (leBytes 4 w.toNat).getD i 0 = w.extractLsb' (8 * i) 8 := by
  refine BitVec.eq_of_toNat_eq ?_
  rw [getD_leBytes h, BitVec.toNat_ofNat, BitVec.extractLsb'_toNat, Nat.shiftRight_eq_div_pow, pow_mul]
  rfl

/-! ## A write outside the register space (R465) -/

/-- Where writes are made: the working half of a TCM, the Column region, and in TEST the diagnostic window. -/
def State.takesBytes (s : State) : Target → Prop
  | .tcm copy => copy = false
  | .columns => True
  | .diag => s.mode = .test
  | _ => False

/-- Registers lie below everything that Table MAP-1 places outside their space. -/
theorem inRegSpace_of_target {s : State} {a : Nat} (h : s.targetOf a ≠ .nothing) : inRegSpace a = false := by
  have above : 0x200000000 ≤ a := by
    by_contra below
    refine h ?_
    unfold State.targetOf
    rw [if_neg (by omega), if_neg (by omega), if_neg (by omega)]
  simp only [inRegSpace, Bool.or_eq_false_iff, Bool.and_eq_false_iff, decide_eq_false_iff_not]
  omega

theorem State.sumpAsleep_of_ready {s : State} (ready : s.sumpReady = true) (a : Nat) : s.sumpAsleep a = false := by
  simp [State.sumpAsleep, ready]

/-- A TCM and the diagnostic window lie below Sump. -/
theorem State.sumpAsleep_below {s : State} {a : Nat} (h : s.targetOf a = .tcm false ∨ s.targetOf a = .diag) :
    s.sumpAsleep a = false := by
  have below : a < 0x1000000000 := by
    unfold State.targetOf at h
    by_contra above
    rw [if_neg (by omega), if_neg (by omega)] at h
    split at h
    · split at h
      · simp at h
      · split at h
        · simp at h
        · split at h <;> simp at h
    · simp at h
  simp [State.sumpAsleep, below]

section

variable {s : State} {a n : Nat} {x : Target} (whole : ∀ i, i < n → s.targetOf (a + i) = x)

include whole

theorem State.targetOk_write (takes : s.takesBytes x) : s.targetOk true a n = true := by
  rw [State.targetOk, List.all_eq_true]
  intro i hi
  rw [whole i (List.mem_range.mp hi)]
  cases x <;> simp_all [State.takesBytes]

theorem State.nothingAt_false (there : x ≠ .nothing) : s.nothingAt a n = false := by
  rw [State.nothingAt, List.any_eq_false]
  intro i hi
  rw [whole i (List.mem_range.mp hi)]
  simpa using there

/-- A write that lies whole in one target that takes it stores its bytes there. -/
theorem State.perform_stores (pos : 0 < n) (takes : s.takesBytes x) (awake : s.sumpAsleep a = false) (m : Master) {data : List Byte}
    (long : data.length = n) : s.perform m true a n data = ((s.setBytes a data).healed a n, .done) := by
  subst long
  have there : x ≠ .nothing := fun e => by simp [e, State.takesBytes] at takes
  have outside : inRegSpace a = false := inRegSpace_of_target (s := s) (by simpa using (whole 0 pos).symm ▸ there)
  simp [State.perform, outside, State.memSpace, State.nothingAt_false whole there, State.targetOk_write whole takes, awake]

end

/-- Outside TEST a write to the diagnostic window is a bus error that stores nothing. -/
theorem State.perform_diag_refused {s : State} {a n : Nat} (whole : ∀ i, i < n → s.targetOf (a + i) = .diag) (pos : 0 < n)
    (normal : s.mode ≠ .test) (m : Master) (data : List Byte) : s.perform m true a n data = (s, .busError) := by
  have first : s.targetOf a = .diag := whole 0 pos
  have outside : inRegSpace a = false := inRegSpace_of_target (s := s) (by simp [first])
  have refused : s.targetOk true a n = false := by
    rw [State.targetOk, List.all_eq_false]
    exact ⟨0, List.mem_range.mpr pos, by simp [first, normal]⟩
  simp [State.perform, outside, State.memSpace, State.nothingAt_false whole (by decide), refused]

/-! ## From a command to its write -/

theorem State.size_pos_of_made {s : State} {m : Master} {n : Nat} (h : s.made m n = true) : 0 < n := by
  unfold State.made at h
  simp only [Bool.and_eq_true, bne_iff_ne] at h
  omega

/-- A permitted access that does not go through a Column's cache is performed at once. -/
theorem State.checked_uncached {s : State} {m : Master} {kind : AccessKind} {a n : Nat} (ok : (s.checkAccess m kind a n).ok = true)
    (uncached : s.Uncached m kind a n) (data : List Byte) : s.checked m kind a n data = s.perform m (kind == .write) a n data := by
  rcases uncached with off | none
  · simp [State.checked, ok, off]
  · simp [State.checked, ok, none]

/-- A write that reaches its target is performed, where it does not go through a Column's cache. -/
theorem State.access_write {s : State} {m : Master} {a n : Nat} {tag : Option EngineTag} (made : s.made m n = true)
    (alive : s.zombieWrite m .write tag = none) (role : s.roleless m = false) (ok : (s.checkAccess m .write a n).ok = true)
    (uncached : s.Uncached m .write a n) (data : List Byte) : s.access m .write a n data tag = s.perform m true a n data := by
  simp only [State.access, made, State.roleAccess, alive, role, State.checked_uncached ok uncached, Bool.not_true, Bool.false_eq_true,
    if_false, beq_self_eq_true]

/-- A permitted MEMORY_ACCESS that writes is delivered and performed. -/
theorem State.exec_memoryWrite {s : State} {a : Access} (core : s.coreOn = true) (write : a.kind = .write)
    (made : s.made a.master a.size = true) (alive : s.zombieWrite a.master .write a.tag = none) (role : s.roleless a.master = false)
    (ok : (s.checkAccess a.master .write a.addr.toNat a.size).ok = true) (uncached : s.Uncached a.master .write a.addr.toNat a.size) :
    ∃ o, exec (.memoryAccess a) s =
      .next (State.answered ((s.emit o).perform a.master true a.addr.toNat a.size a.data) a.master) := by
  have reaches : s.reaches a = true := by simp [State.reaches, made, write, alive, role, ok]
  obtain ⟨o, delivered⟩ : ∃ o, s.deliver a = s.emit o := ⟨_, by rw [State.deliver, if_pos reaches]⟩
  have read : (s.emit o).readEcc a = s.emit o := by simp [State.readEcc, write]
  refine ⟨o, ?_⟩
  simp only [exec, execMemoryAccess, State.whenCore_on core, delivered, read, write]
  rw [State.access_write (s := s.emit o) made alive role ok uncached]

/-- A permitted write-back to a ready Sump's Column region stores its bytes. -/
theorem State.writeBack_stores {s : State} {c : ColumnIx} {a : Nat} {data : List Byte} (pos : 0 < data.length)
    (ready : s.sumpReady = true) (ok : (s.checkAccess ⟨c.val, by omega⟩ .write a data.length).ok = true)
    (whole : ∀ i, i < data.length → s.targetOf (a + i) = .columns) :
    s.writeBack c a data = ((s.setBytes a data).healed a data.length, .done) := by
  unfold State.writeBack
  simp only [ok, Bool.not_true, Bool.false_eq_true, if_false]
  exact State.perform_stores whole pos trivial (State.sumpAsleep_of_ready ready a) _ rfl

/-- A word that a master writes outside the register space, past every Column's cache. -/
theorem State.command_write {s : State} {m : Master} {a : Nat} (admits : s.Admits m .write a 4) (uncached : s.Uncached m .write a 4)
    (w : Word) : s.command m a w = State.answered (s.perform m true a 4 (leBytes 4 w.toNat)) m := by
  obtain ⟨-, made, alive, role, ok⟩ := admits
  rw [State.command, State.writeAccess, State.access_write made alive role ok uncached]

theorem State.exec_diagWrite {s : State} {m : Master} {addr : BitVec 40} (admits : s.Admits m .write addr.toNat 4)
    (uncached : s.Uncached m .write addr.toNat 4) (diag : ∀ i, i < 4 → s.targetOf (addr.toNat + i) = .diag) (w : Word) :
    exec (.cavernDiagWrite m addr w) s = .next (State.answered (s.perform m true addr.toNat 4 (leBytes 4 w.toNat)) m) := by
  have first : s.targetOf addr.toNat = .diag := diag 0 (by decide)
  simp only [exec, execCavernDiagWrite, State.whenCore_on admits.1, first, if_true, State.command_write admits uncached]

/-- The line that leaves a cache is in it no more. -/
theorem State.colLine_dropColLine {s : State} {c : ColumnIx} {a : Nat} {l : ColLine} (h : s.colLine c a = some l) :
    (s.dropColLine c l.line).colLine c a = none := by
  have line : l.line = a / 64 := by simpa using List.find?_some h
  simp only [State.colLine, State.dropColLine, State.modColumn, vmod_same, List.find?_eq_none, List.mem_filter, line]
  rintro x ⟨-, other⟩
  simpa using other

/-- Settles O43: each command comes down to one write in a target that takes it. -/
theorem storedBytes : Obligations.StoredBytes := by
  intro s _ core
  refine ⟨fun a write made alive role long ok uncached tcm => ?_, fun c addr data clean ready made ok columns => ?_,
    fun c addr data l held dirty long ready made ok columns => ?_,
    fun m addr data admits uncached diag => ⟨fun test => ?_, fun normal => ?_⟩⟩
  · have pos := State.size_pos_of_made made
    obtain ⟨o, run⟩ := State.exec_memoryWrite core write made alive role ok uncached
    rw [State.perform_stores (s := s.emit o) tcm pos rfl (State.sumpAsleep_below (.inl (tcm 0 pos))) _ long] at run
    obtain ⟨regs, stored, rest⟩ := BytesStored.setBytes (s := s) (u := s.emit o) (a := a.addr.toNat) (bs := a.data)
      (t := ((s.emit o).setBytes a.addr.toNat a.data).healed a.addr.toNat a.size) rfl rfl (by simp [State.healed]) rfl
    rw [long] at stored rest
    exact ⟨_, run, regs, stored, rest⟩
  · have pos := State.size_pos_of_made made
    obtain ⟨regs, stored, rest⟩ := BytesStored.setBytes (s := s) (u := s) (a := addr.toNat) (bs := data)
      (t := (s.setBytes addr.toNat data).healed addr.toNat data.length) rfl rfl (by simp [State.healed]) rfl
    refine ⟨_, ?_, regs, stored, rest⟩
    simp only [exec, execCacheWriteback, State.whenCore_on core, clean, made, if_true, State.writeBack_stores pos ready ok columns]
    rfl
  · let u := s.dropColLine c l.line
    have filtered : (s.colLine c addr.toNat).filter (·.dirty) = some l := by simp [held, dirty]
    have written := State.writeBack_stores (s := u) (c := c) (a := 64 * l.line) (data := l.bytes) (by omega) ready (by rw [long]; exact ok)
      (by rw [long]; exact columns)
    obtain ⟨regs, stored, rest⟩ := BytesStored.setBytes (s := s) (u := u) (a := 64 * l.line) (bs := l.bytes)
      (t := (u.setBytes (64 * l.line) l.bytes).healed (64 * l.line) l.bytes.length) rfl rfl (by simp [State.healed]) rfl
    rw [long] at stored rest
    refine ⟨_, ?_, ?_, regs, stored, rest⟩
    · simp only [exec, execCacheWriteback, State.whenCore_on core, filtered, made, if_true]
      rw [written]
      rfl
    · have eng : ((u.setBytes (64 * l.line) l.bytes).healed (64 * l.line) l.bytes.length).eng = u.eng := by simp [State.healed]
      rw [State.colLine, eng]
      exact State.colLine_dropColLine held
  · have four := length_leBytes 4 data.toNat
    have run := State.exec_diagWrite admits uncached diag data
    rw [State.perform_stores diag (by decide) test (State.sumpAsleep_below (.inr (diag 0 (by decide)))) m four] at run
    obtain ⟨regs, stored, rest⟩ := BytesStored.setBytes (s := s) (u := s) (a := addr.toNat) (bs := leBytes 4 data.toNat)
      (t := (s.setBytes addr.toNat (leBytes 4 data.toNat)).healed addr.toNat 4) rfl rfl (by simp [State.healed]) rfl
    rw [four] at stored rest
    exact ⟨_, run, regs, fun i h => (stored i h).trans (getD_leBytes_word h data), rest⟩
  · rw [State.exec_diagWrite admits uncached diag, State.perform_diag_refused diag (by decide) normal]
    rfl

end Sys2Proof.Machine
end

section
/-! Allotment plans (R220-R222) and the requests for tunnels (R267). -/

namespace Sys2Proof.Machine

open Sys2Proof

/-! ## A plan refused (R221) -/

theorem State.exec_planCompute {s : State} {sup : Master} (core : s.coreOn = true) (supervised : s.supervisor = some sup)
    (run : s.mode = .run) {plan : Plan} (follows : s.planFollows plan = true) :
    exec (.planCompute plan) s = .next (if s.planOk plan then
      s.tryPlan sup { plan := plan, target := none, requests := s.sched.requests } else s.rejectPlan) := by
  simp [exec, execPlanCompute, State.whenCore_on core, supervised, run, follows]

theorem State.exec_planCompute_not_follows {s : State} {sup : Master} (core : s.coreOn = true) (supervised : s.supervisor = some sup)
    {plan : Plan} (follows : s.planFollows plan = false) : exec (.planCompute plan) s = .next s := by
  simp [exec, execPlanCompute, State.whenCore_on core, supervised, follows]

theorem pmKey_treq_ne_reject (m : Master) : Reg.SCHED_PLAN_REJECT ≠ pmKey m Reg.COL_TREQ_RESULT := by
  simp only [pmKey, Reg.SCHED_PLAN_REJECT, Reg.COL_TREQ_RESULT]; omega

theorem State.rejectPlan_alone {s : State} (none_added : s.sched.requests.find? (·.add) = none) :
    s.rejectPlan = s.count Reg.SCHED_PLAN_REJECT := by
  have kept : (s.count Reg.SCHED_PLAN_REJECT).sched = s.sched := by simp
  simp only [State.rejectPlan, kept, none_added]

/-- The requests without an addition that is refused, and a plan that waits with it given up. -/
def SchedState.refused (x : SchedState) (r : TunnelReq) : SchedState :=
  { x with requests := x.requests.erase r, retry := x.retry.filter fun y => !y.requests.contains r }

theorem State.rejectPlan_with {s : State} {r : TunnelReq} (oldest : s.sched.requests.find? (·.add) = some r) :
    s.rejectPlan = ({ s.count Reg.SCHED_PLAN_REJECT with sched := s.sched.refused r } : State).answerRequest r 3 := by
  have kept : (s.count Reg.SCHED_PLAN_REJECT).sched = s.sched := by simp
  simp only [State.rejectPlan, kept, oldest, SchedState.refused]

/-- The addition refused is answered, and the registers hold that and the count. -/
theorem State.rejectPlan_answers {s : State} {r : TunnelReq} (oldest : s.sched.requests.find? (·.add) = some r) :
    s.rejectPlan.sched = s.sched.refused r ∧ s.rejectPlan.reg (pmKey r.master Reg.COL_TREQ_RESULT) = 3 ∧
      SameRegsBut [Reg.SCHED_PLAN_REJECT, pmKey r.master Reg.COL_TREQ_RESULT] s s.rejectPlan := by
  rw [State.rejectPlan_with oldest]
  refine ⟨by simp [State.answerRequest], State.reg_setReg_same .., ?_⟩
  have counted : SameRegsBut [Reg.SCHED_PLAN_REJECT, pmKey r.master Reg.COL_TREQ_RESULT] s
      { s.count Reg.SCHED_PLAN_REJECT with sched := s.sched.refused r } := (SameRegsBut.count (by simp) s).of_regs_right rfl
  exact counted.trans (.setReg (by simp) _ _)

/-- A plan refused is counted, whether or not an addition is refused with it. -/
theorem State.rejectPlan_counted (s : State) : Counted Reg.SCHED_PLAN_REJECT s s.rejectPlan := by
  have counted := Counted.count Reg.SCHED_PLAN_REJECT s
  cases oldest : s.sched.requests.find? (·.add) with
  | none => rwa [State.rejectPlan_alone oldest]
  | some r =>
    rw [State.rejectPlan_with oldest]
    exact counted.congr (State.reg_setReg_other (pmKey_treq_ne_reject r.master) _ _)

theorem State.rejectPlan_tunnels (s : State) : s.rejectPlan.sched.tunnels = s.sched.tunnels := by
  cases oldest : s.sched.requests.find? (·.add) with
  | none => simp [State.rejectPlan_alone oldest]
  | some r => rw [(State.rejectPlan_answers oldest).1, SchedState.refused]

/-! ## One round of R222 -/

/-- A plan computed that keeps R221, or one kept to be retried, as one round takes it up. -/
def State.TakesUp (s : State) (plan : Plan) (c : Instr) (x : PlanTry) : Prop :=
  (c = .planCompute plan ∧ s.planFollows plan = true ∧ s.planOk plan = true ∧
    x = { plan := plan, target := none, requests := s.sched.requests }) ∨
  (c = .planCommitRetry ∧ s.sched.retry = some x)

theorem State.TakesUp.exec_eq {s : State} {sup : Master} {plan : Plan} {c : Instr} {x : PlanTry} (h : s.TakesUp plan c x)
    (core : s.coreOn = true) (supervised : s.supervisor = some sup) (run : s.mode = .run) :
    exec c s = .next (s.tryPlan sup x) := by
  rcases h with ⟨rfl, follows, ok, rfl⟩ | ⟨rfl, kept⟩
  · rw [State.exec_planCompute core supervised run follows, if_pos ok]
  · simp [exec, execPlanCommitRetry, State.whenCore_on core, supervised, kept, run]

/-- The target of a round: the one that the plan waits with, else a new one. -/
def State.tryTarget (s : State) (x : PlanTry) : Nat := x.target.getD (s.planTarget x.plan)

/-- The commits of a round, over the shadows that it writes first. -/
def State.planCommits (s : State) (m : Master) (x : PlanTry) : State × Bool :=
  State.commitGroups m (s.tryTarget x) (planGroups x.plan) [] (s.writePlan x.plan)

theorem State.tryPlan_waits {s : State} {x : PlanTry} (pending : ∃ g ∈ planGroups x.plan, (s.pendingCommit g).isSome = true)
    (m : Master) : s.tryPlan m x = s.keepPlan { x with target := some (s.tryTarget x) } :=
  if_pos (List.any_eq_true.mpr pending)

section

variable {s : State} {x : PlanTry} (free : ∀ g ∈ planGroups x.plan, s.pendingCommit g = none) {m : Master} {s1 : State}

include free

theorem planGroups_not_pending : ((planGroups x.plan).any fun g => (s.pendingCommit g).isSome) = false :=
  List.any_eq_false.mpr fun g hg => by simp [free g hg]

theorem State.tryPlan_commits (made : s.planCommits m x = (s1, true)) :
    s.tryPlan m x = ({ s1 with sched := { s1.sched with retry := none } } : State).requestsDone x.requests := by
  simp only [State.planCommits, State.tryTarget] at made
  simp only [State.tryPlan, planGroups_not_pending free, made, Bool.false_eq_true, if_false]

theorem State.tryPlan_fails (made : s.planCommits m x = (s1, false)) :
    s.tryPlan m x = (s1.keepPlan { x with target := none }).count Reg.SCHED_PLAN_FAIL := by
  simp only [State.planCommits, State.tryTarget] at made
  simp only [State.tryPlan, planGroups_not_pending free, made, Bool.false_eq_true, if_false]

end

/-! ## What the shadows and the commits of a round leave -/

theorem State.writeRates_reg_below {s : State} {a k : Nat} (below : k < a) (r : RateSet) : (s.writeRates a r).reg k = s.reg k := by
  have other (i : Nat) : k ≠ a + i := by omega
  have first : k ≠ a := other 0
  simp only [State.writeRates, State.reg_setReg_other (other _), State.reg_setReg_other first]

/-- The shadows of a plan lie above the counters of SCHED. -/
theorem State.writePlan_failures (s : State) (plan : Plan) : (s.writePlan plan).reg Reg.SCHED_PLAN_FAIL = s.reg Reg.SCHED_PLAN_FAIL := by
  have below_defaults (i : Nat) : Reg.SCHED_PLAN_FAIL < Reg.POL_CD_CIR i := by
    simp only [Reg.SCHED_PLAN_FAIL, Reg.POL_CD_CIR]; omega
  have below_rates (p c : Nat) : Reg.SCHED_PLAN_FAIL < Reg.SCHED_CIR p c := by
    simp only [Reg.SCHED_PLAN_FAIL, Reg.SCHED_CIR]; omega
  have not_mode (p c : Nat) : Reg.SCHED_PLAN_FAIL ≠ Reg.SCHED_RESET_MODE p c := by
    simp only [Reg.SCHED_PLAN_FAIL, Reg.SCHED_RESET_MODE]; omega
  unfold State.writePlan
  refine State.over_induction (I := fun t => t.reg Reg.SCHED_PLAN_FAIL = s.reg Reg.SCHED_PLAN_FAIL) ?_ fun t y _ kept => ?_
  · exact State.over_induction (I := fun t => t.reg Reg.SCHED_PLAN_FAIL = s.reg Reg.SCHED_PLAN_FAIL) rfl fun t y _ kept =>
      (State.writeRates_reg_below (below_defaults _) _).trans kept
  · rw [State.setRegN, State.reg_setReg_other (not_mode _ _), State.writeRates_reg_below (below_rates _ _), kept]

theorem State.writePlan_requests (s : State) (plan : Plan) : (s.writePlan plan).sched.requests = s.sched.requests := by
  simp [State.writePlan, State.writeRates]

/-- The registers that the commits of a round write: the results of its master, and the refusals. -/
def commitRegs (m : Master) : List Nat := [pmKey m Reg.BEAT_CMT_RESULT, Reg.BEAT_CMT_REFUSED]

theorem State.commitAt_regsBut (s : State) (m : Master) (g target : Nat) : SameRegsBut (commitRegs m) s (s.commitAt m g target) :=
  (State.commitResult_answers (s := s) (by split <;> rfl) (by split <;> rfl) m g _).regs

theorem State.cancelGroup_regsBut (s : State) (m : Master) (g : Nat) : SameRegsBut (commitRegs m) s (s.cancelGroup m g) :=
  (State.commitResult_answers (s := s) (by split <;> rfl) (by split <;> rfl) m g _).regs

theorem State.commitGroups_regsBut (m : Master) (target : Nat) (groups made : List Nat) (s : State) :
    SameRegsBut (commitRegs m) s (State.commitGroups m target groups made s).1 := by
  induction groups generalizing made s with
  | nil => exact .of_regs rfl _
  | cons g gs ih =>
    have here := s.commitAt_regsBut m g target
    unfold State.commitGroups
    split
    · exact here.trans (ih _ _)
    · exact State.over_induction here fun t g _ kept => kept.trans (t.cancelGroup_regsBut m g)

theorem failures_not_mem_commitRegs (m : Master) : Reg.SCHED_PLAN_FAIL ∉ commitRegs m := by
  simp only [commitRegs, List.mem_cons, List.not_mem_nil, or_false, pmKey, Reg.SCHED_PLAN_FAIL, Reg.BEAT_CMT_RESULT,
    Reg.BEAT_CMT_REFUSED]
  omega

/-- What a round leaves of memory, of the requests and of the count of failed rounds as its commits end. -/
theorem State.planCommits_keeps {s s1 : State} {m : Master} {x : PlanTry} {accepted : Bool}
    (made : s.planCommits m x = (s1, accepted)) :
    s1.mem = s.mem ∧ s1.sched.requests = s.sched.requests ∧ s1.reg Reg.SCHED_PLAN_FAIL = s.reg Reg.SCHED_PLAN_FAIL := by
  obtain rfl : (s.planCommits m x).1 = s1 := congrArg Prod.fst made
  refine ⟨by simp [State.planCommits, State.commitGroups_keeps, State.writePlan_keeps],
    by simp [State.planCommits, State.commitGroups_keeps, State.writePlan_requests], ?_⟩
  exact (State.commitGroups_regsBut _ _ _ _ _ _ (failures_not_mem_commitRegs m)).trans (s.writePlan_failures x.plan)

/-! ## The requests that a committed plan carries -/

theorem State.takeRequest_queue (s : State) (r : TunnelReq) :
    (s.takeRequest r).sched.requests = s.sched.requests ∧ (s.takeRequest r).sched.retry = s.sched.retry := by
  simp [State.takeRequest, State.answerRequest]

theorem State.requestsDone_queue (s : State) (rs : List TunnelReq) :
    (s.requestsDone rs).sched.requests = (s.sched.requests.filter fun r => !rs.contains r) ∧
      (s.requestsDone rs).sched.retry = s.sched.retry := by
  have taken : (s.over rs State.takeRequest).sched.requests = s.sched.requests ∧
      (s.over rs State.takeRequest).sched.retry = s.sched.retry :=
    State.over_induction (I := fun t => t.sched.requests = s.sched.requests ∧ t.sched.retry = s.sched.retry) ⟨rfl, rfl⟩
      fun t r _ kept => ⟨(t.takeRequest_queue r).1.trans kept.1, (t.takeRequest_queue r).2.trans kept.2⟩
  exact ⟨congrArg (List.filter fun r => !rs.contains r) taken.1, taken.2⟩

/-! ## What a round comes to -/

theorem State.tryPlan_committed {s s1 : State} {x : PlanTry} {m : Master}
    (free : ∀ g ∈ planGroups x.plan, s.pendingCommit g = none) (made : s.planCommits m x = (s1, true)) :
    (s.tryPlan m x).sched.retry = none ∧
      (s.tryPlan m x).sched.requests = (s.sched.requests.filter fun r => !x.requests.contains r) ∧
      (s.tryPlan m x).beat = s1.beat ∧ SameMemory s (s.tryPlan m x) := by
  obtain ⟨mem, requests, -⟩ := State.planCommits_keeps made
  rw [State.tryPlan_commits free made]
  obtain ⟨left, retry⟩ := State.requestsDone_queue { s1 with sched := { s1.sched with retry := none } } x.requests
  refine ⟨retry, ?_, by simp [State.requestsDone_keeps], .of_mem ?_⟩
  · rw [left, ← requests]
  · simp [State.requestsDone_keeps, mem]

theorem State.tryPlan_failed {s s1 : State} {x : PlanTry} {m : Master}
    (free : ∀ g ∈ planGroups x.plan, s.pendingCommit g = none) (made : s.planCommits m x = (s1, false)) :
    (s.tryPlan m x).sched.retry = some { x with target := none } ∧ (s.tryPlan m x).sched.requests = s.sched.requests ∧
      Counted Reg.SCHED_PLAN_FAIL s (s.tryPlan m x) ∧ SameMemory s (s.tryPlan m x) := by
  obtain ⟨mem, requests, failures⟩ := State.planCommits_keeps made
  rw [State.tryPlan_fails free made]
  refine ⟨by simp [State.keepPlan], by simp [State.keepPlan, requests], ?_, .of_mem (by simp [State.keepPlan, mem])⟩
  have before : (s1.keepPlan { x with target := none }).reg Reg.SCHED_PLAN_FAIL = s.reg Reg.SCHED_PLAN_FAIL := failures
  simpa only [Counted, before] using Counted.count Reg.SCHED_PLAN_FAIL (s1.keepPlan { x with target := none })

/-! ## The requests for tunnels (R267) -/

/-- The row of COL_TREQ_CMD: one register for all masters that stores nothing of what is written. -/
def treqRow : RegRow := row 0x110210 [] [(.cmd, 0x8003FFFF)] 0

theorem regRow_treqCmd : regRow Reg.COL_TREQ_CMD = some treqRow := by decide

/-- A request of a master by its command and its OP (R267). -/
def IsTreqCommand (m : Master) (id : BitVec 16) (c : Instr) (op : Nat) : Prop :=
  (c = .tunnelAdd m id ∧ op = 1) ∨ (c = .tunnelRemove m id ∧ op = 2)

/-- The word of COL_TREQ_CMD for a request. -/
def treqWord (id : BitVec 16) (op : Nat) : Word := BitVec.ofNat 32 (id.toNat + op * 0x10000)

theorem treqWord_fields (id : BitVec 16) {op : Nat} (small : op < 4) :
    bitsOf (treqWord id op) 17 16 = op ∧ bitsOf (treqWord id op) 15 0 = id.toNat := by
  simp only [bitsOf, treqWord, BitVec.toNat_ofNat]
  omega

theorem State.treqCommand_refused {s : State} {id : BitVec 16} {op : Nat} (acts : 0 < op) (small : op < 4)
    (refused : s.treqCode op id.toNat ≠ 0) (m : Master) :
    s.treqCommand m (treqWord id op) = s.setRegN (pmKey m Reg.COL_TREQ_RESULT) (s.treqCode op id.toNat) := by
  obtain ⟨hop, hid⟩ := treqWord_fields id small
  simp only [State.treqCommand, hop, hid, acts.ne', refused, ne_eq, not_false_eq_true, if_true, if_false]

theorem State.treqCommand_queued {s : State} {id : BitVec 16} {op : Nat} (acts : 0 < op) (small : op < 4)
    (ok : s.treqCode op id.toNat = 0) (m : Master) :
    s.treqCommand m (treqWord id op) = { s with sched := { s.sched with
      requests := s.sched.requests ++ [{ master := m, add := op == 1, tunnel := s.treqTunnel m id.toNat }] } } := by
  obtain ⟨hop, hid⟩ := treqWord_fields id small
  simp only [State.treqCommand, hop, hid, acts.ne', ok, ne_eq, not_true_eq_false, if_false]

theorem State.treqCode_lt (s : State) (op id : Nat) : s.treqCode op id < 9 := by
  unfold State.treqCode
  split_ifs <;> decide

theorem State.exec_treqCommand {s : State} {m : Master} {id : BitVec 16} {c : Instr} {op : Nat} (inv : s.Inv)
    (takes : s.Takes m Reg.COL_TREQ_CMD) (h : IsTreqCommand m id c op) :
    ∃ acc, exec c s = .next (({ s with acc := acc } : State).treqCommand m (treqWord id op)) := by
  obtain ⟨acc, written⟩ := State.commandN_of_stores_nothing inv takes regRow_treqCmd ⟨rfl, rfl, rfl⟩ (by decide) (by decide) (by decide)
    (by decide) (id.toNat + op * 0x10000)
  have run : exec c s = .next (s.whenCore fun s => s.commandN m Reg.COL_TREQ_CMD (id.toNat + op * 0x10000)) := by
    rcases h with ⟨rfl, rfl⟩ | ⟨rfl, rfl⟩ <;> rfl
  refine ⟨acc, ?_⟩
  rw [run, State.whenCore_on takes.1.1, written]
  rfl

/-- Settles O38: a plan by what R221 and its commits say of it, a request by its code. -/
theorem allotmentPlans : Obligations.AllotmentPlans := by
  intro s core
  refine ⟨fun sup plan supervised run => ⟨State.exec_planCompute_not_follows core supervised, fun follows breaks => ?_,
    fun c x (named : s.TakesUp plan c x) => ?_⟩, fun m id inv takes c op (named : IsTreqCommand m id c op) => ?_⟩
  · have exec_eq := State.exec_planCompute core supervised run follows
    rw [if_neg (by simp [breaks])] at exec_eq
    refine ⟨_, exec_eq, s.rejectPlan_counted, by simp [State.rejectPlan_keeps], s.rejectPlan_tunnels,
      .of_mem (by simp [State.rejectPlan_keeps]), fun none_added => ?_, fun r oldest => ?_⟩
    · rw [State.rejectPlan_alone none_added]
      exact ⟨by simp, .count (List.mem_singleton_self _) s⟩
    · obtain ⟨sched, answered, regs⟩ := State.rejectPlan_answers oldest
      exact ⟨congrArg SchedState.requests sched, fun _ => answered, regs⟩
  · have exec_eq := named.exec_eq core supervised run
    refine ⟨fun pending => ?_, fun s1 free made => ⟨_, exec_eq, State.tryPlan_committed free made⟩,
      fun s1 free made => ⟨_, exec_eq, State.tryPlan_failed free made⟩⟩
    rw [State.tryPlan_waits pending] at exec_eq
    exact ⟨_, exec_eq, rfl, rfl, .of_regs rfl _, .of_mem rfl⟩
  · obtain ⟨acc, exec_eq⟩ := State.exec_treqCommand inv takes named
    have op_range : 0 < op ∧ op < 4 := by unfold IsTreqCommand at named; omega
    obtain ⟨acts, small⟩ := op_range
    refine ⟨fun ok => ?_, fun refused => ?_⟩
    · rw [State.treqCommand_queued (s := { s with acc := acc }) acts small ok] at exec_eq
      exact ⟨_, exec_eq, rfl, rfl, .of_regs rfl _, .of_mem rfl⟩
    · rw [State.treqCommand_refused (s := { s with acc := acc }) acts small refused] at exec_eq
      refine ⟨_, exec_eq, by simp, ?_, (SameRegsBut.of_regs rfl _).trans (.setReg (List.mem_singleton_self _) _ _), .of_mem (by simp)⟩
      rw [State.setRegN, State.reg_setReg_same, BitVec.toNat_ofNat]
      exact Nat.mod_eq_of_lt ((s.treqCode_lt op id.toNat).trans (by decide))

end Sys2Proof.Machine
end

section
/-! Credit on a port in service (R227-R231): a CRED block taken or refused, one sent, and the resynchronisation of every count. -/

namespace Sys2Proof.Machine

open Sys2Proof

/-! ## One count of a port -/

/-- The count of a class and set that a CRED block has brought: it ends the limit of a resynchronisation (R229, R231). -/
def Credit.credited (count : BitVec 20) (k : Credit) : Credit := { k with count := count, limit := none }

theorem State.modCredit_credit (s : State) (p : LinkPort) (c : Cls) (esc : Bool) (f : Credit → Credit) :
    (s.modCredit p c esc f).credit p c esc = f (s.credit p c esc) :=
  (congrArg (fun x : Port => x.credits[creditIx c esc]) (s.modPort_port p _)).trans (vmod_same s.ports[p].credits (creditIx c esc) f)

/-- The counts of a port are no part of anything else it holds. -/
theorem State.modCredit_port (s : State) (p : LinkPort) (c : Cls) (esc : Bool) (f : Credit → Credit) :
    ∃ credits, (s.modCredit p c esc f).ports[p] = { s.ports[p] with credits := credits } := ⟨_, s.modPort_port p _⟩

/-- The waits of a local port concern no register but DEP_DRAIN (R241). -/
theorem State.refreshDrain_regs (s : State) (n : LocalPort) (since : Nat) : SameRegsBut [Reg.DEP_DRAIN] s (s.refreshDrain n since) := by
  unfold State.refreshDrain
  extract_lets s1
  have waits : s1.regs = s.regs := State.over_regs (fun _ _ => by rfl) s _
  split
  · exact .of_regs waits _
  · exact (SameRegsBut.of_regs waits _).trans (.setBit (List.mem_singleton_self _) s1 _ _)

/-! ## CRED blocks -/

/-- Trunk ports have the escape set too. -/
theorem credit_set_exists {p : LinkPort} {esc : Bool} (h : esc = false ∨ p.val < 4) : (esc && decide (4 ≤ p.val)) = false := by
  rcases h with off | trunk
  · simp [off]
  · simp [trunk]

section
variable {s : State} {p : LinkPort} {c : Cls} {esc : Bool} (core : s.coreOn = true) (up : s.portUp p = true) (tvl : s.isTvl p = true)
  (there : esc = false ∨ p.val < 4)
include core up tvl there

/-- A count within reach of U is taken; of the rest only the waits of a local port are looked at again. -/
theorem exec_credReceived_taken {count : BitVec 20} (open_window : s.ports[p].ignoring = false)
    (near : (count - (s.credit p c esc).u).toNat ≤ 4095) :
    ∃ t, exec (.credReceived p c esc count) s = .next t ∧ t.ports = (s.modCredit p c esc (Credit.credited count)).ports ∧
      SameRegsBut [Reg.DEP_DRAIN] s t ∧ t.mem = s.mem := by
  have before : SameRegsBut [Reg.DEP_DRAIN] s (s.modCredit p c esc (Credit.credited count)) := .of_regs rfl _
  simp only [exec, execCredReceived, State.whenCore_on core, up, tvl, open_window, credit_set_exists there, Nat.not_lt.mpr near,
    Bool.not_true, Bool.or_self, Bool.false_eq_true, if_false]
  refine ⟨_, rfl, ?_⟩
  cases asLocal p with
  | some n =>
    obtain ⟨-, -, -, mem, -, ports, -⟩ := State.refreshDrain_keeps (s.modCredit p c esc (Credit.credited count)) n s.heads
    exact ⟨ports, before.trans (State.refreshDrain_regs _ n s.heads), mem⟩
  | none => exact ⟨rfl, before, rfl⟩

theorem exec_credReceived_refused {count : BitVec 20} (open_window : s.ports[p].ignoring = false)
    (far : 4095 < (count - (s.credit p c esc).u).toNat) :
    exec (.credReceived p c esc count) s = .next (s.count Reg.DEP_CRED_ERR) := by
  simp only [exec, execCredReceived, State.whenCore_on core, up, tvl, open_window, credit_set_exists there, far,
    Bool.not_true, Bool.or_self, Bool.false_eq_true, if_false, if_true]

theorem exec_credBlockSend : exec (.credBlockSend p c esc) s = .next (s.emit (.cred p c esc (s.credit p c esc).g)) := by
  simp only [exec, execCredBlockSend, State.whenCore_on core, up, tvl, credit_set_exists there, Bool.not_true, Bool.or_self,
    Bool.false_eq_true, if_false]
  rfl

end

/-! ## Resynchronisation -/

/-- Every count of the port under the limit that is left of it, U from 0 (R229). -/
def State.limitCredits (s : State) (p : LinkPort) : State :=
  s.over (creditSets p) fun s k => s.modCredit p k.1 k.2 fun x => { x with limit := some x.available, u := 0 }

theorem State.limitCredits_port (s : State) (p : LinkPort) :
    (∃ credits, (s.limitCredits p).ports[p] = { s.ports[p] with credits := credits }) ∧ SamePortsBut p s (s.limitCredits p) := by
  refine State.over_induction (I := fun t => (∃ credits, t.ports[p] = { s.ports[p] with credits := credits }) ∧ SamePortsBut p s t)
    ⟨⟨_, rfl⟩, .refl p s⟩ fun t k _ before => ?_
  obtain ⟨⟨_, h⟩, same⟩ := before
  obtain ⟨credits, e⟩ := t.modCredit_port p k.1 k.2 fun x => { x with limit := some x.available, u := 0 }
  exact ⟨⟨credits, by rw [e, h]⟩, same.trans (.modPort t p _)⟩

/-- The port of a sender that resynchronises: CRED is ignored, and the period runs anew (R229). -/
def Port.resynced (heads : Nat) (x : Port) : Port := { x with ignoring := true, resyncHead := heads }

theorem State.resyncTx_eq (s : State) (p : LinkPort) :
    s.resyncTx p = ((s.limitCredits p).modPort p (Port.resynced s.heads)).count Reg.DEP_CRED_RESYNC := by
  have heads : (s.limitCredits p).heads = s.heads := State.over_heads (fun _ _ => by rfl) s _
  rw [← heads]
  rfl

theorem State.count_ports (s : State) (k : Nat) : (s.count k).ports = s.ports := by simp

/-- What a resynchronisation leaves of the sender's port, and that it is counted. -/
theorem State.resyncTx_spec (s : State) (p : LinkPort) :
    (∃ credits, (s.resyncTx p).ports[p] = { s.ports[p] with credits := credits, ignoring := true, resyncHead := s.heads }) ∧
      SamePortsBut p s (s.resyncTx p) ∧ Counted Reg.DEP_CRED_RESYNC s (s.resyncTx p) ∧
      SameRegsBut [Reg.DEP_CRED_RESYNC] s (s.resyncTx p) := by
  obtain ⟨⟨credits, port⟩, others⟩ := s.limitCredits_port p
  have regs : ((s.limitCredits p).modPort p (Port.resynced s.heads)).regs = s.regs := by
    simp [State.limitCredits, State.modCredit_keeps]
  have ports := ((s.limitCredits p).modPort p (Port.resynced s.heads)).count_ports Reg.DEP_CRED_RESYNC
  rw [State.resyncTx_eq]
  refine ⟨⟨credits, ?_⟩, (others.trans (.modPort _ p _)).trans (.of_ports ports), (Counted.count _ _).after (State.reg_of_regs regs _),
    (SameRegsBut.of_regs regs _).trans (.count (List.mem_singleton_self _) _)⟩
  rw [ports, State.modPort_port, port]
  rfl

theorem exec_creditResyncPeriodic {s : State} {p : LinkPort} (core : s.coreOn = true) (up : s.portUp p = true) (tvl : s.isTvl p = true)
    (sends : s.ports[p].txLanes ≠ 0) (on : s.fld Reg.DEP_CFG 23 16 ≠ 0) (uncut : ∀ c ∈ s.cav.cutTx, c.egress ≠ toEgress p)
    (due : s.ports[p].resyncHead + s.fld Reg.DEP_CFG 23 16 * 256 ≤ s.heads) :
    exec (.creditResyncPeriodic p) s = .next ((s.sendAmk p false).resyncTx p) := by
  have no_cut : (s.cav.cutTx.any fun c => c.egress == toEgress p) = false := by simpa using uncut
  simp only [exec, execCreditResyncPeriodic, State.whenCore_on core, up, tvl, bne_iff_ne.mpr sends, bne_iff_ne.mpr on, no_cut,
    decide_eq_true due, Bool.not_false, Bool.and_self, if_true]

theorem exec_creditResyncIgnoreEnd {s : State} (core : s.coreOn = true) (p : LinkPort) :
    exec (.creditResyncIgnoreEnd p) s = .next (s.modPort p fun x => { x with ignoring := false }) := by
  simp only [exec, execCreditResyncIgnoreEnd, State.whenCore_on core]

theorem exec_creditResyncSecondCred {s : State} {p : LinkPort} (core : s.coreOn = true) (up : s.portUp p = true)
    (tvl : s.isTvl p = true) : exec (.creditResyncSecondCred p) s = .next (s.sendAllCred p) := by
  simp only [exec, execCreditResyncSecondCred, State.whenCore_on core, up, tvl, Bool.and_self, if_true]

theorem State.sendCred_sent (s : State) (p : LinkPort) (c : Cls) (esc : Bool) :
    (s.sendCred p c esc).sent = .cred p c esc (s.credit p c esc).g :: s.sent := rfl

/-- A CRED block goes out for each set of the port, with its count G as it stands (R228). -/
theorem State.sendAllCred_sends (s : State) {p : LinkPort} {k : Cls × Bool} (hk : k ∈ creditSets p) :
    .cred p k.1 k.2 (s.credit p k.1 k.2).g ∈ (s.sendAllCred p).sent := by
  have reaches := State.over_reaches (f := fun t k => t.sendCred p k.1 k.2) (I := fun t => t.ports = s.ports)
    (P := fun t => .cred p k.1 k.2 (s.credit p k.1 k.2).g ∈ t.sent) hk (s := s) rfl
  refine reaches (fun t b _ same => ?_) (fun t same => ?_) fun t b _ _ sent => ?_
  · simp [State.sendCred_keeps, same]
  · have count : t.credit p k.1 k.2 = s.credit p k.1 k.2 := by rw [State.credit, State.credit, same]
    rw [State.sendCred_sent, count]
    exact List.mem_cons_self
  · rw [State.sendCred_sent]
    exact List.mem_cons_of_mem _ sent

/-- Settles O16: each command by its equation above. -/
theorem creditBlocks : Obligations.CreditBlocks := by
  intro s p c esc core up tvl
  refine ⟨fun there => ⟨fun count open_window => ⟨fun near => ?_, fun far => ?_⟩, exec_credBlockSend core up tvl there⟩,
    fun sends on uncut due => ?_, ?_, ?_⟩
  · obtain ⟨t, run, ports, regs, mem⟩ := exec_credReceived_taken (c := c) core up tvl there open_window near
    have taken : t.credit p c esc = (s.credit p c esc).credited count :=
      (congrArg (fun v : Vector Port 20 => v[p].credits[creditIx c esc]) ports).trans (s.modCredit_credit p c esc _)
    exact ⟨t, run, congrArg Credit.count taken, congrArg Credit.limit taken, (congrArg Credit.u taken :),
      (SamePortsBut.modPort s p _).trans (.of_ports ports), regs, .of_mem mem⟩
  · exact ⟨_, exec_credReceived_refused core up tvl there open_window far, .count _ s, by simp,
      .count (List.mem_singleton_self _) s, .of_mem (by simp)⟩
  · obtain ⟨⟨credits, port⟩, others, counted, regs⟩ := (s.sendAmk p false).resyncTx_spec p
    rw [State.sendAmk_ports, State.modPort_port] at port
    exact ⟨_, exec_creditResyncPeriodic core up tvl sends on uncut due, by rw [port], by rw [port]; rfl, by rw [port],
      by simp [State.resyncTx_keeps, State.sendAmk_sent], counted, regs, (SamePortsBut.modPort s p _).trans others,
      .of_mem (by simp [State.resyncTx_keeps, State.sendAmk_keeps])⟩
  · exact ⟨_, exec_creditResyncIgnoreEnd core p, s.modPort_port p _, .modPort s p _, by simp, .of_regs rfl _, .of_mem rfl⟩
  · exact ⟨_, exec_creditResyncSecondCred core up tvl, fun k hk => s.sendAllCred_sends hk, by simp [State.sendAllCred_keeps],
      by simp [State.sendAllCred_keeps], .of_regs (by simp [State.sendAllCred_keeps]) _, .of_mem (by simp [State.sendAllCred_keeps])⟩

end Sys2Proof.Machine
end

section
/-! Accesses of the register space (R270, R274, R280-R290, R468): what a master's read or write of one word, at its register or in the bit
window, does where it reaches its target, and what where it is refused or dropped. -/

namespace Sys2Proof.Machine

open Sys2Proof

/-! ## One word of the register space -/

/-- An access of one word that reaches its target is one of the four accesses of the register space. -/
theorem State.access_word {s : State} {m : Master} {kind : AccessKind} {a : Nat} (admits : s.Admits m kind a 4)
    (space : inRegSpace a = true) (aligned : a % 4 = 0) (data : List Byte) :
    s.access m kind a 4 data none = s.regOne m (kind == .write) a 4 (BitVec.ofNat 32 (leNat data)) := by
  obtain ⟨-, made, alive, role, ok⟩ := admits
  simp [State.access, made, State.roleAccess, alive, role, State.checked, ok, space, State.perform, State.regSpace, aligned]

theorem inRegSpace_direct {a : Nat} (h : a < 0x1000000) : inRegSpace a = true := by
  simp only [inRegSpace, Bool.or_eq_true, decide_eq_true_eq]
  omega

theorem toNat_ofNat_direct {a : Nat} (h : a < 0x1000000) : (BitVec.ofNat 40 a).toNat = a := by
  rw [BitVec.toNat_ofNat]
  omega

/-- Of the state in which an access acts, only access control differs from the one before. -/
def State.withAcc (s : State) (acc : AccessState) : State := { s with acc := acc }

/-! ## Bus errors (R270, Table REG-8) -/

/-- The registers that count and record a bus error. -/
def busErrorRegs : List Nat := [Reg.GLB_BUS_ERR, Reg.GLB_BUS_ERR_LAST_LO, Reg.GLB_BUS_ERR_LAST_HI]

/-- A state after an access that ended in a bus error: the error counted and told, and nothing written but its record. -/
structure BusErrored (m : Master) (s t : State) : Prop where
  counted : Counted Reg.GLB_BUS_ERR s t
  sent : t.sent = .accessError m false :: s.sent
  regs : SameRegsBut busErrorRegs s t
  mem : t.mem = s.mem

theorem State.busError_counted (s : State) (m : Master) (addr : Nat) (write : Bool) (cause : Nat) :
    Counted Reg.GLB_BUS_ERR s (s.busError m addr write cause) := by
  refine (Counted.count Reg.GLB_BUS_ERR s).congr ?_
  rw [State.busError, State.reg_setReg_other (by decide), State.setRegN, State.reg_setReg_other (by decide)]

theorem State.busError_regs (s : State) (m : Master) (addr : Nat) (write : Bool) (cause : Nat) :
    SameRegsBut busErrorRegs s (s.busError m addr write cause) := by
  unfold State.busError
  exact ((SameRegsBut.count (by decide) s).trans (.setReg (by decide) _ _)).trans (.setReg (by decide) _ _)

theorem State.busError_errored (s : State) (m : Master) (addr : Nat) (write : Bool) (cause : Nat) :
    BusErrored m s (State.answered (s.busError m addr write cause, .busError) m) := by
  have told : State.answered (s.busError m addr write cause, .busError) m =
    (s.busError m addr write cause).emit (.accessError m false) := rfl
  rw [told]
  exact ⟨(s.busError_counted m addr write cause).of_regs (by simp), by simp [State.busError_keeps],
    (s.busError_regs m addr write cause).of_regs_right (by simp), by simp [State.busError_keeps]⟩

/-! ## Direct writes -/

/-- A direct write of a register is tried after access control has spent the arming and ended the capture, but is checked against the
arming before it (R281, R285, R287). -/
theorem State.writeDirect_of_row (s : State) (m : Master) {a : Nat} {r : RegRow} (row : regRow a = some r) :
    ∃ acc, ∀ data, s.writeDirect m a data = (s.withAcc acc).tryWrite m r a a 0xFFFFFFFF data (s.armed m) := by
  by_cases unlock : a = Reg.GLB_UNLOCK
  · refine ⟨(s.endCapture m).acc, fun data => ?_⟩
    simp only [State.writeDirect, row, if_pos unlock]
    rfl
  · obtain ⟨acc, writing⟩ := s.writing_eq m
    refine ⟨acc, fun data => ?_⟩
    rw [State.writing] at writing
    simp only [State.writeDirect, row, unlock, if_false, writing]
    rfl

section
variable {s : State} {m : Master} {a : Nat} (direct : a < 0x1000000) (aligned : a % 4 = 0) (admits : s.Admits m .write a 4)
include direct aligned admits

/-- A 32-bit write that reaches its register. -/
theorem State.command_direct (data : Word) : s.command m a data = State.answered (s.writeDirect m a data) m := by
  have word : BitVec.ofNat 32 (leNat (leBytes 4 data.toNat)) = data := by
    apply BitVec.eq_of_toNat_eq
    rw [leNat_leBytes, BitVec.toNat_ofNat]
    omega
  have write : s.regOne m true a 4 data = s.writeDirect m a data := by simp only [State.regOne, decide_eq_true direct]
  rw [State.command, State.writeAccess, State.access_word admits (inRegSpace_direct direct) aligned, word]
  exact congrArg (State.answered · m) write

theorem State.exec_registerWrite (data : Word) :
    exec (.registerWrite m (BitVec.ofNat 40 a) 4 (data.setWidth 64) none) s = .next (State.answered (s.writeDirect m a data) m) := by
  have word : (data.setWidth 64).toNat = data.toNat := BitVec.toNat_setWidth_of_le (by decide)
  rw [← State.command_direct direct aligned admits]
  simp only [exec, execRegisterWrite, State.whenCore_on admits.1, toNat_ofNat_direct direct, word]
  rfl

end

/-! ## Registers that refuse no write of their own (R468) -/

/-- No block's own rule concerns an address (R319, R330, R436, Tables SCH-7, BOT-12). -/
def ruleFree (a : Nat) : Bool :=
  a / 0x10000 != 0x13 && (idx Reg.POL_PRF_CIR 4 4 a).isNone && (idx Reg.POL_PRF_CIR_ACT 4 4 a).isNone && !isRegion a &&
    a != Reg.MPU_CFG && a != Reg.BOOT_STG_DATA && a != Reg.LOG_PUT_CMD

theorem State.ownRule_of_ruleFree {a : Nat} (free : ruleFree a = true) (s : State) (m : Master) (write : Bool) :
    s.ownRule m a write = false := by
  simp only [ruleFree, Bool.and_eq_true, bne_iff_ne, Option.isNone_iff_eq_none, Bool.not_eq_true'] at free
  obtain ⟨⟨⟨⟨⟨⟨key, profile⟩, active⟩, region⟩, config⟩, staging⟩, record⟩ := free
  simp [State.ownRule, State.rulesLocked, key, profile, active, region, config, staging, record]

theorem State.writeCause_none {s : State} {m : Master} {r : RegRow} {a : Nat} (free : ruleFree a = true)
    (open_bits : r.bits .grd = 0 ∧ r.bits .shd = 0) (idle : (r.has .cmd && s.cmdBusy m a) = false) (bits : Nat) (armed : Bool) :
    s.writeCause m r a bits armed = none := by
  simp [State.writeCause, open_bits, idle, State.ownRule_of_ruleFree free]

/-- A write of GRD bits without an arming is refused before anything else is looked at (R286, R288, R468). -/
theorem State.tryWrite_unarmed {s : State} {r : RegRow} {bits : Nat} (guarded : r.bits .grd &&& bits ≠ 0) (m : Master) (addr a : Nat)
    (data : Word) : s.tryWrite m r addr a bits data false = ((s.count Reg.GLB_GRD_DENY).busError m addr true 5, .busError) := by
  simp [State.tryWrite, State.writeCause, guarded]

/-- The state after a write that the GRD rule denies. -/
def State.denied (s : State) (acc : AccessState) (m : Master) (a : Nat) : State :=
  State.answered (((s.withAcc acc).count Reg.GLB_GRD_DENY).busError m a true 5, .busError) m

theorem State.exec_registerWrite_denied {s : State} {m : Master} {a : Nat} {r : RegRow} (direct : a < 0x1000000) (aligned : a % 4 = 0)
    (row : regRow a = some r) (admits : s.Admits m .write a 4) (guarded : r.bits .grd &&& 0xFFFFFFFF ≠ 0) (unarmed : s.armed m = false)
    (data : Word) : ∃ acc, exec (.registerWrite m (BitVec.ofNat 40 a) 4 (data.setWidth 64) none) s = .next (s.denied acc m a) := by
  obtain ⟨acc, written⟩ := s.writeDirect_of_row m row
  have exec_eq := State.exec_registerWrite direct aligned admits data
  rw [written, unarmed, State.tryWrite_unarmed guarded] at exec_eq
  exact ⟨acc, exec_eq⟩

/-- A denial is counted beside its bus error, and nothing else is written (R288). -/
theorem State.denied_spec (s : State) (acc : AccessState) (m : Master) (a : Nat) :
    Counted Reg.GLB_GRD_DENY s (s.denied acc m a) ∧ Counted Reg.GLB_BUS_ERR s (s.denied acc m a) ∧
      (s.denied acc m a).sent = .accessError m false :: s.sent ∧
      SameRegsBut (Reg.GLB_GRD_DENY :: busErrorRegs) s (s.denied acc m a) ∧ (s.denied acc m a).mem = s.mem := by
  obtain ⟨counted, sent, regs, mem⟩ := ((s.withAcc acc).count Reg.GLB_GRD_DENY).busError_errored m a true 5
  have denied : Counted Reg.GLB_GRD_DENY s ((s.withAcc acc).count Reg.GLB_GRD_DENY) := (Counted.count _ (s.withAcc acc)).after rfl
  have only : SameRegsBut [Reg.GLB_GRD_DENY] s ((s.withAcc acc).count Reg.GLB_GRD_DENY) :=
    (SameRegsBut.of_regs (t := s.withAcc acc) rfl _).trans (.count (List.mem_singleton_self _) _)
  exact ⟨denied.congr (regs _ (by decide)), counted.after (only _ (by decide)), sent,
    (only.mono (by simp)).trans (regs.mono (by simp)), mem⟩

/-! ## TUN_CFG, a register of plain settings -/

/-- The row of TUN_CFG: B_SHARE in [4:0] and ECN_EN in [5] (Table TUN-11). -/
def tunCfgRow : RegRow := row 0x080000 [] [(.ctl, 0x3F)] 0x28

theorem regRow_tunCfg : regRow Reg.TUN_CFG = some tunCfgRow := by decide

/-- A word written over the bits `bits` of TUN_CFG. -/
def State.tunCfgStored (s : State) (acc : AccessState) (bits : Nat) (data : Word) : State :=
  (s.withAcc acc).setReg Reg.TUN_CFG (storedWord (BitVec.ofNat 32 (0x3F &&& bits)) (s.reg Reg.TUN_CFG) data)

/-- No rule of its own refuses a write of TUN_CFG, and it does nothing but store. -/
theorem State.tryWrite_tunCfg (s : State) (acc : AccessState) (m : Master) (addr bits : Nat) (data : Word) (armed : Bool) :
    (s.withAcc acc).tryWrite m tunCfgRow addr Reg.TUN_CFG bits data armed = (s.tunCfgStored acc bits data, .done) := by
  have free : (s.withAcc acc).writeCause m tunCfgRow Reg.TUN_CFG bits armed = none :=
    State.writeCause_none (by decide) ⟨rfl, rfl⟩ rfl bits armed
  have bits_stored : (s.withAcc acc).storedBits tunCfgRow = 0x3F :=
    RegRow.Stores.storedBits (mask := 0x3F) ⟨rfl, rfl, rfl⟩ _
  have key : regKey tunCfgRow m Reg.TUN_CFG = Reg.TUN_CFG := rfl
  have out : inWindow Reg.TUN_CFG = false := by decide
  simp only [State.tryWrite, free, State.writeFields, key, out, bits_stored, Bool.false_eq_true, if_false]
  rfl

theorem State.tunCfgStored_reg (s : State) (acc : AccessState) (bits : Nat) (data : Word) :
    (s.tunCfgStored acc bits data).reg Reg.TUN_CFG = storedWord (BitVec.ofNat 32 (0x3F &&& bits)) (s.reg Reg.TUN_CFG) data :=
  State.reg_setReg_same _ _ _

theorem State.tunCfgStored_regs (s : State) (acc : AccessState) (bits : Nat) (data : Word) :
    SameRegsBut [Reg.TUN_CFG] s (s.tunCfgStored acc bits data) :=
  (SameRegsBut.of_regs (t := s.withAcc acc) rfl _).trans (.setReg (List.mem_singleton_self _) _ _)

theorem State.exec_registerWrite_tunCfg {s : State} {m : Master} (admits : s.Admits m .write Reg.TUN_CFG 4) (data : Word) :
    ∃ acc, exec (.registerWrite m (BitVec.ofNat 40 Reg.TUN_CFG) 4 (data.setWidth 64) none) s =
      .next (s.tunCfgStored acc 0xFFFFFFFF data) := by
  obtain ⟨acc, written⟩ := s.writeDirect_of_row m regRow_tunCfg
  refine ⟨acc, ?_⟩
  rw [State.exec_registerWrite (by decide) (by decide) admits, written, State.tryWrite_tunCfg]
  rfl

/-! ## The bit window of the aliases (R282, R283) -/

/-- The word of the bit window that stands for bit b of the register at a (Table REG-3). -/
def bitAlias (a b : Nat) : Nat := 0x100000000 + a * 32 + 4 * b

theorem aliasOf_bitAlias {a b : Nat} (aligned : a % 4 = 0) (small : b < 32) : aliasOf (bitAlias a b) = (.bit b, a) := by
  have bit : (bitAlias a b - 0x100000000) / 4 % 32 = b := by unfold bitAlias; omega
  have register : (bitAlias a b - 0x100000000) / 128 * 4 = a := by unfold bitAlias; omega
  have window : 0x100000000 ≤ bitAlias a b := by unfold bitAlias; omega
  rw [aliasOf, if_pos window, bit, register]

section
variable {s : State} {m : Master} {a b : Nat} {r : RegRow} (row : regRow a = some r) (aligned : a % 4 = 0) (small : b < 32)
include row aligned small

/-- Outside RUN an access to the bit window is a bus error. -/
theorem State.writeAlias_bit_refused (mode : s.mode ≠ .run) (data : Word) :
    ∃ acc, s.writeAlias m (bitAlias a b) data = ((s.withAcc acc).busError m (bitAlias a b) true 3, .busError) := by
  obtain ⟨acc, writing⟩ := s.writing_eq m
  have shut : (s.withAcc acc).aliasMode (.bit b) = false := beq_eq_false_iff_ne.mpr mode
  refine ⟨acc, ?_⟩
  rw [State.writing] at writing
  simp only [State.writeAlias, aliasOf_bitAlias aligned small, row, writing]
  rw [← State.withAcc, shut]
  rfl

/-- In RUN a write to the bit window is a write of that bit alone. -/
theorem State.writeAlias_bit (mode : s.mode = .run) (plain : r.has .cmd = false ∧ r.has .pop = false) (data : Word) :
    ∃ acc, s.writeAlias m (bitAlias a b) data = (s.withAcc acc).tryWrite m r (bitAlias a b) a (2 ^ b)
      (if data.getLsbD 0 then BitVec.ofNat 32 (2 ^ b) else 0) (s.armed m) := by
  obtain ⟨acc, writing⟩ := s.writing_eq m
  have opened : (s.withAcc acc).aliasMode (.bit b) = true := beq_iff_eq.mpr mode
  have some_bit : (2 : Nat) ^ b ≠ 0 := by positivity
  refine ⟨acc, ?_⟩
  rw [State.writing] at writing
  simp only [State.writeAlias, aliasOf_bitAlias aligned small, row, writing, Alias.change, plain, some_bit, false_and, if_false]
  rw [← State.withAcc, opened]
  rfl

end

/-- A 32-bit write through ALIAS_WRITE that reaches the bit window. -/
theorem State.exec_aliasWrite {s : State} {m : Master} {a b : Nat} (direct : a < 0x1000000) (aligned : a % 4 = 0) (small : b < 32)
    (admits : s.Admits m .write (bitAlias a b) 4) (data : BitVec 64) :
    exec (.aliasWrite m (BitVec.ofNat 40 (bitAlias a b)) 4 ⟨data, none⟩) s =
      .next (State.answered (s.writeAlias m (bitAlias a b) (data.setWidth 32)) m) := by
  have here : 0x100000000 ≤ bitAlias a b ∧ bitAlias a b < 0x120000000 ∧ bitAlias a b % 4 = 0 := by unfold bitAlias; omega
  obtain ⟨above, below, whole⟩ := here
  have address : (BitVec.ofNat 40 (bitAlias a b)).toNat = bitAlias a b := by rw [BitVec.toNat_ofNat]; omega
  have space : inRegSpace (bitAlias a b) = true := by simp [inRegSpace, above, below]
  have word : BitVec.ofNat 32 (leNat (leBytes 4 data.toNat)) = data.setWidth 32 := by
    apply BitVec.eq_of_toNat_eq
    rw [leNat_leBytes, BitVec.toNat_setWidth, BitVec.toNat_ofNat]
    omega
  have window : ¬bitAlias a b < 0x1000000 := by omega
  have write (w : Word) : s.regOne m true (bitAlias a b) 4 w = s.writeAlias m (bitAlias a b) w := by
    simp only [State.regOne, decide_eq_false window]
  simp only [exec, execAliasWrite, State.whenCore_on admits.1, address]
  rw [State.access_word admits space whole, word]
  exact congrArg (fun x => Host.Outcome.next (State.answered x m)) (write _)

/-- In RUN a write to the word of ECN_EN in the bit window stores that bit. -/
theorem State.exec_aliasWrite_tunCfg {s : State} {m : Master} (admits : s.Admits m .write (bitAlias Reg.TUN_CFG 5) 4)
    (run : s.mode = .run) (data : BitVec 64) :
    ∃ acc, exec (.aliasWrite m (BitVec.ofNat 40 (bitAlias Reg.TUN_CFG 5)) 4 ⟨data, none⟩) s =
      .next (s.tunCfgStored acc (2 ^ 5) (if data.getLsbD 0 then BitVec.ofNat 32 (2 ^ 5) else 0)) := by
  obtain ⟨acc, written⟩ :=
    State.writeAlias_bit (m := m) regRow_tunCfg (by decide) (by decide : 5 < 32) run ⟨rfl, rfl⟩ (data.setWidth 32)
  have first : (data.setWidth 32).getLsbD 0 = data.getLsbD 0 := by simp
  refine ⟨acc, ?_⟩
  rw [State.exec_aliasWrite (by decide) (by decide) (by decide) admits, written, State.tryWrite_tunCfg, first]
  rfl

/-- After a write of ECN_EN alone it holds the value written, and B_SHARE stays. -/
theorem State.tunCfgStored_bit (s : State) (acc : AccessState) (value : Bool) :
    (s.tunCfgStored acc (2 ^ 5) (if value then BitVec.ofNat 32 (2 ^ 5) else 0)).bit Reg.TUN_CFG 5 = value ∧
      (s.tunCfgStored acc (2 ^ 5) (if value then BitVec.ofNat 32 (2 ^ 5) else 0)).fld Reg.TUN_CFG 4 0 = s.fld Reg.TUN_CFG 4 0 := by
  have mask (i : Nat) : (BitVec.ofNat 32 (0x3F &&& 2 ^ 5)).getLsbD i = decide (5 = i) := by
    have power : (BitVec.ofNat 32 (0x3F &&& 2 ^ 5)) = BitVec.twoPow 32 5 := by decide
    rw [power, BitVec.getLsbD_twoPow]
    simp
  rw [State.bit, State.fld, State.tunCfgStored_reg]
  refine ⟨?_, bitsOf_congr (fun i _ low => ?_) (by decide)⟩
  · rw [getLsbD_storedWord, mask]
    cases value <;> rfl
  · rw [getLsbD_storedWord, mask, decide_eq_false (by omega)]
    rfl

theorem State.exec_aliasWrite_refused {s : State} {m : Master} {a b : Nat} {r : RegRow} (row : regRow a = some r) (direct : a < 0x1000000)
    (aligned : a % 4 = 0) (small : b < 32) (admits : s.Admits m .write (bitAlias a b) 4) (mode : s.mode ≠ .run) (data : BitVec 64) :
    ∃ acc, exec (.aliasWrite m (BitVec.ofNat 40 (bitAlias a b)) 4 ⟨data, none⟩) s =
      .next (State.answered ((s.withAcc acc).busError m (bitAlias a b) true 3, .busError) m) := by
  obtain ⟨acc, written⟩ := State.writeAlias_bit_refused (m := m) row aligned small mode (data.setWidth 32)
  exact ⟨acc, by rw [State.exec_aliasWrite direct aligned small admits, written]⟩

/-! ## Zombie writes (R237, R301) -/

/-- A write with a zombie's tag, or of an engine without a role, is dropped. -/
theorem State.access_zombie {s : State} {m : Master} {e : EngineIx} {n : Nat} {tag : Option EngineTag} (engine : Master.engine m = some e)
    (made : s.made m n = true) (tagged : ∀ g, tag = some g → g.engine = e ∧ s.isZombie g = true)
    (untagged : tag = none → s.roleless m = true) (a : Nat) (data : List Byte) :
    ∃ u g, s.access m .write a n data tag = (State.zombie u g, .done) ∧ (u = s ∨ u = s.drawn) := by
  obtain ⟨g, dropped⟩ : ∃ g, s.zombieWrite m .write tag = some g := by
    cases tag with
    | some g =>
      obtain ⟨rfl, zombie⟩ := tagged g rfl
      exact ⟨g, by simp [State.zombieWrite, State.tagOf, engine, zombie]⟩
    | none => exact ⟨s.ownTag e, by simp [State.zombieWrite, State.tagOf, engine, untagged]⟩
  refine ⟨if tag.isNone && s.roleless m then s.drawn else s, g, ?_, ?_⟩
  · simp only [State.access, made, State.roleAccess, dropped, Bool.not_true, Bool.false_eq_true, if_false]
  · split
    · exact .inr rfl
    · exact .inl rfl

theorem State.zombie_counted (s : State) (g : EngineTag) : Counted Reg.DEP_ZOMBIE_WR s (s.zombie g) :=
  (Counted.count Reg.DEP_ZOMBIE_WR s).congr (State.reg_setReg_other (by decide) _ _)

theorem State.zombie_regs (s : State) (g : EngineTag) : SameRegsBut [Reg.DEP_ZOMBIE_WR, Reg.DEP_ZOMBIE_LAST] s (s.zombie g) :=
  (SameRegsBut.count (by decide) s).trans (.setReg (by decide) _ _)

/-! ## Reads of counters (R280, R281) -/

/-- A master's capture of a _HI word. -/
def State.captured (s : State) (m : Master) (a : Nat) : State :=
  s.withAcc { s.acc with capture := vset (s.endCapture m).acc.capture m (some (a + 4, BitVec.ofNat 16 (s.fld (a + 4) 15 0))) }

/-- A direct read of a _LO word captures its _HI word. -/
theorem State.readDirect_lo {s : State} {m : Master} {a : Nat} (aligned : a % 4 = 0) (lo : isLo48 a = true)
    (own : s.ownRule m a false = false) : ∃ bs, s.readDirect m a 4 = (s.captured m a, .data bs) := by
  obtain ⟨r, row⟩ : ∃ r, regRow a = some r := by
    simp only [isLo48, Bool.and_eq_true, Option.any_eq_true] at lo
    obtain ⟨⟨r, row, -⟩, -⟩ := lo
    exact ⟨r, row⟩
  have whole : a / 4 * 4 = a := by omega
  have own' : (s.endCapture m).ownRule m a false = false := own
  simp only [State.readDirect, whole, row, own', lo, Bool.false_eq_true, if_false, if_true]
  exact ⟨_, rfl⟩

theorem State.exec_counterLoRead {s : State} {m : Master} {a : Nat} (direct : a < 0x1000000) (aligned : a % 4 = 0)
    (lo : isLo48 a = true) (admits : s.Admits m .read a 4) (own : s.ownRule m a false = false) :
    ∃ bs, exec (.counterLoRead m (BitVec.ofNat 40 a) 4) s = .next ((s.captured m a).emit (.readData m bs)) := by
  obtain ⟨bs, read⟩ := State.readDirect_lo aligned lo own
  refine ⟨bs, ?_⟩
  have one (w : Word) : s.regOne m false a 4 w = (s.captured m a, .data bs) := by simp only [State.regOne, decide_eq_true direct, read]
  simp only [exec, execCounterLoRead, State.whenCore_on admits.1, toNat_ofNat_direct direct, State.readAccess]
  rw [State.access_word admits (inRegSpace_direct direct) aligned]
  exact congrArg (fun x => Host.Outcome.next (State.answered x m)) (one _)

/-! ## GLB_UNLOCK (R285-R290) -/

/-- The row of GLB_UNLOCK: a command of each master that stores nothing (Table REG-7). -/
def unlockRow : RegRow := rowPm 0x000020 [] [(.cmd, 0xFFFFFFFF)] 0

theorem regRow_unlock : regRow Reg.GLB_UNLOCK = some unlockRow := by decide

/-- GLB_UNLOCK with what it holds written to it again. -/
def State.unlockRewritten (s : State) (m : Master) : State :=
  (s.endCapture m).setReg (pmKey m Reg.GLB_UNLOCK) (s.reg (pmKey m Reg.GLB_UNLOCK))

theorem State.unlockRewritten_regs (s : State) (m : Master) : SameRegsBut [] s (s.unlockRewritten m) := fun k _ => by
  rw [State.unlockRewritten, State.reg_setReg]
  split
  next same => rw [same]
  · rfl

theorem State.unlockRewritten_unlock (s : State) (m : Master) : (s.unlockRewritten m).acc.unlock = s.acc.unlock := by
  simp [State.unlockRewritten, State.endCapture]

theorem State.unlockRewritten_mem (s : State) (m : Master) : (s.unlockRewritten m).mem = s.mem := by
  simp [State.unlockRewritten, State.endCapture_keeps]

/-- A write of GLB_UNLOCK ends the capture, leaves the register as it is and arms or disarms its master. -/
theorem State.command_unlock {s : State} {m : Master} (admits : s.Admits m .write Reg.GLB_UNLOCK 4) (data : Word) :
    s.command m Reg.GLB_UNLOCK data = (s.unlockRewritten m).writeUnlock m data := by
  have free : (s.endCapture m).writeCause m unlockRow Reg.GLB_UNLOCK 0xFFFFFFFF (s.armed m) = none :=
    State.writeCause_none (by decide) ⟨rfl, rfl⟩ rfl _ _
  have none_stored : (s.endCapture m).storedBits unlockRow = 0 := by
    unfold State.storedBits
    split <;> rfl
  have key : regKey unlockRow m Reg.GLB_UNLOCK = pmKey m Reg.GLB_UNLOCK := rfl
  have out : inWindow Reg.GLB_UNLOCK = false := by decide
  have whole : data &&& BitVec.ofNat 32 0xFFFFFFFF = data := BitVec.and_allOnes
  have kept (w : Word) : (w &&& ~~~BitVec.ofNat 32 (0 &&& 0xFFFFFFFF)) ||| (data &&& BitVec.ofNat 32 (0 &&& 0xFFFFFFFF)) = w := by
    simp only [Nat.zero_and, BitVec.not_zero, BitVec.and_allOnes, BitVec.and_zero, BitVec.or_zero]
  rw [State.command_direct (by decide) (by decide) admits]
  simp only [State.writeDirect, if_true, regRow_unlock, State.tryWrite, free, State.writeFields, key, out, none_stored, kept, whole,
    Bool.false_eq_true, if_false]
  rfl

theorem State.exec_glbUnlockWrite {s : State} {m : Master} (admits : s.Admits m .write Reg.GLB_UNLOCK 4) (data : Word) :
    exec (.glbUnlockWrite m data) s = .next ((s.unlockRewritten m).writeUnlock m data) := by
  simp only [exec, execGlbUnlockWrite, State.whenCore_on admits.1, State.command_unlock admits]

theorem State.writeUnlock_wrong {data : Word} (wrong : data ≠ unlockKey) (s : State) (m : Master) :
    s.writeUnlock m data = (s.setUnlock m none).count Reg.GLB_UNLOCK_FAIL := if_neg wrong

theorem State.count_acc (s : State) (k : Nat) : (s.count k).acc = s.acc := by simp

theorem State.setUnlock_regs (s : State) (m : Master) (u : Option Nat) : (s.setUnlock m u).regs = s.regs := by
  simp [State.setUnlock_keeps]

theorem State.setUnlock_same {s : State} {m : Master} (holds : m.val ≠ 4 ∧ m.val ≠ 9) (u : Option Nat) :
    (s.setUnlock m u).acc.unlock[m] = u := by
  rw [State.setUnlock, if_neg (by omega)]
  exact vset_same s.acc.unlock m u

theorem State.setUnlock_exempt {s : State} {m : Master} (exempt : m.val = 4 ∨ m.val = 9) (u : Option Nat) :
    s.setUnlock m u = s := if_pos exempt

theorem State.setUnlock_other {m j : Master} (h : j ≠ m) (s : State) (u : Option Nat) :
    (s.setUnlock m u).acc.unlock[j] = s.acc.unlock[j] := by
  unfold State.setUnlock
  split
  · rfl
  · exact vset_other h.symm s.acc.unlock u

theorem exec_unlockLapse_seen {s : State} {m : Master} {n : Nat} (core : s.coreOn = true) (armed : s.acc.unlock[m] = some n)
    (lapsed : 2 ≤ n) :
    exec (.unlockLapse m) s = .next (s.withAcc { s.acc with unlock := vset s.acc.unlock m none }) := by
  simp only [exec, execUnlockLapse, State.whenCore_on core, armed, Option.any_some, decide_eq_true lapsed, if_true]
  rfl

theorem exec_unlockLapse_unseen {s : State} {m : Master} {n : Nat} (core : s.coreOn = true) (armed : s.acc.unlock[m] = some n)
    (early : n < 2) : exec (.unlockLapse m) s = .next s := by
  simp only [exec, execUnlockLapse, State.whenCore_on core, armed, Option.any_some, decide_eq_false (Nat.not_le.mpr early),
    Bool.false_eq_true, if_false]

/-- Settles O41: each command comes down to one access, by its equation above. -/
theorem accessesAndArming : Obligations.AccessesAndArming := by
  have bit_address : 0x100000000 + Reg.TUN_CFG * 32 + 20 = bitAlias Reg.TUN_CFG 5 := rfl
  refine ⟨fun s m core => ⟨fun data takes => ?_, fun a r data direct aligned row admits guarded unarmed => ?_, fun data admits => ?_,
    fun e addr size data tag engine made tagged untagged c named => ?_, fun a direct aligned lo admits own _ => ?_⟩,
    fun s m core => ⟨fun data wrong takes => ?_, fun n armed lapsed => ?_,
      fun n armed early => exec_unlockLapse_unseen core armed early⟩⟩
  · obtain ⟨acc, written⟩ := State.exec_registerWrite_tunCfg takes.1 data
    have stored := s.tunCfgStored_reg acc 0xFFFFFFFF data
    refine ⟨_, written, ?_, ?_, s.tunCfgStored_regs acc _ data, .of_mem rfl⟩
    · rw [State.fld, stored]
      exact bitsOf_storedWord (by decide) (by decide) _ _
    · rw [State.bit, stored, getLsbD_storedWord]
      rfl
  · obtain ⟨acc, written⟩ := State.exec_registerWrite_denied direct aligned row admits guarded unarmed data
    obtain ⟨denied, counted, sent, regs, mem⟩ := s.denied_spec acc m a
    exact ⟨_, written, denied, counted, sent, regs, .of_mem mem⟩
  · rw [bit_address] at admits ⊢
    refine ⟨fun run => ?_, fun other => ?_⟩
    · obtain ⟨acc, written⟩ := State.exec_aliasWrite_tunCfg admits run data
      obtain ⟨bit, rest⟩ := s.tunCfgStored_bit acc (data.getLsbD 0)
      exact ⟨_, written, bit, rest, s.tunCfgStored_regs acc _ _, .of_mem rfl⟩
    · obtain ⟨acc, written⟩ := State.exec_aliasWrite_refused regRow_tunCfg (by decide) (by decide) (by decide) admits other data
      obtain ⟨counted, -, regs, mem⟩ := (s.withAcc acc).busError_errored m (bitAlias Reg.TUN_CFG 5) true 3
      exact ⟨_, written, counted, regs, .of_mem mem⟩
  · obtain ⟨u, g, dropped, start⟩ := State.access_zombie engine made tagged untagged addr.toNat (leBytes size data.toNat)
    have run : exec c s = .next (u.zombie g) := by
      rcases named with rfl | rfl
      · simp only [exec, execRegisterWrite, State.whenCore_on core, dropped, State.answered]
      · simp only [exec, execAliasWrite, State.whenCore_on core, dropped, State.answered]
    obtain ⟨regs, mem, acc⟩ : u.regs = s.regs ∧ u.mem = s.mem ∧ u.acc = s.acc := by
      rcases start with rfl | rfl <;> simp
    exact ⟨_, run, (u.zombie_counted g).after (State.reg_of_regs regs _), (SameRegsBut.of_regs regs _).trans (u.zombie_regs g),
      .of_mem (by simp [State.zombie_keeps, mem]), by simp [State.zombie_keeps, acc]⟩
  · obtain ⟨bs, read⟩ := State.exec_counterLoRead direct aligned lo admits own
    exact ⟨_, read, vset_same (s.endCapture m).acc.capture m _, .of_regs rfl _, .of_mem rfl⟩
  · have written := State.exec_glbUnlockWrite takes.1 data
    rw [State.writeUnlock_wrong wrong] at written
    have before := (s.unlockRewritten_regs m).of_regs_right ((s.unlockRewritten m).setUnlock_regs m none)
    refine ⟨_, written, fun not4 not9 => ?_, fun exempt => ?_, fun j other => ?_, (Counted.count _ _).after (before _ (by simp)),
      (before.mono (by simp)).trans (.count (List.mem_singleton_self _) _),
      .of_mem (by simp [State.setUnlock_keeps, State.unlockRewritten_mem])⟩
    · rw [State.count_acc]
      exact State.setUnlock_same ⟨not4, not9⟩ none
    · rw [State.count_acc, State.setUnlock_exempt exempt, State.unlockRewritten_unlock]
    · rw [State.count_acc, State.setUnlock_other other, State.unlockRewritten_unlock]
  · exact ⟨_, exec_unlockLapse_seen core armed lapsed, vset_same s.acc.unlock m none,
      fun j other => vset_other other.symm s.acc.unlock none, rfl, rfl⟩

end Sys2Proof.Machine
end

section
/-! A Column's halt, its image copy and the retirement of task tables (R254, R256, R259-R261). -/

namespace Sys2Proof.Machine

open Sys2Proof

/-! ## The log and FAULT_N -/

theorem SameRegsBut.fld {ks : List Nat} {s t : State} (h : SameRegsBut ks s t) {k : Nat} (hk : k ∉ ks) (hi lo : Nat) :
    t.fld k hi lo = s.fld k hi lo := by
  simp only [State.fld, h k hk]

/-- Of the registers an event changes at most the count of the records lost (R435). -/
theorem State.logEvent_regs (s : State) (src code : Nat) (data : List Nat) : SameRegsBut [Reg.LOG_LOST] s (s.logEvent src code data) := by
  unfold State.logEvent State.logBytes
  split
  · exact .refl _ s
  · split
    · exact .count (List.mem_singleton_self _) s
    · exact .of_regs rfl _

theorem State.raiseFault_asserted (s : State) (c : FaultCause) : c ∈ (s.raiseFault c).faultN := by
  unfold State.raiseFault
  split
  next already => exact List.contains_iff_mem.mp already
  · simp

/-! ## A Column halts (R260, R261) -/

theorem State.modColumn_column (s : State) (c : ColumnIx) (f : Column → Column) :
    (s.modColumn c f).eng.columns[c] = f s.eng.columns[c] := vmod_same s.eng.columns c f

/-- The heads of the last 16,000 at which a Column halted for a restart. -/
def State.recentHalts (s : State) (c : ColumnIx) : List Nat :=
  s.eng.columns[c].restarts.filter fun h => decide (s.heads < h + 16000)

/-- Whether one halt more is beyond what COL_CFG allows. -/
def State.haltFails (s : State) (c : ColumnIx) : Bool := decide (s.fld Reg.COL_CFG 7 0 < (s.recentHalts c).length + 1)

/-- A Column as its halt leaves it in a state. -/
def Column.halted (state : ColumnState) (halts : List Nat) (x : Column) : Column :=
  { x with
    state := state
    ready := false, ovr := 0, outstanding := none, late := false, copyDone := false
    restarts := halts, lines := [] }

/-- A Column has halted; the supervisor's halt is noted for the next head (R262). -/
def State.columnHalts (s : State) (c : ColumnIx) (state : ColumnState) : State :=
  let t := s.modColumn c (Column.halted state (s.recentHalts c ++ [s.heads]))
  { t with eng := { t.eng with superHalt := t.eng.superHalt || s.supervisor == some (⟨c.val, by omega⟩ : Master) } }

theorem State.columnHalts_column (s : State) (c : ColumnIx) (state : ColumnState) :
    (s.columnHalts c state).eng.columns[c] = s.eng.columns[c].halted state (s.recentHalts c ++ [s.heads]) := s.modColumn_column c _

theorem State.haltFails_eq (s : State) (c : ColumnIx) :
    s.haltFails c = decide (s.fld Reg.COL_CFG 7 0 < (s.recentHalts c ++ [s.heads]).length) := by
  rw [State.haltFails, List.length_append, List.length_singleton]

theorem State.haltColumn_restores {s : State} {c : ColumnIx} (h : s.haltFails c = false) : s.haltColumn c = s.columnHalts c .restoring := by
  have allowed := (s.haltFails_eq c).symm.trans h
  unfold State.recentHalts at allowed
  simp only [State.haltColumn, allowed, Bool.false_eq_true, if_false]
  rfl

theorem State.haltColumn_fails {s : State} {c : ColumnIx} (h : s.haltFails c = true) :
    s.haltColumn c = ((s.columnHalts c .failed).logEvent 0x11 0x02 [c.val]).raiseFault .columnFailed := by
  have beyond := (s.haltFails_eq c).symm.trans h
  unfold State.recentHalts at beyond
  simp only [State.haltColumn, beyond, if_true]
  rfl

/-- Of the registers a halt changes at most the count of the records lost. -/
theorem State.haltColumn_regs (s : State) (c : ColumnIx) : SameRegsBut [Reg.LOG_LOST] s (s.haltColumn c) := by
  cases h : s.haltFails c with
  | false =>
    rw [State.haltColumn_restores h]
    exact .of_regs rfl _
  | true =>
    rw [State.haltColumn_fails h]
    exact (SameRegsBut.of_regs rfl _).trans (((s.columnHalts c .failed).logEvent_regs 0x11 0x02 [c.val]).of_regs_right (by simp))

theorem State.haltColumn_failed {s : State} {c : ColumnIx} (h : s.haltFails c = true) :
    (s.haltColumn c).eng.columns[c].state = .failed ∧ .columnFailed ∈ (s.haltColumn c).faultN := by
  rw [State.haltColumn_fails h]
  refine ⟨?_, State.raiseFault_asserted _ _⟩
  have eng : (((s.columnHalts c .failed).logEvent 0x11 0x02 [c.val]).raiseFault .columnFailed).eng =
      (s.columnHalts c .failed).eng := by simp
  rw [eng, State.columnHalts_column]
  rfl

theorem State.haltColumn_restoring {s : State} {c : ColumnIx} (h : s.haltFails c = false) :
    (s.haltColumn c).eng.columns[c].state = .restoring ∧ (s.haltColumn c).eng.columns[c].ready = false := by
  rw [State.haltColumn_restores h, State.columnHalts_column]
  exact ⟨rfl, rfl⟩

/-- A mismatch counted and logged (R260). -/
def State.mismatchNoted (s : State) (c : ColumnIx) : State := (s.count (Reg.COL_MISMATCH c.val)).logEvent 0x11 0x01 [c.val]

theorem exec_columnMismatch {s : State} {c : ColumnIx} (core : s.coreOn = true) (running : s.eng.columns[c].state = .running) :
    exec (.columnMismatch c) s = .next ((s.mismatchNoted c).haltColumn c) := by
  simp only [exec, execColumnMismatch, State.whenCore_on core, running, bne_self_eq_false, Bool.false_eq_true, if_false]
  rfl

/-- The registers that a mismatch may change. -/
def mismatchRegs (c : ColumnIx) : List Nat := [Reg.COL_MISMATCH c.val, Reg.LOG_LOST]

theorem mismatch_ne_lost (c : ColumnIx) : Reg.COL_MISMATCH c.val ≠ Reg.LOG_LOST := by
  simp only [Reg.COL_MISMATCH, Reg.LOG_LOST]; omega

theorem cfg_not_mem_mismatchRegs (c : ColumnIx) : Reg.COL_CFG ∉ mismatchRegs c := by
  simp only [mismatchRegs, Reg.COL_MISMATCH, Reg.COL_CFG, Reg.LOG_LOST, List.mem_cons, List.not_mem_nil, or_false]; omega

theorem State.mismatchNoted_spec (s : State) (c : ColumnIx) : (s.mismatchNoted c).eng = s.eng ∧ (s.mismatchNoted c).heads = s.heads ∧
    (s.mismatchNoted c).mem = s.mem ∧ SameRegsBut (mismatchRegs c) s (s.mismatchNoted c) ∧
    Counted (Reg.COL_MISMATCH c.val) s (s.mismatchNoted c) := by
  have logged := (s.count (Reg.COL_MISMATCH c.val)).logEvent_regs 0x11 0x01 [c.val]
  exact ⟨by simp [State.mismatchNoted], by simp [State.mismatchNoted], by simp [State.mismatchNoted],
    (SameRegsBut.count (by simp [mismatchRegs]) s).trans (logged.mono (by simp [mismatchRegs])),
    (Counted.count _ s).congr (logged _ (by simpa using mismatch_ne_lost c))⟩

/-- To count and log a mismatch does not decide whether its halt fails the Column. -/
theorem State.mismatchNoted_haltFails (s : State) (c : ColumnIx) : (s.mismatchNoted c).haltFails c = s.haltFails c := by
  obtain ⟨eng, heads, -, regs, -⟩ := s.mismatchNoted_spec c
  rw [State.haltFails, State.haltFails, State.recentHalts, State.recentHalts, eng, heads, regs.fld (cfg_not_mem_mismatchRegs c)]

/-- What a mismatch leaves of registers and memory, and its count. -/
theorem State.mismatch_frame (s : State) (c : ColumnIx) : Counted (Reg.COL_MISMATCH c.val) s ((s.mismatchNoted c).haltColumn c) ∧
    SameRegsBut (mismatchRegs c) s ((s.mismatchNoted c).haltColumn c) ∧ SameMemory s ((s.mismatchNoted c).haltColumn c) := by
  obtain ⟨-, -, mem, regs, counted⟩ := s.mismatchNoted_spec c
  have halted := (s.mismatchNoted c).haltColumn_regs c
  exact ⟨counted.congr (halted _ (by simpa using mismatch_ne_lost c)), regs.trans (halted.mono (by simp [mismatchRegs])),
    .of_mem (by simp [State.haltColumn_keeps, mem])⟩

/-! ## Parts of a store -/

theorem Store.get_append_of_absent {α : Type} {d : Nat → α} {k : Nat} {l : List (Nat × α)} (h : ∀ x ∈ l, x.1 ≠ k)
    (r : List (Nat × α)) : Store.get d (l ++ r) k = Store.get d r k := by
  induction l with
  | nil => rfl
  | cons x l ih =>
    obtain ⟨hx, hl⟩ := List.forall_mem_cons.mp h
    simp only [List.cons_append, Store.get, hx, if_false, ih hl]

theorem Store.get_append_of_absent_right {α : Type} {d : Nat → α} {k : Nat} {r : List (Nat × α)} (h : ∀ x ∈ r, x.1 ≠ k)
    (l : List (Nat × α)) : Store.get d (l ++ r) k = Store.get d l k := by
  induction l with
  | nil => simpa [Store.get] using Store.get_append_of_absent h (d := d) []
  | cons x l ih => simp only [List.cons_append, Store.get, ih]

/-- A part of a store that keeps every entry of a key reads there as the store does. -/
theorem Store.get_filter_of_kept {α : Type} {d : Nat → α} {k : Nat} {p : Nat × α → Bool} (h : ∀ v, p (k, v) = true)
    (l : List (Nat × α)) : Store.get d (l.filter p) k = Store.get d l k := by
  induction l with
  | nil => rfl
  | cons x l ih =>
    obtain ⟨j, v⟩ := x
    by_cases same : j = k
    · subst same
      simp [Store.get, h]
    · by_cases kept : p (j, v) = true
      · simp [Store.get, kept, same, ih]
      · simp [Store.get, kept, same, ih]

/-- A store whose entries have moved down reads as it did above. -/
theorem Store.get_shift {α : Type} {b : α} {o : Nat} {l : List (Nat × α)} (h : ∀ x ∈ l, o ≤ x.1) (k : Nat) :
    Store.get (fun _ => b) (l.map fun x => (x.1 - o, x.2)) k = Store.get (fun _ => b) l (k + o) := by
  induction l with
  | nil => rfl
  | cons x l ih =>
    obtain ⟨hx, hl⟩ := List.forall_mem_cons.mp h
    have moved : x.1 - o = k ↔ x.1 = k + o := by omega
    simp only [List.map_cons, Store.get, moved, ih hl]

/-- A store whose range [lo, lo + a) takes a copy of the range above it reads there as it did above, and elsewhere as before. -/
theorem Store.get_copyDown {α : Type} {v : α} (lo a b : Nat) (hb : a + a = b) (l : List (Nat × α)) (k : Nat) :
    Store.get (fun _ => v) ((l.filter fun x => decide (x.1 < lo)) ++
      ((l.filter fun x => decide (lo + a ≤ x.1) && decide (x.1 < lo + b)).map fun x => (x.1 - a, x.2)) ++
      (l.filter fun x => decide (lo + a ≤ x.1))) k = Store.get (fun _ => v) l (if lo ≤ k ∧ k < lo + a then k + a else k) := by
  have below : ∀ x ∈ l.filter (fun x => decide (x.1 < lo)), x.1 < lo := by simp
  have source : ∀ x ∈ l.filter (fun x => decide (lo + a ≤ x.1) && decide (x.1 < lo + b)), lo + a ≤ x.1 ∧ x.1 < lo + b := by simp
  have above : ∀ x ∈ l.filter (fun x => decide (lo + a ≤ x.1)), lo + a ≤ x.1 := by simp
  have copied : ∀ x ∈ (l.filter fun x => decide (lo + a ≤ x.1) && decide (x.1 < lo + b)).map (fun x => (x.1 - a, x.2)),
      lo ≤ x.1 ∧ x.1 < lo + a := by
    refine List.forall_mem_map.mpr fun x hx => ?_
    have := source x hx
    dsimp only
    omega
  by_cases inside : lo ≤ k ∧ k < lo + a
  · rw [if_pos inside, Store.get_append_of_absent_right fun x hx => by have := above x hx; omega,
      Store.get_append_of_absent fun x hx => by have := below x hx; omega,
      Store.get_shift fun x hx => by have := source x hx; omega,
      Store.get_filter_of_kept fun _ => by rw [Bool.and_eq_true, decide_eq_true_eq, decide_eq_true_eq]; omega]
  · rw [if_neg inside]
    by_cases low : k < lo
    · rw [List.append_assoc, Store.get_append_of_absent_right fun x hx => ?_, Store.get_filter_of_kept fun _ => decide_eq_true low]
      have := (List.mem_append.mp hx).elim (fun h => (copied x h).1) fun h => (Nat.le_add_right lo a).trans (above x h)
      omega
    · rw [Store.get_append_of_absent fun x hx => ?_, Store.get_filter_of_kept fun _ => decide_eq_true (by omega)]
      have := (List.mem_append.mp hx).imp (below x) (copied x)
      omega

/-! ## The image copy (R259, R260) -/

/-- The working half of a Column's TCM reads as its image half did, and no other byte changes. -/
theorem State.restoreTcm_byte (s : State) (c : ColumnIx) (a : Nat) :
    (s.restoreTcm c).byte a = s.byte (if tcmBase c ≤ a ∧ a < tcmBase c + 0x20000 then a + 0x20000 else a) :=
  Store.get_copyDown (tcmBase c) 0x20000 0x40000 rfl s.mem a

theorem exec_columnImageCopyEnd {s : State} {c : ColumnIx} (core : s.coreOn = true) (restoring : s.eng.columns[c].state = .restoring) :
    exec (.columnImageCopyEnd c) s = .next ((s.restoreTcm c).modColumn c fun x => { x with copyDone := true }) := by
  simp only [exec, execColumnImageCopyEnd, State.whenCore_on core, restoring, bne_self_eq_false, Bool.false_eq_true, if_false]

/-! ## Descriptors taken (R256) -/

/-- A role whose tasks have taken n descriptors. -/
def Role.taken (n : Nat) (x : Role) : Role := { x with inbox := x.inbox.drop n }

/-- A Column whose tasks have taken n descriptors. -/
def Column.taken (n : Nat) (x : Column) : Column := { x with inbox := x.inbox.drop n }

/-- Of engines, roles and Columns the descriptors taken leave one inbox alone. -/
theorem State.takeDescriptors_eng (s : State) (k n : Nat) : (s.takeDescriptors k n).eng = (s.modInbox k fun l => l.drop n).eng := by
  have freed (t : State) (d : Descriptor) : (t.release d.id).eng = t.eng := by simp [State.release_keeps]
  simp [State.takeDescriptors, State.settle_keeps, State.over_eng freed]

theorem State.takeDescriptors_mem (s : State) (k n : Nat) : (s.takeDescriptors k n).mem = s.mem := by simp [State.takeDescriptors_keeps]

theorem State.takeDescriptors_role (s : State) (r : RoleIx) (n : Nat) :
    (s.takeDescriptors r.val n).eng.roles[r] = s.eng.roles[r].taken n := by
  have inbox : (s.modInbox r.val fun l => l.drop n) = s.modRole r (Role.taken n) := dif_pos r.isLt
  rw [State.takeDescriptors_eng, inbox, State.modRole_role]

theorem State.takeDescriptors_column (s : State) (c : ColumnIx) (n : Nat) :
    (s.takeDescriptors (16 + c.val) n).eng.columns[c] = s.eng.columns[c].taken n := by
  have at_c : (⟨(16 + c.val - 16) % 4, Nat.mod_lt _ (by decide)⟩ : ColumnIx) = c := Fin.ext (by simp)
  have inbox : (s.modInbox (16 + c.val) fun l => l.drop n) = s.modColumn c (Column.taken n) := by
    rw [State.modInbox, dif_neg (by omega), at_c]
    rfl
  rw [State.takeDescriptors_eng, inbox, State.modColumn_column]

/-- Agents that have acted on all that their inboxes hold do nothing. -/
theorem State.agentTakes_of_acted {s : State}
    (h : ∀ x : RoleIx, s.eng.roles[x].engine.isSome = true → ∀ d ∈ s.eng.roles[x].inbox, d.acted = true) : s.agentTakes = s := by
  refine State.over_same fun r _ => ?_
  split
  · rfl
  next engine =>
    have acted := h r (by simpa [Option.isSome_iff_ne_none] using engine)
    have none_new : s.unseen r = [] := List.filter_eq_nil_iff.mpr fun d hd => by simp [acted d hd]
    have all_seen : s.eng.roles[r].seen = s.eng.roles[r] := by
      have same : (s.eng.roles[r].inbox.map fun d => { d with acted := true }) = s.eng.roles[r].inbox :=
        (List.map_congr_left fun d hd => by rw [← acted d hd]; rfl).trans (List.map_id _)
      rw [Role.seen, same]
    have unchanged : s.modRole r Role.seen = s := by rw [State.modRole, vmod_self all_seen]
    show (s.modRole r Role.seen).over ((s.unseen r).filterMap fun d => s.stored d.id) _ = s
    rw [none_new, unchanged]
    rfl

/-! ## A table retires (R254) -/

/-- A role whose table has retired. -/
def Role.retired (x : Role) : Role := { x with outstanding := none }

/-- The state in which the tasks of a retiring table take their descriptors: ENG_ROLE_BODY shows what they used. -/
def State.bodyShown (s : State) (r : RoleIx) : State := s.drawn.setRegN (Reg.ENG_ROLE_BODY r.val) (s.free % 2 ^ 17)

/-- The descriptors that the tasks of beat index k take from a role's inbox (DESIGN CHOICE, log 39). -/
def Role.takes (x : Role) (k : Nat) : Nat := takenBy (x.table.getD k []) x.inbox.length

theorem exec_taskTableRetire_role {s : State} {r : RoleIx} {k : Nat} (core : s.coreOn = true)
    (outstanding : s.eng.roles[r].outstanding = some k) : exec (.taskTableRetire (.role r)) s =
      .next (((s.bodyShown r).agentTakes.takeDescriptors r.val (s.eng.roles[r].takes k)).modRole r Role.retired) := by
  simp only [exec, execTaskTableRetire, State.whenCore_on core, State.retireRole, outstanding]
  rfl

/-- The descriptors that the tasks of beat index k take from a Column's inbox (DESIGN CHOICE, log 39). -/
def Column.takes (x : Column) (k : Nat) : Nat := takenBy (x.table.getD k []) x.inbox.length

/-- A Column whose table has retired: READY rises where the retirement is in time (R260). -/
def Column.retired (head : Nat) (y : Column) : Column :=
  { y with
    outstanding := none
    ready := y.ready || !y.late
    readyHead := if y.ready || y.late then y.readyHead else head }

theorem exec_taskTableRetire_column {s : State} {c : ColumnIx} {k : Nat} (core : s.coreOn = true)
    (outstanding : s.eng.columns[c].outstanding = some k) : exec (.taskTableRetire (.column c)) s =
      .next ((s.takeDescriptors (16 + c.val) (s.eng.columns[c].takes k)).modColumn c (Column.retired s.heads)) := by
  simp only [exec, execTaskTableRetire, State.whenCore_on core, State.retireColumn, outstanding]
  rfl

/-- Settles O40: a mismatch by the count of halts it makes, a copy byte by byte, a table by the descriptors that its tasks take. -/
theorem columnRestarts : Obligations.ColumnRestarts := by
  intro s _ core
  refine ⟨fun c running => ?_, fun c restoring => ?_, fun r k outstanding => ?_, fun c k outstanding => ?_⟩
  · have run := exec_columnMismatch core running
    have same := s.mismatchNoted_haltFails c
    refine ⟨fun allowed => ?_, fun beyond => ?_⟩
    · obtain ⟨restoring, ready⟩ := State.haltColumn_restoring (same.trans (decide_eq_false (Nat.not_lt.mpr allowed)))
      exact ⟨_, run, restoring, ready, s.mismatch_frame c⟩
    · obtain ⟨failed, asserted⟩ := State.haltColumn_failed (same.trans (decide_eq_true beyond))
      exact ⟨_, run, failed, asserted, s.mismatch_frame c⟩
  · refine ⟨_, exec_columnImageCopyEnd core restoring, congrArg Column.copyDone (State.modColumn_column _ c _), .of_regs rfl _,
      fun i hi => (s.restoreTcm_byte c (tcmBase c + i)).trans ?_, fun a out => (s.restoreTcm_byte c a).trans ?_⟩
    · rw [if_pos ⟨Nat.le_add_right _ _, Nat.add_lt_add_left hi _⟩, Nat.add_right_comm]
      rfl
    · rw [if_neg (show ¬(tcmBase c ≤ a ∧ a < tcmBase c + 0x20000) by unfold tcmBase; omega)]
  · refine ⟨_, exec_taskTableRetire_role core outstanding, congrArg Role.outstanding (State.modRole_role _ r _), fun acted => ?_⟩
    have idle : (s.bodyShown r).agentTakes = s.bodyShown r := State.agentTakes_of_acted acted
    rw [idle]
    refine ⟨?_, .of_mem ((s.bodyShown r).takeDescriptors_mem _ _)⟩
    rw [State.modRole_role, Role.retired, State.takeDescriptors_role]
    rfl
  · refine ⟨_, exec_taskTableRetire_column core outstanding, congrArg Column.outstanding (State.modColumn_column _ c _), ?_,
      .of_mem (s.takeDescriptors_mem _ _)⟩
    rw [State.modColumn_column, Column.retired, State.takeDescriptors_column]
    rfl

end Sys2Proof.Machine
end

section
/-! Engines that fail, the spare, the self-test and the commands of ENG_CMD (R251, R255, R257, R258, Table ENC-6). -/

namespace Sys2Proof.Machine

open Sys2Proof

theorem State.modEngine_engine (s : State) (e : EngineIx) (f : Engine → Engine) :
    (s.modEngine e f).eng.engines[e] = f s.eng.engines[e] := vmod_same s.eng.engines e f

/-! ## A failure declared (R251, R255, R257) -/

/-- An engine is quarantined without its role, which stands without an engine from this head (R257). -/
structure EngineFailed (e : EngineIx) (r : RoleIx) (s t : State) : Prop where
  state : t.eng.engines[e].state = .quarantine
  idle : t.eng.engines[e].role = none
  left : t.eng.roles[r].engine = none
  start : t.eng.roles[r].startHead = some s.heads
  regs : t.regs = s.regs
  mem : t.mem = s.mem

theorem State.declareFailing_failed {s : State} {e : EngineIx} {r : RoleIx} (held : s.eng.engines[e].role = some r) :
    EngineFailed e r s (s.declareFailing e) := by
  simp only [State.declareFailing, held]
  have engine := s.modEngine_engine e fun _ => { state := .quarantine, role := none, imem := [], dmem := [] }
  have role := s.modRole_role r fun x =>
    { x with engine := none, startHead := some s.heads, former := e, outstanding := none, late := false }
  exact ⟨congrArg Engine.state engine, congrArg Engine.role engine, congrArg Role.engine role, congrArg Role.startHead role, rfl, rfl⟩

theorem exec_hangWatchdog {s : State} {e : EngineIx} {r : RoleIx} (core : s.coreOn = true) (held : s.eng.engines[e].role = some r)
    (watched : s.fld Reg.ENG_CFG 15 0 ≠ 0) (runs : s.eng.roles[r].outstanding ≠ none) (awake : s.pwr.state ≠ .layover) :
    exec (.hangWatchdog e) s = .next ((s.count Reg.ENG_HANG).declareFailing e) := by
  simp only [exec, execHangWatchdog, State.whenCore_on core, held, watched, runs, awake, or_self, if_false]

theorem exec_engineEccUe {s : State} {e : EngineIx} (core : s.coreOn = true) (active : s.eng.engines[e].state = .active) :
    exec (.engineEccUe e) s = .next ((s.count Reg.ENG_ECC_UE).declareFailing e) := by
  simp only [exec, execEngineEccUe, State.whenCore_on core, active, beq_self_eq_true, Bool.true_or, if_true]

/-! ## The spare (R257) -/

theorem exec_spareAssign {s : State} {r : RoleIx} (core : s.coreOn = true) (free : s.eng.roles[r].engine = none)
    (fresh : s.eng.roles[r].vacant = false) : exec (.spareAssign r) s = .next (s.assignSpare r) := by
  simp only [exec, execSpareAssign, State.whenCore_on core, free, fresh, and_self, if_true]

theorem State.assignSpare_of_spare {s : State} {e : EngineIx} (auto : s.bit Reg.ENG_CFG 16 = true) (lowest : s.lowestSpare = some e)
    (r : RoleIx) : s.assignSpare r = s.assignRole r e := by
  simp only [State.assignSpare, auto, lowest, if_true]

theorem State.assignRole_given (s : State) (r : RoleIx) (e : EngineIx) : (s.assignRole r e).eng.roles[r].engine = some e ∧
    (s.assignRole r e).eng.engines[e].state = .active ∧ (s.assignRole r e).eng.engines[e].role = some r := by
  have engine := s.modEngine_engine e fun x => { x with state := .active, role := some r, dmem := s.eng.roles[r].seed }
  have role := s.modRole_role r fun x => { x with engine := some e, vacant := false }
  exact ⟨congrArg Role.engine role, congrArg Engine.state engine, congrArg Engine.role engine⟩

/-- A role that has become vacant, before FAULT_N follows. -/
def State.vacated (s : State) (r : RoleIx) : State :=
  (s.modRole r fun x => { x with vacant := true }).logEvent 0x10 0x01 [r.val, (s.eng.roles[r].former).val]

theorem State.assignSpare_of_none {s : State} (without : s.bit Reg.ENG_CFG 16 = false ∨ s.lowestSpare = none) (r : RoleIx) :
    s.assignSpare r = (s.vacated r).noteVacancy := by
  have chosen : (if s.bit Reg.ENG_CFG 16 then s.lowestSpare else none) = none := by
    rcases without with off | out
    · rw [off, if_neg Bool.false_ne_true]
    · rw [out, ite_self]
  rw [State.assignSpare, chosen]
  rfl

theorem State.vacated_eng (s : State) (r : RoleIx) : (s.vacated r).eng = (s.modRole r fun x => { x with vacant := true }).eng := by
  simp [State.vacated]

theorem State.noteVacancy_asserted {s : State} {r : RoleIx} (vacant : s.eng.roles[r].vacant = true) :
    .roleVacant ∈ s.noteVacancy.faultN := by
  rw [State.noteVacancy, if_pos (List.any_eq_true.mpr ⟨r, List.mem_finRange r, vacant⟩)]
  exact s.raiseFault_asserted _

theorem State.noteVacancy_eng (s : State) : s.noteVacancy.eng = s.eng := by simp [State.noteVacancy_keeps]

/-! ## The self-test (R258) -/

theorem exec_engineSelftestEnd_pass {s : State} {e : EngineIx} (core : s.coreOn = true) (held : s.eng.engines[e].state = .quarantine) :
    exec (.engineSelftestEnd e true) s = .next (s.modEngine e fun x => { x with state := .spare, imem := s.eng.code }) := by
  simp only [exec, execEngineSelftestEnd, State.whenCore_on core, held, bne_self_eq_false, Bool.false_eq_true, if_false, if_true]

theorem exec_engineSelftestEnd_fail {s : State} {e : EngineIx} (core : s.coreOn = true) (held : s.eng.engines[e].state = .quarantine) :
    exec (.engineSelftestEnd e false) s = .next ((s.modEngine e fun x => { x with state := .failed }).count Reg.ENG_SELFTEST_FAIL) := by
  simp only [exec, execEngineSelftestEnd, State.whenCore_on core, held, bne_self_eq_false, Bool.false_eq_true, if_false]

/-! ## ENG_CMD (Table ENC-6) -/

/-- The row of ENG_CMD, which stores the guarded fields TARGET and OP. -/
def engRow : RegRow := row 0x100020 [] [(.grd, 0x31F), (.cmd, 0x80000000)] 0

theorem regRow_engCmd : regRow Reg.ENG_CMD = some engRow := by decide

/-- A command of a master by its OP. -/
def IsEngCommand (m : Master) (target : BitVec 5) (c : Instr) (op : Nat) : Prop :=
  (c = .engTakeover m target ∧ op = 1) ∨ (c = .engRetest m target ∧ op = 2)

/-- The word of ENG_CMD for a command. -/
def engWord (op : Nat) (target : BitVec 5) : Word := BitVec.ofNat 32 (target.toNat + op * 0x100)

theorem engWord_fields {op : Nat} (small : op < 4) (target : BitVec 5) :
    bitsOf (engWord op target) 9 8 = op ∧ bitsOf (engWord op target) 4 0 = target.toNat := by
  simp only [bitsOf, engWord, BitVec.toNat_ofNat]
  omega

/-- A command that takes effect acts on a state in which, of registers, engines and memory, ENG_CMD alone has changed. -/
theorem State.exec_engCommand {s : State} {m : Master} {target : BitVec 5} {c : Instr} {op : Nat} (takes : s.Takes m Reg.ENG_CMD)
    (named : IsEngCommand m target c op) : ∃ u, exec c s = .next (u.engCommand m (engWord op target)) ∧
      SameRegsBut [Reg.ENG_CMD] s u ∧ u.eng = s.eng ∧ u.mem = s.mem := by
  obtain ⟨acc, written⟩ := State.command_of_takes takes regRow_engCmd (mask := 0x31F) ⟨rfl, rfl, rfl⟩ (by decide) (by decide)
    (by decide) (by decide) (engWord op target)
  have run : exec c s = .next (s.whenCore fun s => s.command m Reg.ENG_CMD (engWord op target)) := by
    rcases named with ⟨rfl, rfl⟩ | ⟨rfl, rfl⟩ <;> rfl
  refine ⟨s.writes acc Reg.ENG_CMD 0x31F (engWord op target), ?_,
    (SameRegsBut.of_regs rfl _).trans (.setReg (List.mem_singleton_self _) _ _), rfl, rfl⟩
  rw [run, State.whenCore_on takes.1.1, written]
  rfl

theorem State.engCode_congr {s u : State} (eng : u.eng = s.eng) (mode : u.mode = s.mode) : u.engCode = s.engCode := by
  funext op target
  have lowest : u.lowestSpare = s.lowestSpare := by simp only [State.lowestSpare, eng]
  rw [State.engCode, State.engCode, lowest, eng, mode]

theorem SameRegsBut.mode {ks : List Nat} {s u : State} (h : SameRegsBut ks s u) (hk : Reg.GLB_MODE ∉ ks) : u.mode = s.mode := by
  simp only [State.mode, h.fld hk]

theorem State.engCode_lt (s : State) (op target : Nat) : s.engCode op target < 6 := by
  unfold State.engCode
  split_ifs <;> decide

/-- A FAILED engine that is tested again is quarantined at once (DESIGN CHOICE, log 74). -/
def Engine.retested (x : Engine) : Engine := { x with state := .quarantine, imem := [], dmem := [] }

section

variable {s : State} {op : Nat} (acts : 0 < op) (small : op < 4) (m : Master) (target : BitVec 5)

include acts small

/-- A command of ENG_CMD answers its code, whatever it does. -/
theorem State.engCommand_regs : (s.engCommand m (engWord op target)).regs =
    (s.setRegN (pmKey m Reg.ENG_CMD_RESULT) (s.engCode op target.toNat)).regs := by
  obtain ⟨hop, htarget⟩ := engWord_fields small target
  simp only [State.engCommand, hop, htarget, acts.ne', if_false]
  split_ifs <;> simp [State.modEngine_keeps]

theorem State.engCommand_refused (refused : s.engCode op target.toNat ≠ 1) : (s.engCommand m (engWord op target)).eng = s.eng := by
  obtain ⟨hop, htarget⟩ := engWord_fields small target
  simp only [State.engCommand, hop, htarget, acts.ne', refused, ne_eq, not_false_eq_true, if_true, if_false]
  simp

end

theorem State.engCommand_takeover {s : State} {target : BitVec 5} (ok : s.engCode 1 target.toNat = 1) (m : Master) :
    (s.engCommand m (engWord 1 target)).eng =
      { s.eng with takeovers := s.eng.takeovers ++ [⟨target.toNat % 16, Nat.mod_lt _ (by decide)⟩] } := by
  obtain ⟨hop, htarget⟩ := engWord_fields (op := 1) (by decide) target
  simp only [State.engCommand, hop, htarget, ok, ne_eq, not_true_eq_false, if_true, if_false, one_ne_zero]
  simp

theorem State.engCommand_retest {s : State} {target : BitVec 5} (ok : s.engCode 2 target.toNat = 1) (m : Master) :
    (s.engCommand m (engWord 2 target)).eng = (s.modEngine ⟨target.toNat % 18, Nat.mod_lt _ (by decide)⟩ Engine.retested).eng := by
  obtain ⟨hop, htarget⟩ := engWord_fields (op := 2) (by decide) target
  have kept : (s.setRegN (pmKey m Reg.ENG_CMD_RESULT) 1).eng = s.eng := by simp
  simp only [State.engCommand, hop, htarget, ok, ne_eq, not_true_eq_false, if_false, OfNat.ofNat_ne_zero, OfNat.ofNat_ne_one,
    State.modEngine, kept]
  rfl

/-- What a command of ENG_CMD that takes effect answers, and what it leaves. -/
structure EngAnswered (s t : State) (m : Master) (code : Nat) : Prop where
  result : (t.reg (pmKey m Reg.ENG_CMD_RESULT)).toNat = code
  regs : SameRegsBut [Reg.ENG_CMD, pmKey m Reg.ENG_CMD_RESULT] s t
  mem : SameMemory s t

theorem State.exec_engCommand_answered {s : State} {m : Master} {target : BitVec 5} {c : Instr} {op : Nat}
    (takes : s.Takes m Reg.ENG_CMD) (named : IsEngCommand m target c op) : ∃ u : State,
      exec c s = .next (u.engCommand m (engWord op target)) ∧ u.eng = s.eng ∧ u.engCode = s.engCode ∧
      EngAnswered s (u.engCommand m (engWord op target)) m (s.engCode op target.toNat) := by
  obtain ⟨u, run, same, eng, mem⟩ := State.exec_engCommand takes named
  have code := State.engCode_congr eng (same.mode (by decide))
  have op_range : 0 < op ∧ op < 4 := by unfold IsEngCommand at named; omega
  have regs := State.engCommand_regs (s := u) op_range.1 op_range.2 m target
  refine ⟨u, run, eng, code, ?_, ?_, .of_mem (by simp [State.engCommand_keeps, mem])⟩
  · rw [State.reg, regs]
    show ((u.setReg _ _).reg _).toNat = _
    rw [State.reg_setReg_same, BitVec.toNat_ofNat, code]
    exact Nat.mod_eq_of_lt ((s.engCode_lt op target.toNat).trans (by decide))
  · exact (same.mono (by simp)).trans ((SameRegsBut.setReg (by simp) u _).of_regs_right regs)

/-- Settles O39: each event and each command by what it makes of its engine and its role. -/
theorem enginesFailAndReturn : Obligations.EnginesFailAndReturn := by
  refine ⟨fun s core => ⟨fun e r held => ⟨fun watched runs awake => ?_, fun active => ?_⟩, fun r free fresh =>
    ⟨fun e auto lowest => ?_, fun without => ?_⟩, fun e held => ⟨?_, ?_⟩⟩, fun s m target _ takes => ⟨?_, ?_⟩⟩
  · have failed := State.declareFailing_failed (s := s.count Reg.ENG_HANG) held
    exact ⟨_, exec_hangWatchdog core held watched runs awake, (Counted.count _ s).of_regs failed.regs, failed.state, failed.idle,
      failed.left, failed.start, (SameRegsBut.count (List.mem_singleton_self _) s).of_regs_right failed.regs, .of_mem failed.mem⟩
  · have failed := State.declareFailing_failed (s := s.count Reg.ENG_ECC_UE) held
    exact ⟨_, exec_engineEccUe core active, (Counted.count _ s).of_regs failed.regs, failed.state,
      failed.left, (SameRegsBut.count (List.mem_singleton_self _) s).of_regs_right failed.regs, .of_mem failed.mem⟩
  · obtain ⟨role, state, holds⟩ := s.assignRole_given r e
    rw [exec_spareAssign core free fresh, State.assignSpare_of_spare auto lowest]
    exact ⟨_, rfl, role, state, holds, .count _ _, .count (List.mem_singleton_self _) _, .of_mem rfl⟩
  · rw [exec_spareAssign core free fresh, State.assignSpare_of_none without]
    have vacant : (s.vacated r).eng.roles[r].vacant = true := by
      rw [State.vacated_eng, State.modRole_role]
    refine ⟨_, rfl, ?_, State.noteVacancy_asserted vacant, ?_,
      .of_mem (by simp [State.noteVacancy_keeps, State.vacated, State.modRole])⟩
    · rw [State.noteVacancy_eng, vacant]
    · rw [State.noteVacancy_eng, State.vacated_eng]
      rfl
  · have engine := s.modEngine_engine e fun x => { x with state := .spare, imem := s.eng.code }
    exact ⟨_, exec_engineSelftestEnd_pass core held, congrArg Engine.state engine, congrArg Engine.imem engine, rfl, .of_regs rfl _,
      .of_mem rfl⟩
  · have engine := s.modEngine_engine e fun x => { x with state := .failed }
    exact ⟨_, exec_engineSelftestEnd_fail core held, congrArg Engine.state engine, .count _ _, rfl,
      .count (List.mem_singleton_self _) _, .of_mem rfl⟩
  · obtain ⟨u, run, eng, code, answered⟩ := State.exec_engCommand_answered takes (.inl ⟨rfl, rfl⟩ : IsEngCommand m target _ 1)
    have queued (ok : s.engCode 1 target.toNat = 1) : (u.engCommand m (engWord 1 target)).eng = _ :=
      eng ▸ State.engCommand_takeover (code ▸ ok) m
    have refused (no : s.engCode 1 target.toNat ≠ 1) : (u.engCommand m (engWord 1 target)).eng = s.eng :=
      (State.engCommand_refused (by decide) (by decide) m target (code ▸ no)).trans eng
    have kept : (u.engCommand m (engWord 1 target)).eng.engines = s.eng.engines ∧
        (u.engCommand m (engWord 1 target)).eng.roles = s.eng.roles := by
      by_cases ok : s.engCode 1 target.toNat = 1
      · rw [queued ok]
        exact ⟨rfl, rfl⟩
      · rw [refused ok]
        exact ⟨rfl, rfl⟩
    exact ⟨_, run, answered.result, answered.regs, answered.mem, kept.1, kept.2,
      fun ok => congrArg EngineWork.takeovers (queued ok), refused⟩
  · obtain ⟨u, run, eng, code, answered⟩ := State.exec_engCommand_answered takes (.inr ⟨rfl, rfl⟩ : IsEngCommand m target _ 2)
    have tested (ok : s.engCode 2 target.toNat = 1) : (u.engCommand m (engWord 2 target)).eng = _ :=
      State.engCommand_retest (code ▸ ok) m
    have refused (no : s.engCode 2 target.toNat ≠ 1) : (u.engCommand m (engWord 2 target)).eng = s.eng :=
      (State.engCommand_refused (by decide) (by decide) m target (code ▸ no)).trans eng
    refine ⟨_, run, answered.result, answered.regs, answered.mem, ?_, fun ok e named => ?_, refused⟩
    · by_cases ok : s.engCode 2 target.toNat = 1
      · rw [tested ok]
        show u.eng.roles = s.eng.roles
        rw [eng]
      · rw [refused ok]
    · have at_e : (⟨target.toNat % 18, Nat.mod_lt _ (by decide)⟩ : EngineIx) = e :=
        Fin.ext (by rw [← named]; exact Nat.mod_eq_of_lt e.isLt)
      rw [tested ok, at_e, State.modEngine_engine]
      rfl

end Sys2Proof.Machine
end

section
/-! No command ends in a fault or a refusal (R270, R311, R459). -/

namespace Sys2Proof.Machine

open Sys2Proof

/-- Settles O6: the next state whose queue `exec_keepsQueue` speaks of is the one asked for. -/
theorem everyCommandAnswers : Obligations.EveryCommandAnswers := by
  intro c s
  obtain ⟨t, answers, _⟩ := exec_keepsQueue c s
  exact ⟨t, answers⟩

end Sys2Proof.Machine
end

section
/-! Every step keeps addressed memory and the registers in canonical form (R269, R465): the rules for what runs under a condition, the
operations without a law of their own, and each command. -/

namespace Sys2Proof.Machine

open Sys2Proof

/-! ## The form of a state -/

/-- `State.Inv` spelled as the laws of Laws/Canonical.lean and Laws/CanonicalRegs.lean spell its two halves. -/
@[simp] abbrev State.Canonical (s : State) : Prop := Memory.wf s.mem = true ∧ Store.wfFrom resetWord 0 s.regs = true

/-- An operation after which memory and registers are in canonical form wherever they are before it. -/
def KeepsCanonical (f : State → State) : Prop := ∀ t : State, t.Canonical → (f t).Canonical

/-- What a command answers from `s` is in canonical form where `s` is. -/
def AnswersCanonical (s : State) (o : Out) : Prop := s.Canonical → ∀ t, o = .next t → t.Canonical

theorem AnswersCanonical.of_imp {s t : State} (h : s.Canonical → t.Canonical) : AnswersCanonical s (.next t) :=
  fun hs _ e => Host.Outcome.next.inj e ▸ h hs

theorem AnswersCanonical.next {f : State → State} (hf : KeepsCanonical f) {s : State} : AnswersCanonical s (.next (f s)) :=
  .of_imp (hf s)

/-! ## Registers, lanes and ports written -/

theorem State.Canonical.setReg {s : State} (h : s.Canonical) (k : Nat) (w : Word) : (s.setReg k w).Canonical :=
  ⟨h.1, State.setReg_regsWf s k w h.2⟩

theorem State.Canonical.setRegN {s : State} (h : s.Canonical) (k v : Nat) : (s.setRegN k v).Canonical := h.setReg k _

theorem State.Canonical.setFld {s : State} (h : s.Canonical) (k hi lo v : Nat) : (s.setFld k hi lo v).Canonical := h.setReg k _

theorem State.Canonical.count {s : State} (h : s.Canonical) (k : Nat) : (s.count k).Canonical := h.setReg k _

theorem State.Canonical.modPort {s : State} (h : s.Canonical) (p : LinkPort) (f : Port → Port) : (s.modPort p f).Canonical := h

theorem State.Canonical.modLane {s : State} (h : s.Canonical) (l : LaneIx) (f : Lane → Lane) : (s.modLane l f).Canonical := h

theorem State.Canonical.emit {s : State} (h : s.Canonical) (o : Output) : (s.emit o).Canonical := h

theorem State.Canonical.countTrunk {s : State} (h : s.Canonical) (p : LinkPort) (r : Nat → Nat) : (s.countTrunk p r).Canonical := by
  simp [State.countTrunk_keeps, h]

theorem State.Canonical.toStage {s : State} (h : s.Canonical) (p : LinkPort) (st : Stage) : (s.toStage p st).Canonical := by
  simp [State.toStage_keeps, h]

theorem State.Canonical.portDown {s : State} (h : s.Canonical) (p : LinkPort) : (s.portDown p).Canonical := by
  simp [State.portDown_keeps, h]

theorem State.Canonical.settle {s : State} (h : s.Canonical) : s.settle.Canonical := by simp [State.settle_keeps, h]

theorem State.Canonical.modRole {s : State} (h : s.Canonical) (r : RoleIx) (f : Role → Role) : (s.modRole r f).Canonical := by
  simp [State.modRole_keeps, h]

theorem State.Canonical.takeDescriptors {s : State} (h : s.Canonical) (k n : Nat) : (s.takeDescriptors k n).Canonical := by
  simp [State.takeDescriptors_keeps, h]

theorem State.Canonical.evalWidth {s : State} (h : s.Canonical) (p : LinkPort) : (s.evalWidth p).Canonical := by
  simp [State.evalWidth_keeps, h]

theorem State.Canonical.lanesOff {s : State} (h : s.Canonical) : s.lanesOff.Canonical := by simp [State.lanesOff_keeps, h]

theorem State.Canonical.untrain {s : State} (h : s.Canonical) : s.untrain.Canonical := by simp [State.untrain_keeps, h]

theorem State.Canonical.startPorst {s : State} (h : s.Canonical) : s.startPorst.Canonical := by simp [h]

theorem State.Canonical.restarted {s : State} (h : s.Canonical) (k : StartKind) : (s.restarted k).Canonical := by simp [h]

theorem State.Canonical.strapDefaults {s : State} (h : s.Canonical) (v : Nat) : (s.strapDefaults v).Canonical := by
  simp [State.strapDefaults_keeps, h]

theorem State.Canonical.startStage {s : State} (h : s.Canonical) : s.startStage.Canonical := by simp [State.startStage_keeps, h]

/-! ## What runs under a condition -/

theorem State.Canonical.wakeBy {s : State} (h : s.Canonical) (source : Nat) : (s.wakeBy source).Canonical := by
  simp [State.wakeBy_keeps, h]

theorem KeepsCanonical.whenCore {f : State → State} (hf : KeepsCanonical f) : KeepsCanonical fun s => s.whenCore f := fun t ht => by
  simp only [State.whenCore]
  split
  · exact hf t ht
  · exact ht

theorem KeepsCanonical.whenUsb {f : State → State} (hf : KeepsCanonical f) : KeepsCanonical fun s => s.whenUsb f := fun t ht => by
  simp only [State.whenUsb]
  split
  · exact hf t ht
  · exact ht

theorem KeepsCanonical.whenMf {f : State → State} (hf : KeepsCanonical f) : KeepsCanonical fun s => s.whenMf f := fun t ht => by
  simp only [State.whenMf]
  split
  · exact (hf t ht).wakeBy 0
  · exact ht

theorem KeepsCanonical.whenCar {f : State → State} (via : CarPort) (hf : KeepsCanonical f) : KeepsCanonical fun s => s.whenCar via f :=
  fun t ht => by
    simp only [State.whenCar]
    split
    · exact (hf.whenCore t ht).wakeBy 1
    · exact ht

theorem KeepsCanonical.whenPd {f : State → State} (k : PdPort) (hf : KeepsCanonical f) : KeepsCanonical fun s => s.whenPd k f :=
  fun t ht => by
    simp only [State.whenPd]
    split
    · exact hf _ (by simp [State.heard_keeps, ht])
    · exact ht

theorem KeepsCanonical.over {α : Type} {f : State → α → State} (hf : ∀ a, KeepsCanonical fun s => f s a) (l : List α) :
    KeepsCanonical fun s => s.over l f := fun t ht => by
  induction l generalizing t with
  | nil => exact ht
  | cons a l ih => exact ih (f t a) (hf a t ht)

theorem KeepsCanonical.viewing {f : State → State} (hf : KeepsCanonical f) : KeepsCanonical fun s => s.viewing f := fun t ht => by
  have := hf t ht
  simp [State.viewing, State.refreshView_keeps, this]

theorem KeepsCanonical.arriving {f : State → State} (p : LinkPort) (hf : KeepsCanonical f) : KeepsCanonical fun s => s.arriving p f :=
  fun t ht => by
    simp only [State.arriving]
    split
    · exact ht
    · split
      · simp [State.countTrunk_keeps, ht]
      · exact hf t ht

theorem KeepsCanonical.keyArrives {f : State → State} (p : TrunkPort) (payload : List Byte) (hf : KeepsCanonical f) :
    KeepsCanonical fun s => s.keyArrives p payload f :=
  .arriving _ fun _ ht => hf _ (by simp [State.creditBack_keeps, ht])

theorem KeepsCanonical.inOrder {f : State → State} (hf : KeepsCanonical f) : KeepsCanonical fun s => State.inOrder s f :=
  fun t ht => by
    have := hf { t with log := { t.log with pending := [] } } ht
    simp [State.inOrder, this]

theorem KeepsCanonical.eachWaiting {f : State → MissFrame → State} (key : EpId) (hf : ∀ m, KeepsCanonical fun s => f s m) :
    KeepsCanonical fun s => s.eachWaiting key f := fun t ht => by
  refine KeepsCanonical.over (fun m u hu => ?_) _ t ht
  dsimp only
  split
  · exact hf m _ (by simp [State.takeMiss_keeps, hu])
  · exact hu

/-- A register write of a master as a command makes it. -/
theorem KeepsCanonical.command (m : Master) (addr : Nat) (w : Word) : KeepsCanonical fun s => s.command m addr w := fun t ht => by
  simp [ht]

theorem KeepsCanonical.commandN (m : Master) (addr v : Nat) : KeepsCanonical fun s => s.commandN m addr v := fun t ht => by simp [ht]

/-! ## Operations without a law of their own -/

theorem State.Canonical.startDetect {s : State} (h : s.Canonical) (p : LinkPort) : (s.startDetect p).Canonical := by
  simp [State.startDetect, State.clearTraining_keeps, State.toStage_keeps, h]

theorem State.Canonical.coupledUp {s : State} (h : s.Canonical) (port : TrunkPort) : (s.coupledUp port).Canonical := by
  refine KeepsCanonical.viewing (fun t ht => ?_) s h
  have down : ((t.portDown (trunk port)).clearTraining (trunk port)).Canonical := by
    simp [State.clearTraining_keeps, State.portDown_keeps, ht]
  have cleared : ((((t.portDown (trunk port)).clearTraining (trunk port)).clearPartner port).modPort (trunk port)
      fun x => { x with coupled := true, coupledKept := false }).Canonical :=
    (((down.modPort _ _).setReg _ _).setReg _ _).setReg _ _
  dsimp only
  split
  · exact State.Canonical.startDetect cleared _
  · exact cleared

theorem State.Canonical.coupledFall {s : State} (h : s.Canonical) (port : TrunkPort) : (s.coupledFall port).Canonical := by
  simp only [State.coupledFall]
  split <;> simp [State.clearTraining_keeps, State.linkLoss_keeps, State.portDown_keeps, h]

theorem State.Canonical.beginTrain {s : State} (h : s.Canonical) (l : LaneIx) : (s.beginTrain l).Canonical := by
  simp [State.beginTrain, State.sendTrain_keeps, State.usePreset_keeps, h]

theorem State.Canonical.negotiate {s : State} (h : s.Canonical) (t : TrunkPort) : (s.negotiate t).Canonical := by
  simp only [State.negotiate]
  split
  · exact KeepsCanonical.over (fun _ _ hu => by simp [hu]) _ s h
  · exact h

theorem State.Canonical.capDecide {s : State} (h : s.Canonical) (p : LinkPort) (r : CapRecord) (fresh : Bool) :
    (s.capDecide p r fresh).Canonical := by
  simp only [State.capDecide]
  (repeat' split) <;> simp [State.countTrunk_keeps, h]

theorem State.Canonical.storePartner {s : State} (h : s.Canonical) (p : LinkPort) (r : CapRecord) : (s.storePartner p r).Canonical := by
  unfold State.storePartner
  dsimp only
  split
  · exact h.modPort p _
  · exact (((h.modPort p _).setRegN _ _).setRegN _ _).setRegN _ _

theorem State.Canonical.goActive {s : State} (h : s.Canonical) (p : LinkPort) (r : CapRecord) : (s.goActive p r).Canonical := by
  have staged : ((((s.storePartner p r).reservesInForce p).emptyFrame p).toStage p .active).Canonical := by
    simp [State.emptyFrame_keeps, State.reservesInForce_keeps, State.toStage_keeps, h.storePartner p r]
  have credited (t : State) (ht : t.Canonical) : ((t.resetCredits p).sendAllCred p).Canonical := by
    simp [State.resetCredits_keeps, State.sendAllCred_keeps, ht]
  exact ((credited _ (staged.modPort p _)).evalWidth p).settle

theorem State.Canonical.receiveEth {s : State} (h : s.Canonical) (n : LocalPort) (bytes : List Byte) :
    (s.receiveEth n bytes).Canonical := by
  have mapped : (s.mapFrame n bytes).1.Canonical := by simp [State.mapFrame_keeps, h]
  unfold State.receiveEth
  generalize s.mapFrame n bytes = x at mapped ⊢
  obtain ⟨s1, _ | f⟩ := x <;> (replace mapped : s1.Canonical := mapped) <;> dsimp only <;> (repeat' split) <;> simp [mapped, h]

theorem State.Canonical.cutFrame {s : State} (h : s.Canonical) (n : LocalPort) (frame : Frame) : (s.cutFrame n frame).1.Canonical := by
  have mapped : (s.mapFrame n frame.payload).1.Canonical := by simp [State.mapFrame_keeps, h]
  have tagged : (s.checkTag (loc n) frame 0).1.Canonical := by simp [State.checkTag_keeps, h]
  unfold State.cutFrame
  generalize s.mapFrame n frame.payload = x at mapped ⊢
  generalize s.checkTag (loc n) frame 0 = y at tagged ⊢
  obtain ⟨s1, _ | f⟩ := x <;> obtain ⟨s2, _ | g⟩ := y <;> (repeat' split) <;> simp_all [State.checkIds_keeps]

theorem State.Canonical.takeSync {s : State} (h : s.Canonical) (p : EgressPort) (payload : List Byte) :
    (s.takeSync p payload).Canonical := by
  unfold State.takeSync
  split <;> simp [State.onSync_keeps, h]

/-- A frame taken in keeps the form where returning its credit does. -/
theorem State.Canonical.takeIn {s : State} (h : s.Canonical) (p : EgressPort) (f : Frame) {back : State → State}
    (hback : KeepsCanonical back) : (s.takeIn p f back).Canonical := by
  simp only [State.takeIn, State.toAgent]
  split
  · exact hback s h
  · split <;> simp [h]

theorem State.Canonical.receive {s : State} (h : s.Canonical) (p : EgressPort) (rx : RxFrame) : (s.receive p rx).Canonical := by
  have checked : (s.precheck p rx).1.Canonical := by simp [State.precheck_keeps, h]
  have back : KeepsCanonical fun t => if isSync p rx then t else t.returnCredit p rx.frame.cls rx.frame.dl rx.creditCells :=
    fun t ht => by split <;> simp [State.returnCredit_keeps, ht]
  unfold State.receive
  generalize s.precheck p rx = x at checked ⊢
  obtain ⟨s1, _ | f⟩ := x
  · exact back s1 checked
  · dsimp only
    split
    · exact State.Canonical.takeSync checked p _
    · exact State.Canonical.takeIn checked p f fun t ht => by simp [State.returnCredit_keeps, ht]

theorem State.Canonical.endCut {s : State} (h : s.Canonical) (n : LocalPort) (id : Nat) (rx : RxFrame) : (s.endCut n id rx).Canonical := by
  simp only [State.endCut]
  (repeat' split) <;> simp [State.abortCut_keeps, State.finishCut_keeps, h]

theorem State.Canonical.agentServes {s : State} (h : s.Canonical) (f : Frame) (ingress : EgressPort) :
    (s.agentServes f ingress).Canonical := by
  unfold State.agentServes
  split <;> simp [State.onEcho_keeps, State.onKey_keeps, h]

theorem State.Canonical.agentTakes {s : State} (h : s.Canonical) : s.agentTakes.Canonical := by
  refine KeepsCanonical.over (fun r t ht => ?_) _ s h
  dsimp only
  split
  · exact ht
  · refine KeepsCanonical.over (fun f u hu => ?_) _ _ (by simp [State.modRole_keeps, ht])
    dsimp only
    split
    · exact State.Canonical.agentServes hu _ _
    · exact hu

theorem State.Canonical.patrolError {s : State} (h : s.Canonical) (unit : Nat) : (s.patrolError unit).Canonical := by
  unfold State.patrolError
  dsimp only
  (repeat' split) <;> simp [State.spoilEntry_keeps, State.spoilPair_keeps, State.spoilWord_keeps, State.sumpError_keeps, h]

theorem State.Canonical.scrubbed {s : State} (h : s.Canonical) (row : Nat) (x : ChamberIx × EccResult) : (s.scrubbed row x).Canonical := by
  unfold State.scrubbed
  dsimp only
  (repeat' split) <;> simp [State.chamberUe_keeps, h]

theorem State.Canonical.demandError {s : State} (h : s.Canonical) (addr size : Nat) : (s.demandError addr size).Canonical := by
  unfold State.demandError
  dsimp only
  split <;> simp [State.spoilEntry_keeps, State.spoilPair_keeps, State.spoilWord_keeps, State.sumpError_keeps, h]

theorem State.Canonical.readEcc {s : State} (h : s.Canonical) (a : Access) : (s.readEcc a).Canonical := by
  unfold State.readEcc
  dsimp only
  split
  · exact h
  · cases a.ecc with
    | clean => exact h
    | corrected => simp [h]
    | uncorrectable => exact h.demandError _ _

theorem State.Canonical.deliver {s : State} (h : s.Canonical) (a : Access) : (s.deliver a).Canonical := by
  simp only [State.deliver]
  split <;> simp [h]

theorem State.Canonical.writeBack {s : State} (h : s.Canonical) (c : ColumnIx) (addr : Nat) (data : List Byte) :
    (s.writeBack c addr data).1.Canonical := by
  simp only [State.writeBack]
  split <;> simp [State.pushFault_keeps, h]

theorem State.Canonical.cutSave {s : State} (h : s.Canonical) : s.cutSave.Canonical := by
  simp only [State.cutSave]
  split <;> exact h

theorem State.Canonical.holdPorst {s : State} (h : s.Canonical) : s.holdPorst.Canonical := by
  simp only [State.holdPorst]
  split
  · exact State.Canonical.cutSave (by simp [h])
  · exact h.cutSave

theorem State.Canonical.releaseCore {s : State} (h : s.Canonical) : s.releaseCore.Canonical := by
  have woken : ((s.setFld Reg.AVS_STATUS 9 0 s.wakeVoltage).dropFault .wakeFailed).Canonical := by simp [h]
  have cold (t : State) (ht : t.Canonical) (v : Nat) : (t.startPorst.setFld Reg.AVS_STATUS 9 0 v).Canonical :=
    ht.startPorst.setFld _ _ _ _
  have afresh (t : State) (ht : t.Canonical) (v : Nat) : ((t.strapDefaults v).startStage).Canonical :=
    (ht.strapDefaults v).startStage
  have restarted (t : State) (ht : t.Canonical) : ({ t.restarted .dormant with pwr := { (t.restarted .dormant).pwr with
      state := .waking } } : State).Canonical := by simpa using ht.restarted .dormant
  have discarded (t : State) (ht : t.Canonical) : ({ (t.restarted .dormant).count Reg.PWR_SAVE_DISCARD with
      boot := { ((t.restarted .dormant).count Reg.PWR_SAVE_DISCARD).boot with fromDormant := false }
      pwr := { ((t.restarted .dormant).count Reg.PWR_SAVE_DISCARD).pwr with save := none } } : State).Canonical :=
    by simpa using (ht.restarted .dormant).count Reg.PWR_SAVE_DISCARD
  simp only [State.releaseCore]
  split
  · refine cold _ ?_ _
    exact ⟨woken.1, woken.2⟩
  · split
    · refine restarted _ ?_
      exact ⟨woken.1, woken.2⟩
    · refine afresh _ ?_ _
      refine discarded _ ?_
      exact ⟨woken.1, woken.2⟩

theorem State.Canonical.noteMargin {s : State} (h : s.Canonical) : s.noteMargin.Canonical := by
  unfold State.noteMargin
  dsimp only
  split <;> simp [h]

theorem State.Canonical.noteProcess {s : State} (h : s.Canonical) : s.noteProcess.Canonical := by
  simp only [State.noteProcess]
  split <;> simp [h]

theorem State.Canonical.critChange {s : State} (h : s.Canonical) (ch : ChannelIx) (code : BitVec 12) (was is : Bool) :
    (s.critChange ch code was is).Canonical := by
  simp only [State.critChange]
  (repeat' split) <;> simp [h]

theorem State.Canonical.startCutoff {s : State} (h : s.Canonical) (ch : ChannelIx) (code : BitVec 12) :
    (s.startCutoff ch code).Canonical := by
  have raised : ((s.logBytes 0x1A 0x02 (leBytes 1 ch.val ++ leBytes 2 code.toNat)).raiseFault .cutoff).Canonical := by simp [h]
  exact (raised.count _).lanesOff

theorem State.Canonical.convert {s : State} (h : s.Canonical) (x : ChannelIx × BitVec 12) : (s.convert x).Canonical := by
  unfold State.convert
  extract_lets ch code c k th warn crit hot c' s1 s2 s3
  have h1 : s1.Canonical := h
  have h2 : s2.Canonical := by
    simp only [s2]
    split
    · exact h1.count _
    · exact h1
  have h3 : s3.Canonical := h2.critChange _ _ _ _
  split
  · exact h3.startCutoff _ _
  · exact h3

theorem State.Canonical.wakeCut {s : State} (h : s.Canonical) : s.wakeCut.Canonical := by
  simp only [State.wakeCut]
  split
  · exact ⟨rfl, (State.setFld_regsWf _ _ _ _ _ h.2 :)⟩
  · exact ⟨rfl, h.2⟩

theorem State.Canonical.pgoodLost {s : State} (h : s.Canonical) : s.pgoodLost.Canonical := by
  have lost : (if s.wakingCore then s.wakeCut else s.cutSave).Canonical := by
    split
    · exact h.wakeCut
    · exact h.cutSave
  simp [State.pgoodLost, lost]

theorem State.Canonical.corePllLost {s : State} (h : s.Canonical) : s.corePllLost.Canonical := by
  have limited : s.enterLimited.Canonical := by simp [State.enterLimited_keeps, h]
  have off : s.offPll.Canonical := by simp [State.offPll_keeps, h]
  simp only [State.corePllLost]
  (repeat' split)
  · exact h
  · simpa using limited.lanesOff.untrain
  · simpa using off.lanesOff

theorem State.Canonical.logOnVbat {s : State} (h : s.Canonical) : s.logOnVbat.Canonical := by
  simp [State.logOnVbat, State.writeRecord_keeps, h]

theorem State.Canonical.retireRole {s : State} (h : s.Canonical) (r : RoleIx) : (s.retireRole r).Canonical := by
  unfold State.retireRole
  extract_lets x
  split
  · exact h
  · extract_lets n s1
    have drawn : s.drawn.Canonical := by simp [h]
    have h1 : s1.Canonical := (drawn.setRegN _ _).agentTakes.takeDescriptors _ _
    exact h1.modRole _ _

theorem State.Canonical.retireColumn {s : State} (h : s.Canonical) (c : ColumnIx) : (s.retireColumn c).Canonical := by
  unfold State.retireColumn
  dsimp only
  split <;> simp [State.modColumn_keeps, State.takeDescriptors_keeps, h]

/-! ## Each command that is not one register write -/

@[simp] theorem execPlanCompute_canonical (plan s) : AnswersCanonical s (execPlanCompute plan s) :=
  .next (.whenCore fun t ht => by (repeat' split) <;> simp [ht, State.rejectPlan_keeps, State.tryPlan_keeps])

@[simp] theorem execPlanCommitRetry_canonical (s) : AnswersCanonical s (execPlanCommitRetry s) :=
  .next (.whenCore fun t ht => by (repeat' split) <;> simp [ht, State.tryPlan_keeps])

@[simp] theorem execBlockReceived_canonical (lane hdr payload reads s) :
    AnswersCanonical s (execBlockReceived lane hdr payload reads s) :=
  .next (.whenCore fun t ht => by
    (repeat' split) <;> simp [ht, State.checkPattern_keeps, State.farLoop_keeps, State.rxSource_keeps, State.takeBlock_keeps,
      State.unscramble_keeps])

@[simp] theorem execTrainBlockReceived_canonical (lane reqPre reqPost reqPreset ack rxReady tseq ackSeq settled s) :
    AnswersCanonical s (execTrainBlockReceived lane reqPre reqPost reqPreset ack rxReady tseq ackSeq settled s) :=
  .next (.whenCore fun t ht => by
    dsimp only
    (repeat' split) <;> simp [ht, State.noteHealth_keeps, State.ownRequest_keeps, State.sendTrain_keeps, State.trainReady_keeps,
      State.trainRequest_keeps])

@[simp] theorem execAmkReceived_canonical (port marks sincePrev s) : AnswersCanonical s (execAmkReceived port marks sincePrev s) :=
  .next (.whenCore fun t ht => by
    have striped (ms : List AmkMark) (low : AmkMark) : ((t.deskew port ms low).restripe port).Canonical := by
      simp [State.deskew_keeps, State.restripe_keeps, ht]
    have announced (ms : List AmkMark) (low : AmkMark) (un : Bool) :
        (((t.deskew port ms low).restripe port).rxAnnounce port ms low un).Canonical := by
      simp [State.rxAnnounce_keeps, striped]
    dsimp only
    (repeat' split)
    · exact ht
    · exact ht
    · exact State.Canonical.evalWidth (by simp [State.resyncRx_keeps, announced]) _
    · exact (announced _ _ _).evalWidth _
    · exact striped _ _)

@[simp] theorem execAmkSend_canonical (port s) : AnswersCanonical s (execAmkSend port s) :=
  .next (.whenCore fun t ht => by
    dsimp only
    (repeat' split) <;> simp [ht, State.sendAmk_keeps])

@[simp] theorem execCredReceived_canonical (port tc esc count s) : AnswersCanonical s (execCredReceived port tc esc count s) :=
  .next (.whenCore fun t ht => by (repeat' split) <;> simp [ht, State.modCredit_keeps, State.refreshDrain_keeps])

@[simp] theorem execCredBlockSend_canonical (port tc esc s) : AnswersCanonical s (execCredBlockSend port tc esc s) :=
  .next (.whenCore fun t ht => by (repeat' split) <;> simp [ht, State.sendCred_keeps])

@[simp] theorem execCreditResyncPeriodic_canonical (port s) : AnswersCanonical s (execCreditResyncPeriodic port s) :=
  .next (.whenCore fun t ht => by
    dsimp only
    (repeat' split) <;> simp [ht, State.resyncTx_keeps, State.sendAmk_keeps])

@[simp] theorem execCreditResyncIgnoreEnd_canonical (port s) : AnswersCanonical s (execCreditResyncIgnoreEnd port s) :=
  .next (.whenCore fun t ht => by simp [ht])

@[simp] theorem execCreditResyncSecondCred_canonical (port s) : AnswersCanonical s (execCreditResyncSecondCred port s) :=
  .next (.whenCore fun t ht => by (repeat' split) <;> simp [ht, State.sendAllCred_keeps])

@[simp] theorem execEchoRequestSend_canonical (port s) : AnswersCanonical s (execEchoRequestSend port s) :=
  .next (.whenCore fun t ht => by (repeat' split) <;> simp [ht])

@[simp] theorem execEchoRequestReceived_canonical (port lane eseq turn s) :
    AnswersCanonical s (execEchoRequestReceived port lane eseq turn s) :=
  .next (.whenCore fun t ht => by (repeat' split) <;> simp [ht])

@[simp] theorem execEchoReplyReceived_canonical (port eseq turn roundTrip s) :
    AnswersCanonical s (execEchoReplyReceived port eseq turn roundTrip s) :=
  .next (.whenCore fun t ht => by (repeat' split) <;> simp [ht])

@[simp] theorem execDelayUpdate_canonical (port s) : AnswersCanonical s (execDelayUpdate port s) :=
  .next (.whenCore fun t ht => by
    dsimp only
    (repeat' split) <;> simp [ht])

@[simp] theorem execFltReceived_canonical (port code lanes s) : AnswersCanonical s (execFltReceived port code lanes s) :=
  .next (.whenCore fun t ht => by (repeat' split) <;> simp [ht, State.txDrop_keeps])

@[simp] theorem execFltRxExpiry_canonical (lane s) : AnswersCanonical s (execFltRxExpiry lane s) :=
  .next (.whenCore fun t ht => by (repeat' split) <;> simp [ht, State.noteHealth_keeps])

@[simp] theorem execTxLaneJoin_canonical (port lane s) : AnswersCanonical s (execTxLaneJoin port lane s) :=
  .next (.whenCore fun t ht => by
    have returned (l : List Nat) : (t.over l fun s i => s.laneReturns port i).Canonical :=
      KeepsCanonical.over (fun _ _ hu => by simp [State.laneReturns_keeps, hu]) l t ht
    dsimp only
    (repeat' split)
    · exact ht
    · exact returned _
    · exact State.Canonical.evalWidth (by simp [State.sendAmk_keeps, returned]) port)

@[simp] theorem execFltSend_canonical (port s) : AnswersCanonical s (execFltSend port s) :=
  .next (.whenCore fun t ht => by
    dsimp only
    split
    · exact ht
    · refine State.Canonical.modPort (KeepsCanonical.over (fun c u hu => ?_) _ t ht) _ _
      dsimp only
      split
      · exact hu
      · exact hu.emit _)

@[simp] theorem execLpbkRequestReceived_canonical (port lanes s) : AnswersCanonical s (execLpbkRequestReceived port lanes s) :=
  .next (.whenCore fun t ht => by
    dsimp only
    split
    · exact ht
    · refine KeepsCanonical.over (fun _ _ hu => by simp [State.loopChanged_keeps, hu]) _ _ ?_
      have counted (l : List Nat) : (t.over l fun s i => s.count (Reg.LANE_LPBK_FAIL (laneAt port i).val)).Canonical :=
        KeepsCanonical.over (fun _ _ hu => hu.count _) l t ht
      (repeat' split)
      · exact counted _
      · exact (counted _).emit _
      · exact (counted _).emit _
      · exact ((counted _).emit _).emit _)

@[simp] theorem execLpbkAnswerReceived_canonical (port lanes accepted s) :
    AnswersCanonical s (execLpbkAnswerReceived port lanes accepted s) :=
  .next (.whenCore (.over (fun i u hu => by dsimp only; (repeat' split) <;> simp [hu]) _))

@[simp] theorem execLpbkReleaseReceived_canonical (port lanes s) : AnswersCanonical s (execLpbkReleaseReceived port lanes s) :=
  .next (.whenCore fun t ht => KeepsCanonical.over (fun _ _ hu => by simp [State.loopChanged_keeps, hu]) _ t ht)

@[simp] theorem execLpbkRequestSend_canonical (lane s) : AnswersCanonical s (execLpbkRequestSend lane s) :=
  .next (.whenCore fun t ht => by
    dsimp only
    (repeat' split) <;> simp [ht])

@[simp] theorem execLpbkTimeout_canonical (lane s) : AnswersCanonical s (execLpbkTimeout lane s) :=
  .next (.whenCore fun t ht => by (repeat' split) <;> simp [ht])

@[simp] theorem execLosAssert_canonical (lane s) : AnswersCanonical s (execLosAssert lane s) :=
  .next (.whenCore fun t ht => by (repeat' split) <;> simp [ht, State.signalLost_keeps])

@[simp] theorem execLosClear_canonical (lane s) : AnswersCanonical s (execLosClear lane s) :=
  .next (.whenCore fun t ht => by (repeat' split) <;> simp [ht, State.signalBack_keeps])

@[simp] theorem execLolAssert_canonical (lane s) : AnswersCanonical s (execLolAssert lane s) :=
  .next (.whenCore fun t ht => by (repeat' split) <;> simp [ht, State.signalLost_keeps])

@[simp] theorem execLolClear_canonical (lane s) : AnswersCanonical s (execLolClear lane s) :=
  .next (.whenCore fun t ht => by (repeat' split) <;> simp [ht, State.signalBack_keeps])

@[simp] theorem execEyeMeasurement_canonical (lane height width s) : AnswersCanonical s (execEyeMeasurement lane height width s) :=
  .next (.whenCore fun t ht => by (repeat' split) <;> simp [ht])

@[simp] theorem execTrendUpdate_canonical (s) : AnswersCanonical s (execTrendUpdate s) :=
  .next (.whenCore fun t ht => by (repeat' split) <;> simp [ht, State.trendSecond_keeps])

@[simp] theorem execUsbUpAttach_canonical (plug rp s) : AnswersCanonical s (execUsbUpAttach plug rp s) :=
  .of_imp fun ht => by
    have noted (u : State) (hu : u.Canonical) : ((u.noteCc 0 true).attachWake plug.settled).Canonical := by
      simp [State.attachWake_keeps, State.noteCc_keeps, hu]
    split
    · exact ht
    · refine noted _ (KeepsCanonical.whenUsb (fun u hu => ?_) s ht)
      dsimp only
      (repeat' split) <;> simp [State.connectUp_keeps, State.measureVbus_keeps, hu]

@[simp] theorem execUsbUpDetach_canonical (s) : AnswersCanonical s (execUsbUpDetach s) :=
  .of_imp fun ht => by
    have noted (u : State) (hu : u.Canonical) : (u.noteCc 0 false).Canonical := by simp [State.noteCc_keeps, hu]
    refine noted _ (KeepsCanonical.whenUsb (fun u hu => ?_) s ht)
    have gone : ((u.disconnectUp.removeVbus 0).dropPartner 0).Canonical := by
      simp [State.disconnectUp_keeps, State.dropPartner_keeps, State.removeVbus_keeps, hu]
    dsimp only
    (repeat' split) <;> simp [State.measureVbus_keeps, hu, gone]

@[simp] theorem execUsbDnAttach_canonical (port plug s) : AnswersCanonical s (execUsbDnAttach port plug s) :=
  .of_imp fun ht => by
    have noted (u : State) (hu : u.Canonical) : ((u.noteCc (dnPd port) true).attachWake plug.settled).Canonical := by
      simp [State.attachWake_keeps, State.noteCc_keeps, hu]
    have applied (u : State) (hu : u.Canonical) : ((u.applyVbus (dnPd port)).showRp (dnPd port)).Canonical := by
      simp [State.applyVbus_keeps, State.showRp_keeps, hu]
    dsimp only
    split
    · exact ht
    · refine noted _ (KeepsCanonical.whenUsb (fun u hu => ?_) s ht)
      (repeat' split) <;> simp [State.sendCaps_keeps, hu, applied]

@[simp] theorem execUsbDnDetach_canonical (port s) : AnswersCanonical s (execUsbDnDetach port s) :=
  .of_imp fun ht => by
    have noted (u : State) (hu : u.Canonical) : (u.noteCc (dnPd port) false).Canonical := by simp [State.noteCc_keeps, hu]
    refine noted _ (KeepsCanonical.whenUsb (fun u hu => ?_) s ht)
    dsimp only
    (repeat' split) <;> simp [State.detachDn_keeps, hu]

@[simp] theorem execServiceConnectTimeout_canonical (s) : AnswersCanonical s (execServiceConnectTimeout s) :=
  .next (.whenUsb fun t ht => by (repeat' split) <;> simp [ht, State.connectService_keeps])

@[simp] theorem execUsbOverCurrent_canonical (n s) : AnswersCanonical s (execUsbOverCurrent n s) :=
  .next (.whenUsb fun t ht => by
    dsimp only
    split
    · exact KeepsCanonical.over (fun _ _ hu => by simp [State.overCurrent_keeps, hu]) _ _ (ht.count _)
    · simp [State.overCurrent_keeps, ht])

@[simp] theorem execSetPortPower_canonical (n s) : AnswersCanonical s (execSetPortPower n s) :=
  .of_imp fun ht => (KeepsCanonical.whenUsb (fun u hu => by
    split
    · exact KeepsCanonical.over (fun _ _ hv => by simp [State.powerPort_keeps, hv]) _ _ hu
    · simp [State.powerPort_keeps, hu]) s ht).wakeBy 0

@[simp] theorem execClearPortPower_canonical (n s) : AnswersCanonical s (execClearPortPower n s) :=
  .of_imp fun ht => (KeepsCanonical.whenUsb (fun u hu => by
    dsimp only
    (repeat' split) <;> simp [State.detachDn_keeps, hu]) s ht).wakeBy 0

@[simp] theorem execUsbDeviceConnect_canonical (n connected s) : AnswersCanonical s (execUsbDeviceConnect n connected s) :=
  .of_imp fun ht => by (repeat' split) <;> simp [ht, State.wakeBy_keeps]

@[simp] theorem execOpenSession_canonical (wValue wIndex wLength s) : AnswersCanonical s (execOpenSession wValue wIndex wLength s) :=
  .next (.whenMf fun t ht => by (repeat' split) <;> simp [ht, State.setSession_keeps])

@[simp] theorem execCloseSession_canonical (wValue wIndex wLength s) : AnswersCanonical s (execCloseSession wValue wIndex wLength s) :=
  .next (.whenMf fun t ht => by (repeat' split) <;> simp [ht, State.closeSession_keeps])

@[simp] theorem execGetSession_canonical (wValue wIndex wLength s) : AnswersCanonical s (execGetSession wValue wIndex wLength s) :=
  .next (.whenMf fun t ht => by (repeat' split) <;> simp [ht])

@[simp] theorem execPing_canonical (s) : AnswersCanonical s (execPing s) :=
  .next (.whenMf fun t ht => by simp [ht])

@[simp] theorem execLpmToken_canonical (s) : AnswersCanonical s (execLpmToken s) :=
  .next (.whenMf fun t ht => by (repeat' split) <;> simp [ht])

@[simp] theorem execUsbBusReset_canonical (duringControl s) : AnswersCanonical s (execUsbBusReset duringControl s) :=
  .next (.whenUsb fun t ht => by
    have cleared : (t.closeSession.usbDefault).Canonical := by simp [State.closeSession_keeps, State.usbDefault_keeps, ht]
    dsimp only
    (repeat' split) <;> simp [ht, cleared])

@[simp] theorem execUsbSuspend_canonical (s) : AnswersCanonical s (execUsbSuspend s) :=
  .next (.whenUsb fun t ht => by (repeat' split) <;> simp [ht])

@[simp] theorem execRemoteWake_canonical (s) : AnswersCanonical s (execRemoteWake s) :=
  .next (.whenUsb fun t ht => by (repeat' split) <;> simp [ht])

@[simp] theorem execHostResume_canonical (s) : AnswersCanonical s (execHostResume s) :=
  .of_imp fun ht => (KeepsCanonical.whenUsb (fun u hu => by
    dsimp only
    (repeat' split) <;> simp [hu]) s ht).wakeBy 0

@[simp] theorem execStandardRequest_canonical (req s) : AnswersCanonical s (execStandardRequest req s) :=
  .of_imp fun ht => (KeepsCanonical.whenUsb (fun u hu => by
    simp only [State.portRequest]
    cases req <;> dsimp only <;> (repeat' split) <;> simp [hu]) s ht).wakeBy 0

@[simp] theorem execBulkInTransfer_canonical (s) : AnswersCanonical s (execBulkInTransfer s) :=
  .next (.whenMf fun t ht => by (repeat' split) <;> simp [ht, State.sendErdy_keeps])

@[simp] theorem execSourceCapabilities_canonical (port pdos pd3 s) : AnswersCanonical s (execSourceCapabilities port pdos pd3 s) :=
  .next (.whenPd _ fun t ht => by
    dsimp only
    (repeat' split) <;> simp [ht, State.sendPd_keeps])

@[simp] theorem execPdRequest_canonical (port head cur s) : AnswersCanonical s (execPdRequest port head cur s) :=
  .next (.whenPd _ fun t ht => by
    dsimp only
    (repeat' split) <;> simp [ht, State.sendPd_keeps])

@[simp] theorem execVbusSettled_canonical (port s) : AnswersCanonical s (execVbusSettled port s) :=
  .next (.whenUsb fun t ht => by
    dsimp only
    (repeat' split) <;> simp [ht, State.measureVbus_keeps, State.sendPd_keeps])

@[simp] theorem execSrcSettleTimeout_canonical (port s) : AnswersCanonical s (execSrcSettleTimeout port s) :=
  .next (.whenUsb fun t ht => by
    dsimp only
    (repeat' split) <;> simp [ht, State.hardReset_keeps])

@[simp] theorem execGetSourceCap_canonical (port s) : AnswersCanonical s (execGetSourceCap port s) :=
  .next (.whenPd _ fun t ht => by (repeat' split) <;> simp [ht, State.notSupported_keeps, State.sendCaps_keeps, State.sendPd_keeps])

@[simp] theorem execGetSinkCap_canonical (port s) : AnswersCanonical s (execGetSinkCap port s) :=
  .next (.whenPd _ fun t ht => by (repeat' split) <;> simp [ht, State.notSupported_keeps, State.sendPd_keeps])

@[simp] theorem execPrSwap_canonical (port s) : AnswersCanonical s (execPrSwap port s) :=
  .next (.whenPd _ fun t ht => by (repeat' split) <;> simp [ht, State.removeVbus_keeps, State.sendPd_keeps])

@[simp] theorem execPsRdyReceived_canonical (s) : AnswersCanonical s (execPsRdyReceived s) :=
  .next (.whenPd _ fun t ht => by
    dsimp only
    (repeat' split) <;> simp [ht, State.connectService_keeps, State.measureVbus_keeps, State.sendCaps_keeps, State.sendPd_keeps])

@[simp] theorem execDrSwap_canonical (port s) : AnswersCanonical s (execDrSwap port s) :=
  .next (.whenPd _ fun t ht => by (repeat' split) <;> simp [ht, State.sendPd_keeps])

@[simp] theorem execSoftReset_canonical (port s) : AnswersCanonical s (execSoftReset port s) :=
  .next (.whenPd _ fun t ht => by simp [ht, State.restartIds_keeps, State.sendPd_keeps])

@[simp] theorem execHardReset_canonical (port s) : AnswersCanonical s (execHardReset port s) :=
  .next (.whenUsb fun t ht => by (repeat' split) <;> simp [ht, State.hardReset_keeps])

@[simp] theorem execDiscoverIdentity_canonical (port s) : AnswersCanonical s (execDiscoverIdentity port s) :=
  .next (.whenPd _ fun t ht => by (repeat' split) <;> simp [ht, State.sendPd_keeps])

@[simp] theorem execUnsupportedPdMessage_canonical (msg s) : AnswersCanonical s (execUnsupportedPdMessage msg s) :=
  .next (.whenPd _ fun t ht => by (repeat' split) <;> simp [ht, State.notSupported_keeps, State.sendPd_keeps])

@[simp] theorem execDischargeEnd_canonical (port s) : AnswersCanonical s (execDischargeEnd port s) :=
  .of_imp fun ht => by
    dsimp only
    (repeat' split) <;> simp [ht, State.applyVbus_keeps, State.measureVbus_keeps, State.sendCaps_keeps]

@[simp] theorem execDischargeTimeout_canonical (port s) : AnswersCanonical s (execDischargeTimeout port s) :=
  .next (.whenUsb fun t ht => by (repeat' split) <;> simp [ht, State.dropPartner_keeps])

@[simp] theorem execPdSrcPdoChange_canonical (port s) : AnswersCanonical s (execPdSrcPdoChange port s) :=
  .next (.whenUsb fun t ht => by simp [ht, State.notePdo_keeps])

@[simp] theorem execGoodcrcTimeout_canonical (port s) : AnswersCanonical s (execGoodcrcTimeout port s) :=
  .next (.whenUsb fun t ht => by
    dsimp only
    (repeat' split) <;> simp [ht, State.hardReset_keeps, State.restartIds_keeps, State.sendPd_keeps])

@[simp] theorem execRegisterWrite_canonical (m addr size data tag s) : AnswersCanonical s (execRegisterWrite m addr size data tag s) :=
  .next (.whenCore fun t ht => by simp [ht, State.answered_keeps])

@[simp] theorem execMemoryAccess_canonical (a s) : AnswersCanonical s (execMemoryAccess a s) :=
  .next (.whenCore fun t ht => by
    have seen : ((t.deliver a).readEcc a).Canonical := (ht.deliver a).readEcc a
    simp [seen])

@[simp] theorem execCacheWriteback_canonical (c addr data s) : AnswersCanonical s (execCacheWriteback c addr data s) :=
  .next (.whenCore fun t ht => by
    have answered (x : State × Answer) (hx : x.1.Canonical) (m : Master) : (State.answered x m).Canonical := by simp [hx]
    dsimp only
    (repeat' split)
    · exact answered _ (State.Canonical.writeBack (by simp [State.dropColLine_keeps, ht]) _ _ _) _
    · exact ht
    · exact answered _ (ht.writeBack _ _ _) _
    · exact ht)

@[simp] theorem execAliasWrite_canonical (m addr size item s) : AnswersCanonical s (execAliasWrite m addr size item s) :=
  .next (.whenCore fun t ht => by simp [ht, State.answered_keeps])

@[simp] theorem execCounterLoRead_canonical (m addr size s) : AnswersCanonical s (execCounterLoRead m addr size s) :=
  .next (.whenCore fun t ht => by simp [ht, State.answered_keeps])

@[simp] theorem execCavernDiagWrite_canonical (m addr data s) : AnswersCanonical s (execCavernDiagWrite m addr data s) :=
  .next (.whenCore fun t ht => by (repeat' split) <;> simp [ht])

@[simp] theorem execUnlockLapse_canonical (m s) : AnswersCanonical s (execUnlockLapse m s) :=
  .next (.whenCore fun t ht => by (repeat' split) <;> simp [ht])

@[simp] theorem execBankClearEnd_canonical (s) : AnswersCanonical s (execBankClearEnd s) :=
  .next (.whenCore fun t ht => by (repeat' split) <;> simp [ht])

@[simp] theorem execMpuBarrierDone_canonical (m s) : AnswersCanonical s (execMpuBarrierDone m s) :=
  .next (.whenCore fun t ht => by simp [ht, State.endBarrier_keeps])

@[simp] theorem execRuleChangeEffect_canonical (s) : AnswersCanonical s (execRuleChangeEffect s) :=
  .next (.whenCore fun t ht => by simp [ht, State.ruleTakesEffect_keeps])

@[simp] theorem execKeyHelloReceived_canonical (port payload s) : AnswersCanonical s (execKeyHelloReceived port payload s) :=
  .next (.whenCore (.keyArrives _ _ fun _ ht => by simp [State.helloArrives_keeps, ht]))

@[simp] theorem execKeyFinishReceived_canonical (port payload s) : AnswersCanonical s (execKeyFinishReceived port payload s) :=
  .next (.whenCore (.keyArrives _ _ fun _ ht => by simp [State.finishArrives_keeps, ht]))

@[simp] theorem execKeyResumeReceived_canonical (port payload s) : AnswersCanonical s (execKeyResumeReceived port payload s) :=
  .next (.whenCore (.keyArrives _ _ fun _ ht => by simp [State.resumeArrives_keeps, ht]))

@[simp] theorem execKeyFailReceived_canonical (port payload s) : AnswersCanonical s (execKeyFailReceived port payload s) :=
  .next (.whenCore (.keyArrives _ _ fun _ ht => by simp [State.failArrives_keeps, ht]))

@[simp] theorem execAuthTimeout_canonical (port s) : AnswersCanonical s (execAuthTimeout port s) :=
  .next (.whenCore fun t ht => by
    split
    · exact KeepsCanonical.viewing (fun _ hu => by simp [State.authFailed_keeps, hu]) t ht
    · exact ht)

@[simp] theorem execAuthRetry_canonical (port s) : AnswersCanonical s (execAuthRetry port s) :=
  .next (.whenCore fun t ht => by
    (repeat' split)
    · exact ht
    · exact ht
    · refine KeepsCanonical.viewing (fun _ hu => ?_) t ht
      split <;> simp [State.sendHello_keeps, State.startAuth_keeps, hu])

@[simp] theorem execRekeyDue_canonical (port s) : AnswersCanonical s (execRekeyDue port s) :=
  .next (.whenCore fun t ht => by
    dsimp only
    (repeat' split) <;> simp [ht, State.sendHello_keeps])

@[simp] theorem execSyncSend_canonical (port s) : AnswersCanonical s (execSyncSend port s) :=
  .next (.whenCore fun t ht => by (repeat' split) <;> simp [ht, State.reauthSpent_keeps, State.sendSync_keeps])

@[simp] theorem execSyncReceived_canonical (port payload s) : AnswersCanonical s (execSyncReceived port payload s) :=
  .next (.whenCore (.arriving _ fun _ ht => by simp [State.onSync_keeps, ht]))

@[simp] theorem execEchoFrameReceived_canonical (port echo s) : AnswersCanonical s (execEchoFrameReceived port echo s) :=
  .next (.whenCore (.arriving _ fun t ht => by
    have credited : (t.creditBack (trunk port) 7 false (cellsOfLen echo.bytes.length)).Canonical := by
      simp [State.creditBack_keeps, ht]
    dsimp only
    (repeat' split)
    · exact KeepsCanonical.viewing (fun _ hu => by simp [State.takeEcho_keeps, hu]) _ credited
    · exact credited.count _
    · exact credited.count _))

@[simp] theorem execEchoFramePeriodicSend_canonical (port s) : AnswersCanonical s (execEchoFramePeriodicSend port s) :=
  .next (.whenCore fun t ht => by (repeat' split) <;> simp [ht, State.sendEcho_keeps])

@[simp] theorem execNeighbourDeadEchoTimeout_canonical (port s) : AnswersCanonical s (execNeighbourDeadEchoTimeout port s) :=
  .next (.whenCore fun t ht => by
    dsimp only
    split
    · exact ht
    · exact KeepsCanonical.viewing (fun _ hu => by simp [State.sendHello_keeps, hu]) t ht)

@[simp] theorem execNeighbourDeadLinkLoss_canonical (port s) : AnswersCanonical s (execNeighbourDeadLinkLoss port s) :=
  .next (.whenCore fun t ht => by
    have dead (f : Port → Port) : (t.viewing fun s => (s.modPort (trunk port) f).count Reg.TOPO_NB_DEAD).Canonical :=
      KeepsCanonical.viewing (fun u hu => (hu.modPort _ f).count _) t ht
    dsimp only
    (repeat' split) <;> simp [State.closeWindow_keeps, ht, dead])

@[simp] theorem execHoldWindowClose_canonical (port s) : AnswersCanonical s (execHoldWindowClose port s) :=
  .next (.whenCore fun t ht => by
    dsimp only
    (repeat' split) <;> simp [ht, State.closeWindow_keeps, State.flushHeld_keeps])

@[simp] theorem execMergeAnnounce_canonical (s) : AnswersCanonical s (execMergeAnnounce s) :=
  .next (.whenCore fun t ht => by (repeat' split) <;> simp [ht, State.sendEchoAll_keeps, State.setMerges_keeps])

@[simp] theorem execMergeCancel_canonical (s) : AnswersCanonical s (execMergeCancel s) :=
  .next (.whenCore fun t ht => KeepsCanonical.over (fun _ _ hu => by simp [State.takeCancel_keeps, hu]) _ t ht)

@[simp] theorem execFormingEnd_canonical (s) : AnswersCanonical s (execFormingEnd s) :=
  .next (.whenCore fun t ht => by (repeat' split) <;> simp [ht])

@[simp] theorem execBeatBlockReceived_canonical (port num hops hold ofs pep late s) :
    AnswersCanonical s (execBeatBlockReceived port num hops hold ofs pep late s) :=
  .next (.whenCore fun t ht => by (repeat' split) <;> simp [ht, State.measureBeat_keeps, State.takeBeat_keeps])

@[simp] theorem execHoldoverEntry_canonical (s) : AnswersCanonical s (execHoldoverEntry s) :=
  .next (.whenCore fun t ht => by (repeat' split) <;> simp [ht])

@[simp] theorem execEnterMaster_canonical (s) : AnswersCanonical s (execEnterMaster s) :=
  .next (.whenCore fun t ht => by
    dsimp only
    split
    · exact KeepsCanonical.viewing (fun _ hu => by simp [State.becomeMaster_keeps, hu]) t ht
    · exact ht)

@[simp] theorem execMasterMove_canonical (s) : AnswersCanonical s (execMasterMove s) :=
  .next (.whenCore fun t ht => by
    dsimp only
    split
    · exact ht
    · refine KeepsCanonical.viewing (fun u hu => ?_) t ht
      (repeat' split) <;>
        simp [State.becomeFollower_keeps, State.newMaster_keeps, State.sendEchoAll_keeps, State.takeRole_keeps, hu])

@[simp] theorem execEpochRaise_canonical (s) : AnswersCanonical s (execEpochRaise s) :=
  .next (.whenCore fun t ht => by
    dsimp only
    (repeat' split) <;> simp [ht, State.countSplit_keeps, State.raiseTo_keeps])

@[simp] theorem execPepPrevWindowEnd_canonical (s) : AnswersCanonical s (execPepPrevWindowEnd s) :=
  .next (.whenCore fun t ht => by (repeat' split) <;> simp [ht])

@[simp] theorem execMergeStep_canonical (s) : AnswersCanonical s (execMergeStep s) :=
  .next (.whenCore fun t ht => by
    dsimp only
    split
    · simp [State.setMerges_keeps, ht]
    · exact KeepsCanonical.viewing (fun _ hu => by simp [State.merged_keeps, State.stepMerged_keeps, hu]) t ht)

@[simp] theorem execSfdpRetry_canonical (found s) : AnswersCanonical s (execSfdpRetry found s) :=
  .next (.whenCore fun t ht => by
    dsimp only
    (repeat' split) <;> simp [ht, State.pendRecovery_keeps, State.setStage_keeps, State.showHeaders_keeps])

@[simp] theorem execCopyVerifyEnd_canonical (readOk s) : AnswersCanonical s (execCopyVerifyEnd readOk s) :=
  .next (.whenCore fun t ht => by
    dsimp only
    (repeat' split) <;> simp [ht, State.rejectCopy_keeps])

@[simp] theorem execApplyEnd_canonical (s) : AnswersCanonical s (execApplyEnd s) :=
  .next (.whenCore fun t ht => by
    dsimp only
    (repeat' split) <;> simp [ht, State.applied_keeps])

@[simp] theorem execSeedEnd_canonical (s) : AnswersCanonical s (execSeedEnd s) :=
  .next (.whenCore fun t ht => by (repeat' split) <;> simp [ht, State.endSeed_keeps])

@[simp] theorem execRunWaitExpiry_canonical (s) : AnswersCanonical s (execRunWaitExpiry s) :=
  .next (.whenCore fun t ht => by
    dsimp only
    (repeat' split) <;> simp [ht])

@[simp] theorem execFlashOpEnd_canonical (ok s) : AnswersCanonical s (execFlashOpEnd ok s) :=
  .next (.whenCore fun t ht => by
    (repeat' split) <;> simp [ht, State.eraseCopy_keeps, State.programPage_keeps, State.readPage_keeps, State.tornFlash_keeps,
      State.verifyCopy_keeps])

@[simp] theorem execSpillWriteComplete_canonical (q s) : AnswersCanonical s (execSpillWriteComplete q s) :=
  .next (.whenCore fun t ht => by
    (repeat' split)
    · exact ht
    · refine State.Canonical.settle (State.Canonical.count ?_ _)
      have spoilt (l : List ChamberIx) : (t.over l State.chamberUe).Canonical :=
        KeepsCanonical.over (fun _ _ hu => by simp [State.chamberUe_keeps, hu]) l t ht
      simp [State.dropRef_keeps, spoilt]
    · simp [State.modRef_keeps, State.modStored_keeps, State.settle_keeps, ht])

@[simp] theorem execSpillReturn_canonical (q ecc s) : AnswersCanonical s (execSpillReturn q ecc s) :=
  .next (.whenCore fun t ht => by (repeat' split) <;> simp [ht, State.discardSpilled_keeps, State.settle_keeps])

@[simp] theorem execSumpReadyFall_canonical (s) : AnswersCanonical s (execSumpReadyFall s) :=
  .next (.whenCore fun t ht => by (repeat' split) <;> simp [ht, State.untrain_keeps])

@[simp] theorem execSumpPatrolScrub_canonical (ecc s) : AnswersCanonical s (execSumpPatrolScrub ecc s) :=
  .next (.whenCore fun t ht => by
    dsimp only
    split
    · exact ht
    · split
      · cases ecc with
        | clean => exact ht.setRegN _ _
        | corrected => exact (ht.count _).setRegN _ _
        | uncorrectable => exact (ht.patrolError _).setRegN _ _
      · cases ecc with
        | clean => exact (ht.setReg _ _).count _
        | corrected => exact ((ht.count _).setReg _ _).count _
        | uncorrectable => exact ((ht.patrolError _).setReg _ _).count _)

@[simp] theorem execSumpTrainingEnd_canonical (ok s) : AnswersCanonical s (execSumpTrainingEnd ok s) :=
  .next (.whenCore fun t ht => by (repeat' split) <;> simp [ht, State.trained_keeps])

@[simp] theorem execMprTemperatureRead_canonical (hot s) : AnswersCanonical s (execMprTemperatureRead hot s) :=
  .next (.whenCore fun t ht => by (repeat' split) <;> simp [ht])

@[simp] theorem execCavernScrub_canonical (found s) : AnswersCanonical s (execCavernScrub found s) :=
  .next (.whenCore fun t ht => by
    have scrubbed : (t.over found fun s x => s.scrubbed s.cav.scrubRow x).Canonical :=
      KeepsCanonical.over (fun x _ hu => hu.scrubbed _ x) found t ht
    dsimp only
    (repeat' split)
    · exact ht
    · exact ⟨scrubbed.1, scrubbed.2⟩
    · refine State.Canonical.count ?_ _
      exact ⟨scrubbed.1, scrubbed.2⟩)

@[simp] theorem execChamberFail_canonical (chamber s) : AnswersCanonical s (execChamberFail chamber s) :=
  .next (.whenCore fun t ht => by (repeat' split) <;> simp [ht, State.failChamber_keeps, State.settle_keeps])

@[simp] theorem execCavernBistEnd_canonical (bad s) : AnswersCanonical s (execCavernBistEnd bad s) :=
  .next (.whenCore fun t ht => by
    dsimp only
    split
    · exact ht
    · exact KeepsCanonical.inOrder (.over (fun _ _ hu => by simp [State.failChamber_keeps, hu]) _) _ (by simp [ht]))

@[simp] theorem execPwrAskWrite_canonical (m target beat s) : AnswersCanonical s (execPwrAskWrite m target beat s) :=
  .next (.whenCore fun t ht => by
    have low := KeepsCanonical.commandN m Reg.PWR_ASK_BEAT_LO (beat.toNat % 2 ^ 32) t ht
    have high := KeepsCanonical.commandN m Reg.PWR_ASK_BEAT_HI (beat.toNat / 2 ^ 32) _ low
    exact KeepsCanonical.command m Reg.PWR_ASK target _ high)

@[simp] theorem execMgmtReadRequest_canonical (srcEp tc req s) : AnswersCanonical s (execMgmtReadRequest srcEp tc req s) :=
  .next (.whenCore fun t ht => by simp [ht])

@[simp] theorem execMgmtWriteRequest_canonical (srcEp tc req s) : AnswersCanonical s (execMgmtWriteRequest srcEp tc req s) :=
  .next (.whenCore fun t ht => by simp [ht])

@[simp] theorem execBulkOutRequest_canonical (req s) : AnswersCanonical s (execBulkOutRequest req s) :=
  .next (.whenMf fun t ht => by
    have served : (t.serve 6 req).state.Canonical := by simp [ht]
    have queued : ((t.serve 6 req).state.queueReply req (t.serve 6 req)).Canonical := by simp [State.queueReply_keeps, served]
    dsimp only
    (repeat' split)
    · simp [State.refusePacket_keeps, ht]
    · simp [State.ackPacket_keeps, State.queueReply_keeps, ht]
    · simp [State.ackPacket_keeps, queued])

@[simp] theorem execCarRead_canonical (via count addr s) : AnswersCanonical s (execCarRead via count addr s) :=
  .next (.whenCar via fun t ht => by
    dsimp only
    (repeat' split) <;> simp [ht])

@[simp] theorem execCarWrite_canonical (via count addr data s) : AnswersCanonical s (execCarWrite via count addr data s) :=
  .next (.whenCar via fun t ht => by
    dsimp only
    split <;> simp [ht])

@[simp] theorem execCarWriteStatus_canonical (tx s) : AnswersCanonical s (execCarWriteStatus tx s) :=
  .of_imp fun ht => by (repeat' split) <;> simp [ht]

@[simp] theorem execFrameReceived_canonical (port rx tag s) : AnswersCanonical s (execFrameReceived port rx tag s) :=
  .next (.whenCore fun t ht => by
    cases toLink port with
    | none =>
      dsimp only
      split
      · split
        · simp [State.zombie_keeps, ht]
        · exact (ht.receive port rx).settle
      · exact (ht.receive port rx).settle
    | some l =>
      dsimp only
      split
      · exact ht
      · refine KeepsCanonical.arriving l (fun u hu => ?_) t ht
        have counted : (u.countLocal port Reg.LOC_RX_FRAMES_LO Reg.LOC_RX_BYTES_LO rx.bytes).Canonical := by
          simp [State.countLocal_keeps, hu]
        (repeat' split)
        · exact (counted.receive port rx).settle
        · exact (counted.endCut _ _ rx).settle
        · exact (counted.receive port rx).settle)

@[simp] theorem execEthFrameReceived_canonical (port bytes fcs s) : AnswersCanonical s (execEthFrameReceived port bytes fcs s) :=
  .next (.whenCore fun t ht => by
    have counted : (t.countLocal (toEgress (loc port)) Reg.LOC_RX_FRAMES_LO Reg.LOC_RX_BYTES_LO (bytes.length + 4)).Canonical := by
      simp [State.countLocal_keeps, ht]
    have aborted (u : State) (hu : u.Canonical) : (u.abortCut port).Canonical := by simp [State.abortCut_keeps, hu]
    have finished (u : State) (hu : u.Canonical) (id : Nat) : (u.finishCut id).Canonical := by simp [State.finishCut_keeps, hu]
    dsimp only
    (repeat' split)
    · exact ht
    · exact ((aborted _ counted).count _).settle
    · exact (finished _ counted _).settle
    · exact counted.count _
    · exact (counted.receiveEth port bytes).settle)

@[simp] theorem execCutThroughJoin_canonical (port frame s) : AnswersCanonical s (execCutThroughJoin port frame s) :=
  .next (.whenCore fun t ht => by
    have cut := ht.cutFrame port frame
    dsimp only
    generalize t.cutFrame port frame = x at cut ⊢
    split
    · exact ht
    obtain ⟨s1, _ | f⟩ := x
    · exact ht
    have judged : (s1.judge (toEgress (loc port)) f false none).1.Canonical := by simp [State.judge_keeps, (cut : s1.Canonical)]
    dsimp only
    generalize s1.judge (toEgress (loc port)) f false none = y at judged ⊢
    obtain ⟨s2, v⟩ := y
    cases v with
    | pass a =>
      dsimp only
      split
      · exact ht
      next g q _ =>
        have stored : (s2.store g (toEgress (loc port)) a.matched (s2.cav.lastChamber.val + 1)).Canonical := by
          simp [State.store_keeps, (judged : s2.Canonical)]
        generalize s2.store g (toEgress (loc port)) a.matched (s2.cav.lastChamber.val + 1) = s3 at stored ⊢
        have joined : (s3.joinAll s2.cav.nextId g.cls g.cells true [q]).1.Canonical := by simp [State.joinAll_keeps, stored]
        generalize s3.joinAll s2.cav.nextId g.cls g.cells true [q] = z at joined ⊢
        obtain ⟨s4, r⟩ := z
        cases r with
        | joined => simp [State.returnCredit_keeps, (joined : s4.Canonical)]
        | _ => exact ht
    | _ => exact ht)

@[simp] theorem execEntryFetchComplete_canonical (ep ecc s) : AnswersCanonical s (execEntryFetchComplete ep ecc s) :=
  .next (.whenCore fun t ht => by
    dsimp only
    split
    · exact ht
    · refine State.Canonical.settle (KeepsCanonical.eachWaiting ep (fun m u hu => by simp [hu]) _ ?_)
      (repeat' split) <;> simp [State.fillCache_keeps, State.spoilEntry_keeps, State.sumpError_keeps, ht])

@[simp] theorem execMissWaitTimeout_canonical (ep s) : AnswersCanonical s (execMissWaitTimeout ep s) :=
  .next (.whenCore fun t ht => by simp [ht, State.settle_keeps])

@[simp] theorem execSchedulerDecision_canonical (port slot s) : AnswersCanonical s (execSchedulerDecision port slot s) :=
  .next (.whenCore fun t ht => by
    have sent : ((t.takeOwn port).frameSlot port slot.cclk slot.found).Canonical := by
      simp [State.frameSlot_keeps, ht]
    dsimp only
    split
    · exact sent.agentTakes
    · simp [State.idleFill_keeps, sent])

@[simp] theorem execTwinEntryAgeOut_canonical (src s) : AnswersCanonical s (execTwinEntryAgeOut src s) :=
  .next (.whenCore fun t ht => by (repeat' split) <;> simp [ht, State.ageOutTwin_keeps])

@[simp] theorem execDrainWaitExceeded_canonical (port s) : AnswersCanonical s (execDrainWaitExceeded port s) :=
  .next (.whenCore fun t ht => by (repeat' split) <;> simp [ht])

@[simp] theorem execHangWatchdog_canonical (e s) : AnswersCanonical s (execHangWatchdog e s) :=
  .next (.whenCore fun t ht => by (repeat' split) <;> simp [ht, State.declareFailing_keeps])

@[simp] theorem execEngineEccUe_canonical (e s) : AnswersCanonical s (execEngineEccUe e s) :=
  .next (.whenCore fun t ht => by (repeat' split) <;> simp [ht, State.declareFailing_keeps])

@[simp] theorem execSpareAssign_canonical (r s) : AnswersCanonical s (execSpareAssign r s) :=
  .next (.whenCore fun t ht => by (repeat' split) <;> simp [ht, State.assignSpare_keeps])

@[simp] theorem execEngineSelftestEnd_canonical (e pass s) : AnswersCanonical s (execEngineSelftestEnd e pass s) :=
  .next (.whenCore fun t ht => by (repeat' split) <;> simp [ht, State.modEngine_keeps])

@[simp] theorem execColumnMismatch_canonical (c s) : AnswersCanonical s (execColumnMismatch c s) :=
  .next (.whenCore fun t ht => by
    have logged : ((t.count (Reg.COL_MISMATCH c.val)).logEvent 0x11 0x01 [c.val]).Canonical := by simp [ht]
    split
    · exact ht
    · simp [State.haltColumn_keeps, ht.1, logged])

@[simp] theorem execColumnImageCopyEnd_canonical (c s) : AnswersCanonical s (execColumnImageCopyEnd c s) :=
  .next (.whenCore fun t ht => by (repeat' split) <;> simp [ht, State.modColumn_keeps, State.restoreTcm_keeps])

@[simp] theorem execTaskTableRetire_canonical (owner s) : AnswersCanonical s (execTaskTableRetire owner s) :=
  .next (.whenCore fun t ht => by
    cases owner with
    | role r => exact ht.retireRole r
    | column c => exact ht.retireColumn c)

@[simp] theorem execBeatHead_canonical (s) : AnswersCanonical s (execBeatHead s) :=
  .of_imp fun ht => by
    split
    · exact KeepsCanonical.inOrder (fun _ hu => by simp [hu]) s ht
    · exact ht

@[simp] theorem execPwrAskIssue_canonical (s) : AnswersCanonical s (execPwrAskIssue s) :=
  .next (.whenCore fun t ht => by
    dsimp only
    (repeat' split) <;> simp [ht, State.issueAsk_keeps])

@[simp] theorem execPwrRetry_canonical (s) : AnswersCanonical s (execPwrRetry s) :=
  .next (.whenCore fun t ht => by (repeat' split) <;> simp [ht, State.issueAsk_keeps])

@[simp] theorem execBlockAgree_canonical (block s) : AnswersCanonical s (execBlockAgree block s) :=
  .next (.whenCore fun t ht => by
    dsimp only
    (repeat' split) <;> simp [ht])

@[simp] theorem execBlockRefuse_canonical (block reason s) : AnswersCanonical s (execBlockRefuse block reason s) :=
  .next (.whenCore fun t ht => by
    dsimp only
    (repeat' split) <;> simp [ht, State.refuse_keeps])

@[simp] theorem execRollbackRestartEnd_canonical (s) : AnswersCanonical s (execRollbackRestartEnd s) :=
  .next (.whenCore fun t ht => by (repeat' split) <;> simp [ht, State.rollbackNext_keeps])

@[simp] theorem execDormantEntryComplete_canonical (s) : AnswersCanonical s (execDormantEntryComplete s) :=
  .next (.whenCore fun t ht => by
    have entered : (t.zeroVolatile.coreOff.entryOver).Canonical := by
      simp [State.zeroVolatile_keeps, State.entryOver_keeps, State.coreOff, ht]
    dsimp only
    split
    · exact ht
    · simp [State.replayLatch_keeps, entered])

@[simp] theorem execRestTick_canonical (s) : AnswersCanonical s (execRestTick s) :=
  .next (.whenCore fun t ht => by (repeat' split) <;> simp [ht, State.sendDueCaps_keeps])

@[simp] theorem execWakeEvent_canonical (source s) : AnswersCanonical s (execWakeEvent source s) :=
  .of_imp fun ht => by simp [ht, State.wakeBy_keeps]

@[simp] theorem execWakeLayoverReady_canonical (s) : AnswersCanonical s (execWakeLayoverReady s) :=
  .next (.whenCore fun t ht => by
    (repeat' split) <;> simp [ht, State.freeEngines_keeps, State.lanesOn_keeps, State.reopenAdmission_keeps])

@[simp] theorem execPgoodRise_canonical (s) : AnswersCanonical s (execPgoodRise s) :=
  .of_imp fun ht => by
    dsimp only
    (repeat' split)
    · exact ht
    · exact ht
    · exact State.Canonical.releaseCore ⟨ht.1, ht.2⟩
    · exact ht
    · exact State.Canonical.startPorst ⟨ht.1, ht.2⟩
    · exact ht

@[simp] theorem execRestoreEnd_canonical (s) : AnswersCanonical s (execRestoreEnd s) :=
  .next (.whenCore fun t ht => by
    (repeat' split)
    · exact ht
    · exact ht
    · next v _ _ =>
      have restored (n : Nat) : ((t.strapDefaults n).restoreSet v).Canonical := by
        simp [State.restoreSet_keeps, State.strapDefaults_keeps, ht]
      simp [State.startStage_keeps, restored])

@[simp] theorem execAvsAckTimeout_canonical (s) : AnswersCanonical s (execAvsAckTimeout s) :=
  .of_imp fun ht => by
    split
    · simp [State.wakeNoAck_keeps, ht]
    · refine KeepsCanonical.whenCore (fun u hu => ?_) s ht
      (repeat' split) <;> simp [State.sendVoltage_keeps, State.stepFailed_keeps, hu]

@[simp] theorem execWakePgoodTimeout_canonical (s) : AnswersCanonical s (execWakePgoodTimeout s) :=
  .of_imp fun ht => by (repeat' split) <;> simp [ht, State.wakeFailed_keeps]

@[simp] theorem execWakeRetry_canonical (s) : AnswersCanonical s (execWakeRetry s) :=
  .of_imp fun ht => by (repeat' split) <;> simp [ht, State.wakeAttempt_keeps]

@[simp] theorem execAvsStep_canonical (ack s) : AnswersCanonical s (execAvsStep ack s) :=
  .of_imp fun ht => by
    dsimp only
    split
    · (repeat' split)
      · simp [State.wakeFailed_keeps, ht]
      · exact State.Canonical.releaseCore ⟨ht.1, ht.2⟩
      · exact ht
    · refine KeepsCanonical.whenCore (fun u hu => ?_) s ht
      (repeat' split) <;> simp [State.stepDone_keeps, State.stepFailed_keeps, hu]

@[simp] theorem execAvsEvaluation_canonical (s) : AnswersCanonical s (execAvsEvaluation s) :=
  .next (.whenCore fun t ht => by (repeat' split) <;> simp [ht, State.avsEvaluate_keeps, State.writeTarget_keeps])

@[simp] theorem execAvsTargetRetry_canonical (s) : AnswersCanonical s (execAvsTargetRetry s) :=
  .next (.whenCore fun t ht => by (repeat' split) <;> simp [ht, State.writeTarget_keeps])

@[simp] theorem execClockSwitch_canonical (s) : AnswersCanonical s (execClockSwitch s) :=
  .next (.whenCore fun t ht => by (repeat' split) <;> simp [ht, State.goLimited_keeps, State.onPll_keeps, State.wakeMemories_keeps])

@[simp] theorem execPllLockTimeout_canonical (s) : AnswersCanonical s (execPllLockTimeout s) :=
  .next (.whenCore fun t ht => by (repeat' split) <;> simp [ht, State.goLimited_keeps])

@[simp] theorem execPllLockRetry_canonical (locked s) : AnswersCanonical s (execPllLockRetry locked s) :=
  .next (.whenCore fun t ht => by (repeat' split) <;> simp [ht])

@[simp] theorem execMonConversion_canonical (readings s) : AnswersCanonical s (execMonConversion readings s) :=
  .of_imp fun ht => by
    have converted (l : List (ChannelIx × BitVec 12)) : KeepsCanonical fun u => u.over l State.convert :=
      .over (fun x _ hu => hu.convert x) l
    (repeat' split)
    · exact ht
    · exact KeepsCanonical.inOrder (fun u hu => (converted readings u hu).noteProcess.noteMargin) s ht
    · exact KeepsCanonical.inOrder (converted _) s ht

@[simp] theorem execCutoffCoreOff_canonical (s) : AnswersCanonical s (execCutoffCoreOff s) :=
  .of_imp fun ht => by
    have off : (s.coreOff.entryOver).Canonical := by simp [State.entryOver_keeps, State.coreOff, ht]
    dsimp only
    split
    · simpa using off
    · exact ht

@[simp] theorem execThermalRestart_canonical (s) : AnswersCanonical s (execThermalRestart s) :=
  .of_imp fun ht => by
    dsimp only
    (repeat' split) <;> simp [ht, State.wakeAttempt_keeps]

@[simp] theorem execLogRecordWrite_canonical (s) : AnswersCanonical s (execLogRecordWrite s) :=
  .of_imp fun ht => by
    dsimp only
    (repeat' split) <;> simp [ht, State.trendSecond_keeps, State.writeRecord_keeps]

@[simp] theorem execCoupledRise_canonical (port s) : AnswersCanonical s (execCoupledRise port s) :=
  .of_imp fun ht => by
    split
    · exact ht
    · exact (KeepsCanonical.whenCore (fun _ hu => hu.coupledUp port) s ht).wakeBy 5

@[simp] theorem execCoupleSnsOpen_canonical (port s) : AnswersCanonical s (execCoupleSnsOpen port s) :=
  .of_imp fun ht => by
    split
    · exact ht
    · exact (KeepsCanonical.whenCore (fun _ hu => hu.coupledFall port) s ht).wakeBy 5

@[simp] theorem execCoupleSnsBounce_canonical (port s) : AnswersCanonical s (execCoupleSnsBounce port s) :=
  .next (.whenCore fun t ht => by (repeat' split) <;> simp [ht])

@[simp] theorem execDownExit_canonical (port s) : AnswersCanonical s (execDownExit port s) :=
  .next (.whenCore fun t ht => by
    dsimp only
    (repeat' split)
    · exact ht
    · simp [State.enterLock_keeps, ht]
    · exact ht.startDetect port)

@[simp] theorem execDetectionResult_canonical (port lanes s) : AnswersCanonical s (execDetectionResult port lanes s) :=
  .next (.whenCore fun t ht => by
    have tried (l : List Nat) : (t.over l fun s i =>
        if s.mayTrain port && lanes.getLsbD i && !s.rateMix (laneAt port i) then s.beginTrain (laneAt port i)
        else s.modLane (laneAt port i) fun x => { x with detected := lanes.getLsbD i }).Canonical :=
      KeepsCanonical.over (fun i u hu => by
        dsimp only
        split
        · exact hu.beginTrain _
        · exact hu.modLane _ _) l t ht
    dsimp only
    (repeat' split)
    · exact ht
    · exact (tried _).toStage _ _
    · exact tried _)

@[simp] theorem execDetectRetry_canonical (port s) : AnswersCanonical s (execDetectRetry port s) :=
  .next (.whenCore fun t ht => by (repeat' split) <;> simp [ht])

@[simp] theorem execTrainComplete_canonical (port s) : AnswersCanonical s (execTrainComplete port s) :=
  .next (.whenCore fun t ht => by
    dsimp only
    (repeat' split) <;> simp [ht, State.enterLock_keeps])

@[simp] theorem execTrainTimeout_canonical (port s) : AnswersCanonical s (execTrainTimeout port s) :=
  .next (.whenCore fun t ht => by
    have down : ((t.portDown port).countTrunk port Reg.TRK_TRAIN_TIMEOUT).Canonical := (ht.portDown port).countTrunk port _
    dsimp only
    (repeat' split)
    · exact ht
    · simp [State.enterLock_keeps, ht]
    · exact down.negotiate _
    · exact down)

@[simp] theorem execLockComplete_canonical (port s) : AnswersCanonical s (execLockComplete port s) :=
  .next (.whenCore fun t ht => by
    dsimp only
    (repeat' split) <;> simp [ht, State.enterCapx_keeps])

@[simp] theorem execLockTimeout_canonical (port s) : AnswersCanonical s (execLockTimeout port s) :=
  .next (.whenCore fun t ht => by
    dsimp only
    (repeat' split) <;> simp [ht, State.countTrunk_keeps, State.enterCapx_keeps, State.portDown_keeps])

@[simp] theorem execCapRecordReceived_canonical (port lane rec consecutive s) :
    AnswersCanonical s (execCapRecordReceived port lane rec consecutive s) :=
  .next (.whenCore fun t ht => by
    dsimp only
    split
    · exact ht
    · split
      · exact State.Canonical.capDecide (ht.modPort _ _) _ _ _
      · exact ht.modPort _ _)

@[simp] theorem execCapxTimeout_canonical (port s) : AnswersCanonical s (execCapxTimeout port s) :=
  .next (.whenCore fun t ht => by
    dsimp only
    (repeat' split) <;> simp [ht, State.countTrunk_keeps, State.portDown_keeps])

@[simp] theorem execPortActive_canonical (port s) : AnswersCanonical s (execPortActive port s) :=
  .next (.whenCore fun t ht => by
    split
    · exact ht
    · split
      · exact ht
      · next r _ =>
        refine KeepsCanonical.viewing (fun u hu => ?_) t ht
        dsimp only
        split
        · simp [State.startAuth_keeps, hu.goActive port r]
        · exact hu.goActive port r)

@[simp] theorem execPorstNAssert_canonical (ns s) : AnswersCanonical s (execPorstNAssert ns s) :=
  .of_imp fun ht => by
    have drawn : s.drawn.Canonical := by simp [ht]
    (repeat' split)
    · exact ht
    · exact ht.holdPorst
    · exact drawn
    · exact drawn.holdPorst

@[simp] theorem execPorstNRelease_canonical (straps vauxFromVbus s) : AnswersCanonical s (execPorstNRelease straps vauxFromVbus s) :=
  .of_imp fun ht => by (repeat' split) <;> simp [ht]

@[simp] theorem execPgoodFall_canonical (ns s) : AnswersCanonical s (execPgoodFall ns s) :=
  .of_imp fun ht => by
    have drawn : s.drawn.Canonical := by simp [ht]
    (repeat' split)
    · exact ht
    · exact ht.pgoodLost
    · exact drawn
    · exact drawn.pgoodLost

@[simp] theorem execPgoodRecover_canonical (s) : AnswersCanonical s (execPgoodRecover s) :=
  .of_imp fun ht => by
    dsimp only
    (repeat' split) <;> simp [ht]

@[simp] theorem execRefclkAbsent_canonical (input s) : AnswersCanonical s (execRefclkAbsent input s) :=
  .next (.whenCore fun t ht => by
    have absent : (t.setBit Reg.GLB_REFCLK input.val false).Canonical := by simp [ht]
    dsimp only
    (repeat' split)
    · exact absent
    · exact absent.portDown _
    · refine KeepsCanonical.over (fun n u hu => ?_) _ _ absent
      dsimp only
      split
      · exact hu
      · exact hu.portDown _
    · exact absent.corePllLost)

@[simp] theorem execRefclkPresent_canonical (input s) : AnswersCanonical s (execRefclkPresent input s) :=
  .next (.whenCore fun t ht => by simp [ht])

@[simp] theorem execVauxFall_canonical (vbat s) : AnswersCanonical s (execVauxFall vbat s) :=
  .of_imp fun ht => by
    have logged : s.cutOps.logOnVbat.Canonical := State.Canonical.logOnVbat (by simp [State.cutOps_keeps, ht])
    dsimp only
    (repeat' split)
    · exact ht
    · simpa [State.bedrockOff] using logged
    · simpa [State.bedrockOff, State.loseGeode] using logged

/-- Only the registers on VBAT live through a rise of VAUX, and what is left of a list in canonical form is again in it. -/
@[simp] theorem execVauxRise_canonical (vbatHeld s) : AnswersCanonical s (execVauxRise vbatHeld s) :=
  .of_imp fun ht => by
    dsimp only
    split
    · exact ht
    · refine ⟨rfl, ?_⟩
      dsimp only
      split
      · exact Store.wfFrom_filter _ ht.2
      · rfl

@[simp] theorem execXtalOkChange_canonical (ok s) : AnswersCanonical s (execXtalOkChange ok s) :=
  .of_imp fun ht => by (repeat' split) <;> simp [ht]

@[simp] theorem execTamper_canonical (sources s) : AnswersCanonical s (execTamper sources s) :=
  .of_imp fun ht => by
    dsimp only
    (repeat' split) <;> simp [ht, State.tamperNow_keeps]

@[simp] theorem execKeyCommandEnd_canonical (s) : AnswersCanonical s (execKeyCommandEnd s) :=
  .next (.whenCore fun t ht => by simp [ht, State.endKey_keeps])

@[simp] theorem execDebugUnlockResponse_canonical (answer s) : AnswersCanonical s (execDebugUnlockResponse answer s) :=
  .next (.whenCore fun t ht => by
    dsimp only
    (repeat' split) <;> simp [ht, State.enterDebug_keeps, State.readSlot_keeps])

@[simp] theorem execDebugChallengeRenew_canonical (s) : AnswersCanonical s (execDebugChallengeRenew s) :=
  .next (.whenCore fun t ht => by (repeat' split) <;> simp [ht])

@[simp] theorem execSecFuseOpEnd_canonical (ok s) : AnswersCanonical s (execSecFuseOpEnd ok s) :=
  .next (.whenCore fun t ht => by simp [ht, State.endFuse_keeps])

/-! ## Every command, and a tick -/

theorem exec_canonical (c : Instr) (s : State) : AnswersCanonical s (exec c s) := by
  cases c
  case beatCommit | beatCancel | epRead | epWrite | epWriteKeep | epPin | epUnpin | epRevoke | epInvalidate | tunMapAdd | tunMapDelete |
      tunMapLookup | tunnelAdd | tunnelRemove | engTakeover | engRetest | bankRelease | derive | keyInvalidate | mac | sign | ecdhGen |
      ecdhAgree | wrap | unwrap | keyInfo | saInstall | saRetire | rootNew | zeroise | secFuseProgram | secFuseRevoke | bootRun |
      bootReset | bootRecover | bootStaged | bootSeed | bootTest | flEraseCopy | flProgram | flRead | flVerify =>
    exact .next (.whenCore (.commandN _ _ _))
  case laneLoopWrite | laneTrendClrWrite | locModeWrite | locGroupWrite | trkCfgEnWrite | sumpTrain | sumpUePop | glbUnlockWrite |
      snapshotRequest | mpuSyncWrite | mpuFaultPop | bootStgDataWrite | pwrReqWrite | avsTargetWrite | logRdAddrWrite | logPutCmd =>
    exact .next (.whenCore (.command _ _ _))
  all_goals simp [exec]

theorem State.Canonical.rtcSecond {s : State} (h : s.Canonical) : s.rtcSecond.Canonical := by
  simp only [State.rtcSecond]
  (repeat' split)
  · exact h
  · exact (h.setReg _ _).wakeBy 6
  · exact h.setReg _ _

theorem idleTick_canonical {s : State} (h : s.Canonical) : (idleTick s).Canonical := by
  have ticked (u : State) (hu : u.Canonical) : (if u.ticks + 1 < 800000000 then { u with ticks := u.ticks + 1 }
      else ({ u with ticks := 0 } : State).rtcSecond).Canonical := by
    split
    · exact ⟨hu.1, hu.2⟩
    · exact State.Canonical.rtcSecond ⟨hu.1, hu.2⟩
  refine ticked _ ?_
  split <;> exact h

/-- Settles O4: a tick and every command keep both forms, whatever the state. -/
theorem canonicalKept : Obligations.CanonicalKept := by
  intro s t h e
  unfold step at e
  split at e
  · exact Host.Outcome.next.inj e ▸ idleTick_canonical h
  next c rest _ => exact exec_canonical c { s with pending := rest } h t e

end Sys2Proof.Machine
end

section
/-! A write of a command register of GLB, CNT, MPU or KEY acts on a state in which access control alone has changed: the capture has
ended and the arming is spent (R281, R287). -/

namespace Sys2Proof.Machine

open Sys2Proof

/-- A state with other captures and armings. -/
def State.rearmed (s : State) (capture : Vector (Option (Nat × BitVec 16)) 34) (unlock : Vector (Option Nat) 34) : State :=
  { s with acc := { s.acc with capture := capture, unlock := unlock } }

theorem State.writing_rearmed (s : State) (m : Master) : ∃ capture unlock, s.writing m = s.rearmed capture unlock := by
  unfold State.writing State.spend State.setUnlock
  split <;> exact ⟨_, _, rfl⟩

/-- A row that stores nothing, in TEST too, stores no bit. -/
theorem State.storedBits_nothing {r : RegRow} (bits : r.bits .ctl ||| r.bits .shd ||| r.bits .grd ||| r.bits .fen = 0)
    (counts : r.bits .cnt = 0) (s : State) : s.storedBits r = 0 := by
  rw [State.storedBits, bits, counts]
  split <;> rfl

/-- A write of a register that stores nothing, one for all masters or one of each, only acts. -/
theorem State.command_only_acts {s : State} {m : Master} {a : Nat} {r : RegRow} (inv : s.Inv) (takes : s.Takes m a)
    (row : regRow a = some r) (bits : r.bits .ctl ||| r.bits .shd ||| r.bits .grd ||| r.bits .fen = 0) (counts : r.bits .cnt = 0)
    (direct : a < 0x1000000) (aligned : a % 4 = 0) (other : a ≠ Reg.GLB_UNLOCK) (out : inWindow a = false) (data : Word) :
    ∃ capture unlock, s.command m a data =
      (s.rearmed capture unlock).wrote m a (s.reg (regKey r m a)) (s.reg (regKey r m a)) data := by
  obtain ⟨capture, unlock, writing⟩ := s.writing_rearmed m
  have written := State.commandN_of_takes takes row direct aligned other data.toNat
  rw [State.commandN, BitVec.ofNat_toNat, BitVec.setWidth_eq, writing,
    State.writeFields_of_stores_nothing (s := s.rearmed capture unlock) inv.2 (State.storedBits_nothing bits counts _) out] at written
  exact ⟨capture, unlock, written⟩

end Sys2Proof.Machine
end

section
/-! Snapshots and the banks of the error counters (R291, R292, R295, R296). -/

namespace Sys2Proof.Machine

open Sys2Proof

/-- The row of CNT_SNAP_CMD: one register for all masters that stores nothing of what is written. -/
def snapRow : RegRow := row 0x1B0000 [] [(.cmd, 0x80000003)] 0

theorem regRow_snapCmd : regRow Reg.CNT_SNAP_CMD = some snapRow := by decide

theorem State.command_snapCmd {s : State} {m : Master} (inv : s.Inv) (takes : s.Takes m Reg.CNT_SNAP_CMD) (data : Word) :
    ∃ capture unlock, s.command m Reg.CNT_SNAP_CMD data = (s.rearmed capture unlock).snapWritten data :=
  State.command_only_acts inv takes regRow_snapCmd rfl rfl (by decide) (by decide) (by decide) (by decide) data

/-! ## A request -/

/-- The other bank is neither frozen nor being cleared, or Sump is not ready. -/
def State.BankFree (s : State) : Prop :=
  s.sumpReady = false ∨ (s.bit Reg.CNT_SNAP_STATUS 2 = false ∧ s.bit Reg.CNT_SNAP_STATUS 3 = false)

theorem State.bankFree_iff (s : State) :
    s.BankFree ↔ (s.sumpReady && (s.bit Reg.CNT_SNAP_STATUS 2 || s.bit Reg.CNT_SNAP_STATUS 3)) = false := by
  cases ready : s.sumpReady <;> simp [State.BankFree, ready]

theorem State.requestSnap_free {s : State} (idle : s.acc.snapPending = false) (free : s.BankFree) : s.requestSnap =
    (({ s with acc := { s.acc with snapPending := true } } : State).setBit Reg.CNT_SNAP_STATUS 0 false).setBit
      Reg.CNT_SNAP_STATUS 4 false := by
  simp only [State.requestSnap, idle, s.bankFree_iff.mp free, Bool.false_eq_true, if_false]

theorem State.requestSnap_taken {s : State} (idle : s.acc.snapPending = false) (ready : s.sumpReady = true)
    (taken : s.bit Reg.CNT_SNAP_STATUS 2 = true ∨ s.bit Reg.CNT_SNAP_STATUS 3 = true) :
    s.requestSnap = (s.setBit Reg.CNT_SNAP_STATUS 4 true).count Reg.CNT_SNAP_REFUSED := by
  have other : (s.bit Reg.CNT_SNAP_STATUS 2 || s.bit Reg.CNT_SNAP_STATUS 3) = true := Bool.or_eq_true_iff.mpr taken
  simp only [State.requestSnap, idle, ready, other, Bool.and_self, Bool.false_eq_true, if_false, if_true]

theorem State.exec_snapshotRequest {s : State} {m : Master} {data : Word} (inv : s.Inv) (takes : s.Takes m Reg.CNT_SNAP_CMD)
    (snap : data.getLsbD 0 = true) (alone : data.getLsbD 1 = false) :
    ∃ capture unlock, exec (.snapshotRequest m data) s = .next (s.rearmed capture unlock).requestSnap := by
  obtain ⟨capture, unlock, written⟩ := State.command_snapCmd inv takes data
  refine ⟨capture, unlock, ?_⟩
  simp only [exec, execSnapshotRequest, State.whenCore_on takes.1.1, written, State.snapWritten, snap, alone, Bool.false_eq_true,
    if_false, if_true]

/-! ## The banks -/

theorem State.releaseBank_frozen {s : State} (frozen : s.bit Reg.CNT_SNAP_STATUS 2 = true) (idle : s.bit Reg.CNT_SNAP_STATUS 3 = false) :
    s.releaseBank = (s.setBit Reg.CNT_SNAP_STATUS 2 false).setBit Reg.CNT_SNAP_STATUS 3 true := by
  simp only [State.releaseBank, frozen, idle, Bool.not_false, Bool.and_self, if_true]

theorem State.exec_bankRelease {s : State} {m : Master} (inv : s.Inv) (takes : s.Takes m Reg.CNT_SNAP_CMD) :
    ∃ capture unlock, exec (.bankRelease m) s = .next (s.rearmed capture unlock).releaseBank := by
  obtain ⟨capture, unlock, written⟩ := State.command_snapCmd inv takes 2
  refine ⟨capture, unlock, ?_⟩
  simp only [exec, execBankRelease, State.whenCore_on takes.1.1]
  exact congrArg Host.Outcome.next written

/-- Sump with the bank that is not live cleared, or both after a training. -/
def State.clearedBanks (s : State) : State :=
  { s with cav := { s.cav with
    countersA := if s.cav.bothClearing || s.bit Reg.CNT_SNAP_STATUS 1 then [] else s.cav.countersA
    countersB := if s.cav.bothClearing || !s.bit Reg.CNT_SNAP_STATUS 1 then [] else s.cav.countersB
    bothClearing := false } }

theorem State.exec_bankClearEnd {s : State} (core : s.coreOn = true) (clearing : s.bit Reg.CNT_SNAP_STATUS 3 = true) :
    exec .bankClearEnd s = .next (s.clearedBanks.setBit Reg.CNT_SNAP_STATUS 3 false) := by
  simp only [exec, execBankClearEnd, State.whenCore_on core, clearing, Bool.not_true, Bool.false_eq_true, if_false]
  rfl

/-- Settles O45: a write of CNT_SNAP_CMD is the request or the release that its bits name, and each of them sets bits of
CNT_SNAP_STATUS alone. -/
theorem snapshotsAndBanks : Obligations.SnapshotsAndBanks := by
  intro s inv core
  refine ⟨fun m data takes snap alone idle => ⟨fun free => ?_, fun ready taken => ?_⟩, fun m takes frozen idle => ?_,
    fun clearing => ?_⟩
  · obtain ⟨capture, unlock, run⟩ := State.exec_snapshotRequest inv takes snap alone
    rw [State.requestSnap_free (s := s.rearmed capture unlock) idle free] at run
    refine ⟨_, run, rfl, ?_, State.bit_setBit_same _ _ (by decide) _, ?_, .of_mem rfl⟩
    · rw [State.bit_setBit _ _ _ _ (by decide), if_neg (by decide), State.bit_setBit_same _ _ (by decide)]
    · exact (SameRegsBut.of_regs rfl _).trans ((SameRegsBut.setBit (by simp) _ 0 false).trans (.setBit (by simp) _ 4 false))
  · obtain ⟨capture, unlock, run⟩ := State.exec_snapshotRequest inv takes snap alone
    rw [State.requestSnap_taken (s := s.rearmed capture unlock) idle ready taken] at run
    have shown : SameRegsBut [Reg.CNT_SNAP_STATUS] s ((s.rearmed capture unlock).setBit Reg.CNT_SNAP_STATUS 4 true) :=
      (SameRegsBut.of_regs rfl _).trans (.setBit (List.mem_singleton_self _) _ 4 true)
    refine ⟨_, run, ?_, ?_, (Counted.count _ _).after (shown _ (by decide)), (shown.mono (by simp)).trans (.count (by simp) _),
      .of_mem rfl⟩
    · rw [State.count_acc]
      exact idle
    · rw [State.bit, State.reg_count_other (by decide)]
      exact State.bit_setBit_same _ _ (by decide) _
  · obtain ⟨capture, unlock, run⟩ := State.exec_bankRelease inv takes
    rw [State.releaseBank_frozen (s := s.rearmed capture unlock) frozen idle] at run
    refine ⟨_, run, ?_, State.bit_setBit_same _ _ (by decide) _, ?_, .of_mem rfl⟩
    · rw [State.bit_setBit _ _ _ _ (by decide), if_neg (by decide), State.bit_setBit_same _ _ (by decide)]
    · exact (SameRegsBut.of_regs rfl _).trans ((SameRegsBut.setBit (by simp) _ 2 false).trans (.setBit (by simp) _ 3 true))
  · refine ⟨_, State.exec_bankClearEnd core clearing, State.bit_setBit_same _ _ (by decide) _, fun live => ?_, fun live => ?_,
      (SameRegsBut.of_regs rfl _).trans (.setBit (by simp) _ 3 false), .of_mem rfl⟩
    · exact if_pos (by rcases live with live | live <;> simp [live])
    · exact if_pos (by rcases live with live | live <;> simp [live])

end Sys2Proof.Machine
end

section
/-! Barriers, changes of the rules of access protection, and its fault FIFO (R279, R314, R315, R317). -/

namespace Sys2Proof.Machine

open Sys2Proof

/-! ## Changes that take effect -/

/-- The word that the last of some changes gives a region register. -/
def lastWord (changes : List (Nat × Word)) (a : Nat) : Option Nat :=
  (changes.filter fun x => x.1 == a).getLast?.map fun x => x.2.toNat

theorem lastWord_cons (x : Nat × Word) (changes : List (Nat × Word)) (a : Nat) :
    lastWord (x :: changes) a = if x.1 = a then some ((lastWord changes a).getD x.2.toNat) else lastWord changes a := by
  unfold lastWord
  by_cases same : x.1 = a
  · rw [List.filter_cons_of_pos (by simp [same]), List.getLast?_cons, if_pos same]
    cases (changes.filter fun y => y.1 == a).getLast? <;> rfl
  · rw [List.filter_cons_of_neg (by simp [same]), if_neg same]

theorem State.ruleTakesEffect_none {s : State} (none : s.acc.changes = []) : s.ruleTakesEffect = s := by
  simp only [State.ruleTakesEffect, none]

/-- The oldest change in force. -/
theorem State.ruleTakesEffect_cons {s : State} {a : Nat} {w : Word} {rest : List (Nat × Word)} (first : s.acc.changes = (a, w) :: rest) :
    s.ruleTakesEffect.acc.changes = rest ∧ (∀ b, s.ruleTakesEffect.rule b = if b = a then w.toNat else s.rule b) ∧
      ∀ m : Master, s.ruleTakesEffect.acc.barrier[m] = s.acc.barrier[m].map (· - 1) := by
  simp only [State.ruleTakesEffect, first]
  refine ⟨trivial, fun b => ?_, fun m => vall_same s.acc.barrier _ m⟩
  simp only [State.rule, Store.get_set]
  split <;> rfl

/-- After the first changes up to a number, in their order, the others wait and each register holds the last word given to it. -/
theorem State.rulesTakeEffect_spec (n : Nat) (s : State) :
    (State.rulesTakeEffect n s).acc.changes = s.acc.changes.drop n ∧
      ∀ a, (State.rulesTakeEffect n s).rule a = (lastWord (s.acc.changes.take n) a).getD (s.rule a) := by
  induction n generalizing s with
  | zero => exact ⟨rfl, fun a => rfl⟩
  | succ n ih =>
    obtain ⟨changes, rules⟩ := ih s.ruleTakesEffect
    rw [State.rulesTakeEffect]
    cases first : s.acc.changes with
    | nil =>
      rw [State.ruleTakesEffect_none first, first] at changes rules
      rw [State.ruleTakesEffect_none first]
      exact ⟨by simpa using changes, fun a => by simpa using rules a⟩
    | cons x rest =>
      obtain ⟨left, inForce, -⟩ := State.ruleTakesEffect_cons first
      rw [left] at changes rules
      refine ⟨changes, fun a => ?_⟩
      rw [rules, inForce, List.take_succ_cons, lastWord_cons]
      by_cases same : x.1 = a
      · rw [if_pos same, if_pos same.symm, Option.getD_some]
      · rw [if_neg same, if_neg (Ne.symm same)]

theorem State.endBarrier_spec {s : State} {m : Master} {n : Nat} (waits : s.acc.barrier[m] = some n) :
    (s.endBarrier m).acc.barrier[m] = none ∧ (s.endBarrier m).acc.changes = s.acc.changes.drop n ∧
      (∀ a, (s.endBarrier m).rule a = (lastWord (s.acc.changes.take n) a).getD (s.rule a)) ∧
      (s.endBarrier m).regs = s.regs ∧ (s.endBarrier m).mem = s.mem := by
  obtain ⟨changes, rules⟩ := State.rulesTakeEffect_spec n s
  have regs : (State.rulesTakeEffect n s).regs = s.regs := by simp [State.rulesTakeEffect_keeps]
  have mem : (State.rulesTakeEffect n s).mem = s.mem := by simp [State.rulesTakeEffect_keeps]
  simp only [State.endBarrier, waits]
  exact ⟨vset_same _ m none, changes, rules, regs, mem⟩

/-! ## The commands -/

/-- The row of MPU_SYNC: one register of each master that stores nothing of what is written. -/
def syncRow : RegRow := rowPm 0x120008 [] [(.sta, 0x1), (.cmd, 0x80000000)] 0x1

/-- The row of MPU_FAULT_POP: one register for all masters that stores nothing of what is written. -/
def faultPopRow : RegRow := row 0x12001C [] [(.pop, 0xFFFFFFFF)] 0

theorem regRow_mpuSync : regRow Reg.MPU_SYNC = some syncRow := by decide

theorem regRow_mpuFaultPop : regRow Reg.MPU_FAULT_POP = some faultPopRow := by decide

theorem State.exec_mpuSyncWrite {s : State} {m : Master} (inv : s.Inv) (takes : s.Takes m Reg.MPU_SYNC) (data : Word) :
    ∃ capture unlock, exec (.mpuSyncWrite m data) s = .next ((s.rearmed capture unlock).startBarrier m) := by
  obtain ⟨capture, unlock, written⟩ :=
    State.command_only_acts inv takes regRow_mpuSync rfl rfl (by decide) (by decide) (by decide) (by decide) data
  refine ⟨capture, unlock, ?_⟩
  simp only [exec, execMpuSyncWrite, State.whenCore_on takes.1.1, written]
  rfl

theorem State.exec_mpuFaultPop {s : State} {m : Master} (inv : s.Inv) (takes : s.Takes m Reg.MPU_FAULT_POP) (data : Word) :
    ∃ capture unlock, exec (.mpuFaultPop m data) s = .next (s.rearmed capture unlock).popFault := by
  obtain ⟨capture, unlock, written⟩ :=
    State.command_only_acts inv takes regRow_mpuFaultPop rfl rfl (by decide) (by decide) (by decide) (by decide) data
  refine ⟨capture, unlock, ?_⟩
  simp only [exec, execMpuFaultPop, State.whenCore_on takes.1.1, written]
  rfl

/-- Settles O46: a barrier's end puts in force, one by one, as many of the oldest changes as it waits for, so each region register
ends with the last word that they give it. -/
theorem ruleChanges : Obligations.RuleChanges := by
  intro s inv core
  refine ⟨fun m data takes => ?_, fun m n waits => ?_, fun a w rest first => ?_, fun m data takes => ?_⟩
  · obtain ⟨capture, unlock, run⟩ := State.exec_mpuSyncWrite inv takes data
    exact ⟨_, run, vset_same s.acc.barrier m _, rfl, .of_regs rfl _, .of_mem rfl⟩
  · obtain ⟨done, changes, rules, regs, mem⟩ := State.endBarrier_spec waits
    refine ⟨s.endBarrier m, ?_, done, rules, changes, regs, mem⟩
    simp only [exec, execMpuBarrierDone, State.whenCore_on core]
  · obtain ⟨changes, rules, barriers⟩ := State.ruleTakesEffect_cons first
    refine ⟨s.ruleTakesEffect, ?_, changes, (rules a).trans (if_pos rfl), fun b other => (rules b).trans (if_neg other), barriers,
      by simp [State.ruleTakesEffect_keeps], by simp [State.ruleTakesEffect_keeps]⟩
    simp only [exec, execRuleChangeEffect, State.whenCore_on core]
  · obtain ⟨capture, unlock, run⟩ := State.exec_mpuFaultPop inv takes data
    exact ⟨_, run, rfl, rfl, .of_regs rfl _, .of_mem rfl⟩

end Sys2Proof.Machine
end

section
/-! A command of Geode is captured (R276, R331, R333): its operands are the words of its master's window, and of Geode only the slots
that it names, or marks pending, change beside the list of the commands that have not ended. -/

namespace Sys2Proof.Machine

open Sys2Proof

/-! ## The capture -/

/-- The command captured depends on its master's window alone. -/
theorem State.captureKey_congr {s t : State} {m : Master} (same : ∀ a, 0x130000 ≤ a → t.reg (pmKey m a) = s.reg (pmKey m a)) (w : Word)
    (root : Bool) : t.captureKey m w root = s.captureKey m w root := by
  have data (i : Nat) : t.reg (pmKey m (Reg.KEY_DATA i)) = s.reg (pmKey m (Reg.KEY_DATA i)) :=
    same _ (by simp only [Reg.KEY_DATA]; omega)
  simp only [State.captureKey, State.fld, same Reg.KEY_SLOT (by decide), same Reg.KEY_ARG (by decide), same Reg.KEY_ATTR_IN (by decide),
    same Reg.KEY_LEN (by decide), data]

/-- The state in which a write of a register for all masters is evaluated holds the master's window as it was. -/
theorem State.captureKey_writes (s : State) (acc : AccessState) {a : Nat} (direct : a < 0x1000000) (mask : Nat) (data : Word) (m : Master)
    (w : Word) (root : Bool) : (s.writes acc a mask data).captureKey m w root = s.captureKey m w root :=
  State.captureKey_congr (fun b _ => State.reg_setReg_other (by simp only [pmKey]; omega) _ _) w root

/-! ## The acceptance -/

/-- Geode stands as before but for its slots. -/
def State.OnlySlots (s t : State) : Prop := ∃ slots, t.geode = { s.geode with slots := slots }

theorem State.OnlySlots.trans {s t u : State} (h : s.OnlySlots t) (h' : t.OnlySlots u) : s.OnlySlots u := by
  obtain ⟨_, first⟩ := h
  obtain ⟨slots, second⟩ := h'
  exact ⟨slots, by rw [second, first]⟩

theorem State.readSlot_onlySlots (s : State) (k : BitVec 8) : s.OnlySlots (s.readSlot k) := by
  unfold State.readSlot
  split
  · exact ⟨_, rfl⟩
  · exact ⟨(s.modSlot k KeySlot.recovered).geode.slots, by simp [State.modSlot]⟩

theorem State.over_readSlot_onlySlots (s : State) (l : List (BitVec 8)) : s.OnlySlots (s.over l State.readSlot) :=
  State.over_induction (I := s.OnlySlots) ⟨_, rfl⟩ fun t k _ h => h.trans (t.readSlot_onlySlots k)

theorem State.markPending_onlySlots (s : State) (p : BitVec 8) : s.OnlySlots (s.markPending p) := ⟨_, rfl⟩

/-- A command taken by Geode: it runs where none does and else waits behind those that wait. -/
def State.takeKey (s : State) (c : KeyCommand) : State :=
  if s.geode.running.isNone then { s with geode := { s.geode with running := some c } }
  else { s with geode := { s.geode with queue := s.geode.queue ++ [c] } }

/-- A command with an operation is taken as captured, marked with whether its operands are pending and whether it marks its slot. -/
theorem State.acceptKey_takes {s : State} {m : Master} {w : Word} {root : Bool} (named : (s.captureKey m w root).op ≠ 0) :
    ∃ u p q, s.OnlySlots u ∧ s.acceptKey m w root = u.takeKey { s.captureKey m w root with pend := p, marks := q } := by
  have read := s.over_readSlot_onlySlots (s.captureKey m w root).named
  rw [State.acceptKey, if_neg named]
  refine ⟨_, _, _, ?_, rfl⟩
  split
  · exact read.trans (State.markPending_onlySlots ..)
  · exact read

/-- What a command taken leaves of Geode. -/
structure KeyTaken (s t : State) (c : KeyCommand) : Prop where
  fuses : t.geode.fuses = s.geode.fuses
  root : t.geode.root = s.geode.root
  assocs : t.geode.assocs = s.geode.assocs
  runs : s.geode.running = none → t.geode.running = some c ∧ t.geode.queue = s.geode.queue
  waits : s.geode.running ≠ none → t.geode.running = s.geode.running ∧ t.geode.queue = s.geode.queue ++ [c]

theorem State.takeKey_taken {s u : State} (only : s.OnlySlots u) (c : KeyCommand) : KeyTaken s (u.takeKey c) c := by
  obtain ⟨slots, same⟩ := only
  cases h : s.geode.running with
  | none =>
    have idle : u.takeKey c = { u with geode := { u.geode with running := some c } } := if_pos (by simp [same, h])
    rw [idle, same]
    exact ⟨rfl, rfl, rfl, fun _ => ⟨rfl, rfl⟩, fun busy => absurd h busy⟩
  | some k =>
    have busy : u.takeKey c = { u with geode := { u.geode with queue := u.geode.queue ++ [c] } } := if_neg (by simp [same, h])
    rw [busy, same]
    exact ⟨rfl, rfl, rfl, fun idle => absurd (h.symm.trans idle) (by simp), fun _ => ⟨rfl, rfl⟩⟩

/-! ## The commands -/

/-- A command of KEY_CMD and the word that it writes (Table ENC-5). -/
def IsKeyCommand (m : Master) (c : Instr) (w : Nat) : Prop :=
  (∃ r d, c = .derive m r d ∧ w = 1 + 16 * b2n r + 32 * b2n d) ∨ (c = .keyInvalidate m ∧ w = 2) ∨ (c = .mac m ∧ w = 3) ∨
    (c = .sign m ∧ w = 4) ∨ (∃ r, c = .ecdhGen m r ∧ w = 5 + 16 * b2n r) ∨ (∃ r, c = .ecdhAgree m r ∧ w = 6 + 16 * b2n r) ∨
    (c = .wrap m ∧ w = 7) ∨ (∃ r, c = .unwrap m r ∧ w = 8 + 16 * b2n r) ∨ (c = .keyInfo m ∧ w = 9) ∨
    (∃ x, c = .saInstall m x ∧ w = 10 + 64 * b2n x) ∨ (∃ x, c = .saRetire m x ∧ w = 11 + 64 * b2n x)

/-- A command of KEY_ROOT_CMD and the word that it writes. -/
def IsRootCommand (m : Master) (c : Instr) (w : Nat) : Prop := (c = .rootNew m ∧ w = 1) ∨ (c = .zeroise m ∧ w = 2)

theorem IsKeyCommand.op_ne {m : Master} {c : Instr} {w : Nat} (h : IsKeyCommand m c w) : bitsOf (BitVec.ofNat 32 w) 3 0 % 16 ≠ 0 := by
  have op : bitsOf (BitVec.ofNat 32 w) 3 0 % 16 = w % 16 := by simp [bitsOf]
  have known : w % 16 ≠ 0 := by unfold IsKeyCommand at h; omega
  rwa [op]

theorem IsRootCommand.op_ne {m : Master} {c : Instr} {w : Nat} (h : IsRootCommand m c w) : bitsOf (BitVec.ofNat 32 w) 1 0 % 16 ≠ 0 := by
  have op : bitsOf (BitVec.ofNat 32 w) 1 0 % 16 = w % 4 := by simp [bitsOf]; omega
  have known : w % 4 ≠ 0 := by unfold IsRootCommand at h; omega
  rwa [op]

theorem IsKeyCommand.exec_eq {m : Master} {c : Instr} {w : Nat} (h : IsKeyCommand m c w) (s : State) :
    exec c s = .next (s.whenCore fun s => s.commandN m Reg.KEY_CMD w) := by
  rcases h with ⟨r, d, rfl, rfl⟩ | ⟨rfl, rfl⟩ | ⟨rfl, rfl⟩ | ⟨rfl, rfl⟩ | ⟨r, rfl, rfl⟩ | ⟨r, rfl, rfl⟩ | ⟨rfl, rfl⟩ | ⟨r, rfl, rfl⟩ |
    ⟨rfl, rfl⟩ | ⟨x, rfl, rfl⟩ | ⟨x, rfl, rfl⟩ <;> rfl

theorem IsRootCommand.exec_eq {m : Master} {c : Instr} {w : Nat} (h : IsRootCommand m c w) (s : State) :
    exec c s = .next (s.whenCore fun s => s.commandN m Reg.KEY_ROOT_CMD w) := by
  rcases h with ⟨rfl, rfl⟩ | ⟨rfl, rfl⟩ <;> rfl

/-! ## KEY_CMD and KEY_ROOT_CMD -/

/-- The row of KEY_CMD, which stores nothing of what is written. -/
def keyCmdRow : RegRow := row 0x130020 [] [(.cmd, 0x8000007F)] 0

/-- The row of KEY_ROOT_CMD, whose guarded operation stays in the register. -/
def keyRootRow : RegRow := row 0x130030 [] [(.grd, 0x3), (.cmd, 0x80000000)] 0

theorem regRow_keyCmd : regRow Reg.KEY_CMD = some keyCmdRow := by decide

theorem regRow_keyRootCmd : regRow Reg.KEY_ROOT_CMD = some keyRootRow := by decide

theorem State.commandN_keyCmd {s : State} {m : Master} (takes : s.Takes m Reg.KEY_CMD) (w : Nat) :
    ∃ acc mask, s.commandN m Reg.KEY_CMD w =
      (s.writes acc Reg.KEY_CMD mask (BitVec.ofNat 32 w)).acceptKey m (BitVec.ofNat 32 w) false := by
  obtain ⟨acc, written⟩ := State.command_of_takes (mask := 0) takes regRow_keyCmd ⟨rfl, rfl, rfl⟩ (by decide) (by decide) (by decide)
    (by decide) (BitVec.ofNat 32 w)
  exact ⟨acc, 0, written⟩

theorem State.commandN_keyRootCmd {s : State} {m : Master} (takes : s.Takes m Reg.KEY_ROOT_CMD) (w : Nat) :
    ∃ acc mask, s.commandN m Reg.KEY_ROOT_CMD w =
      (s.writes acc Reg.KEY_ROOT_CMD mask (BitVec.ofNat 32 w)).acceptKey m (BitVec.ofNat 32 w) true := by
  obtain ⟨acc, written⟩ := State.command_of_takes (mask := 3) takes regRow_keyRootCmd ⟨rfl, rfl, rfl⟩ (by decide) (by decide) (by decide)
    (by decide) (BitVec.ofNat 32 w)
  exact ⟨acc, 3, written⟩

/-- A command with an operation, evaluated after its write, is captured as the state before the write holds its operands. -/
theorem State.acceptKey_writes {s : State} {a : Nat} (acc : AccessState) (direct : a < 0x1000000) (mask : Nat) {m : Master} {w : Word}
    {root : Bool} (named : (s.captureKey m w root).op ≠ 0) (t : State) (accepted : t = (s.writes acc a mask w).acceptKey m w root) :
    ∃ p q, KeyTaken s t { s.captureKey m w root with pend := p, marks := q } ∧ SameMemory s t := by
  have captured := s.captureKey_writes acc direct mask w m w root
  rw [← captured] at named
  obtain ⟨u, p, q, only, taken⟩ := State.acceptKey_takes named
  have slots : s.OnlySlots u := .trans ⟨_, rfl⟩ only
  refine ⟨p, q, ?_, .of_mem ?_⟩
  · rw [accepted, taken, captured]
    exact State.takeKey_taken slots _
  · simp [accepted, State.acceptKey_keeps, State.writes]

/-- Settles O48: the write of the command's word is the capture of its operands, and Geode takes the command captured. -/
theorem keyCommandsAccepted : Obligations.KeyCommandsAccepted := by
  intro s m c w inv a root h takes
  have run : ∃ acc mask, a < 0x1000000 ∧ (s.captureKey m (BitVec.ofNat 32 w) root).op ≠ 0 ∧
      exec c s = .next ((s.writes acc a mask (BitVec.ofNat 32 w)).acceptKey m (BitVec.ofNat 32 w) root) := by
    rcases h with ⟨rfl, rfl, key⟩ | ⟨rfl, rfl, key⟩
    · have key : IsKeyCommand m c w := key
      obtain ⟨acc, mask, written⟩ := State.commandN_keyCmd takes w
      refine ⟨acc, mask, by decide, fun none => key.op_ne ?_, by rw [key.exec_eq, State.whenCore_on takes.1.1, written]⟩
      simpa [State.captureKey] using congrArg BitVec.toNat none
    · have key : IsRootCommand m c w := key
      obtain ⟨acc, mask, written⟩ := State.commandN_keyRootCmd takes w
      refine ⟨acc, mask, by decide, fun none => key.op_ne ?_, by rw [key.exec_eq, State.whenCore_on takes.1.1, written]⟩
      simpa [State.captureKey] using congrArg BitVec.toNat none
  obtain ⟨acc, mask, direct, named, run⟩ := run
  obtain ⟨p, q, taken, mem⟩ := State.acceptKey_writes acc direct mask named _ rfl
  exact ⟨_, p, q, run, taken.fuses, taken.root, taken.assocs, mem, taken.runs, taken.waits⟩

end Sys2Proof.Machine
end

section
/-! The arming of a master by GLB_UNLOCK, and what spends that of the car computer (R17, R285-R287, R290). -/

namespace Sys2Proof.Machine

open Sys2Proof

/-! ## GLB_UNLOCK with the key -/

theorem State.writeUnlock_key (s : State) (m : Master) : s.writeUnlock m unlockKey = s.setUnlock m (some 0) := if_pos rfl

/-! ## A word that the car computer writes -/

/-- A word written alone is one access. -/
theorem State.serveWrites_word (s : State) (m : Master) (addr : Nat) (w : Word) :
    (s.serveWrites m addr [w]).state = (s.writeAccess m (addr % 2 ^ 40) w).1 := by
  simp only [State.serveWrites]
  split <;> rfl

/-- The answer to an access leaves access control and the power state. -/
theorem State.writeAccess_command (s : State) (m : Master) (addr : Nat) (w : Word) :
    (s.writeAccess m addr w).1.acc = (s.command m addr w).acc ∧ (s.writeAccess m addr w).1.pwr = (s.command m addr w).pwr := by
  simp [State.command, State.answered_keeps]

/-- An active hub is not woken (R384). -/
theorem State.wakeBy_active {s : State} (active : s.pwr.state = .active) (src : Nat) : s.wakeBy src = s := by
  unfold State.wakeBy
  rw [active]
  split <;> rfl

/-- The row of MON_CFG, which has no action beside its fields. -/
def monCfgRow : RegRow := row 0x1A0000 [] [(.ctl, 0xFF01)] 0x6401

theorem regRow_monCfg : regRow Reg.MON_CFG = some monCfgRow := by decide

/-- A write of MON_CFG spends its master's arming and stores a word. -/
theorem State.command_monCfg {s : State} {m : Master} (takes : s.Takes m Reg.MON_CFG) (data : Word) :
    ∃ w, s.command m Reg.MON_CFG data = (s.writing m).setReg Reg.MON_CFG w := by
  have written := State.commandN_of_takes takes regRow_monCfg (by decide) (by decide) (by decide) data.toNat
  have out : inWindow Reg.MON_CFG = false := by decide
  rw [State.commandN, BitVec.ofNat_toNat, BitVec.setWidth_eq] at written
  rw [written]
  simp only [State.writeFields, out, Bool.false_eq_true, if_false]
  exact ⟨_, rfl⟩

/-- A whole write that the hub hears from the car computer is its accesses, where they leave the hub active. -/
theorem exec_carWrite_active {s : State} {via : CarPort} (core : s.coreOn = true) (heard : s.carHears via = true) {count : Byte}
    {addr : CarAddr} {data : List Byte} (ok : carOk count (carAddr addr) = true) (whole : 4 * count.toNat ≤ data.length) {x : Served}
    (served : s.serveWrites 5 (carAddr addr).toNat (carWords count.toNat data) = x) (active : x.state.pwr.state = .active) :
    exec (.carWrite via count addr data) s =
      .next { x.state with carStatus := (BitVec.ofNat 8 x.done, BitVec.ofNat 8 x.status) } := by
  simp only [exec, execCarWrite, State.whenCar, heard, State.whenCore_on core, ok, decide_eq_true whole, Bool.and_self, if_true, served]
  exact congrArg Host.Outcome.next
    (State.wakeBy_active (s := { x.state with carStatus := (BitVec.ofNat 8 x.done, BitVec.ofNat 8 x.status) }) active 1)

/-- A write of one word to MON_CFG by the car computer consumes its arming. -/
theorem exec_carWrite_monCfg {s : State} {via : CarPort} (heard : s.carHears via = true) (active : s.pwr.state = .active)
    (takes : s.Takes 5 Reg.MON_CFG) {addr : CarAddr} (named : carAddr addr = BitVec.ofNat 40 Reg.MON_CFG) {data : List Byte}
    (whole : 4 ≤ data.length) : ∃ t, exec (.carWrite via 1 addr data) s = .next t ∧ t.acc.unlock[(5 : Master)] = none := by
  obtain ⟨word, hword⟩ : ∃ word, word = BitVec.ofNat 32 (leNat (data.take 4)) := ⟨_, rfl⟩
  obtain ⟨w, written⟩ := State.command_monCfg takes word
  obtain ⟨capture, unlock, writing⟩ := s.writing_rearmed 5
  obtain ⟨acc, pwr⟩ := s.writeAccess_command 5 Reg.MON_CFG word
  have served : s.serveWrites 5 (carAddr addr).toNat (carWords (1 : Byte).toNat data) = s.serveWrites 5 Reg.MON_CFG [word] := by
    rw [named, hword]
    rfl
  have state : (s.serveWrites 5 Reg.MON_CFG [word]).state = (s.writeAccess 5 Reg.MON_CFG word).1 := s.serveWrites_word 5 Reg.MON_CFG word
  have stays : (s.serveWrites 5 Reg.MON_CFG [word]).state.pwr.state = .active := by
    rw [state, pwr, written, writing]
    exact active
  refine ⟨_, exec_carWrite_active (count := 1) takes.1.1 heard (by rw [named]; decide) whole served stays, ?_⟩
  dsimp only
  rw [state, acc, written]
  exact State.setUnlock_same (s := s.endCapture 5) (by decide) none

/-- Settles O44: the write of the key is one change of its master's arming, and a car write is the same access of master 5 on either
port. -/
theorem unlockArming : Obligations.UnlockArming := by
  intro s core
  refine ⟨fun m takes => ?_, fun a count addr data own => ?_, fun via addr data heard active takes named whole =>
    exec_carWrite_monCfg heard active takes named whole⟩
  · have written := State.exec_glbUnlockWrite takes.1 unlockKey
    rw [State.writeUnlock_key] at written
    refine ⟨_, written, fun not4 not9 => State.setUnlock_same ⟨not4, not9⟩ _, fun j other => ?_,
      (s.unlockRewritten_regs m).of_regs_right (State.setUnlock_regs ..), .of_mem ?_, ?_⟩
    · rw [State.setUnlock_other other, State.unlockRewritten_unlock]
    · simp [State.setUnlock_keeps, State.unlockRewritten_mem]
    · simp [State.setUnlock_keeps, State.unlockRewritten, State.endCapture_keeps]
  · have heard : s.carHears (.i2c a) = s.carHears .spi := by simp [State.carHears, own]
    simp only [exec, execCarWrite, State.whenCar, heard]

end Sys2Proof.Machine
end
